-- ==== Sys2Proof/Word.lean ====
section
/-! DEFINITION. The words of the package and its two worlds. -/

namespace Sys2Proof

/-- A byte of memory or of a packet. -/
abbrev Byte := BitVec 8

/-- A register of the register window (00 R7: every register is 64 bits wide). -/
abbrev Word := BitVec 64

/-- The two worlds (00, *Unit names and numbering*; 14). -/
inductive World where
  /-- world N, coded 0 -/
  | n
  /-- world S, coded 1 -/
  | s
  deriving DecidableEq, Repr

/-- The identity an access carries: a partition and a world (14 R366). -/
structure Ident where
  /-- partition, 0 to 63 -/
  pid : Nat
  /-- world of the access -/
  world : World
  deriving DecidableEq, Repr

end Sys2Proof
end

