-- ==== Sys2Proof/Syntax.lean ====
section
/-! DEFINITION. The commands the package takes, one constructor per row of the opcode table, and the operand
types they carry. -/

namespace Sys2Proof

/-- Atomic memory operations of the A extension (12 R328). -/
inductive AmoOp where
  | swap | add | xor | and | or | min | max | minu | maxu
  deriving DecidableEq, Repr


/-- The reset domains (17 R413). -/
inductive Domain where
  | aon | sens | iso | dbg | pmc | base | port | mem
  | die (d : Fin 12)
  | clu (c : Fin 36)
  | core (h : Fin 216)
  deriving DecidableEq, Repr

/-- A release that is due (17 R414, R418): the domain, and whether PKG_COLD# and PKG_WARM# read low. -/
structure Release where
  dom : Domain
  coldLow : Bool
  warmLow : Bool
  deriving DecidableEq, Repr

/-- What a compute die site holds on the board: the straps the die latches and its stepping code (01 R14, R25). -/
structure DieSite where
  position : Nat
  orientation : Nat
  stepping : Nat
  deriving DecidableEq, Repr


/-- The DIMMs of a channel as training finds them (09 R262, R263); `none` for an empty channel. -/
structure Dimm where
  /-- RDIMM (true: MRDIMM) -/
  mr : Bool
  /-- device width, 4 or 8 -/
  width : Nat
  /-- capacity of one DIMM in GiB -/
  gib : Nat
  /-- DIMMs in the channel -/
  dpc : Nat
  /-- rate in MT/s -/
  rate : Nat
  /-- registered, ECC-carrying, x4 or x8 as the other fields say -/
  plain : Bool
  /-- the channel trains -/
  trains : Bool
  deriving DecidableEq, Repr

/-- The clocks that have monitors (18 R437). -/
inductive Clock where
  | ref | pll | fclk | eclk | mclk | sclk
  | cclk (d : Fin 12)
  | serdes (g : Fin 9)
  | aon
  deriving DecidableEq, Repr

/-- How a compute die is lost (16 R408). -/
inductive DieCause where
  | clock | supply | link | reset
  deriving DecidableEq, Repr

/-- Where a management request comes from: mailbox set 0 or 1, the sideband, a Finxis port (20 R487). -/
inductive MgmtSrc where
  | mbox (w : World)
  | sideband
  | finxis (p : Fin 4)
  deriving DecidableEq, Repr

/-- Who makes a power request (18 R448): a register of the PWR block, written by an identity, or a management message. -/
inductive PowerSrc where
  | reg (m : Fin 2) (who : Ident)
  | sideband
  | finxis (p : Fin 4)
  deriving DecidableEq, Repr


/-- A block that applies staged fields at a quiet point of its own (15 R391, *Quiet points*). -/
inductive Block where
  /-- router and endpoint of a stop -/
  | router (t : Fin 64)
  /-- home, L3 slice and directory of a stop -/
  | home (t : Fin 64)
  /-- the firewall of memory controller `f`, or of PCIe/CXL port `f` - 16 (09) -/
  | firewall (f : Fin 30)
  | ringmgr
  | slice (n : Fin 36)
  | dm (n : Fin 32)
  | fx (p : Fin 4)
  /-- every other block, at the CTU's own stop -/
  | other
  deriving DecidableEq, Repr

/-- An engine request stalled on a translation miss: a task's, on its slice, or one the ring manager makes for a descriptor
(06 R216). -/
inductive StallRef where
  | slice (n : Fin 36)
  | desc (ring : Fin 4096) (seq : Nat)
  deriving DecidableEq, Repr

/-- An operation whose end reaches its issuer: a bucket operation, a range operation of a hart, a column page read for the
task on a slice. -/
inductive OpRef where
  | bucket (id : Nat)
  | range (h : Fin 216)
  | page (n : Fin 36)
  deriving DecidableEq, Repr

/-- The atomic operations a PCIe device may send (08 R255). -/
inductive AtomicKind where
  | fetchAdd | swap | cas
  deriving DecidableEq, Repr

/-- How a flit comes to a router (11 R313): from the stop's own injection port, or travelling in a direction. -/
inductive Arrival where
  | inject | xPos | xNeg | yPos | yNeg
  deriving DecidableEq, Repr

/-- What the check bits of a link tell of a flit that crossed it (19 R464): nothing, one bit wrong, or two; `many` when the link
has needed more than 64 replays within 1 ms. -/
inductive LinkErr where
  | none
  | single
  | double (many : Bool)
  deriving DecidableEq, Repr

/-- The way a flit came to a router, and what the check of the link it crossed tells; an injected flit crossed none. -/
structure Crossing where
  dir : Arrival
  err : LinkErr
  deriving DecidableEq, Repr

/-- The address of a TLP of a device, whether the TLP carries a PASID prefix, and whether its ECRC is wrong (08 R257). -/
structure TlpAddr where
  pasid : Bool
  badEcrc : Bool
  addr : Nat
  deriving DecidableEq, Repr

/-- A line a controller or port reads, and whether a CXL device delivers its first and second 64 bytes as poison (08 R260). -/
structure DevLine where
  ln : Nat
  bad0 : Bool
  bad1 : Bool
  deriving DecidableEq, Repr

/-- What the board holds when the supplies come up: the die at each site (01 R14), and the populated memory channels as a
mask (09 R275). -/
structure Board where
  sites : List (Option DieSite)
  dimms : Nat
  deriving DecidableEq, Repr

/-- A flit (11 R307, R309): its header, and the 128 bytes of its payload. -/
structure Flit where
  aux : Nat
  time : Nat
  addr : Nat
  index : Nat
  last : Bool
  tag : Nat
  srcAgent : Nat
  dstAgent : Nat
  stage : Nat
  op : Nat
  who : Ident
  poison : Bool
  epoch : Nat
  vc : Nat
  cls : Nat
  src : Fin 64
  dst : Fin 64
  payload : List Byte
  deriving DecidableEq, Repr

/-- A requester that receives RSP_ERROR (11 R311): a cluster for a line, a hart for its I/O access, the task on a slice, a
data-mover channel, or a PCIe or CXL requester. -/
inductive ErrTarget where
  | cluster (c : Fin 36) (ln : Nat)
  | hart (h : Fin 216)
  | slice (n : Fin 36)
  | chan (n : Fin 32)
  | link (j : Fin 112) (tag : Nat)
  deriving DecidableEq, Repr

/-- What an agent gives up waiting for (19 R465): a requester for its answer, a home for line data, or a home for the snoop
answer of a caching agent. -/
inductive Awaited where
  | answer (x : ErrTarget)
  | memData (t : Fin 64) (ln : Nat)
  | snoop (t : Fin 64) (ln : Nat) (a : Fin 37)
  deriving DecidableEq, Repr

/-- A register a load writes or a store reads (12 R330): integer, floating-point, or bytes of a vector register. -/
inductive LsReg where
  | x (r : Fin 32)
  | f (r : Fin 32)
  | v (r : Fin 32) (byte : Fin 32)
  deriving DecidableEq, Repr

/-- The address-translation registers (13 R348). -/
inductive AtpReg where
  | satp | vsatp | hgatp
  deriving DecidableEq, Repr
/-- The commands of the package: one constructor per row of the opcode table (INVENTORY.md, Instructions).
Each is one whole step, and its docstring names the rule its row gives. -/
inductive Instr where
  /-- REGISTER_WRITE (R8): A write to a register that has no row of its own acts on each written field according to its field type. -/
  | registerWrite (who : Ident) (off : Nat) (size : Nat) (val : Nat) (user : Bool)
  /-- SUPPLIES_GOOD (R509): The last main rail passes its monitor threshold, and the package leaves DARK for DAWN. -/
  | suppliesGood (board : Board) (force : Bool) (test : Bool)
  /-- POWER_ON_RESET (R413): A main supply falls below its monitor threshold and a power-on reset is asserted over its reach. -/
  | powerOnReset (pulse : Bool)
  /-- COLD_RESET (R414): PKG_COLD# is held low long enough to be recognised, and a cold-reach reset is asserted. -/
  | coldReset (force : Bool) (pulse : Bool)
  /-- WARM_RESET (R414): PKG_WARM# is held low long enough to be recognised, and a warm-reach reset is asserted. -/
  | warmReset (pulse : Bool)
  /-- MRAM_PULSE_END (R415): An MRAM write pulse ends, and the reset assertion that waited for it is applied to the domains of its reach. -/
  | mramPulseEnd
  /-- SELF_REFRESH_ENTRY_DONE (R415): A memory controller under a warm-reach source finishes issuing self-refresh entry and is then reset. -/
  | selfRefreshEntryDone (m : Fin 16)
  /-- SELF_REFRESH_WAIT_TIMEOUT (R415): A controller has not entered self-refresh within 1 us of a warm-reach assertion; it is reset and its channel's contents are treated as lost. -/
  | selfRefreshWaitTimeout (m : Fin 16)
  /-- DOMAIN_RESET_RELEASE (R418): A reset domain leaves reset once every covering source is released and its clocks report clock-good, following the release sequence. -/
  | domainResetRelease (x : Release)
  /-- OPTION_LOAD_DONE (R428): The option loader puts the valid option copy with the later SEQ, or an all-zero record, in force. -/
  | optionLoadDone
  /-- PLL_LOCK (R435): The root PLL locks and SCLK switches glitch-free from the reference clock to the PLL. -/
  | pllLock
  /-- CLOCK_MONITOR_WINDOW (R437): A clock monitor closes its 640 ns edge-count window and judges the clock good or lost. -/
  | clockMonitorWindow (c : Clock) (expect : Nat) (edges : Nat) (silent : Bool)
  /-- WARMUP_SCAN (R432): Every 10 ms during warm-up SENS is read, and warm-up and DAWN end when every sensor reads -40 C or above. -/
  | warmupScan (temps : List Int)
  /-- WARMUP_TIMEOUT (R432): Warm-up is still running 300 s after it began, and the package goes to SIDING with cause 0x0C. -/
  | warmupTimeout
  /-- DRAM_TRAINING_DONE (R263): DRAM training finishes; the fill starts for a supported population, and otherwise MORNING ends and the package enters SIDING. -/
  | dramTrainingDone (dimms : List (Option Dimm))
  /-- MEMORY_FILL_DONE (R274): Every populated channel has written zero lines with valid check bytes, and the package enters DEPOT. -/
  | memoryFillDone
  /-- BOOT_AUTHENTICATION (R492): At DEPOT entry the boot ROM checks and loads the PMC image and the monitor image, applies the cold-latched options, and goes to SIDING on any failure. -/
  | bootAuthentication
  /-- SELF_TEST_DONE (R433): Self-test of the I/O die, the base and the compute dies completes, and dies that fail or are still held are recorded with STATE 0x3. -/
  | selfTestDone (fails : List (Fin 12)) (iodBase : Bool)
  /-- MAINLINE_ENTRY (R398): Once firmware is authenticated, the feature level is valid and self-test has passed, the harts of active dies start at the reset vector. -/
  | mainlineEntry
  /-- BOOT_GOOD (R401): A write of PKG_BOOT.GOOD by the monitor sets COUNT to 0. -/
  | bootGood (who : Ident)
  /-- MODE_ORDER_SUBMIT (R397): A write of GO to PKG_MODE_REQ(m) submits an order for TARGET; the write is ignored while STATUS is PENDING. -/
  | modeOrderSubmit (m : Fin 2) (who : Ident) (target : Nat)
  /-- MODE_DECISION (R406): Every 64 SCLK cycles the mode arbiter refuses, defers or ranks the pending orders, and the highest-ranked order wins. -/
  | modeDecision
  /-- DUSK_ENTRY (R399): Once every hart is in WFI and no descriptor or program is running, CCLK and ECLK are gated on every compute die. -/
  | duskEntry
  /-- DUSK_WAKE (R398): A pending interrupt, a doorbell invalidation, a VL 0 Finxis packet or an order ungates the clocks and returns the package to MAINLINE. -/
  | duskWake (packet : Bool)
  /-- NIGHT_ENTRY (R454): Once the entry conditions hold, the save list is written, the dies are powered down, DRAM enters self-refresh and the links go to LOW and L1. -/
  | nightEntry
  /-- LOW_POWER_ENTRY_TIMEOUT (R399): The DUSK or NIGHT entry conditions have not held within 10 ms of the decision, and the order completes REFUSED. -/
  | lowPowerEntryTimeout (target : Nat)
  /-- NIGHT_WAKE (R454): A wake source powers the dies, restores the save list and returns the links, and the package reaches MAINLINE with the harts at the reset vector. -/
  | nightWake
  /-- MIDNIGHT_WAKE (R454): A wake source restarts the package through DAWN, MORNING with recalibration and DEPOT, restores the save list and releases every Finxis window. -/
  | midnightWake
  /-- MODE_TRANSITION_DONE (R398): The last action of a mode transition completes, MOVING clears, and the new mode becomes current. -/
  | modeTransitionDone
  /-- DIE_LOSS (R408): A compute die suffers clock loss, a supply fault, a link error or a die reset, and its stops are fenced, its lines abandoned and its tasks ended with DIE_LOST. -/
  | dieLoss (d : Fin 12) (why : DieCause)
  /-- DIE_READMIT (R411): The PMC powers a fenced die, which latches its straps, runs self-test and exchanges capability words; a die below the package feature level is refused. -/
  | dieReadmit (d : Fin 12) (site : Option DieSite) (pass : Bool)
  /-- CORE_RESET_REQ (R422): An RCC_RST_REQ with KIND core resets the named hart, or completes REFUSED or DEFERRED. -/
  | coreResetReq (m : Fin 2) (who : Ident) (index : Nat)
  /-- CLUSTER_RESET_REQ (R422): An RCC_RST_REQ with KIND cluster fences the cluster, ends its slice task, writes back its L2 and waits for the drain. -/
  | clusterResetReq (m : Fin 2) (who : Ident) (index : Nat)
  /-- CLUSTER_RESET_DRAINED (R422): A cluster being reset reports DRAINED; its domains are reset, its arrays are initialised and the request completes DONE. -/
  | clusterResetDrained (c : Fin 36)
  /-- DIE_RESET_REQ (R422): An RCC_RST_REQ with KIND die is carried out as a die loss and completes DONE when STATE reads 0x3. -/
  | dieResetReq (m : Fin 2) (who : Ident) (index : Nat)
  /-- NDMRESET (R423): The debug module's ndmreset resets with the reach of RCC_DBG_RST, only while the required invasive enables are in force. -/
  | ndmreset (on : Bool) (pulse : Bool)
  /-- HARTRESET (R423): hartreset resets the selected harts with core reach, only while the owner world's invasive enable is in force. -/
  | hartreset (harts : List (Fin 216)) (on : Bool)
  /-- WATCHDOG_KICK (R424): A write of RCC_WDOG.KICK restarts the package watchdog count. -/
  | watchdogKick (who : Ident)
  /-- WATCHDOG_HALF (R424): The package watchdog reaches half its timeout and raises the watchdog event. -/
  | watchdogHalf
  /-- WATCHDOG_TIMEOUT (R424): The package watchdog reaches its full timeout and asserts a warm-reach reset. -/
  | watchdogTimeout (pulse : Bool)
  /-- THERMAL_TRIP (R417): A sensor's comparator reaches 132 C; the trip resets its reach, drives THERMTRIP# low, fills PMC_TRIP and changes the mode as the table for the current mode states. -/
  | thermalTrip (n : Fin 148) (temp : Int)
  /-- SENSOR_SCAN (R479): Every 1 ms the thermal sensors complete a scan, and WARN and COLD crossings are reported as PLDM events. -/
  | sensorScan (temps : List Int)
  /-- THROTTLE_STEP (R446): While a sensor is at or above 120 C, the dies concerned step one code slower, and engine slices issue on alternate cycles when an I/O die or base sensor is hot. -/
  | throttleStep
  /-- THROTTLE_RELAX (R446): Every 1 ms while all sensors concerned read below 117 C, the throttle relaxes by one code. -/
  | throttleRelax
  /-- BUDGET_ROUND (R442): Every 100 us the power controller closes a round and shares the available power among the active dies by ascending demand. -/
  | budgetRound (uncore : Nat) (total : Nat) (meters : List Nat)
  /-- BUDGET_BID (R443): A die's BUDGET bid reaches the power controller; a yield lowers its grant at once, and other bids count in the next round. -/
  | budgetBid (d : Fin 12) (demand : Nat)
  /-- BUDGET_GRANT (R443): A die receives its grant and selects the fastest CCLK code that every limit permits. -/
  | budgetGrant (d : Fin 12)
  /-- CCLK_DIVIDER_SWITCH (R439): Once the new voltage is reached, the die's CCLK divider switches glitch-free at a common edge. -/
  | cclkDividerSwitch (d : Fin 12)
  /-- DRAW_METER_CHECK (R443): A die whose mean draw over 10 us exceeds its grant steps one code slower. -/
  | drawMeterCheck (d : Fin 12) (mean : Nat)
  /-- PACKAGE_POWER_LIMIT (R444): While the 1 ms package mean exceeds 850 W, every die steps one code slower each 100 us until the mean falls below 840 W. -/
  | packagePowerLimit (mean : Nat)
  /-- SET_TDP (R448): A power request that sets the package TDP from 450 W to 850 W. -/
  | setTdp (src : PowerSrc) (unit : Nat) (value : Nat)
  /-- CAP_CCLK (R448): A power request that caps or uncaps a die's fastest CCLK divider code. -/
  | capCclk (src : PowerSrc) (unit : Nat) (value : Nat)
  /-- GATE (R451): A power request that stops CCLK and ECLK of a unit while its L2 keeps answering snoops. -/
  | gate (src : PowerSrc) (unit : Nat) (value : Nat)
  /-- UNGATE (R451): A power request that restores a gated unit's clocks within 10 us. -/
  | ungate (src : PowerSrc) (unit : Nat) (value : Nat)
  /-- POWER_OFF (R450): A power request that finishes the unit's work, fences it and waits for DRAINED before its clocks and power are removed. -/
  | powerOff (src : PowerSrc) (unit : Nat) (value : Nat)
  /-- POWER_ON (R450): A power request that powers a unit up to reset release and array initialisation, leaving it fenced. -/
  | powerOn (src : PowerSrc) (unit : Nat) (value : Nat)
  /-- MEM_IDLE (R448): A power request that enables or disables self-refresh of a channel after 1 us of idle time. -/
  | memIdle (src : PowerSrc) (unit : Nat) (value : Nat)
  /-- UNIT_POWER_DOWN_DONE (R450): A fenced unit reports DRAINED; its clocks are stopped, its outputs clamped, its power removed, and the request completes DONE. -/
  | unitPowerDownDone (unit : Nat)
  /-- UNIT_POWER_UP_DONE (R450): A unit's reset is released and its arrays are initialised, and the power-up request completes DONE. -/
  | unitPowerUpDone (unit : Nat)
  /-- UNIT_DRAIN_TIMEOUT (R450): A unit being powered down is not DRAINED within 1 ms, which is a fatal error of the unit. -/
  | unitDrainTimeout (unit : Nat)
  /-- MEM_IDLE_SELF_REFRESH (R448): A channel with MEM_IDLE in force enters self-refresh after 1 us of idle time. -/
  | memIdleSelfRefresh (m : Fin 16)
  /-- WAKE_PIN (R455): WAKE# is low while enabled; its flag is set and a wake from NIGHT or MIDNIGHT starts. -/
  | wakePin (low : Bool)
  /-- FX_WAKE (R455): FX_WAKE# of a Finxis port is low while enabled, and a wake starts. -/
  | fxWake (p : Fin 4) (low : Bool)
  /-- RTC_ALARM (R455): PWR_RTC reaches a nonzero ALARM value, and a wake starts. -/
  | rtcAlarm
  /-- THERMAL_WAKE (R455): The AON sensor passes THERM_HI or THERM_LO, and a wake starts. -/
  | thermalWake (temp : Int)
  /-- SIDEBAND_ADDRESS_MATCH (R457): The clockless comparator matches the sideband address in MIDNIGHT, NACKs the transaction and fires a wake. -/
  | sidebandAddressMatch (addr : Nat) (handover : Bool)
  /-- PCIE_WAKE (R455): A PCIe L1 exit or a device wake request wakes the package from NIGHT. -/
  | pcieWake (j : Fin 112) (handover : Bool)
  /-- CTU_BEGIN (R387): BEGIN opens a transaction for the world when none is open, and ends BUSY otherwise. -/
  | ctuBegin (who : Ident) (w : World) (tag : Nat)
  /-- CTU_COMMIT (R390): COMMIT with the open tag starts checking the merged result, or waits its turn; a wrong tag ends BAD_TAG. -/
  | ctuCommit (who : Ident) (w : World) (tag : Nat)
  /-- CTU_ROLLBACK (R389): ROLLBACK with the open tag discards the staging and ends the transaction with ROLLED_BACK. -/
  | ctuRollback (who : Ident) (w : World) (tag : Nat)
  /-- RWS_WRITE (R388): A write to an RWS field is staged in the world's open transaction, or forms a queued implicit transaction. -/
  | rwsWrite (who : Ident) (off : Nat) (size : Nat) (val : Nat)
  /-- CTU_TIMEOUT (R389): A transaction still open 2^TIMEOUT us after BEGIN is discarded and ends with TIMEOUT. -/
  | ctuTimeout (w : World)
  /-- COMMIT_TURN (R392): A waiting commit or implicit transaction begins checking once the commit ahead of it has finished. -/
  | commitTurn
  /-- CTU_CHECK_DONE (R390): Checking ends: on failure nothing is applied and RESULT is CONFIG_MISMATCH; on success the transaction starts applying. -/
  | ctuCheckDone
  /-- CTU_APPLY (R391): A block receives CTU_APPLY and waits for its next quiet point. -/
  | ctuApply (b : Block)
  /-- BLOCK_APPLY (R391): At its quiet point a block applies all its staged fields together. -/
  | blockApply (b : Block)
  /-- CTU_APPLY_COMPLETE (R391): Every block has applied and every sweep the commit started has finished; the transaction ends with OK. -/
  | ctuApplyComplete
  /-- SHARE_HANDBACK (R394): After its sweep and write-backs complete, the substitute home passes the share's held requests to the re-admitted home, in order. -/
  | shareHandback (k : Fin 64)
  /-- ZERO_FILL_DONE (R281): Every granule of the region is written, FILLING clears, and the fill event is raised. -/
  | zeroFillDone (r : Fin 256)
  /-- SWEEP_DONE (R300): A home finishes sweeping its L3 tags and directory sets, and the requests that waited on the range proceed. -/
  | sweepDone (t : Fin 64)
  /-- AGENT_DRAINED (R326): A fenced agent holds no accepted message and nothing in injection, and its DRAINED bit is set. -/
  | agentDrained (t : Fin 64) (a : Fin 16)
  /-- FLIT_ROUTE (R313): A router takes a flit, checks it, and routes it to an output or ejects it, using the timetable of its epoch. -/
  | flitRoute (t : Fin 64) (arr : Crossing) (f : Flit) (first : Nat)
  /-- GRANT_HOLD_CUTOFF (R324): A packet stalled for HOLD_LIMIT cycles is cut off with a poisoned closing flit, and its VC is released. -/
  | grantHoldCutoff (t : Fin 64) (f : Flit)
  /-- CFG_HOLD_CUTOFF (R324): A register access that holds the configuration bus beyond CFG_HOLD is ended and answered CUT_OFF. -/
  | cfgHoldCutoff (t : Fin 64) (h : Fin 216) (tag : Nat)
  /-- STAT_CLEAR (R327): A write of STAT_CTRL.CLEAR zeroes every per-initiator counter of the stop in one cycle. -/
  | statClear (who : Ident) (t : Fin 64)
  /-- CREDIT (R317): A CREDIT message returns an SNP or XCH credit to its sender. -/
  | credit (sender : Fin 64) (receiver : Fin 64) (stage : Nat)
  /-- REG_DONE (R332): A register access completes at the hart, which may then issue its next register-window access. -/
  | regDone (h : Fin 216)
  /-- RSP_ERROR (R311): A requester receives RSP_ERROR and ends its access, task or instruction as the error code maps. -/
  | rspError (x : ErrTarget) (code : Nat)
  /-- TRANSACTION_TIMEOUT (R465): An outstanding transaction is abandoned after 1 ms and completes as CUT_OFF, with poison or as a fatal error, by what it awaited. -/
  | transactionTimeout (x : Awaited)
  /-- RD_SHARED (R294): The home serves a read granting E or S, snooping an owner if there is one. -/
  | rdShared (c : Fin 36) (ln : Nat)
  /-- RD_NOEXCL (R294): The home serves a read that grants S only. -/
  | rdNoexcl (c : Fin 37) (ln : Nat)
  /-- RD_UNIQUE (R294): The home invalidates the other holders and grants M. -/
  | rdUnique (c : Fin 36) (ln : Nat)
  /-- UPGRADE (R294): The home grants ownership of a line held in S, without data where it can. -/
  | upgrade (c : Fin 36) (ln : Nat)
  /-- ZERO_UNIQUE (R294): The home grants M without data, and the requester zeroes the line. -/
  | zeroUnique (c : Fin 36) (ln : Nat)
  /-- CMO_CLEAN (R294): The home writes dirty data to memory and keeps the line clean. -/
  | cmoClean (c : Fin 36) (ln : Nat)
  /-- CMO_FLUSH (R294): The home writes dirty data to memory and removes every cached copy. -/
  | cmoFlush (c : Fin 36) (ln : Nat)
  /-- RD_NOALLOC (R294): The home serves a snooping read for a non-caching agent without creating state. -/
  | rdNoalloc (a : Fin 64) (who : Ident) (ln : Nat)
  /-- WR_FULL (R294): The home invalidates the holders and writes a full line. -/
  | wrFull (a : Fin 64) (who : Ident) (ln : Nat) (data : List Byte)
  /-- WR_MASK (R294): The home merges a masked write into the owner's data, the L3 copy or memory. -/
  | wrMask (a : Fin 64) (who : Ident) (ln : Nat) (data : List Byte) (mask : Nat)
  /-- WB_DIRTY (R297): The home absorbs an eviction with data into the L3 and answers WB_ACK, or completes a snoop that awaited it. -/
  | wbDirty (c : Fin 36) (ln : Nat)
  /-- EVICT_CLEAN (R297): The home removes a clean holder from the directory and answers WB_ACK. -/
  | evictClean (c : Fin 37) (ln : Nat)
  /-- SNP_SHARE (R296): A caching agent keeps a clean copy in S and returns any dirty data. -/
  | snpShare (a : Fin 37) (ln : Nat)
  /-- SNP_INVAL (R296): A caching agent drops its copy and returns any dirty data, after holding the snoop for a pending grant or an LR reservation. -/
  | snpInval (a : Fin 37) (ln : Nat)
  /-- SNP_PEEK (R296): A caching agent returns dirty data and keeps its copy and state. -/
  | snpPeek (a : Fin 37) (ln : Nat)
  /-- RSP_I (R297): The home receives a snoop answer saying the agent holds no copy, and completes from its own data. -/
  | rspI (a : Fin 37) (ln : Nat)
  /-- RSP_S (R294): The home receives a snoop answer saying a clean copy was kept or dropped. -/
  | rspS (a : Fin 37) (ln : Nat)
  /-- RSP_WBIF (R297): The home receives a snoop answer saying a WB_DIRTY is in flight, and completes the snoop from that WB_DIRTY. -/
  | rspWbif (a : Fin 37) (ln : Nat)
  /-- DAT_DIRTY (R294): The home receives dirty data in answer to a snoop and completes the transaction. -/
  | datDirty (a : Fin 37) (ln : Nat)
  /-- MEM_DATA (R294): The home receives line data from memory and completes the request waiting on it. -/
  | memData (t : Fin 64) (ln : Nat)
  /-- DAT_GRANT (R296): The requester installs the line with its granted state and then answers any snoop held for the line. -/
  | datGrant (a : Fin 164) (ln : Nat)
  /-- RSP_GRANT (R294): The requester receives a grant without data. -/
  | rspGrant (c : Fin 36) (ln : Nat)
  /-- RSP_WDONE (R304): A non-caching writer learns that its write is globally visible. -/
  | rspWdone (a : Fin 164) (ln : Nat)
  /-- WB_ACK (R295): A cluster frees the evicted line and may request the line again. -/
  | wbAck (c : Fin 37) (ln : Nat)
  /-- LR_HOLD_TIMEOUT (R296): 128 CCLK cycles after an LR, a snoop held for the reservation is answered. -/
  | lrHoldTimeout (h : Fin 216)
  /-- RANGE_OP (R300): Each home cleans or flushes every line of a range, line by line or by sweep. -/
  | rangeOp (t : Fin 64) (h : Fin 216)
  /-- RANGE_SWEEP (R300): A home sweeps its L3 tags and directory sets for a large range operation. -/
  | rangeSweep (t : Fin 64)
  /-- MEM_READ (R266): The controller reads a line, decodes its eight codewords and delivers it corrected or as poison. -/
  | memRead (t : Fin 64) (x : DevLine)
  /-- MEM_WRITE (R264): The controller writes a full line with new check bytes. -/
  | memWrite (ln : Nat)
  /-- MEM_WRITE_MASK (R269): The controller reads, corrects and merges the line, then writes it with new check bytes, or as poison. -/
  | memWriteMask (ln : Nat)
  /-- PATROL_SCRUB (R270): At its paced slot, the scrub reads the next line, writes back corrections and logs uncorrectable lines. -/
  | patrolScrub (m : Fin 16)
  /-- PCIE_DMA_READ (R258): A link's DMA read is checked by the firewall and served by a snooping non-allocating read, or completes with Unsupported Request. -/
  | pcieDmaRead (j : Fin 112) (tag : Nat) (addr : TlpAddr) (len : Nat)
  /-- PCIE_DMA_WRITE (R258): A link's DMA write is checked by the firewall and made as a full or masked line write, or is dropped. -/
  | pcieDmaWrite (j : Fin 112) (addr : TlpAddr) (bytes : List Byte)
  /-- ATOMIC_OP (R257): A PCIe AtomicOp is executed at the line's home as a HOME_OP. -/
  | atomicOp (j : Fin 112) (tag : Nat) (addr : TlpAddr) (op : AtomicKind) (size : Nat) (operand : Nat) (compare : Nat)
  /-- PCIE_MSI (R373): A link's MSI is delivered to an interrupt file only under the identity rules, and is otherwise dropped. -/
  | pcieMsi (j : Fin 112) (addr : Nat) (eiid : Nat)
  /-- LINK_DOWN (R258): A link goes down by surprise removal or DPC; it is fenced at its stop and core accesses to its aperture fault. -/
  | linkDown (j : Fin 112)
  /-- CXL_SURPRISE_REMOVAL (R259): An enabled CXL memory device is removed; later reads of its range are poisoned and later writes dropped. -/
  | cxlSurpriseRemoval (j : Fin 112)
  /-- IO_READ (R332): A root port performs a hart's MMIO read in issue order. -/
  | ioRead (h : Fin 216) (val : Nat)
  /-- IO_WRITE (R332): A root port performs a hart's MMIO write in issue order. -/
  | ioWrite (h : Fin 216)
  /-- DOORBELL_INVALIDATION (R199): An invalidation of a watched doorbell line makes the ring manager issue a re-read within 8 FCLK cycles. -/
  | doorbellInvalidation (ln : Nat)
  /-- DOORBELL_LINE_RETURN (R199): The re-read line returns; each slot is compared with the counts last seen, and descriptor or program fetches are issued. -/
  | doorbellLineReturn (ln : Nat)
  /-- NOP_DESC (R203): A NOP descriptor completes OK. -/
  | nopDesc (ring : Fin 4096) (seq : Nat)
  /-- RUN_PIPELINE (R204): A RUN_PIPELINE descriptor checks its image and replacements and starts the tasks of the pipelines named in PIPE_MASK. -/
  | runPipeline (ring : Fin 4096) (seq : Nat)
  /-- LOAD_IMAGE (R115): A LOAD_IMAGE descriptor reads exactly IMAGE_BYTES of the image. -/
  | loadImage (ring : Fin 4096) (seq : Nat)
  /-- IMAGE_VALIDATION (R148): Once the image bytes are read, the checks run in order and the image is loaded into the store, or refused with a subcode and offset. -/
  | imageValidation (ring : Fin 4096) (seq : Nat)
  /-- UNLOAD_IMAGE (R117): An UNLOAD_IMAGE descriptor makes the image unrunnable for runs that start after it. -/
  | unloadImage (ring : Fin 4096) (seq : Nat)
  /-- UNLOAD_TAKES_EFFECT (R117): Once every earlier run of the image has completed, its store slot is released and the UNLOAD_IMAGE completes. -/
  | unloadTakesEffect (ring : Fin 4096) (seq : Nat)
  /-- FENCE_DESC (R208): A FENCE descriptor stops later fetches of its ring pair until every earlier descriptor in its scope completes. -/
  | fenceDesc (ring : Fin 4096) (seq : Nat)
  /-- FENCE_COMPLETE (R208): Every earlier descriptor in the FENCE's scope has completed; the FENCE completes OK and fetching resumes. -/
  | fenceComplete (ring : Fin 4096) (seq : Nat)
  /-- FENCED_WORK_BEGIN (R201): A descriptor with FLAGS.FENCE begins its work once every earlier descriptor of its ring pair has completed. -/
  | fencedWorkBegin (ring : Fin 4096) (seq : Nat)
  /-- ABORT (R209): An ABORT descriptor ends its targeted RUN_PIPELINE and LOAD_IMAGE descriptors with ABORTED. -/
  | abort (ring : Fin 4096) (seq : Nat)
  /-- ABORT_COMPLETE (R209): Every target of the ABORT has completed, and the ABORT completes OK with the number it ended. -/
  | abortComplete (ring : Fin 4096) (seq : Nat)
  /-- ETLB_LOAD (R215): An ETLB_LOAD descriptor installs entries, replacing overlapping ones, and the requests stalled on them retry. -/
  | etlbLoad (ring : Fin 4096) (seq : Nat)
  /-- ETLB_INVALIDATE (R218): An ETLB_INVALIDATE descriptor removes the named entries from the shared cache and from every slice TLB. -/
  | etlbInvalidate (ring : Fin 4096) (seq : Nat)
  /-- ETLB_INVALIDATE_COMPLETE (R218): Every access translated through a removed entry has ended, and the ETLB_INVALIDATE completes. -/
  | etlbInvalidateComplete (ring : Fin 4096) (seq : Nat)
  /-- MATCH_WRITE (R207): A MATCH_WRITE descriptor checks ownership and writes match-array rows in every in-service slice of the context's mask. -/
  | matchWrite (ring : Fin 4096) (seq : Nat)
  /-- DISPATCH (R210): When a slice becomes free, the ring manager gives it the task chosen by priority, round-robin, age and page order. -/
  | dispatch (n : Fin 36)
  /-- CBUF_REWRITE_DONE (R68): After 16,384 ECLK cycles the mode change or identity clear completes, and the slice starts its task. -/
  | cbufRewriteDone (n : Fin 36)
  /-- CBUF_SCRUB (R71): Every 1,024 ECLK cycles the background scrub checks the next column-buffer line. -/
  | cbufScrub (n : Fin 36)
  /-- TASK_END (R74): A task ends; partial aggregates are written back or discarded, and the run's status is updated. -/
  | taskEnd (n : Fin 36)
  /-- TRANSLATION_FAULT_TIMEOUT (R217): A stalled engine request stays unresolved for 2^FAULT_TO us, and its task ends with TRANSLATION_FAULT. -/
  | translationFaultTimeout (t : StallRef)
  /-- COMPLETION_WRITE (R212): Once every write of a descriptor is globally visible, its 64-byte completion record is written and an MSI is sent if requested. -/
  | completionWrite (ring : Fin 4096) (seq : Nat)
  /-- PAGE_REQ (R77): The driving column's scan front receives a page request and starts reading the page. -/
  | pageReq (n : Fin 36)
  /-- SCAN_CHECK (R82): A hashed home checks a scan-front line for a newer cached copy. -/
  | scanCheck (n : Fin 36) (ln : Nat)
  /-- PAGE_RELEASE (R62): After syndrome computation or correction, a page is released, checked in order and decoded, and survivors are sent. -/
  | pageRelease (n : Fin 36) (col : Fin 16) (page : Nat)
  /-- CORRECTION_WRITE_BACK (R64): The home applies a scan front's masked correction write-back only if the line is unchanged, and otherwise drops and counts it. -/
  | correctionWriteBack
  /-- CHAIN_FWD (R78): A later column's scan front ANDs the forwarded bitmap with its own predicates, sends its survivors and forwards onward. -/
  | chainFwd (n : Fin 36)
  /-- ROW_FETCH (R130): A scan front returns the values of requested row numbers for a fetch scan. -/
  | rowFetch (n : Fin 36)
  /-- SURVIVOR (R79): The slice takes a survivor message and packs the rows of the final bitmap into batches. -/
  | survivor (n : Fin 36)
  /-- SCAN (R78): The SCAN operator requests pages through the scan-front chain with pushed predicates, or acts as a fetch scan. -/
  | scan (n : Fin 36)
  /-- SCANRAW (R131): The SCANRAW operator reads raw arrays, or the bucket lines and chunks of a table. -/
  | scanraw (n : Fin 36)
  /-- RECV (R186): The RECV operator takes the rows a PARTITION sent to the slice, spilled rows first. -/
  | recv (n : Fin 36)
  /-- INLINE_IN (R205): The INLINE_IN operator takes records from the descriptor's inline input. -/
  | inlineIn (n : Fin 36)
  /-- FILTER (R87): The FILTER operator runs its micro-ops and clears the selection of rows whose predicate is not TRUE. -/
  | filter (n : Fin 36)
  /-- PROJECT (R140): The PROJECT operator runs its range of micro-ops over the batch in program order. -/
  | project (n : Fin 36)
  /-- MATCH (R190): The MATCH operator searches the match array for each selected row and writes or filters on the result. -/
  | matchOp (n : Fin 36)
  /-- HASH (R153): The HASH operator writes the 64-bit key hash of each selected row. -/
  | hash (n : Fin 36)
  /-- BUILD (R162): The BUILD operator issues one insert for each selected row with valid keys. -/
  | build (n : Fin 36)
  /-- PROBE (R163): The PROBE operator issues probes and produces output rows by join kind. -/
  | probe (n : Fin 36)
  /-- AGG_LOCAL (R168): The AGG_LOCAL operator combines rows in the aggregation cache and evicts entries as merge requests. -/
  | aggLocal (n : Fin 36)
  /-- AGG_HOME (R169): The AGG_HOME operator sends every selected row as a merge request to its home. -/
  | aggHome (n : Fin 36)
  /-- SORT_RUN (R178): The SORT_RUN operator sorts the batch's selected rows and writes them as one run. -/
  | sortRun (n : Fin 36)
  /-- MERGE (R179): The MERGE operator takes the unconsumed runs of its area and starts the merge tasks. -/
  | merge (n : Fin 36)
  /-- INTERMEDIATE_MERGE_TASK (R179): A merge task combines the F lowest unconsumed runs into one new run and marks its inputs CONSUMED. -/
  | intermediateMergeTask (n : Fin 36)
  /-- FINAL_MERGE_TASK (R179): The final merge task passes the remaining runs' rows in order through the operators after MERGE. -/
  | finalMergeTask (n : Fin 36)
  /-- TOPK (R180): The TOPK operator keeps a task's first k rows and sends them to the gather slice at the end of the task. -/
  | topk (n : Fin 36)
  /-- GATHER_TASK (R180): The gather task keeps the first k of all rows received and passes them on in rank order once every other task has ended. -/
  | gatherTask (n : Fin 36)
  /-- TOPK_ROWS (R180): The gather slice merges arriving TOPK rows into its heap. -/
  | topkRows (n : Fin 36)
  /-- PARTITION (R183): The PARTITION operator sends each selected row to a destination slice by hash or by range. -/
  | partition (n : Fin 36)
  /-- LIMIT (R132): The LIMIT operator passes at most A5 rows over the run and stops dispatch once the limit is reached. -/
  | limit (n : Fin 36)
  /-- EMIT (R133): The EMIT operator reserves group positions and writes the selected rows to its output arrays. -/
  | emit (n : Fin 36)
  /-- EMIT_INLINE (R135): The EMIT_INLINE operator writes each selected row as a record to the inline output. -/
  | emitInline (n : Fin 36)
  /-- END (R125): The END operator ends the operator list. -/
  | endOp (n : Fin 36)
  /-- BUCKET_INSERT (R157): A home visits a bucket line for an insert and writes, drops or forwards it. -/
  | bucketInsert (id : Nat)
  /-- BUCKET_PROBE (R157): A home visits a bucket line for a probe, reports equal keys and ends or forwards the probe. -/
  | bucketProbe (id : Nat)
  /-- BUCKET_MERGE (R157): A home merges a partial into an entry with equal keys, initialises a free entry, or forwards the request. -/
  | bucketMerge (id : Nat)
  /-- ANCHOR_VISIT (R159): The anchor home takes an overflowed operation, sets SPILLED and works through the partition's chunks. -/
  | anchorVisit (id : Nat)
  /-- SPILL_CHUNK_VISIT (R159): A home performs one bucket operation on a spill chunk line and answers the anchor. -/
  | spillChunkVisit (id : Nat)
  /-- PROBE_RESULT (R164): The slice takes probe response flits into its match staging buffer and produces output rows. -/
  | probeResult (id : Nat)
  /-- OP_DONE (R311): The end of a bucket, range or page operation reaches its issuer. -/
  | opDone (o : OpRef)
  /-- LEVEL0_MERGE_TASK (R171): After the last level-0 task, a merge task combines one spill partition's records and merges them into the table. -/
  | level0MergeTask (n : Fin 36)
  /-- EXCHANGE (R184): A receiving slice takes an exchange message into its receive buffer or spill and returns the credits. -/
  | exchange (n : Fin 36)
  /-- RECV_TASK_DISPATCH (R186): A RECV task is dispatched when 1,024 rows are pending, or when the sender has ended and rows remain. -/
  | recvTaskDispatch (n : Fin 36)
  /-- PROGRAM_TABLE_ENTRY (R222): A channel reads program-table entry DONE mod 2^SIZE_LOG2 and starts the program, or refuses a malformed entry. -/
  | programTableEntry (n : Fin 32)
  /-- MOVE (R225): The MOVE instruction copies LINES lines from SRC to DST. -/
  | move (n : Fin 32)
  /-- ENCODE (R230): The ENCODE instruction opens or continues a column and passes ROWS source rows to the encoder. -/
  | encode (n : Fin 32)
  /-- FOOTER_WRITE (R57): Once every other line of the page is globally visible, the footer line is written and closes the page. -/
  | footerWrite (n : Fin 32)
  /-- ENCODE_BLOCK_WRITE_BACK (R230): After a footer becomes visible, NEXT_ROW, HEAP_NEXT and PAGES are written back as one masked write. -/
  | encodeBlockWriteBack (n : Fin 32)
  /-- FLUSH (R56): The FLUSH instruction closes the pending block, and closes the page when CLOSE_PAGE is set. -/
  | flush (n : Fin 32)
  /-- LOOP (R225): The LOOP instruction jumps back BACK instructions until it has run COUNT times, within the depth limit. -/
  | loop (n : Fin 32)
  /-- WAIT (R225): The WAIT instruction drains earlier writes, or polls a memory word against VALUE. -/
  | wait (n : Fin 32)
  /-- WAIT_POLL (R225): Every 256 FCLK cycles a memory WAIT reads its word and ends when the value is reached. -/
  | waitPoll (n : Fin 32)
  /-- WAIT_TIMEOUT (R225): A WAIT gives up with TIMEOUT after 2^WAIT_TO us. -/
  | waitTimeout (n : Fin 32)
  /-- SIGNAL (R225): The SIGNAL instruction drains, writes VALUE to ADDR and may send an MSI. -/
  | signal (n : Fin 32)
  /-- DM_END (R225): The END instruction closes an open column, drains and ends the program. -/
  | dmEnd (n : Fin 32)
  /-- DM_RESERVED_OPCODE (R225): A reserved opcode ends the program with MALFORMED and drops the open column. -/
  | dmReservedOpcode (n : Fin 32)
  /-- DM_READ_RETURN (R227): Read data for a channel instruction returns; a failure ends the instruction with a bad status and the channel continues. -/
  | dmReadReturn (n : Fin 32)
  /-- PROGRAM_DONE (R223): Once every write of the program is globally visible, DONE increases and the next program may start. -/
  | programDone (n : Fin 32)
  /-- CHANNEL_DRAIN_DONE (R221): Every access of a disabled channel has ended, and STATE reads 0b00. -/
  | channelDrainDone (n : Fin 32)
  /-- TRAINING_STEP_COMPLETE (R236): A Finxis port completes a training state and moves to the next one. -/
  | trainingStepComplete (p : Fin 4) (lanes : Nat)
  /-- TRAINING_TIMEOUT (R236): A training state exceeds its limit and the port goes DOWN with its cause. -/
  | trainingTimeout (p : Fin 4)
  /-- CAPABILITY_WORD (R238): The port receives the adapter's capability word and checks its version and credits. -/
  | capabilityWord (p : Fin 4) (version : Nat) (c0 : Nat) (c1 : Nat) (c2 : Nat) (sess : Nat)
  /-- DATA_FLIT (R240): The receiver accepts a DATA flit in SEQ order, or discards it and sends a NAK. -/
  | dataFlit (p : Fin 4) (bytes : List Byte) (bad : Bool)
  /-- NAK (R240): The transmitter replays from the flit after ACK. -/
  | nak (p : Fin 4) (bytes : List Byte) (bad : Bool) (third : Bool)
  /-- IDLE_FLIT (R239): An IDLE flit delivers acknowledgement and credit returns. -/
  | idleFlit (p : Fin 4) (bytes : List Byte) (bad : Bool)
  /-- REPLAY_TIMEOUT (R240): No acknowledgement arrives for 4 us after a flit, and the transmitter replays. -/
  | replayTimeout (p : Fin 4) (third : Bool)
  /-- COMMAND (R246): A COMMAND packet delivers one descriptor in SEQ order and reserves staging space for it. -/
  | command (p : Fin 4)
  /-- STAGING_RESERVED (R247): Staging space for a waiting reservation becomes free, and VL 0 credits resume. -/
  | stagingReserved (p : Fin 4)
  /-- DATA_IN (R247): A DATA_IN packet carries image or inline-input bytes in ascending offset. -/
  | dataIn (p : Fin 4)
  /-- FX_DOORBELL (R202): A DOORBELL packet is treated as a re-read returning the slot value, and FETCH packets follow. -/
  | fxDoorbell (p : Fin 4)
  /-- FETCH_RESEND (R246): 64 us after an out-of-sequence COMMAND the port sends the FETCH again. -/
  | fetchResend (p : Fin 4)
  /-- WINDOW_REG (R248): A WINDOW_REG packet registers a completion or output window, answered by WINDOW_ACK. -/
  | windowReg (p : Fin 4)
  /-- WINDOW_RELEASE (R250): A WINDOW_RELEASE packet withdraws the window from new use at once. -/
  | windowRelease (p : Fin 4)
  /-- WINDOW_RELEASE_ACK (R250): Once every descriptor writing into a released window has completed and sent its packets, WINDOW_ACK 0x00 is sent. -/
  | windowReleaseAck (p : Fin 4)
  /-- MGMT (R243): A management packet on VL 2 carries a Helsitia message to the PMC. -/
  | mgmt (p : Fin 4)
  /-- FINXIS_RESET (R253): A RESET packet with RESET_EN at 1 asserts a warm-reach reset, and is refused otherwise. -/
  | finxisReset (p : Fin 4) (pulse : Bool)
  /-- LOAD_STORE (R331): A hart load or store is translated and performed by the attributes of its range. -/
  | loadStore (h : Fin 216) (store : Bool) (reg : LsReg) (rs1 : Fin 32) (imm : Int) (size : Nat) (signed : Bool) (len : Nat)
  /-- AMO (R331): An atomic memory operation on cacheable memory, or at the home for NC memory. -/
  | amo (h : Fin 216) (op : AmoOp) (rd : Fin 32) (rs1 : Fin 32) (rs2 : Fin 32) (size : Nat)
  /-- LR (R329): A load-reserved instruction that reserves the 128-byte line. -/
  | lr (h : Fin 216) (rd : Fin 32) (rs1 : Fin 32) (size : Nat)
  /-- SC (R329): A store-conditional instruction that succeeds only if the reservation holds. -/
  | sc (h : Fin 216) (rd : Fin 32) (rs1 : Fin 32) (rs2 : Fin 32) (size : Nat)
  /-- FENCE (R305): A FENCE instruction completes once the predecessor stores of the hart are globally visible. -/
  | fence (h : Fin 216) (pred : Nat) (succ : Nat)
  /-- FENCE_I (R334): A FENCE.I instruction discards the instructions already fetched. -/
  | fenceI (h : Fin 216)
  /-- CBO_ZERO (R334): A CBO.ZERO instruction sends ZERO_UNIQUE. -/
  | cboZero (h : Fin 216) (rs1 : Fin 32)
  /-- CBO_CLEAN (R334): A CBO.CLEAN instruction sends CMO_CLEAN. -/
  | cboClean (h : Fin 216) (rs1 : Fin 32)
  /-- CBO_FLUSH (R334): A CBO.FLUSH instruction sends CMO_FLUSH. -/
  | cboFlush (h : Fin 216) (rs1 : Fin 32)
  /-- CBO_INVAL (R334): A CBO.INVAL instruction is performed as a flush. -/
  | cboInval (h : Fin 216) (rs1 : Fin 32)
  /-- PREFETCH_R (R334): A PREFETCH.R instruction sends RD_SHARED, or is dropped. -/
  | prefetchR (h : Fin 216) (rs1 : Fin 32) (imm : Int)
  /-- PREFETCH_W (R334): A PREFETCH.W instruction sends RD_UNIQUE, or is dropped. -/
  | prefetchW (h : Fin 216) (rs1 : Fin 32) (imm : Int)
  /-- PREFETCH_I (R334): A PREFETCH.I instruction sends RD_NOEXCL, or is dropped. -/
  | prefetchI (h : Fin 216) (rs1 : Fin 32) (imm : Int)
  /-- WFI (R346): A WFI instruction takes the hart into the depth chosen by mhspwr. -/
  | wfi (h : Fin 216)
  /-- WFI_WAKE (R346): A WFI wake condition resumes the hart, or restarts it after depth 0b10. -/
  | wfiWake (h : Fin 216)
  /-- WRS_STO (R330): A WRS.STO instruction waits at most 256 CCLK cycles. -/
  | wrsSto (h : Fin 216)
  /-- MTIMECMP_MATCH (R338): MTIME reaches a hart's mtimecmp, and the timer interrupt is raised. -/
  | mtimecmpMatch (h : Fin 216)
  /-- MSI (R373): An MSI or a core write to an interrupt file is delivered under the identity rules, or dropped and recorded. -/
  | msi (who : Ident) (file : Fin 1944) (eiid : Nat)
  /-- HSW_GATE (R341): A gateway call checks its entry, saves a shadow and switches the hart to the target identity. -/
  | hswGate (h : Fin 216) (idx : Fin 256)
  /-- HSW_RET (R342): A gateway return restores the shadow and clears GATE_ACTIVE. -/
  | hswRet (h : Fin 216)
  /-- HSC_CLEAN (R344): A range clean checked against the firewall and performed by all 64 homes. -/
  | hscClean (h : Fin 216) (rs1 : Fin 32) (rs2 : Fin 32)
  /-- HSC_FLUSH (R344): A range flush checked against the firewall and performed by all 64 homes. -/
  | hscFlush (h : Fin 216) (rs1 : Fin 32) (rs2 : Fin 32)
  /-- HSC_TFLUSH (R345): Removes the hart's own TLB and walk-cache entries for a range. -/
  | hscTflush (h : Fin 216) (rs1 : Fin 32) (rs2 : Fin 32)
  /-- HSC_GTFLUSH (R345): Removes the hart's own G-stage and combined entries for a range. -/
  | hscGtflush (h : Fin 216) (rs1 : Fin 32) (rs2 : Fin 32)
  /-- SFENCE_VMA (R359): Removes S-stage or VS-stage entries by address and ASID. -/
  | sfenceVma (h : Fin 216) (rs1 : Fin 32) (rs2 : Fin 32)
  /-- HFENCE_VVMA (R359): Removes VS-stage and combined entries of the current VMID. -/
  | hfenceVvma (h : Fin 216) (rs1 : Fin 32) (rs2 : Fin 32)
  /-- HFENCE_GVMA (R359): Removes G-stage and combined entries by guest address and VMID. -/
  | hfenceGvma (h : Fin 216) (rs1 : Fin 32) (rs2 : Fin 32)
  /-- SINVAL_VMA (R360): Removes entries as SFENCE.VMA does, ordered only by the Svinval fences. -/
  | sinvalVma (h : Fin 216) (rs1 : Fin 32) (rs2 : Fin 32)
  /-- HINVAL_VVMA (R359): Removes entries as HFENCE.VVMA does, under Svinval ordering. -/
  | hinvalVvma (h : Fin 216) (rs1 : Fin 32) (rs2 : Fin 32)
  /-- HINVAL_GVMA (R359): Removes entries as HFENCE.GVMA does, under Svinval ordering. -/
  | hinvalGvma (h : Fin 216) (rs1 : Fin 32) (rs2 : Fin 32)
  /-- SFENCE_W_INVAL (R360): Orders earlier stores before the following Svinval invalidations. -/
  | sfenceWInval (h : Fin 216)
  /-- SFENCE_INVAL_IR (R360): Orders the preceding Svinval invalidations before later implicit accesses. -/
  | sfenceInvalIr (h : Fin 216)
  /-- SATP_WRITE (R348): A write of satp, vsatp or hgatp naming an unsupported mode has no effect. -/
  | satpWrite (h : Fin 216) (r : AtpReg) (val : Word)
  /-- MHPMEVENT_WRITE (R502): A write of an unlisted event code sets the event field to 0x0000. -/
  | mhpmeventWrite (h : Fin 216) (k : Nat) (val : Word)
  /-- UNIMPLEMENTED_INSTRUCTION (R328): An instruction or CSR of an extension not implemented raises an illegal-instruction exception. -/
  | unimplementedInstruction (h : Fin 216) (bits : Nat)
  /-- HALT_REQUEST (R381): A debug halt request halts the hart only while its world's invasive enable is in force, and otherwise stays pending. -/
  | haltRequest (h : Fin 216)
  /-- SYSTEM_BUS_ACCESS (R381): A debug system bus access is made with the SBA identity, or refused. -/
  | systemBusAccess (pa : Nat) (size : Nat) (write : Option Nat)
  /-- EVENT (R471): A wired event source asserts or pulses at its owner APLIC, which delivers it by MSI. -/
  | event (k : Nat)
  /-- APLIC_CLAIM (R472): A claim clears an edge source's pending bit. -/
  | aplicClaim (w : World) (k : Nat)
  /-- SOURCECFG_WRITE (R471): A write of sourcecfg.SM accepts Inactive, Edge1 or Level1, and takes any other mode as Inactive. -/
  | sourcecfgWrite (who : Ident) (w : World) (k : Nat) (val : Nat)
  /-- PMC_WATCHDOG_TIMEOUT (R477): 100 ms without service is loss of the PMC, and the package enters BUFFER STOP. -/
  | pmcWatchdogTimeout
  /-- MAILBOX_SUBMIT (R485): A write of GO to MBX(w)_CTRL submits the request buffer to the PMC. -/
  | mailboxSubmit (who : Ident) (w : World) (len : Nat)
  /-- GET_INFO (R486): Returns identity, mode, boot, trip, image and key information. -/
  | getInfo (src : MgmtSrc) (msg : Option (List Byte))
  /-- READ_SENSORS (R486): Returns sensor readings with their WARN and COLD flags. -/
  | readSensors (src : MgmtSrc) (msg : Option (List Byte))
  /-- READ_RAILS (R486): Returns rail voltages and currents and the die power figures. -/
  | readRails (src : MgmtSrc) (msg : Option (List Byte)) (rails : List (Nat × Nat))
  /-- SET_LIMITS (R480): Sets a sensor's WARN and COLD thresholds. -/
  | setLimits (src : MgmtSrc) (msg : Option (List Byte))
  /-- TRIP_CLEAR (R481): Clears PMC_TRIP.VALID and MORE and logs the cleared value. -/
  | tripClear (src : MgmtSrc) (msg : Option (List Byte))
  /-- MODE_ORDER (R488): Issues a mode order at the source's rank and answers when the order completes. -/
  | modeOrder (src : MgmtSrc) (msg : Option (List Byte))
  /-- POWER_REQ (R488): Issues a power request at the source's rank and answers when it completes. -/
  | powerReq (src : MgmtSrc) (msg : Option (List Byte))
  /-- RESET (R486): Answers the sideband and then asserts the warm-reach sideband reset. -/
  | reset (src : MgmtSrc) (msg : Option (List Byte)) (pulse : Bool)
  /-- LOG_READ (R490): Returns retained-log records with good CRCs, oldest first. -/
  | logRead (src : MgmtSrc) (msg : Option (List Byte))
  /-- LOG_CLEAR (R490): Zeroes the retained log and keeps SEQ. -/
  | logClear (src : MgmtSrc) (msg : Option (List Byte))
  /-- OPTION_READ (R486): Returns the option record in force and RCC_OPT_STATUS. -/
  | optionRead (src : MgmtSrc) (msg : Option (List Byte))
  /-- OPTION_WRITE (R489): Checks an option record and writes it to the copy not in force with the next SEQ. -/
  | optionWrite (src : MgmtSrc) (msg : Option (List Byte))
  /-- FW_BEGIN (R493): Opens an update session for an image kind. -/
  | fwBegin (src : MgmtSrc) (msg : Option (List Byte))
  /-- FW_DATA (R493): Programs image bytes at the next offset into the inactive slot. -/
  | fwData (src : MgmtSrc) (msg : Option (List Byte)) (bad : Bool)
  /-- FW_VERIFY_DONE (R493): After the last byte, the slot is checked for authenticity, and the session goes to READY or IDLE. -/
  | fwVerifyDone (kind : Fin 3)
  /-- FW_RECEIVE_TIMEOUT (R493): No FW_DATA arrives for 60 s, and the session returns to IDLE. -/
  | fwReceiveTimeout (kind : Fin 3)
  /-- FW_COMMIT (R493): Swaps the active and previous slots in one MRAM word and raises MIN_SVN if required. -/
  | fwCommit (src : MgmtSrc) (msg : Option (List Byte))
  /-- FW_ROLLBACK (R493): Discards an open session, or restores the previous slot after checking it. -/
  | fwRollback (src : MgmtSrc) (msg : Option (List Byte))
  /-- FW_STATUS (R493): Returns the update state and the verification result. -/
  | fwStatus (src : MgmtSrc) (msg : Option (List Byte))
  /-- DEBUG_SET (R489): Writes ISO_DBG[3:0] in WORKSHOP, even while LOCK is set. -/
  | debugSet (src : MgmtSrc) (msg : Option (List Byte))
  /-- PMC_RESTART (R494): Within 50 ms of FW_COMMIT, the PMC restarts into the committed image. -/
  | pmcRestart
  /-- PMON_CLEAR (R501): A write of PMON_CTRL.CLEAR zeroes every unit counter of the package within 64 FCLK cycles. -/
  | pmonClear (who : Ident)
  /-- PMON_FREEZE (R501): A write of PMON_CTRL.FREEZE holds or resumes the unit counters. -/
  | pmonFreeze (who : Ident) (on : Bool)
  /-- STANDBY_RAILS_GOOD (R509): VDD_AON and VDD_IO18 both become good, AON leaves power-on reset, and the package asserts PWR_MAIN_EN within 2 ms. -/
  | standbyRailsGood
  /-- STANDBY_RAIL_LOSS (R510): A standby rail falls below its monitor threshold, and AON is reset along with the power-on reach, clearing the backup registers and cause records. -/
  | standbyRailLoss (pulse : Bool)
  /-- PCIE_LINK_UP (R259): A PCIe/CXL link trains or a device is hot-plugged, the link enters service, and a CXL-capable link either runs CXL.mem or is held in CXL.io only, activating the port's scan front. -/
  | pcieLinkUp (j : Fin 112) (rate : Nat) (type3 : Bool) (odd : Bool)
  /-- PCIE_COMPLETION_TIMEOUT (R311): A PCIe or CXL link's own completion timeout expires for an outstanding request, which is answered RSP_ERROR UNSUPPORTED. -/
  | pcieCompletionTimeout (h : Fin 216)
  /-- WFI_RETENTION_ENTRY (R346): A hart that has been in WFI at depth 0b01 for 1 us lowers its core supply and enters retention. -/
  | wfiRetentionEntry (h : Fin 216)
  /-- WRS_STO_TIMEOUT (R330): A WRS.STO that has waited 256 CCLK cycles ends and the hart resumes. -/
  | wrsStoTimeout (h : Fin 216)
  /-- STIMECMP_MATCH (R338): time reaches a hart's stimecmp or vstimecmp, and the S-level or VS-level timer interrupt is raised. -/
  | stimecmpMatch (h : Fin 216) (vs : Bool)
  /-- CSR_WRITE (R339): A write of mhswctl, mhswgtab, mhscctl, mhspwr, mhspf or mhssample changes the hart's identity, gateway table or power and sampling controls, with reserved values leaving the field unchanged. -/
  | csrWrite (h : Fin 216) (csr : Nat) (val : Word)
  /-- ECALL (R366): An ECALL traps to M-mode as a monitor call, and later accesses carry PID 0 and world S. -/
  | ecall (h : Fin 216)
  /-- MRET (R339): An MRET leaves M-mode, and later accesses carry mhswctl.PID and WORLD. -/
  | mret (h : Fin 216)
  /-- DEBUG_RESUME (R381): A debug resume or step request lets a halted hart leave debug mode, and the package watchdog resumes counting. -/
  | debugResume (h : Fin 216) (step : Bool)
  /-- DMACTIVE_CLEAR (R413): A write of 0 to dmcontrol.dmactive resets the debug module. -/
  | dmactiveClear
  /-- DYNAMIC_ADDRESS_ASSIGNMENT (R482): An ENTDAA, SETDASA or SMBus ARP assigns the sideband target a new address, which the MIDNIGHT comparator then matches. -/
  | dynamicAddressAssignment (addr : Fin 128)
  deriving DecidableEq, Repr

end Sys2Proof
end

