-- ==== Sys2Proof/Decode.lean ====
section
/-! DEFINITION. Reading a command from a word by the bits of the opcode table. No row of that table gives bits:
the package's commands are events, packets and register accesses, not encoded words. -/

namespace Sys2Proof

/-- The command a word of `nbits` bits spells by the opcode table: none, since the table gives no row any bits. -/
def decodeTableWord (_nbits _w : Nat) : Option Instr := none

end Sys2Proof
end

