-- ==== Sys2Proof/Config.lean ====
section
/-! DEFINITION. What the manual leaves open: free values and functions with no body, so that no proof can see what
they are. -/

namespace Sys2Proof.Config
open Sys2Proof

/-- A value the manual does not state, fresh at each use: applied to the model's own counter `State.free`. -/
opaque free : Nat → Nat

/-- What a register of a hart holds after the hart has lost its state without a reset of the register (12 R346, 16 R399): the
`k`th value of the `n`th loss. -/
opaque lost : Nat → Nat → Nat

/-- The digest a firmware image's body is checked by (20 R491 names SHA-384 and does not restate it). -/
opaque sha384 : List Byte → List Byte

/-- The fused key hash firmware is checked against (20 R491), a board fact. -/
opaque fusedKeyHash : List Byte

/-- Whether an ECDSA signature of a digest verifies under a key (20 R491 names the scheme and does not restate it). -/
opaque ecdsaVerify : List Byte → List Byte → List Byte → Bool

/-- Whether an ML-DSA signature verifies under a key (20 R491 names the scheme and does not restate it). -/
opaque mldsaVerify : List Byte → List Byte → List Byte → Bool

/-- The directory set a line falls in: the manual gives the directory 8,192 sets (10 R282) and no index function. -/
opaque dirSet : Nat → Nat

/-- Model power, in watts, of a die at a divider code with a number of busy clusters for which 18 *CCLK divider codes*
gives no figure (none or two). -/
opaque diePower : Nat → Nat → Nat

end Sys2Proof.Config
end

