-- ==== Sys2Proof/Machine/Tab.lean ====
section
/-! DEFINITION. Sparse tables: the one way the model holds memory, the registers of the window and
every other numbered collection. A table is a list of key and value pairs with keys strictly rising;
read with a default, it lists no entry equal to that default, so that equal tables are equal data. -/

namespace Sys2Proof.Machine

/-- A sparse table: pairs of a number and a value, keys strictly rising. -/
abbrev Tab (α : Type) := List (Nat × α)

namespace Tab

/-- The value listed at a key. -/
def look {α : Type} : Tab α → Nat → Option α
  | [], _ => none
  | (k, v) :: t, a => if a = k then some v else look t a

/-- List a value at a key, keeping the keys rising. -/
def ins {α : Type} : Tab α → Nat → α → Tab α
  | [], a, v => [(a, v)]
  | (k, w) :: t, a, v =>
    if a < k then (a, v) :: (k, w) :: t else if a = k then (a, v) :: t else (k, w) :: ins t a v

/-- Unlist a key. -/
def del {α : Type} : Tab α → Nat → Tab α
  | [], _ => []
  | (k, w) :: t, a => if a = k then del t a else (k, w) :: del t a

/-- The value at a key, `d` where none is listed. -/
def get {α : Type} (d : α) (t : Tab α) (a : Nat) : α := (look t a).getD d

/-- Write a value at a key; writing the default unlists the key. -/
def put {α : Type} [DecidableEq α] (d : α) (t : Tab α) (a : Nat) (v : α) : Tab α :=
  if v = d then del t a else ins t a v

/-- Whether every key of a table is above a bound and the keys rise. -/
def risesFrom {α : Type} : Nat → Tab α → Bool
  | _, [] => true
  | b, (k, _) :: t => decide (b ≤ k) && risesFrom (k + 1) t

/-- The canonical form: keys strictly rising, no entry equal to the default. -/
def wf {α : Type} [DecidableEq α] (d : α) (t : Tab α) : Bool :=
  risesFrom 0 t && t.all (fun e => decide (e.2 ≠ d))

/-- Change the value at a key. -/
def upd {α : Type} [DecidableEq α] (d : α) (t : Tab α) (a : Nat) (f : α → α) : Tab α :=
  put d t a (f (get d t a))

/-- Change every value listed; the caller keeps listed values off the default or rewrites them through `put`. -/
def mapV {α : Type} (f : α → α) (t : Tab α) : Tab α := List.map (fun e => (e.1, f e.2)) t

/-- Change every value listed, unlisting those that become the default. -/
def mapD {α : Type} [DecidableEq α] (d : α) (f : α → α) (t : Tab α) : Tab α :=
  List.filter (fun e => decide (e.2 ≠ d)) (mapV f t)

/-- Keep the entries whose key and value pass a test. -/
def keep {α : Type} (p : Nat → α → Bool) (t : Tab α) : Tab α := List.filter (fun e => p e.1 e.2) t

/-- The keys listed. -/
def keys {α : Type} (t : Tab α) : List Nat := List.map Prod.fst t

end Tab

end Sys2Proof.Machine
end

