-- ==== Sys2Proof/Machine/Bits.lean ====
section
/-! DEFINITION. Bit fields, byte order, two's complement and the other number helpers every family uses. -/

namespace Sys2Proof.Machine
open Sys2Proof

/-- Bits `[hi:lo]` of a number (00 R5: both ends included). -/
def bitsOf (v hi lo : Nat) : Nat := (v >>> lo) % 2 ^ (hi + 1 - lo)

/-- One bit of a number. -/
def bitAt (v i : Nat) : Bool := v.testBit i

/-- A number with bits `[hi:lo]` replaced by the low bits of `x`. -/
def setBits (v hi lo x : Nat) : Nat :=
  let w := hi + 1 - lo
  ((v >>> (hi + 1)) <<< (hi + 1)) + ((x % 2 ^ w) <<< lo) + v % 2 ^ lo

/-- 1 for true and 0 for false. -/
def b2n (b : Bool) : Nat := if b then 1 else 0

/-- The world a bit names: 0 N, 1 S. -/
def worldOf (n : Nat) : World := if n = 0 then .n else .s

/-- The bit that names a world. -/
def worldBit : World → Nat
  | .n => 0
  | .s => 1

/-- A number as bytes, least significant first (00 R6). -/
def leBytes : Nat → Nat → List Byte
  | 0, _ => []
  | n + 1, v => BitVec.ofNat 8 v :: leBytes n (v / 256)

/-- Bytes, least significant first, as a number (00 R6). -/
def leNat : List Byte → Nat
  | [] => 0
  | b :: t => b.toNat + 256 * leNat t

/-- Bytes, most significant first, as a number. -/
def beNat (l : List Byte) : Nat := leNat l.reverse

/-- A number as bytes, most significant first. -/
def beBytes (n v : Nat) : List Byte := (leBytes n v).reverse

/-- `n` bytes of a list from an offset, missing bytes reading as zero. -/
def sliceB (l : List Byte) (off n : Nat) : List Byte :=
  let t := (l.drop off).take n
  t ++ List.replicate (n - t.length) 0

/-- A little-endian number of `n` bytes at an offset. -/
def leAt (l : List Byte) (off n : Nat) : Nat := leNat (sliceB l off n)

/-- A list with the bytes at an offset replaced. -/
def patchB (l : List Byte) (off : Nat) (new : List Byte) : List Byte :=
  l.take off ++ new ++ l.drop (off + new.length)

/-- The list resized to `n` bytes: cut, or filled with zeros. -/
def fitB (n : Nat) (l : List Byte) : List Byte := sliceB l 0 n

/-- The integer a two's complement pattern of `n` bits stands for. -/
def toSigned (n v : Nat) : Int :=
  let v := v % 2 ^ n
  if v < 2 ^ (n - 1) then v else (v : Int) - 2 ^ n

/-- The two's complement pattern of `n` bits of an integer. -/
def ofSigned (n : Nat) (i : Int) : Nat := (i % (2 ^ n : Nat)).toNat

/-- Round a number down to a multiple. -/
def alignDown (v a : Nat) : Nat := v - v % a

/-- Round a number up to a multiple. -/
def alignUp (v a : Nat) : Nat := (v + a - 1) / a * a

/-- Division rounding up. -/
def ceilDiv (a b : Nat) : Nat := (a + b - 1) / b

/-- The lowest bit number below `n` set in a value. -/
def lowestBit (n v : Nat) : Option Nat := (List.range n).find? (fun i => v.testBit i)

/-- How many of the low `n` bits are set. -/
def popCount (n v : Nat) : Nat := ((List.range n).filter (fun i => v.testBit i)).length

/-- Take a numbered element, with a default beyond the end. -/
def nthD {α : Type} (l : List α) (i : Nat) (d : α) : α := (l[i]?).getD d

/-- Replace a numbered element. -/
def setNth {α : Type} : List α → Nat → α → List α
  | [], _, _ => []
  | _ :: t, 0, v => v :: t
  | x :: t, i + 1, v => x :: setNth t i v

/-- Saturate a count. -/
def satAdd (max a b : Nat) : Nat := min max (a + b)

/-- Exclusive OR of two byte strings. -/
def xorBytes (a b : List Byte) : List Byte := List.zipWith (· ^^^ ·) a b

/-- Merge a masked write: byte `i` comes from `new` where bit `i` of the mask is set. -/
def maskMerge (old new : List Byte) (mask : Nat) : List Byte :=
  (List.zip old new).zipIdx.map (fun p => if mask.testBit p.2 then p.1.2 else p.1.1)

end Sys2Proof.Machine
end

