-- ==== Sys2Proof/Machine/Crc.lean ====
section
/-! DEFINITION. CRC-32C (02 R45). -/

namespace Sys2Proof.Machine
open Sys2Proof

/-- One bit of the reflected CRC-32C division. -/
def crcBit (c : Nat) : Nat := if c % 2 = 1 then (c / 2) ^^^ 0x82F63B78 else c / 2

/-- One byte of CRC-32C. -/
def crcByte (c : Nat) (b : Byte) : Nat := Nat.repeat crcBit 8 (c ^^^ b.toNat)

/-- The division run over a byte string, one byte after the other. (Both rows say the same: a remainder is computed to a
numeral before the next byte is taken.) -/
def crcRun : List Byte → Nat → Nat
  | [], c => c
  | b :: l, 0 => crcRun l (crcByte 0 b)
  | b :: l, c + 1 => crcRun l (crcByte (c + 1) b)

/-- CRC-32C of a byte string (02 R45): register preset to ones, result complemented. -/
def crc32c (l : List Byte) : Nat := crcRun l 0xFFFFFFFF ^^^ 0xFFFFFFFF

end Sys2Proof.Machine
end

