-- ==== Sys2Proof/Machine/Gf.lean ====
section
/-! DEFINITION. Arithmetic in GF(2^w) and the RS(20,16) line code (09 R264 to R267), described by the error pattern a
line carries: the exclusive OR of what is stored and the codewords of its data. -/

namespace Sys2Proof.Machine
open Sys2Proof

/-- One multiplication step by the field's element x: `poly` is the field polynomial with its top bit. -/
def gfDouble (w poly a : Nat) : Nat := if (2 * a).testBit w then (2 * a) ^^^ poly else 2 * a

/-- Product of the field elements, the multiplier's bits taken from bit `n - 1` down. -/
def gfMulGo (w poly a b : Nat) : Nat → Nat
  | 0 => 0
  | n + 1 =>
    let acc := gfMulGo w poly a (b / 2) n
    let acc := gfDouble w poly acc
    if b % 2 = 1 then acc ^^^ a else acc

/-- Product in GF(2^w). -/
def gfMul (w poly a b : Nat) : Nat := gfMulGo w poly a b w

/-- Power in GF(2^w), by repeated squaring over `fuel` bits of the exponent. -/
def gfPowGo (w poly : Nat) : Nat → Nat → Nat → Nat
  | 0, _, _ => 1
  | f + 1, a, e =>
    let r := gfPowGo w poly f (gfMul w poly a a) (e / 2)
    if e % 2 = 1 then gfMul w poly r a else r

/-- Power in GF(2^w). -/
def gfPow (w poly a e : Nat) : Nat := gfPowGo w poly (w + 1) a e

/-- Inverse in GF(2^w), 0 for 0. -/
def gfInv (w poly a : Nat) : Nat := gfPow w poly a (2 ^ w - 2)

/-! ### The line code -/

/-- Product in the line code's field, polynomial 0x11D (09 R265). -/
def lmul (a b : Nat) : Nat := gfMul 8 0x11D a b

/-- The device that carries symbol `k` on x4 DIMMs (09 R265, *Symbol placement*). -/
def dev4 (k : Nat) : Nat :=
  if k ≤ 7 then k else if k = 16 ∨ k = 17 then k - 8 else if k ≤ 15 then k + 2 else k

/-- The device that carries symbol `k` on x8 DIMMs (09 R265). -/
def dev8 (k : Nat) : Nat :=
  if k ≤ 7 then k / 2 else if k = 16 ∨ k = 17 then 4 else if k ≤ 15 then (k + 2) / 2 else 9

/-- Symbol `k` of codeword `i` of an error pattern of 160 symbols (codeword `i` at 20·i). -/
def errSym (e : List Byte) (i k : Nat) : Nat := (nthD e (20 * i + k) 0).toNat

/-- Syndrome `j` of codeword `i`: symbol `k` is the coefficient of degree 19 − k. -/
def lineSynd (e : List Byte) (i j : Nat) : Nat :=
  (List.range 20).foldl (fun a k => lmul a (gfPow 8 0x11D 2 j) ^^^ errSym e i k) 0

/-- The four syndromes of a codeword. -/
def lineSynds (e : List Byte) (i : Nat) : List Nat := (List.range 4).map (lineSynd e i)

/-- The syndromes of error values at two symbol positions. -/
def synds2 (p vp q vq : Nat) : List Nat :=
  (List.range 4).map (fun j =>
    lmul vp (gfPow 8 0x11D 2 (j * (19 - p))) ^^^ lmul vq (gfPow 8 0x11D 2 (j * (19 - q))))

/-- The error values at positions `p` and `q` that the first two syndromes give, when all four agree. -/
def solve2 (p q : Nat) (syn : List Nat) : Option (Nat × Nat) :=
  let s0 := nthD syn 0 0
  let s1 := nthD syn 1 0
  let xp := gfPow 8 0x11D 2 (19 - p)
  let xq := gfPow 8 0x11D 2 (19 - q)
  let vq := lmul (s1 ^^^ lmul s0 xp) (gfInv 8 0x11D (xp ^^^ xq))
  let vp := s0 ^^^ vq
  if synds2 p vp q vq = syn then some (vp, vq) else none

/-- The two symbol positions of a candidate: two x4 devices, or one x8 device. -/
def lineCandidates (x8 : Bool) : List (Nat × Nat) :=
  if x8 then
    (List.range 10).filterMap (fun d =>
      match (List.range 20).filter (fun k => dev8 k == d) with
      | [a, b] => some (a, b)
      | _ => none)
  else (List.range 20).flatMap (fun a => (List.range a).map (fun b => (b, a)))

/-- Correct every codeword with errors at one pair of positions, if each one's syndromes agree. -/
def linePair (e : List Byte) (p q : Nat) : Option (List Byte) :=
  (List.range 8).foldl (fun acc i =>
    match acc with
    | none => none
    | some l => match solve2 p q (lineSynds e i) with
      | none => none
      | some (vp, vq) => some (l ++ (List.range 20).map (fun k =>
          BitVec.ofNat 8 (errSym e i k ^^^ (if k = p then vp else if k = q then vq else 0)))))
    (some [])

/-- How a read classifies a line (09 R266, R267). -/
inductive LineOutcome where
  /-- no damage -/
  | clean
  /-- stored poison: every codeword shows exactly the syndrome of inverted check bytes -/
  | poison
  /-- corrected: what the pattern becomes (all zero unless miscorrected), and the mask of devices in error -/
  | corrected (left : List Byte) (devs : Nat)
  | uncorrectable
  deriving DecidableEq, Repr

/-- The error pattern of a poisoned line: check symbols 16 to 19 of every codeword inverted. -/
def poisonPattern : List Byte :=
  (List.range 160).map (fun n => if n % 20 < 16 then 0 else 0xFF)

/-- Classify a line by its error pattern. `[]` is an undamaged line. A correction must lie in two x4 devices, or in one
x8 device, the same for all eight codewords (notes/assumptions/10.md). -/
def lineDecode (x8 : Bool) (e : List Byte) : LineOutcome :=
  if e.all (· == 0) then .clean
  else if e = poisonPattern then .poison
  else
    let syn := (List.range 8).map (lineSynds e)
    if syn = List.replicate 8 (lineSynds poisonPattern 0) then .poison
    else match (lineCandidates x8).findSome? (fun pq => (linePair e pq.1 pq.2).map (fun l => (pq, l))) with
      | none => .uncorrectable
      | some (_, left) =>
        let devs := (List.range 160).foldl (fun a n =>
          if nthD e n 0 == nthD left n 0 then a
          else let d := if x8 then dev8 (n % 20) else dev4 (n % 20)
               if a.testBit d then a else a + 2 ^ d) 0
        .corrected left devs

/-- The data part of an error pattern as a 128-byte mask to XOR into the line's data. -/
def errData (e : List Byte) : List Byte :=
  (List.range 128).map (fun b => nthD e (20 * (b / 16) + b % 16) 0)

end Sys2Proof.Machine
end

