-- ==== Sys2Proof/Machine/Guard.lean ====
section
/-! DEFINITION. The page guard code (02 R59 to R61): the Reed–Solomon code over GF(2^16) that protects a column page. -/

namespace Sys2Proof.Machine
open Sys2Proof

/-- Product in the guard's field, polynomial 0x1100B (02 R59). -/
def gmul (a b : Nat) : Nat := gfMul 16 0x1100B a b
/-- Inverse in the guard's field. -/
def ginv (a : Nat) : Nat := gfInv 16 0x1100B a
/-- A power of α, the element x. -/
def galpha (e : Nat) : Nat := gfPow 16 0x1100B 2 e

/-- Little-endian 16-bit words of a byte string. -/
def words16 : List Byte → List Nat
  | a :: b :: t => (a.toNat + 256 * b.toNat) :: words16 t
  | [a] => [a.toNat]
  | [] => []

/-- Multiply a polynomial (lowest degree first) by x − r. -/
def polyTimesRoot (r : Nat) (p : List Nat) : List Nat :=
  List.zipWith (· ^^^ ·) (0 :: p) (p.map (gmul r) ++ [0])

/-- The generator polynomial of strength t, lowest degree first (02 R59). -/
def guardGen (t : Nat) : List Nat := (List.range (2 * t)).foldl (fun g i => polyTimesRoot (galpha i) g) [1]

/-- One step of division by g: `reg` holds the remainder highest degree first, `g` the coefficients of g below the
leading one, highest first. -/
def guardStep (g reg : List Nat) (m : Nat) : List Nat :=
  match reg with
  | [] => []
  | r :: rest =>
    let f := r ^^^ m
    List.zipWith (· ^^^ ·) (rest ++ [0]) (g.map (gmul f))

/-- The check symbols C0 to C(2t−1) of data symbols (02 R60). -/
def guardCheck (t : Nat) (data : List Nat) : List Nat :=
  if t = 0 then []
  else data.foldl (guardStep ((guardGen t).reverse.drop 1)) (List.replicate (2 * t) 0)

/-- A syndrome: the codeword, highest degree first, at α^j. -/
def guardSynd (cw : List Nat) (j : Nat) : Nat :=
  let a := galpha j
  cw.foldl (fun acc c => gmul acc a ^^^ c) 0

/-- The 2t syndromes. -/
def guardSynds (t : Nat) (cw : List Nat) : List Nat := (List.range (2 * t)).map (guardSynd cw)

/-- State of the Berlekamp–Massey iteration. -/
structure BmSt where
  c : List Nat
  b : List Nat
  l : Nat
  m : Nat
  bd : Nat
  deriving DecidableEq, Repr

/-- Add `k · x^m · p` to a polynomial. -/
def polyAddShift (q p : List Nat) (k m : Nat) : List Nat :=
  let r := List.replicate m 0 ++ p.map (gmul k)
  let n := max q.length r.length
  (List.range n).map (fun i => nthD q i 0 ^^^ nthD r i 0)

/-- One step of Berlekamp–Massey at syndrome `n`. -/
def bmStep (s : List Nat) (st : BmSt) (n : Nat) : BmSt :=
  let d := (List.range (st.l + 1)).foldl (fun a i => a ^^^ gmul (nthD st.c i 0) (nthD s (n - i) 0)) 0
  if d = 0 then { st with m := st.m + 1 }
  else
    let c := polyAddShift st.c st.b (gmul d (ginv st.bd)) st.m
    if 2 * st.l ≤ n then ⟨c, st.c, n + 1 - st.l, 1, d⟩ else { st with c := c, m := st.m + 1 }

/-- The error locator polynomial of the syndromes, lowest degree first, and its length. -/
def guardLocator (s : List Nat) : List Nat × Nat :=
  let st := (List.range s.length).foldl (bmStep s) ⟨[1], [1], 0, 1, 1⟩
  (st.c, st.l)

/-- A polynomial, lowest degree first, at a point. -/
def polyAt (p : List Nat) (x : Nat) : Nat := p.foldr (fun c acc => gmul acc x ^^^ c) 0

/-- Degrees `p` below `n`, counted by the second argument, at which the locator vanishes at α^(−p): `terms` holds the
locator's terms at the current point, `muls` what each is multiplied by at the next. -/
def chien (muls : List Nat) : Nat → Nat → List Nat → List Nat
  | 0, _, _ => []
  | n + 1, p, terms =>
    let rest := chien muls n (p + 1) (List.zipWith gmul terms muls)
    if terms.foldl (· ^^^ ·) 0 = 0 then p :: rest else rest

/-- Replace numbered symbols of a codeword held highest degree first, by XOR. -/
def xorAt (cw : List Nat) (fixes : List (Nat × Nat)) : List Nat :=
  let n := cw.length
  cw.zipIdx.map (fun c => fixes.foldl (fun v f => if n - 1 - f.1 = c.2 then v ^^^ f.2 else v) c.1)

/-- Decode a received word of strength t: the word itself, a word corrected in at most t symbols, or none (02 R61). -/
def guardDecode (t : Nat) (cw : List Nat) : Option (List Nat) :=
  let s := guardSynds t cw
  if s.all (· == 0) then some cw
  else
    let (loc, l) := guardLocator s
    if t < l then none
    else
      let inv := ginv 2
      let muls := (List.range loc.length).map (fun i => gfPow 16 0x1100B inv i)
      let degs := chien muls cw.length 0 loc
      if degs.length ≠ l then none
      else
        let omega := (List.range (2 * t)).map (fun k =>
          (List.range (k + 1)).foldl (fun a i => a ^^^ gmul (nthD loc i 0) (nthD s (k - i) 0)) 0)
        let dloc := loc.zipIdx.drop 1 |>.map (fun c => if c.2 % 2 = 1 then c.1 else 0)
        let fixes := degs.map (fun p =>
          let x := galpha p
          let xi := ginv x
          (p, gmul x (gmul (polyAt omega xi) (ginv (polyAt dloc xi)))))
        let out := xorAt cw fixes
        if (guardSynds t out).all (· == 0) then some out else none

/-- Number of data symbols of a page (02 R60). -/
def guardData : Nat := 32736

/-- The codeword of a page of 65,536 bytes: data symbols, then check symbols C0 upward. -/
def pageCodeword (t : Nat) (page : List Byte) : List Nat := (words16 page).take (guardData + 2 * t)

/-- The symbols of a codeword as bytes. -/
def symBytes (cw : List Nat) : List Byte := cw.flatMap (leBytes 2)

/-- Decode a page: the corrected page, or none when it is uncorrectable. -/
def guardPage (t : Nat) (page : List Byte) : Option (List Byte) :=
  if t = 0 then some page
  else (guardDecode t (pageCodeword t page)).map (fun cw => patchB page 0 (symBytes cw))

/-- The check symbols of a page, as the bytes of the footer's CHECK field (02 R40). -/
def pageCheck (t : Nat) (page : List Byte) : List Byte :=
  fitB 64 (symBytes (guardCheck t ((words16 page).take guardData)))

end Sys2Proof.Machine
end

