-- ==== Sys2Proof/Machine/Float.lean ====
section
/-! DEFINITION. Binary floating point by exact rational arithmetic and one rounding (03 R98, R99): FLOAT32 and FLOAT64
values as bit patterns. -/

namespace Sys2Proof.Machine
open Sys2Proof

/-- A binary format: bits of significand with the hidden one, bits of exponent. -/
structure FFmt where
  /-- precision, 24 or 53 -/
  p : Nat
  /-- exponent bits, 8 or 11 -/
  w : Nat
  deriving DecidableEq, Repr

/-- binary32 -/
def f32 : FFmt := ⟨24, 8⟩
/-- binary64 -/
def f64 : FFmt := ⟨53, 11⟩

namespace FFmt

/-- Bits of the whole pattern. -/
def bits (f : FFmt) : Nat := f.p + f.w
/-- The largest biased exponent. -/
def emax (f : FFmt) : Nat := 2 ^ f.w - 1
/-- The exponent, as a power of two of the last place, of the smallest binade. -/
def emin (f : FFmt) : Int := 2 - 2 ^ (f.w - 1) - (f.p - 1 : Nat)
/-- The pattern of +infinity. -/
def inf (f : FFmt) : Nat := f.emax * 2 ^ (f.p - 1)
/-- The fixed quiet NaN (03 R98). -/
def nan (f : FFmt) : Nat := f.inf + 2 ^ (f.p - 2)
/-- The sign bit's weight. -/
def signBit (f : FFmt) : Nat := 2 ^ (f.bits - 1)

end FFmt

/-- What a pattern stands for. -/
inductive FVal where
  | nan
  | inf (neg : Bool)
  /-- (−1)^neg · m · 2^e -/
  | fin (neg : Bool) (m : Nat) (e : Int)
  deriving DecidableEq, Repr

/-- Read a pattern. -/
def fRead (f : FFmt) (v : Nat) : FVal :=
  let neg := bitAt v (f.bits - 1)
  let ex := bitsOf v (f.bits - 2) (f.p - 1)
  let fr := v % 2 ^ (f.p - 1)
  if ex = f.emax then (if fr = 0 then .inf neg else .nan)
  else if ex = 0 then .fin neg fr f.emin
  else .fin neg (fr + 2 ^ (f.p - 1)) (f.emin + (ex - 1 : Nat))

/-- Attach a sign to a magnitude pattern. -/
def fSign (f : FFmt) (neg : Bool) (mag : Nat) : Nat := if neg then f.signBit + mag else mag

/-- Round a non-negative rational num/den · 2^e to nearest, ties to even: a magnitude pattern, infinity when too large. -/
def fRound (f : FFmt) (num den : Nat) (e : Int) : Nat :=
  if num = 0 then 0
  else
    -- exponent of the last place: floor(log2 (num/den)) - (p - 1), corrected by one when the estimate is high
    let est : Int := (Nat.log2 num : Int) - (Nat.log2 den : Int)
    let ge : Bool :=   -- whether num/den ≥ 2^est
      if est ≥ 0 then decide (den * 2 ^ est.toNat ≤ num) else decide (den ≤ num * 2 ^ (-est).toNat)
    let l2 : Int := if ge then est else est - 1
    let q : Int := max (l2 + e - (f.p - 1 : Nat)) f.emin    -- power of two of the last place
    let sh : Int := e - q
    let n := if sh ≥ 0 then num * 2 ^ sh.toNat else num
    let d := if sh ≥ 0 then den else den * 2 ^ (-sh).toNat
    let m := n / d
    let r := n % d
    let m := if 2 * r > d ∨ (2 * r = d ∧ m % 2 = 1) then m + 1 else m
    -- m may have become 2^p: the pattern arithmetic below carries into the exponent
    let mag := if m < 2 ^ (f.p - 1) then m
      else ((q - f.emin).toNat + 1) * 2 ^ (f.p - 1) + (m - 2 ^ (f.p - 1))
    if mag ≥ f.inf then f.inf else mag

/-- Round a signed dyadic value; an exact zero takes the sign given. -/
def fOfDyadic (f : FFmt) (m : Int) (e : Int) (zneg : Bool) : Nat :=
  if m = 0 then fSign f zneg 0 else fSign f (decide (m < 0)) (fRound f m.natAbs 1 e)

/-- A signed significand. -/
def fSig (neg : Bool) (m : Nat) : Int := if neg then -(m : Int) else m

/-- Sum. -/
def fAdd (f : FFmt) (a b : Nat) : Nat :=
  match fRead f a, fRead f b with
  | .nan, _ => f.nan
  | _, .nan => f.nan
  | .inf na, .inf nb => if na = nb then fSign f na f.inf else f.nan
  | .inf na, _ => fSign f na f.inf
  | _, .inf nb => fSign f nb f.inf
  | .fin na ma ea, .fin nb mb eb =>
    let e := min ea eb
    let s := fSig na (ma * 2 ^ (ea - e).toNat) + fSig nb (mb * 2 ^ (eb - e).toNat)
    fOfDyadic f s e (na && nb)

/-- The pattern with its sign inverted. -/
def fNeg (f : FFmt) (a : Nat) : Nat := if bitAt a (f.bits - 1) then a - f.signBit else a + f.signBit

/-- The pattern with its sign cleared. -/
def fAbs (f : FFmt) (a : Nat) : Nat := if bitAt a (f.bits - 1) then a - f.signBit else a

/-- Difference. -/
def fSub (f : FFmt) (a b : Nat) : Nat :=
  match fRead f b with
  | .nan => f.nan
  | _ => fAdd f a (fNeg f b)

/-- Product. -/
def fMul (f : FFmt) (a b : Nat) : Nat :=
  match fRead f a, fRead f b with
  | .nan, _ => f.nan
  | _, .nan => f.nan
  | .inf na, .inf nb => fSign f (na != nb) f.inf
  | .inf na, .fin nb mb _ => if mb = 0 then f.nan else fSign f (na != nb) f.inf
  | .fin na ma _, .inf nb => if ma = 0 then f.nan else fSign f (na != nb) f.inf
  | .fin na ma ea, .fin nb mb eb => fSign f (na != nb) (fRound f (ma * mb) 1 (ea + eb))

/-- Quotient of operands whose divisor is not zero; 03 R97 settles a zero divisor before. -/
def fDiv (f : FFmt) (a b : Nat) : Nat :=
  match fRead f a, fRead f b with
  | .nan, _ => f.nan
  | _, .nan => f.nan
  | .inf _, .inf _ => f.nan
  | .inf na, .fin nb _ _ => fSign f (na != nb) f.inf
  | .fin na _ _, .inf nb => fSign f (na != nb) 0
  | .fin na ma ea, .fin nb mb eb =>
    if mb = 0 then (if ma = 0 then f.nan else fSign f (na != nb) f.inf)
    else fSign f (na != nb) (fRound f ma mb (ea - eb))

/-- Whether a pattern is a zero of either sign. -/
def fIsZero (f : FFmt) (a : Nat) : Bool := a % f.signBit == 0

/-- Normalise for hashing and equality (03 R90). -/
def fNorm (f : FFmt) (a : Nat) : Nat :=
  match fRead f a with
  | .nan => f.nan
  | _ => if fIsZero f a then 0 else a

/-- A pattern's place in the total order of 03 R90, as an integer that rises with it. -/
def fRank (f : FFmt) (a : Nat) : Int :=
  let a := fNorm f a
  if a = f.nan then f.nan
  else if bitAt a (f.bits - 1) then -((a - f.signBit : Nat) : Int)
  else a

/-- Integer to float (03 R99). -/
def fOfInt (f : FFmt) (i : Int) : Nat := fOfDyadic f i 0 false

/-- A signed rational to float. -/
def fOfRat (f : FFmt) (num : Int) (den : Nat) : Nat :=
  if num = 0 then 0 else fSign f (decide (num < 0)) (fRound f num.natAbs den 0)

/-- Float to float (03 R98, R99). -/
def fConv (a b : FFmt) (v : Nat) : Nat :=
  match fRead a v with
  | .nan => b.nan
  | .inf n => fSign b n b.inf
  | .fin n m e => fSign b n (fRound b m 1 e)

/-- Division of integers rounding half away from zero. -/
def divHalfAway (n : Int) (d : Nat) : Int :=
  let q := (2 * n.natAbs + d) / (2 * d)
  if n < 0 then -(q : Int) else q

/-- A finite value as numerator and denominator. -/
def dyadicRat (m : Int) (e : Int) : Int × Nat :=
  if e ≥ 0 then (m * 2 ^ e.toNat, 1) else (m, 2 ^ (-e).toNat)

end Sys2Proof.Machine
end

