-- ==== Sys2Proof/Machine/Operands.lean ====
section
/-! DEFINITION. The operand forms of the engine: value types and their codes (03 R83), the cells a batch holds, the total
order, normalisation and hashing of values (03 R90 to R92, 05 R153, R174). -/

namespace Sys2Proof.Machine
open Sys2Proof

/-- Value types (03 R83). -/
inductive Ty where
  | bool | i8 | i16 | i32 | i64 | u8 | u16 | u32 | u64 | f32 | f64 | dec64 | dec128 | date | timestamp | dict32
  | varstr | fixbin
  deriving DecidableEq, Repr

/-- Type codes in order, from 0x01. -/
def tyList : List Ty :=
  [.bool, .i8, .i16, .i32, .i64, .u8, .u16, .u32, .u64, .f32, .f64, .dec64, .dec128, .date, .timestamp, .dict32,
   .varstr, .fixbin]

/-- The type a code names (03 R83); code 0 and codes from 0x13 name none. -/
def tyOf (code : Nat) : Option Ty := if code = 0 then none else tyList[code - 1]?

/-- Value width in bytes (02 R34). -/
def Ty.width : Ty → Nat
  | .bool | .i8 | .u8 => 1
  | .i16 | .u16 => 2
  | .i32 | .u32 | .f32 | .date | .dict32 => 4
  | .i64 | .u64 | .f64 | .dec64 | .timestamp => 8
  | .dec128 | .fixbin | .varstr => 16

/-- Type class code (04 R142). -/
def Ty.cls : Ty → Nat
  | .bool => 1
  | .i8 | .i16 | .i32 | .i64 => 2
  | .u8 | .u16 | .u32 | .u64 => 3
  | .f32 | .f64 => 4
  | .dec64 | .dec128 => 5
  | .date => 6
  | .timestamp => 7
  | .dict32 => 8
  | .varstr => 9
  | .fixbin => 10

/-- Whether FRC arithmetic and hashing read the type as signed (02, *The encodings*; 05 R153). -/
def Ty.isSigned : Ty → Bool
  | .i8 | .i16 | .i32 | .i64 | .date | .timestamp | .dec64 | .dec128 => true
  | _ => false

/-- Whether the type is a decimal. -/
def Ty.isDec (t : Ty) : Bool := t.cls == 5

/-- The floating-point format of a float type. -/
def Ty.fmt : Ty → FFmt
  | .f32 => Sys2Proof.Machine.f32
  | _ => Sys2Proof.Machine.f64

/-- Digits a decimal type holds (03, *Decimals*). -/
def Ty.digits : Ty → Nat
  | .dec64 => 18
  | _ => 38

/-- Whether a scale is allowed for a type (04 R114). -/
def Ty.scaleOk (t : Ty) (s : Nat) : Bool :=
  match t with
  | .dec64 => s ≤ 18
  | .dec128 => s ≤ 38
  | _ => s == 0

/-- One value of a batch: validity, the W-byte pattern as a little-endian number, and for VARSTR the string bytes the
frame's string area holds and the heap its reference points into (03 R93). -/
structure Cell where
  ok : Bool
  v : Nat
  str : List Byte
  /-- engine virtual address of the heap -/
  heap : Nat
  deriving DecidableEq, Repr

/-- A null value: zeros with validity 0. -/
def Cell.null : Cell := ⟨false, 0, [], 0⟩
/-- A valid value other than a string. -/
def Cell.of (v : Nat) : Cell := ⟨true, v, [], 0⟩
/-- Length of a string reference (02 R44). -/
def Cell.strLen (c : Cell) : Nat := c.v % 2 ^ 32
/-- Heap offset of a long string (02 R44). -/
def refOffset (v : Nat) : Nat := v / 2 ^ 64 % 2 ^ 40
/-- Bytes a short string reference holds itself. -/
def shortStr (v : Nat) : List Byte := (leBytes 12 (v / 2 ^ 32)).take (v % 2 ^ 32)

/-- The integer a pattern of an integer, decimal or date type stands for. -/
def Ty.int (t : Ty) (v : Nat) : Int :=
  if t.isSigned then toSigned (8 * t.width) v else (v % 2 ^ (8 * t.width) : Nat)

/-- The pattern of an integer in a type. -/
def Ty.pat (t : Ty) (i : Int) : Nat := ofSigned (8 * t.width) i

/-- Least and greatest value of an integer, date or decimal type. -/
def Ty.lo (t : Ty) : Int :=
  if t.isDec then -(10 ^ t.digits - 1) else if t.isSigned then -(2 ^ (8 * t.width - 1)) else 0
/-- Greatest value. -/
def Ty.hi (t : Ty) : Int :=
  if t.isDec then 10 ^ t.digits - 1 else if t.isSigned then 2 ^ (8 * t.width - 1) - 1 else 2 ^ (8 * t.width) - 1

/-! ### Order, equality and hashing -/

/-- A byte folded to lower case (03 R92). -/
def foldByte (b : Byte) : Byte := if 0x41 ≤ b.toNat ∧ b.toNat ≤ 0x5A then b + 0x20 else b

/-- String bytes, folded when the option is set. -/
def foldStr (fold : Bool) (l : List Byte) : List Byte := if fold then l.map foldByte else l

/-- Unsigned bytewise lexicographic order, a proper prefix first. -/
def cmpBytes : List Byte → List Byte → Ordering
  | [], [] => .eq
  | [], _ => .lt
  | _, [] => .gt
  | a :: s, b :: t => if a.toNat < b.toNat then .lt else if b.toNat < a.toNat then .gt else cmpBytes s t

/-- Order of integers. -/
def cmpInt (a b : Int) : Ordering := if a < b then .lt else if b < a then .gt else .eq

/-- The total order of 03 R90 on two valid values of a type; decimals at their own scales, strings whole. -/
def cmpVal (t : Ty) (sa sb : Nat) (fold : Bool) (a b : Cell) : Ordering :=
  match t with
  | .bool => cmpInt (b2n (a.v % 256 != 0)) (b2n (b.v % 256 != 0))
  | .f32 | .f64 => cmpInt (fRank t.fmt a.v) (fRank t.fmt b.v)
  | .dec64 | .dec128 => cmpInt (t.int a.v * 10 ^ sb) (t.int b.v * 10 ^ sa)
  | .varstr => cmpBytes (foldStr fold a.str) (foldStr fold b.str)
  | .fixbin => cmpBytes (leBytes 16 a.v) (leBytes 16 b.v)
  | _ => cmpInt (t.int a.v) (t.int b.v)

/-- Normalise a value before hashing and key equality (03 R90). -/
def normVal (t : Ty) (v : Nat) : Nat :=
  match t with
  | .bool => b2n (v % 256 != 0)
  | .f32 | .f64 => fNorm t.fmt v
  | _ => v % 2 ^ (8 * t.width)

/-- Bytes cut into eights, the last zero-padded, as words. -/
def wordsOf : Nat → List Byte → List Nat
  | 0, _ => []
  | _, [] => []
  | n + 1, l => leAt l 0 8 :: wordsOf n (l.drop 8)

/-- The hash words a key contributes (05 R153). -/
def hashWords (t : Ty) (fold : Bool) (c : Cell) : List Nat :=
  if !c.ok then [0xFFFFFFFFFFFFFFFE]
  else match t with
    | .dec128 | .fixbin => [c.v % 2 ^ 64, c.v / 2 ^ 64 % 2 ^ 64]
    | .varstr => c.strLen :: wordsOf (c.str.length / 8 + 1) (foldStr fold c.str)
    | .bool | .f32 | .f64 => [normVal t c.v]
    | _ => [ofSigned 64 (t.int c.v)]

/-- The key hash (05 R154). -/
def hashKeys (seed : Nat) (ws : List Nat) : Nat :=
  ws.foldl (fun h x =>
      let h := ((h ^^^ x) * 0x9E3779B97F4A7C15) % 2 ^ 64
      h ^^^ (h >>> 29))
    (0x243F6A8885A308D3 ^^^ (seed * 0x0101010101010101))

/-- Invert bytes. -/
def invBytes (l : List Byte) : List Byte := l.map (fun b => ~~~b)

/-- Value bytes of a normalised sort key (05 R174); `c.str` holds at least the first 15 string bytes. -/
def sortBytes (t : Ty) (fold : Bool) (c : Cell) : List Byte :=
  let w := t.width
  match t with
  | .f32 | .f64 =>
    let v := fNorm t.fmt c.v
    let s := 2 ^ (8 * w - 1)
    beBytes w (if v < s then v + s else 2 ^ (8 * w) - 1 - v)
  | .fixbin => leBytes 16 c.v
  | .varstr => fitB 15 (foldStr fold (c.str.take 15)) ++ [BitVec.ofNat 8 (min c.strLen 15)]
  | .bool => [BitVec.ofNat 8 (b2n (c.v % 256 != 0))]
  | _ => if t.isSigned then beBytes w (t.pat (t.int c.v) ^^^ 2 ^ (8 * w - 1)) else beBytes w c.v

/-- Bytes one sort key takes. -/
def sortWidth (t : Ty) : Nat := 1 + t.width

/-- One entry of a normalised key (05 R174). DEDUCED (notes/assumptions/30.md): DESC inverts the value bytes of a valid
key; those of a null key stay zero. -/
def sortKey (t : Ty) (desc nullsLast fold : Bool) (c : Cell) : List Byte :=
  if c.ok then
    let v := sortBytes t fold c
    1 :: (if desc then invBytes v else v)
  else (if nullsLast then 2 else 0) :: List.replicate t.width 0

/-- Whether comparing two strings of which each holds at most 64 bytes needs more of either from the heap (03 R93). -/
def strNeedsHeap (fold : Bool) (a b : Cell) : Bool :=
  (64 < a.strLen || 64 < b.strLen) &&
    64 ≤ a.strLen && 64 ≤ b.strLen && foldStr fold (a.str.take 64) == foldStr fold (b.str.take 64) &&
    64 < max a.strLen b.strLen

end Sys2Proof.Machine
end

