-- ==== Sys2Proof/Machine/Frc.lean ====
section
/-! DEFINITION. Column pages and fixed-ratio coding (02 R33 to R57): geometry, slot headers, decoding, the check value,
and the encoder's choice of an encoding. -/

namespace Sys2Proof.Machine
open Sys2Proof

/-- A column descriptor (04 R119). -/
structure ColD where
  kind : Nat
  ty : Ty
  ratioLog2 : Nat
  guardT : Nat
  cap : Nat
  scale : Nat
  flags : Nat
  base : Nat
  rows : Nat
  heapBase : Nat
  heapBytes : Nat
  validBase : Nat
  deriving DecidableEq, Repr

/-! ### Geometry (R33 to R37) -/

/-- Round up to a multiple of 128. -/
def align128 (x : Nat) : Nat := alignUp x 128
/-- Slot size in bytes. -/
def ColD.slotBytes (c : ColD) : Nat := 1024 * c.ty.width / 2 ^ c.ratioLog2
/-- Offset of the dictionary area. -/
def ColD.dictOff (c : ColD) : Nat := 65408 - align128 (c.cap * c.ty.width)
/-- Slots per page. -/
def ColD.slots (c : ColD) : Nat :=
  (List.range 1024).foldl (fun best n => if 128 + align128 (16 * n) + n * c.slotBytes ≤ c.dictOff then n else best) 0
/-- Page offset of slot `k`'s payload. -/
def ColD.slotOff (c : ColD) (k : Nat) : Nat := 128 + align128 (16 * c.slots) + k * c.slotBytes
/-- Rows a page holds. -/
def ColD.rowsPerPage (c : ColD) : Nat := 1024 * c.slots
/-- Pages of the column (04 R120). -/
def ColD.pages (c : ColD) : Nat := ceilDiv c.rows c.rowsPerPage

/-! ### Slot headers (R41 to R53, R526) -/

/-- A slot header entry. -/
structure SlotH where
  crc : Nat
  enc : Nat
  nulls : Bool
  width : Nat
  /-- rows held -/
  count : Nat
  param : Nat
  /-- its reserved bits are zero -/
  clean : Bool
  deriving DecidableEq, Repr

/-- Read a slot header entry of 16 bytes. -/
def slotHOf (b : List Byte) : SlotH :=
  let w := leAt b 4 4
  { crc := leAt b 0 4, enc := bitsOf w 3 0, nulls := bitAt w 4, width := bitsOf w 15 8, count := bitsOf w 25 16 + 1,
    param := leAt b 8 8, clean := bitsOf w 7 5 == 0 && bitsOf w 31 26 == 0 }

/-- The 16 bytes of a slot header entry. -/
def SlotH.bytes (h : SlotH) : List Byte :=
  leBytes 4 h.crc ++ [BitVec.ofNat 8 (h.enc + 16 * b2n h.nulls), BitVec.ofNat 8 h.width] ++ leBytes 2 (h.count - 1) ++
    leBytes 8 h.param

/-- An EMPTY slot header (R42). -/
def SlotH.empty : SlotH := ⟨0, 0, false, 0, 1, 0, true⟩

/-- Heap offset and length of an ESCAPE header. -/
def SlotH.heapOff (h : SlotH) : Nat := bitsOf h.param 39 0
/-- Length in bytes of an ESCAPE header's heap record. -/
def SlotH.heapLen (h : SlotH) : Nat := bitsOf h.param 55 40
/-- Dictionary window of a DICT header. -/
def SlotH.dictBase (h : SlotH) : Nat := bitsOf h.param 15 0
/-- Entries of a DICT header's window. -/
def SlotH.dictSpan (h : SlotH) : Nat := bitsOf h.param 31 16

/-- ceil(log2 n). -/
def ceilLog2 (n : Nat) : Nat := if n ≤ 1 then 0 else Nat.log2 (n - 1) + 1

/-- Bit length of a number; that of 0 is 0. -/
def bitLen (n : Nat) : Nat := if n = 0 then 0 else Nat.log2 n + 1

/-- Data bytes an encoding takes (R50, R52), the validity bitmap not counted. -/
def dataBytes (ty : Ty) (h : SlotH) : Nat :=
  let w := ty.width
  match h.enc with
  | 1 => h.count * w
  | 2 => if w = 16 then 16 else 0
  | 3 => ceilDiv (h.count * h.width) 8
  | 4 => ceilDiv ((h.count - 1) * h.width) 8
  | 5 => ceilDiv (h.count * h.width) 8
  | 6 =>
    let runs := h.param
    alignUp (ceilDiv (10 * runs) 8) 8 + (if w = 16 then 16 * runs else 8 + ceilDiv (runs * h.width) 8)
  | _ => 0

/-- Bytes of bitmap and data. -/
def bodyBytes (ty : Ty) (h : SlotH) : Nat := 128 * b2n h.nulls + dataBytes ty h

/-- Whether an encoding applies to a type (*Encodings by type*). -/
def encAllowed (ty : Ty) (enc : Nat) : Bool :=
  if enc = 3 ∨ enc = 4 then ty.cls != 4 && ty.width != 16 else true

/-- Whether a slot header is well-formed apart from the fit of its bytes (R42, R49, R51). DEDUCED
(notes/assumptions/31.md): every field the table *Encoding codes* gives as zero is held to zero. -/
def SlotH.wf (h : SlotH) (ty : Ty) (dictUsed : Nat) : Bool :=
  h.clean && encAllowed ty h.enc &&
  match h.enc with
  | 0 => h.width == 0 && h.param == 0 && h.crc == 0 && h.count == 1 && !h.nulls
  | 1 => h.width == 0 && h.param == 0
  | 2 => h.width == 0 && (ty.width != 16 || h.param == 0)
  | 3 => decide (h.width ≤ 64)
  | 4 => decide (h.width ≤ 64)
  | 5 => decide (1 ≤ h.dictSpan) && decide (h.dictSpan ≤ 1024) && h.width == ceilLog2 h.dictSpan &&
      decide (h.dictBase + h.dictSpan ≤ dictUsed) && h.param / 2 ^ 32 == 0
  | 6 => decide (h.width ≤ 64) && decide (1 ≤ h.param) && decide (h.param ≤ 1024) && (ty.width != 16 || h.width == 0)
  | 0xE => h.width == 0 && h.heapOff % 128 == 0 && decide (16 ≤ h.heapLen) && decide (h.heapLen ≤ 16528) &&
      h.param / 2 ^ 56 == 0
  | _ => false

/-! ### Decoding (R46 to R52) -/

/-- Field `j` of a packed array of `w`-bit fields held as a number (R48). -/
def packedAt (n w j : Nat) : Nat := (n >>> (j * w)) % 2 ^ w

/-- The fields of a packed array. -/
def unpack (bytes : List Byte) (w count : Nat) : List Nat :=
  let n := leNat bytes
  (List.range count).map (packedAt n w)

/-- A packed array as bytes. -/
def packBits (w : Nat) (l : List Nat) : List Byte :=
  leBytes (ceilDiv (l.length * w) 8) (l.zipIdx.foldl (fun n f => n + (f.1 % 2 ^ w) <<< (f.2 * w)) 0)

/-- The signed number a zig field stands for, modulo 2^64 (R50). -/
def unzig (z : Nat) : Nat := if z % 2 = 0 then z / 2 else 2 ^ 64 - (z + 1) / 2

/-- The zig field of a difference modulo 2^64. -/
def zig (d : Nat) : Nat := if d < 2 ^ 63 then 2 * d else 2 * (2 ^ 64 - d) - 1

/-- Running sums modulo 2^64 from a first value. -/
def sumsFrom (v : Nat) : List Nat → List Nat
  | [] => [v]
  | z :: t => v :: sumsFrom ((v + unzig z) % 2 ^ 64) t

/-- The stored values of a block, or none when it is malformed (R51, R52); `dict` gives a dictionary entry. -/
def storedOf (ty : Ty) (h : SlotH) (dict : Nat → Nat) (data : List Byte) : Option (List Nat) :=
  let w := ty.width
  let cut (v : Nat) : Nat := v % 2 ^ (8 * w)
  match h.enc with
  | 1 => some ((List.range h.count).map (fun j => leAt data (j * w) w))
  | 2 => some (List.replicate h.count (if w = 16 then leAt data 0 16 else cut h.param))
  | 3 => some ((unpack (data.take (ceilDiv (h.count * h.width) 8)) h.width h.count).map (fun o => cut (h.param + o)))
  | 4 =>
    some ((sumsFrom h.param (unpack (data.take (ceilDiv ((h.count - 1) * h.width) 8)) h.width (h.count - 1))).map cut)
  | 5 =>
    let cs := unpack (data.take (ceilDiv (h.count * h.width) 8)) h.width h.count
    if cs.all (fun c => decide (c < h.dictSpan)) then some (cs.map (fun c => dict (h.dictBase + c))) else none
  | 6 =>
    let runs := h.param
    let head := alignUp (ceilDiv (10 * runs) 8) 8
    let lens := (unpack (data.take (ceilDiv (10 * runs) 8)) 10 runs).map (· + 1)
    let rest := data.drop head
    let vals := if w = 16 then (List.range runs).map (fun j => leAt rest (16 * j) 16)
      else
        let b := leAt rest 0 8
        (unpack ((rest.drop 8).take (ceilDiv (runs * h.width) 8)) h.width runs).map (fun o => cut (b + o))
    if lens.sum = h.count then some ((lens.zip vals).flatMap (fun p => List.replicate p.1 p.2)) else none
  | _ => none

/-- The rows of a block from its bitmap and data: validity and value, a null row as zero (R46, R47). -/
def rowsOf (ty : Ty) (h : SlotH) (dict : Nat → Nat) (body : List Byte) : Option (List (Bool × Nat)) :=
  let bm := leNat (body.take 128)
  (storedOf ty h dict (if h.nulls then body.drop 128 else body)).map (fun vs =>
    vs.zipIdx.map (fun p => if !h.nulls || bm.testBit p.2 then (true, p.1) else (false, 0)))

/-- Validity bits as bytes (R43). -/
def bitmapBytes (n : Nat) (l : List Bool) : List Byte :=
  leBytes n (l.zipIdx.foldl (fun a p => if p.1 then a + 2 ^ p.2 else a) 0)

/-- The canonical form of a block (R43). -/
def canonical (ty : Ty) (rows : List (Bool × Nat)) : List Byte :=
  rows.flatMap (fun r => leBytes ty.width r.2) ++ bitmapBytes (ceilDiv rows.length 8) (rows.map Prod.fst)

/-- The check value of a block (R45). -/
def blockCrc (ty : Ty) (rows : List (Bool × Nat)) : Nat := leNat (leBytes 4 (crc32c (canonical ty rows)))

/-! ### The encoder's choice (R47, R54, R55) -/

/-- The stored values of a block's rows (R47). -/
def storeNulls (rows : List (Bool × Nat)) : List Nat :=
  let first := match rows.find? (fun r => r.1) with
    | some r => r.2
    | none => 0
  (rows.foldl (fun (acc : Nat × List Nat) r => let v := if r.1 then r.2 else acc.1; (v, v :: acc.2)) (first, [])).2.reverse

/-- A stored value as a 64-bit integer (02, *The encodings*). -/
def as64 (ty : Ty) (v : Nat) : Nat := ofSigned 64 (ty.int v)

/-- A candidate: header, data bytes, the dictionary after it. -/
structure EncRes where
  hdr : SlotH
  data : List Byte
  dict : List Nat
  deriving DecidableEq, Repr

/-- Bytes a candidate takes. -/
def EncRes.size (ty : Ty) (r : EncRes) : Nat := bodyBytes ty r.hdr

/-- Distinct values in order of first appearance. -/
def distinct (l : List Nat) : List Nat := (l.foldl (fun (acc : List Nat) v => if acc.contains v then acc else v :: acc) []).reverse

/-- Runs of equal values: length and value. -/
def runsOf : List Nat → List (Nat × Nat)
  | [] => []
  | v :: t =>
    match runsOf t with
    | (n, x) :: r => if x = v then (n + 1, x) :: r else (1, v) :: (n, x) :: r
    | [] => [(1, v)]

/-- Search depth by effort level (R54). -/
def searchDepth (level : Nat) : Nat := nthD [0, 0, 0, 1, 4, 8, 16, 63] level 0

/-- Encodings tried by effort level, by code, in the tie order CONST, RLE, FOR, DICT, DELTA, RAW (R54, R55). -/
def triedEncs (level : Nat) : List Nat :=
  if level = 0 then [2, 3, 1] else if level = 1 then [2, 6, 3, 1] else if level = 2 then [2, 6, 3, 5, 1]
  else [2, 6, 3, 5, 4, 1]

/-- A header under construction. -/
def mkHdr (enc width param count : Nat) (nulls : Bool) : SlotH := ⟨0, enc, nulls, width, count, param, true⟩

/-- The FOR candidate: a frame of the search window (most recent first) when reusable, else the minimal frame. -/
def forCand (c : ColD) (recent : List SlotH) (nulls : Bool) (vals dict : List Nat) : EncRes :=
  let ty := c.ty
  let is := vals.map ty.int
  let mn := is.foldl min (is.headD 0)
  let mx := is.foldl max (is.headD 0)
  let wmin := bitLen (mx - mn).toNat
  let n := vals.length
  let ok (h : SlotH) : Bool :=
    let b := if ty.isSigned then toSigned 64 h.param else (h.param : Int)
    h.enc == 3 && is.all (fun v => decide (0 ≤ v - b) && decide (v - b < 2 ^ h.width)) && decide (h.width ≤ wmin + 1) &&
      decide (128 * b2n nulls + ceilDiv (n * h.width) 8 ≤ c.slotBytes)
  let (base, width) := match recent.find? ok with
    | some h => (h.param, h.width)
    | none => (ofSigned 64 mn, wmin)
  ⟨mkHdr 3 width base n nulls, packBits width (vals.map (fun v => (as64 ty v + 2 ^ 64 - base) % 2 ^ 64)), dict⟩

/-- The DICT candidate, if any. DEDUCED (notes/assumptions/32.md): a new window is formed only when no window within the
search depth holds every value, and blocks that escaped do not count. -/
def dictCand (c : ColD) (recent : List SlotH) (nulls : Bool) (vals dict : List Nat) : Option EncRes :=
  let ds := distinct vals
  let n := vals.length
  let window (h : SlotH) : List Nat := (dict.drop h.dictBase).take h.dictSpan
  let fits := recent.filter (fun h => h.enc == 5 && ds.all (fun v => (window h).contains v))
  let best := fits.foldl (fun (b : Option SlotH) h =>
    match b with
    | some x => if h.width < x.width then some h else some x
    | none => some h) none
  match best with
  | some h =>
    some ⟨mkHdr 5 h.width (h.dictBase + h.dictSpan * 2 ^ 16) n nulls,
      packBits h.width (vals.map (fun v => (window h).idxOf v)), dict⟩
  | none =>
    if dict.length + ds.length ≤ c.cap then
      let w := ceilLog2 ds.length
      some ⟨mkHdr 5 w (dict.length + ds.length * 2 ^ 16) n nulls, packBits w (vals.map (fun v => ds.idxOf v)), dict ++ ds⟩
    else none

/-- The RLE candidate. -/
def rleCand (c : ColD) (nulls : Bool) (vals dict : List Nat) : EncRes :=
  let rs := runsOf vals
  let n := rs.length
  let lens := fitB (alignUp (ceilDiv (10 * n) 8) 8) (packBits 10 (rs.map (fun r => r.1 - 1)))
  if c.ty.width = 16 then
    ⟨mkHdr 6 0 n vals.length nulls, lens ++ rs.flatMap (fun r => leBytes 16 r.2), dict⟩
  else
    let b := (rs.map Prod.snd).foldl min ((rs.map Prod.snd).headD 0)
    let fs := rs.map (fun r => r.2 - b)
    let w := bitLen (fs.foldl max 0)
    ⟨mkHdr 6 w n vals.length nulls, lens ++ leBytes 8 b ++ packBits w fs, dict⟩

/-- Successive differences modulo 2^64 as zig fields. -/
def zigs : List Nat → List Nat
  | a :: b :: t => zig ((b + 2 ^ 64 - a) % 2 ^ 64) :: zigs (b :: t)
  | _ => []

/-- The candidate of one encoding, if it applies. -/
def candOf (c : ColD) (recent : List SlotH) (nulls : Bool) (vals dict : List Nat) (enc : Nat) : Option EncRes :=
  let n := vals.length
  let w := c.ty.width
  if !encAllowed c.ty enc then none
  else match enc with
    | 1 => some ⟨mkHdr 1 0 0 n nulls, vals.flatMap (leBytes w), dict⟩
    | 2 =>
      let v := vals.headD 0
      if vals.all (· == v) then
        some (if w = 16 then ⟨mkHdr 2 0 0 n nulls, leBytes 16 v, dict⟩ else ⟨mkHdr 2 0 v n nulls, [], dict⟩)
      else none
    | 3 => some (forCand c recent nulls vals dict)
    | 4 =>
      let zs := zigs (vals.map (as64 c.ty))
      let wd := bitLen (zs.foldl max 0)
      some ⟨mkHdr 4 wd (as64 c.ty (vals.headD 0)) n nulls, packBits wd zs, dict⟩
    | 5 => dictCand c recent nulls vals dict
    | _ => some (rleCand c nulls vals dict)

/-- Choose the encoding of a block (R55): smallest size, ties in the order of `triedEncs`. `prev` lists the page's slot
headers, first slot first. -/
def chooseEnc (c : ColD) (level : Nat) (prev : List SlotH) (dict : List Nat) (rows : List (Bool × Nat)) : EncRes :=
  let nulls := rows.any (fun r => !r.1)
  let vals := storeNulls rows
  let recent := prev.reverse.take (searchDepth level)
  let cands := (triedEncs level).filterMap (candOf c recent nulls vals dict)
  let best := cands.foldl (fun (b : Option EncRes) r =>
    match b with
    | some x => if r.size c.ty < x.size c.ty then some r else some x
    | none => some r) none
  let r := best.getD ⟨mkHdr 1 0 0 vals.length nulls, vals.flatMap (leBytes c.ty.width), dict⟩
  let canon := rows.map (fun p => if p.1 then p else (false, 0))
  { r with
    hdr := { r.hdr with crc := blockCrc c.ty canon }
    data := (if nulls then bitmapBytes 128 (rows.map Prod.fst) else []) ++ r.data }

end Sys2Proof.Machine
end

