-- ==== Sys2Proof/Machine/DmState.lean ====
section
/-! DEFINITION. State of the data-mover channels (07) and of the Finxis ports (08). -/

namespace Sys2Proof.Machine
open Sys2Proof

/-! ### Data movers -/

/-- A pending row of an encoder: validity, value, and the source's heap offset of a long string (07 R231). -/
structure EncRow where
  ok : Bool
  v : Nat
  deriving DecidableEq, Repr

/-- A channel's open column (07 R230): encode block, source and destination, cursors, the page under construction. -/
structure EncCol where
  blk : Nat
  src : ColD
  dst : ColD
  colId : Nat
  /-- next source row -/
  row : Nat
  /-- index of the open page -/
  page : Nat
  heapNext : Nat
  /-- pages closed through the block -/
  pages : Nat
  level : Nat
  pend : List EncRow
  slots : List SlotH
  dict : List Nat
  escape : Bool
  gaps : Bool
  /-- bytes of the page buffer, by page offset -/
  buf : Tab Byte
  /-- lines of the page already written to memory -/
  wrote : List Nat
  deriving DecidableEq, Repr

/-- A page whose header has been written and whose footer line waits (02 R57), with the block's control fields after it. -/
structure Closing where
  pa : Nat
  footer : List Byte
  /-- the footer is in memory -/
  visible : Bool
  blk : Nat
  nextRow : Nat
  heapNext : Nat
  pages : Nat
  deriving DecidableEq, Repr

/-- What a channel's instruction waits for. -/
inductive DmWork where
  | none
  /-- MOVE: source line, destination line, lines left -/
  | move (src dst left : Nat)
  /-- ENCODE: rows left -/
  | encode (left : Nat)
  /-- WAIT for a memory word -/
  | wait (addr value : Nat)
  deriving DecidableEq, Repr

/-- A repeating loop (07 R225): instruction index of the LOOP, passes left, iteration number. -/
structure DmLoop where
  at_ : Nat
  back : Nat
  left : Nat
  iter : Nat
  deriving DecidableEq, Repr

/-- A data-mover channel. -/
structure DmCh where
  /-- START last seen -/
  start : Nat
  /-- physical address of the program that runs -/
  prog : Option Nat
  /-- instruction index -/
  pc : Nat
  loops : List DmLoop
  /-- instructions whose bad status stands in this program run -/
  badAt : List Nat
  work : DmWork
  enc : Option EncCol
  closing : List Closing
  /-- END has been reached: MSI asked for -/
  ending : Option Bool
  deriving DecidableEq, Repr

/-- A channel that holds nothing. -/
def DmCh.reset : DmCh := ⟨0, none, 0, [], [], .none, none, [], none⟩

/-! ### Finxis ports -/

/-- A packet (08 R242): header fields and payload. -/
structure FxPkt where
  type : Nat
  flags : Nat
  ring : Nat
  seq : Nat
  window : Nat
  code : Nat
  offset : Nat
  count : Nat
  payload : List Byte
  deriving DecidableEq, Repr

/-- A registered window (08 R248). -/
structure FxWin where
  ring : Nat
  kind : Nat
  size : Nat
  /-- withdrawn, its acknowledgement still to be sent -/
  released : Bool
  deriving DecidableEq, Repr

/-- Staging space of a descriptor (08 R247): input and output parts, offsets in the region. -/
structure FxStage where
  ring : Nat
  seq : Nat
  base : Nat
  inSize : Nat
  outSize : Nat
  /-- the descriptor has completed: free once its last DATA_OUT has been sent -/
  closing : Bool
  deriving DecidableEq, Repr

/-- A flit waiting to be sent: virtual lane, flits its packet needs when it is the packet's first, the packet's type, ring
pair and sequence number, 248 packet bytes. -/
structure FxFlit where
  vl : Nat
  need : Nat
  type : Nat
  ring : Nat
  seq : Nat
  bytes : List Byte
  deriving DecidableEq, Repr

/-- A Finxis port. -/
structure FxPort where
  /-- SESSION last seen -/
  sess : Option Nat
  /-- half of the lanes a ×4 port uses -/
  upper : Bool
  /-- credits held, by virtual lane -/
  credits : Tab Nat
  /-- flits waiting to be sent -/
  txq : List FxFlit
  /-- flits sent and not acknowledged: sequence number and flit -/
  unack : List (Nat × FxFlit)
  /-- those still to be sent again -/
  replay : List (Nat × FxFlit)
  /-- counter of the response rate limiter, in 64ths of a flit (08 R252) -/
  lim : Nat
  /-- sequence number of the next DATA flit sent, and of the next one expected -/
  nseq : Nat
  rseq : Nat
  /-- discarding until a replay arrives -/
  discard : Bool
  /-- replays without progress -/
  replays : Nat
  /-- bits of the port's stream that wait for a whole codeword: how many, and the bits (08 R235) -/
  line : Nat × Nat
  /-- packet bytes received so far, by virtual lane -/
  asm : Tab (List Byte)
  /-- packets received and not yet acted on, oldest first -/
  rx : List FxPkt
  /-- credits to return, by virtual lane -/
  ret : Tab Nat
  wins : Tab (Option FxWin)
  stages : List FxStage
  /-- a COMMAND whose staging reservation waits -/
  waiting : Option FxPkt
  /-- descriptors asked for by ring pair: next sequence number and how many -/
  want : Tab (Nat × Nat)
  /-- ring pairs whose FETCH is due again -/
  again : List Nat
  /-- output window of each descriptor: ring pair, sequence number, window -/
  outw : List (Nat × Nat × Nat)
  deriving DecidableEq, Repr

/-- A port that has not trained. -/
def FxPort.reset : FxPort := ⟨none, false, [], [], [], [], 0, 0, 0, false, 0, (0, 0), [], [], [], [], [], none, [], [], []⟩

end Sys2Proof.Machine
end

