-- ==== Sys2Proof/Machine/EngState.lean ====
section
/-! DEFINITION. The engine's state: ring pairs, descriptors and runs at the ring manager, slices and their tasks, scan
fronts, bucket operations and exchange messages in flight (02 to 06). -/

namespace Sys2Proof.Machine
open Sys2Proof

/-- An engine translation entry (06 R215): set, virtual page, 2^k pages, permissions, physical page. -/
structure ETE where
  set : Nat
  va : Nat
  k : Nat
  w : Bool
  r : Bool
  pa : Nat
  /-- the parity bit of an entry of a slice's TLB (03 R70) -/
  par : Bool
  deriving DecidableEq, Repr

/-- A request stalled on an engine translation fault (06 R216). -/
structure Stall where
  set : Nat
  /-- engine virtual address -/
  va : Nat
  write : Bool
  deriving DecidableEq, Repr

/-- A status other than OK with its subcode, DETAIL and ERR_ADDR (06 R211). -/
structure Fail where
  status : Nat
  sub : Nat
  detail : Nat
  addr : Nat
  deriving DecidableEq, Repr

/-- A batch (03 R75): row numbers, selection and columns of its filled positions. -/
structure Batch where
  rows : List Nat
  sel : List Bool
  regs : Tab (List Cell)
  deriving DecidableEq, Repr

/-- A batch of no rows. -/
def Batch.empty : Batch := ⟨[], [], []⟩

/-- A match-array row (05 R188). -/
structure MRow where
  value : Nat
  care : Nat
  tag : Nat
  result : Nat
  owner : Nat
  valid : Bool
  /-- the row's parity bit (03 R70) -/
  par : Bool
  deriving DecidableEq, Repr

/-- A match-array row that has not been written. -/
def MRow.off : MRow := ⟨0, 0, 0, 0, 0, false, false⟩

/-- Whether an odd number of the low `n` bits of `v` are 1. -/
def oddBits (n v : Nat) : Bool := (List.range n).foldl (fun p i => p != v.testBit i) false

/-- The parity of a match-array row's fields (05 R188). Even parity is a design choice (notes/assumptions/96.md). -/
def MRow.parity (r : MRow) : Bool :=
  (((oddBits 128 r.value != oddBits 128 r.care) != oddBits 8 r.tag) != oddBits 32 r.result) != (oddBits 12 r.owner != r.valid)

/-- Whether a match-array row's parity is bad (03 R70). -/
def MRow.bad (r : MRow) : Bool := r.par != r.parity

/-- The parity of a translation entry's fields (06 R215). -/
def ETE.parity (e : ETE) : Bool :=
  (((oddBits 8 e.set != oddBits 41 e.va) != oddBits 4 e.k) != oddBits 36 e.pa) != (e.w != e.r)

/-- Whether a translation entry's parity is bad (03 R70). -/
def ETE.bad (e : ETE) : Bool := e.par != e.parity

/-- One aggregate's state, or a payload: validity, value, and the row number FIRST and LAST hold (05 R166). -/
structure AggV where
  ok : Bool
  v : Nat
  rn : Nat
  deriving DecidableEq, Repr

/-- A group or key with its hash, key values with validity, and states or payloads. -/
structure AggEnt where
  h : Nat
  keys : List (Bool × Nat)
  vals : List AggV
  deriving DecidableEq, Repr

/-- A line of an aggregation cache (05 R168): entries in use and the round-robin victim pointer. -/
structure AggLine where
  ents : List AggEnt
  victim : Nat
  deriving DecidableEq, Repr

/-- Kinds of bucket operation (05 R157). -/
inductive BKind where
  | insert (distinct : Bool)
  | probe
  | merge
  deriving DecidableEq, Repr

/-- Where a bucket operation stands: at visit `k` of its sequence, at its anchor, at a line of a spill chunk (searching,
or looking for room), or ended. -/
inductive BAt where
  | line (k : Nat)
  | anchor
  | chunk (pa ln : Nat) (search : Bool)
  | done
  deriving DecidableEq, Repr

/-- A bucket operation in flight (05 R156, R160): what issued it, what it carries, the physical addresses of its visit
sequence and anchor line. -/
structure BOp where
  id : Nat
  kind : BKind
  ring : Nat
  seq : Nat
  pipe : Nat
  /-- operator index, for DETAIL -/
  oper : Nat
  slice : Nat
  task : Nat
  /-- pool offset of the table's declaration in the run's image -/
  decl : Nat
  ent : AggEnt
  /-- overflow modes of the aggregates -/
  ovf : List Nat
  lines : List Nat
  /-- virtual addresses of the lines and of the anchor, for ERR_ADDR -/
  vas : List Nat
  anchor : Nat
  anchorVa : Nat
  /-- number of the request flit it travels in (05 R160) -/
  flit : Nat
  /-- first bucket line of the sequence -/
  line0 : Nat
  st : BAt
  /-- batch position of a probe and the payloads it has found, in order -/
  pos : Nat
  found : List (List (Bool × Nat))
  /-- status it ended with, 0 for none, and its ERR_ADDR -/
  status : Nat
  addr : Nat
  deriving DecidableEq, Repr

/-- A PROBE at work on a batch (05 R163, R164): operator, the batch probed, positions still to be probed, positions whose
probes have not ended, what the match staging buffer holds by position, and output rows produced so far. -/
structure ProbeSt where
  oper : Nat
  src : Batch
  todo : List Nat
  out : List Nat
  found : Tab (List (List (Bool × Nat)))
  made : Nat
  deriving DecidableEq, Repr

/-- A row kept by TOPK (05 R181). -/
structure HeapRow where
  key : List Byte
  rn : Nat
  cells : List (Nat × Cell)
  deriving DecidableEq, Repr

/-- What a task covers (03 R74). -/
inductive TaskKind where
  /-- unit `k` of the input: a page, 65,536 bytes of a raw array, an inline batch, 512 bucket lines -/
  | unit (k : Nat)
  /-- a spill chunk of a table: physical address and first slot number -/
  | chunk (pa slot : Nat)
  | recv
  | merge
  | gather
  /-- a level-0 partition -/
  | level0 (p : Nat)
  deriving DecidableEq, Repr

/-- Rows of a fetch scan still to be read: column position and column page (04 R130). -/
structure FetchItem where
  col : Nat
  page : Nat
  deriving DecidableEq, Repr

/-- A task on a slice. -/
structure Task where
  id : Nat
  ring : Nat
  seq : Nat
  ctx : Nat
  pipe : Nat
  kind : TaskKind
  /-- next operator to act on the batch -/
  oper : Nat
  batch : Option Batch
  /-- frame of the batch in the operators, 0 or 1 -/
  frame : Nat
  /-- rows packed and not yet released to the operators -/
  queue : Batch
  /-- blocks of the task read, blocks packed, and blocks it has -/
  sent : Nat
  blk : Nat
  blks : Nat
  /-- the input operator has started -/
  opened : Bool
  /-- PROBEs of the task at work, the one of the latest operator first: the first is active when no batch is in the
  operators, the others carry on with continuation batches (05 R164) -/
  probes : List ProbeSt
  /-- columns a fetch scan has yet to read, and the cells it has read: column position · 1024 + batch position -/
  fetch : List FetchItem
  fetched : Tab (Option Cell)
  /-- a fetch scan is under way -/
  fetching : Bool
  /-- rows kept by TOPK, and the key whose ties were cut (05 R182) -/
  heap : List HeapRow
  cutKey : Option (List Byte)
  /-- a merge task has been told its runs; they; it is the final merge (05 R179) -/
  told : Bool
  runs : List Nat
  final : Bool
  stall : Option Stall
  /-- its stalled requests were dropped: it ends without a batch boundary (06 R209, R213) -/
  dropped : Bool
  /-- to end at the next batch boundary -/
  ending : Bool
  fail : Option Fail
  /-- the batch is tagged for a sample (21 R504) -/
  tagged : Bool
  /-- rows packed into the batch in the operators -/
  packed : Nat
  deriving DecidableEq, Repr

/-- An exchange message (05 R184). -/
structure XMsg where
  ring : Nat
  seq : Nat
  xid : Nat
  src : Nat
  dst : Nat
  /-- rows, each a list of cells in the sender's list order -/
  rows : List (List Cell)
  flits : Nat
  /-- flits the sender has spent credits on, and flits the receiver has taken -/
  sent : Nat
  taken : Nat
  /-- where the receiver moves its flits in spill before it is whole, its header there, and the flits moved (05 R185) -/
  place : Option (Nat × List Byte)
  moved : Nat
  deriving DecidableEq, Repr

/-- An exchange message at its receiver (05 R185): where it lies in spill, if it was moved there; column widths; rows
already taken by RECV. -/
structure RMsg where
  spill : Option Nat
  ws : List Nat
  skip : Nat
  m : XMsg
  deriving DecidableEq, Repr

/-- TOPK rows on their way to the gather slice (05 R180). -/
structure TMsg where
  ring : Nat
  seq : Nat
  pipe : Nat
  dst : Nat
  rows : List HeapRow
  /-- the key whose ties the sender cut -/
  cutKey : Option (List Byte)
  deriving DecidableEq, Repr

/-- An engine slice. -/
structure Slice where
  task : Option Task
  /-- the column buffer is being rewritten for the task it holds, and whether for an identity clear (14 R370) -/
  rewriting : Bool
  clearing : Bool
  /-- identity of the previous task (14 R370) -/
  last : Option Ident
  tlb : Tab ETE
  tlbPtr : Nat
  rows : Tab MRow
  agg : Tab AggLine
  /-- errors in column-buffer lines and aggregation-cache lines (32,768 + line): the bits of the line's first 64-bit word
  that are wrong (19 R468) -/
  bad : Tab (List Nat)
  /-- next line of the background scrub -/
  scrub : Nat
  /-- received exchange messages, oldest first -/
  rbuf : List RMsg
  deriving DecidableEq, Repr

/-- A slice as it powers up. -/
def Slice.reset : Slice := ⟨none, false, false, none, [], 0, [], [], [], 0, []⟩

/-- Progress of one pipeline of a run (04 R118). -/
structure PipeSt where
  /-- units dispatched, and units the input has -/
  next : Nat
  total : Nat
  /-- tasks on slices -/
  running : Nat
  /-- nothing more is dispatched: LIMIT reached -/
  closed : Bool
  /-- spill chunks still to be read by SCANRAW with TABLE, once found -/
  chunks : Option (List (Nat × Nat))
  /-- rows LIMIT has admitted -/
  lim : Nat
  /-- slice of the gather task, and whether it has passed its rows on -/
  gather : Option Nat
  gathered : Bool
  heap : List HeapRow
  /-- the least key whose ties were cut, by a task or the gather task (05 R182) -/
  cutKey : Option (List Byte)
  thr : Option (List Byte × Nat)
  /-- runs still to be merged, once taken; intermediate merges outstanding; the final merge has been given out -/
  runs : Option (List Nat)
  merging : Nat
  finished : Bool
  /-- level-0 partitions still to be merged, once their merging has begun -/
  parts : Option (List Nat)
  deriving DecidableEq, Repr

/-- A pipeline that has not started. -/
def PipeSt.start : PipeSt := ⟨0, 0, 0, false, none, 0, none, false, [], none, none, none, 0, false, none⟩

/-- A RUN_PIPELINE at work. -/
structure Run where
  slot : Nat
  mask : Nat
  /-- input and output descriptors with the run's replacements -/
  cols : List (List Byte)
  outs : List (List Byte)
  inBase : Nat
  inBytes : Nat
  outBase : Nat
  outBytes : Nat
  pipes : Tab PipeSt
  /-- rows reserved by group, heap bytes used by output descriptor -/
  groups : Tab Nat
  heaps : Tab Nat
  inl : Nat
  rows : Nat
  partly : Bool
  /-- spill chunks allocated, and anchor lines that received one -/
  chunks : List Nat
  anchors : List Nat
  /-- level-0 spill by 64 · pipeline + partition: chunks in order and records in the last -/
  l0 : Tab (List Nat × Nat)
  /-- exchange destinations by exchange ID; by slice, the chunk its exchange spill fills and the bytes used of it -/
  dests : Tab (List Nat)
  xspill : Tab (Nat × Nat)
  deriving DecidableEq, Repr

/-- A descriptor fetched and not completed (06 R201, R208). -/
structure Desc where
  ring : Nat
  seq : Nat
  /-- fetch order over the package -/
  ord : Nat
  ctx : Nat
  bytes : List Byte
  /-- its work has begun -/
  begun : Bool
  /-- its work may begin: no FLAGS.FENCE, or every earlier descriptor of its ring pair has completed -/
  ready : Bool
  fail : Option Fail
  /-- its work has ended -/
  done : Bool
  r0 : Nat
  r1 : Nat
  tag : Nat
  /-- image bytes read -/
  load : Option (List Byte)
  /-- store slot of the image it names, resident when it started -/
  slot : Option Nat
  run : Option Run
  /-- descriptors an ABORT waits for -/
  targets : List (Nat × Nat)
  /-- payload carried by DATA_IN packets, and inline output staged, of a Finxis ring pair -/
  inp : List Byte
  outp : List Byte
  /-- poison met in the payload staged -/
  poison : Bool
  stall : Option Stall
  deriving DecidableEq, Repr

/-- A ring pair's counts last seen (06 R199): SQ_TAIL, CQ_HEAD, and completion records held in state error. -/
structure RingSt where
  tail : Nat
  head : Nat
  held : Nat
  deriving DecidableEq, Repr

/-- A ring pair that has seen nothing. -/
def RingSt.reset : RingSt := ⟨0, 0, 0⟩

/-- An image in the store (04 R116): context, load count, bytes, whether it can still be run. -/
structure Image where
  ctx : Nat
  count : Nat
  bytes : List Byte
  live : Bool
  deriving DecidableEq, Repr

/-- Fault records of a context (06 R216): count written, and records held while the ring is full. -/
structure CtxSt where
  faults : Nat
  held : List (List Byte × Nat)
  deriving DecidableEq, Repr

/-- A context with no fault record. -/
def CtxSt.reset : CtxSt := ⟨0, []⟩

/-- A page a scan front reads for a task (02 R62, 03 R77): operator, column position, column page, virtual and physical
address, lines read so far, and once released the page's bytes with the heap records of its escaped blocks. -/
structure PageBuf where
  slice : Nat
  task : Nat
  oper : Nat
  col : Nat
  page : Nat
  va : Nat
  pa : Nat
  /-- the page request has reached the scan front -/
  opened : Bool
  lines : Tab (List Byte × Bool)
  ready : Option (List Byte × List (Nat × List Byte))
  deriving DecidableEq, Repr

/-- A selection bitmap forwarded to the scan front of a later column (03 R78). -/
structure ChainMsg where
  slice : Nat
  task : Nat
  col : Nat
  blk : Nat
  bits : List Bool
  deriving DecidableEq, Repr

/-- A survivor message (03 R79): column position, block within the task, bitmap, values of its rows. -/
structure SurvMsg where
  slice : Nat
  task : Nat
  col : Nat
  blk : Nat
  bits : List Bool
  cells : List Cell
  deriving DecidableEq, Repr

/-- A correction write-back of a scan front (02 R64): line, data read, corrected data, identity, front's counter. -/
structure CorrMsg where
  ln : Nat
  old : List Byte
  new : List Byte
  who : Ident
  front : Nat
  deriving DecidableEq, Repr

/-- The engine. -/
structure Eng where
  slices : Tab Slice
  /-- image store by slot, and loads of each slot so far -/
  images : Tab (Option Image)
  loads : Tab Nat
  descs : List Desc
  /-- descriptors fetched so far -/
  ord : Nat
  rings : Tab RingSt
  ctxs : Tab CtxSt
  /-- the shared engine translation cache by entry, its round-robin pointer -/
  etlb : Tab ETE
  etlbPtr : Nat
  /-- unresolved pages by set -/
  unres : List (Nat × Nat)
  /-- last context served by priority, and decisions a context was passed over -/
  rr : Tab Nat
  age : Tab Nat
  /-- tasks dispatched and bucket operations issued so far -/
  tasks : Nat
  opn : Nat
  bops : List BOp
  /-- request flits sent so far, and those being gathered: slice, home, number and requests in it (05 R160) -/
  flits : Nat
  gather : List (Nat × Nat × Nat × Nat)
  /-- spill chunks in use: physical addresses -/
  spill : List Nat
  pages : List PageBuf
  chains : List ChainMsg
  surv : List SurvMsg
  corr : List CorrMsg
  xch : List XMsg
  top : List TMsg
  deriving DecidableEq, Repr

/-- The engine after reset. -/
def Eng.reset : Eng :=
  ⟨[], [], [], [], 0, [], [], [], 0, [], [], [], 0, 0, [], 0, [], [], [], [], [], [], [], []⟩

end Sys2Proof.Machine
end

