-- ==== Sys2Proof/Machine/RegTable.lean ====
section
/-! DEFINITION. The register window (01 R22): the offset, the fields, the field types (00 R8) and the reset
values (00 R10) of every register the manual lays down. Offsets are relative to 0xF_FFFF_0000_0000. -/

namespace Sys2Proof.Machine
open Sys2Proof

/-- The field types of 00 R8; a bit in no field is reserved. -/
inductive FType where
  | rw | ro | w1c | w1s | wo | rws | rwl
  deriving DecidableEq, Repr

/-- A bit range `[hi:lo]` of a register. -/
structure Fld where
  hi : Nat
  lo : Nat
  deriving DecidableEq, Repr

/-- One field of a register: its bits, its type, its reset value, whether it is marked "monitor" (14 R365), and the
codes a write may give it (`okLo` to `okHi`; a write of any other code is ignored or, for a staged field, refused at
commit, as the field's own row says). -/
structure FieldDef where
  fld : Fld
  ty : FType
  reset : Nat
  mon : Bool
  okLo : Nat
  okHi : Nat
  deriving DecidableEq, Repr

/-- A register with its instances: offset `base + i * s1 + j * s2` for `i < n1`, `j < n2`. -/
structure RegDef where
  base : Nat
  n1 : Nat
  s1 : Nat
  n2 : Nat
  s2 : Nat
  fields : List FieldDef
  deriving DecidableEq, Repr

/-- The first address of the register window (00, *Registers*). -/
def windowBase : Nat := 0xFFFFF00000000

/-! ### Offsets -/

namespace Reg
/-- offset of PKG_ID -/
abbrev PKG_ID : Nat := 0x0
/-- offset of PKG_REV -/
abbrev PKG_REV : Nat := 0x8
/-- offset of PKG_PARAM0 -/
abbrev PKG_PARAM0 : Nat := 0x10
/-- offset of PKG_PARAM1 -/
abbrev PKG_PARAM1 : Nat := 0x18
/-- offset of PKG_PARAM2 -/
abbrev PKG_PARAM2 : Nat := 0x20
/-- offset of PKG_PARAM3 -/
abbrev PKG_PARAM3 : Nat := 0x28
/-- offset of PKG_MODE -/
abbrev PKG_MODE : Nat := 0x30
/-- offset of PKG_MODE_REQ, instance i of 2 -/
abbrev PKG_MODE_REQ (i : Nat) : Nat := 0x38 + 0x8 * i
/-- offset of PKG_BOOT -/
abbrev PKG_BOOT : Nat := 0x48
/-- offset of PKG_FEATURE -/
abbrev PKG_FEATURE : Nat := 0x80
/-- offset of PKG_DIE_ACTIVE -/
abbrev PKG_DIE_ACTIVE : Nat := 0x88
/-- offset of PKG_DIE_INFO, instance i of 16 -/
abbrev PKG_DIE_INFO (i : Nat) : Nat := 0x100 + 0x8 * i
/-- offset of PKG_STOP_FUNC, instance i of 64 -/
abbrev PKG_STOP_FUNC (i : Nat) : Nat := 0x200 + 0x8 * i
/-- offset of CTU_CMD, instance i of 2 -/
abbrev CTU_CMD (i : Nat) : Nat := 0x1000000 + 0x100 * i
/-- offset of CTU_STATUS, instance i of 2 -/
abbrev CTU_STATUS (i : Nat) : Nat := 0x1000008 + 0x100 * i
/-- offset of CTU_FAIL, instance i of 2 -/
abbrev CTU_FAIL (i : Nat) : Nat := 0x1000010 + 0x100 * i
/-- offset of CTU_CFG, instance i of 2 -/
abbrev CTU_CFG (i : Nat) : Nat := 0x1000018 + 0x100 * i
/-- offset of RCC_RST_CAUSE -/
abbrev RCC_RST_CAUSE : Nat := 0x2000000
/-- offset of RCC_RST_REQ, instance i of 2 -/
abbrev RCC_RST_REQ (i : Nat) : Nat := 0x2000008 + 0x8 * i
/-- offset of RCC_RST_UNITS -/
abbrev RCC_RST_UNITS : Nat := 0x2000018
/-- offset of RCC_DBG_RST -/
abbrev RCC_DBG_RST : Nat := 0x2000020
/-- offset of RCC_WDOG -/
abbrev RCC_WDOG : Nat := 0x2000028
/-- offset of RCC_OPT_STATUS -/
abbrev RCC_OPT_STATUS : Nat := 0x2000030
/-- offset of RCC_BKP, instance i of 16 -/
abbrev RCC_BKP (i : Nat) : Nat := 0x2000080 + 0x8 * i
/-- offset of RCC_HART_CAUSE, instance i of 216 -/
abbrev RCC_HART_CAUSE (i : Nat) : Nat := 0x2000400 + 0x8 * i
/-- offset of RCC_OPT, instance i of 16 -/
abbrev RCC_OPT (i : Nat) : Nat := 0x2000C00 + 0x8 * i
/-- offset of RCC_CLK_STATUS -/
abbrev RCC_CLK_STATUS : Nat := 0x2001000
/-- offset of RCC_CLK_LOSS -/
abbrev RCC_CLK_LOSS : Nat := 0x2001008
/-- offset of RCC_CCLK, instance i of 12 -/
abbrev RCC_CCLK (i : Nat) : Nat := 0x2001100 + 0x8 * i
/-- offset of PWR_REQ, instance i of 2 -/
abbrev PWR_REQ (i : Nat) : Nat := 0x3000000 + 0x8 * i
/-- offset of PWR_PKG -/
abbrev PWR_PKG : Nat := 0x3000010
/-- offset of PWR_SAVE -/
abbrev PWR_SAVE : Nat := 0x3000018
/-- offset of PWR_DIE, instance i of 12 -/
abbrev PWR_DIE (i : Nat) : Nat := 0x3000100 + 0x8 * i
/-- offset of PWR_UNIT, instance i of 107 -/
abbrev PWR_UNIT (i : Nat) : Nat := 0x3000200 + 0x8 * i
/-- offset of PWR_WAKE_EN -/
abbrev PWR_WAKE_EN : Nat := 0x3000800
/-- offset of PWR_WAKE_FLAG -/
abbrev PWR_WAKE_FLAG : Nat := 0x3000808
/-- offset of PWR_RTC -/
abbrev PWR_RTC : Nat := 0x3000810
/-- offset of PWR_RTC_ALARM -/
abbrev PWR_RTC_ALARM : Nat := 0x3000818
/-- offset of EVT_WORLD, instance i of 9 -/
abbrev EVT_WORLD (i : Nat) : Nat := 0x4600000 + 0x8 * i
/-- offset of EVT_RERR, instance i of 64 -/
abbrev EVT_RERR (i : Nat) : Nat := 0x4600100 + 0x8 * i
/-- offset of EVT_TFLT, instance i of 64 -/
abbrev EVT_TFLT (i : Nat) : Nat := 0x4600300 + 0x8 * i
/-- offset of PKB_ERR_STATUS, instance i of 8 -/
abbrev PKB_ERR_STATUS (i : Nat) : Nat := 0x4600800 + 0x20 * i
/-- offset of PKB_ERR_ADDR, instance i of 8 -/
abbrev PKB_ERR_ADDR (i : Nat) : Nat := 0x4600808 + 0x20 * i
/-- offset of PKB_ERR_MISC, instance i of 8 -/
abbrev PKB_ERR_MISC (i : Nat) : Nat := 0x4600810 + 0x20 * i
/-- offset of RTR_NET, instance i of 64 -/
abbrev RTR_NET (i : Nat) : Nat := 0x10000000 + 0x100000 * i
/-- offset of RTR_ARB, instance i of 64 -/
abbrev RTR_ARB (i : Nat) : Nat := 0x10000008 + 0x100000 * i
/-- offset of RTR_FENCE, instance i of 64 -/
abbrev RTR_FENCE (i : Nat) : Nat := 0x10000010 + 0x100000 * i
/-- offset of RTR_CUT, instance i of 64 -/
abbrev RTR_CUT (i : Nat) : Nat := 0x10000018 + 0x100000 * i
/-- offset of RTR_STAT_CTRL, instance i of 64 -/
abbrev RTR_STAT_CTRL (i : Nat) : Nat := 0x10000020 + 0x100000 * i
/-- offset of RTR_TTA, instance i of 64, entry j of 64 -/
abbrev RTR_TTA (i j : Nat) : Nat := 0x10000100 + 0x100000 * i + 0x8 * j
/-- offset of RTR_TTB, instance i of 64, entry j of 64 -/
abbrev RTR_TTB (i j : Nat) : Nat := 0x10000300 + 0x100000 * i + 0x8 * j
/-- offset of RTR_IPKT, instance i of 64, entry j of 64 -/
abbrev RTR_IPKT (i j : Nat) : Nat := 0x10001000 + 0x100000 * i + 0x20 * j
/-- offset of RTR_IFLIT, instance i of 64, entry j of 64 -/
abbrev RTR_IFLIT (i j : Nat) : Nat := 0x10001008 + 0x100000 * i + 0x20 * j
/-- offset of RTR_ILAT, instance i of 64, entry j of 64 -/
abbrev RTR_ILAT (i j : Nat) : Nat := 0x10001010 + 0x100000 * i + 0x20 * j
/-- offset of L3_LOCK, instance i of 64 -/
abbrev L3_LOCK (i : Nat) : Nat := 0x10004000 + 0x100000 * i
/-- offset of L3_LOCK_BASE, instance i of 64 -/
abbrev L3_LOCK_BASE (i : Nat) : Nat := 0x10004008 + 0x100000 * i
/-- offset of L3_LOCK_LIMIT, instance i of 64 -/
abbrev L3_LOCK_LIMIT (i : Nat) : Nat := 0x10004010 + 0x100000 * i
/-- offset of L3_LFSR, instance i of 64 -/
abbrev L3_LFSR (i : Nat) : Nat := 0x10004018 + 0x100000 * i
/-- offset of L3_STATUS, instance i of 64 -/
abbrev L3_STATUS (i : Nat) : Nat := 0x10004020 + 0x100000 * i
/-- offset of L3_LOCK_EVT, instance i of 64 -/
abbrev L3_LOCK_EVT (i : Nat) : Nat := 0x10004028 + 0x100000 * i
/-- offset of STP_ERR_STATUS, instance i of 64, entry j of 8 -/
abbrev STP_ERR_STATUS (i j : Nat) : Nat := 0x10004100 + 0x100000 * i + 0x20 * j
/-- offset of STP_ERR_ADDR, instance i of 64, entry j of 8 -/
abbrev STP_ERR_ADDR (i j : Nat) : Nat := 0x10004108 + 0x100000 * i + 0x20 * j
/-- offset of STP_ERR_MISC, instance i of 64, entry j of 8 -/
abbrev STP_ERR_MISC (i j : Nat) : Nat := 0x10004110 + 0x100000 * i + 0x20 * j
/-- offset of STP_PMF, instance i of 64 -/
abbrev STP_PMF (i : Nat) : Nat := 0x10004800 + 0x100000 * i
/-- offset of STP_PMC, instance i of 64, entry j of 15 -/
abbrev STP_PMC (i j : Nat) : Nat := 0x10004808 + 0x100000 * i + 0x8 * j
/-- offset of MCH_STATUS, instance i of 16 -/
abbrev MCH_STATUS (i : Nat) : Nat := 0x20000000 + 0x100000 * i
/-- offset of MCH_SCRUB, instance i of 16 -/
abbrev MCH_SCRUB (i : Nat) : Nat := 0x20000008 + 0x100000 * i
/-- offset of MCH_FLIP, instance i of 16 -/
abbrev MCH_FLIP (i : Nat) : Nat := 0x20000010 + 0x100000 * i
/-- offset of MCH_FLIP_PAT0, instance i of 16 -/
abbrev MCH_FLIP_PAT0 (i : Nat) : Nat := 0x20000018 + 0x100000 * i
/-- offset of MCH_FLIP_PAT1, instance i of 16 -/
abbrev MCH_FLIP_PAT1 (i : Nat) : Nat := 0x20000020 + 0x100000 * i
/-- offset of MCH_FLIP_ADDR, instance i of 16 -/
abbrev MCH_FLIP_ADDR (i : Nat) : Nat := 0x20000028 + 0x100000 * i
/-- offset of MCH_CE_COUNT, instance i of 16 -/
abbrev MCH_CE_COUNT (i : Nat) : Nat := 0x20000030 + 0x100000 * i
/-- offset of MCH_ERR_INFO, instance i of 16 -/
abbrev MCH_ERR_INFO (i : Nat) : Nat := 0x20000038 + 0x100000 * i
/-- offset of MCH_ERR_ADDR, instance i of 16 -/
abbrev MCH_ERR_ADDR (i : Nat) : Nat := 0x20000040 + 0x100000 * i
/-- offset of MCH_PMF, instance i of 16 -/
abbrev MCH_PMF (i : Nat) : Nat := 0x20000800 + 0x100000 * i
/-- offset of MCH_PMC, instance i of 16, entry j of 14 -/
abbrev MCH_PMC (i j : Nat) : Nat := 0x20000808 + 0x100000 * i + 0x8 * j
/-- offset of PRT_PMF, instance i of 14 -/
abbrev PRT_PMF (i : Nat) : Nat := 0x28000800 + 0x100000 * i
/-- offset of PRT_PMC, instance i of 14, entry j of 14 -/
abbrev PRT_PMC (i j : Nat) : Nat := 0x28000808 + 0x100000 * i + 0x8 * j
/-- offset of SLC_STATUS, instance i of 36 -/
abbrev SLC_STATUS (i : Nat) : Nat := 0x30000000 + 0x100000 * i
/-- offset of SLC_CTRL, instance i of 36 -/
abbrev SLC_CTRL (i : Nat) : Nat := 0x30000008 + 0x100000 * i
/-- offset of SLC_ERR_STATUS, instance i of 36, entry j of 6 -/
abbrev SLC_ERR_STATUS (i j : Nat) : Nat := 0x30000100 + 0x100000 * i + 0x20 * j
/-- offset of SLC_ERR_ADDR, instance i of 36, entry j of 6 -/
abbrev SLC_ERR_ADDR (i j : Nat) : Nat := 0x30000108 + 0x100000 * i + 0x20 * j
/-- offset of SLC_ERR_MISC, instance i of 36, entry j of 6 -/
abbrev SLC_ERR_MISC (i j : Nat) : Nat := 0x30000110 + 0x100000 * i + 0x20 * j
/-- offset of SLC_CBFLIP, instance i of 36 -/
abbrev SLC_CBFLIP (i : Nat) : Nat := 0x300001C0 + 0x100000 * i
/-- offset of SLC_PMF, instance i of 36 -/
abbrev SLC_PMF (i : Nat) : Nat := 0x30000800 + 0x100000 * i
/-- offset of SLC_PMC, instance i of 36, entry j of 16 -/
abbrev SLC_PMC (i j : Nat) : Nat := 0x30000808 + 0x100000 * i + 0x8 * j
/-- offset of RMG_CTRL -/
abbrev RMG_CTRL : Nat := 0x40000000
/-- offset of CTX_CFG, instance i of 4096 -/
abbrev CTX_CFG (i : Nat) : Nat := 0x40100000 + 0x40 * i
/-- offset of CTX_SLICES, instance i of 4096 -/
abbrev CTX_SLICES (i : Nat) : Nat := 0x40100008 + 0x40 * i
/-- offset of CTX_SPILL_BASE, instance i of 4096 -/
abbrev CTX_SPILL_BASE (i : Nat) : Nat := 0x40100010 + 0x40 * i
/-- offset of CTX_SPILL_SIZE, instance i of 4096 -/
abbrev CTX_SPILL_SIZE (i : Nat) : Nat := 0x40100018 + 0x40 * i
/-- offset of CTX_FAULT_RING, instance i of 4096 -/
abbrev CTX_FAULT_RING (i : Nat) : Nat := 0x40100020 + 0x40 * i
/-- offset of CTX_FAULT_HEAD, instance i of 4096 -/
abbrev CTX_FAULT_HEAD (i : Nat) : Nat := 0x40100028 + 0x40 * i
/-- offset of CTX_STATUS, instance i of 4096 -/
abbrev CTX_STATUS (i : Nat) : Nat := 0x40100030 + 0x40 * i
/-- offset of RING_CFG, instance i of 4096 -/
abbrev RING_CFG (i : Nat) : Nat := 0x40200000 + 0x40 * i
/-- offset of RING_SQ_BASE, instance i of 4096 -/
abbrev RING_SQ_BASE (i : Nat) : Nat := 0x40200008 + 0x40 * i
/-- offset of RING_CQ_BASE, instance i of 4096 -/
abbrev RING_CQ_BASE (i : Nat) : Nat := 0x40200010 + 0x40 * i
/-- offset of RING_DB, instance i of 4096 -/
abbrev RING_DB (i : Nat) : Nat := 0x40200018 + 0x40 * i
/-- offset of RING_MSI, instance i of 4096 -/
abbrev RING_MSI (i : Nat) : Nat := 0x40200020 + 0x40 * i
/-- offset of RING_HEAD, instance i of 4096 -/
abbrev RING_HEAD (i : Nat) : Nat := 0x40200028 + 0x40 * i
/-- offset of RING_STATUS, instance i of 4096 -/
abbrev RING_STATUS (i : Nat) : Nat := 0x40200030 + 0x40 * i
/-- offset of DM_CFG, instance i of 32 -/
abbrev DM_CFG (i : Nat) : Nat := 0x50001000 + 0x80 * i
/-- offset of DM_TABLE, instance i of 32 -/
abbrev DM_TABLE (i : Nat) : Nat := 0x50001008 + 0x80 * i
/-- offset of DM_DB, instance i of 32 -/
abbrev DM_DB (i : Nat) : Nat := 0x50001010 + 0x80 * i
/-- offset of DM_MSI, instance i of 32 -/
abbrev DM_MSI (i : Nat) : Nat := 0x50001018 + 0x80 * i
/-- offset of DM_STATUS, instance i of 32 -/
abbrev DM_STATUS (i : Nat) : Nat := 0x50001020 + 0x80 * i
/-- offset of DM_ERR, instance i of 32 -/
abbrev DM_ERR (i : Nat) : Nat := 0x50001028 + 0x80 * i
/-- offset of DM_GFLIP, instance i of 32 -/
abbrev DM_GFLIP (i : Nat) : Nat := 0x50001030 + 0x80 * i
/-- offset of FX_CFG, instance i of 4 -/
abbrev FX_CFG (i : Nat) : Nat := 0x60000000 + 0x100000 * i
/-- offset of FX_STAGE, instance i of 4 -/
abbrev FX_STAGE (i : Nat) : Nat := 0x60000008 + 0x100000 * i
/-- offset of FX_LIMIT, instance i of 4 -/
abbrev FX_LIMIT (i : Nat) : Nat := 0x60000010 + 0x100000 * i
/-- offset of FX_STATUS, instance i of 4 -/
abbrev FX_STATUS (i : Nat) : Nat := 0x60000018 + 0x100000 * i
/-- offset of FX_PMF, instance i of 4 -/
abbrev FX_PMF (i : Nat) : Nat := 0x60000800 + 0x100000 * i
/-- offset of FX_PMC, instance i of 4, entry j of 7 -/
abbrev FX_PMC (i j : Nat) : Nat := 0x60000808 + 0x100000 * i + 0x8 * j
/-- offset of MEM_MAP -/
abbrev MEM_MAP : Nat := 0x80000000
/-- offset of CXLW_BASE, instance i of 16 -/
abbrev CXLW_BASE (i : Nat) : Nat := 0x80000100 + 0x20 * i
/-- offset of CXLW_LIMIT, instance i of 16 -/
abbrev CXLW_LIMIT (i : Nat) : Nat := 0x80000108 + 0x20 * i
/-- offset of CXLW_LINKS, instance i of 16 -/
abbrev CXLW_LINKS (i : Nat) : Nat := 0x80000110 + 0x20 * i
/-- offset of FW_BASE, instance i of 256 -/
abbrev FW_BASE (i : Nat) : Nat := 0x80001000 + 0x20 * i
/-- offset of FW_LIMIT, instance i of 256 -/
abbrev FW_LIMIT (i : Nat) : Nat := 0x80001008 + 0x20 * i
/-- offset of FW_ATTR, instance i of 256 -/
abbrev FW_ATTR (i : Nat) : Nat := 0x80001010 + 0x20 * i
/-- offset of FW_SHARE, instance i of 256 -/
abbrev FW_SHARE (i : Nat) : Nat := 0x80001018 + 0x20 * i
/-- offset of ISO_PART_WORLD -/
abbrev ISO_PART_WORLD : Nat := 0x80003000
/-- offset of ISO_SEALED -/
abbrev ISO_SEALED : Nat := 0x80003008
/-- offset of ISO_DBG -/
abbrev ISO_DBG : Nat := 0x80003010
/-- offset of ISO_FUSE -/
abbrev ISO_FUSE : Nat := 0x80003018
/-- offset of ISO_VIOL -/
abbrev ISO_VIOL : Nat := 0x80003020
/-- offset of ISO_STATUS -/
abbrev ISO_STATUS : Nat := 0x80003028
/-- offset of ISO_RACC, instance i of 16 -/
abbrev ISO_RACC (i : Nat) : Nat := 0x80003100 + 0x8 * i
/-- offset of ISO_WAYS, instance i of 64 -/
abbrev ISO_WAYS (i : Nat) : Nat := 0x80003400 + 0x8 * i
/-- offset of ISO_OWN, instance i of 128 -/
abbrev ISO_OWN (i : Nat) : Nat := 0x80003800 + 0x8 * i
/-- offset of ISO_DEFER, instance i of 16 -/
abbrev ISO_DEFER (i : Nat) : Nat := 0x80003C00 + 0x8 * i
/-- offset of ISO_LNK_CFG, instance i of 112 -/
abbrev ISO_LNK_CFG (i : Nat) : Nat := 0x80004000 + 0x20 * i
/-- offset of ISO_LNK_APBASE, instance i of 112 -/
abbrev ISO_LNK_APBASE (i : Nat) : Nat := 0x80004008 + 0x20 * i
/-- offset of ISO_LNK_APLIMIT, instance i of 112 -/
abbrev ISO_LNK_APLIMIT (i : Nat) : Nat := 0x80004010 + 0x20 * i
/-- offset of ISO_HART, instance i of 216 -/
abbrev ISO_HART (i : Nat) : Nat := 0x80005000 + 0x8 * i
/-- offset of MTIME -/
abbrev MTIME : Nat := 0x4700000
/-- offset of MTIMECMP, instance i of 216 -/
abbrev MTIMECMP (i : Nat) : Nat := 0x4710000 + 0x8 * i
/-- offset of PMON_CTRL -/
abbrev PMON_CTRL : Nat := 0x90000000
/-- offset of PMON_SBUF, instance i of 2 -/
abbrev PMON_SBUF (i : Nat) : Nat := 0x90000100 + 0x40 * i
/-- offset of PMON_SHEAD, instance i of 2 -/
abbrev PMON_SHEAD (i : Nat) : Nat := 0x90000108 + 0x40 * i
/-- offset of PMON_STAIL, instance i of 2 -/
abbrev PMON_STAIL (i : Nat) : Nat := 0x90000110 + 0x40 * i
/-- offset of PMON_SCTL, instance i of 2 -/
abbrev PMON_SCTL (i : Nat) : Nat := 0x90000118 + 0x40 * i
/-- offset of PMON_SPIDS, instance i of 2 -/
abbrev PMON_SPIDS (i : Nat) : Nat := 0x90000120 + 0x40 * i
/-- offset of MBX_CTRL, instance i of 2 -/
abbrev MBX_CTRL (i : Nat) : Nat := 0xA0000000 + 0x4000 * i
/-- offset of MBX_STATUS, instance i of 2 -/
abbrev MBX_STATUS (i : Nat) : Nat := 0xA0000008 + 0x4000 * i
/-- offset of MBX_REQ, instance i of 2, entry j of 512 -/
abbrev MBX_REQ (i j : Nat) : Nat := 0xA0001000 + 0x4000 * i + 0x8 * j
/-- offset of MBX_RSP, instance i of 2, entry j of 512 -/
abbrev MBX_RSP (i j : Nat) : Nat := 0xA0002000 + 0x4000 * i + 0x8 * j
/-- offset of MBX_ACCESS -/
abbrev MBX_ACCESS : Nat := 0xA0008000
/-- offset of PMC_TRIP -/
abbrev PMC_TRIP : Nat := 0xA0008008

end Reg

/-! ### Fields -/

namespace F
/-- PKG_ID.VENDOR -/
abbrev PKG_ID_VENDOR : Fld := ⟨63, 48⟩
/-- PKG_ID.FAMILY -/
abbrev PKG_ID_FAMILY : Fld := ⟨47, 32⟩
/-- PKG_ID.PART -/
abbrev PKG_ID_PART : Fld := ⟨31, 16⟩
/-- PKG_ID.GRADE -/
abbrev PKG_ID_GRADE : Fld := ⟨15, 8⟩
/-- PKG_REV.BASE_STEP -/
abbrev PKG_REV_BASE_STEP : Fld := ⟨39, 32⟩
/-- PKG_REV.IOD_STEP -/
abbrev PKG_REV_IOD_STEP : Fld := ⟨31, 24⟩
/-- PKG_REV.CD_STEP_MIN -/
abbrev PKG_REV_CD_STEP_MIN : Fld := ⟨23, 16⟩
/-- PKG_REV.CD_STEP_MAX -/
abbrev PKG_REV_CD_STEP_MAX : Fld := ⟨15, 8⟩
/-- PKG_REV.ROM_VER -/
abbrev PKG_REV_ROM_VER : Fld := ⟨7, 0⟩
/-- PKG_PARAM0.DIES -/
abbrev PKG_PARAM0_DIES : Fld := ⟨63, 56⟩
/-- PKG_PARAM0.CLUSTERS_PER_DIE -/
abbrev PKG_PARAM0_CLUSTERS_PER_DIE : Fld := ⟨55, 48⟩
/-- PKG_PARAM0.CORES_PER_CLUSTER -/
abbrev PKG_PARAM0_CORES_PER_CLUSTER : Fld := ⟨47, 40⟩
/-- PKG_PARAM0.HARTS -/
abbrev PKG_PARAM0_HARTS : Fld := ⟨31, 16⟩
/-- PKG_PARAM0.ENGINE_SLICES -/
abbrev PKG_PARAM0_ENGINE_SLICES : Fld := ⟨15, 8⟩
/-- PKG_PARAM0.CLUSTERS -/
abbrev PKG_PARAM0_CLUSTERS : Fld := ⟨7, 0⟩
/-- PKG_PARAM1.STOPS -/
abbrev PKG_PARAM1_STOPS : Fld := ⟨63, 56⟩
/-- PKG_PARAM1.L3_SLICES -/
abbrev PKG_PARAM1_L3_SLICES : Fld := ⟨55, 48⟩
/-- PKG_PARAM1.MEM_CHANNELS -/
abbrev PKG_PARAM1_MEM_CHANNELS : Fld := ⟨47, 40⟩
/-- PKG_PARAM1.PCIE_PORTS -/
abbrev PKG_PARAM1_PCIE_PORTS : Fld := ⟨39, 32⟩
/-- PKG_PARAM1.FINXIS_PORTS -/
abbrev PKG_PARAM1_FINXIS_PORTS : Fld := ⟨31, 24⟩
/-- PKG_PARAM1.DM_CHANNELS -/
abbrev PKG_PARAM1_DM_CHANNELS : Fld := ⟨23, 16⟩
/-- PKG_PARAM1.SCAN_FRONTS -/
abbrev PKG_PARAM1_SCAN_FRONTS : Fld := ⟨15, 8⟩
/-- PKG_PARAM1.TORUS_X -/
abbrev PKG_PARAM1_TORUS_X : Fld := ⟨7, 4⟩
/-- PKG_PARAM1.TORUS_Y -/
abbrev PKG_PARAM1_TORUS_Y : Fld := ⟨3, 0⟩
/-- PKG_PARAM2.PA_BITS -/
abbrev PKG_PARAM2_PA_BITS : Fld := ⟨63, 56⟩
/-- PKG_PARAM2.LINE_LOG2 -/
abbrev PKG_PARAM2_LINE_LOG2 : Fld := ⟨55, 48⟩
/-- PKG_PARAM2.L3_SLICE_KIB -/
abbrev PKG_PARAM2_L3_SLICE_KIB : Fld := ⟨47, 32⟩
/-- PKG_PARAM2.L3_WAYS -/
abbrev PKG_PARAM2_L3_WAYS : Fld := ⟨31, 24⟩
/-- PKG_PARAM2.L3_LOCK_WAYS -/
abbrev PKG_PARAM2_L3_LOCK_WAYS : Fld := ⟨23, 16⟩
/-- PKG_PARAM2.L2_MIB -/
abbrev PKG_PARAM2_L2_MIB : Fld := ⟨15, 8⟩
/-- PKG_PARAM2.L2_WAYS -/
abbrev PKG_PARAM2_L2_WAYS : Fld := ⟨7, 0⟩
/-- PKG_PARAM3.LANES -/
abbrev PKG_PARAM3_LANES : Fld := ⟨47, 40⟩
/-- PKG_PARAM3.COLBUF_MIB -/
abbrev PKG_PARAM3_COLBUF_MIB : Fld := ⟨39, 32⟩
/-- PKG_PARAM3.MATCH_ROWS -/
abbrev PKG_PARAM3_MATCH_ROWS : Fld := ⟨31, 16⟩
/-- PKG_PARAM3.RING_PAIRS -/
abbrev PKG_PARAM3_RING_PAIRS : Fld := ⟨15, 0⟩
/-- PKG_MODE.SRC -/
abbrev PKG_MODE_SRC : Fld := ⟨31, 28⟩
/-- PKG_MODE.CAUSE -/
abbrev PKG_MODE_CAUSE : Fld := ⟨23, 16⟩
/-- PKG_MODE.MOVING -/
abbrev PKG_MODE_MOVING : Fld := ⟨8, 8⟩
/-- PKG_MODE.TARGET -/
abbrev PKG_MODE_TARGET : Fld := ⟨7, 4⟩
/-- PKG_MODE.CURRENT -/
abbrev PKG_MODE_CURRENT : Fld := ⟨3, 0⟩
/-- PKG_MODE_REQ.GO -/
abbrev PKG_MODE_REQ_GO : Fld := ⟨63, 63⟩
/-- PKG_MODE_REQ.STATUS -/
abbrev PKG_MODE_REQ_STATUS : Fld := ⟨59, 56⟩
/-- PKG_MODE_REQ.TARGET -/
abbrev PKG_MODE_REQ_TARGET : Fld := ⟨3, 0⟩
/-- PKG_BOOT.GOOD -/
abbrev PKG_BOOT_GOOD : Fld := ⟨63, 63⟩
/-- PKG_BOOT.LIMIT -/
abbrev PKG_BOOT_LIMIT : Fld := ⟨11, 8⟩
/-- PKG_BOOT.COUNT -/
abbrev PKG_BOOT_COUNT : Fld := ⟨3, 0⟩
/-- PKG_FEATURE.VALID -/
abbrev PKG_FEATURE_VALID : Fld := ⟨4, 4⟩
/-- PKG_FEATURE.LEVEL -/
abbrev PKG_FEATURE_LEVEL : Fld := ⟨3, 0⟩
/-- PKG_DIE_ACTIVE.ACTIVE -/
abbrev PKG_DIE_ACTIVE_ACTIVE : Fld := ⟨15, 0⟩
/-- PKG_DIE_INFO.STEPPING -/
abbrev PKG_DIE_INFO_STEPPING : Fld := ⟨39, 32⟩
/-- PKG_DIE_INFO.FEATURE_LEVEL -/
abbrev PKG_DIE_INFO_FEATURE_LEVEL : Fld := ⟨31, 28⟩
/-- PKG_DIE_INFO.STATE -/
abbrev PKG_DIE_INFO_STATE : Fld := ⟨27, 24⟩
/-- PKG_DIE_INFO.ORIENTATION -/
abbrev PKG_DIE_INFO_ORIENTATION : Fld := ⟨7, 6⟩
/-- PKG_DIE_INFO.POSITION -/
abbrev PKG_DIE_INFO_POSITION : Fld := ⟨3, 0⟩
/-- PKG_STOP_FUNC.Y -/
abbrev PKG_STOP_FUNC_Y : Fld := ⟨23, 20⟩
/-- PKG_STOP_FUNC.X -/
abbrev PKG_STOP_FUNC_X : Fld := ⟨19, 16⟩
/-- PKG_STOP_FUNC.FUNC -/
abbrev PKG_STOP_FUNC_FUNC : Fld := ⟨15, 8⟩
/-- PKG_STOP_FUNC.INDEX -/
abbrev PKG_STOP_FUNC_INDEX : Fld := ⟨7, 0⟩
/-- CTU_CMD.OP -/
abbrev CTU_CMD_OP : Fld := ⟨63, 62⟩
/-- CTU_CMD.TAG -/
abbrev CTU_CMD_TAG : Fld := ⟨15, 0⟩
/-- CTU_STATUS.STATE -/
abbrev CTU_STATUS_STATE : Fld := ⟨63, 62⟩
/-- CTU_STATUS.IMPLICIT -/
abbrev CTU_STATUS_IMPLICIT : Fld := ⟨61, 61⟩
/-- CTU_STATUS.FULL -/
abbrev CTU_STATUS_FULL : Fld := ⟨60, 60⟩
/-- CTU_STATUS.RESULT -/
abbrev CTU_STATUS_RESULT : Fld := ⟨59, 56⟩
/-- CTU_STATUS.STAGED -/
abbrev CTU_STATUS_STAGED : Fld := ⟨55, 43⟩
/-- CTU_STATUS.TAG -/
abbrev CTU_STATUS_TAG : Fld := ⟨15, 0⟩
/-- CTU_FAIL.OFFSET -/
abbrev CTU_FAIL_OFFSET : Fld := ⟨31, 3⟩
/-- CTU_CFG.TIMEOUT -/
abbrev CTU_CFG_TIMEOUT : Fld := ⟨4, 0⟩
/-- RCC_RST_CAUSE.POR -/
abbrev RCC_RST_CAUSE_POR : Fld := ⟨63, 63⟩
/-- RCC_RST_CAUSE.COLD_PIN -/
abbrev RCC_RST_CAUSE_COLD_PIN : Fld := ⟨62, 62⟩
/-- RCC_RST_CAUSE.WARM_PIN -/
abbrev RCC_RST_CAUSE_WARM_PIN : Fld := ⟨61, 61⟩
/-- RCC_RST_CAUSE.SIDEBAND -/
abbrev RCC_RST_CAUSE_SIDEBAND : Fld := ⟨60, 60⟩
/-- RCC_RST_CAUSE.FINXIS -/
abbrev RCC_RST_CAUSE_FINXIS : Fld := ⟨59, 59⟩
/-- RCC_RST_CAUSE.FX_PORT -/
abbrev RCC_RST_CAUSE_FX_PORT : Fld := ⟨58, 57⟩
/-- RCC_RST_CAUSE.WDOG -/
abbrev RCC_RST_CAUSE_WDOG : Fld := ⟨56, 56⟩
/-- RCC_RST_CAUSE.THERM -/
abbrev RCC_RST_CAUSE_THERM : Fld := ⟨55, 55⟩
/-- RCC_RST_CAUSE.DEBUG -/
abbrev RCC_RST_CAUSE_DEBUG : Fld := ⟨54, 54⟩
/-- RCC_RST_CAUSE.CLK_LOSS -/
abbrev RCC_RST_CAUSE_CLK_LOSS : Fld := ⟨53, 53⟩
/-- RCC_RST_CAUSE.MRAM_DELAY -/
abbrev RCC_RST_CAUSE_MRAM_DELAY : Fld := ⟨52, 52⟩
/-- RCC_RST_CAUSE.AON_LOST -/
abbrev RCC_RST_CAUSE_AON_LOST : Fld := ⟨51, 51⟩
/-- RCC_RST_CAUSE.REACH -/
abbrev RCC_RST_CAUSE_REACH : Fld := ⟨47, 44⟩
/-- RCC_RST_REQ.GO -/
abbrev RCC_RST_REQ_GO : Fld := ⟨63, 63⟩
/-- RCC_RST_REQ.STATUS -/
abbrev RCC_RST_REQ_STATUS : Fld := ⟨59, 56⟩
/-- RCC_RST_REQ.KIND -/
abbrev RCC_RST_REQ_KIND : Fld := ⟨9, 8⟩
/-- RCC_RST_REQ.INDEX -/
abbrev RCC_RST_REQ_INDEX : Fld := ⟨7, 0⟩
/-- RCC_RST_UNITS.DIE -/
abbrev RCC_RST_UNITS_DIE : Fld := ⟨47, 36⟩
/-- RCC_RST_UNITS.CLUSTER -/
abbrev RCC_RST_UNITS_CLUSTER : Fld := ⟨35, 0⟩
/-- RCC_DBG_RST.NDM_INDEX -/
abbrev RCC_DBG_RST_NDM_INDEX : Fld := ⟨15, 8⟩
/-- RCC_DBG_RST.NDM_REACH -/
abbrev RCC_DBG_RST_NDM_REACH : Fld := ⟨5, 4⟩
/-- RCC_WDOG.EN -/
abbrev RCC_WDOG_EN : Fld := ⟨63, 63⟩
/-- RCC_WDOG.TIMEOUT -/
abbrev RCC_WDOG_TIMEOUT : Fld := ⟨12, 8⟩
/-- RCC_WDOG.KICK -/
abbrev RCC_WDOG_KICK : Fld := ⟨0, 0⟩
/-- RCC_OPT_STATUS.SOURCE -/
abbrev RCC_OPT_STATUS_SOURCE : Fld := ⟨63, 62⟩
/-- RCC_OPT_STATUS.PENDING -/
abbrev RCC_OPT_STATUS_PENDING : Fld := ⟨61, 61⟩
/-- RCC_OPT_STATUS.SEQ -/
abbrev RCC_OPT_STATUS_SEQ : Fld := ⟨31, 0⟩
/-- RCC_BKP.VAL -/
abbrev RCC_BKP_VAL : Fld := ⟨63, 0⟩
/-- RCC_HART_CAUSE.NIGHT_WAKE -/
abbrev RCC_HART_CAUSE_NIGHT_WAKE : Fld := ⟨8, 8⟩
/-- RCC_HART_CAUSE.WFI_OFF -/
abbrev RCC_HART_CAUSE_WFI_OFF : Fld := ⟨7, 7⟩
/-- RCC_HART_CAUSE.DEBUG -/
abbrev RCC_HART_CAUSE_DEBUG : Fld := ⟨6, 6⟩
/-- RCC_HART_CAUSE.CLK_LOSS -/
abbrev RCC_HART_CAUSE_CLK_LOSS : Fld := ⟨5, 5⟩
/-- RCC_HART_CAUSE.CORE -/
abbrev RCC_HART_CAUSE_CORE : Fld := ⟨4, 4⟩
/-- RCC_HART_CAUSE.CLUSTER -/
abbrev RCC_HART_CAUSE_CLUSTER : Fld := ⟨3, 3⟩
/-- RCC_HART_CAUSE.DIE -/
abbrev RCC_HART_CAUSE_DIE : Fld := ⟨2, 2⟩
/-- RCC_HART_CAUSE.WARM -/
abbrev RCC_HART_CAUSE_WARM : Fld := ⟨1, 1⟩
/-- RCC_HART_CAUSE.COLD -/
abbrev RCC_HART_CAUSE_COLD : Fld := ⟨0, 0⟩
/-- RCC_OPT.VAL -/
abbrev RCC_OPT_VAL : Fld := ⟨63, 0⟩
/-- RCC_CLK_STATUS.AON_GOOD -/
abbrev RCC_CLK_STATUS_AON_GOOD : Fld := ⟨6, 6⟩
/-- RCC_CLK_STATUS.REF_GOOD -/
abbrev RCC_CLK_STATUS_REF_GOOD : Fld := ⟨5, 5⟩
/-- RCC_CLK_STATUS.PLL_LOCK -/
abbrev RCC_CLK_STATUS_PLL_LOCK : Fld := ⟨4, 4⟩
/-- RCC_CLK_STATUS.FCLK_GOOD -/
abbrev RCC_CLK_STATUS_FCLK_GOOD : Fld := ⟨3, 3⟩
/-- RCC_CLK_STATUS.ECLK_GOOD -/
abbrev RCC_CLK_STATUS_ECLK_GOOD : Fld := ⟨2, 2⟩
/-- RCC_CLK_STATUS.MCLK_GOOD -/
abbrev RCC_CLK_STATUS_MCLK_GOOD : Fld := ⟨1, 1⟩
/-- RCC_CLK_STATUS.SCLK_GOOD -/
abbrev RCC_CLK_STATUS_SCLK_GOOD : Fld := ⟨0, 0⟩
/-- RCC_CLK_LOSS.VALID -/
abbrev RCC_CLK_LOSS_VALID : Fld := ⟨63, 63⟩
/-- RCC_CLK_LOSS.MORE -/
abbrev RCC_CLK_LOSS_MORE : Fld := ⟨62, 62⟩
/-- RCC_CLK_LOSS.CLOCK -/
abbrev RCC_CLK_LOSS_CLOCK : Fld := ⟨55, 52⟩
/-- RCC_CLK_LOSS.INDEX -/
abbrev RCC_CLK_LOSS_INDEX : Fld := ⟨51, 48⟩
/-- RCC_CCLK.TARGET -/
abbrev RCC_CCLK_TARGET : Fld := ⟨11, 8⟩
/-- RCC_CCLK.CURRENT -/
abbrev RCC_CCLK_CURRENT : Fld := ⟨7, 4⟩
/-- RCC_CCLK.GOOD -/
abbrev RCC_CCLK_GOOD : Fld := ⟨3, 3⟩
/-- RCC_CCLK.MOVING -/
abbrev RCC_CCLK_MOVING : Fld := ⟨2, 2⟩
/-- PWR_REQ.GO -/
abbrev PWR_REQ_GO : Fld := ⟨63, 63⟩
/-- PWR_REQ.STATUS -/
abbrev PWR_REQ_STATUS : Fld := ⟨59, 56⟩
/-- PWR_REQ.CODE -/
abbrev PWR_REQ_CODE : Fld := ⟨55, 48⟩
/-- PWR_REQ.UNIT -/
abbrev PWR_REQ_UNIT : Fld := ⟨46, 40⟩
/-- PWR_REQ.VALUE -/
abbrev PWR_REQ_VALUE : Fld := ⟨15, 0⟩
/-- PWR_PKG.TDP_W -/
abbrev PWR_PKG_TDP_W : Fld := ⟨53, 44⟩
/-- PWR_PKG.PKG_PWR -/
abbrev PWR_PKG_PKG_PWR : Fld := ⟨43, 32⟩
/-- PWR_PKG.UNCORE_PWR -/
abbrev PWR_PKG_UNCORE_PWR : Fld := ⟨31, 20⟩
/-- PWR_PKG.SRC -/
abbrev PWR_PKG_SRC : Fld := ⟨19, 16⟩
/-- PWR_PKG.LIMITING -/
abbrev PWR_PKG_LIMITING : Fld := ⟨0, 0⟩
/-- PWR_SAVE.VALID -/
abbrev PWR_SAVE_VALID : Fld := ⟨63, 63⟩
/-- PWR_SAVE.RECORDS -/
abbrev PWR_SAVE_RECORDS : Fld := ⟨14, 0⟩
/-- PWR_DIE.GRANT -/
abbrev PWR_DIE_GRANT : Fld := ⟨63, 56⟩
/-- PWR_DIE.DEMAND -/
abbrev PWR_DIE_DEMAND : Fld := ⟨55, 48⟩
/-- PWR_DIE.MEASURED -/
abbrev PWR_DIE_MEASURED : Fld := ⟨47, 40⟩
/-- PWR_DIE.CAP -/
abbrev PWR_DIE_CAP : Fld := ⟨39, 36⟩
/-- PWR_DIE.THROTTLE -/
abbrev PWR_DIE_THROTTLE : Fld := ⟨35, 32⟩
/-- PWR_UNIT.IDLE_SR -/
abbrev PWR_UNIT_IDLE_SR : Fld := ⟨3, 3⟩
/-- PWR_UNIT.STATE -/
abbrev PWR_UNIT_STATE : Fld := ⟨2, 0⟩
/-- PWR_WAKE_EN.THERM_HI -/
abbrev PWR_WAKE_EN_THERM_HI : Fld := ⟨31, 24⟩
/-- PWR_WAKE_EN.THERM_LO -/
abbrev PWR_WAKE_EN_THERM_LO : Fld := ⟨23, 16⟩
/-- PWR_WAKE_EN.PCIE -/
abbrev PWR_WAKE_EN_PCIE : Fld := ⟨8, 8⟩
/-- PWR_WAKE_EN.SIDEBAND -/
abbrev PWR_WAKE_EN_SIDEBAND : Fld := ⟨7, 7⟩
/-- PWR_WAKE_EN.THERM -/
abbrev PWR_WAKE_EN_THERM : Fld := ⟨6, 6⟩
/-- PWR_WAKE_EN.RTC -/
abbrev PWR_WAKE_EN_RTC : Fld := ⟨5, 5⟩
/-- PWR_WAKE_EN.FX -/
abbrev PWR_WAKE_EN_FX : Fld := ⟨4, 1⟩
/-- PWR_WAKE_EN.PIN -/
abbrev PWR_WAKE_EN_PIN : Fld := ⟨0, 0⟩
/-- PWR_WAKE_FLAG.AON_OSC_FAIL -/
abbrev PWR_WAKE_FLAG_AON_OSC_FAIL : Fld := ⟨63, 63⟩
/-- PWR_WAKE_FLAG.FIRED -/
abbrev PWR_WAKE_FLAG_FIRED : Fld := ⟨8, 0⟩
/-- PWR_RTC.COUNT -/
abbrev PWR_RTC_COUNT : Fld := ⟨63, 0⟩
/-- PWR_RTC_ALARM.ALARM -/
abbrev PWR_RTC_ALARM_ALARM : Fld := ⟨63, 0⟩
/-- EVT_WORLD.S_OWNED -/
abbrev EVT_WORLD_S_OWNED : Fld := ⟨63, 0⟩
/-- EVT_RERR.PEND -/
abbrev EVT_RERR_PEND : Fld := ⟨63, 0⟩
/-- EVT_TFLT.PEND -/
abbrev EVT_TFLT_PEND : Fld := ⟨63, 0⟩
/-- PKB_ERR_STATUS.VALID -/
abbrev PKB_ERR_STATUS_VALID : Fld := ⟨63, 63⟩
/-- PKB_ERR_STATUS.MORE -/
abbrev PKB_ERR_STATUS_MORE : Fld := ⟨62, 62⟩
/-- PKB_ERR_STATUS.CLASS -/
abbrev PKB_ERR_STATUS_CLASS : Fld := ⟨61, 59⟩
/-- PKB_ERR_STATUS.WORLD -/
abbrev PKB_ERR_STATUS_WORLD : Fld := ⟨58, 58⟩
/-- PKB_ERR_STATUS.PID -/
abbrev PKB_ERR_STATUS_PID : Fld := ⟨57, 52⟩
/-- PKB_ERR_STATUS.SOURCE -/
abbrev PKB_ERR_STATUS_SOURCE : Fld := ⟨51, 48⟩
/-- PKB_ERR_STATUS.CE_COUNT -/
abbrev PKB_ERR_STATUS_CE_COUNT : Fld := ⟨47, 32⟩
/-- PKB_ERR_ADDR.IS_INDEX -/
abbrev PKB_ERR_ADDR_IS_INDEX : Fld := ⟨63, 63⟩
/-- PKB_ERR_ADDR.ADDR -/
abbrev PKB_ERR_ADDR_ADDR : Fld := ⟨51, 0⟩
/-- PKB_ERR_MISC.WAY -/
abbrev PKB_ERR_MISC_WAY : Fld := ⟨39, 32⟩
/-- PKB_ERR_MISC.SYNDROME -/
abbrev PKB_ERR_MISC_SYNDROME : Fld := ⟨15, 0⟩
/-- RTR_NET.CURRENT -/
abbrev RTR_NET_CURRENT : Fld := ⟨63, 63⟩
/-- RTR_NET.OLD_PENDING -/
abbrev RTR_NET_OLD_PENDING : Fld := ⟨47, 24⟩
/-- RTR_NET.LINK_DOWN -/
abbrev RTR_NET_LINK_DOWN : Fld := ⟨3, 0⟩
/-- RTR_ARB.CFG_HOLD -/
abbrev RTR_ARB_CFG_HOLD : Fld := ⟨55, 48⟩
/-- RTR_ARB.HOLD_LIMIT -/
abbrev RTR_ARB_HOLD_LIMIT : Fld := ⟨47, 32⟩
/-- RTR_ARB.WAIT_LIMIT -/
abbrev RTR_ARB_WAIT_LIMIT : Fld := ⟨23, 16⟩
/-- RTR_FENCE.DRAINED -/
abbrev RTR_FENCE_DRAINED : Fld := ⟨47, 32⟩
/-- RTR_FENCE.AGENTS -/
abbrev RTR_FENCE_AGENTS : Fld := ⟨15, 0⟩
/-- RTR_CUT.VALID -/
abbrev RTR_CUT_VALID : Fld := ⟨63, 63⟩
/-- RTR_CUT.MORE -/
abbrev RTR_CUT_MORE : Fld := ⟨62, 62⟩
/-- RTR_CUT.SRC -/
abbrev RTR_CUT_SRC : Fld := ⟨61, 56⟩
/-- RTR_CUT.CLASS -/
abbrev RTR_CUT_CLASS : Fld := ⟨55, 53⟩
/-- RTR_CUT.SRC_AGENT -/
abbrev RTR_CUT_SRC_AGENT : Fld := ⟨52, 49⟩
/-- RTR_CUT.CAUSE -/
abbrev RTR_CUT_CAUSE : Fld := ⟨43, 40⟩
/-- RTR_CUT.TAG -/
abbrev RTR_CUT_TAG : Fld := ⟨11, 0⟩
/-- RTR_STAT_CTRL.EN -/
abbrev RTR_STAT_CTRL_EN : Fld := ⟨63, 63⟩
/-- RTR_STAT_CTRL.CLEAR -/
abbrev RTR_STAT_CTRL_CLEAR : Fld := ⟨62, 62⟩
/-- RTR_STAT_CTRL.PID -/
abbrev RTR_STAT_CTRL_PID : Fld := ⟨55, 50⟩
/-- RTR_STAT_CTRL.PID_EN -/
abbrev RTR_STAT_CTRL_PID_EN : Fld := ⟨49, 49⟩
/-- RTR_STAT_CTRL.CLASS -/
abbrev RTR_STAT_CTRL_CLASS : Fld := ⟨48, 46⟩
/-- RTR_STAT_CTRL.CLASS_EN -/
abbrev RTR_STAT_CTRL_CLASS_EN : Fld := ⟨45, 45⟩
/-- RTR_TTA.SUBST -/
abbrev RTR_TTA_SUBST : Fld := ⟨21, 16⟩
/-- RTR_TTA.REMAP -/
abbrev RTR_TTA_REMAP : Fld := ⟨15, 15⟩
/-- RTR_TTA.Y_LONG -/
abbrev RTR_TTA_Y_LONG : Fld := ⟨1, 1⟩
/-- RTR_TTA.X_LONG -/
abbrev RTR_TTA_X_LONG : Fld := ⟨0, 0⟩
/-- RTR_TTB.SUBST -/
abbrev RTR_TTB_SUBST : Fld := ⟨21, 16⟩
/-- RTR_TTB.REMAP -/
abbrev RTR_TTB_REMAP : Fld := ⟨15, 15⟩
/-- RTR_TTB.Y_LONG -/
abbrev RTR_TTB_Y_LONG : Fld := ⟨1, 1⟩
/-- RTR_TTB.X_LONG -/
abbrev RTR_TTB_X_LONG : Fld := ⟨0, 0⟩
/-- RTR_IPKT.COUNT -/
abbrev RTR_IPKT_COUNT : Fld := ⟨63, 0⟩
/-- RTR_IFLIT.COUNT -/
abbrev RTR_IFLIT_COUNT : Fld := ⟨63, 0⟩
/-- RTR_ILAT.MAX -/
abbrev RTR_ILAT_MAX : Fld := ⟨63, 50⟩
/-- RTR_ILAT.SUM -/
abbrev RTR_ILAT_SUM : Fld := ⟨49, 0⟩
/-- L3_LOCK.EN -/
abbrev L3_LOCK_EN : Fld := ⟨63, 63⟩
/-- L3_LOCK.WORLD -/
abbrev L3_LOCK_WORLD : Fld := ⟨62, 62⟩
/-- L3_LOCK.PID -/
abbrev L3_LOCK_PID : Fld := ⟨61, 56⟩
/-- L3_LOCK.WAYS -/
abbrev L3_LOCK_WAYS : Fld := ⟨11, 0⟩
/-- L3_LOCK_BASE.ADDR -/
abbrev L3_LOCK_BASE_ADDR : Fld := ⟨51, 7⟩
/-- L3_LOCK_LIMIT.ADDR -/
abbrev L3_LOCK_LIMIT_ADDR : Fld := ⟨51, 7⟩
/-- L3_LFSR.STATE -/
abbrev L3_LFSR_STATE : Fld := ⟨15, 0⟩
/-- L3_STATUS.LOCKED_VALID -/
abbrev L3_STATUS_LOCKED_VALID : Fld := ⟨47, 32⟩
/-- L3_STATUS.SWEEP -/
abbrev L3_STATUS_SWEEP : Fld := ⟨0, 0⟩
/-- L3_LOCK_EVT.LOST -/
abbrev L3_LOCK_EVT_LOST : Fld := ⟨63, 63⟩
/-- L3_LOCK_EVT.MORE -/
abbrev L3_LOCK_EVT_MORE : Fld := ⟨62, 62⟩
/-- L3_LOCK_EVT.ADDR -/
abbrev L3_LOCK_EVT_ADDR : Fld := ⟨51, 7⟩
/-- STP_ERR_STATUS.VALID -/
abbrev STP_ERR_STATUS_VALID : Fld := ⟨63, 63⟩
/-- STP_ERR_STATUS.MORE -/
abbrev STP_ERR_STATUS_MORE : Fld := ⟨62, 62⟩
/-- STP_ERR_STATUS.CLASS -/
abbrev STP_ERR_STATUS_CLASS : Fld := ⟨61, 59⟩
/-- STP_ERR_STATUS.WORLD -/
abbrev STP_ERR_STATUS_WORLD : Fld := ⟨58, 58⟩
/-- STP_ERR_STATUS.PID -/
abbrev STP_ERR_STATUS_PID : Fld := ⟨57, 52⟩
/-- STP_ERR_STATUS.SOURCE -/
abbrev STP_ERR_STATUS_SOURCE : Fld := ⟨51, 48⟩
/-- STP_ERR_STATUS.CE_COUNT -/
abbrev STP_ERR_STATUS_CE_COUNT : Fld := ⟨47, 32⟩
/-- STP_ERR_ADDR.IS_INDEX -/
abbrev STP_ERR_ADDR_IS_INDEX : Fld := ⟨63, 63⟩
/-- STP_ERR_ADDR.ADDR -/
abbrev STP_ERR_ADDR_ADDR : Fld := ⟨51, 0⟩
/-- STP_ERR_MISC.WAY -/
abbrev STP_ERR_MISC_WAY : Fld := ⟨39, 32⟩
/-- STP_ERR_MISC.SYNDROME -/
abbrev STP_ERR_MISC_SYNDROME : Fld := ⟨15, 0⟩
/-- STP_PMF.EN -/
abbrev STP_PMF_EN : Fld := ⟨63, 63⟩
/-- STP_PMF.WORLD -/
abbrev STP_PMF_WORLD : Fld := ⟨62, 62⟩
/-- STP_PMF.PID -/
abbrev STP_PMF_PID : Fld := ⟨61, 56⟩
/-- STP_PMC.COUNT -/
abbrev STP_PMC_COUNT : Fld := ⟨63, 0⟩
/-- MCH_STATUS.RATE_MTS -/
abbrev MCH_STATUS_RATE_MTS : Fld := ⟨47, 32⟩
/-- MCH_STATUS.CAP_GIB -/
abbrev MCH_STATUS_CAP_GIB : Fld := ⟨31, 20⟩
/-- MCH_STATUS.DPC -/
abbrev MCH_STATUS_DPC : Fld := ⟨13, 12⟩
/-- MCH_STATUS.KIND -/
abbrev MCH_STATUS_KIND : Fld := ⟨9, 8⟩
/-- MCH_STATUS.STATE -/
abbrev MCH_STATUS_STATE : Fld := ⟨2, 0⟩
/-- MCH_SCRUB.EN -/
abbrev MCH_SCRUB_EN : Fld := ⟨63, 63⟩
/-- MCH_SCRUB.POS -/
abbrev MCH_SCRUB_POS : Fld := ⟨47, 16⟩
/-- MCH_SCRUB.PERIOD_H -/
abbrev MCH_SCRUB_PERIOD_H : Fld := ⟨7, 0⟩
/-- MCH_FLIP.ARM -/
abbrev MCH_FLIP_ARM : Fld := ⟨63, 63⟩
/-- MCH_FLIP.EN1 -/
abbrev MCH_FLIP_EN1 : Fld := ⟨62, 62⟩
/-- MCH_FLIP.DEV1 -/
abbrev MCH_FLIP_DEV1 : Fld := ⟨57, 53⟩
/-- MCH_FLIP.DEV0 -/
abbrev MCH_FLIP_DEV0 : Fld := ⟨52, 48⟩
/-- MCH_FLIP_PAT0.PAT -/
abbrev MCH_FLIP_PAT0_PAT : Fld := ⟨63, 0⟩
/-- MCH_FLIP_PAT1.PAT -/
abbrev MCH_FLIP_PAT1_PAT : Fld := ⟨63, 0⟩
/-- MCH_FLIP_ADDR.VALID -/
abbrev MCH_FLIP_ADDR_VALID : Fld := ⟨63, 63⟩
/-- MCH_FLIP_ADDR.ADDR -/
abbrev MCH_FLIP_ADDR_ADDR : Fld := ⟨51, 7⟩
/-- MCH_CE_COUNT.UE -/
abbrev MCH_CE_COUNT_UE : Fld := ⟨63, 32⟩
/-- MCH_CE_COUNT.CE -/
abbrev MCH_CE_COUNT_CE : Fld := ⟨31, 0⟩
/-- MCH_ERR_INFO.VALID -/
abbrev MCH_ERR_INFO_VALID : Fld := ⟨63, 63⟩
/-- MCH_ERR_INFO.LOST -/
abbrev MCH_ERR_INFO_LOST : Fld := ⟨62, 62⟩
/-- MCH_ERR_INFO.CLASS -/
abbrev MCH_ERR_INFO_CLASS : Fld := ⟨61, 60⟩
/-- MCH_ERR_INFO.SOURCE -/
abbrev MCH_ERR_INFO_SOURCE : Fld := ⟨59, 56⟩
/-- MCH_ERR_INFO.DEV_MASK -/
abbrev MCH_ERR_INFO_DEV_MASK : Fld := ⟨39, 20⟩
/-- MCH_ERR_ADDR.ADDR -/
abbrev MCH_ERR_ADDR_ADDR : Fld := ⟨51, 7⟩
/-- MCH_PMF.EN -/
abbrev MCH_PMF_EN : Fld := ⟨63, 63⟩
/-- MCH_PMF.WORLD -/
abbrev MCH_PMF_WORLD : Fld := ⟨62, 62⟩
/-- MCH_PMF.PID -/
abbrev MCH_PMF_PID : Fld := ⟨61, 56⟩
/-- MCH_PMC.COUNT -/
abbrev MCH_PMC_COUNT : Fld := ⟨63, 0⟩
/-- PRT_PMF.EN -/
abbrev PRT_PMF_EN : Fld := ⟨63, 63⟩
/-- PRT_PMF.WORLD -/
abbrev PRT_PMF_WORLD : Fld := ⟨62, 62⟩
/-- PRT_PMF.PID -/
abbrev PRT_PMF_PID : Fld := ⟨61, 56⟩
/-- PRT_PMC.COUNT -/
abbrev PRT_PMC_COUNT : Fld := ⟨63, 0⟩
/-- SLC_STATUS.CTX -/
abbrev SLC_STATUS_CTX : Fld := ⟨43, 32⟩
/-- SLC_STATUS.LEVEL -/
abbrev SLC_STATUS_LEVEL : Fld := ⟨19, 16⟩
/-- SLC_STATUS.CBUF_MODE -/
abbrev SLC_STATUS_CBUF_MODE : Fld := ⟨3, 3⟩
/-- SLC_STATUS.STATE -/
abbrev SLC_STATUS_STATE : Fld := ⟨2, 0⟩
/-- SLC_CTRL.CBUF_SCRUB -/
abbrev SLC_CTRL_CBUF_SCRUB : Fld := ⟨1, 1⟩
/-- SLC_CTRL.OFFLINE -/
abbrev SLC_CTRL_OFFLINE : Fld := ⟨0, 0⟩
/-- SLC_ERR_STATUS.VALID -/
abbrev SLC_ERR_STATUS_VALID : Fld := ⟨63, 63⟩
/-- SLC_ERR_STATUS.MORE -/
abbrev SLC_ERR_STATUS_MORE : Fld := ⟨62, 62⟩
/-- SLC_ERR_STATUS.CLASS -/
abbrev SLC_ERR_STATUS_CLASS : Fld := ⟨61, 59⟩
/-- SLC_ERR_STATUS.WORLD -/
abbrev SLC_ERR_STATUS_WORLD : Fld := ⟨58, 58⟩
/-- SLC_ERR_STATUS.PID -/
abbrev SLC_ERR_STATUS_PID : Fld := ⟨57, 52⟩
/-- SLC_ERR_STATUS.SOURCE -/
abbrev SLC_ERR_STATUS_SOURCE : Fld := ⟨51, 48⟩
/-- SLC_ERR_STATUS.CE_COUNT -/
abbrev SLC_ERR_STATUS_CE_COUNT : Fld := ⟨47, 32⟩
/-- SLC_ERR_ADDR.IS_INDEX -/
abbrev SLC_ERR_ADDR_IS_INDEX : Fld := ⟨63, 63⟩
/-- SLC_ERR_ADDR.ADDR -/
abbrev SLC_ERR_ADDR_ADDR : Fld := ⟨51, 0⟩
/-- SLC_ERR_MISC.WAY -/
abbrev SLC_ERR_MISC_WAY : Fld := ⟨39, 32⟩
/-- SLC_ERR_MISC.SYNDROME -/
abbrev SLC_ERR_MISC_SYNDROME : Fld := ⟨15, 0⟩
/-- SLC_CBFLIP.ARM -/
abbrev SLC_CBFLIP_ARM : Fld := ⟨63, 63⟩
/-- SLC_CBFLIP.TARGET -/
abbrev SLC_CBFLIP_TARGET : Fld := ⟨62, 62⟩
/-- SLC_CBFLIP.EN1 -/
abbrev SLC_CBFLIP_EN1 : Fld := ⟨61, 61⟩
/-- SLC_CBFLIP.LINE -/
abbrev SLC_CBFLIP_LINE : Fld := ⟨30, 16⟩
/-- SLC_CBFLIP.BIT1 -/
abbrev SLC_CBFLIP_BIT1 : Fld := ⟨13, 8⟩
/-- SLC_CBFLIP.BIT0 -/
abbrev SLC_CBFLIP_BIT0 : Fld := ⟨5, 0⟩
/-- SLC_PMF.EN -/
abbrev SLC_PMF_EN : Fld := ⟨63, 63⟩
/-- SLC_PMF.WORLD -/
abbrev SLC_PMF_WORLD : Fld := ⟨62, 62⟩
/-- SLC_PMF.PID -/
abbrev SLC_PMF_PID : Fld := ⟨61, 56⟩
/-- SLC_PMC.COUNT -/
abbrev SLC_PMC_COUNT : Fld := ⟨63, 0⟩
/-- RMG_CTRL.AGE_LIMIT -/
abbrev RMG_CTRL_AGE_LIMIT : Fld := ⟨15, 8⟩
/-- CTX_CFG.VALID -/
abbrev CTX_CFG_VALID : Fld := ⟨63, 63⟩
/-- CTX_CFG.WORLD -/
abbrev CTX_CFG_WORLD : Fld := ⟨62, 62⟩
/-- CTX_CFG.PID -/
abbrev CTX_CFG_PID : Fld := ⟨61, 56⟩
/-- CTX_CFG.TSET -/
abbrev CTX_CFG_TSET : Fld := ⟨55, 48⟩
/-- CTX_CFG.PRIORITY -/
abbrev CTX_CFG_PRIORITY : Fld := ⟨47, 46⟩
/-- CTX_CFG.SLICE_QUOTA -/
abbrev CTX_CFG_SLICE_QUOTA : Fld := ⟨45, 40⟩
/-- CTX_CFG.FAULT_TO -/
abbrev CTX_CFG_FAULT_TO : Fld := ⟨39, 35⟩
/-- CTX_SLICES.MASK -/
abbrev CTX_SLICES_MASK : Fld := ⟨35, 0⟩
/-- CTX_SPILL_BASE.BASE -/
abbrev CTX_SPILL_BASE_BASE : Fld := ⟨51, 16⟩
/-- CTX_SPILL_SIZE.QUOTA -/
abbrev CTX_SPILL_SIZE_QUOTA : Fld := ⟨63, 32⟩
/-- CTX_SPILL_SIZE.CHUNKS -/
abbrev CTX_SPILL_SIZE_CHUNKS : Fld := ⟨31, 0⟩
/-- CTX_FAULT_RING.SIZE_LOG2 -/
abbrev CTX_FAULT_RING_SIZE_LOG2 : Fld := ⟨63, 60⟩
/-- CTX_FAULT_RING.BASE -/
abbrev CTX_FAULT_RING_BASE : Fld := ⟨51, 7⟩
/-- CTX_FAULT_HEAD.HEAD -/
abbrev CTX_FAULT_HEAD_HEAD : Fld := ⟨31, 0⟩
/-- CTX_STATUS.SPILL_USED -/
abbrev CTX_STATUS_SPILL_USED : Fld := ⟨47, 16⟩
/-- CTX_STATUS.RUNNING -/
abbrev CTX_STATUS_RUNNING : Fld := ⟨15, 8⟩
/-- RING_CFG.VALID -/
abbrev RING_CFG_VALID : Fld := ⟨63, 63⟩
/-- RING_CFG.PRIV -/
abbrev RING_CFG_PRIV : Fld := ⟨62, 62⟩
/-- RING_CFG.ATTACH -/
abbrev RING_CFG_ATTACH : Fld := ⟨61, 59⟩
/-- RING_CFG.SQ_LOG2 -/
abbrev RING_CFG_SQ_LOG2 : Fld := ⟨55, 52⟩
/-- RING_CFG.CQ_LOG2 -/
abbrev RING_CFG_CQ_LOG2 : Fld := ⟨51, 48⟩
/-- RING_CFG.CTX -/
abbrev RING_CFG_CTX : Fld := ⟨43, 32⟩
/-- RING_SQ_BASE.BASE -/
abbrev RING_SQ_BASE_BASE : Fld := ⟨51, 12⟩
/-- RING_CQ_BASE.BASE -/
abbrev RING_CQ_BASE_BASE : Fld := ⟨51, 12⟩
/-- RING_DB.EN -/
abbrev RING_DB_EN : Fld := ⟨63, 63⟩
/-- RING_DB.LINE -/
abbrev RING_DB_LINE : Fld := ⟨51, 7⟩
/-- RING_DB.SLOT -/
abbrev RING_DB_SLOT : Fld := ⟨3, 0⟩
/-- RING_MSI.EN -/
abbrev RING_MSI_EN : Fld := ⟨63, 63⟩
/-- RING_MSI.ADDR -/
abbrev RING_MSI_ADDR : Fld := ⟨51, 12⟩
/-- RING_MSI.EIID -/
abbrev RING_MSI_EIID : Fld := ⟨10, 0⟩
/-- RING_HEAD.CQ_TAIL -/
abbrev RING_HEAD_CQ_TAIL : Fld := ⟨63, 32⟩
/-- RING_HEAD.SQ_HEAD -/
abbrev RING_HEAD_SQ_HEAD : Fld := ⟨31, 0⟩
/-- RING_STATUS.CAUSE -/
abbrev RING_STATUS_CAUSE : Fld := ⟨7, 4⟩
/-- RING_STATUS.STATE -/
abbrev RING_STATUS_STATE : Fld := ⟨1, 0⟩
/-- DM_CFG.VALID -/
abbrev DM_CFG_VALID : Fld := ⟨63, 63⟩
/-- DM_CFG.WORLD -/
abbrev DM_CFG_WORLD : Fld := ⟨62, 62⟩
/-- DM_CFG.PID -/
abbrev DM_CFG_PID : Fld := ⟨61, 56⟩
/-- DM_CFG.RATE -/
abbrev DM_CFG_RATE : Fld := ⟨55, 49⟩
/-- DM_CFG.BURST -/
abbrev DM_CFG_BURST : Fld := ⟨48, 44⟩
/-- DM_CFG.WAIT_TO -/
abbrev DM_CFG_WAIT_TO : Fld := ⟨43, 39⟩
/-- DM_TABLE.SIZE_LOG2 -/
abbrev DM_TABLE_SIZE_LOG2 : Fld := ⟨63, 60⟩
/-- DM_TABLE.BASE -/
abbrev DM_TABLE_BASE : Fld := ⟨51, 3⟩
/-- DM_DB.EN -/
abbrev DM_DB_EN : Fld := ⟨63, 63⟩
/-- DM_DB.LINE -/
abbrev DM_DB_LINE : Fld := ⟨51, 7⟩
/-- DM_DB.SLOT -/
abbrev DM_DB_SLOT : Fld := ⟨3, 0⟩
/-- DM_MSI.EN -/
abbrev DM_MSI_EN : Fld := ⟨63, 63⟩
/-- DM_MSI.ADDR -/
abbrev DM_MSI_ADDR : Fld := ⟨51, 12⟩
/-- DM_MSI.EIID -/
abbrev DM_MSI_EIID : Fld := ⟨10, 0⟩
/-- DM_STATUS.DONE -/
abbrev DM_STATUS_DONE : Fld := ⟨63, 32⟩
/-- DM_STATUS.BAD -/
abbrev DM_STATUS_BAD : Fld := ⟨31, 16⟩
/-- DM_STATUS.CAUSE -/
abbrev DM_STATUS_CAUSE : Fld := ⟨7, 4⟩
/-- DM_STATUS.STATE -/
abbrev DM_STATUS_STATE : Fld := ⟨1, 0⟩
/-- DM_ERR.VALID -/
abbrev DM_ERR_VALID : Fld := ⟨63, 63⟩
/-- DM_ERR.CODE -/
abbrev DM_ERR_CODE : Fld := ⟨59, 52⟩
/-- DM_ERR.ADDR -/
abbrev DM_ERR_ADDR : Fld := ⟨51, 4⟩
/-- DM_GFLIP.ARM -/
abbrev DM_GFLIP_ARM : Fld := ⟨63, 63⟩
/-- DM_GFLIP.ALL -/
abbrev DM_GFLIP_ALL : Fld := ⟨62, 62⟩
/-- DM_GFLIP.IDX1 -/
abbrev DM_GFLIP_IDX1 : Fld := ⟨57, 53⟩
/-- DM_GFLIP.IDX0 -/
abbrev DM_GFLIP_IDX0 : Fld := ⟨52, 48⟩
/-- DM_GFLIP.PAT1 -/
abbrev DM_GFLIP_PAT1 : Fld := ⟨31, 16⟩
/-- DM_GFLIP.PAT0 -/
abbrev DM_GFLIP_PAT0 : Fld := ⟨15, 0⟩
/-- FX_CFG.EN -/
abbrev FX_CFG_EN : Fld := ⟨63, 63⟩
/-- FX_CFG.WORLD -/
abbrev FX_CFG_WORLD : Fld := ⟨62, 62⟩
/-- FX_CFG.PID -/
abbrev FX_CFG_PID : Fld := ⟨61, 56⟩
/-- FX_CFG.RESET_EN -/
abbrev FX_CFG_RESET_EN : Fld := ⟨55, 55⟩
/-- FX_STAGE.SIZE_MIB -/
abbrev FX_STAGE_SIZE_MIB : Fld := ⟨63, 52⟩
/-- FX_STAGE.BASE -/
abbrev FX_STAGE_BASE : Fld := ⟨51, 20⟩
/-- FX_LIMIT.LOCK -/
abbrev FX_LIMIT_LOCK : Fld := ⟨63, 63⟩
/-- FX_LIMIT.RATE -/
abbrev FX_LIMIT_RATE : Fld := ⟨11, 5⟩
/-- FX_LIMIT.BURST -/
abbrev FX_LIMIT_BURST : Fld := ⟨4, 0⟩
/-- FX_STATUS.DROPPED -/
abbrev FX_STATUS_DROPPED : Fld := ⟨47, 32⟩
/-- FX_STATUS.RETRAINS -/
abbrev FX_STATUS_RETRAINS : Fld := ⟨31, 24⟩
/-- FX_STATUS.WIDTH -/
abbrev FX_STATUS_WIDTH : Fld := ⟨15, 12⟩
/-- FX_STATUS.DOWN_CAUSE -/
abbrev FX_STATUS_DOWN_CAUSE : Fld := ⟨7, 4⟩
/-- FX_STATUS.STATE -/
abbrev FX_STATUS_STATE : Fld := ⟨2, 0⟩
/-- FX_PMF.EN -/
abbrev FX_PMF_EN : Fld := ⟨63, 63⟩
/-- FX_PMF.WORLD -/
abbrev FX_PMF_WORLD : Fld := ⟨62, 62⟩
/-- FX_PMF.PID -/
abbrev FX_PMF_PID : Fld := ⟨61, 56⟩
/-- FX_PMC.COUNT -/
abbrev FX_PMC_COUNT : Fld := ⟨63, 0⟩
/-- MEM_MAP.TOP -/
abbrev MEM_MAP_TOP : Fld := ⟨51, 16⟩
/-- MEM_MAP.GRANULE -/
abbrev MEM_MAP_GRANULE : Fld := ⟨5, 4⟩
/-- MEM_MAP.WAYS_LOG2 -/
abbrev MEM_MAP_WAYS_LOG2 : Fld := ⟨3, 0⟩
/-- CXLW_BASE.VALID -/
abbrev CXLW_BASE_VALID : Fld := ⟨63, 63⟩
/-- CXLW_BASE.WAYS_LOG2 -/
abbrev CXLW_BASE_WAYS_LOG2 : Fld := ⟨62, 61⟩
/-- CXLW_BASE.BASE -/
abbrev CXLW_BASE_BASE : Fld := ⟨51, 30⟩
/-- CXLW_LIMIT.LIMIT -/
abbrev CXLW_LIMIT_LIMIT : Fld := ⟨51, 30⟩
/-- CXLW_LINKS.LINK -/
abbrev CXLW_LINKS_LINK : Fld := ⟨31, 0⟩
/-- FW_BASE.VALID -/
abbrev FW_BASE_VALID : Fld := ⟨63, 63⟩
/-- FW_BASE.BASE -/
abbrev FW_BASE_BASE : Fld := ⟨51, 16⟩
/-- FW_LIMIT.LIMIT -/
abbrev FW_LIMIT_LIMIT : Fld := ⟨51, 16⟩
/-- FW_ATTR.FILLING -/
abbrev FW_ATTR_FILLING : Fld := ⟨63, 63⟩
/-- FW_ATTR.LOCK -/
abbrev FW_ATTR_LOCK : Fld := ⟨62, 62⟩
/-- FW_ATTR.WORLD -/
abbrev FW_ATTR_WORLD : Fld := ⟨61, 61⟩
/-- FW_ATTR.PID -/
abbrev FW_ATTR_PID : Fld := ⟨60, 55⟩
/-- FW_ATTR.W -/
abbrev FW_ATTR_W : Fld := ⟨54, 54⟩
/-- FW_ATTR.R -/
abbrev FW_ATTR_R : Fld := ⟨53, 53⟩
/-- FW_ATTR.LOCAL_HOME -/
abbrev FW_ATTR_LOCAL_HOME : Fld := ⟨52, 52⟩
/-- FW_SHARE.READERS -/
abbrev FW_SHARE_READERS : Fld := ⟨63, 0⟩
/-- ISO_PART_WORLD.S_PARTS -/
abbrev ISO_PART_WORLD_S_PARTS : Fld := ⟨63, 1⟩
/-- ISO_PART_WORLD.PID0_S -/
abbrev ISO_PART_WORLD_PID0_S : Fld := ⟨0, 0⟩
/-- ISO_SEALED.SEALED -/
abbrev ISO_SEALED_SEALED : Fld := ⟨63, 1⟩
/-- ISO_DBG.LOCK -/
abbrev ISO_DBG_LOCK : Fld := ⟨63, 63⟩
/-- ISO_DBG.SBA_PID -/
abbrev ISO_DBG_SBA_PID : Fld := ⟨55, 50⟩
/-- ISO_DBG.SBA_WORLD -/
abbrev ISO_DBG_SBA_WORLD : Fld := ⟨49, 49⟩
/-- ISO_DBG.S_INV -/
abbrev ISO_DBG_S_INV : Fld := ⟨3, 3⟩
/-- ISO_DBG.S_NINV -/
abbrev ISO_DBG_S_NINV : Fld := ⟨2, 2⟩
/-- ISO_DBG.N_INV -/
abbrev ISO_DBG_N_INV : Fld := ⟨1, 1⟩
/-- ISO_DBG.N_NINV -/
abbrev ISO_DBG_N_NINV : Fld := ⟨0, 0⟩
/-- ISO_FUSE.OFF -/
abbrev ISO_FUSE_OFF : Fld := ⟨3, 0⟩
/-- ISO_VIOL.VALID -/
abbrev ISO_VIOL_VALID : Fld := ⟨63, 63⟩
/-- ISO_VIOL.MORE -/
abbrev ISO_VIOL_MORE : Fld := ⟨62, 62⟩
/-- ISO_VIOL.KIND -/
abbrev ISO_VIOL_KIND : Fld := ⟨61, 59⟩
/-- ISO_VIOL.WORLD -/
abbrev ISO_VIOL_WORLD : Fld := ⟨58, 58⟩
/-- ISO_VIOL.PID -/
abbrev ISO_VIOL_PID : Fld := ⟨57, 52⟩
/-- ISO_VIOL.ADDR -/
abbrev ISO_VIOL_ADDR : Fld := ⟨51, 3⟩
/-- ISO_STATUS.GATEWAYS -/
abbrev ISO_STATUS_GATEWAYS : Fld := ⟨1, 0⟩
/-- ISO_RACC.PIDS -/
abbrev ISO_RACC_PIDS : Fld := ⟨63, 1⟩
/-- ISO_WAYS.DIR -/
abbrev ISO_WAYS_DIR : Fld := ⟨47, 32⟩
/-- ISO_WAYS.L3 -/
abbrev ISO_WAYS_L3 : Fld := ⟨23, 0⟩
/-- ISO_OWN.WORLD -/
abbrev ISO_OWN_WORLD : Fld := ⟨0, 0⟩
/-- ISO_DEFER.VALID -/
abbrev ISO_DEFER_VALID : Fld := ⟨63, 63⟩
/-- ISO_DEFER.UNIT -/
abbrev ISO_DEFER_UNIT : Fld := ⟨58, 52⟩
/-- ISO_DEFER.PID -/
abbrev ISO_DEFER_PID : Fld := ⟨51, 46⟩
/-- ISO_DEFER.REQUEST -/
abbrev ISO_DEFER_REQUEST : Fld := ⟨39, 32⟩
/-- ISO_LNK_CFG.VALID -/
abbrev ISO_LNK_CFG_VALID : Fld := ⟨63, 63⟩
/-- ISO_LNK_CFG.WORLD -/
abbrev ISO_LNK_CFG_WORLD : Fld := ⟨62, 62⟩
/-- ISO_LNK_CFG.PID -/
abbrev ISO_LNK_CFG_PID : Fld := ⟨61, 56⟩
/-- ISO_LNK_CFG.LOCK -/
abbrev ISO_LNK_CFG_LOCK : Fld := ⟨55, 55⟩
/-- ISO_LNK_APBASE.ADDR -/
abbrev ISO_LNK_APBASE_ADDR : Fld := ⟨51, 20⟩
/-- ISO_LNK_APLIMIT.ADDR -/
abbrev ISO_LNK_APLIMIT_ADDR : Fld := ⟨51, 20⟩
/-- ISO_HART.WORLD -/
abbrev ISO_HART_WORLD : Fld := ⟨7, 7⟩
/-- ISO_HART.PID -/
abbrev ISO_HART_PID : Fld := ⟨5, 0⟩
/-- MTIME.VAL -/
abbrev MTIME_VAL : Fld := ⟨63, 0⟩
/-- MTIMECMP.VAL -/
abbrev MTIMECMP_VAL : Fld := ⟨63, 0⟩
/-- PMON_CTRL.CLEAR -/
abbrev PMON_CTRL_CLEAR : Fld := ⟨63, 63⟩
/-- PMON_CTRL.FREEZE -/
abbrev PMON_CTRL_FREEZE : Fld := ⟨62, 62⟩
/-- PMON_SBUF.SIZE_LOG2 -/
abbrev PMON_SBUF_SIZE_LOG2 : Fld := ⟨63, 60⟩
/-- PMON_SBUF.PID -/
abbrev PMON_SBUF_PID : Fld := ⟨59, 54⟩
/-- PMON_SBUF.BASE -/
abbrev PMON_SBUF_BASE : Fld := ⟨51, 6⟩
/-- PMON_SHEAD.HEAD -/
abbrev PMON_SHEAD_HEAD : Fld := ⟨31, 0⟩
/-- PMON_STAIL.DROPPED -/
abbrev PMON_STAIL_DROPPED : Fld := ⟨63, 32⟩
/-- PMON_STAIL.TAIL -/
abbrev PMON_STAIL_TAIL : Fld := ⟨31, 0⟩
/-- PMON_SCTL.BATCH_EN -/
abbrev PMON_SCTL_BATCH_EN : Fld := ⟨63, 63⟩
/-- PMON_SCTL.BATCH_LOG2 -/
abbrev PMON_SCTL_BATCH_LOG2 : Fld := ⟨4, 0⟩
/-- PMON_SPIDS.PIDS -/
abbrev PMON_SPIDS_PIDS : Fld := ⟨63, 0⟩
/-- MBX_CTRL.GO -/
abbrev MBX_CTRL_GO : Fld := ⟨63, 63⟩
/-- MBX_CTRL.LENGTH -/
abbrev MBX_CTRL_LENGTH : Fld := ⟨12, 0⟩
/-- MBX_STATUS.STATE -/
abbrev MBX_STATUS_STATE : Fld := ⟨63, 62⟩
/-- MBX_STATUS.LENGTH -/
abbrev MBX_STATUS_LENGTH : Fld := ⟨12, 0⟩
/-- MBX_REQ.VAL -/
abbrev MBX_REQ_VAL : Fld := ⟨63, 0⟩
/-- MBX_RSP.VAL -/
abbrev MBX_RSP_VAL : Fld := ⟨63, 0⟩
/-- MBX_ACCESS.PIDS -/
abbrev MBX_ACCESS_PIDS : Fld := ⟨63, 1⟩
/-- PMC_TRIP.VALID -/
abbrev PMC_TRIP_VALID : Fld := ⟨63, 63⟩
/-- PMC_TRIP.MORE -/
abbrev PMC_TRIP_MORE : Fld := ⟨62, 62⟩
/-- PMC_TRIP.SENSOR -/
abbrev PMC_TRIP_SENSOR : Fld := ⟨55, 48⟩
/-- PMC_TRIP.TEMP -/
abbrev PMC_TRIP_TEMP : Fld := ⟨47, 32⟩
/-- PMC_TRIP.TIME -/
abbrev PMC_TRIP_TIME : Fld := ⟨31, 0⟩

end F

/-! ### The table -/

/-- The PKG registers (01, 16). -/
def regsPKG : List RegDef :=
  [⟨0x0, 1, 0x100000000, 1, 0x100000000,
     [⟨F.PKG_ID_VENDOR, .ro, 0x4853, false, 0, 2 ^ 64⟩, ⟨F.PKG_ID_FAMILY, .ro, 0x1, false, 0, 2 ^ 64⟩, ⟨F.PKG_ID_PART, .ro, 0x216, false, 0, 2 ^ 64⟩, ⟨F.PKG_ID_GRADE, .ro, 0x1, false, 0, 2 ^ 64⟩]⟩,
   ⟨0x8, 1, 0x100000000, 1, 0x100000000,
     [⟨F.PKG_REV_BASE_STEP, .ro, 0x0, false, 0, 2 ^ 64⟩, ⟨F.PKG_REV_IOD_STEP, .ro, 0x1, false, 0, 2 ^ 64⟩, ⟨F.PKG_REV_CD_STEP_MIN, .ro, 0x0, false, 0, 2 ^ 64⟩, ⟨F.PKG_REV_CD_STEP_MAX, .ro, 0x0, false, 0, 2 ^ 64⟩, ⟨F.PKG_REV_ROM_VER, .ro, 0x1, false, 0, 2 ^ 64⟩]⟩,
   ⟨0x10, 1, 0x100000000, 1, 0x100000000,
     [⟨F.PKG_PARAM0_DIES, .ro, 0xC, false, 0, 2 ^ 64⟩, ⟨F.PKG_PARAM0_CLUSTERS_PER_DIE, .ro, 0x3, false, 0, 2 ^ 64⟩, ⟨F.PKG_PARAM0_CORES_PER_CLUSTER, .ro, 0x6, false, 0, 2 ^ 64⟩, ⟨F.PKG_PARAM0_HARTS, .ro, 0xD8, false, 0, 2 ^ 64⟩, ⟨F.PKG_PARAM0_ENGINE_SLICES, .ro, 0x24, false, 0, 2 ^ 64⟩, ⟨F.PKG_PARAM0_CLUSTERS, .ro, 0x24, false, 0, 2 ^ 64⟩]⟩,
   ⟨0x18, 1, 0x100000000, 1, 0x100000000,
     [⟨F.PKG_PARAM1_STOPS, .ro, 0x40, false, 0, 2 ^ 64⟩, ⟨F.PKG_PARAM1_L3_SLICES, .ro, 0x40, false, 0, 2 ^ 64⟩, ⟨F.PKG_PARAM1_MEM_CHANNELS, .ro, 0x10, false, 0, 2 ^ 64⟩, ⟨F.PKG_PARAM1_PCIE_PORTS, .ro, 0xE, false, 0, 2 ^ 64⟩, ⟨F.PKG_PARAM1_FINXIS_PORTS, .ro, 0x4, false, 0, 2 ^ 64⟩, ⟨F.PKG_PARAM1_DM_CHANNELS, .ro, 0x20, false, 0, 2 ^ 64⟩, ⟨F.PKG_PARAM1_SCAN_FRONTS, .ro, 0x1E, false, 0, 2 ^ 64⟩, ⟨F.PKG_PARAM1_TORUS_X, .ro, 0x8, false, 0, 2 ^ 64⟩, ⟨F.PKG_PARAM1_TORUS_Y, .ro, 0x8, false, 0, 2 ^ 64⟩]⟩,
   ⟨0x20, 1, 0x100000000, 1, 0x100000000,
     [⟨F.PKG_PARAM2_PA_BITS, .ro, 0x34, false, 0, 2 ^ 64⟩, ⟨F.PKG_PARAM2_LINE_LOG2, .ro, 0x7, false, 0, 2 ^ 64⟩, ⟨F.PKG_PARAM2_L3_SLICE_KIB, .ro, 0x1800, false, 0, 2 ^ 64⟩, ⟨F.PKG_PARAM2_L3_WAYS, .ro, 0x18, false, 0, 2 ^ 64⟩, ⟨F.PKG_PARAM2_L3_LOCK_WAYS, .ro, 0xC, false, 0, 2 ^ 64⟩, ⟨F.PKG_PARAM2_L2_MIB, .ro, 0xC, false, 0, 2 ^ 64⟩, ⟨F.PKG_PARAM2_L2_WAYS, .ro, 0x10, false, 0, 2 ^ 64⟩]⟩,
   ⟨0x28, 1, 0x100000000, 1, 0x100000000,
     [⟨F.PKG_PARAM3_LANES, .ro, 0x10, false, 0, 2 ^ 64⟩, ⟨F.PKG_PARAM3_COLBUF_MIB, .ro, 0x4, false, 0, 2 ^ 64⟩, ⟨F.PKG_PARAM3_MATCH_ROWS, .ro, 0x800, false, 0, 2 ^ 64⟩, ⟨F.PKG_PARAM3_RING_PAIRS, .ro, 0x1000, false, 0, 2 ^ 64⟩]⟩,
   ⟨0x30, 1, 0x100000000, 1, 0x100000000,
     [⟨F.PKG_MODE_SRC, .ro, 0x0, false, 0, 2 ^ 64⟩, ⟨F.PKG_MODE_CAUSE, .ro, 0x0, false, 0, 2 ^ 64⟩, ⟨F.PKG_MODE_MOVING, .ro, 0x0, false, 0, 2 ^ 64⟩, ⟨F.PKG_MODE_TARGET, .ro, 0x1, false, 0, 2 ^ 64⟩, ⟨F.PKG_MODE_CURRENT, .ro, 0x1, false, 0, 2 ^ 64⟩]⟩,
   ⟨0x38, 2, 0x8, 1, 0x100000000,
     [⟨F.PKG_MODE_REQ_GO, .w1s, 0x0, false, 0, 2 ^ 64⟩, ⟨F.PKG_MODE_REQ_STATUS, .ro, 0x0, false, 0, 2 ^ 64⟩, ⟨F.PKG_MODE_REQ_TARGET, .rw, 0x4, false, 0, 2 ^ 64⟩]⟩,
   ⟨0x48, 1, 0x100000000, 1, 0x100000000,
     [⟨F.PKG_BOOT_GOOD, .w1s, 0x0, true, 0, 2 ^ 64⟩, ⟨F.PKG_BOOT_LIMIT, .ro, 0x3, false, 0, 2 ^ 64⟩, ⟨F.PKG_BOOT_COUNT, .ro, 0x0, false, 0, 2 ^ 64⟩]⟩,
   ⟨0x80, 1, 0x100000000, 1, 0x100000000,
     [⟨F.PKG_FEATURE_VALID, .ro, 0x0, false, 0, 2 ^ 64⟩, ⟨F.PKG_FEATURE_LEVEL, .ro, 0x0, false, 0, 2 ^ 64⟩]⟩,
   ⟨0x88, 1, 0x100000000, 1, 0x100000000,
     [⟨F.PKG_DIE_ACTIVE_ACTIVE, .ro, 0x0, false, 0, 2 ^ 64⟩]⟩,
   ⟨0x100, 16, 0x8, 1, 0x100000000,
     [⟨F.PKG_DIE_INFO_STEPPING, .ro, 0x0, false, 0, 2 ^ 64⟩, ⟨F.PKG_DIE_INFO_FEATURE_LEVEL, .ro, 0x0, false, 0, 2 ^ 64⟩, ⟨F.PKG_DIE_INFO_STATE, .ro, 0x0, false, 0, 2 ^ 64⟩, ⟨F.PKG_DIE_INFO_ORIENTATION, .ro, 0x0, false, 0, 2 ^ 64⟩, ⟨F.PKG_DIE_INFO_POSITION, .ro, 0x0, false, 0, 2 ^ 64⟩]⟩,
   ⟨0x200, 64, 0x8, 1, 0x100000000,
     [⟨F.PKG_STOP_FUNC_Y, .ro, 0x0, false, 0, 2 ^ 64⟩, ⟨F.PKG_STOP_FUNC_X, .ro, 0x0, false, 0, 2 ^ 64⟩, ⟨F.PKG_STOP_FUNC_FUNC, .ro, 0x0, false, 0, 2 ^ 64⟩, ⟨F.PKG_STOP_FUNC_INDEX, .ro, 0x0, false, 0, 2 ^ 64⟩]⟩]

/-- The CTU registers (15 R386). -/
def regsCTU : List RegDef :=
  [⟨0x1000000, 2, 0x100, 1, 0x100000000,
     [⟨F.CTU_CMD_OP, .wo, 0x0, false, 0, 2 ^ 64⟩, ⟨F.CTU_CMD_TAG, .wo, 0x0, false, 0, 2 ^ 64⟩]⟩,
   ⟨0x1000008, 2, 0x100, 1, 0x100000000,
     [⟨F.CTU_STATUS_STATE, .ro, 0x0, false, 0, 2 ^ 64⟩, ⟨F.CTU_STATUS_IMPLICIT, .ro, 0x0, false, 0, 2 ^ 64⟩, ⟨F.CTU_STATUS_FULL, .ro, 0x0, false, 0, 2 ^ 64⟩, ⟨F.CTU_STATUS_RESULT, .ro, 0x0, false, 0, 2 ^ 64⟩, ⟨F.CTU_STATUS_STAGED, .ro, 0x0, false, 0, 2 ^ 64⟩, ⟨F.CTU_STATUS_TAG, .ro, 0x0, false, 0, 2 ^ 64⟩]⟩,
   ⟨0x1000010, 2, 0x100, 1, 0x100000000,
     [⟨F.CTU_FAIL_OFFSET, .ro, 0x0, false, 0, 2 ^ 64⟩]⟩,
   ⟨0x1000018, 2, 0x100, 1, 0x100000000,
     [⟨F.CTU_CFG_TIMEOUT, .rw, 0x14, false, 0, 0x18⟩]⟩]

/-- The RCC registers (17, 18). -/
def regsRCC : List RegDef :=
  [⟨0x2000000, 1, 0x100000000, 1, 0x100000000,
     [⟨F.RCC_RST_CAUSE_POR, .w1c, 0x1, false, 0, 2 ^ 64⟩, ⟨F.RCC_RST_CAUSE_COLD_PIN, .w1c, 0x0, false, 0, 2 ^ 64⟩, ⟨F.RCC_RST_CAUSE_WARM_PIN, .w1c, 0x0, false, 0, 2 ^ 64⟩, ⟨F.RCC_RST_CAUSE_SIDEBAND, .w1c, 0x0, false, 0, 2 ^ 64⟩, ⟨F.RCC_RST_CAUSE_FINXIS, .w1c, 0x0, false, 0, 2 ^ 64⟩, ⟨F.RCC_RST_CAUSE_FX_PORT, .ro, 0x0, false, 0, 2 ^ 64⟩, ⟨F.RCC_RST_CAUSE_WDOG, .w1c, 0x0, false, 0, 2 ^ 64⟩, ⟨F.RCC_RST_CAUSE_THERM, .w1c, 0x0, false, 0, 2 ^ 64⟩, ⟨F.RCC_RST_CAUSE_DEBUG, .w1c, 0x0, false, 0, 2 ^ 64⟩, ⟨F.RCC_RST_CAUSE_CLK_LOSS, .w1c, 0x0, false, 0, 2 ^ 64⟩, ⟨F.RCC_RST_CAUSE_MRAM_DELAY, .w1c, 0x0, false, 0, 2 ^ 64⟩, ⟨F.RCC_RST_CAUSE_AON_LOST, .w1c, 0x1, false, 0, 2 ^ 64⟩, ⟨F.RCC_RST_CAUSE_REACH, .ro, 0x1, false, 0, 2 ^ 64⟩]⟩,
   ⟨0x2000008, 2, 0x8, 1, 0x100000000,
     [⟨F.RCC_RST_REQ_GO, .w1s, 0x0, false, 0, 2 ^ 64⟩, ⟨F.RCC_RST_REQ_STATUS, .ro, 0x0, false, 0, 2 ^ 64⟩, ⟨F.RCC_RST_REQ_KIND, .rw, 0x1, false, 0, 2 ^ 64⟩, ⟨F.RCC_RST_REQ_INDEX, .rw, 0x0, false, 0, 2 ^ 64⟩]⟩,
   ⟨0x2000018, 1, 0x100000000, 1, 0x100000000,
     [⟨F.RCC_RST_UNITS_DIE, .w1c, 0x0, false, 0, 2 ^ 64⟩, ⟨F.RCC_RST_UNITS_CLUSTER, .w1c, 0x0, false, 0, 2 ^ 64⟩]⟩,
   ⟨0x2000020, 1, 0x100000000, 1, 0x100000000,
     [⟨F.RCC_DBG_RST_NDM_INDEX, .rws, 0x0, true, 0, 2 ^ 64⟩, ⟨F.RCC_DBG_RST_NDM_REACH, .rws, 0x0, true, 0, 0x2⟩]⟩,
   ⟨0x2000028, 1, 0x100000000, 1, 0x100000000,
     [⟨F.RCC_WDOG_EN, .w1s, 0x0, true, 0, 2 ^ 64⟩, ⟨F.RCC_WDOG_TIMEOUT, .rw, 0xC, true, 0, 0x10⟩, ⟨F.RCC_WDOG_KICK, .wo, 0x0, false, 0, 2 ^ 64⟩]⟩,
   ⟨0x2000030, 1, 0x100000000, 1, 0x100000000,
     [⟨F.RCC_OPT_STATUS_SOURCE, .ro, 0x0, false, 0, 2 ^ 64⟩, ⟨F.RCC_OPT_STATUS_PENDING, .ro, 0x0, false, 0, 2 ^ 64⟩, ⟨F.RCC_OPT_STATUS_SEQ, .ro, 0x0, false, 0, 2 ^ 64⟩]⟩,
   ⟨0x2000080, 16, 0x8, 1, 0x100000000,
     [⟨F.RCC_BKP_VAL, .rw, 0x0, false, 0, 2 ^ 64⟩]⟩,
   ⟨0x2000400, 216, 0x8, 1, 0x100000000,
     [⟨F.RCC_HART_CAUSE_NIGHT_WAKE, .w1c, 0x0, false, 0, 2 ^ 64⟩, ⟨F.RCC_HART_CAUSE_WFI_OFF, .w1c, 0x0, false, 0, 2 ^ 64⟩, ⟨F.RCC_HART_CAUSE_DEBUG, .w1c, 0x0, false, 0, 2 ^ 64⟩, ⟨F.RCC_HART_CAUSE_CLK_LOSS, .w1c, 0x0, false, 0, 2 ^ 64⟩, ⟨F.RCC_HART_CAUSE_CORE, .w1c, 0x0, false, 0, 2 ^ 64⟩, ⟨F.RCC_HART_CAUSE_CLUSTER, .w1c, 0x0, false, 0, 2 ^ 64⟩, ⟨F.RCC_HART_CAUSE_DIE, .w1c, 0x0, false, 0, 2 ^ 64⟩, ⟨F.RCC_HART_CAUSE_WARM, .w1c, 0x0, false, 0, 2 ^ 64⟩, ⟨F.RCC_HART_CAUSE_COLD, .w1c, 0x1, false, 0, 2 ^ 64⟩]⟩,
   ⟨0x2000C00, 16, 0x8, 1, 0x100000000,
     [⟨F.RCC_OPT_VAL, .ro, 0x0, false, 0, 2 ^ 64⟩]⟩,
   ⟨0x2001000, 1, 0x100000000, 1, 0x100000000,
     [⟨F.RCC_CLK_STATUS_AON_GOOD, .ro, 0x0, false, 0, 2 ^ 64⟩, ⟨F.RCC_CLK_STATUS_REF_GOOD, .ro, 0x0, false, 0, 2 ^ 64⟩, ⟨F.RCC_CLK_STATUS_PLL_LOCK, .ro, 0x0, false, 0, 2 ^ 64⟩, ⟨F.RCC_CLK_STATUS_FCLK_GOOD, .ro, 0x0, false, 0, 2 ^ 64⟩, ⟨F.RCC_CLK_STATUS_ECLK_GOOD, .ro, 0x0, false, 0, 2 ^ 64⟩, ⟨F.RCC_CLK_STATUS_MCLK_GOOD, .ro, 0x0, false, 0, 2 ^ 64⟩, ⟨F.RCC_CLK_STATUS_SCLK_GOOD, .ro, 0x0, false, 0, 2 ^ 64⟩]⟩,
   ⟨0x2001008, 1, 0x100000000, 1, 0x100000000,
     [⟨F.RCC_CLK_LOSS_VALID, .w1c, 0x0, false, 0, 2 ^ 64⟩, ⟨F.RCC_CLK_LOSS_MORE, .w1c, 0x0, false, 0, 2 ^ 64⟩, ⟨F.RCC_CLK_LOSS_CLOCK, .ro, 0x0, false, 0, 2 ^ 64⟩, ⟨F.RCC_CLK_LOSS_INDEX, .ro, 0x0, false, 0, 2 ^ 64⟩]⟩,
   ⟨0x2001100, 12, 0x8, 1, 0x100000000,
     [⟨F.RCC_CCLK_TARGET, .ro, 0x7, false, 0, 2 ^ 64⟩, ⟨F.RCC_CCLK_CURRENT, .ro, 0x7, false, 0, 2 ^ 64⟩, ⟨F.RCC_CCLK_GOOD, .ro, 0x0, false, 0, 2 ^ 64⟩, ⟨F.RCC_CCLK_MOVING, .ro, 0x0, false, 0, 2 ^ 64⟩]⟩]

/-- The PWR registers (18). -/
def regsPWR : List RegDef :=
  [⟨0x3000000, 2, 0x8, 1, 0x100000000,
     [⟨F.PWR_REQ_GO, .w1s, 0x0, false, 0, 2 ^ 64⟩, ⟨F.PWR_REQ_STATUS, .ro, 0x0, false, 0, 2 ^ 64⟩, ⟨F.PWR_REQ_CODE, .rw, 0x0, false, 0, 2 ^ 64⟩, ⟨F.PWR_REQ_UNIT, .rw, 0x0, false, 0, 2 ^ 64⟩, ⟨F.PWR_REQ_VALUE, .rw, 0x0, false, 0, 2 ^ 64⟩]⟩,
   ⟨0x3000010, 1, 0x100000000, 1, 0x100000000,
     [⟨F.PWR_PKG_TDP_W, .ro, 0x2BC, false, 0, 2 ^ 64⟩, ⟨F.PWR_PKG_PKG_PWR, .ro, 0x0, false, 0, 2 ^ 64⟩, ⟨F.PWR_PKG_UNCORE_PWR, .ro, 0x0, false, 0, 2 ^ 64⟩, ⟨F.PWR_PKG_SRC, .ro, 0x0, false, 0, 2 ^ 64⟩, ⟨F.PWR_PKG_LIMITING, .ro, 0x0, false, 0, 2 ^ 64⟩]⟩,
   ⟨0x3000018, 1, 0x100000000, 1, 0x100000000,
     [⟨F.PWR_SAVE_VALID, .ro, 0x0, false, 0, 2 ^ 64⟩, ⟨F.PWR_SAVE_RECORDS, .ro, 0x0, false, 0, 2 ^ 64⟩]⟩,
   ⟨0x3000100, 12, 0x8, 1, 0x100000000,
     [⟨F.PWR_DIE_GRANT, .ro, 0x0, false, 0, 2 ^ 64⟩, ⟨F.PWR_DIE_DEMAND, .ro, 0x0, false, 0, 2 ^ 64⟩, ⟨F.PWR_DIE_MEASURED, .ro, 0x0, false, 0, 2 ^ 64⟩, ⟨F.PWR_DIE_CAP, .ro, 0x0, false, 0, 2 ^ 64⟩, ⟨F.PWR_DIE_THROTTLE, .ro, 0x0, false, 0, 2 ^ 64⟩]⟩,
   ⟨0x3000200, 107, 0x8, 1, 0x100000000,
     [⟨F.PWR_UNIT_IDLE_SR, .ro, 0x0, false, 0, 2 ^ 64⟩, ⟨F.PWR_UNIT_STATE, .ro, 0x0, false, 0, 2 ^ 64⟩]⟩,
   ⟨0x3000800, 1, 0x100000000, 1, 0x100000000,
     [⟨F.PWR_WAKE_EN_THERM_HI, .rw, 0x64, true, 0, 2 ^ 64⟩, ⟨F.PWR_WAKE_EN_THERM_LO, .rw, 0xCE, true, 0, 2 ^ 64⟩, ⟨F.PWR_WAKE_EN_PCIE, .rw, 0x0, true, 0, 2 ^ 64⟩, ⟨F.PWR_WAKE_EN_SIDEBAND, .rw, 0x1, true, 0, 2 ^ 64⟩, ⟨F.PWR_WAKE_EN_THERM, .rw, 0x1, true, 0, 2 ^ 64⟩, ⟨F.PWR_WAKE_EN_RTC, .rw, 0x0, true, 0, 2 ^ 64⟩, ⟨F.PWR_WAKE_EN_FX, .rw, 0xF, true, 0, 2 ^ 64⟩, ⟨F.PWR_WAKE_EN_PIN, .rw, 0x1, true, 0, 2 ^ 64⟩]⟩,
   ⟨0x3000808, 1, 0x100000000, 1, 0x100000000,
     [⟨F.PWR_WAKE_FLAG_AON_OSC_FAIL, .ro, 0x0, false, 0, 2 ^ 64⟩, ⟨F.PWR_WAKE_FLAG_FIRED, .w1c, 0x0, false, 0, 2 ^ 64⟩]⟩,
   ⟨0x3000810, 1, 0x100000000, 1, 0x100000000,
     [⟨F.PWR_RTC_COUNT, .rw, 0x0, true, 0, 2 ^ 64⟩]⟩,
   ⟨0x3000818, 1, 0x100000000, 1, 0x100000000,
     [⟨F.PWR_RTC_ALARM_ALARM, .rw, 0x0, true, 0, 2 ^ 64⟩]⟩]

/-- The EVT registers (19 R473). -/
def regsEVT : List RegDef :=
  [⟨0x4600000, 9, 0x8, 1, 0x100000000,
     [⟨F.EVT_WORLD_S_OWNED, .rws, 0x0, true, 0, 2 ^ 64⟩]⟩,
   ⟨0x4600100, 64, 0x8, 1, 0x100000000,
     [⟨F.EVT_RERR_PEND, .w1c, 0x0, false, 0, 2 ^ 64⟩]⟩,
   ⟨0x4600300, 64, 0x8, 1, 0x100000000,
     [⟨F.EVT_TFLT_PEND, .w1c, 0x0, false, 0, 2 ^ 64⟩]⟩]

/-- The PKB registers (19 R467). -/
def regsPKB : List RegDef :=
  [⟨0x4600800, 8, 0x20, 1, 0x100000000,
     [⟨F.PKB_ERR_STATUS_VALID, .w1c, 0x0, false, 0, 2 ^ 64⟩, ⟨F.PKB_ERR_STATUS_MORE, .w1c, 0x0, false, 0, 2 ^ 64⟩, ⟨F.PKB_ERR_STATUS_CLASS, .ro, 0x0, false, 0, 2 ^ 64⟩, ⟨F.PKB_ERR_STATUS_WORLD, .ro, 0x0, false, 0, 2 ^ 64⟩, ⟨F.PKB_ERR_STATUS_PID, .ro, 0x0, false, 0, 2 ^ 64⟩, ⟨F.PKB_ERR_STATUS_SOURCE, .ro, 0x0, false, 0, 2 ^ 64⟩, ⟨F.PKB_ERR_STATUS_CE_COUNT, .rw, 0x0, false, 0, 2 ^ 64⟩]⟩,
   ⟨0x4600808, 8, 0x20, 1, 0x100000000,
     [⟨F.PKB_ERR_ADDR_IS_INDEX, .ro, 0x0, false, 0, 2 ^ 64⟩, ⟨F.PKB_ERR_ADDR_ADDR, .ro, 0x0, false, 0, 2 ^ 64⟩]⟩,
   ⟨0x4600810, 8, 0x20, 1, 0x100000000,
     [⟨F.PKB_ERR_MISC_WAY, .ro, 0x0, false, 0, 2 ^ 64⟩, ⟨F.PKB_ERR_MISC_SYNDROME, .ro, 0x0, false, 0, 2 ^ 64⟩]⟩]

/-- The RTR registers (11). -/
def regsRTR : List RegDef :=
  [⟨0x10000000, 64, 0x100000, 1, 0x100000000,
     [⟨F.RTR_NET_CURRENT, .rws, 0x0, false, 0, 2 ^ 64⟩, ⟨F.RTR_NET_OLD_PENDING, .ro, 0x0, false, 0, 2 ^ 64⟩, ⟨F.RTR_NET_LINK_DOWN, .ro, 0x0, false, 0, 2 ^ 64⟩]⟩,
   ⟨0x10000008, 64, 0x100000, 1, 0x100000000,
     [⟨F.RTR_ARB_CFG_HOLD, .rw, 0x40, false, 1, 0xff⟩, ⟨F.RTR_ARB_HOLD_LIMIT, .rw, 0x400, false, 16, 0xffff⟩, ⟨F.RTR_ARB_WAIT_LIMIT, .rw, 0x10, false, 0, 2 ^ 64⟩]⟩,
   ⟨0x10000010, 64, 0x100000, 1, 0x100000000,
     [⟨F.RTR_FENCE_DRAINED, .ro, 0x0, false, 0, 2 ^ 64⟩, ⟨F.RTR_FENCE_AGENTS, .rws, 0x0, true, 0, 2 ^ 64⟩]⟩,
   ⟨0x10000018, 64, 0x100000, 1, 0x100000000,
     [⟨F.RTR_CUT_VALID, .w1c, 0x0, false, 0, 2 ^ 64⟩, ⟨F.RTR_CUT_MORE, .w1c, 0x0, false, 0, 2 ^ 64⟩, ⟨F.RTR_CUT_SRC, .ro, 0x0, false, 0, 2 ^ 64⟩, ⟨F.RTR_CUT_CLASS, .ro, 0x0, false, 0, 2 ^ 64⟩, ⟨F.RTR_CUT_SRC_AGENT, .ro, 0x0, false, 0, 2 ^ 64⟩, ⟨F.RTR_CUT_CAUSE, .ro, 0x0, false, 0, 2 ^ 64⟩, ⟨F.RTR_CUT_TAG, .ro, 0x0, false, 0, 2 ^ 64⟩]⟩,
   ⟨0x10000020, 64, 0x100000, 1, 0x100000000,
     [⟨F.RTR_STAT_CTRL_EN, .rw, 0x1, false, 0, 2 ^ 64⟩, ⟨F.RTR_STAT_CTRL_CLEAR, .wo, 0x0, false, 0, 2 ^ 64⟩, ⟨F.RTR_STAT_CTRL_PID, .rw, 0x0, false, 0, 2 ^ 64⟩, ⟨F.RTR_STAT_CTRL_PID_EN, .rw, 0x0, false, 0, 2 ^ 64⟩, ⟨F.RTR_STAT_CTRL_CLASS, .rw, 0x0, false, 0, 2 ^ 64⟩, ⟨F.RTR_STAT_CTRL_CLASS_EN, .rw, 0x0, false, 0, 2 ^ 64⟩]⟩,
   ⟨0x10000100, 64, 0x100000, 64, 0x8,
     [⟨F.RTR_TTA_SUBST, .rws, 0x0, true, 0, 2 ^ 64⟩, ⟨F.RTR_TTA_REMAP, .rws, 0x0, true, 0, 2 ^ 64⟩, ⟨F.RTR_TTA_Y_LONG, .rws, 0x0, false, 0, 2 ^ 64⟩, ⟨F.RTR_TTA_X_LONG, .rws, 0x0, false, 0, 2 ^ 64⟩]⟩,
   ⟨0x10000300, 64, 0x100000, 64, 0x8,
     [⟨F.RTR_TTB_SUBST, .rws, 0x0, true, 0, 2 ^ 64⟩, ⟨F.RTR_TTB_REMAP, .rws, 0x0, true, 0, 2 ^ 64⟩, ⟨F.RTR_TTB_Y_LONG, .rws, 0x0, false, 0, 2 ^ 64⟩, ⟨F.RTR_TTB_X_LONG, .rws, 0x0, false, 0, 2 ^ 64⟩]⟩,
   ⟨0x10001000, 64, 0x100000, 64, 0x20,
     [⟨F.RTR_IPKT_COUNT, .ro, 0x0, false, 0, 2 ^ 64⟩]⟩,
   ⟨0x10001008, 64, 0x100000, 64, 0x20,
     [⟨F.RTR_IFLIT_COUNT, .ro, 0x0, false, 0, 2 ^ 64⟩]⟩,
   ⟨0x10001010, 64, 0x100000, 64, 0x20,
     [⟨F.RTR_ILAT_MAX, .ro, 0x0, false, 0, 2 ^ 64⟩, ⟨F.RTR_ILAT_SUM, .ro, 0x0, false, 0, 2 ^ 64⟩]⟩]

/-- The L3 registers (10 R302). -/
def regsL3 : List RegDef :=
  [⟨0x10004000, 64, 0x100000, 1, 0x100000000,
     [⟨F.L3_LOCK_EN, .rws, 0x0, false, 0, 2 ^ 64⟩, ⟨F.L3_LOCK_WORLD, .rws, 0x0, true, 0, 2 ^ 64⟩, ⟨F.L3_LOCK_PID, .rws, 0x0, true, 0, 2 ^ 64⟩, ⟨F.L3_LOCK_WAYS, .rws, 0x0, false, 0, 2 ^ 64⟩]⟩,
   ⟨0x10004008, 64, 0x100000, 1, 0x100000000,
     [⟨F.L3_LOCK_BASE_ADDR, .rws, 0x0, false, 0, 2 ^ 64⟩]⟩,
   ⟨0x10004010, 64, 0x100000, 1, 0x100000000,
     [⟨F.L3_LOCK_LIMIT_ADDR, .rws, 0x0, false, 0, 2 ^ 64⟩]⟩,
   ⟨0x10004018, 64, 0x100000, 1, 0x100000000,
     [⟨F.L3_LFSR_STATE, .rw, 0x0, false, 1, 0xffff⟩]⟩,
   ⟨0x10004020, 64, 0x100000, 1, 0x100000000,
     [⟨F.L3_STATUS_LOCKED_VALID, .ro, 0x0, false, 0, 2 ^ 64⟩, ⟨F.L3_STATUS_SWEEP, .ro, 0x0, false, 0, 2 ^ 64⟩]⟩,
   ⟨0x10004028, 64, 0x100000, 1, 0x100000000,
     [⟨F.L3_LOCK_EVT_LOST, .w1c, 0x0, false, 0, 2 ^ 64⟩, ⟨F.L3_LOCK_EVT_MORE, .w1c, 0x0, false, 0, 2 ^ 64⟩, ⟨F.L3_LOCK_EVT_ADDR, .ro, 0x0, false, 0, 2 ^ 64⟩]⟩]

/-- The STP registers (19 R467, 21 R496). -/
def regsSTP : List RegDef :=
  [⟨0x10004100, 64, 0x100000, 8, 0x20,
     [⟨F.STP_ERR_STATUS_VALID, .w1c, 0x0, false, 0, 2 ^ 64⟩, ⟨F.STP_ERR_STATUS_MORE, .w1c, 0x0, false, 0, 2 ^ 64⟩, ⟨F.STP_ERR_STATUS_CLASS, .ro, 0x0, false, 0, 2 ^ 64⟩, ⟨F.STP_ERR_STATUS_WORLD, .ro, 0x0, false, 0, 2 ^ 64⟩, ⟨F.STP_ERR_STATUS_PID, .ro, 0x0, false, 0, 2 ^ 64⟩, ⟨F.STP_ERR_STATUS_SOURCE, .ro, 0x0, false, 0, 2 ^ 64⟩, ⟨F.STP_ERR_STATUS_CE_COUNT, .rw, 0x0, false, 0, 2 ^ 64⟩]⟩,
   ⟨0x10004108, 64, 0x100000, 8, 0x20,
     [⟨F.STP_ERR_ADDR_IS_INDEX, .ro, 0x0, false, 0, 2 ^ 64⟩, ⟨F.STP_ERR_ADDR_ADDR, .ro, 0x0, false, 0, 2 ^ 64⟩]⟩,
   ⟨0x10004110, 64, 0x100000, 8, 0x20,
     [⟨F.STP_ERR_MISC_WAY, .ro, 0x0, false, 0, 2 ^ 64⟩, ⟨F.STP_ERR_MISC_SYNDROME, .ro, 0x0, false, 0, 2 ^ 64⟩]⟩,
   ⟨0x10004800, 64, 0x100000, 1, 0x100000000,
     [⟨F.STP_PMF_EN, .rw, 0x0, false, 0, 2 ^ 64⟩, ⟨F.STP_PMF_WORLD, .rw, 0x0, false, 0, 2 ^ 64⟩, ⟨F.STP_PMF_PID, .rw, 0x0, false, 0, 2 ^ 64⟩]⟩,
   ⟨0x10004808, 64, 0x100000, 15, 0x8,
     [⟨F.STP_PMC_COUNT, .ro, 0x0, false, 0, 2 ^ 64⟩]⟩]

/-- The MCH registers (09 R275, 21 R496). -/
def regsMCH : List RegDef :=
  [⟨0x20000000, 16, 0x100000, 1, 0x100000000,
     [⟨F.MCH_STATUS_RATE_MTS, .ro, 0x0, false, 0, 2 ^ 64⟩, ⟨F.MCH_STATUS_CAP_GIB, .ro, 0x0, false, 0, 2 ^ 64⟩, ⟨F.MCH_STATUS_DPC, .ro, 0x0, false, 0, 2 ^ 64⟩, ⟨F.MCH_STATUS_KIND, .ro, 0x0, false, 0, 2 ^ 64⟩, ⟨F.MCH_STATUS_STATE, .ro, 0x0, false, 0, 2 ^ 64⟩]⟩,
   ⟨0x20000008, 16, 0x100000, 1, 0x100000000,
     [⟨F.MCH_SCRUB_EN, .rw, 0x1, false, 0, 2 ^ 64⟩, ⟨F.MCH_SCRUB_POS, .ro, 0x0, false, 0, 2 ^ 64⟩, ⟨F.MCH_SCRUB_PERIOD_H, .rw, 0x18, false, 1, 0xff⟩]⟩,
   ⟨0x20000010, 16, 0x100000, 1, 0x100000000,
     [⟨F.MCH_FLIP_ARM, .rw, 0x0, false, 0, 2 ^ 64⟩, ⟨F.MCH_FLIP_EN1, .rw, 0x0, false, 0, 2 ^ 64⟩, ⟨F.MCH_FLIP_DEV1, .rw, 0x0, false, 0, 2 ^ 64⟩, ⟨F.MCH_FLIP_DEV0, .rw, 0x0, false, 0, 2 ^ 64⟩]⟩,
   ⟨0x20000018, 16, 0x100000, 1, 0x100000000,
     [⟨F.MCH_FLIP_PAT0_PAT, .rw, 0x0, false, 0, 2 ^ 64⟩]⟩,
   ⟨0x20000020, 16, 0x100000, 1, 0x100000000,
     [⟨F.MCH_FLIP_PAT1_PAT, .rw, 0x0, false, 0, 2 ^ 64⟩]⟩,
   ⟨0x20000028, 16, 0x100000, 1, 0x100000000,
     [⟨F.MCH_FLIP_ADDR_VALID, .w1c, 0x0, false, 0, 2 ^ 64⟩, ⟨F.MCH_FLIP_ADDR_ADDR, .ro, 0x0, false, 0, 2 ^ 64⟩]⟩,
   ⟨0x20000030, 16, 0x100000, 1, 0x100000000,
     [⟨F.MCH_CE_COUNT_UE, .rw, 0x0, false, 0, 2 ^ 64⟩, ⟨F.MCH_CE_COUNT_CE, .rw, 0x0, false, 0, 2 ^ 64⟩]⟩,
   ⟨0x20000038, 16, 0x100000, 1, 0x100000000,
     [⟨F.MCH_ERR_INFO_VALID, .w1c, 0x0, false, 0, 2 ^ 64⟩, ⟨F.MCH_ERR_INFO_LOST, .w1c, 0x0, false, 0, 2 ^ 64⟩, ⟨F.MCH_ERR_INFO_CLASS, .ro, 0x0, false, 0, 2 ^ 64⟩, ⟨F.MCH_ERR_INFO_SOURCE, .ro, 0x0, false, 0, 2 ^ 64⟩, ⟨F.MCH_ERR_INFO_DEV_MASK, .ro, 0x0, false, 0, 2 ^ 64⟩]⟩,
   ⟨0x20000040, 16, 0x100000, 1, 0x100000000,
     [⟨F.MCH_ERR_ADDR_ADDR, .ro, 0x0, false, 0, 2 ^ 64⟩]⟩,
   ⟨0x20000800, 16, 0x100000, 1, 0x100000000,
     [⟨F.MCH_PMF_EN, .rw, 0x0, false, 0, 2 ^ 64⟩, ⟨F.MCH_PMF_WORLD, .rw, 0x0, false, 0, 2 ^ 64⟩, ⟨F.MCH_PMF_PID, .rw, 0x0, false, 0, 2 ^ 64⟩]⟩,
   ⟨0x20000808, 16, 0x100000, 14, 0x8,
     [⟨F.MCH_PMC_COUNT, .ro, 0x0, false, 0, 2 ^ 64⟩]⟩]

/-- The PRT registers (21 R496). -/
def regsPRT : List RegDef :=
  [⟨0x28000800, 14, 0x100000, 1, 0x100000000,
     [⟨F.PRT_PMF_EN, .rw, 0x0, false, 0, 2 ^ 64⟩, ⟨F.PRT_PMF_WORLD, .rw, 0x0, false, 0, 2 ^ 64⟩, ⟨F.PRT_PMF_PID, .rw, 0x0, false, 0, 2 ^ 64⟩]⟩,
   ⟨0x28000808, 14, 0x100000, 14, 0x8,
     [⟨F.PRT_PMC_COUNT, .ro, 0x0, false, 0, 2 ^ 64⟩]⟩]

/-- The SLC registers (03 R71, 19 R467, 21 R496). -/
def regsSLC : List RegDef :=
  [⟨0x30000000, 36, 0x100000, 1, 0x100000000,
     [⟨F.SLC_STATUS_CTX, .ro, 0x0, false, 0, 2 ^ 64⟩, ⟨F.SLC_STATUS_LEVEL, .ro, 0x0, false, 0, 2 ^ 64⟩, ⟨F.SLC_STATUS_CBUF_MODE, .ro, 0x0, false, 0, 2 ^ 64⟩, ⟨F.SLC_STATUS_STATE, .ro, 0x0, false, 0, 2 ^ 64⟩]⟩,
   ⟨0x30000008, 36, 0x100000, 1, 0x100000000,
     [⟨F.SLC_CTRL_CBUF_SCRUB, .rw, 0x1, false, 0, 2 ^ 64⟩, ⟨F.SLC_CTRL_OFFLINE, .rws, 0x0, false, 0, 2 ^ 64⟩]⟩,
   ⟨0x30000100, 36, 0x100000, 6, 0x20,
     [⟨F.SLC_ERR_STATUS_VALID, .w1c, 0x0, false, 0, 2 ^ 64⟩, ⟨F.SLC_ERR_STATUS_MORE, .w1c, 0x0, false, 0, 2 ^ 64⟩, ⟨F.SLC_ERR_STATUS_CLASS, .ro, 0x0, false, 0, 2 ^ 64⟩, ⟨F.SLC_ERR_STATUS_WORLD, .ro, 0x0, false, 0, 2 ^ 64⟩, ⟨F.SLC_ERR_STATUS_PID, .ro, 0x0, false, 0, 2 ^ 64⟩, ⟨F.SLC_ERR_STATUS_SOURCE, .ro, 0x0, false, 0, 2 ^ 64⟩, ⟨F.SLC_ERR_STATUS_CE_COUNT, .rw, 0x0, false, 0, 2 ^ 64⟩]⟩,
   ⟨0x30000108, 36, 0x100000, 6, 0x20,
     [⟨F.SLC_ERR_ADDR_IS_INDEX, .ro, 0x0, false, 0, 2 ^ 64⟩, ⟨F.SLC_ERR_ADDR_ADDR, .ro, 0x0, false, 0, 2 ^ 64⟩]⟩,
   ⟨0x30000110, 36, 0x100000, 6, 0x20,
     [⟨F.SLC_ERR_MISC_WAY, .ro, 0x0, false, 0, 2 ^ 64⟩, ⟨F.SLC_ERR_MISC_SYNDROME, .ro, 0x0, false, 0, 2 ^ 64⟩]⟩,
   ⟨0x300001C0, 36, 0x100000, 1, 0x100000000,
     [⟨F.SLC_CBFLIP_ARM, .rw, 0x0, false, 0, 2 ^ 64⟩, ⟨F.SLC_CBFLIP_TARGET, .rw, 0x0, false, 0, 2 ^ 64⟩, ⟨F.SLC_CBFLIP_EN1, .rw, 0x0, false, 0, 2 ^ 64⟩, ⟨F.SLC_CBFLIP_LINE, .rw, 0x0, false, 0, 2 ^ 64⟩, ⟨F.SLC_CBFLIP_BIT1, .rw, 0x0, false, 0, 2 ^ 64⟩, ⟨F.SLC_CBFLIP_BIT0, .rw, 0x0, false, 0, 2 ^ 64⟩]⟩,
   ⟨0x30000800, 36, 0x100000, 1, 0x100000000,
     [⟨F.SLC_PMF_EN, .rw, 0x0, false, 0, 2 ^ 64⟩, ⟨F.SLC_PMF_WORLD, .rw, 0x0, false, 0, 2 ^ 64⟩, ⟨F.SLC_PMF_PID, .rw, 0x0, false, 0, 2 ^ 64⟩]⟩,
   ⟨0x30000808, 36, 0x100000, 16, 0x8,
     [⟨F.SLC_PMC_COUNT, .ro, 0x0, false, 0, 2 ^ 64⟩]⟩]

/-- The RMG registers (06). -/
def regsRMG : List RegDef :=
  [⟨0x40000000, 1, 0x100000000, 1, 0x100000000,
     [⟨F.RMG_CTRL_AGE_LIMIT, .rw, 0x40, false, 0, 2 ^ 64⟩]⟩]

/-- The CTX registers (06 R193). -/
def regsCTX : List RegDef :=
  [⟨0x40100000, 4096, 0x40, 1, 0x100000000,
     [⟨F.CTX_CFG_VALID, .rws, 0x0, false, 0, 2 ^ 64⟩, ⟨F.CTX_CFG_WORLD, .rws, 0x0, true, 0, 2 ^ 64⟩, ⟨F.CTX_CFG_PID, .rws, 0x0, true, 0, 2 ^ 64⟩, ⟨F.CTX_CFG_TSET, .rws, 0x0, true, 0, 2 ^ 64⟩, ⟨F.CTX_CFG_PRIORITY, .rws, 0x0, false, 0, 2 ^ 64⟩, ⟨F.CTX_CFG_SLICE_QUOTA, .rws, 0x0, false, 0, 0x24⟩, ⟨F.CTX_CFG_FAULT_TO, .rws, 0x14, false, 0, 0x18⟩]⟩,
   ⟨0x40100008, 4096, 0x40, 1, 0x100000000,
     [⟨F.CTX_SLICES_MASK, .rws, 0x0, true, 0, 2 ^ 64⟩]⟩,
   ⟨0x40100010, 4096, 0x40, 1, 0x100000000,
     [⟨F.CTX_SPILL_BASE_BASE, .rws, 0x0, false, 0, 2 ^ 64⟩]⟩,
   ⟨0x40100018, 4096, 0x40, 1, 0x100000000,
     [⟨F.CTX_SPILL_SIZE_QUOTA, .rws, 0x0, false, 0, 2 ^ 64⟩, ⟨F.CTX_SPILL_SIZE_CHUNKS, .rws, 0x0, false, 0, 2 ^ 64⟩]⟩,
   ⟨0x40100020, 4096, 0x40, 1, 0x100000000,
     [⟨F.CTX_FAULT_RING_SIZE_LOG2, .rws, 0x6, false, 6, 0xc⟩, ⟨F.CTX_FAULT_RING_BASE, .rws, 0x0, false, 0, 2 ^ 64⟩]⟩,
   ⟨0x40100028, 4096, 0x40, 1, 0x100000000,
     [⟨F.CTX_FAULT_HEAD_HEAD, .rw, 0x0, false, 0, 2 ^ 64⟩]⟩,
   ⟨0x40100030, 4096, 0x40, 1, 0x100000000,
     [⟨F.CTX_STATUS_SPILL_USED, .ro, 0x0, false, 0, 2 ^ 64⟩, ⟨F.CTX_STATUS_RUNNING, .ro, 0x0, false, 0, 2 ^ 64⟩]⟩]

/-- The RING registers (06 R193). -/
def regsRING : List RegDef :=
  [⟨0x40200000, 4096, 0x40, 1, 0x100000000,
     [⟨F.RING_CFG_VALID, .rws, 0x0, false, 0, 2 ^ 64⟩, ⟨F.RING_CFG_PRIV, .rws, 0x0, true, 0, 2 ^ 64⟩, ⟨F.RING_CFG_ATTACH, .rws, 0x0, false, 0, 0x4⟩, ⟨F.RING_CFG_SQ_LOG2, .rws, 0x6, false, 6, 0x10⟩, ⟨F.RING_CFG_CQ_LOG2, .rws, 0x6, false, 6, 0x10⟩, ⟨F.RING_CFG_CTX, .rws, 0x0, false, 0, 2 ^ 64⟩]⟩,
   ⟨0x40200008, 4096, 0x40, 1, 0x100000000,
     [⟨F.RING_SQ_BASE_BASE, .rws, 0x0, false, 0, 2 ^ 64⟩]⟩,
   ⟨0x40200010, 4096, 0x40, 1, 0x100000000,
     [⟨F.RING_CQ_BASE_BASE, .rws, 0x0, false, 0, 2 ^ 64⟩]⟩,
   ⟨0x40200018, 4096, 0x40, 1, 0x100000000,
     [⟨F.RING_DB_EN, .rws, 0x0, false, 0, 2 ^ 64⟩, ⟨F.RING_DB_LINE, .rws, 0x0, false, 0, 2 ^ 64⟩, ⟨F.RING_DB_SLOT, .rws, 0x0, false, 0, 2 ^ 64⟩]⟩,
   ⟨0x40200020, 4096, 0x40, 1, 0x100000000,
     [⟨F.RING_MSI_EN, .rws, 0x0, false, 0, 2 ^ 64⟩, ⟨F.RING_MSI_ADDR, .rws, 0x0, false, 0, 2 ^ 64⟩, ⟨F.RING_MSI_EIID, .rws, 0x0, false, 0, 2 ^ 64⟩]⟩,
   ⟨0x40200028, 4096, 0x40, 1, 0x100000000,
     [⟨F.RING_HEAD_CQ_TAIL, .ro, 0x0, false, 0, 2 ^ 64⟩, ⟨F.RING_HEAD_SQ_HEAD, .ro, 0x0, false, 0, 2 ^ 64⟩]⟩,
   ⟨0x40200030, 4096, 0x40, 1, 0x100000000,
     [⟨F.RING_STATUS_CAUSE, .ro, 0x0, false, 0, 2 ^ 64⟩, ⟨F.RING_STATUS_STATE, .ro, 0x0, false, 0, 2 ^ 64⟩]⟩]

/-- The DM registers (07 R220). -/
def regsDM : List RegDef :=
  [⟨0x50001000, 32, 0x80, 1, 0x100000000,
     [⟨F.DM_CFG_VALID, .rws, 0x0, false, 0, 2 ^ 64⟩, ⟨F.DM_CFG_WORLD, .rws, 0x0, true, 0, 2 ^ 64⟩, ⟨F.DM_CFG_PID, .rws, 0x0, true, 0, 2 ^ 64⟩, ⟨F.DM_CFG_RATE, .rws, 0x40, false, 1, 0x40⟩, ⟨F.DM_CFG_BURST, .rws, 0x8, false, 1, 0x10⟩, ⟨F.DM_CFG_WAIT_TO, .rws, 0x14, false, 0, 0x18⟩]⟩,
   ⟨0x50001008, 32, 0x80, 1, 0x100000000,
     [⟨F.DM_TABLE_SIZE_LOG2, .rws, 0x0, false, 0, 0xc⟩, ⟨F.DM_TABLE_BASE, .rws, 0x0, false, 0, 2 ^ 64⟩]⟩,
   ⟨0x50001010, 32, 0x80, 1, 0x100000000,
     [⟨F.DM_DB_EN, .rws, 0x0, false, 0, 2 ^ 64⟩, ⟨F.DM_DB_LINE, .rws, 0x0, false, 0, 2 ^ 64⟩, ⟨F.DM_DB_SLOT, .rws, 0x0, false, 0, 2 ^ 64⟩]⟩,
   ⟨0x50001018, 32, 0x80, 1, 0x100000000,
     [⟨F.DM_MSI_EN, .rws, 0x0, false, 0, 2 ^ 64⟩, ⟨F.DM_MSI_ADDR, .rws, 0x0, false, 0, 2 ^ 64⟩, ⟨F.DM_MSI_EIID, .rws, 0x0, false, 0, 2 ^ 64⟩]⟩,
   ⟨0x50001020, 32, 0x80, 1, 0x100000000,
     [⟨F.DM_STATUS_DONE, .ro, 0x0, false, 0, 2 ^ 64⟩, ⟨F.DM_STATUS_BAD, .ro, 0x0, false, 0, 2 ^ 64⟩, ⟨F.DM_STATUS_CAUSE, .ro, 0x0, false, 0, 2 ^ 64⟩, ⟨F.DM_STATUS_STATE, .ro, 0x0, false, 0, 2 ^ 64⟩]⟩,
   ⟨0x50001028, 32, 0x80, 1, 0x100000000,
     [⟨F.DM_ERR_VALID, .w1c, 0x0, false, 0, 2 ^ 64⟩, ⟨F.DM_ERR_CODE, .ro, 0x0, false, 0, 2 ^ 64⟩, ⟨F.DM_ERR_ADDR, .ro, 0x0, false, 0, 2 ^ 64⟩]⟩,
   ⟨0x50001030, 32, 0x80, 1, 0x100000000,
     [⟨F.DM_GFLIP_ARM, .rw, 0x0, false, 0, 2 ^ 64⟩, ⟨F.DM_GFLIP_ALL, .rw, 0x0, false, 0, 2 ^ 64⟩, ⟨F.DM_GFLIP_IDX1, .rw, 0x0, false, 0, 2 ^ 64⟩, ⟨F.DM_GFLIP_IDX0, .rw, 0x0, false, 0, 2 ^ 64⟩, ⟨F.DM_GFLIP_PAT1, .rw, 0x0, false, 0, 2 ^ 64⟩, ⟨F.DM_GFLIP_PAT0, .rw, 0x0, false, 0, 2 ^ 64⟩]⟩]

/-- The FX registers (08 R255). -/
def regsFX : List RegDef :=
  [⟨0x60000000, 4, 0x100000, 1, 0x100000000,
     [⟨F.FX_CFG_EN, .rws, 0x0, false, 0, 2 ^ 64⟩, ⟨F.FX_CFG_WORLD, .rws, 0x0, true, 0, 2 ^ 64⟩, ⟨F.FX_CFG_PID, .rws, 0x0, true, 0, 2 ^ 64⟩, ⟨F.FX_CFG_RESET_EN, .rws, 0x0, true, 0, 2 ^ 64⟩]⟩,
   ⟨0x60000008, 4, 0x100000, 1, 0x100000000,
     [⟨F.FX_STAGE_SIZE_MIB, .rws, 0x0, true, 0, 2 ^ 64⟩, ⟨F.FX_STAGE_BASE, .rws, 0x0, true, 0, 2 ^ 64⟩]⟩,
   ⟨0x60000010, 4, 0x100000, 1, 0x100000000,
     [⟨F.FX_LIMIT_LOCK, .w1s, 0x0, false, 0, 2 ^ 64⟩, ⟨F.FX_LIMIT_RATE, .rwl, 0x10, false, 1, 0x40⟩, ⟨F.FX_LIMIT_BURST, .rwl, 0x8, false, 1, 0x10⟩]⟩,
   ⟨0x60000018, 4, 0x100000, 1, 0x100000000,
     [⟨F.FX_STATUS_DROPPED, .ro, 0x0, false, 0, 2 ^ 64⟩, ⟨F.FX_STATUS_RETRAINS, .ro, 0x0, false, 0, 2 ^ 64⟩, ⟨F.FX_STATUS_WIDTH, .ro, 0x0, false, 0, 2 ^ 64⟩, ⟨F.FX_STATUS_DOWN_CAUSE, .ro, 0x0, false, 0, 2 ^ 64⟩, ⟨F.FX_STATUS_STATE, .ro, 0x0, false, 0, 2 ^ 64⟩]⟩,
   ⟨0x60000800, 4, 0x100000, 1, 0x100000000,
     [⟨F.FX_PMF_EN, .rw, 0x0, false, 0, 2 ^ 64⟩, ⟨F.FX_PMF_WORLD, .rw, 0x0, false, 0, 2 ^ 64⟩, ⟨F.FX_PMF_PID, .rw, 0x0, false, 0, 2 ^ 64⟩]⟩,
   ⟨0x60000808, 4, 0x100000, 7, 0x8,
     [⟨F.FX_PMC_COUNT, .ro, 0x0, false, 0, 2 ^ 64⟩]⟩]

/-- The MEM registers (09). -/
def regsMEM : List RegDef :=
  [⟨0x80000000, 1, 0x100000000, 1, 0x100000000,
     [⟨F.MEM_MAP_TOP, .ro, 0x0, false, 0, 2 ^ 64⟩, ⟨F.MEM_MAP_GRANULE, .ro, 0x0, false, 0, 2 ^ 64⟩, ⟨F.MEM_MAP_WAYS_LOG2, .ro, 0x0, false, 0, 2 ^ 64⟩]⟩]

/-- The CXLW registers (09). -/
def regsCXLW : List RegDef :=
  [⟨0x80000100, 16, 0x20, 1, 0x100000000,
     [⟨F.CXLW_BASE_VALID, .rws, 0x0, false, 0, 2 ^ 64⟩, ⟨F.CXLW_BASE_WAYS_LOG2, .rws, 0x0, false, 0, 0x2⟩, ⟨F.CXLW_BASE_BASE, .rws, 0x0, false, 0, 2 ^ 64⟩]⟩,
   ⟨0x80000108, 16, 0x20, 1, 0x100000000,
     [⟨F.CXLW_LIMIT_LIMIT, .rws, 0x0, false, 0, 2 ^ 64⟩]⟩,
   ⟨0x80000110, 16, 0x20, 1, 0x100000000,
     [⟨F.CXLW_LINKS_LINK, .rws, 0x0, false, 0, 2 ^ 64⟩]⟩]

/-- The FW registers (09). -/
def regsFW : List RegDef :=
  [⟨0x80001000, 256, 0x20, 1, 0x100000000,
     [⟨F.FW_BASE_VALID, .rws, 0x0, false, 0, 2 ^ 64⟩, ⟨F.FW_BASE_BASE, .rws, 0x0, false, 0, 2 ^ 64⟩]⟩,
   ⟨0x80001008, 256, 0x20, 1, 0x100000000,
     [⟨F.FW_LIMIT_LIMIT, .rws, 0x0, false, 0, 2 ^ 64⟩]⟩,
   ⟨0x80001010, 256, 0x20, 1, 0x100000000,
     [⟨F.FW_ATTR_FILLING, .ro, 0x0, false, 0, 2 ^ 64⟩, ⟨F.FW_ATTR_LOCK, .w1s, 0x0, false, 0, 2 ^ 64⟩, ⟨F.FW_ATTR_WORLD, .rws, 0x0, false, 0, 2 ^ 64⟩, ⟨F.FW_ATTR_PID, .rws, 0x0, false, 0, 2 ^ 64⟩, ⟨F.FW_ATTR_W, .rws, 0x0, false, 0, 2 ^ 64⟩, ⟨F.FW_ATTR_R, .rws, 0x0, false, 0, 2 ^ 64⟩, ⟨F.FW_ATTR_LOCAL_HOME, .rws, 0x0, false, 0, 2 ^ 64⟩]⟩,
   ⟨0x80001018, 256, 0x20, 1, 0x100000000,
     [⟨F.FW_SHARE_READERS, .rws, 0x0, false, 0, 2 ^ 64⟩]⟩]

/-- The ISO registers (14 R371). -/
def regsISO : List RegDef :=
  [⟨0x80003000, 1, 0x100000000, 1, 0x100000000,
     [⟨F.ISO_PART_WORLD_S_PARTS, .rws, 0x0, true, 0, 2 ^ 64⟩, ⟨F.ISO_PART_WORLD_PID0_S, .ro, 0x1, false, 0, 2 ^ 64⟩]⟩,
   ⟨0x80003008, 1, 0x100000000, 1, 0x100000000,
     [⟨F.ISO_SEALED_SEALED, .rws, 0x0, true, 0, 2 ^ 64⟩]⟩,
   ⟨0x80003010, 1, 0x100000000, 1, 0x100000000,
     [⟨F.ISO_DBG_LOCK, .w1s, 0x0, false, 0, 2 ^ 64⟩, ⟨F.ISO_DBG_SBA_PID, .rwl, 0x0, true, 0, 2 ^ 64⟩, ⟨F.ISO_DBG_SBA_WORLD, .rwl, 0x0, true, 0, 2 ^ 64⟩, ⟨F.ISO_DBG_S_INV, .rwl, 0x0, true, 0, 2 ^ 64⟩, ⟨F.ISO_DBG_S_NINV, .rwl, 0x0, true, 0, 2 ^ 64⟩, ⟨F.ISO_DBG_N_INV, .rwl, 0x0, true, 0, 2 ^ 64⟩, ⟨F.ISO_DBG_N_NINV, .rwl, 0x0, true, 0, 2 ^ 64⟩]⟩,
   ⟨0x80003018, 1, 0x100000000, 1, 0x100000000,
     [⟨F.ISO_FUSE_OFF, .ro, 0x0, false, 0, 2 ^ 64⟩]⟩,
   ⟨0x80003020, 1, 0x100000000, 1, 0x100000000,
     [⟨F.ISO_VIOL_VALID, .w1c, 0x0, false, 0, 2 ^ 64⟩, ⟨F.ISO_VIOL_MORE, .w1c, 0x0, false, 0, 2 ^ 64⟩, ⟨F.ISO_VIOL_KIND, .ro, 0x0, false, 0, 2 ^ 64⟩, ⟨F.ISO_VIOL_WORLD, .ro, 0x0, false, 0, 2 ^ 64⟩, ⟨F.ISO_VIOL_PID, .ro, 0x0, false, 0, 2 ^ 64⟩, ⟨F.ISO_VIOL_ADDR, .ro, 0x0, false, 0, 2 ^ 64⟩]⟩,
   ⟨0x80003028, 1, 0x100000000, 1, 0x100000000,
     [⟨F.ISO_STATUS_GATEWAYS, .ro, 0x0, false, 0, 2 ^ 64⟩]⟩,
   ⟨0x80003100, 16, 0x8, 1, 0x100000000,
     [⟨F.ISO_RACC_PIDS, .rws, 0x0, true, 0, 2 ^ 64⟩]⟩,
   ⟨0x80003400, 64, 0x8, 1, 0x100000000,
     [⟨F.ISO_WAYS_DIR, .rws, 0x0, true, 0, 2 ^ 64⟩, ⟨F.ISO_WAYS_L3, .rws, 0x0, true, 0, 2 ^ 64⟩]⟩,
   ⟨0x80003800, 128, 0x8, 1, 0x100000000,
     [⟨F.ISO_OWN_WORLD, .rws, 0x0, true, 0, 2 ^ 64⟩]⟩,
   ⟨0x80003C00, 16, 0x8, 1, 0x100000000,
     [⟨F.ISO_DEFER_VALID, .w1c, 0x0, false, 0, 2 ^ 64⟩, ⟨F.ISO_DEFER_UNIT, .ro, 0x0, false, 0, 2 ^ 64⟩, ⟨F.ISO_DEFER_PID, .ro, 0x0, false, 0, 2 ^ 64⟩, ⟨F.ISO_DEFER_REQUEST, .ro, 0x0, false, 0, 2 ^ 64⟩]⟩,
   ⟨0x80004000, 112, 0x20, 1, 0x100000000,
     [⟨F.ISO_LNK_CFG_VALID, .rws, 0x0, true, 0, 2 ^ 64⟩, ⟨F.ISO_LNK_CFG_WORLD, .rws, 0x0, true, 0, 2 ^ 64⟩, ⟨F.ISO_LNK_CFG_PID, .rws, 0x0, true, 0, 2 ^ 64⟩, ⟨F.ISO_LNK_CFG_LOCK, .w1s, 0x0, false, 0, 2 ^ 64⟩]⟩,
   ⟨0x80004008, 112, 0x20, 1, 0x100000000,
     [⟨F.ISO_LNK_APBASE_ADDR, .rws, 0x0, true, 0, 2 ^ 64⟩]⟩,
   ⟨0x80004010, 112, 0x20, 1, 0x100000000,
     [⟨F.ISO_LNK_APLIMIT_ADDR, .rws, 0x0, true, 0, 2 ^ 64⟩]⟩,
   ⟨0x80005000, 216, 0x8, 1, 0x100000000,
     [⟨F.ISO_HART_WORLD, .rws, 0x1, true, 0, 2 ^ 64⟩, ⟨F.ISO_HART_PID, .rws, 0x0, true, 0, 2 ^ 64⟩]⟩]

/-- The MTIME registers (12 R338). -/
def regsMTIME : List RegDef :=
  [⟨0x4700000, 1, 0x100000000, 1, 0x100000000,
     [⟨F.MTIME_VAL, .rw, 0x0, false, 0, 2 ^ 64⟩]⟩]

/-- The MTIMECMP registers (12 R338). -/
def regsMTIMECMP : List RegDef :=
  [⟨0x4710000, 216, 0x8, 1, 0x100000000,
     [⟨F.MTIMECMP_VAL, .rw, 0x0, false, 0, 2 ^ 64⟩]⟩]

/-- The PMON registers (21). -/
def regsPMON : List RegDef :=
  [⟨0x90000000, 1, 0x100000000, 1, 0x100000000,
     [⟨F.PMON_CTRL_CLEAR, .wo, 0x0, false, 0, 2 ^ 64⟩, ⟨F.PMON_CTRL_FREEZE, .rw, 0x0, false, 0, 2 ^ 64⟩]⟩,
   ⟨0x90000100, 2, 0x40, 1, 0x100000000,
     [⟨F.PMON_SBUF_SIZE_LOG2, .rws, 0x6, true, 6, 0xe⟩, ⟨F.PMON_SBUF_PID, .rws, 0x0, true, 0, 2 ^ 64⟩, ⟨F.PMON_SBUF_BASE, .rws, 0x0, true, 0, 2 ^ 64⟩]⟩,
   ⟨0x90000108, 2, 0x40, 1, 0x100000000,
     [⟨F.PMON_SHEAD_HEAD, .rw, 0x0, false, 0, 2 ^ 64⟩]⟩,
   ⟨0x90000110, 2, 0x40, 1, 0x100000000,
     [⟨F.PMON_STAIL_DROPPED, .ro, 0x0, false, 0, 2 ^ 64⟩, ⟨F.PMON_STAIL_TAIL, .ro, 0x0, false, 0, 2 ^ 64⟩]⟩,
   ⟨0x90000118, 2, 0x40, 1, 0x100000000,
     [⟨F.PMON_SCTL_BATCH_EN, .rw, 0x0, false, 0, 2 ^ 64⟩, ⟨F.PMON_SCTL_BATCH_LOG2, .rw, 0xA, false, 0, 0x14⟩]⟩,
   ⟨0x90000120, 2, 0x40, 1, 0x100000000,
     [⟨F.PMON_SPIDS_PIDS, .rw, 0x0, false, 0, 2 ^ 64⟩]⟩]

/-- The MBX registers (20 R484). -/
def regsMBX : List RegDef :=
  [⟨0xA0000000, 2, 0x4000, 1, 0x100000000,
     [⟨F.MBX_CTRL_GO, .w1s, 0x0, false, 0, 2 ^ 64⟩, ⟨F.MBX_CTRL_LENGTH, .rw, 0x0, false, 0, 2 ^ 64⟩]⟩,
   ⟨0xA0000008, 2, 0x4000, 1, 0x100000000,
     [⟨F.MBX_STATUS_STATE, .ro, 0x0, false, 0, 2 ^ 64⟩, ⟨F.MBX_STATUS_LENGTH, .ro, 0x0, false, 0, 2 ^ 64⟩]⟩,
   ⟨0xA0001000, 2, 0x4000, 512, 0x8,
     [⟨F.MBX_REQ_VAL, .rw, 0x0, false, 0, 2 ^ 64⟩]⟩,
   ⟨0xA0002000, 2, 0x4000, 512, 0x8,
     [⟨F.MBX_RSP_VAL, .ro, 0x0, false, 0, 2 ^ 64⟩]⟩,
   ⟨0xA0008000, 1, 0x100000000, 1, 0x100000000,
     [⟨F.MBX_ACCESS_PIDS, .rw, 0x0, true, 0, 2 ^ 64⟩]⟩]

/-- The PMC registers (20 R481). -/
def regsPMC : List RegDef :=
  [⟨0xA0008008, 1, 0x100000000, 1, 0x100000000,
     [⟨F.PMC_TRIP_VALID, .w1c, 0x0, true, 0, 2 ^ 64⟩, ⟨F.PMC_TRIP_MORE, .w1c, 0x0, true, 0, 2 ^ 64⟩, ⟨F.PMC_TRIP_SENSOR, .ro, 0x0, false, 0, 2 ^ 64⟩, ⟨F.PMC_TRIP_TEMP, .ro, 0x0, false, 0, 2 ^ 64⟩, ⟨F.PMC_TRIP_TIME, .ro, 0x0, false, 0, 2 ^ 64⟩]⟩]

/-- Every register of the window but the interrupt files and APLICs of the EVT block. -/
def regTable : List RegDef :=
  regsPKG ++ regsCTU ++ regsRCC ++ regsPWR ++ regsEVT ++ regsPKB ++ regsRTR ++ regsL3 ++ regsSTP ++ regsMCH ++ regsPRT ++ regsSLC ++ regsRMG ++ regsCTX ++ regsRING ++ regsDM ++ regsFX ++ regsMEM ++ regsCXLW ++ regsFW ++ regsISO ++ regsMTIME ++ regsMTIMECMP ++ regsPMON ++ regsMBX ++ regsPMC

/-- Whether an offset is an instance of a register. -/
def RegDef.hits (r : RegDef) (off : Nat) : Bool :=
  decide (r.base ≤ off) &&
    (let d := off - r.base
     decide (d / r.s1 < r.n1) && decide (d % r.s1 / r.s2 < r.n2) && decide (d % r.s1 % r.s2 = 0))

/-- The register at an offset. -/
def regAt (off : Nat) : Option RegDef := regTable.find? (·.hits off)

/-- The reset value of a field list, each field in its bits. -/
def resetOfFields : List FieldDef → Nat
  | [] => 0
  | f :: t => setBits (resetOfFields t) f.fld.hi f.fld.lo f.reset

end Sys2Proof.Machine
end

