-- ==== Sys2Proof/Machine/Reset0.lean ====
section
/-! DEFINITION. Reset values of whole registers (00 R10), with the values that differ from instance to instance. -/

namespace Sys2Proof.Machine
open Sys2Proof

/-- The stops of clusters C00 to C35 in order (01 R17, *Cluster stops*). -/
def clusterStops : List Nat :=
  [0, 8, 16, 1, 9, 17, 2, 10, 18, 7, 6, 5, 15, 14, 13, 23, 22, 21,
   63, 55, 47, 62, 54, 46, 61, 53, 45, 56, 57, 58, 48, 49, 50, 40, 41, 42]

/-- The stops of memory channels M0 to M15 in order (01 R17, *Memory and service stops*). -/
def memStops : List Nat := [3, 11, 19, 24, 31, 30, 29, 4, 60, 52, 44, 39, 32, 33, 34, 59]

/-- The stops of the PCIe/CXL port pairs P0/P1 to P12/P13 in order (01 R17). -/
def pcieStops : List Nat := [25, 12, 20, 38, 37, 51, 43]

/-- The stops of the Finxis port pairs F0/F1 and F2/F3 (01 R17). -/
def finxisStops : List Nat := [28, 35]

/-- The ring manager and data-mover stop (01 R17). -/
def rmgStop : Nat := 27
/-- The management stop (01 R17). -/
def pmcStop : Nat := 36
/-- The event and configuration stop (01 R17). -/
def evtStop : Nat := 26

/-- Function code and index of a stop (01 R32, *Stop function codes*). -/
def stopFunc (t : Nat) : Nat × Nat :=
  match clusterStops.idxOf? t with
  | some c => (1, c)
  | none => match memStops.idxOf? t with
    | some c => (2, c)
    | none => match pcieStops.idxOf? t with
      | some p => (3, 2 * p)
      | none => match finxisStops.idxOf? t with
        | some p => (4, 2 * p)
        | none => if t = rmgStop then (5, 0) else if t = pmcStop then (6, 0) else (7, 0)

/-- The value of PKG_STOP{n}_FUNC (01 R32). -/
def stopFuncWord (t : Nat) : Nat :=
  let f := stopFunc t
  (t / 8) * 2 ^ 20 + (t % 8) * 2 ^ 16 + f.1 * 2 ^ 8 + f.2

/-- Whether an event source's owner world is selectable (19 R472, *Event source table*). -/
def evtSelectable (k : Nat) : Bool :=
  (1 ≤ k && k ≤ 96) || (161 ≤ k && k ≤ 260) || (301 ≤ k && k ≤ 314) || k == 387

/-- The reset value of EVT_WORLD{i}: 1 for each selectable source (19 R473). -/
def evtWorldReset (i : Nat) : Nat :=
  (List.range 64).foldl (fun a j => if evtSelectable (64 * i + j) then a + 2 ^ j else a) 0

/-- The reset value of the register at an offset (00 R10). The I/O die stepping, the fuses and the gateway option are
board facts (notes/assumptions/3.md). -/
def resetWord (off : Nat) : Word :=
  if 0x10000000 ≤ off && off < 0x14000000 && (off - 0x10000000) % 0x100000 == 0x4018 then
    BitVec.ofNat 64 (0xACE1 + (off - 0x10000000) / 0x100000)
  else if 0x200 ≤ off && off < 0x400 then BitVec.ofNat 64 (stopFuncWord ((off - 0x200) / 8))
  else if 0x4600000 ≤ off && off < 0x4600048 then BitVec.ofNat 64 (evtWorldReset ((off - 0x4600000) / 8))
  else match regAt off with
    | some r => BitVec.ofNat 64 (resetOfFields r.fields)
    | none => 0

end Sys2Proof.Machine
end

