-- ==== Sys2Proof/Machine/State.lean ====
section
/-! DEFINITION. The state of the package as plain data, and the state right after reset. -/

namespace Sys2Proof.Machine
open Sys2Proof

/-- What stops the package with a fault. The manual gives every event an effect and the model gives every command
one, so no command raises a fault (safe: nothing stops early). -/
inductive Fault where
  deriving DecidableEq, Repr

/-- Why a command has no meaning. -/
inductive Refusal where
  /-- Raised only by an arm of `exec` whose command has no meaning yet (safe: the run stops). -/
  | notModelled (mnemonic : String)
  deriving DecidableEq, Repr

/-! ### Events (19) -/

/-- One source as an APLIC holds it (19 R471): mode (0 inactive, 4 edge, 6 level), pending, enable, target. -/
structure AplicSrc where
  sm : Nat
  pend : Bool
  en : Bool
  target : Nat
  deriving DecidableEq, Repr

/-- A source with sourcecfg Inactive. -/
def AplicSrc.off : AplicSrc := ⟨0, false, false, 0⟩

/-- One APLIC (12 R337): domaincfg.IE and the sources by number. -/
structure Aplic where
  ie : Bool
  src : Tab AplicSrc
  deriving DecidableEq, Repr

/-- Something the package sends to the outside, oldest first in `State.out`. -/
inductive OutMsg where
  /-- a flit of a Finxis port, 256 bytes (08 R239) -/
  | flit (port : Nat) (bytes : List Byte)
  /-- a codeword of a Finxis port: its symbols, each with the lane it is sent on (08 R235) -/
  | codeword (port : Nat) (symbols : List (Nat × Nat))
  /-- a sideband sensor event: sensor number and event code -/
  | sideband (sensor code : Nat)
  /-- bytes sent in answer on the sideband -/
  | sidebandReply (bytes : List Byte)
  /-- a capability word of a Finxis port (08 R238): protocol version, trained width, receive credits by virtual lane -/
  | caps (port version width c0 c1 c2 : Nat)
  /-- a PCIe or CXL completion of a link: tag, data and whether it is poisoned, or Unsupported Request -/
  | pcieCpl (link tag : Nat) (data : Option (List Byte × Bool))
  /-- a PCIe MMIO access sent to a link -/
  | mmio (link addr : Nat) (write : Option (List Byte))
  deriving DecidableEq, Repr

/-- How the last access a requester made ended. -/
inductive Resp where
  | none
  | ok (data : Nat)
  | error
  deriving DecidableEq, Repr

/-! ### Memory (09) -/

/-- Who a line write in a controller's queue comes from (09 R268, R276). -/
inductive WrSrc where
  | home | fill | scrub | correction | zero
  deriving DecidableEq, Repr

/-- A write in a controller's or port's write queue (09 R269): line number, data, byte mask, poison, origin, armed flip. -/
structure WqEntry where
  ln : Nat
  data : List Byte
  mask : Nat
  poison : Bool
  src : WrSrc
  /-- an armed flip applies to it (09 R276) -/
  flip : Bool
  /-- the identity of the request that opened the transaction (14 R367); none of a fill, a scrub, a correction or a sweep -/
  who : Option Ident
  deriving DecidableEq, Repr

/-- A PCIe or CXL link, by its PCI segment 8·n + k (08 R256 to R259). -/
structure Link where
  /-- in service -/
  up : Bool
  /-- runs CXL.mem as well as CXL.io -/
  cxl : Bool
  /-- an enabled memory device was removed: reads are poisoned and writes dropped -/
  removed : Bool
  /-- fenced at its stop after going down -/
  fenced : Bool
  /-- in L1 (low power) -/
  l1 : Bool
  deriving DecidableEq, Repr

/-- A link that has not trained. -/
def Link.off : Link := ⟨false, false, false, false, false⟩

/-! ### Harts (12, 13) -/

/-- Privilege modes below the V bit. -/
inductive Mode where
  | u | s | m
  deriving DecidableEq, Repr

/-- What a gateway call saves (12 R341). -/
structure GateShadow where
  ret : Word
  satp : Word
  stvec : Word
  world : World
  pid : Nat
  index : Nat
  deriving DecidableEq, Repr

/-- Which stage a translation entry belongs to (13 R356). -/
inductive TStage where
  /-- S-stage -/
  | s
  /-- VS-stage -/
  | vs
  /-- G-stage -/
  | g
  /-- combined VS-stage and G-stage -/
  | comb
  deriving DecidableEq, Repr

/-- The translation structures of a hart (13 R356). -/
inductive TArray where
  /-- L1 instruction and data TLBs, and the L2 TLB -/
  | l1i | l1d | l2
  /-- walk cache and G-stage walk cache -/
  | walk | gwalk
  deriving DecidableEq, Repr

/-- An entry of a hart's TLBs or walk caches (13 R356, R357). -/
structure TEntry where
  stage : TStage
  /-- the structure that holds it -/
  arr : TArray
  /-- a leaf; otherwise a walk-cache entry -/
  leaf : Bool
  /-- first address covered and log2 of the bytes covered -/
  base : Nat
  log2 : Nat
  /-- guest physical base of a combined or G-stage entry, for HFENCE.GVMA -/
  gpa : Nat
  /-- physical base, or physical address of the next table -/
  pa : Nat
  /-- the PTE, whose permission bits each access checks -/
  pte : Nat
  /-- the G-stage PTE of a combined entry -/
  gpte : Nat
  /-- level of a non-leaf entry -/
  level : Nat
  who : Ident
  v : Bool
  vmid : Nat
  /-- address space, or global -/
  asid : Option Nat
  deriving DecidableEq, Repr

/-- Where a waiting hart is (12 R330, R346). -/
inductive Waiting where
  | running
  /-- in WFI at a depth -/
  | wfi (depth : Nat)
  /-- in WFI with the supply lowered -/
  | retention
  /-- powered off in WFI -/
  | off
  /-- in WRS.STO -/
  | wrs
  deriving DecidableEq, Repr

/-- A register-window or I/O access a hart has issued and not yet seen complete (12 R332). -/
structure IoAccess where
  /-- physical address -/
  pa : Nat
  size : Nat
  /-- bytes written, or none for a read -/
  write : Option (List Byte)
  /-- destination register of a read (`Hart.wd` says how it is numbered) and whether it is sign-extended -/
  rd : Nat
  signed : Bool
  /-- virtual address, for the trap value -/
  va : Nat
  /-- instruction length -/
  len : Nat
  deriving DecidableEq, Repr

/-- One hart. -/
structure Hart where
  /-- registers x1 to x31 (x0 reads 0 and takes no write) -/
  x : Tab Word
  /-- floating-point registers f0 to f31 -/
  f : Tab Word
  /-- the vector registers v0 to v31 of 256 bits each (12 R330), by byte: 32 times the register plus the byte -/
  vr : Tab Byte
  pc : Word
  mode : Mode
  v : Bool
  /-- CSRs by number; an unlisted CSR holds its reset value -/
  csr : Tab Word
  /-- line reserved by LR (12 R329) -/
  resv : Option Nat
  /-- the reservation holds snoops no longer (10 R296) -/
  resvLate : Bool
  /-- the entries of its translation structures, those of each in the order they came -/
  tlb : List TEntry
  waiting : Waiting
  gate : Option GateShadow
  /-- held in reset -/
  held : Bool
  /-- in debug mode -/
  halted : Bool
  /-- a debug halt request is pending -/
  haltReq : Bool
  /-- waiting for an access or a range operation to be performed -/
  stalled : Bool
  /-- the parts of a split load read so far (12 R333) -/
  part : Nat
  io : Option IoAccess
  /-- a wake is held until the die's divider code permits it (18 R441) -/
  wakeHeld : Bool
  /-- instructions left until the next sample tag (21 R503) -/
  tagIn : Nat
  deriving DecidableEq, Repr

/-- A hart held in reset with every register at the model's reset value (notes/assumptions/4.md). -/
def Hart.reset : Hart where
  x := []
  f := []
  vr := []
  pc := 0
  mode := .m
  v := false
  csr := []
  resv := none
  resvLate := false
  tlb := []
  waiting := .running
  gate := none
  held := true
  halted := false
  haltReq := false
  stalled := false
  part := 0
  io := none
  wakeHeld := false
  tagIn := 0

/-! ### Coherence (10) -/

/-- State of a cached copy or a grant. -/
inductive Grant where
  | s | e | m
  deriving DecidableEq, Repr

/-- Requests to a home (10 R292). -/
inductive ReqKind where
  | rdShared | rdNoexcl | rdUnique | upgrade | zeroUnique | cmoClean | cmoFlush | rdNoalloc | wrFull | wrMask
  /-- removal of a directory victim (10 R291) -/
  | dirEvict
  deriving DecidableEq, Repr

/-- Snoops (10 R292). -/
inductive SnpKind where
  | share | inval | peek
  deriving DecidableEq, Repr

/-- A request at its home. Agents 0 to 35 are clusters, 36 is the ring manager, others are non-caching. -/
structure HReq where
  kind : ReqKind
  ln : Nat
  agent : Nat
  who : Ident
  /-- a streaming fill (10 R285) -/
  stream : Bool
  data : List Byte
  mask : Nat
  deriving DecidableEq, Repr

/-- A line of data with its poison mark. -/
structure LineData where
  data : List Byte
  poison : Bool
  deriving DecidableEq, Repr

/-- A transaction in service at a home (10 R293, R294). -/
structure HTxn where
  req : HReq
  /-- agents whose snoop answers are awaited -/
  await : List Nat
  /-- dirty data taken from a snoop -/
  got : Option LineData
  /-- agents that answered and kept a copy -/
  kept : List Nat
  /-- agents of whose RSP_WBIF and WB_DIRTY one has arrived (10 R297) -/
  half : List Nat
  /-- agents whose EVICT_CLEAN has overtaken the snoop answer that is awaited of them (10 R297) -/
  gone : List Nat
  /-- waiting for line data from memory -/
  mem : Bool
  /-- waiting for a directory victim to be removed -/
  dirWait : Bool
  /-- for a directory eviction, the line whose request waits on it -/
  victimFor : Nat
  /-- the directory way kept for a new entry (10 R291) -/
  way : Option Nat
  /-- a zero-fill has overtaken it: it is refused when it ends (09 R281) -/
  void : Bool
  deriving DecidableEq, Repr

/-- Coherence messages in flight (10 R292), and line reads at a controller. -/
inductive MKind where
  | snp (k : SnpKind)
  | rspI | rspS | rspWbif | datDirty | wbDirty | evictClean
  | datGrant (g : Option Grant)
  | rspGrant | rspWdone | wbAck
  | memRead | memData
  | rspError (code : Nat)
  deriving DecidableEq, Repr

/-- A message in flight: line, home, the agent it comes from or goes to, data, identity, and the timetable under which it
travels (11 R321). -/
structure Msg where
  kind : MKind
  ln : Nat
  home : Nat
  agent : Nat
  data : LineData
  who : Ident
  epoch : Nat
  deriving DecidableEq, Repr

/-- A line in an L3 slice. -/
structure L3Line where
  ln : Nat
  data : LineData
  dirty : Bool
  deriving DecidableEq, Repr

/-- A directory entry (10 R289): state X or S, pointers, overflow, and the way it stands in. -/
structure DirEnt where
  x : Bool
  ptrs : List Nat
  ovf : Bool
  way : Nat
  deriving DecidableEq, Repr

/-- A range a home holds requests for (10 R280, R300, 15 R394). -/
structure Hold where
  lo : Nat
  hi : Nat
  /-- 0 clean or 1 flush for a hart, 2 a change of homes, 3 a share moving back (`lo` its stop), 4 a sealing sweep -/
  kind : Nat
  /-- of a sealing sweep, the L3 ways it takes, and 2^24 times the directory ways (14 R377); of a hart's operation, the
  hart -/
  ways : Nat
  /-- the sweep of this home is done -/
  done : Bool
  deriving DecidableEq, Repr

/-- A home: L3 slice, directory slice and its transactions. -/
structure Home where
  /-- L3 lines by 24·set + way -/
  l3 : Tab L3Line
  /-- directory entries by line -/
  dir : Tab DirEnt
  txns : List HTxn
  /-- requests waiting in trackers, oldest first -/
  waitq : List HReq
  holds : List Hold
  deriving DecidableEq, Repr

/-- An empty home. -/
def Home.empty : Home := ⟨[], [], [], [], []⟩

/-- A line in a cluster's L2 (10 R284, R285, 14 R369). -/
structure L2Line where
  ln : Nat
  st : Grant
  age : Nat
  data : LineData
  who : Ident
  deriving DecidableEq, Repr

/-- A set of an L1 (10 R282): the lines in its 16 ways and the 15 bits of its replacement tree
(notes/assumptions/102.md). Data stands in the L2, which includes the L1s (R284). -/
structure L1Set where
  ways : Tab Nat
  tree : Nat
  deriving DecidableEq, Repr

/-- An empty set. -/
def L1Set.empty : L1Set := ⟨[], 0⟩

/-- An evicted line awaiting WB_ACK (10 R295): whether it was dirty, whether the home has its data, and whether its message
has been sent (11 R316). -/
structure EvEnt where
  ln : Nat
  dirty : Bool
  data : LineData
  who : Ident
  taken : Bool
  sent : Bool
  deriving DecidableEq, Repr

/-- A cluster's outstanding request (10 R295). -/
structure CReq where
  kind : ReqKind
  ln : Nat
  who : Ident
  stream : Bool
  /-- accepted by the home -/
  sent : Bool
  deriving DecidableEq, Repr

/-- A hart's access to a cacheable line, as it is performed in the cluster. -/
inductive HAcc where
  /-- `size` bytes at `off` become bits from `shift` up of a value of `total` bytes; the part that comes last writes rd -/
  | load (rd size : Nat) (signed : Bool) (off shift total : Nat)
  | store (off : Nat) (bytes : List Byte)
  | amo (op : AmoOp) (rd size off : Nat) (val : Nat)
  | lr (rd size off : Nat)
  | sc (rd size off : Nat) (val : Nat)
  | zero
  /-- CBO.CLEAN, CBO.FLUSH and CBO.INVAL -/
  | cmo (flush : Bool)
  | prefetch (kind : ReqKind)
  deriving DecidableEq, Repr

/-- An access waiting in its cluster. -/
structure Wait where
  hart : Nat
  ln : Nat
  acc : HAcc
  who : Ident
  va : Nat
  len : Nat
  deriving DecidableEq, Repr

/-- A snoop a cluster holds (10 R296). -/
structure HeldSnp where
  kind : SnpKind
  ln : Nat
  home : Nat
  who : Ident
  deriving DecidableEq, Repr

/-- A cluster's L2 and what it has outstanding. -/
structure Cluster where
  /-- L2 lines by 16·(2048·bank + set) + way -/
  l2 : Tab L2Line
  evict : List EvEnt
  reqs : List CReq
  waits : List Wait
  held : List HeldSnp
  /-- recent demand-miss lines for stream detection: line, direction, misses seen (12 R335) -/
  streams : List (Nat × Bool × Nat)
  /-- sets of the L1s by 32·cache + set; caches 0 to 5 are the L1Ds and 6 to 11 the L1Is of the cores (10 R282, R284) -/
  l1 : Tab L1Set
  /-- lines that PREFETCH.I and the L1D prefetchers have asked for, with the L1 that is to hold them -/
  ipre : List (Nat × Nat)
  /-- the line of each L1D's last miss, which trains its prefetcher (12 R335) -/
  dmiss : Tab Nat
  deriving DecidableEq, Repr

/-- A cluster with empty caches. -/
def Cluster.empty : Cluster := ⟨[], [], [], [], [], [], [], [], []⟩

/-! ### The package: modes, resets, power, management (16 to 18, 20) -/

/-- An order for a mode (16 R396): the SRC code of its master, the identity behind it, the target. -/
structure ModeOrd where
  src : Nat
  who : Ident
  target : Nat
  deriving DecidableEq, Repr

/-- A power request waiting for the decision slot (18 R449). -/
structure PowerOrd where
  src : Nat
  who : Ident
  code : Nat
  unit : Nat
  value : Nat
  deriving DecidableEq, Repr

/-- A low-power order that won and waits for the conditions of 16 R399: target and the masters that asked. -/
structure LowWait where
  target : Nat
  srcs : List Nat
  deriving DecidableEq, Repr

/-- A unit being powered down or up (18 R450) and the masters that asked. -/
structure UnitMove where
  unit : Nat
  up : Bool
  srcs : List Nat
  deriving DecidableEq, Repr

/-- A reset asserted while an MRAM write pulse was in progress (17 R415). -/
inductive RstWait where
  | powerOn (aon : Bool)
  | cold
  | warm
  deriving DecidableEq, Repr

/-- A firmware update session (20 R493): source number, image size, bytes received, state (1 RECEIVING, 2 VERIFYING,
3 READY). -/
structure FwSess where
  src : Nat
  total : Nat
  got : Nat
  state : Nat
  deriving DecidableEq, Repr

/-- The PMC (20). -/
structure Pmc where
  /-- held requests by source: 0 and 1 the mailbox sets, 2 the sideband, 3 + p Finxis port p -/
  req : Tab (List Byte)
  /-- update sessions by image kind, 1 PMC and 2 monitor -/
  fw : Tab (Option FwSess)
  /-- result of the last verification by kind, a management status code -/
  fwRes : Tab Nat
  /-- a commanded restart is due -/
  restart : Bool
  /-- the ROM image runs -/
  rom : Bool
  /-- VERSION and SVN of the image in force, by kind -/
  inForce : Tab (Nat × Nat)
  /-- SEQ of the next log record -/
  logSeq : Nat
  /-- log records the PMC writes when it next runs: type and data -/
  logWait : List (Nat × List Byte)
  /-- sensor readings in 1/16 degree, by sensor -/
  sens : Tab Int
  /-- WARN and COLD thresholds changed from 110 and -45 degrees -/
  limits : Tab (Int × Int)
  /-- the sideband address in force, and the one the MIDNIGHT comparator matches -/
  addr : Nat
  cmpAddr : Nat
  deriving DecidableEq, Repr

/-- The save list (18 R452): register records by offset, and the configuration of both APLICs. -/
structure SaveList where
  regs : Tab Word
  aplicS : Aplic
  aplicN : Aplic
  deriving DecidableEq, Repr

/-- Package-level state outside the register window. -/
structure Pkg where
  /-- main supplies good; standby rails good; PWR_MAIN_EN high; THERMTRIP# low -/
  supplies : Bool
  standby : Bool
  mainEn : Bool
  thermLow : Bool
  /-- the trip that drove THERMTRIP# low changed the mode -/
  thermMode : Bool
  /-- straps sampled (17 R434) -/
  forceSiding : Bool
  testEn : Bool
  /-- compute dies as they latched their straps -/
  dies : Tab (Option DieSite)
  /-- widest reach asserted since the domains entered reset: 1 power-on, 2 cold, 3 warm (17 R419) -/
  reach : Nat
  /-- the option loader has put its record in force since this entry to DAWN -/
  loaded : Bool
  /-- domains in reset -/
  held : List Domain
  /-- a reset assertion waiting for an MRAM pulse -/
  rstWait : Option RstWait
  /-- channels that have yet to enter self-refresh under a warm-reach source, and those whose contents are lost -/
  srWait : List Nat
  lost : List Nat
  /-- warm-up under way -/
  warmup : Bool
  /-- the I/O die and base passed self-test; the firmware is authenticated -/
  selfTest : Bool
  authed : Bool
  /-- a power-on or PKG_COLD# reset has come since the last option load, which then latches ROLE (00 R3) -/
  roleDue : Bool
  /-- PKG_COLD# and PKG_WARM# have been recognised low, and have not been seen high since (17 R414) -/
  coldPin : Bool
  warmPin : Bool
  /-- the SRC code of the master whose order wakes the package from NIGHT, 0 for a wake source (16 R395) -/
  wakeSrc : Nat
  /-- orders that hardware protection overrode: the order's SRC code, its target, and the SRC code recorded against it (16
  R406) -/
  overruled : List (Nat × Nat × Nat)
  /-- a committed update restarts the package once every sensor reads below 115 degrees (17 R417) -/
  restartDue : Bool
  /-- cold-latched options were loaded and the first DEPOT after that load is still to come (17 R429) -/
  coldLoad : Bool
  /-- ndmreset held by the debug module, with the reach it took; harts held by hartreset -/
  ndm : Option (Nat × Nat)
  hartRst : List Nat
  /-- edge windows in a row in which each clock's monitor saw the clock good (18 R437) -/
  good : Tab Nat
  /-- the reason and master of the transition under way -/
  moveCause : Nat
  moveSrc : Nat
  /-- the package is on its way out of MIDNIGHT -/
  midWake : Bool
  orders : List ModeOrd
  powers : List PowerOrd
  lows : List LowWait
  moves : List UnitMove
  /-- unit reset requests under way: RCC_RST_REQ number, KIND, INDEX -/
  rsts : List (Nat × Nat × Nat)
  /-- the watchdog has passed half its timeout -/
  wdogHalf : Bool
  /-- engine slices issue on alternate cycles (18 R446) -/
  altIssue : Bool
  /-- channels in self-refresh for MEM_IDLE -/
  idleSr : List Nat
  /-- the save list held in the AOM -/
  save : Option SaveList
  /-- wake sources held until sensor 96 is cool (17 R417), or that fired while an entry was under way (18 R456) -/
  wakeHeld : Bool
  /-- level wake inputs that are low: bit 0 WAKE#, bit 1 + p FX_WAKE# of port p -/
  wakeLow : Nat
  /-- bids waiting for the next round, by die, in 0.25 W (18 R443) -/
  bids : Tab Nat
  /-- grants on their way to the dies -/
  grants : Tab Nat
  /-- what boot code logs for which the manual gives no record type: gateway codes (14 R375, 17 R429), 0x100 + d for die d
  failing self-test (17 R433) or refused (01 R29), 0x200 + 16·n + code for a bifurcation code of port n (08 R256), and what 08 R259 has logged: 0x300 + j for a CXL device of
  link j left in CXL.io, 0x400 + j for the removal of one of its memory devices; 0x500 + c for cluster c held at self-test (17 R419) -/
  ldrLog : List Nat
  /-- fenced dies that the PMC has powered and tested for re-admission (16 R411) -/
  readied : List Nat
  /-- units DUSK gated -/
  duskGated : List Nat
  /-- the memory channels the board populates, as a mask (09 R275) -/
  dimms : Nat
  deriving DecidableEq, Repr

/-! ### Configuration transactions (15) -/

/-- A configuration transaction (15 R386 to R393): world, tag, whether one RWS write formed it, staged bits by register
(value and mask), and whether the staging space overflowed. -/
structure Txn where
  world : World
  tag : Nat
  implicit : Bool
  staged : Tab (Nat × Nat)
  full : Bool
  deriving DecidableEq, Repr

/-- The configuration transaction unit. -/
structure Ctu where
  openN : Option Txn
  openS : Option Txn
  /-- committed or implicit transactions of both worlds waiting for their turn, oldest first -/
  waiting : List Txn
  /-- the transaction being checked or applied -/
  active : Option Txn
  applying : Bool
  /-- blocks that have yet to be told, and blocks that have yet to apply -/
  todo : List Block
  sent : List Block
  /-- firewalls that hold the new table while others still hold the old one (09 R279) -/
  fw : List Nat
  deriving DecidableEq, Repr

/-- No transaction. -/
def Ctu.reset : Ctu := ⟨none, none, [], none, false, [], [], []⟩

/-- What the routers hold (11 R308, R312, 19 R464). -/
structure Fabric where
  /-- the flits in the buffers of each virtual channel of each class of an input port, by `bufKey`, oldest first -/
  bufs : Tab (List Flit)
  /-- failures in a row of the flit at an output link, by 4·router + output -/
  fails : Tab Nat
  /-- packets that hold a virtual channel of an output, or an injection port: its `outKey`, and the last flit that passed -/
  part : List (Nat × Flit)
  /-- packets of which a router discards what still arrives: the router, and the header (11 R324, R325) -/
  cut : List (Nat × Flit)
  /-- headers of packets that a closing flit ends -/
  closed : List Flit
  /-- headers of packets partly ejected, and the FCLK count at which their first flit was -/
  heads : List (Flit × Nat)
  /-- the arbiters of the outputs (11 R323): the pointer, and the lost decisions of the requesters that lost the last one, by
  `outKey` -/
  arb : Tab (Nat × List (Nat × Nat))
  /-- MGT requests that await their answer: source stop, agent and destination stop (11 R316) -/
  mgt : List (Nat × Nat × Nat)
  deriving DecidableEq, Repr

/-- Routers with nothing in them. -/
def Fabric.reset : Fabric := ⟨[], [], [], [], [], [], [], []⟩

/-- The registers of an interrupt file besides its pending bits (12 R336, the Advanced Interrupt Architecture). -/
structure FileCtl where
  /-- eidelivery -/
  deliver : Bool
  /-- eithreshold -/
  threshold : Nat
  /-- eie: bit i enables identity i -/
  enabled : Nat
  deriving DecidableEq, Repr

/-- A file that delivers nothing. -/
def FileCtl.reset : FileCtl := ⟨false, 0, 0⟩

/-- The package. -/
structure State where
  /-- the registers of the window, by offset; unlisted registers hold their reset value -/
  regs : Tab Word
  /-- edge events raised and not yet presented to an APLIC, oldest first (19 R471) -/
  wires : List Nat
  /-- the secure world's APLIC (12 R337) -/
  aplicS : Aplic
  /-- the normal world's APLIC (12 R337) -/
  aplicN : Aplic
  /-- pending bits of the interrupt files (12 R336): file number times 2048 plus identity -/
  imsic : Tab Bool
  /-- the other registers of the interrupt files (12 R336), by file number -/
  files : Tab FileCtl
  /-- memory behind every populated address, by physical address; an unlisted byte is zero (09 R274) -/
  mem : Tab Byte
  /-- error patterns of damaged or poisoned lines, by line number (09 R265, R267) -/
  dmg : Tab (List Byte)
  /-- writes accepted by controllers and ports and not yet issued, oldest first -/
  wq : List WqEntry
  /-- PCIe and CXL links by segment -/
  links : Tab Link
  /-- the option record whose cold-latched fields are in force (17 R429); empty before the first load -/
  coldOpt : List Byte
  /-- the 64 homes -/
  homes : Tab Home
  /-- the 36 clusters' caches -/
  clusters : Tab Cluster
  /-- coherence messages in flight, oldest first -/
  net : List Msg
  /-- packets injected and not yet ejected, by epoch (11 R321) -/
  pkts : Tab Nat
  /-- SNP and XCH credits in use (11 R317, 05 R184), by 32·(64·sender + receiver) + stage, stage 0 for XCH -/
  credits : Tab Nat
  /-- the routers -/
  fabric : Fabric
  /-- the 216 harts -/
  harts : Tab Hart
  /-- doorbell lines of the watch cache that an invalidation has reached and that are still to be read again (06 R199) -/
  dbInval : List Nat
  /-- doorbell lines held in the watch cache in state Shared (06 R198) -/
  watch : List Nat
  /-- the engine: ring manager, slices, scan fronts, operations in flight -/
  eng : Eng
  /-- the data-mover channels -/
  dm : Tab DmCh
  /-- the Finxis ports -/
  fx : Tab FxPort
  /-- configuration transactions -/
  ctu : Ctu
  /-- modes, resets, clocks and power -/
  pkg : Pkg
  /-- the management controller -/
  pmc : Pmc
  /-- MRAM (20 R478) by offset -/
  mram : Tab Byte
  /-- SPI boot flash by offset -/
  flash : Tab Byte
  /-- refusals logged where they arise (01 R21, 09 R278, 11 R311): identity, address, write -/
  fwLog : List (Ident × Nat × Bool)
  /-- the answer to the last register access -/
  resp : Resp
  /-- what the package has sent to the outside, oldest first -/
  out : List OutMsg
  /-- the model's own counter: how many free values have been drawn -/
  free : Nat
  /-- commands waiting, first in first out -/
  pending : List Instr
  deriving DecidableEq, Repr

/-- Every domain in reset but those that run. -/
def allDomains : List Domain :=
  [.sens, .iso, .pmc, .base, .port, .mem] ++ List.map .die (List.finRange 12) ++ List.map .clu (List.finRange 36)

/-- Package-level state right after power-on reset: supplies not yet reported good, every domain but AON and DBG held
(notes/assumptions/5.md). -/
def Pkg.reset : Pkg where
  supplies := false
  standby := true
  mainEn := true
  thermLow := false
  thermMode := false
  forceSiding := false
  testEn := false
  dies := []
  reach := 1
  loaded := false
  held := allDomains
  rstWait := none
  srWait := []
  lost := []
  warmup := false
  selfTest := false
  authed := false
  roleDue := true
  coldPin := false
  warmPin := false
  wakeSrc := 0
  overruled := []
  restartDue := false
  coldLoad := false
  ndm := none
  hartRst := []
  good := []
  moveCause := 0
  moveSrc := 0
  midWake := false
  orders := []
  powers := []
  lows := []
  moves := []
  rsts := []
  wdogHalf := false
  altIssue := false
  idleSr := []
  save := none
  wakeHeld := false
  wakeLow := 0
  bids := []
  grants := []
  ldrLog := []
  readied := []
  duskGated := []
  dimms := 0

/-- What an erased byte of the SPI NOR boot flash reads. -/
abbrev erased : Byte := 0xFF

/-- The PMC before its first start: nothing held, sideband address 0x2C (20 R482), no reading taken. -/
def Pmc.reset : Pmc where
  req := []
  fw := []
  fwRes := []
  restart := false
  rom := false
  inForce := []
  logSeq := 0
  logWait := []
  sens := []
  limits := []
  addr := 0x2C
  cmpAddr := 0x2C

/-- The package right after power-on reset. -/
def State.reset : State where
  regs := []
  wires := []
  aplicS := ⟨false, []⟩
  aplicN := ⟨false, []⟩
  imsic := []
  files := []
  mem := []
  dmg := []
  wq := []
  links := []
  coldOpt := []
  homes := []
  clusters := []
  net := []
  pkts := []
  credits := []
  fabric := Fabric.reset
  harts := []
  dbInval := []
  watch := []
  eng := Eng.reset
  dm := []
  fx := []
  ctu := Ctu.reset
  pkg := Pkg.reset
  pmc := Pmc.reset
  mram := []
  flash := []
  fwLog := []
  resp := .none
  out := []
  free := 0
  pending := []

end Sys2Proof.Machine
end

