-- ==== Sys2Proof/Machine/Ops.lean ====
section
/-! DEFINITION. Named operations every family uses: reading and writing registers of the window, free values,
raising events, and recording isolation violations. -/

namespace Sys2Proof.Machine
open Sys2Proof

/-! ### Registers -/

/-- The active value of a register. -/
def State.rdW (s : State) (off : Nat) : Word := Tab.get (resetWord off) s.regs off

/-- The active value of a field. -/
def State.rd (s : State) (off : Nat) (f : Fld) : Nat := bitsOf (s.rdW off).toNat f.hi f.lo

/-- Set the active value of a register. -/
def State.wrW (s : State) (off : Nat) (v : Word) : State :=
  { s with regs := Tab.put (resetWord off) s.regs off v }

/-- Set the active value of a field. -/
def State.wr (s : State) (off : Nat) (f : Fld) (v : Nat) : State :=
  s.wrW off (BitVec.ofNat 64 (setBits (s.rdW off).toNat f.hi f.lo v))

/-- Set several fields of one register. -/
def State.wrs (s : State) (off : Nat) (l : List (Fld × Nat)) : State :=
  l.foldl (fun s p => s.wr off p.1 p.2) s

/-- Whether a one-bit field is 1. -/
def State.on (s : State) (off : Nat) (f : Fld) : Bool := s.rd off f == 1

/-- Put a register back to its reset value. -/
def State.rstW (s : State) (off : Nat) : State := s.wrW off (resetWord off)

/-- Add to a counting field, wrapping at its width. -/
def State.addF (s : State) (off : Nat) (f : Fld) (n : Nat) : State := s.wr off f (s.rd off f + n)

/-- Add to a counting field, saturating at its width. -/
def State.satF (s : State) (off : Nat) (f : Fld) (n : Nat) : State :=
  s.wr off f (satAdd (2 ^ (f.hi + 1 - f.lo) - 1) (s.rd off f) n)

/-! ### Free values, answers, messages -/

/-- Draw a fresh value the manual does not state. -/
def State.draw (s : State) : Nat × State := (Config.free s.free, { s with free := s.free + 1 })

/-- Record the answer to an access. -/
def State.answer (s : State) (r : Resp) : State := { s with resp := r }

/-- Send something to the outside. -/
def State.send (s : State) (m : OutMsg) : State := { s with out := s.out ++ [m] }

/-- Run an operation on the state that answers a value, as a step that may stop. -/
def askSt {ε α : Type} (f : State → α × State) : ExceptT ε (StateM State) α := modifyGet f

/-! ### Identities -/

/-- The monitor's identity: PID 0 in world S (14). -/
def monitor : Ident := ⟨0, .s⟩

/-- The world a partition belongs to (14 R365, R366): PID 0 is always in world S. -/
def State.pidWorld (s : State) (p : Nat) : World :=
  if p = 0 then .s else worldOf (b2n (bitAt (s.rdW Reg.ISO_PART_WORLD).toNat p))

/-- Whether a unit of *Owner units* is secure-owned (14 R379). -/
def State.secOwned (s : State) (u : Nat) : Bool := s.on (Reg.ISO_OWN u) F.ISO_OWN_WORLD

/-- Whether any partition is sealed (14 R378). -/
def State.anySealed (s : State) : Bool := s.rd Reg.ISO_SEALED F.ISO_SEALED_SEALED != 0

/-- Whether partition p is sealed. -/
def State.sealedP (s : State) (p : Nat) : Bool := p != 0 && bitAt (s.rdW Reg.ISO_SEALED).toNat p

/-! ### Modes, MRAM and the retained log -/

/-- The current mode (16 R395). -/
def State.mode (s : State) : Nat := s.rd Reg.PKG_MODE F.PKG_MODE_CURRENT

/-! Mode codes of *Operating modes* (16 R395). -/
namespace MD
abbrev dark : Nat := 0
abbrev dawn : Nat := 1
abbrev morning : Nat := 2
abbrev depot : Nat := 3
abbrev mainline : Nat := 4
abbrev dusk : Nat := 5
abbrev night : Nat := 6
abbrev midnight : Nat := 7
abbrev caution : Nat := 8
abbrev siding : Nat := 9
abbrev workshop : Nat := 10
abbrev bufferStop : Nat := 11
end MD

/-- Whether a transition is under way. -/
def State.moving (s : State) : Bool := s.on Reg.PKG_MODE F.PKG_MODE_MOVING

/-- Whether the PMC runs (20 R495): in DEPOT, MAINLINE, DUSK, NIGHT, CAUTION, SIDING, WORKSHOP and BUFFER STOP. -/
def State.pmcRuns (s : State) : Bool := [3, 4, 5, 6, 8, 9, 0xA, 0xB].contains s.mode && !s.pkg.held.contains .pmc

/-- Bytes of MRAM (20 R478). -/
def State.mramAt (s : State) (off n : Nat) : List Byte := (List.range n).map (fun i => Tab.get 0 s.mram (off + i))

/-- Write bytes of a table of bytes. -/
def putRun : Tab Byte → Nat → List Byte → Tab Byte
  | m, _, [] => m
  | m, a, b :: t => putRun (Tab.put 0 m a b) (a + 1) t

/-- Write bytes of MRAM, each 64-bit word in one pulse. -/
def State.setMram (s : State) (off : Nat) (l : List Byte) : State := { s with mram := putRun s.mram off l }

/-- MRAM offset of log record `q` (20 R490). -/
def logOff (q : Nat) : Nat := 0x2000 + 64 * (q % 32640)

/-- Write a record of the retained log (20 R490). -/
def State.logNow (s : State) (ty : Nat) (data : List Byte) : State :=
  let q := s.pmc.logSeq
  let body := leBytes 4 q ++ [BitVec.ofNat 8 ty, BitVec.ofNat 8 s.mode, 0, 0] ++
    leBytes 8 (s.rdW Reg.PWR_RTC).toNat ++ fitB 44 data
  let s := s.setMram (logOff q) (body ++ leBytes 4 (crc32c body))
  { s with pmc := { s.pmc with logSeq := (q + 1) % 2 ^ 32 } }

/-- Log an event: at once while the PMC runs, and otherwise when it next runs (17 R417). -/
def State.log (s : State) (ty : Nat) (data : List Byte) : State :=
  if s.pmcRuns then s.logNow ty data
  else { s with pmc := { s.pmc with logWait := s.pmc.logWait ++ [(ty, data)] } }

/-- A register as the eight bytes of a log record. -/
def State.regBytes (s : State) (off : Nat) : List Byte := leBytes 8 (s.rdW off).toNat

/-! ### Events -/

/-- Raise an edge event source (19 R471). -/
def State.raise (s : State) (k : Nat) : State := { s with wires := s.wires ++ [k] }

/-- Record an isolation violation (14 R365, R371 to R374, R380): the first fills the record, a later one while VALID
is 1 sets MORE. -/
def State.viol (s : State) (kind : Nat) (who : Ident) (addr : Nat) : State :=
  if s.on Reg.ISO_VIOL F.ISO_VIOL_VALID then s.wr Reg.ISO_VIOL F.ISO_VIOL_MORE 1
  else
    let s := s.wrs Reg.ISO_VIOL
      [(F.ISO_VIOL_VALID, 1), (F.ISO_VIOL_MORE, 0), (F.ISO_VIOL_KIND, kind), (F.ISO_VIOL_WORLD, worldBit who.world),
       (F.ISO_VIOL_PID, who.pid), (F.ISO_VIOL_ADDR, addr / 8)]
    if s.pmcRuns then s.logNow 6 (s.regBytes Reg.ISO_VIOL) else s

/-- Log a refusal of the network (01 R21, 09 R278, 11 R311, R326). -/
def State.logFw (s : State) (who : Ident) (addr : Nat) (write : Bool) : State :=
  { s with fwLog := s.fwLog ++ [(who, addr, write)] }

/-- Add to a unit counter (21 R497, R498): nothing while PMON_CTRL.FREEZE is 1; with the block's filter enabled, only an
event that carries the filter's identity. -/
def State.pmcAdd (s : State) (filt cnt : Nat) (who : Option Ident) (n : Nat) : State :=
  let okId := !s.on filt F.SLC_PMF_EN ||
    (match who with
     | some w => w.pid == s.rd filt F.SLC_PMF_PID && worldBit w.world == s.rd filt F.SLC_PMF_WORLD
     | none => false)
  if s.on Reg.PMON_CTRL F.PMON_CTRL_FREEZE || !okId then s
  else s.wrW cnt (s.rdW cnt + BitVec.ofNat 64 n)

/-- Count event `k` of a stop. -/
def State.pmcStop (s : State) (t k : Nat) (who : Option Ident) : State :=
  s.pmcAdd (Reg.STP_PMF t) (Reg.STP_PMC t k) who 1

/-- Count event `k` of a memory channel. -/
def State.pmcMch (s : State) (m k : Nat) (who : Option Ident) : State :=
  s.pmcAdd (Reg.MCH_PMF m) (Reg.MCH_PMC m k) who 1

/-- Count `n` of event `k` of an engine slice. -/
def State.pmcSlc (s : State) (n k : Nat) (who : Option Ident) (x : Nat) : State :=
  s.pmcAdd (Reg.SLC_PMF n) (Reg.SLC_PMC n k) who x

/-- The list of numbers below `n` satisfying a test. -/
def below (n : Nat) (p : Nat → Bool) : List Nat := (List.range n).filter p

/-- Apply an update for each number below `n`. -/
def State.forAll (s : State) (n : Nat) (f : Nat → State → State) : State :=
  (List.range n).foldl (fun s i => f i s) s

end Sys2Proof.Machine
end

