-- ==== Sys2Proof/Machine/Flags.lean ====
section
/-! DEFINITION. Error records (19 R458 to R467), the conditions and owners of the 512 event sources (19 R470 to R475),
and delivery of interrupts to the interrupt files (12 R336, 14 R373, 19 R476). -/

namespace Sys2Proof.Machine
open Sys2Proof

/-! ### Error records -/

/-- The bank and number of an error record (19 R467). -/
inductive ErrRec where
  /-- record r of the slice and cluster bank of cluster n -/
  | slice (n r : Nat)
  /-- record r of the stop bank of stop t -/
  | stop (t r : Nat)
  /-- record r of the package bank -/
  | pkg (r : Nat)
  deriving DecidableEq, Repr

/-- Offset of the ERR_STATUS of a record; ERR_ADDR and ERR_MISC follow at 8 and 16. -/
def ErrRec.off : ErrRec → Nat
  | .slice n r => Reg.SLC_ERR_STATUS n r
  | .stop t r => Reg.STP_ERR_STATUS t r
  | .pkg r => Reg.PKB_ERR_STATUS r

/-- What an error record holds. -/
structure ErrInfo where
  /-- class code: 1 CE, 2 UC_POISON, 3 UC_CONSUMED, 4 FATAL_UNIT, 5 FATAL_PKG (19 R458) -/
  cls : Nat
  who : Ident
  source : Nat
  isIndex : Bool
  addr : Nat
  way : Nat
  synd : Nat
  deriving DecidableEq, Repr

/-- The identity of an error that has none. -/
def noIdent : Ident := ⟨0, .n⟩

/-- Bank, instance and record number as a log record names them (20 R490). -/
def ErrRec.logBytes : ErrRec → List Byte
  | .slice n r => [1, BitVec.ofNat 8 n, BitVec.ofNat 8 r]
  | .stop t r => [2, BitVec.ofNat 8 t, BitVec.ofNat 8 r]
  | .pkg r => [3, 0, BitVec.ofNat 8 r]

/-- The log data of an error record (20 R490). -/
def State.errLog (s : State) (r : ErrRec) : List Byte :=
  fitB 8 r.logBytes ++ s.regBytes r.off ++ s.regBytes (r.off + 8) ++ s.regBytes (r.off + 16)

/-- The log data of a memory channel's error record. -/
def State.mchLog (s : State) (m : Nat) : List Byte :=
  fitB 8 [4, BitVec.ofNat 8 m, 0] ++ s.regBytes (Reg.MCH_ERR_INFO m) ++ s.regBytes (Reg.MCH_ERR_ADDR m)

/-- Whether the PMC logs filled records as they come: in MAINLINE, DUSK and NIGHT (20 R490). -/
def State.logsErrors (s : State) : Bool := s.pmcRuns && [4, 5, 6].contains s.mode

/-- Fill an error record whole, keeping CE_COUNT (19 R466); records of class UC_POISON or higher are logged. -/
def State.fillErr (s : State) (r : ErrRec) (e : ErrInfo) (more : Nat) : State :=
  let o := r.off
  let s := s.wrs o [(F.SLC_ERR_STATUS_VALID, 1), (F.SLC_ERR_STATUS_MORE, more), (F.SLC_ERR_STATUS_CLASS, e.cls),
    (F.SLC_ERR_STATUS_WORLD, worldBit e.who.world), (F.SLC_ERR_STATUS_PID, e.who.pid),
    (F.SLC_ERR_STATUS_SOURCE, e.source)]
  let s := s.wrs (o + 8) [(F.SLC_ERR_ADDR_IS_INDEX, b2n e.isIndex), (F.SLC_ERR_ADDR_ADDR, e.addr)]
  let s := s.wrs (o + 16) [(F.SLC_ERR_MISC_WAY, e.way), (F.SLC_ERR_MISC_SYNDROME, e.synd)]
  if 2 ≤ e.cls && s.logsErrors then s.logNow 1 (s.errLog r) else s

/-- Record an error (19 R466): an empty record is filled, a higher class replaces the held record and sets MORE, any
other error sets MORE; CE_COUNT gains one for each corrected check unit whatever VALID is. -/
def State.recordErr (s : State) (r : ErrRec) (e : ErrInfo) : State :=
  let o := r.off
  let s := if e.cls = 1 then s.satF o F.SLC_ERR_STATUS_CE_COUNT 1 else s
  if !s.on o F.SLC_ERR_STATUS_VALID then s.fillErr r e 0
  else if s.rd o F.SLC_ERR_STATUS_CLASS < e.cls then s.fillErr r e 1
  else s.wr o F.SLC_ERR_STATUS_MORE 1

/-- Record an error of memory channel `m` (09 R277): `ue` uncorrectable, `src` its SOURCE, the devices in error and the
line address; the event is raised for every recorded or lost error. -/
def State.recordMem (s : State) (m : Nat) (ue : Bool) (src devMask addr : Nat) : State :=
  let o := Reg.MCH_ERR_INFO m
  let fill (s : State) : State :=
    let s := (s.wrs o [(F.MCH_ERR_INFO_VALID, 1), (F.MCH_ERR_INFO_CLASS, if ue then 2 else 1),
        (F.MCH_ERR_INFO_SOURCE, src), (F.MCH_ERR_INFO_DEV_MASK, if ue then 0 else devMask)]).wr
      (Reg.MCH_ERR_ADDR m) F.MCH_ERR_ADDR_ADDR (addr / 128)
    if ue && s.logsErrors then s.logNow 1 (s.mchLog m) else s
  let s :=
    if !s.on o F.MCH_ERR_INFO_VALID then fill s
    else if ue && s.rd o F.MCH_ERR_INFO_CLASS == 1 then fill s
    else s.wr o F.MCH_ERR_INFO_LOST 1
  s.raise (if ue then 17 + m else 1 + m)

/-! ### Event sources -/

/-- Whether an event source is of level type (19 R472). -/
def evtIsLevel (k : Nat) : Bool :=
  (33 ≤ k && k ≤ 160) || (225 ≤ k && k ≤ 292) || (315 ≤ k && k ≤ 378) || k == 381 || k == 382 || k == 390 || k == 391

/-- Whether any record of a bank holds an error. -/
def State.bankHeld (s : State) (n : Nat) (off : Nat → Nat) : Bool :=
  (List.range n).any (fun r => s.on (off r) F.SLC_ERR_STATUS_VALID)

/-- The world of a context (06, CTX{c}_CFG.WORLD). -/
def State.ctxWorld (s : State) (c : Nat) : World := worldOf (s.rd (Reg.CTX_CFG c) F.CTX_CFG_WORLD)

/-- Whether any context of a group of 256, in a world, has its bit of four pending registers set (19 R474). -/
def State.ctxPend (s : State) (reg : Nat → Nat) (g : Nat) (w : World) : Bool :=
  (List.range 4).any (fun i =>
    let v := (s.rdW (reg (4 * g + i))).toNat
    v != 0 && (List.range 64).any (fun j => v.testBit j && s.ctxWorld (64 * (4 * g + i) + j) == w))

/-- Whether the condition of a level source holds (19 R472). -/
def State.evtCond (s : State) (k : Nat) : Bool :=
  if 33 ≤ k ∧ k ≤ 96 then s.bankHeld 8 (Reg.STP_ERR_STATUS (k - 33))
  else if 97 ≤ k ∧ k ≤ 160 then s.on (Reg.L3_LOCK_EVT (k - 97)) F.L3_LOCK_EVT_LOST
  else if 225 ≤ k ∧ k ≤ 260 then s.bankHeld 6 (Reg.SLC_ERR_STATUS (k - 225))
  else if 261 ≤ k ∧ k ≤ 292 then
    s.on (Reg.DM_ERR (k - 261)) F.DM_ERR_VALID || s.rd (Reg.DM_STATUS (k - 261)) F.DM_STATUS_STATE == 3
  else if 315 ≤ k ∧ k ≤ 330 then s.ctxPend Reg.EVT_RERR (k - 315) .n
  else if 331 ≤ k ∧ k ≤ 346 then s.ctxPend Reg.EVT_RERR (k - 331) .s
  else if 347 ≤ k ∧ k ≤ 362 then s.ctxPend Reg.EVT_TFLT (k - 347) .n
  else if 363 ≤ k ∧ k ≤ 378 then s.ctxPend Reg.EVT_TFLT (k - 363) .s
  else if k = 381 then s.on Reg.ISO_VIOL F.ISO_VIOL_VALID
  else if k = 382 then (List.range 16).any (fun i => s.on (Reg.ISO_DEFER i) F.ISO_DEFER_VALID)
  else if k = 390 then s.bankHeld 8 Reg.PKB_ERR_STATUS
  else if k = 391 then s.on Reg.RCC_CLK_LOSS F.RCC_CLK_LOSS_VALID
  else false

/-- Whether a source number exists in either APLIC (19 R470): 1 to 391. -/
def evtExists (k : Nat) : Bool := 1 ≤ k && k ≤ 391

/-- The owner world of a source (19 R472). -/
def State.evtOwner (s : State) (k : Nat) : World :=
  if evtSelectable k then worldOf (b2n (bitAt (s.rdW (Reg.EVT_WORLD (k / 64))).toNat (k % 64)))
  else if 97 ≤ k ∧ k ≤ 160 then worldOf (s.rd (Reg.L3_LOCK (k - 97)) F.L3_LOCK_WORLD)
  else if 261 ≤ k ∧ k ≤ 292 then worldOf (s.rd (Reg.DM_CFG (k - 261)) F.DM_CFG_WORLD)
  else if 293 ≤ k ∧ k ≤ 296 then worldOf (s.rd (Reg.FX_CFG (k - 293)) F.FX_CFG_WORLD)
  else if 297 ≤ k ∧ k ≤ 300 then worldOf (s.rd (Reg.FX_CFG (k - 297)) F.FX_CFG_WORLD)
  else if (315 ≤ k ∧ k ≤ 330) ∨ (347 ≤ k ∧ k ≤ 362) ∨ k = 380 ∨ k = 384 ∨ k = 389 then .n
  else .s

/-- The value a read of EVT_WORLD{i} returns (19 R473): the owner in force of each source that exists. -/
def State.evtWorldRead (s : State) (i : Nat) : Nat :=
  (List.range 64).foldl (fun a j =>
    if evtExists (64 * i + j) && s.evtOwner (64 * i + j) == .s then a + 2 ^ j else a) 0

/-- The APLIC of a world. -/
def State.aplic (s : State) : World → Aplic
  | .s => s.aplicS
  | .n => s.aplicN

/-- Replace the APLIC of a world. -/
def State.setAplic (s : State) (w : World) (a : Aplic) : State :=
  match w with
  | .s => { s with aplicS := a }
  | .n => { s with aplicN := a }

/-- A source of an APLIC. -/
def Aplic.get (a : Aplic) (k : Nat) : AplicSrc := Tab.get AplicSrc.off a.src k

/-- Replace a source of an APLIC. -/
def Aplic.put (a : Aplic) (k : Nat) (x : AplicSrc) : Aplic := { a with src := Tab.put AplicSrc.off a.src k x }

/-- Change the owner of a source (19 R475): it leaves the old APLIC and appears Inactive in the new one. -/
def State.ownerChanged (s : State) (k : Nat) : State :=
  { s with aplicS := s.aplicS.put k AplicSrc.off, aplicN := s.aplicN.put k AplicSrc.off }

/-! ### Interrupt files -/

/-- Number of the M-level file of a hart. -/
def mFile (h : Nat) : Nat := h
/-- Number of guest file `g` of a hart, its S-level file for `g = 0`. -/
def sFile (h g : Nat) : Nat := 216 + 8 * h + g

/-- The interrupt file whose page holds a window offset (12 R336). -/
def fileAt (off : Nat) : Option Nat :=
  if 0x4000000 ≤ off ∧ off < 0x4000000 + 0x1000 * 216 then some (mFile ((off - 0x4000000) / 0x1000))
  else if 0x4800000 ≤ off ∧ off < 0x4800000 + 0x8000 * 216 then
    some (sFile ((off - 0x4800000) / 0x8000) ((off - 0x4800000) % 0x8000 / 0x1000))
  else none

/-- The window offset of an interrupt file. -/
def fileOff (f : Nat) : Nat :=
  if f < 216 then 0x4000000 + 0x1000 * f else 0x4800000 + 0x1000 * (f - 216)

/-- The identity of ISO_HART{h}. -/
def State.isoHart (s : State) (h : Nat) : Ident :=
  ⟨s.rd (Reg.ISO_HART h) F.ISO_HART_PID, worldOf (s.rd (Reg.ISO_HART h) F.ISO_HART_WORLD)⟩

/-- Whether an identity may write an interrupt file (14 R373). -/
def State.fileReach (s : State) (f : Nat) (who : Ident) : Bool :=
  who == monitor || (216 ≤ f && who == s.isoHart ((f - 216) / 8))

/-- Whether an agent of a stop is fenced. -/
def State.fenced (s : State) (t a : Nat) : Bool := bitAt (s.rd (Reg.RTR_FENCE t) F.RTR_FENCE_AGENTS) a

/-- Hart of an interrupt file. -/
def fileHart (f : Nat) : Nat := if f < 216 then f else (f - 216) / 8

/-- Write an interrupt identity to a file (14 R373): pending when the identity rules allow it, otherwise dropped and
recorded with KIND 0b011. A fenced or powered-down cluster's files answer DOMAIN_OFF, which is logged (16 R408, 18 R454).
Identities 1 to 2,047 exist; any other write has no effect. -/
def State.msi (s : State) (who : Ident) (f eiid : Nat) : State :=
  if s.fenced (nthD clusterStops (fileHart f / 6) 0) 2 then s.logFw who (windowBase + fileOff f) true
  else if s.fileReach f who then
    if 1 ≤ eiid ∧ eiid ≤ 2047 then { s with imsic := Tab.put false s.imsic (2048 * f + eiid) true } else s
  else s.viol 3 who (windowBase + fileOff f)

/-- Send an MSI to a physical address (12 R336): a file's page, or nothing there. -/
def State.msiTo (s : State) (who : Ident) (addr eiid : Nat) : State :=
  if addr < windowBase then s
  else match fileAt (addr - windowBase) with
    | some f => s.msi who f eiid
    | none => s

/-- Whether any identity of a file is pending. -/
def State.filePending (s : State) (f : Nat) : Bool :=
  s.imsic.any (fun e => e.1 / 2048 == f && e.2)

/-- The registers of an interrupt file. -/
def State.fileCtl (s : State) (f : Nat) : FileCtl := Tab.get FileCtl.reset s.files f

/-- Replace the registers of an interrupt file. -/
def State.setFile (s : State) (f : Nat) (x : FileCtl) : State := { s with files := Tab.put FileCtl.reset s.files f x }

/-- The identity a file puts first: the lowest that is pending and enabled, and below eithreshold where that is not 0; 0 for
none (12 R336, the Advanced Interrupt Architecture). -/
def State.fileTop (s : State) (f : Nat) : Nat :=
  let c := s.fileCtl f
  (s.imsic.filterMap (fun e => if e.1 / 2048 = f ∧ e.2 = true then some (e.1 % 2048) else none)).foldl (fun a i =>
    if c.enabled.testBit i && (c.threshold == 0 || decide (i < c.threshold)) && (a == 0 || decide (i < a)) then i else a) 0

/-- Whether a file signals its hart: eidelivery is 1 and an identity comes first. -/
def State.fileSignals (s : State) (f : Nat) : Bool := (s.fileCtl f).deliver && s.fileTop f != 0

/-- Claim the identity a file puts first: its pending bit clears. -/
def State.fileClaim (s : State) (f : Nat) : State :=
  if s.fileTop f = 0 then s else { s with imsic := Tab.put false s.imsic (2048 * f + s.fileTop f) false }

/-- Write a register of a file by its select number: eidelivery 0x70, eithreshold 0x72, eip from 0x80 and eie from 0xC0, of 64
identities at each even number. -/
def State.fileWrite (s : State) (f sel v : Nat) : State :=
  let c := s.fileCtl f
  if sel = 0x70 then (if v ≤ 1 then s.setFile f { c with deliver := v == 1 } else s)
  else if sel = 0x72 then s.setFile f { c with threshold := v % 2048 }
  else if 0x80 ≤ sel ∧ sel < 0xC0 then
    let lo := 32 * (sel - 0x80)
    (List.range 64).foldl (fun s i =>
      if lo + i = 0 then s else { s with imsic := Tab.put false s.imsic (2048 * f + lo + i) (v.testBit i) }) s
  else if 0xC0 ≤ sel ∧ sel ≤ 0xFF then
    let lo := 32 * (sel - 0xC0)
    s.setFile f { c with enabled := setBits c.enabled (lo + 63) lo (if lo = 0 then v / 2 * 2 else v) }
  else s

/-- Send an MSI of an APLIC (19 R476). The target word holds a hart index in [31:18], a guest index in [17:12] and an
identity in [10:0]. The secure APLIC writes as PID 0 and world S; the normal world's writes as world N with the PID of the
target hart's ISO_HART, to S-level and guest files only. -/
def State.aplicSend (s : State) (w : World) (target : Nat) : State :=
  let h := bitsOf target 31 18
  let g := bitsOf target 17 12
  let id := bitsOf target 10 0
  let who : Ident := match w with
    | .s => monitor
    | .n => ⟨(s.isoHart h).pid, .n⟩
  if h < 216 ∧ g < 8 then s.msi who (sFile h g) id
  else if w = .s ∧ 0x2000 ≤ h ∧ h < 0x2000 + 216 ∧ g = 0 then s.msi who (mFile (h - 0x2000)) id
  else s.viol 3 who windowBase

/-- Deliver a pending, enabled source of an APLIC by MSI (19 R476). -/
def State.aplicDeliver (s : State) (w : World) (k : Nat) : State :=
  let a := s.aplic w
  let x := a.get k
  if x.pend && x.en && a.ie then (s.setAplic w (a.put k { x with pend := false })).aplicSend w x.target else s

/-- A source asserts or pulses at its owner APLIC (19 R471): an edge source in mode Edge1 and a level source in mode
Level1 whose condition holds become pending; a pulse that meets another mode is lost. -/
def State.present (s : State) (k : Nat) : State :=
  let w := s.evtOwner k
  let a := s.aplic w
  let x := a.get k
  let hit := if evtIsLevel k then s.evtCond k && x.sm == 6 else x.sm == 4
  if hit then (s.setAplic w (a.put k { x with pend := true })).aplicDeliver w k else s

end Sys2Proof.Machine
end

