-- ==== Sys2Proof/Machine/Memory.lean ====
section
/-! DEFINITION. The physical address map (01 R18 to R21), DRAM interleave and CXL windows (09 R271, R272), the memory
firewall (09 R278), and reading and writing whole lines with the line code and poison (09 R264 to R269, R276). -/

namespace Sys2Proof.Machine
open Sys2Proof

/-! ### The address map -/

/-- Option byte `k` of the record whose cold-latched fields are in force. -/
def State.optByte (s : State) (k : Nat) : Nat := (nthD s.coldOpt k 0).toNat

/-- Whether the package is in the attached role (17 R431). -/
def State.attached (s : State) : Bool := s.optByte 9 == 1

/-- First address above installed DRAM (09, MEM_MAP.TOP). -/
def State.top (s : State) : Nat := s.rd Reg.MEM_MAP F.MEM_MAP_TOP * 65536

/-- Widths and first lanes of a port's links by bifurcation code (08 R256). -/
def bifLinks : Nat → List (Nat × Nat)
  | 0 => [(16, 0)]
  | 1 => [(8, 0), (8, 8)]
  | 2 => [(8, 0), (4, 8), (4, 12)]
  | 3 => [(4, 0), (4, 4), (8, 8)]
  | 4 => [(4, 0), (4, 4), (4, 8), (4, 12)]
  | 5 => [(2, 0), (2, 2), (2, 4), (2, 6), (2, 8), (2, 10), (2, 12), (2, 14)]
  | _ => []

/-- The bifurcation code of port `n` (17 R427). -/
def State.bifCode (s : State) (n : Nat) : Nat := s.optByte (16 + n / 2) / (if n % 2 = 0 then 1 else 16) % 16

/-- Width of the link of PCI segment `j`, 0 where the bifurcation creates none (08 R256). -/
def State.linkWidth (s : State) (j : Nat) : Nat :=
  if j < 112 then ((bifLinks (s.bifCode (j / 8)))[j % 8]?).elim 0 Prod.fst else 0

/-- The link of a segment. -/
def State.link (s : State) (j : Nat) : Link := Tab.get Link.off s.links j

/-- Replace the link of a segment. -/
def State.setLink (s : State) (j : Nat) (l : Link) : State := { s with links := Tab.put Link.off s.links j l }

/-- Whether a link serves CXL.mem (08 R259): it runs it, and its device has not been removed. -/
def Link.serves (l : Link) : Bool := l.cxl && !l.removed

/-- What stands at a physical address (01 R18, R19). -/
inductive PaKind where
  | dram
  /-- behind CXL link `j` -/
  | cxl (j : Nat)
  /-- PCIe MMIO of the ECAM region or aperture of link `j` -/
  | mmio (j : Nat)
  /-- the register window -/
  | window
  /-- reserved, above the installed top, in no window, or unassigned -/
  | absent
  deriving DecidableEq, Repr

/-- Whether CXL window `w` covers an address (09 R272). -/
def State.cxlCovers (s : State) (w pa : Nat) : Bool :=
  s.on (Reg.CXLW_BASE w) F.CXLW_BASE_VALID &&
  decide (s.rd (Reg.CXLW_BASE w) F.CXLW_BASE_BASE ≤ pa / 2 ^ 30) &&
  decide (pa / 2 ^ 30 ≤ s.rd (Reg.CXLW_LIMIT w) F.CXLW_LIMIT_LIMIT)

/-- The link a CXL window sends an address to (09 R272). -/
def State.cxlLink (s : State) (w pa : Nat) : Nat :=
  let i := pa / 65536 % 2 ^ s.rd (Reg.CXLW_BASE w) F.CXLW_BASE_WAYS_LOG2
  bitsOf (s.rdW (Reg.CXLW_LINKS w)).toNat (8 * i + 7) (8 * i)

/-- The link whose ECAM region or aperture holds an MMIO address (08 R256, 14 R374): a valid aperture, or where there is
none the aperture that the registers of a link with VALID 0 name. Where the bifurcation makes no link, nothing is assigned
and the access is sent nowhere (01 R19). -/
def State.mmioLink (s : State) (pa : Nat) : Option Nat :=
  if 0x4000000000000 ≤ pa ∧ pa < 0x4000000000000 + 0x10000000 * 112 then
    let j := (pa - 0x4000000000000) / 0x10000000
    if s.linkWidth j = 0 then none else some j
  else
    let holds (v : Bool) (j : Nat) : Bool :=
      s.linkWidth j != 0 && s.on (Reg.ISO_LNK_CFG j) F.ISO_LNK_CFG_VALID == v &&
      decide (s.rd (Reg.ISO_LNK_APBASE j) F.ISO_LNK_APBASE_ADDR ≤ pa / 2 ^ 20) &&
      decide (pa / 2 ^ 20 ≤ s.rd (Reg.ISO_LNK_APLIMIT j) F.ISO_LNK_APLIMIT_ADDR)
    match (List.range 112).find? (holds true) with
    | some j => some j
    | none => (List.range 112).find? (holds false)

/-- Decode a physical address at the requester's stop (01 R18, R19, R20). -/
def State.paKind (s : State) (pa : Nat) : PaKind :=
  if pa < 0x80000000000 then (if pa < s.top then .dram else .absent)
  else if pa < 0x400000000000 then
    match (List.range 16).find? (fun w => s.cxlCovers w pa) with
    | some w => .cxl (s.cxlLink w pa)
    | none => .absent
  else if pa < 0x4000000000000 then .absent
  else if pa < 0xF000000000000 then
    match s.mmioLink pa with
    | some j => .mmio j
    | none => .absent
  else if windowBase ≤ pa ∧ pa < windowBase + 2 ^ 32 then .window
  else .absent

/-- Whether an address is memory: DRAM or CXL (01 R21). -/
def State.isMem (s : State) (pa : Nat) : Bool :=
  match s.paKind pa with
  | .dram => true
  | .cxl _ => true
  | _ => false

/-! ### Interleave (09 R271) -/

/-- log2 of the interleave granule. -/
def State.gran (s : State) : Nat := if s.rd Reg.MEM_MAP F.MEM_MAP_GRANULE = 1 then 12 else 16

/-- The memory channel of a DRAM address. -/
def State.chanOf (s : State) (pa : Nat) : Nat :=
  if s.rd Reg.MEM_MAP F.MEM_MAP_WAYS_LOG2 = 3 then 2 * (pa / 2 ^ s.gran % 8) else pa / 2 ^ s.gran % 16

/-- The offset of a DRAM address within its channel. -/
def State.chanOff (s : State) (pa : Nat) : Nat :=
  let g := s.gran
  let w := s.rd Reg.MEM_MAP F.MEM_MAP_WAYS_LOG2
  (pa / 2 ^ (g + w)) * 2 ^ g + pa % 2 ^ g

/-- The DRAM address at an offset of a channel. -/
def State.chanPa (s : State) (m off : Nat) : Nat :=
  let g := s.gran
  let w := s.rd Reg.MEM_MAP F.MEM_MAP_WAYS_LOG2
  let i := if w = 3 then m / 2 else m
  (off / 2 ^ g) * 2 ^ (g + w) + i * 2 ^ g + off % 2 ^ g

/-- Whether a channel's DIMMs are of x8 devices (09, MCH{n}_STATUS.KIND). -/
def State.chanX8 (s : State) (m : Nat) : Bool := s.rd (Reg.MCH_STATUS m) F.MCH_STATUS_KIND == 2

/-! ### The firewall -/

/-- Merge staged bits into active values, without what follows from them. -/
def State.mergeRegs (s : State) (l : Tab (Nat × Nat)) : State :=
  l.foldl (fun s e =>
    let m := BitVec.ofNat 64 e.2.2
    s.wrW e.1 ((s.rdW e.1 &&& ~~~m) ||| (BitVec.ofNat 64 e.2.1 &&& m))) s

/-- Whether an offset is one of the firewall's. -/
def inFirewall (off : Nat) : Bool := decide (Reg.FW_BASE 0 ≤ off) && decide (off < Reg.FW_BASE 256)

/-- Whether region `r` covers an address. -/
def State.fwCovers (s : State) (r pa : Nat) : Bool :=
  s.on (Reg.FW_BASE r) F.FW_BASE_VALID &&
  decide (s.rd (Reg.FW_BASE r) F.FW_BASE_BASE ≤ pa / 65536) &&
  decide (pa / 65536 ≤ s.rd (Reg.FW_LIMIT r) F.FW_LIMIT_LIMIT)

/-- The valid region that covers an address. -/
def State.fwRegion (s : State) (pa : Nat) : Option Nat := (List.range 256).find? (fun r => s.fwCovers r pa)

/-- The firewall an access to an address passes: that of its memory controller, or of its link's port (09). -/
def State.firewallOf (s : State) (pa : Nat) : Nat :=
  match s.paKind pa with
  | .cxl j => 16 + j / 8
  | _ => s.chanOf pa

/-- The firewall fields a commit being applied stages. -/
def Ctu.fwPart (c : Ctu) : Tab (Nat × Nat) := c.active.elim [] (fun t => t.staged.keep (fun o _ => inFirewall o))

/-- Whether a commit that leaves `t` of `s` makes region `r` fill (09 R281): it sets VALID, or changes BASE, LIMIT, PID or
WORLD. -/
def fillsRegion (s t : State) (r : Nat) : Bool :=
  t.on (Reg.FW_BASE r) F.FW_BASE_VALID &&
  (!s.on (Reg.FW_BASE r) F.FW_BASE_VALID ||
   s.rd (Reg.FW_BASE r) F.FW_BASE_BASE != t.rd (Reg.FW_BASE r) F.FW_BASE_BASE ||
   s.rd (Reg.FW_LIMIT r) F.FW_LIMIT_LIMIT != t.rd (Reg.FW_LIMIT r) F.FW_LIMIT_LIMIT ||
   s.rd (Reg.FW_ATTR r) F.FW_ATTR_PID != t.rd (Reg.FW_ATTR r) F.FW_ATTR_PID ||
   s.rd (Reg.FW_ATTR r) F.FW_ATTR_WORLD != t.rd (Reg.FW_ATTR r) F.FW_ATTR_WORLD)

/-- The regions of the firewall that a list of staged registers names. -/
def fwStaged (l : Tab (Nat × Nat)) : List Nat :=
  ((l.keys.filter inFirewall).map (fun o => (o - Reg.FW_BASE 0) / 0x20)).eraseDups

/-- A firewall table with FILLING set in regions. -/
def State.setFilling (s : State) (rs : List Nat) : State := rs.foldl (fun s r => s.wr (Reg.FW_ATTR r) F.FW_ATTR_FILLING 1) s

/-- The table a firewall holds once it has applied staged fields (09 R279, R281): FILLING is set with the new owner. -/
def State.fwNew (s : State) (l : Tab (Nat × Nat)) : State :=
  let t := s.mergeRegs l
  t.setFilling ((fwStaged l).filter (fillsRegion s t))

/-- The package with the table that the firewall of an address holds: the new one where it has applied a commit that other
firewalls have yet to apply (09 R279). -/
def State.fwView (s : State) (pa : Nat) : State :=
  if s.ctu.fw.contains (s.firewallOf pa) then s.fwNew s.ctu.fwPart else s

/-- A table's grant (09 R278). -/
def State.tableGrants (s : State) (who : Ident) (pa : Nat) (write : Bool) : Bool :=
  match s.fwRegion pa with
  | none => false
  | some r =>
    let a := Reg.FW_ATTR r
    !s.on a F.FW_ATTR_FILLING &&
    ((who.pid == s.rd a F.FW_ATTR_PID && who.world == worldOf (s.rd a F.FW_ATTR_WORLD) &&
        (if write then s.on a F.FW_ATTR_W else s.on a F.FW_ATTR_R)) ||
     (!write && who.world == worldOf (s.rd a F.FW_ATTR_WORLD) && bitAt (s.rdW (Reg.FW_SHARE r)).toNat who.pid) ||
     who == monitor)

/-- The firewall's grant (09 R278, R279). -/
def State.fwGrants (s : State) (who : Ident) (pa : Nat) (write : Bool) : Bool := (s.fwView pa).tableGrants who pa write

/-! ### Raw bytes -/

/-- The stored byte at a physical address; memory no write has reached is zero (09 R274). -/
def State.memB (s : State) (pa : Nat) : Byte := Tab.get 0 s.mem pa

/-- Stored bytes from an address. -/
def State.memBytes (s : State) (pa n : Nat) : List Byte := (List.range n).map (fun i => s.memB (pa + i))

/-- Store bytes from an address into a memory table. -/
def putBytes : Tab Byte → Nat → List Byte → Tab Byte
  | m, _, [] => m
  | m, a, b :: t => putBytes (Tab.put 0 m a b) (a + 1) t

/-- Store bytes. -/
def State.setBytes (s : State) (pa : Nat) (l : List Byte) : State := { s with mem := putBytes s.mem pa l }

/-- A line's error pattern, empty when undamaged. -/
def State.lineDmg (s : State) (ln : Nat) : List Byte := Tab.get [] s.dmg ln

/-- Set a line's error pattern; an all-zero pattern is no damage. -/
def State.setDmg (s : State) (ln : Nat) (e : List Byte) : State :=
  { s with dmg := Tab.put [] s.dmg ln (if e.all (· == 0) then [] else e) }

/-! ### Line reads and writes at the controller or port -/

/-- A line of zeros. -/
def zeroLine : List Byte := List.replicate 128 0

/-- How a read of a line comes out, with what the correction leaves: data, poison, and the outcome. -/
def State.decodeLine (s : State) (ln : Nat) : LineData × LineOutcome :=
  let raw := s.memBytes (128 * ln) 128
  let e := s.lineDmg ln
  let x8 := s.chanX8 (s.chanOf (128 * ln))
  let o := lineDecode x8 e
  match o with
  | .clean => (⟨raw, false⟩, o)
  | .poison => (⟨raw, true⟩, o)
  | .corrected left _ => (⟨xorBytes raw (errData left), false⟩, o)
  | .uncorrectable => (⟨xorBytes raw (errData e), true⟩, o)

/-- Whether an armed flip takes a write that enters the queue now: the first from a home since ARM was set (09 R276). -/
def State.flips (s : State) (w : WqEntry) : Bool :=
  let m := s.chanOf (128 * w.ln)
  w.src == .home && s.paKind (128 * w.ln) == .dram && s.on (Reg.MCH_FLIP m) F.MCH_FLIP_ARM &&
    !s.wq.any (fun x => x.flip && s.chanOf (128 * x.ln) == m)

/-- Queue a write (09 R269); a queued correction of the same line is dropped (R268). -/
def State.queueWrite (s : State) (w : WqEntry) : State :=
  if w.src = .correction || w.src = .scrub then
    if s.wq.any (fun x => x.ln == w.ln) then s else { s with wq := s.wq ++ [w] }
  else { s with wq := s.wq.filter (fun x => !(x.ln == w.ln && (x.src = .correction || x.src = .scrub))) ++
    [{ w with flip := s.flips w }] }

/-- Count an event of a line's memory: event `k` of its channel, or event `kc` of its CXL port (21 R499). -/
def State.pmcMem (s : State) (ln k kc : Nat) (who : Option Ident) : State :=
  match s.paKind (128 * ln) with
  | .cxl j => s.pmcAdd (Reg.PRT_PMF (j / 8)) (Reg.PRT_PMC (j / 8) kc) who 1
  | .dram => s.pmcMch (s.chanOf (128 * ln)) k who
  | _ => s

/-- A channel that MEM_IDLE had put in self-refresh leaves it for an access (18 R448). -/
def State.wakeChannel (s : State) (m : Nat) : State :=
  if s.pkg.idleSr.contains m then
    { s.wr (Reg.MCH_STATUS m) F.MCH_STATUS_STATE 3 with pkg := { s.pkg with idleSr := s.pkg.idleSr.filter (· != m) } }
  else s

/-- Whether a device holds 64-byte half `h` of a CXL line as poison: the bytes of its pattern that stand for the half (08
R260). -/
def halfPoison (e : List Byte) (h : Nat) : Bool := ((e.drop (64 * h)).take 64).any (· != 0)

/-- A controller's read of a line in DRAM (09 R266 to R268), or a port's of a line in CXL memory (09 R273, 08 R259, R260:
poison in either 64-byte half poisons the line): what is delivered, with the log, the counts and the correction write-back. `src` is the SOURCE code recorded,
`who` the identity a read for a merge carries. -/
def State.readMemLine (s : State) (ln src : Nat) (who : Option Ident) : LineData × State :=
  match s.paKind (128 * ln) with
  | .cxl j =>
    if !(s.link j).serves then (⟨zeroLine, true⟩, s)
    else (⟨s.memBytes (128 * ln) 128, halfPoison (s.lineDmg ln) 0 || halfPoison (s.lineDmg ln) 1⟩, s)
  | _ =>
    let m := s.chanOf (128 * ln)
    let s := s.wakeChannel m
    let s := if src = 2 then s.pmcMch m 3 none else if src = 3 then s.pmcMch m 2 who else s
    let (d, o) := s.decodeLine ln
    match o with
    | .clean => (d, s)
    | .poison => (d, s)
    | .corrected left devs =>
      let s := s.satF (Reg.MCH_CE_COUNT m) F.MCH_CE_COUNT_CE 1
      let s := s.recordMem m false src devs (128 * ln)
      -- a miscorrection leaves a valid codeword of wrong data in `left`; the write-back makes it whole; the address of a line
      -- being merged stays in the write queue, so its write-back is dropped (R268, R269)
      let s := if src = 3 then s else s.queueWrite ⟨ln, xorBytes (s.memBytes (128 * ln) 128) (errData left), 2 ^ 128 - 1, false,
        if src = 2 then .scrub else .correction, false, none⟩
      (d, s)
    | .uncorrectable =>
      let s := s.satF (Reg.MCH_CE_COUNT m) F.MCH_CE_COUNT_UE 1
      (d, s.recordMem m true src 0 (128 * ln))

/-- Store a line with new check bytes, or as poison (09 R264, R267). -/
def State.storeLine (s : State) (ln : Nat) (d : LineData) : State :=
  (s.setBytes (128 * ln) (fitB 128 d.data)).setDmg ln (if d.poison then poisonPattern else [])

/-- The symbol an armed flip's device carries: the x4 device's symbol, or the first of an x8 device's two. -/
def flipSym (x8 : Bool) (dev : Nat) : Option Nat :=
  (List.range 20).find? (fun k => if x8 then dev8 k == dev else dev4 k == dev)

/-- XOR a pattern, byte i into symbol k of codeword i. -/
def flipInto (e : List Byte) (k pat : Nat) : List Byte :=
  (List.range 160).map (fun n =>
    nthD e n 0 ^^^ (if n % 20 = k then BitVec.ofNat 8 (pat / 256 ^ (n / 20)) else 0))

/-- Apply an armed flip to a line just written (09 R276): patterns into the named devices' symbols, the
address recorded, ARM cleared. -/
def State.applyFlip (s : State) (ln : Nat) : State :=
  let m := s.chanOf (128 * ln)
  let f := Reg.MCH_FLIP m
  if s.on f F.MCH_FLIP_ARM then
    let x8 := s.chanX8 m
    let e0 := s.lineDmg ln
    let e1 := match flipSym x8 (s.rd f F.MCH_FLIP_DEV0) with
      | some k => flipInto e0 k (s.rdW (Reg.MCH_FLIP_PAT0 m)).toNat
      | none => e0
    let e2 := if s.on f F.MCH_FLIP_EN1 then
        match flipSym x8 (s.rd f F.MCH_FLIP_DEV1) with
        | some k => flipInto e1 k (s.rdW (Reg.MCH_FLIP_PAT1 m)).toNat
        | none => e1
      else e1
    let s := s.setDmg ln e2
    let s := s.wr f F.MCH_FLIP_ARM 0
    s.wrs (Reg.MCH_FLIP_ADDR m) [(F.MCH_FLIP_ADDR_VALID, 1), (F.MCH_FLIP_ADDR_ADDR, ln)]
  else s

/-- Issue one write at the controller or port (09 R264, R267, R269, R276; 08 R259). A masked write reads, corrects and
merges the old line first; an old line newly found uncorrectable makes the merged line poison and is logged with
SOURCE 0x3, stored poison makes it poison silently. -/
def State.issueWrite (s : State) (w : WqEntry) : State :=
  let full := w.mask % 2 ^ 128 == 2 ^ 128 - 1
  let s := match w.src with
    | .home => s.pmcMem w.ln 1 3 w.who
    | .fill | .zero => s.pmcMem w.ln 4 3 none
    | .scrub | .correction => s
  match s.paKind (128 * w.ln) with
  | .cxl j =>
    if !(s.link j).serves then s
    else
      let old := s.memBytes (128 * w.ln) 128
      let p := w.poison || (!full && (halfPoison (s.lineDmg w.ln) 0 || halfPoison (s.lineDmg w.ln) 1))
      s.storeLine w.ln ⟨maskMerge old (fitB 128 w.data) w.mask, p⟩
  | _ =>
    let s := s.wakeChannel (s.chanOf (128 * w.ln))
    if full then
      let s := s.storeLine w.ln ⟨w.data, w.poison⟩
      if w.flip then s.applyFlip w.ln else s
    else
      let (d, s) := s.readMemLine w.ln 3 w.who
      let s := s.storeLine w.ln ⟨maskMerge d.data (fitB 128 w.data) w.mask, d.poison || w.poison⟩
      if w.flip then s.applyFlip w.ln else s

/-- What a queued write makes of a line's data. -/
def WqEntry.over (w : WqEntry) (d : LineData) : LineData :=
  if w.mask % 2 ^ 128 == 2 ^ 128 - 1 then ⟨fitB 128 w.data, w.poison⟩
  else ⟨maskMerge d.data (fitB 128 w.data) w.mask, d.poison || w.poison⟩

/-- Whether a queued write is one that a home, a fill or a zero-fill made of a line. -/
def WqEntry.writes (w : WqEntry) (ln : Nat) : Bool := w.ln == ln && w.src != .correction && w.src != .scrub

/-- Merge the queued writes of a line, oldest first, into what `d` holds: each becomes a write of the full line (09 R269). -/
def mergeQueue (ln : Nat) : LineData → List WqEntry → LineData × List WqEntry
  | d, [] => (d, [])
  | d, w :: t =>
    if w.writes ln then
      let e := w.over d
      let r := mergeQueue ln e t
      (r.1, { w with data := e.data, mask := 2 ^ 128 - 1, poison := e.poison } :: r.2)
    else
      let r := mergeQueue ln d t
      (r.1, w :: r.2)

/-- A read at the controller, answered from the queue where writes to the line wait (09 R269): after the merge of a masked
write, which reads the old line as SOURCE 0x3. A read of CXL memory whose link does not serve it is poison (09 R273). -/
def State.readLineQ (s : State) (ln src : Nat) : LineData × State :=
  let gone := match s.paKind (128 * ln) with
    | .cxl j => !(s.link j).serves
    | _ => false
  if gone then (⟨zeroLine, true⟩, s)
  else match s.wq.find? (fun x => x.writes ln) with
    | some w =>
      let (d, s) := if w.mask % 2 ^ 128 == 2 ^ 128 - 1 then (⟨zeroLine, false⟩, s) else s.readMemLine ln 3 w.who
      let r := mergeQueue ln d s.wq
      (r.1, { s with wq := r.2 })
    | none => s.readMemLine ln src none

/-- Write a line at once: earlier queued writes of the line issue first. -/
def State.writeLineNow (s : State) (w : WqEntry) : State :=
  let q := s.wq.filter (fun x => x.ln == w.ln && x.src != .correction && x.src != .scrub)
  let s := { s with wq := s.wq.filter (fun x => x.ln != w.ln) }
  let f := s.flips w
  (q.foldl State.issueWrite s).issueWrite { w with flip := f }

end Sys2Proof.Machine
end

