-- ==== Sys2Proof/Machine/HartBase.lean ====
section
/-! DEFINITION. Registers, CSRs, identity and traps of a hart (12, 14 R367; the privileged architecture the manual
takes from RISC-V). -/

namespace Sys2Proof.Machine
open Sys2Proof

/-- A hart. -/
def State.hart (s : State) (h : Nat) : Hart := Tab.get Hart.reset s.harts h

/-- Replace a hart. -/
def State.setHart (s : State) (h : Nat) (x : Hart) : State := { s with harts := Tab.put Hart.reset s.harts h x }

/-- A cluster. -/
def State.cluster (s : State) (c : Nat) : Cluster := Tab.get Cluster.empty s.clusters c

/-- Replace a cluster. -/
def State.setCluster (s : State) (c : Nat) (x : Cluster) : State :=
  { s with clusters := Tab.put Cluster.empty s.clusters c x }

/-- A home. -/
def State.home (s : State) (t : Nat) : Home := Tab.get Home.empty s.homes t

/-- Replace a home. -/
def State.setHome (s : State) (t : Nat) (x : Home) : State := { s with homes := Tab.put Home.empty s.homes t x }

/-! ### Registers and CSRs -/

/-- Read an integer register; x0 reads 0. -/
def Hart.rx (h : Hart) (r : Nat) : Word := if r = 0 then 0 else Tab.get 0 h.x r

/-- Write an integer register; a write of x0 is discarded. -/
def Hart.wx (h : Hart) (r : Nat) (v : Word) : Hart := if r = 0 then h else { h with x := Tab.put 0 h.x r v }

/-- Read a floating-point register. -/
def Hart.rf (h : Hart) (r : Nat) : Word := Tab.get 0 h.f r

/-- Bytes of the vector registers from byte `o`. -/
def Hart.rv (h : Hart) (o n : Nat) : List Byte := (List.range n).map (fun i => Tab.get 0 h.vr (o + i))

/-- Sign- or zero-extend a loaded value of `size` bytes. -/
def extend (size : Nat) (signed : Bool) (v : Nat) : Word :=
  if signed then BitVec.ofInt 64 (toSigned (8 * size) v) else BitVec.ofNat 64 v

/-- Put bytes into a table of bytes. -/
def putVec : Tab Byte → Nat → List Byte → Tab Byte
  | m, _, [] => m
  | m, a, b :: t => putVec (Tab.put 0 m a b) (a + 1) t

/-- Write a loaded value of `size` bytes to a destination: 0 to 31 the integer registers, 32 to 63 the floating-point ones,
NaN-boxed, and 64 + 32·v + b from byte b of vector register v. -/
def Hart.wd (h : Hart) (rd size : Nat) (signed : Bool) (v : Nat) : Hart :=
  if rd < 32 then h.wx rd (extend size signed v)
  else if rd < 64 then { h with f := Tab.put 0 h.f (rd - 32) (BitVec.ofNat 64 (v % 2 ^ (8 * size) + (2 ^ 64 - 2 ^ (8 * size)))) }
  else { h with vr := putVec h.vr (rd - 64) (leBytes size v) }

/-! CSR numbers of the privileged architecture and of Helsitia's extensions (12, 21). -/
namespace Csr
abbrev sstatus : Nat := 0x100
abbrev sie : Nat := 0x104
abbrev stvec : Nat := 0x105
abbrev senvcfg : Nat := 0x10A
abbrev sepc : Nat := 0x141
abbrev scause : Nat := 0x142
abbrev stval : Nat := 0x143
abbrev sip : Nat := 0x144
abbrev stimecmp : Nat := 0x14D
abbrev satp : Nat := 0x180
abbrev vsstatus : Nat := 0x200
abbrev vsie : Nat := 0x204
abbrev vstvec : Nat := 0x205
abbrev vsepc : Nat := 0x241
abbrev vscause : Nat := 0x242
abbrev vstval : Nat := 0x243
abbrev vstimecmp : Nat := 0x24D
abbrev vsatp : Nat := 0x280
abbrev mstatus : Nat := 0x300
abbrev medeleg : Nat := 0x302
abbrev mideleg : Nat := 0x303
abbrev mie : Nat := 0x304
abbrev mtvec : Nat := 0x305
abbrev menvcfg : Nat := 0x30A
abbrev mepc : Nat := 0x341
abbrev mcause : Nat := 0x342
abbrev mtval : Nat := 0x343
abbrev mip : Nat := 0x344
abbrev mtinst : Nat := 0x34A
abbrev mtval2 : Nat := 0x34B
abbrev hstatus : Nat := 0x600
abbrev hedeleg : Nat := 0x602
abbrev hideleg : Nat := 0x603
abbrev hie : Nat := 0x604
abbrev hgeie : Nat := 0x607
abbrev hip : Nat := 0x644
abbrev hvip : Nat := 0x645
abbrev vsip : Nat := 0x244
abbrev misa : Nat := 0x301
abbrev mstateen0 : Nat := 0x30C
abbrev hstateen0 : Nat := 0x60C
abbrev tselect : Nat := 0x7A0
abbrev tcontrol : Nat := 0x7A5
abbrev henvcfg : Nat := 0x60A
abbrev htimedelta : Nat := 0x605
abbrev htval : Nat := 0x643
abbrev htinst : Nat := 0x64A
abbrev hgatp : Nat := 0x680
abbrev mhswctl : Nat := 0x7C0
abbrev mhswgtab : Nat := 0x7C1
abbrev mhscctl : Nat := 0x7C2
abbrev mhspf : Nat := 0x7C3
abbrev mhspwr : Nat := 0x7C4
abbrev mhssample : Nat := 0x7C5
abbrev shswstat : Nat := 0xDC0
abbrev dcsr : Nat := 0x7B0
abbrev dpc : Nat := 0x7B1
/-- pmpcfg0; pmpcfg2 is 0x3A2 -/
abbrev pmpcfg0 : Nat := 0x3A0
abbrev pmpaddr0 : Nat := 0x3B0
abbrev mhpmevent3 : Nat := 0x323
abbrev mhpmcounter3 : Nat := 0xB03
abbrev mcycle : Nat := 0xB00
abbrev minstret : Nat := 0xB02
abbrev mvendorid : Nat := 0xF11
abbrev marchid : Nat := 0xF12
abbrev mimpid : Nat := 0xF13
abbrev mhartid : Nat := 0xF14
end Csr

/-- The number under which a hart keeps register `k` (1 to 3) of trigger `i` (12 R330): tdata1 to tdata3 reach the one that tselect
names. -/
def trigCsr (i k : Nat) : Nat := 0x10000 + 8 * i + k

/-- Reset value of a CSR: the values the manual gives (12 R330: XLEN 64 everywhere, the stepping of the compute die), those the
extensions fix (misa, the read-only one bits of mideleg, a disabled trigger), and zero where none is given
(notes/assumptions/4.md). -/
def csrReset (n : Nat) : Word :=
  if n = Csr.mhspf then 3
  else if n = Csr.mhssample then 0x10
  else if n = Csr.marchid then 0x8000000000000001
  else if n = Csr.mimpid then 1
  else if n = Csr.misa then 0x80000000003411AF
  else if n = Csr.mstatus then 0xA00000000
  else if n = Csr.vsstatus ∨ n = Csr.hstatus then 0x200000000
  else if n = Csr.mideleg then 0x1444
  else if 0x10000 ≤ n ∧ n < 0x10040 ∧ n % 8 = 1 then 0xF000000000000000
  else 0

/-- Read a CSR's stored value. -/
def Hart.rc (h : Hart) (n : Nat) : Word := Tab.get (csrReset n) h.csr n

/-- Store a CSR's value. -/
def Hart.wc (h : Hart) (n : Nat) (v : Word) : Hart := { h with csr := Tab.put (csrReset n) h.csr n v }

/-- Bits of a CSR. -/
def Hart.cb (h : Hart) (n hi lo : Nat) : Nat := bitsOf (h.rc n).toNat hi lo

/-- Set bits of a CSR. -/
def Hart.scb (h : Hart) (n hi lo v : Nat) : Hart := h.wc n (BitVec.ofNat 64 (setBits (h.rc n).toNat hi lo v))

/-- The identity of a hart's accesses (12 R339): PID 0 and world S in M-mode, mhswctl below it. -/
def Hart.ident (h : Hart) : Ident :=
  if h.mode = .m then monitor else ⟨h.cb Csr.mhswctl 5 0, worldOf (h.cb Csr.mhswctl 7 7)⟩

/-- The world a hart runs in, M-mode counting as S (14 R381). -/
def Hart.world (h : Hart) : World := h.ident.world

/-- Cluster of a hart. -/
def hartCluster (h : Nat) : Nat := h / 6

/-! ### Traps -/

/-! Exception codes of the privileged architecture. -/
namespace Exc
abbrev fetchAccess : Nat := 1
abbrev illegal : Nat := 2
abbrev breakpoint : Nat := 3
abbrev loadMisaligned : Nat := 4
abbrev loadAccess : Nat := 5
abbrev storeMisaligned : Nat := 6
abbrev storeAccess : Nat := 7
abbrev ecallU : Nat := 8
abbrev ecallS : Nat := 9
abbrev ecallVS : Nat := 10
abbrev ecallM : Nat := 11
abbrev fetchPage : Nat := 12
abbrev loadPage : Nat := 13
abbrev storePage : Nat := 15
abbrev hwError : Nat := 19
abbrev fetchGuest : Nat := 20
abbrev loadGuest : Nat := 21
abbrev virtual : Nat := 22
abbrev storeGuest : Nat := 23
end Exc

/-- Code of a mode in mstatus.MPP. -/
def Mode.code : Mode → Nat
  | .u => 0
  | .s => 1
  | .m => 3

/-- Mode of a code; the reserved code 2 reads as U. -/
def modeOfCode : Nat → Mode
  | 3 => .m
  | 1 => .s
  | _ => .u

/-- Where a direct or vectored trap vector sends an exception. -/
def vecPc (v : Word) : Word := BitVec.ofNat 64 (v.toNat / 4 * 4)

/-- Take an exception (the privileged architecture): the cause goes to M-mode unless medeleg delegates it from a lower
mode to HS-mode, and hedeleg on to VS-mode when V is 1. `tval2` is the guest physical address shifted right by 2, and `tinst` the
pseudoinstruction of a fault on the read of a VS-stage PTE, else 0 (13 R355). The hart leaves debug-independent state untouched; accesses it makes later carry the new mode's identity (14
R366). -/
def Hart.trap (h : Hart) (cause tval tval2 tinst : Nat) : Hart :=
  let toM := h.mode = .m || !bitAt (h.rc Csr.medeleg).toNat cause
  let gva := h.v && tval != 0
  if toM then
    let h1 := h.wc Csr.mepc h.pc
    let h1 := h1.wc Csr.mcause (BitVec.ofNat 64 cause)
    let h1 := h1.wc Csr.mtval (BitVec.ofNat 64 tval)
    let h1 := h1.wc Csr.mtval2 (BitVec.ofNat 64 tval2)
    let h1 := h1.wc Csr.mtinst (BitVec.ofNat 64 tinst)
    let h1 := h1.scb Csr.tcontrol 7 7 (h.cb Csr.tcontrol 3 3)
    let h1 := h1.scb Csr.tcontrol 3 3 0
    let h1 := h1.scb Csr.mstatus 12 11 h.mode.code
    let h1 := h1.scb Csr.mstatus 39 39 (b2n h.v)
    let h1 := h1.scb Csr.mstatus 38 38 (b2n gva)
    let h1 := h1.scb Csr.mstatus 7 7 (h.cb Csr.mstatus 3 3)
    let h1 := h1.scb Csr.mstatus 3 3 0
    { h1 with mode := .m, v := false, pc := vecPc (h.rc Csr.mtvec), resv := none }
  else if h.v && bitAt (h.rc Csr.hedeleg).toNat cause then
    let h1 := h.wc Csr.vsepc h.pc
    let h1 := h1.wc Csr.vscause (BitVec.ofNat 64 cause)
    let h1 := h1.wc Csr.vstval (BitVec.ofNat 64 tval)
    let h1 := h1.scb Csr.vsstatus 8 8 h.mode.code
    let h1 := h1.scb Csr.vsstatus 5 5 (h.cb Csr.vsstatus 1 1)
    let h1 := h1.scb Csr.vsstatus 1 1 0
    { h1 with mode := .s, pc := vecPc (h.rc Csr.vstvec), resv := none }
  else
    let h1 := h.wc Csr.sepc h.pc
    let h1 := h1.wc Csr.scause (BitVec.ofNat 64 cause)
    let h1 := h1.wc Csr.stval (BitVec.ofNat 64 tval)
    let h1 := h1.wc Csr.htval (BitVec.ofNat 64 tval2)
    let h1 := h1.wc Csr.htinst (BitVec.ofNat 64 tinst)
    let h1 := h1.scb Csr.mstatus 8 8 h.mode.code
    let h1 := h1.scb Csr.mstatus 5 5 (h.cb Csr.mstatus 1 1)
    let h1 := h1.scb Csr.mstatus 1 1 0
    let h1 := h1.scb Csr.hstatus 7 7 (b2n h.v)
    let h1 := h1.scb Csr.hstatus 6 6 (b2n gva)
    let h1 := if h.v then h1.scb Csr.hstatus 8 8 (if h.mode = .s then 1 else 0) else h1
    { h1 with mode := .s, v := false, pc := vecPc (h.rc Csr.stvec), resv := none }

/-- Count an event of a hart (21 R502): in each of its counters that names it, unless the counter is inhibited in the mode
the hart runs in. A counter that wraps sets OF and raises the local counter-overflow interrupt. -/
def State.hev (s : State) (h code : Nat) : State :=
  let x := s.hart h
  let inh := match x.mode, x.v with
    | .m, _ => 62
    | .s, false => 61
    | .u, false => 60
    | .s, true => 59
    | .u, true => 58
  let step (x : Hart) (k : Nat) : Hart :=
    let e := (x.rc (0x320 + k)).toNat
    if e % 65536 = code ∧ !e.testBit inh ∧ !(x.rc 0x320).toNat.testBit k then
      let v := x.rc (0xB00 + k) + 1
      let x := x.wc (0xB00 + k) v
      if v = 0 then (x.scb (0x320 + k) 63 63 1).scb Csr.mip 13 13 1 else x
    else x
  if x.csr.isEmpty then s else s.setHart h (((List.range 32).filter (3 ≤ ·)).foldl step x)

/-- Take an exception at a hart. -/
def State.trap (s : State) (h cause tval : Nat) : State := s.setHart h ((s.hart h).trap cause tval 0 0)

/-- Take an exception with a guest physical address, on the read of a VS-stage PTE (`walk`) or on the access itself. -/
def State.trapG (s : State) (h cause tval gpa : Nat) (walk : Bool) : State :=
  s.setHart h ((s.hart h).trap cause tval (gpa / 4) (if walk then 0x3000 else 0))

/-- Whether a hart executes the next instruction command: out of reset and debug mode, running and not waiting. -/
def Hart.ready (h : Hart) : Bool :=
  !h.held && !h.halted && h.waiting == .running && !h.stalled && h.io.isNone

/-- Whether a hart's cluster is gated: CCLK is stopped and the hart makes no progress (18 R451). -/
def State.hartGated (s : State) (h : Nat) : Bool := s.rd (Reg.PWR_UNIT (h / 6)) F.PWR_UNIT_STATE == 1

/-- The value an AMO stores: operands of `size` bytes. -/
def amoResult (op : AmoOp) (size old val : Nat) : Nat :=
  let m := 2 ^ (8 * size)
  let so := toSigned (8 * size) old
  let sv := toSigned (8 * size) val
  match op with
  | .swap => val % m
  | .add => (old + val) % m
  | .xor => (old ^^^ val) % m
  | .and => (old &&& val) % m
  | .or => (old ||| val) % m
  | .min => if so ≤ sv then old % m else val % m
  | .max => if so ≤ sv then val % m else old % m
  | .minu => min (old % m) (val % m)
  | .maxu => max (old % m) (val % m)

end Sys2Proof.Machine
end

