-- ==== Sys2Proof/Machine/Coherence.lean ====
section
/-! DEFINITION. Homes and directories (10 R282 to R306): serving requests, answers to snoops, evictions, and the composed
line accesses of non-caching agents. -/

namespace Sys2Proof.Machine
open Sys2Proof

/-! ### Homes -/

/-- The hashed home of an address (10 R288). -/
def hashHome (pa : Nat) : Nat :=
  bitsOf pa 12 7 ^^^ bitsOf pa 18 13 ^^^ bitsOf pa 24 19 ^^^ bitsOf pa 30 25 ^^^ bitsOf pa 36 31 ^^^ bitsOf pa 42 37 ^^^
    bitsOf pa 48 43 ^^^ bitsOf pa 51 49

/-- The stop that serves an address's memory (09 R280): its channel's, or its CXL link's port's. -/
def State.servingStop (s : State) (pa : Nat) : Nat :=
  match s.paKind pa with
  | .cxl j => nthD pcieStops (j / 16) 0
  | _ => nthD memStops (s.chanOf pa) 0

/-- The home stop of an address before remapping (09 R280, 10 R288). -/
def State.homeStop (s : State) (pa : Nat) : Nat :=
  match s.fwRegion pa with
  | some r => if s.on (Reg.FW_ATTR r) F.FW_ATTR_LOCAL_HOME then s.servingStop pa else hashHome pa
  | none => hashHome pa

/-- The stop a source's traffic to the home at `d` goes to: its own entry of the current table (11 R320). -/
def State.remap (s : State) (src d : Nat) : Nat :=
  let e := if s.on (Reg.RTR_NET src) F.RTR_NET_CURRENT then Reg.RTR_TTB src d else Reg.RTR_TTA src d
  if s.on e F.RTR_TTA_REMAP then s.rd e F.RTR_TTA_SUBST else d

/-- The home that serves a line for a source stop. -/
def State.homeFor (s : State) (src ln : Nat) : Nat := s.remap src (s.homeStop (128 * ln))

/-- The stop of a caching agent: clusters 0 to 35 and the ring manager, 36. -/
def agentStop (a : Nat) : Nat := if a < 36 then nthD clusterStops a 0 else rmgStop

/-- Whether a die is active (01 R30). -/
def State.dieActive (s : State) (d : Nat) : Bool := bitAt (s.rdW Reg.PKG_DIE_ACTIVE).toNat d

/-- The caching agents a broadcast invalidation reaches (10 R290): every cluster of an active die and the ring
manager. -/
def State.broadcast (s : State) : List Nat := below 36 (fun c => s.dieActive (c / 3)) ++ [36]

/-- The holders a directory entry names. -/
def State.holders (s : State) (d : DirEnt) : List Nat := if d.ovf then s.broadcast else d.ptrs

/-! ### L3 arrays -/

/-- The L3 set of a line (10 R287). -/
def l3Set (ln : Nat) : Nat :=
  let pa := 128 * ln
  (bitsOf pa 17 7 ^^^ bitsOf pa 28 18 ^^^ bitsOf pa 39 29 ^^^ bitsOf pa 50 40) ^^^ bitsOf pa 51 51

/-- The L3 entry of a line: its key and the line. -/
def Home.l3Find (h : Home) (ln : Nat) : Option (Nat × L3Line) := h.l3.find? (fun e => e.2.ln == ln)

/-- Remove a line from the L3. -/
def Home.l3Drop (h : Home) (ln : Nat) : Home := { h with l3 := h.l3.filter (fun e => e.2.ln != ln) }

/-- One step of a slice's LFSR (10 R287). -/
def lfsrStep (v : Nat) : Nat := if v % 2 = 1 then (v / 2) ^^^ 0xB400 else v / 2

/-- Choose among `n` candidates by a slice's LFSR, stepping it. -/
def State.lfsrPick (s : State) (t n : Nat) : Nat × State :=
  let v := s.rd (Reg.L3_LFSR t) F.L3_LFSR_STATE
  (v * n / 65536, s.wr (Reg.L3_LFSR t) F.L3_LFSR_STATE (lfsrStep v))

/-- The ways of a mask below `n`. -/
def waysOf (n mask : Nat) : List Nat := below n (fun i => mask.testBit i)

/-- The effective way mask of a partition for the L3 (14 R376): its mask, or all ways less those of sealed
partitions. -/
def State.l3Mask (s : State) (p : Nat) : Nat :=
  let m := s.rd (Reg.ISO_WAYS p) F.ISO_WAYS_L3
  if m != 0 then m
  else (below 64 (fun q => s.sealedP q)).foldl (fun a q => a - (a &&& s.rd (Reg.ISO_WAYS q) F.ISO_WAYS_L3)) (2 ^ 24 - 1)

/-- The effective way mask of a partition for the directory (14 R376). -/
def State.dirMask (s : State) (p : Nat) : Nat :=
  let m := s.rd (Reg.ISO_WAYS p) F.ISO_WAYS_DIR
  if m != 0 then m
  else (below 64 (fun q => s.sealedP q)).foldl (fun a q => a - (a &&& s.rd (Reg.ISO_WAYS q) F.ISO_WAYS_DIR)) (2 ^ 16 - 1)

/-- The locked ways of a slice (10 R299). -/
def State.lockedWays (s : State) (t : Nat) : Nat :=
  if s.on (Reg.L3_LOCK t) F.L3_LOCK_EN then s.rd (Reg.L3_LOCK t) F.L3_LOCK_WAYS else 0

/-- The candidate ways of a fill (10 R299, 14 R376). -/
def State.l3Cands (s : State) (t ln pid : Nat) : List Nat :=
  let set := l3Set ln
  let locked := s.lockedWays t
  let hm := s.home t
  let free := fun w => (Tab.look hm.l3 (24 * set + w)).isNone
  let inRange := s.on (Reg.L3_LOCK t) F.L3_LOCK_EN && pid == s.rd (Reg.L3_LOCK t) F.L3_LOCK_PID &&
    decide (s.rd (Reg.L3_LOCK_BASE t) F.L3_LOCK_BASE_ADDR ≤ ln) &&
    decide (ln ≤ s.rd (Reg.L3_LOCK_LIMIT t) F.L3_LOCK_LIMIT_ADDR)
  let freeLocked := (waysOf 24 locked).filter free
  let lockPerm := if inRange && !freeLocked.isEmpty then freeLocked
    else below 24 (fun w => !locked.testBit w)
  lockPerm.filter (fun w => (s.l3Mask pid).testBit w)

/-- A home's write to memory (10 R294), under the identity of the request that opened its transaction (14 R367). -/
def State.memWr (s : State) (ln : Nat) (d : LineData) (who : Option Ident) : State :=
  s.queueWrite ⟨ln, d.data, 2 ^ 128 - 1, d.poison, .home, false, who⟩

/-- Allocate a line in the L3, or update its copy (10 R286, R287, R298): a dirty victim goes to the write queue; with
no candidate way the line is served without allocation and dirty data goes to memory. -/
def State.l3Alloc (s : State) (t ln : Nat) (d : LineData) (dirty : Bool) (pid : Nat) (who : Option Ident) : State :=
  let hm := s.home t
  match hm.l3Find ln with
  | some (k, old) =>
    s.setHome t { hm with l3 := Tab.ins hm.l3 k ⟨ln, d, dirty || old.dirty⟩ }
  | none =>
    let set := l3Set ln
    let cands := s.l3Cands t ln pid
    match cands.find? (fun w => (Tab.look hm.l3 (24 * set + w)).isNone) with
    | some w => s.setHome t { hm with l3 := Tab.ins hm.l3 (24 * set + w) ⟨ln, d, dirty⟩ }
    | none =>
      if cands.isEmpty then (if dirty then s.memWr ln d who else s)
      else
        let (i, s) := s.lfsrPick t cands.length
        let k := 24 * set + nthD cands i 0
        let s := match Tab.look hm.l3 k with
          | some v => if v.dirty then s.memWr v.ln v.data who else s
          | none => s
        s.setHome t { hm with l3 := Tab.ins hm.l3 k ⟨ln, d, dirty⟩ }

/-- Drop an L3 line, recording the loss of a line in a locked way (10 R301). -/
def State.l3Take (s : State) (t ln : Nat) : State :=
  let hm := s.home t
  match hm.l3Find ln with
  | none => s
  | some (k, _) =>
    let s := s.setHome t (hm.l3Drop ln)
    if (s.lockedWays t).testBit (k % 24) then
      if s.on (Reg.L3_LOCK_EVT t) F.L3_LOCK_EVT_LOST then s.wr (Reg.L3_LOCK_EVT t) F.L3_LOCK_EVT_MORE 1
      else s.wrs (Reg.L3_LOCK_EVT t) [(F.L3_LOCK_EVT_LOST, 1), (F.L3_LOCK_EVT_ADDR, ln)]
    else s

/-- Write a dirty L3 copy to memory and keep it clean (CMO_CLEAN of 10 R294). -/
def State.l3Clean (s : State) (t ln : Nat) (who : Option Ident) : State :=
  let hm := s.home t
  match hm.l3Find ln with
  | some (k, v) =>
    if v.dirty then (s.memWr ln v.data who).setHome t { hm with l3 := Tab.ins hm.l3 k { v with dirty := false } } else s
  | none => s

/-- Valid lines in locked ways, the LOCKED_VALID of L3{s}_STATUS (10 R302). -/
def State.lockedValid (s : State) (t : Nat) : Nat :=
  let m := s.lockedWays t
  ((s.home t).l3.filter (fun e => m.testBit (e.1 % 24))).length

/-- Whether a home holds the requests of a line's share for its substitute (15 R394). -/
def State.shareHeld (s : State) (t ln : Nat) : Bool :=
  (s.home t).holds.any (fun r => r.kind == 3 && r.lo == t && hashHome (128 * ln) == t)

/-- Whether the proxy of a stop answers for its home (11 R326): the home is fenced, and does not already hold a line's share that
is moving back to it (15 R394). -/
def State.homeOff (s : State) (t ln : Nat) : Bool :=
  s.fenced t 0 && !s.shareHeld t ln

/-! ### Messages -/

/-- The class and OP of a message in flight between agents, homes and controllers (10 R292). -/
def MKind.code : MKind → Nat × Nat
  | .snp .share => (1, 0x20)
  | .snp .inval => (1, 0x21)
  | .snp .peek => (1, 0x22)
  | .memRead => (1, 0x23)
  | .rspI => (2, 0x40)
  | .rspS => (2, 0x41)
  | .rspWbif => (2, 0x42)
  | .rspGrant => (2, 0x43)
  | .rspWdone => (2, 0x44)
  | .wbAck => (2, 0x45)
  | .rspError _ => (2, 0x46)
  | .wbDirty => (3, 0x60)
  | .evictClean => (3, 0x61)
  | .datDirty => (3, 0x62)
  | .datGrant _ => (3, 0x63)
  | .memData => (3, 0x64)

/-- Whether a message goes to its home. -/
def MKind.toHome : MKind → Bool
  | .rspI | .rspS | .rspWbif | .wbDirty | .evictClean | .datDirty | .memData => true
  | _ => false

/-- The agent numbers of the non-caching agents of a stop, of a hart's I/O access, and of an agent that a network error is
answered to (11 R311). -/
def nonCaching (a : Nat) : Nat := 100 + a
def hartAgent (h : Nat) : Nat := 300 + h
def errAgent (t a : Nat) : Nat := 1000 + 16 * t + a

/-- The stop of the agent that a message names. -/
def msgStop (a : Nat) : Nat :=
  if a ≤ 36 then agentStop a else if a < 164 then (a - 100) % 64
  else if a < 1000 then nthD clusterStops (hartCluster (a - 300)) 0 else (a - 1000) / 16 % 64

/-- Source and destination of a message: stops 0 to 63 stand for their home, and 64 on for the agents and the controllers. -/
def State.ends (s : State) (m : Msg) : Nat × Nat :=
  match m.kind with
  | .memRead => (m.home, 64 + s.servingStop (128 * m.ln))
  | .memData => (64 + s.servingStop (128 * m.ln), m.home)
  | k => if k.toHome then (128 + m.agent, m.home) else (m.home, 128 + m.agent)

/-- The stop at which a message is injected. -/
def State.fromStop (s : State) (m : Msg) : Nat :=
  match m.kind with
  | .memData => s.servingStop (128 * m.ln)
  | k => if k.toHome then msgStop m.agent else m.home

/-- A message put into the network, under the current timetable of its source stop (11 R321). -/
def State.stamp (s : State) (m : Msg) : Msg := { m with epoch := s.rd (Reg.RTR_NET (s.fromStop m)) F.RTR_NET_CURRENT }

/-- The same, at the end of the messages in flight. -/
def State.post (s : State) (m : Msg) : State := { s with net := s.net ++ [s.stamp m] }

/-- Whether two messages are delivered in the order they were injected (11 R315): one class, source, destination and
timetable. -/
def State.sameWay (s : State) (x m : Msg) : Bool :=
  x.kind.code.1 == m.kind.code.1 && s.ends x == s.ends m && x.epoch == m.epoch

/-- The first message in flight that satisfies a test, unless one that must be delivered before it stands ahead. `parked` are
messages that have reached their receiver and wait there. -/
def State.arriving (s : State) (parked p : Msg → Bool) : Option Msg :=
  match s.net.find? p with
  | none => none
  | some m => if (s.net.takeWhile (fun x => !p x)).any (fun x => s.sameWay x m && !parked x) then none else some m

/-- The first message in flight that satisfies a test, if it can be delivered now, is taken and does `f`; with none nothing
happens. -/
def State.onMsgs (s : State) (parked p : Msg → Bool) (f : Msg → State → State) : State :=
  match s.arriving parked p with
  | none => s
  | some m => f m { s with net := s.net.erase m }

/-- The same, with no message parked at a receiver. -/
def State.onMsg (s : State) (p : Msg → Bool) (f : Msg → State → State) : State := s.onMsgs (fun _ => false) p f

/-- No data. -/
def noData : LineData := ⟨[], false⟩

/-- Network error codes (11 R311). -/
def codeDomainOff : Nat := 1
def codeFirewall : Nat := 2
def codeCutOff : Nat := 3
def codeUnsupported : Nat := 4

/-! ### Directory -/

/-- The directory entry of a line. -/
def Home.dirOf (h : Home) (ln : Nat) : Option DirEnt := Tab.look h.dir ln

/-- Set a line's directory entry. -/
def Home.setDir (h : Home) (ln : Nat) (d : DirEnt) : Home := { h with dir := Tab.ins h.dir ln d }

/-- Remove a line's directory entry. -/
def Home.noDir (h : Home) (ln : Nat) : Home := { h with dir := Tab.del h.dir ln }

/-- Whether two lines share a directory set. -/
def sameDirSet (a b : Nat) : Bool := Config.dirSet a % 8192 == Config.dirSet b % 8192

/-- The way a new entry of a line would take, or the entries that stand in its permitted ways when none is free (10 R291).
Ways kept for requests in service are not free, and entries of lines in service are not given up. -/
def State.dirRoom (s : State) (t ln pid : Nat) : Sum Nat (List Nat) :=
  let hm := s.home t
  let same := hm.dir.filter (fun e => sameDirSet e.1 ln)
  let kept := hm.txns.filterMap (fun x => if sameDirSet x.req.ln ln then x.way else none)
  let ways := waysOf 16 (s.dirMask pid)
  match ways.find? (fun w => same.all (fun e => e.2.way != w) && !kept.contains w) with
  | some w => .inl w
  | none => .inr ((same.filter (fun e => ways.contains e.2.way && !kept.contains e.2.way &&
      !(hm.txns.any (fun x => x.req.ln == e.1)))).map Prod.fst)

/-- Record a holder joining state S (10 R290): the fourth sets OVF and the pointers are kept. -/
def DirEnt.join (d : DirEnt) (a : Nat) : DirEnt :=
  if d.ovf || d.ptrs.contains a then d
  else if d.ptrs.length < 3 then { d with ptrs := d.ptrs ++ [a] }
  else { d with ovf := true }

/-! ### Serving a request -/

/-- Whether a request asks for write permission (09 R278, notes/assumptions/12.md). -/
def ReqKind.isWrite : ReqKind → Bool
  | .rdUnique | .upgrade | .zeroUnique | .wrFull | .wrMask => true
  | _ => false

/-- Whether a request's snoops take every copy (10 R294). -/
def ReqKind.takesCopies : ReqKind → Bool
  | .rdShared | .rdNoexcl | .cmoClean | .rdNoalloc => false
  | _ => true

/-- Whether a request makes a directory entry. -/
def ReqKind.makesEntry : ReqKind → Bool
  | .rdShared | .rdNoexcl | .rdUnique | .upgrade | .zeroUnique => true
  | _ => false

/-- Whether a request can be served as far as the directory goes (10 R291): it needs no new entry, or there is a way for one or
an entry to give up; with every entry of the set in service it waits. -/
def State.roomFor (s : State) (t : Nat) (r : HReq) : Bool :=
  !r.kind.makesEntry || ((s.home t).dirOf r.ln).isSome ||
    (match s.dirRoom t r.ln r.who.pid with
     | .inr [] => false
     | _ => true)

/-- The snoops a request sends, by the table *Home actions* (10 R294). -/
def State.snoopsFor (s : State) (r : HReq) (d : Option DirEnt) : List (Nat × SnpKind) :=
  match d with
  | none => []
  | some d =>
    if d.x then
      match d.ptrs with
      | o :: _ =>
        if o = r.agent then []
        else match r.kind with
          | .rdShared | .rdNoexcl | .cmoClean => [(o, .share)]
          | .rdNoalloc => [(o, .peek)]
          | _ => [(o, .inval)]
      | [] => []
    else
      match r.kind with
      | .rdShared | .rdNoexcl | .cmoClean | .rdNoalloc => []
      | .rdUnique | .zeroUnique | .upgrade => ((s.holders d).filter (· != r.agent)).map (fun a => (a, .inval))
      | _ => (s.holders d).map (fun a => (a, .inval))

/-- The agent number of a request that nobody awaits: a directory eviction, or one whose agent is lost. -/
def nobody : Nat := 64

/-- Answer a requester. -/
def State.reply (s : State) (t : Nat) (r : HReq) (k : MKind) (d : LineData) : State :=
  if r.agent = nobody then s else s.post ⟨k, r.ln, t, r.agent, d, r.who, 0⟩

/-- The transaction in service on a line. -/
def Home.txn (h : Home) (ln : Nat) : Option HTxn := h.txns.find? (fun x => x.req.ln == ln)

/-- Replace the transaction in service on a line. -/
def Home.setTxn (h : Home) (x : HTxn) : Home :=
  { h with txns := h.txns.map (fun y => if y.req.ln == x.req.ln then x else y) }

/-- Set the directory entry of a line in a home, in its old way or the way it was given. -/
def State.dirPut (s : State) (t ln : Nat) (x : Bool) (ptrs : List Nat) (ovf : Bool) (way : Nat) : State :=
  s.setHome t ((s.home t).setDir ln ⟨x, ptrs, ovf, way⟩)

/-- Remove the directory entry of a line in a home. -/
def State.dirDel (s : State) (t ln : Nat) : State := s.setHome t ((s.home t).noDir ln)

/-- Whether an UPGRADE is granted without data: the line is in S with the requester named, or OVF set. -/
def upgradeNamed (r : HReq) (d : Option DirEnt) : Bool :=
  match d with
  | some d => !d.x && (d.ovf || d.ptrs.contains r.agent)
  | none => false

/-- A holder has lost its copy of a line: an UPGRADE it has waiting at a home asks for the data too, since an UPGRADE is of
a line held in S (10 R292; DEDUCED, notes/assumptions/116.md). -/
def Home.noUpgrade (h : Home) (ln a : Nat) : Home :=
  { h with waitq := h.waitq.map (fun (r : HReq) =>
      if r.ln == ln && r.agent == a && r.kind == .upgrade then { r with kind := .rdUnique } else r) }

/-- The same in its cluster, for an UPGRADE not yet sent. -/
def Cluster.noUpgrade (c : Cluster) (ln : Nat) : Cluster :=
  { c with reqs := c.reqs.map (fun (r : CReq) =>
      if r.ln == ln && r.kind == .upgrade && !r.sent then { r with kind := .rdUnique } else r) }

/-- Whether a request needs line data once its snoops are answered (10 R294). -/
def needsData (r : HReq) (d : Option DirEnt) (got : Option LineData) : Bool :=
  got.isNone &&
  (match r.kind with
   | .rdShared | .rdNoexcl | .rdUnique | .rdNoalloc => true
   | .upgrade => !upgradeNamed r d
   | .wrMask => d.any (·.x)
   | _ => false)

/-- The effect of a request whose snoops are answered and whose data is at hand, by the table *Home actions* (10 R294).
`d` is the entry before the request, `dat` the data where the request needs any, `dirty` whether it came from a
snoop, `fresh` whether it came from memory. -/
def State.act (s : State) (t : Nat) (x : HTxn) (dat : LineData) (dirty fresh : Bool) : State :=
  let r := x.req
  let hm := s.home t
  let d := hm.dirOf r.ln
  let way := match d with
    | some e => e.way
    | none => x.way.getD (match s.dirRoom t r.ln r.who.pid with
      | .inl w => w
      | .inr _ => (waysOf 16 (s.dirMask r.who.pid)).headD 0)
  let alloc (s : State) : State :=
    if dirty then s.l3Alloc t r.ln dat true r.who.pid (some r.who)
    else if fresh && !r.stream && ((s.home t).l3Find r.ln).isNone then s.l3Alloc t r.ln dat false r.who.pid (some r.who) else s
  match r.kind with
  | .rdShared | .rdNoexcl =>
    match d with
    | none =>
      let e := r.kind == .rdShared
      let s := (alloc s).dirPut t r.ln e [r.agent] false way
      s.reply t r (.datGrant (some (if e then .e else .s))) dat
    | some e =>
      let base : DirEnt := if e.x then ⟨false, x.kept, false, e.way⟩ else e
      let j := base.join r.agent
      ((alloc s).dirPut t r.ln j.x j.ptrs j.ovf j.way).reply t r (.datGrant (some .s)) dat
  | .rdUnique => (s.dirPut t r.ln true [r.agent] false way).reply t r (.datGrant (some .m)) dat
  | .upgrade =>
    let s' := s.dirPut t r.ln true [r.agent] false way
    if upgradeNamed r d then s'.reply t r .rspGrant noData else s'.reply t r (.datGrant (some .m)) dat
  | .zeroUnique =>
    let s := s.setHome t ((s.home t).l3Drop r.ln)
    (s.dirPut t r.ln true [r.agent] false way).reply t r .rspGrant noData
  | .cmoClean =>
    let s := (if dirty then s.l3Alloc t r.ln dat true r.who.pid (some r.who) else s).l3Clean t r.ln (some r.who)
    let s := match d with
      | some e => if e.x then (if x.kept.isEmpty then s.dirDel t r.ln else s.dirPut t r.ln false x.kept false e.way) else s
      | none => s
    s.reply t r .rspWdone noData
  | .cmoFlush =>
    let s := if dirty then s.memWr r.ln dat (some r.who) else s.l3Clean t r.ln (some r.who)
    ((s.l3Take t r.ln).dirDel t r.ln).reply t r .rspWdone noData
  | .rdNoalloc =>
    -- an owner that no longer had the line had evicted it (R297): a write-back taken by the snoop goes into the L3
    let s := match d with
      | some e =>
        if e.x && x.kept.isEmpty then (if dirty then s.l3Alloc t r.ln dat true r.who.pid (some r.who) else s).dirDel t r.ln
        else if e.ptrs.isEmpty && !e.ovf then s.dirDel t r.ln else s
      | none => s
    s.reply t r (.datGrant none) dat
  | .wrFull =>
    let s := s.dirDel t r.ln
    let nd : LineData := ⟨fitB 128 r.data, false⟩
    let s := if ((s.home t).l3Find r.ln).isSome then s.l3Alloc t r.ln nd true r.who.pid (some r.who) else s.memWr r.ln nd (some r.who)
    s.reply t r .rspWdone noData
  | .wrMask =>
    let wasX := d.any (·.x)
    let s := s.dirDel t r.ln
    let s :=
      if wasX then s.l3Alloc t r.ln ⟨maskMerge dat.data (fitB 128 r.data) r.mask, dat.poison⟩ true r.who.pid (some r.who)
      else match (s.home t).l3Find r.ln with
        | some (_, v) =>
          s.l3Alloc t r.ln ⟨maskMerge v.data.data (fitB 128 r.data) r.mask, v.data.poison⟩ true r.who.pid (some r.who)
        | none => s.queueWrite ⟨r.ln, r.data, r.mask, false, .home, false, some r.who⟩
    s.reply t r .rspWdone noData
  | .dirEvict => s

/-- The end of a request that gets nothing: the copies its snoops left stay in the directory, and an owner's dirty data goes
into the L3. -/
def State.actLost (s : State) (t : Nat) (x : HTxn) (dat : LineData) (dirty : Bool) : State :=
  let r := x.req
  let s := if dirty then s.l3Alloc t r.ln dat true r.who.pid (some r.who) else s
  if r.kind.takesCopies then s.dirDel t r.ln
  else match (s.home t).dirOf r.ln with
    | some e =>
      if !e.x then (if e.ptrs.isEmpty && !e.ovf then s.dirDel t r.ln else s)
      else if x.kept.isEmpty then s.dirDel t r.ln else s.dirPut t r.ln false x.kept false e.way
    | none => s

/-- What a transaction does once its snoops are answered and its data is at hand: its request's action; one that a zero-fill
has overtaken is refused (09 R281), and one whose agent is lost grants nothing (10 R290, 16 R408). -/
def State.finish (s : State) (t : Nat) (x : HTxn) (dat : LineData) (dirty fresh : Bool) : State :=
  if x.void then ((s.dirDel t x.req.ln).logFw x.req.who (128 * x.req.ln) x.req.kind.isWrite).reply t x.req (.rspError codeFirewall) noData
  else if x.req.agent = nobody then s.actLost t x dat dirty
  else s.act t x dat dirty fresh

/-- Whether a hold is a sweep of the home's tags (09 R280, 10 R300): a range of at most 512 lines is done line by line, and a
share moving back is swept by the substitute. -/
def Hold.isSweep (r : Hold) : Bool := !r.done && (r.kind == 2 || r.kind == 4 || (decide (r.kind ≤ 1) && decide (512 ≤ r.hi - r.lo)))

/-- Whether a line lies in a range its home holds requests for. -/
def Home.held (h : Home) (ln : Nat) : Bool :=
  h.holds.any (fun r => !r.done && (if r.kind = 3 then hashHome (128 * ln) == r.lo else decide (r.lo ≤ ln) && decide (ln ≤ r.hi)))

/-- Finish a transaction once every snoop is answered: with dirty data, the L3 copy, or after a read of memory. The
`next` argument runs what follows on the line. -/
def State.settle (s : State) (t : Nat) (x : HTxn) (next : State → State) : State :=
  let hm := s.home t
  let d := hm.dirOf x.req.ln
  let fin (s : State) : State :=
    next (s.setHome t { s.home t with txns := (s.home t).txns.filter (fun y => y.req.ln != x.req.ln) })
  match x.got with
  | some g => fin (s.finish t x g true false)
  | none =>
    if needsData x.req d none then
      match hm.l3Find x.req.ln with
      | some (_, v) => fin ((s.pmcStop t 1 x.req.who).finish t x v.data false false)
      | none =>
        let s := s.pmcStop t 2 x.req.who
        let s := s.setHome t ((s.home t).setTxn { x with mem := true })
        s.post ⟨.memRead, x.req.ln, t, x.req.agent, noData, x.req.who, 0⟩
    else fin (s.finish t x noData false false)

/-- Begin the snoops of a transaction, or settle it at once when it needs none. -/
def State.beginSnoops (s : State) (t : Nat) (x : HTxn) (next : State → State) : State :=
  let d := (s.home t).dirOf x.req.ln
  let snps := s.snoopsFor x.req d
  if snps.isEmpty then
    s.settle t { x with dirWait := false } next
  else
    let s := if d.any (fun e => e.ovf && !e.x) then s.pmcStop t 4 x.req.who else s
    let s := snps.foldl (fun s p => (s.pmcStop t 3 x.req.who).post ⟨.snp p.2, x.req.ln, t, p.1, noData, x.req.who, 0⟩) s
    s.setHome t ((s.home t).setTxn { x with await := snps.map Prod.fst, dirWait := false })

/-- The oldest waiting request that satisfies a test and that the home could serve now. -/
def State.waiter (s : State) (t : Nat) (p : HReq → Bool) : Option HReq :=
  (s.home t).waitq.find? (fun y => p y && !(s.home t).held y.ln && s.roomFor t y)

/-- Take a request out of the trackers. -/
def State.unwait (s : State) (t : Nat) (y : HReq) : State := s.setHome t { s.home t with waitq := (s.home t).waitq.erase y }

/-- Serve a request whose line is free (10 R294, 14 R368): the firewall check, a directory victim where the set is full
(R291), then the snoops. `fuel` bounds the chain of requests that this one's end lets proceed. -/
def State.serve (s : State) (t : Nat) (r : HReq) : Nat → State
  | 0 => s
  | fuel + 1 =>
    let pa := 128 * r.ln
    if r.kind != .dirEvict && !(s.isMem pa && s.fwGrants r.who pa r.kind.isWrite) then
      let s := if s.isMem pa then s.logFw r.who pa r.kind.isWrite else s
      s.reply t r (.rspError codeFirewall) noData
    else
      let hm := s.home t
      let x : HTxn := ⟨r, [], none, [], [], [], false, false, 0, none, false⟩
      let next (s : State) : State :=
        match s.waiter t (fun y => y.ln == r.ln) with
        | some y => (s.unwait t y).serve t y fuel
        | none => s
      if r.kind.makesEntry && (hm.dirOf r.ln).isNone then
        match s.dirRoom t r.ln r.who.pid with
        | .inl w =>
          let x := { x with way := some w }
          (s.setHome t { hm with txns := hm.txns ++ [x] }).beginSnoops t x next
        | .inr [] => s.setHome t { hm with waitq := hm.waitq ++ [r] }
        | .inr (c :: cs) =>
          let (i, s) := s.lfsrPick t (c :: cs).length
          let v := nthD (c :: cs) i c
          let s := s.pmcStop t 5 r.who
          let x := { x with dirWait := true, way := (hm.dirOf v).map (·.way) }
          let xv : HTxn := ⟨⟨.dirEvict, v, nobody, r.who, false, [], 0⟩, [], none, [], [], [], false, false, r.ln, none, false⟩
          let s := s.setHome t { s.home t with txns := (s.home t).txns ++ [x, xv] }
          s.beginSnoops t xv (fun s =>
            match (s.home t).txn r.ln with
            | some x => s.beginSnoops t x next
            | none => s)
      else (s.setHome t { hm with txns := hm.txns ++ [x] }).beginSnoops t x next

/-- Requests that wait though their line is free, for a range their home held or for a directory way, proceed, oldest first. -/
def State.reAdmit (s : State) (t : Nat) : State :=
  let ws := (s.home t).waitq
  ws.foldl (fun s r =>
    let hm := s.home t
    let first := (hm.waitq.find? (fun y => y.ln == r.ln)) == some r
    if first && (hm.txn r.ln).isNone && !hm.held r.ln && s.roomFor t r then
      (s.unwait t r).serve t r (hm.waitq.length + 1)
    else s) s

/-- Go on at a home after a line's transaction ended: the request that waited for a directory victim, then the oldest
request that waits for the line, then those that wait for a way of its directory set (10 R291). -/
def State.proceed (s : State) (t : Nat) (x : HTxn) : State :=
  let n := (s.home t).waitq.length + 1
  let nextOn (ln : Nat) (s : State) : State :=
    match s.waiter t (fun y => y.ln == ln) with
    | some y => (s.unwait t y).serve t y n
    | none => s
  let s := nextOn x.req.ln s
  let s := if x.req.kind = .dirEvict then
      match (s.home t).txn x.victimFor with
      | some y => if y.dirWait then s.beginSnoops t y (nextOn y.req.ln) else s
      | none => s
    else s
  if (s.home t).waitq.isEmpty then s else s.reAdmit t

/-- A request arrives at its home (10 R293): it is served, or takes one of 256 trackers and waits while its line is in
service, waited for, in a range the home holds, or without a directory way. With no tracker free it is not accepted. -/
def State.arrive (s : State) (t : Nat) (r : HReq) : State :=
  let hm := s.home t
  if 256 ≤ hm.txns.length + hm.waitq.length then s
  else
    let s := s.pmcStop t 0 r.who
    let hm := s.home t
    if (hm.txn r.ln).isSome || hm.waitq.any (fun y => y.ln == r.ln) || hm.held r.ln || !s.roomFor t r then
      s.setHome t { hm with waitq := hm.waitq ++ [r] }
    else s.serve t r (hm.waitq.length + 1)

/-! ### Answers at the home -/

/-- A snoop answer arrives: `keep` when the agent keeps a copy, `dat` its dirty data. An agent whose eviction of the line has
overtaken its answer keeps none, and the data of its WB_DIRTY is the newest (10 R297). When it is the last awaited, the
transaction settles. -/
def State.snoopAnswer (s : State) (t ln a : Nat) (keep : Bool) (dat : Option LineData) : State :=
  match (s.home t).txn ln with
  | none => s
  | some x =>
    if x.await.contains a then
      let left := x.half.contains a
      let x := { x with
        await := x.await.erase a,
        kept := if keep && !left && !x.gone.contains a then x.kept ++ [a] else x.kept,
        half := x.half.erase a,
        got := if left then x.got else match dat with
          | some g => some g
          | none => x.got }
      let hm := (s.home t).setTxn x
      let s := s.setHome t (if x.req.kind.takesCopies then hm.noUpgrade ln a else hm)
      if x.await.isEmpty then s.settle t x (fun s => s.proceed t x) else s
    else s

/-- One half of a crossing arrives, the RSP_WBIF or the WB_DIRTY it announces (10 R297): the second half answers the
snoop. -/
def State.crossing (s : State) (t ln a : Nat) (dat : Option LineData) : State :=
  match (s.home t).txn ln with
  | none => s
  | some x =>
    let x := { x with got := match dat with
      | some g => some g
      | none => x.got }
    if x.half.contains a then
      (s.setHome t ((s.home t).setTxn { x with half := x.half.erase a })).snoopAnswer t ln a false none
    else s.setHome t ((s.home t).setTxn { x with half := x.half ++ [a] })

/-- A WB_DIRTY reaches its home (10 R294, R297): awaited by a snoop it completes that snoop, from the owner it is
absorbed into the L3; it is dropped where the firewall refuses its identity the write (09 R281), or where a composed access
has consumed its data (`taken`). WB_ACK is sent. -/
def State.absorbWb (s : State) (t ln a : Nat) (who : Ident) (d : LineData) (taken : Bool) : State :=
  let s := s.pmcStop t 9 who
  if taken then s.post ⟨.wbAck, ln, t, a, noData, who, 0⟩
  else
  let ok := s.fwGrants who (128 * ln) true
  let s := if ok then s else s.logFw who (128 * ln) true
  let awaited := match (s.home t).txn ln with
    | some x => x.await.contains a
    | none => false
  let s :=
    if awaited then s.crossing t ln a (if ok then some d else none)
    else match (s.home t).dirOf ln with
      | some e =>
        if e.x && e.ptrs.contains a then
          let s := if ok then s.l3Alloc t ln d true who.pid (some who) else s
          s.dirDel t ln
        else s
      | none => s
  s.post ⟨.wbAck, ln, t, a, noData, who, 0⟩

/-- What an EVICT_CLEAN tells a transaction in service on its line: the agent has no copy, whatever it has answered or will
answer (10 R297). -/
def HTxn.evicted (x : HTxn) (a : Nat) : HTxn :=
  { x with
    kept := x.kept.erase a, gone := if x.await.contains a then x.gone ++ [a] else x.gone
    req := if x.req.agent == a && x.req.kind == .upgrade then { x.req with kind := .rdUnique } else x.req }

/-- An EVICT_CLEAN reaches its home (10 R294, R290, R297): WB_ACK is sent, and the holder goes from the entry, which stays
until a transaction in service on the line ends. -/
def State.evictClean (s : State) (t ln a : Nat) (who : Ident) : State :=
  let busy := ((s.home t).txn ln).isSome
  let s := s.setHome t ({ s.home t with
    txns := (s.home t).txns.map (fun (x : HTxn) => if x.req.ln == ln then x.evicted a else x) }.noUpgrade ln a)
  let s := match (s.home t).dirOf ln with
    | some e =>
      if e.x then (if e.ptrs.contains a && !busy then s.dirDel t ln else s)
      else if e.ovf then s
      else
        let p := e.ptrs.filter (· != a)
        if p.isEmpty && !busy then s.dirDel t ln else s.setHome t ((s.home t).setDir ln { e with ptrs := p })
    | none => s
  s.post ⟨.wbAck, ln, t, a, noData, who, 0⟩

/-- Line data from memory reaches its home: the request waiting on it completes (10 R294). -/
def State.memData (s : State) (t ln : Nat) (d : LineData) : State :=
  match (s.home t).txn ln with
  | some x =>
    if x.mem then
      let s := s.finish t x d false true
      let s := s.setHome t { s.home t with txns := (s.home t).txns.filter (fun y => y.req.ln != ln) }
      s.proceed t x
    else s
  | none => s

/-! ### Clusters -/

/-- A line in a cluster's L2. -/
def Cluster.find (c : Cluster) (ln : Nat) : Option (Nat × L2Line) := c.l2.find? (fun e => e.2.ln == ln)

/-! L1s (10 R282 to R284) -/

/-- Whether a set holds a line. -/
def L1Set.has (x : L1Set) (ln : Nat) : Bool := x.ways.any (fun e => e.2 == ln)

/-- Point the replacement tree away from a way: node 1 is the root, and a set bit sends the search to the right. -/
def treeTouch (tree w : Nat) : Nat :=
  ((List.range 4).foldl (fun (p : Nat × Nat) d =>
    let right := w.testBit (3 - d)
    (2 * p.1 + b2n right, setBits p.2 p.1 p.1 (b2n (!right)))) (1, tree)).2

/-- The way the tree points to. -/
def treeVictim (tree : Nat) : Nat :=
  (List.range 4).foldl (fun n _ => 2 * n + b2n (tree.testBit n)) 1 - 16

/-- Use a line in a set, filling it where it is not held: the lowest free way, else the tree's victim. -/
def L1Set.use (x : L1Set) (ln : Nat) : L1Set :=
  match x.ways.find? (fun e => e.2 == ln) with
  | some e => { x with tree := treeTouch x.tree e.1 }
  | none =>
    let w := ((List.range 16).find? (fun w => (Tab.look x.ways w).isNone)).getD (treeVictim x.tree)
    ⟨Tab.ins x.ways w ln, treeTouch x.tree w⟩

/-- Drop a line from a set. -/
def L1Set.drop (x : L1Set) (ln : Nat) : L1Set :=
  if x.has ln then (let y : L1Set := { x with ways := x.ways.filter (fun e => e.2 != ln) }
    if y.ways.isEmpty then L1Set.empty else y) else x

/-- Whether L1 `k` of a cluster holds a line. -/
def Cluster.l1Has (c : Cluster) (k ln : Nat) : Bool := (Tab.get L1Set.empty c.l1 (32 * k + ln % 32)).has ln

/-- L1 `k` of a cluster uses a line. -/
def Cluster.l1Use (c : Cluster) (k ln : Nat) : Cluster :=
  { c with l1 := Tab.upd L1Set.empty c.l1 (32 * k + ln % 32) (fun x => x.use ln) }

/-- The L1s of a cluster that satisfy a test give a line up. -/
def Cluster.l1Drop (c : Cluster) (p : Nat → Bool) (ln : Nat) : Cluster :=
  { c with l1 := List.filter (fun e => decide (e.2 ≠ L1Set.empty)) (List.map (fun (e : Nat × L1Set) =>
      if e.1 % 32 == ln % 32 && p (e.1 / 32) then (e.1, e.2.drop ln) else e) c.l1) }

/-- L1 `k` of a cluster is invalidated; the prefetcher of an L1D forgets its last miss. -/
def Cluster.l1Clear (c : Cluster) (k : Nat) : Cluster :=
  { c with l1 := c.l1.keep (fun i _ => i / 32 != k), dmiss := c.dmiss.keep (fun i _ => i != k) }

/-- Remove a line from the L2, and from the L1s it includes (10 R284). -/
def Cluster.drop (c : Cluster) (ln : Nat) : Cluster :=
  { c.l1Drop (fun _ => true) ln with l2 := c.l2.filter (fun e => e.2.ln != ln) }

/-- The line in the eviction buffer (10 R295). -/
def Cluster.evicting (c : Cluster) (ln : Nat) : Option EvEnt := c.evict.find? (fun e => e.ln == ln)

/-- The key of way 0 of a line's L2 set (10 R284). -/
def l2Key (ln : Nat) : Nat := (2048 * (ln % 3) + ln / 3 % 2048) * 16

/-- Break the reservations other harts hold on a line; a hart in WRS.STO resumes (12 R330). -/
def State.breakResv (s : State) (ln : Nat) (keep : Nat) (only : Nat → Bool) : State :=
  { s with harts := List.filter (fun e => decide (e.2 ≠ Hart.reset)) (List.map (fun (e : Nat × Hart) =>
      if e.1 != keep && only e.1 && e.2.resv == some ln then (e.1, { e.2 with resv := none, waiting := if e.2.waiting = .wrs then .running else e.2.waiting }) else e) s.harts) }

/-- Whether a grant of a line to an agent is in flight. -/
def State.grantInFlight (s : State) (a ln : Nat) : Bool :=
  s.net.any (fun m => m.agent == a && m.ln == ln &&
    (match m.kind with
     | .datGrant _ | .rspGrant => true
     | _ => false))

/-- Whether a reservation of a hart of a cluster holds snoops of a line: its time is not over (10 R296). -/
def State.reserved (s : State) (c ln : Nat) : Bool :=
  s.harts.any (fun e => hartCluster e.1 == c && e.2.resv == some ln && !e.2.resvLate)

/-- Whether a cluster holds a snoop back: for a grant in flight, or, when it would remove the line, for an LR reservation (10
R296). -/
def State.holdsSnoop (s : State) (c : Nat) (p : HeldSnp) : Bool :=
  s.grantInFlight c p.ln || (p.kind == .inval && s.reserved c p.ln)

/-- Snoops of a line that a cluster held for a reservation that has ended reach it again, and are answered (10 R296). -/
def State.freeResv (s : State) (c ln : Nat) : State :=
  let cl := s.cluster c
  let go (p : HeldSnp) : Bool := p.ln == ln && !s.holdsSnoop c p
  let ps := cl.held.filter go
  if ps.isEmpty then s
  else
    let s := s.setCluster c { cl with held := cl.held.filter (fun p => !go p) }
    { s with net := ps.map (fun p => s.stamp ⟨.snp p.kind, p.ln, p.home, c, noData, p.who, 0⟩) ++ s.net }

/-- Evictions of a cluster that await WB_ACK from a home. -/
def State.evictsTo (s : State) (c t : Nat) : Nat :=
  ((s.cluster c).evict.filter (fun e => e.sent && s.homeFor (agentStop c) e.ln == t)).length

/-- Send an eviction that waits, unless eight to its home await WB_ACK (11 R316), or the line's share is moving to its home. -/
def State.evictSend (s : State) (c : Nat) (e : EvEnt) : State :=
  let t := s.homeFor (agentStop c) e.ln
  if e.sent || decide (8 ≤ s.evictsTo c t) || s.shareHeld t e.ln then s
  else
    let cl := s.cluster c
    (s.setCluster c { cl with evict := cl.evict.map (fun (v : EvEnt) => if v.ln == e.ln then { v with sent := true } else v) }).post
      ⟨if e.dirty then .wbDirty else .evictClean, e.ln, t, c, if e.dirty then e.data else noData, e.who, 0⟩

/-- Send the evictions that wait, oldest first, as far as they may go. -/
def State.evictMore (s : State) (c : Nat) : State := (s.cluster c).evict.foldl (fun s e => s.evictSend c e) s

/-- Evict a line from the L2 (10 R284, R295): L1 copies go, M sends WB_DIRTY and others EVICT_CLEAN. -/
def State.evictLine (s : State) (c ln : Nat) : State :=
  let cl := s.cluster c
  match cl.find ln with
  | none => s
  | some (_, l) =>
    let e : EvEnt := ⟨ln, l.st == .m, l.data, l.who, false, false⟩
    let s := s.setCluster c { (cl.drop ln).noUpgrade ln with evict := cl.evict ++ [e] }
    let s := (s.breakResv ln 1000 (fun h => hartCluster h == c)).freeResv c ln
    s.evictSend c e

/-- An invalidation reaches the watch cache of the ring manager: a doorbell for the line (06 R199). -/
def State.watchInval (s : State) (ln : Nat) : State :=
  if s.watch.contains ln then
    { s with watch := s.watch.erase ln, dbInval := if s.dbInval.contains ln then s.dbInval else s.dbInval ++ [ln] }
  else s

/-! ### Composed accesses of non-caching agents -/

/-- The newest data of a line that no home and no memory holds yet: an owner's, an eviction's, data in flight, or taken by a
transaction. -/
def State.outside (s : State) (ln : Nat) : Option LineData :=
  match s.clusters.findSome? (fun e => (e.2.find ln).bind (fun p => if p.2.st == .m then some p.2.data else none)) with
  | some d => some d
  | none =>
    match s.clusters.findSome? (fun e => (e.2.evicting ln).bind (fun v => if v.dirty && !v.taken then some v.data else none)) with
    | some d => some d
    | none =>
      match s.net.find? (fun m => m.ln == ln && (m.kind == .datDirty || m.kind == .datGrant (some .m))) with
      | some m => some m.data
      | none => s.homes.findSome? (fun e => (e.2.txn ln).bind (·.got))

/-- The newest data of a line outside memory: that, or the L3 copy. -/
def State.cached (s : State) (ln : Nat) : Option LineData :=
  match s.outside ln with
  | some d => some d
  | none => s.homes.findSome? (fun e => (e.2.l3Find ln).map (fun p => p.2.data))

/-- The home a line stands at: one that knows it, else the one its address is homed at. -/
def State.homeAt (s : State) (ln : Nat) : Nat :=
  match s.homes.find? (fun e => (e.2.dirOf ln).isSome || (e.2.txn ln).isSome || (e.2.l3Find ln).isSome) with
  | some e => e.1
  | none => let d := s.homeStop (128 * ln); s.remap d d

/-- The home that has a line in state X with no transaction in service on it. -/
def State.ownedAt (s : State) (ln : Nat) : Option Nat :=
  (s.homes.find? (fun e => (e.2.dirOf ln).any (·.x) && (e.2.txn ln).isNone)).map Prod.fst

/-- Clusters whose copy of a line a grant in flight, or an UPGRADE in service, makes or keeps. -/
def State.granting (s : State) (ln : Nat) : List Nat :=
  (s.net.filterMap (fun m => if m.ln == ln then
      (match m.kind with
       | .datGrant (some _) | .rspGrant => some m.agent
       | _ => none) else none) ++
    s.homes.filterMap (fun e => (e.2.txn ln).bind (fun x => if x.req.kind == .upgrade then some x.req.agent else none))).eraseDups

/-- Whether a home waits for the answer of agent `a` to a snoop of a line. -/
def State.awaiting (s : State) (a ln : Nat) : Bool := s.homes.any (fun e => (e.2.txn ln).any (fun x => x.await.contains a))

/-- How an access of a non-caching agent to one line ended. -/
inductive AccRes where
  | ok
  /-- refused by the firewall -/
  | firewall
  /-- to no memory: decoded at the requester's stop -/
  | absent
  /-- its home is fenced (11 R326) -/
  | off
  deriving DecidableEq, Repr

/-- The current data of a line, read at its home without creating state (10 R294, RD_NOALLOC). -/
def State.lineNow (s : State) (who : Ident) (ln : Nat) : LineData × State :=
  match s.cached ln with
  | some d => (⟨fitB 128 d.data, d.poison⟩, s)
  | none => (s.pmcMem ln 0 2 (some who)).readLineQ ln 1

/-- Check an access of an identity to a line: the address map, a fence of its home, then the firewall (01 R19, R21, 09 R278,
11 R326). -/
def State.checkAcc (s : State) (who : Ident) (pa : Nat) (write : Bool) : AccRes × State :=
  if !s.isMem pa then (.absent, s.logFw who pa write)
  else if s.fenced (s.homeAt (pa / 128)) 0 then (.off, s.logFw who pa write)
  else if s.fwGrants who pa write then (.ok, s)
  else (.firewall, s.logFw who pa write)

/-- A non-caching read of a line under an identity. -/
def State.readLine (s : State) (who : Ident) (ln : Nat) : AccRes × LineData × State :=
  match s.checkAcc who (128 * ln) false with
  | (.ok, s) =>
    let (d, s) := s.lineNow who ln
    (.ok, d, s)
  | (r, s) => (r, ⟨zeroLine, false⟩, s)

/-- What a composed access leaves of a cluster's hold on a line: `mine` when a grant of the line to it is in flight or in
service, whose copy carries on with its data changed, and `late` when a transaction awaits its answer to a snoop. Any other
copy goes, and a write-back that nothing awaits has been consumed. -/
def Cluster.yield (c : Cluster) (ln : Nat) (mine late : Bool) (f : LineData → LineData) : Cluster :=
  let c : Cluster := if mine then
      { c.l1Drop (fun _ => true) ln with l2 := c.l2.mapV (fun (p : L2Line) => if p.ln == ln then { p with data := f p.data } else p) }
    else (c.drop ln).noUpgrade ln
  { c with evict := c.evict.map (fun (v : EvEnt) =>
      if v.ln == ln && v.dirty then { v with data := f v.data, taken := v.taken || !late } else v) }

/-- Every copy of a line outside the L3 and memory gives way, as when the home snoops its holders (10 R294): copies go,
reservations of the line end, and the watch cache is invalidated. What an earlier transaction has in flight carries on with
its data changed by `f`: it is served after this access. A write-back that no snoop awaits is consumed now, and its WB_DIRTY
gets only WB_ACK (R297). -/
def State.takeBack (s : State) (ln : Nat) (f : LineData → LineData) : State :=
  let g := s.granting ln
  let late (a : Nat) : Bool := s.awaiting a ln
  let s := { s with
    clusters := List.filter (fun e => decide (e.2 ≠ Cluster.empty)) (List.map (fun (e : Nat × Cluster) =>
      (e.1, e.2.yield ln (g.contains e.1) (late e.1) f)) s.clusters)
    net := s.net.map (fun (m : Msg) =>
      if m.ln == ln then
        match m.kind with
        | .datDirty | .datGrant _ | .memData | .wbDirty => { m with data := f m.data }
        | _ => m
      else m)
    homes := s.homes.mapD Home.empty (fun (h : Home) => { h with
      dir := if (h.txn ln).isSome then h.dir
        else match h.dirOf ln with
          | none => h.dir
          | some e => if g.isEmpty then Tab.del h.dir ln else Tab.ins h.dir ln ⟨e.x, g.take 3, decide (3 < g.length), e.way⟩
      waitq := h.waitq.map (fun (r : HReq) =>
        if r.ln == ln && r.kind == ReqKind.upgrade && !g.contains r.agent then { r with kind := .rdUnique } else r)
      txns := h.txns.map (fun (x : HTxn) => if x.req.ln == ln then { x with got := x.got.map f } else x) }) }
  let s := s.breakResv ln 1000 (fun _ => true)
  (s.clusters.keys.foldl (fun s c => s.freeResv c ln) s).watchInval ln

/-- A zero-fill discards a line (09 R281): every cached copy goes unwritten, the grants in flight of it are refused, and a
transaction in service on it will be. -/
def State.discardLine (s : State) (ln : Nat) : State :=
  let z : LineData := ⟨zeroLine, false⟩
  let s := { s with
    clusters := List.filter (fun e => decide (e.2 ≠ Cluster.empty)) (List.map (fun (e : Nat × Cluster) =>
      (e.1, e.2.yield ln false false (fun _ => z))) s.clusters)
    net := s.net.map (fun (m : Msg) =>
      if m.ln == ln then
        match m.kind with
        | .datGrant (some _) | .rspGrant => { m with kind := .rspError codeFirewall, data := noData }
        | .datDirty | .datGrant none | .memData | .wbDirty => { m with data := z }
        | _ => m
      else m)
    homes := s.homes.mapD Home.empty (fun (h : Home) => { h with
      dir := if (h.txn ln).isSome then h.dir else Tab.del h.dir ln
      txns := h.txns.map (fun (x : HTxn) => if x.req.ln == ln then { x with got := x.got.map (fun _ => z), void := true } else x) }) }
  let s := s.breakResv ln 1000 (fun _ => true)
  (s.clusters.keys.foldl (fun s c => s.freeResv c ln) s).watchInval ln

/-- Put new data of a line in force everywhere (10 R294, WR_FULL and WR_MASK): the L3 copy is written if there is one, and
memory otherwise. -/
def State.overwrite (s : State) (who : Ident) (ln : Nat) (d : LineData) : State :=
  let s := s.takeBack ln (fun _ => d)
  if s.homes.any (fun e => (e.2.l3Find ln).isSome) then
    { s with homes := s.homes.mapV (fun (h : Home) =>
        { h with l3 := h.l3.mapV (fun (p : L3Line) => if p.ln == ln then { p with data := d, dirty := true } else p) }) }
  else s.writeLineNow ⟨ln, d.data, 2 ^ 128 - 1, d.poison, .home, false, some who⟩

/-- Write some bytes of a line at its home (10 R294, WR_MASK): merged with an owner's data and put into the L3; merged with
other newest data; or else handed to the controller as a masked write (09 R269). -/
def State.mergeWrite (s : State) (who : Ident) (ln : Nat) (data : List Byte) (mask : Nat) : State :=
  let m (d : LineData) : LineData := ⟨maskMerge (fitB 128 d.data) (fitB 128 data) mask, d.poison⟩
  match s.ownedAt ln with
  | some t =>
    let (d, s) := s.lineNow who ln
    (s.takeBack ln (fun _ => m d)).l3Alloc t ln (m d) true who.pid (some who)
  | none =>
    match s.cached ln with
    | some d => s.overwrite who ln (m d)
    | none => (s.takeBack ln m).writeLineNow ⟨ln, data, mask, false, .home, false, some who⟩

/-- A non-caching write of a line under an identity, `mask` naming its bytes. -/
def State.writeLine (s : State) (who : Ident) (ln : Nat) (data : List Byte) (mask : Nat) : AccRes × State :=
  match s.checkAcc who (128 * ln) true with
  | (.ok, s) =>
    (.ok, if mask % 2 ^ 128 == 2 ^ 128 - 1 then s.overwrite who ln ⟨fitB 128 data, false⟩ else s.mergeWrite who ln data mask)
  | (r, s) => (r, s)

/-- Write a line as poison under an identity. -/
def State.poisonLine (s : State) (who : Ident) (ln : Nat) (data : List Byte) : AccRes × State :=
  match s.checkAcc who (128 * ln) true with
  | (.ok, s) => (.ok, s.overwrite who ln ⟨fitB 128 data, true⟩)
  | (r, s) => (r, s)

/-- A home operation takes hold of its line (10 R294, HOME_OP; 05 R158) where the firewall lets it: holders are snooped, and
the line, with an owner's dirty data, stands in the L3 before the operation acts on it. -/
def State.homePull (s : State) (who : Ident) (pa : Nat) (write : Bool) : State :=
  let ln := pa / 128
  if !(s.isMem pa && s.fwGrants who pa write) || s.fenced (s.homeAt ln) 0 then s
  else
    let dirty := (s.outside ln).isSome
    let t := s.homeAt ln
    if !dirty && ((s.home t).l3Find ln).isSome then s.takeBack ln id
    else
      let (d, s) := s.lineNow who ln
      (s.takeBack ln (fun _ => d)).l3Alloc t ln d dirty who.pid (some who)

/-- The result of reading bytes: how it ended, the bytes, and whether any line was poisoned. -/
structure RdRes where
  res : AccRes
  bytes : List Byte
  poison : Bool
  deriving DecidableEq, Repr

/-- Read bytes at physical addresses under an identity, line by line; the first refusal ends it. `fuel` lines. -/
def State.readGo (s : State) (who : Ident) : Nat → Nat → Nat → RdRes × State
  | 0, _, _ => (⟨.ok, [], false⟩, s)
  | _ + 1, _, 0 => (⟨.ok, [], false⟩, s)
  | f + 1, pa, n =>
    let k := min n (128 - pa % 128)
    match s.readLine who (pa / 128) with
    | (.ok, d, s) =>
      let (r, s) := State.readGo s who f (pa + k) (n - k)
      (⟨r.res, sliceB d.data (pa % 128) k ++ r.bytes, d.poison || r.poison⟩, s)
    | (e, _, s) => (⟨e, [], false⟩, s)

/-- Read `n` bytes at a physical address under an identity. -/
def State.readPa (s : State) (who : Ident) (pa n : Nat) : RdRes × State := s.readGo who (n / 128 + 2) pa n

/-- Write bytes at physical addresses under an identity, line by line; the first refusal ends it. -/
def State.writeGo (s : State) (who : Ident) : Nat → Nat → List Byte → AccRes × State
  | 0, _, _ => (.ok, s)
  | _ + 1, _, [] => (.ok, s)
  | f + 1, pa, b :: t =>
    let l := b :: t
    let o := pa % 128
    let k := min l.length (128 - o)
    match s.writeLine who (pa / 128) (List.replicate o 0 ++ l.take k) ((2 ^ k - 1) * 2 ^ o) with
    | (.ok, s) => State.writeGo s who f (pa + k) (l.drop k)
    | (e, s) => (e, s)

/-- Write bytes at a physical address under an identity. -/
def State.writePa (s : State) (who : Ident) (pa : Nat) (l : List Byte) : AccRes × State :=
  s.writeGo who (l.length / 128 + 2) pa l

/-! ### Whole-line maintenance (10 R294, R300, R301, 09 R281) -/

/-- Take a line out of every L3. -/
def State.l3TakeAll (s : State) (ln : Nat) : State := s.forAll 64 (fun t s => s.l3Take t ln)

/-- Write a dirty L3 copy to memory, wherever it stands. -/
def State.l3CleanAll (s : State) (ln : Nat) (who : Option Ident) : State :=
  (s.homes.keys).foldl (fun s t => s.l3Clean t ln who) s

/-- Write-backs of a line that no snoop awaits are consumed: their data has been taken (10 R297). -/
def State.wbTaken (s : State) (ln : Nat) : State :=
  { s with
    clusters := List.map (fun (e : Nat × Cluster) => (e.1, { e.2 with evict := e.2.evict.map (fun (v : EvEnt) =>
      if v.ln == ln && v.dirty && !s.awaiting e.1 ln then { v with taken := true } else v) })) s.clusters }

/-- CMO_CLEAN of a line at its home (10 R294): an owner keeps a clean copy, its dirty data or a dirty L3 copy is written to
memory, and the L3 keeps it clean. A transaction or a grant under way is served after it. -/
def State.cleanLine (s : State) (who : Ident) (ln : Nat) : State :=
  let out := s.outside ln
  let s := s.wbTaken ln
  match s.ownedAt ln, (s.granting ln).isEmpty with
  | some t, true =>
    let held := below 36 (fun c => ((s.cluster c).find ln).isSome)
    let s := { s with clusters := s.clusters.mapV (fun (c : Cluster) => { c with
      l2 := c.l2.mapV (fun (p : L2Line) => if p.ln == ln then { p with st := .s } else p) }) }
    let s := match out with
      | some d => s.l3Alloc t ln d true who.pid (some who)
      | none => s
    let s := match (s.home t).dirOf ln with
      | some e => if held.isEmpty then s.dirDel t ln else s.dirPut t ln false (held.take 3) false e.way
      | none => s
    s.l3CleanAll ln (some who)
  | _, _ =>
    match out with
    | some d => s.memWr ln d (some who)
    | none => s.l3CleanAll ln (some who)

/-- CMO_FLUSH of a line at its home (10 R294, R301): dirty data goes to memory, and every copy goes. -/
def State.flushLine (s : State) (ln : Nat) : State :=
  let s := match s.outside ln with
    | some d => s.memWr ln d none
    | none => s.l3CleanAll ln none
  (s.takeBack ln id).l3TakeAll ln

/-- The lines of a range that are cached anywhere: in an L2, an L3, an eviction buffer or a directory; in flight, or in service. -/
def State.cachedLines (s : State) (lo hi : Nat) : List Nat :=
  let inR := fun ln => decide (lo ≤ ln) && decide (ln ≤ hi)
  let a := s.clusters.flatMap (fun e => (e.2.l2.map (fun p => p.2.ln) ++ e.2.evict.map (·.ln)).filter inR)
  let b := s.homes.flatMap (fun e => (e.2.l3.map (fun p => p.2.ln) ++ e.2.dir.map Prod.fst).filter inR)
  let c := s.homes.flatMap (fun e => (e.2.txns.map (·.req.ln)).filter inR)
  let n := (s.net.map (·.ln)).filter inR
  let w := s.watch.filter inR
  (a ++ b ++ c ++ n ++ w).eraseDups

/-! ### The watch cache (06 R198) -/

/-- Lines the doorbells of enabled ring pairs and channels name; those of Finxis ring pairs are not used (06 R202). -/
def State.namedLines (s : State) : List Nat :=
  ((s.regs.keys.filter (fun o => decide (Reg.RING_DB 0 ≤ o) && decide (o < Reg.RING_DB 4096))).filterMap (fun o =>
      let a := s.rd (o - 0x18) F.RING_CFG_ATTACH
      if o % 0x40 = 0x18 ∧ s.on o F.RING_DB_EN = true ∧ s.on (o - 0x18) F.RING_CFG_VALID = true ∧ (a = 0 ∨ 4 < a) then
        some (s.rd o F.RING_DB_LINE) else none) ++
    (below 32 (fun n => s.on (Reg.DM_DB n) F.DM_DB_EN && s.on (Reg.DM_CFG n) F.DM_CFG_VALID)).map
      (fun n => s.rd (Reg.DM_DB n) F.DM_DB_LINE)).eraseDups

/-- Lines the watch cache holds, those being read again among them. -/
def State.watched (s : State) : List Nat := (s.watch ++ s.dbInval).eraseDups

/-- Whether the watch cache has no room for a line: it holds 512 others, and every one is named (06 R198). -/
def State.watchFull (s : State) (ln : Nat) : Bool :=
  !s.watched.contains ln && decide (512 ≤ s.watched.length) && s.watched.all s.namedLines.contains

/-- Room in the watch cache for a line: the oldest line that nothing names any more is given up, and its home told (10
R292). -/
def State.watchRoom (s : State) (ln : Nat) : State :=
  if s.watch.contains ln || decide (s.watch.length < 512) then s
  else match s.watch.find? (fun l => !s.namedLines.contains l) with
    | some l => { s with watch := s.watch.erase l }.post ⟨.evictClean, l, s.homeFor rmgStop l, 36, noData, noIdent, 0⟩
    | none => s

/-- The ring manager wants a line in its watch cache (06 R198): it asks the home for it, unless it has it. -/
def State.watchLine (s : State) (ln : Nat) : State :=
  if s.watch.contains ln || s.dbInval.contains ln then s else { s with dbInval := s.dbInval ++ [ln] }

/-! ### Quiet lines -/

/-- Whether no transaction of a home is in service on lines that satisfy a test, and no message between the home and an agent
is in flight on one. -/
def State.homeQuiet (s : State) (t : Nat) (p : Nat → Bool) : Bool :=
  (s.home t).txns.all (fun x => !p x.req.ln) && s.net.all (fun m => !(m.home == t && p m.ln))

/-- Whether no home has a transaction in service on any line of a range of bytes: an operation of a home or of a port waits for
it (10 R293). -/
def State.linesFree (s : State) (pa n : Nat) : Bool :=
  s.homes.all (fun e => e.2.txns.all (fun x => decide (128 * x.req.ln + 128 ≤ pa) || decide (pa + n ≤ 128 * x.req.ln)))

end Sys2Proof.Machine
end

