-- ==== Sys2Proof/Machine/Trigger.lean ====
section
/-! DEFINITION. The debug triggers of a hart (12 R330, 14 R381; Sdtrig, notes/assumptions/122.md): 8 of them, of types mcontrol6,
icount, itrigger and etrigger. -/

namespace Sys2Proof.Machine
open Sys2Proof

/-- tdata1 of a trigger, or tdata2. -/
def Hart.tdata (h : Hart) (i k : Nat) : Nat := (h.rc (trigCsr i k)).toNat

/-- The type of a trigger: 3 icount, 4 itrigger, 5 etrigger, 6 mcontrol6, 15 disabled. -/
def Hart.trigType (h : Hart) (i : Nat) : Nat := bitsOf (h.tdata i 1) 63 60

/-- Whether a trigger watches the mode a hart runs in: the places of its VS, VU, M, S and U bits go by its type. One that would
raise a breakpoint in M-mode needs tcontrol.MTE. -/
def Hart.trigOn (h : Hart) (i : Nat) : Bool :=
  let t := h.tdata i 1
  let (vs, vu, m, s, u) : Nat × Nat × Nat × Nat × Nat := match h.trigType i with
    | 6 => (24, 23, 6, 4, 3)
    | 3 => (26, 25, 9, 7, 6)
    | _ => (12, 11, 9, 7, 6)
  match h.mode, h.v with
  | .m, _ => t.testBit m && (h.cb Csr.tcontrol 3 3 == 1 || t.testBit 59)
  | .s, true => t.testBit vs
  | .u, true => t.testBit vu
  | .s, false => t.testBit s
  | .u, false => t.testBit u

/-- Whether an mcontrol6 trigger matches an address for a kind of access: bit 2 execute, 1 store, 0 load; its MATCH equal, within
a naturally aligned power of two, at or above, or below. -/
def Hart.trigHits (h : Hart) (i bit va : Nat) : Bool :=
  let t := h.tdata i 1
  let a := h.tdata i 2
  h.trigType i == 6 && h.trigOn i && t.testBit bit && (match bitsOf t 10 7 with
    | 0 => va == a
    | 1 =>
      let n := (List.range 64).foldl (fun (p : Bool × Nat) k => if p.1 && a.testBit k then (true, p.2 + 1) else (false, p.2)) (true, 0)
      va / 2 ^ (n.2 + 1) == a / 2 ^ (n.2 + 1)
    | 2 => decide (a ≤ va)
    | 3 => decide (va < a)
    | _ => false)

/-- The first trigger that satisfies a test. -/
def firstTrig (p : Nat → Bool) : Option Nat := (List.range 8).find? p

/-- The trigger that an access of a kind at an address fires. -/
def Hart.accTrig (h : Hart) (bit va : Nat) : Option Nat := firstTrig (fun i => h.trigHits i bit va)

/-- An instruction has ended, or raised an exception: the icount triggers that watch its mode count it, and the one that reaches 0 is pending. -/
def Hart.icounted (h : Hart) : Hart :=
  (List.range 8).foldl (fun x i =>
    let n := bitsOf (h.tdata i 1) 23 10
    if h.trigType i = 3 ∧ h.trigOn i = true ∧ 0 < n then
      (x.scb (trigCsr i 1) 23 10 (n - 1)).scb (trigCsr i 1) 8 8 (b2n (n == 1))
    else x) h

/-- The icount trigger that is pending. -/
def Hart.icountDue (h : Hart) : Option Nat := firstTrig (fun i => h.trigType i == 3 && (h.tdata i 1).testBit 8 && h.trigOn i)

/-- The etrigger that an exception fires in the mode it is raised in: its bit of tdata2 is set. -/
def Hart.excTrig (h : Hart) (cause : Nat) : Option Nat :=
  firstTrig (fun i => h.trigType i == 5 && h.trigOn i && (h.tdata i 2).testBit cause)

/-- Mark a trigger as having fired: its hit bit, and a pending icount goes. -/
def Hart.fired (h : Hart) (i : Nat) : Hart :=
  match h.trigType i with
  | 6 => h.scb (trigCsr i 1) 22 22 1
  | 3 => (h.scb (trigCsr i 1) 24 24 1).scb (trigCsr i 1) 8 8 0
  | _ => h.scb (trigCsr i 1) 58 58 1

/-- Whether a trigger enters debug mode; else it raises a breakpoint. -/
def Hart.trigHalts (h : Hart) (i : Nat) : Bool := (h.tdata i 1).testBit 59 && bitsOf (h.tdata i 1) (if h.trigType i = 6 then 15 else 5)
  (if h.trigType i = 6 then 12 else 0) == 1

/-- What a write of tdata1 leaves: the four types and the fields the model holds; a trigger of the debugger's (dmode) is not
written, and only the debugger sets dmode. Any other type disables the trigger. -/
def tdata1Write (old v : Nat) : Nat :=
  if old.testBit 59 then old
  else match bitsOf v 63 60 with
    | 6 => (v &&& 0xF0000000018001DF) ||| (if bitsOf v 10 7 ≤ 3 then v &&& 0x780 else old &&& 0x780)
    | 3 => v &&& 0xF000000007FFFFC0
    | 4 => v &&& 0xF400000000001AC0
    | 5 => v &&& 0xF400000000001AC0
    | _ => 0xF000000000000000

/-- A write of a trigger CSR by number: tselect names one of 8 triggers; tdata3 and the context registers hold nothing. -/
def Hart.setTrig (h : Hart) (n v : Nat) : Hart :=
  let i := (h.rc Csr.tselect).toNat
  if n = Csr.tselect then (if v < 8 then h.wc n (BitVec.ofNat 64 v) else h)
  else if n = 0x7A1 then h.wc (trigCsr i 1) (BitVec.ofNat 64 (tdata1Write (h.tdata i 1) v))
  else if n = 0x7A2 then (if (h.tdata i 1).testBit 59 then h else h.wc (trigCsr i 2) (BitVec.ofNat 64 v))
  else if n = Csr.tcontrol then h.wc n (BitVec.ofNat 64 (v &&& 0x88))
  else h

end Sys2Proof.Machine
end

