-- ==== Sys2Proof/Machine/Sample.lean ====
section
/-! DEFINITION. Sampling buffers (21 R503 to R505). -/

namespace Sys2Proof.Machine
open Sys2Proof

/-- `time` (12 R330): MTIME as it stands; its counting is not modelled. -/
def State.time (s : State) : Nat := (s.rdW Reg.MTIME).toNat

/-- Whether the non-invasive enable of a world is in force (14 R381). -/
def State.noninvasive (s : State) (w : World) : Bool :=
  let k := match w with | .n => 0 | .s => 1
  bitAt (s.rdW Reg.ISO_DBG).toNat (2 * k) && !bitAt (s.rdW Reg.ISO_FUSE).toNat (2 * k)

/-- Whether an invasive enable of a world is in force (14 R381). -/
def State.invasive (s : State) (w : World) : Bool :=
  match w with
  | .s => s.on Reg.ISO_DBG F.ISO_DBG_S_INV && !bitAt (s.rdW Reg.ISO_FUSE).toNat 3
  | .n => s.on Reg.ISO_DBG F.ISO_DBG_N_INV && !bitAt (s.rdW Reg.ISO_FUSE).toNat 1

/-- Whether a sample of an identity is kept (21 R505). -/
def State.keepsSample (s : State) (who : Ident) : Bool :=
  let w := worldBit who.world
  let bp := s.rd (Reg.PMON_SBUF w) F.PMON_SBUF_PID
  s.noninvasive who.world && bitAt (s.rdW (Reg.PMON_SPIDS w)).toNat who.pid &&
    (!s.sealedP who.pid || bp == who.pid || bp == 0)

/-- Write a sample record of an identity; byte 1 becomes its PHASE (21 R505). -/
def State.sample (s : State) (who : Ident) (bytes : List Byte) : State :=
  let w := worldBit who.world
  if !s.keepsSample who then s
  else
    let lg := s.rd (Reg.PMON_SBUF w) F.PMON_SBUF_SIZE_LOG2
    let j := s.rd (Reg.PMON_STAIL w) F.PMON_STAIL_TAIL
    if (j + 2 ^ 32 - s.rd (Reg.PMON_SHEAD w) F.PMON_SHEAD_HEAD) % 2 ^ 32 = 2 ^ lg then
      s.satF (Reg.PMON_STAIL w) F.PMON_STAIL_DROPPED 1
    else
      let pa := s.rd (Reg.PMON_SBUF w) F.PMON_SBUF_BASE * 64 + 64 * (j % 2 ^ lg)
      let phase := if j / 2 ^ lg % 2 = 0 then 1 else 0
      let b := patchB (fitB 64 bytes) 1 [BitVec.ofNat 8 phase]
      let (r, s) := s.writePa ⟨s.rd (Reg.PMON_SBUF w) F.PMON_SBUF_PID, who.world⟩ pa b
      -- a write the firewall refuses is dropped; the count does not rise (DESIGN CHOICE, notes/assumptions/44.md)
      if r = .ok then s.addF (Reg.PMON_STAIL w) F.PMON_STAIL_TAIL 1 else s

/-- Byte 4 of a sample record. -/
def sampleIdent (who : Ident) : Nat := who.pid + 128 * worldBit who.world

/-- Choose how many instructions pass before the next tag (21 R503): 2^P to 2^(P+1) − 1. -/
def State.chooseTag (s : State) (h : Nat) : State :=
  let p := (s.hart h).cb Csr.mhssample 4 0
  let (r, s) := s.draw
  s.setHart h { s.hart h with tagIn := 2 ^ p + r % 2 ^ p }

/-- An instruction of a hart retires or raises an exception while tagging is on (21 R503): a tagged one yields a record of
21 R505, whose latencies, source and miss flags the model leaves free. -/
def State.tagStep (s : State) (h va pa cause : Nat) : State :=
  let x := s.hart h
  if x.cb Csr.mhssample 63 63 = 0 then s
  else
    let s := if x.tagIn = 0 then s.chooseTag h else s
    let x := s.hart h
    if x.tagIn ≤ 1 then
      let (lat, s) := s.draw
      let (mem, s) := s.draw
      let (src, s) := s.draw
      let (fl, s) := s.draw
      let acc := pa != 0
      let rec' := [1, 0] ++ leBytes 2 h ++ leBytes 1 (sampleIdent x.ident) ++ leBytes 1 (x.mode.code + 4 * b2n x.v) ++ [0, 0] ++
        leBytes 8 x.pc.toNat ++ leBytes 8 va ++ leBytes 8 pa ++ leBytes 4 lat ++ leBytes 4 (if acc then mem else 0) ++
        leBytes 1 (if acc then src % 7 else 0) ++ leBytes 1 (fl % 8 + 8 * b2n (cause != 0) + 16 * b2n (cause == Exc.hwError)) ++
        List.replicate 6 0 ++ leBytes 8 s.time ++ List.replicate 8 0
      (s.sample x.ident rec').chooseTag h
    else s.setHart h { x with tagIn := x.tagIn - 1 }

/-- Enter debug mode for a cause (1 ebreak, 2 trigger, 3 halt request, 4 step; the debug specification). -/
def Hart.debugged (h : Hart) (cause : Nat) : Hart :=
  let h1 := h.wc Csr.dpc h.pc
  let h1 := (h1.scb Csr.dcsr 8 6 cause).scb Csr.dcsr 1 0 h.mode.code
  { h1.scb Csr.dcsr 5 5 (b2n h.v) with halted := true, haltReq := false }

/-- Whether a hart may be put into debug mode: the invasive enable of its world is in force (14 R381). -/
def State.mayHalt (s : State) (h : Nat) : Bool := s.invasive (s.hart h).world

/-- After an instruction of a hart that is being stepped, it enters debug mode (14 R381). -/
def State.stepped (s : State) (h : Nat) : State :=
  if (s.hart h).cb Csr.dcsr 2 2 = 1 ∧ s.mayHalt h = true then s.setHart h ((s.hart h).debugged 4) else s

/-- Move a hart past an instruction, whose data access, if any, was at `va` and `pa`. -/
def State.retireAt (s : State) (h len va pa : Nat) : State :=
  let s := s.tagStep h va pa 0
  let x := (s.hart h).icounted
  (s.setHart h { x with pc := x.pc + BitVec.ofNat 64 len }).stepped h

/-- Move a hart past an instruction. -/
def State.retire (s : State) (h len : Nat) : State := s.retireAt h len 0 0

/-- A trigger of a hart fires (12 R330): it enters debug mode, where the invasive enable of its world is in force (14 R381), or
raises a breakpoint with `tval`. -/
def State.trigFires (s : State) (h i tval : Nat) : State :=
  let x := (s.hart h).fired i
  if x.trigHalts i then (if s.mayHalt h then s.setHart h (x.debugged 2) else s)
  else (s.setHart h x).trap h Exc.breakpoint tval

/-- An exception has been taken from the state `x` of a hart: an etrigger that watches for it fires before the handler's first
instruction. -/
def State.afterTrap (s : State) (h cause : Nat) (x : Hart) : State :=
  match x.excTrig cause with
  | some i => s.trigFires h i 0
  | none => s

/-- An instruction of a hart raises an exception. -/
def State.except (s : State) (h cause tval : Nat) : State :=
  let s := s.tagStep h tval 0 cause
  let s := s.setHart h (s.hart h).icounted
  ((s.trap h cause tval).afterTrap h cause (s.hart h)).stepped h

/-- An instruction of a hart raises an exception with a guest physical address. -/
def State.exceptG (s : State) (h cause tval gpa : Nat) (walk : Bool) : State :=
  let s := s.tagStep h tval 0 cause
  let s := s.setHart h (s.hart h).icounted
  ((s.trapG h cause tval gpa walk).afterTrap h cause (s.hart h)).stepped h

end Sys2Proof.Machine
end

