-- ==== Sys2Proof/Machine/ClusterOps.lean ====
section
/-! DEFINITION. Clusters as caching agents (10 R283 to R285, R295 to R297): installing lines, performing the accesses of
harts, answering snoops, and grants. -/

namespace Sys2Proof.Machine
open Sys2Proof

/-- The victim way of an L2 set (10 R285): the lowest invalid way, else the lowest of age 3 after enough ageing; with the
number of times every age is incremented. -/
def l2Victim (l2 : Tab L2Line) (base : Nat) : Nat × Nat :=
  match (List.range 16).find? (fun w => (Tab.look l2 (base + w)).isNone) with
  | some w => (w, 0)
  | none =>
    let oldest := (List.range 16).foldl (fun a w => max a ((Tab.look l2 (base + w)).elim 0 (·.age))) 0
    (((List.range 16).find? (fun w => (Tab.look l2 (base + w)).any (fun l => l.age == oldest))).getD 0, 3 - oldest)

/-- The line that a fill of a line evicts from the L2. -/
def Cluster.victim (cl : Cluster) (ln : Nat) : Option L2Line :=
  if (cl.find ln).isSome then none else Tab.look cl.l2 (l2Key ln + (l2Victim cl.l2 (l2Key ln)).1)

/-- Whether a fill of a line waits: for its victim the cluster has a request at the home, and a line is not evicted under
one (10 R295; DEDUCED, notes/assumptions/73.md). -/
def Cluster.fillWaits (cl : Cluster) (ln : Nat) : Bool :=
  (cl.victim ln).any (fun v => cl.reqs.any (fun r => r.ln == v.ln && r.sent))

/-- Install a line in the L2 (10 R285) with its age. -/
def State.installLine (s : State) (c : Nat) (l : L2Line) : State :=
  let cl := s.cluster c
  match cl.find l.ln with
  | some (k, old) =>
    -- the L1s hold the line under the identity it had (14 R369)
    let cl := if old.who = l.who then cl else cl.l1Drop (fun _ => true) l.ln
    s.setCluster c { cl with l2 := Tab.ins cl.l2 k l }
  | none =>
    let base := l2Key l.ln
    let (w, inc) := l2Victim cl.l2 base
    let s := match Tab.look cl.l2 (base + w) with
      | some v => s.evictLine c v.ln
      | none => s
    let cl := s.cluster c
    let aged := cl.l2.map (fun e =>
      if base ≤ e.1 ∧ e.1 < base + 16 then (e.1, { e.2 with age := min 3 (e.2.age + inc) }) else e)
    s.setCluster c { cl with l2 := Tab.ins aged (base + w) l }

/-- Whether an access may be performed on a copy: reads on any, writes on E or M (an E copy becomes M). -/
def HAcc.fits (a : HAcc) (g : Grant) : Bool :=
  match a with
  | .load .. | .lr .. | .cmo _ => true
  | .prefetch .rdUnique => g != .s
  | .prefetch _ => true
  | _ => g != .s

/-- The request an access needs on a miss, or on a shared copy (12 R334, 10 R292). -/
def HAcc.request (a : HAcc) (haveS : Bool) : ReqKind :=
  match a with
  | .load .. | .lr .. => .rdShared
  | .zero => .zeroUnique
  | .cmo f => if f then .cmoFlush else .cmoClean
  | .prefetch k => k
  | _ => if haveS then .upgrade else .rdUnique

/-- Finish one access of a hart: with no other waiting it retires. -/
def State.finishAcc (s : State) (w : Wait) : State :=
  let more := (s.cluster (hartCluster w.hart)).waits.any (fun y => y.hart == w.hart)
  if more then s
  else match w.acc with
    | .prefetch _ => s
    | .cmo _ => (s.setHart w.hart { s.hart w.hart with stalled := false }).retireAt w.hart w.len w.va 0
    | _ => (s.setHart w.hart { s.hart w.hart with stalled := false }).retireAt w.hart w.len w.va (128 * w.ln + w.va % 128)

/-- Abandon a hart's accesses and take an exception. -/
def State.abortAcc (s : State) (w : Wait) (cause : Nat) : State :=
  let c := hartCluster w.hart
  let cl := s.cluster c
  let s := s.setCluster c { cl with waits := cl.waits.filter (fun y => y.hart != w.hart) }
  (s.setHart w.hart { s.hart w.hart with stalled := false, part := 0 }).except w.hart cause w.va

/-- Whether an access goes through the L1D of its core. -/
def HAcc.usesL1 : HAcc → Bool
  | .cmo _ | .prefetch _ => false
  | _ => true

/-- Whether an access stores: no other L1 may hold its line then (10 R283, R304). -/
def HAcc.stores : HAcc → Bool
  | .store .. | .amo .. | .sc .. | .zero => true
  | _ => false

/-- The L1s after an access of a core: its L1D uses the line, and a store invalidates every other L1's copy, L1Is among
them. -/
def State.l1Access (s : State) (w : Wait) : State :=
  let c := hartCluster w.hart
  let cl := s.cluster c
  if !w.acc.usesL1 then s
  else s.setCluster c ((if w.acc.stores then cl.l1Drop (· != w.hart % 6) w.ln else cl).l1Use (w.hart % 6) w.ln)

/-- Perform an access on a copy held in the cluster (10 R285, R304, 12 R329, 19 R462): the line it leaves, of age `age`, and the
hart's result. Poison consumed by a load, AMO or LR is a hardware-error exception; a store to a poisoned line is
performed and the line stays poisoned. -/
def State.perform (s : State) (w : Wait) (l : L2Line) (age : Nat) : L2Line × State :=
  let s := match w.acc with
    | .load .. | .store .. | .amo .. | .lr .. =>
      if (s.cluster (hartCluster w.hart)).l1Has (w.hart % 6) l.ln then s else s.hev w.hart 0x10
    | _ => s
  let hx := s.hart w.hart
  let touched : L2Line := { l with age := age }
  let bytes (off n : Nat) : Nat := leAt l.data.data off n
  let stored (off : Nat) (b : List Byte) : L2Line :=
    { touched with st := .m, data := ⟨patchB l.data.data off b, l.data.poison⟩ }
  let broken (s : State) : State :=
    ((s.l1Access w).breakResv l.ln w.hart (fun h => hartCluster h == hartCluster w.hart)).finishAcc w
  let consume : L2Line × State :=
    let s := s.recordErr (.slice (hartCluster w.hart) 4) ⟨3, w.who, 1, false, 128 * l.ln, 0, 0⟩
    (l, (s.hev w.hart 0x1C).abortAcc w Exc.hwError)
  match w.acc with
  | .load rd size signed off shift total =>
    if l.data.poison then consume
    else
      let s := s.l1Access w
      let v := hx.part + bytes off size * 2 ^ shift
      if (s.cluster (hartCluster w.hart)).waits.any (fun y => y.hart == w.hart) then
        (touched, s.setHart w.hart { hx with part := v })
      else (touched, (s.setHart w.hart { hx.wd rd total signed v with part := 0 }).finishAcc w)
  | .store off b => (stored off b, broken s)
  | .amo op rd size off val =>
    if l.data.poison then consume
    else
      let old := bytes off size
      (stored off (leBytes size (amoResult op size old val)), broken (s.setHart w.hart (hx.wx rd (extend size true old))))
  | .lr rd size off =>
    if l.data.poison then consume
    else
      (touched, ((s.l1Access w).setHart w.hart
        { hx.wx rd (extend size true (bytes off size)) with resv := some l.ln, resvLate := false }).finishAcc w)
  | .sc rd size off val =>
    if hx.resv = some l.ln then
      (stored off (leBytes size val), broken (s.setHart w.hart { hx.wx rd 0 with resv := none }))
    else (l, (s.setHart w.hart { hx.wx rd 1 with resv := none }).finishAcc w)
  | .zero => ({ touched with st := .m, data := ⟨zeroLine, false⟩ }, broken s)
  | .cmo _ => (l, s.finishAcc w)
  | .prefetch k => (touched, if k == .rdNoexcl then
      s.setCluster (hartCluster w.hart) ((s.cluster (hartCluster w.hart)).l1Use (6 + w.hart % 6) l.ln) else s)

/-- Replace a line held in a cluster, if it is still there. -/
def State.putLine (s : State) (c : Nat) (l : L2Line) : State :=
  let cl := s.cluster c
  match cl.find l.ln with
  | some (k, _) => s.setCluster c { cl with l2 := Tab.ins cl.l2 k l }
  | none => s

/-! ### Snoops at a caching agent -/

/-- Answer a snoop from what the cluster holds (10 R296, R297): RSP_WBIF while its home waits for the line's WB_DIRTY. A dirty
line whose WB_DIRTY has yet to be sent is answered with its data, as a copy is, and leaves the buffer clean unless the snoop
only looks (DEDUCED, notes/assumptions/117.md). -/
def State.answerSnoop (s : State) (c : Nat) (p : HeldSnp) : State :=
  let cl := s.cluster c
  let reply (s : State) (k : MKind) (d : LineData) : State := s.post ⟨k, p.ln, p.home, c, d, p.who, 0⟩
  match cl.find p.ln with
  | some (_, l) =>
    let dirty := l.st == .m
    let s := (below 6 (fun k => (s.cluster c).l1Has k p.ln)).foldl (fun s k => s.hev (6 * c + k) 0x1E) s
    let cl := s.cluster c
    let s := match p.kind with
      | .share => s.putLine c { l with st := .s }
      | .inval => (s.setCluster c ((cl.drop p.ln).noUpgrade p.ln)).breakResv p.ln 1000 (fun h => hartCluster h == c)
      | .peek => s
    if dirty then reply s .datDirty l.data else reply s .rspS noData
  | none =>
    match cl.evicting p.ln with
    | some e =>
      let wb := e.dirty && (!e.taken || ((s.home p.home).txn p.ln).any (fun x => x.half.contains c))
      if e.dirty && !e.sent && !e.taken then
        reply (if p.kind = .peek then s else s.setCluster c { cl with evict := cl.evict.map (fun (v : EvEnt) =>
          if v.ln == p.ln then { v with dirty := false, data := noData } else v) }) .datDirty e.data
      else if wb then reply s .rspWbif noData else reply s .rspI noData
    | none => reply s .rspI noData

/-- A snoop reaches a caching agent (10 R296): held for a grant in flight, or, when it would remove the line, for an LR
reservation; otherwise answered. -/
def State.snoop (s : State) (c : Nat) (p : HeldSnp) : State :=
  if c = 36 then
    let had := s.watch.contains p.ln
    let s := if p.kind = .inval then s.watchInval p.ln else s
    s.post ⟨if had then .rspS else .rspI, p.ln, p.home, 36, noData, p.who, 0⟩
  else if s.holdsSnoop c p then
    let cl := s.cluster c
    s.setCluster c { cl with held := cl.held ++ [p] }
  else s.answerSnoop c p

/-- Answer the snoops a cluster has no reason to hold any more (10 R296). -/
def State.freeHeld (s : State) (c : Nat) : State :=
  let hs := (s.cluster c).held.filter (fun p => !s.holdsSnoop c p)
  if hs.isEmpty then s
  else
    let s := s.setCluster c { s.cluster c with held := (s.cluster c).held.filter (s.holdsSnoop c) }
    hs.foldl (fun s p => s.answerSnoop c p) s

/-! ### Accesses in a cluster -/

/-- Whether a cluster may ask its home for a line: no request or eviction of it is outstanding (10 R295), and fewer than 128
requests are (R284). -/
def Cluster.mayAsk (cl : Cluster) (ln : Nat) : Bool :=
  (cl.evicting ln).isNone && !(cl.reqs.any (fun r => r.ln == ln)) && decide (cl.reqs.length < 128)

/-- Make an access wait in its cluster, asking the home for the line where the cluster may. A prefetch does not wait: it is
dropped where it cannot be asked for, and PREFETCH.I leaves its core's number for the L1I. -/
def State.enqueue (s : State) (c : Nat) (w : Wait) (haveS : Bool) : State :=
  let cl := s.cluster c
  let ask := cl.mayAsk w.ln
  let reqs := if ask then cl.reqs ++ [⟨w.acc.request haveS, w.ln, w.who, false, false⟩] else cl.reqs
  match w.acc with
  | .prefetch k =>
    s.setCluster c { cl with reqs := reqs, ipre := if ask && k == .rdNoexcl then cl.ipre ++ [(w.ln, 6 + w.hart % 6)] else cl.ipre }
  | _ => s.setCluster c { cl with waits := cl.waits ++ [w], reqs := reqs }

/-- Ask for the lines of waiting accesses that could not be asked for while 128 requests were outstanding. -/
def State.askMore (s : State) (c : Nat) : State :=
  (s.cluster c).waits.foldl (fun s w =>
    let cl := s.cluster c
    if cl.mayAsk w.ln then
      s.setCluster c { cl with reqs := cl.reqs ++ [⟨w.acc.request (cl.find w.ln).isSome, w.ln, w.who, false, false⟩] }
    else s) s

/-- A demand miss trains the stream prefetcher of the cluster (12 R335): at the third miss of a stream and after, streaming
fills of up to 16 lines ahead are asked for, within the 4 KiB of the miss. -/
def State.trainStream (s : State) (c : Nat) (w : Wait) : State :=
  if (s.hart w.hart).cb Csr.mhspf 1 1 = 0 then s
  else
    let cl := s.cluster c
    let ln := w.ln
    let hit := cl.streams.find? (fun e => (e.1 + 1 == ln && (e.2.1 || e.2.2 == 1)) || (e.1 == ln + 1 && (!e.2.1 || e.2.2 == 1)))
    match hit with
    | some e =>
      let up : Bool := e.1 + 1 == ln
      let n := e.2.2 + 1
      let cl := { cl with streams := (ln, up, n) :: cl.streams.erase e }
      if n < 3 then s.setCluster c cl
      else
        let ahead := ((List.range 16).map (fun i => if up then ln + 1 + i else ln - (1 + i))).filter (fun l =>
          l / 32 == ln / 32 && l != ln && (cl.find l).isNone && (cl.evicting l).isNone && !cl.reqs.any (fun r => r.ln == l))
        s.setCluster c { cl with reqs := cl.reqs ++ (ahead.eraseDups.take (128 - cl.reqs.length)).map (fun l => ⟨.rdShared, l, w.who, true, false⟩) }
    | none => s.setCluster c { cl with streams := (ln, true, 1) :: cl.streams.take 15 }

/-- A miss of a hart's L1D trains its prefetcher while mhspf.L1D_PF is 1 (12 R335): at the second of two misses to
consecutive lines the next line of their 4 KiB is fetched into the L1D, from the L2 or from the home. -/
def State.trainNext (s : State) (w : Wait) : State :=
  let c := hartCluster w.hart
  let cl := s.cluster c
  let k := w.hart % 6
  if !w.acc.usesL1 || cl.l1Has k w.ln || (s.hart w.hart).cb Csr.mhspf 0 0 = 0 then s
  else
    let next := w.ln + 1
    let near := w.ln / 32 == next / 32 && (Tab.look cl.dmiss k).any (fun m => m + 1 == w.ln)
    let cl := { cl with dmiss := Tab.ins cl.dmiss k w.ln }
    if !near then s.setCluster c cl
    else match cl.find next with
      | some (i, l) => s.setCluster c (if l.who == w.who then
          { cl.l1Use k next with l2 := Tab.ins cl.l2 i { l with age := 0 } } else cl)
      | none =>
        s.setCluster c (if cl.mayAsk next then
          { cl with reqs := cl.reqs ++ [⟨.rdShared, next, w.who, false, false⟩], ipre := cl.ipre ++ [(next, k)] } else cl)

/-- A hart's access reaches its cluster's caches (10 R283, R285, R295, 14 R369): a hit of its L1D leaves the line's age in the L2,
a hit of the L2 sets it to 0. It is performed on a copy of its own identity in a
sufficient state; a copy granted under another identity, or that a CMO names, is evicted first when it is owned;
otherwise the access waits for the home. -/
def State.access (s : State) (w : Wait) : State :=
  let c := hartCluster w.hart
  let cl := s.cluster c
  if (cl.evicting w.ln).isSome || cl.waits.any (fun y => y.ln == w.ln) then s.enqueue c w false
  else match cl.find w.ln with
    | some (_, l) =>
      let isCmo := match w.acc with
        | .cmo _ => true
        | _ => false
      if isCmo then
        if l.st = .s then s.enqueue c w true else (s.evictLine c w.ln).enqueue c w false
      else if l.who != w.who then
        let s := match w.acc with
          | .prefetch _ => s
          | _ => s.hev w.hart 0x12
        if l.st = .s then s.enqueue c w false else (s.evictLine c w.ln).enqueue c w false
      else if w.acc.fits l.st then
        let inL1 := w.acc.usesL1 && cl.l1Has (w.hart % 6) w.ln
        let s := s.trainNext w
        let (l', s) := s.perform w l (if inL1 then l.age else 0)
        (s.putLine c l').freeHeld c
      else (s.enqueue c w true).trainNext w
    | none =>
      match w.acc with
      | .prefetch _ | .cmo _ => s.enqueue c w false
      | _ => (((s.hev w.hart 0x12).enqueue c w false).trainStream c w).trainNext w

/-- After a line was installed: perform the oldest access waiting on it (10 R296). A demand fill keeps age 1; a streaming fill
that an access waited for has been touched, and without a fill the access hits the line (R285). -/
def State.performOldest (s : State) (c ln : Nat) (fill : Bool) : State :=
  let cl := s.cluster c
  match cl.waits.find? (fun w => w.ln == ln), cl.find ln with
  | some w, some (_, l) =>
    if w.acc.fits l.st && l.who == w.who then
      let s := s.setCluster c { cl with waits := cl.waits.erase w }
      let (l', s) := s.perform w l (if l.age = 3 || !fill then 0 else l.age)
      s.putLine c l'
    else s
  | _, _ => s

/-- Retry the accesses that still wait on a line, oldest first. -/
def State.retryWaits (s : State) (c ln : Nat) : State :=
  let ws := (s.cluster c).waits.filter (fun w => w.ln == ln)
  let s := s.setCluster c { s.cluster c with waits := (s.cluster c).waits.filter (fun w => w.ln != ln) }
  ws.foldl (fun s w => s.access w) s

/-- The L1Is that PREFETCH.I and the L1Ds whose prefetcher asked for a line hold it. -/
def Cluster.l1iFill (cl : Cluster) (ln : Nat) : Cluster :=
  let cs := (cl.ipre.filter (fun e => e.1 == ln)).map Prod.snd
  if cs.isEmpty then cl
  else cs.foldl (fun cl k => cl.l1Use k ln) { cl with ipre := cl.ipre.filter (fun e => e.1 != ln) }

/-- A grant reaches a cluster (10 R296): the line is installed, the oldest waiting access performed, held snoops
answered, and the other waiting accesses tried again. A demand fill enters at age 1 and a streaming fill at age 3; a grant
without data is no fill, and the line keeps its age (R285). -/
def State.granted (s : State) (c ln : Nat) (g : Grant) (d : LineData) (who : Ident) (fill : Bool) : State :=
  let cl := s.cluster c
  let stream := cl.reqs.any (fun r => r.ln == ln && r.stream)
  let age := match cl.find ln with
    | some (_, l) => if fill then 1 else l.age
    | none => if stream then 3 else 1
  let fill := fill || (cl.find ln).isNone
  let s := s.setCluster c { cl with reqs := cl.reqs.filter (fun r => r.ln != ln) }
  let s := s.installLine c ⟨ln, g, age, d, who⟩
  let s := s.setCluster c ((s.cluster c).l1iFill ln)
  let s := s.performOldest c ln fill
  let s := s.freeHeld c
  ((s.retryWaits c ln).askMore c).freeHeld c

end Sys2Proof.Machine
end

