-- ==== Sys2Proof/Machine/FxOps.lean ====
section
/-! DEFINITION. Finxis packets and flits on their way out (08 R239 to R244, R251), windows (R248 to R250) and the staging
region (R247). -/

namespace Sys2Proof.Machine
open Sys2Proof

/-! ### Ports -/

/-- A port. -/
def State.port (s : State) (p : Nat) : FxPort := Tab.get FxPort.reset s.fx p

/-- Replace a port. -/
def State.setPort (s : State) (p : Nat) (x : FxPort) : State := { s with fx := Tab.put FxPort.reset s.fx p x }

/-- The training state a port acts in (08 R236): in BUFFER STOP its clock stands still (16 R404) and it does nothing, as in DOWN. -/
def State.fxState (s : State) (p : Nat) : Nat := if s.mode = MD.bufferStop then 0 else s.rd (Reg.FX_STATUS p) F.FX_STATUS_STATE

/-- The identity of a port's staging accesses (08 R255). -/
def State.fxWho (s : State) (p : Nat) : Ident :=
  ⟨s.rd (Reg.FX_CFG p) F.FX_CFG_PID, worldOf (s.rd (Reg.FX_CFG p) F.FX_CFG_WORLD)⟩

/-- Count event `k` of a port. -/
def State.pmcFx (s : State) (p k n : Nat) : State :=
  s.pmcAdd (Reg.FX_PMF p) (Reg.FX_PMC p k) (some (s.fxWho p)) n

/-! ### Packets and flits -/

/-- A packet with no field set. -/
def FxPkt.blank : FxPkt := ⟨0, 0, 0, 0, 0, 0, 0, 0, []⟩

/-- A packet as bytes (08 R242). -/
def FxPkt.bytes (p : FxPkt) : List Byte :=
  leBytes 1 p.type ++ leBytes 1 p.flags ++ leBytes 2 p.ring ++ leBytes 4 p.payload.length ++ leBytes 4 p.seq ++
    leBytes 1 p.window ++ leBytes 1 p.code ++ leBytes 2 0 ++ leBytes 8 p.offset ++ leBytes 4 p.count ++ leBytes 4 0 ++
    p.payload

/-- The virtual lane of a packet type (08, *Packet types*). -/
def fxVl (t : Nat) : Nat :=
  if t = 0x31 ∨ t = 0x32 then 2 else if 0x21 ≤ t ∧ t ≤ 0x25 then 1 else 0

/-- Flits of a packet of `n` bytes. -/
def flitsOf (n : Nat) : Nat := ceilDiv n 248

/-- Cut a packet into flits, the first naming how many there are. -/
def FxPkt.flits (p : FxPkt) : List FxFlit :=
  let b := p.bytes
  let n := flitsOf b.length
  (List.range n).map (fun i => ⟨fxVl p.type, if i = 0 then n else 0, p.type, p.ring, p.seq, sliceB b (248 * i) 248⟩)

/-! ### The physical layer (08 R235)

Codewords carry the flits a port sends as a bit stream, least significant bit first; what a port receives comes as whole
flits, with the verdict of the decoder. The code's field and generator are those of IEEE 802.3, which R235 names (PRESUMED,
notes/assumptions/101.md). -/

/-- Lane of symbol `i` of a codeword at a trained width. -/
def fxLane (width i : Nat) : Nat := i % width

/-- Product in the field of 10-bit symbols. -/
def fxMul (a b : Nat) : Nat := gfMul 10 0x409 a b

/-- Generator of the RS(544,514) code: its 30 coefficients below the leading one, highest degree first. -/
def fxGen : List Nat :=
  ((List.range 30).foldl (fun g i =>
    let r := gfPow 10 0x409 2 i
    (List.zip (g ++ [0]) (0 :: g)).map (fun x => x.1 ^^^ fxMul r x.2)) [1]).drop 1

/-- A codeword: 514 message symbols, then 30 check symbols. -/
def fxCodeword (msg : List Nat) : List Nat :=
  msg ++ msg.foldl (fun (r : List Nat) m =>
    let f := m ^^^ r.headD 0
    (List.zip (r.drop 1 ++ [0]) fxGen).map (fun x => x.1 ^^^ fxMul f x.2)) (List.replicate 30 0)

/-- The message symbols of a codeword: 5,140 bits of the stream, ten to a symbol. -/
def fxMessage (bits : Nat) : List Nat := (List.range 514).map (fun i => bits / 1024 ^ i % 1024)

/-- The lane and value of each symbol of a codeword, by the trained width and the half of the lanes a ×4 port uses. -/
def fxSymbols (width : Nat) (upper : Bool) (bits : Nat) : List (Nat × Nat) :=
  (fxCodeword (fxMessage bits)).zipIdx.map (fun x => (fxLane width x.2 + (if upper then 4 else 0), x.1))

/-- Put a flit on the line: its bits join the port's stream, and a codeword whose message is whole is sent (08 R235). -/
def State.fxLine (s : State) (p : Nat) (b : List Byte) : State :=
  let x := s.port p
  let k := x.line.1 + 8 * b.length
  let v := x.line.2 + leNat b * 2 ^ x.line.1
  let s := s.send (.flit p b)
  if k < 5140 then s.setPort p { x with line := (k, v) }
  else
    (s.setPort p { x with line := (k - 5140, v / 2 ^ 5140) }).send
      (.codeword p (fxSymbols (s.rd (Reg.FX_STATUS p) F.FX_STATUS_WIDTH) x.upper (v % 2 ^ 5140)))

/-- A flit as sent (08 R239): header, packet bytes, CRC. -/
def flitBytes (seq ack vl kind crVl cr : Nat) (body : List Byte) : List Byte :=
  let h := setBits (setBits (setBits (setBits (setBits (setBits 0 31 22 seq) 21 12 ack) 11 10 vl) 9 8 kind) 7 6 crVl)
    5 0 cr
  let l := leBytes 4 h ++ fitB 248 body
  l ++ leBytes 4 (crc32c l)

/-- Take up to 63 credits to return on the lowest lane that has any: lane, count, what is left. While a staging reservation
waits no credit of lane 0 is returned (08 R247). -/
def FxPort.takeRet (x : FxPort) : Nat × Nat × FxPort :=
  match x.ret.find? (fun e => e.2 != 0 && !(e.1 == 0 && x.waiting.isSome)) with
  | some (vl, n) =>
    let k := min n 63
    (vl, k, { x with ret := Tab.put 0 x.ret vl (n - k) })
  | none => (0, 0, x)

/-- Whether the rate limiter lets a flit of a virtual lane pass (08 R252). -/
def FxPort.passes (x : FxPort) (vl : Nat) : Bool := vl != 1 || decide (64 ≤ x.lim)

/-- What a flit of a virtual lane takes from the rate limiter. -/
def FxPort.spend (x : FxPort) (vl : Nat) : FxPort := if vl = 1 then { x with lim := x.lim - 64 } else x

/-- Whether a flit may start or go on: credits for the whole packet (08 R241), the rate limiter, and in a mode that carries
virtual lane 2 only (`quiet`) a packet of that lane or an error notice (R253). -/
def FxPort.mayStart (x : FxPort) (quiet : Bool) (f : FxFlit) : Bool :=
  decide (f.need ≤ Tab.get 0 x.credits f.vl) && x.passes f.vl && (!quiet || f.need == 0 || f.vl == 2 || f.type == 0x25)

/-- The first flit of the queue that may be sent, lanes blocked on the way being passed over: the flits before it, it, and
those after it. -/
def FxPort.pick (x : FxPort) (quiet : Bool) : List FxFlit → List Nat → Option (List FxFlit × FxFlit × List FxFlit)
  | [], _ => none
  | f :: t, blocked =>
    if !blocked.contains f.vl && x.mayStart quiet f then some ([], f, t)
    else (FxPort.pick x quiet t (f.vl :: blocked)).map (fun r => (f :: r.1, r.2))

/-- Modes in which a port carries virtual lane 2 only (08 R253). -/
def State.fxQuiet (s : State) : Bool :=
  s.mode == MD.depot || s.mode == MD.caution || s.mode == MD.siding || s.mode == MD.workshop

/-- Staging space of completed descriptors is free once their last DATA_OUT has been sent (08 R247). -/
def FxPort.freeOut (x : FxPort) : FxPort :=
  { x with stages := x.stages.filter (fun g => !g.closing || x.txq.any (fun f => f.type == 0x21 && f.ring == g.ring && f.seq == g.seq)) }

/-- Put a DATA flit on the line, with the acknowledgement and credits of now. -/
def State.fxPut (s : State) (p seq : Nat) (f : FxFlit) : State :=
  let (cv, cn, x) := (s.port p).takeRet
  (s.setPort p (x.spend f.vl)).fxLine p (flitBytes seq ((x.rseq + 1023) % 1024) f.vl 0 cv cn f.bytes)

/-- Send one flit while the port is ACTIVE: one of a replay before any other (08 R240), else one that waits, while fewer than
512 are unacknowledged (R240, R241). -/
def State.fxSendOne (s : State) (p : Nat) : Option State :=
  let x := s.port p
  if s.fxState p != 5 then none
  else match x.replay with
    | (n, f) :: rest =>
      if x.passes f.vl then some (((s.setPort p { x with replay := rest }).fxPut p n f).pmcFx p 4 1) else none
    | [] =>
      if 512 ≤ x.unack.length then none
      else match x.pick s.fxQuiet x.txq [] with
        | none => none
        | some (pre, f, post) =>
          let x := { x with
            txq := pre ++ post
            credits := Tab.put 0 x.credits f.vl (Tab.get 0 x.credits f.vl - f.need)
            unack := x.unack ++ [(x.nseq, f)]
            nseq := (x.nseq + 1) % 1024 }
          let s := (s.setPort p x.freeOut).fxPut p ((x.nseq + 1023) % 1024) f
          some (if f.vl = 1 then s.pmcFx p 1 1 else s)

/-- Send what can be sent. -/
def State.fxPump (s : State) (p : Nat) : State :=
  (List.range ((s.port p).replay.length + (s.port p).txq.length)).foldl (fun s _ => (s.fxSendOne p).getD s) s

/-- Send a flit of another kind than DATA. -/
def State.fxSendCtl (s : State) (p kind ack : Nat) : State :=
  let (cv, cn, x) := (s.port p).takeRet
  (s.setPort p x).fxLine p (flitBytes 0 ack 0 kind cv cn [])

/-- Ceiling of a port's rate limiter (08 R252). -/
def State.fxCeil (s : State) (p : Nat) : Nat := 64 * s.rd (Reg.FX_LIMIT p) F.FX_LIMIT_BURST

/-- A port enters ACTIVE: its rate limiter is full, and its stream starts with a codeword (notes/assumptions/101.md). -/
def State.fxActive (s : State) (p : Nat) : State :=
  (s.setPort p { s.port p with lim := s.fxCeil p, line := (0, 0) }).wr (Reg.FX_STATUS p) F.FX_STATUS_STATE 5

/-- A flit slot of a port passes (08 R239, R252): the limiter gains RATE up to its ceiling, and a waiting flit is sent, or an
IDLE flit that carries the acknowledgement and credits. -/
def State.fxSlot (s : State) (p : Nat) : State :=
  if s.fxState p != 5 then s
  else
    let x := s.port p
    let s := s.setPort p { x with lim := min (s.fxCeil p) (x.lim + s.rd (Reg.FX_LIMIT p) F.FX_LIMIT_RATE) }
    (s.fxSendOne p).getD (s.fxSendCtl p 1 ((x.rseq + 1023) % 1024))

/-- A flit slot passes at every Finxis port. -/
def State.flitSlot (s : State) : State := s.forAll 4 (fun p s => s.fxSlot p)

/-- A port is untrained, and its first session then is a new one (08 R236, R237, 16 R412): it takes state `st`. -/
def State.fxUntrained (s : State) (p st : Nat) : State :=
  (s.setPort p { s.port p with sess := none }).wrs (Reg.FX_STATUS p)
    [(F.FX_STATUS_STATE, st), (F.FX_STATUS_RETRAINS, 0), (F.FX_STATUS_WIDTH, 0)]

/-- Whether the ports are in LOW: in NIGHT and MIDNIGHT (08 R253). -/
def State.fxLow (s : State) : Bool := s.mode == MD.night || s.mode == MD.midnight

/-- A port is enabled: it enters DETECT, or in NIGHT and MIDNIGHT is in LOW and enters DETECT at the wake (08 R236, R253;
DEDUCED, notes/assumptions/114.md). -/
def State.fxDetect (s : State) (p : Nat) : State := s.fxUntrained p (if s.fxLow then 7 else 1)

/-- Queue a packet. -/
def State.fxQueue (s : State) (p : Nat) (k : FxPkt) : State :=
  let x := s.port p
  (s.setPort p { x with txq := x.txq ++ k.flits }).fxPump p

/-! ### Notices (08 R243, R246, R251) -/

/-- Refuse a packet: ERROR_NOTICE and the port's error event. -/
def State.fxNotice (s : State) (p ring seq code : Nat) : State :=
  (s.fxQueue p { FxPkt.blank with type := 0x25, ring := ring, seq := seq, code := code }).raise (293 + p)

/-- Report a ring pair's error, or the records discarded with it. -/
def State.fxRingError (s : State) (p ring cause count : Nat) : State :=
  s.fxQueue p { FxPkt.blank with type := 0x24, ring := ring, code := cause, count := count }

/-- Ask for descriptors from a sequence number. -/
def State.fxFetch (s : State) (p ring seq count : Nat) : State :=
  s.fxQueue p { FxPkt.blank with type := 0x11, ring := ring, seq := seq, count := count }

/-- Add to the port's count of discarded completion records. -/
def State.fxDropped (s : State) (p n : Nat) : State := s.satF (Reg.FX_STATUS p) F.FX_STATUS_DROPPED n

/-! ### Windows (08 R244, R248) -/

/-- A registered window of a port. -/
def FxPort.win (x : FxPort) (w : Nat) : Option FxWin := Tab.get none x.wins w

/-- The completion window of a ring pair in use on a port: window ID and window. -/
def FxPort.cqWin (x : FxPort) (ring : Nat) : Option (Nat × FxWin) :=
  x.wins.findSome? (fun e => match e.2 with
    | some w => if w.ring = ring ∧ w.kind = 1 then some (e.1, w) else none
    | none => none)

/-- Queue a packet that writes into a window, unless it would leave the window (08 R244). -/
def State.fxInto (s : State) (p : Nat) (k : FxPkt) : State :=
  match (s.port p).win k.window with
  | some w => if k.offset + k.payload.length ≤ w.size then s.fxQueue p k else s
  | none => s

/-- DATA_OUT packets of an output of at most `fuel` packets, in ascending offset, LAST on the final one (08 R251). -/
def State.fxData (s : State) (p ring seq w : Nat) (last : Bool) : Nat → Nat → List Byte → State
  | 0, _, _ => s
  | _ + 1, _, [] => s
  | f + 1, off, b :: t =>
    let l := b :: t
    let a := l.take 65536
    let r := l.drop 65536
    let s := (s.fxInto p { FxPkt.blank with
      type := 0x21, flags := b2n (last && r.isEmpty), ring := ring, seq := seq, window := w, offset := off,
      payload := a }).pmcFx p 3 a.length
    State.fxData s p ring seq w last f (off + 65536) r

/-! ### Staging (08 R247) -/

/-- First byte and size of a port's staging region. -/
def State.fxRegion (s : State) (p : Nat) : Nat × Nat :=
  (s.rd (Reg.FX_STAGE p) F.FX_STAGE_BASE * 2 ^ 20, s.rd (Reg.FX_STAGE p) F.FX_STAGE_SIZE_MIB * 2 ^ 20)

/-- Bytes a reservation takes. -/
def FxStage.size (g : FxStage) : Nat := g.inSize + g.outSize

/-- The lowest offset at which `n` bytes fit between the reservations. DESIGN CHOICE (notes/assumptions/40.md). -/
def fitStage (l : List FxStage) (total n : Nat) : Option Nat :=
  let starts := (0 :: l.map (fun g => g.base + g.size))
  let ok (b : Nat) : Bool := decide (b + n ≤ total) &&
    l.all (fun g => decide (b + n ≤ g.base) || decide (g.base + g.size ≤ b) || g.size == 0)
  (starts.filter ok).foldl (fun a b => match a with | none => some b | some c => some (min b c)) none

/-- The reservation of a descriptor. -/
def FxPort.stage (x : FxPort) (ring seq : Nat) : Option FxStage :=
  x.stages.find? (fun g => g.ring == ring && g.seq == seq && !g.closing)

/-- Write staged bytes at an offset of the region under the port's identity. -/
def State.stageWrite (s : State) (p off : Nat) (l : List Byte) : AccRes × State :=
  s.writePa (s.fxWho p) ((s.fxRegion p).1 + off) l

/-- Read staged bytes. -/
def State.stageRead (s : State) (p off n : Nat) : RdRes × State :=
  s.readPa (s.fxWho p) ((s.fxRegion p).1 + off) n

/-- Release the staging space of a descriptor. -/
def State.stageFree (s : State) (p ring seq : Nat) : State :=
  let x := s.port p
  s.setPort p { x with stages := x.stages.filter (fun g => !(g.ring == ring && g.seq == seq)) }

/-- A completed descriptor's staging space is to be released when its output has been sent. -/
def State.stageClose (s : State) (p ring seq : Nat) : State :=
  let x := s.port p
  let x := { x with stages := x.stages.map (fun (g : FxStage) =>
    if g.ring == ring && g.seq == seq then { g with closing := true } else g) }
  s.setPort p x.freeOut

/-- Shrink a reservation to its output part, once the input has been read. -/
def State.stageFreeIn (s : State) (p ring seq : Nat) : State :=
  let x := s.port p
  s.setPort p { x with stages := x.stages.map (fun g =>
    if g.ring == ring && g.seq == seq then { g with base := g.base + g.inSize, inSize := 0 } else g) }

end Sys2Proof.Machine
end

