-- ==== Sys2Proof/Machine/MicroOps.lean ====
section
/-! DEFINITION. The expression micro-ops: fields of the word (04 R141) and the result of each on one row (04 R144 to
R147, 03 R84 to R103). -/

namespace Sys2Proof.Machine
open Sys2Proof

/-- Errors a micro-op raises from a row (04 R147), and the overflow modes. -/
inductive RowErr where
  | overflow | divZero
  deriving DecidableEq, Repr

/-- A decoded micro-op (04 R141). -/
structure UOp where
  op : Nat
  d : Nat
  s1 : Nat
  s2 : Nat
  s3 : Nat
  tc : Nat
  mask : Bool
  alt : Bool
  ovf : Nat
  kmode : Nat
  payload : Nat
  deriving DecidableEq, Repr

/-- Read the fields of a micro-op word. -/
def uopOf (w : Nat) : UOp where
  op := bitsOf w 63 56
  d := bitsOf w 55 51
  s1 := bitsOf w 50 46
  s2 := bitsOf w 45 41
  s3 := bitsOf w 40 36
  tc := bitsOf w 35 32
  mask := bitAt w 31
  alt := bitAt w 30
  ovf := bitsOf w 29 28
  kmode := bitsOf w 27 26
  payload := bitsOf w 25 0

/-- A declared register or operand: type and decimal scale. -/
structure Decl where
  ty : Ty
  scale : Nat
  deriving DecidableEq, Repr

/-- Bring an exact integer into an integer or date type under an overflow mode (03 R95): 0 TRAP, 1 SAT, 2 WRAP. -/
def fitInt (t : Ty) (ovf : Nat) (i : Int) : Except RowErr Nat :=
  if t.lo ≤ i ∧ i ≤ t.hi then .ok (t.pat i)
  else if ovf = 0 then .error .overflow
  else if ovf = 1 then .ok (t.pat (if i < t.lo then t.lo else t.hi))
  else .ok (t.pat i)

/-- Bring an exact coefficient into a decimal's range (03 R95); WRAP is refused at load, so any mode but TRAP saturates. -/
def fitDec (t : Ty) (ovf : Nat) (i : Int) : Except RowErr Int :=
  if t.lo ≤ i ∧ i ≤ t.hi then .ok i
  else if ovf = 0 then .error .overflow
  else .ok (if i < t.lo then t.lo else t.hi)

/-- Rescale a coefficient (03 R101). -/
def rescale (t : Ty) (ovf from' to' : Nat) (c : Int) : Except RowErr Int :=
  if from' ≤ to' then fitDec t ovf (c * 10 ^ (to' - from')) else fitDec t ovf (divHalfAway c (10 ^ (from' - to')))

/-- Add or subtract on two patterns of a type (03 R95, R98, R100). A decimal operand is checked against the range of the type
as its result is (DESIGN CHOICE, notes/assumptions/111.md). -/
def addOp (neg : Bool) (ovf : Nat) (a b d : Decl) (x y : Nat) : Except RowErr Nat :=
  let t := a.ty
  match t.cls with
  | 4 => .ok (if neg then fSub t.fmt x y else fAdd t.fmt x y)
  | 5 => do
    let p ← rescale t ovf a.scale d.scale (t.int x)
    let q ← rescale t ovf b.scale d.scale (t.int y)
    let r ← fitDec t ovf (if neg then p - q else p + q)
    return t.pat r
  | _ => fitInt t ovf (if neg then t.int x - t.int y else t.int x + t.int y)

/-- Multiply. -/
def mulOp (ovf : Nat) (a : Decl) (x y : Nat) : Except RowErr Nat :=
  let t := a.ty
  match t.cls with
  | 4 => .ok (fMul t.fmt x y)
  | 5 => (fitDec t ovf (t.int x * t.int y)).map t.pat
  | _ => fitInt t ovf (t.int x * t.int y)

/-- Whether a divisor is zero (03 R97). -/
def isZeroDiv (t : Ty) (y : Nat) : Bool := if t.cls = 4 then fIsZero t.fmt y else t.int y == 0

/-- Divide by a divisor that is not zero (03 R96, R100). -/
def divOp (ovf : Nat) (a b d : Decl) (x y : Nat) : Except RowErr Nat :=
  let t := a.ty
  match t.cls with
  | 4 => .ok (fDiv t.fmt x y)
  | 5 =>
    let n := t.int x * 10 ^ (b.scale + d.scale)
    let m := t.int y * 10 ^ a.scale
    let n := if m < 0 then -n else n
    (fitDec t ovf (divHalfAway n m.natAbs)).map t.pat
  | _ => fitInt t ovf (Int.tdiv (t.int x) (t.int y))

/-- Negate. -/
def negOp (ovf : Nat) (t : Ty) (x : Nat) : Except RowErr Nat :=
  if t.cls = 4 then .ok (fNeg t.fmt x)
  else if t.isDec then (fitDec t ovf (-t.int x)).map t.pat else fitInt t ovf (-t.int x)

/-- Absolute value. -/
def absOp (ovf : Nat) (t : Ty) (x : Nat) : Except RowErr Nat :=
  if t.cls = 4 then .ok (fAbs t.fmt x)
  else if t.isDec then (fitDec t ovf (t.int x).natAbs).map t.pat else fitInt t ovf (t.int x).natAbs

/-- Shift left or right (04 R144). -/
def shiftOp (left : Bool) (t : Ty) (x y : Nat) : Nat :=
  let w := 8 * t.width
  let n := y % 2 ^ w
  if left then (if n ≥ w then 0 else (x * 2 ^ n) % 2 ^ w)
  else
    let i := t.int x
    if n ≥ w then (if i < 0 then 2 ^ w - 1 else 0) else t.pat (Int.fdiv i (2 ^ n))

/-! ### Casts (04 R145, 03 R99) -/

/-- Float to an integer type. -/
def floatToInt (f : FFmt) (t : Ty) (ovf x : Nat) : Except RowErr Nat :=
  match fRead f x with
  | .nan => if ovf = 0 then .error .overflow else .ok 0
  | .inf n => if ovf = 0 then .error .overflow else .ok (t.pat (if n then t.lo else t.hi))
  | .fin n m e =>
    let r := dyadicRat (fSig n m) e
    fitInt t (if ovf = 0 then 0 else 1) (Int.tdiv r.1 r.2)

/-- Float to a decimal. -/
def floatToDec (f : FFmt) (d : Decl) (ovf x : Nat) : Except RowErr Nat :=
  match fRead f x with
  | .nan => if ovf = 0 then .error .overflow else .ok 0
  | .inf n => if ovf = 0 then .error .overflow else .ok (d.ty.pat (if n then d.ty.lo else d.ty.hi))
  | .fin n m e =>
    let r := dyadicRat (fSig n m) e
    (fitDec d.ty ovf (divHalfAway (r.1 * 10 ^ d.scale) r.2)).map d.ty.pat

/-- Microseconds in a day. -/
def usPerDay : Int := 86400000000

/-- Convert a valid value. -/
def castOp (ovf : Nat) (a d : Decl) (x : Nat) : Except RowErr Nat :=
  let s := a.ty
  let t := d.ty
  if s = t ∧ a.scale = d.scale then .ok x
  else match s.cls, t.cls with
    | 4, 4 => .ok (fConv s.fmt t.fmt x)
    | 4, 5 => floatToDec s.fmt d ovf x
    | 4, _ => floatToInt s.fmt t ovf x
    | 5, 5 =>
      -- the rescaled coefficient is held to the target's range only (04 R145)
      (rescale t ovf a.scale d.scale (s.int x)).map t.pat
    | 5, 4 => .ok (fOfRat t.fmt (s.int x) (10 ^ a.scale))
    | 5, _ => fitInt t ovf (divHalfAway (s.int x) (10 ^ a.scale))
    | 1, _ => .ok (b2n (x % 256 != 0))
    | 6, 7 => fitInt t ovf (s.int x * usPerDay)
    | 7, 6 => .ok (t.pat (Int.fdiv (s.int x) usPerDay))
    | 8, _ => .ok x
    | _, 8 => .ok x
    | _, 1 => .ok (b2n (s.int x != 0))
    | _, 4 => .ok (fOfInt t.fmt (s.int x))
    | _, 5 => (fitDec t ovf (s.int x * 10 ^ d.scale)).map t.pat
    | _, _ => fitInt t ovf (s.int x)

/-! ### Calendar (03 R102, 04 R146) -/

/-- Year, month and day of a count of days since 1970-01-01, proleptic Gregorian. -/
def civil (z : Int) : Int × Int × Int :=
  let z := z + 719468
  let era := Int.fdiv z 146097
  let doe := z - era * 146097
  let yoe := (doe - doe / 1460 + doe / 36524 - doe / 146096) / 365
  let doy := doe - (365 * yoe + yoe / 4 - yoe / 100)
  let mp := (5 * doy + 2) / 153
  let d := doy - (153 * mp + 2) / 5 + 1
  let m := if mp < 10 then mp + 3 else mp - 9
  let y := yoe + era * 400
  (if m ≤ 2 then y + 1 else y, m, d)

/-- Days since 1970-01-01 of a date. -/
def daysOf (y m d : Int) : Int :=
  let y := if m ≤ 2 then y - 1 else y
  let era := Int.fdiv y 400
  let yoe := y - era * 400
  let mp := if m > 2 then m - 3 else m + 9
  let doy := (153 * mp + 2) / 5 + d - 1
  let doe := yoe * 365 + yoe / 4 - yoe / 100 + doy
  era * 146097 + doe - 719468

/-- ISO day of the week, 1 for Monday; 1970-01-01 was a Thursday. -/
def isoDow (z : Int) : Int := Int.fmod (z + 3) 7 + 1

/-- ISO week number: the week of the year that holds the day's Thursday. -/
def isoWeek (z : Int) : Int :=
  let th := z - isoDow z + 4
  let y := (civil th).1
  (th - daysOf y 1 1) / 7 + 1

/-- Days and microseconds within the day of a DATE or TIMESTAMP. -/
def dayParts (t : Ty) (i : Int) : Int × Int :=
  if t = .date then (i, 0) else (Int.fdiv i usPerDay, Int.fmod i usPerDay)

/-- DATEPART. -/
def datePart (t : Ty) (aux x : Nat) : Int :=
  let p := dayParts t (t.int x)
  let c := civil p.1
  match aux with
  | 0 => c.1
  | 1 => c.2.1
  | 2 => c.2.2
  | 3 => isoDow p.1
  | 4 => p.1 - daysOf c.1 1 1 + 1
  | 5 => isoWeek p.1
  | 6 => p.2 / 3600000000
  | 7 => p.2 / 60000000 % 60
  | 8 => p.2 / 1000000 % 60
  | _ => p.2 % 1000000

/-- DATETRUNC: a result below the type's minimum gives the minimum. -/
def dateTrunc (t : Ty) (aux x : Nat) : Nat :=
  let i := t.int x
  let p := dayParts t i
  let c := civil p.1
  let back (z : Int) : Int := if t = .date then z else z * usPerDay
  let r : Int := match aux with
    | 0 => back (daysOf c.1 1 1)
    | 1 => back (daysOf c.1 c.2.1 1)
    | 2 => back (p.1 - isoDow p.1 + 1)
    | 3 => back p.1
    | 4 => i - Int.fmod i 3600000000
    | 5 => i - Int.fmod i 60000000
    | _ => i - Int.fmod i 1000000
  t.pat (if r < t.lo then t.lo else r)

/-! ### One micro-op on one row -/

/-- TRUE or FALSE as a cell. -/
def boolCell (b : Bool) : Cell := Cell.of (b2n b)

/-- Whether a BOOL cell is TRUE (03 R88). -/
def Cell.isTrue (c : Cell) : Bool := c.ok && c.v % 256 != 0
/-- Whether a BOOL cell is FALSE. -/
def Cell.isFalse (c : Cell) : Bool := c.ok && c.v % 256 == 0

/-- Comparison operators by code 0 EQ to 5 GE. -/
def cmpHolds (op : Nat) (o : Ordering) : Bool :=
  match op with
  | 0 => o == .eq
  | 1 => o != .eq
  | 2 => o == .lt
  | 3 => o != .gt
  | 4 => o == .gt
  | _ => o != .lt

/-- The lesser or greater of two valid cells, rescaled to D's scale (04 R144). -/
def minMaxOp (mx : Bool) (u : UOp) (a b d : Decl) (x y : Cell) : Except RowErr Cell :=
  let o := cmpVal a.ty a.scale b.scale u.alt x y
  let first := if mx then o != .lt else o != .gt
  if a.ty.isDec then do
    let c ← if first then rescale a.ty u.ovf a.scale d.scale (a.ty.int x.v)
      else rescale a.ty u.ovf b.scale d.scale (a.ty.int y.v)
    return Cell.of (a.ty.pat c)
  else .ok (if first then x else y)

/-- The result of a micro-op on a row whose operands are all valid; `a`, `b`, `c` and `d` declare S1, S2, S3 and D. -/
def evalValid (u : UOp) (a b c d : Decl) (x y z : Cell) : Except RowErr Cell :=
  let t := a.ty
  let pat (r : Except RowErr Nat) : Except RowErr Cell := r.map Cell.of
  match u.op with
  | 0x01 => .ok x
  | 0x0A => .ok (boolCell x.isFalse)
  | 0x0F => .ok (if z.isTrue then x else y)
  | 0x16 => .ok (boolCell (cmpVal t a.scale b.scale u.alt x y != .lt && cmpVal t a.scale c.scale u.alt x z != .gt))
  | 0x18 => .ok (boolCell (decide (y.strLen ≤ x.strLen) && (foldStr u.alt y.str).isPrefixOf (foldStr u.alt x.str)))
  | 0x19 => .ok (Cell.of x.strLen)
  | 0x20 => pat (addOp false u.ovf a b d x.v y.v)
  | 0x21 => pat (addOp true u.ovf a b d x.v y.v)
  | 0x22 => pat (mulOp u.ovf a x.v y.v)
  | 0x23 =>
    if isZeroDiv t y.v then (if u.alt then .ok Cell.null else .error .divZero) else pat (divOp u.ovf a b d x.v y.v)
  | 0x24 =>
    if isZeroDiv t y.v then (if u.alt then .ok Cell.null else .error .divZero)
    else .ok (Cell.of (t.pat (Int.tmod (t.int x.v) (t.int y.v))))
  | 0x25 => pat (negOp u.ovf t x.v)
  | 0x26 => pat (absOp u.ovf t x.v)
  | 0x27 => minMaxOp false u a b d x y
  | 0x28 => minMaxOp true u a b d x y
  | 0x2A => .ok (Cell.of (x.v &&& y.v))
  | 0x2B => .ok (Cell.of (x.v ||| y.v))
  | 0x2C => .ok (Cell.of (x.v ^^^ y.v))
  | 0x2D => .ok (Cell.of (shiftOp true t x.v y.v))
  | 0x2E => .ok (Cell.of (shiftOp false t x.v y.v))
  | 0x30 => if t = .varstr then .ok x else pat (castOp u.ovf a d x.v)
  | 0x38 => .ok (Cell.of (Ty.i32.pat (datePart t (bitsOf u.payload 3 0) x.v)))
  | 0x39 => .ok (Cell.of (dateTrunc t (bitsOf u.payload 3 0) x.v))
  | _ =>
    if 0x10 ≤ u.op ∧ u.op ≤ 0x15 then .ok (boolCell (cmpHolds (u.op - 0x10) (cmpVal t a.scale b.scale u.alt x y)))
    else .ok Cell.null

/-- How many register or constant sources a micro-op reads. -/
def uopReads (op : Nat) : Nat :=
  if op = 0 ∨ op = 2 ∨ op = 3 ∨ op = 4 then 0
  else if [0x01, 0x0A, 0x0C, 0x0D, 0x19, 0x25, 0x26, 0x30, 0x38, 0x39].contains op then 1
  else if op = 0x0F ∨ op = 0x16 then 3 else 2

/-- The result of a micro-op on an evaluated row (03 R84, R85, R87): operands as cells, constants in their places. -/
def evalRow (u : UOp) (a b c d : Decl) (rn : Nat) (x y z : Cell) : Except RowErr Cell :=
  match u.op with
  | 0x02 => .ok y
  | 0x03 => .ok Cell.null
  | 0x04 => .ok (Cell.of rn)
  | 0x08 =>
    .ok (if x.isFalse || y.isFalse then boolCell false else if x.isTrue && y.isTrue then boolCell true else Cell.null)
  | 0x09 =>
    .ok (if x.isTrue || y.isTrue then boolCell true else if x.isFalse && y.isFalse then boolCell false else Cell.null)
  | 0x0C => .ok (boolCell (!x.ok))
  | 0x0D => .ok (boolCell x.ok)
  | 0x0E => .ok (if x.ok then x else y)
  | _ =>
    let n := uopReads u.op
    if x.ok && (n < 2 || y.ok) && (n < 3 || z.ok) then evalValid u a b c d x y z else .ok Cell.null

end Sys2Proof.Machine
end

