-- ==== Sys2Proof/Machine/Image.lean ====
section
/-! DEFINITION. Pipeline images: reading their parts (04 R110 to R128, R137, R141; 05 R149, R150, R176). -/

namespace Sys2Proof.Machine
open Sys2Proof

/-- An operator word (04 R124) and the image offset at which it lies. -/
structure OpW where
  opc : Nat
  opt : Nat
  a0 : Nat
  a1 : Nat
  a2 : Nat
  a3 : Nat
  a4 : Nat
  a5 : Nat
  off : Nat
  deriving DecidableEq, Repr

/-- Read an operator word. -/
def opWOf (img : List Byte) (off : Nat) : OpW :=
  let w := leAt img off 16
  { opc := bitsOf w 127 120, opt := bitsOf w 119 112, a0 := bitsOf w 111 96, a1 := bitsOf w 95 80, a2 := bitsOf w 79 64,
    a3 := bitsOf w 63 48, a4 := bitsOf w 47 32, a5 := bitsOf w 31 0, off := off }

/-- An output descriptor (04 R122). -/
structure OutD where
  kind : Nat
  ty : Ty
  scale : Nat
  group : Nat
  flags : Nat
  base : Nat
  cap : Nat
  validBase : Nat
  heapBase : Nat
  heapBytes : Nat
  deriving DecidableEq, Repr

/-- Read a column descriptor of 64 bytes; `none` for a reserved type. -/
def colDOf (b : List Byte) : Option ColD :=
  (tyOf (leAt b 1 1)).map fun t =>
    { kind := leAt b 0 1, ty := t, ratioLog2 := leAt b 2 1, guardT := leAt b 3 1, cap := leAt b 4 2, scale := leAt b 6 1,
      flags := leAt b 7 1, base := leAt b 8 8, rows := leAt b 16 8, heapBase := leAt b 24 8, heapBytes := leAt b 32 8,
      validBase := leAt b 40 8 }

/-- Read an output descriptor of 64 bytes. -/
def outDOf (b : List Byte) : Option OutD :=
  (tyOf (leAt b 1 1)).map fun t =>
    { kind := leAt b 0 1, ty := t, scale := leAt b 2 1, group := leAt b 3 1, flags := leAt b 4 1, base := leAt b 8 8,
      cap := leAt b 16 8, validBase := leAt b 24 8, heapBase := leAt b 32 8, heapBytes := leAt b 40 8 }

/-- Whether bytes `lo` to `hi − 1` are zero. -/
def zeroRange (b : List Byte) (lo hi : Nat) : Bool := (sliceB b lo (hi - lo)).all (· == 0)

/-- Whether a column descriptor keeps the rules of 04 R119; `rows0` asks for ROWS 0 in place of 1 to 2^48 (07 R229). -/
def colDOk (b : List Byte) (rows0 : Bool) : Bool :=
  match colDOf b with
  | none => false
  | some d =>
    let frc := d.kind == 1
    let hasV := bitAt d.flags 0
    (d.kind == 1 || d.kind == 2) && d.ty.scaleOk d.scale && decide (d.flags ≤ 1) && !(frc && hasV) &&
    (if frc then decide (d.ratioLog2 ≤ 4) && decide (d.guardT ≤ 16) && [0, 16, 64, 256, 1024].contains d.cap &&
        decide (d.cap * d.ty.width ≤ 16384) && d.base % 65536 == 0
      else d.ratioLog2 == 0 && d.guardT == 0 && d.cap == 0 && d.base % 128 == 0) &&
    (if rows0 then d.rows == 0 else decide (1 ≤ d.rows) && decide (d.rows ≤ 2 ^ 48)) &&
    d.heapBytes % 128 == 0 && d.heapBase % 128 == 0 && (d.heapBytes != 0 || d.heapBase == 0) &&
    (if hasV then d.validBase % 128 == 0 else d.validBase == 0) && zeroRange b 48 64

/-- Whether an output descriptor keeps the rules of 04 R122. -/
def outDOk (b : List Byte) : Bool :=
  match outDOf b with
  | none => false
  | some d =>
    d.kind == 2 && d.ty.scaleOk d.scale && decide (d.group ≤ 15) && decide (d.flags ≤ 1) && zeroRange b 5 8 &&
    d.base % 128 == 0 && decide (1 ≤ d.cap) && decide (d.cap ≤ 2 ^ 48) &&
    (if bitAt d.flags 0 then d.validBase % 128 == 0 else d.validBase == 0) && d.heapBase % 128 == 0 &&
    d.heapBytes % 128 == 0 && (d.ty == .varstr || d.heapBytes == 0) && zeroRange b 48 64

/-! ### Declarations in the pool (05 R149, R176) -/

/-- A table declaration: type codes as they stand. -/
structure TDecl where
  kind : Nat
  entryLog2 : Nat
  linesLog2 : Nat
  maxProbe : Nat
  pbits : Nat
  keyN : Nat
  valN : Nat
  scale : Nat
  base : Nat
  anchor : Nat
  keyTys : List Nat
  valTys : List Nat
  funcs : List Nat
  seed : Nat
  deriving DecidableEq, Repr

/-- Read a table declaration of 64 bytes. -/
def tDeclOf (b : List Byte) : TDecl :=
  let kn := leAt b 5 1
  let vn := leAt b 6 1
  { kind := leAt b 0 1, entryLog2 := leAt b 1 1, linesLog2 := leAt b 2 1, maxProbe := leAt b 3 1, pbits := leAt b 4 1,
    keyN := kn, valN := vn, scale := leAt b 7 1, base := leAt b 8 8, anchor := leAt b 16 8,
    keyTys := (List.range (min kn 8)).map (fun i => leAt b (24 + i) 1),
    valTys := (List.range (min vn 16)).map (fun i => leAt b (32 + i) 1),
    funcs := (List.range (min vn 16)).map (fun i => leAt b 48 8 / 16 ^ i % 16), seed := leAt b 56 1 }

/-- Width of a type code; 0 for a code that names none. -/
def codeWidth (c : Nat) : Nat := ((tyOf c).map Ty.width).getD 0

/-- Width of an aggregate's state (05 R166). -/
def aggWidth (f c : Nat) : Nat :=
  match f with
  | 1 | 2 | 6 => 8
  | 3 => if c = 0xC ∨ c = 0xD then 16 else 8
  | 7 | 8 => codeWidth c + 8
  | _ => codeWidth c

/-- Type code an aggregate delivers (04 R127). -/
def aggResult (f c : Nat) : Nat :=
  match f with
  | 1 | 2 => 5
  | 3 =>
    match (tyOf c).map Ty.cls with
    | some 2 => 5
    | some 3 => 9
    | some 4 => 0xB
    | _ => 0xD
  | 6 => 0xB
  | _ => c

/-- Whether an aggregate function takes a source type (04 R127); code 0 is the source of COUNT_STAR. -/
def aggTakes (f c : Nat) : Bool :=
  if f = 1 then c == 0
  else match tyOf c with
    | none => false
    | some t =>
      match f with
      | 2 => true
      | 3 => t.cls == 2 || t.cls == 3 || t.cls == 4 || t.cls == 5
      | 6 => t.cls == 2 || t.cls == 3 || t.cls == 4
      | 4 | 5 | 7 | 8 => t != .varstr
      | _ => false

/-- Key bytes and value or state bytes of an entry (05 R150). -/
def TDecl.keyBytes (d : TDecl) : Nat := (d.keyTys.map codeWidth).sum
/-- Widths of the values of an entry. -/
def TDecl.valWidths (d : TDecl) : List Nat :=
  if d.kind = 1 then d.valTys.map codeWidth else List.zipWith aggWidth d.funcs d.valTys
/-- Value bytes of an entry. -/
def TDecl.valBytes (d : TDecl) : Nat := d.valWidths.sum
/-- Bytes of an entry slot. -/
def TDecl.entryBytes (d : TDecl) : Nat := 16 * 2 ^ d.entryLog2

/-- Whether a declaration's DEC_SCALE suits a list of type codes. -/
def scaleSuits (scale : Nat) (codes : List Nat) : Bool :=
  let decs := codes.filterMap tyOf |>.filter Ty.isDec
  if decs.isEmpty then scale == 0 else decs.all (fun t => t.scaleOk scale)

/-- Whether a table declaration keeps 05 R149 to R151. -/
def tDeclOk (b : List Byte) : Bool :=
  let d := tDeclOf b
  let join := d.kind == 1
  (d.kind == 1 || d.kind == 2) && decide (d.entryLog2 ≤ 3) && decide (4 ≤ d.linesLog2) && decide (d.linesLog2 ≤ 26) &&
  decide (1 ≤ d.maxProbe) && decide (d.maxProbe ≤ 16) && decide (d.pbits ≤ 6) && decide (d.keyN ≤ 8) &&
  (!join || decide (1 ≤ d.keyN)) && (if join then decide (d.valN ≤ 8) else decide (1 ≤ d.valN) && decide (d.valN ≤ 16)) &&
  d.base % 128 == 0 && d.anchor % 128 == 0 && zeroRange b (24 + d.keyN) 32 && zeroRange b (32 + d.valN) 48 &&
  (if join then zeroRange b 48 56 else leAt b 48 8 / 16 ^ d.valN == 0) && zeroRange b 57 64 &&
  d.keyTys.all (fun c => (tyOf c).isSome && c != 0x11) &&
  (if join then d.valTys.all (fun c => (tyOf c).isSome && c != 0x11)
    else (d.funcs.zip d.valTys).all (fun p => decide (1 ≤ p.1) && decide (p.1 ≤ 8) &&
      (if p.1 = 1 then p.2 == 0 else (tyOf p.2).isSome) && (p.2 != 0x11 || p.1 == 2))) &&
  scaleSuits d.scale (d.keyTys ++ d.valTys) &&
  decide (d.keyBytes + d.valBytes ≤ 120) && decide (8 + d.keyBytes + d.valBytes ≤ d.entryBytes) &&
  (d.entryLog2 == 0 || decide (d.entryBytes / 2 < 8 + d.keyBytes + d.valBytes))

/-- A run-area declaration (05 R176). -/
structure RDecl where
  kind : Nat
  keyBytes : Nat
  payN : Nat
  scale : Nat
  recBytes : Nat
  base : Nat
  bytes : Nat
  dir : Nat
  maxRuns : Nat
  payTys : List Nat
  deriving DecidableEq, Repr

/-- Read a run-area declaration. -/
def rDeclOf (b : List Byte) : RDecl :=
  let n := leAt b 2 1
  { kind := leAt b 0 1, keyBytes := leAt b 1 1, payN := n, scale := leAt b 3 1, recBytes := leAt b 4 2,
    base := leAt b 8 8, bytes := leAt b 16 8, dir := leAt b 24 8, maxRuns := leAt b 32 4,
    payTys := (List.range (min n 16)).map (fun i => leAt b (40 + i) 1) }

/-- Whether a run-area declaration keeps 05 R176. -/
def rDeclOk (b : List Byte) : Bool :=
  let d := rDeclOf b
  d.kind == 3 && decide (2 ≤ d.keyBytes) && decide (d.keyBytes ≤ 32) && decide (d.payN ≤ 16) &&
  zeroRange b 6 8 && zeroRange b 36 40 && zeroRange b 56 64 && zeroRange b (40 + d.payN) 56 &&
  d.payTys.all (fun c => (tyOf c).isSome && c != 0x11) && scaleSuits d.scale d.payTys &&
  d.recBytes == alignUp (d.keyBytes + 8 + 2 + (d.payTys.map codeWidth).sum) 16 && d.base % 65536 == 0 &&
  d.bytes % 65536 == 0 && d.dir % 128 == 0 && decide (1 ≤ d.maxRuns) && decide (d.maxRuns ≤ 16777216)

/-! ### The parts of an image -/

/-- A pipeline of an image. -/
structure PipeI where
  /-- image offset of its table entry -/
  ent : Nat
  ops : List OpW
  prog : List UOp
  progOff : Nat
  regTab : Nat
  /-- type code and scale of each register -/
  regs : List (Nat × Nat)
  depends : Nat
  deriving DecidableEq, Repr

/-- The parts of an image. -/
structure Img where
  isa : Nat
  req : Nat
  tag : Nat
  pipes : List PipeI
  pool : List Byte
  poolOff : Nat
  /-- the input and output descriptors as bytes -/
  cols : List (List Byte)
  colOff : Nat
  outs : List (List Byte)
  outOff : Nat
  deriving DecidableEq, Repr

/-- Read a pipeline by its table entry. -/
def pipeIOf (img : List Byte) (ent : Nat) : PipeI :=
  let ops := leAt img ent 4
  let prog := leAt img (ent + 8) 4
  let rt := leAt img (ent + 12) 4
  { ent := ent, ops := (List.range (leAt img (ent + 4) 1)).map (fun i => opWOf img (ops + 16 * i)),
    prog := (List.range (leAt img (ent + 6) 2)).map (fun i => uopOf (leAt img (prog + 8 * i) 8)), progOff := prog,
    regTab := rt, regs := (List.range 32).map (fun i => (leAt img (rt + 4 * i) 1, leAt img (rt + 4 * i + 1) 1)),
    depends := leAt img (ent + 16) 2 }

/-- Read the parts of an image. -/
def imgOf (img : List Byte) : Img :=
  let pt := leAt img 16 4
  let co := leAt img 28 4
  let oo := leAt img 32 4
  { isa := leAt img 5 1, req := leAt img 6 1, tag := leAt img 40 8,
    pipes := (List.range (leAt img 7 1)).map (fun j => pipeIOf img (pt + 32 * j)),
    pool := sliceB img (leAt img 20 4) (leAt img 24 4), poolOff := leAt img 20 4,
    cols := (List.range (leAt img 36 1)).map (fun i => sliceB img (co + 64 * i) 64), colOff := co,
    outs := (List.range (leAt img 37 1)).map (fun i => sliceB img (oo + 64 * i) 64), outOff := oo }

/-- A column list: source index and register of each entry (04 R126). -/
def Img.colList (m : Img) (off n : Nat) : List (Nat × Nat) :=
  (List.range n).map (fun i => let w := leAt m.pool (off + 2 * i) 2; (bitsOf w 5 0, bitsOf w 12 8))
/-- A register list: register and FOLD. -/
def Img.regList (m : Img) (off n : Nat) : List (Nat × Bool) :=
  (List.range n).map (fun i => let w := leAt m.pool (off + i) 1; (bitsOf w 4 0, bitAt w 7))

/-- A sort key list entry. -/
structure SortK where
  reg : Nat
  desc : Bool
  nullsLast : Bool
  fold : Bool
  deriving DecidableEq, Repr

/-- A sort key list. -/
def Img.sortList (m : Img) (off n : Nat) : List SortK :=
  (List.range n).map (fun i => let w := leAt m.pool (off + i) 1; ⟨bitsOf w 4 0, bitAt w 5, bitAt w 6, bitAt w 7⟩)

/-- An aggregate list entry: function, overflow mode, source register. -/
structure AggE where
  f : Nat
  ovf : Nat
  reg : Nat
  deriving DecidableEq, Repr

/-- An aggregate list. -/
def Img.aggList (m : Img) (off n : Nat) : List AggE :=
  (List.range n).map (fun i => let w := leAt m.pool (off + 2 * i) 2; ⟨bitsOf w 3 0, bitsOf w 5 4, bitsOf w 12 8⟩)

/-- A predicate record of 48 bytes (04 R137). -/
structure Pred where
  kind : Nat
  col : Nat
  op : Nat
  c1 : Nat
  c2 : Nat
  bitmap : Nat
  deriving DecidableEq, Repr

/-- Read a predicate record. -/
def predOf (b : List Byte) : Pred :=
  { kind := leAt b 0 1, col := leAt b 1 1, op := leAt b 2 1, c1 := leAt b 8 16, c2 := leAt b 24 16, bitmap := leAt b 8 32 }

/-- The predicate records of an operator. -/
def Img.preds (m : Img) (off n : Nat) : List Pred := (List.range n).map (fun i => predOf (sliceB m.pool (off + 48 * i) 48))

/-- The declaration at a pool offset, as bytes. -/
def Img.decl (m : Img) (off : Nat) : List Byte := sliceB m.pool off 64

/-- Declared type and scale of a register; an undeclared one reads as BOOL (validation refuses its use). -/
def PipeI.reg (p : PipeI) (r : Nat) : Decl :=
  let e := nthD p.regs r (0, 0)
  ⟨(tyOf e.1).getD .bool, e.2⟩

/-- Type code of a register. -/
def PipeI.code (p : PipeI) (r : Nat) : Nat := (nthD p.regs r (0, 0)).1

/-- Whether an operator names a table declaration. -/
def OpW.hasTable (o : OpW) : Bool := [0x21, 0x22, 0x23, 0x24].contains o.opc || (o.opc == 2 && bitAt o.opt 0)
/-- Whether an operator names a run-area declaration. -/
def OpW.hasRun (o : OpW) : Bool := o.opc == 0x30 || o.opc == 0x31

/-- Registers a micro-op reads, its mask register among them. -/
def UOp.reads (u : UOp) : List Nat :=
  let n := uopReads u.op
  (if 1 ≤ n then [u.s1] else []) ++ (if 2 ≤ n && u.kmode == 0 then [u.s2] else []) ++
  (if (n == 3 && (u.op == 0x0F || u.kmode == 0)) || u.mask then [u.s3] else [])

/-- The register a micro-op writes. -/
def UOp.writes (u : UOp) : List Nat := if u.op = 0 then [] else [u.d]

/-- Registers an operator itself reads. -/
def Img.opReads (m : Img) (o : OpW) : List Nat :=
  match o.opc with
  | 0x10 => [o.a2]
  | 0x12 => [o.a0]
  | 0x20 => (m.regList o.a0 o.a1).map Prod.fst
  | 0x21 => (m.regList o.a0 o.a1).map Prod.fst ++ (m.regList o.a2 o.a3).map Prod.fst ++ [o.a5]
  | 0x22 => (m.regList o.a0 o.a1).map Prod.fst ++ [o.a5]
  | 0x23 | 0x24 =>
    (m.regList o.a0 o.a1).map Prod.fst ++ ((m.aggList o.a2 o.a3).filter (fun e => e.f != 1)).map (·.reg) ++
      (if o.a1 = 0 then [] else [o.a5])
  | 0x30 => (m.sortList o.a0 o.a1).map (·.reg) ++ (m.regList o.a2 o.a3).map Prod.fst
  | 0x32 => (m.sortList o.a0 o.a1).map (·.reg)
  | 0x38 => (m.regList o.a0 o.a1).map Prod.fst ++ [bitsOf o.a5 4 0]
  | 0x41 => (m.colList o.a0 o.a1).map Prod.snd
  | 0x42 => (m.regList o.a0 o.a1).map Prod.fst
  | _ => []

/-- Registers an operator itself writes (04, below R148). -/
def Img.opWrites (m : Img) (o : OpW) : List Nat :=
  match o.opc with
  | 0x01 | 0x02 | 0x03 | 0x04 => (m.colList o.a0 o.a1).map Prod.snd
  | 0x31 => (m.colList o.a2 o.a3).map Prod.snd
  | 0x12 => if bitAt o.opt 2 then [] else [o.a1]
  | 0x20 => [o.a2]
  | 0x22 => (m.colList o.a2 o.a3).map Prod.snd
  | _ => []

/-- The micro-ops an operator runs, with their indices. -/
def PipeI.range (p : PipeI) (o : OpW) : List (Nat × UOp) :=
  if o.opc = 0x10 ∨ o.opc = 0x11 then
    (List.range o.a1).filterMap (fun i => p.prog[o.a0 + i]?.map (fun u => (o.a0 + i, u)))
  else []

/-- Registers read by operators after TOPK (05 R181). -/
def Img.readAfter (m : Img) (p : PipeI) (k : Nat) : List Nat :=
  ((p.ops.drop (k + 1)).flatMap (fun o => (p.range o).flatMap (fun u => u.2.reads) ++ m.opReads o)).foldl
    (fun acc r => if acc.contains r then acc else acc ++ [r]) []

/-- Index of an operator by code, if the pipeline holds one. -/
def PipeI.findOp (p : PipeI) (opc : Nat) : Option (Nat × OpW) :=
  (p.ops.zipIdx.find? (fun x => x.1.opc == opc)).map (fun x => (x.2, x.1))

/-- Bytes of a heap row of TOPK (05 R181). -/
def Img.topkRow (m : Img) (p : PipeI) (k : Nat) (o : OpW) : Nat :=
  alignUp (((m.sortList o.a0 o.a1).map (fun s => sortWidth (p.reg s.reg).ty)).sum + 8 +
    ((m.readAfter p k).map (fun r => (p.reg r).ty.width)).sum + 4) 16

/-- Whether an image holds a PARTITION. -/
def Img.hasPartition (m : Img) : Bool := m.pipes.any (fun p => p.ops.any (fun o => o.opc == 0x38))

/-- Operator-area bytes of operator `k` of a pipeline (05 R187). -/
def Img.opArea (m : Img) (p : PipeI) (k : Nat) (o : OpW) : Nat :=
  match o.opc with
  | 0x30 => 2 * 1024 * (rDeclOf (m.decl o.a4)).recBytes
  | 0x31 => 16384 * (bitsOf o.a5 7 0 + 1)
  | 0x32 => 2 * bitsOf o.a5 12 0 * m.topkRow p k o
  | 0x38 => 36 * 64 * ((m.regList o.a0 o.a1).map (fun r => (p.reg r.1).ty.width)).sum
  | _ => 0

/-- Where operator `k`'s share of the operator area begins: the shares follow one another in operator order (DESIGN CHOICE,
notes/assumptions/98.md). -/
def Img.areaAt (m : Img) (p : PipeI) (k : Nat) : Nat := ((p.ops.zipIdx.take k).map (fun x => m.opArea p x.2 x.1)).sum

/-- Operator-area bytes of a pipeline (05 R187). -/
def Img.footprint (m : Img) (p : PipeI) : Nat :=
  (p.ops.zipIdx.map (fun x => m.opArea p x.2 x.1)).sum +
  (if m.hasPartition || p.ops.any (fun o => o.opc == 3) then 73728 else 0)

end Sys2Proof.Machine
end

