-- ==== Sys2Proof/Machine/Validate.lean ====
section
/-! DEFINITION. Image validation (04 R148): fourteen checks in order; each gives the offsets of its failing items, and the
lowest offset of the first check that fails is reported. DEDUCED (notes/assumptions/33.md): which bytes are the item. -/

namespace Sys2Proof.Machine
open Sys2Proof

/-- An offset when a test fails. -/
def need (ok : Bool) (off : Nat) : List Nat := if ok then [] else [off]

/-! ### Check 4: layout -/

/-- A section: first byte, size, alignment, and the field that locates it. -/
structure Section where
  off : Nat
  size : Nat
  align : Nat
  loc : Nat
  deriving DecidableEq, Repr

/-- The sections named by the header alone. -/
def headSections (img : List Byte) : List Section :=
  let n := leAt img 7 1
  let pb := leAt img 24 4
  let cc := leAt img 36 1
  let oc := leAt img 37 1
  [⟨leAt img 16 4, 32 * n, 32, 16⟩] ++ (if cc = 0 then [] else [⟨leAt img 28 4, 64 * cc, 64, 28⟩]) ++
  (if oc = 0 then [] else [⟨leAt img 32 4, 64 * oc, 64, 32⟩]) ++ (if pb = 0 then [] else [⟨leAt img 20 4, pb, 16, 20⟩])

/-- The sections of pipeline entry `e`. -/
def pipeSections (img : List Byte) (e : Nat) : List Section :=
  let pc := leAt img (e + 6) 2
  [⟨leAt img e 4, 16 * leAt img (e + 4) 1, 16, e⟩, ⟨leAt img (e + 12) 4, 128, 4, e + 12⟩] ++
  (if pc = 0 then [] else [⟨leAt img (e + 8) 4, 8 * pc, 8, e + 8⟩])

/-- Whether a section is aligned and lies within bytes 128 to the end. -/
def Section.placed (s : Section) (n : Nat) : Bool := s.off % s.align == 0 && decide (128 ≤ s.off) && decide (s.off + s.size ≤ n)

/-- The locating fields of overlapping sections. -/
def overlaps : List Section → List Nat
  | [] => []
  | s :: t =>
    (t.filterMap (fun r =>
      if s.off < r.off + r.size ∧ r.off < s.off + s.size then
        some (if s.off < r.off then r.loc else if r.off < s.off then s.loc else max s.loc r.loc)
      else none)) ++ overlaps t

/-- Nonzero bytes outside the header and every section. -/
def strayBytes (img : List Byte) (l : List Section) : List Nat :=
  img.zipIdx.filterMap (fun b =>
    if 128 ≤ b.2 ∧ b.1 ≠ 0 ∧ !(l.any (fun s => decide (s.off ≤ b.2) && decide (b.2 < s.off + s.size))) then some b.2 else none)

/-- Failures of a pipeline entry's own fields; `j` its index. -/
def entryFails (img : List Byte) (n j e : Nat) : List Nat :=
  let d := leAt img (e + 16) 2
  need (decide (3 ≤ leAt img (e + 4) 1) && decide (leAt img (e + 4) 1 ≤ 32)) (e + 4) ++ need (zeroRange img (e + 5) (e + 6)) (e + 5) ++
  need (decide (leAt img (e + 6) 2 ≤ 256)) (e + 6) ++ need (leAt img (e + 6) 2 != 0 || leAt img (e + 8) 4 == 0) (e + 8) ++
  need (!bitAt d j && d / 2 ^ n == 0) (e + 16) ++ need (zeroRange img (e + 18) (e + 32)) (e + 18)

/-- Check 4. The zero bytes of a register-table entry are among its dash fields (notes/assumptions/99.md). -/
def layoutFails (img : List Byte) : List Nat :=
  let len := img.length
  let n := leAt img 7 1
  let pb := leAt img 24 4
  let head :=
    need (decide (leAt img 5 1 ≤ 2)) 5 ++ need (decide (leAt img 6 1 ≤ 2)) 6 ++ need (decide (1 ≤ n) && decide (n ≤ 16)) 7 ++
    need (pb != 0 || leAt img 20 4 == 0) 20 ++ need (decide (pb ≤ 16384) && pb % 16 == 0) 24 ++
    need (leAt img 36 1 != 0 || leAt img 28 4 == 0) 28 ++ need (leAt img 37 1 != 0 || leAt img 32 4 == 0) 32 ++
    need (decide (leAt img 36 1 ≤ 64)) 36 ++ need (decide (leAt img 37 1 ≤ 16)) 37 ++ need (zeroRange img 38 40) 38 ++
    need (zeroRange img 48 128) 48
  let hs := headSections img
  let pt := leAt img 16 4
  let tableOk := decide (1 ≤ n) && decide (n ≤ 16) && (Section.placed ⟨pt, 32 * n, 32, 16⟩ len)
  let ents := if tableOk then (List.range n).map (fun j => (j, pt + 32 * j)) else []
  let all := hs ++ ents.flatMap (fun e => pipeSections img e.2)
  -- bytes 2 and 3 of register-table entries (R114)
  let regs := ents.flatMap (fun e =>
    let rt := leAt img (e.2 + 12) 4
    if Section.placed ⟨rt, 128, 4, e.2 + 12⟩ len then
      (List.range 32).flatMap (fun i => need (zeroRange img (rt + 4 * i + 2) (rt + 4 * i + 4)) (rt + 4 * i + 2)) else [])
  head ++ regs ++ ents.flatMap (fun e => entryFails img n e.1 e.2) ++ (all.filter (fun s => !s.placed len)).map (·.loc) ++ overlaps all ++
    (if tableOk then strayBytes img all else [])

/-! ### Checks 5 and 6: descriptors, declarations, operators -/

/-- Pool offsets of the declarations the operators name, with whether each is a run area. -/
def Img.decls (m : Img) : List (Nat × Bool) :=
  m.pipes.flatMap (fun p => p.ops.filterMap (fun o =>
    if o.a4 % 64 == 0 && decide (o.a4 + 64 ≤ m.pool.length) then
      (if o.hasTable then some (o.a4, false) else if o.hasRun then some (o.a4, true) else none)
    else none))

/-- Check 5: a nonzero zero byte of a descriptor among its failures (notes/assumptions/99.md). -/
def descFails (m : Img) : List Nat :=
  (m.cols.zipIdx.filter (fun c => !colDOk c.1 false)).map (fun c => m.colOff + 64 * c.2) ++
  (m.outs.zipIdx.filter (fun c => !outDOk c.1)).map (fun c => m.outOff + 64 * c.2) ++
  m.decls.flatMap (fun d => need (if d.2 then rDeclOk (m.decl d.1) else tDeclOk (m.decl d.1)) (m.poolOff + d.1))

/-- A list of `n` entries of `size` bytes lies within the pool. -/
def Img.listIn (m : Img) (off n size : Nat) : Bool := decide (off + n * size ≤ m.pool.length)

/-- Column list entries have their zero bits zero. -/
def Img.colOk (m : Img) (off n : Nat) : Bool :=
  m.listIn off n 2 && (List.range n).all (fun i => leAt m.pool (off + 2 * i) 2 &&& 0xE0C0 == 0)

/-- Register list entries are clean, with FOLD on VARSTR registers only (04 R126). -/
def Img.regOk (m : Img) (p : PipeI) (off n : Nat) : Bool :=
  m.listIn off n 1 && (List.range n).all (fun i =>
    let w := leAt m.pool (off + i) 1
    bitsOf w 6 5 == 0 && (!bitAt w 7 || p.code (bitsOf w 4 0) == 0x11))

/-- Sort key entries have FOLD on VARSTR registers only, and the key has 2 to 32 bytes (05 R174). -/
def Img.sortOk (m : Img) (p : PipeI) (off n : Nat) : Bool :=
  m.listIn off n 1 && (m.sortList off n).all (fun s => !s.fold || p.code s.reg == 0x11) &&
    decide (((m.sortList off n).map (fun s => sortWidth (p.reg s.reg).ty)).sum ≤ 32)

/-- Normalised key bytes of a sort key list. -/
def Img.sortBytesN (m : Img) (p : PipeI) (off n : Nat) : Nat :=
  ((m.sortList off n).map (fun s => sortWidth (p.reg s.reg).ty)).sum

/-- Aggregate list entries are clean and name functions of 04 R127; that check 6 refuses the others is a design choice
(notes/assumptions/110.md). -/
def Img.aggOk (m : Img) (off n : Nat) : Bool :=
  m.listIn off n 2 && (List.range n).all (fun i =>
    let w := leAt m.pool (off + 2 * i) 2
    w &&& 0xE0C0 == 0 && decide (1 ≤ w % 16) && decide (w % 16 ≤ 8) && (w % 16 != 1 || w / 256 == 0))

/-- A number in a range. -/
def inR (v lo hi : Nat) : Bool := decide (lo ≤ v) && decide (v ≤ hi)

/-- An operator's position rule (04 R125). -/
def posOk (k n opc : Nat) : Bool :=
  if k = 0 then [1, 2, 3, 4, 0x31].contains opc
  else if k + 1 = n then opc == 0x4F
  else if k + 2 = n then [0x41, 0x42, 0x21, 0x23, 0x24, 0x38, 0x30].contains opc
  else [1, 0x10, 0x11, 0x12, 0x20, 0x22, 0x40, 0x32].contains opc

/-- Whether an operator opcode exists (03 R104). -/
def opcExists (c : Nat) : Bool :=
  [1, 2, 3, 4, 0x10, 0x11, 0x12, 0x20, 0x21, 0x22, 0x23, 0x24, 0x30, 0x31, 0x32, 0x38, 0x40, 0x41, 0x42, 0x4F].contains c

/-- Argument ranges, zero fields, OPT bits and lists of an operator (04 R128). A MERGE fan-in of 17 to 64 passes here at any
level, and check 12 judges it (notes/assumptions/99.md). -/
def Img.argsOk (m : Img) (p : PipeI) (o : OpW) : Bool :=
  let z := o.opt == 0
  let declOk := o.a4 % 64 == 0 && m.listIn o.a4 1 64
  match o.opc with
  | 0x01 => z && inR o.a1 1 16 && m.colOk o.a0 o.a1 && inR o.a3 0 8 && o.a2 % 16 == 0 && m.listIn o.a2 o.a3 48 && o.a4 == 0 && o.a5 == 0
  | 0x02 =>
    decide (o.opt ≤ 1) && inR o.a1 1 16 && m.colOk o.a0 o.a1 && o.a5 == 0 &&
    (if o.opt = 1 then o.a2 == 0 && o.a3 == 0 && declOk
     else inR o.a3 0 8 && o.a2 % 16 == 0 && m.listIn o.a2 o.a3 48 && o.a4 == 0)
  | 0x03 => z && inR o.a1 1 32 && m.colOk o.a0 o.a1 && inR o.a2 0 15 && o.a3 == 0 && o.a4 == 0 && o.a5 == 0
  | 0x04 => z && inR o.a1 1 32 && m.colOk o.a0 o.a1 && o.a2 == 0 && o.a3 == 0 && o.a4 == 0 && o.a5 == 0
  | 0x10 => z && inR o.a0 0 255 && inR o.a1 0 256 && inR o.a2 0 31 && o.a3 == 0 && o.a4 == 0 && o.a5 == 0
  | 0x11 => z && inR o.a0 0 255 && inR o.a1 1 256 && o.a2 == 0 && o.a3 == 0 && o.a4 == 0 && o.a5 == 0
  | 0x12 =>
    decide (o.opt ≤ 7) && (bitAt o.opt 0 || (!bitAt o.opt 1 && !bitAt o.opt 2)) && inR o.a0 0 31 &&
    (if bitAt o.opt 2 then o.a1 == 0 else inR o.a1 0 31) && inR o.a2 0 255 && m.listIn o.a3 1 16 && o.a4 == 0 && o.a5 == 0
  | 0x20 => z && inR o.a1 1 8 && m.regOk p o.a0 o.a1 && inR o.a2 0 31 && inR o.a3 0 255 && o.a4 == 0 && o.a5 == 0
  | 0x21 =>
    decide (o.opt ≤ 1) && inR o.a1 1 8 && m.regOk p o.a0 o.a1 && inR o.a3 0 8 && m.regOk p o.a2 o.a3 && declOk && inR o.a5 0 31
  | 0x22 =>
    decide (o.opt ≤ 3) && inR o.a1 1 8 && m.regOk p o.a0 o.a1 && inR o.a3 0 8 && m.colOk o.a2 o.a3 && declOk && inR o.a5 0 31 &&
    (!(o.opt == 1 || o.opt == 2) || o.a3 == 0)
  | 0x23 | 0x24 =>
    z && inR o.a1 0 8 && m.regOk p o.a0 o.a1 && inR o.a3 1 16 && m.aggOk o.a2 o.a3 && declOk &&
    (if o.a1 = 0 then o.a5 == 0 else inR o.a5 0 31)
  | 0x30 => z && inR o.a1 1 8 && m.sortOk p o.a0 o.a1 && inR o.a3 0 16 && m.regOk p o.a2 o.a3 && declOk && o.a5 == 0
  | 0x31 => z && inR o.a1 1 8 && m.sortOk p o.a0 o.a1 && inR o.a3 1 32 && m.colOk o.a2 o.a3 && declOk && inR o.a5 2 64
  | 0x32 =>
    decide (o.opt ≤ 1) && inR o.a1 1 8 && m.sortOk p o.a0 o.a1 && o.a2 == 0 && o.a3 == 0 && o.a4 == 0 && inR o.a5 1 4096
  | 0x38 =>
    decide (o.opt ≤ 1) && inR o.a1 1 32 && m.regOk p o.a0 o.a1 && inR o.a2 0 15 && m.listIn o.a4 1 8 &&
    leAt m.pool o.a4 8 / 2 ^ 36 == 0 && o.a5 / 2 ^ 16 == 0 && bitsOf o.a5 7 5 == 0 &&
    (if o.opt = 1 then m.listIn o.a3 (bitsOf o.a5 15 8) (p.reg (bitsOf o.a5 4 0)).ty.width else o.a3 == 0 && bitsOf o.a5 15 8 == 0)
  | 0x40 => z && o.a0 == 0 && o.a1 == 0 && o.a2 == 0 && o.a3 == 0 && o.a4 == 0 && decide (1 ≤ o.a5)
  | 0x41 => z && inR o.a1 1 16 && m.colOk o.a0 o.a1 && o.a2 == 0 && o.a3 == 0 && o.a4 == 0 && o.a5 == 0
  | 0x42 => z && inR o.a1 1 16 && m.regOk p o.a0 o.a1 && o.a2 == 0 && o.a3 == 0 && o.a4 == 0 && inR o.a5 1 512
  | 0x4F => z && o.a0 == 0 && o.a1 == 0 && o.a2 == 0 && o.a3 == 0 && o.a4 == 0 && o.a5 == 0
  | _ => false

/-- Whether the source indices of a column list name each of 0 to n − 1 once (06 R205). -/
def isPerm (l : List Nat) : Bool := (List.range l.length).all (fun i => l.contains i)

/-- Kind of an input descriptor. -/
def Img.colKind (m : Img) (i : Nat) : Nat := leAt (nthD m.cols i []) 0 1

/-- The most recent HASH or other write of a register before operator `k`: the HASH, or none. -/
def Img.hashBefore (m : Img) (p : PipeI) (k r : Nat) : Option OpW :=
  ((p.ops.take k).foldl (fun (acc : Option OpW) o =>
    if (p.range o).any (fun u => u.2.writes.contains r) then none
    else if (m.opWrites o).contains r then (if o.opc = 0x20 then some o else none) else acc) none)

/-- What an operator names agrees with the image (04 R128, R133; 05 R151, R163, R176, R179, R186; 06 R205). -/
def Img.namesOk (m : Img) (p : PipeI) (k : Nat) (o : OpW) : Bool :=
  let src (off n : Nat) : List Nat := (m.colList off n).map Prod.fst
  match o.opc with
  | 0x01 => (src o.a0 o.a1).all (fun i => decide (i < m.cols.length) && m.colKind i == 1)
  | 0x02 =>
    if o.opt = 1 then
      let d := tDeclOf (m.decl o.a4)
      (src o.a0 o.a1).all (fun i => decide (i < d.keyN) || (decide (8 ≤ i) && decide (i < 8 + d.valN)))
    else (src o.a0 o.a1).all (fun i => decide (i < m.cols.length) && m.colKind i == 2)
  | 0x03 =>
    (m.pipes.flatMap (·.ops)).countP (fun x => x.opc == 0x38 && x.a2 == o.a2) == 1 &&
    (m.pipes.flatMap (·.ops)).countP (fun x => x.opc == 3 && x.a2 == o.a2) == 1 &&
    (m.pipes.flatMap (·.ops)).any (fun x => x.opc == 0x38 && x.a2 == o.a2 && (src o.a0 o.a1).all (fun i => decide (i < x.a1)))
  | 0x04 => isPerm (src o.a0 o.a1)
  | 0x38 =>
    (m.pipes.flatMap (·.ops)).countP (fun x => x.opc == 3 && x.a2 == o.a2) == 1 &&
    (m.pipes.flatMap (·.ops)).countP (fun x => x.opc == 0x38 && x.a2 == o.a2) == 1
  | 0x21 | 0x22 | 0x23 | 0x24 =>
    let d := tDeclOf (m.decl o.a4)
    d.kind == (if o.opc ≤ 0x22 then 1 else 2) &&
    (o.opc != 0x22 || (src o.a2 o.a3).all (fun i => decide (i < d.valN))) &&
    (o.a1 == 0 ||
      (p.code o.a5 == 9 &&
        match m.hashBefore p k o.a5 with
        | some h => h.a3 == d.seed && (m.regList h.a0 h.a1).map Prod.fst == (m.regList o.a0 o.a1).map Prod.fst
        | none => false))
  | 0x30 | 0x31 =>
    let d := rDeclOf (m.decl o.a4)
    m.sortBytesN p o.a0 o.a1 == d.keyBytes &&
      (o.opc != 0x31 || (src o.a2 o.a3).all (fun i => decide (i < d.payN) || i == 16))
  | 0x41 =>
    let named := src o.a0 o.a1
    let grp (i : Nat) : Nat := leAt (nthD m.outs i []) 3 1
    named.all (fun i => decide (i < m.outs.length)) &&
      (List.range m.outs.length).all (fun i => named.contains i || !named.any (fun j => grp j == grp i))
  | _ => true

/-- Order rules beyond positions: at most three fetch scans, one TOPK, one LIMIT; little after TOPK (04 R125). -/
def PipeI.orderOk (p : PipeI) (k : Nat) (o : OpW) : Bool :=
  let before := p.ops.take k
  (o.opc != 1 || k == 0 || decide ((before.drop 1).countP (fun x => x.opc == 1) < 3)) &&
  (!(o.opc == 0x32 || o.opc == 0x40) || before.all (fun x => x.opc != o.opc)) &&
  (before.all (fun x => x.opc != 0x32) || [0x11, 0x10, 0x40, 0x41, 0x42, 0x4F].contains o.opc)

/-- A program range lies within the program and overlaps no earlier one (04 R140). -/
def PipeI.rangeOk (p : PipeI) (k : Nat) (o : OpW) : Bool :=
  if o.opc = 0x10 ∨ o.opc = 0x11 then
    decide (o.a0 + o.a1 ≤ p.prog.length) &&
      (p.ops.take k).all (fun x => !(x.opc == 0x10 || x.opc == 0x11) || x.a1 == 0 || o.a1 == 0 ||
        decide (x.a0 + x.a1 ≤ o.a0) || decide (o.a0 + o.a1 ≤ x.a0))
  else true

/-- A micro-op's pool constant lies aligned within the pool (04 R126, R143). -/
def Img.constPlaced (m : Img) (p : PipeI) (u : UOp) : Bool :=
  if u.kmode = 2 then
    let w := (p.reg (if u.op = 2 then u.d else u.s1)).ty.width
    let off := bitsOf u.payload 13 0
    off % (min w 16) == 0 && m.listIn off (if u.op = 0x16 then 2 else 1) w
  else true

/-- Check 6, which a micro-op constant outside the pool or misaligned fails at the micro-op word (DESIGN CHOICE,
notes/assumptions/110.md). -/
def operFails (m : Img) : List Nat :=
  m.pipes.flatMap (fun p =>
    p.ops.zipIdx.flatMap (fun x =>
      let (o, k) := x
      need (opcExists o.opc && posOk k p.ops.length o.opc && m.argsOk p o && p.orderOk k o && p.rangeOk k o && m.namesOk p k o) o.off) ++
    p.prog.zipIdx.flatMap (fun u =>
      need (p.ops.any (fun o => (o.opc == 0x10 || o.opc == 0x11) && decide (o.a0 ≤ u.2) && decide (u.2 < o.a0 + o.a1)) &&
        m.constPlaced p u.1) (p.progOff + 8 * u.2)))

/-! ### Check 7: micro-op words -/

/-- Micro-op codes that exist (04 R144). -/
def uopExists (op : Nat) : Bool :=
  [0, 1, 2, 3, 4, 8, 9, 0xA, 0xC, 0xD, 0xE, 0xF, 0x10, 0x11, 0x12, 0x13, 0x14, 0x15, 0x16, 0x18, 0x19, 0x20, 0x21, 0x22, 0x23, 0x24,
   0x25, 0x26, 0x27, 0x28, 0x2A, 0x2B, 0x2C, 0x2D, 0x2E, 0x30, 0x38, 0x39].contains op

/-- Whether ALT is a flag of the micro-op for its type class. -/
def altAllowed (u : UOp) : Bool :=
  u.op == 0x23 || u.op == 0x24 || u.op == 0x18 ||
  (u.tc == 9 && ((0x10 ≤ u.op && u.op ≤ 0x16) || u.op == 0x27 || u.op == 0x28))

/-- Whether an overflow mode is a flag of the micro-op. -/
def ovfAllowed (u : UOp) : Bool :=
  [0x20, 0x21, 0x22, 0x23, 0x25, 0x26, 0x30].contains u.op || ((u.op == 0x27 || u.op == 0x28) && u.tc == 5)

/-- Whether a micro-op word is well-formed (check 7); the destination's type settles WRAP on decimals (03 R95, R99). -/
def PipeI.uopOk (p : PipeI) (u : UOp) : Bool :=
  if u.op = 0 then u == ⟨0, 0, 0, 0, 0, 0, false, false, 0, 0, 0⟩
  else
    uopExists u.op && decide (u.tc ≤ 10) && u.ovf != 3 && u.kmode != 3 &&
    (u.kmode == 0 || u.s2 == 0) &&
    ((u.op == 0xF) || (u.op == 0x16 && u.kmode == 0) || u.mask || u.s3 == 0) &&
    !(u.mask && (u.op == 0xF || u.op == 0x16)) &&
    (!u.alt || altAllowed u) && (u.ovf == 0 || ovfAllowed u) &&
    !(u.ovf == 2 && ((p.reg u.d).ty.isDec || (u.op != 0x30 && u.tc == 5))) &&
    (if u.op = 2 then u.kmode == 1 || u.kmode == 2
     else if u.op = 0x16 then u.kmode == 0 || u.kmode == 2
     else u.kmode == 0 || decide (2 ≤ uopReads u.op)) &&
    (match u.kmode with
     | 0 =>
       if u.op = 0x38 then decide (u.payload ≤ 9) else if u.op = 0x39 then decide (u.payload ≤ 6) else u.payload == 0
     | 1 => decide (u.payload < 2 ^ 24)
     | _ => decide (u.payload < 2 ^ 14))

/-- Check 7. -/
def uopFails (m : Img) : List Nat :=
  m.pipes.flatMap (fun p =>
    p.prog.zipIdx.flatMap (fun u => need (p.uopOk u.1) (p.progOff + 8 * u.2)) ++
    p.ops.flatMap (fun o =>
      if o.opc = 0x23 ∨ o.opc = 0x24 then
        need ((m.aggList o.a2 o.a3).all (fun e =>
          decide (e.ovf ≤ 2) && (e.f == 3 || e.ovf == 0) && !(e.ovf == 2 && (p.reg e.reg).ty.isDec))) o.off
      else []))

/-! ### Checks 8 to 10: registers, types, scales -/

/-- Check 8: registers declared and written before they are read, followed in operator and micro-op order. -/
def regFails (m : Img) (p : PipeI) : List Nat :=
  let decl (r : Nat) : Bool := p.code r != 0
  (p.ops.foldl (fun (acc : List Nat × List Nat) o =>
    let acc := (p.range o).foldl (fun (a : List Nat × List Nat) u =>
      let w := a.1
      (u.2.writes ++ w,
       a.2 ++ need (u.2.reads.all (fun r => decl r && w.contains r) && u.2.writes.all decl) (p.progOff + 8 * u.1))) acc
    let w := acc.1
    let named := if o.opc = 0x31 then (m.sortList o.a0 o.a1).map (·.reg) else []
    (m.opWrites o ++ w,
     acc.2 ++ need ((m.opReads o).all (fun r => decl r && w.contains r) && (m.opWrites o ++ named).all decl) o.off)) ([], [])).2

/-- Whether a stored constant lies in its type: a decimal has at most p digits. -/
def Ty.holds (t : Ty) (v : Nat) : Bool :=
  match t with
  | .dec64 | .dec128 => decide (t.lo ≤ t.int v) && decide (t.int v ≤ t.hi)
  | _ => true

/-- The operand of a micro-op given by a constant, as a signed integer or a pattern: representable in a type. -/
def Img.constOk (m : Img) (u : UOp) (t : Ty) : Bool :=
  match u.kmode with
  | 1 =>
    let i := toSigned 24 u.payload
    match t.cls with
    | 1 => i == 0 || i == 1
    | 4 | 9 | 10 => false
    | _ => decide (t.lo ≤ i) && decide (i ≤ t.hi)
  | 2 =>
    let off := bitsOf u.payload 13 0
    (List.range (if u.op = 0x16 then 2 else 1)).all (fun i =>
      let v := leAt m.pool (off + i * t.width) t.width
      match t with
      | .varstr =>
        let l := v % 2 ^ 32
        decide (l ≤ 64) && (decide (l ≤ 12) || m.listIn (refOffset v) l 1)
      | _ => t.holds v)
  | _ => true

/-- Whether a cast is listed (04 R145). -/
def castOk (s t : Ty) : Bool :=
  s == t ||
  match s.cls, t.cls with
  | 2, 2 | 2, 3 | 3, 2 | 3, 3 | 2, 4 | 3, 4 | 2, 5 | 3, 5 | 2, 1 | 3, 1 | 1, 2 | 1, 3 | 4, 2 | 4, 3 | 4, 5 | 4, 4 | 5, 5 | 5, 2 | 5, 3
  | 5, 4 | 6, 7 | 7, 6 | 2, 6 | 2, 7 | 6, 2 | 7, 2 => true
  | 8, _ => t == .u32
  | _, 8 => s == .u32
  | _, _ => false

/-- Type rules of a micro-op (check 9), an AUX code of TIMESTAMP on a DATE among them (DESIGN CHOICE,
notes/assumptions/110.md). -/
def Img.uopTypes (m : Img) (p : PipeI) (u : UOp) : Bool :=
  let s1 := (p.reg u.s1).ty
  let d := (p.reg u.d).ty
  let s2ok := u.kmode != 0 || (p.reg u.s2).ty == s1
  let same := d == s1
  let cls (l : List Nat) : Bool := l.contains u.tc
  (u.op == 0 || u.tc != 0) && (!u.mask || (p.reg u.s3).ty == .bool) &&
  match u.op with
  | 0 => true
  | 2 => d.cls == u.tc && m.constOk u d
  | 3 => d.cls == u.tc
  | 4 => u.tc == 2 && d == .i64
  | _ =>
    s1.cls == u.tc && m.constOk u s1 &&
    match u.op with
    | 1 => same
    | 8 | 9 => u.tc == 1 && s2ok && d == .bool
    | 0xA => u.tc == 1 && d == .bool
    | 0xC | 0xD => d == .bool
    | 0xE => same && s2ok
    | 0xF => same && s2ok && (p.reg u.s3).ty == .bool
    | 0x16 => d == .bool && s2ok && (u.kmode != 0 || (p.reg u.s3).ty == s1)
    | 0x18 => u.tc == 9 && s2ok && d == .bool
    | 0x19 => u.tc == 9 && d == .i64
    | 0x20 | 0x21 => cls [2, 3, 4, 5, 6, 7] && same && s2ok
    | 0x22 | 0x23 => cls [2, 3, 4, 5] && same && s2ok
    | 0x24 => (cls [2, 3] || s1 == .dec64) && same && s2ok
    | 0x25 | 0x26 => cls [2, 4, 5] && same
    | 0x27 | 0x28 => same && s2ok
    | 0x2A | 0x2B | 0x2C | 0x2D | 0x2E => cls [2, 3] && same && s2ok
    | 0x30 => castOk s1 d
    | 0x38 => cls [6, 7] && d == .i32 && (u.tc == 7 || decide (u.payload ≤ 5))
    | 0x39 => cls [6, 7] && same && (u.tc == 7 || decide (u.payload ≤ 3))
    | _ => d == .bool && s2ok

/-- The type code a register must have for a source, and its scale (checks 9 and 10). -/
def Img.srcTypes (m : Img) (o : OpW) : List (Nat × Nat × Nat) :=
  let table (i : Nat) : Nat × Nat :=
    let d := tDeclOf (m.decl o.a4)
    if i < 8 then (nthD d.keyTys i 0, d.scale)
    else
      let c := nthD d.valTys (i - 8) 0
      ((if d.kind = 1 then c else aggResult (nthD d.funcs (i - 8) 0) c), d.scale)
  let keys (d : TDecl) : List (Nat × Nat × Nat) :=
    ((m.regList o.a0 o.a1).zip (d.keyTys ++ List.replicate 8 0)).map (fun x => (x.1.1, x.2, d.scale))
  match o.opc with
  | 0x01 => (m.colList o.a0 o.a1).map (fun e => (e.2, leAt (nthD m.cols e.1 []) 1 1, leAt (nthD m.cols e.1 []) 6 1))
  | 0x02 =>
    (m.colList o.a0 o.a1).map (fun e =>
      if o.opt = 1 then (e.2, table e.1) else (e.2, leAt (nthD m.cols e.1 []) 1 1, leAt (nthD m.cols e.1 []) 6 1))
  | 0x03 =>
    match (m.pipes.flatMap (fun q => q.ops.map (fun x => (q, x)))).find? (fun x => x.2.opc == 0x38 && x.2.a2 == o.a2) with
    | some (q, x) =>
      (m.colList o.a0 o.a1).map (fun e =>
        let r := (nthD (m.regList x.a0 x.a1) e.1 (0, false)).1
        (e.2, q.code r, (q.reg r).scale))
    | none => []
  | 0x12 => []
  | 0x20 => [(o.a2, 9, 0)]
  | 0x21 =>
    let d := tDeclOf (m.decl o.a4)
    keys d ++ ((m.regList o.a2 o.a3).zip (d.valTys ++ List.replicate 8 0)).map (fun x => (x.1.1, x.2, d.scale))
  | 0x22 => let d := tDeclOf (m.decl o.a4); keys d ++ (m.colList o.a2 o.a3).map (fun e => (e.2, nthD d.valTys e.1 0, d.scale))
  | 0x23 | 0x24 =>
    let d := tDeclOf (m.decl o.a4)
    keys d ++ (((m.aggList o.a2 o.a3).zip (d.valTys ++ List.replicate 16 0)).filter (fun x => x.1.f != 1)).map
      (fun x => (x.1.reg, x.2, d.scale))
  | 0x30 =>
    let d := rDeclOf (m.decl o.a4)
    ((m.regList o.a2 o.a3).zip (d.payTys ++ List.replicate 16 0)).map (fun x => (x.1.1, x.2, d.scale))
  | 0x31 =>
    let d := rDeclOf (m.decl o.a4)
    (m.colList o.a2 o.a3).map (fun e => (e.2, (if e.1 = 16 then 5 else nthD d.payTys e.1 0), d.scale))
  | 0x41 => (m.colList o.a0 o.a1).map (fun e => (e.2, leAt (nthD m.outs e.1 []) 1 1, leAt (nthD m.outs e.1 []) 2 1))
  | _ => []

/-- Type rules of an operator beyond its sources (check 9). -/
def Img.operTypes (m : Img) (p : PipeI) (o : OpW) : Bool :=
  (m.srcTypes o).all (fun x => p.code x.1 == x.2.1) &&
  match o.opc with
  | 0x10 => p.code o.a2 == 1
  | 0x12 => bitAt o.opt 2 || [4, 8, 0x10].contains (p.code o.a1)
  | 0x21 => let d := tDeclOf (m.decl o.a4); o.a1 == d.keyN && o.a3 == d.valN
  | 0x22 => o.a1 == (tDeclOf (m.decl o.a4)).keyN
  | 0x23 | 0x24 =>
    let d := tDeclOf (m.decl o.a4)
    o.a1 == d.keyN && (m.aggList o.a2 o.a3).map (·.f) == d.funcs &&
      (m.aggList o.a2 o.a3).all (fun e => aggTakes e.f (if e.f = 1 then 0 else p.code e.reg))
  | 0x30 => o.a3 == (rDeclOf (m.decl o.a4)).payN
  | 0x38 => (m.regList o.a0 o.a1).all (fun r => p.code r.1 != 0x11) && (if o.opt = 1 then p.code (bitsOf o.a5 4 0) != 0x11 else p.code (bitsOf o.a5 4 0) == 9)
  | 0x03 => (m.colList o.a0 o.a1).all (fun r => p.code r.2 != 0x11)
  | _ => true

/-- Check 9. -/
def typeFails (m : Img) (p : PipeI) : List Nat :=
  (p.regs.zipIdx.flatMap (fun r => need (decide (r.1.1 ≤ 0x12)) (p.regTab + 4 * r.2))) ++
  p.prog.zipIdx.flatMap (fun u => need (m.uopTypes p u.1) (p.progOff + 8 * u.2)) ++
  p.ops.flatMap (fun o => need (m.operTypes p o) o.off)

/-- Scale rules of a micro-op (check 10). -/
def PipeI.uopScales (p : PipeI) (u : UOp) : Bool :=
  let s1 := (p.reg u.s1).scale
  let s2 := if u.kmode = 0 then (p.reg u.s2).scale else s1
  let d := (p.reg u.d).scale
  let t := (p.reg u.s1).ty
  if !t.isDec then true
  else match u.op with
    | 1 | 0x25 | 0x26 => d == s1
    | 0xE | 0xF => d == s1 && s2 == s1
    | 0x20 | 0x21 | 0x27 | 0x28 => d == max s1 s2
    | 0x22 => d == s1 + s2 && t.scaleOk (s1 + s2)
    | 0x24 => d == s1 && s2 == s1
    | _ => true

/-- Check 10. -/
def scaleFails (m : Img) (p : PipeI) : List Nat :=
  (p.regs.zipIdx.flatMap (fun r =>
    need (match tyOf r.1.1 with
      | some t => t.scaleOk r.1.2
      | none => r.1.2 == 0) (p.regTab + 4 * r.2 + 1))) ++
  p.prog.zipIdx.flatMap (fun u => need (u.1.op == 2 || u.1.op == 3 || p.uopScales u.1) (p.progOff + 8 * u.2)) ++
  p.ops.flatMap (fun o => need ((m.srcTypes o).all (fun x => !(p.reg x.1).ty.isDec || (p.reg x.1).scale == x.2.2)) o.off)

/-! ### Checks 11 to 14 -/

/-- A predicate record against 04 R137 and R138, for a column of a type. -/
def predOk (b : List Byte) (n : Nat) (ty : Nat → Ty) : Bool :=
  let r := predOf b
  let t := ty r.col
  let w := t.width
  decide (r.col < n) && zeroRange b 3 8 && zeroRange b 40 48 &&
  match r.kind with
  | 1 => decide (r.op ≤ 5) && t != .varstr && t.holds (leAt b 8 w) && zeroRange b (8 + w) 40
  | 2 => decide (r.op ≤ 3) && t != .varstr && t.holds (leAt b 8 w) && t.holds (leAt b 24 w) && zeroRange b (8 + w) 24 &&
      zeroRange b (24 + w) 40
  | 3 | 4 => r.op == 0 && zeroRange b 8 40
  | 5 => r.op == 0 && (t == .dict32 || t.cls == 3)
  | _ => false

/-- Whether constants rise strictly. -/
def risesStrictly (t : Ty) : List Nat → Bool
  | a :: b :: r => cmpVal t 0 0 false (Cell.of a) (Cell.of b) == .lt && risesStrictly t (b :: r)
  | _ => true

/-- Check 11: predicate records and range boundaries, their constants and zero bytes among them (notes/assumptions/99.md). -/
def predFails (m : Img) (p : PipeI) : List Nat :=
  p.ops.flatMap (fun o =>
    if o.opc = 1 ∨ (o.opc = 2 ∧ o.opt = 0) then
      let cl := m.colList o.a0 o.a1
      let ty (c : Nat) : Ty := (tyOf (leAt (nthD m.cols (nthD cl c (0, 0)).1 []) 1 1)).getD .bool
      (List.range o.a3).flatMap (fun i => need (predOk (sliceB m.pool (o.a2 + 48 * i) 48) o.a1 ty) (m.poolOff + o.a2 + 48 * i))
    else if o.opc = 0x38 ∧ o.opt = 1 then
      let t := (p.reg (bitsOf o.a5 4 0)).ty
      let n := bitsOf o.a5 15 8
      let cs := (List.range n).map (fun i => leAt m.pool (o.a3 + i * t.width) t.width)
      need (n + 1 == popCount 36 (leAt m.pool o.a4 8) && o.a3 % t.width == 0 && cs.all t.holds && risesStrictly t cs)
        (m.poolOff + o.a3)
    else [])

/-- The lowest level that provides an operator (03 R105). -/
def Img.opLevel (_m : Img) (o : OpW) : Nat :=
  if o.opc = 0x24 then 1 else if (o.opc = 0x31 ∧ 16 < bitsOf o.a5 7 0) ∨ (o.opc = 0x32 ∧ o.opt = 1) then 2 else 0

/-- The lowest level that provides a micro-op. -/
def PipeI.uopLevel (p : PipeI) (u : UOp) : Nat := if u.op = 0x23 ∧ (p.reg u.s1).ty = .dec128 then 2 else 0

/-- Check 12. -/
def levelFails (m : Img) : List Nat :=
  let used := (m.pipes.flatMap (fun p => p.ops.map m.opLevel ++ p.prog.map p.uopLevel)).foldl max 0
  need ((if m.isa = 0 then m.req == 0 else decide (1 ≤ m.req) && decide (m.req ≤ m.isa)) && decide (used ≤ m.req)) 6 ++
  m.pipes.flatMap (fun p =>
    p.ops.flatMap (fun o => need (decide (m.opLevel o ≤ m.isa)) o.off) ++
    p.prog.zipIdx.flatMap (fun u => need (decide (p.uopLevel u.1 ≤ m.isa)) (p.progOff + 8 * u.2)))

/-- Pipelines reached by DEPENDS from a set in at most `n` steps. -/
def Img.dependsOn (m : Img) : Nat → Nat → Nat
  | 0, set => set
  | n + 1, set =>
    m.dependsOn n (m.pipes.zipIdx.foldl (fun a p => if bitAt set p.2 then a ||| p.1.depends else a) set)

/-- Check 13: pipelines that depend on themselves. -/
def cycleFails (m : Img) : List Nat :=
  m.pipes.zipIdx.flatMap (fun p => need (!bitAt (m.dependsOn 16 p.1.depends) p.2) (p.1.ent + 16))

/-- Check 14. -/
def areaFails (m : Img) : List Nat := m.pipes.flatMap (fun p => need (decide (m.footprint p ≤ 2989824)) p.ent)

/-! ### The checks in order -/

/-- The lowest offset of a list. -/
def lowest (l : List Nat) : Option Nat := l.foldl (fun a x => match a with | none => some x | some y => some (min x y)) none

/-- Checks 1 to 4 on the bytes read. -/
def headFails (img : List Byte) (descBytes level : Nat) : List (Nat × List Nat) :=
  let n := leAt img 8 4
  [(1, need (leAt img 0 4 == 0x494E4C42) 0 ++ need (leAt img 4 1 == 1) 4),
   (2, need (inR n 256 131072 && n % 128 == 0 && n == descBytes) 8 ++ need (crc32c (patchB img 12 [0, 0, 0, 0]) == leAt img 12 4) 12),
   (3, need (decide (leAt img 6 1 ≤ level)) 6),
   (4, layoutFails img)]

/-- Checks 5 to 14 on the image's parts. -/
def partFails (m : Img) : List (Nat × List Nat) :=
  [(5, descFails m), (6, operFails m), (7, uopFails m), (8, m.pipes.flatMap (regFails m)), (9, m.pipes.flatMap (typeFails m)),
   (10, m.pipes.flatMap (scaleFails m)), (11, m.pipes.flatMap (predFails m)), (12, levelFails m), (13, cycleFails m),
   (14, areaFails m)]

/-- The first failing check: subcode and image offset. -/
def firstFail : List (Nat × List Nat) → Option (Nat × Nat)
  | [] => none
  | (k, l) :: t =>
    match lowest l with
    | some o => some (k, o)
    | none => firstFail t

/-- Validate an image read by a descriptor that names `descBytes` bytes, on a package of a feature level. -/
def validate (img : List Byte) (descBytes level : Nat) : Option (Nat × Nat) :=
  match firstFail (headFails img descBytes level) with
  | some f => some f
  | none => firstFail (partFails (imgOf img))

end Sys2Proof.Machine
end

