-- ==== Sys2Proof/Machine/EngOps.lean ====
section
/-! DEFINITION. Named operations of the engine: its parts, engine translation and faults (06 R214 to R217), accesses for a
context, the column buffer's checking (03 R66 to R69, 19 R468), ring errors (06 R200). -/

namespace Sys2Proof.Machine
open Sys2Proof

/-! ### Parts -/

/-- Change the engine. -/
def State.eng' (s : State) (f : Eng → Eng) : State := { s with eng := f s.eng }

/-- A slice. -/
def State.slice (s : State) (n : Nat) : Slice := Tab.get Slice.reset s.eng.slices n

/-- Replace a slice. -/
def State.setSlice (s : State) (n : Nat) (x : Slice) : State :=
  s.eng' (fun e => { e with slices := Tab.put Slice.reset e.slices n x })

/-- Replace the task of a slice. -/
def State.setTask (s : State) (n : Nat) (t : Task) : State := s.setSlice n { s.slice n with task := some t }

/-- A descriptor by ring pair and sequence number. -/
def State.desc (s : State) (ring seq : Nat) : Option Desc :=
  s.eng.descs.find? (fun d => d.ring == ring && d.seq == seq)

/-- Replace a descriptor. -/
def State.setDesc (s : State) (d : Desc) : State :=
  s.eng' (fun e => { e with descs := e.descs.map (fun x => if x.ring == d.ring && x.seq == d.seq then d else x) })

/-- Change a descriptor. -/
def State.updDesc (s : State) (ring seq : Nat) (f : Desc → Desc) : State :=
  s.eng' (fun e => { e with descs := e.descs.map (fun x => if x.ring == ring && x.seq == seq then f x else x) })

/-- The run of a descriptor. -/
def State.run (s : State) (ring seq : Nat) : Option Run := (s.desc ring seq).bind (·.run)

/-- Change the run of a descriptor. -/
def State.updRun (s : State) (ring seq : Nat) (f : Run → Run) : State :=
  s.updDesc ring seq (fun d => { d with run := d.run.map f })

/-- Progress of pipeline `j` of a run. -/
def Run.pipe (r : Run) (j : Nat) : PipeSt := Tab.get PipeSt.start r.pipes j

/-- Change the progress of a pipeline. -/
def Run.updPipe (r : Run) (j : Nat) (f : PipeSt → PipeSt) : Run :=
  { r with pipes := Tab.put PipeSt.start r.pipes j (f (r.pipe j)) }

/-- The image in a store slot. -/
def State.image (s : State) (k : Nat) : Option Image := Tab.get none s.eng.images k

/-- The parts of the image in a store slot. -/
def State.img (s : State) (k : Nat) : Img := imgOf (((s.image k).map (·.bytes)).getD [])

/-- A ring pair's counts last seen. -/
def State.ringSt (s : State) (n : Nat) : RingSt := Tab.get RingSt.reset s.eng.rings n

/-- Replace a ring pair's counts. -/
def State.setRing (s : State) (n : Nat) (x : RingSt) : State :=
  s.eng' (fun e => { e with rings := Tab.put RingSt.reset e.rings n x })

/-- A context's fault records. -/
def State.ctxSt (s : State) (c : Nat) : CtxSt := Tab.get CtxSt.reset s.eng.ctxs c

/-- Replace a context's fault records. -/
def State.setCtx (s : State) (c : Nat) (x : CtxSt) : State :=
  s.eng' (fun e => { e with ctxs := Tab.put CtxSt.reset e.ctxs c x })

/-- The identity of a context (06 R194). -/
def State.ctxIdent (s : State) (c : Nat) : Ident := ⟨s.rd (Reg.CTX_CFG c) F.CTX_CFG_PID, s.ctxWorld c⟩

/-- Whether a context is in use. -/
def State.ctxValid (s : State) (c : Nat) : Bool := s.on (Reg.CTX_CFG c) F.CTX_CFG_VALID

/-- Translation set of a context. -/
def State.tset (s : State) (c : Nat) : Nat := s.rd (Reg.CTX_CFG c) F.CTX_CFG_TSET

/-- Whether a slice is in service (03 R72). -/
def State.slcInService (s : State) (n : Nat) : Bool :=
  s.dieActive (n / 3) && decide (s.rd (Reg.PWR_UNIT (36 + n)) F.PWR_UNIT_STATE ≤ 2)

/-- Whether a slice has been told of a commit that sets OFFLINE and applies at the end of its task (03 R72, 15 R391). -/
def State.offlineDue (s : State) (n : Nat) : Bool :=
  match s.ctu.active with
  | some t =>
    let e := Tab.get (0, 0) t.staged (Reg.SLC_CTRL n)
    s.ctu.sent.any (fun b => match b with
      | .slice k => k.val == n
      | _ => false) && bitAt (e.1 &&& e.2) F.SLC_CTRL_OFFLINE.lo
  | none => false

/-- Whether a slice is gated: ECLK is stopped, with its cluster's clocks or alone, and it makes no progress (18 R451). -/
def State.slcGated (s : State) (n : Nat) : Bool :=
  s.rd (Reg.PWR_UNIT n) F.PWR_UNIT_STATE == 1 || s.rd (Reg.PWR_UNIT (36 + n)) F.PWR_UNIT_STATE == 1

/-- Whether a slice is dispatchable (03 R72): one that has been told to go offline takes no further task. -/
def State.slcReady (s : State) (n : Nat) : Bool :=
  s.slcInService n && s.rd (Reg.PWR_UNIT (36 + n)) F.PWR_UNIT_STATE == 0 && !s.slcGated n &&
    !s.on (Reg.SLC_CTRL n) F.SLC_CTRL_OFFLINE && !s.offlineDue n

/-- Finxis port of a ring pair, if it has one (06 R202). -/
def State.ringPort (s : State) (n : Nat) : Option Nat :=
  let a := s.rd (Reg.RING_CFG n) F.RING_CFG_ATTACH
  if 1 ≤ a ∧ a ≤ 4 then some (a - 1) else none

/-- Set a bit of a pending register of contexts (19 R474). -/
def State.pendCtx (s : State) (reg : Nat → Nat) (c : Nat) : State :=
  s.wrW (reg (c / 64)) (s.rdW (reg (c / 64)) ||| BitVec.ofNat 64 (2 ^ (c % 64)))

/-- Nothing more is awaited of what a Finxis ring pair's adapter was asked for: a COMMAND that still comes is refused. -/
def State.fxForget (s : State) (n : Nat) : State :=
  match s.ringPort n with
  | some p =>
    let x := s.port p
    s.setPort p { x with want := Tab.del x.want n, again := x.again.filter (· != n) }
  | none => s

/-- An enabled ring pair enters state error and fetches nothing (06 R200); one that drains goes on draining (R196). -/
def State.ringError (s : State) (n cause : Nat) : State :=
  if s.rd (Reg.RING_STATUS n) F.RING_STATUS_STATE != 1 then s
  else
    let s := s.wrs (Reg.RING_STATUS n) [(F.RING_STATUS_STATE, 2), (F.RING_STATUS_CAUSE, cause)]
    let s := s.pendCtx Reg.EVT_RERR (s.rd (Reg.RING_CFG n) F.RING_CFG_CTX)
    match s.ringPort n with
    | some p => (s.fxForget n).fxRingError p n cause 0
    | none => s

/-! ### Translation -/

/-- Why an engine step did not go through. -/
inductive AErr where
  /-- an engine translation miss -/
  | miss (va : Nat) (write : Bool)
  /-- an error: status, ERR_ADDR, micro-op index or 0xFFFF -/
  | err (status addr uop : Nat)
  deriving DecidableEq, Repr

/-- An engine step: it may stop at a miss or an error. -/
abbrev EM (α : Type) := ExceptT AErr (StateM State) α

/-- Stop with an error of no micro-op. -/
def fail {α : Type} (status addr : Nat) : EM α := throw (.err status addr 0xFFFF)

/-- Stop with an error of no micro-op unless a condition holds. -/
def ensure (b : Bool) (status addr : Nat) : EM Unit := if b then pure () else fail status addr

/-- Change the state. -/
def doSt {ε : Type} (f : State → State) : ExceptT ε (StateM State) Unit := modify f

/-- Who makes an engine access: a slice, or the ring manager for a descriptor, and the context. -/
structure Who where
  slice : Option Nat
  ctx : Nat
  deriving DecidableEq, Repr

/-- Whether an entry covers a page of a set. -/
def ETE.covers (e : ETE) (set page : Nat) : Bool :=
  e.set == set && decide (e.va ≤ page) && decide (page < e.va + 2 ^ e.k)

/-- Whether an entry overlaps pages of a set. -/
def ETE.overlaps (e : ETE) (set page n : Nat) : Bool :=
  e.set == set && decide (e.va < page + n) && decide (page < e.va + 2 ^ e.k)

/-- The entry of a table that covers a page. -/
def findEte (t : Tab ETE) (set page : Nat) : Option ETE := (t.find? (fun p => p.2.covers set page)).map Prod.snd

/-- Physical address of a virtual address under an entry. -/
def ETE.phys (e : ETE) (va : Nat) : Nat := (e.pa + (va / 65536 - e.va)) * 65536 + va % 65536

/-- The entry of a slice's TLB that covers a page; one of bad parity is a miss (03 R70). -/
def findTlb (t : Tab ETE) (set page : Nat) : Option ETE :=
  (t.find? (fun p => p.2.covers set page && !p.2.bad)).map Prod.snd

/-- An entry as a TLB holds it, with its parity bit. -/
def ETE.stored (e : ETE) : ETE := { e with par := e.parity }

/-- Look a page up: the slice's TLB, then the shared cache, which fills the TLB by round-robin (06 R214). -/
def State.lookupEte (s : State) (a : Who) (page : Nat) : Option ETE × State :=
  let set := s.tset a.ctx
  match a.slice with
  | none => (findEte s.eng.etlb set page, s)
  | some n =>
    let x := s.slice n
    match findTlb x.tlb set page with
    | some e => (some e, s)
    | none =>
      let s := s.pmcSlc n 12 (some (s.ctxIdent a.ctx)) 1
      match findEte s.eng.etlb set page with
      | some e => (some e, s.setSlice n { x with tlb := Tab.ins x.tlb x.tlbPtr e.stored, tlbPtr := (x.tlbPtr + 1) % 1024 })
      | none => (none, s)

/-- Translate an engine virtual address (06 R214, R216, R217). -/
def xlate (a : Who) (va : Nat) (write : Bool) : EM Nat := do
  ensure (decide (va < 2 ^ 57)) 0x10 va
  let r ← askSt (fun s => s.lookupEte a (va / 65536))
  match r with
  | none => throw (.miss va write)
  | some e => if (if write then e.w else e.r) then return e.phys va else fail 0x10 va

/-- The completion status an access ends with (06, *Completion status*). -/
def AccRes.status : AccRes → Nat
  | .ok => 0
  | .off => 0x31
  | _ => 0x11

/-- Pieces of an access that stay within one page: address and length. -/
def pagePieces : Nat → Nat → Nat → List (Nat × Nat)
  | 0, _, _ => []
  | _ + 1, _, 0 => []
  | f + 1, va, n =>
    let k := min n (65536 - va % 65536)
    (va, k) :: pagePieces f (va + k) (n - k)

/-- Pieces of an access of `n` bytes at a virtual address. -/
def piecesOf (va n : Nat) : List (Nat × Nat) := pagePieces (n / 65536 + 2) va n

/-- Read at a physical address for a context, with whether it is poisoned; `va` is what ERR_ADDR names. -/
def preadP (ctx pa n va : Nat) : EM (List Byte × Bool) := do
  let r ← askSt (fun s => s.readPa (s.ctxIdent ctx) pa n)
  ensure (r.res.status == 0) r.res.status va
  return (r.bytes, r.poison)

/-- Read at a physical address for a context; poison is an error. -/
def pread (ctx pa n va : Nat) : EM (List Byte) := do
  let r ← preadP ctx pa n va
  ensure (!r.2) 0x12 va
  return r.1

/-- Write at a physical address for a context. -/
def pwrite (ctx pa : Nat) (l : List Byte) (va : Nat) : EM Unit := do
  let r ← askSt (fun s => s.writePa (s.ctxIdent ctx) pa l)
  ensure (r.status == 0) r.status va

/-- Read virtual memory for a context. -/
def vread (a : Who) (va n : Nat) : EM (List Byte) := do
  let l ← (piecesOf va n).mapM (fun p => do
    let pa ← xlate a p.1 false
    pread a.ctx pa p.2 p.1)
  return l.flatten

/-- Read virtual memory for a context, with whether any of it is poisoned. -/
def vreadP (a : Who) (va n : Nat) : EM (List Byte × Bool) := do
  let l ← (piecesOf va n).mapM (fun p => do
    let pa ← xlate a p.1 false
    preadP a.ctx pa p.2 p.1)
  return ((l.map Prod.fst).flatten, l.any Prod.snd)

/-- Translate every page a write will reach, so that a miss leaves nothing written. -/
def preWrite (a : Who) (va n : Nat) : EM Unit :=
  (piecesOf va n).forM (fun p => do
    let _ ← xlate a p.1 true
    pure ())

/-- Write virtual memory for a context. -/
def vwrite (a : Who) (va : Nat) (l : List Byte) : EM Unit :=
  (piecesOf va l.length).forM (fun p => do
    let pa ← xlate a p.1 true
    pwrite a.ctx pa (sliceB l (p.1 - va) p.2) p.1)

/-! ### Fault records (06 R216) -/

/-- A fault record; its PHASE bit is put in when it is written. -/
def faultBytes (set va : Nat) (write : Bool) (seq ring slice ctx : Nat) : List Byte :=
  leBytes 8 (setBits (setBits (setBits 0 56 16 (va / 65536)) 15 8 set) 1 1 (b2n write)) ++ leBytes 4 seq ++
    leBytes 2 ring ++ leBytes 1 slice ++ leBytes 1 0 ++ leBytes 2 ctx ++ List.replicate 14 0

/-- Write a fault record of a context at its next place and raise the context's event; a refused write is an error of the
ring pair. -/
def State.putFault (s : State) (c : Nat) (fr : List Byte) (ring : Nat) : State :=
  let x := s.ctxSt c
  let lg := s.rd (Reg.CTX_FAULT_RING c) F.CTX_FAULT_RING_SIZE_LOG2
  let j := x.faults
  let pa := s.rd (Reg.CTX_FAULT_RING c) F.CTX_FAULT_RING_BASE * 128 + 32 * (j % 2 ^ lg)
  let phase := if j / 2 ^ lg % 2 = 0 then 1 else 0
  let (r, s) := s.writePa (s.ctxIdent c) pa (patchB fr 15 [BitVec.ofNat 8 phase])
  let s := (s.setCtx c { x with faults := (j + 1) % 2 ^ 32 }).pendCtx Reg.EVT_TFLT c
  if r = .ok then s else s.ringError ring 2

/-- The set and page a fault record names. -/
def faultPage (fr : List Byte) : Nat × Nat := (bitsOf (leAt fr 0 8) 15 8, bitsOf (leAt fr 0 8) 56 16)

/-- Fault records of a context that are held will not be written: their pages may be reported for another context. -/
def State.dropHeld (s : State) (c : Nat) : State :=
  let gone := (s.ctxSt c).held.map (fun h => faultPage h.1)
  (s.eng' (fun e => { e with unres := e.unres.filter (fun u => !gone.contains u) })).setCtx c { s.ctxSt c with held := [] }

/-- Whether the fault ring is full. -/
def State.faultFull (s : State) (c : Nat) : Bool :=
  decide (2 ^ s.rd (Reg.CTX_FAULT_RING c) F.CTX_FAULT_RING_SIZE_LOG2 ≤
    ((s.ctxSt c).faults + 2 ^ 32 - s.rd (Reg.CTX_FAULT_HEAD c) F.CTX_FAULT_HEAD_HEAD) % 2 ^ 32)

/-- Report a miss: one record for each page of a set while it is unresolved, held while the ring is full. -/
def State.tfault (s : State) (c ring seq slice va : Nat) (write : Bool) : State :=
  let set := s.tset c
  if s.eng.unres.contains (set, va / 65536) || !s.ctxValid c then s
  else
    let s := s.eng' (fun e => { e with unres := e.unres ++ [(set, va / 65536)] })
    let fr := faultBytes set va write seq ring slice c
    if s.faultFull c || !(s.ctxSt c).held.isEmpty then
      s.setCtx c { s.ctxSt c with held := (s.ctxSt c).held ++ [(fr, ring)] }
    else s.putFault c fr ring

/-- Write held fault records while there is room, after a change of FAULT_HEAD. -/
def State.freeFaults (s : State) (c : Nat) : State :=
  (s.ctxSt c).held.foldl (fun s r =>
    if s.faultFull c then s
    else (s.setCtx c { s.ctxSt c with held := (s.ctxSt c).held.drop 1 }).putFault c r.1 r.2) s

/-! ### Ending tasks with an error, and stalls -/

/-- DETAIL of a run-time error of a task (06 R211). -/
def taskDetail (pipe oper uop : Nat) : Nat := pipe * 2 ^ 24 + oper * 2 ^ 16 + uop

/-- What a slice has gathered of its requests leaves, in flits that are not full (05 R160). -/
def State.sealed (s : State) (n : Nat) : State := s.eng' (fun e => { e with gather := e.gather.filter (fun g => g.1 != n) })

/-- The task on a slice is to end with an error; the first stands. Requests of its batch are gathered no more and leave. -/
def State.failTask (s : State) (n status addr uop : Nat) : State :=
  let s := s.sealed n
  match (s.slice n).task with
  | some t =>
    s.setTask n { t with
      stall := none
      fail := match t.fail with
        | some f => some f
        | none => some ⟨status, 0, taskDetail t.pipe t.oper uop, addr⟩ }
  | none => s

/-- The task on a slice stalls on a miss (06 R216). One whose run's status is fixed does not: its request is dropped, it ends,
and no fault record is written for it (06 R209, R213). -/
def State.stallTask (s : State) (n va : Nat) (write : Bool) : State :=
  match (s.slice n).task with
  | some t =>
    if ((s.desc t.ring t.seq).map (fun d => d.fail.isSome)).getD true then
      (s.setTask n { t with ending := true, dropped := true }).pmcSlc n 12 (some (s.ctxIdent t.ctx)) 1
    else
    let s := s.setTask n { t with stall := some ⟨s.tset t.ctx, va, write⟩ }
    (s.pmcSlc n 12 (some (s.ctxIdent t.ctx)) 1).tfault t.ctx t.ring t.seq n va write
  | none => s

/-- Whether a task can go on: not stalled, not in error, not dropped, and the slice is not gated nor rewriting its buffer. -/
def State.taskGoes (s : State) (n : Nat) (t : Task) : Bool :=
  t.stall.isNone && t.fail.isNone && !t.dropped && !(s.slice n).rewriting && !s.slcGated n

/-- Run a step of the task on a slice. A miss undoes the step and stalls the task; an error ends the task. -/
def State.taskDo (s : State) (n : Nat) (m : Task → EM Unit) : State :=
  match (s.slice n).task with
  | none => s
  | some t =>
    if !s.taskGoes n t then s
    else match (m t).run s with
      | (.ok _, s') => s'
      | (.error (.miss va w), _) => s.stallTask n va w
      | (.error (.err st a u), s') => s'.failTask n st a u

/-- Change the task on a slice within a step. -/
def updTask (n : Nat) (f : Task → Task) : EM Unit :=
  doSt (fun s => match (s.slice n).task with
    | some t => s.setTask n (f t)
    | none => s)

/-- The task on a slice within a step. -/
def theTask (n : Nat) (t : Task) : EM Task := do
  let s ← get
  return ((s.slice n).task).getD t

/-! ### The column buffer and the aggregation cache (03 R66 to R69, 19 R468) -/

/-- First line of a frame. -/
def frameLine (frame : Nat) : Nat := 4705 * frame

/-- Bytes of positions `a` to `b − 1` of a region that starts at a line and holds `w` bytes for each. -/
def posBytes (line w a b : Nat) : Nat × Nat := (128 * line + w * a, 128 * line + w * b)

/-- Bytes of a register of a frame at positions `a` to `b − 1`: its values, its validity bitmap, and for VARSTR the
strings in the frame's string area. -/
def regRanges (frame r : Nat) (ty : Ty) (a b : Nat) : List (Nat × Nat) :=
  let l := frameLine frame + 129 * r
  [posBytes l ty.width a b, posBytes (l + 128) 128 0 1] ++
    (if ty = .varstr then [posBytes (frameLine frame + 4193) 64 a b] else [])

/-- Bytes of a frame's selection bitmap. -/
def selRanges (frame : Nat) : List (Nat × Nat) := [posBytes (frameLine frame + 4128) 128 0 1]

/-- Bytes of a frame's row numbers at positions `a` to `b − 1`. -/
def rowRanges (frame a b : Nat) : List (Nat × Nat) := [posBytes (frameLine frame + 4129) 8 a b]

/-- First line of the operator area. -/
def areaLine : Nat := 9410

/-- Bytes of the operator area from an offset. -/
def areaRange (off n : Nat) : List (Nat × Nat) := [(128 * areaLine + off, 128 * areaLine + off + n)]

/-- Bytes of the receive buffer, at the top of the operator area (05 R185), from flit `k` on for `n` flits, round it. -/
def recvRanges (k n : Nat) : List (Nat × Nat) :=
  (List.range (min n 576)).map (fun i => posBytes 32192 128 ((k + i) % 576) ((k + i) % 576 + 1))

/-- Bytes of a line of the aggregation cache. -/
def aggRange (ln : Nat) : List (Nat × Nat) := [posBytes ln 128 0 1]

/-- The part of the first word of a line that a range of bytes covers: its first byte, and the byte after its last. -/
def wordPart (ln : Nat) (r : Nat × Nat) : Nat × Nat := (r.1 - 128 * ln, min 8 (r.2 - 128 * ln))

/-- Whether ranges cover byte `k` of the first word of a line. -/
def coversByte (rs : List (Nat × Nat)) (ln k : Nat) : Bool :=
  rs.any (fun r => decide (r.1 ≤ 128 * ln + k) && decide (128 * ln + k < r.2))

/-- Whether ranges reach a line. -/
def reachesLine (rs : List (Nat × Nat)) (ln : Nat) : Bool :=
  rs.any (fun r => decide (r.1 < r.2) && decide (r.1 < 128 * (ln + 1)) && decide (128 * ln < r.2))

/-- Whether ranges reach the first word of a line. -/
def reachesWord (rs : List (Nat × Nat)) (ln : Nat) : Bool :=
  rs.any (fun r => decide ((wordPart ln r).1 < (wordPart ln r).2))

/-- Whether a slice's checks are by 64-bit words: in word-checked mode, and always in the aggregation cache (R67, R69). -/
def State.byWord (s : State) (n : Nat) (agg : Bool) : Bool := agg || s.on (Reg.SLC_STATUS n) F.SLC_STATUS_CBUF_MODE

/-- Corrected units that wrong bits of one word make, or 100 when a unit is uncorrectable (19 R468). -/
def errUnits (word : Bool) (bits : List Nat) : Nat :=
  if word then (if bits.length ≤ 1 then bits.length else 100)
  else if bits.any (fun a => bits.any (fun b => a != b && a / 8 == b / 8)) then 100 else bits.length

/-- Key of a line's errors. -/
def badKey (agg : Bool) (ln : Nat) : Nat := if agg then 32768 + ln else ln

/-- Lines of a target with errors. -/
def Slice.badLines (x : Slice) (agg : Bool) : List (Nat × List Nat) :=
  (x.bad.filter (fun e => decide (32768 ≤ e.1) == agg)).map (fun e => (e.1 - badKey agg 0, e.2))

/-- Set the wrong bits of a line. -/
def State.setBad (s : State) (n : Nat) (agg : Bool) (ln : Nat) (bits : List Nat) : State :=
  let x := s.slice n
  s.setSlice n { x with bad := Tab.put [] x.bad (badKey agg ln) bits }

/-- The bits an armed flip inverts (19 R468). -/
def State.flipBits (s : State) (n : Nat) : List Nat :=
  let f := Reg.SLC_CBFLIP n
  let b0 := s.rd f F.SLC_CBFLIP_BIT0
  let b1 := s.rd f F.SLC_CBFLIP_BIT1
  if s.on f F.SLC_CBFLIP_EN1 && b0 != b1 then [b0, b1] else [b0]

/-- The slice writes bytes: what they cover is good again, and an armed flip meets its line. -/
def State.cbWrite (s : State) (n : Nat) (agg : Bool) (rs : List (Nat × Nat)) : State :=
  let f := Reg.SLC_CBFLIP n
  let s := ((s.slice n).badLines agg).foldl (fun s e =>
    if reachesWord rs e.1 then
      s.setBad n agg e.1 (if s.byWord n agg then [] else e.2.filter (fun b => !coversByte rs e.1 (b / 8)))
    else s) s
  let ln := s.rd f F.SLC_CBFLIP_LINE
  if s.on f F.SLC_CBFLIP_ARM && s.on f F.SLC_CBFLIP_TARGET == agg && reachesLine rs ln &&
      decide (ln < (if agg then 4096 else 32768)) then
    let old := Tab.get [] (s.slice n).bad (badKey agg ln)
    let new := s.flipBits n
    (s.setBad n agg ln (old.filter (fun b => !new.contains b) ++ new.filter (fun b => !old.contains b))).wr f
      F.SLC_CBFLIP_ARM 0
  else s

/-- Record an error of a line of the column buffer (record 0) or aggregation cache (record 1). The syndrome is a value
the manual does not state. -/
def State.cbRecord (s : State) (n : Nat) (agg : Bool) (ln cls src : Nat) (who : Ident) : State :=
  let (v, s) := s.draw
  s.recordErr (.slice n (b2n agg)) ⟨cls, who, src, true, ln, 0, v % 65536⟩

/-- Correct wrong bits of a line: each unit is recorded, and the line is written back (03 R69). -/
def State.cbCorrect (s : State) (n : Nat) (agg : Bool) (ln : Nat) (bits : List Nat) (src : Nat) (who : Ident) : State :=
  let s := (List.range (errUnits (s.byWord n agg) bits)).foldl (fun s _ => s.cbRecord n agg ln 1 src who) s
  s.setBad n agg ln ((Tab.get [] (s.slice n).bad (badKey agg ln)).filter (fun b => !bits.contains b))

/-- A task reads a line with errors: corrected ones are recorded and repaired, an uncorrectable one ends the task with
POISON (03 R69). `uop` is the micro-op that reads. -/
def cbMeet (n ctx : Nat) (agg : Bool) (ln : Nat) (bits : List Nat) (uop : Nat) : EM Unit := do
  let s ← get
  if errUnits (s.byWord n agg) bits < 100 then doSt (fun s => s.cbCorrect n agg ln bits 1 (s.ctxIdent ctx))
  else do
    doSt (fun s => s.cbRecord n agg ln 3 1 (s.ctxIdent ctx))
    throw (.err 0x12 0 uop)

/-- A task reads bytes: by bytes, or by the words they touch (03 R67, R69). -/
def cbRead (n ctx : Nat) (agg : Bool) (rs : List (Nat × Nat)) (uop : Nat) : EM Unit := do
  let s ← get
  ((s.slice n).badLines agg).forM (fun e => do
    let bits := if !reachesWord rs e.1 then []
      else if s.byWord n agg then e.2 else e.2.filter (fun b => coversByte rs e.1 (b / 8))
    if !bits.isEmpty then cbMeet n ctx agg e.1 bits uop)

/-- A task writes bytes. By words, a word written in part is read first (03 R67). -/
def cbStore (n ctx : Nat) (agg : Bool) (rs : List (Nat × Nat)) (uop : Nat) : EM Unit := do
  let s ← get
  if s.byWord n agg then
    ((s.slice n).badLines agg).forM (fun e =>
      if reachesWord rs e.1 && !(List.range 8).all (fun k => coversByte rs e.1 k) then cbMeet n ctx agg e.1 e.2 uop
      else pure ())
  doSt (fun s => s.cbWrite n agg rs)

/-- The bytes of registers of the batch in the operators. -/
def Task.lines (t : Task) (p : PipeI) (regs : List Nat) : List (Nat × Nat) :=
  let l := ((t.batch.map (·.rows)).getD []).length
  regs.flatMap (fun r => regRanges t.frame r (p.reg r).ty 0 l)

/-- The bytes of the row numbers of the batch in the operators. -/
def Task.rowLines (t : Task) : List (Nat × Nat) := rowRanges t.frame 0 ((t.batch.map (·.rows)).getD []).length

end Sys2Proof.Machine
end

