-- ==== Sys2Proof/Machine/EngDesc.lean ====
section
/-! DEFINITION. Descriptors: their checks (06 R203 to R207), fetching (R197 to R202), ending (R209, R213), spill
(05 R172, R173) and completion records (R211, R212). -/

namespace Sys2Proof.Machine
open Sys2Proof

/-! ### Reading descriptors -/

/-- Opcode. -/
def Desc.opc (d : Desc) : Nat := leAt d.bytes 0 1
/-- FLAGS.IRQ. -/
def Desc.irq (d : Desc) : Bool := bitAt (leAt d.bytes 1 1) 0
/-- FLAGS.FENCE. -/
def Desc.fence (d : Desc) : Bool := bitAt (leAt d.bytes 1 1) 1
/-- An operand. -/
def Desc.arg (d : Desc) (off n : Nat) : Nat := leAt d.bytes off n

/-- The first nonzero byte of a range. -/
def firstNz (b : List Byte) (lo hi : Nat) : List Nat :=
  ((List.range (hi - lo)).map (· + lo)).filter (fun i => nthD b i 0 != 0)

/-- The offset, unless a condition holds. -/
def wants (ok : Bool) (off : Nat) : List Nat := if ok then [] else [off]

/-- Failing offsets of an ETLB entry at `o` (06, *ETLB entry*). -/
def etlbFails (b : List Byte) (o : Nat) : List Nat :=
  let w := leAt b o 8
  let k := bitsOf w 7 4
  wants (bitsOf w 3 2 == 0 && decide (k ≤ 14)) o ++ wants (bitsOf w 63 57 == 0) (o + 7) ++
    wants (bitsOf w 56 16 % 2 ^ k == 0) (o + 2) ++ firstNz b (o + 8) (o + 10) ++
    wants (bitsOf (leAt b (o + 8) 8) 51 16 % 2 ^ k == 0) (o + 10) ++
    wants (leAt b (o + 14) 1 / 16 == 0) (o + 14) ++ firstNz b (o + 15) (o + 16)

/-- Failing offsets of a match write entry. -/
def matchFails (b : List Byte) (o : Nat) : List Nat :=
  wants (decide (leAt b (o + 37) 1 ≤ 1)) (o + 37) ++ wants (decide (leAt b (o + 38) 2 ≤ 2047)) (o + 38) ++
    firstNz b (o + 40) (o + 48)

/-- Failing offsets of RUN_PIPELINE operands that need no image; `fx` for a Finxis ring pair. -/
def runFails (b : List Byte) (fx : Bool) : List Nat :=
  let n := leAt b 22 1
  let ib := leAt b 24 8
  let ob := leAt b 40 8
  wants (leAt b 20 2 != 0) 20 ++ wants (decide (n ≤ 5)) 22 ++ firstNz b 23 24 ++
    wants (ib % 128 == 0 && (leAt b 32 4 != 0 || ib == 0) && (!fx || ib == 0)) 24 ++
    wants (decide (leAt b 32 4 ≤ 0x1000000)) 32 ++ wants (leAt b 36 4 % 128 == 0) 36 ++
    wants (ob % 128 == 0 && (leAt b 36 4 != 0 || ob == 0) && (!fx || ob == 0)) 40 ++
    (List.range 5).flatMap (fun i =>
      let o := 48 + 16 * i
      if i < n then
        wants (!bitAt (leAt b o 1) 6) o ++ wants (decide (leAt b (o + 1) 1 ≤ 5)) (o + 1) ++ firstNz b (o + 2) (o + 8)
      else firstNz b o (o + 16))

/-- Failing offsets of a descriptor's bytes (06 R203). An operand out of range names its field's first byte, and
IMAGE_ADDR is not checked against a boundary (DESIGN CHOICE, notes/assumptions/97.md). -/
def descBytesFails (b : List Byte) (fx : Bool) : List Nat :=
  let op := leAt b 0 1
  let cnt := leAt b 2 1
  wants (decide (op ≤ 8)) 0 ++ wants (decide (leAt b 1 1 ≤ 3)) 1 ++
    wants (if op = 6 then decide (1 ≤ cnt) && decide (cnt ≤ 7) else if op = 8 then cnt == 1 || cnt == 2 else cnt == 0) 2 ++
    firstNz b 3 8 ++
    (match op with
     | 0 => firstNz b 16 128
     | 1 => runFails b fx
     | 2 =>
       wants (!fx || leAt b 16 8 == 0) 16 ++
         wants (decide (256 ≤ leAt b 24 4) && decide (leAt b 24 4 ≤ 131072) && leAt b 24 4 % 128 == 0) 24 ++
         firstNz b 28 128
     | 3 => firstNz b 20 128
     | 4 => wants (decide (leAt b 16 1 ≤ 1)) 16 ++ firstNz b 17 128
     | 5 =>
       wants (decide (leAt b 16 1 ≤ 2)) 16 ++ firstNz b 17 20 ++ wants (leAt b 16 1 == 0 || leAt b 20 4 == 0) 20 ++
         firstNz b 24 128
     | 6 => (List.range 7).flatMap (fun i =>
         if i < cnt then etlbFails b (16 + 16 * i) else firstNz b (16 + 16 * i) (32 + 16 * i))
     | 7 =>
       wants (decide (leAt b 17 1 ≤ 2)) 17 ++ firstNz b 18 24 ++
         wants (decide (1 ≤ leAt b 32 4) && decide (leAt b 32 4 ≤ 2 ^ 24)) 32 ++ firstNz b 36 128
     | 8 => (List.range 2).flatMap (fun i =>
         if i < cnt then matchFails b (16 + 48 * i) else firstNz b (16 + 48 * i) (64 + 48 * i)) ++ firstNz b 112 128
     | _ => [])

/-- The failing byte's offset of a malformed descriptor: the lowest of several (DESIGN CHOICE, notes/assumptions/97.md). -/
def descFault (b : List Byte) (fx : Bool) : Option Nat := lowest (descBytesFails b fx)

/-! ### Ending descriptors -/

/-- A descriptor's work ends with a status; the first status stands (06 R213). -/
def State.endDesc (s : State) (d : Desc) (f : Option Fail) : State :=
  s.setDesc { d with done := true, stall := none, fail := match d.fail with
    | some x => some x
    | none => f }

/-- A malformed descriptor, or one refused with a subcode. -/
def illegal (sub detail : Nat) : Fail := ⟨0x20, sub, detail, 0⟩

/-- A task of a run whose status is fixed is to end: at its batch boundary, or at once when it is stalled, its requests
dropped (06 R209, R213). -/
def Task.windUp (t : Task) : Task := { t with ending := true, dropped := t.dropped || t.stall.isSome, stall := none }

/-- Fix the status of a run: nothing more is dispatched, its stalled requests are dropped and its tasks end (06 R213). -/
def State.fixRun (s : State) (ring seq : Nat) (f : Fail) : State :=
  let s := s.updDesc ring seq (fun d => { d with stall := none, fail := match d.fail with
    | some x => some x
    | none => some f })
  s.eng' (fun e => { e with slices := e.slices.mapV (fun (x : Slice) => { x with task := x.task.map (fun (t : Task) =>
    if t.ring == ring && t.seq == seq then t.windUp else t) }) })

/-- End a descriptor with ABORTED (06 R195, R209): a load stops, a run drops its tasks not dispatched. -/
def State.abortDesc (s : State) (d : Desc) : State :=
  if d.opc = 1 && d.run.isSome then s.fixRun d.ring d.seq ⟨0x30, 0, 0, 0⟩
  else s.endDesc { d with load := none } (some ⟨0x30, 0, 0, 0⟩)

/-! ### Spill memory (05 R172, R173) -/

/-- Set the count of a context's chunks in use. -/
def State.spillCount (s : State) (c n : Nat) : State := s.wr (Reg.CTX_STATUS c) F.CTX_STATUS_SPILL_USED n

/-- Allocate a spill chunk for a run: its physical address. The free chunk of lowest address is taken (DESIGN CHOICE,
notes/assumptions/41.md). -/
def State.allocChunk (s : State) (c ring seq : Nat) : Option Nat × State :=
  let used := s.rd (Reg.CTX_STATUS c) F.CTX_STATUS_SPILL_USED
  let chunks := s.rd (Reg.CTX_SPILL_SIZE c) F.CTX_SPILL_SIZE_CHUNKS
  let base := s.rd (Reg.CTX_SPILL_BASE c) F.CTX_SPILL_BASE_BASE
  if used < s.rd (Reg.CTX_SPILL_SIZE c) F.CTX_SPILL_SIZE_QUOTA ∧ used < chunks then
    match (List.range (used + s.eng.spill.length + 1)).find? (fun i => decide (i < chunks) && !s.eng.spill.contains ((base + i) * 65536)) with
    | some i =>
      let pa := (base + i) * 65536
      let s := s.eng' (fun e => { e with spill := e.spill ++ [pa] })
      let s := s.updRun ring seq (fun r => { r with chunks := r.chunks ++ [pa] })
      (some pa, s.spillCount c (used + 1))
    | none => (none, s)
  else (none, s)

/-- Release a run's spill: STALE is set in anchors that received chunks, and the chunks are free. -/
def State.freeSpill (s : State) (d : Desc) (r : Run) : State :=
  let who := s.ctxIdent d.ctx
  let s := r.anchors.foldl (fun s pa =>
    let (x, s) := s.readPa who pa 1
    (s.writePa who pa [nthD x.bytes 0 0 ||| 2]).2) s
  let n := s.rd (Reg.CTX_STATUS d.ctx) F.CTX_STATUS_SPILL_USED
  (s.spillCount d.ctx (n - r.chunks.length)).eng' (fun e => { e with spill := e.spill.filter (fun x => !r.chunks.contains x) })

/-! ### Fetching (06 R201, R202, R208) -/

/-- Descriptors of a ring pair not completed. -/
def State.ringDescs (s : State) (n : Nat) : List Desc := s.eng.descs.filter (fun d => d.ring == n)

/-- Descriptors that adapters have been asked for and have not sent, over every Finxis ring pair (06 R202). -/
def State.asked (s : State) : Nat := ((List.range 4).map (fun p => ((s.port p).want.map (fun e => e.2.2)).sum)).sum

/-- Descriptors asked for of one ring pair. -/
def State.askedOf (s : State) (n : Nat) : Nat :=
  match s.ringPort n with
  | some p => (Tab.get (0, 0) (s.port p).want n).2
  | none => 0

/-- Whether a FENCE descriptor of a ring pair is open (06 R208). -/
def State.ringFenced (s : State) (n : Nat) : Bool :=
  (s.ringDescs n).any (fun d => d.opc == 4 && (descFault d.bytes false).isNone)

/-- Whether the limits of 06 R201 and a FENCE of 06 R208 let a ring pair start one more descriptor, beyond those asked for
of adapters and `k` more. -/
def State.mayStart (s : State) (n k : Nat) : Bool :=
  let ds := s.ringDescs n
  let k' := s.askedOf n + k
  let st := ds.length + k'
  let cq := (s.rd (Reg.RING_HEAD n) F.RING_HEAD_CQ_TAIL + 2 ^ 32 - (s.ringSt n).head) % 2 ^ 32
  s.rd (Reg.RING_STATUS n) F.RING_STATUS_STATE == 1 && s.ctxValid (s.rd (Reg.RING_CFG n) F.RING_CFG_CTX) &&
    (s.ringSt n).tail != (s.rd (Reg.RING_HEAD n) F.RING_HEAD_SQ_HEAD + k') % 2 ^ 32 &&
    decide (st + cq < 2 ^ s.rd (Reg.RING_CFG n) F.RING_CFG_CQ_LOG2) && decide (st < 64) &&
    decide (s.eng.descs.length + s.asked + k < 1024) && !s.ringFenced n

/-- The store slot of an image resident for a context that can still be run, by its ID (04 R117, 06 R206). -/
def State.residentImage (s : State) (c id : Nat) : Option Nat :=
  match s.image (id % 256) with
  | some m => if m.ctx == c && m.live && m.count == id / 256 then some (id % 256) else none
  | none => none

/-- IMAGE_TAG of the image in the store that an ID names, one that can be run no more among them (06 R211). -/
def State.namedTag (s : State) (c id : Nat) : Nat :=
  match s.image (id % 256) with
  | some m => if m.ctx == c && m.count == id / 256 then (imgOf m.bytes).tag else 0
  | none => 0

/-- A descriptor starts (06 R201): it is taken as fetched, and an image it names is the one resident now (04 R117). A
malformed one takes no image, and its record names the image all the same (R211). -/
def State.startDesc (s : State) (n seq : Nat) (b : List Byte) : State :=
  let c := s.rd (Reg.RING_CFG n) F.RING_CFG_CTX
  let bad := (descFault b (s.ringPort n).isSome).isSome
  let op := leAt b 0 1
  let named := if op == 1 || op == 3 then s.residentImage c (leAt b 16 4) else none
  let slot := if bad then none else named
  let tag := if op == 1 || op == 3 then s.namedTag c (leAt b 16 4) else 0
  let d : Desc :=
    { ring := n, seq := seq, ord := s.eng.ord, ctx := c, bytes := b, begun := false, ready := !bitAt (leAt b 1 1) 1,
      fail := none, done := false, r0 := 0, r1 := 0, tag := tag, load := none, slot := slot, run := none, targets := [],
      inp := [], outp := [], poison := false, stall := none }
  let s := s.eng' (fun e => { e with descs := e.descs ++ [d], ord := e.ord + 1 })
  let s := s.addF (Reg.RING_HEAD n) F.RING_HEAD_SQ_HEAD 1
  match slot with
  | some k => if op = 3 then s.eng' (fun e => { e with images := Tab.put none e.images k ((s.image k).map (fun m => { m with live := false })) }) else s
  | none => s

/-- Fetch one descriptor of a local ring pair. -/
def State.fetchOne (s : State) (n : Nat) : Option State :=
  if !s.mayStart n 0 then none
  else
    let seq := s.rd (Reg.RING_HEAD n) F.RING_HEAD_SQ_HEAD
    let c := s.rd (Reg.RING_CFG n) F.RING_CFG_CTX
    let pa := s.rd (Reg.RING_SQ_BASE n) F.RING_SQ_BASE_BASE * 4096 +
      128 * (seq % 2 ^ s.rd (Reg.RING_CFG n) F.RING_CFG_SQ_LOG2)
    let (r, s) := s.readPa (s.ctxIdent c) pa 128
    if r.res != AccRes.ok then some (s.ringError n 2)
    else if r.poison then some (s.ringError n 3)
    else some (s.startDesc n seq r.bytes)

/-- Ask the adapter for the descriptors that may start (08 R246). -/
def State.fetchFx (s : State) (n p : Nat) : State :=
  let x := s.port p
  let w := (Tab.get (0, 0) x.want n).2
  let ok : Bool := ((x.cqWin n).map (fun e => !e.2.released)).getD false
  let k := ((List.range 64).takeWhile (fun i => s.mayStart n i)).length
  if ok && k != 0 then
    let seq := s.rd (Reg.RING_HEAD n) F.RING_HEAD_SQ_HEAD
    (s.setPort p { x with want := Tab.put (0, 0) x.want n (seq, w + k) }).fxFetch p n ((seq + w) % 2 ^ 32) k
  else s

/-- Fetch descriptors of a ring pair, at most `k`, while it may. -/
def State.fetchUp (s : State) (n k : Nat) : State := (List.range k).foldl (fun s _ => (s.fetchOne n).getD s) s

/-- Fetch what a ring pair may start. -/
def State.fetchMore (s : State) (n : Nat) : State :=
  match s.ringPort n with
  | some p => s.fetchFx n p
  | none => s.fetchUp n 64

/-- Fetch for every ring pair with descriptors waiting, in the order of their numbers (DESIGN CHOICE,
notes/assumptions/112.md). -/
def State.fetchAll (s : State) : State :=
  s.eng.rings.foldl (fun s e => s.fetchMore e.1) s

/-- A ring pair learns a doorbell slot's value (06 R197, R199, R200). -/
def State.doorbell (s : State) (n v : Nat) : State :=
  if s.rd (Reg.RING_STATUS n) F.RING_STATUS_STATE != 1 then s
  else
    let tail := v % 2 ^ 32
    let head := v / 2 ^ 32 % 2 ^ 32
    let hd := s.rdW (Reg.RING_HEAD n)
    let sq := bitsOf hd.toNat 31 0
    let cq := bitsOf hd.toNat 63 32
    if 2 ^ s.rd (Reg.RING_CFG n) F.RING_CFG_SQ_LOG2 < (tail + 2 ^ 32 - sq) % 2 ^ 32 then s.ringError n 1
    else if 2 ^ s.rd (Reg.RING_CFG n) F.RING_CFG_CQ_LOG2 < (cq + 2 ^ 32 - head) % 2 ^ 32 then s.ringError n 5
    else (s.setRing n { s.ringSt n with tail := tail, head := head }).fetchMore n

/-- Local ring pairs whose doorbell line is a given one. -/
def State.ringsOn (s : State) (ln : Nat) : List Nat :=
  below 4096 (fun n => s.rdW (Reg.RING_DB n) != 0 && s.on (Reg.RING_DB n) F.RING_DB_EN &&
    s.rd (Reg.RING_DB n) F.RING_DB_LINE == ln && s.on (Reg.RING_CFG n) F.RING_CFG_VALID && (s.ringPort n).isNone)

/-- The ring manager reads the doorbell slot of a ring pair (06 R194, R199, R200). -/
def State.readSlot (s : State) (n : Nat) : State :=
  let c := s.rd (Reg.RING_CFG n) F.RING_CFG_CTX
  let pa := s.rd (Reg.RING_DB n) F.RING_DB_LINE * 128 + 8 * s.rd (Reg.RING_DB n) F.RING_DB_SLOT
  let (r, s) := s.readPa (s.ctxIdent c) pa 8
  if r.res != AccRes.ok then s.ringError n 2
  else if r.poison then s.ringError n 3
  else s.doorbell n (leNat r.bytes)

/-! ### Credits of the exchange (05 R184) -/

/-- Credits a sender has used towards a receiver: flits sent and not yet taken (05 R184). -/
def Eng.xUsed (g : Eng) (src dst : Nat) : Nat :=
  ((g.xch.filter (fun m => m.src == src && m.dst == dst)).map (fun m => m.sent - m.taken)).sum

/-- Senders send what their credits allow, 16 for each pair, oldest message first. -/
def Eng.xSend (g : Eng) : Eng :=
  (List.range g.xch.length).foldl (fun g i => match g.xch[i]? with
    | some m =>
      let k := min (16 - g.xUsed m.src m.dst) (m.flits - m.sent)
      { g with xch := setNth g.xch i { m with sent := m.sent + k } }
    | none => g) g

/-! ### Completion (06 R211, R212) -/

/-- STATUS of a descriptor that has ended. -/
def Desc.status (d : Desc) : Nat :=
  match d.fail with
  | some f => f.status
  | none => if ((d.run.map (·.partly)).getD false) then 1 else 0

/-- A completion record (06 R211). -/
def State.record (s : State) (d : Desc) (j phaseLog2 : Nat) : List Byte :=
  let f := d.fail.getD ⟨0, 0, 0, 0⟩
  leBytes 1 d.status ++ leBytes 1 f.sub ++ leBytes 1 d.opc ++ leBytes 1 (if j / 2 ^ phaseLog2 % 2 = 0 then 1 else 0) ++
    leBytes 4 d.seq ++ leBytes 8 (d.arg 8 8) ++ leBytes 2 d.ring ++ leBytes 2 0 ++ leBytes 4 f.detail ++
    leBytes 8 d.r0 ++ leBytes 8 d.r1 ++ leBytes 8 f.addr ++ leBytes 8 d.tag ++
    leBytes 4 (s.rd (Reg.RING_HEAD d.ring) F.RING_HEAD_SQ_HEAD) ++ leBytes 4 0

/-- A draining ring pair whose last descriptor is gone is disabled (06 R196). -/
def State.drained (s : State) (n : Nat) : State :=
  if s.rd (Reg.RING_STATUS n) F.RING_STATUS_STATE = 3 ∧ s.ringDescs n = [] then
    s.wr (Reg.RING_STATUS n) F.RING_STATUS_STATE 0
  else s

/-- Images of contexts that are disabled leave the store once no descriptor runs them (06 R195). -/
def State.freeImages (s : State) : State :=
  if s.eng.images.all (fun e => match e.2 with
    | some m => m.live || s.ctxValid m.ctx
    | none => true) then s
  else s.eng' (fun e => { e with images := e.images.keep (fun k v => match v with
    | some m => m.live || s.ctxValid m.ctx || e.descs.any (fun d => d.slot == some k)
    | none => false) })

/-- A Finxis ring pair's descriptor has ended: its staging space is released as its output goes, and it names its output
window no longer (08 R247, R249). -/
def State.fxEnd (s : State) (d : Desc) (p : Nat) : State :=
  let s := s.stageClose p d.ring d.seq
  s.setPort p { s.port p with outw := (s.port p).outw.filter (fun e => !(e.1 == d.ring && e.2.1 == d.seq)) }

/-- Send a Finxis ring pair's output and record (08 R249, R251, 19 R463). -/
def State.respond (s : State) (d : Desc) (p j : Nat) : State :=
  let lg := s.rd (Reg.RING_CFG d.ring) F.RING_CFG_CQ_LOG2
  let x := s.port p
  let ow : Option (Nat × Nat × Nat) := x.outw.find? (fun e => e.1 == d.ring && e.2.1 == d.seq)
  let (out, bad, s) : List Byte × Nat × State :=
    match x.stage d.ring d.seq with
    | some g =>
      let o := g.base + g.inSize
      let (r, s) := s.stageRead p o d.r1
      if r.res == AccRes.ok && !r.poison then (r.bytes, 0, s)
      else
        -- the bytes before the first line that cannot be read are sent, the last of them with LAST (19 R463)
        let at_ (i : Nat) : Nat := alignDown (o + 128 * i) 128
        let good := ((List.range (d.r1 / 128 + 2)).takeWhile (fun i =>
          let q := (s.stageRead p (at_ i) 128).1
          q.res == AccRes.ok && !q.poison)).length
        ((s.stageRead p o (min d.r1 (at_ good - o))).1.bytes, if r.res == AccRes.ok then 0x12 else r.res.status, s)
    | none => ([], 0, s)
  let s := match ow with
    | some e => s.fxData p d.ring d.seq e.2.2 true (out.length / 65536 + 1) 0 out
    | none => s
  let d := if bad != 0 then { d with fail := some (d.fail.getD ⟨bad, 0, 0, 0⟩), r1 := out.length } else d
  let s := s.fxEnd d p
  match (s.port p).cqWin d.ring with
  | some (w, _) =>
    s.fxInto p { FxPkt.blank with
      type := 0x22, flags := if d.irq then 2 else 0, ring := d.ring, seq := d.seq, window := w, offset := 64 * (j % 2 ^ lg),
      payload := s.record d j lg }
  | none => s.fxDropped p 1

/-- A descriptor leaves the ring manager, and exchange messages and top-k rows of its run with it: what waited for it goes
on. -/
def State.letGo (s : State) (n seq : Nat) : State :=
  let s := s.eng' (fun e => { e with
    descs := e.descs.filter (fun x => !(x.ring == n && x.seq == seq))
    xch := e.xch.filter (fun m => !(m.ring == n && m.seq == seq))
    top := e.top.filter (fun m => !(m.ring == n && m.seq == seq))
    slices := e.slices.mapD Slice.reset (fun (x : Slice) =>
      { x with rbuf := x.rbuf.filter (fun q => !(q.m.ring == n && q.m.seq == seq)) }) }.xSend)
  (s.freeImages.drained n).fetchAll

/-- A completion record of a ring pair in state error is held, not written (06 R200). -/
def State.holdRecord (s : State) (n : Nat) : State := s.setRing n { s.ringSt n with held := (s.ringSt n).held + 1 }

/-- Write the completion record of a local ring pair's descriptor and send its interrupt (06 R211, R212). -/
def State.fileRecord (s : State) (d : Desc) (j : Nat) : State :=
  let n := d.ring
  let lg := s.rd (Reg.RING_CFG n) F.RING_CFG_CQ_LOG2
  let pa := s.rd (Reg.RING_CQ_BASE n) F.RING_CQ_BASE_BASE * 4096 + 64 * (j % 2 ^ lg)
  let (r, s) := s.writePa (s.ctxIdent d.ctx) pa (s.record d j lg)
  if r != AccRes.ok then (s.ringError n 2).holdRecord n
  else
    let s := s.addF (Reg.RING_HEAD n) F.RING_HEAD_CQ_TAIL 1
    let m := Reg.RING_MSI n
    if d.irq && s.on m F.RING_MSI_EN then
      s.msiTo (s.ctxIdent d.ctx) (s.rd m F.RING_MSI_ADDR * 4096) (s.rd m F.RING_MSI_EIID)
    else s

/-- The spill chunks of a descriptor's run are free. -/
def State.freeRun (s : State) (d : Desc) : State :=
  match d.run with
  | some r => s.freeSpill d r
  | none => s

/-- Write the completion record of a descriptor, or hold it in state error (06 R200, R212). -/
def State.putRecord (s : State) (d : Desc) : State :=
  let n := d.ring
  if s.rd (Reg.RING_STATUS n) F.RING_STATUS_STATE = 2 then
    let s := s.holdRecord n
    match s.ringPort n with
    | some p => s.fxEnd d p
    | none => s
  else
    let j := s.rd (Reg.RING_HEAD n) F.RING_HEAD_CQ_TAIL
    match s.ringPort n with
    | some p => (s.respond d p j).addF (Reg.RING_HEAD n) F.RING_HEAD_CQ_TAIL 1
    | none => s.fileRecord d j

/-- Write the completion record of a descriptor that has ended, and let it go (06 R200, R212). -/
def State.complete (s : State) (d : Desc) : State := ((s.freeRun d).putRecord d).letGo d.ring d.seq

end Sys2Proof.Machine
end

