-- ==== Sys2Proof/Machine/EngBatch.lean ====
section
/-! DEFINITION. Batches in the operators: the next operator of a task, cells and strings, micro-op ranges, hashing,
matching, limits and the output sinks (03 R75 to R93, 04 R132 to R147, 05 R153, R189, R190). -/

namespace Sys2Proof.Machine
open Sys2Proof

/-! ### The next operator -/

/-- What a task's step sees: its run, image, pipeline and operator. -/
structure OpCtx where
  d : Desc
  r : Run
  m : Img
  p : PipeI
  o : OpW
  deriving DecidableEq, Repr

/-- A pipeline with nothing in it. -/
def PipeI.none : PipeI := ⟨0, [], [], 0, 0, [], 0⟩

/-- Pipelines of a mask with their indices. -/
def Img.masked (m : Img) (mask : Nat) : List (Nat × PipeI) :=
  (m.pipes.zipIdx.filter (fun x => bitAt mask x.2)).map (fun x => (x.2, x.1))

/-- The operator a task comes to next. -/
def State.opCtx (s : State) (t : Task) : Option OpCtx :=
  match s.desc t.ring t.seq with
  | none => none
  | some d =>
    match d.run with
    | none => none
    | some r =>
      let m := s.img r.slot
      let p := nthD m.pipes t.pipe PipeI.none
      (p.ops[t.oper]?).map (fun o => ⟨d, r, m, p, o⟩)

/-- Who makes the accesses of a task. -/
def Task.who (n : Nat) (t : Task) : Who := ⟨some n, t.ctx⟩

/-- Do an operator of the batch on a slice, if it is the next one and is of the given code. -/
def State.taskOp (s : State) (n opc : Nat) (f : OpCtx → Task → Batch → EM Unit) : State :=
  s.taskDo n (fun t =>
    match s.opCtx t, t.batch with
    | some c, some b => if c.o.opc = opc ∧ t.fetching = false then f c t b else pure ()
    | _, _ => pure ())

/-- Cells of a register. -/
def Batch.reg (b : Batch) (r : Nat) : List Cell := Tab.get [] b.regs r
/-- A cell of a register. -/
def Batch.cell (b : Batch) (r i : Nat) : Cell := nthD (b.reg r) i Cell.null
/-- Put cells into a register. -/
def Batch.put (b : Batch) (r : Nat) (l : List Cell) : Batch := { b with regs := Tab.put [] b.regs r l }
/-- Selected positions. -/
def Batch.selected (b : Batch) : List Nat := below b.rows.length (fun i => nthD b.sel i false)
/-- Row number of a position. -/
def Batch.rn (b : Batch) (i : Nat) : Nat := nthD b.rows i 0
/-- A batch made of positions of another, in order. -/
def Batch.pickRows (b : Batch) (l : List Nat) : Batch :=
  { rows := l.map b.rn, sel := l.map (fun i => nthD b.sel i false),
    regs := b.regs.mapV (fun c => l.map (fun i => nthD c i Cell.null)) }
/-- Batches joined. -/
def Batch.append (a b : Batch) : Batch :=
  let keys := a.regs.keys ++ b.regs.keys
  let pad (x : Batch) (r : Nat) : List Cell :=
    (x.reg r) ++ List.replicate (x.rows.length - (x.reg r).length) Cell.null
  { rows := a.rows ++ b.rows, sel := a.sel ++ b.sel,
    regs := keys.foldl (fun t r => Tab.put [] t r (pad a r ++ pad b r)) [] }
/-- The first `n` rows, and the rest. -/
def Batch.split (b : Batch) (n : Nat) : Batch × Batch :=
  (b.pickRows (List.range (min n b.rows.length)),
   b.pickRows ((List.range (b.rows.length - n)).map (· + n)))

/-- The batch's requests are all gathered: the request flits of a slice that are not full leave too (05 R160). -/
def sealFlits (n : Nat) : EM Unit := doSt (fun s => s.sealed n)

/-- The operator is done with the batch: its requests leave, and the batch goes on to the next one. -/
def opDone (n : Nat) (b : Batch) : EM Unit := do
  sealFlits n
  updTask n (fun t => { t with batch := some b, oper := t.oper + 1 })

/-- Bytes of an inline record of an INLINE_IN (06 R205). -/
def inlineRec (m : Img) (p : PipeI) (o : OpW) : Nat :=
  ceilDiv o.a1 8 + ((m.colList o.a0 o.a1).map (fun e => (p.reg e.2).ty.width)).sum

/-! ### Cells -/

/-- A whole string, read from its heap where the batch holds only its first 64 bytes (03 R93). -/
def strOf (n : Nat) (t : Task) (c : Cell) : EM (List Byte) :=
  if c.strLen ≤ 64 then pure c.str
  else do
    let l ← vread (t.who n) (c.heap + refOffset c.v) c.strLen
    doSt (fun s => s.pmcSlc n 11 (some (s.ctxIdent t.ctx)) (ceilDiv (c.strLen - 64) 128))
    return l

/-- A string cell with all its bytes. -/
def wholeCell (n : Nat) (t : Task) (c : Cell) : EM Cell := do
  let l ← strOf n t c
  return { c with str := l }

/-- Two string cells with as many bytes as comparing them needs. -/
def forCompare (n : Nat) (t : Task) (ty : Ty) (fold : Bool) (x y : Cell) : EM (Cell × Cell) :=
  if ty = .varstr && strNeedsHeap fold x y then do
    let a ← wholeCell n t x
    let b ← wholeCell n t y
    return (a, b)
  else pure (x, y)

/-- A cell from the bytes of a stored value: BOOL as 0 or 1 (03 R88), a string with up to 64 of its bytes from the heap
(02 R44, 03 R93). -/
def cellOf (a : Who) (ty : Ty) (ok : Bool) (v heap : Nat) : EM Cell :=
  if !ok then pure Cell.null
  else match ty with
    | .bool => pure (boolCell (v % 256 != 0))
    | .varstr =>
      let l := v % 2 ^ 32
      if l ≤ 12 then pure ⟨true, v, shortStr v, heap⟩
      else do
        let b ← vread a (heap + refOffset v) (min l 64)
        return ⟨true, v, b, heap⟩
    | _ => pure (Cell.of v)

/-! ### Micro-ops -/

/-- A constant operand of a type (04 R143); `k` counts constants from PAYLOAD. -/
def constCell (m : Img) (u : UOp) (ty : Ty) (k : Nat) : Cell :=
  if u.kmode = 1 then Cell.of (ty.pat (toSigned 24 (bitsOf u.payload 23 0)))
  else
    let v := leAt m.pool (bitsOf u.payload 13 0 + k * ty.width) ty.width
    match ty with
    | .varstr =>
      let l := v % 2 ^ 32
      ⟨true, v, if l ≤ 12 then shortStr v else sliceB m.pool (refOffset v) l, 0⟩
    | .bool => boolCell (v % 256 != 0)
    | _ => Cell.of v

/-- The operands of a micro-op at a position. -/
def operands (c : OpCtx) (u : UOp) (b : Batch) (i : Nat) : Cell × Cell × Cell :=
  let kty := if u.op = 2 then (c.p.reg u.d).ty else (c.p.reg u.s1).ty
  let x := b.cell u.s1 i
  let y := if u.kmode = 0 then b.cell u.s2 i else constCell c.m u kty 0
  let z := if u.op = 0x16 && u.kmode == 2 then constCell c.m u kty 1 else b.cell u.s3 i
  (x, y, z)

/-- Declarations of S2 and S3: a constant has S1's. -/
def operDecls (c : OpCtx) (u : UOp) : Decl × Decl × Decl × Decl :=
  let a := c.p.reg u.s1
  (a, if u.kmode = 0 then c.p.reg u.s2 else a, if u.op = 0x16 && u.kmode == 2 then a else c.p.reg u.s3, c.p.reg u.d)

/-- Operands with the string bytes the micro-op needs. -/
def fetchStrings (n : Nat) (t : Task) (u : UOp) (ty : Ty) (x y z : Cell) : EM (Cell × Cell × Cell) :=
  if ty != .varstr then pure (x, y, z)
  else if (0x10 ≤ u.op ∧ u.op ≤ 0x16) ∨ u.op = 0x27 ∨ u.op = 0x28 then do
    let (x, y) ← forCompare n t ty u.alt x y
    if u.op = 0x16 then
      let (x, z) ← forCompare n t ty u.alt x z
      return (x, y, z)
    else return (x, y, z)
  else if u.op = 0x18 ∧ 64 < y.strLen ∧ y.strLen ≤ x.strLen then do
    let x ← wholeCell n t x
    let y ← wholeCell n t y
    return (x, y, z)
  else pure (x, y, z)

/-- One micro-op over a batch (03 R84 to R86). -/
def runUop (n : Nat) (c : OpCtx) (t : Task) (b : Batch) (iu : Nat × UOp) : EM Batch := do
  let (idx, u) := iu
  if u.op = 0 then return b
  cbRead n t.ctx false (selRanges t.frame ++ t.lines c.p u.reads ++ (if u.op = 4 then t.rowLines else [])) idx
  let (da, db, dc, dd) := operDecls c u
  let cells ← (List.range b.rows.length).mapM (fun i => do
    let on := nthD b.sel i false && (!u.mask || (b.cell u.s3 i).isTrue)
    if !on then return Cell.null
    let (x0, y0, z0) := operands c u b i
    let (x, y, z) ← fetchStrings n t u da.ty x0 y0 z0
    match evalRow u da db dc dd (b.rn i) x y z with
    | .ok r => return (if r.ok then { r with str := r.str.take 64 } else Cell.null)
    | .error .overflow => throw (.err 0x21 (b.rn i) idx)
    | .error .divZero => throw (.err 0x22 (b.rn i) idx))
  cbStore n t.ctx false (t.lines c.p [u.d]) idx
  return b.put u.d cells

/-- The micro-ops of FILTER or PROJECT, in program order (04 R140). -/
def runRange (n : Nat) (c : OpCtx) (t : Task) (b : Batch) : EM Batch :=
  (c.p.range c.o).foldlM (fun b u => runUop n c t b u) b

/-- Set the selection of a batch and write its bitmap. -/
def setSel (n : Nat) (t : Task) (b : Batch) (f : Nat → Bool) : EM Batch := do
  cbStore n t.ctx false (selRanges t.frame) 0xFFFF
  return { b with sel := (List.range b.rows.length).map (fun i => nthD b.sel i false && f i) }

/-- Whether an operator reads the row numbers of its batch: a fetch scan, PROBE, aggregation, sorting, top-k. -/
def usesRows (opc : Nat) : Bool := [0x01, 0x22, 0x23, 0x24, 0x30, 0x32].contains opc

/-- Read the selection, the registers an operator names, and the row numbers where it uses them. -/
def readRegs (n : Nat) (c : OpCtx) (t : Task) : EM Unit :=
  cbRead n t.ctx false (selRanges t.frame ++ t.lines c.p (c.m.opReads c.o) ++
    (if usesRows c.o.opc then t.rowLines else [])) 0xFFFF

/-- Write the registers an operator fills. -/
def writeRegs (n : Nat) (c : OpCtx) (t : Task) (rs : List Nat) : EM Unit := cbStore n t.ctx false (t.lines c.p rs) 0xFFFF

/-- FILTER (03 R87). -/
def opFilter (n : Nat) (c : OpCtx) (t : Task) (b : Batch) : EM Unit := do
  let b ← runRange n c t b
  readRegs n c t
  let b ← setSel n t b (fun i => (b.cell c.o.a2 i).isTrue)
  opDone n b

/-- PROJECT (04 R140). -/
def opProject (n : Nat) (c : OpCtx) (t : Task) (b : Batch) : EM Unit := do
  let b ← runRange n c t b
  opDone n b

/-- HASH (05 R153, R154). -/
def opHash (n : Nat) (c : OpCtx) (t : Task) (b : Batch) : EM Unit := do
  readRegs n c t
  let ks := c.m.regList c.o.a0 c.o.a1
  let cells ← (List.range b.rows.length).mapM (fun i => do
    if !nthD b.sel i false then return Cell.null
    let ws ← ks.mapM (fun k => do
      let ty := (c.p.reg k.1).ty
      let x := b.cell k.1 i
      let x ← if ty = .varstr && x.ok then wholeCell n t x else pure x
      return hashWords ty k.2 x)
    return Cell.of (hashKeys (c.o.a3 % 256) ws.flatten))
  writeRegs n c t [c.o.a2]
  opDone n (b.put c.o.a2 cells)

/-! ### The match array -/

/-- The 16-byte search key of a cell (05 R189). -/
def matchKey (ty : Ty) (c : Cell) : Nat :=
  match ty with
  | .varstr => leNat (fitB 16 (c.str.take 16))
  | _ => normVal ty c.v

/-- Whether a match row is enabled for a search (05 R189). -/
def MRow.enabled (r : MRow) (ctx tag : Nat) : Bool := r.valid && r.owner == ctx && (r.tag == tag || r.tag == 0)

/-- The lowest match row a key finds, with the rows enabled for the search. -/
def searchRows (rows : Tab MRow) (ctx tag gmask key : Nat) : Option MRow :=
  (rows.find? (fun e => e.2.enabled ctx tag && ((key ^^^ e.2.value) &&& e.2.care &&& gmask) == 0)).map Prod.snd

/-- MATCH (05 R190); a search that enables a row of bad parity ends the task with POISON (03 R70). The arguments follow
the table of 04 R128 (notes/assumptions/43.md); an unselected position gets a null result (DESIGN CHOICE,
notes/assumptions/98.md), and the whole batch sees one version of the array (DESIGN CHOICE, notes/assumptions/111.md). -/
def opMatch (n : Nat) (c : OpCtx) (t : Task) (b : Batch) : EM Unit := do
  readRegs n c t
  let s ← get
  let rows := (s.slice n).rows
  let ty := (c.p.reg c.o.a0).ty
  let gm := leAt c.m.pool c.o.a3 16
  let hit (i : Nat) : Option MRow :=
    let x := b.cell c.o.a0 i
    if nthD b.sel i false && x.ok then searchRows rows t.ctx (c.o.a2 % 256) gm (matchKey ty x) else none
  let hits := (List.range b.rows.length).map hit
  let keys := (List.range b.rows.length).map (fun i => (b.cell c.o.a0 i).ok)
  let nsearch := (b.selected.filter (fun i => nthD keys i false)).length
  doSt (fun s => s.pmcSlc n 10 (some (s.ctxIdent t.ctx)) nsearch)
  ensure (nsearch == 0 || !rows.any (fun e => e.2.enabled t.ctx (c.o.a2 % 256) && e.2.bad)) 0x12 0
  let b ← if bitAt c.o.opt 2 then pure b
    else do
      writeRegs n c t [c.o.a1]
      pure (b.put c.o.a1 (hits.map (fun h => match h with
        | some r => Cell.of r.result
        | none => Cell.null)))
  let b ← if bitAt c.o.opt 0 then
      setSel n t b (fun i => nthD keys i false && ((nthD hits i none).isSome != bitAt c.o.opt 1))
    else pure b
  opDone n b

/-! ### LIMIT (04 R132) -/

/-- Tasks of a pipeline of a run are to end at their batch boundary; the gather task of a TOPK after the LIMIT goes on, and
ends so only when the LIMIT is its own. -/
def State.endTasks (s : State) (ring seq pipe : Nat) (gather : Bool) : State :=
  s.eng' (fun e => { e with slices := e.slices.mapV (fun (x : Slice) => { x with task := x.task.map (fun (t : Task) =>
    if t.ring == ring && t.seq == seq && t.pipe == pipe && (t.kind != .gather || gather) then { t with ending := true }
    else t) }) })

/-- LIMIT. -/
def opLimit (n : Nat) (c : OpCtx) (t : Task) (b : Batch) : EM Unit := do
  let used := (c.r.pipe t.pipe).lim
  let room := c.o.a5 - used
  let keep := b.selected.take room
  cbRead n t.ctx false (selRanges t.frame) 0xFFFF
  let b' ← setSel n t b (fun i => keep.contains i)
  doSt (fun s => s.updRun t.ring t.seq (fun r => r.updPipe t.pipe (fun p =>
    { p with lim := used + keep.length, closed := p.closed || decide (c.o.a5 ≤ used + keep.length) })))
  if c.o.a5 ≤ used + keep.length then doSt (fun s => s.endTasks t.ring t.seq t.pipe (t.kind == .gather))
  opDone n b'

/-! ### Sinks: EMIT and EMIT_INLINE (04 R133 to R136) -/

/-- A batch sample record (21 R504, R505); its cycle figures are values the manual leaves to the part's timing. -/
def State.batchSample (s : State) (n : Nat) (t : Task) (b : Batch) : State :=
  let (w1, s) := s.draw
  let (w2, s) := s.draw
  let (w3, s) := s.draw
  let (w4, s) := s.draw
  let who := s.ctxIdent t.ctx
  s.sample who (leBytes 1 2 ++ leBytes 1 0 ++ leBytes 2 n ++ leBytes 1 (sampleIdent who) ++ leBytes 1 t.pipe ++
    leBytes 2 t.ctx ++ leBytes 8 (b.rn 0) ++ leBytes 2 t.packed ++ leBytes 2 b.selected.length ++ leBytes 4 t.seq ++
    leBytes 2 t.ring ++ leBytes 6 0 ++ leBytes 4 w1 ++ leBytes 4 w2 ++ leBytes 2 0 ++ leBytes 4 w3 ++ leBytes 2 0 ++
    leBytes 8 s.time ++ leBytes 4 w4 ++ leBytes 4 0)

/-- A batch leaves its sink: its rows are counted (counter 3), and a tagged batch is sampled. -/
def sinkRows (n : Nat) (t : Task) (b : Batch) : EM Unit := do
  doSt (fun s => s.pmcSlc n 3 (some (s.ctxIdent t.ctx)) b.selected.length)
  if t.tagged then
    doSt (fun s => s.batchSample n t b)
    updTask n (fun t => { t with tagged := false })

/-- What EMIT does to one descriptor: the writes, the heap used, and which rows fit. -/
structure EmitOut where
  writes : List (Nat × List Byte)
  bits : List (Nat × Bool)
  heap : Nat
  fits : List Bool

/-- A reference to a string placed at a heap offset (02 R44). -/
def placedRef (len off : Nat) (str : List Byte) : Nat := len + leNat (str.take 4) * 2 ^ 32 + off * 2 ^ 64

/-- Emit the selected cells of a register to a descriptor from a position on. -/
def emitCol (o : OutD) (pos heap0 : Nat) (cells : List (Cell × List Byte)) : EmitOut :=
  (cells.zipIdx).foldl (fun (a : EmitOut) x =>
    let ((c, str), i) := x
    let q := pos + i
    let long := o.ty = .varstr && c.ok && decide (12 < c.strLen)
    let at_ := alignUp a.heap 128
    let ok := decide (q < o.cap) && (!long || decide (at_ + c.strLen ≤ o.heapBytes))
    if !ok then { a with fits := a.fits ++ [false] }
    else
      let v := if long then placedRef c.strLen at_ str else if c.ok then c.v else 0
      { writes := a.writes ++ (if long then [(o.heapBase + at_, str)] else []) ++
          [(o.base + q * o.ty.width, leBytes o.ty.width v)],
        bits := a.bits ++ [(q, c.ok)],
        heap := if long then at_ + c.strLen else a.heap, fits := a.fits ++ [true] })
    ⟨[], [], heap0, []⟩

/-- Join writes at consecutive addresses. -/
def joinWrites : List (Nat × List Byte) → List (Nat × List Byte)
  | [] => []
  | (a, l) :: t =>
    match joinWrites t with
    | (b, m) :: r => if a + l.length = b then (a, l ++ m) :: r else (a, l) :: (b, m) :: r
    | [] => [(a, l)]

/-- Write validity bits; the other bits of their bytes stay. -/
def writeBits (a : Who) (base : Nat) (bits : List (Nat × Bool)) : EM Unit := do
  let bytes := (bits.map (fun b => b.1 / 8)).foldl (fun acc x => if acc.contains x then acc else acc ++ [x]) []
  bytes.forM (fun k => do
    let pa ← xlate a (base + k) true
    let s ← get
    let old := ((s.lineNow monitor (pa / 128)).1.data)[pa % 128]?.getD 0
    let new := (bits.filter (fun b => b.1 / 8 == k)).foldl (fun (v : Nat) b =>
      setBits v (b.1 % 8) (b.1 % 8) (b2n b.2)) old.toNat
    pwrite a.ctx pa [BitVec.ofNat 8 new] (base + k))

/-- One group's part of an EMIT: write every descriptor; rows every descriptor took in full, and whether any was cut. -/
def emitGroup (n : Nat) (c : OpCtx) (t : Task) (b : Batch) (g : Nat) (cols : List (Nat × Nat)) : EM Unit := do
  let s ← get
  let r := ((s.run t.ring t.seq)).getD c.r
  let pos := Tab.get 0 r.groups g
  let sel := b.selected
  let outs ← cols.mapM (fun e => do
    let o := outDOf (nthD r.outs e.1 [])
    match o with
    | none => return (e.1, none)
    | some o =>
      let cells ← sel.mapM (fun i => do
        let x := b.cell e.2 i
        let str ← if o.ty = .varstr && x.ok then strOf n t x else pure []
        return (x, str))
      return (e.1, some (o, emitCol o pos (Tab.get 0 r.heaps e.1) cells)))
  let a := t.who n
  let ws := outs.flatMap (fun x => match x.2 with
    | some (_, w) => joinWrites w.writes
    | none => [])
  ws.forM (fun w => preWrite a w.1 w.2.length)
  outs.forM (fun x => match x.2 with
    | some (o, w) => if bitAt o.flags 0 then w.bits.forM (fun q => preWrite a (o.validBase + q.1 / 8) 1) else pure ()
    | none => pure ())
  ws.forM (fun w => vwrite a w.1 w.2)
  outs.forM (fun x => match x.2 with
    | some (o, w) => if bitAt o.flags 0 then writeBits a o.validBase w.bits else pure ()
    | none => pure ())
  let full := ((List.range sel.length).filter (fun i => outs.all (fun x => match x.2 with
    | some (_, w) => nthD w.fits i false
    | none => true))).length
  doSt (fun s => s.updDesc t.ring t.seq (fun d => { d with r0 := d.r0 + full, run := d.run.map (fun r =>
    { r with
      groups := Tab.put 0 r.groups g (pos + sel.length)
      heaps := outs.foldl (fun h x => match x.2 with
        | some (_, w) => Tab.put 0 h x.1 w.heap
        | none => h) r.heaps
      rows := r.rows + full
      partly := r.partly || full != sel.length }) }))

/-- EMIT (04 R133, R134). -/
def opEmit (n : Nat) (c : OpCtx) (t : Task) (b : Batch) : EM Unit := do
  readRegs n c t
  let cols := c.m.colList c.o.a0 c.o.a1
  let grp (e : Nat × Nat) : Nat := ((outDOf (nthD c.r.outs e.1 [])).map (·.group)).getD 0
  let gs := (cols.map grp).foldl (fun acc g => if acc.contains g then acc else acc ++ [g]) []
  if !b.selected.isEmpty then
    gs.forM (fun g => emitGroup n c t b g (cols.filter (fun e => grp e == g)))
  sinkRows n t b
  opDone n b

/-- A row as a record of EMIT_INLINE (04 R135). -/
def inlineBytes (c : OpCtx) (b : Batch) (regs : List Nat) (i : Nat) : List Byte :=
  let cells := regs.map (fun r => (b.cell r i, (c.p.reg r).ty.width))
  let mask := (cells.zipIdx).foldl (fun m x => if x.1.1.ok then m + 2 ^ x.2 else m) 0
  leBytes (ceilDiv regs.length 8) mask ++ cells.flatMap (fun x => leBytes x.2 (if x.1.ok then x.1.v else 0))

/-- Write bytes of the inline output after the first `used`: to memory, or to a Finxis ring pair's staging. -/
def putInline (n : Nat) (c : OpCtx) (t : Task) (used : Nat) (bytes : List Byte) : EM Unit := do
  let s ← get
  match s.ringPort t.ring with
  | none => do
    preWrite (t.who n) (c.r.outBase + used) bytes.length
    vwrite (t.who n) (c.r.outBase + used) bytes
  | some p =>
    match (s.port p).stage t.ring t.seq with
    | some g => do
      let r ← askSt (fun s => s.stageWrite p (g.base + g.inSize + used) bytes)
      ensure (r == AccRes.ok) r.status 0
    | none => pure ()

/-- EMIT_INLINE (04 R135, 06 R205); a Finxis ring pair's output goes to its staging. -/
def opEmitInline (n : Nat) (c : OpCtx) (t : Task) (b : Batch) : EM Unit := do
  readRegs n c t
  let s ← get
  let recs := b.selected.map (inlineBytes c b ((c.m.regList c.o.a0 c.o.a1).map Prod.fst))
  let sz := ((recs.head?).map (·.length)).getD 1
  let used := ((s.run t.ring t.seq).map (·.inl)).getD 0
  let take := min ((min c.r.outBytes (bitsOf c.o.a5 9 0 * 128) - used) / sz) recs.length
  let bytes := (recs.take take).flatten
  if 0 < take then putInline n c t used bytes
  doSt (fun s => s.updDesc t.ring t.seq (fun d => { d with
    r0 := d.r0 + take
    r1 := d.r1 + bytes.length
    run := d.run.map (fun r => { r with inl := used + bytes.length, rows := r.rows + take, partly := r.partly || take != recs.length }) }))
  sinkRows n t b
  opDone n b

end Sys2Proof.Machine
end

