-- ==== Sys2Proof/Machine/EngTable.lean ====
section
/-! DEFINITION. Hash tables: entries (05 R150), partials and their merging (R166), the aggregation cache (R168), issuing
bucket operations and their visits at the homes (R156 to R161), PROBE's output (R163, R164). -/

namespace Sys2Proof.Machine
open Sys2Proof

/-! ### Entries (05 R150) -/

/-- The type of a code, BOOL for code 0 (COUNT_STAR has no source). -/
def tyD (c : Nat) : Ty := (tyOf c).getD .bool

/-- An entry as bytes. -/
def TDecl.encode (d : TDecl) (e : AggEnt) : List Byte :=
  let bits (l : List Bool) : Nat := (l.zipIdx).foldl (fun m x => if x.1 then m + 2 ^ x.2 else m) 0
  let val (x : AggV × Nat × Nat) : List Byte :=
    -- FIRST and LAST hold the row number after the value
    if d.kind = 2 ∧ (x.2.1 = 7 ∨ x.2.1 = 8) then leBytes (x.2.2 - 8) x.1.v ++ leBytes 8 x.1.rn else leBytes x.2.2 x.1.v
  let fs := if d.kind = 2 then d.funcs else d.valTys.map (fun _ => 0)
  fitB d.entryBytes (leBytes 4 (e.h / 2 ^ 32) ++ leBytes 1 1 ++ leBytes 1 (bits (e.keys.map Prod.fst)) ++
    leBytes 2 (bits (e.vals.map (·.ok))) ++
    (e.keys.zip (d.keyTys.map codeWidth)).flatMap (fun x => leBytes x.2 (if x.1.1 then x.1.2 else 0)) ++
    (e.vals.zip (fs.zip d.valWidths)).flatMap val)

/-- Offsets of fields of given widths from a start. -/
def offsetsOf : Nat → List Nat → List Nat
  | _, [] => []
  | o, w :: t => o :: offsetsOf (o + w) t

/-- Read an entry; `none` when it is not in use. -/
def TDecl.decode (d : TDecl) (b : List Byte) : Option AggEnt :=
  if !bitAt (leAt b 4 1) 0 then none
  else
    let kw := d.keyTys.map codeWidth
    let vw := d.valWidths
    let fs := if d.kind = 2 then d.funcs else d.valTys.map (fun _ => 0)
    some {
      h := leAt b 0 4 * 2 ^ 32
      keys := ((offsetsOf 8 kw).zip kw).zipIdx.map (fun x => (bitAt (leAt b 5 1) x.2, leAt b x.1.1 x.1.2))
      vals := (((offsetsOf (8 + d.keyBytes) vw).zip vw).zip fs).zipIdx.map (fun x =>
        let ((o, w), f) := x.1
        let ok := bitAt (leAt b 6 2) x.2
        if f = 7 ∨ f = 8 then ⟨ok, leAt b o (w - 8), leAt b (o + w - 8) 8⟩ else ⟨ok, leAt b o w, 0⟩) }

/-- Equal keys (05 R157). -/
def TDecl.sameKey (d : TDecl) (a b : AggEnt) : Bool :=
  a.h / 2 ^ 32 == b.h / 2 ^ 32 && a.keys.map Prod.fst == b.keys.map Prod.fst &&
    (((a.keys.zip b.keys).zip d.keyTys).all (fun x =>
      !x.1.1.1 || normVal (tyD x.2) x.1.1.2 == normVal (tyD x.2) x.1.2.2))

/-- Entries of a bucket line by index. -/
def TDecl.slotsOf (d : TDecl) (line : List Byte) : List (Option AggEnt) :=
  (List.range (128 / d.entryBytes)).map (fun j => d.decode (sliceB line (d.entryBytes * j) d.entryBytes))

/-- A line with entry `j` written. -/
def TDecl.setEnt (d : TDecl) (line : List Byte) (j : Nat) (e : AggEnt) : List Byte :=
  patchB (fitB 128 line) (d.entryBytes * j) (d.encode e)

/-! ### Partials (05 R166) -/

/-- The state type of a SUM. -/
def sumTy (c : Nat) : Ty := tyD (aggResult 3 c)

/-- A partial made from one row. -/
def partialOf (f code : Nat) (c : Cell) (rn : Nat) : AggV :=
  let ty := tyD code
  if f = 1 then ⟨true, 1, 0⟩
  else if !c.ok then ⟨false, 0, 0⟩
  else match f with
    | 2 => ⟨true, 1, 0⟩
    | 3 => if ty.cls = 4 then ⟨true, fConv ty.fmt f64 c.v, 0⟩ else ⟨true, (sumTy code).pat (ty.int c.v), 0⟩
    | 6 =>
      -- the square of an integer is exact before it is converted
      if ty.cls = 4 then
        let x := fConv ty.fmt f64 c.v
        ⟨true, fMul f64 x x, 0⟩
      else ⟨true, fOfInt f64 (ty.int c.v * ty.int c.v), 0⟩
    | 7 | 8 => ⟨true, c.v, rn⟩
    | _ => ⟨true, c.v, 0⟩

/-- Merge a partial into a state. -/
def mergeV (f ovf code : Nat) (a b : AggV) : Except RowErr AggV :=
  let ty := tyD code
  if !b.ok then .ok a
  else if !a.ok then .ok b
  else match f with
    | 1 | 2 => .ok ⟨true, (a.v + b.v) % 2 ^ 64, 0⟩
    | 3 =>
      let t := sumTy code
      if t.cls = 4 then .ok ⟨true, fAdd f64 a.v b.v, 0⟩
      else if t.isDec then (fitDec t ovf (t.int a.v + t.int b.v)).map (fun i => ⟨true, t.pat i, 0⟩)
      else (fitInt t ovf (t.int a.v + t.int b.v)).map (fun v => ⟨true, v, 0⟩)
    | 4 => .ok (if cmpVal ty 0 0 false (Cell.of b.v) (Cell.of a.v) = .lt then b else a)
    | 5 => .ok (if cmpVal ty 0 0 false (Cell.of b.v) (Cell.of a.v) = .gt then b else a)
    | 6 => .ok ⟨true, fAdd f64 a.v b.v, 0⟩
    | 7 => .ok (if b.rn < a.rn then b else a)
    | 8 => .ok (if a.rn < b.rn then b else a)
    | _ => .ok a

/-- Merge every state of an entry. -/
def TDecl.mergeEnt (d : TDecl) (ovf : List Nat) (a b : AggEnt) : Except RowErr AggEnt := do
  let vs ← ((a.vals.zip b.vals).zipIdx).mapM (fun x =>
    mergeV (nthD d.funcs x.2 0) (nthD ovf x.2 0) (nthD d.valTys x.2 0) x.1.1 x.1.2)
  return { a with vals := vs }

/-- What an aggregate delivers (05 R166). -/
def deliverV (f : Nat) (a : AggV) : Cell :=
  if f = 1 ∨ f = 2 then Cell.of a.v else if a.ok then Cell.of a.v else Cell.null

/-! ### Issuing bucket operations (05 R155, R156) -/

/-- Spill partition of a hash. -/
def TDecl.part (d : TDecl) (h : Nat) : Nat := if d.pbits = 0 then 0 else bitsOf h 31 (32 - d.pbits)

/-- Requests a flit carries (05 R160). -/
def TDecl.perFlit (d : TDecl) (kind : BKind) : Nat :=
  max 1 (min 8 (128 / (8 + d.keyBytes + (if kind = .probe then 0 else d.valBytes))))

/-- The flit a slice's next request to a home joins, `per` requests filling one: the flit being gathered, or a new one;
a full flit leaves (05 R160). -/
def Eng.flitFor (g : Eng) (n home per : Nat) : Nat × Eng :=
  match g.gather.find? (fun x => x.1 == n && x.2.1 == home) with
  | some x =>
    let rest := g.gather.erase x
    (x.2.2.1, { g with gather := if per ≤ x.2.2.2 + 1 then rest else rest ++ [(n, home, x.2.2.1, x.2.2.2 + 1)] })
  | none => (g.flits, { g with
      flits := g.flits + 1
      gather := if per ≤ 1 then g.gather else g.gather ++ [(n, home, g.flits, 1)] })

/-- Issue an operation: translate the visit sequence and the anchor, and send the request in a flit (05 R156, R160). -/
def issue (n : Nat) (c : OpCtx) (t : Task) (oper decl : Nat) (kind : BKind) (ovf : List Nat) (e : AggEnt) (pos : Nat) :
    EM Unit := do
  let d := tDeclOf (c.m.decl decl)
  let a := t.who n
  let wr := kind != .probe
  let i0 := e.h % 2 ^ d.linesLog2
  let vas := (List.range d.maxProbe).map (fun k => d.base + 128 * ((i0 + k) % 2 ^ d.linesLog2))
  let lines ← vas.mapM (fun va => xlate a va wr)
  let anchorVa := d.anchor + 128 * d.part e.h
  let anchor ← xlate a anchorVa wr
  doSt (fun s =>
    let (fl, g) := s.eng.flitFor n (s.homeFor (agentStop n) (lines.headD 0 / 128)) (d.perFlit kind)
    s.eng' (fun _ => { g with
      opn := g.opn + 1
      bops := g.bops ++ [{ id := g.opn, kind := kind, ring := t.ring, seq := t.seq, pipe := t.pipe, oper := oper, slice := n,
                           task := t.id, decl := decl, ent := e, ovf := ovf, lines := lines, vas := vas, anchor := anchor,
                           anchorVa := anchorVa, flit := fl, line0 := i0, st := .line 0, pos := pos, found := [],
                           status := 0, addr := 0 }] }))

/-- Keys of a row. -/
def keyCells (b : Batch) (regs : List Nat) (i : Nat) : List (Bool × Nat) :=
  regs.map (fun r => let x := b.cell r i; (x.ok, x.v))

/-- The hash a row carries: 0 where there are no keys. -/
def hashAt (c : OpCtx) (b : Batch) (i : Nat) : Nat := if c.o.a1 = 0 then 0 else (b.cell c.o.a5 i).v

/-- Registers of the operator's key list. -/
def OpCtx.keys (c : OpCtx) : List Nat := (c.m.regList c.o.a0 c.o.a1).map Prod.fst

/-- BUILD (05 R162). -/
def opBuild (n : Nat) (c : OpCtx) (t : Task) (b : Batch) : EM Unit := do
  readRegs n c t
  let pays := (c.m.regList c.o.a2 c.o.a3).map Prod.fst
  b.selected.forM (fun i => do
    let ks := keyCells b c.keys i
    if ks.all Prod.fst then
      issue n c t t.oper c.o.a4 (.insert (bitAt c.o.opt 0)) []
        ⟨hashAt c b i, ks, pays.map (fun r => let x := b.cell r i; ⟨x.ok, x.v, 0⟩)⟩ i)
  sinkRows n t b
  opDone n b

/-- Output rows of a PROBE for one position: payload lists, `none` for a row without payload. -/
def probeRows (kind : Nat) (m : List (List (Bool × Nat))) : List (Option (List (Bool × Nat))) :=
  match kind with
  | 0 => m.map some
  | 1 => if m.isEmpty then [] else [none]
  | 2 => if m.isEmpty then [none] else []
  | _ => if m.isEmpty then [none] else m.map some

/-- Response flits of a probe (05 R160), each entry with 8 bytes beside its `v` payload bytes; the last carries the end
mark. The size of a response entry is a design choice (notes/assumptions/98.md). -/
def respFlits (v found : Nat) : Nat := max 1 (ceilDiv (found * (8 + v)) 128)

/-- Output rows a PROBE can produce: those of the selected positions before the first whose probe has not ended. -/
def ProbeSt.rows (p : ProbeSt) (kind : Nat) : List (Nat × Option (List (Bool × Nat))) :=
  (p.src.selected.takeWhile (fun i => !p.out.contains i)).flatMap (fun i =>
    (probeRows kind (Tab.get [] p.found i)).map (fun x => (i, x)))

/-- Bytes of the match staging buffer in use (05 R164): the response flits of probes that have ended and whose rows do not
all stand in the batch PROBE is filling: those after a probe that has not ended, and those beyond its 1,024 positions. -/
def ProbeSt.staged (p : ProbeSt) (kind v : Nat) : Nat :=
  let before := p.src.selected.takeWhile (fun i => !p.out.contains i)
  let left := ((p.rows kind).drop (p.made + 1024)).map Prod.fst
  (p.found.map (fun e => if left.contains e.1 || !before.contains e.1 then 128 * respFlits v e.2.length else 0)).sum

/-- Join kind of a PROBE, and the payload bytes of one reported entry. -/
def OpCtx.joinKind (c : OpCtx) : Nat := c.o.opt % 4
/-- Payload bytes of an entry of the operator's table. -/
def OpCtx.payBytes (c : OpCtx) : Nat := (tDeclOf (c.m.decl c.o.a4)).valBytes

/-- The bytes of a batch in the frame of the operators: rows, selection and every register. -/
def OpCtx.batchRanges (c : OpCtx) (t : Task) (b : Batch) : List (Nat × Nat) :=
  selRanges t.frame ++ rowRanges t.frame 0 b.rows.length ++
    b.regs.keys.flatMap (fun r => regRanges t.frame r (c.p.reg r).ty 0 b.rows.length)

/-- PROBE sends the probes of its next positions, 64 at a time; while the staging buffer is full it sends none (05 R163,
R164). That a PROBE command sends 64 is a design choice (notes/assumptions/98.md). -/
def probeSend (n : Nat) (c : OpCtx) (t : Task) (p : ProbeSt) : EM ProbeSt := do
  if 65536 ≤ p.staged c.joinKind c.payBytes then return p
  if !p.todo.isEmpty then cbRead n t.ctx false (c.batchRanges t p.src) 0xFFFF
  (p.todo.take 64).forM (fun i =>
    issue n c t p.oper c.o.a4 .probe [] ⟨hashAt c p.src i, keyCells p.src c.keys i, []⟩ i)
  sealFlits n
  return { p with todo := p.todo.drop 64 }

/-- The batch that rows of a PROBE make (05 R163, R164). -/
def probeBatch (c : OpCtx) (b : Batch) (rows : List (Nat × Option (List (Bool × Nat)))) : Batch :=
  (c.m.colList c.o.a2 c.o.a3).foldl (fun (o : Batch) e =>
    o.put e.2 (rows.map (fun x => match x.2 with
      | some p => let v := nthD p e.1 (false, 0); if v.1 then Cell.of v.2 else Cell.null
      | none => Cell.null))) (b.pickRows (rows.map Prod.fst))

/-- A batch is written into its frame: rows, selection and every register. -/
def writeBatch (n : Nat) (c : OpCtx) (t : Task) (b : Batch) : EM Unit := cbStore n t.ctx false (c.batchRanges t b) 0xFFFF

/-- PROBE `p`, whose further PROBEs are `rest`, produces a batch when it can fill 1,024 positions or its probes have all
ended; what is beyond follows in continuation batches (05 R164). -/
def probeMake (n : Nat) (c : OpCtx) (t : Task) (p : ProbeSt) (rest : List ProbeSt) : EM Unit := do
  let rows := (p.rows c.joinKind).drop p.made
  let ended := p.out.isEmpty
  if 1024 ≤ rows.length || ended then do
    let b := probeBatch c p.src (rows.take 1024)
    cbRead n t.ctx false (c.batchRanges t p.src) 0xFFFF
    writeBatch n c t b
    updTask n (fun t => { t with
      batch := some b, oper := p.oper + 1
      probes := if ended && decide (rows.length ≤ 1024) then rest else { p with made := p.made + 1024 } :: rest })
  else updTask n (fun t => { t with batch := none, oper := p.oper, probes := p :: rest })

/-- PROBE takes a batch (05 R163): rows with a null key are not probed. -/
def opProbe (n : Nat) (c : OpCtx) (t : Task) (b : Batch) : EM Unit := do
  readRegs n c t
  let l := b.selected.filter (fun i => (keyCells b c.keys i).all Prod.fst)
  let p ← probeSend n c t ⟨t.oper, b, l, l, [], 0⟩
  probeMake n c t p t.probes

/-- PROBE goes on with the batch it has (05 R164). -/
def probeOn (n : Nat) (c : OpCtx) (t : Task) : EM Unit :=
  match t.probes with
  | p :: rest => do
    let p ← probeSend n c t p
    probeMake n c t p rest
  | [] => pure ()

/-! ### Aggregation in the slice (05 R168, R169, R171) -/

/-- Modes of the aggregates of an operator. -/
def OpCtx.ovfs (c : OpCtx) : List Nat := (c.m.aggList c.o.a2 c.o.a3).map (·.ovf)

/-- The partial of a row. -/
def rowPartial (c : OpCtx) (d : TDecl) (b : Batch) (i : Nat) : AggEnt :=
  let ags := c.m.aggList c.o.a2 c.o.a3
  ⟨hashAt c b i, keyCells b c.keys i,
    (ags.zip d.valTys).map (fun x => partialOf x.1.f x.2 (b.cell x.1.reg i) (b.rn i))⟩

/-- Take a spill chunk for a run's task (05 R172). -/
def takeChunk (t : Task) : EM Nat := do
  let r ← askSt (fun s => s.allocChunk t.ctx t.ring t.seq)
  match r with
  | some pa => return pa
  | none => fail 0x23 0

/-- Where a run keeps the level-0 spill of a pipeline's partition. -/
def l0Key (pipe part : Nat) : Nat := 64 * pipe + part

/-- Append a level-0 partial to its partition's spill chunks (05 R171), which hold records from byte 0 on and no header
line (DESIGN CHOICE, notes/assumptions/98.md). -/
def spillPartial (t : Task) (d : TDecl) (e : AggEnt) : EM Unit := do
  let s ← get
  let p := l0Key t.pipe (d.part e.h)
  let (cs, k) := Tab.get ([], 0) (((s.run t.ring t.seq).map (·.l0)).getD []) p
  let (cs, k) ← if cs.isEmpty || decide (65536 / d.entryBytes ≤ k) then do
      let pa ← takeChunk t
      pure (cs ++ [pa], 0)
    else pure (cs, k)
  doSt (fun s => s.updRun t.ring t.seq (fun r => { r with l0 := Tab.put ([], 0) r.l0 p (cs, k + 1) }))
  pwrite t.ctx ((cs.getLast?).getD 0 + d.entryBytes * k) (d.encode e) 0

/-- Send a partial out of the slice: a merge request, or spill at level 0. -/
def sendPartial (n : Nat) (c : OpCtx) (t : Task) (oper decl : Nat) (ovf : List Nat) (e : AggEnt) : EM Unit :=
  if c.m.isa = 0 then spillPartial t (tDeclOf (c.m.decl decl)) e
  else issue n c t oper decl .merge ovf e 0

/-- A task reads a line of the aggregation cache. -/
def aggRead (n : Nat) (t : Task) (ln : Nat) : EM Unit := cbRead n t.ctx true (aggRange ln) 0xFFFF

/-- A task writes a line of the aggregation cache. -/
def aggPut (n ln : Nat) (l : AggLine) : EM Unit :=
  doSt (fun s => (s.setSlice n { s.slice n with agg := Tab.ins (s.slice n).agg ln l }).cbWrite n true (aggRange ln))

/-- One row into the aggregation cache (05 R168). A line's victim pointer starts at 0 with each task (DESIGN CHOICE,
notes/assumptions/98.md). -/
def aggRow (n : Nat) (c : OpCtx) (t : Task) (d : TDecl) (e : AggEnt) (rn : Nat) : EM Unit := do
  let ln := e.h % 4096
  aggRead n t ln
  let s ← get
  let line := Tab.get ⟨[], 0⟩ (s.slice n).agg ln
  let setLine (l : AggLine) : EM Unit := aggPut n ln l
  match line.ents.findIdx? (fun x => d.sameKey x e && x.h == e.h) with
  | some i =>
    match d.mergeEnt c.ovfs (nthD line.ents i e) e with
    | .ok x => do
      setLine { line with ents := setNth line.ents i x }
      doSt (fun s => s.pmcSlc n 8 (some (s.ctxIdent t.ctx)) 1)
    | .error _ => throw (.err 0x21 rn 0xFFFF)
  | none =>
    if line.ents.length < 128 / d.entryBytes then setLine { line with ents := line.ents ++ [e] }
    else do
      sendPartial n c t t.oper c.o.a4 c.ovfs (nthD line.ents line.victim e)
      doSt (fun s => s.pmcSlc n 9 (some (s.ctxIdent t.ctx)) 1)
      setLine { ents := setNth line.ents line.victim e, victim := (line.victim + 1) % (128 / d.entryBytes) }

/-- AGG_LOCAL. -/
def opAggLocal (n : Nat) (c : OpCtx) (t : Task) (b : Batch) : EM Unit := do
  readRegs n c t
  let d := tDeclOf (c.m.decl c.o.a4)
  b.selected.forM (fun i => aggRow n c t d (rowPartial c d b i) (b.rn i))
  sinkRows n t b
  opDone n b

/-- AGG_HOME. -/
def opAggHome (n : Nat) (c : OpCtx) (t : Task) (b : Batch) : EM Unit := do
  readRegs n c t
  let d := tDeclOf (c.m.decl c.o.a4)
  b.selected.forM (fun i => issue n c t t.oper c.o.a4 .merge c.ovfs (rowPartial c d b i) 0)
  sinkRows n t b
  opDone n b

/-- Every entry of the aggregation cache leaves it at the end of a task (03 R74). -/
def flushAgg (n : Nat) (c : OpCtx) (t : Task) (oper decl : Nat) (ovf : List Nat) : EM Unit := do
  let s ← get
  (s.slice n).agg.forM (fun l => do
    if !l.2.ents.isEmpty then aggRead n t l.1
    l.2.ents.forM (fun e => sendPartial n c t oper decl ovf e))
  sealFlits n
  doSt (fun s => s.setSlice n { s.slice n with agg := [] })

/-! ### Visits at the homes (05 R157 to R161) -/

/-- A bucket operation by number. -/
def State.bop (s : State) (id : Nat) : Option BOp := s.eng.bops.find? (fun b => b.id == id)

/-- Replace a bucket operation. -/
def State.setBop (s : State) (b : BOp) : State :=
  s.eng' (fun e => { e with bops := e.bops.map (fun x => if x.id == b.id then b else x) })

/-- Context of a bucket operation. -/
def State.bopCtx (s : State) (b : BOp) : Nat := ((s.desc b.ring b.seq).map (·.ctx)).getD 0

/-- Declaration a bucket operation works under. -/
def State.bopDecl (s : State) (b : BOp) : TDecl :=
  tDeclOf ((s.img (((s.run b.ring b.seq).map (·.slot)).getD 0)).decl b.decl)

/-- What a home does to one line. -/
structure Visit where
  /-- the line to write, if it changes -/
  line : Option (List Byte)
  /-- entries reported -/
  found : List (List (Bool × Nat))
  /-- the request is done here -/
  ends : Bool
  /-- status, 0 for none -/
  status : Nat
  deriving DecidableEq, Repr

/-- The work on a line of entries (05 R157): `room` lets a new entry be written. -/
def TDecl.visit (d : TDecl) (b : BOp) (line : List Byte) (room : Bool) : Visit :=
  let ents := d.slotsOf line
  let same := ents.findIdx? (fun e => match e with
    | some x => d.sameKey x b.ent
    | none => false)
  let free := ents.findIdx? (·.isNone)
  let place : Visit := match free with
    | some j => if room then ⟨some (d.setEnt line j b.ent), [], true, 0⟩ else ⟨none, [], false, 0⟩
    | none => ⟨none, [], false, 0⟩
  match b.kind with
  | .insert distinct => if distinct && same.isSome then ⟨none, [], true, 0⟩ else place
  | .probe =>
    let hits := ents.filterMap (fun e => match e with
      | some x => if d.sameKey x b.ent then some (x.vals.map (fun v => (v.ok, v.v))) else none
      | none => none)
    ⟨none, hits, room && free.isSome, 0⟩
  | .merge =>
    match same with
    | some j =>
      match (nthD ents j none).map (fun x => d.mergeEnt b.ovf x b.ent) with
      | some (.ok x) => ⟨some (d.setEnt line j x), [], true, 0⟩
      | _ => ⟨none, [], true, 0x21⟩
    | none => place

/-- Read a line at its home for a context (05 R158, 10 R294): status and data. -/
def State.homeRead (s : State) (ctx pa : Nat) : Nat × List Byte × State :=
  let s := s.homePull (s.ctxIdent ctx) pa false
  let (r, s) := s.readPa (s.ctxIdent ctx) pa 128
  if r.res != AccRes.ok then (r.res.status, zeroLine, s) else if r.poison then (0x12, zeroLine, s) else (0, r.bytes, s)

/-- Write a line at its home for a context (05 R158, 10 R294): status. -/
def State.homeWrite (s : State) (ctx pa : Nat) (l : List Byte) : Nat × State :=
  let s := s.homePull (s.ctxIdent ctx) pa true
  let (r, s) := s.writePa (s.ctxIdent ctx) pa l
  (r.status, s)

/-- End a bucket operation with a status and the address of the line it failed at. -/
def State.bopEnd (s : State) (b : BOp) (status addr : Nat) : State :=
  s.setBop { b with st := .done, status := status, addr := if status = 0x11 ∨ status = 0x12 then addr else 0 }

/-- The home stop a bucket operation's slice sends to for an address (10 R288, 11 R320). -/
def State.bopHome (s : State) (b : BOp) (pa : Nat) : Nat := s.homeFor (agentStop b.slice) (pa / 128)

/-- One visit to bucket line `k` of the sequence (05 R157). -/
def State.visitLine (s : State) (b : BOp) (k : Nat) : State :=
  let ctx := s.bopCtx b
  let d := s.bopDecl b
  let pa := nthD b.lines k 0
  let s := s.pmcStop (s.bopHome b pa) 6 (some (s.ctxIdent ctx))
  let (st, line, s) := s.homeRead ctx pa
  let va := nthD b.vas k 0
  if st != 0 then s.bopEnd b st va
  else
    let v := d.visit b line true
    let (wst, s) := match v.line with
      | some l => s.homeWrite ctx pa l
      | none => (0, s)
    let b := { b with found := b.found ++ v.found }
    if wst != 0 then s.bopEnd b wst va
    else if v.ends then s.bopEnd b v.status 0
    else if k + 1 < b.lines.length then s.setBop { b with st := .line (k + 1) }
    else (s.setBop { b with st := .anchor }).pmcStop (s.bopHome b b.anchor) 7 (some (s.ctxIdent ctx))

/-- Whether the request flit of an operation has left its slice (05 R160). -/
def State.bopSent (s : State) (b : BOp) : Bool := !s.eng.gather.any (fun g => g.2.2.1 == b.flit)

/-- Visit for an operation of a kind at a bucket line, once its request has left its slice. -/
def State.bucketStep (s : State) (id : Nat) (kind : BKind → Bool) : State :=
  match s.bop id with
  | some b =>
    match b.st with
    | .line k => if kind b.kind && s.bopSent b && s.linesFree (nthD b.lines k 0) 128 then s.visitLine b k else s
    | _ => s
  | none => s

/-- Link a spill chunk from the last one of its partition, if there is one: the status of the write. -/
def State.linkChunk (s : State) (ctx last pa : Nat) : Nat × State :=
  if last = 0 then (0, s)
  else
    let (r, s) := s.writePa (s.ctxIdent ctx) last (leBytes 8 pa)
    (r.status, s)

/-- Write a new spill chunk's first line and entry, link it and count it in the anchor; the anchor line as read. -/
def State.fillChunk (s : State) (b : BOp) (anchor : List Byte) (pa : Nat) : State :=
  let ctx := s.bopCtx b
  let d := s.bopDecl b
  let s := s.updRun b.ring b.seq (fun r => { r with anchors := if r.anchors.contains b.anchor then r.anchors else r.anchors ++ [b.anchor] })
  let r1 := s.homeWrite ctx pa (fitB 128 (leBytes 8 0 ++ leBytes 4 2))
  let r2 := r1.2.homeWrite ctx (pa + 128) (d.setEnt zeroLine 0 b.ent)
  let r3 := r2.2.linkChunk ctx (leAt anchor 16 8) pa
  let a := patchB (patchB anchor 16 (leBytes 8 pa)) 24 (leBytes 4 (leAt anchor 24 4 + 1))
  let a := if leAt anchor 8 8 = 0 then patchB a 8 (leBytes 8 pa) else a
  let r4 := r3.2.homeWrite ctx b.anchor a
  r4.2.bopEnd b ([r1.1, r2.1, r3.1, r4.1].foldl max 0) (if r4.1 = 0 then 0 else b.anchorVa)

/-- A bucket operation takes a new spill chunk (05 R159, R172). -/
def State.newChunk (s : State) (b : BOp) (anchor : List Byte) : State :=
  match s.allocChunk (s.bopCtx b) b.ring b.seq with
  | (none, s) => s.bopEnd b 0x23 0
  | (some pa, s) => s.fillChunk b anchor pa

/-- The anchor home takes an overflowed operation (05 R159, R173): one at a time for each partition. -/
def State.anchorStep (s : State) (b : BOp) : State :=
  let ctx := s.bopCtx b
  let s := s.pmcStop (s.bopHome b b.anchor) 6 (some (s.ctxIdent ctx))
  let (st, a, s) := s.homeRead ctx b.anchor
  let fl := leAt a 0 1
  let first := leAt a 8 8
  if st != 0 then s.bopEnd b st b.anchorVa
  else if bitAt fl 1 then s.bopEnd b 0x23 0
  else if b.kind == .probe && (!bitAt fl 0 || first == 0) then s.bopEnd b 0 0
  else
    let a := patchB a 0 [BitVec.ofNat 8 (fl ||| 1)]
    let (wst, s) := if bitAt fl 0 then (0, s) else s.homeWrite ctx b.anchor a
    if wst != 0 then s.bopEnd b wst b.anchorVa
    else if first = 0 then s.newChunk b a
    else if b.kind == .insert false then s.setBop { b with st := .chunk (leAt a 16 8) 1 false }
    else s.setBop { b with st := .chunk first 1 true }

/-- One visit to a line of a spill chunk (05 R159). -/
def State.chunkStep (s : State) (b : BOp) (pa ln : Nat) (search : Bool) : State :=
  let ctx := s.bopCtx b
  let d := s.bopDecl b
  let s := s.pmcStop (s.bopHome b pa) 6 (some (s.ctxIdent ctx))
  let (e0, hd, s) := s.homeRead ctx pa
  let (e1, a, s) := s.homeRead ctx b.anchor
  let used := leAt hd 8 4
  -- a spill chunk has no virtual address: ERR_ADDR is 0 for one
  if e0 != 0 || e1 != 0 then s.bopEnd b (if e0 != 0 then e0 else e1) (if e0 != 0 then 0 else b.anchorVa)
  else if ln < used then
    let (e2, line, s) := s.homeRead ctx (pa + 128 * ln)
    if e2 != 0 then s.bopEnd b e2 0
    else
      let v := d.visit b line (!search)
      let (e3, s) := match v.line with
        | some l => s.homeWrite ctx (pa + 128 * ln) l
        | none => (0, s)
      let b := { b with found := b.found ++ v.found }
      if e3 != 0 then s.bopEnd b e3 0
      else if v.ends then
        if !search && v.line.isSome then
          let (e4, s) := s.homeWrite ctx b.anchor (patchB a 24 (leBytes 4 (leAt a 24 4 + 1)))
          s.bopEnd b e4 b.anchorVa
        else s.bopEnd b v.status 0
      else s.setBop { b with st := .chunk pa (ln + 1) search }
  else if search then
    let next := leAt hd 0 8
    if next != 0 then s.setBop { b with st := .chunk next 1 true }
    else if b.kind == .probe then s.bopEnd b 0 0
    else s.setBop { b with st := .chunk (leAt a 16 8) 1 false }
  else if used < 512 then
    -- the next line of the last chunk is taken into use
    let (e2, s) := s.homeWrite ctx (pa + 128 * used) (d.setEnt zeroLine 0 b.ent)
    let (e3, s) := s.homeWrite ctx pa (patchB hd 8 (leBytes 4 (used + 1)))
    let (e4, s) := s.homeWrite ctx b.anchor (patchB a 24 (leBytes 4 (leAt a 24 4 + 1)))
    s.bopEnd b ([e2, e3, e4].foldl max 0) (if e4 = 0 then 0 else b.anchorVa)
  else s.newChunk b a

/-- Whether another operation works on the partition's chunks. -/
def State.anchorBusy (s : State) (b : BOp) : Bool :=
  s.eng.bops.any (fun x => x.id != b.id && x.anchor == b.anchor && (match x.st with
    | .chunk _ _ _ => true
    | _ => false))

/-- An error of a bucket operation ends the task that issued it, or fixes the run's status when that task has ended. -/
def State.bopError (s : State) (b : BOp) : State :=
  match (s.slice b.slice).task with
  | some t =>
    if t.id = b.task then
      s.setTask b.slice { t with stall := none, fail := match t.fail with
        | some f => some f
        | none => some ⟨b.status, 0, taskDetail b.pipe b.oper 0xFFFF, b.addr⟩ }
    else s.fixRun b.ring b.seq ⟨b.status, 0, taskDetail b.pipe b.oper 0xFFFF, b.addr⟩
  | none => s.fixRun b.ring b.seq ⟨b.status, 0, taskDetail b.pipe b.oper 0xFFFF, b.addr⟩

/-- Take a bucket operation off the books. -/
def State.dropBop (s : State) (id : Nat) : State := s.eng' (fun e => { e with bops := e.bops.filter (fun b => b.id != id) })

end Sys2Proof.Machine
end

