-- ==== Sys2Proof/Machine/EngScan.lean ====
section
/-! DEFINITION. Scan fronts and ingest: page requests, page checks, survivors, the chain, fetch scans (02 R36, R62 to
R64, 03 R76 to R80, 04 R129 to R131), raw arrays, tables and inline input, and releasing batches. -/

namespace Sys2Proof.Machine
open Sys2Proof

/-! ### Scan fronts -/

/-- The scan front of an address (03 R77): memory channel 0 to 15, or 16 + p for CXL port p. -/
def State.frontOf (s : State) (pa : Nat) : Nat :=
  match s.paKind pa with
  | .cxl j => 16 + j / 8
  | _ => s.chanOf pa

/-- Count event `k` of a scan front. -/
def State.pmcFront (s : State) (f k : Nat) (who : Ident) (n : Nat) : State :=
  if f < 16 then s.pmcAdd (Reg.MCH_PMF f) (Reg.MCH_PMC f k) (some who) n
  else s.pmcAdd (Reg.PRT_PMF (f - 16)) (Reg.PRT_PMC (f - 16) k) (some who) n

/-- Record a page-guard outcome (02 R527). -/
def State.guardRecord (s : State) (front pa : Nat) (ue : Bool) (who : Ident) : State :=
  if front < 16 then
    let s := s.satF (Reg.MCH_CE_COUNT front) (if ue then F.MCH_CE_COUNT_UE else F.MCH_CE_COUNT_CE) 1
    s.recordMem front ue 4 0 pa
  else s.recordErr (.pkg 4) ⟨if ue then 2 else 1, who, 4, false, pa, 0, 0⟩

/-- The input column at a position of an operator's list. -/
def OpCtx.col (c : OpCtx) (k : Nat) : Option ColD :=
  match (c.m.colList c.o.a0 c.o.a1)[k]? with
  | some e => colDOf (nthD c.r.cols e.1 [])
  | none => none

/-- The register at a position of an operator's list. -/
def OpCtx.colReg (c : OpCtx) (k : Nat) : Nat := (nthD (c.m.colList c.o.a0 c.o.a1) k (0, 0)).2

/-- Columns an operator names. -/
def OpCtx.ncols (c : OpCtx) : Nat := c.o.a1

/-! ### Pages (02 R62, R63) -/

/-- One line of a page for a scan: as an earlier check read it, or now. A refusal names the line's virtual address
(01 R21). -/
def pageLine (ctx : Nat) (pb : PageBuf) (k : Nat) : EM (List Byte × Bool) :=
  match Tab.look pb.lines k with
  | some x => pure x
  | none => do
    let r ← askSt (fun s =>
      let r := s.readLine (s.ctxIdent ctx) (pb.pa / 128 + k)
      ((r.1, r.2.1), r.2.2))
    if r.1 = .ok then return (fitB 128 r.2.data, r.2.poison) else fail 0x11 (pb.va + 128 * k)

/-- Lines of a page, poison among them ending the task with the page's physical address (check 1). -/
def pageLines (ctx : Nat) (pb : PageBuf) (ks : List Nat) : EM (List (Nat × List Byte)) := do
  let l ← ks.mapM (fun k => do
    let x ← pageLine ctx pb k
    return (k, x))
  ensure (!l.any (fun x => x.2.2)) 0x12 pb.pa
  return l.map (fun x => (x.1, x.2.1))

/-- Put lines into a page of zeros. -/
def pageOf (l : List (Nat × List Byte)) : List Byte :=
  (List.range 512).flatMap (fun k => match l.find? (fun x => x.1 == k) with
    | some x => x.2
    | none => zeroLine)

/-- Line numbers that hold bytes `lo` to `hi − 1`. -/
def linesFor (lo hi : Nat) : List Nat := (List.range (ceilDiv hi 128 - lo / 128)).map (· + lo / 128)

/-- Whether the header and footer agree with the column (check 3); `p` is the page's index. -/
def headerOk (c : ColD) (page : List Byte) (p : Nat) : Bool :=
  let h (o n : Nat) := leAt page o n
  h 0 4 == 0x50435246 && h 4 1 == 1 && h 65408 4 == 0x46435246 && h 65412 1 == c.guardT && h 7 1 == c.guardT &&
    (tyOf (h 5 1)) == some c.ty && h 6 1 == c.ratioLog2 && h 8 2 == c.slotBytes && h 10 2 == c.slots &&
    h 14 2 == c.cap && h 18 2 == c.dictOff && h 20 1 == c.scale && h 32 8 == p * c.slots * 1024 &&
    decide (h 12 2 ≤ c.slots) && decide (h 16 2 ≤ c.cap)

/-- Slot header `k` of a page. -/
def slotHdr (page : List Byte) (k : Nat) : SlotH := slotHOf (sliceB page (128 + 16 * k) 16)

/-- A dictionary entry of a page. -/
def dictEnt (c : ColD) (page : List Byte) (k : Nat) : Nat := leAt page (c.dictOff + k * c.ty.width) c.ty.width

/-- Lines of the slot header entries a page without a guard is read by: those of the blocks, and those at and above
SLOTS_USED, which must be EMPTY (02 R62, R63). -/
def tableLines (c : ColD) (page : List Byte) (blocks : List Nat) : List Nat :=
  (List.range (ceilDiv (16 * c.slots) 128)).filterMap (fun j =>
    if (List.range 8).any (fun k => decide (8 * j + k < c.slots) &&
        (blocks.contains (8 * j + k) || decide (leAt page 12 2 ≤ 8 * j + k))) then some (j + 1) else none)

/-- Whether slot `k`'s header is well-formed and, at or above SLOTS_USED, EMPTY (02 R63, check 4). -/
def slotOk (c : ColD) (page : List Byte) (k : Nat) : Bool :=
  (slotHdr page k).wf c.ty (leAt page 16 2) && (decide (k < leAt page 12 2) || (slotHdr page k).enc == 0)

/-- A list without its repeats. -/
def once (l : List Nat) : List Nat := l.foldl (fun acc x => if acc.contains x then acc else acc ++ [x]) []

/-- Lines of the payloads of blocks held in their slots (02 R62). -/
def payloadLines (c : ColD) (page : List Byte) (blocks : List Nat) : List Nat :=
  once (blocks.flatMap (fun k =>
    let h := slotHdr page k
    if h.enc = 0 ∨ h.enc = 0xE ∨ !slotOk c page k then []
    else linesFor (c.slotOff k) (c.slotOff k + min c.slotBytes (bodyBytes c.ty h))))

/-- Whether the inner header of a heap record agrees with its escape header (02 R53). -/
def innerOk (c : ColD) (used : Nat) (h i : SlotH) : Bool :=
  i.enc != 0 && i.enc != 0xE && i.wf c.ty used && h.heapLen == 16 + bodyBytes c.ty i && i.crc == h.crc &&
    i.count == h.count && i.nulls == h.nulls

/-- Whether a heap record lies within its column's heap. -/
def inHeap (c : ColD) (h : SlotH) : Bool := decide (h.heapOff + h.heapLen ≤ c.heapBytes)

/-- Bytes of a heap record; poison is check 1 of the page it belongs to. -/
def heapRead (a : Who) (pa va n : Nat) : EM (List Byte) := do
  let r ← vreadP a va n
  ensure (!r.2) 0x12 pa
  return r.1

/-- The heap records of a scan's escaped blocks (02 R53): no byte of a record beyond its inner header is read before that
is found well-formed. -/
def heapRecs (a : Who) (c : ColD) (pa : Nat) (page : List Byte) (blocks : List Nat) : EM (List (Nat × List Byte)) :=
  (blocks.filter (fun k => (slotHdr page k).enc == 0xE && slotOk c page k && inHeap c (slotHdr page k))).mapM (fun k => do
    let h := slotHdr page k
    let hd ← heapRead a pa (c.heapBase + h.heapOff) 16
    if innerOk c (leAt page 16 2) h (slotHOf hd) then do
      let body ← heapRead a pa (c.heapBase + h.heapOff + 16) (h.heapLen - 16)
      return (k, hd ++ body)
    else return (k, hd))

/-- A block's header and encoded bytes, from its slot or its heap record; `none` for one that does not fit where it is
held, or whose record is malformed (02 R53, R526). -/
def blockSrc (c : ColD) (page : List Byte) (recs : List (Nat × List Byte)) (k : Nat) : Option (SlotH × List Byte) :=
  let h := slotHdr page k
  if h.enc = 0xE then
    match recs.find? (fun r => r.1 == k) with
    | some r =>
      let i := slotHOf (r.2.take 16)
      if innerOk c (leAt page 16 2) h i then some (i, r.2.drop 16) else none
    | none => none
  else if bodyBytes c.ty h ≤ c.slotBytes then some (h, sliceB page (c.slotOff k) (bodyBytes c.ty h)) else none

/-- Check 4 for a block (02 R63). -/
def blockFits (c : ColD) (page : List Byte) (recs : List (Nat × List Byte)) (k : Nat) : Bool :=
  slotOk c page k && ((slotHdr page k).enc == 0 || (blockSrc c page recs k).isSome)

/-- Dictionary entries the payload of a block references. -/
def dictRefs (c : ColD) (page : List Byte) (recs : List (Nat × List Byte)) (k : Nat) : List Nat :=
  match blockSrc c page recs k with
  | some (h, body) =>
    if h.enc = 5 then once ((storedOf c.ty h (fun e => e) (if h.nulls then body.drop 128 else body)).getD []) else []
  | none => []

/-- Lines of the dictionary entries that blocks reference (02 R62). -/
def dictLines (c : ColD) (page : List Byte) (recs : List (Nat × List Byte)) (blocks : List Nat) : List Nat :=
  once (((blocks.filter (fun k => blockFits c page recs k)).flatMap (dictRefs c page recs)).flatMap (fun e =>
    linesFor (c.dictOff + e * c.ty.width) (c.dictOff + (e + 1) * c.ty.width)))

/-- The rows of a block; nothing for a slot that holds none, and `none` for a block that fails check 5 (02 R63). -/
def decodeBlock (c : ColD) (page : List Byte) (recs : List (Nat × List Byte)) (k : Nat) : Option (List (Bool × Nat)) :=
  if (slotHdr page k).enc = 0 then some []
  else match blockSrc c page recs k with
    | none => none
    | some (h, body) =>
      match rowsOf c.ty h (dictEnt c page) body with
      | some rows => if blockCrc c.ty rows = h.crc then some rows else none
      | none => none

/-- A page as a scan front has read and checked it: its bytes, and the heap records of its escaped blocks. -/
abbrev PageData := List Byte × List (Nat × List Byte)

/-- Read a page without a guard: the lines a scan needs of it, and its heap records (02 R62). -/
def readBare (a : Who) (c : ColD) (pb : PageBuf) (blocks : List Nat) (f : Nat) (who : Ident) : EM PageData := do
  let ends ← pageLines a.ctx pb [0, 511]
  let table ← pageLines a.ctx pb (tableLines c (pageOf ends) blocks)
  let base := ends ++ table
  let rest ← pageLines a.ctx pb (payloadLines c (pageOf base) blocks)
  let page := pageOf (base ++ rest)
  let recs ← heapRecs a c pb.pa page blocks
  let dict ← pageLines a.ctx pb (dictLines c page recs blocks)
  doSt (fun s => s.pmcFront f 7 who (128 * (base.length + rest.length + dict.length)))
  return (pageOf (base ++ rest ++ dict), recs)

/-- A correction of a page is recorded, and the lines it changed are to be written back (02 R64). -/
def State.corrected (s : State) (f pa : Nat) (who : Ident) (raw fixed : List Byte) : State :=
  let diff := below 512 (fun k => sliceB raw (128 * k) 128 != sliceB fixed (128 * k) 128)
  ((s.guardRecord f pa false who).pmcFront f 10 who 1).eng' (fun e => { e with corr := e.corr ++ diff.map (fun k =>
    ⟨pa / 128 + k, sliceB raw (128 * k) 128, sliceB fixed (128 * k) 128, who, f⟩) })

/-- Read every line of a page with a guard, and decode it (02 R61, R62); then its heap records. -/
def readGuarded (a : Who) (c : ColD) (pb : PageBuf) (blocks : List Nat) (f : Nat) (who : Ident) : EM PageData := do
  let l ← pageLines a.ctx pb (List.range 512)
  doSt (fun s => s.pmcFront f 7 who 65536)
  let raw := pageOf l
  match guardPage c.guardT raw with
  | none => do
    doSt (fun s => s.guardRecord f pb.pa true who)
    fail 0x13 pb.pa
  | some fixed => do
    if fixed != raw then doSt (fun s => s.corrected f pb.pa who raw fixed)
    let recs ← heapRecs a c pb.pa fixed blocks
    return (fixed, recs)

/-- Whether every slot a scan needs is in order, its block's bytes with it, and every slot at or above SLOTS_USED is EMPTY
(check 4). -/
def slotsOk (c : ColD) (page : List Byte) (recs : List (Nat × List Byte)) (blocks : List Nat) : Bool :=
  (List.range c.slots).all (fun k =>
    (!blocks.contains k || blockFits c page recs k) && (decide (k < leAt page 12 2) || (slotHdr page k).enc == 0))

/-- Read a page and check it in the order of the table *Page checks on read* (02 R62 to R64): the page as corrected. -/
def readPage (a : Who) (c : ColD) (pb : PageBuf) (blocks : List Nat) : EM PageData := do
  let s ← get
  let who := s.ctxIdent a.ctx
  let f := s.frontOf pb.pa
  let (page, recs) ← if c.guardT = 0 then readBare a c pb blocks f who else readGuarded a c pb blocks f who
  doSt (fun s => s.pmcFront f 6 who 1)
  ensure (headerOk c page pb.page) 0x14 pb.pa
  ensure (slotsOk c page recs blocks) 0x14 pb.pa
  ensure (blocks.all (fun k => (decodeBlock c page recs k).isSome)) 0x14 pb.pa
  return (page, recs)

/-- The rows of a block of a page that has been checked. -/
def blockRows (c : ColD) (pd : PageData) (k : Nat) : List (Bool × Nat) := (decodeBlock c pd.1 pd.2 k).getD []

/-! ### Predicates (04 R137 to R139) -/

/-- Whether a pushed predicate is TRUE for a value. -/
def Pred.holds (q : Pred) (ty : Ty) (c : Cell) : Bool :=
  let k (v : Nat) : Cell := match ty with
    | .bool => boolCell (v % 256 != 0)
    | _ => Cell.of (v % 2 ^ (8 * ty.width))
  match q.kind with
  | 1 => c.ok && cmpHolds q.op (cmpVal ty 0 0 false c (k q.c1))
  | 2 =>
    let lo := cmpVal ty 0 0 false c (k q.c1)
    let hi := cmpVal ty 0 0 false c (k q.c2)
    c.ok && (lo == .gt || (lo == .eq && bitAt q.op 0)) && (hi == .lt || (hi == .eq && bitAt q.op 1))
  | 3 => !c.ok
  | 4 => c.ok
  | _ => c.ok && decide (c.v < 256) && bitAt q.bitmap c.v

/-- Predicates of an operator on a column of its list. -/
def OpCtx.predsOn (c : OpCtx) (k : Nat) : List Pred := (c.m.preds c.o.a2 c.o.a3).filter (fun q => q.col == k)

/-- Whether a value passes every predicate on its column. -/
def OpCtx.passes (c : OpCtx) (k : Nat) (ty : Ty) (v : Bool × Nat) : Bool :=
  let cell : Cell := if !v.1 then Cell.null else match ty with
    | .bool => boolCell (v.2 % 256 != 0)
    | _ => Cell.of v.2
  (c.predsOn k).all (fun q => q.holds ty cell)

/-! ### Survivors -/

/-- Flits of a survivor message (03 R79). -/
def survFlits (ty : Ty) (cells : List Cell) : Nat :=
  1 + (if cells.any (fun x => !x.ok) then 1 else 0) + ceilDiv (cells.length * ty.width) 128 +
    (if ty = .varstr then ceilDiv (64 * (cells.filter (fun x => decide (12 < x.strLen))).length) 128 else 0)

/-- Send the survivors of a block of column `k`, and forward the bitmap to the next column (03 R78, R79). -/
def sendSurvivors (a : Who) (n : Nat) (c : OpCtx) (t : Task) (k blk front : Nat) (cd : ColD) (rows : List (Bool × Nat))
    (bits : List Bool) (chain : Bool) : EM Unit := do
  let idx := (List.range 1024).filter (fun i => nthD bits i false)
  let cells ← idx.mapM (fun i => do
    let v := nthD rows i (false, 0)
    cellOf a cd.ty v.1 v.2 cd.heapBase)
  doSt (fun s =>
    let who := s.ctxIdent t.ctx
    let s := (s.pmcFront front 8 who (survFlits cd.ty cells)).pmcFront front 9 who cells.length
    s.eng' (fun e => { e with
      surv := e.surv ++ [⟨n, t.id, k, blk, bits, cells⟩]
      chains := if chain && decide (k + 1 < c.ncols) then e.chains ++ [⟨n, t.id, k + 1, blk, bits⟩] else e.chains }))

/-- Rows of a block that a column counts: those below ROWS. -/
def rowsBelow (cd : ColD) (block : Nat) (rows : List (Bool × Nat)) : List (Bool × Nat) := rows.take (cd.rows - 1024 * block)

/-- Bitmap of a block under a column's predicates and an earlier bitmap. -/
def blockBits (c : OpCtx) (k : Nat) (cd : ColD) (rows : List (Bool × Nat)) (old : List Bool) : List Bool :=
  (List.range 1024).map (fun i => nthD old i false && (match rows[i]? with
    | some v => c.passes k cd.ty v
    | none => false))

/-- Every row of a block. -/
def allBits : List Bool := List.replicate 1024 true

/-- No row of a block. -/
def noBits : List Bool := List.replicate 1024 false

/-- The first block of a scan task, in its driving column's numbering (03 R74). -/
def Task.firstBlock (t : Task) (c : OpCtx) : Nat :=
  match t.kind, c.col 0 with
  | .unit k, some d => if d.kind = 1 then k * d.slots else k * (64 / d.ty.width)
  | _, _ => 0

/-- Blocks of a scan task: those of its page, or of 65,536 bytes of a raw array, that hold rows below ROWS. -/
def Task.blocks (t : Task) (c : OpCtx) : Nat :=
  match c.col 0 with
  | some d => min (if d.kind = 1 then d.slots else 64 / d.ty.width) (ceilDiv d.rows 1024 - t.firstBlock c)
  | none => 0

/-- Pages of column `k` that hold blocks of a task. -/
def Task.pagesOf (t : Task) (c : OpCtx) (k : Nat) : List Nat :=
  match c.col k with
  | some d =>
    let b := t.firstBlock c
    let lo := b / d.slots
    let hi := (b + t.blocks c - 1) / d.slots
    ((List.range (hi + 1 - lo)).map (· + lo)).filter (fun p => decide (p * d.slots < ceilDiv d.rows 1024))
  | none => []

/-- Blocks of a page of column `k` that a task needs. -/
def Task.blocksOn (t : Task) (c : OpCtx) (d : ColD) (page : Nat) : List Nat :=
  let b := t.firstBlock c
  below d.slots (fun k => decide (b ≤ page * d.slots + k) && decide (page * d.slots + k < b + t.blocks c) &&
    decide (page * d.slots + k < ceilDiv d.rows 1024))

/-- Prepare a page request: the slice translates the page address first (03 R77). -/
def openPage (n : Nat) (t : Task) (oper k page : Nat) (d : ColD) : EM Unit := do
  let va := d.base + 65536 * page
  let pa ← xlate (t.who n) va false
  doSt (fun s => s.eng' (fun e => { e with pages := e.pages ++ [⟨n, t.id, oper, k, page, va, pa, false, [], none⟩] }))

/-- The driving SCAN: the task's pages are translated and the page request for the driving column is sent; a later column's
request travels with the forwarded bitmap (03 R77, R78). -/
def startScan (n : Nat) (c : OpCtx) (t : Task) : EM Unit := do
  (List.range c.ncols).forM (fun k => match c.col k with
    | some d => (t.pagesOf c k).forM (fun p => openPage n t 0 k p d)
    | none => pure ())
  updTask n (fun t => { t with opened := true, blks := t.blocks c })

/-- The operator whose scan a task is at: its fetch scan, or the driving one. -/
def Task.scanOper (t : Task) : Nat := if t.fetching then t.oper else 0

/-- A page buffer of the scan the task on a slice is at. -/
def State.pageBuf (s : State) (n : Nat) (t : Task) (k page : Nat) : Option PageBuf :=
  s.eng.pages.find? (fun b => b.slice == n && b.task == t.id && b.oper == t.scanOper && b.col == k && b.page == page)

/-- Whether two page buffers are of one page of one scan. -/
def PageBuf.same (x b : PageBuf) : Bool :=
  x.slice == b.slice && x.task == b.task && x.oper == b.oper && x.col == b.col && x.page == b.page

/-- Replace a page buffer. -/
def State.setPage (s : State) (b : PageBuf) : State :=
  s.eng' (fun e => { e with pages := e.pages.map (fun x => if x.same b then b else x) })

/-- Whether the scan front of an address can take one more page: four may be in flight (02 R62). -/
def State.frontRoom (s : State) (pa : Nat) : Bool :=
  decide ((s.eng.pages.filter (fun b => b.opened && b.ready.isNone && s.frontOf b.pa == s.frontOf pa)).length < 4)

/-- A page request reaches its scan front, which takes it if it has room. -/
def State.takePage (s : State) (b : PageBuf) : State :=
  if !b.opened && s.frontRoom b.pa then s.setPage { b with opened := true } else s

/-- Whether the operator at which the task stands is a driving scan, and its context. -/
def State.scanCtx (s : State) (t : Task) : Option OpCtx :=
  match s.opCtx { t with oper := t.scanOper } with
  | some c => if c.o.opc = 1 then some c else none
  | none => none

/-- Release a page: check it, and for the driving column send survivors and forward bitmaps (02 R62, R63, 03 R78). -/
def releasePage (n : Nat) (c : OpCtx) (t : Task) (k page : Nat) (pb : PageBuf) (d : ColD) : EM Unit := do
  let a := t.who n
  let need := if pb.oper != 0 then
      -- the blocks that hold rows the fetch scan asks for
      let b := t.batch.getD Batch.empty
      below d.slots (fun j => b.selected.any (fun i => b.rn i / 1024 == page * d.slots + j) &&
        decide (page * d.slots + j < ceilDiv d.rows 1024))
    else t.blocksOn c d page
  let pd ← readPage a d pb need
  doSt (fun s => s.setPage { pb with ready := some pd })
  if pb.oper == 0 && k == 0 then
    let s ← get
    let front := s.frontOf pb.pa
    need.forM (fun j => do
      let block := page * d.slots + j
      let rows := rowsBelow d block (blockRows d pd j)
      sendSurvivors a n c t 0 (block - t.firstBlock c) front d rows (blockBits c 0 d rows allBits) true)

/-- A forwarded bitmap at the scan front of a later column (03 R78): with it arrives the page request; once the page is
ready the front takes the bitmap. -/
def chainStep (n : Nat) (c : OpCtx) (t : Task) (m : ChainMsg) : EM Unit := do
  match c.col m.col with
  | none => pure ()
  | some d =>
    let block := t.firstBlock c + m.blk
    let s ← get
    let drop := doSt (fun s => s.eng' (fun e => { e with chains := e.chains.erase m }))
    if ceilDiv d.rows 1024 ≤ block then do
      -- the column holds no such block: gap rows
      drop
      sendSurvivors (t.who n) n c t m.col m.blk 0 d [] noBits true
    else
      match s.eng.pages.find? (fun b => b.slice == n && b.task == t.id && b.oper == 0 && b.col == m.col &&
          b.page == block / d.slots) with
      | none => pure ()
      | some pb =>
        match pb.ready with
        | none => doSt (fun s => s.takePage pb)
        | some pd => do
          let rows := rowsBelow d block (blockRows d pd (block % d.slots))
          drop
          sendSurvivors (t.who n) n c t m.col m.blk (s.frontOf pb.pa) d rows (blockBits c m.col d rows m.bits) true

/-! ### Packing and releasing batches (03 R76) -/

/-- Whether a new batch of a context is tagged for a sample (21 R504): chosen by a value the manual leaves to chance. -/
def State.tagBatch (s : State) (ctx : Nat) : Bool × State :=
  let w := worldBit (s.ctxWorld ctx)
  if s.on (Reg.PMON_SCTL w) F.PMON_SCTL_BATCH_EN then
    let (v, s) := s.draw
    (v % 2 ^ s.rd (Reg.PMON_SCTL w) F.PMON_SCTL_BATCH_LOG2 == 0, s)
  else (false, s)

/-- Release a batch to the operators, from the operator after the input, when one is due. -/
def release (n first : Nat) : EM Unit := do
  let s ← get
  match (s.slice n).task with
  | none => pure ()
  | some t =>
    if t.batch.isSome || !t.probes.isEmpty || t.ending then pure ()
    else if 1024 ≤ t.queue.rows.length || (t.opened && t.blks ≤ t.blk && !t.queue.rows.isEmpty) then do
      let (b, rest) := t.queue.split 1024
      let tag ← askSt (fun s => s.tagBatch t.ctx)
      doSt (fun s =>
        let who := some (s.ctxIdent t.ctx)
        (s.setTask n { t with batch := some b, queue := rest, oper := first, frame := 1 - t.frame, tagged := tag,
                              packed := b.rows.length }).pmcSlc n 1 who 1)
      if !rest.rows.isEmpty then
        -- rows beyond the batch stand in the frame that has become the ingest frame
        cbStore n t.ctx false (selRanges t.frame ++ rowRanges t.frame 0 rest.rows.length) 0xFFFF
    else pure ()

/-- Rows join the ingest frame. -/
def pack (n : Nat) (p : PipeI) (t : Task) (b : Batch) : EM Unit := do
  let q := t.queue.append b
  let fr := 1 - t.frame
  let lo := min 1024 t.queue.rows.length
  let hi := min 1024 q.rows.length
  if lo < hi then
    cbStore n t.ctx false (b.regs.keys.flatMap (fun r => regRanges fr r (p.reg r).ty lo hi) ++ selRanges fr ++
      rowRanges fr lo hi) 0xFFFF
  doSt (fun s => (s.setTask n { t with queue := q }).pmcSlc n 2 (some (s.ctxIdent t.ctx)) b.rows.length)

/-- Whether a PROBE of an ending task still has rows to bring: its run has no error, and the rows it probes with are those
a LIMIT before it has admitted (04 R132). -/
def State.probeStays (s : State) (t : Task) (p : ProbeSt) : Bool :=
  match s.opCtx { t with oper := p.oper } with
  | some c => c.d.fail.isNone && (c.p.ops.take p.oper).any (fun o => o.opc == 0x40)
  | none => false

/-- The batch in the operators is done with: a PROBE under way goes on with a continuation batch, or the next ingested
batch comes, from operator `first` (05 R164). A task that is to end goes on only with rows that LIMIT has admitted. -/
def batchOver (n first : Nat) (t : Task) : EM Unit := do
  let s ← get
  match t.probes with
  | p :: _ =>
    if t.ending && !s.probeStays t p then updTask n (fun t => { t with batch := none, probes := [], oper := 0 })
    else match s.opCtx { t with oper := p.oper } with
      | some c => probeOn n c t
      | none => pure ()
  | [] => updTask n (fun t => { t with batch := none, oper := 0 })
  release n first

/-- Survivor messages of a block of the task on a slice, by column. -/
def State.survOf (s : State) (n : Nat) (t : Task) (blk : Nat) : List SurvMsg :=
  s.eng.surv.filter (fun m => m.slice == n && m.task == t.id && m.blk == blk)

/-- The rows of a block once every column's message is there (03 R76). -/
def blockBatch (t : Task) (c : OpCtx) (ms : List SurvMsg) (base : Nat) : Batch :=
  match ms.find? (fun m => m.col + 1 == c.ncols) with
  | none => Batch.empty
  | some last =>
    let idx := (List.range 1024).filter (fun i => nthD last.bits i false)
    let rows := idx.map (fun i => base + i)
    let colCells (k : Nat) : List Cell := match ms.find? (fun m => m.col == k) with
      | none => []
      | some m =>
        let own := (List.range 1024).filter (fun i => nthD m.bits i false)
        let tab := (own.zip m.cells)
        tab.filterMap (fun x => if nthD last.bits x.1 false then some x.2 else none)
    let _ := t
    { rows := rows, sel := rows.map (fun _ => true),
      regs := (List.range c.ncols).foldl (fun r k => Tab.put [] r (c.colReg k) (colCells k)) [] }

/-- The slice takes the survivor messages of its next block (03 R76). -/
def takeBlock (n : Nat) (c : OpCtx) (t : Task) : EM Unit := do
  let s ← get
  let ms := s.survOf n t t.blk
  if ms.length < c.ncols || 1024 ≤ t.queue.rows.length then pure ()
  else do
    let base := 1024 * (t.firstBlock c + t.blk)
    doSt (fun s => s.eng' (fun e => { e with surv := e.surv.filter (fun m => !(m.slice == n && m.task == t.id && m.blk == t.blk)) }))
    pack n c.p { t with blk := t.blk + 1 } (blockBatch t c ms base)
    release n 1

/-! ### Raw arrays (04 R121, R131) -/

/-- A block of a raw array: validity and values. -/
def rawBlock (a : Who) (d : ColD) (block : Nat) : EM (List (Bool × Nat)) := do
  let cnt := min 1024 (d.rows - 1024 * block)
  let w := d.ty.width
  let vals ← vread a (d.base + 1024 * block * w) (cnt * w)
  let bits ← if bitAt d.flags 0 then vread a (d.validBase + 128 * block) (ceilDiv cnt 8) else pure []
  return (List.range cnt).map (fun i =>
    let ok := !bitAt d.flags 0 || bitAt (leAt bits (i / 8) 1) (i % 8)
    (ok, if ok then leAt vals (w * i) w else 0))

/-- SCANRAW without TABLE: the next block of every column, through the predicate chain. -/
def scanRawBlock (n : Nat) (c : OpCtx) (t : Task) : EM Unit := do
  let a := t.who n
  let blks := t.blocks c
  if blks ≤ t.sent then updTask n (fun t => { t with opened := true, blks := blks })
  else do
    let block := t.firstBlock c + t.sent
    let _ ← (List.range c.ncols).foldlM (fun (bits : List Bool) k => do
      match c.col k with
      | none => return bits
      | some d =>
        let rows ← if 1024 * block < d.rows then rawBlock a d block else pure []
        let bits := blockBits c k d rows bits
        -- a column too short for the block has no line of it to read
        let pa ← if rows.isEmpty then pure 0 else xlate a (d.base + 1024 * block * d.ty.width) false
        let s ← get
        sendSurvivors a n c t k t.sent (s.frontOf pa) d rows bits false
        return bits) allBits
    updTask n (fun t => { t with opened := true, blks := blks, sent := t.sent + 1 })

/-! ### Tables (05 R170) -/

/-- The cell of a table field: 0 to 7 name keys, 8 to 23 payloads or delivered aggregates. -/
def tableCell (d : TDecl) (e : AggEnt) (src : Nat) : Cell :=
  if src < 8 then
    let k := nthD e.keys src (false, 0)
    if k.1 then Cell.of k.2 else Cell.null
  else
    let v := nthD e.vals (src - 8) ⟨false, 0, 0⟩
    if d.kind = 2 then deliverV (nthD d.funcs (src - 8) 0) v else if v.ok then Cell.of v.v else Cell.null

/-- Entries of bucket lines as a batch; `l` holds each line with its first slot number. -/
def tableRows (c : OpCtx) (d : TDecl) (l : List (Nat × List Byte)) : Batch :=
  let es := l.flatMap (fun x => (d.slotsOf x.2).zipIdx.filterMap (fun y => y.1.map (fun e =>
    (x.1 + y.2 * 2 ^ d.entryLog2, e))))
  { rows := es.map Prod.fst, sel := es.map (fun _ => true),
    regs := (c.m.colList c.o.a0 c.o.a1).foldl (fun r k =>
      Tab.put [] r k.2 (es.map (fun e =>
        let x := tableCell d e.2 k.1
        match (c.p.reg k.2).ty with
        | .bool => if x.ok then boolCell (x.v % 256 != 0) else x
        | _ => x))) [] }

/-- SCANRAW with TABLE: the bucket lines of a task, or one spill chunk. -/
def scanTable (n : Nat) (c : OpCtx) (t : Task) : EM Unit := do
  let d := tDeclOf (c.m.decl c.o.a4)
  let lines ← match t.kind with
    | .unit k => do
      let first := 512 * k
      let cnt := min 512 (2 ^ d.linesLog2 - first)
      let b ← vread (t.who n) (d.base + 128 * first) (128 * cnt)
      pure ((List.range cnt).map (fun i => (8 * (first + i), sliceB b (128 * i) 128)))
    | .chunk pa slot => do
      let hd ← pread t.ctx pa 128 0
      let used := leAt hd 8 4
      let b ← pread t.ctx (pa + 128) (128 * (used - 1)) 0
      pure ((List.range (used - 1)).map (fun i => (slot + 8 * i, sliceB b (128 * i) 128)))
    | _ => pure []
  pack n c.p { t with opened := true, blk := t.blks } (tableRows c d lines)
  release n 1

/-- The chunks of a table's partitions with SPILLED set, in order, each with its first slot number (05 R170). -/
def tableChunks (n : Nat) (t : Task) (d : TDecl) : EM (List (Nat × Nat)) := do
  let go (fuel : Nat) (pa slot : Nat) (acc : List (Nat × Nat)) : EM (List (Nat × Nat) × Nat) :=
    (List.range fuel).foldlM (fun (st : List (Nat × Nat) × Nat × Nat) _ => do
      if st.2.1 = 0 then return st
      else do
        let hd ← pread t.ctx st.2.1 128 0
        return (st.1 ++ [(st.2.1, st.2.2)], leAt hd 0 8, st.2.2 + 8 * (leAt hd 8 4 - 1))) (acc, pa, slot)
    >>= fun r => pure (r.1, r.2.2)
  let s ← get
  let r ← (List.range (2 ^ d.pbits)).foldlM (fun (st : List (Nat × Nat) × Nat) p => do
    let b ← vread (t.who n) (d.anchor + 128 * p) 128
    ensure (!bitAt (leAt b 0 1) 1) 0x23 0
    if bitAt (leAt b 0 1) 0 then go (s.eng.spill.length + 1) (leAt b 8 8) st.2 st.1 else return st) ([], 8 * 2 ^ d.linesLog2)
  return r.1

/-! ### Inline input (06 R205) -/

/-- Bytes of the inline input: read by the ring manager for the descriptor, or from staging. -/
def inlineRead (d : Desc) (r : Run) (off n : Nat) : EM (List Byte) := do
  let s ← get
  match s.ringPort d.ring with
  | none => vread ⟨none, d.ctx⟩ (r.inBase + off) n
  | some p =>
    match (s.port p).stage d.ring d.seq with
    | some g => do
      let x ← askSt (fun s => s.stageRead p (g.base + off) n)
      ensure (x.res == AccRes.ok) x.res.status 0
      ensure (!x.poison) 0x12 0
      return x.bytes
    | none => fail 0x11 0

/-- The rows of an inline batch. -/
def inlineRows (c : OpCtx) (first : Nat) (bytes : List Byte) (cnt : Nat) : EM Batch := do
  let cols := c.m.colList c.o.a0 c.o.a1
  let n := cols.length
  -- field s is the one the entry of source index s fills
  let widths := (List.range n).map (fun s => match cols.find? (fun e => e.1 == s) with
    | some e => (c.p.reg e.2).ty.width
    | none => 0)
  let sz := inlineRec c.m c.p c.o
  let mb := ceilDiv n 8
  let cell (r : Nat) (e : Nat × Nat) : EM Cell := do
    let w := (c.p.reg e.2).ty.width
    let ok := bitAt (leAt bytes (sz * r) mb) e.1
    let v := leAt bytes (sz * r + mb + (widths.take e.1).sum) w
    if !ok then return Cell.null
    match (c.p.reg e.2).ty with
    | .bool => return boolCell (v % 256 != 0)
    | .varstr =>
      if v % 2 ^ 32 ≤ 12 then return ⟨true, v, shortStr v, 0⟩
      else do
        -- the record holds a reference only; the bytes beyond the first four are a value the manual does not state
        let x ← askSt State.draw
        return ⟨true, v, fitB (min 64 (v % 2 ^ 32)) (leBytes 4 (v / 2 ^ 32) ++ leBytes 60 x), 0⟩
    | _ => return Cell.of v
  let regs ← cols.foldlM (fun (t : Tab (List Cell)) e => do
    let l ← (List.range cnt).mapM (fun r => cell r e)
    return Tab.put [] t e.2 l) []
  return { rows := (List.range cnt).map (· + first), sel := List.replicate cnt true, regs := regs }

/-! ### Fetch scans (04 R130) -/

/-- Start a fetch scan: requests for the pages that hold the selected rows are prepared. -/
def startFetch (n : Nat) (c : OpCtx) (t : Task) (b : Batch) : EM Unit := do
  cbRead n t.ctx false (selRanges t.frame ++ t.rowLines) 0xFFFF
  let items := (List.range c.ncols).flatMap (fun k => match c.col k with
    | some d =>
      let ps := (b.selected.filter (fun i => decide (b.rn i < d.rows))).map (fun i => b.rn i / 1024 / d.slots)
      (once ps).map (fun p => FetchItem.mk k p)
    | none => [])
  items.forM (fun it => match c.col it.col with
    | some d => openPage n t t.oper it.col it.page d
    | none => pure ())
  updTask n (fun t => { t with fetch := items, fetched := [], fetching := true })

/-- Whether a row number lies within a column's pages (04 R120). -/
def ColD.inPages (d : ColD) (rn : Nat) : Bool := decide (rn / 1024 / d.slots < ceilDiv d.rows (1024 * d.slots))

/-- What a fetch scan has for a position: the row's cell, or nothing for a gap row, which a row at or above ROWS in the
column's last page is too (02 R37, 04 R120); beyond the column's pages a row has a null value (04 R130). DEDUCED
(notes/assumptions/109.md). -/
def fetchedCell (t : Task) (b : Batch) (k i : Nat) (d : ColD) : Option Cell :=
  if d.rows ≤ b.rn i then (if d.inPages (b.rn i) then none else some Cell.null) else Tab.get none t.fetched (1024 * k + i)

/-- A fetch scan has every value: registers are filled, predicates applied; a gap row is deselected (02 R37). -/
def endFetch (n : Nat) (c : OpCtx) (t : Task) (b : Batch) : EM Unit := do
  let at_ (k i : Nat) : Option Cell := (c.col k).bind (fetchedCell t b k i)
  let b' := (List.range c.ncols).foldl (fun (b' : Batch) k =>
    b'.put (c.colReg k) ((List.range b.rows.length).map (fun i =>
      if nthD b.sel i false then (at_ k i).getD Cell.null else Cell.null))) b
  let b' ← setSel n t b' (fun i => (List.range c.ncols).all (fun k => match c.col k, at_ k i with
    | some d, some x => (c.predsOn k).all (fun q => q.holds d.ty x)
    | _, none => false
    | none, _ => true))
  writeRegs n c t ((List.range c.ncols).map c.colReg)
  updTask n (fun t => { t with fetching := false, fetched := [], fetch := [], batch := some b', oper := t.oper + 1 })

/-- A scan front returns the values of the rows of one page (04 R130); it has none for a gap row. -/
def fetchRows (n : Nat) (c : OpCtx) (t : Task) (b : Batch) (it : FetchItem) (pb : PageBuf) (pd : PageData) : EM Unit := do
  match c.col it.col with
  | none => pure ()
  | some d =>
    let mine := b.selected.filter (fun i => b.rn i / 1024 / d.slots == it.page && decide (b.rn i < d.rows))
    let cells ← mine.mapM (fun i => match (blockRows d pd (b.rn i / 1024 % d.slots))[b.rn i % 1024]? with
      | some v => do
        let x ← cellOf (t.who n) d.ty v.1 v.2 d.heapBase
        return (i, some x)
      | none => return (i, none))
    doSt (fun s => s.eng' (fun e => { e with pages := e.pages.filter (fun x => !x.same pb) }))
    updTask n (fun t => { t with
      fetch := t.fetch.erase it
      fetched := cells.foldl (fun f x => Tab.put none f (1024 * it.col + x.1) x.2) t.fetched })

end Sys2Proof.Machine
end

