-- ==== Sys2Proof/Machine/EngTask.lean ====
section
/-! DEFINITION. Sorting, merging, top-k and exchange (05 R174 to R186), level-0 merging (R171), dispatch (06 R210) and the
end of tasks (03 R74, 06 R213). -/

namespace Sys2Proof.Machine
open Sys2Proof

/-! ### Run records (05 R174 to R177) -/

/-- Normalised key of a row. -/
def sortKeyOf (c : OpCtx) (keys : List SortK) (b : Batch) (i : Nat) : List Byte :=
  keys.flatMap (fun k => sortKey (c.p.reg k.reg).ty k.desc k.nullsLast k.fold (b.cell k.reg i))

/-- Order of rows: normalised key, then row number (05 R175). -/
def rowBefore (a b : List Byte × Nat) : Bool :=
  match cmpBytes a.1 b.1 with
  | .lt => true
  | .gt => false
  | .eq => decide (a.2 ≤ b.2)

/-- Insert in order, after those that rank equal. -/
def insertBy {α : Type} (k : α → List Byte × Nat) (x : α) : List α → List α
  | [] => [x]
  | y :: t => if rowBefore (k y) (k x) then y :: insertBy k x t else x :: y :: t

/-- Sort rows. -/
def sortBy {α : Type} (k : α → List Byte × Nat) (l : List α) : List α := l.foldl (fun acc x => insertBy k x acc) []

/-- A task writes `n` bytes of operator `k`'s share of the operator area and reads them again. -/
def useArea (n : Nat) (c : OpCtx) (t : Task) (k size : Nat) : EM Unit := do
  let rs := areaRange (c.m.areaAt c.p k) size
  cbStore n t.ctx false rs 0xFFFF
  cbRead n t.ctx false rs 0xFFFF

/-- A run record as bytes. -/
def runRecord (d : RDecl) (key : List Byte) (rn : Nat) (pays : List Cell) : List Byte :=
  let mask := (pays.zipIdx).foldl (fun m x => if x.1.ok then m + 2 ^ x.2 else m) 0
  fitB d.recBytes (key ++ leBytes 8 rn ++ leBytes 2 mask ++
    (pays.zip (d.payTys.map codeWidth)).flatMap (fun x => leBytes x.2 (if x.1.ok then x.1.v else 0)))

/-- Take space and a directory entry for a run at the home of the header line (05 R178): run index and offset. -/
def reserveRun (a : Who) (d : RDecl) (bytes : Nat) : EM (Nat × Nat) := do
  let hd ← vread a d.dir 12
  let off := leAt hd 0 8
  let runs := leAt hd 8 4
  let size := alignUp bytes 128
  ensure (decide (off + size ≤ d.bytes) && decide (runs < d.maxRuns)) 0x23 0
  preWrite a (d.base + off) bytes
  preWrite a (d.dir + 128 + 16 * runs) 16
  vwrite a d.dir (leBytes 8 (off + size) ++ leBytes 4 (runs + 1))
  return (runs, off)

/-- Write a run and its directory entry. -/
def writeRun (a : Who) (d : RDecl) (recs : List (List Byte)) (pass : Nat) : EM Nat := do
  let (j, off) ← reserveRun a d (recs.length * d.recBytes)
  vwrite a (d.base + off) recs.flatten
  vwrite a (d.dir + 128 + 16 * j) (leBytes 8 off ++ leBytes 4 recs.length ++ leBytes 1 pass ++ leBytes 3 0)
  return j

/-- SORT_RUN (05 R178). -/
def opSortRun (n : Nat) (c : OpCtx) (t : Task) (b : Batch) : EM Unit := do
  readRegs n c t
  let d := rDeclOf (c.m.decl c.o.a4)
  let keys := c.m.sortList c.o.a0 c.o.a1
  let pays := (c.m.regList c.o.a2 c.o.a3).map Prod.fst
  let rows := b.selected.map (fun i => ((sortKeyOf c keys b i, b.rn i), pays.map (fun r => b.cell r i)))
  let rows := sortBy (fun x => x.1) rows
  useArea n c t t.oper (rows.length * d.recBytes)
  if !rows.isEmpty then
    let _ ← writeRun (t.who n) d (rows.map (fun x => runRecord d x.1.1 x.1.2 x.2)) 0
  sinkRows n t b
  opDone n b

/-- A directory entry: offset, records, pass, consumed. -/
def runEntry (a : Who) (d : RDecl) (j : Nat) : EM (Nat × Nat × Nat × Nat) := do
  let b ← vread a (d.dir + 128 + 16 * j) 16
  return (leAt b 0 8, leAt b 8 4, leAt b 12 1, leAt b 13 1)

/-- Runs of the area not consumed, in index order (05 R179). -/
def openRuns (a : Who) (d : RDecl) : EM (List Nat) := do
  let hd ← vread a d.dir 12
  let l ← (List.range (leAt hd 8 4)).mapM (fun j => do
    let e ← runEntry a d j
    return (j, e.2.2.2))
  return (l.filter (fun x => x.2 == 0)).map Prod.fst

/-- The records of runs merged by 05 R175. -/
def mergedRecords (a : Who) (d : RDecl) (runs : List Nat) : EM (List (List Byte)) := do
  let ls ← runs.mapM (fun j => do
    let e ← runEntry a d j
    let b ← vread a (d.base + e.1) (e.2.1 * d.recBytes)
    return (List.range e.2.1).map (fun i => sliceB b (d.recBytes * i) d.recBytes))
  return sortBy (fun r => (r.take d.keyBytes, leAt r d.keyBytes 8)) ls.flatten

/-- Fan-in of a MERGE. -/
def OpCtx.fanIn (c : OpCtx) : Nat := bitsOf c.o.a5 7 0

/-- Change the progress of the task's pipeline. -/
def updPipe (t : Task) (f : PipeSt → PipeSt) : EM Unit :=
  doSt (fun s => s.updRun t.ring t.seq (fun r => r.updPipe t.pipe f))

/-- The runs of the next merge task of a pipeline, whether it is the final one, and the progress with it given out: the
`f` unconsumed runs of lowest index while more than `f` remain, all of them when no more do (05 R179). -/
def nextMerge (ps : PipeSt) (f : Nat) (pool : List Nat) : Option (List Nat × Bool × PipeSt) :=
  if f < pool.length + ps.merging && f ≤ pool.length then
    some (pool.take f, false, { ps with runs := some (pool.drop f), merging := ps.merging + 1 })
  else if ps.merging = 0 then some (pool, true, { ps with runs := some [], finished := true })
  else none

/-- MERGE: a task that was told its runs as it was dispatched opens them; the first one, where the run directory could not
be read then, reads it now (05 R179). -/
def opMerge (n : Nat) (c : OpCtx) (t : Task) : EM Unit := do
  if t.told then updTask n (fun t => { t with opened := true, blk := 0, blks := 1 })
  else do
    let ps := c.r.pipe t.pipe
    let pool ← match ps.runs with
      | some l => pure l
      | none => openRuns (t.who n) (rDeclOf (c.m.decl c.o.a4))
    match nextMerge ps c.fanIn pool with
    | some (l, last, ps') => do
      updPipe t (fun _ => ps')
      updTask n (fun t => { t with opened := true, told := true, runs := l, final := last, blk := 0, blks := 1 })
    | none => updPipe t (fun p => { p with runs := some pool })

/-- An intermediate merge: its runs become one run, and are marked CONSUMED. -/
def interMerge (n : Nat) (c : OpCtx) (t : Task) : EM Unit := do
  let a := t.who n
  let d := rDeclOf (c.m.decl c.o.a4)
  let es ← t.runs.mapM (fun j => runEntry a d j)
  let recs ← mergedRecords a d t.runs
  useArea n c t 0 (16384 * (c.fanIn + 1))
  t.runs.forM (fun j => preWrite a (d.dir + 128 + 16 * j + 13) 1)
  let j ← writeRun a d recs ((es.map (fun e => e.2.2.1)).foldl max 0 + 1)
  t.runs.forM (fun k => vwrite a (d.dir + 128 + 16 * k + 13) [1])
  updPipe t (fun p => { p with runs := p.runs.map (fun l => l ++ [j]), merging := p.merging - 1 })
  updTask n (fun t => { t with runs := [], blk := 1 })

/-- The final merge: the remaining runs' rows in order, to the operators after MERGE. -/
def finalMerge (n : Nat) (c : OpCtx) (t : Task) : EM Unit := do
  let d := rDeclOf (c.m.decl c.o.a4)
  let recs ← mergedRecords (t.who n) d t.runs
  useArea n c t 0 (16384 * (c.fanIn + 1))
  let ws := d.payTys.map codeWidth
  let cellAt (r : List Byte) (e : Nat × Nat) : Cell :=
    if e.1 = 16 then Cell.of (leAt r d.keyBytes 8)
    else
      let ok := bitAt (leAt r (d.keyBytes + 8) 2) e.1
      let v := leAt r (d.keyBytes + 10 + (ws.take e.1).sum) (nthD ws e.1 0)
      if !ok then Cell.null else match (c.p.reg e.2).ty with
        | .bool => boolCell (v % 256 != 0)
        | _ => Cell.of v
  let rows := recs.map (fun r => leAt r d.keyBytes 8)
  let b : Batch := { rows := rows, sel := rows.map (fun _ => true),
                     regs := (c.m.colList c.o.a2 c.o.a3).foldl (fun t e => Tab.put [] t e.2 (recs.map (fun r => cellAt r e))) [] }
  pack n c.p { t with runs := [], blk := 1 } b
  release n 1

/-! ### Top-k (05 R180 to R182) -/

/-- Order of heap rows. -/
def HeapRow.ord (h : HeapRow) : List Byte × Nat := (h.key, h.rn)

/-- The first `k` rows, with ties when asked, at most 4,096: the rows, and the key whose ties were cut. -/
def keepTop (k : Nat) (ties : Bool) (l : List HeapRow) : List HeapRow × Option (List Byte) :=
  if !ties then (l.take k, none)
  else match l[k - 1]? with
    | none => (l, none)
    | some x =>
      let all := l.take k ++ (l.drop k).takeWhile (fun y => y.key == x.key)
      (all.take 4096, if 4096 < all.length then some x.key else none)

/-- The least of the keys whose ties were cut: the k-th key only falls, so no other can be the last one (05 R182). -/
def leastCut (a b : Option (List Byte)) : Option (List Byte) :=
  match a, b with
  | some x, some y => some (if cmpBytes x y = .gt then y else x)
  | some x, none => some x
  | none, y => y

/-- TOPK's arguments: k and TIES. -/
def OpCtx.topk (c : OpCtx) : Nat × Bool := (bitsOf c.o.a5 12 0, bitAt c.o.opt 0)

/-- Whether the published threshold discards a row. -/
def beyond (thr : Option (List Byte × Nat)) (ties : Bool) (key : List Byte) (rn : Nat) : Bool :=
  match thr with
  | none => false
  | some t => if ties then cmpBytes key t.1 == .gt else !rowBefore (key, rn) t

/-- Bytes of the operator area that TOPK, operator `k`, keeps a heap in. -/
def OpCtx.heapSize (c : OpCtx) (k : Nat) (o : OpW) (heap : List HeapRow) : Nat :=
  min (c.m.opArea c.p k o) (heap.length * c.m.topkRow c.p k o)

/-- Where they lie. -/
def OpCtx.heapRange (c : OpCtx) (k : Nat) (o : OpW) (heap : List HeapRow) : List (Nat × Nat) :=
  areaRange (c.m.areaAt c.p k) (c.heapSize k o heap)

/-- TOPK in a task: the batch's rows join the task's heap. -/
def opTopk (n : Nat) (c : OpCtx) (t : Task) (b : Batch) : EM Unit := do
  readRegs n c t
  let (k, ties) := c.topk
  let keys := c.m.sortList c.o.a0 c.o.a1
  let regs := c.m.readAfter c.p t.oper
  let thr := (c.r.pipe t.pipe).thr
  let rows := b.selected.map (fun i => HeapRow.mk (sortKeyOf c keys b i) (b.rn i) (regs.map (fun r => (r, b.cell r i))))
  let rows := rows.filter (fun h => !beyond thr ties h.key h.rn)
  let (heap, cut) := keepTop k ties (rows.foldl (fun l h => insertBy HeapRow.ord h l) t.heap)
  cbRead n t.ctx false (c.heapRange t.oper c.o t.heap) 0xFFFF
  useArea n c t t.oper (c.heapSize t.oper c.o heap)
  updTask n (fun t => { t with heap := heap, cutKey := leastCut t.cutKey cut })
  let t ← theTask n t
  batchOver n 1 t

/-- Index of TOPK in a pipeline. -/
def topkAt (p : PipeI) : Option (Nat × OpW) := p.findOp 0x32

/-- Heap rows as a batch. -/
def heapBatch (regs : List Nat) (l : List HeapRow) : Batch :=
  { rows := l.map (·.rn), sel := l.map (fun _ => true),
    regs := regs.foldl (fun t r => Tab.put [] t r (l.map (fun h =>
      ((h.cells.find? (fun x => x.1 == r)).map Prod.snd).getD Cell.null))) [] }

/-- The gather task merges rows that arrive and publishes its threshold (05 R180, R181). -/
def gatherMerge (n : Nat) (c : OpCtx) (t : Task) (m : TMsg) : EM Unit := do
  match topkAt c.p with
  | none => pure ()
  | some (k, o) => do
    let kk := bitsOf o.a5 12 0
    let old := (c.r.pipe t.pipe).heap
    let (heap, cut) := keepTop kk (bitAt o.opt 0) (m.rows.foldl (fun l h => insertBy HeapRow.ord h l) old)
    cbRead n t.ctx false (c.heapRange k o old) 0xFFFF
    cbStore n t.ctx false (c.heapRange k o heap) 0xFFFF
    updPipe t (fun ps => { ps with
      heap := heap, thr := (heap[kk - 1]?).map (fun h => (h.key, h.rn)),
      cutKey := leastCut ps.cutKey (leastCut m.cutKey cut) })

/-- The oldest rows on their way to a slice reach its gather task; those of a run that has ended go nowhere. -/
def State.gatherRows (s : State) (n : Nat) : State :=
  match s.eng.top.find? (fun m => m.dst == n) with
  | none => s
  | some m =>
    if (s.slice n).rewriting then s
    else
      (s.eng' (fun e => { e with top := e.top.erase m })).taskDo n (fun t =>
        match s.opCtx { t with oper := 0 } with
        | some c => if t.kind = .gather ∧ t.ring = m.ring ∧ t.seq = m.seq ∧ t.pipe = m.pipe then gatherMerge n c t m else pure ()
        | none => pure ())

/-- Whether ties of the k-th row of what the gather task keeps were cut: the pipeline ends PARTIAL (05 R182). -/
def PipeSt.tiesCut (ps : PipeSt) (k : Nat) : Bool :=
  match ps.cutKey, ps.heap[k - 1]? with
  | some x, some h => x == h.key
  | _, _ => false

/-! ### Exchange (05 R183 to R186) -/

/-- The slices of a destination mask in order. -/
def maskSlices (mask : Nat) : List Nat := below 36 (fun n => bitAt mask n)

/-- Destination of a row: by hash over the slices that remain, or by range over the list as written, a removed slice's
range going to the next that remains above it, or to the last (05 R183). -/
def destOf (c : OpCtx) (dests : List Nat) (key : Cell) : Nat :=
  let m := dests.length
  let last := (dests.getLast?).getD 0
  if !bitAt c.o.opt 0 then nthD dests (key.v / 2 ^ 32 * m / 2 ^ 32) last
  else
    let r := bitsOf c.o.a5 4 0
    let ty := (c.p.reg r).ty
    let w := ty.width
    let bounds := (List.range (bitsOf c.o.a5 15 8)).map (fun i => Cell.of (leAt c.m.pool (c.o.a3 + w * i) w))
    let j := if key.ok then (bounds.filter (fun b => cmpVal ty 0 0 false b key != .gt)).length else 0
    let want := nthD (maskSlices (leAt c.m.pool c.o.a4 8)) j last
    (dests.find? (fun d => decide (want ≤ d))).getD last

/-- Cut a list into groups of at most 64. -/
def groups64 {α : Type} : Nat → List α → List (List α)
  | 0, _ => []
  | _, [] => []
  | f + 1, l => l.take 64 :: groups64 f (l.drop 64)

/-- Flits of a message of `k` rows of columns of given widths (05 R184). -/
def xFlits (ws : List Nat) (k : Nat) : Nat := ceilDiv (16 + (ws.map (fun w => 8 + k * w)).sum) 128

/-- PARTITION (05 R183, R184). -/
def opPartition (n : Nat) (c : OpCtx) (t : Task) (b : Batch) : EM Unit := do
  readRegs n c t
  let regs := (c.m.regList c.o.a0 c.o.a1).map Prod.fst
  let ws := regs.map (fun r => (c.p.reg r).ty.width)
  let dests := Tab.get [] c.r.dests c.o.a2
  let rows := b.selected.map (fun i => (destOf c dests (b.cell (bitsOf c.o.a5 4 0) i), regs.map (fun r => b.cell r i)))
  useArea n c t t.oper (rows.length * ws.sum)
  let msgs := dests.flatMap (fun d =>
    (groups64 17 ((rows.filter (fun x => x.1 == d)).map Prod.snd)).map (fun g =>
      XMsg.mk t.ring t.seq c.o.a2 n d g (xFlits ws g.length) 0 0 none 0))
  doSt (fun s => s.eng' (fun e => { e with xch := e.xch ++ msgs }.xSend))
  sinkRows n t b
  opDone n b

/-- Flits of a slice's receive buffer in use: those of whole messages, and those taken of messages still arriving. -/
def State.recvFlits (s : State) (n : Nat) : Nat :=
  (((s.slice n).rbuf.filter (fun m => m.spill.isNone)).map (fun m => m.m.flits)).sum +
    ((s.eng.xch.filter (fun m => m.dst == n && m.place.isNone)).map (·.taken)).sum

/-- The pipelines of a mask that those of a set wait for by DEPENDS, in at most `n` steps, with the set itself. -/
def Img.waitsFor (m : Img) (mask : Nat) : Nat → Nat → Nat
  | 0, set => set
  | n + 1, set => m.waitsFor mask n ((m.masked mask).foldl (fun a p => if bitAt set p.1 then a ||| p.2.depends else a) set)

/-- Whether the RECV pipeline of an exchange waits for the pipeline that sends (05 R186): its rows pass through spill. -/
def State.recvWaits (s : State) (ring seq xid : Nat) : Bool :=
  match s.run ring seq with
  | some r =>
    let m := s.img r.slot
    (m.masked r.mask).any (fun x => (x.2.ops.head?).any (fun o => o.opc == 3 && o.a2 == xid) &&
      (m.masked r.mask).any (fun y => y.2.ops.any (fun o => o.opc == 0x38 && o.a2 == xid) &&
        bitAt (m.waitsFor r.mask 16 x.2.depends) y.1))
  | none => false

/-- Whether the task on a slice is a RECV task of an exchange. -/
def State.recvOf (s : State) (n ring seq xid : Nat) : Bool :=
  match (s.slice n).task with
  | some t => t.kind == .recv && t.ring == ring && t.seq == seq &&
      (match s.opCtx { t with oper := 0 } with
       | some c => c.o.a2 == xid
       | none => false)
  | none => false

/-- Column widths of an exchange, from its PARTITION. -/
def State.xWidths (s : State) (m : XMsg) : List Nat :=
  match s.run m.ring m.seq with
  | some r =>
    let g := s.img r.slot
    match (g.masked r.mask).findSome? (fun x => (x.2.ops.find? (fun o => o.opc == 0x38 && o.a2 == m.xid)).map (fun o => (x.2, o))) with
    | some (p, o) => (g.regList o.a0 o.a1).map (fun e => (p.reg e.1).ty.width)
    | none => []
  | none => []

/-- An exchange message as bytes (05 R184): a header, which the manual does not lay out, then for each column a validity
field and the values. -/
def XMsg.bytes (m : XMsg) (ws : List Nat) (head : List Byte) : List Byte :=
  let col (k w : Nat) : List Byte :=
    let cs := m.rows.map (fun r => nthD r k Cell.null)
    leBytes 8 ((cs.zipIdx).foldl (fun v x => if x.1.ok then v + 2 ^ x.2 else v) 0) ++
      cs.flatMap (fun x => leBytes w (if x.ok then x.v else 0))
  fitB (128 * m.flits) (head ++ ws.zipIdx.flatMap (fun x => col x.2 x.1))

/-- The rows of an exchange message of `k` rows as it stands in spill. -/
def xRows (ws : List Nat) (k : Nat) (b : List Byte) : List (List Cell) :=
  (List.range k).map (fun i => ws.zipIdx.map (fun x =>
    let o := 16 + ((ws.take x.2).map (fun w => 8 + k * w)).sum
    if bitAt (leAt b o 8) i then Cell.of (leAt b (o + 8 + x.1 * i) x.1) else Cell.null))

/-- Place for bytes of exchange spill of a slice: the rest of its last chunk, or a new one (05 R172, R185). -/
def State.spillPlace (s : State) (ctx : Nat) (m : XMsg) (bytes : Nat) : Option Nat × State :=
  let (pa, used) := ((s.run m.ring m.seq).map (fun r => Tab.get (0, 0) r.xspill m.dst)).getD (0, 0)
  if pa != 0 && decide (used + bytes ≤ 65536) then
    (some (pa + used), s.updRun m.ring m.seq (fun r => { r with xspill := Tab.put (0, 0) r.xspill m.dst (pa, used + bytes) }))
  else match s.allocChunk ctx m.ring m.seq with
    | (some pa, s) => (some pa, s.updRun m.ring m.seq (fun r => { r with xspill := Tab.put (0, 0) r.xspill m.dst (pa, bytes) }))
    | (none, s) => (none, s)

/-- Move the buffered message at a place of a slice's receive buffer to spill (05 R172, R185). -/
def State.spillOne (s : State) (n i : Nat) : State :=
  match (s.slice n).rbuf[i]? with
  | none => s
  | some q =>
    let ctx := ((s.desc q.m.ring q.m.seq).map (·.ctx)).getD 0
    match s.spillPlace ctx q.m (128 * q.m.flits) with
    | (none, s) => s.fixRun q.m.ring q.m.seq ⟨0x23, 0, 0, 0⟩
    | (some pa, s) =>
      let (v, s) := s.draw
      let (w, s) := s.writePa (s.ctxIdent ctx) pa (q.m.bytes q.ws (leBytes 16 v))
      let s := if w = .ok then s else s.fixRun q.m.ring q.m.seq ⟨w.status, 0, 0, 0⟩
      s.setSlice n { s.slice n with rbuf := setNth (s.slice n).rbuf i { q with spill := some pa } }

/-- The flits taken of a message that has a place in spill, and not moved yet, go there. -/
def State.moveFlits (s : State) (m : XMsg) : XMsg × State :=
  match m.place with
  | none => (m, s)
  | some (pa, head) =>
    let ctx := ((s.desc m.ring m.seq).map (·.ctx)).getD 0
    let (w, s) := s.writePa (s.ctxIdent ctx) (pa + 128 * m.moved)
      (sliceB (m.bytes (s.xWidths m) head) (128 * m.moved) (128 * (m.taken - m.moved)))
    ({ m with moved := m.taken }, if w = .ok then s else s.fixRun m.ring m.seq ⟨w.status, 0, 0, 0⟩)

/-- A message that is still arriving takes its place in spill, and its flits go there (05 R172, R185). -/
def State.spillPart (s : State) (i : Nat) : State :=
  match s.eng.xch[i]? with
  | none => s
  | some m =>
    let ctx := ((s.desc m.ring m.seq).map (·.ctx)).getD 0
    match s.spillPlace ctx m (128 * m.flits) with
    | (none, s) => s.fixRun m.ring m.seq ⟨0x23, 0, 0, 0⟩
    | (some pa, s) =>
      let (v, s) := s.draw
      let (m, s) := s.moveFlits { m with place := some (pa, leBytes 16 v) }
      s.eng' (fun e => { e with xch := setNth e.xch i m })

/-- Whether messages of an exchange are to leave the receive buffer of a slice (05 R185, R186): the slice runs a task other
than its RECV task, its RECV pipeline waits for the sender, or more than 448 flits are occupied. -/
def State.mustSpill (s : State) (n ring seq xid : Nat) : Bool :=
  ((s.slice n).task.isSome && !s.recvOf n ring seq xid) || s.recvWaits ring seq xid || decide (448 < s.recvFlits n)

/-- A slice moves messages to spill, the oldest first, those that are whole before those still arriving (05 R185). -/
def State.drainRecv (s : State) (n : Nat) : State :=
  let s := (List.range (s.slice n).rbuf.length).foldl (fun s i => match (s.slice n).rbuf[i]? with
    | some q => if q.spill.isNone && s.mustSpill n q.m.ring q.m.seq q.m.xid then s.spillOne n i else s
    | none => s) s
  (List.range s.eng.xch.length).foldl (fun s i => match s.eng.xch[i]? with
    | some m =>
      if m.dst == n && decide (0 < m.taken) && m.place.isNone && s.mustSpill n m.ring m.seq m.xid then s.spillPart i else s
    | none => s) s

/-- A receiving slice takes the flits on their way to it of the oldest message that has any: their credits return, and a
message that is whole joins the receive buffer, or the messages in spill (05 R184, R185). -/
def State.takeExchange (s : State) (n : Nat) : State :=
  match s.eng.xch.findIdx? (fun m => m.dst == n && decide (m.taken < m.sent)) with
  | none => s
  | some i =>
    match s.eng.xch[i]? with
    | none => s
    | some m =>
      let s := s.cbWrite n false (recvRanges (s.recvFlits n) (m.sent - m.taken))
      let (m, s) := s.moveFlits { m with taken := m.sent }
      let s :=
        if m.sent < m.flits then s.eng' (fun e => { e with xch := setNth e.xch i m }.xSend)
        else
          let ws := s.xWidths m
          let s := s.eng' (fun e => { e with xch := (e.xch.take i ++ e.xch.drop (i + 1)) }.xSend)
          s.setSlice n { s.slice n with rbuf := (s.slice n).rbuf ++ [⟨m.place.map Prod.fst, ws, 0, m⟩] }
      s.drainRecv n

/-- Rows of a received message not yet taken. -/
def RMsg.left (q : RMsg) : Nat := q.m.rows.length - q.skip

/-- Whether a received message is of an exchange of a run. -/
def RMsg.isOf (q : RMsg) (ring seq xid : Nat) : Bool := q.m.ring == ring && q.m.seq == seq && q.m.xid == xid

/-- Rows of an exchange pending at a slice. -/
def State.pendingRows (s : State) (n ring seq xid : Nat) : Nat :=
  (((s.slice n).rbuf.filter (fun q => q.isOf ring seq xid)).map RMsg.left).sum

/-- How many rows RECV takes of each message: spilled messages first, oldest first, at most 1,024 rows (05 R186). -/
def takePlan (ring seq xid : Nat) : Nat → List RMsg → List Nat
  | _, [] => []
  | want, q :: t =>
    let k := if q.isOf ring seq xid then min want q.left else 0
    k :: takePlan ring seq xid (want - k) t

/-- Rows of a received message, from the receive buffer or read from spill. -/
def recvRows (t : Task) (q : RMsg) (k : Nat) : EM (List (List Cell)) := do
  if k = 0 then return []
  let rows ← match q.spill with
    | none => pure q.m.rows
    | some pa => do
      let b ← pread t.ctx pa (128 * q.m.flits) 0
      pure (xRows q.ws q.m.rows.length b)
  return (rows.drop q.skip).take k

/-- Messages with rows taken: those with none left are gone. -/
def takenFrom (l : List (RMsg × Nat)) : List RMsg :=
  l.filterMap (fun x => if x.2 = 0 then some x.1 else if x.1.left ≤ x.2 then none else some { x.1 with skip := x.1.skip + x.2 })

/-- Fresh row numbers the manual does not state. -/
def drawRows (k : Nat) : EM (List Nat) :=
  (List.range k).mapM (fun _ => do
    let v ← askSt State.draw
    return v % 2 ^ 64)

/-- RECV: the rows of a task, at most 1,024 (05 R186). Their row numbers are values the manual does not state. -/
def opRecv (n : Nat) (c : OpCtx) (t : Task) : EM Unit := do
  let s ← get
  let x := s.slice n
  let sp := x.rbuf.filter (fun m => m.spill.isSome)
  let bf := x.rbuf.filter (fun m => m.spill.isNone)
  let all := sp ++ bf
  let plan := all.zip (takePlan t.ring t.seq c.o.a2 1024 all)
  if plan.any (fun q => q.1.spill.isNone && q.2 != 0) then cbRead n t.ctx false (recvRanges 0 (s.recvFlits n)) 0xFFFF
  let got ← plan.mapM (fun q => recvRows t q.1 q.2)
  let rows := got.flatten
  doSt (fun s => s.setSlice n { s.slice n with rbuf := takenFrom plan })
  let rns ← drawRows rows.length
  let b : Batch := { rows := rns, sel := rns.map (fun _ => true),
                     regs := (c.m.colList c.o.a0 c.o.a1).foldl (fun g e =>
                       Tab.put [] g e.2 (rows.map (fun r => nthD r e.1 Cell.null))) [] }
  let t ← theTask n t
  pack n c.p { t with opened := true, blk := t.blks } b
  release n 1

/-! ### Level-0 merging (05 R171) -/

/-- The hash of an entry's keys, which its record does not hold whole. -/
def TDecl.hashOf (d : TDecl) (e : AggEnt) : Nat :=
  if d.keyN = 0 then 0
  else hashKeys d.seed ((e.keys.zip d.keyTys).flatMap (fun x => hashWords (tyD x.2) false ⟨x.1.1, x.1.2, [], 0⟩))

/-- The operator of a pipeline that aggregates in the slice: index and word. -/
def PipeI.aggOp (p : PipeI) : Option (Nat × OpW) := p.findOp 0x23

/-- The cache line where a merge task keeps an entry: the one that holds its group, else the first with room from the
entry's own line on, round the cache (05 R171). DESIGN CHOICE (notes/assumptions/98.md). -/
def aggPlace (agg : Tab AggLine) (d : TDecl) (e : AggEnt) : Option Nat :=
  match agg.find? (fun l => l.2.ents.any (fun x => d.sameKey x e && x.h == e.h)) with
  | some l => some l.1
  | none =>
    ((List.range 4096).find? (fun k =>
      decide ((Tab.get ⟨[], 0⟩ agg ((e.h + k) % 4096)).ents.length < 128 / d.entryBytes))).map (fun k => (e.h + k) % 4096)

/-- A merge task combines one record in the aggregation cache; a cache that holds no more groups ends it. -/
def level0Row (n : Nat) (c : OpCtx) (t : Task) (d : TDecl) (e : AggEnt) : EM Unit := do
  let s ← get
  match aggPlace (s.slice n).agg d e with
  | none => fail 0x23 0
  | some ln => do
    aggRead n t ln
    let s ← get
    let line := Tab.get ⟨[], 0⟩ (s.slice n).agg ln
    match line.ents.findIdx? (fun x => d.sameKey x e && x.h == e.h) with
    | some i =>
      match d.mergeEnt c.ovfs (nthD line.ents i e) e with
      | .ok x => aggPut n ln { line with ents := setNth line.ents i x }
      | .error _ => fail 0x21 0
    | none => aggPut n ln { line with ents := line.ents ++ [e] }

/-- The records of a partition of level-0 spill. -/
def level0Recs (t : Task) (d : TDecl) (chunks : List Nat) (lastN : Nat) : EM (List AggEnt) := do
  let recs ← chunks.zipIdx.mapM (fun x => do
    let cnt := if x.2 + 1 = chunks.length then lastN else 65536 / d.entryBytes
    let b ← pread t.ctx x.1 (d.entryBytes * cnt) 0
    return (List.range cnt).filterMap (fun i => d.decode (sliceB b (d.entryBytes * i) d.entryBytes)))
  return recs.flatten.map (fun e => { e with h := d.hashOf e })

/-- A level-0 merge task: one partition's records are combined, and each group is merged into the table (05 R171). -/
def level0Merge (n : Nat) (c : OpCtx) (t : Task) (part : Nat) : EM Unit := do
  match c.p.aggOp with
  | none => pure ()
  | some (k, o) =>
    let c := { c with o := o }
    let d := tDeclOf (c.m.decl o.a4)
    let x := Tab.get ([], 0) c.r.l0 (l0Key t.pipe part)
    let recs ← level0Recs t d x.1 x.2
    recs.forM (fun e => level0Row n c t d e)
    let s ← get
    (s.slice n).agg.forM (fun l => do
      aggRead n t l.1
      l.2.ents.forM (fun e => issue n c t k o.a4 .merge c.ovfs e 0))
    sealFlits n
    doSt (fun s => s.setSlice n { s.slice n with agg := [] })
    updTask n (fun t => { t with opened := true, blk := 1, blks := 1 })

/-! ### Progress of pipelines (04 R118) -/

/-- Whether a pipeline holds an operator. -/
def PipeI.has (p : PipeI) (opc : Nat) : Bool := (p.findOp opc).isSome

/-- Opcode of the input operator. -/
def PipeI.input (p : PipeI) : Nat := (p.ops.head?.map (·.opc)).getD 0

/-- A bucket operation of a pipeline is in flight. -/
def State.bopsOf (s : State) (ring seq pipe : Nat) : Bool :=
  s.eng.bops.any (fun b => b.ring == ring && b.seq == seq && b.pipe == pipe)

/-- Rows of an exchange of a run on their way or pending anywhere. -/
def State.xchLeft (s : State) (ring seq xid : Nat) : Bool :=
  s.eng.xch.any (fun m => m.ring == ring && m.seq == seq && m.xid == xid) ||
    (List.range 36).any (fun n => s.pendingRows n ring seq xid != 0)

/-- Whether every unit of a pipeline's input has been dispatched; `fuel` bounds the senders followed. -/
def State.inputGone (s : State) (d : Desc) (r : Run) (m : Img) : Nat → Nat → Bool
  | 0, _ => true
  | f + 1, j =>
    let p := nthD m.pipes j PipeI.none
    let ps := r.pipe j
    ps.closed ||
    (match p.input with
     | 2 => ps.total ≤ ps.next && (!bitAt (((p.ops.head?).map (·.opt)).getD 0) 0 || ps.chunks == some [])
     | 3 =>
       let xid := ((p.ops.head?).map (·.a2)).getD 0
       match (m.masked r.mask).find? (fun x => x.2.ops.any (fun o => o.opc == 0x38 && o.a2 == xid)) with
       | some x => State.inputGone s d r m f x.1 && (r.pipe x.1).running == 0 && !s.xchLeft d.ring d.seq xid
       | none => true
     | 0x31 => ps.finished
     | _ => decide (ps.total ≤ ps.next))

/-- The level-0 partitions of a pipeline still to be merged, once the last of its other tasks has ended (05 R171). -/
def State.partsLeft (s : State) (d : Desc) (r : Run) (m : Img) (j : Nat) : List Nat :=
  if m.isa != 0 || !(nthD m.pipes j PipeI.none).has 0x23 then []
  else match (r.pipe j).parts with
    | some l => l
    | none =>
      if s.inputGone d r m 16 j && (r.pipe j).running == 0 then
        (r.l0.keys.filter (fun k => k / 64 == j)).map (· % 64)
      else []

/-- Whether every task of a pipeline has ended. -/
def State.pipeEnded (s : State) (d : Desc) (r : Run) (m : Img) (j : Nat) : Bool :=
  let p := nthD m.pipes j PipeI.none
  let ps := r.pipe j
  s.inputGone d r m 16 j && ps.running == 0 && (!p.has 0x32 || ps.gathered) && (s.partsLeft d r m j).isEmpty

/-- Whether a pipeline's tasks and the operations they issued have all ended (04 R118). -/
def State.pipeDone (s : State) (d : Desc) (r : Run) (m : Img) (j : Nat) : Bool :=
  s.pipeEnded d r m j && !s.bopsOf d.ring d.seq j

/-- Whether a task of a run is on any slice. -/
def State.tasksOf (s : State) (ring seq : Nat) : Bool :=
  s.eng.slices.any (fun e => match e.2.task with
    | some t => t.ring == ring && t.seq == seq
    | none => false)

/-- Whether a descriptor's work has ended, so that its record may be written (06 R212, R213). -/
def State.workEnded (s : State) (d : Desc) : Bool :=
  d.done ||
  (match d.run with
   | none => false
   | some r =>
     let m := s.img r.slot
     !s.tasksOf d.ring d.seq && !s.eng.bops.any (fun b => b.ring == d.ring && b.seq == d.seq) &&
       (d.fail.isSome || (m.masked r.mask).all (fun x => s.pipeDone d r m x.1)))

/-! ### Dispatch (06 R210) -/

/-- The exchange ID of a RECV pipeline. -/
def PipeI.recvId (p : PipeI) : Nat := ((p.ops.head?).map (·.a2)).getD 0

/-- Whether a RECV pipeline has a task for slice `n`: 1,024 rows pending there, or rows left and the sender ended
(05 R186). -/
def State.recvDue (s : State) (d : Desc) (r : Run) (m : Img) (j n : Nat) : Bool :=
  let xid := (nthD m.pipes j PipeI.none).recvId
  let k := s.pendingRows n d.ring d.seq xid
  let ended := match (m.masked r.mask).find? (fun y => y.2.ops.any (fun o => o.opc == 0x38 && o.a2 == xid)) with
    | some y => s.pipeEnded d r m y.1
    | none => true
  decide (1024 ≤ k) || (ended && k != 0)

/-- Whether slice `n` may take the gather task of a pipeline. That of a RECV pipeline keeps off the slices its rows go to
while the context may use another (DEDUCED, notes/assumptions/98.md). -/
def State.gatherMay (s : State) (d : Desc) (r : Run) (p : PipeI) (n : Nat) : Bool :=
  let dests := Tab.get [] r.dests p.recvId
  p.input != 3 || !dests.contains n ||
    !(List.range 36).any (fun k => s.slcReady k && bitAt (s.rdW (Reg.CTX_SLICES d.ctx)).toNat k && !dests.contains k)

/-- The next task a pipeline of a run has for slice `n`. -/
def State.pipeTask (s : State) (d : Desc) (r : Run) (m : Img) (j n : Nat) : Option TaskKind :=
  let p := nthD m.pipes j PipeI.none
  let ps := r.pipe j
  let depsOk := (List.range m.pipes.length).all (fun k =>
    !bitAt p.depends k || !bitAt r.mask k || s.pipeDone d r m k)
  if !depsOk then none
  else if p.has 0x32 && ps.gather.isNone then (if s.gatherMay d r p n then some .gather else none)
  else match s.partsLeft d r m j with
    | q :: _ => some (.level0 q)
    | [] =>
      if ps.closed then none
      else match p.input with
        | 3 => if s.recvDue d r m j n then some .recv else none
        | 0x31 =>
          if ps.finished then none
          else match ps.runs with
            | none => if ps.running = (if p.has 0x32 then 1 else 0) then some .merge else none
            | some l => (nextMerge ps (bitsOf (((p.ops.head?).map (·.a5)).getD 0) 7 0) l).map (fun _ => .merge)
        | _ =>
          if ps.next < ps.total then some (.unit ps.next)
          else match ps.chunks with
            | some (x :: _) => some (.chunk x.1 x.2)
            | _ => none

/-- The next task of a run for a slice: its lowest pipeline that has one. -/
def State.runTask (s : State) (d : Desc) (n : Nat) : Option (Nat × TaskKind) :=
  match d.run with
  | none => none
  | some r =>
    if d.fail.isSome then none
    else
      let m := s.img r.slot
      (m.masked r.mask).findSome? (fun x => (s.pipeTask d r m x.1 n).map (fun k => (x.1, k)))

/-- The next task of a context for a slice: its oldest descriptor that has one. -/
def State.ctxTask (s : State) (c n : Nat) : Option (Desc × Nat × TaskKind) :=
  s.eng.descs.findSome? (fun d => if d.ctx == c then (s.runTask d n).map (fun x => (d, x.1, x.2)) else none)

/-- Contexts that have runs. -/
def State.runCtxs (s : State) : List Nat :=
  s.eng.descs.foldl (fun acc d => if d.run.isSome && !acc.contains d.ctx then acc ++ [d.ctx] else acc) []

/-- Whether a context may be given a slice. -/
def State.ctxMay (s : State) (c n : Nat) : Bool :=
  s.ctxValid c && bitAt (s.rdW (Reg.CTX_SLICES c)).toNat n &&
    decide (s.rd (Reg.CTX_STATUS c) F.CTX_STATUS_RUNNING < s.rd (Reg.CTX_CFG c) F.CTX_CFG_SLICE_QUOTA)

/-- The context of a list that comes next after the last served, round-robin. -/
def nextAfter (last : Nat) (l : List Nat) : Option Nat :=
  let up := l.filter (fun c => decide (last < c))
  lowest (if up.isEmpty then l else up)

/-- The context that wins a decision among those eligible (06 R210); of several passed over too often the lowest-numbered
(DESIGN CHOICE, notes/assumptions/112.md). -/
def State.winner (s : State) (el : List Nat) : Option Nat :=
  let lim := s.rd Reg.RMG_CTRL F.RMG_CTRL_AGE_LIMIT
  let old := el.filter (fun c => lim != 0 && decide (lim ≤ Tab.get 0 s.eng.age c))
  if !old.isEmpty then lowest old
  else
    let pr (c : Nat) : Nat := s.rd (Reg.CTX_CFG c) F.CTX_CFG_PRIORITY
    let top := (el.map pr).foldl max 0
    let l := el.filter (fun c => pr c == top)
    nextAfter (match Tab.look s.eng.rr top with
      | some c => c
      | none => 4096) l

/-- Record a decision: the winner's turn is taken, the others were passed over. -/
def State.decided (s : State) (el : List Nat) (w : Nat) : State :=
  s.eng' (fun e => { e with
    rr := Tab.ins e.rr (s.rd (Reg.CTX_CFG w) F.CTX_CFG_PRIORITY) w
    age := el.foldl (fun a c => Tab.put 0 a c (if c = w then 0 else Tab.get 0 a c + 1)) e.age })

/-- A task as it starts. -/
def Task.start (id ring seq ctx pipe : Nat) (kind : TaskKind) : Task :=
  { id := id, ring := ring, seq := seq, ctx := ctx, pipe := pipe, kind := kind, oper := 0, batch := none, frame := 1,
    queue := Batch.empty, sent := 0, blk := 0, blks := 0, opened := false, probes := [], fetch := [], fetched := [],
    fetching := false, heap := [], cutKey := none, told := false, runs := [], final := false, stall := none,
    dropped := false, ending := false, fail := none, tagged := false, packed := 0 }

/-- The runs a merge task takes are settled as it is dispatched; the first task's dispatch reads the run directory, unless
that read cannot go through, which is then for the task to find (05 R179). -/
def State.tellMerge (s : State) (n : Nat) (d : Desc) (pipe : Nat) : State :=
  match s.run d.ring d.seq, (s.slice n).task with
  | some r, some t =>
    let m := s.img r.slot
    let o := (((nthD m.pipes pipe PipeI.none).ops).head?).getD ⟨0, 0, 0, 0, 0, 0, 0, 0, 0⟩
    let ps := r.pipe pipe
    let (pool, s) : Option (List Nat) × State := match ps.runs with
      | some l => (some l, s)
      | none => match (openRuns (t.who n) (rDeclOf (m.decl o.a4))).run s with
        | (.ok l, s') => (some l, s')
        | _ => (none, s)
    match pool.bind (nextMerge ps (bitsOf o.a5 7 0)) with
    | some (l, last, ps') =>
      (s.updRun d.ring d.seq (fun r => r.updPipe pipe (fun _ => ps'))).setTask n
        { t with told := true, runs := l, final := last }
    | none => s
  | _, _ => s

/-- Give a slice a task (03 R68, R71, 06 R210, 14 R370): a change of checking mode or an identity clear is started first, and
buffered messages of other exchanges go to spill (05 R185). -/
def State.giveTask (s : State) (n : Nat) (d : Desc) (pipe : Nat) (kind : TaskKind) : State :=
  let left := d.run.map (fun r => s.partsLeft d r (s.img r.slot) pipe)
  let r := d.run.map (fun r => r.updPipe pipe (fun p =>
    let p := { p with running := p.running + 1 }
    match kind with
    | .unit _ => { p with next := p.next + 1 }
    | .chunk _ _ => { p with chunks := p.chunks.map (·.drop 1) }
    | .gather => { p with gather := some n }
    | .level0 _ => { p with parts := left.map (·.drop 1) }
    | _ => p))
  let s := s.setDesc { d with run := r }
  let isa := (s.img ((r.map (·.slot)).getD 0)).isa
  let who := s.ctxIdent d.ctx
  let x := s.slice n
  let word := b2n (isa == 0)
  let modeCh := s.rd (Reg.SLC_STATUS n) F.SLC_STATUS_CBUF_MODE != word
  let clear := x.last != some who
  let s := s.setSlice n { x with
    task := some (Task.start s.eng.tasks d.ring d.seq d.ctx pipe kind), rewriting := modeCh || clear, clearing := clear,
    last := some who }
  let s := s.eng' (fun e => { e with tasks := e.tasks + 1 })
  let s := s.addF (Reg.CTX_STATUS d.ctx) F.CTX_STATUS_RUNNING 1
  let s := if modeCh then s.pmcSlc n 13 (some who) 1 else s
  let s := if clear then s.pmcSlc n 14 (some who) 1 else s
  let s := if modeCh then
      -- STATE reads 0b010 while the mode changes; CTX and LEVEL read 0 unless STATE is 0b001
      s.wrs (Reg.SLC_STATUS n) [(F.SLC_STATUS_STATE, 2), (F.SLC_STATUS_CTX, 0), (F.SLC_STATUS_LEVEL, 0)]
    else s.wrs (Reg.SLC_STATUS n) [(F.SLC_STATUS_STATE, 1), (F.SLC_STATUS_CTX, d.ctx), (F.SLC_STATUS_LEVEL, isa)]
  let s := if kind = .merge then s.tellMerge n d pipe else s
  s.drainRecv n

/-- Whether a slice can take a task. -/
def State.slcFree (s : State) (n : Nat) : Bool := s.slcReady n && (s.slice n).task.isNone

/-- A dispatch decision for a free slice (06 R210): RECV tasks stand in the same choice as the others. With `recv` the
decision is taken only where it gives a RECV task. -/
def State.dispatch (s : State) (n : Nat) (recv : Bool) : State :=
  let el := (s.runCtxs.filter (fun c => s.ctxMay c n)).filter (fun c => (s.ctxTask c n).isSome)
  match s.winner el with
  | none => s
  | some w =>
    match s.ctxTask w n with
    | none => s
    | some (d, j, k) => if recv && k != .recv then s else (s.decided el w).giveTask n d j k

/-- The column buffer has been rewritten and the task starts; an identity clear has zeroed the aggregation cache too
(03 R68, 14 R370). -/
def State.rewritten (s : State) (n : Nat) : State :=
  let x := s.slice n
  match x.task with
  | none => s
  | some t =>
    if !x.rewriting then s
    else
      let isa := match s.opCtx { t with oper := 0 } with
        | some c => c.m.isa
        | none => 0
      let s := s.setSlice n { x with rewriting := false, clearing := false, agg := if x.clearing then [] else x.agg }
      let s := s.wrs (Reg.SLC_STATUS n) [(F.SLC_STATUS_CBUF_MODE, b2n (isa == 0)), (F.SLC_STATUS_STATE, 1),
        (F.SLC_STATUS_CTX, t.ctx), (F.SLC_STATUS_LEVEL, isa)]
      let s := s.cbWrite n false [(0, 4194304)]
      if x.clearing then s.cbWrite n true [(0, 524288)] else s

/-! ### The end of a task (03 R74, 06 R213) -/

/-- Whether a task has taken and processed all of its input. -/
def Task.finished (t : Task) (gathered : Bool) : Bool :=
  t.batch.isNone && t.probes.isEmpty && t.queue.rows.isEmpty && t.stall.isNone &&
  (match t.kind with
   | .gather => gathered
   | .merge => t.opened && decide (t.blks ≤ t.blk)
   | _ => t.opened && decide (t.blks ≤ t.blk))

/-- What a task does as it ends normally: partials leave the cache, TOPK rows go to the gather slice. -/
def flushTask (n : Nat) (t : Task) : EM Unit := do
  let s ← get
  match s.opCtx { t with oper := 0 } with
  | none => pure ()
  | some c => do
    match c.p.aggOp with
    | some (k, o) =>
      let c := { c with o := o }
      flushAgg n c t k o.a4 c.ovfs
    | none => pure ()
    if t.kind != .gather && !t.heap.isEmpty then
      match topkAt c.p with
      | some (k, o) => cbRead n t.ctx false (c.heapRange k o t.heap) 0xFFFF
      | none => pure ()
      doSt (fun s => s.eng' (fun e => { e with
        top := e.top ++ [⟨t.ring, t.seq, t.pipe, ((c.r.pipe t.pipe).gather).getD 0, t.heap, t.cutKey⟩] }))
      updTask n (fun t => { t with heap := [] })

/-- A task leaves its slice; its pages and messages go with it. -/
def State.leaveSlice (s : State) (n : Nat) (t : Task) : State :=
  let mine (a b : Nat) : Bool := a == n && b == t.id
  let s := s.sealed n
  let s := s.eng' (fun e => { e with
    pages := e.pages.filter (fun p => !mine p.slice p.task)
    chains := e.chains.filter (fun p => !mine p.slice p.task)
    surv := e.surv.filter (fun p => !mine p.slice p.task) })
  let s := s.setSlice n { s.slice n with task := none, rewriting := false, clearing := false, agg := [] }
  let r := s.rd (Reg.CTX_STATUS t.ctx) F.CTX_STATUS_RUNNING
  let s := s.wr (Reg.CTX_STATUS t.ctx) F.CTX_STATUS_RUNNING (r - 1)
  let s := s.updRun t.ring t.seq (fun r => r.updPipe t.pipe (fun p =>
    { p with running := p.running - 1, gathered := p.gathered || t.kind == .gather }))
  let s := s.wrs (Reg.SLC_STATUS n) [(F.SLC_STATUS_CTX, 0), (F.SLC_STATUS_LEVEL, 0),
    (F.SLC_STATUS_STATE, if s.on (Reg.SLC_CTRL n) F.SLC_CTRL_OFFLINE || s.offlineDue n then 3 else 0)]
  s.pmcSlc n 0 (some (s.ctxIdent t.ctx)) 1

/-- Once the last task that reads a Finxis run's staged input has ended, the input's staging space is free (08 R247). -/
def State.stagedInDone (s : State) (t : Task) : State :=
  match s.ringPort t.ring, s.desc t.ring t.seq with
  | some p, some d =>
    match d.run with
    | some r =>
      let m := s.img r.slot
      if (m.masked r.mask).all (fun x => x.2.input != 4 || (s.inputGone d r m 16 x.1 && (r.pipe x.1).running == 0)) then
        s.stageFreeIn p t.ring t.seq
      else s
    | none => s
  | _, _ => s

/-- The task on a slice ends, if it can. -/
def State.taskEnd (s : State) (n : Nat) : State :=
  match (s.slice n).task with
  | none => s
  | some t =>
    let df := ((s.desc t.ring t.seq).map (fun d => d.fail.isSome)).getD true
    let ps := ((s.run t.ring t.seq).map (fun r => r.pipe t.pipe)).getD PipeSt.start
    match t.fail with
    | some f => (s.leaveSlice n t).fixRun t.ring t.seq f
    | none =>
      let rest := t.batch.isNone && t.probes.isEmpty
      if t.ending && df && (rest || t.dropped) then s.leaveSlice n t
      else if t.finished ps.gathered || (t.ending && rest && !df) then
        let s' := s.taskDo n (fun t => flushTask n t)
        match (s'.slice n).task with
        | some t' => if t'.fail.isSome || t'.stall.isSome then s' else (s'.leaveSlice n t').stagedInDone t'
        | none => s'
      else s

/-- Every slice of the package that holds a task whose die is lost, and runs that lose a destination (03 R73, 05 R183). -/
def State.dropSlice (s : State) (n : Nat) : State :=
  let s := match (s.slice n).task with
    | some t => (s.leaveSlice n t).fixRun t.ring t.seq ⟨0x31, 0, taskDetail t.pipe t.oper 0xFFFF, 0⟩
    | none => s
  let s := s.eng.descs.foldl (fun s d =>
    match d.run with
    | some r => if d.fail.isNone && r.dests.any (fun e => e.2.contains n) then s.fixRun d.ring d.seq ⟨0x31, 0, 0, 0⟩ else s
    | none => s) s
  s.setSlice n Slice.reset

end Sys2Proof.Machine
end

