-- ==== Sys2Proof/Machine/DmOps.lean ====
section
/-! DEFINITION. The data-mover channels (07): instructions, statuses, the doorbell, loops and the encoder. -/

namespace Sys2Proof.Machine
open Sys2Proof

/-! ### Channels -/

/-- A channel. -/
def State.chan (s : State) (n : Nat) : DmCh := Tab.get DmCh.reset s.dm n

/-- Replace a channel. -/
def State.setChan (s : State) (n : Nat) (c : DmCh) : State := { s with dm := Tab.put DmCh.reset s.dm n c }

/-- The identity of a channel's accesses (07 R220). -/
def State.chanWho (s : State) (n : Nat) : Ident :=
  ⟨s.rd (Reg.DM_CFG n) F.DM_CFG_PID, worldOf (s.rd (Reg.DM_CFG n) F.DM_CFG_WORLD)⟩

/-- STATE of a channel. -/
def State.chanState (s : State) (n : Nat) : Nat := s.rd (Reg.DM_STATUS n) F.DM_STATUS_STATE

/-- A channel enters state error and runs nothing further (07 R222); a column that is open is dropped. -/
def State.chanError (s : State) (n cause : Nat) : State :=
  let c := s.chan n
  (s.setChan n { c with prog := none, work := .none, enc := none, loops := [], ending := none }).wrs (Reg.DM_STATUS n)
    [(F.DM_STATUS_STATE, 3), (F.DM_STATUS_CAUSE, cause)]

/-- Count and record a bad status (07 R222, R226). -/
def State.chanBad (s : State) (n code addr : Nat) : State :=
  let s := s.satF (Reg.DM_STATUS n) F.DM_STATUS_BAD 1
  if s.on (Reg.DM_ERR n) F.DM_ERR_VALID then s
  else s.wrs (Reg.DM_ERR n) [(F.DM_ERR_VALID, 1), (F.DM_ERR_CODE, code), (F.DM_ERR_ADDR, addr / 16)]

/-- The MSI of a channel. -/
def State.chanMsi (s : State) (n : Nat) : State :=
  let m := Reg.DM_MSI n
  if s.on m F.DM_MSI_EN then s.msiTo (s.chanWho n) (s.rd m F.DM_MSI_ADDR * 4096) (s.rd m F.DM_MSI_EIID) else s

/-- A channel learns its doorbell slot's value (07 R222). -/
def State.chanDoorbell (s : State) (n v : Nat) : State :=
  if s.chanState n = 1 ∨ s.chanState n = 2 then
    let start := v % 2 ^ 32
    let done := s.rd (Reg.DM_STATUS n) F.DM_STATUS_DONE
    if 2 ^ s.rd (Reg.DM_TABLE n) F.DM_TABLE_SIZE_LOG2 < (start + 2 ^ 32 - done) % 2 ^ 32 then s.chanError n 1
    else s.setChan n { s.chan n with start := start }
  else s

/-- The ring manager reads a channel's doorbell slot. -/
def State.readChanSlot (s : State) (n : Nat) : State :=
  let pa := s.rd (Reg.DM_DB n) F.DM_DB_LINE * 128 + 8 * s.rd (Reg.DM_DB n) F.DM_DB_SLOT
  let (r, s) := s.readPa (s.chanWho n) pa 8
  if r.res != AccRes.ok then s.chanError n 2
  else if r.poison then s.chanError n 3
  else s.chanDoorbell n (leNat r.bytes)

/-- Channels whose doorbell line is a given one. -/
def State.chansOn (s : State) (ln : Nat) : List Nat :=
  below 32 (fun n => s.on (Reg.DM_DB n) F.DM_DB_EN && s.rd (Reg.DM_DB n) F.DM_DB_LINE == ln &&
    s.on (Reg.DM_CFG n) F.DM_CFG_VALID)

/-- The identity under which a doorbell line is read: that of the first ring pair or channel whose slot lies on it. -/
def State.lineWho (s : State) (ln : Nat) : Ident :=
  match s.ringsOn ln with
  | n :: _ => s.ctxIdent (s.rd (Reg.RING_CFG n) F.RING_CFG_CTX)
  | [] =>
    match s.chansOn ln with
    | n :: _ => s.chanWho n
    | [] => noIdent

/-! ### Instructions (07 R224) -/

/-- An instruction: opcode, flags, operand bits. -/
structure DmIns where
  op : Nat
  flags : Nat
  opnd : Nat
  deriving DecidableEq, Repr

/-- Read an instruction of 16 bytes. -/
def dmInsOf (b : List Byte) : DmIns :=
  let w := leAt b 0 16
  ⟨bitsOf w 127 120, bitsOf w 111 104, bitsOf w 103 0⟩

/-- A field of the operand bits. -/
def DmIns.f (i : DmIns) (hi lo : Nat) : Nat := bitsOf i.opnd hi lo

/-- Whether a channel is ready to run an instruction. -/
def State.chanGoes (s : State) (n : Nat) : Bool :=
  let c := s.chan n
  s.chanState n == 2 && c.prog.isSome && c.work == .none && c.ending.isNone

/-- Address of the instruction a channel is at. -/
def DmCh.pa (c : DmCh) : Nat := c.prog.getD 0 + 16 * c.pc

/-- End the instruction a channel is at with a status: it is written back unless a bad one of this program run stands, and a
bad one is recorded (07 R226). -/
def State.dmStatus (s : State) (n code : Nat) : State :=
  let c := s.chan n
  let stands := c.badAt.contains c.pc
  let (r, s) := if stands then (AccRes.ok, s) else s.writePa (s.chanWho n) (c.pa + 14) [BitVec.ofNat 8 code]
  let s := if 0x80 ≤ code then s.chanBad n code c.pa else s
  let s := s.setChan n { s.chan n with
    work := .none
    badAt := if 0x80 ≤ code && !stands then c.badAt ++ [c.pc] else c.badAt }
  if r = .ok then s else s.chanError n 2

/-- End the instruction and go on with the next one. -/
def State.dmNext (s : State) (n code : Nat) : State :=
  let s := s.dmStatus n code
  if (s.chan n).prog.isSome then s.setChan n { s.chan n with pc := (s.chan n).pc + 1 } else s

/-- End the instruction with a bad status that drops the open column (07 R232). -/
def State.dmDrop (s : State) (n code : Nat) : State := (s.setChan n { s.chan n with enc := none }).dmNext n code

/-- A write of a closed page's footer or of its block's fields is refused: the page's closing goes no further, and the
instruction that runs ends REFUSED (DESIGN CHOICE, notes/assumptions/46.md). -/
def State.closeRefused (s : State) (n : Nat) (c : Closing) : State :=
  let s := s.setChan n { s.chan n with closing := (s.chan n).closing.erase c }
  if s.chanState n == 2 && (s.chan n).prog.isSome && (s.chan n).ending.isNone then s.dmDrop n 0x80 else s

/-- End the program on itself (07 R225): the open column is dropped and no MSI is sent. -/
def State.dmSelfEnd (s : State) (n : Nat) : State :=
  let s := s.dmStatus n 0x84
  if (s.chan n).prog.isSome then s.setChan n { s.chan n with enc := none, ending := some false } else s

/-- Run the instruction a channel is at, if its opcode is of the command. The line is read as it stands now (DESIGN CHOICE,
notes/assumptions/113.md). -/
def State.dmRun (s : State) (n : Nat) (ops : Nat → Bool) (f : DmIns → State → State) : State :=
  if !s.chanGoes n then s
  else
    let (r, s') := s.readPa (s.chanWho n) (s.chan n).pa 16
    if r.res != AccRes.ok then s'.chanError n 2
    else if r.poison then s'.chanError n 3
    else
      let i := dmInsOf r.bytes
      if ops i.op then f i s' else s

/-! ### Loops (07 R225) -/

/-- LOOP's operands. -/
def DmIns.count (i : DmIns) : Nat := i.f 39 16
/-- BACK of a LOOP. -/
def DmIns.back (i : DmIns) : Nat := i.f 7 0

/-- Whether a LOOP is well-formed where it stands; one that would jump before the program's first instruction is not
(DEDUCED, notes/assumptions/45.md). -/
def DmIns.loopOk (i : DmIns) (pc : Nat) : Bool :=
  i.flags == 0 && i.f 103 40 == 0 && i.f 15 8 == 0 && i.count != 0 && i.back != 0 && decide (i.back ≤ pc)

/-- Jump back, or go on. -/
def State.dmLoop (s : State) (n : Nat) (i : DmIns) : State :=
  let c := s.chan n
  if !i.loopOk c.pc then s.dmNext n 0x84
  else
    let jump (l : DmLoop) : State :=
      let s := s.dmStatus n 1
      if (s.chan n).prog.isSome then
        s.setChan n { s.chan n with pc := c.pc - i.back, loops := (c.loops.filter (fun x => x.at_ != c.pc)) ++ [l] }
      else s
    match c.loops.find? (fun x => x.at_ == c.pc) with
    | some l =>
      if l.left = 0 then (s.setChan n { c with loops := c.loops.filter (fun x => x.at_ != c.pc) }).dmNext n 1
      else jump { l with left := l.left - 1, iter := l.iter + 1 }
    | none =>
      if i.count = 1 then s.dmNext n 1
      else if 4 ≤ c.loops.length then s.dmNext n 0x84
      else jump ⟨c.pc, i.back, i.count - 2, 1⟩

/-- The innermost LOOP whose range holds instruction `pc` of a program: the first such one after it, none beyond the end
of the program. -/
def State.loopOver (s : State) (who : Ident) (prog pc : Nat) : Nat → Nat → Option Nat
  | 0, _ => none
  | f + 1, j =>
    let i := dmInsOf (s.readPa who (prog + 16 * j) 16).1.bytes
    if i.op = 4 ∧ i.loopOk j = true ∧ j - i.back ≤ pc then some j
    else if i.op = 0xF ∨ i.op = 0 ∨ 6 < i.op then none
    else State.loopOver s who prog pc f (j + 1)

/-- Iteration number of the innermost enclosing loop of the instruction a channel is at. -/
def State.dmIter (s : State) (n : Nat) : Nat :=
  let c := s.chan n
  match s.loopOver (s.chanWho n) (c.prog.getD 0) c.pc 255 (c.pc + 1) with
  | some j => ((c.loops.find? (fun l => l.at_ == j)).map (·.iter)).getD 0
  | none => 0

/-! ### The encoder (02 R53 to R57, 07 R229 to R234) -/

/-- An encoder step: it may stop with a bad status. -/
abbrev EncM (α : Type) := ExceptT Nat (StateM State) α

/-- Stop with a bad status unless a condition holds. -/
def encEnsure (b : Bool) (code : Nat) : EncM Unit := if b then pure () else throw code

/-- Read for a channel: REFUSED or POISON when it fails. -/
def dmRead (n pa len : Nat) : EncM (List Byte) := do
  let r ← askSt (fun s => s.readPa (s.chanWho n) pa len)
  encEnsure (r.res == AccRes.ok) 0x80
  encEnsure (!r.poison) 0x81
  return r.bytes

/-- Write for a channel: REFUSED when it fails. -/
def dmWrite (n pa : Nat) (l : List Byte) : EncM Unit := do
  let r ← askSt (fun s => s.writePa (s.chanWho n) pa l)
  encEnsure (r == AccRes.ok) 0x80

/-- Put bytes into the page buffer. -/
def EncCol.put (e : EncCol) (off : Nat) (l : List Byte) : EncCol := { e with buf := putRun e.buf off l }

/-- Bytes of the page buffer. -/
def EncCol.bytes (e : EncCol) (off n : Nat) : List Byte := (List.range n).map (fun i => Tab.get 0 e.buf (off + i))

/-- Address of the open page. -/
def EncCol.pa (e : EncCol) : Nat := e.dst.base + 65536 * e.page

/-- Lines of the page that are complete: of payloads, slot headers and dictionary entries written so far. -/
def EncCol.complete (e : EncCol) : List Nat :=
  let u := e.slots.length
  let d := e.dst
  let span (lo hi : Nat) : List Nat := (List.range (hi / 128 - lo / 128)).map (· + lo / 128)
  span 128 (128 + 16 * u) ++ span (d.slotOff 0) (d.slotOff u) ++ span d.dictOff (d.dictOff + e.dict.length * d.ty.width)

/-- Write lines of the page that have not been written. -/
def writeLines (n : Nat) (e : EncCol) (ls : List Nat) : EncM EncCol := do
  let todo := ls.filter (fun k => !e.wrote.contains k)
  todo.forM (fun k => dmWrite n (e.pa + 128 * k) (e.bytes (128 * k) 128))
  return { e with wrote := e.wrote ++ todo }

/-- Type code of a type. -/
def tyCode (t : Ty) : Nat := tyList.idxOf t + 1

/-- The page header (02 R38). -/
def EncCol.header (e : EncCol) : List Byte :=
  let d := e.dst
  fitB 128 (leBytes 4 0x50435246 ++ leBytes 1 1 ++ leBytes 1 (tyCode d.ty) ++ leBytes 1 d.ratioLog2 ++ leBytes 1 d.guardT ++
    leBytes 2 d.slotBytes ++ leBytes 2 d.slots ++ leBytes 2 e.slots.length ++ leBytes 2 d.cap ++ leBytes 2 e.dict.length ++
    leBytes 2 d.dictOff ++ leBytes 1 d.scale ++ leBytes 1 e.level ++ leBytes 2 (b2n e.escape + 2 * b2n e.gaps) ++
    leBytes 8 e.colId ++ leBytes 8 (e.page * d.slots * 1024))

/-- The check symbols with an armed flip applied (07 R234). -/
def flipCheck (r t : Nat) (check : List Byte) : List Byte :=
  let pat (k : Nat) : Nat :=
    if bitAt r 62 then bitsOf r 15 0
    else (if bitsOf r 52 48 = k then bitsOf r 15 0 else 0) ^^^ (if bitsOf r 57 53 = k then bitsOf r 31 16 else 0)
  (List.range 32).flatMap (fun k =>
    leBytes 2 (leAt check (2 * k) 2 ^^^ (if k < 2 * t then pat k else 0)))

/-- Close the open page (02 R56, R57): every line but the footer is written, the header last; the footer waits. -/
def closePage (n : Nat) (e : EncCol) : EncM EncCol := do
  let d := e.dst
  let e := { e with gaps := e.gaps || decide (e.slots.length < d.slots) }
  let e := e.put 0 e.header
  let e := e.put 65408 (leBytes 4 0x46435246 ++ leBytes 1 d.guardT)
  let s ← get
  let r := (s.rdW (Reg.DM_GFLIP n)).toNat
  let check := pageCheck d.guardT (e.bytes 0 65536)
  let flip := decide (1 ≤ d.guardT) && s.on (Reg.DM_GFLIP n) F.DM_GFLIP_ARM
  doSt (fun s => if flip then s.wr (Reg.DM_GFLIP n) F.DM_GFLIP_ARM 0 else s)
  let e := e.put 65472 (if flip then flipCheck r d.guardT check else check)
  let e ← writeLines n e ((List.range 510).map (· + 1))
  let e ← writeLines n e [0]
  let next := (e.page + 1) * d.slots * 1024
  let cl : Closing := ⟨e.pa, e.bytes 65408 128, false, e.blk, next, e.heapNext, e.pages + 1⟩
  doSt (fun s => s.setChan n { s.chan n with closing := (s.chan n).closing ++ [cl] })
  return { e with page := e.page + 1, pages := e.pages + 1, slots := [], dict := [], escape := false, gaps := false, buf := [],
                  wrote := [] }

/-- One row's string goes to the destination's heap, if it is long: the next free heap byte, and the row (07 R231). -/
def copyRow (n : Nat) (e : EncCol) (a : Nat × List EncRow) (r : EncRow) : EncM (Nat × List EncRow) := do
  let len := r.v % 2 ^ 32
  if !r.ok || len ≤ 12 then pure (a.1, a.2 ++ [r])
  else do
    let str ← dmRead n (e.src.heapBase + refOffset r.v) len
    encEnsure (decide (a.1 + len ≤ e.dst.heapBytes)) 0x82
    dmWrite n (e.dst.heapBase + a.1) str
    return (a.1 + len, a.2 ++ [{ r with v := r.v % 2 ^ 64 + a.1 * 2 ^ 64 }])

/-- Copy the long strings of a block's rows to the destination's heap and rewrite their references (07 R231). -/
def copyStrings (n : Nat) (e : EncCol) : EncM EncCol :=
  if e.dst.ty != .varstr then pure e
  else do
    let r ← e.pend.foldlM (copyRow n e) (e.heapNext, [])
    return { e with pend := r.2, heapNext := alignUp r.1 128 }

/-- Put a block into its slot, or into the overflow heap with an escape header in its slot (02 R53, R55). -/
def placeBlock (n : Nat) (e : EncCol) (r : EncRes) : EncM EncCol := do
  let d := e.dst
  let k := e.slots.length
  if r.data.length ≤ d.slotBytes then
    let e := (e.put (d.slotOff k) (fitB d.slotBytes r.data)).put (128 + 16 * k) r.hdr.bytes
    pure { e with slots := e.slots ++ [r.hdr] }
  else do
    let len := 16 + r.data.length
    encEnsure (decide (e.heapNext + len ≤ d.heapBytes)) 0x82
    let h : SlotH := { r.hdr with enc := 0xE, width := 0, param := e.heapNext + len * 2 ^ 40 }
    dmWrite n (d.heapBase + e.heapNext) (fitB (alignUp len 128) (r.hdr.bytes ++ r.data))
    let e := e.put (128 + 16 * k) h.bytes
    return { e with slots := e.slots ++ [h], escape := true, heapNext := alignUp (e.heapNext + len) 128 }

/-- Append a block's new dictionary entries to the page's dictionary. -/
def EncCol.extendDict (e : EncCol) (dict : List Nat) : EncCol :=
  let d := e.dst
  let e := (dict.drop e.dict.length).zipIdx.foldl (fun (e : EncCol) x =>
    e.put (d.dictOff + (e.dict.length + x.2) * d.ty.width) (leBytes d.ty.width x.1)) e
  { e with dict := dict }

/-- Close the current block (02 R53, R55, R56). -/
def closeBlock (n : Nat) (e : EncCol) : EncM EncCol := do
  let e ← copyStrings n e
  let r := chooseEnc e.dst e.level e.slots e.dict (e.pend.map (fun x => (x.ok, x.v)))
  let gaps := e.gaps || decide (e.pend.length < 1024)
  let e ← placeBlock n e r
  let e := { e.extendDict r.dict with gaps := gaps, pend := [] }
  let e ← writeLines n e e.complete
  if e.slots.length = e.dst.slots then closePage n e else pure e

/-- FLUSH of a column (02 R56). -/
def flushCol (n : Nat) (e : EncCol) (close : Bool) : EncM EncCol := do
  let e ← if e.pend.isEmpty then pure e else closeBlock n e
  if close && !e.slots.isEmpty then closePage n e else pure e

/-- Run an encoder step on a channel: its open column afterwards, or a bad status that drops it. -/
def State.encDo (s : State) (n : Nat) (m : EncM (Option EncCol)) (f : State → State) : State :=
  match m.run s with
  | (.ok e, s) => f (s.setChan n { s.chan n with enc := e })
  | (.error code, s) => s.dmDrop n code

/-- The column an encode block describes, if the block is valid (07 R229). -/
def encColOf (pa level : Nat) (b : List Byte) : Option EncCol :=
  let sb := sliceB b 0 64
  let db := sliceB b 64 64
  match colDOf sb, colDOf db with
  | some src, some dst =>
    let nr := leAt b 144 8
    let hn := leAt b 152 8
    if colDOk sb false && src.kind == 2 && colDOk db true && dst.kind == 1 && src.ty == dst.ty && src.scale == dst.scale &&
        nr % (1024 * dst.slots) == 0 && hn % 128 == 0 && decide (hn ≤ dst.heapBytes) && decide (leAt b 136 8 < src.rows) &&
        zeroRange b 168 192 then
      some { blk := pa, src := src, dst := dst, colId := leAt b 128 8, row := leAt b 136 8, page := nr / (1024 * dst.slots),
             heapNext := hn, pages := leAt b 160 8, level := level, pend := [], slots := [], dict := [], escape := false,
             gaps := false, buf := [], wrote := [] }
    else none
  | _, _ => none

/-- Source rows one line holds from the column's next row on, at most `left` and at most what the block still takes. -/
def EncCol.lineRows (e : EncCol) (left : Nat) : Nat :=
  let w := e.src.ty.width
  let at_ := e.src.base + e.row * w
  min (min (min left (e.src.rows - e.row)) ((128 - at_ % 128) / w)) (1024 - e.pend.length)

/-- Validity bits of the next `k` source rows; none where the source has none (04 R121). -/
def sourceBits (n : Nat) (e : EncCol) (k : Nat) : EncM (List Byte) :=
  if bitAt e.src.flags 0 then dmRead n (e.src.validBase + e.row / 8) (ceilDiv (e.row % 8 + k) 8) else pure []

/-- A source row from the values and validity bits read with it. -/
def EncCol.sourceRow (e : EncCol) (vals bits : List Byte) (i : Nat) : EncRow :=
  let w := e.src.ty.width
  let ok := !bitAt e.src.flags 0 || bitAt (leAt bits ((e.row % 8 + i) / 8) 1) ((e.row + i) % 8)
  ⟨ok, if ok then leAt vals (w * i) w else 0⟩

/-- Take the source rows of one line, at most `left`: the column and how many rows were taken (07 R230, 04 R121). -/
def takeRowsOf (n : Nat) (e : EncCol) (left : Nat) : EncM (EncCol × Nat) := do
  let k := e.lineRows left
  let vals ← dmRead n (e.src.base + e.row * e.src.ty.width) (k * e.src.ty.width)
  let bits ← sourceBits n e k
  let e := { e with pend := e.pend ++ (List.range k).map (e.sourceRow vals bits), row := e.row + k }
  let e ← if e.pend.length = 1024 then closeBlock n e else pure e
  return (e, k)

end Sys2Proof.Machine
end

