-- ==== Sys2Proof/Machine/Units.lean ====
section
/-! DEFINITION. What the package does to its engine, data movers, ports, transactions and management requests as wholes:
ending work, resetting, and asking whether anything runs. -/

namespace Sys2Proof.Machine
open Sys2Proof

/-! ### Engine and data movers -/

/-- The task on a slice ends with DIE_LOST (03 R73). -/
def State.loseSlice (s : State) (n : Nat) : State := s.dropSlice n

/-- Every descriptor, task and image is gone (16 R400, 17 R413). -/
def State.engineReset (s : State) : State := { s with eng := Eng.reset }

/-- The data movers are idle and forget their programs. -/
def State.dmReset (s : State) : State := { s with dm := [] }

/-- Whether a descriptor has started without completing. -/
def State.descsOpen (s : State) : Bool := !s.eng.descs.isEmpty

/-- Whether a data-mover program runs. -/
def State.dmRunning (s : State) : Bool := (List.range 32).any (fun n => s.chanState n == 2)

/-- Whether a slice holds a task. -/
def State.sliceBusy (s : State) (n : Nat) : Bool := (s.slice n).task.isSome

/-- The ring manager watches every doorbell line of an enabled ring pair or channel again and reads its slots (18 R454). -/
def State.rereadDoorbells (s : State) : State :=
  let s := (below 4096 (fun n => s.rdW (Reg.RING_DB n) != 0 && s.on (Reg.RING_DB n) F.RING_DB_EN &&
      s.rd (Reg.RING_STATUS n) F.RING_STATUS_STATE == 1 && (s.ringPort n).isNone)).foldl (fun s n =>
    s.watchLine (s.rd (Reg.RING_DB n) F.RING_DB_LINE)) s
  (below 32 (fun n => s.on (Reg.DM_DB n) F.DM_DB_EN && s.on (Reg.DM_CFG n) F.DM_CFG_VALID)).foldl (fun s n =>
    s.watchLine (s.rd (Reg.DM_DB n) F.DM_DB_LINE)) s

/-! ### Finxis ports -/

/-- The Finxis ports lose their links and sessions. -/
def State.finxisReset (s : State) : State := { s with fx := [] }

/-- The Finxis ports go on with virtual lane 2 alone (16 R400, 08 R253): their links, sessions and management packets stay, and what
their descriptors had there is gone. -/
def State.finxisLane2 (s : State) : State :=
  { s with fx := s.fx.mapD FxPort.reset (fun (x : FxPort) => { x with
      txq := x.txq.filter (fun f => f.vl == 2), asm := x.asm.keep (fun v _ => v == 2), rx := x.rx.filter (fun k => fxVl k.type == 2)
      wins := [], stages := [], waiting := none, want := [], again := [], outw := [] }) }

/-- A Finxis port goes DOWN with a cause and raises its error event (08 R236). -/
def State.finxisDown (s : State) (p cause : Nat) : State :=
  if s.fxState p = 0 then s
  else (s.wrs (Reg.FX_STATUS p) [(F.FX_STATUS_STATE, 0), (F.FX_STATUS_DOWN_CAUSE, cause)]).raise (293 + p)

/-- A port that is not DOWN goes to LOW (08 R253); one still training loses what it trained (DEDUCED,
notes/assumptions/114.md). -/
def State.portLow (s : State) (p : Nat) : State :=
  let k := s.fxState p
  if k = 0 then s
  else if 1 ≤ k ∧ k ≤ 4 then s.fxUntrained p 7
  else s.wr (Reg.FX_STATUS p) F.FX_STATUS_STATE 7

/-- A port leaves LOW: a trained one for ACTIVE, any other for DETECT. -/
def State.portWake (s : State) (p : Nat) : State :=
  if s.fxState p ≠ 7 then s
  else if s.rd (Reg.FX_STATUS p) F.FX_STATUS_WIDTH = 0 then s.fxUntrained p 1 else s.fxActive p

/-- Finxis ports go to LOW, or leave it (08 R253). -/
def State.finxisLow (s : State) (low : Bool) : State :=
  s.forAll 4 (fun p s => if low then s.portLow p else s.portWake p)

/-- Completion records among flits that wait: RESPONSE packets, each one flit. -/
def heldResponses (l : List FxFlit) : Nat := (l.filter (fun f => f.type == 0x22)).length

/-- Flits of packets whose first flit is among them, but for those of responses and their output (08 R238). -/
def keptFlits : List FxFlit → List Nat → List FxFlit
  | [], _ => []
  | f :: t, heads =>
    if f.type == 0x21 || f.type == 0x22 then keptFlits t heads
    else if f.need != 0 then f :: keptFlits t (f.vl :: heads)
    else if heads.contains f.vl then f :: keptFlits t heads else keptFlits t heads

/-- Release a port's windows and discard the responses it holds, as in a new session (08 R238). -/
def State.dropWindowsOf (s : State) (p : Nat) : State :=
  let x := s.port p
  let n := heldResponses (x.txq ++ x.unack.map Prod.snd)
  let x := { x with wins := [], txq := keptFlits (x.unack.map Prod.snd ++ x.txq) [], unack := [], replay := [] }
  ((s.setPort p x.freeOut).fxDropped p n).raise (297 + p)

/-- The ports of an I/O die that loses power are in LOW if they were not DOWN (08 R253); what their descriptors had there is
gone, and their sessions are kept until the wake. -/
def State.portsOff (s t : State) : State :=
  (below 4 (fun p => s.fxState p != 0)).foldl (fun t p =>
    let x := s.port p
    (t.setPort p { FxPort.reset with
      sess := x.sess, upper := x.upper, credits := x.credits, txq := x.txq, unack := x.unack, nseq := x.nseq, rseq := x.rseq,
      wins := x.wins }).wrs (Reg.FX_STATUS p)
        [(F.FX_STATUS_STATE, 7), (F.FX_STATUS_WIDTH, s.rd (Reg.FX_STATUS p) F.FX_STATUS_WIDTH)]) t

/-- Every Finxis window is released as in a new session (08 R238). -/
def State.dropWindows (s : State) : State :=
  (below 4 (fun p => s.port p != FxPort.reset)).foldl (fun s p => s.dropWindowsOf p) s

/-! ### Configuration transactions (15) -/

/-- The open transaction of a world (STATE 0b01). -/
def Ctu.openOf (c : Ctu) : World → Option Txn
  | .n => c.openN
  | .s => c.openS

/-- Replace the open transaction of a world. -/
def Ctu.setOpen (c : Ctu) (w : World) (t : Option Txn) : Ctu :=
  match w with
  | .n => { c with openN := t }
  | .s => { c with openS := t }

/-- The transaction that STATE and STAGED of a world tell of: its open one, the one checked or applied, or the first of its
world that waits. -/
def Ctu.shown (c : Ctu) (w : World) : Option Txn :=
  match c.openOf w with
  | some t => some t
  | none =>
    match c.active with
    | some t => if t.world = w then some t else c.waiting.find? (fun t => t.world == w)
    | none => c.waiting.find? (fun t => t.world == w)

/-- STATE of a world (15 R386). -/
def Ctu.state (c : Ctu) (w : World) : Nat :=
  if (c.openOf w).isSome then 1
  else if c.active.any (fun t => t.world == w) then (if c.applying then 3 else 2)
  else if c.waiting.any (fun t => t.world == w) then 2 else 0

/-- Whether a world has a transaction open in the wider sense of 15 R387. -/
def Ctu.busy (c : Ctu) (w : World) : Bool := c.state w != 0

/-- Put the CTU's figures in a world's status register. -/
def State.ctuShow (s : State) (w : World) : State :=
  let t := s.ctu.shown w
  s.wrs (Reg.CTU_STATUS (worldBit w))
    [(F.CTU_STATUS_STATE, s.ctu.state w), (F.CTU_STATUS_FULL, b2n (t.any (·.full))),
     (F.CTU_STATUS_STAGED, (t.map (·.staged.length)).getD 0)]

/-- Replace the CTU's state, its status registers following. -/
def State.setCtu (s : State) (c : Ctu) : State := (({ s with ctu := c }).ctuShow .n).ctuShow .s

/-- A world's transaction has ended with a result; MISMATCH, TIMEOUT and FULL raise the world's configuration event. TAG
stays for an implicit transaction, which has none. -/
def State.ctuResult (s : State) (w : World) (implicit : Bool) (r : Nat) : State :=
  let s := s.wrs (Reg.CTU_STATUS (worldBit w)) [(F.CTU_STATUS_RESULT, r), (F.CTU_STATUS_IMPLICIT, b2n implicit)]
  if r = 2 ∨ r = 3 ∨ r = 6 then s.raise (if w = .s then 383 else 384) else s

/-- Whether a configuration transaction is open, checking, applying or queued (16 R399). -/
def State.txnOpen (s : State) : Bool := s.ctu.busy .n || s.ctu.busy .s

/-! ### The firewall's apply (09 R280, R281) -/

/-- A granule of 64 KiB is in a valid region of an identity. -/
def State.granuleOf (s : State) (g : Nat) : Option (Nat × Nat) :=
  (s.fwRegion (65536 * g)).map (fun r => (s.rd (Reg.FW_ATTR r) F.FW_ATTR_PID, s.rd (Reg.FW_ATTR r) F.FW_ATTR_WORLD))

/-- Whether a granule is zero-filled for a region: it was not in a valid region with the same PID and WORLD. -/
def fillsGranule (s t : State) (r g : Nat) : Bool :=
  t.fwCovers r (65536 * g) &&
  s.granuleOf g != some (t.rd (Reg.FW_ATTR r) F.FW_ATTR_PID, t.rd (Reg.FW_ATTR r) F.FW_ATTR_WORLD)

/-- Whether zeros written to an address reach memory: they go through the link of CXL memory (09 R273). -/
def State.fillReaches (s : State) (pa : Nat) : Bool :=
  match s.paKind pa with
  | .cxl j => (s.link j).serves
  | _ => true

/-- Zero-fill the memory that satisfies a test (09 R281): cached copies are discarded, data in flight among them, writes that
wait are overtaken, one that carries an armed flip having taken it (R276), and the lines read zero with a renewed line
code. -/
def State.zeroFill (s : State) (hit : Nat → Bool) : State :=
  let u := ((s.cachedLines 0 (2 ^ 45)).filter (fun ln => hit (128 * ln))).foldl
    (fun u ln => (u.discardLine ln).l3TakeAll ln) s
  let u := (u.wq.filter (fun w => w.flip && hit (128 * w.ln))).foldl (fun u w => u.applyFlip w.ln) u
  { u with
    mem := u.mem.keep (fun a _ => !(hit a && s.fillReaches a))
    dmg := u.dmg.keep (fun ln _ => !(hit (128 * ln) && s.fillReaches (128 * ln)))
    wq := u.wq.filter (fun w => !hit (128 * w.ln)) }

/-- The ranges of lines whose home a commit changes: those of regions that gain, lose or keep LOCAL_HOME with other bounds
(09 R280). -/
def State.localRange (s : State) (r : Nat) : Option (Nat × Nat) :=
  if s.on (Reg.FW_BASE r) F.FW_BASE_VALID && s.on (Reg.FW_ATTR r) F.FW_ATTR_LOCAL_HOME then
    some (512 * s.rd (Reg.FW_BASE r) F.FW_BASE_BASE, 512 * s.rd (Reg.FW_LIMIT r) F.FW_LIMIT_LIMIT + 511)
  else none

/-- Lines of the ranges whose local homing a commit changes, old and new. -/
def homeMoves (s t : State) (rs : List Nat) : List (Nat × Nat) :=
  rs.flatMap (fun r => if s.localRange r = t.localRange r then [] else (s.localRange r).toList ++ (t.localRange r).toList)

/-- Every home holds requests to a range until its sweep is done. -/
def State.holdAll (s : State) (lo hi kind ways : Nat) : State :=
  s.forAll 64 (fun t s => s.setHome t { s.home t with holds := (s.home t).holds ++ [⟨lo, hi, kind, ways, false⟩] })

/-- Whether no transaction is in service or waits, and no message is in flight, on a line of a range (15 R391). -/
def State.rangeQuiet (s : State) (p : Nat × Nat) : Bool :=
  let inR (ln : Nat) : Bool := decide (p.1 ≤ ln) && decide (ln ≤ p.2)
  s.homes.all (fun e => e.2.txns.all (fun x => !inR x.req.ln) && e.2.waitq.all (fun r => !inR r.ln)) &&
    s.net.all (fun m => !inR m.ln)

/-- Lines of ranges whose home a commit changes are written back and invalidated (09 R280). -/
def State.flushRanges (s : State) (mv : List (Nat × Nat)) : State :=
  mv.foldl (fun s p => (s.cachedLines p.1 p.2).foldl (fun s ln => s.flushLine ln) s) s

/-- Requests to ranges wait at every home until its sweep is done (09 R280). -/
def State.holdRanges (s : State) (mv : List (Nat × Nat)) : State := mv.foldl (fun t p => t.holdAll p.1 p.2 2 0) s

/-- The ranges that firewall fields move to other homes. -/
def State.fwMoves (s : State) (l : Tab (Nat × Nat)) : List (Nat × Nat) := homeMoves s (s.mergeRegs l) (fwStaged l)

/-- The last firewall has applied: the new table is the one in force everywhere (09 R279), and lines move to their new
homes. -/
def State.switchFirewall (s : State) (l : Tab (Nat × Nat)) : State :=
  let mv := s.fwMoves l
  let t := (((s.flushRanges mv).fwNew l).holdRanges mv)
  { t with ctu := { t.ctu with fw := [] } }

/-- A firewall applies staged fields at its own quiet point (09 R279 to R281): from now on it holds the new table, and what
lies behind it is filled. -/
def State.applyFirewall (s : State) (f : Nat) (l : Tab (Nat × Nat)) : State :=
  let t := s.mergeRegs l
  let fills := (fwStaged l).filter (fillsRegion s t)
  let u := if fills.isEmpty then s
    else s.zeroFill (fun pa => s.firewallOf pa == f && fills.any (fun r => fillsGranule s t r (pa / 65536)))
  let u := { u with ctu := { u.ctu with fw := f :: u.ctu.fw } }
  if (List.range 30).all u.ctu.fw.contains then u.switchFirewall l else u

/-- The lines a CXL window covers, when it is valid. -/
def State.windowRange (s : State) (w : Nat) : Option (Nat × Nat) :=
  if s.on (Reg.CXLW_BASE w) F.CXLW_BASE_VALID then
    some (2 ^ 23 * s.rd (Reg.CXLW_BASE w) F.CXLW_BASE_BASE, 2 ^ 23 * s.rd (Reg.CXLW_LIMIT w) F.CXLW_LIMIT_LIMIT + (2 ^ 23 - 1))
  else none

/-- The ranges that a change of CXL windows moves to other homes: the local-home regions' parts in windows that change (09
R280). -/
def State.cxlMoves (s : State) (l : Tab (Nat × Nat)) : List (Nat × Nat) :=
  let t := s.mergeRegs l
  let ws := below 16 (fun w => [Reg.CXLW_BASE w, Reg.CXLW_LIMIT w, Reg.CXLW_LINKS w].any (fun o => s.rdW o != t.rdW o))
  let wins := ws.flatMap (fun w => (s.windowRange w).toList ++ (t.windowRange w).toList)
  if wins.isEmpty then []
  else (List.range 256).flatMap (fun r => (s.localRange r).toList.flatMap (fun p =>
    (wins.map (fun q => (max p.1 q.1, min p.2 q.2))).filter (fun x => decide (x.1 ≤ x.2))))

/-- Stop of an offset of the stop blocks, and the offset within it. -/
def stopOf (off : Nat) : Option (Nat × Nat) :=
  if 0x10000000 ≤ off ∧ off < 0x14000000 then some ((off - 0x10000000) / 0x100000, off % 0x100000) else none

/-- Channel of an offset. -/
def dmOf (off : Nat) : Option Nat :=
  if 0x50001000 ≤ off ∧ off < 0x50002000 then some ((off - 0x50001000) / 0x80) else none

/-- The block a staged register belongs to (15 R391); a firewall's register belongs to every firewall (`blocksAt`). -/
def blockOf (off : Nat) : Block :=
  match stopOf off with
  | some (t, o) => if h : t < 64 then (if o < 0x4000 then .router ⟨t, h⟩ else .home ⟨t, h⟩) else .other
  | none =>
    if inFirewall off then .firewall 0
    else if 0x40000000 ≤ off ∧ off < 0x41000000 then .ringmgr
    else match dmOf off with
      | some n => if h : n < 32 then .dm ⟨n, h⟩ else .other
      | none =>
        let n := (off - 0x30000000) / 0x100000
        let p := (off - 0x60000000) / 0x100000
        if h : n < 36 then (if 0x30000000 ≤ off then .slice ⟨n, h⟩ else .other)
        else if h : p < 4 then (if 0x60000000 ≤ off then .fx ⟨p, h⟩ else .other)
        else .other

/-- Whether the fields of a block are dropped: its die is masked or fenced (15 R391). -/
def State.blockGone (s : State) (b : Block) : Bool :=
  match b with
  | .slice n => !s.dieActive (n / 3)
  | _ => false

/-- Every block that holds a register: all firewalls hold the same table (09). -/
def blocksAt (off : Nat) : List Block := if inFirewall off then (List.finRange 30).map .firewall else [blockOf off]

/-- Registers a warm-reach source resets: BASE, PORT, MEM, PMC, DIE and CLU domains, and the request registers that
their own rules name (17 R425, 18). The channels' status and error records, kept for the note of 17 R415, stay. -/
def warmResets (off : Nat) : Bool :=
  (0x38 ≤ off && off < 0x48) ||
  (0x2000008 ≤ off && off < 0x2000018) || (0x2000020 ≤ off && off < 0x2000030) ||
  off == Reg.RCC_CLK_LOSS || (0x2001100 ≤ off && off < 0x2001200) ||
  (0x3000000 ≤ off && off < 0x3000800 && off != Reg.PWR_SAVE) ||
  (0x4000000 ≤ off && off < 0x5000000) ||
  (0x10000000 ≤ off && off < 0x20000000) ||
  (0x20000000 ≤ off && off < 0x28000000 && 0x8 ≤ off % 0x100000 && !(0x38 ≤ off % 0x100000 && off % 0x100000 < 0x48)) ||
  (0x28000000 ≤ off && off < 0x60000000) ||
  (0x60000000 ≤ off && off < 0x80000000 && off % 0x100000 != 0x10) ||
  (0x90000000 ≤ off && off < 0xA0008008)

/-- Registers the thermal trip's reset leaves: PMC and MEM. -/
def tripKeeps (off : Nat) : Bool :=
  (0x20000000 ≤ off && off < 0x28000000) || (0xA0000000 ≤ off && off < 0xA0008008)

/-- Registers the thermal trip and CAUTION reset: those of warm reach less PMC, MEM and the Finxis ports (16 R400, 17 R417),
the mode and power orders that wait for a decision (R406), and the clock loss that may have brought CAUTION
(notes/assumptions/127.md). -/
def tripResets (off : Nat) : Bool :=
  warmResets off && !tripKeeps off && !(0x60000000 ≤ off && off < 0x80000000) && !(0x38 ≤ off && off < 0x48) &&
    !(Reg.PWR_REQ 0 ≤ off && off ≤ Reg.PWR_REQ 1) && off != Reg.RCC_CLK_LOSS

/-- The CTU under a reset of warm reach (15 R389): open, checking and waiting transactions are discarded with ROLLED_BACK. One
that is applying goes on with the fields of registers that the reset leaves: the blocks that hold them apply at their quiet
points, and it ends with OK. -/
def State.ctuReset (s : State) (reset : Nat → Bool) : State :=
  let c := s.ctu
  let live := c.active.filter (fun _ => c.applying)
  let s := if c.applying then s else c.active.elim s (fun t => s.ctuResult t.world t.implicit 7)
  let s := c.waiting.foldl (fun s t => s.ctuResult t.world t.implicit 7) s
  let s := if c.openN.isSome then s.ctuResult .n false 7 else s
  let s := if c.openS.isSome then s.ctuResult .s false 7 else s
  match live with
  | some t =>
    let keep := t.staged.keep (fun o _ => !reset o)
    let holds (b : Block) : Bool := (keep.keys.flatMap blocksAt).contains b
    s.setCtu { Ctu.reset with
      active := some { t with staged := keep }, applying := true, todo := c.todo.filter holds, sent := c.sent.filter holds
      fw := c.fw }
  | none => s.setCtu Ctu.reset

/-! ### Management requests (20 R484 to R487) -/

/-- Answer of a request: its header with STATUS and LENGTH, its TAG copied, and a payload (20 R486). -/
def mgmtResponse (req : List Byte) (status : Nat) (payload : List Byte) : List Byte :=
  sliceB req 0 1 ++ leBytes 1 status ++ leBytes 2 payload.length ++ sliceB req 4 4 ++ List.replicate 8 0 ++ payload

/-- Put a response in a mailbox: its buffer, its length and STATE, and the mailbox event (20 R485). -/
def State.mailboxAnswer (s : State) (w : Nat) (r : List Byte) : State :=
  let s := s.forAll 512 (fun i s =>
    let v := BitVec.ofNat 64 (leAt r (8 * i) 8)
    if s.rdW (Reg.MBX_RSP w i) = v then s else s.wrW (Reg.MBX_RSP w i) v)
  (s.wrs (Reg.MBX_STATUS w) [(F.MBX_STATUS_STATE, 2), (F.MBX_STATUS_LENGTH, r.length)]).raise (if w = 1 then 388 else 389)

/-- Send a response to a source of management requests: 0 and 1 the mailbox sets, 2 the sideband, 3 + p Finxis port p. -/
def State.mgmtSend (s : State) (src : Nat) (r : List Byte) : State :=
  if src < 2 then s.mailboxAnswer src r
  else if src = 2 then s.send (.sidebandReply r)
  else s.fxQueue (src - 3) { FxPkt.blank with type := 0x31, payload := r }

/-- Answer the management request held for a source with a status code, and let it go (20 R486). -/
def State.mgmtReply (s : State) (src status : Nat) (payload : List Byte) : State :=
  match Tab.look s.pmc.req src with
  | some q =>
    { s with pmc := { s.pmc with req := Tab.del s.pmc.req src } }.mgmtSend src (mgmtResponse q status payload)
  | none => s

/-- The codes of *Management commands* (20 R486). -/
def mgmtCodes : List Nat :=
  [0x01, 0x02, 0x03, 0x04, 0x05, 0x10, 0x11, 0x12, 0x20, 0x21, 0x30, 0x31, 0x40, 0x41, 0x42, 0x43, 0x44, 0x50]

/-- A management request arrives at the PMC, which holds one per source: a second one is answered BUSY (20 R487), and a
reserved code BAD_REQUEST (R486). While the PMC does not run, nothing answers. -/
def State.mgmtRequest (s : State) (src : Nat) (q : List Byte) : State :=
  if !s.pmcRuns then s
  else if !mgmtCodes.contains (leAt q 0 1) then s.mgmtSend src (mgmtResponse q 2 [])
  else if (Tab.look s.pmc.req src).isSome then s.mgmtSend src (mgmtResponse q 3 [])
  else { s with pmc := { s.pmc with req := Tab.put [] s.pmc.req src q } }

end Sys2Proof.Machine
end

