-- ==== Sys2Proof/Machine/Package.lean ====
section
/-! DEFINITION. Modes, resets and power as operations on the whole package (16, 17, 18): arrivals in modes, orders and
their statuses, the reach of each reset, losing clusters and dies, powering units, and the save list. -/

namespace Sys2Proof.Machine
open Sys2Proof

/-! ### Modes (16) -/

/-- Change the package-level state. -/
def State.pk (s : State) (f : Pkg → Pkg) : State := { s with pkg := f s.pkg }

/-- Arrive in a mode (16 R395, R398): MOVING clears, CURRENT and TARGET name it, CAUSE and SRC say why; THERMTRIP# goes
high on leaving CAUTION or SIDING (17 R417); the PMC logs the transition (20 R490). -/
def State.arriveMode (s : State) (m cause src : Nat) : State :=
  let old := s.mode
  let s := s.wrs Reg.PKG_MODE [(F.PKG_MODE_SRC, src), (F.PKG_MODE_CAUSE, cause), (F.PKG_MODE_MOVING, 0),
    (F.PKG_MODE_TARGET, m), (F.PKG_MODE_CURRENT, m)]
  let s := if (old = MD.caution ∨ old = MD.siding) ∧ m ≠ MD.caution ∧ m ≠ MD.siding then
      s.pk (fun p => { p with thermLow := false }) else s
  if s.pmcRuns then s.logNow 2 (s.regBytes Reg.PKG_MODE) else s

/-- Begin a transition (16 R398). -/
def State.beginMove (s : State) (m cause src : Nat) : State :=
  (s.wrs Reg.PKG_MODE [(F.PKG_MODE_MOVING, 1), (F.PKG_MODE_TARGET, m)]).pk
    (fun p => { p with moveCause := cause, moveSrc := src })

/-! Order statuses (16 R397). -/
namespace OS
abbrev pending : Nat := 1
abbrev done : Nat := 2
abbrev overridden : Nat := 3
abbrev refused : Nat := 4
abbrev deferred : Nat := 5
end OS

/-- The management status code of an order's final status (20 R488). -/
def orderReply (st : Nat) : Nat :=
  if st = OS.done then 0 else if st = OS.overridden then 8 else if st = OS.refused then 9 else 10

/-- Complete a mode order of a master (16 R396): in its register, or by its answer. -/
def State.endMode (s : State) (src st : Nat) : State :=
  if src = 2 ∨ src = 3 then
    s.wrs (Reg.PKG_MODE_REQ (src - 2)) [(F.PKG_MODE_REQ_GO, 0), (F.PKG_MODE_REQ_STATUS, st)]
  else s.mgmtReply (if src = 1 then 2 else src - 1) (orderReply st) []

/-- Complete a power request of a master (18 R448). -/
def State.endPower (s : State) (src st : Nat) : State :=
  if src = 2 ∨ src = 3 then s.wrs (Reg.PWR_REQ (src - 2)) [(F.PWR_REQ_GO, 0), (F.PWR_REQ_STATUS, st)]
  else s.mgmtReply (if src = 1 then 2 else src - 1) (orderReply st) []

/-- Record a deferral (14 R380) and raise its event. -/
def State.defer (s : State) (who : Ident) (u req : Nat) : State :=
  let fill (s : State) (i : Nat) : State :=
    s.wrs (Reg.ISO_DEFER i) [(F.ISO_DEFER_VALID, 1), (F.ISO_DEFER_UNIT, u), (F.ISO_DEFER_PID, who.pid),
      (F.ISO_DEFER_REQUEST, req)]
  match (List.range 16).find? (fun i => s.on (Reg.ISO_DEFER i) F.ISO_DEFER_VALID &&
      s.rd (Reg.ISO_DEFER i) F.ISO_DEFER_UNIT == u) with
  | some i => fill s i
  | none =>
    match (List.range 16).find? (fun i => !s.on (Reg.ISO_DEFER i) F.ISO_DEFER_VALID) with
    | some i => fill s i
    | none => s.viol 5 who (windowBase + Reg.ISO_OWN u)

/-- Sensor readings (20 R479). -/
def State.sensor (s : State) (n : Nat) : Int := Tab.get 0 s.pmc.sens n

/-- Whether any of the sensors named is at or above a temperature in degrees. -/
def State.anyAt (s : State) (l : List Nat) (deg : Int) : Bool := l.any (fun n => decide (16 * deg ≤ s.sensor n))

/-- The units of a compute die: its clusters and slices. -/
def dieUnits (d : Nat) : List Nat := [3 * d, 3 * d + 1, 3 * d + 2, 36 + 3 * d, 37 + 3 * d, 38 + 3 * d]

/-- Stop and agents of an owner unit (14 *Owner units*, 11 *Agent codes*). -/
def unitAgents (u : Nat) : Nat × List Nat :=
  if u < 36 then (nthD clusterStops u 0, [2])
  else if u < 72 then (nthD clusterStops (u - 36) 0, [3])
  else if u < 88 then (nthD memStops (u - 72) 0, [4, 5])
  else if u < 102 then (nthD pcieStops ((u - 88) / 2) 0, if (u - 88) % 2 = 0 then [6, 8] else [7, 9])
  else if u < 106 then (nthD finxisStops ((u - 102) / 2) 0, [10 + (u - 102) % 2])
  else (rmgStop, [13])

/-- Fence agents of a stop (11 R326); `drained` when they hold no accepted message. -/
def State.fence (s : State) (t : Nat) (agents : List Nat) (drained : Bool) : State :=
  agents.foldl (fun s a =>
    let v := setBits (s.rdW (Reg.RTR_FENCE t)).toNat a a 1
    let v := if drained then setBits v (32 + a) (32 + a) 1 else v
    s.wrW (Reg.RTR_FENCE t) (BitVec.ofNat 64 v)) s

/-! ### Reset records (17 R425) -/

/-- Record the reach of a reset: the widest recorded, and 0 while no W1C bit of the two registers is set. -/
def State.recordReach (s : State) (r : Nat) : State :=
  let o := Reg.RCC_RST_CAUSE
  let w1c := [F.RCC_RST_CAUSE_POR, F.RCC_RST_CAUSE_COLD_PIN, F.RCC_RST_CAUSE_WARM_PIN, F.RCC_RST_CAUSE_SIDEBAND,
    F.RCC_RST_CAUSE_FINXIS, F.RCC_RST_CAUSE_WDOG, F.RCC_RST_CAUSE_THERM, F.RCC_RST_CAUSE_DEBUG,
    F.RCC_RST_CAUSE_CLK_LOSS, F.RCC_RST_CAUSE_MRAM_DELAY, F.RCC_RST_CAUSE_AON_LOST]
  if w1c.all (fun f => !s.on o f) && s.rdW Reg.RCC_RST_UNITS == 0 then s.wr o F.RCC_RST_CAUSE_REACH 0
  else
    let old := s.rd o F.RCC_RST_CAUSE_REACH
    s.wr o F.RCC_RST_CAUSE_REACH (if old = 0 then r else if r = 0 then old else min old r)

/-- Set a cause bit of a hart. -/
def State.hartCause (s : State) (h bit : Nat) : State :=
  let o := Reg.RCC_HART_CAUSE h
  s.wrW o (s.rdW o ||| BitVec.ofNat 64 (2 ^ bit))

/-! ### Harts and clusters -/

/-- The reset vector (17 R430): MON_BASE of the option record in force. -/
def State.resetVector (s : State) : Nat := leAt s.coldOpt 32 8

/-- Clear the interrupt files of a hart (12 R347). -/
def State.clearFiles (s : State) (h : Nat) : State :=
  let other (f : Nat) : Bool := decide (f ≠ mFile h) && decide ((f - 216) / 8 ≠ h || f < 216)
  { s with imsic := s.imsic.keep (fun k _ => other (k / 2048)), files := s.files.keep (fun f _ => other f) }

/-- A range operation that a hart has under way is abandoned with the hart's state: its homes hold requests for it no longer
(notes/assumptions/121.md). -/
def State.dropRange (s : State) (h : Nat) : State :=
  let mine (r : Hold) : Bool := decide (r.kind ≤ 1) && r.ways == h
  (s.homes.keys).foldl (fun s t =>
    if (s.home t).holds.any mine then (s.setHome t { s.home t with holds := (s.home t).holds.filter (fun r => !mine r) }).reAdmit t
    else s) s

/-- The registers of a hart whose state is lost hold what the manual leaves open (12 R346, 16 R399). -/
def lostRegs (n k lo hi : Nat) : Tab Word :=
  (List.range hi).foldl (fun t i => if i < lo then t else Tab.put 0 t i (BitVec.ofNat 64 (Config.lost n (k + i)))) []

/-- A hart loses its architectural state with its power. -/
def State.loseHart (s : State) (h : Nat) : State :=
  let n := s.free
  { s with free := n + 1 }.setHart h { s.hart h with
    x := lostRegs n 0 1 32, f := lostRegs n 32 0 32
    vr := (List.range 1024).foldl (fun t i => Tab.put 0 t i (BitVec.ofNat 8 (Config.lost n (64 + i)))) [] }

/-- A hart's state after a core reset (12 R347, 17 R430): every CSR at reset, no gateway call, M-mode at the reset
vector; integer registers keep the values the manual leaves open (notes/assumptions/4.md). -/
def State.freshHart (s : State) (h : Nat) : State :=
  let c := hartCluster h
  let cl := s.cluster c
  let s := s.setCluster c { cl with waits := cl.waits.filter (fun w => w.hart != h) }
  let s := (s.clearFiles h).dropRange h
  let old := s.hart h
  s.setHart h { Hart.reset with x := old.x, f := old.f, vr := old.vr, pc := BitVec.ofNat 64 s.resetVector, held := old.held }

/-- Hold a hart in reset. -/
def State.holdHart (s : State) (h : Nat) : State :=
  let s := s.freshHart h
  s.setHart h { s.hart h with held := true }

/-- Start a hart at the reset vector, unless a debug source holds it. -/
def State.startHart (s : State) (h : Nat) : State :=
  let s := s.freshHart h
  s.setHart h { s.hart h with held := s.pkg.hartRst.contains h }

/-- The partition whose ways a line without a requester fills: its region's (14 R376). -/
def State.linePid (s : State) (ln : Nat) : Nat :=
  match s.fwRegion (128 * ln) with
  | some r => s.rd (Reg.FW_ATTR r) F.FW_ATTR_PID
  | none => 0

/-- The homes treat a caching agent as holding nothing (10 R290, 16 R408): a line it held in X becomes poison in its home's
L3, and a request waiting on a snoop of it receives poison; a line it held in S is served from the home's data. Messages it
had in flight are abandoned, and a request of its own in service ends without a grant. -/
def State.dropAgent (s : State) (a : Nat) : State :=
  let s := { s with net := s.net.filter (fun (m : Msg) => m.agent != a || m.kind == MKind.memRead || m.kind == MKind.memData) }
  (s.homes.keys).foldl (fun s t =>
    let hm := s.home t
    let owned := fun (ln : Nat) => (hm.dirOf ln).any (fun e => e.x && e.ptrs.contains a)
    let busy := hm.txns.filter (fun (x : HTxn) => x.await.contains a)
    let idle := (hm.dir.map Prod.fst).filter (fun ln => owned ln && !busy.any (fun x => x.req.ln == ln))
    let s := s.setHome t { hm with
      dir := (hm.dir : Tab DirEnt).filterMap (fun (e : Nat × DirEnt) =>
        if e.2.x then (if e.2.ptrs.contains a then none else some e)
        else
          let p := e.2.ptrs.filter (· != a)
          if p.isEmpty && !e.2.ovf then none else some (e.1, { e.2 with ptrs := p }))
      txns := hm.txns.map (fun (x : HTxn) => { x with
        req := if x.req.agent == a then { x.req with agent := nobody } else x.req
        way := x.way <|> (hm.dirOf x.req.ln).map (·.way) })
      waitq := hm.waitq.filter (fun r => r.agent != a) }
    let s := idle.foldl (fun s ln => s.l3Alloc t ln ⟨zeroLine, true⟩ true (s.linePid ln) none) s
    busy.foldl (fun s x =>
      s.snoopAnswer t x.req.ln a false (if owned x.req.ln then some ⟨zeroLine, true⟩ else none)) s) s

/-- Write back a cluster's dirty lines; its homes then hold it as a sharer of every line it has. -/
def State.giveUpL2 (s : State) (c : Nat) : State :=
  ((s.cluster c).l2.map (fun e => e.2.ln)).foldl (fun (s : State) ln =>
    let s : State := match (s.cluster c).find ln with
      | some p => if p.2.st == .m then s.cleanLine p.2.who ln else s
      | none => s
    { s with homes := s.homes.mapV (fun (h : Home) => match h.dirOf ln with
        | some e => h.setDir ln { e with x := false }
        | none => h) }) s

/-- Everything a cluster holds is lost. -/
def State.loseCluster (s : State) (c : Nat) : State :=
  let s := s.setCluster c Cluster.empty
  let s := s.dropAgent c
  (List.range 6).foldl (fun s k => s.holdHart (6 * c + k)) s

/-- A slice loses its arrays with its power (06 R207): match rows, translations, cache, buffers; a task it holds is ended by
its own rules. -/
def State.clearSlice (s : State) (n : Nat) : State := s.setSlice n { Slice.reset with task := (s.slice n).task }

/-- Put the registers of a slice block, and the match rows and column buffer behind them, to reset. -/
def State.resetSliceRegs (s : State) (n : Nat) : State :=
  let b := Reg.SLC_STATUS n
  { s.clearSlice n with regs := s.regs.keep (fun k _ => decide (k < b) || decide (b + 0x100000 ≤ k)) }

/-- The steps of 16 R408 for one cluster's stop: fence, abandon, end the slice's task; the domain's registers are reset (17
R413). -/
def State.fenceCluster (s : State) (c : Nat) : State :=
  let s := s.fence (nthD clusterStops c 0) [2, 3] true
  let s := s.loseCluster c
  ((s.loseSlice c).resetSliceRegs c).wr (Reg.PWR_UNIT c) F.PWR_UNIT_STATE 5 |>.wr (Reg.PWR_UNIT (36 + c)) F.PWR_UNIT_STATE 5

/-! ### Resets of warm reach and wider (17 R413 to R417) -/

/-- Registers a cold-reach source resets as well: ISO with the CTU and FX_LIMIT, MEM and the AOM's save record. -/
def coldResets (off : Nat) : Bool :=
  warmResets off || (0x1000000 ≤ off && off < 0x2000000) || off == Reg.RCC_CLK_STATUS || off == Reg.PWR_SAVE ||
  (0x20000000 ≤ off && off < 0x28000000) || (0x60000000 ≤ off && off < 0x90000000)

/-- Registers kept in AON: those of 17 (R425), the wake registers and the RTC (18) and PMC_TRIP (20 R481). The clock
registers of 18 are not (00 R10). -/
def aonKeeps (off : Nat) : Bool :=
  (0x2000000 ≤ off && off < 0x2001000 && !(0x2000008 ≤ off && off < 0x2000018) && !(0x2000020 ≤ off && off < 0x2000030)) ||
  (0x3000800 ≤ off && off < 0x3000820) || off == 0xA0008008

/-- Registers reset only by power-on (01 R29). -/
def pkgKeeps (off : Nat) : Bool := off < 0x1000000

/-- Put registers back to their reset values. -/
def State.resetRegs (s : State) (p : Nat → Bool) : State := { s with regs := s.regs.keep (fun k _ => !p k) }

/-- The blocks of BASE, DIE, CLU and CORE and the PCIe and CXL ports lose what they hold outside registers. -/
def State.resetFabric (s : State) : State :=
  let s := (s.engineReset).dmReset
  let s := { s with
    wires := [], aplicS := ⟨false, []⟩, aplicN := ⟨false, []⟩, imsic := [], files := [],
    links := [], homes := [], clusters := [], net := [], pkts := [], credits := [], fabric := Fabric.reset, dbInval := [], watch := [] }
  s.forAll 216 (fun h s => s.holdHart h)

/-- The same, with the Finxis ports. -/
def State.resetUnits (s : State) : State := s.finxisReset.resetFabric

/-- The PMC is reset: held requests, update sessions and orders are gone. -/
def State.resetPmc (s : State) : State :=
  { s with pmc := { s.pmc with req := [], fw := [], restart := false, rom := false } }

/-- Orders and requests under way are gone. -/
def State.dropOrders (s : State) : State :=
  s.pk (fun p => { p with orders := [], powers := [], lows := [], moves := [], rsts := [], bids := [], grants := [],
                          wdogHalf := false, altIssue := false, idleSr := [], warmup := false, wakeSrc := 0,
                          restartDue := false })

/-- Populated channels (09 R263). -/
def State.populated (s : State) : List Nat := below 16 (fun m => s.rd (Reg.MCH_STATUS m) F.MCH_STATUS_KIND != 0)

/-- Channels whose DRAM holds contents: ready or already in self-refresh. -/
def State.holding (s : State) : List Nat :=
  below 16 (fun m => let st := s.rd (Reg.MCH_STATUS m) F.MCH_STATUS_STATE; st == 3 || st == 4)

/-- Package domains a warm-reach source resets. -/
def warmDomains (trip : Bool) : List Domain :=
  (if trip then [] else [.pmc, .mem]) ++ [.base, .port] ++ List.map .die (List.finRange 12) ++ List.map .clu (List.finRange 36)

/-- Write out the writes a channel has accepted. -/
def State.drainChannel (s : State) (m : Nat) : State :=
  let mine := fun (w : WqEntry) => s.paKind (128 * w.ln) == .dram && s.chanOf (128 * w.ln) == m
  let q := s.wq.filter mine
  let s := { s with wq := s.wq.filter (fun w => !mine w) }
  q.foldl State.issueWrite s

/-- A channel enters self-refresh. -/
def State.selfRefresh (s : State) (m : Nat) : State :=
  (s.drainChannel m).wr (Reg.MCH_STATUS m) F.MCH_STATUS_STATE 4

/-- Assert a warm-reach reset on its domains (17 R413, R415): every held mode and order is gone, the channels are asked for
self-refresh, and the package goes to DAWN. -/
def State.warmReset (s : State) (cause src : Nat) : State :=
  let sr := below 16 (fun m => s.rd (Reg.MCH_STATUS m) F.MCH_STATUS_STATE == 3)
  let s := s.ctuReset warmResets
  let s := (s.resetRegs warmResets).resetUnits.resetPmc.dropOrders
  let s := s.forAll 216 (fun h s => s.hartCause h 1)
  let s := s.recordReach 3
  let s := s.pk (fun p => { p with
    reach := if p.loaded then 3 else min 3 p.reach, loaded := false,
    held := (p.held ++ warmDomains false).eraseDups, srWait := sr, selfTest := false, authed := false, midWake := false })
  s.arriveMode MD.dawn cause src

/-- Assert a cold-reach reset (17 R413): all but AON; DRAM is lost, the AOM cleared. The monitors of AON and of the
reference, which AON runs (18 R437), go on. -/
def State.coldReset (s : State) (cause src : Nat) : State :=
  let good := [(F.RCC_CLK_STATUS_AON_GOOD, s.rd Reg.RCC_CLK_STATUS F.RCC_CLK_STATUS_AON_GOOD),
    (F.RCC_CLK_STATUS_REF_GOOD, s.rd Reg.RCC_CLK_STATUS F.RCC_CLK_STATUS_REF_GOOD)]
  let s := (s.resetRegs coldResets).wrs Reg.RCC_CLK_STATUS good
  let s := s.resetUnits.resetPmc.dropOrders
  let s := s.forAll 216 (fun h s => s.hartCause h 0)
  let s := s.recordReach 2
  let s := { s with wq := [], dmg := [] }
  let s := s.pk (fun p => { p with
    reach := min 2 p.reach, loaded := false, held := allDomains ++ [.dbg], srWait := [], lost := List.range 16,
    selfTest := false, authed := false, midWake := false, save := none, ndm := none, hartRst := [],
    good := [] })
  let s := { s with pmc := { s.pmc with sens := [] }, ctu := Ctu.reset }
  s.arriveMode MD.dawn cause src

/-- Assert a power-on reset (17 R413, R425): all but AON and DBG, which are reset too when the always-on supply came
up. The package is dark until its supplies are good. -/
def State.powerOnReset (s : State) (aon : Bool) : State :=
  let keep := fun (off : Nat) => !aon && aonKeeps off
  let s := (s.resetRegs (fun k => !keep k)).resetUnits.resetPmc.dropOrders
  let s :=
    if aon then s
    else ((s.wr Reg.RCC_RST_CAUSE F.RCC_RST_CAUSE_POR 1).forAll 216 (fun h s => s.hartCause h 0)).recordReach 1
  let s := { s with wq := [], dmg := [], ctu := Ctu.reset, pmc := { s.pmc with sens := [], addr := 0x2C, cmpAddr := 0x2C } }
  let s := s.wr Reg.PKG_BOOT F.PKG_BOOT_COUNT (leNat (s.mramAt 0x1000 1) % 16)
  let s := s.pk (fun p => { Pkg.reset with
    standby := p.standby, mainEn := p.mainEn, wakeLow := p.wakeLow, coldPin := p.coldPin, warmPin := p.warmPin, lost := List.range 16,
    held := (if aon then .aon :: .dbg :: allDomains else allDomains),
    ndm := (if aon then none else p.ndm),
    hartRst := (if aon then [] else p.hartRst) })
  s.wrs Reg.PKG_MODE [(F.PKG_MODE_CURRENT, MD.dark), (F.PKG_MODE_TARGET, MD.dark)]

/-- Stop the cores, the engine and the data movers as CAUTION does (16 R400): their domains are held in the warm-reach
reset less PMC and MEM, links go down, DRAM goes to self-refresh; started descriptors are lost. -/
def State.stopUnits (s : State) : State :=
  let s := s.holding.foldl (fun s m => s.selfRefresh m) s
  let s := s.ctuReset tripResets
  let s := ((s.resetRegs tripResets).finxisLane2).resetFabric
  let s := s.pk (fun p => { p with
    moves := [], rsts := [], warmup := false, altIssue := false,
    idleSr := [], held := (p.held ++ warmDomains true).eraseDups })
  s

/-- Units being powered down or up stop where they are, and the requests for them complete REFUSED. Orders that wait stay, for the
first decision after the transition (16 R406), and a low-power order for its time limit (R399). -/
def State.failMoves (s : State) : State :=
  (s.pkg.moves.foldl (fun s m => m.srcs.foldl (fun s c => s.endPower c OS.refused) s) s).pk (fun p => { p with moves := [] })

/-- Enter CAUTION (16 R400). -/
def State.enterCaution (s : State) (cause src : Nat) : State :=
  (s.failMoves.stopUnits).arriveMode MD.caution cause src

/-- STATE of a channel in SIDING (16 R398, R402): an unpopulated channel reads unpopulated, one that failed training or is in
self-refresh stays so; any other is held untrained, for which the table has no code, and reads training
(notes/assumptions/91.md). -/
def State.sidingState (s : State) (m : Nat) : Nat :=
  let st := s.rd (Reg.MCH_STATUS m) F.MCH_STATUS_STATE
  if !bitAt s.pkg.dimms m && s.rd (Reg.MCH_STATUS m) F.MCH_STATUS_KIND == 0 then 0 else if st = 4 ∨ st = 5 then st else 1

/-- Enter SIDING (16 R402): the PMC runs, DRAM is untrained. With cause 0x04 or 0x0C (20 R495), and where a thermal trip stops the
bring-up (17 R417), the PMC runs its ROM image. -/
def State.enterSiding (s : State) (cause src : Nat) : State :=
  let s := s.pk (fun p => { p with warmup := false, held := p.held.filter (fun d => d != .pmc) })
  let s := s.forAll 16 (fun m s => s.wr (Reg.MCH_STATUS m) F.MCH_STATUS_STATE (s.sidingState m))
  let s := { s with pmc := { s.pmc with rom := s.pmc.rom || [4, 9, 0xC].contains cause } }
  s.arriveMode MD.siding cause src

/-- The PMC logs an error record that is valid. -/
def State.logBank (s : State) (r : ErrRec) : State :=
  if s.on r.off F.SLC_ERR_STATUS_VALID then s.logNow 1 (s.errLog r) else s

/-- The PMC logs a channel's error record, if it is valid. -/
def State.logChannel (s : State) (m : Nat) : State :=
  if s.on (Reg.MCH_ERR_INFO m) F.MCH_ERR_INFO_VALID then s.logNow 1 (s.mchLog m) else s

/-- Whether a clock, by its number in RCC_CLK_LOSS, runs in BUFFER STOP (16 R404): SCLK with the reference and the PLL it comes from,
and AON. -/
def clockStays (k : Nat) : Bool := [1, 2, 6, 9].contains k

/-- The error records of every bank, as the PMC logs them (16 R404, 18 R454). -/
def State.logBanks (s : State) : State :=
  let s := s.forAll 36 (fun n s => s.forAll 6 (fun r s => s.logBank (.slice n r)))
  let s := s.forAll 64 (fun t s => s.forAll 8 (fun r s => s.logBank (.stop t r)))
  (s.forAll 8 (fun r s => s.logBank (.pkg r))).forAll 16 (fun m s => s.logChannel m)

/-- Enter BUFFER STOP (16 R404): the PMC, if intact, logs the error records; every clock but its own and AON's stops, and
DRAM enters self-refresh. -/
def State.enterBufferStop (s : State) (intact : Bool) : State :=
  let s := if intact then s.logBanks else s
  let s := s.failMoves.stopUnits
  let s := s.wrs Reg.RCC_CLK_STATUS [(F.RCC_CLK_STATUS_FCLK_GOOD, 0), (F.RCC_CLK_STATUS_ECLK_GOOD, 0), (F.RCC_CLK_STATUS_MCLK_GOOD, 0)]
  let s := s.pk (fun p => { p with good := p.good.keep (fun k _ => clockStays (k / 16)) })
  let s := if intact then s else s.pk (fun p => { p with held := if p.held.contains .pmc then p.held else .pmc :: p.held })
  s.arriveMode MD.bufferStop 0xA 0

/-- Whether *Mode transitions* gives a transition to CAUTION for a fault (16 R398), or a transition is under way, which the fault
abandons (19 R469). -/
def State.cautionDue (s : State) : Bool :=
  [MD.mainline, MD.dusk, MD.night].contains s.mode || s.moving || s.pkg.midWake

/-- A FATAL_PKG error (19 R469): CAUTION with cause 0x08. From CAUTION, and from a mode that has no transition to it, the fatal
escalation is BUFFER STOP (16 R398; notes/assumptions/128.md); there and in DARK nothing is left to stop. -/
def State.fatalPkg (s : State) : State :=
  if s.mode = MD.dark ∨ s.mode = MD.bufferStop then s
  else if s.mode ≠ MD.caution ∧ s.cautionDue then s.enterCaution 8 0
  else s.enterBufferStop true

/-! ### Losing a die (16 R408, R409) -/

/-- Whether a die site has a PKG_DIE{n}_INFO.STATE. -/
def State.dieState (s : State) (d : Nat) : Nat := s.rd (Reg.PKG_DIE_INFO d) F.PKG_DIE_INFO_STATE

/-- Set STATE and ACTIVE of a die together (01 R31). -/
def State.setDieState (s : State) (d st : Nat) : State :=
  let s := s.wr (Reg.PKG_DIE_INFO d) F.PKG_DIE_INFO_STATE st
  s.wrW Reg.PKG_DIE_ACTIVE (BitVec.ofNat 64 (setBits (s.rdW Reg.PKG_DIE_ACTIVE).toNat d d (b2n (st == 1))))

/-- A die's CCLK divider leaves reset at code 0x7 (18 R436). -/
def State.codeReset (s : State) (d : Nat) : State :=
  s.wrs (Reg.RCC_CCLK d) [(F.RCC_CCLK_TARGET, 7), (F.RCC_CCLK_CURRENT, 7), (F.RCC_CCLK_MOVING, 0)]

/-- Lose a compute die: fence, abandon, end its tasks, STATE 0x3, the die-lost events; CAUTION when none is left. -/
def State.loseDie (s : State) (d : Nat) (clkLoss : Bool) : State :=
  let s := [3 * d, 3 * d + 1, 3 * d + 2].foldl (fun s c => s.fenceCluster c) s
  let s := (List.range 18).foldl (fun s k =>
    let s := s.hartCause (18 * d + k) 2
    if clkLoss then s.hartCause (18 * d + k) 5 else s) s
  let s := s.wrW Reg.RCC_RST_UNITS (s.rdW Reg.RCC_RST_UNITS ||| BitVec.ofNat 64 (2 ^ (36 + d)))
  let s := s.recordReach 4
  let s := s.setDieState d 3
  let s := s.setCtu { s.ctu with
    todo := s.ctu.todo.filter (fun b => !s.blockGone b), sent := s.ctu.sent.filter (fun b => !s.blockGone b) }
  let s := ((s.codeReset d).wrs (Reg.PWR_DIE d) [(F.PWR_DIE_GRANT, 0), (F.PWR_DIE_DEMAND, 0)]).pk (fun p =>
    { p with bids := Tab.del p.bids d, grants := Tab.del p.grants d })
  let s := (s.raise 379).raise 380
  if s.rdW Reg.PKG_DIE_ACTIVE == 0 ∧ [MD.mainline, MD.dusk, MD.night].contains s.mode then s.enterCaution 8 0 else s

/-! ### Core and cluster resets (12 R347, 17 R422) -/

/-- Write a hart's dirty L1D lines to the L2 and invalidate both L1s (12 R347): the L2 has their data. -/
def State.dropL1 (s : State) (h : Nat) : State :=
  let c := hartCluster h
  let k := h % 6
  let cl := s.cluster c
  s.setCluster c ((cl.l1Clear k).l1Clear (6 + k))

/-- A core reset (12 R347) with the cause bit it records. -/
def State.coreReset (s : State) (h bit : Nat) : State :=
  (((s.dropL1 h).startHart h).freeHeld (hartCluster h)).hartCause h bit |>.recordReach 6

/-- Evict every line of a cluster: dirty lines are written back. -/
def State.writeBackL2 (s : State) (c : Nat) : State :=
  ((s.cluster c).l2.map (fun e => e.2.ln)).foldl (fun s ln => s.evictLine c ln) s

/-- Whether a cluster holds no accepted message and has nothing in injection, its write-backs acknowledged (11 R326; DEDUCED,
notes/assumptions/131.md). -/
def State.clusterDrained (s : State) (c : Nat) : Bool :=
  (s.cluster c).evict.isEmpty && (s.cluster c).held.isEmpty &&
    !(s.net.any (fun m => m.agent == c))

/-! ### Engine interrupts in waiting harts -/

/-- Whether an interrupt is pending in any of a hart's interrupt files. -/
def State.hartPending (s : State) (h : Nat) : Bool :=
  s.filePending (mFile h) || (List.range 8).any (fun g => s.filePending (sFile h g))

/-- The harts of active dies. -/
def State.activeHarts (s : State) : List Nat := below 216 (fun h => s.dieActive (h / 18))

/-- Whether every hart of every active die is in WFI (16 R399). -/
def State.allWfi (s : State) : Bool :=
  s.activeHarts.all (fun h => match (s.hart h).waiting with
    | .wfi _ | .retention | .off => true
    | _ => false)

/-- The entry conditions of DUSK and NIGHT (16 R399). -/
def State.lowReady (s : State) (target : Nat) : Bool :=
  s.allWfi && !s.descsOpen && !s.dmRunning && (target != MD.night || !s.txnOpen)

/-! ### The save list (18 R452 to R454) -/

/-- Whether the save list names a register of an offset whose row does not depend on a VALID (18 *Save list contents*). -/
def savedAlways (off : Nat) : Bool :=
  off == Reg.CTU_CFG 0 || off == Reg.CTU_CFG 1 || off == Reg.RCC_DBG_RST || off == Reg.RCC_WDOG ||
  off == Reg.PWR_PKG || off == Reg.PWR_WAKE_EN || off == Reg.PWR_RTC_ALARM ||
  (0x3000100 ≤ off && off < 0x3000800) ||
  (0x10000000 ≤ off && off < 0x20000000 &&
    (let o := off % 0x100000
     o == 0 || o == 8 || o == 0x10 || o == 0x20 || (0x100 ≤ o && o < 0x500) || o == 0x4000 || o == 0x4008 || o == 0x4010)) ||
  (0x20000000 ≤ off && off < 0x28000000 && off % 0x100000 == 8) ||
  (0x30000000 ≤ off && off < 0x40000000 && off % 0x100000 == 8) ||
  off == Reg.RMG_CTRL ||
  (0x60000000 ≤ off && off < 0x80000000 && off % 0x100000 < 0x18) ||
  (0x80000000 ≤ off && off < 0x90000000)

/-- Whether the save list names a register now. -/
def State.saved (s : State) (off : Nat) : Bool :=
  savedAlways off ||
  (0x40100000 ≤ off && off < 0x40140000 && s.on (Reg.CTX_CFG ((off - 0x40100000) / 0x40)) F.CTX_CFG_VALID) ||
  (0x40200000 ≤ off && off < 0x40240000 && s.on (Reg.RING_CFG ((off - 0x40200000) / 0x40)) F.RING_CFG_VALID) ||
  (0x50001000 ≤ off && off < 0x50002000 && s.on (Reg.DM_CFG ((off - 0x50001000) / 0x80)) F.DM_CFG_VALID)

/-- Bits of a register the save list holds: the fields of types RW, RWS, RWL and W1S, and the RO counts it names
(RING{n}_HEAD, DM{n}_STATUS.DONE, and of PWR the TDP and the caps and MEM_IDLE in force); of MEM_MAP, which it names and whose fields
are all RO, every field (DEDUCED, notes/assumptions/130.md). -/
def saveMask (off : Nat) : Nat :=
  let m (f : Fld) : Nat := setBits 0 f.hi f.lo (2 ^ 64 - 1)
  if off == Reg.PWR_PKG then m F.PWR_PKG_TDP_W + m F.PWR_PKG_SRC
  else if 0x3000100 ≤ off ∧ off < 0x3000200 then m F.PWR_DIE_CAP
  else if 0x3000200 ≤ off ∧ off < 0x3000800 then m F.PWR_UNIT_IDLE_SR
  else if off = Reg.MEM_MAP then m F.MEM_MAP_TOP + m F.MEM_MAP_GRANULE + m F.MEM_MAP_WAYS_LOG2
  else if 0x40200000 ≤ off ∧ off < 0x40240000 ∧ off % 0x40 = 0x28 then 2 ^ 64 - 1
  else if 0x50001000 ≤ off ∧ off < 0x50002000 ∧ off % 0x80 = 0x20 then m F.DM_STATUS_DONE
  else match regAt off with
    | some r => r.fields.foldl (fun a f => match f.ty with
        | .rw | .rws | .rwl | .w1s => a ||| m f.fld
        | _ => a) 0
    | none => 0

/-- The value the save list records for a register: its saved bits over its reset value. -/
def State.saveWord (s : State) (off : Nat) : Word :=
  let m := BitVec.ofNat 64 (saveMask off)
  (s.rdW off &&& m) ||| (resetWord off &&& ~~~m)

/-- The records the save list would hold now: register records, APLIC configuration, and 64 training records of each
populated channel (18 R452). -/
def State.saveRecords (s : State) : Tab Word :=
  s.regs.foldl (fun t e => if s.saved e.1 then Tab.put (resetWord e.1) t e.1 (s.saveWord e.1) else t) []

/-- The number of records (18 R453). -/
def State.saveCount (s : State) : Nat :=
  s.saveRecords.length + 64 * s.populated.length + s.aplicS.src.length + s.aplicN.src.length +
    b2n s.aplicS.ie + b2n s.aplicN.ie

/-- The configuration of an APLIC: domaincfg.IE and of each source all but its pending bit. -/
def Aplic.config (a : Aplic) : Aplic := { a with src := a.src.mapD AplicSrc.off (fun (x : AplicSrc) => { x with pend := false }) }

/-- Write the save list to the AOM (18 R453). -/
def State.writeSave (s : State) : State :=
  (s.pk (fun p => { p with save := some ⟨s.saveRecords, s.aplicS.config, s.aplicN.config⟩ })).wr Reg.PWR_SAVE F.PWR_SAVE_VALID 1

/-- A commit that applies in NIGHT updates the save list with its staged fields (18 R453). -/
def State.updateSave (s : State) (staged : Tab (Nat × Nat)) : State :=
  match s.pkg.save with
  | none => s
  | some l =>
    let regs := staged.foldl (fun t e =>
      if s.saved e.1 then
        let m := BitVec.ofNat 64 (saveMask e.1 &&& e.2.2)
        Tab.put (resetWord e.1) t e.1 ((Tab.get (resetWord e.1) t e.1 &&& ~~~m) ||| (BitVec.ofNat 64 e.2.1 &&& m))
      else t) l.regs
    s.pk (fun p => { p with save := some { l with regs := regs } })

/-- Restore the save list (18 R452, R454): every listed register returns to reset, then the records are written, active
and staged copies alike. -/
def State.restoreSave (s : State) (only : Nat → Bool) : State :=
  match s.pkg.save with
  | none => s
  | some l =>
    let s := s.resetRegs (fun k => only k && s.saved k)
    l.regs.foldl (fun s e => if only e.1 then
      let m := BitVec.ofNat 64 (saveMask e.1)
      s.wrW e.1 ((s.rdW e.1 &&& ~~~m) ||| (e.2 &&& m)) else s) s

/-- Restore the whole save list (18 R454): the registers and the configuration of both APLICs. -/
def State.restoreAll (s : State) : State :=
  match s.pkg.save with
  | none => s
  | some l => { s.restoreSave (fun _ => true) with aplicS := l.aplicS, aplicN := l.aplicN }

/-! ### Low power and wake (18 R454 to R456) -/

/-- Power the compute dies down for NIGHT (18 R450, R454): dirty lines written back, clusters fenced, cores off. -/
def State.nightDies (s : State) : State :=
  (below 12 s.dieActive).foldl (fun s d => [3 * d, 3 * d + 1, 3 * d + 2].foldl (fun s c =>
    let s := s.giveUpL2 c
    let s := (List.range 6).foldl (fun (s : State) k => s.loseHart (6 * c + k)) s
    let s := s.loseCluster c
    let s := s.fence (nthD clusterStops c 0) [2, 3] true
    (s.wr (Reg.PWR_UNIT c) F.PWR_UNIT_STATE 3).wr (Reg.PWR_UNIT (36 + c)) F.PWR_UNIT_STATE 3) (s.codeReset d)) s

/-- Power the compute dies up again: the fence that NIGHT set clears, and every hart starts at the reset vector. -/
def State.wakeDies (s : State) (bit : Nat) : State :=
  (below 12 s.dieActive).foldl (fun s d => [3 * d, 3 * d + 1, 3 * d + 2].foldl (fun s c =>
    let t := nthD clusterStops c 0
    let v := (s.rdW (Reg.RTR_FENCE t)).toNat
    let v := setBits (setBits v 3 2 0) 35 34 0
    let s := s.wrW (Reg.RTR_FENCE t) (BitVec.ofNat 64 v)
    let s := (s.wr (Reg.PWR_UNIT c) F.PWR_UNIT_STATE 0).wr (Reg.PWR_UNIT (36 + c)) F.PWR_UNIT_STATE 0
    (List.range 6).foldl (fun s k => (s.startHart (6 * c + k)).hartCause (6 * c + k) bit) s) s) s

/-- Bring every link up from L1 or down to it. -/
def State.linksL1 (s : State) (l1 : Bool) : State :=
  { s with links := s.links.mapD Link.off (fun (l : Link) => if l.up then { l with l1 := l1 } else l) }

/-- Channels leave self-refresh with their contents. -/
def State.leaveSr (s : State) : State :=
  s.forAll 16 (fun m s => if s.rd (Reg.MCH_STATUS m) F.MCH_STATUS_STATE == 4 then
    s.wr (Reg.MCH_STATUS m) F.MCH_STATUS_STATE 3 else s)

/-- An enabled wake source fires (18 R455): its flag is set; in NIGHT or MIDNIGHT, or while an entry to them is under
way, a wake is due (18 R456). -/
def State.fireWake (s : State) (bit : Nat) : State :=
  if !bitAt (s.rdW Reg.PWR_WAKE_EN).toNat bit then s
  else
    let s := s.wr Reg.PWR_WAKE_FLAG F.PWR_WAKE_FLAG_FIRED (s.rd Reg.PWR_WAKE_FLAG F.PWR_WAKE_FLAG_FIRED ||| 2 ^ bit)
    let t := s.rd Reg.PKG_MODE F.PKG_MODE_TARGET
    if t = MD.night ∨ t = MD.midnight then s.pk (fun p => { p with wakeHeld := true }) else s

end Sys2Proof.Machine
end

