-- ==== Sys2Proof/Machine/Orders.lean ====
section
/-! DEFINITION. Mode orders, power requests and unit resets: submission, judgement, decision (16 R396 to R407, 17 R422,
18 R448 to R450). -/

namespace Sys2Proof.Machine
open Sys2Proof

/-- What a meaning answers. -/
abbrev Out := Host.Outcome State Fault Refusal

/-! ### Mode orders -/

/-- Whether *Mode transitions* gives a transition from a mode to an ordered target that takes an order (16 R398, R405);
the PMC names DAWN to leave SIDING and WORKSHOP and MAINLINE to leave CAUTION. -/
def orderMoves (cur target : Nat) : Bool :=
  match cur, target with
  | 4, 5 => true
  | 5, 4 => true
  | 4, 6 => true
  | 5, 6 => true
  | 6, 7 => true
  | 6, 4 => true
  | 3, 10 => true
  | 9, 10 => true
  | 8, 10 => true
  | 8, 4 => true
  | 9, 1 => true
  | 10, 1 => true
  | _, _ => false

/-- Whether a master may name a target (16 R405): the PMC every target of *Mode transitions* that takes an order. CAUTION and NIGHT
are left for MAINLINE by an order of the PMC only (R398, 18 R455). -/
def mayOrder (src cur target : Nat) : Bool :=
  if src = 1 then [MD.dusk, MD.night, MD.mainline, MD.midnight, MD.workshop, MD.dawn].contains target
  else [MD.dusk, MD.night, MD.mainline].contains target && !((cur = MD.night || cur = MD.caution) && target = MD.mainline)

/-- Whether an order completes REFUSED (16 R405, 18 R438, R453). -/
def State.orderRefused (s : State) (o : ModeOrd) : Bool :=
  !mayOrder o.src s.mode o.target || !(o.target == s.mode || orderMoves s.mode o.target) ||
  ((o.target == MD.night || o.target == MD.midnight) && decide (16376 < s.saveCount)) ||
  (o.target == MD.midnight && s.on Reg.PWR_WAKE_FLAG F.PWR_WAKE_FLAG_AON_OSC_FAIL)

/-- The unit an order of world N for DUSK or NIGHT is deferred for: the lowest secure-owned of 0 to 71 and 106 (16
R407). -/
def State.orderUnit (s : State) : Option Nat := (List.range 72 ++ [106]).find? (fun u => s.secOwned u)

/-- Whether an order is deferred (16 R407): from the normal-world system or a Finxis host of world N. -/
def State.orderDeferred (s : State) (o : ModeOrd) : Option Nat :=
  if 3 ≤ o.src ∧ o.who.world = .n ∧ (o.target = MD.dusk ∨ o.target = MD.night) then s.orderUnit else none

/-- Submit an order: it waits for the next decision (16 R406). -/
def State.submitMode (s : State) (o : ModeOrd) : State := s.pk (fun p => { p with orders := p.orders ++ [o] })

/-- Every sensor. -/
def allSensors : List Nat := List.range 148

/-- Actions of entry to MIDNIGHT (18 R454): error records to the log, dirty L3 lines written back, pending MSIs dropped
and logged, wake handover, and everything but AON off. -/
def State.midnightEntry (s : State) : State :=
  let s := s.logBanks
  let dirty := s.homes.flatMap (fun e => e.2.l3.filterMap (fun p => if p.2.dirty then some p.2.ln else none))
  let s := dirty.foldl (fun s ln => s.cleanLine monitor ln) s
  let s := (s.holding).foldl (fun s m => s.drainChannel m) s
  let s := s.writeSave
  let s := { s with imsic := [], files := [], pmc := { s.pmc with req := [], fw := [], cmpAddr := s.pmc.addr } }
  s.beginMove MD.midnight 2 1

/-- The winning target of a decision takes effect (16 R406, R398). An order that hardware protection forbids completes
OVERRIDDEN with SRC 0x0 recorded against it (notes/assumptions/126.md). -/
def State.winMode (s : State) (target : Nat) (srcs : List Nat) (src : Nat) : State :=
  let fin (s : State) (st : Nat) : State := srcs.foldl (fun s c => s.endMode c st) s
  let cur := s.mode
  if target = cur then fin s OS.done
  else if (cur = MD.caution ∨ cur = MD.siding) ∧ s.anyAt allSensors 115 then
    (fin s OS.overridden).pk (fun p => { p with overruled := p.overruled ++ srcs.map (fun c => (c, target, 0)) })
  else if target = MD.dusk ∨ target = MD.night then
    s.pk (fun p => { p with lows := p.lows ++ [⟨target, srcs⟩] })
  else if cur = MD.dusk then (fin s OS.done).beginMove MD.mainline 2 src
  else if cur = MD.night ∧ target = MD.mainline then
    (fin s OS.done).pk (fun p => { p with wakeHeld := true, wakeSrc := src })
  else if target = MD.midnight then (fin s OS.done).midnightEntry
  else if target = MD.workshop then (fin s OS.done).beginMove MD.workshop 2 src
  else if cur = MD.caution then (fin s OS.done).warmReset 2 src
  else
    let s := fin s OS.done
    let s := if cur = MD.siding then
        (s.wr Reg.PKG_BOOT F.PKG_BOOT_COUNT 0).setMram 0x1000 [0] else s
    s.coldReset 2 src

/-- Decide the mode orders that have arrived (16 R406). -/
def State.decideModes (s : State) : State :=
  let os := s.pkg.orders
  let s := s.pk (fun p => { p with orders := [] })
  let bad := os.filter (fun o => s.orderRefused o)
  let rest := os.filter (fun o => !s.orderRefused o)
  let dfr := rest.filter (fun o => (s.orderDeferred o).isSome)
  let live := rest.filter (fun o => (s.orderDeferred o).isNone)
  let s := bad.foldl (fun s o => s.endMode o.src OS.refused) s
  let s := dfr.foldl (fun s o =>
    ((s.defer o.who ((s.orderDeferred o).getD 0) (0xF0 + o.target)).endMode o.src OS.deferred)) s
  match live with
  | [] => s
  | o0 :: os' =>
    let best := os'.foldl (fun (b : ModeOrd) o => if o.src < b.src then o else b) o0
    let lose := live.filter (fun o => o.target != best.target)
    let win := live.filter (fun o => o.target == best.target)
    let s := lose.foldl (fun s o => s.endMode o.src OS.overridden) s
    s.winMode best.target (win.map (·.src)) best.src

/-! ### Power requests (18 R448 to R450) -/

/-- Whether a power request's code, unit and value are in range (18 *Power request codes*); divider codes 0x8 to 0xF are
reserved (R436). -/
def powerOk (code u v : Nat) : Bool :=
  if code = 1 then u == 0 && decide (450 ≤ v) && decide (v ≤ 850)
  else if code = 2 then decide (u < 12) && decide (v < 8)
  else if code = 3 ∨ code = 4 then decide (u < 72) && v == 0
  else if code = 5 ∨ code = 6 then (decide (u < 72) || (decide (88 ≤ u) && decide (u ≤ 105))) && v == 0
  else if code = 7 then decide (72 ≤ u) && decide (u ≤ 87) && decide (v < 2)
  else false

/-- The secure-owned unit a power request of world N is deferred for, when it is judged. -/
def State.powerUnit (s : State) (code u v : Nat) : Option Nat :=
  if code = 2 then (if v = 0 then none else (dieUnits u).mergeSort.find? (fun x => s.secOwned x))
  else if code = 3 ∨ code = 5 ∨ (code = 7 ∧ v = 1) then (if s.secOwned u then some u else none)
  else none

/-- A power request reaches PWR (14 R379, 18 R448): refused, deferred, or waiting for the decision slot. -/
def State.submitPower (s : State) (o : PowerOrd) : State :=
  if !powerOk o.code o.unit o.value then s.endPower o.src OS.refused
  else match (if o.who.world = .n then s.powerUnit o.code o.unit o.value else none) with
    | some u => (s.defer o.who u o.code).endPower o.src OS.deferred
    | none => s.pk (fun p => { p with powers := p.powers ++ [o] })

/-- The resource a power request names (18 R449): the TDP, a die's cap, or a unit's power state. -/
def PowerOrd.resource (o : PowerOrd) : Nat := if o.code = 1 then 0 else if o.code = 2 then 1 + o.unit else 100 + o.unit

/-- State of a unit (18 *PWR_UNIT*). -/
def State.unitState (s : State) (u : Nat) : Nat := s.rd (Reg.PWR_UNIT u) F.PWR_UNIT_STATE

/-- Model power in quarter watts of a divider code for a number of busy clusters (18 *CCLK divider codes*). -/
def modelPower (code busy : Nat) : Nat :=
  4 * (if busy = 3 then nthD [1000, 70, 56, 44, 37, 29, 20, 13] code 0
    else if busy = 1 then nthD [40, 31, 24, 19, 16, 13, 10, 8] code 0
    else Config.diePower code busy)

/-- Whether a cluster is busy (18 R440). -/
def State.busyCluster (s : State) (c : Nat) : Bool :=
  s.unitState c == 0 && ((List.range 6).any (fun k => match (s.hart (6 * c + k)).waiting with
    | .wfi _ | .retention | .off => false
    | _ => !(s.hart (6 * c + k)).held) || s.sliceBusy c)

/-- Number of busy clusters of a die. -/
def State.busyOf (s : State) (d : Nat) : Nat := ((List.range 3).filter (fun k => s.busyCluster (3 * d + k))).length

/-- Whether a code is permitted to a die but for its grant (18 R440): ceiling, cap, throttle and the turbo rule. -/
def State.codeOk (s : State) (d code : Nat) : Bool :=
  let b := s.busyOf d
  decide (modelPower code b ≤ 248) && decide (s.rd (Reg.PWR_DIE d) F.PWR_DIE_CAP ≤ code) &&
    decide (s.rd (Reg.PWR_DIE d) F.PWR_DIE_THROTTLE ≤ code) && (code != 0 || decide (b ≤ 1))

/-- The fastest code a die may run at under a grant in quarter watts, 7 where none is permitted. -/
def State.fastest (s : State) (d grant : Nat) : Nat :=
  ((List.range 8).find? (fun c => s.codeOk d c && decide (modelPower c (s.busyOf d) ≤ grant))).getD 7

/-- A die's demand (18 R442). -/
def State.dieDemand (s : State) (d : Nat) : Nat := modelPower (s.fastest d (2 ^ 20)) (s.busyOf d)

/-- Move a die towards a divider code (18 R439). -/
def State.aimCode (s : State) (d code : Nat) : State :=
  let o := Reg.RCC_CCLK d
  s.wrs o [(F.RCC_CCLK_TARGET, code), (F.RCC_CCLK_MOVING, b2n (code != s.rd o F.RCC_CCLK_CURRENT))]

/-- Move a die towards the fastest code that every limit permits. -/
def State.retarget (s : State) (d : Nat) : State := s.aimCode d (s.fastest d (s.rd (Reg.PWR_DIE d) F.PWR_DIE_GRANT))

/-- Fence a unit that is being powered down, once it has no work (18 R450). -/
def State.fenceUnit (s : State) (u : Nat) : State :=
  if 36 ≤ u ∧ u < 72 ∧ s.sliceBusy (u - 36) then s
  else
    let (t, ag) := unitAgents u
    s.fence t ag false

/-- Apply a winning power request (18 R448 to R451; a cap moves its die's clock, R440); `srcs` are the masters whose requests it completes. -/
def State.applyPower (s : State) (o : PowerOrd) (srcs : List Nat) : State :=
  let fin (s : State) (st : Nat) : State := srcs.foldl (fun s c => s.endPower c st) s
  let u := o.unit
  if o.code = 1 then fin (s.wrs Reg.PWR_PKG [(F.PWR_PKG_TDP_W, o.value), (F.PWR_PKG_SRC, o.src)]) OS.done
  else if o.code = 2 then fin ((s.wr (Reg.PWR_DIE u) F.PWR_DIE_CAP o.value).retarget u) OS.done
  else if o.code = 7 then
    let s := s.wr (Reg.PWR_UNIT u) F.PWR_UNIT_IDLE_SR o.value
    let s := if o.value = 0 then s.pk (fun p => { p with idleSr := p.idleSr.filter (· != u - 72) }) else s
    fin s OS.done
  else
    let st := s.unitState u
    if o.code = 3 then
      if st = 1 then fin s OS.done
      else if st = 0 then fin (s.wr (Reg.PWR_UNIT u) F.PWR_UNIT_STATE 1) OS.done else fin s OS.refused
    else if o.code = 4 then
      if st = 0 then fin s OS.done
      else if st = 1 then fin (s.wr (Reg.PWR_UNIT u) F.PWR_UNIT_STATE 0) OS.done else fin s OS.refused
    else if o.code = 5 then
      if st = 3 then fin s OS.done
      else if st = 0 ∨ st = 1 then
        let s := s.wr (Reg.PWR_UNIT u) F.PWR_UNIT_STATE 2
        let s := if u < 36 then s.writeBackL2 u else s
        let s := s.fenceUnit u
        s.pk (fun p => { p with moves := p.moves ++ [⟨u, false, srcs⟩] })
      else fin s OS.refused
    else
      if st = 0 ∨ st = 1 then fin s OS.done
      else if st = 3 then
        let s := s.wr (Reg.PWR_UNIT u) F.PWR_UNIT_STATE 4
        s.pk (fun p => { p with moves := p.moves ++ [⟨u, true, srcs⟩] })
      else fin s OS.refused

/-- Decide the power requests (18 R449): for each resource the master of best rank wins. `fuel` resources. -/
def State.decidePowers (s : State) : Nat → List PowerOrd → State
  | 0, _ => s
  | _ + 1, [] => s
  | f + 1, o0 :: os =>
    let same := o0 :: os.filter (fun o => o.resource == o0.resource)
    let rest := os.filter (fun o => o.resource != o0.resource)
    let best := same.foldl (fun (b : PowerOrd) o => if o.src < b.src then o else b) o0
    let eq := fun (o : PowerOrd) => o.code == best.code && o.value == best.value
    let s := (same.filter (fun o => !eq o)).foldl (fun s o => s.endPower o.src OS.overridden) s
    let s := s.applyPower best ((same.filter eq).map (·.src))
    State.decidePowers s f rest

/-- The arbiter's decision slot (16 R406, 18 R449): nothing while a transition is under way. -/
def State.arbitrate (s : State) : State :=
  if s.moving then s
  else
    let s := s.decideModes
    if s.moving then s
    else
      let ps := s.pkg.powers
      (s.pk (fun p => { p with powers := [] })).decidePowers ps.length ps

/-! ### Unit resets (17 R422) -/

/-- Complete a unit reset request. -/
def State.endReset (s : State) (m st : Nat) : State :=
  s.wrs (Reg.RCC_RST_REQ m) [(F.RCC_RST_REQ_GO, 0), (F.RCC_RST_REQ_STATUS, st)]

/-- Whether the unit a reset request names is active. -/
def State.resetUnitOk (s : State) (kind idx : Nat) : Bool :=
  if kind = 1 then decide (idx < 216) && s.dieActive (idx / 18) && !s.fenced (nthD clusterStops (idx / 6) 0) 2
  else if kind = 2 then decide (idx < 36) && s.dieActive (idx / 3) && !s.fenced (nthD clusterStops idx 0) 2
  else if kind = 3 then decide (idx < 12) && s.dieActive idx
  else false

/-- The secure-owned unit a reset request of world N is deferred for. -/
def State.resetUnit (s : State) (kind idx : Nat) : Option Nat :=
  if kind = 1 then (if s.secOwned (idx / 6) then some (idx / 6) else none)
  else if kind = 2 then (if s.secOwned idx then some idx else none)
  else (dieUnits idx).mergeSort.find? (fun x => s.secOwned x)

/-- A unit reset request (17 R422). -/
def State.submitReset (s : State) (m : Nat) (who : Ident) (kind idx : Nat) : State :=
  if !s.resetUnitOk kind idx then s.endReset m OS.refused
  else match (if who.world = .n then s.resetUnit kind idx else none) with
    | some u => (s.defer who u (0xE0 + kind)).endReset m OS.deferred
    | none =>
      if kind = 1 then (s.coreReset idx 4).endReset m OS.done
      else if kind = 2 then
        let s := s.fence (nthD clusterStops idx 0) [2, 3] false
        let s := (s.loseSlice idx).writeBackL2 idx
        let s := (List.range 6).foldl (fun s k =>
          let h := 6 * idx + k
          s.setHart h { s.hart h with held := true }) s
        s.pk (fun p => { p with rsts := p.rsts ++ [(m, kind, idx)] })
      else (s.loseDie idx false).endReset m OS.done

end Sys2Proof.Machine
end

