-- ==== Sys2Proof/Machine/Firmware.lean ====
section
/-! DEFINITION. Option records (17 R427, R428), firmware images and their slots (20 R491), and starting the PMC. -/

namespace Sys2Proof.Machine
open Sys2Proof

/-! ### Option records -/

/-- Whether bytes are all zero. -/
def zeros (l : List Byte) : Bool := l.all (· == 0)

/-- A little-endian 64-bit field. -/
def le8 (l : List Byte) (o : Nat) : Nat := leAt l o 8

/-- Whether an option copy is valid (17 R427). -/
def optValid (l : List Byte) : Bool :=
  let b (o : Nat) : Nat := leAt l o 1
  leAt l 0 4 == 0x4254504F && b 8 == 1 && leAt l 124 4 == crc32c (sliceB l 0 124) &&
  decide (b 9 ≤ 1) && decide (leAt l 10 2 < 4096) && decide (b 12 ≤ 1) && decide (b 13 < 4) && decide (b 14 < 16) &&
  decide (b 15 < 2) && (b 23 == 0 || (decide (10 ≤ b 23) && decide (b 23 ≤ 75))) &&
  (List.range 4).all (fun p =>
    let w := leAt l (24 + 2 * p) 2
    w == 0 || (decide (1 ≤ w % 128) && decide (w % 128 ≤ 64) && bitsOf w 7 7 == 0 &&
      decide (1 ≤ bitsOf w 12 8) && decide (bitsOf w 12 8 ≤ 16) && bitsOf w 15 13 == 0)) &&
  [32, 40, 48, 56].all (fun o => le8 l o % 65536 == 0 && decide (le8 l o < 2 ^ 52)) &&
  zeros (sliceB l 64 60)

/-- Option copy A or B in MRAM. -/
def State.optCopy (s : State) (b : Bool) : List Byte := s.mramAt (if b then 0x80 else 0) 128

/-- Which copy the loader takes (17 R428): 1 A, 2 B, 3 none. Of two valid copies with equal SEQ, A
(notes/assumptions/20.md). -/
def State.optPick (s : State) : Nat :=
  let a := s.optCopy false
  let b := s.optCopy true
  match optValid a, optValid b with
  | true, true => if (leAt a 4 4 + 2 ^ 32 - leAt b 4 4) % 2 ^ 32 < 2 ^ 31 then 1 else 2
  | true, false => 1
  | false, true => 2
  | false, false => 3

/-- Bytes of the cold-latched fields (17 R429). -/
def coldBytes (o : Nat) : Bool :=
  (9 ≤ o && o ≤ 13) || o == 15 || (16 ≤ o && o ≤ 22) || (24 ≤ o && o < 64)

/-- Whether the next option load follows power-on or cold reach (17 R429): the widest reach since the last load. -/
def State.coldDue (s : State) : Bool := decide (s.pkg.reach ≤ 2)

/-- What the loader logs of a cold-latched record: a reserved gateway code, and 0x200 + 16·n + code for a reserved bifurcation
code of port n (08 R256, 14 R375, 17 R427). -/
def reservedOptions (l : List Byte) : List Nat :=
  (if leAt l 13 1 % 4 = 3 then [3] else []) ++
  (List.range 14).filterMap (fun n =>
    let c := leAt l (16 + n / 2) 1 / (if n % 2 = 0 then 1 else 16) % 16
    if 7 ≤ c then some (0x200 + 16 * n + c) else none)

/-- Put an option record in force (17 R428, R429). ROLE stays fixed until a power-on or a PKG_COLD# reset (00 R3): a restart
by order, which has cold reach, keeps it (DEDUCED, notes/assumptions/90.md). -/
def State.loadOptions (s : State) : State :=
  let cold := s.coldDue
  let pick := s.optPick
  let rec0 := if pick = 1 then s.optCopy false else if pick = 2 then s.optCopy true else List.replicate 128 0
  let latched := fitB 128 s.coldOpt
  let kept (o : Nat) : Bool := if cold then o == 9 && !s.pkg.roleDue else coldBytes o
  let rec1 := (List.range 128).map (fun o => if kept o then nthD latched o 0 else nthD rec0 o 0)
  let s := if cold then { s with coldOpt := rec1 } else s
  let s := s.pk (fun p => { p with roleDue := false })
  let s := s.forAll 16 (fun i s => s.wrW (Reg.RCC_OPT i) (BitVec.ofNat 64 (le8 rec1 (8 * i))))
  let s := s.wrs Reg.RCC_OPT_STATUS [(F.RCC_OPT_STATUS_SOURCE, pick),
    (F.RCC_OPT_STATUS_PENDING, b2n (!cold && rec1 != rec0)), (F.RCC_OPT_STATUS_SEQ, leAt rec1 4 4)]
  let lim := leAt rec1 14 1 % 16
  let s := s.wr Reg.PKG_BOOT F.PKG_BOOT_LIMIT (if lim = 0 then 3 else lim)
  let gw := leAt rec1 13 1 % 4
  let s := if cold then s.wr Reg.ISO_STATUS F.ISO_STATUS_GATEWAYS gw else s
  let s := if cold then s.pk (fun p => { p with ldrLog := p.ldrLog ++ reservedOptions rec1, coldLoad := true }) else s
  let mask := leAt rec1 10 2
  if cold then s.forAll 12 (fun d s => if bitAt mask d then s.setDieState d 2 else s) else s

/-- Set PKG_BOOT.COUNT and its copy in MRAM (20 R478). -/
def State.setCount (s : State) (n : Nat) : State :=
  (s.wr Reg.PKG_BOOT F.PKG_BOOT_COUNT n).setMram 0x1000 (leBytes 8 n)

/-! ### The PMC starts (20 R490) -/

/-- The SEQ that follows the highest of the log's good records, or the one in hand when there is none. -/
def State.nextSeq (s : State) : Nat :=
  let idx := ((s.mram.keys.filter (fun a => decide (0x2000 ≤ a))).map (fun a => (a - 0x2000) / 64)).eraseDups
  let good := idx.filterMap (fun i =>
    let r := s.mramAt (0x2000 + 64 * i) 64
    if leAt r 60 4 == crc32c (sliceB r 0 60) then some (leAt r 0 4) else none)
  match good with
  | [] => s.pmc.logSeq
  | x :: t => (List.foldl max x t + 1) % 2 ^ 32

/-- The PMC leaves reset: it finds its place in the log, logs the reset, and writes the records that waited. -/
def State.pmcBegin (s : State) : State :=
  let s := s.pk (fun p => { p with held := p.held.filter (fun d => d != .pmc) })
  let w := s.pmc.logWait
  let s := { s with pmc := { s.pmc with logSeq := s.nextSeq, logWait := [], restart := false } }
  let s := s.logNow 4 (s.regBytes Reg.RCC_RST_CAUSE ++ s.regBytes Reg.RCC_RST_UNITS)
  w.foldl (fun s p => s.logNow p.1 p.2) s

/-! ### Firmware images (20 R491) -/

/-- Bytes of the boot flash; an unlisted byte is erased (notes/assumptions/27.md). -/
def State.flashAt (s : State) (off n : Nat) : List Byte := (List.range n).map (fun i => Tab.get erased s.flash (off + i))

/-- Flash offset of a slot of an image kind (1 PMC, 2 monitor). -/
def slotBase (kind slot : Nat) : Nat := if kind = 1 then 0x40000 * slot else 0x1000000 + 0x1000000 * slot

/-- Largest body of a kind. -/
def maxBody (kind : Nat) : Nat := if kind = 1 then 196608 else 8388608

/-- The SLOTS word (20 R478). -/
def State.slots (s : State) : Nat := leNat (s.mramAt 0x1008 8)

/-- The active slot of a kind. -/
def State.activeSlot (s : State) (kind : Nat) : Nat := bitsOf s.slots (8 * (kind - 1)) (8 * (kind - 1))

/-- MIN_SVN of a kind. -/
def State.minSvn (s : State) (kind : Nat) : Nat := leNat (s.mramAt (0x1010 + 4 * (kind - 1)) 4)

/-- The header of a slot. -/
def State.imgHeader (s : State) (kind slot : Nat) : List Byte := s.flashAt (slotBase kind slot) 8192

/-- The body of a slot, by its header's BODY_BYTES. -/
def State.imgBody (s : State) (kind slot : Nat) : List Byte :=
  s.flashAt (slotBase kind slot + 8192) (min (maxBody kind) (leAt (s.imgHeader kind slot) 16 4))

/-- The outcome of checking a slot (20 R491): status 0 OK, 6 SVN_LOW, 5 AUTH_FAIL; another failure outranks a low SVN
(notes/assumptions/21.md). -/
def State.imgCheck (s : State) (kind slot : Nat) : Nat :=
  let h := s.imgHeader kind slot
  let n := leAt h 16 4
  let shape := leAt h 0 4 == 0x474D4950 && leAt h 4 1 == 1 && leAt h 5 1 == kind && decide (leAt h 6 1 < 2) &&
    leAt h 7 1 == 0 && decide (1 ≤ n) && decide (n ≤ maxBody kind) && (kind != 2 || leAt h 20 4 == 0) &&
    zeros (sliceB h 24 8) && zeros (sliceB h 177 15) && zeros (sliceB h 5549 2643)
  let ok := shape && Config.sha384 (sliceB h 80 97 ++ sliceB h 192 1952) == Config.fusedKeyHash &&
    Config.sha384 (s.imgBody kind slot) == sliceB h 32 48 &&
    Config.ecdsaVerify (sliceB h 80 97) (sliceB h 0 80) (sliceB h 2144 96) &&
    Config.mldsaVerify (sliceB h 192 1952) (sliceB h 0 80) (sliceB h 2240 3309)
  if !ok then 5 else if leAt h 8 4 < s.minSvn kind then 6 else 0

/-- Log a firmware event (20 R490, type 0x07). -/
def State.logFw7 (s : State) (kind slot status step : Nat) : State :=
  let h := s.imgHeader kind slot
  s.logNow 7 ([BitVec.ofNat 8 kind, BitVec.ofNat 8 slot, BitVec.ofNat 8 status, BitVec.ofNat 8 step] ++
    sliceB h 8 4 ++ sliceB h 12 4)

/-- The image in force of a kind is that of a slot: its VERSION and SVN. -/
def State.putInForce (s : State) (kind slot : Nat) : State :=
  let h := s.imgHeader kind slot
  { s with pmc := { s.pmc with inForce := Tab.put (0, 0) s.pmc.inForce kind (leAt h 12 4, leAt h 8 4) } }

/-- The PMC runs the ROM image, as a failing check of the committed one makes it (20 R495). -/
def State.romFallback (s : State) : State :=
  let s := s.logNow 9 [3]
  { s with pmc := { s.pmc with rom := true } }

/-- The PMC goes into its committed image, or back to the ROM image when that fails its check (20 R494, R495). -/
def State.loadPmcImage (s : State) : State :=
  if s.imgCheck 1 (s.activeSlot 1) = 0 then
    let s := s.putInForce 1 (s.activeSlot 1)
    { s with pmc := { s.pmc with rom := false } }
  else s.romFallback

/-- The PMC starts; in SIDING it goes into its committed image unless it is to run the ROM image (20 R495). -/
def State.pmcStart (s : State) : State :=
  let s := s.pmcBegin
  if s.mode = 9 && !s.pmc.rom then s.loadPmcImage else s

/-! ### Boot ROM option steps (17 R429) -/

/-- Whether a region of option bytes is well formed: nonempty, in order, and inside installed DRAM. -/
def State.regionOk (s : State) (base limit : Nat) : Bool :=
  !(base == 0 && limit == 0) && decide (base ≤ limit) && decide (limit + 65536 ≤ s.top)

/-- The registers of a locked region of the monitor. -/
def State.regionRegs (s : State) (r base limit : Nat) : State :=
  let s := s.wrs (Reg.FW_BASE r) [(F.FW_BASE_VALID, 1), (F.FW_BASE_BASE, base / 65536)]
  let s := s.wr (Reg.FW_LIMIT r) F.FW_LIMIT_LIMIT (limit / 65536)
  s.wrs (Reg.FW_ATTR r) [(F.FW_ATTR_WORLD, 1), (F.FW_ATTR_PID, 0), (F.FW_ATTR_W, 1), (F.FW_ATTR_R, 1),
    (F.FW_ATTR_LOCAL_HOME, 0), (F.FW_ATTR_LOCK, 1)]

/-- The boot ROM commits a locked region of the monitor, which is filled as any other newly owned one (09 R279, R281). -/
def State.bootRegion (s : State) (r base limit : Nat) : State :=
  let t := s.regionRegs r base limit
  if fillsRegion s t r then (t.zeroFill (fun pa => fillsGranule s t r (pa / 65536))).setFilling [r] else t

/-- The boot ROM's settings that need no DRAM (14 R385, 17 R429): the limits of every Finxis port, and the debug lock. -/
def State.applyLimits (s : State) : State :=
  let o := s.coldOpt
  let s := s.forAll 4 (fun p s =>
    let w := leAt o (24 + 2 * p) 2
    s.wrs (Reg.FX_LIMIT p) [(F.FX_LIMIT_RATE, if w = 0 then 16 else w % 128),
      (F.FX_LIMIT_BURST, if w = 0 then 8 else bitsOf w 12 8), (F.FX_LIMIT_LOCK, 1)])
  if leAt o 15 1 % 2 = 1 then s.wr Reg.ISO_DBG F.ISO_DBG_LOCK 1 else s

/-- The steps of 17 R429 at the first DEPOT after a cold-reach load. -/
def State.applyOptions (s : State) : State :=
  let o := s.coldOpt
  let s := s.applyLimits
  let mb := le8 o 32
  let ml := le8 o 40
  let s := if s.regionOk mb ml then s.bootRegion 0 mb ml else s
  let gb := le8 o 48
  let gl := le8 o 56
  let gok := s.regionOk gb gl && (decide (gl < mb) || decide (ml < gb))
  let s := if gok then s.bootRegion 1 gb gl else s
  let gw := s.rd Reg.ISO_STATUS F.ISO_STATUS_GATEWAYS
  if !gok && (gw == 1 || gw == 2) then
    (s.wr Reg.ISO_STATUS F.ISO_STATUS_GATEWAYS 0).pk (fun p => { p with ldrLog := p.ldrLog ++ [gw] }) else s

end Sys2Proof.Machine
end

