-- ==== Sys2Proof/Machine/BootCmds.lean ====
section
/-! DEFINITION. Supplies, resets and bring-up (17, 20 R492, 22 R509, R510): the commands from power-on to MAINLINE. -/

namespace Sys2Proof.Machine
open Sys2Proof

/-! ### Supplies -/

/-- Board fact of a site (01 R14): the die there latches its straps. -/
def latchSites (l : List (Option DieSite)) : Tab (Option DieSite) :=
  ((List.range 12).map (fun d => (d, nthD l d none))).foldl (fun t e => Tab.put none t e.1 e.2) []

/-- The die at a site shows the straps it latched (01 R14, R30). -/
def State.showStraps (s : State) (d : Nat) : State :=
  match Tab.get none s.pkg.dies d with
  | some x => s.wrs (Reg.PKG_DIE_INFO d) [(F.PKG_DIE_INFO_POSITION, x.position), (F.PKG_DIE_INFO_ORIENTATION, x.orientation)]
  | none => s

/-- The routings a die sets from its orientation code (01 *Orientation remapping*): the cluster index k on each of its ports A,
B and C, the pair of remote-sense pads in use, and whether its test chain runs in reverse. -/
structure Routing where
  portA : Nat
  portB : Nat
  portC : Nat
  sense : Nat
  reverse : Bool
  deriving DecidableEq, Repr

/-- The row of *Orientation remapping* of an orientation code (01 R15). -/
def orientRouting (code : Nat) : Routing :=
  if code % 2 = 0 then ⟨0, 1, 2, code, false⟩ else ⟨2, 1, 0, code, true⟩

/-- The cluster index on a port of a die, 0 for A to 2 for C. -/
def Routing.onPort (r : Routing) (port : Nat) : Nat := if port = 0 then r.portA else if port = 1 then r.portB else r.portC

/-- The routings of the die at a site, from the orientation code it latched (01 R14, R15). Software cannot change them: no
command writes the code. -/
def State.routing (s : State) (d : Nat) : Option Routing := (Tab.get none s.pkg.dies d).map (fun x => orientRouting x.orientation)

/-- The cluster on a port of the die at a site, C(3·d + k), and the stop it stands at (01 R15, R17). -/
def State.portCluster (s : State) (d port : Nat) : Option (Nat × Nat) :=
  (s.routing d).map (fun r => (3 * d + r.onPort port, nthD clusterStops (3 * d + r.onPort port) 0))

/-- The package test chain (01 R15): the sites in ascending order, each with the direction its die runs it. -/
def State.testChain (s : State) : List (Nat × Bool) :=
  (List.range 12).filterMap (fun d => (s.routing d).map (fun r => (d, r.reverse)))

/-- SUPPLIES_GOOD (22 R509, 16 R398, 01 R14): the last main rail is good while PWR_MAIN_EN is high; the dies latch their
straps, FORCE_SIDING# and TEST_EN are sampled, and the package leaves DARK for DAWN. With TEST_EN high every domain stays
in reset and no mode is entered (17 R434). On the way out of MIDNIGHT the straps are latched again. -/
def execSuppliesGood (board : Board) (force test : Bool) (s : State) : Out :=
  if s.pkg.supplies || !s.pkg.mainEn || !s.pkg.standby then .next s
  else
    let s := s.pk (fun p => { p with
      supplies := true, dies := latchSites board.sites, dimms := board.dimms, testEn := test, held := p.held.filter (fun d => d != .aon),
      forceSiding := if p.reach ≤ 2 then force else p.forceSiding })
    let s := s.wrs Reg.RCC_CLK_STATUS [(F.RCC_CLK_STATUS_AON_GOOD, 1), (F.RCC_CLK_STATUS_REF_GOOD, 1)]
    let s := s.forAll 12 (fun d s => s.showStraps d)
    if test then .next s
    else .next (s.arriveMode MD.dawn (if s.pkg.midWake then 3 else 0) 0)

/-- Assert a reset that resets the PMC, or make it wait for the MRAM write pulse in progress (17 R415); of waiting
assertions the widest stands. -/
def State.assertRst (s : State) (w : RstWait) (pulse : Bool) : State :=
  if pulse || s.pkg.rstWait.isSome then
    let wider := match s.pkg.rstWait, w with
      | some (.powerOn a), .powerOn b => .powerOn (a || b)
      | some (.powerOn a), _ => .powerOn a
      | _, .powerOn a => .powerOn a
      | some .cold, _ => .cold
      | _, x => x
    (s.wr Reg.RCC_RST_CAUSE F.RCC_RST_CAUSE_MRAM_DELAY 1).pk (fun p => { p with rstWait := some wider })
  else match w with
    | .powerOn a => s.powerOnReset a
    | .cold => (s.coldReset 0xB 0).pk (fun p => { p with roleDue := true })
    | .warm => s.warmReset 0xB 0

/-- POWER_ON_RESET (17 R413, 22 R510): a main supply falls below its threshold while PWR_MAIN_EN is high. -/
def execPowerOnReset (pulse : Bool) (s : State) : Out :=
  if s.pkg.mainEn then .next ((s.pk (fun p => { p with supplies := false })).assertRst (.powerOn false) pulse) else .next s

/-- COLD_RESET (17 R414): PKG_COLD# is recognised low; FORCE_SIDING# is sampled (R434). In DARK nothing runs. -/
def execColdReset (force pulse : Bool) (s : State) : Out :=
  if s.mode = MD.dark then .next s
  else
    let s := (s.wr Reg.RCC_RST_CAUSE F.RCC_RST_CAUSE_COLD_PIN 1).pk (fun p => { p with forceSiding := force, mainEn := true, coldPin := true })
    .next (s.assertRst .cold pulse)

/-- Assert a warm-reach source: its cause bit, then the reset. -/
def State.warmSource (s : State) (f : Fld) (pulse : Bool) : State :=
  if s.mode = MD.dark then s
  else ((s.wr Reg.RCC_RST_CAUSE f 1).pk (fun p => { p with mainEn := true, forceSiding := false })).assertRst .warm pulse

/-- WARM_RESET (17 R414): PKG_WARM# is recognised low. -/
def execWarmReset (pulse : Bool) (s : State) : Out :=
  if s.mode = MD.dark then .next s
  else .next ((s.pk (fun p => { p with warmPin := true })).warmSource F.RCC_RST_CAUSE_WARM_PIN pulse)

/-- MRAM_PULSE_END (17 R415): the reset that waited for the pulse is asserted on its domains. -/
def execMramPulseEnd (s : State) : Out :=
  match s.pkg.rstWait with
  | none => .next s
  | some w => .next ((s.pk (fun p => { p with rstWait := none })).assertRst w false)

/-- STANDBY_RAIL_LOSS (22 R510, 17 R425): AON is reset along with the power-on reach; the backup registers, the cause
records and PMC_TRIP are cleared, and PWR_MAIN_EN goes low. -/
def execStandbyRailLoss (pulse : Bool) (s : State) : Out :=
  let s := s.pk (fun p => { p with standby := false, supplies := false, mainEn := false })
  .next (s.assertRst (.powerOn true) pulse)

/-- STANDBY_RAILS_GOOD (22 R509): AON leaves power-on reset and PWR_MAIN_EN is asserted. -/
def execStandbyRailsGood (s : State) : Out :=
  .next (s.pk (fun p => { p with
    standby := true, mainEn := true, held := p.held.filter (fun d => d != .aon && d != .dbg) }))

/-! ### Self-refresh under a warm-reach source -/

/-- Note in a channel's error record that its reset waited (17 R415): the manual names no class or source for the note,
so those fields are free. -/
def State.noteWait (s : State) (m : Nat) : State :=
  let o := Reg.MCH_ERR_INFO m
  if s.on o F.MCH_ERR_INFO_VALID then s.wr o F.MCH_ERR_INFO_LOST 1
  else
    let (a, s) := s.draw
    let (b, s) := s.draw
    s.wrs o [(F.MCH_ERR_INFO_VALID, 1), (F.MCH_ERR_INFO_CLASS, a), (F.MCH_ERR_INFO_SOURCE, b)]

/-- SELF_REFRESH_ENTRY_DONE (17 R415): the controller has issued its accepted writes and self-refresh entry, and is
reset. -/
def execSelfRefreshEntryDone (m : Fin 16) (s : State) : Out :=
  if s.pkg.srWait.contains m.val then
    let s := (s.selfRefresh m).noteWait m
    .next (s.pk (fun p => { p with srWait := p.srWait.filter (· != m.val) }))
  else .next s

/-- SELF_REFRESH_WAIT_TIMEOUT (17 R415): the controller is reset anyway and its channel is to be filled. -/
def execSelfRefreshWaitTimeout (m : Fin 16) (s : State) : Out :=
  if s.pkg.srWait.contains m.val then
    let s := s.noteWait m
    let mine := fun (w : WqEntry) => s.paKind (128 * w.ln) == .dram && s.chanOf (128 * w.ln) == m.val
    let s := { s with wq := s.wq.filter (fun w => !mine w) }
    .next (s.pk (fun p => { p with srWait := p.srWait.filter (· != m.val), lost := (m.val :: p.lost).eraseDups }))
  else .next s

/-! ### DAWN -/

/-- OPTION_LOAD_DONE (17 R428, 16 R401): the option record comes into force, then the boot-attempt check sends the package
to SIDING with cause 0x04, or counts the start. While a reset pin is low its source stays asserted (17 R414), and nothing is loaded. -/
def execOptionLoadDone (s : State) : Out :=
  if s.mode != MD.dawn || s.pkg.loaded || s.pkg.rstWait.isSome || !s.pkg.supplies || s.pkg.coldPin || s.pkg.warmPin then .next s
  else
    let s := s.loadOptions.pk (fun p => { p with loaded := true })
    let n := s.rd Reg.PKG_BOOT F.PKG_BOOT_COUNT
    if s.rd Reg.PKG_BOOT F.PKG_BOOT_LIMIT ≤ n ∨ s.pkg.forceSiding then .next ((s.enterSiding 4 0).pmcStart)
    else .next (s.setCount (n + 1))

/-- PLL_LOCK (18 R435): SCLK goes from the reference to the PLL. -/
def execPllLock (s : State) : Out :=
  if s.pkg.supplies then .next (s.wr Reg.RCC_CLK_STATUS F.RCC_CLK_STATUS_PLL_LOCK 1) else .next s

/-- Begin MORNING (16 R398): the channels the board populates train, or leave self-refresh (09 R275). -/
def State.beginMorning (s : State) : State :=
  let s := s.pk (fun p => { p with held := p.held.filter (fun d => d != .port && d != .mem), warmup := false })
  let s := (below 16 (bitAt s.pkg.dimms)).foldl (fun s m =>
    if s.rd (Reg.MCH_STATUS m) F.MCH_STATUS_STATE == 4 then s else s.wr (Reg.MCH_STATUS m) F.MCH_STATUS_STATE 1) s
  s.arriveMode MD.morning 1 0

/-- Number of a clock in RCC_CLK_LOSS, and its index (18 *RCC_CLK_LOSS*). -/
def clockCode : Clock → Nat × Nat
  | .ref => (1, 0)
  | .pll => (2, 0)
  | .fclk => (3, 0)
  | .eclk => (4, 0)
  | .mclk => (5, 0)
  | .sclk => (6, 0)
  | .cclk d => (7, d)
  | .serdes g => (8, g)
  | .aon => (9, 0)

/-- Key of a clock in the monitors' window counts. -/
def clockKey (c : Clock) : Nat := 16 * (clockCode c).1 + (clockCode c).2

/-- Set the good bit of a clock. -/
def State.setGood (s : State) (c : Clock) (b : Bool) : State :=
  let st := Reg.RCC_CLK_STATUS
  match c with
  | .ref => s.wr st F.RCC_CLK_STATUS_REF_GOOD (b2n b)
  | .pll => s.wr st F.RCC_CLK_STATUS_PLL_LOCK (b2n b)
  | .fclk => s.wr st F.RCC_CLK_STATUS_FCLK_GOOD (b2n b)
  | .eclk => s.wr st F.RCC_CLK_STATUS_ECLK_GOOD (b2n b)
  | .mclk => s.wr st F.RCC_CLK_STATUS_MCLK_GOOD (b2n b)
  | .sclk => s.wr st F.RCC_CLK_STATUS_SCLK_GOOD (b2n b)
  | .aon => s.wr st F.RCC_CLK_STATUS_AON_GOOD (b2n b)
  | .cclk d => s.wr (Reg.RCC_CCLK d) F.RCC_CCLK_GOOD (b2n b)
  | .serdes _ => s

/-- Whether a clock is good. -/
def State.clkGood (s : State) (f : Fld) : Bool := s.on Reg.RCC_CLK_STATUS f

/-- A link goes down by surprise removal, DPC or loss of its reference (08 R258, R259): writes that wait for its memory are
dropped. -/
def State.linkDown (s : State) (j : Nat) : State :=
  let l := s.link j
  if !l.up then s
  else
    let s := { s with wq := s.wq.filter (fun w => s.paKind (128 * w.ln) != PaKind.cxl j) }
    let s := (s.setLink j { l with up := false, fenced := true, removed := l.removed || l.cxl, l1 := false }).raise (301 + j / 8)
    if l.cxl then s.pk (fun p => { p with ldrLog := p.ldrLog ++ [0x400 + j] }) else s

/-- Record a clock loss: the first fills the record (18 R438). -/
def State.recordLoss (s : State) (c : Clock) : State :=
  let o := Reg.RCC_CLK_LOSS
  if s.on o F.RCC_CLK_LOSS_VALID then s.wr o F.RCC_CLK_LOSS_MORE 1
  else
    let s := s.wrs o [(F.RCC_CLK_LOSS_VALID, 1), (F.RCC_CLK_LOSS_CLOCK, (clockCode c).1), (F.RCC_CLK_LOSS_INDEX, (clockCode c).2)]
    if s.pmcRuns then s.logNow 5 (s.regBytes o) else s

/-- The links of a SerDes group go down with its clock: port g's sixteen segments, or two Finxis ports. -/
def State.serdesLoss (s : State) (g : Nat) : State :=
  if g < 7 then (List.range 16).foldl (fun s k => s.linkDown (16 * g + k)) s
  else (s.finxisDown (2 * (g - 7)) 5).finxisDown (2 * (g - 7) + 1) 5

/-- CLK_LOSS in the sticky reset cause (17 R418). -/
def State.clkLossCause (s : State) : State := (s.wr Reg.RCC_RST_CAUSE F.RCC_RST_CAUSE_CLK_LOSS 1).recordReach 3

/-- The loss of a package clock of the fabric or of memory (17 R418, 18 R438): a fault of the base, with CAUTION where *Mode
transitions* gives it and BUFFER STOP from CAUTION (16 R398). Elsewhere the domains of the clock are held again and the mode stays, in
DEPOT with cause 0x08 (notes/assumptions/128.md). -/
def State.fabricClockLoss (s : State) (l : List Domain) : State :=
  let s := s.clkLossCause
  if s.mode = MD.caution then s.enterBufferStop true
  else if s.mode = MD.bufferStop then s
  else if s.cautionDue then s.enterCaution 8 0
  else
    let s := s.pk (fun p => { p with held := (p.held ++ l).eraseDups })
    if s.mode = MD.depot then s.wr Reg.PKG_MODE F.PKG_MODE_CAUSE 8 else s

/-- The loss of a package clock under the controller itself: BUFFER STOP (17 R418, 18 R438). -/
def State.controlClockLoss (s : State) : State := s.clkLossCause.enterBufferStop false

/-- A die lost with its core clock (17 R408, R418). -/
def State.dieClockLoss (s : State) (d : Nat) : State := s.loseDie d true

/-- The loss of the engines' clock: every active die is lost (17 R418). -/
def State.engineClockLoss (s : State) : State := (below 12 s.dieActive).foldl State.dieClockLoss s

/-- The loss of a die's core clock: a die loss (17 R418). -/
def State.coreClockLoss (s : State) (d : Nat) : State := if s.dieActive d then s.dieClockLoss d else s

/-- The consequences of a clock loss (17 R418, 18 R438); the loss of the reference unlocks the PLL. -/
def State.clockLoss (s : State) (c : Clock) : State :=
  let s := (s.recordLoss c).setGood c false
  match c with
  | .cclk d => s.coreClockLoss d
  | .eclk => s.engineClockLoss
  | .fclk => s.fabricClockLoss [.base, .port, .mem]
  | .mclk => s.fabricClockLoss [.mem]
  | .ref => (s.wr Reg.RCC_CLK_STATUS F.RCC_CLK_STATUS_PLL_LOCK 0).controlClockLoss
  | .sclk | .pll => s.controlClockLoss
  | .aon => s.wr Reg.PWR_WAKE_FLAG F.PWR_WAKE_FLAG_AON_OSC_FAIL 1
  | .serdes g => s.serdesLoss g

/-- CLOCK_MONITOR_WINDOW (18 R437, R438): a window of 64 reference cycles closes with an edge count; four good windows
in a row (within 1 % of what was expected) make the clock good, one outside 5 %, or 20 ns of silence, is a loss of a
clock that was good. In DARK and MIDNIGHT no monitor but AON's runs, and in BUFFER STOP those of the clocks that run (16 R404). -/
def execClockMonitorWindow (c : Clock) (expect edges : Nat) (silent : Bool) (s : State) : Out :=
  if s.mode = MD.dark ∨ (s.mode = MD.midnight ∧ c ≠ .aon) ∨ (s.mode = MD.bufferStop ∧ clockStays (clockCode c).1 = false) then .next s
  else
    let off := if edges ≤ expect then expect - edges else edges - expect
    let n := Tab.get 0 s.pkg.good (clockKey c)
    if silent ∨ 5 * expect < 100 * off then
      let s := s.pk (fun p => { p with good := Tab.put 0 p.good (clockKey c) 0 })
      if 4 ≤ n then .next (s.clockLoss c) else .next s
    else if 100 * off ≤ expect then
      let s := s.pk (fun p => { p with good := Tab.put 0 p.good (clockKey c) (min 4 (n + 1)) })
      if 3 ≤ n then .next (s.setGood c true) else .next s
    else .next (s.pk (fun p => { p with good := Tab.put 0 p.good (clockKey c) (if 4 ≤ n then n else 0) }))

/-- The owner world of some units: S if any is secure-owned. -/
def State.ownerOf (s : State) (us : List Nat) : World := if us.any (fun u => s.secOwned u) then .s else .n

/-- Whether any reading is below -40 degrees (17 R432). -/
def State.tooCold (s : State) : Bool := allSensors.any (fun n => decide (s.sensor n < -640))

/-- Whether a site's die has a strap fault (01 R16). A die the mask excludes counts among those that latch its position
code (DEDUCED, notes/assumptions/92.md). -/
def State.strapFault (s : State) (d : Nat) : Bool :=
  match Tab.get none s.pkg.dies d with
  | none => false
  | some x => decide (12 ≤ x.position) || x.orientation != x.position / 3 ||
    (List.range 12).any (fun e => e != d && (match Tab.get none s.pkg.dies e with
      | some y => y.position == x.position
      | none => false))

/-- Whether a site has a die whose domains may leave reset: one without a strap fault that is not masked, fenced or of an
unsupported revision (01 R16). -/
def State.dieMayRun (s : State) (d : Nat) : Bool :=
  (Tab.get none s.pkg.dies d).isSome && !s.strapFault d && decide (s.dieState d ≤ 1)

/-- Whether the clocks of a compute die's domains are good (17 R418). -/
def State.dieClocks (s : State) (d : Nat) : Bool :=
  s.clkGood F.RCC_CLK_STATUS_FCLK_GOOD && s.clkGood F.RCC_CLK_STATUS_ECLK_GOOD && s.on (Reg.RCC_CCLK d) F.RCC_CCLK_GOOD

/-- Whether a hart may leave reset (16 R398, R403, 17 R418): its die may run on good clocks and its cluster is neither held nor fenced, in
MAINLINE or DUSK; in WORKSHOP by the debug module, while its owner world's invasive enable is in force. -/
def State.hartMayRun (s : State) (h : Fin 216) : Bool :=
  s.dieMayRun (h.val / 18) && s.dieClocks (h.val / 18) && !s.pkg.hartRst.contains h.val &&
    ((s.mode == MD.workshop && s.invasive (s.ownerOf [h.val / 6])) ||
      ((s.mode == MD.mainline || s.mode == MD.dusk) && !s.pkg.held.contains (.clu ⟨h.val / 6, by omega⟩) &&
        !s.fenced (nthD clusterStops (h.val / 6) 0) 2))

/-- What the pins read where a release would fall (17 R414): a pin seen high releases its source. -/
def State.seePins (s : State) (x : Release) : State :=
  s.pk (fun p => { p with coldPin := p.coldPin && x.coldLow, warmPin := p.warmPin && x.warmLow })

/-- DOMAIN_RESET_RELEASE (17 R414, R418 to R421): the covering sources are released and the domain's clocks good; the domains
follow the release sequence, and the warm-up decision falls where PORT would be released. A compute domain is released
only once the package runs, and never on a site whose die is held (01 R16); one that a debug source holds is passed over. While a
reset pin is low nothing is released. -/
def execDomainResetRelease (x : Release) (s : State) : Out :=
  let s := s.seePins x
  if s.pkg.coldPin || s.pkg.warmPin then .next s
  else
  let d := x.dom
  let p := s.pkg
  let out (s : State) : State := s.pk (fun p => { p with held := p.held.filter (fun x => x != d) })
  let clocks := s.clkGood F.RCC_CLK_STATUS_PLL_LOCK && s.clkGood F.RCC_CLK_STATUS_FCLK_GOOD &&
    s.clkGood F.RCC_CLK_STATUS_SCLK_GOOD
  match d with
  | .core h => if (s.hart h).held && s.hartMayRun h then .next (s.startHart h) else .next s
  | _ =>
  if !p.held.contains d || p.rstWait.isSome || !p.supplies || p.testEn then .next s
  else match d with
    | .aon | .dbg => .next (out s)
    | .sens | .iso => if clocks then .next (out s) else .next s
    | .base =>
      if clocks && p.loaded && s.mode == MD.dawn && !p.held.contains .sens && !p.held.contains .iso then .next (out s)
      else .next s
    | .port =>
      if clocks && s.mode == MD.dawn && !p.held.contains .base && !p.warmup then
        if s.tooCold then .next (s.pk (fun p => { p with warmup := true })) else .next (out s)
      else .next s
    | .mem =>
      if clocks && s.clkGood F.RCC_CLK_STATUS_MCLK_GOOD && s.mode == MD.dawn && !p.held.contains .port &&
          p.srWait.isEmpty then .next s.beginMorning
      else .next s
    | .pmc => if s.mode == MD.siding || MD.depot ≤ s.mode && s.mode != MD.midnight && s.mode != MD.bufferStop then
        .next s.pmcStart else .next s
    | .die i => if [MD.mainline, MD.dusk].contains s.mode && s.dieMayRun i && s.dieClocks i then .next (out s) else .next s
    | .clu c =>
      if [MD.mainline, MD.dusk].contains s.mode && s.dieMayRun (c / 3) && s.dieClocks (c / 3) &&
        !s.fenced (nthD clusterStops c 0) 2 then .next (out s) else .next s
    | .core _ => .next s

/-- Record a scan's readings. -/
def State.readSensors (s : State) (l : List Int) : State :=
  { s with pmc := { s.pmc with sens := (l.take 148).zipIdx.foldl (fun t e => Tab.put 0 t e.2 e.1) [] } }

/-- WARMUP_SCAN (17 R432): warm-up and DAWN end at the first scan with every sensor at -40 degrees or above. -/
def execWarmupScan (temps : List Int) (s : State) : Out :=
  if s.pkg.warmup then
    let s := s.readSensors temps
    if s.tooCold then .next s else .next s.beginMorning
  else .next s

/-- WARMUP_TIMEOUT (17 R432): SIDING with cause 0x0C. -/
def execWarmupTimeout (s : State) : Out :=
  if s.pkg.warmup then .next ((s.enterSiding 0xC 0).pmcStart) else .next s

/-! ### MORNING -/

/-- KIND code of a DIMM. -/
def dimmKind (d : Dimm) : Nat := if d.mr then 3 else if d.width = 4 then 1 else 2

/-- Whether a DIMM population of a channel is supported (09 R262). -/
def dimmSupported (d : Dimm) : Bool :=
  let fast := [4800, 5600, 6400, 7200, 8000, 8800]
  let slow := [4800, 5600, 6400]
  d.plain &&
  (if d.mr then d.width == 4 && [64, 128, 256].contains d.gib && d.dpc == 1 && [8800, 12800].contains d.rate
   else
    ((d.width == 4 && [32, 64, 96, 128, 256].contains d.gib) || (d.width == 8 && [16, 32, 48].contains d.gib)) &&
    ((d.dpc == 1 && fast.contains d.rate) || (d.dpc == 2 && slow.contains d.rate)))

/-- Whether the population of the sixteen channels is supported (09 R263). -/
def populationOk (l : List (Option Dimm)) : Bool :=
  let at_ := fun (m : Nat) => nthD l m none
  let used := below 16 (fun m => (at_ m).isSome)
  (used == List.range 16 || used == [0, 2, 4, 6, 8, 10, 12, 14]) &&
  (match used with
   | [] => false
   | m0 :: ms => ms.all (fun m => match at_ m0, at_ m with
      | some a, some b => { a with trains := true } == { b with trains := true }
      | _, _ => false)) &&
  used.all (fun m => match at_ m with
    | some d => dimmSupported d && d.trains
    | none => false)

/-- DRAM_TRAINING_DONE (09 R263, R271, R274): a supported population is laid out and its channels go to the fill, those
that left self-refresh with their contents going straight to ready; any other population, or a channel that fails to
train, ends MORNING in SIDING with cause 0x05, where the boot ROM has first set the limits that need no DRAM (14 R385; DEDUCED,
notes/assumptions/129.md). -/
def execDramTrainingDone (dimms : List (Option Dimm)) (s : State) : Out :=
  if s.mode != MD.morning then .next s
  else
    let at_ := fun (m : Nat) => nthD dimms m none
    let s := s.forAll 16 (fun m s => match at_ m with
      | none => s.wrW (Reg.MCH_STATUS m) 0
      | some d =>
        let kept := s.rd (Reg.MCH_STATUS m) F.MCH_STATUS_STATE == 4 && !s.pkg.lost.contains m
        s.wrs (Reg.MCH_STATUS m) [(F.MCH_STATUS_RATE_MTS, d.rate), (F.MCH_STATUS_CAP_GIB, d.gib * d.dpc),
          (F.MCH_STATUS_DPC, d.dpc), (F.MCH_STATUS_KIND, dimmKind d),
          (F.MCH_STATUS_STATE, if !d.trains then 5 else if kept then 3 else 2)])
    if !populationOk dimms then .next (((if s.pkg.coldLoad then s.applyLimits else s).enterSiding 5 0).pmcStart)
    else
      let c := match at_ 0 with
        | some d => d.gib * d.dpc
        | none => 0
      let n := (below 16 (fun m => (at_ m).isSome)).length
      .next (s.wrs Reg.MEM_MAP [(F.MEM_MAP_TOP, n * c * 2 ^ 14), (F.MEM_MAP_WAYS_LOG2, if n = 16 then 4 else 3),
        (F.MEM_MAP_GRANULE, s.optByte 12 % 2)])

/-- The stored bytes of a channel's DRAM become zero, with valid check bytes (09 R274). -/
def State.zeroChannel (s : State) (m : Nat) : State :=
  let mine := fun (pa : Nat) => decide (pa < s.top) && s.chanOf pa == m
  { s with mem := s.mem.keep (fun a _ => !mine a), dmg := s.dmg.keep (fun ln _ => !mine (128 * ln)) }

/-- Enter DEPOT: the PMC leaves reset. -/
def State.enterDepot (s : State) (cause : Nat) : State := (s.arriveMode MD.depot cause 0).pmcStart

/-- MEMORY_FILL_DONE (09 R274, 16 R398): every channel being filled holds zeros; with every populated channel ready the
package enters DEPOT. -/
def execMemoryFillDone (s : State) : Out :=
  if s.mode != MD.morning || s.populated.isEmpty || s.populated.any (fun m =>
      let st := s.rd (Reg.MCH_STATUS m) F.MCH_STATUS_STATE; st != 2 && st != 3) then .next s
  else
    let filling := below 16 (fun m => s.rd (Reg.MCH_STATUS m) F.MCH_STATUS_STATE == 2)
    let s := filling.foldl (fun s m => (s.zeroChannel m).wr (Reg.MCH_STATUS m) F.MCH_STATUS_STATE 3) s
    .next ((s.pk (fun p => { p with lost := [] })).enterDepot 1)

/-! ### DEPOT -/

/-- Copy a monitor body to the monitor region. -/
def State.copyBody (s : State) (l : List Byte) : State :=
  let base := s.resetVector
  { s.setBytes base l with dmg := s.dmg.keep (fun ln _ => !(decide (base / 128 ≤ ln) && decide (ln ≤ (base + l.length) / 128))) }

/-- Enable a Finxis port for the monitor, as the boot ROM does in attached role (17 R431): it goes to DETECT (08 R236). -/
def State.bootFinxis (s : State) (p : Nat) : State :=
  (if s.fxState p = 0 then s.fxDetect p else s).wrs (Reg.FX_CFG p) [(F.FX_CFG_EN, 1), (F.FX_CFG_PID, 0), (F.FX_CFG_WORLD, 1)]

/-- Enable every Finxis port so. -/
def State.bootPorts (s : State) : State := s.forAll 4 (fun p s => s.bootFinxis p)

/-- What authentication does once after a cold load: the options take effect, and in attached role the Finxis ports are set up. -/
def State.bootCold (s : State) : State :=
  if s.pkg.coldLoad then
    let s := s.applyOptions
    let s := if s.attached then s.bootPorts else s
    s.pk (fun p => { p with coldLoad := false })
  else s

/-- BOOT_AUTHENTICATION (20 R492, R495, 17 R429): the PMC image and the monitor image are checked; the monitor body is
copied to MON_BASE and its digest recorded, the options applied; on the way out of MIDNIGHT the body in DRAM is checked
against the recorded digest instead. A failure sends the package to SIDING with cause 0x06. -/
def execBootAuthentication (s : State) : Out :=
  if s.mode != MD.depot || s.pkg.authed then .next s
  else
    let ps := s.activeSlot 1
    let pr := s.imgCheck 1 ps
    let s := s.logFw7 1 ps pr 6
    let s := if pr = 0 then s.putInForce 1 ps else s.romFallback
    let ms := s.activeSlot 2
    if s.pkg.midWake then
      let body := s.memBytes s.resetVector (s.imgBody 2 ms).length
      let ok := Config.sha384 body == s.mramAt 0x1018 48
      let s := s.logFw7 2 ms (if ok then 0 else 5) 6
      if pr = 0 ∧ ok then .next (s.pk (fun p => { p with authed := true }))
      else .next ((s.enterSiding 6 0).pk (fun p => { p with midWake := false }))
    else
      let mr := s.imgCheck 2 ms
      let s := s.logFw7 2 ms mr 6
      let region := s.regionOk s.resetVector (le8 s.coldOpt 40)
      let s := s.bootCold
      if pr = 0 ∧ mr = 0 ∧ region then
        let body := s.imgBody 2 ms
        let s := ((s.copyBody body).setMram 0x1018 (sliceB (s.imgHeader 2 ms) 32 48)).putInForce 2 ms
        .next (s.pk (fun p => { p with authed := true }))
      else .next ((s.enterSiding 6 0))

/-- Feature level of a compute die's stepping (01 R27); 0 for a stepping the revision matrix does not name. -/
def cdLevel (step : Nat) : Nat := if step = 1 then 1 else if step = 0x10 then 2 else 0

/-- Feature level of the I/O die's stepping (01 R27). -/
def iodLevel (step : Nat) : Nat := if step = 0 then 1 else if step = 1 then 2 else 0

/-- Whether admitting a die would lower the package feature level that is in force (01 R29). -/
def State.lowersLevel (s : State) (x : DieSite) : Bool :=
  s.on Reg.PKG_FEATURE F.PKG_FEATURE_VALID && decide (cdLevel x.stepping < s.rd Reg.PKG_FEATURE F.PKG_FEATURE_LEVEL)

/-- STATE of a die site after self-test (01 R16, R28, R30, 17 R433). The mask is judged first, then the strap fault, then the
revision (notes/assumptions/92.md); with an I/O die of an unsupported stepping every compute die offends
(notes/assumptions/93.md). A die that would lower the level in force, one newly unmasked or one that failed an earlier
self-test, shows 0x2 (01 R29; DEDUCED, notes/assumptions/94.md). -/
def State.siteState (s : State) (fails : List (Fin 12)) (d : Nat) : Nat :=
  let iod := s.rd Reg.PKG_REV F.PKG_REV_IOD_STEP
  match Tab.get none s.pkg.dies d with
  | none => 0
  | some x =>
    if bitAt (leAt s.coldOpt 10 2) d then 2
    else if s.strapFault d then 4
    else if cdLevel x.stepping = 0 ∨ iodLevel iod = 0 ∨ (iod = 0 ∧ x.stepping = 0x10) then 5
    else if s.lowersLevel x then 2
    else if fails.any (fun f => f.val == d) ∨ s.pkg.ndm == some (3, d) then 3
    else 1

/-- Whether a site's STATE after self-test is one the boot logs: a failed die, or one refused and kept masked (01 R29). -/
def State.siteLogged (s : State) (st d : Nat) : Bool := st == 3 || (st == 2 && !bitAt (leAt s.coldOpt 10 2) d)

/-- Self-test decides a die site: its STEPPING, FEATURE_LEVEL and STATE; a failed or refused die is logged. -/
def State.siteTested (s : State) (fails : List (Fin 12)) (d : Nat) : State :=
  let st := s.siteState fails d
  let s := match Tab.get none s.pkg.dies d with
    | some x => s.wrs (Reg.PKG_DIE_INFO d) [(F.PKG_DIE_INFO_STEPPING, x.stepping),
        (F.PKG_DIE_INFO_FEATURE_LEVEL, cdLevel x.stepping)]
    | none => s
  let s := if s.siteLogged st d then s.pk (fun p => { p with ldrLog := p.ldrLog ++ [0x100 + d] }) else s
  s.setDieState d st

/-- PKG_REV takes the lowest and highest stepping among the dies present (01 R25); a masked die counts as present, since STATE
0x0 alone says that a die is absent (notes/assumptions/95.md). -/
def State.showSteps (s : State) : State :=
  let present := below 12 (fun d => s.dieState d != 0)
  let steps := present.map (fun d => s.rd (Reg.PKG_DIE_INFO d) F.PKG_DIE_INFO_STEPPING)
  s.wrs Reg.PKG_REV [(F.PKG_REV_CD_STEP_MIN, steps.foldl min 255 % 255), (F.PKG_REV_CD_STEP_MAX, steps.foldl max 0)]

/-- The feature level of the I/O die and the active dies (01 R27). -/
def State.minLevel (s : State) : Nat :=
  (below 12 (fun d => s.dieState d == 1)).foldl (fun a d => min a (s.rd (Reg.PKG_DIE_INFO d) F.PKG_DIE_INFO_FEATURE_LEVEL))
    (iodLevel (s.rd Reg.PKG_REV F.PKG_REV_IOD_STEP))

/-- Whether a site has a strap fault or an unsupported revision, or the I/O die is of an unsupported one (01 R16, R28). -/
def State.pairingBad (s : State) : Bool :=
  (List.range 12).any (fun d => s.dieState d == 4 || s.dieState d == 5) || iodLevel (s.rd Reg.PKG_REV F.PKG_REV_IOD_STEP) == 0

/-- The feature level is computed once and stays while the package stays out of DARK (01 R29). -/
def State.setLevel (s : State) : State :=
  if s.on Reg.PKG_FEATURE F.PKG_FEATURE_VALID then s
  else s.wrs Reg.PKG_FEATURE [(F.PKG_FEATURE_VALID, 1), (F.PKG_FEATURE_LEVEL, s.minLevel)]

/-- A cluster that a debug reset still holds at self-test is recorded as failing it (17 R419): it is fenced, and returns by 16
R410. -/
def State.heldCluster (s : State) : State :=
  match s.pkg.ndm with
  | some (2, c) =>
    ((s.fence (nthD clusterStops c 0) [2, 3] true).pk (fun p => { p with ldrLog := p.ldrLog ++ [0x500 + c] })).wr
      (Reg.PWR_UNIT c) F.PWR_UNIT_STATE 5 |>.wr (Reg.PWR_UNIT (36 + c)) F.PWR_UNIT_STATE 5
  | _ => s

/-- SELF_TEST_DONE (17 R433, 01 R16, R27, R28): the die sites take their STATE; the package is held in DEPOT with cause
0x07 for a strap fault or an unsupported revision, with cause 0x08 when the I/O die or base failed, and with no active
die; otherwise the feature level is computed (01 R29). -/
def execSelfTestDone (fails : List (Fin 12)) (iodBase : Bool) (s : State) : Out :=
  if s.mode != MD.depot then .next s
  else
    let s := ((s.forAll 12 (fun d s => s.siteTested fails d)).showSteps).heldCluster
    if !iodBase then .next (s.wr Reg.PKG_MODE F.PKG_MODE_CAUSE 8)
    else if s.pairingBad then .next (s.wr Reg.PKG_MODE F.PKG_MODE_CAUSE 7)
    else if (below 12 (fun d => s.dieState d == 1)).isEmpty then .next s
    else .next (s.setLevel.pk (fun p => { p with selfTest := true }))

/-- Whether a cluster is of an active die and not fenced. -/
def State.clusterIn (s : State) (c : Nat) : Bool := s.dieActive (c / 3) && !s.fenced (nthD clusterStops c 0) 2

/-- MAINLINE_ENTRY (16 R398, 17 R430, 18 R454): with firmware authenticated, the feature level valid and self-test
passed, the harts of active dies start at the reset vector; on the way out of MIDNIGHT the save list is restored first,
doorbell lines are read again and every Finxis window is released. -/
def execMainlineEntry (s : State) : Out :=
  if s.mode = MD.depot ∧ s.pkg.authed ∧ s.pkg.selfTest ∧ s.on Reg.PKG_FEATURE F.PKG_FEATURE_VALID ∧
      s.rdW Reg.PKG_DIE_ACTIVE ≠ 0 then
    let mid := s.pkg.midWake
    let s := if mid then
        let s := s.restoreAll.wr Reg.PWR_SAVE F.PWR_SAVE_VALID 0
        ((s.pk (fun p => { p with save := none, midWake := false, wakeHeld := false })).rereadDoorbells).dropWindows.finxisLow false
      else s
    let s := s.forAll 36 (fun c s =>
      let v := if s.clusterIn c then 0 else 5
      (s.wr (Reg.PWR_UNIT c) F.PWR_UNIT_STATE v).wr (Reg.PWR_UNIT (36 + c)) F.PWR_UNIT_STATE v)
    let s := s.pk (fun p => { p with held := p.held.filter (fun d => match d with
      | .die d => !(s.dieActive d && s.dieClocks d)
      | .clu c => !(s.clusterIn c && s.dieClocks (c / 3))
      | _ => true) })
    let s := (s.activeHarts.filter (fun h => s.clusterIn (h / 6) && s.dieClocks (h / 18))).foldl (fun s h => s.startHart h) s
    .next (s.arriveMode MD.mainline (if mid then 3 else 1) 0)
  else .next s

/-! ### Debug resets and the watchdog -/

/-- NDMRESET (17 R423): the debug module sets or clears ndmreset; set, it resets with the reach of RCC_DBG_RST while the
invasive enables it needs are in force, and the source stays asserted while the bit is held. The reserved reach code
acts on nothing. -/
def execNdmreset (on pulse : Bool) (s : State) : Out :=
  if !on then .next (s.pk (fun p => { p with ndm := none }))
  else
    let reach := s.rd Reg.RCC_DBG_RST F.RCC_DBG_RST_NDM_REACH
    let idx := s.rd Reg.RCC_DBG_RST F.RCC_DBG_RST_NDM_INDEX
    if reach = 0 then
      if s.invasive .s ∧ s.invasive .n then
        .next ((s.pk (fun p => { p with ndm := some (0, 0) })).warmSource F.RCC_RST_CAUSE_DEBUG pulse)
      else .next s
    else if reach = 1 then
      if idx < 12 ∧ s.dieActive idx ∧ s.invasive (s.ownerOf (dieUnits idx)) then
        let s := s.wr Reg.RCC_RST_CAUSE F.RCC_RST_CAUSE_DEBUG 1
        let s := (List.range 18).foldl (fun s k => s.hartCause (18 * idx + k) 6) s
        .next ((s.loseDie idx false).pk (fun p => { p with ndm := some (3, idx) }))
      else .next s
    else if reach = 2 then
      if idx < 36 ∧ s.dieActive (idx / 3) ∧ s.invasive (s.ownerOf [idx]) then
        let s := s.wr Reg.RCC_RST_CAUSE F.RCC_RST_CAUSE_DEBUG 1
        let s := (List.range 6).foldl (fun s k => (s.hartCause (6 * idx + k) 6).hartCause (6 * idx + k) 3) s
        let s := s.wrW Reg.RCC_RST_UNITS (s.rdW Reg.RCC_RST_UNITS ||| BitVec.ofNat 64 (2 ^ idx))
        .next (((s.recordReach 5).fenceCluster idx).pk (fun p => { p with ndm := some (2, idx) }))
      else .next s
    else .next s

/-- HARTRESET (17 R423): the selected harts are reset with core reach, each only while the invasive enable of its
cluster's owner world is in force; they stay in reset while the debug module holds the bit, and leave it then where a hart may run. -/
def execHartreset (harts : List (Fin 216)) (on : Bool) (s : State) : Out :=
  if on then
    .next (harts.foldl (fun (s : State) (h : Fin 216) =>
      if s.invasive (s.ownerOf [h.val / 6]) && s.dieActive (h.val / 18) then
        let s := s.pk (fun p => { p with hartRst := (h.val :: p.hartRst).eraseDups })
        s.coreReset h 6
      else s) s)
  else
    .next (harts.foldl (fun (s : State) (h : Fin 216) =>
      if s.pkg.hartRst.contains h.val then
        let s := s.pk (fun p => { p with hartRst := p.hartRst.filter (· != h.val) })
        if s.hartMayRun h then s.setHart h { s.hart h with held := false } else s
      else s) s)

/-- Whether the package watchdog counts (17 R424). -/
def State.wdogRuns (s : State) : Bool :=
  s.on Reg.RCC_WDOG F.RCC_WDOG_EN && !([MD.dark, MD.dusk, MD.night, MD.midnight].contains s.mode) &&
    !s.harts.any (fun e => e.2.halted)

/-- WATCHDOG_HALF (17 R424): the watchdog event. -/
def execWatchdogHalf (s : State) : Out :=
  if s.wdogRuns && !s.pkg.wdogHalf then .next ((s.raise 386).pk (fun p => { p with wdogHalf := true })) else .next s

/-- WATCHDOG_TIMEOUT (17 R424): a warm-reach reset. -/
def execWatchdogTimeout (pulse : Bool) (s : State) : Out :=
  if s.wdogRuns && s.pkg.wdogHalf then .next (s.warmSource F.RCC_RST_CAUSE_WDOG pulse) else .next s

end Sys2Proof.Machine
end

