-- ==== Sys2Proof/Machine/PowerCmds.lean ====
section
/-! DEFINITION. Modes in operation, dies lost and returned, thermal protection, budgets, power requests, low power and wake
(16, 18). -/

namespace Sys2Proof.Machine
open Sys2Proof

/-! ### Submitting orders and requests -/

/-- Bit p of ISO_RACC{k} (14 R372). -/
def State.racc (s : State) (k p : Nat) : Bool := p != 0 && bitAt (s.rdW (Reg.ISO_RACC k)).toNat p

/-- Whether an identity reaches request register m of a pair whose group is k (16 R397, 17 R422, 18 R448): register 0 the
monitor only, register 1 identities of world N granted the group, and RCC_RST_REQ{1}, of which no rule says that any other
access is refused, the monitor too (14 R372); register 1 nobody in attached role (17 R431). -/
def State.reqReach (s : State) (k m : Nat) (who : Ident) : Bool :=
  if m = 0 then who == monitor
  else !s.attached && ((k == 0 && who == monitor) || (who.world == .n && s.pidWorld who.pid == .n && s.racc k who.pid))

/-- Refuse a register access (14 R372): an error response, recorded with KIND 0b001. -/
def State.refuseReg (s : State) (who : Ident) (off : Nat) : State := (s.viol 1 who (windowBase + off)).answer .error

/-- MODE_ORDER_SUBMIT (16 R397): a write of GO with a TARGET. -/
def execModeOrderSubmit (m : Fin 2) (who : Ident) (target : Nat) (s : State) : Out :=
  let o := Reg.PKG_MODE_REQ m
  if !s.reqReach 1 m who then .next (s.refuseReg who o)
  else if s.rd o F.PKG_MODE_REQ_STATUS = OS.pending then .next (s.answer (.ok 0))
  else
    let s := s.wrs o [(F.PKG_MODE_REQ_GO, 1), (F.PKG_MODE_REQ_STATUS, OS.pending), (F.PKG_MODE_REQ_TARGET, target)]
    .next ((s.submitMode ⟨2 + m, who, target % 16⟩).answer (.ok 0))

/-- Submit a power request of a source (18 R448). -/
def State.powerFrom (s : State) (src : PowerSrc) (code unit value : Nat) : State :=
  match src with
  | .reg m who =>
    let o := Reg.PWR_REQ m
    if !s.reqReach 1 m who then s.refuseReg who o
    else if s.rd o F.PWR_REQ_STATUS = OS.pending then s.answer (.ok 0)
    else
      let s := s.wrs o [(F.PWR_REQ_GO, 1), (F.PWR_REQ_STATUS, OS.pending), (F.PWR_REQ_CODE, code),
        (F.PWR_REQ_UNIT, unit), (F.PWR_REQ_VALUE, value)]
      (s.submitPower ⟨2 + m, who, code, unit % 128, value % 65536⟩).answer (.ok 0)
  | .sideband => s.submitPower ⟨1, monitor, code, unit, value⟩
  | .finxis p =>
    s.submitPower ⟨4 + p, ⟨s.rd (Reg.FX_CFG p) F.FX_CFG_PID, worldOf (s.rd (Reg.FX_CFG p) F.FX_CFG_WORLD)⟩, code, unit, value⟩

/-- SET_TDP (18 R448): asks for a package TDP. -/
def execSetTdp (src : PowerSrc) (unit value : Nat) (s : State) : Out := .next (s.powerFrom src 1 unit value)
/-- CAP_CCLK (18 R448): asks for a cap on a die's divider code, 0 for none. -/
def execCapCclk (src : PowerSrc) (unit value : Nat) (s : State) : Out := .next (s.powerFrom src 2 unit value)
/-- GATE (18 R448, R451): asks to stop a unit's clocks. -/
def execGate (src : PowerSrc) (unit value : Nat) (s : State) : Out := .next (s.powerFrom src 3 unit value)
/-- UNGATE (18 R448, R451): asks to restore a unit's clocks. -/
def execUngate (src : PowerSrc) (unit value : Nat) (s : State) : Out := .next (s.powerFrom src 4 unit value)
/-- POWER_OFF (18 R448, R450): asks to power a unit down. -/
def execPowerOff (src : PowerSrc) (unit value : Nat) (s : State) : Out := .next (s.powerFrom src 5 unit value)
/-- POWER_ON (18 R448, R450): asks to power a unit up. -/
def execPowerOn (src : PowerSrc) (unit value : Nat) (s : State) : Out := .next (s.powerFrom src 6 unit value)
/-- MEM_IDLE (18 R448): asks for, or ends, self-refresh of an idle channel. -/
def execMemIdle (src : PowerSrc) (unit value : Nat) (s : State) : Out := .next (s.powerFrom src 7 unit value)

/-- A unit reset request through RCC_RST_REQ{m} (17 R422). -/
def State.resetFrom (s : State) (m : Fin 2) (who : Ident) (kind index : Nat) : State :=
  let o := Reg.RCC_RST_REQ m
  if !s.reqReach 0 m who then s.refuseReg who o
  else if s.rd o F.RCC_RST_REQ_STATUS = OS.pending then s.answer (.ok 0)
  else
    let s := s.wrs o [(F.RCC_RST_REQ_GO, 1), (F.RCC_RST_REQ_STATUS, OS.pending), (F.RCC_RST_REQ_KIND, kind),
      (F.RCC_RST_REQ_INDEX, index)]
    (s.submitReset m who kind (index % 256)).answer (.ok 0)

/-- CORE_RESET_REQ (17 R422). -/
def execCoreResetReq (m : Fin 2) (who : Ident) (index : Nat) (s : State) : Out := .next (s.resetFrom m who 1 index)
/-- CLUSTER_RESET_REQ (17 R422). -/
def execClusterResetReq (m : Fin 2) (who : Ident) (index : Nat) (s : State) : Out := .next (s.resetFrom m who 2 index)
/-- DIE_RESET_REQ (17 R422). -/
def execDieResetReq (m : Fin 2) (who : Ident) (index : Nat) (s : State) : Out := .next (s.resetFrom m who 3 index)

/-- CLUSTER_RESET_DRAINED (17 R422): a cluster being reset reports DRAINED; its domains are reset, its arrays initialised,
and the request completes DONE. -/
def execClusterResetDrained (c : Fin 36) (s : State) : Out :=
  match s.pkg.rsts.find? (fun r => r.2 == (2, c.val)) with
  | none => .next s
  | some r =>
    if !s.clusterDrained c then .next s
    else
      let s := s.fence (nthD clusterStops c 0) [2, 3] true
      let s := (s.loseCluster c).resetSliceRegs c
      let s := (List.range 6).foldl (fun s k => s.hartCause (6 * c + k) 3) s
      let s := (s.wrW Reg.RCC_RST_UNITS (s.rdW Reg.RCC_RST_UNITS ||| BitVec.ofNat 64 (2 ^ c.val))).recordReach 5
      let s := (s.wr (Reg.PWR_UNIT c) F.PWR_UNIT_STATE 5).wr (Reg.PWR_UNIT (36 + c)) F.PWR_UNIT_STATE 5
      let s := s.pk (fun p => { p with rsts := p.rsts.filter (fun x => x != r) })
      .next (s.endReset r.1 OS.done)

/-! ### Modes -/

/-- MODE_DECISION (16 R406, R407, 18 R449). -/
def execModeDecision (s : State) : Out := .next s.arbitrate

/-- Gate every compute die's clusters and slices, or ungate those DUSK gated (18 R451). -/
def State.duskGate (s : State) (on : Bool) : State :=
  if on then
    let us := below 72 (fun u => s.unitState u == 0)
    (us.foldl (fun s u => s.wr (Reg.PWR_UNIT u) F.PWR_UNIT_STATE 1) s).pk (fun p => { p with duskGated := us })
  else
    (s.pkg.duskGated.foldl (fun s u => if s.unitState u = 1 then s.wr (Reg.PWR_UNIT u) F.PWR_UNIT_STATE 0 else s) s).pk
      (fun p => { p with duskGated := [] })

/-- The waiting order for a low-power target. -/
def State.lowFor (s : State) (t : Nat) : Option LowWait := s.pkg.lows.find? (fun l => l.target == t)

/-- The SRC code of a waiting order: the best rank of those that asked. -/
def LowWait.src (l : LowWait) : Nat := l.srcs.foldl min 15

/-- DUSK_ENTRY (16 R398, R399): CCLK and ECLK are gated on every compute die. -/
def execDuskEntry (s : State) : Out :=
  match s.lowFor MD.dusk with
  | some l =>
    if s.mode = MD.mainline ∧ !s.moving ∧ s.lowReady MD.dusk then
      .next ((s.duskGate true).beginMove MD.dusk 2 l.src)
    else .next s
  | none => .next s

/-- NIGHT_ENTRY (16 R398, R399, 18 R454): the save list is written, the dies powered down, DRAM put in self-refresh and
the links in LOW and L1. -/
def execNightEntry (s : State) : Out :=
  match s.lowFor MD.night with
  | some l =>
    if (s.mode = MD.mainline ∨ s.mode = MD.dusk) ∧ !s.moving ∧ s.lowReady MD.night then
      let s := (s.duskGate false).writeSave.nightDies
      let s := (below 36 (fun c => s.dieActive (c / 3))).foldl (fun s c => s.resetSliceRegs c) s
      let s := s.holding.foldl (fun s m => s.selfRefresh m) s
      let s := (s.finxisLow true).linksL1 true
      .next (s.beginMove MD.night 2 l.src)
    else .next s
  | none => .next s

/-- LOW_POWER_ENTRY_TIMEOUT (16 R399): the waiting order for a target completes REFUSED. -/
def execLowPowerEntryTimeout (target : Nat) (s : State) : Out :=
  match s.lowFor target with
  | some l =>
    if s.moving then .next s
    else
      let s := l.srcs.foldl (fun s c => s.endMode c OS.refused) s
      .next (s.pk (fun p => { p with lows := p.lows.filter (fun x => x != l) }))
  | none => .next s

/-- Whether a hart's interrupt file holds a pending interrupt (16 *Mode transitions*, DUSK to MAINLINE). -/
def State.anyPending (s : State) : Bool := s.imsic.any (fun e => e.2)

/-- DUSK_WAKE (16 R398): an interrupt pending at any hart's file, a doorbell invalidation or a VL 0 Finxis packet returns
the package to MAINLINE. -/
def execDuskWake (packet : Bool) (s : State) : Out :=
  if s.mode = MD.dusk ∧ !s.moving ∧ (packet ∨ s.anyPending ∨ !s.dbInval.isEmpty) then
    .next ((s.duskGate false).arriveMode MD.mainline 3 0)
  else .next s

/-- Sample the level wake sources after the handover at the end of an entry (18 R456). -/
def State.sampleWake (s : State) : State :=
  let s := (List.range 5).foldl (fun s b => if bitAt s.pkg.wakeLow b then s.fireWake b else s) s
  if s.rdW Reg.PWR_RTC_ALARM != 0 && decide ((s.rdW Reg.PWR_RTC_ALARM).toNat ≤ (s.rdW Reg.PWR_RTC).toNat) then
    s.fireWake 5 else s

/-- The I/O die and the base lose power in MIDNIGHT: all but AON, the AOM and DRAM in self-refresh. -/
def State.ioOff (s : State) : State :=
  let s0 := s
  let s := s.holding.foldl (fun s m => s.selfRefresh m) s
  let keep := fun (k : Nat) => aonKeeps k || pkgKeeps k || k == Reg.PWR_SAVE ||
    (0x20000000 ≤ k && k < 0x28000000 && k % 0x100000 == 0) || k == Reg.MEM_MAP
  let s := s0.portsOff ((s.resetRegs (fun k => !keep k)).resetUnits.resetPmc.dropOrders)
  let s := s.wrs Reg.RCC_CLK_STATUS [(F.RCC_CLK_STATUS_REF_GOOD, 0), (F.RCC_CLK_STATUS_PLL_LOCK, 0),
    (F.RCC_CLK_STATUS_FCLK_GOOD, 0), (F.RCC_CLK_STATUS_ECLK_GOOD, 0), (F.RCC_CLK_STATUS_MCLK_GOOD, 0),
    (F.RCC_CLK_STATUS_SCLK_GOOD, 0)]
  s.pk (fun p => { p with mainEn := false, supplies := false, good := [], selfTest := false, authed := false,
                          held := allDomains })

/-- MODE_TRANSITION_DONE (16 R398): MOVING clears and the target becomes current; the orders that asked for it complete
DONE; in NIGHT and MIDNIGHT the level wake sources are sampled. -/
def execModeTransitionDone (s : State) : Out :=
  if !s.moving then .next s
  else
    let t := s.rd Reg.PKG_MODE F.PKG_MODE_TARGET
    let s := if t = MD.mainline then s.duskGate false else s
    let s := s.arriveMode t s.pkg.moveCause s.pkg.moveSrc
    let done := s.pkg.lows.filter (fun l => l.target == t)
    let s := done.foldl (fun s l => l.srcs.foldl (fun s c => s.endMode c OS.done) s) s
    let s := s.pk (fun p => { p with lows := p.lows.filter (fun l => l.target != t) })
    let s := if t = MD.midnight then s.ioOff else s
    if t = MD.night ∨ t = MD.midnight then .next s.sampleWake else .next s

/-- NIGHT_WAKE (18 R454, 16 R398): a wake source, or the PMC's order (18 R455), powers the dies, restores their registers, brings back DRAM and the links,
and the harts start at the reset vector in MAINLINE. -/
def execNightWake (s : State) : Out :=
  if s.mode = MD.night ∧ !s.moving ∧ s.pkg.wakeHeld then
    let s := s.wakeDies 8
    let s := s.restoreSave (fun k => decide (0x30000000 ≤ k) && decide (k < 0x40000000))
    let s := s.wr Reg.PWR_SAVE F.PWR_SAVE_VALID 0
    let s := (s.leaveSr.finxisLow false).linksL1 false
    let by_ := s.pkg.wakeSrc
    let s := s.pk (fun p => { p with wakeHeld := false, wakeSrc := 0, save := none })
    .next (s.arriveMode MD.mainline (if by_ = 0 then 3 else 2) by_)
  else .next s

/-- MIDNIGHT_WAKE (18 R454, R455, 22 R510): a wake source asserts PWR_MAIN_EN, and the package restarts through DAWN,
MORNING and DEPOT; held while sensor 96 is at 115 degrees or above (17 R417). -/
def execMidnightWake (s : State) : Out :=
  if s.mode = MD.midnight ∧ !s.moving ∧ s.pkg.wakeHeld ∧ s.sensor 96 < 1840 then
    .next (s.pk (fun p => { p with mainEn := true, midWake := true, wakeHeld := false, loaded := true, reach := 3 }))
  else .next s

/-! ### Dies -/

/-- DIE_LOSS (16 R408, R409). -/
def execDieLoss (d : Fin 12) (why : DieCause) (s : State) : Out :=
  if s.dieActive d then .next (s.loseDie d (why == .clock)) else .next s

/-- DIE_READMIT (16 R411, 01 R29): the PMC powers a fenced die, or in WORKSHOP a masked one, which latches its straps and
runs self-test; a die that fails, or whose feature level is below the package's, is refused. The monitor's commit makes a
fenced die active; a masked die is admitted at the restart that leaves WORKSHOP. -/
def execDieReadmit (d : Fin 12) (site : Option DieSite) (pass : Bool) (s : State) : Out :=
  let st := s.dieState d
  if !(st = 3 ∨ (st = 2 ∧ s.mode = MD.workshop)) then .next s
  else match site with
    | none => .next s
    | some x =>
      let s := s.pk (fun p => { p with dies := Tab.put none p.dies d (some x), readied := p.readied.filter (· != d.val) })
      let s := s.wrs (Reg.PKG_DIE_INFO d) [(F.PKG_DIE_INFO_POSITION, x.position),
        (F.PKG_DIE_INFO_ORIENTATION, x.orientation), (F.PKG_DIE_INFO_STEPPING, x.stepping),
        (F.PKG_DIE_INFO_FEATURE_LEVEL, cdLevel x.stepping)]
      if !pass ∨ s.strapFault d ∨ s.lowersLevel x ∨ cdLevel x.stepping = 0 then
        .next (s.pk (fun p => { p with ldrLog := p.ldrLog ++ [0x100 + d.val] }))
      else .next (s.pk (fun p => { p with readied := d.val :: p.readied }))

/-! ### Thermal protection (17 R416, R417, 18 R446, 20 R479 to R481) -/

/-- Record the trip in PMC_TRIP, or MORE, and log it (20 R481). -/
def State.fillTrip (s : State) (n : Nat) (temp : Int) : State :=
  let o := Reg.PMC_TRIP
  let s := if s.on o F.PMC_TRIP_VALID then s.wr o F.PMC_TRIP_MORE 1
    else s.wrs o [(F.PMC_TRIP_VALID, 1), (F.PMC_TRIP_SENSOR, n), (F.PMC_TRIP_TEMP, ofSigned 16 temp),
      (F.PMC_TRIP_TIME, (s.rdW Reg.PWR_RTC).toNat / 2 ^ 15)]
  s.log 3 (s.regBytes o)

/-- The trip's reset as a cause (17 R425). -/
def State.tripCause (s : State) : State :=
  let s := (s.wr Reg.RCC_RST_CAUSE F.RCC_RST_CAUSE_THERM 1).recordReach 3
  s.forAll 216 (fun h s => s.hartCause h 1)

/-- What the trip does in a mode (17 *Thermal trip by mode*). -/
def State.tripIn (s : State) (m : Nat) : State :=
  if m == MD.dawn || m == MD.morning then
    ((s.tripCause.stopUnits.pk (fun p => { p with thermMode := true })).enterSiding 9 0).pmcStart
  else if [MD.depot, MD.mainline, MD.dusk, MD.night, MD.workshop].contains m then
    (s.tripCause.pk (fun p => { p with thermMode := true })).enterCaution 9 0
  else if m == MD.siding then s.tripCause.stopUnits
  else s

/-- THERMAL_TRIP (17 R416, R417, 20 R481): a sensor's comparator reaches 132 degrees. No sensor is powered in DARK. -/
def execThermalTrip (n : Fin 148) (temp : Int) (s : State) : Out :=
  if s.mode = MD.dark then .next s
  else
    let s := { s with pmc := { s.pmc with sens := Tab.put 0 s.pmc.sens n temp } }
    let s := (s.fillTrip n temp).pk (fun p => { p with thermLow := true })
    .next (s.tripIn s.mode)

/-- WARN and COLD thresholds of a sensor (20 R480). -/
def State.limitsOf (s : State) (n : Nat) : Int × Int := Tab.get (1760, -720) s.pmc.limits n

/-- Report the WARN and COLD crossings between two scans to the sideband (20 R480): event 1 and 2 the WARN threshold
upwards and downwards, 3 and 4 the COLD threshold downwards and upwards (notes/assumptions/24.md). -/
def State.crossings (s old : State) : State :=
  allSensors.foldl (fun s n =>
    let a := old.sensor n
    let b := s.sensor n
    let (w, c) := s.limitsOf n
    let s := if a < w ∧ w ≤ b then s.send (.sideband n 1) else if w ≤ a ∧ b < w then s.send (.sideband n 2) else s
    if c < a ∧ b ≤ c then s.send (.sideband n 3) else if a ≤ c ∧ c < b then s.send (.sideband n 4) else s) s

/-- Sensors of the I/O die and the base (20 R479). -/
def baseSensors : List Nat := (List.range 52).map (· + 96)

/-- Whether the slices issue on alternate cycles now (18 R446). -/
def State.setAlt (s : State) : State := s.pk (fun p => { p with altIssue := s.anyAt baseSensors 120 })

/-- SENSOR_SCAN (20 R479, R480): new readings; WARN and COLD crossings are reported; THERMTRIP# goes high where the trip
changed no mode and every sensor reads below 115 degrees (17 R417), and a restart that a committed update makes from SIDING is then
made. -/
def execSensorScan (temps : List Int) (s : State) : Out :=
  if s.pkg.held.contains .sens then .next s
  else
    let s' := (s.readSensors temps).crossings s
    let s' := s'.setAlt
    if s'.pkg.restartDue && s'.mode == MD.siding && !s'.anyAt allSensors 115 then
      .next ((s'.pk (fun p => { p with restartDue := false })).coldReset 0xB 0)
    else if s'.pkg.thermLow && !s'.pkg.thermMode && !s'.anyAt allSensors 115 then
      .next (s'.pk (fun p => { p with thermLow := false }))
    else .next s'

/-! ### Operating points (18 R439 to R446) -/

/-- Step a die one code slower. -/
def State.slower (s : State) (d : Nat) : State := s.aimCode d (min 7 (s.rd (Reg.RCC_CCLK d) F.RCC_CCLK_CURRENT + 1))

/-- The sensors that act on a die: its own and those of the I/O die and the base (18 R446). -/
def dieSensors (d : Nat) : List Nat := (List.range 8).map (· + 8 * d) ++ baseSensors

/-- THROTTLE_STEP (18 R446): dies with a sensor at or above 120 degrees step one code slower; the throttling event is
raised for a die that begins. -/
def execThrottleStep (s : State) : Out :=
  let ds := below 12 (fun d => s.dieActive d && s.anyAt (dieSensors d) 120)
  .next ((ds.foldl (fun s d =>
    let t := s.rd (Reg.PWR_DIE d) F.PWR_DIE_THROTTLE
    let s := if t = 0 then s.raise 387 else s
    let c := min 7 ((if t = 0 then s.rd (Reg.RCC_CCLK d) F.RCC_CCLK_CURRENT else t) + 1)
    (s.wr (Reg.PWR_DIE d) F.PWR_DIE_THROTTLE c).retarget d) s).setAlt)

/-- THROTTLE_RELAX (18 R446): dies with every sensor concerned below 117 degrees relax by one code. -/
def execThrottleRelax (s : State) : Out :=
  let ds := below 12 (fun d => s.dieActive d && !s.anyAt (dieSensors d) 117)
  .next ((ds.foldl (fun s d =>
    let t := s.rd (Reg.PWR_DIE d) F.PWR_DIE_THROTTLE
    if t = 0 then s else (s.wr (Reg.PWR_DIE d) F.PWR_DIE_THROTTLE (t - 1)).retarget d) s).setAlt)

/-- Share the available power among dies by ascending demand, in quarter watts (18 R442). -/
def shareOut : Nat → Int → List (Nat × Nat) → Tab Nat
  | 0, _, _ => []
  | _ + 1, _, [] => []
  | f + 1, avail, (d, dem) :: t =>
    let n := t.length + 1
    if (dem : Int) * n ≤ avail then Tab.ins (shareOut f (avail - min dem 248) t) d (min dem 248)
    else ((d, dem) :: t).foldl (fun tb e => Tab.ins tb e.1 (min 248 (avail / n).toNat)) []

/-- BUDGET_ROUND (18 R442): a round closes; the figures of the last round are the uncore's, the package's and each die's,
in quarter watts. Grants go out to the active dies. -/
def execBudgetRound (uncore total : Nat) (meters : List Nat) (s : State) : Out :=
  let s := s.wrs Reg.PWR_PKG [(F.PWR_PKG_UNCORE_PWR, uncore), (F.PWR_PKG_PKG_PWR, total)]
  let act := below 12 s.dieActive
  let s := act.foldl (fun s d =>
    let dem := Tab.get (s.rd (Reg.PWR_DIE d) F.PWR_DIE_DEMAND) s.pkg.bids d
    s.wrs (Reg.PWR_DIE d) [(F.PWR_DIE_MEASURED, nthD meters d 0), (F.PWR_DIE_DEMAND, dem)]) s
  let dem := act.map (fun d => (d, s.rd (Reg.PWR_DIE d) F.PWR_DIE_DEMAND))
  let sorted := dem.mergeSort (fun a b => decide (a.2 ≤ b.2))
  let avail := 4 * (s.rd Reg.PWR_PKG F.PWR_PKG_TDP_W : Int) - uncore
  .next (s.pk (fun p => { p with bids := [], grants := shareOut 12 (max 0 avail) sorted }))

/-- BUDGET_BID (18 R443): a yield of at least 1 W lowers the grant at once; another bid counts in the next round. -/
def execBudgetBid (d : Fin 12) (demand : Nat) (s : State) : Out :=
  if !s.dieActive d then .next s
  else
    let g := s.rd (Reg.PWR_DIE d) F.PWR_DIE_GRANT
    if demand + 4 ≤ g then
      .next ((s.wrs (Reg.PWR_DIE d) [(F.PWR_DIE_GRANT, demand), (F.PWR_DIE_DEMAND, demand)]).pk
        (fun p => { p with bids := Tab.ins p.bids d demand }))
    else .next (s.pk (fun p => { p with bids := Tab.ins p.bids d demand }))

/-- BUDGET_GRANT (18 R443): a die receives its grant and moves to the fastest code that every limit permits. -/
def execBudgetGrant (d : Fin 12) (s : State) : Out :=
  match Tab.look s.pkg.grants d with
  | none => .next s
  | some g =>
    let s := (s.wr (Reg.PWR_DIE d) F.PWR_DIE_GRANT g).pk (fun p => { p with grants := Tab.del p.grants d })
    .next (s.retarget d)

/-- CCLK_DIVIDER_SWITCH (18 R439, R441): the divider switches to the target; the window that contains the switch is not
judged; wakes held by the turbo rule proceed once the code permits two busy clusters. -/
def execCclkDividerSwitch (d : Fin 12) (s : State) : Out :=
  let o := Reg.RCC_CCLK d
  if !s.on o F.RCC_CCLK_MOVING then .next s
  else
    let c := s.rd o F.RCC_CCLK_TARGET
    let s := s.wrs o [(F.RCC_CCLK_CURRENT, c), (F.RCC_CCLK_MOVING, 0)]
    if c = 0 then .next s
    else .next ((List.range 18).foldl (fun s k =>
      let h := s.hart (18 * d + k)
      if h.wakeHeld then s.setHart (18 * d + k) { h with wakeHeld := false } else s) s)

/-- DRAW_METER_CHECK (18 R443): a die whose mean draw over 10 us is above its grant steps one code slower. -/
def execDrawMeterCheck (d : Fin 12) (mean : Nat) (s : State) : Out :=
  if s.dieActive d && decide (s.rd (Reg.PWR_DIE d) F.PWR_DIE_GRANT < mean) then .next (s.slower d) else .next s

/-- PACKAGE_POWER_LIMIT (18 R444): while the 1 ms mean, in quarter watts, exceeds 850 W, and then until it falls below
840 W, every die steps one code slower. -/
def execPackagePowerLimit (mean : Nat) (s : State) : Out :=
  let act := s.on Reg.PWR_PKG F.PWR_PKG_LIMITING
  if 3400 < mean ∨ (act ∧ 3360 ≤ mean) then
    .next (((below 12 s.dieActive).foldl (fun s d => s.slower d) s).wr Reg.PWR_PKG F.PWR_PKG_LIMITING 1)
  else .next (s.wr Reg.PWR_PKG F.PWR_PKG_LIMITING 0)

/-! ### Units (18 R450) -/

/-- Whether every agent of a unit reads DRAINED. -/
def State.unitDrained (s : State) (u : Nat) : Bool :=
  let (t, ag) := unitAgents u
  ag.all (fun a => s.fenced t a && bitAt (s.rd (Reg.RTR_FENCE t) F.RTR_FENCE_DRAINED) a)

/-- UNIT_POWER_DOWN_DONE (18 R450): a fenced, drained unit loses its clocks and power and the request completes DONE. -/
def execUnitPowerDownDone (unit : Nat) (s : State) : Out :=
  match s.pkg.moves.find? (fun m => m.unit == unit && !m.up) with
  | none => .next s
  | some m =>
    if !s.unitDrained unit then .next s
    else
      let s := s.wr (Reg.PWR_UNIT unit) F.PWR_UNIT_STATE 3
      let s := if unit < 36 then s.loseCluster unit
        else if unit < 72 then s.resetSliceRegs (unit - 36)
        else if 88 ≤ unit ∧ unit < 102 then (List.range 8).foldl (fun s k => s.linkDown (8 * (unit - 88) + k)) s
        else if 102 ≤ unit ∧ unit < 106 then s.finxisDown (unit - 102) 0 else s
      let s := m.srcs.foldl (fun s c => s.endPower c OS.done) s
      .next (s.pk (fun p => { p with moves := p.moves.filter (fun x => x != m) }))

/-- UNIT_POWER_UP_DONE (18 R450): reset released and arrays initialised, the request completes DONE; the unit stays fenced
until the monitor's commit. -/
def execUnitPowerUpDone (unit : Nat) (s : State) : Out :=
  match s.pkg.moves.find? (fun m => m.unit == unit && m.up) with
  | none => .next s
  | some m =>
    let s := s.wr (Reg.PWR_UNIT unit) F.PWR_UNIT_STATE 5
    let s := m.srcs.foldl (fun s c => s.endPower c OS.done) s
    .next (s.pk (fun p => { p with moves := p.moves.filter (fun x => x != m) }))

/-- UNIT_DRAIN_TIMEOUT (18 R450, 19 R469): a unit being powered down is not DRAINED within 1 ms: a cluster or slice is
fenced as 16 R408 states, a PCIe/CXL port's links go down, a memory channel is fatal to the package. The request
completes REFUSED (notes/assumptions/25.md). -/
def execUnitDrainTimeout (unit : Nat) (s : State) : Out :=
  match s.pkg.moves.find? (fun m => m.unit == unit && !m.up) with
  | none => .next s
  | some m =>
    let s := m.srcs.foldl (fun s c => s.endPower c OS.refused) s
    let s := s.pk (fun p => { p with moves := p.moves.filter (fun x => x != m) })
    let err (s : State) (r : ErrRec) (cls : Nat) : State := s.recordErr r ⟨cls, noIdent, 6, false, 0, 0, 0⟩
    if unit < 72 then .next (err (s.fenceCluster (unit % 36)) (.slice (unit % 36) 5) 4)
    else if unit < 88 then .next ((err s (.pkg 3) 5).fatalPkg)
    else if unit < 102 then
      let s := s.wr (Reg.PWR_UNIT unit) F.PWR_UNIT_STATE 5
      .next ((List.range 8).foldl (fun s k => s.linkDown (8 * (unit - 88) + k)) s)
    else .next ((s.wr (Reg.PWR_UNIT unit) F.PWR_UNIT_STATE 5).finxisDown (unit - 102) 0)

/-- MEM_IDLE_SELF_REFRESH (18 R448): a ready channel with MEM_IDLE in force and nothing queued enters self-refresh. -/
def execMemIdleSelfRefresh (m : Fin 16) (s : State) : Out :=
  let idle := !(s.wq.any (fun w => s.paKind (128 * w.ln) == .dram && s.chanOf (128 * w.ln) == m.val))
  if s.on (Reg.PWR_UNIT (72 + m)) F.PWR_UNIT_IDLE_SR && s.rd (Reg.MCH_STATUS m) F.MCH_STATUS_STATE == 3 && idle then
    .next ((s.wr (Reg.MCH_STATUS m) F.MCH_STATUS_STATE 4).pk (fun p => { p with idleSr := (m.val :: p.idleSr).eraseDups }))
  else .next s

/-! ### Wake sources (18 R455 to R457) -/

/-- A level wake pin changes. -/
def State.wakePin (s : State) (b : Nat) (low : Bool) : State :=
  let s := s.pk (fun p => { p with wakeLow := setBits p.wakeLow b b (b2n low) })
  if low then s.fireWake b else s

/-- WAKE_PIN (18 R455). -/
def execWakePin (low : Bool) (s : State) : Out := .next (s.wakePin 0 low)

/-- FX_WAKE (18 R455). -/
def execFxWake (p : Fin 4) (low : Bool) (s : State) : Out := .next (s.wakePin (1 + p) low)

/-- RTC_ALARM (18 R455): PWR_RTC has reached a nonzero ALARM. -/
def execRtcAlarm (s : State) : Out :=
  let a := s.rdW Reg.PWR_RTC_ALARM
  if a = 0 ∨ s.on Reg.PWR_WAKE_FLAG F.PWR_WAKE_FLAG_AON_OSC_FAIL then .next s
  else
    let s := if (s.rdW Reg.PWR_RTC).toNat < a.toNat then s.wrW Reg.PWR_RTC a else s
    .next (s.fireWake 5)

/-- THERMAL_WAKE (18 R455): the AON sensor, 96, reads above THERM_HI or below THERM_LO, in 1/16 degree. -/
def execThermalWake (temp : Int) (s : State) : Out :=
  let s := { s with pmc := { s.pmc with sens := Tab.put 0 s.pmc.sens 96 temp } }
  let hi := toSigned 8 (s.rd Reg.PWR_WAKE_EN F.PWR_WAKE_EN_THERM_HI)
  let lo := toSigned 8 (s.rd Reg.PWR_WAKE_EN F.PWR_WAKE_EN_THERM_LO)
  if 16 * hi < temp ∨ temp < 16 * lo then .next (s.fireWake 6) else .next s

/-- SIDEBAND_ADDRESS_MATCH (18 R456, R457): in MIDNIGHT the comparator matches the address in force at entry, NACKs and
fires; an edge in the handover window is lost. -/
def execSidebandAddressMatch (addr : Nat) (handover : Bool) (s : State) : Out :=
  if s.mode = MD.midnight ∧ addr = s.pmc.cmpAddr ∧ !handover then .next (s.fireWake 7) else .next s

/-- PCIE_WAKE (18 R455, R456): a PCIe L1 exit or device wake request of a link wakes the package from NIGHT; an edge in the
handover window is lost. -/
def execPcieWake (j : Fin 112) (handover : Bool) (s : State) : Out :=
  let t := s.rd Reg.PKG_MODE F.PKG_MODE_TARGET
  if t = MD.night ∧ (s.link j).up ∧ !handover then .next (s.fireWake 8) else .next s

end Sys2Proof.Machine
end

