-- ==== Sys2Proof/Machine/EngCmds.lean ====
section
/-! DEFINITION. The engine's commands: dispatch, the operators, scan fronts, bucket operations, exchange, the ends of tasks
and completions (03 to 06). -/

namespace Sys2Proof.Machine
open Sys2Proof

/-! ### Input operators -/

/-- Do the input operator of the task on a slice, if it is of a code. -/
def State.inputDo (s : State) (n opc : Nat) (f : OpCtx → Task → EM Unit) : State :=
  s.taskDo n (fun t =>
    match s.opCtx { t with oper := 0 } with
    | some c => if c.o.opc = opc ∧ t.kind ≠ .gather then f c t else pure ()
    | none => pure ())

/-- SCAN on the batch in the operators: a fetch scan starts; one with nothing to fetch ends at once (04 R130). -/
def fetchScan (n : Nat) (c : OpCtx) (t : Task) (b : Batch) : EM Unit := do
  startFetch n c t b
  let t ← theTask n t
  if t.fetch.isEmpty then endFetch n c t b

/-- SCAN (03 R78, 04 R129, R130): the driving scan of a task not begun, or a fetch scan on its batch. -/
def execScan (n : Fin 36) (s : State) : Out :=
  .next (match (s.slice n).task with
    | none => s
    | some t =>
      if t.batch.isSome then s.taskOp n 1 (fun c t b => fetchScan n c t b)
      else s.inputDo n 1 (fun c t => if t.opened then pure () else startScan n c t))

/-- SCANRAW: the next block of raw arrays, or a table's lines; with TABLE the chunks are listed once the bucket lines have
been given out (04 R131, 05 R170). -/
def scanRaw (n : Nat) (c : OpCtx) (t : Task) : EM Unit :=
  if !bitAt c.o.opt 0 then scanRawBlock n c t
  else if t.opened then pure ()
  else do
    let ps := c.r.pipe t.pipe
    if ps.total ≤ ps.next && ps.chunks.isNone then
      let l ← tableChunks n t (tDeclOf (c.m.decl c.o.a4))
      updPipe t (fun p => { p with chunks := some l })
    updTask n (fun t => { t with blks := 1 })
    scanTable n c { t with blks := 1 }

/-- SCANRAW (04 R131). -/
def execScanraw (n : Fin 36) (s : State) : Out := .next (s.inputDo n 2 (fun c t => scanRaw n c t))

/-- RECV (05 R186). -/
def execRecv (n : Fin 36) (s : State) : Out :=
  .next (s.inputDo n 3 (fun c t => if t.opened then pure () else opRecv n c t))

/-- INLINE_IN: the rows of an inline batch; an error of reading the input ends the descriptor with DETAIL 0 (06 R205, R211). -/
def State.inlineIn (s : State) (n : Nat) (c : OpCtx) (t : Task) : State :=
  match t.kind with
  | .unit k =>
    let sz := inlineRec c.m c.p c.o
    let total := c.r.inBytes / max 1 sz
    let cnt := min 1024 (total - 1024 * k)
    let off := 1024 * k * sz
    if (s.ringPort t.ring).isSome && decide (c.d.inp.length < off + cnt * sz) then s
    else match (inlineRead c.d c.r off (cnt * sz)).run s with
      | (.ok bytes, s) => s.taskDo n (fun t => do
          let b ← inlineRows c (1024 * k) bytes cnt
          pack n c.p { t with opened := true, blk := 1, blks := 1 } b
          release n 1)
      | (.error (.miss va w), _) =>
        -- the read is the ring manager's, for the descriptor
        (s.updDesc t.ring t.seq (fun d => { d with stall := some ⟨s.tset t.ctx, va, w⟩ })).tfault t.ctx t.ring t.seq 255 va w
      | (.error (.err st a _), s) => s.fixRun t.ring t.seq ⟨st, 0, 0, a⟩
  | _ => s

/-- INLINE_IN (06 R205). -/
def execInlineIn (n : Fin 36) (s : State) : Out :=
  .next (match (s.slice n).task with
    | none => s
    | some t =>
      match s.opCtx { t with oper := 0 } with
      | some c => if c.o.opc = 4 && !t.opened && s.taskGoes n t && c.d.stall.isNone && c.d.fail.isNone then s.inlineIn n c t else s
      | none => s)

/-! ### Row operators and sinks -/

/-- FILTER (04 R140). -/
def execFilter (n : Fin 36) (s : State) : Out := .next (s.taskOp n 0x10 (fun c t b => opFilter n c t b))
/-- PROJECT (04 R140). -/
def execProject (n : Fin 36) (s : State) : Out := .next (s.taskOp n 0x11 (fun c t b => opProject n c t b))
/-- MATCH (05 R190). -/
def execMatch (n : Fin 36) (s : State) : Out := .next (s.taskOp n 0x12 (fun c t b => opMatch n c t b))
/-- HASH (05 R153). -/
def execHash (n : Fin 36) (s : State) : Out := .next (s.taskOp n 0x20 (fun c t b => opHash n c t b))
/-- BUILD (05 R162). -/
def execBuild (n : Fin 36) (s : State) : Out := .next (s.taskOp n 0x21 (fun c t b => opBuild n c t b))
/-- PROBE (05 R163, R164): it takes the batch in the operators, or goes on with the one it has. -/
def execProbe (n : Fin 36) (s : State) : Out :=
  .next (match (s.slice n).task with
    | none => s
    | some t =>
      if t.batch.isSome then s.taskOp n 0x22 (fun c t b => opProbe n c t b)
      else s.taskDo n (fun t => match s.opCtx t with
        | some c => if c.o.opc = 0x22 then probeOn n c t else pure ()
        | none => pure ()))
/-- AGG_LOCAL (05 R168). -/
def execAggLocal (n : Fin 36) (s : State) : Out := .next (s.taskOp n 0x23 (fun c t b => opAggLocal n c t b))
/-- AGG_HOME (05 R169). -/
def execAggHome (n : Fin 36) (s : State) : Out := .next (s.taskOp n 0x24 (fun c t b => opAggHome n c t b))
/-- SORT_RUN (05 R178). -/
def execSortRun (n : Fin 36) (s : State) : Out := .next (s.taskOp n 0x30 (fun c t b => opSortRun n c t b))
/-- TOPK (05 R180); the gather task passes its rows to the operators after it. -/
def execTopk (n : Fin 36) (s : State) : Out :=
  .next (s.taskOp n 0x32 (fun c t b => if t.kind = .gather then pure () else opTopk n c t b))
/-- PARTITION (05 R183). -/
def execPartition (n : Fin 36) (s : State) : Out := .next (s.taskOp n 0x38 (fun c t b => opPartition n c t b))
/-- LIMIT (04 R132). -/
def execLimit (n : Fin 36) (s : State) : Out := .next (s.taskOp n 0x40 (fun c t b => opLimit n c t b))
/-- EMIT (04 R133). -/
def execEmit (n : Fin 36) (s : State) : Out := .next (s.taskOp n 0x41 (fun c t b => opEmit n c t b))
/-- EMIT_INLINE (04 R135). -/
def execEmitInline (n : Fin 36) (s : State) : Out := .next (s.taskOp n 0x42 (fun c t b => opEmitInline n c t b))

/-- The operator index a task's released batches start at: after TOPK in a gather task, else after the input. -/
def Task.first (t : Task) (p : PipeI) : Nat :=
  match t.kind, topkAt p with
  | .gather, some (k, _) => k + 1
  | _, _ => 1

/-- END: the batch is done with (04 R125). -/
def opEnd (n : Nat) (c : OpCtx) (t : Task) : EM Unit := batchOver n (t.first c.p) t

/-- END (04 R125). -/
def execEnd (n : Fin 36) (s : State) : Out := .next (s.taskOp n 0x4F (fun c t _ => opEnd n c t))

/-! ### Merge tasks and the gather task -/

/-- MERGE (05 R179). -/
def execMerge (n : Fin 36) (s : State) : Out :=
  .next (s.inputDo n 0x31 (fun c t => if t.opened then pure () else opMerge n c t))
/-- INTERMEDIATE_MERGE_TASK (05 R179). -/
def execIntermediateMergeTask (n : Fin 36) (s : State) : Out :=
  .next (s.inputDo n 0x31 (fun c t => if t.opened && !t.final && decide (t.blk < t.blks) then interMerge n c t else pure ()))
/-- FINAL_MERGE_TASK (05 R179). -/
def execFinalMergeTask (n : Fin 36) (s : State) : Out :=
  .next (s.inputDo n 0x31 (fun c t => if t.opened && t.final && decide (t.blk < t.blks) then finalMerge n c t else pure ()))

/-- GATHER_TASK: every other task has ended and every row has arrived; the rows kept go on in rank order (05 R180). -/
def gatherTask (n : Nat) (c : OpCtx) (t : Task) : EM Unit := do
  let s ← get
  let ps := c.r.pipe t.pipe
  let left := s.eng.top.any (fun m => m.ring == t.ring && m.seq == t.seq && m.pipe == t.pipe)
  if t.opened || ps.running != 1 || left || !s.inputGone c.d c.r c.m 16 t.pipe then pure ()
  else match topkAt c.p with
    | none => pure ()
    | some (k, o) => do
      let kk := bitsOf o.a5 12 0
      cbRead n t.ctx false (c.heapRange k o ps.heap) 0xFFFF
      doSt (fun s => s.updRun t.ring t.seq (fun r =>
        { r.updPipe t.pipe (fun p => { p with gathered := true }) with partly := r.partly || ps.tiesCut kk }))
      pack n c.p { t with opened := true } (heapBatch (c.m.readAfter c.p k) ps.heap)
      release n (k + 1)

/-- GATHER_TASK (05 R180). -/
def execGatherTask (n : Fin 36) (s : State) : Out :=
  .next (s.taskDo n (fun t =>
    match s.opCtx { t with oper := 0 } with
    | some c => if t.kind = .gather then gatherTask n c t else pure ()
    | none => pure ()))

/-- TOPK_ROWS (05 R180, R181). -/
def execTopkRows (n : Fin 36) (s : State) : Out := .next (s.gatherRows n)

/-- LEVEL0_MERGE_TASK (05 R171). -/
def execLevel0MergeTask (n : Fin 36) (s : State) : Out :=
  .next (s.taskDo n (fun t =>
    match s.opCtx { t with oper := 0 }, t.kind with
    | some c, .level0 p => if t.opened then pure () else level0Merge n c t p
    | _, _ => pure ()))

/-! ### Scan fronts -/

/-- PAGE_REQ: the driving column's scan front receives the oldest page request of the slice's task, if it has room for a
page (02 R62, 03 R77, R78). -/
def execPageReq (n : Fin 36) (s : State) : Out :=
  .next (match s.eng.pages.find? (fun b => b.slice == n.val && b.col == 0 && b.oper == 0 && !b.opened) with
    | some b => s.takePage b
    | none => s)

/-- SCAN_CHECK: the home of a line of a page being read answers with the newest copy (03 R80 to R82). -/
def State.scanCheck (s : State) (n ln : Nat) (b : PageBuf) : State :=
  match (s.slice n).task with
  | none => s
  | some t =>
    let who := s.ctxIdent t.ctx
    let f := s.frontOf b.pa
    let s := if s.homeStop (128 * ln) != s.servingStop b.pa then s.pmcFront f 12 who 1 else s
    match s.readLine who ln with
    | (.ok, d, s) => s.setPage { b with lines := Tab.ins b.lines (ln - b.pa / 128) (fitB 128 d.data, d.poison) }
    | (_, _, s) => s.failTask n 0x11 (b.va + 128 * (ln - b.pa / 128)) 0xFFFF

/-- SCAN_CHECK (03 R82). -/
def execScanCheck (n : Fin 36) (ln : Nat) (s : State) : Out :=
  .next (match s.eng.pages.find? (fun b => b.slice == n.val && b.opened && b.ready.isNone && decide (b.pa / 128 ≤ ln) &&
      decide (ln < b.pa / 128 + 512)) with
    | some b => s.scanCheck n ln b
    | none => s)

/-- A page in flight of a task's driving scan or fetch scan: the one that was asked for first. -/
def State.openBuf (s : State) (n : Nat) (t : Task) (k page : Nat) : Option PageBuf :=
  s.eng.pages.find? (fun b => b.slice == n && b.task == t.id && b.col == k && b.page == page && b.opened && b.ready.isNone)

/-- PAGE_RELEASE (02 R62 to R64, 03 R78, 04 R130): checks a page and sends the driving column's survivors. -/
def execPageRelease (n : Fin 36) (col : Fin 16) (page : Nat) (s : State) : Out :=
  .next (s.taskDo n (fun t =>
    match s.openBuf n t col page with
    | some pb =>
      match s.opCtx { t with oper := pb.oper } with
      | some c =>
        match c.col col with
        | some d => if c.o.opc = 1 then releasePage n c t col page pb d else pure ()
        | none => pure ()
      | none => pure ()
    | none => pure ()))

/-- Bytes in which two lines differ, as a mask. -/
def diffMask (a b : List Byte) : Nat :=
  ((List.range 128).filter (fun i => nthD a i 0 != nthD b i 0)).foldl (fun m i => m + 2 ^ i) 0

/-- CORRECTION_WRITE_BACK: the oldest one is applied if its line still holds what the scan front read (02 R64). -/
def execCorrectionWriteBack (s : State) : Out :=
  .next (match s.eng.corr with
    | [] => s
    | m :: rest =>
      let s := s.eng' (fun e => { e with corr := rest })
      let (d, s) := s.lineNow m.who m.ln
      if fitB 128 d.data == m.old && !d.poison then (s.writeLine m.who m.ln m.new (diffMask m.old m.new)).2
      else s.pmcFront m.front 11 m.who 1)

/-- CHAIN_FWD (03 R78): the oldest forwarded bitmap of the slice's task. -/
def execChainFwd (n : Fin 36) (s : State) : Out :=
  .next (s.taskDo n (fun t =>
    match s.opCtx { t with oper := 0 }, s.eng.chains.find? (fun m => m.slice == n.val && m.task == t.id) with
    | some c, some m => chainStep n c t m
    | _, _ => pure ()))

/-- ROW_FETCH (04 R130): the scan fronts with room take their page requests, and the values of the rows of the first page
that is ready come back; with none left the fetch scan ends. -/
def rowFetch (n : Nat) (c : OpCtx) (t : Task) (b : Batch) : EM Unit := do
  doSt (fun s => t.fetch.foldl (fun s it => match s.pageBuf n t it.col it.page with
    | some pb => s.takePage pb
    | none => s) s)
  let s ← get
  match t.fetch.findSome? (fun it => match s.pageBuf n t it.col it.page with
    | some pb => pb.ready.map (fun bytes => (it, pb, bytes))
    | none => none) with
  | none => pure ()
  | some (it, pb, bytes) => do
    fetchRows n c t b it pb bytes
    let t ← theTask n t
    if t.fetch.isEmpty then endFetch n c t b

/-- ROW_FETCH (04 R130). -/
def execRowFetch (n : Fin 36) (s : State) : Out :=
  .next (s.taskDo n (fun t =>
    match s.scanCtx t, t.batch with
    | some c, some b => if t.fetching then rowFetch n c t b else pure ()
    | _, _ => pure ()))

/-- SURVIVOR (03 R76, R79): for a scan, and for raw arrays, whose values take the same path. -/
def execSurvivor (n : Fin 36) (s : State) : Out :=
  .next (s.taskDo n (fun t =>
    match s.opCtx { t with oper := 0 } with
    | some c => if t.opened && (c.o.opc == 1 || c.o.opc == 2) && decide (t.blk < t.blks) then takeBlock n c t else pure ()
    | none => pure ()))

/-! ### Bucket operations (05 R156 to R164) -/

/-- BUCKET_INSERT (05 R157). -/
def execBucketInsert (id : Nat) (s : State) : Out :=
  .next (s.bucketStep id (fun k => match k with | .insert _ => true | _ => false))
/-- BUCKET_PROBE (05 R157). -/
def execBucketProbe (id : Nat) (s : State) : Out :=
  .next (s.bucketStep id (fun k => match k with | .probe => true | _ => false))
/-- BUCKET_MERGE (05 R157, R161). -/
def execBucketMerge (id : Nat) (s : State) : Out :=
  .next (s.bucketStep id (fun k => match k with | .merge => true | _ => false))

/-- ANCHOR_VISIT (05 R159). -/
def execAnchorVisit (id : Nat) (s : State) : Out :=
  .next (match s.bop id with
    | some b => if b.st = .anchor ∧ s.anchorBusy b = false ∧ s.linesFree b.anchor 128 = true then s.anchorStep b else s
    | none => s)

/-- SPILL_CHUNK_VISIT (05 R159). -/
def execSpillChunkVisit (id : Nat) (s : State) : Out :=
  .next (match s.bop id with
    | some b =>
      match b.st with
      | .chunk pa ln search => if s.linesFree pa 65536 && s.linesFree b.anchor 128 then s.chunkStep b pa ln search else s
      | _ => s
    | none => s)

/-- A PROBE with the result of one of its probes in the match staging buffer. -/
def ProbeSt.take (p : ProbeSt) (b : BOp) : ProbeSt :=
  { p with out := p.out.erase b.pos, found := if b.found.isEmpty then p.found else Tab.put [] p.found b.pos b.found }

/-- A probe's result joins its task's staging; PROBE produces the rows it can, if it is the one at work (05 R164). -/
def State.probeResult (s : State) (b : BOp) : State :=
  match (s.slice b.slice).task with
  | none => s.dropBop b.id
  | some t =>
    if t.id != b.task then s.dropBop b.id
    else
      let go := (s.dropBop b.id).setTask b.slice { t with
        probes := t.probes.map (fun p => if p.oper == b.oper then p.take b else p) }
      if t.batch.isSome || (t.probes.head?).map (·.oper) != some b.oper then go
      else go.taskDo b.slice (fun t => match t.probes, go.opCtx t with
        | p :: rest, some c => probeMake b.slice c t p rest
        | _, _ => pure ())

/-- PROBE_RESULT (05 R164). -/
def execProbeResult (id : Nat) (s : State) : Out :=
  .next (match s.bop id with
    | some b => if b.kind = .probe ∧ b.st = .done ∧ b.status = 0 then s.probeResult b else s
    | none => s)

/-- The end of a bucket operation other than a probe that succeeded (05 R157, R161). -/
def State.bopOver (s : State) (id : Nat) : State :=
  match s.bop id with
  | some b =>
    if b.st = .done ∧ (b.kind ≠ .probe ∨ b.status ≠ 0) then
      (if b.status = 0 then s else s.bopError b).dropBop id
    else s
  | none => s

/-- Whether a task on a slice still needs a page buffer. -/
def State.pageNeeded (s : State) (b : PageBuf) : Bool :=
  s.eng.chains.any (fun m => m.slice == b.slice && m.task == b.task && decide (m.col ≤ b.col)) ||
    s.eng.pages.any (fun x => x.slice == b.slice && x.task == b.task && x.oper == b.oper && decide (x.col < b.col)) ||
    (match (s.slice b.slice).task with
     | some t => t.id == b.task && t.fetching
     | none => false)

/-- The page operations of a slice that are over leave their scan fronts. -/
def State.pagesOver (s : State) (n : Nat) : State :=
  s.eng' (fun e => { e with pages := e.pages.filter (fun b => !(b.slice == n && b.ready.isSome && !s.pageNeeded b)) })

/-! ### Dispatch, exchange and the ends of tasks -/

/-- EXCHANGE (05 R184). -/
def execExchange (n : Fin 36) (s : State) : Out := .next (s.takeExchange n)

/-- Whether the turbo rule keeps a slice from a task (18 R441): its die runs at code 0 with another cluster busy. -/
def State.turboHeld (s : State) (n : Nat) : Bool :=
  s.rd (Reg.RCC_CCLK (n / 3)) F.RCC_CCLK_CURRENT == 0 && !s.busyCluster n && decide (1 ≤ s.busyOf (n / 3))

/-- Give a slice a task unless the turbo rule holds it; then the die moves to a code for two busy clusters. -/
def State.giveUnlessHeld (s : State) (n : Nat) (f : State → State) : State :=
  if !s.slcFree n then s
  else if s.turboHeld n then
    let s' := f s
    if (s'.slice n).task.isSome then
      s.aimCode (n / 3) (((List.range 8).find? (fun c => c != 0 && s.codeOk (n / 3) c)).getD 7)
    else s
  else f s

/-- DISPATCH (06 R210). -/
def execDispatch (n : Fin 36) (s : State) : Out := .next (s.giveUnlessHeld n (fun s => s.dispatch n false))
/-- RECV_TASK_DISPATCH (05 R186): the decision of 06 R210 where it gives a RECV task. -/
def execRecvTaskDispatch (n : Fin 36) (s : State) : Out := .next (s.giveUnlessHeld n (fun s => s.dispatch n true))

/-- CBUF_REWRITE_DONE (03 R68, 14 R370). -/
def execCbufRewriteDone (n : Fin 36) (s : State) : Out := .next (s.rewritten n)

/-- CBUF_SCRUB (03 R69, R71): the next line is checked; a corrected error is written back, an uncorrectable one logged.
The identity of a scrub is the part's own. -/
def execCbufScrub (n : Fin 36) (s : State) : Out :=
  if !s.on (Reg.SLC_CTRL n) F.SLC_CTRL_CBUF_SCRUB then .next s
  else
    let x := s.slice n
    let ln := x.scrub
    let s := s.setSlice n { x with scrub := (ln + 1) % 32768 }
    let bits := Tab.get [] x.bad ln
    if bits.isEmpty then .next s
    else if errUnits (s.byWord n false) bits < 100 then .next (s.cbCorrect n false ln bits 2 noIdent)
    else .next (s.cbRecord n false ln 3 2 noIdent)

/-- TASK_END (03 R74): a gated slice makes no progress (18 R451); a slice whose gate or power-down waits for its task goes on with it. -/
def execTaskEnd (n : Fin 36) (s : State) : Out :=
  let s' := if s.slcGated n then s else s.taskEnd n
  if (s'.slice n).task.isNone && s'.unitState (36 + n) == 2 then .next (s'.fenceUnit (36 + n)) else .next s'

/-- COMPLETION_WRITE (06 R211 to R213). -/
def execCompletionWrite (ring : Fin 4096) (seq : Nat) (s : State) : Out :=
  .next (match s.desc ring seq with
    | some d => if s.workEnded d then s.complete d else s
    | none => s)

end Sys2Proof.Machine
end

