-- ==== Sys2Proof/Machine/HartMem.lean ====
section
/-! DEFINITION. Address translation of harts (13), physical memory protection, and the accesses of harts by the attributes
of what they name (12 R331 to R333, 13 R352). -/

namespace Sys2Proof.Machine
open Sys2Proof

/-- What an access does with its bytes. -/
inductive AKind where
  | load | store | fetch
  deriving DecidableEq, Repr

/-- Why an access faults. -/
inductive TFault where
  | page
  | access
  /-- a guest-page fault, with the guest physical address; of the read of a VS-stage PTE (`walk`), or of the access itself -/
  | guest (gpa : Nat) (walk : Bool)
  deriving DecidableEq, Repr

/-- The exception code of a fault, by kind of access. -/
def TFault.cause (f : TFault) (k : AKind) : Nat :=
  match f, k with
  | .page, .load => Exc.loadPage
  | .page, .store => Exc.storePage
  | .page, .fetch => Exc.fetchPage
  | .access, .load => Exc.loadAccess
  | .access, .store => Exc.storeAccess
  | .access, .fetch => Exc.fetchAccess
  | .guest _ _, .load => Exc.loadGuest
  | .guest _ _, .store => Exc.storeGuest
  | .guest _ _, .fetch => Exc.fetchGuest

/-- Raise a fault of a hart's access at a virtual address. -/
def State.memFault (s : State) (h : Nat) (f : TFault) (k : AKind) (va : Nat) : State :=
  match f with
  | .guest g w => s.exceptG h (f.cause k) va g w
  | _ => s.except h (f.cause k) va

/-! ### Physical memory protection (12 R330: 16 entries, granularity 4 KiB) -/

/-- Configuration byte of a PMP entry. -/
def Hart.pmpCfg (h : Hart) (i : Nat) : Nat := h.cb (Csr.pmpcfg0 + 2 * (i / 8)) (8 * (i % 8) + 7) (8 * (i % 8))

/-- Address register of a PMP entry. -/
def Hart.pmpAddr (h : Hart) (i : Nat) : Nat := (h.rc (Csr.pmpaddr0 + i)).toNat % 2 ^ 54

/-- Low ones of a number, at most `fuel`. -/
def lowOnes : Nat → Nat → Nat
  | 0, _ => 0
  | f + 1, v => if v % 2 = 1 then 1 + lowOnes f (v / 2) else 0

/-- Whether a PMP entry matches a 4 KiB page, by its A field: 1 TOR, 3 NAPOT; NA4 is not selectable at this granularity. -/
def Hart.pmpHits (h : Hart) (i page : Nat) : Bool :=
  let a := h.pmpCfg i / 8 % 4
  if a = 1 then
    decide (((if i = 0 then 0 else h.pmpAddr (i - 1)) / 1024) ≤ page) && decide (page < h.pmpAddr i / 1024)
  else if a = 3 then
    let v := h.pmpAddr i / 512 * 512 + 511
    let n := lowOnes 54 v + 3
    4096 * page / 2 ^ n == 4 * v / 2 ^ n
  else false

/-- Whether PMP permits an access of a mode. -/
def Hart.pmpOk (h : Hart) (md : Mode) (k : AKind) (pa : Nat) : Bool :=
  match (List.range 16).find? (fun i => h.pmpHits i (pa / 4096)) with
  | some i =>
    let c := h.pmpCfg i
    (md == .m && !c.testBit 7) || (match k with
      | .load => c.testBit 0
      | .store => c.testBit 1
      | .fetch => c.testBit 2)
  | none => md == .m

/-! ### Page-table entries (13 R349 to R352) -/

/-- Levels of a translation mode: Bare 0, Sv39 3, Sv48 4, Sv57 5. -/
def modeLevels (m : Nat) : Nat := if m = 8 then 3 else if m = 9 then 4 else if m = 10 then 5 else 0

/-- Whether a PTE is a leaf. -/
def pteLeaf (e : Nat) : Bool := e / 2 % 8 != 0
/-- PPN of a PTE. -/
def ptePpn (e : Nat) : Nat := bitsOf e 53 10
/-- PBMT of a PTE. -/
def ptePbmt (e : Nat) : Nat := bitsOf e 62 61

/-- Checks 1 to 6 of *PTE checks*, and the alignment of a leaf (13 R349, R350). -/
def pteCheck (lvl e : Nat) : Option TFault :=
  if e % 2 = 0 ∨ (e.testBit 2 ∧ !e.testBit 1) then some .page
  else if bitsOf e 60 54 ≠ 0 then some .page
  else if ptePbmt e = 3 then some .page
  else if !pteLeaf e ∧ (e.testBit 63 ∨ ptePbmt e ≠ 0 ∨ e.testBit 6 ∨ e.testBit 7 ∨ e.testBit 4) then some .page
  else if pteLeaf e ∧ e.testBit 63 ∧ (lvl ≠ 0 ∨ ptePpn e % 16 ≠ 8) then some .page
  else if 2 ^ 40 ≤ ptePpn e then some .access
  else if pteLeaf e ∧ ptePpn e % 2 ^ (9 * lvl) ≠ 0 then some .page
  else if !pteLeaf e ∧ lvl = 0 then some .page
  else none

/-- The permission, U, SUM, MXR and A/D rules for a leaf of the S-stage or VS-stage (13 R350, R351). -/
def permS (k : AKind) (priv : Mode) (sum mxr : Bool) (e : Nat) : Bool :=
  let rwx := match k with
    | .load => e.testBit 1 || (mxr && e.testBit 3)
    | .store => e.testBit 2
    | .fetch => e.testBit 3
  let user := if priv = .u then e.testBit 4 else !e.testBit 4 || (sum && k != .fetch)
  rwx && user && e.testBit 6 && (k != .store || e.testBit 7)

/-- The rules for a leaf of the G-stage, where every access is a user access. -/
def permG (k : AKind) (mxr : Bool) (e : Nat) : Bool := permS k .u false mxr e

/-- log2 of the bytes a leaf maps. -/
def leafLog2 (lvl e : Nat) : Nat := if e.testBit 63 then 16 else 12 + 9 * lvl

/-- The physical address a leaf gives. -/
def leafPa (lvl e va : Nat) : Nat :=
  let n := leafLog2 lvl e
  (4096 * ptePpn e) / 2 ^ n * 2 ^ n + va % 2 ^ n

/-! ### Walks (13 R353 to R357) -/

/-- What a walk ends with: the leaf, its level, whether a PTE with G set led to it, and the entries it made. -/
structure Walked where
  pte : Nat
  lvl : Nat
  glob : Bool
  nodes : List TEntry
  deriving DecidableEq, Repr

/-- What an access is translated for: hart, kind, effective mode below M, V, and the tag of its entries. -/
structure XCtx where
  h : Nat
  k : AKind
  priv : Mode
  v : Bool
  who : Ident
  vmid : Nat
  asid : Nat
  deriving DecidableEq, Repr

/-- R403: in WORKSHOP an access of a (debugger-released) hart to untrained DRAM is an access fault; a channel trained and
filled or in self-refresh serves it. -/
def State.untrained (s : State) (pa : Nat) : Bool :=
  let st := s.rd (Reg.MCH_STATUS (s.chanOf pa)) F.MCH_STATUS_STATE
  s.paKind pa == .dram && s.mode == 0xA && st != 3 && st != 4

/-- What RD_SHARED of a line by a cluster needs of its home so that it can be served at once: nothing of the line is in service, in
flight or being evicted, and there is a directory way. -/
def State.servesNow (s : State) (c ln : Nat) (who : Ident) : Bool :=
  let cl := s.cluster c
  let t := s.homeFor (agentStop c) ln
  s.linesFree (128 * ln) 128 && s.net.all (fun m => m.ln != ln) && !(s.home t).held ln &&
    s.homes.all (fun e => e.2.waitq.all (fun r => r.ln != ln)) &&
    (cl.evicting ln).isNone && cl.reqs.all (fun r => r.ln != ln) && !cl.fillWaits ln &&
    (((s.home t).dirOf ln).isSome || (match s.dirRoom t ln who.pid with
      | .inl _ => true
      | .inr _ => false))

/-- RD_SHARED of a cluster served at once (10 R294, R296): an owner is snooped, the home's directory and L3 change as its table says,
and the L2 installs the line it grants. An owner that has the line in its eviction buffer only is left to the home: none. -/
def State.shareNow (s : State) (c ln : Nat) (who : Ident) : Option (LineData × State) :=
  let t := s.homeFor (agentStop c) ln
  let r : HReq := ⟨.rdShared, ln, c, who, false, [], 0⟩
  let d := (s.home t).dirOf ln
  let owner := ((s.snoopsFor r d).map Prod.fst).head?
  let s := s.pmcStop t 0 who
  let snooped : Option (List Nat × Option LineData × State) := match owner with
    | none => some ([], none, s)
    | some o => ((s.cluster o).find ln).map (fun p =>
        ([o], if p.2.st = .m then some p.2.data else none, (s.pmcStop t 3 who).putLine o { p.2 with st := .s }))
  match snooped with
  | none => none
  | some (kept, got, s) =>
    let l3 := ((s.home t).l3Find ln).map (fun p => p.2.data)
    let (dat, fresh, s) : LineData × Bool × State := match got <|> l3 with
      | some g => (g, false, s)
      | none =>
        let (g, s) := ((s.pmcStop t 2 who).pmcMem ln 0 2 (some who)).readLineQ ln 1
        (g, true, s)
    let way := match d, s.dirRoom t ln who.pid with
      | none, .inl w => some w
      | _, _ => none
    let x : HTxn := ⟨r, [], got, kept, [], [], false, false, 0, way, false⟩
    let u := s.act t x dat got.isSome fresh
    let g : Grant := match u.net.getLast?.map Msg.kind with
      | some (MKind.datGrant (some g)) => g
      | _ => .s
    some (dat, { u with net := u.net.dropLast }.installLine c ⟨ln, g, 1, dat, who⟩)

/-- Read a line for a walk (13 R354): RD_SHARED through the cluster's L2, which the L1D does not share. Where the line cannot be granted
at once, the walk reads it at its home without a copy (notes/assumptions/123.md). -/
def State.walkLine (s : State) (c ln : Nat) (who : Ident) : AccRes × LineData × State :=
  let here := (s.cluster c).find ln
  match here with
  | some (_, l) =>
    if l.who = who then (.ok, l.data, s.putLine c { l with age := 0 }) else s.readLine who ln
  | none =>
    if !s.servesNow c ln who then s.readLine who ln
    else match s.checkAcc who (128 * ln) false with
      | (.ok, s) =>
        (match s.shareNow c ln who with
         | some (d, s) => (.ok, d, s)
         | none => s.readLine who ln)
      | (r, s) => (r, ⟨zeroLine, false⟩, s)

/-- Read a PTE (13 R353, R354): the map, PMP, the firewall, and poison, each an access fault. Poison is recorded as consumed (19
R459). -/
def State.fetchPte (s : State) (x : XCtx) (pa : Nat) : Option Nat × State :=
  if !s.isMem pa || s.untrained pa || !(s.hart x.h).pmpOk .s .load pa then (none, s)
  else match s.walkLine (hartCluster x.h) (pa / 128) x.who with
    | (.ok, d, s) =>
      if d.poison then
        (none, (s.recordErr (.slice (hartCluster x.h) 4) ⟨3, x.who, 1, false, pa / 128 * 128, 0, 0⟩).hev x.h 0x1C)
      else (some (leAt d.data (pa % 128) 8), s)
    | (_, _, s) => (none, s)

/-- Descend a table from a level: `at_` gives the physical address of a PTE, with the entries that finding it made, `top` the bits the
root level indexes, and `glob` tells of a PTE with G set above (13 R357). -/
def State.descend (s : State) (x : XCtx) (st : TStage) (va top : Nat)
    (at_ : Nat → State → Except TFault (Nat × List TEntry) × State) :
    Nat → Nat → Nat → Bool → List TEntry → Except TFault Walked × State
  | 0, _, _, _, _ => (.error .page, s)
  | n + 1, tbl, root, glob, acc =>
    let lvl := n
    let idx := va / 2 ^ (12 + 9 * lvl) % 2 ^ (if lvl + 1 = root then top else 9)
    match at_ (tbl + 8 * idx) s with
    | (.error f, s) => (.error f, s)
    | (.ok (pa, es), s) =>
      match s.fetchPte x pa with
      | (none, s) => (.error .access, s)
      | (some e, s) =>
        match pteCheck lvl e with
        | some f => (.error f, s)
        | none =>
          let glob := glob || e.testBit 5
          if pteLeaf e then (.ok ⟨e, lvl, glob, es ++ acc⟩, s)
          else
            let log2 := 12 + 9 * lvl
            let node : TEntry := ⟨st, if st = .g then .gwalk else .walk, false, va / 2 ^ log2 * 2 ^ log2, log2, 0, 4096 * ptePpn e, e, 0, lvl,
              x.who, x.v, x.vmid, if glob then none else some x.asid⟩
            State.descend s x st va top at_ n (4096 * ptePpn e) root glob (node :: (es ++ acc))

/-- Whether an entry carries the tag of an access (13 R357). -/
def TEntry.tagged (e : TEntry) (x : XCtx) : Bool :=
  e.who == x.who && e.v == x.v && (!x.v || e.vmid == x.vmid) &&
    (match e.asid with
     | none => true
     | some a => e.stage == .g || a == x.asid)

/-- Whether an entry covers an address. -/
def TEntry.covers (e : TEntry) (va : Nat) : Bool := e.base == va / 2 ^ e.log2 * 2 ^ e.log2

/-- The number of entries that an array of a hart holds in one set, and the number of its sets (13 R356). -/
def TArray.size : TArray → Nat × Nat
  | .l1i | .l1d => (64, 1)
  | .l2 => (12, 256)
  | .walk => (48, 1)
  | .gwalk => (32, 1)

/-- The set of its array that an entry falls in (notes/assumptions/123.md). -/
def TEntry.set (e : TEntry) : Nat := e.base / 2 ^ e.log2 % e.arr.size.2

/-- Put an entry into its array: the oldest of a full set gives way (13 R356, R361). -/
def holdOne (l : List TEntry) (e : TEntry) : List TEntry :=
  if l.contains e then l
  else
    let same (y : TEntry) : Bool := y.arr == e.arr && y.set == e.set
    (if e.arr.size.1 ≤ (l.filter same).length then l.eraseP same else l) ++ [e]

/-- Hold entries. -/
def State.hold (s : State) (h : Nat) (l : List TEntry) : State :=
  let x := s.hart h
  s.setHart h { x with tlb := l.foldl holdOne x.tlb }

/-- The L1 TLB that an access looks into. -/
def AKind.tlb : AKind → TArray
  | .fetch => .l1i
  | _ => .l1d

/-- The held leaf of a stage for an address, in one array. -/
def State.leafIn (s : State) (x : XCtx) (a : TArray) (st : TStage) (va : Nat) : Option TEntry :=
  (s.hart x.h).tlb.find? (fun e => e.arr == a && e.leaf && e.stage == st && e.tagged x && e.covers va)

/-- The leaf an access translates by: in its L1 TLB, or in the L2 TLB, which then fills the L1 (13 R356). -/
def State.tlbLeaf (s : State) (x : XCtx) (st : TStage) (va : Nat) : Option TEntry :=
  s.leafIn x x.k.tlb st va <|> s.leafIn x .l2 st va

/-- An access uses a held leaf: the L1 TLB of its kind holds it then. -/
def State.useLeaf (s : State) (x : XCtx) (e : TEntry) : State := s.hold x.h [{ e with arr := x.k.tlb }]

/-- The lowest held non-leaf entry of a stage for an address. -/
def State.walkNode (s : State) (x : XCtx) (st : TStage) (va : Nat) : Option TEntry :=
  ((s.hart x.h).tlb.filter (fun e => !e.leaf && e.stage == st && e.tagged x && e.covers va)).foldl
    (fun b e => match b with
      | none => some e
      | some b => if e.level < b.level then some e else some b) none

/-- A G-stage translation, for an access or for a read of a VS-stage PTE (13 R353, R355): the physical address, the leaf and its
size, and the entries to hold once the whole walk has succeeded. -/
def State.gStage (s : State) (x : XCtx) (k : AKind) (mxr : Bool) (gpa : Nat) : Except TFault (Nat × Nat × Nat × List TEntry) × State :=
  let g := (s.hart x.h).rc Csr.hgatp
  let n := modeLevels (bitsOf g.toNat 63 60)
  if n = 0 then (if gpa < 2 ^ 52 then (.ok (gpa, 0, 52, []), s) else (.error .access, s))
  else if 2 ^ (14 + 9 * n) ≤ gpa then (.error (.guest gpa false), s)
  else
    match s.leafIn x .l2 .g gpa with
    | some e =>
      if permG k mxr e.pte then (.ok (e.pa + gpa % 2 ^ e.log2, e.pte, e.log2, []), s) else (.error (.guest gpa false), s)
    | none =>
      let s := s.hev x.h 0x16
      let start := match s.walkNode x .g gpa with
        | some e => (e.level, e.pa)
        | none => (n, 4096 * bitsOf g.toNat 43 0)
      match s.descend x .g gpa 11 (fun a s => (.ok (a, []), s)) start.1 start.2 n false [] with
      | (.error .access, s) => (.error .access, s)
      | (.error _, s) => (.error (.guest gpa false), s)
      | (.ok w, s) =>
        if permG k mxr w.pte then
          let lg := min 30 (leafLog2 w.lvl w.pte)
          let pa := leafPa w.lvl w.pte gpa
          let e : TEntry := ⟨.g, .l2, true, gpa / 2 ^ lg * 2 ^ lg, lg, gpa / 2 ^ lg * 2 ^ lg, pa / 2 ^ lg * 2 ^ lg, w.pte, 0, 0, x.who, x.v,
            x.vmid, none⟩
          (.ok (pa, w.pte, lg, e :: w.nodes), s)
        else (.error (.guest gpa false), s)

/-- Whether an address is vaOk for a number of levels. -/
def vaOk (n va : Nat) : Bool :=
  let b := 11 + 9 * n
  va / 2 ^ b == 0 || va / 2 ^ b == 2 ^ (64 - b) - 1

/-- A translated address: where it lies, its memory type, and 0 PMA, 1 NC, 2 IO. -/
structure PAddr where
  pa : Nat
  pbmt : Nat
  deriving DecidableEq, Repr

/-- Where a PTE of the first stage lies: its address, through the G-stage in a virtual machine, whose guest-page faults are then
those of an implicit access (13 R355). -/
def tableAt (x : XCtx) (hmxr : Bool) (p : Nat) (s : State) : Except TFault (Nat × List TEntry) × State :=
  if x.v then
    match s.gStage x .load hmxr p with
    | (.ok (pa, _, _, es), s) => (.ok (pa, es), s)
    | (.error (.guest g _), s) => (.error (.guest g true), s)
    | (.error f, s) => (.error f, s)
  else (.ok (p, []), s)

/-- Translate an address of an access below M-mode (13). A walk that ends in a fault leaves no entry (R353). -/
def State.xlate (s : State) (x : XCtx) (va : Nat) : Except TFault PAddr × State :=
  let h := s.hart x.h
  let st := h.rc (if x.v then Csr.vsstatus else Csr.mstatus)
  let sum := st.getLsbD 18
  let mxr := st.getLsbD 19
  let hmxr := (h.rc Csr.mstatus).getLsbD 19
  let a := (h.rc (if x.v then Csr.vsatp else Csr.satp)).toNat
  let n := modeLevels (bitsOf a 63 60)
  let type (e g : Nat) : Nat := if ptePbmt e = 0 then ptePbmt g else ptePbmt e
  if n = 0 then
    if x.v then
      match s.gStage x x.k hmxr va with
      | (.ok (pa, g, _, es), s) => (.ok ⟨pa, ptePbmt g⟩, s.hold x.h es)
      | (.error f, s) => (.error f, s)
    else if va < 2 ^ 52 then (.ok ⟨va, 0⟩, s) else (.error .access, s)
  else if !vaOk n va then (.error .page, s)
  else
    let leafSt : TStage := if x.v then .comb else .s
    match s.tlbLeaf x leafSt va with
    | some e =>
      let s := s.useLeaf x e
      if !permS x.k x.priv sum (mxr || (x.v && hmxr)) e.pte then (.error .page, s)
      else if x.v && e.gpte != 0 && !permG x.k hmxr e.gpte then (.error (.guest (e.gpa + va % 2 ^ e.log2) false), s)
      else (.ok ⟨e.pa + va % 2 ^ e.log2, type e.pte e.gpte⟩, s)
    | none =>
      let s := (s.hev x.h (if x.k = .fetch then 0x15 else 0x14)).hev x.h 0x16
      let nodeSt : TStage := if x.v then .vs else .s
      let start := match s.walkNode x nodeSt va with
        | some e => (e.level, e.pa, e.asid.isNone)
        | none => (n, 4096 * bitsOf a 43 0, false)
      match s.descend x nodeSt va 9 (tableAt x hmxr) start.1 start.2.1 n start.2.2 [] with
      | (.error f, s) => (.error f, s)
      | (.ok w, s) =>
        if !permS x.k x.priv sum (mxr || (x.v && hmxr)) w.pte then (.error .page, s)
        else
          let p := leafPa w.lvl w.pte va
          let asid := if w.glob then none else some x.asid
          let both (e : TEntry) : List TEntry := [{ e with arr := x.k.tlb }, e]
          if x.v then
            match s.gStage x x.k hmxr p with
            | (.error f, s) => (.error f, s)
            | (.ok (pa, g, glg, es), s) =>
              let lg := min (min 30 (leafLog2 w.lvl w.pte)) glg
              let e : TEntry := ⟨.comb, .l2, true, va / 2 ^ lg * 2 ^ lg, lg, p / 2 ^ lg * 2 ^ lg, pa / 2 ^ lg * 2 ^ lg, w.pte, g, 0, x.who,
                x.v, x.vmid, asid⟩
              (.ok ⟨pa, type w.pte g⟩, s.hold x.h (both e ++ es ++ w.nodes))
          else
            let lg := min 30 (leafLog2 w.lvl w.pte)
            let e : TEntry := ⟨.s, .l2, true, va / 2 ^ lg * 2 ^ lg, lg, 0, p / 2 ^ lg * 2 ^ lg, w.pte, 0, 0, x.who, x.v, x.vmid, asid⟩
            (.ok ⟨p, ptePbmt w.pte⟩, s.hold x.h (both e ++ w.nodes))

/-- The mode and V an access of a hart is made for: mstatus.MPRV redirects loads and stores of M-mode. -/
def Hart.effective (h : Hart) (k : AKind) : Mode × Bool :=
  if h.mode = .m ∧ k ≠ .fetch ∧ h.cb Csr.mstatus 17 17 = 1 then
    let md := modeOfCode (h.cb Csr.mstatus 12 11)
    (md, md != .m && h.cb Csr.mstatus 39 39 == 1)
  else (h.mode, h.v)

/-- The identity of mhswctl. -/
def Hart.swIdent (h : Hart) : Ident := ⟨h.cb Csr.mhswctl 5 0, worldOf (h.cb Csr.mhswctl 7 7)⟩

/-- Mask the upper bits of an address by the pointer-masking length in force (12 R330; Ssnpm masks U-, VU- and VS-mode): PMLEN 7 or 16, sign-extended
under translation and zero-extended without; fetches are not masked. -/
def Hart.masked (h : Hart) (md : Mode) (v : Bool) (k : AKind) (va : Nat) : Nat :=
  let pmm := if k = .fetch then 0
    else match md, v with
      | .m, _ => 0
      | .s, false => 0
      | .s, true => h.cb Csr.henvcfg 33 32
      | .u, _ => h.cb Csr.senvcfg 33 32
  let len := if pmm = 2 then 7 else if pmm = 3 then 16 else 0
  if len = 0 then va
  else
    let low := va % 2 ^ (64 - len)
    let bare := modeLevels (h.cb (if v then Csr.vsatp else Csr.satp) 63 60) == 0
    if !bare && low.testBit (63 - len) then low + (2 ^ 64 - 2 ^ (64 - len)) else low

/-- Where a masked address of a hart's access lies: in M-mode the address itself, else as translation gives it. -/
def State.untested (s : State) (h : Nat) (k : AKind) (md : Mode) (v : Bool) (va : Nat) : Except TFault PAddr × State :=
  let x := s.hart h
  if md = .m then (if va < 2 ^ 52 then (.ok ⟨va, 0⟩, s) else (.error .access, s))
  else s.xlate ⟨h, k, md, v, x.swIdent, x.cb Csr.hgatp 57 44, x.cb (if v then Csr.vsatp else Csr.satp) 59 44⟩ va

/-- Translate an address of a hart's access, and check PMP on where it lies. -/
def State.locate (s : State) (h : Nat) (k : AKind) (va : Nat) : Except TFault PAddr × State :=
  let x := s.hart h
  let (md, v) := x.effective k
  match s.untested h k md v (x.masked md v k va) with
  | (.ok p, s) => if (s.hart h).pmpOk md k p.pa then (.ok p, s) else (.error .access, s)
  | (.error f, s) => (.error f, s)

/-! ### Access by attribute (12 R331, 13 R352) -/

/-- How an access is performed where it lies. -/
inductive Attr where
  | cached
  /-- memory mapped NC -/
  | nc
  /-- memory mapped IO -/
  | io
  | window
  /-- PCIe MMIO of link `j` -/
  | mmio (j : Nat)
  | absent
  deriving DecidableEq, Repr

/-- The attribute of a translated address. -/
def State.attr (s : State) (p : PAddr) : Attr :=
  match s.paKind p.pa with
  | .window => .window
  | .mmio j => .mmio j
  | .absent => .absent
  | _ => if s.untrained p.pa then .absent else if p.pbmt = 1 then .nc else if p.pbmt = 2 then .io else .cached

/-- Begin accesses of a hart to cacheable lines: the hart waits until every one is performed. `part` is what a load has read of its other
parts. -/
def State.startAcc (s : State) (h part : Nat) (ws : List Wait) : State :=
  let c := hartCluster h
  let s := s.setHart h { s.hart h with stalled := true, part := part }
  match ws with
  | [w] => s.access w
  | _ =>
    let s := ws.foldl (fun s w => s.setCluster c { s.cluster c with waits := (s.cluster c).waits ++ [w] }) s
    ws.foldl (fun s w => s.retryWaits c w.ln) s

/-- Send an access to the register window or to PCIe MMIO; the hart waits for its end (12 R332). -/
def State.startIo (s : State) (h : Nat) (a : IoAccess) : State := s.setHart h { s.hart h with io := some a }

end Sys2Proof.Machine
end

