-- ==== Sys2Proof/Machine/PcieCmds.lean ====
section
/-! DEFINITION. The PCIe and CXL ports' commands (08 R256 to R261, 14 R373, R374): DMA, AtomicOps, MSIs and links. -/

namespace Sys2Proof.Machine
open Sys2Proof

/-! ### SerDes transmit limits (22 R518, 16 R384) -/

/-- A transmit setting: differential peak-to-peak swing in mV, pre-cursor and post-cursor equalisation in dB. -/
structure TxSetting where
  swing : Nat
  pre : Int
  post : Int
  deriving DecidableEq, Repr

/-- The caps fused for a SerDes port group (R512, R518): groups 0 to 6 carry PCIe and CXL, 7 and 8 Finxis. -/
def txCap (g : Nat) : TxSetting := ⟨if g ≤ 6 then 1000 else 900, -6, -12⟩

/-- R518: the setting the transmitters of a port group apply for a setting written: at the cap where it is above one, a
pre-cursor or post-cursor being above its cap where it equalises by more (notes/assumptions/107.md). -/
def txApplied (g : Nat) (t : TxSetting) : TxSetting :=
  ⟨min t.swing (txCap g).swing, max t.pre (txCap g).pre, max t.post (txCap g).post⟩

/-- The identity of a link's DMA (14 R374). -/
def State.linkWho (s : State) (j : Nat) : Ident :=
  ⟨s.rd (Reg.ISO_LNK_CFG j) F.ISO_LNK_CFG_PID, worldOf (s.rd (Reg.ISO_LNK_CFG j) F.ISO_LNK_CFG_WORLD)⟩

/-- Whether a link is assigned (14 R374). -/
def State.linkValid (s : State) (j : Nat) : Bool := s.on (Reg.ISO_LNK_CFG j) F.ISO_LNK_CFG_VALID

/-- A DMA access of a link is refused: it is logged and the port's event is raised (08 R258, 19 R472). -/
def State.dmaRefused (s : State) (j addr : Nat) (write logged : Bool) : State :=
  (if logged then s else s.logFw (s.linkWho j) addr write).raise (301 + j / 8)

/-- Count the DMA lines of an access at a link's port (21 R499). -/
def State.pmcDma (s : State) (j k addr len : Nat) : State :=
  s.pmcAdd (Reg.PRT_PMF (j / 8)) (Reg.PRT_PMC (j / 8) k) (some (s.linkWho j)) ((addr % 128 + len + 127) / 128)

/-- Whether PCIe and CXL DMA is served: in MAINLINE and DUSK (16 *Operating modes*; DEDUCED, notes/assumptions/115.md). -/
def State.dmaRuns (s : State) : Bool := s.mode == MD.mainline || s.mode == MD.dusk

/-- Whether a link may train: where its port is not stopped, held or off (16 *Operating modes*, R400). -/
def State.linksRun (s : State) : Bool := [MD.depot, MD.mainline, MD.dusk, MD.workshop].contains s.mode

/-- Whether a link's device can send: the link is up, and its port serves DMA. -/
def State.dmaOpen (s : State) (j : Nat) : Bool := (s.link j).up && s.dmaRuns

/-- Read for a link: how it ended, bytes, poison. A link that is not assigned is refused. -/
def State.dmaRead (s : State) (j addr len : Nat) : Option (List Byte × Bool) × State :=
  if !s.linkValid j then (none, s.dmaRefused j addr false false)
  else
    let (r, s) := (s.pmcDma j 0 addr len).readPa (s.linkWho j) addr len
    if r.res != AccRes.ok then (none, s.dmaRefused j addr false true)
    else (some (r.bytes, r.poison), if r.poison then s.raise (301 + j / 8) else s)

/-- Largest read request and largest payload of a link (08 R257). -/
def maxReadRequest : Nat := 4096
def maxPayload : Nat := 512

/-- A request the ports do not support is answered Unsupported Request, and a posted write is dropped: the port's event is
raised (08 R257, notes/assumptions/103.md). -/
def State.unsupported (s : State) (j : Nat) : State := s.raise (301 + j / 8)

/-- A TLP whose ECRC is wrong is discarded, unanswered, and the port's event raised (08 R257, notes/assumptions/103.md). -/
def State.ecrcError (s : State) (j : Nat) : State := s.raise (301 + j / 8)

/-- PCIE_DMA_READ (08 R257, R258): it waits for what its homes have in service on its lines (10 R293). With a PASID prefix, or longer than the largest read request, it is an Unsupported
Request. -/
def execPcieDmaRead (j : Fin 112) (tag : Nat) (addr : TlpAddr) (len : Nat) (s : State) : Out :=
  if !s.dmaOpen j || !s.linesFree addr.addr len then .next s
  else if addr.badEcrc then .next (s.ecrcError j)
  else if addr.pasid || decide (maxReadRequest < len) then .next ((s.unsupported j).send (.pcieCpl j tag none))
  else
    let (r, s) := s.dmaRead j addr.addr len
    .next (s.send (.pcieCpl j tag r))

/-- Write for a link; a refused write is dropped. -/
def State.dmaWrite (s : State) (j addr : Nat) (bytes : List Byte) : State :=
  if !s.linkValid j then s.dmaRefused j addr true false
  else
    let (r, s) := (s.pmcDma j 1 addr bytes.length).writePa (s.linkWho j) addr bytes
    if r = .ok then s else s.dmaRefused j addr true true

/-- PCIE_DMA_WRITE (08 R257, R258): with a PASID prefix, or of more than the largest payload, it is an Unsupported Request and
is dropped. -/
def execPcieDmaWrite (j : Fin 112) (addr : TlpAddr) (bytes : List Byte) (s : State) : Out :=
  .next (if !s.dmaOpen j || !s.linesFree addr.addr bytes.length then s
    else if addr.badEcrc then s.ecrcError j
    else if addr.pasid || decide (maxPayload < bytes.length) then s.unsupported j
    else s.dmaWrite j addr.addr bytes)

/-- Whether an AtomicOp is supported: its size by kind, and natural alignment (08 R257). -/
def atomicOk (op : AtomicKind) (size addr : Nat) : Bool :=
  (size == 4 || size == 8 || (size == 16 && op == .cas)) && addr % size == 0

/-- The value an AtomicOp leaves. -/
def atomicNew (op : AtomicKind) (size old operand compare : Nat) : Nat :=
  match op with
  | .fetchAdd => (old + operand) % 2 ^ (8 * size)
  | .swap => operand
  | .cas => if old = compare then operand else old

/-- ATOMIC_OP (08 R257): executed at the line's home, the old value returned. Poisoned data is returned as poison and left
as it is. -/
def execAtomicOp (j : Fin 112) (tag : Nat) (addr : TlpAddr) (op : AtomicKind) (size operand compare : Nat) (s : State) : Out :=
  if !s.dmaOpen j || !s.linesFree addr.addr size then .next s
  else if addr.badEcrc then .next (s.ecrcError j)
  else if addr.pasid || !atomicOk op size addr.addr then .next ((s.unsupported j).send (.pcieCpl j tag none))
  else
    let s := if s.linkValid j then s.homePull (s.linkWho j) addr.addr false else s
    let (r, s) := s.dmaRead j addr.addr size
    match r with
    | some (old, false) =>
      let (w, s) := s.writePa (s.linkWho j) addr.addr (leBytes size (atomicNew op size (leNat old) operand compare))
      if w = .ok then .next (s.send (.pcieCpl j tag (some (old, false))))
      else .next ((s.dmaRefused j addr.addr true true).send (.pcieCpl j tag none))
    | _ => .next (s.send (.pcieCpl j tag r))

/-- PCIE_MSI (14 R373, R374). -/
def execPcieMsi (j : Fin 112) (addr eiid : Nat) (s : State) : Out :=
  .next (if s.dmaOpen j && s.linkValid j then s.msiTo (s.linkWho j) addr eiid else s)

/-- LINK_DOWN (08 R258). -/
def execLinkDown (j : Fin 112) (s : State) : Out := .next (s.linkDown j)

/-- CXL_SURPRISE_REMOVAL (08 R259). -/
def execCxlSurpriseRemoval (j : Fin 112) (s : State) : Out :=
  .next (if (s.link j).cxl then s.linkDown j else s)

/-- PCIE_LINK_UP (08 R257, R259): a link trains at a rate in GT/s with a device that is a CXL Type 3 expander or not, and
that requires an unsupported CXL feature or not. -/
def execPcieLinkUp (j : Fin 112) (rate : Nat) (type3 odd : Bool) (s : State) : Out :=
  let w := s.linkWidth j
  if w = 0 || !s.linksRun then .next s
  else
    let can := type3 && decide (8 ≤ w) && (rate == 32 || rate == 64)
    let l := s.link j
    let s := s.setLink j { l with
      up := true, cxl := can && !odd, removed := l.removed && !(can && !odd), fenced := false, l1 := false }
    .next (if can && odd then (s.raise (301 + j / 8)).pk (fun p => { p with ldrLog := p.ldrLog ++ [0x300 + j.val] }) else s)

end Sys2Proof.Machine
end

