-- ==== Sys2Proof/Machine/DmCmds.lean ====
section
/-! DEFINITION. The data movers' commands (07 R221 to R234) and the return of a doorbell line (06 R199, 07 R222). -/

namespace Sys2Proof.Machine
open Sys2Proof

/-- A returned line at the slot of a ring pair (06 R199, R200): compared with the counts last seen, under the ring pair's
identity. -/
def State.slotOf (s : State) (ln : Nat) (d : LineData) (n : Nat) : State :=
  let (r, s) := s.checkAcc (s.ctxIdent (s.rd (Reg.RING_CFG n) F.RING_CFG_CTX)) (128 * ln) false
  if r != AccRes.ok then s.ringError n 2
  else if d.poison then s.ringError n 3
  else s.doorbell n (leAt d.data (8 * s.rd (Reg.RING_DB n) F.RING_DB_SLOT) 8)

/-- A returned line at the slot of a channel (07 R222). -/
def State.chanSlotOf (s : State) (ln : Nat) (d : LineData) (n : Nat) : State :=
  let (r, s) := s.checkAcc (s.chanWho n) (128 * ln) false
  if r != AccRes.ok then s.chanError n 2
  else if d.poison then s.chanError n 3
  else s.chanDoorbell n (leAt d.data (8 * s.rd (Reg.DM_DB n) F.DM_DB_SLOT) 8)

/-- The ring manager's read of a line comes back: the line is held in state Shared, and every slot on it looked at; refused,
every ring pair and channel of the line is in error. -/
def State.lineBack (s : State) (ln : Nat) (m : Msg) : State :=
  let s := { s with dbInval := s.dbInval.erase ln }
  match m.kind with
  | .rspError _ =>
    let s := (s.ringsOn ln).foldl (fun s n => s.ringError n 2) s
    (s.chansOn ln).foldl (fun s n => s.chanError n 2) s
  | _ =>
    let s := s.watchRoom ln
    let s := { s with watch := if s.watch.contains ln then s.watch else s.watch ++ [ln] }
    let s := (s.ringsOn ln).foldl (fun s n => s.slotOf ln m.data n) s
    (s.chansOn ln).foldl (fun s n => s.chanSlotOf ln m.data n) s

/-- DOORBELL_LINE_RETURN (06 R198, R199, 07 R222): a line that the ring manager has asked for returns from its home, and each
slot on it is compared with the counts last seen. -/
def execDoorbellLineReturn (ln : Nat) (s : State) : Out :=
  .next (s.onMsg (fun m => m.agent == 36 && m.ln == ln && (match m.kind with
    | .datGrant _ | .rspError _ => true
    | _ => false)) (fun m s => s.lineBack ln m))

/-- PROGRAM_TABLE_ENTRY (07 R222): the channel reads the entry of its next program and starts it, or refuses the entry. -/
def execProgramTableEntry (n : Fin 32) (s : State) : Out :=
  let done := s.rd (Reg.DM_STATUS n) F.DM_STATUS_DONE
  if s.chanState n != 1 || done == (s.chan n).start then .next s
  else
    let pa := s.rd (Reg.DM_TABLE n) F.DM_TABLE_BASE * 8 + 8 * (done % 2 ^ s.rd (Reg.DM_TABLE n) F.DM_TABLE_SIZE_LOG2)
    let (r, s) := s.readPa (s.chanWho n) pa 8
    if r.res != AccRes.ok then .next (s.chanError n 2)
    else if r.poison then .next (s.chanError n 3)
    else
      let e := leNat r.bytes
      if e % 16 != 0 || 2 ^ 52 ≤ e then .next ((s.chanBad n 0x84 pa).addF (Reg.DM_STATUS n) F.DM_STATUS_DONE 1)
      else
        let c := s.chan n
        .next ((s.setChan n { c with prog := some e, pc := 0, loops := [], badAt := [], work := .none, ending := none }).wr
          (Reg.DM_STATUS n) F.DM_STATUS_STATE 2)

/-- MOVE (07 R225): its reads are issued. -/
def execMove (n : Fin 32) (s : State) : Out :=
  .next (s.dmRun n (· == 1) (fun i s =>
    if i.flags / 2 != 0 || i.f 13 0 == 0 then s.dmNext n 0x84
    else
      let k := i.f 13 0
      let off := if bitAt i.flags 0 then s.dmIter n * k else 0
      s.setChan n { s.chan n with work := .move (i.f 103 59 + off) (i.f 58 14 + off) k }))

/-- Rows of an ENCODE are to be taken: none left ends it, and so does the source's end (07 R226, R230). -/
def State.encMore (s : State) (n left : Nat) : State :=
  match (s.chan n).enc with
  | none => s.dmNext n 0x83
  | some e =>
    if left = 0 then s.dmNext n 1
    else if e.src.rows ≤ e.row then s.dmNext n 2
    else s.setChan n { s.chan n with work := .encode left }

/-- Whether an ENCODE is well-formed. -/
def DmIns.encodeOk (i : DmIns) : Bool :=
  i.flags / 2 == 0 && i.f 55 32 == 0 && i.f 31 0 != 0 && (bitAt i.flags 0 || i.f 103 59 == 0)

/-- Close the open column of a channel, if there is one. -/
def shutCol (n : Nat) : EncM Unit := do
  let s ← get
  match (s.chan n).enc with
  | some e => do
    let _ ← flushCol n e true
    pure ()
  | none => pure ()

/-- ENCODE with OPEN: the open column is closed, the block read and checked, the column opened (07 R229, R230). -/
def openCol (n : Nat) (pa level : Nat) : EncM (Option EncCol) := do
  shutCol n
  let b ← dmRead n pa 192
  encEnsure (encColOf pa level b).isSome 0x85
  return encColOf pa level b

/-- ENCODE (07 R230). -/
def execEncode (n : Fin 32) (s : State) : Out :=
  .next (s.dmRun n (· == 2) (fun i s =>
    let left := i.f 31 0
    if !i.encodeOk then s.dmDrop n 0x84
    else if bitAt i.flags 0 then
      s.encDo n (openCol n (i.f 103 59 * 128) (i.f 58 56)) (fun s => s.encMore n left)
    else match (s.chan n).enc with
      | none => s.dmNext n 0x83
      | some e => (s.setChan n { s.chan n with enc := some { e with level := i.f 58 56 } }).encMore n left))

/-- FLUSH of an open column, which stays open. -/
def flushOpen (n : Nat) (e : EncCol) (close : Bool) : EncM (Option EncCol) := do
  let e ← flushCol n e close
  return some e

/-- FLUSH of an open column, which is closed. -/
def flushShut (n : Nat) (e : EncCol) : EncM (Option EncCol) := do
  let _ ← flushCol n e true
  return none

/-- A well-formed FLUSH. -/
def State.dmFlush (s : State) (n : Nat) (i : DmIns) : State :=
  match (s.chan n).enc with
  | none => s.dmNext n 0x83
  | some e => s.encDo n (flushOpen n e (bitAt i.flags 0)) (fun s => s.dmNext n 1)

/-- FLUSH (02 R56, 07 R225). -/
def execFlush (n : Fin 32) (s : State) : Out :=
  .next (s.dmRun n (· == 3) (fun i s =>
    if i.flags / 2 != 0 || i.opnd != 0 then s.dmDrop n 0x84
    else s.dmFlush n i))

/-- LOOP (07 R225). -/
def execLoop (n : Fin 32) (s : State) : Out := .next (s.dmRun n (· == 4) (fun i s => s.dmLoop n i))

/-- Whether every write of a channel's program is globally visible: no page waits for its footer or its block's
write-back. -/
def State.chanDrained (s : State) (n : Nat) : Bool := (s.chan n).closing.isEmpty

/-- WAIT (07 R225): a drain ends once every write is visible; a memory wait begins to poll. -/
def execWait (n : Fin 32) (s : State) : Out :=
  .next (s.dmRun n (· == 5) (fun i s =>
    if i.flags / 2 != 0 || i.f 54 32 != 0 || (!bitAt i.flags 0 && i.opnd != 0) then s.dmNext n 0x84
    else if bitAt i.flags 0 then s.setChan n { s.chan n with work := .wait (i.f 103 55 * 8) (i.f 31 0) }
    else if s.chanDrained n then s.dmNext n 1 else s))

/-- WAIT_POLL (07 R225). -/
def execWaitPoll (n : Fin 32) (s : State) : Out :=
  .next (match (s.chan n).work with
    | .wait a v =>
      let (r, s) := s.readPa (s.chanWho n) a 8
      if r.res != AccRes.ok then s.dmNext n 0x80
      else if r.poison then s.dmNext n 0x81
      else if (leAt r.bytes 0 4 + 2 ^ 32 - v) % 2 ^ 32 < 2 ^ 31 then s.dmNext n 1
      else s
    | _ => s)

/-- WAIT_TIMEOUT (07 R225). -/
def execWaitTimeout (n : Fin 32) (s : State) : Out :=
  .next (match (s.chan n).work with
    | .wait _ _ => s.dmNext n 0x87
    | _ => s)

/-- SIGNAL (07 R225): once earlier writes are visible. -/
def execSignal (n : Fin 32) (s : State) : Out :=
  .next (s.dmRun n (· == 6) (fun i s =>
    if i.flags / 2 != 0 || i.f 54 32 != 0 then s.dmNext n 0x84
    else if !s.chanDrained n then s
    else
      let (r, s) := s.writePa (s.chanWho n) (i.f 103 55 * 8) (leBytes 8 (i.f 31 0))
      if r != AccRes.ok then s.dmNext n 0x80
      else (if bitAt i.flags 0 then s.chanMsi n else s).dmNext n 1))

/-- The program ends at its END instruction once its writes are visible. -/
def State.dmFin (s : State) (n : Nat) (i : DmIns) : State :=
  if !s.chanDrained n then s
  else
    let s := s.dmStatus n 1
    if (s.chan n).prog.isSome then s.setChan n { s.chan n with ending := some (bitAt i.flags 0) } else s

/-- A well-formed END. -/
def State.dmEnd (s : State) (n : Nat) (i : DmIns) : State :=
  match (s.chan n).enc with
  | none => s.dmFin n i
  | some e => s.encDo n (flushShut n e) (fun s => s.dmFin n i)

/-- DM_END (07 R225): an open column is closed; once every write is visible the program ends. -/
def execDmEnd (n : Fin 32) (s : State) : Out :=
  .next (s.dmRun n (· == 0xF) (fun i s =>
    if i.flags / 2 != 0 || i.opnd != 0 then s.dmSelfEnd n
    else s.dmEnd n i))

/-- DM_RESERVED_OPCODE (07 R225). -/
def execDmReservedOpcode (n : Fin 32) (s : State) : Out :=
  .next (s.dmRun n (fun o => o == 0 || (decide (6 < o) && o != 0xF)) (fun _ s => s.dmSelfEnd n))

/-- A line of a MOVE returns and is written (07 R225, R227). -/
def State.moveLine (s : State) (n src dst left : Nat) : State :=
  let (r, s) := s.readPa (s.chanWho n) (128 * src) 128
  if r.res != AccRes.ok then s.dmNext n 0x80
  else if r.poison then s.dmNext n 0x81
  else
    let (w, s) := s.writePa (s.chanWho n) (128 * dst) r.bytes
    if w != AccRes.ok then s.dmNext n 0x80
    else if left ≤ 1 then s.dmNext n 1
    else s.setChan n { s.chan n with work := .move (src + 1) (dst + 1) (left - 1) }

/-- Source rows of an ENCODE return (07 R227, R230). -/
def State.encodeRows (s : State) (n left : Nat) : State :=
  match (s.chan n).enc with
  | none => s.dmNext n 0x83
  | some e =>
    match (takeRowsOf n e left).run s with
    | (.ok (e, k), s) => (s.setChan n { s.chan n with enc := some e }).encMore n (left - k)
    | (.error code, s) => s.dmDrop n code

/-- DM_READ_RETURN (07 R227). -/
def execDmReadReturn (n : Fin 32) (s : State) : Out :=
  .next (match (s.chan n).work with
    | .move src dst left => s.moveLine n src dst left
    | .encode left => s.encodeRows n left
    | _ => s)

/-- FOOTER_WRITE (02 R57): every other line of the oldest page being closed is visible; its footer line closes it. -/
def execFooterWrite (n : Fin 32) (s : State) : Out :=
  .next (match (s.chan n).closing.find? (fun c => !c.visible) with
    | none => s
    | some c =>
      let (r, s) := s.writePa (s.chanWho n) (c.pa + 65408) c.footer
      if r != AccRes.ok then s.closeRefused n c
      else s.setChan n { s.chan n with closing := (s.chan n).closing.map (fun x => if x == c then { c with visible := true } else x) })

/-- ENCODE_BLOCK_WRITE_BACK (07 R230): NEXT_ROW, HEAP_NEXT and PAGES in one masked write. -/
def execEncodeBlockWriteBack (n : Fin 32) (s : State) : Out :=
  .next (match (s.chan n).closing.find? (fun c => c.visible) with
    | none => s
    | some c =>
      let (r, s) := s.writePa (s.chanWho n) (c.blk + 144) (leBytes 8 c.nextRow ++ leBytes 8 c.heapNext ++ leBytes 8 c.pages)
      if r != AccRes.ok then s.closeRefused n c
      else s.setChan n { s.chan n with closing := (s.chan n).closing.erase c })

/-- PROGRAM_DONE (07 R223, R225): every write of the program is visible; DONE increases, and the MSI asked for is sent. -/
def execProgramDone (n : Fin 32) (s : State) : Out :=
  .next (match (s.chan n).ending with
    | none => s
    | some m =>
      if !s.chanDrained n then s
      else
        let s := s.setChan n { s.chan n with prog := none, enc := none, loops := [], badAt := [], ending := none }
        let s := (s.addF (Reg.DM_STATUS n) F.DM_STATUS_DONE 1).wr (Reg.DM_STATUS n) F.DM_STATUS_STATE 1
        if m then s.chanMsi n else s)

/-- CHANNEL_DRAIN_DONE (07 R221). -/
def execChannelDrainDone (n : Fin 32) (s : State) : Out :=
  .next (if !s.on (Reg.DM_CFG n) F.DM_CFG_VALID && s.chanState n == 2 && s.chanDrained n then
      s.wr (Reg.DM_STATUS n) F.DM_STATUS_STATE 0
    else s)

end Sys2Proof.Machine
end

