-- ==== Sys2Proof/Machine/RingCmds.lean ====
section
/-! DEFINITION. The ring manager's commands: doorbells, descriptors and completions (06 R197 to R218). -/

namespace Sys2Proof.Machine
open Sys2Proof

/-! ### Steps of a descriptor -/

/-- Do the work of a descriptor that may begin: it is fetched with an opcode of the command, ready and not begun. A
malformed one, or one an earlier check refused, ends (06 R203). -/
def State.begin (s : State) (ring seq : Nat) (ops : Nat → Bool) (f : Desc → State → State) : State :=
  match s.desc ring seq with
  | none => s
  | some d =>
    if !ops d.opc || !d.ready || d.begun || d.done then s
    else
      let d := { d with begun := true }
      match d.fail, descFault d.bytes (s.ringPort ring).isSome with
      | some _, _ => s.endDesc d none
      | none, some o => s.endDesc d (some (illegal 5 o))
      | none, none => f d (s.setDesc d)

/-- Go on with a descriptor whose work has begun and not ended. -/
def State.goOn (s : State) (ring seq op : Nat) (f : Desc → State → State) : State :=
  match s.desc ring seq with
  | none => s
  | some d => if d.opc = op ∧ d.begun = true ∧ d.done = false then f d s else s

/-- Run an access of the ring manager for a descriptor; a miss stalls it, an error ends it with DETAIL 0 (06 R211, R216). -/
def State.descDo (s : State) (d : Desc) (m : EM Unit) : State :=
  match m.run s with
  | (.ok _, s') => s'
  | (.error (.miss va w), _) =>
    (s.setDesc { d with stall := some ⟨s.tset d.ctx, va, w⟩ }).tfault d.ctx d.ring d.seq 255 va w
  | (.error (.err st a _), s') => s'.endDesc d (some ⟨st, 0, 0, a⟩)

/-! ### Runs (06 R204, R210; 04 R123; 05 R183) -/

/-- Apply a replacement to the descriptors of a run. -/
def applyRepl (cols outs : List (List Byte)) (r : List Byte) : Option (List (List Byte) × List (List Byte)) :=
  let i := leAt r 0 1 % 64
  let out := bitAt (leAt r 0 1) 7
  let v := sliceB r 8 8
  let offIn : Option Nat := match leAt r 1 1 with
    | 0 => some 8 | 1 => some 16 | 2 => some 24 | 3 => some 32 | 4 => some 40 | _ => none
  let offOut : Option Nat := match leAt r 1 1 with
    | 0 => some 8 | 2 => some 32 | 3 => some 40 | 4 => some 24 | 5 => some 16 | _ => none
  if out then
    match outs[i]?, offOut with
    | some b, some o => some (cols, setNth outs i (patchB b o v))
    | _, _ => none
  else
    match cols[i]?, offIn with
    | some b, some o => some (setNth cols i (patchB b o v), outs)
    | _, _ => none

/-- The descriptors of a run with its replacements, or the offset of the entry refused (notes/assumptions/34.md). -/
def replaced (d : Desc) (m : Img) : Except Nat (List (List Byte) × List (List Byte)) :=
  let n := d.arg 22 1
  let ent (i : Nat) : List Byte := sliceB d.bytes (48 + 16 * i) 16
  let r := (List.range n).foldl (fun (a : Except Nat (List (List Byte) × List (List Byte))) i =>
    match a with
    | .error e => .error e
    | .ok (c, o) =>
      match applyRepl c o (ent i) with
      | some x => .ok x
      | none => .error (48 + 16 * i + (if leAt (ent i) 0 1 % 64 <
          (if bitAt (leAt (ent i) 0 1) 7 then o else c).length then 1 else 0))) (.ok (m.cols, m.outs))
  match r with
  | .error e => .error e
  | .ok (c, o) =>
    match (List.range n).find? (fun i =>
      let k := leAt (ent i) 0 1 % 64
      if bitAt (leAt (ent i) 0 1) 7 then !outDOk (nthD o k []) else !colDOk (nthD c k []) false) with
    | some i => .error (56 + 16 * i)
    | none => .ok (c, o)

/-- Units of a pipeline's input (03 R74, 04 R131, 05 R170, 06 R205). -/
def unitsOf (m : Img) (p : PipeI) (cols : List (List Byte)) (inBytes : Nat) : Nat :=
  match p.ops.head? with
  | none => 0
  | some o =>
    let c := (m.colList o.a0 o.a1).head?.bind (fun e => colDOf (nthD cols e.1 []))
    match o.opc with
    | 1 => (c.map (fun c => ceilDiv (ceilDiv c.rows 1024) c.slots)).getD 0
    | 2 =>
      if bitAt o.opt 0 then max 1 (2 ^ (tDeclOf (m.decl o.a4)).linesLog2 / 512)
      else (c.map (fun c => ceilDiv c.rows (65536 / c.ty.width))).getD 0
    | 4 => ceilDiv (inBytes / max 1 (inlineRec m p o)) 1024
    | _ => 0

/-- Destination slices of a PARTITION that remain at the start of a run (05 R183). DEDUCED (notes/assumptions/42.md):
those of the list that are dispatchable and in the context's mask, as many as its quota, lowest first. -/
def State.destsOf (s : State) (c : Nat) (m : Img) (o : OpW) : List Nat :=
  let mask := leAt m.pool o.a4 8
  (below 36 (fun n => bitAt mask n && s.slcReady n && bitAt (s.rdW (Reg.CTX_SLICES c)).toNat n)).take
    (s.rd (Reg.CTX_CFG c) F.CTX_CFG_SLICE_QUOTA)

/-- Whether the inline input is a whole number of records for every INLINE_IN run. -/
def inlineWhole (m : Img) (mask inBytes : Nat) : Bool :=
  (m.masked mask).all (fun x => match x.2.ops.head? with
    | some o => o.opc != 4 || inBytes % inlineRec m x.2 o == 0
    | none => true)

/-- Start a RUN_PIPELINE (06 R204). -/
def State.startRun (s : State) (d : Desc) : State :=
  match d.slot with
  | none => s.endDesc d (some (illegal 0xF 16))
  | some k =>
    let m := s.img k
    let mask := d.arg 20 2
    let inBytes := d.arg 32 4
    let ready := below 36 (fun n => s.slcReady n && bitAt (s.rdW (Reg.CTX_SLICES d.ctx)).toNat n)
    let parts := (m.masked mask).flatMap (fun x => (x.2.ops.filter (fun o => o.opc == 0x38)).map (fun o =>
      (o.a2, s.destsOf d.ctx m o)))
    if mask / 2 ^ m.pipes.length != 0 then s.endDesc d (some (illegal 5 20))
    else if !inlineWhole m mask inBytes then s.endDesc d (some (illegal 5 32))
    else match replaced d m with
      | .error o => s.endDesc d (some (illegal 5 o))
      | .ok (cols, outs) =>
        if s.rd (Reg.CTX_CFG d.ctx) F.CTX_CFG_SLICE_QUOTA == 0 || ready.isEmpty then s.endDesc d (some ⟨0x32, 0, 0, 0⟩)
        else if parts.any (fun p => p.2.isEmpty) then s.endDesc d (some ⟨0x31, 0, 0, 0⟩)
        else
          let pipes := (m.masked mask).foldl (fun t x =>
            Tab.put PipeSt.start t x.1 { PipeSt.start with total := unitsOf m x.2 cols inBytes }) []
          let r : Run :=
            { slot := k, mask := mask, cols := cols, outs := outs, inBase := d.arg 24 8, inBytes := inBytes,
              outBase := d.arg 40 8, outBytes := d.arg 36 4, pipes := pipes, groups := [], heaps := [], inl := 0,
              rows := 0, partly := false, chunks := [], anchors := [], l0 := [],
              dests := parts.foldl (fun t p => Tab.put [] t p.1 p.2) [], xspill := [] }
          s.setDesc { d with run := some r }

/-! ### Images (04 R115, R116) -/

/-- Bytes of images in the store. -/
def State.storeBytes (s : State) : Nat := (s.eng.images.map (fun e => ((e.2.map (·.bytes.length)).getD 0))).sum

/-- Read the image of a local ring pair's LOAD_IMAGE. -/
def imageBytes (d : Desc) (n : Nat) : EM Unit := do
  let b ← vread ⟨none, d.ctx⟩ (d.arg 16 8) n
  doSt (fun s => s.setDesc { d with load := some b, stall := none })

/-- The image of a Finxis ring pair's LOAD_IMAGE, as its staging answers. -/
def State.stagedImage (s : State) (d : Desc) (r : RdRes) : State :=
  if r.res != AccRes.ok then s.endDesc d (some ⟨r.res.status, 0, 0, 0⟩)
  else if r.poison then s.endDesc d (some ⟨0x12, 0, 0, 0⟩)
  else s.setDesc { d with load := some r.bytes }

/-- The bytes of an image: from memory, or from the staging of a Finxis ring pair once it is all there. -/
def State.readImage (s : State) (d : Desc) : State :=
  let n := d.arg 24 4
  match s.ringPort d.ring with
  | none => s.descDo d (imageBytes d n)
  | some p =>
    if d.inp.length < n then s.setDesc { d with begun := false }
    else match (s.port p).stage d.ring d.seq with
      | none => s.endDesc d (some (illegal 5 24))
      | some g => (s.stageRead p g.base n).2.stagedImage d (s.stageRead p g.base n).1

/-- Validate an image that has been read and put it into the store (04 R115, R116, R148): the lowest free slot takes it
(DESIGN CHOICE, notes/assumptions/97.md). -/
def State.checkImage (s : State) (d : Desc) : State :=
  match d.load with
  | none => s
  | some b =>
    let s := match s.ringPort d.ring with
      | some p => s.stageFree p d.ring d.seq
      | none => s
    let tag := (imgOf b).tag
    match validate b (d.arg 24 4) (s.rd Reg.PKG_FEATURE F.PKG_FEATURE_LEVEL) with
    | some (sub, o) => s.endDesc { d with load := none, tag := tag } (some (illegal sub o))
    | none =>
      match (List.range 256).find? (fun k => (s.image k).isNone) with
      | none => s.endDesc { d with load := none, tag := tag } (some ⟨0x32, 0, 0, 0⟩)
      | some k =>
        if 8388608 < s.storeBytes + b.length then s.endDesc { d with load := none, tag := tag } (some ⟨0x32, 0, 0, 0⟩)
        else
          let c := (Tab.get 0 s.eng.loads k + 1) % 2 ^ 24
          let s := s.eng' (fun e => { e with
            images := Tab.put none e.images k (some ⟨d.ctx, c, b, true⟩)
            loads := Tab.put 0 e.loads k c })
          s.endDesc { d with load := none, tag := tag, r0 := k + 256 * c } none

/-! ### Translations (06 R215, R218) -/

/-- Remove entries from the shared cache and every slice TLB. -/
def State.dropEtes (s : State) (p : ETE → Bool) : State :=
  s.eng' (fun e => { e with
    etlb := e.etlb.keep (fun _ x => !p x)
    slices := e.slices.mapD Slice.reset (fun (x : Slice) => { x with tlb := x.tlb.keep (fun _ t => !p t) }) })

/-- Read an ETLB entry; it is kept with its parity bit. -/
def eteOf (b : List Byte) (o : Nat) : ETE :=
  let w := leAt b o 8
  let e : ETE := { set := bitsOf w 15 8, va := bitsOf w 56 16, k := bitsOf w 7 4, w := bitAt w 1, r := bitAt w 0,
                   pa := bitsOf (leAt b (o + 8) 8) 51 16, par := false }
  e.stored

/-- Put an entry into the shared cache; a full cache gives up the entry at its pointer. -/
def State.putEte (s : State) (x : ETE) : State :=
  let s := s.dropEtes (fun e => e.overlaps x.set x.va (2 ^ x.k))
  match (List.range 16384).find? (fun i => (s.eng.etlb.look i).isNone) with
  | some i => s.eng' (fun e => { e with etlb := Tab.ins e.etlb i x })
  | none =>
    let i := s.eng.etlbPtr
    let s := match s.eng.etlb.look i with
      | some old => s.dropEtes (fun e => e.stored == old.stored)
      | none => s
    s.eng' (fun e => { e with etlb := Tab.ins e.etlb i x, etlbPtr := (i + 1) % 16384 })

/-- Whether an entry covers a stalled request. -/
def ETE.frees (x : ETE) (st : Option Stall) : Bool :=
  match st with
  | some t => x.covers t.set (t.va / 65536)
  | none => false

/-- Requests stalled on pages an entry covers retry: the stall is over (06 R215). -/
def State.unstall (s : State) (x : ETE) : State :=
  s.eng' (fun e => { e with
    unres := e.unres.filter (fun u => !x.covers u.1 u.2)
    slices := e.slices.mapV (fun (l : Slice) => { l with task := l.task.map (fun (t : Task) =>
      if x.frees t.stall then { t with stall := none } else t) })
    descs := e.descs.map (fun d => if x.frees d.stall then { d with stall := none, begun := d.opc != 2 && d.begun } else d) })

/-! ### The match array (05 R188, 06 R207) -/

/-- Read match row `i` of a MATCH_WRITE. -/
def mrowOf (b : List Byte) (i c : Nat) : Nat × MRow :=
  let o := 16 + 48 * i
  let r : MRow := ⟨leAt b o 16, leAt b (o + 16) 16, leAt b (o + 36) 1, leAt b (o + 32) 4, c, bitAt (leAt b (o + 37) 1) 0, false⟩
  (leAt b (o + 38) 2, { r with par := r.parity })

/-- Write match rows in every slice in service of the context's mask, unless another context owns one. -/
def State.matchWrite (s : State) (d : Desc) : State :=
  let rows := (List.range (d.arg 2 1)).map (fun i => mrowOf d.bytes i d.ctx)
  let ss := below 36 (fun n => bitAt (s.rdW (Reg.CTX_SLICES d.ctx)).toNat n && s.slcInService n)
  if ss.any (fun n => rows.any (fun r =>
      let old := Tab.get MRow.off (s.slice n).rows r.1
      old.valid && old.owner != d.ctx)) then s.endDesc d (some ⟨0x11, 0, 0, 0⟩)
  else
    let s := ss.foldl (fun s n =>
      let x := s.slice n
      s.setSlice n { x with rows := rows.foldl (fun t r => Tab.put MRow.off t r.1 r.2) x.rows }) s
    s.endDesc d none

/-! ### Commands -/

/-- An invalidation reaches the watch cache: the line is to be read again (06 R199). -/
def execDoorbellInvalidation (ln : Nat) (s : State) : Out := .next (s.watchInval ln)

/-- NOP, and every descriptor with a reserved opcode, which is malformed (06 R203). -/
def execNopDesc (ring : Fin 4096) (seq : Nat) (s : State) : Out :=
  .next (s.begin ring seq (fun o => o == 0 || decide (9 ≤ o)) (fun d s => s.endDesc d none))

/-- RUN_PIPELINE (06 R204). -/
def execRunPipeline (ring : Fin 4096) (seq : Nat) (s : State) : Out :=
  .next (s.begin ring seq (· == 1) (fun d s => s.startRun d))

/-- LOAD_IMAGE reads the image (04 R115); the read of a Finxis ring pair begins once the payload is there. -/
def execLoadImage (ring : Fin 4096) (seq : Nat) (s : State) : Out :=
  .next (s.begin ring seq (· == 2) (fun d s => s.readImage d))

/-- The image read is validated and loaded (04 R115, R116, R148). -/
def execImageValidation (ring : Fin 4096) (seq : Nat) (s : State) : Out :=
  .next (s.goOn ring seq 2 (fun d s => s.checkImage d))

/-- UNLOAD_IMAGE: its image has been unrunnable since the descriptor started (04 R117, 06 R206). -/
def execUnloadImage (ring : Fin 4096) (seq : Nat) (s : State) : Out :=
  .next (s.begin ring seq (· == 3) (fun d s => match d.slot with
    | none => s.endDesc d (some (illegal 0xF 16))
    | some _ => s))

/-- Every earlier run of the image has completed: its slot is released (04 R117). -/
def execUnloadTakesEffect (ring : Fin 4096) (seq : Nat) (s : State) : Out :=
  .next (s.goOn ring seq 3 (fun d s =>
    if (d.slot.map (fun k => !s.eng.descs.any (fun x => x.opc == 1 && x.slot == some k && decide (x.ord < d.ord)))).getD false then
      (s.eng' (fun e => { e with images := Tab.put none e.images (d.slot.getD 0) none })).endDesc d none
    else s))

/-- FENCE: nothing later of its ring pair is fetched until it completes (06 R208). -/
def execFenceDesc (ring : Fin 4096) (seq : Nat) (s : State) : Out := .next (s.begin ring seq (· == 4) (fun _ s => s))

/-- Every earlier descriptor in the FENCE's scope has completed (06 R208). -/
def execFenceComplete (ring : Fin 4096) (seq : Nat) (s : State) : Out :=
  .next (s.goOn ring seq 4 (fun d s =>
    if s.eng.descs.any (fun x => decide (x.ord < d.ord) &&
        (if d.arg 16 1 = 0 then x.ring == ring else x.ctx == d.ctx)) then s
    else s.endDesc d none))

/-- Every earlier descriptor of the ring pair has completed: the work of one with FLAGS.FENCE may begin (06 R201). -/
def execFencedWorkBegin (ring : Fin 4096) (seq : Nat) (s : State) : Out :=
  .next (match s.desc ring seq with
    | none => s
    | some d =>
      if (s.ringDescs ring).any (fun x => decide (x.ord < d.ord)) then s
      else (s.setDesc { d with ready := true }).fetchMore ring)

/-- Targets of an ABORT (06 R209). -/
def State.abortTargets (s : State) (d : Desc) : List Desc :=
  s.eng.descs.filter (fun x => match d.arg 16 1 with
    | 0 =>
      let t := d.arg 20 4
      let k := (d.seq + 2 ^ 32 - t) % 2 ^ 32
      x.ring == d.ring && x.seq == t && decide (1 ≤ k) && decide (k < 2 ^ 31)
    | 1 => x.ring == d.ring && decide (x.ord < d.ord)
    | _ => x.ctx == d.ctx && decide (x.ord < d.ord))

/-- ABORT ends its targets (06 R209). -/
def execAbort (ring : Fin 4096) (seq : Nat) (s : State) : Out :=
  .next (s.begin ring seq (· == 5) (fun d s =>
    let ts := s.abortTargets d
    let hit := ts.filter (fun x => (x.opc == 1 || x.opc == 2) && !x.done && x.fail.isNone)
    let s := hit.foldl (fun s x => s.abortDesc x) s
    s.setDesc { d with targets := ts.map (fun x => (x.ring, x.seq)), r0 := hit.length }))

/-- Every target of the ABORT has completed (06 R209). -/
def execAbortComplete (ring : Fin 4096) (seq : Nat) (s : State) : Out :=
  .next (s.goOn ring seq 5 (fun d s =>
    if d.targets.any (fun t => (s.desc t.1 t.2).isSome) then s else s.endDesc d none))

/-- Whether a ring pair may change translations (06 R215). -/
def State.ringPriv (s : State) (n : Nat) : Bool := s.on (Reg.RING_CFG n) F.RING_CFG_PRIV

/-- ETLB_LOAD (06 R215). -/
def execEtlbLoad (ring : Fin 4096) (seq : Nat) (s : State) : Out :=
  .next (s.begin ring seq (· == 6) (fun d s =>
    if !s.ringPriv ring then s.endDesc d (some ⟨0x11, 0, 0, 0⟩)
    else
      let es := (List.range (d.arg 2 1)).map (fun i => eteOf d.bytes (16 + 16 * i))
      let s := es.foldl (fun s x => (s.putEte x).unstall x) s
      s.endDesc d none))

/-- The entries an ETLB_INVALIDATE removes: those that overlap its pages, those of its set, or every one (06 R218). -/
def Desc.dropsEte (d : Desc) (e : ETE) : Bool :=
  match d.arg 17 1 with
  | 0 => e.overlaps (d.arg 16 1) (d.arg 24 8 / 65536) (d.arg 32 4)
  | 1 => e.set == d.arg 16 1
  | _ => true

/-- ETLB_INVALIDATE removes its entries (06 R218); accesses in flight are remembered. -/
def execEtlbInvalidate (ring : Fin 4096) (seq : Nat) (s : State) : Out :=
  .next (s.begin ring seq (· == 7) (fun d s =>
    if !s.ringPriv ring then s.endDesc d (some ⟨0x11, 0, 0, 0⟩)
    else
      let s := s.dropEtes d.dropsEte
      let waits := s.eng.bops.map (fun b => (0, b.id)) ++ s.eng.pages.map (fun p => (1, p.task)) ++
        s.eng.corr.map (fun m => (2, m.ln)) ++ s.eng.pages.map (fun p => (3, p.pa / 128))
      s.setDesc { d with targets := waits }))

/-- Every access translated through a removed entry has ended: home operations, page reads, correction write-backs, and
those a page still open then brought about (06 R218). -/
def execEtlbInvalidateComplete (ring : Fin 4096) (seq : Nat) (s : State) : Out :=
  .next (s.goOn ring seq 7 (fun d s =>
    if d.targets.any (fun t => if t.1 = 0 then s.eng.bops.any (fun b => b.id == t.2)
        else if t.1 = 1 then s.eng.pages.any (fun p => p.task == t.2)
        else if t.1 = 2 then s.eng.corr.any (fun m => m.ln == t.2)
        else s.eng.corr.any (fun m => m.ln / 512 == t.2 / 512)) then s
    else s.endDesc d none))

/-- MATCH_WRITE (06 R207). -/
def execMatchWrite (ring : Fin 4096) (seq : Nat) (s : State) : Out :=
  .next (s.begin ring seq (· == 8) (fun d s => s.matchWrite d))

/-- A stalled request times out (06 R217). -/
def execTranslationFaultTimeout (t : StallRef) (s : State) : Out :=
  .next (match t with
    | .slice n =>
      match (s.slice n).task.bind (·.stall) with
      | some st => s.failTask n 0x10 st.va 0xFFFF
      | none => s
    | .desc ring seq =>
      match s.desc ring seq with
      | some d =>
        match d.stall with
        | some st =>
          -- the inline input of a run, or the image of a load
          if d.run.isSome then s.fixRun ring seq ⟨0x10, 0, 0, st.va⟩ else s.endDesc d (some ⟨0x10, 0, 0, st.va⟩)
        | none => s
      | none => s)

end Sys2Proof.Machine
end

