-- ==== Sys2Proof/Machine/Commit.lean ====
section
/-! DEFINITION. Commits: the checks of *Agreement groups* (15 R390, R393), the blocks that apply and what each block's apply
brings about (15 R391, R394, and the rules named at each). -/

namespace Sys2Proof.Machine
open Sys2Proof

/-! ### Checks

Each check answers the offsets of the registers that fail it; `s` is the state before the commit, `m` the same state with
the staged bits merged. Which register of a group is named is notes/assumptions/60.md. -/

/-- Offsets listed between two bounds. -/
def State.listed (s : State) (lo hi : Nat) : List Nat := s.regs.keys.filter (fun k => decide (lo ≤ k) && decide (k < hi))

/-- The offsets of a list that satisfy a test. -/
def failing (l : List Nat) (p : Nat → Bool) : List Nat := l.filter p

/-- Reserved codes in a staged register (06 R193): a value outside a field's codes, and EIID 0 of an enabled MSI. -/
def State.badCode (m : State) (off : Nat) : Bool :=
  let v := (m.rdW off).toNat
  (match regAt off with
   | some r => r.fields.any (fun f =>
      let x := bitsOf v f.fld.hi f.fld.lo
      decide (x < f.okLo) || decide (f.okHi < x))
   | none => false) ||
  (decide (0x40200000 ≤ off) && decide (off < 0x40240000) && off % 0x40 == 0x20 && m.on off F.RING_MSI_EN &&
    m.rd off F.RING_MSI_EIID == 0) ||
  (decide (0x50001000 ≤ off) && decide (off < 0x50002000) && off % 0x80 == 0x18 && m.on off F.DM_MSI_EN &&
    m.rd off F.DM_MSI_EIID == 0)

/-- Ring pair of an offset. -/
def ringOf (off : Nat) : Option Nat :=
  if 0x40200000 ≤ off ∧ off < 0x40240000 then some ((off - 0x40200000) / 0x40) else none

/-- Changes to a ring pair in use, and enables of one that is draining (06 R196), or that attached role refuses (17 R431). -/
def badRing (s m : State) (off : Nat) : Bool :=
  match ringOf off with
  | none => false
  | some n =>
    let c := Reg.RING_CFG n
    let valid := F.RING_CFG_VALID
    let draining := s.rd (Reg.RING_STATUS n) F.RING_STATUS_STATE == 3
    let differs := if off = c then setBits (s.rdW c).toNat 63 63 0 != setBits (m.rdW c).toNat 63 63 0 else s.rdW off != m.rdW off
    ((s.on c valid || draining) && differs) || (off == c && draining && m.on c valid) ||
    (off == c && s.attached && !s.on c valid && m.on c valid && m.rd c F.RING_CFG_ATTACH == 0 &&
      m.ctxWorld (m.rd c F.RING_CFG_CTX) == .n)

/-- Changes to a channel in use (07 R221). -/
def badDm (s m : State) (off : Nat) : Bool :=
  match dmOf off with
  | none => false
  | some n =>
    let c := Reg.DM_CFG n
    s.on c F.DM_CFG_VALID &&
    (if off = c then s.chanWho n != m.chanWho n
     else if off = Reg.DM_TABLE n ∨ off = Reg.DM_DB n then s.rdW off != m.rdW off else false)

/-- First GiB and GiB after the last of a CXL window. -/
def State.winSpan (s : State) (w : Nat) : Nat × Nat :=
  (s.rd (Reg.CXLW_BASE w) F.CXLW_BASE_BASE, s.rd (Reg.CXLW_LIMIT w) F.CXLW_LIMIT_LIMIT + 1)

/-- CXL windows that break 09 R272; a window whose LIMIT is below its BASE has no size and is refused. -/
def State.badWindow (m : State) (w : Nat) : Bool :=
  m.on (Reg.CXLW_BASE w) F.CXLW_BASE_VALID &&
  (let (a, b) := m.winSpan w
   let ways := 2 ^ m.rd (Reg.CXLW_BASE w) F.CXLW_BASE_WAYS_LOG2
   decide (b ≤ a) || decide (a < 0x2000) || decide (0x10000 < b) || (b - a) % ways != 0 ||
   (List.range ways).any (fun i => decide (m.linkWidth (bitsOf (m.rdW (Reg.CXLW_LINKS w)).toNat (8 * i + 7) (8 * i)) < 8)) ||
   (List.range 16).any (fun v => v != w && m.on (Reg.CXLW_BASE v) F.CXLW_BASE_VALID &&
     (let (c, d) := m.winSpan v
      decide (a < d) && decide (c < b))))

/-- Region of an offset of the firewall. -/
def regionOf (off : Nat) : Nat := (off - Reg.FW_BASE 0) / 0x20

/-- Regions that break 09 R279. -/
def badRegion (s m : State) (r : Nat) : List Nat :=
  let base (t : State) (r : Nat) : Nat := t.rd (Reg.FW_BASE r) F.FW_BASE_BASE
  let lim (t : State) (r : Nat) : Nat := t.rd (Reg.FW_LIMIT r) F.FW_LIMIT_LIMIT
  let valid (t : State) (r : Nat) : Bool := t.on (Reg.FW_BASE r) F.FW_BASE_VALID
  let fixed := s.on (Reg.FW_ATTR r) F.FW_ATTR_LOCK || s.on (Reg.FW_ATTR r) F.FW_ATTR_FILLING
  (if valid m r && ((m.listed (Reg.FW_BASE 0) (Reg.FW_BASE 256)).map regionOf).any (fun q =>
      q != r && valid m q && decide (base m r ≤ lim m q) && decide (base m q ≤ lim m r)) then [Reg.FW_BASE r] else []) ++
  (if lim m r < base m r then [Reg.FW_LIMIT r] else []) ++
  (if fixed then failing [Reg.FW_BASE r, Reg.FW_LIMIT r, Reg.FW_ATTR r, Reg.FW_SHARE r] (fun o => s.rdW o != m.rdW o) else [])

/-- L3 locks that break 10 R299, or hold ways outside their partition's mask (14 R377). -/
def State.badLock (m : State) (t : Nat) : List Nat :=
  let o := Reg.L3_LOCK t
  let ways := m.rd o F.L3_LOCK_WAYS
  (if m.on o F.L3_LOCK_EN && (ways == 0 || ways &&& m.l3Mask (m.rd o F.L3_LOCK_PID) != ways) then [o] else []) ++
  (if m.rd (Reg.L3_LOCK_LIMIT t) F.L3_LOCK_LIMIT_ADDR < m.rd (Reg.L3_LOCK_BASE t) F.L3_LOCK_BASE_ADDR then [Reg.L3_LOCK_LIMIT t]
   else [])

/-- Table entries that chain (11 R320): an entry with REMAP 1 whose SUBST has REMAP 1 in the same table of that router. -/
def State.badEntry (m : State) (off : Nat) : Bool :=
  match stopOf off with
  | some (s, o) =>
    if 0x100 ≤ o ∧ o < 0x500 then
      let entry (d : Nat) : Nat := if o < 0x300 then Reg.RTR_TTA s d else Reg.RTR_TTB s d
      m.on off F.RTR_TTA_REMAP && m.on (entry (m.rd off F.RTR_TTA_SUBST)) F.RTR_TTA_REMAP
    else false
  | none => false

/-- OLD_PENDING (11 R321): packets and messages injected under the epoch other than CURRENT and not yet ejected, saturating. -/
def State.oldPending (s : State) : Nat :=
  let old := 1 - s.rd (Reg.RTR_NET evtStop) F.RTR_NET_CURRENT
  min 0xFFFFFF (Tab.get 0 s.pkts old + (s.net.filter (fun m => m.epoch == old)).length)

/-- Staged entries of a table that must not be written (11 R321). -/
def badTable (s : State) (off : Nat) : Bool :=
  match stopOf off with
  | some (t, o) =>
    if 0x100 ≤ o ∧ o < 0x500 then
      s.oldPending != 0 ||
      s.rd (Reg.RTR_NET t) F.RTR_NET_CURRENT == (if o < 0x300 then 0 else 1)
    else false
  | none => false

/-- Routers whose CURRENT differs from the first router's (11 R321). -/
def State.badEpoch (m : State) : List Nat :=
  let c := m.rd (Reg.RTR_NET 0) F.RTR_NET_CURRENT
  (below 64 (fun t => m.rd (Reg.RTR_NET t) F.RTR_NET_CURRENT != c)).map Reg.RTR_NET

/-- Whether a partition would be named in a world it does not belong to (14 R366). -/
def State.wrongWorld (m : State) (pid world : Nat) : Bool := worldBit (m.pidWorld pid) != world

/-- Registers that would name a partition in another world than its own (14 R366). -/
def State.badWorld (m : State) (off : Nat) : Bool :=
  if 0x40100000 ≤ off ∧ off < 0x40140000 ∧ off % 0x40 = 0 then
    m.on off F.CTX_CFG_VALID && m.wrongWorld (m.rd off F.CTX_CFG_PID) (m.rd off F.CTX_CFG_WORLD)
  else if 0x50001000 ≤ off ∧ off < 0x50002000 ∧ off % 0x80 = 0 then
    m.on off F.DM_CFG_VALID && m.wrongWorld (m.rd off F.DM_CFG_PID) (m.rd off F.DM_CFG_WORLD)
  else if 0x60000000 ≤ off ∧ off < 0x60400000 ∧ off % 0x100000 = 0 then
    m.on off F.FX_CFG_EN && m.wrongWorld (m.rd off F.FX_CFG_PID) (m.rd off F.FX_CFG_WORLD)
  else if 0x80004000 ≤ off ∧ off < 0x80005000 ∧ off % 0x20 = 0 then
    m.on off F.ISO_LNK_CFG_VALID && m.wrongWorld (m.rd off F.ISO_LNK_CFG_PID) (m.rd off F.ISO_LNK_CFG_WORLD)
  else if 0x80005000 ≤ off ∧ off < Reg.ISO_HART 216 then m.wrongWorld (m.rd off F.ISO_HART_PID) (m.rd off F.ISO_HART_WORLD)
  else if 0x80001000 ≤ off ∧ off < 0x80003000 ∧ off % 0x20 = 0x10 then
    m.on (off - 0x10) F.FW_BASE_VALID && m.wrongWorld (m.rd off F.FW_ATTR_PID) (m.rd off F.FW_ATTR_WORLD)
  else match stopOf off with
    | some (_, 0x4000) => m.on off F.L3_LOCK_EN && m.wrongWorld (m.rd off F.L3_LOCK_PID) (m.rd off F.L3_LOCK_WORLD)
    | _ => false

/-- Links that break 14 R374; an aperture whose limit lies below its base is none and is refused. -/
def badLink (s m : State) (j : Nat) : List Nat :=
  let c := Reg.ISO_LNK_CFG j
  let lo (j : Nat) : Nat := m.rd (Reg.ISO_LNK_APBASE j) F.ISO_LNK_APBASE_ADDR
  let hi (j : Nat) : Nat := m.rd (Reg.ISO_LNK_APLIMIT j) F.ISO_LNK_APLIMIT_ADDR
  if !m.linkValid j then []
  else
    (if s.linkWidth j = 0 then [c] else []) ++
    (if lo j < 0x4000700000000 / 2 ^ 20 ∨ 0xEFFFFFFF < hi j ∨ hi j < lo j ∨
        (List.range 112).any (fun k => k != j && m.linkValid k && decide (lo j ≤ hi k) && decide (lo k ≤ hi j)) then
      [Reg.ISO_LNK_APBASE j] else [])

/-- Way masks of a partition. -/
def State.waysL3 (s : State) (p : Nat) : Nat := s.rd (Reg.ISO_WAYS p) F.ISO_WAYS_L3
/-- Directory way mask of a partition. -/
def State.waysDir (s : State) (p : Nat) : Nat := s.rd (Reg.ISO_WAYS p) F.ISO_WAYS_DIR

/-- Sealed partitions whose masks break 14 R377. -/
def State.badSealed (m : State) : List Nat :=
  (below 64 m.sealedP).flatMap (fun p =>
    (if m.waysL3 p == 0 || m.waysDir p == 0 then [Reg.ISO_WAYS p] else []) ++
    (List.range 64).flatMap (fun q =>
      if q != p && (m.waysL3 p &&& m.waysL3 q != 0 || m.waysDir p &&& m.waysDir q != 0) then
        [Reg.ISO_WAYS (min p q)] else []))

/-- Contexts of sealed partitions that share a slice with a valid context of another partition (14 R377). -/
def State.badShare (m : State) : List Nat :=
  if !m.anySealed then []
  else
    let cs := ((m.listed (Reg.CTX_CFG 0) (Reg.CTX_CFG 4096)).filter (fun o => o % 0x40 == 8)).map
      (fun o => (o - Reg.CTX_CFG 0) / 0x40)
    let pid (c : Nat) : Nat := m.rd (Reg.CTX_CFG c) F.CTX_CFG_PID
    let mask (c : Nat) : Nat := m.rd (Reg.CTX_SLICES c) F.CTX_SLICES_MASK
    (cs.filter (fun c => m.sealedP (pid c) && cs.any (fun d => m.ctxValid d && pid d != pid c && mask c &&& mask d != 0))).map
      Reg.CTX_SLICES

/-- Every failing register of a commit. -/
def State.checkFails (s : State) (t : Txn) : List Nat :=
  let m := s.mergeRegs t.staged
  let st := t.staged.keys
  let rs := ((m.listed (Reg.FW_BASE 0) (Reg.FW_BASE 256)).map regionOf).eraseDups
  failing st m.badCode ++ failing st (badRing s m) ++ failing st (badDm s m) ++
    (below 16 m.badWindow).map Reg.CXLW_BASE ++ rs.flatMap (badRegion s m) ++
    (((m.regs.keys.filterMap stopOf).filter (fun p => decide (0x4000 ≤ p.2) && decide (p.2 ≤ 0x4010))).map Prod.fst).eraseDups.flatMap
      m.badLock ++
    failing m.regs.keys m.badEntry ++ failing st (badTable s) ++ m.badEpoch ++
    failing ((m.regs.keys ++ rs.map Reg.FW_ATTR).eraseDups) m.badWorld ++
    (((m.listed (Reg.ISO_LNK_CFG 0) (Reg.ISO_LNK_CFG 112)).map (fun o => (o - Reg.ISO_LNK_CFG 0) / 0x20)).eraseDups).flatMap
      (badLink s m) ++
    m.badSealed ++ m.badShare

/-! ### Blocks -/

/-- Blocks that hold staged fields of a transaction. -/
def State.blocksOf (s : State) (t : Txn) : List Block :=
  ((t.staged.keys.flatMap blocksAt).eraseDups).filter (fun b => !s.blockGone b)

/-- The staged fields of a block. -/
def Txn.part (t : Txn) (b : Block) : Tab (Nat × Nat) := t.staged.keep (fun o _ => (blocksAt o).contains b)

/-! ### Owners of event sources (19 R475) -/

/-- Event sources whose owner follows the registers of a block. -/
def sourcesOf (b : Block) : List Nat :=
  match b with
  | .home t => [97 + t]
  | .dm n => [261 + n]
  | .fx p => [293 + p, 297 + p]
  | .other => below 392 evtSelectable
  | _ => []

/-- Sources of a list whose owner changed from `s` to `t` leave their old APLIC. -/
def State.ownersFrom (t s : State) (l : List Nat) : State :=
  l.foldl (fun u k => if s.evtOwner k = t.evtOwner k then u else u.ownerChanged k) t

/-! ### Ring manager (06 R195 to R198, R216) -/

/-- A context is disabled (06 R195): its ring pairs stop fetching. -/
def State.ctxDisable (s : State) (c : Nat) : State :=
  let s := ((s.listed (Reg.RING_CFG 0) (Reg.RING_CFG 4096)).filter (fun o => o % 0x40 == Reg.RING_CFG 0 % 0x40 &&
    s.rd o F.RING_CFG_CTX == c)).foldl (fun s o => s.fxForget ((o - Reg.RING_CFG 0) / 0x40)) s
  let s := (s.eng.descs.filter (fun d => d.ctx == c && !d.done)).foldl (fun s d => s.abortDesc d) s
  let s := s.eng' (fun e => { e with
    images := e.images.mapV (fun v => v.map (fun (m : Image) => if m.ctx == c then { m with live := false } else m))
    slices := e.slices.mapD Slice.reset (fun (x : Slice) => { x with rows := x.rows.keep (fun _ (r : MRow) => r.owner != c) }) })
  (s.dropHeld c).freeImages

/-- A ring pair is disabled (06 R196, R200, 08 R251): CAUSE returns to 0 (DESIGN CHOICE, notes/assumptions/112.md), it drains, and records it held in error are discarded, which a Finxis
ring pair reports. -/
def State.ringDisable (s : State) (n : Nat) : State :=
  let k := (s.ringSt n).held
  let s := s.setRing n { s.ringSt n with held := 0 }
  let s := (s.wrs (Reg.RING_STATUS n) [(F.RING_STATUS_STATE, 3), (F.RING_STATUS_CAUSE, 0)]).fxForget n
  let s := match s.ringPort n with
    | some p => if k = 0 then s else (s.fxRingError p n 0 k).fxDropped p k
    | none => s
  s.drained n

/-- A ring pair is enabled (06 R196, R198): its counts restart, its doorbell line is watched and its slot read. -/
def State.ringEnable (s : State) (n : Nat) : State :=
  let s := (s.rstW (Reg.RING_HEAD n)).wrs (Reg.RING_STATUS n) [(F.RING_STATUS_STATE, 1), (F.RING_STATUS_CAUSE, 0)]
  let s := s.setRing n RingSt.reset
  match s.ringPort n with
  | some _ => s.fxForget n
  | none =>
    if !s.on (Reg.RING_DB n) F.RING_DB_EN then s
    else
      let ln := s.rd (Reg.RING_DB n) F.RING_DB_LINE
      if s.watchFull ln then s.ringError n 4
      else if s.watch.contains ln then s.readSlot n else s.watchLine ln

/-- The ring manager applies: contexts and ring pairs enabled and disabled, fault rings changed. -/
def State.applyRings (s : State) (l : Tab (Nat × Nat)) : State :=
  let t := s.mergeRegs l
  let ctxs := ((l.keys.filter (fun o => decide (Reg.CTX_CFG 0 ≤ o) && decide (o < Reg.CTX_CFG 4096))).map
    (fun o => (o - Reg.CTX_CFG 0) / 0x40)).eraseDups
  let rings := (l.keys.filterMap ringOf).eraseDups
  let was (n : Nat) : Bool := s.on (Reg.RING_CFG n) F.RING_CFG_VALID
  let now (n : Nat) : Bool := t.on (Reg.RING_CFG n) F.RING_CFG_VALID
  let u := (ctxs.filter (fun c => s.ctxValid c && !t.ctxValid c)).foldl (fun u c => u.ctxDisable c) t
  let u := (ctxs.filter (fun c => (!s.ctxValid c && t.ctxValid c) ||
      s.rdW (Reg.CTX_FAULT_RING c) != t.rdW (Reg.CTX_FAULT_RING c))).foldl
    (fun u c => (u.setCtx c { u.ctxSt c with faults := 0 }).freeFaults c) u
  let u := (rings.filter (fun n => was n && !now n)).foldl (fun u n => u.ringDisable n) u
  ((rings.filter (fun n => !was n && now n)).foldl (fun u n => u.ringEnable n) u).fetchAll

/-! ### The other blocks -/

/-- A slice applies (03 R72): an idle slice goes out of dispatch at once, or returns to it. -/
def State.applySlice (s : State) (n : Nat) (l : Tab (Nat × Nat)) : State :=
  let t := s.mergeRegs l
  if s.on (Reg.SLC_CTRL n) F.SLC_CTRL_OFFLINE == t.on (Reg.SLC_CTRL n) F.SLC_CTRL_OFFLINE then t
  else t.wr (Reg.SLC_STATUS n) F.SLC_STATUS_STATE (if t.on (Reg.SLC_CTRL n) F.SLC_CTRL_OFFLINE then 3 else 0)

/-- A channel applies (07 R221, R222). One set VALID again while it drains starts afresh (DESIGN CHOICE,
notes/assumptions/113.md). -/
def State.applyDm (s : State) (n : Nat) (l : Tab (Nat × Nat)) : State :=
  let t := s.mergeRegs l
  let c := Reg.DM_CFG n
  let st := Reg.DM_STATUS n
  if !s.on c F.DM_CFG_VALID && t.on c F.DM_CFG_VALID then
    let t := (t.setChan n DmCh.reset).wrs st
      [(F.DM_STATUS_DONE, 0), (F.DM_STATUS_BAD, 0), (F.DM_STATUS_CAUSE, 0), (F.DM_STATUS_STATE, 1)]
    if !t.on (Reg.DM_DB n) F.DM_DB_EN then t
    else if t.watchFull (t.rd (Reg.DM_DB n) F.DM_DB_LINE) then t.chanError n 4
    else if t.watch.contains (t.rd (Reg.DM_DB n) F.DM_DB_LINE) then t.readChanSlot n
    else t.watchLine (t.rd (Reg.DM_DB n) F.DM_DB_LINE)
  else if s.on c F.DM_CFG_VALID && !t.on c F.DM_CFG_VALID then
    let ch := t.chan n
    let ran := ch.prog.isSome
    let t := if ran && ch.ending.isNone then t.dmStatus n 0x86 else t
    let busy := ran || !(t.chan n).closing.isEmpty
    (t.setChan n { t.chan n with prog := none, enc := none, loops := [], work := .none, ending := none }).wrs st
      [(F.DM_STATUS_STATE, if busy then 2 else 0), (F.DM_STATUS_CAUSE, 0)]
  else t

/-- A Finxis port applies (08 R236, R412): EN written as 1 takes a port that is DOWN to DETECT, whose first session is then
a new one; EN 0 takes it DOWN. -/
def State.applyFx (s : State) (p : Nat) (l : Tab (Nat × Nat)) : State :=
  let t := s.mergeRegs l
  let c := Reg.FX_CFG p
  let wrote := l.any (fun e => e.1 == c && bitAt e.2.2 63)
  if wrote && t.on c F.FX_CFG_EN && t.fxState p == 0 then
    t.fxDetect p
  else if !t.on c F.FX_CFG_EN then t.finxisDown p 0 else t

/-- The lines outside the range in ways that a commit locks (10 R299). -/
def State.lockOut (s : State) (k : Nat) (l : Tab (Nat × Nat)) : Tab L3Line :=
  let t := s.mergeRegs l
  let newly := t.lockedWays k - (t.lockedWays k &&& s.lockedWays k)
  let lo := t.rd (Reg.L3_LOCK_BASE k) F.L3_LOCK_BASE_ADDR
  let hi := t.rd (Reg.L3_LOCK_LIMIT k) F.L3_LOCK_LIMIT_ADDR
  (s.home k).l3.filter (fun e => newly.testBit (e.1 % 24) && (decide (e.2.ln < lo) || decide (hi < e.2.ln)))

/-- A home, its L3 and directory apply (10 R299): lines outside the range leave the ways that become locked. -/
def State.applyHome (s : State) (k : Nat) (l : Tab (Nat × Nat)) : State :=
  let t := s.mergeRegs l
  let out := s.lockOut k l
  let t := out.foldl (fun t e => if e.2.dirty then t.memWr e.2.ln e.2.data none else t) t
  t.setHome k { t.home k with l3 := (t.home k).l3.filter (fun e => !out.contains e) }

/-- A cluster's caches and harts are re-admitted (16 R410): the caches are invalid, and the harts start as after a core
reset. -/
def State.readmitCores (s : State) (c : Nat) : State :=
  let s := (s.setCluster c Cluster.empty).wr (Reg.PWR_UNIT c) F.PWR_UNIT_STATE 0
  (List.range 6).foldl (fun s k => s.startHart (6 * c + k)) s

/-- A slice is re-admitted (16 R410): its aggregation cache and match array empty, idle in byte-checked mode. -/
def State.readmitSlice (s : State) (c : Nat) : State :=
  ((s.setSlice c Slice.reset).wrW (Reg.SLC_STATUS c) 0).wr (Reg.PWR_UNIT (36 + c)) F.PWR_UNIT_STATE 0

/-- A cluster is re-admitted with its slice (16 R410). -/
def State.readmitCluster (s : State) (c : Nat) : State := (s.readmitSlice c).readmitCores c

/-- The cluster at a stop. -/
def clusterAt (t : Nat) : Option Nat := (List.range 36).find? (fun c => nthD clusterStops c 0 == t)

/-- Whether a cluster's fence bits are clear. -/
def State.unfenced (s : State) (c : Nat) : Bool :=
  !s.fenced (nthD clusterStops c 0) 2 && !s.fenced (nthD clusterStops c 0) 3

/-- A cluster's stop has had fence bits cleared, `gone`: of an active die the cluster, or its slice, or both are re-admitted, as
the bits are; the clusters of a die that was powered and tested for it are, with the last of its three stops, and the die is
active again (16 R411). -/
def State.readmitAt (s : State) (t gone : Nat) : State :=
  match clusterAt t with
  | none => s
  | some c =>
    let d := c / 3
    if s.dieActive d then
      let s := if gone.testBit 3 then s.readmitSlice c else s
      if gone.testBit 2 then s.readmitCores c else s
    else if s.unfenced c && s.pkg.readied.contains d && [3 * d, 3 * d + 1, 3 * d + 2].all s.unfenced then
      let s := (s.setDieState d 1).pk (fun p => { p with readied := p.readied.filter (· != d) })
      [3 * d, 3 * d + 1, 3 * d + 2].foldl (fun s c => s.readmitCluster c) s
    else s

/-- The substitute home named for a stop in the table of a router that goes out of use. -/
def State.substOf (s : State) (t : Nat) : Option Nat :=
  let e := if s.on (Reg.RTR_NET t) F.RTR_NET_CURRENT then Reg.RTR_TTB t t else Reg.RTR_TTA t t
  if s.on e F.RTR_TTA_REMAP then some (s.rd e F.RTR_TTA_SUBST) else none

/-- A router and the endpoint of its stop apply (11 R321, R326): bits of AGENTS that clear take DRAINED with them, and a cluster
or slice among them is re-admitted. -/
def State.applyRouter (s : State) (k : Nat) (l : Tab (Nat × Nat)) : State :=
  let t := s.mergeRegs l
  let o := Reg.RTR_FENCE k
  let old := s.rd o F.RTR_FENCE_AGENTS
  let new := t.rd o F.RTR_FENCE_AGENTS
  let t := t.wr o F.RTR_FENCE_DRAINED (t.rd o F.RTR_FENCE_DRAINED &&& new)
  let gone := old - (old &&& new)
  if gone &&& 0xC != 0 then t.readmitAt k gone else t

/-- A commit that passes its checks begins to apply: for each stop whose L3 slice it re-admits, the substitute that the
outgoing table names holds the requests of the share that moves back, and the slice those of sources that have switched (15
R394). -/
def State.beginShares (s : State) (l : Tab (Nat × Nat)) : State :=
  let t := s.mergeRegs l
  (below 64 (fun k => (s.rd (Reg.RTR_FENCE k) F.RTR_FENCE_AGENTS &&& 3) &&&
      (15 - (t.rd (Reg.RTR_FENCE k) F.RTR_FENCE_AGENTS &&& 15)) != 0)).foldl (fun s k =>
    match s.substOf k with
    | some q =>
      let hold (s : State) (h : Nat) : State := s.setHome h { s.home h with holds := (s.home h).holds ++ [⟨k, q, 3, 0, false⟩] }
      if q = k then s else hold (hold s q) k
    | none => s) s

/-- Whether a partition's fills may use L3 way `w`. -/
def State.wayL3 (s : State) (w p : Nat) : Bool := (s.l3Mask p).testBit w
/-- Whether a partition's directory entries may use way `w`. -/
def State.wayDir (s : State) (w p : Nat) : Bool := (s.dirMask p).testBit w

/-- The L3 ways, and 2^24 times the directory ways, whose permitted partitions differ between two states (14 R377). -/
def waysChanged (s t : State) : Nat :=
  (below 24 (fun w => (List.range 64).any (fun p => s.wayL3 w p != t.wayL3 w p))).foldl (fun a w => a + 2 ^ w) 0 +
  (below 16 (fun w => (List.range 64).any (fun p => s.wayDir w p != t.wayDir w p))).foldl (fun a w => a + 2 ^ (24 + w)) 0

/-- Every other block applies: CXL windows that change move local-home lines to other homes (09 R280); isolation registers
start the sealing sweep (14 R377); a sample buffer that changes restarts its counts (21 R505). -/
def State.applyOther (s : State) (l : Tab (Nat × Nat)) : State :=
  let mv := s.cxlMoves l
  let t := ((s.flushRanges mv).mergeRegs l).holdRanges mv
  let touches (lo hi : Nat) : Bool := l.any (fun e => decide (lo ≤ e.1) && decide (e.1 < hi))
  let t := (below 2 (fun w => s.rdW (Reg.PMON_SBUF w) != t.rdW (Reg.PMON_SBUF w))).foldl
    (fun t w => t.rstW (Reg.PMON_STAIL w)) t
  if touches Reg.ISO_SEALED (Reg.ISO_SEALED + 1) || touches (Reg.ISO_WAYS 0) (Reg.ISO_WAYS 64) then
    let w := waysChanged s t
    if w = 0 then t else t.holdAll 0 (2 ^ 45) 4 w
  else t

/-- A block applies all its staged fields together (15 R391). -/
def State.applyBlock (s : State) (b : Block) (l : Tab (Nat × Nat)) : State :=
  let t := match b with
    | .router k => s.applyRouter k l
    | .home k => s.applyHome k l
    | .firewall f => s.applyFirewall f l
    | .ringmgr => s.applyRings l
    | .slice n => s.applySlice n l
    | .dm n => s.applyDm n l
    | .fx p => s.applyFx p l
    | .other => s.applyOther l
  t.ownersFrom s (sourcesOf b)

end Sys2Proof.Machine
end

