-- ==== Sys2Proof/Machine/CtuCmds.lean ====
section
/-! DEFINITION. Commands of configuration transactions (15 R386 to R394), and of the sweeps, fills and fences that commits
bring about (09 R280, R281, 10 R300, 11 R326). -/

namespace Sys2Proof.Machine
open Sys2Proof

/-! ### Transactions -/

/-- A committed or implicit transaction begins checking, or waits its turn (15 R392, R393). -/
def State.ctuEnqueue (s : State) (t : Txn) : State :=
  let c := s.ctu
  s.setCtu (if c.active.isNone && c.waiting.isEmpty then { c with active := some t, applying := false }
    else { c with waiting := c.waiting ++ [t] })

/-- BEGIN (15 R387): opens the world's transaction, or ends BUSY. -/
def State.ctuBegin (s : State) (w : World) (tag : Nat) : State :=
  if s.ctu.busy w then s.ctuResult w false 4
  else (s.setCtu (s.ctu.setOpen w (some ⟨w, tag % 65536, false, [], false⟩))).wr (Reg.CTU_STATUS (worldBit w))
    F.CTU_STATUS_TAG (tag % 65536)

/-- COMMIT (15 R388, R390): with the open tag. -/
def State.ctuCommit (s : State) (w : World) (tag : Nat) : State :=
  match s.ctu.openOf w with
  | none => s.ctuResult w false 5
  | some t =>
    if t.tag ≠ tag % 65536 then s.ctuResult w false 5
    else
      let s := s.setCtu (s.ctu.setOpen w none)
      if t.full then s.ctuResult w false 6
      else if t.staged.isEmpty then s.ctuResult w false 1
      else s.ctuEnqueue t

/-- The committed transaction of a world that is checking or waits its turn (STATE 0b10, 15 R387). -/
def Ctu.committed (c : Ctu) (w : World) : Option Txn :=
  let mine (t : Txn) : Bool := t.world == w && !t.implicit
  match c.active with
  | some t => if mine t && !c.applying then some t else c.waiting.find? mine
  | none => c.waiting.find? mine

/-- Take a committed transaction out of the CTU. -/
def Ctu.discard (c : Ctu) (t : Txn) : Ctu :=
  if c.active == some t && !c.applying then { c with active := none } else { c with waiting := c.waiting.erase t }

/-- ROLLBACK (15 R389): with the open tag, of a transaction that accepts staged writes, is checking or waits its turn. One
that is applying cannot fail (R391), so the command is ignored (notes/assumptions/125.md). -/
def State.ctuRollback (s : State) (w : World) (tag : Nat) : State :=
  match s.ctu.openOf w with
  | some t =>
    if t.tag ≠ tag % 65536 then s.ctuResult w false 5
    else (s.setCtu (s.ctu.setOpen w none)).ctuResult w false 7
  | none =>
    match s.ctu.committed w with
    | some t =>
      if t.tag ≠ tag % 65536 then s.ctuResult w false 5 else (s.setCtu (s.ctu.discard t)).ctuResult w false 7
    | none => s.ctuResult w false 5

/-- Whether an identity reaches a world's register set (15 R386). -/
def ctuReach (who : Ident) (w : World) : Bool := who == monitor || who.world == w

/-- A command written to CTU{w}_CMD by an identity (15 R386). -/
def State.ctuCmd (s : State) (who : Ident) (w : World) (f : State → State) : State :=
  if ctuReach who w then (f s).answer (.ok 0) else s.refuseReg who (Reg.CTU_CMD (worldBit w))

/-- CTU_BEGIN (15 R387). -/
def execCtuBegin (who : Ident) (w : World) (tag : Nat) (s : State) : Out :=
  .next (s.ctuCmd who w (fun s => s.ctuBegin w tag))

/-- CTU_COMMIT (15 R390). -/
def execCtuCommit (who : Ident) (w : World) (tag : Nat) (s : State) : Out :=
  .next (s.ctuCmd who w (fun s => s.ctuCommit w tag))

/-- CTU_ROLLBACK (15 R389). -/
def execCtuRollback (who : Ident) (w : World) (tag : Nat) (s : State) : Out :=
  .next (s.ctuCmd who w (fun s => s.ctuRollback w tag))

/-- CTU_TIMEOUT (15 R389): the open transaction is discarded. -/
def execCtuTimeout (w : World) (s : State) : Out :=
  if (s.ctu.openOf w).isSome then .next ((s.setCtu (s.ctu.setOpen w none)).ctuResult w false 3) else .next s

/-- COMMIT_TURN (15 R392): the oldest waiting transaction begins checking. -/
def execCommitTurn (s : State) : Out :=
  match s.ctu.active, s.ctu.waiting with
  | none, t :: ts => .next (s.setCtu { s.ctu with active := some t, applying := false, waiting := ts })
  | _, _ => .next s

/-- The transaction in the CTU's hands ends with a result. -/
def State.ctuEnd (s : State) (t : Txn) (r : Nat) : State :=
  (s.setCtu { s.ctu with active := none, applying := false, todo := [], sent := [], fw := [] }).ctuResult t.world t.implicit r

/-- Least of a list of offsets. -/
def leastOf : List Nat → Nat
  | [] => 0
  | x :: xs => xs.foldl min x

/-- CTU_CHECK_DONE (15 R390). -/
def execCtuCheckDone (s : State) : Out :=
  match s.ctu.active with
  | some t =>
    if s.ctu.applying then .next s
    else
      let fails := s.checkFails t
      if fails.isEmpty then
        .next ((s.beginShares t.staged).setCtu { s.ctu with applying := true, todo := s.blocksOf t, sent := [], fw := [] })
      else .next ((s.wr (Reg.CTU_FAIL (worldBit t.world)) F.CTU_FAIL_OFFSET (leastOf fails / 8)).ctuEnd t 2)
  | none => .next s

/-- CTU_APPLY (15 R391): a block with staged fields is told. -/
def execCtuApply (b : Block) (s : State) : Out :=
  if s.ctu.applying ∧ s.ctu.todo.contains b = true then
    .next (s.setCtu { s.ctu with todo := s.ctu.todo.filter (· != b), sent := s.ctu.sent ++ [b] })
  else .next s

/-- Whether a block is at a quiet point (15 R391): an engine slice between tasks; a home, and the blocks whose fields move
lines to other homes, with no transaction in service on an affected line; any other block between two commands. -/
def State.quiet (s : State) (b : Block) : Bool :=
  let part : Tab (Nat × Nat) := s.ctu.active.elim [] (fun t => t.part b)
  match b with
  | .slice n => !s.sliceBusy n
  | .home k => (s.lockOut k part).all (fun e => ((s.home k).txn e.2.ln).isNone)
  | .firewall f => !(List.range 30).all (f.val :: s.ctu.fw).contains || (s.fwMoves part).all s.rangeQuiet
  | .other => (s.cxlMoves part).all s.rangeQuiet
  | _ => true

/-- BLOCK_APPLY (15 R391): the block puts all its staged fields in force together. -/
def execBlockApply (b : Block) (s : State) : Out :=
  match s.ctu.active with
  | some t =>
    if s.ctu.applying ∧ s.ctu.sent.contains b = true ∧ s.quiet b = true then
      .next ((s.setCtu { s.ctu with sent := s.ctu.sent.filter (· != b) }).applyBlock b (t.part b))
    else .next s
  | none => .next s

/-- Whether any home still sweeps for a commit, or holds a share that moves back. -/
def State.commitSweeps (s : State) : Bool :=
  s.homes.any (fun e => e.2.holds.any (fun r => decide (2 ≤ r.kind) && !r.done))

/-- CTU_APPLY_COMPLETE (15 R391); in NIGHT the commit also updates the save list (18 R453). -/
def execCtuApplyComplete (s : State) : Out :=
  match s.ctu.active with
  | some t =>
    if s.ctu.applying ∧ s.ctu.todo.isEmpty ∧ s.ctu.sent.isEmpty ∧ s.commitSweeps = false then
      .next ((if s.mode = MD.night then s.updateSave t.staged else s).ctuEnd t 1)
    else .next s
  | none => .next s

/-! ### Sweeps, fills and fences -/

/-- Lines of a home's L3 and directory that satisfy a test. -/
def State.homeLines (s : State) (t : Nat) (p : Nat → Bool) : List Nat :=
  (((s.home t).l3.map (fun e => e.2.ln) ++ (s.home t).dir.map Prod.fst).filter p).eraseDups

/-- What a home's sweep of a range does to what it finds: a hart's clean or flush, and the ways whose partitions change. The
lines of a change of homes went when the change applied. -/
def State.sweepHome (s : State) (t : Nat) (r : Hold) : State :=
  if r.kind = 0 then (s.homeLines t (fun ln => decide (r.lo ≤ ln) && decide (ln ≤ r.hi))).foldl (fun s ln => s.cleanLine (s.lineWho ln) ln) s
  else if r.kind = 1 then
    (s.homeLines t (fun ln => decide (r.lo ≤ ln) && decide (ln ≤ r.hi))).foldl (fun s ln => s.flushLine ln) s
  else if r.kind = 4 then
    let dirs := ((s.home t).dir.filter (fun e => r.ways.testBit (24 + e.2.way))).map Prod.fst
    let s := dirs.foldl (fun s ln => s.flushLine ln) s
    let l3 := ((s.home t).l3.filter (fun e => r.ways.testBit (e.1 % 24))).map (fun e => e.2.ln)
    l3.foldl (fun s ln => (s.l3Clean t ln none).l3Take t ln) s
  else s

/-- Set the holds of a home. -/
def State.setHolds (s : State) (t : Nat) (l : List Hold) : State := s.setHome t { s.home t with holds := l }

/-- SWEEP_DONE (10 R300, 09 R280, 14 R377): a home finishes the oldest sweep it has; the requests that waited on its range
proceed. -/
def execSweepDone (t : Fin 64) (s : State) : Out :=
  match (s.home t).holds.find? (fun r => !r.done && r.kind != 3) with
  | some r =>
    if r.kind ≤ 1 ∧ s.homeQuiet t (fun ln => decide (r.lo ≤ ln) && decide (ln ≤ r.hi)) = false then .next s
    else
    let s := s.sweepHome t r
    let hs := (s.home t).holds
    let hs := if r.kind ≤ 1 then hs.map (fun x => if x == r then { x with done := true } else x) else hs.erase r
    .next ((s.setHolds t hs).reAdmit t)
  | none => .next s

/-- Whether every router has applied the commit that is applying. -/
def State.routersDone (s : State) : Bool :=
  (s.ctu.todo ++ s.ctu.sent).all (fun b => match b with
    | .router _ => false
    | _ => true)

/-- SHARE_HANDBACK (15 R394): the substitute home has swept the share of stop `k`, whose lines it has in service no more, and
every source has switched; it passes the requests it holds to `k`, in order. -/
def execShareHandback (k : Fin 64) (s : State) : Out :=
  match (s.home k).holds.find? (fun r => r.kind == 3 && r.lo == k.val) with
  | some r =>
    let q := r.hi
    let mine (ln : Nat) : Bool := hashHome (128 * ln) == k.val
    if !(s.routersDone && s.homeQuiet q mine) then .next s
    else
    let s := (s.homeLines q mine).foldl (fun s ln => s.flushLine ln) s
    let moved := (s.home q).waitq.filter (fun y => mine y.ln)
    let s := s.setHome q { s.home q with
      waitq := (s.home q).waitq.filter (fun y => !mine y.ln), holds := (s.home q).holds.filter (· != r) }
    let s := s.setHome k { s.home k with
      waitq := moved ++ (s.home k).waitq, holds := (s.home k).holds.filter (· != r) }
    .next ((s.clusters.keys.foldl (fun (s : State) c => s.evictMore c) s).reAdmit k |>.reAdmit q)
  | none => .next s

/-- ZERO_FILL_DONE (09 R281): every granule of the region is written. -/
def execZeroFillDone (r : Fin 256) (s : State) : Out :=
  if s.on (Reg.FW_ATTR r) F.FW_ATTR_FILLING then .next ((s.wr (Reg.FW_ATTR r) F.FW_ATTR_FILLING 0).raise 385) else .next s

/-- Whether an agent holds no message it has accepted, and has nothing in injection (11 R326). -/
def State.agentIdle (s : State) (t a : Nat) : Bool :=
  s.fabric.part.all (fun p => !(p.1 == 320 + t && p.2.srcAgent == a)) &&
  (match a with
   | 0 => (s.home t).txns.isEmpty && (s.home t).waitq.isEmpty
   | 2 => ((stopFunc t).1 != 1) || s.clusterDrained (stopFunc t).2
   | 4 => s.wq.all (fun w => !(s.paKind (128 * w.ln) == .dram && s.servingStop (128 * w.ln) == t))
   | 6 | 7 => s.wq.all (fun w => match s.paKind (128 * w.ln) with
     | .cxl j => !(s.servingStop (128 * w.ln) == t && 6 + j / 8 % 2 == a)
     | _ => true)
   | _ => true)

/-- AGENT_DRAINED (11 R326): a fenced agent has completed what it had accepted. -/
def execAgentDrained (t : Fin 64) (a : Fin 16) (s : State) : Out :=
  if s.fenced t a && s.agentIdle t a then .next (s.fence t [a] true) else .next s

end Sys2Proof.Machine
end

