-- ==== Sys2Proof/Machine/RegAccess.lean ====
section
/-! DEFINITION. Reading and writing registers of the window: widths and blocks (00 R7, 01 R22), who reaches what (14 R371,
R372), the field types (00 R8), staging (15 R388, R393), the APLICs (12 R337, 19 R470 to R476), and what a write of a
register brings about beyond its fields. -/

namespace Sys2Proof.Machine
open Sys2Proof

/-! ### Blocks and reach -/

/-- Whether a block of the table *Register block offsets* covers an offset (01 R22). -/
def regCovered (off : Nat) : Bool :=
  decide (off < 0x5000000) ||
  (decide (0x10000000 ≤ off) && decide (off < 0x14000000)) ||
  (decide (0x20000000 ≤ off) && decide (off < 0x21000000)) ||
  (decide (0x28000000 ≤ off) && decide (off < 0x28E00000)) ||
  (decide (0x30000000 ≤ off) && decide (off < 0x32400000)) ||
  (decide (0x40000000 ≤ off) && decide (off < 0x41000000)) ||
  (decide (0x50000000 ≤ off) && decide (off < 0x51000000)) ||
  (decide (0x60000000 ≤ off) && decide (off < 0x60400000)) ||
  (decide (0x80000000 ≤ off) && decide (off < 0x81000000)) ||
  (decide (0x90000000 ≤ off) && decide (off < 0x91000000)) ||
  (decide (0xA0000000 ≤ off) && decide (off < 0xA1000000))

/-- Width and alignment of an access (00 R7). -/
def regAligned (off size : Nat) : Bool := (size == 8 && off % 8 == 0) || (size == 4 && off % 4 == 0)

/-- World and offset within an APLIC of a window offset (12 R337; the extent of an APLIC is the AIA's,
notes/assumptions/70.md). -/
def aplicAt (off : Nat) : Option (World × Nat) :=
  if 0x4400000 ≤ off ∧ off < 0x4404000 then some (.s, off - 0x4400000)
  else if 0x4410000 ≤ off ∧ off < 0x4414000 then some (.n, off - 0x4410000)
  else none

/-- Whether an offset is in a counter range of a unit that partitions share, and whether it is a filter or control
register there (21 R500). -/
inductive CtrKind where
  | none
  /-- a counter -/
  | counter
  /-- a filter or STAT_CTRL -/
  | filter
  deriving DecidableEq, Repr

/-- The counter range an offset lies in: its kind, and whether its unit is shared. -/
def ctrKind (off : Nat) : CtrKind × Bool :=
  let o := off % 0x100000
  let k : CtrKind := if o % 0x1000 = 0x800 then .filter else .counter
  match stopOf off with
  | some (_, o) =>
    if o = 0x20 then (.filter, true)
    else if 0x1000 ≤ o ∧ o < 0x1800 then (.counter, true)
    else if 0x4800 ≤ o ∧ o < 0x5000 then (if o = 0x4800 then .filter else .counter, true)
    else (.none, false)
  | none =>
    if 0x800 ≤ o ∧ o < 0x1000 then
      if 0x20000000 ≤ off ∧ off < 0x28E00000 then (k, true)
      else if 0x30000000 ≤ off ∧ off < 0x32400000 then (k, false)
      else if 0x60000000 ≤ off ∧ off < 0x60400000 then (k, true)
      else (.none, false)
    else (.none, false)

/-- The register access group of an offset (14 *Register access groups*), for offsets that no other rule governs. -/
def regGroup (off : Nat) : Nat :=
  if off < 0x3000000 then 0
  else if off < 0x4000000 then 1
  else if off < 0x5000000 then 2
  else if off < 0x14000000 then 3
  else if off < 0x21000000 then 4
  else if off < 0x30000000 then 5
  else if off < 0x40000000 then 6
  else if off < 0x41000000 then 7
  else if off < 0x51000000 then 8
  else if off < 0x70000000 then 9
  else 10

/-- Whether an identity is granted a group (14 R372): PID p in its own world with bit p of ISO_RACC{k}. -/
def State.grouped (s : State) (k : Nat) (who : Ident) : Bool := s.pidWorld who.pid == who.world && s.racc k who.pid

/-- Whether an identity reaches mailbox set 0 (20 R484, 17 R431). -/
def State.mboxN (s : State) (who : Ident) : Bool :=
  !s.attached && who.world == .n && who.pid != 0 && bitAt (s.rdW Reg.MBX_ACCESS).toNat who.pid

/-- Whether an identity reaches an offset (14 R371, R372, 16 R397, 17 R422, 18 R448, 19 R467, 20 R484, 21 R500); `user`
marks an access from below supervisor privilege. -/
def State.regReach (s : State) (who : Ident) (off : Nat) (write user : Bool) : Bool :=
  let mon := who == monitor
  let o := off / 8 * 8
  if o = Reg.PKG_MODE_REQ 0 ∨ o = Reg.PWR_REQ 0 ∨ o = Reg.RCC_RST_REQ 0 then mon
  else if o = Reg.PKG_MODE_REQ 1 ∨ o = Reg.PWR_REQ 1 then s.reqReach 1 1 who
  else if o = Reg.RCC_RST_REQ 1 then s.reqReach 0 1 who
  else if off < 0x1000000 then true
  else if off < 0x2000000 then
    (if 0x1000000 ≤ off ∧ off < 0x1000020 then ctuReach who .n
     else if 0x1000100 ≤ off ∧ off < 0x1000120 then ctuReach who .s else true)
  else if Reg.RCC_BKP 0 ≤ o ∧ o < Reg.RCC_BKP 8 then mon
  else if (fileAt off).isSome then true
  else if 0xA0000000 ≤ off then
    (if o = Reg.PMC_TRIP then mon || (!write && s.mboxN who)
     else if o = Reg.MBX_ACCESS then mon
     else if off < 0xA0004000 then s.mboxN who
     else mon)
  else if 0x80000000 ≤ off ∧ off < 0x81000000 then mon
  else if 0x4400000 ≤ off ∧ off < 0x4404000 then mon
  else if 0x4600800 ≤ off ∧ off < 0x4600900 then mon
  else if 0x90000140 ≤ off ∧ off < 0x90000180 then mon
  else match ctrKind off with
    | (.none, _) => mon || s.grouped (regGroup off) who
    | (k, shared) =>
      let closed := shared && s.anySealed && (if k == .counter then !write else write)
      !(user && k == .counter) && (mon || (!closed && s.grouped 10 who))

/-! ### APLICs -/

/-- Whether a source is implemented in a world's APLIC (19 R470). -/
def State.srcHere (s : State) (w : World) (k : Nat) : Bool := evtExists k && s.evtOwner k == w

/-- The rectified input of a source: a level source's condition. -/
def State.srcInput (s : State) (k : Nat) : Bool := evtIsLevel k && s.evtCond k

/-- A write of sourcecfg (19 R471). -/
def State.writeSourcecfg (s : State) (w : World) (k v : Nat) : State :=
  if !s.srcHere w k then s
  else
    let m := v % 8
    let m := if (m = 4 ∧ evtIsLevel k = false) ∨ (m = 6 ∧ evtIsLevel k = true) then m else 0
    let a := s.aplic w
    let x := a.get k
    if m = 0 then s.setAplic w (a.put k AplicSrc.off)
    else
      let s := s.setAplic w (a.put k { x with sm := m, pend := x.pend || (m == 6 && x.sm == 0 && s.srcInput k) })
      s.aplicDeliver w k

/-- Set or clear the pending bit of a source by a write: a level source becomes pending only while its input is high. -/
def State.writePend (s : State) (w : World) (k : Nat) (on : Bool) : State :=
  let a := s.aplic w
  let x := a.get k
  if !s.srcHere w k || x.sm == 0 then s
  else if on then
    if x.sm == 6 && !s.srcInput k then s else (s.setAplic w (a.put k { x with pend := true })).aplicDeliver w k
  else s.setAplic w (a.put k { x with pend := false })

/-- Set or clear the enable bit of a source. -/
def State.writeEn (s : State) (w : World) (k : Nat) (on : Bool) : State :=
  let a := s.aplic w
  let x := a.get k
  if !s.srcHere w k || x.sm == 0 then s
  else (s.setAplic w (a.put k { x with en := on })).aplicDeliver w k

/-- Apply an update for each bit set in a 32-bit word that names sources 32·i to 32·i + 31. -/
def eachBit (i v : Nat) (f : Nat → State → State) (s : State) : State :=
  (below 32 (fun j => v.testBit j)).foldl (fun s j => f (32 * i + j) s) s

/-- A 32-bit write to an APLIC, at the offsets of the Advanced Interrupt Architecture (notes/assumptions/70.md). -/
def State.aplicWrite (s : State) (w : World) (o v : Nat) : State :=
  let i := o % 0x80 / 4
  if o = 0 then
    let s := s.setAplic w { s.aplic w with ie := v.testBit 8 }
    ((s.aplic w).src.keys).foldl (fun s k => s.aplicDeliver w k) s
  else if 4 ≤ o ∧ o < 0x1000 then s.writeSourcecfg w (o / 4) v
  else if 0x1C00 ≤ o ∧ o < 0x1C80 then eachBit i v (fun k s => s.writePend w k true) s
  else if o = 0x1CDC then s.writePend w v true
  else if 0x1D00 ≤ o ∧ o < 0x1D80 then eachBit i v (fun k s => s.writePend w k false) s
  else if o = 0x1DDC then s.writePend w v false
  else if 0x1E00 ≤ o ∧ o < 0x1E80 then eachBit i v (fun k s => s.writeEn w k true) s
  else if o = 0x1EDC then s.writeEn w v true
  else if 0x1F00 ≤ o ∧ o < 0x1F80 then eachBit i v (fun k s => s.writeEn w k false) s
  else if o = 0x1FDC then s.writeEn w v false
  else if o = 0x2000 then s.writePend w v true
  else if o = 0x3000 then s.aplicSend w v
  else if 0x3004 ≤ o ∧ o < 0x4000 then
    let k := (o - 0x3000) / 4
    let a := s.aplic w
    let x := a.get k
    if !s.srcHere w k || x.sm == 0 then s else s.setAplic w (a.put k { x with target := v % 2 ^ 32 })
  else s

/-- A word of one bit for each of sources 32·i to 32·i + 31. -/
def bitWord (i : Nat) (p : Nat → Bool) : Nat := (below 32 (fun j => p (32 * i + j))).foldl (fun a j => a + 2 ^ j) 0

/-- A 32-bit read of an APLIC (notes/assumptions/70.md). Its MSI address configuration is fixed (19 R476). -/
def State.aplicRead (s : State) (w : World) (o : Nat) : Nat :=
  let a := s.aplic w
  let i := o % 0x80 / 4
  if o = 0 then 0x80000004 + 256 * b2n a.ie
  else if 4 ≤ o ∧ o < 0x1000 then (if s.srcHere w (o / 4) then (a.get (o / 4)).sm else 0)
  else if o = 0x1BC0 then 0xFFF04000
  else if o = 0x1BC4 then 0x80008000 + 0xFF
  else if o = 0x1BC8 then 0xFFF04800
  else if o = 0x1BCC then 0x300000 + 0xFF
  else if 0x1C00 ≤ o ∧ o < 0x1C80 then bitWord i (fun k => (a.get k).pend)
  else if 0x1D00 ≤ o ∧ o < 0x1D80 then bitWord i (fun k => s.srcHere w k && (a.get k).sm != 0 && s.srcInput k)
  else if 0x1E00 ≤ o ∧ o < 0x1E80 then bitWord i (fun k => (a.get k).en)
  else if 0x3004 ≤ o ∧ o < 0x4000 then (a.get ((o - 0x3000) / 4)).target
  else 0

/-! ### Reads -/

/-- Bits of a word of contexts 64·i to 64·i + 63 that an identity of world N sees (19 R474). -/
def State.ctxBits (s : State) (who : Ident) (i v : Nat) : Nat :=
  if who.world = .s then v
  else (below 64 (fun j => v.testBit j && s.ctxWorld (64 * i + j) == .n)).foldl (fun a j => a + 2 ^ j) 0

/-- The active value of a register: of EVT_WORLD{i}, the owner in force of each of its sources (19 R473). -/
def State.inForce (s : State) (o : Nat) : Nat :=
  if Reg.EVT_WORLD 0 ≤ o ∧ o < Reg.EVT_WORLD 9 then s.evtWorldRead ((o - Reg.EVT_WORLD 0) / 8) else (s.rdW o).toNat

/-- The value a 64-bit read of a register returns to an identity, for registers that show what the block holds elsewhere and
for the others their active value. -/
def State.regValue (s : State) (who : Ident) (o : Nat) : Nat :=
  let v := (s.rdW o).toNat
  if Reg.EVT_WORLD 0 ≤ o ∧ o < Reg.EVT_WORLD 9 then s.inForce o
  else if Reg.EVT_RERR 0 ≤ o ∧ o < Reg.EVT_RERR 64 then s.ctxBits who ((o - Reg.EVT_RERR 0) / 8) v
  else if Reg.EVT_TFLT 0 ≤ o ∧ o < Reg.EVT_TFLT 64 then s.ctxBits who ((o - Reg.EVT_TFLT 0) / 8) v
  else if o = Reg.PWR_SAVE then setBits v 14 0 s.saveCount
  else if 0x30000000 ≤ o ∧ o < 0x32400000 ∧ o % 0x100000 = 0 then
    let n := (o - 0x30000000) / 0x100000
    if !s.dieActive (n / 3) then 4
    else if s.rd (Reg.PWR_UNIT (36 + n)) F.PWR_UNIT_STATE == 3 ||
        s.on (Reg.SLC_CTRL n) F.SLC_CTRL_OFFLINE && (s.slice n).task.isNone then setBits v 2 0 3 else v
  else if 0xA0000000 ≤ o ∧ o < 0xA0008000 ∧ 0x2000 ≤ o % 0x4000 then
    (if s.rd (Reg.MBX_STATUS ((o - 0xA0000000) / 0x4000)) F.MBX_STATUS_STATE = 1 then 0 else v)
  else match stopOf o with
    | some (_, 0) => setBits v 47 24 s.oldPending
    | some (t, 0x4020) => setBits (setBits 0 47 32 (s.lockedValid t)) 0 0 (b2n ((s.home t).holds.any Hold.isSweep))
    | _ => v

/-- A read of the register window: the value, or an error response. -/
def State.regRead (s : State) (who : Ident) (off size : Nat) (user : Bool) : Option Nat × State :=
  if !regAligned off size || !regCovered off then (none, s)
  else if !s.regReach who off false user then (none, s.viol 1 who (windowBase + off))
  else if (fileAt off).isSome then (some 0, s)
  else match aplicAt off with
    | some (w, o) =>
      (some (if size = 8 then s.aplicRead w o + 2 ^ 32 * s.aplicRead w (o + 4) else s.aplicRead w o), s)
    | none =>
      let v := s.regValue who (off / 8 * 8)
      (some (if size = 8 then v else v / 2 ^ (8 * (off % 8)) % 2 ^ 32), s)

/-! ### Writes -/

/-- Stage bits of a register for a world's open transaction, or form an implicit transaction (15 R388, R393); none when 64
implicit ones of the world wait. -/
def State.stage (s : State) (w : World) (o v m : Nat) : Option State :=
  match s.ctu.openOf w with
  | some t =>
    let put (t : Txn) : State := s.setCtu (s.ctu.setOpen w (some t))
    if t.full then some s
    else match Tab.look t.staged o with
      | some (v0, m0) => some (put { t with staged := Tab.ins t.staged o (maskNat v0 v m, m0 ||| m) })
      | none =>
        if 4096 ≤ t.staged.length then some (put { t with full := true })
        else some (put { t with staged := Tab.ins t.staged o (v &&& m, m) })
  | none =>
    if 64 ≤ (s.ctu.waiting.filter (fun t => t.world == w && t.implicit)).length then none
    else some (s.ctuEnqueue ⟨w, 0, true, [(o, (v &&& m, m))], false⟩)
where
  /-- replace the bits of a mask -/
  maskNat (a b m : Nat) : Nat := (a - (a &&& m)) ||| (b &&& m)

/-- Mask of a field. -/
def Fld.mask (f : Fld) : Nat := (2 ^ (f.hi + 1 - f.lo) - 1) * 2 ^ f.lo

/-- A field of a register with a write to it: the value the field would take, and the bits written. -/
structure FldWrite where
  fd : FieldDef
  new : Nat
  raw : Nat
  /-- mask of the bits written, in place -/
  mask : Nat
  deriving DecidableEq, Repr

/-- The fields a write touches. -/
def State.touched (s : State) (r : RegDef) (o v m : Nat) : List FldWrite :=
  let old := s.inForce o
  r.fields.filterMap (fun f =>
    let fm := f.fld.mask &&& m
    if fm = 0 then none
    else
      let merged := (old - (old &&& fm)) ||| (v &&& fm)
      some ⟨f, bitsOf merged f.fld.hi f.fld.lo, bitsOf (v &&& fm) f.fld.hi f.fld.lo, fm⟩)

/-- Whether a write to a field would change it, for the record of 14 R365: a value other than the active one. -/
def State.changes (s : State) (o : Nat) (x : FldWrite) : Bool :=
  match x.fd.ty with
  | .rw | .rws | .rwl => x.new != bitsOf (s.inForce o) x.fd.fld.hi x.fd.fld.lo
  | .w1c | .w1s | .wo => x.raw != 0
  | .ro => false

/-- Put a written field in force by its type (00 R8); staged fields are dealt with apart. -/
def State.writeField (s : State) (o : Nat) (locked : Bool) (x : FldWrite) : State :=
  match x.fd.ty with
  | .rw => if x.fd.okLo ≤ x.new ∧ x.new ≤ x.fd.okHi then s.wr o x.fd.fld x.new else s
  | .rwl => if !locked ∧ x.fd.okLo ≤ x.new ∧ x.new ≤ x.fd.okHi then s.wr o x.fd.fld x.new else s
  | .w1c => s.wr o x.fd.fld (s.rd o x.fd.fld - (s.rd o x.fd.fld &&& x.raw))
  | .w1s => s.wr o x.fd.fld (s.rd o x.fd.fld ||| x.raw)
  | _ => s

/-- Bits of a register that staged writes reach: selectable bits of EVT_WORLD (19 R473); none of a link's registers once
its LOCK is 1 (14 R374, notes/assumptions/61.md), and none of ISO_OWN of a number no unit has (14 R378). -/
def State.stageMask (s : State) (o : Nat) : Nat :=
  if Reg.EVT_WORLD 0 ≤ o ∧ o < Reg.EVT_WORLD 9 then evtWorldReset ((o - Reg.EVT_WORLD 0) / 8)
  else if Reg.ISO_LNK_CFG 0 ≤ o ∧ o < Reg.ISO_LNK_CFG 112 then
    (if s.on (Reg.ISO_LNK_CFG ((o - Reg.ISO_LNK_CFG 0) / 0x20)) F.ISO_LNK_CFG_LOCK then 0 else 2 ^ 64 - 1)
  else if 0x80003180 > o ∧ o ≥ Reg.ISO_RACC 11 then 0
  else if Reg.ISO_OWN 107 ≤ o ∧ o < Reg.ISO_OWN 128 then 0
  else 2 ^ 64 - 1

/-- Whether writes to a register are ignored for now: the request buffer of a busy mailbox (20 R485), SLC_CTRL of a masked
or fenced die (03 R73), a mode order while one is pending (16 R397). -/
def State.ignoresWrite (s : State) (o v : Nat) : Bool :=
  (decide (0xA0000000 ≤ o) && decide (o < 0xA0008000) && decide (0x1000 ≤ o % 0x4000) && decide (o % 0x4000 < 0x2000) &&
    s.rd (Reg.MBX_STATUS ((o - 0xA0000000) / 0x4000)) F.MBX_STATUS_STATE == 1) ||
  (decide (0x30000000 ≤ o) && decide (o < 0x32400000) && o % 0x100000 == 8 && !s.dieActive ((o - 0x30000000) / 0x100000 / 3)) ||
  ((o == Reg.PKG_MODE_REQ 0 || o == Reg.PKG_MODE_REQ 1) && v.testBit 63 && s.rd o F.PKG_MODE_REQ_STATUS == OS.pending)

/-- Zero the per-initiator counters of a stop (11 R327). -/
def State.statClear (s : State) (t : Nat) : State :=
  { s with regs := s.regs.keep (fun o _ => decide (o < Reg.RTR_IPKT t 0) || decide (Reg.RTR_IPKT t 64 ≤ o)) }

/-- Zero every unit counter of the package (21 R497, R501). -/
def State.pmonClear (s : State) : State :=
  { s with regs := s.regs.keep (fun o _ =>
      !((ctrKind o).1 == .counter && !(decide (0x1000 ≤ o % 0x100000) && decide (o % 0x100000 < 0x1800)))) }

/-- Submit the request buffer of a mailbox (20 R485): its LENGTH bytes. -/
def State.mailboxSubmit (s : State) (w : Nat) : State :=
  if s.rd (Reg.MBX_STATUS w) F.MBX_STATUS_STATE = 1 then s
  else
    let n := s.rd (Reg.MBX_CTRL w) F.MBX_CTRL_LENGTH
    let q := ((List.range 512).flatMap (fun i => leBytes 8 (s.rdW (Reg.MBX_REQ w i)).toNat)).take n
    (s.wr (Reg.MBX_STATUS w) F.MBX_STATUS_STATE 1).mgmtRequest w q

/-- PKG_BOOT.GOOD (16 R401). -/
def State.bootGood (s : State) : State :=
  (s.wrs Reg.PKG_BOOT [(F.PKG_BOOT_GOOD, 0), (F.PKG_BOOT_COUNT, 0)]).setMram 0x1000 [0]

/-- The timer pending bit of a hart follows MTIME and its mtimecmp (12 R338). -/
def State.timerBit (s : State) (h : Nat) : State :=
  let due := decide ((s.rdW (Reg.MTIMECMP h)).toNat ≤ (s.rdW Reg.MTIME).toNat)
  s.setHart h ((s.hart h).scb Csr.mip 7 7 (b2n due))

/-- A write of a CTU_CMD register: BEGIN, COMMIT or ROLLBACK by OP (15 R386). -/
def State.ctuOp (s : State) (w : World) (v : Nat) : State :=
  let op := bitsOf v 63 62
  let tag := bitsOf v 15 0
  if op = 1 then s.ctuBegin w tag else if op = 2 then s.ctuCommit w tag else if op = 3 then s.ctuRollback w tag else s

/-- A write of RTR{s}_STAT_CTRL with CLEAR zeroes the stop's per-initiator counters (11 R327). -/
def State.stopHook (s : State) (o v : Nat) : State :=
  match stopOf o with
  | some (t, 0x20) => if v.testBit 62 then s.statClear t else s
  | _ => s

/-- With ARM cleared no write of channel `m` that waits is flipped any more (09 R276). -/
def State.flipDisarm (s : State) (m : Nat) : State :=
  if s.on (Reg.MCH_FLIP m) F.MCH_FLIP_ARM then s
  else { s with wq := s.wq.map (fun w => if s.chanOf (128 * w.ln) == m then { w with flip := false } else w) }

/-- What a write of a register brings about beyond its fields: `v` the bits written. `pend` tells that the request register
was pending before the write. -/
def State.regHook (s : State) (who : Ident) (o v : Nat) (pend : Bool) : State :=
  let go := v.testBit 63
  if o = Reg.CTU_CMD 0 ∨ o = Reg.CTU_CMD 1 then
    s.ctuOp (if o = Reg.CTU_CMD 0 then .n else .s) v
  else if o = Reg.PKG_MODE_REQ 0 ∨ o = Reg.PKG_MODE_REQ 1 then
    if go then
      (s.wr o F.PKG_MODE_REQ_STATUS OS.pending).submitMode
        ⟨2 + b2n (o == Reg.PKG_MODE_REQ 1), who, s.rd o F.PKG_MODE_REQ_TARGET⟩
    else s
  else if o = Reg.PWR_REQ 0 ∨ o = Reg.PWR_REQ 1 then
    if go && !pend then
      (s.wr o F.PWR_REQ_STATUS OS.pending).submitPower ⟨2 + b2n (o == Reg.PWR_REQ 1), who, s.rd o F.PWR_REQ_CODE,
        s.rd o F.PWR_REQ_UNIT, s.rd o F.PWR_REQ_VALUE⟩
    else s
  else if o = Reg.RCC_RST_REQ 0 ∨ o = Reg.RCC_RST_REQ 1 then
    if go && !pend then
      (s.wr o F.RCC_RST_REQ_STATUS OS.pending).submitReset (b2n (o == Reg.RCC_RST_REQ 1)) who
        (s.rd o F.RCC_RST_REQ_KIND) (s.rd o F.RCC_RST_REQ_INDEX)
    else s
  else if o = Reg.PKG_BOOT then (if go && who == monitor then s.bootGood else s)
  else if o = Reg.RCC_WDOG then (if v.testBit 0 then s.pk (fun p => { p with wdogHalf := false }) else s)
  else if o = Reg.RCC_RST_CAUSE ∨ o = Reg.RCC_RST_UNITS then s.recordReach 0
  else if o = Reg.PMON_CTRL then (if go then s.pmonClear else s)
  else if o = Reg.MBX_CTRL 0 ∨ o = Reg.MBX_CTRL 1 then
    let s := s.wr o F.MBX_CTRL_GO 0
    if go then s.mailboxSubmit (b2n (o == Reg.MBX_CTRL 1)) else s
  else if Reg.MTIMECMP 0 ≤ o ∧ o < Reg.MTIMECMP 216 then s.timerBit ((o - Reg.MTIMECMP 0) / 8)
  else if 0x40100000 ≤ o ∧ o < 0x40140000 ∧ o % 0x40 = Reg.CTX_FAULT_HEAD 0 % 0x40 then
    s.freeFaults ((o - Reg.CTX_FAULT_HEAD 0) / 0x40)
  else if Reg.MCH_FLIP 0 ≤ o ∧ o ≤ Reg.MCH_FLIP 15 ∧ (o - Reg.MCH_FLIP 0) % 0x100000 = 0 then
    s.flipDisarm ((o - Reg.MCH_FLIP 0) / 0x100000)
  else s.stopHook o v

/-- The fields `xs` of the register at offset `o` written into `s1`, a refused monitor-only field's violation recorded,
and what the write then starts; `s` is the state before the write. -/
def State.putFields (s s1 : State) (who : Ident) (o v : Nat) (mine : List FldWrite) (bad : Bool) : State :=
  let locked := bitAt (s.rdW o).toNat 63
  let s2 := mine.foldl (fun s x => s.writeField o locked x) s1
  let s3 := if bad then s2.viol 2 who (windowBase + o) else s2
  s3.regHook who o v (bitsOf (s.rdW o).toNat 59 56 == OS.pending)

/-- A write of bits `m` of a register at `o`: whether it was accepted, and the state it leaves. -/
def State.writeReg (s : State) (who : Ident) (o v m : Nat) (r : RegDef) : Bool × State :=
  let v := v &&& m
  let v := if Reg.EVT_RERR 0 ≤ o ∧ o < Reg.EVT_TFLT 64 then
      s.ctxBits who ((o - (if o < Reg.EVT_TFLT 0 then Reg.EVT_RERR 0 else Reg.EVT_TFLT 0)) / 8) v else v
  if s.ignoresWrite o v then (true, s)
  else
    let xs := s.touched r o v m
    let mine := xs.filter (fun x => !x.fd.mon || who == monitor)
    let bad := xs.any (fun x => x.fd.mon && who != monitor && s.changes o x)
    let sm := ((mine.filter (fun x => x.fd.ty == .rws)).foldl (fun a x => a ||| x.mask) 0) &&& s.stageMask o
    match (if sm = 0 then some s else s.stage who.world o v sm) with
    | none => (false, s)
    | some s1 => (true, s.putFields s1 who o v mine bad)

/-- A write to a page of an interrupt file (14 R373): at the page's start it is an MSI; elsewhere it names no register, and it
is judged all the same. -/
def State.fileStore (s : State) (who : Ident) (f off val : Nat) : State :=
  if off % 0x1000 = 0 then s.msi who f (val % 2 ^ 32)
  else if s.fenced (nthD clusterStops (fileHart f / 6) 0) 2 then s.logFw who (windowBase + off) true
  else if s.fileReach f who then s
  else s.viol 3 who (windowBase + off)

/-- A write to the register window: whether it was accepted, and the state it leaves. An access to a reserved offset of a
listed block is ignored (00 R8, notes/assumptions/71.md). -/
def State.regWrite (s : State) (who : Ident) (off size val : Nat) (user : Bool) : Bool × State :=
  if !regAligned off size || !regCovered off then (false, s)
  else if !s.regReach who off true user then (false, s.viol 1 who (windowBase + off))
  else
    let o := off / 8 * 8
    let sh := 8 * (off % 8)
    match fileAt off with
    | some f => (true, s.fileStore who f off val)
    | none =>
      match aplicAt off with
      | some (w, a) =>
        let s := s.aplicWrite w a (val % 2 ^ 32)
        (true, if size = 8 then s.aplicWrite w (a + 4) (val / 2 ^ 32 % 2 ^ 32) else s)
      | none =>
        match regAt o with
        | some r => s.writeReg who o (val % 2 ^ (8 * size) * 2 ^ sh) ((2 ^ (8 * size) - 1) * 2 ^ sh) r
        | none => (true, s)

/-- A write with its answer recorded. -/
def State.regStore (s : State) (who : Ident) (off size val : Nat) (user : Bool) : State :=
  match s.regWrite who off size val user with
  | (true, s) => s.answer (.ok 0)
  | (false, s) => s.answer .error

end Sys2Proof.Machine
end

