-- ==== Sys2Proof/Machine/CohCmds.lean ====
section
/-! DEFINITION. Commands of memory, homes and caches (09 R264 to R270, 10 R293 to R297, R300): each is one message reaching
its receiver, or one write or read of a controller. A command that names a message not in flight has no effect. -/

namespace Sys2Proof.Machine
open Sys2Proof

/-! ### Errors to a cluster -/

/-- The kind of access an access is, for its exception code. -/
def HAcc.akind : HAcc → AKind
  | .load .. | .lr .. | .prefetch _ => .load
  | _ => .store

/-- A cluster's request of a line fails (11 R311): its waiting accesses of that identity take access faults, and the others
are tried again. -/
def State.reqFails (s : State) (c ln : Nat) (who : Ident) : State :=
  let cl := s.cluster c
  let s := s.setCluster c { cl with reqs := cl.reqs.filter (fun r => r.ln != ln) }
  let ws := cl.waits.filter (fun w => w.ln == ln && w.who == who)
  let s := ws.foldl (fun s w => if (s.cluster c).waits.contains w then s.abortAcc w (TFault.access.cause w.acc.akind) else s) s
  let s := s.setCluster c { s.cluster c with ipre := (s.cluster c).ipre.filter (fun e => e.1 != ln) }
  ((s.retryWaits c ln).askMore c).freeHeld c

/-! ### Requests (10 R293, R294) -/

/-- A home refuses a request because its agent is fenced (11 R326). -/
def State.domainOff (s : State) (t a ln : Nat) (who : Ident) (write : Bool) : State :=
  (s.logFw who (128 * ln) write).post ⟨.rspError codeDomainOff, ln, t, a, noData, who, 0⟩

/-- A request that a cluster has waiting to be sent reaches its home. With no tracker free it stays in the network, and a
fenced cluster injects nothing. A line whose eviction awaits WB_ACK is not asked for (R295). -/
def State.sendReq (s : State) (c ln : Nat) (k : ReqKind) : State :=
  let cl := s.cluster c
  match cl.reqs.find? (fun r => r.kind == k && r.ln == ln && !r.sent) with
  | none => s
  | some r =>
    let t := s.homeFor (agentStop c) ln
    let hm := s.home t
    let sent (s : State) : State :=
      let cl := s.cluster c
      s.setCluster c { cl with reqs := cl.reqs.map (fun x => if x == r then { x with sent := true } else x) }
    if s.fenced (agentStop c) 2 || (cl.evicting ln).isSome then s
    else if s.homeOff t ln then (sent s).domainOff t c ln r.who k.isWrite
    else if 256 ≤ hm.txns.length + hm.waitq.length then s
    else (sent s).arrive t ⟨k, ln, c, r.who, r.stream, [], 0⟩

/-- RD_SHARED (10 R294). -/
def execRdShared (c : Fin 36) (ln : Nat) (s : State) : Out := .next (s.sendReq c ln .rdShared)
/-- Whether the ring manager has a request of a line under way, or its answer or an eviction notice of it in flight. -/
def State.watchBusy (s : State) (ln : Nat) : Bool :=
  s.homes.any (fun e => e.2.txns.any (fun x => x.req.ln == ln && x.req.agent == 36) ||
    e.2.waitq.any (fun r => r.ln == ln && r.agent == 36)) ||
  s.net.any (fun m => m.ln == ln && m.agent == 36 && (match m.kind with
    | .datGrant _ | .rspError _ | .evictClean | .wbAck => true
    | _ => false))

/-- The ring manager's request of a line it is to read reaches its home (06 R198, R199, 10 R292). -/
def State.watchAsk (s : State) (ln : Nat) : State :=
  let t := s.homeFor rmgStop ln
  let who := s.lineWho ln
  if !s.dbInval.contains ln || s.watchBusy ln || s.fenced rmgStop 12 then s
  else if s.homeOff t ln then s.domainOff t 36 ln who false
  else s.arrive t ⟨.rdNoexcl, ln, 36, who, false, [], 0⟩

/-- RD_NOEXCL (10 R294) of a cluster, or, agent 36, of the ring manager. -/
def execRdNoexcl (a : Fin 37) (ln : Nat) (s : State) : Out :=
  .next (if a.val = 36 then s.watchAsk ln else s.sendReq a ln .rdNoexcl)
/-- RD_UNIQUE (10 R294). -/
def execRdUnique (c : Fin 36) (ln : Nat) (s : State) : Out := .next (s.sendReq c ln .rdUnique)
/-- UPGRADE (10 R294). -/
def execUpgrade (c : Fin 36) (ln : Nat) (s : State) : Out := .next (s.sendReq c ln .upgrade)
/-- ZERO_UNIQUE (10 R294). -/
def execZeroUnique (c : Fin 36) (ln : Nat) (s : State) : Out := .next (s.sendReq c ln .zeroUnique)
/-- CMO_CLEAN (10 R294). -/
def execCmoClean (c : Fin 36) (ln : Nat) (s : State) : Out := .next (s.sendReq c ln .cmoClean)
/-- CMO_FLUSH (10 R294). -/
def execCmoFlush (c : Fin 36) (ln : Nat) (s : State) : Out := .next (s.sendReq c ln .cmoFlush)

/-- Whether every agent of a stop that sends uncached requests is fenced: engine slice, scan fronts, ports, ring manager, data
movers, PMC (11 R310). -/
def State.sendersOff (s : State) (t : Nat) : Bool :=
  let l := match (stopFunc t).1 with
    | 1 => [3]
    | 2 => [5]
    | 3 => [6, 7, 8, 9]
    | 4 => [10, 11]
    | 5 => [12, 13]
    | 6 => [15]
    | _ => [1]
  l.all (fun a => s.fenced t a)

/-- A request of a non-caching agent at stop `a` reaches its home; a fenced agent injects nothing (11 R326). -/
def State.sendNc (s : State) (a ln : Nat) (who : Ident) (k : ReqKind) (data : List Byte) (mask : Nat) : State :=
  let t := s.homeFor a ln
  if s.sendersOff a then s
  else if s.homeOff t ln then s.domainOff t (nonCaching a) ln who k.isWrite
  else s.arrive t ⟨k, ln, nonCaching a, who, false, data, mask⟩

/-- RD_NOALLOC (10 R294). -/
def execRdNoalloc (a : Fin 64) (who : Ident) (ln : Nat) (s : State) : Out := .next (s.sendNc a ln who .rdNoalloc [] 0)
/-- WR_FULL (10 R294). -/
def execWrFull (a : Fin 64) (who : Ident) (ln : Nat) (data : List Byte) (s : State) : Out :=
  .next (s.sendNc a ln who .wrFull data (2 ^ 128 - 1))
/-- WR_MASK (10 R294). -/
def execWrMask (a : Fin 64) (who : Ident) (ln : Nat) (data : List Byte) (mask : Nat) (s : State) : Out :=
  .next (s.sendNc a ln who .wrMask data mask)

/-! ### Evictions (10 R295, R297) -/

/-- The message of a kind about a line from or to an agent arrives. -/
def State.onKind (s : State) (k : MKind) (a ln : Nat) (f : Msg → State → State) : State :=
  s.onMsg (fun m => m.kind == k && m.agent == a && m.ln == ln) f

/-- A message of an eviction or an answer to a snoop arrives at its home; a fenced home sinks it (11 R326). -/
def State.deliverAns (s : State) (k : MKind) (a ln : Nat) (f : Msg → State → State) : State :=
  s.onKind k a ln (fun m s => if s.fenced m.home 0 then s else f m s)

/-- A dirty line written back reaches its home, and its eviction is taken (10 R297). -/
def State.wbDirtyAt (s : State) (c ln : Nat) (m : Msg) : State :=
  let cl := s.cluster c
  let was := (cl.evicting ln).any (·.taken)
  (s.setCluster c { cl with evict := cl.evict.map (fun (e : EvEnt) => if e.ln == ln then { e with taken := true } else e) }).absorbWb
    m.home ln c m.who m.data was

/-- WB_DIRTY (10 R294, R297). -/
def execWbDirty (c : Fin 36) (ln : Nat) (s : State) : Out :=
  .next (s.deliverAns .wbDirty c ln (fun m s => s.wbDirtyAt c ln m))

/-- EVICT_CLEAN (10 R294, R297). -/
def execEvictClean (c : Fin 37) (ln : Nat) (s : State) : Out :=
  .next (s.deliverAns .evictClean c ln (fun m s => s.evictClean m.home ln c m.who))

/-! ### Snoops and their answers (10 R296, R297) -/

/-- Whether an agent holds a snoop of a home: the home has no credit for another until it is answered (11 R317). -/
def State.snpHeld (s : State) (a t : Nat) : Bool := (s.cluster a).held.any (fun p => p.home == t)

/-- A snoop reaches its caching agent; the proxy of a fenced one answers RSP_I (11 R326). One that meets a grant in flight to
the ring manager waits for it (10 R296). -/
def State.deliverSnp (s : State) (k : SnpKind) (a ln : Nat) : State :=
  if a = 36 ∧ s.grantInFlight 36 ln = true then s
  else s.onMsg (fun m => m.kind == .snp k && m.agent == a && m.ln == ln && !s.snpHeld a m.home) (fun m s =>
    if s.fenced (agentStop a) (if a = 36 then 12 else 2) then s.post ⟨.rspI, ln, m.home, a, noData, m.who, 0⟩
    else s.snoop a ⟨k, ln, m.home, m.who⟩)

/-- SNP_SHARE (10 R296). -/
def execSnpShare (a : Fin 37) (ln : Nat) (s : State) : Out := .next (s.deliverSnp .share a ln)
/-- SNP_INVAL (10 R296). -/
def execSnpInval (a : Fin 37) (ln : Nat) (s : State) : Out := .next (s.deliverSnp .inval a ln)
/-- SNP_PEEK (10 R296). -/
def execSnpPeek (a : Fin 37) (ln : Nat) (s : State) : Out := .next (s.deliverSnp .peek a ln)

/-- RSP_I (10 R297). -/
def execRspI (a : Fin 37) (ln : Nat) (s : State) : Out :=
  .next (s.deliverAns .rspI a ln (fun m s => s.snoopAnswer m.home ln a false none))
/-- RSP_S (10 R294). -/
def execRspS (a : Fin 37) (ln : Nat) (s : State) : Out :=
  .next (s.deliverAns .rspS a ln (fun m s => s.snoopAnswer m.home ln a true none))
/-- RSP_WBIF (10 R297). -/
def execRspWbif (a : Fin 37) (ln : Nat) (s : State) : Out :=
  .next (s.deliverAns .rspWbif a ln (fun m s => s.crossing m.home ln a none))
/-- DAT_DIRTY (10 R294). -/
def execDatDirty (a : Fin 37) (ln : Nat) (s : State) : Out :=
  .next (s.deliverAns .datDirty a ln (fun m s => s.snoopAnswer m.home ln a true (some m.data)))

/-! ### Grants and completions (10 R295, R296, R304) -/

/-- Whether a cluster is fenced: it receives nothing. -/
def State.clusterOff (s : State) (c : Nat) : Bool := s.fenced (agentStop c) 2

/-- A message for a caching or non-caching agent arrives, unless its proxy sinks it. -/
def State.deliverTo (s : State) (p : MKind → Bool) (a ln : Nat) (f : Msg → State → State) : State :=
  s.onMsgs (fun x => decide (a < 36) && (s.cluster a).fillWaits x.ln) (fun m => p m.kind && m.agent == a && m.ln == ln)
    (fun m s => if decide (a < 36) && s.clusterOff a then s else f m s)

/-- Whether a message is a grant with data. -/
def MKind.isGrant : MKind → Bool
  | .datGrant _ => true
  | _ => false

/-- A grant with data at its requester: a cluster installs the line; a non-caching reader has its data. -/
def State.datGrantAt (s : State) (a ln : Nat) (m : Msg) : State :=
  match m.kind with
  | .datGrant (some g) => if (s.cluster a).reqs.any (fun r => r.ln == ln) then s.granted a ln g m.data m.who true else s
  | _ => s.answer (if m.data.poison then .error else .ok (leNat m.data.data))

/-- DAT_GRANT (10 R296). A fill waits while its victim is not to be evicted (R285, R295); a line that returns to the ring
manager is DOORBELL_LINE_RETURN's. -/
def execDatGrant (a : Fin 164) (ln : Nat) (s : State) : Out :=
  .next (if a.val = 36 || decide (a.val < 36) && (s.cluster a).fillWaits ln then s
    else s.deliverTo MKind.isGrant a ln (fun m s => s.datGrantAt a ln m))

/-- A grant without data at its cluster: the line the cluster holds becomes M, or the line to be zeroed is installed. A cluster
that holds no copy asks for the data. -/
def State.rspGrantAt (s : State) (c ln : Nat) (m : Msg) : State :=
  let cl := s.cluster c
  match cl.reqs.find? (fun r => r.ln == ln) with
  | none => s
  | some r =>
    if r.kind = .zeroUnique then s.granted c ln .m ⟨zeroLine, false⟩ m.who false
    else match cl.find ln with
      | some (_, l) => s.granted c ln .m l.data m.who false
      | none => s.setCluster c { cl with reqs := cl.reqs.map (fun x => if x == r then { x with kind := .rdUnique, sent := false } else x) }

/-- RSP_GRANT (10 R294). -/
def execRspGrant (c : Fin 36) (ln : Nat) (s : State) : Out :=
  .next (if (s.cluster c).fillWaits ln then s else s.deliverTo (· == .rspGrant) c ln (fun m s => s.rspGrantAt c ln m))

/-- Whether a waiting access is a cache-management operation on a line. -/
def Wait.cmoOf (w : Wait) (ln : Nat) : Bool :=
  match w.acc with
  | .cmo _ => w.ln == ln
  | _ => false

/-- A cluster's cache-management operation on a line is complete. -/
def State.cmoDone (s : State) (a ln : Nat) : State :=
  let cl := s.cluster a
  let reqs := cl.reqs.filter (fun r => r.ln != ln)
  match cl.waits.find? (fun w => w.cmoOf ln) with
  | some w => (((s.setCluster a { cl with reqs := reqs, waits := cl.waits.erase w }).finishAcc w).retryWaits a ln).askMore a
  | none => ((s.setCluster a { cl with reqs := reqs }).retryWaits a ln).askMore a

/-- RSP_WDONE (10 R304): a non-caching write is globally visible, or a CMO is complete. -/
def execRspWdone (a : Fin 164) (ln : Nat) (s : State) : Out :=
  .next (s.deliverTo (· == .rspWdone) a ln (fun _ s => if 36 ≤ a.val then s.answer (.ok 0) else s.cmoDone a ln))

/-- WB_ACK (10 R295): the cluster frees the evicted line and may request it again, and an eviction that waited for the
eight of 11 R316 is sent. A fenced cluster that still writes back gives its lines up so too, or it could not drain (17 R422, 18 R450;
DEDUCED, notes/assumptions/131.md). -/
def execWbAck (c : Fin 37) (ln : Nat) (s : State) : Out :=
  .next (s.onMsgs (fun x => decide (c.val < 36) && (s.cluster c).fillWaits x.ln) (fun m => m.kind == .wbAck && m.agent == c.val && m.ln == ln) (fun _ s =>
    if c.val = 36 then s
    else
      let cl := s.cluster c
      ((s.setCluster c { cl with evict := cl.evict.filter (fun e => e.ln != ln) }).evictMore c).retryWaits c ln))

/-- LR_HOLD_TIMEOUT (10 R296): a hart's reservation holds snoops no longer. -/
def execLrHoldTimeout (h : Fin 216) (s : State) : Out :=
  .next (match (s.hart h).resv with
    | some _ => (s.setHart h { s.hart h with resvLate := true }).freeHeld (hartCluster h)
    | none => s.freeHeld (hartCluster h))

/-! ### Memory (09 R264 to R270) -/

/-- Stop and agent of the controller or CXL port behind a line. -/
def State.controller (s : State) (ln : Nat) : Nat × Nat :=
  (s.servingStop (128 * ln), match s.paKind (128 * ln) with
    | .cxl j => 6 + j / 8 % 2
    | _ => 4)

/-- Whether the controller or port behind a line is fenced. -/
def State.memOff (s : State) (ln : Nat) : Bool := s.fenced (s.controller ln).1 (s.controller ln).2

/-- Whether the device of a CXL line that is served delivers poison in either 64-byte transfer: it poisons the line (08
R260). -/
def State.devPoison (s : State) (x : DevLine) : Bool :=
  match s.paKind (128 * x.ln) with
  | .cxl j => (s.link j).serves && (x.bad0 || x.bad1)
  | _ => false

/-- A read reaches the controller of its line: the line is read and sent, or the controller's domain is off (11 R326). -/
def State.memReadAt (s : State) (t : Nat) (x : DevLine) (m : Msg) : State :=
  let ln := x.ln
  if s.memOff ln then
    match (s.home t).txn ln with
    | some x =>
      ((s.setHome t { s.home t with txns := (s.home t).txns.filter (fun y => y.req.ln != ln) }).domainOff
        t m.agent ln m.who x.req.kind.isWrite).proceed t x
    | none => s
  else
    let r := (s.pmcMem ln 0 2 (some m.who)).readLineQ ln 1
    r.2.post ⟨.memData, ln, t, m.agent, { r.1 with poison := r.1.poison || s.devPoison x }, m.who, 0⟩

/-- MEM_READ (09 R266 to R269): the controller or CXL port delivers a line to the home that asked. A fenced one answers
DOMAIN_OFF, and the home passes that on to the requester. -/
def execMemRead (t : Fin 64) (x : DevLine) (s : State) : Out :=
  .next (s.onMsg (fun m => m.kind == .memRead && m.home == t.val && m.ln == x.ln) (fun m s => s.memReadAt t x m))

/-- MEM_DATA (10 R294). -/
def execMemData (t : Fin 64) (ln : Nat) (s : State) : Out :=
  .next (s.onMsg (fun m => m.kind == .memData && m.home == t.val && m.ln == ln) (fun m s => s.memData t ln m.data))

/-- The oldest queued write of a line issues, if it is of the command's kind. -/
def State.issueOldest (s : State) (ln : Nat) (full : Bool) : State :=
  match s.wq.find? (fun w => w.ln == ln) with
  | none => s
  | some w =>
    if (w.mask % 2 ^ 128 == 2 ^ 128 - 1) != full then s
    else
      let s := { s with wq := s.wq.erase w }
      if s.memOff ln then
        match w.who with
        | some a => s.logFw a (128 * ln) true
        | none => s
      else s.issueWrite w

/-- MEM_WRITE (09 R264, R267). -/
def execMemWrite (ln : Nat) (s : State) : Out := .next (s.issueOldest ln true)
/-- MEM_WRITE_MASK (09 R269). -/
def execMemWriteMask (ln : Nat) (s : State) : Out := .next (s.issueOldest ln false)

/-- PATROL_SCRUB (09 R270): the next line of a ready channel is read, and POS moves on, wrapping after the last line. -/
def execPatrolScrub (m : Fin 16) (s : State) : Out :=
  let lines := s.rd (Reg.MCH_STATUS m) F.MCH_STATUS_CAP_GIB * 2 ^ 23
  if s.on (Reg.MCH_SCRUB m) F.MCH_SCRUB_EN && s.rd (Reg.MCH_STATUS m) F.MCH_STATUS_STATE == 3 && decide (0 < lines) then
    let pos := s.rd (Reg.MCH_SCRUB m) F.MCH_SCRUB_POS
    let (_, s) := s.readMemLine (s.chanPa m (128 * pos) / 128) 2 none
    .next (s.wr (Reg.MCH_SCRUB m) F.MCH_SCRUB_POS (if lines ≤ pos + 1 then 0 else pos + 1))
  else .next s

/-! ### Range operations (10 R300, 12 R344) -/

/-- The range operation of a hart at a home. -/
def State.rangeAt (s : State) (t h : Nat) : Option Hold :=
  (s.home t).holds.find? (fun r => decide (r.kind ≤ 1) && r.ways == h && !r.done)

/-- RANGE_OP (10 R300): a range operation of a hart reaches a home, and begins once what is in service on the range's lines has
ended. A range of at most 512 lines is done line by line; a larger one is left to the home's sweep. -/
def execRangeOp (t : Fin 64) (h : Fin 216) (s : State) : Out :=
  match s.rangeAt t h with
  | some r =>
    if r.hi - r.lo < 512 && s.homeQuiet t (fun ln => decide (r.lo ≤ ln) && decide (ln ≤ r.hi)) then
      let s := s.sweepHome t r
      .next ((s.setHolds t ((s.home t).holds.map (fun x => if x == r then { x with done := true } else x))).reAdmit t)
    else .next s
  | none => .next s

/-- RANGE_SWEEP (10 R300): a home sweeps its tags and directory for the oldest large range operation it has; SWEEP_DONE ends
it. -/
def execRangeSweep (t : Fin 64) (s : State) : Out :=
  match (s.home t).holds.find? (fun r => decide (r.kind ≤ 1) && !r.done && decide (512 ≤ r.hi - r.lo)) with
  | some r =>
    .next (if s.homeQuiet t (fun ln => decide (r.lo ≤ ln) && decide (ln ≤ r.hi)) then s.sweepHome t r else s)
  | none => .next s

/-- Whether every home has finished the range operation of a hart. -/
def State.rangeOver (s : State) (h : Nat) : Bool :=
  (List.range 64).all (fun t => (s.rangeAt t h).isNone)

/-- OP_DONE (11 R311, 10 R300): the end of a bucket, page or range operation reaches its issuer. -/
def execOpDone (o : OpRef) (s : State) : Out :=
  .next (match o with
    | .bucket id => s.bopOver id
    | .page n => s.pagesOver n
    | .range h =>
      let mine (r : Hold) : Bool := decide (r.kind ≤ 1) && r.ways == h.val
      if s.rangeOver h && (s.home 0).holds.any mine then
        let s := s.forAll 64 (fun t s => s.setHolds t ((s.home t).holds.filter (fun r => !mine r)))
        (s.setHart h { s.hart h with stalled := false }).retire h 4
      else s)

end Sys2Proof.Machine
end

