-- ==== Sys2Proof/Machine/FxCmds.lean ====
section
/-! DEFINITION. The Finxis ports' commands: training (08 R236 to R238), flits (R239 to R241), packets (R242 to R253). -/

namespace Sys2Proof.Machine
open Sys2Proof

/-! ### Training -/

/-- Whether every lane of a mask's half, or of all eight, passed. -/
def lanesAll (lanes mask : Nat) : Bool := lanes &&& mask == mask

/-- EQUALISE is complete: the width, and whether the upper half is used, or no half passed (08 R237). -/
def fxWidth (lanes : Nat) : Option (Nat × Bool) :=
  if lanesAll lanes 0xFF then some (8, false) else if lanesAll lanes 0xF then some (4, false)
  else if lanesAll lanes 0xF0 then some (4, true) else none

/-- The width RETRAIN's EQUALISE leaves a port of width `w` (08 R237): unchanged while every lane passes, and otherwise what
the lanes that passed allow, which is never wider (DEDUCED, notes/assumptions/114.md). -/
def FxPort.retrained (x : FxPort) (w lanes : Nat) : Option (Nat × Bool) :=
  (fxWidth lanes).map (fun r => if r.1 = 8 then (w, x.upper) else r)

/-- Send the device's capability word (08 R238, R241): version 1, the trained width, the credits it gives. -/
def State.fxCaps (s : State) (p : Nat) : State :=
  s.send (.caps p 1 (s.rd (Reg.FX_STATUS p) F.FX_STATUS_WIDTH) 2048 0 32)

/-- TRAINING_STEP_COMPLETE (08 R236, R237): `lanes` are the lanes that passed equalisation. In RETRAIN it ends the
equalisation and alignment, and the capability word is sent. -/
def execTrainingStepComplete (p : Fin 4) (lanes : Nat) (s : State) : Out :=
  let st := Reg.FX_STATUS p
  .next (match s.fxState p with
    | 1 => s.wr st F.FX_STATUS_STATE 2
    | 2 =>
      match fxWidth lanes with
      | some (w, up) =>
        (s.setPort p { s.port p with upper := up }).wrs st [(F.FX_STATUS_STATE, 3), (F.FX_STATUS_WIDTH, w)]
      | none => s.finxisDown p 2
    | 3 => (s.wr st F.FX_STATUS_STATE 4).fxCaps p
    | 6 =>
      match (s.port p).retrained (s.rd st F.FX_STATUS_WIDTH) lanes with
      | some (w, up) => ((s.setPort p { s.port p with upper := up }).wr st F.FX_STATUS_WIDTH w).fxCaps p
      | none => s.finxisDown p 2
    | _ => s)

/-- TRAINING_TIMEOUT (08 R236). -/
def execTrainingTimeout (p : Fin 4) (s : State) : Out :=
  let k := s.fxState p
  .next (if 1 ≤ k ∧ k ≤ 4 then s.finxisDown p k else if k = 6 then s.finxisDown p 5 else s)

/-- Send the flits not acknowledged again, as far as the rate limiter lets them pass now (08 R240, R252). -/
def State.fxResend (s : State) (p : Nat) : State :=
  let x := s.port p
  (s.setPort p { x with replay := x.unack }).fxPump p

/-- Go to RETRAIN, or DOWN when it is the third time within 1 s (08 R240). -/
def State.fxRetrain (s : State) (p : Nat) (third : Bool) : State :=
  let s := s.setPort p { s.port p with replays := 0 }
  if third then s.finxisDown p 5
  else (s.satF (Reg.FX_STATUS p) F.FX_STATUS_RETRAINS 1).wr (Reg.FX_STATUS p) F.FX_STATUS_STATE 6

/-- Replay from the flit after the last acknowledged; the eighth replay without progress retrains (08 R240). -/
def State.fxReplay (s : State) (p : Nat) (third : Bool) : State :=
  let x := s.port p
  if x.unack.isEmpty then s
  else if 8 ≤ x.replays + 1 then (s.fxResend p).fxRetrain p third
  else (s.setPort p { x with replays := x.replays + 1 }).fxResend p

/-- An acknowledgement arrives: the flits up to it leave the replay buffer. -/
def FxPort.acked (x : FxPort) (ack : Nat) : FxPort :=
  match x.unack.findIdx? (fun f => f.1 == ack) with
  | some i =>
    let left := x.unack.drop (i + 1)
    { x with unack := left, replays := 0, replay := x.replay.filter (fun f => left.any (fun g => g.1 == f.1)) }
  | none => x

/-- Credits arrive. -/
def FxPort.credited (x : FxPort) (vl n : Nat) : FxPort :=
  if n = 0 then x else { x with credits := Tab.put 0 x.credits vl (Tab.get 0 x.credits vl + n) }

/-- A new session (08 R238): windows are released, the responses held are discarded, their completion records are counted,
and the event is raised; other packets that wait, FETCH and MGMT among them, are sent in the new session. The link layer starts afresh (DESIGN CHOICE, notes/assumptions/47.md). -/
def State.fxSession (s : State) (p sess : Nat) : State :=
  let x := s.port p
  let n := heldResponses (x.txq ++ x.unack.map Prod.snd)
  let x := { x with
    sess := some sess, wins := [], txq := keptFlits (x.unack.map Prod.snd ++ x.txq) [], unack := [], replay := [], nseq := 0,
    rseq := 0, discard := false, replays := 0, asm := [], ret := [], again := [] }
  ((s.setPort p x.freeOut).fxDropped p n).raise (297 + p)

/-- CAPABILITY_WORD (08 R238): in CAPS, or at the end of RETRAIN. -/
def execCapabilityWord (p : Fin 4) (version c0 c1 c2 sess : Nat) (s : State) : Out :=
  let k := s.fxState p
  if k != 4 && k != 6 then .next s
  else if version != 1 || decide (c0 < 16) || decide (c1 < 512) || decide (c2 < 32) then .next (s.finxisDown p 4)
  else
    let fresh := (s.port p).sess != some sess
    let s := if fresh then s.fxSession p sess else s
    let x := s.port p
    let s := if k == 4 || fresh then
        s.setPort p { x with
          credits := Tab.put 0 (Tab.put 0 (Tab.put 0 [] 0 c0) 1 c1) 2 c2
          txq := x.unack.map Prod.snd ++ x.txq, unack := [], replay := [], nseq := 0, rseq := 0, discard := false, replays := 0 }
      else s
    let s := s.fxActive p
    .next (if k == 6 then s.fxResend p else s.fxPump p)

/-! ### Flits received -/

/-- A flit as bytes: whether it is good (08 R239), its header fields. -/
def flitGood (b : List Byte) (bad : Bool) : Bool :=
  !bad && b.length == 256 && leAt b 252 4 == leNat (leBytes 4 (crc32c (b.take 252))) && bitsOf (leAt b 0 4) 11 10 != 3

/-- A bad flit: it and what follows is discarded until a replay arrives; one NAK is sent (08 R240). -/
def State.fxBad (s : State) (p : Nat) : State :=
  let x := s.port p
  if x.discard then s
  else (s.setPort p { x with discard := true }).fxSendCtl p 2 ((x.rseq + 1023) % 1024)

/-- Credits of the flits of a packet that has been dealt with are to be returned. -/
def State.fxReturn (s : State) (p vl n : Nat) : State :=
  let x := s.port p
  s.setPort p { x with ret := Tab.put 0 x.ret vl (Tab.get 0 x.ret vl + n) }

/-- Read a packet (08 R242). -/
def pktOf (b : List Byte) : FxPkt :=
  { type := leAt b 0 1, flags := leAt b 1 1, ring := leAt b 2 2, seq := leAt b 8 4, window := leAt b 12 1,
    code := leAt b 13 1, offset := leAt b 16 8, count := leAt b 24 4, payload := sliceB b 32 (leAt b 4 4) }

/-- Whether a LENGTH is that of a packet type the adapter may send on a virtual lane (08 R243). -/
def pktFits (t vl len : Nat) : Bool :=
  if vl = 0 then
    (t == 1 && len == 128) || (t == 2 && decide (1 ≤ len) && decide (len ≤ 65536)) || (t == 3 && len == 8) ||
      (t == 4 && len == 16) || (t == 5 && len == 0)
  else vl == 2 && ((t == 0x31 && decide (1 ≤ len) && decide (len ≤ 4096)) || (t == 0x32 && len == 0))

/-- Whether the fields that 08 R242 and R248 call zero are. DEDUCED (notes/assumptions/49.md): "0 where unused" and "0
otherwise" name zero fields; WINDOW, OFFSET and FLAGS bits 0 and 1 are not so named, and a packet that has no use for one
may hold anything there. -/
def pktClean (b : List Byte) (k : FxPkt) : Bool :=
  let t := k.type
  k.flags / 4 == 0 && leAt b 14 2 == 0 && leAt b 28 4 == 0 && k.code == 0 && k.count == 0 &&
    (t == 1 || t == 2 || k.seq == 0) && (decide (t < 0x31) || k.ring == 0) &&
    (t != 4 || (leAt k.payload 1 3 == 0 && leAt k.payload 8 8 == 0))

/-- Why a packet is refused as it arrives, as an error notice code. -/
def State.pktRefused (s : State) (b : List Byte) (vl : Nat) (k : FxPkt) : Option Nat :=
  let len := leAt b 4 4
  if 65536 < len then some 2
  else if !pktFits k.type vl len then some 1
  else if !pktClean b k then some 2
  else if vl = 0 ∧ s.fxQuiet = true then some 7
  else none

/-- Packet bytes of an accepted flit: a packet that is whole is kept to be acted on, or refused (08 R243, R253). -/
def State.fxTake (s : State) (p vl : Nat) (body : List Byte) : State :=
  let x := s.port p
  let b := Tab.get [] x.asm vl ++ body
  let n := flitsOf (32 + leAt b 4 4)
  if b.length < 248 * n then s.setPort p { x with asm := Tab.put [] x.asm vl b }
  else
    let k := pktOf b
    let s := s.setPort p { x with asm := Tab.put [] x.asm vl [] }
    match s.pktRefused b vl k with
    | some c => (s.fxReturn p vl n).fxNotice p k.ring k.seq c
    | none => s.setPort p { s.port p with rx := (s.port p).rx ++ [k] }

/-- DATA_FLIT (08 R239, R240): accepted in order; a bad one, or one beyond a gap, starts a discard; one received before is
dropped. `bad` tells of an uncorrectable codeword. -/
def execDataFlit (p : Fin 4) (bytes : List Byte) (bad : Bool) (s : State) : Out :=
  if s.fxState p != 5 then .next s
  else if !flitGood bytes bad then .next (s.fxBad p)
  else
    let h := leAt bytes 0 4
    let x := s.port p
    let seq := bitsOf h 31 22
    if bitsOf h 9 8 != 0 then .next s
    else if seq = x.rseq then
      let x := ({ x with rseq := (x.rseq + 1) % 1024, discard := false }.acked (bitsOf h 21 12)).credited (bitsOf h 7 6) (bitsOf h 5 0)
      .next (((s.setPort p x).fxTake p (bitsOf h 11 10) (sliceB bytes 4 248)).fxPump p)
    else if (x.rseq + 1024 - seq) % 1024 ≤ 512 then .next ((s.setPort p (x.acked (bitsOf h 21 12))).fxPump p)
    else .next (s.fxBad p)

/-- IDLE_FLIT (08 R239): acknowledgement and credits. -/
def execIdleFlit (p : Fin 4) (bytes : List Byte) (bad : Bool) (s : State) : Out :=
  if s.fxState p != 5 then .next s
  else if !flitGood bytes bad then .next (s.fxBad p)
  else
    let h := leAt bytes 0 4
    if bitsOf h 9 8 != 1 then .next s
    else .next ((s.setPort p (((s.port p).acked (bitsOf h 21 12)).credited (bitsOf h 7 6) (bitsOf h 5 0))).fxPump p)

/-- NAK (08 R240). -/
def execNak (p : Fin 4) (bytes : List Byte) (bad third : Bool) (s : State) : Out :=
  if s.fxState p != 5 then .next s
  else if !flitGood bytes bad then .next (s.fxBad p)
  else
    let h := leAt bytes 0 4
    if bitsOf h 9 8 != 2 then .next s
    else .next ((s.setPort p (((s.port p).acked (bitsOf h 21 12)).credited (bitsOf h 7 6) (bitsOf h 5 0))).fxReplay p third)

/-- REPLAY_TIMEOUT (08 R240). -/
def execReplayTimeout (p : Fin 4) (third : Bool) (s : State) : Out :=
  .next (if s.fxState p = 5 then s.fxReplay p third else s)

/-! ### Packets -/

/-- Act on the oldest packet of a lane, if it is of a type: it leaves the receiver and its credits are returned. While a
COMMAND waits for staging nothing of lane 0 goes on (08 R247). -/
def State.fxAct (s : State) (p type : Nat) (f : FxPkt → State → State) : State :=
  let x := s.port p
  match x.rx.find? (fun k => fxVl k.type == fxVl type) with
  | none => s
  | some k =>
    if k.type != type || (fxVl type == 0 && x.waiting.isSome) then s
    else
      let s := s.setPort p { x with rx := x.rx.erase k }
      f k (s.fxReturn p (fxVl type) (flitsOf (32 + k.payload.length)))

/-- Whether a ring pair belongs to a port and is valid (08 R245). -/
def State.fxOwns (s : State) (p ring : Nat) : Bool :=
  decide (ring < 4096) && s.rd (Reg.RING_CFG ring) F.RING_CFG_ATTACH == 1 + p && s.on (Reg.RING_CFG ring) F.RING_CFG_VALID

/-- Act on a packet of a ring pair of the port, or refuse it with code 0x03. -/
def State.fxRing (s : State) (p type : Nat) (f : FxPkt → State → State) : State :=
  s.fxAct p type (fun k s => if s.fxOwns p k.ring then f k s else s.fxNotice p k.ring k.seq 3)

/-- Input and output bytes a descriptor stages (08 R247). -/
def stagedBytes (b : List Byte) : Nat × Nat :=
  match leAt b 0 1 with
  | 1 => (leAt b 32 4, leAt b 36 4)
  | 2 => (leAt b 24 4, 0)
  | _ => (0, 0)

/-- Whether a window may take a run's output (08 R249). -/
def FxPort.outOk (x : FxPort) (ring w bytes : Nat) : Bool :=
  match x.win w with
  | some v => v.ring == ring && v.kind == 2 && !v.released && decide (bytes ≤ v.size) && !x.outw.any (fun e => e.2.2 == w)
  | none => false

/-- Start the descriptor of a COMMAND, with the failure it completes with if it has one. -/
def State.fxStart (s : State) (p : Nat) (k : FxPkt) (fail : Option Fail) : State :=
  let x := s.port p
  let (q, w) := Tab.get (0, 0) x.want k.ring
  let s := s.setPort p { x with want := Tab.put (0, 0) x.want k.ring ((q + 1) % 2 ^ 32, w - 1) }
  let s := s.startDesc k.ring k.seq k.payload
  match fail with
  | some f => s.updDesc k.ring k.seq (fun d => { d with fail := some f })
  | none => s

/-- A RUN_PIPELINE names its output window until it completes, whatever becomes of it (08 R249). -/
def State.fxNames (s : State) (p : Nat) (k : FxPkt) : State :=
  if leAt k.payload 0 1 == 1 && (stagedBytes k.payload).2 != 0 then
    s.setPort p { s.port p with outw := (s.port p).outw ++ [(k.ring, k.seq, k.window)] }
  else s

/-- Take a COMMAND: refused descriptors start without staging; others reserve it, or wait (08 R247, R249). -/
def State.fxCommand (s : State) (p : Nat) (k : FxPkt) : State :=
  let b := k.payload
  let (i, o) := stagedBytes b
  let total := (s.fxRegion p).2
  let x := s.port p
  let run := leAt b 0 1 == 1
  if (descFault b true).isSome then (s.fxNames p k).fxStart p k none
  else if total < i + o then (s.fxNames p k).fxStart p k (some (illegal 5 (if run then 32 else 24)))
  else if run && o != 0 && !x.outOk k.ring k.window o then (s.fxNames p k).fxStart p k (some (illegal 5 36))
  else if i + o = 0 then s.fxStart p k none
  else match fitStage x.stages total (i + o) with
    | none => s.setPort p { x with waiting := some k }
    | some at_ => ((s.setPort p { x with stages := x.stages ++ [⟨k.ring, k.seq, at_, i, o, false⟩] }).fxNames p k).fxStart p k none

/-- Whether a ring pair still fetches (06 R195, R196, R200, 08 R250): it is enabled without error, its context is in use, and
its completion window is registered and not released. -/
def State.fxFetches (s : State) (p ring : Nat) : Bool :=
  s.rd (Reg.RING_STATUS ring) F.RING_STATUS_STATE == 1 && s.ctxValid (s.rd (Reg.RING_CFG ring) F.RING_CFG_CTX) &&
    (((s.port p).cqWin ring).map (fun e => !e.2.released)).getD false

/-- Whether a COMMAND is one a ring pair waits for. -/
def State.fxExpects (s : State) (p : Nat) (k : FxPkt) : Bool :=
  (Tab.get (0, 0) (s.port p).want k.ring).2 != 0 && s.rd (Reg.RING_HEAD k.ring) F.RING_HEAD_SQ_HEAD == k.seq &&
    s.fxFetches p k.ring

/-- Whether the oldest packet of lane 0 is a COMMAND whose ring pair has a FENCE open: it waits, and what follows it with it
(06 R208, DESIGN CHOICE, notes/assumptions/100.md). -/
def State.fxFenced (s : State) (p : Nat) : Bool :=
  match (s.port p).rx.find? (fun k => fxVl k.type == 0) with
  | some k => k.type == 1 && s.fxOwns p k.ring && s.fxExpects p k && s.ringFenced k.ring
  | none => false

/-- COMMAND (08 R246). -/
def execCommand (p : Fin 4) (s : State) : Out :=
  .next (if s.fxFenced p then s else s.fxRing p 1 (fun k s =>
    let s := s.pmcFx p 0 1
    let x := s.port p
    if !s.fxExpects p k then
      let s := if (Tab.get (0, 0) x.want k.ring).2 = 0 ∨ x.again.contains k.ring = true then s
        else s.setPort p { x with again := x.again ++ [k.ring] }
      s.fxNotice p k.ring k.seq 5
    else
      let s := s.fxCommand p k
      -- the credits of a COMMAND that waits are held back
      if (s.port p).waiting.isSome then
        s.setPort p { s.port p with ret := Tab.put 0 (s.port p).ret 0 (Tab.get 0 (s.port p).ret 0 - 1) }
      else s))

/-- STAGING_RESERVED (08 R247): a reservation that fits now is made; a COMMAND whose ring pair no longer fetches is refused. -/
def execStagingReserved (p : Fin 4) (s : State) : Out :=
  .next (match (s.port p).waiting with
    | none => s
    | some k =>
      let u := s.setPort p { s.port p with waiting := none }
      if !s.fxOwns p k.ring then (u.fxReturn p 0 1).fxNotice p k.ring k.seq 3
      else if !u.fxExpects p k then (u.fxReturn p 0 1).fxNotice p k.ring k.seq 5
      else
        let s' := u.fxCommand p k
        if (s'.port p).waiting.isSome then s else s'.fxReturn p 0 1)

/-- Bytes of payload a descriptor's DATA_IN packets carry. -/
def Desc.wantIn (d : Desc) : Nat := (stagedBytes d.bytes).1

/-- A DATA_IN out of order: the notice, and the descriptor completes with ILLEGAL_IMAGE; the DETAIL is a value the manual
does not state. -/
def State.dataInBad (s : State) (p : Nat) (k : FxPkt) : State :=
  let s := s.fxNotice p k.ring k.seq 6
  match s.desc k.ring k.seq with
  | none => s
  | some d =>
    if d.done || d.fail.isSome then s
    else
      let (v, s) := s.draw
      let f := illegal 5 (v % 2 ^ 32)
      if d.run.isSome then s.fixRun k.ring k.seq f
      else if d.begun then s.endDesc d (some f)
      else s.setDesc { d with fail := some f }

/-- What a DATA_IN message that names descriptor `d`, staged at `g`, does (08 R247): in order it is stored in the staging
window and counted, and a refused store fails the instruction that waits for the data. -/
def State.dataInTo (s : State) (p : Fin 4) (k : FxPkt) (d : Desc) (g : FxStage) : State :=
  let fin := d.inp.length + k.payload.length
  if k.offset != d.inp.length || decide (d.wantIn < fin) || (bitAt k.flags 0 && fin != d.wantIn) then s.dataInBad p k
  else
    let w := (s.pmcFx p 2 k.payload.length).stageWrite p (g.base + k.offset) k.payload
    let s := w.2.setDesc { d with inp := d.inp ++ k.payload }
    if w.1 = .ok then s
    else if d.run.isSome then s.fixRun k.ring k.seq ⟨w.1.status, 0, 0, 0⟩
    else s.endDesc d (some ⟨w.1.status, 0, 0, 0⟩)

/-- A DATA_IN message at the port: of an open descriptor that is staged, or out of order. -/
def State.dataInMsg (s : State) (p : Fin 4) (k : FxPkt) : State :=
  match s.desc k.ring k.seq, (s.port p).stage k.ring k.seq with
  | some d, some g => s.dataInTo p k d g
  | _, _ => s.dataInBad p k

/-- DATA_IN (08 R247). -/
def execDataIn (p : Fin 4) (s : State) : Out :=
  .next (s.fxRing p 2 (fun k s => s.dataInMsg p k))

/-- FX_DOORBELL (06 R202, 08 R249). -/
def execFxDoorbell (p : Fin 4) (s : State) : Out :=
  .next (s.fxRing p 3 (fun k s =>
    match (s.port p).cqWin k.ring with
    | some (_, w) => if w.released then s.fxNotice p k.ring k.seq 4 else s.doorbell k.ring (leNat k.payload)
    | none => s.fxNotice p k.ring k.seq 4))

/-- FETCH_RESEND (08 R246). -/
def execFetchResend (p : Fin 4) (s : State) : Out :=
  .next (match (s.port p).again with
    | [] => s
    | r :: rest =>
      let x := s.port p
      let w := Tab.get (0, 0) x.want r
      let s := s.setPort p { x with again := rest }
      if w.2 = 0 then s
      else if !s.fxFetches p r then s.fxForget r
      else s.fxFetch p r (s.rd (Reg.RING_HEAD r) F.RING_HEAD_SQ_HEAD) w.2)

/-- Send a WINDOW_ACK. -/
def State.fxAck (s : State) (p ring w code : Nat) : State :=
  s.fxQueue p { FxPkt.blank with type := 0x23, ring := ring, window := w, code := code }

/-- WINDOW_REG (08 R248). -/
def execWindowReg (p : Fin 4) (s : State) : Out :=
  .next (s.fxRing p 4 (fun k s =>
    let x := s.port p
    let kind := leAt k.payload 0 1
    let size := leAt k.payload 4 4
    let ok := (kind == 1 && size == 64 * 2 ^ s.rd (Reg.RING_CFG k.ring) F.RING_CFG_CQ_LOG2) ||
      (kind == 2 && size % 128 == 0 && decide (128 ≤ size) && decide (size ≤ 0x1000000))
    if !ok then s.fxAck p k.ring k.window 1
    else if (x.win k.window).isSome then s.fxAck p k.ring k.window 2
    else if kind == 1 && (x.cqWin k.ring).isSome then s.fxAck p k.ring k.window 3
    else
      (s.setPort p { x with wins := Tab.put none x.wins k.window (some ⟨k.ring, kind, size, false⟩) }).fxAck p k.ring k.window 0))

/-- WINDOW_RELEASE (08 R250): the window is withdrawn from new use, and with a completion window the ring pair's fetches
stop. For an ID that is not registered nothing can write into
the window, and the acknowledgement is sent at once (DESIGN CHOICE, notes/assumptions/51.md). -/
def execWindowRelease (p : Fin 4) (s : State) : Out :=
  .next (s.fxAct p 5 (fun k s =>
    let x := s.port p
    match x.win k.window with
    | none => s.fxAck p k.ring k.window 0
    | some w =>
      let s := s.setPort p { x with wins := Tab.put none x.wins k.window (some { w with released := true }) }
      if w.kind = 1 ∧ s.ringPort w.ring = some p.val then s.fxForget w.ring else s))

/-- Whether nothing can write into a released window any more (08 R250). -/
def State.windowIdle (s : State) (p id : Nat) (w : FxWin) : Bool :=
  let x := s.port p
  (if w.kind = 1 then (s.ringDescs w.ring).isEmpty else !x.outw.any (fun e => e.2.2 == id)) && x.txq.all (fun f => f.type != 0x21 && f.type != 0x22)

/-- WINDOW_RELEASE_ACK (08 R250). -/
def execWindowReleaseAck (p : Fin 4) (s : State) : Out :=
  let x := s.port p
  .next (match x.wins.find? (fun e => match e.2 with
      | some w => w.released && s.windowIdle p e.1 w
      | none => false) with
    | some (id, some w) => (s.setPort p { x with wins := Tab.put none x.wins id none }).fxAck p w.ring id 0
    | _ => s)

/-- MGMT (08 R243, 20 R484): a management message reaches the PMC. A source holds one request at a time: a message that
meets a request still held waits. -/
def execMgmt (p : Fin 4) (s : State) : Out :=
  .next (s.fxAct p 0x31 (fun k s => s.mgmtRequest (3 + p) k.payload))

/-- FINXIS_RESET (08 R253, 17 R413). `pulse` tells of an MRAM write pulse in progress (17 R415). -/
def execFinxisReset (p : Fin 4) (pulse : Bool) (s : State) : Out :=
  .next (s.fxAct p 0x32 (fun k s =>
    if !s.on (Reg.FX_CFG p) F.FX_CFG_RESET_EN then s.fxNotice p k.ring k.seq 8
    else (s.wr Reg.RCC_RST_CAUSE F.RCC_RST_CAUSE_FX_PORT p).warmSource F.RCC_RST_CAUSE_FINXIS pulse))

end Sys2Proof.Machine
end

