-- ==== Sys2Proof/Machine/NetCmds.lean ====
section
/-! DEFINITION. The package network (11): routing of flits, cut-offs, credits, network errors at their requesters, and the
1 ms timeouts of outstanding transactions (19 R465). -/

namespace Sys2Proof.Machine
open Sys2Proof

/-! ### Codes (11 R310, R311) -/

/-- Whether a class and OP are in the table *Message codes*. -/
def msgCoded (cls op : Nat) : Bool :=
  match cls with
  | 0 => decide (0x01 ≤ op) && decide (op ≤ 0x10)
  | 1 => decide (0x20 ≤ op) && decide (op ≤ 0x29)
  | 2 => decide (0x40 ≤ op) && decide (op ≤ 0x49)
  | 3 => decide (0x60 ≤ op) && decide (op ≤ 0x67)
  | 4 => op == 0x80 || op == 0x81
  | 5 => decide (0xA0 ≤ op) && decide (op ≤ 0xA5)
  | _ => false

/-- The class and OP of a request of *Coherence messages* (10 R292); a directory victim's removal is the home's own and travels
as snoops. -/
def ReqKind.code : ReqKind → Option (Nat × Nat)
  | .rdShared => some (0, 0x01)
  | .rdNoexcl => some (0, 0x02)
  | .rdUnique => some (0, 0x03)
  | .upgrade => some (0, 0x04)
  | .zeroUnique => some (0, 0x05)
  | .cmoClean => some (0, 0x06)
  | .cmoFlush => some (0, 0x07)
  | .rdNoalloc => some (0, 0x08)
  | .wrFull => some (0, 0x09)
  | .wrMask => some (0, 0x0A)
  | .dirEvict => none

/-- Whether a stop holds an agent by its function (01 R17, 11 R310). -/
def stopHolds (t a : Nat) : Bool :=
  a ≤ 1 || a == 14 || (match (stopFunc t).1 with
    | 1 => a == 2 || a == 3
    | 2 => a == 4 || a == 5
    | 3 => decide (6 ≤ a) && decide (a ≤ 9)
    | 4 => a == 10 || a == 11
    | 5 => a == 12 || a == 13
    | 6 => a == 15
    | _ => false)

/-! ### Routing (11 R313, R314) -/

/-- An output of a router. -/
inductive OutPort where
  | xPos | xNeg | yPos | yNeg | eject
  deriving DecidableEq, Repr

/-- Number of an output: the bit of its link in LINK_DOWN. -/
def OutPort.num : OutPort → Nat
  | .xPos => 0
  | .xNeg => 1
  | .yPos => 2
  | .yNeg => 3
  | .eject => 4

/-- Whether the shorter way from `a` to `b` on a ring of 8 goes positive; `long` takes the other. -/
def goesPos (a b : Nat) (long : Bool) : Bool := decide ((b + 8 - a) % 8 ≤ 4) != long

/-- The output of a flit at router `here` (11 R313). -/
def State.route (s : State) (here : Nat) (arr : Arrival) (f : Flit) : OutPort :=
  let e := if f.epoch = 0 then Reg.RTR_TTA here f.dst else Reg.RTR_TTB here f.dst
  if here % 8 ≠ f.dst.val % 8 then
    match arr with
    | .xPos => .xPos
    | .xNeg => .xNeg
    | _ => if goesPos (here % 8) (f.dst.val % 8) (s.on e F.RTR_TTA_X_LONG) then .xPos else .xNeg
  else if here / 8 ≠ f.dst.val / 8 then
    match arr with
    | .yPos => .yPos
    | .yNeg => .yNeg
    | _ => if goesPos (here / 8) (f.dst.val / 8) (s.on e F.RTR_TTA_Y_LONG) then .yPos else .yNeg
  else .eject

/-- The virtual channel of a flit on its output link (11 R314): 0 on entering a dimension, 1 from the dateline link on. -/
def outVc (here : Nat) (arr : Arrival) (o : OutPort) (vc : Nat) : Nat :=
  let x := here % 8
  let y := here / 8
  match o with
  | .xPos => if x = 7 then 1 else (match arr with
    | .xPos => vc
    | _ => 0)
  | .xNeg => if x = 0 then 1 else (match arr with
    | .xNeg => vc
    | _ => 0)
  | .yPos => if y = 7 then 1 else (match arr with
    | .yPos => vc
    | _ => 0)
  | .yNeg => if y = 0 then 1 else (match arr with
    | .yNeg => vc
    | _ => 0)
  | .eject => 0

/-! ### Cut-offs and discards (11 R324, R325) -/

/-- Record a cut-off, discard or configuration-bus ending at router `t`, and raise the event of the packet's source stop. -/
def State.cutRecord (s : State) (t src cls agent cause tag : Nat) : State :=
  let o := Reg.RTR_CUT t
  let s := if s.on o F.RTR_CUT_VALID then s.wr o F.RTR_CUT_MORE 1
    else s.wrs o [(F.RTR_CUT_VALID, 1), (F.RTR_CUT_MORE, 0), (F.RTR_CUT_SRC, src), (F.RTR_CUT_CLASS, cls),
      (F.RTR_CUT_SRC_AGENT, agent), (F.RTR_CUT_CAUSE, cause), (F.RTR_CUT_TAG, tag)]
  s.raise (161 + src)

/-- Requests of a cluster by OP. -/
def reqOfOp (op : Nat) : Option ReqKind :=
  match op with
  | 1 => some .rdShared
  | 2 => some .rdNoexcl
  | 3 => some .rdUnique
  | 4 => some .upgrade
  | 5 => some .zeroUnique
  | 6 => some .cmoClean
  | 7 => some .cmoFlush
  | _ => none

/-- Change what the routers hold. -/
def State.fab (s : State) (f : Fabric → Fabric) : State := { s with fabric := f s.fabric }

/-- Answer a REQ or MGT packet with RSP_ERROR (11 R325, R326), which travels to its source agent. The request of a cluster that
the packet carries is the one that fails. -/
def State.reqError (s : State) (t : Nat) (f : Flit) (code : Nat) : State :=
  let s := (s.logFw f.who (128 * f.addr) (f.op == 3)).answer .error
  let s := s.fab (fun x => { x with mgt := if f.cls = 5 then x.mgt.erase (f.src.val, f.srcAgent, f.dst.val) else x.mgt })
  match stopFunc f.src, reqOfOp f.op with
  | (1, c), some k =>
    let cl := s.cluster c
    match cl.reqs.find? (fun r => r.kind == k && r.ln == f.addr && !r.sent) with
    | some r =>
      let s := s.setCluster c { cl with reqs := cl.reqs.map (fun x => if x == r then { x with sent := true } else x) }
      s.post ⟨.rspError code, f.addr, t, c, noData, r.who, 0⟩
    | none => s
  | _, _ => s.post ⟨.rspError code, f.addr, t, errAgent f.src f.srcAgent, noData, f.who, 0⟩

/-- A packet leaves the network: the count of its epoch falls (11 R321). -/
def State.pktGone (s : State) (f : Flit) : State :=
  { s with pkts := Tab.put 0 s.pkts f.epoch (Tab.get 0 s.pkts f.epoch - 1) }

/-- Key of a credit: sender, receiver and stage, 0 for XCH. -/
def creditKey (a b stage : Nat) : Nat := 32 * (64 * a + b) + stage

/-- Return a credit to its sender. -/
def State.giveCredit (s : State) (a b stage : Nat) : State :=
  let k := creditKey a b stage
  { s with credits := Tab.put 0 s.credits k (Tab.get 0 s.credits k - 1) }

/-- What the flits of a packet have in common (11 R312): all of the header but INDEX, LAST and VC; a closing flit sets POISON. -/
def flitHeader (f : Flit) : Flit := { f with index := 0, last := false, vc := 0, poison := false, payload := [] }

/-- Whether two flits are of one packet. -/
def samePacket (f g : Flit) : Bool := flitHeader f == flitHeader g

/-- A router discards a flit of a packet (11 R324, R325): the first it discards is recorded, and the rest of the packet follows
it up to its LAST. A REQ or MGT packet discarded from its first flit is answered CUT_OFF. -/
def State.discard (s : State) (t : Nat) (f : Flit) (cause : Nat) : State :=
  if s.fabric.cut.contains (t, flitHeader f) then
    (s.fab (fun x => if f.last then { x with cut := x.cut.erase (t, flitHeader f) } else x)).answer .error
  else
    let s := s.fab (fun x => if f.last then x else { x with cut := x.cut ++ [(t, flitHeader f)] })
    let s := (s.cutRecord t f.src f.cls f.srcAgent cause f.tag).answer .error
    if f.index ≠ 0 then s
    else
      let s := s.pktGone f
      if f.cls = 0 ∨ f.cls = 5 then s.reqError t f codeCutOff else s

/-! ### Statistics (11 R327) -/

/-- Count a packet whose LAST flit is ejected; `first` is the FCLK count at which its first flit was. -/
def State.statEject (s : State) (t first : Nat) (f : Flit) : State :=
  let c := Reg.RTR_STAT_CTRL t
  let ok := s.on c F.RTR_STAT_CTRL_EN &&
    (!s.on c F.RTR_STAT_CTRL_PID_EN || s.rd c F.RTR_STAT_CTRL_PID == f.who.pid) &&
    (!s.on c F.RTR_STAT_CTRL_CLASS_EN || s.rd c F.RTR_STAT_CTRL_CLASS == f.cls)
  if !ok then s
  else
    let lat := (first + 16384 - f.time % 16384) % 16384
    let s := s.wrW (Reg.RTR_IPKT t f.src) (s.rdW (Reg.RTR_IPKT t f.src) + 1)
    let s := s.wrW (Reg.RTR_IFLIT t f.src) (s.rdW (Reg.RTR_IFLIT t f.src) + BitVec.ofNat 64 (f.index + 1))
    let o := Reg.RTR_ILAT t f.src
    let s := s.wr o F.RTR_ILAT_MAX (max (s.rd o F.RTR_ILAT_MAX) lat)
    s.addF o F.RTR_ILAT_SUM lat

/-! ### Ejection (11 R324, R326, 19 R461) -/

/-- The DAT messages by OP. -/
def datOfOp (op : Nat) (k : MKind) : Bool := k.code == (3, op)

/-- Poison the line of the first message in flight that a DAT packet carries. -/
def poisonFirst (p : Msg → Bool) : List Msg → List Msg
  | [] => []
  | m :: l => if p m then { m with data := { m.data with poison := true } } :: l else m :: poisonFirst p l

/-- What the receiver of a packet that was cut off does (19 R461): a REQ or MGT packet is answered CUT_OFF, a DAT packet
delivers its line as poison, and a survivor, probe, exchange or top-k packet ends the receiving task with POISON. -/
def State.cutPacket (s : State) (t : Nat) (f : Flit) : State :=
  if f.cls = 0 ∨ f.cls = 5 then s.reqError t f codeCutOff
  else if f.op = 0x65 ∨ f.op = 0x66 ∨ f.op = 0x80 ∨ f.op = 0x81 then
    match stopFunc f.dst with
    | (1, c) => s.failTask c 0x12 0 0xFFFF
    | _ => s
  else { s with net := poisonFirst (fun m => datOfOp f.op m.kind && m.ln == f.addr) s.net }

/-- The proxy of a fenced agent receives a packet's LAST flit (11 R326): requests are answered DOMAIN_OFF, snoops RSP_I by a
caching agent's proxy, with their credit; the rest is sunk. -/
def State.proxy (s : State) (t : Nat) (f : Flit) : State :=
  if f.cls = 0 ∨ f.cls = 5 then s.reqError t f codeDomainOff
  else if f.cls = 1 then
    let s := s.giveCredit f.src t f.stage
    if f.dstAgent = 2 ∨ f.dstAgent = 12 then
      let a := if f.dstAgent = 2 then (stopFunc t).2 else 36
      s.onMsg (fun m => m.kind.code == (1, f.op) && m.agent == a && m.ln == f.addr)
        (fun m s => s.post ⟨.rspI, f.addr, m.home, a, noData, m.who, 0⟩)
    else s.reqError t f codeDomainOff
  else s

/-- A flit is ejected at its destination: statistics at the LAST one, the fence's proxy for a fenced agent (11 R326), and the
end of a packet that a closing flit cut short (R324). An answer ends the wait of the MGT request it is for (R316). -/
def State.eject (s : State) (t first : Nat) (f : Flit) : State :=
  let s := s.answer (.ok 4)
  let s := if s.fenced t f.dstAgent && f.cls == 4 then s.giveCredit f.src t 0 else s
  if !f.last then (if f.index = 0 then s.fab (fun x => { x with heads := x.heads ++ [(flitHeader f, first)] }) else s)
  else
    let at_ := (s.fabric.heads.lookup (flitHeader f)).getD first
    let s := (s.statEject t at_ f).pktGone f
    let short := s.fabric.closed.contains (flitHeader f)
    let s := s.fab (fun x => { x with
      closed := x.closed.erase (flitHeader f)
      heads := x.heads.eraseP (fun e => e.1 == flitHeader f)
      mgt := if f.cls = 2 then x.mgt.erase (t, f.dstAgent, f.src.val) else x.mgt })
    if s.fenced t f.dstAgent then s.proxy t f else if short then s.cutPacket t f else s

/-! ### Injection (11 R312, R316, R317, R320, R321, R326) -/

/-- What a source injects (11 R320, R321): the first flit of a packet gets its CURRENT epoch; a packet for a home or aggregation
unit goes to the substitute of the source's own entry, in the table of its epoch. -/
def State.stamped (s : State) (t : Nat) (f : Flit) : Flit :=
  let f : Flit := if f.index = 0 then { f with epoch := s.rd (Reg.RTR_NET t) F.RTR_NET_CURRENT } else f
  let e := if f.epoch = 0 then Reg.RTR_TTA t f.dst else Reg.RTR_TTB t f.dst
  if f.dstAgent ≤ 1 ∧ s.on e F.RTR_TTA_REMAP = true then { f with dst := Fin.ofNat 64 (s.rd e F.RTR_TTA_SUBST) } else f

/-- Key of an output of router `t`, by its number, or of its injection port. -/
def outKey (t k : Nat) : Nat := if k < 4 then 4 * t + k else 256 + t
def injKey (t : Nat) : Nat := 320 + t

/-- Whether a flit is the next of the packets that hold a port: of the packet that holds it, the flit after the last that
passed; of a free port, a first flit (11 R312). -/
def nextOf (held : Option (Nat × Flit)) (f : Flit) : Bool :=
  match held with
  | some p => samePacket p.2 f && f.index == p.2.index + 1
  | none => f.index == 0

/-- Whether a source may inject a flit now: it is an agent of its stop; its injection port is free or the packet's; a fenced agent starts no packet (11
R326); SNP and XCH need credits, and MGT that none of the agent's to that stop is unanswered (R316, R317, 05 R184). -/
def State.mayInject (s : State) (t : Nat) (f : Flit) : Bool :=
  f.src.val == t && stopHolds t f.srcAgent && nextOf (s.fabric.part.find? (fun p => p.1 == injKey t)) f &&
  !(decide (f.index = 0) && s.fenced t f.srcAgent) &&
  (match f.cls with
   | 1 => decide (f.index ≠ 0) || Tab.get 0 s.credits (creditKey t f.dst f.stage) == 0
   | 4 => decide (Tab.get 0 s.credits (creditKey t f.dst 0) < 16)
   | 5 => decide (f.index ≠ 0) || !s.fabric.mgt.contains (t, f.srcAgent, f.dst.val)
   | _ => true)

/-- Injection takes the credit and counts the packet, which holds the injection port up to its LAST flit. -/
def State.injected (s : State) (t : Nat) (f : Flit) : State :=
  let take (s : State) (k : Nat) : State := { s with credits := Tab.put 0 s.credits k (Tab.get 0 s.credits k + 1) }
  let s := if f.cls = 4 then take s (creditKey t f.dst 0)
    else if f.cls = 1 ∧ f.index = 0 then take s (creditKey t f.dst f.stage) else s
  let s := s.fab (fun x => { x with
    part := x.part.filter (fun p => p.1 != injKey t) ++ (if f.last then [] else [(injKey t, { f with payload := [] })])
    mgt := if f.cls = 5 ∧ f.index = 0 then x.mgt ++ [(t, f.srcAgent, f.dst.val)] else x.mgt })
  if f.index = 0 then { s with pkts := Tab.put 0 s.pkts f.epoch (Tab.get 0 s.pkts f.epoch + 1) } else s

/-! ### Buffers and links (11 R308, R312, 19 R464) -/

/-- The router an output of router `t` leads to. -/
def nextStop (t : Nat) (o : OutPort) : Nat :=
  let x := t % 8
  let y := t / 8
  match o with
  | .xPos => 8 * y + (x + 1) % 8
  | .xNeg => 8 * y + (x + 7) % 8
  | .yPos => 8 * ((y + 1) % 8) + x
  | .yNeg => 8 * ((y + 7) % 8) + x
  | .eject => t

/-- The number of the input port a flit that travels in a direction comes in at: that of the output it left by. -/
def arrPort : Arrival → Option Nat
  | .inject => none
  | .xPos => some 0
  | .xNeg => some 1
  | .yPos => some 2
  | .yNeg => some 3

/-- The direction of travel at an input port. -/
def portArr (p : Nat) : Arrival :=
  match p with
  | 0 => .xPos
  | 1 => .xNeg
  | 2 => .yPos
  | _ => .yNeg

/-- The output link, 4·router + output, that a flit came to router `t` by. -/
def linkInto (t : Nat) (arr : Arrival) : Option (Nat × Nat) :=
  match arr with
  | .inject => none
  | .xPos => some (nextStop t .xNeg, 0)
  | .xNeg => some (nextStop t .xPos, 1)
  | .yPos => some (nextStop t .yNeg, 2)
  | .yNeg => some (nextStop t .yPos, 3)

/-- Key of the buffers of virtual channel `vc` of a class at input port `p` of router `t`. -/
def bufKey (t p cls vc : Nat) : Nat := ((4 * t + p) * 8 + cls) * 2 + vc

/-- The flits in the buffers of a virtual channel. -/
def State.buf (s : State) (k : Nat) : List Flit := Tab.get [] s.fabric.bufs k

/-- Change the flits in the buffers of a virtual channel. -/
def State.setBuf (s : State) (k : Nat) (l : List Flit) : State := s.fab (fun x => { x with bufs := Tab.put [] x.bufs k l })

/-- The buffers a flit that leaves router `t` by an output link moves to. -/
def nextBuf (t : Nat) (o : OutPort) (cls vc : Nat) : Nat := bufKey (nextStop t o) o.num cls vc

/-- Where a flit at router `t` goes on, or why it is discarded (11 R313, R325). -/
def State.outOf (s : State) (t : Nat) (arr : Arrival) (f : Flit) : Except Nat OutPort :=
  if !msgCoded f.cls f.op then .error 3
  else if !stopHolds f.dst f.dstAgent then .error 4
  else
    let o := s.route t arr f
    if o != .eject && bitAt (s.rd (Reg.RTR_NET t) F.RTR_NET_LINK_DOWN) o.num then .error 2 else .ok o

/-- Whether a flit may take an output: the virtual channel it needs is its packet's or free, and a buffer is free behind the
link (11 R308, R312). -/
def State.mayCross (s : State) (t : Nat) (arr : Arrival) (o : OutPort) (f : Flit) : Bool :=
  let v := outVc t arr o f.vc
  nextOf (s.fabric.part.find? (fun p => p.1 == outKey t o.num && p.2.cls == f.cls && p.2.vc == v)) f &&
    (o == .eject || decide ((s.buf (nextBuf t o f.cls v)).length < 8))

/-! ### Arbiters (11 R323) -/

/-- The requester number of the injection port at a router's outputs; those of the inputs' buffers are their `bufKey`
within the router. -/
def injReq : Nat := 64

/-- The inputs that request an output of router `t`: those whose oldest flit may take it. -/
def State.raised (s : State) (t : Nat) (o : OutPort) : List Nat :=
  s.fabric.bufs.filterMap (fun e =>
    if e.1 / 64 ≠ t then none
    else match e.2 with
      | [] => none
      | f :: _ =>
        let arr := portArr (e.1 / 16 % 4)
        match s.outOf t arr f with
        | .ok o' => if o' == o && s.mayCross t arr o f && !s.fabric.cut.contains (t, flitHeader f) then some (e.1 % 64) else none
        | .error _ => none)

/-- The winner among requesters: a forced one where a requester has lost as often as WAIT_LIMIT, and the first from the pointer
on. -/
def arbWinner (ptr limit : Nat) (lost : List (Nat × Nat)) (rs : List Nat) : Nat :=
  let n (r : Nat) : Nat := (lost.lookup r).getD 0
  let forced := if limit = 0 then [] else rs.filter (fun r => decide (limit ≤ n r))
  let c := if forced.isEmpty then rs else forced
  let far (r : Nat) : Nat := (r + 65 - ptr % 65) % 65
  c.foldl (fun a r => if far r < far a then r else a) (c.headD 0)

/-- The arbiter of an output: its pointer and losses. -/
def State.arbiter (s : State) (t : Nat) (o : OutPort) : Nat × List (Nat × Nat) := Tab.get (0, []) s.fabric.arb (outKey t o.num)

/-- Whether requester `r` wins the next decision at an output. -/
def State.wins (s : State) (t : Nat) (o : OutPort) (r : Nat) : Bool :=
  let a := s.arbiter t o
  arbWinner a.1 (s.rd (Reg.RTR_ARB t) F.RTR_ARB_WAIT_LIMIT) a.2 ((s.raised t o).erase r ++ [r]) == r

/-- The arbiter of an output after requester `r` wins: the pointer moves behind it, and the others have lost once more. -/
def State.arbGrant (s : State) (t : Nat) (o : OutPort) (r : Nat) : State :=
  let a := s.arbiter t o
  let lost := ((s.raised t o).erase r).map (fun q => (q, (a.2.lookup q).getD 0 + 1))
  s.fab (fun x => { x with arb := Tab.put (0, []) x.arb (outKey t o.num) ((r + 1) % 65, lost) })

/-! ### Forwarding -/

/-- A flit passes an output: its packet holds the virtual channel up to its LAST flit, and behind a link it takes a buffer. -/
def State.pass (s : State) (t : Nat) (arr : Arrival) (o : OutPort) (f : Flit) (first : Nat) : State :=
  let v := outVc t arr o f.vc
  let g : Flit := { f with vc := v }
  let l := outKey t o.num
  let s := s.fab (fun x => { x with
    part := x.part.filter (fun p => !(p.1 == l && p.2.cls == f.cls && p.2.vc == v)) ++
      (if f.last then [] else [(l, { g with payload := [] })]) })
  match o with
  | .eject => s.eject t first f
  | _ =>
    let k := nextBuf t o f.cls v
    ((s.setBuf k (s.buf k ++ [g])).pmcStop t (11 + o.num) (some f.who)).answer (.ok (o.num + 8 * v))

/-- Whether a flit at router `t` stays where it stands: its output's channel is held, no buffer is free, or requester `r` loses
(11 R308, R312, R323). A flit to be discarded goes. -/
def State.waits (s : State) (t : Nat) (arr : Arrival) (f : Flit) (r : Nat) : Bool :=
  !s.fabric.cut.contains (t, flitHeader f) &&
  (match s.outOf t arr f with
   | .error _ => false
   | .ok o => !(s.mayCross t arr o f && s.wins t o r))

/-- A flit at router `t` leaves where it stood, by `take`, and goes on as requester `r`, or is discarded (11 R313, R325). -/
def State.forward (s : State) (t : Nat) (arr : Arrival) (f : Flit) (first r : Nat) (take : State → State) : State :=
  match if s.fabric.cut.contains (t, flitHeader f) then .error 1 else s.outOf t arr f with
  | .error c => (take s).discard t f c
  | .ok o => (take (s.arbGrant t o r)).pass t arr o f first

/-! ### Link errors (19 R464) -/

/-- Record an error of output link `k` of router `u` (19 R464, R466). -/
def State.linkRecord (s : State) (u k cls : Nat) (f : Flit) : State :=
  s.recordErr (.stop u (4 + k)) ⟨cls, f.who, 5, false, 128 * f.addr, 0, 0⟩

/-- Down links of the ring that output link `k` of router `u` is of: both directions of a row or a column
(notes/assumptions/104.md). -/
def State.ringDown (s : State) (u k : Nat) : Nat :=
  let stops := (List.range 8).map (fun i => if k < 2 then 8 * (u / 8) + i else 8 * i + u % 8)
  let ports := if k < 2 then [0, 1] else [2, 3]
  (stops.map (fun t => (ports.filter (fun p => bitAt (s.rd (Reg.RTR_NET t) F.RTR_NET_LINK_DOWN) p)).length)).foldl (· + ·) 0

/-- A packet that has partly passed ends with a closing flit after flit `g`, with POISON and LAST, in the buffers `k` (11 R324, 19
R464). -/
def State.closeWith (s : State) (k : Nat) (g : Flit) : State :=
  (s.setBuf k (s.buf k ++ [{ g with index := g.index + 1, last := true, poison := true, payload := List.replicate 128 0 }])).fab
    (fun x => { x with closed := x.closed ++ [flitHeader g] })

/-- Output link `k` of router `u`, into router `t`, goes down at flit `f` (19 R464): a FATAL_UNIT error, or FATAL_PKG where its
ring has another down link (11 R322). Each packet that has partly crossed it is ended by a poisoned closing flit, and the
flit that failed and those behind it never crossed. -/
def State.linkDead (s : State) (u k t : Nat) (f : Flit) : State :=
  let b := bufKey t k f.cls f.vc
  let back := s.buf b
  let mine (p : Nat × Flit) : Bool := p.2.cls == f.cls && p.2.vc == f.vc
  let here := s.fabric.part.filter (fun p => p.1 == 4 * u + k && !mine p)
  let second := decide (0 < s.ringDown u k)
  let s := s.wr (Reg.RTR_NET u) F.RTR_NET_LINK_DOWN (s.rd (Reg.RTR_NET u) F.RTR_NET_LINK_DOWN ||| 2 ^ k)
  let s := s.linkRecord u k (if second then 5 else 4) f
  let s := (s.setBuf b []).fab (fun x => { x with part := x.part.filter (fun p => p.1 != 4 * u + k), fails := Tab.del x.fails (4 * u + k) })
  let s := here.foldl (fun s p => s.closeWith (bufKey t k p.2.cls p.2.vc) p.2) s
  let s := if f.index = 0 then s else s.closeWith b { f with index := f.index - 1 }
  let s := back.foldl (fun s g => s.discard u g 2) s
  if second then s.fatalPkg else s

/-- A flit fails its link's check with a double-bit error (19 R464): it is discarded and replayed. Where it has failed 4 replays
in a row, or the link has needed too many, the link goes down and the sending router discards the flit. -/
def State.linkReplay (s : State) (u k t : Nat) (many : Bool) (f : Flit) : State :=
  let n := Tab.get 0 s.fabric.fails (4 * u + k) + 1
  if many || decide (5 ≤ n) then s.linkDead u k t f
  else (((s.linkRecord u k 1 f).fab (fun x => { x with fails := Tab.put 0 x.fails (4 * u + k) n }))).answer .error

/-- Whether a flit is the oldest in the buffers it came into at router `t`. -/
def State.flitStands (s : State) (t : Nat) (arr : Arrival) (f : Flit) : Bool :=
  match arrPort arr with
  | none => true
  | some p => (s.buf (bufKey t p f.cls f.vc)).head? == some f

/-- FLIT_ROUTE (11 R307, R308, R312 to R314, R323, 19 R464): the next flit of a source at router `t`, or the oldest of one of its
buffers, asks for its output. The answer is the output (0 X+, 1 X−, 2 Y+, 3 Y−, 4 ejection) plus 8 on VC 1, or an error for a
discarded flit. `first` is the FCLK count at which the packet's first flit was ejected here. A flit that may not be injected or
that loses the output stays where it is; one that stands nowhere is no flit. -/
def execFlitRoute (t : Fin 64) (arr : Crossing) (f : Flit) (first : Nat) (s : State) : Out :=
  .next (match linkInto t arr.dir, arrPort arr.dir with
    | some (u, k), some p =>
      let b := bufKey t p f.cls f.vc
      if !s.flitStands t arr.dir f then s
      else match arr.err with
        | .double many => s.linkReplay u k t many f
        | e =>
          if s.waits t arr.dir f (b % 64) then s
          else
            let s := match e with
              | .single => s.linkRecord u k 1 f
              | _ => s
            (s.fab (fun x => { x with fails := Tab.del x.fails (4 * u + k) })).forward t arr.dir f first (b % 64)
              (fun s => s.setBuf b ((s.buf b).drop 1))
    | _, _ =>
      let f := s.stamped t f
      if s.mayInject t f && !s.waits t .inject f injReq then s.forward t .inject f first injReq (fun s => s.injected t f)
      else s)

/-- GRANT_HOLD_CUTOFF (11 R324): a packet whose header is `f` has held an output's virtual channel, or the injection port, of
router `t` without a flit for HOLD_LIMIT cycles. The router sends one closing flit on the channel, releases it, and discards what
still arrives of the packet. A packet that holds nothing there is not stalled. -/
def execGrantHoldCutoff (t : Fin 64) (f : Flit) (s : State) : Out :=
  let mine (p : Nat × Flit) : Bool := (p.1 == injKey t || p.1 == outKey t 4 || p.1 / 4 == t.val && decide (p.1 < 256)) && samePacket p.2 f
  let held := s.fabric.part.filter mine
  if held.isEmpty then .next s
  else
    let s := s.cutRecord t f.src f.cls f.srcAgent 1 f.tag
    let s := s.fab (fun x => { x with part := x.part.filter (fun p => !mine p), cut := x.cut ++ [(t.val, flitHeader f)] })
    .next (held.foldl (fun s p =>
      if p.1 < 256 then
        let o : OutPort := match p.1 % 4 with
          | 0 => .xPos
          | 1 => .xNeg
          | 2 => .yPos
          | _ => .yNeg
        s.closeWith (nextBuf t o p.2.cls p.2.vc) p.2
      else if p.1 = outKey t 4 then
        (s.fab (fun x => { x with closed := x.closed ++ [flitHeader f] })).eject t 0 { p.2 with index := p.2.index + 1, last := true, poison := true }
      else s) s)

/-- CFG_HOLD_CUTOFF (11 R324): the configuration bus of stop `t` ends a hart's register access. -/
def execCfgHoldCutoff (t : Fin 64) (h : Fin 216) (tag : Nat) (s : State) : Out :=
  match (s.hart h).io with
  | some a =>
    if s.paKind a.pa = .window then
      let src := nthD clusterStops (hartCluster h) 0
      let s := s.cutRecord t src 5 2 5 tag
      let s := s.logFw (s.hart h).ident a.pa a.write.isSome
      .next (s.post ⟨.rspError codeCutOff, 0, t, hartAgent h, noData, (s.hart h).ident, 0⟩)
    else .next s
  | none => .next s

/-- CREDIT (11 R317, 05 R184): a receiver returns one credit to its sender; `stage` 0 is XCH. -/
def execCredit (sender receiver : Fin 64) (stage : Nat) (s : State) : Out :=
  .next (s.giveCredit sender receiver stage)

/-! ### Errors at requesters (11 R311) -/

/-- A hart's I/O access ends in an access fault; snoops held for a reservation this ends are answered (10 R296). -/
def State.ioFails (s : State) (h : Nat) : State :=
  match (s.hart h).io with
  | some a =>
    ((s.setHart h { s.hart h with io := none }).except h (if a.write.isSome then Exc.storeAccess else Exc.loadAccess) a.va).freeHeld
      (hartCluster h)
  | none => s

/-- What a network error does to an engine task (11 R311). -/
def taskStatus (code : Nat) : Nat := if code = codeDomainOff then 0x31 else if code = codeFirewall then 0x11 else 0x12

/-- An access of a running channel fails: the instruction under way ends with REFUSED, an ENCODE dropping the open column (07
R226, R232); with none under way the access is one that closes the oldest page. -/
def State.chanFails (s : State) (n : Nat) : State :=
  if s.chanState n = 2 ∧ (s.chan n).prog.isSome = true ∧ (s.chan n).ending.isNone = true then
    match (s.chan n).work with
    | .encode _ => s.dmDrop n 0x80
    | .move .. | .wait .. => s.dmNext n 0x80
    | .none =>
      match (s.chan n).closing with
      | c :: _ => s.closeRefused n c
      | [] => s
  else s

/-- An RSP_ERROR in flight to an agent has arrived. -/
def State.takeErr (s : State) (code a : Nat) : State :=
  { s with net := s.net.eraseP (fun m => m.kind == .rspError code && m.agent == a) }

/-- RSP_ERROR (11 R311): a requester receives an error code. A cluster or a hart receives one that is in flight to it; an engine
task, a data-mover instruction and a PCIe or CXL requester the one named. -/
def execRspError (x : ErrTarget) (code : Nat) (s : State) : Out :=
  .next (match x with
    | .cluster c ln =>
      s.onMsg (fun m => m.kind == .rspError code && m.agent == c.val && m.ln == ln) (fun m s => s.reqFails c ln m.who)
    | .hart h =>
      s.onMsg (fun m => m.kind == .rspError code && m.agent == hartAgent h) (fun _ s => s.ioFails h)
    | .slice n => (s.takeErr code (errAgent (nthD clusterStops n 0) 3)).failTask n (taskStatus code) 0 0xFFFF
    | .chan n => (s.takeErr code (errAgent rmgStop 13)).chanFails n
    | .link j tag =>
      let s := s.takeErr code (errAgent (nthD pcieStops (j / 16) 0) (6 + j / 8 % 2))
      if (s.link j).up then s.send (.pcieCpl j tag none) else s)

/-! ### Timeouts (19 R465) -/

/-- The record of a timeout (19 R465 names its class and source and no bank, notes/assumptions/74.md). -/
def State.timedOut (s : State) (r : ErrRec) (cls : Nat) (who : Ident) (ln : Nat) : State :=
  s.recordErr r ⟨cls, who, 6, false, 128 * ln, 0, 0⟩

/-- A requester gives up: as on CUT_OFF, with UC_CONSUMED and SOURCE 0x6. -/
def State.answerTimeout (s : State) (x : ErrTarget) : State :=
  match x with
  | .cluster c ln =>
    (match (s.cluster c).reqs.find? (fun r => r.ln == ln && r.sent) with
     | some r => (s.timedOut (.slice c 5) 3 r.who ln).reqFails c ln r.who
     | none => s)
  | .hart h =>
    (match (s.hart h).io with
     | some a => (s.timedOut (.slice (hartCluster h) 4) 3 (s.hart h).ident (a.pa / 128)).ioFails h
     | none => s)
  | .slice n =>
    (match (s.slice n).task with
     | some t => (s.timedOut (.slice n 3) 3 (s.ctxIdent t.ctx) 0).failTask n (taskStatus codeCutOff) 0 0xFFFF
     | none => s)
  | .chan n => if s.chanState n = 2 then (s.timedOut (.pkg 3) 3 (s.chanWho n) 0).chanFails n else s
  | .link j tag => if (s.link j).up then s.send (.pcieCpl j tag none) else s

/-- TRANSACTION_TIMEOUT (19 R465, R469). -/
def execTransactionTimeout (x : Awaited) (s : State) : Out :=
  .next (match x with
    | .answer y => s.answerTimeout y
    | .memData t ln =>
      (match (s.home t).txn ln with
       | some x =>
         if x.mem then
           let s := { s with net := s.net.filter (fun m => !((m.kind == MKind.memRead || m.kind == MKind.memData) && m.home == t.val && m.ln == ln)) }
           (s.timedOut (.stop t 0) 2 x.req.who ln).memData t ln ⟨zeroLine, true⟩
         else s
       | none => s)
    | .snoop t ln a =>
      (match (s.home t).txn ln with
       | some x =>
         if x.await.contains a.val then
           if a.val = 36 then (s.timedOut (.stop t 2) 5 x.req.who ln).fatalPkg
           else
             ((s.snoopAnswer t ln a false (some ⟨zeroLine, true⟩)).fenceCluster a).timedOut (.slice a 5) 4 x.req.who ln
         else s
       | none => s))

end Sys2Proof.Machine
end

