-- ==== Sys2Proof/Machine/HartCmds.lean ====
section
/-! DEFINITION. Memory instructions of harts (12 R329 to R335, 13 R352, 19 R462) and the ends of their register-window and
PCIe accesses (12 R332, 14 R374). An instruction of a hart that is not ready to run one has no effect. -/

namespace Sys2Proof.Machine
open Sys2Proof

/-- Run an instruction of a hart (notes/assumptions/80.md): the hart must be out of reset and debug mode, running and not
waiting, and its cluster not gated (18 R451); a debug halt request that may be taken is taken first (14 R381), then a trigger that fires before the instruction. Where it ends the hart's reservation, snoops held for
that are answered (10 R296). -/
def State.instr (s : State) (h : Nat) (f : State → State) : State :=
  if !(s.hart h).ready || s.hartGated h then s
  else if (s.hart h).haltReq && s.mayHalt h then s.setHart h ((s.hart h).debugged 3)
  else
    let t := match (s.hart h).icountDue, (s.hart h).accTrig 2 (s.hart h).pc.toNat with
      | some i, _ => s.trigFires h i 0
      | none, some i => if (s.hart h).trigHalts i && !s.mayHalt h then f s else s.trigFires h i (s.hart h).pc.toNat
      | none, none => f s
    if (s.hart h).resv.isSome && (t.hart h).resv != (s.hart h).resv then t.freeHeld (hartCluster h) else t

/-! ### Loads and stores -/

/-- Number of a destination register, as `Hart.wd` takes it. -/
def lsRegNum : LsReg → Nat
  | .x r => r
  | .f r => 32 + r
  | .v r b => 64 + 32 * r.val + b

/-- The low bytes of a register a store writes. -/
def Hart.srcBytes (h : Hart) (size : Nat) : LsReg → List Byte
  | .x r => leBytes size (h.rx r).toNat
  | .f r => leBytes size (h.rf r).toNat
  | .v r b => h.rv (32 * r.val + b) size

/-- Whether the floating-point or vector state a register needs is enabled (mstatus.FS and VS, and vsstatus when V is 1). -/
def Hart.regOn (h : Hart) : LsReg → Bool
  | .x _ => true
  | .f _ => h.cb Csr.mstatus 14 13 != 0 && (!h.v || h.cb Csr.vsstatus 14 13 != 0)
  | .v _ _ => h.cb Csr.mstatus 10 9 != 0 && (!h.v || h.cb Csr.vsstatus 10 9 != 0)

/-- A part of an access within one line (12 R333): virtual address, bytes, and its offset in the whole. -/
structure Part where
  va : Nat
  n : Nat
  off : Nat
  deriving DecidableEq, Repr

/-- The parts of an access. -/
def partsOf (va size : Nat) : List Part :=
  let k := 128 - va % 128
  if size ≤ k then [⟨va, size, 0⟩] else [⟨va, k, 0⟩, ⟨(va + k) % 2 ^ 64, size - k, k⟩]

/-- Translate every part before any is performed (12 R333): the parts with where they lie, or the first fault and its address. -/
def State.locateAll (s : State) (h : Nat) (k : AKind) : List Part → Except (TFault × Nat) (List (Part × PAddr)) × State
  | [] => (.ok [], s)
  | p :: ps =>
    match s.locate h k p.va with
    | (.error f, s) => (.error (f, p.va), s)
    | (.ok a, s) =>
      match State.locateAll s h k ps with
      | (.ok l, s) => (.ok ((p, a) :: l), s)
      | (.error e, s) => (.error e, s)

/-- The pieces of a non-cacheable load read in turn after the bytes `acc`; `pa0` is the first piece's address. -/
def State.ncLoadGo (h va size len rd : Nat) (signed : Bool) (pa0 : Nat) : List (Part × PAddr) → List Byte → State → State
  | [], acc, s => (s.setHart h ((s.hart h).wd rd size signed (leNat acc))).retireAt h len va pa0
  | (p, a) :: t, acc, s =>
    match s.readPa (s.hart h).ident a.pa p.n with
    | (⟨.ok, b, false⟩, s) => ncLoadGo h va size len rd signed pa0 t (acc ++ b) s
    | (⟨.ok, _, true⟩, s) => (s.hev h 0x1C).except h Exc.hwError p.va
    | (_, s) => s.memFault h .access .load p.va

/-- Load through the home without caching (13 R352). -/
def State.ncLoad (s : State) (h va size len rd : Nat) (signed : Bool) (l : List (Part × PAddr)) : State :=
  State.ncLoadGo h va size len rd signed ((l.map (·.2.pa)).headD 0) l [] s

/-- The pieces of a non-cacheable store written in turn; `pa0` is the first piece's address. -/
def State.ncStoreGo (h va len : Nat) (bytes : List Byte) (pa0 : Nat) : List (Part × PAddr) → State → State
  | [], s => s.retireAt h len va pa0
  | (p, a) :: t, s =>
    match s.writePa (s.hart h).ident a.pa ((bytes.drop p.off).take p.n) with
    | (.ok, s) => ncStoreGo h va len bytes pa0 t s
    | (_, s) => s.memFault h .access .store p.va

/-- Store through the home without caching (13 R352). -/
def State.ncStore (s : State) (h va len : Nat) (bytes : List Byte) (l : List (Part × PAddr)) : State :=
  State.ncStoreGo h va len bytes ((l.map (·.2.pa)).headD 0) l s

/-- Whether an attribute is idempotent memory. -/
def Attr.idem : Attr → Bool
  | .cached | .nc => true
  | _ => false

/-- An access of a hart to an address: a trigger that watches for it fires before it (12 R330). -/
def State.trigAt (s : State) (h : Nat) (k : AKind) (va : Nat) (f : State → State) : State :=
  match (s.hart h).accTrig (if k = .store then 1 else 0) va with
  | some i => if (s.hart h).trigHalts i && !s.mayHalt h then f s else s.trigFires h i va
  | none => f s

/-- The access of a hart to one part that is cacheable. -/
def partWait (x : Ident) (h : Nat) (store : Bool) (rd va size : Nat) (signed : Bool) (len : Nat) (bytes : List Byte) (q : Part × PAddr) : Wait :=
  { hart := h, ln := q.2.pa / 128
    acc := if store then .store (q.2.pa % 128) ((bytes.drop q.1.off).take q.1.n)
      else .load rd q.1.n signed (q.2.pa % 128) (8 * q.1.off) size
    who := x, va := va, len := len }

/-- An access with a part mapped NC and a part cached (13 R352): the NC part is made at its home, and the cached one in the cluster. -/
def State.mixed (s : State) (h : Nat) (store : Bool) (rd va size : Nat) (signed : Bool) (len : Nat) (bytes : List Byte)
    (near far : List (Part × PAddr)) : State :=
  let who := (s.hart h).ident
  let ws := near.map (partWait who h store rd va size signed len bytes)
  match far with
  | (p, a) :: _ =>
    if store then
      match s.writePa who a.pa ((bytes.drop p.off).take p.n) with
      | (.ok, s) => s.startAcc h 0 ws
      | (_, s) => s.memFault h .access .store p.va
    else
      match s.readPa who a.pa p.n with
      | (⟨.ok, b, false⟩, s) => s.startAcc h (leNat b * 2 ^ (8 * p.off)) ws
      | (⟨.ok, _, true⟩, s) => (s.hev h 0x1C).except h Exc.hwError p.va
      | (_, s) => s.memFault h .access .load p.va
  | [] => s.startAcc h 0 ws

/-- A load or store of a hart (12 R331 to R333, 13 R352): through the cluster's caches on cacheable memory, through the home on
memory mapped NC or IO, and as one aligned access to the register window or to PCIe MMIO. -/
def State.loadStore (s : State) (h : Nat) (store : Bool) (reg : LsReg) (va size : Nat) (signed : Bool) (len : Nat) : State :=
  let x := s.hart h
  let k : AKind := if store then .store else .load
  if !x.regOn reg then s.except h Exc.illegal 0
  else
    match s.locateAll h k (partsOf va size) with
    | (.error (f, a), s) => s.memFault h f k a
    | (.ok l, s) =>
      match l.find? (fun q => s.attr q.2 == .absent || (!(s.attr q.2).idem && va % size != 0)) with
      | some q => s.memFault h .access k q.1.va
      | none =>
        let bytes := if store then x.srcBytes size reg else []
        let io (pa : Nat) : IoAccess := ⟨pa, size, if store then some bytes else none, (lsRegNum reg), signed, va, len⟩
        if l.all (fun q => s.attr q.2 == .cached) then
          s.startAcc h 0 (l.map (partWait x.ident h store (lsRegNum reg) va size signed len bytes))
        else
          match l with
          | [(_, a)] =>
            match s.attr a with
            | .window => if size = 4 ∨ size = 8 then s.startIo h (io a.pa) else s.memFault h .access k va
            | .mmio _ => s.startIo h (io a.pa)
            | _ => if store then s.ncStore h va len bytes l else s.ncLoad h va size len (lsRegNum reg) signed l
          | _ =>
            let near := l.filter (fun q => s.attr q.2 == .cached)
            if near.isEmpty then (if store then s.ncStore h va len bytes l else s.ncLoad h va size len (lsRegNum reg) signed l)
            else s.mixed h store (lsRegNum reg) va size signed len bytes near (l.filter (fun q => s.attr q.2 != .cached))

/-- The address rs1 + imm, modulo 2^64. -/
def Hart.addr (h : Hart) (rs1 : Fin 32) (imm : Int) : Nat := (h.rx rs1 + BitVec.ofInt 64 imm).toNat

/-- LOAD_STORE (12 R331): one scalar load or store, or one element of a vector one. -/
def execLoadStore (h : Fin 216) (store : Bool) (reg : LsReg) (rs1 : Fin 32) (imm : Int) (size : Nat) (signed : Bool) (len : Nat)
    (s : State) : Out :=
  .next (s.instr h (fun s => s.trigAt h (if store then .store else .load) ((s.hart h).addr rs1 imm) (fun s =>
    s.loadStore h store reg ((s.hart h).addr rs1 imm) size signed len)))

/-! ### Atomics (12 R329, R331, R333, 13 R352) -/

/-- An AMO of a hart. -/
def State.amoAt (s : State) (h : Nat) (op : AmoOp) (rd rs1 rs2 size : Nat) : State :=
  let x := s.hart h
  let va := (x.rx rs1).toNat
  let val := (x.rx rs2).toNat
  if va % size ≠ 0 then s.except h Exc.storeMisaligned va
  else match s.locate h .store va with
    | (.error f, s) => s.memFault h f .store va
    | (.ok a, s) =>
      match s.attr a with
      | .cached => s.startAcc h 0 [⟨h, a.pa / 128, .amo op rd size (a.pa % 128) val, x.ident, va, 4⟩]
      | .nc =>
        match (s.homePull x.ident a.pa true).readPa x.ident a.pa size with
        | (⟨.ok, _, true⟩, s) => (s.hev h 0x1C).except h Exc.hwError va
        | (⟨.ok, b, false⟩, s) =>
          (match s.writePa x.ident a.pa (leBytes size (amoResult op size (leNat b) val)) with
           | (.ok, s) => (s.setHart h ((s.hart h).wx rd (extend size true (leNat b)))).retireAt h 4 va a.pa
           | (_, s) => s.memFault h .access .store va)
        | (_, s) => s.memFault h .access .store va
      | _ => s.memFault h .access .store va

/-- AMO (12 R331). -/
def execAmo (h : Fin 216) (op : AmoOp) (rd rs1 rs2 : Fin 32) (size : Nat) (s : State) : Out :=
  .next (s.instr h (fun s => s.trigAt h .store ((s.hart h).rx rs1).toNat (fun s => s.amoAt h op rd rs1 rs2 size)))

/-- A load-reserved of a hart. -/
def State.lrAt (s : State) (h rd rs1 size : Nat) : State :=
  let x := s.hart h
  let va := (x.rx rs1).toNat
  if va % size ≠ 0 then s.except h Exc.loadMisaligned va
  else match s.locate h .load va with
    | (.error f, s) => s.memFault h f .load va
    | (.ok a, s) =>
      if s.attr a = .cached then s.startAcc h 0 [⟨h, a.pa / 128, .lr rd size (a.pa % 128), x.ident, va, 4⟩]
      else s.memFault h .access .load va

/-- LR (12 R329). -/
def execLr (h : Fin 216) (rd rs1 : Fin 32) (size : Nat) (s : State) : Out :=
  .next (s.instr h (fun s => s.trigAt h .load ((s.hart h).rx rs1).toNat (fun s => s.lrAt h rd rs1 size)))

/-- A store-conditional of a hart: with no reservation of the line it fails at once. -/
def State.scAt (s : State) (h rd rs1 rs2 size : Nat) : State :=
  let x := s.hart h
  let va := (x.rx rs1).toNat
  if va % size ≠ 0 then s.except h Exc.storeMisaligned va
  else match s.locate h .store va with
    | (.error f, s) => s.memFault h f .store va
    | (.ok a, s) =>
      if s.attr a ≠ .cached then s.memFault h .access .store va
      else if x.resv = some (a.pa / 128) then
        s.startAcc h 0 [⟨h, a.pa / 128, .sc rd size (a.pa % 128) (x.rx rs2).toNat, x.ident, va, 4⟩]
      else (s.setHart h { (s.hart h).wx rd 1 with resv := none }).retireAt h 4 va a.pa

/-- SC (12 R329). -/
def execSc (h : Fin 216) (rd rs1 rs2 : Fin 32) (size : Nat) (s : State) : Out :=
  .next (s.instr h (fun s => s.trigAt h .store ((s.hart h).rx rs1).toNat (fun s => s.scAt h rd rs1 rs2 size)))

/-! ### Fences (10 R305, 12 R334) -/

/-- FENCE (10 R305): every earlier access of the hart is performed before it, since the hart waits for each. -/
def execFence (h : Fin 216) (_pred _succ : Nat) (s : State) : Out := .next (s.instr h (fun s => s.retire h 4))

/-- FENCE_I (12 R334): the model keeps no fetched instructions. -/
def execFenceI (h : Fin 216) (s : State) : Out := .next (s.instr h (fun s => s.retire h 4))

/-! ### Cache blocks (12 R334) -/

/-- The exception a CBO raises where an envcfg register does not enable it, by the test of its field: illegal instruction, or
virtual instruction where only the hypervisor or a guest forbids it. -/
def Hart.cboGate (h : Hart) (ok : Nat → Bool) : Option Nat :=
  if h.mode = .m then none
  else if !ok (h.rc Csr.menvcfg).toNat then some Exc.illegal
  else if h.v && !ok (h.rc Csr.henvcfg).toNat then some Exc.virtual
  else if h.mode = .u && !ok (h.rc Csr.senvcfg).toNat then some (if h.v then Exc.virtual else Exc.illegal)
  else none

/-- Where a cache-block operation acts: CBO.ZERO needs to store; the others need to load or to store. -/
def State.cboWhere (s : State) (h : Nat) (acc : HAcc) (va : Nat) : Except TFault PAddr × State :=
  match acc with
  | .zero => s.locate h .store va
  | _ =>
    match s.locate h .load va with
    | (.ok a, s) => (.ok a, s)
    | (.error _, s) => s.locate h .store va

/-- A CBO on the block of rs1. A clean, flush or invalidation is permitted where a load or a store is. -/
def State.cbo (s : State) (h : Nat) (rs1 : Fin 32) (ok : Nat → Bool) (acc : HAcc) : State :=
  let x := s.hart h
  let va := (x.rx rs1).toNat
  match x.cboGate ok with
  | some c => s.except h c 0
  | none =>
    match s.cboWhere h acc va with
    | (.error f, s) => s.memFault h f .store va
    | (.ok a, s) =>
      match s.paKind a.pa with
      | .dram | .cxl _ =>
        if s.untrained a.pa then s.memFault h .access .store va
        else s.startAcc h 0 [⟨h, a.pa / 128, acc, x.ident, va, 4⟩]
      | _ => s.memFault h .access .store va

/-- CBO_ZERO (12 R334). -/
def execCboZero (h : Fin 216) (rs1 : Fin 32) (s : State) : Out :=
  .next (s.instr h (fun s => s.cbo h rs1 (fun v => v.testBit 7) .zero))
/-- CBO_CLEAN (12 R334). -/
def execCboClean (h : Fin 216) (rs1 : Fin 32) (s : State) : Out :=
  .next (s.instr h (fun s => s.cbo h rs1 (fun v => v.testBit 6) (.cmo false)))
/-- CBO_FLUSH (12 R334). -/
def execCboFlush (h : Fin 216) (rs1 : Fin 32) (s : State) : Out :=
  .next (s.instr h (fun s => s.cbo h rs1 (fun v => v.testBit 6) (.cmo true)))
/-- CBO_INVAL (12 R334): a flush, where CBIE is 0b01 or 0b11. -/
def execCboInval (h : Fin 216) (rs1 : Fin 32) (s : State) : Out :=
  .next (s.instr h (fun s => s.cbo h rs1 (fun v => v.testBit 4) (.cmo true)))

/-- A prefetch of the line of rs1 + imm: dropped where it would fault, and on anything but cacheable memory. -/
def State.prefetch (s : State) (h : Nat) (rs1 : Fin 32) (imm : Int) (k : AKind) (r : ReqKind) : State :=
  let x := s.hart h
  let va := x.addr rs1 imm
  match s.locate h k va with
  | (.ok a, s) =>
    (if s.attr a = .cached then s.access ⟨h, a.pa / 128, .prefetch r, x.ident, va, 4⟩ else s).retire h 4
  | (.error _, s) => s.retire h 4

/-- PREFETCH_R (12 R334). -/
def execPrefetchR (h : Fin 216) (rs1 : Fin 32) (imm : Int) (s : State) : Out :=
  .next (s.instr h (fun s => s.prefetch h rs1 imm .load .rdShared))
/-- PREFETCH_W (12 R334). -/
def execPrefetchW (h : Fin 216) (rs1 : Fin 32) (imm : Int) (s : State) : Out :=
  .next (s.instr h (fun s => s.prefetch h rs1 imm .store .rdUnique))
/-- PREFETCH_I (12 R334). -/
def execPrefetchI (h : Fin 216) (rs1 : Fin 32) (imm : Int) (s : State) : Out :=
  .next (s.instr h (fun s => s.prefetch h rs1 imm .fetch .rdNoexcl))

/-! ### Ends of window and MMIO accesses (12 R332, 14 R374) -/

/-- A hart's outstanding access completes with read data, if any, and the instruction retires. -/
def State.ioEnds (s : State) (h : Nat) (a : IoAccess) (v : Nat) : State :=
  let x := s.hart h
  let x := if a.write.isSome then x else x.wd a.rd a.size a.signed v
  (s.setHart h { x with io := none }).retireAt h a.len a.va a.pa

/-- REG_DONE (12 R332): a register-window access is performed and completes; an error response is an access fault. -/
def execRegDone (h : Fin 216) (s : State) : Out :=
  .next (match (s.hart h).io with
    | none => s
    | some a =>
      if s.paKind a.pa ≠ .window then s
      else
        let who := (s.hart h).ident
        let user := (s.hart h).mode == .u
        let off := a.pa - windowBase
        match a.write with
        | some b =>
          (match s.regWrite who off a.size (leNat b) user with
           | (true, s) => s.ioEnds h a 0
           | (false, s) => s.ioFails h)
        | none =>
          (match s.regRead who off a.size user with
           | (some v, s) => s.ioEnds h a v
           | (none, s) => s.ioFails h))

/-- Whether an identity reaches the aperture or ECAM region of a link (14 R374). -/
def State.mmioReach (s : State) (j : Nat) (who : Ident) : Bool :=
  who == monitor || (s.linkValid j && who == s.linkWho j)

/-- A root port performs a hart's access to a link: refused where the identity does not reach it, which is recorded, or where
the link is down or fenced (08 R258). -/
def State.ioPerform (s : State) (h : Nat) (write : Bool) (f : Nat → IoAccess → State → State) : State :=
  match (s.hart h).io with
  | none => s
  | some a =>
    if a.write.isSome != write then s
    else match s.paKind a.pa with
      | .mmio j =>
        let who := (s.hart h).ident
        let s := s.pmcAdd (Reg.PRT_PMF (j / 8)) (Reg.PRT_PMC (j / 8) 4) (some who) 1
        if !s.mmioReach j who then (s.viol 4 who a.pa).ioFails h
        else if !(s.link j).up || (s.link j).fenced || s.fenced (nthD pcieStops (j / 16) 0) (6 + j / 8 % 2) then
          (s.logFw who a.pa write).ioFails h
        else f j a (s.send (.mmio j a.pa a.write))
      | _ => s

/-- IO_READ (12 R332): the device answers with `val`. -/
def execIoRead (h : Fin 216) (val : Nat) (s : State) : Out :=
  .next (s.ioPerform h false (fun _ a s => s.ioEnds h a (val % 2 ^ (8 * a.size))))

/-- IO_WRITE (12 R332). -/
def execIoWrite (h : Fin 216) (s : State) : Out := .next (s.ioPerform h true (fun _ a s => s.ioEnds h a 0))

/-- PCIE_COMPLETION_TIMEOUT (11 R311): a hart's request to a link is answered UNSUPPORTED, an access fault. -/
def execPcieCompletionTimeout (h : Fin 216) (s : State) : Out :=
  .next (match (s.hart h).io with
    | some a =>
      (match s.paKind a.pa with
       | .mmio _ => (s.logFw (s.hart h).ident a.pa a.write.isSome).ioFails h
       | _ => s)
    | none => s)

end Sys2Proof.Machine
end

