-- ==== Sys2Proof/Machine/HartCsr.lean ====
section
/-! DEFINITION. CSR writes of harts (12 R335, R339, R345, R346, 13 R348, 14 R375, 21 R502, R503; the standard CSRs by the
privileged architecture, notes/assumptions/81.md). -/

namespace Sys2Proof.Machine
open Sys2Proof

/-! ### The translation registers (13 R348) -/

/-- CSR number of a translation register. -/
def atpCsr : AtpReg → Nat
  | .satp => Csr.satp
  | .vsatp => Csr.vsatp
  | .hgatp => Csr.hgatp

/-- Whether MODE is Bare, or one of the three supported modes. -/
def atpMode (v : Nat) : Bool := [0, 8, 9, 10].contains (bitsOf v 63 60)

/-- A write of a translation register: an unsupported MODE leaves the whole register; hgatp holds a 14-bit VMID and a root
table aligned to 16 KiB. -/
def Hart.setAtp (h : Hart) (r : AtpReg) (v : Word) : Hart :=
  if !atpMode v.toNat then h
  else match r with
    | .hgatp => h.wc Csr.hgatp (BitVec.ofNat 64 (setBits (setBits v.toNat 59 58 0) 1 0 0))
    | _ => h.wc (atpCsr r) v

/-- The exception a write of satp raises: TVM and VTVM, U-mode. Under V = 1 supervisor software writes vsatp by the name satp. -/
def Hart.atpGate (h : Hart) (r : AtpReg) : Option Nat :=
  match h.mode, h.v, r with
  | .m, _, _ => none
  | .u, false, _ => some Exc.illegal
  | .u, true, _ => some Exc.virtual
  | .s, false, .vsatp => none
  | .s, false, _ => if h.cb Csr.mstatus 20 20 = 1 then some Exc.illegal else none
  | .s, true, .satp => if h.cb Csr.hstatus 20 20 = 1 then some Exc.virtual else none
  | .s, true, _ => some Exc.virtual

/-- SATP_WRITE (13 R348). -/
def execSatpWrite (h : Fin 216) (r : AtpReg) (val : Word) (s : State) : Out :=
  .next (s.instr h (fun s =>
    let x := s.hart h
    match x.atpGate r with
    | some c => s.except h c 0
    | none =>
      let r := if x.v ∧ x.mode ≠ .m ∧ r = .satp then .vsatp else r
      (s.setHart h (x.setAtp r val)).retire h 4))

/-! ### mhpmevent (21 R502) -/

/-- The value a write of mhpmevent leaves: the six Sscofpmf bits, and a listed event code or 0. -/
def hpmEvent (v : Nat) : Word :=
  let c := bitsOf v 15 0
  BitVec.ofNat 64 (setBits (setBits 0 63 58 (bitsOf v 63 58)) 15 0 (if 0x10 ≤ c ∧ c ≤ 0x1E then c else 0))

/-- MHPMEVENT_WRITE (21 R502): mhpmevent3 to mhpmevent31, reached from M-mode. -/
def execMhpmeventWrite (h : Fin 216) (k : Nat) (val : Word) (s : State) : Out :=
  .next (s.instr h (fun s =>
    let x := s.hart h
    if x.mode ≠ .m ∨ k < 3 ∨ 31 < k then s.except h Exc.illegal 0
    else (s.setHart h (x.wc (0x320 + k) (hpmEvent val.toNat))).retire h 4))

/-! ### CSR numbers -/

/-- Numbers of the CSRs that exist and may be written: ranges of the unprivileged, supervisor, hypervisor, VS and machine CSRs of
*Implemented extensions* (12 R328), and Helsitia's. -/
def csrRanges : List (Nat × Nat) :=
  [(0x001, 0x003), (0x008, 0x00A), (0x00F, 0x00F),
   (0x100, 0x100), (0x104, 0x106), (0x10A, 0x10A), (0x10C, 0x10F), (0x140, 0x144), (0x14D, 0x14D), (0x150, 0x151),
   (0x15C, 0x15C), (0x180, 0x180), (0x5A8, 0x5A8),
   (0x200, 0x200), (0x204, 0x205), (0x240, 0x244), (0x24D, 0x24D), (0x250, 0x251), (0x25C, 0x25C), (0x280, 0x280),
   (0x300, 0x306), (0x308, 0x30A), (0x30C, 0x30F), (0x320, 0x320), (0x323, 0x33F), (0x340, 0x344), (0x34A, 0x34B),
   (0x350, 0x351), (0x35C, 0x35C), (0x3A0, 0x3A0), (0x3A2, 0x3A2), (0x3B0, 0x3BF),
   (0x600, 0x600), (0x602, 0x60A), (0x60C, 0x60F), (0x643, 0x647), (0x64A, 0x64A), (0x680, 0x680), (0x6A8, 0x6A8),
   (0x7A0, 0x7A5), (0x7A8, 0x7A8), (0x7C0, 0x7C5), (0xB00, 0xB00), (0xB02, 0xB1F)]

/-- Whether a CSR exists and may be written outside debug mode. -/
def csrExists (n : Nat) : Bool := csrRanges.any (fun r => decide (r.1 ≤ n) && decide (n ≤ r.2))

/-- The CSR that supervisor software reaches by a number: its VS counterpart when V is 1. -/
def csrUnderV (n : Nat) : Nat :=
  if [0x100, 0x104, 0x105, 0x140, 0x141, 0x142, 0x143, 0x144, 0x14D, 0x150, 0x151, 0x15C, 0x180].contains n then n + 0x100 else n

/-- The bit of the stateen registers 0 that governs supervisor software's access to a CSR (Smstateen): SE0, ENVCFG, CSRIND, AIA, IMSIC,
CONTEXT. The interrupt files are reached through the indirect CSRs too, by select numbers from 0x70. -/
def Hart.stateenBit (h : Hart) (n : Nat) : Option Nat :=
  if n = 0x60C ∨ n = 0x10C then some 63
  else if n = Csr.henvcfg ∨ n = Csr.senvcfg then some 62
  else if n = 0x150 ∨ n = 0x250 then some 60
  else if n = 0x151 then some (if 0x70 ≤ (h.rc (if h.v then 0x250 else 0x150)).toNat then 58 else 60)
  else if n = 0x251 then some (if 0x70 ≤ (h.rc 0x250).toNat then 58 else 60)
  else if n = 0x608 ∨ n = 0x609 ∨ n = 0x646 ∨ n = 0x647 then some 59
  else if n = 0x15C ∨ n = 0x25C then some 58
  else if n = 0x5A8 ∨ n = 0x6A8 then some 57
  else if (0x60D ≤ n ∧ n ≤ 0x60F) ∨ (0x10D ≤ n ∧ n ≤ 0x10F) then some 63
  else none

/-- The exception that the stateen registers raise below M-mode: illegal where mstateen forbids it, and virtual where only hstateen
does. Registers 1 to 3 govern their own counterparts only. -/
def Hart.stateenGate (h : Hart) (n : Nat) : Option Nat :=
  let k := if (0x60D ≤ n ∧ n ≤ 0x60F) ∨ (0x10D ≤ n ∧ n ≤ 0x10F) then n % 4 else 0
  match h.stateenBit n with
  | some b =>
    if h.cb (Csr.mstateen0 + k) b b = 0 then some Exc.illegal
    else if h.v ∧ h.cb (Csr.hstateen0 + k) b b = 0 then some Exc.virtual else none
  | none => none

/-- The exception a write of an indirect register raises (the Advanced Interrupt Architecture): a select number that names nothing, an
odd one of the 64-bit arrays, or a guest file that hstatus.VGEIN does not name. -/
def Hart.indGate (h : Hart) (n : Nat) : Option Nat :=
  let guest : Bool := n == 0x251 || n == 0x25C || (h.v && (n == 0x151 || n == 0x15C))
  let sel := (h.rc (if n = 0x351 then 0x350 else if guest then 0x250 else 0x150)).toNat
  let bad := if h.v then some Exc.virtual else some Exc.illegal
  let noFile := guest && !(decide (1 ≤ h.cb Csr.hstatus 17 12) && decide (h.cb Csr.hstatus 17 12 ≤ 7))
  if n = 0x15C ∨ n = 0x25C then (if noFile then bad else none)
  else if n = 0x351 ∨ n = 0x151 ∨ n = 0x251 then
    if 0x30 ≤ sel ∧ sel < 0x40 then (if guest ∨ sel % 2 = 1 then bad else none)
    else if 0x70 ≤ sel ∧ sel ≤ 0xFF then (if noFile ∨ (0x80 ≤ sel ∧ sel % 2 = 1) then bad else none)
    else bad
  else none

/-- The exception a write of a CSR raises: absent, read-only, of a higher mode, or disabled. -/
def Hart.csrGate (h : Hart) (n : Nat) : Option Nat :=
  let need := n / 256 % 4
  if !csrExists n || n / 1024 == 3 then some Exc.illegal
  else if (n = 1 ∨ n = 2 ∨ n = 3) ∧ h.regOn (.f 0) = false then some Exc.illegal
  else if (8 ≤ n ∧ n ≤ 15) ∧ h.regOn (.v 0 0) = false then some Exc.illegal
  else match h.mode, h.v with
    | .m, _ => h.indGate n
    | .s, false =>
      if need = 3 then some Exc.illegal
      else if n = Csr.stimecmp ∧ h.cb Csr.menvcfg 63 63 = 0 then some Exc.illegal
      else if n = Csr.satp then h.atpGate .satp
      else if n = Csr.hgatp then h.atpGate .hgatp
      else (h.stateenGate n <|> h.indGate n)
    | .u, false => if need = 0 then none else some Exc.illegal
    | .s, true =>
      if need = 3 then some Exc.illegal
      else if need = 2 then some Exc.virtual
      else if n = Csr.stimecmp ∧ h.cb Csr.menvcfg 63 63 = 0 then some Exc.illegal
      else if n = Csr.stimecmp ∧ h.cb Csr.henvcfg 63 63 = 0 then some Exc.virtual
      else if n = Csr.satp then h.atpGate .satp
      else (h.stateenGate n <|> h.indGate n)
    | .u, true => if need = 0 then none else if need = 3 then some Exc.illegal else some Exc.virtual

/-! ### Values -/

/-- Merge the bits of a mask. -/
def Hart.mergeCsr (h : Hart) (n mask : Nat) (v : Word) : Hart :=
  let m := BitVec.ofNat 64 mask
  h.wc n ((h.rc n &&& ~~~m) ||| (v &&& m))

/-- A PMP configuration byte after a write: a locked entry keeps its value, and NA4, which the granularity of 4 KiB rules out,
leaves A. -/
def pmpByte (old new : Nat) : Nat :=
  if old.testBit 7 then old
  else
    let n := setBits new 6 5 0
    if bitsOf n 4 3 = 2 then setBits n 4 3 (bitsOf old 4 3) else n

/-- A write of a pmpcfg register. -/
def pmpCfgWrite (old new : Nat) : Nat :=
  (List.range 8).foldl (fun a i => setBits a (8 * i + 7) (8 * i) (pmpByte (bitsOf old (8 * i + 7) (8 * i)) (bitsOf new (8 * i + 7) (8 * i)))) 0

/-- Whether a PMP address register is locked: by its own entry, or by a locked TOR entry above it. -/
def Hart.pmpLocked (h : Hart) (i : Nat) : Bool :=
  (h.pmpCfg i).testBit 7 || (decide (i < 15) && (h.pmpCfg (i + 1)).testBit 7 && h.pmpCfg (i + 1) / 8 % 4 == 1)

/-- A write of an envcfg register of mask `m`: the reserved code of CBIE and of PMM leaves the field, and ADUE is read-only 0
(13 R351). -/
def Hart.setEnv (h : Hart) (n m : Nat) (v : Word) : Hart :=
  let old := (h.rc n).toNat
  let w := v.toNat
  let w := if bitsOf w 5 4 = 2 then setBits w 5 4 (bitsOf old 5 4) else w
  let w := if bitsOf w 33 32 = 1 then setBits w 33 32 (bitsOf old 33 32) else w
  h.mergeCsr n m (BitVec.ofNat 64 w)

/-- Exceptions that medeleg can delegate, and hedeleg on to VS-mode. -/
def medelegBits : Nat := 0xF8B7FF
def hedelegBits : Nat := 0x8B1FF

/-- A write of the interrupt-enable, pending and delegation registers and their aliases (12 R328, the hypervisor extension): mie is one
register behind sie, hie and vsie, and hvip one behind hip, vsip and mip.VSSIP; a VS bit is reached by vsie and vsip where hideleg
delegates it, one place lower. None for another CSR. -/
def Hart.setIrq (h : Hart) (n : Nat) (v : Word) : Option Hart :=
  let w := v.toNat
  let mideleg := (h.rc Csr.mideleg).toNat
  let hideleg := (h.rc Csr.hideleg).toNat
  if n = Csr.mie then some (h.mergeCsr Csr.mie 0x3EEE v)
  else if n = Csr.sie then some (h.mergeCsr Csr.mie (mideleg &&& 0x2222) v)
  else if n = Csr.hie then some (h.mergeCsr Csr.mie 0x1444 v)
  else if n = Csr.vsie then
    some (h.mergeCsr Csr.mie (hideleg &&& 0x2444) (BitVec.ofNat 64 (w % 2 ^ 13 * 2 % 2 ^ 13 + w / 2 ^ 13 % 2 * 2 ^ 13)))
  else if n = Csr.sip then some (h.mergeCsr Csr.mip (mideleg &&& 0x2002) v)
  else if n = Csr.mip then
    some ((h.mergeCsr Csr.mip (if h.cb Csr.menvcfg 63 63 = 1 then 0x2202 else 0x2222) v).mergeCsr Csr.hvip 4 v)
  else if n = Csr.hvip then some (h.mergeCsr Csr.hvip 0x444 v)
  else if n = Csr.hip then some (h.mergeCsr Csr.hvip 4 v)
  else if n = Csr.vsip then some (if hideleg.testBit 2 then h.scb Csr.hvip 2 2 (w / 2 % 2) else h)
  else if n = Csr.mideleg then some (h.mergeCsr n 0x2222 v)
  else if n = Csr.hideleg then some (h.mergeCsr n 0x2444 v)
  else if n = Csr.medeleg then some (h.mergeCsr n medelegBits v)
  else if n = Csr.hedeleg then some (h.mergeCsr n hedelegBits v)
  else if n = Csr.hgeie then some (h.mergeCsr n 0xFE v)
  else none

/-- A write of the floating-point and vector control registers, each one register behind its names; the state they belong to is dirty
then. -/
def Hart.setFp (h : Hart) (n : Nat) (v : Word) : Option Hart :=
  let w := v.toNat
  let fd (x : Hart) : Hart := let y := x.scb Csr.mstatus 14 13 3; if h.v then y.scb Csr.vsstatus 14 13 3 else y
  let vd (x : Hart) : Hart := let y := x.scb Csr.mstatus 10 9 3; if h.v then y.scb Csr.vsstatus 10 9 3 else y
  if n = 1 then some (fd (h.scb 3 4 0 (w % 32)))
  else if n = 2 then some (fd (h.scb 3 7 5 (w % 8)))
  else if n = 3 then some (fd (h.wc 3 (BitVec.ofNat 64 (w % 256))))
  else if n = 8 then some (vd (h.wc 8 (BitVec.ofNat 64 (w % 256))))
  else if n = 9 then some (vd (h.scb 0xF 0 0 (w % 2)))
  else if n = 0xA then some (vd (h.scb 0xF 2 1 (w % 4)))
  else if n = 0xF then some (vd (h.wc 0xF (BitVec.ofNat 64 (w % 8))))
  else none

/-- The number under which a hart keeps an interrupt-priority register, of M-level or S-level, by its select number. -/
def iprioCsr (m : Bool) (sel : Nat) : Nat := 0x11000 + 0x100 * b2n m + sel

/-- Bits of the stateen registers 0 that the model holds: SE0, ENVCFG, CSRIND, AIA, IMSIC and CONTEXT. -/
def stateen0Bits : Nat := 0xDE00000000000000

/-- A write of a CSR whose writable bits the extensions fix (12 R328, R330): the stateen registers, hstatus with a VGEIN up to GEILEN,
counter enables, read-only misa, the triggers. None for another CSR. -/
def Hart.setWarl (h : Hart) (n : Nat) (v : Word) : Option Hart :=
  let w := v.toNat
  if n = Csr.misa then some h
  else if n = Csr.mstateen0 ∨ n = Csr.hstateen0 then some (h.mergeCsr n stateen0Bits v)
  else if (0x30D ≤ n ∧ n ≤ 0x30F) ∨ (0x60D ≤ n ∧ n ≤ 0x60F) then some (h.mergeCsr n (2 ^ 63) v)
  else if 0x10C ≤ n ∧ n ≤ 0x10F then some h
  else if n = Csr.hstatus then
    let w := if 7 < bitsOf w 17 12 then setBits w 17 12 (h.cb n 17 12) else w
    let w := if bitsOf w 49 48 = 1 then setBits w 49 48 (h.cb n 49 48) else w
    some (h.mergeCsr n 0x300000073F3C0 (BitVec.ofNat 64 w))
  else if n = 0x351 ∨ n = 0x151 then
    let sel := (h.rc (n - 1)).toNat
    some (if 0x30 ≤ sel ∧ sel < 0x40 then h.wc (iprioCsr (n == 0x351) sel) v else h)
  else if n = 0x251 ∨ n = 0x35C ∨ n = 0x15C ∨ n = 0x25C then some h
  else if n = 0x306 ∨ n = 0x106 ∨ n = 0x606 then some (h.mergeCsr n (2 ^ 32 - 1) v)
  else if n = 0x320 then some (h.mergeCsr n (2 ^ 32 - 3) v)
  else if (Csr.tselect ≤ n ∧ n ≤ Csr.tcontrol) ∨ n = 0x7A8 ∨ n = 0x5A8 ∨ n = 0x6A8 then some (h.setTrig n w)
  else none

/-- Bits of sstatus within mstatus. -/
def sstatusBits : Nat := 0xC6722
/-- Bits of mstatus that a write changes. -/
def mstatusBits : Nat := 0xC0007E7FAA

/-- A write of a CSR by number, past its checks (12 R335, R339, R345, R346, 21 R502, R503). `gates` is the gateway option. -/
def Hart.setCsr (h : Hart) (gates n : Nat) (v : Word) : Hart :=
  let w := v.toNat
  if n = Csr.mhswctl then h.mergeCsr n (if gates = 1 ∨ gates = 2 then 0x1BF else 0xBF) v
  else if n = Csr.mhswgtab then
    h.mergeCsr n (if bitsOf w 63 60 ≤ 8 then 0xF00FFFFFFFFFFFC0 else 0xFFFFFFFFFFFC0) v
  else if n = Csr.mhscctl then h.mergeCsr n 1 v
  else if n = Csr.mhspf then h.mergeCsr n 3 v
  else if n = Csr.mhspwr then (if w % 4 = 3 then h else h.mergeCsr n 3 v)
  else if n = Csr.mhssample then
    let p := w % 32
    let x := h.mergeCsr n (if 8 ≤ p ∧ p ≤ 24 then 2 ^ 63 + 0x1F else 2 ^ 63) v
    if h.cb n 63 63 = 0 then { x with tagIn := 0 } else x
  else if n = Csr.satp then h.setAtp .satp v
  else if n = Csr.vsatp then h.setAtp .vsatp v
  else if n = Csr.hgatp then h.setAtp .hgatp v
  else if 0x323 ≤ n ∧ n ≤ 0x33F then h.wc n (hpmEvent w)
  else if n = Csr.sstatus then h.mergeCsr Csr.mstatus sstatusBits v
  else if n = Csr.vsstatus then h.mergeCsr n sstatusBits v
  else if n = Csr.mstatus then
    h.mergeCsr n (if bitsOf w 12 11 = 2 then mstatusBits - 0x1800 else mstatusBits) v
  else if n = Csr.mtvec ∨ n = Csr.stvec ∨ n = Csr.vstvec then h.mergeCsr n (2 ^ 64 - 3) v
  else if n = Csr.mepc ∨ n = Csr.sepc ∨ n = Csr.vsepc then h.mergeCsr n (2 ^ 64 - 2) v
  else if n = Csr.menvcfg then h.setEnv n 0xC0000000000000F1 v
  else if n = Csr.henvcfg then h.setEnv n 0xC0000003000000F1 v
  else if n = Csr.senvcfg then h.setEnv n 0x3000000F1 v
  else if n = 0x3A0 ∨ n = 0x3A2 then h.wc n (BitVec.ofNat 64 (pmpCfgWrite (h.rc n).toNat w))
  else if Csr.pmpaddr0 ≤ n ∧ n < Csr.pmpaddr0 + 16 then
    (if h.pmpLocked (n - Csr.pmpaddr0) then h else h.mergeCsr n (2 ^ 54 - 1) v)
  else (h.setIrq n v <|> h.setFp n v <|> h.setWarl n v).getD (h.wc n v)

/-- The S-level and VS-level timer bits of mip as the compare registers stand (12 R338, Sstc). -/
def State.sTimers (s : State) (h : Nat) : State :=
  let x := s.hart h
  let x := if x.cb Csr.menvcfg 63 63 = 1 then x.scb Csr.mip 5 5 (b2n (decide ((x.rc Csr.stimecmp).toNat ≤ s.time))) else x
  let vt := (s.time + (x.rc Csr.htimedelta).toNat) % 2 ^ 64
  let x := if x.cb Csr.henvcfg 63 63 = 1 then x.scb Csr.mip 6 6 (b2n (decide ((x.rc Csr.vstimecmp).toNat ≤ vt))) else x
  s.setHart h x

/-- What a write of a CSR does to the hart's interrupt files (12 R336, the Advanced Interrupt Architecture): an indirect CSR writes the
register its select CSR names, and a write of a topei register claims the identity that comes first. -/
def State.fileCsr (s : State) (h n : Nat) (v : Word) : State :=
  let x := s.hart h
  let g := sFile h (x.cb Csr.hstatus 17 12)
  if n = 0x351 then s.fileWrite (mFile h) (x.rc 0x350).toNat v.toNat
  else if n = 0x151 then s.fileWrite (sFile h 0) (x.rc 0x150).toNat v.toNat
  else if n = 0x251 then s.fileWrite g (x.rc 0x250).toNat v.toNat
  else if n = 0x35C then s.fileClaim (mFile h)
  else if n = 0x15C then s.fileClaim (sFile h 0)
  else if n = 0x25C then s.fileClaim g
  else s

/-- CSR_WRITE (12 R339): a write of a CSR by its number. -/
def execCsrWrite (h : Fin 216) (csr : Nat) (val : Word) (s : State) : Out :=
  .next (s.instr h (fun s =>
    let x := s.hart h
    match x.csrGate csr with
    | some c => s.except h c 0
    | none =>
      let n := if x.v ∧ x.mode = .s then csrUnderV csr else csr
      let s := (s.setHart h (x.setCsr (s.rd Reg.ISO_STATUS F.ISO_STATUS_GATEWAYS) n val)).fileCsr h n val
      let s := if n = Csr.stimecmp ∨ n = Csr.vstimecmp ∨ n = Csr.htimedelta ∨ n = Csr.menvcfg ∨ n = Csr.henvcfg then s.sTimers h else s
      s.retire h 4))

end Sys2Proof.Machine
end

