-- ==== Sys2Proof/Machine/HartSys.lean ====
section
/-! DEFINITION. Waiting and waking, timers and MSIs, world gateways, range maintenance, translation fences, traps and debug of
harts (12 R336 to R346, 13 R359, R360, 14 R366, R373, R375, R381, 18 R441). -/

namespace Sys2Proof.Machine
open Sys2Proof

/-! ### WFI and WRS.STO (12 R330, R346) -/

/-- Interrupts pending in mip (12 R336, the privileged architecture and the Advanced Interrupt Architecture): what mip and hvip hold, and
what the hart's interrupt files signal: MEIP and SEIP by the M-level and S-level file, VSEIP by the guest file that hstatus.VGEIN
names, SGEIP by any guest file that hgeie enables. -/
def State.mipNow (s : State) (h : Nat) : Nat :=
  let x := s.hart h
  let v := (x.rc Csr.mip).toNat ||| ((x.rc Csr.hvip).toNat &&& 0x444)
  let g := x.cb Csr.hstatus 17 12
  let e := (x.rc Csr.hgeie).toNat
  v ||| (2 ^ 11 * b2n (s.fileSignals (mFile h))) ||| (2 ^ 9 * b2n (s.fileSignals (sFile h 0))) |||
    (2 ^ 10 * b2n (decide (1 ≤ g) && decide (g ≤ 7) && s.fileSignals (sFile h g))) |||
    (2 ^ 12 * b2n ((List.range 8).any (fun k => decide (1 ≤ k) && e.testBit k && s.fileSignals (sFile h k))))

/-- Whether a hart has a wake condition: an interrupt pending and enabled in mie, or a debug halt request that may be taken. -/
def State.wakeDue (s : State) (h : Nat) : Bool :=
  (s.mipNow h &&& ((s.hart h).rc Csr.mie).toNat) != 0 || ((s.hart h).haltReq && s.mayHalt h)

/-- The exception WFI raises (the privileged architecture): in U-mode, or where TW or VTW forbids it. -/
def Hart.wfiGate (h : Hart) : Option Nat :=
  match h.mode, h.v with
  | .m, _ => none
  | .s, false => if h.cb Csr.mstatus 21 21 = 1 then some Exc.illegal else none
  | .u, false => some Exc.illegal
  | .s, true =>
    if h.cb Csr.mstatus 21 21 = 1 then some Exc.illegal
    else if h.cb Csr.hstatus 21 21 = 1 then some Exc.virtual else none
  | .u, true => if h.cb Csr.mstatus 21 21 = 1 then some Exc.illegal else some Exc.virtual

/-- WFI (12 R346): at depth 0b10 the L1s are emptied and the core is off. -/
def execWfi (h : Fin 216) (s : State) : Out :=
  .next (s.instr h (fun s =>
    let x := s.hart h
    match x.wfiGate with
    | some c => s.except h c 0
    | none =>
      let d := x.cb Csr.mhspwr 1 0
      let s := s.retire h 4
      if (s.hart h).halted then s
      else if d = 2 then (s.dropL1 h).setHart h { s.hart h with waiting := .off, resv := none }
      else s.setHart h { s.hart h with waiting := .wfi d }))

/-- WFI_RETENTION_ENTRY (12 R346): 1 µs in WFI at depth 0b01. -/
def execWfiRetentionEntry (h : Fin 216) (s : State) : Out :=
  if (s.hart h).waiting = .wfi 1 then .next (s.setHart h { s.hart h with waiting := .retention }) else .next s

/-- Resume a hart from WFI; from depth 0b10 it restarts as after a core reset, its interrupt files kept, and the wake is
recorded (12 R346, 17 R425). -/
def State.resumeHart (s : State) (h : Nat) : State :=
  let x := s.hart h
  match x.waiting with
  | .off =>
    ({ (s.loseHart h).startHart h with imsic := s.imsic, files := s.files }.hartCause h 7).recordReach 6
  | _ =>
    let s := s.setHart h { x with waiting := .running, wakeHeld := false }
    if x.haltReq && s.mayHalt h then s.setHart h ((s.hart h).debugged 3) else s

/-- WFI_WAKE (12 R346): a wake condition resumes a hart in WFI or WRS.STO, unless its cluster is gated (18 R451). While its die runs at code 0 with another busy
cluster, the wake is held and the die moves to a code for two (18 R441). -/
def execWfiWake (h : Fin 216) (s : State) : Out :=
  let x := s.hart h
  if x.held || x.halted || x.waiting == .running || s.hartGated h || !s.wakeDue h then .next s
  else if s.turboHeld (hartCluster h) then
    let d := h.val / 18
    let code := ((List.range 8).find? (fun c => c != 0 && s.codeOk d c)).getD 7
    .next ((s.setHart h { x with wakeHeld := true }).aimCode d code)
  else .next (s.resumeHart h)

/-- WRS_STO (12 R330): with a reservation held, the hart waits. -/
def execWrsSto (h : Fin 216) (s : State) : Out :=
  .next (s.instr h (fun s =>
    let s := s.retire h 4
    let x := s.hart h
    if x.resv.isSome && !x.halted then s.setHart h { x with waiting := .wrs } else s))

/-- WRS_STO_TIMEOUT (12 R330): 256 CCLK cycles have passed. -/
def execWrsStoTimeout (h : Fin 216) (s : State) : Out :=
  if (s.hart h).waiting = .wrs then .next (s.setHart h { s.hart h with waiting := .running }) else .next s

/-! ### Timers and MSIs (12 R336, R338) -/

/-- MTIMECMP_MATCH (12 R338): MTIME has reached the hart's mtimecmp. -/
def execMtimecmpMatch (h : Fin 216) (s : State) : Out :=
  let c := s.rdW (Reg.MTIMECMP h)
  let s := if (s.rdW Reg.MTIME).toNat < c.toNat then s.wrW Reg.MTIME c else s
  .next (s.setHart h ((s.hart h).scb Csr.mip 7 7 1))

/-- STIMECMP_MATCH (12 R338): time, with htimedelta for a guest, has reached stimecmp or vstimecmp; the interrupt is raised where
menvcfg or henvcfg enables Sstc. -/
def execStimecmpMatch (h : Fin 216) (vs : Bool) (s : State) : Out :=
  let x := s.hart h
  let c := if vs then x.rc Csr.vstimecmp - x.rc Csr.htimedelta else x.rc Csr.stimecmp
  let s := if s.time < c.toNat then s.wrW Reg.MTIME c else s
  let on := x.cb Csr.menvcfg 63 63 == 1 && (!vs || x.cb Csr.henvcfg 63 63 == 1)
  if on then .next (s.setHart h (x.scb Csr.mip (if vs then 6 else 5) (if vs then 6 else 5) 1)) else .next s

/-- MSI (14 R373): a write of an interrupt identity to a file, by an identity. -/
def execMsi (who : Ident) (file : Fin 1944) (eiid : Nat) (s : State) : Out := .next (s.msi who file eiid)

/-! ### World gateways (12 R339 to R342, 14 R375) -/

/-- shswstat (12 *shswstat*). -/
def Hart.shswstat (h : Hart) : Nat :=
  setBits (setBits (setBits (setBits 0 16 16 (b2n h.gate.isSome)) 15 8 (h.gate.elim 0 (·.index))) 7 7 (h.cb Csr.mhswctl 7 7))
    5 0 (h.cb Csr.mhswctl 5 0)

/-- The exception HSW.GATE and HSW.RET raise by mode (12 R341): they run in HS-mode. -/
def Hart.hswGate (h : Hart) : Option Nat :=
  if h.mode ≠ .m ∧ h.v = true then some Exc.virtual
  else if h.mode = .s then none else some Exc.illegal

/-- Whether a gateway entry is VALID with its zero fields zero (12 R340). -/
def gateEntryOk (b : List Byte) : Bool :=
  let ctl := leAt b 32 1
  let pid := leAt b 33 1
  bitAt ctl 0 && ctl / 4 == 0 && pid / 64 == 0 && leAt b 34 30 == 0

/-- Set the identity of mhswctl. -/
def Hart.setIdent (h : Hart) (pid : Nat) (w : World) : Hart := (h.scb Csr.mhswctl 5 0 pid).scb Csr.mhswctl 7 7 (worldBit w)

/-- A gateway entered by its 64-byte entry `b`: what the caller had is kept, and the pc, address space, trap vector, partition
and world become the entry's. -/
def State.enterGate (s : State) (h idx opt : Nat) (b : List Byte) : State :=
  let w := worldOf (b2n (bitAt (leAt b 32 1) 1))
  let s := s.tagStep h 0 0 0
  let x := (s.hart h).icounted
  let sh : GateShadow := ⟨x.pc + 4, x.rc Csr.satp, x.rc Csr.stvec, x.swIdent.world, x.swIdent.pid, idx⟩
  let x := (x.setAtp .satp (BitVec.ofNat 64 (leAt b 8 8))).setCsr opt Csr.stvec (BitVec.ofNat 64 (leAt b 16 8))
  (s.setHart h { x.setIdent (leAt b 33 1) w with gate := some sh, pc := BitVec.ofNat 64 (leAt b 0 8) }).stepped h

/-- Whether an entry that was read lets the hart through, under option `opt`. -/
def Hart.gateLets (x : Hart) (opt : Nat) (r : RdRes) : Bool :=
  r.res == .ok && !r.poison && gateEntryOk r.bytes && bitAt (leAt r.bytes 24 8) x.swIdent.pid &&
    (opt == 2 || worldOf (b2n (bitAt (leAt r.bytes 32 1) 1)) == x.swIdent.world)

/-- The gateway of index `idx` tried: its entry is read, and entered if it lets the hart through. -/
def State.tryGate (s : State) (h idx opt : Nat) : State :=
  let x := s.hart h
  let r := s.readPa monitor (64 * x.cb Csr.mhswgtab 51 6 + 64 * idx) 64
  if x.gateLets opt r.1 then r.2.enterGate h idx opt r.1.bytes else r.2.except h Exc.illegal 0

/-- What HSW_GATE of index `idx` does on a hart that may execute an instruction. -/
def State.hswGate (s : State) (h idx : Nat) : State :=
  let x := s.hart h
  let opt := s.rd Reg.ISO_STATUS F.ISO_STATUS_GATEWAYS
  match x.hswGate with
  | some c => s.except h c 0
  | none =>
    if !(opt == 1 || opt == 2) || x.cb Csr.mhswctl 8 8 == 0 || x.gate.isSome ||
        decide (2 ^ x.cb Csr.mhswgtab 63 60 ≤ idx) then s.except h Exc.illegal 0
    else s.tryGate h idx opt

/-- HSW_GATE (12 R341, 14 R375). A gate that fails any condition is an illegal instruction and changes nothing. -/
def execHswGate (h : Fin 216) (i : Fin 256) (s : State) : Out := .next (s.instr h (fun s => s.hswGate h i))

/-- What HSW_RET does on a hart that may execute an instruction. -/
def State.hswRet (s : State) (h : Nat) : State :=
  let x := s.hart h
  match x.hswGate with
  | some c => s.except h c 0
  | none =>
    match x.gate with
    | some g =>
      if x.cb Csr.mhswctl 8 8 == 0 then s.except h Exc.illegal 0
      else
        let s := s.tagStep h 0 0 0
        let x := (((s.hart h).icounted.wc Csr.satp g.satp).wc Csr.stvec g.stvec).setIdent g.pid g.world
        (s.setHart h { x with gate := none, pc := g.ret }).stepped h
    | none => s.except h Exc.illegal 0

/-- HSW_RET (12 R342). -/
def execHswRet (h : Fin 216) (s : State) : Out := .next (s.instr h (fun s => s.hswRet h))

/-! ### Range maintenance (12 R344) -/

/-- HSC.CLEAN and HSC.FLUSH: checked against the firewall, then sent to all 64 homes; the hart waits for their reports. -/
def State.hsc (s : State) (h : Nat) (flush : Bool) (rs1 rs2 : Nat) : State :=
  let x := s.hart h
  if x.mode ≠ .m ∧ x.v = true then s.except h Exc.virtual 0
  else if x.mode = .u ∨ (x.mode = .s ∧ x.cb Csr.mhscctl 0 0 = 0) then s.except h Exc.illegal 0
  else
    let base := (x.rx rs1).toNat
    let n := (x.rx rs2).toNat
    if n = 0 then s.retire h 4
    else
      let last := base + n - 1
      let ok := decide (last < 2 ^ 52) && (match s.fwRegion base with
        | some r => s.fwCovers r last && s.fwGrants x.ident base true
        | none => false)
      if ok then
        (s.setHart h { x with stalled := true }).holdAll (base / 128) (last / 128) (b2n flush) h
      else s.except h Exc.storeAccess base

/-- HSC_CLEAN (12 R344). -/
def execHscClean (h : Fin 216) (rs1 rs2 : Fin 32) (s : State) : Out := .next (s.instr h (fun s => s.hsc h false rs1 rs2))
/-- HSC_FLUSH (12 R344). -/
def execHscFlush (h : Fin 216) (rs1 rs2 : Fin 32) (s : State) : Out := .next (s.instr h (fun s => s.hsc h true rs1 rs2))

/-! ### Translation fences (13 R359, R360, 12 R345) -/

/-- Remove the TLB and walk-cache entries that satisfy a test. -/
def Hart.dropTlb (h : Hart) (p : TEntry → Bool) : Hart := { h with tlb := h.tlb.filter (fun e => !p e) }

/-- Whether an entry belongs to the S-stage, or to the VS-stage of a VMID when `v`. -/
def TEntry.inStage (e : TEntry) (v : Bool) (vmid : Nat) : Bool :=
  if v then (e.stage == .vs || e.stage == .comb) && e.vmid == vmid else e.stage == .s

/-- What SFENCE.VMA and HFENCE.VVMA remove, with or without an address and an ASID. -/
def TEntry.sfenced (e : TEntry) (va asid : Option Nat) : Bool :=
  (match asid with
   | none => true
   | some a => e.asid == some a) &&
  (match va with
   | none => true
   | some v => e.leaf && e.covers v)

/-- The VMID in hgatp. -/
def Hart.vmid (h : Hart) : Nat := h.cb Csr.hgatp 57 44

/-- An operand of a fence: none for x0. -/
def Hart.opt (h : Hart) (r : Fin 32) : Option Nat := if r.val = 0 then none else some (h.rx r).toNat

/-- The exception SFENCE.VMA, SINVAL.VMA and HSC.TFLUSH raise. -/
def Hart.sfenceGate (h : Hart) : Option Nat := h.atpGate .satp

/-- The exception HFENCE and HINVAL raise; `tvm` for the G-stage ones, which TVM traps. -/
def Hart.hfenceGate (h : Hart) (tvm : Bool) : Option Nat :=
  match h.mode, h.v with
  | .m, _ => none
  | .s, false => if tvm ∧ h.cb Csr.mstatus 20 20 = 1 then some Exc.illegal else none
  | .u, false => some Exc.illegal
  | _, true => some Exc.virtual

/-- A fence of a hart: its exception, or the removal. -/
def State.tlbOp (s : State) (h : Nat) (gate : Option Nat) (p : TEntry → Bool) : State :=
  match gate with
  | some c => s.except h c 0
  | none => (s.setHart h ((s.hart h).dropTlb p)).retire h 4

/-- SFENCE.VMA and SINVAL.VMA. -/
def State.sfence (s : State) (h : Nat) (rs1 rs2 : Fin 32) : State :=
  let x := s.hart h
  s.tlbOp h x.sfenceGate (fun e => e.inStage (x.v && x.mode != .m) x.vmid && e.sfenced (x.opt rs1) ((x.opt rs2).map (· % 65536)))

/-- HFENCE.VVMA and HINVAL.VVMA. -/
def State.hfenceV (s : State) (h : Nat) (rs1 rs2 : Fin 32) : State :=
  let x := s.hart h
  s.tlbOp h (x.hfenceGate false) (fun e => e.inStage true x.vmid && e.sfenced (x.opt rs1) ((x.opt rs2).map (· % 65536)))

/-- Whether a G-stage or combined entry translates a guest physical address. -/
def TEntry.coversG (e : TEntry) (gpa : Nat) : Bool :=
  (if e.stage = .comb then e.gpa else e.base) / 2 ^ e.log2 == gpa / 2 ^ e.log2

/-- HFENCE.GVMA and HINVAL.GVMA: rs1 holds a guest physical address shifted right by 2. -/
def State.hfenceG (s : State) (h : Nat) (rs1 rs2 : Fin 32) : State :=
  let x := s.hart h
  s.tlbOp h (x.hfenceGate true) (fun e =>
    (e.stage == .g || e.stage == .comb) &&
    (match x.opt rs2 with
     | none => true
     | some v => e.vmid == v % 2 ^ 14) &&
    (match x.opt rs1 with
     | none => true
     | some a => e.leaf && e.coversG (4 * a)))

/-- SFENCE_VMA (13 R359). -/
def execSfenceVma (h : Fin 216) (rs1 rs2 : Fin 32) (s : State) : Out := .next (s.instr h (fun s => s.sfence h rs1 rs2))
/-- SINVAL_VMA (13 R359, R360). -/
def execSinvalVma (h : Fin 216) (rs1 rs2 : Fin 32) (s : State) : Out := .next (s.instr h (fun s => s.sfence h rs1 rs2))
/-- HFENCE_VVMA (13 R359). -/
def execHfenceVvma (h : Fin 216) (rs1 rs2 : Fin 32) (s : State) : Out := .next (s.instr h (fun s => s.hfenceV h rs1 rs2))
/-- HINVAL_VVMA (13 R359, R360). -/
def execHinvalVvma (h : Fin 216) (rs1 rs2 : Fin 32) (s : State) : Out := .next (s.instr h (fun s => s.hfenceV h rs1 rs2))
/-- HFENCE_GVMA (13 R359). -/
def execHfenceGvma (h : Fin 216) (rs1 rs2 : Fin 32) (s : State) : Out := .next (s.instr h (fun s => s.hfenceG h rs1 rs2))
/-- HINVAL_GVMA (13 R359, R360). -/
def execHinvalGvma (h : Fin 216) (rs1 rs2 : Fin 32) (s : State) : Out := .next (s.instr h (fun s => s.hfenceG h rs1 rs2))

/-- Whether two ranges of addresses meet; an empty range meets none. -/
def rangesMeet (a n b m : Nat) : Bool := decide (0 < n) && decide (a < b + m) && decide (b < a + n)

/-- What HSC_TFLUSH does on a hart that may execute an instruction. -/
def State.tflush (s : State) (h : Nat) (rs1 rs2 : Fin 32) : State :=
  let x := s.hart h
  let a := (x.rx rs1).toNat / 4096 * 4096
  let v := (x.rx rs2).toNat
  let n := 4096 * bitsOf v 46 0
  s.tlbOp h x.sfenceGate (fun e =>
    e.inStage (x.v && x.mode != .m) x.vmid && rangesMeet a n e.base (2 ^ e.log2) &&
      (bitAt v 47 || e.asid == some (bitsOf v 63 48)))

/-- HSC_TFLUSH (12 R345). -/
def execHscTflush (h : Fin 216) (rs1 rs2 : Fin 32) (s : State) : Out := .next (s.instr h (fun s => s.tflush h rs1 rs2))

/-- What HSC_GTFLUSH does on a hart that may execute an instruction. -/
def State.gtflush (s : State) (h : Nat) (rs1 rs2 : Fin 32) : State :=
  let x := s.hart h
  let a := (x.rx rs1).toNat / 4096 * 4096
  let v := (x.rx rs2).toNat
  let n := 4096 * bitsOf v 46 0
  s.tlbOp h (x.hfenceGate true) (fun e =>
    (e.stage == .g || e.stage == .comb) &&
      rangesMeet a n ((if e.stage = .comb then e.gpa else e.base) / 2 ^ e.log2 * 2 ^ e.log2) (2 ^ e.log2) &&
      (bitAt v 49 || e.vmid == bitsOf v 63 50))

/-- HSC_GTFLUSH (12 R345). -/
def execHscGtflush (h : Fin 216) (rs1 rs2 : Fin 32) (s : State) : Out := .next (s.instr h (fun s => s.gtflush h rs1 rs2))

/-- The exception the Svinval fences raise: in U-mode only. -/
def Hart.svinvalGate (h : Hart) : Option Nat :=
  if h.mode = .u then some (if h.v then Exc.virtual else Exc.illegal) else none

/-- SFENCE_W_INVAL (13 R360): the hart's earlier stores are performed. -/
def execSfenceWInval (h : Fin 216) (s : State) : Out :=
  .next (s.instr h (fun s => s.tlbOp h (s.hart h).svinvalGate (fun _ => false)))
/-- SFENCE_INVAL_IR (13 R360): earlier invalidations have taken effect. -/
def execSfenceInvalIr (h : Fin 216) (s : State) : Out :=
  .next (s.instr h (fun s => s.tlbOp h (s.hart h).svinvalGate (fun _ => false)))

/-! ### Traps and returns (12 R328, 14 R366, 12 R339) -/

/-! Custom instruction encodings (12 R343) -/

/-- A custom instruction. -/
inductive Custom where
  | clean (rs1 rs2 : Fin 32)
  | flush (rs1 rs2 : Fin 32)
  | tflush (rs1 rs2 : Fin 32)
  | gtflush (rs1 rs2 : Fin 32)
  | gate (i : Fin 256)
  | ret
  deriving DecidableEq, Repr

/-- The custom instruction that a word encodes (12 R343): none for every other encoding of the opcode, one with a nonzero field
that the table shows as zero among them. -/
def customOf (w : Nat) : Option Custom :=
  let rs1 : Fin 32 := Fin.ofNat 32 (bitsOf w 19 15)
  let rs2 : Fin 32 := Fin.ofNat 32 (bitsOf w 24 20)
  if w / 2 ^ 32 != 0 || bitsOf w 6 0 != 0b0001011 || bitsOf w 11 7 != 0 then none
  else match bitsOf w 14 12, bitsOf w 31 25 with
    | 0, 0b0000000 => some (.clean rs1 rs2)
    | 0, 0b0000001 => some (.flush rs1 rs2)
    | 0, 0b0001000 => some (.tflush rs1 rs2)
    | 0, 0b0001001 => some (.gtflush rs1 rs2)
    | 1, _ => if bitsOf w 19 15 = 0 ∧ bitsOf w 31 20 < 256 then some (.gate (Fin.ofNat 256 (bitsOf w 31 20))) else none
    | 2, 0 => if bitsOf w 24 15 = 0 then some .ret else none
    | _, _ => none

/-- The word of a custom instruction (12 R343). -/
def customWord : Custom → Nat
  | .clean rs1 rs2 => rs2.val * 2 ^ 20 + rs1.val * 2 ^ 15 + 0b0001011
  | .flush rs1 rs2 => 0b0000001 * 2 ^ 25 + rs2.val * 2 ^ 20 + rs1.val * 2 ^ 15 + 0b0001011
  | .tflush rs1 rs2 => 0b0001000 * 2 ^ 25 + rs2.val * 2 ^ 20 + rs1.val * 2 ^ 15 + 0b0001011
  | .gtflush rs1 rs2 => 0b0001001 * 2 ^ 25 + rs2.val * 2 ^ 20 + rs1.val * 2 ^ 15 + 0b0001011
  | .gate i => i.val * 2 ^ 20 + 0b001 * 2 ^ 12 + 0b0001011
  | .ret => 0b010 * 2 ^ 12 + 0b0001011

/-- What a custom instruction does on a hart that may execute an instruction. -/
def State.custom (s : State) (h : Nat) (c : Custom) : State :=
  match c with
  | .clean rs1 rs2 => s.hsc h false rs1 rs2
  | .flush rs1 rs2 => s.hsc h true rs1 rs2
  | .tflush rs1 rs2 => s.tflush h rs1 rs2
  | .gtflush rs1 rs2 => s.gtflush h rs1 rs2
  | .gate i => s.hswGate h i
  | .ret => s.hswRet h

/-- UNIMPLEMENTED_INSTRUCTION (12 R328, R343): a word that no implemented instruction has raises an illegal-instruction
exception with its bits. A word of the custom opcode is one of the six custom instructions or illegal. -/
def execUnimplementedInstruction (h : Fin 216) (bits : Nat) (s : State) : Out :=
  .next (s.instr h (fun s => match customOf bits with
    | some c => s.custom h c
    | none => s.except h Exc.illegal bits))

/-- The exception code of ECALL by mode. -/
def Hart.ecallCode (h : Hart) : Nat :=
  match h.mode, h.v with
  | .m, _ => Exc.ecallM
  | .s, false => Exc.ecallS
  | .s, true => Exc.ecallVS
  | .u, _ => Exc.ecallU

/-- ECALL (14 R366). -/
def execEcall (h : Fin 216) (s : State) : Out := .next (s.instr h (fun s => s.except h (s.hart h).ecallCode 0))

/-- Return from a trap taken to M-mode (the privileged architecture). -/
def Hart.mret (h : Hart) : Hart :=
  let md := modeOfCode (h.cb Csr.mstatus 12 11)
  let v := md != .m && h.cb Csr.mstatus 39 39 == 1
  let x := h.scb Csr.mstatus 3 3 (h.cb Csr.mstatus 7 7)
  let x := (x.scb Csr.mstatus 7 7 1).scb Csr.mstatus 12 11 0
  let x := x.scb Csr.tcontrol 3 3 (h.cb Csr.tcontrol 7 7)
  let x := x.scb Csr.mstatus 39 39 0
  let x := if md = .m then x else x.scb Csr.mstatus 17 17 0
  { x with mode := md, v := v, pc := h.rc Csr.mepc }

/-- MRET (12 R339). -/
def execMret (h : Fin 216) (s : State) : Out :=
  .next (s.instr h (fun s =>
    if (s.hart h).mode ≠ .m then s.except h Exc.illegal 0
    else
      let s := s.tagStep h 0 0 0
      (s.setHart h (s.hart h).icounted.mret).stepped h))

/-! ### Debug (14 R381, 17 R413) -/

/-- HALT_REQUEST (14 R381): taken at once by a hart between instructions or waiting in WFI, while the invasive enable of its
world is in force; otherwise it stays pending. -/
def execHaltRequest (h : Fin 216) (s : State) : Out :=
  let x := s.hart h
  if x.halted then .next s
  else
    let s := s.setHart h { x with haltReq := true }
    let now := !x.held && !s.hartGated h && !x.stalled && x.io.isNone && (match x.waiting with
      | .running | .wfi _ | .wrs => true
      | _ => false)
    if now && s.mayHalt h then .next (s.setHart h { (s.hart h).debugged 3 with waiting := .running }) else .next s

/-- DEBUG_RESUME (14 R381): a halted hart leaves debug mode, stepping one instruction or not. -/
def execDebugResume (h : Fin 216) (step : Bool) (s : State) : Out :=
  let x := s.hart h
  if x.halted then
    let y := x.scb Csr.dcsr 2 2 (b2n step)
    let md := modeOfCode (x.cb Csr.dcsr 1 0)
    .next (s.setHart h { y with halted := false, pc := x.rc Csr.dpc, mode := md, v := md != .m && x.cb Csr.dcsr 5 5 == 1 })
  else .next s

/-- DMACTIVE_CLEAR (17 R413): the debug module is reset: its requests are dropped, and it holds ndmreset and hartreset no
longer. Halted harts stay halted. -/
def execDmactiveClear (s : State) : Out :=
  let held := s.pkg.hartRst
  let s := s.pk (fun p => { p with ndm := none, hartRst := [] })
  let s := held.foldl (fun (s : State) h => if hh : h < 216 then
      (if s.hartMayRun ⟨h, hh⟩ then s.setHart h { s.hart h with held := false } else s) else s) s
  .next { s with harts := s.harts.mapD Hart.reset (fun (x : Hart) => { x with haltReq := false }) }

/-- The identity of system bus accesses (14 R367). -/
def State.sbaWho (s : State) : Ident :=
  ⟨s.rd Reg.ISO_DBG F.ISO_DBG_SBA_PID, worldOf (s.rd Reg.ISO_DBG F.ISO_DBG_SBA_WORLD)⟩

/-- SYSTEM_BUS_ACCESS (14 R381): an access of the debug module to memory under the SBA identity, refused unless the invasive
enable of SBA_WORLD is in force. The answer tells how it ended, with the data of a read. Only harts reach the register window
and PCIe MMIO, so an access aimed there is refused and logged as one to no memory (01 R21). -/
def execSystemBusAccess (pa size : Nat) (write : Option Nat) (s : State) : Out :=
  let who := s.sbaWho
  if !s.invasive who.world || s.untrained pa then .next (s.answer .error)
  else match write with
    | some v =>
      (match s.writePa who pa (leBytes size v) with
       | (.ok, s) => .next (s.answer (.ok 0))
       | (_, s) => .next (s.answer .error))
    | none =>
      (match s.readPa who pa size with
       | (⟨.ok, b, false⟩, s) => .next (s.answer (.ok (leNat b)))
       | (_, s) => .next (s.answer .error))

end Sys2Proof.Machine
end

