-- ==== Sys2Proof/Machine/MgmtCmds.lean ====
section
/-! DEFINITION. Event sources at their APLICs (19 R471, R472), and the management controller: its watchdog, its sideband
address, and every management command (20). -/

namespace Sys2Proof.Machine
open Sys2Proof

/-! ### Event sources (19) -/

/-- EVENT (19 R471): an edge source pulses once for an occurrence that is due; a level source asserts while its condition
holds; the owner APLIC delivers it by MSI. -/
def execEvent (k : Nat) (s : State) : Out :=
  if evtIsLevel k then .next (s.present k)
  else if s.wires.contains k then .next ({ s with wires := s.wires.erase k }.present k)
  else .next s

/-- APLIC_CLAIM (19 R472): a claim clears an edge source's pending bit. -/
def execAplicClaim (w : World) (k : Nat) (s : State) : Out :=
  if evtIsLevel k then .next s
  else
    let a := s.aplic w
    .next (s.setAplic w (a.put k { a.get k with pend := false }))

/-! ### The PMC itself -/

/-- PMC_WATCHDOG_TIMEOUT (20 R477): the PMC is lost, and the package enters BUFFER STOP with cause 0x0A; the loss is logged
when a PMC next runs. -/
def execPmcWatchdogTimeout (s : State) : Out :=
  if s.pmcRuns then
    let s := s.enterBufferStop false
    .next { s with pmc := { s.pmc with logWait := s.pmc.logWait ++ [(9, [1])] } }
  else .next s

/-- DYNAMIC_ADDRESS_ASSIGNMENT (20 R482): the sideband target answers to a new address. -/
def execDynamicAddressAssignment (addr : Fin 128) (s : State) : Out :=
  if s.pmcRuns then .next { s with pmc := { s.pmc with addr := addr } } else .next s

/-- PMC_RESTART (20 R494): the restart that a committed PMC image is due; open update sessions are discarded. Requests that
are held wait for the image that starts. -/
def execPmcRestart (s : State) : Out :=
  if s.pmcRuns && s.pmc.restart then
    let s := s.logNow 9 [2]
    .next { s with pmc := { s.pmc with restart := false, fw := [] } }.loadPmcImage
  else .next s

/-! ### Serving a request (20 R484 to R488, R495) -/

/-- The number of a source of requests: 0 set 0 (world N), 1 set 1 (world S), 2 the sideband, 3 + p port p. -/
def mgmtNum : MgmtSrc → Nat
  | .mbox .n => 0
  | .mbox .s => 1
  | .sideband => 2
  | .finxis p => 3 + p

/-- The SRC code of an order from a source (20 R488). -/
def mgmtCode (n : Nat) : Nat := if n = 2 then 1 else n + 1

/-- The identity behind a source's orders: the monitor's for the sideband, the port's for a Finxis host. -/
def State.mgmtWho (s : State) : MgmtSrc → Ident
  | .finxis p => ⟨s.rd (Reg.FX_CFG p) F.FX_CFG_PID, worldOf (s.rd (Reg.FX_CFG p) F.FX_CFG_WORLD)⟩
  | _ => monitor

/-- Whether a source may send a command (20 *Management commands*, Sources). -/
def mgmtMay (cmd : Nat) (src : MgmtSrc) : Bool :=
  match src with
  | .mbox .n => decide (cmd ≤ 3)
  | .mbox .s => !(cmd == 0x10 || cmd == 0x11 || cmd == 0x12 || cmd == 0x50)
  | .sideband => true
  | .finxis _ => decide (cmd ≤ 3) || cmd == 0x10 || cmd == 0x11 || (decide (0x40 ≤ cmd) && decide (cmd ≤ 0x44))

/-- Whether a command is answered NOT_IN_MODE (20 *PMC by mode*). -/
def State.mgmtNotInMode (s : State) (cmd : Nat) (payload : List Byte) : Bool :=
  let m := s.mode
  if m = MD.bufferStop then !(cmd == 1 || cmd == 2 || cmd == 0x20)
  else if m = MD.workshop then cmd == 0x11
  else if m = MD.siding then cmd == 0x11 || cmd == 0x50
  else if m = MD.caution then
    cmd == 0x50 || (cmd == 0x10 && leAt payload 0 1 != MD.mainline && leAt payload 0 1 != MD.workshop)
  else cmd == 0x50

/-- Payload lengths of a command, least and greatest (20 *Management commands*; notes/assumptions/26.md). -/
def mgmtLen (cmd : Nat) : Nat × Nat :=
  if cmd = 0x02 then (2, 2) else if cmd = 0x04 then (5, 5) else if cmd = 0x10 then (1, 1)
  else if cmd = 0x11 then (8, 8) else if cmd = 0x20 then (5, 5) else if cmd = 0x31 then (128, 128)
  else if cmd = 0x40 then (8, 8) else if cmd = 0x41 then (5, 4080) else if cmd = 0x43 then (1, 1)
  else if cmd = 0x50 then (1, 1) else (0, 0)

/-- Whether a request's header and length are right (20 R486). -/
def mgmtShape (cmd : Nat) (q : List Byte) : Bool :=
  decide (16 ≤ q.length) && leAt q 1 1 == 0 && leAt q 2 2 + 16 == q.length && zeros (sliceB q 8 8) &&
  decide ((mgmtLen cmd).1 ≤ leAt q 2 2) && decide (leAt q 2 2 ≤ (mgmtLen cmd).2)

/-- Whether the order of a held request is with the arbiter (20 R487). -/
def State.orderHeld (s : State) (n : Nat) : Bool :=
  let c := mgmtCode n
  s.pkg.orders.any (fun o => o.src == c) || s.pkg.powers.any (fun o => o.src == c) ||
  s.pkg.lows.any (fun l => l.srcs.contains c) || s.pkg.moves.any (fun x => x.srcs.contains c)

/-- The PMC takes the request that it holds for a source, if it is for this command, and serves it. A message that
arrives on the sideband with the command is held first; while one is held already, it is answered BUSY (20 R487). -/
def State.mgmt (s : State) (src : MgmtSrc) (msg : Option (List Byte)) (cmd : Nat) (f : State → List Byte → State) : State :=
  let n := mgmtNum src
  let go (s : State) : State :=
    match Tab.look s.pmc.req n with
    | none => s
    | some q =>
      let b := q.drop 16
      if !s.pmcRuns || leAt q 0 1 != cmd || s.orderHeld n then s
      else if !mgmtMay cmd src then s.mgmtReply n 1 []
      else if s.mgmtNotInMode cmd b then s.mgmtReply n 4 []
      else if !mgmtShape cmd q then s.mgmtReply n 2 []
      else f s b
  match src, msg with
  | .sideband, some q =>
    if (Tab.look s.pmc.req 2).isSome then s.mgmtRequest 2 q else go (s.mgmtRequest 2 q)
  | _, _ => go s

/-! ### Information and sensors -/

/-- VERSION and SVN of the image in force of a kind; the manual gives the ROM image none, so for it they are free. -/
def State.imageInfo (s : State) (kind : Nat) : List Byte × State :=
  if kind = 1 ∧ s.pmc.rom then
    let (v, s) := s.draw
    let (w, s) := s.draw
    (leBytes 4 v ++ leBytes 4 w, s)
  else
    let p := Tab.get (0, 0) s.pmc.inForce kind
    (leBytes 4 p.1 ++ leBytes 4 p.2, s)

/-- GET_INFO (20 R486). -/
def execGetInfo (src : MgmtSrc) (msg : Option (List Byte)) (s : State) : Out :=
  .next (s.mgmt src msg 0x01 (fun s _ =>
    let (a, s) := s.imageInfo 1
    let (b, s) := s.imageInfo 2
    s.mgmtReply (mgmtNum src) 0 ([Reg.PKG_ID, Reg.PKG_REV, Reg.PKG_MODE, Reg.PKG_BOOT, Reg.PMC_TRIP].flatMap s.regBytes ++
      a ++ b ++ leBytes 8 s.slots ++ fitB 48 Config.fusedKeyHash)))

/-- A sensor's reading and flags as READ_SENSORS returns them. -/
def State.sensorBytes (s : State) (n : Nat) : List Byte :=
  let x := s.sensor n
  leBytes 2 (ofSigned 16 x) ++
    leBytes 2 (b2n (decide ((s.limitsOf n).1 ≤ x)) + 2 * b2n (decide (x ≤ (s.limitsOf n).2)))

/-- READ_SENSORS (20 R479, R486). -/
def execReadSensors (src : MgmtSrc) (msg : Option (List Byte)) (s : State) : Out :=
  .next (s.mgmt src msg 0x02 (fun s b =>
    let first := leAt b 0 1
    let n := leAt b 1 1
    if n = 0 ∨ 148 < first + n then s.mgmtReply (mgmtNum src) 2 []
    else s.mgmtReply (mgmtNum src) 0 ((List.range n).flatMap (fun i => s.sensorBytes (first + i)))))

/-- READ_RAILS (20 R486, 22 R506): the voltage in mV and the current in mA that the board's rails show, 19 in the order of
*Supply rails*, then each die's MEASURED. -/
def execReadRails (src : MgmtSrc) (msg : Option (List Byte)) (rails : List (Nat × Nat)) (s : State) : Out :=
  .next (s.mgmt src msg 0x03 (fun s _ =>
    s.mgmtReply (mgmtNum src) 0
      ((List.range 19).flatMap (fun i => leBytes 2 (nthD rails i (0, 0)).1 ++ leBytes 4 (nthD rails i (0, 0)).2) ++
       (List.range 12).map (fun d => BitVec.ofNat 8 (s.rd (Reg.PWR_DIE d) F.PWR_DIE_MEASURED)))))

/-- SET_LIMITS (20 R480). -/
def execSetLimits (src : MgmtSrc) (msg : Option (List Byte)) (s : State) : Out :=
  .next (s.mgmt src msg 0x04 (fun s b =>
    let n := leAt b 0 1
    if 148 ≤ n then s.mgmtReply (mgmtNum src) 2 []
    else
      let v := (toSigned 16 (leAt b 1 2), toSigned 16 (leAt b 3 2))
      { s with pmc := { s.pmc with limits := Tab.put (1760, -720) s.pmc.limits n v } }.mgmtReply (mgmtNum src) 0 []))

/-- TRIP_CLEAR (20 R481, R486): the cleared value is logged. -/
def execTripClear (src : MgmtSrc) (msg : Option (List Byte)) (s : State) : Out :=
  .next (s.mgmt src msg 0x05 (fun s _ =>
    let s := s.logNow 3 (s.regBytes Reg.PMC_TRIP)
    (s.wrs Reg.PMC_TRIP [(F.PMC_TRIP_VALID, 0), (F.PMC_TRIP_MORE, 0)]).mgmtReply (mgmtNum src) 0 []))

/-! ### Orders and the sideband reset -/

/-- MODE_ORDER (20 R488): an order of the source's rank, answered when it completes. -/
def execModeOrder (src : MgmtSrc) (msg : Option (List Byte)) (s : State) : Out :=
  .next (s.mgmt src msg 0x10 (fun s b =>
    if MD.bufferStop < leAt b 0 1 then s.mgmtReply (mgmtNum src) 2 []
    else s.submitMode ⟨mgmtCode (mgmtNum src), s.mgmtWho src, leAt b 0 1⟩))

/-- POWER_REQ (20 R488): a power request of the source's rank, answered when it completes. The payload holds CODE, UNIT and
VALUE where PWR_REQ{m} has them. -/
def execPowerReq (src : MgmtSrc) (msg : Option (List Byte)) (s : State) : Out :=
  .next (s.mgmt src msg 0x11 (fun s b =>
    let v := leAt b 0 8
    if bitsOf v 63 56 ≠ 0 ∨ bitsOf v 47 47 ≠ 0 ∨ bitsOf v 39 16 ≠ 0 then s.mgmtReply (mgmtNum src) 2 []
    else s.submitPower ⟨mgmtCode (mgmtNum src), s.mgmtWho src, bitsOf v 55 48, bitsOf v 46 40, bitsOf v 15 0⟩))

/-- RESET (20 R486, 17 R413): the answer, then the sideband reset. -/
def execReset (src : MgmtSrc) (msg : Option (List Byte)) (pulse : Bool) (s : State) : Out :=
  .next (s.mgmt src msg 0x12 (fun s _ =>
    (s.mgmtReply (mgmtNum src) 0 []).warmSource F.RCC_RST_CAUSE_SIDEBAND pulse))

/-! ### The retained log -/

/-- The record of a SEQ, if the log holds it with a good CRC (20 R490). -/
def State.logRecord (s : State) (q : Nat) : Option (List Byte) :=
  let r := s.mramAt (logOff q) 64
  if leAt r 60 4 == crc32c (sliceB r 0 60) && leAt r 0 4 == q % 2 ^ 32 then some r else none

/-- LOG_READ (20 R486, R490): the records of a run of SEQs, oldest first, those that fail their CRC skipped. -/
def execLogRead (src : MgmtSrc) (msg : Option (List Byte)) (s : State) : Out :=
  .next (s.mgmt src msg 0x20 (fun s b =>
    let n := leAt b 4 1
    if n = 0 ∨ 63 < n then s.mgmtReply (mgmtNum src) 2 []
    else
      s.mgmtReply (mgmtNum src) 0
        ((List.range n).flatMap (fun i => (s.logRecord (leAt b 0 4 + i)).getD []))))

/-- LOG_CLEAR (20 R490): zero over the whole log; SEQ stays. -/
def execLogClear (src : MgmtSrc) (msg : Option (List Byte)) (s : State) : Out :=
  .next (s.mgmt src msg 0x21 (fun s _ =>
    { s with mram := s.mram.keep (fun o _ => decide (o < 0x2000)) }.mgmtReply (mgmtNum src) 0 []))

/-! ### Option records -/

/-- The option record in force (17 R428). -/
def State.optInForce (s : State) : List Byte := (List.range 16).flatMap (fun i => s.regBytes (Reg.RCC_OPT i))

/-- OPTION_READ (20 R486). -/
def execOptionRead (src : MgmtSrc) (msg : Option (List Byte)) (s : State) : Out :=
  .next (s.mgmt src msg 0x30 (fun s _ =>
    s.mgmtReply (mgmtNum src) 0 (s.optInForce ++ s.regBytes Reg.RCC_OPT_STATUS)))

/-- OPTION_WRITE (20 R489): a valid record goes to the copy that is not in force (copy A when neither is), with the next
SEQ and its CHECK. -/
def execOptionWrite (src : MgmtSrc) (msg : Option (List Byte)) (s : State) : Out :=
  .next (s.mgmt src msg 0x31 (fun s b =>
    if !optValid b then s.mgmtReply (mgmtNum src) 2 []
    else if leAt b 10 2 ≠ leAt s.optInForce 10 2 ∧ s.mode ≠ MD.workshop then s.mgmtReply (mgmtNum src) 4 []
    else
      let q := (s.rd Reg.RCC_OPT_STATUS F.RCC_OPT_STATUS_SEQ + 1) % 2 ^ 32
      let r := patchB (b.take 124) 4 (leBytes 4 q)
      let off := if s.rd Reg.RCC_OPT_STATUS F.RCC_OPT_STATUS_SOURCE = 1 then 0x80 else 0
      let s := s.setMram off (r ++ leBytes 4 (crc32c r))
      let s := s.logNow 8 (leBytes 4 q ++ leBytes 1 (mgmtNum src))
      s.mgmtReply (mgmtNum src) 0 []))

/-! ### Firmware update (20 R493, R494) -/

/-- The update session of an image kind. -/
def State.fwSess (s : State) (kind : Nat) : Option FwSess := Tab.get none s.pmc.fw kind

/-- Replace the update session of a kind. -/
def State.setFw (s : State) (kind : Nat) (x : Option FwSess) : State :=
  { s with pmc := { s.pmc with fw := Tab.put none s.pmc.fw kind x } }

/-- The inactive slot of a kind. -/
def State.otherSlot (s : State) (kind : Nat) : Nat := 1 - s.activeSlot kind

/-- Write SLOTS, one MRAM word: the active slot of a kind and whether the other one is a valid previous image. -/
def State.setSlots (s : State) (kind active : Nat) (prev : Bool) : State :=
  let o := 8 * (kind - 1)
  s.setMram 0x1008 (leBytes 8 (setBits (setBits s.slots o o active) (o + 1) (o + 1) (b2n prev)))

/-- The kind whose session a command without KIND is for: one of this source in the state the command needs, the PMC's
first (notes/assumptions/28.md). -/
def State.fwKind (s : State) (n st : Nat) : Option Nat :=
  [1, 2].find? (fun k => (s.fwSess k).any (fun x => x.src == n && x.state == st))

/-- The answer to a command that the table does not give for the current state: BUSY while a session is open. -/
def State.fwWrong (s : State) (n : Nat) : State :=
  s.mgmtReply n (if (s.fwSess 1).isSome || (s.fwSess 2).isSome then 3 else 2) []

/-- FW_BEGIN (20 R493). The record of the beginning has no image to name, so its SVN and VERSION are free. -/
def execFwBegin (src : MgmtSrc) (msg : Option (List Byte)) (s : State) : Out :=
  .next (s.mgmt src msg 0x40 (fun s b =>
    let n := mgmtNum src
    let k := leAt b 0 1
    let total := leAt b 4 4
    if !(k == 1 || k == 2) || leAt b 1 3 != 0 || decide (total < 8193) || decide (8192 + maxBody k < total) then
      s.mgmtReply n 2 []
    else if (s.fwSess k).isSome then s.mgmtReply n 3 []
    else
      let s := s.setSlots k (s.activeSlot k) false
      let (v, s) := s.draw
      let (w, s) := s.draw
      let s := s.logNow 7 (leBytes 1 k ++ leBytes 1 (s.otherSlot k) ++ [0, 1] ++ leBytes 4 v ++ leBytes 4 w)
      (s.setFw k (some ⟨n, total, 0, 1⟩)).mgmtReply n 0 []))

/-- Program bytes at an offset of a slot, erasing each 64 KiB block before its first byte. -/
def State.program (s : State) (base off : Nat) (l : List Byte) : State :=
  let blocks := below 129 (fun i => decide (off ≤ 65536 * i) && decide (65536 * i < off + l.length))
  let f := s.flash.keep (fun a _ => !blocks.any (fun i => a / 65536 == base / 65536 + i))
  { s with flash := l.zipIdx.foldl (fun f e => Tab.put erased f (base + off + e.2) e.1) f }

/-- FW_DATA's payload `b` from source `n` (20 R493): the next bytes of the session's image, programmed into the slot not in
force. -/
def State.fwData (s : State) (n : Nat) (b : List Byte) (bad : Bool) : State :=
  match s.fwKind n 1 with
  | none => s.fwWrong n
  | some k =>
    match s.fwSess k with
    | none => s.fwWrong n
    | some x =>
      let d := b.drop 4
      if leAt b 0 4 ≠ x.got ∨ x.total < x.got + d.length then s.mgmtReply n 2 []
      else if bad then s.mgmtReply n 7 []
      else
        let got := x.got + d.length
        ((s.program (slotBase k (s.otherSlot k)) x.got d).setFw k
          (some { x with got := got, state := if got = x.total then 2 else 1 })).mgmtReply n 0 []

/-- FW_DATA (20 R493): bytes at the next offset are programmed into the inactive slot and answered after read-back; `bad`
tells that the flash fails an erase, a program or the read-back. -/
def execFwData (src : MgmtSrc) (msg : Option (List Byte)) (bad : Bool) (s : State) : Out :=
  .next (s.mgmt src msg 0x41 (fun s b => s.fwData (mgmtNum src) b bad))

/-- FW_VERIFY_DONE (20 R493): the slot is checked under R491; the session goes to READY, or ends. -/
def execFwVerifyDone (kind : Fin 3) (s : State) : Out :=
  match s.fwSess kind with
  | none => .next s
  | some x =>
    if !s.pmcRuns || x.state != 2 then .next s
    else
      let r := s.imgCheck kind (s.otherSlot kind)
      let s := s.logFw7 kind (s.otherSlot kind) r 2
      let s := { s with pmc := { s.pmc with fwRes := Tab.put 0 s.pmc.fwRes kind r } }
      .next (s.setFw kind (if r = 0 then some { x with state := 3 } else none))

/-- FW_RECEIVE_TIMEOUT (20 R493): 60 s without FW_DATA end a session in RECEIVING. -/
def execFwReceiveTimeout (kind : Fin 3) (s : State) : Out :=
  match s.fwSess kind with
  | none => .next s
  | some x =>
    if !s.pmcRuns || x.state != 1 then .next s
    else .next ((s.logFw7 kind (s.otherSlot kind) 0 5).setFw kind none)

/-- The minimum security version raised to that of the image in a slot, where its header asks for it. -/
def State.raiseSvn (s : State) (k slot : Nat) : State :=
  let h := s.imgHeader k slot
  if leAt h 6 1 % 2 = 1 ∧ s.minSvn k < leAt h 8 4 then s.setMram (0x1010 + 4 * (k - 1)) (leBytes 4 (leAt h 8 4)) else s

/-- The image of a kind is committed: its slot comes into force and the session ends. -/
def State.fwCommitted (s : State) (n k : Nat) : State :=
  let slot := s.otherSlot k
  (((((s.setSlots k slot true).raiseSvn k slot).logFw7 k slot 0 3).setFw k none).mgmtReply n 0 [])

/-- What follows a commit: a cold reset in SIDING, which waits until every sensor reads below 115 degrees (17 R417), else a restart of the PMC for its own image. -/
def State.afterCommit (s : State) (k : Nat) : State :=
  if s.mode = MD.siding then
    let s := s.setCount 0
    if s.anyAt allSensors 115 then s.pk (fun p => { p with restartDue := true }) else s.coldReset 0xB 0
  else if k = 1 then { s with pmc := { s.pmc with restart := true } } else s

/-- FW_COMMIT from source `n`. -/
def State.fwCommit (s : State) (n : Nat) : State :=
  match s.fwKind n 3 with
  | none => s.fwWrong n
  | some k => (s.fwCommitted n k).afterCommit k

/-- FW_COMMIT (20 R493, R494): the slots are exchanged in one MRAM word and MIN_SVN raised; the PMC image then takes effect
at a restart of the PMC; in SIDING the package restarts with cold reach and COUNT 0 (16 R402). -/
def execFwCommit (src : MgmtSrc) (msg : Option (List Byte)) (s : State) : Out :=
  .next (s.mgmt src msg 0x42 (fun s _ => s.fwCommit (mgmtNum src)))

/-- The slot not in force comes into force, if its image passes its check. -/
def State.fwBack (s : State) (n k : Nat) : State :=
  let slot := s.otherSlot k
  let r := if bitAt s.slots (8 * (k - 1) + 1) then s.imgCheck k slot else 5
  ((if r = 0 then s.setSlots k slot true else s).logFw7 k slot r 4).mgmtReply n r []

/-- FW_ROLLBACK of kind `k` from source `n`: its session is given up, or with none the previous slot comes into force. -/
def State.fwRollback (s : State) (n k : Nat) : State :=
  if !(k == 1 || k == 2) then s.mgmtReply n 2 []
  else match s.fwSess k with
    | some x =>
      if x.src ≠ n then s.mgmtReply n 3 []
      else ((s.logFw7 k (s.otherSlot k) 0 4).setFw k none).mgmtReply n 0 []
    | none => s.fwBack n k

/-- FW_ROLLBACK (20 R493): an open session is discarded; with none, the previous slot is checked and becomes active. A
previous slot that is not valid fails the check. -/
def execFwRollback (src : MgmtSrc) (msg : Option (List Byte)) (s : State) : Out :=
  .next (s.mgmt src msg 0x43 (fun s b => s.fwRollback (mgmtNum src) (leAt b 0 1)))

/-- FW_STATUS (20 R493): for each kind, its update state (0 IDLE, 1 RECEIVING, 2 VERIFYING, 3 READY), KIND, the bytes
received, and the result of the last verification. -/
def execFwStatus (src : MgmtSrc) (msg : Option (List Byte)) (s : State) : Out :=
  .next (s.mgmt src msg 0x44 (fun s _ =>
    s.mgmtReply (mgmtNum src) 0 ([1, 2].flatMap (fun k =>
      leBytes 1 (((s.fwSess k).map (·.state)).getD 0) ++ leBytes 1 k ++
        leBytes 4 (((s.fwSess k).map (·.got)).getD 0) ++ leBytes 1 (Tab.get 0 s.pmc.fwRes k)))))

/-! ### Debug -/

/-- DEBUG_SET (20 R489): writes ISO_DBG[3:0], whatever LOCK is. -/
def execDebugSet (src : MgmtSrc) (msg : Option (List Byte)) (s : State) : Out :=
  .next (s.mgmt src msg 0x50 (fun s b =>
    let v := leAt b 0 1
    if 16 ≤ v then s.mgmtReply (mgmtNum src) 2 []
    else (s.wr Reg.ISO_DBG ⟨3, 0⟩ v).mgmtReply (mgmtNum src) 0 []))

end Sys2Proof.Machine
end

