-- ==== Sys2Proof/Machine/RegCmds.lean ====
section
/-! DEFINITION. Commands that write registers of the window (00 R8, 11 R327, 15 R388, 16 R401, 17 R424, 19 R471, 20 R485,
21 R501). Each is one write through `State.regWrite`, so widths, reach and field types hold for all of them. -/

namespace Sys2Proof.Machine
open Sys2Proof

/-- REGISTER_WRITE (00 R8): a write of `size` bytes by an identity; `user` marks one from below supervisor privilege. -/
def execRegisterWrite (who : Ident) (off size val : Nat) (user : Bool) (s : State) : Out :=
  .next (s.regStore who off size val user)

/-- Whether the register at an offset holds a staged field. -/
def hasStaged (off : Nat) : Bool := (regAt (off / 8 * 8)).any (fun r => r.fields.any (fun f => f.ty == .rws))

/-- RWS_WRITE (15 R388, R393): a write of a register with staged fields. -/
def execRwsWrite (who : Ident) (off size val : Nat) (s : State) : Out :=
  if hasStaged off then .next (s.regStore who off size val false) else .next s

/-- BOOT_GOOD (16 R401): a write of PKG_BOOT.GOOD. -/
def execBootGood (who : Ident) (s : State) : Out := .next (s.regStore who Reg.PKG_BOOT 8 (2 ^ 63) false)

/-- WATCHDOG_KICK (17 R424): a write of RCC_WDOG.KICK to the low half. The TIMEOUT field keeps its value. -/
def execWatchdogKick (who : Ident) (s : State) : Out :=
  .next (s.regStore who Reg.RCC_WDOG 4 ((s.rdW Reg.RCC_WDOG).toNat % 2 ^ 32 / 2 * 2 + 1) false)

/-- STAT_CLEAR (11 R327): a write of STAT_CTRL.CLEAR that keeps the other fields. -/
def execStatClear (who : Ident) (t : Fin 64) (s : State) : Out :=
  .next (s.regStore who (Reg.RTR_STAT_CTRL t) 8 (setBits (s.rdW (Reg.RTR_STAT_CTRL t)).toNat 62 62 1) false)

/-- PMON_CLEAR (21 R501): a write of PMON_CTRL.CLEAR that keeps FREEZE. -/
def execPmonClear (who : Ident) (s : State) : Out :=
  .next (s.regStore who Reg.PMON_CTRL 8 (setBits (s.rdW Reg.PMON_CTRL).toNat 63 63 1) false)

/-- PMON_FREEZE (21 R501): a write of PMON_CTRL.FREEZE. -/
def execPmonFreeze (who : Ident) (on : Bool) (s : State) : Out :=
  .next (s.regStore who Reg.PMON_CTRL 8 (setBits 0 62 62 (b2n on)) false)

/-- Offset of a world's APLIC (01 *Register block offsets*). -/
abbrev aplicBase (w : World) : Nat := match w with | .s => 0x4400000 | .n => 0x4410000

/-- SOURCECFG_WRITE (19 R471): a write of sourcecfg of source `k` in a world's APLIC. -/
def execSourcecfgWrite (who : Ident) (w : World) (k val : Nat) (s : State) : Out :=
  if 1 ≤ k ∧ k ≤ 512 then .next (s.regStore who (aplicBase w + 4 * k) 4 val false) else .next s

/-- MAILBOX_SUBMIT (20 R485): a write of GO with a LENGTH to MBX{w}_CTRL. -/
def execMailboxSubmit (who : Ident) (w : World) (len : Nat) (s : State) : Out :=
  .next (s.regStore who (Reg.MBX_CTRL (worldBit w)) 8 (2 ^ 63 + len % 2 ^ 13) false)

end Sys2Proof.Machine
end

