-- ==== Sys2Proof/Machine/Dispatch.lean ====
section
/-! DEFINITION. One arm per command of the opcode table, each one direct call of that command's meaning. -/

namespace Sys2Proof.Machine
open Sys2Proof

/-- The effect of a command on everything but the queue of waiting commands. -/
def exec (i : Instr) (s : State) : Host.Outcome State Fault Refusal :=
  match i with
  | .registerWrite who off size val user => Sys2Proof.Machine.execRegisterWrite who off size val user s
  | .suppliesGood board force test => Sys2Proof.Machine.execSuppliesGood board force test s
  | .powerOnReset pulse => Sys2Proof.Machine.execPowerOnReset pulse s
  | .coldReset force pulse => Sys2Proof.Machine.execColdReset force pulse s
  | .warmReset pulse => Sys2Proof.Machine.execWarmReset pulse s
  | .mramPulseEnd => Sys2Proof.Machine.execMramPulseEnd s
  | .selfRefreshEntryDone m => Sys2Proof.Machine.execSelfRefreshEntryDone m s
  | .selfRefreshWaitTimeout m => Sys2Proof.Machine.execSelfRefreshWaitTimeout m s
  | .domainResetRelease x => Sys2Proof.Machine.execDomainResetRelease x s
  | .optionLoadDone => Sys2Proof.Machine.execOptionLoadDone s
  | .pllLock => Sys2Proof.Machine.execPllLock s
  | .clockMonitorWindow c expect edges silent => Sys2Proof.Machine.execClockMonitorWindow c expect edges silent s
  | .warmupScan temps => Sys2Proof.Machine.execWarmupScan temps s
  | .warmupTimeout => Sys2Proof.Machine.execWarmupTimeout s
  | .dramTrainingDone dimms => Sys2Proof.Machine.execDramTrainingDone dimms s
  | .memoryFillDone => Sys2Proof.Machine.execMemoryFillDone s
  | .bootAuthentication => Sys2Proof.Machine.execBootAuthentication s
  | .selfTestDone fails iodBase => Sys2Proof.Machine.execSelfTestDone fails iodBase s
  | .mainlineEntry => Sys2Proof.Machine.execMainlineEntry s
  | .bootGood who => Sys2Proof.Machine.execBootGood who s
  | .modeOrderSubmit m who target => Sys2Proof.Machine.execModeOrderSubmit m who target s
  | .modeDecision => Sys2Proof.Machine.execModeDecision s
  | .duskEntry => Sys2Proof.Machine.execDuskEntry s
  | .duskWake packet => Sys2Proof.Machine.execDuskWake packet s
  | .nightEntry => Sys2Proof.Machine.execNightEntry s
  | .lowPowerEntryTimeout target => Sys2Proof.Machine.execLowPowerEntryTimeout target s
  | .nightWake => Sys2Proof.Machine.execNightWake s
  | .midnightWake => Sys2Proof.Machine.execMidnightWake s
  | .modeTransitionDone => Sys2Proof.Machine.execModeTransitionDone s
  | .dieLoss d why => Sys2Proof.Machine.execDieLoss d why s
  | .dieReadmit d site pass => Sys2Proof.Machine.execDieReadmit d site pass s
  | .coreResetReq m who index => Sys2Proof.Machine.execCoreResetReq m who index s
  | .clusterResetReq m who index => Sys2Proof.Machine.execClusterResetReq m who index s
  | .clusterResetDrained c => Sys2Proof.Machine.execClusterResetDrained c s
  | .dieResetReq m who index => Sys2Proof.Machine.execDieResetReq m who index s
  | .ndmreset on pulse => Sys2Proof.Machine.execNdmreset on pulse s
  | .hartreset harts on => Sys2Proof.Machine.execHartreset harts on s
  | .watchdogKick who => Sys2Proof.Machine.execWatchdogKick who s
  | .watchdogHalf => Sys2Proof.Machine.execWatchdogHalf s
  | .watchdogTimeout pulse => Sys2Proof.Machine.execWatchdogTimeout pulse s
  | .thermalTrip n temp => Sys2Proof.Machine.execThermalTrip n temp s
  | .sensorScan temps => Sys2Proof.Machine.execSensorScan temps s
  | .throttleStep => Sys2Proof.Machine.execThrottleStep s
  | .throttleRelax => Sys2Proof.Machine.execThrottleRelax s
  | .budgetRound uncore total meters => Sys2Proof.Machine.execBudgetRound uncore total meters s
  | .budgetBid d demand => Sys2Proof.Machine.execBudgetBid d demand s
  | .budgetGrant d => Sys2Proof.Machine.execBudgetGrant d s
  | .cclkDividerSwitch d => Sys2Proof.Machine.execCclkDividerSwitch d s
  | .drawMeterCheck d mean => Sys2Proof.Machine.execDrawMeterCheck d mean s
  | .packagePowerLimit mean => Sys2Proof.Machine.execPackagePowerLimit mean s
  | .setTdp src unit value => Sys2Proof.Machine.execSetTdp src unit value s
  | .capCclk src unit value => Sys2Proof.Machine.execCapCclk src unit value s
  | .gate src unit value => Sys2Proof.Machine.execGate src unit value s
  | .ungate src unit value => Sys2Proof.Machine.execUngate src unit value s
  | .powerOff src unit value => Sys2Proof.Machine.execPowerOff src unit value s
  | .powerOn src unit value => Sys2Proof.Machine.execPowerOn src unit value s
  | .memIdle src unit value => Sys2Proof.Machine.execMemIdle src unit value s
  | .unitPowerDownDone unit => Sys2Proof.Machine.execUnitPowerDownDone unit s
  | .unitPowerUpDone unit => Sys2Proof.Machine.execUnitPowerUpDone unit s
  | .unitDrainTimeout unit => Sys2Proof.Machine.execUnitDrainTimeout unit s
  | .memIdleSelfRefresh m => Sys2Proof.Machine.execMemIdleSelfRefresh m s
  | .wakePin low => Sys2Proof.Machine.execWakePin low s
  | .fxWake p low => Sys2Proof.Machine.execFxWake p low s
  | .rtcAlarm => Sys2Proof.Machine.execRtcAlarm s
  | .thermalWake temp => Sys2Proof.Machine.execThermalWake temp s
  | .sidebandAddressMatch addr handover => Sys2Proof.Machine.execSidebandAddressMatch addr handover s
  | .pcieWake j handover => Sys2Proof.Machine.execPcieWake j handover s
  | .ctuBegin who w tag => Sys2Proof.Machine.execCtuBegin who w tag s
  | .ctuCommit who w tag => Sys2Proof.Machine.execCtuCommit who w tag s
  | .ctuRollback who w tag => Sys2Proof.Machine.execCtuRollback who w tag s
  | .rwsWrite who off size val => Sys2Proof.Machine.execRwsWrite who off size val s
  | .ctuTimeout w => Sys2Proof.Machine.execCtuTimeout w s
  | .commitTurn => Sys2Proof.Machine.execCommitTurn s
  | .ctuCheckDone => Sys2Proof.Machine.execCtuCheckDone s
  | .ctuApply b => Sys2Proof.Machine.execCtuApply b s
  | .blockApply b => Sys2Proof.Machine.execBlockApply b s
  | .ctuApplyComplete => Sys2Proof.Machine.execCtuApplyComplete s
  | .shareHandback k => Sys2Proof.Machine.execShareHandback k s
  | .zeroFillDone r => Sys2Proof.Machine.execZeroFillDone r s
  | .sweepDone t => Sys2Proof.Machine.execSweepDone t s
  | .agentDrained t a => Sys2Proof.Machine.execAgentDrained t a s
  | .flitRoute t arr f first => Sys2Proof.Machine.execFlitRoute t arr f first s
  | .grantHoldCutoff t f => Sys2Proof.Machine.execGrantHoldCutoff t f s
  | .cfgHoldCutoff t h tag => Sys2Proof.Machine.execCfgHoldCutoff t h tag s
  | .statClear who t => Sys2Proof.Machine.execStatClear who t s
  | .credit sender receiver stage => Sys2Proof.Machine.execCredit sender receiver stage s
  | .regDone h => Sys2Proof.Machine.execRegDone h s
  | .rspError x code => Sys2Proof.Machine.execRspError x code s
  | .transactionTimeout x => Sys2Proof.Machine.execTransactionTimeout x s
  | .rdShared c ln => Sys2Proof.Machine.execRdShared c ln s
  | .rdNoexcl c ln => Sys2Proof.Machine.execRdNoexcl c ln s
  | .rdUnique c ln => Sys2Proof.Machine.execRdUnique c ln s
  | .upgrade c ln => Sys2Proof.Machine.execUpgrade c ln s
  | .zeroUnique c ln => Sys2Proof.Machine.execZeroUnique c ln s
  | .cmoClean c ln => Sys2Proof.Machine.execCmoClean c ln s
  | .cmoFlush c ln => Sys2Proof.Machine.execCmoFlush c ln s
  | .rdNoalloc a who ln => Sys2Proof.Machine.execRdNoalloc a who ln s
  | .wrFull a who ln data => Sys2Proof.Machine.execWrFull a who ln data s
  | .wrMask a who ln data mask => Sys2Proof.Machine.execWrMask a who ln data mask s
  | .wbDirty c ln => Sys2Proof.Machine.execWbDirty c ln s
  | .evictClean c ln => Sys2Proof.Machine.execEvictClean c ln s
  | .snpShare a ln => Sys2Proof.Machine.execSnpShare a ln s
  | .snpInval a ln => Sys2Proof.Machine.execSnpInval a ln s
  | .snpPeek a ln => Sys2Proof.Machine.execSnpPeek a ln s
  | .rspI a ln => Sys2Proof.Machine.execRspI a ln s
  | .rspS a ln => Sys2Proof.Machine.execRspS a ln s
  | .rspWbif a ln => Sys2Proof.Machine.execRspWbif a ln s
  | .datDirty a ln => Sys2Proof.Machine.execDatDirty a ln s
  | .memData t ln => Sys2Proof.Machine.execMemData t ln s
  | .datGrant a ln => Sys2Proof.Machine.execDatGrant a ln s
  | .rspGrant c ln => Sys2Proof.Machine.execRspGrant c ln s
  | .rspWdone a ln => Sys2Proof.Machine.execRspWdone a ln s
  | .wbAck c ln => Sys2Proof.Machine.execWbAck c ln s
  | .lrHoldTimeout h => Sys2Proof.Machine.execLrHoldTimeout h s
  | .rangeOp t h => Sys2Proof.Machine.execRangeOp t h s
  | .rangeSweep t => Sys2Proof.Machine.execRangeSweep t s
  | .memRead t x => Sys2Proof.Machine.execMemRead t x s
  | .memWrite ln => Sys2Proof.Machine.execMemWrite ln s
  | .memWriteMask ln => Sys2Proof.Machine.execMemWriteMask ln s
  | .patrolScrub m => Sys2Proof.Machine.execPatrolScrub m s
  | .pcieDmaRead j tag addr len => Sys2Proof.Machine.execPcieDmaRead j tag addr len s
  | .pcieDmaWrite j addr bytes => Sys2Proof.Machine.execPcieDmaWrite j addr bytes s
  | .atomicOp j tag addr op size operand compare => Sys2Proof.Machine.execAtomicOp j tag addr op size operand compare s
  | .pcieMsi j addr eiid => Sys2Proof.Machine.execPcieMsi j addr eiid s
  | .linkDown j => Sys2Proof.Machine.execLinkDown j s
  | .cxlSurpriseRemoval j => Sys2Proof.Machine.execCxlSurpriseRemoval j s
  | .ioRead h val => Sys2Proof.Machine.execIoRead h val s
  | .ioWrite h => Sys2Proof.Machine.execIoWrite h s
  | .doorbellInvalidation ln => Sys2Proof.Machine.execDoorbellInvalidation ln s
  | .doorbellLineReturn ln => Sys2Proof.Machine.execDoorbellLineReturn ln s
  | .nopDesc ring seq => Sys2Proof.Machine.execNopDesc ring seq s
  | .runPipeline ring seq => Sys2Proof.Machine.execRunPipeline ring seq s
  | .loadImage ring seq => Sys2Proof.Machine.execLoadImage ring seq s
  | .imageValidation ring seq => Sys2Proof.Machine.execImageValidation ring seq s
  | .unloadImage ring seq => Sys2Proof.Machine.execUnloadImage ring seq s
  | .unloadTakesEffect ring seq => Sys2Proof.Machine.execUnloadTakesEffect ring seq s
  | .fenceDesc ring seq => Sys2Proof.Machine.execFenceDesc ring seq s
  | .fenceComplete ring seq => Sys2Proof.Machine.execFenceComplete ring seq s
  | .fencedWorkBegin ring seq => Sys2Proof.Machine.execFencedWorkBegin ring seq s
  | .abort ring seq => Sys2Proof.Machine.execAbort ring seq s
  | .abortComplete ring seq => Sys2Proof.Machine.execAbortComplete ring seq s
  | .etlbLoad ring seq => Sys2Proof.Machine.execEtlbLoad ring seq s
  | .etlbInvalidate ring seq => Sys2Proof.Machine.execEtlbInvalidate ring seq s
  | .etlbInvalidateComplete ring seq => Sys2Proof.Machine.execEtlbInvalidateComplete ring seq s
  | .matchWrite ring seq => Sys2Proof.Machine.execMatchWrite ring seq s
  | .dispatch n => Sys2Proof.Machine.execDispatch n s
  | .cbufRewriteDone n => Sys2Proof.Machine.execCbufRewriteDone n s
  | .cbufScrub n => Sys2Proof.Machine.execCbufScrub n s
  | .taskEnd n => Sys2Proof.Machine.execTaskEnd n s
  | .translationFaultTimeout t => Sys2Proof.Machine.execTranslationFaultTimeout t s
  | .completionWrite ring seq => Sys2Proof.Machine.execCompletionWrite ring seq s
  | .pageReq n => Sys2Proof.Machine.execPageReq n s
  | .scanCheck n ln => Sys2Proof.Machine.execScanCheck n ln s
  | .pageRelease n col page => Sys2Proof.Machine.execPageRelease n col page s
  | .correctionWriteBack => Sys2Proof.Machine.execCorrectionWriteBack s
  | .chainFwd n => Sys2Proof.Machine.execChainFwd n s
  | .rowFetch n => Sys2Proof.Machine.execRowFetch n s
  | .survivor n => Sys2Proof.Machine.execSurvivor n s
  | .scan n => Sys2Proof.Machine.execScan n s
  | .scanraw n => Sys2Proof.Machine.execScanraw n s
  | .recv n => Sys2Proof.Machine.execRecv n s
  | .inlineIn n => Sys2Proof.Machine.execInlineIn n s
  | .filter n => Sys2Proof.Machine.execFilter n s
  | .project n => Sys2Proof.Machine.execProject n s
  | .matchOp n => Sys2Proof.Machine.execMatch n s
  | .hash n => Sys2Proof.Machine.execHash n s
  | .build n => Sys2Proof.Machine.execBuild n s
  | .probe n => Sys2Proof.Machine.execProbe n s
  | .aggLocal n => Sys2Proof.Machine.execAggLocal n s
  | .aggHome n => Sys2Proof.Machine.execAggHome n s
  | .sortRun n => Sys2Proof.Machine.execSortRun n s
  | .merge n => Sys2Proof.Machine.execMerge n s
  | .intermediateMergeTask n => Sys2Proof.Machine.execIntermediateMergeTask n s
  | .finalMergeTask n => Sys2Proof.Machine.execFinalMergeTask n s
  | .topk n => Sys2Proof.Machine.execTopk n s
  | .gatherTask n => Sys2Proof.Machine.execGatherTask n s
  | .topkRows n => Sys2Proof.Machine.execTopkRows n s
  | .partition n => Sys2Proof.Machine.execPartition n s
  | .limit n => Sys2Proof.Machine.execLimit n s
  | .emit n => Sys2Proof.Machine.execEmit n s
  | .emitInline n => Sys2Proof.Machine.execEmitInline n s
  | .endOp n => Sys2Proof.Machine.execEnd n s
  | .bucketInsert id => Sys2Proof.Machine.execBucketInsert id s
  | .bucketProbe id => Sys2Proof.Machine.execBucketProbe id s
  | .bucketMerge id => Sys2Proof.Machine.execBucketMerge id s
  | .anchorVisit id => Sys2Proof.Machine.execAnchorVisit id s
  | .spillChunkVisit id => Sys2Proof.Machine.execSpillChunkVisit id s
  | .probeResult id => Sys2Proof.Machine.execProbeResult id s
  | .opDone o => Sys2Proof.Machine.execOpDone o s
  | .level0MergeTask n => Sys2Proof.Machine.execLevel0MergeTask n s
  | .exchange n => Sys2Proof.Machine.execExchange n s
  | .recvTaskDispatch n => Sys2Proof.Machine.execRecvTaskDispatch n s
  | .programTableEntry n => Sys2Proof.Machine.execProgramTableEntry n s
  | .move n => Sys2Proof.Machine.execMove n s
  | .encode n => Sys2Proof.Machine.execEncode n s
  | .footerWrite n => Sys2Proof.Machine.execFooterWrite n s
  | .encodeBlockWriteBack n => Sys2Proof.Machine.execEncodeBlockWriteBack n s
  | .flush n => Sys2Proof.Machine.execFlush n s
  | .loop n => Sys2Proof.Machine.execLoop n s
  | .wait n => Sys2Proof.Machine.execWait n s
  | .waitPoll n => Sys2Proof.Machine.execWaitPoll n s
  | .waitTimeout n => Sys2Proof.Machine.execWaitTimeout n s
  | .signal n => Sys2Proof.Machine.execSignal n s
  | .dmEnd n => Sys2Proof.Machine.execDmEnd n s
  | .dmReservedOpcode n => Sys2Proof.Machine.execDmReservedOpcode n s
  | .dmReadReturn n => Sys2Proof.Machine.execDmReadReturn n s
  | .programDone n => Sys2Proof.Machine.execProgramDone n s
  | .channelDrainDone n => Sys2Proof.Machine.execChannelDrainDone n s
  | .trainingStepComplete p lanes => Sys2Proof.Machine.execTrainingStepComplete p lanes s
  | .trainingTimeout p => Sys2Proof.Machine.execTrainingTimeout p s
  | .capabilityWord p version c0 c1 c2 sess => Sys2Proof.Machine.execCapabilityWord p version c0 c1 c2 sess s
  | .dataFlit p bytes bad => Sys2Proof.Machine.execDataFlit p bytes bad s
  | .nak p bytes bad third => Sys2Proof.Machine.execNak p bytes bad third s
  | .idleFlit p bytes bad => Sys2Proof.Machine.execIdleFlit p bytes bad s
  | .replayTimeout p third => Sys2Proof.Machine.execReplayTimeout p third s
  | .command p => Sys2Proof.Machine.execCommand p s
  | .stagingReserved p => Sys2Proof.Machine.execStagingReserved p s
  | .dataIn p => Sys2Proof.Machine.execDataIn p s
  | .fxDoorbell p => Sys2Proof.Machine.execFxDoorbell p s
  | .fetchResend p => Sys2Proof.Machine.execFetchResend p s
  | .windowReg p => Sys2Proof.Machine.execWindowReg p s
  | .windowRelease p => Sys2Proof.Machine.execWindowRelease p s
  | .windowReleaseAck p => Sys2Proof.Machine.execWindowReleaseAck p s
  | .mgmt p => Sys2Proof.Machine.execMgmt p s
  | .finxisReset p pulse => Sys2Proof.Machine.execFinxisReset p pulse s
  | .loadStore h store reg rs1 imm size signed len => Sys2Proof.Machine.execLoadStore h store reg rs1 imm size signed len s
  | .amo h op rd rs1 rs2 size => Sys2Proof.Machine.execAmo h op rd rs1 rs2 size s
  | .lr h rd rs1 size => Sys2Proof.Machine.execLr h rd rs1 size s
  | .sc h rd rs1 rs2 size => Sys2Proof.Machine.execSc h rd rs1 rs2 size s
  | .fence h pred succ => Sys2Proof.Machine.execFence h pred succ s
  | .fenceI h => Sys2Proof.Machine.execFenceI h s
  | .cboZero h rs1 => Sys2Proof.Machine.execCboZero h rs1 s
  | .cboClean h rs1 => Sys2Proof.Machine.execCboClean h rs1 s
  | .cboFlush h rs1 => Sys2Proof.Machine.execCboFlush h rs1 s
  | .cboInval h rs1 => Sys2Proof.Machine.execCboInval h rs1 s
  | .prefetchR h rs1 imm => Sys2Proof.Machine.execPrefetchR h rs1 imm s
  | .prefetchW h rs1 imm => Sys2Proof.Machine.execPrefetchW h rs1 imm s
  | .prefetchI h rs1 imm => Sys2Proof.Machine.execPrefetchI h rs1 imm s
  | .wfi h => Sys2Proof.Machine.execWfi h s
  | .wfiWake h => Sys2Proof.Machine.execWfiWake h s
  | .wrsSto h => Sys2Proof.Machine.execWrsSto h s
  | .mtimecmpMatch h => Sys2Proof.Machine.execMtimecmpMatch h s
  | .msi who file eiid => Sys2Proof.Machine.execMsi who file eiid s
  | .hswGate h idx => Sys2Proof.Machine.execHswGate h idx s
  | .hswRet h => Sys2Proof.Machine.execHswRet h s
  | .hscClean h rs1 rs2 => Sys2Proof.Machine.execHscClean h rs1 rs2 s
  | .hscFlush h rs1 rs2 => Sys2Proof.Machine.execHscFlush h rs1 rs2 s
  | .hscTflush h rs1 rs2 => Sys2Proof.Machine.execHscTflush h rs1 rs2 s
  | .hscGtflush h rs1 rs2 => Sys2Proof.Machine.execHscGtflush h rs1 rs2 s
  | .sfenceVma h rs1 rs2 => Sys2Proof.Machine.execSfenceVma h rs1 rs2 s
  | .hfenceVvma h rs1 rs2 => Sys2Proof.Machine.execHfenceVvma h rs1 rs2 s
  | .hfenceGvma h rs1 rs2 => Sys2Proof.Machine.execHfenceGvma h rs1 rs2 s
  | .sinvalVma h rs1 rs2 => Sys2Proof.Machine.execSinvalVma h rs1 rs2 s
  | .hinvalVvma h rs1 rs2 => Sys2Proof.Machine.execHinvalVvma h rs1 rs2 s
  | .hinvalGvma h rs1 rs2 => Sys2Proof.Machine.execHinvalGvma h rs1 rs2 s
  | .sfenceWInval h => Sys2Proof.Machine.execSfenceWInval h s
  | .sfenceInvalIr h => Sys2Proof.Machine.execSfenceInvalIr h s
  | .satpWrite h r val => Sys2Proof.Machine.execSatpWrite h r val s
  | .mhpmeventWrite h k val => Sys2Proof.Machine.execMhpmeventWrite h k val s
  | .unimplementedInstruction h bits => Sys2Proof.Machine.execUnimplementedInstruction h bits s
  | .haltRequest h => Sys2Proof.Machine.execHaltRequest h s
  | .systemBusAccess pa size write => Sys2Proof.Machine.execSystemBusAccess pa size write s
  | .event k => Sys2Proof.Machine.execEvent k s
  | .aplicClaim w k => Sys2Proof.Machine.execAplicClaim w k s
  | .sourcecfgWrite who w k val => Sys2Proof.Machine.execSourcecfgWrite who w k val s
  | .pmcWatchdogTimeout => Sys2Proof.Machine.execPmcWatchdogTimeout s
  | .mailboxSubmit who w len => Sys2Proof.Machine.execMailboxSubmit who w len s
  | .getInfo src msg => Sys2Proof.Machine.execGetInfo src msg s
  | .readSensors src msg => Sys2Proof.Machine.execReadSensors src msg s
  | .readRails src msg rails => Sys2Proof.Machine.execReadRails src msg rails s
  | .setLimits src msg => Sys2Proof.Machine.execSetLimits src msg s
  | .tripClear src msg => Sys2Proof.Machine.execTripClear src msg s
  | .modeOrder src msg => Sys2Proof.Machine.execModeOrder src msg s
  | .powerReq src msg => Sys2Proof.Machine.execPowerReq src msg s
  | .reset src msg pulse => Sys2Proof.Machine.execReset src msg pulse s
  | .logRead src msg => Sys2Proof.Machine.execLogRead src msg s
  | .logClear src msg => Sys2Proof.Machine.execLogClear src msg s
  | .optionRead src msg => Sys2Proof.Machine.execOptionRead src msg s
  | .optionWrite src msg => Sys2Proof.Machine.execOptionWrite src msg s
  | .fwBegin src msg => Sys2Proof.Machine.execFwBegin src msg s
  | .fwData src msg bad => Sys2Proof.Machine.execFwData src msg bad s
  | .fwVerifyDone kind => Sys2Proof.Machine.execFwVerifyDone kind s
  | .fwReceiveTimeout kind => Sys2Proof.Machine.execFwReceiveTimeout kind s
  | .fwCommit src msg => Sys2Proof.Machine.execFwCommit src msg s
  | .fwRollback src msg => Sys2Proof.Machine.execFwRollback src msg s
  | .fwStatus src msg => Sys2Proof.Machine.execFwStatus src msg s
  | .debugSet src msg => Sys2Proof.Machine.execDebugSet src msg s
  | .pmcRestart => Sys2Proof.Machine.execPmcRestart s
  | .pmonClear who => Sys2Proof.Machine.execPmonClear who s
  | .pmonFreeze who on => Sys2Proof.Machine.execPmonFreeze who on s
  | .standbyRailsGood => Sys2Proof.Machine.execStandbyRailsGood s
  | .standbyRailLoss pulse => Sys2Proof.Machine.execStandbyRailLoss pulse s
  | .pcieLinkUp j rate type3 odd => Sys2Proof.Machine.execPcieLinkUp j rate type3 odd s
  | .pcieCompletionTimeout h => Sys2Proof.Machine.execPcieCompletionTimeout h s
  | .wfiRetentionEntry h => Sys2Proof.Machine.execWfiRetentionEntry h s
  | .wrsStoTimeout h => Sys2Proof.Machine.execWrsStoTimeout h s
  | .stimecmpMatch h vs => Sys2Proof.Machine.execStimecmpMatch h vs s
  | .csrWrite h csr val => Sys2Proof.Machine.execCsrWrite h csr val s
  | .ecall h => Sys2Proof.Machine.execEcall h s
  | .mret h => Sys2Proof.Machine.execMret h s
  | .debugResume h step => Sys2Proof.Machine.execDebugResume h step s
  | .dmactiveClear => Sys2Proof.Machine.execDmactiveClear s
  | .dynamicAddressAssignment addr => Sys2Proof.Machine.execDynamicAddressAssignment addr s

end Sys2Proof.Machine
end

