-- ==== Sys2Proof/Machine/Parts.lean ====
section
/-! DEFINITION. The parts of the state and which of them each command may change: the vocabulary of the frame statements. -/

namespace Sys2Proof.Machine
open Sys2Proof

/-- A part of the state: one field of State. -/
inductive StatePart where
  /-- the queue -/
  | pending
  /-- the flash -/
  | flash
  /-- the option set in force -/
  | coldOpt
  /-- package memory -/
  | mem
  /-- the harts -/
  | harts
  /-- the MRAM -/
  | mram
  /-- the interrupt files -/
  | imsic
  /-- the registers of the interrupt files -/
  | files
  /-- the engine -/
  | eng
  /-- the data mover -/
  | dm
  /-- the Finxis ports -/
  | fx
  /-- the configuration transaction unit -/
  | ctu
  /-- the PCIe and CXL links -/
  | links
  /-- the secure APLIC -/
  | aplicS
  /-- the non-secure APLIC -/
  | aplicN
  /-- the credits of the network -/
  | credits
  /-- the routers' buffers and links -/
  | fabric
  /-- the clusters -/
  | clusters
  /-- the homes -/
  | homes
  /-- packets in the network -/
  | pkts
  /-- the answer of the last access -/
  | resp
  /-- the registers of the window -/
  | regs
  /-- interrupt wires raised -/
  | wires
  /-- error patterns of memory -/
  | dmg
  /-- the write queue -/
  | wq
  /-- messages in flight -/
  | net
  /-- doorbell lines invalidated -/
  | dbInval
  /-- doorbell lines watched -/
  | watch
  /-- package-level state -/
  | pkg
  /-- the management controller -/
  | pmc
  /-- refusals logged -/
  | fwLog
  /-- what was sent to the outside -/
  | out
  /-- the model's counter of free values -/
  | free
  deriving DecidableEq, Repr

/-- Two states agree on a part. -/
def StatePart.same (p : StatePart) (s t : State) : Prop :=
  match p with
  | .pending => t.pending = s.pending
  | .flash => t.flash = s.flash
  | .coldOpt => t.coldOpt = s.coldOpt
  | .mem => t.mem = s.mem
  | .harts => t.harts = s.harts
  | .mram => t.mram = s.mram
  | .imsic => t.imsic = s.imsic
  | .files => t.files = s.files
  | .eng => t.eng = s.eng
  | .dm => t.dm = s.dm
  | .fx => t.fx = s.fx
  | .ctu => t.ctu = s.ctu
  | .links => t.links = s.links
  | .aplicS => t.aplicS = s.aplicS
  | .aplicN => t.aplicN = s.aplicN
  | .credits => t.credits = s.credits
  | .fabric => t.fabric = s.fabric
  | .clusters => t.clusters = s.clusters
  | .homes => t.homes = s.homes
  | .pkts => t.pkts = s.pkts
  | .resp => t.resp = s.resp
  | .regs => t.regs = s.regs
  | .wires => t.wires = s.wires
  | .dmg => t.dmg = s.dmg
  | .wq => t.wq = s.wq
  | .net => t.net = s.net
  | .dbInval => t.dbInval = s.dbInval
  | .watch => t.watch = s.watch
  | .pkg => t.pkg = s.pkg
  | .pmc => t.pmc = s.pmc
  | .fwLog => t.fwLog = s.fwLog
  | .out => t.out = s.out
  | .free => t.free = s.free

/-- Two states agree on every part but those of a list. -/
def SameBut (l : List StatePart) (s t : State) : Prop := ∀ p : StatePart, p ∉ l → p.same s t

/-- The parts of the state a command may change. -/
def Instr.parts : Instr → List StatePart
  | .registerWrite .. | .bootGood .. | .coreResetReq .. | .clusterResetReq .. | .dieResetReq ..
  | .watchdogKick .. | .rwsWrite .. | .flitRoute .. | .statClear .. | .sourcecfgWrite .. | .mailboxSubmit ..
  | .pmonClear .. | .pmonFreeze .. =>
    [.mem, .harts, .mram, .imsic, .files, .eng, .dm, .fx, .ctu, .links, .aplicS, .aplicN, .credits, .fabric,
     .clusters, .homes, .pkts, .resp, .regs, .wires, .dmg, .wq, .net, .dbInval, .watch, .pkg, .pmc, .fwLog, .out]
  | .suppliesGood .. | .warmupScan .. | .warmupTimeout | .dramTrainingDone .. | .duskWake .. =>
    [.mram, .regs, .pkg, .pmc]
  | .powerOnReset .. | .coldReset .. | .warmReset .. | .mramPulseEnd | .watchdogTimeout ..
  | .standbyRailLoss .. =>
    [.mem, .harts, .mram, .imsic, .files, .eng, .dm, .fx, .ctu, .links, .aplicS, .aplicN, .credits, .fabric,
     .clusters, .homes, .pkts, .regs, .wires, .dmg, .wq, .net, .dbInval, .watch, .pkg, .pmc, .fwLog]
  | .selfRefreshEntryDone .. => [.mem, .mram, .regs, .wires, .dmg, .wq, .pkg, .pmc, .free]
  | .selfRefreshWaitTimeout .. => [.regs, .wq, .pkg, .free]
  | .domainResetRelease .. =>
    [.harts, .mram, .imsic, .files, .clusters, .homes, .regs, .wq, .net, .pkg, .pmc, .fwLog]
  | .optionLoadDone => [.mram, .regs, .pkg, .pmc, .coldOpt]
  | .pllLock | .drawMeterCheck .. | .packagePowerLimit .. | .agentDrained .. | .channelDrainDone .. => [.regs]
  | .clockMonitorWindow .. | .modeDecision | .dieLoss .. | .ndmreset .. | .thermalTrip ..
  | .unitDrainTimeout .. | .finxisReset .. | .pmcWatchdogTimeout | .reset .. =>
    [.mem, .harts, .mram, .imsic, .files, .eng, .dm, .fx, .ctu, .links, .aplicS, .aplicN, .credits, .fabric,
     .clusters, .homes, .pkts, .regs, .wires, .dmg, .wq, .net, .dbInval, .watch, .pkg, .pmc, .fwLog, .out]
  | .memoryFillDone => [.mem, .mram, .regs, .dmg, .pkg, .pmc]
  | .bootAuthentication =>
    [.mem, .harts, .mram, .fx, .clusters, .homes, .regs, .dmg, .wq, .net, .dbInval, .watch, .pkg, .pmc]
  | .selfTestDone .. | .duskEntry | .dieReadmit .. | .throttleRelax | .budgetRound .. | .budgetBid ..
  | .budgetGrant .. | .memIdleSelfRefresh .. | .wakePin .. | .fxWake .. | .rtcAlarm | .sidebandAddressMatch ..
  | .pcieWake .. => [.regs, .pkg]
  | .mainlineEntry =>
    [.harts, .mram, .imsic, .files, .eng, .dm, .fx, .aplicS, .aplicN, .clusters, .homes, .regs, .wires, .wq, .net,
     .dbInval, .watch, .pkg, .pmc, .fwLog, .out]
  | .modeOrderSubmit .. => [.mram, .resp, .regs, .pkg, .pmc]
  | .nightEntry =>
    [.mem, .harts, .mram, .imsic, .files, .eng, .fx, .links, .clusters, .homes, .regs, .wires, .dmg, .wq, .net,
     .pkg, .pmc, .fwLog, .free]
  | .lowPowerEntryTimeout .. | .unitPowerUpDone .. | .modeOrder .. => [.fx, .regs, .wires, .pkg, .pmc, .out]
  | .nightWake =>
    [.harts, .mram, .imsic, .files, .fx, .links, .clusters, .homes, .regs, .wq, .net, .pkg, .pmc, .fwLog]
  | .midnightWake | .standbyRailsGood => [.pkg]
  | .modeTransitionDone =>
    [.mem, .harts, .mram, .imsic, .files, .eng, .dm, .fx, .links, .aplicS, .aplicN, .credits, .fabric, .clusters,
     .homes, .pkts, .regs, .wires, .dmg, .wq, .net, .dbInval, .watch, .pkg, .pmc, .fwLog, .out]
  | .clusterResetDrained .. => [.harts, .imsic, .files, .eng, .clusters, .homes, .regs, .wq, .net, .pkg, .fwLog]
  | .hartreset .. => [.harts, .imsic, .files, .clusters, .homes, .regs, .wq, .net, .pkg, .fwLog]
  | .watchdogHalf => [.wires, .pkg]
  | .sensorScan .. | .fwCommit .. =>
    [.harts, .mram, .imsic, .files, .eng, .dm, .fx, .ctu, .links, .aplicS, .aplicN, .credits, .fabric, .clusters,
     .homes, .pkts, .regs, .wires, .dmg, .wq, .net, .dbInval, .watch, .pkg, .pmc, .fwLog, .out]
  | .throttleStep => [.regs, .wires, .pkg]
  | .cclkDividerSwitch .. | .mtimecmpMatch .. | .stimecmpMatch .. => [.harts, .regs]
  | .setTdp .. | .capCclk .. | .gate .. | .ungate .. | .powerOff .. | .powerOn .. | .memIdle .. =>
    [.mram, .fx, .resp, .regs, .wires, .pkg, .pmc, .out]
  | .unitPowerDownDone .. =>
    [.harts, .imsic, .files, .eng, .fx, .links, .clusters, .homes, .regs, .wires, .wq, .net, .pkg, .pmc, .fwLog,
     .out]
  | .thermalWake .. => [.regs, .pkg, .pmc]
  | .ctuBegin .. | .ctuCommit .. | .ctuRollback .. => [.mram, .ctu, .resp, .regs, .wires, .pmc]
  | .ctuTimeout .. => [.ctu, .regs, .wires]
  | .commitTurn | .ctuApply .. => [.ctu, .regs]
  | .ctuCheckDone => [.ctu, .homes, .regs, .wires]
  | .blockApply .. =>
    [.mem, .harts, .mram, .imsic, .files, .eng, .dm, .fx, .ctu, .aplicS, .aplicN, .clusters, .homes, .regs, .wires,
     .dmg, .wq, .net, .dbInval, .watch, .pkg, .pmc, .fwLog, .out]
  | .ctuApplyComplete => [.ctu, .regs, .wires, .pkg]
  | .shareHandback .. | .sweepDone .. | .rangeOp .. =>
    [.harts, .clusters, .homes, .regs, .wq, .net, .dbInval, .watch, .fwLog]
  | .zeroFillDone .. | .trainingTimeout .. => [.regs, .wires]
  | .grantHoldCutoff .. => [.eng, .credits, .fabric, .clusters, .pkts, .resp, .regs, .wires, .net, .fwLog]
  | .cfgHoldCutoff .. => [.regs, .wires, .net, .fwLog]
  | .credit .. => [.credits]
  | .regDone .. | .transactionTimeout .. =>
    [.mem, .harts, .mram, .imsic, .files, .eng, .dm, .fx, .ctu, .links, .aplicS, .aplicN, .credits, .fabric,
     .clusters, .homes, .pkts, .regs, .wires, .dmg, .wq, .net, .dbInval, .watch, .pkg, .pmc, .fwLog, .out, .free]
  | .rspError .. =>
    [.mem, .harts, .mram, .eng, .dm, .clusters, .homes, .regs, .wires, .dmg, .wq, .net, .dbInval, .watch, .pkg,
     .pmc, .fwLog, .out, .free]
  | .rdShared .. | .rdNoexcl .. | .rdUnique .. | .upgrade .. | .zeroUnique .. | .cmoClean .. | .cmoFlush ..
  | .wbDirty .. => [.clusters, .homes, .regs, .wq, .net, .fwLog]
  | .rdNoalloc .. | .wrFull .. | .wrMask .. | .rspI .. | .rspS .. | .rspWbif .. | .datDirty .. | .memData .. =>
    [.homes, .regs, .wq, .net, .fwLog]
  | .evictClean .. => [.homes, .net]
  | .snpShare .. | .snpInval .. | .snpPeek .. => [.harts, .clusters, .net, .dbInval, .watch]
  | .datGrant .. | .rspWdone .. =>
    [.mem, .harts, .mram, .clusters, .homes, .resp, .regs, .wires, .dmg, .wq, .net, .dbInval, .watch, .pkg, .pmc,
     .fwLog, .free]
  | .rspGrant .. | .wbAck .. | .loadStore .. | .amo .. | .lr .. | .sc .. | .fence .. | .fenceI .. | .cboZero ..
  | .cboClean .. | .cboFlush .. | .cboInval .. | .prefetchR .. | .prefetchW .. | .prefetchI .. | .wfi ..
  | .wrsSto .. | .hswGate .. | .hswRet .. | .hscClean .. | .hscFlush .. | .hscTflush .. | .hscGtflush ..
  | .sfenceVma .. | .hfenceVvma .. | .hfenceGvma .. | .sinvalVma .. | .hinvalVvma .. | .hinvalGvma ..
  | .sfenceWInval .. | .sfenceInvalIr .. | .satpWrite .. | .mhpmeventWrite .. | .unimplementedInstruction ..
  | .pcieCompletionTimeout .. | .ecall .. | .mret .. =>
    [.mem, .harts, .mram, .clusters, .homes, .regs, .wires, .dmg, .wq, .net, .dbInval, .watch, .pkg, .pmc, .fwLog,
     .free]
  | .lrHoldTimeout .. => [.harts, .clusters, .net]
  | .rangeSweep .. => [.harts, .clusters, .homes, .regs, .wq, .net, .dbInval, .watch]
  | .memRead .. => [.mram, .homes, .regs, .wires, .wq, .net, .pkg, .pmc, .fwLog]
  | .memWrite .. | .memWriteMask .. => [.mem, .mram, .regs, .wires, .dmg, .wq, .pkg, .pmc, .fwLog]
  | .patrolScrub .. => [.mram, .regs, .wires, .wq, .pkg, .pmc]
  | .pcieDmaRead .. => [.mram, .regs, .wires, .wq, .pkg, .pmc, .fwLog, .out]
  | .pcieDmaWrite .. =>
    [.mem, .harts, .mram, .clusters, .homes, .regs, .wires, .dmg, .wq, .net, .dbInval, .watch, .pkg, .pmc, .fwLog]
  | .atomicOp .. =>
    [.mem, .harts, .mram, .clusters, .homes, .regs, .wires, .dmg, .wq, .net, .dbInval, .watch, .pkg, .pmc, .fwLog,
     .out]
  | .pcieMsi .. | .msi .. => [.mram, .imsic, .regs, .pmc, .fwLog]
  | .linkDown .. | .cxlSurpriseRemoval .. => [.links, .wires, .wq, .pkg]
  | .ioRead .. | .ioWrite .. =>
    [.mem, .harts, .mram, .clusters, .homes, .regs, .wires, .dmg, .wq, .net, .dbInval, .watch, .pkg, .pmc, .fwLog,
     .out, .free]
  | .doorbellInvalidation .. => [.dbInval, .watch]
  | .doorbellLineReturn .. =>
    [.harts, .mram, .eng, .dm, .fx, .clusters, .homes, .regs, .wires, .wq, .net, .dbInval, .watch, .pkg, .pmc,
     .fwLog, .out]
  | .nopDesc .. | .runPipeline .. | .unloadImage .. | .unloadTakesEffect .. | .fenceDesc .. | .fenceComplete ..
  | .abort .. | .abortComplete .. | .etlbLoad .. | .etlbInvalidate .. | .etlbInvalidateComplete ..
  | .matchWrite .. | .translationFaultTimeout .. | .pageReq .. => [.eng]
  | .loadImage .. | .pageRelease .. | .chainFwd .. | .merge .. =>
    [.mem, .harts, .mram, .eng, .fx, .clusters, .homes, .regs, .wires, .dmg, .wq, .net, .dbInval, .watch, .pkg,
     .pmc, .fwLog, .out]
  | .imageValidation .. => [.eng, .fx]
  | .fencedWorkBegin .. | .fxDoorbell .. => [.mram, .eng, .fx, .regs, .wires, .wq, .pkg, .pmc, .fwLog, .out]
  | .dispatch .. | .opDone .. | .exchange .. | .recvTaskDispatch .. =>
    [.mem, .harts, .mram, .eng, .clusters, .homes, .regs, .wires, .dmg, .wq, .net, .dbInval, .watch, .pkg, .pmc,
     .fwLog, .free]
  | .cbufRewriteDone .. => [.eng, .regs]
  | .cbufScrub .. => [.mram, .eng, .regs, .pmc, .free]
  | .taskEnd .. | .rowFetch .. | .survivor .. | .scan .. | .scanraw .. | .recv .. | .inlineIn .. | .filter ..
  | .project .. | .matchOp .. | .hash .. | .build .. | .probe .. | .aggLocal .. | .aggHome .. | .sortRun ..
  | .intermediateMergeTask .. | .finalMergeTask .. | .topk .. | .gatherTask .. | .topkRows .. | .partition ..
  | .limit .. | .emit .. | .emitInline .. | .endOp .. | .probeResult .. | .level0MergeTask .. | .dataIn .. =>
    [.mem, .harts, .mram, .eng, .fx, .clusters, .homes, .regs, .wires, .dmg, .wq, .net, .dbInval, .watch, .pkg,
     .pmc, .fwLog, .out, .free]
  | .completionWrite .. =>
    [.mem, .harts, .mram, .imsic, .eng, .fx, .clusters, .homes, .regs, .wires, .dmg, .wq, .net, .dbInval, .watch,
     .pkg, .pmc, .fwLog, .out]
  | .scanCheck .. => [.mram, .eng, .regs, .wires, .wq, .pkg, .pmc, .fwLog]
  | .correctionWriteBack | .bucketInsert .. | .bucketProbe .. | .bucketMerge .. | .anchorVisit ..
  | .spillChunkVisit .. =>
    [.mem, .harts, .mram, .eng, .clusters, .homes, .regs, .wires, .dmg, .wq, .net, .dbInval, .watch, .pkg, .pmc,
     .fwLog]
  | .programTableEntry .. => [.mram, .dm, .regs, .wires, .wq, .pkg, .pmc, .fwLog]
  | .move .. | .encode .. | .footerWrite .. | .encodeBlockWriteBack .. | .flush .. | .loop .. | .wait ..
  | .waitPoll .. | .waitTimeout .. | .dmEnd .. | .dmReservedOpcode .. | .dmReadReturn .. =>
    [.mem, .harts, .mram, .dm, .clusters, .homes, .regs, .wires, .dmg, .wq, .net, .dbInval, .watch, .pkg, .pmc,
     .fwLog]
  | .signal .. =>
    [.mem, .harts, .mram, .imsic, .dm, .clusters, .homes, .regs, .wires, .dmg, .wq, .net, .dbInval, .watch, .pkg,
     .pmc, .fwLog]
  | .programDone .. => [.mram, .imsic, .dm, .regs, .pmc, .fwLog]
  | .trainingStepComplete .. | .capabilityWord .. | .dataFlit .. | .nak .. | .replayTimeout .. | .windowReg .. =>
    [.fx, .regs, .wires, .out]
  | .idleFlit .. | .fetchResend .. | .windowRelease .. | .windowReleaseAck .. => [.fx, .regs, .out]
  | .command .. | .stagingReserved .. => [.eng, .fx, .regs, .wires, .out]
  | .mgmt .. | .readSensors .. | .readRails .. | .setLimits .. | .logRead .. | .optionRead .. | .fwStatus ..
  | .debugSet .. => [.fx, .regs, .wires, .pmc, .out]
  | .wfiWake .. => [.harts, .imsic, .files, .clusters, .homes, .regs, .wq, .net, .fwLog, .free]
  | .haltRequest .. | .wfiRetentionEntry .. | .wrsStoTimeout .. | .debugResume .. => [.harts]
  | .systemBusAccess .. =>
    [.mem, .harts, .mram, .imsic, .eng, .dm, .fx, .ctu, .links, .aplicS, .aplicN, .credits, .clusters, .homes,
     .pkts, .resp, .regs, .wires, .dmg, .wq, .net, .dbInval, .watch, .pkg, .pmc, .fwLog, .out, .free]
  | .event .. => [.mram, .imsic, .aplicS, .aplicN, .regs, .wires, .pmc, .fwLog]
  | .aplicClaim .. => [.aplicS, .aplicN]
  | .getInfo .. => [.fx, .regs, .wires, .pmc, .out, .free]
  | .tripClear .. | .logClear .. | .optionWrite .. | .fwRollback .. => [.mram, .fx, .regs, .wires, .pmc, .out]
  | .powerReq .. => [.mram, .fx, .regs, .wires, .pkg, .pmc, .out]
  | .fwBegin .. => [.mram, .fx, .regs, .wires, .pmc, .out, .free]
  | .fwData .. => [.fx, .regs, .wires, .pmc, .out, .flash]
  | .fwVerifyDone .. | .fwReceiveTimeout .. | .pmcRestart => [.mram, .pmc]
  | .pcieLinkUp .. => [.links, .wires, .pkg]
  | .csrWrite .. =>
    [.mem, .harts, .mram, .imsic, .files, .clusters, .homes, .regs, .wires, .dmg, .wq, .net, .dbInval, .watch,
     .pkg, .pmc, .fwLog, .free]
  | .dmactiveClear => [.harts, .pkg]
  | .dynamicAddressAssignment .. => [.pmc]

end Sys2Proof.Machine
end

