-- ==== Sys2Proof/WellFormed.lean ====
section
/-! DEFINITION. Which commands are well formed: every operand fits the field the manual gives it. A command that is not is
one no sender can make; `exec` gives it a meaning all the same. -/

namespace Sys2Proof

/-- Whether a number fits in `n` bits. -/
def fits (n v : Nat) : Bool := decide (v < 2 ^ n)

/-- Whether a number is one of a list. -/
def oneOf (l : List Nat) (v : Nat) : Bool := l.contains v

/-- Whether a reading fits the signed 16 bits of a sensor (20 R479). -/
def signed16 (t : Int) : Bool := decide (-32768 ≤ t) && decide (t < 32768)

/-- Whether an immediate fits 12 signed bits. -/
def imm12 (i : Int) : Bool := decide (-2048 ≤ i) && decide (i < 2048)

/-- Whether an identity names a partition (14 R366). -/
def identOk (who : Ident) : Bool := fits 6 who.pid

/-- Whether an SNP message may carry a stage (11 R317). -/
def stageOk (op stage : Nat) : Bool :=
  if op == 0x26 then decide (1 ≤ stage) && decide (stage ≤ 17)
  else if op == 0x27 then decide (1 ≤ stage) && decide (stage ≤ 15)
  else if op == 0x28 then stage == 16
  else if (decide (0x20 ≤ op) && decide (op ≤ 0x25)) || op == 0x29 then stage == 31
  else true

/-- Whether a flit's fields have their widths (11 R309), with AUX zero but for byte masks and error codes, ADDR zero in messages
without an address, STAGE zero but in SNP and there the message's (R317), and a payload of 128 bytes (R307). -/
def flitOk (f : Flit) : Bool :=
  identOk f.who && fits 14 f.time && fits 45 f.addr && fits 10 f.index && fits 12 f.tag && fits 4 f.srcAgent && fits 4 f.dstAgent &&
  fits 5 f.stage && fits 8 f.op && fits 1 f.epoch && fits 1 f.vc && fits 3 f.cls && f.payload.length == 128 &&
  (if f.cls == 1 then stageOk f.op f.stage else f.stage == 0) &&
  (f.addr == 0 || !oneOf [0x49, 0xA3, 0xA4] f.op) &&
  (if f.op == 0x0A || f.op == 0x25 then fits 128 f.aux else if f.op == 0x46 then fits 8 f.aux else f.aux == 0)

/-- Whether the identity behind a power request names a partition. -/
def powerSrcOk : PowerSrc → Bool
  | .reg _ who => identOk who
  | .sideband => true
  | .finxis _ => true

/-- Whether a command is well formed. -/
def Instr.wellFormed : Instr → Bool
  | .registerWrite who off size val _ => identOk who && fits 32 off && oneOf [4, 8] size && fits 64 val
  | .suppliesGood b _ _ => b.sites.length == 12 && fits 16 b.dimms
  | .powerOnReset _ => true
  | .coldReset _ _ => true
  | .warmReset _ => true
  | .mramPulseEnd => true
  | .selfRefreshEntryDone _ => true
  | .selfRefreshWaitTimeout _ => true
  | .domainResetRelease _ => true
  | .optionLoadDone => true
  | .pllLock => true
  | .clockMonitorWindow _ _ _ _ => true
  | .warmupScan temps => (temps.length == 148 && temps.all signed16)
  | .warmupTimeout => true
  | .dramTrainingDone dimms => dimms.length == 16
  | .memoryFillDone => true
  | .bootAuthentication => true
  | .selfTestDone _ _ => true
  | .mainlineEntry => true
  | .bootGood who => identOk who
  | .modeOrderSubmit _ who target => identOk who && decide (target < 12)
  | .modeDecision => true
  | .duskEntry => true
  | .duskWake _ => true
  | .nightEntry => true
  | .lowPowerEntryTimeout target => decide (target < 12)
  | .nightWake => true
  | .midnightWake => true
  | .modeTransitionDone => true
  | .dieLoss _ _ => true
  | .dieReadmit _ _ _ => true
  | .coreResetReq _ who index => identOk who && fits 8 index
  | .clusterResetReq _ who index => identOk who && fits 8 index
  | .clusterResetDrained _ => true
  | .dieResetReq _ who index => identOk who && fits 8 index
  | .ndmreset _ _ => true
  | .hartreset _ _ => true
  | .watchdogKick who => identOk who
  | .watchdogHalf => true
  | .watchdogTimeout _ => true
  | .thermalTrip _ temp => signed16 temp
  | .sensorScan temps => (temps.length == 148 && temps.all signed16)
  | .throttleStep => true
  | .throttleRelax => true
  | .budgetRound _ _ meters => meters.length == 12
  | .budgetBid _ _ => true
  | .budgetGrant _ => true
  | .cclkDividerSwitch _ => true
  | .drawMeterCheck _ _ => true
  | .packagePowerLimit _ => true
  | .setTdp src unit value => powerSrcOk src && fits 7 unit && fits 16 value
  | .capCclk src unit value => powerSrcOk src && fits 7 unit && fits 16 value
  | .gate src unit value => powerSrcOk src && fits 7 unit && fits 16 value
  | .ungate src unit value => powerSrcOk src && fits 7 unit && fits 16 value
  | .powerOff src unit value => powerSrcOk src && fits 7 unit && fits 16 value
  | .powerOn src unit value => powerSrcOk src && fits 7 unit && fits 16 value
  | .memIdle src unit value => powerSrcOk src && fits 7 unit && fits 16 value
  | .unitPowerDownDone unit => fits 7 unit
  | .unitPowerUpDone unit => fits 7 unit
  | .unitDrainTimeout unit => fits 7 unit
  | .memIdleSelfRefresh _ => true
  | .wakePin _ => true
  | .fxWake _ _ => true
  | .rtcAlarm => true
  | .thermalWake temp => signed16 temp
  | .sidebandAddressMatch addr _ => fits 7 addr
  | .pcieWake _ _ => true
  | .ctuBegin who _ tag => identOk who && fits 16 tag
  | .ctuCommit who _ tag => identOk who && fits 16 tag
  | .ctuRollback who _ tag => identOk who && fits 16 tag
  | .rwsWrite who off size val => identOk who && fits 32 off && oneOf [4, 8] size && fits 64 val
  | .ctuTimeout _ => true
  | .commitTurn => true
  | .ctuCheckDone => true
  | .ctuApply _ => true
  | .blockApply _ => true
  | .ctuApplyComplete => true
  | .shareHandback _ => true
  | .zeroFillDone _ => true
  | .sweepDone _ => true
  | .agentDrained _ _ => true
  | .flitRoute _ _ f _ => flitOk f
  | .grantHoldCutoff _ f => flitOk f
  | .cfgHoldCutoff _ _ tag => fits 16 tag
  | .statClear who _ => identOk who
  | .credit _ _ stage => fits 5 stage
  | .regDone _ => true
  | .rspError _ code => (decide (1 ≤ code) && decide (code ≤ 4))
  | .transactionTimeout _ => true
  | .rdShared _ ln => fits 45 ln
  | .rdNoexcl _ ln => fits 45 ln
  | .rdUnique _ ln => fits 45 ln
  | .upgrade _ ln => fits 45 ln
  | .zeroUnique _ ln => fits 45 ln
  | .cmoClean _ ln => fits 45 ln
  | .cmoFlush _ ln => fits 45 ln
  | .rdNoalloc _ who ln => identOk who && fits 45 ln
  | .wrFull _ who ln data => identOk who && fits 45 ln && data.length == 128
  | .wrMask _ who ln data mask => identOk who && fits 45 ln && data.length == 128 && fits 128 mask
  | .wbDirty _ ln => fits 45 ln
  | .evictClean _ ln => fits 45 ln
  | .snpShare _ ln => fits 45 ln
  | .snpInval _ ln => fits 45 ln
  | .snpPeek _ ln => fits 45 ln
  | .rspI _ ln => fits 45 ln
  | .rspS _ ln => fits 45 ln
  | .rspWbif _ ln => fits 45 ln
  | .datDirty _ ln => fits 45 ln
  | .memData _ ln => fits 45 ln
  | .datGrant _ ln => fits 45 ln
  | .rspGrant _ ln => fits 45 ln
  | .rspWdone _ ln => fits 45 ln
  | .wbAck _ ln => fits 45 ln
  | .lrHoldTimeout _ => true
  | .rangeOp _ _ => true
  | .rangeSweep _ => true
  | .memRead _ x => fits 45 x.ln
  | .memWrite ln => fits 45 ln
  | .memWriteMask ln => fits 45 ln
  | .patrolScrub _ => true
  | .pcieDmaRead _ tag addr len => fits 16 tag && fits 52 addr.addr && fits 13 len
  | .pcieDmaWrite _ addr bytes => fits 52 addr.addr && decide (bytes.length ≤ 4096)
  | .atomicOp _ tag addr _ size operand compare => fits 16 tag && fits 52 addr.addr && oneOf [4, 8, 16] size && fits 128 operand && fits 128 compare
  | .pcieMsi _ addr eiid => fits 52 addr && fits 11 eiid
  | .linkDown _ => true
  | .cxlSurpriseRemoval _ => true
  | .ioRead _ val => fits 64 val
  | .ioWrite _ => true
  | .doorbellInvalidation ln => fits 45 ln
  | .doorbellLineReturn ln => fits 45 ln
  | .nopDesc _ seq => fits 32 seq
  | .runPipeline _ seq => fits 32 seq
  | .loadImage _ seq => fits 32 seq
  | .imageValidation _ seq => fits 32 seq
  | .unloadImage _ seq => fits 32 seq
  | .unloadTakesEffect _ seq => fits 32 seq
  | .fenceDesc _ seq => fits 32 seq
  | .fenceComplete _ seq => fits 32 seq
  | .fencedWorkBegin _ seq => fits 32 seq
  | .abort _ seq => fits 32 seq
  | .abortComplete _ seq => fits 32 seq
  | .etlbLoad _ seq => fits 32 seq
  | .etlbInvalidate _ seq => fits 32 seq
  | .etlbInvalidateComplete _ seq => fits 32 seq
  | .matchWrite _ seq => fits 32 seq
  | .dispatch _ => true
  | .cbufRewriteDone _ => true
  | .cbufScrub _ => true
  | .taskEnd _ => true
  | .translationFaultTimeout _ => true
  | .completionWrite _ seq => fits 32 seq
  | .pageReq _ => true
  | .scanCheck _ ln => fits 45 ln
  | .pageRelease _ _ _ => true
  | .correctionWriteBack => true
  | .chainFwd _ => true
  | .rowFetch _ => true
  | .survivor _ => true
  | .scan _ => true
  | .scanraw _ => true
  | .recv _ => true
  | .inlineIn _ => true
  | .filter _ => true
  | .project _ => true
  | .matchOp _ => true
  | .hash _ => true
  | .build _ => true
  | .probe _ => true
  | .aggLocal _ => true
  | .aggHome _ => true
  | .sortRun _ => true
  | .merge _ => true
  | .intermediateMergeTask _ => true
  | .finalMergeTask _ => true
  | .topk _ => true
  | .gatherTask _ => true
  | .topkRows _ => true
  | .partition _ => true
  | .limit _ => true
  | .emit _ => true
  | .emitInline _ => true
  | .endOp _ => true
  | .bucketInsert _ => true
  | .bucketProbe _ => true
  | .bucketMerge _ => true
  | .anchorVisit _ => true
  | .spillChunkVisit _ => true
  | .probeResult _ => true
  | .opDone _ => true
  | .level0MergeTask _ => true
  | .exchange _ => true
  | .recvTaskDispatch _ => true
  | .programTableEntry _ => true
  | .move _ => true
  | .encode _ => true
  | .footerWrite _ => true
  | .encodeBlockWriteBack _ => true
  | .flush _ => true
  | .loop _ => true
  | .wait _ => true
  | .waitPoll _ => true
  | .waitTimeout _ => true
  | .signal _ => true
  | .dmEnd _ => true
  | .dmReservedOpcode _ => true
  | .dmReadReturn _ => true
  | .programDone _ => true
  | .channelDrainDone _ => true
  | .trainingStepComplete _ lanes => fits 8 lanes
  | .trainingTimeout _ => true
  | .capabilityWord _ _ _ _ _ _ => true
  | .dataFlit _ bytes _ => bytes.length == 256
  | .nak _ bytes _ _ => bytes.length == 256
  | .idleFlit _ bytes _ => bytes.length == 256
  | .replayTimeout _ _ => true
  | .command _ => true
  | .stagingReserved _ => true
  | .dataIn _ => true
  | .fxDoorbell _ => true
  | .fetchResend _ => true
  | .windowReg _ => true
  | .windowRelease _ => true
  | .windowReleaseAck _ => true
  | .mgmt _ => true
  | .finxisReset _ _ => true
  | .loadStore _ _ _ _ imm size _ len => imm12 imm && oneOf [1, 2, 4, 8] size && oneOf [2, 4] len
  | .amo _ _ _ _ _ size => oneOf [4, 8] size
  | .lr _ _ _ size => oneOf [4, 8] size
  | .sc _ _ _ _ size => oneOf [4, 8] size
  | .fence _ pred succ => fits 4 pred && fits 4 succ
  | .fenceI _ => true
  | .cboZero _ _ => true
  | .cboClean _ _ => true
  | .cboFlush _ _ => true
  | .cboInval _ _ => true
  | .prefetchR _ _ imm => imm12 imm
  | .prefetchW _ _ imm => imm12 imm
  | .prefetchI _ _ imm => imm12 imm
  | .wfi _ => true
  | .wfiWake _ => true
  | .wrsSto _ => true
  | .mtimecmpMatch _ => true
  | .msi who _ eiid => identOk who && fits 11 eiid
  | .hswGate _ _ => true
  | .hswRet _ => true
  | .hscClean _ _ _ => true
  | .hscFlush _ _ _ => true
  | .hscTflush _ _ _ => true
  | .hscGtflush _ _ _ => true
  | .sfenceVma _ _ _ => true
  | .hfenceVvma _ _ _ => true
  | .hfenceGvma _ _ _ => true
  | .sinvalVma _ _ _ => true
  | .hinvalVvma _ _ _ => true
  | .hinvalGvma _ _ _ => true
  | .sfenceWInval _ => true
  | .sfenceInvalIr _ => true
  | .satpWrite _ _ _ => true
  | .mhpmeventWrite _ k _ => (decide (3 ≤ k) && decide (k ≤ 31))
  | .unimplementedInstruction _ bits => fits 32 bits
  | .haltRequest _ => true
  | .systemBusAccess pa size write => fits 52 pa && oneOf [4, 8] size && write.all (fits 64)
  | .event k => (decide (1 ≤ k) && decide (k ≤ 512))
  | .aplicClaim _ k => (decide (1 ≤ k) && decide (k ≤ 512))
  | .sourcecfgWrite who _ k val => identOk who && (decide (1 ≤ k) && decide (k ≤ 512)) && fits 32 val
  | .pmcWatchdogTimeout => true
  | .mailboxSubmit who _ len => identOk who && fits 13 len
  | .getInfo _ msg => msg.all (fun q => decide (q.length ≤ 4096))
  | .readSensors _ msg => msg.all (fun q => decide (q.length ≤ 4096))
  | .readRails _ msg rails => msg.all (fun q => decide (q.length ≤ 4096)) && rails.length == 19
  | .setLimits _ msg => msg.all (fun q => decide (q.length ≤ 4096))
  | .tripClear _ msg => msg.all (fun q => decide (q.length ≤ 4096))
  | .modeOrder _ msg => msg.all (fun q => decide (q.length ≤ 4096))
  | .powerReq _ msg => msg.all (fun q => decide (q.length ≤ 4096))
  | .reset _ msg _ => msg.all (fun q => decide (q.length ≤ 4096))
  | .logRead _ msg => msg.all (fun q => decide (q.length ≤ 4096))
  | .logClear _ msg => msg.all (fun q => decide (q.length ≤ 4096))
  | .optionRead _ msg => msg.all (fun q => decide (q.length ≤ 4096))
  | .optionWrite _ msg => msg.all (fun q => decide (q.length ≤ 4096))
  | .fwBegin _ msg => msg.all (fun q => decide (q.length ≤ 4096))
  | .fwData _ msg _ => msg.all (fun q => decide (q.length ≤ 4096))
  | .fwVerifyDone _ => true
  | .fwReceiveTimeout _ => true
  | .fwCommit _ msg => msg.all (fun q => decide (q.length ≤ 4096))
  | .fwRollback _ msg => msg.all (fun q => decide (q.length ≤ 4096))
  | .fwStatus _ msg => msg.all (fun q => decide (q.length ≤ 4096))
  | .debugSet _ msg => msg.all (fun q => decide (q.length ≤ 4096))
  | .pmcRestart => true
  | .pmonClear who => identOk who
  | .pmonFreeze who _ => identOk who
  | .standbyRailsGood => true
  | .standbyRailLoss _ => true
  | .pcieLinkUp _ rate _ _ => oneOf [2, 5, 8, 16, 32, 64] rate
  | .pcieCompletionTimeout _ => true
  | .wfiRetentionEntry _ => true
  | .wrsStoTimeout _ => true
  | .stimecmpMatch _ _ => true
  | .csrWrite _ csr _ => fits 12 csr
  | .ecall _ => true
  | .mret _ => true
  | .debugResume _ _ => true
  | .dmactiveClear => true
  | .dynamicAddressAssignment _ => true

end Sys2Proof
end

