-- ==== Sys2Proof/Safety.lean ====
section
/-! DEFINITION. What counts as a safe run: every command that waits is served, and none ends in a fault or a refusal. -/

namespace Sys2Proof

/-- Every waiting command is well formed. -/
def Machine.State.queueOk (s : Machine.State) : Bool := s.pending.all Instr.wellFormed

/-- The three memories are in canonical form: addresses strictly rising, and no byte listed that equals what an unlisted
address reads as. -/
def Machine.State.memoryWf (s : Machine.State) : Bool :=
  Machine.Tab.wf 0 s.mem && Machine.Tab.wf 0 s.mram && Machine.Tab.wf Machine.erased s.flash

/-- The machine makes `k` steps from a state without a fault or a refusal. -/
def SafeRun (k : Nat) (s : Machine.State) : Prop := ∃ t, Host.Core.run core k s = .next t

/-- A command runs on a state to a next state of which `P` holds. -/
def Completes (c : Instr) (s : Machine.State) (P : Machine.State → Prop) : Prop :=
  ∃ t, Machine.exec c s = .next t ∧ P t

/-- Whether a wake is due once an enabled wake source has fired: where one was, and where the package is in NIGHT or MIDNIGHT or on
its way there. -/
abbrev Machine.State.wakeAsked (s : Machine.State) : Bool :=
  s.pkg.wakeHeld || s.rd Machine.Reg.PKG_MODE Machine.F.PKG_MODE_TARGET == Machine.MD.night ||
    s.rd Machine.Reg.PKG_MODE Machine.F.PKG_MODE_TARGET == Machine.MD.midnight

/-- The truth of a BOOL cell: TRUE, FALSE, or `none` for UNKNOWN. -/
abbrev Machine.Cell.truth (c : Machine.Cell) : Option Bool := if c.ok then some (c.v % 256 != 0) else none

/-- No line of the column buffer or aggregation cache of slice `n` has an error, and none is about to get one. -/
abbrev Machine.State.cbSound (s : Machine.State) (n : Nat) : Prop :=
  (s.slice n).bad = [] ∧ s.on (Machine.Reg.SLC_CBFLIP n) Machine.F.SLC_CBFLIP_ARM = false

/-- The task on slice `n` stands before the row operator or sink `c.o`, of a code, with a batch; nothing keeps it from
going on: no stall, no error, no rewriting of the column buffer, no probe or fetch under way, no damaged line and no armed
flip. -/
abbrev Machine.State.standsAt (s : Machine.State) (n opc : Nat) (x : Machine.Task) (b : Machine.Batch) (c : Machine.OpCtx) : Prop :=
  (s.slice n).task = some x ∧ s.cbSound n ∧ s.taskGoes n x = true ∧ x.batch = some b ∧ x.probes = [] ∧
    x.fetching = false ∧ x.tagged = false ∧ s.opCtx x = some c ∧ c.o.opc = opc

/-- The task on slice `n`, no batch in its operators and none waiting, may act for the input operator `c.o`, of a code, of
its pipeline; nothing keeps it from going on. -/
abbrev Machine.State.inputsAt (s : Machine.State) (n opc : Nat) (x : Machine.Task) (c : Machine.OpCtx) : Prop :=
  (s.slice n).task = some x ∧ s.cbSound n ∧ s.taskGoes n x = true ∧ x.batch = none ∧ x.probes = [] ∧
    x.queue = Machine.Batch.empty ∧ x.ending = false ∧ s.opCtx { x with oper := 0 } = some c ∧ c.o.opc = opc

/-- Selected rows of a batch whose keys are all valid. -/
abbrev Machine.OpCtx.keyed (c : Machine.OpCtx) (b : Machine.Batch) : List Nat :=
  b.selected.filter (fun i => (Machine.keyCells b c.keys i).all Prod.fst)

/-- What BUILD inserts for a row: its hash, keys and payloads. -/
abbrev Machine.OpCtx.built (c : Machine.OpCtx) (b : Machine.Batch) (i : Nat) : Machine.AggEnt :=
  ⟨Machine.hashAt c b i, Machine.keyCells b c.keys i,
    ((c.m.regList c.o.a2 c.o.a3).map Prod.fst).map (fun r => ⟨(b.cell r i).ok, (b.cell r i).v, 0⟩)⟩

/-- What PROBE looks for, for a row. -/
abbrev Machine.OpCtx.sought (c : Machine.OpCtx) (b : Machine.Batch) (i : Nat) : Machine.AggEnt :=
  ⟨Machine.hashAt c b i, Machine.keyCells b c.keys i, []⟩

/-- The partial AGG_LOCAL and AGG_HOME make of a row. -/
abbrev Machine.OpCtx.part (c : Machine.OpCtx) (b : Machine.Batch) (i : Nat) : Machine.AggEnt :=
  Machine.rowPartial c (Machine.tDeclOf (c.m.decl c.o.a4)) b i

/-- The bucket operations in flight: number, kind, entry, where each stands, and batch position. -/
abbrev Machine.State.bopList (s : Machine.State) : List (Nat × Machine.BKind × Machine.AggEnt × Machine.BAt × Nat) :=
  s.eng.bops.map (fun q => (q.id, q.kind, q.ent, q.st, q.pos))

/-- The operations of a kind for rows `l`, with entries and batch positions, numbered on from the next number. -/
abbrev Machine.State.newBops (s : Machine.State) (k : Machine.BKind) (l : List Nat) (f : Nat → Machine.AggEnt) (g : Nat → Nat) :
    List (Nat × Machine.BKind × Machine.AggEnt × Machine.BAt × Nat) :=
  l.zipIdx.map (fun y => (s.eng.opn + y.2, k, f y.1, .line 0, g y.1))

/-- The records of the run SORT_RUN writes of a batch, in order of key and row number. -/
abbrev Machine.OpCtx.runRecs (c : Machine.OpCtx) (b : Machine.Batch) : List (List Byte) :=
  (Machine.sortBy (fun y => y.1) (b.selected.map (fun i =>
    ((Machine.sortKeyOf c (c.m.sortList c.o.a0 c.o.a1) b i, b.rn i),
      ((c.m.regList c.o.a2 c.o.a3).map Prod.fst).map (fun r => b.cell r i))))).map
    (fun y => Machine.runRecord (Machine.rDeclOf (c.m.decl c.o.a4)) y.1.1 y.1.2 y.2)

/-- The entry of the TLB of slice `n` for page `p` of a column. -/
abbrev Machine.State.pageEte (s : Machine.State) (n : Nat) (x : Machine.Task) (d : Machine.ColD) (p : Nat) : Option Machine.ETE :=
  Machine.findEte (s.slice n).tlb (s.tset x.ctx) ((d.base + 65536 * p) / 65536)

/-- The pages a driving scan asks for, by column position, and whether its slice may read each. -/
abbrev Machine.OpCtx.scanPages (c : Machine.OpCtx) (x : Machine.Task) : List (Nat × Machine.ColD × Nat) :=
  (List.range c.ncols).flatMap (fun k => match c.col k with
    | some d => (x.pagesOf c k).map (fun p => (k, d, p))
    | none => [])

/-- Whether a selected row of a batch lies below the rows of a column of a fetch scan. -/
abbrev Machine.OpCtx.fetches (c : Machine.OpCtx) (b : Machine.Batch) : Bool :=
  b.selected.any (fun i => (List.range c.ncols).any (fun k => (c.col k).any (fun d => decide (b.rn i < d.rows))))

/-- The messages a slice has received, those moved to spill first, with the rows RECV takes of each. -/
abbrev Machine.State.recvPlan (s : Machine.State) (n : Nat) (x : Machine.Task) (c : Machine.OpCtx) : List (Machine.RMsg × Nat) :=
  let l := (s.slice n).rbuf.filter (fun m => m.spill.isSome) ++ (s.slice n).rbuf.filter (fun m => m.spill.isNone)
  l.zip (Machine.takePlan x.ring x.seq c.o.a2 1024 l)

/-- A descriptor of a code is fetched, well formed and ready, and its work has not begun. -/
abbrev Machine.State.mayBegin (s : Machine.State) (ring seq opc : Nat) (d : Machine.Desc) : Prop :=
  s.desc ring seq = some d ∧ d.opc = opc ∧ d.ready = true ∧ d.begun = false ∧ d.done = false ∧ d.fail = none ∧
    Machine.descFault d.bytes (s.ringPort ring).isSome = none

/-- The work of a descriptor of a code has begun and not ended. -/
abbrev Machine.State.atWork (s : Machine.State) (ring seq opc : Nat) (d : Machine.Desc) : Prop :=
  s.desc ring seq = some d ∧ d.opc = opc ∧ d.begun = true ∧ d.done = false ∧ d.fail = none

/-- A data-mover channel runs a program and comes to instruction `i`, which it reads undamaged; `u` is the state after
that read. No bad status of this program run stands at the instruction. -/
abbrev Machine.State.channelAt (s : Machine.State) (n : Nat) (i : Machine.DmIns) (u : Machine.State) : Prop :=
  s.chanGoes n = true ∧ (s.chan n).badAt.contains (s.chan n).pc = false ∧ (s.readPa (s.chanWho n) (s.chan n).pa 16).1.res = .ok ∧
    (s.readPa (s.chanWho n) (s.chan n).pa 16).1.poison = false ∧
    Machine.dmInsOf (s.readPa (s.chanWho n) (s.chan n).pa 16).1.bytes = i ∧ (s.readPa (s.chanWho n) (s.chan n).pa 16).2 = u

/-- The write of a status byte into the instruction of a channel. -/
abbrev Machine.State.statusWrite (s : Machine.State) (n code : Nat) : Machine.AccRes × Machine.State :=
  s.writePa (s.chanWho n) ((s.chan n).pa + 14) [BitVec.ofNat 8 code]

/-- A data-mover channel is at an instruction of a program, at which no bad status of this run stands, and the write of a status
byte there succeeds. -/
abbrev Machine.State.mayEnd (s : Machine.State) (n code : Nat) : Prop :=
  (s.chan n).prog.isSome = true ∧ (s.chan n).badAt.contains (s.chan n).pc = false ∧ (s.statusWrite n code).1 = .ok

/-- After the status byte of a code is written into the instruction of a channel of state `s`, the channel of state `t` is at the
next instruction, with memory as that write left it. -/
abbrev Machine.State.ended (s : Machine.State) (n code : Nat) (t : Machine.State) : Prop :=
  t.mem = (s.statusWrite n code).2.mem ∧ (t.chan n).pc = (s.chan n).pc + 1 ∧ (t.chan n).work = .none

/-- `s` with an open column in channel `n`, or none. -/
abbrev Machine.State.withEnc (s : Machine.State) (n : Nat) (e : Option Machine.EncCol) : Machine.State :=
  s.setChan n { s.chan n with enc := e }

/-- `m` is the first message in flight of a kind about a line, from or to an agent, and none that must be delivered before it
is ahead of it. -/
abbrev Machine.State.comes (s : Machine.State) (k : Machine.MKind) (a ln : Nat) (m : Machine.Msg) : Prop :=
  s.arriving (fun _ => false) (fun m => m.kind == k && m.agent == a && m.ln == ln) = some m

/-- The same of a snoop to a caching agent, which holds none back of that home. -/
abbrev Machine.State.comesSnp (s : Machine.State) (k : SnpKind) (a ln : Nat) (m : Machine.Msg) : Prop :=
  s.arriving (fun _ => false) (fun m => m.kind == .snp k && m.agent == a && m.ln == ln && !s.snpHeld a m.home) = some m

/-- The same of a grant or completion for an agent; those that wait at a cluster for the room of a fill hold none up. -/
abbrev Machine.State.comesTo (s : Machine.State) (p : Machine.MKind → Bool) (a ln : Nat) (m : Machine.Msg) : Prop :=
  s.arriving (fun x => decide (a < 36) && (s.cluster a).fillWaits x.ln) (fun m => p m.kind && m.agent == a && m.ln == ln) = some m

/-- The same of the answer to the ring manager's request of a line. -/
abbrev Machine.State.comesRmg (s : Machine.State) (ln : Nat) (m : Machine.Msg) : Prop :=
  s.arriving (fun _ => false) (fun m => m.agent == 36 && m.ln == ln && (match m.kind with
    | .datGrant _ | .rspError _ => true
    | _ => false)) = some m

/-- Home `n` is not fenced and could serve a request of a line at once: it has a tracker free, no transaction or waiting request of
the line, and no hold on it; it has neither a copy of the line nor a directory entry for it. -/
abbrev Machine.State.homeOpen (s : Machine.State) (n ln : Nat) : Prop :=
  s.homeOff n ln = false ∧ (s.home n).txns.length + (s.home n).waitq.length < 256 ∧ (s.home n).txn ln = none ∧
    (∀ y ∈ (s.home n).waitq, y.ln ≠ ln) ∧ (s.home n).held ln = false ∧ (s.home n).dirOf ln = none ∧ (s.home n).l3Find ln = none

/-- Cluster `c`, not fenced, has the request `r` of a kind for a line waiting to be sent, no eviction of the line outstanding;
the line is of memory whose firewall region grants the request, and its home `n` could serve it at once. -/
abbrev Machine.State.asks (s : Machine.State) (c : Nat) (k : Machine.ReqKind) (ln n : Nat) (r : Machine.CReq) : Prop :=
  (s.cluster c).reqs.find? (fun r => r.kind == k && r.ln == ln && !r.sent) = some r ∧ (s.cluster c).evicting ln = none ∧
    s.fenced (Machine.agentStop c) 2 = false ∧ s.homeFor (Machine.agentStop c) ln = n ∧ s.homeOpen n ln ∧
    s.isMem (128 * ln) = true ∧ s.fwGrants r.who (128 * ln) k.isWrite = true

/-- The requests of cluster `c` with `r` marked as accepted by its home. -/
abbrev Machine.State.reqsSent (s : Machine.State) (c : Nat) (r : Machine.CReq) : List Machine.CReq :=
  (s.cluster c).reqs.map (fun x => if x == r then { x with sent := true } else x)

/-- A non-caching agent of stop `a`, not fenced, may ask for a line of memory, whose home `n` could serve it at once and whose
firewall region grants the access. -/
abbrev Machine.State.asksNc (s : Machine.State) (a : Nat) (who : Ident) (ln n : Nat) (write : Bool) : Prop :=
  s.sendersOff a = false ∧ s.homeFor a ln = n ∧ s.homeOpen n ln ∧ s.isMem (128 * ln) = true ∧
    s.fwGrants who (128 * ln) write = true

/-- `x` is in service on a line at home `n`, which is not fenced, and awaits the snoop answer of agent `a` and of another; nothing of
an eviction by `a` has overtaken it. -/
abbrev Machine.State.awaits (s : Machine.State) (n a ln : Nat) (x : Machine.HTxn) : Prop :=
  s.fenced n 0 = false ∧ (s.home n).txn ln = some x ∧ x.await.contains a = true ∧ x.await.erase a ≠ [] ∧
    x.half.contains a = false ∧ x.gone.contains a = false

/-- Line `ln` lies in DRAM, its bytes are undamaged, nothing of it is cached, queued or in flight, and the firewall lets an
identity read or write it. -/
abbrev Machine.State.plainLine (s : Machine.State) (who : Ident) (ln : Nat) (write : Bool) : Prop :=
  s.paKind (128 * ln) = .dram ∧ s.fwGrants who (128 * ln) write = true ∧ s.lineDmg ln = [] ∧ s.wq = [] ∧ s.net = [] ∧
    s.homes = [] ∧ s.clusters = []

/-- The oldest packet of its lane that a Finxis port has received is `k`, of a type; no COMMAND that waits for staging
holds its lane. -/
abbrev Machine.State.fxNext (s : Machine.State) (p type : Nat) (k : Machine.FxPkt) : Prop :=
  (s.port p).rx.find? (fun k => Machine.fxVl k.type == Machine.fxVl type) = some k ∧ k.type = type ∧
    (Machine.fxVl type ≠ 0 ∨ (s.port p).waiting = none)

/-- A Finxis port is ACTIVE in a mode that carries every lane, with nothing waiting to be sent or replayed and no credit to
return, and credits and its rate limiter let one flit of a lane pass. -/
abbrev Machine.State.fxClear (s : Machine.State) (p vl : Nat) : Prop :=
  s.fxState p = 5 ∧ s.fxQuiet = false ∧ (s.port p).txq = [] ∧ (s.port p).replay = [] ∧ (s.port p).ret = [] ∧
    (s.port p).unack.length < 512 ∧ 1 ≤ Machine.Tab.get 0 (s.port p).credits vl ∧ (s.port p).passes vl = true

/-- What the package has sent, codewords apart. -/
abbrev Machine.State.sent (s : Machine.State) : List Machine.OutMsg :=
  s.out.filter (fun m => match m with
    | .codeword _ _ => false
    | _ => true)

/-- The flits a port sends of its unacknowledged packets when it sends them again with no credit to return. -/
abbrev Machine.FxPort.resent (x : Machine.FxPort) (p : Nat) : List Machine.OutMsg :=
  x.unack.map (fun f => .flit p (Machine.flitBytes f.1 ((x.rseq + 1023) % 1024) f.2.vl 0 0 0 f.2.bytes))

/-- Bits of a flit's header. -/
abbrev Machine.flitHead (b : List Byte) (hi lo : Nat) : Nat := Machine.bitsOf (Machine.leAt b 0 4) hi lo

/-- The flit that carries a packet of one flit, sent next, with a count of credits returned for a lane. -/
abbrev Machine.State.fxFlit (s : Machine.State) (p : Nat) (k : Machine.FxPkt) (cv cn : Nat) : Machine.OutMsg :=
  .flit p (Machine.flitBytes (s.port p).nseq (((s.port p).rseq + 1023) % 1024) (Machine.fxVl k.type) 0 cv cn k.bytes)

/-- The end of an instruction of a hart adds nothing: it samples nothing, is not stepped, and no icount trigger counts. -/
abbrev Machine.Hart.quiet (x : Machine.Hart) : Prop :=
  x.cb Machine.Csr.mhssample 63 63 = 0 ∧ x.cb Machine.Csr.dcsr 2 2 = 0 ∧ x.icounted = x

/-- Hart `h` is `x` and may execute its next instruction, its cluster not gated; no halt request is pending, no trigger is to fire
before the instruction, and its end adds nothing. -/
abbrev Machine.State.plainHart (s : Machine.State) (h : Nat) (x : Machine.Hart) : Prop :=
  s.hart h = x ∧ x.ready = true ∧ s.hartGated h = false ∧ x.haltReq = false ∧ x.icountDue = none ∧
    x.accTrig 2 x.pc.toNat = none ∧ x.quiet

/-- No snoop waits at the cluster of a hart that has a reservation. -/
abbrev Machine.State.noneHeld (s : Machine.State) (h : Nat) (x : Machine.Hart) : Prop :=
  x.resv = none ∨ (s.cluster (Machine.hartCluster h)).held = []

/-- An exception of `x`, hart `h`, goes to M-mode, and no trigger watches for it. -/
abbrev Machine.State.goesToM (s : Machine.State) (h : Nat) (x : Machine.Hart) (cause : Nat) : Prop :=
  (x.mode = .m ∨ Machine.bitAt (x.rc Machine.Csr.medeleg).toNat cause = false) ∧ x.excTrig cause = none ∧ s.noneHeld h x

/-- Hart `y` is `x` after an exception that M-mode takes: pc, cause, value, mode, V and interrupt enable are saved, interrupts and
M-mode breakpoints are off, the pc is at the vector, no reservation is held, and the registers are as they were. -/
abbrev Machine.Hart.tookM (x y : Machine.Hart) (cause : Nat) (tval : Nat) : Prop :=
  y.mode = .m ∧ y.v = false ∧ y.pc = Machine.vecPc (x.rc Machine.Csr.mtvec) ∧ y.rc Machine.Csr.mepc = x.pc ∧
    y.rc Machine.Csr.mcause = BitVec.ofNat 64 cause ∧ y.rc Machine.Csr.mtval = BitVec.ofNat 64 tval ∧
    y.rc Machine.Csr.mtinst = 0 ∧ y.cb Machine.Csr.mstatus 12 11 = x.mode.code ∧
    y.cb Machine.Csr.mstatus 39 39 = Machine.b2n x.v ∧ y.cb Machine.Csr.mstatus 7 7 = x.cb Machine.Csr.mstatus 3 3 ∧
    y.cb Machine.Csr.mstatus 3 3 = 0 ∧ y.cb Machine.Csr.tcontrol 3 3 = 0 ∧ y.resv = none ∧ y.x = x.x ∧ y.f = x.f ∧ y.vr = x.vr

/-- No trigger of hart `x` watches for a load or a store of an address. -/
abbrev Machine.Hart.unwatched (x : Machine.Hart) (k : Machine.AKind) (va : Nat) : Prop :=
  x.accTrig (if k = .store then 1 else 0) va = none

/-- Translation of an access of a hart gives a physical address in cacheable memory, with nothing walked; no trigger watches for
it. -/
abbrev Machine.State.reaches (s : Machine.State) (h : Nat) (k : Machine.AKind) (va pa : Nat) : Prop :=
  (s.locate h k va).1.toOption = some ⟨pa, 0⟩ ∧ (s.locate h k va).2 = s ∧ s.attr ⟨pa, 0⟩ = .cached ∧ (s.hart h).unwatched k va

/-- The cluster of hart `h` holds line `ln` as `l` at L2 place `k`, granted under the hart's identity, undamaged and in the
hart's L1D; nothing waits or is held in the cluster, and the line is not being evicted. -/
abbrev Machine.State.hits (s : Machine.State) (h ln k : Nat) (l : Machine.L2Line) : Prop :=
  (s.cluster (Machine.hartCluster h)).find ln = some (k, l) ∧ (s.cluster (Machine.hartCluster h)).evicting ln = none ∧
    (s.cluster (Machine.hartCluster h)).waits = [] ∧ (s.cluster (Machine.hartCluster h)).held = [] ∧
    l.who = (s.hart h).ident ∧ l.data.poison = false ∧
    (s.cluster (Machine.hartCluster h)).l1Has (h % 6) ln = true

/-- The cluster of hart `h` has nothing of line `ln`: no copy, no eviction, no request and no access waiting; its two
prefetchers are off. -/
abbrev Machine.State.misses (s : Machine.State) (h ln : Nat) : Prop :=
  (s.cluster (Machine.hartCluster h)).find ln = none ∧ (s.cluster (Machine.hartCluster h)).evicting ln = none ∧
    (s.cluster (Machine.hartCluster h)).waits = [] ∧ (s.cluster (Machine.hartCluster h)).reqs = [] ∧
    (s.hart h).cb Machine.Csr.mhspf 0 0 = 0 ∧ (s.hart h).cb Machine.Csr.mhspf 1 1 = 0

/-- BOOT_AUTHENTICATION succeeds (20 R492, R495, 17 R429): the PMC image in the active slot passes its check, and so does the
monitor image, whose body fits a region at MON_BASE that the options allow; on the way out of MIDNIGHT the body in DRAM has
the digest recorded instead. -/
def Machine.State.bootOk (s : Machine.State) : Bool :=
  let ps := s.activeSlot 1
  let u := (s.logFw7 1 ps 0 6).putInForce 1 ps
  let ms := u.activeSlot 2
  let v := u.logFw7 2 ms 0 6
  decide (s.imgCheck 1 ps = 0) &&
    (if u.pkg.midWake then Config.sha384 (u.memBytes u.resetVector (u.imgBody 2 ms).length) == u.mramAt 0x1018 48
     else decide (u.imgCheck 2 ms = 0) && v.regionOk v.resetVector (Machine.le8 v.coldOpt 40))

/-- The PMC runs and holds, for a source, the request `q` of a command with payload `b`, which the source may send, the mode
accepts and whose header and length are right; no order of the source is under way. -/
abbrev Machine.State.mgmtServes (s : Machine.State) (src : MgmtSrc) (cmd : Nat) (q b : List Byte) : Prop :=
  Machine.Tab.look s.pmc.req (Machine.mgmtNum src) = some q ∧ q.drop 16 = b ∧ s.pmcRuns = true ∧ Machine.leAt q 0 1 = cmd ∧
    s.orderHeld (Machine.mgmtNum src) = false ∧ Machine.mgmtMay cmd src = true ∧ s.mgmtNotInMode cmd b = false ∧
    Machine.mgmtShape cmd q = true

/-- `e` is one of the 18 management commands of a source, with its code (20 *Management commands*). -/
def mgmtCommand (src : MgmtSrc) (m : Option (List Byte)) (rails : List (Nat × Nat)) (flag : Bool) (e : Nat × Instr) : Prop :=
  e ∈ [(0x01, Instr.getInfo src m), (0x02, .readSensors src m), (0x03, .readRails src m rails), (0x04, .setLimits src m),
       (0x05, .tripClear src m), (0x10, .modeOrder src m), (0x11, .powerReq src m), (0x12, .reset src m flag),
       (0x20, .logRead src m), (0x21, .logClear src m), (0x30, .optionRead src m), (0x31, .optionWrite src m),
       (0x40, .fwBegin src m), (0x41, .fwData src m flag), (0x42, .fwCommit src m), (0x43, .fwRollback src m),
       (0x44, .fwStatus src m), (0x50, .debugSet src m)]

end Sys2Proof
end

