-- ==== Sys2Proof/Certificates/Slice0/Obligations.lean ====
section
/-! DEFINITION. The statements for the provers. Each docstring says what the statement claims; the rules it rests on are
listed with it in OBLIGATIONS.json. -/

section
open Sys2Proof Sys2Proof.Machine

/-- For every state, command and list of commands, a step of the state with the command in front of the list waiting
answers what exec answers for that command on the state with the list waiting. On a state on which no command waits a
flit slot of the four Finxis ports passes: a step answers next of the state after it (the model's choice, log entry 1). -/
def Obligations.StepRunsTheFrontCommand : Prop :=
  (∀ (s : State) (c : Instr) (rest : List Instr),
      step { s with pending := c :: rest } = exec c { s with pending := rest }) ∧
  (∀ s : State, s.pending = [] → step s = .next s.flitSlot)

/-- For every command and state, exec answers a next state; and for every state, step answers a next state. (What the
spec calls an error, a refusal or a failed completion is a next state that records it.) -/
def Obligations.EveryStepAnswersNext : Prop :=
  (∀ (c : Instr) (s : State), ∃ t, exec c s = .next t) ∧ (∀ s : State, ∃ t, step s = .next t)

/-- For every command c and states s and t with exec c s answering next t, each part of the state (the queue, the
flash, memory, the registers, the harts, the caches, the engine and so on: the fields of State) that is not on the
list Instr.parts gives for c is the same in t as in s. -/
def Obligations.CommandsKeepOtherParts : Prop :=
  ∀ (c : Instr) (s t : State), exec c s = .next t → SameBut (Instr.parts c) s t

/-- For every state s with step s answering next t, the queue of t is the tail of the queue of s, whatever the command
did; and where every command waiting in s is well formed, every command waiting in t is. -/
def Obligations.QueueInvariant : Prop :=
  ∀ s t : State, step s = .next t → t.pending = s.pending.tail ∧ (s.queueOk = true → t.queueOk = true)

/-- For every state in which the tables of memory bytes, of MRAM bytes and of flash bytes are canonical (addresses
strictly rising, no byte listed that equals what an unlisted address reads as: 0x00 in memory and MRAM, 0xFF in
flash), the state a step answers has all three canonical. (What an unlisted byte reads as is the model's choice, log
entries 6 and 27.) -/
def Obligations.MemoryInvariant : Prop :=
  ∀ s t : State, s.memoryWf = true → step s = .next t → t.memoryWf = true

/-- In the state after reset no command waits, every waiting command is well formed, the three memory tables are
canonical, and every register of the window holds the reset value of its table, since none is listed with another. On
no line does a ring pair or a data-mover channel look for its doorbell. -/
def Obligations.ResetMeetsInvariants : Prop :=
  State.reset.pending = [] ∧ State.reset.queueOk = true ∧ State.reset.memoryWf = true ∧ State.reset.regs = [] ∧
    (∀ o, State.reset.rdW o = resetWord o) ∧ (∀ ln, State.reset.ringsOn ln = [] ∧ State.reset.chansOn ln = [])

/-- For every command c and states s and t with exec c s answering next t: if the flash of t differs from that of s,
then c is an FW_DATA; and if the cold-latched option record of t differs from that of s, then c is OPTION_LOAD_DONE.
-/
def Obligations.FlashAndOptionsHeld : Prop :=
  ∀ (c : Instr) (s t : State), exec c s = .next t →
    (t.flash ≠ s.flash → ∃ src msg b, c = .fwData src msg b) ∧ (t.coldOpt ≠ s.coldOpt → c = .optionLoadDone)

/-- For every state, address and list of bytes, after the bytes are stored from that address every byte of package
memory within the run reads as the byte of the list at its place, and every other byte reads as before; the same holds
of MRAM. -/
def Obligations.MemoryReadsBack : Prop :=
  (∀ (s : State) (pa : Nat) (l : List Byte) (a : Nat),
      (s.setBytes pa l).memB a = if h : pa ≤ a ∧ a - pa < l.length then l[a - pa]'h.2 else s.memB a) ∧
  (∀ (s : State) (off : Nat) (l : List Byte) (a : Nat),
      Tab.get 0 (s.setMram off l).mram a = if h : off ≤ a ∧ a - off < l.length then l[a - off]'h.2 else Tab.get 0 s.mram a)

/-- For a write to a field of at most 64 bits of a register: an RO field and an RWS field are left alone by the direct
write; a W1C field loses the bits written as 1 and keeps the others; a W1S field gains the bits written as 1; an RW
field whose new value its row accepts takes it, and an RWL field does so while the register's LOCK is 0 and is left
alone while it is 1; and every other field of that register and every field of any other register keeps its value. -/
def Obligations.RegisterFieldTypes : Prop :=
  ∀ (s : State) (o : Nat) (locked : Bool) (x : FldWrite), x.fd.fld.lo ≤ x.fd.fld.hi → x.fd.fld.hi < 64 →
    x.raw < 2 ^ (x.fd.fld.hi + 1 - x.fd.fld.lo) → x.new < 2 ^ (x.fd.fld.hi + 1 - x.fd.fld.lo) →
    (x.fd.ty = .ro ∨ x.fd.ty = .rws → s.writeField o locked x = s) ∧
    (x.fd.ty = .w1c → ∀ i, ((s.writeField o locked x).rd o x.fd.fld).testBit i =
      ((s.rd o x.fd.fld).testBit i && !x.raw.testBit i)) ∧
    (x.fd.ty = .w1s → ∀ i, ((s.writeField o locked x).rd o x.fd.fld).testBit i =
      ((s.rd o x.fd.fld).testBit i || x.raw.testBit i)) ∧
    (x.fd.ty = .rw → x.fd.okLo ≤ x.new → x.new ≤ x.fd.okHi → (s.writeField o locked x).rd o x.fd.fld = x.new) ∧
    (x.fd.ty = .rwl → locked = true → s.writeField o locked x = s) ∧
    (x.fd.ty = .rwl → locked = false → x.fd.okLo ≤ x.new → x.new ≤ x.fd.okHi →
      (s.writeField o locked x).rd o x.fd.fld = x.new) ∧
    (∀ (p : Nat) (g : Fld), (o = p → g.hi < x.fd.fld.lo ∨ x.fd.fld.hi < g.lo) →
      (s.writeField o locked x).rd p g = s.rd p g)

/-- For every column whose ratio is 1, 2, 4, 8 or 16 and whose dictionary capacity E is 0, 16, 64, 256 or 1,024 with
E·W at most 16,384: the slot size S is 1,024·W / r, from 64 to 16,384 bytes; DICT_OFF is 65,408 − align128(E·W); and
N, the number of slots per page, fits, while no greater number does. Without a dictionary N is 816, 453, 240, 123, 62,
31, 15, 7 and 3 for S of 64 to 16,384 bytes, and a page holds 1,024·N rows. The encoder's page p lies at the page base
+ 65,536·p. -/
def Obligations.PageLayoutFits : Prop :=
  (∀ c : ColD, c.ratioLog2 ≤ 4 → c.cap ∈ [0, 16, 64, 256, 1024] → c.cap * c.ty.width ≤ 16384 →
    c.slotBytes * 2 ^ c.ratioLog2 = 1024 * c.ty.width ∧ 64 ≤ c.slotBytes ∧ c.slotBytes ≤ 16384 ∧
    c.dictOff = 65408 - align128 (c.cap * c.ty.width) ∧
    128 + align128 (16 * c.slots) + c.slots * c.slotBytes ≤ c.dictOff ∧
    (∀ n, 128 + align128 (16 * n) + n * c.slotBytes ≤ c.dictOff → n ≤ c.slots) ∧
    c.rowsPerPage = 1024 * c.slots) ∧
  (∀ e : EncCol, e.pa = e.dst.base + 65536 * e.page) ∧
  (∀ c : ColD, c.ratioLog2 ≤ 4 → c.cap = 0 →
    (c.slotBytes, c.slots) ∈ [(64, 816), (128, 453), (256, 240), (512, 123), (1024, 62), (2048, 31), (4096, 15),
      (8192, 7), (16384, 3)])

/-- For every width w and list of n fields of w bits: the array takes ceil(n·w / 8) bytes; bit i (i below w) of field
j stands in bit k mod 8 of byte k div 8, for k = j·w + i; every bit of the array at n·w or above is zero; reading the
array gives the fields again; and with w = 0 the array has no byte and every field reads as 0. -/
def Obligations.PackedArraysHoldTheirFields : Prop :=
  ∀ (w : Nat) (l : List Nat), (∀ f ∈ l, f < 2 ^ w) →
    (packBits w l).length = (l.length * w + 7) / 8 ∧
    (∀ (j i : Nat) (h : j < l.length), i < w →
      ((packBits w l).getD ((j * w + i) / 8) 0).toNat.testBit ((j * w + i) % 8) = l[j].testBit i) ∧
    (∀ k, l.length * w ≤ k → ((packBits w l).getD (k / 8) 0).toNat.testBit (k % 8) = false) ∧
    unpack (packBits w l) w l.length = l ∧
    (w = 0 → packBits w l = [] ∧ ∀ n, unpack [] w n = List.replicate n 0)

/-- For every signed or unsigned integer type, every pair of valid operands with a divisor other than zero, and any
division-by-zero flag: there are a quotient q and a remainder r with dividend = q·divisor + r, r of smaller magnitude
than the divisor and either zero or of the dividend's sign; MOD gives r; and DIV gives q where the type holds it, and
else, as the overflow mode has it, an overflow error (TRAP), the greatest value (SAT) or the wrapped pattern (WRAP).
The type does not hold q only where it is signed, the dividend is its least value and the divisor is −1. For INT8, −7
/ 2 is −3 and −7 mod 2 is −1. -/
def Obligations.IntegerDivision : Prop :=
  (∀ (u v : UOp) (a b c d : Decl) (rn : Nat) (x y z : Cell), u.op = 0x23 → v.op = 0x24 → a.ty.cls = 2 ∨ a.ty.cls = 3 →
    x.ok = true → y.ok = true → a.ty.int y.v ≠ 0 → u.ovf ≤ 2 →
    ∃ q r : Int, a.ty.int x.v = q * a.ty.int y.v + r ∧ r.natAbs < (a.ty.int y.v).natAbs ∧
      (0 ≤ a.ty.int x.v → 0 ≤ r) ∧ (a.ty.int x.v ≤ 0 → r ≤ 0) ∧
      evalRow v a b c d rn x y z = .ok (Cell.of (a.ty.pat r)) ∧
      (a.ty.lo ≤ q ∧ q ≤ a.ty.hi → evalRow u a b c d rn x y z = .ok (Cell.of (a.ty.pat q))) ∧
      (¬(a.ty.lo ≤ q ∧ q ≤ a.ty.hi) →
        a.ty.cls = 2 ∧ a.ty.int x.v = a.ty.lo ∧ a.ty.int y.v = -1 ∧
        (u.ovf = 0 → evalRow u a b c d rn x y z = .error .overflow) ∧
        (u.ovf = 1 → evalRow u a b c d rn x y z = .ok (Cell.of (a.ty.pat a.ty.hi))) ∧
        (u.ovf = 2 → evalRow u a b c d rn x y z = .ok (Cell.of (a.ty.pat q))))) ∧
  (∀ (u v : UOp) (b c d : Decl) (rn : Nat) (z : Cell), u.op = 0x23 → v.op = 0x24 →
    evalRow u ⟨.i8, 0⟩ b c d rn (Cell.of (Ty.i8.pat (-7))) (Cell.of 2) z = .ok (Cell.of (Ty.i8.pat (-3))) ∧
    evalRow v ⟨.i8, 0⟩ b c d rn (Cell.of (Ty.i8.pat (-7))) (Cell.of 2) z = .ok (Cell.of (Ty.i8.pat (-1))))

/-- For every coefficient, rescaling from a scale to the same or a larger one multiplies it by the power of ten, and
rescaling to a smaller one gives a coefficient r that lies nearest to the quotient, at a tie the one farther from
zero; either value, where the type does not hold it, is an overflow error under TRAP and the nearest bound otherwise.
At scale 3 the coefficients 2,345, −2,345 and 2,344 rescale to scale 2 as 235, −235 and 234. Comparing two decimals at
scales sa and sb compares x·10^sb with y·10^sa, so 150 at scale 2 equals 15 at scale 1. -/
def Obligations.DecimalRescale : Prop :=
  (∀ (t : Ty) (ovf sa sb : Nat) (c : Int), sa ≤ sb →
    (t.lo ≤ c * 10 ^ (sb - sa) ∧ c * 10 ^ (sb - sa) ≤ t.hi → rescale t ovf sa sb c = .ok (c * 10 ^ (sb - sa))) ∧
    (¬(t.lo ≤ c * 10 ^ (sb - sa) ∧ c * 10 ^ (sb - sa) ≤ t.hi) →
      rescale t ovf sa sb c = if ovf = 0 then .error .overflow
        else .ok (if c * 10 ^ (sb - sa) < t.lo then t.lo else t.hi))) ∧
  (∀ (t : Ty) (ovf sa sb : Nat) (c : Int), sb < sa →
    ∃ r : Int, 2 * (r * 10 ^ (sa - sb) - c).natAbs ≤ 10 ^ (sa - sb) ∧
      (2 * (r * 10 ^ (sa - sb) - c).natAbs = 10 ^ (sa - sb) → c.natAbs ≤ (r * 10 ^ (sa - sb)).natAbs) ∧
      (t.lo ≤ r ∧ r ≤ t.hi → rescale t ovf sa sb c = .ok r) ∧
      (¬(t.lo ≤ r ∧ r ≤ t.hi) → rescale t ovf sa sb c = if ovf = 0 then .error .overflow
        else .ok (if r < t.lo then t.lo else t.hi))) ∧
  rescale .dec64 0 3 2 2345 = .ok 235 ∧ rescale .dec64 0 3 2 (-2345) = .ok (-235) ∧ rescale .dec64 0 3 2 2344 = .ok 234 ∧
  (∀ (t : Ty) (sa sb : Nat) (fold : Bool) (x y : Cell), t.isDec = true →
    (cmpVal t sa sb fold x y = .lt ↔ t.int x.v * 10 ^ sb < t.int y.v * 10 ^ sa) ∧
    (cmpVal t sa sb fold x y = .eq ↔ t.int x.v * 10 ^ sb = t.int y.v * 10 ^ sa)) ∧
  cmpVal .dec64 2 1 false (Cell.of 150) (Cell.of 15) = .eq

/-- REGISTER_WRITE of the width and alignment 00 R7 gives, at an offset of a listed block that the identity reaches and of no
register with a staged field, answers OK; one of another width or alignment, or outside the listed blocks, only answers an
error; one in a listed block that the identity does not reach answers an error and records a violation of KIND 1 with its
identity and address. A 64-bit write of a backup register by an identity that reaches it stores the value, a 32-bit write
stores that half and keeps the other, and neither changes another register. An RWS_WRITE of ISO_PART_WORLD by the monitor
leaves its active value: with the CTU idle it forms an implicit transaction of the bits written with their mask, and with
world S's transaction open, not full, and that register not staged in it, the bits are staged there. BOOT_GOOD by the monitor
makes COUNT of PKG_BOOT and its copy in MRAM zero, and by another identity changes neither. WATCHDOG_KICK by an identity that
reaches RCC_WDOG clears the half-timeout note and leaves EN and TIMEOUT as they were. STAT_CLEAR by the monitor, no partition
sealed, zeroes IPKT, IFLIT and ILAT of the stop for every source, and no such counter of another stop. PMON_CLEAR by an
identity that reaches PMON_CTRL zeroes the unit counters of stops, memory channels, PCIe ports, engine slices and Finxis
ports, not the counts of IPKT; PMON_FREEZE makes FREEZE its operand. SOURCECFG_WRITE, in an APLIC that its identity reaches,
of a source implemented there: Edge1 (4) of an edge source and Level1 (6) of a level source becomes its mode, and a level
source that was Inactive and whose condition holds becomes pending (said where delivery or the source is disabled, so that no
MSI goes out); any other mode makes it Inactive. MAILBOX_SUBMIT by an identity that reaches the set, the PMC running, the set
not busy and no request of it held, makes STATE busy and holds as the request the first LENGTH bytes of the buffer, whose
CODE is known. -/
def Obligations.RegisterWritesComplete : Prop :=
  (∀ (s : State) (who : Ident) (off size val : Nat) (user : Bool), regAligned off size = true → regCovered off = true → s.regReach who off true user = true → hasStaged off = false →
      Completes (.registerWrite who off size val user) s (fun t => t.resp = .ok 0)) ∧
  (∀ (s : State) (who : Ident) (off size val : Nat) (user : Bool), regAligned off size = false ∨ regCovered off = false →
      Completes (.registerWrite who off size val user) s (fun t => t = { s with resp := .error })) ∧
  (∀ (s : State) (who : Ident) (off size val : Nat) (user : Bool), regAligned off size = true → regCovered off = true → s.regReach who off true user = false → s.on Reg.ISO_VIOL F.ISO_VIOL_VALID = false →
      Completes (.registerWrite who off size val user) s (fun t =>
        t.resp = .error ∧ t.on Reg.ISO_VIOL F.ISO_VIOL_VALID = true ∧ t.rd Reg.ISO_VIOL F.ISO_VIOL_KIND = 1 ∧
         t.rd Reg.ISO_VIOL F.ISO_VIOL_WORLD = worldBit who.world ∧ t.rd Reg.ISO_VIOL F.ISO_VIOL_PID = who.pid % 64 ∧
         t.rd Reg.ISO_VIOL F.ISO_VIOL_ADDR = (windowBase + off) / 8 ∧ ∀ o, o ≠ Reg.ISO_VIOL → t.rdW o = s.rdW o)) ∧
  (∀ (s : State) (who : Ident) (k : Fin 16) (val : Nat) (user : Bool), s.regReach who (Reg.RCC_BKP k) true user = true →
      Completes (.registerWrite who (Reg.RCC_BKP k) 8 val user) s (fun t =>
        t.rdW (Reg.RCC_BKP k) = BitVec.ofNat 64 val ∧ t.resp = .ok 0 ∧ ∀ o, o ≠ Reg.RCC_BKP k → t.rdW o = s.rdW o)) ∧
  (∀ (s : State) (who : Ident) (k : Fin 16) (val : Nat) (user : Bool), s.regReach who (Reg.RCC_BKP k) true user = true →
      Completes (.registerWrite who (Reg.RCC_BKP k) 4 val user) s (fun t =>
        (t.rdW (Reg.RCC_BKP k)).toNat = (s.rdW (Reg.RCC_BKP k)).toNat / 2 ^ 32 * 2 ^ 32 + val % 2 ^ 32 ∧
         t.resp = .ok 0 ∧ ∀ o, o ≠ Reg.RCC_BKP k → t.rdW o = s.rdW o)) ∧
  (∀ (s : State) (who : Ident) (k : Fin 16) (val : Nat) (user : Bool), s.regReach who (Reg.RCC_BKP k + 4) true user = true →
      Completes (.registerWrite who (Reg.RCC_BKP k + 4) 4 val user) s (fun t =>
        (t.rdW (Reg.RCC_BKP k)).toNat = (s.rdW (Reg.RCC_BKP k)).toNat % 2 ^ 32 + val % 2 ^ 32 * 2 ^ 32 ∧
         t.resp = .ok 0 ∧ ∀ o, o ≠ Reg.RCC_BKP k → t.rdW o = s.rdW o)) ∧
  (∀ (s : State) (val : Nat), s.ctu = Ctu.reset →
      Completes (.rwsWrite monitor Reg.ISO_PART_WORLD 8 val) s (fun t =>
        t.rdW Reg.ISO_PART_WORLD = s.rdW Reg.ISO_PART_WORLD ∧ t.resp = .ok 0 ∧
         t.ctu.active = some ⟨.s, 0, true, [(Reg.ISO_PART_WORLD, (val % 2 ^ 64 - val % 2, 2 ^ 64 - 2))], false⟩)) ∧
  (∀ (s : State) (val : Nat) (x : Txn), s.ctu.openOf .s = some x → x.full = false → Tab.look x.staged Reg.ISO_PART_WORLD = none → x.staged.length < 4096 →
      Completes (.rwsWrite monitor Reg.ISO_PART_WORLD 8 val) s (fun t =>
        t.rdW Reg.ISO_PART_WORLD = s.rdW Reg.ISO_PART_WORLD ∧ t.resp = .ok 0 ∧
         t.ctu.openOf .s = some { x with staged := Tab.ins x.staged Reg.ISO_PART_WORLD (val % 2 ^ 64 - val % 2, 2 ^ 64 - 2) })) ∧
  (∀ (s : State),
      Completes (.bootGood monitor) s (fun t =>
        t.rd Reg.PKG_BOOT F.PKG_BOOT_COUNT = 0 ∧ t.mramAt 0x1000 1 = [0] ∧ t.resp = .ok 0)) ∧
  (∀ (s : State) (who : Ident), who ≠ monitor →
      Completes (.bootGood who) s (fun t =>
        t.rd Reg.PKG_BOOT F.PKG_BOOT_COUNT = s.rd Reg.PKG_BOOT F.PKG_BOOT_COUNT ∧ t.mramAt 0x1000 1 = s.mramAt 0x1000 1)) ∧
  (∀ (s : State) (who : Ident), s.regReach who Reg.RCC_WDOG true false = true →
      Completes (.watchdogKick who) s (fun t =>
        t.pkg.wdogHalf = false ∧ t.rd Reg.RCC_WDOG F.RCC_WDOG_EN = s.rd Reg.RCC_WDOG F.RCC_WDOG_EN ∧
         t.rd Reg.RCC_WDOG F.RCC_WDOG_TIMEOUT = s.rd Reg.RCC_WDOG F.RCC_WDOG_TIMEOUT ∧ t.resp = .ok 0)) ∧
  (∀ (s : State) (n m k : Fin 64), s.anySealed = false →
      Completes (.statClear monitor n) s (fun t =>
        t.rdW (Reg.RTR_IPKT n k) = 0 ∧ t.rdW (Reg.RTR_IFLIT n k) = 0 ∧ t.rdW (Reg.RTR_ILAT n k) = 0 ∧ t.resp = .ok 0 ∧
         (m ≠ n → t.rdW (Reg.RTR_IPKT m k) = s.rdW (Reg.RTR_IPKT m k) ∧ t.rdW (Reg.RTR_IFLIT m k) = s.rdW (Reg.RTR_IFLIT m k) ∧
           t.rdW (Reg.RTR_ILAT m k) = s.rdW (Reg.RTR_ILAT m k)))) ∧
  (∀ (s : State) (who : Ident) (a : Fin 64) (m : Fin 16) (j : Fin 14) (n : Fin 36) (p : Fin 4) (k : Fin 8), s.regReach who Reg.PMON_CTRL true false = true →
      Completes (.pmonClear who) s (fun t =>
        t.rdW (Reg.STP_PMC a k) = 0 ∧ t.rdW (Reg.MCH_PMC m k) = 0 ∧ t.rdW (Reg.PRT_PMC j k) = 0 ∧ t.rdW (Reg.SLC_PMC n k) = 0 ∧
         t.rdW (Reg.FX_PMC p k) = 0 ∧ t.rdW (Reg.RTR_IPKT a a) = s.rdW (Reg.RTR_IPKT a a) ∧ t.resp = .ok 0)) ∧
  (∀ (s : State) (who : Ident) (on : Bool), s.regReach who Reg.PMON_CTRL true false = true →
      Completes (.pmonFreeze who on) s (fun t =>
        t.rd Reg.PMON_CTRL F.PMON_CTRL_FREEZE = b2n on ∧ t.resp = .ok 0)) ∧
  (∀ (s : State) (who : Ident) (w : World) (k val : Nat), 1 ≤ k → k ≤ 512 → s.regReach who (aplicBase w + 4 * k) true false = true → s.srcHere w k = true → val % 8 = (if evtIsLevel k then 6 else 4) → ((s.aplic w).ie && ((s.aplic w).get k).en) = false →
      Completes (.sourcecfgWrite who w k val) s (fun t =>
        (t.aplic w).get k = { (s.aplic w).get k with
          sm := val % 8, pend := ((s.aplic w).get k).pend || (evtIsLevel k && ((s.aplic w).get k).sm == 0 && s.evtCond k) } ∧
         t.resp = .ok 0)) ∧
  (∀ (s : State) (who : Ident) (w : World) (k val : Nat), 1 ≤ k → k ≤ 512 → s.regReach who (aplicBase w + 4 * k) true false = true → s.srcHere w k = true → val % 8 ≠ (if evtIsLevel k then 6 else 4) →
      Completes (.sourcecfgWrite who w k val) s (fun t =>
        (t.aplic w).get k = AplicSrc.off ∧ t.resp = .ok 0)) ∧
  (∀ (s : State) (who : Ident) (w : World) (len : Nat) (q : List Byte), s.regReach who (Reg.MBX_CTRL (worldBit w)) true false = true → s.pmcRuns = true → s.rd (Reg.MBX_STATUS (worldBit w)) F.MBX_STATUS_STATE ≠ 1 → Tab.look s.pmc.req (worldBit w) = none → q = ((List.range 512).flatMap (fun i => leBytes 8 (s.rdW (Reg.MBX_REQ (worldBit w) i)).toNat)).take (len % 2 ^ 13) → mgmtCodes.contains (leAt q 0 1) = true →
      Completes (.mailboxSubmit who w len) s (fun t =>
        t.rd (Reg.MBX_STATUS (worldBit w)) F.MBX_STATUS_STATE = 1 ∧ Tab.look t.pmc.req (worldBit w) = some q ∧ t.resp = .ok 0))

/-- With the standby rails good, PWR_MAIN_EN high and the supplies not yet good, SUPPLIES_GOOD makes them good and
latches the dies' straps; with TEST_EN low the package arrives in DAWN, with TEST_EN high its mode stays.
POWER_ON_RESET while PWR_MAIN_EN is high and no MRAM write pulse is under way leaves the package in DARK with its
supplies not good, no queued memory write and the CTU reset; during a pulse it only waits. COLD_RESET outside DARK and
outside a pulse arrives in DAWN with the sampled FORCE_SIDING, no save list, every channel lost and the CTU reset, and
COLD_PIN stays recorded; WARM_RESET arrives in DAWN with WARM_PIN recorded, no mode order held and the option record
to be loaded again; both leave the pin noted low, so that nothing is released; during a pulse WARM_RESET waits and the mode
stays. MRAM_PULSE_END asserts the reset that waited.
STANDBY_RAIL_LOSS outside a pulse leaves DARK, PWR_MAIN_EN low and the backup registers zero. STANDBY_RAILS_GOOD makes
the standby rails good and PWR_MAIN_EN high, with AON and DBG out of reset. -/
def Obligations.SuppliesAndResetsComplete : Prop :=
  (∀ (s : State) (board : Board) (force : Bool), s.pkg.supplies = false → s.pkg.mainEn = true → s.pkg.standby = true → 
      Completes (.suppliesGood board force false) s (fun t =>
        t.mode = MD.dawn ∧ t.pkg.supplies = true ∧ t.pkg.dies = latchSites board.sites ∧ t.moving = false)) ∧
  (∀ (s : State) (board : Board) (force : Bool), s.pkg.supplies = false → s.pkg.mainEn = true → s.pkg.standby = true → 
      Completes (.suppliesGood board force true) s (fun t =>
        t.mode = s.mode ∧ t.pkg.supplies = true ∧ t.pkg.dies = latchSites board.sites ∧ t.pkg.testEn = true)) ∧
  (∀ (s : State), s.pkg.mainEn = true → s.pkg.rstWait = none → 
      Completes (.powerOnReset false) s (fun t =>
        t.mode = MD.dark ∧ t.pkg.supplies = false ∧ t.wq = [] ∧ t.ctu = Ctu.reset ∧ t.pkg.lost = List.range 16)) ∧
  (∀ (s : State), s.pkg.mainEn = true → 
      Completes (.powerOnReset true) s (fun t =>
        t.mode = s.mode ∧ t.pkg.rstWait.isSome = true ∧ t.pkg.supplies = false)) ∧
  (∀ (s : State) (force : Bool), s.mode ≠ MD.dark → s.pkg.rstWait = none → 
      Completes (.coldReset force false) s (fun t =>
        t.mode = MD.dawn ∧ t.pkg.forceSiding = force ∧ t.pkg.save = none ∧ t.pkg.lost = List.range 16 ∧ t.ctu = Ctu.reset ∧
         t.rd Reg.RCC_RST_CAUSE F.RCC_RST_CAUSE_COLD_PIN = 1 ∧ t.pkg.coldPin = true)) ∧
  (∀ (s : State), s.mode ≠ MD.dark → s.pkg.rstWait = none → 
      Completes (.warmReset false) s (fun t =>
        t.mode = MD.dawn ∧ t.pkg.orders = [] ∧ t.pkg.loaded = false ∧ t.pkg.authed = false ∧
         t.rd Reg.RCC_RST_CAUSE F.RCC_RST_CAUSE_WARM_PIN = 1 ∧ t.pkg.warmPin = true)) ∧
  (∀ (s : State), s.mode ≠ MD.dark → 
      Completes (.warmReset true) s (fun t =>
        t.mode = s.mode ∧ t.pkg.rstWait.isSome = true ∧ t.rd Reg.RCC_RST_CAUSE F.RCC_RST_CAUSE_MRAM_DELAY = 1)) ∧
  (∀ (s : State) (w : RstWait), s.pkg.rstWait = some w → 
      Completes (.mramPulseEnd) s (fun t =>
        t.pkg.rstWait = none ∧ t.mode = (match w with
           | .powerOn _ => MD.dark
           | _ => MD.dawn))) ∧
  (∀ (s : State) (k : Fin 16), s.pkg.rstWait = none → 
      Completes (.standbyRailLoss false) s (fun t =>
        t.mode = MD.dark ∧ t.pkg.standby = false ∧ t.pkg.mainEn = false ∧ t.rdW (Reg.RCC_BKP k) = 0)) ∧
  (∀ (s : State), 
      Completes (.standbyRailsGood) s (fun t =>
        t.pkg.standby = true ∧ t.pkg.mainEn = true ∧ Domain.aon ∉ t.pkg.held ∧ Domain.dbg ∉ t.pkg.held))

/-- SELF_REFRESH_ENTRY_DONE of a channel that is waited for puts it in self-refresh with its error record valid,
SELF_REFRESH_WAIT_TIMEOUT marks it lost; neither is waited for any longer. OPTION_LOAD_DONE in DAWN, supplies good, no
reset waiting and neither reset pin noted low, loads the record once; then the package is in SIDING with cause 0x04 if COUNT
is at or above LIMIT or FORCE_SIDING was sampled low, and otherwise stays in DAWN with COUNT one higher. PLL_LOCK with the
supplies good sets PLL_LOCK. CLOCK_MONITOR_WINDOW, of a clock that is monitored in the mode, with a count within 1 % of the
expected one, above or below, counts a good window up to four, and at the fourth makes the clock good; with a count off by
more than 5 %, of a clock without four good windows, it counts none again; and of a good AON oscillator that falls
silent it sets AON_OSC_FAIL and the clock-loss record. DOMAIN_RESET_RELEASE where neither reset pin reads low, of a held
domain, the supplies good, no reset waiting and TEST_EN low, releases AON and DBG; ISO and SENS with PLL, FCLK and SCLK good;
with these clocks good in DAWN: BASE once the options are loaded and SENS and ISO are out, PORT once BASE is out where no
warm-up runs and no sensor is below -40 degrees, and with MCLK good too and no self-refresh awaited MEM once PORT is out, which
enters MORNING; and in MAINLINE or DUSK a die that may run on good clocks and a cluster of such a die that is not fenced. Of
a held hart that may run it starts the hart at the reset vector. WARMUP_SCAN during warm-up with every sensor at -40 degrees
or above enters MORNING, and WARMUP_TIMEOUT enters SIDING with cause 0x0C. -/
def Obligations.DawnCommandsComplete : Prop :=
  (∀ (s : State) (m : Fin 16), s.pkg.srWait.contains m.val = true → 
      Completes (.selfRefreshEntryDone m) s (fun t =>
        t.rd (Reg.MCH_STATUS m) F.MCH_STATUS_STATE = 4 ∧ t.pkg.srWait.contains m.val = false ∧
         t.on (Reg.MCH_ERR_INFO m) F.MCH_ERR_INFO_VALID = true)) ∧
  (∀ (s : State) (m : Fin 16), s.pkg.srWait.contains m.val = true → 
      Completes (.selfRefreshWaitTimeout m) s (fun t =>
        t.pkg.lost.contains m.val = true ∧ t.pkg.srWait.contains m.val = false)) ∧
  (∀ (s : State), s.mode = MD.dawn → s.pkg.loaded = false → s.pkg.rstWait = none → s.pkg.supplies = true → s.pkg.coldPin = false → s.pkg.warmPin = false → 
      Completes (.optionLoadDone) s (fun t =>
        t.pkg.loaded = true ∧
         if t.rd Reg.PKG_BOOT F.PKG_BOOT_LIMIT ≤ s.rd Reg.PKG_BOOT F.PKG_BOOT_COUNT ∨ s.pkg.forceSiding = true then
           t.mode = MD.siding ∧ t.rd Reg.PKG_MODE F.PKG_MODE_CAUSE = 4
         else t.mode = MD.dawn ∧ t.rd Reg.PKG_BOOT F.PKG_BOOT_COUNT = s.rd Reg.PKG_BOOT F.PKG_BOOT_COUNT + 1)) ∧
  (∀ (s : State), s.pkg.supplies = true → 
      Completes (.pllLock) s (fun t =>
        t.clkGood F.RCC_CLK_STATUS_PLL_LOCK = true)) ∧
  (∀ (s : State) (c : Clock) (expect edges : Nat), s.mode ≠ MD.dark → (s.mode = MD.midnight → c = .aon) → (s.mode = MD.bufferStop → clockStays (clockCode c).1 = true) → 100 * (expect - edges) ≤ expect → 100 * (edges - expect) ≤ expect → 
      Completes (.clockMonitorWindow c expect edges false) s (fun t =>
        Tab.get 0 t.pkg.good (clockKey c) = min 4 (Tab.get 0 s.pkg.good (clockKey c) + 1) ∧
         (3 ≤ Tab.get 0 s.pkg.good (clockKey c) → t.regs = (s.setGood c true).regs))) ∧
  (∀ (s : State) (c : Clock) (expect edges : Nat), s.mode ≠ MD.dark → (s.mode = MD.midnight → c = .aon) → (s.mode = MD.bufferStop → clockStays (clockCode c).1 = true) → Tab.get 0 s.pkg.good (clockKey c) < 4 → 5 * expect < 100 * (expect - edges) ∨ 5 * expect < 100 * (edges - expect) → 
      Completes (.clockMonitorWindow c expect edges false) s (fun t =>
        Tab.get 0 t.pkg.good (clockKey c) = 0 ∧ t.regs = s.regs)) ∧
  (∀ (s : State) (expect edges : Nat), s.mode ≠ MD.dark → 4 ≤ Tab.get 0 s.pkg.good (clockKey .aon) → 
      Completes (.clockMonitorWindow .aon expect edges true) s (fun t =>
        t.on Reg.PWR_WAKE_FLAG F.PWR_WAKE_FLAG_AON_OSC_FAIL = true ∧ t.on Reg.RCC_CLK_LOSS F.RCC_CLK_LOSS_VALID = true ∧
         t.clkGood F.RCC_CLK_STATUS_AON_GOOD = false)) ∧
  (∀ (s : State) (x : Release), x.coldLow = false → x.warmLow = false → x.dom = .aon ∨ x.dom = .dbg → s.pkg.held.contains x.dom = true → s.pkg.rstWait = none → s.pkg.supplies = true → s.pkg.testEn = false → 
      Completes (.domainResetRelease x) s (fun t =>
        t.pkg.held.contains x.dom = false)) ∧
  (∀ (s : State) (x : Release), x.coldLow = false → x.warmLow = false → x.dom = .iso ∨ x.dom = .sens → s.pkg.held.contains x.dom = true → s.pkg.rstWait = none → s.pkg.supplies = true → s.pkg.testEn = false → s.clkGood F.RCC_CLK_STATUS_PLL_LOCK = true → s.clkGood F.RCC_CLK_STATUS_FCLK_GOOD = true → s.clkGood F.RCC_CLK_STATUS_SCLK_GOOD = true → 
      Completes (.domainResetRelease x) s (fun t =>
        t.pkg.held.contains x.dom = false)) ∧
  (∀ (s : State), s.pkg.held.contains .base = true → s.pkg.rstWait = none → s.pkg.supplies = true → s.pkg.testEn = false → s.clkGood F.RCC_CLK_STATUS_PLL_LOCK = true → s.clkGood F.RCC_CLK_STATUS_FCLK_GOOD = true → s.clkGood F.RCC_CLK_STATUS_SCLK_GOOD = true → s.mode = MD.dawn → s.pkg.loaded = true → s.pkg.held.contains .sens = false → s.pkg.held.contains .iso = false → 
      Completes (.domainResetRelease ⟨.base, false, false⟩) s (fun t =>
        t.pkg.held.contains .base = false ∧ t.mode = MD.dawn)) ∧
  (∀ (s : State), s.pkg.held.contains .port = true → s.pkg.rstWait = none → s.pkg.supplies = true → s.pkg.testEn = false → s.clkGood F.RCC_CLK_STATUS_PLL_LOCK = true → s.clkGood F.RCC_CLK_STATUS_FCLK_GOOD = true → s.clkGood F.RCC_CLK_STATUS_SCLK_GOOD = true → s.mode = MD.dawn → s.pkg.held.contains .base = false → s.pkg.warmup = false → s.tooCold = false → 
      Completes (.domainResetRelease ⟨.port, false, false⟩) s (fun t =>
        t.pkg.held.contains .port = false ∧ t.mode = MD.dawn)) ∧
  (∀ (s : State), s.pkg.held.contains .mem = true → s.pkg.rstWait = none → s.pkg.supplies = true → s.pkg.testEn = false → s.clkGood F.RCC_CLK_STATUS_PLL_LOCK = true → s.clkGood F.RCC_CLK_STATUS_FCLK_GOOD = true → s.clkGood F.RCC_CLK_STATUS_SCLK_GOOD = true → s.clkGood F.RCC_CLK_STATUS_MCLK_GOOD = true → s.mode = MD.dawn → s.pkg.held.contains .port = false → s.pkg.srWait = [] → 
      Completes (.domainResetRelease ⟨.mem, false, false⟩) s (fun t =>
        t.pkg.held.contains .mem = false ∧ t.mode = MD.morning)) ∧
  (∀ (s : State) (i : Fin 12), s.pkg.held.contains (.die i) = true → s.pkg.rstWait = none → s.pkg.supplies = true → s.pkg.testEn = false → s.mode = MD.mainline ∨ s.mode = MD.dusk → s.dieMayRun i = true → s.dieClocks i = true → 
      Completes (.domainResetRelease ⟨.die i, false, false⟩) s (fun t =>
        t.pkg.held.contains (.die i) = false)) ∧
  (∀ (s : State) (c : Fin 36), s.pkg.held.contains (.clu c) = true → s.pkg.rstWait = none → s.pkg.supplies = true → s.pkg.testEn = false → s.mode = MD.mainline ∨ s.mode = MD.dusk → s.dieMayRun (c / 3) = true → s.dieClocks (c / 3) = true → s.fenced (nthD clusterStops c 0) 2 = false → 
      Completes (.domainResetRelease ⟨.clu c, false, false⟩) s (fun t =>
        t.pkg.held.contains (.clu c) = false)) ∧
  (∀ (s : State) (h : Fin 216), (s.hart h).held = true → s.hartMayRun h = true → 
      Completes (.domainResetRelease ⟨.core h, false, false⟩) s (fun t =>
        (t.hart h).held = false ∧ (t.hart h).pc = BitVec.ofNat 64 s.resetVector)) ∧
  (∀ (s : State) (temps : List Int), s.pkg.warmup = true → (s.readSensors temps).tooCold = false → 
      Completes (.warmupScan temps) s (fun t =>
        t.mode = MD.morning ∧ t.pkg.warmup = false)) ∧
  (∀ (s : State), s.pkg.warmup = true → 
      Completes (.warmupTimeout) s (fun t =>
        t.mode = MD.siding ∧ t.rd Reg.PKG_MODE F.PKG_MODE_CAUSE = 0xC ∧ t.pkg.warmup = false))

/-- DRAM_TRAINING_DONE in MORNING lays a supported population out: MEM_MAP gives the ways and the installed size, and
the mode stays; an unsupported one ends in SIDING with cause 0x05. MEMORY_FILL_DONE in MORNING with some channel
populated and each of those filling or ready enters DEPOT with no channel lost. BOOT_AUTHENTICATION in DEPOT, not yet
done, authenticates the firmware when the PMC image in the active slot passes its check and either the monitor image in its
slot passes its own and fits a boot region, or, on the way out of MIDNIGHT, the body in DRAM has the digest recorded; else
it enters SIDING with cause 0x06. SELF_TEST_DONE in DEPOT gives every die site the STATE its rule names (given where the
I/O die or base failed, and where not); when the
I/O die or base failed the cause is 0x08, when a site is of a bad pairing 0x07, and with neither and an active die
self-test is passed and the feature level valid. MAINLINE_ENTRY in DEPOT with firmware authenticated, self-test
passed, the feature level valid and a die active enters MAINLINE, with cause 3 on the way out of MIDNIGHT and 1
otherwise. -/
def Obligations.MorningAndDepotComplete : Prop :=
  (∀ (s : State) (dimms : List (Option Dimm)), s.mode = MD.morning → populationOk dimms = true → 
      Completes (.dramTrainingDone dimms) s (fun t =>
        t.mode = MD.morning ∧
         t.rd Reg.MEM_MAP F.MEM_MAP_TOP = (below 16 (fun m => (nthD dimms m none).isSome)).length *
           (nthD dimms 0 none).elim 0 (fun d => d.gib * d.dpc) * 2 ^ 14 % 2 ^ 36 ∧
         t.rd Reg.MEM_MAP F.MEM_MAP_WAYS_LOG2 = (if (below 16 (fun m => (nthD dimms m none).isSome)).length = 16 then 4 else 3))) ∧
  (∀ (s : State) (dimms : List (Option Dimm)), s.mode = MD.morning → populationOk dimms = false → 
      Completes (.dramTrainingDone dimms) s (fun t =>
        t.mode = MD.siding ∧ t.rd Reg.PKG_MODE F.PKG_MODE_CAUSE = 5)) ∧
  (∀ (s : State), s.mode = MD.morning → s.populated ≠ [] →
      (∀ m ∈ s.populated, s.rd (Reg.MCH_STATUS m) F.MCH_STATUS_STATE = 2 ∨ s.rd (Reg.MCH_STATUS m) F.MCH_STATUS_STATE = 3) → 
      Completes (.memoryFillDone) s (fun t =>
        t.mode = MD.depot ∧ t.pkg.lost = [])) ∧
  (∀ (s : State), s.mode = MD.depot → s.pkg.authed = false → 
      Completes (.bootAuthentication) s (fun t =>
        (s.bootOk = true → t.pkg.authed = true) ∧
         (s.bootOk = false → t.pkg.authed = false ∧ t.mode = MD.siding ∧ t.rd Reg.PKG_MODE F.PKG_MODE_CAUSE = 6))) ∧
  (∀ (s : State) (fails : List (Fin 12)) (d : Fin 12), s.mode = MD.depot → 
      Completes (.selfTestDone fails false) s (fun t =>
        t.rd Reg.PKG_MODE F.PKG_MODE_CAUSE = 8 ∧ t.mode = MD.depot ∧ t.dieState d = s.siteState fails d)) ∧
  (∀ (s : State) (fails : List (Fin 12)) (d : Fin 12), s.mode = MD.depot → 
      Completes (.selfTestDone fails true) s (fun t =>
        t.mode = MD.depot ∧ t.dieState d = s.siteState fails d)) ∧
  (∀ (s : State) (fails : List (Fin 12)), s.mode = MD.depot → ((s.forAll 12 (fun d s => s.siteTested fails d)).showSteps).pairingBad = false → (below 12 (fun d => ((s.forAll 12 (fun d s => s.siteTested fails d)).showSteps).dieState d == 1)).isEmpty = false → 
      Completes (.selfTestDone fails true) s (fun t =>
        t.pkg.selfTest = true ∧ t.on Reg.PKG_FEATURE F.PKG_FEATURE_VALID = true ∧ t.mode = MD.depot)) ∧
  (∀ (s : State) (fails : List (Fin 12)), s.mode = MD.depot → ((s.forAll 12 (fun d s => s.siteTested fails d)).showSteps).pairingBad = true → 
      Completes (.selfTestDone fails true) s (fun t =>
        t.rd Reg.PKG_MODE F.PKG_MODE_CAUSE = 7 ∧ t.mode = MD.depot)) ∧
  (∀ (s : State), s.mode = MD.depot → s.pkg.authed = true → s.pkg.selfTest = true → s.on Reg.PKG_FEATURE F.PKG_FEATURE_VALID = true → s.rdW Reg.PKG_DIE_ACTIVE ≠ 0 → 
      Completes (.mainlineEntry) s (fun t =>
        t.mode = MD.mainline ∧ t.rd Reg.PKG_MODE F.PKG_MODE_CAUSE = (if s.pkg.midWake then 3 else 1) ∧ t.moving = false))

/-- NDMRESET cleared releases the held source and changes nothing else; set, outside DARK and a pulse: of package reach, both
invasive enables in force, it is a warm reset that arrives in DAWN with DEBUG recorded; of die reach, of an active die, the
invasive enable of the owner world of its units in force, it makes the die's STATE 3; of cluster reach, of a cluster of an
active die, that of its owner world in force, it fences the cluster; the held source is noted with its reach. Of a reach
whose enables are not in force, and of the reserved reach, it changes nothing. HARTRESET of any harts, set, holds each whose
die is active and whose cluster's owner world has its invasive enable in force, and no other; cleared it holds none of
them, and a hart that may run leaves reset. WATCHDOG_HALF while the watchdog counts raises event 386 and notes the half,
and once it is noted changes nothing. WATCHDOG_TIMEOUT after the half, outside a pulse, is a warm reset with WDOG recorded.
THERMAL_TRIP outside DARK, PMC_TRIP empty, records the sensor in it: from DEPOT, MAINLINE, DUSK, NIGHT and WORKSHOP
it enters CAUTION with cause 0x09, from DAWN and MORNING SIDING with cause 0x09, and in SIDING, CAUTION, BUFFER STOP and
MIDNIGHT the mode stays; PMC_TRIP filled already, it sets MORE. SENSOR_SCAN outside reset of SENS, no restart due in SIDING,
takes the readings. DIE_LOSS of an active die while another is active makes its STATE 3, clears its ACTIVE bit, raises
events 379 and 380 and keeps the mode; of the last active die in MAINLINE, DUSK or NIGHT it enters CAUTION with cause 0x08; of
a die that is not active it changes nothing. DIE_READMIT of a fenced die, or in WORKSHOP of a masked one, that is present:
one that passes, at a site with no strap fault, of a stepping the revision matrix names and whose level does not lower the
package's, is noted as ready, and any other is not ready and is logged; its STATE stays. -/
def Obligations.DebugResetsAndWatchdogComplete : Prop :=
  (∀ (s : State) (pulse : Bool), 
      Completes (.ndmreset false pulse) s (fun t =>
        t = { s with pkg := { s.pkg with ndm := none } })) ∧
  (∀ (s : State), s.rd Reg.RCC_DBG_RST F.RCC_DBG_RST_NDM_REACH = 0 → s.invasive .s = true → s.invasive .n = true → s.mode ≠ MD.dark → s.pkg.rstWait = none → 
      Completes (.ndmreset true false) s (fun t =>
        t.mode = MD.dawn ∧ t.pkg.ndm = some (0, 0) ∧ t.rd Reg.RCC_RST_CAUSE F.RCC_RST_CAUSE_DEBUG = 1)) ∧
  (∀ (s : State) (pulse : Bool) (d : Fin 12), s.rd Reg.RCC_DBG_RST F.RCC_DBG_RST_NDM_REACH = 1 → s.rd Reg.RCC_DBG_RST F.RCC_DBG_RST_NDM_INDEX = d.val → s.dieActive d = true → s.invasive (s.ownerOf (dieUnits d)) = true → 
      Completes (.ndmreset true pulse) s (fun t =>
        t.dieState d = 3 ∧ t.dieActive d = false ∧ t.pkg.ndm = some (3, d.val))) ∧
  (∀ (s : State) (pulse : Bool) (c : Fin 36), s.rd Reg.RCC_DBG_RST F.RCC_DBG_RST_NDM_REACH = 2 → s.rd Reg.RCC_DBG_RST F.RCC_DBG_RST_NDM_INDEX = c.val → s.dieActive (c / 3) = true → s.invasive (s.ownerOf [c.val]) = true → 
      Completes (.ndmreset true pulse) s (fun t =>
        t.fenced (nthD clusterStops c 0) 2 = true ∧ t.pkg.ndm = some (2, c.val) ∧
         t.rd Reg.RCC_RST_CAUSE F.RCC_RST_CAUSE_DEBUG = 1)) ∧
  (∀ (s : State) (pulse : Bool), s.rd Reg.RCC_DBG_RST F.RCC_DBG_RST_NDM_REACH = 3 ∨ (s.invasive .s = false ∧ s.invasive .n = false) → 
      Completes (.ndmreset true pulse) s (fun t =>
        t = s)) ∧
  (∀ (s : State) (harts : List (Fin 216)) (h : Fin 216), 
      Completes (.hartreset harts true) s (fun t =>
        t.pkg.hartRst.contains h.val = (s.pkg.hartRst.contains h.val ||
          (harts.contains h && s.invasive (s.ownerOf [h.val / 6]) && s.dieActive (h.val / 18))))) ∧
  (∀ (s : State) (harts : List (Fin 216)) (h : Fin 216), 
      Completes (.hartreset harts false) s (fun t =>
        t.pkg.hartRst.contains h.val = (s.pkg.hartRst.contains h.val && !harts.contains h))) ∧
  (∀ (s : State) (h : Fin 216), s.pkg.hartRst.contains h.val = true → (s.pk (fun p => { p with hartRst := p.hartRst.filter (· != h.val) })).hartMayRun h = true → 
      Completes (.hartreset [h] false) s (fun t =>
        t.pkg.hartRst.contains h.val = false ∧ (t.hart h).held = false)) ∧
  (∀ (s : State), s.wdogRuns = true → s.pkg.wdogHalf = false → 
      Completes (.watchdogHalf) s (fun t =>
        t.pkg.wdogHalf = true ∧ t.wires = s.wires ++ [386])) ∧
  (∀ (s : State), s.pkg.wdogHalf = true → 
      Completes (.watchdogHalf) s (fun t =>
        t = s)) ∧
  (∀ (s : State), s.wdogRuns = true → s.pkg.wdogHalf = true → s.pkg.rstWait = none → 
      Completes (.watchdogTimeout false) s (fun t =>
        t.mode = MD.dawn ∧ t.rd Reg.RCC_RST_CAUSE F.RCC_RST_CAUSE_WDOG = 1)) ∧
  (∀ (s : State) (n : Fin 148) (temp : Int), s.mode ∈ [MD.depot, MD.mainline, MD.dusk, MD.night, MD.workshop] → s.on Reg.PMC_TRIP F.PMC_TRIP_VALID = false → 
      Completes (.thermalTrip n temp) s (fun t =>
        t.mode = MD.caution ∧ t.rd Reg.PKG_MODE F.PKG_MODE_CAUSE = 9 ∧ t.on Reg.PMC_TRIP F.PMC_TRIP_VALID = true ∧
         t.rd Reg.PMC_TRIP F.PMC_TRIP_SENSOR = n ∧ t.pkg.thermLow = true)) ∧
  (∀ (s : State) (n : Fin 148) (temp : Int), s.mode = MD.dawn ∨ s.mode = MD.morning → s.on Reg.PMC_TRIP F.PMC_TRIP_VALID = false → 
      Completes (.thermalTrip n temp) s (fun t =>
        t.mode = MD.siding ∧ t.rd Reg.PKG_MODE F.PKG_MODE_CAUSE = 9 ∧ t.on Reg.PMC_TRIP F.PMC_TRIP_VALID = true ∧
         t.rd Reg.PMC_TRIP F.PMC_TRIP_SENSOR = n ∧ t.pkg.thermLow = true)) ∧
  (∀ (s : State) (n : Fin 148) (temp : Int), s.mode ∈ [MD.siding, MD.caution, MD.bufferStop, MD.midnight] → s.on Reg.PMC_TRIP F.PMC_TRIP_VALID = false → 
      Completes (.thermalTrip n temp) s (fun t =>
        t.mode = s.mode ∧ t.on Reg.PMC_TRIP F.PMC_TRIP_VALID = true ∧ t.rd Reg.PMC_TRIP F.PMC_TRIP_SENSOR = n ∧
         t.pkg.thermLow = true)) ∧
  (∀ (s : State) (n : Fin 148) (temp : Int), s.mode ≠ MD.dark → s.on Reg.PMC_TRIP F.PMC_TRIP_VALID = true → 
      Completes (.thermalTrip n temp) s (fun t =>
        t.on Reg.PMC_TRIP F.PMC_TRIP_MORE = true ∧ t.rd Reg.PMC_TRIP F.PMC_TRIP_SENSOR = s.rd Reg.PMC_TRIP F.PMC_TRIP_SENSOR)) ∧
  (∀ (s : State) (temps : List Int) (n : Nat), s.pkg.held.contains .sens = false → s.pkg.restartDue = false ∨ s.mode ≠ MD.siding → n < 148 → 
      Completes (.sensorScan temps) s (fun t =>
        t.sensor n = nthD temps n 0)) ∧
  (∀ (s : State) (d e : Fin 12) (why : DieCause), s.dieActive d = true → e ≠ d → s.dieActive e = true → 
      Completes (.dieLoss d why) s (fun t =>
        t.dieState d = 3 ∧ t.dieActive d = false ∧ t.dieActive e = true ∧ t.mode = s.mode ∧ 379 ∈ t.wires ∧ 380 ∈ t.wires)) ∧
  (∀ (s : State) (d : Fin 12) (why : DieCause), s.rdW Reg.PKG_DIE_ACTIVE = BitVec.ofNat 64 (2 ^ d.val) → s.mode ∈ [MD.mainline, MD.dusk, MD.night] → 
      Completes (.dieLoss d why) s (fun t =>
        t.mode = MD.caution ∧ t.rd Reg.PKG_MODE F.PKG_MODE_CAUSE = 8 ∧ t.dieState d = 3)) ∧
  (∀ (s : State) (d : Fin 12) (why : DieCause), s.dieActive d = false → 
      Completes (.dieLoss d why) s (fun t =>
        t = s)) ∧
  (∀ (s : State) (d : Fin 12) (x : DieSite), s.dieState d = 3 ∨ (s.dieState d = 2 ∧ s.mode = MD.workshop) → (s.pk (fun p => { p with dies := Tab.put none p.dies d (some x) })).strapFault d = false → cdLevel x.stepping ≠ 0 → s.lowersLevel x = false → 
      Completes (.dieReadmit d (some x) true) s (fun t =>
        t.pkg.readied.contains d.val = true ∧ t.dieState d = s.dieState d)) ∧
  (∀ (s : State) (d : Fin 12) (x : DieSite) (pass : Bool), s.dieState d = 3 ∨ (s.dieState d = 2 ∧ s.mode = MD.workshop) → pass = false ∨ (s.pk (fun p => { p with dies := Tab.put none p.dies d (some x) })).strapFault d = true ∨ cdLevel x.stepping = 0 ∨ s.lowersLevel x = true → 
      Completes (.dieReadmit d (some x) pass) s (fun t =>
        t.pkg.readied.contains d.val = false ∧ t.dieState d = s.dieState d ∧ t.pkg.ldrLog = s.pkg.ldrLog ++ [0x100 + d.val]))

/-- MODE_ORDER_SUBMIT by the monitor, its register not pending, makes it PENDING and puts the order last among those
that wait; from an identity that does not reach the register nothing waits and the answer is an error. MODE_DECISION
with no transition under way and one order, of the PMC for the current mode, completes it and leaves no order waiting;
an order of the monitor for DUSK waits for its entry, and one for WORKSHOP completes REFUSED; an order of the PMC for WORKSHOP
in SIDING, no sensor at 115 degrees, begins that transition; while a transition is under way nothing changes. DUSK_ENTRY and
NIGHT_ENTRY of a waiting order in MAINLINE whose entry conditions hold begin the transition to DUSK, every running cluster
and slice gated, or to NIGHT, the save list kept. DUSK_WAKE in DUSK on a packet returns to MAINLINE with cause 0x03.
LOW_POWER_ENTRY_TIMEOUT ends the waiting order, REFUSED. NIGHT_WAKE in NIGHT with a wake due enters MAINLINE, and
MIDNIGHT_WAKE in MIDNIGHT with a wake due and sensor 96 below 115 degrees raises PWR_MAIN_EN. MODE_TRANSITION_DONE
makes the target of a transition to DUSK the current mode, and the order that asked for it DONE. -/
def Obligations.ModeOrdersComplete : Prop :=
  (∀ (s : State) (target : Nat), s.rd (Reg.PKG_MODE_REQ 0) F.PKG_MODE_REQ_STATUS ≠ OS.pending → 
      Completes (.modeOrderSubmit 0 monitor target) s (fun t =>
        t.pkg.orders = s.pkg.orders ++ [⟨2, monitor, target % 16⟩] ∧ t.resp = .ok 0 ∧
         t.rd (Reg.PKG_MODE_REQ 0) F.PKG_MODE_REQ_STATUS = OS.pending)) ∧
  (∀ (s : State) (m : Fin 2) (who : Ident) (target : Nat), s.reqReach 1 m who = false → 
      Completes (.modeOrderSubmit m who target) s (fun t =>
        t.pkg.orders = s.pkg.orders ∧ t.resp = .error)) ∧
  (∀ (s : State), s.moving = false → s.pkg.orders = [⟨1, monitor, s.mode⟩] → s.pkg.powers = [] → s.mode = MD.mainline → 
      Completes (.modeDecision) s (fun t =>
        t.pkg.orders = [] ∧ t.mode = MD.mainline ∧ t.moving = false)) ∧
  (∀ (s : State), s.moving = true → 
      Completes (.modeDecision) s (fun t =>
        t = s)) ∧
  (∀ (s : State), s.moving = false → s.pkg.orders = [⟨2, monitor, MD.dusk⟩] → s.pkg.powers = [] → s.mode = MD.mainline → 
      Completes (.modeDecision) s (fun t =>
        t.pkg.orders = [] ∧ t.pkg.lows = s.pkg.lows ++ [⟨MD.dusk, [2]⟩] ∧ t.mode = MD.mainline ∧ t.moving = false)) ∧
  (∀ (s : State), s.moving = false → s.pkg.orders = [⟨2, monitor, MD.workshop⟩] → s.pkg.powers = [] → s.mode = MD.mainline → 
      Completes (.modeDecision) s (fun t =>
        t.pkg.orders = [] ∧ t.pkg.lows = s.pkg.lows ∧ t.mode = MD.mainline ∧ t.moving = false ∧
         t.rd (Reg.PKG_MODE_REQ 0) F.PKG_MODE_REQ_STATUS = OS.refused)) ∧
  (∀ (s : State), s.moving = false → s.pkg.orders = [⟨1, monitor, MD.workshop⟩] → s.mode = MD.siding → s.anyAt allSensors 115 = false → 
      Completes (.modeDecision) s (fun t =>
        t.pkg.orders = [] ∧ t.pkg.powers = s.pkg.powers ∧ t.mode = MD.siding ∧ t.moving = true ∧
         t.rd Reg.PKG_MODE F.PKG_MODE_TARGET = MD.workshop)) ∧
  (∀ (s : State) (l : LowWait), s.lowFor MD.dusk = some l → s.mode = MD.mainline → s.moving = false → s.lowReady MD.dusk = true → 
      Completes (.duskEntry) s (fun t =>
        t.moving = true ∧ t.rd Reg.PKG_MODE F.PKG_MODE_TARGET = MD.dusk ∧ t.mode = MD.mainline ∧ t.pkg.moveCause = 2 ∧
         (∀ u : Fin 72, s.unitState u = 0 → t.unitState u = 1))) ∧
  (∀ (s : State) (l : LowWait), s.lowFor MD.night = some l → s.mode = MD.mainline → s.moving = false → s.lowReady MD.night = true → 
      Completes (.nightEntry) s (fun t =>
        t.moving = true ∧ t.rd Reg.PKG_MODE F.PKG_MODE_TARGET = MD.night ∧ t.pkg.save.isSome = true)) ∧
  (∀ (s : State) (target : Nat) (l : LowWait), s.lowFor target = some l → s.moving = false → 
      Completes (.lowPowerEntryTimeout target) s (fun t =>
        l ∉ t.pkg.lows ∧ t.mode = s.mode)) ∧
  (∀ (s : State) (target : Nat), s.pkg.lows = [⟨target, [2]⟩] → s.moving = false → 
      Completes (.lowPowerEntryTimeout target) s (fun t =>
        t.pkg.lows = [] ∧ t.rd (Reg.PKG_MODE_REQ 0) F.PKG_MODE_REQ_STATUS = OS.refused)) ∧
  (∀ (s : State), s.mode = MD.dusk → s.moving = false → 
      Completes (.duskWake true) s (fun t =>
        t.mode = MD.mainline ∧ t.rd Reg.PKG_MODE F.PKG_MODE_CAUSE = 3 ∧ t.pkg.duskGated = [])) ∧
  (∀ (s : State), s.mode = MD.night → s.moving = false → s.pkg.wakeHeld = true → 
      Completes (.nightWake) s (fun t =>
        t.mode = MD.mainline ∧ t.pkg.wakeHeld = false ∧ t.pkg.save = none)) ∧
  (∀ (s : State), s.mode = MD.midnight → s.moving = false → s.pkg.wakeHeld = true → s.sensor 96 < 1840 → 
      Completes (.midnightWake) s (fun t =>
        t.pkg.mainEn = true ∧ t.pkg.midWake = true ∧ t.pkg.wakeHeld = false)) ∧
  (∀ (s : State), s.moving = true → s.rd Reg.PKG_MODE F.PKG_MODE_TARGET = MD.dusk → 
      Completes (.modeTransitionDone) s (fun t =>
        t.mode = MD.dusk ∧ t.moving = false ∧ (∀ l ∈ t.pkg.lows, l.target ≠ MD.dusk) ∧
         t.rd Reg.PKG_MODE F.PKG_MODE_CAUSE = s.pkg.moveCause % 256)) ∧
  (∀ (s : State), s.moving = true → s.rd Reg.PKG_MODE F.PKG_MODE_TARGET = MD.dusk → s.pkg.lows = [⟨MD.dusk, [2]⟩] → 
      Completes (.modeTransitionDone) s (fun t =>
        t.mode = MD.dusk ∧ t.pkg.lows = [] ∧ t.rd (Reg.PKG_MODE_REQ 0) F.PKG_MODE_REQ_STATUS = OS.done))

/-- SET_TDP, CAP_CCLK, GATE, UNGATE, POWER_OFF, POWER_ON and MEM_IDLE by the monitor through PWR_REQ{0}, not pending,
with a unit and a value in range make the register PENDING and put the request last among those that wait.
CORE_RESET_REQ by the monitor of a hart of an active, unfenced cluster completes DONE; CLUSTER_RESET_REQ of such a
cluster holds its harts and keeps the request PENDING; DIE_RESET_REQ of an active die while another is active
completes DONE and makes the die's STATE 3. CLUSTER_RESET_DRAINED of a cluster being reset that is drained completes
the request DONE and makes the unit's STATE 5. -/
def Obligations.PowerRequestsComplete : Prop :=
  (∀ (s : State) (v : Nat), s.rd (Reg.PWR_REQ 0) F.PWR_REQ_STATUS ≠ OS.pending → 450 ≤ v → v ≤ 850 → 
      Completes (.setTdp (.reg 0 monitor) 0 v) s (fun t =>
        t.pkg.powers = s.pkg.powers ++ [⟨2, monitor, 1, 0, v⟩] ∧ t.rd (Reg.PWR_REQ 0) F.PWR_REQ_STATUS = OS.pending)) ∧
  (∀ (s : State) (d v : Nat), s.rd (Reg.PWR_REQ 0) F.PWR_REQ_STATUS ≠ OS.pending → d < 12 → v < 8 → 
      Completes (.capCclk (.reg 0 monitor) d v) s (fun t =>
        t.pkg.powers = s.pkg.powers ++ [⟨2, monitor, 2, d, v⟩] ∧ t.rd (Reg.PWR_REQ 0) F.PWR_REQ_STATUS = OS.pending)) ∧
  (∀ (s : State) (u : Nat), s.rd (Reg.PWR_REQ 0) F.PWR_REQ_STATUS ≠ OS.pending → u < 72 → 
      Completes (.gate (.reg 0 monitor) u 0) s (fun t =>
        t.pkg.powers = s.pkg.powers ++ [⟨2, monitor, 3, u, 0⟩] ∧ t.rd (Reg.PWR_REQ 0) F.PWR_REQ_STATUS = OS.pending)) ∧
  (∀ (s : State) (u : Nat), s.rd (Reg.PWR_REQ 0) F.PWR_REQ_STATUS ≠ OS.pending → u < 72 → 
      Completes (.ungate (.reg 0 monitor) u 0) s (fun t =>
        t.pkg.powers = s.pkg.powers ++ [⟨2, monitor, 4, u, 0⟩] ∧ t.rd (Reg.PWR_REQ 0) F.PWR_REQ_STATUS = OS.pending)) ∧
  (∀ (s : State) (u : Nat), s.rd (Reg.PWR_REQ 0) F.PWR_REQ_STATUS ≠ OS.pending → u < 72 ∨ (88 ≤ u ∧ u ≤ 105) → 
      Completes (.powerOff (.reg 0 monitor) u 0) s (fun t =>
        t.pkg.powers = s.pkg.powers ++ [⟨2, monitor, 5, u, 0⟩] ∧ t.rd (Reg.PWR_REQ 0) F.PWR_REQ_STATUS = OS.pending)) ∧
  (∀ (s : State) (u : Nat), s.rd (Reg.PWR_REQ 0) F.PWR_REQ_STATUS ≠ OS.pending → u < 72 ∨ (88 ≤ u ∧ u ≤ 105) → 
      Completes (.powerOn (.reg 0 monitor) u 0) s (fun t =>
        t.pkg.powers = s.pkg.powers ++ [⟨2, monitor, 6, u, 0⟩] ∧ t.rd (Reg.PWR_REQ 0) F.PWR_REQ_STATUS = OS.pending)) ∧
  (∀ (s : State) (u v : Nat), s.rd (Reg.PWR_REQ 0) F.PWR_REQ_STATUS ≠ OS.pending → 72 ≤ u → u ≤ 87 → v < 2 → 
      Completes (.memIdle (.reg 0 monitor) u v) s (fun t =>
        t.pkg.powers = s.pkg.powers ++ [⟨2, monitor, 7, u, v⟩] ∧ t.rd (Reg.PWR_REQ 0) F.PWR_REQ_STATUS = OS.pending)) ∧
  (∀ (s : State) (h : Fin 216), s.rd (Reg.RCC_RST_REQ 0) F.RCC_RST_REQ_STATUS ≠ OS.pending → s.resetUnitOk 1 h = true → 
      Completes (.coreResetReq 0 monitor h) s (fun t =>
        t.rd (Reg.RCC_RST_REQ 0) F.RCC_RST_REQ_STATUS = OS.done ∧ bitAt (t.rdW (Reg.RCC_HART_CAUSE h)).toNat 4 = true)) ∧
  (∀ (s : State) (c : Fin 36) (k : Fin 6), s.rd (Reg.RCC_RST_REQ 0) F.RCC_RST_REQ_STATUS ≠ OS.pending → s.resetUnitOk 2 c = true → 
      Completes (.clusterResetReq 0 monitor c) s (fun t =>
        t.rd (Reg.RCC_RST_REQ 0) F.RCC_RST_REQ_STATUS = OS.pending ∧ (0, 2, c.val) ∈ t.pkg.rsts ∧
         (t.hart (6 * c + k)).held = true)) ∧
  (∀ (s : State) (d e : Fin 12), s.rd (Reg.RCC_RST_REQ 0) F.RCC_RST_REQ_STATUS ≠ OS.pending → s.dieActive d = true → e ≠ d → s.dieActive e = true → 
      Completes (.dieResetReq 0 monitor d) s (fun t =>
        t.rd (Reg.RCC_RST_REQ 0) F.RCC_RST_REQ_STATUS = OS.done ∧ t.dieState d = 3 ∧ t.dieActive d = false)) ∧
  (∀ (s : State) (c : Fin 36), s.pkg.rsts.find? (fun r => r.2 == (2, c.val)) = some (0, 2, c.val) → s.clusterDrained c = true → 
      Completes (.clusterResetDrained c) s (fun t =>
        t.rd (Reg.RCC_RST_REQ 0) F.RCC_RST_REQ_STATUS = OS.done ∧ t.unitState c = 5 ∧ (0, 2, c.val) ∉ t.pkg.rsts))

/-- THROTTLE_STEP with a sensor of the die, of the I/O die or of the base at or above 120 degrees raises THROTTLE of that
active die by one code, to at most 7: from its own value, or, where it is not throttled, from the current code with event 387
raised; any other die keeps its THROTTLE. THROTTLE_RELAX with all of a die's sensors and those of the I/O die and the base
below 117 degrees lowers THROTTLE of that active die by one, 0 staying 0. Both leave issue on alternate cycles set exactly
while a sensor of the I/O die or the base is at or above 120 degrees. BUDGET_ROUND records the uncore and package figures,
drops the bids, and leaves grants of at most 62 W, to active dies only. BUDGET_BID of an active die that yields at least 1 W
lowers its grant at once; another leaves it; both are noted. BUDGET_GRANT gives a die its grant, of at most 62 W, takes it
from the grants that wait, and aims the die at the fastest code permitted under it. CCLK_DIVIDER_SWITCH of a moving die makes
the target the current code, and at a code other than 0 no wake of its harts is held. DRAW_METER_CHECK of an active die above
its grant aims it one code slower, at most 7; at or below its grant it changes nothing. PACKAGE_POWER_LIMIT above 850 W, or,
while LIMITING is 1, at 840 W or above, leaves LIMITING 1 and aims every active die one code slower; otherwise it leaves
LIMITING 0 and no die's target changes. UNIT_POWER_DOWN_DONE of a drained unit being powered down makes its STATE 3,
UNIT_POWER_UP_DONE of one being powered up makes it 5, each ending the unit's move and completing a request of the monitor's
for it DONE. UNIT_DRAIN_TIMEOUT of a unit being powered down ends the move; it makes STATE 5 and completes a request of the
monitor's REFUSED for a cluster or slice, which it fences with its partner at the stop, for a PCIe port, whose links it takes
down, and for a Finxis port. MEM_IDLE_SELF_REFRESH of a ready channel with MEM_IDLE in force and no write to it queued puts
it in self-refresh. -/
def Obligations.OperatingPointsComplete : Prop :=
  (∀ (s : State) (d : Fin 12), s.dieActive d = true → s.anyAt (dieSensors d) 120 = true → s.rd (Reg.PWR_DIE d) F.PWR_DIE_THROTTLE ≠ 0 → 
      Completes (.throttleStep) s (fun t =>
        t.rd (Reg.PWR_DIE d) F.PWR_DIE_THROTTLE = min 7 (s.rd (Reg.PWR_DIE d) F.PWR_DIE_THROTTLE + 1) ∧
         t.pkg.altIssue = s.anyAt baseSensors 120)) ∧
  (∀ (s : State) (d : Fin 12), s.dieActive d = true → s.anyAt (dieSensors d) 120 = true → s.rd (Reg.PWR_DIE d) F.PWR_DIE_THROTTLE = 0 → 
      Completes (.throttleStep) s (fun t =>
        t.rd (Reg.PWR_DIE d) F.PWR_DIE_THROTTLE = min 7 (s.rd (Reg.RCC_CCLK d) F.RCC_CCLK_CURRENT + 1) ∧ 387 ∈ t.wires)) ∧
  (∀ (s : State) (d : Fin 12), s.dieActive d = false ∨ s.anyAt (dieSensors d) 120 = false → 
      Completes (.throttleStep) s (fun t =>
        t.rd (Reg.PWR_DIE d) F.PWR_DIE_THROTTLE = s.rd (Reg.PWR_DIE d) F.PWR_DIE_THROTTLE)) ∧
  (∀ (s : State) (d : Fin 12), s.dieActive d = true → s.anyAt (dieSensors d) 117 = false → 
      Completes (.throttleRelax) s (fun t =>
        t.rd (Reg.PWR_DIE d) F.PWR_DIE_THROTTLE = s.rd (Reg.PWR_DIE d) F.PWR_DIE_THROTTLE - 1 ∧
         t.pkg.altIssue = s.anyAt baseSensors 120)) ∧
  (∀ (s : State) (uncore total : Nat) (meters : List Nat), uncore < 4096 → total < 4096 → 
      Completes (.budgetRound uncore total meters) s (fun t =>
        t.rd Reg.PWR_PKG F.PWR_PKG_UNCORE_PWR = uncore ∧ t.rd Reg.PWR_PKG F.PWR_PKG_PKG_PWR = total ∧ t.pkg.bids = [] ∧
         ∀ d g, Tab.look t.pkg.grants d = some g → g ≤ 248 ∧ d < 12 ∧ s.dieActive d = true)) ∧
  (∀ (s : State) (d : Fin 12) (demand : Nat), s.dieActive d = true → demand + 4 ≤ s.rd (Reg.PWR_DIE d) F.PWR_DIE_GRANT → 
      Completes (.budgetBid d demand) s (fun t =>
        t.rd (Reg.PWR_DIE d) F.PWR_DIE_GRANT = demand ∧ Tab.look t.pkg.bids d = some demand)) ∧
  (∀ (s : State) (d : Fin 12) (demand : Nat), s.dieActive d = true → s.rd (Reg.PWR_DIE d) F.PWR_DIE_GRANT < demand + 4 → 
      Completes (.budgetBid d demand) s (fun t =>
        t.regs = s.regs ∧ Tab.look t.pkg.bids d = some demand)) ∧
  (∀ (s : State) (d : Fin 12) (g : Nat), Tab.look s.pkg.grants d = some g → g ≤ 248 → 
      Completes (.budgetGrant d) s (fun t =>
        t.rd (Reg.PWR_DIE d) F.PWR_DIE_GRANT = g ∧ Tab.look t.pkg.grants d = none ∧
         t.rd (Reg.RCC_CCLK d) F.RCC_CCLK_TARGET = s.fastest d g)) ∧
  (∀ (s : State) (d : Fin 12) (k : Fin 18), s.on (Reg.RCC_CCLK d) F.RCC_CCLK_MOVING = true → 
      Completes (.cclkDividerSwitch d) s (fun t =>
        t.rd (Reg.RCC_CCLK d) F.RCC_CCLK_CURRENT = s.rd (Reg.RCC_CCLK d) F.RCC_CCLK_TARGET ∧
         t.on (Reg.RCC_CCLK d) F.RCC_CCLK_MOVING = false ∧
         (s.rd (Reg.RCC_CCLK d) F.RCC_CCLK_TARGET ≠ 0 → (t.hart (18 * d + k)).wakeHeld = false))) ∧
  (∀ (s : State) (d : Fin 12) (mean : Nat), s.dieActive d = true → s.rd (Reg.PWR_DIE d) F.PWR_DIE_GRANT < mean → 
      Completes (.drawMeterCheck d mean) s (fun t =>
        t.rd (Reg.RCC_CCLK d) F.RCC_CCLK_TARGET = min 7 (s.rd (Reg.RCC_CCLK d) F.RCC_CCLK_CURRENT + 1))) ∧
  (∀ (s : State) (d : Fin 12) (mean : Nat), mean ≤ s.rd (Reg.PWR_DIE d) F.PWR_DIE_GRANT → 
      Completes (.drawMeterCheck d mean) s (fun t =>
        t = s)) ∧
  (∀ (s : State) (mean : Nat) (d : Fin 12), 3400 < mean ∨ (s.on Reg.PWR_PKG F.PWR_PKG_LIMITING = true ∧ 3360 ≤ mean) → 
      Completes (.packagePowerLimit mean) s (fun t =>
        t.on Reg.PWR_PKG F.PWR_PKG_LIMITING = true ∧
         (s.dieActive d = true → t.rd (Reg.RCC_CCLK d) F.RCC_CCLK_TARGET = min 7 (s.rd (Reg.RCC_CCLK d) F.RCC_CCLK_CURRENT + 1)))) ∧
  (∀ (s : State) (mean : Nat) (d : Fin 12), mean ≤ 3400 → s.on Reg.PWR_PKG F.PWR_PKG_LIMITING = false ∨ mean < 3360 → 
      Completes (.packagePowerLimit mean) s (fun t =>
        t.on Reg.PWR_PKG F.PWR_PKG_LIMITING = false ∧ t.rdW (Reg.RCC_CCLK d) = s.rdW (Reg.RCC_CCLK d))) ∧
  (∀ (s : State) (u : Nat) (m : UnitMove), u < 106 → s.pkg.moves.find? (fun m => m.unit == u && !m.up) = some m → s.unitDrained u = true → 
      Completes (.unitPowerDownDone u) s (fun t =>
        t.unitState u = 3 ∧ m ∉ t.pkg.moves ∧ (2 ∈ m.srcs → t.rd (Reg.PWR_REQ 0) F.PWR_REQ_STATUS = OS.done))) ∧
  (∀ (s : State) (u : Nat) (m : UnitMove), u < 106 → s.pkg.moves.find? (fun m => m.unit == u && m.up) = some m → 
      Completes (.unitPowerUpDone u) s (fun t =>
        t.unitState u = 5 ∧ m ∉ t.pkg.moves ∧ (2 ∈ m.srcs → t.rd (Reg.PWR_REQ 0) F.PWR_REQ_STATUS = OS.done))) ∧
  (∀ (s : State) (u : Nat) (m : UnitMove), u < 72 → s.pkg.moves.find? (fun m => m.unit == u && !m.up) = some m → 
      Completes (.unitDrainTimeout u) s (fun t =>
        t.unitState u = 5 ∧ m ∉ t.pkg.moves ∧ t.fenced (nthD clusterStops (u % 36) 0) 2 = true ∧
         t.fenced (nthD clusterStops (u % 36) 0) 3 = true ∧ (2 ∈ m.srcs → t.rd (Reg.PWR_REQ 0) F.PWR_REQ_STATUS = OS.refused))) ∧
  (∀ (s : State) (u : Nat) (m : UnitMove) (k : Fin 8), 88 ≤ u → u < 102 → s.pkg.moves.find? (fun m => m.unit == u && !m.up) = some m → 
      Completes (.unitDrainTimeout u) s (fun t =>
        t.unitState u = 5 ∧ m ∉ t.pkg.moves ∧ (t.link (8 * (u - 88) + k)).up = false ∧
         (2 ∈ m.srcs → t.rd (Reg.PWR_REQ 0) F.PWR_REQ_STATUS = OS.refused))) ∧
  (∀ (s : State) (u : Nat) (m : UnitMove), 102 ≤ u → u < 106 → s.pkg.moves.find? (fun m => m.unit == u && !m.up) = some m → 
      Completes (.unitDrainTimeout u) s (fun t =>
        t.unitState u = 5 ∧ m ∉ t.pkg.moves ∧ (2 ∈ m.srcs → t.rd (Reg.PWR_REQ 0) F.PWR_REQ_STATUS = OS.refused))) ∧
  (∀ (s : State) (m : Fin 16), (∀ w ∈ s.wq, s.paKind (128 * w.ln) = .dram → s.chanOf (128 * w.ln) ≠ m.val) → s.on (Reg.PWR_UNIT (72 + m)) F.PWR_UNIT_IDLE_SR = true → s.rd (Reg.MCH_STATUS m) F.MCH_STATUS_STATE = 3 → 
      Completes (.memIdleSelfRefresh m) s (fun t =>
        t.rd (Reg.MCH_STATUS m) F.MCH_STATUS_STATE = 4 ∧ t.pkg.idleSr.contains m.val = true))

/-- With the source's bit enabled in PWR_WAKE_EN: WAKE_PIN low sets flag 0, FX_WAKE low of port p flag 1 + p, RTC_ALARM with
an alarm set and the AON oscillator not failed flag 5, THERMAL_WAKE above THERM_HI or below THERM_LO flag 6,
SIDEBAND_ADDRESS_MATCH of the address in force in MIDNIGHT outside the handover flag 7, and PCIE_WAKE of a link that is up, the
target mode being NIGHT, outside the handover flag 8. A wake is then due where it was, and where the target mode is NIGHT or
MIDNIGHT. No other register changes but the RTC, which an alarm brings to the alarm's value at least. A pin that goes high, and a
source that is not enabled, sets no flag and changes no register. The level of a pin is kept. -/
def Obligations.WakeSourcesComplete : Prop :=
  (∀ (s : State), bitAt (s.rdW Reg.PWR_WAKE_EN).toNat 0 = true → 
      Completes (.wakePin true) s (fun t =>
        bitAt (t.rd Reg.PWR_WAKE_FLAG F.PWR_WAKE_FLAG_FIRED) 0 = true ∧ t.pkg.wakeHeld = s.wakeAsked ∧
         bitAt t.pkg.wakeLow 0 = true ∧ ∀ o, o ≠ Reg.PWR_WAKE_FLAG → t.rdW o = s.rdW o)) ∧
  (∀ (s : State) (low : Bool), low = false ∨ bitAt (s.rdW Reg.PWR_WAKE_EN).toNat 0 = false → 
      Completes (.wakePin low) s (fun t =>
        t.regs = s.regs ∧ t.pkg.wakeHeld = s.pkg.wakeHeld ∧ bitAt t.pkg.wakeLow 0 = low)) ∧
  (∀ (s : State) (p : Fin 4), bitAt (s.rdW Reg.PWR_WAKE_EN).toNat (1 + p) = true → 
      Completes (.fxWake p true) s (fun t =>
        bitAt (t.rd Reg.PWR_WAKE_FLAG F.PWR_WAKE_FLAG_FIRED) (1 + p) = true ∧ t.pkg.wakeHeld = s.wakeAsked ∧
         bitAt t.pkg.wakeLow (1 + p) = true ∧ ∀ o, o ≠ Reg.PWR_WAKE_FLAG → t.rdW o = s.rdW o)) ∧
  (∀ (s : State) (p : Fin 4) (low : Bool), low = false ∨ bitAt (s.rdW Reg.PWR_WAKE_EN).toNat (1 + p) = false → 
      Completes (.fxWake p low) s (fun t =>
        t.regs = s.regs ∧ t.pkg.wakeHeld = s.pkg.wakeHeld ∧ bitAt t.pkg.wakeLow (1 + p) = low)) ∧
  (∀ (s : State), bitAt (s.rdW Reg.PWR_WAKE_EN).toNat 5 = true → s.rdW Reg.PWR_RTC_ALARM ≠ 0 → s.on Reg.PWR_WAKE_FLAG F.PWR_WAKE_FLAG_AON_OSC_FAIL = false → 
      Completes (.rtcAlarm) s (fun t =>
        bitAt (t.rd Reg.PWR_WAKE_FLAG F.PWR_WAKE_FLAG_FIRED) 5 = true ∧ t.pkg.wakeHeld = s.wakeAsked ∧
         (s.rdW Reg.PWR_RTC_ALARM).toNat ≤ (t.rdW Reg.PWR_RTC).toNat ∧
         ∀ o, o ≠ Reg.PWR_WAKE_FLAG → o ≠ Reg.PWR_RTC → t.rdW o = s.rdW o)) ∧
  (∀ (s : State) (temp : Int), bitAt (s.rdW Reg.PWR_WAKE_EN).toNat 6 = true → 16 * toSigned 8 (s.rd Reg.PWR_WAKE_EN F.PWR_WAKE_EN_THERM_HI) < temp ∨ temp < 16 * toSigned 8 (s.rd Reg.PWR_WAKE_EN F.PWR_WAKE_EN_THERM_LO) → 
      Completes (.thermalWake temp) s (fun t =>
        bitAt (t.rd Reg.PWR_WAKE_FLAG F.PWR_WAKE_FLAG_FIRED) 6 = true ∧ t.pkg.wakeHeld = s.wakeAsked ∧ t.sensor 96 = temp ∧
         ∀ o, o ≠ Reg.PWR_WAKE_FLAG → t.rdW o = s.rdW o)) ∧
  (∀ (s : State) (addr : Nat), bitAt (s.rdW Reg.PWR_WAKE_EN).toNat 7 = true → s.mode = MD.midnight → addr = s.pmc.cmpAddr → 
      Completes (.sidebandAddressMatch addr false) s (fun t =>
        bitAt (t.rd Reg.PWR_WAKE_FLAG F.PWR_WAKE_FLAG_FIRED) 7 = true ∧ t.pkg.wakeHeld = s.wakeAsked ∧
         ∀ o, o ≠ Reg.PWR_WAKE_FLAG → t.rdW o = s.rdW o)) ∧
  (∀ (s : State) (j : Fin 112), bitAt (s.rdW Reg.PWR_WAKE_EN).toNat 8 = true → s.rd Reg.PKG_MODE F.PKG_MODE_TARGET = MD.night → (s.link j).up = true → 
      Completes (.pcieWake j false) s (fun t =>
        bitAt (t.rd Reg.PWR_WAKE_FLAG F.PWR_WAKE_FLAG_FIRED) 8 = true ∧ t.pkg.wakeHeld = true ∧
         ∀ o, o ≠ Reg.PWR_WAKE_FLAG → t.rdW o = s.rdW o))

/-- For an identity that reaches the world's register set: CTU_BEGIN with no transaction of the world open in the
wider sense opens one with its tag and nothing staged; CTU_COMMIT with the open tag and no overflow leaves none open, and with
something staged and nothing before it hands the transaction over for checking, and with nothing staged ends it at once with
RESULT OK; CTU_ROLLBACK with the tag of a transaction that accepts staged writes leaves none open, and with that of one that is
being checked takes it out of the CTU, makes RESULT rolled back and changes no register but the two status registers.
CTU_TIMEOUT of an open transaction discards it with RESULT TIMEOUT and raises the world's event. COMMIT_TURN takes the oldest
waiting transaction when none is in hand. CTU_CHECK_DONE, no register failing, turns to applying with the blocks that have staged
fields; with failing registers it changes no register but the CTU's own, ends the transaction with RESULT
MISMATCH, and raises the event. CTU_APPLY tells one of those blocks. BLOCK_APPLY of a told block at a quiet point
takes it off the list; of an engine slice, OFFLINE takes its staged value, and STATE with a change of it. CTU_APPLY_COMPLETE,
nothing outstanding, ends the transaction with RESULT OK. -/
def Obligations.TransactionsComplete : Prop :=
  (∀ (s : State) (who : Ident) (w : World) (tag : Nat), ctuReach who w = true → s.ctu.busy w = false → 
      Completes (.ctuBegin who w tag) s (fun t =>
        t.ctu = s.ctu.setOpen w (some ⟨w, tag % 65536, false, [], false⟩) ∧
         t.rd (Reg.CTU_STATUS (worldBit w)) F.CTU_STATUS_TAG = tag % 65536 ∧ t.resp = .ok 0)) ∧
  (∀ (s : State) (who : Ident) (w : World) (tag : Nat) (x : Txn), ctuReach who w = true → s.ctu.openOf w = some x → x.tag = tag % 65536 → x.full = false → x.staged ≠ [] → s.ctu.active = none → s.ctu.waiting = [] → 
      Completes (.ctuCommit who w tag) s (fun t =>
        t.ctu.active = some x ∧ t.ctu.applying = false ∧ t.ctu.openOf w = none ∧ t.resp = .ok 0)) ∧
  (∀ (s : State) (who : Ident) (w : World) (tag : Nat) (x : Txn), ctuReach who w = true → s.ctu.openOf w = some x → x.tag = tag % 65536 → x.full = false → x.staged = [] → 
      Completes (.ctuCommit who w tag) s (fun t =>
        t.ctu.openOf w = none ∧ t.rd (Reg.CTU_STATUS (worldBit w)) F.CTU_STATUS_RESULT = 1 ∧ t.resp = .ok 0)) ∧
  (∀ (s : State) (who : Ident) (w : World) (tag : Nat) (x : Txn), ctuReach who w = true → s.ctu.openOf w = some x → x.tag = tag % 65536 → 
      Completes (.ctuRollback who w tag) s (fun t =>
        t.ctu.openOf w = none ∧ t.rd (Reg.CTU_STATUS (worldBit w)) F.CTU_STATUS_RESULT = 7 ∧ t.resp = .ok 0 ∧
         ∀ o, o ≠ Reg.CTU_STATUS 0 → o ≠ Reg.CTU_STATUS 1 → t.rdW o = s.rdW o)) ∧
  (∀ (s : State) (who : Ident) (w : World) (tag : Nat) (x : Txn), ctuReach who w = true → s.ctu.openOf w = none → s.ctu.active = some x → s.ctu.applying = false → x.world = w → x.implicit = false → x.tag = tag % 65536 → 
      Completes (.ctuRollback who w tag) s (fun t =>
        t.ctu.active = none ∧ t.rd (Reg.CTU_STATUS (worldBit w)) F.CTU_STATUS_RESULT = 7 ∧ t.resp = .ok 0 ∧
         ∀ o, o ≠ Reg.CTU_STATUS 0 → o ≠ Reg.CTU_STATUS 1 → t.rdW o = s.rdW o)) ∧
  (∀ (s : State) (w : World), (s.ctu.openOf w).isSome = true → 
      Completes (.ctuTimeout w) s (fun t =>
        t.ctu.openOf w = none ∧ t.rd (Reg.CTU_STATUS (worldBit w)) F.CTU_STATUS_RESULT = 3 ∧
         t.wires = s.wires ++ [if w = .s then 383 else 384])) ∧
  (∀ (s : State) (x : Txn) (l : List Txn), s.ctu.active = none → s.ctu.waiting = x :: l → 
      Completes (.commitTurn) s (fun t =>
        t.ctu.active = some x ∧ t.ctu.waiting = l ∧ t.ctu.applying = false)) ∧
  (∀ (s : State) (x : Txn), s.ctu.active = some x → s.ctu.applying = false → s.checkFails x = [] → 
      Completes (.ctuCheckDone) s (fun t =>
        t.ctu.active = some x ∧ t.ctu.applying = true ∧ t.ctu.todo = s.blocksOf x ∧ t.ctu.sent = [])) ∧
  (∀ (s : State) (x : Txn), s.ctu.active = some x → s.ctu.applying = false → s.checkFails x ≠ [] → 
      Completes (.ctuCheckDone) s (fun t =>
        t.ctu.active = none ∧ t.rd (Reg.CTU_STATUS (worldBit x.world)) F.CTU_STATUS_RESULT = 2 ∧
         t.wires = s.wires ++ [if x.world = .s then 383 else 384] ∧
         ∀ o, o ≠ Reg.CTU_STATUS 0 → o ≠ Reg.CTU_STATUS 1 → o ≠ Reg.CTU_FAIL 0 → o ≠ Reg.CTU_FAIL 1 → t.rdW o = s.rdW o)) ∧
  (∀ (s : State) (b : Block), s.ctu.applying = true → b ∈ s.ctu.todo → 
      Completes (.ctuApply b) s (fun t =>
        t.ctu.sent = s.ctu.sent ++ [b] ∧ b ∉ t.ctu.todo)) ∧
  (∀ (s : State) (b : Block) (x : Txn), s.ctu.active = some x → s.ctu.applying = true → b ∈ s.ctu.sent → s.quiet b = true → 
      Completes (.blockApply b) s (fun t =>
        b ∉ t.ctu.sent ∧ t.ctu.active = some x)) ∧
  (∀ (s : State) (n : Fin 36) (x : Txn) (v : Nat), s.ctu.active = some x → s.ctu.applying = true → .slice n ∈ s.ctu.sent → s.sliceBusy n = false → Tab.look x.staged (Reg.SLC_CTRL n) = some (v, 1) → 
      Completes (.blockApply (.slice n)) s (fun t =>
        t.on (Reg.SLC_CTRL n) F.SLC_CTRL_OFFLINE = v.testBit 0 ∧
         (s.on (Reg.SLC_CTRL n) F.SLC_CTRL_OFFLINE ≠ v.testBit 0 →
           t.rd (Reg.SLC_STATUS n) F.SLC_STATUS_STATE = if v.testBit 0 then 3 else 0))) ∧
  (∀ (s : State) (x : Txn), s.ctu.active = some x → s.ctu.applying = true → s.ctu.todo = [] → s.ctu.sent = [] → s.commitSweeps = false → 
      Completes (.ctuApplyComplete) s (fun t =>
        t.ctu.active = none ∧ t.rd (Reg.CTU_STATUS (worldBit x.world)) F.CTU_STATUS_RESULT = 1 ∧ t.wires = s.wires))

/-- SWEEP_DONE of a home with no line and no request waiting, whose one hold is not of a share that moves back: a range
operation's is marked done once nothing of the range is in service or in flight, a commit's goes. SHARE_HANDBACK of a share
that a substitute holds, every router having applied the commit and nothing of it being in service there, releases the hold
at both homes, which hold nothing else. ZERO_FILL_DONE of a filling region clears FILLING and raises its event. AGENT_DRAINED
of a fenced agent that holds nothing accepted or in injection sets its DRAINED bit. FLIT_ROUTE of a one-flit response that
its source may inject and that wins: at its own stop, to the management agent, not fenced, it is ejected (answer 4), and no
router table or epoch's count changes; to another stop it goes into the buffer behind the link (answer the output, plus 8 on
VC 1). So does the oldest flit of a buffer that wins, leaving its buffer. A flit of no listed code from a buffer is discarded
with a cut-off record, cause 3, and the event of its source stop; one not to be injected, or that does not win, stays and
changes nothing. One that fails its link's check stays, with an error answer, and counts; at the fifth in a row, the rest of
the ring being up, the link is marked down. GRANT_HOLD_CUTOFF of a packet that holds the injection port, or an output link's
virtual channel, of the router releases what it held, and records cause 1 and its source stop where none is recorded; a
packet that held only a link's channel gets a closing flit there, poisoned and last. CFG_HOLD_CUTOFF of a hart's register
access sends it CUT_OFF and records cause 5 likewise. CREDIT returns one credit of a sender, receiver and stage, and no
other. RSP_ERROR of any code in flight to a hart with an access outstanding is taken and ends it as the exception of its
kind; to a PCIe link that is up it answers the read as failed. TRANSACTION_TIMEOUT ends such an access, and answers such a
read, in the same way. -/
def Obligations.SweepsAndNetworkComplete : Prop :=
  (∀ (s : State) (n : Fin 64) (r : Hold), s.home n = { Home.empty with holds := [r] } → r.done = false → r.kind ≤ 1 → (∀ m ∈ s.net, m.home = n.val → ¬(r.lo ≤ m.ln ∧ m.ln ≤ r.hi)) → 
      Completes (.sweepDone n) s (fun t =>
        (t.home n).holds = [{ r with done := true }])) ∧
  (∀ (s : State) (n : Fin 64) (r : Hold), s.home n = { Home.empty with holds := [r] } → r.done = false → r.kind = 2 ∨ r.kind = 4 → 
      Completes (.sweepDone n) s (fun t =>
        (t.home n).holds = [])) ∧
  (∀ (s : State) (k q : Fin 64), k ≠ q → s.routersDone = true → s.homeQuiet q (fun ln => hashHome (128 * ln) == k.val) = true → s.home k = { Home.empty with holds := [⟨k.val, q.val, 3, 0, false⟩] } → s.home q = { Home.empty with holds := [⟨k.val, q.val, 3, 0, false⟩] } → 
      Completes (.shareHandback k) s (fun t =>
        (t.home k).holds = [] ∧ (t.home q).holds = [])) ∧
  (∀ (s : State) (r : Fin 256), s.rd (Reg.FW_ATTR r) F.FW_ATTR_FILLING = 1 → 
      Completes (.zeroFillDone r) s (fun t =>
        t.rd (Reg.FW_ATTR r) F.FW_ATTR_FILLING = 0 ∧ t.wires = s.wires ++ [385])) ∧
  (∀ (s : State) (n : Fin 64) (a : Fin 16), s.fenced n a = true → s.agentIdle n a = true → 
      Completes (.agentDrained n a) s (fun t =>
        t.fenced n a = true ∧ bitAt (t.rd (Reg.RTR_FENCE n) F.RTR_FENCE_DRAINED) a = true)) ∧
  (∀ (s : State) (f : Flit) (first : Nat) (err : LinkErr), f.cls = 2 → f.op = 0x41 → f.dst = f.src → f.dstAgent = 14 → f.index = 0 → f.last = true → s.fenced f.src 14 = false → flitHeader (s.stamped f.src f) ∉ s.fabric.closed → s.mayInject f.src (s.stamped f.src f) = true → s.waits f.src .inject (s.stamped f.src f) injReq = false → s.fabric.cut.contains (f.src.val, flitHeader (s.stamped f.src f)) = false → 
      Completes (.flitRoute f.src ⟨.inject, err⟩ f first) s (fun t =>
        t.resp = .ok 4 ∧ (∀ e, Tab.get 0 t.pkts e = Tab.get 0 s.pkts e) ∧ ∀ (n k : Fin 64), t.rdW (Reg.RTR_TTA n k) = s.rdW (Reg.RTR_TTA n k))) ∧
  (∀ (s : State) (n : Fin 64) (f g : Flit) (first : Nat) (err : LinkErr) (o : OutPort), g = s.stamped n f → s.outOf n .inject g = .ok o → o ≠ .eject → s.mayInject n g = true → s.waits n .inject g injReq = false → s.fabric.cut.contains (n.val, flitHeader g) = false → 
      Completes (.flitRoute n ⟨.inject, err⟩ f first) s (fun t =>
        t.resp = .ok (o.num + 8 * outVc n .inject o g.vc) ∧
         t.buf (nextBuf n o g.cls (outVc n .inject o g.vc)) =
           s.buf (nextBuf n o g.cls (outVc n .inject o g.vc)) ++ [{ g with vc := outVc n .inject o g.vc }])) ∧
  (∀ (s : State) (n : Fin 64) (arr : Arrival) (f : Flit) (first p : Nat) (o : OutPort), arrPort arr = some p → s.buf (bufKey n p f.cls f.vc) = [f] → s.outOf n arr f = .ok o → o ≠ .eject → s.waits n arr f (bufKey n p f.cls f.vc % 64) = false → s.fabric.cut.contains (n.val, flitHeader f) = false → 
      Completes (.flitRoute n ⟨arr, .none⟩ f first) s (fun t =>
        t.resp = .ok (o.num + 8 * outVc n arr o f.vc) ∧ t.buf (bufKey n p f.cls f.vc) = [] ∧
         t.buf (nextBuf n o f.cls (outVc n arr o f.vc)) =
           s.buf (nextBuf n o f.cls (outVc n arr o f.vc)) ++ [{ f with vc := outVc n arr o f.vc }])) ∧
  (∀ (s : State) (n : Fin 64) (arr : Arrival) (f : Flit) (first : Nat), arr ≠ .inject → s.flitStands n arr f = true → s.fabric.cut.contains (n.val, flitHeader f) = false → msgCoded f.cls f.op = false → f.index = 0 → f.cls = 2 → s.rd (Reg.RTR_CUT n) F.RTR_CUT_VALID = 0 → 
      Completes (.flitRoute n ⟨arr, .none⟩ f first) s (fun t =>
        t.rd (Reg.RTR_CUT n) F.RTR_CUT_VALID = 1 ∧ t.rd (Reg.RTR_CUT n) F.RTR_CUT_CAUSE = 3 ∧
         t.wires = s.wires ++ [161 + f.src.val] ∧ t.resp = .error)) ∧
  (∀ (s : State) (n : Fin 64) (arr : Arrival) (f : Flit) (first p : Nat), arrPort arr = some p → s.waits n arr f (bufKey n p f.cls f.vc % 64) = true → 
      Completes (.flitRoute n ⟨arr, .none⟩ f first) s (fun t =>
        t = s)) ∧
  (∀ (s : State) (n : Fin 64) (f : Flit) (first : Nat) (err : LinkErr), s.mayInject n (s.stamped n f) = false ∨ s.waits n .inject (s.stamped n f) injReq = true → 
      Completes (.flitRoute n ⟨.inject, err⟩ f first) s (fun t =>
        t = s)) ∧
  (∀ (s : State) (n : Fin 64) (arr : Arrival) (f : Flit) (first u k : Nat), linkInto n arr = some (u, k) → s.flitStands n arr f = true → Tab.get 0 s.fabric.fails (4 * u + k) < 4 → 
      Completes (.flitRoute n ⟨arr, .double false⟩ f first) s (fun t =>
        t.resp = .error ∧ Tab.get 0 t.fabric.fails (4 * u + k) = Tab.get 0 s.fabric.fails (4 * u + k) + 1 ∧
         t.fabric.bufs = s.fabric.bufs ∧ t.net = s.net)) ∧
  (∀ (s : State) (n : Fin 64) (arr : Arrival) (f : Flit) (first u k : Nat), linkInto n arr = some (u, k) → s.flitStands n arr f = true → 4 ≤ Tab.get 0 s.fabric.fails (4 * u + k) → s.ringDown u k = 0 → 
      Completes (.flitRoute n ⟨arr, .double false⟩ f first) s (fun t =>
        bitAt (t.rd (Reg.RTR_NET u) F.RTR_NET_LINK_DOWN) k = true ∧ Tab.get 0 t.fabric.fails (4 * u + k) = 0)) ∧
  (∀ (s : State) (n : Fin 64) (f g : Flit), (injKey n, g) ∈ s.fabric.part → samePacket g f = true → s.rd (Reg.RTR_CUT n) F.RTR_CUT_VALID = 0 → 
      Completes (.grantHoldCutoff n f) s (fun t =>
        t.rd (Reg.RTR_CUT n) F.RTR_CUT_VALID = 1 ∧ t.rd (Reg.RTR_CUT n) F.RTR_CUT_CAUSE = 1 ∧
         t.rd (Reg.RTR_CUT n) F.RTR_CUT_SRC = f.src.val ∧ (injKey n, g) ∉ t.fabric.part)) ∧
  (∀ (s : State) (n : Fin 64) (f g : Flit) (o : OutPort), o ≠ .eject → s.fabric.part = [(outKey n o.num, g)] → samePacket g f = true → s.rd (Reg.RTR_CUT n) F.RTR_CUT_VALID = 0 → 
      Completes (.grantHoldCutoff n f) s (fun t =>
        t.rd (Reg.RTR_CUT n) F.RTR_CUT_VALID = 1 ∧ t.rd (Reg.RTR_CUT n) F.RTR_CUT_CAUSE = 1 ∧
         t.rd (Reg.RTR_CUT n) F.RTR_CUT_SRC = f.src.val ∧ t.fabric.part = [] ∧
         ∃ c : Flit, t.buf (nextBuf n o g.cls g.vc) = s.buf (nextBuf n o g.cls g.vc) ++ [c] ∧ c.poison = true ∧ c.last = true ∧
           c.index = g.index + 1)) ∧
  (∀ (s : State) (n : Fin 64) (h : Fin 216) (tag : Nat) (a : IoAccess), (s.hart h).io = some a → s.paKind a.pa = .window → s.rd (Reg.RTR_CUT n) F.RTR_CUT_VALID = 0 → 
      Completes (.cfgHoldCutoff n h tag) s (fun t =>
        t.rd (Reg.RTR_CUT n) F.RTR_CUT_VALID = 1 ∧ t.rd (Reg.RTR_CUT n) F.RTR_CUT_CAUSE = 5 ∧ t.resp = s.resp ∧
         t.net = s.net ++ [s.stamp ⟨.rspError 3, 0, n, hartAgent h, noData, (s.hart h).ident, 0⟩])) ∧
  (∀ (s : State) (a b : Fin 64) (k : Nat), 
      Completes (.credit a b k) s (fun t =>
        Tab.get 0 t.credits (32 * (64 * a + b) + k) = Tab.get 0 s.credits (32 * (64 * a + b) + k) - 1 ∧
         ∀ j, j ≠ 32 * (64 * a.val + b.val) + k → Tab.get 0 t.credits j = Tab.get 0 s.credits j)) ∧
  (∀ (s : State) (h : Fin 216) (a : IoAccess) (code : Nat) (m : Msg), (s.hart h).io = some a → s.arriving (fun _ => false) (fun m => m.kind == .rspError code && m.agent == hartAgent h) = some m → (s.cluster (hartCluster h)).held = [] → 
      Completes (.rspError (.hart h) code) s (fun t =>
        t.net = s.net.erase m ∧ (t.hart h).io = none ∧
         t.hart h = ((s.setHart h { s.hart h with io := none }).except h (if a.write.isSome then Exc.storeAccess else Exc.loadAccess) a.va).hart h)) ∧
  (∀ (s : State) (j : Fin 112) (tag code : Nat), (s.link j).up = true → 
      Completes (.rspError (.link j tag) code) s (fun t =>
        t.out = s.out ++ [.pcieCpl j tag none])) ∧
  (∀ (s : State) (h : Fin 216) (a : IoAccess), (s.hart h).io = some a → 
      Completes (.transactionTimeout (.answer (.hart h))) s (fun t =>
        (t.hart h).io = none)) ∧
  (∀ (s : State) (j : Fin 112) (tag : Nat), (s.link j).up = true → 
      Completes (.transactionTimeout (.answer (.link j tag))) s (fun t =>
        t.out = s.out ++ [.pcieCpl j tag none]))

/-- Of a line of memory whose home is not fenced, has a tracker free and has nothing of the line (no transaction, waiting
request, hold, L3 copy or directory entry), and whose firewall region grants the access. Of a cluster, not fenced, that has the
request waiting to be sent and no eviction of the line outstanding: RD_SHARED, RD_NOEXCL, RD_UNIQUE and UPGRADE, a directory way being
free to the partition, mark the request accepted and send one read of the line to memory, put last among the messages in
flight; ZERO_UNIQUE so answers RSP_GRANT at once; CMO_CLEAN and CMO_FLUSH answer RSP_WDONE. RD_NOEXCL of the ring manager,
agent 36, of a line it is to read again, not under way, its region granting the read to the line's owner, sends one read to memory
too. Of a non-caching agent, the senders of its stop not all fenced: RD_NOALLOC sends one read to memory; WR_FULL queues a
write of the whole line, its data made 128 bytes long, and answers RSP_WDONE; WR_MASK queues the masked write and answers
RSP_WDONE. -/
def Obligations.CoherenceRequestsComplete : Prop :=
  (∀ (s : State) (c : Fin 36) (ln n : Nat) (r : CReq), s.asks c .rdShared ln n r → (s.dirRoom n ln r.who.pid).isLeft = true → 
      Completes (.rdShared c ln) s (fun t =>
        t.net = s.net ++ [s.stamp ⟨.memRead, ln, n, c, noData, r.who, 0⟩] ∧ (t.cluster c).reqs = s.reqsSent c r)) ∧
  (∀ (s : State) (c : Fin 36) (ln n : Nat) (r : CReq), s.asks c .rdNoexcl ln n r → (s.dirRoom n ln r.who.pid).isLeft = true → 
      Completes (.rdNoexcl (c.castSucc) ln) s (fun t =>
        t.net = s.net ++ [s.stamp ⟨.memRead, ln, n, c, noData, r.who, 0⟩] ∧ (t.cluster c).reqs = s.reqsSent c r)) ∧
  (∀ (s : State) (ln n : Nat), s.dbInval.contains ln = true → s.watchBusy ln = false → s.fenced rmgStop 12 = false → s.homeFor rmgStop ln = n → s.homeOpen n ln → s.isMem (128 * ln) = true → s.fwGrants (s.lineWho ln) (128 * ln) false = true → (s.dirRoom n ln (s.lineWho ln).pid).isLeft = true → 
      Completes (.rdNoexcl 36 ln) s (fun t =>
        t.net = s.net ++ [s.stamp ⟨.memRead, ln, n, 36, noData, s.lineWho ln, 0⟩])) ∧
  (∀ (s : State) (c : Fin 36) (ln n : Nat) (r : CReq), s.asks c .rdUnique ln n r → (s.dirRoom n ln r.who.pid).isLeft = true → 
      Completes (.rdUnique c ln) s (fun t =>
        t.net = s.net ++ [s.stamp ⟨.memRead, ln, n, c, noData, r.who, 0⟩] ∧ (t.cluster c).reqs = s.reqsSent c r)) ∧
  (∀ (s : State) (c : Fin 36) (ln n : Nat) (r : CReq), s.asks c .upgrade ln n r → (s.dirRoom n ln r.who.pid).isLeft = true → 
      Completes (.upgrade c ln) s (fun t =>
        t.net = s.net ++ [s.stamp ⟨.memRead, ln, n, c, noData, r.who, 0⟩] ∧ (t.cluster c).reqs = s.reqsSent c r)) ∧
  (∀ (s : State) (c : Fin 36) (ln n : Nat) (r : CReq), s.asks c .zeroUnique ln n r → (s.dirRoom n ln r.who.pid).isLeft = true → 
      Completes (.zeroUnique c ln) s (fun t =>
        t.net = s.net ++ [s.stamp ⟨.rspGrant, ln, n, c, noData, r.who, 0⟩] ∧ (t.cluster c).reqs = s.reqsSent c r)) ∧
  (∀ (s : State) (c : Fin 36) (ln n : Nat) (r : CReq), s.asks c .cmoClean ln n r → 
      Completes (.cmoClean c ln) s (fun t =>
        t.net = s.net ++ [s.stamp ⟨.rspWdone, ln, n, c, noData, r.who, 0⟩] ∧ (t.cluster c).reqs = s.reqsSent c r)) ∧
  (∀ (s : State) (c : Fin 36) (ln n : Nat) (r : CReq), s.asks c .cmoFlush ln n r → 
      Completes (.cmoFlush c ln) s (fun t =>
        t.net = s.net ++ [s.stamp ⟨.rspWdone, ln, n, c, noData, r.who, 0⟩] ∧ (t.cluster c).reqs = s.reqsSent c r)) ∧
  (∀ (s : State) (a : Fin 64) (who : Ident) (ln n : Nat), s.asksNc a who ln n false → 
      Completes (.rdNoalloc a who ln) s (fun t =>
        t.net = s.net ++ [s.stamp ⟨.memRead, ln, n, nonCaching a, noData, who, 0⟩])) ∧
  (∀ (s : State) (a : Fin 64) (who : Ident) (ln n : Nat) (data : List Byte), s.asksNc a who ln n true → 
      Completes (.wrFull a who ln data) s (fun t =>
        t.net = s.net ++ [s.stamp ⟨.rspWdone, ln, n, nonCaching a, noData, who, 0⟩] ∧
         ∃ f : Bool, ⟨ln, fitB 128 data, 2 ^ 128 - 1, false, .home, f, some who⟩ ∈ t.wq)) ∧
  (∀ (s : State) (a : Fin 64) (who : Ident) (ln n : Nat) (data : List Byte) (mask : Nat), s.asksNc a who ln n true → 
      Completes (.wrMask a who ln data mask) s (fun t =>
        t.net = s.net ++ [s.stamp ⟨.rspWdone, ln, n, nonCaching a, noData, who, 0⟩] ∧
         ∃ f : Bool, ⟨ln, data, mask, false, .home, f, some who⟩ ∈ t.wq))

/-- A message is the first in flight of its kind, line and agent, with none ahead that must be delivered before it; it is
taken out of flight. WB_DIRTY, not consumed already, reaches an unfenced home that serves nothing of the line and has the cluster
as its owner: the directory entry goes and WB_ACK is sent. EVICT_CLEAN reaches an unfenced home that serves nothing of the line:
from its owner, or its only holder in S, the entry goes, and from one of several holders named without overflow, that one
goes from the entry; WB_ACK is sent. SNP_SHARE, SNP_PEEK and SNP_INVAL at an unfenced cluster that holds the line, to
which no grant of it is in flight and of which, for SNP_INVAL, no reservation holds it, are answered DAT_DIRTY with the line's
data where it is in M and RSP_S otherwise; SNP_SHARE leaves it S, SNP_PEEK as it was, SNP_INVAL takes it. One that meets
neither the line nor an eviction of it is answered RSP_I. SNP_INVAL at the ring manager, not fenced, no grant being in flight to
it, whose watch cache holds the line, answers RSP_S, drops the line and has it read again. RSP_I, RSP_S, RSP_WBIF and DAT_DIRTY
from an agent, to an unfenced home whose transaction awaits that agent's answer and another, and which no eviction of the agent has
overtaken, leave the transaction waiting: RSP_I strikes the agent off; RSP_S also records that it kept its copy;
DAT_DIRTY also takes its data; RSP_WBIF records that half of the crossing has come. -/
def Obligations.EvictionsAndSnoopsComplete : Prop :=
  (∀ (s : State) (c : Fin 36) (ln : Nat) (m : Msg) (e : DirEnt), s.comes .wbDirty c ln m → s.fenced m.home 0 = false → ((s.cluster c).evicting ln).any (·.taken) = false → (s.home m.home).txn ln = none → (s.home m.home).dirOf ln = some e → e.x = true → e.ptrs.contains c.val = true → 
      Completes (.wbDirty c ln) s (fun t =>
        t.net = s.net.erase m ++ [s.stamp ⟨.wbAck, ln, m.home, c, noData, m.who, 0⟩] ∧ (t.home m.home).dirOf ln = none)) ∧
  (∀ (s : State) (c : Fin 37) (ln : Nat) (m : Msg) (e : DirEnt), s.comes .evictClean c ln m → s.fenced m.home 0 = false → (s.home m.home).txn ln = none → (s.home m.home).dirOf ln = some e → (e.x = true ∧ e.ptrs.contains c.val = true) ∨ (e.x = false ∧ e.ovf = false ∧ e.ptrs.filter (· != c.val) = []) → 
      Completes (.evictClean c ln) s (fun t =>
        t.net = s.net.erase m ++ [s.stamp ⟨.wbAck, ln, m.home, c, noData, m.who, 0⟩] ∧ (t.home m.home).dirOf ln = none)) ∧
  (∀ (s : State) (c : Fin 37) (ln : Nat) (m : Msg) (e : DirEnt), s.comes .evictClean c ln m → s.fenced m.home 0 = false → (s.home m.home).txn ln = none → (s.home m.home).dirOf ln = some e → e.x = false → e.ovf = false → e.ptrs.filter (· != c.val) ≠ [] → 
      Completes (.evictClean c ln) s (fun t =>
        t.net = s.net.erase m ++ [s.stamp ⟨.wbAck, ln, m.home, c, noData, m.who, 0⟩] ∧
         (t.home m.home).dirOf ln = some { e with ptrs := e.ptrs.filter (· != c.val) })) ∧
  (∀ (s : State) (a : Fin 37) (ln : Nat) (m : Msg) (k : Nat) (x : L2Line), s.comesSnp .share a ln m → a.val < 36 → s.fenced (agentStop a) 2 = false → s.grantInFlight a ln = false → (s.cluster a).find ln = some (k, x) → 
      Completes (.snpShare a ln) s (fun t =>
        t.net = s.net.erase m ++ [s.stamp ⟨if x.st = .m then .datDirty else .rspS, ln, m.home, a, if x.st = .m then x.data else noData, m.who, 0⟩] ∧
         ((t.cluster a).find ln).map (·.2) = some { x with st := .s })) ∧
  (∀ (s : State) (a : Fin 37) (ln : Nat) (m : Msg) (k : Nat) (x : L2Line), s.comesSnp .peek a ln m → a.val < 36 → s.fenced (agentStop a) 2 = false → s.grantInFlight a ln = false → (s.cluster a).find ln = some (k, x) → 
      Completes (.snpPeek a ln) s (fun t =>
        t.net = s.net.erase m ++ [s.stamp ⟨if x.st = .m then .datDirty else .rspS, ln, m.home, a, if x.st = .m then x.data else noData, m.who, 0⟩] ∧
         (t.cluster a).find ln = some (k, x))) ∧
  (∀ (s : State) (a : Fin 37) (ln : Nat) (m : Msg) (k : Nat) (x : L2Line), s.comesSnp .inval a ln m → a.val < 36 → s.fenced (agentStop a) 2 = false → s.grantInFlight a ln = false → s.reserved a ln = false → (s.cluster a).find ln = some (k, x) → 
      Completes (.snpInval a ln) s (fun t =>
        t.net = s.net.erase m ++ [s.stamp ⟨if x.st = .m then .datDirty else .rspS, ln, m.home, a, if x.st = .m then x.data else noData, m.who, 0⟩] ∧
         (t.cluster a).find ln = none)) ∧
  (∀ (s : State) (a : Fin 37) (ln : Nat) (m : Msg), s.comesSnp .share a ln m → a.val < 36 → s.fenced (agentStop a) 2 = false → s.grantInFlight a ln = false → (s.cluster a).find ln = none → (s.cluster a).evicting ln = none → 
      Completes (.snpShare a ln) s (fun t =>
        t.net = s.net.erase m ++ [s.stamp ⟨.rspI, ln, m.home, a, noData, m.who, 0⟩])) ∧
  (∀ (s : State) (ln : Nat) (m : Msg), s.comesSnp .inval 36 ln m → s.fenced (agentStop 36) 12 = false → s.grantInFlight 36 ln = false → s.watch.contains ln = true → 
      Completes (.snpInval 36 ln) s (fun t =>
        t.net = s.net.erase m ++ [s.stamp ⟨.rspS, ln, m.home, 36, noData, m.who, 0⟩] ∧ t.watch = s.watch.erase ln ∧ ln ∈ t.dbInval)) ∧
  (∀ (s : State) (a : Fin 37) (ln : Nat) (m : Msg) (x : HTxn), s.comes .rspI a ln m → s.awaits m.home a ln x → 
      Completes (.rspI a ln) s (fun t =>
        (t.home m.home).txn ln = some { x with await := x.await.erase a } ∧ t.net = s.net.erase m)) ∧
  (∀ (s : State) (a : Fin 37) (ln : Nat) (m : Msg) (x : HTxn), s.comes .rspS a ln m → s.awaits m.home a ln x → 
      Completes (.rspS a ln) s (fun t =>
        (t.home m.home).txn ln = some { x with await := x.await.erase a, kept := x.kept ++ [a.val] } ∧ t.net = s.net.erase m)) ∧
  (∀ (s : State) (a : Fin 37) (ln : Nat) (m : Msg) (x : HTxn), s.comes .rspWbif a ln m → s.awaits m.home a ln x → 
      Completes (.rspWbif a ln) s (fun t =>
        (t.home m.home).txn ln = some { x with half := x.half ++ [a.val] } ∧ t.net = s.net.erase m)) ∧
  (∀ (s : State) (a : Fin 37) (ln : Nat) (m : Msg) (x : HTxn), s.comes .datDirty a ln m → s.awaits m.home a ln x → 
      Completes (.datDirty a ln) s (fun t =>
        (t.home m.home).txn ln = some { x with await := x.await.erase a, kept := x.kept ++ [a.val], got := some m.data } ∧
         t.net = s.net.erase m))

/-- A message is the first in flight for its command, with none ahead that must be delivered before it; it is taken out of
flight. DAT_GRANT of a non-caching reader answers with its data, or an error when it is poisoned; at an unfenced cluster that has a
request of the line, has room for it, and in which no access waits and no snoop is held, it installs the line with the grant's
state, data and identity and ends the request. RSP_GRANT at such a cluster makes the line it holds M with its data, or, for
ZERO_UNIQUE, installs the line as zeros in M, and ends the request. RSP_WDONE at a non-caching writer answers it. WB_ACK at a
cluster in which no access waits and that evicts nothing else frees the evicted line; at the ring manager it is only taken.
MEM_READ of an undamaged DRAM line, its controller not fenced and no write queued, sends the stored bytes to the home unpoisoned.
MEM_DATA at a home that waits for it for RD_NOALLOC of a live requester, not overtaken by a zero-fill, no directory entry for the
line and no request waiting, ends the transaction with DAT_GRANT to the requester carrying those data. MEM_WRITE of the oldest
queued write of a DRAM line, of the whole line and with no flip, its controller not fenced, stores its 128 bytes, takes it from the
queue and changes no other byte. MEM_WRITE_MASK likewise stores the old line with the masked bytes replaced when the line is
undamaged. -/
def Obligations.GrantsAndMemoryComplete : Prop :=
  (∀ (s : State) (a : Fin 164) (ln : Nat) (m : Msg), s.comesTo MKind.isGrant a ln m → m.kind = .datGrant none → 36 < a.val → 
      Completes (.datGrant a ln) s (fun t =>
        t.net = s.net.erase m ∧ t.resp = if m.data.poison then .error else .ok (leNat m.data.data))) ∧
  (∀ (s : State) (a : Fin 164) (ln : Nat) (m : Msg) (g : Grant), s.comesTo MKind.isGrant a ln m → m.kind = .datGrant (some g) → a.val < 36 → s.fenced (agentStop a) 2 = false → (s.cluster a).victim ln = none → (s.cluster a).reqs.any (fun r => r.ln == ln) = true → (s.cluster a).waits = [] → (s.cluster a).held = [] → 
      Completes (.datGrant a ln) s (fun t =>
        t.net = s.net.erase m ∧ ((t.cluster a).find ln).map (fun e => (e.2.st, e.2.data, e.2.who)) = some (g, m.data, m.who) ∧
         (t.cluster a).reqs = (s.cluster a).reqs.filter (fun r => r.ln != ln))) ∧
  (∀ (s : State) (c : Fin 36) (ln : Nat) (m : Msg) (r : CReq) (k : Nat) (x : L2Line), s.comesTo (· == .rspGrant) c ln m → s.fenced (agentStop c) 2 = false → (s.cluster c).reqs.find? (fun r => r.ln == ln) = some r → r.kind ≠ .zeroUnique → (s.cluster c).find ln = some (k, x) → (s.cluster c).waits = [] → (s.cluster c).held = [] → 
      Completes (.rspGrant c ln) s (fun t =>
        t.net = s.net.erase m ∧ (t.cluster c).find ln = some (k, ⟨ln, .m, x.age, x.data, m.who⟩) ∧
         (t.cluster c).reqs = (s.cluster c).reqs.filter (fun r => r.ln != ln))) ∧
  (∀ (s : State) (c : Fin 36) (ln : Nat) (m : Msg) (r : CReq), s.comesTo (· == .rspGrant) c ln m → s.fenced (agentStop c) 2 = false → (s.cluster c).reqs.find? (fun r => r.ln == ln) = some r → r.kind = .zeroUnique → (s.cluster c).victim ln = none → (s.cluster c).waits = [] → (s.cluster c).held = [] → 
      Completes (.rspGrant c ln) s (fun t =>
        t.net = s.net.erase m ∧ ((t.cluster c).find ln).map (fun e => (e.2.st, e.2.data, e.2.who)) = some (.m, ⟨zeroLine, false⟩, m.who) ∧
         (t.cluster c).reqs = (s.cluster c).reqs.filter (fun r => r.ln != ln))) ∧
  (∀ (s : State) (a : Fin 164) (ln : Nat) (m : Msg), s.comesTo (· == .rspWdone) a ln m → 36 ≤ a.val → 
      Completes (.rspWdone a ln) s (fun t =>
        t.net = s.net.erase m ∧ t.resp = .ok 0)) ∧
  (∀ (s : State) (c : Fin 37) (ln : Nat) (m : Msg), s.comesTo (· == .wbAck) c ln m → c.val < 36 → (s.cluster c).waits = [] → (s.cluster c).evict.filter (fun e => e.ln != ln) = [] → 
      Completes (.wbAck c ln) s (fun t =>
        t.net = s.net.erase m ∧ (t.cluster c).evict = [])) ∧
  (∀ (s : State) (ln : Nat) (m : Msg), s.comesTo (· == .wbAck) 36 ln m → 
      Completes (.wbAck 36 ln) s (fun t =>
        t = { s with net := s.net.erase m })) ∧
  (∀ (s : State) (n : Fin 64) (x : DevLine) (m : Msg), s.arriving (fun _ => false) (fun m => m.kind == .memRead && m.home == n.val && m.ln == x.ln) = some m → s.memOff x.ln = false → s.paKind (128 * x.ln) = .dram → s.lineDmg x.ln = [] → s.wq = [] → 
      Completes (.memRead n x) s (fun t =>
        t.net = s.net.erase m ++ [s.stamp ⟨.memData, x.ln, n, m.agent, ⟨s.memBytes (128 * x.ln) 128, false⟩, m.who, 0⟩])) ∧
  (∀ (s : State) (n : Fin 64) (ln : Nat) (x : HTxn) (m : Msg), s.arriving (fun _ => false) (fun m => m.kind == .memData && m.home == n.val && m.ln == ln) = some m → (s.home n).txns = [x] → (s.home n).waitq = [] → (s.home n).dirOf ln = none → x.req.ln = ln → x.req.kind = .rdNoalloc → x.mem = true → x.void = false → x.req.agent ≠ nobody → 
      Completes (.memData n ln) s (fun t =>
        t.net = s.net.erase m ++ [s.stamp ⟨.datGrant none, ln, n, x.req.agent, m.data, x.req.who, 0⟩] ∧ (t.home n).txns = [])) ∧
  (∀ (s : State) (ln : Nat) (w : WqEntry), s.wq.find? (fun w => w.ln == ln) = some w → w.mask % 2 ^ 128 = 2 ^ 128 - 1 → w.data.length = 128 → w.flip = false → s.memOff ln = false → s.paKind (128 * ln) = .dram → 
      Completes (.memWrite ln) s (fun t =>
        t.wq = s.wq.erase w ∧ t.memBytes (128 * ln) 128 = w.data ∧
         ∀ a, a < 128 * ln ∨ 128 * ln + 128 ≤ a → t.memB a = s.memB a)) ∧
  (∀ (s : State) (ln : Nat) (w : WqEntry), s.wq.find? (fun w => w.ln == ln) = some w → w.mask % 2 ^ 128 ≠ 2 ^ 128 - 1 → w.data.length = 128 → w.flip = false → s.memOff ln = false → s.paKind (128 * ln) = .dram → s.lineDmg ln = [] → 
      Completes (.memWriteMask ln) s (fun t =>
        t.wq = s.wq.erase w ∧ t.memBytes (128 * ln) 128 = maskMerge (s.memBytes (128 * ln) 128) w.data w.mask ∧
         ∀ a, a < 128 * ln ∨ 128 * ln + 128 ≤ a → t.memB a = s.memB a))

/-- LR_HOLD_TIMEOUT of a hart that reserves the line of the one snoop its cluster holds, no reservation whose time is not over
holding the line any more and no grant of it being in flight to the cluster, answers the snoop and holds it no longer: with the
line held, an SNP_INVAL is answered DAT_DIRTY with its data from M and RSP_S otherwise, and takes the line; with neither the line
nor an eviction of it, any is answered RSP_I. RANGE_OP of a hart's range operation of at most 512 lines at a home that has no
L3 copy and no directory entry, nothing of the range in service or in flight there, is done. RANGE_SWEEP of a large clean, the
home's one L3 line being dirty and within it and nothing being cached, in service or in flight elsewhere, leaves that line clean and
queues a write of its data. OP_DONE of a hart's range operation that home 0 holds and every home has finished frees the hart's
holds of every home, and the hart is no longer stalled. PATROL_SCRUB of an enabled, ready channel of at most 512 GiB moves POS to
the next line, from the last line to 0. -/
def Obligations.MaintenanceComplete : Prop :=
  (∀ (s : State) (h : Fin 216) (ln : Nat) (p : HeldSnp) (k : Nat) (x : L2Line), (s.hart h).resv = some ln → (s.cluster (hartCluster h)).held = [p] → p.ln = ln → p.kind = .inval → (s.cluster (hartCluster h)).find ln = some (k, x) → s.grantInFlight (hartCluster h) ln = false → (s.setHart h { s.hart h with resvLate := true }).reserved (hartCluster h) ln = false → 
      Completes (.lrHoldTimeout h) s (fun t =>
        (t.cluster (hartCluster h)).held = [] ∧ (t.cluster (hartCluster h)).find ln = none ∧
         t.net = s.net ++ [s.stamp ⟨if x.st = .m then .datDirty else .rspS, ln, p.home, hartCluster h, if x.st = .m then x.data else noData, p.who, 0⟩])) ∧
  (∀ (s : State) (h : Fin 216) (ln : Nat) (p : HeldSnp), (s.hart h).resv = some ln → (s.cluster (hartCluster h)).held = [p] → p.ln = ln → (s.cluster (hartCluster h)).find ln = none → (s.cluster (hartCluster h)).evicting ln = none → s.grantInFlight (hartCluster h) ln = false → (s.setHart h { s.hart h with resvLate := true }).reserved (hartCluster h) ln = false → 
      Completes (.lrHoldTimeout h) s (fun t =>
        (t.cluster (hartCluster h)).held = [] ∧ t.net = s.net ++ [s.stamp ⟨.rspI, ln, p.home, hartCluster h, noData, p.who, 0⟩])) ∧
  (∀ (s : State) (n : Fin 64) (h : Fin 216) (r : Hold), s.rangeAt n h = some r → (s.home n).l3 = [] → (s.home n).dir = [] → r.hi - r.lo < 512 → s.homeQuiet n (fun ln => decide (r.lo ≤ ln) && decide (ln ≤ r.hi)) = true → 
      Completes (.rangeOp n h) s (fun t =>
        (t.home n).holds = (s.home n).holds.map (fun x => if x == r then { x with done := true } else x))) ∧
  (∀ (s : State) (n : Fin 64) (r : Hold) (k : Nat) (x : L3Line), s.homes = [(n.val, { Home.empty with l3 := [(k, x)], holds := [r] })] → s.clusters = [] → s.net = [] → r.kind = 0 → r.done = false → 512 ≤ r.hi - r.lo → r.lo ≤ x.ln → x.ln ≤ r.hi → x.dirty = true → 
      Completes (.rangeSweep n) s (fun t =>
        (t.home n).l3 = [(k, { x with dirty := false })] ∧ (t.home n).holds = [r] ∧
         ∃ w ∈ t.wq, w.ln = x.ln ∧ w.data = x.data.data ∧ w.mask = 2 ^ 128 - 1 ∧ w.poison = x.data.poison ∧ w.src = .home)) ∧
  (∀ (s : State) (h : Fin 216) (n : Fin 64), s.rangeOver h = true → (s.home 0).holds.any (fun r => decide (r.kind ≤ 1) && r.ways == h.val) = true → 
      Completes (.opDone (.range h)) s (fun t =>
        (t.home n).holds = (s.home n).holds.filter (fun r => !(decide (r.kind ≤ 1) && r.ways == h.val)) ∧ (t.hart h).stalled = false)) ∧
  (∀ (s : State) (m : Fin 16) (pos cap : Nat), s.rd (Reg.MCH_SCRUB m) F.MCH_SCRUB_EN = 1 → s.rd (Reg.MCH_STATUS m) F.MCH_STATUS_STATE = 3 → s.rd (Reg.MCH_STATUS m) F.MCH_STATUS_CAP_GIB = cap → 0 < cap → s.rd (Reg.MCH_SCRUB m) F.MCH_SCRUB_POS = pos → pos < cap * 2 ^ 23 → cap ≤ 512 → 
      Completes (.patrolScrub m) s (fun t =>
        t.rd (Reg.MCH_SCRUB m) F.MCH_SCRUB_POS = if pos + 1 = cap * 2 ^ 23 then 0 else pos + 1))

/-- Of a link that is up in a mode that serves DMA, no home serving a transaction on the access's lines: PCIE_DMA_READ of an
assigned link of at most 4,096 bytes whose read succeeds answers with the bytes and their poison, leaves memory, and raises
the port's event where they are poisoned; one whose read fails, of a link not assigned, with a PASID prefix or longer answers
Unsupported Request and raises the event, the last two leaving memory; one with a wrong ECRC is not answered and raises the
event. PCIE_DMA_WRITE with a PASID prefix, of more than 512 bytes or with a wrong ECRC leaves memory and raises the event;
one of a whole plain line that its identity may write, no error armed, stores it. ATOMIC_OP of a supported size whose home
takes hold of the line answers with the old value where read and write succeed and with poison where the read finds it; one
of an unsupported size or with a PASID prefix is answered as such a read. PCIE_MSI of an assigned link to a file of a cluster
not fenced that its identity reaches sets the pending bit of identity 1 to 2,047. LINK_DOWN of a link that is up fences it
and raises the event; CXL_SURPRISE_REMOVAL of a CXL one also marks its memory removed. PCIE_LINK_UP of a link of the
bifurcation, where links train, puts it in service, as CXL just where it is Type 3, at 32 or 64 GT/s, on eight lanes or more,
and needs nothing unsupported. IO_READ of a hart's MMIO read that reaches an unfenced link in service at an unfenced port
sends it, writes the answer to the destination register, not x0, and ends it; IO_WRITE sends the write and ends it; of a hart
that does not reach it, each records the violation and ends in an access fault. PCIE_COMPLETION_TIMEOUT ends one too.
DOORBELL_INVALIDATION of a watched line not asked for takes it out of the watch cache and asks for it; one not watched is
left. DOORBELL_LINE_RETURN of a line granted that no doorbell names, with room for it, watches it; of an error, it is neither
asked for nor watched. -/
def Obligations.PciePortsComplete : Prop :=
  (∀ (s : State) (j : Fin 112) (tag addr len : Nat) (r : RdRes), s.dmaOpen j = true → s.linesFree addr len = true → s.linkValid j = true → len ≤ 4096 → ((s.pmcDma j 0 addr len).readPa (s.linkWho j) addr len).1 = r → r.res = .ok → 
      Completes (.pcieDmaRead j tag ⟨false, false, addr⟩ len) s (fun t =>
        t.out = s.out ++ [.pcieCpl j tag (some (r.bytes, r.poison))] ∧ t.mem = s.mem ∧
         (r.poison = true → 301 + j.val / 8 ∈ t.wires))) ∧
  (∀ (s : State) (j : Fin 112) (tag addr len : Nat), s.dmaOpen j = true → s.linesFree addr len = true → len ≤ 4096 → s.linkValid j = false ∨ ((s.pmcDma j 0 addr len).readPa (s.linkWho j) addr len).1.res ≠ .ok → 
      Completes (.pcieDmaRead j tag ⟨false, false, addr⟩ len) s (fun t =>
        t.out = s.out ++ [.pcieCpl j tag none] ∧ 301 + j.val / 8 ∈ t.wires)) ∧
  (∀ (s : State) (j : Fin 112) (pasid : Bool) (tag addr len : Nat), s.dmaOpen j = true → s.linesFree addr len = true → pasid = true ∨ 4096 < len → 
      Completes (.pcieDmaRead j tag ⟨pasid, false, addr⟩ len) s (fun t =>
        t.out = s.out ++ [.pcieCpl j tag none] ∧ t.wires = s.wires ++ [301 + j.val / 8] ∧ t.mem = s.mem)) ∧
  (∀ (s : State) (j : Fin 112) (pasid : Bool) (tag addr len : Nat), s.dmaOpen j = true → s.linesFree addr len = true → 
      Completes (.pcieDmaRead j tag ⟨pasid, true, addr⟩ len) s (fun t =>
        t.out = s.out ∧ t.wires = s.wires ++ [301 + j.val / 8])) ∧
  (∀ (s : State) (j : Fin 112) (pasid bad : Bool) (addr : Nat) (bytes : List Byte), s.dmaOpen j = true → s.linesFree addr bytes.length = true → bad = true ∨ pasid = true ∨ 512 < bytes.length → 
      Completes (.pcieDmaWrite j ⟨pasid, bad, addr⟩ bytes) s (fun t =>
        t.mem = s.mem ∧ t.wires = s.wires ++ [301 + j.val / 8])) ∧
  (∀ (s : State) (j : Fin 112) (ln : Nat) (bytes : List Byte), s.dmaOpen j = true → s.linkValid j = true → s.plainLine (s.linkWho j) ln true → bytes.length = 128 → s.rd (Reg.MCH_FLIP (s.chanOf (128 * ln))) F.MCH_FLIP_ARM = 0 → 
      Completes (.pcieDmaWrite j ⟨false, false, 128 * ln⟩ bytes) s (fun t =>
        t.memBytes (128 * ln) 128 = bytes ∧ t.wires = s.wires)) ∧
  (∀ (s : State) (j : Fin 112) (tag addr : Nat) (op : AtomicKind) (size operand compare : Nat) (old : List Byte) (u : State), s.dmaOpen j = true → s.linesFree addr size = true → atomicOk op size addr = true → s.linkValid j = true → s.homePull (s.linkWho j) addr false = u → (u.dmaRead j addr size).1 = some (old, false) → ((u.dmaRead j addr size).2.writePa ((u.dmaRead j addr size).2.linkWho j) addr (leBytes size (atomicNew op size (leNat old) operand compare))).1 = .ok → 
      Completes (.atomicOp j tag ⟨false, false, addr⟩ op size operand compare) s (fun t =>
        t.out = s.out ++ [.pcieCpl j tag (some (old, false))])) ∧
  (∀ (s : State) (j : Fin 112) (tag addr : Nat) (op : AtomicKind) (size operand compare : Nat) (old : List Byte), s.dmaOpen j = true → s.linesFree addr size = true → atomicOk op size addr = true → s.linkValid j = true → ((s.homePull (s.linkWho j) addr false).dmaRead j addr size).1 = some (old, true) → 
      Completes (.atomicOp j tag ⟨false, false, addr⟩ op size operand compare) s (fun t =>
        t.out = s.out ++ [.pcieCpl j tag (some (old, true))])) ∧
  (∀ (s : State) (j : Fin 112) (pasid : Bool) (tag addr : Nat) (op : AtomicKind) (size operand compare : Nat), s.dmaOpen j = true → s.linesFree addr size = true → pasid = true ∨ atomicOk op size addr = false → 
      Completes (.atomicOp j tag ⟨pasid, false, addr⟩ op size operand compare) s (fun t =>
        t.out = s.out ++ [.pcieCpl j tag none] ∧ t.wires = s.wires ++ [301 + j.val / 8])) ∧
  (∀ (s : State) (j : Fin 112) (addr eiid f : Nat), s.dmaOpen j = true → s.linkValid j = true → windowBase ≤ addr → fileAt (addr - windowBase) = some f → s.fenced (nthD clusterStops (fileHart f / 6) 0) 2 = false → s.fileReach f (s.linkWho j) = true → 1 ≤ eiid → eiid ≤ 2047 → 
      Completes (.pcieMsi j addr eiid) s (fun t =>
        Tab.get false t.imsic (2048 * f + eiid) = true)) ∧
  (∀ (s : State) (j : Fin 112), (s.link j).up = true → 
      Completes (.linkDown j) s (fun t =>
        (t.link j).up = false ∧ (t.link j).fenced = true ∧ t.wires = s.wires ++ [301 + j.val / 8])) ∧
  (∀ (s : State) (j : Fin 112), (s.link j).up = true → (s.link j).cxl = true → 
      Completes (.cxlSurpriseRemoval j) s (fun t =>
        (t.link j).up = false ∧ (t.link j).removed = true ∧ (t.link j).fenced = true ∧ t.wires = s.wires ++ [301 + j.val / 8])) ∧
  (∀ (s : State) (j : Fin 112) (rate : Nat) (type3 odd : Bool), s.linkWidth j ≠ 0 → s.linksRun = true → 
      Completes (.pcieLinkUp j rate type3 odd) s (fun t =>
        (t.link j).up = true ∧ (t.link j).fenced = false ∧
         ((t.link j).cxl = true ↔ type3 = true ∧ odd = false ∧ 8 ≤ s.linkWidth j ∧ (rate = 32 ∨ rate = 64)))) ∧
  (∀ (s : State) (h : Fin 216) (a : IoAccess) (j : Nat), (s.hart h).io = some a → s.paKind a.pa = .mmio j → 
      Completes (.pcieCompletionTimeout h) s (fun t =>
        (t.hart h).io = none)) ∧
  (∀ (s : State) (h : Fin 216) (val : Nat) (a : IoAccess) (j : Nat), (s.hart h).io = some a → s.paKind a.pa = .mmio j → a.write.isSome = false → 1 ≤ a.rd → a.rd < 32 → s.mmioReach j (s.hart h).ident = true → (s.link j).up = true → (s.link j).fenced = false → s.fenced (nthD pcieStops (j / 16) 0) (6 + j / 8 % 2) = false → 
      Completes (.ioRead h val) s (fun t =>
        (t.hart h).rx a.rd = extend a.size a.signed (val % 2 ^ (8 * a.size)) ∧ (t.hart h).io = none ∧ t.out = s.out ++ [.mmio j a.pa a.write])) ∧
  (∀ (s : State) (h : Fin 216) (a : IoAccess) (j : Nat), (s.hart h).io = some a → s.paKind a.pa = .mmio j → a.write.isSome = true → s.mmioReach j (s.hart h).ident = true → (s.link j).up = true → (s.link j).fenced = false → s.fenced (nthD pcieStops (j / 16) 0) (6 + j / 8 % 2) = false → 
      Completes (.ioWrite h) s (fun t =>
        (t.hart h).io = none ∧ t.out = s.out ++ [.mmio j a.pa a.write])) ∧
  (∀ (s : State) (h : Fin 216) (val : Nat) (a : IoAccess) (j : Nat), (s.hart h).io = some a → s.paKind a.pa = .mmio j → a.write.isSome = false → s.mmioReach j (s.hart h).ident = false → 
      Completes (.ioRead h val) s (fun t =>
        (t.hart h).io = none ∧ t.on Reg.ISO_VIOL F.ISO_VIOL_VALID = true ∧ t.out = s.out)) ∧
  (∀ (s : State) (h : Fin 216) (a : IoAccess) (j : Nat), (s.hart h).io = some a → s.paKind a.pa = .mmio j → a.write.isSome = true → s.mmioReach j (s.hart h).ident = false → 
      Completes (.ioWrite h) s (fun t =>
        (t.hart h).io = none ∧ t.on Reg.ISO_VIOL F.ISO_VIOL_VALID = true ∧ t.out = s.out)) ∧
  (∀ (s : State) (ln : Nat), s.watch = [ln] → s.dbInval = [] → 
      Completes (.doorbellInvalidation ln) s (fun t =>
        t.watch = [] ∧ t.dbInval = [ln])) ∧
  (∀ (s : State) (ln : Nat), ln ∉ s.watch → 
      Completes (.doorbellInvalidation ln) s (fun t =>
        t = s)) ∧
  (∀ (s : State) (ln : Nat) (m : Msg) (g : Option Grant), s.comesRmg ln m → m.kind = .datGrant g → s.ringsOn ln = [] → s.chansOn ln = [] → s.watch.length < 512 → 
      Completes (.doorbellLineReturn ln) s (fun t =>
        ln ∈ t.watch ∧ t.dbInval = s.dbInval.erase ln)) ∧
  (∀ (s : State) (ln : Nat) (m : Msg) (k : Nat), s.comesRmg ln m → m.kind = .rspError k → s.ringsOn ln = [] → s.chansOn ln = [] → 
      Completes (.doorbellLineReturn ln) s (fun t =>
        t.watch = s.watch ∧ t.dbInval = s.dbInval.erase ln))

/-- Of a descriptor of the command's kind, fetched, well formed, ready and not begun: NOP ends; RUN_PIPELINE whose image is
resident, with a mask of pipelines the image has, a whole inline input, replacements it takes, no PARTITION, a nonzero quota and
a slice ready, starts a run of its mask with those replacements, and with a zero quota or no slice ready ends with status 0x32;
LOAD_IMAGE of a local ring pair whose read succeeds holds the bytes read; UNLOAD_IMAGE of a resident image begins, and of none
ends as illegal, as RUN_PIPELINE does; FENCE begins; ABORT whose targets have no run or load at work ends none of them and waits
for all of them. One of these kinds, ETLB_LOAD, ETLB_INVALIDATE or MATCH_WRITE that is not well formed ends as illegal at the word its check names. Of one at work:
IMAGE_VALIDATION of bytes that pass every check, with a free store slot and room, puts the image in the lowest free slot and
ends, and of bytes that fail a check ends with it, the store unchanged; UNLOAD_TAKES_EFFECT with no earlier run of the image, and
FENCE_COMPLETE and ABORT_COMPLETE with nothing left to wait for, end, the first with its slot empty. FENCED_WORK_BEGIN of a
descriptor with no earlier one of its ring pair, which is local and not enabled, makes it ready. COMPLETION_WRITE of an ended
descriptor of an enabled local ring pair, the only one, with no run and no interrupt asked, whose record's write succeeds, counts
CQ_TAIL up and lets the descriptor go. -/
def Obligations.DescriptorsComplete : Prop :=
  (∀ (s : State) (ring : Fin 4096) (seq : Nat) (d : Desc), s.mayBegin ring seq 0 d → 
      Completes (.nopDesc ring seq) s (fun t =>
        t.desc ring seq = some { d with begun := true, done := true, stall := none })) ∧
  (∀ (s : State) (ring : Fin 4096) (seq : Nat) (d : Desc) (k : Nat) (cols outs : List (List Byte)), s.mayBegin ring seq 1 d → d.slot = some k → d.arg 20 2 / 2 ^ (s.img k).pipes.length = 0 → inlineWhole (s.img k) (d.arg 20 2) (d.arg 32 4) = true → (replaced d (s.img k)).toOption = some (cols, outs) → s.rd (Reg.CTX_CFG d.ctx) F.CTX_CFG_SLICE_QUOTA ≠ 0 → below 36 (fun n => s.slcReady n && bitAt (s.rdW (Reg.CTX_SLICES d.ctx)).toNat n) ≠ [] → ((s.img k).masked (d.arg 20 2)).all (fun x => !x.2.has 0x38) = true → 
      Completes (.runPipeline ring seq) s (fun t =>
        (t.desc ring seq).any (fun x => x.begun && !x.done && x.fail.isNone &&
          x.run.any (fun r => r.slot == k && r.mask == d.arg 20 2 && r.cols == cols && r.outs == outs)) = true)) ∧
  (∀ (s : State) (ring : Fin 4096) (seq : Nat) (d : Desc) (k : Nat) (cols outs : List (List Byte)), s.mayBegin ring seq 1 d → d.slot = some k → d.arg 20 2 / 2 ^ (s.img k).pipes.length = 0 → inlineWhole (s.img k) (d.arg 20 2) (d.arg 32 4) = true → (replaced d (s.img k)).toOption = some (cols, outs) → s.rd (Reg.CTX_CFG d.ctx) F.CTX_CFG_SLICE_QUOTA = 0 ∨ below 36 (fun n => s.slcReady n && bitAt (s.rdW (Reg.CTX_SLICES d.ctx)).toNat n) = [] → 
      Completes (.runPipeline ring seq) s (fun t =>
        t.desc ring seq = some { d with begun := true, done := true, stall := none, fail := some ⟨0x32, 0, 0, 0⟩ })) ∧
  (∀ (s : State) (ring : Fin 4096) (seq : Nat) (d : Desc), s.mayBegin ring seq 1 d → d.slot = none → 
      Completes (.runPipeline ring seq) s (fun t =>
        t.desc ring seq = some { d with begun := true, done := true, stall := none, fail := some (illegal 0xF 16) })) ∧
  (∀ (s : State) (ring : Fin 4096) (seq : Nat) (d : Desc) (b : List Byte), s.mayBegin ring seq 2 d → s.ringPort ring = none → ((vread ⟨none, d.ctx⟩ (d.arg 16 8) (d.arg 24 4)).run (s.setDesc { d with begun := true })).1.toOption = some b → 
      Completes (.loadImage ring seq) s (fun t =>
        t.desc ring seq = some { d with begun := true, load := some b, stall := none })) ∧
  (∀ (s : State) (ring : Fin 4096) (seq : Nat) (d : Desc) (b : List Byte) (k : Nat), s.atWork ring seq 2 d → d.load = some b → s.ringPort d.ring = none → validate b (d.arg 24 4) (s.rd Reg.PKG_FEATURE F.PKG_FEATURE_LEVEL) = none → (List.range 256).find? (fun k => (s.image k).isNone) = some k → s.storeBytes + b.length ≤ 8388608 → 
      Completes (.imageValidation ring seq) s (fun t =>
        (t.image k).any (fun m => m.bytes == b && m.ctx == d.ctx && m.live) = true ∧ (t.desc ring seq).any (fun x => x.done && x.fail.isNone) = true)) ∧
  (∀ (s : State) (ring : Fin 4096) (seq : Nat) (d : Desc) (b : List Byte) (sub o : Nat), s.atWork ring seq 2 d → d.load = some b → s.ringPort d.ring = none → validate b (d.arg 24 4) (s.rd Reg.PKG_FEATURE F.PKG_FEATURE_LEVEL) = some (sub, o) → 
      Completes (.imageValidation ring seq) s (fun t =>
        t.eng.images = s.eng.images ∧ (t.desc ring seq).any (fun x => x.done && x.fail == some (illegal sub o)) = true)) ∧
  (∀ (s : State) (ring : Fin 4096) (seq : Nat) (d : Desc) (k : Nat), s.mayBegin ring seq 3 d → d.slot = some k → 
      Completes (.unloadImage ring seq) s (fun t =>
        t.desc ring seq = some { d with begun := true })) ∧
  (∀ (s : State) (ring : Fin 4096) (seq : Nat) (d : Desc), s.mayBegin ring seq 3 d → d.slot = none → 
      Completes (.unloadImage ring seq) s (fun t =>
        t.desc ring seq = some { d with begun := true, done := true, stall := none, fail := some (illegal 0xF 16) })) ∧
  (∀ (s : State) (ring : Fin 4096) (seq : Nat) (d : Desc) (k : Nat), s.atWork ring seq 3 d → d.slot = some k → s.eng.descs.any (fun x => x.opc == 1 && x.slot == some k && decide (x.ord < d.ord)) = false → 
      Completes (.unloadTakesEffect ring seq) s (fun t =>
        t.image k = none ∧ (t.desc ring seq).any (fun x => x.done && x.fail.isNone) = true)) ∧
  (∀ (s : State) (ring : Fin 4096) (seq : Nat) (d : Desc), s.mayBegin ring seq 4 d → 
      Completes (.fenceDesc ring seq) s (fun t =>
        t.desc ring seq = some { d with begun := true })) ∧
  (∀ (s : State) (ring : Fin 4096) (seq : Nat) (d : Desc), s.atWork ring seq 4 d → s.eng.descs.any (fun x => decide (x.ord < d.ord) && (if d.arg 16 1 = 0 then x.ring == ring.val else x.ctx == d.ctx)) = false → 
      Completes (.fenceComplete ring seq) s (fun t =>
        t.desc ring seq = some { d with done := true, stall := none })) ∧
  (∀ (s : State) (ring : Fin 4096) (seq : Nat) (d : Desc), s.desc ring seq = some d → (s.ringDescs ring).any (fun x => decide (x.ord < d.ord)) = false → s.ringPort ring = none → s.rd (Reg.RING_STATUS ring) F.RING_STATUS_STATE ≠ 1 → 
      Completes (.fencedWorkBegin ring seq) s (fun t =>
        t.desc ring seq = some { d with ready := true })) ∧
  (∀ (s : State) (ring : Fin 4096) (seq : Nat) (d : Desc) (ts : List Desc), s.mayBegin ring seq 5 d → (s.setDesc { d with begun := true }).abortTargets { d with begun := true } = ts → ts.all (fun x => (x.opc != 1 && x.opc != 2) || x.done || x.fail.isSome) = true → 
      Completes (.abort ring seq) s (fun t =>
        t.desc ring seq = some { d with begun := true, targets := ts.map (fun x => (x.ring, x.seq)), r0 := 0 })) ∧
  (∀ (s : State) (ring : Fin 4096) (seq : Nat) (d : Desc), s.atWork ring seq 5 d → d.targets.any (fun k => (s.desc k.1 k.2).isSome) = false → 
      Completes (.abortComplete ring seq) s (fun t =>
        t.desc ring seq = some { d with done := true, stall := none })) ∧
  (∀ (s : State) (ring : Fin 4096) (seq o : Nat) (d : Desc) (c : Instr), s.desc ring seq = some d → d.ready = true → d.begun = false → d.done = false → d.fail = none → descFault d.bytes (s.ringPort ring).isSome = some o → (d.opc, c) ∈ [(0, Instr.nopDesc ring seq), (1, .runPipeline ring seq), (2, .loadImage ring seq), (3, .unloadImage ring seq), (4, .fenceDesc ring seq), (5, .abort ring seq), (6, .etlbLoad ring seq), (7, .etlbInvalidate ring seq), (8, .matchWrite ring seq)] → 
      Completes c s (fun t =>
        t.desc ring seq = some { d with begun := true, done := true, stall := none, fail := some (illegal 5 o) })) ∧
  (∀ (s : State) (ring : Fin 4096) (seq : Nat) (d : Desc), s.eng.descs = [d] → d.ring = ring.val → d.seq = seq → d.done = true → d.run = none → d.irq = false → s.ringPort ring = none → s.rd (Reg.RING_STATUS ring) F.RING_STATUS_STATE = 1 → s.eng.rings = [] → s.eng.images = [] → (s.writePa (s.ctxIdent d.ctx) (s.rd (Reg.RING_CQ_BASE ring) F.RING_CQ_BASE_BASE * 4096 + 64 * (s.rd (Reg.RING_HEAD ring) F.RING_HEAD_CQ_TAIL % 2 ^ s.rd (Reg.RING_CFG ring) F.RING_CFG_CQ_LOG2)) (s.record d (s.rd (Reg.RING_HEAD ring) F.RING_HEAD_CQ_TAIL) (s.rd (Reg.RING_CFG ring) F.RING_CFG_CQ_LOG2))).1 = .ok → 
      Completes (.completionWrite ring seq) s (fun t =>
        t.eng.descs = [] ∧ t.rd (Reg.RING_HEAD ring) F.RING_HEAD_CQ_TAIL = (s.rd (Reg.RING_HEAD ring) F.RING_HEAD_CQ_TAIL + 1) % 2 ^ 32))

/-- Of a descriptor of the command's kind, fetched, well formed, ready and not begun: ETLB_LOAD of a ring pair with PRIV puts
its entries in the shared cache, the last of which stands there, and ends; ETLB_INVALIDATE of a ring pair with PRIV keeps in the
shared cache just the entries it does not drop and begins, having to wait for nothing where no bucket operation, page read or
correction write-back is under way; of a ring pair without PRIV either ends with status 0x11, the cache unchanged.
MATCH_WRITE none of whose rows another context owns in a slice of the context's mask in service writes its rows in each of
those slices, and ends; where another context owns one, it ends with status 0x11 and no slice changes. ETLB_INVALIDATE_COMPLETE
with nothing to wait for ends. TRANSLATION_FAULT_TIMEOUT of a stalled descriptor without an error ends it with status 0x10 and
the address (of a run it fixes that status), and of a stalled task without an error gives the task status 0x10 with the address
and ends the stall. -/
def Obligations.TranslationsComplete : Prop :=
  (∀ (s : State) (ring : Fin 4096) (seq k : Nat) (d : Desc), s.mayBegin ring seq 6 d → s.ringPriv ring = true → d.arg 2 1 = k + 1 → 
      Completes (.etlbLoad ring seq) s (fun t =>
        (t.eng.etlb.map Prod.snd).contains (eteOf d.bytes (16 + 16 * k)) = true ∧ (t.desc ring seq).any (fun x => x.done && x.fail.isNone) = true)) ∧
  (∀ (s : State) (ring : Fin 4096) (seq : Nat) (d : Desc), s.mayBegin ring seq 7 d → s.ringPriv ring = true → 
      Completes (.etlbInvalidate ring seq) s (fun t =>
        t.eng.etlb = s.eng.etlb.keep (fun _ x => !d.dropsEte x) ∧ (t.desc ring seq).any (fun x => x.begun && !x.done) = true ∧
         (s.eng.bops = [] → s.eng.pages = [] → s.eng.corr = [] → t.desc ring seq = some { d with begun := true, targets := [] }))) ∧
  (∀ (s : State) (ring : Fin 4096) (seq : Nat) (d : Desc), s.mayBegin ring seq 6 d → s.ringPriv ring = false → 
      Completes (.etlbLoad ring seq) s (fun t =>
        t.eng.etlb = s.eng.etlb ∧ t.desc ring seq = some { d with begun := true, done := true, stall := none, fail := some ⟨0x11, 0, 0, 0⟩ })) ∧
  (∀ (s : State) (ring : Fin 4096) (seq : Nat) (d : Desc), s.mayBegin ring seq 7 d → s.ringPriv ring = false → 
      Completes (.etlbInvalidate ring seq) s (fun t =>
        t.eng.etlb = s.eng.etlb ∧ t.desc ring seq = some { d with begun := true, done := true, stall := none, fail := some ⟨0x11, 0, 0, 0⟩ })) ∧
  (∀ (s : State) (ring : Fin 4096) (seq : Nat) (d : Desc), s.atWork ring seq 7 d → d.targets = [] → 
      Completes (.etlbInvalidateComplete ring seq) s (fun t =>
        t.desc ring seq = some { d with done := true, stall := none })) ∧
  (∀ (s : State) (ring : Fin 4096) (seq : Nat) (d : Desc) (rs : List (Nat × MRow)) (ss : List Nat), s.mayBegin ring seq 8 d → (List.range (d.arg 2 1)).map (fun i => mrowOf d.bytes i d.ctx) = rs → below 36 (fun n => bitAt (s.rdW (Reg.CTX_SLICES d.ctx)).toNat n && s.slcInService n) = ss → ss.all (fun n => rs.all (fun r => !(Tab.get MRow.off (s.slice n).rows r.1).valid || (Tab.get MRow.off (s.slice n).rows r.1).owner == d.ctx)) = true → 
      Completes (.matchWrite ring seq) s (fun t =>
        (∀ n ∈ ss, (t.slice n).rows = rs.foldl (fun t r => Tab.put MRow.off t r.1 r.2) (s.slice n).rows) ∧ (t.desc ring seq).any (fun x => x.done && x.fail.isNone) = true)) ∧
  (∀ (s : State) (ring : Fin 4096) (seq n i : Nat) (d : Desc), s.mayBegin ring seq 8 d → i < d.arg 2 1 → n ∈ below 36 (fun n => bitAt (s.rdW (Reg.CTX_SLICES d.ctx)).toNat n && s.slcInService n) → (Tab.get MRow.off (s.slice n).rows (mrowOf d.bytes i d.ctx).1).valid = true → (Tab.get MRow.off (s.slice n).rows (mrowOf d.bytes i d.ctx).1).owner ≠ d.ctx → 
      Completes (.matchWrite ring seq) s (fun t =>
        t.eng.slices = s.eng.slices ∧ t.desc ring seq = some { d with begun := true, done := true, stall := none, fail := some ⟨0x11, 0, 0, 0⟩ })) ∧
  (∀ (s : State) (ring : Fin 4096) (seq : Nat) (d : Desc) (x : Stall), s.desc ring seq = some d → d.stall = some x → d.fail = none → d.run = none → 
      Completes (.translationFaultTimeout (.desc ring seq)) s (fun t =>
        t.desc ring seq = some { d with done := true, stall := none, fail := some ⟨0x10, 0, 0, x.va⟩ })) ∧
  (∀ (s : State) (ring : Fin 4096) (seq : Nat) (d : Desc) (x : Stall) (r : Run), s.desc ring seq = some d → d.stall = some x → d.fail = none → d.run = some r → 
      Completes (.translationFaultTimeout (.desc ring seq)) s (fun t =>
        t.desc ring seq = some { d with stall := none, fail := some ⟨0x10, 0, 0, x.va⟩ })) ∧
  (∀ (s : State) (n : Fin 36) (x : Task) (st : Stall), (s.slice n).task = some x → x.stall = some st → x.fail = none → 
      Completes (.translationFaultTimeout (.slice n)) s (fun t =>
        (t.slice n).task.any (fun y => y.stall.isNone && y.fail.any (fun f => f.status == 0x10 && f.addr == st.va)) = true))

/-- For every two cells, whose truth is TRUE, FALSE or (not valid) UNKNOWN: AND is FALSE where either is FALSE, TRUE
where both are TRUE and UNKNOWN otherwise; OR is TRUE where either is TRUE, FALSE where both are FALSE and UNKNOWN
otherwise; NOT turns TRUE and FALSE round and keeps UNKNOWN; and each comparison micro-op with a null operand is
UNKNOWN. FILTER, standing before its batch with its micro-ops done, completes: it sets the selection of a row to 1
exactly where the row was selected and its predicate register is TRUE there, so UNKNOWN and FALSE both clear it, and
the task goes to its next operator. -/
def Obligations.FilterByThreeValuedLogic : Prop :=
  (∀ (u v w : UOp) (a b c d : Decl) (rn : Nat) (x y z : Cell), u.op = 0x08 → v.op = 0x09 → w.op = 0x0A →
    ∃ p q r : Cell, evalRow u a b c d rn x y z = .ok p ∧ evalRow v a b c d rn x y z = .ok q ∧
      evalRow w a b c d rn x y z = .ok r ∧
      p.truth = (if x.truth = some false ∨ y.truth = some false then some false
        else if x.truth = some true ∧ y.truth = some true then some true else none) ∧
      q.truth = (if x.truth = some true ∨ y.truth = some true then some true
        else if x.truth = some false ∧ y.truth = some false then some false else none) ∧
      r.truth = x.truth.map (!·)) ∧
  (∀ (u : UOp) (a b c d : Decl) (rn : Nat) (x y z : Cell), 0x10 ≤ u.op → u.op ≤ 0x15 → x.ok = false ∨ y.ok = false →
    ∃ p : Cell, evalRow u a b c d rn x y z = .ok p ∧ p.truth = none) ∧
  (∀ (s : State) (n : Fin 36) (x : Task) (b : Batch) (c : OpCtx) (q : Batch), s.standsAt n 0x10 x b c → ((runRange n c x b).run s).1.toOption = some q → ((runRange n c x b).run s).2 = s → 
      Completes (.filter n) s (fun t =>
        (t.slice n).task = some { x with batch := some { q with sel := (List.range q.rows.length).map (fun i => nthD q.sel i false && ((q.cell c.o.a2 i).truth == some true)) }, oper := x.oper + 1 }))

/-- A task that stands before the operator with its batch, nothing keeping it: PROJECT, its micro-ops done, passes on
their batch. HASH puts into its register the hash of the keys' words for each selected row and null elsewhere, where every
valid string among them has at most 64 bytes; of one string key that is longer, read whole, for the one selected row, likewise.
MATCH, no row enabled for it being of bad parity, puts into its register (unless it only filters) the result of the lowest row
of the array that each selected, valid key finds and null elsewhere, and, where it filters, keeps the selected rows whose key
is valid and found (or not found, under its NOT option). LIMIT keeps the first selected rows up to what is left, counts them
in its run, and has the task end once the limit is reached. TOPK outside the gather task keeps the best rows of its heap and
the batch's, and the key of ties it cut, and, no row waiting behind the batch, is done with the batch. PARTITION puts the
selected rows' cells in exchange messages, in order, of at most 64 rows each, by destination, among those its credits let go;
each batch that goes on goes on to the next operator. -/
def Obligations.RowOperatorsComplete : Prop :=
  (∀ (s : State) (n : Fin 36) (x : Task) (b : Batch) (c : OpCtx) (q : Batch), s.standsAt n 0x11 x b c → ((runRange n c x b).run s).1.toOption = some q → ((runRange n c x b).run s).2 = s → 
      Completes (.project n) s (fun t =>
        (t.slice n).task = some { x with batch := some q, oper := x.oper + 1 })) ∧
  (∀ (s : State) (n : Fin 36) (x : Task) (b : Batch) (c : OpCtx), s.standsAt n 0x20 x b c → (c.m.regList c.o.a0 c.o.a1).all (fun k => (c.p.reg k.1).ty != .varstr || b.selected.all (fun i => !(b.cell k.1 i).ok || decide ((b.cell k.1 i).strLen ≤ 64))) = true → 
      Completes (.hash n) s (fun t =>
        (t.slice n).task = some { x with batch := some (b.put c.o.a2 ((List.range b.rows.length).map (fun i =>
           if nthD b.sel i false then Cell.of (hashKeys (c.o.a3 % 256) ((c.m.regList c.o.a0 c.o.a1).flatMap (fun k =>
             hashWords (c.p.reg k.1).ty k.2 (b.cell k.1 i)))) else Cell.null))), oper := x.oper + 1 })) ∧
  (∀ (s : State) (n : Fin 36) (x : Task) (b : Batch) (c : OpCtx) (k : Nat × Bool) (i : Nat) (l : List Byte), s.standsAt n 0x20 x b c → c.m.regList c.o.a0 c.o.a1 = [k] → (c.p.reg k.1).ty = .varstr → b.selected = [i] → (b.cell k.1 i).ok = true → ((strOf n x (b.cell k.1 i)).run s).1.toOption = some l → 
      Completes (.hash n) s (fun t =>
        (t.slice n).task.any (fun y => y.oper == x.oper + 1 && y.batch == some (b.put c.o.a2 ((List.range b.rows.length).map (fun j =>
           if nthD b.sel j false then Cell.of (hashKeys (c.o.a3 % 256) (hashWords .varstr k.2 { b.cell k.1 i with str := l })) else Cell.null)))) = true)) ∧
  (∀ (s : State) (n : Fin 36) (x : Task) (b : Batch) (c : OpCtx), s.standsAt n 0x12 x b c → (s.slice n).rows.any (fun e => e.2.enabled x.ctx (c.o.a2 % 256) && e.2.bad) = false → 
      Completes (.matchOp n) s (fun t =>
        (t.slice n).task = some { x with batch := some (
           let hits := (List.range b.rows.length).map (fun i =>
             if nthD b.sel i false && (b.cell c.o.a0 i).ok then
               searchRows (s.slice n).rows x.ctx (c.o.a2 % 256) (leAt c.m.pool c.o.a3 16) (matchKey (c.p.reg c.o.a0).ty (b.cell c.o.a0 i))
             else none);
           let q := if bitAt c.o.opt 2 then b else b.put c.o.a1 (hits.map (fun h => (h.map (fun r => Cell.of r.result)).getD Cell.null));
           if bitAt c.o.opt 0 then { q with sel := (List.range q.rows.length).map (fun i =>
             nthD q.sel i false && ((b.cell c.o.a0 i).ok && ((nthD hits i none).isSome != bitAt c.o.opt 1))) } else q), oper := x.oper + 1 })) ∧
  (∀ (s : State) (n : Fin 36) (x : Task) (b : Batch) (c : OpCtx), s.standsAt n 0x40 x b c → 
      Completes (.limit n) s (fun t =>
        (t.slice n).task = some { x with 
           batch := some { b with sel := (List.range b.rows.length).map (fun i =>
             nthD b.sel i false && (b.selected.take (c.o.a5 - (c.r.pipe x.pipe).lim)).contains i) },
           oper := x.oper + 1,
           ending := x.ending || decide (c.o.a5 ≤ (c.r.pipe x.pipe).lim + (b.selected.take (c.o.a5 - (c.r.pipe x.pipe).lim)).length) } ∧
         (t.run x.ring x.seq).map (fun r => (r.pipe x.pipe).lim) = some ((c.r.pipe x.pipe).lim + (b.selected.take (c.o.a5 - (c.r.pipe x.pipe).lim)).length))) ∧
  (∀ (s : State) (n : Fin 36) (x : Task) (b : Batch) (c : OpCtx) (rows heap : List HeapRow) (cut : Option (List Byte)), s.standsAt n 0x32 x b c → x.kind ≠ .gather → (b.selected.map (fun i => HeapRow.mk (sortKeyOf c (c.m.sortList c.o.a0 c.o.a1) b i) (b.rn i)
             ((c.m.readAfter c.p x.oper).map (fun r => (r, b.cell r i))))).filter (fun h => !beyond (c.r.pipe x.pipe).thr c.topk.2 h.key h.rn) = rows → keepTop c.topk.1 c.topk.2 (rows.foldl (fun l h => insertBy HeapRow.ord h l) x.heap) = (heap, cut) → 
      Completes (.topk n) s (fun t =>
        (t.slice n).task.any (fun y => y.heap == heap && y.cutKey == leastCut x.cutKey cut) = true ∧
         (x.queue.rows = [] → (t.slice n).task = some { x with heap := heap, cutKey := leastCut x.cutKey cut, batch := none, oper := 0 }))) ∧
  (∀ (s : State) (n : Fin 36) (x : Task) (b : Batch) (c : OpCtx) (ds : List Nat), s.standsAt n 0x38 x b c → Tab.get [] c.r.dests c.o.a2 = ds → 
      Completes (.partition n) s (fun t =>
        t.eng.xch = (Eng.xSend { s.eng with xch := s.eng.xch ++ ds.flatMap (fun m =>
           (groups64 17 ((b.selected.filter (fun i => destOf c ds (b.cell (bitsOf c.o.a5 4 0) i) == m)).map (fun i =>
             (c.m.regList c.o.a0 c.o.a1).map (fun r => b.cell r.1 i)))).map (fun g =>
               ⟨x.ring, x.seq, c.o.a2, n, m, g, xFlits ((c.m.regList c.o.a0 c.o.a1).map (fun r => (c.p.reg r.1).ty.width)) g.length,
                0, 0, none, 0⟩)) }).xch ∧
         (t.slice n).task = some { x with batch := some b, oper := x.oper + 1 }))

/-- A task that stands before the operator with its batch, nothing keeping it, whose keys where it looks at them are those of
the selected rows with every key valid: BUILD, its pages translated, issues one insert for each such row, of its keys and
payloads under its hash, with DISTINCT as its option says, and goes on. PROBE issues a probe for each of the first 64 such rows
and waits for all of them; with none it goes on at once with the rows its join kind gives for rows that find nothing. AGG_HOME
issues one merge of each selected row's partial. AGG_LOCAL puts the selected rows' partials into the aggregation cache, one
after another; a single one, into its line where that has room and not the row's group, into the group's partial where it has,
and in the victim's place, which leaves as a merge, where the line is full. SORT_RUN writes the selected rows as a run, sorted,
and goes on with memory as that writing left it, and with no selected row writes none. -/
def Obligations.TableOperatorsComplete : Prop :=
  (∀ (s : State) (n : Fin 36) (x : Task) (b : Batch) (c : OpCtx), s.standsAt n 0x21 x b c → (((c.keyed b).forM (fun i => issue n c x x.oper c.o.a4 (.insert (bitAt c.o.opt 0)) [] (c.built b i) i)).run s).1.toOption = some () → 
      Completes (.build n) s (fun t =>
        t.bopList = s.bopList ++ s.newBops (.insert (bitAt c.o.opt 0)) (c.keyed b) (c.built b) id ∧
         (t.slice n).task = some { x with batch := some b, oper := x.oper + 1 })) ∧
  (∀ (s : State) (n : Fin 36) (x : Task) (b : Batch) (c : OpCtx), s.standsAt n 0x22 x b c → c.keyed b ≠ [] → ((((c.keyed b).take 64).forM (fun i => issue n c x x.oper c.o.a4 .probe [] (c.sought b i) i)).run s).1.toOption = some () → 
      Completes (.probe n) s (fun t =>
        t.bopList = s.bopList ++ s.newBops .probe ((c.keyed b).take 64) (c.sought b) id ∧
         (t.slice n).task = some { x with batch := none, probes := [⟨x.oper, b, (c.keyed b).drop 64, c.keyed b, [], 0⟩] })) ∧
  (∀ (s : State) (n : Fin 36) (x : Task) (b : Batch) (c : OpCtx), s.standsAt n 0x22 x b c → c.keyed b = [] → b.rows.length ≤ 1024 → 
      Completes (.probe n) s (fun t =>
        (t.slice n).task = some { x with batch := some (probeBatch c b ((ProbeSt.mk x.oper b [] [] [] 0).rows c.joinKind)), oper := x.oper + 1 } ∧
         t.eng.bops = s.eng.bops)) ∧
  (∀ (s : State) (n : Fin 36) (x : Task) (b : Batch) (c : OpCtx), s.standsAt n 0x24 x b c → ((b.selected.forM (fun i => issue n c x x.oper c.o.a4 .merge c.ovfs (c.part b i) 0)).run s).1.toOption = some () → 
      Completes (.aggHome n) s (fun t =>
        t.bopList = s.bopList ++ s.newBops .merge b.selected (c.part b) (fun _ => 0) ∧
         (t.slice n).task = some { x with batch := some b, oper := x.oper + 1 })) ∧
  (∀ (s : State) (n : Fin 36) (x : Task) (b : Batch) (c : OpCtx) (u : State), s.standsAt n 0x23 x b c → ((b.selected.forM (fun i => aggRow n c x (tDeclOf (c.m.decl c.o.a4)) (c.part b i) (b.rn i))).run s).1.toOption = some () → ((b.selected.forM (fun i => aggRow n c x (tDeclOf (c.m.decl c.o.a4)) (c.part b i) (b.rn i))).run s).2 = u → 
      Completes (.aggLocal n) s (fun t =>
        (t.slice n).agg = (u.slice n).agg ∧ t.eng.bops = u.eng.bops ∧
         (t.slice n).task = some { x with batch := some b, oper := x.oper + 1 })) ∧
  (∀ (s : State) (n : Fin 36) (x : Task) (b : Batch) (c : OpCtx) (i : Nat) (l : AggLine), s.standsAt n 0x23 x b c → b.selected = [i] → Tab.get ⟨[], 0⟩ (s.slice n).agg ((c.part b i).h % 4096) = l → l.ents.all (fun e => !((tDeclOf (c.m.decl c.o.a4)).sameKey e (c.part b i) && e.h == (c.part b i).h)) = true → l.ents.length < 128 / (tDeclOf (c.m.decl c.o.a4)).entryBytes → 
      Completes (.aggLocal n) s (fun t =>
        (t.slice n).task = some { x with batch := some b, oper := x.oper + 1 } ∧
         Tab.look (t.slice n).agg ((c.part b i).h % 4096) = some { l with ents := l.ents ++ [c.part b i] } ∧ t.eng.bops = s.eng.bops)) ∧
  (∀ (s : State) (n : Fin 36) (x : Task) (b : Batch) (c : OpCtx) (i j : Nat) (l : AggLine) (e : AggEnt), s.standsAt n 0x23 x b c → b.selected = [i] → Tab.get ⟨[], 0⟩ (s.slice n).agg ((c.part b i).h % 4096) = l → l.ents.findIdx? (fun e => (tDeclOf (c.m.decl c.o.a4)).sameKey e (c.part b i) && e.h == (c.part b i).h) = some j → ((tDeclOf (c.m.decl c.o.a4)).mergeEnt c.ovfs (nthD l.ents j (c.part b i)) (c.part b i)).toOption = some e → 
      Completes (.aggLocal n) s (fun t =>
        (t.slice n).task = some { x with batch := some b, oper := x.oper + 1 } ∧
         Tab.look (t.slice n).agg ((c.part b i).h % 4096) = some { l with ents := setNth l.ents j e } ∧ t.eng.bops = s.eng.bops)) ∧
  (∀ (s : State) (n : Fin 36) (x : Task) (b : Batch) (c : OpCtx) (i : Nat) (l : AggLine), s.standsAt n 0x23 x b c → b.selected = [i] → Tab.get ⟨[], 0⟩ (s.slice n).agg ((c.part b i).h % 4096) = l → l.ents.findIdx? (fun e => (tDeclOf (c.m.decl c.o.a4)).sameKey e (c.part b i) && e.h == (c.part b i).h) = none → 128 / (tDeclOf (c.m.decl c.o.a4)).entryBytes ≤ l.ents.length → c.m.isa ≠ 0 → ((issue n c x x.oper c.o.a4 .merge c.ovfs (nthD l.ents l.victim (c.part b i)) 0).run s).1.toOption = some () → 
      Completes (.aggLocal n) s (fun t =>
        (t.slice n).task = some { x with batch := some b, oper := x.oper + 1 } ∧
         Tab.look (t.slice n).agg ((c.part b i).h % 4096) = some ⟨setNth l.ents l.victim (c.part b i), (l.victim + 1) % (128 / (tDeclOf (c.m.decl c.o.a4)).entryBytes)⟩ ∧
         t.bopList = s.bopList ++ [(s.eng.opn, .merge, nthD l.ents l.victim (c.part b i), .line 0, 0)])) ∧
  (∀ (s : State) (n : Fin 36) (x : Task) (b : Batch) (c : OpCtx) (j : Nat) (u : State), s.standsAt n 0x30 x b c → b.selected ≠ [] → ((writeRun (x.who n) (rDeclOf (c.m.decl c.o.a4)) (c.runRecs b) 0).run s).1.toOption = some j → ((writeRun (x.who n) (rDeclOf (c.m.decl c.o.a4)) (c.runRecs b) 0).run s).2 = u → (u.slice n).task = some x → 
      Completes (.sortRun n) s (fun t =>
        t.mem = u.mem ∧ t.wq = u.wq ∧ (t.slice n).task = some { x with batch := some b, oper := x.oper + 1 })) ∧
  (∀ (s : State) (n : Fin 36) (x : Task) (b : Batch) (c : OpCtx), s.standsAt n 0x30 x b c → b.selected = [] → 
      Completes (.sortRun n) s (fun t =>
        t.mem = s.mem ∧ t.wq = s.wq ∧ (t.slice n).task = some { x with batch := some b, oper := x.oper + 1 }))

/-- A task that stands before the sink with its batch, nothing keeping it: EMIT of selected rows whose columns are all of one
group, that group's values written, goes on with memory, the counts of the result and the group's rows as that writing left
them; of no selected row it goes on with memory and the counts unchanged; of one selected row over one column, without validity
bits and not of strings, whose output position is below the capacity and whose write succeeds, it leaves memory as that write of
the value does, and counts the row in the result and in its group. EMIT_INLINE takes the first selected rows whose records fit
and, their write done, goes on with memory as it left it, the records and their bytes counted, and the run partial where not all
fitted; where none fits it counts none and leaves memory. END with no row waiting, or of a task that is to end, ends with the
batch; with a batch's worth waiting, or the last of them, it is followed by the next batch. -/
def Obligations.SinksComplete : Prop :=
  (∀ (s : State) (n : Fin 36) (x : Task) (b : Batch) (c : OpCtx) (g : Nat) (u : State), s.standsAt n 0x41 x b c → b.selected ≠ [] → c.m.colList c.o.a0 c.o.a1 ≠ [] → (c.m.colList c.o.a0 c.o.a1).all (fun e => ((outDOf (nthD c.r.outs e.1 [])).map (·.group)).getD 0 == g) = true → ((emitGroup n c x b g (c.m.colList c.o.a0 c.o.a1)).run s).1.toOption = some () → ((emitGroup n c x b g (c.m.colList c.o.a0 c.o.a1)).run s).2 = u → (u.slice n).task = some x → 
      Completes (.emit n) s (fun t =>
        t.mem = u.mem ∧ t.wq = u.wq ∧ t.desc x.ring x.seq = u.desc x.ring x.seq ∧
         (t.slice n).task = some { x with batch := some b, oper := x.oper + 1 })) ∧
  (∀ (s : State) (n : Fin 36) (x : Task) (b : Batch) (c : OpCtx), s.standsAt n 0x41 x b c → b.selected = [] → 
      Completes (.emit n) s (fun t =>
        t.mem = s.mem ∧ t.wq = s.wq ∧ t.desc x.ring x.seq = s.desc x.ring x.seq ∧
         (t.slice n).task = some { x with batch := some b, oper := x.oper + 1 })) ∧
  (∀ (s : State) (n : Fin 36) (x : Task) (b : Batch) (c : OpCtx) (i e r : Nat) (o : OutD) (en : ETE) (u : State), s.standsAt n 0x41 x b c → b.selected = [i] → c.m.colList c.o.a0 c.o.a1 = [(e, r)] → outDOf (nthD c.r.outs e []) = some o → o.ty ≠ .varstr → bitAt o.flags 0 = false → Tab.get 0 c.r.groups o.group < o.cap → findEte (s.slice n).tlb (s.tset x.ctx) ((o.base + Tab.get 0 c.r.groups o.group * o.ty.width) / 65536) = some en → en.w = true → o.base + Tab.get 0 c.r.groups o.group * o.ty.width < 2 ^ 57 → (o.base + Tab.get 0 c.r.groups o.group * o.ty.width) % 65536 + o.ty.width ≤ 65536 → s.writePa (s.ctxIdent x.ctx) (en.phys (o.base + Tab.get 0 c.r.groups o.group * o.ty.width)) (leBytes o.ty.width (if (b.cell r i).ok then (b.cell r i).v else 0)) = (.ok, u) → 
      Completes (.emit n) s (fun t =>
        t.mem = u.mem ∧ t.wq = u.wq ∧ (t.desc x.ring x.seq).map (·.r0) = some (c.d.r0 + 1) ∧
         (t.run x.ring x.seq).map (fun r => (Tab.get 0 r.groups o.group, r.rows)) = some (Tab.get 0 c.r.groups o.group + 1, c.r.rows + 1) ∧ (t.slice n).task = some { x with batch := some b, oper := x.oper + 1 })) ∧
  (∀ (s : State) (n : Fin 36) (x : Task) (b : Batch) (c : OpCtx) (recs : List (List Byte)) (k : Nat) (u : State), s.standsAt n 0x42 x b c → b.selected.map (inlineBytes c b ((c.m.regList c.o.a0 c.o.a1).map Prod.fst)) = recs → min ((min c.r.outBytes (bitsOf c.o.a5 9 0 * 128) - c.r.inl) / ((recs.head?).map (·.length)).getD 1) recs.length = k → 0 < k → ((putInline n c x c.r.inl (recs.take k).flatten).run s).1.toOption = some () → ((putInline n c x c.r.inl (recs.take k).flatten).run s).2 = u → u.desc x.ring x.seq = some c.d → (u.slice n).task = some x → 
      Completes (.emitInline n) s (fun t =>
        t.mem = u.mem ∧ t.wq = u.wq ∧
         (t.desc x.ring x.seq).map (fun d => (d.r0, d.r1)) = some (c.d.r0 + k, c.d.r1 + (recs.take k).flatten.length) ∧
         (t.run x.ring x.seq).map (fun r => (r.inl, r.partly)) = some (c.r.inl + (recs.take k).flatten.length, c.r.partly || k != recs.length) ∧
         (t.slice n).task = some { x with batch := some b, oper := x.oper + 1 })) ∧
  (∀ (s : State) (n : Fin 36) (x : Task) (b : Batch) (c : OpCtx) (recs : List (List Byte)), s.standsAt n 0x42 x b c → b.selected.map (inlineBytes c b ((c.m.regList c.o.a0 c.o.a1).map Prod.fst)) = recs → min ((min c.r.outBytes (bitsOf c.o.a5 9 0 * 128) - c.r.inl) / ((recs.head?).map (·.length)).getD 1) recs.length = 0 → 
      Completes (.emitInline n) s (fun t =>
        t.mem = s.mem ∧ t.wq = s.wq ∧ (t.desc x.ring x.seq).map (fun d => (d.r0, d.r1)) = some (c.d.r0, c.d.r1) ∧
         (t.run x.ring x.seq).map (fun r => (r.inl, r.partly)) = some (c.r.inl, c.r.partly || decide (recs ≠ [])) ∧
         (t.slice n).task = some { x with batch := some b, oper := x.oper + 1 })) ∧
  (∀ (s : State) (n : Fin 36) (x : Task) (b : Batch) (c : OpCtx), s.standsAt n 0x4F x b c → x.queue.rows = [] ∨ x.ending = true → 
      Completes (.endOp n) s (fun t =>
        (t.slice n).task = some { x with batch := none, oper := 0 })) ∧
  (∀ (s : State) (n : Fin 36) (x : Task) (b : Batch) (c : OpCtx), s.standsAt n 0x4F x b c → x.ending = false → 1024 ≤ x.queue.rows.length ∨ (x.opened = true ∧ x.blks ≤ x.blk ∧ x.queue.rows ≠ []) → 
      Completes (.endOp n) s (fun t =>
        (t.slice n).task.any (fun y => y.batch == some (x.queue.split 1024).1 && y.queue == (x.queue.split 1024).2 && y.oper == x.first c.p) = true))

/-- A task whose batch is to come from its input operator, nothing keeping it: the driving SCAN, all its pages readable through
the slice's TLB, sends their page requests in order of column and opens the scan; a fetch SCAN with its batch, some selected row
lying below a column's rows and its requests prepared, fetches, and one whose selected rows all lie beyond, or that has none,
goes on at once with its rows. SCANRAW of one column, a block read, sends the block's survivors under the column's predicates;
of a table, its bucket lines read, it takes the entries in them as rows. RECV takes the rows its plan gives of each message
received, those moved to spill first and read there, as the batch, and leaves the rest. INLINE_IN, its bytes there and read, takes
the batch's rows in their order. MERGE not told at dispatch, its pipeline's unmerged runs known, is given the runs of the next
merge and its pipeline's progress with it; one that was told opens its runs; an intermediate merge whose accesses go through is
done with its runs; the final merge, its runs read, takes their records, in order, as the batch. A merge of a level-0 partition
whose accesses go through ends with the aggregation cache empty, and of one that spilled nothing sends no request. The gather
task, every other task ended and every row arrived, takes the rows kept as its batch, which may be none. Rows of TOPK
that reach their gather task join the rows kept there. -/
def Obligations.InputOperatorsComplete : Prop :=
  (∀ (s : State) (n : Fin 36) (x : Task) (c : OpCtx), s.inputsAt n 1 x c → x.opened = false → x.kind ≠ .gather → (c.scanPages x).all (fun y => (s.pageEte n x y.2.1 y.2.2).any (fun e => e.r) && decide (y.2.1.base + 65536 * y.2.2 < 2 ^ 57)) = true → 
      Completes (.scan n) s (fun t =>
        t.eng.pages = s.eng.pages ++ (c.scanPages x).filterMap (fun y => (s.pageEte n x y.2.1 y.2.2).map (fun e =>
           ⟨n, x.id, 0, y.1, y.2.2, y.2.1.base + 65536 * y.2.2, e.phys (y.2.1.base + 65536 * y.2.2), false, [], none⟩)) ∧
         (t.slice n).task = some { x with opened := true, blks := x.blocks c })) ∧
  (∀ (s : State) (n : Fin 36) (x : Task) (b : Batch) (c : OpCtx), s.standsAt n 1 x b c → c.fetches b = true → ((startFetch n c x b).run s).1.toOption = some () → 
      Completes (.scan n) s (fun t =>
        (t.slice n).task.any (fun y => y.fetching && y.fetch != [] && y.oper == x.oper && y.batch == some b) = true)) ∧
  (∀ (s : State) (n : Fin 36) (x : Task) (b : Batch) (c : OpCtx), s.standsAt n 1 x b c → c.fetches b = false → 
      Completes (.scan n) s (fun t =>
        (t.slice n).task.any (fun y => !y.fetching && y.fetch == [] && y.oper == x.oper + 1 && y.batch.any (fun q => q.rows == b.rows)) = true)) ∧
  (∀ (s : State) (n : Fin 36) (x : Task) (c : OpCtx) (d : ColD) (rows : List (Bool × Nat)) (pa : Nat) (u : State), s.inputsAt n 2 x c → x.kind ≠ .gather → bitAt c.o.opt 0 = false → c.ncols = 1 → c.col 0 = some d → d.ty ≠ .varstr → d.ty ≠ .bool → x.sent < x.blocks c → 1024 * (x.firstBlock c + x.sent) < d.rows → ((rawBlock (x.who n) d (x.firstBlock c + x.sent)).run s).1.toOption = some rows → ((rawBlock (x.who n) d (x.firstBlock c + x.sent)).run s).2 = u → ((xlate (x.who n) (d.base + 1024 * (x.firstBlock c + x.sent) * d.ty.width) false).run u).1.toOption = some pa → ((xlate (x.who n) (d.base + 1024 * (x.firstBlock c + x.sent) * d.ty.width) false).run u).2 = u → (u.slice n).task = some x → u.eng.surv = s.eng.surv → 
      Completes (.scanraw n) s (fun t =>
        t.eng.surv = s.eng.surv ++ [⟨n, x.id, 0, x.sent, blockBits c 0 d rows allBits,
           ((List.range 1024).filter (fun i => nthD (blockBits c 0 d rows allBits) i false)).map (fun i =>
             if (nthD rows i (false, 0)).1 then Cell.of (nthD rows i (false, 0)).2 else Cell.null)⟩] ∧ (t.slice n).task = some { x with opened := true, blks := x.blocks c, sent := x.sent + 1 })) ∧
  (∀ (s : State) (n : Fin 36) (x : Task) (c : OpCtx) (k : Nat) (bytes : List Byte) (u : State) (d : TDecl), s.inputsAt n 2 x c → bitAt c.o.opt 0 = true → x.opened = false → x.kind = .unit k → (c.r.pipe x.pipe).next < (c.r.pipe x.pipe).total → tDeclOf (c.m.decl c.o.a4) = d → ((vread (x.who n) (d.base + 65536 * k) (128 * min 512 (2 ^ d.linesLog2 - 512 * k))).run (s.setTask n { x with blks := 1 })).1.toOption = some bytes → ((vread (x.who n) (d.base + 65536 * k) (128 * min 512 (2 ^ d.linesLog2 - 512 * k))).run (s.setTask n { x with blks := 1 })).2 = u → u.cbSound n → (u.slice n).task = some { x with blks := 1 } → (tableRows c d ((List.range (min 512 (2 ^ d.linesLog2 - 512 * k))).map (fun i => (8 * (512 * k + i), sliceB bytes (128 * i) 128)))).rows ≠ [] → 
      Completes (.scanraw n) s (fun t =>
        (t.slice n).task.any (fun y => y.opened && y.blk == 1 && y.batch == some
          ((Batch.empty.append (tableRows c d ((List.range (min 512 (2 ^ d.linesLog2 - 512 * k))).map (fun i => (8 * (512 * k + i), sliceB bytes (128 * i) 128))))).split 1024).1) = true)) ∧
  (∀ (s : State) (n : Fin 36) (x : Task) (c : OpCtx) (got : List (List (List Cell))) (u : State), s.inputsAt n 3 x c → x.kind ≠ .gather → x.opened = false → (((s.recvPlan n x c).mapM (fun q => recvRows x q.1 q.2)).run s).1.toOption = some got → (((s.recvPlan n x c).mapM (fun q => recvRows x q.1 q.2)).run s).2 = u → (u.slice n).task = some x → u.cbSound n → got.flatten ≠ [] → ((c.m.colList c.o.a0 c.o.a1).map Prod.snd).Nodup → 
      Completes (.recv n) s (fun t =>
        (t.slice n).rbuf = takenFrom (s.recvPlan n x c) ∧
         (t.slice n).task.any (fun y => y.opened && y.blk == y.blks && y.batch.any (fun q => q.rows.length == got.flatten.length &&
           (c.m.colList c.o.a0 c.o.a1).all (fun e => (List.range got.flatten.length).all (fun i => q.cell e.2 i == nthD (nthD got.flatten i []) e.1 Cell.null)))) = true)) ∧
  (∀ (s : State) (n : Fin 36) (x : Task) (c : OpCtx) (k k1 : Nat) (bytes : List Byte) (u : State) (q : Batch), s.inputsAt n 4 x c → c.d.stall = none → c.d.fail = none → x.kind = .unit k → x.opened = false → s.ringPort x.ring = none ∨ 1024 * k * inlineRec c.m c.p c.o + k1 * inlineRec c.m c.p c.o ≤ c.d.inp.length → 1 ≤ k1 → k1 = min 1024 (c.r.inBytes / max 1 (inlineRec c.m c.p c.o) - 1024 * k) → ((inlineRead c.d c.r (1024 * k * inlineRec c.m c.p c.o) (k1 * inlineRec c.m c.p c.o)).run s).1.toOption = some bytes → ((inlineRead c.d c.r (1024 * k * inlineRec c.m c.p c.o) (k1 * inlineRec c.m c.p c.o)).run s).2 = u → (u.slice n).task = some x → u.cbSound n → u.taskGoes n x = true → ((inlineRows c (1024 * k) bytes k1).run u).1.toOption = some q → 
      Completes (.inlineIn n) s (fun t =>
        (t.slice n).task.any (fun y => y.opened && y.blk == 1 && y.batch.any (fun q => q.rows == (List.range k1).map (· + 1024 * k))) = true)) ∧
  (∀ (s : State) (n : Fin 36) (x : Task) (c : OpCtx) (pool l : List Nat) (last : Bool) (ps : PipeSt), s.inputsAt n 49 x c → x.kind ≠ .gather → x.opened = false → x.told = false → (c.r.pipe x.pipe).runs = some pool → nextMerge (c.r.pipe x.pipe) c.fanIn pool = some (l, last, ps) → 
      Completes (.merge n) s (fun t =>
        (t.slice n).task = some { x with opened := true, told := true, runs := l, final := last, blk := 0, blks := 1 } ∧
         (t.run x.ring x.seq).map (fun r => r.pipe x.pipe) = some ps)) ∧
  (∀ (s : State) (n : Fin 36) (x : Task) (c : OpCtx), s.inputsAt n 49 x c → x.kind ≠ .gather → x.opened = false → x.told = true → 
      Completes (.merge n) s (fun t =>
        (t.slice n).task = some { x with opened := true, blk := 0, blks := 1 })) ∧
  (∀ (s : State) (n : Fin 36) (x : Task) (c : OpCtx), s.inputsAt n 49 x c → x.kind ≠ .gather → x.opened = true → x.final = false → x.blk < x.blks → ((interMerge n c x).run s).1.toOption = some () → 
      Completes (.intermediateMergeTask n) s (fun t =>
        (t.slice n).task.any (fun y => y.runs.isEmpty && y.blk == 1) = true ∧
         (t.run x.ring x.seq).map (fun r => (r.pipe x.pipe).merging) = some ((c.r.pipe x.pipe).merging - 1))) ∧
  (∀ (s : State) (n : Fin 36) (x : Task) (c : OpCtx) (recs : List (List Byte)) (u : State), s.inputsAt n 49 x c → x.kind ≠ .gather → x.opened = true → x.final = true → x.blk < x.blks → x.blks = 1 → ((mergedRecords (x.who n) (rDeclOf (c.m.decl c.o.a4)) x.runs).run s).1.toOption = some recs → ((mergedRecords (x.who n) (rDeclOf (c.m.decl c.o.a4)) x.runs).run s).2 = u → (u.slice n).task = some x → u.cbSound n → recs ≠ [] → 
      Completes (.finalMergeTask n) s (fun t =>
        (t.slice n).task.any (fun y => y.runs.isEmpty && y.blk == 1 && y.batch.any (fun q => q.rows == (recs.take 1024).map (fun r => leAt r (rDeclOf (c.m.decl c.o.a4)).keyBytes 8))) = true)) ∧
  (∀ (s : State) (n : Fin 36) (x : Task) (c : OpCtx) (k : Nat) (o : OpW), (s.slice n).task = some x → s.taskGoes n x = true → x.kind = .gather → s.opCtx { x with oper := 0 } = some c → s.cbSound n → x.opened = false → x.batch = none → x.probes = [] → x.queue = Batch.empty → x.ending = false → x.blks ≤ x.blk → (c.r.pipe x.pipe).running = 1 → s.eng.top.all (fun m => m.ring != x.ring || m.seq != x.seq || m.pipe != x.pipe) = true → s.inputGone c.d c.r c.m 16 x.pipe = true → topkAt c.p = some (k, o) → 
      Completes (.gatherTask n) s (fun t =>
        (t.slice n).task.any (fun y => y.opened && (if (c.r.pipe x.pipe).heap.isEmpty then y.batch.isNone else
           y.oper == k + 1 && y.batch.any (fun q => q.rows == ((c.r.pipe x.pipe).heap.take 1024).map (·.rn)))) = true ∧
         (t.run x.ring x.seq).map (fun r => (r.pipe x.pipe).gathered) = some true)) ∧
  (∀ (s : State) (n : Fin 36) (m : TMsg) (x : Task) (c : OpCtx) (k : Nat) (o : OpW), s.eng.top.find? (fun m => m.dst == n.val) = some m → (s.slice n).task = some x → s.taskGoes n x = true → s.cbSound n → x.kind = .gather → x.ring = m.ring → x.seq = m.seq → x.pipe = m.pipe → s.opCtx { x with oper := 0 } = some c → topkAt c.p = some (k, o) → 
      Completes (.topkRows n) s (fun t =>
        t.eng.top = s.eng.top.erase m ∧ (t.run m.ring m.seq).map (fun r => (r.pipe m.pipe).heap) =
           some (keepTop (bitsOf o.a5 12 0) (bitAt o.opt 0) (m.rows.foldl (fun l h => insertBy HeapRow.ord h l) (c.r.pipe m.pipe).heap)).1)) ∧
  (∀ (s : State) (n : Fin 36) (x : Task) (c : OpCtx) (q : Nat), (s.slice n).task = some x → s.taskGoes n x = true → x.kind = .level0 q → x.opened = false → s.opCtx { x with oper := 0 } = some c → c.p.aggOp.isSome = true → ((level0Merge n c x q).run s).1.toOption = some () → 
      Completes (.level0MergeTask n) s (fun t =>
        (t.slice n).task.any (fun y => y.opened && y.blk == 1 && y.blks == 1) = true ∧ (t.slice n).agg = [])) ∧
  (∀ (s : State) (n : Fin 36) (x : Task) (c : OpCtx) (q k : Nat) (o : OpW), (s.slice n).task = some x → s.taskGoes n x = true → x.kind = .level0 q → x.opened = false → s.opCtx { x with oper := 0 } = some c → c.p.aggOp = some (k, o) → Tab.get ([], 0) c.r.l0 (l0Key x.pipe q) = ([], 0) → (s.slice n).agg = [] → 
      Completes (.level0MergeTask n) s (fun t =>
        (t.slice n).task = some { x with opened := true, blk := 1, blks := 1 } ∧ t.eng.bops = s.eng.bops))

/-- PAGE_REQ has the scan front, with room, take the slice's oldest page request for a driving column, and without room take
none. SCAN_CHECK of a line of a page being read that lies undamaged in DRAM, uncached and readable, gives the scan front the
line's bytes. PAGE_RELEASE of a page taken and not ready whose reading goes through has the page ready. CHAIN_FWD of the
slice's oldest bitmap: for a block beyond its column's rows, it takes the bitmap and sends a survivor message of no row; for one
whose page is ready, its rows' values read, it takes the bitmap and sends a message of the bitmap under the column's predicates;
for one whose page is not, the scan front with room takes the page request. ROW_FETCH of a ready page, no page left to be taken
and the rows' values read, takes the page off the fetch list, and with none left ends the fetch. SURVIVOR of a block whose
messages are all there takes the block; short of a batch and of the last block, its rows wait; of the last block, no row waiting,
they are the batch. CORRECTION_WRITE_BACK, the oldest, whose line is undamaged in DRAM, writes the corrected line where it still
holds what the scan front read, and otherwise leaves memory. -/
def Obligations.ScanFrontsComplete : Prop :=
  (∀ (s : State) (n : Fin 36) (q : PageBuf), s.eng.pages.find? (fun b => b.slice == n.val && b.col == 0 && b.oper == 0 && !b.opened) = some q → 
      Completes (.pageReq n) s (fun t =>
        t.eng.pages = if s.frontRoom q.pa then s.eng.pages.map (fun y => if y.same q then { q with opened := true } else y) else s.eng.pages)) ∧
  (∀ (s : State) (n : Fin 36) (ln : Nat) (q : PageBuf) (x : Task), s.eng.pages.find? (fun b => b.slice == n.val && b.opened && b.ready.isNone && decide (b.pa / 128 ≤ ln) && decide (ln < b.pa / 128 + 512)) = some q → (s.slice n).task = some x → s.plainLine (s.ctxIdent x.ctx) ln false → 
      Completes (.scanCheck n ln) s (fun t =>
        t.eng.pages = s.eng.pages.map (fun y => if y.same q then
          { q with lines := Tab.ins q.lines (ln - q.pa / 128) (s.memBytes (128 * ln) 128, false) } else y))) ∧
  (∀ (s : State) (n : Fin 36) (col : Fin 16) (page : Nat) (x : Task) (c : OpCtx) (q : PageBuf) (d : ColD), (s.slice n).task = some x → s.taskGoes n x = true → s.openBuf n x col page = some q → s.opCtx { x with oper := q.oper } = some c → c.o.opc = 1 → c.col col = some d → ((releasePage n c x col page q d).run s).1.toOption = some () → 
      Completes (.pageRelease n col page) s (fun t =>
        t.eng.pages.any (fun y => y.same q && y.ready.isSome) = true)) ∧
  (∀ (s : State) (n : Fin 36) (x : Task) (c : OpCtx) (m : ChainMsg) (d : ColD), (s.slice n).task = some x → s.taskGoes n x = true → s.opCtx { x with oper := 0 } = some c → s.eng.chains.find? (fun m => m.slice == n.val && m.task == x.id) = some m → c.col m.col = some d → ceilDiv d.rows 1024 ≤ x.firstBlock c + m.blk → 
      Completes (.chainFwd n) s (fun t =>
        t.eng.chains = s.eng.chains.erase m ++ (if m.col + 1 < c.ncols then [⟨n, x.id, m.col + 1, m.blk, noBits⟩] else []) ∧
         t.eng.surv = s.eng.surv ++ [⟨n, x.id, m.col, m.blk, noBits, []⟩])) ∧
  (∀ (s : State) (n : Fin 36) (x : Task) (c : OpCtx) (m : ChainMsg) (d : ColD) (q : PageBuf) (pd : PageData) (rows : List (Bool × Nat)) (bits : List Bool), (s.slice n).task = some x → s.taskGoes n x = true → s.opCtx { x with oper := 0 } = some c → s.eng.chains.find? (fun m => m.slice == n.val && m.task == x.id) = some m → c.col m.col = some d → x.firstBlock c + m.blk < ceilDiv d.rows 1024 → s.eng.pages.find? (fun b => b.slice == n.val && b.task == x.id && b.oper == 0 && b.col == m.col && b.page == (x.firstBlock c + m.blk) / d.slots) = some q → q.ready = some pd → rowsBelow d (x.firstBlock c + m.blk) (blockRows d pd ((x.firstBlock c + m.blk) % d.slots)) = rows → blockBits c m.col d rows m.bits = bits → ((sendSurvivors (x.who n) n c x m.col m.blk (s.frontOf q.pa) d rows bits true).run (s.eng' (fun e => { e with chains := e.chains.erase m }))).1.toOption = some () → 
      Completes (.chainFwd n) s (fun t =>
        t.eng.chains = s.eng.chains.erase m ++ (if m.col + 1 < c.ncols then [⟨n, x.id, m.col + 1, m.blk, bits⟩] else []) ∧
         t.eng.surv.map (fun y => (y.slice, y.task, y.col, y.blk, y.bits)) =
           s.eng.surv.map (fun y => (y.slice, y.task, y.col, y.blk, y.bits)) ++ [(n.val, x.id, m.col, m.blk, bits)])) ∧
  (∀ (s : State) (n : Fin 36) (x : Task) (c : OpCtx) (m : ChainMsg) (d : ColD) (q : PageBuf), (s.slice n).task = some x → s.taskGoes n x = true → s.opCtx { x with oper := 0 } = some c → s.eng.chains.find? (fun m => m.slice == n.val && m.task == x.id) = some m → c.col m.col = some d → x.firstBlock c + m.blk < ceilDiv d.rows 1024 → s.eng.pages.find? (fun b => b.slice == n.val && b.task == x.id && b.oper == 0 && b.col == m.col && b.page == (x.firstBlock c + m.blk) / d.slots) = some q → q.ready = none → q.opened = false → s.frontRoom q.pa = true → 
      Completes (.chainFwd n) s (fun t =>
        t.eng.chains = s.eng.chains ∧ t.eng.pages = s.eng.pages.map (fun y => if y.same q then { q with opened := true } else y))) ∧
  (∀ (s : State) (n : Fin 36) (x : Task) (b : Batch) (c : OpCtx) (it : FetchItem) (q : PageBuf) (pd : PageData), (s.slice n).task = some x → s.taskGoes n x = true → s.scanCtx x = some c → s.cbSound n → x.batch = some b → x.fetching = true → x.fetch.all (fun e => (s.pageBuf n x e.col e.page).all (·.opened)) = true → x.fetch.findSome? (fun e => match s.pageBuf n x e.col e.page with
    | some pb => pb.ready.map (fun l => (e, pb, l))
    | none => none) = some (it, q, pd) → ((fetchRows n c x b it q pd).run s).1.toOption = some () → c.col it.col ≠ none → 
      Completes (.rowFetch n) s (fun t =>
        t.eng.pages = s.eng.pages.filter (fun y => !y.same q) ∧
         (x.fetch.erase it ≠ [] → (t.slice n).task.any (fun y => y.fetching && y.fetch == x.fetch.erase it && y.batch == some b) = true) ∧
         (x.fetch.erase it = [] → (t.slice n).task.any (fun y => !y.fetching && y.fetch == [] && y.oper == x.oper + 1 && y.batch.any (fun z => z.rows == b.rows)) = true))) ∧
  (∀ (s : State) (n : Fin 36) (x : Task) (c : OpCtx) (q : Batch), (s.slice n).task = some x → s.taskGoes n x = true → s.cbSound n → s.opCtx { x with oper := 0 } = some c → x.opened = true → c.o.opc = 1 ∨ c.o.opc = 2 → c.ncols ≤ (s.survOf n x x.blk).length → blockBatch x c (s.survOf n x x.blk) (1024 * (x.firstBlock c + x.blk)) = q → x.blk + 1 < x.blks → (x.queue.append q).rows.length < 1024 → 
      Completes (.survivor n) s (fun t =>
        t.eng.surv = s.eng.surv.filter (fun m => !(m.slice == n.val && m.task == x.id && m.blk == x.blk)) ∧
         (t.slice n).task = some { x with blk := x.blk + 1, queue := x.queue.append q })) ∧
  (∀ (s : State) (n : Fin 36) (x : Task) (c : OpCtx) (q : Batch), (s.slice n).task = some x → s.taskGoes n x = true → s.cbSound n → s.opCtx { x with oper := 0 } = some c → x.opened = true → c.o.opc = 1 ∨ c.o.opc = 2 → c.ncols ≤ (s.survOf n x x.blk).length → blockBatch x c (s.survOf n x x.blk) (1024 * (x.firstBlock c + x.blk)) = q → x.blk + 1 = x.blks → x.queue = Batch.empty → x.batch = none → x.probes = [] → x.ending = false → q.rows ≠ [] → 
      Completes (.survivor n) s (fun t =>
        t.eng.surv = s.eng.surv.filter (fun m => !(m.slice == n.val && m.task == x.id && m.blk == x.blk)) ∧
         (t.slice n).task.any (fun y => y.blk == x.blks && y.oper == 1 && y.batch.any (fun z => z.rows == q.rows.take 1024)) = true)) ∧
  (∀ (s : State) (m : CorrMsg) (l : List CorrMsg), s.eng.corr = m :: l → s.plainLine m.who m.ln true → s.memBytes (128 * m.ln) 128 = m.old → m.new.length = 128 → s.rd (Reg.MCH_FLIP (s.chanOf (128 * m.ln))) F.MCH_FLIP_ARM = 0 → 
      Completes (.correctionWriteBack) s (fun t =>
        t.eng.corr = l ∧ t.memBytes (128 * m.ln) 128 = m.new)) ∧
  (∀ (s : State) (m : CorrMsg) (l : List CorrMsg), s.eng.corr = m :: l → s.plainLine m.who m.ln false → s.memBytes (128 * m.ln) 128 ≠ m.old → 
      Completes (.correctionWriteBack) s (fun t =>
        t.eng.corr = l ∧ t.mem = s.mem))

/-- BUCKET_INSERT, BUCKET_PROBE and BUCKET_MERGE of an operation that stands at a line of its visit sequence, its request flit
sent, the line lying undamaged in DRAM, uncached and readable and (but for a probe) writable by the operation's identity, do
there what the line's entries call for: the line then reads as they leave it, what they report is added to what the operation
has found, and the operation ends with their status, goes on to the next line, or after the last to the anchor.
ANCHOR_VISIT of an operation at its anchor line, so placed and no other at work on the partition, ends a probe whose partition
has not spilled with nothing more found, and an operation whose partition has failed with status 0x23; where the partition has a
chunk, an insert without DISTINCT goes to its last chunk and any other operation to its first. SPILL_CHUNK_VISIT of a search,
chunk and anchor lines so placed: at a line in use it adds what the entries report and, the line left as it is, ends or goes on
to the next line; beyond the lines in use, it goes to the next chunk, or, with none, ends a probe. PROBE_RESULT of a probe that
has ended with status 0 takes it off the books and puts its payloads into its task's staging; where the PROBE is the one at work
it produces a batch once no probe is left to end, and while some are and the rows there do not fill a batch it waits. -/
def Obligations.BucketOperationsComplete : Prop :=
  (∀ (s : State) (b : BOp) (d : TDecl) (who : Ident) (distinct : Bool) (k ln : Nat) (v : Visit), s.bop b.id = some b → s.bopSent b = true → b.kind = .insert distinct → b.st = .line k → d = s.bopDecl b → who = s.ctxIdent (s.bopCtx b) → nthD b.lines k 0 = 128 * ln → s.plainLine who ln true → s.fwGrants who (128 * ln) false = true → s.rd (Reg.MCH_FLIP (s.chanOf (128 * ln))) F.MCH_FLIP_ARM = 0 → d.entryBytes ≤ 128 → d.visit b (s.memBytes (128 * ln) 128) true = v → 
      Completes (.bucketInsert b.id) s (fun t =>
        (t.bop b.id).map (fun q => (q.st, q.status, q.found)) = some (if v.ends then (.done, v.status, b.found ++ v.found) else
           (if k + 1 < b.lines.length then .line (k + 1) else .anchor, b.status, b.found ++ v.found)) ∧
         (t.readPa who (128 * ln) 128).1 = ⟨.ok, v.line.getD (s.memBytes (128 * ln) 128), false⟩)) ∧
  (∀ (s : State) (b : BOp) (d : TDecl) (who : Ident) (k ln : Nat) (v : Visit), s.bop b.id = some b → s.bopSent b = true → b.kind = .merge → b.st = .line k → d = s.bopDecl b → who = s.ctxIdent (s.bopCtx b) → nthD b.lines k 0 = 128 * ln → s.plainLine who ln true → s.fwGrants who (128 * ln) false = true → s.rd (Reg.MCH_FLIP (s.chanOf (128 * ln))) F.MCH_FLIP_ARM = 0 → d.entryBytes ≤ 128 → d.visit b (s.memBytes (128 * ln) 128) true = v → 
      Completes (.bucketMerge b.id) s (fun t =>
        (t.bop b.id).map (fun q => (q.st, q.status, q.found)) = some (if v.ends then (.done, v.status, b.found ++ v.found) else
           (if k + 1 < b.lines.length then .line (k + 1) else .anchor, b.status, b.found ++ v.found)) ∧
         (t.readPa who (128 * ln) 128).1 = ⟨.ok, v.line.getD (s.memBytes (128 * ln) 128), false⟩)) ∧
  (∀ (s : State) (b : BOp) (d : TDecl) (who : Ident) (k ln : Nat) (v : Visit), s.bop b.id = some b → s.bopSent b = true → b.kind = .probe → b.st = .line k → d = s.bopDecl b → who = s.ctxIdent (s.bopCtx b) → nthD b.lines k 0 = 128 * ln → s.plainLine who ln false → d.visit b (s.memBytes (128 * ln) 128) true = v → 
      Completes (.bucketProbe b.id) s (fun t =>
        (t.bop b.id).map (fun q => (q.st, q.status, q.found)) = some (if v.ends then (.done, v.status, b.found ++ v.found) else
           (if k + 1 < b.lines.length then .line (k + 1) else .anchor, b.status, b.found ++ v.found)) ∧
         t.mem = s.mem)) ∧
  (∀ (s : State) (b : BOp) (who : Ident) (ln : Nat) (a : List Byte), s.bop b.id = some b → b.kind = .probe → b.st = .anchor → s.anchorBusy b = false → who = s.ctxIdent (s.bopCtx b) → b.anchor = 128 * ln → s.plainLine who ln false → s.memBytes b.anchor 128 = a → bitAt (leAt a 0 1) 1 = false → bitAt (leAt a 0 1) 0 = false ∨ leAt a 8 8 = 0 → 
      Completes (.anchorVisit b.id) s (fun t =>
        (t.bop b.id).map (fun q => (q.st, q.status, q.found)) = some (.done, 0, b.found) ∧ t.mem = s.mem)) ∧
  (∀ (s : State) (b : BOp) (who : Ident) (ln : Nat) (a : List Byte), s.bop b.id = some b → b.st = .anchor → s.anchorBusy b = false → who = s.ctxIdent (s.bopCtx b) → b.anchor = 128 * ln → s.plainLine who ln false → s.memBytes b.anchor 128 = a → bitAt (leAt a 0 1) 1 = true → 
      Completes (.anchorVisit b.id) s (fun t =>
        (t.bop b.id).map (fun q => (q.st, q.status, q.found)) = some (.done, 0x23, b.found) ∧ t.mem = s.mem)) ∧
  (∀ (s : State) (b : BOp) (who : Ident) (ln : Nat) (a : List Byte), s.bop b.id = some b → b.st = .anchor → s.anchorBusy b = false → who = s.ctxIdent (s.bopCtx b) → b.anchor = 128 * ln → s.plainLine who ln false → s.memBytes b.anchor 128 = a → bitAt (leAt a 0 1) 1 = false → bitAt (leAt a 0 1) 0 = true → leAt a 8 8 ≠ 0 → 
      Completes (.anchorVisit b.id) s (fun t =>
        (t.bop b.id).map (·.st) = some (if b.kind = .insert false then .chunk (leAt a 16 8) 1 false else .chunk (leAt a 8 8) 1 true) ∧ t.mem = s.mem)) ∧
  (∀ (s : State) (b : BOp) (d : TDecl) (who : Ident) (p j l : Nat) (v : Visit), s.bop b.id = some b → b.st = .chunk (128 * p) l true → d = s.bopDecl b → who = s.ctxIdent (s.bopCtx b) → b.anchor = 128 * j → s.plainLine who p false → s.plainLine who j false → s.plainLine who (p + l) false → l < leAt (s.memBytes (128 * p) 128) 8 4 → d.visit b (s.memBytes (128 * (p + l)) 128) false = v → v.line = none → 
      Completes (.spillChunkVisit b.id) s (fun t =>
        (t.bop b.id).map (fun q => (q.st, q.status, q.found)) = some (if v.ends then (.done, v.status, b.found ++ v.found) else
           (.chunk (128 * p) (l + 1) true, b.status, b.found ++ v.found)) ∧ t.mem = s.mem)) ∧
  (∀ (s : State) (b : BOp) (who : Ident) (p j l : Nat), s.bop b.id = some b → b.kind = .probe → b.st = .chunk (128 * p) l true → who = s.ctxIdent (s.bopCtx b) → b.anchor = 128 * j → s.plainLine who p false → s.plainLine who j false → leAt (s.memBytes (128 * p) 128) 8 4 ≤ l → 
      Completes (.spillChunkVisit b.id) s (fun t =>
        (t.bop b.id).map (fun q => (q.st, q.status, q.found)) = some (if leAt (s.memBytes (128 * p) 128) 0 8 = 0 then (.done, 0, b.found) else
           (.chunk (leAt (s.memBytes (128 * p) 128) 0 8) 1 true, b.status, b.found)) ∧ t.mem = s.mem)) ∧
  (∀ (s : State) (b : BOp) (x : Task) (p : ProbeSt) (l : List ProbeSt), s.bop b.id = some b → b.kind = .probe → b.st = .done → b.status = 0 → (s.slice b.slice).task = some x → b.slice < 36 → x.id = b.task → x.probes = p :: l → p.oper = b.oper → l.all (fun q => q.oper != b.oper) = true → x.batch.isSome = true → 
      Completes (.probeResult b.id) s (fun t =>
        t.eng.bops = s.eng.bops.filter (fun y => y.id != b.id) ∧ (t.slice b.slice).task = some { x with probes := p.take b :: l })) ∧
  (∀ (s : State) (b : BOp) (x : Task) (p : ProbeSt) (c : OpCtx), s.bop b.id = some b → b.kind = .probe → b.st = .done → b.status = 0 → (s.slice b.slice).task = some x → b.slice < 36 → x.id = b.task → x.probes = [p] → p.oper = b.oper → x.batch = none → s.taskGoes b.slice x = true → s.opCtx x = some c → p.out.erase b.pos ≠ [] → (((p.take b).rows c.joinKind).drop p.made).length < 1024 → 
      Completes (.probeResult b.id) s (fun t =>
        t.eng.bops = s.eng.bops.filter (fun y => y.id != b.id) ∧ (t.slice b.slice).task = some { x with oper := p.oper, probes := [p.take b] })) ∧
  (∀ (s : State) (b : BOp) (x : Task) (p : ProbeSt) (c : OpCtx), s.bop b.id = some b → b.kind = .probe → b.st = .done → b.status = 0 → (s.slice b.slice).task = some x → b.slice < 36 → s.cbSound b.slice → x.id = b.task → x.probes = [p] → p.oper = b.oper → x.batch = none → s.taskGoes b.slice x = true → s.opCtx x = some c → p.out.erase b.pos = [] → (((p.take b).rows c.joinKind).drop p.made).length ≤ 1024 → 
      Completes (.probeResult b.id) s (fun t =>
        t.eng.bops = s.eng.bops.filter (fun y => y.id != b.id) ∧ (t.slice b.slice).task = some { x with
          batch := some (probeBatch c p.src ((((p.take b).rows c.joinKind).drop p.made).take 1024)), oper := p.oper + 1, probes := [] }))

/-- DISPATCH for a free slice that the turbo rule does not hold, of the contexts that have a task for it and are let on it one
winning the decision, puts that context's next task on the slice, counts it in the pipeline, and rewrites the column buffer first
exactly where the slice's last identity or its checking mode differs; where the turbo rule holds the slice, it takes no task.
RECV_TASK_DISPATCH does so where that task is a RECV task. EXCHANGE of the last flits of the only message, for a slice with no
task, nothing received and room, whose RECV pipeline does not wait for the sender, puts the message into the slice's receive
buffer; of earlier flits it returns their credits, and the sender sends on. CBUF_REWRITE_DONE lets the task start, after an
identity clear with an empty aggregation cache. CBUF_SCRUB, enabled, goes on to the next line; it takes a correctable error of its
line away, and leaves an uncorrectable one. TASK_END of a task that has processed all of its input, its partials and rows of TOPK
sent without an error or a stall, frees the slice; so does that of a task in error, whose status its run then has, if it had none. -/
def Obligations.SlicesComplete : Prop :=
  (∀ (s : State) (n : Fin 36) (el : List Nat) (w : Nat) (d : Desc) (j : Nat) (k : TaskKind), s.slcFree n = true → s.turboHeld n = false → (s.runCtxs.filter (fun c => s.ctxMay c n)).filter (fun c => (s.ctxTask c n).isSome) = el → s.winner el = some w → s.ctxTask w n = some (d, j, k) → 
      Completes (.dispatch n) s (fun t =>
        (t.slice n).task.any (fun y => y.ring == d.ring && y.seq == d.seq && y.ctx == d.ctx && y.pipe == j && y.kind == k && y.batch.isNone && !y.opened) = true ∧
         (t.slice n).last = some (s.ctxIdent d.ctx) ∧
         ((t.slice n).rewriting = true ↔ (s.slice n).last ≠ some (s.ctxIdent d.ctx) ∨
           s.rd (Reg.SLC_STATUS n) F.SLC_STATUS_CBUF_MODE ≠ b2n ((s.img ((d.run.map (·.slot)).getD 0)).isa == 0)) ∧
         (t.run d.ring d.seq).map (fun r => (r.pipe j).running) = d.run.map (fun r => (r.pipe j).running + 1))) ∧
  (∀ (s : State) (n : Fin 36), s.slcFree n = true → s.turboHeld n = true → 
      Completes (.dispatch n) s (fun t =>
        (t.slice n).task = none)) ∧
  (∀ (s : State) (n : Fin 36) (el : List Nat) (w : Nat) (d : Desc) (j : Nat), s.slcFree n = true → s.turboHeld n = false → (s.runCtxs.filter (fun c => s.ctxMay c n)).filter (fun c => (s.ctxTask c n).isSome) = el → s.winner el = some w → s.ctxTask w n = some (d, j, .recv) → 
      Completes (.recvTaskDispatch n) s (fun t =>
        (t.slice n).task.any (fun y => y.ring == d.ring && y.seq == d.seq && y.ctx == d.ctx && y.pipe == j && y.kind == .recv && y.batch.isNone && !y.opened) = true ∧
         (t.slice n).last = some (s.ctxIdent d.ctx) ∧
         ((t.slice n).rewriting = true ↔ (s.slice n).last ≠ some (s.ctxIdent d.ctx) ∨
           s.rd (Reg.SLC_STATUS n) F.SLC_STATUS_CBUF_MODE ≠ b2n ((s.img ((d.run.map (·.slot)).getD 0)).isa == 0)) ∧
         (t.run d.ring d.seq).map (fun r => (r.pipe j).running) = d.run.map (fun r => (r.pipe j).running + 1))) ∧
  (∀ (s : State) (n : Fin 36) (m : XMsg), s.eng.xch = [m] → m.dst = n → m.taken < m.sent → m.sent = m.flits → m.place = none → (s.slice n).task = none → (s.slice n).rbuf = [] → m.flits ≤ 448 → s.recvWaits m.ring m.seq m.xid = false → 
      Completes (.exchange n) s (fun t =>
        t.eng.xch = [] ∧ (t.slice n).rbuf = [⟨none, s.xWidths m, 0, { m with taken := m.sent }⟩])) ∧
  (∀ (s : State) (n : Fin 36) (m : XMsg), s.eng.xch = [m] → m.dst = n → m.taken < m.sent → m.sent < m.flits → m.place = none → (s.slice n).task = none → (s.slice n).rbuf = [] → m.flits ≤ 448 → s.recvWaits m.ring m.seq m.xid = false → 
      Completes (.exchange n) s (fun t =>
        t.eng.xch = [{ m with taken := m.sent, sent := m.sent + min 16 (m.flits - m.sent) }] ∧ (t.slice n).rbuf = (s.slice n).rbuf)) ∧
  (∀ (s : State) (n : Fin 36) (x : Task), (s.slice n).task = some x → (s.slice n).rewriting = true → 
      Completes (.cbufRewriteDone n) s (fun t =>
        (t.slice n).task = some x ∧ (t.slice n).rewriting = false ∧ (t.slice n).agg = (if (s.slice n).clearing then [] else (s.slice n).agg) ∧ t.rd (Reg.SLC_STATUS n) F.SLC_STATUS_STATE = 1)) ∧
  (∀ (s : State) (n : Fin 36), s.on (Reg.SLC_CTRL n) F.SLC_CTRL_CBUF_SCRUB = true → Tab.get [] (s.slice n).bad (s.slice n).scrub = [] → 
      Completes (.cbufScrub n) s (fun t =>
        (t.slice n).scrub = ((s.slice n).scrub + 1) % 32768 ∧ (t.slice n).task = (s.slice n).task ∧ (t.slice n).bad = (s.slice n).bad ∧ t.regs = s.regs)) ∧
  (∀ (s : State) (n : Fin 36) (l : List Nat), s.on (Reg.SLC_CTRL n) F.SLC_CTRL_CBUF_SCRUB = true → Tab.get [] (s.slice n).bad (s.slice n).scrub = l → l ≠ [] → errUnits (s.byWord n false) l < 100 → 
      Completes (.cbufScrub n) s (fun t =>
        (t.slice n).scrub = ((s.slice n).scrub + 1) % 32768 ∧ (t.slice n).task = (s.slice n).task ∧ Tab.get [] (t.slice n).bad (s.slice n).scrub = [])) ∧
  (∀ (s : State) (n : Fin 36) (l : List Nat), s.on (Reg.SLC_CTRL n) F.SLC_CTRL_CBUF_SCRUB = true → Tab.get [] (s.slice n).bad (s.slice n).scrub = l → l ≠ [] → 100 ≤ errUnits (s.byWord n false) l → 
      Completes (.cbufScrub n) s (fun t =>
        (t.slice n).scrub = ((s.slice n).scrub + 1) % 32768 ∧ (t.slice n).task = (s.slice n).task ∧ (t.slice n).bad = (s.slice n).bad)) ∧
  (∀ (s : State) (n : Fin 36) (x y : Task) (p : PipeSt), (s.slice n).task = some x → s.taskGoes n x = true → (s.run x.ring x.seq).map (fun r => r.pipe x.pipe) = some p → x.finished p.gathered = true → x.ending = false → ((s.taskDo n (fun t => flushTask n t)).slice n).task = some y → y.fail = none → y.stall = none → 
      Completes (.taskEnd n) s (fun t =>
        (t.slice n).task = none ∧ (t.slice n).agg = [])) ∧
  (∀ (s : State) (n : Fin 36) (x : Task) (f : Fail), (s.slice n).task = some x → s.slcGated n = false → x.fail = some f → 
      Completes (.taskEnd n) s (fun t =>
        (t.slice n).task = none ∧ (t.slice n).agg = [] ∧
         (t.desc x.ring x.seq).map (·.fail) = (s.desc x.ring x.seq).map (fun d => some (d.fail.getD f))))

/-- A channel that runs a program and comes to the instruction, which it reads undamaged, no bad status of the run standing there:
a well-formed MOVE begins with its lines, displaced under its flag by the iteration of its loop; its next line returned and written it goes on to the next one,
and its last ends it with status 1. ENCODE of an open column with rows left begins to take rows, as does ENCODE with OPEN once the
column is opened; rows returned and taken, it goes on with the rows still asked for, and with none ends with status 1; with no
column open it ends with status 0x83. FLUSH of an open column, flushed, and WAIT for a drain with nothing to drain
end with status 1 and the next instruction follows; WAIT for a drain with a page still closing waits; WAIT for a memory word begins
to poll. LOOP with a count of 1, or on its last pass, ends with status 1 and the next instruction follows; on its first pass of
several, and on a later one but the last, it goes BACK instructions and notes the passes left. SIGNAL with nothing to drain writes
its value, then status 1, with its MSI sent before that where asked. END with no column open and nothing to drain writes status 1
and ends the program, with its MSI flag; with a column open it closes it, and waits where a page is then closing. A reserved
opcode writes status 0x84 and ends the program with no MSI. In each case the status byte written is byte 14 of the
instruction, that write succeeding, and memory is as it leaves it. -/
def Obligations.ChannelInstructionsComplete : Prop :=
  (∀ (s : State) (n : Fin 32) (i : DmIns) (u : State) (k : Nat), s.channelAt n i u → i.op = 1 → i.flags ≤ 1 → i.f 13 0 ≠ 0 → k = (if bitAt i.flags 0 then u.dmIter n * i.f 13 0 else 0) → 
      Completes (.move n) s (fun t =>
        t.chan n = { s.chan n with work := .move (i.f 103 59 + k) (i.f 58 14 + k) (i.f 13 0) } ∧ t.mem = u.mem)) ∧
  (∀ (s : State) (n : Fin 32) (src dst left : Nat) (r : RdRes) (u v : State), (s.chan n).work = .move src dst left → 1 < left → s.readPa (s.chanWho n) (128 * src) 128 = (r, u) → r.res = .ok → r.poison = false → u.writePa (u.chanWho n) (128 * dst) r.bytes = (.ok, v) → 
      Completes (.dmReadReturn n) s (fun t =>
        (t.chan n).work = .move (src + 1) (dst + 1) (left - 1) ∧ t.mem = v.mem)) ∧
  (∀ (s : State) (n : Fin 32) (src dst left : Nat) (r : RdRes) (u v : State), (s.chan n).work = .move src dst left → left ≤ 1 → s.readPa (s.chanWho n) (128 * src) 128 = (r, u) → r.res = .ok → r.poison = false → u.writePa (u.chanWho n) (128 * dst) r.bytes = (.ok, v) → v.mayEnd n 1 → 
      Completes (.dmReadReturn n) s (fun t =>
        v.ended n 1 t)) ∧
  (∀ (s : State) (n : Fin 32) (i : DmIns) (u : State) (e : EncCol), s.channelAt n i u → i.op = 2 → i.encodeOk = true → bitAt i.flags 0 = false → (s.chan n).enc = some e → e.row < e.src.rows → 
      Completes (.encode n) s (fun t =>
        t.chan n = { s.chan n with work := .encode (i.f 31 0), enc := some { e with level := i.f 58 56 } })) ∧
  (∀ (s : State) (n : Fin 32) (i : DmIns) (u v : State) (e : EncCol), s.channelAt n i u → i.op = 2 → i.encodeOk = true → bitAt i.flags 0 = true → ((openCol n (i.f 103 59 * 128) (i.f 58 56)).run u).1.toOption = some (some e) → ((openCol n (i.f 103 59 * 128) (i.f 58 56)).run u).2 = v → e.row < e.src.rows → 
      Completes (.encode n) s (fun t =>
        t.chan n = { v.chan n with work := .encode (i.f 31 0), enc := some e } ∧ t.mem = v.mem)) ∧
  (∀ (s : State) (n : Fin 32) (i : DmIns) (u : State), s.channelAt n i u → i.op = 2 → i.encodeOk = true → bitAt i.flags 0 = false → (s.chan n).enc = none → u.mayEnd n 0x83 → 
      Completes (.encode n) s (fun t =>
        u.ended n 0x83 t)) ∧
  (∀ (s : State) (n : Fin 32) (left k : Nat) (e e' : EncCol) (v : State), (s.chan n).work = .encode left → (s.chan n).enc = some e → ((takeRowsOf n e left).run s).1.toOption = some (e', k) → ((takeRowsOf n e left).run s).2 = v → k < left → e'.row < e'.src.rows → 
      Completes (.dmReadReturn n) s (fun t =>
        (t.chan n).work = .encode (left - k) ∧ (t.chan n).enc = some e' ∧ t.mem = v.mem)) ∧
  (∀ (s : State) (n : Fin 32) (left k : Nat) (e e' : EncCol) (v : State), (s.chan n).work = .encode left → (s.chan n).enc = some e → ((takeRowsOf n e left).run s).1.toOption = some (e', k) → ((takeRowsOf n e left).run s).2 = v → left ≤ k → (v.withEnc n (some e')).mayEnd n 1 → 
      Completes (.dmReadReturn n) s (fun t =>
        (v.withEnc n (some e')).ended n 1 t ∧ (t.chan n).enc = some e')) ∧
  (∀ (s : State) (n : Fin 32) (i : DmIns) (u v : State) (e e' : EncCol), s.channelAt n i u → i.op = 3 → i.flags ≤ 1 → i.opnd = 0 → (s.chan n).enc = some e → ((flushOpen n e (bitAt i.flags 0)).run u).1.toOption = some (some e') → ((flushOpen n e (bitAt i.flags 0)).run u).2 = v → (v.withEnc n (some e')).mayEnd n 1 → 
      Completes (.flush n) s (fun t =>
        (v.withEnc n (some e')).ended n 1 t ∧ (t.chan n).enc = some e')) ∧
  (∀ (s : State) (n : Fin 32) (i : DmIns) (u : State), s.channelAt n i u → i.op = 4 → i.loopOk (s.chan n).pc = true → i.count = 1 → (s.chan n).loops.all (fun l => l.at_ != (s.chan n).pc) = true → (u.statusWrite n 1).1 = .ok → 
      Completes (.loop n) s (fun t =>
        u.ended n 1 t)) ∧
  (∀ (s : State) (n : Fin 32) (i : DmIns) (u : State), s.channelAt n i u → i.op = 4 → i.loopOk (s.chan n).pc = true → 1 < i.count → (s.chan n).loops.all (fun l => l.at_ != (s.chan n).pc) = true → (s.chan n).loops.length < 4 → (u.statusWrite n 1).1 = .ok → 
      Completes (.loop n) s (fun t =>
        t.mem = (u.statusWrite n 1).2.mem ∧ (t.chan n).pc = (s.chan n).pc - i.back ∧
         (t.chan n).loops = (s.chan n).loops ++ [⟨(s.chan n).pc, i.back, i.count - 2, 1⟩])) ∧
  (∀ (s : State) (n : Fin 32) (i : DmIns) (u : State) (l : DmLoop), s.channelAt n i u → i.op = 4 → i.loopOk (s.chan n).pc = true → (s.chan n).loops.find? (fun x => x.at_ == (s.chan n).pc) = some l → 0 < l.left → (u.statusWrite n 1).1 = .ok → 
      Completes (.loop n) s (fun t =>
        t.mem = (u.statusWrite n 1).2.mem ∧ (t.chan n).pc = (s.chan n).pc - i.back ∧
         (t.chan n).loops = (s.chan n).loops.filter (fun x => x.at_ != (s.chan n).pc) ++ [{ l with left := l.left - 1, iter := l.iter + 1 }])) ∧
  (∀ (s : State) (n : Fin 32) (i : DmIns) (u v : State) (l : DmLoop), s.channelAt n i u → i.op = 4 → i.loopOk (s.chan n).pc = true → (s.chan n).loops.find? (fun x => x.at_ == (s.chan n).pc) = some l → l.left = 0 → v = u.setChan n { u.chan n with loops := (u.chan n).loops.filter (fun x => x.at_ != (s.chan n).pc) } → (v.statusWrite n 1).1 = .ok → 
      Completes (.loop n) s (fun t =>
        v.ended n 1 t ∧ (t.chan n).loops = (s.chan n).loops.filter (fun x => x.at_ != (s.chan n).pc))) ∧
  (∀ (s : State) (n : Fin 32) (i : DmIns) (u : State), s.channelAt n i u → i.op = 5 → i.flags = 0 → i.opnd = 0 → (s.chan n).closing = [] → (u.statusWrite n 1).1 = .ok → 
      Completes (.wait n) s (fun t =>
        u.ended n 1 t)) ∧
  (∀ (s : State) (n : Fin 32) (i : DmIns) (u : State), s.channelAt n i u → i.op = 5 → i.flags = 0 → i.opnd = 0 → (s.chan n).closing ≠ [] → 
      Completes (.wait n) s (fun t =>
        t.chan n = s.chan n ∧ t.mem = u.mem)) ∧
  (∀ (s : State) (n : Fin 32) (i : DmIns) (u : State), s.channelAt n i u → i.op = 5 → i.flags = 1 → i.f 54 32 = 0 → 
      Completes (.wait n) s (fun t =>
        t.chan n = { s.chan n with work := .wait (i.f 103 55 * 8) (i.f 31 0) })) ∧
  (∀ (s : State) (n : Fin 32) (i : DmIns) (u v : State), s.channelAt n i u → i.op = 6 → i.flags = 0 → i.f 54 32 = 0 → (s.chan n).closing = [] → u.writePa (u.chanWho n) (i.f 103 55 * 8) (leBytes 8 (i.f 31 0)) = (.ok, v) → (v.statusWrite n 1).1 = .ok → 
      Completes (.signal n) s (fun t =>
        v.ended n 1 t)) ∧
  (∀ (s : State) (n : Fin 32) (i : DmIns) (u v : State), s.channelAt n i u → i.op = 6 → i.flags = 1 → i.f 54 32 = 0 → (s.chan n).closing = [] → u.writePa (u.chanWho n) (i.f 103 55 * 8) (leBytes 8 (i.f 31 0)) = (.ok, v) → ((v.chanMsi n).statusWrite n 1).1 = .ok → 
      Completes (.signal n) s (fun t =>
        (v.chanMsi n).ended n 1 t)) ∧
  (∀ (s : State) (n : Fin 32) (i : DmIns) (u : State), s.channelAt n i u → i.op = 0xF → i.flags ≤ 1 → i.opnd = 0 → (s.chan n).enc = none → (s.chan n).closing = [] → (u.statusWrite n 1).1 = .ok → 
      Completes (.dmEnd n) s (fun t =>
        t.mem = (u.statusWrite n 1).2.mem ∧ (t.chan n).ending = some (bitAt i.flags 0) ∧ (t.chan n).prog = (s.chan n).prog)) ∧
  (∀ (s : State) (n : Fin 32) (i : DmIns) (u v : State) (e : EncCol), s.channelAt n i u → i.op = 0xF → i.flags ≤ 1 → i.opnd = 0 → (s.chan n).enc = some e → ((flushShut n e).run u).1.toOption = some none → ((flushShut n e).run u).2 = v → (v.chan n).closing ≠ [] → 
      Completes (.dmEnd n) s (fun t =>
        (t.chan n).enc = none ∧ (t.chan n).ending = none ∧ (t.chan n).closing = (v.chan n).closing ∧ t.mem = v.mem)) ∧
  (∀ (s : State) (n : Fin 32) (i : DmIns) (u : State), s.channelAt n i u → i.op = 0 ∨ (6 < i.op ∧ i.op ≠ 0xF) → (u.statusWrite n 0x84).1 = .ok → 
      Completes (.dmReservedOpcode n) s (fun t =>
        t.mem = (u.statusWrite n 0x84).2.mem ∧ (t.chan n).ending = some false ∧ (t.chan n).enc = none ∧
         (t.chan n).badAt = (s.chan n).badAt ++ [(s.chan n).pc]))

/-- PROGRAM_TABLE_ENTRY of an idle channel with a program due, its entry read undamaged, a multiple of 16 below 2^52, starts the
program at that address with STATE 0b10; any other entry counts as done, with a bad status recorded. WAIT_POLL of a word that has
reached the value ends the WAIT with status 1, and of one that has not leaves it polling; WAIT_TIMEOUT ends it with status 0x87.
FOOTER_WRITE writes the footer of the oldest page whose footer waits; ENCODE_BLOCK_WRITE_BACK of the oldest page whose footer is
written writes NEXT_ROW, HEAP_NEXT and PAGES into its encode block and is done with the page. PROGRAM_DONE of a program that has
ended, with nothing to drain, frees the channel, DONE counted and STATE 0b01; with a page still closing it waits.
CHANNEL_DRAIN_DONE of a channel taken out of use with nothing to drain makes STATE 0. -/
def Obligations.ChannelProgressComplete : Prop :=
  (∀ (s : State) (n : Fin 32) (a e : Nat) (r : RdRes), s.chanState n = 1 → s.rd (Reg.DM_STATUS n) F.DM_STATUS_DONE ≠ (s.chan n).start → a = s.rd (Reg.DM_TABLE n) F.DM_TABLE_BASE * 8 + 8 * (s.rd (Reg.DM_STATUS n) F.DM_STATUS_DONE % 2 ^ s.rd (Reg.DM_TABLE n) F.DM_TABLE_SIZE_LOG2) → (s.readPa (s.chanWho n) a 8).1 = r → r.res = .ok → r.poison = false → leNat r.bytes = e → e % 16 = 0 → e < 2 ^ 52 → 
      Completes (.programTableEntry n) s (fun t =>
        (t.chan n).prog = some e ∧ (t.chan n).pc = 0 ∧ (t.chan n).work = .none ∧ t.chanState n = 2)) ∧
  (∀ (s : State) (n : Fin 32) (a e : Nat) (r : RdRes), s.chanState n = 1 → s.rd (Reg.DM_STATUS n) F.DM_STATUS_DONE ≠ (s.chan n).start → a = s.rd (Reg.DM_TABLE n) F.DM_TABLE_BASE * 8 + 8 * (s.rd (Reg.DM_STATUS n) F.DM_STATUS_DONE % 2 ^ s.rd (Reg.DM_TABLE n) F.DM_TABLE_SIZE_LOG2) → (s.readPa (s.chanWho n) a 8).1 = r → r.res = .ok → r.poison = false → leNat r.bytes = e → e % 16 ≠ 0 ∨ 2 ^ 52 ≤ e → 
      Completes (.programTableEntry n) s (fun t =>
        (t.chan n).prog = (s.chan n).prog ∧ t.on (Reg.DM_ERR n) F.DM_ERR_VALID = true ∧
         t.rd (Reg.DM_STATUS n) F.DM_STATUS_DONE = (s.rd (Reg.DM_STATUS n) F.DM_STATUS_DONE + 1) % 2 ^ 32)) ∧
  (∀ (s : State) (n : Fin 32) (a v : Nat) (r : RdRes) (u : State), (s.chan n).work = .wait a v → s.readPa (s.chanWho n) a 8 = (r, u) → r.res = .ok → r.poison = false → (leAt r.bytes 0 4 + 2 ^ 32 - v) % 2 ^ 32 < 2 ^ 31 → u.mayEnd n 1 → 
      Completes (.waitPoll n) s (fun t =>
        u.ended n 1 t)) ∧
  (∀ (s : State) (n : Fin 32) (a v : Nat) (r : RdRes) (u : State), (s.chan n).work = .wait a v → s.readPa (s.chanWho n) a 8 = (r, u) → r.res = .ok → r.poison = false → 2 ^ 31 ≤ (leAt r.bytes 0 4 + 2 ^ 32 - v) % 2 ^ 32 → 
      Completes (.waitPoll n) s (fun t =>
        t.chan n = s.chan n ∧ t.mem = u.mem)) ∧
  (∀ (s : State) (n : Fin 32) (a v : Nat), (s.chan n).work = .wait a v → s.mayEnd n 0x87 → 
      Completes (.waitTimeout n) s (fun t =>
        s.ended n 0x87 t)) ∧
  (∀ (s : State) (n : Fin 32) (c : Closing) (u : State), (s.chan n).closing.find? (fun c => !c.visible) = some c → s.writePa (s.chanWho n) (c.pa + 65408) c.footer = (.ok, u) → 
      Completes (.footerWrite n) s (fun t =>
        t.mem = u.mem ∧ (t.chan n).closing = (s.chan n).closing.map (fun x => if x == c then { c with visible := true } else x))) ∧
  (∀ (s : State) (n : Fin 32) (c : Closing) (u : State), (s.chan n).closing.find? (fun c => c.visible) = some c → s.writePa (s.chanWho n) (c.blk + 144) (leBytes 8 c.nextRow ++ leBytes 8 c.heapNext ++ leBytes 8 c.pages) = (.ok, u) → 
      Completes (.encodeBlockWriteBack n) s (fun t =>
        t.mem = u.mem ∧ (t.chan n).closing = (s.chan n).closing.erase c)) ∧
  (∀ (s : State) (n : Fin 32) (msi : Bool), (s.chan n).ending = some msi → (s.chan n).closing = [] → 
      Completes (.programDone n) s (fun t =>
        (t.chan n).prog = none ∧ (t.chan n).ending = none ∧ t.chanState n = 1 ∧
         t.rd (Reg.DM_STATUS n) F.DM_STATUS_DONE = (s.rd (Reg.DM_STATUS n) F.DM_STATUS_DONE + 1) % 2 ^ 32)) ∧
  (∀ (s : State) (n : Fin 32), (s.chan n).ending ≠ none → (s.chan n).closing ≠ [] → 
      Completes (.programDone n) s (fun t =>
        t = s)) ∧
  (∀ (s : State) (n : Fin 32), s.on (Reg.DM_CFG n) F.DM_CFG_VALID = false → s.chanState n = 2 → (s.chan n).closing = [] → 
      Completes (.channelDrainDone n) s (fun t =>
        t.chanState n = 0 ∧ t.dm = s.dm))

/-- DETECT complete gives EQUALISE; EQUALISE complete gives ALIGN, width 8 with every lane good, else 4 with a good half (the
lower first), else DOWN with cause 2; ALIGN complete gives CAPS and sends the capability word. In RETRAIN the lanes that passed
leave the width it had or less, and the capability word is sent, or none does, which is DOWN with cause 2. A timeout gives DOWN
with the cause of its state. A capability word of the last session in CAPS gives ACTIVE with the windows kept and, nothing waiting
to be sent, its credits and the limiter full; in RETRAIN it gives ACTIVE with windows and credits kept. One of another session, no
packet being kept, releases the windows (the link layer starting afresh is the choice of log entry 47); a wrong version or too few
credits give DOWN with cause 4. A good DATA flit in order whose packet is not whole yet keeps its bytes; one that makes it whole, not
refused, keeps the packet; both move the expected number on. One received before, nothing waiting to be sent, brings its
acknowledgement only; a bad one, or one beyond a gap, starts a discard and sends one NAK, as does a bad IDLE or NAK flit, and while
discarding none of these has any effect. IDLE and NAK flits acknowledge and bring credits; a NAK or a timeout sends again each
unacknowledged flit in order, no credit being to return and the limiter letting them pass, the eighth time going to RETRAIN, or
DOWN with cause 5 the third time; a timeout with nothing unacknowledged does nothing. -/
def Obligations.FinxisLinkComplete : Prop :=
  (∀ (s : State) (p : Fin 4) (lanes : Nat), s.fxState p = 1 → 
      Completes (.trainingStepComplete p lanes) s (fun t =>
        t.fxState p = 2 ∧ t.fx = s.fx ∧ t.mem = s.mem ∧ t.eng = s.eng)) ∧
  (∀ (s : State) (p : Fin 4) (lanes : Nat), s.fxState p = 2 → lanes &&& 0xFF = 0xFF → 
      Completes (.trainingStepComplete p lanes) s (fun t =>
        t.fxState p = 3 ∧ t.rd (Reg.FX_STATUS p) F.FX_STATUS_WIDTH = 8 ∧ t.port p = { s.port p with upper := false } ∧ t.mem = s.mem ∧ t.eng = s.eng)) ∧
  (∀ (s : State) (p : Fin 4) (lanes : Nat), s.fxState p = 2 → lanes &&& 0xFF ≠ 0xFF → lanes &&& 0xF = 0xF → 
      Completes (.trainingStepComplete p lanes) s (fun t =>
        t.fxState p = 3 ∧ t.rd (Reg.FX_STATUS p) F.FX_STATUS_WIDTH = 4 ∧ t.port p = { s.port p with upper := false } ∧ t.mem = s.mem ∧ t.eng = s.eng)) ∧
  (∀ (s : State) (p : Fin 4) (lanes : Nat), s.fxState p = 2 → lanes &&& 0xF ≠ 0xF → lanes &&& 0xF0 = 0xF0 → 
      Completes (.trainingStepComplete p lanes) s (fun t =>
        t.fxState p = 3 ∧ t.rd (Reg.FX_STATUS p) F.FX_STATUS_WIDTH = 4 ∧ t.port p = { s.port p with upper := true } ∧ t.mem = s.mem ∧ t.eng = s.eng)) ∧
  (∀ (s : State) (p : Fin 4) (lanes : Nat), s.fxState p = 2 ∨ s.fxState p = 6 → lanes &&& 0xF ≠ 0xF → lanes &&& 0xF0 ≠ 0xF0 → 
      Completes (.trainingStepComplete p lanes) s (fun t =>
        t.fxState p = 0 ∧ t.rd (Reg.FX_STATUS p) F.FX_STATUS_DOWN_CAUSE = 2 ∧ t.fx = s.fx ∧ t.wires = s.wires ++ [293 + p.val])) ∧
  (∀ (s : State) (p : Fin 4) (lanes : Nat), s.fxState p = 3 → 
      Completes (.trainingStepComplete p lanes) s (fun t =>
        t.fxState p = 4 ∧ t.fx = s.fx ∧ t.out = s.out ++ [.caps p 1 (s.rd (Reg.FX_STATUS p) F.FX_STATUS_WIDTH) 2048 0 32])) ∧
  (∀ (s : State) (p : Fin 4) (lanes w : Nat) (up : Bool), s.fxState p = 6 → (s.port p).retrained (s.rd (Reg.FX_STATUS p) F.FX_STATUS_WIDTH) lanes = some (w, up) → 
      Completes (.trainingStepComplete p lanes) s (fun t =>
        t.fxState p = 6 ∧ t.rd (Reg.FX_STATUS p) F.FX_STATUS_WIDTH = w % 16 ∧ t.port p = { s.port p with upper := up } ∧
         t.out = s.out ++ [.caps p 1 (w % 16) 2048 0 32])) ∧
  (∀ (s : State) (p : Fin 4), 1 ≤ s.fxState p → s.fxState p ≤ 4 → 
      Completes (.trainingTimeout p) s (fun t =>
        t.fxState p = 0 ∧ t.rd (Reg.FX_STATUS p) F.FX_STATUS_DOWN_CAUSE = s.fxState p ∧ t.fx = s.fx ∧ t.wires = s.wires ++ [293 + p.val])) ∧
  (∀ (s : State) (p : Fin 4), s.fxState p = 6 → 
      Completes (.trainingTimeout p) s (fun t =>
        t.fxState p = 0 ∧ t.rd (Reg.FX_STATUS p) F.FX_STATUS_DOWN_CAUSE = 5 ∧ t.fx = s.fx ∧ t.wires = s.wires ++ [293 + p.val])) ∧
  (∀ (s : State) (p : Fin 4) (c0 c1 c2 sess : Nat), s.fxState p = 4 → (s.port p).sess = some sess → 16 ≤ c0 → 512 ≤ c1 → 32 ≤ c2 → 
      Completes (.capabilityWord p 1 c0 c1 c2 sess) s (fun t =>
        t.fxState p = 5 ∧ (t.port p).sess = some sess ∧ (t.port p).wins = (s.port p).wins ∧ (t.port p).rseq = 0 ∧
         ((s.port p).txq = [] → (s.port p).unack = [] →
           Tab.get 0 (t.port p).credits 0 = c0 ∧ Tab.get 0 (t.port p).credits 1 = c1 ∧ Tab.get 0 (t.port p).credits 2 = c2 ∧
             (t.port p).nseq = 0 ∧ (t.port p).lim = s.fxCeil p))) ∧
  (∀ (s : State) (p : Fin 4) (c0 c1 c2 sess : Nat), s.fxState p = 6 → (s.port p).sess = some sess → 16 ≤ c0 → 512 ≤ c1 → 32 ≤ c2 → 
      Completes (.capabilityWord p 1 c0 c1 c2 sess) s (fun t =>
        t.fxState p = 5 ∧ (t.port p).sess = some sess ∧ (t.port p).wins = (s.port p).wins ∧ (t.port p).rseq = (s.port p).rseq ∧
         ((s.port p).txq = [] → (t.port p).credits = (s.port p).credits))) ∧
  (∀ (s : State) (p : Fin 4) (c0 c1 c2 sess : Nat), s.fxState p = 4 ∨ s.fxState p = 6 → (s.port p).sess ≠ some sess → keptFlits ((s.port p).unack.map Prod.snd ++ (s.port p).txq) [] = [] → 16 ≤ c0 → 512 ≤ c1 → 32 ≤ c2 → 
      Completes (.capabilityWord p 1 c0 c1 c2 sess) s (fun t =>
        t.fxState p = 5 ∧ (t.port p).sess = some sess ∧ (t.port p).wins = [] ∧ (t.port p).txq = [] ∧ (t.port p).unack = [] ∧ (t.port p).lim = s.fxCeil p ∧ t.wires = s.wires ++ [297 + p.val])) ∧
  (∀ (s : State) (p : Fin 4) (v c0 c1 c2 sess : Nat), s.fxState p = 4 ∨ s.fxState p = 6 → v ≠ 1 ∨ c0 < 16 ∨ c1 < 512 ∨ c2 < 32 → 
      Completes (.capabilityWord p v c0 c1 c2 sess) s (fun t =>
        t.fxState p = 0 ∧ t.rd (Reg.FX_STATUS p) F.FX_STATUS_DOWN_CAUSE = 4 ∧ t.fx = s.fx ∧ t.wires = s.wires ++ [293 + p.val])) ∧
  (∀ (s : State) (p : Fin 4) (b l : List Byte) (k : FxPkt), s.fxState p = 5 → flitGood b false = true → flitHead b 9 8 = 0 → flitHead b 31 22 = (s.port p).rseq → Tab.get [] (s.port p).asm (flitHead b 11 10) ++ sliceB b 4 248 = l → 248 * flitsOf (32 + leAt l 4 4) ≤ l.length → pktOf l = k → s.pktRefused l (flitHead b 11 10) k = none → 
      Completes (.dataFlit p b false) s (fun t =>
        (t.port p).rx = (s.port p).rx ++ [k] ∧ (t.port p).rseq = ((s.port p).rseq + 1) % 1024 ∧ (t.port p).discard = false ∧ t.mem = s.mem ∧ t.eng = s.eng)) ∧
  (∀ (s : State) (p : Fin 4) (b l : List Byte), s.fxState p = 5 → flitGood b false = true → flitHead b 9 8 = 0 → flitHead b 31 22 = (s.port p).rseq → Tab.get [] (s.port p).asm (flitHead b 11 10) ++ sliceB b 4 248 = l → l.length < 248 * flitsOf (32 + leAt l 4 4) → 
      Completes (.dataFlit p b false) s (fun t =>
        Tab.get [] (t.port p).asm (flitHead b 11 10) = l ∧ (t.port p).rx = (s.port p).rx ∧ (t.port p).rseq = ((s.port p).rseq + 1) % 1024 ∧
         (t.port p).discard = false ∧ t.mem = s.mem ∧ t.eng = s.eng)) ∧
  (∀ (s : State) (p : Fin 4) (b : List Byte), s.fxState p = 5 → flitGood b false = true → flitHead b 9 8 = 0 → flitHead b 31 22 ≠ (s.port p).rseq → ((s.port p).rseq + 1024 - flitHead b 31 22) % 1024 ≤ 512 → (s.port p).txq = [] → (s.port p).replay = [] → 
      Completes (.dataFlit p b false) s (fun t =>
        t.port p = (s.port p).acked (flitHead b 21 12) ∧ t.out = s.out ∧ t.mem = s.mem ∧ t.eng = s.eng)) ∧
  (∀ (s : State) (p : Fin 4) (b : List Byte) (bad : Bool) (x : FxPort) (cv cn : Nat), s.fxState p = 5 → flitGood b bad = false ∨ (flitHead b 9 8 = 0 ∧ 512 < ((s.port p).rseq + 1024 - flitHead b 31 22) % 1024) → (s.port p).discard = false → FxPort.takeRet { s.port p with discard := true } = (cv, cn, x) → 
      Completes (.dataFlit p b bad) s (fun t =>
        t.port p = { x with line := (t.port p).line } ∧ t.sent = s.sent ++ [.flit p (flitBytes 0 (((s.port p).rseq + 1023) % 1024) 0 2 cv cn [])])) ∧
  (∀ (s : State) (p : Fin 4) (b : List Byte) (bad : Bool) (x : FxPort) (cv cn : Nat), s.fxState p = 5 → flitGood b bad = false → (s.port p).discard = false → FxPort.takeRet { s.port p with discard := true } = (cv, cn, x) → 
      Completes (.idleFlit p b bad) s (fun t =>
        t.port p = { x with line := (t.port p).line } ∧ t.sent = s.sent ++ [.flit p (flitBytes 0 (((s.port p).rseq + 1023) % 1024) 0 2 cv cn [])])) ∧
  (∀ (s : State) (p : Fin 4) (b : List Byte) (bad third : Bool) (x : FxPort) (cv cn : Nat), s.fxState p = 5 → flitGood b bad = false → (s.port p).discard = false → FxPort.takeRet { s.port p with discard := true } = (cv, cn, x) → 
      Completes (.nak p b bad third) s (fun t =>
        t.port p = { x with line := (t.port p).line } ∧ t.sent = s.sent ++ [.flit p (flitBytes 0 (((s.port p).rseq + 1023) % 1024) 0 2 cv cn [])])) ∧
  (∀ (s : State) (p : Fin 4) (b : List Byte) (bad : Bool), s.fxState p = 5 → flitGood b bad = false → (s.port p).discard = true → 
      Completes (.dataFlit p b bad) s (fun t =>
        t = s)) ∧
  (∀ (s : State) (p : Fin 4) (b : List Byte), s.fxState p = 5 → flitGood b false = true → flitHead b 9 8 = 1 → (s.port p).txq = [] → (s.port p).replay = [] → 
      Completes (.idleFlit p b false) s (fun t =>
        t.port p = ((s.port p).acked (flitHead b 21 12)).credited (flitHead b 7 6) (flitHead b 5 0) ∧ t.out = s.out ∧ t.mem = s.mem ∧ t.eng = s.eng)) ∧
  (∀ (s : State) (p : Fin 4) (b : List Byte) (x : FxPort) (third : Bool), s.fxState p = 5 → flitGood b false = true → flitHead b 9 8 = 2 → (s.port p).ret = [] → ((s.port p).acked (flitHead b 21 12)).credited (flitHead b 7 6) (flitHead b 5 0) = x → x.unack ≠ [] → x.txq = [] → 64 * (x.unack.filter (fun f => f.2.vl == 1)).length ≤ x.lim → x.replays < 7 → 
      Completes (.nak p b false third) s (fun t =>
        t.port p = { x with replays := x.replays + 1, replay := [], lim := x.lim - 64 * (x.unack.filter (fun f => f.2.vl == 1)).length, line := (t.port p).line } ∧
         t.sent = s.sent ++ x.resent p ∧ t.fxState p = 5)) ∧
  (∀ (s : State) (p : Fin 4) (x : FxPort) (third : Bool), s.fxState p = 5 → s.port p = x → x.ret = [] → x.unack ≠ [] → x.txq = [] → 64 * (x.unack.filter (fun f => f.2.vl == 1)).length ≤ x.lim → x.replays < 7 → 
      Completes (.replayTimeout p third) s (fun t =>
        t.port p = { x with replays := x.replays + 1, replay := [], lim := x.lim - 64 * (x.unack.filter (fun f => f.2.vl == 1)).length, line := (t.port p).line } ∧
         t.sent = s.sent ++ x.resent p ∧ t.fxState p = 5)) ∧
  (∀ (s : State) (p : Fin 4) (third : Bool), s.fxState p = 5 → (s.port p).unack = [] → 
      Completes (.replayTimeout p third) s (fun t =>
        t = s)) ∧
  (∀ (s : State) (p : Fin 4), s.fxState p = 5 → (s.port p).unack ≠ [] → 7 ≤ (s.port p).replays → (s.port p).txq = [] → 
      Completes (.replayTimeout p false) s (fun t =>
        t.fxState p = 6 ∧ (t.port p).replays = 0 ∧ (t.port p).unack = (s.port p).unack)) ∧
  (∀ (s : State) (p : Fin 4), s.fxState p = 5 → (s.port p).unack ≠ [] → 7 ≤ (s.port p).replays → 
      Completes (.replayTimeout p true) s (fun t =>
        t.fxState p = 0 ∧ t.rd (Reg.FX_STATUS p) F.FX_STATUS_DOWN_CAUSE = 5 ∧ t.wires = s.wires ++ [293 + p.val]))

/-- Of the oldest packet of its lane, nothing of that lane waiting for staging: a COMMAND that was asked for, its ring pair with no
FENCE open, becomes the next descriptor, the number expected counting up, where it is not well formed or stages nothing, and where
its staging fits and its output window may take the output, the lowest place that fits then being reserved; where it does not fit
it waits, and so does any COMMAND behind a FENCE. One that was not asked for is refused with code 5. A COMMAND that
waits is taken when its staging fits. DATA_IN in order within its descriptor is stored at its place in the staging window, that
write succeeding, and joins the input; one out of order fails a descriptor that has not ended. DOORBELL of a ring pair with a
completion window not released is a read of the slot value, and of any other is refused with code 4. FETCH_RESEND asks again from
SQ_HEAD. WINDOW_REG of a window in range, its ID not registered, registers it, code 0; of a bad kind or size it answers 1, of an ID
registered 2, and of a second completion window of a ring pair 3. WINDOW_RELEASE withdraws the window from new use; its
acknowledgement, code 0, goes when nothing can write into it, and at once for an ID not registered (log entry 51). MGMT hands its
bytes to a running PMC that holds no request of the port. RESET with RESET_EN resets as a warm reset with its cause and port. A
packet of a ring pair that is not the port's is refused with code 3, and a RESET without RESET_EN with code 8. Answers are sent at
once by a port free to send one flit. -/
def Obligations.FinxisPacketsComplete : Prop :=
  (∀ (s : State) (p : Fin 4) (k : FxPkt) (q w : Nat), s.fxNext p 1 k → s.fxOwns p k.ring = true → Tab.get (0, 0) (s.port p).want k.ring = (q, w) → s.fxExpects p k = true → s.ringFenced k.ring = false → descFault k.payload true ≠ none ∨ stagedBytes k.payload = (0, 0) → s.desc k.ring k.seq = none → 
      Completes (.command p) s (fun t =>
        t.desc k.ring k.seq ≠ none ∧ (t.port p).rx = (s.port p).rx.erase k ∧ Tab.get (0, 0) (t.port p).want k.ring = ((q + 1) % 2 ^ 32, w - 1) ∧
         t.rd (Reg.RING_HEAD k.ring) F.RING_HEAD_SQ_HEAD = (k.seq + 1) % 2 ^ 32)) ∧
  (∀ (s : State) (p : Fin 4) (k : FxPkt) (i o a : Nat), s.fxNext p 1 k → s.fxOwns p k.ring = true → s.fxExpects p k = true → s.ringFenced k.ring = false → descFault k.payload true = none → stagedBytes k.payload = (i, o) → 0 < i + o → i + o ≤ (s.fxRegion p).2 → leAt k.payload 0 1 = 2 ∨ o = 0 ∨ (s.port p).outOk k.ring k.window o = true → fitStage (s.port p).stages (s.fxRegion p).2 (i + o) = some a → s.desc k.ring k.seq = none → 
      Completes (.command p) s (fun t =>
        t.desc k.ring k.seq ≠ none ∧ (t.port p).stages = (s.port p).stages ++ [⟨k.ring, k.seq, a, i, o, false⟩] ∧
         t.rd (Reg.RING_HEAD k.ring) F.RING_HEAD_SQ_HEAD = (k.seq + 1) % 2 ^ 32)) ∧
  (∀ (s : State) (p : Fin 4) (k : FxPkt) (i o : Nat), s.fxNext p 1 k → s.fxOwns p k.ring = true → s.fxExpects p k = true → s.ringFenced k.ring = false → descFault k.payload true = none → stagedBytes k.payload = (i, o) → 0 < i + o → i + o ≤ (s.fxRegion p).2 → leAt k.payload 0 1 = 2 ∨ o = 0 ∨ (s.port p).outOk k.ring k.window o = true → fitStage (s.port p).stages (s.fxRegion p).2 (i + o) = none → 
      Completes (.command p) s (fun t =>
        (t.port p).waiting = some k ∧ t.eng = s.eng ∧ (t.port p).stages = (s.port p).stages)) ∧
  (∀ (s : State) (p : Fin 4), s.fxFenced p = true → 
      Completes (.command p) s (fun t =>
        t = s)) ∧
  (∀ (s : State) (p : Fin 4) (k : FxPkt), s.fxNext p 1 k → s.fxOwns p k.ring = true → s.fxExpects p k = false → k.payload.length = 128 → s.fxClear p 1 → 
      Completes (.command p) s (fun t =>
        t.sent = s.sent ++ [s.fxFlit p { FxPkt.blank with type := 0x25, ring := k.ring, seq := k.seq, code := 5 } 0 1] ∧ t.eng = s.eng ∧ (t.port p).rx = (s.port p).rx.erase k)) ∧
  (∀ (s : State) (p : Fin 4) (k : FxPkt), s.fxNext p 1 k → s.fxOwns p k.ring = false → k.payload.length = 128 → s.fxClear p 1 → 
      Completes (.command p) s (fun t =>
        t.sent = s.sent ++ [s.fxFlit p { FxPkt.blank with type := 0x25, ring := k.ring, seq := k.seq, code := 3 } 0 1] ∧ t.eng = s.eng ∧ (t.port p).rx = (s.port p).rx.erase k)) ∧
  (∀ (s : State) (p : Fin 4) (k : FxPkt) (i o a : Nat), (s.port p).waiting = some k → s.fxOwns p k.ring = true → s.fxExpects p k = true → descFault k.payload true = none → stagedBytes k.payload = (i, o) → 0 < i + o → i + o ≤ (s.fxRegion p).2 → leAt k.payload 0 1 = 2 ∨ o = 0 ∨ (s.port p).outOk k.ring k.window o = true → fitStage (s.port p).stages (s.fxRegion p).2 (i + o) = some a → s.desc k.ring k.seq = none → 
      Completes (.stagingReserved p) s (fun t =>
        (t.port p).waiting = none ∧ (t.port p).stages = (s.port p).stages ++ [⟨k.ring, k.seq, a, i, o, false⟩] ∧ t.desc k.ring k.seq ≠ none)) ∧
  (∀ (s : State) (p : Fin 4) (k : FxPkt) (d : Desc) (g : FxStage) (u : State), s.fxNext p 2 k → s.fxOwns p k.ring = true → s.desc k.ring k.seq = some d → (s.port p).stage k.ring k.seq = some g → k.offset = d.inp.length → d.inp.length + k.payload.length ≤ d.wantIn → bitAt k.flags 0 = false ∨ d.inp.length + k.payload.length = d.wantIn → ((((s.setPort p { s.port p with rx := (s.port p).rx.erase k }).fxReturn p 0 (flitsOf (32 + k.payload.length))).pmcFx p 2 k.payload.length).stageWrite p (g.base + k.offset) k.payload) = (.ok, u) → 
      Completes (.dataIn p) s (fun t =>
        t.mem = u.mem ∧ t.desc k.ring k.seq = some { d with inp := d.inp ++ k.payload })) ∧
  (∀ (s : State) (p : Fin 4) (k : FxPkt) (d : Desc) (g : FxStage), s.fxNext p 2 k → s.fxOwns p k.ring = true → s.desc k.ring k.seq = some d → (s.port p).stage k.ring k.seq = some g → d.done = false → k.offset ≠ d.inp.length ∨ d.wantIn < d.inp.length + k.payload.length → 
      Completes (.dataIn p) s (fun t =>
        t.mem = s.mem ∧ (t.desc k.ring k.seq).any (fun x => x.fail.isSome && x.inp == d.inp) = true ∧ t.wires = s.wires ++ [293 + p.val])) ∧
  (∀ (s : State) (p : Fin 4) (k : FxPkt) (id : Nat) (w : FxWin), s.fxNext p 3 k → s.fxOwns p k.ring = true → (s.port p).cqWin k.ring = some (id, w) → w.released = false → 
      Completes (.fxDoorbell p) s (fun t =>
        t = ((s.setPort p { s.port p with rx := (s.port p).rx.erase k }).fxReturn p 0 (flitsOf (32 + k.payload.length))).doorbell k.ring (leNat k.payload))) ∧
  (∀ (s : State) (p : Fin 4) (k : FxPkt), s.fxNext p 3 k → s.fxOwns p k.ring = true → ((s.port p).cqWin k.ring).all (fun e => e.2.released) = true → k.payload.length = 8 → s.fxClear p 1 → 
      Completes (.fxDoorbell p) s (fun t =>
        t.sent = s.sent ++ [s.fxFlit p { FxPkt.blank with type := 0x25, ring := k.ring, seq := k.seq, code := 4 } 0 1] ∧ t.eng = s.eng ∧ (t.port p).rx = (s.port p).rx.erase k)) ∧
  (∀ (s : State) (p : Fin 4) (r q w : Nat) (l : List Nat), (s.port p).again = r :: l → Tab.get (0, 0) (s.port p).want r = (q, w) → w ≠ 0 → s.fxFetches p r = true → s.fxClear p 0 → 
      Completes (.fetchResend p) s (fun t =>
        (t.port p).again = l ∧ t.sent = s.sent ++ [s.fxFlit p { FxPkt.blank with type := 0x11, ring := r, seq := s.rd (Reg.RING_HEAD r) F.RING_HEAD_SQ_HEAD, count := w } 0 0])) ∧
  (∀ (s : State) (p : Fin 4) (k : FxPkt) (size : Nat), s.fxNext p 4 k → s.fxOwns p k.ring = true → s.fxClear p 1 → (s.port p).win k.window = none → leAt k.payload 0 1 = 2 → leAt k.payload 4 4 = size → size % 128 = 0 → 128 ≤ size → size ≤ 0x1000000 → k.payload.length = 16 → 
      Completes (.windowReg p) s (fun t =>
        (t.port p).win k.window = some ⟨k.ring, 2, size, false⟩ ∧ t.sent = s.sent ++ [s.fxFlit p { FxPkt.blank with type := 0x23, ring := k.ring, window := k.window, code := 0 } 0 1])) ∧
  (∀ (s : State) (p : Fin 4) (k : FxPkt), s.fxNext p 4 k → s.fxOwns p k.ring = true → s.fxClear p 1 → (s.port p).win k.window = none → (s.port p).cqWin k.ring = none → leAt k.payload 0 1 = 1 → leAt k.payload 4 4 = 64 * 2 ^ s.rd (Reg.RING_CFG k.ring) F.RING_CFG_CQ_LOG2 → k.payload.length = 16 → 
      Completes (.windowReg p) s (fun t =>
        (t.port p).win k.window = some ⟨k.ring, 1, leAt k.payload 4 4, false⟩ ∧ t.sent = s.sent ++ [s.fxFlit p { FxPkt.blank with type := 0x23, ring := k.ring, window := k.window, code := 0 } 0 1])) ∧
  (∀ (s : State) (p : Fin 4) (k : FxPkt), s.fxNext p 4 k → s.fxOwns p k.ring = true → s.fxClear p 1 → leAt k.payload 0 1 ≠ 1 → leAt k.payload 0 1 ≠ 2 ∨ leAt k.payload 4 4 % 128 ≠ 0 ∨ leAt k.payload 4 4 < 128 ∨ 0x1000000 < leAt k.payload 4 4 → k.payload.length = 16 → 
      Completes (.windowReg p) s (fun t =>
        (t.port p).wins = (s.port p).wins ∧ t.sent = s.sent ++ [s.fxFlit p { FxPkt.blank with type := 0x23, ring := k.ring, window := k.window, code := 1 } 0 1])) ∧
  (∀ (s : State) (p : Fin 4) (k : FxPkt), s.fxNext p 4 k → s.fxOwns p k.ring = true → s.fxClear p 1 → (s.port p).win k.window ≠ none → leAt k.payload 0 1 = 2 → leAt k.payload 4 4 % 128 = 0 → 128 ≤ leAt k.payload 4 4 → leAt k.payload 4 4 ≤ 0x1000000 → k.payload.length = 16 → 
      Completes (.windowReg p) s (fun t =>
        (t.port p).wins = (s.port p).wins ∧ t.sent = s.sent ++ [s.fxFlit p { FxPkt.blank with type := 0x23, ring := k.ring, window := k.window, code := 2 } 0 1])) ∧
  (∀ (s : State) (p : Fin 4) (k : FxPkt), s.fxNext p 4 k → s.fxOwns p k.ring = true → s.fxClear p 1 → (s.port p).win k.window = none → (s.port p).cqWin k.ring ≠ none → leAt k.payload 0 1 = 1 → leAt k.payload 4 4 = 64 * 2 ^ s.rd (Reg.RING_CFG k.ring) F.RING_CFG_CQ_LOG2 → k.payload.length = 16 → 
      Completes (.windowReg p) s (fun t =>
        (t.port p).wins = (s.port p).wins ∧ t.sent = s.sent ++ [s.fxFlit p { FxPkt.blank with type := 0x23, ring := k.ring, window := k.window, code := 3 } 0 1])) ∧
  (∀ (s : State) (p : Fin 4) (k : FxPkt) (w : FxWin), s.fxNext p 5 k → (s.port p).win k.window = some w → 
      Completes (.windowRelease p) s (fun t =>
        (t.port p).win k.window = some { w with released := true } ∧ (t.port p).rx = (s.port p).rx.erase k ∧ t.out = s.out)) ∧
  (∀ (s : State) (p : Fin 4) (k : FxPkt), s.fxNext p 5 k → (s.port p).win k.window = none → k.payload = [] → s.fxClear p 1 → 
      Completes (.windowRelease p) s (fun t =>
        (t.port p).wins = (s.port p).wins ∧ t.sent = s.sent ++ [s.fxFlit p { FxPkt.blank with type := 0x23, ring := k.ring, window := k.window, code := 0 } 0 1])) ∧
  (∀ (s : State) (p : Fin 4) (id : Nat) (w : FxWin), (s.port p).wins = [(id, some w)] → w.released = true → s.windowIdle p id w = true → s.fxClear p 1 → 
      Completes (.windowReleaseAck p) s (fun t =>
        (t.port p).win id = none ∧ t.sent = s.sent ++ [s.fxFlit p { FxPkt.blank with type := 0x23, ring := w.ring, window := id, code := 0 } 0 0])) ∧
  (∀ (s : State) (p : Fin 4) (k : FxPkt), s.fxNext p 0x31 k → s.pmcRuns = true → mgmtCodes.contains (leAt k.payload 0 1) = true → Tab.look s.pmc.req (3 + p) = none → 
      Completes (.mgmt p) s (fun t =>
        Tab.get [] t.pmc.req (3 + p) = k.payload ∧ (t.port p).rx = (s.port p).rx.erase k)) ∧
  (∀ (s : State) (p : Fin 4) (k : FxPkt), s.fxNext p 0x32 k → s.on (Reg.FX_CFG p) F.FX_CFG_RESET_EN = true → s.mode ≠ MD.dark → s.pkg.rstWait = none → 
      Completes (.finxisReset p false) s (fun t =>
        t.mode = MD.dawn ∧ t.fx = [] ∧ t.rd Reg.RCC_RST_CAUSE F.RCC_RST_CAUSE_FINXIS = 1 ∧ t.rd Reg.RCC_RST_CAUSE F.RCC_RST_CAUSE_FX_PORT = p.val)) ∧
  (∀ (s : State) (p : Fin 4) (k : FxPkt) (pulse : Bool), s.fxNext p 0x32 k → s.on (Reg.FX_CFG p) F.FX_CFG_RESET_EN = false → s.fxClear p 1 → k.payload = [] → 
      Completes (.finxisReset p pulse) s (fun t =>
        t.sent = s.sent ++ [s.fxFlit p { FxPkt.blank with type := 0x25, ring := k.ring, seq := k.seq, code := 8 } 2 1] ∧ t.mode = s.mode))

/-- A hart that may execute, its cluster not gated, no halt request, trigger, sample or step due, is meant, but for the commands
of time. FENCE and FENCE.I, SFENCE.W.INVAL and SFENCE.INVAL.IR outside U-mode only advance the pc. WFI, where the mode may
execute it, waits at its depth; at 0b10 the core is off, its L1s emptied and its reservation lost. 1 us at depth 0b01 is
retention. A wake condition resumes a waiting hart, into debug mode for a halt request that may be taken; from depth 0b10 it
restarts at the reset vector in M-mode with CSRs at reset, its interrupt files kept and the wake recorded; where the turbo
rule holds it the wake waits and its die moves to another code; with no condition nothing happens. WRS.STO waits where a
reservation is held, and its limit resumes it. The translation fences remove exactly the entries of the hart that their
table names, the VS-stage ones of its VMID under V = 1 for SFENCE.VMA, SINVAL.VMA and HSC.TFLUSH; an empty range removes
none. HSC.CLEAN and HSC.FLUSH of a range within one writable region stall the hart and go to all 64 homes; of length 0 they
do nothing; of a region that the identity may not write they are store access faults. Where the mode may not execute one of
these, it is an exception, shown for those that M-mode takes. (*wfiGate*, *sfenceGate* and *hfenceGate* are the checks of
the privileged architecture, log entry 81.) -/
def Obligations.WaitsAndFencesComplete : Prop :=
  (∀ (s : State) (h : Fin 216) (x : Hart) (p q : Nat), s.plainHart h x → 
      Completes (.fence h p q) s (fun t =>
        t = s.setHart h { x with pc := x.pc + 4 })) ∧
  (∀ (s : State) (h : Fin 216) (x : Hart), s.plainHart h x → 
      Completes (.fenceI h) s (fun t =>
        t = s.setHart h { x with pc := x.pc + 4 })) ∧
  (∀ (s : State) (h : Fin 216) (x : Hart), s.plainHart h x → x.mode ≠ .u → 
      Completes (.sfenceWInval h) s (fun t =>
        t = s.setHart h { x with pc := x.pc + 4 })) ∧
  (∀ (s : State) (h : Fin 216) (x : Hart), s.plainHart h x → x.mode ≠ .u → 
      Completes (.sfenceInvalIr h) s (fun t =>
        t = s.setHart h { x with pc := x.pc + 4 })) ∧
  (∀ (s : State) (h : Fin 216) (x : Hart), s.plainHart h x → x.mode = .u → s.goesToM h x (if x.v then 22 else 2) → 
      Completes (.sfenceWInval h) s (fun t =>
        x.tookM (t.hart h) (if x.v then 22 else 2) 0 ∧ t.mem = s.mem)) ∧
  (∀ (s : State) (h : Fin 216) (x : Hart), s.plainHart h x → x.mode = .u → s.goesToM h x (if x.v then 22 else 2) → 
      Completes (.sfenceInvalIr h) s (fun t =>
        x.tookM (t.hart h) (if x.v then 22 else 2) 0 ∧ t.mem = s.mem)) ∧
  (∀ (s : State) (h : Fin 216) (x : Hart) (d : Nat), s.plainHart h x → x.wfiGate = none → x.cb Csr.mhspwr 1 0 = d → d ≠ 2 → 
      Completes (.wfi h) s (fun t =>
        t = s.setHart h { x with pc := x.pc + 4, waiting := .wfi d })) ∧
  (∀ (s : State) (h : Fin 216) (x : Hart), s.plainHart h x → x.wfiGate = none → x.cb Csr.mhspwr 1 0 = 2 → s.noneHeld h x → 
      Completes (.wfi h) s (fun t =>
        t.hart h = { x with pc := x.pc + 4, waiting := .off, resv := none } ∧ t.cluster (hartCluster h) = ((s.cluster (hartCluster h)).l1Clear (h.val % 6)).l1Clear (6 + h.val % 6))) ∧
  (∀ (s : State) (h : Fin 216) (x : Hart) (e : Nat), s.plainHart h x → x.wfiGate = some e → s.goesToM h x e → 
      Completes (.wfi h) s (fun t =>
        x.tookM (t.hart h) e 0 ∧ t.mem = s.mem)) ∧
  (∀ (s : State) (h : Fin 216) (x : Hart), s.hart h = x → x.waiting = .wfi 1 → 
      Completes (.wfiRetentionEntry h) s (fun t =>
        t = s.setHart h { x with waiting := .retention })) ∧
  (∀ (s : State) (h : Fin 216) (x : Hart), s.hart h = x → x.held = false → x.halted = false → s.hartGated h = false → x.waiting ≠ .running → x.waiting ≠ .off → s.wakeDue h = true → s.turboHeld (hartCluster h) = false → x.haltReq = false ∨ s.mayHalt h = false → 
      Completes (.wfiWake h) s (fun t =>
        t = s.setHart h { x with waiting := .running, wakeHeld := false })) ∧
  (∀ (s : State) (h : Fin 216) (x : Hart), s.hart h = x → x.held = false → x.halted = false → s.hartGated h = false → x.waiting ≠ .running → x.waiting ≠ .off → s.turboHeld (hartCluster h) = false → x.haltReq = true → s.mayHalt h = true → 
      Completes (.wfiWake h) s (fun t =>
        (t.hart h).halted = true ∧ (t.hart h).haltReq = false ∧ (t.hart h).waiting = .running ∧ (t.hart h).rc Csr.dpc = x.pc ∧ (t.hart h).cb Csr.dcsr 8 6 = 3)) ∧
  (∀ (s : State) (h : Fin 216) (x : Hart), s.hart h = x → x.held = false → x.halted = false → s.hartGated h = false → x.waiting = .off → s.wakeDue h = true → s.turboHeld (hartCluster h) = false → 
      Completes (.wfiWake h) s (fun t =>
        (t.hart h).pc = BitVec.ofNat 64 s.resetVector ∧ (t.hart h).mode = .m ∧ (t.hart h).waiting = .running ∧ (t.hart h).csr = [] ∧ (t.hart h).tlb = [] ∧ (t.hart h).gate = none ∧ (t.hart h).held = s.pkg.hartRst.contains h.val ∧ t.imsic = s.imsic ∧ t.files = s.files ∧ (t.rdW (Reg.RCC_HART_CAUSE h)).toNat.testBit 7 = true)) ∧
  (∀ (s : State) (h : Fin 216) (x : Hart), s.hart h = x → x.held = false → x.halted = false → s.hartGated h = false → x.waiting ≠ .running → s.wakeDue h = true → s.turboHeld (hartCluster h) = true → 
      Completes (.wfiWake h) s (fun t =>
        t.hart h = { x with wakeHeld := true } ∧ t.rd (Reg.RCC_CCLK (h.val / 18)) F.RCC_CCLK_TARGET ≠ 0)) ∧
  (∀ (s : State) (h : Fin 216), s.wakeDue h = false → 
      Completes (.wfiWake h) s (fun t =>
        t = s)) ∧
  (∀ (s : State) (h : Fin 216) (x : Hart), s.plainHart h x → x.resv ≠ none → 
      Completes (.wrsSto h) s (fun t =>
        t = s.setHart h { x with pc := x.pc + 4, waiting := .wrs })) ∧
  (∀ (s : State) (h : Fin 216) (x : Hart), s.plainHart h x → x.resv = none → 
      Completes (.wrsSto h) s (fun t =>
        t = s.setHart h { x with pc := x.pc + 4 })) ∧
  (∀ (s : State) (h : Fin 216) (x : Hart), s.hart h = x → x.waiting = .wrs → 
      Completes (.wrsStoTimeout h) s (fun t =>
        t = s.setHart h { x with waiting := .running })) ∧
  (∀ (s : State) (h : Fin 216) (x : Hart) (rs1 rs2 : Fin 32), s.plainHart h x → x.sfenceGate = none → x.v = false ∨ x.mode = .m → 
      Completes (.sfenceVma h rs1 rs2) s (fun t =>
        t = s.setHart h { x with pc := x.pc + 4, tlb := x.tlb.filter (fun e => !(e.stage == .s && (match x.opt rs2 with | none => true | some a => e.asid == some (a % 65536)) && (match x.opt rs1 with | none => true | some a => e.leaf && e.covers a))) })) ∧
  (∀ (s : State) (h : Fin 216) (x : Hart) (rs1 rs2 : Fin 32), s.plainHart h x → x.sfenceGate = none → x.v = true → x.mode ≠ .m → 
      Completes (.sfenceVma h rs1 rs2) s (fun t =>
        t = s.setHart h { x with pc := x.pc + 4, tlb := x.tlb.filter (fun e => !((e.stage == .vs || e.stage == .comb) && e.vmid == x.vmid && (match x.opt rs2 with | none => true | some a => e.asid == some (a % 65536)) && (match x.opt rs1 with | none => true | some a => e.leaf && e.covers a))) })) ∧
  (∀ (s : State) (h : Fin 216) (x : Hart) (rs1 rs2 : Fin 32), s.plainHart h x → x.sfenceGate = none → x.v = false ∨ x.mode = .m → 
      Completes (.sinvalVma h rs1 rs2) s (fun t =>
        t = s.setHart h { x with pc := x.pc + 4, tlb := x.tlb.filter (fun e => !(e.stage == .s && (match x.opt rs2 with | none => true | some a => e.asid == some (a % 65536)) && (match x.opt rs1 with | none => true | some a => e.leaf && e.covers a))) })) ∧
  (∀ (s : State) (h : Fin 216) (x : Hart) (rs1 rs2 : Fin 32), s.plainHart h x → x.sfenceGate = none → x.v = true → x.mode ≠ .m → 
      Completes (.sinvalVma h rs1 rs2) s (fun t =>
        t = s.setHart h { x with pc := x.pc + 4, tlb := x.tlb.filter (fun e => !((e.stage == .vs || e.stage == .comb) && e.vmid == x.vmid && (match x.opt rs2 with | none => true | some a => e.asid == some (a % 65536)) && (match x.opt rs1 with | none => true | some a => e.leaf && e.covers a))) })) ∧
  (∀ (s : State) (h : Fin 216) (x : Hart) (rs1 rs2 : Fin 32), s.plainHart h x → x.hfenceGate false = none → 
      Completes (.hfenceVvma h rs1 rs2) s (fun t =>
        t = s.setHart h { x with pc := x.pc + 4, tlb := x.tlb.filter (fun e => !((e.stage == .vs || e.stage == .comb) && e.vmid == x.vmid && (match x.opt rs2 with | none => true | some a => e.asid == some (a % 65536)) && (match x.opt rs1 with | none => true | some a => e.leaf && e.covers a))) })) ∧
  (∀ (s : State) (h : Fin 216) (x : Hart) (rs1 rs2 : Fin 32), s.plainHart h x → x.hfenceGate false = none → 
      Completes (.hinvalVvma h rs1 rs2) s (fun t =>
        t = s.setHart h { x with pc := x.pc + 4, tlb := x.tlb.filter (fun e => !((e.stage == .vs || e.stage == .comb) && e.vmid == x.vmid && (match x.opt rs2 with | none => true | some a => e.asid == some (a % 65536)) && (match x.opt rs1 with | none => true | some a => e.leaf && e.covers a))) })) ∧
  (∀ (s : State) (h : Fin 216) (x : Hart) (rs1 rs2 : Fin 32), s.plainHart h x → x.hfenceGate true = none → 
      Completes (.hfenceGvma h rs1 rs2) s (fun t =>
        t = s.setHart h { x with pc := x.pc + 4, tlb := x.tlb.filter (fun e => !((e.stage == .g || e.stage == .comb) && (match x.opt rs2 with | none => true | some v => e.vmid == v % 16384) && (match x.opt rs1 with | none => true | some a => e.leaf && e.coversG (4 * a)))) })) ∧
  (∀ (s : State) (h : Fin 216) (x : Hart) (rs1 rs2 : Fin 32), s.plainHart h x → x.hfenceGate true = none → 
      Completes (.hinvalGvma h rs1 rs2) s (fun t =>
        t = s.setHart h { x with pc := x.pc + 4, tlb := x.tlb.filter (fun e => !((e.stage == .g || e.stage == .comb) && (match x.opt rs2 with | none => true | some v => e.vmid == v % 16384) && (match x.opt rs1 with | none => true | some a => e.leaf && e.coversG (4 * a)))) })) ∧
  (∀ (s : State) (h : Fin 216) (x : Hart) (rs1 rs2 : Fin 32) (v a n : Nat), s.plainHart h x → x.sfenceGate = none → x.v = false ∨ x.mode = .m → (x.rx rs2).toNat = v → (x.rx rs1).toNat / 4096 * 4096 = a → 4096 * bitsOf v 46 0 = n → 
      Completes (.hscTflush h rs1 rs2) s (fun t =>
        t = s.setHart h { x with pc := x.pc + 4, tlb := x.tlb.filter (fun e => !(e.stage == .s && decide (0 < n) && decide (a < e.base + 2 ^ e.log2) && decide (e.base < a + n) && (bitAt v 47 || e.asid == some (bitsOf v 63 48)))) })) ∧
  (∀ (s : State) (h : Fin 216) (x : Hart) (rs1 rs2 : Fin 32) (v a n : Nat), s.plainHart h x → x.sfenceGate = none → x.v = true → x.mode ≠ .m → (x.rx rs2).toNat = v → (x.rx rs1).toNat / 4096 * 4096 = a → 4096 * bitsOf v 46 0 = n → 
      Completes (.hscTflush h rs1 rs2) s (fun t =>
        t = s.setHart h { x with pc := x.pc + 4, tlb := x.tlb.filter (fun e => !((e.stage == .vs || e.stage == .comb) && e.vmid == x.vmid && decide (0 < n) && decide (a < e.base + 2 ^ e.log2) && decide (e.base < a + n) && (bitAt v 47 || e.asid == some (bitsOf v 63 48)))) })) ∧
  (∀ (s : State) (h : Fin 216) (x : Hart) (rs1 rs2 : Fin 32) (v a n : Nat), s.plainHart h x → x.hfenceGate true = none → (x.rx rs2).toNat = v → (x.rx rs1).toNat / 4096 * 4096 = a → 4096 * bitsOf v 46 0 = n → 
      Completes (.hscGtflush h rs1 rs2) s (fun t =>
        t = s.setHart h { x with pc := x.pc + 4, tlb := x.tlb.filter (fun e => !((e.stage == .g || e.stage == .comb) && decide (0 < n) && decide (a < ((if e.stage = .comb then e.gpa else e.base) / 2 ^ e.log2 * 2 ^ e.log2) + 2 ^ e.log2) && decide (((if e.stage = .comb then e.gpa else e.base) / 2 ^ e.log2 * 2 ^ e.log2) < a + n) && (bitAt v 49 || e.vmid == bitsOf v 63 50))) })) ∧
  (∀ (s : State) (h : Fin 216) (x : Hart) (rs1 rs2 : Fin 32) (e : Nat), s.plainHart h x → x.sfenceGate = some e → s.goesToM h x e → 
      Completes (.sfenceVma h rs1 rs2) s (fun t =>
        x.tookM (t.hart h) e 0 ∧ t.mem = s.mem)) ∧
  (∀ (s : State) (h : Fin 216) (x : Hart) (rs1 rs2 : Fin 32) (e : Nat), s.plainHart h x → x.sfenceGate = some e → s.goesToM h x e → 
      Completes (.sinvalVma h rs1 rs2) s (fun t =>
        x.tookM (t.hart h) e 0 ∧ t.mem = s.mem)) ∧
  (∀ (s : State) (h : Fin 216) (x : Hart) (rs1 rs2 : Fin 32) (e : Nat), s.plainHart h x → x.sfenceGate = some e → s.goesToM h x e → 
      Completes (.hscTflush h rs1 rs2) s (fun t =>
        x.tookM (t.hart h) e 0 ∧ t.mem = s.mem)) ∧
  (∀ (s : State) (h : Fin 216) (x : Hart) (rs1 rs2 : Fin 32) (e : Nat), s.plainHart h x → x.hfenceGate false = some e → s.goesToM h x e → 
      Completes (.hfenceVvma h rs1 rs2) s (fun t =>
        x.tookM (t.hart h) e 0 ∧ t.mem = s.mem)) ∧
  (∀ (s : State) (h : Fin 216) (x : Hart) (rs1 rs2 : Fin 32) (e : Nat), s.plainHart h x → x.hfenceGate false = some e → s.goesToM h x e → 
      Completes (.hinvalVvma h rs1 rs2) s (fun t =>
        x.tookM (t.hart h) e 0 ∧ t.mem = s.mem)) ∧
  (∀ (s : State) (h : Fin 216) (x : Hart) (rs1 rs2 : Fin 32) (e : Nat), s.plainHart h x → x.hfenceGate true = some e → s.goesToM h x e → 
      Completes (.hfenceGvma h rs1 rs2) s (fun t =>
        x.tookM (t.hart h) e 0 ∧ t.mem = s.mem)) ∧
  (∀ (s : State) (h : Fin 216) (x : Hart) (rs1 rs2 : Fin 32) (e : Nat), s.plainHart h x → x.hfenceGate true = some e → s.goesToM h x e → 
      Completes (.hinvalGvma h rs1 rs2) s (fun t =>
        x.tookM (t.hart h) e 0 ∧ t.mem = s.mem)) ∧
  (∀ (s : State) (h : Fin 216) (x : Hart) (rs1 rs2 : Fin 32) (e : Nat), s.plainHart h x → x.hfenceGate true = some e → s.goesToM h x e → 
      Completes (.hscGtflush h rs1 rs2) s (fun t =>
        x.tookM (t.hart h) e 0 ∧ t.mem = s.mem)) ∧
  (∀ (s : State) (h : Fin 216) (x : Hart) (rs1 rs2 : Fin 32) (a n r : Nat), s.plainHart h x → x.mode = .m ∨ (x.mode = .s ∧ x.v = false ∧ x.cb Csr.mhscctl 0 0 = 1) → (x.rx rs1).toNat = a → (x.rx rs2).toNat = n → 0 < n → a + n ≤ 2 ^ 52 → s.fwRegion a = some r → s.fwCovers r (a + n - 1) = true → s.fwGrants x.ident a true = true → 
      Completes (.hscClean h rs1 rs2) s (fun t =>
        t.hart h = { x with stalled := true } ∧ ∀ k : Fin 64, (t.home k).holds = (s.home k).holds ++ [⟨a / 128, (a + n - 1) / 128, 0, h, false⟩])) ∧
  (∀ (s : State) (h : Fin 216) (x : Hart) (rs1 rs2 : Fin 32), s.plainHart h x → x.mode = .m ∨ (x.mode = .s ∧ x.v = false ∧ x.cb Csr.mhscctl 0 0 = 1) → (x.rx rs2).toNat = 0 → 
      Completes (.hscClean h rs1 rs2) s (fun t =>
        t = s.setHart h { x with pc := x.pc + 4 })) ∧
  (∀ (s : State) (h : Fin 216) (x : Hart) (rs1 rs2 : Fin 32), s.plainHart h x → x.mode = .m ∨ (x.mode = .s ∧ x.v = false ∧ x.cb Csr.mhscctl 0 0 = 1) → (x.rx rs2).toNat ≠ 0 → s.fwGrants x.ident (x.rx rs1).toNat true = false → s.goesToM h x 7 → 
      Completes (.hscClean h rs1 rs2) s (fun t =>
        x.tookM (t.hart h) 7 (x.rx rs1).toNat ∧ t.mem = s.mem)) ∧
  (∀ (s : State) (h : Fin 216) (x : Hart) (rs1 rs2 : Fin 32), s.plainHart h x → x.v = false ∨ x.mode = .m → x.mode = .u ∨ (x.mode = .s ∧ x.cb Csr.mhscctl 0 0 = 0) → s.goesToM h x 2 → 
      Completes (.hscClean h rs1 rs2) s (fun t =>
        x.tookM (t.hart h) 2 0 ∧ t.mem = s.mem)) ∧
  (∀ (s : State) (h : Fin 216) (x : Hart) (rs1 rs2 : Fin 32) (a n r : Nat), s.plainHart h x → x.mode = .m ∨ (x.mode = .s ∧ x.v = false ∧ x.cb Csr.mhscctl 0 0 = 1) → (x.rx rs1).toNat = a → (x.rx rs2).toNat = n → 0 < n → a + n ≤ 2 ^ 52 → s.fwRegion a = some r → s.fwCovers r (a + n - 1) = true → s.fwGrants x.ident a true = true → 
      Completes (.hscFlush h rs1 rs2) s (fun t =>
        t.hart h = { x with stalled := true } ∧ ∀ k : Fin 64, (t.home k).holds = (s.home k).holds ++ [⟨a / 128, (a + n - 1) / 128, 1, h, false⟩])) ∧
  (∀ (s : State) (h : Fin 216) (x : Hart) (rs1 rs2 : Fin 32), s.plainHart h x → x.mode = .m ∨ (x.mode = .s ∧ x.v = false ∧ x.cb Csr.mhscctl 0 0 = 1) → (x.rx rs2).toNat = 0 → 
      Completes (.hscFlush h rs1 rs2) s (fun t =>
        t = s.setHart h { x with pc := x.pc + 4 })) ∧
  (∀ (s : State) (h : Fin 216) (x : Hart) (rs1 rs2 : Fin 32), s.plainHart h x → x.mode = .m ∨ (x.mode = .s ∧ x.v = false ∧ x.cb Csr.mhscctl 0 0 = 1) → (x.rx rs2).toNat ≠ 0 → s.fwGrants x.ident (x.rx rs1).toNat true = false → s.goesToM h x 7 → 
      Completes (.hscFlush h rs1 rs2) s (fun t =>
        x.tookM (t.hart h) 7 (x.rx rs1).toNat ∧ t.mem = s.mem)) ∧
  (∀ (s : State) (h : Fin 216) (x : Hart) (rs1 rs2 : Fin 32), s.plainHart h x → x.v = false ∨ x.mode = .m → x.mode = .u ∨ (x.mode = .s ∧ x.cb Csr.mhscctl 0 0 = 0) → s.goesToM h x 2 → 
      Completes (.hscFlush h rs1 rs2) s (fun t =>
        x.tookM (t.hart h) 2 0 ∧ t.mem = s.mem))

/-- A hart that may execute, its cluster not gated, no halt request, trigger, sample or step due, is meant for instructions.
ECALL and an unimplemented instruction are exceptions that go to M-mode, or to HS-mode where medeleg delegates them and to
VS-mode where hedeleg does (shown of ECALL), with pc, cause, value, mode and interrupt enable saved and the pc at the
vector; MRET undoes an entry to M-mode and is illegal below it. HSW.GATE in HS-mode through an entry that lets the hart pass
keeps pc + 4, satp, stvec and identity, and takes those of the entry; with gateways off, a call under way or an index
outside the table it is an illegal instruction, as HSW.RET is with no call under way; HSW.RET restores what was kept. A CSR
write leaves the value its register can hold, written out for mscratch, mhswctl, mhswgtab, mhspwr and stimecmp, whose timer
bit follows the time; one that the mode may not make is an exception. SATP_WRITE writes the register it names (vsatp by the
name satp under V = 1), a MODE not supported leaving it; MHPMEVENT_WRITE in M-mode holds a listed event or 0. A timer match
brings the time to the compare value and sets its bit of mip, stimecmp's where Sstc is enabled. An MSI by an identity that
reaches the file makes 1 to 2,047 pending there, no other number having an effect; any other identity's is recorded as a
violation. HALT_REQUEST halts a running hart under its enable and stays pending without it; resume leaves debug mode at dpc;
dmactive cleared drops requests and reset holds. A system bus access is a read or write under the SBA identity whose end is
answered, and is refused without the enable or to untrained DRAM. (The standard CSRs, gates and masks are the choices of log
entry 81; bits that spell a custom instruction are not unimplemented.) -/
def Obligations.TrapsAndCsrsComplete : Prop :=
  (∀ (s : State) (h : Fin 216) (x : Hart), s.plainHart h x → s.goesToM h x x.ecallCode → 
      Completes (.ecall h) s (fun t =>
        x.tookM (t.hart h) x.ecallCode 0 ∧ t.mem = s.mem)) ∧
  (∀ (s : State) (h : Fin 216) (x : Hart) (bits : Nat), s.plainHart h x → customOf bits = none → s.goesToM h x 2 → 
      Completes (.unimplementedInstruction h bits) s (fun t =>
        x.tookM (t.hart h) 2 bits ∧ t.mem = s.mem)) ∧
  (∀ (s : State) (h : Fin 216) (x : Hart), s.plainHart h x → x.mode ≠ .m → bitAt (x.rc Csr.medeleg).toNat x.ecallCode = true → x.v = false ∨ bitAt (x.rc Csr.hedeleg).toNat x.ecallCode = false → x.excTrig x.ecallCode = none → s.noneHeld h x → 
      Completes (.ecall h) s (fun t =>
        (t.hart h).mode = .s ∧ (t.hart h).v = false ∧ (t.hart h).pc = vecPc (x.rc Csr.stvec) ∧ (t.hart h).rc Csr.sepc = x.pc ∧ (t.hart h).rc Csr.scause = BitVec.ofNat 64 x.ecallCode ∧ (t.hart h).rc Csr.stval = 0 ∧ (t.hart h).rc Csr.htinst = 0 ∧ (t.hart h).cb Csr.mstatus 8 8 = x.mode.code ∧ (t.hart h).cb Csr.mstatus 5 5 = x.cb Csr.mstatus 1 1 ∧ (t.hart h).cb Csr.mstatus 1 1 = 0 ∧ (t.hart h).cb Csr.hstatus 7 7 = b2n x.v ∧ (t.hart h).x = x.x ∧ t.mem = s.mem)) ∧
  (∀ (s : State) (h : Fin 216) (x : Hart), s.plainHart h x → x.mode ≠ .m → bitAt (x.rc Csr.medeleg).toNat x.ecallCode = true → x.v = true → bitAt (x.rc Csr.hedeleg).toNat x.ecallCode = true → x.excTrig x.ecallCode = none → s.noneHeld h x → 
      Completes (.ecall h) s (fun t =>
        (t.hart h).mode = .s ∧ (t.hart h).v = true ∧ (t.hart h).pc = vecPc (x.rc Csr.vstvec) ∧ (t.hart h).rc Csr.vsepc = x.pc ∧ (t.hart h).rc Csr.vscause = BitVec.ofNat 64 x.ecallCode ∧ (t.hart h).rc Csr.vstval = 0 ∧ (t.hart h).cb Csr.vsstatus 8 8 = x.mode.code ∧ (t.hart h).cb Csr.vsstatus 5 5 = x.cb Csr.vsstatus 1 1 ∧ (t.hart h).cb Csr.vsstatus 1 1 = 0 ∧ (t.hart h).x = x.x ∧ t.mem = s.mem)) ∧
  (∀ (s : State) (h : Fin 216) (x : Hart), s.plainHart h x → x.mode = .m → 
      Completes (.mret h) s (fun t =>
        (t.hart h).mode = modeOfCode (x.cb Csr.mstatus 12 11) ∧ (t.hart h).v = (modeOfCode (x.cb Csr.mstatus 12 11) != .m && x.cb Csr.mstatus 39 39 == 1) ∧ (t.hart h).pc = x.rc Csr.mepc ∧ (t.hart h).cb Csr.mstatus 3 3 = x.cb Csr.mstatus 7 7 ∧ (t.hart h).cb Csr.mstatus 7 7 = 1 ∧ (t.hart h).cb Csr.mstatus 12 11 = 0 ∧ (t.hart h).cb Csr.mstatus 39 39 = 0 ∧ (t.hart h).cb Csr.mstatus 17 17 = (if modeOfCode (x.cb Csr.mstatus 12 11) = .m then x.cb Csr.mstatus 17 17 else 0) ∧ (t.hart h).cb Csr.tcontrol 3 3 = x.cb Csr.tcontrol 7 7 ∧ (t.hart h).x = x.x)) ∧
  (∀ (s : State) (h : Fin 216) (x : Hart), s.plainHart h x → x.mode ≠ .m → s.goesToM h x 2 → 
      Completes (.mret h) s (fun t =>
        x.tookM (t.hart h) 2 0 ∧ t.mem = s.mem)) ∧
  (∀ (s : State) (h : Fin 216) (x : Hart) (k : Fin 256) (b : List Byte), s.plainHart h x → x.mode = .s → x.v = false → s.rd Reg.ISO_STATUS F.ISO_STATUS_GATEWAYS = 1 ∨ s.rd Reg.ISO_STATUS F.ISO_STATUS_GATEWAYS = 2 → x.cb Csr.mhswctl 8 8 = 1 → x.gate = none → k.val < 2 ^ x.cb Csr.mhswgtab 63 60 → x.gateLets (s.rd Reg.ISO_STATUS F.ISO_STATUS_GATEWAYS) (s.readPa monitor (64 * x.cb Csr.mhswgtab 51 6 + 64 * k) 64).1 = true → (s.readPa monitor (64 * x.cb Csr.mhswgtab 51 6 + 64 * k) 64).2.hart h = x → (s.readPa monitor (64 * x.cb Csr.mhswgtab 51 6 + 64 * k) 64).1.bytes = b → atpMode (leAt b 8 8) = true → 
      Completes (.hswGate h k) s (fun t =>
        (t.hart h).pc = BitVec.ofNat 64 (leAt b 0 8) ∧ (t.hart h).rc Csr.satp = BitVec.ofNat 64 (leAt b 8 8) ∧ ((t.hart h).rc Csr.stvec).toNat / 4 = leAt b 16 8 / 4 ∧ (t.hart h).cb Csr.mhswctl 5 0 = leAt b 33 1 ∧ (t.hart h).cb Csr.mhswctl 7 7 = b2n (bitAt (leAt b 32 1) 1) ∧ (t.hart h).gate = some ⟨x.pc + 4, x.rc Csr.satp, x.rc Csr.stvec, x.swIdent.world, x.swIdent.pid, k⟩ ∧ (t.hart h).mode = .s ∧ (t.hart h).x = x.x)) ∧
  (∀ (s : State) (h : Fin 216) (x : Hart) (k : Fin 256), s.plainHart h x → x.mode = .s → x.v = false → (s.rd Reg.ISO_STATUS F.ISO_STATUS_GATEWAYS ≠ 1 ∧ s.rd Reg.ISO_STATUS F.ISO_STATUS_GATEWAYS ≠ 2) ∨ x.cb Csr.mhswctl 8 8 = 0 ∨ x.gate ≠ none ∨ 2 ^ x.cb Csr.mhswgtab 63 60 ≤ k.val → s.goesToM h x 2 → 
      Completes (.hswGate h k) s (fun t =>
        x.tookM (t.hart h) 2 0 ∧ t.mem = s.mem)) ∧
  (∀ (s : State) (h : Fin 216) (x : Hart) (k : Fin 256) (e : Nat), s.plainHart h x → x.hswGate = some e → s.goesToM h x e → 
      Completes (.hswGate h k) s (fun t =>
        x.tookM (t.hart h) e 0 ∧ t.mem = s.mem)) ∧
  (∀ (s : State) (h : Fin 216) (x : Hart) (g : GateShadow), s.plainHart h x → x.mode = .s → x.v = false → x.cb Csr.mhswctl 8 8 = 1 → x.gate = some g → g.pid < 64 → 
      Completes (.hswRet h) s (fun t =>
        (t.hart h).pc = g.ret ∧ (t.hart h).rc Csr.satp = g.satp ∧ (t.hart h).rc Csr.stvec = g.stvec ∧ (t.hart h).swIdent = ⟨g.pid, g.world⟩ ∧ (t.hart h).gate = none ∧ (t.hart h).x = x.x)) ∧
  (∀ (s : State) (h : Fin 216) (x : Hart), s.plainHart h x → x.mode = .s → x.v = false → x.gate = none → s.goesToM h x 2 → 
      Completes (.hswRet h) s (fun t =>
        x.tookM (t.hart h) 2 0 ∧ t.mem = s.mem)) ∧
  (∀ (s : State) (h : Fin 216) (x : Hart) (v : Word), s.plainHart h x → x.mode = .m → 
      Completes (.csrWrite h 0x340 v) s (fun t =>
        t = s.setHart h { x.wc 0x340 v with pc := x.pc + 4 })) ∧
  (∀ (s : State) (h : Fin 216) (x : Hart) (v : Word), s.plainHart h x → x.mode = .m → 
      Completes (.csrWrite h 0x7C0 v) s (fun t =>
        (t.hart h).cb 0x7C0 5 0 = bitsOf v.toNat 5 0 ∧ (t.hart h).cb 0x7C0 7 7 = bitsOf v.toNat 7 7 ∧ (t.hart h).cb 0x7C0 63 9 = x.cb 0x7C0 63 9 ∧ (t.hart h).pc = x.pc + 4)) ∧
  (∀ (s : State) (h : Fin 216) (x : Hart) (v : Word), s.plainHart h x → x.mode = .m → bitsOf v.toNat 63 60 ≤ 8 → 
      Completes (.csrWrite h 0x7C1 v) s (fun t =>
        (t.hart h).cb 0x7C1 51 6 = bitsOf v.toNat 51 6 ∧ (t.hart h).cb 0x7C1 63 60 = bitsOf v.toNat 63 60 ∧ (t.hart h).pc = x.pc + 4)) ∧
  (∀ (s : State) (h : Fin 216) (x : Hart) (v : Word), s.plainHart h x → x.mode = .m → 
      Completes (.csrWrite h 0x7C4 v) s (fun t =>
        (t.hart h).cb 0x7C4 1 0 = (if v.toNat % 4 = 3 then x.cb 0x7C4 1 0 else v.toNat % 4) ∧ (t.hart h).pc = x.pc + 4)) ∧
  (∀ (s : State) (h : Fin 216) (x : Hart) (v : Word), s.plainHart h x → x.mode = .m → x.cb Csr.menvcfg 63 63 = 1 → 
      Completes (.csrWrite h 0x14D v) s (fun t =>
        (t.hart h).rc Csr.stimecmp = v ∧ (t.hart h).cb Csr.mip 5 5 = b2n (decide (v.toNat ≤ s.time)) ∧ (t.hart h).pc = x.pc + 4)) ∧
  (∀ (s : State) (h : Fin 216) (x : Hart) (n m : Nat) (v : Word), s.plainHart h x → x.csrGate n = none → (if x.v ∧ x.mode = .s then csrUnderV n else n) = m → (x.setCsr (s.rd Reg.ISO_STATUS F.ISO_STATUS_GATEWAYS) m v).quiet → m ∉ [0x351, 0x151, 0x251, 0x35C, 0x15C, 0x25C, Csr.stimecmp, Csr.vstimecmp, Csr.htimedelta, Csr.menvcfg, Csr.henvcfg] → 
      Completes (.csrWrite h n v) s (fun t =>
        t = s.setHart h { x.setCsr (s.rd Reg.ISO_STATUS F.ISO_STATUS_GATEWAYS) m v with pc := x.pc + 4 })) ∧
  (∀ (s : State) (h : Fin 216) (x : Hart) (n e : Nat) (v : Word), s.plainHart h x → x.csrGate n = some e → s.goesToM h x e → 
      Completes (.csrWrite h n v) s (fun t =>
        x.tookM (t.hart h) e 0 ∧ t.mem = s.mem)) ∧
  (∀ (s : State) (h : Fin 216) (x : Hart) (n : Nat) (v : Word), s.plainHart h x → csrExists n = false → s.goesToM h x 2 → 
      Completes (.csrWrite h n v) s (fun t =>
        x.tookM (t.hart h) 2 0 ∧ t.mem = s.mem)) ∧
  (∀ (s : State) (h : Fin 216) (x : Hart) (v : Word), s.plainHart h x → x.atpGate .satp = none → x.v = false ∨ x.mode = .m → atpMode v.toNat = true → 
      Completes (.satpWrite h .satp v) s (fun t =>
        t = s.setHart h { x.wc Csr.satp v with pc := x.pc + 4 })) ∧
  (∀ (s : State) (h : Fin 216) (x : Hart) (v : Word), s.plainHart h x → x.atpGate .satp = none → x.v = true → x.mode ≠ .m → atpMode v.toNat = true → 
      Completes (.satpWrite h .satp v) s (fun t =>
        t = s.setHart h { x.wc Csr.vsatp v with pc := x.pc + 4 })) ∧
  (∀ (s : State) (h : Fin 216) (x : Hart) (v : Word), s.plainHart h x → x.atpGate .vsatp = none → atpMode v.toNat = true → 
      Completes (.satpWrite h .vsatp v) s (fun t =>
        t = s.setHart h { x.wc Csr.vsatp v with pc := x.pc + 4 })) ∧
  (∀ (s : State) (h : Fin 216) (x : Hart) (v : Word), s.plainHart h x → x.atpGate .hgatp = none → atpMode v.toNat = true → 
      Completes (.satpWrite h .hgatp v) s (fun t =>
        (t.hart h).cb Csr.hgatp 63 60 = bitsOf v.toNat 63 60 ∧ (t.hart h).cb Csr.hgatp 57 44 = bitsOf v.toNat 57 44 ∧ (t.hart h).cb Csr.hgatp 43 2 = bitsOf v.toNat 43 2 ∧ (t.hart h).cb Csr.hgatp 1 0 = 0 ∧ (t.hart h).pc = x.pc + 4)) ∧
  (∀ (s : State) (h : Fin 216) (x : Hart) (r : AtpReg) (v : Word), s.plainHart h x → x.atpGate r = none → atpMode v.toNat = false → 
      Completes (.satpWrite h r v) s (fun t =>
        t = s.setHart h { x with pc := x.pc + 4 })) ∧
  (∀ (s : State) (h : Fin 216) (x : Hart) (r : AtpReg) (v : Word) (e : Nat), s.plainHart h x → x.atpGate r = some e → s.goesToM h x e → 
      Completes (.satpWrite h r v) s (fun t =>
        x.tookM (t.hart h) e 0 ∧ t.mem = s.mem)) ∧
  (∀ (s : State) (h : Fin 216) (x : Hart) (k : Nat) (v : Word), s.plainHart h x → x.mode = .m → 3 ≤ k → k ≤ 31 → 0x10 ≤ bitsOf v.toNat 15 0 → bitsOf v.toNat 15 0 ≤ 0x1E → 
      Completes (.mhpmeventWrite h k v) s (fun t =>
        (t.hart h).cb (0x320 + k) 15 0 = bitsOf v.toNat 15 0 ∧ (t.hart h).cb (0x320 + k) 57 16 = 0 ∧ (t.hart h).cb (0x320 + k) 63 58 = bitsOf v.toNat 63 58 ∧ (t.hart h).pc = x.pc + 4)) ∧
  (∀ (s : State) (h : Fin 216) (x : Hart) (k : Nat) (v : Word), s.plainHart h x → x.mode = .m → 3 ≤ k → k ≤ 31 → bitsOf v.toNat 15 0 < 0x10 ∨ 0x1E < bitsOf v.toNat 15 0 → 
      Completes (.mhpmeventWrite h k v) s (fun t =>
        (t.hart h).cb (0x320 + k) 57 0 = 0 ∧ (t.hart h).cb (0x320 + k) 63 58 = bitsOf v.toNat 63 58 ∧ (t.hart h).pc = x.pc + 4)) ∧
  (∀ (s : State) (h : Fin 216), (s.rdW (Reg.MTIMECMP h)).toNat ≤ (s.rdW Reg.MTIME).toNat → 
      Completes (.mtimecmpMatch h) s (fun t =>
        t = s.setHart h ((s.hart h).scb Csr.mip 7 7 1))) ∧
  (∀ (s : State) (h : Fin 216), (s.rdW Reg.MTIME).toNat < (s.rdW (Reg.MTIMECMP h)).toNat → 
      Completes (.mtimecmpMatch h) s (fun t =>
        t.rdW Reg.MTIME = s.rdW (Reg.MTIMECMP h) ∧ (t.hart h).cb Csr.mip 7 7 = 1)) ∧
  (∀ (s : State) (h : Fin 216), (s.hart h).cb Csr.menvcfg 63 63 = 1 → ((s.hart h).rc Csr.stimecmp).toNat ≤ s.time → 
      Completes (.stimecmpMatch h false) s (fun t =>
        t = s.setHart h ((s.hart h).scb Csr.mip 5 5 1))) ∧
  (∀ (s : State) (h : Fin 216), (s.hart h).cb Csr.menvcfg 63 63 = 1 → (s.hart h).cb Csr.henvcfg 63 63 = 1 → ((s.hart h).rc Csr.vstimecmp - (s.hart h).rc Csr.htimedelta).toNat ≤ s.time → 
      Completes (.stimecmpMatch h true) s (fun t =>
        t = s.setHart h ((s.hart h).scb Csr.mip 6 6 1))) ∧
  (∀ (s : State) (h : Fin 216), (s.hart h).cb Csr.menvcfg 63 63 = 1 → s.time < ((s.hart h).rc Csr.stimecmp).toNat → 
      Completes (.stimecmpMatch h false) s (fun t =>
        t.rdW Reg.MTIME = (s.hart h).rc Csr.stimecmp ∧ (t.hart h).cb Csr.mip 5 5 = 1)) ∧
  (∀ (s : State) (h : Fin 216) (vs : Bool), (s.hart h).cb Csr.menvcfg 63 63 = 0 → 
      Completes (.stimecmpMatch h vs) s (fun t =>
        t.harts = s.harts)) ∧
  (∀ (s : State) (who : Ident) (f : Fin 1944) (e : Nat), s.fenced (nthD clusterStops (fileHart f / 6) 0) 2 = false → s.fileReach f who = true → 1 ≤ e → e ≤ 2047 → 
      Completes (.msi who f e) s (fun t =>
        t = { s with imsic := Tab.put false s.imsic (2048 * f + e) true })) ∧
  (∀ (s : State) (who : Ident) (f : Fin 1944) (e : Nat), s.fenced (nthD clusterStops (fileHart f / 6) 0) 2 = false → s.fileReach f who = true → e = 0 ∨ 2047 < e → 
      Completes (.msi who f e) s (fun t =>
        t = s)) ∧
  (∀ (s : State) (who : Ident) (f : Fin 1944) (e : Nat), s.fenced (nthD clusterStops (fileHart f / 6) 0) 2 = false → s.fileReach f who = false → 
      Completes (.msi who f e) s (fun t =>
        t = s.viol 3 who (windowBase + fileOff f))) ∧
  (∀ (s : State) (h : Fin 216) (x : Hart), s.plainHart h x → s.mayHalt h = true → 
      Completes (.haltRequest h) s (fun t =>
        (t.hart h).halted = true ∧ (t.hart h).haltReq = false ∧ (t.hart h).rc Csr.dpc = x.pc ∧ (t.hart h).cb Csr.dcsr 8 6 = 3 ∧ (t.hart h).cb Csr.dcsr 1 0 = x.mode.code ∧ (t.hart h).x = x.x)) ∧
  (∀ (s : State) (h : Fin 216) (x : Hart), s.hart h = x → x.halted = false → s.mayHalt h = false → 
      Completes (.haltRequest h) s (fun t =>
        t = s.setHart h { x with haltReq := true })) ∧
  (∀ (s : State) (h : Fin 216) (x : Hart) (step : Bool), s.hart h = x → x.halted = true → 
      Completes (.debugResume h step) s (fun t =>
        (t.hart h).halted = false ∧ (t.hart h).pc = x.rc Csr.dpc ∧ (t.hart h).mode = modeOfCode (x.cb Csr.dcsr 1 0) ∧ (t.hart h).v = (modeOfCode (x.cb Csr.dcsr 1 0) != .m && x.cb Csr.dcsr 5 5 == 1) ∧ (t.hart h).cb Csr.dcsr 2 2 = b2n step ∧ (t.hart h).x = x.x)) ∧
  (∀ (s : State) (h : Fin 216), s.pkg.hartRst = [h.val] → 
      Completes (.dmactiveClear) s (fun t =>
        t.pkg.ndm = none ∧ t.pkg.hartRst = [] ∧ (t.hart h).held = ((s.hart h).held && !(s.pk (fun p => { p with ndm := none, hartRst := [] })).hartMayRun h) ∧ t.harts.all (fun e => !e.2.haltReq) = true)) ∧
  (∀ (s : State) (pa size v : Nat), s.invasive s.sbaWho.world = true → s.untrained pa = false → (s.writePa s.sbaWho pa (leBytes size v)).1 = .ok → 
      Completes (.systemBusAccess pa size (some v)) s (fun t =>
        t = (s.writePa s.sbaWho pa (leBytes size v)).2.answer (.ok 0))) ∧
  (∀ (s : State) (pa size v : Nat), s.invasive s.sbaWho.world = true → s.untrained pa = false → (s.writePa s.sbaWho pa (leBytes size v)).1 ≠ .ok → 
      Completes (.systemBusAccess pa size (some v)) s (fun t =>
        t = (s.writePa s.sbaWho pa (leBytes size v)).2.answer .error)) ∧
  (∀ (s : State) (pa size : Nat), s.invasive s.sbaWho.world = true → s.untrained pa = false → (s.readPa s.sbaWho pa size).1.res = .ok → (s.readPa s.sbaWho pa size).1.poison = false → 
      Completes (.systemBusAccess pa size none) s (fun t =>
        t = (s.readPa s.sbaWho pa size).2.answer (.ok (leNat (s.readPa s.sbaWho pa size).1.bytes)))) ∧
  (∀ (s : State) (pa size : Nat), s.invasive s.sbaWho.world = true → s.untrained pa = false → (s.readPa s.sbaWho pa size).1.res ≠ .ok ∨ (s.readPa s.sbaWho pa size).1.poison = true → 
      Completes (.systemBusAccess pa size none) s (fun t =>
        t = (s.readPa s.sbaWho pa size).2.answer .error)) ∧
  (∀ (s : State) (pa size : Nat) (w : Option Nat), s.invasive s.sbaWho.world = false ∨ s.untrained pa = true → 
      Completes (.systemBusAccess pa size w) s (fun t =>
        t = s.answer .error))

/-- A hart that may execute, its cluster not gated, no halt request, trigger, sample or step due, makes an access within one
line that its translation gives. On a copy of its identity in its L1D, a load puts the value in its register and leaves the
line's age (a load that only its L2 hits makes the age 0 and puts the line in the L1D), a store, an AMO, an SC with the
reservation, or CBO.ZERO change the line's bytes in place, the copy owned, AMO and SC with the old value or 0 in rd, and LR
reads and reserves the line. A load of a poisoned copy is a hardware-error exception. SC with no reservation writes 1 and
changes no memory. Where the cluster has nothing of the line and holds no snoop, the access waits while the request of *R334* goes to the
home; a prefetch asks and retires at once, and one that would fault only retires. On memory mapped NC a load or store is made at
the home. An access to the register window is sent alone; its end writes rd, and the hart goes on, or it is an access fault.
A translation that fails is its exception, as is a misaligned AMO, LR or SC, and a CBO that the mode may not execute, shown
for those that M-mode takes. -/
def Obligations.HartAccessesComplete : Prop :=
  (∀ (s : State) (h : Fin 216) (x : Hart) (reg : LsReg) (rs1 : Fin 32) (imm : Int) (size : Nat) (signed : Bool) (len : Nat) (va pa k : Nat) (l : L2Line), s.plainHart h x → x.regOn reg = true → x.addr rs1 imm = va → va % 128 + size ≤ 128 → s.reaches h .load va pa → s.hits h (pa / 128) k l → 
      Completes (.loadStore h false reg rs1 imm size signed len) s (fun t =>
        t.hart h = { x.wd (lsRegNum reg) size signed (leAt l.data.data (pa % 128) size) with part := 0, pc := x.pc + BitVec.ofNat 64 len } ∧ t.cluster (hartCluster h) = { (s.cluster (hartCluster h)).l1Use (h.val % 6) (pa / 128) with l2 := Tab.ins (s.cluster (hartCluster h)).l2 k l } ∧ t.mem = s.mem)) ∧
  (∀ (s : State) (h : Fin 216) (x : Hart) (reg : LsReg) (rs1 : Fin 32) (imm : Int) (size : Nat) (signed : Bool) (len : Nat) (va pa k : Nat) (l : L2Line), s.plainHart h x → x.regOn reg = true → x.addr rs1 imm = va → va % 128 + size ≤ 128 → s.reaches h .load va pa → (s.cluster (hartCluster h)).find (pa / 128) = some (k, l) → (s.cluster (hartCluster h)).evicting (pa / 128) = none → (s.cluster (hartCluster h)).waits = [] → (s.cluster (hartCluster h)).held = [] → l.who = x.ident → l.data.poison = false → (s.cluster (hartCluster h)).l1Has (h.val % 6) (pa / 128) = false → x.cb Csr.mhspf 0 0 = 0 → 
      Completes (.loadStore h false reg rs1 imm size signed len) s (fun t =>
        (t.hart h).pc = x.pc + BitVec.ofNat 64 len ∧ t.cluster (hartCluster h) = { (s.cluster (hartCluster h)).l1Use (h.val % 6) (pa / 128) with l2 := Tab.ins (s.cluster (hartCluster h)).l2 k { l with age := 0 } } ∧ t.mem = s.mem)) ∧
  (∀ (s : State) (h : Fin 216) (x : Hart) (reg : LsReg) (rs1 : Fin 32) (imm : Int) (size : Nat) (signed : Bool) (len : Nat) (va pa k : Nat) (l : L2Line), s.plainHart h x → x.regOn reg = true → x.addr rs1 imm = va → va % 128 + size ≤ 128 → s.reaches h .store va pa → s.hits h (pa / 128) k l → l.st ≠ .s → 
      Completes (.loadStore h true reg rs1 imm size signed len) s (fun t =>
        t.hart h = { x with part := 0, pc := x.pc + BitVec.ofNat 64 len } ∧ t.cluster (hartCluster h) = { ((s.cluster (hartCluster h)).l1Drop (fun k => k != h.val % 6) (pa / 128)).l1Use (h.val % 6) (pa / 128) with l2 := Tab.ins (s.cluster (hartCluster h)).l2 k ⟨l.ln, .m, l.age, ⟨patchB l.data.data (pa % 128) (x.srcBytes size reg), false⟩, l.who⟩ } ∧ t.mem = s.mem)) ∧
  (∀ (s : State) (h : Fin 216) (x : Hart) (reg : LsReg) (rs1 : Fin 32) (imm : Int) (size : Nat) (signed : Bool) (len : Nat) (va pa k : Nat) (l : L2Line), s.plainHart h x → x.regOn reg = true → x.addr rs1 imm = va → va % 128 + size ≤ 128 → s.reaches h .load va pa → (s.cluster (hartCluster h)).find (pa / 128) = some (k, l) → (s.cluster (hartCluster h)).evicting (pa / 128) = none → (s.cluster (hartCluster h)).waits = [] → (s.cluster (hartCluster h)).held = [] → l.who = x.ident → l.data.poison = true → x.cb Csr.mhspf 0 0 = 0 → s.goesToM h x 19 → 
      Completes (.loadStore h false reg rs1 imm size signed len) s (fun t =>
        x.tookM (t.hart h) 19 va ∧ (t.cluster (hartCluster h)).find (pa / 128) = some (k, l) ∧ t.mem = s.mem)) ∧
  (∀ (s : State) (h : Fin 216) (x : Hart) (reg : LsReg) (rs1 : Fin 32) (imm : Int) (size : Nat) (signed : Bool) (len : Nat) (va pa : Nat), s.plainHart h x → x.regOn reg = true → x.addr rs1 imm = va → va % 128 + size ≤ 128 → s.reaches h .load va pa → s.misses h (pa / 128) → 
      Completes (.loadStore h false reg rs1 imm size signed len) s (fun t =>
        (t.cluster (hartCluster h)).reqs = [⟨.rdShared, pa / 128, x.ident, false, false⟩] ∧ (t.cluster (hartCluster h)).waits = [⟨h, pa / 128, .load (lsRegNum reg) size signed (pa % 128) 0 size, x.ident, va, len⟩] ∧ (t.hart h).stalled = true ∧ (t.hart h).pc = x.pc ∧ (t.hart h).x = x.x ∧ t.mem = s.mem)) ∧
  (∀ (s : State) (h : Fin 216) (x : Hart) (reg : LsReg) (rs1 : Fin 32) (imm : Int) (size : Nat) (signed : Bool) (len : Nat) (va pa : Nat), s.plainHart h x → x.regOn reg = true → x.addr rs1 imm = va → va % 128 + size ≤ 128 → s.reaches h .store va pa → s.misses h (pa / 128) → 
      Completes (.loadStore h true reg rs1 imm size signed len) s (fun t =>
        (t.cluster (hartCluster h)).reqs = [⟨.rdUnique, pa / 128, x.ident, false, false⟩] ∧ (t.cluster (hartCluster h)).waits = [⟨h, pa / 128, .store (pa % 128) (x.srcBytes size reg), x.ident, va, len⟩] ∧ (t.hart h).stalled = true ∧ (t.hart h).pc = x.pc ∧ (t.hart h).x = x.x ∧ t.mem = s.mem)) ∧
  (∀ (s : State) (h : Fin 216) (x : Hart) (reg : LsReg) (rs1 : Fin 32) (imm : Int) (size : Nat) (signed : Bool) (len : Nat) (va pa : Nat), s.plainHart h x → x.regOn reg = true → x.addr rs1 imm = va → va % 128 + size ≤ 128 → (s.locate h .load va).1.toOption = some ⟨pa, 1⟩ → (s.locate h .load va).2 = s → s.attr ⟨pa, 1⟩ = .nc → x.unwatched .load va → (s.readPa x.ident pa size).1.res = .ok → (s.readPa x.ident pa size).1.poison = false → (s.readPa x.ident pa size).2.hart h = x → 
      Completes (.loadStore h false reg rs1 imm size signed len) s (fun t =>
        t = (s.readPa x.ident pa size).2.setHart h { x.wd (lsRegNum reg) size signed (leNat (s.readPa x.ident pa size).1.bytes) with pc := x.pc + BitVec.ofNat 64 len })) ∧
  (∀ (s : State) (h : Fin 216) (x : Hart) (reg : LsReg) (rs1 : Fin 32) (imm : Int) (size : Nat) (signed : Bool) (len : Nat) (va pa : Nat), s.plainHart h x → x.regOn reg = true → x.addr rs1 imm = va → va % 128 + size ≤ 128 → (s.locate h .store va).1.toOption = some ⟨pa, 1⟩ → (s.locate h .store va).2 = s → s.attr ⟨pa, 1⟩ = .nc → x.unwatched .store va → (x.srcBytes size reg).length = size → (s.writePa x.ident pa (x.srcBytes size reg)).1 = .ok → (s.writePa x.ident pa (x.srcBytes size reg)).2.hart h = x → 
      Completes (.loadStore h true reg rs1 imm size signed len) s (fun t =>
        t = (s.writePa x.ident pa (x.srcBytes size reg)).2.setHart h { x with pc := x.pc + BitVec.ofNat 64 len })) ∧
  (∀ (s : State) (h : Fin 216) (x : Hart) (reg : LsReg) (rs1 : Fin 32) (imm : Int) (size : Nat) (signed : Bool) (len : Nat) (va pa : Nat), s.plainHart h x → x.regOn reg = true → x.addr rs1 imm = va → va % 128 + size ≤ 128 → size = 4 ∨ size = 8 → va % size = 0 → (s.locate h .load va).1.toOption = some ⟨pa, 0⟩ → (s.locate h .load va).2 = s → s.paKind pa = .window → x.unwatched .load va → 
      Completes (.loadStore h false reg rs1 imm size signed len) s (fun t =>
        t = s.setHart h { x with io := some ⟨pa, size, none, lsRegNum reg, signed, va, len⟩ })) ∧
  (∀ (s : State) (h : Fin 216) (x : Hart) (reg : LsReg) (rs1 : Fin 32) (imm : Int) (size : Nat) (signed : Bool) (len : Nat) (va pa : Nat), s.plainHart h x → x.regOn reg = true → x.addr rs1 imm = va → va % 128 + size ≤ 128 → size = 4 ∨ size = 8 → va % size = 0 → (s.locate h .store va).1.toOption = some ⟨pa, 0⟩ → (s.locate h .store va).2 = s → s.paKind pa = .window → x.unwatched .store va → 
      Completes (.loadStore h true reg rs1 imm size signed len) s (fun t =>
        t = s.setHart h { x with io := some ⟨pa, size, some (x.srcBytes size reg), lsRegNum reg, signed, va, len⟩ })) ∧
  (∀ (s : State) (h : Fin 216) (x : Hart) (reg : LsReg) (rs1 : Fin 32) (imm : Int) (size : Nat) (signed : Bool) (len : Nat) (va : Nat) (f : TFault), s.plainHart h x → x.regOn reg = true → x.addr rs1 imm = va → va % 128 + size ≤ 128 → (s.locate h .load va).1 = .error f → (s.locate h .load va).2 = s → f = .page ∨ f = .access → x.unwatched .load va → s.goesToM h x (f.cause .load) → 
      Completes (.loadStore h false reg rs1 imm size signed len) s (fun t =>
        x.tookM (t.hart h) (f.cause .load) va ∧ t.mem = s.mem)) ∧
  (∀ (s : State) (h : Fin 216) (x : Hart) (reg : LsReg) (rs1 : Fin 32) (imm : Int) (size : Nat) (signed : Bool) (len : Nat) (va : Nat) (f : TFault), s.plainHart h x → x.regOn reg = true → x.addr rs1 imm = va → va % 128 + size ≤ 128 → (s.locate h .store va).1 = .error f → (s.locate h .store va).2 = s → f = .page ∨ f = .access → x.unwatched .store va → s.goesToM h x (f.cause .store) → 
      Completes (.loadStore h true reg rs1 imm size signed len) s (fun t =>
        x.tookM (t.hart h) (f.cause .store) va ∧ t.mem = s.mem)) ∧
  (∀ (s : State) (h : Fin 216) (x : Hart) (op : AmoOp) (rd rs1 rs2 : Fin 32) (size : Nat) (va pa k : Nat) (l : L2Line), s.plainHart h x → (x.rx rs1).toNat = va → va % size = 0 → va % 128 + size ≤ 128 → s.reaches h .store va pa → s.hits h (pa / 128) k l → l.st ≠ .s → 
      Completes (.amo h op rd rs1 rs2 size) s (fun t =>
        t.hart h = { x.wx rd (extend size true (leAt l.data.data (pa % 128) size)) with part := 0, pc := x.pc + BitVec.ofNat 64 4 } ∧ t.cluster (hartCluster h) = { ((s.cluster (hartCluster h)).l1Drop (fun k => k != h.val % 6) (pa / 128)).l1Use (h.val % 6) (pa / 128) with l2 := Tab.ins (s.cluster (hartCluster h)).l2 k ⟨l.ln, .m, l.age, ⟨patchB l.data.data (pa % 128) (leBytes size (amoResult op size (leAt l.data.data (pa % 128) size) (x.rx rs2).toNat)), false⟩, l.who⟩ } ∧ t.mem = s.mem)) ∧
  (∀ (s : State) (h : Fin 216) (x : Hart) (op : AmoOp) (rd rs1 rs2 : Fin 32) (size : Nat) (va pa : Nat), s.plainHart h x → (x.rx rs1).toNat = va → va % size = 0 → va % 128 + size ≤ 128 → s.reaches h .store va pa → s.misses h (pa / 128) → 
      Completes (.amo h op rd rs1 rs2 size) s (fun t =>
        (t.cluster (hartCluster h)).reqs = [⟨.rdUnique, pa / 128, x.ident, false, false⟩] ∧ (t.cluster (hartCluster h)).waits = [⟨h, pa / 128, .amo op rd size (pa % 128) (x.rx rs2).toNat, x.ident, va, 4⟩] ∧ (t.hart h).stalled = true ∧ (t.hart h).pc = x.pc ∧ (t.hart h).x = x.x ∧ t.mem = s.mem)) ∧
  (∀ (s : State) (h : Fin 216) (x : Hart) (rd rs1 : Fin 32) (size : Nat) (va pa k : Nat) (l : L2Line), s.plainHart h x → (x.rx rs1).toNat = va → va % size = 0 → va % 128 + size ≤ 128 → s.reaches h .load va pa → s.hits h (pa / 128) k l → 
      Completes (.lr h rd rs1 size) s (fun t =>
        t.hart h = { x.wx rd (extend size true (leAt l.data.data (pa % 128) size)) with part := 0, pc := x.pc + BitVec.ofNat 64 4, resv := some (pa / 128), resvLate := false } ∧ t.cluster (hartCluster h) = { (s.cluster (hartCluster h)).l1Use (h.val % 6) (pa / 128) with l2 := Tab.ins (s.cluster (hartCluster h)).l2 k l } ∧ t.mem = s.mem)) ∧
  (∀ (s : State) (h : Fin 216) (x : Hart) (rd rs1 : Fin 32) (size : Nat) (va pa : Nat), s.plainHart h x → (x.rx rs1).toNat = va → va % size = 0 → va % 128 + size ≤ 128 → s.reaches h .load va pa → s.misses h (pa / 128) → 
      Completes (.lr h rd rs1 size) s (fun t =>
        (t.cluster (hartCluster h)).reqs = [⟨.rdShared, pa / 128, x.ident, false, false⟩] ∧ (t.cluster (hartCluster h)).waits = [⟨h, pa / 128, .lr rd size (pa % 128), x.ident, va, 4⟩] ∧ (t.hart h).stalled = true ∧ (t.hart h).pc = x.pc ∧ (t.hart h).x = x.x ∧ t.mem = s.mem)) ∧
  (∀ (s : State) (h : Fin 216) (x : Hart) (rd rs1 rs2 : Fin 32) (size : Nat) (va pa k : Nat) (l : L2Line), s.plainHart h x → (x.rx rs1).toNat = va → va % size = 0 → va % 128 + size ≤ 128 → s.reaches h .store va pa → s.hits h (pa / 128) k l → l.st ≠ .s → x.resv = some (pa / 128) → 
      Completes (.sc h rd rs1 rs2 size) s (fun t =>
        t.hart h = { x.wx rd 0 with part := 0, pc := x.pc + BitVec.ofNat 64 4, resv := none } ∧ t.cluster (hartCluster h) = { ((s.cluster (hartCluster h)).l1Drop (fun k => k != h.val % 6) (pa / 128)).l1Use (h.val % 6) (pa / 128) with l2 := Tab.ins (s.cluster (hartCluster h)).l2 k ⟨l.ln, .m, l.age, ⟨patchB l.data.data (pa % 128) (leBytes size (x.rx rs2).toNat), false⟩, l.who⟩ } ∧ t.mem = s.mem)) ∧
  (∀ (s : State) (h : Fin 216) (x : Hart) (rd rs1 rs2 : Fin 32) (size : Nat) (va pa : Nat), s.plainHart h x → (x.rx rs1).toNat = va → va % size = 0 → va % 128 + size ≤ 128 → s.reaches h .store va pa → x.resv ≠ some (pa / 128) → s.noneHeld h x → 
      Completes (.sc h rd rs1 rs2 size) s (fun t =>
        t = s.setHart h { x.wx rd 1 with resv := none, pc := x.pc + 4 })) ∧
  (∀ (s : State) (h : Fin 216) (x : Hart) (op : AmoOp) (rd rs1 rs2 : Fin 32) (size : Nat), s.plainHart h x → x.unwatched .store (x.rx rs1).toNat → (x.rx rs1).toNat % size ≠ 0 → s.goesToM h x 6 → 
      Completes (.amo h op rd rs1 rs2 size) s (fun t =>
        x.tookM (t.hart h) 6 (x.rx rs1).toNat ∧ t.mem = s.mem)) ∧
  (∀ (s : State) (h : Fin 216) (x : Hart) (rd rs1 : Fin 32) (size : Nat), s.plainHart h x → x.unwatched .load (x.rx rs1).toNat → (x.rx rs1).toNat % size ≠ 0 → s.goesToM h x 4 → 
      Completes (.lr h rd rs1 size) s (fun t =>
        x.tookM (t.hart h) 4 (x.rx rs1).toNat ∧ t.mem = s.mem)) ∧
  (∀ (s : State) (h : Fin 216) (x : Hart) (rd rs1 rs2 : Fin 32) (size : Nat), s.plainHart h x → x.unwatched .store (x.rx rs1).toNat → (x.rx rs1).toNat % size ≠ 0 → s.goesToM h x 6 → 
      Completes (.sc h rd rs1 rs2 size) s (fun t =>
        x.tookM (t.hart h) 6 (x.rx rs1).toNat ∧ t.mem = s.mem)) ∧
  (∀ (s : State) (h : Fin 216) (x : Hart) (rs1 : Fin 32) (va pa k : Nat) (l : L2Line), s.plainHart h x → x.cboGate (fun v => v.testBit 7) = none → (x.rx rs1).toNat = va → s.reaches h .store va pa → s.hits h (pa / 128) k l → l.st ≠ .s → 
      Completes (.cboZero h rs1) s (fun t =>
        t.hart h = { x with part := 0, pc := x.pc + BitVec.ofNat 64 4 } ∧ t.cluster (hartCluster h) = { ((s.cluster (hartCluster h)).l1Drop (fun k => k != h.val % 6) (pa / 128)).l1Use (h.val % 6) (pa / 128) with l2 := Tab.ins (s.cluster (hartCluster h)).l2 k ⟨l.ln, .m, l.age, ⟨zeroLine, false⟩, l.who⟩ } ∧ t.mem = s.mem)) ∧
  (∀ (s : State) (h : Fin 216) (x : Hart) (rs1 : Fin 32) (va pa : Nat), s.plainHart h x → x.cboGate (fun v => v.testBit 7) = none → (x.rx rs1).toNat = va → s.reaches h .store va pa → s.misses h (pa / 128) → 
      Completes (.cboZero h rs1) s (fun t =>
        (t.cluster (hartCluster h)).reqs = [⟨.zeroUnique, pa / 128, x.ident, false, false⟩] ∧ (t.cluster (hartCluster h)).waits = [⟨h, pa / 128, .zero, x.ident, va, 4⟩] ∧ (t.hart h).stalled = true ∧ (t.hart h).pc = x.pc ∧ (t.hart h).x = x.x ∧ t.mem = s.mem)) ∧
  (∀ (s : State) (h : Fin 216) (x : Hart) (rs1 : Fin 32) (va pa : Nat), s.plainHart h x → x.cboGate (fun v => v.testBit 6) = none → (x.rx rs1).toNat = va → s.reaches h .load va pa → s.misses h (pa / 128) → 
      Completes (.cboClean h rs1) s (fun t =>
        (t.cluster (hartCluster h)).reqs = [⟨.cmoClean, pa / 128, x.ident, false, false⟩] ∧ (t.cluster (hartCluster h)).waits = [⟨h, pa / 128, .cmo false, x.ident, va, 4⟩] ∧ (t.hart h).stalled = true ∧ (t.hart h).pc = x.pc ∧ (t.hart h).x = x.x ∧ t.mem = s.mem)) ∧
  (∀ (s : State) (h : Fin 216) (x : Hart) (rs1 : Fin 32) (va pa : Nat), s.plainHart h x → x.cboGate (fun v => v.testBit 6) = none → (x.rx rs1).toNat = va → s.reaches h .load va pa → s.misses h (pa / 128) → 
      Completes (.cboFlush h rs1) s (fun t =>
        (t.cluster (hartCluster h)).reqs = [⟨.cmoFlush, pa / 128, x.ident, false, false⟩] ∧ (t.cluster (hartCluster h)).waits = [⟨h, pa / 128, .cmo true, x.ident, va, 4⟩] ∧ (t.hart h).stalled = true ∧ (t.hart h).pc = x.pc ∧ (t.hart h).x = x.x ∧ t.mem = s.mem)) ∧
  (∀ (s : State) (h : Fin 216) (x : Hart) (rs1 : Fin 32) (va pa : Nat), s.plainHart h x → x.cboGate (fun v => v.testBit 4) = none → (x.rx rs1).toNat = va → s.reaches h .load va pa → s.misses h (pa / 128) → 
      Completes (.cboInval h rs1) s (fun t =>
        (t.cluster (hartCluster h)).reqs = [⟨.cmoFlush, pa / 128, x.ident, false, false⟩] ∧ (t.cluster (hartCluster h)).waits = [⟨h, pa / 128, .cmo true, x.ident, va, 4⟩] ∧ (t.hart h).stalled = true ∧ (t.hart h).pc = x.pc ∧ (t.hart h).x = x.x ∧ t.mem = s.mem)) ∧
  (∀ (s : State) (h : Fin 216) (x : Hart) (rs1 : Fin 32) (e : Nat), s.plainHart h x → x.cboGate (fun v => v.testBit 7) = some e → s.goesToM h x e → 
      Completes (.cboZero h rs1) s (fun t =>
        x.tookM (t.hart h) e 0 ∧ t.mem = s.mem)) ∧
  (∀ (s : State) (h : Fin 216) (x : Hart) (rs1 : Fin 32) (e : Nat), s.plainHart h x → x.cboGate (fun v => v.testBit 6) = some e → s.goesToM h x e → 
      Completes (.cboClean h rs1) s (fun t =>
        x.tookM (t.hart h) e 0 ∧ t.mem = s.mem)) ∧
  (∀ (s : State) (h : Fin 216) (x : Hart) (rs1 : Fin 32) (e : Nat), s.plainHart h x → x.cboGate (fun v => v.testBit 6) = some e → s.goesToM h x e → 
      Completes (.cboFlush h rs1) s (fun t =>
        x.tookM (t.hart h) e 0 ∧ t.mem = s.mem)) ∧
  (∀ (s : State) (h : Fin 216) (x : Hart) (rs1 : Fin 32) (e : Nat), s.plainHart h x → x.cboGate (fun v => v.testBit 4) = some e → s.goesToM h x e → 
      Completes (.cboInval h rs1) s (fun t =>
        x.tookM (t.hart h) e 0 ∧ t.mem = s.mem)) ∧
  (∀ (s : State) (h : Fin 216) (x : Hart) (rs1 : Fin 32) (imm : Int) (va pa : Nat), s.plainHart h x → x.addr rs1 imm = va → s.reaches h .load va pa → s.misses h (pa / 128) → 
      Completes (.prefetchR h rs1 imm) s (fun t =>
        (t.cluster (hartCluster h)).reqs = [⟨.rdShared, pa / 128, x.ident, false, false⟩] ∧ (t.cluster (hartCluster h)).waits = [] ∧ t.hart h = { x with pc := x.pc + 4 } ∧ t.mem = s.mem)) ∧
  (∀ (s : State) (h : Fin 216) (x : Hart) (rs1 : Fin 32) (imm : Int) (f : TFault), s.plainHart h x → (s.locate h .load (x.addr rs1 imm)).1 = .error f → (s.locate h .load (x.addr rs1 imm)).2 = s → 
      Completes (.prefetchR h rs1 imm) s (fun t =>
        t = s.setHart h { x with pc := x.pc + 4 })) ∧
  (∀ (s : State) (h : Fin 216) (x : Hart) (rs1 : Fin 32) (imm : Int) (va pa : Nat), s.plainHart h x → x.addr rs1 imm = va → s.reaches h .store va pa → s.misses h (pa / 128) → 
      Completes (.prefetchW h rs1 imm) s (fun t =>
        (t.cluster (hartCluster h)).reqs = [⟨.rdUnique, pa / 128, x.ident, false, false⟩] ∧ (t.cluster (hartCluster h)).waits = [] ∧ t.hart h = { x with pc := x.pc + 4 } ∧ t.mem = s.mem)) ∧
  (∀ (s : State) (h : Fin 216) (x : Hart) (rs1 : Fin 32) (imm : Int) (f : TFault), s.plainHart h x → (s.locate h .store (x.addr rs1 imm)).1 = .error f → (s.locate h .store (x.addr rs1 imm)).2 = s → 
      Completes (.prefetchW h rs1 imm) s (fun t =>
        t = s.setHart h { x with pc := x.pc + 4 })) ∧
  (∀ (s : State) (h : Fin 216) (x : Hart) (rs1 : Fin 32) (imm : Int) (va pa : Nat), s.plainHart h x → x.addr rs1 imm = va → s.reaches h .fetch va pa → s.misses h (pa / 128) → 
      Completes (.prefetchI h rs1 imm) s (fun t =>
        (t.cluster (hartCluster h)).reqs = [⟨.rdNoexcl, pa / 128, x.ident, false, false⟩] ∧ (t.cluster (hartCluster h)).waits = [] ∧ t.hart h = { x with pc := x.pc + 4 } ∧ t.mem = s.mem)) ∧
  (∀ (s : State) (h : Fin 216) (x : Hart) (rs1 : Fin 32) (imm : Int) (f : TFault), s.plainHart h x → (s.locate h .fetch (x.addr rs1 imm)).1 = .error f → (s.locate h .fetch (x.addr rs1 imm)).2 = s → 
      Completes (.prefetchI h rs1 imm) s (fun t =>
        t = s.setHart h { x with pc := x.pc + 4 })) ∧
  (∀ (s : State) (h : Fin 216) (x : Hart) (a : IoAccess) (v : Nat), s.hart h = x → x.io = some a → s.paKind a.pa = .window → x.quiet → a.write = none → (s.regRead x.ident (a.pa - windowBase) a.size (x.mode == .u)).1 = some v → (s.regRead x.ident (a.pa - windowBase) a.size (x.mode == .u)).2.hart h = x → 
      Completes (.regDone h) s (fun t =>
        t = (s.regRead x.ident (a.pa - windowBase) a.size (x.mode == .u)).2.setHart h { x.wd a.rd a.size a.signed v with io := none, pc := x.pc + BitVec.ofNat 64 a.len })) ∧
  (∀ (s : State) (h : Fin 216) (x : Hart) (a : IoAccess) (b : List Byte), s.hart h = x → x.io = some a → s.paKind a.pa = .window → x.quiet → a.write = some b → (s.regWrite x.ident (a.pa - windowBase) a.size (leNat b) (x.mode == .u)).1 = true → (s.regWrite x.ident (a.pa - windowBase) a.size (leNat b) (x.mode == .u)).2.hart h = x → 
      Completes (.regDone h) s (fun t =>
        t = (s.regWrite x.ident (a.pa - windowBase) a.size (leNat b) (x.mode == .u)).2.setHart h { x with io := none, pc := x.pc + BitVec.ofNat 64 a.len })) ∧
  (∀ (s : State) (h : Fin 216) (x : Hart) (a : IoAccess), s.hart h = x → x.io = some a → s.paKind a.pa = .window → x.quiet → a.write = none → (s.regRead x.ident (a.pa - windowBase) a.size (x.mode == .u)).1 = none → (s.regRead x.ident (a.pa - windowBase) a.size (x.mode == .u)).2.hart h = x → x.mode = .m ∨ bitAt (x.rc Csr.medeleg).toNat 5 = false → x.excTrig 5 = none → 
      Completes (.regDone h) s (fun t =>
        x.tookM (t.hart h) 5 a.va ∧ (t.hart h).io = none)) ∧
  (∀ (s : State) (h : Fin 216) (x : Hart) (a : IoAccess) (b : List Byte), s.hart h = x → x.io = some a → s.paKind a.pa = .window → x.quiet → a.write = some b → (s.regWrite x.ident (a.pa - windowBase) a.size (leNat b) (x.mode == .u)).1 = false → (s.regWrite x.ident (a.pa - windowBase) a.size (leNat b) (x.mode == .u)).2.hart h = x → x.mode = .m ∨ bitAt (x.rc Csr.medeleg).toNat 7 = false → x.excTrig 7 = none → 
      Completes (.regDone h) s (fun t =>
        x.tookM (t.hart h) 7 a.va ∧ (t.hart h).io = none))

/-- An edge source with an occurrence due, in mode Edge1 at its owner APLIC, becomes pending; enabled with delivery on, in world
S, its target's file gets the identity instead; in another mode the pulse is lost, and with no occurrence due there is none.
A level source in mode Level1 whose condition holds becomes pending; without either nothing happens. A claim clears the
pending bit of an edge source and nothing else. The PMC watchdog's timeout enters BUFFER STOP and leaves a type 0x09 record
with code 1 to be logged; a commanded restart closes the update sessions and runs the ROM image exactly if the committed one
fails its check; neither has an effect where no PMC runs, nor a restart that is not due. A sideband address assignment takes
effect. The end of verification leaves READY on success and ends the session otherwise, its result held; 60 s without data
end a session that receives; without a session neither does anything. -/
def Obligations.EventsAndPmcComplete : Prop :=
  (∀ (s : State) (k : Nat) (x : AplicSrc), evtIsLevel k = false → s.wires.contains k = true → (s.aplic (s.evtOwner k)).get k = x → x.sm = 4 → x.en = false → 
      Completes (.event k) s (fun t =>
        t.wires = s.wires.erase k ∧ (t.aplic (s.evtOwner k)).get k = { x with pend := true } ∧ t.imsic = s.imsic ∧ t.regs = s.regs)) ∧
  (∀ (s : State) (k h g id : Nat) (x : AplicSrc), evtIsLevel k = false → s.wires.contains k = true → (s.aplic (s.evtOwner k)).get k = x → x.sm = 4 → x.en = true → s.evtOwner k = .s → s.aplicS.ie = true → bitsOf x.target 31 18 = h → bitsOf x.target 17 12 = g → bitsOf x.target 10 0 = id → h < 216 → g < 8 → 1 ≤ id → s.fenced (nthD clusterStops (h / 6) 0) 2 = false → 
      Completes (.event k) s (fun t =>
        t.wires = s.wires.erase k ∧ (t.aplicS.get k).pend = false ∧ t.imsic = Tab.put false s.imsic (2048 * sFile h g + id) true)) ∧
  (∀ (s : State) (k : Nat) (x : AplicSrc), evtIsLevel k = false → s.wires.contains k = true → (s.aplic (s.evtOwner k)).get k = x → x.sm ≠ 4 → 
      Completes (.event k) s (fun t =>
        t = { s with wires := s.wires.erase k })) ∧
  (∀ (s : State) (k : Nat) (x : AplicSrc), evtIsLevel k = true → s.evtCond k = true → (s.aplic (s.evtOwner k)).get k = x → x.sm = 6 → x.en = false → 
      Completes (.event k) s (fun t =>
        t.wires = s.wires ∧ (t.aplic (s.evtOwner k)).get k = { x with pend := true } ∧ t.imsic = s.imsic)) ∧
  (∀ (s : State) (w : World) (k : Nat), evtIsLevel k = false → 
      Completes (.aplicClaim w k) s (fun t =>
        t = s.setAplic w ((s.aplic w).put k { (s.aplic w).get k with pend := false }))) ∧
  (∀ (s : State), s.pmcRuns = true → 
      Completes (.pmcWatchdogTimeout) s (fun t =>
        t.mode = MD.bufferStop ∧ t.rd Reg.PKG_MODE F.PKG_MODE_CAUSE = 0xA ∧ t.pmc.logWait.getLast? = some (9, [1]) ∧ t.pkg.held.contains .pmc = true)) ∧
  (∀ (s : State), s.pmcRuns = true → s.pmc.restart = true → 
      Completes (.pmcRestart) s (fun t =>
        t.pmc.restart = false ∧ t.pmc.fw = [] ∧ t.pmc.rom = decide (s.imgCheck 1 (s.activeSlot 1) ≠ 0) ∧ t.pmc.req = s.pmc.req ∧ t.mode = s.mode)) ∧
  (∀ (s : State) (a : Fin 128), s.pmcRuns = true → 
      Completes (.dynamicAddressAssignment a) s (fun t =>
        t = { s with pmc := { s.pmc with addr := a } })) ∧
  (∀ (s : State) (kind : Fin 3) (x : FwSess), s.pmcRuns = true → s.fwSess kind = some x → x.state = 2 → 
      Completes (.fwVerifyDone kind) s (fun t =>
        t.fwSess kind = (if s.imgCheck kind (s.otherSlot kind) = 0 then some { x with state := 3 } else none) ∧ Tab.get 0 t.pmc.fwRes kind = s.imgCheck kind (s.otherSlot kind) ∧ t.flash = s.flash)) ∧
  (∀ (s : State) (kind : Fin 3) (x : FwSess), s.pmcRuns = true → s.fwSess kind = some x → x.state = 1 → 
      Completes (.fwReceiveTimeout kind) s (fun t =>
        t.fwSess kind = none ∧ t.flash = s.flash ∧ t.slots = s.slots)) ∧
  (∀ (s : State) (k : Nat), evtIsLevel k = false → s.wires.contains k = false → 
      Completes (.event k) s (fun t =>
        t = s)) ∧
  (∀ (s : State) (k : Nat) (x : AplicSrc), evtIsLevel k = true → (s.aplic (s.evtOwner k)).get k = x → s.evtCond k = false ∨ x.sm ≠ 6 → 
      Completes (.event k) s (fun t =>
        t = s)) ∧
  (∀ (s : State) (w : World) (k : Nat), evtIsLevel k = true → 
      Completes (.aplicClaim w k) s (fun t =>
        t = s)) ∧
  (∀ (s : State), s.pmcRuns = false → 
      Completes (.pmcWatchdogTimeout) s (fun t =>
        t = s)) ∧
  (∀ (s : State), s.pmcRuns = false ∨ s.pmc.restart = false → 
      Completes (.pmcRestart) s (fun t =>
        t = s)) ∧
  (∀ (s : State) (kind : Fin 3), s.fwSess kind = none → 
      Completes (.fwVerifyDone kind) s (fun t =>
        t = s)) ∧
  (∀ (s : State) (kind : Fin 3), s.fwSess kind = none → 
      Completes (.fwReceiveTimeout kind) s (fun t =>
        t = s))

/-- A request that the running PMC holds for a source which may send it, in an accepting mode and of the right shape, no order
of the source under way, is served as the table of management commands says and answered OK with the payload given:
GET_INFO, READ_SENSORS of sensors that exist, READ_RAILS and OPTION_READ return what they name (the version of the ROM image
is a free value); SET_LIMITS sets a sensor's thresholds; TRIP_CLEAR clears VALID and MORE and logs; LOG_READ returns the
good records; LOG_CLEAR empties the log and keeps SEQ; OPTION_WRITE of a valid record with the mask in force writes a valid
record, SEQ one higher, to the copy not in force; DEBUG_SET writes ISO_DBG[3:0]. MODE_ORDER and POWER_REQ become orders of
their source's rank and stay held; RESET answers and resets with its cause. A payload out of its range is answered
BAD_REQUEST and does nothing else, as is an OPTION_WRITE of another mask outside WORKSHOP with NOT_IN_MODE. (The widths of
payload fields are the choice of log entry 26.) -/
def Obligations.ManagementCommandsComplete : Prop :=
  (∀ (s : State) (src : MgmtSrc) (q b : List Byte), s.mgmtServes src 0x01 q b → s.pmc.rom = false → 
      Completes (.getInfo src none) s (fun t =>
        t = State.mgmtReply (s) (mgmtNum src) 0 ([Reg.PKG_ID, Reg.PKG_REV, Reg.PKG_MODE, Reg.PKG_BOOT, Reg.PMC_TRIP].flatMap s.regBytes ++ [1, 2].flatMap (fun k => leBytes 4 (Tab.get (0, 0) s.pmc.inForce k).1 ++ leBytes 4 (Tab.get (0, 0) s.pmc.inForce k).2) ++ leBytes 8 s.slots ++ fitB 48 Config.fusedKeyHash))) ∧
  (∀ (s : State) (src : MgmtSrc) (q b : List Byte), s.mgmtServes src 0x02 q b → leAt b 1 1 ≠ 0 → leAt b 0 1 + leAt b 1 1 ≤ 148 → 
      Completes (.readSensors src none) s (fun t =>
        t = State.mgmtReply (s) (mgmtNum src) 0 ((List.range (leAt b 1 1)).flatMap (fun i => s.sensorBytes (leAt b 0 1 + i))))) ∧
  (∀ (s : State) (src : MgmtSrc) (q b : List Byte) (rails : List (Nat × Nat)), s.mgmtServes src 0x03 q b → 
      Completes (.readRails src none rails) s (fun t =>
        t = State.mgmtReply (s) (mgmtNum src) 0 ((List.range 19).flatMap (fun i => leBytes 2 (nthD rails i (0, 0)).1 ++ leBytes 4 (nthD rails i (0, 0)).2) ++ (List.range 12).map (fun d => BitVec.ofNat 8 (s.rd (Reg.PWR_DIE d) F.PWR_DIE_MEASURED))))) ∧
  (∀ (s : State) (src : MgmtSrc) (q b : List Byte), s.mgmtServes src 0x04 q b → leAt b 0 1 < 148 → 
      Completes (.setLimits src none) s (fun t =>
        t = State.mgmtReply ({ s with pmc := { s.pmc with limits := Tab.put (1760, -720) s.pmc.limits (leAt b 0 1) (toSigned 16 (leAt b 1 2), toSigned 16 (leAt b 3 2)) } }) (mgmtNum src) 0 ([]))) ∧
  (∀ (s : State) (src : MgmtSrc) (q b : List Byte), s.mgmtServes src 0x05 q b → 
      Completes (.tripClear src none) s (fun t =>
        t.rd Reg.PMC_TRIP F.PMC_TRIP_VALID = 0 ∧ t.rd Reg.PMC_TRIP F.PMC_TRIP_MORE = 0 ∧ t.rd Reg.PMC_TRIP F.PMC_TRIP_SENSOR = s.rd Reg.PMC_TRIP F.PMC_TRIP_SENSOR ∧ t.pmc.logSeq = (s.pmc.logSeq + 1) % 2 ^ 32 ∧ Tab.look t.pmc.req (mgmtNum src) = none)) ∧
  (∀ (s : State) (src : MgmtSrc) (q b : List Byte), s.mgmtServes src 0x10 q b → leAt b 0 1 ≤ MD.bufferStop → 
      Completes (.modeOrder src none) s (fun t =>
        t.pkg.orders = s.pkg.orders ++ [⟨mgmtCode (mgmtNum src), s.mgmtWho src, leAt b 0 1⟩] ∧ t.pmc = s.pmc ∧ t.out = s.out)) ∧
  (∀ (s : State) (src : MgmtSrc) (q b : List Byte), s.mgmtServes src 0x11 q b → bitsOf (leAt b 0 8) 63 56 = 0 → bitsOf (leAt b 0 8) 47 47 = 0 → bitsOf (leAt b 0 8) 39 16 = 0 → (s.mgmtWho src).world = .s → powerOk (bitsOf (leAt b 0 8) 55 48) (bitsOf (leAt b 0 8) 46 40) (bitsOf (leAt b 0 8) 15 0) = true → 
      Completes (.powerReq src none) s (fun t =>
        t.pkg.powers = s.pkg.powers ++ [⟨mgmtCode (mgmtNum src), s.mgmtWho src, bitsOf (leAt b 0 8) 55 48, bitsOf (leAt b 0 8) 46 40, bitsOf (leAt b 0 8) 15 0⟩] ∧ t.pmc = s.pmc ∧ t.out = s.out)) ∧
  (∀ (s : State) (src : MgmtSrc) (q b : List Byte), s.mgmtServes src 0x12 q b → s.pkg.rstWait = none → 
      Completes (.reset src none false) s (fun t =>
        t.mode = MD.dawn ∧ t.rd Reg.RCC_RST_CAUSE F.RCC_RST_CAUSE_SIDEBAND = 1 ∧ t.out = s.out ++ [.sidebandReply (mgmtResponse q 0 [])])) ∧
  (∀ (s : State) (src : MgmtSrc) (q b : List Byte), s.mgmtServes src 0x20 q b → 1 ≤ leAt b 4 1 → leAt b 4 1 ≤ 63 → 
      Completes (.logRead src none) s (fun t =>
        t = State.mgmtReply (s) (mgmtNum src) 0 ((List.range (leAt b 4 1)).flatMap (fun i => (s.logRecord (leAt b 0 4 + i)).getD [])))) ∧
  (∀ (s : State) (src : MgmtSrc) (q b : List Byte), s.mgmtServes src 0x21 q b → 
      Completes (.logClear src none) s (fun t =>
        (∀ o, Tab.get 0 t.mram o = if o < 0x2000 then Tab.get 0 s.mram o else 0) ∧ t.pmc.logSeq = s.pmc.logSeq ∧ Tab.look t.pmc.req (mgmtNum src) = none)) ∧
  (∀ (s : State) (src : MgmtSrc) (q b : List Byte), s.mgmtServes src 0x30 q b → 
      Completes (.optionRead src none) s (fun t =>
        t = State.mgmtReply (s) (mgmtNum src) 0 ((List.range 16).flatMap (fun i => s.regBytes (Reg.RCC_OPT i)) ++ s.regBytes Reg.RCC_OPT_STATUS))) ∧
  (∀ (s : State) (src : MgmtSrc) (q b : List Byte), s.mgmtServes src 0x31 q b → optValid b = true → leAt b 10 2 = leAt s.optInForce 10 2 ∨ s.mode = MD.workshop → 
      Completes (.optionWrite src none) s (fun t =>
        optValid (t.mramAt (if s.rd Reg.RCC_OPT_STATUS F.RCC_OPT_STATUS_SOURCE = 1 then 0x80 else 0) 128) = true ∧ leAt (t.mramAt (if s.rd Reg.RCC_OPT_STATUS F.RCC_OPT_STATUS_SOURCE = 1 then 0x80 else 0) 128) 4 4 = (s.rd Reg.RCC_OPT_STATUS F.RCC_OPT_STATUS_SEQ + 1) % 2 ^ 32 ∧ sliceB (t.mramAt (if s.rd Reg.RCC_OPT_STATUS F.RCC_OPT_STATUS_SOURCE = 1 then 0x80 else 0) 128) 8 116 = sliceB b 8 116 ∧ t.pmc.logSeq = (s.pmc.logSeq + 1) % 2 ^ 32 ∧ Tab.look t.pmc.req (mgmtNum src) = none)) ∧
  (∀ (s : State) (src : MgmtSrc) (q b : List Byte), s.mgmtServes src 0x50 q b → leAt b 0 1 < 16 → 
      Completes (.debugSet src none) s (fun t =>
        t = State.mgmtReply (s.wr Reg.ISO_DBG ⟨3, 0⟩ (leAt b 0 1)) (mgmtNum src) 0 ([]))) ∧
  (∀ (s : State) (src : MgmtSrc) (q b : List Byte), s.mgmtServes src 0x01 q b → s.pmc.rom = true → 
      Completes (.getInfo src none) s (fun t =>
        ∃ v w, t = State.mgmtReply ({ s with free := s.free + 2 }) (mgmtNum src) 0 ([Reg.PKG_ID, Reg.PKG_REV, Reg.PKG_MODE, Reg.PKG_BOOT, Reg.PMC_TRIP].flatMap s.regBytes ++ leBytes 4 v ++ leBytes 4 w ++ leBytes 4 (Tab.get (0, 0) s.pmc.inForce 2).1 ++ leBytes 4 (Tab.get (0, 0) s.pmc.inForce 2).2 ++ leBytes 8 s.slots ++ fitB 48 Config.fusedKeyHash))) ∧
  (∀ (s : State) (src : MgmtSrc) (q b : List Byte), s.mgmtServes src 0x02 q b → leAt b 1 1 = 0 ∨ 148 < leAt b 0 1 + leAt b 1 1 → 
      Completes (.readSensors src none) s (fun t =>
        t = s.mgmtReply (mgmtNum src) 2 [])) ∧
  (∀ (s : State) (src : MgmtSrc) (q b : List Byte), s.mgmtServes src 0x04 q b → 148 ≤ leAt b 0 1 → 
      Completes (.setLimits src none) s (fun t =>
        t = s.mgmtReply (mgmtNum src) 2 [])) ∧
  (∀ (s : State) (src : MgmtSrc) (q b : List Byte), s.mgmtServes src 0x10 q b → MD.bufferStop < leAt b 0 1 → 
      Completes (.modeOrder src none) s (fun t =>
        t = s.mgmtReply (mgmtNum src) 2 [])) ∧
  (∀ (s : State) (src : MgmtSrc) (q b : List Byte), s.mgmtServes src 0x11 q b → bitsOf (leAt b 0 8) 63 56 ≠ 0 ∨ bitsOf (leAt b 0 8) 47 47 ≠ 0 ∨ bitsOf (leAt b 0 8) 39 16 ≠ 0 → 
      Completes (.powerReq src none) s (fun t =>
        t = s.mgmtReply (mgmtNum src) 2 [])) ∧
  (∀ (s : State) (src : MgmtSrc) (q b : List Byte), s.mgmtServes src 0x20 q b → leAt b 4 1 = 0 ∨ 63 < leAt b 4 1 → 
      Completes (.logRead src none) s (fun t =>
        t = s.mgmtReply (mgmtNum src) 2 [])) ∧
  (∀ (s : State) (src : MgmtSrc) (q b : List Byte), s.mgmtServes src 0x31 q b → optValid b = false → 
      Completes (.optionWrite src none) s (fun t =>
        t = s.mgmtReply (mgmtNum src) 2 [])) ∧
  (∀ (s : State) (src : MgmtSrc) (q b : List Byte), s.mgmtServes src 0x31 q b → optValid b = true → leAt b 10 2 ≠ leAt s.optInForce 10 2 → s.mode ≠ MD.workshop → 
      Completes (.optionWrite src none) s (fun t =>
        t = s.mgmtReply (mgmtNum src) 4 [])) ∧
  (∀ (s : State) (src : MgmtSrc) (q b : List Byte), s.mgmtServes src 0x50 q b → 16 ≤ leAt b 0 1 → 
      Completes (.debugSet src none) s (fun t =>
        t = s.mgmtReply (mgmtNum src) 2 []))

/-- Of a request the PMC serves: FW_BEGIN of a kind with no session and an allowed size opens a session of the source in
RECEIVING with nothing received and marks the other slot not previous; any other is BAD_REQUEST, or BUSY while the kind has
a session. FW_DATA at the next offset, within the total, the flash working, puts its bytes at their place of the inactive
slot, counts them, and goes to VERIFYING with the last; out of order it is BAD_REQUEST and writes nothing, and a failing
flash is answered with status 7. FW_COMMIT of a verified session makes the inactive slot active and the old one previous and
closes the session; outside SIDING a PMC image is then due its restart, and in SIDING the package restarts with COUNT 0,
once no sensor reads 115 degrees or more. FW_ROLLBACK of the source's own session closes it, of another's it is BUSY; with
no session it makes the previous slot active exactly if it is valid and passes its check. FW_STATUS reports both kinds.
FW_DATA and FW_COMMIT without a session of the source in the state they need are answered BUSY while one is open and
BAD_REQUEST otherwise (the choice of log entry 28). -/
def Obligations.FirmwareUpdateCompletes : Prop :=
  (∀ (s : State) (src : MgmtSrc) (q b : List Byte) (k : Nat), s.mgmtServes src 0x40 q b → leAt b 0 1 = k → k = 1 ∨ k = 2 → leAt b 1 3 = 0 → 8193 ≤ leAt b 4 4 → leAt b 4 4 ≤ 8192 + maxBody k → s.fwSess k = none → 
      Completes (.fwBegin src none) s (fun t =>
        t.fwSess k = some ⟨mgmtNum src, leAt b 4 4, 0, 1⟩ ∧ bitAt t.slots (8 * (k - 1) + 1) = false ∧ t.activeSlot k = s.activeSlot k ∧ t.flash = s.flash ∧ Tab.look t.pmc.req (mgmtNum src) = none)) ∧
  (∀ (s : State) (src : MgmtSrc) (q b : List Byte) (k n : Nat) (x : FwSess), s.mgmtServes src 0x41 q b → s.fwKind (mgmtNum src) 1 = some k → s.fwSess k = some x → leAt b 0 4 = x.got → b.length = n + 4 → x.got + n ≤ x.total → x.total ≤ 8192 + maxBody k → 
      Completes (.fwData src none false) s (fun t =>
        t.fwSess k = some { x with got := x.got + n, state := if x.got + n = x.total then 2 else 1 } ∧ t.flashAt (slotBase k (s.otherSlot k) + x.got) n = b.drop 4 ∧ Tab.look t.pmc.req (mgmtNum src) = none)) ∧
  (∀ (s : State) (src : MgmtSrc) (q b : List Byte) (k : Nat) (x : FwSess) (bad : Bool), s.mgmtServes src 0x41 q b → s.fwKind (mgmtNum src) 1 = some k → s.fwSess k = some x → leAt b 0 4 ≠ x.got → 
      Completes (.fwData src none bad) s (fun t =>
        t = State.mgmtReply (s) (mgmtNum src) 2 ([]))) ∧
  (∀ (s : State) (src : MgmtSrc) (q b : List Byte) (k : Nat), s.mgmtServes src 0x42 q b → s.fwKind (mgmtNum src) 3 = some k → s.mode ≠ MD.siding → 
      Completes (.fwCommit src none) s (fun t =>
        t.activeSlot k = s.otherSlot k ∧ bitAt t.slots (8 * (k - 1) + 1) = true ∧ t.fwSess k = none ∧ (k = 1 → t.pmc.restart = true) ∧ t.flash = s.flash ∧ Tab.look t.pmc.req (mgmtNum src) = none)) ∧
  (∀ (s : State) (src : MgmtSrc) (q b : List Byte) (k : Nat) (x : FwSess), s.mgmtServes src 0x43 q b → leAt b 0 1 = k → k = 1 ∨ k = 2 → s.fwSess k = some x → x.src = mgmtNum src → 
      Completes (.fwRollback src none) s (fun t =>
        t.fwSess k = none ∧ t.slots = s.slots ∧ t.flash = s.flash ∧ Tab.look t.pmc.req (mgmtNum src) = none)) ∧
  (∀ (s : State) (src : MgmtSrc) (q b : List Byte) (k : Nat), s.mgmtServes src 0x43 q b → leAt b 0 1 = k → k = 1 ∨ k = 2 → s.fwSess k = none → 
      Completes (.fwRollback src none) s (fun t =>
        t.activeSlot k = (if bitAt s.slots (8 * (k - 1) + 1) = true ∧ s.imgCheck k (s.otherSlot k) = 0 then s.otherSlot k else s.activeSlot k) ∧ t.flash = s.flash ∧ Tab.look t.pmc.req (mgmtNum src) = none)) ∧
  (∀ (s : State) (src : MgmtSrc) (q b : List Byte), s.mgmtServes src 0x44 q b → 
      Completes (.fwStatus src none) s (fun t =>
        t = State.mgmtReply (s) (mgmtNum src) 0 ([1, 2].flatMap (fun k => leBytes 1 (((s.fwSess k).map (·.state)).getD 0) ++ leBytes 1 k ++ leBytes 4 (((s.fwSess k).map (·.got)).getD 0) ++ leBytes 1 (Tab.get 0 s.pmc.fwRes k))))) ∧
  (∀ (s : State) (src : MgmtSrc) (q b : List Byte), s.mgmtServes src 0x40 q b → (leAt b 0 1 ≠ 1 ∧ leAt b 0 1 ≠ 2) ∨ leAt b 1 3 ≠ 0 ∨ leAt b 4 4 < 8193 ∨ 8192 + maxBody (leAt b 0 1) < leAt b 4 4 → 
      Completes (.fwBegin src none) s (fun t =>
        t = s.mgmtReply (mgmtNum src) 2 [])) ∧
  (∀ (s : State) (src : MgmtSrc) (q b : List Byte) (k : Nat), s.mgmtServes src 0x40 q b → leAt b 0 1 = k → k = 1 ∨ k = 2 → leAt b 1 3 = 0 → 8193 ≤ leAt b 4 4 → leAt b 4 4 ≤ 8192 + maxBody k → s.fwSess k ≠ none → 
      Completes (.fwBegin src none) s (fun t =>
        t = s.mgmtReply (mgmtNum src) 3 [])) ∧
  (∀ (s : State) (src : MgmtSrc) (q b : List Byte) (k : Nat) (x : FwSess), s.mgmtServes src 0x41 q b → s.fwKind (mgmtNum src) 1 = some k → s.fwSess k = some x → leAt b 0 4 = x.got → x.got + (b.drop 4).length ≤ x.total → 
      Completes (.fwData src none true) s (fun t =>
        t = s.mgmtReply (mgmtNum src) 7 [])) ∧
  (∀ (s : State) (src : MgmtSrc) (q b : List Byte) (bad : Bool), s.mgmtServes src 0x41 q b → s.fwKind (mgmtNum src) 1 = none → 
      Completes (.fwData src none bad) s (fun t =>
        t = s.mgmtReply (mgmtNum src) (if (s.fwSess 1).isSome || (s.fwSess 2).isSome then 3 else 2) [])) ∧
  (∀ (s : State) (src : MgmtSrc) (q b : List Byte), s.mgmtServes src 0x42 q b → s.fwKind (mgmtNum src) 3 = none → 
      Completes (.fwCommit src none) s (fun t =>
        t = s.mgmtReply (mgmtNum src) (if (s.fwSess 1).isSome || (s.fwSess 2).isSome then 3 else 2) [])) ∧
  (∀ (s : State) (src : MgmtSrc) (q b : List Byte) (k : Nat), s.mgmtServes src 0x42 q b → s.fwKind (mgmtNum src) 3 = some k → s.mode = MD.siding → s.anyAt allSensors 115 = false → 
      Completes (.fwCommit src none) s (fun t =>
        t.mode = MD.dawn ∧ t.activeSlot k = s.otherSlot k ∧ t.rd Reg.PKG_BOOT F.PKG_BOOT_COUNT = 0 ∧ t.flash = s.flash)) ∧
  (∀ (s : State) (src : MgmtSrc) (q b : List Byte) (k : Nat), s.mgmtServes src 0x42 q b → s.fwKind (mgmtNum src) 3 = some k → s.mode = MD.siding → s.anyAt allSensors 115 = true → 
      Completes (.fwCommit src none) s (fun t =>
        t.mode = MD.siding ∧ t.pkg.restartDue = true ∧ t.activeSlot k = s.otherSlot k ∧ t.rd Reg.PKG_BOOT F.PKG_BOOT_COUNT = 0 ∧ t.flash = s.flash)) ∧
  (∀ (s : State) (src : MgmtSrc) (q b : List Byte), s.mgmtServes src 0x43 q b → leAt b 0 1 ≠ 1 → leAt b 0 1 ≠ 2 → 
      Completes (.fwRollback src none) s (fun t =>
        t = s.mgmtReply (mgmtNum src) 2 [])) ∧
  (∀ (s : State) (src : MgmtSrc) (q b : List Byte) (k : Nat) (x : FwSess), s.mgmtServes src 0x43 q b → leAt b 0 1 = k → k = 1 ∨ k = 2 → s.fwSess k = some x → x.src ≠ mgmtNum src → 
      Completes (.fwRollback src none) s (fun t =>
        t = s.mgmtReply (mgmtNum src) 3 []))

/-- For each of the 18 management commands and a held request of it, no order of its source under way: from a source
that may not send it, it is answered DENIED; else in a mode that does not accept it NOT_IN_MODE; else with a header or
length that is not right BAD_REQUEST (the order of these checks is the choice of log entry 26). In each case the
answer and the release of the request are all that changes. A request that arrives on the sideband is served as if it
had been held; one that meets a held request is answered BUSY. While the PMC does not run, no request is served. -/
def Obligations.ManagementChecks : Prop :=
  (∀ (s : State) (src : MgmtSrc) (rails : List (Nat × Nat)) (flag : Bool) (e : Nat × Instr) (q : List Byte),
    mgmtCommand src none rails flag e → Tab.look s.pmc.req (mgmtNum src) = some q → leAt q 0 1 = e.1 → s.pmcRuns = true →
    s.orderHeld (mgmtNum src) = false →
    (mgmtMay e.1 src = false → exec e.2 s = .next (s.mgmtReply (mgmtNum src) 1 [])) ∧
    (mgmtMay e.1 src = true → s.mgmtNotInMode e.1 (q.drop 16) = true → exec e.2 s = .next (s.mgmtReply (mgmtNum src) 4 [])) ∧
    (mgmtMay e.1 src = true → s.mgmtNotInMode e.1 (q.drop 16) = false → mgmtShape e.1 q = false →
      exec e.2 s = .next (s.mgmtReply (mgmtNum src) 2 []))) ∧
  (∀ (s : State) (src : MgmtSrc) (m : Option (List Byte)) (rails : List (Nat × Nat)) (flag : Bool) (e : Nat × Instr),
    mgmtCommand src m rails flag e → s.pmcRuns = false → exec e.2 s = .next s) ∧
  (∀ (s : State) (rails : List (Nat × Nat)) (flag : Bool) (e d : Nat × Instr) (q : List Byte),
    mgmtCommand .sideband (some q) rails flag e → mgmtCommand .sideband none rails flag d → d.1 = e.1 → s.pmcRuns = true →
    (Tab.look s.pmc.req 2 = none → exec e.2 s = exec d.2 (s.mgmtRequest 2 q)) ∧
    (∀ r, Tab.look s.pmc.req 2 = some r → mgmtCodes.contains (leAt q 0 1) = true →
      exec e.2 s = .next (s.send (.sidebandReply (mgmtResponse q 3 [])))))

/-- The answer to a held request is its header with STATUS, LENGTH of the payload and TAG copied, the rest of the
header zero, then the payload. For a mailbox set it fills the response buffer, with zeros after it, STATE becomes 0b10
with the length, and source 388 (set 1) or 389 (set 0) is raised; on the sideband it is sent; for a Finxis host it is
queued as a MGMT packet. The request is let go and no other register, no memory and no other request changes. -/
def Obligations.ManagementAnswers : Prop :=
  (∀ (s : State) (n code : Nat) (q b r : List Byte), Tab.look s.pmc.req n = some q → mgmtResponse q code b = r →
    (n < 2 →
      (∀ i : Fin 512, (s.mgmtReply n code b).rdW (Reg.MBX_RSP n i) = BitVec.ofNat 64 (leAt r (8 * i) 8)) ∧
      (s.mgmtReply n code b).rd (Reg.MBX_STATUS n) F.MBX_STATUS_STATE = 2 ∧
      (r.length < 2 ^ 16 → (s.mgmtReply n code b).rd (Reg.MBX_STATUS n) F.MBX_STATUS_LENGTH = r.length % 2 ^ 13) ∧
      (s.mgmtReply n code b).wires = s.wires ++ [if n = 1 then 388 else 389]) ∧
    (n = 2 → (s.mgmtReply n code b).out = s.out ++ [.sidebandReply r] ∧ (s.mgmtReply n code b).regs = s.regs) ∧
    (2 < n → s.mgmtReply n code b = ({ s with pmc := { s.pmc with req := Tab.del s.pmc.req n } }).fxQueue (n - 3)
      { FxPkt.blank with type := 0x31, payload := r }) ∧
    Tab.look (s.mgmtReply n code b).pmc.req n = none ∧
    (∀ k, k ≠ n → Tab.look (s.mgmtReply n code b).pmc.req k = Tab.look s.pmc.req k) ∧
    (s.mgmtReply n code b).mem = s.mem ∧ (s.mgmtReply n code b).mram = s.mram) ∧
  (∀ (q b : List Byte) (code : Nat), 8 ≤ q.length → code < 256 → b.length < 2 ^ 16 →
    leAt (mgmtResponse q code b) 0 1 = leAt q 0 1 ∧ leAt (mgmtResponse q code b) 1 1 = code ∧
    leAt (mgmtResponse q code b) 2 2 = b.length ∧ leAt (mgmtResponse q code b) 4 4 = leAt q 4 4 ∧
    leAt (mgmtResponse q code b) 8 8 = 0 ∧ (mgmtResponse q code b).drop 16 = b)

/-- The word of each of the six custom instructions, at every value of its operands, lies under the opcode 0b0001011, has the
fields of its row of the table and is read back as that instruction, and every word read as a custom instruction is its word: no field that the table shows as zero
may be set. Executed on a hart, the word of a custom instruction does what the instruction does, and every other word under
the opcode raises an illegal-instruction exception with its bits. -/
def Obligations.CustomEncodings : Prop :=
  (∀ c : Custom, bitsOf (customWord c) 6 0 = 0b0001011 ∧ bitsOf (customWord c) 11 7 = 0 ∧ customOf (customWord c) = some c ∧
    (bitsOf (customWord c) 14 12, bitsOf (customWord c) 19 15, bitsOf (customWord c) 24 20, bitsOf (customWord c) 31 25) =
      match c with
      | .clean rs1 rs2 => (0b000, rs1.val, rs2.val, 0b0000000)
      | .flush rs1 rs2 => (0b000, rs1.val, rs2.val, 0b0000001)
      | .tflush rs1 rs2 => (0b000, rs1.val, rs2.val, 0b0001000)
      | .gtflush rs1 rs2 => (0b000, rs1.val, rs2.val, 0b0001001)
      | .gate i => (0b001, 0b00000, i.val % 32, i.val / 32)
      | .ret => (0b010, 0b00000, 0b00000, 0b0000000)) ∧
  (∀ (w : Nat) (c : Custom), customOf w = some c → w = customWord c) ∧
  (∀ (s : State) (h : Fin 216) (c : Custom), exec (.unimplementedInstruction h (customWord c)) s =
    match c with
    | .clean rs1 rs2 => exec (.hscClean h rs1 rs2) s
    | .flush rs1 rs2 => exec (.hscFlush h rs1 rs2) s
    | .tflush rs1 rs2 => exec (.hscTflush h rs1 rs2) s
    | .gtflush rs1 rs2 => exec (.hscGtflush h rs1 rs2) s
    | .gate i => exec (.hswGate h i) s
    | .ret => exec (.hswRet h) s) ∧
  (∀ (s : State) (h : Fin 216) (w : Nat), bitsOf w 6 0 = 0b0001011 → (∀ c : Custom, w ≠ customWord c) →
    exec (.unimplementedInstruction h w) s = .next (s.instr h (fun s => s.except h Exc.illegal w)))

/-- A die of orientation code 0 to 3 has the routings of its row: the clusters C(3·d), C(3·d + 1) and C(3·d + 2) on ports A, B
and C with code 0 or 2 and the other way round with code 1 or 3, the sense pair of its code's number, and its test chain in
reverse with an odd code. The three ports of a die with latched straps have three different clusters of it, port B that of
k = 1. For CD7, latched as the worked example has it, port B has C22 and the sense pair is SNS2. -/
def Obligations.OrientationRoutings : Prop :=
  (∀ (s : State) (d : Nat) (x : DieSite), Tab.get none s.pkg.dies d = some x → x.orientation < 4 →
    s.routing d = some (if x.orientation % 2 = 0 then ⟨0, 1, 2, x.orientation, false⟩ else ⟨2, 1, 0, x.orientation, true⟩) ∧
    (s.portCluster d 0).map Prod.fst = some (3 * d + (if x.orientation % 2 = 0 then 0 else 2)) ∧
    (s.portCluster d 1).map Prod.fst = some (3 * d + 1) ∧
    (s.portCluster d 2).map Prod.fst = some (3 * d + (if x.orientation % 2 = 0 then 2 else 0))) ∧
  (∀ (s : State) (x : DieSite), Tab.get none s.pkg.dies 7 = some x → x.orientation = 2 →
    s.portCluster 7 1 = some (22, nthD clusterStops 22 0) ∧ (s.routing 7).map (·.sense) = some 2)

/-- A transmit setting of a port group is applied at no more than its cap, 1,000 mV for the groups of PCIe and CXL and 900 mV
for those of Finxis, −6 dB and −12 dB for the two equalisations; a setting within every cap is applied as it is written; and
what is applied, written again, is applied unchanged. (That an equalisation is above its cap when it is the more negative is
the reading of log entry 107.) -/
def Obligations.TransmitCaps : Prop :=
  ∀ (g : Nat) (x : TxSetting),
    (g ≤ 6 → (txApplied g x).swing ≤ 1000) ∧ (g = 7 ∨ g = 8 → (txApplied g x).swing ≤ 900) ∧
    -6 ≤ (txApplied g x).pre ∧ -12 ≤ (txApplied g x).post ∧
    (x.swing ≤ (if g ≤ 6 then 1000 else 900) → (txApplied g x).swing = x.swing) ∧
    (-6 ≤ x.pre → (txApplied g x).pre = x.pre) ∧ (-12 ≤ x.post → (txApplied g x).post = x.post) ∧
    txApplied g (txApplied g x) = txApplied g x

end
end

