-- ==== Sys2Proof/Laws/Frame/Base.lean ====
section
/-! SUPPORT. What folds, choices and steps that may stop keep of the state. -/

set_option Elab.async false
set_option linter.all false

namespace Sys2Proof.Machine
open Sys2Proof

/-- A lemma as simp is given it here, `kept @lemma`: given the bare name of a lemma with many conjuncts, simp declares a lemma
for each conjunct in every proof. -/
theorem kept {p : Prop} (h : p) : p := h

theorem foldl_keeps {α β : Type} (g : State → β) (f : State → α → State) (h : ∀ s a, g (f s a) = g s) (l : List α) (s : State) :
    g (l.foldl f s) = g s := by
  induction l generalizing s with
  | nil => rfl
  | cons a t ih => simp [List.foldl, ih, h]

/-- A step that may stop keeps what `g` shows of the state. -/
def KeepsM {ε α β : Type} (g : State → β) (x : ExceptT ε (StateM State) α) : Prop := ∀ s, g (x s).2 = g s

theorem keepsM_bind {ε α γ β : Type} {g : State → β} {x : ExceptT ε (StateM State) α} {y : α → ExceptT ε (StateM State) γ}
    (hx : KeepsM g x) (hy : ∀ a, KeepsM g (y a)) : KeepsM g (x >>= y) := by
  intro s
  have h := hx s
  show g ((ExceptT.bindCont y (x s).1) (x s).2).2 = g s
  rcases hxs : x s with ⟨r, s1⟩
  rw [hxs] at h
  cases r with
  | error e => exact h
  | ok a => exact (hy a s1).trans h

@[simp] theorem keepsM_pure {ε α β : Type} (g : State → β) (a : α) : KeepsM g (pure a : ExceptT ε (StateM State) α) := fun _ => rfl

@[simp] theorem keepsM_throw {ε α β : Type} (g : State → β) (e : ε) : KeepsM g (throw e : ExceptT ε (StateM State) α) := fun _ => rfl

@[simp] theorem keepsM_get {ε β : Type} (g : State → β) : KeepsM g (get : ExceptT ε (StateM State) State) := fun _ => rfl

theorem askSt_keeps {ε α β : Type} {g : State → β} (f : State → α × State) (h : ∀ s, g (f s).2 = g s) :
    KeepsM g (askSt f : ExceptT ε (StateM State) α) := fun s => h s

theorem keepsM_forM {ε α β : Type} {g : State → β} {f : α → ExceptT ε (StateM State) PUnit} (h : ∀ a, KeepsM g (f a)) (l : List α) :
    KeepsM g (l.forM f) := by
  induction l with
  | nil => exact keepsM_pure g _
  | cons a t ih => exact keepsM_bind (h a) (fun _ => ih)

theorem keepsM_foldlM {ε α γ β : Type} {g : State → β} {f : γ → α → ExceptT ε (StateM State) γ} (h : ∀ c a, KeepsM g (f c a))
    (l : List α) (c : γ) : KeepsM g (l.foldlM f c) := by
  induction l generalizing c with
  | nil => exact keepsM_pure g _
  | cons a t ih => exact keepsM_bind (h c a) (fun c => ih c)

theorem keepsM_mapM {ε α γ β : Type} {g : State → β} {f : α → ExceptT ε (StateM State) γ} (h : ∀ a, KeepsM g (f a)) (l : List α) :
    KeepsM g (l.mapM f) := by
  rw [← List.mapM'_eq_mapM]
  induction l with
  | nil => exact keepsM_pure g _
  | cons a t ih => exact keepsM_bind (h a) (fun _ => keepsM_bind ih (fun _ => keepsM_pure g _))

/-- The state a step leaves. -/
theorem KeepsM.snd {ε α β : Type} {g : State → β} {x : ExceptT ε (StateM State) α} (h : KeepsM g x) {s : State} {r : Except ε α × State}
    (e : x s = r) : g r.2 = g s := by rw [← e]; exact h s

/-- The parts of the state that no step of an engine or of an encoder touches. -/
def State.beside (s : State) := (s.pending, s.flash, s.coldOpt, s.imsic, s.fx, s.ctu, s.links, s.aplicS, s.aplicN, s.credits, s.pkts, s.resp, s.out, s.fabric, s.files)

@[simp] theorem State.beside_eq (s u : State) : s.beside = u.beside ↔ s.pending = u.pending ∧ s.flash = u.flash ∧ s.coldOpt = u.coldOpt ∧ s.imsic = u.imsic ∧ s.fx = u.fx ∧ s.ctu = u.ctu ∧ s.links = u.links ∧ s.aplicS = u.aplicS ∧ s.aplicN = u.aplicN ∧ s.credits = u.credits ∧ s.pkts = u.pkts ∧ s.resp = u.resp ∧ s.out = u.out ∧ s.fabric = u.fabric ∧ s.files = u.files := by simp [State.beside]

/-- The parts of the state that a step of an engine that only touches its own task leaves. -/
def State.apart (s : State) := (s.mem, s.harts, s.dm, s.clusters, s.homes, s.dmg, s.net, s.dbInval, s.watch)

@[simp] theorem State.apart_eq (s u : State) : s.apart = u.apart ↔ s.mem = u.mem ∧ s.harts = u.harts ∧ s.dm = u.dm ∧ s.clusters = u.clusters ∧ s.homes = u.homes ∧ s.dmg = u.dmg ∧ s.net = u.net ∧ s.dbInval = u.dbInval ∧ s.watch = u.watch := by simp [State.apart]

@[simp] theorem KeepsM.mem {ε α : Type} {x : ExceptT ε (StateM State) α} (h : KeepsM State.apart x) : KeepsM State.mem x := fun s => by
  have h := h s
  simp only [State.apart_eq] at h
  simp only [h]

@[simp] theorem KeepsM.harts {ε α : Type} {x : ExceptT ε (StateM State) α} (h : KeepsM State.apart x) : KeepsM State.harts x := fun s => by
  have h := h s
  simp only [State.apart_eq] at h
  simp only [h]

@[simp] theorem KeepsM.dm {ε α : Type} {x : ExceptT ε (StateM State) α} (h : KeepsM State.apart x) : KeepsM State.dm x := fun s => by
  have h := h s
  simp only [State.apart_eq] at h
  simp only [h]

@[simp] theorem KeepsM.clusters {ε α : Type} {x : ExceptT ε (StateM State) α} (h : KeepsM State.apart x) : KeepsM State.clusters x := fun s => by
  have h := h s
  simp only [State.apart_eq] at h
  simp only [h]

@[simp] theorem KeepsM.homes {ε α : Type} {x : ExceptT ε (StateM State) α} (h : KeepsM State.apart x) : KeepsM State.homes x := fun s => by
  have h := h s
  simp only [State.apart_eq] at h
  simp only [h]

@[simp] theorem KeepsM.dmg {ε α : Type} {x : ExceptT ε (StateM State) α} (h : KeepsM State.apart x) : KeepsM State.dmg x := fun s => by
  have h := h s
  simp only [State.apart_eq] at h
  simp only [h]

@[simp] theorem KeepsM.net {ε α : Type} {x : ExceptT ε (StateM State) α} (h : KeepsM State.apart x) : KeepsM State.net x := fun s => by
  have h := h s
  simp only [State.apart_eq] at h
  simp only [h]

@[simp] theorem KeepsM.dbInval {ε α : Type} {x : ExceptT ε (StateM State) α} (h : KeepsM State.apart x) : KeepsM State.dbInval x := fun s => by
  have h := h s
  simp only [State.apart_eq] at h
  simp only [h]

@[simp] theorem KeepsM.watch {ε α : Type} {x : ExceptT ε (StateM State) α} (h : KeepsM State.apart x) : KeepsM State.watch x := fun s => by
  have h := h s
  simp only [State.apart_eq] at h
  simp only [h]

@[simp] theorem KeepsM.pending {ε α : Type} {x : ExceptT ε (StateM State) α} (h : KeepsM State.beside x) : KeepsM State.pending x := fun s => by
  have h := h s
  simp only [State.beside_eq] at h
  simp only [h]

@[simp] theorem KeepsM.flash {ε α : Type} {x : ExceptT ε (StateM State) α} (h : KeepsM State.beside x) : KeepsM State.flash x := fun s => by
  have h := h s
  simp only [State.beside_eq] at h
  simp only [h]

@[simp] theorem KeepsM.coldOpt {ε α : Type} {x : ExceptT ε (StateM State) α} (h : KeepsM State.beside x) : KeepsM State.coldOpt x := fun s => by
  have h := h s
  simp only [State.beside_eq] at h
  simp only [h]

@[simp] theorem KeepsM.imsic {ε α : Type} {x : ExceptT ε (StateM State) α} (h : KeepsM State.beside x) : KeepsM State.imsic x := fun s => by
  have h := h s
  simp only [State.beside_eq] at h
  simp only [h]

@[simp] theorem KeepsM.fx {ε α : Type} {x : ExceptT ε (StateM State) α} (h : KeepsM State.beside x) : KeepsM State.fx x := fun s => by
  have h := h s
  simp only [State.beside_eq] at h
  simp only [h]

@[simp] theorem KeepsM.ctu {ε α : Type} {x : ExceptT ε (StateM State) α} (h : KeepsM State.beside x) : KeepsM State.ctu x := fun s => by
  have h := h s
  simp only [State.beside_eq] at h
  simp only [h]

@[simp] theorem KeepsM.links {ε α : Type} {x : ExceptT ε (StateM State) α} (h : KeepsM State.beside x) : KeepsM State.links x := fun s => by
  have h := h s
  simp only [State.beside_eq] at h
  simp only [h]

@[simp] theorem KeepsM.aplicS {ε α : Type} {x : ExceptT ε (StateM State) α} (h : KeepsM State.beside x) : KeepsM State.aplicS x := fun s => by
  have h := h s
  simp only [State.beside_eq] at h
  simp only [h]

@[simp] theorem KeepsM.aplicN {ε α : Type} {x : ExceptT ε (StateM State) α} (h : KeepsM State.beside x) : KeepsM State.aplicN x := fun s => by
  have h := h s
  simp only [State.beside_eq] at h
  simp only [h]

@[simp] theorem KeepsM.credits {ε α : Type} {x : ExceptT ε (StateM State) α} (h : KeepsM State.beside x) : KeepsM State.credits x := fun s => by
  have h := h s
  simp only [State.beside_eq] at h
  simp only [h]

@[simp] theorem KeepsM.pkts {ε α : Type} {x : ExceptT ε (StateM State) α} (h : KeepsM State.beside x) : KeepsM State.pkts x := fun s => by
  have h := h s
  simp only [State.beside_eq] at h
  simp only [h]

@[simp] theorem KeepsM.resp {ε α : Type} {x : ExceptT ε (StateM State) α} (h : KeepsM State.beside x) : KeepsM State.resp x := fun s => by
  have h := h s
  simp only [State.beside_eq] at h
  simp only [h]

@[simp] theorem KeepsM.out {ε α : Type} {x : ExceptT ε (StateM State) α} (h : KeepsM State.beside x) : KeepsM State.out x := fun s => by
  have h := h s
  simp only [State.beside_eq] at h
  simp only [h]

@[simp] theorem KeepsM.files {ε α : Type} {x : ExceptT ε (StateM State) α} (h : KeepsM State.beside x) : KeepsM State.files x := fun s => by
  have h := h s
  simp only [State.beside_eq] at h
  simp only [h]

@[simp] theorem KeepsM.fabric {ε α : Type} {x : ExceptT ε (StateM State) α} (h : KeepsM State.beside x) : KeepsM State.fabric x := fun s => by
  have h := h s
  simp only [State.beside_eq] at h
  simp only [h]

@[simp] theorem foldl_pending {α : Type} (f : State → α → State) (l : List α) (s : State) (h : ∀ s a, (f s a).pending = s.pending) :
    (l.foldl f s).pending = s.pending := foldl_keeps State.pending f h l s

@[simp] theorem ite_pending (c : Prop) [Decidable c] (a b : State) : (if c then a else b).pending = if c then a.pending else b.pending := apply_ite State.pending c a b

@[simp] theorem foldl_flash {α : Type} (f : State → α → State) (l : List α) (s : State) (h : ∀ s a, (f s a).flash = s.flash) :
    (l.foldl f s).flash = s.flash := foldl_keeps State.flash f h l s

@[simp] theorem ite_flash (c : Prop) [Decidable c] (a b : State) : (if c then a else b).flash = if c then a.flash else b.flash := apply_ite State.flash c a b

@[simp] theorem foldl_coldOpt {α : Type} (f : State → α → State) (l : List α) (s : State) (h : ∀ s a, (f s a).coldOpt = s.coldOpt) :
    (l.foldl f s).coldOpt = s.coldOpt := foldl_keeps State.coldOpt f h l s

@[simp] theorem ite_coldOpt (c : Prop) [Decidable c] (a b : State) : (if c then a else b).coldOpt = if c then a.coldOpt else b.coldOpt := apply_ite State.coldOpt c a b

@[simp] theorem foldl_mem {α : Type} (f : State → α → State) (l : List α) (s : State) (h : ∀ s a, (f s a).mem = s.mem) :
    (l.foldl f s).mem = s.mem := foldl_keeps State.mem f h l s

@[simp] theorem ite_mem (c : Prop) [Decidable c] (a b : State) : (if c then a else b).mem = if c then a.mem else b.mem := apply_ite State.mem c a b

@[simp] theorem foldl_harts {α : Type} (f : State → α → State) (l : List α) (s : State) (h : ∀ s a, (f s a).harts = s.harts) :
    (l.foldl f s).harts = s.harts := foldl_keeps State.harts f h l s

@[simp] theorem ite_harts (c : Prop) [Decidable c] (a b : State) : (if c then a else b).harts = if c then a.harts else b.harts := apply_ite State.harts c a b

@[simp] theorem foldl_mram {α : Type} (f : State → α → State) (l : List α) (s : State) (h : ∀ s a, (f s a).mram = s.mram) :
    (l.foldl f s).mram = s.mram := foldl_keeps State.mram f h l s

@[simp] theorem ite_mram (c : Prop) [Decidable c] (a b : State) : (if c then a else b).mram = if c then a.mram else b.mram := apply_ite State.mram c a b

@[simp] theorem foldl_imsic {α : Type} (f : State → α → State) (l : List α) (s : State) (h : ∀ s a, (f s a).imsic = s.imsic) :
    (l.foldl f s).imsic = s.imsic := foldl_keeps State.imsic f h l s

@[simp] theorem ite_imsic (c : Prop) [Decidable c] (a b : State) : (if c then a else b).imsic = if c then a.imsic else b.imsic := apply_ite State.imsic c a b

@[simp] theorem foldl_eng {α : Type} (f : State → α → State) (l : List α) (s : State) (h : ∀ s a, (f s a).eng = s.eng) :
    (l.foldl f s).eng = s.eng := foldl_keeps State.eng f h l s

@[simp] theorem ite_eng (c : Prop) [Decidable c] (a b : State) : (if c then a else b).eng = if c then a.eng else b.eng := apply_ite State.eng c a b

@[simp] theorem foldl_dm {α : Type} (f : State → α → State) (l : List α) (s : State) (h : ∀ s a, (f s a).dm = s.dm) :
    (l.foldl f s).dm = s.dm := foldl_keeps State.dm f h l s

@[simp] theorem ite_dm (c : Prop) [Decidable c] (a b : State) : (if c then a else b).dm = if c then a.dm else b.dm := apply_ite State.dm c a b

@[simp] theorem foldl_fx {α : Type} (f : State → α → State) (l : List α) (s : State) (h : ∀ s a, (f s a).fx = s.fx) :
    (l.foldl f s).fx = s.fx := foldl_keeps State.fx f h l s

@[simp] theorem ite_fx (c : Prop) [Decidable c] (a b : State) : (if c then a else b).fx = if c then a.fx else b.fx := apply_ite State.fx c a b

@[simp] theorem foldl_ctu {α : Type} (f : State → α → State) (l : List α) (s : State) (h : ∀ s a, (f s a).ctu = s.ctu) :
    (l.foldl f s).ctu = s.ctu := foldl_keeps State.ctu f h l s

@[simp] theorem ite_ctu (c : Prop) [Decidable c] (a b : State) : (if c then a else b).ctu = if c then a.ctu else b.ctu := apply_ite State.ctu c a b

@[simp] theorem foldl_links {α : Type} (f : State → α → State) (l : List α) (s : State) (h : ∀ s a, (f s a).links = s.links) :
    (l.foldl f s).links = s.links := foldl_keeps State.links f h l s

@[simp] theorem ite_links (c : Prop) [Decidable c] (a b : State) : (if c then a else b).links = if c then a.links else b.links := apply_ite State.links c a b

@[simp] theorem foldl_aplicS {α : Type} (f : State → α → State) (l : List α) (s : State) (h : ∀ s a, (f s a).aplicS = s.aplicS) :
    (l.foldl f s).aplicS = s.aplicS := foldl_keeps State.aplicS f h l s

@[simp] theorem ite_aplicS (c : Prop) [Decidable c] (a b : State) : (if c then a else b).aplicS = if c then a.aplicS else b.aplicS := apply_ite State.aplicS c a b

@[simp] theorem foldl_aplicN {α : Type} (f : State → α → State) (l : List α) (s : State) (h : ∀ s a, (f s a).aplicN = s.aplicN) :
    (l.foldl f s).aplicN = s.aplicN := foldl_keeps State.aplicN f h l s

@[simp] theorem ite_aplicN (c : Prop) [Decidable c] (a b : State) : (if c then a else b).aplicN = if c then a.aplicN else b.aplicN := apply_ite State.aplicN c a b

@[simp] theorem foldl_credits {α : Type} (f : State → α → State) (l : List α) (s : State) (h : ∀ s a, (f s a).credits = s.credits) :
    (l.foldl f s).credits = s.credits := foldl_keeps State.credits f h l s

@[simp] theorem ite_credits (c : Prop) [Decidable c] (a b : State) : (if c then a else b).credits = if c then a.credits else b.credits := apply_ite State.credits c a b

@[simp] theorem foldl_clusters {α : Type} (f : State → α → State) (l : List α) (s : State) (h : ∀ s a, (f s a).clusters = s.clusters) :
    (l.foldl f s).clusters = s.clusters := foldl_keeps State.clusters f h l s

@[simp] theorem ite_clusters (c : Prop) [Decidable c] (a b : State) : (if c then a else b).clusters = if c then a.clusters else b.clusters := apply_ite State.clusters c a b

@[simp] theorem foldl_homes {α : Type} (f : State → α → State) (l : List α) (s : State) (h : ∀ s a, (f s a).homes = s.homes) :
    (l.foldl f s).homes = s.homes := foldl_keeps State.homes f h l s

@[simp] theorem ite_homes (c : Prop) [Decidable c] (a b : State) : (if c then a else b).homes = if c then a.homes else b.homes := apply_ite State.homes c a b

@[simp] theorem foldl_pkts {α : Type} (f : State → α → State) (l : List α) (s : State) (h : ∀ s a, (f s a).pkts = s.pkts) :
    (l.foldl f s).pkts = s.pkts := foldl_keeps State.pkts f h l s

@[simp] theorem ite_pkts (c : Prop) [Decidable c] (a b : State) : (if c then a else b).pkts = if c then a.pkts else b.pkts := apply_ite State.pkts c a b

@[simp] theorem foldl_resp {α : Type} (f : State → α → State) (l : List α) (s : State) (h : ∀ s a, (f s a).resp = s.resp) :
    (l.foldl f s).resp = s.resp := foldl_keeps State.resp f h l s

@[simp] theorem ite_resp (c : Prop) [Decidable c] (a b : State) : (if c then a else b).resp = if c then a.resp else b.resp := apply_ite State.resp c a b

@[simp] theorem foldl_regs {α : Type} (f : State → α → State) (l : List α) (s : State) (h : ∀ s a, (f s a).regs = s.regs) :
    (l.foldl f s).regs = s.regs := foldl_keeps State.regs f h l s

@[simp] theorem ite_regs (c : Prop) [Decidable c] (a b : State) : (if c then a else b).regs = if c then a.regs else b.regs := apply_ite State.regs c a b

@[simp] theorem foldl_wires {α : Type} (f : State → α → State) (l : List α) (s : State) (h : ∀ s a, (f s a).wires = s.wires) :
    (l.foldl f s).wires = s.wires := foldl_keeps State.wires f h l s

@[simp] theorem ite_wires (c : Prop) [Decidable c] (a b : State) : (if c then a else b).wires = if c then a.wires else b.wires := apply_ite State.wires c a b

@[simp] theorem foldl_dmg {α : Type} (f : State → α → State) (l : List α) (s : State) (h : ∀ s a, (f s a).dmg = s.dmg) :
    (l.foldl f s).dmg = s.dmg := foldl_keeps State.dmg f h l s

@[simp] theorem ite_dmg (c : Prop) [Decidable c] (a b : State) : (if c then a else b).dmg = if c then a.dmg else b.dmg := apply_ite State.dmg c a b

@[simp] theorem foldl_wq {α : Type} (f : State → α → State) (l : List α) (s : State) (h : ∀ s a, (f s a).wq = s.wq) :
    (l.foldl f s).wq = s.wq := foldl_keeps State.wq f h l s

@[simp] theorem ite_wq (c : Prop) [Decidable c] (a b : State) : (if c then a else b).wq = if c then a.wq else b.wq := apply_ite State.wq c a b

@[simp] theorem foldl_net {α : Type} (f : State → α → State) (l : List α) (s : State) (h : ∀ s a, (f s a).net = s.net) :
    (l.foldl f s).net = s.net := foldl_keeps State.net f h l s

@[simp] theorem ite_net (c : Prop) [Decidable c] (a b : State) : (if c then a else b).net = if c then a.net else b.net := apply_ite State.net c a b

@[simp] theorem foldl_dbInval {α : Type} (f : State → α → State) (l : List α) (s : State) (h : ∀ s a, (f s a).dbInval = s.dbInval) :
    (l.foldl f s).dbInval = s.dbInval := foldl_keeps State.dbInval f h l s

@[simp] theorem ite_dbInval (c : Prop) [Decidable c] (a b : State) : (if c then a else b).dbInval = if c then a.dbInval else b.dbInval := apply_ite State.dbInval c a b

@[simp] theorem foldl_watch {α : Type} (f : State → α → State) (l : List α) (s : State) (h : ∀ s a, (f s a).watch = s.watch) :
    (l.foldl f s).watch = s.watch := foldl_keeps State.watch f h l s

@[simp] theorem ite_watch (c : Prop) [Decidable c] (a b : State) : (if c then a else b).watch = if c then a.watch else b.watch := apply_ite State.watch c a b

@[simp] theorem foldl_pkg {α : Type} (f : State → α → State) (l : List α) (s : State) (h : ∀ s a, (f s a).pkg = s.pkg) :
    (l.foldl f s).pkg = s.pkg := foldl_keeps State.pkg f h l s

@[simp] theorem ite_pkg (c : Prop) [Decidable c] (a b : State) : (if c then a else b).pkg = if c then a.pkg else b.pkg := apply_ite State.pkg c a b

@[simp] theorem foldl_pmc {α : Type} (f : State → α → State) (l : List α) (s : State) (h : ∀ s a, (f s a).pmc = s.pmc) :
    (l.foldl f s).pmc = s.pmc := foldl_keeps State.pmc f h l s

@[simp] theorem ite_pmc (c : Prop) [Decidable c] (a b : State) : (if c then a else b).pmc = if c then a.pmc else b.pmc := apply_ite State.pmc c a b

@[simp] theorem foldl_fwLog {α : Type} (f : State → α → State) (l : List α) (s : State) (h : ∀ s a, (f s a).fwLog = s.fwLog) :
    (l.foldl f s).fwLog = s.fwLog := foldl_keeps State.fwLog f h l s

@[simp] theorem ite_fwLog (c : Prop) [Decidable c] (a b : State) : (if c then a else b).fwLog = if c then a.fwLog else b.fwLog := apply_ite State.fwLog c a b

@[simp] theorem foldl_out {α : Type} (f : State → α → State) (l : List α) (s : State) (h : ∀ s a, (f s a).out = s.out) :
    (l.foldl f s).out = s.out := foldl_keeps State.out f h l s

@[simp] theorem ite_out (c : Prop) [Decidable c] (a b : State) : (if c then a else b).out = if c then a.out else b.out := apply_ite State.out c a b

@[simp] theorem foldl_free {α : Type} (f : State → α → State) (l : List α) (s : State) (h : ∀ s a, (f s a).free = s.free) :
    (l.foldl f s).free = s.free := foldl_keeps State.free f h l s

@[simp] theorem ite_free (c : Prop) [Decidable c] (a b : State) : (if c then a else b).free = if c then a.free else b.free := apply_ite State.free c a b
@[simp] theorem foldl_files {α : Type} (f : State → α → State) (l : List α) (s : State) (h : ∀ s a, (f s a).files = s.files) :
    (l.foldl f s).files = s.files := foldl_keeps State.files f h l s

@[simp] theorem ite_files (c : Prop) [Decidable c] (a b : State) : (if c then a else b).files = if c then a.files else b.files := apply_ite State.files c a b

@[simp] theorem foldl_fabric {α : Type} (f : State → α → State) (l : List α) (s : State) (h : ∀ s a, (f s a).fabric = s.fabric) :
    (l.foldl f s).fabric = s.fabric := foldl_keeps State.fabric f h l s

@[simp] theorem ite_fabric (c : Prop) [Decidable c] (a b : State) : (if c then a else b).fabric = if c then a.fabric else b.fabric := apply_ite State.fabric c a b

end Sys2Proof.Machine
end

