-- ==== Sys2Proof/Laws/Frame/Ops.lean ====
section
/-! SUPPORT. What the operations of Machine/Ops.lean leave unchanged. -/

set_option Elab.async false
set_option linter.all false

namespace Sys2Proof.Machine
open Sys2Proof

theorem State.wrW_fr (s : State) (off : Nat) (v : Word) : (State.wrW s off v).pending = s.pending ∧ (State.wrW s off v).flash = s.flash ∧ (State.wrW s off v).coldOpt = s.coldOpt ∧ (State.wrW s off v).mem = s.mem ∧ (State.wrW s off v).harts = s.harts ∧ (State.wrW s off v).mram = s.mram ∧ (State.wrW s off v).imsic = s.imsic ∧ (State.wrW s off v).eng = s.eng ∧ (State.wrW s off v).dm = s.dm ∧ (State.wrW s off v).fx = s.fx ∧ (State.wrW s off v).ctu = s.ctu ∧ (State.wrW s off v).links = s.links ∧ (State.wrW s off v).aplicS = s.aplicS ∧ (State.wrW s off v).aplicN = s.aplicN ∧ (State.wrW s off v).credits = s.credits ∧ (State.wrW s off v).clusters = s.clusters ∧ (State.wrW s off v).homes = s.homes ∧ (State.wrW s off v).pkts = s.pkts ∧ (State.wrW s off v).resp = s.resp ∧ (State.wrW s off v).wires = s.wires ∧ (State.wrW s off v).dmg = s.dmg ∧ (State.wrW s off v).wq = s.wq ∧ (State.wrW s off v).net = s.net ∧ (State.wrW s off v).dbInval = s.dbInval ∧ (State.wrW s off v).watch = s.watch ∧ (State.wrW s off v).pkg = s.pkg ∧ (State.wrW s off v).pmc = s.pmc ∧ (State.wrW s off v).fwLog = s.fwLog ∧ (State.wrW s off v).out = s.out ∧ (State.wrW s off v).free = s.free ∧ (State.wrW s off v).fabric = s.fabric ∧ (State.wrW s off v).files = s.files := by
  generalize h : State.wrW s off v = u
  unfold State.wrW at h
  rw [← h]; simp

theorem State.wr_fr (s : State) (off : Nat) (f : Fld) (v : Nat) : (State.wr s off f v).pending = s.pending ∧ (State.wr s off f v).flash = s.flash ∧ (State.wr s off f v).coldOpt = s.coldOpt ∧ (State.wr s off f v).mem = s.mem ∧ (State.wr s off f v).harts = s.harts ∧ (State.wr s off f v).mram = s.mram ∧ (State.wr s off f v).imsic = s.imsic ∧ (State.wr s off f v).eng = s.eng ∧ (State.wr s off f v).dm = s.dm ∧ (State.wr s off f v).fx = s.fx ∧ (State.wr s off f v).ctu = s.ctu ∧ (State.wr s off f v).links = s.links ∧ (State.wr s off f v).aplicS = s.aplicS ∧ (State.wr s off f v).aplicN = s.aplicN ∧ (State.wr s off f v).credits = s.credits ∧ (State.wr s off f v).clusters = s.clusters ∧ (State.wr s off f v).homes = s.homes ∧ (State.wr s off f v).pkts = s.pkts ∧ (State.wr s off f v).resp = s.resp ∧ (State.wr s off f v).wires = s.wires ∧ (State.wr s off f v).dmg = s.dmg ∧ (State.wr s off f v).wq = s.wq ∧ (State.wr s off f v).net = s.net ∧ (State.wr s off f v).dbInval = s.dbInval ∧ (State.wr s off f v).watch = s.watch ∧ (State.wr s off f v).pkg = s.pkg ∧ (State.wr s off f v).pmc = s.pmc ∧ (State.wr s off f v).fwLog = s.fwLog ∧ (State.wr s off f v).out = s.out ∧ (State.wr s off f v).free = s.free ∧ (State.wr s off f v).fabric = s.fabric ∧ (State.wr s off f v).files = s.files := by
  generalize h : State.wr s off f v = u
  unfold State.wr at h
  rw [← h]; simp [kept @State.wrW_fr]

theorem State.wrs_fr (s : State) (off : Nat) (l : List (Fld × Nat)) : (State.wrs s off l).pending = s.pending ∧ (State.wrs s off l).flash = s.flash ∧ (State.wrs s off l).coldOpt = s.coldOpt ∧ (State.wrs s off l).mem = s.mem ∧ (State.wrs s off l).harts = s.harts ∧ (State.wrs s off l).mram = s.mram ∧ (State.wrs s off l).imsic = s.imsic ∧ (State.wrs s off l).eng = s.eng ∧ (State.wrs s off l).dm = s.dm ∧ (State.wrs s off l).fx = s.fx ∧ (State.wrs s off l).ctu = s.ctu ∧ (State.wrs s off l).links = s.links ∧ (State.wrs s off l).aplicS = s.aplicS ∧ (State.wrs s off l).aplicN = s.aplicN ∧ (State.wrs s off l).credits = s.credits ∧ (State.wrs s off l).clusters = s.clusters ∧ (State.wrs s off l).homes = s.homes ∧ (State.wrs s off l).pkts = s.pkts ∧ (State.wrs s off l).resp = s.resp ∧ (State.wrs s off l).wires = s.wires ∧ (State.wrs s off l).dmg = s.dmg ∧ (State.wrs s off l).wq = s.wq ∧ (State.wrs s off l).net = s.net ∧ (State.wrs s off l).dbInval = s.dbInval ∧ (State.wrs s off l).watch = s.watch ∧ (State.wrs s off l).pkg = s.pkg ∧ (State.wrs s off l).pmc = s.pmc ∧ (State.wrs s off l).fwLog = s.fwLog ∧ (State.wrs s off l).out = s.out ∧ (State.wrs s off l).free = s.free ∧ (State.wrs s off l).fabric = s.fabric ∧ (State.wrs s off l).files = s.files := by
  generalize h : State.wrs s off l = u
  unfold State.wrs at h
  rw [← h]; simp [kept @State.wr_fr]

theorem State.rstW_fr (s : State) (off : Nat) : (State.rstW s off).pending = s.pending ∧ (State.rstW s off).flash = s.flash ∧ (State.rstW s off).coldOpt = s.coldOpt ∧ (State.rstW s off).mem = s.mem ∧ (State.rstW s off).harts = s.harts ∧ (State.rstW s off).mram = s.mram ∧ (State.rstW s off).imsic = s.imsic ∧ (State.rstW s off).eng = s.eng ∧ (State.rstW s off).dm = s.dm ∧ (State.rstW s off).fx = s.fx ∧ (State.rstW s off).ctu = s.ctu ∧ (State.rstW s off).links = s.links ∧ (State.rstW s off).aplicS = s.aplicS ∧ (State.rstW s off).aplicN = s.aplicN ∧ (State.rstW s off).credits = s.credits ∧ (State.rstW s off).clusters = s.clusters ∧ (State.rstW s off).homes = s.homes ∧ (State.rstW s off).pkts = s.pkts ∧ (State.rstW s off).resp = s.resp ∧ (State.rstW s off).wires = s.wires ∧ (State.rstW s off).dmg = s.dmg ∧ (State.rstW s off).wq = s.wq ∧ (State.rstW s off).net = s.net ∧ (State.rstW s off).dbInval = s.dbInval ∧ (State.rstW s off).watch = s.watch ∧ (State.rstW s off).pkg = s.pkg ∧ (State.rstW s off).pmc = s.pmc ∧ (State.rstW s off).fwLog = s.fwLog ∧ (State.rstW s off).out = s.out ∧ (State.rstW s off).free = s.free ∧ (State.rstW s off).fabric = s.fabric ∧ (State.rstW s off).files = s.files := by
  generalize h : State.rstW s off = u
  unfold State.rstW at h
  rw [← h]; simp [kept @State.wrW_fr]

theorem State.addF_fr (s : State) (off : Nat) (f : Fld) (n : Nat) : (State.addF s off f n).pending = s.pending ∧ (State.addF s off f n).flash = s.flash ∧ (State.addF s off f n).coldOpt = s.coldOpt ∧ (State.addF s off f n).mem = s.mem ∧ (State.addF s off f n).harts = s.harts ∧ (State.addF s off f n).mram = s.mram ∧ (State.addF s off f n).imsic = s.imsic ∧ (State.addF s off f n).eng = s.eng ∧ (State.addF s off f n).dm = s.dm ∧ (State.addF s off f n).fx = s.fx ∧ (State.addF s off f n).ctu = s.ctu ∧ (State.addF s off f n).links = s.links ∧ (State.addF s off f n).aplicS = s.aplicS ∧ (State.addF s off f n).aplicN = s.aplicN ∧ (State.addF s off f n).credits = s.credits ∧ (State.addF s off f n).clusters = s.clusters ∧ (State.addF s off f n).homes = s.homes ∧ (State.addF s off f n).pkts = s.pkts ∧ (State.addF s off f n).resp = s.resp ∧ (State.addF s off f n).wires = s.wires ∧ (State.addF s off f n).dmg = s.dmg ∧ (State.addF s off f n).wq = s.wq ∧ (State.addF s off f n).net = s.net ∧ (State.addF s off f n).dbInval = s.dbInval ∧ (State.addF s off f n).watch = s.watch ∧ (State.addF s off f n).pkg = s.pkg ∧ (State.addF s off f n).pmc = s.pmc ∧ (State.addF s off f n).fwLog = s.fwLog ∧ (State.addF s off f n).out = s.out ∧ (State.addF s off f n).free = s.free ∧ (State.addF s off f n).fabric = s.fabric ∧ (State.addF s off f n).files = s.files := by
  generalize h : State.addF s off f n = u
  unfold State.addF at h
  rw [← h]; simp [kept @State.wr_fr]

theorem State.satF_fr (s : State) (off : Nat) (f : Fld) (n : Nat) : (State.satF s off f n).pending = s.pending ∧ (State.satF s off f n).flash = s.flash ∧ (State.satF s off f n).coldOpt = s.coldOpt ∧ (State.satF s off f n).mem = s.mem ∧ (State.satF s off f n).harts = s.harts ∧ (State.satF s off f n).mram = s.mram ∧ (State.satF s off f n).imsic = s.imsic ∧ (State.satF s off f n).eng = s.eng ∧ (State.satF s off f n).dm = s.dm ∧ (State.satF s off f n).fx = s.fx ∧ (State.satF s off f n).ctu = s.ctu ∧ (State.satF s off f n).links = s.links ∧ (State.satF s off f n).aplicS = s.aplicS ∧ (State.satF s off f n).aplicN = s.aplicN ∧ (State.satF s off f n).credits = s.credits ∧ (State.satF s off f n).clusters = s.clusters ∧ (State.satF s off f n).homes = s.homes ∧ (State.satF s off f n).pkts = s.pkts ∧ (State.satF s off f n).resp = s.resp ∧ (State.satF s off f n).wires = s.wires ∧ (State.satF s off f n).dmg = s.dmg ∧ (State.satF s off f n).wq = s.wq ∧ (State.satF s off f n).net = s.net ∧ (State.satF s off f n).dbInval = s.dbInval ∧ (State.satF s off f n).watch = s.watch ∧ (State.satF s off f n).pkg = s.pkg ∧ (State.satF s off f n).pmc = s.pmc ∧ (State.satF s off f n).fwLog = s.fwLog ∧ (State.satF s off f n).out = s.out ∧ (State.satF s off f n).free = s.free ∧ (State.satF s off f n).fabric = s.fabric ∧ (State.satF s off f n).files = s.files := by
  generalize h : State.satF s off f n = u
  unfold State.satF at h
  rw [← h]; simp [kept @State.wr_fr]

theorem State.draw_fr (s : State) : (State.draw s).2.pending = s.pending ∧ (State.draw s).2.flash = s.flash ∧ (State.draw s).2.coldOpt = s.coldOpt ∧ (State.draw s).2.mem = s.mem ∧ (State.draw s).2.harts = s.harts ∧ (State.draw s).2.mram = s.mram ∧ (State.draw s).2.imsic = s.imsic ∧ (State.draw s).2.eng = s.eng ∧ (State.draw s).2.dm = s.dm ∧ (State.draw s).2.fx = s.fx ∧ (State.draw s).2.ctu = s.ctu ∧ (State.draw s).2.links = s.links ∧ (State.draw s).2.aplicS = s.aplicS ∧ (State.draw s).2.aplicN = s.aplicN ∧ (State.draw s).2.credits = s.credits ∧ (State.draw s).2.clusters = s.clusters ∧ (State.draw s).2.homes = s.homes ∧ (State.draw s).2.pkts = s.pkts ∧ (State.draw s).2.resp = s.resp ∧ (State.draw s).2.regs = s.regs ∧ (State.draw s).2.wires = s.wires ∧ (State.draw s).2.dmg = s.dmg ∧ (State.draw s).2.wq = s.wq ∧ (State.draw s).2.net = s.net ∧ (State.draw s).2.dbInval = s.dbInval ∧ (State.draw s).2.watch = s.watch ∧ (State.draw s).2.pkg = s.pkg ∧ (State.draw s).2.pmc = s.pmc ∧ (State.draw s).2.fwLog = s.fwLog ∧ (State.draw s).2.out = s.out ∧ (State.draw s).2.fabric = s.fabric ∧ (State.draw s).2.files = s.files := by
  generalize h : (State.draw s).2 = u
  unfold State.draw at h
  rw [← h]; simp

theorem State.answer_fr (s : State) (r : Resp) : (State.answer s r).pending = s.pending ∧ (State.answer s r).flash = s.flash ∧ (State.answer s r).coldOpt = s.coldOpt ∧ (State.answer s r).mem = s.mem ∧ (State.answer s r).harts = s.harts ∧ (State.answer s r).mram = s.mram ∧ (State.answer s r).imsic = s.imsic ∧ (State.answer s r).eng = s.eng ∧ (State.answer s r).dm = s.dm ∧ (State.answer s r).fx = s.fx ∧ (State.answer s r).ctu = s.ctu ∧ (State.answer s r).links = s.links ∧ (State.answer s r).aplicS = s.aplicS ∧ (State.answer s r).aplicN = s.aplicN ∧ (State.answer s r).credits = s.credits ∧ (State.answer s r).clusters = s.clusters ∧ (State.answer s r).homes = s.homes ∧ (State.answer s r).pkts = s.pkts ∧ (State.answer s r).regs = s.regs ∧ (State.answer s r).wires = s.wires ∧ (State.answer s r).dmg = s.dmg ∧ (State.answer s r).wq = s.wq ∧ (State.answer s r).net = s.net ∧ (State.answer s r).dbInval = s.dbInval ∧ (State.answer s r).watch = s.watch ∧ (State.answer s r).pkg = s.pkg ∧ (State.answer s r).pmc = s.pmc ∧ (State.answer s r).fwLog = s.fwLog ∧ (State.answer s r).out = s.out ∧ (State.answer s r).free = s.free ∧ (State.answer s r).fabric = s.fabric ∧ (State.answer s r).files = s.files := by
  generalize h : State.answer s r = u
  unfold State.answer at h
  rw [← h]; simp

theorem State.send_fr (s : State) (m : OutMsg) : (State.send s m).pending = s.pending ∧ (State.send s m).flash = s.flash ∧ (State.send s m).coldOpt = s.coldOpt ∧ (State.send s m).mem = s.mem ∧ (State.send s m).harts = s.harts ∧ (State.send s m).mram = s.mram ∧ (State.send s m).imsic = s.imsic ∧ (State.send s m).eng = s.eng ∧ (State.send s m).dm = s.dm ∧ (State.send s m).fx = s.fx ∧ (State.send s m).ctu = s.ctu ∧ (State.send s m).links = s.links ∧ (State.send s m).aplicS = s.aplicS ∧ (State.send s m).aplicN = s.aplicN ∧ (State.send s m).credits = s.credits ∧ (State.send s m).clusters = s.clusters ∧ (State.send s m).homes = s.homes ∧ (State.send s m).pkts = s.pkts ∧ (State.send s m).resp = s.resp ∧ (State.send s m).regs = s.regs ∧ (State.send s m).wires = s.wires ∧ (State.send s m).dmg = s.dmg ∧ (State.send s m).wq = s.wq ∧ (State.send s m).net = s.net ∧ (State.send s m).dbInval = s.dbInval ∧ (State.send s m).watch = s.watch ∧ (State.send s m).pkg = s.pkg ∧ (State.send s m).pmc = s.pmc ∧ (State.send s m).fwLog = s.fwLog ∧ (State.send s m).free = s.free ∧ (State.send s m).fabric = s.fabric ∧ (State.send s m).files = s.files := by
  generalize h : State.send s m = u
  unfold State.send at h
  rw [← h]; simp

theorem State.setMram_fr (s : State) (off : Nat) (l : List Byte) : (State.setMram s off l).pending = s.pending ∧ (State.setMram s off l).flash = s.flash ∧ (State.setMram s off l).coldOpt = s.coldOpt ∧ (State.setMram s off l).mem = s.mem ∧ (State.setMram s off l).harts = s.harts ∧ (State.setMram s off l).imsic = s.imsic ∧ (State.setMram s off l).eng = s.eng ∧ (State.setMram s off l).dm = s.dm ∧ (State.setMram s off l).fx = s.fx ∧ (State.setMram s off l).ctu = s.ctu ∧ (State.setMram s off l).links = s.links ∧ (State.setMram s off l).aplicS = s.aplicS ∧ (State.setMram s off l).aplicN = s.aplicN ∧ (State.setMram s off l).credits = s.credits ∧ (State.setMram s off l).clusters = s.clusters ∧ (State.setMram s off l).homes = s.homes ∧ (State.setMram s off l).pkts = s.pkts ∧ (State.setMram s off l).resp = s.resp ∧ (State.setMram s off l).regs = s.regs ∧ (State.setMram s off l).wires = s.wires ∧ (State.setMram s off l).dmg = s.dmg ∧ (State.setMram s off l).wq = s.wq ∧ (State.setMram s off l).net = s.net ∧ (State.setMram s off l).dbInval = s.dbInval ∧ (State.setMram s off l).watch = s.watch ∧ (State.setMram s off l).pkg = s.pkg ∧ (State.setMram s off l).pmc = s.pmc ∧ (State.setMram s off l).fwLog = s.fwLog ∧ (State.setMram s off l).out = s.out ∧ (State.setMram s off l).free = s.free ∧ (State.setMram s off l).fabric = s.fabric ∧ (State.setMram s off l).files = s.files := by
  generalize h : State.setMram s off l = u
  unfold State.setMram at h
  rw [← h]; simp

theorem State.logNow_fr (s : State) (ty : Nat) (data : List Byte) : (State.logNow s ty data).pending = s.pending ∧ (State.logNow s ty data).flash = s.flash ∧ (State.logNow s ty data).coldOpt = s.coldOpt ∧ (State.logNow s ty data).mem = s.mem ∧ (State.logNow s ty data).harts = s.harts ∧ (State.logNow s ty data).imsic = s.imsic ∧ (State.logNow s ty data).eng = s.eng ∧ (State.logNow s ty data).dm = s.dm ∧ (State.logNow s ty data).fx = s.fx ∧ (State.logNow s ty data).ctu = s.ctu ∧ (State.logNow s ty data).links = s.links ∧ (State.logNow s ty data).aplicS = s.aplicS ∧ (State.logNow s ty data).aplicN = s.aplicN ∧ (State.logNow s ty data).credits = s.credits ∧ (State.logNow s ty data).clusters = s.clusters ∧ (State.logNow s ty data).homes = s.homes ∧ (State.logNow s ty data).pkts = s.pkts ∧ (State.logNow s ty data).resp = s.resp ∧ (State.logNow s ty data).regs = s.regs ∧ (State.logNow s ty data).wires = s.wires ∧ (State.logNow s ty data).dmg = s.dmg ∧ (State.logNow s ty data).wq = s.wq ∧ (State.logNow s ty data).net = s.net ∧ (State.logNow s ty data).dbInval = s.dbInval ∧ (State.logNow s ty data).watch = s.watch ∧ (State.logNow s ty data).pkg = s.pkg ∧ (State.logNow s ty data).fwLog = s.fwLog ∧ (State.logNow s ty data).out = s.out ∧ (State.logNow s ty data).free = s.free ∧ (State.logNow s ty data).fabric = s.fabric ∧ (State.logNow s ty data).files = s.files := by
  generalize h : State.logNow s ty data = u
  unfold State.logNow at h
  rw [← h]; simp [kept @State.setMram_fr]

theorem State.log_fr (s : State) (ty : Nat) (data : List Byte) : (State.log s ty data).pending = s.pending ∧ (State.log s ty data).flash = s.flash ∧ (State.log s ty data).coldOpt = s.coldOpt ∧ (State.log s ty data).mem = s.mem ∧ (State.log s ty data).harts = s.harts ∧ (State.log s ty data).imsic = s.imsic ∧ (State.log s ty data).eng = s.eng ∧ (State.log s ty data).dm = s.dm ∧ (State.log s ty data).fx = s.fx ∧ (State.log s ty data).ctu = s.ctu ∧ (State.log s ty data).links = s.links ∧ (State.log s ty data).aplicS = s.aplicS ∧ (State.log s ty data).aplicN = s.aplicN ∧ (State.log s ty data).credits = s.credits ∧ (State.log s ty data).clusters = s.clusters ∧ (State.log s ty data).homes = s.homes ∧ (State.log s ty data).pkts = s.pkts ∧ (State.log s ty data).resp = s.resp ∧ (State.log s ty data).regs = s.regs ∧ (State.log s ty data).wires = s.wires ∧ (State.log s ty data).dmg = s.dmg ∧ (State.log s ty data).wq = s.wq ∧ (State.log s ty data).net = s.net ∧ (State.log s ty data).dbInval = s.dbInval ∧ (State.log s ty data).watch = s.watch ∧ (State.log s ty data).pkg = s.pkg ∧ (State.log s ty data).fwLog = s.fwLog ∧ (State.log s ty data).out = s.out ∧ (State.log s ty data).free = s.free ∧ (State.log s ty data).fabric = s.fabric ∧ (State.log s ty data).files = s.files := by
  generalize h : State.log s ty data = u
  unfold State.log at h
  rw [← h]; simp [kept @State.logNow_fr]

theorem State.raise_fr (s : State) (k : Nat) : (State.raise s k).pending = s.pending ∧ (State.raise s k).flash = s.flash ∧ (State.raise s k).coldOpt = s.coldOpt ∧ (State.raise s k).mem = s.mem ∧ (State.raise s k).harts = s.harts ∧ (State.raise s k).mram = s.mram ∧ (State.raise s k).imsic = s.imsic ∧ (State.raise s k).eng = s.eng ∧ (State.raise s k).dm = s.dm ∧ (State.raise s k).fx = s.fx ∧ (State.raise s k).ctu = s.ctu ∧ (State.raise s k).links = s.links ∧ (State.raise s k).aplicS = s.aplicS ∧ (State.raise s k).aplicN = s.aplicN ∧ (State.raise s k).credits = s.credits ∧ (State.raise s k).clusters = s.clusters ∧ (State.raise s k).homes = s.homes ∧ (State.raise s k).pkts = s.pkts ∧ (State.raise s k).resp = s.resp ∧ (State.raise s k).regs = s.regs ∧ (State.raise s k).dmg = s.dmg ∧ (State.raise s k).wq = s.wq ∧ (State.raise s k).net = s.net ∧ (State.raise s k).dbInval = s.dbInval ∧ (State.raise s k).watch = s.watch ∧ (State.raise s k).pkg = s.pkg ∧ (State.raise s k).pmc = s.pmc ∧ (State.raise s k).fwLog = s.fwLog ∧ (State.raise s k).out = s.out ∧ (State.raise s k).free = s.free ∧ (State.raise s k).fabric = s.fabric ∧ (State.raise s k).files = s.files := by
  generalize h : State.raise s k = u
  unfold State.raise at h
  rw [← h]; simp

theorem State.viol_fr (s : State) (kind : Nat) (who : Ident) (addr : Nat) : (State.viol s kind who addr).pending = s.pending ∧ (State.viol s kind who addr).flash = s.flash ∧ (State.viol s kind who addr).coldOpt = s.coldOpt ∧ (State.viol s kind who addr).mem = s.mem ∧ (State.viol s kind who addr).harts = s.harts ∧ (State.viol s kind who addr).imsic = s.imsic ∧ (State.viol s kind who addr).eng = s.eng ∧ (State.viol s kind who addr).dm = s.dm ∧ (State.viol s kind who addr).fx = s.fx ∧ (State.viol s kind who addr).ctu = s.ctu ∧ (State.viol s kind who addr).links = s.links ∧ (State.viol s kind who addr).aplicS = s.aplicS ∧ (State.viol s kind who addr).aplicN = s.aplicN ∧ (State.viol s kind who addr).credits = s.credits ∧ (State.viol s kind who addr).clusters = s.clusters ∧ (State.viol s kind who addr).homes = s.homes ∧ (State.viol s kind who addr).pkts = s.pkts ∧ (State.viol s kind who addr).resp = s.resp ∧ (State.viol s kind who addr).wires = s.wires ∧ (State.viol s kind who addr).dmg = s.dmg ∧ (State.viol s kind who addr).wq = s.wq ∧ (State.viol s kind who addr).net = s.net ∧ (State.viol s kind who addr).dbInval = s.dbInval ∧ (State.viol s kind who addr).watch = s.watch ∧ (State.viol s kind who addr).pkg = s.pkg ∧ (State.viol s kind who addr).fwLog = s.fwLog ∧ (State.viol s kind who addr).out = s.out ∧ (State.viol s kind who addr).free = s.free ∧ (State.viol s kind who addr).fabric = s.fabric ∧ (State.viol s kind who addr).files = s.files := by
  generalize h : State.viol s kind who addr = u
  unfold State.viol at h
  rw [← h]; simp [kept @State.logNow_fr, kept @State.wr_fr, kept @State.wrs_fr]

theorem State.logFw_fr (s : State) (who : Ident) (addr : Nat) (write : Bool) : (State.logFw s who addr write).pending = s.pending ∧ (State.logFw s who addr write).flash = s.flash ∧ (State.logFw s who addr write).coldOpt = s.coldOpt ∧ (State.logFw s who addr write).mem = s.mem ∧ (State.logFw s who addr write).harts = s.harts ∧ (State.logFw s who addr write).mram = s.mram ∧ (State.logFw s who addr write).imsic = s.imsic ∧ (State.logFw s who addr write).eng = s.eng ∧ (State.logFw s who addr write).dm = s.dm ∧ (State.logFw s who addr write).fx = s.fx ∧ (State.logFw s who addr write).ctu = s.ctu ∧ (State.logFw s who addr write).links = s.links ∧ (State.logFw s who addr write).aplicS = s.aplicS ∧ (State.logFw s who addr write).aplicN = s.aplicN ∧ (State.logFw s who addr write).credits = s.credits ∧ (State.logFw s who addr write).clusters = s.clusters ∧ (State.logFw s who addr write).homes = s.homes ∧ (State.logFw s who addr write).pkts = s.pkts ∧ (State.logFw s who addr write).resp = s.resp ∧ (State.logFw s who addr write).regs = s.regs ∧ (State.logFw s who addr write).wires = s.wires ∧ (State.logFw s who addr write).dmg = s.dmg ∧ (State.logFw s who addr write).wq = s.wq ∧ (State.logFw s who addr write).net = s.net ∧ (State.logFw s who addr write).dbInval = s.dbInval ∧ (State.logFw s who addr write).watch = s.watch ∧ (State.logFw s who addr write).pkg = s.pkg ∧ (State.logFw s who addr write).pmc = s.pmc ∧ (State.logFw s who addr write).out = s.out ∧ (State.logFw s who addr write).free = s.free ∧ (State.logFw s who addr write).fabric = s.fabric ∧ (State.logFw s who addr write).files = s.files := by
  generalize h : State.logFw s who addr write = u
  unfold State.logFw at h
  rw [← h]; simp

theorem State.pmcAdd_fr (s : State) (filt : Nat) (cnt : Nat) (who : Option Ident) (n : Nat) : (State.pmcAdd s filt cnt who n).pending = s.pending ∧ (State.pmcAdd s filt cnt who n).flash = s.flash ∧ (State.pmcAdd s filt cnt who n).coldOpt = s.coldOpt ∧ (State.pmcAdd s filt cnt who n).mem = s.mem ∧ (State.pmcAdd s filt cnt who n).harts = s.harts ∧ (State.pmcAdd s filt cnt who n).mram = s.mram ∧ (State.pmcAdd s filt cnt who n).imsic = s.imsic ∧ (State.pmcAdd s filt cnt who n).eng = s.eng ∧ (State.pmcAdd s filt cnt who n).dm = s.dm ∧ (State.pmcAdd s filt cnt who n).fx = s.fx ∧ (State.pmcAdd s filt cnt who n).ctu = s.ctu ∧ (State.pmcAdd s filt cnt who n).links = s.links ∧ (State.pmcAdd s filt cnt who n).aplicS = s.aplicS ∧ (State.pmcAdd s filt cnt who n).aplicN = s.aplicN ∧ (State.pmcAdd s filt cnt who n).credits = s.credits ∧ (State.pmcAdd s filt cnt who n).clusters = s.clusters ∧ (State.pmcAdd s filt cnt who n).homes = s.homes ∧ (State.pmcAdd s filt cnt who n).pkts = s.pkts ∧ (State.pmcAdd s filt cnt who n).resp = s.resp ∧ (State.pmcAdd s filt cnt who n).wires = s.wires ∧ (State.pmcAdd s filt cnt who n).dmg = s.dmg ∧ (State.pmcAdd s filt cnt who n).wq = s.wq ∧ (State.pmcAdd s filt cnt who n).net = s.net ∧ (State.pmcAdd s filt cnt who n).dbInval = s.dbInval ∧ (State.pmcAdd s filt cnt who n).watch = s.watch ∧ (State.pmcAdd s filt cnt who n).pkg = s.pkg ∧ (State.pmcAdd s filt cnt who n).pmc = s.pmc ∧ (State.pmcAdd s filt cnt who n).fwLog = s.fwLog ∧ (State.pmcAdd s filt cnt who n).out = s.out ∧ (State.pmcAdd s filt cnt who n).free = s.free ∧ (State.pmcAdd s filt cnt who n).fabric = s.fabric ∧ (State.pmcAdd s filt cnt who n).files = s.files := by
  generalize h : State.pmcAdd s filt cnt who n = u
  unfold State.pmcAdd at h
  rw [← h]; simp [kept @State.wrW_fr]

theorem State.pmcStop_fr (s : State) (t : Nat) (k : Nat) (who : Option Ident) : (State.pmcStop s t k who).pending = s.pending ∧ (State.pmcStop s t k who).flash = s.flash ∧ (State.pmcStop s t k who).coldOpt = s.coldOpt ∧ (State.pmcStop s t k who).mem = s.mem ∧ (State.pmcStop s t k who).harts = s.harts ∧ (State.pmcStop s t k who).mram = s.mram ∧ (State.pmcStop s t k who).imsic = s.imsic ∧ (State.pmcStop s t k who).eng = s.eng ∧ (State.pmcStop s t k who).dm = s.dm ∧ (State.pmcStop s t k who).fx = s.fx ∧ (State.pmcStop s t k who).ctu = s.ctu ∧ (State.pmcStop s t k who).links = s.links ∧ (State.pmcStop s t k who).aplicS = s.aplicS ∧ (State.pmcStop s t k who).aplicN = s.aplicN ∧ (State.pmcStop s t k who).credits = s.credits ∧ (State.pmcStop s t k who).clusters = s.clusters ∧ (State.pmcStop s t k who).homes = s.homes ∧ (State.pmcStop s t k who).pkts = s.pkts ∧ (State.pmcStop s t k who).resp = s.resp ∧ (State.pmcStop s t k who).wires = s.wires ∧ (State.pmcStop s t k who).dmg = s.dmg ∧ (State.pmcStop s t k who).wq = s.wq ∧ (State.pmcStop s t k who).net = s.net ∧ (State.pmcStop s t k who).dbInval = s.dbInval ∧ (State.pmcStop s t k who).watch = s.watch ∧ (State.pmcStop s t k who).pkg = s.pkg ∧ (State.pmcStop s t k who).pmc = s.pmc ∧ (State.pmcStop s t k who).fwLog = s.fwLog ∧ (State.pmcStop s t k who).out = s.out ∧ (State.pmcStop s t k who).free = s.free ∧ (State.pmcStop s t k who).fabric = s.fabric ∧ (State.pmcStop s t k who).files = s.files := by
  generalize h : State.pmcStop s t k who = u
  unfold State.pmcStop at h
  rw [← h]; simp [kept @State.pmcAdd_fr]

theorem State.pmcMch_fr (s : State) (m : Nat) (k : Nat) (who : Option Ident) : (State.pmcMch s m k who).pending = s.pending ∧ (State.pmcMch s m k who).flash = s.flash ∧ (State.pmcMch s m k who).coldOpt = s.coldOpt ∧ (State.pmcMch s m k who).mem = s.mem ∧ (State.pmcMch s m k who).harts = s.harts ∧ (State.pmcMch s m k who).mram = s.mram ∧ (State.pmcMch s m k who).imsic = s.imsic ∧ (State.pmcMch s m k who).eng = s.eng ∧ (State.pmcMch s m k who).dm = s.dm ∧ (State.pmcMch s m k who).fx = s.fx ∧ (State.pmcMch s m k who).ctu = s.ctu ∧ (State.pmcMch s m k who).links = s.links ∧ (State.pmcMch s m k who).aplicS = s.aplicS ∧ (State.pmcMch s m k who).aplicN = s.aplicN ∧ (State.pmcMch s m k who).credits = s.credits ∧ (State.pmcMch s m k who).clusters = s.clusters ∧ (State.pmcMch s m k who).homes = s.homes ∧ (State.pmcMch s m k who).pkts = s.pkts ∧ (State.pmcMch s m k who).resp = s.resp ∧ (State.pmcMch s m k who).wires = s.wires ∧ (State.pmcMch s m k who).dmg = s.dmg ∧ (State.pmcMch s m k who).wq = s.wq ∧ (State.pmcMch s m k who).net = s.net ∧ (State.pmcMch s m k who).dbInval = s.dbInval ∧ (State.pmcMch s m k who).watch = s.watch ∧ (State.pmcMch s m k who).pkg = s.pkg ∧ (State.pmcMch s m k who).pmc = s.pmc ∧ (State.pmcMch s m k who).fwLog = s.fwLog ∧ (State.pmcMch s m k who).out = s.out ∧ (State.pmcMch s m k who).free = s.free ∧ (State.pmcMch s m k who).fabric = s.fabric ∧ (State.pmcMch s m k who).files = s.files := by
  generalize h : State.pmcMch s m k who = u
  unfold State.pmcMch at h
  rw [← h]; simp [kept @State.pmcAdd_fr]

theorem State.pmcSlc_fr (s : State) (n : Nat) (k : Nat) (who : Option Ident) (x : Nat) : (State.pmcSlc s n k who x).pending = s.pending ∧ (State.pmcSlc s n k who x).flash = s.flash ∧ (State.pmcSlc s n k who x).coldOpt = s.coldOpt ∧ (State.pmcSlc s n k who x).mem = s.mem ∧ (State.pmcSlc s n k who x).harts = s.harts ∧ (State.pmcSlc s n k who x).mram = s.mram ∧ (State.pmcSlc s n k who x).imsic = s.imsic ∧ (State.pmcSlc s n k who x).eng = s.eng ∧ (State.pmcSlc s n k who x).dm = s.dm ∧ (State.pmcSlc s n k who x).fx = s.fx ∧ (State.pmcSlc s n k who x).ctu = s.ctu ∧ (State.pmcSlc s n k who x).links = s.links ∧ (State.pmcSlc s n k who x).aplicS = s.aplicS ∧ (State.pmcSlc s n k who x).aplicN = s.aplicN ∧ (State.pmcSlc s n k who x).credits = s.credits ∧ (State.pmcSlc s n k who x).clusters = s.clusters ∧ (State.pmcSlc s n k who x).homes = s.homes ∧ (State.pmcSlc s n k who x).pkts = s.pkts ∧ (State.pmcSlc s n k who x).resp = s.resp ∧ (State.pmcSlc s n k who x).wires = s.wires ∧ (State.pmcSlc s n k who x).dmg = s.dmg ∧ (State.pmcSlc s n k who x).wq = s.wq ∧ (State.pmcSlc s n k who x).net = s.net ∧ (State.pmcSlc s n k who x).dbInval = s.dbInval ∧ (State.pmcSlc s n k who x).watch = s.watch ∧ (State.pmcSlc s n k who x).pkg = s.pkg ∧ (State.pmcSlc s n k who x).pmc = s.pmc ∧ (State.pmcSlc s n k who x).fwLog = s.fwLog ∧ (State.pmcSlc s n k who x).out = s.out ∧ (State.pmcSlc s n k who x).free = s.free ∧ (State.pmcSlc s n k who x).fabric = s.fabric ∧ (State.pmcSlc s n k who x).files = s.files := by
  generalize h : State.pmcSlc s n k who x = u
  unfold State.pmcSlc at h
  rw [← h]; simp [kept @State.pmcAdd_fr]

@[simp] theorem State.forAll_pending (s : State) (n : Nat) (f : Nat → State → State) (hf : ∀ x0 x1, (f x0 x1).pending = x1.pending) : (State.forAll s n f).pending = s.pending := by
  unfold State.forAll
  first
  | (simp [*]; done)
  | ((repeat' split) <;> simp [*]; done)
  | ((try dsimp only); (repeat' split) <;> simp (disch := (intros; (repeat' split) <;> simp [*])) [*]; done)
  | (refine State.taskDo_pending _ _ _ (fun _ => ?_); (repeat' split) <;> first | exact keepsM_pure _ _ | (simp [*]; done))

@[simp] theorem State.forAll_files (s : State) (n : Nat) (f : Nat → State → State) (hf : ∀ x0 x1, (f x0 x1).files = x1.files) : (State.forAll s n f).files = s.files := by
  unfold State.forAll
  first
  | (simp [*]; done)
  | ((repeat' split) <;> simp [*]; done)
  | ((try dsimp only); (repeat' split) <;> simp (disch := (intros; (repeat' split) <;> simp [*])) [*]; done)
  | (refine State.taskDo_files _ _ _ (fun _ => ?_); (repeat' split) <;> first | exact keepsM_pure _ _ | (simp [*]; done))

@[simp] theorem State.forAll_fabric (s : State) (n : Nat) (f : Nat → State → State) (hf : ∀ x0 x1, (f x0 x1).fabric = x1.fabric) : (State.forAll s n f).fabric = s.fabric := by
  unfold State.forAll
  first
  | (simp [*]; done)
  | ((repeat' split) <;> simp [*]; done)
  | ((try dsimp only); (repeat' split) <;> simp (disch := (intros; (repeat' split) <;> simp [*])) [*]; done)
  | (refine State.taskDo_fabric _ _ _ (fun _ => ?_); (repeat' split) <;> first | exact keepsM_pure _ _ | (simp [*]; done))

@[simp] theorem State.forAll_flash (s : State) (n : Nat) (f : Nat → State → State) (hf : ∀ x0 x1, (f x0 x1).flash = x1.flash) : (State.forAll s n f).flash = s.flash := by
  unfold State.forAll
  first
  | (simp [*]; done)
  | ((repeat' split) <;> simp [*]; done)
  | ((try dsimp only); (repeat' split) <;> simp (disch := (intros; (repeat' split) <;> simp [*])) [*]; done)
  | (refine State.taskDo_flash _ _ _ (fun _ => ?_); (repeat' split) <;> first | exact keepsM_pure _ _ | (simp [*]; done))

@[simp] theorem State.forAll_coldOpt (s : State) (n : Nat) (f : Nat → State → State) (hf : ∀ x0 x1, (f x0 x1).coldOpt = x1.coldOpt) : (State.forAll s n f).coldOpt = s.coldOpt := by
  unfold State.forAll
  first
  | (simp [*]; done)
  | ((repeat' split) <;> simp [*]; done)
  | ((try dsimp only); (repeat' split) <;> simp (disch := (intros; (repeat' split) <;> simp [*])) [*]; done)
  | (refine State.taskDo_coldOpt _ _ _ (fun _ => ?_); (repeat' split) <;> first | exact keepsM_pure _ _ | (simp [*]; done))

@[simp] theorem State.forAll_mem (s : State) (n : Nat) (f : Nat → State → State) (hf : ∀ x0 x1, (f x0 x1).mem = x1.mem) : (State.forAll s n f).mem = s.mem := by
  unfold State.forAll
  first
  | (simp [*]; done)
  | ((repeat' split) <;> simp [*]; done)
  | ((try dsimp only); (repeat' split) <;> simp (disch := (intros; (repeat' split) <;> simp [*])) [*]; done)
  | (refine State.taskDo_mem _ _ _ (fun _ => ?_); (repeat' split) <;> first | exact keepsM_pure _ _ | (simp [*]; done))

@[simp] theorem State.forAll_harts (s : State) (n : Nat) (f : Nat → State → State) (hf : ∀ x0 x1, (f x0 x1).harts = x1.harts) : (State.forAll s n f).harts = s.harts := by
  unfold State.forAll
  first
  | (simp [*]; done)
  | ((repeat' split) <;> simp [*]; done)
  | ((try dsimp only); (repeat' split) <;> simp (disch := (intros; (repeat' split) <;> simp [*])) [*]; done)
  | (refine State.taskDo_harts _ _ _ (fun _ => ?_); (repeat' split) <;> first | exact keepsM_pure _ _ | (simp [*]; done))

@[simp] theorem State.forAll_mram (s : State) (n : Nat) (f : Nat → State → State) (hf : ∀ x0 x1, (f x0 x1).mram = x1.mram) : (State.forAll s n f).mram = s.mram := by
  unfold State.forAll
  first
  | (simp [*]; done)
  | ((repeat' split) <;> simp [*]; done)
  | ((try dsimp only); (repeat' split) <;> simp (disch := (intros; (repeat' split) <;> simp [*])) [*]; done)
  | (refine State.taskDo_mram _ _ _ (fun _ => ?_); (repeat' split) <;> first | exact keepsM_pure _ _ | (simp [*]; done))

@[simp] theorem State.forAll_imsic (s : State) (n : Nat) (f : Nat → State → State) (hf : ∀ x0 x1, (f x0 x1).imsic = x1.imsic) : (State.forAll s n f).imsic = s.imsic := by
  unfold State.forAll
  first
  | (simp [*]; done)
  | ((repeat' split) <;> simp [*]; done)
  | ((try dsimp only); (repeat' split) <;> simp (disch := (intros; (repeat' split) <;> simp [*])) [*]; done)
  | (refine State.taskDo_imsic _ _ _ (fun _ => ?_); (repeat' split) <;> first | exact keepsM_pure _ _ | (simp [*]; done))

@[simp] theorem State.forAll_eng (s : State) (n : Nat) (f : Nat → State → State) (hf : ∀ x0 x1, (f x0 x1).eng = x1.eng) : (State.forAll s n f).eng = s.eng := by
  unfold State.forAll
  first
  | (simp [*]; done)
  | ((repeat' split) <;> simp [*]; done)
  | ((try dsimp only); (repeat' split) <;> simp (disch := (intros; (repeat' split) <;> simp [*])) [*]; done)
  | (refine State.taskDo_eng _ _ _ (fun _ => ?_); (repeat' split) <;> first | exact keepsM_pure _ _ | (simp [*]; done))

@[simp] theorem State.forAll_dm (s : State) (n : Nat) (f : Nat → State → State) (hf : ∀ x0 x1, (f x0 x1).dm = x1.dm) : (State.forAll s n f).dm = s.dm := by
  unfold State.forAll
  first
  | (simp [*]; done)
  | ((repeat' split) <;> simp [*]; done)
  | ((try dsimp only); (repeat' split) <;> simp (disch := (intros; (repeat' split) <;> simp [*])) [*]; done)
  | (refine State.taskDo_dm _ _ _ (fun _ => ?_); (repeat' split) <;> first | exact keepsM_pure _ _ | (simp [*]; done))

@[simp] theorem State.forAll_fx (s : State) (n : Nat) (f : Nat → State → State) (hf : ∀ x0 x1, (f x0 x1).fx = x1.fx) : (State.forAll s n f).fx = s.fx := by
  unfold State.forAll
  first
  | (simp [*]; done)
  | ((repeat' split) <;> simp [*]; done)
  | ((try dsimp only); (repeat' split) <;> simp (disch := (intros; (repeat' split) <;> simp [*])) [*]; done)
  | (refine State.taskDo_fx _ _ _ (fun _ => ?_); (repeat' split) <;> first | exact keepsM_pure _ _ | (simp [*]; done))

@[simp] theorem State.forAll_ctu (s : State) (n : Nat) (f : Nat → State → State) (hf : ∀ x0 x1, (f x0 x1).ctu = x1.ctu) : (State.forAll s n f).ctu = s.ctu := by
  unfold State.forAll
  first
  | (simp [*]; done)
  | ((repeat' split) <;> simp [*]; done)
  | ((try dsimp only); (repeat' split) <;> simp (disch := (intros; (repeat' split) <;> simp [*])) [*]; done)
  | (refine State.taskDo_ctu _ _ _ (fun _ => ?_); (repeat' split) <;> first | exact keepsM_pure _ _ | (simp [*]; done))

@[simp] theorem State.forAll_links (s : State) (n : Nat) (f : Nat → State → State) (hf : ∀ x0 x1, (f x0 x1).links = x1.links) : (State.forAll s n f).links = s.links := by
  unfold State.forAll
  first
  | (simp [*]; done)
  | ((repeat' split) <;> simp [*]; done)
  | ((try dsimp only); (repeat' split) <;> simp (disch := (intros; (repeat' split) <;> simp [*])) [*]; done)
  | (refine State.taskDo_links _ _ _ (fun _ => ?_); (repeat' split) <;> first | exact keepsM_pure _ _ | (simp [*]; done))

@[simp] theorem State.forAll_aplicS (s : State) (n : Nat) (f : Nat → State → State) (hf : ∀ x0 x1, (f x0 x1).aplicS = x1.aplicS) : (State.forAll s n f).aplicS = s.aplicS := by
  unfold State.forAll
  first
  | (simp [*]; done)
  | ((repeat' split) <;> simp [*]; done)
  | ((try dsimp only); (repeat' split) <;> simp (disch := (intros; (repeat' split) <;> simp [*])) [*]; done)
  | (refine State.taskDo_aplicS _ _ _ (fun _ => ?_); (repeat' split) <;> first | exact keepsM_pure _ _ | (simp [*]; done))

@[simp] theorem State.forAll_aplicN (s : State) (n : Nat) (f : Nat → State → State) (hf : ∀ x0 x1, (f x0 x1).aplicN = x1.aplicN) : (State.forAll s n f).aplicN = s.aplicN := by
  unfold State.forAll
  first
  | (simp [*]; done)
  | ((repeat' split) <;> simp [*]; done)
  | ((try dsimp only); (repeat' split) <;> simp (disch := (intros; (repeat' split) <;> simp [*])) [*]; done)
  | (refine State.taskDo_aplicN _ _ _ (fun _ => ?_); (repeat' split) <;> first | exact keepsM_pure _ _ | (simp [*]; done))

@[simp] theorem State.forAll_credits (s : State) (n : Nat) (f : Nat → State → State) (hf : ∀ x0 x1, (f x0 x1).credits = x1.credits) : (State.forAll s n f).credits = s.credits := by
  unfold State.forAll
  first
  | (simp [*]; done)
  | ((repeat' split) <;> simp [*]; done)
  | ((try dsimp only); (repeat' split) <;> simp (disch := (intros; (repeat' split) <;> simp [*])) [*]; done)
  | (refine State.taskDo_credits _ _ _ (fun _ => ?_); (repeat' split) <;> first | exact keepsM_pure _ _ | (simp [*]; done))

@[simp] theorem State.forAll_clusters (s : State) (n : Nat) (f : Nat → State → State) (hf : ∀ x0 x1, (f x0 x1).clusters = x1.clusters) : (State.forAll s n f).clusters = s.clusters := by
  unfold State.forAll
  first
  | (simp [*]; done)
  | ((repeat' split) <;> simp [*]; done)
  | ((try dsimp only); (repeat' split) <;> simp (disch := (intros; (repeat' split) <;> simp [*])) [*]; done)
  | (refine State.taskDo_clusters _ _ _ (fun _ => ?_); (repeat' split) <;> first | exact keepsM_pure _ _ | (simp [*]; done))

@[simp] theorem State.forAll_homes (s : State) (n : Nat) (f : Nat → State → State) (hf : ∀ x0 x1, (f x0 x1).homes = x1.homes) : (State.forAll s n f).homes = s.homes := by
  unfold State.forAll
  first
  | (simp [*]; done)
  | ((repeat' split) <;> simp [*]; done)
  | ((try dsimp only); (repeat' split) <;> simp (disch := (intros; (repeat' split) <;> simp [*])) [*]; done)
  | (refine State.taskDo_homes _ _ _ (fun _ => ?_); (repeat' split) <;> first | exact keepsM_pure _ _ | (simp [*]; done))

@[simp] theorem State.forAll_pkts (s : State) (n : Nat) (f : Nat → State → State) (hf : ∀ x0 x1, (f x0 x1).pkts = x1.pkts) : (State.forAll s n f).pkts = s.pkts := by
  unfold State.forAll
  first
  | (simp [*]; done)
  | ((repeat' split) <;> simp [*]; done)
  | ((try dsimp only); (repeat' split) <;> simp (disch := (intros; (repeat' split) <;> simp [*])) [*]; done)
  | (refine State.taskDo_pkts _ _ _ (fun _ => ?_); (repeat' split) <;> first | exact keepsM_pure _ _ | (simp [*]; done))

@[simp] theorem State.forAll_resp (s : State) (n : Nat) (f : Nat → State → State) (hf : ∀ x0 x1, (f x0 x1).resp = x1.resp) : (State.forAll s n f).resp = s.resp := by
  unfold State.forAll
  first
  | (simp [*]; done)
  | ((repeat' split) <;> simp [*]; done)
  | ((try dsimp only); (repeat' split) <;> simp (disch := (intros; (repeat' split) <;> simp [*])) [*]; done)
  | (refine State.taskDo_resp _ _ _ (fun _ => ?_); (repeat' split) <;> first | exact keepsM_pure _ _ | (simp [*]; done))

@[simp] theorem State.forAll_regs (s : State) (n : Nat) (f : Nat → State → State) (hf : ∀ x0 x1, (f x0 x1).regs = x1.regs) : (State.forAll s n f).regs = s.regs := by
  unfold State.forAll
  first
  | (simp [*]; done)
  | ((repeat' split) <;> simp [*]; done)
  | ((try dsimp only); (repeat' split) <;> simp (disch := (intros; (repeat' split) <;> simp [*])) [*]; done)
  | (refine State.taskDo_regs _ _ _ (fun _ => ?_); (repeat' split) <;> first | exact keepsM_pure _ _ | (simp [*]; done))

@[simp] theorem State.forAll_wires (s : State) (n : Nat) (f : Nat → State → State) (hf : ∀ x0 x1, (f x0 x1).wires = x1.wires) : (State.forAll s n f).wires = s.wires := by
  unfold State.forAll
  first
  | (simp [*]; done)
  | ((repeat' split) <;> simp [*]; done)
  | ((try dsimp only); (repeat' split) <;> simp (disch := (intros; (repeat' split) <;> simp [*])) [*]; done)
  | (refine State.taskDo_wires _ _ _ (fun _ => ?_); (repeat' split) <;> first | exact keepsM_pure _ _ | (simp [*]; done))

@[simp] theorem State.forAll_dmg (s : State) (n : Nat) (f : Nat → State → State) (hf : ∀ x0 x1, (f x0 x1).dmg = x1.dmg) : (State.forAll s n f).dmg = s.dmg := by
  unfold State.forAll
  first
  | (simp [*]; done)
  | ((repeat' split) <;> simp [*]; done)
  | ((try dsimp only); (repeat' split) <;> simp (disch := (intros; (repeat' split) <;> simp [*])) [*]; done)
  | (refine State.taskDo_dmg _ _ _ (fun _ => ?_); (repeat' split) <;> first | exact keepsM_pure _ _ | (simp [*]; done))

@[simp] theorem State.forAll_wq (s : State) (n : Nat) (f : Nat → State → State) (hf : ∀ x0 x1, (f x0 x1).wq = x1.wq) : (State.forAll s n f).wq = s.wq := by
  unfold State.forAll
  first
  | (simp [*]; done)
  | ((repeat' split) <;> simp [*]; done)
  | ((try dsimp only); (repeat' split) <;> simp (disch := (intros; (repeat' split) <;> simp [*])) [*]; done)
  | (refine State.taskDo_wq _ _ _ (fun _ => ?_); (repeat' split) <;> first | exact keepsM_pure _ _ | (simp [*]; done))

@[simp] theorem State.forAll_net (s : State) (n : Nat) (f : Nat → State → State) (hf : ∀ x0 x1, (f x0 x1).net = x1.net) : (State.forAll s n f).net = s.net := by
  unfold State.forAll
  first
  | (simp [*]; done)
  | ((repeat' split) <;> simp [*]; done)
  | ((try dsimp only); (repeat' split) <;> simp (disch := (intros; (repeat' split) <;> simp [*])) [*]; done)
  | (refine State.taskDo_net _ _ _ (fun _ => ?_); (repeat' split) <;> first | exact keepsM_pure _ _ | (simp [*]; done))

@[simp] theorem State.forAll_dbInval (s : State) (n : Nat) (f : Nat → State → State) (hf : ∀ x0 x1, (f x0 x1).dbInval = x1.dbInval) : (State.forAll s n f).dbInval = s.dbInval := by
  unfold State.forAll
  first
  | (simp [*]; done)
  | ((repeat' split) <;> simp [*]; done)
  | ((try dsimp only); (repeat' split) <;> simp (disch := (intros; (repeat' split) <;> simp [*])) [*]; done)
  | (refine State.taskDo_dbInval _ _ _ (fun _ => ?_); (repeat' split) <;> first | exact keepsM_pure _ _ | (simp [*]; done))

@[simp] theorem State.forAll_watch (s : State) (n : Nat) (f : Nat → State → State) (hf : ∀ x0 x1, (f x0 x1).watch = x1.watch) : (State.forAll s n f).watch = s.watch := by
  unfold State.forAll
  first
  | (simp [*]; done)
  | ((repeat' split) <;> simp [*]; done)
  | ((try dsimp only); (repeat' split) <;> simp (disch := (intros; (repeat' split) <;> simp [*])) [*]; done)
  | (refine State.taskDo_watch _ _ _ (fun _ => ?_); (repeat' split) <;> first | exact keepsM_pure _ _ | (simp [*]; done))

@[simp] theorem State.forAll_pkg (s : State) (n : Nat) (f : Nat → State → State) (hf : ∀ x0 x1, (f x0 x1).pkg = x1.pkg) : (State.forAll s n f).pkg = s.pkg := by
  unfold State.forAll
  first
  | (simp [*]; done)
  | ((repeat' split) <;> simp [*]; done)
  | ((try dsimp only); (repeat' split) <;> simp (disch := (intros; (repeat' split) <;> simp [*])) [*]; done)
  | (refine State.taskDo_pkg _ _ _ (fun _ => ?_); (repeat' split) <;> first | exact keepsM_pure _ _ | (simp [*]; done))

@[simp] theorem State.forAll_pmc (s : State) (n : Nat) (f : Nat → State → State) (hf : ∀ x0 x1, (f x0 x1).pmc = x1.pmc) : (State.forAll s n f).pmc = s.pmc := by
  unfold State.forAll
  first
  | (simp [*]; done)
  | ((repeat' split) <;> simp [*]; done)
  | ((try dsimp only); (repeat' split) <;> simp (disch := (intros; (repeat' split) <;> simp [*])) [*]; done)
  | (refine State.taskDo_pmc _ _ _ (fun _ => ?_); (repeat' split) <;> first | exact keepsM_pure _ _ | (simp [*]; done))

@[simp] theorem State.forAll_fwLog (s : State) (n : Nat) (f : Nat → State → State) (hf : ∀ x0 x1, (f x0 x1).fwLog = x1.fwLog) : (State.forAll s n f).fwLog = s.fwLog := by
  unfold State.forAll
  first
  | (simp [*]; done)
  | ((repeat' split) <;> simp [*]; done)
  | ((try dsimp only); (repeat' split) <;> simp (disch := (intros; (repeat' split) <;> simp [*])) [*]; done)
  | (refine State.taskDo_fwLog _ _ _ (fun _ => ?_); (repeat' split) <;> first | exact keepsM_pure _ _ | (simp [*]; done))

@[simp] theorem State.forAll_out (s : State) (n : Nat) (f : Nat → State → State) (hf : ∀ x0 x1, (f x0 x1).out = x1.out) : (State.forAll s n f).out = s.out := by
  unfold State.forAll
  first
  | (simp [*]; done)
  | ((repeat' split) <;> simp [*]; done)
  | ((try dsimp only); (repeat' split) <;> simp (disch := (intros; (repeat' split) <;> simp [*])) [*]; done)
  | (refine State.taskDo_out _ _ _ (fun _ => ?_); (repeat' split) <;> first | exact keepsM_pure _ _ | (simp [*]; done))

@[simp] theorem State.forAll_free (s : State) (n : Nat) (f : Nat → State → State) (hf : ∀ x0 x1, (f x0 x1).free = x1.free) : (State.forAll s n f).free = s.free := by
  unfold State.forAll
  first
  | (simp [*]; done)
  | ((repeat' split) <;> simp [*]; done)
  | ((try dsimp only); (repeat' split) <;> simp (disch := (intros; (repeat' split) <;> simp [*])) [*]; done)
  | (refine State.taskDo_free _ _ _ (fun _ => ?_); (repeat' split) <;> first | exact keepsM_pure _ _ | (simp [*]; done))

end Sys2Proof.Machine
end

