-- ==== Sys2Proof/Laws/Frame/Flags.lean ====
section
/-! SUPPORT. What the operations of Machine/Flags.lean leave unchanged. -/

set_option Elab.async false
set_option linter.all false

namespace Sys2Proof.Machine
open Sys2Proof

theorem State.fillErr_fr (s : State) (r : ErrRec) (e : ErrInfo) (more : Nat) : (State.fillErr s r e more).pending = s.pending ∧ (State.fillErr s r e more).flash = s.flash ∧ (State.fillErr s r e more).coldOpt = s.coldOpt ∧ (State.fillErr s r e more).mem = s.mem ∧ (State.fillErr s r e more).harts = s.harts ∧ (State.fillErr s r e more).imsic = s.imsic ∧ (State.fillErr s r e more).eng = s.eng ∧ (State.fillErr s r e more).dm = s.dm ∧ (State.fillErr s r e more).fx = s.fx ∧ (State.fillErr s r e more).ctu = s.ctu ∧ (State.fillErr s r e more).links = s.links ∧ (State.fillErr s r e more).aplicS = s.aplicS ∧ (State.fillErr s r e more).aplicN = s.aplicN ∧ (State.fillErr s r e more).credits = s.credits ∧ (State.fillErr s r e more).clusters = s.clusters ∧ (State.fillErr s r e more).homes = s.homes ∧ (State.fillErr s r e more).pkts = s.pkts ∧ (State.fillErr s r e more).resp = s.resp ∧ (State.fillErr s r e more).wires = s.wires ∧ (State.fillErr s r e more).dmg = s.dmg ∧ (State.fillErr s r e more).wq = s.wq ∧ (State.fillErr s r e more).net = s.net ∧ (State.fillErr s r e more).dbInval = s.dbInval ∧ (State.fillErr s r e more).watch = s.watch ∧ (State.fillErr s r e more).pkg = s.pkg ∧ (State.fillErr s r e more).fwLog = s.fwLog ∧ (State.fillErr s r e more).out = s.out ∧ (State.fillErr s r e more).free = s.free ∧ (State.fillErr s r e more).fabric = s.fabric ∧ (State.fillErr s r e more).files = s.files := by
  generalize h : State.fillErr s r e more = u
  unfold State.fillErr at h
  rw [← h]; simp [kept @State.logNow_fr, kept @State.wrs_fr]

theorem State.recordErr_fr (s : State) (r : ErrRec) (e : ErrInfo) : (State.recordErr s r e).pending = s.pending ∧ (State.recordErr s r e).flash = s.flash ∧ (State.recordErr s r e).coldOpt = s.coldOpt ∧ (State.recordErr s r e).mem = s.mem ∧ (State.recordErr s r e).harts = s.harts ∧ (State.recordErr s r e).imsic = s.imsic ∧ (State.recordErr s r e).eng = s.eng ∧ (State.recordErr s r e).dm = s.dm ∧ (State.recordErr s r e).fx = s.fx ∧ (State.recordErr s r e).ctu = s.ctu ∧ (State.recordErr s r e).links = s.links ∧ (State.recordErr s r e).aplicS = s.aplicS ∧ (State.recordErr s r e).aplicN = s.aplicN ∧ (State.recordErr s r e).credits = s.credits ∧ (State.recordErr s r e).clusters = s.clusters ∧ (State.recordErr s r e).homes = s.homes ∧ (State.recordErr s r e).pkts = s.pkts ∧ (State.recordErr s r e).resp = s.resp ∧ (State.recordErr s r e).wires = s.wires ∧ (State.recordErr s r e).dmg = s.dmg ∧ (State.recordErr s r e).wq = s.wq ∧ (State.recordErr s r e).net = s.net ∧ (State.recordErr s r e).dbInval = s.dbInval ∧ (State.recordErr s r e).watch = s.watch ∧ (State.recordErr s r e).pkg = s.pkg ∧ (State.recordErr s r e).fwLog = s.fwLog ∧ (State.recordErr s r e).out = s.out ∧ (State.recordErr s r e).free = s.free ∧ (State.recordErr s r e).fabric = s.fabric ∧ (State.recordErr s r e).files = s.files := by
  generalize h : State.recordErr s r e = u
  unfold State.recordErr at h
  rw [← h]; simp [kept @State.fillErr_fr, kept @State.satF_fr, kept @State.wr_fr]

theorem State.recordMem_fr (s : State) (m : Nat) (ue : Bool) (src : Nat) (devMask : Nat) (addr : Nat) : (State.recordMem s m ue src devMask addr).pending = s.pending ∧ (State.recordMem s m ue src devMask addr).flash = s.flash ∧ (State.recordMem s m ue src devMask addr).coldOpt = s.coldOpt ∧ (State.recordMem s m ue src devMask addr).mem = s.mem ∧ (State.recordMem s m ue src devMask addr).harts = s.harts ∧ (State.recordMem s m ue src devMask addr).imsic = s.imsic ∧ (State.recordMem s m ue src devMask addr).eng = s.eng ∧ (State.recordMem s m ue src devMask addr).dm = s.dm ∧ (State.recordMem s m ue src devMask addr).fx = s.fx ∧ (State.recordMem s m ue src devMask addr).ctu = s.ctu ∧ (State.recordMem s m ue src devMask addr).links = s.links ∧ (State.recordMem s m ue src devMask addr).aplicS = s.aplicS ∧ (State.recordMem s m ue src devMask addr).aplicN = s.aplicN ∧ (State.recordMem s m ue src devMask addr).credits = s.credits ∧ (State.recordMem s m ue src devMask addr).clusters = s.clusters ∧ (State.recordMem s m ue src devMask addr).homes = s.homes ∧ (State.recordMem s m ue src devMask addr).pkts = s.pkts ∧ (State.recordMem s m ue src devMask addr).resp = s.resp ∧ (State.recordMem s m ue src devMask addr).dmg = s.dmg ∧ (State.recordMem s m ue src devMask addr).wq = s.wq ∧ (State.recordMem s m ue src devMask addr).net = s.net ∧ (State.recordMem s m ue src devMask addr).dbInval = s.dbInval ∧ (State.recordMem s m ue src devMask addr).watch = s.watch ∧ (State.recordMem s m ue src devMask addr).pkg = s.pkg ∧ (State.recordMem s m ue src devMask addr).fwLog = s.fwLog ∧ (State.recordMem s m ue src devMask addr).out = s.out ∧ (State.recordMem s m ue src devMask addr).free = s.free ∧ (State.recordMem s m ue src devMask addr).fabric = s.fabric ∧ (State.recordMem s m ue src devMask addr).files = s.files := by
  generalize h : State.recordMem s m ue src devMask addr = u
  unfold State.recordMem at h
  rw [← h]; simp [kept @State.logNow_fr, kept @State.raise_fr, kept @State.wr_fr, kept @State.wrs_fr]

theorem State.setAplic_fr (s : State) (w : World) (a : Aplic) : (State.setAplic s w a).pending = s.pending ∧ (State.setAplic s w a).flash = s.flash ∧ (State.setAplic s w a).coldOpt = s.coldOpt ∧ (State.setAplic s w a).mem = s.mem ∧ (State.setAplic s w a).harts = s.harts ∧ (State.setAplic s w a).mram = s.mram ∧ (State.setAplic s w a).imsic = s.imsic ∧ (State.setAplic s w a).eng = s.eng ∧ (State.setAplic s w a).dm = s.dm ∧ (State.setAplic s w a).fx = s.fx ∧ (State.setAplic s w a).ctu = s.ctu ∧ (State.setAplic s w a).links = s.links ∧ (State.setAplic s w a).credits = s.credits ∧ (State.setAplic s w a).clusters = s.clusters ∧ (State.setAplic s w a).homes = s.homes ∧ (State.setAplic s w a).pkts = s.pkts ∧ (State.setAplic s w a).resp = s.resp ∧ (State.setAplic s w a).regs = s.regs ∧ (State.setAplic s w a).wires = s.wires ∧ (State.setAplic s w a).dmg = s.dmg ∧ (State.setAplic s w a).wq = s.wq ∧ (State.setAplic s w a).net = s.net ∧ (State.setAplic s w a).dbInval = s.dbInval ∧ (State.setAplic s w a).watch = s.watch ∧ (State.setAplic s w a).pkg = s.pkg ∧ (State.setAplic s w a).pmc = s.pmc ∧ (State.setAplic s w a).fwLog = s.fwLog ∧ (State.setAplic s w a).out = s.out ∧ (State.setAplic s w a).free = s.free ∧ (State.setAplic s w a).fabric = s.fabric ∧ (State.setAplic s w a).files = s.files := by
  generalize h : State.setAplic s w a = u
  unfold State.setAplic at h
  (try dsimp only at h); (repeat' split at h) <;> rw [← h] <;> simp

theorem State.ownerChanged_fr (s : State) (k : Nat) : (State.ownerChanged s k).pending = s.pending ∧ (State.ownerChanged s k).flash = s.flash ∧ (State.ownerChanged s k).coldOpt = s.coldOpt ∧ (State.ownerChanged s k).mem = s.mem ∧ (State.ownerChanged s k).harts = s.harts ∧ (State.ownerChanged s k).mram = s.mram ∧ (State.ownerChanged s k).imsic = s.imsic ∧ (State.ownerChanged s k).eng = s.eng ∧ (State.ownerChanged s k).dm = s.dm ∧ (State.ownerChanged s k).fx = s.fx ∧ (State.ownerChanged s k).ctu = s.ctu ∧ (State.ownerChanged s k).links = s.links ∧ (State.ownerChanged s k).credits = s.credits ∧ (State.ownerChanged s k).clusters = s.clusters ∧ (State.ownerChanged s k).homes = s.homes ∧ (State.ownerChanged s k).pkts = s.pkts ∧ (State.ownerChanged s k).resp = s.resp ∧ (State.ownerChanged s k).regs = s.regs ∧ (State.ownerChanged s k).wires = s.wires ∧ (State.ownerChanged s k).dmg = s.dmg ∧ (State.ownerChanged s k).wq = s.wq ∧ (State.ownerChanged s k).net = s.net ∧ (State.ownerChanged s k).dbInval = s.dbInval ∧ (State.ownerChanged s k).watch = s.watch ∧ (State.ownerChanged s k).pkg = s.pkg ∧ (State.ownerChanged s k).pmc = s.pmc ∧ (State.ownerChanged s k).fwLog = s.fwLog ∧ (State.ownerChanged s k).out = s.out ∧ (State.ownerChanged s k).free = s.free ∧ (State.ownerChanged s k).fabric = s.fabric ∧ (State.ownerChanged s k).files = s.files := by
  generalize h : State.ownerChanged s k = u
  unfold State.ownerChanged at h
  rw [← h]; simp

theorem State.msi_fr (s : State) (who : Ident) (f : Nat) (eiid : Nat) : (State.msi s who f eiid).pending = s.pending ∧ (State.msi s who f eiid).flash = s.flash ∧ (State.msi s who f eiid).coldOpt = s.coldOpt ∧ (State.msi s who f eiid).mem = s.mem ∧ (State.msi s who f eiid).harts = s.harts ∧ (State.msi s who f eiid).eng = s.eng ∧ (State.msi s who f eiid).dm = s.dm ∧ (State.msi s who f eiid).fx = s.fx ∧ (State.msi s who f eiid).ctu = s.ctu ∧ (State.msi s who f eiid).links = s.links ∧ (State.msi s who f eiid).aplicS = s.aplicS ∧ (State.msi s who f eiid).aplicN = s.aplicN ∧ (State.msi s who f eiid).credits = s.credits ∧ (State.msi s who f eiid).clusters = s.clusters ∧ (State.msi s who f eiid).homes = s.homes ∧ (State.msi s who f eiid).pkts = s.pkts ∧ (State.msi s who f eiid).resp = s.resp ∧ (State.msi s who f eiid).wires = s.wires ∧ (State.msi s who f eiid).dmg = s.dmg ∧ (State.msi s who f eiid).wq = s.wq ∧ (State.msi s who f eiid).net = s.net ∧ (State.msi s who f eiid).dbInval = s.dbInval ∧ (State.msi s who f eiid).watch = s.watch ∧ (State.msi s who f eiid).pkg = s.pkg ∧ (State.msi s who f eiid).out = s.out ∧ (State.msi s who f eiid).free = s.free ∧ (State.msi s who f eiid).fabric = s.fabric ∧ (State.msi s who f eiid).files = s.files := by
  generalize h : State.msi s who f eiid = u
  unfold State.msi at h
  rw [← h]; simp [kept @State.logFw_fr, kept @State.viol_fr]

theorem State.msiTo_fr (s : State) (who : Ident) (addr : Nat) (eiid : Nat) : (State.msiTo s who addr eiid).pending = s.pending ∧ (State.msiTo s who addr eiid).flash = s.flash ∧ (State.msiTo s who addr eiid).coldOpt = s.coldOpt ∧ (State.msiTo s who addr eiid).mem = s.mem ∧ (State.msiTo s who addr eiid).harts = s.harts ∧ (State.msiTo s who addr eiid).eng = s.eng ∧ (State.msiTo s who addr eiid).dm = s.dm ∧ (State.msiTo s who addr eiid).fx = s.fx ∧ (State.msiTo s who addr eiid).ctu = s.ctu ∧ (State.msiTo s who addr eiid).links = s.links ∧ (State.msiTo s who addr eiid).aplicS = s.aplicS ∧ (State.msiTo s who addr eiid).aplicN = s.aplicN ∧ (State.msiTo s who addr eiid).credits = s.credits ∧ (State.msiTo s who addr eiid).clusters = s.clusters ∧ (State.msiTo s who addr eiid).homes = s.homes ∧ (State.msiTo s who addr eiid).pkts = s.pkts ∧ (State.msiTo s who addr eiid).resp = s.resp ∧ (State.msiTo s who addr eiid).wires = s.wires ∧ (State.msiTo s who addr eiid).dmg = s.dmg ∧ (State.msiTo s who addr eiid).wq = s.wq ∧ (State.msiTo s who addr eiid).net = s.net ∧ (State.msiTo s who addr eiid).dbInval = s.dbInval ∧ (State.msiTo s who addr eiid).watch = s.watch ∧ (State.msiTo s who addr eiid).pkg = s.pkg ∧ (State.msiTo s who addr eiid).out = s.out ∧ (State.msiTo s who addr eiid).free = s.free ∧ (State.msiTo s who addr eiid).fabric = s.fabric ∧ (State.msiTo s who addr eiid).files = s.files := by
  generalize h : State.msiTo s who addr eiid = u
  unfold State.msiTo at h
  (try dsimp only at h); (repeat' split at h) <;> rw [← h] <;> simp [kept @State.msi_fr]

theorem State.setFile_fr (s : State) (f : Nat) (x : FileCtl) : (State.setFile s f x).pending = s.pending ∧ (State.setFile s f x).flash = s.flash ∧ (State.setFile s f x).coldOpt = s.coldOpt ∧ (State.setFile s f x).mem = s.mem ∧ (State.setFile s f x).harts = s.harts ∧ (State.setFile s f x).mram = s.mram ∧ (State.setFile s f x).imsic = s.imsic ∧ (State.setFile s f x).eng = s.eng ∧ (State.setFile s f x).dm = s.dm ∧ (State.setFile s f x).fx = s.fx ∧ (State.setFile s f x).ctu = s.ctu ∧ (State.setFile s f x).links = s.links ∧ (State.setFile s f x).aplicS = s.aplicS ∧ (State.setFile s f x).aplicN = s.aplicN ∧ (State.setFile s f x).credits = s.credits ∧ (State.setFile s f x).clusters = s.clusters ∧ (State.setFile s f x).homes = s.homes ∧ (State.setFile s f x).pkts = s.pkts ∧ (State.setFile s f x).resp = s.resp ∧ (State.setFile s f x).regs = s.regs ∧ (State.setFile s f x).wires = s.wires ∧ (State.setFile s f x).dmg = s.dmg ∧ (State.setFile s f x).wq = s.wq ∧ (State.setFile s f x).net = s.net ∧ (State.setFile s f x).dbInval = s.dbInval ∧ (State.setFile s f x).watch = s.watch ∧ (State.setFile s f x).pkg = s.pkg ∧ (State.setFile s f x).pmc = s.pmc ∧ (State.setFile s f x).fwLog = s.fwLog ∧ (State.setFile s f x).out = s.out ∧ (State.setFile s f x).free = s.free ∧ (State.setFile s f x).fabric = s.fabric := by
  generalize h : State.setFile s f x = u
  unfold State.setFile at h
  (try dsimp only at h); (repeat' split at h) <;> rw [← h] <;> simp

theorem State.fileClaim_fr (s : State) (f : Nat) : (State.fileClaim s f).pending = s.pending ∧ (State.fileClaim s f).flash = s.flash ∧ (State.fileClaim s f).coldOpt = s.coldOpt ∧ (State.fileClaim s f).mem = s.mem ∧ (State.fileClaim s f).harts = s.harts ∧ (State.fileClaim s f).mram = s.mram ∧ (State.fileClaim s f).eng = s.eng ∧ (State.fileClaim s f).dm = s.dm ∧ (State.fileClaim s f).fx = s.fx ∧ (State.fileClaim s f).ctu = s.ctu ∧ (State.fileClaim s f).links = s.links ∧ (State.fileClaim s f).aplicS = s.aplicS ∧ (State.fileClaim s f).aplicN = s.aplicN ∧ (State.fileClaim s f).credits = s.credits ∧ (State.fileClaim s f).clusters = s.clusters ∧ (State.fileClaim s f).homes = s.homes ∧ (State.fileClaim s f).pkts = s.pkts ∧ (State.fileClaim s f).resp = s.resp ∧ (State.fileClaim s f).regs = s.regs ∧ (State.fileClaim s f).wires = s.wires ∧ (State.fileClaim s f).dmg = s.dmg ∧ (State.fileClaim s f).wq = s.wq ∧ (State.fileClaim s f).net = s.net ∧ (State.fileClaim s f).dbInval = s.dbInval ∧ (State.fileClaim s f).watch = s.watch ∧ (State.fileClaim s f).pkg = s.pkg ∧ (State.fileClaim s f).pmc = s.pmc ∧ (State.fileClaim s f).fwLog = s.fwLog ∧ (State.fileClaim s f).out = s.out ∧ (State.fileClaim s f).free = s.free ∧ (State.fileClaim s f).fabric = s.fabric ∧ (State.fileClaim s f).files = s.files := by
  generalize h : State.fileClaim s f = u
  unfold State.fileClaim at h
  (try dsimp only at h); (repeat' split at h) <;> rw [← h] <;> simp

theorem State.fileWrite_fr (s : State) (f : Nat) (sel : Nat) (v : Nat) : (State.fileWrite s f sel v).pending = s.pending ∧ (State.fileWrite s f sel v).flash = s.flash ∧ (State.fileWrite s f sel v).coldOpt = s.coldOpt ∧ (State.fileWrite s f sel v).mem = s.mem ∧ (State.fileWrite s f sel v).harts = s.harts ∧ (State.fileWrite s f sel v).mram = s.mram ∧ (State.fileWrite s f sel v).eng = s.eng ∧ (State.fileWrite s f sel v).dm = s.dm ∧ (State.fileWrite s f sel v).fx = s.fx ∧ (State.fileWrite s f sel v).ctu = s.ctu ∧ (State.fileWrite s f sel v).links = s.links ∧ (State.fileWrite s f sel v).aplicS = s.aplicS ∧ (State.fileWrite s f sel v).aplicN = s.aplicN ∧ (State.fileWrite s f sel v).credits = s.credits ∧ (State.fileWrite s f sel v).clusters = s.clusters ∧ (State.fileWrite s f sel v).homes = s.homes ∧ (State.fileWrite s f sel v).pkts = s.pkts ∧ (State.fileWrite s f sel v).resp = s.resp ∧ (State.fileWrite s f sel v).regs = s.regs ∧ (State.fileWrite s f sel v).wires = s.wires ∧ (State.fileWrite s f sel v).dmg = s.dmg ∧ (State.fileWrite s f sel v).wq = s.wq ∧ (State.fileWrite s f sel v).net = s.net ∧ (State.fileWrite s f sel v).dbInval = s.dbInval ∧ (State.fileWrite s f sel v).watch = s.watch ∧ (State.fileWrite s f sel v).pkg = s.pkg ∧ (State.fileWrite s f sel v).pmc = s.pmc ∧ (State.fileWrite s f sel v).fwLog = s.fwLog ∧ (State.fileWrite s f sel v).out = s.out ∧ (State.fileWrite s f sel v).free = s.free ∧ (State.fileWrite s f sel v).fabric = s.fabric := by
  generalize h : State.fileWrite s f sel v = u
  unfold State.fileWrite at h
  (try dsimp only at h); (repeat' split at h) <;> rw [← h] <;> simp [kept @State.setFile_fr]

theorem State.aplicSend_fr (s : State) (w : World) (target : Nat) : (State.aplicSend s w target).pending = s.pending ∧ (State.aplicSend s w target).flash = s.flash ∧ (State.aplicSend s w target).coldOpt = s.coldOpt ∧ (State.aplicSend s w target).mem = s.mem ∧ (State.aplicSend s w target).harts = s.harts ∧ (State.aplicSend s w target).eng = s.eng ∧ (State.aplicSend s w target).dm = s.dm ∧ (State.aplicSend s w target).fx = s.fx ∧ (State.aplicSend s w target).ctu = s.ctu ∧ (State.aplicSend s w target).links = s.links ∧ (State.aplicSend s w target).aplicS = s.aplicS ∧ (State.aplicSend s w target).aplicN = s.aplicN ∧ (State.aplicSend s w target).credits = s.credits ∧ (State.aplicSend s w target).clusters = s.clusters ∧ (State.aplicSend s w target).homes = s.homes ∧ (State.aplicSend s w target).pkts = s.pkts ∧ (State.aplicSend s w target).resp = s.resp ∧ (State.aplicSend s w target).wires = s.wires ∧ (State.aplicSend s w target).dmg = s.dmg ∧ (State.aplicSend s w target).wq = s.wq ∧ (State.aplicSend s w target).net = s.net ∧ (State.aplicSend s w target).dbInval = s.dbInval ∧ (State.aplicSend s w target).watch = s.watch ∧ (State.aplicSend s w target).pkg = s.pkg ∧ (State.aplicSend s w target).out = s.out ∧ (State.aplicSend s w target).free = s.free ∧ (State.aplicSend s w target).fabric = s.fabric ∧ (State.aplicSend s w target).files = s.files := by
  generalize h : State.aplicSend s w target = u
  unfold State.aplicSend at h
  rw [← h]; simp [kept @State.msi_fr, kept @State.viol_fr]

theorem State.aplicDeliver_fr (s : State) (w : World) (k : Nat) : (State.aplicDeliver s w k).pending = s.pending ∧ (State.aplicDeliver s w k).flash = s.flash ∧ (State.aplicDeliver s w k).coldOpt = s.coldOpt ∧ (State.aplicDeliver s w k).mem = s.mem ∧ (State.aplicDeliver s w k).harts = s.harts ∧ (State.aplicDeliver s w k).eng = s.eng ∧ (State.aplicDeliver s w k).dm = s.dm ∧ (State.aplicDeliver s w k).fx = s.fx ∧ (State.aplicDeliver s w k).ctu = s.ctu ∧ (State.aplicDeliver s w k).links = s.links ∧ (State.aplicDeliver s w k).credits = s.credits ∧ (State.aplicDeliver s w k).clusters = s.clusters ∧ (State.aplicDeliver s w k).homes = s.homes ∧ (State.aplicDeliver s w k).pkts = s.pkts ∧ (State.aplicDeliver s w k).resp = s.resp ∧ (State.aplicDeliver s w k).wires = s.wires ∧ (State.aplicDeliver s w k).dmg = s.dmg ∧ (State.aplicDeliver s w k).wq = s.wq ∧ (State.aplicDeliver s w k).net = s.net ∧ (State.aplicDeliver s w k).dbInval = s.dbInval ∧ (State.aplicDeliver s w k).watch = s.watch ∧ (State.aplicDeliver s w k).pkg = s.pkg ∧ (State.aplicDeliver s w k).out = s.out ∧ (State.aplicDeliver s w k).free = s.free ∧ (State.aplicDeliver s w k).fabric = s.fabric ∧ (State.aplicDeliver s w k).files = s.files := by
  generalize h : State.aplicDeliver s w k = u
  unfold State.aplicDeliver at h
  rw [← h]; simp [kept @State.aplicSend_fr, kept @State.setAplic_fr]

theorem State.present_fr (s : State) (k : Nat) : (State.present s k).pending = s.pending ∧ (State.present s k).flash = s.flash ∧ (State.present s k).coldOpt = s.coldOpt ∧ (State.present s k).mem = s.mem ∧ (State.present s k).harts = s.harts ∧ (State.present s k).eng = s.eng ∧ (State.present s k).dm = s.dm ∧ (State.present s k).fx = s.fx ∧ (State.present s k).ctu = s.ctu ∧ (State.present s k).links = s.links ∧ (State.present s k).credits = s.credits ∧ (State.present s k).clusters = s.clusters ∧ (State.present s k).homes = s.homes ∧ (State.present s k).pkts = s.pkts ∧ (State.present s k).resp = s.resp ∧ (State.present s k).wires = s.wires ∧ (State.present s k).dmg = s.dmg ∧ (State.present s k).wq = s.wq ∧ (State.present s k).net = s.net ∧ (State.present s k).dbInval = s.dbInval ∧ (State.present s k).watch = s.watch ∧ (State.present s k).pkg = s.pkg ∧ (State.present s k).out = s.out ∧ (State.present s k).free = s.free ∧ (State.present s k).fabric = s.fabric ∧ (State.present s k).files = s.files := by
  generalize h : State.present s k = u
  unfold State.present at h
  rw [← h]; simp [kept @State.aplicDeliver_fr, kept @State.setAplic_fr]

end Sys2Proof.Machine
end

