-- ==== Sys2Proof/Laws/Frame/Memory.lean ====
section
/-! SUPPORT. What the operations of Machine/Memory.lean leave unchanged. -/

set_option Elab.async false
set_option linter.all false

namespace Sys2Proof.Machine
open Sys2Proof

theorem State.setLink_fr (s : State) (j : Nat) (l : Link) : (State.setLink s j l).pending = s.pending ∧ (State.setLink s j l).flash = s.flash ∧ (State.setLink s j l).coldOpt = s.coldOpt ∧ (State.setLink s j l).mem = s.mem ∧ (State.setLink s j l).harts = s.harts ∧ (State.setLink s j l).mram = s.mram ∧ (State.setLink s j l).imsic = s.imsic ∧ (State.setLink s j l).eng = s.eng ∧ (State.setLink s j l).dm = s.dm ∧ (State.setLink s j l).fx = s.fx ∧ (State.setLink s j l).ctu = s.ctu ∧ (State.setLink s j l).aplicS = s.aplicS ∧ (State.setLink s j l).aplicN = s.aplicN ∧ (State.setLink s j l).credits = s.credits ∧ (State.setLink s j l).clusters = s.clusters ∧ (State.setLink s j l).homes = s.homes ∧ (State.setLink s j l).pkts = s.pkts ∧ (State.setLink s j l).resp = s.resp ∧ (State.setLink s j l).regs = s.regs ∧ (State.setLink s j l).wires = s.wires ∧ (State.setLink s j l).dmg = s.dmg ∧ (State.setLink s j l).wq = s.wq ∧ (State.setLink s j l).net = s.net ∧ (State.setLink s j l).dbInval = s.dbInval ∧ (State.setLink s j l).watch = s.watch ∧ (State.setLink s j l).pkg = s.pkg ∧ (State.setLink s j l).pmc = s.pmc ∧ (State.setLink s j l).fwLog = s.fwLog ∧ (State.setLink s j l).out = s.out ∧ (State.setLink s j l).free = s.free ∧ (State.setLink s j l).fabric = s.fabric ∧ (State.setLink s j l).files = s.files := by
  generalize h : State.setLink s j l = u
  unfold State.setLink at h
  rw [← h]; simp

theorem State.mergeRegs_fr (s : State) (l : Tab (Nat × Nat)) : (State.mergeRegs s l).pending = s.pending ∧ (State.mergeRegs s l).flash = s.flash ∧ (State.mergeRegs s l).coldOpt = s.coldOpt ∧ (State.mergeRegs s l).mem = s.mem ∧ (State.mergeRegs s l).harts = s.harts ∧ (State.mergeRegs s l).mram = s.mram ∧ (State.mergeRegs s l).imsic = s.imsic ∧ (State.mergeRegs s l).eng = s.eng ∧ (State.mergeRegs s l).dm = s.dm ∧ (State.mergeRegs s l).fx = s.fx ∧ (State.mergeRegs s l).ctu = s.ctu ∧ (State.mergeRegs s l).links = s.links ∧ (State.mergeRegs s l).aplicS = s.aplicS ∧ (State.mergeRegs s l).aplicN = s.aplicN ∧ (State.mergeRegs s l).credits = s.credits ∧ (State.mergeRegs s l).clusters = s.clusters ∧ (State.mergeRegs s l).homes = s.homes ∧ (State.mergeRegs s l).pkts = s.pkts ∧ (State.mergeRegs s l).resp = s.resp ∧ (State.mergeRegs s l).wires = s.wires ∧ (State.mergeRegs s l).dmg = s.dmg ∧ (State.mergeRegs s l).wq = s.wq ∧ (State.mergeRegs s l).net = s.net ∧ (State.mergeRegs s l).dbInval = s.dbInval ∧ (State.mergeRegs s l).watch = s.watch ∧ (State.mergeRegs s l).pkg = s.pkg ∧ (State.mergeRegs s l).pmc = s.pmc ∧ (State.mergeRegs s l).fwLog = s.fwLog ∧ (State.mergeRegs s l).out = s.out ∧ (State.mergeRegs s l).free = s.free ∧ (State.mergeRegs s l).fabric = s.fabric ∧ (State.mergeRegs s l).files = s.files := by
  generalize h : State.mergeRegs s l = u
  unfold State.mergeRegs at h
  rw [← h]; simp [kept @State.wrW_fr]

theorem State.setFilling_fr (s : State) (rs : List Nat) : (State.setFilling s rs).pending = s.pending ∧ (State.setFilling s rs).flash = s.flash ∧ (State.setFilling s rs).coldOpt = s.coldOpt ∧ (State.setFilling s rs).mem = s.mem ∧ (State.setFilling s rs).harts = s.harts ∧ (State.setFilling s rs).mram = s.mram ∧ (State.setFilling s rs).imsic = s.imsic ∧ (State.setFilling s rs).eng = s.eng ∧ (State.setFilling s rs).dm = s.dm ∧ (State.setFilling s rs).fx = s.fx ∧ (State.setFilling s rs).ctu = s.ctu ∧ (State.setFilling s rs).links = s.links ∧ (State.setFilling s rs).aplicS = s.aplicS ∧ (State.setFilling s rs).aplicN = s.aplicN ∧ (State.setFilling s rs).credits = s.credits ∧ (State.setFilling s rs).clusters = s.clusters ∧ (State.setFilling s rs).homes = s.homes ∧ (State.setFilling s rs).pkts = s.pkts ∧ (State.setFilling s rs).resp = s.resp ∧ (State.setFilling s rs).wires = s.wires ∧ (State.setFilling s rs).dmg = s.dmg ∧ (State.setFilling s rs).wq = s.wq ∧ (State.setFilling s rs).net = s.net ∧ (State.setFilling s rs).dbInval = s.dbInval ∧ (State.setFilling s rs).watch = s.watch ∧ (State.setFilling s rs).pkg = s.pkg ∧ (State.setFilling s rs).pmc = s.pmc ∧ (State.setFilling s rs).fwLog = s.fwLog ∧ (State.setFilling s rs).out = s.out ∧ (State.setFilling s rs).free = s.free ∧ (State.setFilling s rs).fabric = s.fabric ∧ (State.setFilling s rs).files = s.files := by
  generalize h : State.setFilling s rs = u
  unfold State.setFilling at h
  (try dsimp only at h); (repeat' split at h) <;> rw [← h] <;> simp [kept @State.wr_fr]

theorem State.fwNew_fr (s : State) (l : Tab (Nat × Nat)) : (State.fwNew s l).pending = s.pending ∧ (State.fwNew s l).flash = s.flash ∧ (State.fwNew s l).coldOpt = s.coldOpt ∧ (State.fwNew s l).mem = s.mem ∧ (State.fwNew s l).harts = s.harts ∧ (State.fwNew s l).mram = s.mram ∧ (State.fwNew s l).imsic = s.imsic ∧ (State.fwNew s l).eng = s.eng ∧ (State.fwNew s l).dm = s.dm ∧ (State.fwNew s l).fx = s.fx ∧ (State.fwNew s l).ctu = s.ctu ∧ (State.fwNew s l).links = s.links ∧ (State.fwNew s l).aplicS = s.aplicS ∧ (State.fwNew s l).aplicN = s.aplicN ∧ (State.fwNew s l).credits = s.credits ∧ (State.fwNew s l).clusters = s.clusters ∧ (State.fwNew s l).homes = s.homes ∧ (State.fwNew s l).pkts = s.pkts ∧ (State.fwNew s l).resp = s.resp ∧ (State.fwNew s l).wires = s.wires ∧ (State.fwNew s l).dmg = s.dmg ∧ (State.fwNew s l).wq = s.wq ∧ (State.fwNew s l).net = s.net ∧ (State.fwNew s l).dbInval = s.dbInval ∧ (State.fwNew s l).watch = s.watch ∧ (State.fwNew s l).pkg = s.pkg ∧ (State.fwNew s l).pmc = s.pmc ∧ (State.fwNew s l).fwLog = s.fwLog ∧ (State.fwNew s l).out = s.out ∧ (State.fwNew s l).free = s.free ∧ (State.fwNew s l).fabric = s.fabric ∧ (State.fwNew s l).files = s.files := by
  generalize h : State.fwNew s l = u
  unfold State.fwNew at h
  (try dsimp only at h); (repeat' split at h) <;> rw [← h] <;> simp [kept @State.mergeRegs_fr, kept @State.setFilling_fr]

theorem State.fwView_fr (s : State) (pa : Nat) : (State.fwView s pa).pending = s.pending ∧ (State.fwView s pa).flash = s.flash ∧ (State.fwView s pa).coldOpt = s.coldOpt ∧ (State.fwView s pa).mem = s.mem ∧ (State.fwView s pa).harts = s.harts ∧ (State.fwView s pa).mram = s.mram ∧ (State.fwView s pa).imsic = s.imsic ∧ (State.fwView s pa).eng = s.eng ∧ (State.fwView s pa).dm = s.dm ∧ (State.fwView s pa).fx = s.fx ∧ (State.fwView s pa).ctu = s.ctu ∧ (State.fwView s pa).links = s.links ∧ (State.fwView s pa).aplicS = s.aplicS ∧ (State.fwView s pa).aplicN = s.aplicN ∧ (State.fwView s pa).credits = s.credits ∧ (State.fwView s pa).clusters = s.clusters ∧ (State.fwView s pa).homes = s.homes ∧ (State.fwView s pa).pkts = s.pkts ∧ (State.fwView s pa).resp = s.resp ∧ (State.fwView s pa).wires = s.wires ∧ (State.fwView s pa).dmg = s.dmg ∧ (State.fwView s pa).wq = s.wq ∧ (State.fwView s pa).net = s.net ∧ (State.fwView s pa).dbInval = s.dbInval ∧ (State.fwView s pa).watch = s.watch ∧ (State.fwView s pa).pkg = s.pkg ∧ (State.fwView s pa).pmc = s.pmc ∧ (State.fwView s pa).fwLog = s.fwLog ∧ (State.fwView s pa).out = s.out ∧ (State.fwView s pa).free = s.free ∧ (State.fwView s pa).fabric = s.fabric ∧ (State.fwView s pa).files = s.files := by
  generalize h : State.fwView s pa = u
  unfold State.fwView at h
  (try dsimp only at h); (repeat' split at h) <;> rw [← h] <;> simp [kept @State.fwNew_fr]

theorem State.setBytes_fr (s : State) (pa : Nat) (l : List Byte) : (State.setBytes s pa l).pending = s.pending ∧ (State.setBytes s pa l).flash = s.flash ∧ (State.setBytes s pa l).coldOpt = s.coldOpt ∧ (State.setBytes s pa l).harts = s.harts ∧ (State.setBytes s pa l).mram = s.mram ∧ (State.setBytes s pa l).imsic = s.imsic ∧ (State.setBytes s pa l).eng = s.eng ∧ (State.setBytes s pa l).dm = s.dm ∧ (State.setBytes s pa l).fx = s.fx ∧ (State.setBytes s pa l).ctu = s.ctu ∧ (State.setBytes s pa l).links = s.links ∧ (State.setBytes s pa l).aplicS = s.aplicS ∧ (State.setBytes s pa l).aplicN = s.aplicN ∧ (State.setBytes s pa l).credits = s.credits ∧ (State.setBytes s pa l).clusters = s.clusters ∧ (State.setBytes s pa l).homes = s.homes ∧ (State.setBytes s pa l).pkts = s.pkts ∧ (State.setBytes s pa l).resp = s.resp ∧ (State.setBytes s pa l).regs = s.regs ∧ (State.setBytes s pa l).wires = s.wires ∧ (State.setBytes s pa l).dmg = s.dmg ∧ (State.setBytes s pa l).wq = s.wq ∧ (State.setBytes s pa l).net = s.net ∧ (State.setBytes s pa l).dbInval = s.dbInval ∧ (State.setBytes s pa l).watch = s.watch ∧ (State.setBytes s pa l).pkg = s.pkg ∧ (State.setBytes s pa l).pmc = s.pmc ∧ (State.setBytes s pa l).fwLog = s.fwLog ∧ (State.setBytes s pa l).out = s.out ∧ (State.setBytes s pa l).free = s.free ∧ (State.setBytes s pa l).fabric = s.fabric ∧ (State.setBytes s pa l).files = s.files := by
  generalize h : State.setBytes s pa l = u
  unfold State.setBytes at h
  rw [← h]; simp

theorem State.setDmg_fr (s : State) (ln : Nat) (e : List Byte) : (State.setDmg s ln e).pending = s.pending ∧ (State.setDmg s ln e).flash = s.flash ∧ (State.setDmg s ln e).coldOpt = s.coldOpt ∧ (State.setDmg s ln e).mem = s.mem ∧ (State.setDmg s ln e).harts = s.harts ∧ (State.setDmg s ln e).mram = s.mram ∧ (State.setDmg s ln e).imsic = s.imsic ∧ (State.setDmg s ln e).eng = s.eng ∧ (State.setDmg s ln e).dm = s.dm ∧ (State.setDmg s ln e).fx = s.fx ∧ (State.setDmg s ln e).ctu = s.ctu ∧ (State.setDmg s ln e).links = s.links ∧ (State.setDmg s ln e).aplicS = s.aplicS ∧ (State.setDmg s ln e).aplicN = s.aplicN ∧ (State.setDmg s ln e).credits = s.credits ∧ (State.setDmg s ln e).clusters = s.clusters ∧ (State.setDmg s ln e).homes = s.homes ∧ (State.setDmg s ln e).pkts = s.pkts ∧ (State.setDmg s ln e).resp = s.resp ∧ (State.setDmg s ln e).regs = s.regs ∧ (State.setDmg s ln e).wires = s.wires ∧ (State.setDmg s ln e).wq = s.wq ∧ (State.setDmg s ln e).net = s.net ∧ (State.setDmg s ln e).dbInval = s.dbInval ∧ (State.setDmg s ln e).watch = s.watch ∧ (State.setDmg s ln e).pkg = s.pkg ∧ (State.setDmg s ln e).pmc = s.pmc ∧ (State.setDmg s ln e).fwLog = s.fwLog ∧ (State.setDmg s ln e).out = s.out ∧ (State.setDmg s ln e).free = s.free ∧ (State.setDmg s ln e).fabric = s.fabric ∧ (State.setDmg s ln e).files = s.files := by
  generalize h : State.setDmg s ln e = u
  unfold State.setDmg at h
  rw [← h]; simp

theorem State.queueWrite_fr (s : State) (w : WqEntry) : (State.queueWrite s w).pending = s.pending ∧ (State.queueWrite s w).flash = s.flash ∧ (State.queueWrite s w).coldOpt = s.coldOpt ∧ (State.queueWrite s w).mem = s.mem ∧ (State.queueWrite s w).harts = s.harts ∧ (State.queueWrite s w).mram = s.mram ∧ (State.queueWrite s w).imsic = s.imsic ∧ (State.queueWrite s w).eng = s.eng ∧ (State.queueWrite s w).dm = s.dm ∧ (State.queueWrite s w).fx = s.fx ∧ (State.queueWrite s w).ctu = s.ctu ∧ (State.queueWrite s w).links = s.links ∧ (State.queueWrite s w).aplicS = s.aplicS ∧ (State.queueWrite s w).aplicN = s.aplicN ∧ (State.queueWrite s w).credits = s.credits ∧ (State.queueWrite s w).clusters = s.clusters ∧ (State.queueWrite s w).homes = s.homes ∧ (State.queueWrite s w).pkts = s.pkts ∧ (State.queueWrite s w).resp = s.resp ∧ (State.queueWrite s w).regs = s.regs ∧ (State.queueWrite s w).wires = s.wires ∧ (State.queueWrite s w).dmg = s.dmg ∧ (State.queueWrite s w).net = s.net ∧ (State.queueWrite s w).dbInval = s.dbInval ∧ (State.queueWrite s w).watch = s.watch ∧ (State.queueWrite s w).pkg = s.pkg ∧ (State.queueWrite s w).pmc = s.pmc ∧ (State.queueWrite s w).fwLog = s.fwLog ∧ (State.queueWrite s w).out = s.out ∧ (State.queueWrite s w).free = s.free ∧ (State.queueWrite s w).fabric = s.fabric ∧ (State.queueWrite s w).files = s.files := by
  generalize h : State.queueWrite s w = u
  unfold State.queueWrite at h
  rw [← h]; simp

theorem State.pmcMem_fr (s : State) (ln : Nat) (k : Nat) (kc : Nat) (who : Option Ident) : (State.pmcMem s ln k kc who).pending = s.pending ∧ (State.pmcMem s ln k kc who).flash = s.flash ∧ (State.pmcMem s ln k kc who).coldOpt = s.coldOpt ∧ (State.pmcMem s ln k kc who).mem = s.mem ∧ (State.pmcMem s ln k kc who).harts = s.harts ∧ (State.pmcMem s ln k kc who).mram = s.mram ∧ (State.pmcMem s ln k kc who).imsic = s.imsic ∧ (State.pmcMem s ln k kc who).eng = s.eng ∧ (State.pmcMem s ln k kc who).dm = s.dm ∧ (State.pmcMem s ln k kc who).fx = s.fx ∧ (State.pmcMem s ln k kc who).ctu = s.ctu ∧ (State.pmcMem s ln k kc who).links = s.links ∧ (State.pmcMem s ln k kc who).aplicS = s.aplicS ∧ (State.pmcMem s ln k kc who).aplicN = s.aplicN ∧ (State.pmcMem s ln k kc who).credits = s.credits ∧ (State.pmcMem s ln k kc who).clusters = s.clusters ∧ (State.pmcMem s ln k kc who).homes = s.homes ∧ (State.pmcMem s ln k kc who).pkts = s.pkts ∧ (State.pmcMem s ln k kc who).resp = s.resp ∧ (State.pmcMem s ln k kc who).wires = s.wires ∧ (State.pmcMem s ln k kc who).dmg = s.dmg ∧ (State.pmcMem s ln k kc who).wq = s.wq ∧ (State.pmcMem s ln k kc who).net = s.net ∧ (State.pmcMem s ln k kc who).dbInval = s.dbInval ∧ (State.pmcMem s ln k kc who).watch = s.watch ∧ (State.pmcMem s ln k kc who).pkg = s.pkg ∧ (State.pmcMem s ln k kc who).pmc = s.pmc ∧ (State.pmcMem s ln k kc who).fwLog = s.fwLog ∧ (State.pmcMem s ln k kc who).out = s.out ∧ (State.pmcMem s ln k kc who).free = s.free ∧ (State.pmcMem s ln k kc who).fabric = s.fabric ∧ (State.pmcMem s ln k kc who).files = s.files := by
  generalize h : State.pmcMem s ln k kc who = u
  unfold State.pmcMem at h
  (try dsimp only at h); (repeat' split at h) <;> rw [← h] <;> simp [kept @State.pmcAdd_fr, kept @State.pmcMch_fr]

theorem State.wakeChannel_fr (s : State) (m : Nat) : (State.wakeChannel s m).pending = s.pending ∧ (State.wakeChannel s m).flash = s.flash ∧ (State.wakeChannel s m).coldOpt = s.coldOpt ∧ (State.wakeChannel s m).mem = s.mem ∧ (State.wakeChannel s m).harts = s.harts ∧ (State.wakeChannel s m).mram = s.mram ∧ (State.wakeChannel s m).imsic = s.imsic ∧ (State.wakeChannel s m).eng = s.eng ∧ (State.wakeChannel s m).dm = s.dm ∧ (State.wakeChannel s m).fx = s.fx ∧ (State.wakeChannel s m).ctu = s.ctu ∧ (State.wakeChannel s m).links = s.links ∧ (State.wakeChannel s m).aplicS = s.aplicS ∧ (State.wakeChannel s m).aplicN = s.aplicN ∧ (State.wakeChannel s m).credits = s.credits ∧ (State.wakeChannel s m).clusters = s.clusters ∧ (State.wakeChannel s m).homes = s.homes ∧ (State.wakeChannel s m).pkts = s.pkts ∧ (State.wakeChannel s m).resp = s.resp ∧ (State.wakeChannel s m).wires = s.wires ∧ (State.wakeChannel s m).dmg = s.dmg ∧ (State.wakeChannel s m).wq = s.wq ∧ (State.wakeChannel s m).net = s.net ∧ (State.wakeChannel s m).dbInval = s.dbInval ∧ (State.wakeChannel s m).watch = s.watch ∧ (State.wakeChannel s m).pmc = s.pmc ∧ (State.wakeChannel s m).fwLog = s.fwLog ∧ (State.wakeChannel s m).out = s.out ∧ (State.wakeChannel s m).free = s.free ∧ (State.wakeChannel s m).fabric = s.fabric ∧ (State.wakeChannel s m).files = s.files := by
  generalize h : State.wakeChannel s m = u
  unfold State.wakeChannel at h
  rw [← h]; simp [kept @State.wr_fr]

theorem State.readMemLine_fr (s : State) (ln : Nat) (src : Nat) (who : Option Ident) : (State.readMemLine s ln src who).2.pending = s.pending ∧ (State.readMemLine s ln src who).2.flash = s.flash ∧ (State.readMemLine s ln src who).2.coldOpt = s.coldOpt ∧ (State.readMemLine s ln src who).2.mem = s.mem ∧ (State.readMemLine s ln src who).2.harts = s.harts ∧ (State.readMemLine s ln src who).2.imsic = s.imsic ∧ (State.readMemLine s ln src who).2.eng = s.eng ∧ (State.readMemLine s ln src who).2.dm = s.dm ∧ (State.readMemLine s ln src who).2.fx = s.fx ∧ (State.readMemLine s ln src who).2.ctu = s.ctu ∧ (State.readMemLine s ln src who).2.links = s.links ∧ (State.readMemLine s ln src who).2.aplicS = s.aplicS ∧ (State.readMemLine s ln src who).2.aplicN = s.aplicN ∧ (State.readMemLine s ln src who).2.credits = s.credits ∧ (State.readMemLine s ln src who).2.clusters = s.clusters ∧ (State.readMemLine s ln src who).2.homes = s.homes ∧ (State.readMemLine s ln src who).2.pkts = s.pkts ∧ (State.readMemLine s ln src who).2.resp = s.resp ∧ (State.readMemLine s ln src who).2.dmg = s.dmg ∧ (State.readMemLine s ln src who).2.net = s.net ∧ (State.readMemLine s ln src who).2.dbInval = s.dbInval ∧ (State.readMemLine s ln src who).2.watch = s.watch ∧ (State.readMemLine s ln src who).2.fwLog = s.fwLog ∧ (State.readMemLine s ln src who).2.out = s.out ∧ (State.readMemLine s ln src who).2.free = s.free ∧ (State.readMemLine s ln src who).2.fabric = s.fabric ∧ (State.readMemLine s ln src who).2.files = s.files := by
  generalize h : (State.readMemLine s ln src who).2 = u
  unfold State.readMemLine at h
  (try dsimp only at h); (repeat' split at h) <;> rw [← h] <;> simp [kept @State.pmcMch_fr, kept @State.queueWrite_fr, kept @State.recordMem_fr, kept @State.satF_fr, kept @State.wakeChannel_fr]

theorem State.storeLine_fr (s : State) (ln : Nat) (d : LineData) : (State.storeLine s ln d).pending = s.pending ∧ (State.storeLine s ln d).flash = s.flash ∧ (State.storeLine s ln d).coldOpt = s.coldOpt ∧ (State.storeLine s ln d).harts = s.harts ∧ (State.storeLine s ln d).mram = s.mram ∧ (State.storeLine s ln d).imsic = s.imsic ∧ (State.storeLine s ln d).eng = s.eng ∧ (State.storeLine s ln d).dm = s.dm ∧ (State.storeLine s ln d).fx = s.fx ∧ (State.storeLine s ln d).ctu = s.ctu ∧ (State.storeLine s ln d).links = s.links ∧ (State.storeLine s ln d).aplicS = s.aplicS ∧ (State.storeLine s ln d).aplicN = s.aplicN ∧ (State.storeLine s ln d).credits = s.credits ∧ (State.storeLine s ln d).clusters = s.clusters ∧ (State.storeLine s ln d).homes = s.homes ∧ (State.storeLine s ln d).pkts = s.pkts ∧ (State.storeLine s ln d).resp = s.resp ∧ (State.storeLine s ln d).regs = s.regs ∧ (State.storeLine s ln d).wires = s.wires ∧ (State.storeLine s ln d).wq = s.wq ∧ (State.storeLine s ln d).net = s.net ∧ (State.storeLine s ln d).dbInval = s.dbInval ∧ (State.storeLine s ln d).watch = s.watch ∧ (State.storeLine s ln d).pkg = s.pkg ∧ (State.storeLine s ln d).pmc = s.pmc ∧ (State.storeLine s ln d).fwLog = s.fwLog ∧ (State.storeLine s ln d).out = s.out ∧ (State.storeLine s ln d).free = s.free ∧ (State.storeLine s ln d).fabric = s.fabric ∧ (State.storeLine s ln d).files = s.files := by
  generalize h : State.storeLine s ln d = u
  unfold State.storeLine at h
  rw [← h]; simp [kept @State.setBytes_fr, kept @State.setDmg_fr]

theorem State.applyFlip_fr (s : State) (ln : Nat) : (State.applyFlip s ln).pending = s.pending ∧ (State.applyFlip s ln).flash = s.flash ∧ (State.applyFlip s ln).coldOpt = s.coldOpt ∧ (State.applyFlip s ln).mem = s.mem ∧ (State.applyFlip s ln).harts = s.harts ∧ (State.applyFlip s ln).mram = s.mram ∧ (State.applyFlip s ln).imsic = s.imsic ∧ (State.applyFlip s ln).eng = s.eng ∧ (State.applyFlip s ln).dm = s.dm ∧ (State.applyFlip s ln).fx = s.fx ∧ (State.applyFlip s ln).ctu = s.ctu ∧ (State.applyFlip s ln).links = s.links ∧ (State.applyFlip s ln).aplicS = s.aplicS ∧ (State.applyFlip s ln).aplicN = s.aplicN ∧ (State.applyFlip s ln).credits = s.credits ∧ (State.applyFlip s ln).clusters = s.clusters ∧ (State.applyFlip s ln).homes = s.homes ∧ (State.applyFlip s ln).pkts = s.pkts ∧ (State.applyFlip s ln).resp = s.resp ∧ (State.applyFlip s ln).wires = s.wires ∧ (State.applyFlip s ln).wq = s.wq ∧ (State.applyFlip s ln).net = s.net ∧ (State.applyFlip s ln).dbInval = s.dbInval ∧ (State.applyFlip s ln).watch = s.watch ∧ (State.applyFlip s ln).pkg = s.pkg ∧ (State.applyFlip s ln).pmc = s.pmc ∧ (State.applyFlip s ln).fwLog = s.fwLog ∧ (State.applyFlip s ln).out = s.out ∧ (State.applyFlip s ln).free = s.free ∧ (State.applyFlip s ln).fabric = s.fabric ∧ (State.applyFlip s ln).files = s.files := by
  generalize h : State.applyFlip s ln = u
  unfold State.applyFlip at h
  rw [← h]; simp [kept @State.setDmg_fr, kept @State.wr_fr, kept @State.wrs_fr]

theorem State.issueWrite_fr (s : State) (w : WqEntry) : (State.issueWrite s w).pending = s.pending ∧ (State.issueWrite s w).flash = s.flash ∧ (State.issueWrite s w).coldOpt = s.coldOpt ∧ (State.issueWrite s w).harts = s.harts ∧ (State.issueWrite s w).imsic = s.imsic ∧ (State.issueWrite s w).eng = s.eng ∧ (State.issueWrite s w).dm = s.dm ∧ (State.issueWrite s w).fx = s.fx ∧ (State.issueWrite s w).ctu = s.ctu ∧ (State.issueWrite s w).links = s.links ∧ (State.issueWrite s w).aplicS = s.aplicS ∧ (State.issueWrite s w).aplicN = s.aplicN ∧ (State.issueWrite s w).credits = s.credits ∧ (State.issueWrite s w).clusters = s.clusters ∧ (State.issueWrite s w).homes = s.homes ∧ (State.issueWrite s w).pkts = s.pkts ∧ (State.issueWrite s w).resp = s.resp ∧ (State.issueWrite s w).net = s.net ∧ (State.issueWrite s w).dbInval = s.dbInval ∧ (State.issueWrite s w).watch = s.watch ∧ (State.issueWrite s w).fwLog = s.fwLog ∧ (State.issueWrite s w).out = s.out ∧ (State.issueWrite s w).free = s.free ∧ (State.issueWrite s w).fabric = s.fabric ∧ (State.issueWrite s w).files = s.files := by
  generalize h : State.issueWrite s w = u
  unfold State.issueWrite at h
  (try dsimp only at h); (repeat' split at h) <;> rw [← h] <;> simp [kept @State.applyFlip_fr, kept @State.pmcMem_fr, kept @State.readMemLine_fr, kept @State.storeLine_fr, kept @State.wakeChannel_fr]

theorem State.readLineQ_fr (s : State) (ln : Nat) (src : Nat) : (State.readLineQ s ln src).2.pending = s.pending ∧ (State.readLineQ s ln src).2.flash = s.flash ∧ (State.readLineQ s ln src).2.coldOpt = s.coldOpt ∧ (State.readLineQ s ln src).2.mem = s.mem ∧ (State.readLineQ s ln src).2.harts = s.harts ∧ (State.readLineQ s ln src).2.imsic = s.imsic ∧ (State.readLineQ s ln src).2.eng = s.eng ∧ (State.readLineQ s ln src).2.dm = s.dm ∧ (State.readLineQ s ln src).2.fx = s.fx ∧ (State.readLineQ s ln src).2.ctu = s.ctu ∧ (State.readLineQ s ln src).2.links = s.links ∧ (State.readLineQ s ln src).2.aplicS = s.aplicS ∧ (State.readLineQ s ln src).2.aplicN = s.aplicN ∧ (State.readLineQ s ln src).2.credits = s.credits ∧ (State.readLineQ s ln src).2.clusters = s.clusters ∧ (State.readLineQ s ln src).2.homes = s.homes ∧ (State.readLineQ s ln src).2.pkts = s.pkts ∧ (State.readLineQ s ln src).2.resp = s.resp ∧ (State.readLineQ s ln src).2.dmg = s.dmg ∧ (State.readLineQ s ln src).2.net = s.net ∧ (State.readLineQ s ln src).2.dbInval = s.dbInval ∧ (State.readLineQ s ln src).2.watch = s.watch ∧ (State.readLineQ s ln src).2.fwLog = s.fwLog ∧ (State.readLineQ s ln src).2.out = s.out ∧ (State.readLineQ s ln src).2.free = s.free ∧ (State.readLineQ s ln src).2.fabric = s.fabric ∧ (State.readLineQ s ln src).2.files = s.files := by
  generalize h : (State.readLineQ s ln src).2 = u
  unfold State.readLineQ at h
  (try dsimp only at h); (repeat' split at h) <;> rw [← h] <;> simp [kept @State.readMemLine_fr]

theorem State.writeLineNow_fr (s : State) (w : WqEntry) : (State.writeLineNow s w).pending = s.pending ∧ (State.writeLineNow s w).flash = s.flash ∧ (State.writeLineNow s w).coldOpt = s.coldOpt ∧ (State.writeLineNow s w).harts = s.harts ∧ (State.writeLineNow s w).imsic = s.imsic ∧ (State.writeLineNow s w).eng = s.eng ∧ (State.writeLineNow s w).dm = s.dm ∧ (State.writeLineNow s w).fx = s.fx ∧ (State.writeLineNow s w).ctu = s.ctu ∧ (State.writeLineNow s w).links = s.links ∧ (State.writeLineNow s w).aplicS = s.aplicS ∧ (State.writeLineNow s w).aplicN = s.aplicN ∧ (State.writeLineNow s w).credits = s.credits ∧ (State.writeLineNow s w).clusters = s.clusters ∧ (State.writeLineNow s w).homes = s.homes ∧ (State.writeLineNow s w).pkts = s.pkts ∧ (State.writeLineNow s w).resp = s.resp ∧ (State.writeLineNow s w).net = s.net ∧ (State.writeLineNow s w).dbInval = s.dbInval ∧ (State.writeLineNow s w).watch = s.watch ∧ (State.writeLineNow s w).fwLog = s.fwLog ∧ (State.writeLineNow s w).out = s.out ∧ (State.writeLineNow s w).free = s.free ∧ (State.writeLineNow s w).fabric = s.fabric ∧ (State.writeLineNow s w).files = s.files := by
  generalize h : State.writeLineNow s w = u
  unfold State.writeLineNow at h
  rw [← h]; simp [kept @State.issueWrite_fr]

end Sys2Proof.Machine
end

