-- ==== Sys2Proof/Laws/Frame/HartBase.lean ====
section
/-! SUPPORT. What the operations of Machine/HartBase.lean leave unchanged. -/

set_option Elab.async false
set_option linter.all false

namespace Sys2Proof.Machine
open Sys2Proof

theorem State.setHart_fr (s : State) (hh : Nat) (x : Hart) : (State.setHart s hh x).pending = s.pending ∧ (State.setHart s hh x).flash = s.flash ∧ (State.setHart s hh x).coldOpt = s.coldOpt ∧ (State.setHart s hh x).mem = s.mem ∧ (State.setHart s hh x).mram = s.mram ∧ (State.setHart s hh x).imsic = s.imsic ∧ (State.setHart s hh x).eng = s.eng ∧ (State.setHart s hh x).dm = s.dm ∧ (State.setHart s hh x).fx = s.fx ∧ (State.setHart s hh x).ctu = s.ctu ∧ (State.setHart s hh x).links = s.links ∧ (State.setHart s hh x).aplicS = s.aplicS ∧ (State.setHart s hh x).aplicN = s.aplicN ∧ (State.setHart s hh x).credits = s.credits ∧ (State.setHart s hh x).clusters = s.clusters ∧ (State.setHart s hh x).homes = s.homes ∧ (State.setHart s hh x).pkts = s.pkts ∧ (State.setHart s hh x).resp = s.resp ∧ (State.setHart s hh x).regs = s.regs ∧ (State.setHart s hh x).wires = s.wires ∧ (State.setHart s hh x).dmg = s.dmg ∧ (State.setHart s hh x).wq = s.wq ∧ (State.setHart s hh x).net = s.net ∧ (State.setHart s hh x).dbInval = s.dbInval ∧ (State.setHart s hh x).watch = s.watch ∧ (State.setHart s hh x).pkg = s.pkg ∧ (State.setHart s hh x).pmc = s.pmc ∧ (State.setHart s hh x).fwLog = s.fwLog ∧ (State.setHart s hh x).out = s.out ∧ (State.setHart s hh x).free = s.free ∧ (State.setHart s hh x).fabric = s.fabric ∧ (State.setHart s hh x).files = s.files := by
  generalize h : State.setHart s hh x = u
  unfold State.setHart at h
  rw [← h]; simp

theorem State.setCluster_fr (s : State) (c : Nat) (x : Cluster) : (State.setCluster s c x).pending = s.pending ∧ (State.setCluster s c x).flash = s.flash ∧ (State.setCluster s c x).coldOpt = s.coldOpt ∧ (State.setCluster s c x).mem = s.mem ∧ (State.setCluster s c x).harts = s.harts ∧ (State.setCluster s c x).mram = s.mram ∧ (State.setCluster s c x).imsic = s.imsic ∧ (State.setCluster s c x).eng = s.eng ∧ (State.setCluster s c x).dm = s.dm ∧ (State.setCluster s c x).fx = s.fx ∧ (State.setCluster s c x).ctu = s.ctu ∧ (State.setCluster s c x).links = s.links ∧ (State.setCluster s c x).aplicS = s.aplicS ∧ (State.setCluster s c x).aplicN = s.aplicN ∧ (State.setCluster s c x).credits = s.credits ∧ (State.setCluster s c x).homes = s.homes ∧ (State.setCluster s c x).pkts = s.pkts ∧ (State.setCluster s c x).resp = s.resp ∧ (State.setCluster s c x).regs = s.regs ∧ (State.setCluster s c x).wires = s.wires ∧ (State.setCluster s c x).dmg = s.dmg ∧ (State.setCluster s c x).wq = s.wq ∧ (State.setCluster s c x).net = s.net ∧ (State.setCluster s c x).dbInval = s.dbInval ∧ (State.setCluster s c x).watch = s.watch ∧ (State.setCluster s c x).pkg = s.pkg ∧ (State.setCluster s c x).pmc = s.pmc ∧ (State.setCluster s c x).fwLog = s.fwLog ∧ (State.setCluster s c x).out = s.out ∧ (State.setCluster s c x).free = s.free ∧ (State.setCluster s c x).fabric = s.fabric ∧ (State.setCluster s c x).files = s.files := by
  generalize h : State.setCluster s c x = u
  unfold State.setCluster at h
  rw [← h]; simp

theorem State.setHome_fr (s : State) (t : Nat) (x : Home) : (State.setHome s t x).pending = s.pending ∧ (State.setHome s t x).flash = s.flash ∧ (State.setHome s t x).coldOpt = s.coldOpt ∧ (State.setHome s t x).mem = s.mem ∧ (State.setHome s t x).harts = s.harts ∧ (State.setHome s t x).mram = s.mram ∧ (State.setHome s t x).imsic = s.imsic ∧ (State.setHome s t x).eng = s.eng ∧ (State.setHome s t x).dm = s.dm ∧ (State.setHome s t x).fx = s.fx ∧ (State.setHome s t x).ctu = s.ctu ∧ (State.setHome s t x).links = s.links ∧ (State.setHome s t x).aplicS = s.aplicS ∧ (State.setHome s t x).aplicN = s.aplicN ∧ (State.setHome s t x).credits = s.credits ∧ (State.setHome s t x).clusters = s.clusters ∧ (State.setHome s t x).pkts = s.pkts ∧ (State.setHome s t x).resp = s.resp ∧ (State.setHome s t x).regs = s.regs ∧ (State.setHome s t x).wires = s.wires ∧ (State.setHome s t x).dmg = s.dmg ∧ (State.setHome s t x).wq = s.wq ∧ (State.setHome s t x).net = s.net ∧ (State.setHome s t x).dbInval = s.dbInval ∧ (State.setHome s t x).watch = s.watch ∧ (State.setHome s t x).pkg = s.pkg ∧ (State.setHome s t x).pmc = s.pmc ∧ (State.setHome s t x).fwLog = s.fwLog ∧ (State.setHome s t x).out = s.out ∧ (State.setHome s t x).free = s.free ∧ (State.setHome s t x).fabric = s.fabric ∧ (State.setHome s t x).files = s.files := by
  generalize h : State.setHome s t x = u
  unfold State.setHome at h
  rw [← h]; simp

theorem State.hev_fr (s : State) (hh : Nat) (code : Nat) : (State.hev s hh code).pending = s.pending ∧ (State.hev s hh code).flash = s.flash ∧ (State.hev s hh code).coldOpt = s.coldOpt ∧ (State.hev s hh code).mem = s.mem ∧ (State.hev s hh code).mram = s.mram ∧ (State.hev s hh code).imsic = s.imsic ∧ (State.hev s hh code).eng = s.eng ∧ (State.hev s hh code).dm = s.dm ∧ (State.hev s hh code).fx = s.fx ∧ (State.hev s hh code).ctu = s.ctu ∧ (State.hev s hh code).links = s.links ∧ (State.hev s hh code).aplicS = s.aplicS ∧ (State.hev s hh code).aplicN = s.aplicN ∧ (State.hev s hh code).credits = s.credits ∧ (State.hev s hh code).clusters = s.clusters ∧ (State.hev s hh code).homes = s.homes ∧ (State.hev s hh code).pkts = s.pkts ∧ (State.hev s hh code).resp = s.resp ∧ (State.hev s hh code).regs = s.regs ∧ (State.hev s hh code).wires = s.wires ∧ (State.hev s hh code).dmg = s.dmg ∧ (State.hev s hh code).wq = s.wq ∧ (State.hev s hh code).net = s.net ∧ (State.hev s hh code).dbInval = s.dbInval ∧ (State.hev s hh code).watch = s.watch ∧ (State.hev s hh code).pkg = s.pkg ∧ (State.hev s hh code).pmc = s.pmc ∧ (State.hev s hh code).fwLog = s.fwLog ∧ (State.hev s hh code).out = s.out ∧ (State.hev s hh code).free = s.free ∧ (State.hev s hh code).fabric = s.fabric ∧ (State.hev s hh code).files = s.files := by
  generalize h : State.hev s hh code = u
  unfold State.hev at h
  rw [← h]; simp [kept @State.setHart_fr]

theorem State.trap_fr (s : State) (hh : Nat) (cause : Nat) (tval : Nat) : (State.trap s hh cause tval).pending = s.pending ∧ (State.trap s hh cause tval).flash = s.flash ∧ (State.trap s hh cause tval).coldOpt = s.coldOpt ∧ (State.trap s hh cause tval).mem = s.mem ∧ (State.trap s hh cause tval).mram = s.mram ∧ (State.trap s hh cause tval).imsic = s.imsic ∧ (State.trap s hh cause tval).eng = s.eng ∧ (State.trap s hh cause tval).dm = s.dm ∧ (State.trap s hh cause tval).fx = s.fx ∧ (State.trap s hh cause tval).ctu = s.ctu ∧ (State.trap s hh cause tval).links = s.links ∧ (State.trap s hh cause tval).aplicS = s.aplicS ∧ (State.trap s hh cause tval).aplicN = s.aplicN ∧ (State.trap s hh cause tval).credits = s.credits ∧ (State.trap s hh cause tval).clusters = s.clusters ∧ (State.trap s hh cause tval).homes = s.homes ∧ (State.trap s hh cause tval).pkts = s.pkts ∧ (State.trap s hh cause tval).resp = s.resp ∧ (State.trap s hh cause tval).regs = s.regs ∧ (State.trap s hh cause tval).wires = s.wires ∧ (State.trap s hh cause tval).dmg = s.dmg ∧ (State.trap s hh cause tval).wq = s.wq ∧ (State.trap s hh cause tval).net = s.net ∧ (State.trap s hh cause tval).dbInval = s.dbInval ∧ (State.trap s hh cause tval).watch = s.watch ∧ (State.trap s hh cause tval).pkg = s.pkg ∧ (State.trap s hh cause tval).pmc = s.pmc ∧ (State.trap s hh cause tval).fwLog = s.fwLog ∧ (State.trap s hh cause tval).out = s.out ∧ (State.trap s hh cause tval).free = s.free ∧ (State.trap s hh cause tval).fabric = s.fabric ∧ (State.trap s hh cause tval).files = s.files := by
  generalize h : State.trap s hh cause tval = u
  unfold State.trap at h
  rw [← h]; simp [kept @State.setHart_fr]

theorem State.trapG_fr (s : State) (hh : Nat) (cause : Nat) (tval : Nat) (gpa : Nat) (walk : Bool) : (State.trapG s hh cause tval gpa walk).pending = s.pending ∧ (State.trapG s hh cause tval gpa walk).flash = s.flash ∧ (State.trapG s hh cause tval gpa walk).coldOpt = s.coldOpt ∧ (State.trapG s hh cause tval gpa walk).mem = s.mem ∧ (State.trapG s hh cause tval gpa walk).mram = s.mram ∧ (State.trapG s hh cause tval gpa walk).imsic = s.imsic ∧ (State.trapG s hh cause tval gpa walk).eng = s.eng ∧ (State.trapG s hh cause tval gpa walk).dm = s.dm ∧ (State.trapG s hh cause tval gpa walk).fx = s.fx ∧ (State.trapG s hh cause tval gpa walk).ctu = s.ctu ∧ (State.trapG s hh cause tval gpa walk).links = s.links ∧ (State.trapG s hh cause tval gpa walk).aplicS = s.aplicS ∧ (State.trapG s hh cause tval gpa walk).aplicN = s.aplicN ∧ (State.trapG s hh cause tval gpa walk).credits = s.credits ∧ (State.trapG s hh cause tval gpa walk).clusters = s.clusters ∧ (State.trapG s hh cause tval gpa walk).homes = s.homes ∧ (State.trapG s hh cause tval gpa walk).pkts = s.pkts ∧ (State.trapG s hh cause tval gpa walk).resp = s.resp ∧ (State.trapG s hh cause tval gpa walk).regs = s.regs ∧ (State.trapG s hh cause tval gpa walk).wires = s.wires ∧ (State.trapG s hh cause tval gpa walk).dmg = s.dmg ∧ (State.trapG s hh cause tval gpa walk).wq = s.wq ∧ (State.trapG s hh cause tval gpa walk).net = s.net ∧ (State.trapG s hh cause tval gpa walk).dbInval = s.dbInval ∧ (State.trapG s hh cause tval gpa walk).watch = s.watch ∧ (State.trapG s hh cause tval gpa walk).pkg = s.pkg ∧ (State.trapG s hh cause tval gpa walk).pmc = s.pmc ∧ (State.trapG s hh cause tval gpa walk).fwLog = s.fwLog ∧ (State.trapG s hh cause tval gpa walk).out = s.out ∧ (State.trapG s hh cause tval gpa walk).free = s.free ∧ (State.trapG s hh cause tval gpa walk).fabric = s.fabric ∧ (State.trapG s hh cause tval gpa walk).files = s.files := by
  generalize h : State.trapG s hh cause tval gpa walk = u
  unfold State.trapG at h
  (try dsimp only at h); (repeat' split at h) <;> rw [← h] <;> simp [kept @State.setHart_fr]

end Sys2Proof.Machine
end

