-- ==== Sys2Proof/Laws/Frame/Coherence.lean ====
section
/-! SUPPORT. What the operations of Machine/Coherence.lean leave unchanged. -/

set_option Elab.async false
set_option linter.all false

namespace Sys2Proof.Machine
open Sys2Proof

theorem State.lfsrPick_fr (s : State) (t : Nat) (n : Nat) : (State.lfsrPick s t n).2.pending = s.pending ∧ (State.lfsrPick s t n).2.flash = s.flash ∧ (State.lfsrPick s t n).2.coldOpt = s.coldOpt ∧ (State.lfsrPick s t n).2.mem = s.mem ∧ (State.lfsrPick s t n).2.harts = s.harts ∧ (State.lfsrPick s t n).2.mram = s.mram ∧ (State.lfsrPick s t n).2.imsic = s.imsic ∧ (State.lfsrPick s t n).2.eng = s.eng ∧ (State.lfsrPick s t n).2.dm = s.dm ∧ (State.lfsrPick s t n).2.fx = s.fx ∧ (State.lfsrPick s t n).2.ctu = s.ctu ∧ (State.lfsrPick s t n).2.links = s.links ∧ (State.lfsrPick s t n).2.aplicS = s.aplicS ∧ (State.lfsrPick s t n).2.aplicN = s.aplicN ∧ (State.lfsrPick s t n).2.credits = s.credits ∧ (State.lfsrPick s t n).2.clusters = s.clusters ∧ (State.lfsrPick s t n).2.homes = s.homes ∧ (State.lfsrPick s t n).2.pkts = s.pkts ∧ (State.lfsrPick s t n).2.resp = s.resp ∧ (State.lfsrPick s t n).2.wires = s.wires ∧ (State.lfsrPick s t n).2.dmg = s.dmg ∧ (State.lfsrPick s t n).2.wq = s.wq ∧ (State.lfsrPick s t n).2.net = s.net ∧ (State.lfsrPick s t n).2.dbInval = s.dbInval ∧ (State.lfsrPick s t n).2.watch = s.watch ∧ (State.lfsrPick s t n).2.pkg = s.pkg ∧ (State.lfsrPick s t n).2.pmc = s.pmc ∧ (State.lfsrPick s t n).2.fwLog = s.fwLog ∧ (State.lfsrPick s t n).2.out = s.out ∧ (State.lfsrPick s t n).2.free = s.free ∧ (State.lfsrPick s t n).2.fabric = s.fabric ∧ (State.lfsrPick s t n).2.files = s.files := by
  generalize h : (State.lfsrPick s t n).2 = u
  unfold State.lfsrPick at h
  rw [← h]; simp [kept @State.wr_fr]

theorem State.memWr_fr (s : State) (ln : Nat) (d : LineData) (who : Option Ident) : (State.memWr s ln d who).pending = s.pending ∧ (State.memWr s ln d who).flash = s.flash ∧ (State.memWr s ln d who).coldOpt = s.coldOpt ∧ (State.memWr s ln d who).mem = s.mem ∧ (State.memWr s ln d who).harts = s.harts ∧ (State.memWr s ln d who).mram = s.mram ∧ (State.memWr s ln d who).imsic = s.imsic ∧ (State.memWr s ln d who).eng = s.eng ∧ (State.memWr s ln d who).dm = s.dm ∧ (State.memWr s ln d who).fx = s.fx ∧ (State.memWr s ln d who).ctu = s.ctu ∧ (State.memWr s ln d who).links = s.links ∧ (State.memWr s ln d who).aplicS = s.aplicS ∧ (State.memWr s ln d who).aplicN = s.aplicN ∧ (State.memWr s ln d who).credits = s.credits ∧ (State.memWr s ln d who).clusters = s.clusters ∧ (State.memWr s ln d who).homes = s.homes ∧ (State.memWr s ln d who).pkts = s.pkts ∧ (State.memWr s ln d who).resp = s.resp ∧ (State.memWr s ln d who).regs = s.regs ∧ (State.memWr s ln d who).wires = s.wires ∧ (State.memWr s ln d who).dmg = s.dmg ∧ (State.memWr s ln d who).net = s.net ∧ (State.memWr s ln d who).dbInval = s.dbInval ∧ (State.memWr s ln d who).watch = s.watch ∧ (State.memWr s ln d who).pkg = s.pkg ∧ (State.memWr s ln d who).pmc = s.pmc ∧ (State.memWr s ln d who).fwLog = s.fwLog ∧ (State.memWr s ln d who).out = s.out ∧ (State.memWr s ln d who).free = s.free ∧ (State.memWr s ln d who).fabric = s.fabric ∧ (State.memWr s ln d who).files = s.files := by
  generalize h : State.memWr s ln d who = u
  unfold State.memWr at h
  (try dsimp only at h); (repeat' split at h) <;> rw [← h] <;> simp [kept @State.queueWrite_fr]

theorem State.l3Alloc_fr (s : State) (t : Nat) (ln : Nat) (d : LineData) (dirty : Bool) (pid : Nat) (who : Option Ident) : (State.l3Alloc s t ln d dirty pid who).pending = s.pending ∧ (State.l3Alloc s t ln d dirty pid who).flash = s.flash ∧ (State.l3Alloc s t ln d dirty pid who).coldOpt = s.coldOpt ∧ (State.l3Alloc s t ln d dirty pid who).mem = s.mem ∧ (State.l3Alloc s t ln d dirty pid who).harts = s.harts ∧ (State.l3Alloc s t ln d dirty pid who).mram = s.mram ∧ (State.l3Alloc s t ln d dirty pid who).imsic = s.imsic ∧ (State.l3Alloc s t ln d dirty pid who).eng = s.eng ∧ (State.l3Alloc s t ln d dirty pid who).dm = s.dm ∧ (State.l3Alloc s t ln d dirty pid who).fx = s.fx ∧ (State.l3Alloc s t ln d dirty pid who).ctu = s.ctu ∧ (State.l3Alloc s t ln d dirty pid who).links = s.links ∧ (State.l3Alloc s t ln d dirty pid who).aplicS = s.aplicS ∧ (State.l3Alloc s t ln d dirty pid who).aplicN = s.aplicN ∧ (State.l3Alloc s t ln d dirty pid who).credits = s.credits ∧ (State.l3Alloc s t ln d dirty pid who).clusters = s.clusters ∧ (State.l3Alloc s t ln d dirty pid who).pkts = s.pkts ∧ (State.l3Alloc s t ln d dirty pid who).resp = s.resp ∧ (State.l3Alloc s t ln d dirty pid who).wires = s.wires ∧ (State.l3Alloc s t ln d dirty pid who).dmg = s.dmg ∧ (State.l3Alloc s t ln d dirty pid who).net = s.net ∧ (State.l3Alloc s t ln d dirty pid who).dbInval = s.dbInval ∧ (State.l3Alloc s t ln d dirty pid who).watch = s.watch ∧ (State.l3Alloc s t ln d dirty pid who).pkg = s.pkg ∧ (State.l3Alloc s t ln d dirty pid who).pmc = s.pmc ∧ (State.l3Alloc s t ln d dirty pid who).fwLog = s.fwLog ∧ (State.l3Alloc s t ln d dirty pid who).out = s.out ∧ (State.l3Alloc s t ln d dirty pid who).free = s.free ∧ (State.l3Alloc s t ln d dirty pid who).fabric = s.fabric ∧ (State.l3Alloc s t ln d dirty pid who).files = s.files := by
  generalize h : State.l3Alloc s t ln d dirty pid who = u
  unfold State.l3Alloc at h
  (try dsimp only at h); (repeat' split at h) <;> rw [← h] <;> simp [kept @State.lfsrPick_fr, kept @State.memWr_fr, kept @State.setHome_fr]

theorem State.l3Take_fr (s : State) (t : Nat) (ln : Nat) : (State.l3Take s t ln).pending = s.pending ∧ (State.l3Take s t ln).flash = s.flash ∧ (State.l3Take s t ln).coldOpt = s.coldOpt ∧ (State.l3Take s t ln).mem = s.mem ∧ (State.l3Take s t ln).harts = s.harts ∧ (State.l3Take s t ln).mram = s.mram ∧ (State.l3Take s t ln).imsic = s.imsic ∧ (State.l3Take s t ln).eng = s.eng ∧ (State.l3Take s t ln).dm = s.dm ∧ (State.l3Take s t ln).fx = s.fx ∧ (State.l3Take s t ln).ctu = s.ctu ∧ (State.l3Take s t ln).links = s.links ∧ (State.l3Take s t ln).aplicS = s.aplicS ∧ (State.l3Take s t ln).aplicN = s.aplicN ∧ (State.l3Take s t ln).credits = s.credits ∧ (State.l3Take s t ln).clusters = s.clusters ∧ (State.l3Take s t ln).pkts = s.pkts ∧ (State.l3Take s t ln).resp = s.resp ∧ (State.l3Take s t ln).wires = s.wires ∧ (State.l3Take s t ln).dmg = s.dmg ∧ (State.l3Take s t ln).wq = s.wq ∧ (State.l3Take s t ln).net = s.net ∧ (State.l3Take s t ln).dbInval = s.dbInval ∧ (State.l3Take s t ln).watch = s.watch ∧ (State.l3Take s t ln).pkg = s.pkg ∧ (State.l3Take s t ln).pmc = s.pmc ∧ (State.l3Take s t ln).fwLog = s.fwLog ∧ (State.l3Take s t ln).out = s.out ∧ (State.l3Take s t ln).free = s.free ∧ (State.l3Take s t ln).fabric = s.fabric ∧ (State.l3Take s t ln).files = s.files := by
  generalize h : State.l3Take s t ln = u
  unfold State.l3Take at h
  (try dsimp only at h); (repeat' split at h) <;> rw [← h] <;> simp [kept @State.setHome_fr, kept @State.wr_fr, kept @State.wrs_fr]

theorem State.l3Clean_fr (s : State) (t : Nat) (ln : Nat) (who : Option Ident) : (State.l3Clean s t ln who).pending = s.pending ∧ (State.l3Clean s t ln who).flash = s.flash ∧ (State.l3Clean s t ln who).coldOpt = s.coldOpt ∧ (State.l3Clean s t ln who).mem = s.mem ∧ (State.l3Clean s t ln who).harts = s.harts ∧ (State.l3Clean s t ln who).mram = s.mram ∧ (State.l3Clean s t ln who).imsic = s.imsic ∧ (State.l3Clean s t ln who).eng = s.eng ∧ (State.l3Clean s t ln who).dm = s.dm ∧ (State.l3Clean s t ln who).fx = s.fx ∧ (State.l3Clean s t ln who).ctu = s.ctu ∧ (State.l3Clean s t ln who).links = s.links ∧ (State.l3Clean s t ln who).aplicS = s.aplicS ∧ (State.l3Clean s t ln who).aplicN = s.aplicN ∧ (State.l3Clean s t ln who).credits = s.credits ∧ (State.l3Clean s t ln who).clusters = s.clusters ∧ (State.l3Clean s t ln who).pkts = s.pkts ∧ (State.l3Clean s t ln who).resp = s.resp ∧ (State.l3Clean s t ln who).regs = s.regs ∧ (State.l3Clean s t ln who).wires = s.wires ∧ (State.l3Clean s t ln who).dmg = s.dmg ∧ (State.l3Clean s t ln who).net = s.net ∧ (State.l3Clean s t ln who).dbInval = s.dbInval ∧ (State.l3Clean s t ln who).watch = s.watch ∧ (State.l3Clean s t ln who).pkg = s.pkg ∧ (State.l3Clean s t ln who).pmc = s.pmc ∧ (State.l3Clean s t ln who).fwLog = s.fwLog ∧ (State.l3Clean s t ln who).out = s.out ∧ (State.l3Clean s t ln who).free = s.free ∧ (State.l3Clean s t ln who).fabric = s.fabric ∧ (State.l3Clean s t ln who).files = s.files := by
  generalize h : State.l3Clean s t ln who = u
  unfold State.l3Clean at h
  (try dsimp only at h); (repeat' split at h) <;> rw [← h] <;> simp [kept @State.memWr_fr, kept @State.setHome_fr]

theorem State.post_fr (s : State) (m : Msg) : (State.post s m).pending = s.pending ∧ (State.post s m).flash = s.flash ∧ (State.post s m).coldOpt = s.coldOpt ∧ (State.post s m).mem = s.mem ∧ (State.post s m).harts = s.harts ∧ (State.post s m).mram = s.mram ∧ (State.post s m).imsic = s.imsic ∧ (State.post s m).eng = s.eng ∧ (State.post s m).dm = s.dm ∧ (State.post s m).fx = s.fx ∧ (State.post s m).ctu = s.ctu ∧ (State.post s m).links = s.links ∧ (State.post s m).aplicS = s.aplicS ∧ (State.post s m).aplicN = s.aplicN ∧ (State.post s m).credits = s.credits ∧ (State.post s m).clusters = s.clusters ∧ (State.post s m).homes = s.homes ∧ (State.post s m).pkts = s.pkts ∧ (State.post s m).resp = s.resp ∧ (State.post s m).regs = s.regs ∧ (State.post s m).wires = s.wires ∧ (State.post s m).dmg = s.dmg ∧ (State.post s m).wq = s.wq ∧ (State.post s m).dbInval = s.dbInval ∧ (State.post s m).watch = s.watch ∧ (State.post s m).pkg = s.pkg ∧ (State.post s m).pmc = s.pmc ∧ (State.post s m).fwLog = s.fwLog ∧ (State.post s m).out = s.out ∧ (State.post s m).free = s.free ∧ (State.post s m).fabric = s.fabric ∧ (State.post s m).files = s.files := by
  generalize h : State.post s m = u
  unfold State.post at h
  rw [← h]; simp

@[simp] theorem State.onMsgs_pending (s : State) (q p : Msg → Bool) (f : Msg → State → State) (hf : ∀ m s, (f m s).pending = s.pending) :
    (s.onMsgs q p f).pending = s.pending := by
  unfold State.onMsgs
  split
  · rfl
  · exact hf _ _

@[simp] theorem State.onMsgs_files (s : State) (q p : Msg → Bool) (f : Msg → State → State) (hf : ∀ m s, (f m s).files = s.files) :
    (s.onMsgs q p f).files = s.files := by
  unfold State.onMsgs
  split
  · rfl
  · exact hf _ _

@[simp] theorem State.onMsgs_fabric (s : State) (q p : Msg → Bool) (f : Msg → State → State) (hf : ∀ m s, (f m s).fabric = s.fabric) :
    (s.onMsgs q p f).fabric = s.fabric := by
  unfold State.onMsgs
  split
  · rfl
  · exact hf _ _

@[simp] theorem State.onMsgs_flash (s : State) (q p : Msg → Bool) (f : Msg → State → State) (hf : ∀ m s, (f m s).flash = s.flash) :
    (s.onMsgs q p f).flash = s.flash := by
  unfold State.onMsgs
  split
  · rfl
  · exact hf _ _

@[simp] theorem State.onMsgs_coldOpt (s : State) (q p : Msg → Bool) (f : Msg → State → State) (hf : ∀ m s, (f m s).coldOpt = s.coldOpt) :
    (s.onMsgs q p f).coldOpt = s.coldOpt := by
  unfold State.onMsgs
  split
  · rfl
  · exact hf _ _

@[simp] theorem State.onMsgs_mem (s : State) (q p : Msg → Bool) (f : Msg → State → State) (hf : ∀ m s, (f m s).mem = s.mem) :
    (s.onMsgs q p f).mem = s.mem := by
  unfold State.onMsgs
  split
  · rfl
  · exact hf _ _

@[simp] theorem State.onMsgs_harts (s : State) (q p : Msg → Bool) (f : Msg → State → State) (hf : ∀ m s, (f m s).harts = s.harts) :
    (s.onMsgs q p f).harts = s.harts := by
  unfold State.onMsgs
  split
  · rfl
  · exact hf _ _

@[simp] theorem State.onMsgs_mram (s : State) (q p : Msg → Bool) (f : Msg → State → State) (hf : ∀ m s, (f m s).mram = s.mram) :
    (s.onMsgs q p f).mram = s.mram := by
  unfold State.onMsgs
  split
  · rfl
  · exact hf _ _

@[simp] theorem State.onMsgs_imsic (s : State) (q p : Msg → Bool) (f : Msg → State → State) (hf : ∀ m s, (f m s).imsic = s.imsic) :
    (s.onMsgs q p f).imsic = s.imsic := by
  unfold State.onMsgs
  split
  · rfl
  · exact hf _ _

@[simp] theorem State.onMsgs_eng (s : State) (q p : Msg → Bool) (f : Msg → State → State) (hf : ∀ m s, (f m s).eng = s.eng) :
    (s.onMsgs q p f).eng = s.eng := by
  unfold State.onMsgs
  split
  · rfl
  · exact hf _ _

@[simp] theorem State.onMsgs_dm (s : State) (q p : Msg → Bool) (f : Msg → State → State) (hf : ∀ m s, (f m s).dm = s.dm) :
    (s.onMsgs q p f).dm = s.dm := by
  unfold State.onMsgs
  split
  · rfl
  · exact hf _ _

@[simp] theorem State.onMsgs_fx (s : State) (q p : Msg → Bool) (f : Msg → State → State) (hf : ∀ m s, (f m s).fx = s.fx) :
    (s.onMsgs q p f).fx = s.fx := by
  unfold State.onMsgs
  split
  · rfl
  · exact hf _ _

@[simp] theorem State.onMsgs_ctu (s : State) (q p : Msg → Bool) (f : Msg → State → State) (hf : ∀ m s, (f m s).ctu = s.ctu) :
    (s.onMsgs q p f).ctu = s.ctu := by
  unfold State.onMsgs
  split
  · rfl
  · exact hf _ _

@[simp] theorem State.onMsgs_links (s : State) (q p : Msg → Bool) (f : Msg → State → State) (hf : ∀ m s, (f m s).links = s.links) :
    (s.onMsgs q p f).links = s.links := by
  unfold State.onMsgs
  split
  · rfl
  · exact hf _ _

@[simp] theorem State.onMsgs_aplicS (s : State) (q p : Msg → Bool) (f : Msg → State → State) (hf : ∀ m s, (f m s).aplicS = s.aplicS) :
    (s.onMsgs q p f).aplicS = s.aplicS := by
  unfold State.onMsgs
  split
  · rfl
  · exact hf _ _

@[simp] theorem State.onMsgs_aplicN (s : State) (q p : Msg → Bool) (f : Msg → State → State) (hf : ∀ m s, (f m s).aplicN = s.aplicN) :
    (s.onMsgs q p f).aplicN = s.aplicN := by
  unfold State.onMsgs
  split
  · rfl
  · exact hf _ _

@[simp] theorem State.onMsgs_credits (s : State) (q p : Msg → Bool) (f : Msg → State → State) (hf : ∀ m s, (f m s).credits = s.credits) :
    (s.onMsgs q p f).credits = s.credits := by
  unfold State.onMsgs
  split
  · rfl
  · exact hf _ _

@[simp] theorem State.onMsgs_clusters (s : State) (q p : Msg → Bool) (f : Msg → State → State) (hf : ∀ m s, (f m s).clusters = s.clusters) :
    (s.onMsgs q p f).clusters = s.clusters := by
  unfold State.onMsgs
  split
  · rfl
  · exact hf _ _

@[simp] theorem State.onMsgs_homes (s : State) (q p : Msg → Bool) (f : Msg → State → State) (hf : ∀ m s, (f m s).homes = s.homes) :
    (s.onMsgs q p f).homes = s.homes := by
  unfold State.onMsgs
  split
  · rfl
  · exact hf _ _

@[simp] theorem State.onMsgs_pkts (s : State) (q p : Msg → Bool) (f : Msg → State → State) (hf : ∀ m s, (f m s).pkts = s.pkts) :
    (s.onMsgs q p f).pkts = s.pkts := by
  unfold State.onMsgs
  split
  · rfl
  · exact hf _ _

@[simp] theorem State.onMsgs_resp (s : State) (q p : Msg → Bool) (f : Msg → State → State) (hf : ∀ m s, (f m s).resp = s.resp) :
    (s.onMsgs q p f).resp = s.resp := by
  unfold State.onMsgs
  split
  · rfl
  · exact hf _ _

@[simp] theorem State.onMsgs_regs (s : State) (q p : Msg → Bool) (f : Msg → State → State) (hf : ∀ m s, (f m s).regs = s.regs) :
    (s.onMsgs q p f).regs = s.regs := by
  unfold State.onMsgs
  split
  · rfl
  · exact hf _ _

@[simp] theorem State.onMsgs_wires (s : State) (q p : Msg → Bool) (f : Msg → State → State) (hf : ∀ m s, (f m s).wires = s.wires) :
    (s.onMsgs q p f).wires = s.wires := by
  unfold State.onMsgs
  split
  · rfl
  · exact hf _ _

@[simp] theorem State.onMsgs_dmg (s : State) (q p : Msg → Bool) (f : Msg → State → State) (hf : ∀ m s, (f m s).dmg = s.dmg) :
    (s.onMsgs q p f).dmg = s.dmg := by
  unfold State.onMsgs
  split
  · rfl
  · exact hf _ _

@[simp] theorem State.onMsgs_wq (s : State) (q p : Msg → Bool) (f : Msg → State → State) (hf : ∀ m s, (f m s).wq = s.wq) :
    (s.onMsgs q p f).wq = s.wq := by
  unfold State.onMsgs
  split
  · rfl
  · exact hf _ _

@[simp] theorem State.onMsgs_dbInval (s : State) (q p : Msg → Bool) (f : Msg → State → State) (hf : ∀ m s, (f m s).dbInval = s.dbInval) :
    (s.onMsgs q p f).dbInval = s.dbInval := by
  unfold State.onMsgs
  split
  · rfl
  · exact hf _ _

@[simp] theorem State.onMsgs_watch (s : State) (q p : Msg → Bool) (f : Msg → State → State) (hf : ∀ m s, (f m s).watch = s.watch) :
    (s.onMsgs q p f).watch = s.watch := by
  unfold State.onMsgs
  split
  · rfl
  · exact hf _ _

@[simp] theorem State.onMsgs_pkg (s : State) (q p : Msg → Bool) (f : Msg → State → State) (hf : ∀ m s, (f m s).pkg = s.pkg) :
    (s.onMsgs q p f).pkg = s.pkg := by
  unfold State.onMsgs
  split
  · rfl
  · exact hf _ _

@[simp] theorem State.onMsgs_pmc (s : State) (q p : Msg → Bool) (f : Msg → State → State) (hf : ∀ m s, (f m s).pmc = s.pmc) :
    (s.onMsgs q p f).pmc = s.pmc := by
  unfold State.onMsgs
  split
  · rfl
  · exact hf _ _

@[simp] theorem State.onMsgs_fwLog (s : State) (q p : Msg → Bool) (f : Msg → State → State) (hf : ∀ m s, (f m s).fwLog = s.fwLog) :
    (s.onMsgs q p f).fwLog = s.fwLog := by
  unfold State.onMsgs
  split
  · rfl
  · exact hf _ _

@[simp] theorem State.onMsgs_out (s : State) (q p : Msg → Bool) (f : Msg → State → State) (hf : ∀ m s, (f m s).out = s.out) :
    (s.onMsgs q p f).out = s.out := by
  unfold State.onMsgs
  split
  · rfl
  · exact hf _ _

@[simp] theorem State.onMsgs_free (s : State) (q p : Msg → Bool) (f : Msg → State → State) (hf : ∀ m s, (f m s).free = s.free) :
    (s.onMsgs q p f).free = s.free := by
  unfold State.onMsgs
  split
  · rfl
  · exact hf _ _

@[simp] theorem State.onMsg_pending (s : State) (p : Msg → Bool) (f : Msg → State → State) (hf : ∀ m s, (f m s).pending = s.pending) :
    (s.onMsg p f).pending = s.pending := State.onMsgs_pending s _ p f hf

@[simp] theorem State.onMsg_files (s : State) (p : Msg → Bool) (f : Msg → State → State) (hf : ∀ m s, (f m s).files = s.files) :
    (s.onMsg p f).files = s.files := State.onMsgs_files s _ p f hf

@[simp] theorem State.onMsg_fabric (s : State) (p : Msg → Bool) (f : Msg → State → State) (hf : ∀ m s, (f m s).fabric = s.fabric) :
    (s.onMsg p f).fabric = s.fabric := State.onMsgs_fabric s _ p f hf

@[simp] theorem State.onMsg_flash (s : State) (p : Msg → Bool) (f : Msg → State → State) (hf : ∀ m s, (f m s).flash = s.flash) :
    (s.onMsg p f).flash = s.flash := State.onMsgs_flash s _ p f hf

@[simp] theorem State.onMsg_coldOpt (s : State) (p : Msg → Bool) (f : Msg → State → State) (hf : ∀ m s, (f m s).coldOpt = s.coldOpt) :
    (s.onMsg p f).coldOpt = s.coldOpt := State.onMsgs_coldOpt s _ p f hf

@[simp] theorem State.onMsg_mem (s : State) (p : Msg → Bool) (f : Msg → State → State) (hf : ∀ m s, (f m s).mem = s.mem) :
    (s.onMsg p f).mem = s.mem := State.onMsgs_mem s _ p f hf

@[simp] theorem State.onMsg_harts (s : State) (p : Msg → Bool) (f : Msg → State → State) (hf : ∀ m s, (f m s).harts = s.harts) :
    (s.onMsg p f).harts = s.harts := State.onMsgs_harts s _ p f hf

@[simp] theorem State.onMsg_mram (s : State) (p : Msg → Bool) (f : Msg → State → State) (hf : ∀ m s, (f m s).mram = s.mram) :
    (s.onMsg p f).mram = s.mram := State.onMsgs_mram s _ p f hf

@[simp] theorem State.onMsg_imsic (s : State) (p : Msg → Bool) (f : Msg → State → State) (hf : ∀ m s, (f m s).imsic = s.imsic) :
    (s.onMsg p f).imsic = s.imsic := State.onMsgs_imsic s _ p f hf

@[simp] theorem State.onMsg_eng (s : State) (p : Msg → Bool) (f : Msg → State → State) (hf : ∀ m s, (f m s).eng = s.eng) :
    (s.onMsg p f).eng = s.eng := State.onMsgs_eng s _ p f hf

@[simp] theorem State.onMsg_dm (s : State) (p : Msg → Bool) (f : Msg → State → State) (hf : ∀ m s, (f m s).dm = s.dm) :
    (s.onMsg p f).dm = s.dm := State.onMsgs_dm s _ p f hf

@[simp] theorem State.onMsg_fx (s : State) (p : Msg → Bool) (f : Msg → State → State) (hf : ∀ m s, (f m s).fx = s.fx) :
    (s.onMsg p f).fx = s.fx := State.onMsgs_fx s _ p f hf

@[simp] theorem State.onMsg_ctu (s : State) (p : Msg → Bool) (f : Msg → State → State) (hf : ∀ m s, (f m s).ctu = s.ctu) :
    (s.onMsg p f).ctu = s.ctu := State.onMsgs_ctu s _ p f hf

@[simp] theorem State.onMsg_links (s : State) (p : Msg → Bool) (f : Msg → State → State) (hf : ∀ m s, (f m s).links = s.links) :
    (s.onMsg p f).links = s.links := State.onMsgs_links s _ p f hf

@[simp] theorem State.onMsg_aplicS (s : State) (p : Msg → Bool) (f : Msg → State → State) (hf : ∀ m s, (f m s).aplicS = s.aplicS) :
    (s.onMsg p f).aplicS = s.aplicS := State.onMsgs_aplicS s _ p f hf

@[simp] theorem State.onMsg_aplicN (s : State) (p : Msg → Bool) (f : Msg → State → State) (hf : ∀ m s, (f m s).aplicN = s.aplicN) :
    (s.onMsg p f).aplicN = s.aplicN := State.onMsgs_aplicN s _ p f hf

@[simp] theorem State.onMsg_credits (s : State) (p : Msg → Bool) (f : Msg → State → State) (hf : ∀ m s, (f m s).credits = s.credits) :
    (s.onMsg p f).credits = s.credits := State.onMsgs_credits s _ p f hf

@[simp] theorem State.onMsg_clusters (s : State) (p : Msg → Bool) (f : Msg → State → State) (hf : ∀ m s, (f m s).clusters = s.clusters) :
    (s.onMsg p f).clusters = s.clusters := State.onMsgs_clusters s _ p f hf

@[simp] theorem State.onMsg_homes (s : State) (p : Msg → Bool) (f : Msg → State → State) (hf : ∀ m s, (f m s).homes = s.homes) :
    (s.onMsg p f).homes = s.homes := State.onMsgs_homes s _ p f hf

@[simp] theorem State.onMsg_pkts (s : State) (p : Msg → Bool) (f : Msg → State → State) (hf : ∀ m s, (f m s).pkts = s.pkts) :
    (s.onMsg p f).pkts = s.pkts := State.onMsgs_pkts s _ p f hf

@[simp] theorem State.onMsg_resp (s : State) (p : Msg → Bool) (f : Msg → State → State) (hf : ∀ m s, (f m s).resp = s.resp) :
    (s.onMsg p f).resp = s.resp := State.onMsgs_resp s _ p f hf

@[simp] theorem State.onMsg_regs (s : State) (p : Msg → Bool) (f : Msg → State → State) (hf : ∀ m s, (f m s).regs = s.regs) :
    (s.onMsg p f).regs = s.regs := State.onMsgs_regs s _ p f hf

@[simp] theorem State.onMsg_wires (s : State) (p : Msg → Bool) (f : Msg → State → State) (hf : ∀ m s, (f m s).wires = s.wires) :
    (s.onMsg p f).wires = s.wires := State.onMsgs_wires s _ p f hf

@[simp] theorem State.onMsg_dmg (s : State) (p : Msg → Bool) (f : Msg → State → State) (hf : ∀ m s, (f m s).dmg = s.dmg) :
    (s.onMsg p f).dmg = s.dmg := State.onMsgs_dmg s _ p f hf

@[simp] theorem State.onMsg_wq (s : State) (p : Msg → Bool) (f : Msg → State → State) (hf : ∀ m s, (f m s).wq = s.wq) :
    (s.onMsg p f).wq = s.wq := State.onMsgs_wq s _ p f hf

@[simp] theorem State.onMsg_dbInval (s : State) (p : Msg → Bool) (f : Msg → State → State) (hf : ∀ m s, (f m s).dbInval = s.dbInval) :
    (s.onMsg p f).dbInval = s.dbInval := State.onMsgs_dbInval s _ p f hf

@[simp] theorem State.onMsg_watch (s : State) (p : Msg → Bool) (f : Msg → State → State) (hf : ∀ m s, (f m s).watch = s.watch) :
    (s.onMsg p f).watch = s.watch := State.onMsgs_watch s _ p f hf

@[simp] theorem State.onMsg_pkg (s : State) (p : Msg → Bool) (f : Msg → State → State) (hf : ∀ m s, (f m s).pkg = s.pkg) :
    (s.onMsg p f).pkg = s.pkg := State.onMsgs_pkg s _ p f hf

@[simp] theorem State.onMsg_pmc (s : State) (p : Msg → Bool) (f : Msg → State → State) (hf : ∀ m s, (f m s).pmc = s.pmc) :
    (s.onMsg p f).pmc = s.pmc := State.onMsgs_pmc s _ p f hf

@[simp] theorem State.onMsg_fwLog (s : State) (p : Msg → Bool) (f : Msg → State → State) (hf : ∀ m s, (f m s).fwLog = s.fwLog) :
    (s.onMsg p f).fwLog = s.fwLog := State.onMsgs_fwLog s _ p f hf

@[simp] theorem State.onMsg_out (s : State) (p : Msg → Bool) (f : Msg → State → State) (hf : ∀ m s, (f m s).out = s.out) :
    (s.onMsg p f).out = s.out := State.onMsgs_out s _ p f hf

@[simp] theorem State.onMsg_free (s : State) (p : Msg → Bool) (f : Msg → State → State) (hf : ∀ m s, (f m s).free = s.free) :
    (s.onMsg p f).free = s.free := State.onMsgs_free s _ p f hf

theorem State.reply_fr (s : State) (t : Nat) (r : HReq) (k : MKind) (d : LineData) : (State.reply s t r k d).pending = s.pending ∧ (State.reply s t r k d).flash = s.flash ∧ (State.reply s t r k d).coldOpt = s.coldOpt ∧ (State.reply s t r k d).mem = s.mem ∧ (State.reply s t r k d).harts = s.harts ∧ (State.reply s t r k d).mram = s.mram ∧ (State.reply s t r k d).imsic = s.imsic ∧ (State.reply s t r k d).eng = s.eng ∧ (State.reply s t r k d).dm = s.dm ∧ (State.reply s t r k d).fx = s.fx ∧ (State.reply s t r k d).ctu = s.ctu ∧ (State.reply s t r k d).links = s.links ∧ (State.reply s t r k d).aplicS = s.aplicS ∧ (State.reply s t r k d).aplicN = s.aplicN ∧ (State.reply s t r k d).credits = s.credits ∧ (State.reply s t r k d).clusters = s.clusters ∧ (State.reply s t r k d).homes = s.homes ∧ (State.reply s t r k d).pkts = s.pkts ∧ (State.reply s t r k d).resp = s.resp ∧ (State.reply s t r k d).regs = s.regs ∧ (State.reply s t r k d).wires = s.wires ∧ (State.reply s t r k d).dmg = s.dmg ∧ (State.reply s t r k d).wq = s.wq ∧ (State.reply s t r k d).dbInval = s.dbInval ∧ (State.reply s t r k d).watch = s.watch ∧ (State.reply s t r k d).pkg = s.pkg ∧ (State.reply s t r k d).pmc = s.pmc ∧ (State.reply s t r k d).fwLog = s.fwLog ∧ (State.reply s t r k d).out = s.out ∧ (State.reply s t r k d).free = s.free ∧ (State.reply s t r k d).fabric = s.fabric ∧ (State.reply s t r k d).files = s.files := by
  generalize h : State.reply s t r k d = u
  unfold State.reply at h
  rw [← h]; simp [kept @State.post_fr]

theorem State.dirPut_fr (s : State) (t : Nat) (ln : Nat) (x : Bool) (ptrs : List Nat) (ovf : Bool) (way : Nat) : (State.dirPut s t ln x ptrs ovf way).pending = s.pending ∧ (State.dirPut s t ln x ptrs ovf way).flash = s.flash ∧ (State.dirPut s t ln x ptrs ovf way).coldOpt = s.coldOpt ∧ (State.dirPut s t ln x ptrs ovf way).mem = s.mem ∧ (State.dirPut s t ln x ptrs ovf way).harts = s.harts ∧ (State.dirPut s t ln x ptrs ovf way).mram = s.mram ∧ (State.dirPut s t ln x ptrs ovf way).imsic = s.imsic ∧ (State.dirPut s t ln x ptrs ovf way).eng = s.eng ∧ (State.dirPut s t ln x ptrs ovf way).dm = s.dm ∧ (State.dirPut s t ln x ptrs ovf way).fx = s.fx ∧ (State.dirPut s t ln x ptrs ovf way).ctu = s.ctu ∧ (State.dirPut s t ln x ptrs ovf way).links = s.links ∧ (State.dirPut s t ln x ptrs ovf way).aplicS = s.aplicS ∧ (State.dirPut s t ln x ptrs ovf way).aplicN = s.aplicN ∧ (State.dirPut s t ln x ptrs ovf way).credits = s.credits ∧ (State.dirPut s t ln x ptrs ovf way).clusters = s.clusters ∧ (State.dirPut s t ln x ptrs ovf way).pkts = s.pkts ∧ (State.dirPut s t ln x ptrs ovf way).resp = s.resp ∧ (State.dirPut s t ln x ptrs ovf way).regs = s.regs ∧ (State.dirPut s t ln x ptrs ovf way).wires = s.wires ∧ (State.dirPut s t ln x ptrs ovf way).dmg = s.dmg ∧ (State.dirPut s t ln x ptrs ovf way).wq = s.wq ∧ (State.dirPut s t ln x ptrs ovf way).net = s.net ∧ (State.dirPut s t ln x ptrs ovf way).dbInval = s.dbInval ∧ (State.dirPut s t ln x ptrs ovf way).watch = s.watch ∧ (State.dirPut s t ln x ptrs ovf way).pkg = s.pkg ∧ (State.dirPut s t ln x ptrs ovf way).pmc = s.pmc ∧ (State.dirPut s t ln x ptrs ovf way).fwLog = s.fwLog ∧ (State.dirPut s t ln x ptrs ovf way).out = s.out ∧ (State.dirPut s t ln x ptrs ovf way).free = s.free ∧ (State.dirPut s t ln x ptrs ovf way).fabric = s.fabric ∧ (State.dirPut s t ln x ptrs ovf way).files = s.files := by
  generalize h : State.dirPut s t ln x ptrs ovf way = u
  unfold State.dirPut at h
  rw [← h]; simp [kept @State.setHome_fr]

theorem State.dirDel_fr (s : State) (t : Nat) (ln : Nat) : (State.dirDel s t ln).pending = s.pending ∧ (State.dirDel s t ln).flash = s.flash ∧ (State.dirDel s t ln).coldOpt = s.coldOpt ∧ (State.dirDel s t ln).mem = s.mem ∧ (State.dirDel s t ln).harts = s.harts ∧ (State.dirDel s t ln).mram = s.mram ∧ (State.dirDel s t ln).imsic = s.imsic ∧ (State.dirDel s t ln).eng = s.eng ∧ (State.dirDel s t ln).dm = s.dm ∧ (State.dirDel s t ln).fx = s.fx ∧ (State.dirDel s t ln).ctu = s.ctu ∧ (State.dirDel s t ln).links = s.links ∧ (State.dirDel s t ln).aplicS = s.aplicS ∧ (State.dirDel s t ln).aplicN = s.aplicN ∧ (State.dirDel s t ln).credits = s.credits ∧ (State.dirDel s t ln).clusters = s.clusters ∧ (State.dirDel s t ln).pkts = s.pkts ∧ (State.dirDel s t ln).resp = s.resp ∧ (State.dirDel s t ln).regs = s.regs ∧ (State.dirDel s t ln).wires = s.wires ∧ (State.dirDel s t ln).dmg = s.dmg ∧ (State.dirDel s t ln).wq = s.wq ∧ (State.dirDel s t ln).net = s.net ∧ (State.dirDel s t ln).dbInval = s.dbInval ∧ (State.dirDel s t ln).watch = s.watch ∧ (State.dirDel s t ln).pkg = s.pkg ∧ (State.dirDel s t ln).pmc = s.pmc ∧ (State.dirDel s t ln).fwLog = s.fwLog ∧ (State.dirDel s t ln).out = s.out ∧ (State.dirDel s t ln).free = s.free ∧ (State.dirDel s t ln).fabric = s.fabric ∧ (State.dirDel s t ln).files = s.files := by
  generalize h : State.dirDel s t ln = u
  unfold State.dirDel at h
  rw [← h]; simp [kept @State.setHome_fr]

theorem State.act_fr (s : State) (t : Nat) (x : HTxn) (dat : LineData) (dirty : Bool) (fresh : Bool) : (State.act s t x dat dirty fresh).pending = s.pending ∧ (State.act s t x dat dirty fresh).flash = s.flash ∧ (State.act s t x dat dirty fresh).coldOpt = s.coldOpt ∧ (State.act s t x dat dirty fresh).mem = s.mem ∧ (State.act s t x dat dirty fresh).harts = s.harts ∧ (State.act s t x dat dirty fresh).mram = s.mram ∧ (State.act s t x dat dirty fresh).imsic = s.imsic ∧ (State.act s t x dat dirty fresh).eng = s.eng ∧ (State.act s t x dat dirty fresh).dm = s.dm ∧ (State.act s t x dat dirty fresh).fx = s.fx ∧ (State.act s t x dat dirty fresh).ctu = s.ctu ∧ (State.act s t x dat dirty fresh).links = s.links ∧ (State.act s t x dat dirty fresh).aplicS = s.aplicS ∧ (State.act s t x dat dirty fresh).aplicN = s.aplicN ∧ (State.act s t x dat dirty fresh).credits = s.credits ∧ (State.act s t x dat dirty fresh).clusters = s.clusters ∧ (State.act s t x dat dirty fresh).pkts = s.pkts ∧ (State.act s t x dat dirty fresh).resp = s.resp ∧ (State.act s t x dat dirty fresh).wires = s.wires ∧ (State.act s t x dat dirty fresh).dmg = s.dmg ∧ (State.act s t x dat dirty fresh).dbInval = s.dbInval ∧ (State.act s t x dat dirty fresh).watch = s.watch ∧ (State.act s t x dat dirty fresh).pkg = s.pkg ∧ (State.act s t x dat dirty fresh).pmc = s.pmc ∧ (State.act s t x dat dirty fresh).fwLog = s.fwLog ∧ (State.act s t x dat dirty fresh).out = s.out ∧ (State.act s t x dat dirty fresh).free = s.free ∧ (State.act s t x dat dirty fresh).fabric = s.fabric ∧ (State.act s t x dat dirty fresh).files = s.files := by
  generalize h : State.act s t x dat dirty fresh = u
  unfold State.act at h
  (try dsimp only at h); (repeat' split at h) <;> rw [← h] <;> simp [kept @State.dirDel_fr, kept @State.dirPut_fr, kept @State.l3Alloc_fr, kept @State.l3Clean_fr, kept @State.l3Take_fr, kept @State.memWr_fr, kept @State.queueWrite_fr, kept @State.reply_fr, kept @State.setHome_fr]

theorem State.actLost_fr (s : State) (t : Nat) (x : HTxn) (dat : LineData) (dirty : Bool) : (State.actLost s t x dat dirty).pending = s.pending ∧ (State.actLost s t x dat dirty).flash = s.flash ∧ (State.actLost s t x dat dirty).coldOpt = s.coldOpt ∧ (State.actLost s t x dat dirty).mem = s.mem ∧ (State.actLost s t x dat dirty).harts = s.harts ∧ (State.actLost s t x dat dirty).mram = s.mram ∧ (State.actLost s t x dat dirty).imsic = s.imsic ∧ (State.actLost s t x dat dirty).eng = s.eng ∧ (State.actLost s t x dat dirty).dm = s.dm ∧ (State.actLost s t x dat dirty).fx = s.fx ∧ (State.actLost s t x dat dirty).ctu = s.ctu ∧ (State.actLost s t x dat dirty).links = s.links ∧ (State.actLost s t x dat dirty).aplicS = s.aplicS ∧ (State.actLost s t x dat dirty).aplicN = s.aplicN ∧ (State.actLost s t x dat dirty).credits = s.credits ∧ (State.actLost s t x dat dirty).clusters = s.clusters ∧ (State.actLost s t x dat dirty).pkts = s.pkts ∧ (State.actLost s t x dat dirty).resp = s.resp ∧ (State.actLost s t x dat dirty).wires = s.wires ∧ (State.actLost s t x dat dirty).dmg = s.dmg ∧ (State.actLost s t x dat dirty).net = s.net ∧ (State.actLost s t x dat dirty).dbInval = s.dbInval ∧ (State.actLost s t x dat dirty).watch = s.watch ∧ (State.actLost s t x dat dirty).pkg = s.pkg ∧ (State.actLost s t x dat dirty).pmc = s.pmc ∧ (State.actLost s t x dat dirty).fwLog = s.fwLog ∧ (State.actLost s t x dat dirty).out = s.out ∧ (State.actLost s t x dat dirty).free = s.free ∧ (State.actLost s t x dat dirty).fabric = s.fabric ∧ (State.actLost s t x dat dirty).files = s.files := by
  generalize h : State.actLost s t x dat dirty = u
  unfold State.actLost at h
  (try dsimp only at h); (repeat' split at h) <;> rw [← h] <;> simp [kept @State.dirDel_fr, kept @State.dirPut_fr, kept @State.l3Alloc_fr]

theorem State.finish_fr (s : State) (t : Nat) (x : HTxn) (dat : LineData) (dirty : Bool) (fresh : Bool) : (State.finish s t x dat dirty fresh).pending = s.pending ∧ (State.finish s t x dat dirty fresh).flash = s.flash ∧ (State.finish s t x dat dirty fresh).coldOpt = s.coldOpt ∧ (State.finish s t x dat dirty fresh).mem = s.mem ∧ (State.finish s t x dat dirty fresh).harts = s.harts ∧ (State.finish s t x dat dirty fresh).mram = s.mram ∧ (State.finish s t x dat dirty fresh).imsic = s.imsic ∧ (State.finish s t x dat dirty fresh).eng = s.eng ∧ (State.finish s t x dat dirty fresh).dm = s.dm ∧ (State.finish s t x dat dirty fresh).fx = s.fx ∧ (State.finish s t x dat dirty fresh).ctu = s.ctu ∧ (State.finish s t x dat dirty fresh).links = s.links ∧ (State.finish s t x dat dirty fresh).aplicS = s.aplicS ∧ (State.finish s t x dat dirty fresh).aplicN = s.aplicN ∧ (State.finish s t x dat dirty fresh).credits = s.credits ∧ (State.finish s t x dat dirty fresh).clusters = s.clusters ∧ (State.finish s t x dat dirty fresh).pkts = s.pkts ∧ (State.finish s t x dat dirty fresh).resp = s.resp ∧ (State.finish s t x dat dirty fresh).wires = s.wires ∧ (State.finish s t x dat dirty fresh).dmg = s.dmg ∧ (State.finish s t x dat dirty fresh).dbInval = s.dbInval ∧ (State.finish s t x dat dirty fresh).watch = s.watch ∧ (State.finish s t x dat dirty fresh).pkg = s.pkg ∧ (State.finish s t x dat dirty fresh).pmc = s.pmc ∧ (State.finish s t x dat dirty fresh).out = s.out ∧ (State.finish s t x dat dirty fresh).free = s.free ∧ (State.finish s t x dat dirty fresh).fabric = s.fabric ∧ (State.finish s t x dat dirty fresh).files = s.files := by
  generalize h : State.finish s t x dat dirty fresh = u
  unfold State.finish at h
  (try dsimp only at h); (repeat' split at h) <;> rw [← h] <;> simp [kept @State.act_fr, kept @State.actLost_fr, kept @State.dirDel_fr, kept @State.logFw_fr, kept @State.reply_fr]

@[simp] theorem State.settle_pending (s : State) (t : Nat) (x : HTxn) (next : State → State) (hnext : ∀ x0, (next x0).pending = x0.pending) : (State.settle s t x next).pending = s.pending := by
  unfold State.settle
  first
  | (simp [*, kept @State.finish_fr, kept @State.pmcStop_fr, kept @State.post_fr, kept @State.setHome_fr]; done)
  | ((repeat' split) <;> simp [*, kept @State.finish_fr, kept @State.pmcStop_fr, kept @State.post_fr, kept @State.setHome_fr]; done)
  | ((try dsimp only); (repeat' split) <;> simp (disch := (intros; (repeat' split) <;> simp [*, kept @State.finish_fr, kept @State.pmcStop_fr, kept @State.post_fr, kept @State.setHome_fr])) [*, kept @State.finish_fr, kept @State.pmcStop_fr, kept @State.post_fr, kept @State.setHome_fr]; done)
  | (refine State.taskDo_pending _ _ _ (fun _ => ?_); (repeat' split) <;> first | exact keepsM_pure _ _ | (simp [*, kept @State.finish_fr, kept @State.pmcStop_fr, kept @State.post_fr, kept @State.setHome_fr]; done))

@[simp] theorem State.settle_files (s : State) (t : Nat) (x : HTxn) (next : State → State) (hnext : ∀ x0, (next x0).files = x0.files) : (State.settle s t x next).files = s.files := by
  unfold State.settle
  first
  | (simp [*, kept @State.finish_fr, kept @State.pmcStop_fr, kept @State.post_fr, kept @State.setHome_fr]; done)
  | ((repeat' split) <;> simp [*, kept @State.finish_fr, kept @State.pmcStop_fr, kept @State.post_fr, kept @State.setHome_fr]; done)
  | ((try dsimp only); (repeat' split) <;> simp (disch := (intros; (repeat' split) <;> simp [*, kept @State.finish_fr, kept @State.pmcStop_fr, kept @State.post_fr, kept @State.setHome_fr])) [*, kept @State.finish_fr, kept @State.pmcStop_fr, kept @State.post_fr, kept @State.setHome_fr]; done)
  | (refine State.taskDo_files _ _ _ (fun _ => ?_); (repeat' split) <;> first | exact keepsM_pure _ _ | (simp [*, kept @State.finish_fr, kept @State.pmcStop_fr, kept @State.post_fr, kept @State.setHome_fr]; done))

@[simp] theorem State.settle_fabric (s : State) (t : Nat) (x : HTxn) (next : State → State) (hnext : ∀ x0, (next x0).fabric = x0.fabric) : (State.settle s t x next).fabric = s.fabric := by
  unfold State.settle
  first
  | (simp [*, kept @State.finish_fr, kept @State.pmcStop_fr, kept @State.post_fr, kept @State.setHome_fr]; done)
  | ((repeat' split) <;> simp [*, kept @State.finish_fr, kept @State.pmcStop_fr, kept @State.post_fr, kept @State.setHome_fr]; done)
  | ((try dsimp only); (repeat' split) <;> simp (disch := (intros; (repeat' split) <;> simp [*, kept @State.finish_fr, kept @State.pmcStop_fr, kept @State.post_fr, kept @State.setHome_fr])) [*, kept @State.finish_fr, kept @State.pmcStop_fr, kept @State.post_fr, kept @State.setHome_fr]; done)
  | (refine State.taskDo_fabric _ _ _ (fun _ => ?_); (repeat' split) <;> first | exact keepsM_pure _ _ | (simp [*, kept @State.finish_fr, kept @State.pmcStop_fr, kept @State.post_fr, kept @State.setHome_fr]; done))

@[simp] theorem State.settle_flash (s : State) (t : Nat) (x : HTxn) (next : State → State) (hnext : ∀ x0, (next x0).flash = x0.flash) : (State.settle s t x next).flash = s.flash := by
  unfold State.settle
  first
  | (simp [*, kept @State.finish_fr, kept @State.pmcStop_fr, kept @State.post_fr, kept @State.setHome_fr]; done)
  | ((repeat' split) <;> simp [*, kept @State.finish_fr, kept @State.pmcStop_fr, kept @State.post_fr, kept @State.setHome_fr]; done)
  | ((try dsimp only); (repeat' split) <;> simp (disch := (intros; (repeat' split) <;> simp [*, kept @State.finish_fr, kept @State.pmcStop_fr, kept @State.post_fr, kept @State.setHome_fr])) [*, kept @State.finish_fr, kept @State.pmcStop_fr, kept @State.post_fr, kept @State.setHome_fr]; done)
  | (refine State.taskDo_flash _ _ _ (fun _ => ?_); (repeat' split) <;> first | exact keepsM_pure _ _ | (simp [*, kept @State.finish_fr, kept @State.pmcStop_fr, kept @State.post_fr, kept @State.setHome_fr]; done))

@[simp] theorem State.settle_coldOpt (s : State) (t : Nat) (x : HTxn) (next : State → State) (hnext : ∀ x0, (next x0).coldOpt = x0.coldOpt) : (State.settle s t x next).coldOpt = s.coldOpt := by
  unfold State.settle
  first
  | (simp [*, kept @State.finish_fr, kept @State.pmcStop_fr, kept @State.post_fr, kept @State.setHome_fr]; done)
  | ((repeat' split) <;> simp [*, kept @State.finish_fr, kept @State.pmcStop_fr, kept @State.post_fr, kept @State.setHome_fr]; done)
  | ((try dsimp only); (repeat' split) <;> simp (disch := (intros; (repeat' split) <;> simp [*, kept @State.finish_fr, kept @State.pmcStop_fr, kept @State.post_fr, kept @State.setHome_fr])) [*, kept @State.finish_fr, kept @State.pmcStop_fr, kept @State.post_fr, kept @State.setHome_fr]; done)
  | (refine State.taskDo_coldOpt _ _ _ (fun _ => ?_); (repeat' split) <;> first | exact keepsM_pure _ _ | (simp [*, kept @State.finish_fr, kept @State.pmcStop_fr, kept @State.post_fr, kept @State.setHome_fr]; done))

@[simp] theorem State.settle_mem (s : State) (t : Nat) (x : HTxn) (next : State → State) (hnext : ∀ x0, (next x0).mem = x0.mem) : (State.settle s t x next).mem = s.mem := by
  unfold State.settle
  first
  | (simp [*, kept @State.finish_fr, kept @State.pmcStop_fr, kept @State.post_fr, kept @State.setHome_fr]; done)
  | ((repeat' split) <;> simp [*, kept @State.finish_fr, kept @State.pmcStop_fr, kept @State.post_fr, kept @State.setHome_fr]; done)
  | ((try dsimp only); (repeat' split) <;> simp (disch := (intros; (repeat' split) <;> simp [*, kept @State.finish_fr, kept @State.pmcStop_fr, kept @State.post_fr, kept @State.setHome_fr])) [*, kept @State.finish_fr, kept @State.pmcStop_fr, kept @State.post_fr, kept @State.setHome_fr]; done)
  | (refine State.taskDo_mem _ _ _ (fun _ => ?_); (repeat' split) <;> first | exact keepsM_pure _ _ | (simp [*, kept @State.finish_fr, kept @State.pmcStop_fr, kept @State.post_fr, kept @State.setHome_fr]; done))

@[simp] theorem State.settle_harts (s : State) (t : Nat) (x : HTxn) (next : State → State) (hnext : ∀ x0, (next x0).harts = x0.harts) : (State.settle s t x next).harts = s.harts := by
  unfold State.settle
  first
  | (simp [*, kept @State.finish_fr, kept @State.pmcStop_fr, kept @State.post_fr, kept @State.setHome_fr]; done)
  | ((repeat' split) <;> simp [*, kept @State.finish_fr, kept @State.pmcStop_fr, kept @State.post_fr, kept @State.setHome_fr]; done)
  | ((try dsimp only); (repeat' split) <;> simp (disch := (intros; (repeat' split) <;> simp [*, kept @State.finish_fr, kept @State.pmcStop_fr, kept @State.post_fr, kept @State.setHome_fr])) [*, kept @State.finish_fr, kept @State.pmcStop_fr, kept @State.post_fr, kept @State.setHome_fr]; done)
  | (refine State.taskDo_harts _ _ _ (fun _ => ?_); (repeat' split) <;> first | exact keepsM_pure _ _ | (simp [*, kept @State.finish_fr, kept @State.pmcStop_fr, kept @State.post_fr, kept @State.setHome_fr]; done))

@[simp] theorem State.settle_mram (s : State) (t : Nat) (x : HTxn) (next : State → State) (hnext : ∀ x0, (next x0).mram = x0.mram) : (State.settle s t x next).mram = s.mram := by
  unfold State.settle
  first
  | (simp [*, kept @State.finish_fr, kept @State.pmcStop_fr, kept @State.post_fr, kept @State.setHome_fr]; done)
  | ((repeat' split) <;> simp [*, kept @State.finish_fr, kept @State.pmcStop_fr, kept @State.post_fr, kept @State.setHome_fr]; done)
  | ((try dsimp only); (repeat' split) <;> simp (disch := (intros; (repeat' split) <;> simp [*, kept @State.finish_fr, kept @State.pmcStop_fr, kept @State.post_fr, kept @State.setHome_fr])) [*, kept @State.finish_fr, kept @State.pmcStop_fr, kept @State.post_fr, kept @State.setHome_fr]; done)
  | (refine State.taskDo_mram _ _ _ (fun _ => ?_); (repeat' split) <;> first | exact keepsM_pure _ _ | (simp [*, kept @State.finish_fr, kept @State.pmcStop_fr, kept @State.post_fr, kept @State.setHome_fr]; done))

@[simp] theorem State.settle_imsic (s : State) (t : Nat) (x : HTxn) (next : State → State) (hnext : ∀ x0, (next x0).imsic = x0.imsic) : (State.settle s t x next).imsic = s.imsic := by
  unfold State.settle
  first
  | (simp [*, kept @State.finish_fr, kept @State.pmcStop_fr, kept @State.post_fr, kept @State.setHome_fr]; done)
  | ((repeat' split) <;> simp [*, kept @State.finish_fr, kept @State.pmcStop_fr, kept @State.post_fr, kept @State.setHome_fr]; done)
  | ((try dsimp only); (repeat' split) <;> simp (disch := (intros; (repeat' split) <;> simp [*, kept @State.finish_fr, kept @State.pmcStop_fr, kept @State.post_fr, kept @State.setHome_fr])) [*, kept @State.finish_fr, kept @State.pmcStop_fr, kept @State.post_fr, kept @State.setHome_fr]; done)
  | (refine State.taskDo_imsic _ _ _ (fun _ => ?_); (repeat' split) <;> first | exact keepsM_pure _ _ | (simp [*, kept @State.finish_fr, kept @State.pmcStop_fr, kept @State.post_fr, kept @State.setHome_fr]; done))

@[simp] theorem State.settle_eng (s : State) (t : Nat) (x : HTxn) (next : State → State) (hnext : ∀ x0, (next x0).eng = x0.eng) : (State.settle s t x next).eng = s.eng := by
  unfold State.settle
  first
  | (simp [*, kept @State.finish_fr, kept @State.pmcStop_fr, kept @State.post_fr, kept @State.setHome_fr]; done)
  | ((repeat' split) <;> simp [*, kept @State.finish_fr, kept @State.pmcStop_fr, kept @State.post_fr, kept @State.setHome_fr]; done)
  | ((try dsimp only); (repeat' split) <;> simp (disch := (intros; (repeat' split) <;> simp [*, kept @State.finish_fr, kept @State.pmcStop_fr, kept @State.post_fr, kept @State.setHome_fr])) [*, kept @State.finish_fr, kept @State.pmcStop_fr, kept @State.post_fr, kept @State.setHome_fr]; done)
  | (refine State.taskDo_eng _ _ _ (fun _ => ?_); (repeat' split) <;> first | exact keepsM_pure _ _ | (simp [*, kept @State.finish_fr, kept @State.pmcStop_fr, kept @State.post_fr, kept @State.setHome_fr]; done))

@[simp] theorem State.settle_dm (s : State) (t : Nat) (x : HTxn) (next : State → State) (hnext : ∀ x0, (next x0).dm = x0.dm) : (State.settle s t x next).dm = s.dm := by
  unfold State.settle
  first
  | (simp [*, kept @State.finish_fr, kept @State.pmcStop_fr, kept @State.post_fr, kept @State.setHome_fr]; done)
  | ((repeat' split) <;> simp [*, kept @State.finish_fr, kept @State.pmcStop_fr, kept @State.post_fr, kept @State.setHome_fr]; done)
  | ((try dsimp only); (repeat' split) <;> simp (disch := (intros; (repeat' split) <;> simp [*, kept @State.finish_fr, kept @State.pmcStop_fr, kept @State.post_fr, kept @State.setHome_fr])) [*, kept @State.finish_fr, kept @State.pmcStop_fr, kept @State.post_fr, kept @State.setHome_fr]; done)
  | (refine State.taskDo_dm _ _ _ (fun _ => ?_); (repeat' split) <;> first | exact keepsM_pure _ _ | (simp [*, kept @State.finish_fr, kept @State.pmcStop_fr, kept @State.post_fr, kept @State.setHome_fr]; done))

@[simp] theorem State.settle_fx (s : State) (t : Nat) (x : HTxn) (next : State → State) (hnext : ∀ x0, (next x0).fx = x0.fx) : (State.settle s t x next).fx = s.fx := by
  unfold State.settle
  first
  | (simp [*, kept @State.finish_fr, kept @State.pmcStop_fr, kept @State.post_fr, kept @State.setHome_fr]; done)
  | ((repeat' split) <;> simp [*, kept @State.finish_fr, kept @State.pmcStop_fr, kept @State.post_fr, kept @State.setHome_fr]; done)
  | ((try dsimp only); (repeat' split) <;> simp (disch := (intros; (repeat' split) <;> simp [*, kept @State.finish_fr, kept @State.pmcStop_fr, kept @State.post_fr, kept @State.setHome_fr])) [*, kept @State.finish_fr, kept @State.pmcStop_fr, kept @State.post_fr, kept @State.setHome_fr]; done)
  | (refine State.taskDo_fx _ _ _ (fun _ => ?_); (repeat' split) <;> first | exact keepsM_pure _ _ | (simp [*, kept @State.finish_fr, kept @State.pmcStop_fr, kept @State.post_fr, kept @State.setHome_fr]; done))

@[simp] theorem State.settle_ctu (s : State) (t : Nat) (x : HTxn) (next : State → State) (hnext : ∀ x0, (next x0).ctu = x0.ctu) : (State.settle s t x next).ctu = s.ctu := by
  unfold State.settle
  first
  | (simp [*, kept @State.finish_fr, kept @State.pmcStop_fr, kept @State.post_fr, kept @State.setHome_fr]; done)
  | ((repeat' split) <;> simp [*, kept @State.finish_fr, kept @State.pmcStop_fr, kept @State.post_fr, kept @State.setHome_fr]; done)
  | ((try dsimp only); (repeat' split) <;> simp (disch := (intros; (repeat' split) <;> simp [*, kept @State.finish_fr, kept @State.pmcStop_fr, kept @State.post_fr, kept @State.setHome_fr])) [*, kept @State.finish_fr, kept @State.pmcStop_fr, kept @State.post_fr, kept @State.setHome_fr]; done)
  | (refine State.taskDo_ctu _ _ _ (fun _ => ?_); (repeat' split) <;> first | exact keepsM_pure _ _ | (simp [*, kept @State.finish_fr, kept @State.pmcStop_fr, kept @State.post_fr, kept @State.setHome_fr]; done))

@[simp] theorem State.settle_links (s : State) (t : Nat) (x : HTxn) (next : State → State) (hnext : ∀ x0, (next x0).links = x0.links) : (State.settle s t x next).links = s.links := by
  unfold State.settle
  first
  | (simp [*, kept @State.finish_fr, kept @State.pmcStop_fr, kept @State.post_fr, kept @State.setHome_fr]; done)
  | ((repeat' split) <;> simp [*, kept @State.finish_fr, kept @State.pmcStop_fr, kept @State.post_fr, kept @State.setHome_fr]; done)
  | ((try dsimp only); (repeat' split) <;> simp (disch := (intros; (repeat' split) <;> simp [*, kept @State.finish_fr, kept @State.pmcStop_fr, kept @State.post_fr, kept @State.setHome_fr])) [*, kept @State.finish_fr, kept @State.pmcStop_fr, kept @State.post_fr, kept @State.setHome_fr]; done)
  | (refine State.taskDo_links _ _ _ (fun _ => ?_); (repeat' split) <;> first | exact keepsM_pure _ _ | (simp [*, kept @State.finish_fr, kept @State.pmcStop_fr, kept @State.post_fr, kept @State.setHome_fr]; done))

@[simp] theorem State.settle_aplicS (s : State) (t : Nat) (x : HTxn) (next : State → State) (hnext : ∀ x0, (next x0).aplicS = x0.aplicS) : (State.settle s t x next).aplicS = s.aplicS := by
  unfold State.settle
  first
  | (simp [*, kept @State.finish_fr, kept @State.pmcStop_fr, kept @State.post_fr, kept @State.setHome_fr]; done)
  | ((repeat' split) <;> simp [*, kept @State.finish_fr, kept @State.pmcStop_fr, kept @State.post_fr, kept @State.setHome_fr]; done)
  | ((try dsimp only); (repeat' split) <;> simp (disch := (intros; (repeat' split) <;> simp [*, kept @State.finish_fr, kept @State.pmcStop_fr, kept @State.post_fr, kept @State.setHome_fr])) [*, kept @State.finish_fr, kept @State.pmcStop_fr, kept @State.post_fr, kept @State.setHome_fr]; done)
  | (refine State.taskDo_aplicS _ _ _ (fun _ => ?_); (repeat' split) <;> first | exact keepsM_pure _ _ | (simp [*, kept @State.finish_fr, kept @State.pmcStop_fr, kept @State.post_fr, kept @State.setHome_fr]; done))

@[simp] theorem State.settle_aplicN (s : State) (t : Nat) (x : HTxn) (next : State → State) (hnext : ∀ x0, (next x0).aplicN = x0.aplicN) : (State.settle s t x next).aplicN = s.aplicN := by
  unfold State.settle
  first
  | (simp [*, kept @State.finish_fr, kept @State.pmcStop_fr, kept @State.post_fr, kept @State.setHome_fr]; done)
  | ((repeat' split) <;> simp [*, kept @State.finish_fr, kept @State.pmcStop_fr, kept @State.post_fr, kept @State.setHome_fr]; done)
  | ((try dsimp only); (repeat' split) <;> simp (disch := (intros; (repeat' split) <;> simp [*, kept @State.finish_fr, kept @State.pmcStop_fr, kept @State.post_fr, kept @State.setHome_fr])) [*, kept @State.finish_fr, kept @State.pmcStop_fr, kept @State.post_fr, kept @State.setHome_fr]; done)
  | (refine State.taskDo_aplicN _ _ _ (fun _ => ?_); (repeat' split) <;> first | exact keepsM_pure _ _ | (simp [*, kept @State.finish_fr, kept @State.pmcStop_fr, kept @State.post_fr, kept @State.setHome_fr]; done))

@[simp] theorem State.settle_credits (s : State) (t : Nat) (x : HTxn) (next : State → State) (hnext : ∀ x0, (next x0).credits = x0.credits) : (State.settle s t x next).credits = s.credits := by
  unfold State.settle
  first
  | (simp [*, kept @State.finish_fr, kept @State.pmcStop_fr, kept @State.post_fr, kept @State.setHome_fr]; done)
  | ((repeat' split) <;> simp [*, kept @State.finish_fr, kept @State.pmcStop_fr, kept @State.post_fr, kept @State.setHome_fr]; done)
  | ((try dsimp only); (repeat' split) <;> simp (disch := (intros; (repeat' split) <;> simp [*, kept @State.finish_fr, kept @State.pmcStop_fr, kept @State.post_fr, kept @State.setHome_fr])) [*, kept @State.finish_fr, kept @State.pmcStop_fr, kept @State.post_fr, kept @State.setHome_fr]; done)
  | (refine State.taskDo_credits _ _ _ (fun _ => ?_); (repeat' split) <;> first | exact keepsM_pure _ _ | (simp [*, kept @State.finish_fr, kept @State.pmcStop_fr, kept @State.post_fr, kept @State.setHome_fr]; done))

@[simp] theorem State.settle_clusters (s : State) (t : Nat) (x : HTxn) (next : State → State) (hnext : ∀ x0, (next x0).clusters = x0.clusters) : (State.settle s t x next).clusters = s.clusters := by
  unfold State.settle
  first
  | (simp [*, kept @State.finish_fr, kept @State.pmcStop_fr, kept @State.post_fr, kept @State.setHome_fr]; done)
  | ((repeat' split) <;> simp [*, kept @State.finish_fr, kept @State.pmcStop_fr, kept @State.post_fr, kept @State.setHome_fr]; done)
  | ((try dsimp only); (repeat' split) <;> simp (disch := (intros; (repeat' split) <;> simp [*, kept @State.finish_fr, kept @State.pmcStop_fr, kept @State.post_fr, kept @State.setHome_fr])) [*, kept @State.finish_fr, kept @State.pmcStop_fr, kept @State.post_fr, kept @State.setHome_fr]; done)
  | (refine State.taskDo_clusters _ _ _ (fun _ => ?_); (repeat' split) <;> first | exact keepsM_pure _ _ | (simp [*, kept @State.finish_fr, kept @State.pmcStop_fr, kept @State.post_fr, kept @State.setHome_fr]; done))

@[simp] theorem State.settle_pkts (s : State) (t : Nat) (x : HTxn) (next : State → State) (hnext : ∀ x0, (next x0).pkts = x0.pkts) : (State.settle s t x next).pkts = s.pkts := by
  unfold State.settle
  first
  | (simp [*, kept @State.finish_fr, kept @State.pmcStop_fr, kept @State.post_fr, kept @State.setHome_fr]; done)
  | ((repeat' split) <;> simp [*, kept @State.finish_fr, kept @State.pmcStop_fr, kept @State.post_fr, kept @State.setHome_fr]; done)
  | ((try dsimp only); (repeat' split) <;> simp (disch := (intros; (repeat' split) <;> simp [*, kept @State.finish_fr, kept @State.pmcStop_fr, kept @State.post_fr, kept @State.setHome_fr])) [*, kept @State.finish_fr, kept @State.pmcStop_fr, kept @State.post_fr, kept @State.setHome_fr]; done)
  | (refine State.taskDo_pkts _ _ _ (fun _ => ?_); (repeat' split) <;> first | exact keepsM_pure _ _ | (simp [*, kept @State.finish_fr, kept @State.pmcStop_fr, kept @State.post_fr, kept @State.setHome_fr]; done))

@[simp] theorem State.settle_resp (s : State) (t : Nat) (x : HTxn) (next : State → State) (hnext : ∀ x0, (next x0).resp = x0.resp) : (State.settle s t x next).resp = s.resp := by
  unfold State.settle
  first
  | (simp [*, kept @State.finish_fr, kept @State.pmcStop_fr, kept @State.post_fr, kept @State.setHome_fr]; done)
  | ((repeat' split) <;> simp [*, kept @State.finish_fr, kept @State.pmcStop_fr, kept @State.post_fr, kept @State.setHome_fr]; done)
  | ((try dsimp only); (repeat' split) <;> simp (disch := (intros; (repeat' split) <;> simp [*, kept @State.finish_fr, kept @State.pmcStop_fr, kept @State.post_fr, kept @State.setHome_fr])) [*, kept @State.finish_fr, kept @State.pmcStop_fr, kept @State.post_fr, kept @State.setHome_fr]; done)
  | (refine State.taskDo_resp _ _ _ (fun _ => ?_); (repeat' split) <;> first | exact keepsM_pure _ _ | (simp [*, kept @State.finish_fr, kept @State.pmcStop_fr, kept @State.post_fr, kept @State.setHome_fr]; done))

@[simp] theorem State.settle_wires (s : State) (t : Nat) (x : HTxn) (next : State → State) (hnext : ∀ x0, (next x0).wires = x0.wires) : (State.settle s t x next).wires = s.wires := by
  unfold State.settle
  first
  | (simp [*, kept @State.finish_fr, kept @State.pmcStop_fr, kept @State.post_fr, kept @State.setHome_fr]; done)
  | ((repeat' split) <;> simp [*, kept @State.finish_fr, kept @State.pmcStop_fr, kept @State.post_fr, kept @State.setHome_fr]; done)
  | ((try dsimp only); (repeat' split) <;> simp (disch := (intros; (repeat' split) <;> simp [*, kept @State.finish_fr, kept @State.pmcStop_fr, kept @State.post_fr, kept @State.setHome_fr])) [*, kept @State.finish_fr, kept @State.pmcStop_fr, kept @State.post_fr, kept @State.setHome_fr]; done)
  | (refine State.taskDo_wires _ _ _ (fun _ => ?_); (repeat' split) <;> first | exact keepsM_pure _ _ | (simp [*, kept @State.finish_fr, kept @State.pmcStop_fr, kept @State.post_fr, kept @State.setHome_fr]; done))

@[simp] theorem State.settle_dmg (s : State) (t : Nat) (x : HTxn) (next : State → State) (hnext : ∀ x0, (next x0).dmg = x0.dmg) : (State.settle s t x next).dmg = s.dmg := by
  unfold State.settle
  first
  | (simp [*, kept @State.finish_fr, kept @State.pmcStop_fr, kept @State.post_fr, kept @State.setHome_fr]; done)
  | ((repeat' split) <;> simp [*, kept @State.finish_fr, kept @State.pmcStop_fr, kept @State.post_fr, kept @State.setHome_fr]; done)
  | ((try dsimp only); (repeat' split) <;> simp (disch := (intros; (repeat' split) <;> simp [*, kept @State.finish_fr, kept @State.pmcStop_fr, kept @State.post_fr, kept @State.setHome_fr])) [*, kept @State.finish_fr, kept @State.pmcStop_fr, kept @State.post_fr, kept @State.setHome_fr]; done)
  | (refine State.taskDo_dmg _ _ _ (fun _ => ?_); (repeat' split) <;> first | exact keepsM_pure _ _ | (simp [*, kept @State.finish_fr, kept @State.pmcStop_fr, kept @State.post_fr, kept @State.setHome_fr]; done))

@[simp] theorem State.settle_dbInval (s : State) (t : Nat) (x : HTxn) (next : State → State) (hnext : ∀ x0, (next x0).dbInval = x0.dbInval) : (State.settle s t x next).dbInval = s.dbInval := by
  unfold State.settle
  first
  | (simp [*, kept @State.finish_fr, kept @State.pmcStop_fr, kept @State.post_fr, kept @State.setHome_fr]; done)
  | ((repeat' split) <;> simp [*, kept @State.finish_fr, kept @State.pmcStop_fr, kept @State.post_fr, kept @State.setHome_fr]; done)
  | ((try dsimp only); (repeat' split) <;> simp (disch := (intros; (repeat' split) <;> simp [*, kept @State.finish_fr, kept @State.pmcStop_fr, kept @State.post_fr, kept @State.setHome_fr])) [*, kept @State.finish_fr, kept @State.pmcStop_fr, kept @State.post_fr, kept @State.setHome_fr]; done)
  | (refine State.taskDo_dbInval _ _ _ (fun _ => ?_); (repeat' split) <;> first | exact keepsM_pure _ _ | (simp [*, kept @State.finish_fr, kept @State.pmcStop_fr, kept @State.post_fr, kept @State.setHome_fr]; done))

@[simp] theorem State.settle_watch (s : State) (t : Nat) (x : HTxn) (next : State → State) (hnext : ∀ x0, (next x0).watch = x0.watch) : (State.settle s t x next).watch = s.watch := by
  unfold State.settle
  first
  | (simp [*, kept @State.finish_fr, kept @State.pmcStop_fr, kept @State.post_fr, kept @State.setHome_fr]; done)
  | ((repeat' split) <;> simp [*, kept @State.finish_fr, kept @State.pmcStop_fr, kept @State.post_fr, kept @State.setHome_fr]; done)
  | ((try dsimp only); (repeat' split) <;> simp (disch := (intros; (repeat' split) <;> simp [*, kept @State.finish_fr, kept @State.pmcStop_fr, kept @State.post_fr, kept @State.setHome_fr])) [*, kept @State.finish_fr, kept @State.pmcStop_fr, kept @State.post_fr, kept @State.setHome_fr]; done)
  | (refine State.taskDo_watch _ _ _ (fun _ => ?_); (repeat' split) <;> first | exact keepsM_pure _ _ | (simp [*, kept @State.finish_fr, kept @State.pmcStop_fr, kept @State.post_fr, kept @State.setHome_fr]; done))

@[simp] theorem State.settle_pkg (s : State) (t : Nat) (x : HTxn) (next : State → State) (hnext : ∀ x0, (next x0).pkg = x0.pkg) : (State.settle s t x next).pkg = s.pkg := by
  unfold State.settle
  first
  | (simp [*, kept @State.finish_fr, kept @State.pmcStop_fr, kept @State.post_fr, kept @State.setHome_fr]; done)
  | ((repeat' split) <;> simp [*, kept @State.finish_fr, kept @State.pmcStop_fr, kept @State.post_fr, kept @State.setHome_fr]; done)
  | ((try dsimp only); (repeat' split) <;> simp (disch := (intros; (repeat' split) <;> simp [*, kept @State.finish_fr, kept @State.pmcStop_fr, kept @State.post_fr, kept @State.setHome_fr])) [*, kept @State.finish_fr, kept @State.pmcStop_fr, kept @State.post_fr, kept @State.setHome_fr]; done)
  | (refine State.taskDo_pkg _ _ _ (fun _ => ?_); (repeat' split) <;> first | exact keepsM_pure _ _ | (simp [*, kept @State.finish_fr, kept @State.pmcStop_fr, kept @State.post_fr, kept @State.setHome_fr]; done))

@[simp] theorem State.settle_pmc (s : State) (t : Nat) (x : HTxn) (next : State → State) (hnext : ∀ x0, (next x0).pmc = x0.pmc) : (State.settle s t x next).pmc = s.pmc := by
  unfold State.settle
  first
  | (simp [*, kept @State.finish_fr, kept @State.pmcStop_fr, kept @State.post_fr, kept @State.setHome_fr]; done)
  | ((repeat' split) <;> simp [*, kept @State.finish_fr, kept @State.pmcStop_fr, kept @State.post_fr, kept @State.setHome_fr]; done)
  | ((try dsimp only); (repeat' split) <;> simp (disch := (intros; (repeat' split) <;> simp [*, kept @State.finish_fr, kept @State.pmcStop_fr, kept @State.post_fr, kept @State.setHome_fr])) [*, kept @State.finish_fr, kept @State.pmcStop_fr, kept @State.post_fr, kept @State.setHome_fr]; done)
  | (refine State.taskDo_pmc _ _ _ (fun _ => ?_); (repeat' split) <;> first | exact keepsM_pure _ _ | (simp [*, kept @State.finish_fr, kept @State.pmcStop_fr, kept @State.post_fr, kept @State.setHome_fr]; done))

@[simp] theorem State.settle_out (s : State) (t : Nat) (x : HTxn) (next : State → State) (hnext : ∀ x0, (next x0).out = x0.out) : (State.settle s t x next).out = s.out := by
  unfold State.settle
  first
  | (simp [*, kept @State.finish_fr, kept @State.pmcStop_fr, kept @State.post_fr, kept @State.setHome_fr]; done)
  | ((repeat' split) <;> simp [*, kept @State.finish_fr, kept @State.pmcStop_fr, kept @State.post_fr, kept @State.setHome_fr]; done)
  | ((try dsimp only); (repeat' split) <;> simp (disch := (intros; (repeat' split) <;> simp [*, kept @State.finish_fr, kept @State.pmcStop_fr, kept @State.post_fr, kept @State.setHome_fr])) [*, kept @State.finish_fr, kept @State.pmcStop_fr, kept @State.post_fr, kept @State.setHome_fr]; done)
  | (refine State.taskDo_out _ _ _ (fun _ => ?_); (repeat' split) <;> first | exact keepsM_pure _ _ | (simp [*, kept @State.finish_fr, kept @State.pmcStop_fr, kept @State.post_fr, kept @State.setHome_fr]; done))

@[simp] theorem State.settle_free (s : State) (t : Nat) (x : HTxn) (next : State → State) (hnext : ∀ x0, (next x0).free = x0.free) : (State.settle s t x next).free = s.free := by
  unfold State.settle
  first
  | (simp [*, kept @State.finish_fr, kept @State.pmcStop_fr, kept @State.post_fr, kept @State.setHome_fr]; done)
  | ((repeat' split) <;> simp [*, kept @State.finish_fr, kept @State.pmcStop_fr, kept @State.post_fr, kept @State.setHome_fr]; done)
  | ((try dsimp only); (repeat' split) <;> simp (disch := (intros; (repeat' split) <;> simp [*, kept @State.finish_fr, kept @State.pmcStop_fr, kept @State.post_fr, kept @State.setHome_fr])) [*, kept @State.finish_fr, kept @State.pmcStop_fr, kept @State.post_fr, kept @State.setHome_fr]; done)
  | (refine State.taskDo_free _ _ _ (fun _ => ?_); (repeat' split) <;> first | exact keepsM_pure _ _ | (simp [*, kept @State.finish_fr, kept @State.pmcStop_fr, kept @State.post_fr, kept @State.setHome_fr]; done))

@[simp] theorem State.beginSnoops_pending (s : State) (t : Nat) (x : HTxn) (next : State → State) (hnext : ∀ x0, (next x0).pending = x0.pending) : (State.beginSnoops s t x next).pending = s.pending := by
  unfold State.beginSnoops
  first
  | (simp [*, kept @State.pmcStop_fr, kept @State.post_fr, kept @State.setHome_fr]; done)
  | ((repeat' split) <;> simp [*, kept @State.pmcStop_fr, kept @State.post_fr, kept @State.setHome_fr]; done)
  | ((try dsimp only); (repeat' split) <;> simp (disch := (intros; (repeat' split) <;> simp [*, kept @State.pmcStop_fr, kept @State.post_fr, kept @State.setHome_fr])) [*, kept @State.pmcStop_fr, kept @State.post_fr, kept @State.setHome_fr]; done)
  | (refine State.taskDo_pending _ _ _ (fun _ => ?_); (repeat' split) <;> first | exact keepsM_pure _ _ | (simp [*, kept @State.pmcStop_fr, kept @State.post_fr, kept @State.setHome_fr]; done))

@[simp] theorem State.beginSnoops_files (s : State) (t : Nat) (x : HTxn) (next : State → State) (hnext : ∀ x0, (next x0).files = x0.files) : (State.beginSnoops s t x next).files = s.files := by
  unfold State.beginSnoops
  first
  | (simp [*, kept @State.pmcStop_fr, kept @State.post_fr, kept @State.setHome_fr]; done)
  | ((repeat' split) <;> simp [*, kept @State.pmcStop_fr, kept @State.post_fr, kept @State.setHome_fr]; done)
  | ((try dsimp only); (repeat' split) <;> simp (disch := (intros; (repeat' split) <;> simp [*, kept @State.pmcStop_fr, kept @State.post_fr, kept @State.setHome_fr])) [*, kept @State.pmcStop_fr, kept @State.post_fr, kept @State.setHome_fr]; done)
  | (refine State.taskDo_files _ _ _ (fun _ => ?_); (repeat' split) <;> first | exact keepsM_pure _ _ | (simp [*, kept @State.pmcStop_fr, kept @State.post_fr, kept @State.setHome_fr]; done))

@[simp] theorem State.beginSnoops_fabric (s : State) (t : Nat) (x : HTxn) (next : State → State) (hnext : ∀ x0, (next x0).fabric = x0.fabric) : (State.beginSnoops s t x next).fabric = s.fabric := by
  unfold State.beginSnoops
  first
  | (simp [*, kept @State.pmcStop_fr, kept @State.post_fr, kept @State.setHome_fr]; done)
  | ((repeat' split) <;> simp [*, kept @State.pmcStop_fr, kept @State.post_fr, kept @State.setHome_fr]; done)
  | ((try dsimp only); (repeat' split) <;> simp (disch := (intros; (repeat' split) <;> simp [*, kept @State.pmcStop_fr, kept @State.post_fr, kept @State.setHome_fr])) [*, kept @State.pmcStop_fr, kept @State.post_fr, kept @State.setHome_fr]; done)
  | (refine State.taskDo_fabric _ _ _ (fun _ => ?_); (repeat' split) <;> first | exact keepsM_pure _ _ | (simp [*, kept @State.pmcStop_fr, kept @State.post_fr, kept @State.setHome_fr]; done))

@[simp] theorem State.beginSnoops_flash (s : State) (t : Nat) (x : HTxn) (next : State → State) (hnext : ∀ x0, (next x0).flash = x0.flash) : (State.beginSnoops s t x next).flash = s.flash := by
  unfold State.beginSnoops
  first
  | (simp [*, kept @State.pmcStop_fr, kept @State.post_fr, kept @State.setHome_fr]; done)
  | ((repeat' split) <;> simp [*, kept @State.pmcStop_fr, kept @State.post_fr, kept @State.setHome_fr]; done)
  | ((try dsimp only); (repeat' split) <;> simp (disch := (intros; (repeat' split) <;> simp [*, kept @State.pmcStop_fr, kept @State.post_fr, kept @State.setHome_fr])) [*, kept @State.pmcStop_fr, kept @State.post_fr, kept @State.setHome_fr]; done)
  | (refine State.taskDo_flash _ _ _ (fun _ => ?_); (repeat' split) <;> first | exact keepsM_pure _ _ | (simp [*, kept @State.pmcStop_fr, kept @State.post_fr, kept @State.setHome_fr]; done))

@[simp] theorem State.beginSnoops_coldOpt (s : State) (t : Nat) (x : HTxn) (next : State → State) (hnext : ∀ x0, (next x0).coldOpt = x0.coldOpt) : (State.beginSnoops s t x next).coldOpt = s.coldOpt := by
  unfold State.beginSnoops
  first
  | (simp [*, kept @State.pmcStop_fr, kept @State.post_fr, kept @State.setHome_fr]; done)
  | ((repeat' split) <;> simp [*, kept @State.pmcStop_fr, kept @State.post_fr, kept @State.setHome_fr]; done)
  | ((try dsimp only); (repeat' split) <;> simp (disch := (intros; (repeat' split) <;> simp [*, kept @State.pmcStop_fr, kept @State.post_fr, kept @State.setHome_fr])) [*, kept @State.pmcStop_fr, kept @State.post_fr, kept @State.setHome_fr]; done)
  | (refine State.taskDo_coldOpt _ _ _ (fun _ => ?_); (repeat' split) <;> first | exact keepsM_pure _ _ | (simp [*, kept @State.pmcStop_fr, kept @State.post_fr, kept @State.setHome_fr]; done))

@[simp] theorem State.beginSnoops_mem (s : State) (t : Nat) (x : HTxn) (next : State → State) (hnext : ∀ x0, (next x0).mem = x0.mem) : (State.beginSnoops s t x next).mem = s.mem := by
  unfold State.beginSnoops
  first
  | (simp [*, kept @State.pmcStop_fr, kept @State.post_fr, kept @State.setHome_fr]; done)
  | ((repeat' split) <;> simp [*, kept @State.pmcStop_fr, kept @State.post_fr, kept @State.setHome_fr]; done)
  | ((try dsimp only); (repeat' split) <;> simp (disch := (intros; (repeat' split) <;> simp [*, kept @State.pmcStop_fr, kept @State.post_fr, kept @State.setHome_fr])) [*, kept @State.pmcStop_fr, kept @State.post_fr, kept @State.setHome_fr]; done)
  | (refine State.taskDo_mem _ _ _ (fun _ => ?_); (repeat' split) <;> first | exact keepsM_pure _ _ | (simp [*, kept @State.pmcStop_fr, kept @State.post_fr, kept @State.setHome_fr]; done))

@[simp] theorem State.beginSnoops_harts (s : State) (t : Nat) (x : HTxn) (next : State → State) (hnext : ∀ x0, (next x0).harts = x0.harts) : (State.beginSnoops s t x next).harts = s.harts := by
  unfold State.beginSnoops
  first
  | (simp [*, kept @State.pmcStop_fr, kept @State.post_fr, kept @State.setHome_fr]; done)
  | ((repeat' split) <;> simp [*, kept @State.pmcStop_fr, kept @State.post_fr, kept @State.setHome_fr]; done)
  | ((try dsimp only); (repeat' split) <;> simp (disch := (intros; (repeat' split) <;> simp [*, kept @State.pmcStop_fr, kept @State.post_fr, kept @State.setHome_fr])) [*, kept @State.pmcStop_fr, kept @State.post_fr, kept @State.setHome_fr]; done)
  | (refine State.taskDo_harts _ _ _ (fun _ => ?_); (repeat' split) <;> first | exact keepsM_pure _ _ | (simp [*, kept @State.pmcStop_fr, kept @State.post_fr, kept @State.setHome_fr]; done))

@[simp] theorem State.beginSnoops_mram (s : State) (t : Nat) (x : HTxn) (next : State → State) (hnext : ∀ x0, (next x0).mram = x0.mram) : (State.beginSnoops s t x next).mram = s.mram := by
  unfold State.beginSnoops
  first
  | (simp [*, kept @State.pmcStop_fr, kept @State.post_fr, kept @State.setHome_fr]; done)
  | ((repeat' split) <;> simp [*, kept @State.pmcStop_fr, kept @State.post_fr, kept @State.setHome_fr]; done)
  | ((try dsimp only); (repeat' split) <;> simp (disch := (intros; (repeat' split) <;> simp [*, kept @State.pmcStop_fr, kept @State.post_fr, kept @State.setHome_fr])) [*, kept @State.pmcStop_fr, kept @State.post_fr, kept @State.setHome_fr]; done)
  | (refine State.taskDo_mram _ _ _ (fun _ => ?_); (repeat' split) <;> first | exact keepsM_pure _ _ | (simp [*, kept @State.pmcStop_fr, kept @State.post_fr, kept @State.setHome_fr]; done))

@[simp] theorem State.beginSnoops_imsic (s : State) (t : Nat) (x : HTxn) (next : State → State) (hnext : ∀ x0, (next x0).imsic = x0.imsic) : (State.beginSnoops s t x next).imsic = s.imsic := by
  unfold State.beginSnoops
  first
  | (simp [*, kept @State.pmcStop_fr, kept @State.post_fr, kept @State.setHome_fr]; done)
  | ((repeat' split) <;> simp [*, kept @State.pmcStop_fr, kept @State.post_fr, kept @State.setHome_fr]; done)
  | ((try dsimp only); (repeat' split) <;> simp (disch := (intros; (repeat' split) <;> simp [*, kept @State.pmcStop_fr, kept @State.post_fr, kept @State.setHome_fr])) [*, kept @State.pmcStop_fr, kept @State.post_fr, kept @State.setHome_fr]; done)
  | (refine State.taskDo_imsic _ _ _ (fun _ => ?_); (repeat' split) <;> first | exact keepsM_pure _ _ | (simp [*, kept @State.pmcStop_fr, kept @State.post_fr, kept @State.setHome_fr]; done))

@[simp] theorem State.beginSnoops_eng (s : State) (t : Nat) (x : HTxn) (next : State → State) (hnext : ∀ x0, (next x0).eng = x0.eng) : (State.beginSnoops s t x next).eng = s.eng := by
  unfold State.beginSnoops
  first
  | (simp [*, kept @State.pmcStop_fr, kept @State.post_fr, kept @State.setHome_fr]; done)
  | ((repeat' split) <;> simp [*, kept @State.pmcStop_fr, kept @State.post_fr, kept @State.setHome_fr]; done)
  | ((try dsimp only); (repeat' split) <;> simp (disch := (intros; (repeat' split) <;> simp [*, kept @State.pmcStop_fr, kept @State.post_fr, kept @State.setHome_fr])) [*, kept @State.pmcStop_fr, kept @State.post_fr, kept @State.setHome_fr]; done)
  | (refine State.taskDo_eng _ _ _ (fun _ => ?_); (repeat' split) <;> first | exact keepsM_pure _ _ | (simp [*, kept @State.pmcStop_fr, kept @State.post_fr, kept @State.setHome_fr]; done))

@[simp] theorem State.beginSnoops_dm (s : State) (t : Nat) (x : HTxn) (next : State → State) (hnext : ∀ x0, (next x0).dm = x0.dm) : (State.beginSnoops s t x next).dm = s.dm := by
  unfold State.beginSnoops
  first
  | (simp [*, kept @State.pmcStop_fr, kept @State.post_fr, kept @State.setHome_fr]; done)
  | ((repeat' split) <;> simp [*, kept @State.pmcStop_fr, kept @State.post_fr, kept @State.setHome_fr]; done)
  | ((try dsimp only); (repeat' split) <;> simp (disch := (intros; (repeat' split) <;> simp [*, kept @State.pmcStop_fr, kept @State.post_fr, kept @State.setHome_fr])) [*, kept @State.pmcStop_fr, kept @State.post_fr, kept @State.setHome_fr]; done)
  | (refine State.taskDo_dm _ _ _ (fun _ => ?_); (repeat' split) <;> first | exact keepsM_pure _ _ | (simp [*, kept @State.pmcStop_fr, kept @State.post_fr, kept @State.setHome_fr]; done))

@[simp] theorem State.beginSnoops_fx (s : State) (t : Nat) (x : HTxn) (next : State → State) (hnext : ∀ x0, (next x0).fx = x0.fx) : (State.beginSnoops s t x next).fx = s.fx := by
  unfold State.beginSnoops
  first
  | (simp [*, kept @State.pmcStop_fr, kept @State.post_fr, kept @State.setHome_fr]; done)
  | ((repeat' split) <;> simp [*, kept @State.pmcStop_fr, kept @State.post_fr, kept @State.setHome_fr]; done)
  | ((try dsimp only); (repeat' split) <;> simp (disch := (intros; (repeat' split) <;> simp [*, kept @State.pmcStop_fr, kept @State.post_fr, kept @State.setHome_fr])) [*, kept @State.pmcStop_fr, kept @State.post_fr, kept @State.setHome_fr]; done)
  | (refine State.taskDo_fx _ _ _ (fun _ => ?_); (repeat' split) <;> first | exact keepsM_pure _ _ | (simp [*, kept @State.pmcStop_fr, kept @State.post_fr, kept @State.setHome_fr]; done))

@[simp] theorem State.beginSnoops_ctu (s : State) (t : Nat) (x : HTxn) (next : State → State) (hnext : ∀ x0, (next x0).ctu = x0.ctu) : (State.beginSnoops s t x next).ctu = s.ctu := by
  unfold State.beginSnoops
  first
  | (simp [*, kept @State.pmcStop_fr, kept @State.post_fr, kept @State.setHome_fr]; done)
  | ((repeat' split) <;> simp [*, kept @State.pmcStop_fr, kept @State.post_fr, kept @State.setHome_fr]; done)
  | ((try dsimp only); (repeat' split) <;> simp (disch := (intros; (repeat' split) <;> simp [*, kept @State.pmcStop_fr, kept @State.post_fr, kept @State.setHome_fr])) [*, kept @State.pmcStop_fr, kept @State.post_fr, kept @State.setHome_fr]; done)
  | (refine State.taskDo_ctu _ _ _ (fun _ => ?_); (repeat' split) <;> first | exact keepsM_pure _ _ | (simp [*, kept @State.pmcStop_fr, kept @State.post_fr, kept @State.setHome_fr]; done))

@[simp] theorem State.beginSnoops_links (s : State) (t : Nat) (x : HTxn) (next : State → State) (hnext : ∀ x0, (next x0).links = x0.links) : (State.beginSnoops s t x next).links = s.links := by
  unfold State.beginSnoops
  first
  | (simp [*, kept @State.pmcStop_fr, kept @State.post_fr, kept @State.setHome_fr]; done)
  | ((repeat' split) <;> simp [*, kept @State.pmcStop_fr, kept @State.post_fr, kept @State.setHome_fr]; done)
  | ((try dsimp only); (repeat' split) <;> simp (disch := (intros; (repeat' split) <;> simp [*, kept @State.pmcStop_fr, kept @State.post_fr, kept @State.setHome_fr])) [*, kept @State.pmcStop_fr, kept @State.post_fr, kept @State.setHome_fr]; done)
  | (refine State.taskDo_links _ _ _ (fun _ => ?_); (repeat' split) <;> first | exact keepsM_pure _ _ | (simp [*, kept @State.pmcStop_fr, kept @State.post_fr, kept @State.setHome_fr]; done))

@[simp] theorem State.beginSnoops_aplicS (s : State) (t : Nat) (x : HTxn) (next : State → State) (hnext : ∀ x0, (next x0).aplicS = x0.aplicS) : (State.beginSnoops s t x next).aplicS = s.aplicS := by
  unfold State.beginSnoops
  first
  | (simp [*, kept @State.pmcStop_fr, kept @State.post_fr, kept @State.setHome_fr]; done)
  | ((repeat' split) <;> simp [*, kept @State.pmcStop_fr, kept @State.post_fr, kept @State.setHome_fr]; done)
  | ((try dsimp only); (repeat' split) <;> simp (disch := (intros; (repeat' split) <;> simp [*, kept @State.pmcStop_fr, kept @State.post_fr, kept @State.setHome_fr])) [*, kept @State.pmcStop_fr, kept @State.post_fr, kept @State.setHome_fr]; done)
  | (refine State.taskDo_aplicS _ _ _ (fun _ => ?_); (repeat' split) <;> first | exact keepsM_pure _ _ | (simp [*, kept @State.pmcStop_fr, kept @State.post_fr, kept @State.setHome_fr]; done))

@[simp] theorem State.beginSnoops_aplicN (s : State) (t : Nat) (x : HTxn) (next : State → State) (hnext : ∀ x0, (next x0).aplicN = x0.aplicN) : (State.beginSnoops s t x next).aplicN = s.aplicN := by
  unfold State.beginSnoops
  first
  | (simp [*, kept @State.pmcStop_fr, kept @State.post_fr, kept @State.setHome_fr]; done)
  | ((repeat' split) <;> simp [*, kept @State.pmcStop_fr, kept @State.post_fr, kept @State.setHome_fr]; done)
  | ((try dsimp only); (repeat' split) <;> simp (disch := (intros; (repeat' split) <;> simp [*, kept @State.pmcStop_fr, kept @State.post_fr, kept @State.setHome_fr])) [*, kept @State.pmcStop_fr, kept @State.post_fr, kept @State.setHome_fr]; done)
  | (refine State.taskDo_aplicN _ _ _ (fun _ => ?_); (repeat' split) <;> first | exact keepsM_pure _ _ | (simp [*, kept @State.pmcStop_fr, kept @State.post_fr, kept @State.setHome_fr]; done))

@[simp] theorem State.beginSnoops_credits (s : State) (t : Nat) (x : HTxn) (next : State → State) (hnext : ∀ x0, (next x0).credits = x0.credits) : (State.beginSnoops s t x next).credits = s.credits := by
  unfold State.beginSnoops
  first
  | (simp [*, kept @State.pmcStop_fr, kept @State.post_fr, kept @State.setHome_fr]; done)
  | ((repeat' split) <;> simp [*, kept @State.pmcStop_fr, kept @State.post_fr, kept @State.setHome_fr]; done)
  | ((try dsimp only); (repeat' split) <;> simp (disch := (intros; (repeat' split) <;> simp [*, kept @State.pmcStop_fr, kept @State.post_fr, kept @State.setHome_fr])) [*, kept @State.pmcStop_fr, kept @State.post_fr, kept @State.setHome_fr]; done)
  | (refine State.taskDo_credits _ _ _ (fun _ => ?_); (repeat' split) <;> first | exact keepsM_pure _ _ | (simp [*, kept @State.pmcStop_fr, kept @State.post_fr, kept @State.setHome_fr]; done))

@[simp] theorem State.beginSnoops_clusters (s : State) (t : Nat) (x : HTxn) (next : State → State) (hnext : ∀ x0, (next x0).clusters = x0.clusters) : (State.beginSnoops s t x next).clusters = s.clusters := by
  unfold State.beginSnoops
  first
  | (simp [*, kept @State.pmcStop_fr, kept @State.post_fr, kept @State.setHome_fr]; done)
  | ((repeat' split) <;> simp [*, kept @State.pmcStop_fr, kept @State.post_fr, kept @State.setHome_fr]; done)
  | ((try dsimp only); (repeat' split) <;> simp (disch := (intros; (repeat' split) <;> simp [*, kept @State.pmcStop_fr, kept @State.post_fr, kept @State.setHome_fr])) [*, kept @State.pmcStop_fr, kept @State.post_fr, kept @State.setHome_fr]; done)
  | (refine State.taskDo_clusters _ _ _ (fun _ => ?_); (repeat' split) <;> first | exact keepsM_pure _ _ | (simp [*, kept @State.pmcStop_fr, kept @State.post_fr, kept @State.setHome_fr]; done))

@[simp] theorem State.beginSnoops_pkts (s : State) (t : Nat) (x : HTxn) (next : State → State) (hnext : ∀ x0, (next x0).pkts = x0.pkts) : (State.beginSnoops s t x next).pkts = s.pkts := by
  unfold State.beginSnoops
  first
  | (simp [*, kept @State.pmcStop_fr, kept @State.post_fr, kept @State.setHome_fr]; done)
  | ((repeat' split) <;> simp [*, kept @State.pmcStop_fr, kept @State.post_fr, kept @State.setHome_fr]; done)
  | ((try dsimp only); (repeat' split) <;> simp (disch := (intros; (repeat' split) <;> simp [*, kept @State.pmcStop_fr, kept @State.post_fr, kept @State.setHome_fr])) [*, kept @State.pmcStop_fr, kept @State.post_fr, kept @State.setHome_fr]; done)
  | (refine State.taskDo_pkts _ _ _ (fun _ => ?_); (repeat' split) <;> first | exact keepsM_pure _ _ | (simp [*, kept @State.pmcStop_fr, kept @State.post_fr, kept @State.setHome_fr]; done))

@[simp] theorem State.beginSnoops_resp (s : State) (t : Nat) (x : HTxn) (next : State → State) (hnext : ∀ x0, (next x0).resp = x0.resp) : (State.beginSnoops s t x next).resp = s.resp := by
  unfold State.beginSnoops
  first
  | (simp [*, kept @State.pmcStop_fr, kept @State.post_fr, kept @State.setHome_fr]; done)
  | ((repeat' split) <;> simp [*, kept @State.pmcStop_fr, kept @State.post_fr, kept @State.setHome_fr]; done)
  | ((try dsimp only); (repeat' split) <;> simp (disch := (intros; (repeat' split) <;> simp [*, kept @State.pmcStop_fr, kept @State.post_fr, kept @State.setHome_fr])) [*, kept @State.pmcStop_fr, kept @State.post_fr, kept @State.setHome_fr]; done)
  | (refine State.taskDo_resp _ _ _ (fun _ => ?_); (repeat' split) <;> first | exact keepsM_pure _ _ | (simp [*, kept @State.pmcStop_fr, kept @State.post_fr, kept @State.setHome_fr]; done))

@[simp] theorem State.beginSnoops_wires (s : State) (t : Nat) (x : HTxn) (next : State → State) (hnext : ∀ x0, (next x0).wires = x0.wires) : (State.beginSnoops s t x next).wires = s.wires := by
  unfold State.beginSnoops
  first
  | (simp [*, kept @State.pmcStop_fr, kept @State.post_fr, kept @State.setHome_fr]; done)
  | ((repeat' split) <;> simp [*, kept @State.pmcStop_fr, kept @State.post_fr, kept @State.setHome_fr]; done)
  | ((try dsimp only); (repeat' split) <;> simp (disch := (intros; (repeat' split) <;> simp [*, kept @State.pmcStop_fr, kept @State.post_fr, kept @State.setHome_fr])) [*, kept @State.pmcStop_fr, kept @State.post_fr, kept @State.setHome_fr]; done)
  | (refine State.taskDo_wires _ _ _ (fun _ => ?_); (repeat' split) <;> first | exact keepsM_pure _ _ | (simp [*, kept @State.pmcStop_fr, kept @State.post_fr, kept @State.setHome_fr]; done))

@[simp] theorem State.beginSnoops_dmg (s : State) (t : Nat) (x : HTxn) (next : State → State) (hnext : ∀ x0, (next x0).dmg = x0.dmg) : (State.beginSnoops s t x next).dmg = s.dmg := by
  unfold State.beginSnoops
  first
  | (simp [*, kept @State.pmcStop_fr, kept @State.post_fr, kept @State.setHome_fr]; done)
  | ((repeat' split) <;> simp [*, kept @State.pmcStop_fr, kept @State.post_fr, kept @State.setHome_fr]; done)
  | ((try dsimp only); (repeat' split) <;> simp (disch := (intros; (repeat' split) <;> simp [*, kept @State.pmcStop_fr, kept @State.post_fr, kept @State.setHome_fr])) [*, kept @State.pmcStop_fr, kept @State.post_fr, kept @State.setHome_fr]; done)
  | (refine State.taskDo_dmg _ _ _ (fun _ => ?_); (repeat' split) <;> first | exact keepsM_pure _ _ | (simp [*, kept @State.pmcStop_fr, kept @State.post_fr, kept @State.setHome_fr]; done))

@[simp] theorem State.beginSnoops_dbInval (s : State) (t : Nat) (x : HTxn) (next : State → State) (hnext : ∀ x0, (next x0).dbInval = x0.dbInval) : (State.beginSnoops s t x next).dbInval = s.dbInval := by
  unfold State.beginSnoops
  first
  | (simp [*, kept @State.pmcStop_fr, kept @State.post_fr, kept @State.setHome_fr]; done)
  | ((repeat' split) <;> simp [*, kept @State.pmcStop_fr, kept @State.post_fr, kept @State.setHome_fr]; done)
  | ((try dsimp only); (repeat' split) <;> simp (disch := (intros; (repeat' split) <;> simp [*, kept @State.pmcStop_fr, kept @State.post_fr, kept @State.setHome_fr])) [*, kept @State.pmcStop_fr, kept @State.post_fr, kept @State.setHome_fr]; done)
  | (refine State.taskDo_dbInval _ _ _ (fun _ => ?_); (repeat' split) <;> first | exact keepsM_pure _ _ | (simp [*, kept @State.pmcStop_fr, kept @State.post_fr, kept @State.setHome_fr]; done))

@[simp] theorem State.beginSnoops_watch (s : State) (t : Nat) (x : HTxn) (next : State → State) (hnext : ∀ x0, (next x0).watch = x0.watch) : (State.beginSnoops s t x next).watch = s.watch := by
  unfold State.beginSnoops
  first
  | (simp [*, kept @State.pmcStop_fr, kept @State.post_fr, kept @State.setHome_fr]; done)
  | ((repeat' split) <;> simp [*, kept @State.pmcStop_fr, kept @State.post_fr, kept @State.setHome_fr]; done)
  | ((try dsimp only); (repeat' split) <;> simp (disch := (intros; (repeat' split) <;> simp [*, kept @State.pmcStop_fr, kept @State.post_fr, kept @State.setHome_fr])) [*, kept @State.pmcStop_fr, kept @State.post_fr, kept @State.setHome_fr]; done)
  | (refine State.taskDo_watch _ _ _ (fun _ => ?_); (repeat' split) <;> first | exact keepsM_pure _ _ | (simp [*, kept @State.pmcStop_fr, kept @State.post_fr, kept @State.setHome_fr]; done))

@[simp] theorem State.beginSnoops_pkg (s : State) (t : Nat) (x : HTxn) (next : State → State) (hnext : ∀ x0, (next x0).pkg = x0.pkg) : (State.beginSnoops s t x next).pkg = s.pkg := by
  unfold State.beginSnoops
  first
  | (simp [*, kept @State.pmcStop_fr, kept @State.post_fr, kept @State.setHome_fr]; done)
  | ((repeat' split) <;> simp [*, kept @State.pmcStop_fr, kept @State.post_fr, kept @State.setHome_fr]; done)
  | ((try dsimp only); (repeat' split) <;> simp (disch := (intros; (repeat' split) <;> simp [*, kept @State.pmcStop_fr, kept @State.post_fr, kept @State.setHome_fr])) [*, kept @State.pmcStop_fr, kept @State.post_fr, kept @State.setHome_fr]; done)
  | (refine State.taskDo_pkg _ _ _ (fun _ => ?_); (repeat' split) <;> first | exact keepsM_pure _ _ | (simp [*, kept @State.pmcStop_fr, kept @State.post_fr, kept @State.setHome_fr]; done))

@[simp] theorem State.beginSnoops_pmc (s : State) (t : Nat) (x : HTxn) (next : State → State) (hnext : ∀ x0, (next x0).pmc = x0.pmc) : (State.beginSnoops s t x next).pmc = s.pmc := by
  unfold State.beginSnoops
  first
  | (simp [*, kept @State.pmcStop_fr, kept @State.post_fr, kept @State.setHome_fr]; done)
  | ((repeat' split) <;> simp [*, kept @State.pmcStop_fr, kept @State.post_fr, kept @State.setHome_fr]; done)
  | ((try dsimp only); (repeat' split) <;> simp (disch := (intros; (repeat' split) <;> simp [*, kept @State.pmcStop_fr, kept @State.post_fr, kept @State.setHome_fr])) [*, kept @State.pmcStop_fr, kept @State.post_fr, kept @State.setHome_fr]; done)
  | (refine State.taskDo_pmc _ _ _ (fun _ => ?_); (repeat' split) <;> first | exact keepsM_pure _ _ | (simp [*, kept @State.pmcStop_fr, kept @State.post_fr, kept @State.setHome_fr]; done))

@[simp] theorem State.beginSnoops_out (s : State) (t : Nat) (x : HTxn) (next : State → State) (hnext : ∀ x0, (next x0).out = x0.out) : (State.beginSnoops s t x next).out = s.out := by
  unfold State.beginSnoops
  first
  | (simp [*, kept @State.pmcStop_fr, kept @State.post_fr, kept @State.setHome_fr]; done)
  | ((repeat' split) <;> simp [*, kept @State.pmcStop_fr, kept @State.post_fr, kept @State.setHome_fr]; done)
  | ((try dsimp only); (repeat' split) <;> simp (disch := (intros; (repeat' split) <;> simp [*, kept @State.pmcStop_fr, kept @State.post_fr, kept @State.setHome_fr])) [*, kept @State.pmcStop_fr, kept @State.post_fr, kept @State.setHome_fr]; done)
  | (refine State.taskDo_out _ _ _ (fun _ => ?_); (repeat' split) <;> first | exact keepsM_pure _ _ | (simp [*, kept @State.pmcStop_fr, kept @State.post_fr, kept @State.setHome_fr]; done))

@[simp] theorem State.beginSnoops_free (s : State) (t : Nat) (x : HTxn) (next : State → State) (hnext : ∀ x0, (next x0).free = x0.free) : (State.beginSnoops s t x next).free = s.free := by
  unfold State.beginSnoops
  first
  | (simp [*, kept @State.pmcStop_fr, kept @State.post_fr, kept @State.setHome_fr]; done)
  | ((repeat' split) <;> simp [*, kept @State.pmcStop_fr, kept @State.post_fr, kept @State.setHome_fr]; done)
  | ((try dsimp only); (repeat' split) <;> simp (disch := (intros; (repeat' split) <;> simp [*, kept @State.pmcStop_fr, kept @State.post_fr, kept @State.setHome_fr])) [*, kept @State.pmcStop_fr, kept @State.post_fr, kept @State.setHome_fr]; done)
  | (refine State.taskDo_free _ _ _ (fun _ => ?_); (repeat' split) <;> first | exact keepsM_pure _ _ | (simp [*, kept @State.pmcStop_fr, kept @State.post_fr, kept @State.setHome_fr]; done))

theorem State.unwait_fr (s : State) (t : Nat) (y : HReq) : (State.unwait s t y).pending = s.pending ∧ (State.unwait s t y).flash = s.flash ∧ (State.unwait s t y).coldOpt = s.coldOpt ∧ (State.unwait s t y).mem = s.mem ∧ (State.unwait s t y).harts = s.harts ∧ (State.unwait s t y).mram = s.mram ∧ (State.unwait s t y).imsic = s.imsic ∧ (State.unwait s t y).eng = s.eng ∧ (State.unwait s t y).dm = s.dm ∧ (State.unwait s t y).fx = s.fx ∧ (State.unwait s t y).ctu = s.ctu ∧ (State.unwait s t y).links = s.links ∧ (State.unwait s t y).aplicS = s.aplicS ∧ (State.unwait s t y).aplicN = s.aplicN ∧ (State.unwait s t y).credits = s.credits ∧ (State.unwait s t y).clusters = s.clusters ∧ (State.unwait s t y).pkts = s.pkts ∧ (State.unwait s t y).resp = s.resp ∧ (State.unwait s t y).regs = s.regs ∧ (State.unwait s t y).wires = s.wires ∧ (State.unwait s t y).dmg = s.dmg ∧ (State.unwait s t y).wq = s.wq ∧ (State.unwait s t y).net = s.net ∧ (State.unwait s t y).dbInval = s.dbInval ∧ (State.unwait s t y).watch = s.watch ∧ (State.unwait s t y).pkg = s.pkg ∧ (State.unwait s t y).pmc = s.pmc ∧ (State.unwait s t y).fwLog = s.fwLog ∧ (State.unwait s t y).out = s.out ∧ (State.unwait s t y).free = s.free ∧ (State.unwait s t y).fabric = s.fabric ∧ (State.unwait s t y).files = s.files := by
  generalize h : State.unwait s t y = u
  unfold State.unwait at h
  (try dsimp only at h); (repeat' split at h) <;> rw [← h] <;> simp [kept @State.setHome_fr]

@[simp] theorem State.serve_pending (s : State) (t : Nat) (r : HReq) (n : Nat) : (s.serve t r n).pending = s.pending := by
  induction n generalizing s r with
  | zero => rfl
  | succ n ih =>
    have hn : ∀ u : State, (match u.waiter t (fun y => y.ln == r.ln) with | some y => (u.unwait t y).serve t y n | none => u).pending = u.pending := by
      intro u; split <;> simp [ih, kept @State.unwait_fr]
    unfold State.serve
    dsimp only
    repeat' split
    all_goals first
      | (simp [kept @State.lfsrPick_fr, kept @State.logFw_fr, kept @State.pmcStop_fr, kept @State.reply_fr, kept @State.setHome_fr, kept @State.unwait_fr]; done)
      | (rw [State.beginSnoops_pending]
         · simp [kept @State.lfsrPick_fr, kept @State.logFw_fr, kept @State.pmcStop_fr, kept @State.reply_fr, kept @State.setHome_fr, kept @State.unwait_fr]
         · intro u; first
           | exact hn u
           | (split <;> first | rfl | exact State.beginSnoops_pending _ _ _ _ hn))

@[simp] theorem State.serve_files (s : State) (t : Nat) (r : HReq) (n : Nat) : (s.serve t r n).files = s.files := by
  induction n generalizing s r with
  | zero => rfl
  | succ n ih =>
    have hn : ∀ u : State, (match u.waiter t (fun y => y.ln == r.ln) with | some y => (u.unwait t y).serve t y n | none => u).files = u.files := by
      intro u; split <;> simp [ih, kept @State.unwait_fr]
    unfold State.serve
    dsimp only
    repeat' split
    all_goals first
      | (simp [kept @State.lfsrPick_fr, kept @State.logFw_fr, kept @State.pmcStop_fr, kept @State.reply_fr, kept @State.setHome_fr, kept @State.unwait_fr]; done)
      | (rw [State.beginSnoops_files]
         · simp [kept @State.lfsrPick_fr, kept @State.logFw_fr, kept @State.pmcStop_fr, kept @State.reply_fr, kept @State.setHome_fr, kept @State.unwait_fr]
         · intro u; first
           | exact hn u
           | (split <;> first | rfl | exact State.beginSnoops_files _ _ _ _ hn))

@[simp] theorem State.serve_fabric (s : State) (t : Nat) (r : HReq) (n : Nat) : (s.serve t r n).fabric = s.fabric := by
  induction n generalizing s r with
  | zero => rfl
  | succ n ih =>
    have hn : ∀ u : State, (match u.waiter t (fun y => y.ln == r.ln) with | some y => (u.unwait t y).serve t y n | none => u).fabric = u.fabric := by
      intro u; split <;> simp [ih, kept @State.unwait_fr]
    unfold State.serve
    dsimp only
    repeat' split
    all_goals first
      | (simp [kept @State.lfsrPick_fr, kept @State.logFw_fr, kept @State.pmcStop_fr, kept @State.reply_fr, kept @State.setHome_fr, kept @State.unwait_fr]; done)
      | (rw [State.beginSnoops_fabric]
         · simp [kept @State.lfsrPick_fr, kept @State.logFw_fr, kept @State.pmcStop_fr, kept @State.reply_fr, kept @State.setHome_fr, kept @State.unwait_fr]
         · intro u; first
           | exact hn u
           | (split <;> first | rfl | exact State.beginSnoops_fabric _ _ _ _ hn))

@[simp] theorem State.serve_flash (s : State) (t : Nat) (r : HReq) (n : Nat) : (s.serve t r n).flash = s.flash := by
  induction n generalizing s r with
  | zero => rfl
  | succ n ih =>
    have hn : ∀ u : State, (match u.waiter t (fun y => y.ln == r.ln) with | some y => (u.unwait t y).serve t y n | none => u).flash = u.flash := by
      intro u; split <;> simp [ih, kept @State.unwait_fr]
    unfold State.serve
    dsimp only
    repeat' split
    all_goals first
      | (simp [kept @State.lfsrPick_fr, kept @State.logFw_fr, kept @State.pmcStop_fr, kept @State.reply_fr, kept @State.setHome_fr, kept @State.unwait_fr]; done)
      | (rw [State.beginSnoops_flash]
         · simp [kept @State.lfsrPick_fr, kept @State.logFw_fr, kept @State.pmcStop_fr, kept @State.reply_fr, kept @State.setHome_fr, kept @State.unwait_fr]
         · intro u; first
           | exact hn u
           | (split <;> first | rfl | exact State.beginSnoops_flash _ _ _ _ hn))

@[simp] theorem State.serve_coldOpt (s : State) (t : Nat) (r : HReq) (n : Nat) : (s.serve t r n).coldOpt = s.coldOpt := by
  induction n generalizing s r with
  | zero => rfl
  | succ n ih =>
    have hn : ∀ u : State, (match u.waiter t (fun y => y.ln == r.ln) with | some y => (u.unwait t y).serve t y n | none => u).coldOpt = u.coldOpt := by
      intro u; split <;> simp [ih, kept @State.unwait_fr]
    unfold State.serve
    dsimp only
    repeat' split
    all_goals first
      | (simp [kept @State.lfsrPick_fr, kept @State.logFw_fr, kept @State.pmcStop_fr, kept @State.reply_fr, kept @State.setHome_fr, kept @State.unwait_fr]; done)
      | (rw [State.beginSnoops_coldOpt]
         · simp [kept @State.lfsrPick_fr, kept @State.logFw_fr, kept @State.pmcStop_fr, kept @State.reply_fr, kept @State.setHome_fr, kept @State.unwait_fr]
         · intro u; first
           | exact hn u
           | (split <;> first | rfl | exact State.beginSnoops_coldOpt _ _ _ _ hn))

@[simp] theorem State.serve_mem (s : State) (t : Nat) (r : HReq) (n : Nat) : (s.serve t r n).mem = s.mem := by
  induction n generalizing s r with
  | zero => rfl
  | succ n ih =>
    have hn : ∀ u : State, (match u.waiter t (fun y => y.ln == r.ln) with | some y => (u.unwait t y).serve t y n | none => u).mem = u.mem := by
      intro u; split <;> simp [ih, kept @State.unwait_fr]
    unfold State.serve
    dsimp only
    repeat' split
    all_goals first
      | (simp [kept @State.lfsrPick_fr, kept @State.logFw_fr, kept @State.pmcStop_fr, kept @State.reply_fr, kept @State.setHome_fr, kept @State.unwait_fr]; done)
      | (rw [State.beginSnoops_mem]
         · simp [kept @State.lfsrPick_fr, kept @State.logFw_fr, kept @State.pmcStop_fr, kept @State.reply_fr, kept @State.setHome_fr, kept @State.unwait_fr]
         · intro u; first
           | exact hn u
           | (split <;> first | rfl | exact State.beginSnoops_mem _ _ _ _ hn))

@[simp] theorem State.serve_harts (s : State) (t : Nat) (r : HReq) (n : Nat) : (s.serve t r n).harts = s.harts := by
  induction n generalizing s r with
  | zero => rfl
  | succ n ih =>
    have hn : ∀ u : State, (match u.waiter t (fun y => y.ln == r.ln) with | some y => (u.unwait t y).serve t y n | none => u).harts = u.harts := by
      intro u; split <;> simp [ih, kept @State.unwait_fr]
    unfold State.serve
    dsimp only
    repeat' split
    all_goals first
      | (simp [kept @State.lfsrPick_fr, kept @State.logFw_fr, kept @State.pmcStop_fr, kept @State.reply_fr, kept @State.setHome_fr, kept @State.unwait_fr]; done)
      | (rw [State.beginSnoops_harts]
         · simp [kept @State.lfsrPick_fr, kept @State.logFw_fr, kept @State.pmcStop_fr, kept @State.reply_fr, kept @State.setHome_fr, kept @State.unwait_fr]
         · intro u; first
           | exact hn u
           | (split <;> first | rfl | exact State.beginSnoops_harts _ _ _ _ hn))

@[simp] theorem State.serve_mram (s : State) (t : Nat) (r : HReq) (n : Nat) : (s.serve t r n).mram = s.mram := by
  induction n generalizing s r with
  | zero => rfl
  | succ n ih =>
    have hn : ∀ u : State, (match u.waiter t (fun y => y.ln == r.ln) with | some y => (u.unwait t y).serve t y n | none => u).mram = u.mram := by
      intro u; split <;> simp [ih, kept @State.unwait_fr]
    unfold State.serve
    dsimp only
    repeat' split
    all_goals first
      | (simp [kept @State.lfsrPick_fr, kept @State.logFw_fr, kept @State.pmcStop_fr, kept @State.reply_fr, kept @State.setHome_fr, kept @State.unwait_fr]; done)
      | (rw [State.beginSnoops_mram]
         · simp [kept @State.lfsrPick_fr, kept @State.logFw_fr, kept @State.pmcStop_fr, kept @State.reply_fr, kept @State.setHome_fr, kept @State.unwait_fr]
         · intro u; first
           | exact hn u
           | (split <;> first | rfl | exact State.beginSnoops_mram _ _ _ _ hn))

@[simp] theorem State.serve_imsic (s : State) (t : Nat) (r : HReq) (n : Nat) : (s.serve t r n).imsic = s.imsic := by
  induction n generalizing s r with
  | zero => rfl
  | succ n ih =>
    have hn : ∀ u : State, (match u.waiter t (fun y => y.ln == r.ln) with | some y => (u.unwait t y).serve t y n | none => u).imsic = u.imsic := by
      intro u; split <;> simp [ih, kept @State.unwait_fr]
    unfold State.serve
    dsimp only
    repeat' split
    all_goals first
      | (simp [kept @State.lfsrPick_fr, kept @State.logFw_fr, kept @State.pmcStop_fr, kept @State.reply_fr, kept @State.setHome_fr, kept @State.unwait_fr]; done)
      | (rw [State.beginSnoops_imsic]
         · simp [kept @State.lfsrPick_fr, kept @State.logFw_fr, kept @State.pmcStop_fr, kept @State.reply_fr, kept @State.setHome_fr, kept @State.unwait_fr]
         · intro u; first
           | exact hn u
           | (split <;> first | rfl | exact State.beginSnoops_imsic _ _ _ _ hn))

@[simp] theorem State.serve_eng (s : State) (t : Nat) (r : HReq) (n : Nat) : (s.serve t r n).eng = s.eng := by
  induction n generalizing s r with
  | zero => rfl
  | succ n ih =>
    have hn : ∀ u : State, (match u.waiter t (fun y => y.ln == r.ln) with | some y => (u.unwait t y).serve t y n | none => u).eng = u.eng := by
      intro u; split <;> simp [ih, kept @State.unwait_fr]
    unfold State.serve
    dsimp only
    repeat' split
    all_goals first
      | (simp [kept @State.lfsrPick_fr, kept @State.logFw_fr, kept @State.pmcStop_fr, kept @State.reply_fr, kept @State.setHome_fr, kept @State.unwait_fr]; done)
      | (rw [State.beginSnoops_eng]
         · simp [kept @State.lfsrPick_fr, kept @State.logFw_fr, kept @State.pmcStop_fr, kept @State.reply_fr, kept @State.setHome_fr, kept @State.unwait_fr]
         · intro u; first
           | exact hn u
           | (split <;> first | rfl | exact State.beginSnoops_eng _ _ _ _ hn))

@[simp] theorem State.serve_dm (s : State) (t : Nat) (r : HReq) (n : Nat) : (s.serve t r n).dm = s.dm := by
  induction n generalizing s r with
  | zero => rfl
  | succ n ih =>
    have hn : ∀ u : State, (match u.waiter t (fun y => y.ln == r.ln) with | some y => (u.unwait t y).serve t y n | none => u).dm = u.dm := by
      intro u; split <;> simp [ih, kept @State.unwait_fr]
    unfold State.serve
    dsimp only
    repeat' split
    all_goals first
      | (simp [kept @State.lfsrPick_fr, kept @State.logFw_fr, kept @State.pmcStop_fr, kept @State.reply_fr, kept @State.setHome_fr, kept @State.unwait_fr]; done)
      | (rw [State.beginSnoops_dm]
         · simp [kept @State.lfsrPick_fr, kept @State.logFw_fr, kept @State.pmcStop_fr, kept @State.reply_fr, kept @State.setHome_fr, kept @State.unwait_fr]
         · intro u; first
           | exact hn u
           | (split <;> first | rfl | exact State.beginSnoops_dm _ _ _ _ hn))

@[simp] theorem State.serve_fx (s : State) (t : Nat) (r : HReq) (n : Nat) : (s.serve t r n).fx = s.fx := by
  induction n generalizing s r with
  | zero => rfl
  | succ n ih =>
    have hn : ∀ u : State, (match u.waiter t (fun y => y.ln == r.ln) with | some y => (u.unwait t y).serve t y n | none => u).fx = u.fx := by
      intro u; split <;> simp [ih, kept @State.unwait_fr]
    unfold State.serve
    dsimp only
    repeat' split
    all_goals first
      | (simp [kept @State.lfsrPick_fr, kept @State.logFw_fr, kept @State.pmcStop_fr, kept @State.reply_fr, kept @State.setHome_fr, kept @State.unwait_fr]; done)
      | (rw [State.beginSnoops_fx]
         · simp [kept @State.lfsrPick_fr, kept @State.logFw_fr, kept @State.pmcStop_fr, kept @State.reply_fr, kept @State.setHome_fr, kept @State.unwait_fr]
         · intro u; first
           | exact hn u
           | (split <;> first | rfl | exact State.beginSnoops_fx _ _ _ _ hn))

@[simp] theorem State.serve_ctu (s : State) (t : Nat) (r : HReq) (n : Nat) : (s.serve t r n).ctu = s.ctu := by
  induction n generalizing s r with
  | zero => rfl
  | succ n ih =>
    have hn : ∀ u : State, (match u.waiter t (fun y => y.ln == r.ln) with | some y => (u.unwait t y).serve t y n | none => u).ctu = u.ctu := by
      intro u; split <;> simp [ih, kept @State.unwait_fr]
    unfold State.serve
    dsimp only
    repeat' split
    all_goals first
      | (simp [kept @State.lfsrPick_fr, kept @State.logFw_fr, kept @State.pmcStop_fr, kept @State.reply_fr, kept @State.setHome_fr, kept @State.unwait_fr]; done)
      | (rw [State.beginSnoops_ctu]
         · simp [kept @State.lfsrPick_fr, kept @State.logFw_fr, kept @State.pmcStop_fr, kept @State.reply_fr, kept @State.setHome_fr, kept @State.unwait_fr]
         · intro u; first
           | exact hn u
           | (split <;> first | rfl | exact State.beginSnoops_ctu _ _ _ _ hn))

@[simp] theorem State.serve_links (s : State) (t : Nat) (r : HReq) (n : Nat) : (s.serve t r n).links = s.links := by
  induction n generalizing s r with
  | zero => rfl
  | succ n ih =>
    have hn : ∀ u : State, (match u.waiter t (fun y => y.ln == r.ln) with | some y => (u.unwait t y).serve t y n | none => u).links = u.links := by
      intro u; split <;> simp [ih, kept @State.unwait_fr]
    unfold State.serve
    dsimp only
    repeat' split
    all_goals first
      | (simp [kept @State.lfsrPick_fr, kept @State.logFw_fr, kept @State.pmcStop_fr, kept @State.reply_fr, kept @State.setHome_fr, kept @State.unwait_fr]; done)
      | (rw [State.beginSnoops_links]
         · simp [kept @State.lfsrPick_fr, kept @State.logFw_fr, kept @State.pmcStop_fr, kept @State.reply_fr, kept @State.setHome_fr, kept @State.unwait_fr]
         · intro u; first
           | exact hn u
           | (split <;> first | rfl | exact State.beginSnoops_links _ _ _ _ hn))

@[simp] theorem State.serve_aplicS (s : State) (t : Nat) (r : HReq) (n : Nat) : (s.serve t r n).aplicS = s.aplicS := by
  induction n generalizing s r with
  | zero => rfl
  | succ n ih =>
    have hn : ∀ u : State, (match u.waiter t (fun y => y.ln == r.ln) with | some y => (u.unwait t y).serve t y n | none => u).aplicS = u.aplicS := by
      intro u; split <;> simp [ih, kept @State.unwait_fr]
    unfold State.serve
    dsimp only
    repeat' split
    all_goals first
      | (simp [kept @State.lfsrPick_fr, kept @State.logFw_fr, kept @State.pmcStop_fr, kept @State.reply_fr, kept @State.setHome_fr, kept @State.unwait_fr]; done)
      | (rw [State.beginSnoops_aplicS]
         · simp [kept @State.lfsrPick_fr, kept @State.logFw_fr, kept @State.pmcStop_fr, kept @State.reply_fr, kept @State.setHome_fr, kept @State.unwait_fr]
         · intro u; first
           | exact hn u
           | (split <;> first | rfl | exact State.beginSnoops_aplicS _ _ _ _ hn))

@[simp] theorem State.serve_aplicN (s : State) (t : Nat) (r : HReq) (n : Nat) : (s.serve t r n).aplicN = s.aplicN := by
  induction n generalizing s r with
  | zero => rfl
  | succ n ih =>
    have hn : ∀ u : State, (match u.waiter t (fun y => y.ln == r.ln) with | some y => (u.unwait t y).serve t y n | none => u).aplicN = u.aplicN := by
      intro u; split <;> simp [ih, kept @State.unwait_fr]
    unfold State.serve
    dsimp only
    repeat' split
    all_goals first
      | (simp [kept @State.lfsrPick_fr, kept @State.logFw_fr, kept @State.pmcStop_fr, kept @State.reply_fr, kept @State.setHome_fr, kept @State.unwait_fr]; done)
      | (rw [State.beginSnoops_aplicN]
         · simp [kept @State.lfsrPick_fr, kept @State.logFw_fr, kept @State.pmcStop_fr, kept @State.reply_fr, kept @State.setHome_fr, kept @State.unwait_fr]
         · intro u; first
           | exact hn u
           | (split <;> first | rfl | exact State.beginSnoops_aplicN _ _ _ _ hn))

@[simp] theorem State.serve_credits (s : State) (t : Nat) (r : HReq) (n : Nat) : (s.serve t r n).credits = s.credits := by
  induction n generalizing s r with
  | zero => rfl
  | succ n ih =>
    have hn : ∀ u : State, (match u.waiter t (fun y => y.ln == r.ln) with | some y => (u.unwait t y).serve t y n | none => u).credits = u.credits := by
      intro u; split <;> simp [ih, kept @State.unwait_fr]
    unfold State.serve
    dsimp only
    repeat' split
    all_goals first
      | (simp [kept @State.lfsrPick_fr, kept @State.logFw_fr, kept @State.pmcStop_fr, kept @State.reply_fr, kept @State.setHome_fr, kept @State.unwait_fr]; done)
      | (rw [State.beginSnoops_credits]
         · simp [kept @State.lfsrPick_fr, kept @State.logFw_fr, kept @State.pmcStop_fr, kept @State.reply_fr, kept @State.setHome_fr, kept @State.unwait_fr]
         · intro u; first
           | exact hn u
           | (split <;> first | rfl | exact State.beginSnoops_credits _ _ _ _ hn))

@[simp] theorem State.serve_clusters (s : State) (t : Nat) (r : HReq) (n : Nat) : (s.serve t r n).clusters = s.clusters := by
  induction n generalizing s r with
  | zero => rfl
  | succ n ih =>
    have hn : ∀ u : State, (match u.waiter t (fun y => y.ln == r.ln) with | some y => (u.unwait t y).serve t y n | none => u).clusters = u.clusters := by
      intro u; split <;> simp [ih, kept @State.unwait_fr]
    unfold State.serve
    dsimp only
    repeat' split
    all_goals first
      | (simp [kept @State.lfsrPick_fr, kept @State.logFw_fr, kept @State.pmcStop_fr, kept @State.reply_fr, kept @State.setHome_fr, kept @State.unwait_fr]; done)
      | (rw [State.beginSnoops_clusters]
         · simp [kept @State.lfsrPick_fr, kept @State.logFw_fr, kept @State.pmcStop_fr, kept @State.reply_fr, kept @State.setHome_fr, kept @State.unwait_fr]
         · intro u; first
           | exact hn u
           | (split <;> first | rfl | exact State.beginSnoops_clusters _ _ _ _ hn))

@[simp] theorem State.serve_pkts (s : State) (t : Nat) (r : HReq) (n : Nat) : (s.serve t r n).pkts = s.pkts := by
  induction n generalizing s r with
  | zero => rfl
  | succ n ih =>
    have hn : ∀ u : State, (match u.waiter t (fun y => y.ln == r.ln) with | some y => (u.unwait t y).serve t y n | none => u).pkts = u.pkts := by
      intro u; split <;> simp [ih, kept @State.unwait_fr]
    unfold State.serve
    dsimp only
    repeat' split
    all_goals first
      | (simp [kept @State.lfsrPick_fr, kept @State.logFw_fr, kept @State.pmcStop_fr, kept @State.reply_fr, kept @State.setHome_fr, kept @State.unwait_fr]; done)
      | (rw [State.beginSnoops_pkts]
         · simp [kept @State.lfsrPick_fr, kept @State.logFw_fr, kept @State.pmcStop_fr, kept @State.reply_fr, kept @State.setHome_fr, kept @State.unwait_fr]
         · intro u; first
           | exact hn u
           | (split <;> first | rfl | exact State.beginSnoops_pkts _ _ _ _ hn))

@[simp] theorem State.serve_resp (s : State) (t : Nat) (r : HReq) (n : Nat) : (s.serve t r n).resp = s.resp := by
  induction n generalizing s r with
  | zero => rfl
  | succ n ih =>
    have hn : ∀ u : State, (match u.waiter t (fun y => y.ln == r.ln) with | some y => (u.unwait t y).serve t y n | none => u).resp = u.resp := by
      intro u; split <;> simp [ih, kept @State.unwait_fr]
    unfold State.serve
    dsimp only
    repeat' split
    all_goals first
      | (simp [kept @State.lfsrPick_fr, kept @State.logFw_fr, kept @State.pmcStop_fr, kept @State.reply_fr, kept @State.setHome_fr, kept @State.unwait_fr]; done)
      | (rw [State.beginSnoops_resp]
         · simp [kept @State.lfsrPick_fr, kept @State.logFw_fr, kept @State.pmcStop_fr, kept @State.reply_fr, kept @State.setHome_fr, kept @State.unwait_fr]
         · intro u; first
           | exact hn u
           | (split <;> first | rfl | exact State.beginSnoops_resp _ _ _ _ hn))

@[simp] theorem State.serve_wires (s : State) (t : Nat) (r : HReq) (n : Nat) : (s.serve t r n).wires = s.wires := by
  induction n generalizing s r with
  | zero => rfl
  | succ n ih =>
    have hn : ∀ u : State, (match u.waiter t (fun y => y.ln == r.ln) with | some y => (u.unwait t y).serve t y n | none => u).wires = u.wires := by
      intro u; split <;> simp [ih, kept @State.unwait_fr]
    unfold State.serve
    dsimp only
    repeat' split
    all_goals first
      | (simp [kept @State.lfsrPick_fr, kept @State.logFw_fr, kept @State.pmcStop_fr, kept @State.reply_fr, kept @State.setHome_fr, kept @State.unwait_fr]; done)
      | (rw [State.beginSnoops_wires]
         · simp [kept @State.lfsrPick_fr, kept @State.logFw_fr, kept @State.pmcStop_fr, kept @State.reply_fr, kept @State.setHome_fr, kept @State.unwait_fr]
         · intro u; first
           | exact hn u
           | (split <;> first | rfl | exact State.beginSnoops_wires _ _ _ _ hn))

@[simp] theorem State.serve_dmg (s : State) (t : Nat) (r : HReq) (n : Nat) : (s.serve t r n).dmg = s.dmg := by
  induction n generalizing s r with
  | zero => rfl
  | succ n ih =>
    have hn : ∀ u : State, (match u.waiter t (fun y => y.ln == r.ln) with | some y => (u.unwait t y).serve t y n | none => u).dmg = u.dmg := by
      intro u; split <;> simp [ih, kept @State.unwait_fr]
    unfold State.serve
    dsimp only
    repeat' split
    all_goals first
      | (simp [kept @State.lfsrPick_fr, kept @State.logFw_fr, kept @State.pmcStop_fr, kept @State.reply_fr, kept @State.setHome_fr, kept @State.unwait_fr]; done)
      | (rw [State.beginSnoops_dmg]
         · simp [kept @State.lfsrPick_fr, kept @State.logFw_fr, kept @State.pmcStop_fr, kept @State.reply_fr, kept @State.setHome_fr, kept @State.unwait_fr]
         · intro u; first
           | exact hn u
           | (split <;> first | rfl | exact State.beginSnoops_dmg _ _ _ _ hn))

@[simp] theorem State.serve_dbInval (s : State) (t : Nat) (r : HReq) (n : Nat) : (s.serve t r n).dbInval = s.dbInval := by
  induction n generalizing s r with
  | zero => rfl
  | succ n ih =>
    have hn : ∀ u : State, (match u.waiter t (fun y => y.ln == r.ln) with | some y => (u.unwait t y).serve t y n | none => u).dbInval = u.dbInval := by
      intro u; split <;> simp [ih, kept @State.unwait_fr]
    unfold State.serve
    dsimp only
    repeat' split
    all_goals first
      | (simp [kept @State.lfsrPick_fr, kept @State.logFw_fr, kept @State.pmcStop_fr, kept @State.reply_fr, kept @State.setHome_fr, kept @State.unwait_fr]; done)
      | (rw [State.beginSnoops_dbInval]
         · simp [kept @State.lfsrPick_fr, kept @State.logFw_fr, kept @State.pmcStop_fr, kept @State.reply_fr, kept @State.setHome_fr, kept @State.unwait_fr]
         · intro u; first
           | exact hn u
           | (split <;> first | rfl | exact State.beginSnoops_dbInval _ _ _ _ hn))

@[simp] theorem State.serve_watch (s : State) (t : Nat) (r : HReq) (n : Nat) : (s.serve t r n).watch = s.watch := by
  induction n generalizing s r with
  | zero => rfl
  | succ n ih =>
    have hn : ∀ u : State, (match u.waiter t (fun y => y.ln == r.ln) with | some y => (u.unwait t y).serve t y n | none => u).watch = u.watch := by
      intro u; split <;> simp [ih, kept @State.unwait_fr]
    unfold State.serve
    dsimp only
    repeat' split
    all_goals first
      | (simp [kept @State.lfsrPick_fr, kept @State.logFw_fr, kept @State.pmcStop_fr, kept @State.reply_fr, kept @State.setHome_fr, kept @State.unwait_fr]; done)
      | (rw [State.beginSnoops_watch]
         · simp [kept @State.lfsrPick_fr, kept @State.logFw_fr, kept @State.pmcStop_fr, kept @State.reply_fr, kept @State.setHome_fr, kept @State.unwait_fr]
         · intro u; first
           | exact hn u
           | (split <;> first | rfl | exact State.beginSnoops_watch _ _ _ _ hn))

@[simp] theorem State.serve_pkg (s : State) (t : Nat) (r : HReq) (n : Nat) : (s.serve t r n).pkg = s.pkg := by
  induction n generalizing s r with
  | zero => rfl
  | succ n ih =>
    have hn : ∀ u : State, (match u.waiter t (fun y => y.ln == r.ln) with | some y => (u.unwait t y).serve t y n | none => u).pkg = u.pkg := by
      intro u; split <;> simp [ih, kept @State.unwait_fr]
    unfold State.serve
    dsimp only
    repeat' split
    all_goals first
      | (simp [kept @State.lfsrPick_fr, kept @State.logFw_fr, kept @State.pmcStop_fr, kept @State.reply_fr, kept @State.setHome_fr, kept @State.unwait_fr]; done)
      | (rw [State.beginSnoops_pkg]
         · simp [kept @State.lfsrPick_fr, kept @State.logFw_fr, kept @State.pmcStop_fr, kept @State.reply_fr, kept @State.setHome_fr, kept @State.unwait_fr]
         · intro u; first
           | exact hn u
           | (split <;> first | rfl | exact State.beginSnoops_pkg _ _ _ _ hn))

@[simp] theorem State.serve_pmc (s : State) (t : Nat) (r : HReq) (n : Nat) : (s.serve t r n).pmc = s.pmc := by
  induction n generalizing s r with
  | zero => rfl
  | succ n ih =>
    have hn : ∀ u : State, (match u.waiter t (fun y => y.ln == r.ln) with | some y => (u.unwait t y).serve t y n | none => u).pmc = u.pmc := by
      intro u; split <;> simp [ih, kept @State.unwait_fr]
    unfold State.serve
    dsimp only
    repeat' split
    all_goals first
      | (simp [kept @State.lfsrPick_fr, kept @State.logFw_fr, kept @State.pmcStop_fr, kept @State.reply_fr, kept @State.setHome_fr, kept @State.unwait_fr]; done)
      | (rw [State.beginSnoops_pmc]
         · simp [kept @State.lfsrPick_fr, kept @State.logFw_fr, kept @State.pmcStop_fr, kept @State.reply_fr, kept @State.setHome_fr, kept @State.unwait_fr]
         · intro u; first
           | exact hn u
           | (split <;> first | rfl | exact State.beginSnoops_pmc _ _ _ _ hn))

@[simp] theorem State.serve_out (s : State) (t : Nat) (r : HReq) (n : Nat) : (s.serve t r n).out = s.out := by
  induction n generalizing s r with
  | zero => rfl
  | succ n ih =>
    have hn : ∀ u : State, (match u.waiter t (fun y => y.ln == r.ln) with | some y => (u.unwait t y).serve t y n | none => u).out = u.out := by
      intro u; split <;> simp [ih, kept @State.unwait_fr]
    unfold State.serve
    dsimp only
    repeat' split
    all_goals first
      | (simp [kept @State.lfsrPick_fr, kept @State.logFw_fr, kept @State.pmcStop_fr, kept @State.reply_fr, kept @State.setHome_fr, kept @State.unwait_fr]; done)
      | (rw [State.beginSnoops_out]
         · simp [kept @State.lfsrPick_fr, kept @State.logFw_fr, kept @State.pmcStop_fr, kept @State.reply_fr, kept @State.setHome_fr, kept @State.unwait_fr]
         · intro u; first
           | exact hn u
           | (split <;> first | rfl | exact State.beginSnoops_out _ _ _ _ hn))

@[simp] theorem State.serve_free (s : State) (t : Nat) (r : HReq) (n : Nat) : (s.serve t r n).free = s.free := by
  induction n generalizing s r with
  | zero => rfl
  | succ n ih =>
    have hn : ∀ u : State, (match u.waiter t (fun y => y.ln == r.ln) with | some y => (u.unwait t y).serve t y n | none => u).free = u.free := by
      intro u; split <;> simp [ih, kept @State.unwait_fr]
    unfold State.serve
    dsimp only
    repeat' split
    all_goals first
      | (simp [kept @State.lfsrPick_fr, kept @State.logFw_fr, kept @State.pmcStop_fr, kept @State.reply_fr, kept @State.setHome_fr, kept @State.unwait_fr]; done)
      | (rw [State.beginSnoops_free]
         · simp [kept @State.lfsrPick_fr, kept @State.logFw_fr, kept @State.pmcStop_fr, kept @State.reply_fr, kept @State.setHome_fr, kept @State.unwait_fr]
         · intro u; first
           | exact hn u
           | (split <;> first | rfl | exact State.beginSnoops_free _ _ _ _ hn))

theorem State.reAdmit_fr (s : State) (t : Nat) : (State.reAdmit s t).pending = s.pending ∧ (State.reAdmit s t).flash = s.flash ∧ (State.reAdmit s t).coldOpt = s.coldOpt ∧ (State.reAdmit s t).mem = s.mem ∧ (State.reAdmit s t).harts = s.harts ∧ (State.reAdmit s t).mram = s.mram ∧ (State.reAdmit s t).imsic = s.imsic ∧ (State.reAdmit s t).eng = s.eng ∧ (State.reAdmit s t).dm = s.dm ∧ (State.reAdmit s t).fx = s.fx ∧ (State.reAdmit s t).ctu = s.ctu ∧ (State.reAdmit s t).links = s.links ∧ (State.reAdmit s t).aplicS = s.aplicS ∧ (State.reAdmit s t).aplicN = s.aplicN ∧ (State.reAdmit s t).credits = s.credits ∧ (State.reAdmit s t).clusters = s.clusters ∧ (State.reAdmit s t).pkts = s.pkts ∧ (State.reAdmit s t).resp = s.resp ∧ (State.reAdmit s t).wires = s.wires ∧ (State.reAdmit s t).dmg = s.dmg ∧ (State.reAdmit s t).dbInval = s.dbInval ∧ (State.reAdmit s t).watch = s.watch ∧ (State.reAdmit s t).pkg = s.pkg ∧ (State.reAdmit s t).pmc = s.pmc ∧ (State.reAdmit s t).out = s.out ∧ (State.reAdmit s t).free = s.free ∧ (State.reAdmit s t).fabric = s.fabric ∧ (State.reAdmit s t).files = s.files := by
  generalize h : State.reAdmit s t = u
  unfold State.reAdmit at h
  rw [← h]; simp [kept @State.unwait_fr]

theorem State.proceed_fr (s : State) (t : Nat) (x : HTxn) : (State.proceed s t x).pending = s.pending ∧ (State.proceed s t x).flash = s.flash ∧ (State.proceed s t x).coldOpt = s.coldOpt ∧ (State.proceed s t x).mem = s.mem ∧ (State.proceed s t x).harts = s.harts ∧ (State.proceed s t x).mram = s.mram ∧ (State.proceed s t x).imsic = s.imsic ∧ (State.proceed s t x).eng = s.eng ∧ (State.proceed s t x).dm = s.dm ∧ (State.proceed s t x).fx = s.fx ∧ (State.proceed s t x).ctu = s.ctu ∧ (State.proceed s t x).links = s.links ∧ (State.proceed s t x).aplicS = s.aplicS ∧ (State.proceed s t x).aplicN = s.aplicN ∧ (State.proceed s t x).credits = s.credits ∧ (State.proceed s t x).clusters = s.clusters ∧ (State.proceed s t x).pkts = s.pkts ∧ (State.proceed s t x).resp = s.resp ∧ (State.proceed s t x).wires = s.wires ∧ (State.proceed s t x).dmg = s.dmg ∧ (State.proceed s t x).dbInval = s.dbInval ∧ (State.proceed s t x).watch = s.watch ∧ (State.proceed s t x).pkg = s.pkg ∧ (State.proceed s t x).pmc = s.pmc ∧ (State.proceed s t x).out = s.out ∧ (State.proceed s t x).free = s.free ∧ (State.proceed s t x).fabric = s.fabric ∧ (State.proceed s t x).files = s.files := by
  generalize h : State.proceed s t x = u
  unfold State.proceed at h
  (try dsimp only at h); (repeat' split at h) <;> (rw [← h]; simp (disch := (intros; (repeat' split) <;> simp [*, kept @State.reAdmit_fr, kept @State.unwait_fr])) [kept @State.reAdmit_fr, kept @State.unwait_fr])

theorem State.arrive_fr (s : State) (t : Nat) (r : HReq) : (State.arrive s t r).pending = s.pending ∧ (State.arrive s t r).flash = s.flash ∧ (State.arrive s t r).coldOpt = s.coldOpt ∧ (State.arrive s t r).mem = s.mem ∧ (State.arrive s t r).harts = s.harts ∧ (State.arrive s t r).mram = s.mram ∧ (State.arrive s t r).imsic = s.imsic ∧ (State.arrive s t r).eng = s.eng ∧ (State.arrive s t r).dm = s.dm ∧ (State.arrive s t r).fx = s.fx ∧ (State.arrive s t r).ctu = s.ctu ∧ (State.arrive s t r).links = s.links ∧ (State.arrive s t r).aplicS = s.aplicS ∧ (State.arrive s t r).aplicN = s.aplicN ∧ (State.arrive s t r).credits = s.credits ∧ (State.arrive s t r).clusters = s.clusters ∧ (State.arrive s t r).pkts = s.pkts ∧ (State.arrive s t r).resp = s.resp ∧ (State.arrive s t r).wires = s.wires ∧ (State.arrive s t r).dmg = s.dmg ∧ (State.arrive s t r).dbInval = s.dbInval ∧ (State.arrive s t r).watch = s.watch ∧ (State.arrive s t r).pkg = s.pkg ∧ (State.arrive s t r).pmc = s.pmc ∧ (State.arrive s t r).out = s.out ∧ (State.arrive s t r).free = s.free ∧ (State.arrive s t r).fabric = s.fabric ∧ (State.arrive s t r).files = s.files := by
  generalize h : State.arrive s t r = u
  unfold State.arrive at h
  rw [← h]; simp [kept @State.pmcStop_fr, kept @State.setHome_fr]

theorem State.snoopAnswer_fr (s : State) (t : Nat) (ln : Nat) (a : Nat) (keep : Bool) (dat : Option LineData) : (State.snoopAnswer s t ln a keep dat).pending = s.pending ∧ (State.snoopAnswer s t ln a keep dat).flash = s.flash ∧ (State.snoopAnswer s t ln a keep dat).coldOpt = s.coldOpt ∧ (State.snoopAnswer s t ln a keep dat).mem = s.mem ∧ (State.snoopAnswer s t ln a keep dat).harts = s.harts ∧ (State.snoopAnswer s t ln a keep dat).mram = s.mram ∧ (State.snoopAnswer s t ln a keep dat).imsic = s.imsic ∧ (State.snoopAnswer s t ln a keep dat).eng = s.eng ∧ (State.snoopAnswer s t ln a keep dat).dm = s.dm ∧ (State.snoopAnswer s t ln a keep dat).fx = s.fx ∧ (State.snoopAnswer s t ln a keep dat).ctu = s.ctu ∧ (State.snoopAnswer s t ln a keep dat).links = s.links ∧ (State.snoopAnswer s t ln a keep dat).aplicS = s.aplicS ∧ (State.snoopAnswer s t ln a keep dat).aplicN = s.aplicN ∧ (State.snoopAnswer s t ln a keep dat).credits = s.credits ∧ (State.snoopAnswer s t ln a keep dat).clusters = s.clusters ∧ (State.snoopAnswer s t ln a keep dat).pkts = s.pkts ∧ (State.snoopAnswer s t ln a keep dat).resp = s.resp ∧ (State.snoopAnswer s t ln a keep dat).wires = s.wires ∧ (State.snoopAnswer s t ln a keep dat).dmg = s.dmg ∧ (State.snoopAnswer s t ln a keep dat).dbInval = s.dbInval ∧ (State.snoopAnswer s t ln a keep dat).watch = s.watch ∧ (State.snoopAnswer s t ln a keep dat).pkg = s.pkg ∧ (State.snoopAnswer s t ln a keep dat).pmc = s.pmc ∧ (State.snoopAnswer s t ln a keep dat).out = s.out ∧ (State.snoopAnswer s t ln a keep dat).free = s.free ∧ (State.snoopAnswer s t ln a keep dat).fabric = s.fabric ∧ (State.snoopAnswer s t ln a keep dat).files = s.files := by
  generalize h : State.snoopAnswer s t ln a keep dat = u
  unfold State.snoopAnswer at h
  (try dsimp only at h); (repeat' split at h) <;> rw [← h] <;> simp [kept @State.proceed_fr, kept @State.setHome_fr]

theorem State.crossing_fr (s : State) (t : Nat) (ln : Nat) (a : Nat) (dat : Option LineData) : (State.crossing s t ln a dat).pending = s.pending ∧ (State.crossing s t ln a dat).flash = s.flash ∧ (State.crossing s t ln a dat).coldOpt = s.coldOpt ∧ (State.crossing s t ln a dat).mem = s.mem ∧ (State.crossing s t ln a dat).harts = s.harts ∧ (State.crossing s t ln a dat).mram = s.mram ∧ (State.crossing s t ln a dat).imsic = s.imsic ∧ (State.crossing s t ln a dat).eng = s.eng ∧ (State.crossing s t ln a dat).dm = s.dm ∧ (State.crossing s t ln a dat).fx = s.fx ∧ (State.crossing s t ln a dat).ctu = s.ctu ∧ (State.crossing s t ln a dat).links = s.links ∧ (State.crossing s t ln a dat).aplicS = s.aplicS ∧ (State.crossing s t ln a dat).aplicN = s.aplicN ∧ (State.crossing s t ln a dat).credits = s.credits ∧ (State.crossing s t ln a dat).clusters = s.clusters ∧ (State.crossing s t ln a dat).pkts = s.pkts ∧ (State.crossing s t ln a dat).resp = s.resp ∧ (State.crossing s t ln a dat).wires = s.wires ∧ (State.crossing s t ln a dat).dmg = s.dmg ∧ (State.crossing s t ln a dat).dbInval = s.dbInval ∧ (State.crossing s t ln a dat).watch = s.watch ∧ (State.crossing s t ln a dat).pkg = s.pkg ∧ (State.crossing s t ln a dat).pmc = s.pmc ∧ (State.crossing s t ln a dat).out = s.out ∧ (State.crossing s t ln a dat).free = s.free ∧ (State.crossing s t ln a dat).fabric = s.fabric ∧ (State.crossing s t ln a dat).files = s.files := by
  generalize h : State.crossing s t ln a dat = u
  unfold State.crossing at h
  (try dsimp only at h); (repeat' split at h) <;> rw [← h] <;> simp [kept @State.setHome_fr, kept @State.snoopAnswer_fr]

theorem State.absorbWb_fr (s : State) (t : Nat) (ln : Nat) (a : Nat) (who : Ident) (d : LineData) (taken : Bool) : (State.absorbWb s t ln a who d taken).pending = s.pending ∧ (State.absorbWb s t ln a who d taken).flash = s.flash ∧ (State.absorbWb s t ln a who d taken).coldOpt = s.coldOpt ∧ (State.absorbWb s t ln a who d taken).mem = s.mem ∧ (State.absorbWb s t ln a who d taken).harts = s.harts ∧ (State.absorbWb s t ln a who d taken).mram = s.mram ∧ (State.absorbWb s t ln a who d taken).imsic = s.imsic ∧ (State.absorbWb s t ln a who d taken).eng = s.eng ∧ (State.absorbWb s t ln a who d taken).dm = s.dm ∧ (State.absorbWb s t ln a who d taken).fx = s.fx ∧ (State.absorbWb s t ln a who d taken).ctu = s.ctu ∧ (State.absorbWb s t ln a who d taken).links = s.links ∧ (State.absorbWb s t ln a who d taken).aplicS = s.aplicS ∧ (State.absorbWb s t ln a who d taken).aplicN = s.aplicN ∧ (State.absorbWb s t ln a who d taken).credits = s.credits ∧ (State.absorbWb s t ln a who d taken).clusters = s.clusters ∧ (State.absorbWb s t ln a who d taken).pkts = s.pkts ∧ (State.absorbWb s t ln a who d taken).resp = s.resp ∧ (State.absorbWb s t ln a who d taken).wires = s.wires ∧ (State.absorbWb s t ln a who d taken).dmg = s.dmg ∧ (State.absorbWb s t ln a who d taken).dbInval = s.dbInval ∧ (State.absorbWb s t ln a who d taken).watch = s.watch ∧ (State.absorbWb s t ln a who d taken).pkg = s.pkg ∧ (State.absorbWb s t ln a who d taken).pmc = s.pmc ∧ (State.absorbWb s t ln a who d taken).out = s.out ∧ (State.absorbWb s t ln a who d taken).free = s.free ∧ (State.absorbWb s t ln a who d taken).fabric = s.fabric ∧ (State.absorbWb s t ln a who d taken).files = s.files := by
  generalize h : State.absorbWb s t ln a who d taken = u
  unfold State.absorbWb at h
  (try dsimp only at h); (repeat' split at h) <;> rw [← h] <;> simp [kept @State.crossing_fr, kept @State.dirDel_fr, kept @State.l3Alloc_fr, kept @State.logFw_fr, kept @State.pmcStop_fr, kept @State.post_fr]

theorem State.evictClean_fr (s : State) (t : Nat) (ln : Nat) (a : Nat) (who : Ident) : (State.evictClean s t ln a who).pending = s.pending ∧ (State.evictClean s t ln a who).flash = s.flash ∧ (State.evictClean s t ln a who).coldOpt = s.coldOpt ∧ (State.evictClean s t ln a who).mem = s.mem ∧ (State.evictClean s t ln a who).harts = s.harts ∧ (State.evictClean s t ln a who).mram = s.mram ∧ (State.evictClean s t ln a who).imsic = s.imsic ∧ (State.evictClean s t ln a who).eng = s.eng ∧ (State.evictClean s t ln a who).dm = s.dm ∧ (State.evictClean s t ln a who).fx = s.fx ∧ (State.evictClean s t ln a who).ctu = s.ctu ∧ (State.evictClean s t ln a who).links = s.links ∧ (State.evictClean s t ln a who).aplicS = s.aplicS ∧ (State.evictClean s t ln a who).aplicN = s.aplicN ∧ (State.evictClean s t ln a who).credits = s.credits ∧ (State.evictClean s t ln a who).clusters = s.clusters ∧ (State.evictClean s t ln a who).pkts = s.pkts ∧ (State.evictClean s t ln a who).resp = s.resp ∧ (State.evictClean s t ln a who).regs = s.regs ∧ (State.evictClean s t ln a who).wires = s.wires ∧ (State.evictClean s t ln a who).dmg = s.dmg ∧ (State.evictClean s t ln a who).wq = s.wq ∧ (State.evictClean s t ln a who).dbInval = s.dbInval ∧ (State.evictClean s t ln a who).watch = s.watch ∧ (State.evictClean s t ln a who).pkg = s.pkg ∧ (State.evictClean s t ln a who).pmc = s.pmc ∧ (State.evictClean s t ln a who).fwLog = s.fwLog ∧ (State.evictClean s t ln a who).out = s.out ∧ (State.evictClean s t ln a who).free = s.free ∧ (State.evictClean s t ln a who).fabric = s.fabric ∧ (State.evictClean s t ln a who).files = s.files := by
  generalize h : State.evictClean s t ln a who = u
  unfold State.evictClean at h
  (try dsimp only at h); (repeat' split at h) <;> rw [← h] <;> simp [kept @State.dirDel_fr, kept @State.post_fr, kept @State.setHome_fr]

theorem State.memData_fr (s : State) (t : Nat) (ln : Nat) (d : LineData) : (State.memData s t ln d).pending = s.pending ∧ (State.memData s t ln d).flash = s.flash ∧ (State.memData s t ln d).coldOpt = s.coldOpt ∧ (State.memData s t ln d).mem = s.mem ∧ (State.memData s t ln d).harts = s.harts ∧ (State.memData s t ln d).mram = s.mram ∧ (State.memData s t ln d).imsic = s.imsic ∧ (State.memData s t ln d).eng = s.eng ∧ (State.memData s t ln d).dm = s.dm ∧ (State.memData s t ln d).fx = s.fx ∧ (State.memData s t ln d).ctu = s.ctu ∧ (State.memData s t ln d).links = s.links ∧ (State.memData s t ln d).aplicS = s.aplicS ∧ (State.memData s t ln d).aplicN = s.aplicN ∧ (State.memData s t ln d).credits = s.credits ∧ (State.memData s t ln d).clusters = s.clusters ∧ (State.memData s t ln d).pkts = s.pkts ∧ (State.memData s t ln d).resp = s.resp ∧ (State.memData s t ln d).wires = s.wires ∧ (State.memData s t ln d).dmg = s.dmg ∧ (State.memData s t ln d).dbInval = s.dbInval ∧ (State.memData s t ln d).watch = s.watch ∧ (State.memData s t ln d).pkg = s.pkg ∧ (State.memData s t ln d).pmc = s.pmc ∧ (State.memData s t ln d).out = s.out ∧ (State.memData s t ln d).free = s.free ∧ (State.memData s t ln d).fabric = s.fabric ∧ (State.memData s t ln d).files = s.files := by
  generalize h : State.memData s t ln d = u
  unfold State.memData at h
  (try dsimp only at h); (repeat' split at h) <;> rw [← h] <;> simp [kept @State.finish_fr, kept @State.proceed_fr, kept @State.setHome_fr]

theorem State.breakResv_fr (s : State) (ln : Nat) (keep : Nat) (only : Nat → Bool) : (State.breakResv s ln keep only).pending = s.pending ∧ (State.breakResv s ln keep only).flash = s.flash ∧ (State.breakResv s ln keep only).coldOpt = s.coldOpt ∧ (State.breakResv s ln keep only).mem = s.mem ∧ (State.breakResv s ln keep only).mram = s.mram ∧ (State.breakResv s ln keep only).imsic = s.imsic ∧ (State.breakResv s ln keep only).eng = s.eng ∧ (State.breakResv s ln keep only).dm = s.dm ∧ (State.breakResv s ln keep only).fx = s.fx ∧ (State.breakResv s ln keep only).ctu = s.ctu ∧ (State.breakResv s ln keep only).links = s.links ∧ (State.breakResv s ln keep only).aplicS = s.aplicS ∧ (State.breakResv s ln keep only).aplicN = s.aplicN ∧ (State.breakResv s ln keep only).credits = s.credits ∧ (State.breakResv s ln keep only).clusters = s.clusters ∧ (State.breakResv s ln keep only).homes = s.homes ∧ (State.breakResv s ln keep only).pkts = s.pkts ∧ (State.breakResv s ln keep only).resp = s.resp ∧ (State.breakResv s ln keep only).regs = s.regs ∧ (State.breakResv s ln keep only).wires = s.wires ∧ (State.breakResv s ln keep only).dmg = s.dmg ∧ (State.breakResv s ln keep only).wq = s.wq ∧ (State.breakResv s ln keep only).net = s.net ∧ (State.breakResv s ln keep only).dbInval = s.dbInval ∧ (State.breakResv s ln keep only).watch = s.watch ∧ (State.breakResv s ln keep only).pkg = s.pkg ∧ (State.breakResv s ln keep only).pmc = s.pmc ∧ (State.breakResv s ln keep only).fwLog = s.fwLog ∧ (State.breakResv s ln keep only).out = s.out ∧ (State.breakResv s ln keep only).free = s.free ∧ (State.breakResv s ln keep only).fabric = s.fabric ∧ (State.breakResv s ln keep only).files = s.files := by
  generalize h : State.breakResv s ln keep only = u
  unfold State.breakResv at h
  rw [← h]; simp

theorem State.freeResv_fr (s : State) (c : Nat) (ln : Nat) : (State.freeResv s c ln).pending = s.pending ∧ (State.freeResv s c ln).flash = s.flash ∧ (State.freeResv s c ln).coldOpt = s.coldOpt ∧ (State.freeResv s c ln).mem = s.mem ∧ (State.freeResv s c ln).harts = s.harts ∧ (State.freeResv s c ln).mram = s.mram ∧ (State.freeResv s c ln).imsic = s.imsic ∧ (State.freeResv s c ln).eng = s.eng ∧ (State.freeResv s c ln).dm = s.dm ∧ (State.freeResv s c ln).fx = s.fx ∧ (State.freeResv s c ln).ctu = s.ctu ∧ (State.freeResv s c ln).links = s.links ∧ (State.freeResv s c ln).aplicS = s.aplicS ∧ (State.freeResv s c ln).aplicN = s.aplicN ∧ (State.freeResv s c ln).credits = s.credits ∧ (State.freeResv s c ln).homes = s.homes ∧ (State.freeResv s c ln).pkts = s.pkts ∧ (State.freeResv s c ln).resp = s.resp ∧ (State.freeResv s c ln).regs = s.regs ∧ (State.freeResv s c ln).wires = s.wires ∧ (State.freeResv s c ln).dmg = s.dmg ∧ (State.freeResv s c ln).wq = s.wq ∧ (State.freeResv s c ln).dbInval = s.dbInval ∧ (State.freeResv s c ln).watch = s.watch ∧ (State.freeResv s c ln).pkg = s.pkg ∧ (State.freeResv s c ln).pmc = s.pmc ∧ (State.freeResv s c ln).fwLog = s.fwLog ∧ (State.freeResv s c ln).out = s.out ∧ (State.freeResv s c ln).free = s.free ∧ (State.freeResv s c ln).fabric = s.fabric ∧ (State.freeResv s c ln).files = s.files := by
  generalize h : State.freeResv s c ln = u
  unfold State.freeResv at h
  (try dsimp only at h); (repeat' split at h) <;> rw [← h] <;> simp [kept @State.setCluster_fr]

theorem State.evictSend_fr (s : State) (c : Nat) (e : EvEnt) : (State.evictSend s c e).pending = s.pending ∧ (State.evictSend s c e).flash = s.flash ∧ (State.evictSend s c e).coldOpt = s.coldOpt ∧ (State.evictSend s c e).mem = s.mem ∧ (State.evictSend s c e).harts = s.harts ∧ (State.evictSend s c e).mram = s.mram ∧ (State.evictSend s c e).imsic = s.imsic ∧ (State.evictSend s c e).eng = s.eng ∧ (State.evictSend s c e).dm = s.dm ∧ (State.evictSend s c e).fx = s.fx ∧ (State.evictSend s c e).ctu = s.ctu ∧ (State.evictSend s c e).links = s.links ∧ (State.evictSend s c e).aplicS = s.aplicS ∧ (State.evictSend s c e).aplicN = s.aplicN ∧ (State.evictSend s c e).credits = s.credits ∧ (State.evictSend s c e).homes = s.homes ∧ (State.evictSend s c e).pkts = s.pkts ∧ (State.evictSend s c e).resp = s.resp ∧ (State.evictSend s c e).regs = s.regs ∧ (State.evictSend s c e).wires = s.wires ∧ (State.evictSend s c e).dmg = s.dmg ∧ (State.evictSend s c e).wq = s.wq ∧ (State.evictSend s c e).dbInval = s.dbInval ∧ (State.evictSend s c e).watch = s.watch ∧ (State.evictSend s c e).pkg = s.pkg ∧ (State.evictSend s c e).pmc = s.pmc ∧ (State.evictSend s c e).fwLog = s.fwLog ∧ (State.evictSend s c e).out = s.out ∧ (State.evictSend s c e).free = s.free ∧ (State.evictSend s c e).fabric = s.fabric ∧ (State.evictSend s c e).files = s.files := by
  generalize h : State.evictSend s c e = u
  unfold State.evictSend at h
  (try dsimp only at h); (repeat' split at h) <;> rw [← h] <;> simp [kept @State.post_fr, kept @State.setCluster_fr]

theorem State.evictMore_fr (s : State) (c : Nat) : (State.evictMore s c).pending = s.pending ∧ (State.evictMore s c).flash = s.flash ∧ (State.evictMore s c).coldOpt = s.coldOpt ∧ (State.evictMore s c).mem = s.mem ∧ (State.evictMore s c).harts = s.harts ∧ (State.evictMore s c).mram = s.mram ∧ (State.evictMore s c).imsic = s.imsic ∧ (State.evictMore s c).eng = s.eng ∧ (State.evictMore s c).dm = s.dm ∧ (State.evictMore s c).fx = s.fx ∧ (State.evictMore s c).ctu = s.ctu ∧ (State.evictMore s c).links = s.links ∧ (State.evictMore s c).aplicS = s.aplicS ∧ (State.evictMore s c).aplicN = s.aplicN ∧ (State.evictMore s c).credits = s.credits ∧ (State.evictMore s c).homes = s.homes ∧ (State.evictMore s c).pkts = s.pkts ∧ (State.evictMore s c).resp = s.resp ∧ (State.evictMore s c).regs = s.regs ∧ (State.evictMore s c).wires = s.wires ∧ (State.evictMore s c).dmg = s.dmg ∧ (State.evictMore s c).wq = s.wq ∧ (State.evictMore s c).dbInval = s.dbInval ∧ (State.evictMore s c).watch = s.watch ∧ (State.evictMore s c).pkg = s.pkg ∧ (State.evictMore s c).pmc = s.pmc ∧ (State.evictMore s c).fwLog = s.fwLog ∧ (State.evictMore s c).out = s.out ∧ (State.evictMore s c).free = s.free ∧ (State.evictMore s c).fabric = s.fabric ∧ (State.evictMore s c).files = s.files := by
  generalize h : State.evictMore s c = u
  unfold State.evictMore at h
  (try dsimp only at h); (repeat' split at h) <;> rw [← h] <;> simp [kept @State.evictSend_fr]

theorem State.evictLine_fr (s : State) (c : Nat) (ln : Nat) : (State.evictLine s c ln).pending = s.pending ∧ (State.evictLine s c ln).flash = s.flash ∧ (State.evictLine s c ln).coldOpt = s.coldOpt ∧ (State.evictLine s c ln).mem = s.mem ∧ (State.evictLine s c ln).mram = s.mram ∧ (State.evictLine s c ln).imsic = s.imsic ∧ (State.evictLine s c ln).eng = s.eng ∧ (State.evictLine s c ln).dm = s.dm ∧ (State.evictLine s c ln).fx = s.fx ∧ (State.evictLine s c ln).ctu = s.ctu ∧ (State.evictLine s c ln).links = s.links ∧ (State.evictLine s c ln).aplicS = s.aplicS ∧ (State.evictLine s c ln).aplicN = s.aplicN ∧ (State.evictLine s c ln).credits = s.credits ∧ (State.evictLine s c ln).homes = s.homes ∧ (State.evictLine s c ln).pkts = s.pkts ∧ (State.evictLine s c ln).resp = s.resp ∧ (State.evictLine s c ln).regs = s.regs ∧ (State.evictLine s c ln).wires = s.wires ∧ (State.evictLine s c ln).dmg = s.dmg ∧ (State.evictLine s c ln).wq = s.wq ∧ (State.evictLine s c ln).dbInval = s.dbInval ∧ (State.evictLine s c ln).watch = s.watch ∧ (State.evictLine s c ln).pkg = s.pkg ∧ (State.evictLine s c ln).pmc = s.pmc ∧ (State.evictLine s c ln).fwLog = s.fwLog ∧ (State.evictLine s c ln).out = s.out ∧ (State.evictLine s c ln).free = s.free ∧ (State.evictLine s c ln).fabric = s.fabric ∧ (State.evictLine s c ln).files = s.files := by
  generalize h : State.evictLine s c ln = u
  unfold State.evictLine at h
  (try dsimp only at h); (repeat' split at h) <;> rw [← h] <;> simp [kept @State.breakResv_fr, kept @State.evictSend_fr, kept @State.freeResv_fr, kept @State.setCluster_fr]

theorem State.watchInval_fr (s : State) (ln : Nat) : (State.watchInval s ln).pending = s.pending ∧ (State.watchInval s ln).flash = s.flash ∧ (State.watchInval s ln).coldOpt = s.coldOpt ∧ (State.watchInval s ln).mem = s.mem ∧ (State.watchInval s ln).harts = s.harts ∧ (State.watchInval s ln).mram = s.mram ∧ (State.watchInval s ln).imsic = s.imsic ∧ (State.watchInval s ln).eng = s.eng ∧ (State.watchInval s ln).dm = s.dm ∧ (State.watchInval s ln).fx = s.fx ∧ (State.watchInval s ln).ctu = s.ctu ∧ (State.watchInval s ln).links = s.links ∧ (State.watchInval s ln).aplicS = s.aplicS ∧ (State.watchInval s ln).aplicN = s.aplicN ∧ (State.watchInval s ln).credits = s.credits ∧ (State.watchInval s ln).clusters = s.clusters ∧ (State.watchInval s ln).homes = s.homes ∧ (State.watchInval s ln).pkts = s.pkts ∧ (State.watchInval s ln).resp = s.resp ∧ (State.watchInval s ln).regs = s.regs ∧ (State.watchInval s ln).wires = s.wires ∧ (State.watchInval s ln).dmg = s.dmg ∧ (State.watchInval s ln).wq = s.wq ∧ (State.watchInval s ln).net = s.net ∧ (State.watchInval s ln).pkg = s.pkg ∧ (State.watchInval s ln).pmc = s.pmc ∧ (State.watchInval s ln).fwLog = s.fwLog ∧ (State.watchInval s ln).out = s.out ∧ (State.watchInval s ln).free = s.free ∧ (State.watchInval s ln).fabric = s.fabric ∧ (State.watchInval s ln).files = s.files := by
  generalize h : State.watchInval s ln = u
  unfold State.watchInval at h
  rw [← h]; simp

theorem State.lineNow_fr (s : State) (who : Ident) (ln : Nat) : (State.lineNow s who ln).2.pending = s.pending ∧ (State.lineNow s who ln).2.flash = s.flash ∧ (State.lineNow s who ln).2.coldOpt = s.coldOpt ∧ (State.lineNow s who ln).2.mem = s.mem ∧ (State.lineNow s who ln).2.harts = s.harts ∧ (State.lineNow s who ln).2.imsic = s.imsic ∧ (State.lineNow s who ln).2.eng = s.eng ∧ (State.lineNow s who ln).2.dm = s.dm ∧ (State.lineNow s who ln).2.fx = s.fx ∧ (State.lineNow s who ln).2.ctu = s.ctu ∧ (State.lineNow s who ln).2.links = s.links ∧ (State.lineNow s who ln).2.aplicS = s.aplicS ∧ (State.lineNow s who ln).2.aplicN = s.aplicN ∧ (State.lineNow s who ln).2.credits = s.credits ∧ (State.lineNow s who ln).2.clusters = s.clusters ∧ (State.lineNow s who ln).2.homes = s.homes ∧ (State.lineNow s who ln).2.pkts = s.pkts ∧ (State.lineNow s who ln).2.resp = s.resp ∧ (State.lineNow s who ln).2.dmg = s.dmg ∧ (State.lineNow s who ln).2.net = s.net ∧ (State.lineNow s who ln).2.dbInval = s.dbInval ∧ (State.lineNow s who ln).2.watch = s.watch ∧ (State.lineNow s who ln).2.fwLog = s.fwLog ∧ (State.lineNow s who ln).2.out = s.out ∧ (State.lineNow s who ln).2.free = s.free ∧ (State.lineNow s who ln).2.fabric = s.fabric ∧ (State.lineNow s who ln).2.files = s.files := by
  generalize h : (State.lineNow s who ln).2 = u
  unfold State.lineNow at h
  (try dsimp only at h); (repeat' split at h) <;> rw [← h] <;> simp [kept @State.pmcMem_fr, kept @State.readLineQ_fr]

theorem State.checkAcc_fr (s : State) (who : Ident) (pa : Nat) (write : Bool) : (State.checkAcc s who pa write).2.pending = s.pending ∧ (State.checkAcc s who pa write).2.flash = s.flash ∧ (State.checkAcc s who pa write).2.coldOpt = s.coldOpt ∧ (State.checkAcc s who pa write).2.mem = s.mem ∧ (State.checkAcc s who pa write).2.harts = s.harts ∧ (State.checkAcc s who pa write).2.mram = s.mram ∧ (State.checkAcc s who pa write).2.imsic = s.imsic ∧ (State.checkAcc s who pa write).2.eng = s.eng ∧ (State.checkAcc s who pa write).2.dm = s.dm ∧ (State.checkAcc s who pa write).2.fx = s.fx ∧ (State.checkAcc s who pa write).2.ctu = s.ctu ∧ (State.checkAcc s who pa write).2.links = s.links ∧ (State.checkAcc s who pa write).2.aplicS = s.aplicS ∧ (State.checkAcc s who pa write).2.aplicN = s.aplicN ∧ (State.checkAcc s who pa write).2.credits = s.credits ∧ (State.checkAcc s who pa write).2.clusters = s.clusters ∧ (State.checkAcc s who pa write).2.homes = s.homes ∧ (State.checkAcc s who pa write).2.pkts = s.pkts ∧ (State.checkAcc s who pa write).2.resp = s.resp ∧ (State.checkAcc s who pa write).2.wires = s.wires ∧ (State.checkAcc s who pa write).2.dmg = s.dmg ∧ (State.checkAcc s who pa write).2.wq = s.wq ∧ (State.checkAcc s who pa write).2.net = s.net ∧ (State.checkAcc s who pa write).2.dbInval = s.dbInval ∧ (State.checkAcc s who pa write).2.watch = s.watch ∧ (State.checkAcc s who pa write).2.pkg = s.pkg ∧ (State.checkAcc s who pa write).2.pmc = s.pmc ∧ (State.checkAcc s who pa write).2.out = s.out ∧ (State.checkAcc s who pa write).2.free = s.free ∧ (State.checkAcc s who pa write).2.fabric = s.fabric ∧ (State.checkAcc s who pa write).2.files = s.files := by
  generalize h : (State.checkAcc s who pa write).2 = u
  unfold State.checkAcc at h
  (try dsimp only at h); (repeat' split at h) <;> rw [← h] <;> simp [kept @State.logFw_fr]

theorem State.readLine_fr (s : State) (who : Ident) (ln : Nat) : (State.readLine s who ln).2.2.pending = s.pending ∧ (State.readLine s who ln).2.2.flash = s.flash ∧ (State.readLine s who ln).2.2.coldOpt = s.coldOpt ∧ (State.readLine s who ln).2.2.mem = s.mem ∧ (State.readLine s who ln).2.2.harts = s.harts ∧ (State.readLine s who ln).2.2.imsic = s.imsic ∧ (State.readLine s who ln).2.2.eng = s.eng ∧ (State.readLine s who ln).2.2.dm = s.dm ∧ (State.readLine s who ln).2.2.fx = s.fx ∧ (State.readLine s who ln).2.2.ctu = s.ctu ∧ (State.readLine s who ln).2.2.links = s.links ∧ (State.readLine s who ln).2.2.aplicS = s.aplicS ∧ (State.readLine s who ln).2.2.aplicN = s.aplicN ∧ (State.readLine s who ln).2.2.credits = s.credits ∧ (State.readLine s who ln).2.2.clusters = s.clusters ∧ (State.readLine s who ln).2.2.homes = s.homes ∧ (State.readLine s who ln).2.2.pkts = s.pkts ∧ (State.readLine s who ln).2.2.resp = s.resp ∧ (State.readLine s who ln).2.2.dmg = s.dmg ∧ (State.readLine s who ln).2.2.net = s.net ∧ (State.readLine s who ln).2.2.dbInval = s.dbInval ∧ (State.readLine s who ln).2.2.watch = s.watch ∧ (State.readLine s who ln).2.2.out = s.out ∧ (State.readLine s who ln).2.2.free = s.free ∧ (State.readLine s who ln).2.2.fabric = s.fabric ∧ (State.readLine s who ln).2.2.files = s.files := by
  generalize h : (State.readLine s who ln).2.2 = u
  unfold State.readLine at h
  (try dsimp only at h); (repeat' split at h) <;> (rw [← h];  (try simp only [Prod.ext_iff] at *); (try casesm* _ ∧ _); (try casesm* @Eq State _ _); (try simp [*, kept @State.checkAcc_fr, kept @State.lineNow_fr]))

theorem State.takeBack_fr (s : State) (ln : Nat) (f : LineData → LineData) : (State.takeBack s ln f).pending = s.pending ∧ (State.takeBack s ln f).flash = s.flash ∧ (State.takeBack s ln f).coldOpt = s.coldOpt ∧ (State.takeBack s ln f).mem = s.mem ∧ (State.takeBack s ln f).mram = s.mram ∧ (State.takeBack s ln f).imsic = s.imsic ∧ (State.takeBack s ln f).eng = s.eng ∧ (State.takeBack s ln f).dm = s.dm ∧ (State.takeBack s ln f).fx = s.fx ∧ (State.takeBack s ln f).ctu = s.ctu ∧ (State.takeBack s ln f).links = s.links ∧ (State.takeBack s ln f).aplicS = s.aplicS ∧ (State.takeBack s ln f).aplicN = s.aplicN ∧ (State.takeBack s ln f).credits = s.credits ∧ (State.takeBack s ln f).pkts = s.pkts ∧ (State.takeBack s ln f).resp = s.resp ∧ (State.takeBack s ln f).regs = s.regs ∧ (State.takeBack s ln f).wires = s.wires ∧ (State.takeBack s ln f).dmg = s.dmg ∧ (State.takeBack s ln f).wq = s.wq ∧ (State.takeBack s ln f).pkg = s.pkg ∧ (State.takeBack s ln f).pmc = s.pmc ∧ (State.takeBack s ln f).fwLog = s.fwLog ∧ (State.takeBack s ln f).out = s.out ∧ (State.takeBack s ln f).free = s.free ∧ (State.takeBack s ln f).fabric = s.fabric ∧ (State.takeBack s ln f).files = s.files := by
  generalize h : State.takeBack s ln f = u
  unfold State.takeBack at h
  (try dsimp only at h); (repeat' split at h) <;> rw [← h] <;> simp [kept @State.breakResv_fr, kept @State.freeResv_fr, kept @State.watchInval_fr]

theorem State.discardLine_fr (s : State) (ln : Nat) : (State.discardLine s ln).pending = s.pending ∧ (State.discardLine s ln).flash = s.flash ∧ (State.discardLine s ln).coldOpt = s.coldOpt ∧ (State.discardLine s ln).mem = s.mem ∧ (State.discardLine s ln).mram = s.mram ∧ (State.discardLine s ln).imsic = s.imsic ∧ (State.discardLine s ln).eng = s.eng ∧ (State.discardLine s ln).dm = s.dm ∧ (State.discardLine s ln).fx = s.fx ∧ (State.discardLine s ln).ctu = s.ctu ∧ (State.discardLine s ln).links = s.links ∧ (State.discardLine s ln).aplicS = s.aplicS ∧ (State.discardLine s ln).aplicN = s.aplicN ∧ (State.discardLine s ln).credits = s.credits ∧ (State.discardLine s ln).pkts = s.pkts ∧ (State.discardLine s ln).resp = s.resp ∧ (State.discardLine s ln).regs = s.regs ∧ (State.discardLine s ln).wires = s.wires ∧ (State.discardLine s ln).dmg = s.dmg ∧ (State.discardLine s ln).wq = s.wq ∧ (State.discardLine s ln).pkg = s.pkg ∧ (State.discardLine s ln).pmc = s.pmc ∧ (State.discardLine s ln).fwLog = s.fwLog ∧ (State.discardLine s ln).out = s.out ∧ (State.discardLine s ln).free = s.free ∧ (State.discardLine s ln).fabric = s.fabric ∧ (State.discardLine s ln).files = s.files := by
  generalize h : State.discardLine s ln = u
  unfold State.discardLine at h
  (try dsimp only at h); (repeat' split at h) <;> rw [← h] <;> simp [kept @State.breakResv_fr, kept @State.freeResv_fr, kept @State.watchInval_fr]

theorem State.overwrite_fr (s : State) (who : Ident) (ln : Nat) (d : LineData) : (State.overwrite s who ln d).pending = s.pending ∧ (State.overwrite s who ln d).flash = s.flash ∧ (State.overwrite s who ln d).coldOpt = s.coldOpt ∧ (State.overwrite s who ln d).imsic = s.imsic ∧ (State.overwrite s who ln d).eng = s.eng ∧ (State.overwrite s who ln d).dm = s.dm ∧ (State.overwrite s who ln d).fx = s.fx ∧ (State.overwrite s who ln d).ctu = s.ctu ∧ (State.overwrite s who ln d).links = s.links ∧ (State.overwrite s who ln d).aplicS = s.aplicS ∧ (State.overwrite s who ln d).aplicN = s.aplicN ∧ (State.overwrite s who ln d).credits = s.credits ∧ (State.overwrite s who ln d).pkts = s.pkts ∧ (State.overwrite s who ln d).resp = s.resp ∧ (State.overwrite s who ln d).fwLog = s.fwLog ∧ (State.overwrite s who ln d).out = s.out ∧ (State.overwrite s who ln d).free = s.free ∧ (State.overwrite s who ln d).fabric = s.fabric ∧ (State.overwrite s who ln d).files = s.files := by
  generalize h : State.overwrite s who ln d = u
  unfold State.overwrite at h
  (try dsimp only at h); (repeat' split at h) <;> rw [← h] <;> simp [kept @State.takeBack_fr, kept @State.writeLineNow_fr]

theorem State.mergeWrite_fr (s : State) (who : Ident) (ln : Nat) (data : List Byte) (mask : Nat) : (State.mergeWrite s who ln data mask).pending = s.pending ∧ (State.mergeWrite s who ln data mask).flash = s.flash ∧ (State.mergeWrite s who ln data mask).coldOpt = s.coldOpt ∧ (State.mergeWrite s who ln data mask).imsic = s.imsic ∧ (State.mergeWrite s who ln data mask).eng = s.eng ∧ (State.mergeWrite s who ln data mask).dm = s.dm ∧ (State.mergeWrite s who ln data mask).fx = s.fx ∧ (State.mergeWrite s who ln data mask).ctu = s.ctu ∧ (State.mergeWrite s who ln data mask).links = s.links ∧ (State.mergeWrite s who ln data mask).aplicS = s.aplicS ∧ (State.mergeWrite s who ln data mask).aplicN = s.aplicN ∧ (State.mergeWrite s who ln data mask).credits = s.credits ∧ (State.mergeWrite s who ln data mask).pkts = s.pkts ∧ (State.mergeWrite s who ln data mask).resp = s.resp ∧ (State.mergeWrite s who ln data mask).fwLog = s.fwLog ∧ (State.mergeWrite s who ln data mask).out = s.out ∧ (State.mergeWrite s who ln data mask).free = s.free ∧ (State.mergeWrite s who ln data mask).fabric = s.fabric ∧ (State.mergeWrite s who ln data mask).files = s.files := by
  generalize h : State.mergeWrite s who ln data mask = u
  unfold State.mergeWrite at h
  (try dsimp only at h); (repeat' split at h) <;> rw [← h] <;> simp [kept @State.l3Alloc_fr, kept @State.lineNow_fr, kept @State.overwrite_fr, kept @State.takeBack_fr, kept @State.writeLineNow_fr]

theorem State.writeLine_fr (s : State) (who : Ident) (ln : Nat) (data : List Byte) (mask : Nat) : (State.writeLine s who ln data mask).2.pending = s.pending ∧ (State.writeLine s who ln data mask).2.flash = s.flash ∧ (State.writeLine s who ln data mask).2.coldOpt = s.coldOpt ∧ (State.writeLine s who ln data mask).2.imsic = s.imsic ∧ (State.writeLine s who ln data mask).2.eng = s.eng ∧ (State.writeLine s who ln data mask).2.dm = s.dm ∧ (State.writeLine s who ln data mask).2.fx = s.fx ∧ (State.writeLine s who ln data mask).2.ctu = s.ctu ∧ (State.writeLine s who ln data mask).2.links = s.links ∧ (State.writeLine s who ln data mask).2.aplicS = s.aplicS ∧ (State.writeLine s who ln data mask).2.aplicN = s.aplicN ∧ (State.writeLine s who ln data mask).2.credits = s.credits ∧ (State.writeLine s who ln data mask).2.pkts = s.pkts ∧ (State.writeLine s who ln data mask).2.resp = s.resp ∧ (State.writeLine s who ln data mask).2.out = s.out ∧ (State.writeLine s who ln data mask).2.free = s.free ∧ (State.writeLine s who ln data mask).2.fabric = s.fabric ∧ (State.writeLine s who ln data mask).2.files = s.files := by
  generalize h : (State.writeLine s who ln data mask).2 = u
  unfold State.writeLine at h
  (try dsimp only at h); (repeat' split at h) <;> (rw [← h];  (try simp only [Prod.ext_iff] at *); (try casesm* _ ∧ _); (try casesm* @Eq State _ _); (try simp [*, kept @State.checkAcc_fr, kept @State.mergeWrite_fr, kept @State.overwrite_fr]))

theorem State.poisonLine_fr (s : State) (who : Ident) (ln : Nat) (data : List Byte) : (State.poisonLine s who ln data).2.pending = s.pending ∧ (State.poisonLine s who ln data).2.flash = s.flash ∧ (State.poisonLine s who ln data).2.coldOpt = s.coldOpt ∧ (State.poisonLine s who ln data).2.imsic = s.imsic ∧ (State.poisonLine s who ln data).2.eng = s.eng ∧ (State.poisonLine s who ln data).2.dm = s.dm ∧ (State.poisonLine s who ln data).2.fx = s.fx ∧ (State.poisonLine s who ln data).2.ctu = s.ctu ∧ (State.poisonLine s who ln data).2.links = s.links ∧ (State.poisonLine s who ln data).2.aplicS = s.aplicS ∧ (State.poisonLine s who ln data).2.aplicN = s.aplicN ∧ (State.poisonLine s who ln data).2.credits = s.credits ∧ (State.poisonLine s who ln data).2.pkts = s.pkts ∧ (State.poisonLine s who ln data).2.resp = s.resp ∧ (State.poisonLine s who ln data).2.out = s.out ∧ (State.poisonLine s who ln data).2.free = s.free ∧ (State.poisonLine s who ln data).2.fabric = s.fabric ∧ (State.poisonLine s who ln data).2.files = s.files := by
  generalize h : (State.poisonLine s who ln data).2 = u
  unfold State.poisonLine at h
  (try dsimp only at h); (repeat' split at h) <;> (rw [← h];  (try simp only [Prod.ext_iff] at *); (try casesm* _ ∧ _); (try casesm* @Eq State _ _); (try simp [*, kept @State.checkAcc_fr, kept @State.overwrite_fr]))

theorem State.homePull_fr (s : State) (who : Ident) (pa : Nat) (write : Bool) : (State.homePull s who pa write).pending = s.pending ∧ (State.homePull s who pa write).flash = s.flash ∧ (State.homePull s who pa write).coldOpt = s.coldOpt ∧ (State.homePull s who pa write).mem = s.mem ∧ (State.homePull s who pa write).imsic = s.imsic ∧ (State.homePull s who pa write).eng = s.eng ∧ (State.homePull s who pa write).dm = s.dm ∧ (State.homePull s who pa write).fx = s.fx ∧ (State.homePull s who pa write).ctu = s.ctu ∧ (State.homePull s who pa write).links = s.links ∧ (State.homePull s who pa write).aplicS = s.aplicS ∧ (State.homePull s who pa write).aplicN = s.aplicN ∧ (State.homePull s who pa write).credits = s.credits ∧ (State.homePull s who pa write).pkts = s.pkts ∧ (State.homePull s who pa write).resp = s.resp ∧ (State.homePull s who pa write).dmg = s.dmg ∧ (State.homePull s who pa write).fwLog = s.fwLog ∧ (State.homePull s who pa write).out = s.out ∧ (State.homePull s who pa write).free = s.free ∧ (State.homePull s who pa write).fabric = s.fabric ∧ (State.homePull s who pa write).files = s.files := by
  generalize h : State.homePull s who pa write = u
  unfold State.homePull at h
  (try dsimp only at h); (repeat' split at h) <;> rw [← h] <;> simp [kept @State.l3Alloc_fr, kept @State.lineNow_fr, kept @State.takeBack_fr]

@[simp] theorem State.readGo_pending (s : State) (who : Ident) (f pa n : Nat) : (s.readGo who f pa n).2.pending = s.pending := by
  induction f generalizing s pa n with
  | zero => cases n <;> rfl
  | succ f ih =>
    cases n with
    | zero => rfl
    | succ n =>
      simp only [State.readGo]
      split <;> ((try simp only [Prod.ext_iff] at *); (try casesm* _ ∧ _); (try casesm* @Eq State _ _); (try simp [ih, kept @State.readLine_fr]))

@[simp] theorem State.readGo_files (s : State) (who : Ident) (f pa n : Nat) : (s.readGo who f pa n).2.files = s.files := by
  induction f generalizing s pa n with
  | zero => cases n <;> rfl
  | succ f ih =>
    cases n with
    | zero => rfl
    | succ n =>
      simp only [State.readGo]
      split <;> ((try simp only [Prod.ext_iff] at *); (try casesm* _ ∧ _); (try casesm* @Eq State _ _); (try simp [ih, kept @State.readLine_fr]))

@[simp] theorem State.readGo_fabric (s : State) (who : Ident) (f pa n : Nat) : (s.readGo who f pa n).2.fabric = s.fabric := by
  induction f generalizing s pa n with
  | zero => cases n <;> rfl
  | succ f ih =>
    cases n with
    | zero => rfl
    | succ n =>
      simp only [State.readGo]
      split <;> ((try simp only [Prod.ext_iff] at *); (try casesm* _ ∧ _); (try casesm* @Eq State _ _); (try simp [ih, kept @State.readLine_fr]))

@[simp] theorem State.readGo_flash (s : State) (who : Ident) (f pa n : Nat) : (s.readGo who f pa n).2.flash = s.flash := by
  induction f generalizing s pa n with
  | zero => cases n <;> rfl
  | succ f ih =>
    cases n with
    | zero => rfl
    | succ n =>
      simp only [State.readGo]
      split <;> ((try simp only [Prod.ext_iff] at *); (try casesm* _ ∧ _); (try casesm* @Eq State _ _); (try simp [ih, kept @State.readLine_fr]))

@[simp] theorem State.readGo_coldOpt (s : State) (who : Ident) (f pa n : Nat) : (s.readGo who f pa n).2.coldOpt = s.coldOpt := by
  induction f generalizing s pa n with
  | zero => cases n <;> rfl
  | succ f ih =>
    cases n with
    | zero => rfl
    | succ n =>
      simp only [State.readGo]
      split <;> ((try simp only [Prod.ext_iff] at *); (try casesm* _ ∧ _); (try casesm* @Eq State _ _); (try simp [ih, kept @State.readLine_fr]))

@[simp] theorem State.readGo_mem (s : State) (who : Ident) (f pa n : Nat) : (s.readGo who f pa n).2.mem = s.mem := by
  induction f generalizing s pa n with
  | zero => cases n <;> rfl
  | succ f ih =>
    cases n with
    | zero => rfl
    | succ n =>
      simp only [State.readGo]
      split <;> ((try simp only [Prod.ext_iff] at *); (try casesm* _ ∧ _); (try casesm* @Eq State _ _); (try simp [ih, kept @State.readLine_fr]))

@[simp] theorem State.readGo_harts (s : State) (who : Ident) (f pa n : Nat) : (s.readGo who f pa n).2.harts = s.harts := by
  induction f generalizing s pa n with
  | zero => cases n <;> rfl
  | succ f ih =>
    cases n with
    | zero => rfl
    | succ n =>
      simp only [State.readGo]
      split <;> ((try simp only [Prod.ext_iff] at *); (try casesm* _ ∧ _); (try casesm* @Eq State _ _); (try simp [ih, kept @State.readLine_fr]))

@[simp] theorem State.readGo_imsic (s : State) (who : Ident) (f pa n : Nat) : (s.readGo who f pa n).2.imsic = s.imsic := by
  induction f generalizing s pa n with
  | zero => cases n <;> rfl
  | succ f ih =>
    cases n with
    | zero => rfl
    | succ n =>
      simp only [State.readGo]
      split <;> ((try simp only [Prod.ext_iff] at *); (try casesm* _ ∧ _); (try casesm* @Eq State _ _); (try simp [ih, kept @State.readLine_fr]))

@[simp] theorem State.readGo_eng (s : State) (who : Ident) (f pa n : Nat) : (s.readGo who f pa n).2.eng = s.eng := by
  induction f generalizing s pa n with
  | zero => cases n <;> rfl
  | succ f ih =>
    cases n with
    | zero => rfl
    | succ n =>
      simp only [State.readGo]
      split <;> ((try simp only [Prod.ext_iff] at *); (try casesm* _ ∧ _); (try casesm* @Eq State _ _); (try simp [ih, kept @State.readLine_fr]))

@[simp] theorem State.readGo_dm (s : State) (who : Ident) (f pa n : Nat) : (s.readGo who f pa n).2.dm = s.dm := by
  induction f generalizing s pa n with
  | zero => cases n <;> rfl
  | succ f ih =>
    cases n with
    | zero => rfl
    | succ n =>
      simp only [State.readGo]
      split <;> ((try simp only [Prod.ext_iff] at *); (try casesm* _ ∧ _); (try casesm* @Eq State _ _); (try simp [ih, kept @State.readLine_fr]))

@[simp] theorem State.readGo_fx (s : State) (who : Ident) (f pa n : Nat) : (s.readGo who f pa n).2.fx = s.fx := by
  induction f generalizing s pa n with
  | zero => cases n <;> rfl
  | succ f ih =>
    cases n with
    | zero => rfl
    | succ n =>
      simp only [State.readGo]
      split <;> ((try simp only [Prod.ext_iff] at *); (try casesm* _ ∧ _); (try casesm* @Eq State _ _); (try simp [ih, kept @State.readLine_fr]))

@[simp] theorem State.readGo_ctu (s : State) (who : Ident) (f pa n : Nat) : (s.readGo who f pa n).2.ctu = s.ctu := by
  induction f generalizing s pa n with
  | zero => cases n <;> rfl
  | succ f ih =>
    cases n with
    | zero => rfl
    | succ n =>
      simp only [State.readGo]
      split <;> ((try simp only [Prod.ext_iff] at *); (try casesm* _ ∧ _); (try casesm* @Eq State _ _); (try simp [ih, kept @State.readLine_fr]))

@[simp] theorem State.readGo_links (s : State) (who : Ident) (f pa n : Nat) : (s.readGo who f pa n).2.links = s.links := by
  induction f generalizing s pa n with
  | zero => cases n <;> rfl
  | succ f ih =>
    cases n with
    | zero => rfl
    | succ n =>
      simp only [State.readGo]
      split <;> ((try simp only [Prod.ext_iff] at *); (try casesm* _ ∧ _); (try casesm* @Eq State _ _); (try simp [ih, kept @State.readLine_fr]))

@[simp] theorem State.readGo_aplicS (s : State) (who : Ident) (f pa n : Nat) : (s.readGo who f pa n).2.aplicS = s.aplicS := by
  induction f generalizing s pa n with
  | zero => cases n <;> rfl
  | succ f ih =>
    cases n with
    | zero => rfl
    | succ n =>
      simp only [State.readGo]
      split <;> ((try simp only [Prod.ext_iff] at *); (try casesm* _ ∧ _); (try casesm* @Eq State _ _); (try simp [ih, kept @State.readLine_fr]))

@[simp] theorem State.readGo_aplicN (s : State) (who : Ident) (f pa n : Nat) : (s.readGo who f pa n).2.aplicN = s.aplicN := by
  induction f generalizing s pa n with
  | zero => cases n <;> rfl
  | succ f ih =>
    cases n with
    | zero => rfl
    | succ n =>
      simp only [State.readGo]
      split <;> ((try simp only [Prod.ext_iff] at *); (try casesm* _ ∧ _); (try casesm* @Eq State _ _); (try simp [ih, kept @State.readLine_fr]))

@[simp] theorem State.readGo_credits (s : State) (who : Ident) (f pa n : Nat) : (s.readGo who f pa n).2.credits = s.credits := by
  induction f generalizing s pa n with
  | zero => cases n <;> rfl
  | succ f ih =>
    cases n with
    | zero => rfl
    | succ n =>
      simp only [State.readGo]
      split <;> ((try simp only [Prod.ext_iff] at *); (try casesm* _ ∧ _); (try casesm* @Eq State _ _); (try simp [ih, kept @State.readLine_fr]))

@[simp] theorem State.readGo_clusters (s : State) (who : Ident) (f pa n : Nat) : (s.readGo who f pa n).2.clusters = s.clusters := by
  induction f generalizing s pa n with
  | zero => cases n <;> rfl
  | succ f ih =>
    cases n with
    | zero => rfl
    | succ n =>
      simp only [State.readGo]
      split <;> ((try simp only [Prod.ext_iff] at *); (try casesm* _ ∧ _); (try casesm* @Eq State _ _); (try simp [ih, kept @State.readLine_fr]))

@[simp] theorem State.readGo_homes (s : State) (who : Ident) (f pa n : Nat) : (s.readGo who f pa n).2.homes = s.homes := by
  induction f generalizing s pa n with
  | zero => cases n <;> rfl
  | succ f ih =>
    cases n with
    | zero => rfl
    | succ n =>
      simp only [State.readGo]
      split <;> ((try simp only [Prod.ext_iff] at *); (try casesm* _ ∧ _); (try casesm* @Eq State _ _); (try simp [ih, kept @State.readLine_fr]))

@[simp] theorem State.readGo_pkts (s : State) (who : Ident) (f pa n : Nat) : (s.readGo who f pa n).2.pkts = s.pkts := by
  induction f generalizing s pa n with
  | zero => cases n <;> rfl
  | succ f ih =>
    cases n with
    | zero => rfl
    | succ n =>
      simp only [State.readGo]
      split <;> ((try simp only [Prod.ext_iff] at *); (try casesm* _ ∧ _); (try casesm* @Eq State _ _); (try simp [ih, kept @State.readLine_fr]))

@[simp] theorem State.readGo_resp (s : State) (who : Ident) (f pa n : Nat) : (s.readGo who f pa n).2.resp = s.resp := by
  induction f generalizing s pa n with
  | zero => cases n <;> rfl
  | succ f ih =>
    cases n with
    | zero => rfl
    | succ n =>
      simp only [State.readGo]
      split <;> ((try simp only [Prod.ext_iff] at *); (try casesm* _ ∧ _); (try casesm* @Eq State _ _); (try simp [ih, kept @State.readLine_fr]))

@[simp] theorem State.readGo_dmg (s : State) (who : Ident) (f pa n : Nat) : (s.readGo who f pa n).2.dmg = s.dmg := by
  induction f generalizing s pa n with
  | zero => cases n <;> rfl
  | succ f ih =>
    cases n with
    | zero => rfl
    | succ n =>
      simp only [State.readGo]
      split <;> ((try simp only [Prod.ext_iff] at *); (try casesm* _ ∧ _); (try casesm* @Eq State _ _); (try simp [ih, kept @State.readLine_fr]))

@[simp] theorem State.readGo_net (s : State) (who : Ident) (f pa n : Nat) : (s.readGo who f pa n).2.net = s.net := by
  induction f generalizing s pa n with
  | zero => cases n <;> rfl
  | succ f ih =>
    cases n with
    | zero => rfl
    | succ n =>
      simp only [State.readGo]
      split <;> ((try simp only [Prod.ext_iff] at *); (try casesm* _ ∧ _); (try casesm* @Eq State _ _); (try simp [ih, kept @State.readLine_fr]))

@[simp] theorem State.readGo_dbInval (s : State) (who : Ident) (f pa n : Nat) : (s.readGo who f pa n).2.dbInval = s.dbInval := by
  induction f generalizing s pa n with
  | zero => cases n <;> rfl
  | succ f ih =>
    cases n with
    | zero => rfl
    | succ n =>
      simp only [State.readGo]
      split <;> ((try simp only [Prod.ext_iff] at *); (try casesm* _ ∧ _); (try casesm* @Eq State _ _); (try simp [ih, kept @State.readLine_fr]))

@[simp] theorem State.readGo_watch (s : State) (who : Ident) (f pa n : Nat) : (s.readGo who f pa n).2.watch = s.watch := by
  induction f generalizing s pa n with
  | zero => cases n <;> rfl
  | succ f ih =>
    cases n with
    | zero => rfl
    | succ n =>
      simp only [State.readGo]
      split <;> ((try simp only [Prod.ext_iff] at *); (try casesm* _ ∧ _); (try casesm* @Eq State _ _); (try simp [ih, kept @State.readLine_fr]))

@[simp] theorem State.readGo_out (s : State) (who : Ident) (f pa n : Nat) : (s.readGo who f pa n).2.out = s.out := by
  induction f generalizing s pa n with
  | zero => cases n <;> rfl
  | succ f ih =>
    cases n with
    | zero => rfl
    | succ n =>
      simp only [State.readGo]
      split <;> ((try simp only [Prod.ext_iff] at *); (try casesm* _ ∧ _); (try casesm* @Eq State _ _); (try simp [ih, kept @State.readLine_fr]))

@[simp] theorem State.readGo_free (s : State) (who : Ident) (f pa n : Nat) : (s.readGo who f pa n).2.free = s.free := by
  induction f generalizing s pa n with
  | zero => cases n <;> rfl
  | succ f ih =>
    cases n with
    | zero => rfl
    | succ n =>
      simp only [State.readGo]
      split <;> ((try simp only [Prod.ext_iff] at *); (try casesm* _ ∧ _); (try casesm* @Eq State _ _); (try simp [ih, kept @State.readLine_fr]))

theorem State.readPa_fr (s : State) (who : Ident) (pa : Nat) (n : Nat) : (State.readPa s who pa n).2.pending = s.pending ∧ (State.readPa s who pa n).2.flash = s.flash ∧ (State.readPa s who pa n).2.coldOpt = s.coldOpt ∧ (State.readPa s who pa n).2.mem = s.mem ∧ (State.readPa s who pa n).2.harts = s.harts ∧ (State.readPa s who pa n).2.imsic = s.imsic ∧ (State.readPa s who pa n).2.eng = s.eng ∧ (State.readPa s who pa n).2.dm = s.dm ∧ (State.readPa s who pa n).2.fx = s.fx ∧ (State.readPa s who pa n).2.ctu = s.ctu ∧ (State.readPa s who pa n).2.links = s.links ∧ (State.readPa s who pa n).2.aplicS = s.aplicS ∧ (State.readPa s who pa n).2.aplicN = s.aplicN ∧ (State.readPa s who pa n).2.credits = s.credits ∧ (State.readPa s who pa n).2.clusters = s.clusters ∧ (State.readPa s who pa n).2.homes = s.homes ∧ (State.readPa s who pa n).2.pkts = s.pkts ∧ (State.readPa s who pa n).2.resp = s.resp ∧ (State.readPa s who pa n).2.dmg = s.dmg ∧ (State.readPa s who pa n).2.net = s.net ∧ (State.readPa s who pa n).2.dbInval = s.dbInval ∧ (State.readPa s who pa n).2.watch = s.watch ∧ (State.readPa s who pa n).2.out = s.out ∧ (State.readPa s who pa n).2.free = s.free ∧ (State.readPa s who pa n).2.fabric = s.fabric ∧ (State.readPa s who pa n).2.files = s.files := by
  generalize h : (State.readPa s who pa n).2 = u
  unfold State.readPa at h
  rw [← h]; simp

@[simp] theorem State.writeGo_pending (s : State) (who : Ident) (f pa : Nat) (l : List Byte) : (s.writeGo who f pa l).2.pending = s.pending := by
  induction f generalizing s pa l with
  | zero => cases l <;> rfl
  | succ f ih =>
    cases l with
    | nil => rfl
    | cons b t =>
      unfold State.writeGo
      dsimp only
      split <;> ((try simp only [Prod.ext_iff] at *); (try casesm* _ ∧ _); (try casesm* @Eq State _ _); (try simp [ih, kept @State.writeLine_fr]))

@[simp] theorem State.writeGo_files (s : State) (who : Ident) (f pa : Nat) (l : List Byte) : (s.writeGo who f pa l).2.files = s.files := by
  induction f generalizing s pa l with
  | zero => cases l <;> rfl
  | succ f ih =>
    cases l with
    | nil => rfl
    | cons b t =>
      unfold State.writeGo
      dsimp only
      split <;> ((try simp only [Prod.ext_iff] at *); (try casesm* _ ∧ _); (try casesm* @Eq State _ _); (try simp [ih, kept @State.writeLine_fr]))

@[simp] theorem State.writeGo_fabric (s : State) (who : Ident) (f pa : Nat) (l : List Byte) : (s.writeGo who f pa l).2.fabric = s.fabric := by
  induction f generalizing s pa l with
  | zero => cases l <;> rfl
  | succ f ih =>
    cases l with
    | nil => rfl
    | cons b t =>
      unfold State.writeGo
      dsimp only
      split <;> ((try simp only [Prod.ext_iff] at *); (try casesm* _ ∧ _); (try casesm* @Eq State _ _); (try simp [ih, kept @State.writeLine_fr]))

@[simp] theorem State.writeGo_flash (s : State) (who : Ident) (f pa : Nat) (l : List Byte) : (s.writeGo who f pa l).2.flash = s.flash := by
  induction f generalizing s pa l with
  | zero => cases l <;> rfl
  | succ f ih =>
    cases l with
    | nil => rfl
    | cons b t =>
      unfold State.writeGo
      dsimp only
      split <;> ((try simp only [Prod.ext_iff] at *); (try casesm* _ ∧ _); (try casesm* @Eq State _ _); (try simp [ih, kept @State.writeLine_fr]))

@[simp] theorem State.writeGo_coldOpt (s : State) (who : Ident) (f pa : Nat) (l : List Byte) : (s.writeGo who f pa l).2.coldOpt = s.coldOpt := by
  induction f generalizing s pa l with
  | zero => cases l <;> rfl
  | succ f ih =>
    cases l with
    | nil => rfl
    | cons b t =>
      unfold State.writeGo
      dsimp only
      split <;> ((try simp only [Prod.ext_iff] at *); (try casesm* _ ∧ _); (try casesm* @Eq State _ _); (try simp [ih, kept @State.writeLine_fr]))

@[simp] theorem State.writeGo_imsic (s : State) (who : Ident) (f pa : Nat) (l : List Byte) : (s.writeGo who f pa l).2.imsic = s.imsic := by
  induction f generalizing s pa l with
  | zero => cases l <;> rfl
  | succ f ih =>
    cases l with
    | nil => rfl
    | cons b t =>
      unfold State.writeGo
      dsimp only
      split <;> ((try simp only [Prod.ext_iff] at *); (try casesm* _ ∧ _); (try casesm* @Eq State _ _); (try simp [ih, kept @State.writeLine_fr]))

@[simp] theorem State.writeGo_eng (s : State) (who : Ident) (f pa : Nat) (l : List Byte) : (s.writeGo who f pa l).2.eng = s.eng := by
  induction f generalizing s pa l with
  | zero => cases l <;> rfl
  | succ f ih =>
    cases l with
    | nil => rfl
    | cons b t =>
      unfold State.writeGo
      dsimp only
      split <;> ((try simp only [Prod.ext_iff] at *); (try casesm* _ ∧ _); (try casesm* @Eq State _ _); (try simp [ih, kept @State.writeLine_fr]))

@[simp] theorem State.writeGo_dm (s : State) (who : Ident) (f pa : Nat) (l : List Byte) : (s.writeGo who f pa l).2.dm = s.dm := by
  induction f generalizing s pa l with
  | zero => cases l <;> rfl
  | succ f ih =>
    cases l with
    | nil => rfl
    | cons b t =>
      unfold State.writeGo
      dsimp only
      split <;> ((try simp only [Prod.ext_iff] at *); (try casesm* _ ∧ _); (try casesm* @Eq State _ _); (try simp [ih, kept @State.writeLine_fr]))

@[simp] theorem State.writeGo_fx (s : State) (who : Ident) (f pa : Nat) (l : List Byte) : (s.writeGo who f pa l).2.fx = s.fx := by
  induction f generalizing s pa l with
  | zero => cases l <;> rfl
  | succ f ih =>
    cases l with
    | nil => rfl
    | cons b t =>
      unfold State.writeGo
      dsimp only
      split <;> ((try simp only [Prod.ext_iff] at *); (try casesm* _ ∧ _); (try casesm* @Eq State _ _); (try simp [ih, kept @State.writeLine_fr]))

@[simp] theorem State.writeGo_ctu (s : State) (who : Ident) (f pa : Nat) (l : List Byte) : (s.writeGo who f pa l).2.ctu = s.ctu := by
  induction f generalizing s pa l with
  | zero => cases l <;> rfl
  | succ f ih =>
    cases l with
    | nil => rfl
    | cons b t =>
      unfold State.writeGo
      dsimp only
      split <;> ((try simp only [Prod.ext_iff] at *); (try casesm* _ ∧ _); (try casesm* @Eq State _ _); (try simp [ih, kept @State.writeLine_fr]))

@[simp] theorem State.writeGo_links (s : State) (who : Ident) (f pa : Nat) (l : List Byte) : (s.writeGo who f pa l).2.links = s.links := by
  induction f generalizing s pa l with
  | zero => cases l <;> rfl
  | succ f ih =>
    cases l with
    | nil => rfl
    | cons b t =>
      unfold State.writeGo
      dsimp only
      split <;> ((try simp only [Prod.ext_iff] at *); (try casesm* _ ∧ _); (try casesm* @Eq State _ _); (try simp [ih, kept @State.writeLine_fr]))

@[simp] theorem State.writeGo_aplicS (s : State) (who : Ident) (f pa : Nat) (l : List Byte) : (s.writeGo who f pa l).2.aplicS = s.aplicS := by
  induction f generalizing s pa l with
  | zero => cases l <;> rfl
  | succ f ih =>
    cases l with
    | nil => rfl
    | cons b t =>
      unfold State.writeGo
      dsimp only
      split <;> ((try simp only [Prod.ext_iff] at *); (try casesm* _ ∧ _); (try casesm* @Eq State _ _); (try simp [ih, kept @State.writeLine_fr]))

@[simp] theorem State.writeGo_aplicN (s : State) (who : Ident) (f pa : Nat) (l : List Byte) : (s.writeGo who f pa l).2.aplicN = s.aplicN := by
  induction f generalizing s pa l with
  | zero => cases l <;> rfl
  | succ f ih =>
    cases l with
    | nil => rfl
    | cons b t =>
      unfold State.writeGo
      dsimp only
      split <;> ((try simp only [Prod.ext_iff] at *); (try casesm* _ ∧ _); (try casesm* @Eq State _ _); (try simp [ih, kept @State.writeLine_fr]))

@[simp] theorem State.writeGo_credits (s : State) (who : Ident) (f pa : Nat) (l : List Byte) : (s.writeGo who f pa l).2.credits = s.credits := by
  induction f generalizing s pa l with
  | zero => cases l <;> rfl
  | succ f ih =>
    cases l with
    | nil => rfl
    | cons b t =>
      unfold State.writeGo
      dsimp only
      split <;> ((try simp only [Prod.ext_iff] at *); (try casesm* _ ∧ _); (try casesm* @Eq State _ _); (try simp [ih, kept @State.writeLine_fr]))

@[simp] theorem State.writeGo_pkts (s : State) (who : Ident) (f pa : Nat) (l : List Byte) : (s.writeGo who f pa l).2.pkts = s.pkts := by
  induction f generalizing s pa l with
  | zero => cases l <;> rfl
  | succ f ih =>
    cases l with
    | nil => rfl
    | cons b t =>
      unfold State.writeGo
      dsimp only
      split <;> ((try simp only [Prod.ext_iff] at *); (try casesm* _ ∧ _); (try casesm* @Eq State _ _); (try simp [ih, kept @State.writeLine_fr]))

@[simp] theorem State.writeGo_resp (s : State) (who : Ident) (f pa : Nat) (l : List Byte) : (s.writeGo who f pa l).2.resp = s.resp := by
  induction f generalizing s pa l with
  | zero => cases l <;> rfl
  | succ f ih =>
    cases l with
    | nil => rfl
    | cons b t =>
      unfold State.writeGo
      dsimp only
      split <;> ((try simp only [Prod.ext_iff] at *); (try casesm* _ ∧ _); (try casesm* @Eq State _ _); (try simp [ih, kept @State.writeLine_fr]))

@[simp] theorem State.writeGo_out (s : State) (who : Ident) (f pa : Nat) (l : List Byte) : (s.writeGo who f pa l).2.out = s.out := by
  induction f generalizing s pa l with
  | zero => cases l <;> rfl
  | succ f ih =>
    cases l with
    | nil => rfl
    | cons b t =>
      unfold State.writeGo
      dsimp only
      split <;> ((try simp only [Prod.ext_iff] at *); (try casesm* _ ∧ _); (try casesm* @Eq State _ _); (try simp [ih, kept @State.writeLine_fr]))

@[simp] theorem State.writeGo_free (s : State) (who : Ident) (f pa : Nat) (l : List Byte) : (s.writeGo who f pa l).2.free = s.free := by
  induction f generalizing s pa l with
  | zero => cases l <;> rfl
  | succ f ih =>
    cases l with
    | nil => rfl
    | cons b t =>
      unfold State.writeGo
      dsimp only
      split <;> ((try simp only [Prod.ext_iff] at *); (try casesm* _ ∧ _); (try casesm* @Eq State _ _); (try simp [ih, kept @State.writeLine_fr]))

theorem State.writePa_fr (s : State) (who : Ident) (pa : Nat) (l : List Byte) : (State.writePa s who pa l).2.pending = s.pending ∧ (State.writePa s who pa l).2.flash = s.flash ∧ (State.writePa s who pa l).2.coldOpt = s.coldOpt ∧ (State.writePa s who pa l).2.imsic = s.imsic ∧ (State.writePa s who pa l).2.eng = s.eng ∧ (State.writePa s who pa l).2.dm = s.dm ∧ (State.writePa s who pa l).2.fx = s.fx ∧ (State.writePa s who pa l).2.ctu = s.ctu ∧ (State.writePa s who pa l).2.links = s.links ∧ (State.writePa s who pa l).2.aplicS = s.aplicS ∧ (State.writePa s who pa l).2.aplicN = s.aplicN ∧ (State.writePa s who pa l).2.credits = s.credits ∧ (State.writePa s who pa l).2.pkts = s.pkts ∧ (State.writePa s who pa l).2.resp = s.resp ∧ (State.writePa s who pa l).2.out = s.out ∧ (State.writePa s who pa l).2.free = s.free ∧ (State.writePa s who pa l).2.fabric = s.fabric ∧ (State.writePa s who pa l).2.files = s.files := by
  generalize h : (State.writePa s who pa l).2 = u
  unfold State.writePa at h
  rw [← h]; simp

theorem State.l3TakeAll_fr (s : State) (ln : Nat) : (State.l3TakeAll s ln).pending = s.pending ∧ (State.l3TakeAll s ln).flash = s.flash ∧ (State.l3TakeAll s ln).coldOpt = s.coldOpt ∧ (State.l3TakeAll s ln).mem = s.mem ∧ (State.l3TakeAll s ln).harts = s.harts ∧ (State.l3TakeAll s ln).mram = s.mram ∧ (State.l3TakeAll s ln).imsic = s.imsic ∧ (State.l3TakeAll s ln).eng = s.eng ∧ (State.l3TakeAll s ln).dm = s.dm ∧ (State.l3TakeAll s ln).fx = s.fx ∧ (State.l3TakeAll s ln).ctu = s.ctu ∧ (State.l3TakeAll s ln).links = s.links ∧ (State.l3TakeAll s ln).aplicS = s.aplicS ∧ (State.l3TakeAll s ln).aplicN = s.aplicN ∧ (State.l3TakeAll s ln).credits = s.credits ∧ (State.l3TakeAll s ln).clusters = s.clusters ∧ (State.l3TakeAll s ln).pkts = s.pkts ∧ (State.l3TakeAll s ln).resp = s.resp ∧ (State.l3TakeAll s ln).wires = s.wires ∧ (State.l3TakeAll s ln).dmg = s.dmg ∧ (State.l3TakeAll s ln).wq = s.wq ∧ (State.l3TakeAll s ln).net = s.net ∧ (State.l3TakeAll s ln).dbInval = s.dbInval ∧ (State.l3TakeAll s ln).watch = s.watch ∧ (State.l3TakeAll s ln).pkg = s.pkg ∧ (State.l3TakeAll s ln).pmc = s.pmc ∧ (State.l3TakeAll s ln).fwLog = s.fwLog ∧ (State.l3TakeAll s ln).out = s.out ∧ (State.l3TakeAll s ln).free = s.free ∧ (State.l3TakeAll s ln).fabric = s.fabric ∧ (State.l3TakeAll s ln).files = s.files := by
  generalize h : State.l3TakeAll s ln = u
  unfold State.l3TakeAll at h
  (try dsimp only at h); (repeat' split at h) <;> rw [← h] <;> simp [kept @State.l3Take_fr]

theorem State.l3CleanAll_fr (s : State) (ln : Nat) (who : Option Ident) : (State.l3CleanAll s ln who).pending = s.pending ∧ (State.l3CleanAll s ln who).flash = s.flash ∧ (State.l3CleanAll s ln who).coldOpt = s.coldOpt ∧ (State.l3CleanAll s ln who).mem = s.mem ∧ (State.l3CleanAll s ln who).harts = s.harts ∧ (State.l3CleanAll s ln who).mram = s.mram ∧ (State.l3CleanAll s ln who).imsic = s.imsic ∧ (State.l3CleanAll s ln who).eng = s.eng ∧ (State.l3CleanAll s ln who).dm = s.dm ∧ (State.l3CleanAll s ln who).fx = s.fx ∧ (State.l3CleanAll s ln who).ctu = s.ctu ∧ (State.l3CleanAll s ln who).links = s.links ∧ (State.l3CleanAll s ln who).aplicS = s.aplicS ∧ (State.l3CleanAll s ln who).aplicN = s.aplicN ∧ (State.l3CleanAll s ln who).credits = s.credits ∧ (State.l3CleanAll s ln who).clusters = s.clusters ∧ (State.l3CleanAll s ln who).pkts = s.pkts ∧ (State.l3CleanAll s ln who).resp = s.resp ∧ (State.l3CleanAll s ln who).regs = s.regs ∧ (State.l3CleanAll s ln who).wires = s.wires ∧ (State.l3CleanAll s ln who).dmg = s.dmg ∧ (State.l3CleanAll s ln who).net = s.net ∧ (State.l3CleanAll s ln who).dbInval = s.dbInval ∧ (State.l3CleanAll s ln who).watch = s.watch ∧ (State.l3CleanAll s ln who).pkg = s.pkg ∧ (State.l3CleanAll s ln who).pmc = s.pmc ∧ (State.l3CleanAll s ln who).fwLog = s.fwLog ∧ (State.l3CleanAll s ln who).out = s.out ∧ (State.l3CleanAll s ln who).free = s.free ∧ (State.l3CleanAll s ln who).fabric = s.fabric ∧ (State.l3CleanAll s ln who).files = s.files := by
  generalize h : State.l3CleanAll s ln who = u
  unfold State.l3CleanAll at h
  (try dsimp only at h); (repeat' split at h) <;> rw [← h] <;> simp [kept @State.l3Clean_fr]

theorem State.wbTaken_fr (s : State) (ln : Nat) : (State.wbTaken s ln).pending = s.pending ∧ (State.wbTaken s ln).flash = s.flash ∧ (State.wbTaken s ln).coldOpt = s.coldOpt ∧ (State.wbTaken s ln).mem = s.mem ∧ (State.wbTaken s ln).harts = s.harts ∧ (State.wbTaken s ln).mram = s.mram ∧ (State.wbTaken s ln).imsic = s.imsic ∧ (State.wbTaken s ln).eng = s.eng ∧ (State.wbTaken s ln).dm = s.dm ∧ (State.wbTaken s ln).fx = s.fx ∧ (State.wbTaken s ln).ctu = s.ctu ∧ (State.wbTaken s ln).links = s.links ∧ (State.wbTaken s ln).aplicS = s.aplicS ∧ (State.wbTaken s ln).aplicN = s.aplicN ∧ (State.wbTaken s ln).credits = s.credits ∧ (State.wbTaken s ln).homes = s.homes ∧ (State.wbTaken s ln).pkts = s.pkts ∧ (State.wbTaken s ln).resp = s.resp ∧ (State.wbTaken s ln).regs = s.regs ∧ (State.wbTaken s ln).wires = s.wires ∧ (State.wbTaken s ln).dmg = s.dmg ∧ (State.wbTaken s ln).wq = s.wq ∧ (State.wbTaken s ln).dbInval = s.dbInval ∧ (State.wbTaken s ln).watch = s.watch ∧ (State.wbTaken s ln).pkg = s.pkg ∧ (State.wbTaken s ln).pmc = s.pmc ∧ (State.wbTaken s ln).fwLog = s.fwLog ∧ (State.wbTaken s ln).out = s.out ∧ (State.wbTaken s ln).free = s.free ∧ (State.wbTaken s ln).fabric = s.fabric ∧ (State.wbTaken s ln).files = s.files := by
  generalize h : State.wbTaken s ln = u
  unfold State.wbTaken at h
  (try dsimp only at h); (repeat' split at h) <;> rw [← h] <;> simp

theorem State.cleanLine_fr (s : State) (who : Ident) (ln : Nat) : (State.cleanLine s who ln).pending = s.pending ∧ (State.cleanLine s who ln).flash = s.flash ∧ (State.cleanLine s who ln).coldOpt = s.coldOpt ∧ (State.cleanLine s who ln).mem = s.mem ∧ (State.cleanLine s who ln).harts = s.harts ∧ (State.cleanLine s who ln).mram = s.mram ∧ (State.cleanLine s who ln).imsic = s.imsic ∧ (State.cleanLine s who ln).eng = s.eng ∧ (State.cleanLine s who ln).dm = s.dm ∧ (State.cleanLine s who ln).fx = s.fx ∧ (State.cleanLine s who ln).ctu = s.ctu ∧ (State.cleanLine s who ln).links = s.links ∧ (State.cleanLine s who ln).aplicS = s.aplicS ∧ (State.cleanLine s who ln).aplicN = s.aplicN ∧ (State.cleanLine s who ln).credits = s.credits ∧ (State.cleanLine s who ln).pkts = s.pkts ∧ (State.cleanLine s who ln).resp = s.resp ∧ (State.cleanLine s who ln).wires = s.wires ∧ (State.cleanLine s who ln).dmg = s.dmg ∧ (State.cleanLine s who ln).dbInval = s.dbInval ∧ (State.cleanLine s who ln).watch = s.watch ∧ (State.cleanLine s who ln).pkg = s.pkg ∧ (State.cleanLine s who ln).pmc = s.pmc ∧ (State.cleanLine s who ln).fwLog = s.fwLog ∧ (State.cleanLine s who ln).out = s.out ∧ (State.cleanLine s who ln).free = s.free ∧ (State.cleanLine s who ln).fabric = s.fabric ∧ (State.cleanLine s who ln).files = s.files := by
  generalize h : State.cleanLine s who ln = u
  unfold State.cleanLine at h
  (try dsimp only at h); (repeat' split at h) <;> rw [← h] <;> simp [kept @State.dirDel_fr, kept @State.dirPut_fr, kept @State.l3Alloc_fr, kept @State.l3CleanAll_fr, kept @State.memWr_fr, kept @State.wbTaken_fr]

theorem State.flushLine_fr (s : State) (ln : Nat) : (State.flushLine s ln).pending = s.pending ∧ (State.flushLine s ln).flash = s.flash ∧ (State.flushLine s ln).coldOpt = s.coldOpt ∧ (State.flushLine s ln).mem = s.mem ∧ (State.flushLine s ln).mram = s.mram ∧ (State.flushLine s ln).imsic = s.imsic ∧ (State.flushLine s ln).eng = s.eng ∧ (State.flushLine s ln).dm = s.dm ∧ (State.flushLine s ln).fx = s.fx ∧ (State.flushLine s ln).ctu = s.ctu ∧ (State.flushLine s ln).links = s.links ∧ (State.flushLine s ln).aplicS = s.aplicS ∧ (State.flushLine s ln).aplicN = s.aplicN ∧ (State.flushLine s ln).credits = s.credits ∧ (State.flushLine s ln).pkts = s.pkts ∧ (State.flushLine s ln).resp = s.resp ∧ (State.flushLine s ln).wires = s.wires ∧ (State.flushLine s ln).dmg = s.dmg ∧ (State.flushLine s ln).pkg = s.pkg ∧ (State.flushLine s ln).pmc = s.pmc ∧ (State.flushLine s ln).fwLog = s.fwLog ∧ (State.flushLine s ln).out = s.out ∧ (State.flushLine s ln).free = s.free ∧ (State.flushLine s ln).fabric = s.fabric ∧ (State.flushLine s ln).files = s.files := by
  generalize h : State.flushLine s ln = u
  unfold State.flushLine at h
  (try dsimp only at h); (repeat' split at h) <;> rw [← h] <;> simp [kept @State.l3CleanAll_fr, kept @State.l3TakeAll_fr, kept @State.memWr_fr, kept @State.takeBack_fr]

theorem State.watchRoom_fr (s : State) (ln : Nat) : (State.watchRoom s ln).pending = s.pending ∧ (State.watchRoom s ln).flash = s.flash ∧ (State.watchRoom s ln).coldOpt = s.coldOpt ∧ (State.watchRoom s ln).mem = s.mem ∧ (State.watchRoom s ln).harts = s.harts ∧ (State.watchRoom s ln).mram = s.mram ∧ (State.watchRoom s ln).imsic = s.imsic ∧ (State.watchRoom s ln).eng = s.eng ∧ (State.watchRoom s ln).dm = s.dm ∧ (State.watchRoom s ln).fx = s.fx ∧ (State.watchRoom s ln).ctu = s.ctu ∧ (State.watchRoom s ln).links = s.links ∧ (State.watchRoom s ln).aplicS = s.aplicS ∧ (State.watchRoom s ln).aplicN = s.aplicN ∧ (State.watchRoom s ln).credits = s.credits ∧ (State.watchRoom s ln).clusters = s.clusters ∧ (State.watchRoom s ln).homes = s.homes ∧ (State.watchRoom s ln).pkts = s.pkts ∧ (State.watchRoom s ln).resp = s.resp ∧ (State.watchRoom s ln).regs = s.regs ∧ (State.watchRoom s ln).wires = s.wires ∧ (State.watchRoom s ln).dmg = s.dmg ∧ (State.watchRoom s ln).wq = s.wq ∧ (State.watchRoom s ln).pkg = s.pkg ∧ (State.watchRoom s ln).pmc = s.pmc ∧ (State.watchRoom s ln).fwLog = s.fwLog ∧ (State.watchRoom s ln).out = s.out ∧ (State.watchRoom s ln).free = s.free ∧ (State.watchRoom s ln).fabric = s.fabric ∧ (State.watchRoom s ln).files = s.files := by
  generalize h : State.watchRoom s ln = u
  unfold State.watchRoom at h
  (try dsimp only at h); (repeat' split at h) <;> rw [← h] <;> simp [kept @State.post_fr]

theorem State.watchLine_fr (s : State) (ln : Nat) : (State.watchLine s ln).pending = s.pending ∧ (State.watchLine s ln).flash = s.flash ∧ (State.watchLine s ln).coldOpt = s.coldOpt ∧ (State.watchLine s ln).mem = s.mem ∧ (State.watchLine s ln).harts = s.harts ∧ (State.watchLine s ln).mram = s.mram ∧ (State.watchLine s ln).imsic = s.imsic ∧ (State.watchLine s ln).eng = s.eng ∧ (State.watchLine s ln).dm = s.dm ∧ (State.watchLine s ln).fx = s.fx ∧ (State.watchLine s ln).ctu = s.ctu ∧ (State.watchLine s ln).links = s.links ∧ (State.watchLine s ln).aplicS = s.aplicS ∧ (State.watchLine s ln).aplicN = s.aplicN ∧ (State.watchLine s ln).credits = s.credits ∧ (State.watchLine s ln).clusters = s.clusters ∧ (State.watchLine s ln).homes = s.homes ∧ (State.watchLine s ln).pkts = s.pkts ∧ (State.watchLine s ln).resp = s.resp ∧ (State.watchLine s ln).regs = s.regs ∧ (State.watchLine s ln).wires = s.wires ∧ (State.watchLine s ln).dmg = s.dmg ∧ (State.watchLine s ln).wq = s.wq ∧ (State.watchLine s ln).net = s.net ∧ (State.watchLine s ln).watch = s.watch ∧ (State.watchLine s ln).pkg = s.pkg ∧ (State.watchLine s ln).pmc = s.pmc ∧ (State.watchLine s ln).fwLog = s.fwLog ∧ (State.watchLine s ln).out = s.out ∧ (State.watchLine s ln).free = s.free ∧ (State.watchLine s ln).fabric = s.fabric ∧ (State.watchLine s ln).files = s.files := by
  generalize h : State.watchLine s ln = u
  unfold State.watchLine at h
  (try dsimp only at h); (repeat' split at h) <;> rw [← h] <;> simp

end Sys2Proof.Machine
end

