-- ==== Sys2Proof/Laws/Frame/Sample.lean ====
section
/-! SUPPORT. What the operations of Machine/Sample.lean leave unchanged. -/

set_option Elab.async false
set_option linter.all false

namespace Sys2Proof.Machine
open Sys2Proof

theorem State.sample_fr (s : State) (who : Ident) (bytes : List Byte) : (State.sample s who bytes).pending = s.pending ∧ (State.sample s who bytes).flash = s.flash ∧ (State.sample s who bytes).coldOpt = s.coldOpt ∧ (State.sample s who bytes).imsic = s.imsic ∧ (State.sample s who bytes).eng = s.eng ∧ (State.sample s who bytes).dm = s.dm ∧ (State.sample s who bytes).fx = s.fx ∧ (State.sample s who bytes).ctu = s.ctu ∧ (State.sample s who bytes).links = s.links ∧ (State.sample s who bytes).aplicS = s.aplicS ∧ (State.sample s who bytes).aplicN = s.aplicN ∧ (State.sample s who bytes).credits = s.credits ∧ (State.sample s who bytes).pkts = s.pkts ∧ (State.sample s who bytes).resp = s.resp ∧ (State.sample s who bytes).out = s.out ∧ (State.sample s who bytes).free = s.free ∧ (State.sample s who bytes).fabric = s.fabric ∧ (State.sample s who bytes).files = s.files := by
  generalize h : State.sample s who bytes = u
  unfold State.sample at h
  rw [← h]; simp [kept @State.addF_fr, kept @State.satF_fr, kept @State.writePa_fr]

theorem State.chooseTag_fr (s : State) (hh : Nat) : (State.chooseTag s hh).pending = s.pending ∧ (State.chooseTag s hh).flash = s.flash ∧ (State.chooseTag s hh).coldOpt = s.coldOpt ∧ (State.chooseTag s hh).mem = s.mem ∧ (State.chooseTag s hh).mram = s.mram ∧ (State.chooseTag s hh).imsic = s.imsic ∧ (State.chooseTag s hh).eng = s.eng ∧ (State.chooseTag s hh).dm = s.dm ∧ (State.chooseTag s hh).fx = s.fx ∧ (State.chooseTag s hh).ctu = s.ctu ∧ (State.chooseTag s hh).links = s.links ∧ (State.chooseTag s hh).aplicS = s.aplicS ∧ (State.chooseTag s hh).aplicN = s.aplicN ∧ (State.chooseTag s hh).credits = s.credits ∧ (State.chooseTag s hh).clusters = s.clusters ∧ (State.chooseTag s hh).homes = s.homes ∧ (State.chooseTag s hh).pkts = s.pkts ∧ (State.chooseTag s hh).resp = s.resp ∧ (State.chooseTag s hh).regs = s.regs ∧ (State.chooseTag s hh).wires = s.wires ∧ (State.chooseTag s hh).dmg = s.dmg ∧ (State.chooseTag s hh).wq = s.wq ∧ (State.chooseTag s hh).net = s.net ∧ (State.chooseTag s hh).dbInval = s.dbInval ∧ (State.chooseTag s hh).watch = s.watch ∧ (State.chooseTag s hh).pkg = s.pkg ∧ (State.chooseTag s hh).pmc = s.pmc ∧ (State.chooseTag s hh).fwLog = s.fwLog ∧ (State.chooseTag s hh).out = s.out ∧ (State.chooseTag s hh).fabric = s.fabric ∧ (State.chooseTag s hh).files = s.files := by
  generalize h : State.chooseTag s hh = u
  unfold State.chooseTag at h
  rw [← h]; simp [kept @State.draw_fr, kept @State.setHart_fr]

theorem State.tagStep_fr (s : State) (hh : Nat) (va : Nat) (pa : Nat) (cause : Nat) : (State.tagStep s hh va pa cause).pending = s.pending ∧ (State.tagStep s hh va pa cause).flash = s.flash ∧ (State.tagStep s hh va pa cause).coldOpt = s.coldOpt ∧ (State.tagStep s hh va pa cause).imsic = s.imsic ∧ (State.tagStep s hh va pa cause).eng = s.eng ∧ (State.tagStep s hh va pa cause).dm = s.dm ∧ (State.tagStep s hh va pa cause).fx = s.fx ∧ (State.tagStep s hh va pa cause).ctu = s.ctu ∧ (State.tagStep s hh va pa cause).links = s.links ∧ (State.tagStep s hh va pa cause).aplicS = s.aplicS ∧ (State.tagStep s hh va pa cause).aplicN = s.aplicN ∧ (State.tagStep s hh va pa cause).credits = s.credits ∧ (State.tagStep s hh va pa cause).pkts = s.pkts ∧ (State.tagStep s hh va pa cause).resp = s.resp ∧ (State.tagStep s hh va pa cause).out = s.out ∧ (State.tagStep s hh va pa cause).fabric = s.fabric ∧ (State.tagStep s hh va pa cause).files = s.files := by
  generalize h : State.tagStep s hh va pa cause = u
  unfold State.tagStep at h
  rw [← h]; simp [kept @State.chooseTag_fr, kept @State.draw_fr, kept @State.sample_fr, kept @State.setHart_fr]

theorem State.stepped_fr (s : State) (hh : Nat) : (State.stepped s hh).pending = s.pending ∧ (State.stepped s hh).flash = s.flash ∧ (State.stepped s hh).coldOpt = s.coldOpt ∧ (State.stepped s hh).mem = s.mem ∧ (State.stepped s hh).mram = s.mram ∧ (State.stepped s hh).imsic = s.imsic ∧ (State.stepped s hh).eng = s.eng ∧ (State.stepped s hh).dm = s.dm ∧ (State.stepped s hh).fx = s.fx ∧ (State.stepped s hh).ctu = s.ctu ∧ (State.stepped s hh).links = s.links ∧ (State.stepped s hh).aplicS = s.aplicS ∧ (State.stepped s hh).aplicN = s.aplicN ∧ (State.stepped s hh).credits = s.credits ∧ (State.stepped s hh).clusters = s.clusters ∧ (State.stepped s hh).homes = s.homes ∧ (State.stepped s hh).pkts = s.pkts ∧ (State.stepped s hh).resp = s.resp ∧ (State.stepped s hh).regs = s.regs ∧ (State.stepped s hh).wires = s.wires ∧ (State.stepped s hh).dmg = s.dmg ∧ (State.stepped s hh).wq = s.wq ∧ (State.stepped s hh).net = s.net ∧ (State.stepped s hh).dbInval = s.dbInval ∧ (State.stepped s hh).watch = s.watch ∧ (State.stepped s hh).pkg = s.pkg ∧ (State.stepped s hh).pmc = s.pmc ∧ (State.stepped s hh).fwLog = s.fwLog ∧ (State.stepped s hh).out = s.out ∧ (State.stepped s hh).free = s.free ∧ (State.stepped s hh).fabric = s.fabric ∧ (State.stepped s hh).files = s.files := by
  generalize h : State.stepped s hh = u
  unfold State.stepped at h
  rw [← h]; simp [kept @State.setHart_fr]

theorem State.retireAt_fr (s : State) (hh : Nat) (len : Nat) (va : Nat) (pa : Nat) : (State.retireAt s hh len va pa).pending = s.pending ∧ (State.retireAt s hh len va pa).flash = s.flash ∧ (State.retireAt s hh len va pa).coldOpt = s.coldOpt ∧ (State.retireAt s hh len va pa).imsic = s.imsic ∧ (State.retireAt s hh len va pa).eng = s.eng ∧ (State.retireAt s hh len va pa).dm = s.dm ∧ (State.retireAt s hh len va pa).fx = s.fx ∧ (State.retireAt s hh len va pa).ctu = s.ctu ∧ (State.retireAt s hh len va pa).links = s.links ∧ (State.retireAt s hh len va pa).aplicS = s.aplicS ∧ (State.retireAt s hh len va pa).aplicN = s.aplicN ∧ (State.retireAt s hh len va pa).credits = s.credits ∧ (State.retireAt s hh len va pa).pkts = s.pkts ∧ (State.retireAt s hh len va pa).resp = s.resp ∧ (State.retireAt s hh len va pa).out = s.out ∧ (State.retireAt s hh len va pa).fabric = s.fabric ∧ (State.retireAt s hh len va pa).files = s.files := by
  generalize h : State.retireAt s hh len va pa = u
  unfold State.retireAt at h
  rw [← h]; simp [kept @State.setHart_fr, kept @State.stepped_fr, kept @State.tagStep_fr]

theorem State.retire_fr (s : State) (hh : Nat) (len : Nat) : (State.retire s hh len).pending = s.pending ∧ (State.retire s hh len).flash = s.flash ∧ (State.retire s hh len).coldOpt = s.coldOpt ∧ (State.retire s hh len).imsic = s.imsic ∧ (State.retire s hh len).eng = s.eng ∧ (State.retire s hh len).dm = s.dm ∧ (State.retire s hh len).fx = s.fx ∧ (State.retire s hh len).ctu = s.ctu ∧ (State.retire s hh len).links = s.links ∧ (State.retire s hh len).aplicS = s.aplicS ∧ (State.retire s hh len).aplicN = s.aplicN ∧ (State.retire s hh len).credits = s.credits ∧ (State.retire s hh len).pkts = s.pkts ∧ (State.retire s hh len).resp = s.resp ∧ (State.retire s hh len).out = s.out ∧ (State.retire s hh len).fabric = s.fabric ∧ (State.retire s hh len).files = s.files := by
  generalize h : State.retire s hh len = u
  unfold State.retire at h
  rw [← h]; simp [kept @State.retireAt_fr]

theorem State.trigFires_fr (s : State) (hh : Nat) (i : Nat) (tval : Nat) : (State.trigFires s hh i tval).pending = s.pending ∧ (State.trigFires s hh i tval).flash = s.flash ∧ (State.trigFires s hh i tval).coldOpt = s.coldOpt ∧ (State.trigFires s hh i tval).mem = s.mem ∧ (State.trigFires s hh i tval).mram = s.mram ∧ (State.trigFires s hh i tval).imsic = s.imsic ∧ (State.trigFires s hh i tval).eng = s.eng ∧ (State.trigFires s hh i tval).dm = s.dm ∧ (State.trigFires s hh i tval).fx = s.fx ∧ (State.trigFires s hh i tval).ctu = s.ctu ∧ (State.trigFires s hh i tval).links = s.links ∧ (State.trigFires s hh i tval).aplicS = s.aplicS ∧ (State.trigFires s hh i tval).aplicN = s.aplicN ∧ (State.trigFires s hh i tval).credits = s.credits ∧ (State.trigFires s hh i tval).clusters = s.clusters ∧ (State.trigFires s hh i tval).homes = s.homes ∧ (State.trigFires s hh i tval).pkts = s.pkts ∧ (State.trigFires s hh i tval).resp = s.resp ∧ (State.trigFires s hh i tval).regs = s.regs ∧ (State.trigFires s hh i tval).wires = s.wires ∧ (State.trigFires s hh i tval).dmg = s.dmg ∧ (State.trigFires s hh i tval).wq = s.wq ∧ (State.trigFires s hh i tval).net = s.net ∧ (State.trigFires s hh i tval).dbInval = s.dbInval ∧ (State.trigFires s hh i tval).watch = s.watch ∧ (State.trigFires s hh i tval).pkg = s.pkg ∧ (State.trigFires s hh i tval).pmc = s.pmc ∧ (State.trigFires s hh i tval).fwLog = s.fwLog ∧ (State.trigFires s hh i tval).out = s.out ∧ (State.trigFires s hh i tval).free = s.free ∧ (State.trigFires s hh i tval).fabric = s.fabric ∧ (State.trigFires s hh i tval).files = s.files := by
  generalize h : State.trigFires s hh i tval = u
  unfold State.trigFires at h
  (try dsimp only at h); (repeat' split at h) <;> rw [← h] <;> simp [kept @State.setHart_fr, kept @State.trap_fr]

theorem State.afterTrap_fr (s : State) (hh : Nat) (cause : Nat) (x : Hart) : (State.afterTrap s hh cause x).pending = s.pending ∧ (State.afterTrap s hh cause x).flash = s.flash ∧ (State.afterTrap s hh cause x).coldOpt = s.coldOpt ∧ (State.afterTrap s hh cause x).mem = s.mem ∧ (State.afterTrap s hh cause x).mram = s.mram ∧ (State.afterTrap s hh cause x).imsic = s.imsic ∧ (State.afterTrap s hh cause x).eng = s.eng ∧ (State.afterTrap s hh cause x).dm = s.dm ∧ (State.afterTrap s hh cause x).fx = s.fx ∧ (State.afterTrap s hh cause x).ctu = s.ctu ∧ (State.afterTrap s hh cause x).links = s.links ∧ (State.afterTrap s hh cause x).aplicS = s.aplicS ∧ (State.afterTrap s hh cause x).aplicN = s.aplicN ∧ (State.afterTrap s hh cause x).credits = s.credits ∧ (State.afterTrap s hh cause x).clusters = s.clusters ∧ (State.afterTrap s hh cause x).homes = s.homes ∧ (State.afterTrap s hh cause x).pkts = s.pkts ∧ (State.afterTrap s hh cause x).resp = s.resp ∧ (State.afterTrap s hh cause x).regs = s.regs ∧ (State.afterTrap s hh cause x).wires = s.wires ∧ (State.afterTrap s hh cause x).dmg = s.dmg ∧ (State.afterTrap s hh cause x).wq = s.wq ∧ (State.afterTrap s hh cause x).net = s.net ∧ (State.afterTrap s hh cause x).dbInval = s.dbInval ∧ (State.afterTrap s hh cause x).watch = s.watch ∧ (State.afterTrap s hh cause x).pkg = s.pkg ∧ (State.afterTrap s hh cause x).pmc = s.pmc ∧ (State.afterTrap s hh cause x).fwLog = s.fwLog ∧ (State.afterTrap s hh cause x).out = s.out ∧ (State.afterTrap s hh cause x).free = s.free ∧ (State.afterTrap s hh cause x).fabric = s.fabric ∧ (State.afterTrap s hh cause x).files = s.files := by
  generalize h : State.afterTrap s hh cause x = u
  unfold State.afterTrap at h
  (try dsimp only at h); (repeat' split at h) <;> rw [← h] <;> simp [kept @State.trigFires_fr]

theorem State.except_fr (s : State) (hh : Nat) (cause : Nat) (tval : Nat) : (State.except s hh cause tval).pending = s.pending ∧ (State.except s hh cause tval).flash = s.flash ∧ (State.except s hh cause tval).coldOpt = s.coldOpt ∧ (State.except s hh cause tval).imsic = s.imsic ∧ (State.except s hh cause tval).eng = s.eng ∧ (State.except s hh cause tval).dm = s.dm ∧ (State.except s hh cause tval).fx = s.fx ∧ (State.except s hh cause tval).ctu = s.ctu ∧ (State.except s hh cause tval).links = s.links ∧ (State.except s hh cause tval).aplicS = s.aplicS ∧ (State.except s hh cause tval).aplicN = s.aplicN ∧ (State.except s hh cause tval).credits = s.credits ∧ (State.except s hh cause tval).pkts = s.pkts ∧ (State.except s hh cause tval).resp = s.resp ∧ (State.except s hh cause tval).out = s.out ∧ (State.except s hh cause tval).fabric = s.fabric ∧ (State.except s hh cause tval).files = s.files := by
  generalize h : State.except s hh cause tval = u
  unfold State.except at h
  rw [← h]; simp [kept @State.afterTrap_fr, kept @State.setHart_fr, kept @State.stepped_fr, kept @State.tagStep_fr, kept @State.trap_fr]

theorem State.exceptG_fr (s : State) (hh : Nat) (cause : Nat) (tval : Nat) (gpa : Nat) (walk : Bool) : (State.exceptG s hh cause tval gpa walk).pending = s.pending ∧ (State.exceptG s hh cause tval gpa walk).flash = s.flash ∧ (State.exceptG s hh cause tval gpa walk).coldOpt = s.coldOpt ∧ (State.exceptG s hh cause tval gpa walk).imsic = s.imsic ∧ (State.exceptG s hh cause tval gpa walk).eng = s.eng ∧ (State.exceptG s hh cause tval gpa walk).dm = s.dm ∧ (State.exceptG s hh cause tval gpa walk).fx = s.fx ∧ (State.exceptG s hh cause tval gpa walk).ctu = s.ctu ∧ (State.exceptG s hh cause tval gpa walk).links = s.links ∧ (State.exceptG s hh cause tval gpa walk).aplicS = s.aplicS ∧ (State.exceptG s hh cause tval gpa walk).aplicN = s.aplicN ∧ (State.exceptG s hh cause tval gpa walk).credits = s.credits ∧ (State.exceptG s hh cause tval gpa walk).pkts = s.pkts ∧ (State.exceptG s hh cause tval gpa walk).resp = s.resp ∧ (State.exceptG s hh cause tval gpa walk).out = s.out ∧ (State.exceptG s hh cause tval gpa walk).fabric = s.fabric ∧ (State.exceptG s hh cause tval gpa walk).files = s.files := by
  generalize h : State.exceptG s hh cause tval gpa walk = u
  unfold State.exceptG at h
  (try dsimp only at h); (repeat' split at h) <;> rw [← h] <;> simp [kept @State.afterTrap_fr, kept @State.setHart_fr, kept @State.stepped_fr, kept @State.tagStep_fr, kept @State.trapG_fr]

end Sys2Proof.Machine
end

