-- ==== Sys2Proof/Laws/Frame/ClusterOps.lean ====
section
/-! SUPPORT. What the operations of Machine/ClusterOps.lean leave unchanged. -/

set_option Elab.async false
set_option linter.all false

namespace Sys2Proof.Machine
open Sys2Proof

theorem State.installLine_fr (s : State) (c : Nat) (l : L2Line) : (State.installLine s c l).pending = s.pending ∧ (State.installLine s c l).flash = s.flash ∧ (State.installLine s c l).coldOpt = s.coldOpt ∧ (State.installLine s c l).mem = s.mem ∧ (State.installLine s c l).mram = s.mram ∧ (State.installLine s c l).imsic = s.imsic ∧ (State.installLine s c l).eng = s.eng ∧ (State.installLine s c l).dm = s.dm ∧ (State.installLine s c l).fx = s.fx ∧ (State.installLine s c l).ctu = s.ctu ∧ (State.installLine s c l).links = s.links ∧ (State.installLine s c l).aplicS = s.aplicS ∧ (State.installLine s c l).aplicN = s.aplicN ∧ (State.installLine s c l).credits = s.credits ∧ (State.installLine s c l).homes = s.homes ∧ (State.installLine s c l).pkts = s.pkts ∧ (State.installLine s c l).resp = s.resp ∧ (State.installLine s c l).regs = s.regs ∧ (State.installLine s c l).wires = s.wires ∧ (State.installLine s c l).dmg = s.dmg ∧ (State.installLine s c l).wq = s.wq ∧ (State.installLine s c l).dbInval = s.dbInval ∧ (State.installLine s c l).watch = s.watch ∧ (State.installLine s c l).pkg = s.pkg ∧ (State.installLine s c l).pmc = s.pmc ∧ (State.installLine s c l).fwLog = s.fwLog ∧ (State.installLine s c l).out = s.out ∧ (State.installLine s c l).free = s.free ∧ (State.installLine s c l).fabric = s.fabric ∧ (State.installLine s c l).files = s.files := by
  generalize h : State.installLine s c l = u
  unfold State.installLine at h
  (try dsimp only at h); (repeat' split at h) <;> rw [← h] <;> simp [kept @State.evictLine_fr, kept @State.setCluster_fr]

theorem State.finishAcc_fr (s : State) (w : Wait) : (State.finishAcc s w).pending = s.pending ∧ (State.finishAcc s w).flash = s.flash ∧ (State.finishAcc s w).coldOpt = s.coldOpt ∧ (State.finishAcc s w).imsic = s.imsic ∧ (State.finishAcc s w).eng = s.eng ∧ (State.finishAcc s w).dm = s.dm ∧ (State.finishAcc s w).fx = s.fx ∧ (State.finishAcc s w).ctu = s.ctu ∧ (State.finishAcc s w).links = s.links ∧ (State.finishAcc s w).aplicS = s.aplicS ∧ (State.finishAcc s w).aplicN = s.aplicN ∧ (State.finishAcc s w).credits = s.credits ∧ (State.finishAcc s w).pkts = s.pkts ∧ (State.finishAcc s w).resp = s.resp ∧ (State.finishAcc s w).out = s.out ∧ (State.finishAcc s w).fabric = s.fabric ∧ (State.finishAcc s w).files = s.files := by
  generalize h : State.finishAcc s w = u
  unfold State.finishAcc at h
  (try dsimp only at h); (repeat' split at h) <;> rw [← h] <;> simp [kept @State.retireAt_fr, kept @State.setHart_fr]

theorem State.abortAcc_fr (s : State) (w : Wait) (cause : Nat) : (State.abortAcc s w cause).pending = s.pending ∧ (State.abortAcc s w cause).flash = s.flash ∧ (State.abortAcc s w cause).coldOpt = s.coldOpt ∧ (State.abortAcc s w cause).imsic = s.imsic ∧ (State.abortAcc s w cause).eng = s.eng ∧ (State.abortAcc s w cause).dm = s.dm ∧ (State.abortAcc s w cause).fx = s.fx ∧ (State.abortAcc s w cause).ctu = s.ctu ∧ (State.abortAcc s w cause).links = s.links ∧ (State.abortAcc s w cause).aplicS = s.aplicS ∧ (State.abortAcc s w cause).aplicN = s.aplicN ∧ (State.abortAcc s w cause).credits = s.credits ∧ (State.abortAcc s w cause).pkts = s.pkts ∧ (State.abortAcc s w cause).resp = s.resp ∧ (State.abortAcc s w cause).out = s.out ∧ (State.abortAcc s w cause).fabric = s.fabric ∧ (State.abortAcc s w cause).files = s.files := by
  generalize h : State.abortAcc s w cause = u
  unfold State.abortAcc at h
  rw [← h]; simp [kept @State.except_fr, kept @State.setCluster_fr, kept @State.setHart_fr]

theorem State.l1Access_fr (s : State) (w : Wait) : (State.l1Access s w).pending = s.pending ∧ (State.l1Access s w).flash = s.flash ∧ (State.l1Access s w).coldOpt = s.coldOpt ∧ (State.l1Access s w).mem = s.mem ∧ (State.l1Access s w).harts = s.harts ∧ (State.l1Access s w).mram = s.mram ∧ (State.l1Access s w).imsic = s.imsic ∧ (State.l1Access s w).eng = s.eng ∧ (State.l1Access s w).dm = s.dm ∧ (State.l1Access s w).fx = s.fx ∧ (State.l1Access s w).ctu = s.ctu ∧ (State.l1Access s w).links = s.links ∧ (State.l1Access s w).aplicS = s.aplicS ∧ (State.l1Access s w).aplicN = s.aplicN ∧ (State.l1Access s w).credits = s.credits ∧ (State.l1Access s w).homes = s.homes ∧ (State.l1Access s w).pkts = s.pkts ∧ (State.l1Access s w).resp = s.resp ∧ (State.l1Access s w).regs = s.regs ∧ (State.l1Access s w).wires = s.wires ∧ (State.l1Access s w).dmg = s.dmg ∧ (State.l1Access s w).wq = s.wq ∧ (State.l1Access s w).net = s.net ∧ (State.l1Access s w).dbInval = s.dbInval ∧ (State.l1Access s w).watch = s.watch ∧ (State.l1Access s w).pkg = s.pkg ∧ (State.l1Access s w).pmc = s.pmc ∧ (State.l1Access s w).fwLog = s.fwLog ∧ (State.l1Access s w).out = s.out ∧ (State.l1Access s w).free = s.free ∧ (State.l1Access s w).fabric = s.fabric ∧ (State.l1Access s w).files = s.files := by
  generalize h : State.l1Access s w = u
  unfold State.l1Access at h
  (try dsimp only at h); (repeat' split at h) <;> rw [← h] <;> simp [kept @State.setCluster_fr]

theorem State.perform_fr (s : State) (w : Wait) (l : L2Line) (age : Nat) : (State.perform s w l age).2.pending = s.pending ∧ (State.perform s w l age).2.flash = s.flash ∧ (State.perform s w l age).2.coldOpt = s.coldOpt ∧ (State.perform s w l age).2.imsic = s.imsic ∧ (State.perform s w l age).2.eng = s.eng ∧ (State.perform s w l age).2.dm = s.dm ∧ (State.perform s w l age).2.fx = s.fx ∧ (State.perform s w l age).2.ctu = s.ctu ∧ (State.perform s w l age).2.links = s.links ∧ (State.perform s w l age).2.aplicS = s.aplicS ∧ (State.perform s w l age).2.aplicN = s.aplicN ∧ (State.perform s w l age).2.credits = s.credits ∧ (State.perform s w l age).2.pkts = s.pkts ∧ (State.perform s w l age).2.resp = s.resp ∧ (State.perform s w l age).2.out = s.out ∧ (State.perform s w l age).2.fabric = s.fabric ∧ (State.perform s w l age).2.files = s.files := by
  generalize h : (State.perform s w l age).2 = u
  unfold State.perform at h
  (try dsimp only at h); (repeat' split at h) <;> rw [← h] <;> simp [kept @State.abortAcc_fr, kept @State.breakResv_fr, kept @State.finishAcc_fr, kept @State.hev_fr, kept @State.l1Access_fr, kept @State.recordErr_fr, kept @State.setCluster_fr, kept @State.setHart_fr]

theorem State.putLine_fr (s : State) (c : Nat) (l : L2Line) : (State.putLine s c l).pending = s.pending ∧ (State.putLine s c l).flash = s.flash ∧ (State.putLine s c l).coldOpt = s.coldOpt ∧ (State.putLine s c l).mem = s.mem ∧ (State.putLine s c l).harts = s.harts ∧ (State.putLine s c l).mram = s.mram ∧ (State.putLine s c l).imsic = s.imsic ∧ (State.putLine s c l).eng = s.eng ∧ (State.putLine s c l).dm = s.dm ∧ (State.putLine s c l).fx = s.fx ∧ (State.putLine s c l).ctu = s.ctu ∧ (State.putLine s c l).links = s.links ∧ (State.putLine s c l).aplicS = s.aplicS ∧ (State.putLine s c l).aplicN = s.aplicN ∧ (State.putLine s c l).credits = s.credits ∧ (State.putLine s c l).homes = s.homes ∧ (State.putLine s c l).pkts = s.pkts ∧ (State.putLine s c l).resp = s.resp ∧ (State.putLine s c l).regs = s.regs ∧ (State.putLine s c l).wires = s.wires ∧ (State.putLine s c l).dmg = s.dmg ∧ (State.putLine s c l).wq = s.wq ∧ (State.putLine s c l).net = s.net ∧ (State.putLine s c l).dbInval = s.dbInval ∧ (State.putLine s c l).watch = s.watch ∧ (State.putLine s c l).pkg = s.pkg ∧ (State.putLine s c l).pmc = s.pmc ∧ (State.putLine s c l).fwLog = s.fwLog ∧ (State.putLine s c l).out = s.out ∧ (State.putLine s c l).free = s.free ∧ (State.putLine s c l).fabric = s.fabric ∧ (State.putLine s c l).files = s.files := by
  generalize h : State.putLine s c l = u
  unfold State.putLine at h
  (try dsimp only at h); (repeat' split at h) <;> rw [← h] <;> simp [kept @State.setCluster_fr]

theorem State.answerSnoop_fr (s : State) (c : Nat) (p : HeldSnp) : (State.answerSnoop s c p).pending = s.pending ∧ (State.answerSnoop s c p).flash = s.flash ∧ (State.answerSnoop s c p).coldOpt = s.coldOpt ∧ (State.answerSnoop s c p).mem = s.mem ∧ (State.answerSnoop s c p).mram = s.mram ∧ (State.answerSnoop s c p).imsic = s.imsic ∧ (State.answerSnoop s c p).eng = s.eng ∧ (State.answerSnoop s c p).dm = s.dm ∧ (State.answerSnoop s c p).fx = s.fx ∧ (State.answerSnoop s c p).ctu = s.ctu ∧ (State.answerSnoop s c p).links = s.links ∧ (State.answerSnoop s c p).aplicS = s.aplicS ∧ (State.answerSnoop s c p).aplicN = s.aplicN ∧ (State.answerSnoop s c p).credits = s.credits ∧ (State.answerSnoop s c p).homes = s.homes ∧ (State.answerSnoop s c p).pkts = s.pkts ∧ (State.answerSnoop s c p).resp = s.resp ∧ (State.answerSnoop s c p).regs = s.regs ∧ (State.answerSnoop s c p).wires = s.wires ∧ (State.answerSnoop s c p).dmg = s.dmg ∧ (State.answerSnoop s c p).wq = s.wq ∧ (State.answerSnoop s c p).dbInval = s.dbInval ∧ (State.answerSnoop s c p).watch = s.watch ∧ (State.answerSnoop s c p).pkg = s.pkg ∧ (State.answerSnoop s c p).pmc = s.pmc ∧ (State.answerSnoop s c p).fwLog = s.fwLog ∧ (State.answerSnoop s c p).out = s.out ∧ (State.answerSnoop s c p).free = s.free ∧ (State.answerSnoop s c p).fabric = s.fabric ∧ (State.answerSnoop s c p).files = s.files := by
  generalize h : State.answerSnoop s c p = u
  unfold State.answerSnoop at h
  (try dsimp only at h); (repeat' split at h) <;> rw [← h] <;> simp [kept @State.breakResv_fr, kept @State.hev_fr, kept @State.post_fr, kept @State.putLine_fr, kept @State.setCluster_fr]

theorem State.snoop_fr (s : State) (c : Nat) (p : HeldSnp) : (State.snoop s c p).pending = s.pending ∧ (State.snoop s c p).flash = s.flash ∧ (State.snoop s c p).coldOpt = s.coldOpt ∧ (State.snoop s c p).mem = s.mem ∧ (State.snoop s c p).mram = s.mram ∧ (State.snoop s c p).imsic = s.imsic ∧ (State.snoop s c p).eng = s.eng ∧ (State.snoop s c p).dm = s.dm ∧ (State.snoop s c p).fx = s.fx ∧ (State.snoop s c p).ctu = s.ctu ∧ (State.snoop s c p).links = s.links ∧ (State.snoop s c p).aplicS = s.aplicS ∧ (State.snoop s c p).aplicN = s.aplicN ∧ (State.snoop s c p).credits = s.credits ∧ (State.snoop s c p).homes = s.homes ∧ (State.snoop s c p).pkts = s.pkts ∧ (State.snoop s c p).resp = s.resp ∧ (State.snoop s c p).regs = s.regs ∧ (State.snoop s c p).wires = s.wires ∧ (State.snoop s c p).dmg = s.dmg ∧ (State.snoop s c p).wq = s.wq ∧ (State.snoop s c p).pkg = s.pkg ∧ (State.snoop s c p).pmc = s.pmc ∧ (State.snoop s c p).fwLog = s.fwLog ∧ (State.snoop s c p).out = s.out ∧ (State.snoop s c p).free = s.free ∧ (State.snoop s c p).fabric = s.fabric ∧ (State.snoop s c p).files = s.files := by
  generalize h : State.snoop s c p = u
  unfold State.snoop at h
  rw [← h]; simp [kept @State.answerSnoop_fr, kept @State.post_fr, kept @State.setCluster_fr, kept @State.watchInval_fr]

theorem State.freeHeld_fr (s : State) (c : Nat) : (State.freeHeld s c).pending = s.pending ∧ (State.freeHeld s c).flash = s.flash ∧ (State.freeHeld s c).coldOpt = s.coldOpt ∧ (State.freeHeld s c).mem = s.mem ∧ (State.freeHeld s c).mram = s.mram ∧ (State.freeHeld s c).imsic = s.imsic ∧ (State.freeHeld s c).eng = s.eng ∧ (State.freeHeld s c).dm = s.dm ∧ (State.freeHeld s c).fx = s.fx ∧ (State.freeHeld s c).ctu = s.ctu ∧ (State.freeHeld s c).links = s.links ∧ (State.freeHeld s c).aplicS = s.aplicS ∧ (State.freeHeld s c).aplicN = s.aplicN ∧ (State.freeHeld s c).credits = s.credits ∧ (State.freeHeld s c).homes = s.homes ∧ (State.freeHeld s c).pkts = s.pkts ∧ (State.freeHeld s c).resp = s.resp ∧ (State.freeHeld s c).regs = s.regs ∧ (State.freeHeld s c).wires = s.wires ∧ (State.freeHeld s c).dmg = s.dmg ∧ (State.freeHeld s c).wq = s.wq ∧ (State.freeHeld s c).dbInval = s.dbInval ∧ (State.freeHeld s c).watch = s.watch ∧ (State.freeHeld s c).pkg = s.pkg ∧ (State.freeHeld s c).pmc = s.pmc ∧ (State.freeHeld s c).fwLog = s.fwLog ∧ (State.freeHeld s c).out = s.out ∧ (State.freeHeld s c).free = s.free ∧ (State.freeHeld s c).fabric = s.fabric ∧ (State.freeHeld s c).files = s.files := by
  generalize h : State.freeHeld s c = u
  unfold State.freeHeld at h
  (try dsimp only at h); (repeat' split at h) <;> rw [← h] <;> simp [kept @State.answerSnoop_fr, kept @State.setCluster_fr]

theorem State.enqueue_fr (s : State) (c : Nat) (w : Wait) (haveS : Bool) : (State.enqueue s c w haveS).pending = s.pending ∧ (State.enqueue s c w haveS).flash = s.flash ∧ (State.enqueue s c w haveS).coldOpt = s.coldOpt ∧ (State.enqueue s c w haveS).mem = s.mem ∧ (State.enqueue s c w haveS).harts = s.harts ∧ (State.enqueue s c w haveS).mram = s.mram ∧ (State.enqueue s c w haveS).imsic = s.imsic ∧ (State.enqueue s c w haveS).eng = s.eng ∧ (State.enqueue s c w haveS).dm = s.dm ∧ (State.enqueue s c w haveS).fx = s.fx ∧ (State.enqueue s c w haveS).ctu = s.ctu ∧ (State.enqueue s c w haveS).links = s.links ∧ (State.enqueue s c w haveS).aplicS = s.aplicS ∧ (State.enqueue s c w haveS).aplicN = s.aplicN ∧ (State.enqueue s c w haveS).credits = s.credits ∧ (State.enqueue s c w haveS).homes = s.homes ∧ (State.enqueue s c w haveS).pkts = s.pkts ∧ (State.enqueue s c w haveS).resp = s.resp ∧ (State.enqueue s c w haveS).regs = s.regs ∧ (State.enqueue s c w haveS).wires = s.wires ∧ (State.enqueue s c w haveS).dmg = s.dmg ∧ (State.enqueue s c w haveS).wq = s.wq ∧ (State.enqueue s c w haveS).net = s.net ∧ (State.enqueue s c w haveS).dbInval = s.dbInval ∧ (State.enqueue s c w haveS).watch = s.watch ∧ (State.enqueue s c w haveS).pkg = s.pkg ∧ (State.enqueue s c w haveS).pmc = s.pmc ∧ (State.enqueue s c w haveS).fwLog = s.fwLog ∧ (State.enqueue s c w haveS).out = s.out ∧ (State.enqueue s c w haveS).free = s.free ∧ (State.enqueue s c w haveS).fabric = s.fabric ∧ (State.enqueue s c w haveS).files = s.files := by
  generalize h : State.enqueue s c w haveS = u
  unfold State.enqueue at h
  (try dsimp only at h); (repeat' split at h) <;> rw [← h] <;> simp [kept @State.setCluster_fr]

theorem State.askMore_fr (s : State) (c : Nat) : (State.askMore s c).pending = s.pending ∧ (State.askMore s c).flash = s.flash ∧ (State.askMore s c).coldOpt = s.coldOpt ∧ (State.askMore s c).mem = s.mem ∧ (State.askMore s c).harts = s.harts ∧ (State.askMore s c).mram = s.mram ∧ (State.askMore s c).imsic = s.imsic ∧ (State.askMore s c).eng = s.eng ∧ (State.askMore s c).dm = s.dm ∧ (State.askMore s c).fx = s.fx ∧ (State.askMore s c).ctu = s.ctu ∧ (State.askMore s c).links = s.links ∧ (State.askMore s c).aplicS = s.aplicS ∧ (State.askMore s c).aplicN = s.aplicN ∧ (State.askMore s c).credits = s.credits ∧ (State.askMore s c).homes = s.homes ∧ (State.askMore s c).pkts = s.pkts ∧ (State.askMore s c).resp = s.resp ∧ (State.askMore s c).regs = s.regs ∧ (State.askMore s c).wires = s.wires ∧ (State.askMore s c).dmg = s.dmg ∧ (State.askMore s c).wq = s.wq ∧ (State.askMore s c).net = s.net ∧ (State.askMore s c).dbInval = s.dbInval ∧ (State.askMore s c).watch = s.watch ∧ (State.askMore s c).pkg = s.pkg ∧ (State.askMore s c).pmc = s.pmc ∧ (State.askMore s c).fwLog = s.fwLog ∧ (State.askMore s c).out = s.out ∧ (State.askMore s c).free = s.free ∧ (State.askMore s c).fabric = s.fabric ∧ (State.askMore s c).files = s.files := by
  generalize h : State.askMore s c = u
  unfold State.askMore at h
  (try dsimp only at h); (repeat' split at h) <;> rw [← h] <;> simp [kept @State.setCluster_fr]

theorem State.trainStream_fr (s : State) (c : Nat) (w : Wait) : (State.trainStream s c w).pending = s.pending ∧ (State.trainStream s c w).flash = s.flash ∧ (State.trainStream s c w).coldOpt = s.coldOpt ∧ (State.trainStream s c w).mem = s.mem ∧ (State.trainStream s c w).harts = s.harts ∧ (State.trainStream s c w).mram = s.mram ∧ (State.trainStream s c w).imsic = s.imsic ∧ (State.trainStream s c w).eng = s.eng ∧ (State.trainStream s c w).dm = s.dm ∧ (State.trainStream s c w).fx = s.fx ∧ (State.trainStream s c w).ctu = s.ctu ∧ (State.trainStream s c w).links = s.links ∧ (State.trainStream s c w).aplicS = s.aplicS ∧ (State.trainStream s c w).aplicN = s.aplicN ∧ (State.trainStream s c w).credits = s.credits ∧ (State.trainStream s c w).homes = s.homes ∧ (State.trainStream s c w).pkts = s.pkts ∧ (State.trainStream s c w).resp = s.resp ∧ (State.trainStream s c w).regs = s.regs ∧ (State.trainStream s c w).wires = s.wires ∧ (State.trainStream s c w).dmg = s.dmg ∧ (State.trainStream s c w).wq = s.wq ∧ (State.trainStream s c w).net = s.net ∧ (State.trainStream s c w).dbInval = s.dbInval ∧ (State.trainStream s c w).watch = s.watch ∧ (State.trainStream s c w).pkg = s.pkg ∧ (State.trainStream s c w).pmc = s.pmc ∧ (State.trainStream s c w).fwLog = s.fwLog ∧ (State.trainStream s c w).out = s.out ∧ (State.trainStream s c w).free = s.free ∧ (State.trainStream s c w).fabric = s.fabric ∧ (State.trainStream s c w).files = s.files := by
  generalize h : State.trainStream s c w = u
  unfold State.trainStream at h
  (try dsimp only at h); (repeat' split at h) <;> rw [← h] <;> simp [kept @State.setCluster_fr]

theorem State.trainNext_fr (s : State) (w : Wait) : (State.trainNext s w).pending = s.pending ∧ (State.trainNext s w).flash = s.flash ∧ (State.trainNext s w).coldOpt = s.coldOpt ∧ (State.trainNext s w).mem = s.mem ∧ (State.trainNext s w).harts = s.harts ∧ (State.trainNext s w).mram = s.mram ∧ (State.trainNext s w).imsic = s.imsic ∧ (State.trainNext s w).eng = s.eng ∧ (State.trainNext s w).dm = s.dm ∧ (State.trainNext s w).fx = s.fx ∧ (State.trainNext s w).ctu = s.ctu ∧ (State.trainNext s w).links = s.links ∧ (State.trainNext s w).aplicS = s.aplicS ∧ (State.trainNext s w).aplicN = s.aplicN ∧ (State.trainNext s w).credits = s.credits ∧ (State.trainNext s w).homes = s.homes ∧ (State.trainNext s w).pkts = s.pkts ∧ (State.trainNext s w).resp = s.resp ∧ (State.trainNext s w).regs = s.regs ∧ (State.trainNext s w).wires = s.wires ∧ (State.trainNext s w).dmg = s.dmg ∧ (State.trainNext s w).wq = s.wq ∧ (State.trainNext s w).net = s.net ∧ (State.trainNext s w).dbInval = s.dbInval ∧ (State.trainNext s w).watch = s.watch ∧ (State.trainNext s w).pkg = s.pkg ∧ (State.trainNext s w).pmc = s.pmc ∧ (State.trainNext s w).fwLog = s.fwLog ∧ (State.trainNext s w).out = s.out ∧ (State.trainNext s w).free = s.free ∧ (State.trainNext s w).fabric = s.fabric ∧ (State.trainNext s w).files = s.files := by
  generalize h : State.trainNext s w = u
  unfold State.trainNext at h
  (try dsimp only at h); (repeat' split at h) <;> rw [← h] <;> simp [kept @State.setCluster_fr]

theorem State.access_fr (s : State) (w : Wait) : (State.access s w).pending = s.pending ∧ (State.access s w).flash = s.flash ∧ (State.access s w).coldOpt = s.coldOpt ∧ (State.access s w).imsic = s.imsic ∧ (State.access s w).eng = s.eng ∧ (State.access s w).dm = s.dm ∧ (State.access s w).fx = s.fx ∧ (State.access s w).ctu = s.ctu ∧ (State.access s w).links = s.links ∧ (State.access s w).aplicS = s.aplicS ∧ (State.access s w).aplicN = s.aplicN ∧ (State.access s w).credits = s.credits ∧ (State.access s w).pkts = s.pkts ∧ (State.access s w).resp = s.resp ∧ (State.access s w).out = s.out ∧ (State.access s w).fabric = s.fabric ∧ (State.access s w).files = s.files := by
  generalize h : State.access s w = u
  unfold State.access at h
  (try dsimp only at h); (repeat' split at h) <;> rw [← h] <;> simp [kept @State.enqueue_fr, kept @State.evictLine_fr, kept @State.freeHeld_fr, kept @State.hev_fr, kept @State.perform_fr, kept @State.putLine_fr, kept @State.trainNext_fr, kept @State.trainStream_fr]

theorem State.performOldest_fr (s : State) (c : Nat) (ln : Nat) (fill : Bool) : (State.performOldest s c ln fill).pending = s.pending ∧ (State.performOldest s c ln fill).flash = s.flash ∧ (State.performOldest s c ln fill).coldOpt = s.coldOpt ∧ (State.performOldest s c ln fill).imsic = s.imsic ∧ (State.performOldest s c ln fill).eng = s.eng ∧ (State.performOldest s c ln fill).dm = s.dm ∧ (State.performOldest s c ln fill).fx = s.fx ∧ (State.performOldest s c ln fill).ctu = s.ctu ∧ (State.performOldest s c ln fill).links = s.links ∧ (State.performOldest s c ln fill).aplicS = s.aplicS ∧ (State.performOldest s c ln fill).aplicN = s.aplicN ∧ (State.performOldest s c ln fill).credits = s.credits ∧ (State.performOldest s c ln fill).pkts = s.pkts ∧ (State.performOldest s c ln fill).resp = s.resp ∧ (State.performOldest s c ln fill).out = s.out ∧ (State.performOldest s c ln fill).fabric = s.fabric ∧ (State.performOldest s c ln fill).files = s.files := by
  generalize h : State.performOldest s c ln fill = u
  unfold State.performOldest at h
  (try dsimp only at h); (repeat' split at h) <;> rw [← h] <;> simp [kept @State.perform_fr, kept @State.putLine_fr, kept @State.setCluster_fr]

theorem State.retryWaits_fr (s : State) (c : Nat) (ln : Nat) : (State.retryWaits s c ln).pending = s.pending ∧ (State.retryWaits s c ln).flash = s.flash ∧ (State.retryWaits s c ln).coldOpt = s.coldOpt ∧ (State.retryWaits s c ln).imsic = s.imsic ∧ (State.retryWaits s c ln).eng = s.eng ∧ (State.retryWaits s c ln).dm = s.dm ∧ (State.retryWaits s c ln).fx = s.fx ∧ (State.retryWaits s c ln).ctu = s.ctu ∧ (State.retryWaits s c ln).links = s.links ∧ (State.retryWaits s c ln).aplicS = s.aplicS ∧ (State.retryWaits s c ln).aplicN = s.aplicN ∧ (State.retryWaits s c ln).credits = s.credits ∧ (State.retryWaits s c ln).pkts = s.pkts ∧ (State.retryWaits s c ln).resp = s.resp ∧ (State.retryWaits s c ln).out = s.out ∧ (State.retryWaits s c ln).fabric = s.fabric ∧ (State.retryWaits s c ln).files = s.files := by
  generalize h : State.retryWaits s c ln = u
  unfold State.retryWaits at h
  rw [← h]; simp [kept @State.access_fr, kept @State.setCluster_fr]

theorem State.granted_fr (s : State) (c : Nat) (ln : Nat) (g : Grant) (d : LineData) (who : Ident) (fill : Bool) : (State.granted s c ln g d who fill).pending = s.pending ∧ (State.granted s c ln g d who fill).flash = s.flash ∧ (State.granted s c ln g d who fill).coldOpt = s.coldOpt ∧ (State.granted s c ln g d who fill).imsic = s.imsic ∧ (State.granted s c ln g d who fill).eng = s.eng ∧ (State.granted s c ln g d who fill).dm = s.dm ∧ (State.granted s c ln g d who fill).fx = s.fx ∧ (State.granted s c ln g d who fill).ctu = s.ctu ∧ (State.granted s c ln g d who fill).links = s.links ∧ (State.granted s c ln g d who fill).aplicS = s.aplicS ∧ (State.granted s c ln g d who fill).aplicN = s.aplicN ∧ (State.granted s c ln g d who fill).credits = s.credits ∧ (State.granted s c ln g d who fill).pkts = s.pkts ∧ (State.granted s c ln g d who fill).resp = s.resp ∧ (State.granted s c ln g d who fill).out = s.out ∧ (State.granted s c ln g d who fill).fabric = s.fabric ∧ (State.granted s c ln g d who fill).files = s.files := by
  generalize h : State.granted s c ln g d who fill = u
  unfold State.granted at h
  (try dsimp only at h); (repeat' split at h) <;> rw [← h] <;> simp [kept @State.askMore_fr, kept @State.freeHeld_fr, kept @State.installLine_fr, kept @State.performOldest_fr, kept @State.retryWaits_fr, kept @State.setCluster_fr]

end Sys2Proof.Machine
end

