-- ==== Sys2Proof/Laws/Frame/FxOps.lean ====
section
/-! SUPPORT. What the operations of Machine/FxOps.lean leave unchanged. -/

set_option Elab.async false
set_option linter.all false

namespace Sys2Proof.Machine
open Sys2Proof

theorem State.setPort_fr (s : State) (p : Nat) (x : FxPort) : (State.setPort s p x).pending = s.pending ∧ (State.setPort s p x).flash = s.flash ∧ (State.setPort s p x).coldOpt = s.coldOpt ∧ (State.setPort s p x).mem = s.mem ∧ (State.setPort s p x).harts = s.harts ∧ (State.setPort s p x).mram = s.mram ∧ (State.setPort s p x).imsic = s.imsic ∧ (State.setPort s p x).eng = s.eng ∧ (State.setPort s p x).dm = s.dm ∧ (State.setPort s p x).ctu = s.ctu ∧ (State.setPort s p x).links = s.links ∧ (State.setPort s p x).aplicS = s.aplicS ∧ (State.setPort s p x).aplicN = s.aplicN ∧ (State.setPort s p x).credits = s.credits ∧ (State.setPort s p x).clusters = s.clusters ∧ (State.setPort s p x).homes = s.homes ∧ (State.setPort s p x).pkts = s.pkts ∧ (State.setPort s p x).resp = s.resp ∧ (State.setPort s p x).regs = s.regs ∧ (State.setPort s p x).wires = s.wires ∧ (State.setPort s p x).dmg = s.dmg ∧ (State.setPort s p x).wq = s.wq ∧ (State.setPort s p x).net = s.net ∧ (State.setPort s p x).dbInval = s.dbInval ∧ (State.setPort s p x).watch = s.watch ∧ (State.setPort s p x).pkg = s.pkg ∧ (State.setPort s p x).pmc = s.pmc ∧ (State.setPort s p x).fwLog = s.fwLog ∧ (State.setPort s p x).out = s.out ∧ (State.setPort s p x).free = s.free ∧ (State.setPort s p x).fabric = s.fabric ∧ (State.setPort s p x).files = s.files := by
  generalize h : State.setPort s p x = u
  unfold State.setPort at h
  rw [← h]; simp

theorem State.pmcFx_fr (s : State) (p : Nat) (k : Nat) (n : Nat) : (State.pmcFx s p k n).pending = s.pending ∧ (State.pmcFx s p k n).flash = s.flash ∧ (State.pmcFx s p k n).coldOpt = s.coldOpt ∧ (State.pmcFx s p k n).mem = s.mem ∧ (State.pmcFx s p k n).harts = s.harts ∧ (State.pmcFx s p k n).mram = s.mram ∧ (State.pmcFx s p k n).imsic = s.imsic ∧ (State.pmcFx s p k n).eng = s.eng ∧ (State.pmcFx s p k n).dm = s.dm ∧ (State.pmcFx s p k n).fx = s.fx ∧ (State.pmcFx s p k n).ctu = s.ctu ∧ (State.pmcFx s p k n).links = s.links ∧ (State.pmcFx s p k n).aplicS = s.aplicS ∧ (State.pmcFx s p k n).aplicN = s.aplicN ∧ (State.pmcFx s p k n).credits = s.credits ∧ (State.pmcFx s p k n).clusters = s.clusters ∧ (State.pmcFx s p k n).homes = s.homes ∧ (State.pmcFx s p k n).pkts = s.pkts ∧ (State.pmcFx s p k n).resp = s.resp ∧ (State.pmcFx s p k n).wires = s.wires ∧ (State.pmcFx s p k n).dmg = s.dmg ∧ (State.pmcFx s p k n).wq = s.wq ∧ (State.pmcFx s p k n).net = s.net ∧ (State.pmcFx s p k n).dbInval = s.dbInval ∧ (State.pmcFx s p k n).watch = s.watch ∧ (State.pmcFx s p k n).pkg = s.pkg ∧ (State.pmcFx s p k n).pmc = s.pmc ∧ (State.pmcFx s p k n).fwLog = s.fwLog ∧ (State.pmcFx s p k n).out = s.out ∧ (State.pmcFx s p k n).free = s.free ∧ (State.pmcFx s p k n).fabric = s.fabric ∧ (State.pmcFx s p k n).files = s.files := by
  generalize h : State.pmcFx s p k n = u
  unfold State.pmcFx at h
  rw [← h]; simp [kept @State.pmcAdd_fr]

theorem State.fxLine_fr (s : State) (p : Nat) (b : List Byte) : (State.fxLine s p b).pending = s.pending ∧ (State.fxLine s p b).flash = s.flash ∧ (State.fxLine s p b).coldOpt = s.coldOpt ∧ (State.fxLine s p b).mem = s.mem ∧ (State.fxLine s p b).harts = s.harts ∧ (State.fxLine s p b).mram = s.mram ∧ (State.fxLine s p b).imsic = s.imsic ∧ (State.fxLine s p b).eng = s.eng ∧ (State.fxLine s p b).dm = s.dm ∧ (State.fxLine s p b).ctu = s.ctu ∧ (State.fxLine s p b).links = s.links ∧ (State.fxLine s p b).aplicS = s.aplicS ∧ (State.fxLine s p b).aplicN = s.aplicN ∧ (State.fxLine s p b).credits = s.credits ∧ (State.fxLine s p b).clusters = s.clusters ∧ (State.fxLine s p b).homes = s.homes ∧ (State.fxLine s p b).pkts = s.pkts ∧ (State.fxLine s p b).resp = s.resp ∧ (State.fxLine s p b).regs = s.regs ∧ (State.fxLine s p b).wires = s.wires ∧ (State.fxLine s p b).dmg = s.dmg ∧ (State.fxLine s p b).wq = s.wq ∧ (State.fxLine s p b).net = s.net ∧ (State.fxLine s p b).dbInval = s.dbInval ∧ (State.fxLine s p b).watch = s.watch ∧ (State.fxLine s p b).pkg = s.pkg ∧ (State.fxLine s p b).pmc = s.pmc ∧ (State.fxLine s p b).fwLog = s.fwLog ∧ (State.fxLine s p b).free = s.free ∧ (State.fxLine s p b).fabric = s.fabric ∧ (State.fxLine s p b).files = s.files := by
  generalize h : State.fxLine s p b = u
  unfold State.fxLine at h
  (try dsimp only at h); (repeat' split at h) <;> rw [← h] <;> simp [kept @State.send_fr, kept @State.setPort_fr]

theorem State.fxPut_fr (s : State) (p : Nat) (seq : Nat) (f : FxFlit) : (State.fxPut s p seq f).pending = s.pending ∧ (State.fxPut s p seq f).flash = s.flash ∧ (State.fxPut s p seq f).coldOpt = s.coldOpt ∧ (State.fxPut s p seq f).mem = s.mem ∧ (State.fxPut s p seq f).harts = s.harts ∧ (State.fxPut s p seq f).mram = s.mram ∧ (State.fxPut s p seq f).imsic = s.imsic ∧ (State.fxPut s p seq f).eng = s.eng ∧ (State.fxPut s p seq f).dm = s.dm ∧ (State.fxPut s p seq f).ctu = s.ctu ∧ (State.fxPut s p seq f).links = s.links ∧ (State.fxPut s p seq f).aplicS = s.aplicS ∧ (State.fxPut s p seq f).aplicN = s.aplicN ∧ (State.fxPut s p seq f).credits = s.credits ∧ (State.fxPut s p seq f).clusters = s.clusters ∧ (State.fxPut s p seq f).homes = s.homes ∧ (State.fxPut s p seq f).pkts = s.pkts ∧ (State.fxPut s p seq f).resp = s.resp ∧ (State.fxPut s p seq f).regs = s.regs ∧ (State.fxPut s p seq f).wires = s.wires ∧ (State.fxPut s p seq f).dmg = s.dmg ∧ (State.fxPut s p seq f).wq = s.wq ∧ (State.fxPut s p seq f).net = s.net ∧ (State.fxPut s p seq f).dbInval = s.dbInval ∧ (State.fxPut s p seq f).watch = s.watch ∧ (State.fxPut s p seq f).pkg = s.pkg ∧ (State.fxPut s p seq f).pmc = s.pmc ∧ (State.fxPut s p seq f).fwLog = s.fwLog ∧ (State.fxPut s p seq f).free = s.free ∧ (State.fxPut s p seq f).fabric = s.fabric ∧ (State.fxPut s p seq f).files = s.files := by
  generalize h : State.fxPut s p seq f = u
  unfold State.fxPut at h
  (try dsimp only at h); (repeat' split at h) <;> rw [← h] <;> simp [kept @State.fxLine_fr, kept @State.setPort_fr]

theorem State.fxSendOne_fr (s : State) (p : Nat) {u : State} (h : State.fxSendOne s p = some u) : u.pending = s.pending ∧ u.flash = s.flash ∧ u.coldOpt = s.coldOpt ∧ u.mem = s.mem ∧ u.harts = s.harts ∧ u.mram = s.mram ∧ u.imsic = s.imsic ∧ u.eng = s.eng ∧ u.dm = s.dm ∧ u.ctu = s.ctu ∧ u.links = s.links ∧ u.aplicS = s.aplicS ∧ u.aplicN = s.aplicN ∧ u.credits = s.credits ∧ u.clusters = s.clusters ∧ u.homes = s.homes ∧ u.pkts = s.pkts ∧ u.resp = s.resp ∧ u.wires = s.wires ∧ u.dmg = s.dmg ∧ u.wq = s.wq ∧ u.net = s.net ∧ u.dbInval = s.dbInval ∧ u.watch = s.watch ∧ u.pkg = s.pkg ∧ u.pmc = s.pmc ∧ u.fwLog = s.fwLog ∧ u.free = s.free ∧ u.fabric = s.fabric ∧ u.files = s.files := by
  unfold State.fxSendOne at h
  (try dsimp only at h); (repeat' split at h) <;> (first | (simp only [Host.Outcome.next.injEq] at h; rw [← h]) | (simp only [reduceCtorEq] at h; done) | (simp only [Option.some.injEq] at h; rw [← h])) <;> simp [kept @State.fxPut_fr, kept @State.pmcFx_fr, kept @State.setPort_fr]

theorem State.fxSendOne_getD (s : State) (p : Nat) : ((State.fxSendOne s p).getD s).pending = s.pending ∧ ((State.fxSendOne s p).getD s).flash = s.flash ∧ ((State.fxSendOne s p).getD s).coldOpt = s.coldOpt ∧ ((State.fxSendOne s p).getD s).mem = s.mem ∧ ((State.fxSendOne s p).getD s).harts = s.harts ∧ ((State.fxSendOne s p).getD s).mram = s.mram ∧ ((State.fxSendOne s p).getD s).imsic = s.imsic ∧ ((State.fxSendOne s p).getD s).eng = s.eng ∧ ((State.fxSendOne s p).getD s).dm = s.dm ∧ ((State.fxSendOne s p).getD s).ctu = s.ctu ∧ ((State.fxSendOne s p).getD s).links = s.links ∧ ((State.fxSendOne s p).getD s).aplicS = s.aplicS ∧ ((State.fxSendOne s p).getD s).aplicN = s.aplicN ∧ ((State.fxSendOne s p).getD s).credits = s.credits ∧ ((State.fxSendOne s p).getD s).clusters = s.clusters ∧ ((State.fxSendOne s p).getD s).homes = s.homes ∧ ((State.fxSendOne s p).getD s).pkts = s.pkts ∧ ((State.fxSendOne s p).getD s).resp = s.resp ∧ ((State.fxSendOne s p).getD s).wires = s.wires ∧ ((State.fxSendOne s p).getD s).dmg = s.dmg ∧ ((State.fxSendOne s p).getD s).wq = s.wq ∧ ((State.fxSendOne s p).getD s).net = s.net ∧ ((State.fxSendOne s p).getD s).dbInval = s.dbInval ∧ ((State.fxSendOne s p).getD s).watch = s.watch ∧ ((State.fxSendOne s p).getD s).pkg = s.pkg ∧ ((State.fxSendOne s p).getD s).pmc = s.pmc ∧ ((State.fxSendOne s p).getD s).fwLog = s.fwLog ∧ ((State.fxSendOne s p).getD s).free = s.free ∧ ((State.fxSendOne s p).getD s).fabric = s.fabric ∧ ((State.fxSendOne s p).getD s).files = s.files := by
  cases h : State.fxSendOne s p with
  | none => simp
  | some u => simpa using State.fxSendOne_fr s p h

theorem State.fxPump_fr (s : State) (p : Nat) : (State.fxPump s p).pending = s.pending ∧ (State.fxPump s p).flash = s.flash ∧ (State.fxPump s p).coldOpt = s.coldOpt ∧ (State.fxPump s p).mem = s.mem ∧ (State.fxPump s p).harts = s.harts ∧ (State.fxPump s p).mram = s.mram ∧ (State.fxPump s p).imsic = s.imsic ∧ (State.fxPump s p).eng = s.eng ∧ (State.fxPump s p).dm = s.dm ∧ (State.fxPump s p).ctu = s.ctu ∧ (State.fxPump s p).links = s.links ∧ (State.fxPump s p).aplicS = s.aplicS ∧ (State.fxPump s p).aplicN = s.aplicN ∧ (State.fxPump s p).credits = s.credits ∧ (State.fxPump s p).clusters = s.clusters ∧ (State.fxPump s p).homes = s.homes ∧ (State.fxPump s p).pkts = s.pkts ∧ (State.fxPump s p).resp = s.resp ∧ (State.fxPump s p).wires = s.wires ∧ (State.fxPump s p).dmg = s.dmg ∧ (State.fxPump s p).wq = s.wq ∧ (State.fxPump s p).net = s.net ∧ (State.fxPump s p).dbInval = s.dbInval ∧ (State.fxPump s p).watch = s.watch ∧ (State.fxPump s p).pkg = s.pkg ∧ (State.fxPump s p).pmc = s.pmc ∧ (State.fxPump s p).fwLog = s.fwLog ∧ (State.fxPump s p).free = s.free ∧ (State.fxPump s p).fabric = s.fabric ∧ (State.fxPump s p).files = s.files := by
  generalize h : State.fxPump s p = u
  unfold State.fxPump at h
  rw [← h]; simp [kept @State.fxSendOne_getD, kept @State.fxSendOne_fr]

theorem State.fxSendCtl_fr (s : State) (p : Nat) (kind : Nat) (ack : Nat) : (State.fxSendCtl s p kind ack).pending = s.pending ∧ (State.fxSendCtl s p kind ack).flash = s.flash ∧ (State.fxSendCtl s p kind ack).coldOpt = s.coldOpt ∧ (State.fxSendCtl s p kind ack).mem = s.mem ∧ (State.fxSendCtl s p kind ack).harts = s.harts ∧ (State.fxSendCtl s p kind ack).mram = s.mram ∧ (State.fxSendCtl s p kind ack).imsic = s.imsic ∧ (State.fxSendCtl s p kind ack).eng = s.eng ∧ (State.fxSendCtl s p kind ack).dm = s.dm ∧ (State.fxSendCtl s p kind ack).ctu = s.ctu ∧ (State.fxSendCtl s p kind ack).links = s.links ∧ (State.fxSendCtl s p kind ack).aplicS = s.aplicS ∧ (State.fxSendCtl s p kind ack).aplicN = s.aplicN ∧ (State.fxSendCtl s p kind ack).credits = s.credits ∧ (State.fxSendCtl s p kind ack).clusters = s.clusters ∧ (State.fxSendCtl s p kind ack).homes = s.homes ∧ (State.fxSendCtl s p kind ack).pkts = s.pkts ∧ (State.fxSendCtl s p kind ack).resp = s.resp ∧ (State.fxSendCtl s p kind ack).regs = s.regs ∧ (State.fxSendCtl s p kind ack).wires = s.wires ∧ (State.fxSendCtl s p kind ack).dmg = s.dmg ∧ (State.fxSendCtl s p kind ack).wq = s.wq ∧ (State.fxSendCtl s p kind ack).net = s.net ∧ (State.fxSendCtl s p kind ack).dbInval = s.dbInval ∧ (State.fxSendCtl s p kind ack).watch = s.watch ∧ (State.fxSendCtl s p kind ack).pkg = s.pkg ∧ (State.fxSendCtl s p kind ack).pmc = s.pmc ∧ (State.fxSendCtl s p kind ack).fwLog = s.fwLog ∧ (State.fxSendCtl s p kind ack).free = s.free ∧ (State.fxSendCtl s p kind ack).fabric = s.fabric ∧ (State.fxSendCtl s p kind ack).files = s.files := by
  generalize h : State.fxSendCtl s p kind ack = u
  unfold State.fxSendCtl at h
  rw [← h]; simp [kept @State.fxLine_fr, kept @State.setPort_fr]

theorem State.fxActive_fr (s : State) (p : Nat) : (State.fxActive s p).pending = s.pending ∧ (State.fxActive s p).flash = s.flash ∧ (State.fxActive s p).coldOpt = s.coldOpt ∧ (State.fxActive s p).mem = s.mem ∧ (State.fxActive s p).harts = s.harts ∧ (State.fxActive s p).mram = s.mram ∧ (State.fxActive s p).imsic = s.imsic ∧ (State.fxActive s p).eng = s.eng ∧ (State.fxActive s p).dm = s.dm ∧ (State.fxActive s p).ctu = s.ctu ∧ (State.fxActive s p).links = s.links ∧ (State.fxActive s p).aplicS = s.aplicS ∧ (State.fxActive s p).aplicN = s.aplicN ∧ (State.fxActive s p).credits = s.credits ∧ (State.fxActive s p).clusters = s.clusters ∧ (State.fxActive s p).homes = s.homes ∧ (State.fxActive s p).pkts = s.pkts ∧ (State.fxActive s p).resp = s.resp ∧ (State.fxActive s p).wires = s.wires ∧ (State.fxActive s p).dmg = s.dmg ∧ (State.fxActive s p).wq = s.wq ∧ (State.fxActive s p).net = s.net ∧ (State.fxActive s p).dbInval = s.dbInval ∧ (State.fxActive s p).watch = s.watch ∧ (State.fxActive s p).pkg = s.pkg ∧ (State.fxActive s p).pmc = s.pmc ∧ (State.fxActive s p).fwLog = s.fwLog ∧ (State.fxActive s p).out = s.out ∧ (State.fxActive s p).free = s.free ∧ (State.fxActive s p).fabric = s.fabric ∧ (State.fxActive s p).files = s.files := by
  generalize h : State.fxActive s p = u
  unfold State.fxActive at h
  (try dsimp only at h); (repeat' split at h) <;> rw [← h] <;> simp [kept @State.setPort_fr, kept @State.wr_fr]

theorem State.fxSlot_fr (s : State) (p : Nat) : (State.fxSlot s p).pending = s.pending ∧ (State.fxSlot s p).flash = s.flash ∧ (State.fxSlot s p).coldOpt = s.coldOpt ∧ (State.fxSlot s p).mem = s.mem ∧ (State.fxSlot s p).harts = s.harts ∧ (State.fxSlot s p).mram = s.mram ∧ (State.fxSlot s p).imsic = s.imsic ∧ (State.fxSlot s p).eng = s.eng ∧ (State.fxSlot s p).dm = s.dm ∧ (State.fxSlot s p).ctu = s.ctu ∧ (State.fxSlot s p).links = s.links ∧ (State.fxSlot s p).aplicS = s.aplicS ∧ (State.fxSlot s p).aplicN = s.aplicN ∧ (State.fxSlot s p).credits = s.credits ∧ (State.fxSlot s p).clusters = s.clusters ∧ (State.fxSlot s p).homes = s.homes ∧ (State.fxSlot s p).pkts = s.pkts ∧ (State.fxSlot s p).resp = s.resp ∧ (State.fxSlot s p).wires = s.wires ∧ (State.fxSlot s p).dmg = s.dmg ∧ (State.fxSlot s p).wq = s.wq ∧ (State.fxSlot s p).net = s.net ∧ (State.fxSlot s p).dbInval = s.dbInval ∧ (State.fxSlot s p).watch = s.watch ∧ (State.fxSlot s p).pkg = s.pkg ∧ (State.fxSlot s p).pmc = s.pmc ∧ (State.fxSlot s p).fwLog = s.fwLog ∧ (State.fxSlot s p).free = s.free ∧ (State.fxSlot s p).fabric = s.fabric ∧ (State.fxSlot s p).files = s.files := by
  generalize h : State.fxSlot s p = u
  unfold State.fxSlot at h
  dsimp only at h
  split at h
  · rw [← h]; simp
  · generalize hv : State.setPort s p _ = v at h
    cases e : State.fxSendOne v p with
    | none => rw [e, Option.getD_none] at h; rw [← h, ← hv]; simp [kept @State.fxSendCtl_fr, kept @State.fxSendOne_fr, kept @State.setPort_fr]
    | some w => rw [e, Option.getD_some] at h; rw [← h]; have hw := State.fxSendOne_fr _ _ e; simp only [hw]; rw [← hv]; simp [kept @State.fxSendCtl_fr, kept @State.fxSendOne_fr, kept @State.setPort_fr]

theorem State.flitSlot_fr (s : State) : (State.flitSlot s).pending = s.pending ∧ (State.flitSlot s).flash = s.flash ∧ (State.flitSlot s).coldOpt = s.coldOpt ∧ (State.flitSlot s).mem = s.mem ∧ (State.flitSlot s).harts = s.harts ∧ (State.flitSlot s).mram = s.mram ∧ (State.flitSlot s).imsic = s.imsic ∧ (State.flitSlot s).eng = s.eng ∧ (State.flitSlot s).dm = s.dm ∧ (State.flitSlot s).ctu = s.ctu ∧ (State.flitSlot s).links = s.links ∧ (State.flitSlot s).aplicS = s.aplicS ∧ (State.flitSlot s).aplicN = s.aplicN ∧ (State.flitSlot s).credits = s.credits ∧ (State.flitSlot s).clusters = s.clusters ∧ (State.flitSlot s).homes = s.homes ∧ (State.flitSlot s).pkts = s.pkts ∧ (State.flitSlot s).resp = s.resp ∧ (State.flitSlot s).wires = s.wires ∧ (State.flitSlot s).dmg = s.dmg ∧ (State.flitSlot s).wq = s.wq ∧ (State.flitSlot s).net = s.net ∧ (State.flitSlot s).dbInval = s.dbInval ∧ (State.flitSlot s).watch = s.watch ∧ (State.flitSlot s).pkg = s.pkg ∧ (State.flitSlot s).pmc = s.pmc ∧ (State.flitSlot s).fwLog = s.fwLog ∧ (State.flitSlot s).free = s.free ∧ (State.flitSlot s).fabric = s.fabric ∧ (State.flitSlot s).files = s.files := by
  generalize h : State.flitSlot s = u
  unfold State.flitSlot at h
  (try dsimp only at h); (repeat' split at h) <;> rw [← h] <;> simp [kept @State.fxSlot_fr]

theorem State.fxUntrained_fr (s : State) (p : Nat) (st : Nat) : (State.fxUntrained s p st).pending = s.pending ∧ (State.fxUntrained s p st).flash = s.flash ∧ (State.fxUntrained s p st).coldOpt = s.coldOpt ∧ (State.fxUntrained s p st).mem = s.mem ∧ (State.fxUntrained s p st).harts = s.harts ∧ (State.fxUntrained s p st).mram = s.mram ∧ (State.fxUntrained s p st).imsic = s.imsic ∧ (State.fxUntrained s p st).eng = s.eng ∧ (State.fxUntrained s p st).dm = s.dm ∧ (State.fxUntrained s p st).ctu = s.ctu ∧ (State.fxUntrained s p st).links = s.links ∧ (State.fxUntrained s p st).aplicS = s.aplicS ∧ (State.fxUntrained s p st).aplicN = s.aplicN ∧ (State.fxUntrained s p st).credits = s.credits ∧ (State.fxUntrained s p st).clusters = s.clusters ∧ (State.fxUntrained s p st).homes = s.homes ∧ (State.fxUntrained s p st).pkts = s.pkts ∧ (State.fxUntrained s p st).resp = s.resp ∧ (State.fxUntrained s p st).wires = s.wires ∧ (State.fxUntrained s p st).dmg = s.dmg ∧ (State.fxUntrained s p st).wq = s.wq ∧ (State.fxUntrained s p st).net = s.net ∧ (State.fxUntrained s p st).dbInval = s.dbInval ∧ (State.fxUntrained s p st).watch = s.watch ∧ (State.fxUntrained s p st).pkg = s.pkg ∧ (State.fxUntrained s p st).pmc = s.pmc ∧ (State.fxUntrained s p st).fwLog = s.fwLog ∧ (State.fxUntrained s p st).out = s.out ∧ (State.fxUntrained s p st).free = s.free ∧ (State.fxUntrained s p st).fabric = s.fabric ∧ (State.fxUntrained s p st).files = s.files := by
  generalize h : State.fxUntrained s p st = u
  unfold State.fxUntrained at h
  (try dsimp only at h); (repeat' split at h) <;> rw [← h] <;> simp [kept @State.setPort_fr, kept @State.wrs_fr]

theorem State.fxDetect_fr (s : State) (p : Nat) : (State.fxDetect s p).pending = s.pending ∧ (State.fxDetect s p).flash = s.flash ∧ (State.fxDetect s p).coldOpt = s.coldOpt ∧ (State.fxDetect s p).mem = s.mem ∧ (State.fxDetect s p).harts = s.harts ∧ (State.fxDetect s p).mram = s.mram ∧ (State.fxDetect s p).imsic = s.imsic ∧ (State.fxDetect s p).eng = s.eng ∧ (State.fxDetect s p).dm = s.dm ∧ (State.fxDetect s p).ctu = s.ctu ∧ (State.fxDetect s p).links = s.links ∧ (State.fxDetect s p).aplicS = s.aplicS ∧ (State.fxDetect s p).aplicN = s.aplicN ∧ (State.fxDetect s p).credits = s.credits ∧ (State.fxDetect s p).clusters = s.clusters ∧ (State.fxDetect s p).homes = s.homes ∧ (State.fxDetect s p).pkts = s.pkts ∧ (State.fxDetect s p).resp = s.resp ∧ (State.fxDetect s p).wires = s.wires ∧ (State.fxDetect s p).dmg = s.dmg ∧ (State.fxDetect s p).wq = s.wq ∧ (State.fxDetect s p).net = s.net ∧ (State.fxDetect s p).dbInval = s.dbInval ∧ (State.fxDetect s p).watch = s.watch ∧ (State.fxDetect s p).pkg = s.pkg ∧ (State.fxDetect s p).pmc = s.pmc ∧ (State.fxDetect s p).fwLog = s.fwLog ∧ (State.fxDetect s p).out = s.out ∧ (State.fxDetect s p).free = s.free ∧ (State.fxDetect s p).fabric = s.fabric ∧ (State.fxDetect s p).files = s.files := by
  generalize h : State.fxDetect s p = u
  unfold State.fxDetect at h
  (try dsimp only at h); (repeat' split at h) <;> rw [← h] <;> simp [kept @State.fxUntrained_fr]

theorem State.fxQueue_fr (s : State) (p : Nat) (k : FxPkt) : (State.fxQueue s p k).pending = s.pending ∧ (State.fxQueue s p k).flash = s.flash ∧ (State.fxQueue s p k).coldOpt = s.coldOpt ∧ (State.fxQueue s p k).mem = s.mem ∧ (State.fxQueue s p k).harts = s.harts ∧ (State.fxQueue s p k).mram = s.mram ∧ (State.fxQueue s p k).imsic = s.imsic ∧ (State.fxQueue s p k).eng = s.eng ∧ (State.fxQueue s p k).dm = s.dm ∧ (State.fxQueue s p k).ctu = s.ctu ∧ (State.fxQueue s p k).links = s.links ∧ (State.fxQueue s p k).aplicS = s.aplicS ∧ (State.fxQueue s p k).aplicN = s.aplicN ∧ (State.fxQueue s p k).credits = s.credits ∧ (State.fxQueue s p k).clusters = s.clusters ∧ (State.fxQueue s p k).homes = s.homes ∧ (State.fxQueue s p k).pkts = s.pkts ∧ (State.fxQueue s p k).resp = s.resp ∧ (State.fxQueue s p k).wires = s.wires ∧ (State.fxQueue s p k).dmg = s.dmg ∧ (State.fxQueue s p k).wq = s.wq ∧ (State.fxQueue s p k).net = s.net ∧ (State.fxQueue s p k).dbInval = s.dbInval ∧ (State.fxQueue s p k).watch = s.watch ∧ (State.fxQueue s p k).pkg = s.pkg ∧ (State.fxQueue s p k).pmc = s.pmc ∧ (State.fxQueue s p k).fwLog = s.fwLog ∧ (State.fxQueue s p k).free = s.free ∧ (State.fxQueue s p k).fabric = s.fabric ∧ (State.fxQueue s p k).files = s.files := by
  generalize h : State.fxQueue s p k = u
  unfold State.fxQueue at h
  rw [← h]; simp [kept @State.fxPump_fr, kept @State.setPort_fr]

theorem State.fxNotice_fr (s : State) (p : Nat) (ring : Nat) (seq : Nat) (code : Nat) : (State.fxNotice s p ring seq code).pending = s.pending ∧ (State.fxNotice s p ring seq code).flash = s.flash ∧ (State.fxNotice s p ring seq code).coldOpt = s.coldOpt ∧ (State.fxNotice s p ring seq code).mem = s.mem ∧ (State.fxNotice s p ring seq code).harts = s.harts ∧ (State.fxNotice s p ring seq code).mram = s.mram ∧ (State.fxNotice s p ring seq code).imsic = s.imsic ∧ (State.fxNotice s p ring seq code).eng = s.eng ∧ (State.fxNotice s p ring seq code).dm = s.dm ∧ (State.fxNotice s p ring seq code).ctu = s.ctu ∧ (State.fxNotice s p ring seq code).links = s.links ∧ (State.fxNotice s p ring seq code).aplicS = s.aplicS ∧ (State.fxNotice s p ring seq code).aplicN = s.aplicN ∧ (State.fxNotice s p ring seq code).credits = s.credits ∧ (State.fxNotice s p ring seq code).clusters = s.clusters ∧ (State.fxNotice s p ring seq code).homes = s.homes ∧ (State.fxNotice s p ring seq code).pkts = s.pkts ∧ (State.fxNotice s p ring seq code).resp = s.resp ∧ (State.fxNotice s p ring seq code).dmg = s.dmg ∧ (State.fxNotice s p ring seq code).wq = s.wq ∧ (State.fxNotice s p ring seq code).net = s.net ∧ (State.fxNotice s p ring seq code).dbInval = s.dbInval ∧ (State.fxNotice s p ring seq code).watch = s.watch ∧ (State.fxNotice s p ring seq code).pkg = s.pkg ∧ (State.fxNotice s p ring seq code).pmc = s.pmc ∧ (State.fxNotice s p ring seq code).fwLog = s.fwLog ∧ (State.fxNotice s p ring seq code).free = s.free ∧ (State.fxNotice s p ring seq code).fabric = s.fabric ∧ (State.fxNotice s p ring seq code).files = s.files := by
  generalize h : State.fxNotice s p ring seq code = u
  unfold State.fxNotice at h
  rw [← h]; simp [kept @State.fxQueue_fr, kept @State.raise_fr]

theorem State.fxRingError_fr (s : State) (p : Nat) (ring : Nat) (cause : Nat) (count : Nat) : (State.fxRingError s p ring cause count).pending = s.pending ∧ (State.fxRingError s p ring cause count).flash = s.flash ∧ (State.fxRingError s p ring cause count).coldOpt = s.coldOpt ∧ (State.fxRingError s p ring cause count).mem = s.mem ∧ (State.fxRingError s p ring cause count).harts = s.harts ∧ (State.fxRingError s p ring cause count).mram = s.mram ∧ (State.fxRingError s p ring cause count).imsic = s.imsic ∧ (State.fxRingError s p ring cause count).eng = s.eng ∧ (State.fxRingError s p ring cause count).dm = s.dm ∧ (State.fxRingError s p ring cause count).ctu = s.ctu ∧ (State.fxRingError s p ring cause count).links = s.links ∧ (State.fxRingError s p ring cause count).aplicS = s.aplicS ∧ (State.fxRingError s p ring cause count).aplicN = s.aplicN ∧ (State.fxRingError s p ring cause count).credits = s.credits ∧ (State.fxRingError s p ring cause count).clusters = s.clusters ∧ (State.fxRingError s p ring cause count).homes = s.homes ∧ (State.fxRingError s p ring cause count).pkts = s.pkts ∧ (State.fxRingError s p ring cause count).resp = s.resp ∧ (State.fxRingError s p ring cause count).wires = s.wires ∧ (State.fxRingError s p ring cause count).dmg = s.dmg ∧ (State.fxRingError s p ring cause count).wq = s.wq ∧ (State.fxRingError s p ring cause count).net = s.net ∧ (State.fxRingError s p ring cause count).dbInval = s.dbInval ∧ (State.fxRingError s p ring cause count).watch = s.watch ∧ (State.fxRingError s p ring cause count).pkg = s.pkg ∧ (State.fxRingError s p ring cause count).pmc = s.pmc ∧ (State.fxRingError s p ring cause count).fwLog = s.fwLog ∧ (State.fxRingError s p ring cause count).free = s.free ∧ (State.fxRingError s p ring cause count).fabric = s.fabric ∧ (State.fxRingError s p ring cause count).files = s.files := by
  generalize h : State.fxRingError s p ring cause count = u
  unfold State.fxRingError at h
  rw [← h]; simp [kept @State.fxQueue_fr]

theorem State.fxFetch_fr (s : State) (p : Nat) (ring : Nat) (seq : Nat) (count : Nat) : (State.fxFetch s p ring seq count).pending = s.pending ∧ (State.fxFetch s p ring seq count).flash = s.flash ∧ (State.fxFetch s p ring seq count).coldOpt = s.coldOpt ∧ (State.fxFetch s p ring seq count).mem = s.mem ∧ (State.fxFetch s p ring seq count).harts = s.harts ∧ (State.fxFetch s p ring seq count).mram = s.mram ∧ (State.fxFetch s p ring seq count).imsic = s.imsic ∧ (State.fxFetch s p ring seq count).eng = s.eng ∧ (State.fxFetch s p ring seq count).dm = s.dm ∧ (State.fxFetch s p ring seq count).ctu = s.ctu ∧ (State.fxFetch s p ring seq count).links = s.links ∧ (State.fxFetch s p ring seq count).aplicS = s.aplicS ∧ (State.fxFetch s p ring seq count).aplicN = s.aplicN ∧ (State.fxFetch s p ring seq count).credits = s.credits ∧ (State.fxFetch s p ring seq count).clusters = s.clusters ∧ (State.fxFetch s p ring seq count).homes = s.homes ∧ (State.fxFetch s p ring seq count).pkts = s.pkts ∧ (State.fxFetch s p ring seq count).resp = s.resp ∧ (State.fxFetch s p ring seq count).wires = s.wires ∧ (State.fxFetch s p ring seq count).dmg = s.dmg ∧ (State.fxFetch s p ring seq count).wq = s.wq ∧ (State.fxFetch s p ring seq count).net = s.net ∧ (State.fxFetch s p ring seq count).dbInval = s.dbInval ∧ (State.fxFetch s p ring seq count).watch = s.watch ∧ (State.fxFetch s p ring seq count).pkg = s.pkg ∧ (State.fxFetch s p ring seq count).pmc = s.pmc ∧ (State.fxFetch s p ring seq count).fwLog = s.fwLog ∧ (State.fxFetch s p ring seq count).free = s.free ∧ (State.fxFetch s p ring seq count).fabric = s.fabric ∧ (State.fxFetch s p ring seq count).files = s.files := by
  generalize h : State.fxFetch s p ring seq count = u
  unfold State.fxFetch at h
  rw [← h]; simp [kept @State.fxQueue_fr]

theorem State.fxDropped_fr (s : State) (p : Nat) (n : Nat) : (State.fxDropped s p n).pending = s.pending ∧ (State.fxDropped s p n).flash = s.flash ∧ (State.fxDropped s p n).coldOpt = s.coldOpt ∧ (State.fxDropped s p n).mem = s.mem ∧ (State.fxDropped s p n).harts = s.harts ∧ (State.fxDropped s p n).mram = s.mram ∧ (State.fxDropped s p n).imsic = s.imsic ∧ (State.fxDropped s p n).eng = s.eng ∧ (State.fxDropped s p n).dm = s.dm ∧ (State.fxDropped s p n).fx = s.fx ∧ (State.fxDropped s p n).ctu = s.ctu ∧ (State.fxDropped s p n).links = s.links ∧ (State.fxDropped s p n).aplicS = s.aplicS ∧ (State.fxDropped s p n).aplicN = s.aplicN ∧ (State.fxDropped s p n).credits = s.credits ∧ (State.fxDropped s p n).clusters = s.clusters ∧ (State.fxDropped s p n).homes = s.homes ∧ (State.fxDropped s p n).pkts = s.pkts ∧ (State.fxDropped s p n).resp = s.resp ∧ (State.fxDropped s p n).wires = s.wires ∧ (State.fxDropped s p n).dmg = s.dmg ∧ (State.fxDropped s p n).wq = s.wq ∧ (State.fxDropped s p n).net = s.net ∧ (State.fxDropped s p n).dbInval = s.dbInval ∧ (State.fxDropped s p n).watch = s.watch ∧ (State.fxDropped s p n).pkg = s.pkg ∧ (State.fxDropped s p n).pmc = s.pmc ∧ (State.fxDropped s p n).fwLog = s.fwLog ∧ (State.fxDropped s p n).out = s.out ∧ (State.fxDropped s p n).free = s.free ∧ (State.fxDropped s p n).fabric = s.fabric ∧ (State.fxDropped s p n).files = s.files := by
  generalize h : State.fxDropped s p n = u
  unfold State.fxDropped at h
  rw [← h]; simp [kept @State.satF_fr]

theorem State.fxInto_fr (s : State) (p : Nat) (k : FxPkt) : (State.fxInto s p k).pending = s.pending ∧ (State.fxInto s p k).flash = s.flash ∧ (State.fxInto s p k).coldOpt = s.coldOpt ∧ (State.fxInto s p k).mem = s.mem ∧ (State.fxInto s p k).harts = s.harts ∧ (State.fxInto s p k).mram = s.mram ∧ (State.fxInto s p k).imsic = s.imsic ∧ (State.fxInto s p k).eng = s.eng ∧ (State.fxInto s p k).dm = s.dm ∧ (State.fxInto s p k).ctu = s.ctu ∧ (State.fxInto s p k).links = s.links ∧ (State.fxInto s p k).aplicS = s.aplicS ∧ (State.fxInto s p k).aplicN = s.aplicN ∧ (State.fxInto s p k).credits = s.credits ∧ (State.fxInto s p k).clusters = s.clusters ∧ (State.fxInto s p k).homes = s.homes ∧ (State.fxInto s p k).pkts = s.pkts ∧ (State.fxInto s p k).resp = s.resp ∧ (State.fxInto s p k).wires = s.wires ∧ (State.fxInto s p k).dmg = s.dmg ∧ (State.fxInto s p k).wq = s.wq ∧ (State.fxInto s p k).net = s.net ∧ (State.fxInto s p k).dbInval = s.dbInval ∧ (State.fxInto s p k).watch = s.watch ∧ (State.fxInto s p k).pkg = s.pkg ∧ (State.fxInto s p k).pmc = s.pmc ∧ (State.fxInto s p k).fwLog = s.fwLog ∧ (State.fxInto s p k).free = s.free ∧ (State.fxInto s p k).fabric = s.fabric ∧ (State.fxInto s p k).files = s.files := by
  generalize h : State.fxInto s p k = u
  unfold State.fxInto at h
  (try dsimp only at h); (repeat' split at h) <;> rw [← h] <;> simp [kept @State.fxQueue_fr]

@[simp] theorem State.fxData_pending (s : State) (p ring seq w : Nat) (last : Bool) (f off : Nat) (l : List Byte) :
    (s.fxData p ring seq w last f off l).pending = s.pending := by
  induction f generalizing s off l with
  | zero => cases l <;> rfl
  | succ f ih =>
    cases l with
    | nil => rfl
    | cons b t => simp [State.fxData, ih, kept @State.fxInto_fr, kept @State.pmcFx_fr]

@[simp] theorem State.fxData_files (s : State) (p ring seq w : Nat) (last : Bool) (f off : Nat) (l : List Byte) :
    (s.fxData p ring seq w last f off l).files = s.files := by
  induction f generalizing s off l with
  | zero => cases l <;> rfl
  | succ f ih =>
    cases l with
    | nil => rfl
    | cons b t => simp [State.fxData, ih, kept @State.fxInto_fr, kept @State.pmcFx_fr]

@[simp] theorem State.fxData_fabric (s : State) (p ring seq w : Nat) (last : Bool) (f off : Nat) (l : List Byte) :
    (s.fxData p ring seq w last f off l).fabric = s.fabric := by
  induction f generalizing s off l with
  | zero => cases l <;> rfl
  | succ f ih =>
    cases l with
    | nil => rfl
    | cons b t => simp [State.fxData, ih, kept @State.fxInto_fr, kept @State.pmcFx_fr]

@[simp] theorem State.fxData_flash (s : State) (p ring seq w : Nat) (last : Bool) (f off : Nat) (l : List Byte) :
    (s.fxData p ring seq w last f off l).flash = s.flash := by
  induction f generalizing s off l with
  | zero => cases l <;> rfl
  | succ f ih =>
    cases l with
    | nil => rfl
    | cons b t => simp [State.fxData, ih, kept @State.fxInto_fr, kept @State.pmcFx_fr]

@[simp] theorem State.fxData_coldOpt (s : State) (p ring seq w : Nat) (last : Bool) (f off : Nat) (l : List Byte) :
    (s.fxData p ring seq w last f off l).coldOpt = s.coldOpt := by
  induction f generalizing s off l with
  | zero => cases l <;> rfl
  | succ f ih =>
    cases l with
    | nil => rfl
    | cons b t => simp [State.fxData, ih, kept @State.fxInto_fr, kept @State.pmcFx_fr]

@[simp] theorem State.fxData_mem (s : State) (p ring seq w : Nat) (last : Bool) (f off : Nat) (l : List Byte) :
    (s.fxData p ring seq w last f off l).mem = s.mem := by
  induction f generalizing s off l with
  | zero => cases l <;> rfl
  | succ f ih =>
    cases l with
    | nil => rfl
    | cons b t => simp [State.fxData, ih, kept @State.fxInto_fr, kept @State.pmcFx_fr]

@[simp] theorem State.fxData_harts (s : State) (p ring seq w : Nat) (last : Bool) (f off : Nat) (l : List Byte) :
    (s.fxData p ring seq w last f off l).harts = s.harts := by
  induction f generalizing s off l with
  | zero => cases l <;> rfl
  | succ f ih =>
    cases l with
    | nil => rfl
    | cons b t => simp [State.fxData, ih, kept @State.fxInto_fr, kept @State.pmcFx_fr]

@[simp] theorem State.fxData_mram (s : State) (p ring seq w : Nat) (last : Bool) (f off : Nat) (l : List Byte) :
    (s.fxData p ring seq w last f off l).mram = s.mram := by
  induction f generalizing s off l with
  | zero => cases l <;> rfl
  | succ f ih =>
    cases l with
    | nil => rfl
    | cons b t => simp [State.fxData, ih, kept @State.fxInto_fr, kept @State.pmcFx_fr]

@[simp] theorem State.fxData_imsic (s : State) (p ring seq w : Nat) (last : Bool) (f off : Nat) (l : List Byte) :
    (s.fxData p ring seq w last f off l).imsic = s.imsic := by
  induction f generalizing s off l with
  | zero => cases l <;> rfl
  | succ f ih =>
    cases l with
    | nil => rfl
    | cons b t => simp [State.fxData, ih, kept @State.fxInto_fr, kept @State.pmcFx_fr]

@[simp] theorem State.fxData_eng (s : State) (p ring seq w : Nat) (last : Bool) (f off : Nat) (l : List Byte) :
    (s.fxData p ring seq w last f off l).eng = s.eng := by
  induction f generalizing s off l with
  | zero => cases l <;> rfl
  | succ f ih =>
    cases l with
    | nil => rfl
    | cons b t => simp [State.fxData, ih, kept @State.fxInto_fr, kept @State.pmcFx_fr]

@[simp] theorem State.fxData_dm (s : State) (p ring seq w : Nat) (last : Bool) (f off : Nat) (l : List Byte) :
    (s.fxData p ring seq w last f off l).dm = s.dm := by
  induction f generalizing s off l with
  | zero => cases l <;> rfl
  | succ f ih =>
    cases l with
    | nil => rfl
    | cons b t => simp [State.fxData, ih, kept @State.fxInto_fr, kept @State.pmcFx_fr]

@[simp] theorem State.fxData_ctu (s : State) (p ring seq w : Nat) (last : Bool) (f off : Nat) (l : List Byte) :
    (s.fxData p ring seq w last f off l).ctu = s.ctu := by
  induction f generalizing s off l with
  | zero => cases l <;> rfl
  | succ f ih =>
    cases l with
    | nil => rfl
    | cons b t => simp [State.fxData, ih, kept @State.fxInto_fr, kept @State.pmcFx_fr]

@[simp] theorem State.fxData_links (s : State) (p ring seq w : Nat) (last : Bool) (f off : Nat) (l : List Byte) :
    (s.fxData p ring seq w last f off l).links = s.links := by
  induction f generalizing s off l with
  | zero => cases l <;> rfl
  | succ f ih =>
    cases l with
    | nil => rfl
    | cons b t => simp [State.fxData, ih, kept @State.fxInto_fr, kept @State.pmcFx_fr]

@[simp] theorem State.fxData_aplicS (s : State) (p ring seq w : Nat) (last : Bool) (f off : Nat) (l : List Byte) :
    (s.fxData p ring seq w last f off l).aplicS = s.aplicS := by
  induction f generalizing s off l with
  | zero => cases l <;> rfl
  | succ f ih =>
    cases l with
    | nil => rfl
    | cons b t => simp [State.fxData, ih, kept @State.fxInto_fr, kept @State.pmcFx_fr]

@[simp] theorem State.fxData_aplicN (s : State) (p ring seq w : Nat) (last : Bool) (f off : Nat) (l : List Byte) :
    (s.fxData p ring seq w last f off l).aplicN = s.aplicN := by
  induction f generalizing s off l with
  | zero => cases l <;> rfl
  | succ f ih =>
    cases l with
    | nil => rfl
    | cons b t => simp [State.fxData, ih, kept @State.fxInto_fr, kept @State.pmcFx_fr]

@[simp] theorem State.fxData_credits (s : State) (p ring seq w : Nat) (last : Bool) (f off : Nat) (l : List Byte) :
    (s.fxData p ring seq w last f off l).credits = s.credits := by
  induction f generalizing s off l with
  | zero => cases l <;> rfl
  | succ f ih =>
    cases l with
    | nil => rfl
    | cons b t => simp [State.fxData, ih, kept @State.fxInto_fr, kept @State.pmcFx_fr]

@[simp] theorem State.fxData_clusters (s : State) (p ring seq w : Nat) (last : Bool) (f off : Nat) (l : List Byte) :
    (s.fxData p ring seq w last f off l).clusters = s.clusters := by
  induction f generalizing s off l with
  | zero => cases l <;> rfl
  | succ f ih =>
    cases l with
    | nil => rfl
    | cons b t => simp [State.fxData, ih, kept @State.fxInto_fr, kept @State.pmcFx_fr]

@[simp] theorem State.fxData_homes (s : State) (p ring seq w : Nat) (last : Bool) (f off : Nat) (l : List Byte) :
    (s.fxData p ring seq w last f off l).homes = s.homes := by
  induction f generalizing s off l with
  | zero => cases l <;> rfl
  | succ f ih =>
    cases l with
    | nil => rfl
    | cons b t => simp [State.fxData, ih, kept @State.fxInto_fr, kept @State.pmcFx_fr]

@[simp] theorem State.fxData_pkts (s : State) (p ring seq w : Nat) (last : Bool) (f off : Nat) (l : List Byte) :
    (s.fxData p ring seq w last f off l).pkts = s.pkts := by
  induction f generalizing s off l with
  | zero => cases l <;> rfl
  | succ f ih =>
    cases l with
    | nil => rfl
    | cons b t => simp [State.fxData, ih, kept @State.fxInto_fr, kept @State.pmcFx_fr]

@[simp] theorem State.fxData_resp (s : State) (p ring seq w : Nat) (last : Bool) (f off : Nat) (l : List Byte) :
    (s.fxData p ring seq w last f off l).resp = s.resp := by
  induction f generalizing s off l with
  | zero => cases l <;> rfl
  | succ f ih =>
    cases l with
    | nil => rfl
    | cons b t => simp [State.fxData, ih, kept @State.fxInto_fr, kept @State.pmcFx_fr]

@[simp] theorem State.fxData_wires (s : State) (p ring seq w : Nat) (last : Bool) (f off : Nat) (l : List Byte) :
    (s.fxData p ring seq w last f off l).wires = s.wires := by
  induction f generalizing s off l with
  | zero => cases l <;> rfl
  | succ f ih =>
    cases l with
    | nil => rfl
    | cons b t => simp [State.fxData, ih, kept @State.fxInto_fr, kept @State.pmcFx_fr]

@[simp] theorem State.fxData_dmg (s : State) (p ring seq w : Nat) (last : Bool) (f off : Nat) (l : List Byte) :
    (s.fxData p ring seq w last f off l).dmg = s.dmg := by
  induction f generalizing s off l with
  | zero => cases l <;> rfl
  | succ f ih =>
    cases l with
    | nil => rfl
    | cons b t => simp [State.fxData, ih, kept @State.fxInto_fr, kept @State.pmcFx_fr]

@[simp] theorem State.fxData_wq (s : State) (p ring seq w : Nat) (last : Bool) (f off : Nat) (l : List Byte) :
    (s.fxData p ring seq w last f off l).wq = s.wq := by
  induction f generalizing s off l with
  | zero => cases l <;> rfl
  | succ f ih =>
    cases l with
    | nil => rfl
    | cons b t => simp [State.fxData, ih, kept @State.fxInto_fr, kept @State.pmcFx_fr]

@[simp] theorem State.fxData_net (s : State) (p ring seq w : Nat) (last : Bool) (f off : Nat) (l : List Byte) :
    (s.fxData p ring seq w last f off l).net = s.net := by
  induction f generalizing s off l with
  | zero => cases l <;> rfl
  | succ f ih =>
    cases l with
    | nil => rfl
    | cons b t => simp [State.fxData, ih, kept @State.fxInto_fr, kept @State.pmcFx_fr]

@[simp] theorem State.fxData_dbInval (s : State) (p ring seq w : Nat) (last : Bool) (f off : Nat) (l : List Byte) :
    (s.fxData p ring seq w last f off l).dbInval = s.dbInval := by
  induction f generalizing s off l with
  | zero => cases l <;> rfl
  | succ f ih =>
    cases l with
    | nil => rfl
    | cons b t => simp [State.fxData, ih, kept @State.fxInto_fr, kept @State.pmcFx_fr]

@[simp] theorem State.fxData_watch (s : State) (p ring seq w : Nat) (last : Bool) (f off : Nat) (l : List Byte) :
    (s.fxData p ring seq w last f off l).watch = s.watch := by
  induction f generalizing s off l with
  | zero => cases l <;> rfl
  | succ f ih =>
    cases l with
    | nil => rfl
    | cons b t => simp [State.fxData, ih, kept @State.fxInto_fr, kept @State.pmcFx_fr]

@[simp] theorem State.fxData_pkg (s : State) (p ring seq w : Nat) (last : Bool) (f off : Nat) (l : List Byte) :
    (s.fxData p ring seq w last f off l).pkg = s.pkg := by
  induction f generalizing s off l with
  | zero => cases l <;> rfl
  | succ f ih =>
    cases l with
    | nil => rfl
    | cons b t => simp [State.fxData, ih, kept @State.fxInto_fr, kept @State.pmcFx_fr]

@[simp] theorem State.fxData_pmc (s : State) (p ring seq w : Nat) (last : Bool) (f off : Nat) (l : List Byte) :
    (s.fxData p ring seq w last f off l).pmc = s.pmc := by
  induction f generalizing s off l with
  | zero => cases l <;> rfl
  | succ f ih =>
    cases l with
    | nil => rfl
    | cons b t => simp [State.fxData, ih, kept @State.fxInto_fr, kept @State.pmcFx_fr]

@[simp] theorem State.fxData_fwLog (s : State) (p ring seq w : Nat) (last : Bool) (f off : Nat) (l : List Byte) :
    (s.fxData p ring seq w last f off l).fwLog = s.fwLog := by
  induction f generalizing s off l with
  | zero => cases l <;> rfl
  | succ f ih =>
    cases l with
    | nil => rfl
    | cons b t => simp [State.fxData, ih, kept @State.fxInto_fr, kept @State.pmcFx_fr]

@[simp] theorem State.fxData_free (s : State) (p ring seq w : Nat) (last : Bool) (f off : Nat) (l : List Byte) :
    (s.fxData p ring seq w last f off l).free = s.free := by
  induction f generalizing s off l with
  | zero => cases l <;> rfl
  | succ f ih =>
    cases l with
    | nil => rfl
    | cons b t => simp [State.fxData, ih, kept @State.fxInto_fr, kept @State.pmcFx_fr]

theorem State.stageWrite_fr (s : State) (p : Nat) (off : Nat) (l : List Byte) : (State.stageWrite s p off l).2.pending = s.pending ∧ (State.stageWrite s p off l).2.flash = s.flash ∧ (State.stageWrite s p off l).2.coldOpt = s.coldOpt ∧ (State.stageWrite s p off l).2.imsic = s.imsic ∧ (State.stageWrite s p off l).2.eng = s.eng ∧ (State.stageWrite s p off l).2.dm = s.dm ∧ (State.stageWrite s p off l).2.fx = s.fx ∧ (State.stageWrite s p off l).2.ctu = s.ctu ∧ (State.stageWrite s p off l).2.links = s.links ∧ (State.stageWrite s p off l).2.aplicS = s.aplicS ∧ (State.stageWrite s p off l).2.aplicN = s.aplicN ∧ (State.stageWrite s p off l).2.credits = s.credits ∧ (State.stageWrite s p off l).2.pkts = s.pkts ∧ (State.stageWrite s p off l).2.resp = s.resp ∧ (State.stageWrite s p off l).2.out = s.out ∧ (State.stageWrite s p off l).2.free = s.free ∧ (State.stageWrite s p off l).2.fabric = s.fabric ∧ (State.stageWrite s p off l).2.files = s.files := by
  generalize h : (State.stageWrite s p off l).2 = u
  unfold State.stageWrite at h
  rw [← h]; simp [kept @State.writePa_fr]

theorem State.stageRead_fr (s : State) (p : Nat) (off : Nat) (n : Nat) : (State.stageRead s p off n).2.pending = s.pending ∧ (State.stageRead s p off n).2.flash = s.flash ∧ (State.stageRead s p off n).2.coldOpt = s.coldOpt ∧ (State.stageRead s p off n).2.mem = s.mem ∧ (State.stageRead s p off n).2.harts = s.harts ∧ (State.stageRead s p off n).2.imsic = s.imsic ∧ (State.stageRead s p off n).2.eng = s.eng ∧ (State.stageRead s p off n).2.dm = s.dm ∧ (State.stageRead s p off n).2.fx = s.fx ∧ (State.stageRead s p off n).2.ctu = s.ctu ∧ (State.stageRead s p off n).2.links = s.links ∧ (State.stageRead s p off n).2.aplicS = s.aplicS ∧ (State.stageRead s p off n).2.aplicN = s.aplicN ∧ (State.stageRead s p off n).2.credits = s.credits ∧ (State.stageRead s p off n).2.clusters = s.clusters ∧ (State.stageRead s p off n).2.homes = s.homes ∧ (State.stageRead s p off n).2.pkts = s.pkts ∧ (State.stageRead s p off n).2.resp = s.resp ∧ (State.stageRead s p off n).2.dmg = s.dmg ∧ (State.stageRead s p off n).2.net = s.net ∧ (State.stageRead s p off n).2.dbInval = s.dbInval ∧ (State.stageRead s p off n).2.watch = s.watch ∧ (State.stageRead s p off n).2.out = s.out ∧ (State.stageRead s p off n).2.free = s.free ∧ (State.stageRead s p off n).2.fabric = s.fabric ∧ (State.stageRead s p off n).2.files = s.files := by
  generalize h : (State.stageRead s p off n).2 = u
  unfold State.stageRead at h
  rw [← h]; simp [kept @State.readPa_fr]

theorem State.stageFree_fr (s : State) (p : Nat) (ring : Nat) (seq : Nat) : (State.stageFree s p ring seq).pending = s.pending ∧ (State.stageFree s p ring seq).flash = s.flash ∧ (State.stageFree s p ring seq).coldOpt = s.coldOpt ∧ (State.stageFree s p ring seq).mem = s.mem ∧ (State.stageFree s p ring seq).harts = s.harts ∧ (State.stageFree s p ring seq).mram = s.mram ∧ (State.stageFree s p ring seq).imsic = s.imsic ∧ (State.stageFree s p ring seq).eng = s.eng ∧ (State.stageFree s p ring seq).dm = s.dm ∧ (State.stageFree s p ring seq).ctu = s.ctu ∧ (State.stageFree s p ring seq).links = s.links ∧ (State.stageFree s p ring seq).aplicS = s.aplicS ∧ (State.stageFree s p ring seq).aplicN = s.aplicN ∧ (State.stageFree s p ring seq).credits = s.credits ∧ (State.stageFree s p ring seq).clusters = s.clusters ∧ (State.stageFree s p ring seq).homes = s.homes ∧ (State.stageFree s p ring seq).pkts = s.pkts ∧ (State.stageFree s p ring seq).resp = s.resp ∧ (State.stageFree s p ring seq).regs = s.regs ∧ (State.stageFree s p ring seq).wires = s.wires ∧ (State.stageFree s p ring seq).dmg = s.dmg ∧ (State.stageFree s p ring seq).wq = s.wq ∧ (State.stageFree s p ring seq).net = s.net ∧ (State.stageFree s p ring seq).dbInval = s.dbInval ∧ (State.stageFree s p ring seq).watch = s.watch ∧ (State.stageFree s p ring seq).pkg = s.pkg ∧ (State.stageFree s p ring seq).pmc = s.pmc ∧ (State.stageFree s p ring seq).fwLog = s.fwLog ∧ (State.stageFree s p ring seq).out = s.out ∧ (State.stageFree s p ring seq).free = s.free ∧ (State.stageFree s p ring seq).fabric = s.fabric ∧ (State.stageFree s p ring seq).files = s.files := by
  generalize h : State.stageFree s p ring seq = u
  unfold State.stageFree at h
  rw [← h]; simp [kept @State.setPort_fr]

theorem State.stageClose_fr (s : State) (p : Nat) (ring : Nat) (seq : Nat) : (State.stageClose s p ring seq).pending = s.pending ∧ (State.stageClose s p ring seq).flash = s.flash ∧ (State.stageClose s p ring seq).coldOpt = s.coldOpt ∧ (State.stageClose s p ring seq).mem = s.mem ∧ (State.stageClose s p ring seq).harts = s.harts ∧ (State.stageClose s p ring seq).mram = s.mram ∧ (State.stageClose s p ring seq).imsic = s.imsic ∧ (State.stageClose s p ring seq).eng = s.eng ∧ (State.stageClose s p ring seq).dm = s.dm ∧ (State.stageClose s p ring seq).ctu = s.ctu ∧ (State.stageClose s p ring seq).links = s.links ∧ (State.stageClose s p ring seq).aplicS = s.aplicS ∧ (State.stageClose s p ring seq).aplicN = s.aplicN ∧ (State.stageClose s p ring seq).credits = s.credits ∧ (State.stageClose s p ring seq).clusters = s.clusters ∧ (State.stageClose s p ring seq).homes = s.homes ∧ (State.stageClose s p ring seq).pkts = s.pkts ∧ (State.stageClose s p ring seq).resp = s.resp ∧ (State.stageClose s p ring seq).regs = s.regs ∧ (State.stageClose s p ring seq).wires = s.wires ∧ (State.stageClose s p ring seq).dmg = s.dmg ∧ (State.stageClose s p ring seq).wq = s.wq ∧ (State.stageClose s p ring seq).net = s.net ∧ (State.stageClose s p ring seq).dbInval = s.dbInval ∧ (State.stageClose s p ring seq).watch = s.watch ∧ (State.stageClose s p ring seq).pkg = s.pkg ∧ (State.stageClose s p ring seq).pmc = s.pmc ∧ (State.stageClose s p ring seq).fwLog = s.fwLog ∧ (State.stageClose s p ring seq).out = s.out ∧ (State.stageClose s p ring seq).free = s.free ∧ (State.stageClose s p ring seq).fabric = s.fabric ∧ (State.stageClose s p ring seq).files = s.files := by
  generalize h : State.stageClose s p ring seq = u
  unfold State.stageClose at h
  (try dsimp only at h); (repeat' split at h) <;> rw [← h] <;> simp [kept @State.setPort_fr]

theorem State.stageFreeIn_fr (s : State) (p : Nat) (ring : Nat) (seq : Nat) : (State.stageFreeIn s p ring seq).pending = s.pending ∧ (State.stageFreeIn s p ring seq).flash = s.flash ∧ (State.stageFreeIn s p ring seq).coldOpt = s.coldOpt ∧ (State.stageFreeIn s p ring seq).mem = s.mem ∧ (State.stageFreeIn s p ring seq).harts = s.harts ∧ (State.stageFreeIn s p ring seq).mram = s.mram ∧ (State.stageFreeIn s p ring seq).imsic = s.imsic ∧ (State.stageFreeIn s p ring seq).eng = s.eng ∧ (State.stageFreeIn s p ring seq).dm = s.dm ∧ (State.stageFreeIn s p ring seq).ctu = s.ctu ∧ (State.stageFreeIn s p ring seq).links = s.links ∧ (State.stageFreeIn s p ring seq).aplicS = s.aplicS ∧ (State.stageFreeIn s p ring seq).aplicN = s.aplicN ∧ (State.stageFreeIn s p ring seq).credits = s.credits ∧ (State.stageFreeIn s p ring seq).clusters = s.clusters ∧ (State.stageFreeIn s p ring seq).homes = s.homes ∧ (State.stageFreeIn s p ring seq).pkts = s.pkts ∧ (State.stageFreeIn s p ring seq).resp = s.resp ∧ (State.stageFreeIn s p ring seq).regs = s.regs ∧ (State.stageFreeIn s p ring seq).wires = s.wires ∧ (State.stageFreeIn s p ring seq).dmg = s.dmg ∧ (State.stageFreeIn s p ring seq).wq = s.wq ∧ (State.stageFreeIn s p ring seq).net = s.net ∧ (State.stageFreeIn s p ring seq).dbInval = s.dbInval ∧ (State.stageFreeIn s p ring seq).watch = s.watch ∧ (State.stageFreeIn s p ring seq).pkg = s.pkg ∧ (State.stageFreeIn s p ring seq).pmc = s.pmc ∧ (State.stageFreeIn s p ring seq).fwLog = s.fwLog ∧ (State.stageFreeIn s p ring seq).out = s.out ∧ (State.stageFreeIn s p ring seq).free = s.free ∧ (State.stageFreeIn s p ring seq).fabric = s.fabric ∧ (State.stageFreeIn s p ring seq).files = s.files := by
  generalize h : State.stageFreeIn s p ring seq = u
  unfold State.stageFreeIn at h
  rw [← h]; simp [kept @State.setPort_fr]

end Sys2Proof.Machine
end

