-- ==== Sys2Proof/Laws/Frame/EngOps.lean ====
section
/-! SUPPORT. What the operations of Machine/EngOps.lean leave unchanged. -/

set_option Elab.async false
set_option linter.all false

namespace Sys2Proof.Machine
open Sys2Proof

theorem State.eng'_fr (s : State) (f : Eng → Eng) : (State.eng' s f).pending = s.pending ∧ (State.eng' s f).flash = s.flash ∧ (State.eng' s f).coldOpt = s.coldOpt ∧ (State.eng' s f).mem = s.mem ∧ (State.eng' s f).harts = s.harts ∧ (State.eng' s f).mram = s.mram ∧ (State.eng' s f).imsic = s.imsic ∧ (State.eng' s f).dm = s.dm ∧ (State.eng' s f).fx = s.fx ∧ (State.eng' s f).ctu = s.ctu ∧ (State.eng' s f).links = s.links ∧ (State.eng' s f).aplicS = s.aplicS ∧ (State.eng' s f).aplicN = s.aplicN ∧ (State.eng' s f).credits = s.credits ∧ (State.eng' s f).clusters = s.clusters ∧ (State.eng' s f).homes = s.homes ∧ (State.eng' s f).pkts = s.pkts ∧ (State.eng' s f).resp = s.resp ∧ (State.eng' s f).regs = s.regs ∧ (State.eng' s f).wires = s.wires ∧ (State.eng' s f).dmg = s.dmg ∧ (State.eng' s f).wq = s.wq ∧ (State.eng' s f).net = s.net ∧ (State.eng' s f).dbInval = s.dbInval ∧ (State.eng' s f).watch = s.watch ∧ (State.eng' s f).pkg = s.pkg ∧ (State.eng' s f).pmc = s.pmc ∧ (State.eng' s f).fwLog = s.fwLog ∧ (State.eng' s f).out = s.out ∧ (State.eng' s f).free = s.free ∧ (State.eng' s f).fabric = s.fabric ∧ (State.eng' s f).files = s.files := by
  generalize h : State.eng' s f = u
  unfold State.eng' at h
  rw [← h]; simp

theorem State.setSlice_fr (s : State) (n : Nat) (x : Slice) : (State.setSlice s n x).pending = s.pending ∧ (State.setSlice s n x).flash = s.flash ∧ (State.setSlice s n x).coldOpt = s.coldOpt ∧ (State.setSlice s n x).mem = s.mem ∧ (State.setSlice s n x).harts = s.harts ∧ (State.setSlice s n x).mram = s.mram ∧ (State.setSlice s n x).imsic = s.imsic ∧ (State.setSlice s n x).dm = s.dm ∧ (State.setSlice s n x).fx = s.fx ∧ (State.setSlice s n x).ctu = s.ctu ∧ (State.setSlice s n x).links = s.links ∧ (State.setSlice s n x).aplicS = s.aplicS ∧ (State.setSlice s n x).aplicN = s.aplicN ∧ (State.setSlice s n x).credits = s.credits ∧ (State.setSlice s n x).clusters = s.clusters ∧ (State.setSlice s n x).homes = s.homes ∧ (State.setSlice s n x).pkts = s.pkts ∧ (State.setSlice s n x).resp = s.resp ∧ (State.setSlice s n x).regs = s.regs ∧ (State.setSlice s n x).wires = s.wires ∧ (State.setSlice s n x).dmg = s.dmg ∧ (State.setSlice s n x).wq = s.wq ∧ (State.setSlice s n x).net = s.net ∧ (State.setSlice s n x).dbInval = s.dbInval ∧ (State.setSlice s n x).watch = s.watch ∧ (State.setSlice s n x).pkg = s.pkg ∧ (State.setSlice s n x).pmc = s.pmc ∧ (State.setSlice s n x).fwLog = s.fwLog ∧ (State.setSlice s n x).out = s.out ∧ (State.setSlice s n x).free = s.free ∧ (State.setSlice s n x).fabric = s.fabric ∧ (State.setSlice s n x).files = s.files := by
  generalize h : State.setSlice s n x = u
  unfold State.setSlice at h
  rw [← h]; simp [kept @State.eng'_fr]

theorem State.setTask_fr (s : State) (n : Nat) (t : Task) : (State.setTask s n t).pending = s.pending ∧ (State.setTask s n t).flash = s.flash ∧ (State.setTask s n t).coldOpt = s.coldOpt ∧ (State.setTask s n t).mem = s.mem ∧ (State.setTask s n t).harts = s.harts ∧ (State.setTask s n t).mram = s.mram ∧ (State.setTask s n t).imsic = s.imsic ∧ (State.setTask s n t).dm = s.dm ∧ (State.setTask s n t).fx = s.fx ∧ (State.setTask s n t).ctu = s.ctu ∧ (State.setTask s n t).links = s.links ∧ (State.setTask s n t).aplicS = s.aplicS ∧ (State.setTask s n t).aplicN = s.aplicN ∧ (State.setTask s n t).credits = s.credits ∧ (State.setTask s n t).clusters = s.clusters ∧ (State.setTask s n t).homes = s.homes ∧ (State.setTask s n t).pkts = s.pkts ∧ (State.setTask s n t).resp = s.resp ∧ (State.setTask s n t).regs = s.regs ∧ (State.setTask s n t).wires = s.wires ∧ (State.setTask s n t).dmg = s.dmg ∧ (State.setTask s n t).wq = s.wq ∧ (State.setTask s n t).net = s.net ∧ (State.setTask s n t).dbInval = s.dbInval ∧ (State.setTask s n t).watch = s.watch ∧ (State.setTask s n t).pkg = s.pkg ∧ (State.setTask s n t).pmc = s.pmc ∧ (State.setTask s n t).fwLog = s.fwLog ∧ (State.setTask s n t).out = s.out ∧ (State.setTask s n t).free = s.free ∧ (State.setTask s n t).fabric = s.fabric ∧ (State.setTask s n t).files = s.files := by
  generalize h : State.setTask s n t = u
  unfold State.setTask at h
  rw [← h]; simp [kept @State.setSlice_fr]

theorem State.setDesc_fr (s : State) (d : Desc) : (State.setDesc s d).pending = s.pending ∧ (State.setDesc s d).flash = s.flash ∧ (State.setDesc s d).coldOpt = s.coldOpt ∧ (State.setDesc s d).mem = s.mem ∧ (State.setDesc s d).harts = s.harts ∧ (State.setDesc s d).mram = s.mram ∧ (State.setDesc s d).imsic = s.imsic ∧ (State.setDesc s d).dm = s.dm ∧ (State.setDesc s d).fx = s.fx ∧ (State.setDesc s d).ctu = s.ctu ∧ (State.setDesc s d).links = s.links ∧ (State.setDesc s d).aplicS = s.aplicS ∧ (State.setDesc s d).aplicN = s.aplicN ∧ (State.setDesc s d).credits = s.credits ∧ (State.setDesc s d).clusters = s.clusters ∧ (State.setDesc s d).homes = s.homes ∧ (State.setDesc s d).pkts = s.pkts ∧ (State.setDesc s d).resp = s.resp ∧ (State.setDesc s d).regs = s.regs ∧ (State.setDesc s d).wires = s.wires ∧ (State.setDesc s d).dmg = s.dmg ∧ (State.setDesc s d).wq = s.wq ∧ (State.setDesc s d).net = s.net ∧ (State.setDesc s d).dbInval = s.dbInval ∧ (State.setDesc s d).watch = s.watch ∧ (State.setDesc s d).pkg = s.pkg ∧ (State.setDesc s d).pmc = s.pmc ∧ (State.setDesc s d).fwLog = s.fwLog ∧ (State.setDesc s d).out = s.out ∧ (State.setDesc s d).free = s.free ∧ (State.setDesc s d).fabric = s.fabric ∧ (State.setDesc s d).files = s.files := by
  generalize h : State.setDesc s d = u
  unfold State.setDesc at h
  rw [← h]; simp [kept @State.eng'_fr]

theorem State.updDesc_fr (s : State) (ring : Nat) (seq : Nat) (f : Desc → Desc) : (State.updDesc s ring seq f).pending = s.pending ∧ (State.updDesc s ring seq f).flash = s.flash ∧ (State.updDesc s ring seq f).coldOpt = s.coldOpt ∧ (State.updDesc s ring seq f).mem = s.mem ∧ (State.updDesc s ring seq f).harts = s.harts ∧ (State.updDesc s ring seq f).mram = s.mram ∧ (State.updDesc s ring seq f).imsic = s.imsic ∧ (State.updDesc s ring seq f).dm = s.dm ∧ (State.updDesc s ring seq f).fx = s.fx ∧ (State.updDesc s ring seq f).ctu = s.ctu ∧ (State.updDesc s ring seq f).links = s.links ∧ (State.updDesc s ring seq f).aplicS = s.aplicS ∧ (State.updDesc s ring seq f).aplicN = s.aplicN ∧ (State.updDesc s ring seq f).credits = s.credits ∧ (State.updDesc s ring seq f).clusters = s.clusters ∧ (State.updDesc s ring seq f).homes = s.homes ∧ (State.updDesc s ring seq f).pkts = s.pkts ∧ (State.updDesc s ring seq f).resp = s.resp ∧ (State.updDesc s ring seq f).regs = s.regs ∧ (State.updDesc s ring seq f).wires = s.wires ∧ (State.updDesc s ring seq f).dmg = s.dmg ∧ (State.updDesc s ring seq f).wq = s.wq ∧ (State.updDesc s ring seq f).net = s.net ∧ (State.updDesc s ring seq f).dbInval = s.dbInval ∧ (State.updDesc s ring seq f).watch = s.watch ∧ (State.updDesc s ring seq f).pkg = s.pkg ∧ (State.updDesc s ring seq f).pmc = s.pmc ∧ (State.updDesc s ring seq f).fwLog = s.fwLog ∧ (State.updDesc s ring seq f).out = s.out ∧ (State.updDesc s ring seq f).free = s.free ∧ (State.updDesc s ring seq f).fabric = s.fabric ∧ (State.updDesc s ring seq f).files = s.files := by
  generalize h : State.updDesc s ring seq f = u
  unfold State.updDesc at h
  rw [← h]; simp [kept @State.eng'_fr]

theorem State.updRun_fr (s : State) (ring : Nat) (seq : Nat) (f : Run → Run) : (State.updRun s ring seq f).pending = s.pending ∧ (State.updRun s ring seq f).flash = s.flash ∧ (State.updRun s ring seq f).coldOpt = s.coldOpt ∧ (State.updRun s ring seq f).mem = s.mem ∧ (State.updRun s ring seq f).harts = s.harts ∧ (State.updRun s ring seq f).mram = s.mram ∧ (State.updRun s ring seq f).imsic = s.imsic ∧ (State.updRun s ring seq f).dm = s.dm ∧ (State.updRun s ring seq f).fx = s.fx ∧ (State.updRun s ring seq f).ctu = s.ctu ∧ (State.updRun s ring seq f).links = s.links ∧ (State.updRun s ring seq f).aplicS = s.aplicS ∧ (State.updRun s ring seq f).aplicN = s.aplicN ∧ (State.updRun s ring seq f).credits = s.credits ∧ (State.updRun s ring seq f).clusters = s.clusters ∧ (State.updRun s ring seq f).homes = s.homes ∧ (State.updRun s ring seq f).pkts = s.pkts ∧ (State.updRun s ring seq f).resp = s.resp ∧ (State.updRun s ring seq f).regs = s.regs ∧ (State.updRun s ring seq f).wires = s.wires ∧ (State.updRun s ring seq f).dmg = s.dmg ∧ (State.updRun s ring seq f).wq = s.wq ∧ (State.updRun s ring seq f).net = s.net ∧ (State.updRun s ring seq f).dbInval = s.dbInval ∧ (State.updRun s ring seq f).watch = s.watch ∧ (State.updRun s ring seq f).pkg = s.pkg ∧ (State.updRun s ring seq f).pmc = s.pmc ∧ (State.updRun s ring seq f).fwLog = s.fwLog ∧ (State.updRun s ring seq f).out = s.out ∧ (State.updRun s ring seq f).free = s.free ∧ (State.updRun s ring seq f).fabric = s.fabric ∧ (State.updRun s ring seq f).files = s.files := by
  generalize h : State.updRun s ring seq f = u
  unfold State.updRun at h
  rw [← h]; simp [kept @State.updDesc_fr]

theorem State.setRing_fr (s : State) (n : Nat) (x : RingSt) : (State.setRing s n x).pending = s.pending ∧ (State.setRing s n x).flash = s.flash ∧ (State.setRing s n x).coldOpt = s.coldOpt ∧ (State.setRing s n x).mem = s.mem ∧ (State.setRing s n x).harts = s.harts ∧ (State.setRing s n x).mram = s.mram ∧ (State.setRing s n x).imsic = s.imsic ∧ (State.setRing s n x).dm = s.dm ∧ (State.setRing s n x).fx = s.fx ∧ (State.setRing s n x).ctu = s.ctu ∧ (State.setRing s n x).links = s.links ∧ (State.setRing s n x).aplicS = s.aplicS ∧ (State.setRing s n x).aplicN = s.aplicN ∧ (State.setRing s n x).credits = s.credits ∧ (State.setRing s n x).clusters = s.clusters ∧ (State.setRing s n x).homes = s.homes ∧ (State.setRing s n x).pkts = s.pkts ∧ (State.setRing s n x).resp = s.resp ∧ (State.setRing s n x).regs = s.regs ∧ (State.setRing s n x).wires = s.wires ∧ (State.setRing s n x).dmg = s.dmg ∧ (State.setRing s n x).wq = s.wq ∧ (State.setRing s n x).net = s.net ∧ (State.setRing s n x).dbInval = s.dbInval ∧ (State.setRing s n x).watch = s.watch ∧ (State.setRing s n x).pkg = s.pkg ∧ (State.setRing s n x).pmc = s.pmc ∧ (State.setRing s n x).fwLog = s.fwLog ∧ (State.setRing s n x).out = s.out ∧ (State.setRing s n x).free = s.free ∧ (State.setRing s n x).fabric = s.fabric ∧ (State.setRing s n x).files = s.files := by
  generalize h : State.setRing s n x = u
  unfold State.setRing at h
  rw [← h]; simp [kept @State.eng'_fr]

theorem State.setCtx_fr (s : State) (c : Nat) (x : CtxSt) : (State.setCtx s c x).pending = s.pending ∧ (State.setCtx s c x).flash = s.flash ∧ (State.setCtx s c x).coldOpt = s.coldOpt ∧ (State.setCtx s c x).mem = s.mem ∧ (State.setCtx s c x).harts = s.harts ∧ (State.setCtx s c x).mram = s.mram ∧ (State.setCtx s c x).imsic = s.imsic ∧ (State.setCtx s c x).dm = s.dm ∧ (State.setCtx s c x).fx = s.fx ∧ (State.setCtx s c x).ctu = s.ctu ∧ (State.setCtx s c x).links = s.links ∧ (State.setCtx s c x).aplicS = s.aplicS ∧ (State.setCtx s c x).aplicN = s.aplicN ∧ (State.setCtx s c x).credits = s.credits ∧ (State.setCtx s c x).clusters = s.clusters ∧ (State.setCtx s c x).homes = s.homes ∧ (State.setCtx s c x).pkts = s.pkts ∧ (State.setCtx s c x).resp = s.resp ∧ (State.setCtx s c x).regs = s.regs ∧ (State.setCtx s c x).wires = s.wires ∧ (State.setCtx s c x).dmg = s.dmg ∧ (State.setCtx s c x).wq = s.wq ∧ (State.setCtx s c x).net = s.net ∧ (State.setCtx s c x).dbInval = s.dbInval ∧ (State.setCtx s c x).watch = s.watch ∧ (State.setCtx s c x).pkg = s.pkg ∧ (State.setCtx s c x).pmc = s.pmc ∧ (State.setCtx s c x).fwLog = s.fwLog ∧ (State.setCtx s c x).out = s.out ∧ (State.setCtx s c x).free = s.free ∧ (State.setCtx s c x).fabric = s.fabric ∧ (State.setCtx s c x).files = s.files := by
  generalize h : State.setCtx s c x = u
  unfold State.setCtx at h
  rw [← h]; simp [kept @State.eng'_fr]

theorem State.pendCtx_fr (s : State) (reg : Nat → Nat) (c : Nat) : (State.pendCtx s reg c).pending = s.pending ∧ (State.pendCtx s reg c).flash = s.flash ∧ (State.pendCtx s reg c).coldOpt = s.coldOpt ∧ (State.pendCtx s reg c).mem = s.mem ∧ (State.pendCtx s reg c).harts = s.harts ∧ (State.pendCtx s reg c).mram = s.mram ∧ (State.pendCtx s reg c).imsic = s.imsic ∧ (State.pendCtx s reg c).eng = s.eng ∧ (State.pendCtx s reg c).dm = s.dm ∧ (State.pendCtx s reg c).fx = s.fx ∧ (State.pendCtx s reg c).ctu = s.ctu ∧ (State.pendCtx s reg c).links = s.links ∧ (State.pendCtx s reg c).aplicS = s.aplicS ∧ (State.pendCtx s reg c).aplicN = s.aplicN ∧ (State.pendCtx s reg c).credits = s.credits ∧ (State.pendCtx s reg c).clusters = s.clusters ∧ (State.pendCtx s reg c).homes = s.homes ∧ (State.pendCtx s reg c).pkts = s.pkts ∧ (State.pendCtx s reg c).resp = s.resp ∧ (State.pendCtx s reg c).wires = s.wires ∧ (State.pendCtx s reg c).dmg = s.dmg ∧ (State.pendCtx s reg c).wq = s.wq ∧ (State.pendCtx s reg c).net = s.net ∧ (State.pendCtx s reg c).dbInval = s.dbInval ∧ (State.pendCtx s reg c).watch = s.watch ∧ (State.pendCtx s reg c).pkg = s.pkg ∧ (State.pendCtx s reg c).pmc = s.pmc ∧ (State.pendCtx s reg c).fwLog = s.fwLog ∧ (State.pendCtx s reg c).out = s.out ∧ (State.pendCtx s reg c).free = s.free ∧ (State.pendCtx s reg c).fabric = s.fabric ∧ (State.pendCtx s reg c).files = s.files := by
  generalize h : State.pendCtx s reg c = u
  unfold State.pendCtx at h
  rw [← h]; simp [kept @State.wrW_fr]

theorem State.fxForget_fr (s : State) (n : Nat) : (State.fxForget s n).pending = s.pending ∧ (State.fxForget s n).flash = s.flash ∧ (State.fxForget s n).coldOpt = s.coldOpt ∧ (State.fxForget s n).mem = s.mem ∧ (State.fxForget s n).harts = s.harts ∧ (State.fxForget s n).mram = s.mram ∧ (State.fxForget s n).imsic = s.imsic ∧ (State.fxForget s n).eng = s.eng ∧ (State.fxForget s n).dm = s.dm ∧ (State.fxForget s n).ctu = s.ctu ∧ (State.fxForget s n).links = s.links ∧ (State.fxForget s n).aplicS = s.aplicS ∧ (State.fxForget s n).aplicN = s.aplicN ∧ (State.fxForget s n).credits = s.credits ∧ (State.fxForget s n).clusters = s.clusters ∧ (State.fxForget s n).homes = s.homes ∧ (State.fxForget s n).pkts = s.pkts ∧ (State.fxForget s n).resp = s.resp ∧ (State.fxForget s n).regs = s.regs ∧ (State.fxForget s n).wires = s.wires ∧ (State.fxForget s n).dmg = s.dmg ∧ (State.fxForget s n).wq = s.wq ∧ (State.fxForget s n).net = s.net ∧ (State.fxForget s n).dbInval = s.dbInval ∧ (State.fxForget s n).watch = s.watch ∧ (State.fxForget s n).pkg = s.pkg ∧ (State.fxForget s n).pmc = s.pmc ∧ (State.fxForget s n).fwLog = s.fwLog ∧ (State.fxForget s n).out = s.out ∧ (State.fxForget s n).free = s.free ∧ (State.fxForget s n).fabric = s.fabric ∧ (State.fxForget s n).files = s.files := by
  generalize h : State.fxForget s n = u
  unfold State.fxForget at h
  (try dsimp only at h); (repeat' split at h) <;> rw [← h] <;> simp [kept @State.setPort_fr]

theorem State.ringError_fr (s : State) (n : Nat) (cause : Nat) : (State.ringError s n cause).pending = s.pending ∧ (State.ringError s n cause).flash = s.flash ∧ (State.ringError s n cause).coldOpt = s.coldOpt ∧ (State.ringError s n cause).mem = s.mem ∧ (State.ringError s n cause).harts = s.harts ∧ (State.ringError s n cause).mram = s.mram ∧ (State.ringError s n cause).imsic = s.imsic ∧ (State.ringError s n cause).eng = s.eng ∧ (State.ringError s n cause).dm = s.dm ∧ (State.ringError s n cause).ctu = s.ctu ∧ (State.ringError s n cause).links = s.links ∧ (State.ringError s n cause).aplicS = s.aplicS ∧ (State.ringError s n cause).aplicN = s.aplicN ∧ (State.ringError s n cause).credits = s.credits ∧ (State.ringError s n cause).clusters = s.clusters ∧ (State.ringError s n cause).homes = s.homes ∧ (State.ringError s n cause).pkts = s.pkts ∧ (State.ringError s n cause).resp = s.resp ∧ (State.ringError s n cause).wires = s.wires ∧ (State.ringError s n cause).dmg = s.dmg ∧ (State.ringError s n cause).wq = s.wq ∧ (State.ringError s n cause).net = s.net ∧ (State.ringError s n cause).dbInval = s.dbInval ∧ (State.ringError s n cause).watch = s.watch ∧ (State.ringError s n cause).pkg = s.pkg ∧ (State.ringError s n cause).pmc = s.pmc ∧ (State.ringError s n cause).fwLog = s.fwLog ∧ (State.ringError s n cause).free = s.free ∧ (State.ringError s n cause).fabric = s.fabric ∧ (State.ringError s n cause).files = s.files := by
  generalize h : State.ringError s n cause = u
  unfold State.ringError at h
  (try dsimp only at h); (repeat' split at h) <;> rw [← h] <;> simp [kept @State.fxForget_fr, kept @State.fxRingError_fr, kept @State.pendCtx_fr, kept @State.wrs_fr]

@[simp] theorem fail_pending {α : Type} (st a : Nat) : KeepsM State.pending (fail st a : EM α) := fun _ => rfl

@[simp] theorem fail_files {α : Type} (st a : Nat) : KeepsM State.files (fail st a : EM α) := fun _ => rfl

@[simp] theorem fail_fabric {α : Type} (st a : Nat) : KeepsM State.fabric (fail st a : EM α) := fun _ => rfl

@[simp] theorem fail_flash {α : Type} (st a : Nat) : KeepsM State.flash (fail st a : EM α) := fun _ => rfl

@[simp] theorem fail_coldOpt {α : Type} (st a : Nat) : KeepsM State.coldOpt (fail st a : EM α) := fun _ => rfl

@[simp] theorem fail_mem {α : Type} (st a : Nat) : KeepsM State.mem (fail st a : EM α) := fun _ => rfl

@[simp] theorem fail_harts {α : Type} (st a : Nat) : KeepsM State.harts (fail st a : EM α) := fun _ => rfl

@[simp] theorem fail_mram {α : Type} (st a : Nat) : KeepsM State.mram (fail st a : EM α) := fun _ => rfl

@[simp] theorem fail_imsic {α : Type} (st a : Nat) : KeepsM State.imsic (fail st a : EM α) := fun _ => rfl

@[simp] theorem fail_eng {α : Type} (st a : Nat) : KeepsM State.eng (fail st a : EM α) := fun _ => rfl

@[simp] theorem fail_dm {α : Type} (st a : Nat) : KeepsM State.dm (fail st a : EM α) := fun _ => rfl

@[simp] theorem fail_fx {α : Type} (st a : Nat) : KeepsM State.fx (fail st a : EM α) := fun _ => rfl

@[simp] theorem fail_ctu {α : Type} (st a : Nat) : KeepsM State.ctu (fail st a : EM α) := fun _ => rfl

@[simp] theorem fail_links {α : Type} (st a : Nat) : KeepsM State.links (fail st a : EM α) := fun _ => rfl

@[simp] theorem fail_aplicS {α : Type} (st a : Nat) : KeepsM State.aplicS (fail st a : EM α) := fun _ => rfl

@[simp] theorem fail_aplicN {α : Type} (st a : Nat) : KeepsM State.aplicN (fail st a : EM α) := fun _ => rfl

@[simp] theorem fail_credits {α : Type} (st a : Nat) : KeepsM State.credits (fail st a : EM α) := fun _ => rfl

@[simp] theorem fail_clusters {α : Type} (st a : Nat) : KeepsM State.clusters (fail st a : EM α) := fun _ => rfl

@[simp] theorem fail_homes {α : Type} (st a : Nat) : KeepsM State.homes (fail st a : EM α) := fun _ => rfl

@[simp] theorem fail_pkts {α : Type} (st a : Nat) : KeepsM State.pkts (fail st a : EM α) := fun _ => rfl

@[simp] theorem fail_resp {α : Type} (st a : Nat) : KeepsM State.resp (fail st a : EM α) := fun _ => rfl

@[simp] theorem fail_regs {α : Type} (st a : Nat) : KeepsM State.regs (fail st a : EM α) := fun _ => rfl

@[simp] theorem fail_wires {α : Type} (st a : Nat) : KeepsM State.wires (fail st a : EM α) := fun _ => rfl

@[simp] theorem fail_dmg {α : Type} (st a : Nat) : KeepsM State.dmg (fail st a : EM α) := fun _ => rfl

@[simp] theorem fail_wq {α : Type} (st a : Nat) : KeepsM State.wq (fail st a : EM α) := fun _ => rfl

@[simp] theorem fail_net {α : Type} (st a : Nat) : KeepsM State.net (fail st a : EM α) := fun _ => rfl

@[simp] theorem fail_dbInval {α : Type} (st a : Nat) : KeepsM State.dbInval (fail st a : EM α) := fun _ => rfl

@[simp] theorem fail_watch {α : Type} (st a : Nat) : KeepsM State.watch (fail st a : EM α) := fun _ => rfl

@[simp] theorem fail_pkg {α : Type} (st a : Nat) : KeepsM State.pkg (fail st a : EM α) := fun _ => rfl

@[simp] theorem fail_pmc {α : Type} (st a : Nat) : KeepsM State.pmc (fail st a : EM α) := fun _ => rfl

@[simp] theorem fail_fwLog {α : Type} (st a : Nat) : KeepsM State.fwLog (fail st a : EM α) := fun _ => rfl

@[simp] theorem fail_out {α : Type} (st a : Nat) : KeepsM State.out (fail st a : EM α) := fun _ => rfl

@[simp] theorem fail_free {α : Type} (st a : Nat) : KeepsM State.free (fail st a : EM α) := fun _ => rfl

@[simp] theorem fail_beside {α : Type} (st a : Nat) : KeepsM State.beside (fail st a : EM α) := fun _ => rfl

@[simp] theorem fail_apart {α : Type} (st a : Nat) : KeepsM State.apart (fail st a : EM α) := fun _ => rfl

@[simp] theorem ensure_beside (b : Bool) (status : Nat) (addr : Nat) : KeepsM State.beside (ensure b status addr) := by
  unfold ensure; (repeat' (first | with_reducible exact keepsM_pure _ _ | with_reducible exact keepsM_throw _ _ | with_reducible exact keepsM_get _ | with_reducible refine keepsM_bind ?_ (fun _ => ?_) | with_reducible refine keepsM_mapM (fun _ => ?_) _ | with_reducible refine keepsM_forM (fun _ => ?_) _ | with_reducible refine keepsM_foldlM (fun _ _ => ?_) _ _ | with_reducible refine doSt_keeps _ (fun _ => ?_) | with_reducible refine askSt_keeps _ (fun _ => ?_) | (simp; done) | (simp [*]; done) | split | dsimp only))

@[simp] theorem ensure_apart (b : Bool) (status : Nat) (addr : Nat) : KeepsM State.apart (ensure b status addr) := by
  unfold ensure; (repeat' (first | with_reducible exact keepsM_pure _ _ | with_reducible exact keepsM_throw _ _ | with_reducible exact keepsM_get _ | with_reducible refine keepsM_bind ?_ (fun _ => ?_) | with_reducible refine keepsM_mapM (fun _ => ?_) _ | with_reducible refine keepsM_forM (fun _ => ?_) _ | with_reducible refine keepsM_foldlM (fun _ _ => ?_) _ _ | with_reducible refine doSt_keeps _ (fun _ => ?_) | with_reducible refine askSt_keeps _ (fun _ => ?_) | (simp; done) | (simp [*]; done) | split | dsimp only))

theorem ensure_fr (b : Bool) (status : Nat) (addr : Nat) : KeepsM State.mram (ensure b status addr) ∧ KeepsM State.eng (ensure b status addr) ∧ KeepsM State.regs (ensure b status addr) ∧ KeepsM State.wires (ensure b status addr) ∧ KeepsM State.wq (ensure b status addr) ∧ KeepsM State.pkg (ensure b status addr) ∧ KeepsM State.pmc (ensure b status addr) ∧ KeepsM State.fwLog (ensure b status addr) ∧ KeepsM State.free (ensure b status addr) := by
  refine ⟨?_, ?_, ?_, ?_, ?_, ?_, ?_, ?_, ?_⟩ <;> (unfold ensure; (repeat' (first | with_reducible exact keepsM_pure _ _ | with_reducible exact keepsM_throw _ _ | with_reducible exact keepsM_get _ | with_reducible refine keepsM_bind ?_ (fun _ => ?_) | with_reducible refine keepsM_mapM (fun _ => ?_) _ | with_reducible refine keepsM_forM (fun _ => ?_) _ | with_reducible refine keepsM_foldlM (fun _ _ => ?_) _ _ | with_reducible refine doSt_keeps _ (fun _ => ?_) | with_reducible refine askSt_keeps _ (fun _ => ?_) | (simp; done) | (simp [*]; done) | split | dsimp only)))

theorem doSt_keeps {β : Type} {g : State → β} {ε : Type} (f : State → State) (h : ∀ s, g (f s) = g s) : KeepsM g (doSt f : ExceptT ε (StateM State) Unit) := fun s => h s

theorem State.lookupEte_fr (s : State) (a : Who) (page : Nat) : (State.lookupEte s a page).2.pending = s.pending ∧ (State.lookupEte s a page).2.flash = s.flash ∧ (State.lookupEte s a page).2.coldOpt = s.coldOpt ∧ (State.lookupEte s a page).2.mem = s.mem ∧ (State.lookupEte s a page).2.harts = s.harts ∧ (State.lookupEte s a page).2.mram = s.mram ∧ (State.lookupEte s a page).2.imsic = s.imsic ∧ (State.lookupEte s a page).2.dm = s.dm ∧ (State.lookupEte s a page).2.fx = s.fx ∧ (State.lookupEte s a page).2.ctu = s.ctu ∧ (State.lookupEte s a page).2.links = s.links ∧ (State.lookupEte s a page).2.aplicS = s.aplicS ∧ (State.lookupEte s a page).2.aplicN = s.aplicN ∧ (State.lookupEte s a page).2.credits = s.credits ∧ (State.lookupEte s a page).2.clusters = s.clusters ∧ (State.lookupEte s a page).2.homes = s.homes ∧ (State.lookupEte s a page).2.pkts = s.pkts ∧ (State.lookupEte s a page).2.resp = s.resp ∧ (State.lookupEte s a page).2.wires = s.wires ∧ (State.lookupEte s a page).2.dmg = s.dmg ∧ (State.lookupEte s a page).2.wq = s.wq ∧ (State.lookupEte s a page).2.net = s.net ∧ (State.lookupEte s a page).2.dbInval = s.dbInval ∧ (State.lookupEte s a page).2.watch = s.watch ∧ (State.lookupEte s a page).2.pkg = s.pkg ∧ (State.lookupEte s a page).2.pmc = s.pmc ∧ (State.lookupEte s a page).2.fwLog = s.fwLog ∧ (State.lookupEte s a page).2.out = s.out ∧ (State.lookupEte s a page).2.free = s.free ∧ (State.lookupEte s a page).2.fabric = s.fabric ∧ (State.lookupEte s a page).2.files = s.files := by
  generalize h : (State.lookupEte s a page).2 = u
  unfold State.lookupEte at h
  (try dsimp only at h); (repeat' split at h) <;> rw [← h] <;> simp [kept @State.pmcSlc_fr, kept @State.setSlice_fr]

@[simp] theorem xlate_beside (a : Who) (va : Nat) (write : Bool) : KeepsM State.beside (xlate a va write) := by
  unfold xlate; (repeat' (first | with_reducible exact keepsM_pure _ _ | with_reducible exact keepsM_throw _ _ | with_reducible exact keepsM_get _ | with_reducible refine keepsM_bind ?_ (fun _ => ?_) | with_reducible refine keepsM_mapM (fun _ => ?_) _ | with_reducible refine keepsM_forM (fun _ => ?_) _ | with_reducible refine keepsM_foldlM (fun _ _ => ?_) _ _ | with_reducible refine doSt_keeps _ (fun _ => ?_) | with_reducible refine askSt_keeps _ (fun _ => ?_) | (simp [kept @State.lookupEte_fr, kept @ensure_fr]; done) | (simp [*, kept @State.lookupEte_fr, kept @ensure_fr]; done) | split | dsimp only))

@[simp] theorem xlate_apart (a : Who) (va : Nat) (write : Bool) : KeepsM State.apart (xlate a va write) := by
  unfold xlate; (repeat' (first | with_reducible exact keepsM_pure _ _ | with_reducible exact keepsM_throw _ _ | with_reducible exact keepsM_get _ | with_reducible refine keepsM_bind ?_ (fun _ => ?_) | with_reducible refine keepsM_mapM (fun _ => ?_) _ | with_reducible refine keepsM_forM (fun _ => ?_) _ | with_reducible refine keepsM_foldlM (fun _ _ => ?_) _ _ | with_reducible refine doSt_keeps _ (fun _ => ?_) | with_reducible refine askSt_keeps _ (fun _ => ?_) | (simp [kept @State.lookupEte_fr, kept @ensure_fr]; done) | (simp [*, kept @State.lookupEte_fr, kept @ensure_fr]; done) | split | dsimp only))

theorem xlate_fr (a : Who) (va : Nat) (write : Bool) : KeepsM State.mram (xlate a va write) ∧ KeepsM State.wires (xlate a va write) ∧ KeepsM State.wq (xlate a va write) ∧ KeepsM State.pkg (xlate a va write) ∧ KeepsM State.pmc (xlate a va write) ∧ KeepsM State.fwLog (xlate a va write) ∧ KeepsM State.free (xlate a va write) := by
  refine ⟨?_, ?_, ?_, ?_, ?_, ?_, ?_⟩ <;> (unfold xlate; (repeat' (first | with_reducible exact keepsM_pure _ _ | with_reducible exact keepsM_throw _ _ | with_reducible exact keepsM_get _ | with_reducible refine keepsM_bind ?_ (fun _ => ?_) | with_reducible refine keepsM_mapM (fun _ => ?_) _ | with_reducible refine keepsM_forM (fun _ => ?_) _ | with_reducible refine keepsM_foldlM (fun _ _ => ?_) _ _ | with_reducible refine doSt_keeps _ (fun _ => ?_) | with_reducible refine askSt_keeps _ (fun _ => ?_) | (simp [kept @State.lookupEte_fr, kept @ensure_fr]; done) | (simp [*, kept @State.lookupEte_fr, kept @ensure_fr]; done) | split | dsimp only)))

@[simp] theorem preadP_beside (ctx : Nat) (pa : Nat) (n : Nat) (va : Nat) : KeepsM State.beside (preadP ctx pa n va) := by
  unfold preadP; (repeat' (first | with_reducible exact keepsM_pure _ _ | with_reducible exact keepsM_throw _ _ | with_reducible exact keepsM_get _ | with_reducible refine keepsM_bind ?_ (fun _ => ?_) | with_reducible refine keepsM_mapM (fun _ => ?_) _ | with_reducible refine keepsM_forM (fun _ => ?_) _ | with_reducible refine keepsM_foldlM (fun _ _ => ?_) _ _ | with_reducible refine doSt_keeps _ (fun _ => ?_) | with_reducible refine askSt_keeps _ (fun _ => ?_) | (simp [kept @State.readPa_fr, kept @ensure_fr]; done) | (simp [*, kept @State.readPa_fr, kept @ensure_fr]; done) | split | dsimp only))

@[simp] theorem preadP_apart (ctx : Nat) (pa : Nat) (n : Nat) (va : Nat) : KeepsM State.apart (preadP ctx pa n va) := by
  unfold preadP; (repeat' (first | with_reducible exact keepsM_pure _ _ | with_reducible exact keepsM_throw _ _ | with_reducible exact keepsM_get _ | with_reducible refine keepsM_bind ?_ (fun _ => ?_) | with_reducible refine keepsM_mapM (fun _ => ?_) _ | with_reducible refine keepsM_forM (fun _ => ?_) _ | with_reducible refine keepsM_foldlM (fun _ _ => ?_) _ _ | with_reducible refine doSt_keeps _ (fun _ => ?_) | with_reducible refine askSt_keeps _ (fun _ => ?_) | (simp [kept @State.readPa_fr, kept @ensure_fr]; done) | (simp [*, kept @State.readPa_fr, kept @ensure_fr]; done) | split | dsimp only))

theorem preadP_fr (ctx : Nat) (pa : Nat) (n : Nat) (va : Nat) : KeepsM State.eng (preadP ctx pa n va) ∧ KeepsM State.free (preadP ctx pa n va) := by
  refine ⟨?_, ?_⟩ <;> (unfold preadP; (repeat' (first | with_reducible exact keepsM_pure _ _ | with_reducible exact keepsM_throw _ _ | with_reducible exact keepsM_get _ | with_reducible refine keepsM_bind ?_ (fun _ => ?_) | with_reducible refine keepsM_mapM (fun _ => ?_) _ | with_reducible refine keepsM_forM (fun _ => ?_) _ | with_reducible refine keepsM_foldlM (fun _ _ => ?_) _ _ | with_reducible refine doSt_keeps _ (fun _ => ?_) | with_reducible refine askSt_keeps _ (fun _ => ?_) | (simp [kept @State.readPa_fr, kept @ensure_fr]; done) | (simp [*, kept @State.readPa_fr, kept @ensure_fr]; done) | split | dsimp only)))

@[simp] theorem pread_beside (ctx : Nat) (pa : Nat) (n : Nat) (va : Nat) : KeepsM State.beside (pread ctx pa n va) := by
  unfold pread; (repeat' (first | with_reducible exact keepsM_pure _ _ | with_reducible exact keepsM_throw _ _ | with_reducible exact keepsM_get _ | with_reducible refine keepsM_bind ?_ (fun _ => ?_) | with_reducible refine keepsM_mapM (fun _ => ?_) _ | with_reducible refine keepsM_forM (fun _ => ?_) _ | with_reducible refine keepsM_foldlM (fun _ _ => ?_) _ _ | with_reducible refine doSt_keeps _ (fun _ => ?_) | with_reducible refine askSt_keeps _ (fun _ => ?_) | (simp [kept @ensure_fr, kept @preadP_fr]; done) | (simp [*, kept @ensure_fr, kept @preadP_fr]; done) | split | dsimp only))

@[simp] theorem pread_apart (ctx : Nat) (pa : Nat) (n : Nat) (va : Nat) : KeepsM State.apart (pread ctx pa n va) := by
  unfold pread; (repeat' (first | with_reducible exact keepsM_pure _ _ | with_reducible exact keepsM_throw _ _ | with_reducible exact keepsM_get _ | with_reducible refine keepsM_bind ?_ (fun _ => ?_) | with_reducible refine keepsM_mapM (fun _ => ?_) _ | with_reducible refine keepsM_forM (fun _ => ?_) _ | with_reducible refine keepsM_foldlM (fun _ _ => ?_) _ _ | with_reducible refine doSt_keeps _ (fun _ => ?_) | with_reducible refine askSt_keeps _ (fun _ => ?_) | (simp [kept @ensure_fr, kept @preadP_fr]; done) | (simp [*, kept @ensure_fr, kept @preadP_fr]; done) | split | dsimp only))

theorem pread_fr (ctx : Nat) (pa : Nat) (n : Nat) (va : Nat) : KeepsM State.eng (pread ctx pa n va) ∧ KeepsM State.free (pread ctx pa n va) := by
  refine ⟨?_, ?_⟩ <;> (unfold pread; (repeat' (first | with_reducible exact keepsM_pure _ _ | with_reducible exact keepsM_throw _ _ | with_reducible exact keepsM_get _ | with_reducible refine keepsM_bind ?_ (fun _ => ?_) | with_reducible refine keepsM_mapM (fun _ => ?_) _ | with_reducible refine keepsM_forM (fun _ => ?_) _ | with_reducible refine keepsM_foldlM (fun _ _ => ?_) _ _ | with_reducible refine doSt_keeps _ (fun _ => ?_) | with_reducible refine askSt_keeps _ (fun _ => ?_) | (simp [kept @ensure_fr, kept @preadP_fr]; done) | (simp [*, kept @ensure_fr, kept @preadP_fr]; done) | split | dsimp only)))

@[simp] theorem pwrite_beside (ctx : Nat) (pa : Nat) (l : List Byte) (va : Nat) : KeepsM State.beside (pwrite ctx pa l va) := by
  unfold pwrite; (repeat' (first | with_reducible exact keepsM_pure _ _ | with_reducible exact keepsM_throw _ _ | with_reducible exact keepsM_get _ | with_reducible refine keepsM_bind ?_ (fun _ => ?_) | with_reducible refine keepsM_mapM (fun _ => ?_) _ | with_reducible refine keepsM_forM (fun _ => ?_) _ | with_reducible refine keepsM_foldlM (fun _ _ => ?_) _ _ | with_reducible refine doSt_keeps _ (fun _ => ?_) | with_reducible refine askSt_keeps _ (fun _ => ?_) | (simp [kept @State.writePa_fr, kept @ensure_fr]; done) | (simp [*, kept @State.writePa_fr, kept @ensure_fr]; done) | split | dsimp only))

theorem pwrite_fr (ctx : Nat) (pa : Nat) (l : List Byte) (va : Nat) : KeepsM State.eng (pwrite ctx pa l va) ∧ KeepsM State.dm (pwrite ctx pa l va) ∧ KeepsM State.free (pwrite ctx pa l va) := by
  refine ⟨?_, ?_, ?_⟩ <;> (unfold pwrite; (repeat' (first | with_reducible exact keepsM_pure _ _ | with_reducible exact keepsM_throw _ _ | with_reducible exact keepsM_get _ | with_reducible refine keepsM_bind ?_ (fun _ => ?_) | with_reducible refine keepsM_mapM (fun _ => ?_) _ | with_reducible refine keepsM_forM (fun _ => ?_) _ | with_reducible refine keepsM_foldlM (fun _ _ => ?_) _ _ | with_reducible refine doSt_keeps _ (fun _ => ?_) | with_reducible refine askSt_keeps _ (fun _ => ?_) | (simp [kept @State.writePa_fr, kept @ensure_fr]; done) | (simp [*, kept @State.writePa_fr, kept @ensure_fr]; done) | split | dsimp only)))

@[simp] theorem vread_beside (a : Who) (va : Nat) (n : Nat) : KeepsM State.beside (vread a va n) := by
  unfold vread; (repeat' (first | with_reducible exact keepsM_pure _ _ | with_reducible exact keepsM_throw _ _ | with_reducible exact keepsM_get _ | with_reducible refine keepsM_bind ?_ (fun _ => ?_) | with_reducible refine keepsM_mapM (fun _ => ?_) _ | with_reducible refine keepsM_forM (fun _ => ?_) _ | with_reducible refine keepsM_foldlM (fun _ _ => ?_) _ _ | with_reducible refine doSt_keeps _ (fun _ => ?_) | with_reducible refine askSt_keeps _ (fun _ => ?_) | (simp [kept @pread_fr, kept @xlate_fr]; done) | (simp [*, kept @pread_fr, kept @xlate_fr]; done) | split | dsimp only))

@[simp] theorem vread_apart (a : Who) (va : Nat) (n : Nat) : KeepsM State.apart (vread a va n) := by
  unfold vread; (repeat' (first | with_reducible exact keepsM_pure _ _ | with_reducible exact keepsM_throw _ _ | with_reducible exact keepsM_get _ | with_reducible refine keepsM_bind ?_ (fun _ => ?_) | with_reducible refine keepsM_mapM (fun _ => ?_) _ | with_reducible refine keepsM_forM (fun _ => ?_) _ | with_reducible refine keepsM_foldlM (fun _ _ => ?_) _ _ | with_reducible refine doSt_keeps _ (fun _ => ?_) | with_reducible refine askSt_keeps _ (fun _ => ?_) | (simp [kept @pread_fr, kept @xlate_fr]; done) | (simp [*, kept @pread_fr, kept @xlate_fr]; done) | split | dsimp only))

theorem vread_fr (a : Who) (va : Nat) (n : Nat) : KeepsM State.free (vread a va n) := by
  unfold vread; (repeat' (first | with_reducible exact keepsM_pure _ _ | with_reducible exact keepsM_throw _ _ | with_reducible exact keepsM_get _ | with_reducible refine keepsM_bind ?_ (fun _ => ?_) | with_reducible refine keepsM_mapM (fun _ => ?_) _ | with_reducible refine keepsM_forM (fun _ => ?_) _ | with_reducible refine keepsM_foldlM (fun _ _ => ?_) _ _ | with_reducible refine doSt_keeps _ (fun _ => ?_) | with_reducible refine askSt_keeps _ (fun _ => ?_) | (simp [kept @pread_fr, kept @xlate_fr]; done) | (simp [*, kept @pread_fr, kept @xlate_fr]; done) | split | dsimp only))

@[simp] theorem vreadP_beside (a : Who) (va : Nat) (n : Nat) : KeepsM State.beside (vreadP a va n) := by
  unfold vreadP; (repeat' (first | with_reducible exact keepsM_pure _ _ | with_reducible exact keepsM_throw _ _ | with_reducible exact keepsM_get _ | with_reducible refine keepsM_bind ?_ (fun _ => ?_) | with_reducible refine keepsM_mapM (fun _ => ?_) _ | with_reducible refine keepsM_forM (fun _ => ?_) _ | with_reducible refine keepsM_foldlM (fun _ _ => ?_) _ _ | with_reducible refine doSt_keeps _ (fun _ => ?_) | with_reducible refine askSt_keeps _ (fun _ => ?_) | (simp [kept @preadP_fr, kept @xlate_fr]; done) | (simp [*, kept @preadP_fr, kept @xlate_fr]; done) | split | dsimp only))

@[simp] theorem vreadP_apart (a : Who) (va : Nat) (n : Nat) : KeepsM State.apart (vreadP a va n) := by
  unfold vreadP; (repeat' (first | with_reducible exact keepsM_pure _ _ | with_reducible exact keepsM_throw _ _ | with_reducible exact keepsM_get _ | with_reducible refine keepsM_bind ?_ (fun _ => ?_) | with_reducible refine keepsM_mapM (fun _ => ?_) _ | with_reducible refine keepsM_forM (fun _ => ?_) _ | with_reducible refine keepsM_foldlM (fun _ _ => ?_) _ _ | with_reducible refine doSt_keeps _ (fun _ => ?_) | with_reducible refine askSt_keeps _ (fun _ => ?_) | (simp [kept @preadP_fr, kept @xlate_fr]; done) | (simp [*, kept @preadP_fr, kept @xlate_fr]; done) | split | dsimp only))

theorem vreadP_fr (a : Who) (va : Nat) (n : Nat) : KeepsM State.free (vreadP a va n) := by
  unfold vreadP; (repeat' (first | with_reducible exact keepsM_pure _ _ | with_reducible exact keepsM_throw _ _ | with_reducible exact keepsM_get _ | with_reducible refine keepsM_bind ?_ (fun _ => ?_) | with_reducible refine keepsM_mapM (fun _ => ?_) _ | with_reducible refine keepsM_forM (fun _ => ?_) _ | with_reducible refine keepsM_foldlM (fun _ _ => ?_) _ _ | with_reducible refine doSt_keeps _ (fun _ => ?_) | with_reducible refine askSt_keeps _ (fun _ => ?_) | (simp [kept @preadP_fr, kept @xlate_fr]; done) | (simp [*, kept @preadP_fr, kept @xlate_fr]; done) | split | dsimp only))

@[simp] theorem preWrite_beside (a : Who) (va : Nat) (n : Nat) : KeepsM State.beside (preWrite a va n) := by
  unfold preWrite; (repeat' (first | with_reducible exact keepsM_pure _ _ | with_reducible exact keepsM_throw _ _ | with_reducible exact keepsM_get _ | with_reducible refine keepsM_bind ?_ (fun _ => ?_) | with_reducible refine keepsM_mapM (fun _ => ?_) _ | with_reducible refine keepsM_forM (fun _ => ?_) _ | with_reducible refine keepsM_foldlM (fun _ _ => ?_) _ _ | with_reducible refine doSt_keeps _ (fun _ => ?_) | with_reducible refine askSt_keeps _ (fun _ => ?_) | (simp [kept @xlate_fr]; done) | (simp [*, kept @xlate_fr]; done) | split | dsimp only))

@[simp] theorem preWrite_apart (a : Who) (va : Nat) (n : Nat) : KeepsM State.apart (preWrite a va n) := by
  unfold preWrite; (repeat' (first | with_reducible exact keepsM_pure _ _ | with_reducible exact keepsM_throw _ _ | with_reducible exact keepsM_get _ | with_reducible refine keepsM_bind ?_ (fun _ => ?_) | with_reducible refine keepsM_mapM (fun _ => ?_) _ | with_reducible refine keepsM_forM (fun _ => ?_) _ | with_reducible refine keepsM_foldlM (fun _ _ => ?_) _ _ | with_reducible refine doSt_keeps _ (fun _ => ?_) | with_reducible refine askSt_keeps _ (fun _ => ?_) | (simp [kept @xlate_fr]; done) | (simp [*, kept @xlate_fr]; done) | split | dsimp only))

theorem preWrite_fr (a : Who) (va : Nat) (n : Nat) : KeepsM State.mram (preWrite a va n) ∧ KeepsM State.wires (preWrite a va n) ∧ KeepsM State.wq (preWrite a va n) ∧ KeepsM State.pkg (preWrite a va n) ∧ KeepsM State.pmc (preWrite a va n) ∧ KeepsM State.fwLog (preWrite a va n) ∧ KeepsM State.free (preWrite a va n) := by
  refine ⟨?_, ?_, ?_, ?_, ?_, ?_, ?_⟩ <;> (unfold preWrite; (repeat' (first | with_reducible exact keepsM_pure _ _ | with_reducible exact keepsM_throw _ _ | with_reducible exact keepsM_get _ | with_reducible refine keepsM_bind ?_ (fun _ => ?_) | with_reducible refine keepsM_mapM (fun _ => ?_) _ | with_reducible refine keepsM_forM (fun _ => ?_) _ | with_reducible refine keepsM_foldlM (fun _ _ => ?_) _ _ | with_reducible refine doSt_keeps _ (fun _ => ?_) | with_reducible refine askSt_keeps _ (fun _ => ?_) | (simp [kept @xlate_fr]; done) | (simp [*, kept @xlate_fr]; done) | split | dsimp only)))

@[simp] theorem vwrite_beside (a : Who) (va : Nat) (l : List Byte) : KeepsM State.beside (vwrite a va l) := by
  unfold vwrite; (repeat' (first | with_reducible exact keepsM_pure _ _ | with_reducible exact keepsM_throw _ _ | with_reducible exact keepsM_get _ | with_reducible refine keepsM_bind ?_ (fun _ => ?_) | with_reducible refine keepsM_mapM (fun _ => ?_) _ | with_reducible refine keepsM_forM (fun _ => ?_) _ | with_reducible refine keepsM_foldlM (fun _ _ => ?_) _ _ | with_reducible refine doSt_keeps _ (fun _ => ?_) | with_reducible refine askSt_keeps _ (fun _ => ?_) | (simp [kept @pwrite_fr, kept @xlate_fr]; done) | (simp [*, kept @pwrite_fr, kept @xlate_fr]; done) | split | dsimp only))

theorem vwrite_fr (a : Who) (va : Nat) (l : List Byte) : KeepsM State.dm (vwrite a va l) ∧ KeepsM State.free (vwrite a va l) := by
  refine ⟨?_, ?_⟩ <;> (unfold vwrite; (repeat' (first | with_reducible exact keepsM_pure _ _ | with_reducible exact keepsM_throw _ _ | with_reducible exact keepsM_get _ | with_reducible refine keepsM_bind ?_ (fun _ => ?_) | with_reducible refine keepsM_mapM (fun _ => ?_) _ | with_reducible refine keepsM_forM (fun _ => ?_) _ | with_reducible refine keepsM_foldlM (fun _ _ => ?_) _ _ | with_reducible refine doSt_keeps _ (fun _ => ?_) | with_reducible refine askSt_keeps _ (fun _ => ?_) | (simp [kept @pwrite_fr, kept @xlate_fr]; done) | (simp [*, kept @pwrite_fr, kept @xlate_fr]; done) | split | dsimp only)))

theorem State.putFault_fr (s : State) (c : Nat) (fr : List Byte) (ring : Nat) : (State.putFault s c fr ring).pending = s.pending ∧ (State.putFault s c fr ring).flash = s.flash ∧ (State.putFault s c fr ring).coldOpt = s.coldOpt ∧ (State.putFault s c fr ring).imsic = s.imsic ∧ (State.putFault s c fr ring).dm = s.dm ∧ (State.putFault s c fr ring).ctu = s.ctu ∧ (State.putFault s c fr ring).links = s.links ∧ (State.putFault s c fr ring).aplicS = s.aplicS ∧ (State.putFault s c fr ring).aplicN = s.aplicN ∧ (State.putFault s c fr ring).credits = s.credits ∧ (State.putFault s c fr ring).pkts = s.pkts ∧ (State.putFault s c fr ring).resp = s.resp ∧ (State.putFault s c fr ring).free = s.free ∧ (State.putFault s c fr ring).fabric = s.fabric ∧ (State.putFault s c fr ring).files = s.files := by
  generalize h : State.putFault s c fr ring = u
  unfold State.putFault at h
  rw [← h]; simp [kept @State.pendCtx_fr, kept @State.ringError_fr, kept @State.setCtx_fr, kept @State.writePa_fr]

theorem State.dropHeld_fr (s : State) (c : Nat) : (State.dropHeld s c).pending = s.pending ∧ (State.dropHeld s c).flash = s.flash ∧ (State.dropHeld s c).coldOpt = s.coldOpt ∧ (State.dropHeld s c).mem = s.mem ∧ (State.dropHeld s c).harts = s.harts ∧ (State.dropHeld s c).mram = s.mram ∧ (State.dropHeld s c).imsic = s.imsic ∧ (State.dropHeld s c).dm = s.dm ∧ (State.dropHeld s c).fx = s.fx ∧ (State.dropHeld s c).ctu = s.ctu ∧ (State.dropHeld s c).links = s.links ∧ (State.dropHeld s c).aplicS = s.aplicS ∧ (State.dropHeld s c).aplicN = s.aplicN ∧ (State.dropHeld s c).credits = s.credits ∧ (State.dropHeld s c).clusters = s.clusters ∧ (State.dropHeld s c).homes = s.homes ∧ (State.dropHeld s c).pkts = s.pkts ∧ (State.dropHeld s c).resp = s.resp ∧ (State.dropHeld s c).regs = s.regs ∧ (State.dropHeld s c).wires = s.wires ∧ (State.dropHeld s c).dmg = s.dmg ∧ (State.dropHeld s c).wq = s.wq ∧ (State.dropHeld s c).net = s.net ∧ (State.dropHeld s c).dbInval = s.dbInval ∧ (State.dropHeld s c).watch = s.watch ∧ (State.dropHeld s c).pkg = s.pkg ∧ (State.dropHeld s c).pmc = s.pmc ∧ (State.dropHeld s c).fwLog = s.fwLog ∧ (State.dropHeld s c).out = s.out ∧ (State.dropHeld s c).free = s.free ∧ (State.dropHeld s c).fabric = s.fabric ∧ (State.dropHeld s c).files = s.files := by
  generalize h : State.dropHeld s c = u
  unfold State.dropHeld at h
  (try dsimp only at h); (repeat' split at h) <;> rw [← h] <;> simp [kept @State.eng'_fr, kept @State.setCtx_fr]

theorem State.tfault_fr (s : State) (c : Nat) (ring : Nat) (seq : Nat) (slice : Nat) (va : Nat) (write : Bool) : (State.tfault s c ring seq slice va write).pending = s.pending ∧ (State.tfault s c ring seq slice va write).flash = s.flash ∧ (State.tfault s c ring seq slice va write).coldOpt = s.coldOpt ∧ (State.tfault s c ring seq slice va write).imsic = s.imsic ∧ (State.tfault s c ring seq slice va write).dm = s.dm ∧ (State.tfault s c ring seq slice va write).ctu = s.ctu ∧ (State.tfault s c ring seq slice va write).links = s.links ∧ (State.tfault s c ring seq slice va write).aplicS = s.aplicS ∧ (State.tfault s c ring seq slice va write).aplicN = s.aplicN ∧ (State.tfault s c ring seq slice va write).credits = s.credits ∧ (State.tfault s c ring seq slice va write).pkts = s.pkts ∧ (State.tfault s c ring seq slice va write).resp = s.resp ∧ (State.tfault s c ring seq slice va write).free = s.free ∧ (State.tfault s c ring seq slice va write).fabric = s.fabric ∧ (State.tfault s c ring seq slice va write).files = s.files := by
  generalize h : State.tfault s c ring seq slice va write = u
  unfold State.tfault at h
  rw [← h]; simp [kept @State.eng'_fr, kept @State.putFault_fr, kept @State.setCtx_fr]

theorem State.freeFaults_fr (s : State) (c : Nat) : (State.freeFaults s c).pending = s.pending ∧ (State.freeFaults s c).flash = s.flash ∧ (State.freeFaults s c).coldOpt = s.coldOpt ∧ (State.freeFaults s c).imsic = s.imsic ∧ (State.freeFaults s c).dm = s.dm ∧ (State.freeFaults s c).ctu = s.ctu ∧ (State.freeFaults s c).links = s.links ∧ (State.freeFaults s c).aplicS = s.aplicS ∧ (State.freeFaults s c).aplicN = s.aplicN ∧ (State.freeFaults s c).credits = s.credits ∧ (State.freeFaults s c).pkts = s.pkts ∧ (State.freeFaults s c).resp = s.resp ∧ (State.freeFaults s c).free = s.free ∧ (State.freeFaults s c).fabric = s.fabric ∧ (State.freeFaults s c).files = s.files := by
  generalize h : State.freeFaults s c = u
  unfold State.freeFaults at h
  rw [← h]; simp [kept @State.putFault_fr, kept @State.setCtx_fr]

theorem State.sealed_fr (s : State) (n : Nat) : (State.sealed s n).pending = s.pending ∧ (State.sealed s n).flash = s.flash ∧ (State.sealed s n).coldOpt = s.coldOpt ∧ (State.sealed s n).mem = s.mem ∧ (State.sealed s n).harts = s.harts ∧ (State.sealed s n).mram = s.mram ∧ (State.sealed s n).imsic = s.imsic ∧ (State.sealed s n).dm = s.dm ∧ (State.sealed s n).fx = s.fx ∧ (State.sealed s n).ctu = s.ctu ∧ (State.sealed s n).links = s.links ∧ (State.sealed s n).aplicS = s.aplicS ∧ (State.sealed s n).aplicN = s.aplicN ∧ (State.sealed s n).credits = s.credits ∧ (State.sealed s n).clusters = s.clusters ∧ (State.sealed s n).homes = s.homes ∧ (State.sealed s n).pkts = s.pkts ∧ (State.sealed s n).resp = s.resp ∧ (State.sealed s n).regs = s.regs ∧ (State.sealed s n).wires = s.wires ∧ (State.sealed s n).dmg = s.dmg ∧ (State.sealed s n).wq = s.wq ∧ (State.sealed s n).net = s.net ∧ (State.sealed s n).dbInval = s.dbInval ∧ (State.sealed s n).watch = s.watch ∧ (State.sealed s n).pkg = s.pkg ∧ (State.sealed s n).pmc = s.pmc ∧ (State.sealed s n).fwLog = s.fwLog ∧ (State.sealed s n).out = s.out ∧ (State.sealed s n).free = s.free ∧ (State.sealed s n).fabric = s.fabric ∧ (State.sealed s n).files = s.files := by
  generalize h : State.sealed s n = u
  unfold State.sealed at h
  (try dsimp only at h); (repeat' split at h) <;> rw [← h] <;> simp [kept @State.eng'_fr]

theorem State.failTask_fr (s : State) (n : Nat) (status : Nat) (addr : Nat) (uop : Nat) : (State.failTask s n status addr uop).pending = s.pending ∧ (State.failTask s n status addr uop).flash = s.flash ∧ (State.failTask s n status addr uop).coldOpt = s.coldOpt ∧ (State.failTask s n status addr uop).mem = s.mem ∧ (State.failTask s n status addr uop).harts = s.harts ∧ (State.failTask s n status addr uop).mram = s.mram ∧ (State.failTask s n status addr uop).imsic = s.imsic ∧ (State.failTask s n status addr uop).dm = s.dm ∧ (State.failTask s n status addr uop).fx = s.fx ∧ (State.failTask s n status addr uop).ctu = s.ctu ∧ (State.failTask s n status addr uop).links = s.links ∧ (State.failTask s n status addr uop).aplicS = s.aplicS ∧ (State.failTask s n status addr uop).aplicN = s.aplicN ∧ (State.failTask s n status addr uop).credits = s.credits ∧ (State.failTask s n status addr uop).clusters = s.clusters ∧ (State.failTask s n status addr uop).homes = s.homes ∧ (State.failTask s n status addr uop).pkts = s.pkts ∧ (State.failTask s n status addr uop).resp = s.resp ∧ (State.failTask s n status addr uop).regs = s.regs ∧ (State.failTask s n status addr uop).wires = s.wires ∧ (State.failTask s n status addr uop).dmg = s.dmg ∧ (State.failTask s n status addr uop).wq = s.wq ∧ (State.failTask s n status addr uop).net = s.net ∧ (State.failTask s n status addr uop).dbInval = s.dbInval ∧ (State.failTask s n status addr uop).watch = s.watch ∧ (State.failTask s n status addr uop).pkg = s.pkg ∧ (State.failTask s n status addr uop).pmc = s.pmc ∧ (State.failTask s n status addr uop).fwLog = s.fwLog ∧ (State.failTask s n status addr uop).out = s.out ∧ (State.failTask s n status addr uop).free = s.free ∧ (State.failTask s n status addr uop).fabric = s.fabric ∧ (State.failTask s n status addr uop).files = s.files := by
  generalize h : State.failTask s n status addr uop = u
  unfold State.failTask at h
  (try dsimp only at h); (repeat' split at h) <;> rw [← h] <;> simp [kept @State.sealed_fr, kept @State.setTask_fr]

theorem State.stallTask_fr (s : State) (n : Nat) (va : Nat) (write : Bool) : (State.stallTask s n va write).pending = s.pending ∧ (State.stallTask s n va write).flash = s.flash ∧ (State.stallTask s n va write).coldOpt = s.coldOpt ∧ (State.stallTask s n va write).imsic = s.imsic ∧ (State.stallTask s n va write).dm = s.dm ∧ (State.stallTask s n va write).ctu = s.ctu ∧ (State.stallTask s n va write).links = s.links ∧ (State.stallTask s n va write).aplicS = s.aplicS ∧ (State.stallTask s n va write).aplicN = s.aplicN ∧ (State.stallTask s n va write).credits = s.credits ∧ (State.stallTask s n va write).pkts = s.pkts ∧ (State.stallTask s n va write).resp = s.resp ∧ (State.stallTask s n va write).free = s.free ∧ (State.stallTask s n va write).fabric = s.fabric ∧ (State.stallTask s n va write).files = s.files := by
  generalize h : State.stallTask s n va write = u
  unfold State.stallTask at h
  (try dsimp only at h); (repeat' split at h) <;> rw [← h] <;> simp [kept @State.pmcSlc_fr, kept @State.setTask_fr, kept @State.tfault_fr]

@[simp] theorem State.taskDo_pending (s : State) (n : Nat) (m : Task → EM Unit) (hm : ∀ t, KeepsM State.pending (m t)) :
    (s.taskDo n m).pending = s.pending := by
  unfold State.taskDo
  split
  · rfl
  · rename_i t _
    split
    · rfl
    · have h := fun r => (hm t).snd (s := s) (r := r)
      split <;> rename_i e <;> have h := h _ e <;> simpa [kept @State.failTask_fr, kept @State.stallTask_fr] using h

@[simp] theorem State.taskDo_files (s : State) (n : Nat) (m : Task → EM Unit) (hm : ∀ t, KeepsM State.files (m t)) :
    (s.taskDo n m).files = s.files := by
  unfold State.taskDo
  split
  · rfl
  · rename_i t _
    split
    · rfl
    · have h := fun r => (hm t).snd (s := s) (r := r)
      split <;> rename_i e <;> have h := h _ e <;> simpa [kept @State.failTask_fr, kept @State.stallTask_fr] using h

@[simp] theorem State.taskDo_fabric (s : State) (n : Nat) (m : Task → EM Unit) (hm : ∀ t, KeepsM State.fabric (m t)) :
    (s.taskDo n m).fabric = s.fabric := by
  unfold State.taskDo
  split
  · rfl
  · rename_i t _
    split
    · rfl
    · have h := fun r => (hm t).snd (s := s) (r := r)
      split <;> rename_i e <;> have h := h _ e <;> simpa [kept @State.failTask_fr, kept @State.stallTask_fr] using h

@[simp] theorem State.taskDo_flash (s : State) (n : Nat) (m : Task → EM Unit) (hm : ∀ t, KeepsM State.flash (m t)) :
    (s.taskDo n m).flash = s.flash := by
  unfold State.taskDo
  split
  · rfl
  · rename_i t _
    split
    · rfl
    · have h := fun r => (hm t).snd (s := s) (r := r)
      split <;> rename_i e <;> have h := h _ e <;> simpa [kept @State.failTask_fr, kept @State.stallTask_fr] using h

@[simp] theorem State.taskDo_coldOpt (s : State) (n : Nat) (m : Task → EM Unit) (hm : ∀ t, KeepsM State.coldOpt (m t)) :
    (s.taskDo n m).coldOpt = s.coldOpt := by
  unfold State.taskDo
  split
  · rfl
  · rename_i t _
    split
    · rfl
    · have h := fun r => (hm t).snd (s := s) (r := r)
      split <;> rename_i e <;> have h := h _ e <;> simpa [kept @State.failTask_fr, kept @State.stallTask_fr] using h

@[simp] theorem State.taskDo_imsic (s : State) (n : Nat) (m : Task → EM Unit) (hm : ∀ t, KeepsM State.imsic (m t)) :
    (s.taskDo n m).imsic = s.imsic := by
  unfold State.taskDo
  split
  · rfl
  · rename_i t _
    split
    · rfl
    · have h := fun r => (hm t).snd (s := s) (r := r)
      split <;> rename_i e <;> have h := h _ e <;> simpa [kept @State.failTask_fr, kept @State.stallTask_fr] using h

@[simp] theorem State.taskDo_dm (s : State) (n : Nat) (m : Task → EM Unit) (hm : ∀ t, KeepsM State.dm (m t)) :
    (s.taskDo n m).dm = s.dm := by
  unfold State.taskDo
  split
  · rfl
  · rename_i t _
    split
    · rfl
    · have h := fun r => (hm t).snd (s := s) (r := r)
      split <;> rename_i e <;> have h := h _ e <;> simpa [kept @State.failTask_fr, kept @State.stallTask_fr] using h

@[simp] theorem State.taskDo_ctu (s : State) (n : Nat) (m : Task → EM Unit) (hm : ∀ t, KeepsM State.ctu (m t)) :
    (s.taskDo n m).ctu = s.ctu := by
  unfold State.taskDo
  split
  · rfl
  · rename_i t _
    split
    · rfl
    · have h := fun r => (hm t).snd (s := s) (r := r)
      split <;> rename_i e <;> have h := h _ e <;> simpa [kept @State.failTask_fr, kept @State.stallTask_fr] using h

@[simp] theorem State.taskDo_links (s : State) (n : Nat) (m : Task → EM Unit) (hm : ∀ t, KeepsM State.links (m t)) :
    (s.taskDo n m).links = s.links := by
  unfold State.taskDo
  split
  · rfl
  · rename_i t _
    split
    · rfl
    · have h := fun r => (hm t).snd (s := s) (r := r)
      split <;> rename_i e <;> have h := h _ e <;> simpa [kept @State.failTask_fr, kept @State.stallTask_fr] using h

@[simp] theorem State.taskDo_aplicS (s : State) (n : Nat) (m : Task → EM Unit) (hm : ∀ t, KeepsM State.aplicS (m t)) :
    (s.taskDo n m).aplicS = s.aplicS := by
  unfold State.taskDo
  split
  · rfl
  · rename_i t _
    split
    · rfl
    · have h := fun r => (hm t).snd (s := s) (r := r)
      split <;> rename_i e <;> have h := h _ e <;> simpa [kept @State.failTask_fr, kept @State.stallTask_fr] using h

@[simp] theorem State.taskDo_aplicN (s : State) (n : Nat) (m : Task → EM Unit) (hm : ∀ t, KeepsM State.aplicN (m t)) :
    (s.taskDo n m).aplicN = s.aplicN := by
  unfold State.taskDo
  split
  · rfl
  · rename_i t _
    split
    · rfl
    · have h := fun r => (hm t).snd (s := s) (r := r)
      split <;> rename_i e <;> have h := h _ e <;> simpa [kept @State.failTask_fr, kept @State.stallTask_fr] using h

@[simp] theorem State.taskDo_credits (s : State) (n : Nat) (m : Task → EM Unit) (hm : ∀ t, KeepsM State.credits (m t)) :
    (s.taskDo n m).credits = s.credits := by
  unfold State.taskDo
  split
  · rfl
  · rename_i t _
    split
    · rfl
    · have h := fun r => (hm t).snd (s := s) (r := r)
      split <;> rename_i e <;> have h := h _ e <;> simpa [kept @State.failTask_fr, kept @State.stallTask_fr] using h

@[simp] theorem State.taskDo_pkts (s : State) (n : Nat) (m : Task → EM Unit) (hm : ∀ t, KeepsM State.pkts (m t)) :
    (s.taskDo n m).pkts = s.pkts := by
  unfold State.taskDo
  split
  · rfl
  · rename_i t _
    split
    · rfl
    · have h := fun r => (hm t).snd (s := s) (r := r)
      split <;> rename_i e <;> have h := h _ e <;> simpa [kept @State.failTask_fr, kept @State.stallTask_fr] using h

@[simp] theorem State.taskDo_resp (s : State) (n : Nat) (m : Task → EM Unit) (hm : ∀ t, KeepsM State.resp (m t)) :
    (s.taskDo n m).resp = s.resp := by
  unfold State.taskDo
  split
  · rfl
  · rename_i t _
    split
    · rfl
    · have h := fun r => (hm t).snd (s := s) (r := r)
      split <;> rename_i e <;> have h := h _ e <;> simpa [kept @State.failTask_fr, kept @State.stallTask_fr] using h

@[simp] theorem State.taskDo_free (s : State) (n : Nat) (m : Task → EM Unit) (hm : ∀ t, KeepsM State.free (m t)) :
    (s.taskDo n m).free = s.free := by
  unfold State.taskDo
  split
  · rfl
  · rename_i t _
    split
    · rfl
    · have h := fun r => (hm t).snd (s := s) (r := r)
      split <;> rename_i e <;> have h := h _ e <;> simpa [kept @State.failTask_fr, kept @State.stallTask_fr] using h

@[simp] theorem updTask_beside (n : Nat) (f : Task → Task) : KeepsM State.beside (updTask n f) := by
  unfold updTask; (repeat' (first | with_reducible exact keepsM_pure _ _ | with_reducible exact keepsM_throw _ _ | with_reducible exact keepsM_get _ | with_reducible refine keepsM_bind ?_ (fun _ => ?_) | with_reducible refine keepsM_mapM (fun _ => ?_) _ | with_reducible refine keepsM_forM (fun _ => ?_) _ | with_reducible refine keepsM_foldlM (fun _ _ => ?_) _ _ | with_reducible refine doSt_keeps _ (fun _ => ?_) | with_reducible refine askSt_keeps _ (fun _ => ?_) | (simp [kept @State.setTask_fr]; done) | (simp [*, kept @State.setTask_fr]; done) | split | dsimp only))

@[simp] theorem updTask_apart (n : Nat) (f : Task → Task) : KeepsM State.apart (updTask n f) := by
  unfold updTask; (repeat' (first | with_reducible exact keepsM_pure _ _ | with_reducible exact keepsM_throw _ _ | with_reducible exact keepsM_get _ | with_reducible refine keepsM_bind ?_ (fun _ => ?_) | with_reducible refine keepsM_mapM (fun _ => ?_) _ | with_reducible refine keepsM_forM (fun _ => ?_) _ | with_reducible refine keepsM_foldlM (fun _ _ => ?_) _ _ | with_reducible refine doSt_keeps _ (fun _ => ?_) | with_reducible refine askSt_keeps _ (fun _ => ?_) | (simp [kept @State.setTask_fr]; done) | (simp [*, kept @State.setTask_fr]; done) | split | dsimp only))

theorem updTask_fr (n : Nat) (f : Task → Task) : KeepsM State.mram (updTask n f) ∧ KeepsM State.regs (updTask n f) ∧ KeepsM State.wires (updTask n f) ∧ KeepsM State.wq (updTask n f) ∧ KeepsM State.pkg (updTask n f) ∧ KeepsM State.pmc (updTask n f) ∧ KeepsM State.fwLog (updTask n f) ∧ KeepsM State.free (updTask n f) := by
  refine ⟨?_, ?_, ?_, ?_, ?_, ?_, ?_, ?_⟩ <;> (unfold updTask; (repeat' (first | with_reducible exact keepsM_pure _ _ | with_reducible exact keepsM_throw _ _ | with_reducible exact keepsM_get _ | with_reducible refine keepsM_bind ?_ (fun _ => ?_) | with_reducible refine keepsM_mapM (fun _ => ?_) _ | with_reducible refine keepsM_forM (fun _ => ?_) _ | with_reducible refine keepsM_foldlM (fun _ _ => ?_) _ _ | with_reducible refine doSt_keeps _ (fun _ => ?_) | with_reducible refine askSt_keeps _ (fun _ => ?_) | (simp [kept @State.setTask_fr]; done) | (simp [*, kept @State.setTask_fr]; done) | split | dsimp only)))

@[simp] theorem theTask_beside (n : Nat) (t : Task) : KeepsM State.beside (theTask n t) := by
  unfold theTask; (repeat' (first | with_reducible exact keepsM_pure _ _ | with_reducible exact keepsM_throw _ _ | with_reducible exact keepsM_get _ | with_reducible refine keepsM_bind ?_ (fun _ => ?_) | with_reducible refine keepsM_mapM (fun _ => ?_) _ | with_reducible refine keepsM_forM (fun _ => ?_) _ | with_reducible refine keepsM_foldlM (fun _ _ => ?_) _ _ | with_reducible refine doSt_keeps _ (fun _ => ?_) | with_reducible refine askSt_keeps _ (fun _ => ?_) | (simp; done) | (simp [*]; done) | split | dsimp only))

@[simp] theorem theTask_apart (n : Nat) (t : Task) : KeepsM State.apart (theTask n t) := by
  unfold theTask; (repeat' (first | with_reducible exact keepsM_pure _ _ | with_reducible exact keepsM_throw _ _ | with_reducible exact keepsM_get _ | with_reducible refine keepsM_bind ?_ (fun _ => ?_) | with_reducible refine keepsM_mapM (fun _ => ?_) _ | with_reducible refine keepsM_forM (fun _ => ?_) _ | with_reducible refine keepsM_foldlM (fun _ _ => ?_) _ _ | with_reducible refine doSt_keeps _ (fun _ => ?_) | with_reducible refine askSt_keeps _ (fun _ => ?_) | (simp; done) | (simp [*]; done) | split | dsimp only))

theorem theTask_fr (n : Nat) (t : Task) : KeepsM State.mram (theTask n t) ∧ KeepsM State.eng (theTask n t) ∧ KeepsM State.regs (theTask n t) ∧ KeepsM State.wires (theTask n t) ∧ KeepsM State.wq (theTask n t) ∧ KeepsM State.pkg (theTask n t) ∧ KeepsM State.pmc (theTask n t) ∧ KeepsM State.fwLog (theTask n t) ∧ KeepsM State.free (theTask n t) := by
  refine ⟨?_, ?_, ?_, ?_, ?_, ?_, ?_, ?_, ?_⟩ <;> (unfold theTask; (repeat' (first | with_reducible exact keepsM_pure _ _ | with_reducible exact keepsM_throw _ _ | with_reducible exact keepsM_get _ | with_reducible refine keepsM_bind ?_ (fun _ => ?_) | with_reducible refine keepsM_mapM (fun _ => ?_) _ | with_reducible refine keepsM_forM (fun _ => ?_) _ | with_reducible refine keepsM_foldlM (fun _ _ => ?_) _ _ | with_reducible refine doSt_keeps _ (fun _ => ?_) | with_reducible refine askSt_keeps _ (fun _ => ?_) | (simp; done) | (simp [*]; done) | split | dsimp only)))

theorem State.setBad_fr (s : State) (n : Nat) (agg : Bool) (ln : Nat) (bits : List Nat) : (State.setBad s n agg ln bits).pending = s.pending ∧ (State.setBad s n agg ln bits).flash = s.flash ∧ (State.setBad s n agg ln bits).coldOpt = s.coldOpt ∧ (State.setBad s n agg ln bits).mem = s.mem ∧ (State.setBad s n agg ln bits).harts = s.harts ∧ (State.setBad s n agg ln bits).mram = s.mram ∧ (State.setBad s n agg ln bits).imsic = s.imsic ∧ (State.setBad s n agg ln bits).dm = s.dm ∧ (State.setBad s n agg ln bits).fx = s.fx ∧ (State.setBad s n agg ln bits).ctu = s.ctu ∧ (State.setBad s n agg ln bits).links = s.links ∧ (State.setBad s n agg ln bits).aplicS = s.aplicS ∧ (State.setBad s n agg ln bits).aplicN = s.aplicN ∧ (State.setBad s n agg ln bits).credits = s.credits ∧ (State.setBad s n agg ln bits).clusters = s.clusters ∧ (State.setBad s n agg ln bits).homes = s.homes ∧ (State.setBad s n agg ln bits).pkts = s.pkts ∧ (State.setBad s n agg ln bits).resp = s.resp ∧ (State.setBad s n agg ln bits).regs = s.regs ∧ (State.setBad s n agg ln bits).wires = s.wires ∧ (State.setBad s n agg ln bits).dmg = s.dmg ∧ (State.setBad s n agg ln bits).wq = s.wq ∧ (State.setBad s n agg ln bits).net = s.net ∧ (State.setBad s n agg ln bits).dbInval = s.dbInval ∧ (State.setBad s n agg ln bits).watch = s.watch ∧ (State.setBad s n agg ln bits).pkg = s.pkg ∧ (State.setBad s n agg ln bits).pmc = s.pmc ∧ (State.setBad s n agg ln bits).fwLog = s.fwLog ∧ (State.setBad s n agg ln bits).out = s.out ∧ (State.setBad s n agg ln bits).free = s.free ∧ (State.setBad s n agg ln bits).fabric = s.fabric ∧ (State.setBad s n agg ln bits).files = s.files := by
  generalize h : State.setBad s n agg ln bits = u
  unfold State.setBad at h
  (try dsimp only at h); (repeat' split at h) <;> rw [← h] <;> simp [kept @State.setSlice_fr]

theorem State.cbWrite_fr (s : State) (n : Nat) (agg : Bool) (rs : List (Nat × Nat)) : (State.cbWrite s n agg rs).pending = s.pending ∧ (State.cbWrite s n agg rs).flash = s.flash ∧ (State.cbWrite s n agg rs).coldOpt = s.coldOpt ∧ (State.cbWrite s n agg rs).mem = s.mem ∧ (State.cbWrite s n agg rs).harts = s.harts ∧ (State.cbWrite s n agg rs).mram = s.mram ∧ (State.cbWrite s n agg rs).imsic = s.imsic ∧ (State.cbWrite s n agg rs).dm = s.dm ∧ (State.cbWrite s n agg rs).fx = s.fx ∧ (State.cbWrite s n agg rs).ctu = s.ctu ∧ (State.cbWrite s n agg rs).links = s.links ∧ (State.cbWrite s n agg rs).aplicS = s.aplicS ∧ (State.cbWrite s n agg rs).aplicN = s.aplicN ∧ (State.cbWrite s n agg rs).credits = s.credits ∧ (State.cbWrite s n agg rs).clusters = s.clusters ∧ (State.cbWrite s n agg rs).homes = s.homes ∧ (State.cbWrite s n agg rs).pkts = s.pkts ∧ (State.cbWrite s n agg rs).resp = s.resp ∧ (State.cbWrite s n agg rs).wires = s.wires ∧ (State.cbWrite s n agg rs).dmg = s.dmg ∧ (State.cbWrite s n agg rs).wq = s.wq ∧ (State.cbWrite s n agg rs).net = s.net ∧ (State.cbWrite s n agg rs).dbInval = s.dbInval ∧ (State.cbWrite s n agg rs).watch = s.watch ∧ (State.cbWrite s n agg rs).pkg = s.pkg ∧ (State.cbWrite s n agg rs).pmc = s.pmc ∧ (State.cbWrite s n agg rs).fwLog = s.fwLog ∧ (State.cbWrite s n agg rs).out = s.out ∧ (State.cbWrite s n agg rs).free = s.free ∧ (State.cbWrite s n agg rs).fabric = s.fabric ∧ (State.cbWrite s n agg rs).files = s.files := by
  generalize h : State.cbWrite s n agg rs = u
  unfold State.cbWrite at h
  rw [← h]; simp [kept @State.setBad_fr, kept @State.wr_fr]

theorem State.cbRecord_fr (s : State) (n : Nat) (agg : Bool) (ln : Nat) (cls : Nat) (src : Nat) (who : Ident) : (State.cbRecord s n agg ln cls src who).pending = s.pending ∧ (State.cbRecord s n agg ln cls src who).flash = s.flash ∧ (State.cbRecord s n agg ln cls src who).coldOpt = s.coldOpt ∧ (State.cbRecord s n agg ln cls src who).mem = s.mem ∧ (State.cbRecord s n agg ln cls src who).harts = s.harts ∧ (State.cbRecord s n agg ln cls src who).imsic = s.imsic ∧ (State.cbRecord s n agg ln cls src who).eng = s.eng ∧ (State.cbRecord s n agg ln cls src who).dm = s.dm ∧ (State.cbRecord s n agg ln cls src who).fx = s.fx ∧ (State.cbRecord s n agg ln cls src who).ctu = s.ctu ∧ (State.cbRecord s n agg ln cls src who).links = s.links ∧ (State.cbRecord s n agg ln cls src who).aplicS = s.aplicS ∧ (State.cbRecord s n agg ln cls src who).aplicN = s.aplicN ∧ (State.cbRecord s n agg ln cls src who).credits = s.credits ∧ (State.cbRecord s n agg ln cls src who).clusters = s.clusters ∧ (State.cbRecord s n agg ln cls src who).homes = s.homes ∧ (State.cbRecord s n agg ln cls src who).pkts = s.pkts ∧ (State.cbRecord s n agg ln cls src who).resp = s.resp ∧ (State.cbRecord s n agg ln cls src who).wires = s.wires ∧ (State.cbRecord s n agg ln cls src who).dmg = s.dmg ∧ (State.cbRecord s n agg ln cls src who).wq = s.wq ∧ (State.cbRecord s n agg ln cls src who).net = s.net ∧ (State.cbRecord s n agg ln cls src who).dbInval = s.dbInval ∧ (State.cbRecord s n agg ln cls src who).watch = s.watch ∧ (State.cbRecord s n agg ln cls src who).pkg = s.pkg ∧ (State.cbRecord s n agg ln cls src who).fwLog = s.fwLog ∧ (State.cbRecord s n agg ln cls src who).out = s.out ∧ (State.cbRecord s n agg ln cls src who).fabric = s.fabric ∧ (State.cbRecord s n agg ln cls src who).files = s.files := by
  generalize h : State.cbRecord s n agg ln cls src who = u
  unfold State.cbRecord at h
  (try dsimp only at h); (repeat' split at h) <;> rw [← h] <;> simp [kept @State.draw_fr, kept @State.recordErr_fr]

theorem State.cbCorrect_fr (s : State) (n : Nat) (agg : Bool) (ln : Nat) (bits : List Nat) (src : Nat) (who : Ident) : (State.cbCorrect s n agg ln bits src who).pending = s.pending ∧ (State.cbCorrect s n agg ln bits src who).flash = s.flash ∧ (State.cbCorrect s n agg ln bits src who).coldOpt = s.coldOpt ∧ (State.cbCorrect s n agg ln bits src who).mem = s.mem ∧ (State.cbCorrect s n agg ln bits src who).harts = s.harts ∧ (State.cbCorrect s n agg ln bits src who).imsic = s.imsic ∧ (State.cbCorrect s n agg ln bits src who).dm = s.dm ∧ (State.cbCorrect s n agg ln bits src who).fx = s.fx ∧ (State.cbCorrect s n agg ln bits src who).ctu = s.ctu ∧ (State.cbCorrect s n agg ln bits src who).links = s.links ∧ (State.cbCorrect s n agg ln bits src who).aplicS = s.aplicS ∧ (State.cbCorrect s n agg ln bits src who).aplicN = s.aplicN ∧ (State.cbCorrect s n agg ln bits src who).credits = s.credits ∧ (State.cbCorrect s n agg ln bits src who).clusters = s.clusters ∧ (State.cbCorrect s n agg ln bits src who).homes = s.homes ∧ (State.cbCorrect s n agg ln bits src who).pkts = s.pkts ∧ (State.cbCorrect s n agg ln bits src who).resp = s.resp ∧ (State.cbCorrect s n agg ln bits src who).wires = s.wires ∧ (State.cbCorrect s n agg ln bits src who).dmg = s.dmg ∧ (State.cbCorrect s n agg ln bits src who).wq = s.wq ∧ (State.cbCorrect s n agg ln bits src who).net = s.net ∧ (State.cbCorrect s n agg ln bits src who).dbInval = s.dbInval ∧ (State.cbCorrect s n agg ln bits src who).watch = s.watch ∧ (State.cbCorrect s n agg ln bits src who).pkg = s.pkg ∧ (State.cbCorrect s n agg ln bits src who).fwLog = s.fwLog ∧ (State.cbCorrect s n agg ln bits src who).out = s.out ∧ (State.cbCorrect s n agg ln bits src who).fabric = s.fabric ∧ (State.cbCorrect s n agg ln bits src who).files = s.files := by
  generalize h : State.cbCorrect s n agg ln bits src who = u
  unfold State.cbCorrect at h
  (try dsimp only at h); (repeat' split at h) <;> rw [← h] <;> simp [kept @State.cbRecord_fr, kept @State.setBad_fr]

@[simp] theorem cbMeet_beside (n : Nat) (ctx : Nat) (agg : Bool) (ln : Nat) (bits : List Nat) (uop : Nat) : KeepsM State.beside (cbMeet n ctx agg ln bits uop) := by
  unfold cbMeet; (repeat' (first | with_reducible exact keepsM_pure _ _ | with_reducible exact keepsM_throw _ _ | with_reducible exact keepsM_get _ | with_reducible refine keepsM_bind ?_ (fun _ => ?_) | with_reducible refine keepsM_mapM (fun _ => ?_) _ | with_reducible refine keepsM_forM (fun _ => ?_) _ | with_reducible refine keepsM_foldlM (fun _ _ => ?_) _ _ | with_reducible refine doSt_keeps _ (fun _ => ?_) | with_reducible refine askSt_keeps _ (fun _ => ?_) | (simp [kept @State.cbCorrect_fr, kept @State.cbRecord_fr]; done) | (simp [*, kept @State.cbCorrect_fr, kept @State.cbRecord_fr]; done) | split | dsimp only))

@[simp] theorem cbMeet_apart (n : Nat) (ctx : Nat) (agg : Bool) (ln : Nat) (bits : List Nat) (uop : Nat) : KeepsM State.apart (cbMeet n ctx agg ln bits uop) := by
  unfold cbMeet; (repeat' (first | with_reducible exact keepsM_pure _ _ | with_reducible exact keepsM_throw _ _ | with_reducible exact keepsM_get _ | with_reducible refine keepsM_bind ?_ (fun _ => ?_) | with_reducible refine keepsM_mapM (fun _ => ?_) _ | with_reducible refine keepsM_forM (fun _ => ?_) _ | with_reducible refine keepsM_foldlM (fun _ _ => ?_) _ _ | with_reducible refine doSt_keeps _ (fun _ => ?_) | with_reducible refine askSt_keeps _ (fun _ => ?_) | (simp [kept @State.cbCorrect_fr, kept @State.cbRecord_fr]; done) | (simp [*, kept @State.cbCorrect_fr, kept @State.cbRecord_fr]; done) | split | dsimp only))

theorem cbMeet_fr (n : Nat) (ctx : Nat) (agg : Bool) (ln : Nat) (bits : List Nat) (uop : Nat) : KeepsM State.wires (cbMeet n ctx agg ln bits uop) ∧ KeepsM State.wq (cbMeet n ctx agg ln bits uop) ∧ KeepsM State.pkg (cbMeet n ctx agg ln bits uop) ∧ KeepsM State.fwLog (cbMeet n ctx agg ln bits uop) := by
  refine ⟨?_, ?_, ?_, ?_⟩ <;> (unfold cbMeet; (repeat' (first | with_reducible exact keepsM_pure _ _ | with_reducible exact keepsM_throw _ _ | with_reducible exact keepsM_get _ | with_reducible refine keepsM_bind ?_ (fun _ => ?_) | with_reducible refine keepsM_mapM (fun _ => ?_) _ | with_reducible refine keepsM_forM (fun _ => ?_) _ | with_reducible refine keepsM_foldlM (fun _ _ => ?_) _ _ | with_reducible refine doSt_keeps _ (fun _ => ?_) | with_reducible refine askSt_keeps _ (fun _ => ?_) | (simp [kept @State.cbCorrect_fr, kept @State.cbRecord_fr]; done) | (simp [*, kept @State.cbCorrect_fr, kept @State.cbRecord_fr]; done) | split | dsimp only)))

@[simp] theorem cbRead_beside (n : Nat) (ctx : Nat) (agg : Bool) (rs : List (Nat × Nat)) (uop : Nat) : KeepsM State.beside (cbRead n ctx agg rs uop) := by
  unfold cbRead; (repeat' (first | with_reducible exact keepsM_pure _ _ | with_reducible exact keepsM_throw _ _ | with_reducible exact keepsM_get _ | with_reducible refine keepsM_bind ?_ (fun _ => ?_) | with_reducible refine keepsM_mapM (fun _ => ?_) _ | with_reducible refine keepsM_forM (fun _ => ?_) _ | with_reducible refine keepsM_foldlM (fun _ _ => ?_) _ _ | with_reducible refine doSt_keeps _ (fun _ => ?_) | with_reducible refine askSt_keeps _ (fun _ => ?_) | (simp [kept @cbMeet_fr]; done) | (simp [*, kept @cbMeet_fr]; done) | split | dsimp only))

@[simp] theorem cbRead_apart (n : Nat) (ctx : Nat) (agg : Bool) (rs : List (Nat × Nat)) (uop : Nat) : KeepsM State.apart (cbRead n ctx agg rs uop) := by
  unfold cbRead; (repeat' (first | with_reducible exact keepsM_pure _ _ | with_reducible exact keepsM_throw _ _ | with_reducible exact keepsM_get _ | with_reducible refine keepsM_bind ?_ (fun _ => ?_) | with_reducible refine keepsM_mapM (fun _ => ?_) _ | with_reducible refine keepsM_forM (fun _ => ?_) _ | with_reducible refine keepsM_foldlM (fun _ _ => ?_) _ _ | with_reducible refine doSt_keeps _ (fun _ => ?_) | with_reducible refine askSt_keeps _ (fun _ => ?_) | (simp [kept @cbMeet_fr]; done) | (simp [*, kept @cbMeet_fr]; done) | split | dsimp only))

theorem cbRead_fr (n : Nat) (ctx : Nat) (agg : Bool) (rs : List (Nat × Nat)) (uop : Nat) : KeepsM State.wires (cbRead n ctx agg rs uop) ∧ KeepsM State.wq (cbRead n ctx agg rs uop) ∧ KeepsM State.pkg (cbRead n ctx agg rs uop) ∧ KeepsM State.fwLog (cbRead n ctx agg rs uop) := by
  refine ⟨?_, ?_, ?_, ?_⟩ <;> (unfold cbRead; (repeat' (first | with_reducible exact keepsM_pure _ _ | with_reducible exact keepsM_throw _ _ | with_reducible exact keepsM_get _ | with_reducible refine keepsM_bind ?_ (fun _ => ?_) | with_reducible refine keepsM_mapM (fun _ => ?_) _ | with_reducible refine keepsM_forM (fun _ => ?_) _ | with_reducible refine keepsM_foldlM (fun _ _ => ?_) _ _ | with_reducible refine doSt_keeps _ (fun _ => ?_) | with_reducible refine askSt_keeps _ (fun _ => ?_) | (simp [kept @cbMeet_fr]; done) | (simp [*, kept @cbMeet_fr]; done) | split | dsimp only)))

@[simp] theorem cbStore_beside (n : Nat) (ctx : Nat) (agg : Bool) (rs : List (Nat × Nat)) (uop : Nat) : KeepsM State.beside (cbStore n ctx agg rs uop) := by
  unfold cbStore; (repeat' (first | with_reducible exact keepsM_pure _ _ | with_reducible exact keepsM_throw _ _ | with_reducible exact keepsM_get _ | with_reducible refine keepsM_bind ?_ (fun _ => ?_) | with_reducible refine keepsM_mapM (fun _ => ?_) _ | with_reducible refine keepsM_forM (fun _ => ?_) _ | with_reducible refine keepsM_foldlM (fun _ _ => ?_) _ _ | with_reducible refine doSt_keeps _ (fun _ => ?_) | with_reducible refine askSt_keeps _ (fun _ => ?_) | (simp [kept @State.cbWrite_fr, kept @cbMeet_fr]; done) | (simp [*, kept @State.cbWrite_fr, kept @cbMeet_fr]; done) | split | dsimp only))

@[simp] theorem cbStore_apart (n : Nat) (ctx : Nat) (agg : Bool) (rs : List (Nat × Nat)) (uop : Nat) : KeepsM State.apart (cbStore n ctx agg rs uop) := by
  unfold cbStore; (repeat' (first | with_reducible exact keepsM_pure _ _ | with_reducible exact keepsM_throw _ _ | with_reducible exact keepsM_get _ | with_reducible refine keepsM_bind ?_ (fun _ => ?_) | with_reducible refine keepsM_mapM (fun _ => ?_) _ | with_reducible refine keepsM_forM (fun _ => ?_) _ | with_reducible refine keepsM_foldlM (fun _ _ => ?_) _ _ | with_reducible refine doSt_keeps _ (fun _ => ?_) | with_reducible refine askSt_keeps _ (fun _ => ?_) | (simp [kept @State.cbWrite_fr, kept @cbMeet_fr]; done) | (simp [*, kept @State.cbWrite_fr, kept @cbMeet_fr]; done) | split | dsimp only))

theorem cbStore_fr (n : Nat) (ctx : Nat) (agg : Bool) (rs : List (Nat × Nat)) (uop : Nat) : KeepsM State.wires (cbStore n ctx agg rs uop) ∧ KeepsM State.wq (cbStore n ctx agg rs uop) ∧ KeepsM State.pkg (cbStore n ctx agg rs uop) ∧ KeepsM State.fwLog (cbStore n ctx agg rs uop) := by
  refine ⟨?_, ?_, ?_, ?_⟩ <;> (unfold cbStore; (repeat' (first | with_reducible exact keepsM_pure _ _ | with_reducible exact keepsM_throw _ _ | with_reducible exact keepsM_get _ | with_reducible refine keepsM_bind ?_ (fun _ => ?_) | with_reducible refine keepsM_mapM (fun _ => ?_) _ | with_reducible refine keepsM_forM (fun _ => ?_) _ | with_reducible refine keepsM_foldlM (fun _ _ => ?_) _ _ | with_reducible refine doSt_keeps _ (fun _ => ?_) | with_reducible refine askSt_keeps _ (fun _ => ?_) | (simp [kept @State.cbWrite_fr, kept @cbMeet_fr]; done) | (simp [*, kept @State.cbWrite_fr, kept @cbMeet_fr]; done) | split | dsimp only)))

end Sys2Proof.Machine
end

