-- ==== Sys2Proof/Laws/Frame/EngDesc.lean ====
section
/-! SUPPORT. What the operations of Machine/EngDesc.lean leave unchanged. -/

set_option Elab.async false
set_option linter.all false

namespace Sys2Proof.Machine
open Sys2Proof

theorem State.endDesc_fr (s : State) (d : Desc) (f : Option Fail) : (State.endDesc s d f).pending = s.pending ∧ (State.endDesc s d f).flash = s.flash ∧ (State.endDesc s d f).coldOpt = s.coldOpt ∧ (State.endDesc s d f).mem = s.mem ∧ (State.endDesc s d f).harts = s.harts ∧ (State.endDesc s d f).mram = s.mram ∧ (State.endDesc s d f).imsic = s.imsic ∧ (State.endDesc s d f).dm = s.dm ∧ (State.endDesc s d f).fx = s.fx ∧ (State.endDesc s d f).ctu = s.ctu ∧ (State.endDesc s d f).links = s.links ∧ (State.endDesc s d f).aplicS = s.aplicS ∧ (State.endDesc s d f).aplicN = s.aplicN ∧ (State.endDesc s d f).credits = s.credits ∧ (State.endDesc s d f).clusters = s.clusters ∧ (State.endDesc s d f).homes = s.homes ∧ (State.endDesc s d f).pkts = s.pkts ∧ (State.endDesc s d f).resp = s.resp ∧ (State.endDesc s d f).regs = s.regs ∧ (State.endDesc s d f).wires = s.wires ∧ (State.endDesc s d f).dmg = s.dmg ∧ (State.endDesc s d f).wq = s.wq ∧ (State.endDesc s d f).net = s.net ∧ (State.endDesc s d f).dbInval = s.dbInval ∧ (State.endDesc s d f).watch = s.watch ∧ (State.endDesc s d f).pkg = s.pkg ∧ (State.endDesc s d f).pmc = s.pmc ∧ (State.endDesc s d f).fwLog = s.fwLog ∧ (State.endDesc s d f).out = s.out ∧ (State.endDesc s d f).free = s.free ∧ (State.endDesc s d f).fabric = s.fabric ∧ (State.endDesc s d f).files = s.files := by
  generalize h : State.endDesc s d f = u
  unfold State.endDesc at h
  rw [← h]; simp [kept @State.setDesc_fr]

theorem State.fixRun_fr (s : State) (ring : Nat) (seq : Nat) (f : Fail) : (State.fixRun s ring seq f).pending = s.pending ∧ (State.fixRun s ring seq f).flash = s.flash ∧ (State.fixRun s ring seq f).coldOpt = s.coldOpt ∧ (State.fixRun s ring seq f).mem = s.mem ∧ (State.fixRun s ring seq f).harts = s.harts ∧ (State.fixRun s ring seq f).mram = s.mram ∧ (State.fixRun s ring seq f).imsic = s.imsic ∧ (State.fixRun s ring seq f).dm = s.dm ∧ (State.fixRun s ring seq f).fx = s.fx ∧ (State.fixRun s ring seq f).ctu = s.ctu ∧ (State.fixRun s ring seq f).links = s.links ∧ (State.fixRun s ring seq f).aplicS = s.aplicS ∧ (State.fixRun s ring seq f).aplicN = s.aplicN ∧ (State.fixRun s ring seq f).credits = s.credits ∧ (State.fixRun s ring seq f).clusters = s.clusters ∧ (State.fixRun s ring seq f).homes = s.homes ∧ (State.fixRun s ring seq f).pkts = s.pkts ∧ (State.fixRun s ring seq f).resp = s.resp ∧ (State.fixRun s ring seq f).regs = s.regs ∧ (State.fixRun s ring seq f).wires = s.wires ∧ (State.fixRun s ring seq f).dmg = s.dmg ∧ (State.fixRun s ring seq f).wq = s.wq ∧ (State.fixRun s ring seq f).net = s.net ∧ (State.fixRun s ring seq f).dbInval = s.dbInval ∧ (State.fixRun s ring seq f).watch = s.watch ∧ (State.fixRun s ring seq f).pkg = s.pkg ∧ (State.fixRun s ring seq f).pmc = s.pmc ∧ (State.fixRun s ring seq f).fwLog = s.fwLog ∧ (State.fixRun s ring seq f).out = s.out ∧ (State.fixRun s ring seq f).free = s.free ∧ (State.fixRun s ring seq f).fabric = s.fabric ∧ (State.fixRun s ring seq f).files = s.files := by
  generalize h : State.fixRun s ring seq f = u
  unfold State.fixRun at h
  rw [← h]; simp [kept @State.eng'_fr, kept @State.updDesc_fr]

theorem State.abortDesc_fr (s : State) (d : Desc) : (State.abortDesc s d).pending = s.pending ∧ (State.abortDesc s d).flash = s.flash ∧ (State.abortDesc s d).coldOpt = s.coldOpt ∧ (State.abortDesc s d).mem = s.mem ∧ (State.abortDesc s d).harts = s.harts ∧ (State.abortDesc s d).mram = s.mram ∧ (State.abortDesc s d).imsic = s.imsic ∧ (State.abortDesc s d).dm = s.dm ∧ (State.abortDesc s d).fx = s.fx ∧ (State.abortDesc s d).ctu = s.ctu ∧ (State.abortDesc s d).links = s.links ∧ (State.abortDesc s d).aplicS = s.aplicS ∧ (State.abortDesc s d).aplicN = s.aplicN ∧ (State.abortDesc s d).credits = s.credits ∧ (State.abortDesc s d).clusters = s.clusters ∧ (State.abortDesc s d).homes = s.homes ∧ (State.abortDesc s d).pkts = s.pkts ∧ (State.abortDesc s d).resp = s.resp ∧ (State.abortDesc s d).regs = s.regs ∧ (State.abortDesc s d).wires = s.wires ∧ (State.abortDesc s d).dmg = s.dmg ∧ (State.abortDesc s d).wq = s.wq ∧ (State.abortDesc s d).net = s.net ∧ (State.abortDesc s d).dbInval = s.dbInval ∧ (State.abortDesc s d).watch = s.watch ∧ (State.abortDesc s d).pkg = s.pkg ∧ (State.abortDesc s d).pmc = s.pmc ∧ (State.abortDesc s d).fwLog = s.fwLog ∧ (State.abortDesc s d).out = s.out ∧ (State.abortDesc s d).free = s.free ∧ (State.abortDesc s d).fabric = s.fabric ∧ (State.abortDesc s d).files = s.files := by
  generalize h : State.abortDesc s d = u
  unfold State.abortDesc at h
  rw [← h]; simp [kept @State.endDesc_fr, kept @State.fixRun_fr]

theorem State.spillCount_fr (s : State) (c : Nat) (n : Nat) : (State.spillCount s c n).pending = s.pending ∧ (State.spillCount s c n).flash = s.flash ∧ (State.spillCount s c n).coldOpt = s.coldOpt ∧ (State.spillCount s c n).mem = s.mem ∧ (State.spillCount s c n).harts = s.harts ∧ (State.spillCount s c n).mram = s.mram ∧ (State.spillCount s c n).imsic = s.imsic ∧ (State.spillCount s c n).eng = s.eng ∧ (State.spillCount s c n).dm = s.dm ∧ (State.spillCount s c n).fx = s.fx ∧ (State.spillCount s c n).ctu = s.ctu ∧ (State.spillCount s c n).links = s.links ∧ (State.spillCount s c n).aplicS = s.aplicS ∧ (State.spillCount s c n).aplicN = s.aplicN ∧ (State.spillCount s c n).credits = s.credits ∧ (State.spillCount s c n).clusters = s.clusters ∧ (State.spillCount s c n).homes = s.homes ∧ (State.spillCount s c n).pkts = s.pkts ∧ (State.spillCount s c n).resp = s.resp ∧ (State.spillCount s c n).wires = s.wires ∧ (State.spillCount s c n).dmg = s.dmg ∧ (State.spillCount s c n).wq = s.wq ∧ (State.spillCount s c n).net = s.net ∧ (State.spillCount s c n).dbInval = s.dbInval ∧ (State.spillCount s c n).watch = s.watch ∧ (State.spillCount s c n).pkg = s.pkg ∧ (State.spillCount s c n).pmc = s.pmc ∧ (State.spillCount s c n).fwLog = s.fwLog ∧ (State.spillCount s c n).out = s.out ∧ (State.spillCount s c n).free = s.free ∧ (State.spillCount s c n).fabric = s.fabric ∧ (State.spillCount s c n).files = s.files := by
  generalize h : State.spillCount s c n = u
  unfold State.spillCount at h
  rw [← h]; simp [kept @State.wr_fr]

theorem State.allocChunk_fr (s : State) (c : Nat) (ring : Nat) (seq : Nat) : (State.allocChunk s c ring seq).2.pending = s.pending ∧ (State.allocChunk s c ring seq).2.flash = s.flash ∧ (State.allocChunk s c ring seq).2.coldOpt = s.coldOpt ∧ (State.allocChunk s c ring seq).2.mem = s.mem ∧ (State.allocChunk s c ring seq).2.harts = s.harts ∧ (State.allocChunk s c ring seq).2.mram = s.mram ∧ (State.allocChunk s c ring seq).2.imsic = s.imsic ∧ (State.allocChunk s c ring seq).2.dm = s.dm ∧ (State.allocChunk s c ring seq).2.fx = s.fx ∧ (State.allocChunk s c ring seq).2.ctu = s.ctu ∧ (State.allocChunk s c ring seq).2.links = s.links ∧ (State.allocChunk s c ring seq).2.aplicS = s.aplicS ∧ (State.allocChunk s c ring seq).2.aplicN = s.aplicN ∧ (State.allocChunk s c ring seq).2.credits = s.credits ∧ (State.allocChunk s c ring seq).2.clusters = s.clusters ∧ (State.allocChunk s c ring seq).2.homes = s.homes ∧ (State.allocChunk s c ring seq).2.pkts = s.pkts ∧ (State.allocChunk s c ring seq).2.resp = s.resp ∧ (State.allocChunk s c ring seq).2.wires = s.wires ∧ (State.allocChunk s c ring seq).2.dmg = s.dmg ∧ (State.allocChunk s c ring seq).2.wq = s.wq ∧ (State.allocChunk s c ring seq).2.net = s.net ∧ (State.allocChunk s c ring seq).2.dbInval = s.dbInval ∧ (State.allocChunk s c ring seq).2.watch = s.watch ∧ (State.allocChunk s c ring seq).2.pkg = s.pkg ∧ (State.allocChunk s c ring seq).2.pmc = s.pmc ∧ (State.allocChunk s c ring seq).2.fwLog = s.fwLog ∧ (State.allocChunk s c ring seq).2.out = s.out ∧ (State.allocChunk s c ring seq).2.free = s.free ∧ (State.allocChunk s c ring seq).2.fabric = s.fabric ∧ (State.allocChunk s c ring seq).2.files = s.files := by
  generalize h : (State.allocChunk s c ring seq).2 = u
  unfold State.allocChunk at h
  (try dsimp only at h); (repeat' split at h) <;> rw [← h] <;> simp [kept @State.eng'_fr, kept @State.spillCount_fr, kept @State.updRun_fr]

theorem State.freeSpill_fr (s : State) (d : Desc) (r : Run) : (State.freeSpill s d r).pending = s.pending ∧ (State.freeSpill s d r).flash = s.flash ∧ (State.freeSpill s d r).coldOpt = s.coldOpt ∧ (State.freeSpill s d r).imsic = s.imsic ∧ (State.freeSpill s d r).dm = s.dm ∧ (State.freeSpill s d r).fx = s.fx ∧ (State.freeSpill s d r).ctu = s.ctu ∧ (State.freeSpill s d r).links = s.links ∧ (State.freeSpill s d r).aplicS = s.aplicS ∧ (State.freeSpill s d r).aplicN = s.aplicN ∧ (State.freeSpill s d r).credits = s.credits ∧ (State.freeSpill s d r).pkts = s.pkts ∧ (State.freeSpill s d r).resp = s.resp ∧ (State.freeSpill s d r).out = s.out ∧ (State.freeSpill s d r).free = s.free ∧ (State.freeSpill s d r).fabric = s.fabric ∧ (State.freeSpill s d r).files = s.files := by
  generalize h : State.freeSpill s d r = u
  unfold State.freeSpill at h
  rw [← h]; simp [kept @State.eng'_fr, kept @State.readPa_fr, kept @State.spillCount_fr, kept @State.writePa_fr]

theorem State.startDesc_fr (s : State) (n : Nat) (seq : Nat) (b : List Byte) : (State.startDesc s n seq b).pending = s.pending ∧ (State.startDesc s n seq b).flash = s.flash ∧ (State.startDesc s n seq b).coldOpt = s.coldOpt ∧ (State.startDesc s n seq b).mem = s.mem ∧ (State.startDesc s n seq b).harts = s.harts ∧ (State.startDesc s n seq b).mram = s.mram ∧ (State.startDesc s n seq b).imsic = s.imsic ∧ (State.startDesc s n seq b).dm = s.dm ∧ (State.startDesc s n seq b).fx = s.fx ∧ (State.startDesc s n seq b).ctu = s.ctu ∧ (State.startDesc s n seq b).links = s.links ∧ (State.startDesc s n seq b).aplicS = s.aplicS ∧ (State.startDesc s n seq b).aplicN = s.aplicN ∧ (State.startDesc s n seq b).credits = s.credits ∧ (State.startDesc s n seq b).clusters = s.clusters ∧ (State.startDesc s n seq b).homes = s.homes ∧ (State.startDesc s n seq b).pkts = s.pkts ∧ (State.startDesc s n seq b).resp = s.resp ∧ (State.startDesc s n seq b).wires = s.wires ∧ (State.startDesc s n seq b).dmg = s.dmg ∧ (State.startDesc s n seq b).wq = s.wq ∧ (State.startDesc s n seq b).net = s.net ∧ (State.startDesc s n seq b).dbInval = s.dbInval ∧ (State.startDesc s n seq b).watch = s.watch ∧ (State.startDesc s n seq b).pkg = s.pkg ∧ (State.startDesc s n seq b).pmc = s.pmc ∧ (State.startDesc s n seq b).fwLog = s.fwLog ∧ (State.startDesc s n seq b).out = s.out ∧ (State.startDesc s n seq b).free = s.free ∧ (State.startDesc s n seq b).fabric = s.fabric ∧ (State.startDesc s n seq b).files = s.files := by
  generalize h : State.startDesc s n seq b = u
  unfold State.startDesc at h
  (try dsimp only at h); (repeat' split at h) <;> rw [← h] <;> simp [kept @State.addF_fr, kept @State.eng'_fr]

theorem State.fetchOne_fr (s : State) (n : Nat) {u : State} (h : State.fetchOne s n = some u) : u.pending = s.pending ∧ u.flash = s.flash ∧ u.coldOpt = s.coldOpt ∧ u.mem = s.mem ∧ u.harts = s.harts ∧ u.imsic = s.imsic ∧ u.dm = s.dm ∧ u.ctu = s.ctu ∧ u.links = s.links ∧ u.aplicS = s.aplicS ∧ u.aplicN = s.aplicN ∧ u.credits = s.credits ∧ u.clusters = s.clusters ∧ u.homes = s.homes ∧ u.pkts = s.pkts ∧ u.resp = s.resp ∧ u.dmg = s.dmg ∧ u.net = s.net ∧ u.dbInval = s.dbInval ∧ u.watch = s.watch ∧ u.free = s.free ∧ u.fabric = s.fabric ∧ u.files = s.files := by
  unfold State.fetchOne at h
  (try dsimp only at h); (repeat' split at h) <;> (first | (simp only [Host.Outcome.next.injEq] at h; rw [← h]) | (simp only [reduceCtorEq] at h; done) | (simp only [Option.some.injEq] at h; rw [← h])) <;> simp [kept @State.readPa_fr, kept @State.ringError_fr, kept @State.startDesc_fr]

theorem State.fetchOne_getD (s : State) (n : Nat) : ((State.fetchOne s n).getD s).pending = s.pending ∧ ((State.fetchOne s n).getD s).flash = s.flash ∧ ((State.fetchOne s n).getD s).coldOpt = s.coldOpt ∧ ((State.fetchOne s n).getD s).mem = s.mem ∧ ((State.fetchOne s n).getD s).harts = s.harts ∧ ((State.fetchOne s n).getD s).imsic = s.imsic ∧ ((State.fetchOne s n).getD s).dm = s.dm ∧ ((State.fetchOne s n).getD s).ctu = s.ctu ∧ ((State.fetchOne s n).getD s).links = s.links ∧ ((State.fetchOne s n).getD s).aplicS = s.aplicS ∧ ((State.fetchOne s n).getD s).aplicN = s.aplicN ∧ ((State.fetchOne s n).getD s).credits = s.credits ∧ ((State.fetchOne s n).getD s).clusters = s.clusters ∧ ((State.fetchOne s n).getD s).homes = s.homes ∧ ((State.fetchOne s n).getD s).pkts = s.pkts ∧ ((State.fetchOne s n).getD s).resp = s.resp ∧ ((State.fetchOne s n).getD s).dmg = s.dmg ∧ ((State.fetchOne s n).getD s).net = s.net ∧ ((State.fetchOne s n).getD s).dbInval = s.dbInval ∧ ((State.fetchOne s n).getD s).watch = s.watch ∧ ((State.fetchOne s n).getD s).free = s.free ∧ ((State.fetchOne s n).getD s).fabric = s.fabric ∧ ((State.fetchOne s n).getD s).files = s.files := by
  cases h : State.fetchOne s n with
  | none => simp
  | some u => simpa using State.fetchOne_fr s n h

theorem State.fetchFx_fr (s : State) (n : Nat) (p : Nat) : (State.fetchFx s n p).pending = s.pending ∧ (State.fetchFx s n p).flash = s.flash ∧ (State.fetchFx s n p).coldOpt = s.coldOpt ∧ (State.fetchFx s n p).mem = s.mem ∧ (State.fetchFx s n p).harts = s.harts ∧ (State.fetchFx s n p).mram = s.mram ∧ (State.fetchFx s n p).imsic = s.imsic ∧ (State.fetchFx s n p).eng = s.eng ∧ (State.fetchFx s n p).dm = s.dm ∧ (State.fetchFx s n p).ctu = s.ctu ∧ (State.fetchFx s n p).links = s.links ∧ (State.fetchFx s n p).aplicS = s.aplicS ∧ (State.fetchFx s n p).aplicN = s.aplicN ∧ (State.fetchFx s n p).credits = s.credits ∧ (State.fetchFx s n p).clusters = s.clusters ∧ (State.fetchFx s n p).homes = s.homes ∧ (State.fetchFx s n p).pkts = s.pkts ∧ (State.fetchFx s n p).resp = s.resp ∧ (State.fetchFx s n p).wires = s.wires ∧ (State.fetchFx s n p).dmg = s.dmg ∧ (State.fetchFx s n p).wq = s.wq ∧ (State.fetchFx s n p).net = s.net ∧ (State.fetchFx s n p).dbInval = s.dbInval ∧ (State.fetchFx s n p).watch = s.watch ∧ (State.fetchFx s n p).pkg = s.pkg ∧ (State.fetchFx s n p).pmc = s.pmc ∧ (State.fetchFx s n p).fwLog = s.fwLog ∧ (State.fetchFx s n p).free = s.free ∧ (State.fetchFx s n p).fabric = s.fabric ∧ (State.fetchFx s n p).files = s.files := by
  generalize h : State.fetchFx s n p = u
  unfold State.fetchFx at h
  rw [← h]; simp [kept @State.fxFetch_fr, kept @State.setPort_fr]

theorem State.fetchUp_fr (s : State) (n : Nat) (k : Nat) : (State.fetchUp s n k).pending = s.pending ∧ (State.fetchUp s n k).flash = s.flash ∧ (State.fetchUp s n k).coldOpt = s.coldOpt ∧ (State.fetchUp s n k).mem = s.mem ∧ (State.fetchUp s n k).harts = s.harts ∧ (State.fetchUp s n k).imsic = s.imsic ∧ (State.fetchUp s n k).dm = s.dm ∧ (State.fetchUp s n k).ctu = s.ctu ∧ (State.fetchUp s n k).links = s.links ∧ (State.fetchUp s n k).aplicS = s.aplicS ∧ (State.fetchUp s n k).aplicN = s.aplicN ∧ (State.fetchUp s n k).credits = s.credits ∧ (State.fetchUp s n k).clusters = s.clusters ∧ (State.fetchUp s n k).homes = s.homes ∧ (State.fetchUp s n k).pkts = s.pkts ∧ (State.fetchUp s n k).resp = s.resp ∧ (State.fetchUp s n k).dmg = s.dmg ∧ (State.fetchUp s n k).net = s.net ∧ (State.fetchUp s n k).dbInval = s.dbInval ∧ (State.fetchUp s n k).watch = s.watch ∧ (State.fetchUp s n k).free = s.free ∧ (State.fetchUp s n k).fabric = s.fabric ∧ (State.fetchUp s n k).files = s.files := by
  generalize h : State.fetchUp s n k = u
  unfold State.fetchUp at h
  rw [← h]; simp [kept @State.fetchOne_getD, kept @State.fetchOne_fr]

theorem State.fetchMore_fr (s : State) (n : Nat) : (State.fetchMore s n).pending = s.pending ∧ (State.fetchMore s n).flash = s.flash ∧ (State.fetchMore s n).coldOpt = s.coldOpt ∧ (State.fetchMore s n).mem = s.mem ∧ (State.fetchMore s n).harts = s.harts ∧ (State.fetchMore s n).imsic = s.imsic ∧ (State.fetchMore s n).dm = s.dm ∧ (State.fetchMore s n).ctu = s.ctu ∧ (State.fetchMore s n).links = s.links ∧ (State.fetchMore s n).aplicS = s.aplicS ∧ (State.fetchMore s n).aplicN = s.aplicN ∧ (State.fetchMore s n).credits = s.credits ∧ (State.fetchMore s n).clusters = s.clusters ∧ (State.fetchMore s n).homes = s.homes ∧ (State.fetchMore s n).pkts = s.pkts ∧ (State.fetchMore s n).resp = s.resp ∧ (State.fetchMore s n).dmg = s.dmg ∧ (State.fetchMore s n).net = s.net ∧ (State.fetchMore s n).dbInval = s.dbInval ∧ (State.fetchMore s n).watch = s.watch ∧ (State.fetchMore s n).free = s.free ∧ (State.fetchMore s n).fabric = s.fabric ∧ (State.fetchMore s n).files = s.files := by
  generalize h : State.fetchMore s n = u
  unfold State.fetchMore at h
  (try dsimp only at h); (repeat' split at h) <;> rw [← h] <;> simp [kept @State.fetchFx_fr, kept @State.fetchUp_fr]

theorem State.fetchAll_fr (s : State) : (State.fetchAll s).pending = s.pending ∧ (State.fetchAll s).flash = s.flash ∧ (State.fetchAll s).coldOpt = s.coldOpt ∧ (State.fetchAll s).mem = s.mem ∧ (State.fetchAll s).harts = s.harts ∧ (State.fetchAll s).imsic = s.imsic ∧ (State.fetchAll s).dm = s.dm ∧ (State.fetchAll s).ctu = s.ctu ∧ (State.fetchAll s).links = s.links ∧ (State.fetchAll s).aplicS = s.aplicS ∧ (State.fetchAll s).aplicN = s.aplicN ∧ (State.fetchAll s).credits = s.credits ∧ (State.fetchAll s).clusters = s.clusters ∧ (State.fetchAll s).homes = s.homes ∧ (State.fetchAll s).pkts = s.pkts ∧ (State.fetchAll s).resp = s.resp ∧ (State.fetchAll s).dmg = s.dmg ∧ (State.fetchAll s).net = s.net ∧ (State.fetchAll s).dbInval = s.dbInval ∧ (State.fetchAll s).watch = s.watch ∧ (State.fetchAll s).free = s.free ∧ (State.fetchAll s).fabric = s.fabric ∧ (State.fetchAll s).files = s.files := by
  generalize h : State.fetchAll s = u
  unfold State.fetchAll at h
  rw [← h]; simp [kept @State.fetchMore_fr]

theorem State.doorbell_fr (s : State) (n : Nat) (v : Nat) : (State.doorbell s n v).pending = s.pending ∧ (State.doorbell s n v).flash = s.flash ∧ (State.doorbell s n v).coldOpt = s.coldOpt ∧ (State.doorbell s n v).mem = s.mem ∧ (State.doorbell s n v).harts = s.harts ∧ (State.doorbell s n v).imsic = s.imsic ∧ (State.doorbell s n v).dm = s.dm ∧ (State.doorbell s n v).ctu = s.ctu ∧ (State.doorbell s n v).links = s.links ∧ (State.doorbell s n v).aplicS = s.aplicS ∧ (State.doorbell s n v).aplicN = s.aplicN ∧ (State.doorbell s n v).credits = s.credits ∧ (State.doorbell s n v).clusters = s.clusters ∧ (State.doorbell s n v).homes = s.homes ∧ (State.doorbell s n v).pkts = s.pkts ∧ (State.doorbell s n v).resp = s.resp ∧ (State.doorbell s n v).dmg = s.dmg ∧ (State.doorbell s n v).net = s.net ∧ (State.doorbell s n v).dbInval = s.dbInval ∧ (State.doorbell s n v).watch = s.watch ∧ (State.doorbell s n v).free = s.free ∧ (State.doorbell s n v).fabric = s.fabric ∧ (State.doorbell s n v).files = s.files := by
  generalize h : State.doorbell s n v = u
  unfold State.doorbell at h
  rw [← h]; simp [kept @State.fetchMore_fr, kept @State.ringError_fr, kept @State.setRing_fr]

theorem State.readSlot_fr (s : State) (n : Nat) : (State.readSlot s n).pending = s.pending ∧ (State.readSlot s n).flash = s.flash ∧ (State.readSlot s n).coldOpt = s.coldOpt ∧ (State.readSlot s n).mem = s.mem ∧ (State.readSlot s n).harts = s.harts ∧ (State.readSlot s n).imsic = s.imsic ∧ (State.readSlot s n).dm = s.dm ∧ (State.readSlot s n).ctu = s.ctu ∧ (State.readSlot s n).links = s.links ∧ (State.readSlot s n).aplicS = s.aplicS ∧ (State.readSlot s n).aplicN = s.aplicN ∧ (State.readSlot s n).credits = s.credits ∧ (State.readSlot s n).clusters = s.clusters ∧ (State.readSlot s n).homes = s.homes ∧ (State.readSlot s n).pkts = s.pkts ∧ (State.readSlot s n).resp = s.resp ∧ (State.readSlot s n).dmg = s.dmg ∧ (State.readSlot s n).net = s.net ∧ (State.readSlot s n).dbInval = s.dbInval ∧ (State.readSlot s n).watch = s.watch ∧ (State.readSlot s n).free = s.free ∧ (State.readSlot s n).fabric = s.fabric ∧ (State.readSlot s n).files = s.files := by
  generalize h : State.readSlot s n = u
  unfold State.readSlot at h
  rw [← h]; simp [kept @State.doorbell_fr, kept @State.readPa_fr, kept @State.ringError_fr]

theorem State.drained_fr (s : State) (n : Nat) : (State.drained s n).pending = s.pending ∧ (State.drained s n).flash = s.flash ∧ (State.drained s n).coldOpt = s.coldOpt ∧ (State.drained s n).mem = s.mem ∧ (State.drained s n).harts = s.harts ∧ (State.drained s n).mram = s.mram ∧ (State.drained s n).imsic = s.imsic ∧ (State.drained s n).eng = s.eng ∧ (State.drained s n).dm = s.dm ∧ (State.drained s n).fx = s.fx ∧ (State.drained s n).ctu = s.ctu ∧ (State.drained s n).links = s.links ∧ (State.drained s n).aplicS = s.aplicS ∧ (State.drained s n).aplicN = s.aplicN ∧ (State.drained s n).credits = s.credits ∧ (State.drained s n).clusters = s.clusters ∧ (State.drained s n).homes = s.homes ∧ (State.drained s n).pkts = s.pkts ∧ (State.drained s n).resp = s.resp ∧ (State.drained s n).wires = s.wires ∧ (State.drained s n).dmg = s.dmg ∧ (State.drained s n).wq = s.wq ∧ (State.drained s n).net = s.net ∧ (State.drained s n).dbInval = s.dbInval ∧ (State.drained s n).watch = s.watch ∧ (State.drained s n).pkg = s.pkg ∧ (State.drained s n).pmc = s.pmc ∧ (State.drained s n).fwLog = s.fwLog ∧ (State.drained s n).out = s.out ∧ (State.drained s n).free = s.free ∧ (State.drained s n).fabric = s.fabric ∧ (State.drained s n).files = s.files := by
  generalize h : State.drained s n = u
  unfold State.drained at h
  rw [← h]; simp [kept @State.wr_fr]

theorem State.freeImages_fr (s : State) : (State.freeImages s).pending = s.pending ∧ (State.freeImages s).flash = s.flash ∧ (State.freeImages s).coldOpt = s.coldOpt ∧ (State.freeImages s).mem = s.mem ∧ (State.freeImages s).harts = s.harts ∧ (State.freeImages s).mram = s.mram ∧ (State.freeImages s).imsic = s.imsic ∧ (State.freeImages s).dm = s.dm ∧ (State.freeImages s).fx = s.fx ∧ (State.freeImages s).ctu = s.ctu ∧ (State.freeImages s).links = s.links ∧ (State.freeImages s).aplicS = s.aplicS ∧ (State.freeImages s).aplicN = s.aplicN ∧ (State.freeImages s).credits = s.credits ∧ (State.freeImages s).clusters = s.clusters ∧ (State.freeImages s).homes = s.homes ∧ (State.freeImages s).pkts = s.pkts ∧ (State.freeImages s).resp = s.resp ∧ (State.freeImages s).regs = s.regs ∧ (State.freeImages s).wires = s.wires ∧ (State.freeImages s).dmg = s.dmg ∧ (State.freeImages s).wq = s.wq ∧ (State.freeImages s).net = s.net ∧ (State.freeImages s).dbInval = s.dbInval ∧ (State.freeImages s).watch = s.watch ∧ (State.freeImages s).pkg = s.pkg ∧ (State.freeImages s).pmc = s.pmc ∧ (State.freeImages s).fwLog = s.fwLog ∧ (State.freeImages s).out = s.out ∧ (State.freeImages s).free = s.free ∧ (State.freeImages s).fabric = s.fabric ∧ (State.freeImages s).files = s.files := by
  generalize h : State.freeImages s = u
  unfold State.freeImages at h
  rw [← h]; simp [kept @State.eng'_fr]

theorem State.fxEnd_fr (s : State) (d : Desc) (p : Nat) : (State.fxEnd s d p).pending = s.pending ∧ (State.fxEnd s d p).flash = s.flash ∧ (State.fxEnd s d p).coldOpt = s.coldOpt ∧ (State.fxEnd s d p).mem = s.mem ∧ (State.fxEnd s d p).harts = s.harts ∧ (State.fxEnd s d p).mram = s.mram ∧ (State.fxEnd s d p).imsic = s.imsic ∧ (State.fxEnd s d p).eng = s.eng ∧ (State.fxEnd s d p).dm = s.dm ∧ (State.fxEnd s d p).ctu = s.ctu ∧ (State.fxEnd s d p).links = s.links ∧ (State.fxEnd s d p).aplicS = s.aplicS ∧ (State.fxEnd s d p).aplicN = s.aplicN ∧ (State.fxEnd s d p).credits = s.credits ∧ (State.fxEnd s d p).clusters = s.clusters ∧ (State.fxEnd s d p).homes = s.homes ∧ (State.fxEnd s d p).pkts = s.pkts ∧ (State.fxEnd s d p).resp = s.resp ∧ (State.fxEnd s d p).regs = s.regs ∧ (State.fxEnd s d p).wires = s.wires ∧ (State.fxEnd s d p).dmg = s.dmg ∧ (State.fxEnd s d p).wq = s.wq ∧ (State.fxEnd s d p).net = s.net ∧ (State.fxEnd s d p).dbInval = s.dbInval ∧ (State.fxEnd s d p).watch = s.watch ∧ (State.fxEnd s d p).pkg = s.pkg ∧ (State.fxEnd s d p).pmc = s.pmc ∧ (State.fxEnd s d p).fwLog = s.fwLog ∧ (State.fxEnd s d p).out = s.out ∧ (State.fxEnd s d p).free = s.free ∧ (State.fxEnd s d p).fabric = s.fabric ∧ (State.fxEnd s d p).files = s.files := by
  generalize h : State.fxEnd s d p = u
  unfold State.fxEnd at h
  (try dsimp only at h); (repeat' split at h) <;> rw [← h] <;> simp [kept @State.setPort_fr, kept @State.stageClose_fr]

theorem State.respond_fr (s : State) (d : Desc) (p : Nat) (j : Nat) : (State.respond s d p j).pending = s.pending ∧ (State.respond s d p j).flash = s.flash ∧ (State.respond s d p j).coldOpt = s.coldOpt ∧ (State.respond s d p j).mem = s.mem ∧ (State.respond s d p j).harts = s.harts ∧ (State.respond s d p j).imsic = s.imsic ∧ (State.respond s d p j).eng = s.eng ∧ (State.respond s d p j).dm = s.dm ∧ (State.respond s d p j).ctu = s.ctu ∧ (State.respond s d p j).links = s.links ∧ (State.respond s d p j).aplicS = s.aplicS ∧ (State.respond s d p j).aplicN = s.aplicN ∧ (State.respond s d p j).credits = s.credits ∧ (State.respond s d p j).clusters = s.clusters ∧ (State.respond s d p j).homes = s.homes ∧ (State.respond s d p j).pkts = s.pkts ∧ (State.respond s d p j).resp = s.resp ∧ (State.respond s d p j).dmg = s.dmg ∧ (State.respond s d p j).net = s.net ∧ (State.respond s d p j).dbInval = s.dbInval ∧ (State.respond s d p j).watch = s.watch ∧ (State.respond s d p j).free = s.free ∧ (State.respond s d p j).fabric = s.fabric ∧ (State.respond s d p j).files = s.files := by
  generalize h : State.respond s d p j = u
  unfold State.respond at h
  (try dsimp only at h); (repeat' split at h) <;> rw [← h] <;> simp [kept @State.fxDropped_fr, kept @State.fxEnd_fr, kept @State.fxInto_fr, kept @State.stageRead_fr]

theorem State.letGo_fr (s : State) (n : Nat) (seq : Nat) : (State.letGo s n seq).pending = s.pending ∧ (State.letGo s n seq).flash = s.flash ∧ (State.letGo s n seq).coldOpt = s.coldOpt ∧ (State.letGo s n seq).mem = s.mem ∧ (State.letGo s n seq).harts = s.harts ∧ (State.letGo s n seq).imsic = s.imsic ∧ (State.letGo s n seq).dm = s.dm ∧ (State.letGo s n seq).ctu = s.ctu ∧ (State.letGo s n seq).links = s.links ∧ (State.letGo s n seq).aplicS = s.aplicS ∧ (State.letGo s n seq).aplicN = s.aplicN ∧ (State.letGo s n seq).credits = s.credits ∧ (State.letGo s n seq).clusters = s.clusters ∧ (State.letGo s n seq).homes = s.homes ∧ (State.letGo s n seq).pkts = s.pkts ∧ (State.letGo s n seq).resp = s.resp ∧ (State.letGo s n seq).dmg = s.dmg ∧ (State.letGo s n seq).net = s.net ∧ (State.letGo s n seq).dbInval = s.dbInval ∧ (State.letGo s n seq).watch = s.watch ∧ (State.letGo s n seq).free = s.free ∧ (State.letGo s n seq).fabric = s.fabric ∧ (State.letGo s n seq).files = s.files := by
  generalize h : State.letGo s n seq = u
  unfold State.letGo at h
  rw [← h]; simp [kept @State.drained_fr, kept @State.eng'_fr, kept @State.fetchAll_fr, kept @State.freeImages_fr]

theorem State.holdRecord_fr (s : State) (n : Nat) : (State.holdRecord s n).pending = s.pending ∧ (State.holdRecord s n).flash = s.flash ∧ (State.holdRecord s n).coldOpt = s.coldOpt ∧ (State.holdRecord s n).mem = s.mem ∧ (State.holdRecord s n).harts = s.harts ∧ (State.holdRecord s n).mram = s.mram ∧ (State.holdRecord s n).imsic = s.imsic ∧ (State.holdRecord s n).dm = s.dm ∧ (State.holdRecord s n).fx = s.fx ∧ (State.holdRecord s n).ctu = s.ctu ∧ (State.holdRecord s n).links = s.links ∧ (State.holdRecord s n).aplicS = s.aplicS ∧ (State.holdRecord s n).aplicN = s.aplicN ∧ (State.holdRecord s n).credits = s.credits ∧ (State.holdRecord s n).clusters = s.clusters ∧ (State.holdRecord s n).homes = s.homes ∧ (State.holdRecord s n).pkts = s.pkts ∧ (State.holdRecord s n).resp = s.resp ∧ (State.holdRecord s n).regs = s.regs ∧ (State.holdRecord s n).wires = s.wires ∧ (State.holdRecord s n).dmg = s.dmg ∧ (State.holdRecord s n).wq = s.wq ∧ (State.holdRecord s n).net = s.net ∧ (State.holdRecord s n).dbInval = s.dbInval ∧ (State.holdRecord s n).watch = s.watch ∧ (State.holdRecord s n).pkg = s.pkg ∧ (State.holdRecord s n).pmc = s.pmc ∧ (State.holdRecord s n).fwLog = s.fwLog ∧ (State.holdRecord s n).out = s.out ∧ (State.holdRecord s n).free = s.free ∧ (State.holdRecord s n).fabric = s.fabric ∧ (State.holdRecord s n).files = s.files := by
  generalize h : State.holdRecord s n = u
  unfold State.holdRecord at h
  rw [← h]; simp [kept @State.setRing_fr]

theorem State.fileRecord_fr (s : State) (d : Desc) (j : Nat) : (State.fileRecord s d j).pending = s.pending ∧ (State.fileRecord s d j).flash = s.flash ∧ (State.fileRecord s d j).coldOpt = s.coldOpt ∧ (State.fileRecord s d j).dm = s.dm ∧ (State.fileRecord s d j).ctu = s.ctu ∧ (State.fileRecord s d j).links = s.links ∧ (State.fileRecord s d j).aplicS = s.aplicS ∧ (State.fileRecord s d j).aplicN = s.aplicN ∧ (State.fileRecord s d j).credits = s.credits ∧ (State.fileRecord s d j).pkts = s.pkts ∧ (State.fileRecord s d j).resp = s.resp ∧ (State.fileRecord s d j).free = s.free ∧ (State.fileRecord s d j).fabric = s.fabric ∧ (State.fileRecord s d j).files = s.files := by
  generalize h : State.fileRecord s d j = u
  unfold State.fileRecord at h
  rw [← h]; simp [kept @State.addF_fr, kept @State.holdRecord_fr, kept @State.msiTo_fr, kept @State.ringError_fr, kept @State.writePa_fr]

theorem State.freeRun_fr (s : State) (d : Desc) : (State.freeRun s d).pending = s.pending ∧ (State.freeRun s d).flash = s.flash ∧ (State.freeRun s d).coldOpt = s.coldOpt ∧ (State.freeRun s d).imsic = s.imsic ∧ (State.freeRun s d).dm = s.dm ∧ (State.freeRun s d).fx = s.fx ∧ (State.freeRun s d).ctu = s.ctu ∧ (State.freeRun s d).links = s.links ∧ (State.freeRun s d).aplicS = s.aplicS ∧ (State.freeRun s d).aplicN = s.aplicN ∧ (State.freeRun s d).credits = s.credits ∧ (State.freeRun s d).pkts = s.pkts ∧ (State.freeRun s d).resp = s.resp ∧ (State.freeRun s d).out = s.out ∧ (State.freeRun s d).free = s.free ∧ (State.freeRun s d).fabric = s.fabric ∧ (State.freeRun s d).files = s.files := by
  generalize h : State.freeRun s d = u
  unfold State.freeRun at h
  (try dsimp only at h); (repeat' split at h) <;> rw [← h] <;> simp [kept @State.freeSpill_fr]

theorem State.putRecord_fr (s : State) (d : Desc) : (State.putRecord s d).pending = s.pending ∧ (State.putRecord s d).flash = s.flash ∧ (State.putRecord s d).coldOpt = s.coldOpt ∧ (State.putRecord s d).dm = s.dm ∧ (State.putRecord s d).ctu = s.ctu ∧ (State.putRecord s d).links = s.links ∧ (State.putRecord s d).aplicS = s.aplicS ∧ (State.putRecord s d).aplicN = s.aplicN ∧ (State.putRecord s d).credits = s.credits ∧ (State.putRecord s d).pkts = s.pkts ∧ (State.putRecord s d).resp = s.resp ∧ (State.putRecord s d).free = s.free ∧ (State.putRecord s d).fabric = s.fabric ∧ (State.putRecord s d).files = s.files := by
  generalize h : State.putRecord s d = u
  unfold State.putRecord at h
  (try dsimp only at h); (repeat' split at h) <;> rw [← h] <;> simp [kept @State.addF_fr, kept @State.fileRecord_fr, kept @State.fxEnd_fr, kept @State.holdRecord_fr, kept @State.respond_fr]

theorem State.complete_fr (s : State) (d : Desc) : (State.complete s d).pending = s.pending ∧ (State.complete s d).flash = s.flash ∧ (State.complete s d).coldOpt = s.coldOpt ∧ (State.complete s d).dm = s.dm ∧ (State.complete s d).ctu = s.ctu ∧ (State.complete s d).links = s.links ∧ (State.complete s d).aplicS = s.aplicS ∧ (State.complete s d).aplicN = s.aplicN ∧ (State.complete s d).credits = s.credits ∧ (State.complete s d).pkts = s.pkts ∧ (State.complete s d).resp = s.resp ∧ (State.complete s d).free = s.free ∧ (State.complete s d).fabric = s.fabric ∧ (State.complete s d).files = s.files := by
  generalize h : State.complete s d = u
  unfold State.complete at h
  rw [← h]; simp [kept @State.freeRun_fr, kept @State.letGo_fr, kept @State.putRecord_fr]

end Sys2Proof.Machine
end

