-- ==== Sys2Proof/Laws/Frame/EngBatch.lean ====
section
/-! SUPPORT. What the operations of Machine/EngBatch.lean leave unchanged. -/

set_option Elab.async false
set_option linter.all false

namespace Sys2Proof.Machine
open Sys2Proof

@[simp] theorem State.taskOp_pending (s : State) (n opc : Nat) (f : OpCtx → Task → Batch → EM Unit)
    (hf : ∀ c t b, KeepsM State.pending (f c t b)) : (State.taskOp s n opc f).pending = s.pending := by
  unfold State.taskOp
  refine State.taskDo_pending _ _ _ (fun _ => ?_)
  (repeat' split)
  all_goals first | exact keepsM_pure _ _ | simp [*]

@[simp] theorem State.taskOp_files (s : State) (n opc : Nat) (f : OpCtx → Task → Batch → EM Unit)
    (hf : ∀ c t b, KeepsM State.files (f c t b)) : (State.taskOp s n opc f).files = s.files := by
  unfold State.taskOp
  refine State.taskDo_files _ _ _ (fun _ => ?_)
  (repeat' split)
  all_goals first | exact keepsM_pure _ _ | simp [*]

@[simp] theorem State.taskOp_fabric (s : State) (n opc : Nat) (f : OpCtx → Task → Batch → EM Unit)
    (hf : ∀ c t b, KeepsM State.fabric (f c t b)) : (State.taskOp s n opc f).fabric = s.fabric := by
  unfold State.taskOp
  refine State.taskDo_fabric _ _ _ (fun _ => ?_)
  (repeat' split)
  all_goals first | exact keepsM_pure _ _ | simp [*]

@[simp] theorem State.taskOp_flash (s : State) (n opc : Nat) (f : OpCtx → Task → Batch → EM Unit)
    (hf : ∀ c t b, KeepsM State.flash (f c t b)) : (State.taskOp s n opc f).flash = s.flash := by
  unfold State.taskOp
  refine State.taskDo_flash _ _ _ (fun _ => ?_)
  (repeat' split)
  all_goals first | exact keepsM_pure _ _ | simp [*]

@[simp] theorem State.taskOp_coldOpt (s : State) (n opc : Nat) (f : OpCtx → Task → Batch → EM Unit)
    (hf : ∀ c t b, KeepsM State.coldOpt (f c t b)) : (State.taskOp s n opc f).coldOpt = s.coldOpt := by
  unfold State.taskOp
  refine State.taskDo_coldOpt _ _ _ (fun _ => ?_)
  (repeat' split)
  all_goals first | exact keepsM_pure _ _ | simp [*]

@[simp] theorem State.taskOp_imsic (s : State) (n opc : Nat) (f : OpCtx → Task → Batch → EM Unit)
    (hf : ∀ c t b, KeepsM State.imsic (f c t b)) : (State.taskOp s n opc f).imsic = s.imsic := by
  unfold State.taskOp
  refine State.taskDo_imsic _ _ _ (fun _ => ?_)
  (repeat' split)
  all_goals first | exact keepsM_pure _ _ | simp [*]

@[simp] theorem State.taskOp_dm (s : State) (n opc : Nat) (f : OpCtx → Task → Batch → EM Unit)
    (hf : ∀ c t b, KeepsM State.dm (f c t b)) : (State.taskOp s n opc f).dm = s.dm := by
  unfold State.taskOp
  refine State.taskDo_dm _ _ _ (fun _ => ?_)
  (repeat' split)
  all_goals first | exact keepsM_pure _ _ | simp [*]

@[simp] theorem State.taskOp_ctu (s : State) (n opc : Nat) (f : OpCtx → Task → Batch → EM Unit)
    (hf : ∀ c t b, KeepsM State.ctu (f c t b)) : (State.taskOp s n opc f).ctu = s.ctu := by
  unfold State.taskOp
  refine State.taskDo_ctu _ _ _ (fun _ => ?_)
  (repeat' split)
  all_goals first | exact keepsM_pure _ _ | simp [*]

@[simp] theorem State.taskOp_links (s : State) (n opc : Nat) (f : OpCtx → Task → Batch → EM Unit)
    (hf : ∀ c t b, KeepsM State.links (f c t b)) : (State.taskOp s n opc f).links = s.links := by
  unfold State.taskOp
  refine State.taskDo_links _ _ _ (fun _ => ?_)
  (repeat' split)
  all_goals first | exact keepsM_pure _ _ | simp [*]

@[simp] theorem State.taskOp_aplicS (s : State) (n opc : Nat) (f : OpCtx → Task → Batch → EM Unit)
    (hf : ∀ c t b, KeepsM State.aplicS (f c t b)) : (State.taskOp s n opc f).aplicS = s.aplicS := by
  unfold State.taskOp
  refine State.taskDo_aplicS _ _ _ (fun _ => ?_)
  (repeat' split)
  all_goals first | exact keepsM_pure _ _ | simp [*]

@[simp] theorem State.taskOp_aplicN (s : State) (n opc : Nat) (f : OpCtx → Task → Batch → EM Unit)
    (hf : ∀ c t b, KeepsM State.aplicN (f c t b)) : (State.taskOp s n opc f).aplicN = s.aplicN := by
  unfold State.taskOp
  refine State.taskDo_aplicN _ _ _ (fun _ => ?_)
  (repeat' split)
  all_goals first | exact keepsM_pure _ _ | simp [*]

@[simp] theorem State.taskOp_credits (s : State) (n opc : Nat) (f : OpCtx → Task → Batch → EM Unit)
    (hf : ∀ c t b, KeepsM State.credits (f c t b)) : (State.taskOp s n opc f).credits = s.credits := by
  unfold State.taskOp
  refine State.taskDo_credits _ _ _ (fun _ => ?_)
  (repeat' split)
  all_goals first | exact keepsM_pure _ _ | simp [*]

@[simp] theorem State.taskOp_pkts (s : State) (n opc : Nat) (f : OpCtx → Task → Batch → EM Unit)
    (hf : ∀ c t b, KeepsM State.pkts (f c t b)) : (State.taskOp s n opc f).pkts = s.pkts := by
  unfold State.taskOp
  refine State.taskDo_pkts _ _ _ (fun _ => ?_)
  (repeat' split)
  all_goals first | exact keepsM_pure _ _ | simp [*]

@[simp] theorem State.taskOp_resp (s : State) (n opc : Nat) (f : OpCtx → Task → Batch → EM Unit)
    (hf : ∀ c t b, KeepsM State.resp (f c t b)) : (State.taskOp s n opc f).resp = s.resp := by
  unfold State.taskOp
  refine State.taskDo_resp _ _ _ (fun _ => ?_)
  (repeat' split)
  all_goals first | exact keepsM_pure _ _ | simp [*]

@[simp] theorem State.taskOp_free (s : State) (n opc : Nat) (f : OpCtx → Task → Batch → EM Unit)
    (hf : ∀ c t b, KeepsM State.free (f c t b)) : (State.taskOp s n opc f).free = s.free := by
  unfold State.taskOp
  refine State.taskDo_free _ _ _ (fun _ => ?_)
  (repeat' split)
  all_goals first | exact keepsM_pure _ _ | simp [*]

@[simp] theorem sealFlits_beside (n : Nat) : KeepsM State.beside (sealFlits n) := by
  unfold sealFlits; (repeat' (first | with_reducible exact keepsM_pure _ _ | with_reducible exact keepsM_throw _ _ | with_reducible exact keepsM_get _ | with_reducible refine keepsM_bind ?_ (fun _ => ?_) | with_reducible refine keepsM_mapM (fun _ => ?_) _ | with_reducible refine keepsM_forM (fun _ => ?_) _ | with_reducible refine keepsM_foldlM (fun _ _ => ?_) _ _ | with_reducible refine doSt_keeps _ (fun _ => ?_) | with_reducible refine askSt_keeps _ (fun _ => ?_) | (simp [kept @State.sealed_fr]; done) | (simp [*, kept @State.sealed_fr]; done) | split | dsimp only))

@[simp] theorem sealFlits_apart (n : Nat) : KeepsM State.apart (sealFlits n) := by
  unfold sealFlits; (repeat' (first | with_reducible exact keepsM_pure _ _ | with_reducible exact keepsM_throw _ _ | with_reducible exact keepsM_get _ | with_reducible refine keepsM_bind ?_ (fun _ => ?_) | with_reducible refine keepsM_mapM (fun _ => ?_) _ | with_reducible refine keepsM_forM (fun _ => ?_) _ | with_reducible refine keepsM_foldlM (fun _ _ => ?_) _ _ | with_reducible refine doSt_keeps _ (fun _ => ?_) | with_reducible refine askSt_keeps _ (fun _ => ?_) | (simp [kept @State.sealed_fr]; done) | (simp [*, kept @State.sealed_fr]; done) | split | dsimp only))

theorem sealFlits_fr (n : Nat) : KeepsM State.mram (sealFlits n) ∧ KeepsM State.regs (sealFlits n) ∧ KeepsM State.wires (sealFlits n) ∧ KeepsM State.wq (sealFlits n) ∧ KeepsM State.pkg (sealFlits n) ∧ KeepsM State.pmc (sealFlits n) ∧ KeepsM State.fwLog (sealFlits n) ∧ KeepsM State.free (sealFlits n) := by
  refine ⟨?_, ?_, ?_, ?_, ?_, ?_, ?_, ?_⟩ <;> (unfold sealFlits; (repeat' (first | with_reducible exact keepsM_pure _ _ | with_reducible exact keepsM_throw _ _ | with_reducible exact keepsM_get _ | with_reducible refine keepsM_bind ?_ (fun _ => ?_) | with_reducible refine keepsM_mapM (fun _ => ?_) _ | with_reducible refine keepsM_forM (fun _ => ?_) _ | with_reducible refine keepsM_foldlM (fun _ _ => ?_) _ _ | with_reducible refine doSt_keeps _ (fun _ => ?_) | with_reducible refine askSt_keeps _ (fun _ => ?_) | (simp [kept @State.sealed_fr]; done) | (simp [*, kept @State.sealed_fr]; done) | split | dsimp only)))

@[simp] theorem opDone_beside (n : Nat) (b : Batch) : KeepsM State.beside (opDone n b) := by
  unfold opDone; (repeat' (first | with_reducible exact keepsM_pure _ _ | with_reducible exact keepsM_throw _ _ | with_reducible exact keepsM_get _ | with_reducible refine keepsM_bind ?_ (fun _ => ?_) | with_reducible refine keepsM_mapM (fun _ => ?_) _ | with_reducible refine keepsM_forM (fun _ => ?_) _ | with_reducible refine keepsM_foldlM (fun _ _ => ?_) _ _ | with_reducible refine doSt_keeps _ (fun _ => ?_) | with_reducible refine askSt_keeps _ (fun _ => ?_) | (simp [kept @sealFlits_fr, kept @updTask_fr]; done) | (simp [*, kept @sealFlits_fr, kept @updTask_fr]; done) | split | dsimp only))

@[simp] theorem opDone_apart (n : Nat) (b : Batch) : KeepsM State.apart (opDone n b) := by
  unfold opDone; (repeat' (first | with_reducible exact keepsM_pure _ _ | with_reducible exact keepsM_throw _ _ | with_reducible exact keepsM_get _ | with_reducible refine keepsM_bind ?_ (fun _ => ?_) | with_reducible refine keepsM_mapM (fun _ => ?_) _ | with_reducible refine keepsM_forM (fun _ => ?_) _ | with_reducible refine keepsM_foldlM (fun _ _ => ?_) _ _ | with_reducible refine doSt_keeps _ (fun _ => ?_) | with_reducible refine askSt_keeps _ (fun _ => ?_) | (simp [kept @sealFlits_fr, kept @updTask_fr]; done) | (simp [*, kept @sealFlits_fr, kept @updTask_fr]; done) | split | dsimp only))

theorem opDone_fr (n : Nat) (b : Batch) : KeepsM State.mram (opDone n b) ∧ KeepsM State.regs (opDone n b) ∧ KeepsM State.wires (opDone n b) ∧ KeepsM State.wq (opDone n b) ∧ KeepsM State.pkg (opDone n b) ∧ KeepsM State.pmc (opDone n b) ∧ KeepsM State.fwLog (opDone n b) ∧ KeepsM State.free (opDone n b) := by
  refine ⟨?_, ?_, ?_, ?_, ?_, ?_, ?_, ?_⟩ <;> (unfold opDone; (repeat' (first | with_reducible exact keepsM_pure _ _ | with_reducible exact keepsM_throw _ _ | with_reducible exact keepsM_get _ | with_reducible refine keepsM_bind ?_ (fun _ => ?_) | with_reducible refine keepsM_mapM (fun _ => ?_) _ | with_reducible refine keepsM_forM (fun _ => ?_) _ | with_reducible refine keepsM_foldlM (fun _ _ => ?_) _ _ | with_reducible refine doSt_keeps _ (fun _ => ?_) | with_reducible refine askSt_keeps _ (fun _ => ?_) | (simp [kept @sealFlits_fr, kept @updTask_fr]; done) | (simp [*, kept @sealFlits_fr, kept @updTask_fr]; done) | split | dsimp only)))

@[simp] theorem strOf_beside (n : Nat) (t : Task) (c : Cell) : KeepsM State.beside (strOf n t c) := by
  unfold strOf; (repeat' (first | with_reducible exact keepsM_pure _ _ | with_reducible exact keepsM_throw _ _ | with_reducible exact keepsM_get _ | with_reducible refine keepsM_bind ?_ (fun _ => ?_) | with_reducible refine keepsM_mapM (fun _ => ?_) _ | with_reducible refine keepsM_forM (fun _ => ?_) _ | with_reducible refine keepsM_foldlM (fun _ _ => ?_) _ _ | with_reducible refine doSt_keeps _ (fun _ => ?_) | with_reducible refine askSt_keeps _ (fun _ => ?_) | (simp [kept @State.pmcSlc_fr, kept @vread_fr]; done) | (simp [*, kept @State.pmcSlc_fr, kept @vread_fr]; done) | split | dsimp only))

@[simp] theorem strOf_apart (n : Nat) (t : Task) (c : Cell) : KeepsM State.apart (strOf n t c) := by
  unfold strOf; (repeat' (first | with_reducible exact keepsM_pure _ _ | with_reducible exact keepsM_throw _ _ | with_reducible exact keepsM_get _ | with_reducible refine keepsM_bind ?_ (fun _ => ?_) | with_reducible refine keepsM_mapM (fun _ => ?_) _ | with_reducible refine keepsM_forM (fun _ => ?_) _ | with_reducible refine keepsM_foldlM (fun _ _ => ?_) _ _ | with_reducible refine doSt_keeps _ (fun _ => ?_) | with_reducible refine askSt_keeps _ (fun _ => ?_) | (simp [kept @State.pmcSlc_fr, kept @vread_fr]; done) | (simp [*, kept @State.pmcSlc_fr, kept @vread_fr]; done) | split | dsimp only))

theorem strOf_fr (n : Nat) (t : Task) (c : Cell) : KeepsM State.free (strOf n t c) := by
  unfold strOf; (repeat' (first | with_reducible exact keepsM_pure _ _ | with_reducible exact keepsM_throw _ _ | with_reducible exact keepsM_get _ | with_reducible refine keepsM_bind ?_ (fun _ => ?_) | with_reducible refine keepsM_mapM (fun _ => ?_) _ | with_reducible refine keepsM_forM (fun _ => ?_) _ | with_reducible refine keepsM_foldlM (fun _ _ => ?_) _ _ | with_reducible refine doSt_keeps _ (fun _ => ?_) | with_reducible refine askSt_keeps _ (fun _ => ?_) | (simp [kept @State.pmcSlc_fr, kept @vread_fr]; done) | (simp [*, kept @State.pmcSlc_fr, kept @vread_fr]; done) | split | dsimp only))

@[simp] theorem wholeCell_beside (n : Nat) (t : Task) (c : Cell) : KeepsM State.beside (wholeCell n t c) := by
  unfold wholeCell; (repeat' (first | with_reducible exact keepsM_pure _ _ | with_reducible exact keepsM_throw _ _ | with_reducible exact keepsM_get _ | with_reducible refine keepsM_bind ?_ (fun _ => ?_) | with_reducible refine keepsM_mapM (fun _ => ?_) _ | with_reducible refine keepsM_forM (fun _ => ?_) _ | with_reducible refine keepsM_foldlM (fun _ _ => ?_) _ _ | with_reducible refine doSt_keeps _ (fun _ => ?_) | with_reducible refine askSt_keeps _ (fun _ => ?_) | (simp [kept @strOf_fr]; done) | (simp [*, kept @strOf_fr]; done) | split | dsimp only))

@[simp] theorem wholeCell_apart (n : Nat) (t : Task) (c : Cell) : KeepsM State.apart (wholeCell n t c) := by
  unfold wholeCell; (repeat' (first | with_reducible exact keepsM_pure _ _ | with_reducible exact keepsM_throw _ _ | with_reducible exact keepsM_get _ | with_reducible refine keepsM_bind ?_ (fun _ => ?_) | with_reducible refine keepsM_mapM (fun _ => ?_) _ | with_reducible refine keepsM_forM (fun _ => ?_) _ | with_reducible refine keepsM_foldlM (fun _ _ => ?_) _ _ | with_reducible refine doSt_keeps _ (fun _ => ?_) | with_reducible refine askSt_keeps _ (fun _ => ?_) | (simp [kept @strOf_fr]; done) | (simp [*, kept @strOf_fr]; done) | split | dsimp only))

theorem wholeCell_fr (n : Nat) (t : Task) (c : Cell) : KeepsM State.free (wholeCell n t c) := by
  unfold wholeCell; (repeat' (first | with_reducible exact keepsM_pure _ _ | with_reducible exact keepsM_throw _ _ | with_reducible exact keepsM_get _ | with_reducible refine keepsM_bind ?_ (fun _ => ?_) | with_reducible refine keepsM_mapM (fun _ => ?_) _ | with_reducible refine keepsM_forM (fun _ => ?_) _ | with_reducible refine keepsM_foldlM (fun _ _ => ?_) _ _ | with_reducible refine doSt_keeps _ (fun _ => ?_) | with_reducible refine askSt_keeps _ (fun _ => ?_) | (simp [kept @strOf_fr]; done) | (simp [*, kept @strOf_fr]; done) | split | dsimp only))

@[simp] theorem forCompare_beside (n : Nat) (t : Task) (ty : Ty) (fold : Bool) (x : Cell) (y : Cell) : KeepsM State.beside (forCompare n t ty fold x y) := by
  unfold forCompare; (repeat' (first | with_reducible exact keepsM_pure _ _ | with_reducible exact keepsM_throw _ _ | with_reducible exact keepsM_get _ | with_reducible refine keepsM_bind ?_ (fun _ => ?_) | with_reducible refine keepsM_mapM (fun _ => ?_) _ | with_reducible refine keepsM_forM (fun _ => ?_) _ | with_reducible refine keepsM_foldlM (fun _ _ => ?_) _ _ | with_reducible refine doSt_keeps _ (fun _ => ?_) | with_reducible refine askSt_keeps _ (fun _ => ?_) | (simp [kept @wholeCell_fr]; done) | (simp [*, kept @wholeCell_fr]; done) | split | dsimp only))

@[simp] theorem forCompare_apart (n : Nat) (t : Task) (ty : Ty) (fold : Bool) (x : Cell) (y : Cell) : KeepsM State.apart (forCompare n t ty fold x y) := by
  unfold forCompare; (repeat' (first | with_reducible exact keepsM_pure _ _ | with_reducible exact keepsM_throw _ _ | with_reducible exact keepsM_get _ | with_reducible refine keepsM_bind ?_ (fun _ => ?_) | with_reducible refine keepsM_mapM (fun _ => ?_) _ | with_reducible refine keepsM_forM (fun _ => ?_) _ | with_reducible refine keepsM_foldlM (fun _ _ => ?_) _ _ | with_reducible refine doSt_keeps _ (fun _ => ?_) | with_reducible refine askSt_keeps _ (fun _ => ?_) | (simp [kept @wholeCell_fr]; done) | (simp [*, kept @wholeCell_fr]; done) | split | dsimp only))

theorem forCompare_fr (n : Nat) (t : Task) (ty : Ty) (fold : Bool) (x : Cell) (y : Cell) : KeepsM State.free (forCompare n t ty fold x y) := by
  unfold forCompare; (repeat' (first | with_reducible exact keepsM_pure _ _ | with_reducible exact keepsM_throw _ _ | with_reducible exact keepsM_get _ | with_reducible refine keepsM_bind ?_ (fun _ => ?_) | with_reducible refine keepsM_mapM (fun _ => ?_) _ | with_reducible refine keepsM_forM (fun _ => ?_) _ | with_reducible refine keepsM_foldlM (fun _ _ => ?_) _ _ | with_reducible refine doSt_keeps _ (fun _ => ?_) | with_reducible refine askSt_keeps _ (fun _ => ?_) | (simp [kept @wholeCell_fr]; done) | (simp [*, kept @wholeCell_fr]; done) | split | dsimp only))

@[simp] theorem cellOf_beside (a : Who) (ty : Ty) (ok : Bool) (v : Nat) (heap : Nat) : KeepsM State.beside (cellOf a ty ok v heap) := by
  unfold cellOf; (repeat' (first | with_reducible exact keepsM_pure _ _ | with_reducible exact keepsM_throw _ _ | with_reducible exact keepsM_get _ | with_reducible refine keepsM_bind ?_ (fun _ => ?_) | with_reducible refine keepsM_mapM (fun _ => ?_) _ | with_reducible refine keepsM_forM (fun _ => ?_) _ | with_reducible refine keepsM_foldlM (fun _ _ => ?_) _ _ | with_reducible refine doSt_keeps _ (fun _ => ?_) | with_reducible refine askSt_keeps _ (fun _ => ?_) | (simp [kept @vread_fr]; done) | (simp [*, kept @vread_fr]; done) | split | dsimp only))

@[simp] theorem cellOf_apart (a : Who) (ty : Ty) (ok : Bool) (v : Nat) (heap : Nat) : KeepsM State.apart (cellOf a ty ok v heap) := by
  unfold cellOf; (repeat' (first | with_reducible exact keepsM_pure _ _ | with_reducible exact keepsM_throw _ _ | with_reducible exact keepsM_get _ | with_reducible refine keepsM_bind ?_ (fun _ => ?_) | with_reducible refine keepsM_mapM (fun _ => ?_) _ | with_reducible refine keepsM_forM (fun _ => ?_) _ | with_reducible refine keepsM_foldlM (fun _ _ => ?_) _ _ | with_reducible refine doSt_keeps _ (fun _ => ?_) | with_reducible refine askSt_keeps _ (fun _ => ?_) | (simp [kept @vread_fr]; done) | (simp [*, kept @vread_fr]; done) | split | dsimp only))

theorem cellOf_fr (a : Who) (ty : Ty) (ok : Bool) (v : Nat) (heap : Nat) : KeepsM State.free (cellOf a ty ok v heap) := by
  unfold cellOf; (repeat' (first | with_reducible exact keepsM_pure _ _ | with_reducible exact keepsM_throw _ _ | with_reducible exact keepsM_get _ | with_reducible refine keepsM_bind ?_ (fun _ => ?_) | with_reducible refine keepsM_mapM (fun _ => ?_) _ | with_reducible refine keepsM_forM (fun _ => ?_) _ | with_reducible refine keepsM_foldlM (fun _ _ => ?_) _ _ | with_reducible refine doSt_keeps _ (fun _ => ?_) | with_reducible refine askSt_keeps _ (fun _ => ?_) | (simp [kept @vread_fr]; done) | (simp [*, kept @vread_fr]; done) | split | dsimp only))

@[simp] theorem fetchStrings_beside (n : Nat) (t : Task) (uu : UOp) (ty : Ty) (x : Cell) (y : Cell) (z : Cell) : KeepsM State.beside (fetchStrings n t uu ty x y z) := by
  unfold fetchStrings; (repeat' (first | with_reducible exact keepsM_pure _ _ | with_reducible exact keepsM_throw _ _ | with_reducible exact keepsM_get _ | with_reducible refine keepsM_bind ?_ (fun _ => ?_) | with_reducible refine keepsM_mapM (fun _ => ?_) _ | with_reducible refine keepsM_forM (fun _ => ?_) _ | with_reducible refine keepsM_foldlM (fun _ _ => ?_) _ _ | with_reducible refine doSt_keeps _ (fun _ => ?_) | with_reducible refine askSt_keeps _ (fun _ => ?_) | (simp [kept @forCompare_fr, kept @wholeCell_fr]; done) | (simp [*, kept @forCompare_fr, kept @wholeCell_fr]; done) | split | dsimp only))

@[simp] theorem fetchStrings_apart (n : Nat) (t : Task) (uu : UOp) (ty : Ty) (x : Cell) (y : Cell) (z : Cell) : KeepsM State.apart (fetchStrings n t uu ty x y z) := by
  unfold fetchStrings; (repeat' (first | with_reducible exact keepsM_pure _ _ | with_reducible exact keepsM_throw _ _ | with_reducible exact keepsM_get _ | with_reducible refine keepsM_bind ?_ (fun _ => ?_) | with_reducible refine keepsM_mapM (fun _ => ?_) _ | with_reducible refine keepsM_forM (fun _ => ?_) _ | with_reducible refine keepsM_foldlM (fun _ _ => ?_) _ _ | with_reducible refine doSt_keeps _ (fun _ => ?_) | with_reducible refine askSt_keeps _ (fun _ => ?_) | (simp [kept @forCompare_fr, kept @wholeCell_fr]; done) | (simp [*, kept @forCompare_fr, kept @wholeCell_fr]; done) | split | dsimp only))

theorem fetchStrings_fr (n : Nat) (t : Task) (uu : UOp) (ty : Ty) (x : Cell) (y : Cell) (z : Cell) : KeepsM State.free (fetchStrings n t uu ty x y z) := by
  unfold fetchStrings; (repeat' (first | with_reducible exact keepsM_pure _ _ | with_reducible exact keepsM_throw _ _ | with_reducible exact keepsM_get _ | with_reducible refine keepsM_bind ?_ (fun _ => ?_) | with_reducible refine keepsM_mapM (fun _ => ?_) _ | with_reducible refine keepsM_forM (fun _ => ?_) _ | with_reducible refine keepsM_foldlM (fun _ _ => ?_) _ _ | with_reducible refine doSt_keeps _ (fun _ => ?_) | with_reducible refine askSt_keeps _ (fun _ => ?_) | (simp [kept @forCompare_fr, kept @wholeCell_fr]; done) | (simp [*, kept @forCompare_fr, kept @wholeCell_fr]; done) | split | dsimp only))

@[simp] theorem runUop_beside (n : Nat) (c : OpCtx) (t : Task) (b : Batch) (iu : Nat × UOp) : KeepsM State.beside (runUop n c t b iu) := by
  unfold runUop; (repeat' (first | with_reducible exact keepsM_pure _ _ | with_reducible exact keepsM_throw _ _ | with_reducible exact keepsM_get _ | with_reducible refine keepsM_bind ?_ (fun _ => ?_) | with_reducible refine keepsM_mapM (fun _ => ?_) _ | with_reducible refine keepsM_forM (fun _ => ?_) _ | with_reducible refine keepsM_foldlM (fun _ _ => ?_) _ _ | with_reducible refine doSt_keeps _ (fun _ => ?_) | with_reducible refine askSt_keeps _ (fun _ => ?_) | (simp [kept @cbRead_fr, kept @cbStore_fr, kept @fetchStrings_fr]; done) | (simp [*, kept @cbRead_fr, kept @cbStore_fr, kept @fetchStrings_fr]; done) | split | dsimp only))

@[simp] theorem runUop_apart (n : Nat) (c : OpCtx) (t : Task) (b : Batch) (iu : Nat × UOp) : KeepsM State.apart (runUop n c t b iu) := by
  unfold runUop; (repeat' (first | with_reducible exact keepsM_pure _ _ | with_reducible exact keepsM_throw _ _ | with_reducible exact keepsM_get _ | with_reducible refine keepsM_bind ?_ (fun _ => ?_) | with_reducible refine keepsM_mapM (fun _ => ?_) _ | with_reducible refine keepsM_forM (fun _ => ?_) _ | with_reducible refine keepsM_foldlM (fun _ _ => ?_) _ _ | with_reducible refine doSt_keeps _ (fun _ => ?_) | with_reducible refine askSt_keeps _ (fun _ => ?_) | (simp [kept @cbRead_fr, kept @cbStore_fr, kept @fetchStrings_fr]; done) | (simp [*, kept @cbRead_fr, kept @cbStore_fr, kept @fetchStrings_fr]; done) | split | dsimp only))

@[simp] theorem runRange_beside (n : Nat) (c : OpCtx) (t : Task) (b : Batch) : KeepsM State.beside (runRange n c t b) := by
  unfold runRange; (repeat' (first | with_reducible exact keepsM_pure _ _ | with_reducible exact keepsM_throw _ _ | with_reducible exact keepsM_get _ | with_reducible refine keepsM_bind ?_ (fun _ => ?_) | with_reducible refine keepsM_mapM (fun _ => ?_) _ | with_reducible refine keepsM_forM (fun _ => ?_) _ | with_reducible refine keepsM_foldlM (fun _ _ => ?_) _ _ | with_reducible refine doSt_keeps _ (fun _ => ?_) | with_reducible refine askSt_keeps _ (fun _ => ?_) | (simp; done) | (simp [*]; done) | split | dsimp only))

@[simp] theorem runRange_apart (n : Nat) (c : OpCtx) (t : Task) (b : Batch) : KeepsM State.apart (runRange n c t b) := by
  unfold runRange; (repeat' (first | with_reducible exact keepsM_pure _ _ | with_reducible exact keepsM_throw _ _ | with_reducible exact keepsM_get _ | with_reducible refine keepsM_bind ?_ (fun _ => ?_) | with_reducible refine keepsM_mapM (fun _ => ?_) _ | with_reducible refine keepsM_forM (fun _ => ?_) _ | with_reducible refine keepsM_foldlM (fun _ _ => ?_) _ _ | with_reducible refine doSt_keeps _ (fun _ => ?_) | with_reducible refine askSt_keeps _ (fun _ => ?_) | (simp; done) | (simp [*]; done) | split | dsimp only))

@[simp] theorem setSel_beside (n : Nat) (t : Task) (b : Batch) (f : Nat → Bool) : KeepsM State.beside (setSel n t b f) := by
  unfold setSel; (repeat' (first | with_reducible exact keepsM_pure _ _ | with_reducible exact keepsM_throw _ _ | with_reducible exact keepsM_get _ | with_reducible refine keepsM_bind ?_ (fun _ => ?_) | with_reducible refine keepsM_mapM (fun _ => ?_) _ | with_reducible refine keepsM_forM (fun _ => ?_) _ | with_reducible refine keepsM_foldlM (fun _ _ => ?_) _ _ | with_reducible refine doSt_keeps _ (fun _ => ?_) | with_reducible refine askSt_keeps _ (fun _ => ?_) | (simp [kept @cbStore_fr]; done) | (simp [*, kept @cbStore_fr]; done) | split | dsimp only))

@[simp] theorem setSel_apart (n : Nat) (t : Task) (b : Batch) (f : Nat → Bool) : KeepsM State.apart (setSel n t b f) := by
  unfold setSel; (repeat' (first | with_reducible exact keepsM_pure _ _ | with_reducible exact keepsM_throw _ _ | with_reducible exact keepsM_get _ | with_reducible refine keepsM_bind ?_ (fun _ => ?_) | with_reducible refine keepsM_mapM (fun _ => ?_) _ | with_reducible refine keepsM_forM (fun _ => ?_) _ | with_reducible refine keepsM_foldlM (fun _ _ => ?_) _ _ | with_reducible refine doSt_keeps _ (fun _ => ?_) | with_reducible refine askSt_keeps _ (fun _ => ?_) | (simp [kept @cbStore_fr]; done) | (simp [*, kept @cbStore_fr]; done) | split | dsimp only))

theorem setSel_fr (n : Nat) (t : Task) (b : Batch) (f : Nat → Bool) : KeepsM State.wires (setSel n t b f) ∧ KeepsM State.wq (setSel n t b f) ∧ KeepsM State.pkg (setSel n t b f) ∧ KeepsM State.fwLog (setSel n t b f) := by
  refine ⟨?_, ?_, ?_, ?_⟩ <;> (unfold setSel; (repeat' (first | with_reducible exact keepsM_pure _ _ | with_reducible exact keepsM_throw _ _ | with_reducible exact keepsM_get _ | with_reducible refine keepsM_bind ?_ (fun _ => ?_) | with_reducible refine keepsM_mapM (fun _ => ?_) _ | with_reducible refine keepsM_forM (fun _ => ?_) _ | with_reducible refine keepsM_foldlM (fun _ _ => ?_) _ _ | with_reducible refine doSt_keeps _ (fun _ => ?_) | with_reducible refine askSt_keeps _ (fun _ => ?_) | (simp [kept @cbStore_fr]; done) | (simp [*, kept @cbStore_fr]; done) | split | dsimp only)))

@[simp] theorem readRegs_beside (n : Nat) (c : OpCtx) (t : Task) : KeepsM State.beside (readRegs n c t) := by
  unfold readRegs; (repeat' (first | with_reducible exact keepsM_pure _ _ | with_reducible exact keepsM_throw _ _ | with_reducible exact keepsM_get _ | with_reducible refine keepsM_bind ?_ (fun _ => ?_) | with_reducible refine keepsM_mapM (fun _ => ?_) _ | with_reducible refine keepsM_forM (fun _ => ?_) _ | with_reducible refine keepsM_foldlM (fun _ _ => ?_) _ _ | with_reducible refine doSt_keeps _ (fun _ => ?_) | with_reducible refine askSt_keeps _ (fun _ => ?_) | (simp [kept @cbRead_fr]; done) | (simp [*, kept @cbRead_fr]; done) | split | dsimp only))

@[simp] theorem readRegs_apart (n : Nat) (c : OpCtx) (t : Task) : KeepsM State.apart (readRegs n c t) := by
  unfold readRegs; (repeat' (first | with_reducible exact keepsM_pure _ _ | with_reducible exact keepsM_throw _ _ | with_reducible exact keepsM_get _ | with_reducible refine keepsM_bind ?_ (fun _ => ?_) | with_reducible refine keepsM_mapM (fun _ => ?_) _ | with_reducible refine keepsM_forM (fun _ => ?_) _ | with_reducible refine keepsM_foldlM (fun _ _ => ?_) _ _ | with_reducible refine doSt_keeps _ (fun _ => ?_) | with_reducible refine askSt_keeps _ (fun _ => ?_) | (simp [kept @cbRead_fr]; done) | (simp [*, kept @cbRead_fr]; done) | split | dsimp only))

theorem readRegs_fr (n : Nat) (c : OpCtx) (t : Task) : KeepsM State.wires (readRegs n c t) ∧ KeepsM State.wq (readRegs n c t) ∧ KeepsM State.pkg (readRegs n c t) ∧ KeepsM State.fwLog (readRegs n c t) := by
  refine ⟨?_, ?_, ?_, ?_⟩ <;> (unfold readRegs; (repeat' (first | with_reducible exact keepsM_pure _ _ | with_reducible exact keepsM_throw _ _ | with_reducible exact keepsM_get _ | with_reducible refine keepsM_bind ?_ (fun _ => ?_) | with_reducible refine keepsM_mapM (fun _ => ?_) _ | with_reducible refine keepsM_forM (fun _ => ?_) _ | with_reducible refine keepsM_foldlM (fun _ _ => ?_) _ _ | with_reducible refine doSt_keeps _ (fun _ => ?_) | with_reducible refine askSt_keeps _ (fun _ => ?_) | (simp [kept @cbRead_fr]; done) | (simp [*, kept @cbRead_fr]; done) | split | dsimp only)))

@[simp] theorem writeRegs_beside (n : Nat) (c : OpCtx) (t : Task) (rs : List Nat) : KeepsM State.beside (writeRegs n c t rs) := by
  unfold writeRegs; (repeat' (first | with_reducible exact keepsM_pure _ _ | with_reducible exact keepsM_throw _ _ | with_reducible exact keepsM_get _ | with_reducible refine keepsM_bind ?_ (fun _ => ?_) | with_reducible refine keepsM_mapM (fun _ => ?_) _ | with_reducible refine keepsM_forM (fun _ => ?_) _ | with_reducible refine keepsM_foldlM (fun _ _ => ?_) _ _ | with_reducible refine doSt_keeps _ (fun _ => ?_) | with_reducible refine askSt_keeps _ (fun _ => ?_) | (simp [kept @cbStore_fr]; done) | (simp [*, kept @cbStore_fr]; done) | split | dsimp only))

@[simp] theorem writeRegs_apart (n : Nat) (c : OpCtx) (t : Task) (rs : List Nat) : KeepsM State.apart (writeRegs n c t rs) := by
  unfold writeRegs; (repeat' (first | with_reducible exact keepsM_pure _ _ | with_reducible exact keepsM_throw _ _ | with_reducible exact keepsM_get _ | with_reducible refine keepsM_bind ?_ (fun _ => ?_) | with_reducible refine keepsM_mapM (fun _ => ?_) _ | with_reducible refine keepsM_forM (fun _ => ?_) _ | with_reducible refine keepsM_foldlM (fun _ _ => ?_) _ _ | with_reducible refine doSt_keeps _ (fun _ => ?_) | with_reducible refine askSt_keeps _ (fun _ => ?_) | (simp [kept @cbStore_fr]; done) | (simp [*, kept @cbStore_fr]; done) | split | dsimp only))

theorem writeRegs_fr (n : Nat) (c : OpCtx) (t : Task) (rs : List Nat) : KeepsM State.wires (writeRegs n c t rs) ∧ KeepsM State.wq (writeRegs n c t rs) ∧ KeepsM State.pkg (writeRegs n c t rs) ∧ KeepsM State.fwLog (writeRegs n c t rs) := by
  refine ⟨?_, ?_, ?_, ?_⟩ <;> (unfold writeRegs; (repeat' (first | with_reducible exact keepsM_pure _ _ | with_reducible exact keepsM_throw _ _ | with_reducible exact keepsM_get _ | with_reducible refine keepsM_bind ?_ (fun _ => ?_) | with_reducible refine keepsM_mapM (fun _ => ?_) _ | with_reducible refine keepsM_forM (fun _ => ?_) _ | with_reducible refine keepsM_foldlM (fun _ _ => ?_) _ _ | with_reducible refine doSt_keeps _ (fun _ => ?_) | with_reducible refine askSt_keeps _ (fun _ => ?_) | (simp [kept @cbStore_fr]; done) | (simp [*, kept @cbStore_fr]; done) | split | dsimp only)))

@[simp] theorem opFilter_beside (n : Nat) (c : OpCtx) (t : Task) (b : Batch) : KeepsM State.beside (opFilter n c t b) := by
  unfold opFilter; (repeat' (first | with_reducible exact keepsM_pure _ _ | with_reducible exact keepsM_throw _ _ | with_reducible exact keepsM_get _ | with_reducible refine keepsM_bind ?_ (fun _ => ?_) | with_reducible refine keepsM_mapM (fun _ => ?_) _ | with_reducible refine keepsM_forM (fun _ => ?_) _ | with_reducible refine keepsM_foldlM (fun _ _ => ?_) _ _ | with_reducible refine doSt_keeps _ (fun _ => ?_) | with_reducible refine askSt_keeps _ (fun _ => ?_) | (simp [kept @opDone_fr, kept @readRegs_fr, kept @setSel_fr]; done) | (simp [*, kept @opDone_fr, kept @readRegs_fr, kept @setSel_fr]; done) | split | dsimp only))

@[simp] theorem opFilter_apart (n : Nat) (c : OpCtx) (t : Task) (b : Batch) : KeepsM State.apart (opFilter n c t b) := by
  unfold opFilter; (repeat' (first | with_reducible exact keepsM_pure _ _ | with_reducible exact keepsM_throw _ _ | with_reducible exact keepsM_get _ | with_reducible refine keepsM_bind ?_ (fun _ => ?_) | with_reducible refine keepsM_mapM (fun _ => ?_) _ | with_reducible refine keepsM_forM (fun _ => ?_) _ | with_reducible refine keepsM_foldlM (fun _ _ => ?_) _ _ | with_reducible refine doSt_keeps _ (fun _ => ?_) | with_reducible refine askSt_keeps _ (fun _ => ?_) | (simp [kept @opDone_fr, kept @readRegs_fr, kept @setSel_fr]; done) | (simp [*, kept @opDone_fr, kept @readRegs_fr, kept @setSel_fr]; done) | split | dsimp only))

@[simp] theorem opProject_beside (n : Nat) (c : OpCtx) (t : Task) (b : Batch) : KeepsM State.beside (opProject n c t b) := by
  unfold opProject; (repeat' (first | with_reducible exact keepsM_pure _ _ | with_reducible exact keepsM_throw _ _ | with_reducible exact keepsM_get _ | with_reducible refine keepsM_bind ?_ (fun _ => ?_) | with_reducible refine keepsM_mapM (fun _ => ?_) _ | with_reducible refine keepsM_forM (fun _ => ?_) _ | with_reducible refine keepsM_foldlM (fun _ _ => ?_) _ _ | with_reducible refine doSt_keeps _ (fun _ => ?_) | with_reducible refine askSt_keeps _ (fun _ => ?_) | (simp [kept @opDone_fr]; done) | (simp [*, kept @opDone_fr]; done) | split | dsimp only))

@[simp] theorem opProject_apart (n : Nat) (c : OpCtx) (t : Task) (b : Batch) : KeepsM State.apart (opProject n c t b) := by
  unfold opProject; (repeat' (first | with_reducible exact keepsM_pure _ _ | with_reducible exact keepsM_throw _ _ | with_reducible exact keepsM_get _ | with_reducible refine keepsM_bind ?_ (fun _ => ?_) | with_reducible refine keepsM_mapM (fun _ => ?_) _ | with_reducible refine keepsM_forM (fun _ => ?_) _ | with_reducible refine keepsM_foldlM (fun _ _ => ?_) _ _ | with_reducible refine doSt_keeps _ (fun _ => ?_) | with_reducible refine askSt_keeps _ (fun _ => ?_) | (simp [kept @opDone_fr]; done) | (simp [*, kept @opDone_fr]; done) | split | dsimp only))

@[simp] theorem opHash_beside (n : Nat) (c : OpCtx) (t : Task) (b : Batch) : KeepsM State.beside (opHash n c t b) := by
  unfold opHash; (repeat' (first | with_reducible exact keepsM_pure _ _ | with_reducible exact keepsM_throw _ _ | with_reducible exact keepsM_get _ | with_reducible refine keepsM_bind ?_ (fun _ => ?_) | with_reducible refine keepsM_mapM (fun _ => ?_) _ | with_reducible refine keepsM_forM (fun _ => ?_) _ | with_reducible refine keepsM_foldlM (fun _ _ => ?_) _ _ | with_reducible refine doSt_keeps _ (fun _ => ?_) | with_reducible refine askSt_keeps _ (fun _ => ?_) | (simp [kept @opDone_fr, kept @readRegs_fr, kept @wholeCell_fr, kept @writeRegs_fr]; done) | (simp [*, kept @opDone_fr, kept @readRegs_fr, kept @wholeCell_fr, kept @writeRegs_fr]; done) | split | dsimp only))

@[simp] theorem opHash_apart (n : Nat) (c : OpCtx) (t : Task) (b : Batch) : KeepsM State.apart (opHash n c t b) := by
  unfold opHash; (repeat' (first | with_reducible exact keepsM_pure _ _ | with_reducible exact keepsM_throw _ _ | with_reducible exact keepsM_get _ | with_reducible refine keepsM_bind ?_ (fun _ => ?_) | with_reducible refine keepsM_mapM (fun _ => ?_) _ | with_reducible refine keepsM_forM (fun _ => ?_) _ | with_reducible refine keepsM_foldlM (fun _ _ => ?_) _ _ | with_reducible refine doSt_keeps _ (fun _ => ?_) | with_reducible refine askSt_keeps _ (fun _ => ?_) | (simp [kept @opDone_fr, kept @readRegs_fr, kept @wholeCell_fr, kept @writeRegs_fr]; done) | (simp [*, kept @opDone_fr, kept @readRegs_fr, kept @wholeCell_fr, kept @writeRegs_fr]; done) | split | dsimp only))

@[simp] theorem opMatch_beside (n : Nat) (c : OpCtx) (t : Task) (b : Batch) : KeepsM State.beside (opMatch n c t b) := by
  unfold opMatch; (repeat' (first | with_reducible exact keepsM_pure _ _ | with_reducible exact keepsM_throw _ _ | with_reducible exact keepsM_get _ | with_reducible refine keepsM_bind ?_ (fun _ => ?_) | with_reducible refine keepsM_mapM (fun _ => ?_) _ | with_reducible refine keepsM_forM (fun _ => ?_) _ | with_reducible refine keepsM_foldlM (fun _ _ => ?_) _ _ | with_reducible refine doSt_keeps _ (fun _ => ?_) | with_reducible refine askSt_keeps _ (fun _ => ?_) | (simp [kept @State.pmcSlc_fr, kept @ensure_fr, kept @opDone_fr, kept @readRegs_fr, kept @setSel_fr, kept @writeRegs_fr]; done) | (simp [*, kept @State.pmcSlc_fr, kept @ensure_fr, kept @opDone_fr, kept @readRegs_fr, kept @setSel_fr, kept @writeRegs_fr]; done) | split | dsimp only))

@[simp] theorem opMatch_apart (n : Nat) (c : OpCtx) (t : Task) (b : Batch) : KeepsM State.apart (opMatch n c t b) := by
  unfold opMatch; (repeat' (first | with_reducible exact keepsM_pure _ _ | with_reducible exact keepsM_throw _ _ | with_reducible exact keepsM_get _ | with_reducible refine keepsM_bind ?_ (fun _ => ?_) | with_reducible refine keepsM_mapM (fun _ => ?_) _ | with_reducible refine keepsM_forM (fun _ => ?_) _ | with_reducible refine keepsM_foldlM (fun _ _ => ?_) _ _ | with_reducible refine doSt_keeps _ (fun _ => ?_) | with_reducible refine askSt_keeps _ (fun _ => ?_) | (simp [kept @State.pmcSlc_fr, kept @ensure_fr, kept @opDone_fr, kept @readRegs_fr, kept @setSel_fr, kept @writeRegs_fr]; done) | (simp [*, kept @State.pmcSlc_fr, kept @ensure_fr, kept @opDone_fr, kept @readRegs_fr, kept @setSel_fr, kept @writeRegs_fr]; done) | split | dsimp only))

theorem opMatch_fr (n : Nat) (c : OpCtx) (t : Task) (b : Batch) : KeepsM State.wires (opMatch n c t b) ∧ KeepsM State.wq (opMatch n c t b) ∧ KeepsM State.pkg (opMatch n c t b) ∧ KeepsM State.fwLog (opMatch n c t b) := by
  refine ⟨?_, ?_, ?_, ?_⟩ <;> (unfold opMatch; (repeat' (first | with_reducible exact keepsM_pure _ _ | with_reducible exact keepsM_throw _ _ | with_reducible exact keepsM_get _ | with_reducible refine keepsM_bind ?_ (fun _ => ?_) | with_reducible refine keepsM_mapM (fun _ => ?_) _ | with_reducible refine keepsM_forM (fun _ => ?_) _ | with_reducible refine keepsM_foldlM (fun _ _ => ?_) _ _ | with_reducible refine doSt_keeps _ (fun _ => ?_) | with_reducible refine askSt_keeps _ (fun _ => ?_) | (simp [kept @State.pmcSlc_fr, kept @ensure_fr, kept @opDone_fr, kept @readRegs_fr, kept @setSel_fr, kept @writeRegs_fr]; done) | (simp [*, kept @State.pmcSlc_fr, kept @ensure_fr, kept @opDone_fr, kept @readRegs_fr, kept @setSel_fr, kept @writeRegs_fr]; done) | split | dsimp only)))

theorem State.endTasks_fr (s : State) (ring : Nat) (seq : Nat) (pipe : Nat) (gather : Bool) : (State.endTasks s ring seq pipe gather).pending = s.pending ∧ (State.endTasks s ring seq pipe gather).flash = s.flash ∧ (State.endTasks s ring seq pipe gather).coldOpt = s.coldOpt ∧ (State.endTasks s ring seq pipe gather).mem = s.mem ∧ (State.endTasks s ring seq pipe gather).harts = s.harts ∧ (State.endTasks s ring seq pipe gather).mram = s.mram ∧ (State.endTasks s ring seq pipe gather).imsic = s.imsic ∧ (State.endTasks s ring seq pipe gather).dm = s.dm ∧ (State.endTasks s ring seq pipe gather).fx = s.fx ∧ (State.endTasks s ring seq pipe gather).ctu = s.ctu ∧ (State.endTasks s ring seq pipe gather).links = s.links ∧ (State.endTasks s ring seq pipe gather).aplicS = s.aplicS ∧ (State.endTasks s ring seq pipe gather).aplicN = s.aplicN ∧ (State.endTasks s ring seq pipe gather).credits = s.credits ∧ (State.endTasks s ring seq pipe gather).clusters = s.clusters ∧ (State.endTasks s ring seq pipe gather).homes = s.homes ∧ (State.endTasks s ring seq pipe gather).pkts = s.pkts ∧ (State.endTasks s ring seq pipe gather).resp = s.resp ∧ (State.endTasks s ring seq pipe gather).regs = s.regs ∧ (State.endTasks s ring seq pipe gather).wires = s.wires ∧ (State.endTasks s ring seq pipe gather).dmg = s.dmg ∧ (State.endTasks s ring seq pipe gather).wq = s.wq ∧ (State.endTasks s ring seq pipe gather).net = s.net ∧ (State.endTasks s ring seq pipe gather).dbInval = s.dbInval ∧ (State.endTasks s ring seq pipe gather).watch = s.watch ∧ (State.endTasks s ring seq pipe gather).pkg = s.pkg ∧ (State.endTasks s ring seq pipe gather).pmc = s.pmc ∧ (State.endTasks s ring seq pipe gather).fwLog = s.fwLog ∧ (State.endTasks s ring seq pipe gather).out = s.out ∧ (State.endTasks s ring seq pipe gather).free = s.free ∧ (State.endTasks s ring seq pipe gather).fabric = s.fabric ∧ (State.endTasks s ring seq pipe gather).files = s.files := by
  generalize h : State.endTasks s ring seq pipe gather = u
  unfold State.endTasks at h
  (try dsimp only at h); (repeat' split at h) <;> rw [← h] <;> simp [kept @State.eng'_fr]

@[simp] theorem opLimit_beside (n : Nat) (c : OpCtx) (t : Task) (b : Batch) : KeepsM State.beside (opLimit n c t b) := by
  unfold opLimit; (repeat' (first | with_reducible exact keepsM_pure _ _ | with_reducible exact keepsM_throw _ _ | with_reducible exact keepsM_get _ | with_reducible refine keepsM_bind ?_ (fun _ => ?_) | with_reducible refine keepsM_mapM (fun _ => ?_) _ | with_reducible refine keepsM_forM (fun _ => ?_) _ | with_reducible refine keepsM_foldlM (fun _ _ => ?_) _ _ | with_reducible refine doSt_keeps _ (fun _ => ?_) | with_reducible refine askSt_keeps _ (fun _ => ?_) | (simp [kept @State.endTasks_fr, kept @State.updRun_fr, kept @cbRead_fr, kept @opDone_fr, kept @setSel_fr]; done) | (simp [*, kept @State.endTasks_fr, kept @State.updRun_fr, kept @cbRead_fr, kept @opDone_fr, kept @setSel_fr]; done) | split | dsimp only))

@[simp] theorem opLimit_apart (n : Nat) (c : OpCtx) (t : Task) (b : Batch) : KeepsM State.apart (opLimit n c t b) := by
  unfold opLimit; (repeat' (first | with_reducible exact keepsM_pure _ _ | with_reducible exact keepsM_throw _ _ | with_reducible exact keepsM_get _ | with_reducible refine keepsM_bind ?_ (fun _ => ?_) | with_reducible refine keepsM_mapM (fun _ => ?_) _ | with_reducible refine keepsM_forM (fun _ => ?_) _ | with_reducible refine keepsM_foldlM (fun _ _ => ?_) _ _ | with_reducible refine doSt_keeps _ (fun _ => ?_) | with_reducible refine askSt_keeps _ (fun _ => ?_) | (simp [kept @State.endTasks_fr, kept @State.updRun_fr, kept @cbRead_fr, kept @opDone_fr, kept @setSel_fr]; done) | (simp [*, kept @State.endTasks_fr, kept @State.updRun_fr, kept @cbRead_fr, kept @opDone_fr, kept @setSel_fr]; done) | split | dsimp only))

theorem opLimit_fr (n : Nat) (c : OpCtx) (t : Task) (b : Batch) : KeepsM State.wires (opLimit n c t b) ∧ KeepsM State.wq (opLimit n c t b) ∧ KeepsM State.pkg (opLimit n c t b) ∧ KeepsM State.fwLog (opLimit n c t b) := by
  refine ⟨?_, ?_, ?_, ?_⟩ <;> (unfold opLimit; (repeat' (first | with_reducible exact keepsM_pure _ _ | with_reducible exact keepsM_throw _ _ | with_reducible exact keepsM_get _ | with_reducible refine keepsM_bind ?_ (fun _ => ?_) | with_reducible refine keepsM_mapM (fun _ => ?_) _ | with_reducible refine keepsM_forM (fun _ => ?_) _ | with_reducible refine keepsM_foldlM (fun _ _ => ?_) _ _ | with_reducible refine doSt_keeps _ (fun _ => ?_) | with_reducible refine askSt_keeps _ (fun _ => ?_) | (simp [kept @State.endTasks_fr, kept @State.updRun_fr, kept @cbRead_fr, kept @opDone_fr, kept @setSel_fr]; done) | (simp [*, kept @State.endTasks_fr, kept @State.updRun_fr, kept @cbRead_fr, kept @opDone_fr, kept @setSel_fr]; done) | split | dsimp only)))

theorem State.batchSample_fr (s : State) (n : Nat) (t : Task) (b : Batch) : (State.batchSample s n t b).pending = s.pending ∧ (State.batchSample s n t b).flash = s.flash ∧ (State.batchSample s n t b).coldOpt = s.coldOpt ∧ (State.batchSample s n t b).imsic = s.imsic ∧ (State.batchSample s n t b).eng = s.eng ∧ (State.batchSample s n t b).dm = s.dm ∧ (State.batchSample s n t b).fx = s.fx ∧ (State.batchSample s n t b).ctu = s.ctu ∧ (State.batchSample s n t b).links = s.links ∧ (State.batchSample s n t b).aplicS = s.aplicS ∧ (State.batchSample s n t b).aplicN = s.aplicN ∧ (State.batchSample s n t b).credits = s.credits ∧ (State.batchSample s n t b).pkts = s.pkts ∧ (State.batchSample s n t b).resp = s.resp ∧ (State.batchSample s n t b).out = s.out ∧ (State.batchSample s n t b).fabric = s.fabric ∧ (State.batchSample s n t b).files = s.files := by
  generalize h : State.batchSample s n t b = u
  unfold State.batchSample at h
  rw [← h]; simp [kept @State.draw_fr, kept @State.sample_fr]

@[simp] theorem sinkRows_beside (n : Nat) (t : Task) (b : Batch) : KeepsM State.beside (sinkRows n t b) := by
  unfold sinkRows; (repeat' (first | with_reducible exact keepsM_pure _ _ | with_reducible exact keepsM_throw _ _ | with_reducible exact keepsM_get _ | with_reducible refine keepsM_bind ?_ (fun _ => ?_) | with_reducible refine keepsM_mapM (fun _ => ?_) _ | with_reducible refine keepsM_forM (fun _ => ?_) _ | with_reducible refine keepsM_foldlM (fun _ _ => ?_) _ _ | with_reducible refine doSt_keeps _ (fun _ => ?_) | with_reducible refine askSt_keeps _ (fun _ => ?_) | (simp [kept @State.batchSample_fr, kept @State.pmcSlc_fr, kept @updTask_fr]; done) | (simp [*, kept @State.batchSample_fr, kept @State.pmcSlc_fr, kept @updTask_fr]; done) | split | dsimp only))

theorem sinkRows_fr (n : Nat) (t : Task) (b : Batch) : KeepsM State.dm (sinkRows n t b) := by
  unfold sinkRows; (repeat' (first | with_reducible exact keepsM_pure _ _ | with_reducible exact keepsM_throw _ _ | with_reducible exact keepsM_get _ | with_reducible refine keepsM_bind ?_ (fun _ => ?_) | with_reducible refine keepsM_mapM (fun _ => ?_) _ | with_reducible refine keepsM_forM (fun _ => ?_) _ | with_reducible refine keepsM_foldlM (fun _ _ => ?_) _ _ | with_reducible refine doSt_keeps _ (fun _ => ?_) | with_reducible refine askSt_keeps _ (fun _ => ?_) | (simp [kept @State.batchSample_fr, kept @State.pmcSlc_fr, kept @updTask_fr]; done) | (simp [*, kept @State.batchSample_fr, kept @State.pmcSlc_fr, kept @updTask_fr]; done) | split | dsimp only))

@[simp] theorem writeBits_beside (a : Who) (base : Nat) (bits : List (Nat × Bool)) : KeepsM State.beside (writeBits a base bits) := by
  unfold writeBits; (repeat' (first | with_reducible exact keepsM_pure _ _ | with_reducible exact keepsM_throw _ _ | with_reducible exact keepsM_get _ | with_reducible refine keepsM_bind ?_ (fun _ => ?_) | with_reducible refine keepsM_mapM (fun _ => ?_) _ | with_reducible refine keepsM_forM (fun _ => ?_) _ | with_reducible refine keepsM_foldlM (fun _ _ => ?_) _ _ | with_reducible refine doSt_keeps _ (fun _ => ?_) | with_reducible refine askSt_keeps _ (fun _ => ?_) | (simp [kept @State.lineNow_fr, kept @pwrite_fr, kept @xlate_fr]; done) | (simp [*, kept @State.lineNow_fr, kept @pwrite_fr, kept @xlate_fr]; done) | split | dsimp only))

theorem writeBits_fr (a : Who) (base : Nat) (bits : List (Nat × Bool)) : KeepsM State.dm (writeBits a base bits) ∧ KeepsM State.free (writeBits a base bits) := by
  refine ⟨?_, ?_⟩ <;> (unfold writeBits; (repeat' (first | with_reducible exact keepsM_pure _ _ | with_reducible exact keepsM_throw _ _ | with_reducible exact keepsM_get _ | with_reducible refine keepsM_bind ?_ (fun _ => ?_) | with_reducible refine keepsM_mapM (fun _ => ?_) _ | with_reducible refine keepsM_forM (fun _ => ?_) _ | with_reducible refine keepsM_foldlM (fun _ _ => ?_) _ _ | with_reducible refine doSt_keeps _ (fun _ => ?_) | with_reducible refine askSt_keeps _ (fun _ => ?_) | (simp [kept @State.lineNow_fr, kept @pwrite_fr, kept @xlate_fr]; done) | (simp [*, kept @State.lineNow_fr, kept @pwrite_fr, kept @xlate_fr]; done) | split | dsimp only)))

@[simp] theorem emitGroup_beside (n : Nat) (c : OpCtx) (t : Task) (b : Batch) (g : Nat) (cols : List (Nat × Nat)) : KeepsM State.beside (emitGroup n c t b g cols) := by
  unfold emitGroup; (repeat' (first | with_reducible exact keepsM_pure _ _ | with_reducible exact keepsM_throw _ _ | with_reducible exact keepsM_get _ | with_reducible refine keepsM_bind ?_ (fun _ => ?_) | with_reducible refine keepsM_mapM (fun _ => ?_) _ | with_reducible refine keepsM_forM (fun _ => ?_) _ | with_reducible refine keepsM_foldlM (fun _ _ => ?_) _ _ | with_reducible refine doSt_keeps _ (fun _ => ?_) | with_reducible refine askSt_keeps _ (fun _ => ?_) | (simp [kept @State.updDesc_fr, kept @preWrite_fr, kept @strOf_fr, kept @vwrite_fr, kept @writeBits_fr]; done) | (simp [*, kept @State.updDesc_fr, kept @preWrite_fr, kept @strOf_fr, kept @vwrite_fr, kept @writeBits_fr]; done) | split | dsimp only))

theorem emitGroup_fr (n : Nat) (c : OpCtx) (t : Task) (b : Batch) (g : Nat) (cols : List (Nat × Nat)) : KeepsM State.dm (emitGroup n c t b g cols) ∧ KeepsM State.free (emitGroup n c t b g cols) := by
  refine ⟨?_, ?_⟩ <;> (unfold emitGroup; (repeat' (first | with_reducible exact keepsM_pure _ _ | with_reducible exact keepsM_throw _ _ | with_reducible exact keepsM_get _ | with_reducible refine keepsM_bind ?_ (fun _ => ?_) | with_reducible refine keepsM_mapM (fun _ => ?_) _ | with_reducible refine keepsM_forM (fun _ => ?_) _ | with_reducible refine keepsM_foldlM (fun _ _ => ?_) _ _ | with_reducible refine doSt_keeps _ (fun _ => ?_) | with_reducible refine askSt_keeps _ (fun _ => ?_) | (simp [kept @State.updDesc_fr, kept @preWrite_fr, kept @strOf_fr, kept @vwrite_fr, kept @writeBits_fr]; done) | (simp [*, kept @State.updDesc_fr, kept @preWrite_fr, kept @strOf_fr, kept @vwrite_fr, kept @writeBits_fr]; done) | split | dsimp only)))

@[simp] theorem opEmit_beside (n : Nat) (c : OpCtx) (t : Task) (b : Batch) : KeepsM State.beside (opEmit n c t b) := by
  unfold opEmit; (repeat' (first | with_reducible exact keepsM_pure _ _ | with_reducible exact keepsM_throw _ _ | with_reducible exact keepsM_get _ | with_reducible refine keepsM_bind ?_ (fun _ => ?_) | with_reducible refine keepsM_mapM (fun _ => ?_) _ | with_reducible refine keepsM_forM (fun _ => ?_) _ | with_reducible refine keepsM_foldlM (fun _ _ => ?_) _ _ | with_reducible refine doSt_keeps _ (fun _ => ?_) | with_reducible refine askSt_keeps _ (fun _ => ?_) | (simp [kept @emitGroup_fr, kept @opDone_fr, kept @readRegs_fr, kept @sinkRows_fr]; done) | (simp [*, kept @emitGroup_fr, kept @opDone_fr, kept @readRegs_fr, kept @sinkRows_fr]; done) | split | dsimp only))

theorem opEmit_fr (n : Nat) (c : OpCtx) (t : Task) (b : Batch) : KeepsM State.dm (opEmit n c t b) := by
  unfold opEmit; (repeat' (first | with_reducible exact keepsM_pure _ _ | with_reducible exact keepsM_throw _ _ | with_reducible exact keepsM_get _ | with_reducible refine keepsM_bind ?_ (fun _ => ?_) | with_reducible refine keepsM_mapM (fun _ => ?_) _ | with_reducible refine keepsM_forM (fun _ => ?_) _ | with_reducible refine keepsM_foldlM (fun _ _ => ?_) _ _ | with_reducible refine doSt_keeps _ (fun _ => ?_) | with_reducible refine askSt_keeps _ (fun _ => ?_) | (simp [kept @emitGroup_fr, kept @opDone_fr, kept @readRegs_fr, kept @sinkRows_fr]; done) | (simp [*, kept @emitGroup_fr, kept @opDone_fr, kept @readRegs_fr, kept @sinkRows_fr]; done) | split | dsimp only))

@[simp] theorem putInline_beside (n : Nat) (c : OpCtx) (t : Task) (used : Nat) (bytes : List Byte) : KeepsM State.beside (putInline n c t used bytes) := by
  unfold putInline; (repeat' (first | with_reducible exact keepsM_pure _ _ | with_reducible exact keepsM_throw _ _ | with_reducible exact keepsM_get _ | with_reducible refine keepsM_bind ?_ (fun _ => ?_) | with_reducible refine keepsM_mapM (fun _ => ?_) _ | with_reducible refine keepsM_forM (fun _ => ?_) _ | with_reducible refine keepsM_foldlM (fun _ _ => ?_) _ _ | with_reducible refine doSt_keeps _ (fun _ => ?_) | with_reducible refine askSt_keeps _ (fun _ => ?_) | (simp [kept @State.stageWrite_fr, kept @ensure_fr, kept @preWrite_fr, kept @vwrite_fr]; done) | (simp [*, kept @State.stageWrite_fr, kept @ensure_fr, kept @preWrite_fr, kept @vwrite_fr]; done) | split | dsimp only))

theorem putInline_fr (n : Nat) (c : OpCtx) (t : Task) (used : Nat) (bytes : List Byte) : KeepsM State.dm (putInline n c t used bytes) ∧ KeepsM State.free (putInline n c t used bytes) := by
  refine ⟨?_, ?_⟩ <;> (unfold putInline; (repeat' (first | with_reducible exact keepsM_pure _ _ | with_reducible exact keepsM_throw _ _ | with_reducible exact keepsM_get _ | with_reducible refine keepsM_bind ?_ (fun _ => ?_) | with_reducible refine keepsM_mapM (fun _ => ?_) _ | with_reducible refine keepsM_forM (fun _ => ?_) _ | with_reducible refine keepsM_foldlM (fun _ _ => ?_) _ _ | with_reducible refine doSt_keeps _ (fun _ => ?_) | with_reducible refine askSt_keeps _ (fun _ => ?_) | (simp [kept @State.stageWrite_fr, kept @ensure_fr, kept @preWrite_fr, kept @vwrite_fr]; done) | (simp [*, kept @State.stageWrite_fr, kept @ensure_fr, kept @preWrite_fr, kept @vwrite_fr]; done) | split | dsimp only)))

@[simp] theorem opEmitInline_beside (n : Nat) (c : OpCtx) (t : Task) (b : Batch) : KeepsM State.beside (opEmitInline n c t b) := by
  unfold opEmitInline; (repeat' (first | with_reducible exact keepsM_pure _ _ | with_reducible exact keepsM_throw _ _ | with_reducible exact keepsM_get _ | with_reducible refine keepsM_bind ?_ (fun _ => ?_) | with_reducible refine keepsM_mapM (fun _ => ?_) _ | with_reducible refine keepsM_forM (fun _ => ?_) _ | with_reducible refine keepsM_foldlM (fun _ _ => ?_) _ _ | with_reducible refine doSt_keeps _ (fun _ => ?_) | with_reducible refine askSt_keeps _ (fun _ => ?_) | (simp [kept @State.updDesc_fr, kept @opDone_fr, kept @putInline_fr, kept @readRegs_fr, kept @sinkRows_fr]; done) | (simp [*, kept @State.updDesc_fr, kept @opDone_fr, kept @putInline_fr, kept @readRegs_fr, kept @sinkRows_fr]; done) | split | dsimp only))

theorem opEmitInline_fr (n : Nat) (c : OpCtx) (t : Task) (b : Batch) : KeepsM State.dm (opEmitInline n c t b) := by
  unfold opEmitInline; (repeat' (first | with_reducible exact keepsM_pure _ _ | with_reducible exact keepsM_throw _ _ | with_reducible exact keepsM_get _ | with_reducible refine keepsM_bind ?_ (fun _ => ?_) | with_reducible refine keepsM_mapM (fun _ => ?_) _ | with_reducible refine keepsM_forM (fun _ => ?_) _ | with_reducible refine keepsM_foldlM (fun _ _ => ?_) _ _ | with_reducible refine doSt_keeps _ (fun _ => ?_) | with_reducible refine askSt_keeps _ (fun _ => ?_) | (simp [kept @State.updDesc_fr, kept @opDone_fr, kept @putInline_fr, kept @readRegs_fr, kept @sinkRows_fr]; done) | (simp [*, kept @State.updDesc_fr, kept @opDone_fr, kept @putInline_fr, kept @readRegs_fr, kept @sinkRows_fr]; done) | split | dsimp only))

end Sys2Proof.Machine
end

