-- ==== Sys2Proof/Laws/Frame/EngTable.lean ====
section
/-! SUPPORT. What the operations of Machine/EngTable.lean leave unchanged. -/

set_option Elab.async false
set_option linter.all false

namespace Sys2Proof.Machine
open Sys2Proof

@[simp] theorem issue_beside (n : Nat) (c : OpCtx) (t : Task) (oper : Nat) (decl : Nat) (kind : BKind) (ovf : List Nat) (e : AggEnt) (pos : Nat) : KeepsM State.beside (issue n c t oper decl kind ovf e pos) := by
  unfold issue; (repeat' (first | with_reducible exact keepsM_pure _ _ | with_reducible exact keepsM_throw _ _ | with_reducible exact keepsM_get _ | with_reducible refine keepsM_bind ?_ (fun _ => ?_) | with_reducible refine keepsM_mapM (fun _ => ?_) _ | with_reducible refine keepsM_forM (fun _ => ?_) _ | with_reducible refine keepsM_foldlM (fun _ _ => ?_) _ _ | with_reducible refine doSt_keeps _ (fun _ => ?_) | with_reducible refine askSt_keeps _ (fun _ => ?_) | (simp [kept @State.eng'_fr, kept @xlate_fr]; done) | (simp [*, kept @State.eng'_fr, kept @xlate_fr]; done) | split | dsimp only))

@[simp] theorem issue_apart (n : Nat) (c : OpCtx) (t : Task) (oper : Nat) (decl : Nat) (kind : BKind) (ovf : List Nat) (e : AggEnt) (pos : Nat) : KeepsM State.apart (issue n c t oper decl kind ovf e pos) := by
  unfold issue; (repeat' (first | with_reducible exact keepsM_pure _ _ | with_reducible exact keepsM_throw _ _ | with_reducible exact keepsM_get _ | with_reducible refine keepsM_bind ?_ (fun _ => ?_) | with_reducible refine keepsM_mapM (fun _ => ?_) _ | with_reducible refine keepsM_forM (fun _ => ?_) _ | with_reducible refine keepsM_foldlM (fun _ _ => ?_) _ _ | with_reducible refine doSt_keeps _ (fun _ => ?_) | with_reducible refine askSt_keeps _ (fun _ => ?_) | (simp [kept @State.eng'_fr, kept @xlate_fr]; done) | (simp [*, kept @State.eng'_fr, kept @xlate_fr]; done) | split | dsimp only))

theorem issue_fr (n : Nat) (c : OpCtx) (t : Task) (oper : Nat) (decl : Nat) (kind : BKind) (ovf : List Nat) (e : AggEnt) (pos : Nat) : KeepsM State.mram (issue n c t oper decl kind ovf e pos) ∧ KeepsM State.wires (issue n c t oper decl kind ovf e pos) ∧ KeepsM State.wq (issue n c t oper decl kind ovf e pos) ∧ KeepsM State.pkg (issue n c t oper decl kind ovf e pos) ∧ KeepsM State.pmc (issue n c t oper decl kind ovf e pos) ∧ KeepsM State.fwLog (issue n c t oper decl kind ovf e pos) ∧ KeepsM State.free (issue n c t oper decl kind ovf e pos) := by
  refine ⟨?_, ?_, ?_, ?_, ?_, ?_, ?_⟩ <;> (unfold issue; (repeat' (first | with_reducible exact keepsM_pure _ _ | with_reducible exact keepsM_throw _ _ | with_reducible exact keepsM_get _ | with_reducible refine keepsM_bind ?_ (fun _ => ?_) | with_reducible refine keepsM_mapM (fun _ => ?_) _ | with_reducible refine keepsM_forM (fun _ => ?_) _ | with_reducible refine keepsM_foldlM (fun _ _ => ?_) _ _ | with_reducible refine doSt_keeps _ (fun _ => ?_) | with_reducible refine askSt_keeps _ (fun _ => ?_) | (simp [kept @State.eng'_fr, kept @xlate_fr]; done) | (simp [*, kept @State.eng'_fr, kept @xlate_fr]; done) | split | dsimp only)))

@[simp] theorem opBuild_beside (n : Nat) (c : OpCtx) (t : Task) (b : Batch) : KeepsM State.beside (opBuild n c t b) := by
  unfold opBuild; (repeat' (first | with_reducible exact keepsM_pure _ _ | with_reducible exact keepsM_throw _ _ | with_reducible exact keepsM_get _ | with_reducible refine keepsM_bind ?_ (fun _ => ?_) | with_reducible refine keepsM_mapM (fun _ => ?_) _ | with_reducible refine keepsM_forM (fun _ => ?_) _ | with_reducible refine keepsM_foldlM (fun _ _ => ?_) _ _ | with_reducible refine doSt_keeps _ (fun _ => ?_) | with_reducible refine askSt_keeps _ (fun _ => ?_) | (simp [kept @issue_fr, kept @opDone_fr, kept @readRegs_fr, kept @sinkRows_fr]; done) | (simp [*, kept @issue_fr, kept @opDone_fr, kept @readRegs_fr, kept @sinkRows_fr]; done) | split | dsimp only))

theorem opBuild_fr (n : Nat) (c : OpCtx) (t : Task) (b : Batch) : KeepsM State.dm (opBuild n c t b) := by
  unfold opBuild; (repeat' (first | with_reducible exact keepsM_pure _ _ | with_reducible exact keepsM_throw _ _ | with_reducible exact keepsM_get _ | with_reducible refine keepsM_bind ?_ (fun _ => ?_) | with_reducible refine keepsM_mapM (fun _ => ?_) _ | with_reducible refine keepsM_forM (fun _ => ?_) _ | with_reducible refine keepsM_foldlM (fun _ _ => ?_) _ _ | with_reducible refine doSt_keeps _ (fun _ => ?_) | with_reducible refine askSt_keeps _ (fun _ => ?_) | (simp [kept @issue_fr, kept @opDone_fr, kept @readRegs_fr, kept @sinkRows_fr]; done) | (simp [*, kept @issue_fr, kept @opDone_fr, kept @readRegs_fr, kept @sinkRows_fr]; done) | split | dsimp only))

@[simp] theorem probeSend_beside (n : Nat) (c : OpCtx) (t : Task) (p : ProbeSt) : KeepsM State.beside (probeSend n c t p) := by
  unfold probeSend; (repeat' (first | with_reducible exact keepsM_pure _ _ | with_reducible exact keepsM_throw _ _ | with_reducible exact keepsM_get _ | with_reducible refine keepsM_bind ?_ (fun _ => ?_) | with_reducible refine keepsM_mapM (fun _ => ?_) _ | with_reducible refine keepsM_forM (fun _ => ?_) _ | with_reducible refine keepsM_foldlM (fun _ _ => ?_) _ _ | with_reducible refine doSt_keeps _ (fun _ => ?_) | with_reducible refine askSt_keeps _ (fun _ => ?_) | (simp [kept @cbRead_fr, kept @issue_fr, kept @sealFlits_fr]; done) | (simp [*, kept @cbRead_fr, kept @issue_fr, kept @sealFlits_fr]; done) | split | dsimp only))

@[simp] theorem probeSend_apart (n : Nat) (c : OpCtx) (t : Task) (p : ProbeSt) : KeepsM State.apart (probeSend n c t p) := by
  unfold probeSend; (repeat' (first | with_reducible exact keepsM_pure _ _ | with_reducible exact keepsM_throw _ _ | with_reducible exact keepsM_get _ | with_reducible refine keepsM_bind ?_ (fun _ => ?_) | with_reducible refine keepsM_mapM (fun _ => ?_) _ | with_reducible refine keepsM_forM (fun _ => ?_) _ | with_reducible refine keepsM_foldlM (fun _ _ => ?_) _ _ | with_reducible refine doSt_keeps _ (fun _ => ?_) | with_reducible refine askSt_keeps _ (fun _ => ?_) | (simp [kept @cbRead_fr, kept @issue_fr, kept @sealFlits_fr]; done) | (simp [*, kept @cbRead_fr, kept @issue_fr, kept @sealFlits_fr]; done) | split | dsimp only))

theorem probeSend_fr (n : Nat) (c : OpCtx) (t : Task) (p : ProbeSt) : KeepsM State.wires (probeSend n c t p) ∧ KeepsM State.wq (probeSend n c t p) ∧ KeepsM State.pkg (probeSend n c t p) ∧ KeepsM State.fwLog (probeSend n c t p) := by
  refine ⟨?_, ?_, ?_, ?_⟩ <;> (unfold probeSend; (repeat' (first | with_reducible exact keepsM_pure _ _ | with_reducible exact keepsM_throw _ _ | with_reducible exact keepsM_get _ | with_reducible refine keepsM_bind ?_ (fun _ => ?_) | with_reducible refine keepsM_mapM (fun _ => ?_) _ | with_reducible refine keepsM_forM (fun _ => ?_) _ | with_reducible refine keepsM_foldlM (fun _ _ => ?_) _ _ | with_reducible refine doSt_keeps _ (fun _ => ?_) | with_reducible refine askSt_keeps _ (fun _ => ?_) | (simp [kept @cbRead_fr, kept @issue_fr, kept @sealFlits_fr]; done) | (simp [*, kept @cbRead_fr, kept @issue_fr, kept @sealFlits_fr]; done) | split | dsimp only)))

@[simp] theorem writeBatch_beside (n : Nat) (c : OpCtx) (t : Task) (b : Batch) : KeepsM State.beside (writeBatch n c t b) := by
  unfold writeBatch; (repeat' (first | with_reducible exact keepsM_pure _ _ | with_reducible exact keepsM_throw _ _ | with_reducible exact keepsM_get _ | with_reducible refine keepsM_bind ?_ (fun _ => ?_) | with_reducible refine keepsM_mapM (fun _ => ?_) _ | with_reducible refine keepsM_forM (fun _ => ?_) _ | with_reducible refine keepsM_foldlM (fun _ _ => ?_) _ _ | with_reducible refine doSt_keeps _ (fun _ => ?_) | with_reducible refine askSt_keeps _ (fun _ => ?_) | (simp [kept @cbStore_fr]; done) | (simp [*, kept @cbStore_fr]; done) | split | dsimp only))

@[simp] theorem writeBatch_apart (n : Nat) (c : OpCtx) (t : Task) (b : Batch) : KeepsM State.apart (writeBatch n c t b) := by
  unfold writeBatch; (repeat' (first | with_reducible exact keepsM_pure _ _ | with_reducible exact keepsM_throw _ _ | with_reducible exact keepsM_get _ | with_reducible refine keepsM_bind ?_ (fun _ => ?_) | with_reducible refine keepsM_mapM (fun _ => ?_) _ | with_reducible refine keepsM_forM (fun _ => ?_) _ | with_reducible refine keepsM_foldlM (fun _ _ => ?_) _ _ | with_reducible refine doSt_keeps _ (fun _ => ?_) | with_reducible refine askSt_keeps _ (fun _ => ?_) | (simp [kept @cbStore_fr]; done) | (simp [*, kept @cbStore_fr]; done) | split | dsimp only))

theorem writeBatch_fr (n : Nat) (c : OpCtx) (t : Task) (b : Batch) : KeepsM State.wires (writeBatch n c t b) ∧ KeepsM State.wq (writeBatch n c t b) ∧ KeepsM State.pkg (writeBatch n c t b) ∧ KeepsM State.fwLog (writeBatch n c t b) := by
  refine ⟨?_, ?_, ?_, ?_⟩ <;> (unfold writeBatch; (repeat' (first | with_reducible exact keepsM_pure _ _ | with_reducible exact keepsM_throw _ _ | with_reducible exact keepsM_get _ | with_reducible refine keepsM_bind ?_ (fun _ => ?_) | with_reducible refine keepsM_mapM (fun _ => ?_) _ | with_reducible refine keepsM_forM (fun _ => ?_) _ | with_reducible refine keepsM_foldlM (fun _ _ => ?_) _ _ | with_reducible refine doSt_keeps _ (fun _ => ?_) | with_reducible refine askSt_keeps _ (fun _ => ?_) | (simp [kept @cbStore_fr]; done) | (simp [*, kept @cbStore_fr]; done) | split | dsimp only)))

@[simp] theorem probeMake_beside (n : Nat) (c : OpCtx) (t : Task) (p : ProbeSt) (rest : List ProbeSt) : KeepsM State.beside (probeMake n c t p rest) := by
  unfold probeMake; (repeat' (first | with_reducible exact keepsM_pure _ _ | with_reducible exact keepsM_throw _ _ | with_reducible exact keepsM_get _ | with_reducible refine keepsM_bind ?_ (fun _ => ?_) | with_reducible refine keepsM_mapM (fun _ => ?_) _ | with_reducible refine keepsM_forM (fun _ => ?_) _ | with_reducible refine keepsM_foldlM (fun _ _ => ?_) _ _ | with_reducible refine doSt_keeps _ (fun _ => ?_) | with_reducible refine askSt_keeps _ (fun _ => ?_) | (simp [kept @cbRead_fr, kept @updTask_fr, kept @writeBatch_fr]; done) | (simp [*, kept @cbRead_fr, kept @updTask_fr, kept @writeBatch_fr]; done) | split | dsimp only))

@[simp] theorem probeMake_apart (n : Nat) (c : OpCtx) (t : Task) (p : ProbeSt) (rest : List ProbeSt) : KeepsM State.apart (probeMake n c t p rest) := by
  unfold probeMake; (repeat' (first | with_reducible exact keepsM_pure _ _ | with_reducible exact keepsM_throw _ _ | with_reducible exact keepsM_get _ | with_reducible refine keepsM_bind ?_ (fun _ => ?_) | with_reducible refine keepsM_mapM (fun _ => ?_) _ | with_reducible refine keepsM_forM (fun _ => ?_) _ | with_reducible refine keepsM_foldlM (fun _ _ => ?_) _ _ | with_reducible refine doSt_keeps _ (fun _ => ?_) | with_reducible refine askSt_keeps _ (fun _ => ?_) | (simp [kept @cbRead_fr, kept @updTask_fr, kept @writeBatch_fr]; done) | (simp [*, kept @cbRead_fr, kept @updTask_fr, kept @writeBatch_fr]; done) | split | dsimp only))

theorem probeMake_fr (n : Nat) (c : OpCtx) (t : Task) (p : ProbeSt) (rest : List ProbeSt) : KeepsM State.wires (probeMake n c t p rest) ∧ KeepsM State.wq (probeMake n c t p rest) ∧ KeepsM State.pkg (probeMake n c t p rest) ∧ KeepsM State.fwLog (probeMake n c t p rest) := by
  refine ⟨?_, ?_, ?_, ?_⟩ <;> (unfold probeMake; (repeat' (first | with_reducible exact keepsM_pure _ _ | with_reducible exact keepsM_throw _ _ | with_reducible exact keepsM_get _ | with_reducible refine keepsM_bind ?_ (fun _ => ?_) | with_reducible refine keepsM_mapM (fun _ => ?_) _ | with_reducible refine keepsM_forM (fun _ => ?_) _ | with_reducible refine keepsM_foldlM (fun _ _ => ?_) _ _ | with_reducible refine doSt_keeps _ (fun _ => ?_) | with_reducible refine askSt_keeps _ (fun _ => ?_) | (simp [kept @cbRead_fr, kept @updTask_fr, kept @writeBatch_fr]; done) | (simp [*, kept @cbRead_fr, kept @updTask_fr, kept @writeBatch_fr]; done) | split | dsimp only)))

@[simp] theorem opProbe_beside (n : Nat) (c : OpCtx) (t : Task) (b : Batch) : KeepsM State.beside (opProbe n c t b) := by
  unfold opProbe; (repeat' (first | with_reducible exact keepsM_pure _ _ | with_reducible exact keepsM_throw _ _ | with_reducible exact keepsM_get _ | with_reducible refine keepsM_bind ?_ (fun _ => ?_) | with_reducible refine keepsM_mapM (fun _ => ?_) _ | with_reducible refine keepsM_forM (fun _ => ?_) _ | with_reducible refine keepsM_foldlM (fun _ _ => ?_) _ _ | with_reducible refine doSt_keeps _ (fun _ => ?_) | with_reducible refine askSt_keeps _ (fun _ => ?_) | (simp [kept @probeMake_fr, kept @probeSend_fr, kept @readRegs_fr]; done) | (simp [*, kept @probeMake_fr, kept @probeSend_fr, kept @readRegs_fr]; done) | split | dsimp only))

@[simp] theorem opProbe_apart (n : Nat) (c : OpCtx) (t : Task) (b : Batch) : KeepsM State.apart (opProbe n c t b) := by
  unfold opProbe; (repeat' (first | with_reducible exact keepsM_pure _ _ | with_reducible exact keepsM_throw _ _ | with_reducible exact keepsM_get _ | with_reducible refine keepsM_bind ?_ (fun _ => ?_) | with_reducible refine keepsM_mapM (fun _ => ?_) _ | with_reducible refine keepsM_forM (fun _ => ?_) _ | with_reducible refine keepsM_foldlM (fun _ _ => ?_) _ _ | with_reducible refine doSt_keeps _ (fun _ => ?_) | with_reducible refine askSt_keeps _ (fun _ => ?_) | (simp [kept @probeMake_fr, kept @probeSend_fr, kept @readRegs_fr]; done) | (simp [*, kept @probeMake_fr, kept @probeSend_fr, kept @readRegs_fr]; done) | split | dsimp only))

theorem opProbe_fr (n : Nat) (c : OpCtx) (t : Task) (b : Batch) : KeepsM State.wires (opProbe n c t b) ∧ KeepsM State.wq (opProbe n c t b) ∧ KeepsM State.pkg (opProbe n c t b) ∧ KeepsM State.fwLog (opProbe n c t b) := by
  refine ⟨?_, ?_, ?_, ?_⟩ <;> (unfold opProbe; (repeat' (first | with_reducible exact keepsM_pure _ _ | with_reducible exact keepsM_throw _ _ | with_reducible exact keepsM_get _ | with_reducible refine keepsM_bind ?_ (fun _ => ?_) | with_reducible refine keepsM_mapM (fun _ => ?_) _ | with_reducible refine keepsM_forM (fun _ => ?_) _ | with_reducible refine keepsM_foldlM (fun _ _ => ?_) _ _ | with_reducible refine doSt_keeps _ (fun _ => ?_) | with_reducible refine askSt_keeps _ (fun _ => ?_) | (simp [kept @probeMake_fr, kept @probeSend_fr, kept @readRegs_fr]; done) | (simp [*, kept @probeMake_fr, kept @probeSend_fr, kept @readRegs_fr]; done) | split | dsimp only)))

@[simp] theorem probeOn_beside (n : Nat) (c : OpCtx) (t : Task) : KeepsM State.beside (probeOn n c t) := by
  unfold probeOn; (repeat' (first | with_reducible exact keepsM_pure _ _ | with_reducible exact keepsM_throw _ _ | with_reducible exact keepsM_get _ | with_reducible refine keepsM_bind ?_ (fun _ => ?_) | with_reducible refine keepsM_mapM (fun _ => ?_) _ | with_reducible refine keepsM_forM (fun _ => ?_) _ | with_reducible refine keepsM_foldlM (fun _ _ => ?_) _ _ | with_reducible refine doSt_keeps _ (fun _ => ?_) | with_reducible refine askSt_keeps _ (fun _ => ?_) | (simp [kept @probeMake_fr, kept @probeSend_fr]; done) | (simp [*, kept @probeMake_fr, kept @probeSend_fr]; done) | split | dsimp only))

@[simp] theorem probeOn_apart (n : Nat) (c : OpCtx) (t : Task) : KeepsM State.apart (probeOn n c t) := by
  unfold probeOn; (repeat' (first | with_reducible exact keepsM_pure _ _ | with_reducible exact keepsM_throw _ _ | with_reducible exact keepsM_get _ | with_reducible refine keepsM_bind ?_ (fun _ => ?_) | with_reducible refine keepsM_mapM (fun _ => ?_) _ | with_reducible refine keepsM_forM (fun _ => ?_) _ | with_reducible refine keepsM_foldlM (fun _ _ => ?_) _ _ | with_reducible refine doSt_keeps _ (fun _ => ?_) | with_reducible refine askSt_keeps _ (fun _ => ?_) | (simp [kept @probeMake_fr, kept @probeSend_fr]; done) | (simp [*, kept @probeMake_fr, kept @probeSend_fr]; done) | split | dsimp only))

theorem probeOn_fr (n : Nat) (c : OpCtx) (t : Task) : KeepsM State.wires (probeOn n c t) ∧ KeepsM State.wq (probeOn n c t) ∧ KeepsM State.pkg (probeOn n c t) ∧ KeepsM State.fwLog (probeOn n c t) := by
  refine ⟨?_, ?_, ?_, ?_⟩ <;> (unfold probeOn; (repeat' (first | with_reducible exact keepsM_pure _ _ | with_reducible exact keepsM_throw _ _ | with_reducible exact keepsM_get _ | with_reducible refine keepsM_bind ?_ (fun _ => ?_) | with_reducible refine keepsM_mapM (fun _ => ?_) _ | with_reducible refine keepsM_forM (fun _ => ?_) _ | with_reducible refine keepsM_foldlM (fun _ _ => ?_) _ _ | with_reducible refine doSt_keeps _ (fun _ => ?_) | with_reducible refine askSt_keeps _ (fun _ => ?_) | (simp [kept @probeMake_fr, kept @probeSend_fr]; done) | (simp [*, kept @probeMake_fr, kept @probeSend_fr]; done) | split | dsimp only)))

@[simp] theorem takeChunk_beside (t : Task) : KeepsM State.beside (takeChunk t) := by
  unfold takeChunk; (repeat' (first | with_reducible exact keepsM_pure _ _ | with_reducible exact keepsM_throw _ _ | with_reducible exact keepsM_get _ | with_reducible refine keepsM_bind ?_ (fun _ => ?_) | with_reducible refine keepsM_mapM (fun _ => ?_) _ | with_reducible refine keepsM_forM (fun _ => ?_) _ | with_reducible refine keepsM_foldlM (fun _ _ => ?_) _ _ | with_reducible refine doSt_keeps _ (fun _ => ?_) | with_reducible refine askSt_keeps _ (fun _ => ?_) | (simp [kept @State.allocChunk_fr]; done) | (simp [*, kept @State.allocChunk_fr]; done) | split | dsimp only))

@[simp] theorem takeChunk_apart (t : Task) : KeepsM State.apart (takeChunk t) := by
  unfold takeChunk; (repeat' (first | with_reducible exact keepsM_pure _ _ | with_reducible exact keepsM_throw _ _ | with_reducible exact keepsM_get _ | with_reducible refine keepsM_bind ?_ (fun _ => ?_) | with_reducible refine keepsM_mapM (fun _ => ?_) _ | with_reducible refine keepsM_forM (fun _ => ?_) _ | with_reducible refine keepsM_foldlM (fun _ _ => ?_) _ _ | with_reducible refine doSt_keeps _ (fun _ => ?_) | with_reducible refine askSt_keeps _ (fun _ => ?_) | (simp [kept @State.allocChunk_fr]; done) | (simp [*, kept @State.allocChunk_fr]; done) | split | dsimp only))

theorem takeChunk_fr (t : Task) : KeepsM State.mram (takeChunk t) ∧ KeepsM State.wires (takeChunk t) ∧ KeepsM State.wq (takeChunk t) ∧ KeepsM State.pkg (takeChunk t) ∧ KeepsM State.pmc (takeChunk t) ∧ KeepsM State.fwLog (takeChunk t) ∧ KeepsM State.free (takeChunk t) := by
  refine ⟨?_, ?_, ?_, ?_, ?_, ?_, ?_⟩ <;> (unfold takeChunk; (repeat' (first | with_reducible exact keepsM_pure _ _ | with_reducible exact keepsM_throw _ _ | with_reducible exact keepsM_get _ | with_reducible refine keepsM_bind ?_ (fun _ => ?_) | with_reducible refine keepsM_mapM (fun _ => ?_) _ | with_reducible refine keepsM_forM (fun _ => ?_) _ | with_reducible refine keepsM_foldlM (fun _ _ => ?_) _ _ | with_reducible refine doSt_keeps _ (fun _ => ?_) | with_reducible refine askSt_keeps _ (fun _ => ?_) | (simp [kept @State.allocChunk_fr]; done) | (simp [*, kept @State.allocChunk_fr]; done) | split | dsimp only)))

@[simp] theorem spillPartial_beside (t : Task) (d : TDecl) (e : AggEnt) : KeepsM State.beside (spillPartial t d e) := by
  unfold spillPartial; (repeat' (first | with_reducible exact keepsM_pure _ _ | with_reducible exact keepsM_throw _ _ | with_reducible exact keepsM_get _ | with_reducible refine keepsM_bind ?_ (fun _ => ?_) | with_reducible refine keepsM_mapM (fun _ => ?_) _ | with_reducible refine keepsM_forM (fun _ => ?_) _ | with_reducible refine keepsM_foldlM (fun _ _ => ?_) _ _ | with_reducible refine doSt_keeps _ (fun _ => ?_) | with_reducible refine askSt_keeps _ (fun _ => ?_) | (simp [kept @State.updRun_fr, kept @pwrite_fr, kept @takeChunk_fr]; done) | (simp [*, kept @State.updRun_fr, kept @pwrite_fr, kept @takeChunk_fr]; done) | split | dsimp only))

theorem spillPartial_fr (t : Task) (d : TDecl) (e : AggEnt) : KeepsM State.dm (spillPartial t d e) ∧ KeepsM State.free (spillPartial t d e) := by
  refine ⟨?_, ?_⟩ <;> (unfold spillPartial; (repeat' (first | with_reducible exact keepsM_pure _ _ | with_reducible exact keepsM_throw _ _ | with_reducible exact keepsM_get _ | with_reducible refine keepsM_bind ?_ (fun _ => ?_) | with_reducible refine keepsM_mapM (fun _ => ?_) _ | with_reducible refine keepsM_forM (fun _ => ?_) _ | with_reducible refine keepsM_foldlM (fun _ _ => ?_) _ _ | with_reducible refine doSt_keeps _ (fun _ => ?_) | with_reducible refine askSt_keeps _ (fun _ => ?_) | (simp [kept @State.updRun_fr, kept @pwrite_fr, kept @takeChunk_fr]; done) | (simp [*, kept @State.updRun_fr, kept @pwrite_fr, kept @takeChunk_fr]; done) | split | dsimp only)))

@[simp] theorem sendPartial_beside (n : Nat) (c : OpCtx) (t : Task) (oper : Nat) (decl : Nat) (ovf : List Nat) (e : AggEnt) : KeepsM State.beside (sendPartial n c t oper decl ovf e) := by
  unfold sendPartial; (repeat' (first | with_reducible exact keepsM_pure _ _ | with_reducible exact keepsM_throw _ _ | with_reducible exact keepsM_get _ | with_reducible refine keepsM_bind ?_ (fun _ => ?_) | with_reducible refine keepsM_mapM (fun _ => ?_) _ | with_reducible refine keepsM_forM (fun _ => ?_) _ | with_reducible refine keepsM_foldlM (fun _ _ => ?_) _ _ | with_reducible refine doSt_keeps _ (fun _ => ?_) | with_reducible refine askSt_keeps _ (fun _ => ?_) | (simp [kept @issue_fr, kept @spillPartial_fr]; done) | (simp [*, kept @issue_fr, kept @spillPartial_fr]; done) | split | dsimp only))

theorem sendPartial_fr (n : Nat) (c : OpCtx) (t : Task) (oper : Nat) (decl : Nat) (ovf : List Nat) (e : AggEnt) : KeepsM State.dm (sendPartial n c t oper decl ovf e) ∧ KeepsM State.free (sendPartial n c t oper decl ovf e) := by
  refine ⟨?_, ?_⟩ <;> (unfold sendPartial; (repeat' (first | with_reducible exact keepsM_pure _ _ | with_reducible exact keepsM_throw _ _ | with_reducible exact keepsM_get _ | with_reducible refine keepsM_bind ?_ (fun _ => ?_) | with_reducible refine keepsM_mapM (fun _ => ?_) _ | with_reducible refine keepsM_forM (fun _ => ?_) _ | with_reducible refine keepsM_foldlM (fun _ _ => ?_) _ _ | with_reducible refine doSt_keeps _ (fun _ => ?_) | with_reducible refine askSt_keeps _ (fun _ => ?_) | (simp [kept @issue_fr, kept @spillPartial_fr]; done) | (simp [*, kept @issue_fr, kept @spillPartial_fr]; done) | split | dsimp only)))

@[simp] theorem aggRead_beside (n : Nat) (t : Task) (ln : Nat) : KeepsM State.beside (aggRead n t ln) := by
  unfold aggRead; (repeat' (first | with_reducible exact keepsM_pure _ _ | with_reducible exact keepsM_throw _ _ | with_reducible exact keepsM_get _ | with_reducible refine keepsM_bind ?_ (fun _ => ?_) | with_reducible refine keepsM_mapM (fun _ => ?_) _ | with_reducible refine keepsM_forM (fun _ => ?_) _ | with_reducible refine keepsM_foldlM (fun _ _ => ?_) _ _ | with_reducible refine doSt_keeps _ (fun _ => ?_) | with_reducible refine askSt_keeps _ (fun _ => ?_) | (simp [kept @cbRead_fr]; done) | (simp [*, kept @cbRead_fr]; done) | split | dsimp only))

@[simp] theorem aggRead_apart (n : Nat) (t : Task) (ln : Nat) : KeepsM State.apart (aggRead n t ln) := by
  unfold aggRead; (repeat' (first | with_reducible exact keepsM_pure _ _ | with_reducible exact keepsM_throw _ _ | with_reducible exact keepsM_get _ | with_reducible refine keepsM_bind ?_ (fun _ => ?_) | with_reducible refine keepsM_mapM (fun _ => ?_) _ | with_reducible refine keepsM_forM (fun _ => ?_) _ | with_reducible refine keepsM_foldlM (fun _ _ => ?_) _ _ | with_reducible refine doSt_keeps _ (fun _ => ?_) | with_reducible refine askSt_keeps _ (fun _ => ?_) | (simp [kept @cbRead_fr]; done) | (simp [*, kept @cbRead_fr]; done) | split | dsimp only))

theorem aggRead_fr (n : Nat) (t : Task) (ln : Nat) : KeepsM State.wires (aggRead n t ln) ∧ KeepsM State.wq (aggRead n t ln) ∧ KeepsM State.pkg (aggRead n t ln) ∧ KeepsM State.fwLog (aggRead n t ln) := by
  refine ⟨?_, ?_, ?_, ?_⟩ <;> (unfold aggRead; (repeat' (first | with_reducible exact keepsM_pure _ _ | with_reducible exact keepsM_throw _ _ | with_reducible exact keepsM_get _ | with_reducible refine keepsM_bind ?_ (fun _ => ?_) | with_reducible refine keepsM_mapM (fun _ => ?_) _ | with_reducible refine keepsM_forM (fun _ => ?_) _ | with_reducible refine keepsM_foldlM (fun _ _ => ?_) _ _ | with_reducible refine doSt_keeps _ (fun _ => ?_) | with_reducible refine askSt_keeps _ (fun _ => ?_) | (simp [kept @cbRead_fr]; done) | (simp [*, kept @cbRead_fr]; done) | split | dsimp only)))

@[simp] theorem aggPut_beside (n : Nat) (ln : Nat) (l : AggLine) : KeepsM State.beside (aggPut n ln l) := by
  unfold aggPut; (repeat' (first | with_reducible exact keepsM_pure _ _ | with_reducible exact keepsM_throw _ _ | with_reducible exact keepsM_get _ | with_reducible refine keepsM_bind ?_ (fun _ => ?_) | with_reducible refine keepsM_mapM (fun _ => ?_) _ | with_reducible refine keepsM_forM (fun _ => ?_) _ | with_reducible refine keepsM_foldlM (fun _ _ => ?_) _ _ | with_reducible refine doSt_keeps _ (fun _ => ?_) | with_reducible refine askSt_keeps _ (fun _ => ?_) | (simp [kept @State.cbWrite_fr, kept @State.setSlice_fr]; done) | (simp [*, kept @State.cbWrite_fr, kept @State.setSlice_fr]; done) | split | dsimp only))

@[simp] theorem aggPut_apart (n : Nat) (ln : Nat) (l : AggLine) : KeepsM State.apart (aggPut n ln l) := by
  unfold aggPut; (repeat' (first | with_reducible exact keepsM_pure _ _ | with_reducible exact keepsM_throw _ _ | with_reducible exact keepsM_get _ | with_reducible refine keepsM_bind ?_ (fun _ => ?_) | with_reducible refine keepsM_mapM (fun _ => ?_) _ | with_reducible refine keepsM_forM (fun _ => ?_) _ | with_reducible refine keepsM_foldlM (fun _ _ => ?_) _ _ | with_reducible refine doSt_keeps _ (fun _ => ?_) | with_reducible refine askSt_keeps _ (fun _ => ?_) | (simp [kept @State.cbWrite_fr, kept @State.setSlice_fr]; done) | (simp [*, kept @State.cbWrite_fr, kept @State.setSlice_fr]; done) | split | dsimp only))

theorem aggPut_fr (n : Nat) (ln : Nat) (l : AggLine) : KeepsM State.mram (aggPut n ln l) ∧ KeepsM State.wires (aggPut n ln l) ∧ KeepsM State.wq (aggPut n ln l) ∧ KeepsM State.pkg (aggPut n ln l) ∧ KeepsM State.pmc (aggPut n ln l) ∧ KeepsM State.fwLog (aggPut n ln l) ∧ KeepsM State.free (aggPut n ln l) := by
  refine ⟨?_, ?_, ?_, ?_, ?_, ?_, ?_⟩ <;> (unfold aggPut; (repeat' (first | with_reducible exact keepsM_pure _ _ | with_reducible exact keepsM_throw _ _ | with_reducible exact keepsM_get _ | with_reducible refine keepsM_bind ?_ (fun _ => ?_) | with_reducible refine keepsM_mapM (fun _ => ?_) _ | with_reducible refine keepsM_forM (fun _ => ?_) _ | with_reducible refine keepsM_foldlM (fun _ _ => ?_) _ _ | with_reducible refine doSt_keeps _ (fun _ => ?_) | with_reducible refine askSt_keeps _ (fun _ => ?_) | (simp [kept @State.cbWrite_fr, kept @State.setSlice_fr]; done) | (simp [*, kept @State.cbWrite_fr, kept @State.setSlice_fr]; done) | split | dsimp only)))

@[simp] theorem aggRow_beside (n : Nat) (c : OpCtx) (t : Task) (d : TDecl) (e : AggEnt) (rn : Nat) : KeepsM State.beside (aggRow n c t d e rn) := by
  unfold aggRow; (repeat' (first | with_reducible exact keepsM_pure _ _ | with_reducible exact keepsM_throw _ _ | with_reducible exact keepsM_get _ | with_reducible refine keepsM_bind ?_ (fun _ => ?_) | with_reducible refine keepsM_mapM (fun _ => ?_) _ | with_reducible refine keepsM_forM (fun _ => ?_) _ | with_reducible refine keepsM_foldlM (fun _ _ => ?_) _ _ | with_reducible refine doSt_keeps _ (fun _ => ?_) | with_reducible refine askSt_keeps _ (fun _ => ?_) | (simp [kept @State.pmcSlc_fr, kept @aggPut_fr, kept @aggRead_fr, kept @sendPartial_fr]; done) | (simp [*, kept @State.pmcSlc_fr, kept @aggPut_fr, kept @aggRead_fr, kept @sendPartial_fr]; done) | split | dsimp only))

theorem aggRow_fr (n : Nat) (c : OpCtx) (t : Task) (d : TDecl) (e : AggEnt) (rn : Nat) : KeepsM State.dm (aggRow n c t d e rn) := by
  unfold aggRow; (repeat' (first | with_reducible exact keepsM_pure _ _ | with_reducible exact keepsM_throw _ _ | with_reducible exact keepsM_get _ | with_reducible refine keepsM_bind ?_ (fun _ => ?_) | with_reducible refine keepsM_mapM (fun _ => ?_) _ | with_reducible refine keepsM_forM (fun _ => ?_) _ | with_reducible refine keepsM_foldlM (fun _ _ => ?_) _ _ | with_reducible refine doSt_keeps _ (fun _ => ?_) | with_reducible refine askSt_keeps _ (fun _ => ?_) | (simp [kept @State.pmcSlc_fr, kept @aggPut_fr, kept @aggRead_fr, kept @sendPartial_fr]; done) | (simp [*, kept @State.pmcSlc_fr, kept @aggPut_fr, kept @aggRead_fr, kept @sendPartial_fr]; done) | split | dsimp only))

@[simp] theorem opAggLocal_beside (n : Nat) (c : OpCtx) (t : Task) (b : Batch) : KeepsM State.beside (opAggLocal n c t b) := by
  unfold opAggLocal; (repeat' (first | with_reducible exact keepsM_pure _ _ | with_reducible exact keepsM_throw _ _ | with_reducible exact keepsM_get _ | with_reducible refine keepsM_bind ?_ (fun _ => ?_) | with_reducible refine keepsM_mapM (fun _ => ?_) _ | with_reducible refine keepsM_forM (fun _ => ?_) _ | with_reducible refine keepsM_foldlM (fun _ _ => ?_) _ _ | with_reducible refine doSt_keeps _ (fun _ => ?_) | with_reducible refine askSt_keeps _ (fun _ => ?_) | (simp [kept @aggRow_fr, kept @opDone_fr, kept @readRegs_fr, kept @sinkRows_fr]; done) | (simp [*, kept @aggRow_fr, kept @opDone_fr, kept @readRegs_fr, kept @sinkRows_fr]; done) | split | dsimp only))

theorem opAggLocal_fr (n : Nat) (c : OpCtx) (t : Task) (b : Batch) : KeepsM State.dm (opAggLocal n c t b) := by
  unfold opAggLocal; (repeat' (first | with_reducible exact keepsM_pure _ _ | with_reducible exact keepsM_throw _ _ | with_reducible exact keepsM_get _ | with_reducible refine keepsM_bind ?_ (fun _ => ?_) | with_reducible refine keepsM_mapM (fun _ => ?_) _ | with_reducible refine keepsM_forM (fun _ => ?_) _ | with_reducible refine keepsM_foldlM (fun _ _ => ?_) _ _ | with_reducible refine doSt_keeps _ (fun _ => ?_) | with_reducible refine askSt_keeps _ (fun _ => ?_) | (simp [kept @aggRow_fr, kept @opDone_fr, kept @readRegs_fr, kept @sinkRows_fr]; done) | (simp [*, kept @aggRow_fr, kept @opDone_fr, kept @readRegs_fr, kept @sinkRows_fr]; done) | split | dsimp only))

@[simp] theorem opAggHome_beside (n : Nat) (c : OpCtx) (t : Task) (b : Batch) : KeepsM State.beside (opAggHome n c t b) := by
  unfold opAggHome; (repeat' (first | with_reducible exact keepsM_pure _ _ | with_reducible exact keepsM_throw _ _ | with_reducible exact keepsM_get _ | with_reducible refine keepsM_bind ?_ (fun _ => ?_) | with_reducible refine keepsM_mapM (fun _ => ?_) _ | with_reducible refine keepsM_forM (fun _ => ?_) _ | with_reducible refine keepsM_foldlM (fun _ _ => ?_) _ _ | with_reducible refine doSt_keeps _ (fun _ => ?_) | with_reducible refine askSt_keeps _ (fun _ => ?_) | (simp [kept @issue_fr, kept @opDone_fr, kept @readRegs_fr, kept @sinkRows_fr]; done) | (simp [*, kept @issue_fr, kept @opDone_fr, kept @readRegs_fr, kept @sinkRows_fr]; done) | split | dsimp only))

theorem opAggHome_fr (n : Nat) (c : OpCtx) (t : Task) (b : Batch) : KeepsM State.dm (opAggHome n c t b) := by
  unfold opAggHome; (repeat' (first | with_reducible exact keepsM_pure _ _ | with_reducible exact keepsM_throw _ _ | with_reducible exact keepsM_get _ | with_reducible refine keepsM_bind ?_ (fun _ => ?_) | with_reducible refine keepsM_mapM (fun _ => ?_) _ | with_reducible refine keepsM_forM (fun _ => ?_) _ | with_reducible refine keepsM_foldlM (fun _ _ => ?_) _ _ | with_reducible refine doSt_keeps _ (fun _ => ?_) | with_reducible refine askSt_keeps _ (fun _ => ?_) | (simp [kept @issue_fr, kept @opDone_fr, kept @readRegs_fr, kept @sinkRows_fr]; done) | (simp [*, kept @issue_fr, kept @opDone_fr, kept @readRegs_fr, kept @sinkRows_fr]; done) | split | dsimp only))

@[simp] theorem flushAgg_beside (n : Nat) (c : OpCtx) (t : Task) (oper : Nat) (decl : Nat) (ovf : List Nat) : KeepsM State.beside (flushAgg n c t oper decl ovf) := by
  unfold flushAgg; (repeat' (first | with_reducible exact keepsM_pure _ _ | with_reducible exact keepsM_throw _ _ | with_reducible exact keepsM_get _ | with_reducible refine keepsM_bind ?_ (fun _ => ?_) | with_reducible refine keepsM_mapM (fun _ => ?_) _ | with_reducible refine keepsM_forM (fun _ => ?_) _ | with_reducible refine keepsM_foldlM (fun _ _ => ?_) _ _ | with_reducible refine doSt_keeps _ (fun _ => ?_) | with_reducible refine askSt_keeps _ (fun _ => ?_) | (simp [kept @State.setSlice_fr, kept @aggRead_fr, kept @sealFlits_fr, kept @sendPartial_fr]; done) | (simp [*, kept @State.setSlice_fr, kept @aggRead_fr, kept @sealFlits_fr, kept @sendPartial_fr]; done) | split | dsimp only))

theorem flushAgg_fr (n : Nat) (c : OpCtx) (t : Task) (oper : Nat) (decl : Nat) (ovf : List Nat) : KeepsM State.dm (flushAgg n c t oper decl ovf) := by
  unfold flushAgg; (repeat' (first | with_reducible exact keepsM_pure _ _ | with_reducible exact keepsM_throw _ _ | with_reducible exact keepsM_get _ | with_reducible refine keepsM_bind ?_ (fun _ => ?_) | with_reducible refine keepsM_mapM (fun _ => ?_) _ | with_reducible refine keepsM_forM (fun _ => ?_) _ | with_reducible refine keepsM_foldlM (fun _ _ => ?_) _ _ | with_reducible refine doSt_keeps _ (fun _ => ?_) | with_reducible refine askSt_keeps _ (fun _ => ?_) | (simp [kept @State.setSlice_fr, kept @aggRead_fr, kept @sealFlits_fr, kept @sendPartial_fr]; done) | (simp [*, kept @State.setSlice_fr, kept @aggRead_fr, kept @sealFlits_fr, kept @sendPartial_fr]; done) | split | dsimp only))

theorem State.setBop_fr (s : State) (b : BOp) : (State.setBop s b).pending = s.pending ∧ (State.setBop s b).flash = s.flash ∧ (State.setBop s b).coldOpt = s.coldOpt ∧ (State.setBop s b).mem = s.mem ∧ (State.setBop s b).harts = s.harts ∧ (State.setBop s b).mram = s.mram ∧ (State.setBop s b).imsic = s.imsic ∧ (State.setBop s b).dm = s.dm ∧ (State.setBop s b).fx = s.fx ∧ (State.setBop s b).ctu = s.ctu ∧ (State.setBop s b).links = s.links ∧ (State.setBop s b).aplicS = s.aplicS ∧ (State.setBop s b).aplicN = s.aplicN ∧ (State.setBop s b).credits = s.credits ∧ (State.setBop s b).clusters = s.clusters ∧ (State.setBop s b).homes = s.homes ∧ (State.setBop s b).pkts = s.pkts ∧ (State.setBop s b).resp = s.resp ∧ (State.setBop s b).regs = s.regs ∧ (State.setBop s b).wires = s.wires ∧ (State.setBop s b).dmg = s.dmg ∧ (State.setBop s b).wq = s.wq ∧ (State.setBop s b).net = s.net ∧ (State.setBop s b).dbInval = s.dbInval ∧ (State.setBop s b).watch = s.watch ∧ (State.setBop s b).pkg = s.pkg ∧ (State.setBop s b).pmc = s.pmc ∧ (State.setBop s b).fwLog = s.fwLog ∧ (State.setBop s b).out = s.out ∧ (State.setBop s b).free = s.free ∧ (State.setBop s b).fabric = s.fabric ∧ (State.setBop s b).files = s.files := by
  generalize h : State.setBop s b = u
  unfold State.setBop at h
  rw [← h]; simp [kept @State.eng'_fr]

theorem State.homeRead_fr (s : State) (ctx : Nat) (pa : Nat) : (State.homeRead s ctx pa).2.2.pending = s.pending ∧ (State.homeRead s ctx pa).2.2.flash = s.flash ∧ (State.homeRead s ctx pa).2.2.coldOpt = s.coldOpt ∧ (State.homeRead s ctx pa).2.2.mem = s.mem ∧ (State.homeRead s ctx pa).2.2.imsic = s.imsic ∧ (State.homeRead s ctx pa).2.2.eng = s.eng ∧ (State.homeRead s ctx pa).2.2.dm = s.dm ∧ (State.homeRead s ctx pa).2.2.fx = s.fx ∧ (State.homeRead s ctx pa).2.2.ctu = s.ctu ∧ (State.homeRead s ctx pa).2.2.links = s.links ∧ (State.homeRead s ctx pa).2.2.aplicS = s.aplicS ∧ (State.homeRead s ctx pa).2.2.aplicN = s.aplicN ∧ (State.homeRead s ctx pa).2.2.credits = s.credits ∧ (State.homeRead s ctx pa).2.2.pkts = s.pkts ∧ (State.homeRead s ctx pa).2.2.resp = s.resp ∧ (State.homeRead s ctx pa).2.2.dmg = s.dmg ∧ (State.homeRead s ctx pa).2.2.out = s.out ∧ (State.homeRead s ctx pa).2.2.free = s.free ∧ (State.homeRead s ctx pa).2.2.fabric = s.fabric ∧ (State.homeRead s ctx pa).2.2.files = s.files := by
  generalize h : (State.homeRead s ctx pa).2.2 = u
  unfold State.homeRead at h
  (try dsimp only at h); (repeat' split at h) <;> rw [← h] <;> simp [kept @State.homePull_fr, kept @State.readPa_fr]

theorem State.homeWrite_fr (s : State) (ctx : Nat) (pa : Nat) (l : List Byte) : (State.homeWrite s ctx pa l).2.pending = s.pending ∧ (State.homeWrite s ctx pa l).2.flash = s.flash ∧ (State.homeWrite s ctx pa l).2.coldOpt = s.coldOpt ∧ (State.homeWrite s ctx pa l).2.imsic = s.imsic ∧ (State.homeWrite s ctx pa l).2.eng = s.eng ∧ (State.homeWrite s ctx pa l).2.dm = s.dm ∧ (State.homeWrite s ctx pa l).2.fx = s.fx ∧ (State.homeWrite s ctx pa l).2.ctu = s.ctu ∧ (State.homeWrite s ctx pa l).2.links = s.links ∧ (State.homeWrite s ctx pa l).2.aplicS = s.aplicS ∧ (State.homeWrite s ctx pa l).2.aplicN = s.aplicN ∧ (State.homeWrite s ctx pa l).2.credits = s.credits ∧ (State.homeWrite s ctx pa l).2.pkts = s.pkts ∧ (State.homeWrite s ctx pa l).2.resp = s.resp ∧ (State.homeWrite s ctx pa l).2.out = s.out ∧ (State.homeWrite s ctx pa l).2.free = s.free ∧ (State.homeWrite s ctx pa l).2.fabric = s.fabric ∧ (State.homeWrite s ctx pa l).2.files = s.files := by
  generalize h : (State.homeWrite s ctx pa l).2 = u
  unfold State.homeWrite at h
  rw [← h]; simp [kept @State.homePull_fr, kept @State.writePa_fr]

theorem State.bopEnd_fr (s : State) (b : BOp) (status : Nat) (addr : Nat) : (State.bopEnd s b status addr).pending = s.pending ∧ (State.bopEnd s b status addr).flash = s.flash ∧ (State.bopEnd s b status addr).coldOpt = s.coldOpt ∧ (State.bopEnd s b status addr).mem = s.mem ∧ (State.bopEnd s b status addr).harts = s.harts ∧ (State.bopEnd s b status addr).mram = s.mram ∧ (State.bopEnd s b status addr).imsic = s.imsic ∧ (State.bopEnd s b status addr).dm = s.dm ∧ (State.bopEnd s b status addr).fx = s.fx ∧ (State.bopEnd s b status addr).ctu = s.ctu ∧ (State.bopEnd s b status addr).links = s.links ∧ (State.bopEnd s b status addr).aplicS = s.aplicS ∧ (State.bopEnd s b status addr).aplicN = s.aplicN ∧ (State.bopEnd s b status addr).credits = s.credits ∧ (State.bopEnd s b status addr).clusters = s.clusters ∧ (State.bopEnd s b status addr).homes = s.homes ∧ (State.bopEnd s b status addr).pkts = s.pkts ∧ (State.bopEnd s b status addr).resp = s.resp ∧ (State.bopEnd s b status addr).regs = s.regs ∧ (State.bopEnd s b status addr).wires = s.wires ∧ (State.bopEnd s b status addr).dmg = s.dmg ∧ (State.bopEnd s b status addr).wq = s.wq ∧ (State.bopEnd s b status addr).net = s.net ∧ (State.bopEnd s b status addr).dbInval = s.dbInval ∧ (State.bopEnd s b status addr).watch = s.watch ∧ (State.bopEnd s b status addr).pkg = s.pkg ∧ (State.bopEnd s b status addr).pmc = s.pmc ∧ (State.bopEnd s b status addr).fwLog = s.fwLog ∧ (State.bopEnd s b status addr).out = s.out ∧ (State.bopEnd s b status addr).free = s.free ∧ (State.bopEnd s b status addr).fabric = s.fabric ∧ (State.bopEnd s b status addr).files = s.files := by
  generalize h : State.bopEnd s b status addr = u
  unfold State.bopEnd at h
  (try dsimp only at h); (repeat' split at h) <;> rw [← h] <;> simp [kept @State.setBop_fr]

theorem State.visitLine_fr (s : State) (b : BOp) (k : Nat) : (State.visitLine s b k).pending = s.pending ∧ (State.visitLine s b k).flash = s.flash ∧ (State.visitLine s b k).coldOpt = s.coldOpt ∧ (State.visitLine s b k).imsic = s.imsic ∧ (State.visitLine s b k).dm = s.dm ∧ (State.visitLine s b k).fx = s.fx ∧ (State.visitLine s b k).ctu = s.ctu ∧ (State.visitLine s b k).links = s.links ∧ (State.visitLine s b k).aplicS = s.aplicS ∧ (State.visitLine s b k).aplicN = s.aplicN ∧ (State.visitLine s b k).credits = s.credits ∧ (State.visitLine s b k).pkts = s.pkts ∧ (State.visitLine s b k).resp = s.resp ∧ (State.visitLine s b k).out = s.out ∧ (State.visitLine s b k).free = s.free ∧ (State.visitLine s b k).fabric = s.fabric ∧ (State.visitLine s b k).files = s.files := by
  generalize h : State.visitLine s b k = u
  unfold State.visitLine at h
  (try dsimp only at h); (repeat' split at h) <;> rw [← h] <;> simp [kept @State.bopEnd_fr, kept @State.homeRead_fr, kept @State.homeWrite_fr, kept @State.pmcStop_fr, kept @State.setBop_fr]

theorem State.bucketStep_fr (s : State) (id : Nat) (kind : BKind → Bool) : (State.bucketStep s id kind).pending = s.pending ∧ (State.bucketStep s id kind).flash = s.flash ∧ (State.bucketStep s id kind).coldOpt = s.coldOpt ∧ (State.bucketStep s id kind).imsic = s.imsic ∧ (State.bucketStep s id kind).dm = s.dm ∧ (State.bucketStep s id kind).fx = s.fx ∧ (State.bucketStep s id kind).ctu = s.ctu ∧ (State.bucketStep s id kind).links = s.links ∧ (State.bucketStep s id kind).aplicS = s.aplicS ∧ (State.bucketStep s id kind).aplicN = s.aplicN ∧ (State.bucketStep s id kind).credits = s.credits ∧ (State.bucketStep s id kind).pkts = s.pkts ∧ (State.bucketStep s id kind).resp = s.resp ∧ (State.bucketStep s id kind).out = s.out ∧ (State.bucketStep s id kind).free = s.free ∧ (State.bucketStep s id kind).fabric = s.fabric ∧ (State.bucketStep s id kind).files = s.files := by
  generalize h : State.bucketStep s id kind = u
  unfold State.bucketStep at h
  (try dsimp only at h); (repeat' split at h) <;> rw [← h] <;> simp [kept @State.visitLine_fr]

theorem State.linkChunk_fr (s : State) (ctx : Nat) (last : Nat) (pa : Nat) : (State.linkChunk s ctx last pa).2.pending = s.pending ∧ (State.linkChunk s ctx last pa).2.flash = s.flash ∧ (State.linkChunk s ctx last pa).2.coldOpt = s.coldOpt ∧ (State.linkChunk s ctx last pa).2.imsic = s.imsic ∧ (State.linkChunk s ctx last pa).2.eng = s.eng ∧ (State.linkChunk s ctx last pa).2.dm = s.dm ∧ (State.linkChunk s ctx last pa).2.fx = s.fx ∧ (State.linkChunk s ctx last pa).2.ctu = s.ctu ∧ (State.linkChunk s ctx last pa).2.links = s.links ∧ (State.linkChunk s ctx last pa).2.aplicS = s.aplicS ∧ (State.linkChunk s ctx last pa).2.aplicN = s.aplicN ∧ (State.linkChunk s ctx last pa).2.credits = s.credits ∧ (State.linkChunk s ctx last pa).2.pkts = s.pkts ∧ (State.linkChunk s ctx last pa).2.resp = s.resp ∧ (State.linkChunk s ctx last pa).2.out = s.out ∧ (State.linkChunk s ctx last pa).2.free = s.free ∧ (State.linkChunk s ctx last pa).2.fabric = s.fabric ∧ (State.linkChunk s ctx last pa).2.files = s.files := by
  generalize h : (State.linkChunk s ctx last pa).2 = u
  unfold State.linkChunk at h
  (try dsimp only at h); (repeat' split at h) <;> rw [← h] <;> simp [kept @State.writePa_fr]

theorem State.fillChunk_fr (s : State) (b : BOp) (anchor : List Byte) (pa : Nat) : (State.fillChunk s b anchor pa).pending = s.pending ∧ (State.fillChunk s b anchor pa).flash = s.flash ∧ (State.fillChunk s b anchor pa).coldOpt = s.coldOpt ∧ (State.fillChunk s b anchor pa).imsic = s.imsic ∧ (State.fillChunk s b anchor pa).dm = s.dm ∧ (State.fillChunk s b anchor pa).fx = s.fx ∧ (State.fillChunk s b anchor pa).ctu = s.ctu ∧ (State.fillChunk s b anchor pa).links = s.links ∧ (State.fillChunk s b anchor pa).aplicS = s.aplicS ∧ (State.fillChunk s b anchor pa).aplicN = s.aplicN ∧ (State.fillChunk s b anchor pa).credits = s.credits ∧ (State.fillChunk s b anchor pa).pkts = s.pkts ∧ (State.fillChunk s b anchor pa).resp = s.resp ∧ (State.fillChunk s b anchor pa).out = s.out ∧ (State.fillChunk s b anchor pa).free = s.free ∧ (State.fillChunk s b anchor pa).fabric = s.fabric ∧ (State.fillChunk s b anchor pa).files = s.files := by
  generalize h : State.fillChunk s b anchor pa = u
  unfold State.fillChunk at h
  rw [← h]; simp [kept @State.bopEnd_fr, kept @State.homeWrite_fr, kept @State.linkChunk_fr, kept @State.updRun_fr]

theorem State.newChunk_fr (s : State) (b : BOp) (anchor : List Byte) : (State.newChunk s b anchor).pending = s.pending ∧ (State.newChunk s b anchor).flash = s.flash ∧ (State.newChunk s b anchor).coldOpt = s.coldOpt ∧ (State.newChunk s b anchor).imsic = s.imsic ∧ (State.newChunk s b anchor).dm = s.dm ∧ (State.newChunk s b anchor).fx = s.fx ∧ (State.newChunk s b anchor).ctu = s.ctu ∧ (State.newChunk s b anchor).links = s.links ∧ (State.newChunk s b anchor).aplicS = s.aplicS ∧ (State.newChunk s b anchor).aplicN = s.aplicN ∧ (State.newChunk s b anchor).credits = s.credits ∧ (State.newChunk s b anchor).pkts = s.pkts ∧ (State.newChunk s b anchor).resp = s.resp ∧ (State.newChunk s b anchor).out = s.out ∧ (State.newChunk s b anchor).free = s.free ∧ (State.newChunk s b anchor).fabric = s.fabric ∧ (State.newChunk s b anchor).files = s.files := by
  generalize h : State.newChunk s b anchor = u
  unfold State.newChunk at h
  (try dsimp only at h); (repeat' split at h) <;> (rw [← h];  (try simp only [Prod.ext_iff] at *); (try casesm* _ ∧ _); (try casesm* @Eq State _ _); (try simp [*, kept @State.allocChunk_fr, kept @State.bopEnd_fr, kept @State.fillChunk_fr]))

theorem State.anchorStep_fr (s : State) (b : BOp) : (State.anchorStep s b).pending = s.pending ∧ (State.anchorStep s b).flash = s.flash ∧ (State.anchorStep s b).coldOpt = s.coldOpt ∧ (State.anchorStep s b).imsic = s.imsic ∧ (State.anchorStep s b).dm = s.dm ∧ (State.anchorStep s b).fx = s.fx ∧ (State.anchorStep s b).ctu = s.ctu ∧ (State.anchorStep s b).links = s.links ∧ (State.anchorStep s b).aplicS = s.aplicS ∧ (State.anchorStep s b).aplicN = s.aplicN ∧ (State.anchorStep s b).credits = s.credits ∧ (State.anchorStep s b).pkts = s.pkts ∧ (State.anchorStep s b).resp = s.resp ∧ (State.anchorStep s b).out = s.out ∧ (State.anchorStep s b).free = s.free ∧ (State.anchorStep s b).fabric = s.fabric ∧ (State.anchorStep s b).files = s.files := by
  generalize h : State.anchorStep s b = u
  unfold State.anchorStep at h
  (try dsimp only at h); (repeat' split at h) <;> rw [← h] <;> simp [kept @State.bopEnd_fr, kept @State.homeRead_fr, kept @State.homeWrite_fr, kept @State.newChunk_fr, kept @State.pmcStop_fr, kept @State.setBop_fr]

theorem State.chunkStep_fr (s : State) (b : BOp) (pa : Nat) (ln : Nat) (search : Bool) : (State.chunkStep s b pa ln search).pending = s.pending ∧ (State.chunkStep s b pa ln search).flash = s.flash ∧ (State.chunkStep s b pa ln search).coldOpt = s.coldOpt ∧ (State.chunkStep s b pa ln search).imsic = s.imsic ∧ (State.chunkStep s b pa ln search).dm = s.dm ∧ (State.chunkStep s b pa ln search).fx = s.fx ∧ (State.chunkStep s b pa ln search).ctu = s.ctu ∧ (State.chunkStep s b pa ln search).links = s.links ∧ (State.chunkStep s b pa ln search).aplicS = s.aplicS ∧ (State.chunkStep s b pa ln search).aplicN = s.aplicN ∧ (State.chunkStep s b pa ln search).credits = s.credits ∧ (State.chunkStep s b pa ln search).pkts = s.pkts ∧ (State.chunkStep s b pa ln search).resp = s.resp ∧ (State.chunkStep s b pa ln search).out = s.out ∧ (State.chunkStep s b pa ln search).free = s.free ∧ (State.chunkStep s b pa ln search).fabric = s.fabric ∧ (State.chunkStep s b pa ln search).files = s.files := by
  generalize h : State.chunkStep s b pa ln search = u
  unfold State.chunkStep at h
  (try dsimp only at h); (repeat' split at h) <;> rw [← h] <;> simp [kept @State.bopEnd_fr, kept @State.homeRead_fr, kept @State.homeWrite_fr, kept @State.newChunk_fr, kept @State.pmcStop_fr, kept @State.setBop_fr]

theorem State.bopError_fr (s : State) (b : BOp) : (State.bopError s b).pending = s.pending ∧ (State.bopError s b).flash = s.flash ∧ (State.bopError s b).coldOpt = s.coldOpt ∧ (State.bopError s b).mem = s.mem ∧ (State.bopError s b).harts = s.harts ∧ (State.bopError s b).mram = s.mram ∧ (State.bopError s b).imsic = s.imsic ∧ (State.bopError s b).dm = s.dm ∧ (State.bopError s b).fx = s.fx ∧ (State.bopError s b).ctu = s.ctu ∧ (State.bopError s b).links = s.links ∧ (State.bopError s b).aplicS = s.aplicS ∧ (State.bopError s b).aplicN = s.aplicN ∧ (State.bopError s b).credits = s.credits ∧ (State.bopError s b).clusters = s.clusters ∧ (State.bopError s b).homes = s.homes ∧ (State.bopError s b).pkts = s.pkts ∧ (State.bopError s b).resp = s.resp ∧ (State.bopError s b).regs = s.regs ∧ (State.bopError s b).wires = s.wires ∧ (State.bopError s b).dmg = s.dmg ∧ (State.bopError s b).wq = s.wq ∧ (State.bopError s b).net = s.net ∧ (State.bopError s b).dbInval = s.dbInval ∧ (State.bopError s b).watch = s.watch ∧ (State.bopError s b).pkg = s.pkg ∧ (State.bopError s b).pmc = s.pmc ∧ (State.bopError s b).fwLog = s.fwLog ∧ (State.bopError s b).out = s.out ∧ (State.bopError s b).free = s.free ∧ (State.bopError s b).fabric = s.fabric ∧ (State.bopError s b).files = s.files := by
  generalize h : State.bopError s b = u
  unfold State.bopError at h
  (try dsimp only at h); (repeat' split at h) <;> rw [← h] <;> simp [kept @State.fixRun_fr, kept @State.setTask_fr]

theorem State.dropBop_fr (s : State) (id : Nat) : (State.dropBop s id).pending = s.pending ∧ (State.dropBop s id).flash = s.flash ∧ (State.dropBop s id).coldOpt = s.coldOpt ∧ (State.dropBop s id).mem = s.mem ∧ (State.dropBop s id).harts = s.harts ∧ (State.dropBop s id).mram = s.mram ∧ (State.dropBop s id).imsic = s.imsic ∧ (State.dropBop s id).dm = s.dm ∧ (State.dropBop s id).fx = s.fx ∧ (State.dropBop s id).ctu = s.ctu ∧ (State.dropBop s id).links = s.links ∧ (State.dropBop s id).aplicS = s.aplicS ∧ (State.dropBop s id).aplicN = s.aplicN ∧ (State.dropBop s id).credits = s.credits ∧ (State.dropBop s id).clusters = s.clusters ∧ (State.dropBop s id).homes = s.homes ∧ (State.dropBop s id).pkts = s.pkts ∧ (State.dropBop s id).resp = s.resp ∧ (State.dropBop s id).regs = s.regs ∧ (State.dropBop s id).wires = s.wires ∧ (State.dropBop s id).dmg = s.dmg ∧ (State.dropBop s id).wq = s.wq ∧ (State.dropBop s id).net = s.net ∧ (State.dropBop s id).dbInval = s.dbInval ∧ (State.dropBop s id).watch = s.watch ∧ (State.dropBop s id).pkg = s.pkg ∧ (State.dropBop s id).pmc = s.pmc ∧ (State.dropBop s id).fwLog = s.fwLog ∧ (State.dropBop s id).out = s.out ∧ (State.dropBop s id).free = s.free ∧ (State.dropBop s id).fabric = s.fabric ∧ (State.dropBop s id).files = s.files := by
  generalize h : State.dropBop s id = u
  unfold State.dropBop at h
  rw [← h]; simp [kept @State.eng'_fr]

end Sys2Proof.Machine
end

