-- ==== Sys2Proof/Laws/Frame/EngScan.lean ====
section
/-! SUPPORT. What the operations of Machine/EngScan.lean leave unchanged. -/

set_option Elab.async false
set_option linter.all false

namespace Sys2Proof.Machine
open Sys2Proof

theorem State.pmcFront_fr (s : State) (f : Nat) (k : Nat) (who : Ident) (n : Nat) : (State.pmcFront s f k who n).pending = s.pending ∧ (State.pmcFront s f k who n).flash = s.flash ∧ (State.pmcFront s f k who n).coldOpt = s.coldOpt ∧ (State.pmcFront s f k who n).mem = s.mem ∧ (State.pmcFront s f k who n).harts = s.harts ∧ (State.pmcFront s f k who n).mram = s.mram ∧ (State.pmcFront s f k who n).imsic = s.imsic ∧ (State.pmcFront s f k who n).eng = s.eng ∧ (State.pmcFront s f k who n).dm = s.dm ∧ (State.pmcFront s f k who n).fx = s.fx ∧ (State.pmcFront s f k who n).ctu = s.ctu ∧ (State.pmcFront s f k who n).links = s.links ∧ (State.pmcFront s f k who n).aplicS = s.aplicS ∧ (State.pmcFront s f k who n).aplicN = s.aplicN ∧ (State.pmcFront s f k who n).credits = s.credits ∧ (State.pmcFront s f k who n).clusters = s.clusters ∧ (State.pmcFront s f k who n).homes = s.homes ∧ (State.pmcFront s f k who n).pkts = s.pkts ∧ (State.pmcFront s f k who n).resp = s.resp ∧ (State.pmcFront s f k who n).wires = s.wires ∧ (State.pmcFront s f k who n).dmg = s.dmg ∧ (State.pmcFront s f k who n).wq = s.wq ∧ (State.pmcFront s f k who n).net = s.net ∧ (State.pmcFront s f k who n).dbInval = s.dbInval ∧ (State.pmcFront s f k who n).watch = s.watch ∧ (State.pmcFront s f k who n).pkg = s.pkg ∧ (State.pmcFront s f k who n).pmc = s.pmc ∧ (State.pmcFront s f k who n).fwLog = s.fwLog ∧ (State.pmcFront s f k who n).out = s.out ∧ (State.pmcFront s f k who n).free = s.free ∧ (State.pmcFront s f k who n).fabric = s.fabric ∧ (State.pmcFront s f k who n).files = s.files := by
  generalize h : State.pmcFront s f k who n = u
  unfold State.pmcFront at h
  rw [← h]; simp [kept @State.pmcAdd_fr]

theorem State.guardRecord_fr (s : State) (front : Nat) (pa : Nat) (ue : Bool) (who : Ident) : (State.guardRecord s front pa ue who).pending = s.pending ∧ (State.guardRecord s front pa ue who).flash = s.flash ∧ (State.guardRecord s front pa ue who).coldOpt = s.coldOpt ∧ (State.guardRecord s front pa ue who).mem = s.mem ∧ (State.guardRecord s front pa ue who).harts = s.harts ∧ (State.guardRecord s front pa ue who).imsic = s.imsic ∧ (State.guardRecord s front pa ue who).eng = s.eng ∧ (State.guardRecord s front pa ue who).dm = s.dm ∧ (State.guardRecord s front pa ue who).fx = s.fx ∧ (State.guardRecord s front pa ue who).ctu = s.ctu ∧ (State.guardRecord s front pa ue who).links = s.links ∧ (State.guardRecord s front pa ue who).aplicS = s.aplicS ∧ (State.guardRecord s front pa ue who).aplicN = s.aplicN ∧ (State.guardRecord s front pa ue who).credits = s.credits ∧ (State.guardRecord s front pa ue who).clusters = s.clusters ∧ (State.guardRecord s front pa ue who).homes = s.homes ∧ (State.guardRecord s front pa ue who).pkts = s.pkts ∧ (State.guardRecord s front pa ue who).resp = s.resp ∧ (State.guardRecord s front pa ue who).dmg = s.dmg ∧ (State.guardRecord s front pa ue who).wq = s.wq ∧ (State.guardRecord s front pa ue who).net = s.net ∧ (State.guardRecord s front pa ue who).dbInval = s.dbInval ∧ (State.guardRecord s front pa ue who).watch = s.watch ∧ (State.guardRecord s front pa ue who).pkg = s.pkg ∧ (State.guardRecord s front pa ue who).fwLog = s.fwLog ∧ (State.guardRecord s front pa ue who).out = s.out ∧ (State.guardRecord s front pa ue who).free = s.free ∧ (State.guardRecord s front pa ue who).fabric = s.fabric ∧ (State.guardRecord s front pa ue who).files = s.files := by
  generalize h : State.guardRecord s front pa ue who = u
  unfold State.guardRecord at h
  rw [← h]; simp [kept @State.recordErr_fr, kept @State.recordMem_fr, kept @State.satF_fr]

@[simp] theorem pageLine_beside (ctx : Nat) (pb : PageBuf) (k : Nat) : KeepsM State.beside (pageLine ctx pb k) := by
  unfold pageLine; (repeat' (first | with_reducible exact keepsM_pure _ _ | with_reducible exact keepsM_throw _ _ | with_reducible exact keepsM_get _ | with_reducible refine keepsM_bind ?_ (fun _ => ?_) | with_reducible refine keepsM_mapM (fun _ => ?_) _ | with_reducible refine keepsM_forM (fun _ => ?_) _ | with_reducible refine keepsM_foldlM (fun _ _ => ?_) _ _ | with_reducible refine doSt_keeps _ (fun _ => ?_) | with_reducible refine askSt_keeps _ (fun _ => ?_) | (simp [kept @State.readLine_fr]; done) | (simp [*, kept @State.readLine_fr]; done) | split | dsimp only))

@[simp] theorem pageLine_apart (ctx : Nat) (pb : PageBuf) (k : Nat) : KeepsM State.apart (pageLine ctx pb k) := by
  unfold pageLine; (repeat' (first | with_reducible exact keepsM_pure _ _ | with_reducible exact keepsM_throw _ _ | with_reducible exact keepsM_get _ | with_reducible refine keepsM_bind ?_ (fun _ => ?_) | with_reducible refine keepsM_mapM (fun _ => ?_) _ | with_reducible refine keepsM_forM (fun _ => ?_) _ | with_reducible refine keepsM_foldlM (fun _ _ => ?_) _ _ | with_reducible refine doSt_keeps _ (fun _ => ?_) | with_reducible refine askSt_keeps _ (fun _ => ?_) | (simp [kept @State.readLine_fr]; done) | (simp [*, kept @State.readLine_fr]; done) | split | dsimp only))

theorem pageLine_fr (ctx : Nat) (pb : PageBuf) (k : Nat) : KeepsM State.eng (pageLine ctx pb k) ∧ KeepsM State.free (pageLine ctx pb k) := by
  refine ⟨?_, ?_⟩ <;> (unfold pageLine; (repeat' (first | with_reducible exact keepsM_pure _ _ | with_reducible exact keepsM_throw _ _ | with_reducible exact keepsM_get _ | with_reducible refine keepsM_bind ?_ (fun _ => ?_) | with_reducible refine keepsM_mapM (fun _ => ?_) _ | with_reducible refine keepsM_forM (fun _ => ?_) _ | with_reducible refine keepsM_foldlM (fun _ _ => ?_) _ _ | with_reducible refine doSt_keeps _ (fun _ => ?_) | with_reducible refine askSt_keeps _ (fun _ => ?_) | (simp [kept @State.readLine_fr]; done) | (simp [*, kept @State.readLine_fr]; done) | split | dsimp only)))

@[simp] theorem pageLines_beside (ctx : Nat) (pb : PageBuf) (ks : List Nat) : KeepsM State.beside (pageLines ctx pb ks) := by
  unfold pageLines; (repeat' (first | with_reducible exact keepsM_pure _ _ | with_reducible exact keepsM_throw _ _ | with_reducible exact keepsM_get _ | with_reducible refine keepsM_bind ?_ (fun _ => ?_) | with_reducible refine keepsM_mapM (fun _ => ?_) _ | with_reducible refine keepsM_forM (fun _ => ?_) _ | with_reducible refine keepsM_foldlM (fun _ _ => ?_) _ _ | with_reducible refine doSt_keeps _ (fun _ => ?_) | with_reducible refine askSt_keeps _ (fun _ => ?_) | (simp [kept @ensure_fr, kept @pageLine_fr]; done) | (simp [*, kept @ensure_fr, kept @pageLine_fr]; done) | split | dsimp only))

@[simp] theorem pageLines_apart (ctx : Nat) (pb : PageBuf) (ks : List Nat) : KeepsM State.apart (pageLines ctx pb ks) := by
  unfold pageLines; (repeat' (first | with_reducible exact keepsM_pure _ _ | with_reducible exact keepsM_throw _ _ | with_reducible exact keepsM_get _ | with_reducible refine keepsM_bind ?_ (fun _ => ?_) | with_reducible refine keepsM_mapM (fun _ => ?_) _ | with_reducible refine keepsM_forM (fun _ => ?_) _ | with_reducible refine keepsM_foldlM (fun _ _ => ?_) _ _ | with_reducible refine doSt_keeps _ (fun _ => ?_) | with_reducible refine askSt_keeps _ (fun _ => ?_) | (simp [kept @ensure_fr, kept @pageLine_fr]; done) | (simp [*, kept @ensure_fr, kept @pageLine_fr]; done) | split | dsimp only))

theorem pageLines_fr (ctx : Nat) (pb : PageBuf) (ks : List Nat) : KeepsM State.eng (pageLines ctx pb ks) ∧ KeepsM State.free (pageLines ctx pb ks) := by
  refine ⟨?_, ?_⟩ <;> (unfold pageLines; (repeat' (first | with_reducible exact keepsM_pure _ _ | with_reducible exact keepsM_throw _ _ | with_reducible exact keepsM_get _ | with_reducible refine keepsM_bind ?_ (fun _ => ?_) | with_reducible refine keepsM_mapM (fun _ => ?_) _ | with_reducible refine keepsM_forM (fun _ => ?_) _ | with_reducible refine keepsM_foldlM (fun _ _ => ?_) _ _ | with_reducible refine doSt_keeps _ (fun _ => ?_) | with_reducible refine askSt_keeps _ (fun _ => ?_) | (simp [kept @ensure_fr, kept @pageLine_fr]; done) | (simp [*, kept @ensure_fr, kept @pageLine_fr]; done) | split | dsimp only)))

@[simp] theorem heapRead_beside (a : Who) (pa : Nat) (va : Nat) (n : Nat) : KeepsM State.beside (heapRead a pa va n) := by
  unfold heapRead; (repeat' (first | with_reducible exact keepsM_pure _ _ | with_reducible exact keepsM_throw _ _ | with_reducible exact keepsM_get _ | with_reducible refine keepsM_bind ?_ (fun _ => ?_) | with_reducible refine keepsM_mapM (fun _ => ?_) _ | with_reducible refine keepsM_forM (fun _ => ?_) _ | with_reducible refine keepsM_foldlM (fun _ _ => ?_) _ _ | with_reducible refine doSt_keeps _ (fun _ => ?_) | with_reducible refine askSt_keeps _ (fun _ => ?_) | (simp [kept @ensure_fr, kept @vreadP_fr]; done) | (simp [*, kept @ensure_fr, kept @vreadP_fr]; done) | split | dsimp only))

@[simp] theorem heapRead_apart (a : Who) (pa : Nat) (va : Nat) (n : Nat) : KeepsM State.apart (heapRead a pa va n) := by
  unfold heapRead; (repeat' (first | with_reducible exact keepsM_pure _ _ | with_reducible exact keepsM_throw _ _ | with_reducible exact keepsM_get _ | with_reducible refine keepsM_bind ?_ (fun _ => ?_) | with_reducible refine keepsM_mapM (fun _ => ?_) _ | with_reducible refine keepsM_forM (fun _ => ?_) _ | with_reducible refine keepsM_foldlM (fun _ _ => ?_) _ _ | with_reducible refine doSt_keeps _ (fun _ => ?_) | with_reducible refine askSt_keeps _ (fun _ => ?_) | (simp [kept @ensure_fr, kept @vreadP_fr]; done) | (simp [*, kept @ensure_fr, kept @vreadP_fr]; done) | split | dsimp only))

theorem heapRead_fr (a : Who) (pa : Nat) (va : Nat) (n : Nat) : KeepsM State.free (heapRead a pa va n) := by
  unfold heapRead; (repeat' (first | with_reducible exact keepsM_pure _ _ | with_reducible exact keepsM_throw _ _ | with_reducible exact keepsM_get _ | with_reducible refine keepsM_bind ?_ (fun _ => ?_) | with_reducible refine keepsM_mapM (fun _ => ?_) _ | with_reducible refine keepsM_forM (fun _ => ?_) _ | with_reducible refine keepsM_foldlM (fun _ _ => ?_) _ _ | with_reducible refine doSt_keeps _ (fun _ => ?_) | with_reducible refine askSt_keeps _ (fun _ => ?_) | (simp [kept @ensure_fr, kept @vreadP_fr]; done) | (simp [*, kept @ensure_fr, kept @vreadP_fr]; done) | split | dsimp only))

@[simp] theorem heapRecs_beside (a : Who) (c : ColD) (pa : Nat) (page : List Byte) (blocks : List Nat) : KeepsM State.beside (heapRecs a c pa page blocks) := by
  unfold heapRecs; (repeat' (first | with_reducible exact keepsM_pure _ _ | with_reducible exact keepsM_throw _ _ | with_reducible exact keepsM_get _ | with_reducible refine keepsM_bind ?_ (fun _ => ?_) | with_reducible refine keepsM_mapM (fun _ => ?_) _ | with_reducible refine keepsM_forM (fun _ => ?_) _ | with_reducible refine keepsM_foldlM (fun _ _ => ?_) _ _ | with_reducible refine doSt_keeps _ (fun _ => ?_) | with_reducible refine askSt_keeps _ (fun _ => ?_) | (simp [kept @heapRead_fr]; done) | (simp [*, kept @heapRead_fr]; done) | split | dsimp only))

@[simp] theorem heapRecs_apart (a : Who) (c : ColD) (pa : Nat) (page : List Byte) (blocks : List Nat) : KeepsM State.apart (heapRecs a c pa page blocks) := by
  unfold heapRecs; (repeat' (first | with_reducible exact keepsM_pure _ _ | with_reducible exact keepsM_throw _ _ | with_reducible exact keepsM_get _ | with_reducible refine keepsM_bind ?_ (fun _ => ?_) | with_reducible refine keepsM_mapM (fun _ => ?_) _ | with_reducible refine keepsM_forM (fun _ => ?_) _ | with_reducible refine keepsM_foldlM (fun _ _ => ?_) _ _ | with_reducible refine doSt_keeps _ (fun _ => ?_) | with_reducible refine askSt_keeps _ (fun _ => ?_) | (simp [kept @heapRead_fr]; done) | (simp [*, kept @heapRead_fr]; done) | split | dsimp only))

theorem heapRecs_fr (a : Who) (c : ColD) (pa : Nat) (page : List Byte) (blocks : List Nat) : KeepsM State.free (heapRecs a c pa page blocks) := by
  unfold heapRecs; (repeat' (first | with_reducible exact keepsM_pure _ _ | with_reducible exact keepsM_throw _ _ | with_reducible exact keepsM_get _ | with_reducible refine keepsM_bind ?_ (fun _ => ?_) | with_reducible refine keepsM_mapM (fun _ => ?_) _ | with_reducible refine keepsM_forM (fun _ => ?_) _ | with_reducible refine keepsM_foldlM (fun _ _ => ?_) _ _ | with_reducible refine doSt_keeps _ (fun _ => ?_) | with_reducible refine askSt_keeps _ (fun _ => ?_) | (simp [kept @heapRead_fr]; done) | (simp [*, kept @heapRead_fr]; done) | split | dsimp only))

@[simp] theorem readBare_beside (a : Who) (c : ColD) (pb : PageBuf) (blocks : List Nat) (f : Nat) (who : Ident) : KeepsM State.beside (readBare a c pb blocks f who) := by
  unfold readBare; (repeat' (first | with_reducible exact keepsM_pure _ _ | with_reducible exact keepsM_throw _ _ | with_reducible exact keepsM_get _ | with_reducible refine keepsM_bind ?_ (fun _ => ?_) | with_reducible refine keepsM_mapM (fun _ => ?_) _ | with_reducible refine keepsM_forM (fun _ => ?_) _ | with_reducible refine keepsM_foldlM (fun _ _ => ?_) _ _ | with_reducible refine doSt_keeps _ (fun _ => ?_) | with_reducible refine askSt_keeps _ (fun _ => ?_) | (simp [kept @State.pmcFront_fr, kept @heapRecs_fr, kept @pageLines_fr]; done) | (simp [*, kept @State.pmcFront_fr, kept @heapRecs_fr, kept @pageLines_fr]; done) | split | dsimp only))

@[simp] theorem readBare_apart (a : Who) (c : ColD) (pb : PageBuf) (blocks : List Nat) (f : Nat) (who : Ident) : KeepsM State.apart (readBare a c pb blocks f who) := by
  unfold readBare; (repeat' (first | with_reducible exact keepsM_pure _ _ | with_reducible exact keepsM_throw _ _ | with_reducible exact keepsM_get _ | with_reducible refine keepsM_bind ?_ (fun _ => ?_) | with_reducible refine keepsM_mapM (fun _ => ?_) _ | with_reducible refine keepsM_forM (fun _ => ?_) _ | with_reducible refine keepsM_foldlM (fun _ _ => ?_) _ _ | with_reducible refine doSt_keeps _ (fun _ => ?_) | with_reducible refine askSt_keeps _ (fun _ => ?_) | (simp [kept @State.pmcFront_fr, kept @heapRecs_fr, kept @pageLines_fr]; done) | (simp [*, kept @State.pmcFront_fr, kept @heapRecs_fr, kept @pageLines_fr]; done) | split | dsimp only))

theorem readBare_fr (a : Who) (c : ColD) (pb : PageBuf) (blocks : List Nat) (f : Nat) (who : Ident) : KeepsM State.free (readBare a c pb blocks f who) := by
  unfold readBare; (repeat' (first | with_reducible exact keepsM_pure _ _ | with_reducible exact keepsM_throw _ _ | with_reducible exact keepsM_get _ | with_reducible refine keepsM_bind ?_ (fun _ => ?_) | with_reducible refine keepsM_mapM (fun _ => ?_) _ | with_reducible refine keepsM_forM (fun _ => ?_) _ | with_reducible refine keepsM_foldlM (fun _ _ => ?_) _ _ | with_reducible refine doSt_keeps _ (fun _ => ?_) | with_reducible refine askSt_keeps _ (fun _ => ?_) | (simp [kept @State.pmcFront_fr, kept @heapRecs_fr, kept @pageLines_fr]; done) | (simp [*, kept @State.pmcFront_fr, kept @heapRecs_fr, kept @pageLines_fr]; done) | split | dsimp only))

theorem State.corrected_fr (s : State) (f : Nat) (pa : Nat) (who : Ident) (raw : List Byte) (fixed : List Byte) : (State.corrected s f pa who raw fixed).pending = s.pending ∧ (State.corrected s f pa who raw fixed).flash = s.flash ∧ (State.corrected s f pa who raw fixed).coldOpt = s.coldOpt ∧ (State.corrected s f pa who raw fixed).mem = s.mem ∧ (State.corrected s f pa who raw fixed).harts = s.harts ∧ (State.corrected s f pa who raw fixed).imsic = s.imsic ∧ (State.corrected s f pa who raw fixed).dm = s.dm ∧ (State.corrected s f pa who raw fixed).fx = s.fx ∧ (State.corrected s f pa who raw fixed).ctu = s.ctu ∧ (State.corrected s f pa who raw fixed).links = s.links ∧ (State.corrected s f pa who raw fixed).aplicS = s.aplicS ∧ (State.corrected s f pa who raw fixed).aplicN = s.aplicN ∧ (State.corrected s f pa who raw fixed).credits = s.credits ∧ (State.corrected s f pa who raw fixed).clusters = s.clusters ∧ (State.corrected s f pa who raw fixed).homes = s.homes ∧ (State.corrected s f pa who raw fixed).pkts = s.pkts ∧ (State.corrected s f pa who raw fixed).resp = s.resp ∧ (State.corrected s f pa who raw fixed).dmg = s.dmg ∧ (State.corrected s f pa who raw fixed).wq = s.wq ∧ (State.corrected s f pa who raw fixed).net = s.net ∧ (State.corrected s f pa who raw fixed).dbInval = s.dbInval ∧ (State.corrected s f pa who raw fixed).watch = s.watch ∧ (State.corrected s f pa who raw fixed).pkg = s.pkg ∧ (State.corrected s f pa who raw fixed).fwLog = s.fwLog ∧ (State.corrected s f pa who raw fixed).out = s.out ∧ (State.corrected s f pa who raw fixed).free = s.free ∧ (State.corrected s f pa who raw fixed).fabric = s.fabric ∧ (State.corrected s f pa who raw fixed).files = s.files := by
  generalize h : State.corrected s f pa who raw fixed = u
  unfold State.corrected at h
  rw [← h]; simp [kept @State.eng'_fr, kept @State.guardRecord_fr, kept @State.pmcFront_fr]

@[simp] theorem readGuarded_beside (a : Who) (c : ColD) (pb : PageBuf) (blocks : List Nat) (f : Nat) (who : Ident) : KeepsM State.beside (readGuarded a c pb blocks f who) := by
  unfold readGuarded; (repeat' (first | with_reducible exact keepsM_pure _ _ | with_reducible exact keepsM_throw _ _ | with_reducible exact keepsM_get _ | with_reducible refine keepsM_bind ?_ (fun _ => ?_) | with_reducible refine keepsM_mapM (fun _ => ?_) _ | with_reducible refine keepsM_forM (fun _ => ?_) _ | with_reducible refine keepsM_foldlM (fun _ _ => ?_) _ _ | with_reducible refine doSt_keeps _ (fun _ => ?_) | with_reducible refine askSt_keeps _ (fun _ => ?_) | (simp [kept @State.corrected_fr, kept @State.guardRecord_fr, kept @State.pmcFront_fr, kept @heapRecs_fr, kept @pageLines_fr]; done) | (simp [*, kept @State.corrected_fr, kept @State.guardRecord_fr, kept @State.pmcFront_fr, kept @heapRecs_fr, kept @pageLines_fr]; done) | split | dsimp only))

@[simp] theorem readGuarded_apart (a : Who) (c : ColD) (pb : PageBuf) (blocks : List Nat) (f : Nat) (who : Ident) : KeepsM State.apart (readGuarded a c pb blocks f who) := by
  unfold readGuarded; (repeat' (first | with_reducible exact keepsM_pure _ _ | with_reducible exact keepsM_throw _ _ | with_reducible exact keepsM_get _ | with_reducible refine keepsM_bind ?_ (fun _ => ?_) | with_reducible refine keepsM_mapM (fun _ => ?_) _ | with_reducible refine keepsM_forM (fun _ => ?_) _ | with_reducible refine keepsM_foldlM (fun _ _ => ?_) _ _ | with_reducible refine doSt_keeps _ (fun _ => ?_) | with_reducible refine askSt_keeps _ (fun _ => ?_) | (simp [kept @State.corrected_fr, kept @State.guardRecord_fr, kept @State.pmcFront_fr, kept @heapRecs_fr, kept @pageLines_fr]; done) | (simp [*, kept @State.corrected_fr, kept @State.guardRecord_fr, kept @State.pmcFront_fr, kept @heapRecs_fr, kept @pageLines_fr]; done) | split | dsimp only))

theorem readGuarded_fr (a : Who) (c : ColD) (pb : PageBuf) (blocks : List Nat) (f : Nat) (who : Ident) : KeepsM State.free (readGuarded a c pb blocks f who) := by
  unfold readGuarded; (repeat' (first | with_reducible exact keepsM_pure _ _ | with_reducible exact keepsM_throw _ _ | with_reducible exact keepsM_get _ | with_reducible refine keepsM_bind ?_ (fun _ => ?_) | with_reducible refine keepsM_mapM (fun _ => ?_) _ | with_reducible refine keepsM_forM (fun _ => ?_) _ | with_reducible refine keepsM_foldlM (fun _ _ => ?_) _ _ | with_reducible refine doSt_keeps _ (fun _ => ?_) | with_reducible refine askSt_keeps _ (fun _ => ?_) | (simp [kept @State.corrected_fr, kept @State.guardRecord_fr, kept @State.pmcFront_fr, kept @heapRecs_fr, kept @pageLines_fr]; done) | (simp [*, kept @State.corrected_fr, kept @State.guardRecord_fr, kept @State.pmcFront_fr, kept @heapRecs_fr, kept @pageLines_fr]; done) | split | dsimp only))

@[simp] theorem readPage_beside (a : Who) (c : ColD) (pb : PageBuf) (blocks : List Nat) : KeepsM State.beside (readPage a c pb blocks) := by
  unfold readPage; (repeat' (first | with_reducible exact keepsM_pure _ _ | with_reducible exact keepsM_throw _ _ | with_reducible exact keepsM_get _ | with_reducible refine keepsM_bind ?_ (fun _ => ?_) | with_reducible refine keepsM_mapM (fun _ => ?_) _ | with_reducible refine keepsM_forM (fun _ => ?_) _ | with_reducible refine keepsM_foldlM (fun _ _ => ?_) _ _ | with_reducible refine doSt_keeps _ (fun _ => ?_) | with_reducible refine askSt_keeps _ (fun _ => ?_) | (simp [kept @State.pmcFront_fr, kept @ensure_fr, kept @readBare_fr, kept @readGuarded_fr]; done) | (simp [*, kept @State.pmcFront_fr, kept @ensure_fr, kept @readBare_fr, kept @readGuarded_fr]; done) | split | dsimp only))

@[simp] theorem readPage_apart (a : Who) (c : ColD) (pb : PageBuf) (blocks : List Nat) : KeepsM State.apart (readPage a c pb blocks) := by
  unfold readPage; (repeat' (first | with_reducible exact keepsM_pure _ _ | with_reducible exact keepsM_throw _ _ | with_reducible exact keepsM_get _ | with_reducible refine keepsM_bind ?_ (fun _ => ?_) | with_reducible refine keepsM_mapM (fun _ => ?_) _ | with_reducible refine keepsM_forM (fun _ => ?_) _ | with_reducible refine keepsM_foldlM (fun _ _ => ?_) _ _ | with_reducible refine doSt_keeps _ (fun _ => ?_) | with_reducible refine askSt_keeps _ (fun _ => ?_) | (simp [kept @State.pmcFront_fr, kept @ensure_fr, kept @readBare_fr, kept @readGuarded_fr]; done) | (simp [*, kept @State.pmcFront_fr, kept @ensure_fr, kept @readBare_fr, kept @readGuarded_fr]; done) | split | dsimp only))

theorem readPage_fr (a : Who) (c : ColD) (pb : PageBuf) (blocks : List Nat) : KeepsM State.free (readPage a c pb blocks) := by
  unfold readPage; (repeat' (first | with_reducible exact keepsM_pure _ _ | with_reducible exact keepsM_throw _ _ | with_reducible exact keepsM_get _ | with_reducible refine keepsM_bind ?_ (fun _ => ?_) | with_reducible refine keepsM_mapM (fun _ => ?_) _ | with_reducible refine keepsM_forM (fun _ => ?_) _ | with_reducible refine keepsM_foldlM (fun _ _ => ?_) _ _ | with_reducible refine doSt_keeps _ (fun _ => ?_) | with_reducible refine askSt_keeps _ (fun _ => ?_) | (simp [kept @State.pmcFront_fr, kept @ensure_fr, kept @readBare_fr, kept @readGuarded_fr]; done) | (simp [*, kept @State.pmcFront_fr, kept @ensure_fr, kept @readBare_fr, kept @readGuarded_fr]; done) | split | dsimp only))

@[simp] theorem sendSurvivors_beside (a : Who) (n : Nat) (c : OpCtx) (t : Task) (k : Nat) (blk : Nat) (front : Nat) (cd : ColD) (rows : List (Bool × Nat)) (bits : List Bool) (chain : Bool) : KeepsM State.beside (sendSurvivors a n c t k blk front cd rows bits chain) := by
  unfold sendSurvivors; (repeat' (first | with_reducible exact keepsM_pure _ _ | with_reducible exact keepsM_throw _ _ | with_reducible exact keepsM_get _ | with_reducible refine keepsM_bind ?_ (fun _ => ?_) | with_reducible refine keepsM_mapM (fun _ => ?_) _ | with_reducible refine keepsM_forM (fun _ => ?_) _ | with_reducible refine keepsM_foldlM (fun _ _ => ?_) _ _ | with_reducible refine doSt_keeps _ (fun _ => ?_) | with_reducible refine askSt_keeps _ (fun _ => ?_) | (simp [kept @State.eng'_fr, kept @State.pmcFront_fr, kept @cellOf_fr]; done) | (simp [*, kept @State.eng'_fr, kept @State.pmcFront_fr, kept @cellOf_fr]; done) | split | dsimp only))

@[simp] theorem sendSurvivors_apart (a : Who) (n : Nat) (c : OpCtx) (t : Task) (k : Nat) (blk : Nat) (front : Nat) (cd : ColD) (rows : List (Bool × Nat)) (bits : List Bool) (chain : Bool) : KeepsM State.apart (sendSurvivors a n c t k blk front cd rows bits chain) := by
  unfold sendSurvivors; (repeat' (first | with_reducible exact keepsM_pure _ _ | with_reducible exact keepsM_throw _ _ | with_reducible exact keepsM_get _ | with_reducible refine keepsM_bind ?_ (fun _ => ?_) | with_reducible refine keepsM_mapM (fun _ => ?_) _ | with_reducible refine keepsM_forM (fun _ => ?_) _ | with_reducible refine keepsM_foldlM (fun _ _ => ?_) _ _ | with_reducible refine doSt_keeps _ (fun _ => ?_) | with_reducible refine askSt_keeps _ (fun _ => ?_) | (simp [kept @State.eng'_fr, kept @State.pmcFront_fr, kept @cellOf_fr]; done) | (simp [*, kept @State.eng'_fr, kept @State.pmcFront_fr, kept @cellOf_fr]; done) | split | dsimp only))

theorem sendSurvivors_fr (a : Who) (n : Nat) (c : OpCtx) (t : Task) (k : Nat) (blk : Nat) (front : Nat) (cd : ColD) (rows : List (Bool × Nat)) (bits : List Bool) (chain : Bool) : KeepsM State.free (sendSurvivors a n c t k blk front cd rows bits chain) := by
  unfold sendSurvivors; (repeat' (first | with_reducible exact keepsM_pure _ _ | with_reducible exact keepsM_throw _ _ | with_reducible exact keepsM_get _ | with_reducible refine keepsM_bind ?_ (fun _ => ?_) | with_reducible refine keepsM_mapM (fun _ => ?_) _ | with_reducible refine keepsM_forM (fun _ => ?_) _ | with_reducible refine keepsM_foldlM (fun _ _ => ?_) _ _ | with_reducible refine doSt_keeps _ (fun _ => ?_) | with_reducible refine askSt_keeps _ (fun _ => ?_) | (simp [kept @State.eng'_fr, kept @State.pmcFront_fr, kept @cellOf_fr]; done) | (simp [*, kept @State.eng'_fr, kept @State.pmcFront_fr, kept @cellOf_fr]; done) | split | dsimp only))

@[simp] theorem openPage_beside (n : Nat) (t : Task) (oper : Nat) (k : Nat) (page : Nat) (d : ColD) : KeepsM State.beside (openPage n t oper k page d) := by
  unfold openPage; (repeat' (first | with_reducible exact keepsM_pure _ _ | with_reducible exact keepsM_throw _ _ | with_reducible exact keepsM_get _ | with_reducible refine keepsM_bind ?_ (fun _ => ?_) | with_reducible refine keepsM_mapM (fun _ => ?_) _ | with_reducible refine keepsM_forM (fun _ => ?_) _ | with_reducible refine keepsM_foldlM (fun _ _ => ?_) _ _ | with_reducible refine doSt_keeps _ (fun _ => ?_) | with_reducible refine askSt_keeps _ (fun _ => ?_) | (simp [kept @State.eng'_fr, kept @xlate_fr]; done) | (simp [*, kept @State.eng'_fr, kept @xlate_fr]; done) | split | dsimp only))

@[simp] theorem openPage_apart (n : Nat) (t : Task) (oper : Nat) (k : Nat) (page : Nat) (d : ColD) : KeepsM State.apart (openPage n t oper k page d) := by
  unfold openPage; (repeat' (first | with_reducible exact keepsM_pure _ _ | with_reducible exact keepsM_throw _ _ | with_reducible exact keepsM_get _ | with_reducible refine keepsM_bind ?_ (fun _ => ?_) | with_reducible refine keepsM_mapM (fun _ => ?_) _ | with_reducible refine keepsM_forM (fun _ => ?_) _ | with_reducible refine keepsM_foldlM (fun _ _ => ?_) _ _ | with_reducible refine doSt_keeps _ (fun _ => ?_) | with_reducible refine askSt_keeps _ (fun _ => ?_) | (simp [kept @State.eng'_fr, kept @xlate_fr]; done) | (simp [*, kept @State.eng'_fr, kept @xlate_fr]; done) | split | dsimp only))

theorem openPage_fr (n : Nat) (t : Task) (oper : Nat) (k : Nat) (page : Nat) (d : ColD) : KeepsM State.mram (openPage n t oper k page d) ∧ KeepsM State.wires (openPage n t oper k page d) ∧ KeepsM State.wq (openPage n t oper k page d) ∧ KeepsM State.pkg (openPage n t oper k page d) ∧ KeepsM State.pmc (openPage n t oper k page d) ∧ KeepsM State.fwLog (openPage n t oper k page d) ∧ KeepsM State.free (openPage n t oper k page d) := by
  refine ⟨?_, ?_, ?_, ?_, ?_, ?_, ?_⟩ <;> (unfold openPage; (repeat' (first | with_reducible exact keepsM_pure _ _ | with_reducible exact keepsM_throw _ _ | with_reducible exact keepsM_get _ | with_reducible refine keepsM_bind ?_ (fun _ => ?_) | with_reducible refine keepsM_mapM (fun _ => ?_) _ | with_reducible refine keepsM_forM (fun _ => ?_) _ | with_reducible refine keepsM_foldlM (fun _ _ => ?_) _ _ | with_reducible refine doSt_keeps _ (fun _ => ?_) | with_reducible refine askSt_keeps _ (fun _ => ?_) | (simp [kept @State.eng'_fr, kept @xlate_fr]; done) | (simp [*, kept @State.eng'_fr, kept @xlate_fr]; done) | split | dsimp only)))

@[simp] theorem startScan_beside (n : Nat) (c : OpCtx) (t : Task) : KeepsM State.beside (startScan n c t) := by
  unfold startScan; (repeat' (first | with_reducible exact keepsM_pure _ _ | with_reducible exact keepsM_throw _ _ | with_reducible exact keepsM_get _ | with_reducible refine keepsM_bind ?_ (fun _ => ?_) | with_reducible refine keepsM_mapM (fun _ => ?_) _ | with_reducible refine keepsM_forM (fun _ => ?_) _ | with_reducible refine keepsM_foldlM (fun _ _ => ?_) _ _ | with_reducible refine doSt_keeps _ (fun _ => ?_) | with_reducible refine askSt_keeps _ (fun _ => ?_) | (simp [kept @openPage_fr, kept @updTask_fr]; done) | (simp [*, kept @openPage_fr, kept @updTask_fr]; done) | split | dsimp only))

@[simp] theorem startScan_apart (n : Nat) (c : OpCtx) (t : Task) : KeepsM State.apart (startScan n c t) := by
  unfold startScan; (repeat' (first | with_reducible exact keepsM_pure _ _ | with_reducible exact keepsM_throw _ _ | with_reducible exact keepsM_get _ | with_reducible refine keepsM_bind ?_ (fun _ => ?_) | with_reducible refine keepsM_mapM (fun _ => ?_) _ | with_reducible refine keepsM_forM (fun _ => ?_) _ | with_reducible refine keepsM_foldlM (fun _ _ => ?_) _ _ | with_reducible refine doSt_keeps _ (fun _ => ?_) | with_reducible refine askSt_keeps _ (fun _ => ?_) | (simp [kept @openPage_fr, kept @updTask_fr]; done) | (simp [*, kept @openPage_fr, kept @updTask_fr]; done) | split | dsimp only))

theorem startScan_fr (n : Nat) (c : OpCtx) (t : Task) : KeepsM State.mram (startScan n c t) ∧ KeepsM State.wires (startScan n c t) ∧ KeepsM State.wq (startScan n c t) ∧ KeepsM State.pkg (startScan n c t) ∧ KeepsM State.pmc (startScan n c t) ∧ KeepsM State.fwLog (startScan n c t) ∧ KeepsM State.free (startScan n c t) := by
  refine ⟨?_, ?_, ?_, ?_, ?_, ?_, ?_⟩ <;> (unfold startScan; (repeat' (first | with_reducible exact keepsM_pure _ _ | with_reducible exact keepsM_throw _ _ | with_reducible exact keepsM_get _ | with_reducible refine keepsM_bind ?_ (fun _ => ?_) | with_reducible refine keepsM_mapM (fun _ => ?_) _ | with_reducible refine keepsM_forM (fun _ => ?_) _ | with_reducible refine keepsM_foldlM (fun _ _ => ?_) _ _ | with_reducible refine doSt_keeps _ (fun _ => ?_) | with_reducible refine askSt_keeps _ (fun _ => ?_) | (simp [kept @openPage_fr, kept @updTask_fr]; done) | (simp [*, kept @openPage_fr, kept @updTask_fr]; done) | split | dsimp only)))

theorem State.setPage_fr (s : State) (b : PageBuf) : (State.setPage s b).pending = s.pending ∧ (State.setPage s b).flash = s.flash ∧ (State.setPage s b).coldOpt = s.coldOpt ∧ (State.setPage s b).mem = s.mem ∧ (State.setPage s b).harts = s.harts ∧ (State.setPage s b).mram = s.mram ∧ (State.setPage s b).imsic = s.imsic ∧ (State.setPage s b).dm = s.dm ∧ (State.setPage s b).fx = s.fx ∧ (State.setPage s b).ctu = s.ctu ∧ (State.setPage s b).links = s.links ∧ (State.setPage s b).aplicS = s.aplicS ∧ (State.setPage s b).aplicN = s.aplicN ∧ (State.setPage s b).credits = s.credits ∧ (State.setPage s b).clusters = s.clusters ∧ (State.setPage s b).homes = s.homes ∧ (State.setPage s b).pkts = s.pkts ∧ (State.setPage s b).resp = s.resp ∧ (State.setPage s b).regs = s.regs ∧ (State.setPage s b).wires = s.wires ∧ (State.setPage s b).dmg = s.dmg ∧ (State.setPage s b).wq = s.wq ∧ (State.setPage s b).net = s.net ∧ (State.setPage s b).dbInval = s.dbInval ∧ (State.setPage s b).watch = s.watch ∧ (State.setPage s b).pkg = s.pkg ∧ (State.setPage s b).pmc = s.pmc ∧ (State.setPage s b).fwLog = s.fwLog ∧ (State.setPage s b).out = s.out ∧ (State.setPage s b).free = s.free ∧ (State.setPage s b).fabric = s.fabric ∧ (State.setPage s b).files = s.files := by
  generalize h : State.setPage s b = u
  unfold State.setPage at h
  rw [← h]; simp [kept @State.eng'_fr]

theorem State.takePage_fr (s : State) (b : PageBuf) : (State.takePage s b).pending = s.pending ∧ (State.takePage s b).flash = s.flash ∧ (State.takePage s b).coldOpt = s.coldOpt ∧ (State.takePage s b).mem = s.mem ∧ (State.takePage s b).harts = s.harts ∧ (State.takePage s b).mram = s.mram ∧ (State.takePage s b).imsic = s.imsic ∧ (State.takePage s b).dm = s.dm ∧ (State.takePage s b).fx = s.fx ∧ (State.takePage s b).ctu = s.ctu ∧ (State.takePage s b).links = s.links ∧ (State.takePage s b).aplicS = s.aplicS ∧ (State.takePage s b).aplicN = s.aplicN ∧ (State.takePage s b).credits = s.credits ∧ (State.takePage s b).clusters = s.clusters ∧ (State.takePage s b).homes = s.homes ∧ (State.takePage s b).pkts = s.pkts ∧ (State.takePage s b).resp = s.resp ∧ (State.takePage s b).regs = s.regs ∧ (State.takePage s b).wires = s.wires ∧ (State.takePage s b).dmg = s.dmg ∧ (State.takePage s b).wq = s.wq ∧ (State.takePage s b).net = s.net ∧ (State.takePage s b).dbInval = s.dbInval ∧ (State.takePage s b).watch = s.watch ∧ (State.takePage s b).pkg = s.pkg ∧ (State.takePage s b).pmc = s.pmc ∧ (State.takePage s b).fwLog = s.fwLog ∧ (State.takePage s b).out = s.out ∧ (State.takePage s b).free = s.free ∧ (State.takePage s b).fabric = s.fabric ∧ (State.takePage s b).files = s.files := by
  generalize h : State.takePage s b = u
  unfold State.takePage at h
  (try dsimp only at h); (repeat' split at h) <;> rw [← h] <;> simp [kept @State.setPage_fr]

@[simp] theorem releasePage_beside (n : Nat) (c : OpCtx) (t : Task) (k : Nat) (page : Nat) (pb : PageBuf) (d : ColD) : KeepsM State.beside (releasePage n c t k page pb d) := by
  unfold releasePage; (repeat' (first | with_reducible exact keepsM_pure _ _ | with_reducible exact keepsM_throw _ _ | with_reducible exact keepsM_get _ | with_reducible refine keepsM_bind ?_ (fun _ => ?_) | with_reducible refine keepsM_mapM (fun _ => ?_) _ | with_reducible refine keepsM_forM (fun _ => ?_) _ | with_reducible refine keepsM_foldlM (fun _ _ => ?_) _ _ | with_reducible refine doSt_keeps _ (fun _ => ?_) | with_reducible refine askSt_keeps _ (fun _ => ?_) | (simp [kept @State.setPage_fr, kept @readPage_fr, kept @sendSurvivors_fr]; done) | (simp [*, kept @State.setPage_fr, kept @readPage_fr, kept @sendSurvivors_fr]; done) | split | dsimp only))

@[simp] theorem releasePage_apart (n : Nat) (c : OpCtx) (t : Task) (k : Nat) (page : Nat) (pb : PageBuf) (d : ColD) : KeepsM State.apart (releasePage n c t k page pb d) := by
  unfold releasePage; (repeat' (first | with_reducible exact keepsM_pure _ _ | with_reducible exact keepsM_throw _ _ | with_reducible exact keepsM_get _ | with_reducible refine keepsM_bind ?_ (fun _ => ?_) | with_reducible refine keepsM_mapM (fun _ => ?_) _ | with_reducible refine keepsM_forM (fun _ => ?_) _ | with_reducible refine keepsM_foldlM (fun _ _ => ?_) _ _ | with_reducible refine doSt_keeps _ (fun _ => ?_) | with_reducible refine askSt_keeps _ (fun _ => ?_) | (simp [kept @State.setPage_fr, kept @readPage_fr, kept @sendSurvivors_fr]; done) | (simp [*, kept @State.setPage_fr, kept @readPage_fr, kept @sendSurvivors_fr]; done) | split | dsimp only))

theorem releasePage_fr (n : Nat) (c : OpCtx) (t : Task) (k : Nat) (page : Nat) (pb : PageBuf) (d : ColD) : KeepsM State.free (releasePage n c t k page pb d) := by
  unfold releasePage; (repeat' (first | with_reducible exact keepsM_pure _ _ | with_reducible exact keepsM_throw _ _ | with_reducible exact keepsM_get _ | with_reducible refine keepsM_bind ?_ (fun _ => ?_) | with_reducible refine keepsM_mapM (fun _ => ?_) _ | with_reducible refine keepsM_forM (fun _ => ?_) _ | with_reducible refine keepsM_foldlM (fun _ _ => ?_) _ _ | with_reducible refine doSt_keeps _ (fun _ => ?_) | with_reducible refine askSt_keeps _ (fun _ => ?_) | (simp [kept @State.setPage_fr, kept @readPage_fr, kept @sendSurvivors_fr]; done) | (simp [*, kept @State.setPage_fr, kept @readPage_fr, kept @sendSurvivors_fr]; done) | split | dsimp only))

@[simp] theorem chainStep_beside (n : Nat) (c : OpCtx) (t : Task) (m : ChainMsg) : KeepsM State.beside (chainStep n c t m) := by
  unfold chainStep; (repeat' (first | with_reducible exact keepsM_pure _ _ | with_reducible exact keepsM_throw _ _ | with_reducible exact keepsM_get _ | with_reducible refine keepsM_bind ?_ (fun _ => ?_) | with_reducible refine keepsM_mapM (fun _ => ?_) _ | with_reducible refine keepsM_forM (fun _ => ?_) _ | with_reducible refine keepsM_foldlM (fun _ _ => ?_) _ _ | with_reducible refine doSt_keeps _ (fun _ => ?_) | with_reducible refine askSt_keeps _ (fun _ => ?_) | (simp [kept @State.eng'_fr, kept @State.takePage_fr, kept @sendSurvivors_fr]; done) | (simp [*, kept @State.eng'_fr, kept @State.takePage_fr, kept @sendSurvivors_fr]; done) | split | dsimp only))

@[simp] theorem chainStep_apart (n : Nat) (c : OpCtx) (t : Task) (m : ChainMsg) : KeepsM State.apart (chainStep n c t m) := by
  unfold chainStep; (repeat' (first | with_reducible exact keepsM_pure _ _ | with_reducible exact keepsM_throw _ _ | with_reducible exact keepsM_get _ | with_reducible refine keepsM_bind ?_ (fun _ => ?_) | with_reducible refine keepsM_mapM (fun _ => ?_) _ | with_reducible refine keepsM_forM (fun _ => ?_) _ | with_reducible refine keepsM_foldlM (fun _ _ => ?_) _ _ | with_reducible refine doSt_keeps _ (fun _ => ?_) | with_reducible refine askSt_keeps _ (fun _ => ?_) | (simp [kept @State.eng'_fr, kept @State.takePage_fr, kept @sendSurvivors_fr]; done) | (simp [*, kept @State.eng'_fr, kept @State.takePage_fr, kept @sendSurvivors_fr]; done) | split | dsimp only))

theorem chainStep_fr (n : Nat) (c : OpCtx) (t : Task) (m : ChainMsg) : KeepsM State.free (chainStep n c t m) := by
  unfold chainStep; (repeat' (first | with_reducible exact keepsM_pure _ _ | with_reducible exact keepsM_throw _ _ | with_reducible exact keepsM_get _ | with_reducible refine keepsM_bind ?_ (fun _ => ?_) | with_reducible refine keepsM_mapM (fun _ => ?_) _ | with_reducible refine keepsM_forM (fun _ => ?_) _ | with_reducible refine keepsM_foldlM (fun _ _ => ?_) _ _ | with_reducible refine doSt_keeps _ (fun _ => ?_) | with_reducible refine askSt_keeps _ (fun _ => ?_) | (simp [kept @State.eng'_fr, kept @State.takePage_fr, kept @sendSurvivors_fr]; done) | (simp [*, kept @State.eng'_fr, kept @State.takePage_fr, kept @sendSurvivors_fr]; done) | split | dsimp only))

theorem State.tagBatch_fr (s : State) (ctx : Nat) : (State.tagBatch s ctx).2.pending = s.pending ∧ (State.tagBatch s ctx).2.flash = s.flash ∧ (State.tagBatch s ctx).2.coldOpt = s.coldOpt ∧ (State.tagBatch s ctx).2.mem = s.mem ∧ (State.tagBatch s ctx).2.harts = s.harts ∧ (State.tagBatch s ctx).2.mram = s.mram ∧ (State.tagBatch s ctx).2.imsic = s.imsic ∧ (State.tagBatch s ctx).2.eng = s.eng ∧ (State.tagBatch s ctx).2.dm = s.dm ∧ (State.tagBatch s ctx).2.fx = s.fx ∧ (State.tagBatch s ctx).2.ctu = s.ctu ∧ (State.tagBatch s ctx).2.links = s.links ∧ (State.tagBatch s ctx).2.aplicS = s.aplicS ∧ (State.tagBatch s ctx).2.aplicN = s.aplicN ∧ (State.tagBatch s ctx).2.credits = s.credits ∧ (State.tagBatch s ctx).2.clusters = s.clusters ∧ (State.tagBatch s ctx).2.homes = s.homes ∧ (State.tagBatch s ctx).2.pkts = s.pkts ∧ (State.tagBatch s ctx).2.resp = s.resp ∧ (State.tagBatch s ctx).2.regs = s.regs ∧ (State.tagBatch s ctx).2.wires = s.wires ∧ (State.tagBatch s ctx).2.dmg = s.dmg ∧ (State.tagBatch s ctx).2.wq = s.wq ∧ (State.tagBatch s ctx).2.net = s.net ∧ (State.tagBatch s ctx).2.dbInval = s.dbInval ∧ (State.tagBatch s ctx).2.watch = s.watch ∧ (State.tagBatch s ctx).2.pkg = s.pkg ∧ (State.tagBatch s ctx).2.pmc = s.pmc ∧ (State.tagBatch s ctx).2.fwLog = s.fwLog ∧ (State.tagBatch s ctx).2.out = s.out ∧ (State.tagBatch s ctx).2.fabric = s.fabric ∧ (State.tagBatch s ctx).2.files = s.files := by
  generalize h : (State.tagBatch s ctx).2 = u
  unfold State.tagBatch at h
  (try dsimp only at h); (repeat' split at h) <;> rw [← h] <;> simp [kept @State.draw_fr]

@[simp] theorem release_beside (n : Nat) (first : Nat) : KeepsM State.beside (release n first) := by
  unfold release; (repeat' (first | with_reducible exact keepsM_pure _ _ | with_reducible exact keepsM_throw _ _ | with_reducible exact keepsM_get _ | with_reducible refine keepsM_bind ?_ (fun _ => ?_) | with_reducible refine keepsM_mapM (fun _ => ?_) _ | with_reducible refine keepsM_forM (fun _ => ?_) _ | with_reducible refine keepsM_foldlM (fun _ _ => ?_) _ _ | with_reducible refine doSt_keeps _ (fun _ => ?_) | with_reducible refine askSt_keeps _ (fun _ => ?_) | (simp [kept @State.pmcSlc_fr, kept @State.setTask_fr, kept @State.tagBatch_fr, kept @cbStore_fr]; done) | (simp [*, kept @State.pmcSlc_fr, kept @State.setTask_fr, kept @State.tagBatch_fr, kept @cbStore_fr]; done) | split | dsimp only))

@[simp] theorem release_apart (n : Nat) (first : Nat) : KeepsM State.apart (release n first) := by
  unfold release; (repeat' (first | with_reducible exact keepsM_pure _ _ | with_reducible exact keepsM_throw _ _ | with_reducible exact keepsM_get _ | with_reducible refine keepsM_bind ?_ (fun _ => ?_) | with_reducible refine keepsM_mapM (fun _ => ?_) _ | with_reducible refine keepsM_forM (fun _ => ?_) _ | with_reducible refine keepsM_foldlM (fun _ _ => ?_) _ _ | with_reducible refine doSt_keeps _ (fun _ => ?_) | with_reducible refine askSt_keeps _ (fun _ => ?_) | (simp [kept @State.pmcSlc_fr, kept @State.setTask_fr, kept @State.tagBatch_fr, kept @cbStore_fr]; done) | (simp [*, kept @State.pmcSlc_fr, kept @State.setTask_fr, kept @State.tagBatch_fr, kept @cbStore_fr]; done) | split | dsimp only))

theorem release_fr (n : Nat) (first : Nat) : KeepsM State.wires (release n first) ∧ KeepsM State.wq (release n first) ∧ KeepsM State.pkg (release n first) ∧ KeepsM State.fwLog (release n first) := by
  refine ⟨?_, ?_, ?_, ?_⟩ <;> (unfold release; (repeat' (first | with_reducible exact keepsM_pure _ _ | with_reducible exact keepsM_throw _ _ | with_reducible exact keepsM_get _ | with_reducible refine keepsM_bind ?_ (fun _ => ?_) | with_reducible refine keepsM_mapM (fun _ => ?_) _ | with_reducible refine keepsM_forM (fun _ => ?_) _ | with_reducible refine keepsM_foldlM (fun _ _ => ?_) _ _ | with_reducible refine doSt_keeps _ (fun _ => ?_) | with_reducible refine askSt_keeps _ (fun _ => ?_) | (simp [kept @State.pmcSlc_fr, kept @State.setTask_fr, kept @State.tagBatch_fr, kept @cbStore_fr]; done) | (simp [*, kept @State.pmcSlc_fr, kept @State.setTask_fr, kept @State.tagBatch_fr, kept @cbStore_fr]; done) | split | dsimp only)))

@[simp] theorem pack_beside (n : Nat) (p : PipeI) (t : Task) (b : Batch) : KeepsM State.beside (pack n p t b) := by
  unfold pack; (repeat' (first | with_reducible exact keepsM_pure _ _ | with_reducible exact keepsM_throw _ _ | with_reducible exact keepsM_get _ | with_reducible refine keepsM_bind ?_ (fun _ => ?_) | with_reducible refine keepsM_mapM (fun _ => ?_) _ | with_reducible refine keepsM_forM (fun _ => ?_) _ | with_reducible refine keepsM_foldlM (fun _ _ => ?_) _ _ | with_reducible refine doSt_keeps _ (fun _ => ?_) | with_reducible refine askSt_keeps _ (fun _ => ?_) | (simp [kept @State.pmcSlc_fr, kept @State.setTask_fr, kept @cbStore_fr]; done) | (simp [*, kept @State.pmcSlc_fr, kept @State.setTask_fr, kept @cbStore_fr]; done) | split | dsimp only))

@[simp] theorem pack_apart (n : Nat) (p : PipeI) (t : Task) (b : Batch) : KeepsM State.apart (pack n p t b) := by
  unfold pack; (repeat' (first | with_reducible exact keepsM_pure _ _ | with_reducible exact keepsM_throw _ _ | with_reducible exact keepsM_get _ | with_reducible refine keepsM_bind ?_ (fun _ => ?_) | with_reducible refine keepsM_mapM (fun _ => ?_) _ | with_reducible refine keepsM_forM (fun _ => ?_) _ | with_reducible refine keepsM_foldlM (fun _ _ => ?_) _ _ | with_reducible refine doSt_keeps _ (fun _ => ?_) | with_reducible refine askSt_keeps _ (fun _ => ?_) | (simp [kept @State.pmcSlc_fr, kept @State.setTask_fr, kept @cbStore_fr]; done) | (simp [*, kept @State.pmcSlc_fr, kept @State.setTask_fr, kept @cbStore_fr]; done) | split | dsimp only))

theorem pack_fr (n : Nat) (p : PipeI) (t : Task) (b : Batch) : KeepsM State.wires (pack n p t b) ∧ KeepsM State.wq (pack n p t b) ∧ KeepsM State.pkg (pack n p t b) ∧ KeepsM State.fwLog (pack n p t b) := by
  refine ⟨?_, ?_, ?_, ?_⟩ <;> (unfold pack; (repeat' (first | with_reducible exact keepsM_pure _ _ | with_reducible exact keepsM_throw _ _ | with_reducible exact keepsM_get _ | with_reducible refine keepsM_bind ?_ (fun _ => ?_) | with_reducible refine keepsM_mapM (fun _ => ?_) _ | with_reducible refine keepsM_forM (fun _ => ?_) _ | with_reducible refine keepsM_foldlM (fun _ _ => ?_) _ _ | with_reducible refine doSt_keeps _ (fun _ => ?_) | with_reducible refine askSt_keeps _ (fun _ => ?_) | (simp [kept @State.pmcSlc_fr, kept @State.setTask_fr, kept @cbStore_fr]; done) | (simp [*, kept @State.pmcSlc_fr, kept @State.setTask_fr, kept @cbStore_fr]; done) | split | dsimp only)))

@[simp] theorem batchOver_beside (n : Nat) (first : Nat) (t : Task) : KeepsM State.beside (batchOver n first t) := by
  unfold batchOver; (repeat' (first | with_reducible exact keepsM_pure _ _ | with_reducible exact keepsM_throw _ _ | with_reducible exact keepsM_get _ | with_reducible refine keepsM_bind ?_ (fun _ => ?_) | with_reducible refine keepsM_mapM (fun _ => ?_) _ | with_reducible refine keepsM_forM (fun _ => ?_) _ | with_reducible refine keepsM_foldlM (fun _ _ => ?_) _ _ | with_reducible refine doSt_keeps _ (fun _ => ?_) | with_reducible refine askSt_keeps _ (fun _ => ?_) | (simp [kept @probeOn_fr, kept @release_fr, kept @updTask_fr]; done) | (simp [*, kept @probeOn_fr, kept @release_fr, kept @updTask_fr]; done) | split | dsimp only))

@[simp] theorem batchOver_apart (n : Nat) (first : Nat) (t : Task) : KeepsM State.apart (batchOver n first t) := by
  unfold batchOver; (repeat' (first | with_reducible exact keepsM_pure _ _ | with_reducible exact keepsM_throw _ _ | with_reducible exact keepsM_get _ | with_reducible refine keepsM_bind ?_ (fun _ => ?_) | with_reducible refine keepsM_mapM (fun _ => ?_) _ | with_reducible refine keepsM_forM (fun _ => ?_) _ | with_reducible refine keepsM_foldlM (fun _ _ => ?_) _ _ | with_reducible refine doSt_keeps _ (fun _ => ?_) | with_reducible refine askSt_keeps _ (fun _ => ?_) | (simp [kept @probeOn_fr, kept @release_fr, kept @updTask_fr]; done) | (simp [*, kept @probeOn_fr, kept @release_fr, kept @updTask_fr]; done) | split | dsimp only))

theorem batchOver_fr (n : Nat) (first : Nat) (t : Task) : KeepsM State.wires (batchOver n first t) ∧ KeepsM State.wq (batchOver n first t) ∧ KeepsM State.pkg (batchOver n first t) ∧ KeepsM State.fwLog (batchOver n first t) := by
  refine ⟨?_, ?_, ?_, ?_⟩ <;> (unfold batchOver; (repeat' (first | with_reducible exact keepsM_pure _ _ | with_reducible exact keepsM_throw _ _ | with_reducible exact keepsM_get _ | with_reducible refine keepsM_bind ?_ (fun _ => ?_) | with_reducible refine keepsM_mapM (fun _ => ?_) _ | with_reducible refine keepsM_forM (fun _ => ?_) _ | with_reducible refine keepsM_foldlM (fun _ _ => ?_) _ _ | with_reducible refine doSt_keeps _ (fun _ => ?_) | with_reducible refine askSt_keeps _ (fun _ => ?_) | (simp [kept @probeOn_fr, kept @release_fr, kept @updTask_fr]; done) | (simp [*, kept @probeOn_fr, kept @release_fr, kept @updTask_fr]; done) | split | dsimp only)))

@[simp] theorem takeBlock_beside (n : Nat) (c : OpCtx) (t : Task) : KeepsM State.beside (takeBlock n c t) := by
  unfold takeBlock; (repeat' (first | with_reducible exact keepsM_pure _ _ | with_reducible exact keepsM_throw _ _ | with_reducible exact keepsM_get _ | with_reducible refine keepsM_bind ?_ (fun _ => ?_) | with_reducible refine keepsM_mapM (fun _ => ?_) _ | with_reducible refine keepsM_forM (fun _ => ?_) _ | with_reducible refine keepsM_foldlM (fun _ _ => ?_) _ _ | with_reducible refine doSt_keeps _ (fun _ => ?_) | with_reducible refine askSt_keeps _ (fun _ => ?_) | (simp [kept @State.eng'_fr, kept @pack_fr, kept @release_fr]; done) | (simp [*, kept @State.eng'_fr, kept @pack_fr, kept @release_fr]; done) | split | dsimp only))

@[simp] theorem takeBlock_apart (n : Nat) (c : OpCtx) (t : Task) : KeepsM State.apart (takeBlock n c t) := by
  unfold takeBlock; (repeat' (first | with_reducible exact keepsM_pure _ _ | with_reducible exact keepsM_throw _ _ | with_reducible exact keepsM_get _ | with_reducible refine keepsM_bind ?_ (fun _ => ?_) | with_reducible refine keepsM_mapM (fun _ => ?_) _ | with_reducible refine keepsM_forM (fun _ => ?_) _ | with_reducible refine keepsM_foldlM (fun _ _ => ?_) _ _ | with_reducible refine doSt_keeps _ (fun _ => ?_) | with_reducible refine askSt_keeps _ (fun _ => ?_) | (simp [kept @State.eng'_fr, kept @pack_fr, kept @release_fr]; done) | (simp [*, kept @State.eng'_fr, kept @pack_fr, kept @release_fr]; done) | split | dsimp only))

theorem takeBlock_fr (n : Nat) (c : OpCtx) (t : Task) : KeepsM State.wires (takeBlock n c t) ∧ KeepsM State.wq (takeBlock n c t) ∧ KeepsM State.pkg (takeBlock n c t) ∧ KeepsM State.fwLog (takeBlock n c t) := by
  refine ⟨?_, ?_, ?_, ?_⟩ <;> (unfold takeBlock; (repeat' (first | with_reducible exact keepsM_pure _ _ | with_reducible exact keepsM_throw _ _ | with_reducible exact keepsM_get _ | with_reducible refine keepsM_bind ?_ (fun _ => ?_) | with_reducible refine keepsM_mapM (fun _ => ?_) _ | with_reducible refine keepsM_forM (fun _ => ?_) _ | with_reducible refine keepsM_foldlM (fun _ _ => ?_) _ _ | with_reducible refine doSt_keeps _ (fun _ => ?_) | with_reducible refine askSt_keeps _ (fun _ => ?_) | (simp [kept @State.eng'_fr, kept @pack_fr, kept @release_fr]; done) | (simp [*, kept @State.eng'_fr, kept @pack_fr, kept @release_fr]; done) | split | dsimp only)))

@[simp] theorem rawBlock_beside (a : Who) (d : ColD) (block : Nat) : KeepsM State.beside (rawBlock a d block) := by
  unfold rawBlock; (repeat' (first | with_reducible exact keepsM_pure _ _ | with_reducible exact keepsM_throw _ _ | with_reducible exact keepsM_get _ | with_reducible refine keepsM_bind ?_ (fun _ => ?_) | with_reducible refine keepsM_mapM (fun _ => ?_) _ | with_reducible refine keepsM_forM (fun _ => ?_) _ | with_reducible refine keepsM_foldlM (fun _ _ => ?_) _ _ | with_reducible refine doSt_keeps _ (fun _ => ?_) | with_reducible refine askSt_keeps _ (fun _ => ?_) | (simp [kept @vread_fr]; done) | (simp [*, kept @vread_fr]; done) | split | dsimp only))

@[simp] theorem rawBlock_apart (a : Who) (d : ColD) (block : Nat) : KeepsM State.apart (rawBlock a d block) := by
  unfold rawBlock; (repeat' (first | with_reducible exact keepsM_pure _ _ | with_reducible exact keepsM_throw _ _ | with_reducible exact keepsM_get _ | with_reducible refine keepsM_bind ?_ (fun _ => ?_) | with_reducible refine keepsM_mapM (fun _ => ?_) _ | with_reducible refine keepsM_forM (fun _ => ?_) _ | with_reducible refine keepsM_foldlM (fun _ _ => ?_) _ _ | with_reducible refine doSt_keeps _ (fun _ => ?_) | with_reducible refine askSt_keeps _ (fun _ => ?_) | (simp [kept @vread_fr]; done) | (simp [*, kept @vread_fr]; done) | split | dsimp only))

theorem rawBlock_fr (a : Who) (d : ColD) (block : Nat) : KeepsM State.free (rawBlock a d block) := by
  unfold rawBlock; (repeat' (first | with_reducible exact keepsM_pure _ _ | with_reducible exact keepsM_throw _ _ | with_reducible exact keepsM_get _ | with_reducible refine keepsM_bind ?_ (fun _ => ?_) | with_reducible refine keepsM_mapM (fun _ => ?_) _ | with_reducible refine keepsM_forM (fun _ => ?_) _ | with_reducible refine keepsM_foldlM (fun _ _ => ?_) _ _ | with_reducible refine doSt_keeps _ (fun _ => ?_) | with_reducible refine askSt_keeps _ (fun _ => ?_) | (simp [kept @vread_fr]; done) | (simp [*, kept @vread_fr]; done) | split | dsimp only))

@[simp] theorem scanRawBlock_beside (n : Nat) (c : OpCtx) (t : Task) : KeepsM State.beside (scanRawBlock n c t) := by
  unfold scanRawBlock; (repeat' (first | with_reducible exact keepsM_pure _ _ | with_reducible exact keepsM_throw _ _ | with_reducible exact keepsM_get _ | with_reducible refine keepsM_bind ?_ (fun _ => ?_) | with_reducible refine keepsM_mapM (fun _ => ?_) _ | with_reducible refine keepsM_forM (fun _ => ?_) _ | with_reducible refine keepsM_foldlM (fun _ _ => ?_) _ _ | with_reducible refine doSt_keeps _ (fun _ => ?_) | with_reducible refine askSt_keeps _ (fun _ => ?_) | (simp [kept @rawBlock_fr, kept @sendSurvivors_fr, kept @updTask_fr, kept @xlate_fr]; done) | (simp [*, kept @rawBlock_fr, kept @sendSurvivors_fr, kept @updTask_fr, kept @xlate_fr]; done) | split | dsimp only))

@[simp] theorem scanRawBlock_apart (n : Nat) (c : OpCtx) (t : Task) : KeepsM State.apart (scanRawBlock n c t) := by
  unfold scanRawBlock; (repeat' (first | with_reducible exact keepsM_pure _ _ | with_reducible exact keepsM_throw _ _ | with_reducible exact keepsM_get _ | with_reducible refine keepsM_bind ?_ (fun _ => ?_) | with_reducible refine keepsM_mapM (fun _ => ?_) _ | with_reducible refine keepsM_forM (fun _ => ?_) _ | with_reducible refine keepsM_foldlM (fun _ _ => ?_) _ _ | with_reducible refine doSt_keeps _ (fun _ => ?_) | with_reducible refine askSt_keeps _ (fun _ => ?_) | (simp [kept @rawBlock_fr, kept @sendSurvivors_fr, kept @updTask_fr, kept @xlate_fr]; done) | (simp [*, kept @rawBlock_fr, kept @sendSurvivors_fr, kept @updTask_fr, kept @xlate_fr]; done) | split | dsimp only))

theorem scanRawBlock_fr (n : Nat) (c : OpCtx) (t : Task) : KeepsM State.free (scanRawBlock n c t) := by
  unfold scanRawBlock; (repeat' (first | with_reducible exact keepsM_pure _ _ | with_reducible exact keepsM_throw _ _ | with_reducible exact keepsM_get _ | with_reducible refine keepsM_bind ?_ (fun _ => ?_) | with_reducible refine keepsM_mapM (fun _ => ?_) _ | with_reducible refine keepsM_forM (fun _ => ?_) _ | with_reducible refine keepsM_foldlM (fun _ _ => ?_) _ _ | with_reducible refine doSt_keeps _ (fun _ => ?_) | with_reducible refine askSt_keeps _ (fun _ => ?_) | (simp [kept @rawBlock_fr, kept @sendSurvivors_fr, kept @updTask_fr, kept @xlate_fr]; done) | (simp [*, kept @rawBlock_fr, kept @sendSurvivors_fr, kept @updTask_fr, kept @xlate_fr]; done) | split | dsimp only))

@[simp] theorem scanTable_beside (n : Nat) (c : OpCtx) (t : Task) : KeepsM State.beside (scanTable n c t) := by
  unfold scanTable; (repeat' (first | with_reducible exact keepsM_pure _ _ | with_reducible exact keepsM_throw _ _ | with_reducible exact keepsM_get _ | with_reducible refine keepsM_bind ?_ (fun _ => ?_) | with_reducible refine keepsM_mapM (fun _ => ?_) _ | with_reducible refine keepsM_forM (fun _ => ?_) _ | with_reducible refine keepsM_foldlM (fun _ _ => ?_) _ _ | with_reducible refine doSt_keeps _ (fun _ => ?_) | with_reducible refine askSt_keeps _ (fun _ => ?_) | (simp [kept @pack_fr, kept @pread_fr, kept @release_fr, kept @vread_fr]; done) | (simp [*, kept @pack_fr, kept @pread_fr, kept @release_fr, kept @vread_fr]; done) | split | dsimp only))

@[simp] theorem scanTable_apart (n : Nat) (c : OpCtx) (t : Task) : KeepsM State.apart (scanTable n c t) := by
  unfold scanTable; (repeat' (first | with_reducible exact keepsM_pure _ _ | with_reducible exact keepsM_throw _ _ | with_reducible exact keepsM_get _ | with_reducible refine keepsM_bind ?_ (fun _ => ?_) | with_reducible refine keepsM_mapM (fun _ => ?_) _ | with_reducible refine keepsM_forM (fun _ => ?_) _ | with_reducible refine keepsM_foldlM (fun _ _ => ?_) _ _ | with_reducible refine doSt_keeps _ (fun _ => ?_) | with_reducible refine askSt_keeps _ (fun _ => ?_) | (simp [kept @pack_fr, kept @pread_fr, kept @release_fr, kept @vread_fr]; done) | (simp [*, kept @pack_fr, kept @pread_fr, kept @release_fr, kept @vread_fr]; done) | split | dsimp only))

@[simp] theorem tableChunks_beside (n : Nat) (t : Task) (d : TDecl) : KeepsM State.beside (tableChunks n t d) := by
  unfold tableChunks; (repeat' (first | with_reducible exact keepsM_pure _ _ | with_reducible exact keepsM_throw _ _ | with_reducible exact keepsM_get _ | with_reducible refine keepsM_bind ?_ (fun _ => ?_) | with_reducible refine keepsM_mapM (fun _ => ?_) _ | with_reducible refine keepsM_forM (fun _ => ?_) _ | with_reducible refine keepsM_foldlM (fun _ _ => ?_) _ _ | with_reducible refine doSt_keeps _ (fun _ => ?_) | with_reducible refine askSt_keeps _ (fun _ => ?_) | (simp [kept @ensure_fr, kept @pread_fr, kept @vread_fr]; done) | (simp [*, kept @ensure_fr, kept @pread_fr, kept @vread_fr]; done) | split | dsimp only))

@[simp] theorem tableChunks_apart (n : Nat) (t : Task) (d : TDecl) : KeepsM State.apart (tableChunks n t d) := by
  unfold tableChunks; (repeat' (first | with_reducible exact keepsM_pure _ _ | with_reducible exact keepsM_throw _ _ | with_reducible exact keepsM_get _ | with_reducible refine keepsM_bind ?_ (fun _ => ?_) | with_reducible refine keepsM_mapM (fun _ => ?_) _ | with_reducible refine keepsM_forM (fun _ => ?_) _ | with_reducible refine keepsM_foldlM (fun _ _ => ?_) _ _ | with_reducible refine doSt_keeps _ (fun _ => ?_) | with_reducible refine askSt_keeps _ (fun _ => ?_) | (simp [kept @ensure_fr, kept @pread_fr, kept @vread_fr]; done) | (simp [*, kept @ensure_fr, kept @pread_fr, kept @vread_fr]; done) | split | dsimp only))

theorem tableChunks_fr (n : Nat) (t : Task) (d : TDecl) : KeepsM State.free (tableChunks n t d) := by
  unfold tableChunks; (repeat' (first | with_reducible exact keepsM_pure _ _ | with_reducible exact keepsM_throw _ _ | with_reducible exact keepsM_get _ | with_reducible refine keepsM_bind ?_ (fun _ => ?_) | with_reducible refine keepsM_mapM (fun _ => ?_) _ | with_reducible refine keepsM_forM (fun _ => ?_) _ | with_reducible refine keepsM_foldlM (fun _ _ => ?_) _ _ | with_reducible refine doSt_keeps _ (fun _ => ?_) | with_reducible refine askSt_keeps _ (fun _ => ?_) | (simp [kept @ensure_fr, kept @pread_fr, kept @vread_fr]; done) | (simp [*, kept @ensure_fr, kept @pread_fr, kept @vread_fr]; done) | split | dsimp only))

@[simp] theorem inlineRead_beside (d : Desc) (r : Run) (off : Nat) (n : Nat) : KeepsM State.beside (inlineRead d r off n) := by
  unfold inlineRead; (repeat' (first | with_reducible exact keepsM_pure _ _ | with_reducible exact keepsM_throw _ _ | with_reducible exact keepsM_get _ | with_reducible refine keepsM_bind ?_ (fun _ => ?_) | with_reducible refine keepsM_mapM (fun _ => ?_) _ | with_reducible refine keepsM_forM (fun _ => ?_) _ | with_reducible refine keepsM_foldlM (fun _ _ => ?_) _ _ | with_reducible refine doSt_keeps _ (fun _ => ?_) | with_reducible refine askSt_keeps _ (fun _ => ?_) | (simp [kept @State.stageRead_fr, kept @ensure_fr, kept @vread_fr]; done) | (simp [*, kept @State.stageRead_fr, kept @ensure_fr, kept @vread_fr]; done) | split | dsimp only))

@[simp] theorem inlineRead_apart (d : Desc) (r : Run) (off : Nat) (n : Nat) : KeepsM State.apart (inlineRead d r off n) := by
  unfold inlineRead; (repeat' (first | with_reducible exact keepsM_pure _ _ | with_reducible exact keepsM_throw _ _ | with_reducible exact keepsM_get _ | with_reducible refine keepsM_bind ?_ (fun _ => ?_) | with_reducible refine keepsM_mapM (fun _ => ?_) _ | with_reducible refine keepsM_forM (fun _ => ?_) _ | with_reducible refine keepsM_foldlM (fun _ _ => ?_) _ _ | with_reducible refine doSt_keeps _ (fun _ => ?_) | with_reducible refine askSt_keeps _ (fun _ => ?_) | (simp [kept @State.stageRead_fr, kept @ensure_fr, kept @vread_fr]; done) | (simp [*, kept @State.stageRead_fr, kept @ensure_fr, kept @vread_fr]; done) | split | dsimp only))

theorem inlineRead_fr (d : Desc) (r : Run) (off : Nat) (n : Nat) : KeepsM State.free (inlineRead d r off n) := by
  unfold inlineRead; (repeat' (first | with_reducible exact keepsM_pure _ _ | with_reducible exact keepsM_throw _ _ | with_reducible exact keepsM_get _ | with_reducible refine keepsM_bind ?_ (fun _ => ?_) | with_reducible refine keepsM_mapM (fun _ => ?_) _ | with_reducible refine keepsM_forM (fun _ => ?_) _ | with_reducible refine keepsM_foldlM (fun _ _ => ?_) _ _ | with_reducible refine doSt_keeps _ (fun _ => ?_) | with_reducible refine askSt_keeps _ (fun _ => ?_) | (simp [kept @State.stageRead_fr, kept @ensure_fr, kept @vread_fr]; done) | (simp [*, kept @State.stageRead_fr, kept @ensure_fr, kept @vread_fr]; done) | split | dsimp only))

@[simp] theorem inlineRows_beside (c : OpCtx) (first : Nat) (bytes : List Byte) (cnt : Nat) : KeepsM State.beside (inlineRows c first bytes cnt) := by
  unfold inlineRows; (repeat' (first | with_reducible exact keepsM_pure _ _ | with_reducible exact keepsM_throw _ _ | with_reducible exact keepsM_get _ | with_reducible refine keepsM_bind ?_ (fun _ => ?_) | with_reducible refine keepsM_mapM (fun _ => ?_) _ | with_reducible refine keepsM_forM (fun _ => ?_) _ | with_reducible refine keepsM_foldlM (fun _ _ => ?_) _ _ | with_reducible refine doSt_keeps _ (fun _ => ?_) | with_reducible refine askSt_keeps _ (fun _ => ?_) | (simp [kept @State.draw_fr]; done) | (simp [*, kept @State.draw_fr]; done) | split | dsimp only))

@[simp] theorem inlineRows_apart (c : OpCtx) (first : Nat) (bytes : List Byte) (cnt : Nat) : KeepsM State.apart (inlineRows c first bytes cnt) := by
  unfold inlineRows; (repeat' (first | with_reducible exact keepsM_pure _ _ | with_reducible exact keepsM_throw _ _ | with_reducible exact keepsM_get _ | with_reducible refine keepsM_bind ?_ (fun _ => ?_) | with_reducible refine keepsM_mapM (fun _ => ?_) _ | with_reducible refine keepsM_forM (fun _ => ?_) _ | with_reducible refine keepsM_foldlM (fun _ _ => ?_) _ _ | with_reducible refine doSt_keeps _ (fun _ => ?_) | with_reducible refine askSt_keeps _ (fun _ => ?_) | (simp [kept @State.draw_fr]; done) | (simp [*, kept @State.draw_fr]; done) | split | dsimp only))

theorem inlineRows_fr (c : OpCtx) (first : Nat) (bytes : List Byte) (cnt : Nat) : KeepsM State.mram (inlineRows c first bytes cnt) ∧ KeepsM State.eng (inlineRows c first bytes cnt) ∧ KeepsM State.regs (inlineRows c first bytes cnt) ∧ KeepsM State.wires (inlineRows c first bytes cnt) ∧ KeepsM State.wq (inlineRows c first bytes cnt) ∧ KeepsM State.pkg (inlineRows c first bytes cnt) ∧ KeepsM State.pmc (inlineRows c first bytes cnt) ∧ KeepsM State.fwLog (inlineRows c first bytes cnt) := by
  refine ⟨?_, ?_, ?_, ?_, ?_, ?_, ?_, ?_⟩ <;> (unfold inlineRows; (repeat' (first | with_reducible exact keepsM_pure _ _ | with_reducible exact keepsM_throw _ _ | with_reducible exact keepsM_get _ | with_reducible refine keepsM_bind ?_ (fun _ => ?_) | with_reducible refine keepsM_mapM (fun _ => ?_) _ | with_reducible refine keepsM_forM (fun _ => ?_) _ | with_reducible refine keepsM_foldlM (fun _ _ => ?_) _ _ | with_reducible refine doSt_keeps _ (fun _ => ?_) | with_reducible refine askSt_keeps _ (fun _ => ?_) | (simp [kept @State.draw_fr]; done) | (simp [*, kept @State.draw_fr]; done) | split | dsimp only)))

@[simp] theorem startFetch_beside (n : Nat) (c : OpCtx) (t : Task) (b : Batch) : KeepsM State.beside (startFetch n c t b) := by
  unfold startFetch; (repeat' (first | with_reducible exact keepsM_pure _ _ | with_reducible exact keepsM_throw _ _ | with_reducible exact keepsM_get _ | with_reducible refine keepsM_bind ?_ (fun _ => ?_) | with_reducible refine keepsM_mapM (fun _ => ?_) _ | with_reducible refine keepsM_forM (fun _ => ?_) _ | with_reducible refine keepsM_foldlM (fun _ _ => ?_) _ _ | with_reducible refine doSt_keeps _ (fun _ => ?_) | with_reducible refine askSt_keeps _ (fun _ => ?_) | (simp [kept @cbRead_fr, kept @openPage_fr, kept @updTask_fr]; done) | (simp [*, kept @cbRead_fr, kept @openPage_fr, kept @updTask_fr]; done) | split | dsimp only))

@[simp] theorem startFetch_apart (n : Nat) (c : OpCtx) (t : Task) (b : Batch) : KeepsM State.apart (startFetch n c t b) := by
  unfold startFetch; (repeat' (first | with_reducible exact keepsM_pure _ _ | with_reducible exact keepsM_throw _ _ | with_reducible exact keepsM_get _ | with_reducible refine keepsM_bind ?_ (fun _ => ?_) | with_reducible refine keepsM_mapM (fun _ => ?_) _ | with_reducible refine keepsM_forM (fun _ => ?_) _ | with_reducible refine keepsM_foldlM (fun _ _ => ?_) _ _ | with_reducible refine doSt_keeps _ (fun _ => ?_) | with_reducible refine askSt_keeps _ (fun _ => ?_) | (simp [kept @cbRead_fr, kept @openPage_fr, kept @updTask_fr]; done) | (simp [*, kept @cbRead_fr, kept @openPage_fr, kept @updTask_fr]; done) | split | dsimp only))

theorem startFetch_fr (n : Nat) (c : OpCtx) (t : Task) (b : Batch) : KeepsM State.wires (startFetch n c t b) ∧ KeepsM State.wq (startFetch n c t b) ∧ KeepsM State.pkg (startFetch n c t b) ∧ KeepsM State.fwLog (startFetch n c t b) := by
  refine ⟨?_, ?_, ?_, ?_⟩ <;> (unfold startFetch; (repeat' (first | with_reducible exact keepsM_pure _ _ | with_reducible exact keepsM_throw _ _ | with_reducible exact keepsM_get _ | with_reducible refine keepsM_bind ?_ (fun _ => ?_) | with_reducible refine keepsM_mapM (fun _ => ?_) _ | with_reducible refine keepsM_forM (fun _ => ?_) _ | with_reducible refine keepsM_foldlM (fun _ _ => ?_) _ _ | with_reducible refine doSt_keeps _ (fun _ => ?_) | with_reducible refine askSt_keeps _ (fun _ => ?_) | (simp [kept @cbRead_fr, kept @openPage_fr, kept @updTask_fr]; done) | (simp [*, kept @cbRead_fr, kept @openPage_fr, kept @updTask_fr]; done) | split | dsimp only)))

@[simp] theorem endFetch_beside (n : Nat) (c : OpCtx) (t : Task) (b : Batch) : KeepsM State.beside (endFetch n c t b) := by
  unfold endFetch; (repeat' (first | with_reducible exact keepsM_pure _ _ | with_reducible exact keepsM_throw _ _ | with_reducible exact keepsM_get _ | with_reducible refine keepsM_bind ?_ (fun _ => ?_) | with_reducible refine keepsM_mapM (fun _ => ?_) _ | with_reducible refine keepsM_forM (fun _ => ?_) _ | with_reducible refine keepsM_foldlM (fun _ _ => ?_) _ _ | with_reducible refine doSt_keeps _ (fun _ => ?_) | with_reducible refine askSt_keeps _ (fun _ => ?_) | (simp [kept @setSel_fr, kept @updTask_fr, kept @writeRegs_fr]; done) | (simp [*, kept @setSel_fr, kept @updTask_fr, kept @writeRegs_fr]; done) | split | dsimp only))

@[simp] theorem endFetch_apart (n : Nat) (c : OpCtx) (t : Task) (b : Batch) : KeepsM State.apart (endFetch n c t b) := by
  unfold endFetch; (repeat' (first | with_reducible exact keepsM_pure _ _ | with_reducible exact keepsM_throw _ _ | with_reducible exact keepsM_get _ | with_reducible refine keepsM_bind ?_ (fun _ => ?_) | with_reducible refine keepsM_mapM (fun _ => ?_) _ | with_reducible refine keepsM_forM (fun _ => ?_) _ | with_reducible refine keepsM_foldlM (fun _ _ => ?_) _ _ | with_reducible refine doSt_keeps _ (fun _ => ?_) | with_reducible refine askSt_keeps _ (fun _ => ?_) | (simp [kept @setSel_fr, kept @updTask_fr, kept @writeRegs_fr]; done) | (simp [*, kept @setSel_fr, kept @updTask_fr, kept @writeRegs_fr]; done) | split | dsimp only))

theorem endFetch_fr (n : Nat) (c : OpCtx) (t : Task) (b : Batch) : KeepsM State.wires (endFetch n c t b) ∧ KeepsM State.wq (endFetch n c t b) ∧ KeepsM State.pkg (endFetch n c t b) ∧ KeepsM State.fwLog (endFetch n c t b) := by
  refine ⟨?_, ?_, ?_, ?_⟩ <;> (unfold endFetch; (repeat' (first | with_reducible exact keepsM_pure _ _ | with_reducible exact keepsM_throw _ _ | with_reducible exact keepsM_get _ | with_reducible refine keepsM_bind ?_ (fun _ => ?_) | with_reducible refine keepsM_mapM (fun _ => ?_) _ | with_reducible refine keepsM_forM (fun _ => ?_) _ | with_reducible refine keepsM_foldlM (fun _ _ => ?_) _ _ | with_reducible refine doSt_keeps _ (fun _ => ?_) | with_reducible refine askSt_keeps _ (fun _ => ?_) | (simp [kept @setSel_fr, kept @updTask_fr, kept @writeRegs_fr]; done) | (simp [*, kept @setSel_fr, kept @updTask_fr, kept @writeRegs_fr]; done) | split | dsimp only)))

@[simp] theorem fetchRows_beside (n : Nat) (c : OpCtx) (t : Task) (b : Batch) (it : FetchItem) (pb : PageBuf) (pd : PageData) : KeepsM State.beside (fetchRows n c t b it pb pd) := by
  unfold fetchRows; (repeat' (first | with_reducible exact keepsM_pure _ _ | with_reducible exact keepsM_throw _ _ | with_reducible exact keepsM_get _ | with_reducible refine keepsM_bind ?_ (fun _ => ?_) | with_reducible refine keepsM_mapM (fun _ => ?_) _ | with_reducible refine keepsM_forM (fun _ => ?_) _ | with_reducible refine keepsM_foldlM (fun _ _ => ?_) _ _ | with_reducible refine doSt_keeps _ (fun _ => ?_) | with_reducible refine askSt_keeps _ (fun _ => ?_) | (simp [kept @State.eng'_fr, kept @cellOf_fr, kept @updTask_fr]; done) | (simp [*, kept @State.eng'_fr, kept @cellOf_fr, kept @updTask_fr]; done) | split | dsimp only))

@[simp] theorem fetchRows_apart (n : Nat) (c : OpCtx) (t : Task) (b : Batch) (it : FetchItem) (pb : PageBuf) (pd : PageData) : KeepsM State.apart (fetchRows n c t b it pb pd) := by
  unfold fetchRows; (repeat' (first | with_reducible exact keepsM_pure _ _ | with_reducible exact keepsM_throw _ _ | with_reducible exact keepsM_get _ | with_reducible refine keepsM_bind ?_ (fun _ => ?_) | with_reducible refine keepsM_mapM (fun _ => ?_) _ | with_reducible refine keepsM_forM (fun _ => ?_) _ | with_reducible refine keepsM_foldlM (fun _ _ => ?_) _ _ | with_reducible refine doSt_keeps _ (fun _ => ?_) | with_reducible refine askSt_keeps _ (fun _ => ?_) | (simp [kept @State.eng'_fr, kept @cellOf_fr, kept @updTask_fr]; done) | (simp [*, kept @State.eng'_fr, kept @cellOf_fr, kept @updTask_fr]; done) | split | dsimp only))

theorem fetchRows_fr (n : Nat) (c : OpCtx) (t : Task) (b : Batch) (it : FetchItem) (pb : PageBuf) (pd : PageData) : KeepsM State.free (fetchRows n c t b it pb pd) := by
  unfold fetchRows; (repeat' (first | with_reducible exact keepsM_pure _ _ | with_reducible exact keepsM_throw _ _ | with_reducible exact keepsM_get _ | with_reducible refine keepsM_bind ?_ (fun _ => ?_) | with_reducible refine keepsM_mapM (fun _ => ?_) _ | with_reducible refine keepsM_forM (fun _ => ?_) _ | with_reducible refine keepsM_foldlM (fun _ _ => ?_) _ _ | with_reducible refine doSt_keeps _ (fun _ => ?_) | with_reducible refine askSt_keeps _ (fun _ => ?_) | (simp [kept @State.eng'_fr, kept @cellOf_fr, kept @updTask_fr]; done) | (simp [*, kept @State.eng'_fr, kept @cellOf_fr, kept @updTask_fr]; done) | split | dsimp only))

end Sys2Proof.Machine
end

