-- ==== Sys2Proof/Laws/Frame/EngTask.lean ====
section
/-! SUPPORT. What the operations of Machine/EngTask.lean leave unchanged. -/

set_option Elab.async false
set_option linter.all false

namespace Sys2Proof.Machine
open Sys2Proof

@[simp] theorem useArea_beside (n : Nat) (c : OpCtx) (t : Task) (k : Nat) (size : Nat) : KeepsM State.beside (useArea n c t k size) := by
  unfold useArea; (repeat' (first | with_reducible exact keepsM_pure _ _ | with_reducible exact keepsM_throw _ _ | with_reducible exact keepsM_get _ | with_reducible refine keepsM_bind ?_ (fun _ => ?_) | with_reducible refine keepsM_mapM (fun _ => ?_) _ | with_reducible refine keepsM_forM (fun _ => ?_) _ | with_reducible refine keepsM_foldlM (fun _ _ => ?_) _ _ | with_reducible refine doSt_keeps _ (fun _ => ?_) | with_reducible refine askSt_keeps _ (fun _ => ?_) | (simp [kept @cbRead_fr, kept @cbStore_fr]; done) | (simp [*, kept @cbRead_fr, kept @cbStore_fr]; done) | split | dsimp only))

@[simp] theorem useArea_apart (n : Nat) (c : OpCtx) (t : Task) (k : Nat) (size : Nat) : KeepsM State.apart (useArea n c t k size) := by
  unfold useArea; (repeat' (first | with_reducible exact keepsM_pure _ _ | with_reducible exact keepsM_throw _ _ | with_reducible exact keepsM_get _ | with_reducible refine keepsM_bind ?_ (fun _ => ?_) | with_reducible refine keepsM_mapM (fun _ => ?_) _ | with_reducible refine keepsM_forM (fun _ => ?_) _ | with_reducible refine keepsM_foldlM (fun _ _ => ?_) _ _ | with_reducible refine doSt_keeps _ (fun _ => ?_) | with_reducible refine askSt_keeps _ (fun _ => ?_) | (simp [kept @cbRead_fr, kept @cbStore_fr]; done) | (simp [*, kept @cbRead_fr, kept @cbStore_fr]; done) | split | dsimp only))

theorem useArea_fr (n : Nat) (c : OpCtx) (t : Task) (k : Nat) (size : Nat) : KeepsM State.wires (useArea n c t k size) ∧ KeepsM State.wq (useArea n c t k size) ∧ KeepsM State.pkg (useArea n c t k size) ∧ KeepsM State.fwLog (useArea n c t k size) := by
  refine ⟨?_, ?_, ?_, ?_⟩ <;> (unfold useArea; (repeat' (first | with_reducible exact keepsM_pure _ _ | with_reducible exact keepsM_throw _ _ | with_reducible exact keepsM_get _ | with_reducible refine keepsM_bind ?_ (fun _ => ?_) | with_reducible refine keepsM_mapM (fun _ => ?_) _ | with_reducible refine keepsM_forM (fun _ => ?_) _ | with_reducible refine keepsM_foldlM (fun _ _ => ?_) _ _ | with_reducible refine doSt_keeps _ (fun _ => ?_) | with_reducible refine askSt_keeps _ (fun _ => ?_) | (simp [kept @cbRead_fr, kept @cbStore_fr]; done) | (simp [*, kept @cbRead_fr, kept @cbStore_fr]; done) | split | dsimp only)))

@[simp] theorem reserveRun_beside (a : Who) (d : RDecl) (bytes : Nat) : KeepsM State.beside (reserveRun a d bytes) := by
  unfold reserveRun; (repeat' (first | with_reducible exact keepsM_pure _ _ | with_reducible exact keepsM_throw _ _ | with_reducible exact keepsM_get _ | with_reducible refine keepsM_bind ?_ (fun _ => ?_) | with_reducible refine keepsM_mapM (fun _ => ?_) _ | with_reducible refine keepsM_forM (fun _ => ?_) _ | with_reducible refine keepsM_foldlM (fun _ _ => ?_) _ _ | with_reducible refine doSt_keeps _ (fun _ => ?_) | with_reducible refine askSt_keeps _ (fun _ => ?_) | (simp [kept @ensure_fr, kept @preWrite_fr, kept @vread_fr, kept @vwrite_fr]; done) | (simp [*, kept @ensure_fr, kept @preWrite_fr, kept @vread_fr, kept @vwrite_fr]; done) | split | dsimp only))

theorem reserveRun_fr (a : Who) (d : RDecl) (bytes : Nat) : KeepsM State.dm (reserveRun a d bytes) ∧ KeepsM State.free (reserveRun a d bytes) := by
  refine ⟨?_, ?_⟩ <;> (unfold reserveRun; (repeat' (first | with_reducible exact keepsM_pure _ _ | with_reducible exact keepsM_throw _ _ | with_reducible exact keepsM_get _ | with_reducible refine keepsM_bind ?_ (fun _ => ?_) | with_reducible refine keepsM_mapM (fun _ => ?_) _ | with_reducible refine keepsM_forM (fun _ => ?_) _ | with_reducible refine keepsM_foldlM (fun _ _ => ?_) _ _ | with_reducible refine doSt_keeps _ (fun _ => ?_) | with_reducible refine askSt_keeps _ (fun _ => ?_) | (simp [kept @ensure_fr, kept @preWrite_fr, kept @vread_fr, kept @vwrite_fr]; done) | (simp [*, kept @ensure_fr, kept @preWrite_fr, kept @vread_fr, kept @vwrite_fr]; done) | split | dsimp only)))

@[simp] theorem writeRun_beside (a : Who) (d : RDecl) (recs : List (List Byte)) (pass : Nat) : KeepsM State.beside (writeRun a d recs pass) := by
  unfold writeRun; (repeat' (first | with_reducible exact keepsM_pure _ _ | with_reducible exact keepsM_throw _ _ | with_reducible exact keepsM_get _ | with_reducible refine keepsM_bind ?_ (fun _ => ?_) | with_reducible refine keepsM_mapM (fun _ => ?_) _ | with_reducible refine keepsM_forM (fun _ => ?_) _ | with_reducible refine keepsM_foldlM (fun _ _ => ?_) _ _ | with_reducible refine doSt_keeps _ (fun _ => ?_) | with_reducible refine askSt_keeps _ (fun _ => ?_) | (simp [kept @reserveRun_fr, kept @vwrite_fr]; done) | (simp [*, kept @reserveRun_fr, kept @vwrite_fr]; done) | split | dsimp only))

theorem writeRun_fr (a : Who) (d : RDecl) (recs : List (List Byte)) (pass : Nat) : KeepsM State.dm (writeRun a d recs pass) ∧ KeepsM State.free (writeRun a d recs pass) := by
  refine ⟨?_, ?_⟩ <;> (unfold writeRun; (repeat' (first | with_reducible exact keepsM_pure _ _ | with_reducible exact keepsM_throw _ _ | with_reducible exact keepsM_get _ | with_reducible refine keepsM_bind ?_ (fun _ => ?_) | with_reducible refine keepsM_mapM (fun _ => ?_) _ | with_reducible refine keepsM_forM (fun _ => ?_) _ | with_reducible refine keepsM_foldlM (fun _ _ => ?_) _ _ | with_reducible refine doSt_keeps _ (fun _ => ?_) | with_reducible refine askSt_keeps _ (fun _ => ?_) | (simp [kept @reserveRun_fr, kept @vwrite_fr]; done) | (simp [*, kept @reserveRun_fr, kept @vwrite_fr]; done) | split | dsimp only)))

@[simp] theorem opSortRun_beside (n : Nat) (c : OpCtx) (t : Task) (b : Batch) : KeepsM State.beside (opSortRun n c t b) := by
  unfold opSortRun; (repeat' (first | with_reducible exact keepsM_pure _ _ | with_reducible exact keepsM_throw _ _ | with_reducible exact keepsM_get _ | with_reducible refine keepsM_bind ?_ (fun _ => ?_) | with_reducible refine keepsM_mapM (fun _ => ?_) _ | with_reducible refine keepsM_forM (fun _ => ?_) _ | with_reducible refine keepsM_foldlM (fun _ _ => ?_) _ _ | with_reducible refine doSt_keeps _ (fun _ => ?_) | with_reducible refine askSt_keeps _ (fun _ => ?_) | (simp [kept @opDone_fr, kept @readRegs_fr, kept @sinkRows_fr, kept @useArea_fr, kept @writeRun_fr]; done) | (simp [*, kept @opDone_fr, kept @readRegs_fr, kept @sinkRows_fr, kept @useArea_fr, kept @writeRun_fr]; done) | split | dsimp only))

theorem opSortRun_fr (n : Nat) (c : OpCtx) (t : Task) (b : Batch) : KeepsM State.dm (opSortRun n c t b) := by
  unfold opSortRun; (repeat' (first | with_reducible exact keepsM_pure _ _ | with_reducible exact keepsM_throw _ _ | with_reducible exact keepsM_get _ | with_reducible refine keepsM_bind ?_ (fun _ => ?_) | with_reducible refine keepsM_mapM (fun _ => ?_) _ | with_reducible refine keepsM_forM (fun _ => ?_) _ | with_reducible refine keepsM_foldlM (fun _ _ => ?_) _ _ | with_reducible refine doSt_keeps _ (fun _ => ?_) | with_reducible refine askSt_keeps _ (fun _ => ?_) | (simp [kept @opDone_fr, kept @readRegs_fr, kept @sinkRows_fr, kept @useArea_fr, kept @writeRun_fr]; done) | (simp [*, kept @opDone_fr, kept @readRegs_fr, kept @sinkRows_fr, kept @useArea_fr, kept @writeRun_fr]; done) | split | dsimp only))

@[simp] theorem runEntry_beside (a : Who) (d : RDecl) (j : Nat) : KeepsM State.beside (runEntry a d j) := by
  unfold runEntry; (repeat' (first | with_reducible exact keepsM_pure _ _ | with_reducible exact keepsM_throw _ _ | with_reducible exact keepsM_get _ | with_reducible refine keepsM_bind ?_ (fun _ => ?_) | with_reducible refine keepsM_mapM (fun _ => ?_) _ | with_reducible refine keepsM_forM (fun _ => ?_) _ | with_reducible refine keepsM_foldlM (fun _ _ => ?_) _ _ | with_reducible refine doSt_keeps _ (fun _ => ?_) | with_reducible refine askSt_keeps _ (fun _ => ?_) | (simp [kept @vread_fr]; done) | (simp [*, kept @vread_fr]; done) | split | dsimp only))

@[simp] theorem runEntry_apart (a : Who) (d : RDecl) (j : Nat) : KeepsM State.apart (runEntry a d j) := by
  unfold runEntry; (repeat' (first | with_reducible exact keepsM_pure _ _ | with_reducible exact keepsM_throw _ _ | with_reducible exact keepsM_get _ | with_reducible refine keepsM_bind ?_ (fun _ => ?_) | with_reducible refine keepsM_mapM (fun _ => ?_) _ | with_reducible refine keepsM_forM (fun _ => ?_) _ | with_reducible refine keepsM_foldlM (fun _ _ => ?_) _ _ | with_reducible refine doSt_keeps _ (fun _ => ?_) | with_reducible refine askSt_keeps _ (fun _ => ?_) | (simp [kept @vread_fr]; done) | (simp [*, kept @vread_fr]; done) | split | dsimp only))

theorem runEntry_fr (a : Who) (d : RDecl) (j : Nat) : KeepsM State.free (runEntry a d j) := by
  unfold runEntry; (repeat' (first | with_reducible exact keepsM_pure _ _ | with_reducible exact keepsM_throw _ _ | with_reducible exact keepsM_get _ | with_reducible refine keepsM_bind ?_ (fun _ => ?_) | with_reducible refine keepsM_mapM (fun _ => ?_) _ | with_reducible refine keepsM_forM (fun _ => ?_) _ | with_reducible refine keepsM_foldlM (fun _ _ => ?_) _ _ | with_reducible refine doSt_keeps _ (fun _ => ?_) | with_reducible refine askSt_keeps _ (fun _ => ?_) | (simp [kept @vread_fr]; done) | (simp [*, kept @vread_fr]; done) | split | dsimp only))

@[simp] theorem openRuns_beside (a : Who) (d : RDecl) : KeepsM State.beside (openRuns a d) := by
  unfold openRuns; (repeat' (first | with_reducible exact keepsM_pure _ _ | with_reducible exact keepsM_throw _ _ | with_reducible exact keepsM_get _ | with_reducible refine keepsM_bind ?_ (fun _ => ?_) | with_reducible refine keepsM_mapM (fun _ => ?_) _ | with_reducible refine keepsM_forM (fun _ => ?_) _ | with_reducible refine keepsM_foldlM (fun _ _ => ?_) _ _ | with_reducible refine doSt_keeps _ (fun _ => ?_) | with_reducible refine askSt_keeps _ (fun _ => ?_) | (simp [kept @runEntry_fr, kept @vread_fr]; done) | (simp [*, kept @runEntry_fr, kept @vread_fr]; done) | split | dsimp only))

@[simp] theorem openRuns_apart (a : Who) (d : RDecl) : KeepsM State.apart (openRuns a d) := by
  unfold openRuns; (repeat' (first | with_reducible exact keepsM_pure _ _ | with_reducible exact keepsM_throw _ _ | with_reducible exact keepsM_get _ | with_reducible refine keepsM_bind ?_ (fun _ => ?_) | with_reducible refine keepsM_mapM (fun _ => ?_) _ | with_reducible refine keepsM_forM (fun _ => ?_) _ | with_reducible refine keepsM_foldlM (fun _ _ => ?_) _ _ | with_reducible refine doSt_keeps _ (fun _ => ?_) | with_reducible refine askSt_keeps _ (fun _ => ?_) | (simp [kept @runEntry_fr, kept @vread_fr]; done) | (simp [*, kept @runEntry_fr, kept @vread_fr]; done) | split | dsimp only))

theorem openRuns_fr (a : Who) (d : RDecl) : KeepsM State.free (openRuns a d) := by
  unfold openRuns; (repeat' (first | with_reducible exact keepsM_pure _ _ | with_reducible exact keepsM_throw _ _ | with_reducible exact keepsM_get _ | with_reducible refine keepsM_bind ?_ (fun _ => ?_) | with_reducible refine keepsM_mapM (fun _ => ?_) _ | with_reducible refine keepsM_forM (fun _ => ?_) _ | with_reducible refine keepsM_foldlM (fun _ _ => ?_) _ _ | with_reducible refine doSt_keeps _ (fun _ => ?_) | with_reducible refine askSt_keeps _ (fun _ => ?_) | (simp [kept @runEntry_fr, kept @vread_fr]; done) | (simp [*, kept @runEntry_fr, kept @vread_fr]; done) | split | dsimp only))

@[simp] theorem mergedRecords_beside (a : Who) (d : RDecl) (runs : List Nat) : KeepsM State.beside (mergedRecords a d runs) := by
  unfold mergedRecords; (repeat' (first | with_reducible exact keepsM_pure _ _ | with_reducible exact keepsM_throw _ _ | with_reducible exact keepsM_get _ | with_reducible refine keepsM_bind ?_ (fun _ => ?_) | with_reducible refine keepsM_mapM (fun _ => ?_) _ | with_reducible refine keepsM_forM (fun _ => ?_) _ | with_reducible refine keepsM_foldlM (fun _ _ => ?_) _ _ | with_reducible refine doSt_keeps _ (fun _ => ?_) | with_reducible refine askSt_keeps _ (fun _ => ?_) | (simp [kept @runEntry_fr, kept @vread_fr]; done) | (simp [*, kept @runEntry_fr, kept @vread_fr]; done) | split | dsimp only))

@[simp] theorem mergedRecords_apart (a : Who) (d : RDecl) (runs : List Nat) : KeepsM State.apart (mergedRecords a d runs) := by
  unfold mergedRecords; (repeat' (first | with_reducible exact keepsM_pure _ _ | with_reducible exact keepsM_throw _ _ | with_reducible exact keepsM_get _ | with_reducible refine keepsM_bind ?_ (fun _ => ?_) | with_reducible refine keepsM_mapM (fun _ => ?_) _ | with_reducible refine keepsM_forM (fun _ => ?_) _ | with_reducible refine keepsM_foldlM (fun _ _ => ?_) _ _ | with_reducible refine doSt_keeps _ (fun _ => ?_) | with_reducible refine askSt_keeps _ (fun _ => ?_) | (simp [kept @runEntry_fr, kept @vread_fr]; done) | (simp [*, kept @runEntry_fr, kept @vread_fr]; done) | split | dsimp only))

theorem mergedRecords_fr (a : Who) (d : RDecl) (runs : List Nat) : KeepsM State.free (mergedRecords a d runs) := by
  unfold mergedRecords; (repeat' (first | with_reducible exact keepsM_pure _ _ | with_reducible exact keepsM_throw _ _ | with_reducible exact keepsM_get _ | with_reducible refine keepsM_bind ?_ (fun _ => ?_) | with_reducible refine keepsM_mapM (fun _ => ?_) _ | with_reducible refine keepsM_forM (fun _ => ?_) _ | with_reducible refine keepsM_foldlM (fun _ _ => ?_) _ _ | with_reducible refine doSt_keeps _ (fun _ => ?_) | with_reducible refine askSt_keeps _ (fun _ => ?_) | (simp [kept @runEntry_fr, kept @vread_fr]; done) | (simp [*, kept @runEntry_fr, kept @vread_fr]; done) | split | dsimp only))

@[simp] theorem updPipe_beside (t : Task) (f : PipeSt → PipeSt) : KeepsM State.beside (updPipe t f) := by
  unfold updPipe; (repeat' (first | with_reducible exact keepsM_pure _ _ | with_reducible exact keepsM_throw _ _ | with_reducible exact keepsM_get _ | with_reducible refine keepsM_bind ?_ (fun _ => ?_) | with_reducible refine keepsM_mapM (fun _ => ?_) _ | with_reducible refine keepsM_forM (fun _ => ?_) _ | with_reducible refine keepsM_foldlM (fun _ _ => ?_) _ _ | with_reducible refine doSt_keeps _ (fun _ => ?_) | with_reducible refine askSt_keeps _ (fun _ => ?_) | (simp [kept @State.updRun_fr]; done) | (simp [*, kept @State.updRun_fr]; done) | split | dsimp only))

@[simp] theorem updPipe_apart (t : Task) (f : PipeSt → PipeSt) : KeepsM State.apart (updPipe t f) := by
  unfold updPipe; (repeat' (first | with_reducible exact keepsM_pure _ _ | with_reducible exact keepsM_throw _ _ | with_reducible exact keepsM_get _ | with_reducible refine keepsM_bind ?_ (fun _ => ?_) | with_reducible refine keepsM_mapM (fun _ => ?_) _ | with_reducible refine keepsM_forM (fun _ => ?_) _ | with_reducible refine keepsM_foldlM (fun _ _ => ?_) _ _ | with_reducible refine doSt_keeps _ (fun _ => ?_) | with_reducible refine askSt_keeps _ (fun _ => ?_) | (simp [kept @State.updRun_fr]; done) | (simp [*, kept @State.updRun_fr]; done) | split | dsimp only))

theorem updPipe_fr (t : Task) (f : PipeSt → PipeSt) : KeepsM State.mram (updPipe t f) ∧ KeepsM State.regs (updPipe t f) ∧ KeepsM State.wires (updPipe t f) ∧ KeepsM State.wq (updPipe t f) ∧ KeepsM State.pkg (updPipe t f) ∧ KeepsM State.pmc (updPipe t f) ∧ KeepsM State.fwLog (updPipe t f) ∧ KeepsM State.free (updPipe t f) := by
  refine ⟨?_, ?_, ?_, ?_, ?_, ?_, ?_, ?_⟩ <;> (unfold updPipe; (repeat' (first | with_reducible exact keepsM_pure _ _ | with_reducible exact keepsM_throw _ _ | with_reducible exact keepsM_get _ | with_reducible refine keepsM_bind ?_ (fun _ => ?_) | with_reducible refine keepsM_mapM (fun _ => ?_) _ | with_reducible refine keepsM_forM (fun _ => ?_) _ | with_reducible refine keepsM_foldlM (fun _ _ => ?_) _ _ | with_reducible refine doSt_keeps _ (fun _ => ?_) | with_reducible refine askSt_keeps _ (fun _ => ?_) | (simp [kept @State.updRun_fr]; done) | (simp [*, kept @State.updRun_fr]; done) | split | dsimp only)))

@[simp] theorem opMerge_beside (n : Nat) (c : OpCtx) (t : Task) : KeepsM State.beside (opMerge n c t) := by
  unfold opMerge; (repeat' (first | with_reducible exact keepsM_pure _ _ | with_reducible exact keepsM_throw _ _ | with_reducible exact keepsM_get _ | with_reducible refine keepsM_bind ?_ (fun _ => ?_) | with_reducible refine keepsM_mapM (fun _ => ?_) _ | with_reducible refine keepsM_forM (fun _ => ?_) _ | with_reducible refine keepsM_foldlM (fun _ _ => ?_) _ _ | with_reducible refine doSt_keeps _ (fun _ => ?_) | with_reducible refine askSt_keeps _ (fun _ => ?_) | (simp [kept @openRuns_fr, kept @updPipe_fr, kept @updTask_fr]; done) | (simp [*, kept @openRuns_fr, kept @updPipe_fr, kept @updTask_fr]; done) | split | dsimp only))

@[simp] theorem opMerge_apart (n : Nat) (c : OpCtx) (t : Task) : KeepsM State.apart (opMerge n c t) := by
  unfold opMerge; (repeat' (first | with_reducible exact keepsM_pure _ _ | with_reducible exact keepsM_throw _ _ | with_reducible exact keepsM_get _ | with_reducible refine keepsM_bind ?_ (fun _ => ?_) | with_reducible refine keepsM_mapM (fun _ => ?_) _ | with_reducible refine keepsM_forM (fun _ => ?_) _ | with_reducible refine keepsM_foldlM (fun _ _ => ?_) _ _ | with_reducible refine doSt_keeps _ (fun _ => ?_) | with_reducible refine askSt_keeps _ (fun _ => ?_) | (simp [kept @openRuns_fr, kept @updPipe_fr, kept @updTask_fr]; done) | (simp [*, kept @openRuns_fr, kept @updPipe_fr, kept @updTask_fr]; done) | split | dsimp only))

theorem opMerge_fr (n : Nat) (c : OpCtx) (t : Task) : KeepsM State.free (opMerge n c t) := by
  unfold opMerge; (repeat' (first | with_reducible exact keepsM_pure _ _ | with_reducible exact keepsM_throw _ _ | with_reducible exact keepsM_get _ | with_reducible refine keepsM_bind ?_ (fun _ => ?_) | with_reducible refine keepsM_mapM (fun _ => ?_) _ | with_reducible refine keepsM_forM (fun _ => ?_) _ | with_reducible refine keepsM_foldlM (fun _ _ => ?_) _ _ | with_reducible refine doSt_keeps _ (fun _ => ?_) | with_reducible refine askSt_keeps _ (fun _ => ?_) | (simp [kept @openRuns_fr, kept @updPipe_fr, kept @updTask_fr]; done) | (simp [*, kept @openRuns_fr, kept @updPipe_fr, kept @updTask_fr]; done) | split | dsimp only))

@[simp] theorem interMerge_beside (n : Nat) (c : OpCtx) (t : Task) : KeepsM State.beside (interMerge n c t) := by
  unfold interMerge; (repeat' (first | with_reducible exact keepsM_pure _ _ | with_reducible exact keepsM_throw _ _ | with_reducible exact keepsM_get _ | with_reducible refine keepsM_bind ?_ (fun _ => ?_) | with_reducible refine keepsM_mapM (fun _ => ?_) _ | with_reducible refine keepsM_forM (fun _ => ?_) _ | with_reducible refine keepsM_foldlM (fun _ _ => ?_) _ _ | with_reducible refine doSt_keeps _ (fun _ => ?_) | with_reducible refine askSt_keeps _ (fun _ => ?_) | (simp [kept @mergedRecords_fr, kept @preWrite_fr, kept @runEntry_fr, kept @updPipe_fr, kept @updTask_fr, kept @useArea_fr, kept @vwrite_fr, kept @writeRun_fr]; done) | (simp [*, kept @mergedRecords_fr, kept @preWrite_fr, kept @runEntry_fr, kept @updPipe_fr, kept @updTask_fr, kept @useArea_fr, kept @vwrite_fr, kept @writeRun_fr]; done) | split | dsimp only))

theorem interMerge_fr (n : Nat) (c : OpCtx) (t : Task) : KeepsM State.dm (interMerge n c t) := by
  unfold interMerge; (repeat' (first | with_reducible exact keepsM_pure _ _ | with_reducible exact keepsM_throw _ _ | with_reducible exact keepsM_get _ | with_reducible refine keepsM_bind ?_ (fun _ => ?_) | with_reducible refine keepsM_mapM (fun _ => ?_) _ | with_reducible refine keepsM_forM (fun _ => ?_) _ | with_reducible refine keepsM_foldlM (fun _ _ => ?_) _ _ | with_reducible refine doSt_keeps _ (fun _ => ?_) | with_reducible refine askSt_keeps _ (fun _ => ?_) | (simp [kept @mergedRecords_fr, kept @preWrite_fr, kept @runEntry_fr, kept @updPipe_fr, kept @updTask_fr, kept @useArea_fr, kept @vwrite_fr, kept @writeRun_fr]; done) | (simp [*, kept @mergedRecords_fr, kept @preWrite_fr, kept @runEntry_fr, kept @updPipe_fr, kept @updTask_fr, kept @useArea_fr, kept @vwrite_fr, kept @writeRun_fr]; done) | split | dsimp only))

@[simp] theorem finalMerge_beside (n : Nat) (c : OpCtx) (t : Task) : KeepsM State.beside (finalMerge n c t) := by
  unfold finalMerge; (repeat' (first | with_reducible exact keepsM_pure _ _ | with_reducible exact keepsM_throw _ _ | with_reducible exact keepsM_get _ | with_reducible refine keepsM_bind ?_ (fun _ => ?_) | with_reducible refine keepsM_mapM (fun _ => ?_) _ | with_reducible refine keepsM_forM (fun _ => ?_) _ | with_reducible refine keepsM_foldlM (fun _ _ => ?_) _ _ | with_reducible refine doSt_keeps _ (fun _ => ?_) | with_reducible refine askSt_keeps _ (fun _ => ?_) | (simp [kept @mergedRecords_fr, kept @pack_fr, kept @release_fr, kept @useArea_fr]; done) | (simp [*, kept @mergedRecords_fr, kept @pack_fr, kept @release_fr, kept @useArea_fr]; done) | split | dsimp only))

@[simp] theorem finalMerge_apart (n : Nat) (c : OpCtx) (t : Task) : KeepsM State.apart (finalMerge n c t) := by
  unfold finalMerge; (repeat' (first | with_reducible exact keepsM_pure _ _ | with_reducible exact keepsM_throw _ _ | with_reducible exact keepsM_get _ | with_reducible refine keepsM_bind ?_ (fun _ => ?_) | with_reducible refine keepsM_mapM (fun _ => ?_) _ | with_reducible refine keepsM_forM (fun _ => ?_) _ | with_reducible refine keepsM_foldlM (fun _ _ => ?_) _ _ | with_reducible refine doSt_keeps _ (fun _ => ?_) | with_reducible refine askSt_keeps _ (fun _ => ?_) | (simp [kept @mergedRecords_fr, kept @pack_fr, kept @release_fr, kept @useArea_fr]; done) | (simp [*, kept @mergedRecords_fr, kept @pack_fr, kept @release_fr, kept @useArea_fr]; done) | split | dsimp only))

@[simp] theorem opTopk_beside (n : Nat) (c : OpCtx) (t : Task) (b : Batch) : KeepsM State.beside (opTopk n c t b) := by
  unfold opTopk; (repeat' (first | with_reducible exact keepsM_pure _ _ | with_reducible exact keepsM_throw _ _ | with_reducible exact keepsM_get _ | with_reducible refine keepsM_bind ?_ (fun _ => ?_) | with_reducible refine keepsM_mapM (fun _ => ?_) _ | with_reducible refine keepsM_forM (fun _ => ?_) _ | with_reducible refine keepsM_foldlM (fun _ _ => ?_) _ _ | with_reducible refine doSt_keeps _ (fun _ => ?_) | with_reducible refine askSt_keeps _ (fun _ => ?_) | (simp [kept @batchOver_fr, kept @cbRead_fr, kept @readRegs_fr, kept @theTask_fr, kept @updTask_fr, kept @useArea_fr]; done) | (simp [*, kept @batchOver_fr, kept @cbRead_fr, kept @readRegs_fr, kept @theTask_fr, kept @updTask_fr, kept @useArea_fr]; done) | split | dsimp only))

@[simp] theorem opTopk_apart (n : Nat) (c : OpCtx) (t : Task) (b : Batch) : KeepsM State.apart (opTopk n c t b) := by
  unfold opTopk; (repeat' (first | with_reducible exact keepsM_pure _ _ | with_reducible exact keepsM_throw _ _ | with_reducible exact keepsM_get _ | with_reducible refine keepsM_bind ?_ (fun _ => ?_) | with_reducible refine keepsM_mapM (fun _ => ?_) _ | with_reducible refine keepsM_forM (fun _ => ?_) _ | with_reducible refine keepsM_foldlM (fun _ _ => ?_) _ _ | with_reducible refine doSt_keeps _ (fun _ => ?_) | with_reducible refine askSt_keeps _ (fun _ => ?_) | (simp [kept @batchOver_fr, kept @cbRead_fr, kept @readRegs_fr, kept @theTask_fr, kept @updTask_fr, kept @useArea_fr]; done) | (simp [*, kept @batchOver_fr, kept @cbRead_fr, kept @readRegs_fr, kept @theTask_fr, kept @updTask_fr, kept @useArea_fr]; done) | split | dsimp only))

theorem opTopk_fr (n : Nat) (c : OpCtx) (t : Task) (b : Batch) : KeepsM State.wires (opTopk n c t b) ∧ KeepsM State.wq (opTopk n c t b) ∧ KeepsM State.pkg (opTopk n c t b) ∧ KeepsM State.fwLog (opTopk n c t b) := by
  refine ⟨?_, ?_, ?_, ?_⟩ <;> (unfold opTopk; (repeat' (first | with_reducible exact keepsM_pure _ _ | with_reducible exact keepsM_throw _ _ | with_reducible exact keepsM_get _ | with_reducible refine keepsM_bind ?_ (fun _ => ?_) | with_reducible refine keepsM_mapM (fun _ => ?_) _ | with_reducible refine keepsM_forM (fun _ => ?_) _ | with_reducible refine keepsM_foldlM (fun _ _ => ?_) _ _ | with_reducible refine doSt_keeps _ (fun _ => ?_) | with_reducible refine askSt_keeps _ (fun _ => ?_) | (simp [kept @batchOver_fr, kept @cbRead_fr, kept @readRegs_fr, kept @theTask_fr, kept @updTask_fr, kept @useArea_fr]; done) | (simp [*, kept @batchOver_fr, kept @cbRead_fr, kept @readRegs_fr, kept @theTask_fr, kept @updTask_fr, kept @useArea_fr]; done) | split | dsimp only)))

@[simp] theorem gatherMerge_beside (n : Nat) (c : OpCtx) (t : Task) (m : TMsg) : KeepsM State.beside (gatherMerge n c t m) := by
  unfold gatherMerge; (repeat' (first | with_reducible exact keepsM_pure _ _ | with_reducible exact keepsM_throw _ _ | with_reducible exact keepsM_get _ | with_reducible refine keepsM_bind ?_ (fun _ => ?_) | with_reducible refine keepsM_mapM (fun _ => ?_) _ | with_reducible refine keepsM_forM (fun _ => ?_) _ | with_reducible refine keepsM_foldlM (fun _ _ => ?_) _ _ | with_reducible refine doSt_keeps _ (fun _ => ?_) | with_reducible refine askSt_keeps _ (fun _ => ?_) | (simp [kept @cbRead_fr, kept @cbStore_fr, kept @updPipe_fr]; done) | (simp [*, kept @cbRead_fr, kept @cbStore_fr, kept @updPipe_fr]; done) | split | dsimp only))

@[simp] theorem gatherMerge_apart (n : Nat) (c : OpCtx) (t : Task) (m : TMsg) : KeepsM State.apart (gatherMerge n c t m) := by
  unfold gatherMerge; (repeat' (first | with_reducible exact keepsM_pure _ _ | with_reducible exact keepsM_throw _ _ | with_reducible exact keepsM_get _ | with_reducible refine keepsM_bind ?_ (fun _ => ?_) | with_reducible refine keepsM_mapM (fun _ => ?_) _ | with_reducible refine keepsM_forM (fun _ => ?_) _ | with_reducible refine keepsM_foldlM (fun _ _ => ?_) _ _ | with_reducible refine doSt_keeps _ (fun _ => ?_) | with_reducible refine askSt_keeps _ (fun _ => ?_) | (simp [kept @cbRead_fr, kept @cbStore_fr, kept @updPipe_fr]; done) | (simp [*, kept @cbRead_fr, kept @cbStore_fr, kept @updPipe_fr]; done) | split | dsimp only))

theorem gatherMerge_fr (n : Nat) (c : OpCtx) (t : Task) (m : TMsg) : KeepsM State.wires (gatherMerge n c t m) ∧ KeepsM State.wq (gatherMerge n c t m) ∧ KeepsM State.pkg (gatherMerge n c t m) ∧ KeepsM State.fwLog (gatherMerge n c t m) := by
  refine ⟨?_, ?_, ?_, ?_⟩ <;> (unfold gatherMerge; (repeat' (first | with_reducible exact keepsM_pure _ _ | with_reducible exact keepsM_throw _ _ | with_reducible exact keepsM_get _ | with_reducible refine keepsM_bind ?_ (fun _ => ?_) | with_reducible refine keepsM_mapM (fun _ => ?_) _ | with_reducible refine keepsM_forM (fun _ => ?_) _ | with_reducible refine keepsM_foldlM (fun _ _ => ?_) _ _ | with_reducible refine doSt_keeps _ (fun _ => ?_) | with_reducible refine askSt_keeps _ (fun _ => ?_) | (simp [kept @cbRead_fr, kept @cbStore_fr, kept @updPipe_fr]; done) | (simp [*, kept @cbRead_fr, kept @cbStore_fr, kept @updPipe_fr]; done) | split | dsimp only)))

theorem State.gatherRows_fr (s : State) (n : Nat) : (State.gatherRows s n).pending = s.pending ∧ (State.gatherRows s n).flash = s.flash ∧ (State.gatherRows s n).coldOpt = s.coldOpt ∧ (State.gatherRows s n).imsic = s.imsic ∧ (State.gatherRows s n).dm = s.dm ∧ (State.gatherRows s n).ctu = s.ctu ∧ (State.gatherRows s n).links = s.links ∧ (State.gatherRows s n).aplicS = s.aplicS ∧ (State.gatherRows s n).aplicN = s.aplicN ∧ (State.gatherRows s n).credits = s.credits ∧ (State.gatherRows s n).pkts = s.pkts ∧ (State.gatherRows s n).resp = s.resp ∧ (State.gatherRows s n).fabric = s.fabric ∧ (State.gatherRows s n).files = s.files := by
  generalize h : State.gatherRows s n = u
  unfold State.gatherRows at h
  (try dsimp only at h); (repeat' split at h) <;> (rw [← h]; simp (disch := (intros; (repeat' split) <;> simp [*, kept @State.eng'_fr, kept @gatherMerge_fr])) [kept @State.eng'_fr, kept @gatherMerge_fr])

@[simp] theorem opPartition_beside (n : Nat) (c : OpCtx) (t : Task) (b : Batch) : KeepsM State.beside (opPartition n c t b) := by
  unfold opPartition; (repeat' (first | with_reducible exact keepsM_pure _ _ | with_reducible exact keepsM_throw _ _ | with_reducible exact keepsM_get _ | with_reducible refine keepsM_bind ?_ (fun _ => ?_) | with_reducible refine keepsM_mapM (fun _ => ?_) _ | with_reducible refine keepsM_forM (fun _ => ?_) _ | with_reducible refine keepsM_foldlM (fun _ _ => ?_) _ _ | with_reducible refine doSt_keeps _ (fun _ => ?_) | with_reducible refine askSt_keeps _ (fun _ => ?_) | (simp [kept @State.eng'_fr, kept @opDone_fr, kept @readRegs_fr, kept @sinkRows_fr, kept @useArea_fr]; done) | (simp [*, kept @State.eng'_fr, kept @opDone_fr, kept @readRegs_fr, kept @sinkRows_fr, kept @useArea_fr]; done) | split | dsimp only))

theorem opPartition_fr (n : Nat) (c : OpCtx) (t : Task) (b : Batch) : KeepsM State.dm (opPartition n c t b) := by
  unfold opPartition; (repeat' (first | with_reducible exact keepsM_pure _ _ | with_reducible exact keepsM_throw _ _ | with_reducible exact keepsM_get _ | with_reducible refine keepsM_bind ?_ (fun _ => ?_) | with_reducible refine keepsM_mapM (fun _ => ?_) _ | with_reducible refine keepsM_forM (fun _ => ?_) _ | with_reducible refine keepsM_foldlM (fun _ _ => ?_) _ _ | with_reducible refine doSt_keeps _ (fun _ => ?_) | with_reducible refine askSt_keeps _ (fun _ => ?_) | (simp [kept @State.eng'_fr, kept @opDone_fr, kept @readRegs_fr, kept @sinkRows_fr, kept @useArea_fr]; done) | (simp [*, kept @State.eng'_fr, kept @opDone_fr, kept @readRegs_fr, kept @sinkRows_fr, kept @useArea_fr]; done) | split | dsimp only))

theorem State.spillPlace_fr (s : State) (ctx : Nat) (m : XMsg) (bytes : Nat) : (State.spillPlace s ctx m bytes).2.pending = s.pending ∧ (State.spillPlace s ctx m bytes).2.flash = s.flash ∧ (State.spillPlace s ctx m bytes).2.coldOpt = s.coldOpt ∧ (State.spillPlace s ctx m bytes).2.mem = s.mem ∧ (State.spillPlace s ctx m bytes).2.harts = s.harts ∧ (State.spillPlace s ctx m bytes).2.mram = s.mram ∧ (State.spillPlace s ctx m bytes).2.imsic = s.imsic ∧ (State.spillPlace s ctx m bytes).2.dm = s.dm ∧ (State.spillPlace s ctx m bytes).2.fx = s.fx ∧ (State.spillPlace s ctx m bytes).2.ctu = s.ctu ∧ (State.spillPlace s ctx m bytes).2.links = s.links ∧ (State.spillPlace s ctx m bytes).2.aplicS = s.aplicS ∧ (State.spillPlace s ctx m bytes).2.aplicN = s.aplicN ∧ (State.spillPlace s ctx m bytes).2.credits = s.credits ∧ (State.spillPlace s ctx m bytes).2.clusters = s.clusters ∧ (State.spillPlace s ctx m bytes).2.homes = s.homes ∧ (State.spillPlace s ctx m bytes).2.pkts = s.pkts ∧ (State.spillPlace s ctx m bytes).2.resp = s.resp ∧ (State.spillPlace s ctx m bytes).2.wires = s.wires ∧ (State.spillPlace s ctx m bytes).2.dmg = s.dmg ∧ (State.spillPlace s ctx m bytes).2.wq = s.wq ∧ (State.spillPlace s ctx m bytes).2.net = s.net ∧ (State.spillPlace s ctx m bytes).2.dbInval = s.dbInval ∧ (State.spillPlace s ctx m bytes).2.watch = s.watch ∧ (State.spillPlace s ctx m bytes).2.pkg = s.pkg ∧ (State.spillPlace s ctx m bytes).2.pmc = s.pmc ∧ (State.spillPlace s ctx m bytes).2.fwLog = s.fwLog ∧ (State.spillPlace s ctx m bytes).2.out = s.out ∧ (State.spillPlace s ctx m bytes).2.free = s.free ∧ (State.spillPlace s ctx m bytes).2.fabric = s.fabric ∧ (State.spillPlace s ctx m bytes).2.files = s.files := by
  generalize h : (State.spillPlace s ctx m bytes).2 = u
  unfold State.spillPlace at h
  dsimp only at h
  split at h
  · rw [← h]; simp [kept @State.allocChunk_fr, kept @State.updRun_fr]
  · split at h <;> rename_i e <;> have e := congrArg Prod.snd e <;> dsimp only at e <;> subst e <;> rw [← h] <;> simp [kept @State.allocChunk_fr, kept @State.updRun_fr]

theorem State.spillOne_fr (s : State) (n : Nat) (i : Nat) : (State.spillOne s n i).pending = s.pending ∧ (State.spillOne s n i).flash = s.flash ∧ (State.spillOne s n i).coldOpt = s.coldOpt ∧ (State.spillOne s n i).imsic = s.imsic ∧ (State.spillOne s n i).dm = s.dm ∧ (State.spillOne s n i).fx = s.fx ∧ (State.spillOne s n i).ctu = s.ctu ∧ (State.spillOne s n i).links = s.links ∧ (State.spillOne s n i).aplicS = s.aplicS ∧ (State.spillOne s n i).aplicN = s.aplicN ∧ (State.spillOne s n i).credits = s.credits ∧ (State.spillOne s n i).pkts = s.pkts ∧ (State.spillOne s n i).resp = s.resp ∧ (State.spillOne s n i).out = s.out ∧ (State.spillOne s n i).fabric = s.fabric ∧ (State.spillOne s n i).files = s.files := by
  generalize h : State.spillOne s n i = u
  unfold State.spillOne at h
  split at h
  · rw [← h]; simp
  · dsimp only at h
    split at h <;> rename_i e <;> have e := congrArg Prod.snd e <;> dsimp only at e <;> subst e <;> rw [← h] <;> simp [kept @State.draw_fr, kept @State.fixRun_fr, kept @State.setSlice_fr, kept @State.spillPlace_fr, kept @State.writePa_fr]

theorem State.moveFlits_fr (s : State) (m : XMsg) : (State.moveFlits s m).2.pending = s.pending ∧ (State.moveFlits s m).2.flash = s.flash ∧ (State.moveFlits s m).2.coldOpt = s.coldOpt ∧ (State.moveFlits s m).2.imsic = s.imsic ∧ (State.moveFlits s m).2.dm = s.dm ∧ (State.moveFlits s m).2.fx = s.fx ∧ (State.moveFlits s m).2.ctu = s.ctu ∧ (State.moveFlits s m).2.links = s.links ∧ (State.moveFlits s m).2.aplicS = s.aplicS ∧ (State.moveFlits s m).2.aplicN = s.aplicN ∧ (State.moveFlits s m).2.credits = s.credits ∧ (State.moveFlits s m).2.pkts = s.pkts ∧ (State.moveFlits s m).2.resp = s.resp ∧ (State.moveFlits s m).2.out = s.out ∧ (State.moveFlits s m).2.free = s.free ∧ (State.moveFlits s m).2.fabric = s.fabric ∧ (State.moveFlits s m).2.files = s.files := by
  generalize h : (State.moveFlits s m).2 = u
  unfold State.moveFlits at h
  (try dsimp only at h); (repeat' split at h) <;> rw [← h] <;> simp [kept @State.fixRun_fr, kept @State.writePa_fr]

theorem State.spillPart_fr (s : State) (i : Nat) : (State.spillPart s i).pending = s.pending ∧ (State.spillPart s i).flash = s.flash ∧ (State.spillPart s i).coldOpt = s.coldOpt ∧ (State.spillPart s i).imsic = s.imsic ∧ (State.spillPart s i).dm = s.dm ∧ (State.spillPart s i).fx = s.fx ∧ (State.spillPart s i).ctu = s.ctu ∧ (State.spillPart s i).links = s.links ∧ (State.spillPart s i).aplicS = s.aplicS ∧ (State.spillPart s i).aplicN = s.aplicN ∧ (State.spillPart s i).credits = s.credits ∧ (State.spillPart s i).pkts = s.pkts ∧ (State.spillPart s i).resp = s.resp ∧ (State.spillPart s i).out = s.out ∧ (State.spillPart s i).fabric = s.fabric ∧ (State.spillPart s i).files = s.files := by
  generalize h : State.spillPart s i = u
  unfold State.spillPart at h
  split at h
  · rw [← h]; simp
  · dsimp only at h
    split at h <;> rename_i e <;> have e := congrArg Prod.snd e <;> dsimp only at e <;> subst e <;> rw [← h] <;> simp [kept @State.draw_fr, kept @State.eng'_fr, kept @State.fixRun_fr, kept @State.moveFlits_fr, kept @State.spillPlace_fr]

theorem State.drainRecv_fr (s : State) (n : Nat) : (State.drainRecv s n).pending = s.pending ∧ (State.drainRecv s n).flash = s.flash ∧ (State.drainRecv s n).coldOpt = s.coldOpt ∧ (State.drainRecv s n).imsic = s.imsic ∧ (State.drainRecv s n).dm = s.dm ∧ (State.drainRecv s n).fx = s.fx ∧ (State.drainRecv s n).ctu = s.ctu ∧ (State.drainRecv s n).links = s.links ∧ (State.drainRecv s n).aplicS = s.aplicS ∧ (State.drainRecv s n).aplicN = s.aplicN ∧ (State.drainRecv s n).credits = s.credits ∧ (State.drainRecv s n).pkts = s.pkts ∧ (State.drainRecv s n).resp = s.resp ∧ (State.drainRecv s n).out = s.out ∧ (State.drainRecv s n).fabric = s.fabric ∧ (State.drainRecv s n).files = s.files := by
  have k {β : Type} (g : State → β) (hg : ∀ s i, g (State.spillOne s n i) = g s) (hp : ∀ s i, g (State.spillPart s i) = g s) :
      g (State.drainRecv s n) = g s := by
    simp only [State.drainRecv]
    rw [foldl_keeps g, foldl_keeps g]
    · intro s i
      (repeat' split) <;> first | rfl | exact hg _ _
    · intro s i
      (repeat' split) <;> first | rfl | exact hp _ _
  (repeat' apply And.intro) <;> (refine k _ (fun s i => ?_) (fun s i => ?_) <;> simp [kept @State.spillOne_fr, kept @State.spillPart_fr])

theorem State.takeExchange_fr (s : State) (n : Nat) : (State.takeExchange s n).pending = s.pending ∧ (State.takeExchange s n).flash = s.flash ∧ (State.takeExchange s n).coldOpt = s.coldOpt ∧ (State.takeExchange s n).imsic = s.imsic ∧ (State.takeExchange s n).dm = s.dm ∧ (State.takeExchange s n).fx = s.fx ∧ (State.takeExchange s n).ctu = s.ctu ∧ (State.takeExchange s n).links = s.links ∧ (State.takeExchange s n).aplicS = s.aplicS ∧ (State.takeExchange s n).aplicN = s.aplicN ∧ (State.takeExchange s n).credits = s.credits ∧ (State.takeExchange s n).pkts = s.pkts ∧ (State.takeExchange s n).resp = s.resp ∧ (State.takeExchange s n).out = s.out ∧ (State.takeExchange s n).fabric = s.fabric ∧ (State.takeExchange s n).files = s.files := by
  generalize h : State.takeExchange s n = u
  unfold State.takeExchange at h
  (try dsimp only at h); (repeat' split at h) <;> rw [← h] <;> simp [kept @State.cbWrite_fr, kept @State.drainRecv_fr, kept @State.eng'_fr, kept @State.moveFlits_fr, kept @State.setSlice_fr]

@[simp] theorem recvRows_beside (t : Task) (q : RMsg) (k : Nat) : KeepsM State.beside (recvRows t q k) := by
  unfold recvRows; (repeat' (first | with_reducible exact keepsM_pure _ _ | with_reducible exact keepsM_throw _ _ | with_reducible exact keepsM_get _ | with_reducible refine keepsM_bind ?_ (fun _ => ?_) | with_reducible refine keepsM_mapM (fun _ => ?_) _ | with_reducible refine keepsM_forM (fun _ => ?_) _ | with_reducible refine keepsM_foldlM (fun _ _ => ?_) _ _ | with_reducible refine doSt_keeps _ (fun _ => ?_) | with_reducible refine askSt_keeps _ (fun _ => ?_) | (simp [kept @pread_fr]; done) | (simp [*, kept @pread_fr]; done) | split | dsimp only))

@[simp] theorem recvRows_apart (t : Task) (q : RMsg) (k : Nat) : KeepsM State.apart (recvRows t q k) := by
  unfold recvRows; (repeat' (first | with_reducible exact keepsM_pure _ _ | with_reducible exact keepsM_throw _ _ | with_reducible exact keepsM_get _ | with_reducible refine keepsM_bind ?_ (fun _ => ?_) | with_reducible refine keepsM_mapM (fun _ => ?_) _ | with_reducible refine keepsM_forM (fun _ => ?_) _ | with_reducible refine keepsM_foldlM (fun _ _ => ?_) _ _ | with_reducible refine doSt_keeps _ (fun _ => ?_) | with_reducible refine askSt_keeps _ (fun _ => ?_) | (simp [kept @pread_fr]; done) | (simp [*, kept @pread_fr]; done) | split | dsimp only))

theorem recvRows_fr (t : Task) (q : RMsg) (k : Nat) : KeepsM State.eng (recvRows t q k) ∧ KeepsM State.free (recvRows t q k) := by
  refine ⟨?_, ?_⟩ <;> (unfold recvRows; (repeat' (first | with_reducible exact keepsM_pure _ _ | with_reducible exact keepsM_throw _ _ | with_reducible exact keepsM_get _ | with_reducible refine keepsM_bind ?_ (fun _ => ?_) | with_reducible refine keepsM_mapM (fun _ => ?_) _ | with_reducible refine keepsM_forM (fun _ => ?_) _ | with_reducible refine keepsM_foldlM (fun _ _ => ?_) _ _ | with_reducible refine doSt_keeps _ (fun _ => ?_) | with_reducible refine askSt_keeps _ (fun _ => ?_) | (simp [kept @pread_fr]; done) | (simp [*, kept @pread_fr]; done) | split | dsimp only)))

@[simp] theorem drawRows_beside (k : Nat) : KeepsM State.beside (drawRows k) := by
  unfold drawRows; (repeat' (first | with_reducible exact keepsM_pure _ _ | with_reducible exact keepsM_throw _ _ | with_reducible exact keepsM_get _ | with_reducible refine keepsM_bind ?_ (fun _ => ?_) | with_reducible refine keepsM_mapM (fun _ => ?_) _ | with_reducible refine keepsM_forM (fun _ => ?_) _ | with_reducible refine keepsM_foldlM (fun _ _ => ?_) _ _ | with_reducible refine doSt_keeps _ (fun _ => ?_) | with_reducible refine askSt_keeps _ (fun _ => ?_) | (simp [kept @State.draw_fr]; done) | (simp [*, kept @State.draw_fr]; done) | split | dsimp only))

@[simp] theorem drawRows_apart (k : Nat) : KeepsM State.apart (drawRows k) := by
  unfold drawRows; (repeat' (first | with_reducible exact keepsM_pure _ _ | with_reducible exact keepsM_throw _ _ | with_reducible exact keepsM_get _ | with_reducible refine keepsM_bind ?_ (fun _ => ?_) | with_reducible refine keepsM_mapM (fun _ => ?_) _ | with_reducible refine keepsM_forM (fun _ => ?_) _ | with_reducible refine keepsM_foldlM (fun _ _ => ?_) _ _ | with_reducible refine doSt_keeps _ (fun _ => ?_) | with_reducible refine askSt_keeps _ (fun _ => ?_) | (simp [kept @State.draw_fr]; done) | (simp [*, kept @State.draw_fr]; done) | split | dsimp only))

theorem drawRows_fr (k : Nat) : KeepsM State.mram (drawRows k) ∧ KeepsM State.eng (drawRows k) ∧ KeepsM State.regs (drawRows k) ∧ KeepsM State.wires (drawRows k) ∧ KeepsM State.wq (drawRows k) ∧ KeepsM State.pkg (drawRows k) ∧ KeepsM State.pmc (drawRows k) ∧ KeepsM State.fwLog (drawRows k) := by
  refine ⟨?_, ?_, ?_, ?_, ?_, ?_, ?_, ?_⟩ <;> (unfold drawRows; (repeat' (first | with_reducible exact keepsM_pure _ _ | with_reducible exact keepsM_throw _ _ | with_reducible exact keepsM_get _ | with_reducible refine keepsM_bind ?_ (fun _ => ?_) | with_reducible refine keepsM_mapM (fun _ => ?_) _ | with_reducible refine keepsM_forM (fun _ => ?_) _ | with_reducible refine keepsM_foldlM (fun _ _ => ?_) _ _ | with_reducible refine doSt_keeps _ (fun _ => ?_) | with_reducible refine askSt_keeps _ (fun _ => ?_) | (simp [kept @State.draw_fr]; done) | (simp [*, kept @State.draw_fr]; done) | split | dsimp only)))

@[simp] theorem opRecv_beside (n : Nat) (c : OpCtx) (t : Task) : KeepsM State.beside (opRecv n c t) := by
  unfold opRecv; (repeat' (first | with_reducible exact keepsM_pure _ _ | with_reducible exact keepsM_throw _ _ | with_reducible exact keepsM_get _ | with_reducible refine keepsM_bind ?_ (fun _ => ?_) | with_reducible refine keepsM_mapM (fun _ => ?_) _ | with_reducible refine keepsM_forM (fun _ => ?_) _ | with_reducible refine keepsM_foldlM (fun _ _ => ?_) _ _ | with_reducible refine doSt_keeps _ (fun _ => ?_) | with_reducible refine askSt_keeps _ (fun _ => ?_) | (simp [kept @State.setSlice_fr, kept @cbRead_fr, kept @drawRows_fr, kept @pack_fr, kept @recvRows_fr, kept @release_fr, kept @theTask_fr]; done) | (simp [*, kept @State.setSlice_fr, kept @cbRead_fr, kept @drawRows_fr, kept @pack_fr, kept @recvRows_fr, kept @release_fr, kept @theTask_fr]; done) | split | dsimp only))

@[simp] theorem opRecv_apart (n : Nat) (c : OpCtx) (t : Task) : KeepsM State.apart (opRecv n c t) := by
  unfold opRecv; (repeat' (first | with_reducible exact keepsM_pure _ _ | with_reducible exact keepsM_throw _ _ | with_reducible exact keepsM_get _ | with_reducible refine keepsM_bind ?_ (fun _ => ?_) | with_reducible refine keepsM_mapM (fun _ => ?_) _ | with_reducible refine keepsM_forM (fun _ => ?_) _ | with_reducible refine keepsM_foldlM (fun _ _ => ?_) _ _ | with_reducible refine doSt_keeps _ (fun _ => ?_) | with_reducible refine askSt_keeps _ (fun _ => ?_) | (simp [kept @State.setSlice_fr, kept @cbRead_fr, kept @drawRows_fr, kept @pack_fr, kept @recvRows_fr, kept @release_fr, kept @theTask_fr]; done) | (simp [*, kept @State.setSlice_fr, kept @cbRead_fr, kept @drawRows_fr, kept @pack_fr, kept @recvRows_fr, kept @release_fr, kept @theTask_fr]; done) | split | dsimp only))

@[simp] theorem level0Row_beside (n : Nat) (c : OpCtx) (t : Task) (d : TDecl) (e : AggEnt) : KeepsM State.beside (level0Row n c t d e) := by
  unfold level0Row; (repeat' (first | with_reducible exact keepsM_pure _ _ | with_reducible exact keepsM_throw _ _ | with_reducible exact keepsM_get _ | with_reducible refine keepsM_bind ?_ (fun _ => ?_) | with_reducible refine keepsM_mapM (fun _ => ?_) _ | with_reducible refine keepsM_forM (fun _ => ?_) _ | with_reducible refine keepsM_foldlM (fun _ _ => ?_) _ _ | with_reducible refine doSt_keeps _ (fun _ => ?_) | with_reducible refine askSt_keeps _ (fun _ => ?_) | (simp [kept @aggPut_fr, kept @aggRead_fr]; done) | (simp [*, kept @aggPut_fr, kept @aggRead_fr]; done) | split | dsimp only))

@[simp] theorem level0Row_apart (n : Nat) (c : OpCtx) (t : Task) (d : TDecl) (e : AggEnt) : KeepsM State.apart (level0Row n c t d e) := by
  unfold level0Row; (repeat' (first | with_reducible exact keepsM_pure _ _ | with_reducible exact keepsM_throw _ _ | with_reducible exact keepsM_get _ | with_reducible refine keepsM_bind ?_ (fun _ => ?_) | with_reducible refine keepsM_mapM (fun _ => ?_) _ | with_reducible refine keepsM_forM (fun _ => ?_) _ | with_reducible refine keepsM_foldlM (fun _ _ => ?_) _ _ | with_reducible refine doSt_keeps _ (fun _ => ?_) | with_reducible refine askSt_keeps _ (fun _ => ?_) | (simp [kept @aggPut_fr, kept @aggRead_fr]; done) | (simp [*, kept @aggPut_fr, kept @aggRead_fr]; done) | split | dsimp only))

theorem level0Row_fr (n : Nat) (c : OpCtx) (t : Task) (d : TDecl) (e : AggEnt) : KeepsM State.wires (level0Row n c t d e) ∧ KeepsM State.wq (level0Row n c t d e) ∧ KeepsM State.pkg (level0Row n c t d e) ∧ KeepsM State.fwLog (level0Row n c t d e) := by
  refine ⟨?_, ?_, ?_, ?_⟩ <;> (unfold level0Row; (repeat' (first | with_reducible exact keepsM_pure _ _ | with_reducible exact keepsM_throw _ _ | with_reducible exact keepsM_get _ | with_reducible refine keepsM_bind ?_ (fun _ => ?_) | with_reducible refine keepsM_mapM (fun _ => ?_) _ | with_reducible refine keepsM_forM (fun _ => ?_) _ | with_reducible refine keepsM_foldlM (fun _ _ => ?_) _ _ | with_reducible refine doSt_keeps _ (fun _ => ?_) | with_reducible refine askSt_keeps _ (fun _ => ?_) | (simp [kept @aggPut_fr, kept @aggRead_fr]; done) | (simp [*, kept @aggPut_fr, kept @aggRead_fr]; done) | split | dsimp only)))

@[simp] theorem level0Recs_beside (t : Task) (d : TDecl) (chunks : List Nat) (lastN : Nat) : KeepsM State.beside (level0Recs t d chunks lastN) := by
  unfold level0Recs; (repeat' (first | with_reducible exact keepsM_pure _ _ | with_reducible exact keepsM_throw _ _ | with_reducible exact keepsM_get _ | with_reducible refine keepsM_bind ?_ (fun _ => ?_) | with_reducible refine keepsM_mapM (fun _ => ?_) _ | with_reducible refine keepsM_forM (fun _ => ?_) _ | with_reducible refine keepsM_foldlM (fun _ _ => ?_) _ _ | with_reducible refine doSt_keeps _ (fun _ => ?_) | with_reducible refine askSt_keeps _ (fun _ => ?_) | (simp [kept @pread_fr]; done) | (simp [*, kept @pread_fr]; done) | split | dsimp only))

@[simp] theorem level0Recs_apart (t : Task) (d : TDecl) (chunks : List Nat) (lastN : Nat) : KeepsM State.apart (level0Recs t d chunks lastN) := by
  unfold level0Recs; (repeat' (first | with_reducible exact keepsM_pure _ _ | with_reducible exact keepsM_throw _ _ | with_reducible exact keepsM_get _ | with_reducible refine keepsM_bind ?_ (fun _ => ?_) | with_reducible refine keepsM_mapM (fun _ => ?_) _ | with_reducible refine keepsM_forM (fun _ => ?_) _ | with_reducible refine keepsM_foldlM (fun _ _ => ?_) _ _ | with_reducible refine doSt_keeps _ (fun _ => ?_) | with_reducible refine askSt_keeps _ (fun _ => ?_) | (simp [kept @pread_fr]; done) | (simp [*, kept @pread_fr]; done) | split | dsimp only))

theorem level0Recs_fr (t : Task) (d : TDecl) (chunks : List Nat) (lastN : Nat) : KeepsM State.eng (level0Recs t d chunks lastN) ∧ KeepsM State.free (level0Recs t d chunks lastN) := by
  refine ⟨?_, ?_⟩ <;> (unfold level0Recs; (repeat' (first | with_reducible exact keepsM_pure _ _ | with_reducible exact keepsM_throw _ _ | with_reducible exact keepsM_get _ | with_reducible refine keepsM_bind ?_ (fun _ => ?_) | with_reducible refine keepsM_mapM (fun _ => ?_) _ | with_reducible refine keepsM_forM (fun _ => ?_) _ | with_reducible refine keepsM_foldlM (fun _ _ => ?_) _ _ | with_reducible refine doSt_keeps _ (fun _ => ?_) | with_reducible refine askSt_keeps _ (fun _ => ?_) | (simp [kept @pread_fr]; done) | (simp [*, kept @pread_fr]; done) | split | dsimp only)))

@[simp] theorem level0Merge_beside (n : Nat) (c : OpCtx) (t : Task) (part : Nat) : KeepsM State.beside (level0Merge n c t part) := by
  unfold level0Merge; (repeat' (first | with_reducible exact keepsM_pure _ _ | with_reducible exact keepsM_throw _ _ | with_reducible exact keepsM_get _ | with_reducible refine keepsM_bind ?_ (fun _ => ?_) | with_reducible refine keepsM_mapM (fun _ => ?_) _ | with_reducible refine keepsM_forM (fun _ => ?_) _ | with_reducible refine keepsM_foldlM (fun _ _ => ?_) _ _ | with_reducible refine doSt_keeps _ (fun _ => ?_) | with_reducible refine askSt_keeps _ (fun _ => ?_) | (simp [kept @State.setSlice_fr, kept @aggRead_fr, kept @issue_fr, kept @level0Recs_fr, kept @level0Row_fr, kept @sealFlits_fr, kept @updTask_fr]; done) | (simp [*, kept @State.setSlice_fr, kept @aggRead_fr, kept @issue_fr, kept @level0Recs_fr, kept @level0Row_fr, kept @sealFlits_fr, kept @updTask_fr]; done) | split | dsimp only))

@[simp] theorem level0Merge_apart (n : Nat) (c : OpCtx) (t : Task) (part : Nat) : KeepsM State.apart (level0Merge n c t part) := by
  unfold level0Merge; (repeat' (first | with_reducible exact keepsM_pure _ _ | with_reducible exact keepsM_throw _ _ | with_reducible exact keepsM_get _ | with_reducible refine keepsM_bind ?_ (fun _ => ?_) | with_reducible refine keepsM_mapM (fun _ => ?_) _ | with_reducible refine keepsM_forM (fun _ => ?_) _ | with_reducible refine keepsM_foldlM (fun _ _ => ?_) _ _ | with_reducible refine doSt_keeps _ (fun _ => ?_) | with_reducible refine askSt_keeps _ (fun _ => ?_) | (simp [kept @State.setSlice_fr, kept @aggRead_fr, kept @issue_fr, kept @level0Recs_fr, kept @level0Row_fr, kept @sealFlits_fr, kept @updTask_fr]; done) | (simp [*, kept @State.setSlice_fr, kept @aggRead_fr, kept @issue_fr, kept @level0Recs_fr, kept @level0Row_fr, kept @sealFlits_fr, kept @updTask_fr]; done) | split | dsimp only))

theorem State.decided_fr (s : State) (el : List Nat) (w : Nat) : (State.decided s el w).pending = s.pending ∧ (State.decided s el w).flash = s.flash ∧ (State.decided s el w).coldOpt = s.coldOpt ∧ (State.decided s el w).mem = s.mem ∧ (State.decided s el w).harts = s.harts ∧ (State.decided s el w).mram = s.mram ∧ (State.decided s el w).imsic = s.imsic ∧ (State.decided s el w).dm = s.dm ∧ (State.decided s el w).fx = s.fx ∧ (State.decided s el w).ctu = s.ctu ∧ (State.decided s el w).links = s.links ∧ (State.decided s el w).aplicS = s.aplicS ∧ (State.decided s el w).aplicN = s.aplicN ∧ (State.decided s el w).credits = s.credits ∧ (State.decided s el w).clusters = s.clusters ∧ (State.decided s el w).homes = s.homes ∧ (State.decided s el w).pkts = s.pkts ∧ (State.decided s el w).resp = s.resp ∧ (State.decided s el w).regs = s.regs ∧ (State.decided s el w).wires = s.wires ∧ (State.decided s el w).dmg = s.dmg ∧ (State.decided s el w).wq = s.wq ∧ (State.decided s el w).net = s.net ∧ (State.decided s el w).dbInval = s.dbInval ∧ (State.decided s el w).watch = s.watch ∧ (State.decided s el w).pkg = s.pkg ∧ (State.decided s el w).pmc = s.pmc ∧ (State.decided s el w).fwLog = s.fwLog ∧ (State.decided s el w).out = s.out ∧ (State.decided s el w).free = s.free ∧ (State.decided s el w).fabric = s.fabric ∧ (State.decided s el w).files = s.files := by
  generalize h : State.decided s el w = u
  unfold State.decided at h
  rw [← h]; simp [kept @State.eng'_fr]

theorem State.tellMerge_fr (s : State) (n : Nat) (d : Desc) (pipe : Nat) : (State.tellMerge s n d pipe).pending = s.pending ∧ (State.tellMerge s n d pipe).flash = s.flash ∧ (State.tellMerge s n d pipe).coldOpt = s.coldOpt ∧ (State.tellMerge s n d pipe).mem = s.mem ∧ (State.tellMerge s n d pipe).harts = s.harts ∧ (State.tellMerge s n d pipe).imsic = s.imsic ∧ (State.tellMerge s n d pipe).dm = s.dm ∧ (State.tellMerge s n d pipe).fx = s.fx ∧ (State.tellMerge s n d pipe).ctu = s.ctu ∧ (State.tellMerge s n d pipe).links = s.links ∧ (State.tellMerge s n d pipe).aplicS = s.aplicS ∧ (State.tellMerge s n d pipe).aplicN = s.aplicN ∧ (State.tellMerge s n d pipe).credits = s.credits ∧ (State.tellMerge s n d pipe).clusters = s.clusters ∧ (State.tellMerge s n d pipe).homes = s.homes ∧ (State.tellMerge s n d pipe).pkts = s.pkts ∧ (State.tellMerge s n d pipe).resp = s.resp ∧ (State.tellMerge s n d pipe).dmg = s.dmg ∧ (State.tellMerge s n d pipe).net = s.net ∧ (State.tellMerge s n d pipe).dbInval = s.dbInval ∧ (State.tellMerge s n d pipe).watch = s.watch ∧ (State.tellMerge s n d pipe).out = s.out ∧ (State.tellMerge s n d pipe).free = s.free ∧ (State.tellMerge s n d pipe).fabric = s.fabric ∧ (State.tellMerge s n d pipe).files = s.files := by
  generalize h : State.tellMerge s n d pipe = u
  have ho : ∀ a b, (ExceptT.run (openRuns a b) s).2.beside = s.beside := fun a b => openRuns_beside a b s
  have ha : ∀ a b, (ExceptT.run (openRuns a b) s).2.apart = s.apart := fun a b => openRuns_apart a b s
  have hf : ∀ a b, (ExceptT.run (openRuns a b) s).2.free = s.free := fun a b => openRuns_fr a b s
  simp only [State.beside_eq] at ho
  simp only [State.apart_eq] at ha
  unfold State.tellMerge at h
  dsimp only at h
  (repeat' split at h) <;> (try (rename _ = (Except.ok _, _) => e; have hs := congrArg Prod.snd e; dsimp only at hs; subst hs)) <;>
    (try dsimp only at h) <;> rw [← h] <;> simp [ho, ha, hf, kept @State.setTask_fr, kept @State.updRun_fr, kept @openRuns_fr]

theorem State.giveTask_fr (s : State) (n : Nat) (d : Desc) (pipe : Nat) (kind : TaskKind) : (State.giveTask s n d pipe kind).pending = s.pending ∧ (State.giveTask s n d pipe kind).flash = s.flash ∧ (State.giveTask s n d pipe kind).coldOpt = s.coldOpt ∧ (State.giveTask s n d pipe kind).imsic = s.imsic ∧ (State.giveTask s n d pipe kind).dm = s.dm ∧ (State.giveTask s n d pipe kind).fx = s.fx ∧ (State.giveTask s n d pipe kind).ctu = s.ctu ∧ (State.giveTask s n d pipe kind).links = s.links ∧ (State.giveTask s n d pipe kind).aplicS = s.aplicS ∧ (State.giveTask s n d pipe kind).aplicN = s.aplicN ∧ (State.giveTask s n d pipe kind).credits = s.credits ∧ (State.giveTask s n d pipe kind).pkts = s.pkts ∧ (State.giveTask s n d pipe kind).resp = s.resp ∧ (State.giveTask s n d pipe kind).out = s.out ∧ (State.giveTask s n d pipe kind).fabric = s.fabric ∧ (State.giveTask s n d pipe kind).files = s.files := by
  generalize h : State.giveTask s n d pipe kind = u
  unfold State.giveTask at h
  rw [← h]; simp [kept @State.addF_fr, kept @State.drainRecv_fr, kept @State.eng'_fr, kept @State.pmcSlc_fr, kept @State.setDesc_fr, kept @State.setSlice_fr, kept @State.tellMerge_fr, kept @State.wrs_fr]

theorem State.dispatch_fr (s : State) (n : Nat) (recv : Bool) : (State.dispatch s n recv).pending = s.pending ∧ (State.dispatch s n recv).flash = s.flash ∧ (State.dispatch s n recv).coldOpt = s.coldOpt ∧ (State.dispatch s n recv).imsic = s.imsic ∧ (State.dispatch s n recv).dm = s.dm ∧ (State.dispatch s n recv).fx = s.fx ∧ (State.dispatch s n recv).ctu = s.ctu ∧ (State.dispatch s n recv).links = s.links ∧ (State.dispatch s n recv).aplicS = s.aplicS ∧ (State.dispatch s n recv).aplicN = s.aplicN ∧ (State.dispatch s n recv).credits = s.credits ∧ (State.dispatch s n recv).pkts = s.pkts ∧ (State.dispatch s n recv).resp = s.resp ∧ (State.dispatch s n recv).out = s.out ∧ (State.dispatch s n recv).fabric = s.fabric ∧ (State.dispatch s n recv).files = s.files := by
  generalize h : State.dispatch s n recv = u
  unfold State.dispatch at h
  (try dsimp only at h); (repeat' split at h) <;> rw [← h] <;> simp [kept @State.decided_fr, kept @State.giveTask_fr]

theorem State.rewritten_fr (s : State) (n : Nat) : (State.rewritten s n).pending = s.pending ∧ (State.rewritten s n).flash = s.flash ∧ (State.rewritten s n).coldOpt = s.coldOpt ∧ (State.rewritten s n).mem = s.mem ∧ (State.rewritten s n).harts = s.harts ∧ (State.rewritten s n).mram = s.mram ∧ (State.rewritten s n).imsic = s.imsic ∧ (State.rewritten s n).dm = s.dm ∧ (State.rewritten s n).fx = s.fx ∧ (State.rewritten s n).ctu = s.ctu ∧ (State.rewritten s n).links = s.links ∧ (State.rewritten s n).aplicS = s.aplicS ∧ (State.rewritten s n).aplicN = s.aplicN ∧ (State.rewritten s n).credits = s.credits ∧ (State.rewritten s n).clusters = s.clusters ∧ (State.rewritten s n).homes = s.homes ∧ (State.rewritten s n).pkts = s.pkts ∧ (State.rewritten s n).resp = s.resp ∧ (State.rewritten s n).wires = s.wires ∧ (State.rewritten s n).dmg = s.dmg ∧ (State.rewritten s n).wq = s.wq ∧ (State.rewritten s n).net = s.net ∧ (State.rewritten s n).dbInval = s.dbInval ∧ (State.rewritten s n).watch = s.watch ∧ (State.rewritten s n).pkg = s.pkg ∧ (State.rewritten s n).pmc = s.pmc ∧ (State.rewritten s n).fwLog = s.fwLog ∧ (State.rewritten s n).out = s.out ∧ (State.rewritten s n).free = s.free ∧ (State.rewritten s n).fabric = s.fabric ∧ (State.rewritten s n).files = s.files := by
  generalize h : State.rewritten s n = u
  unfold State.rewritten at h
  (try dsimp only at h); (repeat' split at h) <;> rw [← h] <;> simp [kept @State.cbWrite_fr, kept @State.setSlice_fr, kept @State.wrs_fr]

@[simp] theorem flushTask_beside (n : Nat) (t : Task) : KeepsM State.beside (flushTask n t) := by
  unfold flushTask; (repeat' (first | with_reducible exact keepsM_pure _ _ | with_reducible exact keepsM_throw _ _ | with_reducible exact keepsM_get _ | with_reducible refine keepsM_bind ?_ (fun _ => ?_) | with_reducible refine keepsM_mapM (fun _ => ?_) _ | with_reducible refine keepsM_forM (fun _ => ?_) _ | with_reducible refine keepsM_foldlM (fun _ _ => ?_) _ _ | with_reducible refine doSt_keeps _ (fun _ => ?_) | with_reducible refine askSt_keeps _ (fun _ => ?_) | (simp [kept @State.eng'_fr, kept @cbRead_fr, kept @flushAgg_fr, kept @updTask_fr]; done) | (simp [*, kept @State.eng'_fr, kept @cbRead_fr, kept @flushAgg_fr, kept @updTask_fr]; done) | split | dsimp only))

theorem flushTask_fr (n : Nat) (t : Task) : KeepsM State.dm (flushTask n t) := by
  unfold flushTask; (repeat' (first | with_reducible exact keepsM_pure _ _ | with_reducible exact keepsM_throw _ _ | with_reducible exact keepsM_get _ | with_reducible refine keepsM_bind ?_ (fun _ => ?_) | with_reducible refine keepsM_mapM (fun _ => ?_) _ | with_reducible refine keepsM_forM (fun _ => ?_) _ | with_reducible refine keepsM_foldlM (fun _ _ => ?_) _ _ | with_reducible refine doSt_keeps _ (fun _ => ?_) | with_reducible refine askSt_keeps _ (fun _ => ?_) | (simp [kept @State.eng'_fr, kept @cbRead_fr, kept @flushAgg_fr, kept @updTask_fr]; done) | (simp [*, kept @State.eng'_fr, kept @cbRead_fr, kept @flushAgg_fr, kept @updTask_fr]; done) | split | dsimp only))

theorem State.leaveSlice_fr (s : State) (n : Nat) (t : Task) : (State.leaveSlice s n t).pending = s.pending ∧ (State.leaveSlice s n t).flash = s.flash ∧ (State.leaveSlice s n t).coldOpt = s.coldOpt ∧ (State.leaveSlice s n t).mem = s.mem ∧ (State.leaveSlice s n t).harts = s.harts ∧ (State.leaveSlice s n t).mram = s.mram ∧ (State.leaveSlice s n t).imsic = s.imsic ∧ (State.leaveSlice s n t).dm = s.dm ∧ (State.leaveSlice s n t).fx = s.fx ∧ (State.leaveSlice s n t).ctu = s.ctu ∧ (State.leaveSlice s n t).links = s.links ∧ (State.leaveSlice s n t).aplicS = s.aplicS ∧ (State.leaveSlice s n t).aplicN = s.aplicN ∧ (State.leaveSlice s n t).credits = s.credits ∧ (State.leaveSlice s n t).clusters = s.clusters ∧ (State.leaveSlice s n t).homes = s.homes ∧ (State.leaveSlice s n t).pkts = s.pkts ∧ (State.leaveSlice s n t).resp = s.resp ∧ (State.leaveSlice s n t).wires = s.wires ∧ (State.leaveSlice s n t).dmg = s.dmg ∧ (State.leaveSlice s n t).wq = s.wq ∧ (State.leaveSlice s n t).net = s.net ∧ (State.leaveSlice s n t).dbInval = s.dbInval ∧ (State.leaveSlice s n t).watch = s.watch ∧ (State.leaveSlice s n t).pkg = s.pkg ∧ (State.leaveSlice s n t).pmc = s.pmc ∧ (State.leaveSlice s n t).fwLog = s.fwLog ∧ (State.leaveSlice s n t).out = s.out ∧ (State.leaveSlice s n t).free = s.free ∧ (State.leaveSlice s n t).fabric = s.fabric ∧ (State.leaveSlice s n t).files = s.files := by
  generalize h : State.leaveSlice s n t = u
  unfold State.leaveSlice at h
  rw [← h]; simp [kept @State.eng'_fr, kept @State.pmcSlc_fr, kept @State.sealed_fr, kept @State.setSlice_fr, kept @State.updRun_fr, kept @State.wr_fr, kept @State.wrs_fr]

theorem State.stagedInDone_fr (s : State) (t : Task) : (State.stagedInDone s t).pending = s.pending ∧ (State.stagedInDone s t).flash = s.flash ∧ (State.stagedInDone s t).coldOpt = s.coldOpt ∧ (State.stagedInDone s t).mem = s.mem ∧ (State.stagedInDone s t).harts = s.harts ∧ (State.stagedInDone s t).mram = s.mram ∧ (State.stagedInDone s t).imsic = s.imsic ∧ (State.stagedInDone s t).eng = s.eng ∧ (State.stagedInDone s t).dm = s.dm ∧ (State.stagedInDone s t).ctu = s.ctu ∧ (State.stagedInDone s t).links = s.links ∧ (State.stagedInDone s t).aplicS = s.aplicS ∧ (State.stagedInDone s t).aplicN = s.aplicN ∧ (State.stagedInDone s t).credits = s.credits ∧ (State.stagedInDone s t).clusters = s.clusters ∧ (State.stagedInDone s t).homes = s.homes ∧ (State.stagedInDone s t).pkts = s.pkts ∧ (State.stagedInDone s t).resp = s.resp ∧ (State.stagedInDone s t).regs = s.regs ∧ (State.stagedInDone s t).wires = s.wires ∧ (State.stagedInDone s t).dmg = s.dmg ∧ (State.stagedInDone s t).wq = s.wq ∧ (State.stagedInDone s t).net = s.net ∧ (State.stagedInDone s t).dbInval = s.dbInval ∧ (State.stagedInDone s t).watch = s.watch ∧ (State.stagedInDone s t).pkg = s.pkg ∧ (State.stagedInDone s t).pmc = s.pmc ∧ (State.stagedInDone s t).fwLog = s.fwLog ∧ (State.stagedInDone s t).out = s.out ∧ (State.stagedInDone s t).free = s.free ∧ (State.stagedInDone s t).fabric = s.fabric ∧ (State.stagedInDone s t).files = s.files := by
  generalize h : State.stagedInDone s t = u
  unfold State.stagedInDone at h
  (try dsimp only at h); (repeat' split at h) <;> rw [← h] <;> simp [kept @State.stageFreeIn_fr]

theorem State.taskEnd_fr (s : State) (n : Nat) : (State.taskEnd s n).pending = s.pending ∧ (State.taskEnd s n).flash = s.flash ∧ (State.taskEnd s n).coldOpt = s.coldOpt ∧ (State.taskEnd s n).imsic = s.imsic ∧ (State.taskEnd s n).dm = s.dm ∧ (State.taskEnd s n).ctu = s.ctu ∧ (State.taskEnd s n).links = s.links ∧ (State.taskEnd s n).aplicS = s.aplicS ∧ (State.taskEnd s n).aplicN = s.aplicN ∧ (State.taskEnd s n).credits = s.credits ∧ (State.taskEnd s n).pkts = s.pkts ∧ (State.taskEnd s n).resp = s.resp ∧ (State.taskEnd s n).fabric = s.fabric ∧ (State.taskEnd s n).files = s.files := by
  generalize h : State.taskEnd s n = u
  unfold State.taskEnd at h
  (try dsimp only at h); (repeat' split at h) <;> rw [← h] <;> simp [kept @State.fixRun_fr, kept @State.leaveSlice_fr, kept @State.stagedInDone_fr, kept @flushTask_fr]

theorem State.dropSlice_fr (s : State) (n : Nat) : (State.dropSlice s n).pending = s.pending ∧ (State.dropSlice s n).flash = s.flash ∧ (State.dropSlice s n).coldOpt = s.coldOpt ∧ (State.dropSlice s n).mem = s.mem ∧ (State.dropSlice s n).harts = s.harts ∧ (State.dropSlice s n).mram = s.mram ∧ (State.dropSlice s n).imsic = s.imsic ∧ (State.dropSlice s n).dm = s.dm ∧ (State.dropSlice s n).fx = s.fx ∧ (State.dropSlice s n).ctu = s.ctu ∧ (State.dropSlice s n).links = s.links ∧ (State.dropSlice s n).aplicS = s.aplicS ∧ (State.dropSlice s n).aplicN = s.aplicN ∧ (State.dropSlice s n).credits = s.credits ∧ (State.dropSlice s n).clusters = s.clusters ∧ (State.dropSlice s n).homes = s.homes ∧ (State.dropSlice s n).pkts = s.pkts ∧ (State.dropSlice s n).resp = s.resp ∧ (State.dropSlice s n).wires = s.wires ∧ (State.dropSlice s n).dmg = s.dmg ∧ (State.dropSlice s n).wq = s.wq ∧ (State.dropSlice s n).net = s.net ∧ (State.dropSlice s n).dbInval = s.dbInval ∧ (State.dropSlice s n).watch = s.watch ∧ (State.dropSlice s n).pkg = s.pkg ∧ (State.dropSlice s n).pmc = s.pmc ∧ (State.dropSlice s n).fwLog = s.fwLog ∧ (State.dropSlice s n).out = s.out ∧ (State.dropSlice s n).free = s.free ∧ (State.dropSlice s n).fabric = s.fabric ∧ (State.dropSlice s n).files = s.files := by
  generalize h : State.dropSlice s n = u
  unfold State.dropSlice at h
  (try dsimp only at h); (repeat' split at h) <;> (rw [← h]; simp (disch := (intros; (repeat' split) <;> simp [*, kept @State.fixRun_fr, kept @State.leaveSlice_fr, kept @State.setSlice_fr])) [kept @State.fixRun_fr, kept @State.leaveSlice_fr, kept @State.setSlice_fr])

end Sys2Proof.Machine
end

