-- ==== Sys2Proof/Laws/Frame/DmOps.lean ====
section
/-! SUPPORT. What the operations of Machine/DmOps.lean leave unchanged. -/

set_option Elab.async false
set_option linter.all false

namespace Sys2Proof.Machine
open Sys2Proof

theorem State.setChan_fr (s : State) (n : Nat) (c : DmCh) : (State.setChan s n c).pending = s.pending ∧ (State.setChan s n c).flash = s.flash ∧ (State.setChan s n c).coldOpt = s.coldOpt ∧ (State.setChan s n c).mem = s.mem ∧ (State.setChan s n c).harts = s.harts ∧ (State.setChan s n c).mram = s.mram ∧ (State.setChan s n c).imsic = s.imsic ∧ (State.setChan s n c).eng = s.eng ∧ (State.setChan s n c).fx = s.fx ∧ (State.setChan s n c).ctu = s.ctu ∧ (State.setChan s n c).links = s.links ∧ (State.setChan s n c).aplicS = s.aplicS ∧ (State.setChan s n c).aplicN = s.aplicN ∧ (State.setChan s n c).credits = s.credits ∧ (State.setChan s n c).clusters = s.clusters ∧ (State.setChan s n c).homes = s.homes ∧ (State.setChan s n c).pkts = s.pkts ∧ (State.setChan s n c).resp = s.resp ∧ (State.setChan s n c).regs = s.regs ∧ (State.setChan s n c).wires = s.wires ∧ (State.setChan s n c).dmg = s.dmg ∧ (State.setChan s n c).wq = s.wq ∧ (State.setChan s n c).net = s.net ∧ (State.setChan s n c).dbInval = s.dbInval ∧ (State.setChan s n c).watch = s.watch ∧ (State.setChan s n c).pkg = s.pkg ∧ (State.setChan s n c).pmc = s.pmc ∧ (State.setChan s n c).fwLog = s.fwLog ∧ (State.setChan s n c).out = s.out ∧ (State.setChan s n c).free = s.free ∧ (State.setChan s n c).fabric = s.fabric ∧ (State.setChan s n c).files = s.files := by
  generalize h : State.setChan s n c = u
  unfold State.setChan at h
  rw [← h]; simp

theorem State.chanError_fr (s : State) (n : Nat) (cause : Nat) : (State.chanError s n cause).pending = s.pending ∧ (State.chanError s n cause).flash = s.flash ∧ (State.chanError s n cause).coldOpt = s.coldOpt ∧ (State.chanError s n cause).mem = s.mem ∧ (State.chanError s n cause).harts = s.harts ∧ (State.chanError s n cause).mram = s.mram ∧ (State.chanError s n cause).imsic = s.imsic ∧ (State.chanError s n cause).eng = s.eng ∧ (State.chanError s n cause).fx = s.fx ∧ (State.chanError s n cause).ctu = s.ctu ∧ (State.chanError s n cause).links = s.links ∧ (State.chanError s n cause).aplicS = s.aplicS ∧ (State.chanError s n cause).aplicN = s.aplicN ∧ (State.chanError s n cause).credits = s.credits ∧ (State.chanError s n cause).clusters = s.clusters ∧ (State.chanError s n cause).homes = s.homes ∧ (State.chanError s n cause).pkts = s.pkts ∧ (State.chanError s n cause).resp = s.resp ∧ (State.chanError s n cause).wires = s.wires ∧ (State.chanError s n cause).dmg = s.dmg ∧ (State.chanError s n cause).wq = s.wq ∧ (State.chanError s n cause).net = s.net ∧ (State.chanError s n cause).dbInval = s.dbInval ∧ (State.chanError s n cause).watch = s.watch ∧ (State.chanError s n cause).pkg = s.pkg ∧ (State.chanError s n cause).pmc = s.pmc ∧ (State.chanError s n cause).fwLog = s.fwLog ∧ (State.chanError s n cause).out = s.out ∧ (State.chanError s n cause).free = s.free ∧ (State.chanError s n cause).fabric = s.fabric ∧ (State.chanError s n cause).files = s.files := by
  generalize h : State.chanError s n cause = u
  unfold State.chanError at h
  rw [← h]; simp [kept @State.setChan_fr, kept @State.wrs_fr]

theorem State.chanBad_fr (s : State) (n : Nat) (code : Nat) (addr : Nat) : (State.chanBad s n code addr).pending = s.pending ∧ (State.chanBad s n code addr).flash = s.flash ∧ (State.chanBad s n code addr).coldOpt = s.coldOpt ∧ (State.chanBad s n code addr).mem = s.mem ∧ (State.chanBad s n code addr).harts = s.harts ∧ (State.chanBad s n code addr).mram = s.mram ∧ (State.chanBad s n code addr).imsic = s.imsic ∧ (State.chanBad s n code addr).eng = s.eng ∧ (State.chanBad s n code addr).dm = s.dm ∧ (State.chanBad s n code addr).fx = s.fx ∧ (State.chanBad s n code addr).ctu = s.ctu ∧ (State.chanBad s n code addr).links = s.links ∧ (State.chanBad s n code addr).aplicS = s.aplicS ∧ (State.chanBad s n code addr).aplicN = s.aplicN ∧ (State.chanBad s n code addr).credits = s.credits ∧ (State.chanBad s n code addr).clusters = s.clusters ∧ (State.chanBad s n code addr).homes = s.homes ∧ (State.chanBad s n code addr).pkts = s.pkts ∧ (State.chanBad s n code addr).resp = s.resp ∧ (State.chanBad s n code addr).wires = s.wires ∧ (State.chanBad s n code addr).dmg = s.dmg ∧ (State.chanBad s n code addr).wq = s.wq ∧ (State.chanBad s n code addr).net = s.net ∧ (State.chanBad s n code addr).dbInval = s.dbInval ∧ (State.chanBad s n code addr).watch = s.watch ∧ (State.chanBad s n code addr).pkg = s.pkg ∧ (State.chanBad s n code addr).pmc = s.pmc ∧ (State.chanBad s n code addr).fwLog = s.fwLog ∧ (State.chanBad s n code addr).out = s.out ∧ (State.chanBad s n code addr).free = s.free ∧ (State.chanBad s n code addr).fabric = s.fabric ∧ (State.chanBad s n code addr).files = s.files := by
  generalize h : State.chanBad s n code addr = u
  unfold State.chanBad at h
  rw [← h]; simp [kept @State.satF_fr, kept @State.wrs_fr]

theorem State.chanMsi_fr (s : State) (n : Nat) : (State.chanMsi s n).pending = s.pending ∧ (State.chanMsi s n).flash = s.flash ∧ (State.chanMsi s n).coldOpt = s.coldOpt ∧ (State.chanMsi s n).mem = s.mem ∧ (State.chanMsi s n).harts = s.harts ∧ (State.chanMsi s n).eng = s.eng ∧ (State.chanMsi s n).dm = s.dm ∧ (State.chanMsi s n).fx = s.fx ∧ (State.chanMsi s n).ctu = s.ctu ∧ (State.chanMsi s n).links = s.links ∧ (State.chanMsi s n).aplicS = s.aplicS ∧ (State.chanMsi s n).aplicN = s.aplicN ∧ (State.chanMsi s n).credits = s.credits ∧ (State.chanMsi s n).clusters = s.clusters ∧ (State.chanMsi s n).homes = s.homes ∧ (State.chanMsi s n).pkts = s.pkts ∧ (State.chanMsi s n).resp = s.resp ∧ (State.chanMsi s n).wires = s.wires ∧ (State.chanMsi s n).dmg = s.dmg ∧ (State.chanMsi s n).wq = s.wq ∧ (State.chanMsi s n).net = s.net ∧ (State.chanMsi s n).dbInval = s.dbInval ∧ (State.chanMsi s n).watch = s.watch ∧ (State.chanMsi s n).pkg = s.pkg ∧ (State.chanMsi s n).out = s.out ∧ (State.chanMsi s n).free = s.free ∧ (State.chanMsi s n).fabric = s.fabric ∧ (State.chanMsi s n).files = s.files := by
  generalize h : State.chanMsi s n = u
  unfold State.chanMsi at h
  rw [← h]; simp [kept @State.msiTo_fr]

theorem State.chanDoorbell_fr (s : State) (n : Nat) (v : Nat) : (State.chanDoorbell s n v).pending = s.pending ∧ (State.chanDoorbell s n v).flash = s.flash ∧ (State.chanDoorbell s n v).coldOpt = s.coldOpt ∧ (State.chanDoorbell s n v).mem = s.mem ∧ (State.chanDoorbell s n v).harts = s.harts ∧ (State.chanDoorbell s n v).mram = s.mram ∧ (State.chanDoorbell s n v).imsic = s.imsic ∧ (State.chanDoorbell s n v).eng = s.eng ∧ (State.chanDoorbell s n v).fx = s.fx ∧ (State.chanDoorbell s n v).ctu = s.ctu ∧ (State.chanDoorbell s n v).links = s.links ∧ (State.chanDoorbell s n v).aplicS = s.aplicS ∧ (State.chanDoorbell s n v).aplicN = s.aplicN ∧ (State.chanDoorbell s n v).credits = s.credits ∧ (State.chanDoorbell s n v).clusters = s.clusters ∧ (State.chanDoorbell s n v).homes = s.homes ∧ (State.chanDoorbell s n v).pkts = s.pkts ∧ (State.chanDoorbell s n v).resp = s.resp ∧ (State.chanDoorbell s n v).wires = s.wires ∧ (State.chanDoorbell s n v).dmg = s.dmg ∧ (State.chanDoorbell s n v).wq = s.wq ∧ (State.chanDoorbell s n v).net = s.net ∧ (State.chanDoorbell s n v).dbInval = s.dbInval ∧ (State.chanDoorbell s n v).watch = s.watch ∧ (State.chanDoorbell s n v).pkg = s.pkg ∧ (State.chanDoorbell s n v).pmc = s.pmc ∧ (State.chanDoorbell s n v).fwLog = s.fwLog ∧ (State.chanDoorbell s n v).out = s.out ∧ (State.chanDoorbell s n v).free = s.free ∧ (State.chanDoorbell s n v).fabric = s.fabric ∧ (State.chanDoorbell s n v).files = s.files := by
  generalize h : State.chanDoorbell s n v = u
  unfold State.chanDoorbell at h
  rw [← h]; simp [kept @State.chanError_fr, kept @State.setChan_fr]

theorem State.readChanSlot_fr (s : State) (n : Nat) : (State.readChanSlot s n).pending = s.pending ∧ (State.readChanSlot s n).flash = s.flash ∧ (State.readChanSlot s n).coldOpt = s.coldOpt ∧ (State.readChanSlot s n).mem = s.mem ∧ (State.readChanSlot s n).harts = s.harts ∧ (State.readChanSlot s n).imsic = s.imsic ∧ (State.readChanSlot s n).eng = s.eng ∧ (State.readChanSlot s n).fx = s.fx ∧ (State.readChanSlot s n).ctu = s.ctu ∧ (State.readChanSlot s n).links = s.links ∧ (State.readChanSlot s n).aplicS = s.aplicS ∧ (State.readChanSlot s n).aplicN = s.aplicN ∧ (State.readChanSlot s n).credits = s.credits ∧ (State.readChanSlot s n).clusters = s.clusters ∧ (State.readChanSlot s n).homes = s.homes ∧ (State.readChanSlot s n).pkts = s.pkts ∧ (State.readChanSlot s n).resp = s.resp ∧ (State.readChanSlot s n).dmg = s.dmg ∧ (State.readChanSlot s n).net = s.net ∧ (State.readChanSlot s n).dbInval = s.dbInval ∧ (State.readChanSlot s n).watch = s.watch ∧ (State.readChanSlot s n).out = s.out ∧ (State.readChanSlot s n).free = s.free ∧ (State.readChanSlot s n).fabric = s.fabric ∧ (State.readChanSlot s n).files = s.files := by
  generalize h : State.readChanSlot s n = u
  unfold State.readChanSlot at h
  rw [← h]; simp [kept @State.chanDoorbell_fr, kept @State.chanError_fr, kept @State.readPa_fr]

theorem State.dmStatus_fr (s : State) (n : Nat) (code : Nat) : (State.dmStatus s n code).pending = s.pending ∧ (State.dmStatus s n code).flash = s.flash ∧ (State.dmStatus s n code).coldOpt = s.coldOpt ∧ (State.dmStatus s n code).imsic = s.imsic ∧ (State.dmStatus s n code).eng = s.eng ∧ (State.dmStatus s n code).fx = s.fx ∧ (State.dmStatus s n code).ctu = s.ctu ∧ (State.dmStatus s n code).links = s.links ∧ (State.dmStatus s n code).aplicS = s.aplicS ∧ (State.dmStatus s n code).aplicN = s.aplicN ∧ (State.dmStatus s n code).credits = s.credits ∧ (State.dmStatus s n code).pkts = s.pkts ∧ (State.dmStatus s n code).resp = s.resp ∧ (State.dmStatus s n code).out = s.out ∧ (State.dmStatus s n code).free = s.free ∧ (State.dmStatus s n code).fabric = s.fabric ∧ (State.dmStatus s n code).files = s.files := by
  generalize h : State.dmStatus s n code = u
  unfold State.dmStatus at h
  (try dsimp only at h); (repeat' split at h) <;> rw [← h] <;> simp [kept @State.chanBad_fr, kept @State.chanError_fr, kept @State.setChan_fr, kept @State.writePa_fr]

theorem State.dmNext_fr (s : State) (n : Nat) (code : Nat) : (State.dmNext s n code).pending = s.pending ∧ (State.dmNext s n code).flash = s.flash ∧ (State.dmNext s n code).coldOpt = s.coldOpt ∧ (State.dmNext s n code).imsic = s.imsic ∧ (State.dmNext s n code).eng = s.eng ∧ (State.dmNext s n code).fx = s.fx ∧ (State.dmNext s n code).ctu = s.ctu ∧ (State.dmNext s n code).links = s.links ∧ (State.dmNext s n code).aplicS = s.aplicS ∧ (State.dmNext s n code).aplicN = s.aplicN ∧ (State.dmNext s n code).credits = s.credits ∧ (State.dmNext s n code).pkts = s.pkts ∧ (State.dmNext s n code).resp = s.resp ∧ (State.dmNext s n code).out = s.out ∧ (State.dmNext s n code).free = s.free ∧ (State.dmNext s n code).fabric = s.fabric ∧ (State.dmNext s n code).files = s.files := by
  generalize h : State.dmNext s n code = u
  unfold State.dmNext at h
  rw [← h]; simp [kept @State.dmStatus_fr, kept @State.setChan_fr]

theorem State.dmDrop_fr (s : State) (n : Nat) (code : Nat) : (State.dmDrop s n code).pending = s.pending ∧ (State.dmDrop s n code).flash = s.flash ∧ (State.dmDrop s n code).coldOpt = s.coldOpt ∧ (State.dmDrop s n code).imsic = s.imsic ∧ (State.dmDrop s n code).eng = s.eng ∧ (State.dmDrop s n code).fx = s.fx ∧ (State.dmDrop s n code).ctu = s.ctu ∧ (State.dmDrop s n code).links = s.links ∧ (State.dmDrop s n code).aplicS = s.aplicS ∧ (State.dmDrop s n code).aplicN = s.aplicN ∧ (State.dmDrop s n code).credits = s.credits ∧ (State.dmDrop s n code).pkts = s.pkts ∧ (State.dmDrop s n code).resp = s.resp ∧ (State.dmDrop s n code).out = s.out ∧ (State.dmDrop s n code).free = s.free ∧ (State.dmDrop s n code).fabric = s.fabric ∧ (State.dmDrop s n code).files = s.files := by
  generalize h : State.dmDrop s n code = u
  unfold State.dmDrop at h
  rw [← h]; simp [kept @State.dmNext_fr, kept @State.setChan_fr]

theorem State.closeRefused_fr (s : State) (n : Nat) (c : Closing) : (State.closeRefused s n c).pending = s.pending ∧ (State.closeRefused s n c).flash = s.flash ∧ (State.closeRefused s n c).coldOpt = s.coldOpt ∧ (State.closeRefused s n c).imsic = s.imsic ∧ (State.closeRefused s n c).eng = s.eng ∧ (State.closeRefused s n c).fx = s.fx ∧ (State.closeRefused s n c).ctu = s.ctu ∧ (State.closeRefused s n c).links = s.links ∧ (State.closeRefused s n c).aplicS = s.aplicS ∧ (State.closeRefused s n c).aplicN = s.aplicN ∧ (State.closeRefused s n c).credits = s.credits ∧ (State.closeRefused s n c).pkts = s.pkts ∧ (State.closeRefused s n c).resp = s.resp ∧ (State.closeRefused s n c).out = s.out ∧ (State.closeRefused s n c).free = s.free ∧ (State.closeRefused s n c).fabric = s.fabric ∧ (State.closeRefused s n c).files = s.files := by
  generalize h : State.closeRefused s n c = u
  unfold State.closeRefused at h
  rw [← h]; simp [kept @State.dmDrop_fr, kept @State.setChan_fr]

theorem State.dmSelfEnd_fr (s : State) (n : Nat) : (State.dmSelfEnd s n).pending = s.pending ∧ (State.dmSelfEnd s n).flash = s.flash ∧ (State.dmSelfEnd s n).coldOpt = s.coldOpt ∧ (State.dmSelfEnd s n).imsic = s.imsic ∧ (State.dmSelfEnd s n).eng = s.eng ∧ (State.dmSelfEnd s n).fx = s.fx ∧ (State.dmSelfEnd s n).ctu = s.ctu ∧ (State.dmSelfEnd s n).links = s.links ∧ (State.dmSelfEnd s n).aplicS = s.aplicS ∧ (State.dmSelfEnd s n).aplicN = s.aplicN ∧ (State.dmSelfEnd s n).credits = s.credits ∧ (State.dmSelfEnd s n).pkts = s.pkts ∧ (State.dmSelfEnd s n).resp = s.resp ∧ (State.dmSelfEnd s n).out = s.out ∧ (State.dmSelfEnd s n).free = s.free ∧ (State.dmSelfEnd s n).fabric = s.fabric ∧ (State.dmSelfEnd s n).files = s.files := by
  generalize h : State.dmSelfEnd s n = u
  unfold State.dmSelfEnd at h
  rw [← h]; simp [kept @State.dmStatus_fr, kept @State.setChan_fr]

@[simp] theorem State.dmRun_pending (s : State) (n : Nat) (ops : Nat → Bool) (f : DmIns → State → State) (hf : ∀ x0 x1, (f x0 x1).pending = x1.pending) : (State.dmRun s n ops f).pending = s.pending := by
  unfold State.dmRun
  first
  | (simp [*, kept @State.chanError_fr, kept @State.readPa_fr]; done)
  | ((repeat' split) <;> simp [*, kept @State.chanError_fr, kept @State.readPa_fr]; done)
  | ((try dsimp only); (repeat' split) <;> simp (disch := (intros; (repeat' split) <;> simp [*, kept @State.chanError_fr, kept @State.readPa_fr])) [*, kept @State.chanError_fr, kept @State.readPa_fr]; done)
  | (refine State.taskDo_pending _ _ _ (fun _ => ?_); (repeat' split) <;> first | exact keepsM_pure _ _ | (simp [*, kept @State.chanError_fr, kept @State.readPa_fr]; done))

@[simp] theorem State.dmRun_files (s : State) (n : Nat) (ops : Nat → Bool) (f : DmIns → State → State) (hf : ∀ x0 x1, (f x0 x1).files = x1.files) : (State.dmRun s n ops f).files = s.files := by
  unfold State.dmRun
  first
  | (simp [*, kept @State.chanError_fr, kept @State.readPa_fr]; done)
  | ((repeat' split) <;> simp [*, kept @State.chanError_fr, kept @State.readPa_fr]; done)
  | ((try dsimp only); (repeat' split) <;> simp (disch := (intros; (repeat' split) <;> simp [*, kept @State.chanError_fr, kept @State.readPa_fr])) [*, kept @State.chanError_fr, kept @State.readPa_fr]; done)
  | (refine State.taskDo_files _ _ _ (fun _ => ?_); (repeat' split) <;> first | exact keepsM_pure _ _ | (simp [*, kept @State.chanError_fr, kept @State.readPa_fr]; done))

@[simp] theorem State.dmRun_fabric (s : State) (n : Nat) (ops : Nat → Bool) (f : DmIns → State → State) (hf : ∀ x0 x1, (f x0 x1).fabric = x1.fabric) : (State.dmRun s n ops f).fabric = s.fabric := by
  unfold State.dmRun
  first
  | (simp [*, kept @State.chanError_fr, kept @State.readPa_fr]; done)
  | ((repeat' split) <;> simp [*, kept @State.chanError_fr, kept @State.readPa_fr]; done)
  | ((try dsimp only); (repeat' split) <;> simp (disch := (intros; (repeat' split) <;> simp [*, kept @State.chanError_fr, kept @State.readPa_fr])) [*, kept @State.chanError_fr, kept @State.readPa_fr]; done)
  | (refine State.taskDo_fabric _ _ _ (fun _ => ?_); (repeat' split) <;> first | exact keepsM_pure _ _ | (simp [*, kept @State.chanError_fr, kept @State.readPa_fr]; done))

@[simp] theorem State.dmRun_flash (s : State) (n : Nat) (ops : Nat → Bool) (f : DmIns → State → State) (hf : ∀ x0 x1, (f x0 x1).flash = x1.flash) : (State.dmRun s n ops f).flash = s.flash := by
  unfold State.dmRun
  first
  | (simp [*, kept @State.chanError_fr, kept @State.readPa_fr]; done)
  | ((repeat' split) <;> simp [*, kept @State.chanError_fr, kept @State.readPa_fr]; done)
  | ((try dsimp only); (repeat' split) <;> simp (disch := (intros; (repeat' split) <;> simp [*, kept @State.chanError_fr, kept @State.readPa_fr])) [*, kept @State.chanError_fr, kept @State.readPa_fr]; done)
  | (refine State.taskDo_flash _ _ _ (fun _ => ?_); (repeat' split) <;> first | exact keepsM_pure _ _ | (simp [*, kept @State.chanError_fr, kept @State.readPa_fr]; done))

@[simp] theorem State.dmRun_coldOpt (s : State) (n : Nat) (ops : Nat → Bool) (f : DmIns → State → State) (hf : ∀ x0 x1, (f x0 x1).coldOpt = x1.coldOpt) : (State.dmRun s n ops f).coldOpt = s.coldOpt := by
  unfold State.dmRun
  first
  | (simp [*, kept @State.chanError_fr, kept @State.readPa_fr]; done)
  | ((repeat' split) <;> simp [*, kept @State.chanError_fr, kept @State.readPa_fr]; done)
  | ((try dsimp only); (repeat' split) <;> simp (disch := (intros; (repeat' split) <;> simp [*, kept @State.chanError_fr, kept @State.readPa_fr])) [*, kept @State.chanError_fr, kept @State.readPa_fr]; done)
  | (refine State.taskDo_coldOpt _ _ _ (fun _ => ?_); (repeat' split) <;> first | exact keepsM_pure _ _ | (simp [*, kept @State.chanError_fr, kept @State.readPa_fr]; done))

@[simp] theorem State.dmRun_mem (s : State) (n : Nat) (ops : Nat → Bool) (f : DmIns → State → State) (hf : ∀ x0 x1, (f x0 x1).mem = x1.mem) : (State.dmRun s n ops f).mem = s.mem := by
  unfold State.dmRun
  first
  | (simp [*, kept @State.chanError_fr, kept @State.readPa_fr]; done)
  | ((repeat' split) <;> simp [*, kept @State.chanError_fr, kept @State.readPa_fr]; done)
  | ((try dsimp only); (repeat' split) <;> simp (disch := (intros; (repeat' split) <;> simp [*, kept @State.chanError_fr, kept @State.readPa_fr])) [*, kept @State.chanError_fr, kept @State.readPa_fr]; done)
  | (refine State.taskDo_mem _ _ _ (fun _ => ?_); (repeat' split) <;> first | exact keepsM_pure _ _ | (simp [*, kept @State.chanError_fr, kept @State.readPa_fr]; done))

@[simp] theorem State.dmRun_harts (s : State) (n : Nat) (ops : Nat → Bool) (f : DmIns → State → State) (hf : ∀ x0 x1, (f x0 x1).harts = x1.harts) : (State.dmRun s n ops f).harts = s.harts := by
  unfold State.dmRun
  first
  | (simp [*, kept @State.chanError_fr, kept @State.readPa_fr]; done)
  | ((repeat' split) <;> simp [*, kept @State.chanError_fr, kept @State.readPa_fr]; done)
  | ((try dsimp only); (repeat' split) <;> simp (disch := (intros; (repeat' split) <;> simp [*, kept @State.chanError_fr, kept @State.readPa_fr])) [*, kept @State.chanError_fr, kept @State.readPa_fr]; done)
  | (refine State.taskDo_harts _ _ _ (fun _ => ?_); (repeat' split) <;> first | exact keepsM_pure _ _ | (simp [*, kept @State.chanError_fr, kept @State.readPa_fr]; done))

@[simp] theorem State.dmRun_imsic (s : State) (n : Nat) (ops : Nat → Bool) (f : DmIns → State → State) (hf : ∀ x0 x1, (f x0 x1).imsic = x1.imsic) : (State.dmRun s n ops f).imsic = s.imsic := by
  unfold State.dmRun
  first
  | (simp [*, kept @State.chanError_fr, kept @State.readPa_fr]; done)
  | ((repeat' split) <;> simp [*, kept @State.chanError_fr, kept @State.readPa_fr]; done)
  | ((try dsimp only); (repeat' split) <;> simp (disch := (intros; (repeat' split) <;> simp [*, kept @State.chanError_fr, kept @State.readPa_fr])) [*, kept @State.chanError_fr, kept @State.readPa_fr]; done)
  | (refine State.taskDo_imsic _ _ _ (fun _ => ?_); (repeat' split) <;> first | exact keepsM_pure _ _ | (simp [*, kept @State.chanError_fr, kept @State.readPa_fr]; done))

@[simp] theorem State.dmRun_eng (s : State) (n : Nat) (ops : Nat → Bool) (f : DmIns → State → State) (hf : ∀ x0 x1, (f x0 x1).eng = x1.eng) : (State.dmRun s n ops f).eng = s.eng := by
  unfold State.dmRun
  first
  | (simp [*, kept @State.chanError_fr, kept @State.readPa_fr]; done)
  | ((repeat' split) <;> simp [*, kept @State.chanError_fr, kept @State.readPa_fr]; done)
  | ((try dsimp only); (repeat' split) <;> simp (disch := (intros; (repeat' split) <;> simp [*, kept @State.chanError_fr, kept @State.readPa_fr])) [*, kept @State.chanError_fr, kept @State.readPa_fr]; done)
  | (refine State.taskDo_eng _ _ _ (fun _ => ?_); (repeat' split) <;> first | exact keepsM_pure _ _ | (simp [*, kept @State.chanError_fr, kept @State.readPa_fr]; done))

@[simp] theorem State.dmRun_fx (s : State) (n : Nat) (ops : Nat → Bool) (f : DmIns → State → State) (hf : ∀ x0 x1, (f x0 x1).fx = x1.fx) : (State.dmRun s n ops f).fx = s.fx := by
  unfold State.dmRun
  first
  | (simp [*, kept @State.chanError_fr, kept @State.readPa_fr]; done)
  | ((repeat' split) <;> simp [*, kept @State.chanError_fr, kept @State.readPa_fr]; done)
  | ((try dsimp only); (repeat' split) <;> simp (disch := (intros; (repeat' split) <;> simp [*, kept @State.chanError_fr, kept @State.readPa_fr])) [*, kept @State.chanError_fr, kept @State.readPa_fr]; done)
  | (refine State.taskDo_fx _ _ _ (fun _ => ?_); (repeat' split) <;> first | exact keepsM_pure _ _ | (simp [*, kept @State.chanError_fr, kept @State.readPa_fr]; done))

@[simp] theorem State.dmRun_ctu (s : State) (n : Nat) (ops : Nat → Bool) (f : DmIns → State → State) (hf : ∀ x0 x1, (f x0 x1).ctu = x1.ctu) : (State.dmRun s n ops f).ctu = s.ctu := by
  unfold State.dmRun
  first
  | (simp [*, kept @State.chanError_fr, kept @State.readPa_fr]; done)
  | ((repeat' split) <;> simp [*, kept @State.chanError_fr, kept @State.readPa_fr]; done)
  | ((try dsimp only); (repeat' split) <;> simp (disch := (intros; (repeat' split) <;> simp [*, kept @State.chanError_fr, kept @State.readPa_fr])) [*, kept @State.chanError_fr, kept @State.readPa_fr]; done)
  | (refine State.taskDo_ctu _ _ _ (fun _ => ?_); (repeat' split) <;> first | exact keepsM_pure _ _ | (simp [*, kept @State.chanError_fr, kept @State.readPa_fr]; done))

@[simp] theorem State.dmRun_links (s : State) (n : Nat) (ops : Nat → Bool) (f : DmIns → State → State) (hf : ∀ x0 x1, (f x0 x1).links = x1.links) : (State.dmRun s n ops f).links = s.links := by
  unfold State.dmRun
  first
  | (simp [*, kept @State.chanError_fr, kept @State.readPa_fr]; done)
  | ((repeat' split) <;> simp [*, kept @State.chanError_fr, kept @State.readPa_fr]; done)
  | ((try dsimp only); (repeat' split) <;> simp (disch := (intros; (repeat' split) <;> simp [*, kept @State.chanError_fr, kept @State.readPa_fr])) [*, kept @State.chanError_fr, kept @State.readPa_fr]; done)
  | (refine State.taskDo_links _ _ _ (fun _ => ?_); (repeat' split) <;> first | exact keepsM_pure _ _ | (simp [*, kept @State.chanError_fr, kept @State.readPa_fr]; done))

@[simp] theorem State.dmRun_aplicS (s : State) (n : Nat) (ops : Nat → Bool) (f : DmIns → State → State) (hf : ∀ x0 x1, (f x0 x1).aplicS = x1.aplicS) : (State.dmRun s n ops f).aplicS = s.aplicS := by
  unfold State.dmRun
  first
  | (simp [*, kept @State.chanError_fr, kept @State.readPa_fr]; done)
  | ((repeat' split) <;> simp [*, kept @State.chanError_fr, kept @State.readPa_fr]; done)
  | ((try dsimp only); (repeat' split) <;> simp (disch := (intros; (repeat' split) <;> simp [*, kept @State.chanError_fr, kept @State.readPa_fr])) [*, kept @State.chanError_fr, kept @State.readPa_fr]; done)
  | (refine State.taskDo_aplicS _ _ _ (fun _ => ?_); (repeat' split) <;> first | exact keepsM_pure _ _ | (simp [*, kept @State.chanError_fr, kept @State.readPa_fr]; done))

@[simp] theorem State.dmRun_aplicN (s : State) (n : Nat) (ops : Nat → Bool) (f : DmIns → State → State) (hf : ∀ x0 x1, (f x0 x1).aplicN = x1.aplicN) : (State.dmRun s n ops f).aplicN = s.aplicN := by
  unfold State.dmRun
  first
  | (simp [*, kept @State.chanError_fr, kept @State.readPa_fr]; done)
  | ((repeat' split) <;> simp [*, kept @State.chanError_fr, kept @State.readPa_fr]; done)
  | ((try dsimp only); (repeat' split) <;> simp (disch := (intros; (repeat' split) <;> simp [*, kept @State.chanError_fr, kept @State.readPa_fr])) [*, kept @State.chanError_fr, kept @State.readPa_fr]; done)
  | (refine State.taskDo_aplicN _ _ _ (fun _ => ?_); (repeat' split) <;> first | exact keepsM_pure _ _ | (simp [*, kept @State.chanError_fr, kept @State.readPa_fr]; done))

@[simp] theorem State.dmRun_credits (s : State) (n : Nat) (ops : Nat → Bool) (f : DmIns → State → State) (hf : ∀ x0 x1, (f x0 x1).credits = x1.credits) : (State.dmRun s n ops f).credits = s.credits := by
  unfold State.dmRun
  first
  | (simp [*, kept @State.chanError_fr, kept @State.readPa_fr]; done)
  | ((repeat' split) <;> simp [*, kept @State.chanError_fr, kept @State.readPa_fr]; done)
  | ((try dsimp only); (repeat' split) <;> simp (disch := (intros; (repeat' split) <;> simp [*, kept @State.chanError_fr, kept @State.readPa_fr])) [*, kept @State.chanError_fr, kept @State.readPa_fr]; done)
  | (refine State.taskDo_credits _ _ _ (fun _ => ?_); (repeat' split) <;> first | exact keepsM_pure _ _ | (simp [*, kept @State.chanError_fr, kept @State.readPa_fr]; done))

@[simp] theorem State.dmRun_clusters (s : State) (n : Nat) (ops : Nat → Bool) (f : DmIns → State → State) (hf : ∀ x0 x1, (f x0 x1).clusters = x1.clusters) : (State.dmRun s n ops f).clusters = s.clusters := by
  unfold State.dmRun
  first
  | (simp [*, kept @State.chanError_fr, kept @State.readPa_fr]; done)
  | ((repeat' split) <;> simp [*, kept @State.chanError_fr, kept @State.readPa_fr]; done)
  | ((try dsimp only); (repeat' split) <;> simp (disch := (intros; (repeat' split) <;> simp [*, kept @State.chanError_fr, kept @State.readPa_fr])) [*, kept @State.chanError_fr, kept @State.readPa_fr]; done)
  | (refine State.taskDo_clusters _ _ _ (fun _ => ?_); (repeat' split) <;> first | exact keepsM_pure _ _ | (simp [*, kept @State.chanError_fr, kept @State.readPa_fr]; done))

@[simp] theorem State.dmRun_homes (s : State) (n : Nat) (ops : Nat → Bool) (f : DmIns → State → State) (hf : ∀ x0 x1, (f x0 x1).homes = x1.homes) : (State.dmRun s n ops f).homes = s.homes := by
  unfold State.dmRun
  first
  | (simp [*, kept @State.chanError_fr, kept @State.readPa_fr]; done)
  | ((repeat' split) <;> simp [*, kept @State.chanError_fr, kept @State.readPa_fr]; done)
  | ((try dsimp only); (repeat' split) <;> simp (disch := (intros; (repeat' split) <;> simp [*, kept @State.chanError_fr, kept @State.readPa_fr])) [*, kept @State.chanError_fr, kept @State.readPa_fr]; done)
  | (refine State.taskDo_homes _ _ _ (fun _ => ?_); (repeat' split) <;> first | exact keepsM_pure _ _ | (simp [*, kept @State.chanError_fr, kept @State.readPa_fr]; done))

@[simp] theorem State.dmRun_pkts (s : State) (n : Nat) (ops : Nat → Bool) (f : DmIns → State → State) (hf : ∀ x0 x1, (f x0 x1).pkts = x1.pkts) : (State.dmRun s n ops f).pkts = s.pkts := by
  unfold State.dmRun
  first
  | (simp [*, kept @State.chanError_fr, kept @State.readPa_fr]; done)
  | ((repeat' split) <;> simp [*, kept @State.chanError_fr, kept @State.readPa_fr]; done)
  | ((try dsimp only); (repeat' split) <;> simp (disch := (intros; (repeat' split) <;> simp [*, kept @State.chanError_fr, kept @State.readPa_fr])) [*, kept @State.chanError_fr, kept @State.readPa_fr]; done)
  | (refine State.taskDo_pkts _ _ _ (fun _ => ?_); (repeat' split) <;> first | exact keepsM_pure _ _ | (simp [*, kept @State.chanError_fr, kept @State.readPa_fr]; done))

@[simp] theorem State.dmRun_resp (s : State) (n : Nat) (ops : Nat → Bool) (f : DmIns → State → State) (hf : ∀ x0 x1, (f x0 x1).resp = x1.resp) : (State.dmRun s n ops f).resp = s.resp := by
  unfold State.dmRun
  first
  | (simp [*, kept @State.chanError_fr, kept @State.readPa_fr]; done)
  | ((repeat' split) <;> simp [*, kept @State.chanError_fr, kept @State.readPa_fr]; done)
  | ((try dsimp only); (repeat' split) <;> simp (disch := (intros; (repeat' split) <;> simp [*, kept @State.chanError_fr, kept @State.readPa_fr])) [*, kept @State.chanError_fr, kept @State.readPa_fr]; done)
  | (refine State.taskDo_resp _ _ _ (fun _ => ?_); (repeat' split) <;> first | exact keepsM_pure _ _ | (simp [*, kept @State.chanError_fr, kept @State.readPa_fr]; done))

@[simp] theorem State.dmRun_dmg (s : State) (n : Nat) (ops : Nat → Bool) (f : DmIns → State → State) (hf : ∀ x0 x1, (f x0 x1).dmg = x1.dmg) : (State.dmRun s n ops f).dmg = s.dmg := by
  unfold State.dmRun
  first
  | (simp [*, kept @State.chanError_fr, kept @State.readPa_fr]; done)
  | ((repeat' split) <;> simp [*, kept @State.chanError_fr, kept @State.readPa_fr]; done)
  | ((try dsimp only); (repeat' split) <;> simp (disch := (intros; (repeat' split) <;> simp [*, kept @State.chanError_fr, kept @State.readPa_fr])) [*, kept @State.chanError_fr, kept @State.readPa_fr]; done)
  | (refine State.taskDo_dmg _ _ _ (fun _ => ?_); (repeat' split) <;> first | exact keepsM_pure _ _ | (simp [*, kept @State.chanError_fr, kept @State.readPa_fr]; done))

@[simp] theorem State.dmRun_net (s : State) (n : Nat) (ops : Nat → Bool) (f : DmIns → State → State) (hf : ∀ x0 x1, (f x0 x1).net = x1.net) : (State.dmRun s n ops f).net = s.net := by
  unfold State.dmRun
  first
  | (simp [*, kept @State.chanError_fr, kept @State.readPa_fr]; done)
  | ((repeat' split) <;> simp [*, kept @State.chanError_fr, kept @State.readPa_fr]; done)
  | ((try dsimp only); (repeat' split) <;> simp (disch := (intros; (repeat' split) <;> simp [*, kept @State.chanError_fr, kept @State.readPa_fr])) [*, kept @State.chanError_fr, kept @State.readPa_fr]; done)
  | (refine State.taskDo_net _ _ _ (fun _ => ?_); (repeat' split) <;> first | exact keepsM_pure _ _ | (simp [*, kept @State.chanError_fr, kept @State.readPa_fr]; done))

@[simp] theorem State.dmRun_dbInval (s : State) (n : Nat) (ops : Nat → Bool) (f : DmIns → State → State) (hf : ∀ x0 x1, (f x0 x1).dbInval = x1.dbInval) : (State.dmRun s n ops f).dbInval = s.dbInval := by
  unfold State.dmRun
  first
  | (simp [*, kept @State.chanError_fr, kept @State.readPa_fr]; done)
  | ((repeat' split) <;> simp [*, kept @State.chanError_fr, kept @State.readPa_fr]; done)
  | ((try dsimp only); (repeat' split) <;> simp (disch := (intros; (repeat' split) <;> simp [*, kept @State.chanError_fr, kept @State.readPa_fr])) [*, kept @State.chanError_fr, kept @State.readPa_fr]; done)
  | (refine State.taskDo_dbInval _ _ _ (fun _ => ?_); (repeat' split) <;> first | exact keepsM_pure _ _ | (simp [*, kept @State.chanError_fr, kept @State.readPa_fr]; done))

@[simp] theorem State.dmRun_watch (s : State) (n : Nat) (ops : Nat → Bool) (f : DmIns → State → State) (hf : ∀ x0 x1, (f x0 x1).watch = x1.watch) : (State.dmRun s n ops f).watch = s.watch := by
  unfold State.dmRun
  first
  | (simp [*, kept @State.chanError_fr, kept @State.readPa_fr]; done)
  | ((repeat' split) <;> simp [*, kept @State.chanError_fr, kept @State.readPa_fr]; done)
  | ((try dsimp only); (repeat' split) <;> simp (disch := (intros; (repeat' split) <;> simp [*, kept @State.chanError_fr, kept @State.readPa_fr])) [*, kept @State.chanError_fr, kept @State.readPa_fr]; done)
  | (refine State.taskDo_watch _ _ _ (fun _ => ?_); (repeat' split) <;> first | exact keepsM_pure _ _ | (simp [*, kept @State.chanError_fr, kept @State.readPa_fr]; done))

@[simp] theorem State.dmRun_out (s : State) (n : Nat) (ops : Nat → Bool) (f : DmIns → State → State) (hf : ∀ x0 x1, (f x0 x1).out = x1.out) : (State.dmRun s n ops f).out = s.out := by
  unfold State.dmRun
  first
  | (simp [*, kept @State.chanError_fr, kept @State.readPa_fr]; done)
  | ((repeat' split) <;> simp [*, kept @State.chanError_fr, kept @State.readPa_fr]; done)
  | ((try dsimp only); (repeat' split) <;> simp (disch := (intros; (repeat' split) <;> simp [*, kept @State.chanError_fr, kept @State.readPa_fr])) [*, kept @State.chanError_fr, kept @State.readPa_fr]; done)
  | (refine State.taskDo_out _ _ _ (fun _ => ?_); (repeat' split) <;> first | exact keepsM_pure _ _ | (simp [*, kept @State.chanError_fr, kept @State.readPa_fr]; done))

@[simp] theorem State.dmRun_free (s : State) (n : Nat) (ops : Nat → Bool) (f : DmIns → State → State) (hf : ∀ x0 x1, (f x0 x1).free = x1.free) : (State.dmRun s n ops f).free = s.free := by
  unfold State.dmRun
  first
  | (simp [*, kept @State.chanError_fr, kept @State.readPa_fr]; done)
  | ((repeat' split) <;> simp [*, kept @State.chanError_fr, kept @State.readPa_fr]; done)
  | ((try dsimp only); (repeat' split) <;> simp (disch := (intros; (repeat' split) <;> simp [*, kept @State.chanError_fr, kept @State.readPa_fr])) [*, kept @State.chanError_fr, kept @State.readPa_fr]; done)
  | (refine State.taskDo_free _ _ _ (fun _ => ?_); (repeat' split) <;> first | exact keepsM_pure _ _ | (simp [*, kept @State.chanError_fr, kept @State.readPa_fr]; done))

theorem State.dmLoop_fr (s : State) (n : Nat) (i : DmIns) : (State.dmLoop s n i).pending = s.pending ∧ (State.dmLoop s n i).flash = s.flash ∧ (State.dmLoop s n i).coldOpt = s.coldOpt ∧ (State.dmLoop s n i).imsic = s.imsic ∧ (State.dmLoop s n i).eng = s.eng ∧ (State.dmLoop s n i).fx = s.fx ∧ (State.dmLoop s n i).ctu = s.ctu ∧ (State.dmLoop s n i).links = s.links ∧ (State.dmLoop s n i).aplicS = s.aplicS ∧ (State.dmLoop s n i).aplicN = s.aplicN ∧ (State.dmLoop s n i).credits = s.credits ∧ (State.dmLoop s n i).pkts = s.pkts ∧ (State.dmLoop s n i).resp = s.resp ∧ (State.dmLoop s n i).out = s.out ∧ (State.dmLoop s n i).free = s.free ∧ (State.dmLoop s n i).fabric = s.fabric ∧ (State.dmLoop s n i).files = s.files := by
  generalize h : State.dmLoop s n i = u
  unfold State.dmLoop at h
  (try dsimp only at h); (repeat' split at h) <;> rw [← h] <;> simp [kept @State.dmNext_fr, kept @State.dmStatus_fr, kept @State.setChan_fr]

@[simp] theorem encEnsure_beside (b : Bool) (code : Nat) : KeepsM State.beside (encEnsure b code) := by
  unfold encEnsure; (repeat' (first | with_reducible exact keepsM_pure _ _ | with_reducible exact keepsM_throw _ _ | with_reducible exact keepsM_get _ | with_reducible refine keepsM_bind ?_ (fun _ => ?_) | with_reducible refine keepsM_mapM (fun _ => ?_) _ | with_reducible refine keepsM_forM (fun _ => ?_) _ | with_reducible refine keepsM_foldlM (fun _ _ => ?_) _ _ | with_reducible refine doSt_keeps _ (fun _ => ?_) | with_reducible refine askSt_keeps _ (fun _ => ?_) | (simp; done) | (simp [*]; done) | split | dsimp only))

@[simp] theorem encEnsure_apart (b : Bool) (code : Nat) : KeepsM State.apart (encEnsure b code) := by
  unfold encEnsure; (repeat' (first | with_reducible exact keepsM_pure _ _ | with_reducible exact keepsM_throw _ _ | with_reducible exact keepsM_get _ | with_reducible refine keepsM_bind ?_ (fun _ => ?_) | with_reducible refine keepsM_mapM (fun _ => ?_) _ | with_reducible refine keepsM_forM (fun _ => ?_) _ | with_reducible refine keepsM_foldlM (fun _ _ => ?_) _ _ | with_reducible refine doSt_keeps _ (fun _ => ?_) | with_reducible refine askSt_keeps _ (fun _ => ?_) | (simp; done) | (simp [*]; done) | split | dsimp only))

theorem encEnsure_fr (b : Bool) (code : Nat) : KeepsM State.mram (encEnsure b code) ∧ KeepsM State.eng (encEnsure b code) ∧ KeepsM State.regs (encEnsure b code) ∧ KeepsM State.wires (encEnsure b code) ∧ KeepsM State.wq (encEnsure b code) ∧ KeepsM State.pkg (encEnsure b code) ∧ KeepsM State.pmc (encEnsure b code) ∧ KeepsM State.fwLog (encEnsure b code) ∧ KeepsM State.free (encEnsure b code) := by
  refine ⟨?_, ?_, ?_, ?_, ?_, ?_, ?_, ?_, ?_⟩ <;> (unfold encEnsure; (repeat' (first | with_reducible exact keepsM_pure _ _ | with_reducible exact keepsM_throw _ _ | with_reducible exact keepsM_get _ | with_reducible refine keepsM_bind ?_ (fun _ => ?_) | with_reducible refine keepsM_mapM (fun _ => ?_) _ | with_reducible refine keepsM_forM (fun _ => ?_) _ | with_reducible refine keepsM_foldlM (fun _ _ => ?_) _ _ | with_reducible refine doSt_keeps _ (fun _ => ?_) | with_reducible refine askSt_keeps _ (fun _ => ?_) | (simp; done) | (simp [*]; done) | split | dsimp only)))

@[simp] theorem dmRead_beside (n : Nat) (pa : Nat) (len : Nat) : KeepsM State.beside (dmRead n pa len) := by
  unfold dmRead; (repeat' (first | with_reducible exact keepsM_pure _ _ | with_reducible exact keepsM_throw _ _ | with_reducible exact keepsM_get _ | with_reducible refine keepsM_bind ?_ (fun _ => ?_) | with_reducible refine keepsM_mapM (fun _ => ?_) _ | with_reducible refine keepsM_forM (fun _ => ?_) _ | with_reducible refine keepsM_foldlM (fun _ _ => ?_) _ _ | with_reducible refine doSt_keeps _ (fun _ => ?_) | with_reducible refine askSt_keeps _ (fun _ => ?_) | (simp [kept @State.readPa_fr, kept @encEnsure_fr]; done) | (simp [*, kept @State.readPa_fr, kept @encEnsure_fr]; done) | split | dsimp only))

@[simp] theorem dmRead_apart (n : Nat) (pa : Nat) (len : Nat) : KeepsM State.apart (dmRead n pa len) := by
  unfold dmRead; (repeat' (first | with_reducible exact keepsM_pure _ _ | with_reducible exact keepsM_throw _ _ | with_reducible exact keepsM_get _ | with_reducible refine keepsM_bind ?_ (fun _ => ?_) | with_reducible refine keepsM_mapM (fun _ => ?_) _ | with_reducible refine keepsM_forM (fun _ => ?_) _ | with_reducible refine keepsM_foldlM (fun _ _ => ?_) _ _ | with_reducible refine doSt_keeps _ (fun _ => ?_) | with_reducible refine askSt_keeps _ (fun _ => ?_) | (simp [kept @State.readPa_fr, kept @encEnsure_fr]; done) | (simp [*, kept @State.readPa_fr, kept @encEnsure_fr]; done) | split | dsimp only))

theorem dmRead_fr (n : Nat) (pa : Nat) (len : Nat) : KeepsM State.eng (dmRead n pa len) ∧ KeepsM State.free (dmRead n pa len) := by
  refine ⟨?_, ?_⟩ <;> (unfold dmRead; (repeat' (first | with_reducible exact keepsM_pure _ _ | with_reducible exact keepsM_throw _ _ | with_reducible exact keepsM_get _ | with_reducible refine keepsM_bind ?_ (fun _ => ?_) | with_reducible refine keepsM_mapM (fun _ => ?_) _ | with_reducible refine keepsM_forM (fun _ => ?_) _ | with_reducible refine keepsM_foldlM (fun _ _ => ?_) _ _ | with_reducible refine doSt_keeps _ (fun _ => ?_) | with_reducible refine askSt_keeps _ (fun _ => ?_) | (simp [kept @State.readPa_fr, kept @encEnsure_fr]; done) | (simp [*, kept @State.readPa_fr, kept @encEnsure_fr]; done) | split | dsimp only)))

@[simp] theorem dmWrite_beside (n : Nat) (pa : Nat) (l : List Byte) : KeepsM State.beside (dmWrite n pa l) := by
  unfold dmWrite; (repeat' (first | with_reducible exact keepsM_pure _ _ | with_reducible exact keepsM_throw _ _ | with_reducible exact keepsM_get _ | with_reducible refine keepsM_bind ?_ (fun _ => ?_) | with_reducible refine keepsM_mapM (fun _ => ?_) _ | with_reducible refine keepsM_forM (fun _ => ?_) _ | with_reducible refine keepsM_foldlM (fun _ _ => ?_) _ _ | with_reducible refine doSt_keeps _ (fun _ => ?_) | with_reducible refine askSt_keeps _ (fun _ => ?_) | (simp [kept @State.writePa_fr, kept @encEnsure_fr]; done) | (simp [*, kept @State.writePa_fr, kept @encEnsure_fr]; done) | split | dsimp only))

theorem dmWrite_fr (n : Nat) (pa : Nat) (l : List Byte) : KeepsM State.eng (dmWrite n pa l) ∧ KeepsM State.dm (dmWrite n pa l) ∧ KeepsM State.free (dmWrite n pa l) := by
  refine ⟨?_, ?_, ?_⟩ <;> (unfold dmWrite; (repeat' (first | with_reducible exact keepsM_pure _ _ | with_reducible exact keepsM_throw _ _ | with_reducible exact keepsM_get _ | with_reducible refine keepsM_bind ?_ (fun _ => ?_) | with_reducible refine keepsM_mapM (fun _ => ?_) _ | with_reducible refine keepsM_forM (fun _ => ?_) _ | with_reducible refine keepsM_foldlM (fun _ _ => ?_) _ _ | with_reducible refine doSt_keeps _ (fun _ => ?_) | with_reducible refine askSt_keeps _ (fun _ => ?_) | (simp [kept @State.writePa_fr, kept @encEnsure_fr]; done) | (simp [*, kept @State.writePa_fr, kept @encEnsure_fr]; done) | split | dsimp only)))

@[simp] theorem writeLines_beside (n : Nat) (e : EncCol) (ls : List Nat) : KeepsM State.beside (writeLines n e ls) := by
  unfold writeLines; (repeat' (first | with_reducible exact keepsM_pure _ _ | with_reducible exact keepsM_throw _ _ | with_reducible exact keepsM_get _ | with_reducible refine keepsM_bind ?_ (fun _ => ?_) | with_reducible refine keepsM_mapM (fun _ => ?_) _ | with_reducible refine keepsM_forM (fun _ => ?_) _ | with_reducible refine keepsM_foldlM (fun _ _ => ?_) _ _ | with_reducible refine doSt_keeps _ (fun _ => ?_) | with_reducible refine askSt_keeps _ (fun _ => ?_) | (simp [kept @dmWrite_fr]; done) | (simp [*, kept @dmWrite_fr]; done) | split | dsimp only))

theorem writeLines_fr (n : Nat) (e : EncCol) (ls : List Nat) : KeepsM State.eng (writeLines n e ls) ∧ KeepsM State.dm (writeLines n e ls) ∧ KeepsM State.free (writeLines n e ls) := by
  refine ⟨?_, ?_, ?_⟩ <;> (unfold writeLines; (repeat' (first | with_reducible exact keepsM_pure _ _ | with_reducible exact keepsM_throw _ _ | with_reducible exact keepsM_get _ | with_reducible refine keepsM_bind ?_ (fun _ => ?_) | with_reducible refine keepsM_mapM (fun _ => ?_) _ | with_reducible refine keepsM_forM (fun _ => ?_) _ | with_reducible refine keepsM_foldlM (fun _ _ => ?_) _ _ | with_reducible refine doSt_keeps _ (fun _ => ?_) | with_reducible refine askSt_keeps _ (fun _ => ?_) | (simp [kept @dmWrite_fr]; done) | (simp [*, kept @dmWrite_fr]; done) | split | dsimp only)))

@[simp] theorem closePage_beside (n : Nat) (e : EncCol) : KeepsM State.beside (closePage n e) := by
  unfold closePage; (repeat' (first | with_reducible exact keepsM_pure _ _ | with_reducible exact keepsM_throw _ _ | with_reducible exact keepsM_get _ | with_reducible refine keepsM_bind ?_ (fun _ => ?_) | with_reducible refine keepsM_mapM (fun _ => ?_) _ | with_reducible refine keepsM_forM (fun _ => ?_) _ | with_reducible refine keepsM_foldlM (fun _ _ => ?_) _ _ | with_reducible refine doSt_keeps _ (fun _ => ?_) | with_reducible refine askSt_keeps _ (fun _ => ?_) | (simp [kept @State.setChan_fr, kept @State.wr_fr, kept @writeLines_fr]; done) | (simp [*, kept @State.setChan_fr, kept @State.wr_fr, kept @writeLines_fr]; done) | split | dsimp only))

theorem closePage_fr (n : Nat) (e : EncCol) : KeepsM State.eng (closePage n e) ∧ KeepsM State.free (closePage n e) := by
  refine ⟨?_, ?_⟩ <;> (unfold closePage; (repeat' (first | with_reducible exact keepsM_pure _ _ | with_reducible exact keepsM_throw _ _ | with_reducible exact keepsM_get _ | with_reducible refine keepsM_bind ?_ (fun _ => ?_) | with_reducible refine keepsM_mapM (fun _ => ?_) _ | with_reducible refine keepsM_forM (fun _ => ?_) _ | with_reducible refine keepsM_foldlM (fun _ _ => ?_) _ _ | with_reducible refine doSt_keeps _ (fun _ => ?_) | with_reducible refine askSt_keeps _ (fun _ => ?_) | (simp [kept @State.setChan_fr, kept @State.wr_fr, kept @writeLines_fr]; done) | (simp [*, kept @State.setChan_fr, kept @State.wr_fr, kept @writeLines_fr]; done) | split | dsimp only)))

@[simp] theorem copyRow_beside (n : Nat) (e : EncCol) (a : Nat × List EncRow) (r : EncRow) : KeepsM State.beside (copyRow n e a r) := by
  unfold copyRow; (repeat' (first | with_reducible exact keepsM_pure _ _ | with_reducible exact keepsM_throw _ _ | with_reducible exact keepsM_get _ | with_reducible refine keepsM_bind ?_ (fun _ => ?_) | with_reducible refine keepsM_mapM (fun _ => ?_) _ | with_reducible refine keepsM_forM (fun _ => ?_) _ | with_reducible refine keepsM_foldlM (fun _ _ => ?_) _ _ | with_reducible refine doSt_keeps _ (fun _ => ?_) | with_reducible refine askSt_keeps _ (fun _ => ?_) | (simp [kept @dmRead_fr, kept @dmWrite_fr, kept @encEnsure_fr]; done) | (simp [*, kept @dmRead_fr, kept @dmWrite_fr, kept @encEnsure_fr]; done) | split | dsimp only))

theorem copyRow_fr (n : Nat) (e : EncCol) (a : Nat × List EncRow) (r : EncRow) : KeepsM State.eng (copyRow n e a r) ∧ KeepsM State.dm (copyRow n e a r) ∧ KeepsM State.free (copyRow n e a r) := by
  refine ⟨?_, ?_, ?_⟩ <;> (unfold copyRow; (repeat' (first | with_reducible exact keepsM_pure _ _ | with_reducible exact keepsM_throw _ _ | with_reducible exact keepsM_get _ | with_reducible refine keepsM_bind ?_ (fun _ => ?_) | with_reducible refine keepsM_mapM (fun _ => ?_) _ | with_reducible refine keepsM_forM (fun _ => ?_) _ | with_reducible refine keepsM_foldlM (fun _ _ => ?_) _ _ | with_reducible refine doSt_keeps _ (fun _ => ?_) | with_reducible refine askSt_keeps _ (fun _ => ?_) | (simp [kept @dmRead_fr, kept @dmWrite_fr, kept @encEnsure_fr]; done) | (simp [*, kept @dmRead_fr, kept @dmWrite_fr, kept @encEnsure_fr]; done) | split | dsimp only)))

@[simp] theorem copyStrings_beside (n : Nat) (e : EncCol) : KeepsM State.beside (copyStrings n e) := by
  unfold copyStrings; (repeat' (first | with_reducible exact keepsM_pure _ _ | with_reducible exact keepsM_throw _ _ | with_reducible exact keepsM_get _ | with_reducible refine keepsM_bind ?_ (fun _ => ?_) | with_reducible refine keepsM_mapM (fun _ => ?_) _ | with_reducible refine keepsM_forM (fun _ => ?_) _ | with_reducible refine keepsM_foldlM (fun _ _ => ?_) _ _ | with_reducible refine doSt_keeps _ (fun _ => ?_) | with_reducible refine askSt_keeps _ (fun _ => ?_) | (simp [kept @copyRow_fr]; done) | (simp [*, kept @copyRow_fr]; done) | split | dsimp only))

theorem copyStrings_fr (n : Nat) (e : EncCol) : KeepsM State.eng (copyStrings n e) ∧ KeepsM State.dm (copyStrings n e) ∧ KeepsM State.free (copyStrings n e) := by
  refine ⟨?_, ?_, ?_⟩ <;> (unfold copyStrings; (repeat' (first | with_reducible exact keepsM_pure _ _ | with_reducible exact keepsM_throw _ _ | with_reducible exact keepsM_get _ | with_reducible refine keepsM_bind ?_ (fun _ => ?_) | with_reducible refine keepsM_mapM (fun _ => ?_) _ | with_reducible refine keepsM_forM (fun _ => ?_) _ | with_reducible refine keepsM_foldlM (fun _ _ => ?_) _ _ | with_reducible refine doSt_keeps _ (fun _ => ?_) | with_reducible refine askSt_keeps _ (fun _ => ?_) | (simp [kept @copyRow_fr]; done) | (simp [*, kept @copyRow_fr]; done) | split | dsimp only)))

@[simp] theorem placeBlock_beside (n : Nat) (e : EncCol) (r : EncRes) : KeepsM State.beside (placeBlock n e r) := by
  unfold placeBlock; (repeat' (first | with_reducible exact keepsM_pure _ _ | with_reducible exact keepsM_throw _ _ | with_reducible exact keepsM_get _ | with_reducible refine keepsM_bind ?_ (fun _ => ?_) | with_reducible refine keepsM_mapM (fun _ => ?_) _ | with_reducible refine keepsM_forM (fun _ => ?_) _ | with_reducible refine keepsM_foldlM (fun _ _ => ?_) _ _ | with_reducible refine doSt_keeps _ (fun _ => ?_) | with_reducible refine askSt_keeps _ (fun _ => ?_) | (simp [kept @dmWrite_fr, kept @encEnsure_fr]; done) | (simp [*, kept @dmWrite_fr, kept @encEnsure_fr]; done) | split | dsimp only))

theorem placeBlock_fr (n : Nat) (e : EncCol) (r : EncRes) : KeepsM State.eng (placeBlock n e r) ∧ KeepsM State.dm (placeBlock n e r) ∧ KeepsM State.free (placeBlock n e r) := by
  refine ⟨?_, ?_, ?_⟩ <;> (unfold placeBlock; (repeat' (first | with_reducible exact keepsM_pure _ _ | with_reducible exact keepsM_throw _ _ | with_reducible exact keepsM_get _ | with_reducible refine keepsM_bind ?_ (fun _ => ?_) | with_reducible refine keepsM_mapM (fun _ => ?_) _ | with_reducible refine keepsM_forM (fun _ => ?_) _ | with_reducible refine keepsM_foldlM (fun _ _ => ?_) _ _ | with_reducible refine doSt_keeps _ (fun _ => ?_) | with_reducible refine askSt_keeps _ (fun _ => ?_) | (simp [kept @dmWrite_fr, kept @encEnsure_fr]; done) | (simp [*, kept @dmWrite_fr, kept @encEnsure_fr]; done) | split | dsimp only)))

@[simp] theorem closeBlock_beside (n : Nat) (e : EncCol) : KeepsM State.beside (closeBlock n e) := by
  unfold closeBlock; (repeat' (first | with_reducible exact keepsM_pure _ _ | with_reducible exact keepsM_throw _ _ | with_reducible exact keepsM_get _ | with_reducible refine keepsM_bind ?_ (fun _ => ?_) | with_reducible refine keepsM_mapM (fun _ => ?_) _ | with_reducible refine keepsM_forM (fun _ => ?_) _ | with_reducible refine keepsM_foldlM (fun _ _ => ?_) _ _ | with_reducible refine doSt_keeps _ (fun _ => ?_) | with_reducible refine askSt_keeps _ (fun _ => ?_) | (simp [kept @closePage_fr, kept @copyStrings_fr, kept @placeBlock_fr, kept @writeLines_fr]; done) | (simp [*, kept @closePage_fr, kept @copyStrings_fr, kept @placeBlock_fr, kept @writeLines_fr]; done) | split | dsimp only))

theorem closeBlock_fr (n : Nat) (e : EncCol) : KeepsM State.eng (closeBlock n e) ∧ KeepsM State.free (closeBlock n e) := by
  refine ⟨?_, ?_⟩ <;> (unfold closeBlock; (repeat' (first | with_reducible exact keepsM_pure _ _ | with_reducible exact keepsM_throw _ _ | with_reducible exact keepsM_get _ | with_reducible refine keepsM_bind ?_ (fun _ => ?_) | with_reducible refine keepsM_mapM (fun _ => ?_) _ | with_reducible refine keepsM_forM (fun _ => ?_) _ | with_reducible refine keepsM_foldlM (fun _ _ => ?_) _ _ | with_reducible refine doSt_keeps _ (fun _ => ?_) | with_reducible refine askSt_keeps _ (fun _ => ?_) | (simp [kept @closePage_fr, kept @copyStrings_fr, kept @placeBlock_fr, kept @writeLines_fr]; done) | (simp [*, kept @closePage_fr, kept @copyStrings_fr, kept @placeBlock_fr, kept @writeLines_fr]; done) | split | dsimp only)))

@[simp] theorem flushCol_beside (n : Nat) (e : EncCol) (close : Bool) : KeepsM State.beside (flushCol n e close) := by
  unfold flushCol; (repeat' (first | with_reducible exact keepsM_pure _ _ | with_reducible exact keepsM_throw _ _ | with_reducible exact keepsM_get _ | with_reducible refine keepsM_bind ?_ (fun _ => ?_) | with_reducible refine keepsM_mapM (fun _ => ?_) _ | with_reducible refine keepsM_forM (fun _ => ?_) _ | with_reducible refine keepsM_foldlM (fun _ _ => ?_) _ _ | with_reducible refine doSt_keeps _ (fun _ => ?_) | with_reducible refine askSt_keeps _ (fun _ => ?_) | (simp [kept @closeBlock_fr, kept @closePage_fr]; done) | (simp [*, kept @closeBlock_fr, kept @closePage_fr]; done) | split | dsimp only))

theorem flushCol_fr (n : Nat) (e : EncCol) (close : Bool) : KeepsM State.eng (flushCol n e close) ∧ KeepsM State.free (flushCol n e close) := by
  refine ⟨?_, ?_⟩ <;> (unfold flushCol; (repeat' (first | with_reducible exact keepsM_pure _ _ | with_reducible exact keepsM_throw _ _ | with_reducible exact keepsM_get _ | with_reducible refine keepsM_bind ?_ (fun _ => ?_) | with_reducible refine keepsM_mapM (fun _ => ?_) _ | with_reducible refine keepsM_forM (fun _ => ?_) _ | with_reducible refine keepsM_foldlM (fun _ _ => ?_) _ _ | with_reducible refine doSt_keeps _ (fun _ => ?_) | with_reducible refine askSt_keeps _ (fun _ => ?_) | (simp [kept @closeBlock_fr, kept @closePage_fr]; done) | (simp [*, kept @closeBlock_fr, kept @closePage_fr]; done) | split | dsimp only)))

@[simp] theorem State.encDo_pending (s : State) (n : Nat) (m : EncM (Option EncCol)) (f : State → State)
    (hm : KeepsM State.pending m) (hf : ∀ s, (f s).pending = s.pending) : (s.encDo n m f).pending = s.pending := by
  unfold State.encDo
  have h := fun r => hm.snd (s := s) (r := r)
  split <;> rename_i e <;> have h := h _ e <;> simpa [hf, kept @State.dmDrop_fr, kept @State.setChan_fr] using h

@[simp] theorem State.encDo_files (s : State) (n : Nat) (m : EncM (Option EncCol)) (f : State → State)
    (hm : KeepsM State.files m) (hf : ∀ s, (f s).files = s.files) : (s.encDo n m f).files = s.files := by
  unfold State.encDo
  have h := fun r => hm.snd (s := s) (r := r)
  split <;> rename_i e <;> have h := h _ e <;> simpa [hf, kept @State.dmDrop_fr, kept @State.setChan_fr] using h

@[simp] theorem State.encDo_fabric (s : State) (n : Nat) (m : EncM (Option EncCol)) (f : State → State)
    (hm : KeepsM State.fabric m) (hf : ∀ s, (f s).fabric = s.fabric) : (s.encDo n m f).fabric = s.fabric := by
  unfold State.encDo
  have h := fun r => hm.snd (s := s) (r := r)
  split <;> rename_i e <;> have h := h _ e <;> simpa [hf, kept @State.dmDrop_fr, kept @State.setChan_fr] using h

@[simp] theorem State.encDo_flash (s : State) (n : Nat) (m : EncM (Option EncCol)) (f : State → State)
    (hm : KeepsM State.flash m) (hf : ∀ s, (f s).flash = s.flash) : (s.encDo n m f).flash = s.flash := by
  unfold State.encDo
  have h := fun r => hm.snd (s := s) (r := r)
  split <;> rename_i e <;> have h := h _ e <;> simpa [hf, kept @State.dmDrop_fr, kept @State.setChan_fr] using h

@[simp] theorem State.encDo_coldOpt (s : State) (n : Nat) (m : EncM (Option EncCol)) (f : State → State)
    (hm : KeepsM State.coldOpt m) (hf : ∀ s, (f s).coldOpt = s.coldOpt) : (s.encDo n m f).coldOpt = s.coldOpt := by
  unfold State.encDo
  have h := fun r => hm.snd (s := s) (r := r)
  split <;> rename_i e <;> have h := h _ e <;> simpa [hf, kept @State.dmDrop_fr, kept @State.setChan_fr] using h

@[simp] theorem State.encDo_imsic (s : State) (n : Nat) (m : EncM (Option EncCol)) (f : State → State)
    (hm : KeepsM State.imsic m) (hf : ∀ s, (f s).imsic = s.imsic) : (s.encDo n m f).imsic = s.imsic := by
  unfold State.encDo
  have h := fun r => hm.snd (s := s) (r := r)
  split <;> rename_i e <;> have h := h _ e <;> simpa [hf, kept @State.dmDrop_fr, kept @State.setChan_fr] using h

@[simp] theorem State.encDo_eng (s : State) (n : Nat) (m : EncM (Option EncCol)) (f : State → State)
    (hm : KeepsM State.eng m) (hf : ∀ s, (f s).eng = s.eng) : (s.encDo n m f).eng = s.eng := by
  unfold State.encDo
  have h := fun r => hm.snd (s := s) (r := r)
  split <;> rename_i e <;> have h := h _ e <;> simpa [hf, kept @State.dmDrop_fr, kept @State.setChan_fr] using h

@[simp] theorem State.encDo_fx (s : State) (n : Nat) (m : EncM (Option EncCol)) (f : State → State)
    (hm : KeepsM State.fx m) (hf : ∀ s, (f s).fx = s.fx) : (s.encDo n m f).fx = s.fx := by
  unfold State.encDo
  have h := fun r => hm.snd (s := s) (r := r)
  split <;> rename_i e <;> have h := h _ e <;> simpa [hf, kept @State.dmDrop_fr, kept @State.setChan_fr] using h

@[simp] theorem State.encDo_ctu (s : State) (n : Nat) (m : EncM (Option EncCol)) (f : State → State)
    (hm : KeepsM State.ctu m) (hf : ∀ s, (f s).ctu = s.ctu) : (s.encDo n m f).ctu = s.ctu := by
  unfold State.encDo
  have h := fun r => hm.snd (s := s) (r := r)
  split <;> rename_i e <;> have h := h _ e <;> simpa [hf, kept @State.dmDrop_fr, kept @State.setChan_fr] using h

@[simp] theorem State.encDo_links (s : State) (n : Nat) (m : EncM (Option EncCol)) (f : State → State)
    (hm : KeepsM State.links m) (hf : ∀ s, (f s).links = s.links) : (s.encDo n m f).links = s.links := by
  unfold State.encDo
  have h := fun r => hm.snd (s := s) (r := r)
  split <;> rename_i e <;> have h := h _ e <;> simpa [hf, kept @State.dmDrop_fr, kept @State.setChan_fr] using h

@[simp] theorem State.encDo_aplicS (s : State) (n : Nat) (m : EncM (Option EncCol)) (f : State → State)
    (hm : KeepsM State.aplicS m) (hf : ∀ s, (f s).aplicS = s.aplicS) : (s.encDo n m f).aplicS = s.aplicS := by
  unfold State.encDo
  have h := fun r => hm.snd (s := s) (r := r)
  split <;> rename_i e <;> have h := h _ e <;> simpa [hf, kept @State.dmDrop_fr, kept @State.setChan_fr] using h

@[simp] theorem State.encDo_aplicN (s : State) (n : Nat) (m : EncM (Option EncCol)) (f : State → State)
    (hm : KeepsM State.aplicN m) (hf : ∀ s, (f s).aplicN = s.aplicN) : (s.encDo n m f).aplicN = s.aplicN := by
  unfold State.encDo
  have h := fun r => hm.snd (s := s) (r := r)
  split <;> rename_i e <;> have h := h _ e <;> simpa [hf, kept @State.dmDrop_fr, kept @State.setChan_fr] using h

@[simp] theorem State.encDo_credits (s : State) (n : Nat) (m : EncM (Option EncCol)) (f : State → State)
    (hm : KeepsM State.credits m) (hf : ∀ s, (f s).credits = s.credits) : (s.encDo n m f).credits = s.credits := by
  unfold State.encDo
  have h := fun r => hm.snd (s := s) (r := r)
  split <;> rename_i e <;> have h := h _ e <;> simpa [hf, kept @State.dmDrop_fr, kept @State.setChan_fr] using h

@[simp] theorem State.encDo_pkts (s : State) (n : Nat) (m : EncM (Option EncCol)) (f : State → State)
    (hm : KeepsM State.pkts m) (hf : ∀ s, (f s).pkts = s.pkts) : (s.encDo n m f).pkts = s.pkts := by
  unfold State.encDo
  have h := fun r => hm.snd (s := s) (r := r)
  split <;> rename_i e <;> have h := h _ e <;> simpa [hf, kept @State.dmDrop_fr, kept @State.setChan_fr] using h

@[simp] theorem State.encDo_resp (s : State) (n : Nat) (m : EncM (Option EncCol)) (f : State → State)
    (hm : KeepsM State.resp m) (hf : ∀ s, (f s).resp = s.resp) : (s.encDo n m f).resp = s.resp := by
  unfold State.encDo
  have h := fun r => hm.snd (s := s) (r := r)
  split <;> rename_i e <;> have h := h _ e <;> simpa [hf, kept @State.dmDrop_fr, kept @State.setChan_fr] using h

@[simp] theorem State.encDo_out (s : State) (n : Nat) (m : EncM (Option EncCol)) (f : State → State)
    (hm : KeepsM State.out m) (hf : ∀ s, (f s).out = s.out) : (s.encDo n m f).out = s.out := by
  unfold State.encDo
  have h := fun r => hm.snd (s := s) (r := r)
  split <;> rename_i e <;> have h := h _ e <;> simpa [hf, kept @State.dmDrop_fr, kept @State.setChan_fr] using h

@[simp] theorem State.encDo_free (s : State) (n : Nat) (m : EncM (Option EncCol)) (f : State → State)
    (hm : KeepsM State.free m) (hf : ∀ s, (f s).free = s.free) : (s.encDo n m f).free = s.free := by
  unfold State.encDo
  have h := fun r => hm.snd (s := s) (r := r)
  split <;> rename_i e <;> have h := h _ e <;> simpa [hf, kept @State.dmDrop_fr, kept @State.setChan_fr] using h

@[simp] theorem sourceBits_beside (n : Nat) (e : EncCol) (k : Nat) : KeepsM State.beside (sourceBits n e k) := by
  unfold sourceBits; (repeat' (first | with_reducible exact keepsM_pure _ _ | with_reducible exact keepsM_throw _ _ | with_reducible exact keepsM_get _ | with_reducible refine keepsM_bind ?_ (fun _ => ?_) | with_reducible refine keepsM_mapM (fun _ => ?_) _ | with_reducible refine keepsM_forM (fun _ => ?_) _ | with_reducible refine keepsM_foldlM (fun _ _ => ?_) _ _ | with_reducible refine doSt_keeps _ (fun _ => ?_) | with_reducible refine askSt_keeps _ (fun _ => ?_) | (simp [kept @dmRead_fr]; done) | (simp [*, kept @dmRead_fr]; done) | split | dsimp only))

@[simp] theorem sourceBits_apart (n : Nat) (e : EncCol) (k : Nat) : KeepsM State.apart (sourceBits n e k) := by
  unfold sourceBits; (repeat' (first | with_reducible exact keepsM_pure _ _ | with_reducible exact keepsM_throw _ _ | with_reducible exact keepsM_get _ | with_reducible refine keepsM_bind ?_ (fun _ => ?_) | with_reducible refine keepsM_mapM (fun _ => ?_) _ | with_reducible refine keepsM_forM (fun _ => ?_) _ | with_reducible refine keepsM_foldlM (fun _ _ => ?_) _ _ | with_reducible refine doSt_keeps _ (fun _ => ?_) | with_reducible refine askSt_keeps _ (fun _ => ?_) | (simp [kept @dmRead_fr]; done) | (simp [*, kept @dmRead_fr]; done) | split | dsimp only))

theorem sourceBits_fr (n : Nat) (e : EncCol) (k : Nat) : KeepsM State.eng (sourceBits n e k) ∧ KeepsM State.free (sourceBits n e k) := by
  refine ⟨?_, ?_⟩ <;> (unfold sourceBits; (repeat' (first | with_reducible exact keepsM_pure _ _ | with_reducible exact keepsM_throw _ _ | with_reducible exact keepsM_get _ | with_reducible refine keepsM_bind ?_ (fun _ => ?_) | with_reducible refine keepsM_mapM (fun _ => ?_) _ | with_reducible refine keepsM_forM (fun _ => ?_) _ | with_reducible refine keepsM_foldlM (fun _ _ => ?_) _ _ | with_reducible refine doSt_keeps _ (fun _ => ?_) | with_reducible refine askSt_keeps _ (fun _ => ?_) | (simp [kept @dmRead_fr]; done) | (simp [*, kept @dmRead_fr]; done) | split | dsimp only)))

@[simp] theorem takeRowsOf_beside (n : Nat) (e : EncCol) (left : Nat) : KeepsM State.beside (takeRowsOf n e left) := by
  unfold takeRowsOf; (repeat' (first | with_reducible exact keepsM_pure _ _ | with_reducible exact keepsM_throw _ _ | with_reducible exact keepsM_get _ | with_reducible refine keepsM_bind ?_ (fun _ => ?_) | with_reducible refine keepsM_mapM (fun _ => ?_) _ | with_reducible refine keepsM_forM (fun _ => ?_) _ | with_reducible refine keepsM_foldlM (fun _ _ => ?_) _ _ | with_reducible refine doSt_keeps _ (fun _ => ?_) | with_reducible refine askSt_keeps _ (fun _ => ?_) | (simp [kept @closeBlock_fr, kept @dmRead_fr, kept @sourceBits_fr]; done) | (simp [*, kept @closeBlock_fr, kept @dmRead_fr, kept @sourceBits_fr]; done) | split | dsimp only))

theorem takeRowsOf_fr (n : Nat) (e : EncCol) (left : Nat) : KeepsM State.eng (takeRowsOf n e left) ∧ KeepsM State.free (takeRowsOf n e left) := by
  refine ⟨?_, ?_⟩ <;> (unfold takeRowsOf; (repeat' (first | with_reducible exact keepsM_pure _ _ | with_reducible exact keepsM_throw _ _ | with_reducible exact keepsM_get _ | with_reducible refine keepsM_bind ?_ (fun _ => ?_) | with_reducible refine keepsM_mapM (fun _ => ?_) _ | with_reducible refine keepsM_forM (fun _ => ?_) _ | with_reducible refine keepsM_foldlM (fun _ _ => ?_) _ _ | with_reducible refine doSt_keeps _ (fun _ => ?_) | with_reducible refine askSt_keeps _ (fun _ => ?_) | (simp [kept @closeBlock_fr, kept @dmRead_fr, kept @sourceBits_fr]; done) | (simp [*, kept @closeBlock_fr, kept @dmRead_fr, kept @sourceBits_fr]; done) | split | dsimp only)))

end Sys2Proof.Machine
end

