-- ==== Sys2Proof/Laws/Frame/Units.lean ====
section
/-! SUPPORT. What the operations of Machine/Units.lean leave unchanged. -/

set_option Elab.async false
set_option linter.all false

namespace Sys2Proof.Machine
open Sys2Proof

theorem State.loseSlice_fr (s : State) (n : Nat) : (State.loseSlice s n).pending = s.pending ∧ (State.loseSlice s n).flash = s.flash ∧ (State.loseSlice s n).coldOpt = s.coldOpt ∧ (State.loseSlice s n).mem = s.mem ∧ (State.loseSlice s n).harts = s.harts ∧ (State.loseSlice s n).mram = s.mram ∧ (State.loseSlice s n).imsic = s.imsic ∧ (State.loseSlice s n).dm = s.dm ∧ (State.loseSlice s n).fx = s.fx ∧ (State.loseSlice s n).ctu = s.ctu ∧ (State.loseSlice s n).links = s.links ∧ (State.loseSlice s n).aplicS = s.aplicS ∧ (State.loseSlice s n).aplicN = s.aplicN ∧ (State.loseSlice s n).credits = s.credits ∧ (State.loseSlice s n).clusters = s.clusters ∧ (State.loseSlice s n).homes = s.homes ∧ (State.loseSlice s n).pkts = s.pkts ∧ (State.loseSlice s n).resp = s.resp ∧ (State.loseSlice s n).wires = s.wires ∧ (State.loseSlice s n).dmg = s.dmg ∧ (State.loseSlice s n).wq = s.wq ∧ (State.loseSlice s n).net = s.net ∧ (State.loseSlice s n).dbInval = s.dbInval ∧ (State.loseSlice s n).watch = s.watch ∧ (State.loseSlice s n).pkg = s.pkg ∧ (State.loseSlice s n).pmc = s.pmc ∧ (State.loseSlice s n).fwLog = s.fwLog ∧ (State.loseSlice s n).out = s.out ∧ (State.loseSlice s n).free = s.free ∧ (State.loseSlice s n).fabric = s.fabric ∧ (State.loseSlice s n).files = s.files := by
  generalize h : State.loseSlice s n = u
  unfold State.loseSlice at h
  rw [← h]; simp [kept @State.dropSlice_fr]

theorem State.engineReset_fr (s : State) : (State.engineReset s).pending = s.pending ∧ (State.engineReset s).flash = s.flash ∧ (State.engineReset s).coldOpt = s.coldOpt ∧ (State.engineReset s).mem = s.mem ∧ (State.engineReset s).harts = s.harts ∧ (State.engineReset s).mram = s.mram ∧ (State.engineReset s).imsic = s.imsic ∧ (State.engineReset s).dm = s.dm ∧ (State.engineReset s).fx = s.fx ∧ (State.engineReset s).ctu = s.ctu ∧ (State.engineReset s).links = s.links ∧ (State.engineReset s).aplicS = s.aplicS ∧ (State.engineReset s).aplicN = s.aplicN ∧ (State.engineReset s).credits = s.credits ∧ (State.engineReset s).clusters = s.clusters ∧ (State.engineReset s).homes = s.homes ∧ (State.engineReset s).pkts = s.pkts ∧ (State.engineReset s).resp = s.resp ∧ (State.engineReset s).regs = s.regs ∧ (State.engineReset s).wires = s.wires ∧ (State.engineReset s).dmg = s.dmg ∧ (State.engineReset s).wq = s.wq ∧ (State.engineReset s).net = s.net ∧ (State.engineReset s).dbInval = s.dbInval ∧ (State.engineReset s).watch = s.watch ∧ (State.engineReset s).pkg = s.pkg ∧ (State.engineReset s).pmc = s.pmc ∧ (State.engineReset s).fwLog = s.fwLog ∧ (State.engineReset s).out = s.out ∧ (State.engineReset s).free = s.free ∧ (State.engineReset s).fabric = s.fabric ∧ (State.engineReset s).files = s.files := by
  generalize h : State.engineReset s = u
  unfold State.engineReset at h
  rw [← h]; simp

theorem State.dmReset_fr (s : State) : (State.dmReset s).pending = s.pending ∧ (State.dmReset s).flash = s.flash ∧ (State.dmReset s).coldOpt = s.coldOpt ∧ (State.dmReset s).mem = s.mem ∧ (State.dmReset s).harts = s.harts ∧ (State.dmReset s).mram = s.mram ∧ (State.dmReset s).imsic = s.imsic ∧ (State.dmReset s).eng = s.eng ∧ (State.dmReset s).fx = s.fx ∧ (State.dmReset s).ctu = s.ctu ∧ (State.dmReset s).links = s.links ∧ (State.dmReset s).aplicS = s.aplicS ∧ (State.dmReset s).aplicN = s.aplicN ∧ (State.dmReset s).credits = s.credits ∧ (State.dmReset s).clusters = s.clusters ∧ (State.dmReset s).homes = s.homes ∧ (State.dmReset s).pkts = s.pkts ∧ (State.dmReset s).resp = s.resp ∧ (State.dmReset s).regs = s.regs ∧ (State.dmReset s).wires = s.wires ∧ (State.dmReset s).dmg = s.dmg ∧ (State.dmReset s).wq = s.wq ∧ (State.dmReset s).net = s.net ∧ (State.dmReset s).dbInval = s.dbInval ∧ (State.dmReset s).watch = s.watch ∧ (State.dmReset s).pkg = s.pkg ∧ (State.dmReset s).pmc = s.pmc ∧ (State.dmReset s).fwLog = s.fwLog ∧ (State.dmReset s).out = s.out ∧ (State.dmReset s).free = s.free ∧ (State.dmReset s).fabric = s.fabric ∧ (State.dmReset s).files = s.files := by
  generalize h : State.dmReset s = u
  unfold State.dmReset at h
  rw [← h]; simp

theorem State.rereadDoorbells_fr (s : State) : (State.rereadDoorbells s).pending = s.pending ∧ (State.rereadDoorbells s).flash = s.flash ∧ (State.rereadDoorbells s).coldOpt = s.coldOpt ∧ (State.rereadDoorbells s).mem = s.mem ∧ (State.rereadDoorbells s).imsic = s.imsic ∧ (State.rereadDoorbells s).ctu = s.ctu ∧ (State.rereadDoorbells s).links = s.links ∧ (State.rereadDoorbells s).aplicS = s.aplicS ∧ (State.rereadDoorbells s).aplicN = s.aplicN ∧ (State.rereadDoorbells s).credits = s.credits ∧ (State.rereadDoorbells s).pkts = s.pkts ∧ (State.rereadDoorbells s).resp = s.resp ∧ (State.rereadDoorbells s).dmg = s.dmg ∧ (State.rereadDoorbells s).free = s.free ∧ (State.rereadDoorbells s).fabric = s.fabric ∧ (State.rereadDoorbells s).files = s.files := by
  generalize h : State.rereadDoorbells s = u
  unfold State.rereadDoorbells at h
  rw [← h]; simp [kept @State.watchLine_fr]

theorem State.finxisReset_fr (s : State) : (State.finxisReset s).pending = s.pending ∧ (State.finxisReset s).flash = s.flash ∧ (State.finxisReset s).coldOpt = s.coldOpt ∧ (State.finxisReset s).mem = s.mem ∧ (State.finxisReset s).harts = s.harts ∧ (State.finxisReset s).mram = s.mram ∧ (State.finxisReset s).imsic = s.imsic ∧ (State.finxisReset s).eng = s.eng ∧ (State.finxisReset s).dm = s.dm ∧ (State.finxisReset s).ctu = s.ctu ∧ (State.finxisReset s).links = s.links ∧ (State.finxisReset s).aplicS = s.aplicS ∧ (State.finxisReset s).aplicN = s.aplicN ∧ (State.finxisReset s).credits = s.credits ∧ (State.finxisReset s).clusters = s.clusters ∧ (State.finxisReset s).homes = s.homes ∧ (State.finxisReset s).pkts = s.pkts ∧ (State.finxisReset s).resp = s.resp ∧ (State.finxisReset s).regs = s.regs ∧ (State.finxisReset s).wires = s.wires ∧ (State.finxisReset s).dmg = s.dmg ∧ (State.finxisReset s).wq = s.wq ∧ (State.finxisReset s).net = s.net ∧ (State.finxisReset s).dbInval = s.dbInval ∧ (State.finxisReset s).watch = s.watch ∧ (State.finxisReset s).pkg = s.pkg ∧ (State.finxisReset s).pmc = s.pmc ∧ (State.finxisReset s).fwLog = s.fwLog ∧ (State.finxisReset s).out = s.out ∧ (State.finxisReset s).free = s.free ∧ (State.finxisReset s).fabric = s.fabric ∧ (State.finxisReset s).files = s.files := by
  generalize h : State.finxisReset s = u
  unfold State.finxisReset at h
  rw [← h]; simp

theorem State.finxisLane2_fr (s : State) : (State.finxisLane2 s).pending = s.pending ∧ (State.finxisLane2 s).flash = s.flash ∧ (State.finxisLane2 s).coldOpt = s.coldOpt ∧ (State.finxisLane2 s).mem = s.mem ∧ (State.finxisLane2 s).harts = s.harts ∧ (State.finxisLane2 s).mram = s.mram ∧ (State.finxisLane2 s).imsic = s.imsic ∧ (State.finxisLane2 s).eng = s.eng ∧ (State.finxisLane2 s).dm = s.dm ∧ (State.finxisLane2 s).ctu = s.ctu ∧ (State.finxisLane2 s).links = s.links ∧ (State.finxisLane2 s).aplicS = s.aplicS ∧ (State.finxisLane2 s).aplicN = s.aplicN ∧ (State.finxisLane2 s).credits = s.credits ∧ (State.finxisLane2 s).clusters = s.clusters ∧ (State.finxisLane2 s).homes = s.homes ∧ (State.finxisLane2 s).pkts = s.pkts ∧ (State.finxisLane2 s).resp = s.resp ∧ (State.finxisLane2 s).regs = s.regs ∧ (State.finxisLane2 s).wires = s.wires ∧ (State.finxisLane2 s).dmg = s.dmg ∧ (State.finxisLane2 s).wq = s.wq ∧ (State.finxisLane2 s).net = s.net ∧ (State.finxisLane2 s).dbInval = s.dbInval ∧ (State.finxisLane2 s).watch = s.watch ∧ (State.finxisLane2 s).pkg = s.pkg ∧ (State.finxisLane2 s).pmc = s.pmc ∧ (State.finxisLane2 s).fwLog = s.fwLog ∧ (State.finxisLane2 s).out = s.out ∧ (State.finxisLane2 s).free = s.free ∧ (State.finxisLane2 s).fabric = s.fabric ∧ (State.finxisLane2 s).files = s.files := by
  generalize h : State.finxisLane2 s = u
  unfold State.finxisLane2 at h
  (try dsimp only at h); (repeat' split at h) <;> rw [← h] <;> simp

theorem State.finxisDown_fr (s : State) (p : Nat) (cause : Nat) : (State.finxisDown s p cause).pending = s.pending ∧ (State.finxisDown s p cause).flash = s.flash ∧ (State.finxisDown s p cause).coldOpt = s.coldOpt ∧ (State.finxisDown s p cause).mem = s.mem ∧ (State.finxisDown s p cause).harts = s.harts ∧ (State.finxisDown s p cause).mram = s.mram ∧ (State.finxisDown s p cause).imsic = s.imsic ∧ (State.finxisDown s p cause).eng = s.eng ∧ (State.finxisDown s p cause).dm = s.dm ∧ (State.finxisDown s p cause).fx = s.fx ∧ (State.finxisDown s p cause).ctu = s.ctu ∧ (State.finxisDown s p cause).links = s.links ∧ (State.finxisDown s p cause).aplicS = s.aplicS ∧ (State.finxisDown s p cause).aplicN = s.aplicN ∧ (State.finxisDown s p cause).credits = s.credits ∧ (State.finxisDown s p cause).clusters = s.clusters ∧ (State.finxisDown s p cause).homes = s.homes ∧ (State.finxisDown s p cause).pkts = s.pkts ∧ (State.finxisDown s p cause).resp = s.resp ∧ (State.finxisDown s p cause).dmg = s.dmg ∧ (State.finxisDown s p cause).wq = s.wq ∧ (State.finxisDown s p cause).net = s.net ∧ (State.finxisDown s p cause).dbInval = s.dbInval ∧ (State.finxisDown s p cause).watch = s.watch ∧ (State.finxisDown s p cause).pkg = s.pkg ∧ (State.finxisDown s p cause).pmc = s.pmc ∧ (State.finxisDown s p cause).fwLog = s.fwLog ∧ (State.finxisDown s p cause).out = s.out ∧ (State.finxisDown s p cause).free = s.free ∧ (State.finxisDown s p cause).fabric = s.fabric ∧ (State.finxisDown s p cause).files = s.files := by
  generalize h : State.finxisDown s p cause = u
  unfold State.finxisDown at h
  rw [← h]; simp [kept @State.raise_fr, kept @State.wrs_fr]

theorem State.portLow_fr (s : State) (p : Nat) : (State.portLow s p).pending = s.pending ∧ (State.portLow s p).flash = s.flash ∧ (State.portLow s p).coldOpt = s.coldOpt ∧ (State.portLow s p).mem = s.mem ∧ (State.portLow s p).harts = s.harts ∧ (State.portLow s p).mram = s.mram ∧ (State.portLow s p).imsic = s.imsic ∧ (State.portLow s p).eng = s.eng ∧ (State.portLow s p).dm = s.dm ∧ (State.portLow s p).ctu = s.ctu ∧ (State.portLow s p).links = s.links ∧ (State.portLow s p).aplicS = s.aplicS ∧ (State.portLow s p).aplicN = s.aplicN ∧ (State.portLow s p).credits = s.credits ∧ (State.portLow s p).clusters = s.clusters ∧ (State.portLow s p).homes = s.homes ∧ (State.portLow s p).pkts = s.pkts ∧ (State.portLow s p).resp = s.resp ∧ (State.portLow s p).wires = s.wires ∧ (State.portLow s p).dmg = s.dmg ∧ (State.portLow s p).wq = s.wq ∧ (State.portLow s p).net = s.net ∧ (State.portLow s p).dbInval = s.dbInval ∧ (State.portLow s p).watch = s.watch ∧ (State.portLow s p).pkg = s.pkg ∧ (State.portLow s p).pmc = s.pmc ∧ (State.portLow s p).fwLog = s.fwLog ∧ (State.portLow s p).out = s.out ∧ (State.portLow s p).free = s.free ∧ (State.portLow s p).fabric = s.fabric ∧ (State.portLow s p).files = s.files := by
  generalize h : State.portLow s p = u
  unfold State.portLow at h
  (try dsimp only at h); (repeat' split at h) <;> rw [← h] <;> simp [kept @State.fxUntrained_fr, kept @State.wr_fr]

theorem State.portWake_fr (s : State) (p : Nat) : (State.portWake s p).pending = s.pending ∧ (State.portWake s p).flash = s.flash ∧ (State.portWake s p).coldOpt = s.coldOpt ∧ (State.portWake s p).mem = s.mem ∧ (State.portWake s p).harts = s.harts ∧ (State.portWake s p).mram = s.mram ∧ (State.portWake s p).imsic = s.imsic ∧ (State.portWake s p).eng = s.eng ∧ (State.portWake s p).dm = s.dm ∧ (State.portWake s p).ctu = s.ctu ∧ (State.portWake s p).links = s.links ∧ (State.portWake s p).aplicS = s.aplicS ∧ (State.portWake s p).aplicN = s.aplicN ∧ (State.portWake s p).credits = s.credits ∧ (State.portWake s p).clusters = s.clusters ∧ (State.portWake s p).homes = s.homes ∧ (State.portWake s p).pkts = s.pkts ∧ (State.portWake s p).resp = s.resp ∧ (State.portWake s p).wires = s.wires ∧ (State.portWake s p).dmg = s.dmg ∧ (State.portWake s p).wq = s.wq ∧ (State.portWake s p).net = s.net ∧ (State.portWake s p).dbInval = s.dbInval ∧ (State.portWake s p).watch = s.watch ∧ (State.portWake s p).pkg = s.pkg ∧ (State.portWake s p).pmc = s.pmc ∧ (State.portWake s p).fwLog = s.fwLog ∧ (State.portWake s p).out = s.out ∧ (State.portWake s p).free = s.free ∧ (State.portWake s p).fabric = s.fabric ∧ (State.portWake s p).files = s.files := by
  generalize h : State.portWake s p = u
  unfold State.portWake at h
  (try dsimp only at h); (repeat' split at h) <;> rw [← h] <;> simp [kept @State.fxActive_fr, kept @State.fxUntrained_fr]

theorem State.finxisLow_fr (s : State) (low : Bool) : (State.finxisLow s low).pending = s.pending ∧ (State.finxisLow s low).flash = s.flash ∧ (State.finxisLow s low).coldOpt = s.coldOpt ∧ (State.finxisLow s low).mem = s.mem ∧ (State.finxisLow s low).harts = s.harts ∧ (State.finxisLow s low).mram = s.mram ∧ (State.finxisLow s low).imsic = s.imsic ∧ (State.finxisLow s low).eng = s.eng ∧ (State.finxisLow s low).dm = s.dm ∧ (State.finxisLow s low).ctu = s.ctu ∧ (State.finxisLow s low).links = s.links ∧ (State.finxisLow s low).aplicS = s.aplicS ∧ (State.finxisLow s low).aplicN = s.aplicN ∧ (State.finxisLow s low).credits = s.credits ∧ (State.finxisLow s low).clusters = s.clusters ∧ (State.finxisLow s low).homes = s.homes ∧ (State.finxisLow s low).pkts = s.pkts ∧ (State.finxisLow s low).resp = s.resp ∧ (State.finxisLow s low).wires = s.wires ∧ (State.finxisLow s low).dmg = s.dmg ∧ (State.finxisLow s low).wq = s.wq ∧ (State.finxisLow s low).net = s.net ∧ (State.finxisLow s low).dbInval = s.dbInval ∧ (State.finxisLow s low).watch = s.watch ∧ (State.finxisLow s low).pkg = s.pkg ∧ (State.finxisLow s low).pmc = s.pmc ∧ (State.finxisLow s low).fwLog = s.fwLog ∧ (State.finxisLow s low).out = s.out ∧ (State.finxisLow s low).free = s.free ∧ (State.finxisLow s low).fabric = s.fabric ∧ (State.finxisLow s low).files = s.files := by
  generalize h : State.finxisLow s low = u
  unfold State.finxisLow at h
  rw [← h]; simp [kept @State.portLow_fr, kept @State.portWake_fr]

theorem State.dropWindowsOf_fr (s : State) (p : Nat) : (State.dropWindowsOf s p).pending = s.pending ∧ (State.dropWindowsOf s p).flash = s.flash ∧ (State.dropWindowsOf s p).coldOpt = s.coldOpt ∧ (State.dropWindowsOf s p).mem = s.mem ∧ (State.dropWindowsOf s p).harts = s.harts ∧ (State.dropWindowsOf s p).mram = s.mram ∧ (State.dropWindowsOf s p).imsic = s.imsic ∧ (State.dropWindowsOf s p).eng = s.eng ∧ (State.dropWindowsOf s p).dm = s.dm ∧ (State.dropWindowsOf s p).ctu = s.ctu ∧ (State.dropWindowsOf s p).links = s.links ∧ (State.dropWindowsOf s p).aplicS = s.aplicS ∧ (State.dropWindowsOf s p).aplicN = s.aplicN ∧ (State.dropWindowsOf s p).credits = s.credits ∧ (State.dropWindowsOf s p).clusters = s.clusters ∧ (State.dropWindowsOf s p).homes = s.homes ∧ (State.dropWindowsOf s p).pkts = s.pkts ∧ (State.dropWindowsOf s p).resp = s.resp ∧ (State.dropWindowsOf s p).dmg = s.dmg ∧ (State.dropWindowsOf s p).wq = s.wq ∧ (State.dropWindowsOf s p).net = s.net ∧ (State.dropWindowsOf s p).dbInval = s.dbInval ∧ (State.dropWindowsOf s p).watch = s.watch ∧ (State.dropWindowsOf s p).pkg = s.pkg ∧ (State.dropWindowsOf s p).pmc = s.pmc ∧ (State.dropWindowsOf s p).fwLog = s.fwLog ∧ (State.dropWindowsOf s p).out = s.out ∧ (State.dropWindowsOf s p).free = s.free ∧ (State.dropWindowsOf s p).fabric = s.fabric ∧ (State.dropWindowsOf s p).files = s.files := by
  generalize h : State.dropWindowsOf s p = u
  unfold State.dropWindowsOf at h
  rw [← h]; simp [kept @State.fxDropped_fr, kept @State.raise_fr, kept @State.setPort_fr]

theorem State.portsOff_fr (s : State) (t : State) : (State.portsOff s t).pending = t.pending ∧ (State.portsOff s t).flash = t.flash ∧ (State.portsOff s t).coldOpt = t.coldOpt ∧ (State.portsOff s t).mem = t.mem ∧ (State.portsOff s t).harts = t.harts ∧ (State.portsOff s t).mram = t.mram ∧ (State.portsOff s t).imsic = t.imsic ∧ (State.portsOff s t).eng = t.eng ∧ (State.portsOff s t).dm = t.dm ∧ (State.portsOff s t).ctu = t.ctu ∧ (State.portsOff s t).links = t.links ∧ (State.portsOff s t).aplicS = t.aplicS ∧ (State.portsOff s t).aplicN = t.aplicN ∧ (State.portsOff s t).credits = t.credits ∧ (State.portsOff s t).clusters = t.clusters ∧ (State.portsOff s t).homes = t.homes ∧ (State.portsOff s t).pkts = t.pkts ∧ (State.portsOff s t).resp = t.resp ∧ (State.portsOff s t).wires = t.wires ∧ (State.portsOff s t).dmg = t.dmg ∧ (State.portsOff s t).wq = t.wq ∧ (State.portsOff s t).net = t.net ∧ (State.portsOff s t).dbInval = t.dbInval ∧ (State.portsOff s t).watch = t.watch ∧ (State.portsOff s t).pkg = t.pkg ∧ (State.portsOff s t).pmc = t.pmc ∧ (State.portsOff s t).fwLog = t.fwLog ∧ (State.portsOff s t).out = t.out ∧ (State.portsOff s t).free = t.free ∧ (State.portsOff s t).fabric = t.fabric ∧ (State.portsOff s t).files = t.files := by
  generalize h : State.portsOff s t = u
  unfold State.portsOff at h
  (try dsimp only at h); (repeat' split at h) <;> rw [← h] <;> simp [kept @State.setPort_fr, kept @State.wrs_fr]

theorem State.dropWindows_fr (s : State) : (State.dropWindows s).pending = s.pending ∧ (State.dropWindows s).flash = s.flash ∧ (State.dropWindows s).coldOpt = s.coldOpt ∧ (State.dropWindows s).mem = s.mem ∧ (State.dropWindows s).harts = s.harts ∧ (State.dropWindows s).mram = s.mram ∧ (State.dropWindows s).imsic = s.imsic ∧ (State.dropWindows s).eng = s.eng ∧ (State.dropWindows s).dm = s.dm ∧ (State.dropWindows s).ctu = s.ctu ∧ (State.dropWindows s).links = s.links ∧ (State.dropWindows s).aplicS = s.aplicS ∧ (State.dropWindows s).aplicN = s.aplicN ∧ (State.dropWindows s).credits = s.credits ∧ (State.dropWindows s).clusters = s.clusters ∧ (State.dropWindows s).homes = s.homes ∧ (State.dropWindows s).pkts = s.pkts ∧ (State.dropWindows s).resp = s.resp ∧ (State.dropWindows s).dmg = s.dmg ∧ (State.dropWindows s).wq = s.wq ∧ (State.dropWindows s).net = s.net ∧ (State.dropWindows s).dbInval = s.dbInval ∧ (State.dropWindows s).watch = s.watch ∧ (State.dropWindows s).pkg = s.pkg ∧ (State.dropWindows s).pmc = s.pmc ∧ (State.dropWindows s).fwLog = s.fwLog ∧ (State.dropWindows s).out = s.out ∧ (State.dropWindows s).free = s.free ∧ (State.dropWindows s).fabric = s.fabric ∧ (State.dropWindows s).files = s.files := by
  generalize h : State.dropWindows s = u
  unfold State.dropWindows at h
  rw [← h]; simp [kept @State.dropWindowsOf_fr]

theorem State.ctuShow_fr (s : State) (w : World) : (State.ctuShow s w).pending = s.pending ∧ (State.ctuShow s w).flash = s.flash ∧ (State.ctuShow s w).coldOpt = s.coldOpt ∧ (State.ctuShow s w).mem = s.mem ∧ (State.ctuShow s w).harts = s.harts ∧ (State.ctuShow s w).mram = s.mram ∧ (State.ctuShow s w).imsic = s.imsic ∧ (State.ctuShow s w).eng = s.eng ∧ (State.ctuShow s w).dm = s.dm ∧ (State.ctuShow s w).fx = s.fx ∧ (State.ctuShow s w).ctu = s.ctu ∧ (State.ctuShow s w).links = s.links ∧ (State.ctuShow s w).aplicS = s.aplicS ∧ (State.ctuShow s w).aplicN = s.aplicN ∧ (State.ctuShow s w).credits = s.credits ∧ (State.ctuShow s w).clusters = s.clusters ∧ (State.ctuShow s w).homes = s.homes ∧ (State.ctuShow s w).pkts = s.pkts ∧ (State.ctuShow s w).resp = s.resp ∧ (State.ctuShow s w).wires = s.wires ∧ (State.ctuShow s w).dmg = s.dmg ∧ (State.ctuShow s w).wq = s.wq ∧ (State.ctuShow s w).net = s.net ∧ (State.ctuShow s w).dbInval = s.dbInval ∧ (State.ctuShow s w).watch = s.watch ∧ (State.ctuShow s w).pkg = s.pkg ∧ (State.ctuShow s w).pmc = s.pmc ∧ (State.ctuShow s w).fwLog = s.fwLog ∧ (State.ctuShow s w).out = s.out ∧ (State.ctuShow s w).free = s.free ∧ (State.ctuShow s w).fabric = s.fabric ∧ (State.ctuShow s w).files = s.files := by
  generalize h : State.ctuShow s w = u
  unfold State.ctuShow at h
  rw [← h]; simp [kept @State.wrs_fr]

theorem State.setCtu_fr (s : State) (c : Ctu) : (State.setCtu s c).pending = s.pending ∧ (State.setCtu s c).flash = s.flash ∧ (State.setCtu s c).coldOpt = s.coldOpt ∧ (State.setCtu s c).mem = s.mem ∧ (State.setCtu s c).harts = s.harts ∧ (State.setCtu s c).mram = s.mram ∧ (State.setCtu s c).imsic = s.imsic ∧ (State.setCtu s c).eng = s.eng ∧ (State.setCtu s c).dm = s.dm ∧ (State.setCtu s c).fx = s.fx ∧ (State.setCtu s c).links = s.links ∧ (State.setCtu s c).aplicS = s.aplicS ∧ (State.setCtu s c).aplicN = s.aplicN ∧ (State.setCtu s c).credits = s.credits ∧ (State.setCtu s c).clusters = s.clusters ∧ (State.setCtu s c).homes = s.homes ∧ (State.setCtu s c).pkts = s.pkts ∧ (State.setCtu s c).resp = s.resp ∧ (State.setCtu s c).wires = s.wires ∧ (State.setCtu s c).dmg = s.dmg ∧ (State.setCtu s c).wq = s.wq ∧ (State.setCtu s c).net = s.net ∧ (State.setCtu s c).dbInval = s.dbInval ∧ (State.setCtu s c).watch = s.watch ∧ (State.setCtu s c).pkg = s.pkg ∧ (State.setCtu s c).pmc = s.pmc ∧ (State.setCtu s c).fwLog = s.fwLog ∧ (State.setCtu s c).out = s.out ∧ (State.setCtu s c).free = s.free ∧ (State.setCtu s c).fabric = s.fabric ∧ (State.setCtu s c).files = s.files := by
  generalize h : State.setCtu s c = u
  unfold State.setCtu at h
  rw [← h]; simp [kept @State.ctuShow_fr]

theorem State.ctuResult_fr (s : State) (w : World) (implicit : Bool) (r : Nat) : (State.ctuResult s w implicit r).pending = s.pending ∧ (State.ctuResult s w implicit r).flash = s.flash ∧ (State.ctuResult s w implicit r).coldOpt = s.coldOpt ∧ (State.ctuResult s w implicit r).mem = s.mem ∧ (State.ctuResult s w implicit r).harts = s.harts ∧ (State.ctuResult s w implicit r).mram = s.mram ∧ (State.ctuResult s w implicit r).imsic = s.imsic ∧ (State.ctuResult s w implicit r).eng = s.eng ∧ (State.ctuResult s w implicit r).dm = s.dm ∧ (State.ctuResult s w implicit r).fx = s.fx ∧ (State.ctuResult s w implicit r).ctu = s.ctu ∧ (State.ctuResult s w implicit r).links = s.links ∧ (State.ctuResult s w implicit r).aplicS = s.aplicS ∧ (State.ctuResult s w implicit r).aplicN = s.aplicN ∧ (State.ctuResult s w implicit r).credits = s.credits ∧ (State.ctuResult s w implicit r).clusters = s.clusters ∧ (State.ctuResult s w implicit r).homes = s.homes ∧ (State.ctuResult s w implicit r).pkts = s.pkts ∧ (State.ctuResult s w implicit r).resp = s.resp ∧ (State.ctuResult s w implicit r).dmg = s.dmg ∧ (State.ctuResult s w implicit r).wq = s.wq ∧ (State.ctuResult s w implicit r).net = s.net ∧ (State.ctuResult s w implicit r).dbInval = s.dbInval ∧ (State.ctuResult s w implicit r).watch = s.watch ∧ (State.ctuResult s w implicit r).pkg = s.pkg ∧ (State.ctuResult s w implicit r).pmc = s.pmc ∧ (State.ctuResult s w implicit r).fwLog = s.fwLog ∧ (State.ctuResult s w implicit r).out = s.out ∧ (State.ctuResult s w implicit r).free = s.free ∧ (State.ctuResult s w implicit r).fabric = s.fabric ∧ (State.ctuResult s w implicit r).files = s.files := by
  generalize h : State.ctuResult s w implicit r = u
  unfold State.ctuResult at h
  rw [← h]; simp [kept @State.raise_fr, kept @State.wrs_fr]

theorem State.zeroFill_fr (s : State) (hit : Nat → Bool) : (State.zeroFill s hit).pending = s.pending ∧ (State.zeroFill s hit).flash = s.flash ∧ (State.zeroFill s hit).coldOpt = s.coldOpt ∧ (State.zeroFill s hit).mram = s.mram ∧ (State.zeroFill s hit).imsic = s.imsic ∧ (State.zeroFill s hit).eng = s.eng ∧ (State.zeroFill s hit).dm = s.dm ∧ (State.zeroFill s hit).fx = s.fx ∧ (State.zeroFill s hit).ctu = s.ctu ∧ (State.zeroFill s hit).links = s.links ∧ (State.zeroFill s hit).aplicS = s.aplicS ∧ (State.zeroFill s hit).aplicN = s.aplicN ∧ (State.zeroFill s hit).credits = s.credits ∧ (State.zeroFill s hit).pkts = s.pkts ∧ (State.zeroFill s hit).resp = s.resp ∧ (State.zeroFill s hit).wires = s.wires ∧ (State.zeroFill s hit).pkg = s.pkg ∧ (State.zeroFill s hit).pmc = s.pmc ∧ (State.zeroFill s hit).fwLog = s.fwLog ∧ (State.zeroFill s hit).out = s.out ∧ (State.zeroFill s hit).free = s.free ∧ (State.zeroFill s hit).fabric = s.fabric ∧ (State.zeroFill s hit).files = s.files := by
  generalize h : State.zeroFill s hit = u
  unfold State.zeroFill at h
  (try dsimp only at h); (repeat' split at h) <;> rw [← h] <;> simp [kept @State.applyFlip_fr, kept @State.discardLine_fr, kept @State.l3TakeAll_fr]

theorem State.holdAll_fr (s : State) (lo : Nat) (hi : Nat) (kind : Nat) (ways : Nat) : (State.holdAll s lo hi kind ways).pending = s.pending ∧ (State.holdAll s lo hi kind ways).flash = s.flash ∧ (State.holdAll s lo hi kind ways).coldOpt = s.coldOpt ∧ (State.holdAll s lo hi kind ways).mem = s.mem ∧ (State.holdAll s lo hi kind ways).harts = s.harts ∧ (State.holdAll s lo hi kind ways).mram = s.mram ∧ (State.holdAll s lo hi kind ways).imsic = s.imsic ∧ (State.holdAll s lo hi kind ways).eng = s.eng ∧ (State.holdAll s lo hi kind ways).dm = s.dm ∧ (State.holdAll s lo hi kind ways).fx = s.fx ∧ (State.holdAll s lo hi kind ways).ctu = s.ctu ∧ (State.holdAll s lo hi kind ways).links = s.links ∧ (State.holdAll s lo hi kind ways).aplicS = s.aplicS ∧ (State.holdAll s lo hi kind ways).aplicN = s.aplicN ∧ (State.holdAll s lo hi kind ways).credits = s.credits ∧ (State.holdAll s lo hi kind ways).clusters = s.clusters ∧ (State.holdAll s lo hi kind ways).pkts = s.pkts ∧ (State.holdAll s lo hi kind ways).resp = s.resp ∧ (State.holdAll s lo hi kind ways).regs = s.regs ∧ (State.holdAll s lo hi kind ways).wires = s.wires ∧ (State.holdAll s lo hi kind ways).dmg = s.dmg ∧ (State.holdAll s lo hi kind ways).wq = s.wq ∧ (State.holdAll s lo hi kind ways).net = s.net ∧ (State.holdAll s lo hi kind ways).dbInval = s.dbInval ∧ (State.holdAll s lo hi kind ways).watch = s.watch ∧ (State.holdAll s lo hi kind ways).pkg = s.pkg ∧ (State.holdAll s lo hi kind ways).pmc = s.pmc ∧ (State.holdAll s lo hi kind ways).fwLog = s.fwLog ∧ (State.holdAll s lo hi kind ways).out = s.out ∧ (State.holdAll s lo hi kind ways).free = s.free ∧ (State.holdAll s lo hi kind ways).fabric = s.fabric ∧ (State.holdAll s lo hi kind ways).files = s.files := by
  generalize h : State.holdAll s lo hi kind ways = u
  unfold State.holdAll at h
  rw [← h]; simp [kept @State.setHome_fr]

theorem State.flushRanges_fr (s : State) (mv : List (Nat × Nat)) : (State.flushRanges s mv).pending = s.pending ∧ (State.flushRanges s mv).flash = s.flash ∧ (State.flushRanges s mv).coldOpt = s.coldOpt ∧ (State.flushRanges s mv).mem = s.mem ∧ (State.flushRanges s mv).mram = s.mram ∧ (State.flushRanges s mv).imsic = s.imsic ∧ (State.flushRanges s mv).eng = s.eng ∧ (State.flushRanges s mv).dm = s.dm ∧ (State.flushRanges s mv).fx = s.fx ∧ (State.flushRanges s mv).ctu = s.ctu ∧ (State.flushRanges s mv).links = s.links ∧ (State.flushRanges s mv).aplicS = s.aplicS ∧ (State.flushRanges s mv).aplicN = s.aplicN ∧ (State.flushRanges s mv).credits = s.credits ∧ (State.flushRanges s mv).pkts = s.pkts ∧ (State.flushRanges s mv).resp = s.resp ∧ (State.flushRanges s mv).wires = s.wires ∧ (State.flushRanges s mv).dmg = s.dmg ∧ (State.flushRanges s mv).pkg = s.pkg ∧ (State.flushRanges s mv).pmc = s.pmc ∧ (State.flushRanges s mv).fwLog = s.fwLog ∧ (State.flushRanges s mv).out = s.out ∧ (State.flushRanges s mv).free = s.free ∧ (State.flushRanges s mv).fabric = s.fabric ∧ (State.flushRanges s mv).files = s.files := by
  generalize h : State.flushRanges s mv = u
  unfold State.flushRanges at h
  (try dsimp only at h); (repeat' split at h) <;> rw [← h] <;> simp [kept @State.flushLine_fr]

theorem State.holdRanges_fr (s : State) (mv : List (Nat × Nat)) : (State.holdRanges s mv).pending = s.pending ∧ (State.holdRanges s mv).flash = s.flash ∧ (State.holdRanges s mv).coldOpt = s.coldOpt ∧ (State.holdRanges s mv).mem = s.mem ∧ (State.holdRanges s mv).harts = s.harts ∧ (State.holdRanges s mv).mram = s.mram ∧ (State.holdRanges s mv).imsic = s.imsic ∧ (State.holdRanges s mv).eng = s.eng ∧ (State.holdRanges s mv).dm = s.dm ∧ (State.holdRanges s mv).fx = s.fx ∧ (State.holdRanges s mv).ctu = s.ctu ∧ (State.holdRanges s mv).links = s.links ∧ (State.holdRanges s mv).aplicS = s.aplicS ∧ (State.holdRanges s mv).aplicN = s.aplicN ∧ (State.holdRanges s mv).credits = s.credits ∧ (State.holdRanges s mv).clusters = s.clusters ∧ (State.holdRanges s mv).pkts = s.pkts ∧ (State.holdRanges s mv).resp = s.resp ∧ (State.holdRanges s mv).regs = s.regs ∧ (State.holdRanges s mv).wires = s.wires ∧ (State.holdRanges s mv).dmg = s.dmg ∧ (State.holdRanges s mv).wq = s.wq ∧ (State.holdRanges s mv).net = s.net ∧ (State.holdRanges s mv).dbInval = s.dbInval ∧ (State.holdRanges s mv).watch = s.watch ∧ (State.holdRanges s mv).pkg = s.pkg ∧ (State.holdRanges s mv).pmc = s.pmc ∧ (State.holdRanges s mv).fwLog = s.fwLog ∧ (State.holdRanges s mv).out = s.out ∧ (State.holdRanges s mv).free = s.free ∧ (State.holdRanges s mv).fabric = s.fabric ∧ (State.holdRanges s mv).files = s.files := by
  generalize h : State.holdRanges s mv = u
  unfold State.holdRanges at h
  (try dsimp only at h); (repeat' split at h) <;> rw [← h] <;> simp [kept @State.holdAll_fr]

theorem State.switchFirewall_fr (s : State) (l : Tab (Nat × Nat)) : (State.switchFirewall s l).pending = s.pending ∧ (State.switchFirewall s l).flash = s.flash ∧ (State.switchFirewall s l).coldOpt = s.coldOpt ∧ (State.switchFirewall s l).mem = s.mem ∧ (State.switchFirewall s l).mram = s.mram ∧ (State.switchFirewall s l).imsic = s.imsic ∧ (State.switchFirewall s l).eng = s.eng ∧ (State.switchFirewall s l).dm = s.dm ∧ (State.switchFirewall s l).fx = s.fx ∧ (State.switchFirewall s l).links = s.links ∧ (State.switchFirewall s l).aplicS = s.aplicS ∧ (State.switchFirewall s l).aplicN = s.aplicN ∧ (State.switchFirewall s l).credits = s.credits ∧ (State.switchFirewall s l).pkts = s.pkts ∧ (State.switchFirewall s l).resp = s.resp ∧ (State.switchFirewall s l).wires = s.wires ∧ (State.switchFirewall s l).dmg = s.dmg ∧ (State.switchFirewall s l).pkg = s.pkg ∧ (State.switchFirewall s l).pmc = s.pmc ∧ (State.switchFirewall s l).fwLog = s.fwLog ∧ (State.switchFirewall s l).out = s.out ∧ (State.switchFirewall s l).free = s.free ∧ (State.switchFirewall s l).fabric = s.fabric ∧ (State.switchFirewall s l).files = s.files := by
  generalize h : State.switchFirewall s l = u
  unfold State.switchFirewall at h
  (try dsimp only at h); (repeat' split at h) <;> rw [← h] <;> simp [kept @State.flushRanges_fr, kept @State.fwNew_fr, kept @State.holdRanges_fr]

theorem State.applyFirewall_fr (s : State) (f : Nat) (l : Tab (Nat × Nat)) : (State.applyFirewall s f l).pending = s.pending ∧ (State.applyFirewall s f l).flash = s.flash ∧ (State.applyFirewall s f l).coldOpt = s.coldOpt ∧ (State.applyFirewall s f l).mram = s.mram ∧ (State.applyFirewall s f l).imsic = s.imsic ∧ (State.applyFirewall s f l).eng = s.eng ∧ (State.applyFirewall s f l).dm = s.dm ∧ (State.applyFirewall s f l).fx = s.fx ∧ (State.applyFirewall s f l).links = s.links ∧ (State.applyFirewall s f l).aplicS = s.aplicS ∧ (State.applyFirewall s f l).aplicN = s.aplicN ∧ (State.applyFirewall s f l).credits = s.credits ∧ (State.applyFirewall s f l).pkts = s.pkts ∧ (State.applyFirewall s f l).resp = s.resp ∧ (State.applyFirewall s f l).wires = s.wires ∧ (State.applyFirewall s f l).pkg = s.pkg ∧ (State.applyFirewall s f l).pmc = s.pmc ∧ (State.applyFirewall s f l).fwLog = s.fwLog ∧ (State.applyFirewall s f l).out = s.out ∧ (State.applyFirewall s f l).free = s.free ∧ (State.applyFirewall s f l).fabric = s.fabric ∧ (State.applyFirewall s f l).files = s.files := by
  generalize h : State.applyFirewall s f l = u
  unfold State.applyFirewall at h
  (try dsimp only at h); (repeat' split at h) <;> rw [← h] <;> simp [kept @State.mergeRegs_fr, kept @State.switchFirewall_fr, kept @State.zeroFill_fr]

theorem State.ctuReset_fr (s : State) (reset : Nat → Bool) : (State.ctuReset s reset).pending = s.pending ∧ (State.ctuReset s reset).flash = s.flash ∧ (State.ctuReset s reset).coldOpt = s.coldOpt ∧ (State.ctuReset s reset).mram = s.mram ∧ (State.ctuReset s reset).imsic = s.imsic ∧ (State.ctuReset s reset).eng = s.eng ∧ (State.ctuReset s reset).dm = s.dm ∧ (State.ctuReset s reset).fx = s.fx ∧ (State.ctuReset s reset).links = s.links ∧ (State.ctuReset s reset).aplicS = s.aplicS ∧ (State.ctuReset s reset).aplicN = s.aplicN ∧ (State.ctuReset s reset).credits = s.credits ∧ (State.ctuReset s reset).pkts = s.pkts ∧ (State.ctuReset s reset).resp = s.resp ∧ (State.ctuReset s reset).pkg = s.pkg ∧ (State.ctuReset s reset).pmc = s.pmc ∧ (State.ctuReset s reset).fwLog = s.fwLog ∧ (State.ctuReset s reset).out = s.out ∧ (State.ctuReset s reset).free = s.free ∧ (State.ctuReset s reset).fabric = s.fabric ∧ (State.ctuReset s reset).files = s.files := by
  generalize h : State.ctuReset s reset = u
  unfold State.ctuReset at h
  dsimp only at h
  generalize s.ctu.active = o at h
  cases o with
  | none => simp only [Option.filter, Option.elim] at h; rw [← h]; simp [kept @State.ctuResult_fr, kept @State.setCtu_fr]
  | some t => simp only [Option.filter, Option.elim] at h; (repeat' split at h) <;> rw [← h] <;> simp [kept @State.ctuResult_fr, kept @State.setCtu_fr]

theorem State.mailboxAnswer_fr (s : State) (w : Nat) (r : List Byte) : (State.mailboxAnswer s w r).pending = s.pending ∧ (State.mailboxAnswer s w r).flash = s.flash ∧ (State.mailboxAnswer s w r).coldOpt = s.coldOpt ∧ (State.mailboxAnswer s w r).mem = s.mem ∧ (State.mailboxAnswer s w r).harts = s.harts ∧ (State.mailboxAnswer s w r).mram = s.mram ∧ (State.mailboxAnswer s w r).imsic = s.imsic ∧ (State.mailboxAnswer s w r).eng = s.eng ∧ (State.mailboxAnswer s w r).dm = s.dm ∧ (State.mailboxAnswer s w r).fx = s.fx ∧ (State.mailboxAnswer s w r).ctu = s.ctu ∧ (State.mailboxAnswer s w r).links = s.links ∧ (State.mailboxAnswer s w r).aplicS = s.aplicS ∧ (State.mailboxAnswer s w r).aplicN = s.aplicN ∧ (State.mailboxAnswer s w r).credits = s.credits ∧ (State.mailboxAnswer s w r).clusters = s.clusters ∧ (State.mailboxAnswer s w r).homes = s.homes ∧ (State.mailboxAnswer s w r).pkts = s.pkts ∧ (State.mailboxAnswer s w r).resp = s.resp ∧ (State.mailboxAnswer s w r).dmg = s.dmg ∧ (State.mailboxAnswer s w r).wq = s.wq ∧ (State.mailboxAnswer s w r).net = s.net ∧ (State.mailboxAnswer s w r).dbInval = s.dbInval ∧ (State.mailboxAnswer s w r).watch = s.watch ∧ (State.mailboxAnswer s w r).pkg = s.pkg ∧ (State.mailboxAnswer s w r).pmc = s.pmc ∧ (State.mailboxAnswer s w r).fwLog = s.fwLog ∧ (State.mailboxAnswer s w r).out = s.out ∧ (State.mailboxAnswer s w r).free = s.free ∧ (State.mailboxAnswer s w r).fabric = s.fabric ∧ (State.mailboxAnswer s w r).files = s.files := by
  generalize h : State.mailboxAnswer s w r = u
  unfold State.mailboxAnswer at h
  rw [← h]; simp [kept @State.raise_fr, kept @State.wrW_fr, kept @State.wrs_fr]

theorem State.mgmtSend_fr (s : State) (src : Nat) (r : List Byte) : (State.mgmtSend s src r).pending = s.pending ∧ (State.mgmtSend s src r).flash = s.flash ∧ (State.mgmtSend s src r).coldOpt = s.coldOpt ∧ (State.mgmtSend s src r).mem = s.mem ∧ (State.mgmtSend s src r).harts = s.harts ∧ (State.mgmtSend s src r).mram = s.mram ∧ (State.mgmtSend s src r).imsic = s.imsic ∧ (State.mgmtSend s src r).eng = s.eng ∧ (State.mgmtSend s src r).dm = s.dm ∧ (State.mgmtSend s src r).ctu = s.ctu ∧ (State.mgmtSend s src r).links = s.links ∧ (State.mgmtSend s src r).aplicS = s.aplicS ∧ (State.mgmtSend s src r).aplicN = s.aplicN ∧ (State.mgmtSend s src r).credits = s.credits ∧ (State.mgmtSend s src r).clusters = s.clusters ∧ (State.mgmtSend s src r).homes = s.homes ∧ (State.mgmtSend s src r).pkts = s.pkts ∧ (State.mgmtSend s src r).resp = s.resp ∧ (State.mgmtSend s src r).dmg = s.dmg ∧ (State.mgmtSend s src r).wq = s.wq ∧ (State.mgmtSend s src r).net = s.net ∧ (State.mgmtSend s src r).dbInval = s.dbInval ∧ (State.mgmtSend s src r).watch = s.watch ∧ (State.mgmtSend s src r).pkg = s.pkg ∧ (State.mgmtSend s src r).pmc = s.pmc ∧ (State.mgmtSend s src r).fwLog = s.fwLog ∧ (State.mgmtSend s src r).free = s.free ∧ (State.mgmtSend s src r).fabric = s.fabric ∧ (State.mgmtSend s src r).files = s.files := by
  generalize h : State.mgmtSend s src r = u
  unfold State.mgmtSend at h
  rw [← h]; simp [kept @State.fxQueue_fr, kept @State.mailboxAnswer_fr, kept @State.send_fr]

theorem State.mgmtReply_fr (s : State) (src : Nat) (status : Nat) (payload : List Byte) : (State.mgmtReply s src status payload).pending = s.pending ∧ (State.mgmtReply s src status payload).flash = s.flash ∧ (State.mgmtReply s src status payload).coldOpt = s.coldOpt ∧ (State.mgmtReply s src status payload).mem = s.mem ∧ (State.mgmtReply s src status payload).harts = s.harts ∧ (State.mgmtReply s src status payload).mram = s.mram ∧ (State.mgmtReply s src status payload).imsic = s.imsic ∧ (State.mgmtReply s src status payload).eng = s.eng ∧ (State.mgmtReply s src status payload).dm = s.dm ∧ (State.mgmtReply s src status payload).ctu = s.ctu ∧ (State.mgmtReply s src status payload).links = s.links ∧ (State.mgmtReply s src status payload).aplicS = s.aplicS ∧ (State.mgmtReply s src status payload).aplicN = s.aplicN ∧ (State.mgmtReply s src status payload).credits = s.credits ∧ (State.mgmtReply s src status payload).clusters = s.clusters ∧ (State.mgmtReply s src status payload).homes = s.homes ∧ (State.mgmtReply s src status payload).pkts = s.pkts ∧ (State.mgmtReply s src status payload).resp = s.resp ∧ (State.mgmtReply s src status payload).dmg = s.dmg ∧ (State.mgmtReply s src status payload).wq = s.wq ∧ (State.mgmtReply s src status payload).net = s.net ∧ (State.mgmtReply s src status payload).dbInval = s.dbInval ∧ (State.mgmtReply s src status payload).watch = s.watch ∧ (State.mgmtReply s src status payload).pkg = s.pkg ∧ (State.mgmtReply s src status payload).fwLog = s.fwLog ∧ (State.mgmtReply s src status payload).free = s.free ∧ (State.mgmtReply s src status payload).fabric = s.fabric ∧ (State.mgmtReply s src status payload).files = s.files := by
  generalize h : State.mgmtReply s src status payload = u
  unfold State.mgmtReply at h
  (try dsimp only at h); (repeat' split at h) <;> rw [← h] <;> simp [kept @State.mgmtSend_fr]

theorem State.mgmtRequest_fr (s : State) (src : Nat) (q : List Byte) : (State.mgmtRequest s src q).pending = s.pending ∧ (State.mgmtRequest s src q).flash = s.flash ∧ (State.mgmtRequest s src q).coldOpt = s.coldOpt ∧ (State.mgmtRequest s src q).mem = s.mem ∧ (State.mgmtRequest s src q).harts = s.harts ∧ (State.mgmtRequest s src q).mram = s.mram ∧ (State.mgmtRequest s src q).imsic = s.imsic ∧ (State.mgmtRequest s src q).eng = s.eng ∧ (State.mgmtRequest s src q).dm = s.dm ∧ (State.mgmtRequest s src q).ctu = s.ctu ∧ (State.mgmtRequest s src q).links = s.links ∧ (State.mgmtRequest s src q).aplicS = s.aplicS ∧ (State.mgmtRequest s src q).aplicN = s.aplicN ∧ (State.mgmtRequest s src q).credits = s.credits ∧ (State.mgmtRequest s src q).clusters = s.clusters ∧ (State.mgmtRequest s src q).homes = s.homes ∧ (State.mgmtRequest s src q).pkts = s.pkts ∧ (State.mgmtRequest s src q).resp = s.resp ∧ (State.mgmtRequest s src q).dmg = s.dmg ∧ (State.mgmtRequest s src q).wq = s.wq ∧ (State.mgmtRequest s src q).net = s.net ∧ (State.mgmtRequest s src q).dbInval = s.dbInval ∧ (State.mgmtRequest s src q).watch = s.watch ∧ (State.mgmtRequest s src q).pkg = s.pkg ∧ (State.mgmtRequest s src q).fwLog = s.fwLog ∧ (State.mgmtRequest s src q).free = s.free ∧ (State.mgmtRequest s src q).fabric = s.fabric ∧ (State.mgmtRequest s src q).files = s.files := by
  generalize h : State.mgmtRequest s src q = u
  unfold State.mgmtRequest at h
  rw [← h]; simp [kept @State.mgmtSend_fr]

end Sys2Proof.Machine
end

