-- ==== Sys2Proof/Laws/Frame/Package.lean ====
section
/-! SUPPORT. What the operations of Machine/Package.lean leave unchanged. -/

set_option Elab.async false
set_option linter.all false

namespace Sys2Proof.Machine
open Sys2Proof

theorem State.pk_fr (s : State) (f : Pkg → Pkg) : (State.pk s f).pending = s.pending ∧ (State.pk s f).flash = s.flash ∧ (State.pk s f).coldOpt = s.coldOpt ∧ (State.pk s f).mem = s.mem ∧ (State.pk s f).harts = s.harts ∧ (State.pk s f).mram = s.mram ∧ (State.pk s f).imsic = s.imsic ∧ (State.pk s f).eng = s.eng ∧ (State.pk s f).dm = s.dm ∧ (State.pk s f).fx = s.fx ∧ (State.pk s f).ctu = s.ctu ∧ (State.pk s f).links = s.links ∧ (State.pk s f).aplicS = s.aplicS ∧ (State.pk s f).aplicN = s.aplicN ∧ (State.pk s f).credits = s.credits ∧ (State.pk s f).clusters = s.clusters ∧ (State.pk s f).homes = s.homes ∧ (State.pk s f).pkts = s.pkts ∧ (State.pk s f).resp = s.resp ∧ (State.pk s f).regs = s.regs ∧ (State.pk s f).wires = s.wires ∧ (State.pk s f).dmg = s.dmg ∧ (State.pk s f).wq = s.wq ∧ (State.pk s f).net = s.net ∧ (State.pk s f).dbInval = s.dbInval ∧ (State.pk s f).watch = s.watch ∧ (State.pk s f).pmc = s.pmc ∧ (State.pk s f).fwLog = s.fwLog ∧ (State.pk s f).out = s.out ∧ (State.pk s f).free = s.free ∧ (State.pk s f).fabric = s.fabric ∧ (State.pk s f).files = s.files := by
  generalize h : State.pk s f = u
  unfold State.pk at h
  rw [← h]; simp

theorem State.arriveMode_fr (s : State) (m : Nat) (cause : Nat) (src : Nat) : (State.arriveMode s m cause src).pending = s.pending ∧ (State.arriveMode s m cause src).flash = s.flash ∧ (State.arriveMode s m cause src).coldOpt = s.coldOpt ∧ (State.arriveMode s m cause src).mem = s.mem ∧ (State.arriveMode s m cause src).harts = s.harts ∧ (State.arriveMode s m cause src).imsic = s.imsic ∧ (State.arriveMode s m cause src).eng = s.eng ∧ (State.arriveMode s m cause src).dm = s.dm ∧ (State.arriveMode s m cause src).fx = s.fx ∧ (State.arriveMode s m cause src).ctu = s.ctu ∧ (State.arriveMode s m cause src).links = s.links ∧ (State.arriveMode s m cause src).aplicS = s.aplicS ∧ (State.arriveMode s m cause src).aplicN = s.aplicN ∧ (State.arriveMode s m cause src).credits = s.credits ∧ (State.arriveMode s m cause src).clusters = s.clusters ∧ (State.arriveMode s m cause src).homes = s.homes ∧ (State.arriveMode s m cause src).pkts = s.pkts ∧ (State.arriveMode s m cause src).resp = s.resp ∧ (State.arriveMode s m cause src).wires = s.wires ∧ (State.arriveMode s m cause src).dmg = s.dmg ∧ (State.arriveMode s m cause src).wq = s.wq ∧ (State.arriveMode s m cause src).net = s.net ∧ (State.arriveMode s m cause src).dbInval = s.dbInval ∧ (State.arriveMode s m cause src).watch = s.watch ∧ (State.arriveMode s m cause src).fwLog = s.fwLog ∧ (State.arriveMode s m cause src).out = s.out ∧ (State.arriveMode s m cause src).free = s.free ∧ (State.arriveMode s m cause src).fabric = s.fabric ∧ (State.arriveMode s m cause src).files = s.files := by
  generalize h : State.arriveMode s m cause src = u
  unfold State.arriveMode at h
  rw [← h]; simp [kept @State.logNow_fr, kept @State.pk_fr, kept @State.wrs_fr]

theorem State.beginMove_fr (s : State) (m : Nat) (cause : Nat) (src : Nat) : (State.beginMove s m cause src).pending = s.pending ∧ (State.beginMove s m cause src).flash = s.flash ∧ (State.beginMove s m cause src).coldOpt = s.coldOpt ∧ (State.beginMove s m cause src).mem = s.mem ∧ (State.beginMove s m cause src).harts = s.harts ∧ (State.beginMove s m cause src).mram = s.mram ∧ (State.beginMove s m cause src).imsic = s.imsic ∧ (State.beginMove s m cause src).eng = s.eng ∧ (State.beginMove s m cause src).dm = s.dm ∧ (State.beginMove s m cause src).fx = s.fx ∧ (State.beginMove s m cause src).ctu = s.ctu ∧ (State.beginMove s m cause src).links = s.links ∧ (State.beginMove s m cause src).aplicS = s.aplicS ∧ (State.beginMove s m cause src).aplicN = s.aplicN ∧ (State.beginMove s m cause src).credits = s.credits ∧ (State.beginMove s m cause src).clusters = s.clusters ∧ (State.beginMove s m cause src).homes = s.homes ∧ (State.beginMove s m cause src).pkts = s.pkts ∧ (State.beginMove s m cause src).resp = s.resp ∧ (State.beginMove s m cause src).wires = s.wires ∧ (State.beginMove s m cause src).dmg = s.dmg ∧ (State.beginMove s m cause src).wq = s.wq ∧ (State.beginMove s m cause src).net = s.net ∧ (State.beginMove s m cause src).dbInval = s.dbInval ∧ (State.beginMove s m cause src).watch = s.watch ∧ (State.beginMove s m cause src).pmc = s.pmc ∧ (State.beginMove s m cause src).fwLog = s.fwLog ∧ (State.beginMove s m cause src).out = s.out ∧ (State.beginMove s m cause src).free = s.free ∧ (State.beginMove s m cause src).fabric = s.fabric ∧ (State.beginMove s m cause src).files = s.files := by
  generalize h : State.beginMove s m cause src = u
  unfold State.beginMove at h
  rw [← h]; simp [kept @State.pk_fr, kept @State.wrs_fr]

theorem State.endMode_fr (s : State) (src : Nat) (st : Nat) : (State.endMode s src st).pending = s.pending ∧ (State.endMode s src st).flash = s.flash ∧ (State.endMode s src st).coldOpt = s.coldOpt ∧ (State.endMode s src st).mem = s.mem ∧ (State.endMode s src st).harts = s.harts ∧ (State.endMode s src st).mram = s.mram ∧ (State.endMode s src st).imsic = s.imsic ∧ (State.endMode s src st).eng = s.eng ∧ (State.endMode s src st).dm = s.dm ∧ (State.endMode s src st).ctu = s.ctu ∧ (State.endMode s src st).links = s.links ∧ (State.endMode s src st).aplicS = s.aplicS ∧ (State.endMode s src st).aplicN = s.aplicN ∧ (State.endMode s src st).credits = s.credits ∧ (State.endMode s src st).clusters = s.clusters ∧ (State.endMode s src st).homes = s.homes ∧ (State.endMode s src st).pkts = s.pkts ∧ (State.endMode s src st).resp = s.resp ∧ (State.endMode s src st).dmg = s.dmg ∧ (State.endMode s src st).wq = s.wq ∧ (State.endMode s src st).net = s.net ∧ (State.endMode s src st).dbInval = s.dbInval ∧ (State.endMode s src st).watch = s.watch ∧ (State.endMode s src st).pkg = s.pkg ∧ (State.endMode s src st).fwLog = s.fwLog ∧ (State.endMode s src st).free = s.free ∧ (State.endMode s src st).fabric = s.fabric ∧ (State.endMode s src st).files = s.files := by
  generalize h : State.endMode s src st = u
  unfold State.endMode at h
  rw [← h]; simp [kept @State.mgmtReply_fr, kept @State.wrs_fr]

theorem State.endPower_fr (s : State) (src : Nat) (st : Nat) : (State.endPower s src st).pending = s.pending ∧ (State.endPower s src st).flash = s.flash ∧ (State.endPower s src st).coldOpt = s.coldOpt ∧ (State.endPower s src st).mem = s.mem ∧ (State.endPower s src st).harts = s.harts ∧ (State.endPower s src st).mram = s.mram ∧ (State.endPower s src st).imsic = s.imsic ∧ (State.endPower s src st).eng = s.eng ∧ (State.endPower s src st).dm = s.dm ∧ (State.endPower s src st).ctu = s.ctu ∧ (State.endPower s src st).links = s.links ∧ (State.endPower s src st).aplicS = s.aplicS ∧ (State.endPower s src st).aplicN = s.aplicN ∧ (State.endPower s src st).credits = s.credits ∧ (State.endPower s src st).clusters = s.clusters ∧ (State.endPower s src st).homes = s.homes ∧ (State.endPower s src st).pkts = s.pkts ∧ (State.endPower s src st).resp = s.resp ∧ (State.endPower s src st).dmg = s.dmg ∧ (State.endPower s src st).wq = s.wq ∧ (State.endPower s src st).net = s.net ∧ (State.endPower s src st).dbInval = s.dbInval ∧ (State.endPower s src st).watch = s.watch ∧ (State.endPower s src st).pkg = s.pkg ∧ (State.endPower s src st).fwLog = s.fwLog ∧ (State.endPower s src st).free = s.free ∧ (State.endPower s src st).fabric = s.fabric ∧ (State.endPower s src st).files = s.files := by
  generalize h : State.endPower s src st = u
  unfold State.endPower at h
  rw [← h]; simp [kept @State.mgmtReply_fr, kept @State.wrs_fr]

theorem State.defer_fr (s : State) (who : Ident) (uu : Nat) (req : Nat) : (State.defer s who uu req).pending = s.pending ∧ (State.defer s who uu req).flash = s.flash ∧ (State.defer s who uu req).coldOpt = s.coldOpt ∧ (State.defer s who uu req).mem = s.mem ∧ (State.defer s who uu req).harts = s.harts ∧ (State.defer s who uu req).imsic = s.imsic ∧ (State.defer s who uu req).eng = s.eng ∧ (State.defer s who uu req).dm = s.dm ∧ (State.defer s who uu req).fx = s.fx ∧ (State.defer s who uu req).ctu = s.ctu ∧ (State.defer s who uu req).links = s.links ∧ (State.defer s who uu req).aplicS = s.aplicS ∧ (State.defer s who uu req).aplicN = s.aplicN ∧ (State.defer s who uu req).credits = s.credits ∧ (State.defer s who uu req).clusters = s.clusters ∧ (State.defer s who uu req).homes = s.homes ∧ (State.defer s who uu req).pkts = s.pkts ∧ (State.defer s who uu req).resp = s.resp ∧ (State.defer s who uu req).wires = s.wires ∧ (State.defer s who uu req).dmg = s.dmg ∧ (State.defer s who uu req).wq = s.wq ∧ (State.defer s who uu req).net = s.net ∧ (State.defer s who uu req).dbInval = s.dbInval ∧ (State.defer s who uu req).watch = s.watch ∧ (State.defer s who uu req).pkg = s.pkg ∧ (State.defer s who uu req).fwLog = s.fwLog ∧ (State.defer s who uu req).out = s.out ∧ (State.defer s who uu req).free = s.free ∧ (State.defer s who uu req).fabric = s.fabric ∧ (State.defer s who uu req).files = s.files := by
  generalize h : State.defer s who uu req = u
  unfold State.defer at h
  (try dsimp only at h); (repeat' split at h) <;> rw [← h] <;> simp [kept @State.viol_fr, kept @State.wrs_fr]

theorem State.fence_fr (s : State) (t : Nat) (agents : List Nat) (drained : Bool) : (State.fence s t agents drained).pending = s.pending ∧ (State.fence s t agents drained).flash = s.flash ∧ (State.fence s t agents drained).coldOpt = s.coldOpt ∧ (State.fence s t agents drained).mem = s.mem ∧ (State.fence s t agents drained).harts = s.harts ∧ (State.fence s t agents drained).mram = s.mram ∧ (State.fence s t agents drained).imsic = s.imsic ∧ (State.fence s t agents drained).eng = s.eng ∧ (State.fence s t agents drained).dm = s.dm ∧ (State.fence s t agents drained).fx = s.fx ∧ (State.fence s t agents drained).ctu = s.ctu ∧ (State.fence s t agents drained).links = s.links ∧ (State.fence s t agents drained).aplicS = s.aplicS ∧ (State.fence s t agents drained).aplicN = s.aplicN ∧ (State.fence s t agents drained).credits = s.credits ∧ (State.fence s t agents drained).clusters = s.clusters ∧ (State.fence s t agents drained).homes = s.homes ∧ (State.fence s t agents drained).pkts = s.pkts ∧ (State.fence s t agents drained).resp = s.resp ∧ (State.fence s t agents drained).wires = s.wires ∧ (State.fence s t agents drained).dmg = s.dmg ∧ (State.fence s t agents drained).wq = s.wq ∧ (State.fence s t agents drained).net = s.net ∧ (State.fence s t agents drained).dbInval = s.dbInval ∧ (State.fence s t agents drained).watch = s.watch ∧ (State.fence s t agents drained).pkg = s.pkg ∧ (State.fence s t agents drained).pmc = s.pmc ∧ (State.fence s t agents drained).fwLog = s.fwLog ∧ (State.fence s t agents drained).out = s.out ∧ (State.fence s t agents drained).free = s.free ∧ (State.fence s t agents drained).fabric = s.fabric ∧ (State.fence s t agents drained).files = s.files := by
  generalize h : State.fence s t agents drained = u
  unfold State.fence at h
  rw [← h]; simp [kept @State.wrW_fr]

theorem State.recordReach_fr (s : State) (r : Nat) : (State.recordReach s r).pending = s.pending ∧ (State.recordReach s r).flash = s.flash ∧ (State.recordReach s r).coldOpt = s.coldOpt ∧ (State.recordReach s r).mem = s.mem ∧ (State.recordReach s r).harts = s.harts ∧ (State.recordReach s r).mram = s.mram ∧ (State.recordReach s r).imsic = s.imsic ∧ (State.recordReach s r).eng = s.eng ∧ (State.recordReach s r).dm = s.dm ∧ (State.recordReach s r).fx = s.fx ∧ (State.recordReach s r).ctu = s.ctu ∧ (State.recordReach s r).links = s.links ∧ (State.recordReach s r).aplicS = s.aplicS ∧ (State.recordReach s r).aplicN = s.aplicN ∧ (State.recordReach s r).credits = s.credits ∧ (State.recordReach s r).clusters = s.clusters ∧ (State.recordReach s r).homes = s.homes ∧ (State.recordReach s r).pkts = s.pkts ∧ (State.recordReach s r).resp = s.resp ∧ (State.recordReach s r).wires = s.wires ∧ (State.recordReach s r).dmg = s.dmg ∧ (State.recordReach s r).wq = s.wq ∧ (State.recordReach s r).net = s.net ∧ (State.recordReach s r).dbInval = s.dbInval ∧ (State.recordReach s r).watch = s.watch ∧ (State.recordReach s r).pkg = s.pkg ∧ (State.recordReach s r).pmc = s.pmc ∧ (State.recordReach s r).fwLog = s.fwLog ∧ (State.recordReach s r).out = s.out ∧ (State.recordReach s r).free = s.free ∧ (State.recordReach s r).fabric = s.fabric ∧ (State.recordReach s r).files = s.files := by
  generalize h : State.recordReach s r = u
  unfold State.recordReach at h
  rw [← h]; simp [kept @State.wr_fr]

theorem State.hartCause_fr (s : State) (hh : Nat) (bit : Nat) : (State.hartCause s hh bit).pending = s.pending ∧ (State.hartCause s hh bit).flash = s.flash ∧ (State.hartCause s hh bit).coldOpt = s.coldOpt ∧ (State.hartCause s hh bit).mem = s.mem ∧ (State.hartCause s hh bit).harts = s.harts ∧ (State.hartCause s hh bit).mram = s.mram ∧ (State.hartCause s hh bit).imsic = s.imsic ∧ (State.hartCause s hh bit).eng = s.eng ∧ (State.hartCause s hh bit).dm = s.dm ∧ (State.hartCause s hh bit).fx = s.fx ∧ (State.hartCause s hh bit).ctu = s.ctu ∧ (State.hartCause s hh bit).links = s.links ∧ (State.hartCause s hh bit).aplicS = s.aplicS ∧ (State.hartCause s hh bit).aplicN = s.aplicN ∧ (State.hartCause s hh bit).credits = s.credits ∧ (State.hartCause s hh bit).clusters = s.clusters ∧ (State.hartCause s hh bit).homes = s.homes ∧ (State.hartCause s hh bit).pkts = s.pkts ∧ (State.hartCause s hh bit).resp = s.resp ∧ (State.hartCause s hh bit).wires = s.wires ∧ (State.hartCause s hh bit).dmg = s.dmg ∧ (State.hartCause s hh bit).wq = s.wq ∧ (State.hartCause s hh bit).net = s.net ∧ (State.hartCause s hh bit).dbInval = s.dbInval ∧ (State.hartCause s hh bit).watch = s.watch ∧ (State.hartCause s hh bit).pkg = s.pkg ∧ (State.hartCause s hh bit).pmc = s.pmc ∧ (State.hartCause s hh bit).fwLog = s.fwLog ∧ (State.hartCause s hh bit).out = s.out ∧ (State.hartCause s hh bit).free = s.free ∧ (State.hartCause s hh bit).fabric = s.fabric ∧ (State.hartCause s hh bit).files = s.files := by
  generalize h : State.hartCause s hh bit = u
  unfold State.hartCause at h
  rw [← h]; simp [kept @State.wrW_fr]

theorem State.clearFiles_fr (s : State) (hh : Nat) : (State.clearFiles s hh).pending = s.pending ∧ (State.clearFiles s hh).flash = s.flash ∧ (State.clearFiles s hh).coldOpt = s.coldOpt ∧ (State.clearFiles s hh).mem = s.mem ∧ (State.clearFiles s hh).harts = s.harts ∧ (State.clearFiles s hh).mram = s.mram ∧ (State.clearFiles s hh).eng = s.eng ∧ (State.clearFiles s hh).dm = s.dm ∧ (State.clearFiles s hh).fx = s.fx ∧ (State.clearFiles s hh).ctu = s.ctu ∧ (State.clearFiles s hh).links = s.links ∧ (State.clearFiles s hh).aplicS = s.aplicS ∧ (State.clearFiles s hh).aplicN = s.aplicN ∧ (State.clearFiles s hh).credits = s.credits ∧ (State.clearFiles s hh).clusters = s.clusters ∧ (State.clearFiles s hh).homes = s.homes ∧ (State.clearFiles s hh).pkts = s.pkts ∧ (State.clearFiles s hh).resp = s.resp ∧ (State.clearFiles s hh).regs = s.regs ∧ (State.clearFiles s hh).wires = s.wires ∧ (State.clearFiles s hh).dmg = s.dmg ∧ (State.clearFiles s hh).wq = s.wq ∧ (State.clearFiles s hh).net = s.net ∧ (State.clearFiles s hh).dbInval = s.dbInval ∧ (State.clearFiles s hh).watch = s.watch ∧ (State.clearFiles s hh).pkg = s.pkg ∧ (State.clearFiles s hh).pmc = s.pmc ∧ (State.clearFiles s hh).fwLog = s.fwLog ∧ (State.clearFiles s hh).out = s.out ∧ (State.clearFiles s hh).free = s.free ∧ (State.clearFiles s hh).fabric = s.fabric := by
  generalize h : State.clearFiles s hh = u
  unfold State.clearFiles at h
  rw [← h]; simp

theorem State.dropRange_fr (s : State) (hh : Nat) : (State.dropRange s hh).pending = s.pending ∧ (State.dropRange s hh).flash = s.flash ∧ (State.dropRange s hh).coldOpt = s.coldOpt ∧ (State.dropRange s hh).mem = s.mem ∧ (State.dropRange s hh).harts = s.harts ∧ (State.dropRange s hh).mram = s.mram ∧ (State.dropRange s hh).imsic = s.imsic ∧ (State.dropRange s hh).eng = s.eng ∧ (State.dropRange s hh).dm = s.dm ∧ (State.dropRange s hh).fx = s.fx ∧ (State.dropRange s hh).ctu = s.ctu ∧ (State.dropRange s hh).links = s.links ∧ (State.dropRange s hh).aplicS = s.aplicS ∧ (State.dropRange s hh).aplicN = s.aplicN ∧ (State.dropRange s hh).credits = s.credits ∧ (State.dropRange s hh).clusters = s.clusters ∧ (State.dropRange s hh).pkts = s.pkts ∧ (State.dropRange s hh).resp = s.resp ∧ (State.dropRange s hh).wires = s.wires ∧ (State.dropRange s hh).dmg = s.dmg ∧ (State.dropRange s hh).dbInval = s.dbInval ∧ (State.dropRange s hh).watch = s.watch ∧ (State.dropRange s hh).pkg = s.pkg ∧ (State.dropRange s hh).pmc = s.pmc ∧ (State.dropRange s hh).out = s.out ∧ (State.dropRange s hh).free = s.free ∧ (State.dropRange s hh).fabric = s.fabric ∧ (State.dropRange s hh).files = s.files := by
  generalize h : State.dropRange s hh = u
  unfold State.dropRange at h
  (try dsimp only at h); (repeat' split at h) <;> rw [← h] <;> simp [kept @State.reAdmit_fr, kept @State.setHome_fr]

theorem State.loseHart_fr (s : State) (hh : Nat) : (State.loseHart s hh).pending = s.pending ∧ (State.loseHart s hh).flash = s.flash ∧ (State.loseHart s hh).coldOpt = s.coldOpt ∧ (State.loseHart s hh).mem = s.mem ∧ (State.loseHart s hh).mram = s.mram ∧ (State.loseHart s hh).imsic = s.imsic ∧ (State.loseHart s hh).eng = s.eng ∧ (State.loseHart s hh).dm = s.dm ∧ (State.loseHart s hh).fx = s.fx ∧ (State.loseHart s hh).ctu = s.ctu ∧ (State.loseHart s hh).links = s.links ∧ (State.loseHart s hh).aplicS = s.aplicS ∧ (State.loseHart s hh).aplicN = s.aplicN ∧ (State.loseHart s hh).credits = s.credits ∧ (State.loseHart s hh).clusters = s.clusters ∧ (State.loseHart s hh).homes = s.homes ∧ (State.loseHart s hh).pkts = s.pkts ∧ (State.loseHart s hh).resp = s.resp ∧ (State.loseHart s hh).regs = s.regs ∧ (State.loseHart s hh).wires = s.wires ∧ (State.loseHart s hh).dmg = s.dmg ∧ (State.loseHart s hh).wq = s.wq ∧ (State.loseHart s hh).net = s.net ∧ (State.loseHart s hh).dbInval = s.dbInval ∧ (State.loseHart s hh).watch = s.watch ∧ (State.loseHart s hh).pkg = s.pkg ∧ (State.loseHart s hh).pmc = s.pmc ∧ (State.loseHart s hh).fwLog = s.fwLog ∧ (State.loseHart s hh).out = s.out ∧ (State.loseHart s hh).fabric = s.fabric ∧ (State.loseHart s hh).files = s.files := by
  generalize h : State.loseHart s hh = u
  unfold State.loseHart at h
  (try dsimp only at h); (repeat' split at h) <;> rw [← h] <;> simp [kept @State.setHart_fr]

theorem State.freshHart_fr (s : State) (hh : Nat) : (State.freshHart s hh).pending = s.pending ∧ (State.freshHart s hh).flash = s.flash ∧ (State.freshHart s hh).coldOpt = s.coldOpt ∧ (State.freshHart s hh).mem = s.mem ∧ (State.freshHart s hh).mram = s.mram ∧ (State.freshHart s hh).eng = s.eng ∧ (State.freshHart s hh).dm = s.dm ∧ (State.freshHart s hh).fx = s.fx ∧ (State.freshHart s hh).ctu = s.ctu ∧ (State.freshHart s hh).links = s.links ∧ (State.freshHart s hh).aplicS = s.aplicS ∧ (State.freshHart s hh).aplicN = s.aplicN ∧ (State.freshHart s hh).credits = s.credits ∧ (State.freshHart s hh).pkts = s.pkts ∧ (State.freshHart s hh).resp = s.resp ∧ (State.freshHart s hh).wires = s.wires ∧ (State.freshHart s hh).dmg = s.dmg ∧ (State.freshHart s hh).dbInval = s.dbInval ∧ (State.freshHart s hh).watch = s.watch ∧ (State.freshHart s hh).pkg = s.pkg ∧ (State.freshHart s hh).pmc = s.pmc ∧ (State.freshHart s hh).out = s.out ∧ (State.freshHart s hh).free = s.free ∧ (State.freshHart s hh).fabric = s.fabric := by
  generalize h : State.freshHart s hh = u
  unfold State.freshHart at h
  rw [← h]; simp [kept @State.clearFiles_fr, kept @State.dropRange_fr, kept @State.setCluster_fr, kept @State.setHart_fr]

theorem State.holdHart_fr (s : State) (hh : Nat) : (State.holdHart s hh).pending = s.pending ∧ (State.holdHart s hh).flash = s.flash ∧ (State.holdHart s hh).coldOpt = s.coldOpt ∧ (State.holdHart s hh).mem = s.mem ∧ (State.holdHart s hh).mram = s.mram ∧ (State.holdHart s hh).eng = s.eng ∧ (State.holdHart s hh).dm = s.dm ∧ (State.holdHart s hh).fx = s.fx ∧ (State.holdHart s hh).ctu = s.ctu ∧ (State.holdHart s hh).links = s.links ∧ (State.holdHart s hh).aplicS = s.aplicS ∧ (State.holdHart s hh).aplicN = s.aplicN ∧ (State.holdHart s hh).credits = s.credits ∧ (State.holdHart s hh).pkts = s.pkts ∧ (State.holdHart s hh).resp = s.resp ∧ (State.holdHart s hh).wires = s.wires ∧ (State.holdHart s hh).dmg = s.dmg ∧ (State.holdHart s hh).dbInval = s.dbInval ∧ (State.holdHart s hh).watch = s.watch ∧ (State.holdHart s hh).pkg = s.pkg ∧ (State.holdHart s hh).pmc = s.pmc ∧ (State.holdHart s hh).out = s.out ∧ (State.holdHart s hh).free = s.free ∧ (State.holdHart s hh).fabric = s.fabric := by
  generalize h : State.holdHart s hh = u
  unfold State.holdHart at h
  rw [← h]; simp [kept @State.freshHart_fr, kept @State.setHart_fr]

theorem State.startHart_fr (s : State) (hh : Nat) : (State.startHart s hh).pending = s.pending ∧ (State.startHart s hh).flash = s.flash ∧ (State.startHart s hh).coldOpt = s.coldOpt ∧ (State.startHart s hh).mem = s.mem ∧ (State.startHart s hh).mram = s.mram ∧ (State.startHart s hh).eng = s.eng ∧ (State.startHart s hh).dm = s.dm ∧ (State.startHart s hh).fx = s.fx ∧ (State.startHart s hh).ctu = s.ctu ∧ (State.startHart s hh).links = s.links ∧ (State.startHart s hh).aplicS = s.aplicS ∧ (State.startHart s hh).aplicN = s.aplicN ∧ (State.startHart s hh).credits = s.credits ∧ (State.startHart s hh).pkts = s.pkts ∧ (State.startHart s hh).resp = s.resp ∧ (State.startHart s hh).wires = s.wires ∧ (State.startHart s hh).dmg = s.dmg ∧ (State.startHart s hh).dbInval = s.dbInval ∧ (State.startHart s hh).watch = s.watch ∧ (State.startHart s hh).pkg = s.pkg ∧ (State.startHart s hh).pmc = s.pmc ∧ (State.startHart s hh).out = s.out ∧ (State.startHart s hh).free = s.free ∧ (State.startHart s hh).fabric = s.fabric := by
  generalize h : State.startHart s hh = u
  unfold State.startHart at h
  rw [← h]; simp [kept @State.freshHart_fr, kept @State.setHart_fr]

theorem State.dropAgent_fr (s : State) (a : Nat) : (State.dropAgent s a).pending = s.pending ∧ (State.dropAgent s a).flash = s.flash ∧ (State.dropAgent s a).coldOpt = s.coldOpt ∧ (State.dropAgent s a).mem = s.mem ∧ (State.dropAgent s a).harts = s.harts ∧ (State.dropAgent s a).mram = s.mram ∧ (State.dropAgent s a).imsic = s.imsic ∧ (State.dropAgent s a).eng = s.eng ∧ (State.dropAgent s a).dm = s.dm ∧ (State.dropAgent s a).fx = s.fx ∧ (State.dropAgent s a).ctu = s.ctu ∧ (State.dropAgent s a).links = s.links ∧ (State.dropAgent s a).aplicS = s.aplicS ∧ (State.dropAgent s a).aplicN = s.aplicN ∧ (State.dropAgent s a).credits = s.credits ∧ (State.dropAgent s a).clusters = s.clusters ∧ (State.dropAgent s a).pkts = s.pkts ∧ (State.dropAgent s a).resp = s.resp ∧ (State.dropAgent s a).wires = s.wires ∧ (State.dropAgent s a).dmg = s.dmg ∧ (State.dropAgent s a).dbInval = s.dbInval ∧ (State.dropAgent s a).watch = s.watch ∧ (State.dropAgent s a).pkg = s.pkg ∧ (State.dropAgent s a).pmc = s.pmc ∧ (State.dropAgent s a).out = s.out ∧ (State.dropAgent s a).free = s.free ∧ (State.dropAgent s a).fabric = s.fabric ∧ (State.dropAgent s a).files = s.files := by
  generalize h : State.dropAgent s a = u
  unfold State.dropAgent at h
  rw [← h]; simp [kept @State.l3Alloc_fr, kept @State.setHome_fr, kept @State.snoopAnswer_fr]

theorem State.giveUpL2_fr (s : State) (c : Nat) : (State.giveUpL2 s c).pending = s.pending ∧ (State.giveUpL2 s c).flash = s.flash ∧ (State.giveUpL2 s c).coldOpt = s.coldOpt ∧ (State.giveUpL2 s c).mem = s.mem ∧ (State.giveUpL2 s c).harts = s.harts ∧ (State.giveUpL2 s c).mram = s.mram ∧ (State.giveUpL2 s c).imsic = s.imsic ∧ (State.giveUpL2 s c).eng = s.eng ∧ (State.giveUpL2 s c).dm = s.dm ∧ (State.giveUpL2 s c).fx = s.fx ∧ (State.giveUpL2 s c).ctu = s.ctu ∧ (State.giveUpL2 s c).links = s.links ∧ (State.giveUpL2 s c).aplicS = s.aplicS ∧ (State.giveUpL2 s c).aplicN = s.aplicN ∧ (State.giveUpL2 s c).credits = s.credits ∧ (State.giveUpL2 s c).pkts = s.pkts ∧ (State.giveUpL2 s c).resp = s.resp ∧ (State.giveUpL2 s c).wires = s.wires ∧ (State.giveUpL2 s c).dmg = s.dmg ∧ (State.giveUpL2 s c).dbInval = s.dbInval ∧ (State.giveUpL2 s c).watch = s.watch ∧ (State.giveUpL2 s c).pkg = s.pkg ∧ (State.giveUpL2 s c).pmc = s.pmc ∧ (State.giveUpL2 s c).fwLog = s.fwLog ∧ (State.giveUpL2 s c).out = s.out ∧ (State.giveUpL2 s c).free = s.free ∧ (State.giveUpL2 s c).fabric = s.fabric ∧ (State.giveUpL2 s c).files = s.files := by
  generalize h : State.giveUpL2 s c = u
  unfold State.giveUpL2 at h
  (try dsimp only at h); (repeat' split at h) <;> (rw [← h]; simp (disch := (intros; (repeat' split) <;> simp [*, kept @State.cleanLine_fr])) [kept @State.cleanLine_fr])

theorem State.loseCluster_fr (s : State) (c : Nat) : (State.loseCluster s c).pending = s.pending ∧ (State.loseCluster s c).flash = s.flash ∧ (State.loseCluster s c).coldOpt = s.coldOpt ∧ (State.loseCluster s c).mem = s.mem ∧ (State.loseCluster s c).mram = s.mram ∧ (State.loseCluster s c).eng = s.eng ∧ (State.loseCluster s c).dm = s.dm ∧ (State.loseCluster s c).fx = s.fx ∧ (State.loseCluster s c).ctu = s.ctu ∧ (State.loseCluster s c).links = s.links ∧ (State.loseCluster s c).aplicS = s.aplicS ∧ (State.loseCluster s c).aplicN = s.aplicN ∧ (State.loseCluster s c).credits = s.credits ∧ (State.loseCluster s c).pkts = s.pkts ∧ (State.loseCluster s c).resp = s.resp ∧ (State.loseCluster s c).wires = s.wires ∧ (State.loseCluster s c).dmg = s.dmg ∧ (State.loseCluster s c).dbInval = s.dbInval ∧ (State.loseCluster s c).watch = s.watch ∧ (State.loseCluster s c).pkg = s.pkg ∧ (State.loseCluster s c).pmc = s.pmc ∧ (State.loseCluster s c).out = s.out ∧ (State.loseCluster s c).free = s.free ∧ (State.loseCluster s c).fabric = s.fabric := by
  generalize h : State.loseCluster s c = u
  unfold State.loseCluster at h
  rw [← h]; simp [kept @State.dropAgent_fr, kept @State.holdHart_fr, kept @State.setCluster_fr]

theorem State.clearSlice_fr (s : State) (n : Nat) : (State.clearSlice s n).pending = s.pending ∧ (State.clearSlice s n).flash = s.flash ∧ (State.clearSlice s n).coldOpt = s.coldOpt ∧ (State.clearSlice s n).mem = s.mem ∧ (State.clearSlice s n).harts = s.harts ∧ (State.clearSlice s n).mram = s.mram ∧ (State.clearSlice s n).imsic = s.imsic ∧ (State.clearSlice s n).dm = s.dm ∧ (State.clearSlice s n).fx = s.fx ∧ (State.clearSlice s n).ctu = s.ctu ∧ (State.clearSlice s n).links = s.links ∧ (State.clearSlice s n).aplicS = s.aplicS ∧ (State.clearSlice s n).aplicN = s.aplicN ∧ (State.clearSlice s n).credits = s.credits ∧ (State.clearSlice s n).clusters = s.clusters ∧ (State.clearSlice s n).homes = s.homes ∧ (State.clearSlice s n).pkts = s.pkts ∧ (State.clearSlice s n).resp = s.resp ∧ (State.clearSlice s n).regs = s.regs ∧ (State.clearSlice s n).wires = s.wires ∧ (State.clearSlice s n).dmg = s.dmg ∧ (State.clearSlice s n).wq = s.wq ∧ (State.clearSlice s n).net = s.net ∧ (State.clearSlice s n).dbInval = s.dbInval ∧ (State.clearSlice s n).watch = s.watch ∧ (State.clearSlice s n).pkg = s.pkg ∧ (State.clearSlice s n).pmc = s.pmc ∧ (State.clearSlice s n).fwLog = s.fwLog ∧ (State.clearSlice s n).out = s.out ∧ (State.clearSlice s n).free = s.free ∧ (State.clearSlice s n).fabric = s.fabric ∧ (State.clearSlice s n).files = s.files := by
  generalize h : State.clearSlice s n = u
  unfold State.clearSlice at h
  (try dsimp only at h); (repeat' split at h) <;> rw [← h] <;> simp [kept @State.setSlice_fr]

theorem State.resetSliceRegs_fr (s : State) (n : Nat) : (State.resetSliceRegs s n).pending = s.pending ∧ (State.resetSliceRegs s n).flash = s.flash ∧ (State.resetSliceRegs s n).coldOpt = s.coldOpt ∧ (State.resetSliceRegs s n).mem = s.mem ∧ (State.resetSliceRegs s n).harts = s.harts ∧ (State.resetSliceRegs s n).mram = s.mram ∧ (State.resetSliceRegs s n).imsic = s.imsic ∧ (State.resetSliceRegs s n).dm = s.dm ∧ (State.resetSliceRegs s n).fx = s.fx ∧ (State.resetSliceRegs s n).ctu = s.ctu ∧ (State.resetSliceRegs s n).links = s.links ∧ (State.resetSliceRegs s n).aplicS = s.aplicS ∧ (State.resetSliceRegs s n).aplicN = s.aplicN ∧ (State.resetSliceRegs s n).credits = s.credits ∧ (State.resetSliceRegs s n).clusters = s.clusters ∧ (State.resetSliceRegs s n).homes = s.homes ∧ (State.resetSliceRegs s n).pkts = s.pkts ∧ (State.resetSliceRegs s n).resp = s.resp ∧ (State.resetSliceRegs s n).wires = s.wires ∧ (State.resetSliceRegs s n).dmg = s.dmg ∧ (State.resetSliceRegs s n).wq = s.wq ∧ (State.resetSliceRegs s n).net = s.net ∧ (State.resetSliceRegs s n).dbInval = s.dbInval ∧ (State.resetSliceRegs s n).watch = s.watch ∧ (State.resetSliceRegs s n).pkg = s.pkg ∧ (State.resetSliceRegs s n).pmc = s.pmc ∧ (State.resetSliceRegs s n).fwLog = s.fwLog ∧ (State.resetSliceRegs s n).out = s.out ∧ (State.resetSliceRegs s n).free = s.free ∧ (State.resetSliceRegs s n).fabric = s.fabric ∧ (State.resetSliceRegs s n).files = s.files := by
  generalize h : State.resetSliceRegs s n = u
  unfold State.resetSliceRegs at h
  rw [← h]; simp [kept @State.clearSlice_fr]

theorem State.fenceCluster_fr (s : State) (c : Nat) : (State.fenceCluster s c).pending = s.pending ∧ (State.fenceCluster s c).flash = s.flash ∧ (State.fenceCluster s c).coldOpt = s.coldOpt ∧ (State.fenceCluster s c).mem = s.mem ∧ (State.fenceCluster s c).mram = s.mram ∧ (State.fenceCluster s c).dm = s.dm ∧ (State.fenceCluster s c).fx = s.fx ∧ (State.fenceCluster s c).ctu = s.ctu ∧ (State.fenceCluster s c).links = s.links ∧ (State.fenceCluster s c).aplicS = s.aplicS ∧ (State.fenceCluster s c).aplicN = s.aplicN ∧ (State.fenceCluster s c).credits = s.credits ∧ (State.fenceCluster s c).pkts = s.pkts ∧ (State.fenceCluster s c).resp = s.resp ∧ (State.fenceCluster s c).wires = s.wires ∧ (State.fenceCluster s c).dmg = s.dmg ∧ (State.fenceCluster s c).dbInval = s.dbInval ∧ (State.fenceCluster s c).watch = s.watch ∧ (State.fenceCluster s c).pkg = s.pkg ∧ (State.fenceCluster s c).pmc = s.pmc ∧ (State.fenceCluster s c).out = s.out ∧ (State.fenceCluster s c).free = s.free ∧ (State.fenceCluster s c).fabric = s.fabric := by
  generalize h : State.fenceCluster s c = u
  unfold State.fenceCluster at h
  rw [← h]; simp [kept @State.fence_fr, kept @State.loseCluster_fr, kept @State.loseSlice_fr, kept @State.resetSliceRegs_fr, kept @State.wr_fr]

theorem State.resetRegs_fr (s : State) (p : Nat → Bool) : (State.resetRegs s p).pending = s.pending ∧ (State.resetRegs s p).flash = s.flash ∧ (State.resetRegs s p).coldOpt = s.coldOpt ∧ (State.resetRegs s p).mem = s.mem ∧ (State.resetRegs s p).harts = s.harts ∧ (State.resetRegs s p).mram = s.mram ∧ (State.resetRegs s p).imsic = s.imsic ∧ (State.resetRegs s p).eng = s.eng ∧ (State.resetRegs s p).dm = s.dm ∧ (State.resetRegs s p).fx = s.fx ∧ (State.resetRegs s p).ctu = s.ctu ∧ (State.resetRegs s p).links = s.links ∧ (State.resetRegs s p).aplicS = s.aplicS ∧ (State.resetRegs s p).aplicN = s.aplicN ∧ (State.resetRegs s p).credits = s.credits ∧ (State.resetRegs s p).clusters = s.clusters ∧ (State.resetRegs s p).homes = s.homes ∧ (State.resetRegs s p).pkts = s.pkts ∧ (State.resetRegs s p).resp = s.resp ∧ (State.resetRegs s p).wires = s.wires ∧ (State.resetRegs s p).dmg = s.dmg ∧ (State.resetRegs s p).wq = s.wq ∧ (State.resetRegs s p).net = s.net ∧ (State.resetRegs s p).dbInval = s.dbInval ∧ (State.resetRegs s p).watch = s.watch ∧ (State.resetRegs s p).pkg = s.pkg ∧ (State.resetRegs s p).pmc = s.pmc ∧ (State.resetRegs s p).fwLog = s.fwLog ∧ (State.resetRegs s p).out = s.out ∧ (State.resetRegs s p).free = s.free ∧ (State.resetRegs s p).fabric = s.fabric ∧ (State.resetRegs s p).files = s.files := by
  generalize h : State.resetRegs s p = u
  unfold State.resetRegs at h
  rw [← h]; simp

theorem State.resetFabric_fr (s : State) : (State.resetFabric s).pending = s.pending ∧ (State.resetFabric s).flash = s.flash ∧ (State.resetFabric s).coldOpt = s.coldOpt ∧ (State.resetFabric s).mem = s.mem ∧ (State.resetFabric s).mram = s.mram ∧ (State.resetFabric s).fx = s.fx ∧ (State.resetFabric s).ctu = s.ctu ∧ (State.resetFabric s).resp = s.resp ∧ (State.resetFabric s).dmg = s.dmg ∧ (State.resetFabric s).pkg = s.pkg ∧ (State.resetFabric s).pmc = s.pmc ∧ (State.resetFabric s).out = s.out ∧ (State.resetFabric s).free = s.free := by
  generalize h : State.resetFabric s = u
  unfold State.resetFabric at h
  (try dsimp only at h); (repeat' split at h) <;> rw [← h] <;> simp [kept @State.dmReset_fr, kept @State.engineReset_fr, kept @State.holdHart_fr]

theorem State.resetUnits_fr (s : State) : (State.resetUnits s).pending = s.pending ∧ (State.resetUnits s).flash = s.flash ∧ (State.resetUnits s).coldOpt = s.coldOpt ∧ (State.resetUnits s).mem = s.mem ∧ (State.resetUnits s).mram = s.mram ∧ (State.resetUnits s).ctu = s.ctu ∧ (State.resetUnits s).resp = s.resp ∧ (State.resetUnits s).dmg = s.dmg ∧ (State.resetUnits s).pkg = s.pkg ∧ (State.resetUnits s).pmc = s.pmc ∧ (State.resetUnits s).out = s.out ∧ (State.resetUnits s).free = s.free := by
  generalize h : State.resetUnits s = u
  unfold State.resetUnits at h
  rw [← h]; simp [kept @State.finxisReset_fr, kept @State.resetFabric_fr]

theorem State.resetPmc_fr (s : State) : (State.resetPmc s).pending = s.pending ∧ (State.resetPmc s).flash = s.flash ∧ (State.resetPmc s).coldOpt = s.coldOpt ∧ (State.resetPmc s).mem = s.mem ∧ (State.resetPmc s).harts = s.harts ∧ (State.resetPmc s).mram = s.mram ∧ (State.resetPmc s).imsic = s.imsic ∧ (State.resetPmc s).eng = s.eng ∧ (State.resetPmc s).dm = s.dm ∧ (State.resetPmc s).fx = s.fx ∧ (State.resetPmc s).ctu = s.ctu ∧ (State.resetPmc s).links = s.links ∧ (State.resetPmc s).aplicS = s.aplicS ∧ (State.resetPmc s).aplicN = s.aplicN ∧ (State.resetPmc s).credits = s.credits ∧ (State.resetPmc s).clusters = s.clusters ∧ (State.resetPmc s).homes = s.homes ∧ (State.resetPmc s).pkts = s.pkts ∧ (State.resetPmc s).resp = s.resp ∧ (State.resetPmc s).regs = s.regs ∧ (State.resetPmc s).wires = s.wires ∧ (State.resetPmc s).dmg = s.dmg ∧ (State.resetPmc s).wq = s.wq ∧ (State.resetPmc s).net = s.net ∧ (State.resetPmc s).dbInval = s.dbInval ∧ (State.resetPmc s).watch = s.watch ∧ (State.resetPmc s).pkg = s.pkg ∧ (State.resetPmc s).fwLog = s.fwLog ∧ (State.resetPmc s).out = s.out ∧ (State.resetPmc s).free = s.free ∧ (State.resetPmc s).fabric = s.fabric ∧ (State.resetPmc s).files = s.files := by
  generalize h : State.resetPmc s = u
  unfold State.resetPmc at h
  rw [← h]; simp

theorem State.dropOrders_fr (s : State) : (State.dropOrders s).pending = s.pending ∧ (State.dropOrders s).flash = s.flash ∧ (State.dropOrders s).coldOpt = s.coldOpt ∧ (State.dropOrders s).mem = s.mem ∧ (State.dropOrders s).harts = s.harts ∧ (State.dropOrders s).mram = s.mram ∧ (State.dropOrders s).imsic = s.imsic ∧ (State.dropOrders s).eng = s.eng ∧ (State.dropOrders s).dm = s.dm ∧ (State.dropOrders s).fx = s.fx ∧ (State.dropOrders s).ctu = s.ctu ∧ (State.dropOrders s).links = s.links ∧ (State.dropOrders s).aplicS = s.aplicS ∧ (State.dropOrders s).aplicN = s.aplicN ∧ (State.dropOrders s).credits = s.credits ∧ (State.dropOrders s).clusters = s.clusters ∧ (State.dropOrders s).homes = s.homes ∧ (State.dropOrders s).pkts = s.pkts ∧ (State.dropOrders s).resp = s.resp ∧ (State.dropOrders s).regs = s.regs ∧ (State.dropOrders s).wires = s.wires ∧ (State.dropOrders s).dmg = s.dmg ∧ (State.dropOrders s).wq = s.wq ∧ (State.dropOrders s).net = s.net ∧ (State.dropOrders s).dbInval = s.dbInval ∧ (State.dropOrders s).watch = s.watch ∧ (State.dropOrders s).pmc = s.pmc ∧ (State.dropOrders s).fwLog = s.fwLog ∧ (State.dropOrders s).out = s.out ∧ (State.dropOrders s).free = s.free ∧ (State.dropOrders s).fabric = s.fabric ∧ (State.dropOrders s).files = s.files := by
  generalize h : State.dropOrders s = u
  unfold State.dropOrders at h
  rw [← h]; simp [kept @State.pk_fr]

theorem State.drainChannel_fr (s : State) (m : Nat) : (State.drainChannel s m).pending = s.pending ∧ (State.drainChannel s m).flash = s.flash ∧ (State.drainChannel s m).coldOpt = s.coldOpt ∧ (State.drainChannel s m).harts = s.harts ∧ (State.drainChannel s m).imsic = s.imsic ∧ (State.drainChannel s m).eng = s.eng ∧ (State.drainChannel s m).dm = s.dm ∧ (State.drainChannel s m).fx = s.fx ∧ (State.drainChannel s m).ctu = s.ctu ∧ (State.drainChannel s m).links = s.links ∧ (State.drainChannel s m).aplicS = s.aplicS ∧ (State.drainChannel s m).aplicN = s.aplicN ∧ (State.drainChannel s m).credits = s.credits ∧ (State.drainChannel s m).clusters = s.clusters ∧ (State.drainChannel s m).homes = s.homes ∧ (State.drainChannel s m).pkts = s.pkts ∧ (State.drainChannel s m).resp = s.resp ∧ (State.drainChannel s m).net = s.net ∧ (State.drainChannel s m).dbInval = s.dbInval ∧ (State.drainChannel s m).watch = s.watch ∧ (State.drainChannel s m).fwLog = s.fwLog ∧ (State.drainChannel s m).out = s.out ∧ (State.drainChannel s m).free = s.free ∧ (State.drainChannel s m).fabric = s.fabric ∧ (State.drainChannel s m).files = s.files := by
  generalize h : State.drainChannel s m = u
  unfold State.drainChannel at h
  rw [← h]; simp [kept @State.issueWrite_fr]

theorem State.selfRefresh_fr (s : State) (m : Nat) : (State.selfRefresh s m).pending = s.pending ∧ (State.selfRefresh s m).flash = s.flash ∧ (State.selfRefresh s m).coldOpt = s.coldOpt ∧ (State.selfRefresh s m).harts = s.harts ∧ (State.selfRefresh s m).imsic = s.imsic ∧ (State.selfRefresh s m).eng = s.eng ∧ (State.selfRefresh s m).dm = s.dm ∧ (State.selfRefresh s m).fx = s.fx ∧ (State.selfRefresh s m).ctu = s.ctu ∧ (State.selfRefresh s m).links = s.links ∧ (State.selfRefresh s m).aplicS = s.aplicS ∧ (State.selfRefresh s m).aplicN = s.aplicN ∧ (State.selfRefresh s m).credits = s.credits ∧ (State.selfRefresh s m).clusters = s.clusters ∧ (State.selfRefresh s m).homes = s.homes ∧ (State.selfRefresh s m).pkts = s.pkts ∧ (State.selfRefresh s m).resp = s.resp ∧ (State.selfRefresh s m).net = s.net ∧ (State.selfRefresh s m).dbInval = s.dbInval ∧ (State.selfRefresh s m).watch = s.watch ∧ (State.selfRefresh s m).fwLog = s.fwLog ∧ (State.selfRefresh s m).out = s.out ∧ (State.selfRefresh s m).free = s.free ∧ (State.selfRefresh s m).fabric = s.fabric ∧ (State.selfRefresh s m).files = s.files := by
  generalize h : State.selfRefresh s m = u
  unfold State.selfRefresh at h
  rw [← h]; simp [kept @State.drainChannel_fr, kept @State.wr_fr]

theorem State.warmReset_fr (s : State) (cause : Nat) (src : Nat) : (State.warmReset s cause src).pending = s.pending ∧ (State.warmReset s cause src).flash = s.flash ∧ (State.warmReset s cause src).coldOpt = s.coldOpt ∧ (State.warmReset s cause src).resp = s.resp ∧ (State.warmReset s cause src).out = s.out ∧ (State.warmReset s cause src).free = s.free := by
  generalize h : State.warmReset s cause src = u
  unfold State.warmReset at h
  rw [← h]; simp [kept @State.arriveMode_fr, kept @State.ctuReset_fr, kept @State.dropOrders_fr, kept @State.hartCause_fr, kept @State.pk_fr, kept @State.recordReach_fr, kept @State.resetPmc_fr, kept @State.resetRegs_fr, kept @State.resetUnits_fr]

theorem State.coldReset_fr (s : State) (cause : Nat) (src : Nat) : (State.coldReset s cause src).pending = s.pending ∧ (State.coldReset s cause src).flash = s.flash ∧ (State.coldReset s cause src).coldOpt = s.coldOpt ∧ (State.coldReset s cause src).mem = s.mem ∧ (State.coldReset s cause src).resp = s.resp ∧ (State.coldReset s cause src).out = s.out ∧ (State.coldReset s cause src).free = s.free := by
  generalize h : State.coldReset s cause src = u
  unfold State.coldReset at h
  rw [← h]; simp [kept @State.arriveMode_fr, kept @State.dropOrders_fr, kept @State.hartCause_fr, kept @State.pk_fr, kept @State.recordReach_fr, kept @State.resetPmc_fr, kept @State.resetRegs_fr, kept @State.resetUnits_fr, kept @State.wrs_fr]

theorem State.powerOnReset_fr (s : State) (aon : Bool) : (State.powerOnReset s aon).pending = s.pending ∧ (State.powerOnReset s aon).flash = s.flash ∧ (State.powerOnReset s aon).coldOpt = s.coldOpt ∧ (State.powerOnReset s aon).mem = s.mem ∧ (State.powerOnReset s aon).mram = s.mram ∧ (State.powerOnReset s aon).resp = s.resp ∧ (State.powerOnReset s aon).out = s.out ∧ (State.powerOnReset s aon).free = s.free := by
  generalize h : State.powerOnReset s aon = u
  unfold State.powerOnReset at h
  rw [← h]; simp [kept @State.dropOrders_fr, kept @State.hartCause_fr, kept @State.pk_fr, kept @State.recordReach_fr, kept @State.resetPmc_fr, kept @State.resetRegs_fr, kept @State.resetUnits_fr, kept @State.wr_fr, kept @State.wrs_fr]

theorem State.stopUnits_fr (s : State) : (State.stopUnits s).pending = s.pending ∧ (State.stopUnits s).flash = s.flash ∧ (State.stopUnits s).coldOpt = s.coldOpt ∧ (State.stopUnits s).resp = s.resp ∧ (State.stopUnits s).out = s.out ∧ (State.stopUnits s).free = s.free := by
  generalize h : State.stopUnits s = u
  unfold State.stopUnits at h
  rw [← h]; simp [kept @State.ctuReset_fr, kept @State.finxisLane2_fr, kept @State.pk_fr, kept @State.resetFabric_fr, kept @State.resetRegs_fr, kept @State.selfRefresh_fr]

theorem State.failMoves_fr (s : State) : (State.failMoves s).pending = s.pending ∧ (State.failMoves s).flash = s.flash ∧ (State.failMoves s).coldOpt = s.coldOpt ∧ (State.failMoves s).mem = s.mem ∧ (State.failMoves s).harts = s.harts ∧ (State.failMoves s).mram = s.mram ∧ (State.failMoves s).imsic = s.imsic ∧ (State.failMoves s).eng = s.eng ∧ (State.failMoves s).dm = s.dm ∧ (State.failMoves s).ctu = s.ctu ∧ (State.failMoves s).links = s.links ∧ (State.failMoves s).aplicS = s.aplicS ∧ (State.failMoves s).aplicN = s.aplicN ∧ (State.failMoves s).credits = s.credits ∧ (State.failMoves s).clusters = s.clusters ∧ (State.failMoves s).homes = s.homes ∧ (State.failMoves s).pkts = s.pkts ∧ (State.failMoves s).resp = s.resp ∧ (State.failMoves s).dmg = s.dmg ∧ (State.failMoves s).wq = s.wq ∧ (State.failMoves s).net = s.net ∧ (State.failMoves s).dbInval = s.dbInval ∧ (State.failMoves s).watch = s.watch ∧ (State.failMoves s).fwLog = s.fwLog ∧ (State.failMoves s).free = s.free ∧ (State.failMoves s).fabric = s.fabric ∧ (State.failMoves s).files = s.files := by
  generalize h : State.failMoves s = u
  unfold State.failMoves at h
  (try dsimp only at h); (repeat' split at h) <;> rw [← h] <;> simp [kept @State.endPower_fr, kept @State.pk_fr]

theorem State.enterCaution_fr (s : State) (cause : Nat) (src : Nat) : (State.enterCaution s cause src).pending = s.pending ∧ (State.enterCaution s cause src).flash = s.flash ∧ (State.enterCaution s cause src).coldOpt = s.coldOpt ∧ (State.enterCaution s cause src).resp = s.resp ∧ (State.enterCaution s cause src).free = s.free := by
  generalize h : State.enterCaution s cause src = u
  unfold State.enterCaution at h
  rw [← h]; simp [kept @State.arriveMode_fr, kept @State.failMoves_fr, kept @State.stopUnits_fr]

theorem State.enterSiding_fr (s : State) (cause : Nat) (src : Nat) : (State.enterSiding s cause src).pending = s.pending ∧ (State.enterSiding s cause src).flash = s.flash ∧ (State.enterSiding s cause src).coldOpt = s.coldOpt ∧ (State.enterSiding s cause src).mem = s.mem ∧ (State.enterSiding s cause src).harts = s.harts ∧ (State.enterSiding s cause src).imsic = s.imsic ∧ (State.enterSiding s cause src).eng = s.eng ∧ (State.enterSiding s cause src).dm = s.dm ∧ (State.enterSiding s cause src).fx = s.fx ∧ (State.enterSiding s cause src).ctu = s.ctu ∧ (State.enterSiding s cause src).links = s.links ∧ (State.enterSiding s cause src).aplicS = s.aplicS ∧ (State.enterSiding s cause src).aplicN = s.aplicN ∧ (State.enterSiding s cause src).credits = s.credits ∧ (State.enterSiding s cause src).clusters = s.clusters ∧ (State.enterSiding s cause src).homes = s.homes ∧ (State.enterSiding s cause src).pkts = s.pkts ∧ (State.enterSiding s cause src).resp = s.resp ∧ (State.enterSiding s cause src).wires = s.wires ∧ (State.enterSiding s cause src).dmg = s.dmg ∧ (State.enterSiding s cause src).wq = s.wq ∧ (State.enterSiding s cause src).net = s.net ∧ (State.enterSiding s cause src).dbInval = s.dbInval ∧ (State.enterSiding s cause src).watch = s.watch ∧ (State.enterSiding s cause src).fwLog = s.fwLog ∧ (State.enterSiding s cause src).out = s.out ∧ (State.enterSiding s cause src).free = s.free ∧ (State.enterSiding s cause src).fabric = s.fabric ∧ (State.enterSiding s cause src).files = s.files := by
  generalize h : State.enterSiding s cause src = u
  unfold State.enterSiding at h
  rw [← h]; simp [kept @State.arriveMode_fr, kept @State.pk_fr, kept @State.wr_fr]

theorem State.logBank_fr (s : State) (r : ErrRec) : (State.logBank s r).pending = s.pending ∧ (State.logBank s r).flash = s.flash ∧ (State.logBank s r).coldOpt = s.coldOpt ∧ (State.logBank s r).mem = s.mem ∧ (State.logBank s r).harts = s.harts ∧ (State.logBank s r).imsic = s.imsic ∧ (State.logBank s r).eng = s.eng ∧ (State.logBank s r).dm = s.dm ∧ (State.logBank s r).fx = s.fx ∧ (State.logBank s r).ctu = s.ctu ∧ (State.logBank s r).links = s.links ∧ (State.logBank s r).aplicS = s.aplicS ∧ (State.logBank s r).aplicN = s.aplicN ∧ (State.logBank s r).credits = s.credits ∧ (State.logBank s r).clusters = s.clusters ∧ (State.logBank s r).homes = s.homes ∧ (State.logBank s r).pkts = s.pkts ∧ (State.logBank s r).resp = s.resp ∧ (State.logBank s r).regs = s.regs ∧ (State.logBank s r).wires = s.wires ∧ (State.logBank s r).dmg = s.dmg ∧ (State.logBank s r).wq = s.wq ∧ (State.logBank s r).net = s.net ∧ (State.logBank s r).dbInval = s.dbInval ∧ (State.logBank s r).watch = s.watch ∧ (State.logBank s r).pkg = s.pkg ∧ (State.logBank s r).fwLog = s.fwLog ∧ (State.logBank s r).out = s.out ∧ (State.logBank s r).free = s.free ∧ (State.logBank s r).fabric = s.fabric ∧ (State.logBank s r).files = s.files := by
  generalize h : State.logBank s r = u
  unfold State.logBank at h
  rw [← h]; simp [kept @State.logNow_fr]

theorem State.logChannel_fr (s : State) (m : Nat) : (State.logChannel s m).pending = s.pending ∧ (State.logChannel s m).flash = s.flash ∧ (State.logChannel s m).coldOpt = s.coldOpt ∧ (State.logChannel s m).mem = s.mem ∧ (State.logChannel s m).harts = s.harts ∧ (State.logChannel s m).imsic = s.imsic ∧ (State.logChannel s m).eng = s.eng ∧ (State.logChannel s m).dm = s.dm ∧ (State.logChannel s m).fx = s.fx ∧ (State.logChannel s m).ctu = s.ctu ∧ (State.logChannel s m).links = s.links ∧ (State.logChannel s m).aplicS = s.aplicS ∧ (State.logChannel s m).aplicN = s.aplicN ∧ (State.logChannel s m).credits = s.credits ∧ (State.logChannel s m).clusters = s.clusters ∧ (State.logChannel s m).homes = s.homes ∧ (State.logChannel s m).pkts = s.pkts ∧ (State.logChannel s m).resp = s.resp ∧ (State.logChannel s m).regs = s.regs ∧ (State.logChannel s m).wires = s.wires ∧ (State.logChannel s m).dmg = s.dmg ∧ (State.logChannel s m).wq = s.wq ∧ (State.logChannel s m).net = s.net ∧ (State.logChannel s m).dbInval = s.dbInval ∧ (State.logChannel s m).watch = s.watch ∧ (State.logChannel s m).pkg = s.pkg ∧ (State.logChannel s m).fwLog = s.fwLog ∧ (State.logChannel s m).out = s.out ∧ (State.logChannel s m).free = s.free ∧ (State.logChannel s m).fabric = s.fabric ∧ (State.logChannel s m).files = s.files := by
  generalize h : State.logChannel s m = u
  unfold State.logChannel at h
  rw [← h]; simp [kept @State.logNow_fr]

@[simp] theorem State.logBanks_pending (s : State) : s.logBanks.pending = s.pending := by
  simp only [State.logBanks]
  simp [kept @State.logBank_fr, kept @State.logChannel_fr]

@[simp] theorem State.logBanks_files (s : State) : s.logBanks.files = s.files := by
  simp only [State.logBanks]
  simp [kept @State.logBank_fr, kept @State.logChannel_fr]

@[simp] theorem State.logBanks_fabric (s : State) : s.logBanks.fabric = s.fabric := by
  simp only [State.logBanks]
  simp [kept @State.logBank_fr, kept @State.logChannel_fr]

@[simp] theorem State.logBanks_flash (s : State) : s.logBanks.flash = s.flash := by
  simp only [State.logBanks]
  simp [kept @State.logBank_fr, kept @State.logChannel_fr]

@[simp] theorem State.logBanks_coldOpt (s : State) : s.logBanks.coldOpt = s.coldOpt := by
  simp only [State.logBanks]
  simp [kept @State.logBank_fr, kept @State.logChannel_fr]

@[simp] theorem State.logBanks_mem (s : State) : s.logBanks.mem = s.mem := by
  simp only [State.logBanks]
  simp [kept @State.logBank_fr, kept @State.logChannel_fr]

@[simp] theorem State.logBanks_harts (s : State) : s.logBanks.harts = s.harts := by
  simp only [State.logBanks]
  simp [kept @State.logBank_fr, kept @State.logChannel_fr]

@[simp] theorem State.logBanks_imsic (s : State) : s.logBanks.imsic = s.imsic := by
  simp only [State.logBanks]
  simp [kept @State.logBank_fr, kept @State.logChannel_fr]

@[simp] theorem State.logBanks_eng (s : State) : s.logBanks.eng = s.eng := by
  simp only [State.logBanks]
  simp [kept @State.logBank_fr, kept @State.logChannel_fr]

@[simp] theorem State.logBanks_dm (s : State) : s.logBanks.dm = s.dm := by
  simp only [State.logBanks]
  simp [kept @State.logBank_fr, kept @State.logChannel_fr]

@[simp] theorem State.logBanks_fx (s : State) : s.logBanks.fx = s.fx := by
  simp only [State.logBanks]
  simp [kept @State.logBank_fr, kept @State.logChannel_fr]

@[simp] theorem State.logBanks_ctu (s : State) : s.logBanks.ctu = s.ctu := by
  simp only [State.logBanks]
  simp [kept @State.logBank_fr, kept @State.logChannel_fr]

@[simp] theorem State.logBanks_links (s : State) : s.logBanks.links = s.links := by
  simp only [State.logBanks]
  simp [kept @State.logBank_fr, kept @State.logChannel_fr]

@[simp] theorem State.logBanks_aplicS (s : State) : s.logBanks.aplicS = s.aplicS := by
  simp only [State.logBanks]
  simp [kept @State.logBank_fr, kept @State.logChannel_fr]

@[simp] theorem State.logBanks_aplicN (s : State) : s.logBanks.aplicN = s.aplicN := by
  simp only [State.logBanks]
  simp [kept @State.logBank_fr, kept @State.logChannel_fr]

@[simp] theorem State.logBanks_credits (s : State) : s.logBanks.credits = s.credits := by
  simp only [State.logBanks]
  simp [kept @State.logBank_fr, kept @State.logChannel_fr]

@[simp] theorem State.logBanks_clusters (s : State) : s.logBanks.clusters = s.clusters := by
  simp only [State.logBanks]
  simp [kept @State.logBank_fr, kept @State.logChannel_fr]

@[simp] theorem State.logBanks_homes (s : State) : s.logBanks.homes = s.homes := by
  simp only [State.logBanks]
  simp [kept @State.logBank_fr, kept @State.logChannel_fr]

@[simp] theorem State.logBanks_pkts (s : State) : s.logBanks.pkts = s.pkts := by
  simp only [State.logBanks]
  simp [kept @State.logBank_fr, kept @State.logChannel_fr]

@[simp] theorem State.logBanks_resp (s : State) : s.logBanks.resp = s.resp := by
  simp only [State.logBanks]
  simp [kept @State.logBank_fr, kept @State.logChannel_fr]

@[simp] theorem State.logBanks_regs (s : State) : s.logBanks.regs = s.regs := by
  simp only [State.logBanks]
  simp [kept @State.logBank_fr, kept @State.logChannel_fr]

@[simp] theorem State.logBanks_wires (s : State) : s.logBanks.wires = s.wires := by
  simp only [State.logBanks]
  simp [kept @State.logBank_fr, kept @State.logChannel_fr]

@[simp] theorem State.logBanks_dmg (s : State) : s.logBanks.dmg = s.dmg := by
  simp only [State.logBanks]
  simp [kept @State.logBank_fr, kept @State.logChannel_fr]

@[simp] theorem State.logBanks_wq (s : State) : s.logBanks.wq = s.wq := by
  simp only [State.logBanks]
  simp [kept @State.logBank_fr, kept @State.logChannel_fr]

@[simp] theorem State.logBanks_net (s : State) : s.logBanks.net = s.net := by
  simp only [State.logBanks]
  simp [kept @State.logBank_fr, kept @State.logChannel_fr]

@[simp] theorem State.logBanks_dbInval (s : State) : s.logBanks.dbInval = s.dbInval := by
  simp only [State.logBanks]
  simp [kept @State.logBank_fr, kept @State.logChannel_fr]

@[simp] theorem State.logBanks_watch (s : State) : s.logBanks.watch = s.watch := by
  simp only [State.logBanks]
  simp [kept @State.logBank_fr, kept @State.logChannel_fr]

@[simp] theorem State.logBanks_pkg (s : State) : s.logBanks.pkg = s.pkg := by
  simp only [State.logBanks]
  simp [kept @State.logBank_fr, kept @State.logChannel_fr]

@[simp] theorem State.logBanks_fwLog (s : State) : s.logBanks.fwLog = s.fwLog := by
  simp only [State.logBanks]
  simp [kept @State.logBank_fr, kept @State.logChannel_fr]

@[simp] theorem State.logBanks_out (s : State) : s.logBanks.out = s.out := by
  simp only [State.logBanks]
  simp [kept @State.logBank_fr, kept @State.logChannel_fr]

@[simp] theorem State.logBanks_free (s : State) : s.logBanks.free = s.free := by
  simp only [State.logBanks]
  simp [kept @State.logBank_fr, kept @State.logChannel_fr]

theorem State.enterBufferStop_fr (s : State) (intact : Bool) : (State.enterBufferStop s intact).pending = s.pending ∧ (State.enterBufferStop s intact).flash = s.flash ∧ (State.enterBufferStop s intact).coldOpt = s.coldOpt ∧ (State.enterBufferStop s intact).resp = s.resp ∧ (State.enterBufferStop s intact).free = s.free := by
  generalize h : State.enterBufferStop s intact = u
  unfold State.enterBufferStop at h
  rw [← h]; simp [kept @State.arriveMode_fr, kept @State.failMoves_fr, kept @State.pk_fr, kept @State.stopUnits_fr, kept @State.wrs_fr]

theorem State.fatalPkg_fr (s : State) : (State.fatalPkg s).pending = s.pending ∧ (State.fatalPkg s).flash = s.flash ∧ (State.fatalPkg s).coldOpt = s.coldOpt ∧ (State.fatalPkg s).resp = s.resp ∧ (State.fatalPkg s).free = s.free := by
  generalize h : State.fatalPkg s = u
  unfold State.fatalPkg at h
  rw [← h]; simp [kept @State.enterBufferStop_fr, kept @State.enterCaution_fr]

theorem State.setDieState_fr (s : State) (d : Nat) (st : Nat) : (State.setDieState s d st).pending = s.pending ∧ (State.setDieState s d st).flash = s.flash ∧ (State.setDieState s d st).coldOpt = s.coldOpt ∧ (State.setDieState s d st).mem = s.mem ∧ (State.setDieState s d st).harts = s.harts ∧ (State.setDieState s d st).mram = s.mram ∧ (State.setDieState s d st).imsic = s.imsic ∧ (State.setDieState s d st).eng = s.eng ∧ (State.setDieState s d st).dm = s.dm ∧ (State.setDieState s d st).fx = s.fx ∧ (State.setDieState s d st).ctu = s.ctu ∧ (State.setDieState s d st).links = s.links ∧ (State.setDieState s d st).aplicS = s.aplicS ∧ (State.setDieState s d st).aplicN = s.aplicN ∧ (State.setDieState s d st).credits = s.credits ∧ (State.setDieState s d st).clusters = s.clusters ∧ (State.setDieState s d st).homes = s.homes ∧ (State.setDieState s d st).pkts = s.pkts ∧ (State.setDieState s d st).resp = s.resp ∧ (State.setDieState s d st).wires = s.wires ∧ (State.setDieState s d st).dmg = s.dmg ∧ (State.setDieState s d st).wq = s.wq ∧ (State.setDieState s d st).net = s.net ∧ (State.setDieState s d st).dbInval = s.dbInval ∧ (State.setDieState s d st).watch = s.watch ∧ (State.setDieState s d st).pkg = s.pkg ∧ (State.setDieState s d st).pmc = s.pmc ∧ (State.setDieState s d st).fwLog = s.fwLog ∧ (State.setDieState s d st).out = s.out ∧ (State.setDieState s d st).free = s.free ∧ (State.setDieState s d st).fabric = s.fabric ∧ (State.setDieState s d st).files = s.files := by
  generalize h : State.setDieState s d st = u
  unfold State.setDieState at h
  rw [← h]; simp [kept @State.wr_fr, kept @State.wrW_fr]

theorem State.codeReset_fr (s : State) (d : Nat) : (State.codeReset s d).pending = s.pending ∧ (State.codeReset s d).flash = s.flash ∧ (State.codeReset s d).coldOpt = s.coldOpt ∧ (State.codeReset s d).mem = s.mem ∧ (State.codeReset s d).harts = s.harts ∧ (State.codeReset s d).mram = s.mram ∧ (State.codeReset s d).imsic = s.imsic ∧ (State.codeReset s d).eng = s.eng ∧ (State.codeReset s d).dm = s.dm ∧ (State.codeReset s d).fx = s.fx ∧ (State.codeReset s d).ctu = s.ctu ∧ (State.codeReset s d).links = s.links ∧ (State.codeReset s d).aplicS = s.aplicS ∧ (State.codeReset s d).aplicN = s.aplicN ∧ (State.codeReset s d).credits = s.credits ∧ (State.codeReset s d).clusters = s.clusters ∧ (State.codeReset s d).homes = s.homes ∧ (State.codeReset s d).pkts = s.pkts ∧ (State.codeReset s d).resp = s.resp ∧ (State.codeReset s d).wires = s.wires ∧ (State.codeReset s d).dmg = s.dmg ∧ (State.codeReset s d).wq = s.wq ∧ (State.codeReset s d).net = s.net ∧ (State.codeReset s d).dbInval = s.dbInval ∧ (State.codeReset s d).watch = s.watch ∧ (State.codeReset s d).pkg = s.pkg ∧ (State.codeReset s d).pmc = s.pmc ∧ (State.codeReset s d).fwLog = s.fwLog ∧ (State.codeReset s d).out = s.out ∧ (State.codeReset s d).free = s.free ∧ (State.codeReset s d).fabric = s.fabric ∧ (State.codeReset s d).files = s.files := by
  generalize h : State.codeReset s d = u
  unfold State.codeReset at h
  (try dsimp only at h); (repeat' split at h) <;> rw [← h] <;> simp [kept @State.wrs_fr]

theorem State.loseDie_fr (s : State) (d : Nat) (clkLoss : Bool) : (State.loseDie s d clkLoss).pending = s.pending ∧ (State.loseDie s d clkLoss).flash = s.flash ∧ (State.loseDie s d clkLoss).coldOpt = s.coldOpt ∧ (State.loseDie s d clkLoss).resp = s.resp ∧ (State.loseDie s d clkLoss).free = s.free := by
  generalize h : State.loseDie s d clkLoss = u
  unfold State.loseDie at h
  rw [← h]; simp [kept @State.codeReset_fr, kept @State.enterCaution_fr, kept @State.fenceCluster_fr, kept @State.hartCause_fr, kept @State.pk_fr, kept @State.raise_fr, kept @State.recordReach_fr, kept @State.setCtu_fr, kept @State.setDieState_fr, kept @State.wrW_fr, kept @State.wrs_fr]

theorem State.dropL1_fr (s : State) (hh : Nat) : (State.dropL1 s hh).pending = s.pending ∧ (State.dropL1 s hh).flash = s.flash ∧ (State.dropL1 s hh).coldOpt = s.coldOpt ∧ (State.dropL1 s hh).mem = s.mem ∧ (State.dropL1 s hh).harts = s.harts ∧ (State.dropL1 s hh).mram = s.mram ∧ (State.dropL1 s hh).imsic = s.imsic ∧ (State.dropL1 s hh).eng = s.eng ∧ (State.dropL1 s hh).dm = s.dm ∧ (State.dropL1 s hh).fx = s.fx ∧ (State.dropL1 s hh).ctu = s.ctu ∧ (State.dropL1 s hh).links = s.links ∧ (State.dropL1 s hh).aplicS = s.aplicS ∧ (State.dropL1 s hh).aplicN = s.aplicN ∧ (State.dropL1 s hh).credits = s.credits ∧ (State.dropL1 s hh).homes = s.homes ∧ (State.dropL1 s hh).pkts = s.pkts ∧ (State.dropL1 s hh).resp = s.resp ∧ (State.dropL1 s hh).regs = s.regs ∧ (State.dropL1 s hh).wires = s.wires ∧ (State.dropL1 s hh).dmg = s.dmg ∧ (State.dropL1 s hh).wq = s.wq ∧ (State.dropL1 s hh).net = s.net ∧ (State.dropL1 s hh).dbInval = s.dbInval ∧ (State.dropL1 s hh).watch = s.watch ∧ (State.dropL1 s hh).pkg = s.pkg ∧ (State.dropL1 s hh).pmc = s.pmc ∧ (State.dropL1 s hh).fwLog = s.fwLog ∧ (State.dropL1 s hh).out = s.out ∧ (State.dropL1 s hh).free = s.free ∧ (State.dropL1 s hh).fabric = s.fabric ∧ (State.dropL1 s hh).files = s.files := by
  generalize h : State.dropL1 s hh = u
  unfold State.dropL1 at h
  rw [← h]; simp [kept @State.setCluster_fr]

theorem State.coreReset_fr (s : State) (hh : Nat) (bit : Nat) : (State.coreReset s hh bit).pending = s.pending ∧ (State.coreReset s hh bit).flash = s.flash ∧ (State.coreReset s hh bit).coldOpt = s.coldOpt ∧ (State.coreReset s hh bit).mem = s.mem ∧ (State.coreReset s hh bit).mram = s.mram ∧ (State.coreReset s hh bit).eng = s.eng ∧ (State.coreReset s hh bit).dm = s.dm ∧ (State.coreReset s hh bit).fx = s.fx ∧ (State.coreReset s hh bit).ctu = s.ctu ∧ (State.coreReset s hh bit).links = s.links ∧ (State.coreReset s hh bit).aplicS = s.aplicS ∧ (State.coreReset s hh bit).aplicN = s.aplicN ∧ (State.coreReset s hh bit).credits = s.credits ∧ (State.coreReset s hh bit).pkts = s.pkts ∧ (State.coreReset s hh bit).resp = s.resp ∧ (State.coreReset s hh bit).wires = s.wires ∧ (State.coreReset s hh bit).dmg = s.dmg ∧ (State.coreReset s hh bit).dbInval = s.dbInval ∧ (State.coreReset s hh bit).watch = s.watch ∧ (State.coreReset s hh bit).pkg = s.pkg ∧ (State.coreReset s hh bit).pmc = s.pmc ∧ (State.coreReset s hh bit).out = s.out ∧ (State.coreReset s hh bit).free = s.free ∧ (State.coreReset s hh bit).fabric = s.fabric := by
  generalize h : State.coreReset s hh bit = u
  unfold State.coreReset at h
  rw [← h]; simp [kept @State.dropL1_fr, kept @State.freeHeld_fr, kept @State.hartCause_fr, kept @State.recordReach_fr, kept @State.startHart_fr]

theorem State.writeBackL2_fr (s : State) (c : Nat) : (State.writeBackL2 s c).pending = s.pending ∧ (State.writeBackL2 s c).flash = s.flash ∧ (State.writeBackL2 s c).coldOpt = s.coldOpt ∧ (State.writeBackL2 s c).mem = s.mem ∧ (State.writeBackL2 s c).mram = s.mram ∧ (State.writeBackL2 s c).imsic = s.imsic ∧ (State.writeBackL2 s c).eng = s.eng ∧ (State.writeBackL2 s c).dm = s.dm ∧ (State.writeBackL2 s c).fx = s.fx ∧ (State.writeBackL2 s c).ctu = s.ctu ∧ (State.writeBackL2 s c).links = s.links ∧ (State.writeBackL2 s c).aplicS = s.aplicS ∧ (State.writeBackL2 s c).aplicN = s.aplicN ∧ (State.writeBackL2 s c).credits = s.credits ∧ (State.writeBackL2 s c).homes = s.homes ∧ (State.writeBackL2 s c).pkts = s.pkts ∧ (State.writeBackL2 s c).resp = s.resp ∧ (State.writeBackL2 s c).regs = s.regs ∧ (State.writeBackL2 s c).wires = s.wires ∧ (State.writeBackL2 s c).dmg = s.dmg ∧ (State.writeBackL2 s c).wq = s.wq ∧ (State.writeBackL2 s c).dbInval = s.dbInval ∧ (State.writeBackL2 s c).watch = s.watch ∧ (State.writeBackL2 s c).pkg = s.pkg ∧ (State.writeBackL2 s c).pmc = s.pmc ∧ (State.writeBackL2 s c).fwLog = s.fwLog ∧ (State.writeBackL2 s c).out = s.out ∧ (State.writeBackL2 s c).free = s.free ∧ (State.writeBackL2 s c).fabric = s.fabric ∧ (State.writeBackL2 s c).files = s.files := by
  generalize h : State.writeBackL2 s c = u
  unfold State.writeBackL2 at h
  rw [← h]; simp [kept @State.evictLine_fr]

theorem State.writeSave_fr (s : State) : (State.writeSave s).pending = s.pending ∧ (State.writeSave s).flash = s.flash ∧ (State.writeSave s).coldOpt = s.coldOpt ∧ (State.writeSave s).mem = s.mem ∧ (State.writeSave s).harts = s.harts ∧ (State.writeSave s).mram = s.mram ∧ (State.writeSave s).imsic = s.imsic ∧ (State.writeSave s).eng = s.eng ∧ (State.writeSave s).dm = s.dm ∧ (State.writeSave s).fx = s.fx ∧ (State.writeSave s).ctu = s.ctu ∧ (State.writeSave s).links = s.links ∧ (State.writeSave s).aplicS = s.aplicS ∧ (State.writeSave s).aplicN = s.aplicN ∧ (State.writeSave s).credits = s.credits ∧ (State.writeSave s).clusters = s.clusters ∧ (State.writeSave s).homes = s.homes ∧ (State.writeSave s).pkts = s.pkts ∧ (State.writeSave s).resp = s.resp ∧ (State.writeSave s).wires = s.wires ∧ (State.writeSave s).dmg = s.dmg ∧ (State.writeSave s).wq = s.wq ∧ (State.writeSave s).net = s.net ∧ (State.writeSave s).dbInval = s.dbInval ∧ (State.writeSave s).watch = s.watch ∧ (State.writeSave s).pmc = s.pmc ∧ (State.writeSave s).fwLog = s.fwLog ∧ (State.writeSave s).out = s.out ∧ (State.writeSave s).free = s.free ∧ (State.writeSave s).fabric = s.fabric ∧ (State.writeSave s).files = s.files := by
  generalize h : State.writeSave s = u
  unfold State.writeSave at h
  rw [← h]; simp [kept @State.pk_fr, kept @State.wr_fr]

theorem State.updateSave_fr (s : State) (staged : Tab (Nat × Nat)) : (State.updateSave s staged).pending = s.pending ∧ (State.updateSave s staged).flash = s.flash ∧ (State.updateSave s staged).coldOpt = s.coldOpt ∧ (State.updateSave s staged).mem = s.mem ∧ (State.updateSave s staged).harts = s.harts ∧ (State.updateSave s staged).mram = s.mram ∧ (State.updateSave s staged).imsic = s.imsic ∧ (State.updateSave s staged).eng = s.eng ∧ (State.updateSave s staged).dm = s.dm ∧ (State.updateSave s staged).fx = s.fx ∧ (State.updateSave s staged).ctu = s.ctu ∧ (State.updateSave s staged).links = s.links ∧ (State.updateSave s staged).aplicS = s.aplicS ∧ (State.updateSave s staged).aplicN = s.aplicN ∧ (State.updateSave s staged).credits = s.credits ∧ (State.updateSave s staged).clusters = s.clusters ∧ (State.updateSave s staged).homes = s.homes ∧ (State.updateSave s staged).pkts = s.pkts ∧ (State.updateSave s staged).resp = s.resp ∧ (State.updateSave s staged).regs = s.regs ∧ (State.updateSave s staged).wires = s.wires ∧ (State.updateSave s staged).dmg = s.dmg ∧ (State.updateSave s staged).wq = s.wq ∧ (State.updateSave s staged).net = s.net ∧ (State.updateSave s staged).dbInval = s.dbInval ∧ (State.updateSave s staged).watch = s.watch ∧ (State.updateSave s staged).pmc = s.pmc ∧ (State.updateSave s staged).fwLog = s.fwLog ∧ (State.updateSave s staged).out = s.out ∧ (State.updateSave s staged).free = s.free ∧ (State.updateSave s staged).fabric = s.fabric ∧ (State.updateSave s staged).files = s.files := by
  generalize h : State.updateSave s staged = u
  unfold State.updateSave at h
  (try dsimp only at h); (repeat' split at h) <;> rw [← h] <;> simp [kept @State.pk_fr]

theorem State.restoreSave_fr (s : State) (only : Nat → Bool) : (State.restoreSave s only).pending = s.pending ∧ (State.restoreSave s only).flash = s.flash ∧ (State.restoreSave s only).coldOpt = s.coldOpt ∧ (State.restoreSave s only).mem = s.mem ∧ (State.restoreSave s only).harts = s.harts ∧ (State.restoreSave s only).mram = s.mram ∧ (State.restoreSave s only).imsic = s.imsic ∧ (State.restoreSave s only).eng = s.eng ∧ (State.restoreSave s only).dm = s.dm ∧ (State.restoreSave s only).fx = s.fx ∧ (State.restoreSave s only).ctu = s.ctu ∧ (State.restoreSave s only).links = s.links ∧ (State.restoreSave s only).aplicS = s.aplicS ∧ (State.restoreSave s only).aplicN = s.aplicN ∧ (State.restoreSave s only).credits = s.credits ∧ (State.restoreSave s only).clusters = s.clusters ∧ (State.restoreSave s only).homes = s.homes ∧ (State.restoreSave s only).pkts = s.pkts ∧ (State.restoreSave s only).resp = s.resp ∧ (State.restoreSave s only).wires = s.wires ∧ (State.restoreSave s only).dmg = s.dmg ∧ (State.restoreSave s only).wq = s.wq ∧ (State.restoreSave s only).net = s.net ∧ (State.restoreSave s only).dbInval = s.dbInval ∧ (State.restoreSave s only).watch = s.watch ∧ (State.restoreSave s only).pkg = s.pkg ∧ (State.restoreSave s only).pmc = s.pmc ∧ (State.restoreSave s only).fwLog = s.fwLog ∧ (State.restoreSave s only).out = s.out ∧ (State.restoreSave s only).free = s.free ∧ (State.restoreSave s only).fabric = s.fabric ∧ (State.restoreSave s only).files = s.files := by
  generalize h : State.restoreSave s only = u
  unfold State.restoreSave at h
  (try dsimp only at h); (repeat' split at h) <;> rw [← h] <;> simp [kept @State.resetRegs_fr, kept @State.wrW_fr]

theorem State.restoreAll_fr (s : State) : (State.restoreAll s).pending = s.pending ∧ (State.restoreAll s).flash = s.flash ∧ (State.restoreAll s).coldOpt = s.coldOpt ∧ (State.restoreAll s).mem = s.mem ∧ (State.restoreAll s).harts = s.harts ∧ (State.restoreAll s).mram = s.mram ∧ (State.restoreAll s).imsic = s.imsic ∧ (State.restoreAll s).eng = s.eng ∧ (State.restoreAll s).dm = s.dm ∧ (State.restoreAll s).fx = s.fx ∧ (State.restoreAll s).ctu = s.ctu ∧ (State.restoreAll s).links = s.links ∧ (State.restoreAll s).credits = s.credits ∧ (State.restoreAll s).clusters = s.clusters ∧ (State.restoreAll s).homes = s.homes ∧ (State.restoreAll s).pkts = s.pkts ∧ (State.restoreAll s).resp = s.resp ∧ (State.restoreAll s).wires = s.wires ∧ (State.restoreAll s).dmg = s.dmg ∧ (State.restoreAll s).wq = s.wq ∧ (State.restoreAll s).net = s.net ∧ (State.restoreAll s).dbInval = s.dbInval ∧ (State.restoreAll s).watch = s.watch ∧ (State.restoreAll s).pkg = s.pkg ∧ (State.restoreAll s).pmc = s.pmc ∧ (State.restoreAll s).fwLog = s.fwLog ∧ (State.restoreAll s).out = s.out ∧ (State.restoreAll s).free = s.free ∧ (State.restoreAll s).fabric = s.fabric ∧ (State.restoreAll s).files = s.files := by
  generalize h : State.restoreAll s = u
  unfold State.restoreAll at h
  (try dsimp only at h); (repeat' split at h) <;> rw [← h] <;> simp [kept @State.restoreSave_fr]

theorem State.nightDies_fr (s : State) : (State.nightDies s).pending = s.pending ∧ (State.nightDies s).flash = s.flash ∧ (State.nightDies s).coldOpt = s.coldOpt ∧ (State.nightDies s).mem = s.mem ∧ (State.nightDies s).mram = s.mram ∧ (State.nightDies s).eng = s.eng ∧ (State.nightDies s).dm = s.dm ∧ (State.nightDies s).fx = s.fx ∧ (State.nightDies s).ctu = s.ctu ∧ (State.nightDies s).links = s.links ∧ (State.nightDies s).aplicS = s.aplicS ∧ (State.nightDies s).aplicN = s.aplicN ∧ (State.nightDies s).credits = s.credits ∧ (State.nightDies s).pkts = s.pkts ∧ (State.nightDies s).resp = s.resp ∧ (State.nightDies s).wires = s.wires ∧ (State.nightDies s).dmg = s.dmg ∧ (State.nightDies s).dbInval = s.dbInval ∧ (State.nightDies s).watch = s.watch ∧ (State.nightDies s).pkg = s.pkg ∧ (State.nightDies s).pmc = s.pmc ∧ (State.nightDies s).out = s.out ∧ (State.nightDies s).fabric = s.fabric := by
  generalize h : State.nightDies s = u
  unfold State.nightDies at h
  rw [← h]; simp [kept @State.codeReset_fr, kept @State.fence_fr, kept @State.giveUpL2_fr, kept @State.loseCluster_fr, kept @State.loseHart_fr, kept @State.wr_fr]

theorem State.wakeDies_fr (s : State) (bit : Nat) : (State.wakeDies s bit).pending = s.pending ∧ (State.wakeDies s bit).flash = s.flash ∧ (State.wakeDies s bit).coldOpt = s.coldOpt ∧ (State.wakeDies s bit).mem = s.mem ∧ (State.wakeDies s bit).mram = s.mram ∧ (State.wakeDies s bit).eng = s.eng ∧ (State.wakeDies s bit).dm = s.dm ∧ (State.wakeDies s bit).fx = s.fx ∧ (State.wakeDies s bit).ctu = s.ctu ∧ (State.wakeDies s bit).links = s.links ∧ (State.wakeDies s bit).aplicS = s.aplicS ∧ (State.wakeDies s bit).aplicN = s.aplicN ∧ (State.wakeDies s bit).credits = s.credits ∧ (State.wakeDies s bit).pkts = s.pkts ∧ (State.wakeDies s bit).resp = s.resp ∧ (State.wakeDies s bit).wires = s.wires ∧ (State.wakeDies s bit).dmg = s.dmg ∧ (State.wakeDies s bit).dbInval = s.dbInval ∧ (State.wakeDies s bit).watch = s.watch ∧ (State.wakeDies s bit).pkg = s.pkg ∧ (State.wakeDies s bit).pmc = s.pmc ∧ (State.wakeDies s bit).out = s.out ∧ (State.wakeDies s bit).free = s.free ∧ (State.wakeDies s bit).fabric = s.fabric := by
  generalize h : State.wakeDies s bit = u
  unfold State.wakeDies at h
  rw [← h]; simp [kept @State.hartCause_fr, kept @State.startHart_fr, kept @State.wr_fr, kept @State.wrW_fr]

theorem State.linksL1_fr (s : State) (l1 : Bool) : (State.linksL1 s l1).pending = s.pending ∧ (State.linksL1 s l1).flash = s.flash ∧ (State.linksL1 s l1).coldOpt = s.coldOpt ∧ (State.linksL1 s l1).mem = s.mem ∧ (State.linksL1 s l1).harts = s.harts ∧ (State.linksL1 s l1).mram = s.mram ∧ (State.linksL1 s l1).imsic = s.imsic ∧ (State.linksL1 s l1).eng = s.eng ∧ (State.linksL1 s l1).dm = s.dm ∧ (State.linksL1 s l1).fx = s.fx ∧ (State.linksL1 s l1).ctu = s.ctu ∧ (State.linksL1 s l1).aplicS = s.aplicS ∧ (State.linksL1 s l1).aplicN = s.aplicN ∧ (State.linksL1 s l1).credits = s.credits ∧ (State.linksL1 s l1).clusters = s.clusters ∧ (State.linksL1 s l1).homes = s.homes ∧ (State.linksL1 s l1).pkts = s.pkts ∧ (State.linksL1 s l1).resp = s.resp ∧ (State.linksL1 s l1).regs = s.regs ∧ (State.linksL1 s l1).wires = s.wires ∧ (State.linksL1 s l1).dmg = s.dmg ∧ (State.linksL1 s l1).wq = s.wq ∧ (State.linksL1 s l1).net = s.net ∧ (State.linksL1 s l1).dbInval = s.dbInval ∧ (State.linksL1 s l1).watch = s.watch ∧ (State.linksL1 s l1).pkg = s.pkg ∧ (State.linksL1 s l1).pmc = s.pmc ∧ (State.linksL1 s l1).fwLog = s.fwLog ∧ (State.linksL1 s l1).out = s.out ∧ (State.linksL1 s l1).free = s.free ∧ (State.linksL1 s l1).fabric = s.fabric ∧ (State.linksL1 s l1).files = s.files := by
  generalize h : State.linksL1 s l1 = u
  unfold State.linksL1 at h
  rw [← h]; simp

theorem State.leaveSr_fr (s : State) : (State.leaveSr s).pending = s.pending ∧ (State.leaveSr s).flash = s.flash ∧ (State.leaveSr s).coldOpt = s.coldOpt ∧ (State.leaveSr s).mem = s.mem ∧ (State.leaveSr s).harts = s.harts ∧ (State.leaveSr s).mram = s.mram ∧ (State.leaveSr s).imsic = s.imsic ∧ (State.leaveSr s).eng = s.eng ∧ (State.leaveSr s).dm = s.dm ∧ (State.leaveSr s).fx = s.fx ∧ (State.leaveSr s).ctu = s.ctu ∧ (State.leaveSr s).links = s.links ∧ (State.leaveSr s).aplicS = s.aplicS ∧ (State.leaveSr s).aplicN = s.aplicN ∧ (State.leaveSr s).credits = s.credits ∧ (State.leaveSr s).clusters = s.clusters ∧ (State.leaveSr s).homes = s.homes ∧ (State.leaveSr s).pkts = s.pkts ∧ (State.leaveSr s).resp = s.resp ∧ (State.leaveSr s).wires = s.wires ∧ (State.leaveSr s).dmg = s.dmg ∧ (State.leaveSr s).wq = s.wq ∧ (State.leaveSr s).net = s.net ∧ (State.leaveSr s).dbInval = s.dbInval ∧ (State.leaveSr s).watch = s.watch ∧ (State.leaveSr s).pkg = s.pkg ∧ (State.leaveSr s).pmc = s.pmc ∧ (State.leaveSr s).fwLog = s.fwLog ∧ (State.leaveSr s).out = s.out ∧ (State.leaveSr s).free = s.free ∧ (State.leaveSr s).fabric = s.fabric ∧ (State.leaveSr s).files = s.files := by
  generalize h : State.leaveSr s = u
  unfold State.leaveSr at h
  rw [← h]; simp [kept @State.wr_fr]

theorem State.fireWake_fr (s : State) (bit : Nat) : (State.fireWake s bit).pending = s.pending ∧ (State.fireWake s bit).flash = s.flash ∧ (State.fireWake s bit).coldOpt = s.coldOpt ∧ (State.fireWake s bit).mem = s.mem ∧ (State.fireWake s bit).harts = s.harts ∧ (State.fireWake s bit).mram = s.mram ∧ (State.fireWake s bit).imsic = s.imsic ∧ (State.fireWake s bit).eng = s.eng ∧ (State.fireWake s bit).dm = s.dm ∧ (State.fireWake s bit).fx = s.fx ∧ (State.fireWake s bit).ctu = s.ctu ∧ (State.fireWake s bit).links = s.links ∧ (State.fireWake s bit).aplicS = s.aplicS ∧ (State.fireWake s bit).aplicN = s.aplicN ∧ (State.fireWake s bit).credits = s.credits ∧ (State.fireWake s bit).clusters = s.clusters ∧ (State.fireWake s bit).homes = s.homes ∧ (State.fireWake s bit).pkts = s.pkts ∧ (State.fireWake s bit).resp = s.resp ∧ (State.fireWake s bit).wires = s.wires ∧ (State.fireWake s bit).dmg = s.dmg ∧ (State.fireWake s bit).wq = s.wq ∧ (State.fireWake s bit).net = s.net ∧ (State.fireWake s bit).dbInval = s.dbInval ∧ (State.fireWake s bit).watch = s.watch ∧ (State.fireWake s bit).pmc = s.pmc ∧ (State.fireWake s bit).fwLog = s.fwLog ∧ (State.fireWake s bit).out = s.out ∧ (State.fireWake s bit).free = s.free ∧ (State.fireWake s bit).fabric = s.fabric ∧ (State.fireWake s bit).files = s.files := by
  generalize h : State.fireWake s bit = u
  unfold State.fireWake at h
  rw [← h]; simp [kept @State.pk_fr, kept @State.wr_fr]

end Sys2Proof.Machine
end

