-- ==== Sys2Proof/Laws/Frame/Orders.lean ====
section
/-! SUPPORT. What the operations of Machine/Orders.lean leave unchanged. -/

set_option Elab.async false
set_option linter.all false

namespace Sys2Proof.Machine
open Sys2Proof

theorem State.submitMode_fr (s : State) (o : ModeOrd) : (State.submitMode s o).pending = s.pending ∧ (State.submitMode s o).flash = s.flash ∧ (State.submitMode s o).coldOpt = s.coldOpt ∧ (State.submitMode s o).mem = s.mem ∧ (State.submitMode s o).harts = s.harts ∧ (State.submitMode s o).mram = s.mram ∧ (State.submitMode s o).imsic = s.imsic ∧ (State.submitMode s o).eng = s.eng ∧ (State.submitMode s o).dm = s.dm ∧ (State.submitMode s o).fx = s.fx ∧ (State.submitMode s o).ctu = s.ctu ∧ (State.submitMode s o).links = s.links ∧ (State.submitMode s o).aplicS = s.aplicS ∧ (State.submitMode s o).aplicN = s.aplicN ∧ (State.submitMode s o).credits = s.credits ∧ (State.submitMode s o).clusters = s.clusters ∧ (State.submitMode s o).homes = s.homes ∧ (State.submitMode s o).pkts = s.pkts ∧ (State.submitMode s o).resp = s.resp ∧ (State.submitMode s o).regs = s.regs ∧ (State.submitMode s o).wires = s.wires ∧ (State.submitMode s o).dmg = s.dmg ∧ (State.submitMode s o).wq = s.wq ∧ (State.submitMode s o).net = s.net ∧ (State.submitMode s o).dbInval = s.dbInval ∧ (State.submitMode s o).watch = s.watch ∧ (State.submitMode s o).pmc = s.pmc ∧ (State.submitMode s o).fwLog = s.fwLog ∧ (State.submitMode s o).out = s.out ∧ (State.submitMode s o).free = s.free ∧ (State.submitMode s o).fabric = s.fabric ∧ (State.submitMode s o).files = s.files := by
  generalize h : State.submitMode s o = u
  unfold State.submitMode at h
  rw [← h]; simp [kept @State.pk_fr]

theorem State.midnightEntry_fr (s : State) : (State.midnightEntry s).pending = s.pending ∧ (State.midnightEntry s).flash = s.flash ∧ (State.midnightEntry s).coldOpt = s.coldOpt ∧ (State.midnightEntry s).harts = s.harts ∧ (State.midnightEntry s).eng = s.eng ∧ (State.midnightEntry s).dm = s.dm ∧ (State.midnightEntry s).fx = s.fx ∧ (State.midnightEntry s).ctu = s.ctu ∧ (State.midnightEntry s).links = s.links ∧ (State.midnightEntry s).aplicS = s.aplicS ∧ (State.midnightEntry s).aplicN = s.aplicN ∧ (State.midnightEntry s).credits = s.credits ∧ (State.midnightEntry s).pkts = s.pkts ∧ (State.midnightEntry s).resp = s.resp ∧ (State.midnightEntry s).dbInval = s.dbInval ∧ (State.midnightEntry s).watch = s.watch ∧ (State.midnightEntry s).fwLog = s.fwLog ∧ (State.midnightEntry s).out = s.out ∧ (State.midnightEntry s).free = s.free ∧ (State.midnightEntry s).fabric = s.fabric := by
  generalize h : State.midnightEntry s = u
  unfold State.midnightEntry at h
  rw [← h]; simp [kept @State.beginMove_fr, kept @State.cleanLine_fr, kept @State.drainChannel_fr, kept @State.writeSave_fr]

theorem State.winMode_fr (s : State) (target : Nat) (srcs : List Nat) (src : Nat) : (State.winMode s target srcs src).pending = s.pending ∧ (State.winMode s target srcs src).flash = s.flash ∧ (State.winMode s target srcs src).coldOpt = s.coldOpt ∧ (State.winMode s target srcs src).resp = s.resp ∧ (State.winMode s target srcs src).free = s.free := by
  generalize h : State.winMode s target srcs src = u
  unfold State.winMode at h
  rw [← h]; simp [kept @State.beginMove_fr, kept @State.coldReset_fr, kept @State.endMode_fr, kept @State.midnightEntry_fr, kept @State.pk_fr, kept @State.setMram_fr, kept @State.warmReset_fr, kept @State.wr_fr]

theorem State.decideModes_fr (s : State) : (State.decideModes s).pending = s.pending ∧ (State.decideModes s).flash = s.flash ∧ (State.decideModes s).coldOpt = s.coldOpt ∧ (State.decideModes s).resp = s.resp ∧ (State.decideModes s).free = s.free := by
  generalize h : State.decideModes s = u
  unfold State.decideModes at h
  (try dsimp only at h); (repeat' split at h) <;> rw [← h] <;> simp [kept @State.defer_fr, kept @State.endMode_fr, kept @State.pk_fr, kept @State.winMode_fr]

theorem State.submitPower_fr (s : State) (o : PowerOrd) : (State.submitPower s o).pending = s.pending ∧ (State.submitPower s o).flash = s.flash ∧ (State.submitPower s o).coldOpt = s.coldOpt ∧ (State.submitPower s o).mem = s.mem ∧ (State.submitPower s o).harts = s.harts ∧ (State.submitPower s o).imsic = s.imsic ∧ (State.submitPower s o).eng = s.eng ∧ (State.submitPower s o).dm = s.dm ∧ (State.submitPower s o).ctu = s.ctu ∧ (State.submitPower s o).links = s.links ∧ (State.submitPower s o).aplicS = s.aplicS ∧ (State.submitPower s o).aplicN = s.aplicN ∧ (State.submitPower s o).credits = s.credits ∧ (State.submitPower s o).clusters = s.clusters ∧ (State.submitPower s o).homes = s.homes ∧ (State.submitPower s o).pkts = s.pkts ∧ (State.submitPower s o).resp = s.resp ∧ (State.submitPower s o).dmg = s.dmg ∧ (State.submitPower s o).wq = s.wq ∧ (State.submitPower s o).net = s.net ∧ (State.submitPower s o).dbInval = s.dbInval ∧ (State.submitPower s o).watch = s.watch ∧ (State.submitPower s o).fwLog = s.fwLog ∧ (State.submitPower s o).free = s.free ∧ (State.submitPower s o).fabric = s.fabric ∧ (State.submitPower s o).files = s.files := by
  generalize h : State.submitPower s o = u
  unfold State.submitPower at h
  (try dsimp only at h); (repeat' split at h) <;> rw [← h] <;> simp [kept @State.defer_fr, kept @State.endPower_fr, kept @State.pk_fr]

theorem State.aimCode_fr (s : State) (d : Nat) (code : Nat) : (State.aimCode s d code).pending = s.pending ∧ (State.aimCode s d code).flash = s.flash ∧ (State.aimCode s d code).coldOpt = s.coldOpt ∧ (State.aimCode s d code).mem = s.mem ∧ (State.aimCode s d code).harts = s.harts ∧ (State.aimCode s d code).mram = s.mram ∧ (State.aimCode s d code).imsic = s.imsic ∧ (State.aimCode s d code).eng = s.eng ∧ (State.aimCode s d code).dm = s.dm ∧ (State.aimCode s d code).fx = s.fx ∧ (State.aimCode s d code).ctu = s.ctu ∧ (State.aimCode s d code).links = s.links ∧ (State.aimCode s d code).aplicS = s.aplicS ∧ (State.aimCode s d code).aplicN = s.aplicN ∧ (State.aimCode s d code).credits = s.credits ∧ (State.aimCode s d code).clusters = s.clusters ∧ (State.aimCode s d code).homes = s.homes ∧ (State.aimCode s d code).pkts = s.pkts ∧ (State.aimCode s d code).resp = s.resp ∧ (State.aimCode s d code).wires = s.wires ∧ (State.aimCode s d code).dmg = s.dmg ∧ (State.aimCode s d code).wq = s.wq ∧ (State.aimCode s d code).net = s.net ∧ (State.aimCode s d code).dbInval = s.dbInval ∧ (State.aimCode s d code).watch = s.watch ∧ (State.aimCode s d code).pkg = s.pkg ∧ (State.aimCode s d code).pmc = s.pmc ∧ (State.aimCode s d code).fwLog = s.fwLog ∧ (State.aimCode s d code).out = s.out ∧ (State.aimCode s d code).free = s.free ∧ (State.aimCode s d code).fabric = s.fabric ∧ (State.aimCode s d code).files = s.files := by
  generalize h : State.aimCode s d code = u
  unfold State.aimCode at h
  rw [← h]; simp [kept @State.wrs_fr]

theorem State.retarget_fr (s : State) (d : Nat) : (State.retarget s d).pending = s.pending ∧ (State.retarget s d).flash = s.flash ∧ (State.retarget s d).coldOpt = s.coldOpt ∧ (State.retarget s d).mem = s.mem ∧ (State.retarget s d).harts = s.harts ∧ (State.retarget s d).mram = s.mram ∧ (State.retarget s d).imsic = s.imsic ∧ (State.retarget s d).eng = s.eng ∧ (State.retarget s d).dm = s.dm ∧ (State.retarget s d).fx = s.fx ∧ (State.retarget s d).ctu = s.ctu ∧ (State.retarget s d).links = s.links ∧ (State.retarget s d).aplicS = s.aplicS ∧ (State.retarget s d).aplicN = s.aplicN ∧ (State.retarget s d).credits = s.credits ∧ (State.retarget s d).clusters = s.clusters ∧ (State.retarget s d).homes = s.homes ∧ (State.retarget s d).pkts = s.pkts ∧ (State.retarget s d).resp = s.resp ∧ (State.retarget s d).wires = s.wires ∧ (State.retarget s d).dmg = s.dmg ∧ (State.retarget s d).wq = s.wq ∧ (State.retarget s d).net = s.net ∧ (State.retarget s d).dbInval = s.dbInval ∧ (State.retarget s d).watch = s.watch ∧ (State.retarget s d).pkg = s.pkg ∧ (State.retarget s d).pmc = s.pmc ∧ (State.retarget s d).fwLog = s.fwLog ∧ (State.retarget s d).out = s.out ∧ (State.retarget s d).free = s.free ∧ (State.retarget s d).fabric = s.fabric ∧ (State.retarget s d).files = s.files := by
  generalize h : State.retarget s d = u
  unfold State.retarget at h
  rw [← h]; simp [kept @State.aimCode_fr]

theorem State.fenceUnit_fr (s : State) (uu : Nat) : (State.fenceUnit s uu).pending = s.pending ∧ (State.fenceUnit s uu).flash = s.flash ∧ (State.fenceUnit s uu).coldOpt = s.coldOpt ∧ (State.fenceUnit s uu).mem = s.mem ∧ (State.fenceUnit s uu).harts = s.harts ∧ (State.fenceUnit s uu).mram = s.mram ∧ (State.fenceUnit s uu).imsic = s.imsic ∧ (State.fenceUnit s uu).eng = s.eng ∧ (State.fenceUnit s uu).dm = s.dm ∧ (State.fenceUnit s uu).fx = s.fx ∧ (State.fenceUnit s uu).ctu = s.ctu ∧ (State.fenceUnit s uu).links = s.links ∧ (State.fenceUnit s uu).aplicS = s.aplicS ∧ (State.fenceUnit s uu).aplicN = s.aplicN ∧ (State.fenceUnit s uu).credits = s.credits ∧ (State.fenceUnit s uu).clusters = s.clusters ∧ (State.fenceUnit s uu).homes = s.homes ∧ (State.fenceUnit s uu).pkts = s.pkts ∧ (State.fenceUnit s uu).resp = s.resp ∧ (State.fenceUnit s uu).wires = s.wires ∧ (State.fenceUnit s uu).dmg = s.dmg ∧ (State.fenceUnit s uu).wq = s.wq ∧ (State.fenceUnit s uu).net = s.net ∧ (State.fenceUnit s uu).dbInval = s.dbInval ∧ (State.fenceUnit s uu).watch = s.watch ∧ (State.fenceUnit s uu).pkg = s.pkg ∧ (State.fenceUnit s uu).pmc = s.pmc ∧ (State.fenceUnit s uu).fwLog = s.fwLog ∧ (State.fenceUnit s uu).out = s.out ∧ (State.fenceUnit s uu).free = s.free ∧ (State.fenceUnit s uu).fabric = s.fabric ∧ (State.fenceUnit s uu).files = s.files := by
  generalize h : State.fenceUnit s uu = u
  unfold State.fenceUnit at h
  rw [← h]; simp [kept @State.fence_fr]

theorem State.applyPower_fr (s : State) (o : PowerOrd) (srcs : List Nat) : (State.applyPower s o srcs).pending = s.pending ∧ (State.applyPower s o srcs).flash = s.flash ∧ (State.applyPower s o srcs).coldOpt = s.coldOpt ∧ (State.applyPower s o srcs).mem = s.mem ∧ (State.applyPower s o srcs).mram = s.mram ∧ (State.applyPower s o srcs).imsic = s.imsic ∧ (State.applyPower s o srcs).eng = s.eng ∧ (State.applyPower s o srcs).dm = s.dm ∧ (State.applyPower s o srcs).ctu = s.ctu ∧ (State.applyPower s o srcs).links = s.links ∧ (State.applyPower s o srcs).aplicS = s.aplicS ∧ (State.applyPower s o srcs).aplicN = s.aplicN ∧ (State.applyPower s o srcs).credits = s.credits ∧ (State.applyPower s o srcs).homes = s.homes ∧ (State.applyPower s o srcs).pkts = s.pkts ∧ (State.applyPower s o srcs).resp = s.resp ∧ (State.applyPower s o srcs).dmg = s.dmg ∧ (State.applyPower s o srcs).wq = s.wq ∧ (State.applyPower s o srcs).dbInval = s.dbInval ∧ (State.applyPower s o srcs).watch = s.watch ∧ (State.applyPower s o srcs).fwLog = s.fwLog ∧ (State.applyPower s o srcs).free = s.free ∧ (State.applyPower s o srcs).fabric = s.fabric ∧ (State.applyPower s o srcs).files = s.files := by
  generalize h : State.applyPower s o srcs = u
  unfold State.applyPower at h
  rw [← h]; simp [kept @State.endPower_fr, kept @State.fenceUnit_fr, kept @State.pk_fr, kept @State.retarget_fr, kept @State.wr_fr, kept @State.writeBackL2_fr, kept @State.wrs_fr]

@[simp] theorem State.decidePowers_pending (s : State) (f : Nat) (l : List PowerOrd) : (s.decidePowers f l).pending = s.pending := by
  induction f generalizing s l with
  | zero => rfl
  | succ f ih => cases l with
    | nil => rfl
    | cons o os => simp [State.decidePowers, ih, kept @State.applyPower_fr, kept @State.endPower_fr]

@[simp] theorem State.decidePowers_files (s : State) (f : Nat) (l : List PowerOrd) : (s.decidePowers f l).files = s.files := by
  induction f generalizing s l with
  | zero => rfl
  | succ f ih => cases l with
    | nil => rfl
    | cons o os => simp [State.decidePowers, ih, kept @State.applyPower_fr, kept @State.endPower_fr]

@[simp] theorem State.decidePowers_fabric (s : State) (f : Nat) (l : List PowerOrd) : (s.decidePowers f l).fabric = s.fabric := by
  induction f generalizing s l with
  | zero => rfl
  | succ f ih => cases l with
    | nil => rfl
    | cons o os => simp [State.decidePowers, ih, kept @State.applyPower_fr, kept @State.endPower_fr]

@[simp] theorem State.decidePowers_flash (s : State) (f : Nat) (l : List PowerOrd) : (s.decidePowers f l).flash = s.flash := by
  induction f generalizing s l with
  | zero => rfl
  | succ f ih => cases l with
    | nil => rfl
    | cons o os => simp [State.decidePowers, ih, kept @State.applyPower_fr, kept @State.endPower_fr]

@[simp] theorem State.decidePowers_coldOpt (s : State) (f : Nat) (l : List PowerOrd) : (s.decidePowers f l).coldOpt = s.coldOpt := by
  induction f generalizing s l with
  | zero => rfl
  | succ f ih => cases l with
    | nil => rfl
    | cons o os => simp [State.decidePowers, ih, kept @State.applyPower_fr, kept @State.endPower_fr]

@[simp] theorem State.decidePowers_mem (s : State) (f : Nat) (l : List PowerOrd) : (s.decidePowers f l).mem = s.mem := by
  induction f generalizing s l with
  | zero => rfl
  | succ f ih => cases l with
    | nil => rfl
    | cons o os => simp [State.decidePowers, ih, kept @State.applyPower_fr, kept @State.endPower_fr]

@[simp] theorem State.decidePowers_mram (s : State) (f : Nat) (l : List PowerOrd) : (s.decidePowers f l).mram = s.mram := by
  induction f generalizing s l with
  | zero => rfl
  | succ f ih => cases l with
    | nil => rfl
    | cons o os => simp [State.decidePowers, ih, kept @State.applyPower_fr, kept @State.endPower_fr]

@[simp] theorem State.decidePowers_imsic (s : State) (f : Nat) (l : List PowerOrd) : (s.decidePowers f l).imsic = s.imsic := by
  induction f generalizing s l with
  | zero => rfl
  | succ f ih => cases l with
    | nil => rfl
    | cons o os => simp [State.decidePowers, ih, kept @State.applyPower_fr, kept @State.endPower_fr]

@[simp] theorem State.decidePowers_eng (s : State) (f : Nat) (l : List PowerOrd) : (s.decidePowers f l).eng = s.eng := by
  induction f generalizing s l with
  | zero => rfl
  | succ f ih => cases l with
    | nil => rfl
    | cons o os => simp [State.decidePowers, ih, kept @State.applyPower_fr, kept @State.endPower_fr]

@[simp] theorem State.decidePowers_dm (s : State) (f : Nat) (l : List PowerOrd) : (s.decidePowers f l).dm = s.dm := by
  induction f generalizing s l with
  | zero => rfl
  | succ f ih => cases l with
    | nil => rfl
    | cons o os => simp [State.decidePowers, ih, kept @State.applyPower_fr, kept @State.endPower_fr]

@[simp] theorem State.decidePowers_ctu (s : State) (f : Nat) (l : List PowerOrd) : (s.decidePowers f l).ctu = s.ctu := by
  induction f generalizing s l with
  | zero => rfl
  | succ f ih => cases l with
    | nil => rfl
    | cons o os => simp [State.decidePowers, ih, kept @State.applyPower_fr, kept @State.endPower_fr]

@[simp] theorem State.decidePowers_links (s : State) (f : Nat) (l : List PowerOrd) : (s.decidePowers f l).links = s.links := by
  induction f generalizing s l with
  | zero => rfl
  | succ f ih => cases l with
    | nil => rfl
    | cons o os => simp [State.decidePowers, ih, kept @State.applyPower_fr, kept @State.endPower_fr]

@[simp] theorem State.decidePowers_aplicS (s : State) (f : Nat) (l : List PowerOrd) : (s.decidePowers f l).aplicS = s.aplicS := by
  induction f generalizing s l with
  | zero => rfl
  | succ f ih => cases l with
    | nil => rfl
    | cons o os => simp [State.decidePowers, ih, kept @State.applyPower_fr, kept @State.endPower_fr]

@[simp] theorem State.decidePowers_aplicN (s : State) (f : Nat) (l : List PowerOrd) : (s.decidePowers f l).aplicN = s.aplicN := by
  induction f generalizing s l with
  | zero => rfl
  | succ f ih => cases l with
    | nil => rfl
    | cons o os => simp [State.decidePowers, ih, kept @State.applyPower_fr, kept @State.endPower_fr]

@[simp] theorem State.decidePowers_credits (s : State) (f : Nat) (l : List PowerOrd) : (s.decidePowers f l).credits = s.credits := by
  induction f generalizing s l with
  | zero => rfl
  | succ f ih => cases l with
    | nil => rfl
    | cons o os => simp [State.decidePowers, ih, kept @State.applyPower_fr, kept @State.endPower_fr]

@[simp] theorem State.decidePowers_homes (s : State) (f : Nat) (l : List PowerOrd) : (s.decidePowers f l).homes = s.homes := by
  induction f generalizing s l with
  | zero => rfl
  | succ f ih => cases l with
    | nil => rfl
    | cons o os => simp [State.decidePowers, ih, kept @State.applyPower_fr, kept @State.endPower_fr]

@[simp] theorem State.decidePowers_pkts (s : State) (f : Nat) (l : List PowerOrd) : (s.decidePowers f l).pkts = s.pkts := by
  induction f generalizing s l with
  | zero => rfl
  | succ f ih => cases l with
    | nil => rfl
    | cons o os => simp [State.decidePowers, ih, kept @State.applyPower_fr, kept @State.endPower_fr]

@[simp] theorem State.decidePowers_resp (s : State) (f : Nat) (l : List PowerOrd) : (s.decidePowers f l).resp = s.resp := by
  induction f generalizing s l with
  | zero => rfl
  | succ f ih => cases l with
    | nil => rfl
    | cons o os => simp [State.decidePowers, ih, kept @State.applyPower_fr, kept @State.endPower_fr]

@[simp] theorem State.decidePowers_dmg (s : State) (f : Nat) (l : List PowerOrd) : (s.decidePowers f l).dmg = s.dmg := by
  induction f generalizing s l with
  | zero => rfl
  | succ f ih => cases l with
    | nil => rfl
    | cons o os => simp [State.decidePowers, ih, kept @State.applyPower_fr, kept @State.endPower_fr]

@[simp] theorem State.decidePowers_wq (s : State) (f : Nat) (l : List PowerOrd) : (s.decidePowers f l).wq = s.wq := by
  induction f generalizing s l with
  | zero => rfl
  | succ f ih => cases l with
    | nil => rfl
    | cons o os => simp [State.decidePowers, ih, kept @State.applyPower_fr, kept @State.endPower_fr]

@[simp] theorem State.decidePowers_dbInval (s : State) (f : Nat) (l : List PowerOrd) : (s.decidePowers f l).dbInval = s.dbInval := by
  induction f generalizing s l with
  | zero => rfl
  | succ f ih => cases l with
    | nil => rfl
    | cons o os => simp [State.decidePowers, ih, kept @State.applyPower_fr, kept @State.endPower_fr]

@[simp] theorem State.decidePowers_watch (s : State) (f : Nat) (l : List PowerOrd) : (s.decidePowers f l).watch = s.watch := by
  induction f generalizing s l with
  | zero => rfl
  | succ f ih => cases l with
    | nil => rfl
    | cons o os => simp [State.decidePowers, ih, kept @State.applyPower_fr, kept @State.endPower_fr]

@[simp] theorem State.decidePowers_fwLog (s : State) (f : Nat) (l : List PowerOrd) : (s.decidePowers f l).fwLog = s.fwLog := by
  induction f generalizing s l with
  | zero => rfl
  | succ f ih => cases l with
    | nil => rfl
    | cons o os => simp [State.decidePowers, ih, kept @State.applyPower_fr, kept @State.endPower_fr]

@[simp] theorem State.decidePowers_free (s : State) (f : Nat) (l : List PowerOrd) : (s.decidePowers f l).free = s.free := by
  induction f generalizing s l with
  | zero => rfl
  | succ f ih => cases l with
    | nil => rfl
    | cons o os => simp [State.decidePowers, ih, kept @State.applyPower_fr, kept @State.endPower_fr]

theorem State.arbitrate_fr (s : State) : (State.arbitrate s).pending = s.pending ∧ (State.arbitrate s).flash = s.flash ∧ (State.arbitrate s).coldOpt = s.coldOpt ∧ (State.arbitrate s).resp = s.resp ∧ (State.arbitrate s).free = s.free := by
  generalize h : State.arbitrate s = u
  unfold State.arbitrate at h
  rw [← h]; simp [kept @State.decideModes_fr, kept @State.pk_fr]

theorem State.endReset_fr (s : State) (m : Nat) (st : Nat) : (State.endReset s m st).pending = s.pending ∧ (State.endReset s m st).flash = s.flash ∧ (State.endReset s m st).coldOpt = s.coldOpt ∧ (State.endReset s m st).mem = s.mem ∧ (State.endReset s m st).harts = s.harts ∧ (State.endReset s m st).mram = s.mram ∧ (State.endReset s m st).imsic = s.imsic ∧ (State.endReset s m st).eng = s.eng ∧ (State.endReset s m st).dm = s.dm ∧ (State.endReset s m st).fx = s.fx ∧ (State.endReset s m st).ctu = s.ctu ∧ (State.endReset s m st).links = s.links ∧ (State.endReset s m st).aplicS = s.aplicS ∧ (State.endReset s m st).aplicN = s.aplicN ∧ (State.endReset s m st).credits = s.credits ∧ (State.endReset s m st).clusters = s.clusters ∧ (State.endReset s m st).homes = s.homes ∧ (State.endReset s m st).pkts = s.pkts ∧ (State.endReset s m st).resp = s.resp ∧ (State.endReset s m st).wires = s.wires ∧ (State.endReset s m st).dmg = s.dmg ∧ (State.endReset s m st).wq = s.wq ∧ (State.endReset s m st).net = s.net ∧ (State.endReset s m st).dbInval = s.dbInval ∧ (State.endReset s m st).watch = s.watch ∧ (State.endReset s m st).pkg = s.pkg ∧ (State.endReset s m st).pmc = s.pmc ∧ (State.endReset s m st).fwLog = s.fwLog ∧ (State.endReset s m st).out = s.out ∧ (State.endReset s m st).free = s.free ∧ (State.endReset s m st).fabric = s.fabric ∧ (State.endReset s m st).files = s.files := by
  generalize h : State.endReset s m st = u
  unfold State.endReset at h
  rw [← h]; simp [kept @State.wrs_fr]

theorem State.submitReset_fr (s : State) (m : Nat) (who : Ident) (kind : Nat) (idx : Nat) : (State.submitReset s m who kind idx).pending = s.pending ∧ (State.submitReset s m who kind idx).flash = s.flash ∧ (State.submitReset s m who kind idx).coldOpt = s.coldOpt ∧ (State.submitReset s m who kind idx).resp = s.resp ∧ (State.submitReset s m who kind idx).free = s.free := by
  generalize h : State.submitReset s m who kind idx = u
  unfold State.submitReset at h
  (try dsimp only at h); (repeat' split at h) <;> rw [← h] <;> simp [kept @State.coreReset_fr, kept @State.defer_fr, kept @State.endReset_fr, kept @State.fence_fr, kept @State.loseDie_fr, kept @State.loseSlice_fr, kept @State.pk_fr, kept @State.setHart_fr, kept @State.writeBackL2_fr]

end Sys2Proof.Machine
end

