-- ==== Sys2Proof/Laws/Frame/Firmware.lean ====
section
/-! SUPPORT. What the operations of Machine/Firmware.lean leave unchanged. -/

set_option Elab.async false
set_option linter.all false

namespace Sys2Proof.Machine
open Sys2Proof

theorem State.loadOptions_fr (s : State) : (State.loadOptions s).pending = s.pending ∧ (State.loadOptions s).flash = s.flash ∧ (State.loadOptions s).mem = s.mem ∧ (State.loadOptions s).harts = s.harts ∧ (State.loadOptions s).mram = s.mram ∧ (State.loadOptions s).imsic = s.imsic ∧ (State.loadOptions s).eng = s.eng ∧ (State.loadOptions s).dm = s.dm ∧ (State.loadOptions s).fx = s.fx ∧ (State.loadOptions s).ctu = s.ctu ∧ (State.loadOptions s).links = s.links ∧ (State.loadOptions s).aplicS = s.aplicS ∧ (State.loadOptions s).aplicN = s.aplicN ∧ (State.loadOptions s).credits = s.credits ∧ (State.loadOptions s).clusters = s.clusters ∧ (State.loadOptions s).homes = s.homes ∧ (State.loadOptions s).pkts = s.pkts ∧ (State.loadOptions s).resp = s.resp ∧ (State.loadOptions s).wires = s.wires ∧ (State.loadOptions s).dmg = s.dmg ∧ (State.loadOptions s).wq = s.wq ∧ (State.loadOptions s).net = s.net ∧ (State.loadOptions s).dbInval = s.dbInval ∧ (State.loadOptions s).watch = s.watch ∧ (State.loadOptions s).pmc = s.pmc ∧ (State.loadOptions s).fwLog = s.fwLog ∧ (State.loadOptions s).out = s.out ∧ (State.loadOptions s).free = s.free ∧ (State.loadOptions s).fabric = s.fabric ∧ (State.loadOptions s).files = s.files := by
  generalize h : State.loadOptions s = u
  unfold State.loadOptions at h
  rw [← h]; simp [kept @State.pk_fr, kept @State.setDieState_fr, kept @State.wr_fr, kept @State.wrW_fr, kept @State.wrs_fr]

theorem State.setCount_fr (s : State) (n : Nat) : (State.setCount s n).pending = s.pending ∧ (State.setCount s n).flash = s.flash ∧ (State.setCount s n).coldOpt = s.coldOpt ∧ (State.setCount s n).mem = s.mem ∧ (State.setCount s n).harts = s.harts ∧ (State.setCount s n).imsic = s.imsic ∧ (State.setCount s n).eng = s.eng ∧ (State.setCount s n).dm = s.dm ∧ (State.setCount s n).fx = s.fx ∧ (State.setCount s n).ctu = s.ctu ∧ (State.setCount s n).links = s.links ∧ (State.setCount s n).aplicS = s.aplicS ∧ (State.setCount s n).aplicN = s.aplicN ∧ (State.setCount s n).credits = s.credits ∧ (State.setCount s n).clusters = s.clusters ∧ (State.setCount s n).homes = s.homes ∧ (State.setCount s n).pkts = s.pkts ∧ (State.setCount s n).resp = s.resp ∧ (State.setCount s n).wires = s.wires ∧ (State.setCount s n).dmg = s.dmg ∧ (State.setCount s n).wq = s.wq ∧ (State.setCount s n).net = s.net ∧ (State.setCount s n).dbInval = s.dbInval ∧ (State.setCount s n).watch = s.watch ∧ (State.setCount s n).pkg = s.pkg ∧ (State.setCount s n).pmc = s.pmc ∧ (State.setCount s n).fwLog = s.fwLog ∧ (State.setCount s n).out = s.out ∧ (State.setCount s n).free = s.free ∧ (State.setCount s n).fabric = s.fabric ∧ (State.setCount s n).files = s.files := by
  generalize h : State.setCount s n = u
  unfold State.setCount at h
  rw [← h]; simp [kept @State.setMram_fr, kept @State.wr_fr]

theorem State.pmcBegin_fr (s : State) : (State.pmcBegin s).pending = s.pending ∧ (State.pmcBegin s).flash = s.flash ∧ (State.pmcBegin s).coldOpt = s.coldOpt ∧ (State.pmcBegin s).mem = s.mem ∧ (State.pmcBegin s).harts = s.harts ∧ (State.pmcBegin s).imsic = s.imsic ∧ (State.pmcBegin s).eng = s.eng ∧ (State.pmcBegin s).dm = s.dm ∧ (State.pmcBegin s).fx = s.fx ∧ (State.pmcBegin s).ctu = s.ctu ∧ (State.pmcBegin s).links = s.links ∧ (State.pmcBegin s).aplicS = s.aplicS ∧ (State.pmcBegin s).aplicN = s.aplicN ∧ (State.pmcBegin s).credits = s.credits ∧ (State.pmcBegin s).clusters = s.clusters ∧ (State.pmcBegin s).homes = s.homes ∧ (State.pmcBegin s).pkts = s.pkts ∧ (State.pmcBegin s).resp = s.resp ∧ (State.pmcBegin s).regs = s.regs ∧ (State.pmcBegin s).wires = s.wires ∧ (State.pmcBegin s).dmg = s.dmg ∧ (State.pmcBegin s).wq = s.wq ∧ (State.pmcBegin s).net = s.net ∧ (State.pmcBegin s).dbInval = s.dbInval ∧ (State.pmcBegin s).watch = s.watch ∧ (State.pmcBegin s).fwLog = s.fwLog ∧ (State.pmcBegin s).out = s.out ∧ (State.pmcBegin s).free = s.free ∧ (State.pmcBegin s).fabric = s.fabric ∧ (State.pmcBegin s).files = s.files := by
  generalize h : State.pmcBegin s = u
  unfold State.pmcBegin at h
  rw [← h]; simp [kept @State.logNow_fr, kept @State.pk_fr]

theorem State.logFw7_fr (s : State) (kind : Nat) (slot : Nat) (status : Nat) (step : Nat) : (State.logFw7 s kind slot status step).pending = s.pending ∧ (State.logFw7 s kind slot status step).flash = s.flash ∧ (State.logFw7 s kind slot status step).coldOpt = s.coldOpt ∧ (State.logFw7 s kind slot status step).mem = s.mem ∧ (State.logFw7 s kind slot status step).harts = s.harts ∧ (State.logFw7 s kind slot status step).imsic = s.imsic ∧ (State.logFw7 s kind slot status step).eng = s.eng ∧ (State.logFw7 s kind slot status step).dm = s.dm ∧ (State.logFw7 s kind slot status step).fx = s.fx ∧ (State.logFw7 s kind slot status step).ctu = s.ctu ∧ (State.logFw7 s kind slot status step).links = s.links ∧ (State.logFw7 s kind slot status step).aplicS = s.aplicS ∧ (State.logFw7 s kind slot status step).aplicN = s.aplicN ∧ (State.logFw7 s kind slot status step).credits = s.credits ∧ (State.logFw7 s kind slot status step).clusters = s.clusters ∧ (State.logFw7 s kind slot status step).homes = s.homes ∧ (State.logFw7 s kind slot status step).pkts = s.pkts ∧ (State.logFw7 s kind slot status step).resp = s.resp ∧ (State.logFw7 s kind slot status step).regs = s.regs ∧ (State.logFw7 s kind slot status step).wires = s.wires ∧ (State.logFw7 s kind slot status step).dmg = s.dmg ∧ (State.logFw7 s kind slot status step).wq = s.wq ∧ (State.logFw7 s kind slot status step).net = s.net ∧ (State.logFw7 s kind slot status step).dbInval = s.dbInval ∧ (State.logFw7 s kind slot status step).watch = s.watch ∧ (State.logFw7 s kind slot status step).pkg = s.pkg ∧ (State.logFw7 s kind slot status step).fwLog = s.fwLog ∧ (State.logFw7 s kind slot status step).out = s.out ∧ (State.logFw7 s kind slot status step).free = s.free ∧ (State.logFw7 s kind slot status step).fabric = s.fabric ∧ (State.logFw7 s kind slot status step).files = s.files := by
  generalize h : State.logFw7 s kind slot status step = u
  unfold State.logFw7 at h
  rw [← h]; simp [kept @State.logNow_fr]

theorem State.putInForce_fr (s : State) (kind : Nat) (slot : Nat) : (State.putInForce s kind slot).pending = s.pending ∧ (State.putInForce s kind slot).flash = s.flash ∧ (State.putInForce s kind slot).coldOpt = s.coldOpt ∧ (State.putInForce s kind slot).mem = s.mem ∧ (State.putInForce s kind slot).harts = s.harts ∧ (State.putInForce s kind slot).mram = s.mram ∧ (State.putInForce s kind slot).imsic = s.imsic ∧ (State.putInForce s kind slot).eng = s.eng ∧ (State.putInForce s kind slot).dm = s.dm ∧ (State.putInForce s kind slot).fx = s.fx ∧ (State.putInForce s kind slot).ctu = s.ctu ∧ (State.putInForce s kind slot).links = s.links ∧ (State.putInForce s kind slot).aplicS = s.aplicS ∧ (State.putInForce s kind slot).aplicN = s.aplicN ∧ (State.putInForce s kind slot).credits = s.credits ∧ (State.putInForce s kind slot).clusters = s.clusters ∧ (State.putInForce s kind slot).homes = s.homes ∧ (State.putInForce s kind slot).pkts = s.pkts ∧ (State.putInForce s kind slot).resp = s.resp ∧ (State.putInForce s kind slot).regs = s.regs ∧ (State.putInForce s kind slot).wires = s.wires ∧ (State.putInForce s kind slot).dmg = s.dmg ∧ (State.putInForce s kind slot).wq = s.wq ∧ (State.putInForce s kind slot).net = s.net ∧ (State.putInForce s kind slot).dbInval = s.dbInval ∧ (State.putInForce s kind slot).watch = s.watch ∧ (State.putInForce s kind slot).pkg = s.pkg ∧ (State.putInForce s kind slot).fwLog = s.fwLog ∧ (State.putInForce s kind slot).out = s.out ∧ (State.putInForce s kind slot).free = s.free ∧ (State.putInForce s kind slot).fabric = s.fabric ∧ (State.putInForce s kind slot).files = s.files := by
  generalize h : State.putInForce s kind slot = u
  unfold State.putInForce at h
  rw [← h]; simp

theorem State.romFallback_fr (s : State) : (State.romFallback s).pending = s.pending ∧ (State.romFallback s).flash = s.flash ∧ (State.romFallback s).coldOpt = s.coldOpt ∧ (State.romFallback s).mem = s.mem ∧ (State.romFallback s).harts = s.harts ∧ (State.romFallback s).imsic = s.imsic ∧ (State.romFallback s).eng = s.eng ∧ (State.romFallback s).dm = s.dm ∧ (State.romFallback s).fx = s.fx ∧ (State.romFallback s).ctu = s.ctu ∧ (State.romFallback s).links = s.links ∧ (State.romFallback s).aplicS = s.aplicS ∧ (State.romFallback s).aplicN = s.aplicN ∧ (State.romFallback s).credits = s.credits ∧ (State.romFallback s).clusters = s.clusters ∧ (State.romFallback s).homes = s.homes ∧ (State.romFallback s).pkts = s.pkts ∧ (State.romFallback s).resp = s.resp ∧ (State.romFallback s).regs = s.regs ∧ (State.romFallback s).wires = s.wires ∧ (State.romFallback s).dmg = s.dmg ∧ (State.romFallback s).wq = s.wq ∧ (State.romFallback s).net = s.net ∧ (State.romFallback s).dbInval = s.dbInval ∧ (State.romFallback s).watch = s.watch ∧ (State.romFallback s).pkg = s.pkg ∧ (State.romFallback s).fwLog = s.fwLog ∧ (State.romFallback s).out = s.out ∧ (State.romFallback s).free = s.free ∧ (State.romFallback s).fabric = s.fabric ∧ (State.romFallback s).files = s.files := by
  generalize h : State.romFallback s = u
  unfold State.romFallback at h
  rw [← h]; simp [kept @State.logNow_fr]

theorem State.loadPmcImage_fr (s : State) : (State.loadPmcImage s).pending = s.pending ∧ (State.loadPmcImage s).flash = s.flash ∧ (State.loadPmcImage s).coldOpt = s.coldOpt ∧ (State.loadPmcImage s).mem = s.mem ∧ (State.loadPmcImage s).harts = s.harts ∧ (State.loadPmcImage s).imsic = s.imsic ∧ (State.loadPmcImage s).eng = s.eng ∧ (State.loadPmcImage s).dm = s.dm ∧ (State.loadPmcImage s).fx = s.fx ∧ (State.loadPmcImage s).ctu = s.ctu ∧ (State.loadPmcImage s).links = s.links ∧ (State.loadPmcImage s).aplicS = s.aplicS ∧ (State.loadPmcImage s).aplicN = s.aplicN ∧ (State.loadPmcImage s).credits = s.credits ∧ (State.loadPmcImage s).clusters = s.clusters ∧ (State.loadPmcImage s).homes = s.homes ∧ (State.loadPmcImage s).pkts = s.pkts ∧ (State.loadPmcImage s).resp = s.resp ∧ (State.loadPmcImage s).regs = s.regs ∧ (State.loadPmcImage s).wires = s.wires ∧ (State.loadPmcImage s).dmg = s.dmg ∧ (State.loadPmcImage s).wq = s.wq ∧ (State.loadPmcImage s).net = s.net ∧ (State.loadPmcImage s).dbInval = s.dbInval ∧ (State.loadPmcImage s).watch = s.watch ∧ (State.loadPmcImage s).pkg = s.pkg ∧ (State.loadPmcImage s).fwLog = s.fwLog ∧ (State.loadPmcImage s).out = s.out ∧ (State.loadPmcImage s).free = s.free ∧ (State.loadPmcImage s).fabric = s.fabric ∧ (State.loadPmcImage s).files = s.files := by
  generalize h : State.loadPmcImage s = u
  unfold State.loadPmcImage at h
  rw [← h]; simp [kept @State.putInForce_fr, kept @State.romFallback_fr]

theorem State.pmcStart_fr (s : State) : (State.pmcStart s).pending = s.pending ∧ (State.pmcStart s).flash = s.flash ∧ (State.pmcStart s).coldOpt = s.coldOpt ∧ (State.pmcStart s).mem = s.mem ∧ (State.pmcStart s).harts = s.harts ∧ (State.pmcStart s).imsic = s.imsic ∧ (State.pmcStart s).eng = s.eng ∧ (State.pmcStart s).dm = s.dm ∧ (State.pmcStart s).fx = s.fx ∧ (State.pmcStart s).ctu = s.ctu ∧ (State.pmcStart s).links = s.links ∧ (State.pmcStart s).aplicS = s.aplicS ∧ (State.pmcStart s).aplicN = s.aplicN ∧ (State.pmcStart s).credits = s.credits ∧ (State.pmcStart s).clusters = s.clusters ∧ (State.pmcStart s).homes = s.homes ∧ (State.pmcStart s).pkts = s.pkts ∧ (State.pmcStart s).resp = s.resp ∧ (State.pmcStart s).regs = s.regs ∧ (State.pmcStart s).wires = s.wires ∧ (State.pmcStart s).dmg = s.dmg ∧ (State.pmcStart s).wq = s.wq ∧ (State.pmcStart s).net = s.net ∧ (State.pmcStart s).dbInval = s.dbInval ∧ (State.pmcStart s).watch = s.watch ∧ (State.pmcStart s).fwLog = s.fwLog ∧ (State.pmcStart s).out = s.out ∧ (State.pmcStart s).free = s.free ∧ (State.pmcStart s).fabric = s.fabric ∧ (State.pmcStart s).files = s.files := by
  generalize h : State.pmcStart s = u
  unfold State.pmcStart at h
  rw [← h]; simp [kept @State.loadPmcImage_fr, kept @State.pmcBegin_fr]

theorem State.regionRegs_fr (s : State) (r : Nat) (base : Nat) (limit : Nat) : (State.regionRegs s r base limit).pending = s.pending ∧ (State.regionRegs s r base limit).flash = s.flash ∧ (State.regionRegs s r base limit).coldOpt = s.coldOpt ∧ (State.regionRegs s r base limit).mem = s.mem ∧ (State.regionRegs s r base limit).harts = s.harts ∧ (State.regionRegs s r base limit).mram = s.mram ∧ (State.regionRegs s r base limit).imsic = s.imsic ∧ (State.regionRegs s r base limit).eng = s.eng ∧ (State.regionRegs s r base limit).dm = s.dm ∧ (State.regionRegs s r base limit).fx = s.fx ∧ (State.regionRegs s r base limit).ctu = s.ctu ∧ (State.regionRegs s r base limit).links = s.links ∧ (State.regionRegs s r base limit).aplicS = s.aplicS ∧ (State.regionRegs s r base limit).aplicN = s.aplicN ∧ (State.regionRegs s r base limit).credits = s.credits ∧ (State.regionRegs s r base limit).clusters = s.clusters ∧ (State.regionRegs s r base limit).homes = s.homes ∧ (State.regionRegs s r base limit).pkts = s.pkts ∧ (State.regionRegs s r base limit).resp = s.resp ∧ (State.regionRegs s r base limit).wires = s.wires ∧ (State.regionRegs s r base limit).dmg = s.dmg ∧ (State.regionRegs s r base limit).wq = s.wq ∧ (State.regionRegs s r base limit).net = s.net ∧ (State.regionRegs s r base limit).dbInval = s.dbInval ∧ (State.regionRegs s r base limit).watch = s.watch ∧ (State.regionRegs s r base limit).pkg = s.pkg ∧ (State.regionRegs s r base limit).pmc = s.pmc ∧ (State.regionRegs s r base limit).fwLog = s.fwLog ∧ (State.regionRegs s r base limit).out = s.out ∧ (State.regionRegs s r base limit).free = s.free ∧ (State.regionRegs s r base limit).fabric = s.fabric ∧ (State.regionRegs s r base limit).files = s.files := by
  generalize h : State.regionRegs s r base limit = u
  unfold State.regionRegs at h
  (try dsimp only at h); (repeat' split at h) <;> rw [← h] <;> simp [kept @State.wr_fr, kept @State.wrs_fr]

theorem State.bootRegion_fr (s : State) (r : Nat) (base : Nat) (limit : Nat) : (State.bootRegion s r base limit).pending = s.pending ∧ (State.bootRegion s r base limit).flash = s.flash ∧ (State.bootRegion s r base limit).coldOpt = s.coldOpt ∧ (State.bootRegion s r base limit).mram = s.mram ∧ (State.bootRegion s r base limit).imsic = s.imsic ∧ (State.bootRegion s r base limit).eng = s.eng ∧ (State.bootRegion s r base limit).dm = s.dm ∧ (State.bootRegion s r base limit).fx = s.fx ∧ (State.bootRegion s r base limit).ctu = s.ctu ∧ (State.bootRegion s r base limit).links = s.links ∧ (State.bootRegion s r base limit).aplicS = s.aplicS ∧ (State.bootRegion s r base limit).aplicN = s.aplicN ∧ (State.bootRegion s r base limit).credits = s.credits ∧ (State.bootRegion s r base limit).pkts = s.pkts ∧ (State.bootRegion s r base limit).resp = s.resp ∧ (State.bootRegion s r base limit).wires = s.wires ∧ (State.bootRegion s r base limit).pkg = s.pkg ∧ (State.bootRegion s r base limit).pmc = s.pmc ∧ (State.bootRegion s r base limit).fwLog = s.fwLog ∧ (State.bootRegion s r base limit).out = s.out ∧ (State.bootRegion s r base limit).free = s.free ∧ (State.bootRegion s r base limit).fabric = s.fabric ∧ (State.bootRegion s r base limit).files = s.files := by
  generalize h : State.bootRegion s r base limit = u
  unfold State.bootRegion at h
  (try dsimp only at h); (repeat' split at h) <;> rw [← h] <;> simp [kept @State.regionRegs_fr, kept @State.setFilling_fr, kept @State.zeroFill_fr]

theorem State.applyLimits_fr (s : State) : (State.applyLimits s).pending = s.pending ∧ (State.applyLimits s).flash = s.flash ∧ (State.applyLimits s).coldOpt = s.coldOpt ∧ (State.applyLimits s).mem = s.mem ∧ (State.applyLimits s).harts = s.harts ∧ (State.applyLimits s).mram = s.mram ∧ (State.applyLimits s).imsic = s.imsic ∧ (State.applyLimits s).eng = s.eng ∧ (State.applyLimits s).dm = s.dm ∧ (State.applyLimits s).fx = s.fx ∧ (State.applyLimits s).ctu = s.ctu ∧ (State.applyLimits s).links = s.links ∧ (State.applyLimits s).aplicS = s.aplicS ∧ (State.applyLimits s).aplicN = s.aplicN ∧ (State.applyLimits s).credits = s.credits ∧ (State.applyLimits s).clusters = s.clusters ∧ (State.applyLimits s).homes = s.homes ∧ (State.applyLimits s).pkts = s.pkts ∧ (State.applyLimits s).resp = s.resp ∧ (State.applyLimits s).wires = s.wires ∧ (State.applyLimits s).dmg = s.dmg ∧ (State.applyLimits s).wq = s.wq ∧ (State.applyLimits s).net = s.net ∧ (State.applyLimits s).dbInval = s.dbInval ∧ (State.applyLimits s).watch = s.watch ∧ (State.applyLimits s).pkg = s.pkg ∧ (State.applyLimits s).pmc = s.pmc ∧ (State.applyLimits s).fwLog = s.fwLog ∧ (State.applyLimits s).out = s.out ∧ (State.applyLimits s).free = s.free ∧ (State.applyLimits s).fabric = s.fabric ∧ (State.applyLimits s).files = s.files := by
  generalize h : State.applyLimits s = u
  unfold State.applyLimits at h
  (try dsimp only at h); (repeat' split at h) <;> rw [← h] <;> simp [kept @State.wr_fr, kept @State.wrs_fr]

theorem State.applyOptions_fr (s : State) : (State.applyOptions s).pending = s.pending ∧ (State.applyOptions s).flash = s.flash ∧ (State.applyOptions s).coldOpt = s.coldOpt ∧ (State.applyOptions s).mram = s.mram ∧ (State.applyOptions s).imsic = s.imsic ∧ (State.applyOptions s).eng = s.eng ∧ (State.applyOptions s).dm = s.dm ∧ (State.applyOptions s).fx = s.fx ∧ (State.applyOptions s).ctu = s.ctu ∧ (State.applyOptions s).links = s.links ∧ (State.applyOptions s).aplicS = s.aplicS ∧ (State.applyOptions s).aplicN = s.aplicN ∧ (State.applyOptions s).credits = s.credits ∧ (State.applyOptions s).pkts = s.pkts ∧ (State.applyOptions s).resp = s.resp ∧ (State.applyOptions s).wires = s.wires ∧ (State.applyOptions s).pmc = s.pmc ∧ (State.applyOptions s).fwLog = s.fwLog ∧ (State.applyOptions s).out = s.out ∧ (State.applyOptions s).free = s.free ∧ (State.applyOptions s).fabric = s.fabric ∧ (State.applyOptions s).files = s.files := by
  generalize h : State.applyOptions s = u
  unfold State.applyOptions at h
  rw [← h]; simp [kept @State.applyLimits_fr, kept @State.bootRegion_fr, kept @State.pk_fr, kept @State.wr_fr]

end Sys2Proof.Machine
end

