-- ==== Sys2Proof/Laws/Frame/BootCmds.lean ====
section
/-! SUPPORT. What the operations of Machine/BootCmds.lean leave unchanged. -/

set_option Elab.async false
set_option linter.all false

namespace Sys2Proof.Machine
open Sys2Proof

theorem State.showStraps_fr (s : State) (d : Nat) : (State.showStraps s d).pending = s.pending ∧ (State.showStraps s d).flash = s.flash ∧ (State.showStraps s d).coldOpt = s.coldOpt ∧ (State.showStraps s d).mem = s.mem ∧ (State.showStraps s d).harts = s.harts ∧ (State.showStraps s d).mram = s.mram ∧ (State.showStraps s d).imsic = s.imsic ∧ (State.showStraps s d).eng = s.eng ∧ (State.showStraps s d).dm = s.dm ∧ (State.showStraps s d).fx = s.fx ∧ (State.showStraps s d).ctu = s.ctu ∧ (State.showStraps s d).links = s.links ∧ (State.showStraps s d).aplicS = s.aplicS ∧ (State.showStraps s d).aplicN = s.aplicN ∧ (State.showStraps s d).credits = s.credits ∧ (State.showStraps s d).clusters = s.clusters ∧ (State.showStraps s d).homes = s.homes ∧ (State.showStraps s d).pkts = s.pkts ∧ (State.showStraps s d).resp = s.resp ∧ (State.showStraps s d).wires = s.wires ∧ (State.showStraps s d).dmg = s.dmg ∧ (State.showStraps s d).wq = s.wq ∧ (State.showStraps s d).net = s.net ∧ (State.showStraps s d).dbInval = s.dbInval ∧ (State.showStraps s d).watch = s.watch ∧ (State.showStraps s d).pkg = s.pkg ∧ (State.showStraps s d).pmc = s.pmc ∧ (State.showStraps s d).fwLog = s.fwLog ∧ (State.showStraps s d).out = s.out ∧ (State.showStraps s d).free = s.free ∧ (State.showStraps s d).fabric = s.fabric ∧ (State.showStraps s d).files = s.files := by
  generalize h : State.showStraps s d = u
  unfold State.showStraps at h
  (try dsimp only at h); (repeat' split at h) <;> rw [← h] <;> simp [kept @State.wrs_fr]

theorem execSuppliesGood_fr (board : Board) (force : Bool) (test : Bool) (s : State) {u : State} (h : execSuppliesGood board force test s = .next u) : u.pending = s.pending ∧ u.flash = s.flash ∧ u.coldOpt = s.coldOpt ∧ u.mem = s.mem ∧ u.harts = s.harts ∧ u.imsic = s.imsic ∧ u.eng = s.eng ∧ u.dm = s.dm ∧ u.fx = s.fx ∧ u.ctu = s.ctu ∧ u.links = s.links ∧ u.aplicS = s.aplicS ∧ u.aplicN = s.aplicN ∧ u.credits = s.credits ∧ u.clusters = s.clusters ∧ u.homes = s.homes ∧ u.pkts = s.pkts ∧ u.resp = s.resp ∧ u.wires = s.wires ∧ u.dmg = s.dmg ∧ u.wq = s.wq ∧ u.net = s.net ∧ u.dbInval = s.dbInval ∧ u.watch = s.watch ∧ u.fwLog = s.fwLog ∧ u.out = s.out ∧ u.free = s.free ∧ u.fabric = s.fabric ∧ u.files = s.files := by
  unfold execSuppliesGood at h
  (try dsimp only at h); (repeat' split at h) <;> (first | (simp only [Host.Outcome.next.injEq] at h; rw [← h]) | (simp only [reduceCtorEq] at h; done) | (simp only [Option.some.injEq] at h; rw [← h])) <;> simp [kept @State.arriveMode_fr, kept @State.pk_fr, kept @State.showStraps_fr, kept @State.wrs_fr]

theorem State.assertRst_fr (s : State) (w : RstWait) (pulse : Bool) : (State.assertRst s w pulse).pending = s.pending ∧ (State.assertRst s w pulse).flash = s.flash ∧ (State.assertRst s w pulse).coldOpt = s.coldOpt ∧ (State.assertRst s w pulse).resp = s.resp ∧ (State.assertRst s w pulse).out = s.out ∧ (State.assertRst s w pulse).free = s.free := by
  generalize h : State.assertRst s w pulse = u
  unfold State.assertRst at h
  (try dsimp only at h); (repeat' split at h) <;> rw [← h] <;> simp [kept @State.coldReset_fr, kept @State.pk_fr, kept @State.powerOnReset_fr, kept @State.warmReset_fr, kept @State.wr_fr]

theorem execPowerOnReset_fr (pulse : Bool) (s : State) {u : State} (h : execPowerOnReset pulse s = .next u) : u.pending = s.pending ∧ u.flash = s.flash ∧ u.coldOpt = s.coldOpt ∧ u.resp = s.resp ∧ u.out = s.out ∧ u.free = s.free := by
  unfold execPowerOnReset at h
  (try dsimp only at h); (repeat' split at h) <;> (first | (simp only [Host.Outcome.next.injEq] at h; rw [← h]) | (simp only [reduceCtorEq] at h; done) | (simp only [Option.some.injEq] at h; rw [← h])) <;> simp [kept @State.assertRst_fr, kept @State.pk_fr]

theorem execColdReset_fr (force : Bool) (pulse : Bool) (s : State) {u : State} (h : execColdReset force pulse s = .next u) : u.pending = s.pending ∧ u.flash = s.flash ∧ u.coldOpt = s.coldOpt ∧ u.resp = s.resp ∧ u.out = s.out ∧ u.free = s.free := by
  unfold execColdReset at h
  (try dsimp only at h); (repeat' split at h) <;> (first | (simp only [Host.Outcome.next.injEq] at h; rw [← h]) | (simp only [reduceCtorEq] at h; done) | (simp only [Option.some.injEq] at h; rw [← h])) <;> simp [kept @State.assertRst_fr, kept @State.pk_fr, kept @State.wr_fr]

theorem State.warmSource_fr (s : State) (f : Fld) (pulse : Bool) : (State.warmSource s f pulse).pending = s.pending ∧ (State.warmSource s f pulse).flash = s.flash ∧ (State.warmSource s f pulse).coldOpt = s.coldOpt ∧ (State.warmSource s f pulse).resp = s.resp ∧ (State.warmSource s f pulse).out = s.out ∧ (State.warmSource s f pulse).free = s.free := by
  generalize h : State.warmSource s f pulse = u
  unfold State.warmSource at h
  rw [← h]; simp [kept @State.assertRst_fr, kept @State.pk_fr, kept @State.wr_fr]

theorem execWarmReset_fr (pulse : Bool) (s : State) {u : State} (h : execWarmReset pulse s = .next u) : u.pending = s.pending ∧ u.flash = s.flash ∧ u.coldOpt = s.coldOpt ∧ u.resp = s.resp ∧ u.out = s.out ∧ u.free = s.free := by
  unfold execWarmReset at h
  (try dsimp only at h); (repeat' split at h) <;> (first | (simp only [Host.Outcome.next.injEq] at h; rw [← h]) | (simp only [reduceCtorEq] at h; done) | (simp only [Option.some.injEq] at h; rw [← h])) <;> simp [kept @State.pk_fr, kept @State.warmSource_fr]

theorem execMramPulseEnd_fr (s : State) {u : State} (h : execMramPulseEnd s = .next u) : u.pending = s.pending ∧ u.flash = s.flash ∧ u.coldOpt = s.coldOpt ∧ u.resp = s.resp ∧ u.out = s.out ∧ u.free = s.free := by
  unfold execMramPulseEnd at h
  (try dsimp only at h); (repeat' split at h) <;> (first | (simp only [Host.Outcome.next.injEq] at h; rw [← h]) | (simp only [reduceCtorEq] at h; done) | (simp only [Option.some.injEq] at h; rw [← h])) <;> simp [kept @State.assertRst_fr, kept @State.pk_fr]

theorem execStandbyRailLoss_fr (pulse : Bool) (s : State) {u : State} (h : execStandbyRailLoss pulse s = .next u) : u.pending = s.pending ∧ u.flash = s.flash ∧ u.coldOpt = s.coldOpt ∧ u.resp = s.resp ∧ u.out = s.out ∧ u.free = s.free := by
  unfold execStandbyRailLoss at h
  (first | (simp only [Host.Outcome.next.injEq] at h; rw [← h]) | (simp only [reduceCtorEq] at h; done) | (simp only [Option.some.injEq] at h; rw [← h])); simp [kept @State.assertRst_fr, kept @State.pk_fr]

theorem execStandbyRailsGood_fr (s : State) {u : State} (h : execStandbyRailsGood s = .next u) : u.pending = s.pending ∧ u.flash = s.flash ∧ u.coldOpt = s.coldOpt ∧ u.mem = s.mem ∧ u.harts = s.harts ∧ u.mram = s.mram ∧ u.imsic = s.imsic ∧ u.eng = s.eng ∧ u.dm = s.dm ∧ u.fx = s.fx ∧ u.ctu = s.ctu ∧ u.links = s.links ∧ u.aplicS = s.aplicS ∧ u.aplicN = s.aplicN ∧ u.credits = s.credits ∧ u.clusters = s.clusters ∧ u.homes = s.homes ∧ u.pkts = s.pkts ∧ u.resp = s.resp ∧ u.regs = s.regs ∧ u.wires = s.wires ∧ u.dmg = s.dmg ∧ u.wq = s.wq ∧ u.net = s.net ∧ u.dbInval = s.dbInval ∧ u.watch = s.watch ∧ u.pmc = s.pmc ∧ u.fwLog = s.fwLog ∧ u.out = s.out ∧ u.free = s.free ∧ u.fabric = s.fabric ∧ u.files = s.files := by
  unfold execStandbyRailsGood at h
  (first | (simp only [Host.Outcome.next.injEq] at h; rw [← h]) | (simp only [reduceCtorEq] at h; done) | (simp only [Option.some.injEq] at h; rw [← h])); simp [kept @State.pk_fr]

theorem State.noteWait_fr (s : State) (m : Nat) : (State.noteWait s m).pending = s.pending ∧ (State.noteWait s m).flash = s.flash ∧ (State.noteWait s m).coldOpt = s.coldOpt ∧ (State.noteWait s m).mem = s.mem ∧ (State.noteWait s m).harts = s.harts ∧ (State.noteWait s m).mram = s.mram ∧ (State.noteWait s m).imsic = s.imsic ∧ (State.noteWait s m).eng = s.eng ∧ (State.noteWait s m).dm = s.dm ∧ (State.noteWait s m).fx = s.fx ∧ (State.noteWait s m).ctu = s.ctu ∧ (State.noteWait s m).links = s.links ∧ (State.noteWait s m).aplicS = s.aplicS ∧ (State.noteWait s m).aplicN = s.aplicN ∧ (State.noteWait s m).credits = s.credits ∧ (State.noteWait s m).clusters = s.clusters ∧ (State.noteWait s m).homes = s.homes ∧ (State.noteWait s m).pkts = s.pkts ∧ (State.noteWait s m).resp = s.resp ∧ (State.noteWait s m).wires = s.wires ∧ (State.noteWait s m).dmg = s.dmg ∧ (State.noteWait s m).wq = s.wq ∧ (State.noteWait s m).net = s.net ∧ (State.noteWait s m).dbInval = s.dbInval ∧ (State.noteWait s m).watch = s.watch ∧ (State.noteWait s m).pkg = s.pkg ∧ (State.noteWait s m).pmc = s.pmc ∧ (State.noteWait s m).fwLog = s.fwLog ∧ (State.noteWait s m).out = s.out ∧ (State.noteWait s m).fabric = s.fabric ∧ (State.noteWait s m).files = s.files := by
  generalize h : State.noteWait s m = u
  unfold State.noteWait at h
  rw [← h]; simp [kept @State.draw_fr, kept @State.wr_fr, kept @State.wrs_fr]

theorem execSelfRefreshEntryDone_fr (m : Fin 16) (s : State) {u : State} (h : execSelfRefreshEntryDone m s = .next u) : u.pending = s.pending ∧ u.flash = s.flash ∧ u.coldOpt = s.coldOpt ∧ u.harts = s.harts ∧ u.imsic = s.imsic ∧ u.eng = s.eng ∧ u.dm = s.dm ∧ u.fx = s.fx ∧ u.ctu = s.ctu ∧ u.links = s.links ∧ u.aplicS = s.aplicS ∧ u.aplicN = s.aplicN ∧ u.credits = s.credits ∧ u.clusters = s.clusters ∧ u.homes = s.homes ∧ u.pkts = s.pkts ∧ u.resp = s.resp ∧ u.net = s.net ∧ u.dbInval = s.dbInval ∧ u.watch = s.watch ∧ u.fwLog = s.fwLog ∧ u.out = s.out ∧ u.fabric = s.fabric ∧ u.files = s.files := by
  unfold execSelfRefreshEntryDone at h
  (try dsimp only at h); (repeat' split at h) <;> (first | (simp only [Host.Outcome.next.injEq] at h; rw [← h]) | (simp only [reduceCtorEq] at h; done) | (simp only [Option.some.injEq] at h; rw [← h])) <;> simp [kept @State.noteWait_fr, kept @State.pk_fr, kept @State.selfRefresh_fr]

theorem execSelfRefreshWaitTimeout_fr (m : Fin 16) (s : State) {u : State} (h : execSelfRefreshWaitTimeout m s = .next u) : u.pending = s.pending ∧ u.flash = s.flash ∧ u.coldOpt = s.coldOpt ∧ u.mem = s.mem ∧ u.harts = s.harts ∧ u.mram = s.mram ∧ u.imsic = s.imsic ∧ u.eng = s.eng ∧ u.dm = s.dm ∧ u.fx = s.fx ∧ u.ctu = s.ctu ∧ u.links = s.links ∧ u.aplicS = s.aplicS ∧ u.aplicN = s.aplicN ∧ u.credits = s.credits ∧ u.clusters = s.clusters ∧ u.homes = s.homes ∧ u.pkts = s.pkts ∧ u.resp = s.resp ∧ u.wires = s.wires ∧ u.dmg = s.dmg ∧ u.net = s.net ∧ u.dbInval = s.dbInval ∧ u.watch = s.watch ∧ u.pmc = s.pmc ∧ u.fwLog = s.fwLog ∧ u.out = s.out ∧ u.fabric = s.fabric ∧ u.files = s.files := by
  unfold execSelfRefreshWaitTimeout at h
  (try dsimp only at h); (repeat' split at h) <;> (first | (simp only [Host.Outcome.next.injEq] at h; rw [← h]) | (simp only [reduceCtorEq] at h; done) | (simp only [Option.some.injEq] at h; rw [← h])) <;> simp [kept @State.noteWait_fr, kept @State.pk_fr]

theorem execOptionLoadDone_fr (s : State) {u : State} (h : execOptionLoadDone s = .next u) : u.pending = s.pending ∧ u.flash = s.flash ∧ u.mem = s.mem ∧ u.harts = s.harts ∧ u.imsic = s.imsic ∧ u.eng = s.eng ∧ u.dm = s.dm ∧ u.fx = s.fx ∧ u.ctu = s.ctu ∧ u.links = s.links ∧ u.aplicS = s.aplicS ∧ u.aplicN = s.aplicN ∧ u.credits = s.credits ∧ u.clusters = s.clusters ∧ u.homes = s.homes ∧ u.pkts = s.pkts ∧ u.resp = s.resp ∧ u.wires = s.wires ∧ u.dmg = s.dmg ∧ u.wq = s.wq ∧ u.net = s.net ∧ u.dbInval = s.dbInval ∧ u.watch = s.watch ∧ u.fwLog = s.fwLog ∧ u.out = s.out ∧ u.free = s.free ∧ u.fabric = s.fabric ∧ u.files = s.files := by
  unfold execOptionLoadDone at h
  (try dsimp only at h); (repeat' split at h) <;> (first | (simp only [Host.Outcome.next.injEq] at h; rw [← h]) | (simp only [reduceCtorEq] at h; done) | (simp only [Option.some.injEq] at h; rw [← h])) <;> simp [kept @State.enterSiding_fr, kept @State.loadOptions_fr, kept @State.pk_fr, kept @State.pmcStart_fr, kept @State.setCount_fr]

theorem execPllLock_fr (s : State) {u : State} (h : execPllLock s = .next u) : u.pending = s.pending ∧ u.flash = s.flash ∧ u.coldOpt = s.coldOpt ∧ u.mem = s.mem ∧ u.harts = s.harts ∧ u.mram = s.mram ∧ u.imsic = s.imsic ∧ u.eng = s.eng ∧ u.dm = s.dm ∧ u.fx = s.fx ∧ u.ctu = s.ctu ∧ u.links = s.links ∧ u.aplicS = s.aplicS ∧ u.aplicN = s.aplicN ∧ u.credits = s.credits ∧ u.clusters = s.clusters ∧ u.homes = s.homes ∧ u.pkts = s.pkts ∧ u.resp = s.resp ∧ u.wires = s.wires ∧ u.dmg = s.dmg ∧ u.wq = s.wq ∧ u.net = s.net ∧ u.dbInval = s.dbInval ∧ u.watch = s.watch ∧ u.pkg = s.pkg ∧ u.pmc = s.pmc ∧ u.fwLog = s.fwLog ∧ u.out = s.out ∧ u.free = s.free ∧ u.fabric = s.fabric ∧ u.files = s.files := by
  unfold execPllLock at h
  (try dsimp only at h); (repeat' split at h) <;> (first | (simp only [Host.Outcome.next.injEq] at h; rw [← h]) | (simp only [reduceCtorEq] at h; done) | (simp only [Option.some.injEq] at h; rw [← h])) <;> simp [kept @State.wr_fr]

theorem State.beginMorning_fr (s : State) : (State.beginMorning s).pending = s.pending ∧ (State.beginMorning s).flash = s.flash ∧ (State.beginMorning s).coldOpt = s.coldOpt ∧ (State.beginMorning s).mem = s.mem ∧ (State.beginMorning s).harts = s.harts ∧ (State.beginMorning s).imsic = s.imsic ∧ (State.beginMorning s).eng = s.eng ∧ (State.beginMorning s).dm = s.dm ∧ (State.beginMorning s).fx = s.fx ∧ (State.beginMorning s).ctu = s.ctu ∧ (State.beginMorning s).links = s.links ∧ (State.beginMorning s).aplicS = s.aplicS ∧ (State.beginMorning s).aplicN = s.aplicN ∧ (State.beginMorning s).credits = s.credits ∧ (State.beginMorning s).clusters = s.clusters ∧ (State.beginMorning s).homes = s.homes ∧ (State.beginMorning s).pkts = s.pkts ∧ (State.beginMorning s).resp = s.resp ∧ (State.beginMorning s).wires = s.wires ∧ (State.beginMorning s).dmg = s.dmg ∧ (State.beginMorning s).wq = s.wq ∧ (State.beginMorning s).net = s.net ∧ (State.beginMorning s).dbInval = s.dbInval ∧ (State.beginMorning s).watch = s.watch ∧ (State.beginMorning s).fwLog = s.fwLog ∧ (State.beginMorning s).out = s.out ∧ (State.beginMorning s).free = s.free ∧ (State.beginMorning s).fabric = s.fabric ∧ (State.beginMorning s).files = s.files := by
  generalize h : State.beginMorning s = u
  unfold State.beginMorning at h
  rw [← h]; simp [kept @State.arriveMode_fr, kept @State.pk_fr, kept @State.wr_fr]

theorem State.setGood_fr (s : State) (c : Clock) (b : Bool) : (State.setGood s c b).pending = s.pending ∧ (State.setGood s c b).flash = s.flash ∧ (State.setGood s c b).coldOpt = s.coldOpt ∧ (State.setGood s c b).mem = s.mem ∧ (State.setGood s c b).harts = s.harts ∧ (State.setGood s c b).mram = s.mram ∧ (State.setGood s c b).imsic = s.imsic ∧ (State.setGood s c b).eng = s.eng ∧ (State.setGood s c b).dm = s.dm ∧ (State.setGood s c b).fx = s.fx ∧ (State.setGood s c b).ctu = s.ctu ∧ (State.setGood s c b).links = s.links ∧ (State.setGood s c b).aplicS = s.aplicS ∧ (State.setGood s c b).aplicN = s.aplicN ∧ (State.setGood s c b).credits = s.credits ∧ (State.setGood s c b).clusters = s.clusters ∧ (State.setGood s c b).homes = s.homes ∧ (State.setGood s c b).pkts = s.pkts ∧ (State.setGood s c b).resp = s.resp ∧ (State.setGood s c b).wires = s.wires ∧ (State.setGood s c b).dmg = s.dmg ∧ (State.setGood s c b).wq = s.wq ∧ (State.setGood s c b).net = s.net ∧ (State.setGood s c b).dbInval = s.dbInval ∧ (State.setGood s c b).watch = s.watch ∧ (State.setGood s c b).pkg = s.pkg ∧ (State.setGood s c b).pmc = s.pmc ∧ (State.setGood s c b).fwLog = s.fwLog ∧ (State.setGood s c b).out = s.out ∧ (State.setGood s c b).free = s.free ∧ (State.setGood s c b).fabric = s.fabric ∧ (State.setGood s c b).files = s.files := by
  generalize h : State.setGood s c b = u
  unfold State.setGood at h
  (try dsimp only at h); (repeat' split at h) <;> rw [← h] <;> simp [kept @State.wr_fr]

theorem State.linkDown_fr (s : State) (j : Nat) : (State.linkDown s j).pending = s.pending ∧ (State.linkDown s j).flash = s.flash ∧ (State.linkDown s j).coldOpt = s.coldOpt ∧ (State.linkDown s j).mem = s.mem ∧ (State.linkDown s j).harts = s.harts ∧ (State.linkDown s j).mram = s.mram ∧ (State.linkDown s j).imsic = s.imsic ∧ (State.linkDown s j).eng = s.eng ∧ (State.linkDown s j).dm = s.dm ∧ (State.linkDown s j).fx = s.fx ∧ (State.linkDown s j).ctu = s.ctu ∧ (State.linkDown s j).aplicS = s.aplicS ∧ (State.linkDown s j).aplicN = s.aplicN ∧ (State.linkDown s j).credits = s.credits ∧ (State.linkDown s j).clusters = s.clusters ∧ (State.linkDown s j).homes = s.homes ∧ (State.linkDown s j).pkts = s.pkts ∧ (State.linkDown s j).resp = s.resp ∧ (State.linkDown s j).regs = s.regs ∧ (State.linkDown s j).dmg = s.dmg ∧ (State.linkDown s j).net = s.net ∧ (State.linkDown s j).dbInval = s.dbInval ∧ (State.linkDown s j).watch = s.watch ∧ (State.linkDown s j).pmc = s.pmc ∧ (State.linkDown s j).fwLog = s.fwLog ∧ (State.linkDown s j).out = s.out ∧ (State.linkDown s j).free = s.free ∧ (State.linkDown s j).fabric = s.fabric ∧ (State.linkDown s j).files = s.files := by
  generalize h : State.linkDown s j = u
  unfold State.linkDown at h
  rw [← h]; simp [kept @State.pk_fr, kept @State.raise_fr, kept @State.setLink_fr]

theorem State.recordLoss_fr (s : State) (c : Clock) : (State.recordLoss s c).pending = s.pending ∧ (State.recordLoss s c).flash = s.flash ∧ (State.recordLoss s c).coldOpt = s.coldOpt ∧ (State.recordLoss s c).mem = s.mem ∧ (State.recordLoss s c).harts = s.harts ∧ (State.recordLoss s c).imsic = s.imsic ∧ (State.recordLoss s c).eng = s.eng ∧ (State.recordLoss s c).dm = s.dm ∧ (State.recordLoss s c).fx = s.fx ∧ (State.recordLoss s c).ctu = s.ctu ∧ (State.recordLoss s c).links = s.links ∧ (State.recordLoss s c).aplicS = s.aplicS ∧ (State.recordLoss s c).aplicN = s.aplicN ∧ (State.recordLoss s c).credits = s.credits ∧ (State.recordLoss s c).clusters = s.clusters ∧ (State.recordLoss s c).homes = s.homes ∧ (State.recordLoss s c).pkts = s.pkts ∧ (State.recordLoss s c).resp = s.resp ∧ (State.recordLoss s c).wires = s.wires ∧ (State.recordLoss s c).dmg = s.dmg ∧ (State.recordLoss s c).wq = s.wq ∧ (State.recordLoss s c).net = s.net ∧ (State.recordLoss s c).dbInval = s.dbInval ∧ (State.recordLoss s c).watch = s.watch ∧ (State.recordLoss s c).pkg = s.pkg ∧ (State.recordLoss s c).fwLog = s.fwLog ∧ (State.recordLoss s c).out = s.out ∧ (State.recordLoss s c).free = s.free ∧ (State.recordLoss s c).fabric = s.fabric ∧ (State.recordLoss s c).files = s.files := by
  generalize h : State.recordLoss s c = u
  unfold State.recordLoss at h
  rw [← h]; simp [kept @State.logNow_fr, kept @State.wr_fr, kept @State.wrs_fr]

theorem State.serdesLoss_fr (s : State) (g : Nat) : (State.serdesLoss s g).pending = s.pending ∧ (State.serdesLoss s g).flash = s.flash ∧ (State.serdesLoss s g).coldOpt = s.coldOpt ∧ (State.serdesLoss s g).mem = s.mem ∧ (State.serdesLoss s g).harts = s.harts ∧ (State.serdesLoss s g).mram = s.mram ∧ (State.serdesLoss s g).imsic = s.imsic ∧ (State.serdesLoss s g).eng = s.eng ∧ (State.serdesLoss s g).dm = s.dm ∧ (State.serdesLoss s g).fx = s.fx ∧ (State.serdesLoss s g).ctu = s.ctu ∧ (State.serdesLoss s g).aplicS = s.aplicS ∧ (State.serdesLoss s g).aplicN = s.aplicN ∧ (State.serdesLoss s g).credits = s.credits ∧ (State.serdesLoss s g).clusters = s.clusters ∧ (State.serdesLoss s g).homes = s.homes ∧ (State.serdesLoss s g).pkts = s.pkts ∧ (State.serdesLoss s g).resp = s.resp ∧ (State.serdesLoss s g).dmg = s.dmg ∧ (State.serdesLoss s g).net = s.net ∧ (State.serdesLoss s g).dbInval = s.dbInval ∧ (State.serdesLoss s g).watch = s.watch ∧ (State.serdesLoss s g).pmc = s.pmc ∧ (State.serdesLoss s g).fwLog = s.fwLog ∧ (State.serdesLoss s g).out = s.out ∧ (State.serdesLoss s g).free = s.free ∧ (State.serdesLoss s g).fabric = s.fabric ∧ (State.serdesLoss s g).files = s.files := by
  generalize h : State.serdesLoss s g = u
  unfold State.serdesLoss at h
  rw [← h]; simp [kept @State.finxisDown_fr, kept @State.linkDown_fr]

theorem State.clkLossCause_fr (s : State) : (State.clkLossCause s).pending = s.pending ∧ (State.clkLossCause s).flash = s.flash ∧ (State.clkLossCause s).coldOpt = s.coldOpt ∧ (State.clkLossCause s).mem = s.mem ∧ (State.clkLossCause s).harts = s.harts ∧ (State.clkLossCause s).mram = s.mram ∧ (State.clkLossCause s).imsic = s.imsic ∧ (State.clkLossCause s).eng = s.eng ∧ (State.clkLossCause s).dm = s.dm ∧ (State.clkLossCause s).fx = s.fx ∧ (State.clkLossCause s).ctu = s.ctu ∧ (State.clkLossCause s).links = s.links ∧ (State.clkLossCause s).aplicS = s.aplicS ∧ (State.clkLossCause s).aplicN = s.aplicN ∧ (State.clkLossCause s).credits = s.credits ∧ (State.clkLossCause s).clusters = s.clusters ∧ (State.clkLossCause s).homes = s.homes ∧ (State.clkLossCause s).pkts = s.pkts ∧ (State.clkLossCause s).resp = s.resp ∧ (State.clkLossCause s).wires = s.wires ∧ (State.clkLossCause s).dmg = s.dmg ∧ (State.clkLossCause s).wq = s.wq ∧ (State.clkLossCause s).net = s.net ∧ (State.clkLossCause s).dbInval = s.dbInval ∧ (State.clkLossCause s).watch = s.watch ∧ (State.clkLossCause s).pkg = s.pkg ∧ (State.clkLossCause s).pmc = s.pmc ∧ (State.clkLossCause s).fwLog = s.fwLog ∧ (State.clkLossCause s).out = s.out ∧ (State.clkLossCause s).free = s.free ∧ (State.clkLossCause s).fabric = s.fabric ∧ (State.clkLossCause s).files = s.files := by
  generalize h : State.clkLossCause s = u
  unfold State.clkLossCause at h
  rw [← h]; simp [kept @State.recordReach_fr, kept @State.wr_fr]

theorem State.fabricClockLoss_fr (s : State) (l : List Domain) : (State.fabricClockLoss s l).pending = s.pending ∧ (State.fabricClockLoss s l).flash = s.flash ∧ (State.fabricClockLoss s l).coldOpt = s.coldOpt ∧ (State.fabricClockLoss s l).resp = s.resp ∧ (State.fabricClockLoss s l).free = s.free := by
  generalize h : State.fabricClockLoss s l = u
  unfold State.fabricClockLoss at h
  (try dsimp only at h); (repeat' split at h) <;> rw [← h] <;> simp [kept @State.clkLossCause_fr, kept @State.enterBufferStop_fr, kept @State.enterCaution_fr, kept @State.pk_fr, kept @State.wr_fr]

theorem State.controlClockLoss_fr (s : State) : (State.controlClockLoss s).pending = s.pending ∧ (State.controlClockLoss s).flash = s.flash ∧ (State.controlClockLoss s).coldOpt = s.coldOpt ∧ (State.controlClockLoss s).resp = s.resp ∧ (State.controlClockLoss s).free = s.free := by
  generalize h : State.controlClockLoss s = u
  unfold State.controlClockLoss at h
  rw [← h]; simp [kept @State.clkLossCause_fr, kept @State.enterBufferStop_fr]

theorem State.dieClockLoss_fr (s : State) (d : Nat) : (State.dieClockLoss s d).pending = s.pending ∧ (State.dieClockLoss s d).flash = s.flash ∧ (State.dieClockLoss s d).coldOpt = s.coldOpt ∧ (State.dieClockLoss s d).resp = s.resp ∧ (State.dieClockLoss s d).free = s.free := by
  generalize h : State.dieClockLoss s d = u
  unfold State.dieClockLoss at h
  rw [← h]; simp [kept @State.loseDie_fr]

@[simp] theorem State.engineClockLoss_pending (s : State) : s.engineClockLoss.pending = s.pending :=
  foldl_keeps State.pending State.dieClockLoss (fun s d => by simp [kept @State.dieClockLoss_fr]) (below 12 s.dieActive) s

@[simp] theorem State.engineClockLoss_flash (s : State) : s.engineClockLoss.flash = s.flash :=
  foldl_keeps State.flash State.dieClockLoss (fun s d => by simp [kept @State.dieClockLoss_fr]) (below 12 s.dieActive) s

@[simp] theorem State.engineClockLoss_coldOpt (s : State) : s.engineClockLoss.coldOpt = s.coldOpt :=
  foldl_keeps State.coldOpt State.dieClockLoss (fun s d => by simp [kept @State.dieClockLoss_fr]) (below 12 s.dieActive) s

@[simp] theorem State.engineClockLoss_resp (s : State) : s.engineClockLoss.resp = s.resp :=
  foldl_keeps State.resp State.dieClockLoss (fun s d => by simp [kept @State.dieClockLoss_fr]) (below 12 s.dieActive) s

@[simp] theorem State.engineClockLoss_free (s : State) : s.engineClockLoss.free = s.free :=
  foldl_keeps State.free State.dieClockLoss (fun s d => by simp [kept @State.dieClockLoss_fr]) (below 12 s.dieActive) s

theorem State.coreClockLoss_fr (s : State) (d : Nat) : (State.coreClockLoss s d).pending = s.pending ∧ (State.coreClockLoss s d).flash = s.flash ∧ (State.coreClockLoss s d).coldOpt = s.coldOpt ∧ (State.coreClockLoss s d).resp = s.resp ∧ (State.coreClockLoss s d).free = s.free := by
  generalize h : State.coreClockLoss s d = u
  unfold State.coreClockLoss at h
  rw [← h]; simp [kept @State.dieClockLoss_fr]

@[simp] theorem State.clockLoss_pending (s : State) (c : Clock) : (s.clockLoss c).pending = s.pending := by
  cases c <;> simp only [State.clockLoss] <;> (try split) <;> simp [kept @State.controlClockLoss_fr, kept @State.coreClockLoss_fr, kept @State.fabricClockLoss_fr, kept @State.recordLoss_fr, kept @State.serdesLoss_fr, kept @State.setGood_fr, kept @State.wr_fr]

@[simp] theorem State.clockLoss_flash (s : State) (c : Clock) : (s.clockLoss c).flash = s.flash := by
  cases c <;> simp only [State.clockLoss] <;> (try split) <;> simp [kept @State.controlClockLoss_fr, kept @State.coreClockLoss_fr, kept @State.fabricClockLoss_fr, kept @State.recordLoss_fr, kept @State.serdesLoss_fr, kept @State.setGood_fr, kept @State.wr_fr]

@[simp] theorem State.clockLoss_coldOpt (s : State) (c : Clock) : (s.clockLoss c).coldOpt = s.coldOpt := by
  cases c <;> simp only [State.clockLoss] <;> (try split) <;> simp [kept @State.controlClockLoss_fr, kept @State.coreClockLoss_fr, kept @State.fabricClockLoss_fr, kept @State.recordLoss_fr, kept @State.serdesLoss_fr, kept @State.setGood_fr, kept @State.wr_fr]

@[simp] theorem State.clockLoss_resp (s : State) (c : Clock) : (s.clockLoss c).resp = s.resp := by
  cases c <;> simp only [State.clockLoss] <;> (try split) <;> simp [kept @State.controlClockLoss_fr, kept @State.coreClockLoss_fr, kept @State.fabricClockLoss_fr, kept @State.recordLoss_fr, kept @State.serdesLoss_fr, kept @State.setGood_fr, kept @State.wr_fr]

@[simp] theorem State.clockLoss_free (s : State) (c : Clock) : (s.clockLoss c).free = s.free := by
  cases c <;> simp only [State.clockLoss] <;> (try split) <;> simp [kept @State.controlClockLoss_fr, kept @State.coreClockLoss_fr, kept @State.fabricClockLoss_fr, kept @State.recordLoss_fr, kept @State.serdesLoss_fr, kept @State.setGood_fr, kept @State.wr_fr]

theorem execClockMonitorWindow_fr (c : Clock) (expect : Nat) (edges : Nat) (silent : Bool) (s : State) {u : State} (h : execClockMonitorWindow c expect edges silent s = .next u) : u.pending = s.pending ∧ u.flash = s.flash ∧ u.coldOpt = s.coldOpt ∧ u.resp = s.resp ∧ u.free = s.free := by
  unfold execClockMonitorWindow at h
  (try dsimp only at h); (repeat' split at h) <;> (first | (simp only [Host.Outcome.next.injEq] at h; rw [← h]) | (simp only [reduceCtorEq] at h; done) | (simp only [Option.some.injEq] at h; rw [← h])) <;> simp [kept @State.pk_fr, kept @State.setGood_fr]

theorem State.seePins_fr (s : State) (x : Release) : (State.seePins s x).pending = s.pending ∧ (State.seePins s x).flash = s.flash ∧ (State.seePins s x).coldOpt = s.coldOpt ∧ (State.seePins s x).mem = s.mem ∧ (State.seePins s x).harts = s.harts ∧ (State.seePins s x).mram = s.mram ∧ (State.seePins s x).imsic = s.imsic ∧ (State.seePins s x).eng = s.eng ∧ (State.seePins s x).dm = s.dm ∧ (State.seePins s x).fx = s.fx ∧ (State.seePins s x).ctu = s.ctu ∧ (State.seePins s x).links = s.links ∧ (State.seePins s x).aplicS = s.aplicS ∧ (State.seePins s x).aplicN = s.aplicN ∧ (State.seePins s x).credits = s.credits ∧ (State.seePins s x).clusters = s.clusters ∧ (State.seePins s x).homes = s.homes ∧ (State.seePins s x).pkts = s.pkts ∧ (State.seePins s x).resp = s.resp ∧ (State.seePins s x).regs = s.regs ∧ (State.seePins s x).wires = s.wires ∧ (State.seePins s x).dmg = s.dmg ∧ (State.seePins s x).wq = s.wq ∧ (State.seePins s x).net = s.net ∧ (State.seePins s x).dbInval = s.dbInval ∧ (State.seePins s x).watch = s.watch ∧ (State.seePins s x).pmc = s.pmc ∧ (State.seePins s x).fwLog = s.fwLog ∧ (State.seePins s x).out = s.out ∧ (State.seePins s x).free = s.free ∧ (State.seePins s x).fabric = s.fabric ∧ (State.seePins s x).files = s.files := by
  generalize h : State.seePins s x = u
  unfold State.seePins at h
  (try dsimp only at h); (repeat' split at h) <;> rw [← h] <;> simp [kept @State.pk_fr]

theorem execDomainResetRelease_fr (x : Release) (s : State) {u : State} (h : execDomainResetRelease x s = .next u) : u.pending = s.pending ∧ u.flash = s.flash ∧ u.coldOpt = s.coldOpt ∧ u.mem = s.mem ∧ u.eng = s.eng ∧ u.dm = s.dm ∧ u.fx = s.fx ∧ u.ctu = s.ctu ∧ u.links = s.links ∧ u.aplicS = s.aplicS ∧ u.aplicN = s.aplicN ∧ u.credits = s.credits ∧ u.pkts = s.pkts ∧ u.resp = s.resp ∧ u.wires = s.wires ∧ u.dmg = s.dmg ∧ u.dbInval = s.dbInval ∧ u.watch = s.watch ∧ u.out = s.out ∧ u.free = s.free ∧ u.fabric = s.fabric := by
  unfold execDomainResetRelease at h
  (try dsimp only at h); (repeat' split at h) <;> (first | (simp only [Host.Outcome.next.injEq] at h; rw [← h]) | (simp only [reduceCtorEq] at h; done) | (simp only [Option.some.injEq] at h; rw [← h])) <;> simp [kept @State.beginMorning_fr, kept @State.pk_fr, kept @State.pmcStart_fr, kept @State.seePins_fr, kept @State.startHart_fr]

theorem State.readSensors_fr (s : State) (l : List Int) : (State.readSensors s l).pending = s.pending ∧ (State.readSensors s l).flash = s.flash ∧ (State.readSensors s l).coldOpt = s.coldOpt ∧ (State.readSensors s l).mem = s.mem ∧ (State.readSensors s l).harts = s.harts ∧ (State.readSensors s l).mram = s.mram ∧ (State.readSensors s l).imsic = s.imsic ∧ (State.readSensors s l).eng = s.eng ∧ (State.readSensors s l).dm = s.dm ∧ (State.readSensors s l).fx = s.fx ∧ (State.readSensors s l).ctu = s.ctu ∧ (State.readSensors s l).links = s.links ∧ (State.readSensors s l).aplicS = s.aplicS ∧ (State.readSensors s l).aplicN = s.aplicN ∧ (State.readSensors s l).credits = s.credits ∧ (State.readSensors s l).clusters = s.clusters ∧ (State.readSensors s l).homes = s.homes ∧ (State.readSensors s l).pkts = s.pkts ∧ (State.readSensors s l).resp = s.resp ∧ (State.readSensors s l).regs = s.regs ∧ (State.readSensors s l).wires = s.wires ∧ (State.readSensors s l).dmg = s.dmg ∧ (State.readSensors s l).wq = s.wq ∧ (State.readSensors s l).net = s.net ∧ (State.readSensors s l).dbInval = s.dbInval ∧ (State.readSensors s l).watch = s.watch ∧ (State.readSensors s l).pkg = s.pkg ∧ (State.readSensors s l).fwLog = s.fwLog ∧ (State.readSensors s l).out = s.out ∧ (State.readSensors s l).free = s.free ∧ (State.readSensors s l).fabric = s.fabric ∧ (State.readSensors s l).files = s.files := by
  generalize h : State.readSensors s l = u
  unfold State.readSensors at h
  rw [← h]; simp

theorem execWarmupScan_fr (temps : List Int) (s : State) {u : State} (h : execWarmupScan temps s = .next u) : u.pending = s.pending ∧ u.flash = s.flash ∧ u.coldOpt = s.coldOpt ∧ u.mem = s.mem ∧ u.harts = s.harts ∧ u.imsic = s.imsic ∧ u.eng = s.eng ∧ u.dm = s.dm ∧ u.fx = s.fx ∧ u.ctu = s.ctu ∧ u.links = s.links ∧ u.aplicS = s.aplicS ∧ u.aplicN = s.aplicN ∧ u.credits = s.credits ∧ u.clusters = s.clusters ∧ u.homes = s.homes ∧ u.pkts = s.pkts ∧ u.resp = s.resp ∧ u.wires = s.wires ∧ u.dmg = s.dmg ∧ u.wq = s.wq ∧ u.net = s.net ∧ u.dbInval = s.dbInval ∧ u.watch = s.watch ∧ u.fwLog = s.fwLog ∧ u.out = s.out ∧ u.free = s.free ∧ u.fabric = s.fabric ∧ u.files = s.files := by
  unfold execWarmupScan at h
  (try dsimp only at h); (repeat' split at h) <;> (first | (simp only [Host.Outcome.next.injEq] at h; rw [← h]) | (simp only [reduceCtorEq] at h; done) | (simp only [Option.some.injEq] at h; rw [← h])) <;> simp [kept @State.beginMorning_fr, kept @State.readSensors_fr]

theorem execWarmupTimeout_fr (s : State) {u : State} (h : execWarmupTimeout s = .next u) : u.pending = s.pending ∧ u.flash = s.flash ∧ u.coldOpt = s.coldOpt ∧ u.mem = s.mem ∧ u.harts = s.harts ∧ u.imsic = s.imsic ∧ u.eng = s.eng ∧ u.dm = s.dm ∧ u.fx = s.fx ∧ u.ctu = s.ctu ∧ u.links = s.links ∧ u.aplicS = s.aplicS ∧ u.aplicN = s.aplicN ∧ u.credits = s.credits ∧ u.clusters = s.clusters ∧ u.homes = s.homes ∧ u.pkts = s.pkts ∧ u.resp = s.resp ∧ u.wires = s.wires ∧ u.dmg = s.dmg ∧ u.wq = s.wq ∧ u.net = s.net ∧ u.dbInval = s.dbInval ∧ u.watch = s.watch ∧ u.fwLog = s.fwLog ∧ u.out = s.out ∧ u.free = s.free ∧ u.fabric = s.fabric ∧ u.files = s.files := by
  unfold execWarmupTimeout at h
  (try dsimp only at h); (repeat' split at h) <;> (first | (simp only [Host.Outcome.next.injEq] at h; rw [← h]) | (simp only [reduceCtorEq] at h; done) | (simp only [Option.some.injEq] at h; rw [← h])) <;> simp [kept @State.enterSiding_fr, kept @State.pmcStart_fr]

theorem execDramTrainingDone_fr (dimms : List (Option Dimm)) (s : State) {u : State} (h : execDramTrainingDone dimms s = .next u) : u.pending = s.pending ∧ u.flash = s.flash ∧ u.coldOpt = s.coldOpt ∧ u.mem = s.mem ∧ u.harts = s.harts ∧ u.imsic = s.imsic ∧ u.eng = s.eng ∧ u.dm = s.dm ∧ u.fx = s.fx ∧ u.ctu = s.ctu ∧ u.links = s.links ∧ u.aplicS = s.aplicS ∧ u.aplicN = s.aplicN ∧ u.credits = s.credits ∧ u.clusters = s.clusters ∧ u.homes = s.homes ∧ u.pkts = s.pkts ∧ u.resp = s.resp ∧ u.wires = s.wires ∧ u.dmg = s.dmg ∧ u.wq = s.wq ∧ u.net = s.net ∧ u.dbInval = s.dbInval ∧ u.watch = s.watch ∧ u.fwLog = s.fwLog ∧ u.out = s.out ∧ u.free = s.free ∧ u.fabric = s.fabric ∧ u.files = s.files := by
  unfold execDramTrainingDone at h
  (try dsimp only at h); (repeat' split at h) <;> ((first | (simp only [Host.Outcome.next.injEq] at h; rw [← h]) | (simp only [reduceCtorEq] at h; done) | (simp only [Option.some.injEq] at h; rw [← h])); simp (disch := (intros; (repeat' split) <;> first | exact keepsM_pure _ _ | simp [*, kept @State.applyLimits_fr, kept @State.enterSiding_fr, kept @State.pmcStart_fr, kept @State.wrW_fr, kept @State.wrs_fr])) [kept @State.applyLimits_fr, kept @State.enterSiding_fr, kept @State.pmcStart_fr, kept @State.wrW_fr, kept @State.wrs_fr])

theorem State.zeroChannel_fr (s : State) (m : Nat) : (State.zeroChannel s m).pending = s.pending ∧ (State.zeroChannel s m).flash = s.flash ∧ (State.zeroChannel s m).coldOpt = s.coldOpt ∧ (State.zeroChannel s m).harts = s.harts ∧ (State.zeroChannel s m).mram = s.mram ∧ (State.zeroChannel s m).imsic = s.imsic ∧ (State.zeroChannel s m).eng = s.eng ∧ (State.zeroChannel s m).dm = s.dm ∧ (State.zeroChannel s m).fx = s.fx ∧ (State.zeroChannel s m).ctu = s.ctu ∧ (State.zeroChannel s m).links = s.links ∧ (State.zeroChannel s m).aplicS = s.aplicS ∧ (State.zeroChannel s m).aplicN = s.aplicN ∧ (State.zeroChannel s m).credits = s.credits ∧ (State.zeroChannel s m).clusters = s.clusters ∧ (State.zeroChannel s m).homes = s.homes ∧ (State.zeroChannel s m).pkts = s.pkts ∧ (State.zeroChannel s m).resp = s.resp ∧ (State.zeroChannel s m).regs = s.regs ∧ (State.zeroChannel s m).wires = s.wires ∧ (State.zeroChannel s m).wq = s.wq ∧ (State.zeroChannel s m).net = s.net ∧ (State.zeroChannel s m).dbInval = s.dbInval ∧ (State.zeroChannel s m).watch = s.watch ∧ (State.zeroChannel s m).pkg = s.pkg ∧ (State.zeroChannel s m).pmc = s.pmc ∧ (State.zeroChannel s m).fwLog = s.fwLog ∧ (State.zeroChannel s m).out = s.out ∧ (State.zeroChannel s m).free = s.free ∧ (State.zeroChannel s m).fabric = s.fabric ∧ (State.zeroChannel s m).files = s.files := by
  generalize h : State.zeroChannel s m = u
  unfold State.zeroChannel at h
  rw [← h]; simp

theorem State.enterDepot_fr (s : State) (cause : Nat) : (State.enterDepot s cause).pending = s.pending ∧ (State.enterDepot s cause).flash = s.flash ∧ (State.enterDepot s cause).coldOpt = s.coldOpt ∧ (State.enterDepot s cause).mem = s.mem ∧ (State.enterDepot s cause).harts = s.harts ∧ (State.enterDepot s cause).imsic = s.imsic ∧ (State.enterDepot s cause).eng = s.eng ∧ (State.enterDepot s cause).dm = s.dm ∧ (State.enterDepot s cause).fx = s.fx ∧ (State.enterDepot s cause).ctu = s.ctu ∧ (State.enterDepot s cause).links = s.links ∧ (State.enterDepot s cause).aplicS = s.aplicS ∧ (State.enterDepot s cause).aplicN = s.aplicN ∧ (State.enterDepot s cause).credits = s.credits ∧ (State.enterDepot s cause).clusters = s.clusters ∧ (State.enterDepot s cause).homes = s.homes ∧ (State.enterDepot s cause).pkts = s.pkts ∧ (State.enterDepot s cause).resp = s.resp ∧ (State.enterDepot s cause).wires = s.wires ∧ (State.enterDepot s cause).dmg = s.dmg ∧ (State.enterDepot s cause).wq = s.wq ∧ (State.enterDepot s cause).net = s.net ∧ (State.enterDepot s cause).dbInval = s.dbInval ∧ (State.enterDepot s cause).watch = s.watch ∧ (State.enterDepot s cause).fwLog = s.fwLog ∧ (State.enterDepot s cause).out = s.out ∧ (State.enterDepot s cause).free = s.free ∧ (State.enterDepot s cause).fabric = s.fabric ∧ (State.enterDepot s cause).files = s.files := by
  generalize h : State.enterDepot s cause = u
  unfold State.enterDepot at h
  rw [← h]; simp [kept @State.arriveMode_fr, kept @State.pmcStart_fr]

theorem execMemoryFillDone_fr (s : State) {u : State} (h : execMemoryFillDone s = .next u) : u.pending = s.pending ∧ u.flash = s.flash ∧ u.coldOpt = s.coldOpt ∧ u.harts = s.harts ∧ u.imsic = s.imsic ∧ u.eng = s.eng ∧ u.dm = s.dm ∧ u.fx = s.fx ∧ u.ctu = s.ctu ∧ u.links = s.links ∧ u.aplicS = s.aplicS ∧ u.aplicN = s.aplicN ∧ u.credits = s.credits ∧ u.clusters = s.clusters ∧ u.homes = s.homes ∧ u.pkts = s.pkts ∧ u.resp = s.resp ∧ u.wires = s.wires ∧ u.wq = s.wq ∧ u.net = s.net ∧ u.dbInval = s.dbInval ∧ u.watch = s.watch ∧ u.fwLog = s.fwLog ∧ u.out = s.out ∧ u.free = s.free ∧ u.fabric = s.fabric ∧ u.files = s.files := by
  unfold execMemoryFillDone at h
  (try dsimp only at h); (repeat' split at h) <;> (first | (simp only [Host.Outcome.next.injEq] at h; rw [← h]) | (simp only [reduceCtorEq] at h; done) | (simp only [Option.some.injEq] at h; rw [← h])) <;> simp [kept @State.enterDepot_fr, kept @State.pk_fr, kept @State.wr_fr, kept @State.zeroChannel_fr]

theorem State.copyBody_fr (s : State) (l : List Byte) : (State.copyBody s l).pending = s.pending ∧ (State.copyBody s l).flash = s.flash ∧ (State.copyBody s l).coldOpt = s.coldOpt ∧ (State.copyBody s l).harts = s.harts ∧ (State.copyBody s l).mram = s.mram ∧ (State.copyBody s l).imsic = s.imsic ∧ (State.copyBody s l).eng = s.eng ∧ (State.copyBody s l).dm = s.dm ∧ (State.copyBody s l).fx = s.fx ∧ (State.copyBody s l).ctu = s.ctu ∧ (State.copyBody s l).links = s.links ∧ (State.copyBody s l).aplicS = s.aplicS ∧ (State.copyBody s l).aplicN = s.aplicN ∧ (State.copyBody s l).credits = s.credits ∧ (State.copyBody s l).clusters = s.clusters ∧ (State.copyBody s l).homes = s.homes ∧ (State.copyBody s l).pkts = s.pkts ∧ (State.copyBody s l).resp = s.resp ∧ (State.copyBody s l).regs = s.regs ∧ (State.copyBody s l).wires = s.wires ∧ (State.copyBody s l).wq = s.wq ∧ (State.copyBody s l).net = s.net ∧ (State.copyBody s l).dbInval = s.dbInval ∧ (State.copyBody s l).watch = s.watch ∧ (State.copyBody s l).pkg = s.pkg ∧ (State.copyBody s l).pmc = s.pmc ∧ (State.copyBody s l).fwLog = s.fwLog ∧ (State.copyBody s l).out = s.out ∧ (State.copyBody s l).free = s.free ∧ (State.copyBody s l).fabric = s.fabric ∧ (State.copyBody s l).files = s.files := by
  generalize h : State.copyBody s l = u
  unfold State.copyBody at h
  rw [← h]; simp [kept @State.setBytes_fr]

theorem State.bootFinxis_fr (s : State) (p : Nat) : (State.bootFinxis s p).pending = s.pending ∧ (State.bootFinxis s p).flash = s.flash ∧ (State.bootFinxis s p).coldOpt = s.coldOpt ∧ (State.bootFinxis s p).mem = s.mem ∧ (State.bootFinxis s p).harts = s.harts ∧ (State.bootFinxis s p).mram = s.mram ∧ (State.bootFinxis s p).imsic = s.imsic ∧ (State.bootFinxis s p).eng = s.eng ∧ (State.bootFinxis s p).dm = s.dm ∧ (State.bootFinxis s p).ctu = s.ctu ∧ (State.bootFinxis s p).links = s.links ∧ (State.bootFinxis s p).aplicS = s.aplicS ∧ (State.bootFinxis s p).aplicN = s.aplicN ∧ (State.bootFinxis s p).credits = s.credits ∧ (State.bootFinxis s p).clusters = s.clusters ∧ (State.bootFinxis s p).homes = s.homes ∧ (State.bootFinxis s p).pkts = s.pkts ∧ (State.bootFinxis s p).resp = s.resp ∧ (State.bootFinxis s p).wires = s.wires ∧ (State.bootFinxis s p).dmg = s.dmg ∧ (State.bootFinxis s p).wq = s.wq ∧ (State.bootFinxis s p).net = s.net ∧ (State.bootFinxis s p).dbInval = s.dbInval ∧ (State.bootFinxis s p).watch = s.watch ∧ (State.bootFinxis s p).pkg = s.pkg ∧ (State.bootFinxis s p).pmc = s.pmc ∧ (State.bootFinxis s p).fwLog = s.fwLog ∧ (State.bootFinxis s p).out = s.out ∧ (State.bootFinxis s p).free = s.free ∧ (State.bootFinxis s p).fabric = s.fabric ∧ (State.bootFinxis s p).files = s.files := by
  generalize h : State.bootFinxis s p = u
  unfold State.bootFinxis at h
  (try dsimp only at h); (repeat' split at h) <;> rw [← h] <;> simp [kept @State.fxDetect_fr, kept @State.wrs_fr]

theorem State.bootPorts_fr (s : State) : (State.bootPorts s).pending = s.pending ∧ (State.bootPorts s).flash = s.flash ∧ (State.bootPorts s).coldOpt = s.coldOpt ∧ (State.bootPorts s).mem = s.mem ∧ (State.bootPorts s).harts = s.harts ∧ (State.bootPorts s).mram = s.mram ∧ (State.bootPorts s).imsic = s.imsic ∧ (State.bootPorts s).eng = s.eng ∧ (State.bootPorts s).dm = s.dm ∧ (State.bootPorts s).ctu = s.ctu ∧ (State.bootPorts s).links = s.links ∧ (State.bootPorts s).aplicS = s.aplicS ∧ (State.bootPorts s).aplicN = s.aplicN ∧ (State.bootPorts s).credits = s.credits ∧ (State.bootPorts s).clusters = s.clusters ∧ (State.bootPorts s).homes = s.homes ∧ (State.bootPorts s).pkts = s.pkts ∧ (State.bootPorts s).resp = s.resp ∧ (State.bootPorts s).wires = s.wires ∧ (State.bootPorts s).dmg = s.dmg ∧ (State.bootPorts s).wq = s.wq ∧ (State.bootPorts s).net = s.net ∧ (State.bootPorts s).dbInval = s.dbInval ∧ (State.bootPorts s).watch = s.watch ∧ (State.bootPorts s).pkg = s.pkg ∧ (State.bootPorts s).pmc = s.pmc ∧ (State.bootPorts s).fwLog = s.fwLog ∧ (State.bootPorts s).out = s.out ∧ (State.bootPorts s).free = s.free ∧ (State.bootPorts s).fabric = s.fabric ∧ (State.bootPorts s).files = s.files := by
  generalize h : State.bootPorts s = u
  unfold State.bootPorts at h
  (try dsimp only at h); (repeat' split at h) <;> rw [← h] <;> simp [kept @State.bootFinxis_fr]

theorem State.bootCold_fr (s : State) : (State.bootCold s).pending = s.pending ∧ (State.bootCold s).flash = s.flash ∧ (State.bootCold s).coldOpt = s.coldOpt ∧ (State.bootCold s).mram = s.mram ∧ (State.bootCold s).imsic = s.imsic ∧ (State.bootCold s).eng = s.eng ∧ (State.bootCold s).dm = s.dm ∧ (State.bootCold s).ctu = s.ctu ∧ (State.bootCold s).links = s.links ∧ (State.bootCold s).aplicS = s.aplicS ∧ (State.bootCold s).aplicN = s.aplicN ∧ (State.bootCold s).credits = s.credits ∧ (State.bootCold s).pkts = s.pkts ∧ (State.bootCold s).resp = s.resp ∧ (State.bootCold s).wires = s.wires ∧ (State.bootCold s).pmc = s.pmc ∧ (State.bootCold s).fwLog = s.fwLog ∧ (State.bootCold s).out = s.out ∧ (State.bootCold s).free = s.free ∧ (State.bootCold s).fabric = s.fabric ∧ (State.bootCold s).files = s.files := by
  generalize h : State.bootCold s = u
  unfold State.bootCold at h
  (try dsimp only at h); (repeat' split at h) <;> rw [← h] <;> simp [kept @State.applyOptions_fr, kept @State.bootPorts_fr, kept @State.pk_fr]

theorem execBootAuthentication_fr (s : State) {u : State} (h : execBootAuthentication s = .next u) : u.pending = s.pending ∧ u.flash = s.flash ∧ u.coldOpt = s.coldOpt ∧ u.imsic = s.imsic ∧ u.eng = s.eng ∧ u.dm = s.dm ∧ u.ctu = s.ctu ∧ u.links = s.links ∧ u.aplicS = s.aplicS ∧ u.aplicN = s.aplicN ∧ u.credits = s.credits ∧ u.pkts = s.pkts ∧ u.resp = s.resp ∧ u.wires = s.wires ∧ u.fwLog = s.fwLog ∧ u.out = s.out ∧ u.free = s.free ∧ u.fabric = s.fabric ∧ u.files = s.files := by
  unfold execBootAuthentication at h
  (try dsimp only at h); (repeat' split at h) <;> (first | (simp only [Host.Outcome.next.injEq] at h; rw [← h]) | (simp only [reduceCtorEq] at h; done) | (simp only [Option.some.injEq] at h; rw [← h])) <;> simp [kept @State.bootCold_fr, kept @State.copyBody_fr, kept @State.enterSiding_fr, kept @State.logFw7_fr, kept @State.pk_fr, kept @State.putInForce_fr, kept @State.romFallback_fr, kept @State.setMram_fr]

theorem State.siteTested_fr (s : State) (fails : List (Fin 12)) (d : Nat) : (State.siteTested s fails d).pending = s.pending ∧ (State.siteTested s fails d).flash = s.flash ∧ (State.siteTested s fails d).coldOpt = s.coldOpt ∧ (State.siteTested s fails d).mem = s.mem ∧ (State.siteTested s fails d).harts = s.harts ∧ (State.siteTested s fails d).mram = s.mram ∧ (State.siteTested s fails d).imsic = s.imsic ∧ (State.siteTested s fails d).eng = s.eng ∧ (State.siteTested s fails d).dm = s.dm ∧ (State.siteTested s fails d).fx = s.fx ∧ (State.siteTested s fails d).ctu = s.ctu ∧ (State.siteTested s fails d).links = s.links ∧ (State.siteTested s fails d).aplicS = s.aplicS ∧ (State.siteTested s fails d).aplicN = s.aplicN ∧ (State.siteTested s fails d).credits = s.credits ∧ (State.siteTested s fails d).clusters = s.clusters ∧ (State.siteTested s fails d).homes = s.homes ∧ (State.siteTested s fails d).pkts = s.pkts ∧ (State.siteTested s fails d).resp = s.resp ∧ (State.siteTested s fails d).wires = s.wires ∧ (State.siteTested s fails d).dmg = s.dmg ∧ (State.siteTested s fails d).wq = s.wq ∧ (State.siteTested s fails d).net = s.net ∧ (State.siteTested s fails d).dbInval = s.dbInval ∧ (State.siteTested s fails d).watch = s.watch ∧ (State.siteTested s fails d).pmc = s.pmc ∧ (State.siteTested s fails d).fwLog = s.fwLog ∧ (State.siteTested s fails d).out = s.out ∧ (State.siteTested s fails d).free = s.free ∧ (State.siteTested s fails d).fabric = s.fabric ∧ (State.siteTested s fails d).files = s.files := by
  generalize h : State.siteTested s fails d = u
  unfold State.siteTested at h
  (try dsimp only at h); (repeat' split at h) <;> rw [← h] <;> simp [kept @State.pk_fr, kept @State.setDieState_fr, kept @State.wrs_fr]

theorem State.showSteps_fr (s : State) : (State.showSteps s).pending = s.pending ∧ (State.showSteps s).flash = s.flash ∧ (State.showSteps s).coldOpt = s.coldOpt ∧ (State.showSteps s).mem = s.mem ∧ (State.showSteps s).harts = s.harts ∧ (State.showSteps s).mram = s.mram ∧ (State.showSteps s).imsic = s.imsic ∧ (State.showSteps s).eng = s.eng ∧ (State.showSteps s).dm = s.dm ∧ (State.showSteps s).fx = s.fx ∧ (State.showSteps s).ctu = s.ctu ∧ (State.showSteps s).links = s.links ∧ (State.showSteps s).aplicS = s.aplicS ∧ (State.showSteps s).aplicN = s.aplicN ∧ (State.showSteps s).credits = s.credits ∧ (State.showSteps s).clusters = s.clusters ∧ (State.showSteps s).homes = s.homes ∧ (State.showSteps s).pkts = s.pkts ∧ (State.showSteps s).resp = s.resp ∧ (State.showSteps s).wires = s.wires ∧ (State.showSteps s).dmg = s.dmg ∧ (State.showSteps s).wq = s.wq ∧ (State.showSteps s).net = s.net ∧ (State.showSteps s).dbInval = s.dbInval ∧ (State.showSteps s).watch = s.watch ∧ (State.showSteps s).pkg = s.pkg ∧ (State.showSteps s).pmc = s.pmc ∧ (State.showSteps s).fwLog = s.fwLog ∧ (State.showSteps s).out = s.out ∧ (State.showSteps s).free = s.free ∧ (State.showSteps s).fabric = s.fabric ∧ (State.showSteps s).files = s.files := by
  generalize h : State.showSteps s = u
  unfold State.showSteps at h
  rw [← h]; simp [kept @State.wrs_fr]

theorem State.setLevel_fr (s : State) : (State.setLevel s).pending = s.pending ∧ (State.setLevel s).flash = s.flash ∧ (State.setLevel s).coldOpt = s.coldOpt ∧ (State.setLevel s).mem = s.mem ∧ (State.setLevel s).harts = s.harts ∧ (State.setLevel s).mram = s.mram ∧ (State.setLevel s).imsic = s.imsic ∧ (State.setLevel s).eng = s.eng ∧ (State.setLevel s).dm = s.dm ∧ (State.setLevel s).fx = s.fx ∧ (State.setLevel s).ctu = s.ctu ∧ (State.setLevel s).links = s.links ∧ (State.setLevel s).aplicS = s.aplicS ∧ (State.setLevel s).aplicN = s.aplicN ∧ (State.setLevel s).credits = s.credits ∧ (State.setLevel s).clusters = s.clusters ∧ (State.setLevel s).homes = s.homes ∧ (State.setLevel s).pkts = s.pkts ∧ (State.setLevel s).resp = s.resp ∧ (State.setLevel s).wires = s.wires ∧ (State.setLevel s).dmg = s.dmg ∧ (State.setLevel s).wq = s.wq ∧ (State.setLevel s).net = s.net ∧ (State.setLevel s).dbInval = s.dbInval ∧ (State.setLevel s).watch = s.watch ∧ (State.setLevel s).pkg = s.pkg ∧ (State.setLevel s).pmc = s.pmc ∧ (State.setLevel s).fwLog = s.fwLog ∧ (State.setLevel s).out = s.out ∧ (State.setLevel s).free = s.free ∧ (State.setLevel s).fabric = s.fabric ∧ (State.setLevel s).files = s.files := by
  generalize h : State.setLevel s = u
  unfold State.setLevel at h
  rw [← h]; simp [kept @State.wrs_fr]

theorem State.heldCluster_fr (s : State) : (State.heldCluster s).pending = s.pending ∧ (State.heldCluster s).flash = s.flash ∧ (State.heldCluster s).coldOpt = s.coldOpt ∧ (State.heldCluster s).mem = s.mem ∧ (State.heldCluster s).harts = s.harts ∧ (State.heldCluster s).mram = s.mram ∧ (State.heldCluster s).imsic = s.imsic ∧ (State.heldCluster s).eng = s.eng ∧ (State.heldCluster s).dm = s.dm ∧ (State.heldCluster s).fx = s.fx ∧ (State.heldCluster s).ctu = s.ctu ∧ (State.heldCluster s).links = s.links ∧ (State.heldCluster s).aplicS = s.aplicS ∧ (State.heldCluster s).aplicN = s.aplicN ∧ (State.heldCluster s).credits = s.credits ∧ (State.heldCluster s).clusters = s.clusters ∧ (State.heldCluster s).homes = s.homes ∧ (State.heldCluster s).pkts = s.pkts ∧ (State.heldCluster s).resp = s.resp ∧ (State.heldCluster s).wires = s.wires ∧ (State.heldCluster s).dmg = s.dmg ∧ (State.heldCluster s).wq = s.wq ∧ (State.heldCluster s).net = s.net ∧ (State.heldCluster s).dbInval = s.dbInval ∧ (State.heldCluster s).watch = s.watch ∧ (State.heldCluster s).pmc = s.pmc ∧ (State.heldCluster s).fwLog = s.fwLog ∧ (State.heldCluster s).out = s.out ∧ (State.heldCluster s).free = s.free ∧ (State.heldCluster s).fabric = s.fabric ∧ (State.heldCluster s).files = s.files := by
  generalize h : State.heldCluster s = u
  unfold State.heldCluster at h
  (try dsimp only at h); (repeat' split at h) <;> rw [← h] <;> simp [kept @State.fence_fr, kept @State.pk_fr, kept @State.wr_fr]

theorem execSelfTestDone_fr (fails : List (Fin 12)) (iodBase : Bool) (s : State) {u : State} (h : execSelfTestDone fails iodBase s = .next u) : u.pending = s.pending ∧ u.flash = s.flash ∧ u.coldOpt = s.coldOpt ∧ u.mem = s.mem ∧ u.harts = s.harts ∧ u.mram = s.mram ∧ u.imsic = s.imsic ∧ u.eng = s.eng ∧ u.dm = s.dm ∧ u.fx = s.fx ∧ u.ctu = s.ctu ∧ u.links = s.links ∧ u.aplicS = s.aplicS ∧ u.aplicN = s.aplicN ∧ u.credits = s.credits ∧ u.clusters = s.clusters ∧ u.homes = s.homes ∧ u.pkts = s.pkts ∧ u.resp = s.resp ∧ u.wires = s.wires ∧ u.dmg = s.dmg ∧ u.wq = s.wq ∧ u.net = s.net ∧ u.dbInval = s.dbInval ∧ u.watch = s.watch ∧ u.pmc = s.pmc ∧ u.fwLog = s.fwLog ∧ u.out = s.out ∧ u.free = s.free ∧ u.fabric = s.fabric ∧ u.files = s.files := by
  unfold execSelfTestDone at h
  (try dsimp only at h); (repeat' split at h) <;> (first | (simp only [Host.Outcome.next.injEq] at h; rw [← h]) | (simp only [reduceCtorEq] at h; done) | (simp only [Option.some.injEq] at h; rw [← h])) <;> simp [kept @State.heldCluster_fr, kept @State.pk_fr, kept @State.setLevel_fr, kept @State.showSteps_fr, kept @State.siteTested_fr, kept @State.wr_fr]

theorem execMainlineEntry_fr (s : State) {u : State} (h : execMainlineEntry s = .next u) : u.pending = s.pending ∧ u.flash = s.flash ∧ u.coldOpt = s.coldOpt ∧ u.mem = s.mem ∧ u.ctu = s.ctu ∧ u.links = s.links ∧ u.credits = s.credits ∧ u.pkts = s.pkts ∧ u.resp = s.resp ∧ u.dmg = s.dmg ∧ u.free = s.free ∧ u.fabric = s.fabric := by
  unfold execMainlineEntry at h
  (try dsimp only at h); (repeat' split at h) <;> (first | (simp only [Host.Outcome.next.injEq] at h; rw [← h]) | (simp only [reduceCtorEq] at h; done) | (simp only [Option.some.injEq] at h; rw [← h])) <;> simp [kept @State.arriveMode_fr, kept @State.dropWindows_fr, kept @State.finxisLow_fr, kept @State.pk_fr, kept @State.rereadDoorbells_fr, kept @State.restoreAll_fr, kept @State.startHart_fr, kept @State.wr_fr]

theorem execNdmreset_fr (on : Bool) (pulse : Bool) (s : State) {u : State} (h : execNdmreset on pulse s = .next u) : u.pending = s.pending ∧ u.flash = s.flash ∧ u.coldOpt = s.coldOpt ∧ u.resp = s.resp ∧ u.free = s.free := by
  unfold execNdmreset at h
  (try dsimp only at h); (repeat' split at h) <;> (first | (simp only [Host.Outcome.next.injEq] at h; rw [← h]) | (simp only [reduceCtorEq] at h; done) | (simp only [Option.some.injEq] at h; rw [← h])) <;> simp [kept @State.fenceCluster_fr, kept @State.hartCause_fr, kept @State.loseDie_fr, kept @State.pk_fr, kept @State.recordReach_fr, kept @State.warmSource_fr, kept @State.wr_fr, kept @State.wrW_fr]

theorem execHartreset_fr (harts : List (Fin 216)) (on : Bool) (s : State) {u : State} (h : execHartreset harts on s = .next u) : u.pending = s.pending ∧ u.flash = s.flash ∧ u.coldOpt = s.coldOpt ∧ u.mem = s.mem ∧ u.mram = s.mram ∧ u.eng = s.eng ∧ u.dm = s.dm ∧ u.fx = s.fx ∧ u.ctu = s.ctu ∧ u.links = s.links ∧ u.aplicS = s.aplicS ∧ u.aplicN = s.aplicN ∧ u.credits = s.credits ∧ u.pkts = s.pkts ∧ u.resp = s.resp ∧ u.wires = s.wires ∧ u.dmg = s.dmg ∧ u.dbInval = s.dbInval ∧ u.watch = s.watch ∧ u.pmc = s.pmc ∧ u.out = s.out ∧ u.free = s.free ∧ u.fabric = s.fabric := by
  unfold execHartreset at h
  (try dsimp only at h); (repeat' split at h) <;> (first | (simp only [Host.Outcome.next.injEq] at h; rw [← h]) | (simp only [reduceCtorEq] at h; done) | (simp only [Option.some.injEq] at h; rw [← h])) <;> simp [kept @State.coreReset_fr, kept @State.pk_fr, kept @State.setHart_fr]

theorem execWatchdogHalf_fr (s : State) {u : State} (h : execWatchdogHalf s = .next u) : u.pending = s.pending ∧ u.flash = s.flash ∧ u.coldOpt = s.coldOpt ∧ u.mem = s.mem ∧ u.harts = s.harts ∧ u.mram = s.mram ∧ u.imsic = s.imsic ∧ u.eng = s.eng ∧ u.dm = s.dm ∧ u.fx = s.fx ∧ u.ctu = s.ctu ∧ u.links = s.links ∧ u.aplicS = s.aplicS ∧ u.aplicN = s.aplicN ∧ u.credits = s.credits ∧ u.clusters = s.clusters ∧ u.homes = s.homes ∧ u.pkts = s.pkts ∧ u.resp = s.resp ∧ u.regs = s.regs ∧ u.dmg = s.dmg ∧ u.wq = s.wq ∧ u.net = s.net ∧ u.dbInval = s.dbInval ∧ u.watch = s.watch ∧ u.pmc = s.pmc ∧ u.fwLog = s.fwLog ∧ u.out = s.out ∧ u.free = s.free ∧ u.fabric = s.fabric ∧ u.files = s.files := by
  unfold execWatchdogHalf at h
  (try dsimp only at h); (repeat' split at h) <;> (first | (simp only [Host.Outcome.next.injEq] at h; rw [← h]) | (simp only [reduceCtorEq] at h; done) | (simp only [Option.some.injEq] at h; rw [← h])) <;> simp [kept @State.pk_fr, kept @State.raise_fr]

theorem execWatchdogTimeout_fr (pulse : Bool) (s : State) {u : State} (h : execWatchdogTimeout pulse s = .next u) : u.pending = s.pending ∧ u.flash = s.flash ∧ u.coldOpt = s.coldOpt ∧ u.resp = s.resp ∧ u.out = s.out ∧ u.free = s.free := by
  unfold execWatchdogTimeout at h
  (try dsimp only at h); (repeat' split at h) <;> (first | (simp only [Host.Outcome.next.injEq] at h; rw [← h]) | (simp only [reduceCtorEq] at h; done) | (simp only [Option.some.injEq] at h; rw [← h])) <;> simp [kept @State.warmSource_fr]

end Sys2Proof.Machine
end

