-- ==== Sys2Proof/Laws/Frame/DmCmds.lean ====
section
/-! SUPPORT. What the operations of Machine/DmCmds.lean leave unchanged. -/

set_option Elab.async false
set_option linter.all false

namespace Sys2Proof.Machine
open Sys2Proof

theorem State.slotOf_fr (s : State) (ln : Nat) (d : LineData) (n : Nat) : (State.slotOf s ln d n).pending = s.pending ∧ (State.slotOf s ln d n).flash = s.flash ∧ (State.slotOf s ln d n).coldOpt = s.coldOpt ∧ (State.slotOf s ln d n).mem = s.mem ∧ (State.slotOf s ln d n).harts = s.harts ∧ (State.slotOf s ln d n).imsic = s.imsic ∧ (State.slotOf s ln d n).dm = s.dm ∧ (State.slotOf s ln d n).ctu = s.ctu ∧ (State.slotOf s ln d n).links = s.links ∧ (State.slotOf s ln d n).aplicS = s.aplicS ∧ (State.slotOf s ln d n).aplicN = s.aplicN ∧ (State.slotOf s ln d n).credits = s.credits ∧ (State.slotOf s ln d n).clusters = s.clusters ∧ (State.slotOf s ln d n).homes = s.homes ∧ (State.slotOf s ln d n).pkts = s.pkts ∧ (State.slotOf s ln d n).resp = s.resp ∧ (State.slotOf s ln d n).dmg = s.dmg ∧ (State.slotOf s ln d n).net = s.net ∧ (State.slotOf s ln d n).dbInval = s.dbInval ∧ (State.slotOf s ln d n).watch = s.watch ∧ (State.slotOf s ln d n).free = s.free ∧ (State.slotOf s ln d n).fabric = s.fabric ∧ (State.slotOf s ln d n).files = s.files := by
  generalize h : State.slotOf s ln d n = u
  unfold State.slotOf at h
  (try dsimp only at h); (repeat' split at h) <;> rw [← h] <;> simp [kept @State.checkAcc_fr, kept @State.doorbell_fr, kept @State.ringError_fr]

theorem State.chanSlotOf_fr (s : State) (ln : Nat) (d : LineData) (n : Nat) : (State.chanSlotOf s ln d n).pending = s.pending ∧ (State.chanSlotOf s ln d n).flash = s.flash ∧ (State.chanSlotOf s ln d n).coldOpt = s.coldOpt ∧ (State.chanSlotOf s ln d n).mem = s.mem ∧ (State.chanSlotOf s ln d n).harts = s.harts ∧ (State.chanSlotOf s ln d n).mram = s.mram ∧ (State.chanSlotOf s ln d n).imsic = s.imsic ∧ (State.chanSlotOf s ln d n).eng = s.eng ∧ (State.chanSlotOf s ln d n).fx = s.fx ∧ (State.chanSlotOf s ln d n).ctu = s.ctu ∧ (State.chanSlotOf s ln d n).links = s.links ∧ (State.chanSlotOf s ln d n).aplicS = s.aplicS ∧ (State.chanSlotOf s ln d n).aplicN = s.aplicN ∧ (State.chanSlotOf s ln d n).credits = s.credits ∧ (State.chanSlotOf s ln d n).clusters = s.clusters ∧ (State.chanSlotOf s ln d n).homes = s.homes ∧ (State.chanSlotOf s ln d n).pkts = s.pkts ∧ (State.chanSlotOf s ln d n).resp = s.resp ∧ (State.chanSlotOf s ln d n).wires = s.wires ∧ (State.chanSlotOf s ln d n).dmg = s.dmg ∧ (State.chanSlotOf s ln d n).wq = s.wq ∧ (State.chanSlotOf s ln d n).net = s.net ∧ (State.chanSlotOf s ln d n).dbInval = s.dbInval ∧ (State.chanSlotOf s ln d n).watch = s.watch ∧ (State.chanSlotOf s ln d n).pkg = s.pkg ∧ (State.chanSlotOf s ln d n).pmc = s.pmc ∧ (State.chanSlotOf s ln d n).out = s.out ∧ (State.chanSlotOf s ln d n).free = s.free ∧ (State.chanSlotOf s ln d n).fabric = s.fabric ∧ (State.chanSlotOf s ln d n).files = s.files := by
  generalize h : State.chanSlotOf s ln d n = u
  unfold State.chanSlotOf at h
  (try dsimp only at h); (repeat' split at h) <;> rw [← h] <;> simp [kept @State.chanDoorbell_fr, kept @State.chanError_fr, kept @State.checkAcc_fr]

theorem State.lineBack_fr (s : State) (ln : Nat) (m : Msg) : (State.lineBack s ln m).pending = s.pending ∧ (State.lineBack s ln m).flash = s.flash ∧ (State.lineBack s ln m).coldOpt = s.coldOpt ∧ (State.lineBack s ln m).mem = s.mem ∧ (State.lineBack s ln m).harts = s.harts ∧ (State.lineBack s ln m).imsic = s.imsic ∧ (State.lineBack s ln m).ctu = s.ctu ∧ (State.lineBack s ln m).links = s.links ∧ (State.lineBack s ln m).aplicS = s.aplicS ∧ (State.lineBack s ln m).aplicN = s.aplicN ∧ (State.lineBack s ln m).credits = s.credits ∧ (State.lineBack s ln m).clusters = s.clusters ∧ (State.lineBack s ln m).homes = s.homes ∧ (State.lineBack s ln m).pkts = s.pkts ∧ (State.lineBack s ln m).resp = s.resp ∧ (State.lineBack s ln m).dmg = s.dmg ∧ (State.lineBack s ln m).free = s.free ∧ (State.lineBack s ln m).fabric = s.fabric ∧ (State.lineBack s ln m).files = s.files := by
  generalize h : State.lineBack s ln m = u
  unfold State.lineBack at h
  (try dsimp only at h); (repeat' split at h) <;> rw [← h] <;> simp [kept @State.chanError_fr, kept @State.chanSlotOf_fr, kept @State.ringError_fr, kept @State.slotOf_fr, kept @State.watchRoom_fr]

theorem execDoorbellLineReturn_fr (ln : Nat) (s : State) {u : State} (h : execDoorbellLineReturn ln s = .next u) : u.pending = s.pending ∧ u.flash = s.flash ∧ u.coldOpt = s.coldOpt ∧ u.mem = s.mem ∧ u.imsic = s.imsic ∧ u.ctu = s.ctu ∧ u.links = s.links ∧ u.aplicS = s.aplicS ∧ u.aplicN = s.aplicN ∧ u.credits = s.credits ∧ u.pkts = s.pkts ∧ u.resp = s.resp ∧ u.dmg = s.dmg ∧ u.free = s.free ∧ u.fabric = s.fabric ∧ u.files = s.files := by
  unfold execDoorbellLineReturn at h
  (try dsimp only at h); (repeat' split at h) <;> (first | (simp only [Host.Outcome.next.injEq] at h; rw [← h]) | (simp only [reduceCtorEq] at h; done) | (simp only [Option.some.injEq] at h; rw [← h])) <;> simp [kept @State.lineBack_fr]

theorem execProgramTableEntry_fr (n : Fin 32) (s : State) {u : State} (h : execProgramTableEntry n s = .next u) : u.pending = s.pending ∧ u.flash = s.flash ∧ u.coldOpt = s.coldOpt ∧ u.mem = s.mem ∧ u.harts = s.harts ∧ u.imsic = s.imsic ∧ u.eng = s.eng ∧ u.fx = s.fx ∧ u.ctu = s.ctu ∧ u.links = s.links ∧ u.aplicS = s.aplicS ∧ u.aplicN = s.aplicN ∧ u.credits = s.credits ∧ u.clusters = s.clusters ∧ u.homes = s.homes ∧ u.pkts = s.pkts ∧ u.resp = s.resp ∧ u.dmg = s.dmg ∧ u.net = s.net ∧ u.dbInval = s.dbInval ∧ u.watch = s.watch ∧ u.out = s.out ∧ u.free = s.free ∧ u.fabric = s.fabric ∧ u.files = s.files := by
  unfold execProgramTableEntry at h
  (try dsimp only at h); (repeat' split at h) <;> (first | (simp only [Host.Outcome.next.injEq] at h; rw [← h]) | (simp only [reduceCtorEq] at h; done) | (simp only [Option.some.injEq] at h; rw [← h])) <;> simp [kept @State.addF_fr, kept @State.chanBad_fr, kept @State.chanError_fr, kept @State.readPa_fr, kept @State.setChan_fr, kept @State.wr_fr]

theorem execMove_fr (n : Fin 32) (s : State) {u : State} (h : execMove n s = .next u) : u.pending = s.pending ∧ u.flash = s.flash ∧ u.coldOpt = s.coldOpt ∧ u.imsic = s.imsic ∧ u.eng = s.eng ∧ u.fx = s.fx ∧ u.ctu = s.ctu ∧ u.links = s.links ∧ u.aplicS = s.aplicS ∧ u.aplicN = s.aplicN ∧ u.credits = s.credits ∧ u.pkts = s.pkts ∧ u.resp = s.resp ∧ u.out = s.out ∧ u.free = s.free ∧ u.fabric = s.fabric ∧ u.files = s.files := by
  unfold execMove at h
  (first | (simp only [Host.Outcome.next.injEq] at h; rw [← h]) | (simp only [reduceCtorEq] at h; done) | (simp only [Option.some.injEq] at h; rw [← h])); simp [kept @State.dmNext_fr, kept @State.setChan_fr]

theorem State.encMore_fr (s : State) (n : Nat) (left : Nat) : (State.encMore s n left).pending = s.pending ∧ (State.encMore s n left).flash = s.flash ∧ (State.encMore s n left).coldOpt = s.coldOpt ∧ (State.encMore s n left).imsic = s.imsic ∧ (State.encMore s n left).eng = s.eng ∧ (State.encMore s n left).fx = s.fx ∧ (State.encMore s n left).ctu = s.ctu ∧ (State.encMore s n left).links = s.links ∧ (State.encMore s n left).aplicS = s.aplicS ∧ (State.encMore s n left).aplicN = s.aplicN ∧ (State.encMore s n left).credits = s.credits ∧ (State.encMore s n left).pkts = s.pkts ∧ (State.encMore s n left).resp = s.resp ∧ (State.encMore s n left).out = s.out ∧ (State.encMore s n left).free = s.free ∧ (State.encMore s n left).fabric = s.fabric ∧ (State.encMore s n left).files = s.files := by
  generalize h : State.encMore s n left = u
  unfold State.encMore at h
  (try dsimp only at h); (repeat' split at h) <;> rw [← h] <;> simp [kept @State.dmNext_fr, kept @State.setChan_fr]

@[simp] theorem shutCol_beside (n : Nat) : KeepsM State.beside (shutCol n) := by
  unfold shutCol; (repeat' (first | with_reducible exact keepsM_pure _ _ | with_reducible exact keepsM_throw _ _ | with_reducible exact keepsM_get _ | with_reducible refine keepsM_bind ?_ (fun _ => ?_) | with_reducible refine keepsM_mapM (fun _ => ?_) _ | with_reducible refine keepsM_forM (fun _ => ?_) _ | with_reducible refine keepsM_foldlM (fun _ _ => ?_) _ _ | with_reducible refine doSt_keeps _ (fun _ => ?_) | with_reducible refine askSt_keeps _ (fun _ => ?_) | (simp [kept @flushCol_fr]; done) | (simp [*, kept @flushCol_fr]; done) | split | dsimp only))

theorem shutCol_fr (n : Nat) : KeepsM State.eng (shutCol n) ∧ KeepsM State.free (shutCol n) := by
  refine ⟨?_, ?_⟩ <;> (unfold shutCol; (repeat' (first | with_reducible exact keepsM_pure _ _ | with_reducible exact keepsM_throw _ _ | with_reducible exact keepsM_get _ | with_reducible refine keepsM_bind ?_ (fun _ => ?_) | with_reducible refine keepsM_mapM (fun _ => ?_) _ | with_reducible refine keepsM_forM (fun _ => ?_) _ | with_reducible refine keepsM_foldlM (fun _ _ => ?_) _ _ | with_reducible refine doSt_keeps _ (fun _ => ?_) | with_reducible refine askSt_keeps _ (fun _ => ?_) | (simp [kept @flushCol_fr]; done) | (simp [*, kept @flushCol_fr]; done) | split | dsimp only)))

@[simp] theorem openCol_beside (n : Nat) (pa : Nat) (level : Nat) : KeepsM State.beside (openCol n pa level) := by
  unfold openCol; (repeat' (first | with_reducible exact keepsM_pure _ _ | with_reducible exact keepsM_throw _ _ | with_reducible exact keepsM_get _ | with_reducible refine keepsM_bind ?_ (fun _ => ?_) | with_reducible refine keepsM_mapM (fun _ => ?_) _ | with_reducible refine keepsM_forM (fun _ => ?_) _ | with_reducible refine keepsM_foldlM (fun _ _ => ?_) _ _ | with_reducible refine doSt_keeps _ (fun _ => ?_) | with_reducible refine askSt_keeps _ (fun _ => ?_) | (simp [kept @dmRead_fr, kept @encEnsure_fr, kept @shutCol_fr]; done) | (simp [*, kept @dmRead_fr, kept @encEnsure_fr, kept @shutCol_fr]; done) | split | dsimp only))

theorem openCol_fr (n : Nat) (pa : Nat) (level : Nat) : KeepsM State.eng (openCol n pa level) ∧ KeepsM State.free (openCol n pa level) := by
  refine ⟨?_, ?_⟩ <;> (unfold openCol; (repeat' (first | with_reducible exact keepsM_pure _ _ | with_reducible exact keepsM_throw _ _ | with_reducible exact keepsM_get _ | with_reducible refine keepsM_bind ?_ (fun _ => ?_) | with_reducible refine keepsM_mapM (fun _ => ?_) _ | with_reducible refine keepsM_forM (fun _ => ?_) _ | with_reducible refine keepsM_foldlM (fun _ _ => ?_) _ _ | with_reducible refine doSt_keeps _ (fun _ => ?_) | with_reducible refine askSt_keeps _ (fun _ => ?_) | (simp [kept @dmRead_fr, kept @encEnsure_fr, kept @shutCol_fr]; done) | (simp [*, kept @dmRead_fr, kept @encEnsure_fr, kept @shutCol_fr]; done) | split | dsimp only)))

theorem execEncode_fr (n : Fin 32) (s : State) {u : State} (h : execEncode n s = .next u) : u.pending = s.pending ∧ u.flash = s.flash ∧ u.coldOpt = s.coldOpt ∧ u.imsic = s.imsic ∧ u.eng = s.eng ∧ u.fx = s.fx ∧ u.ctu = s.ctu ∧ u.links = s.links ∧ u.aplicS = s.aplicS ∧ u.aplicN = s.aplicN ∧ u.credits = s.credits ∧ u.pkts = s.pkts ∧ u.resp = s.resp ∧ u.out = s.out ∧ u.free = s.free ∧ u.fabric = s.fabric ∧ u.files = s.files := by
  unfold execEncode at h
  (try dsimp only at h); (repeat' split at h) <;> ((first | (simp only [Host.Outcome.next.injEq] at h; rw [← h]) | (simp only [reduceCtorEq] at h; done) | (simp only [Option.some.injEq] at h; rw [← h])); simp (disch := (intros; (repeat' split) <;> first | exact keepsM_pure _ _ | simp [*, kept @State.dmDrop_fr, kept @State.dmNext_fr, kept @State.encMore_fr, kept @State.setChan_fr, kept @openCol_fr])) [kept @State.dmDrop_fr, kept @State.dmNext_fr, kept @State.encMore_fr, kept @State.setChan_fr, kept @openCol_fr])

@[simp] theorem flushOpen_beside (n : Nat) (e : EncCol) (close : Bool) : KeepsM State.beside (flushOpen n e close) := by
  unfold flushOpen; (repeat' (first | with_reducible exact keepsM_pure _ _ | with_reducible exact keepsM_throw _ _ | with_reducible exact keepsM_get _ | with_reducible refine keepsM_bind ?_ (fun _ => ?_) | with_reducible refine keepsM_mapM (fun _ => ?_) _ | with_reducible refine keepsM_forM (fun _ => ?_) _ | with_reducible refine keepsM_foldlM (fun _ _ => ?_) _ _ | with_reducible refine doSt_keeps _ (fun _ => ?_) | with_reducible refine askSt_keeps _ (fun _ => ?_) | (simp [kept @flushCol_fr]; done) | (simp [*, kept @flushCol_fr]; done) | split | dsimp only))

theorem flushOpen_fr (n : Nat) (e : EncCol) (close : Bool) : KeepsM State.eng (flushOpen n e close) ∧ KeepsM State.free (flushOpen n e close) := by
  refine ⟨?_, ?_⟩ <;> (unfold flushOpen; (repeat' (first | with_reducible exact keepsM_pure _ _ | with_reducible exact keepsM_throw _ _ | with_reducible exact keepsM_get _ | with_reducible refine keepsM_bind ?_ (fun _ => ?_) | with_reducible refine keepsM_mapM (fun _ => ?_) _ | with_reducible refine keepsM_forM (fun _ => ?_) _ | with_reducible refine keepsM_foldlM (fun _ _ => ?_) _ _ | with_reducible refine doSt_keeps _ (fun _ => ?_) | with_reducible refine askSt_keeps _ (fun _ => ?_) | (simp [kept @flushCol_fr]; done) | (simp [*, kept @flushCol_fr]; done) | split | dsimp only)))

@[simp] theorem flushShut_beside (n : Nat) (e : EncCol) : KeepsM State.beside (flushShut n e) := by
  unfold flushShut; (repeat' (first | with_reducible exact keepsM_pure _ _ | with_reducible exact keepsM_throw _ _ | with_reducible exact keepsM_get _ | with_reducible refine keepsM_bind ?_ (fun _ => ?_) | with_reducible refine keepsM_mapM (fun _ => ?_) _ | with_reducible refine keepsM_forM (fun _ => ?_) _ | with_reducible refine keepsM_foldlM (fun _ _ => ?_) _ _ | with_reducible refine doSt_keeps _ (fun _ => ?_) | with_reducible refine askSt_keeps _ (fun _ => ?_) | (simp [kept @flushCol_fr]; done) | (simp [*, kept @flushCol_fr]; done) | split | dsimp only))

theorem flushShut_fr (n : Nat) (e : EncCol) : KeepsM State.eng (flushShut n e) ∧ KeepsM State.free (flushShut n e) := by
  refine ⟨?_, ?_⟩ <;> (unfold flushShut; (repeat' (first | with_reducible exact keepsM_pure _ _ | with_reducible exact keepsM_throw _ _ | with_reducible exact keepsM_get _ | with_reducible refine keepsM_bind ?_ (fun _ => ?_) | with_reducible refine keepsM_mapM (fun _ => ?_) _ | with_reducible refine keepsM_forM (fun _ => ?_) _ | with_reducible refine keepsM_foldlM (fun _ _ => ?_) _ _ | with_reducible refine doSt_keeps _ (fun _ => ?_) | with_reducible refine askSt_keeps _ (fun _ => ?_) | (simp [kept @flushCol_fr]; done) | (simp [*, kept @flushCol_fr]; done) | split | dsimp only)))

theorem State.dmFlush_fr (s : State) (n : Nat) (i : DmIns) : (State.dmFlush s n i).pending = s.pending ∧ (State.dmFlush s n i).flash = s.flash ∧ (State.dmFlush s n i).coldOpt = s.coldOpt ∧ (State.dmFlush s n i).imsic = s.imsic ∧ (State.dmFlush s n i).eng = s.eng ∧ (State.dmFlush s n i).fx = s.fx ∧ (State.dmFlush s n i).ctu = s.ctu ∧ (State.dmFlush s n i).links = s.links ∧ (State.dmFlush s n i).aplicS = s.aplicS ∧ (State.dmFlush s n i).aplicN = s.aplicN ∧ (State.dmFlush s n i).credits = s.credits ∧ (State.dmFlush s n i).pkts = s.pkts ∧ (State.dmFlush s n i).resp = s.resp ∧ (State.dmFlush s n i).out = s.out ∧ (State.dmFlush s n i).free = s.free ∧ (State.dmFlush s n i).fabric = s.fabric ∧ (State.dmFlush s n i).files = s.files := by
  generalize h : State.dmFlush s n i = u
  unfold State.dmFlush at h
  (try dsimp only at h); (repeat' split at h) <;> rw [← h] <;> simp [kept @State.dmNext_fr, kept @flushOpen_fr]

theorem execFlush_fr (n : Fin 32) (s : State) {u : State} (h : execFlush n s = .next u) : u.pending = s.pending ∧ u.flash = s.flash ∧ u.coldOpt = s.coldOpt ∧ u.imsic = s.imsic ∧ u.eng = s.eng ∧ u.fx = s.fx ∧ u.ctu = s.ctu ∧ u.links = s.links ∧ u.aplicS = s.aplicS ∧ u.aplicN = s.aplicN ∧ u.credits = s.credits ∧ u.pkts = s.pkts ∧ u.resp = s.resp ∧ u.out = s.out ∧ u.free = s.free ∧ u.fabric = s.fabric ∧ u.files = s.files := by
  unfold execFlush at h
  (first | (simp only [Host.Outcome.next.injEq] at h; rw [← h]) | (simp only [reduceCtorEq] at h; done) | (simp only [Option.some.injEq] at h; rw [← h])); simp [kept @State.dmDrop_fr, kept @State.dmFlush_fr]

theorem execLoop_fr (n : Fin 32) (s : State) {u : State} (h : execLoop n s = .next u) : u.pending = s.pending ∧ u.flash = s.flash ∧ u.coldOpt = s.coldOpt ∧ u.imsic = s.imsic ∧ u.eng = s.eng ∧ u.fx = s.fx ∧ u.ctu = s.ctu ∧ u.links = s.links ∧ u.aplicS = s.aplicS ∧ u.aplicN = s.aplicN ∧ u.credits = s.credits ∧ u.pkts = s.pkts ∧ u.resp = s.resp ∧ u.out = s.out ∧ u.free = s.free ∧ u.fabric = s.fabric ∧ u.files = s.files := by
  unfold execLoop at h
  (first | (simp only [Host.Outcome.next.injEq] at h; rw [← h]) | (simp only [reduceCtorEq] at h; done) | (simp only [Option.some.injEq] at h; rw [← h])); simp [kept @State.dmLoop_fr]

theorem execWait_fr (n : Fin 32) (s : State) {u : State} (h : execWait n s = .next u) : u.pending = s.pending ∧ u.flash = s.flash ∧ u.coldOpt = s.coldOpt ∧ u.imsic = s.imsic ∧ u.eng = s.eng ∧ u.fx = s.fx ∧ u.ctu = s.ctu ∧ u.links = s.links ∧ u.aplicS = s.aplicS ∧ u.aplicN = s.aplicN ∧ u.credits = s.credits ∧ u.pkts = s.pkts ∧ u.resp = s.resp ∧ u.out = s.out ∧ u.free = s.free ∧ u.fabric = s.fabric ∧ u.files = s.files := by
  unfold execWait at h
  (first | (simp only [Host.Outcome.next.injEq] at h; rw [← h]) | (simp only [reduceCtorEq] at h; done) | (simp only [Option.some.injEq] at h; rw [← h])); simp [kept @State.dmNext_fr, kept @State.setChan_fr]

theorem execWaitPoll_fr (n : Fin 32) (s : State) {u : State} (h : execWaitPoll n s = .next u) : u.pending = s.pending ∧ u.flash = s.flash ∧ u.coldOpt = s.coldOpt ∧ u.imsic = s.imsic ∧ u.eng = s.eng ∧ u.fx = s.fx ∧ u.ctu = s.ctu ∧ u.links = s.links ∧ u.aplicS = s.aplicS ∧ u.aplicN = s.aplicN ∧ u.credits = s.credits ∧ u.pkts = s.pkts ∧ u.resp = s.resp ∧ u.out = s.out ∧ u.free = s.free ∧ u.fabric = s.fabric ∧ u.files = s.files := by
  unfold execWaitPoll at h
  (try dsimp only at h); (repeat' split at h) <;> (first | (simp only [Host.Outcome.next.injEq] at h; rw [← h]) | (simp only [reduceCtorEq] at h; done) | (simp only [Option.some.injEq] at h; rw [← h])) <;> simp [kept @State.dmNext_fr, kept @State.readPa_fr]

theorem execWaitTimeout_fr (n : Fin 32) (s : State) {u : State} (h : execWaitTimeout n s = .next u) : u.pending = s.pending ∧ u.flash = s.flash ∧ u.coldOpt = s.coldOpt ∧ u.imsic = s.imsic ∧ u.eng = s.eng ∧ u.fx = s.fx ∧ u.ctu = s.ctu ∧ u.links = s.links ∧ u.aplicS = s.aplicS ∧ u.aplicN = s.aplicN ∧ u.credits = s.credits ∧ u.pkts = s.pkts ∧ u.resp = s.resp ∧ u.out = s.out ∧ u.free = s.free ∧ u.fabric = s.fabric ∧ u.files = s.files := by
  unfold execWaitTimeout at h
  (try dsimp only at h); (repeat' split at h) <;> (first | (simp only [Host.Outcome.next.injEq] at h; rw [← h]) | (simp only [reduceCtorEq] at h; done) | (simp only [Option.some.injEq] at h; rw [← h])) <;> simp [kept @State.dmNext_fr]

theorem execSignal_fr (n : Fin 32) (s : State) {u : State} (h : execSignal n s = .next u) : u.pending = s.pending ∧ u.flash = s.flash ∧ u.coldOpt = s.coldOpt ∧ u.eng = s.eng ∧ u.fx = s.fx ∧ u.ctu = s.ctu ∧ u.links = s.links ∧ u.aplicS = s.aplicS ∧ u.aplicN = s.aplicN ∧ u.credits = s.credits ∧ u.pkts = s.pkts ∧ u.resp = s.resp ∧ u.out = s.out ∧ u.free = s.free ∧ u.fabric = s.fabric ∧ u.files = s.files := by
  unfold execSignal at h
  (first | (simp only [Host.Outcome.next.injEq] at h; rw [← h]) | (simp only [reduceCtorEq] at h; done) | (simp only [Option.some.injEq] at h; rw [← h])); simp [kept @State.chanMsi_fr, kept @State.dmNext_fr, kept @State.writePa_fr]

theorem State.dmFin_fr (s : State) (n : Nat) (i : DmIns) : (State.dmFin s n i).pending = s.pending ∧ (State.dmFin s n i).flash = s.flash ∧ (State.dmFin s n i).coldOpt = s.coldOpt ∧ (State.dmFin s n i).imsic = s.imsic ∧ (State.dmFin s n i).eng = s.eng ∧ (State.dmFin s n i).fx = s.fx ∧ (State.dmFin s n i).ctu = s.ctu ∧ (State.dmFin s n i).links = s.links ∧ (State.dmFin s n i).aplicS = s.aplicS ∧ (State.dmFin s n i).aplicN = s.aplicN ∧ (State.dmFin s n i).credits = s.credits ∧ (State.dmFin s n i).pkts = s.pkts ∧ (State.dmFin s n i).resp = s.resp ∧ (State.dmFin s n i).out = s.out ∧ (State.dmFin s n i).free = s.free ∧ (State.dmFin s n i).fabric = s.fabric ∧ (State.dmFin s n i).files = s.files := by
  generalize h : State.dmFin s n i = u
  unfold State.dmFin at h
  rw [← h]; simp [kept @State.dmStatus_fr, kept @State.setChan_fr]

theorem State.dmEnd_fr (s : State) (n : Nat) (i : DmIns) : (State.dmEnd s n i).pending = s.pending ∧ (State.dmEnd s n i).flash = s.flash ∧ (State.dmEnd s n i).coldOpt = s.coldOpt ∧ (State.dmEnd s n i).imsic = s.imsic ∧ (State.dmEnd s n i).eng = s.eng ∧ (State.dmEnd s n i).fx = s.fx ∧ (State.dmEnd s n i).ctu = s.ctu ∧ (State.dmEnd s n i).links = s.links ∧ (State.dmEnd s n i).aplicS = s.aplicS ∧ (State.dmEnd s n i).aplicN = s.aplicN ∧ (State.dmEnd s n i).credits = s.credits ∧ (State.dmEnd s n i).pkts = s.pkts ∧ (State.dmEnd s n i).resp = s.resp ∧ (State.dmEnd s n i).out = s.out ∧ (State.dmEnd s n i).free = s.free ∧ (State.dmEnd s n i).fabric = s.fabric ∧ (State.dmEnd s n i).files = s.files := by
  generalize h : State.dmEnd s n i = u
  unfold State.dmEnd at h
  (try dsimp only at h); (repeat' split at h) <;> rw [← h] <;> simp [kept @State.dmFin_fr, kept @flushShut_fr]

theorem execDmEnd_fr (n : Fin 32) (s : State) {u : State} (h : execDmEnd n s = .next u) : u.pending = s.pending ∧ u.flash = s.flash ∧ u.coldOpt = s.coldOpt ∧ u.imsic = s.imsic ∧ u.eng = s.eng ∧ u.fx = s.fx ∧ u.ctu = s.ctu ∧ u.links = s.links ∧ u.aplicS = s.aplicS ∧ u.aplicN = s.aplicN ∧ u.credits = s.credits ∧ u.pkts = s.pkts ∧ u.resp = s.resp ∧ u.out = s.out ∧ u.free = s.free ∧ u.fabric = s.fabric ∧ u.files = s.files := by
  unfold execDmEnd at h
  (first | (simp only [Host.Outcome.next.injEq] at h; rw [← h]) | (simp only [reduceCtorEq] at h; done) | (simp only [Option.some.injEq] at h; rw [← h])); simp [kept @State.dmEnd_fr, kept @State.dmSelfEnd_fr]

theorem execDmReservedOpcode_fr (n : Fin 32) (s : State) {u : State} (h : execDmReservedOpcode n s = .next u) : u.pending = s.pending ∧ u.flash = s.flash ∧ u.coldOpt = s.coldOpt ∧ u.imsic = s.imsic ∧ u.eng = s.eng ∧ u.fx = s.fx ∧ u.ctu = s.ctu ∧ u.links = s.links ∧ u.aplicS = s.aplicS ∧ u.aplicN = s.aplicN ∧ u.credits = s.credits ∧ u.pkts = s.pkts ∧ u.resp = s.resp ∧ u.out = s.out ∧ u.free = s.free ∧ u.fabric = s.fabric ∧ u.files = s.files := by
  unfold execDmReservedOpcode at h
  (first | (simp only [Host.Outcome.next.injEq] at h; rw [← h]) | (simp only [reduceCtorEq] at h; done) | (simp only [Option.some.injEq] at h; rw [← h])); simp [kept @State.dmSelfEnd_fr]

theorem State.moveLine_fr (s : State) (n : Nat) (src : Nat) (dst : Nat) (left : Nat) : (State.moveLine s n src dst left).pending = s.pending ∧ (State.moveLine s n src dst left).flash = s.flash ∧ (State.moveLine s n src dst left).coldOpt = s.coldOpt ∧ (State.moveLine s n src dst left).imsic = s.imsic ∧ (State.moveLine s n src dst left).eng = s.eng ∧ (State.moveLine s n src dst left).fx = s.fx ∧ (State.moveLine s n src dst left).ctu = s.ctu ∧ (State.moveLine s n src dst left).links = s.links ∧ (State.moveLine s n src dst left).aplicS = s.aplicS ∧ (State.moveLine s n src dst left).aplicN = s.aplicN ∧ (State.moveLine s n src dst left).credits = s.credits ∧ (State.moveLine s n src dst left).pkts = s.pkts ∧ (State.moveLine s n src dst left).resp = s.resp ∧ (State.moveLine s n src dst left).out = s.out ∧ (State.moveLine s n src dst left).free = s.free ∧ (State.moveLine s n src dst left).fabric = s.fabric ∧ (State.moveLine s n src dst left).files = s.files := by
  generalize h : State.moveLine s n src dst left = u
  unfold State.moveLine at h
  rw [← h]; simp [kept @State.dmNext_fr, kept @State.readPa_fr, kept @State.setChan_fr, kept @State.writePa_fr]

@[simp] theorem State.encodeRows_pending (s : State) (n left : Nat) : (s.encodeRows n left).pending = s.pending := by
  unfold State.encodeRows
  split
  · simp [kept @State.dmDrop_fr, kept @State.dmNext_fr, kept @State.encMore_fr, kept @State.setChan_fr, kept @takeRowsOf_fr]
  · rename_i e _
    have hm : KeepsM State.pending (takeRowsOf n e left) := by simp [kept @State.dmDrop_fr, kept @State.dmNext_fr, kept @State.encMore_fr, kept @State.setChan_fr, kept @takeRowsOf_fr]
    have h := fun r => hm.snd (s := s) (r := r)
    split <;> rename_i e <;> have h := h _ e <;> simpa [kept @State.dmDrop_fr, kept @State.dmNext_fr, kept @State.encMore_fr, kept @State.setChan_fr, kept @takeRowsOf_fr] using h

@[simp] theorem State.encodeRows_files (s : State) (n left : Nat) : (s.encodeRows n left).files = s.files := by
  unfold State.encodeRows
  split
  · simp [kept @State.dmDrop_fr, kept @State.dmNext_fr, kept @State.encMore_fr, kept @State.setChan_fr, kept @takeRowsOf_fr]
  · rename_i e _
    have hm : KeepsM State.files (takeRowsOf n e left) := by simp [kept @State.dmDrop_fr, kept @State.dmNext_fr, kept @State.encMore_fr, kept @State.setChan_fr, kept @takeRowsOf_fr]
    have h := fun r => hm.snd (s := s) (r := r)
    split <;> rename_i e <;> have h := h _ e <;> simpa [kept @State.dmDrop_fr, kept @State.dmNext_fr, kept @State.encMore_fr, kept @State.setChan_fr, kept @takeRowsOf_fr] using h

@[simp] theorem State.encodeRows_fabric (s : State) (n left : Nat) : (s.encodeRows n left).fabric = s.fabric := by
  unfold State.encodeRows
  split
  · simp [kept @State.dmDrop_fr, kept @State.dmNext_fr, kept @State.encMore_fr, kept @State.setChan_fr, kept @takeRowsOf_fr]
  · rename_i e _
    have hm : KeepsM State.fabric (takeRowsOf n e left) := by simp [kept @State.dmDrop_fr, kept @State.dmNext_fr, kept @State.encMore_fr, kept @State.setChan_fr, kept @takeRowsOf_fr]
    have h := fun r => hm.snd (s := s) (r := r)
    split <;> rename_i e <;> have h := h _ e <;> simpa [kept @State.dmDrop_fr, kept @State.dmNext_fr, kept @State.encMore_fr, kept @State.setChan_fr, kept @takeRowsOf_fr] using h

@[simp] theorem State.encodeRows_flash (s : State) (n left : Nat) : (s.encodeRows n left).flash = s.flash := by
  unfold State.encodeRows
  split
  · simp [kept @State.dmDrop_fr, kept @State.dmNext_fr, kept @State.encMore_fr, kept @State.setChan_fr, kept @takeRowsOf_fr]
  · rename_i e _
    have hm : KeepsM State.flash (takeRowsOf n e left) := by simp [kept @State.dmDrop_fr, kept @State.dmNext_fr, kept @State.encMore_fr, kept @State.setChan_fr, kept @takeRowsOf_fr]
    have h := fun r => hm.snd (s := s) (r := r)
    split <;> rename_i e <;> have h := h _ e <;> simpa [kept @State.dmDrop_fr, kept @State.dmNext_fr, kept @State.encMore_fr, kept @State.setChan_fr, kept @takeRowsOf_fr] using h

@[simp] theorem State.encodeRows_coldOpt (s : State) (n left : Nat) : (s.encodeRows n left).coldOpt = s.coldOpt := by
  unfold State.encodeRows
  split
  · simp [kept @State.dmDrop_fr, kept @State.dmNext_fr, kept @State.encMore_fr, kept @State.setChan_fr, kept @takeRowsOf_fr]
  · rename_i e _
    have hm : KeepsM State.coldOpt (takeRowsOf n e left) := by simp [kept @State.dmDrop_fr, kept @State.dmNext_fr, kept @State.encMore_fr, kept @State.setChan_fr, kept @takeRowsOf_fr]
    have h := fun r => hm.snd (s := s) (r := r)
    split <;> rename_i e <;> have h := h _ e <;> simpa [kept @State.dmDrop_fr, kept @State.dmNext_fr, kept @State.encMore_fr, kept @State.setChan_fr, kept @takeRowsOf_fr] using h

@[simp] theorem State.encodeRows_imsic (s : State) (n left : Nat) : (s.encodeRows n left).imsic = s.imsic := by
  unfold State.encodeRows
  split
  · simp [kept @State.dmDrop_fr, kept @State.dmNext_fr, kept @State.encMore_fr, kept @State.setChan_fr, kept @takeRowsOf_fr]
  · rename_i e _
    have hm : KeepsM State.imsic (takeRowsOf n e left) := by simp [kept @State.dmDrop_fr, kept @State.dmNext_fr, kept @State.encMore_fr, kept @State.setChan_fr, kept @takeRowsOf_fr]
    have h := fun r => hm.snd (s := s) (r := r)
    split <;> rename_i e <;> have h := h _ e <;> simpa [kept @State.dmDrop_fr, kept @State.dmNext_fr, kept @State.encMore_fr, kept @State.setChan_fr, kept @takeRowsOf_fr] using h

@[simp] theorem State.encodeRows_eng (s : State) (n left : Nat) : (s.encodeRows n left).eng = s.eng := by
  unfold State.encodeRows
  split
  · simp [kept @State.dmDrop_fr, kept @State.dmNext_fr, kept @State.encMore_fr, kept @State.setChan_fr, kept @takeRowsOf_fr]
  · rename_i e _
    have hm : KeepsM State.eng (takeRowsOf n e left) := by simp [kept @State.dmDrop_fr, kept @State.dmNext_fr, kept @State.encMore_fr, kept @State.setChan_fr, kept @takeRowsOf_fr]
    have h := fun r => hm.snd (s := s) (r := r)
    split <;> rename_i e <;> have h := h _ e <;> simpa [kept @State.dmDrop_fr, kept @State.dmNext_fr, kept @State.encMore_fr, kept @State.setChan_fr, kept @takeRowsOf_fr] using h

@[simp] theorem State.encodeRows_fx (s : State) (n left : Nat) : (s.encodeRows n left).fx = s.fx := by
  unfold State.encodeRows
  split
  · simp [kept @State.dmDrop_fr, kept @State.dmNext_fr, kept @State.encMore_fr, kept @State.setChan_fr, kept @takeRowsOf_fr]
  · rename_i e _
    have hm : KeepsM State.fx (takeRowsOf n e left) := by simp [kept @State.dmDrop_fr, kept @State.dmNext_fr, kept @State.encMore_fr, kept @State.setChan_fr, kept @takeRowsOf_fr]
    have h := fun r => hm.snd (s := s) (r := r)
    split <;> rename_i e <;> have h := h _ e <;> simpa [kept @State.dmDrop_fr, kept @State.dmNext_fr, kept @State.encMore_fr, kept @State.setChan_fr, kept @takeRowsOf_fr] using h

@[simp] theorem State.encodeRows_ctu (s : State) (n left : Nat) : (s.encodeRows n left).ctu = s.ctu := by
  unfold State.encodeRows
  split
  · simp [kept @State.dmDrop_fr, kept @State.dmNext_fr, kept @State.encMore_fr, kept @State.setChan_fr, kept @takeRowsOf_fr]
  · rename_i e _
    have hm : KeepsM State.ctu (takeRowsOf n e left) := by simp [kept @State.dmDrop_fr, kept @State.dmNext_fr, kept @State.encMore_fr, kept @State.setChan_fr, kept @takeRowsOf_fr]
    have h := fun r => hm.snd (s := s) (r := r)
    split <;> rename_i e <;> have h := h _ e <;> simpa [kept @State.dmDrop_fr, kept @State.dmNext_fr, kept @State.encMore_fr, kept @State.setChan_fr, kept @takeRowsOf_fr] using h

@[simp] theorem State.encodeRows_links (s : State) (n left : Nat) : (s.encodeRows n left).links = s.links := by
  unfold State.encodeRows
  split
  · simp [kept @State.dmDrop_fr, kept @State.dmNext_fr, kept @State.encMore_fr, kept @State.setChan_fr, kept @takeRowsOf_fr]
  · rename_i e _
    have hm : KeepsM State.links (takeRowsOf n e left) := by simp [kept @State.dmDrop_fr, kept @State.dmNext_fr, kept @State.encMore_fr, kept @State.setChan_fr, kept @takeRowsOf_fr]
    have h := fun r => hm.snd (s := s) (r := r)
    split <;> rename_i e <;> have h := h _ e <;> simpa [kept @State.dmDrop_fr, kept @State.dmNext_fr, kept @State.encMore_fr, kept @State.setChan_fr, kept @takeRowsOf_fr] using h

@[simp] theorem State.encodeRows_aplicS (s : State) (n left : Nat) : (s.encodeRows n left).aplicS = s.aplicS := by
  unfold State.encodeRows
  split
  · simp [kept @State.dmDrop_fr, kept @State.dmNext_fr, kept @State.encMore_fr, kept @State.setChan_fr, kept @takeRowsOf_fr]
  · rename_i e _
    have hm : KeepsM State.aplicS (takeRowsOf n e left) := by simp [kept @State.dmDrop_fr, kept @State.dmNext_fr, kept @State.encMore_fr, kept @State.setChan_fr, kept @takeRowsOf_fr]
    have h := fun r => hm.snd (s := s) (r := r)
    split <;> rename_i e <;> have h := h _ e <;> simpa [kept @State.dmDrop_fr, kept @State.dmNext_fr, kept @State.encMore_fr, kept @State.setChan_fr, kept @takeRowsOf_fr] using h

@[simp] theorem State.encodeRows_aplicN (s : State) (n left : Nat) : (s.encodeRows n left).aplicN = s.aplicN := by
  unfold State.encodeRows
  split
  · simp [kept @State.dmDrop_fr, kept @State.dmNext_fr, kept @State.encMore_fr, kept @State.setChan_fr, kept @takeRowsOf_fr]
  · rename_i e _
    have hm : KeepsM State.aplicN (takeRowsOf n e left) := by simp [kept @State.dmDrop_fr, kept @State.dmNext_fr, kept @State.encMore_fr, kept @State.setChan_fr, kept @takeRowsOf_fr]
    have h := fun r => hm.snd (s := s) (r := r)
    split <;> rename_i e <;> have h := h _ e <;> simpa [kept @State.dmDrop_fr, kept @State.dmNext_fr, kept @State.encMore_fr, kept @State.setChan_fr, kept @takeRowsOf_fr] using h

@[simp] theorem State.encodeRows_credits (s : State) (n left : Nat) : (s.encodeRows n left).credits = s.credits := by
  unfold State.encodeRows
  split
  · simp [kept @State.dmDrop_fr, kept @State.dmNext_fr, kept @State.encMore_fr, kept @State.setChan_fr, kept @takeRowsOf_fr]
  · rename_i e _
    have hm : KeepsM State.credits (takeRowsOf n e left) := by simp [kept @State.dmDrop_fr, kept @State.dmNext_fr, kept @State.encMore_fr, kept @State.setChan_fr, kept @takeRowsOf_fr]
    have h := fun r => hm.snd (s := s) (r := r)
    split <;> rename_i e <;> have h := h _ e <;> simpa [kept @State.dmDrop_fr, kept @State.dmNext_fr, kept @State.encMore_fr, kept @State.setChan_fr, kept @takeRowsOf_fr] using h

@[simp] theorem State.encodeRows_pkts (s : State) (n left : Nat) : (s.encodeRows n left).pkts = s.pkts := by
  unfold State.encodeRows
  split
  · simp [kept @State.dmDrop_fr, kept @State.dmNext_fr, kept @State.encMore_fr, kept @State.setChan_fr, kept @takeRowsOf_fr]
  · rename_i e _
    have hm : KeepsM State.pkts (takeRowsOf n e left) := by simp [kept @State.dmDrop_fr, kept @State.dmNext_fr, kept @State.encMore_fr, kept @State.setChan_fr, kept @takeRowsOf_fr]
    have h := fun r => hm.snd (s := s) (r := r)
    split <;> rename_i e <;> have h := h _ e <;> simpa [kept @State.dmDrop_fr, kept @State.dmNext_fr, kept @State.encMore_fr, kept @State.setChan_fr, kept @takeRowsOf_fr] using h

@[simp] theorem State.encodeRows_resp (s : State) (n left : Nat) : (s.encodeRows n left).resp = s.resp := by
  unfold State.encodeRows
  split
  · simp [kept @State.dmDrop_fr, kept @State.dmNext_fr, kept @State.encMore_fr, kept @State.setChan_fr, kept @takeRowsOf_fr]
  · rename_i e _
    have hm : KeepsM State.resp (takeRowsOf n e left) := by simp [kept @State.dmDrop_fr, kept @State.dmNext_fr, kept @State.encMore_fr, kept @State.setChan_fr, kept @takeRowsOf_fr]
    have h := fun r => hm.snd (s := s) (r := r)
    split <;> rename_i e <;> have h := h _ e <;> simpa [kept @State.dmDrop_fr, kept @State.dmNext_fr, kept @State.encMore_fr, kept @State.setChan_fr, kept @takeRowsOf_fr] using h

@[simp] theorem State.encodeRows_out (s : State) (n left : Nat) : (s.encodeRows n left).out = s.out := by
  unfold State.encodeRows
  split
  · simp [kept @State.dmDrop_fr, kept @State.dmNext_fr, kept @State.encMore_fr, kept @State.setChan_fr, kept @takeRowsOf_fr]
  · rename_i e _
    have hm : KeepsM State.out (takeRowsOf n e left) := by simp [kept @State.dmDrop_fr, kept @State.dmNext_fr, kept @State.encMore_fr, kept @State.setChan_fr, kept @takeRowsOf_fr]
    have h := fun r => hm.snd (s := s) (r := r)
    split <;> rename_i e <;> have h := h _ e <;> simpa [kept @State.dmDrop_fr, kept @State.dmNext_fr, kept @State.encMore_fr, kept @State.setChan_fr, kept @takeRowsOf_fr] using h

@[simp] theorem State.encodeRows_free (s : State) (n left : Nat) : (s.encodeRows n left).free = s.free := by
  unfold State.encodeRows
  split
  · simp [kept @State.dmDrop_fr, kept @State.dmNext_fr, kept @State.encMore_fr, kept @State.setChan_fr, kept @takeRowsOf_fr]
  · rename_i e _
    have hm : KeepsM State.free (takeRowsOf n e left) := by simp [kept @State.dmDrop_fr, kept @State.dmNext_fr, kept @State.encMore_fr, kept @State.setChan_fr, kept @takeRowsOf_fr]
    have h := fun r => hm.snd (s := s) (r := r)
    split <;> rename_i e <;> have h := h _ e <;> simpa [kept @State.dmDrop_fr, kept @State.dmNext_fr, kept @State.encMore_fr, kept @State.setChan_fr, kept @takeRowsOf_fr] using h

theorem execDmReadReturn_fr (n : Fin 32) (s : State) {u : State} (h : execDmReadReturn n s = .next u) : u.pending = s.pending ∧ u.flash = s.flash ∧ u.coldOpt = s.coldOpt ∧ u.imsic = s.imsic ∧ u.eng = s.eng ∧ u.fx = s.fx ∧ u.ctu = s.ctu ∧ u.links = s.links ∧ u.aplicS = s.aplicS ∧ u.aplicN = s.aplicN ∧ u.credits = s.credits ∧ u.pkts = s.pkts ∧ u.resp = s.resp ∧ u.out = s.out ∧ u.free = s.free ∧ u.fabric = s.fabric ∧ u.files = s.files := by
  unfold execDmReadReturn at h
  (try dsimp only at h); (repeat' split at h) <;> (first | (simp only [Host.Outcome.next.injEq] at h; rw [← h]) | (simp only [reduceCtorEq] at h; done) | (simp only [Option.some.injEq] at h; rw [← h])) <;> simp [kept @State.moveLine_fr]

theorem execFooterWrite_fr (n : Fin 32) (s : State) {u : State} (h : execFooterWrite n s = .next u) : u.pending = s.pending ∧ u.flash = s.flash ∧ u.coldOpt = s.coldOpt ∧ u.imsic = s.imsic ∧ u.eng = s.eng ∧ u.fx = s.fx ∧ u.ctu = s.ctu ∧ u.links = s.links ∧ u.aplicS = s.aplicS ∧ u.aplicN = s.aplicN ∧ u.credits = s.credits ∧ u.pkts = s.pkts ∧ u.resp = s.resp ∧ u.out = s.out ∧ u.free = s.free ∧ u.fabric = s.fabric ∧ u.files = s.files := by
  unfold execFooterWrite at h
  (try dsimp only at h); (repeat' split at h) <;> (first | (simp only [Host.Outcome.next.injEq] at h; rw [← h]) | (simp only [reduceCtorEq] at h; done) | (simp only [Option.some.injEq] at h; rw [← h])) <;> simp [kept @State.closeRefused_fr, kept @State.setChan_fr, kept @State.writePa_fr]

theorem execEncodeBlockWriteBack_fr (n : Fin 32) (s : State) {u : State} (h : execEncodeBlockWriteBack n s = .next u) : u.pending = s.pending ∧ u.flash = s.flash ∧ u.coldOpt = s.coldOpt ∧ u.imsic = s.imsic ∧ u.eng = s.eng ∧ u.fx = s.fx ∧ u.ctu = s.ctu ∧ u.links = s.links ∧ u.aplicS = s.aplicS ∧ u.aplicN = s.aplicN ∧ u.credits = s.credits ∧ u.pkts = s.pkts ∧ u.resp = s.resp ∧ u.out = s.out ∧ u.free = s.free ∧ u.fabric = s.fabric ∧ u.files = s.files := by
  unfold execEncodeBlockWriteBack at h
  (try dsimp only at h); (repeat' split at h) <;> (first | (simp only [Host.Outcome.next.injEq] at h; rw [← h]) | (simp only [reduceCtorEq] at h; done) | (simp only [Option.some.injEq] at h; rw [← h])) <;> simp [kept @State.closeRefused_fr, kept @State.setChan_fr, kept @State.writePa_fr]

theorem execProgramDone_fr (n : Fin 32) (s : State) {u : State} (h : execProgramDone n s = .next u) : u.pending = s.pending ∧ u.flash = s.flash ∧ u.coldOpt = s.coldOpt ∧ u.mem = s.mem ∧ u.harts = s.harts ∧ u.eng = s.eng ∧ u.fx = s.fx ∧ u.ctu = s.ctu ∧ u.links = s.links ∧ u.aplicS = s.aplicS ∧ u.aplicN = s.aplicN ∧ u.credits = s.credits ∧ u.clusters = s.clusters ∧ u.homes = s.homes ∧ u.pkts = s.pkts ∧ u.resp = s.resp ∧ u.wires = s.wires ∧ u.dmg = s.dmg ∧ u.wq = s.wq ∧ u.net = s.net ∧ u.dbInval = s.dbInval ∧ u.watch = s.watch ∧ u.pkg = s.pkg ∧ u.out = s.out ∧ u.free = s.free ∧ u.fabric = s.fabric ∧ u.files = s.files := by
  unfold execProgramDone at h
  (try dsimp only at h); (repeat' split at h) <;> (first | (simp only [Host.Outcome.next.injEq] at h; rw [← h]) | (simp only [reduceCtorEq] at h; done) | (simp only [Option.some.injEq] at h; rw [← h])) <;> simp [kept @State.addF_fr, kept @State.chanMsi_fr, kept @State.setChan_fr, kept @State.wr_fr]

theorem execChannelDrainDone_fr (n : Fin 32) (s : State) {u : State} (h : execChannelDrainDone n s = .next u) : u.pending = s.pending ∧ u.flash = s.flash ∧ u.coldOpt = s.coldOpt ∧ u.mem = s.mem ∧ u.harts = s.harts ∧ u.mram = s.mram ∧ u.imsic = s.imsic ∧ u.eng = s.eng ∧ u.dm = s.dm ∧ u.fx = s.fx ∧ u.ctu = s.ctu ∧ u.links = s.links ∧ u.aplicS = s.aplicS ∧ u.aplicN = s.aplicN ∧ u.credits = s.credits ∧ u.clusters = s.clusters ∧ u.homes = s.homes ∧ u.pkts = s.pkts ∧ u.resp = s.resp ∧ u.wires = s.wires ∧ u.dmg = s.dmg ∧ u.wq = s.wq ∧ u.net = s.net ∧ u.dbInval = s.dbInval ∧ u.watch = s.watch ∧ u.pkg = s.pkg ∧ u.pmc = s.pmc ∧ u.fwLog = s.fwLog ∧ u.out = s.out ∧ u.free = s.free ∧ u.fabric = s.fabric ∧ u.files = s.files := by
  unfold execChannelDrainDone at h
  (first | (simp only [Host.Outcome.next.injEq] at h; rw [← h]) | (simp only [reduceCtorEq] at h; done) | (simp only [Option.some.injEq] at h; rw [← h])); simp [kept @State.wr_fr]

end Sys2Proof.Machine
end

