-- ==== Sys2Proof/Laws/Frame/PcieCmds.lean ====
section
/-! SUPPORT. What the operations of Machine/PcieCmds.lean leave unchanged. -/

set_option Elab.async false
set_option linter.all false

namespace Sys2Proof.Machine
open Sys2Proof

theorem State.dmaRefused_fr (s : State) (j : Nat) (addr : Nat) (write : Bool) (logged : Bool) : (State.dmaRefused s j addr write logged).pending = s.pending ∧ (State.dmaRefused s j addr write logged).flash = s.flash ∧ (State.dmaRefused s j addr write logged).coldOpt = s.coldOpt ∧ (State.dmaRefused s j addr write logged).mem = s.mem ∧ (State.dmaRefused s j addr write logged).harts = s.harts ∧ (State.dmaRefused s j addr write logged).mram = s.mram ∧ (State.dmaRefused s j addr write logged).imsic = s.imsic ∧ (State.dmaRefused s j addr write logged).eng = s.eng ∧ (State.dmaRefused s j addr write logged).dm = s.dm ∧ (State.dmaRefused s j addr write logged).fx = s.fx ∧ (State.dmaRefused s j addr write logged).ctu = s.ctu ∧ (State.dmaRefused s j addr write logged).links = s.links ∧ (State.dmaRefused s j addr write logged).aplicS = s.aplicS ∧ (State.dmaRefused s j addr write logged).aplicN = s.aplicN ∧ (State.dmaRefused s j addr write logged).credits = s.credits ∧ (State.dmaRefused s j addr write logged).clusters = s.clusters ∧ (State.dmaRefused s j addr write logged).homes = s.homes ∧ (State.dmaRefused s j addr write logged).pkts = s.pkts ∧ (State.dmaRefused s j addr write logged).resp = s.resp ∧ (State.dmaRefused s j addr write logged).regs = s.regs ∧ (State.dmaRefused s j addr write logged).dmg = s.dmg ∧ (State.dmaRefused s j addr write logged).wq = s.wq ∧ (State.dmaRefused s j addr write logged).net = s.net ∧ (State.dmaRefused s j addr write logged).dbInval = s.dbInval ∧ (State.dmaRefused s j addr write logged).watch = s.watch ∧ (State.dmaRefused s j addr write logged).pkg = s.pkg ∧ (State.dmaRefused s j addr write logged).pmc = s.pmc ∧ (State.dmaRefused s j addr write logged).out = s.out ∧ (State.dmaRefused s j addr write logged).free = s.free ∧ (State.dmaRefused s j addr write logged).fabric = s.fabric ∧ (State.dmaRefused s j addr write logged).files = s.files := by
  generalize h : State.dmaRefused s j addr write logged = u
  unfold State.dmaRefused at h
  rw [← h]; simp [kept @State.logFw_fr, kept @State.raise_fr]

theorem State.pmcDma_fr (s : State) (j : Nat) (k : Nat) (addr : Nat) (len : Nat) : (State.pmcDma s j k addr len).pending = s.pending ∧ (State.pmcDma s j k addr len).flash = s.flash ∧ (State.pmcDma s j k addr len).coldOpt = s.coldOpt ∧ (State.pmcDma s j k addr len).mem = s.mem ∧ (State.pmcDma s j k addr len).harts = s.harts ∧ (State.pmcDma s j k addr len).mram = s.mram ∧ (State.pmcDma s j k addr len).imsic = s.imsic ∧ (State.pmcDma s j k addr len).eng = s.eng ∧ (State.pmcDma s j k addr len).dm = s.dm ∧ (State.pmcDma s j k addr len).fx = s.fx ∧ (State.pmcDma s j k addr len).ctu = s.ctu ∧ (State.pmcDma s j k addr len).links = s.links ∧ (State.pmcDma s j k addr len).aplicS = s.aplicS ∧ (State.pmcDma s j k addr len).aplicN = s.aplicN ∧ (State.pmcDma s j k addr len).credits = s.credits ∧ (State.pmcDma s j k addr len).clusters = s.clusters ∧ (State.pmcDma s j k addr len).homes = s.homes ∧ (State.pmcDma s j k addr len).pkts = s.pkts ∧ (State.pmcDma s j k addr len).resp = s.resp ∧ (State.pmcDma s j k addr len).wires = s.wires ∧ (State.pmcDma s j k addr len).dmg = s.dmg ∧ (State.pmcDma s j k addr len).wq = s.wq ∧ (State.pmcDma s j k addr len).net = s.net ∧ (State.pmcDma s j k addr len).dbInval = s.dbInval ∧ (State.pmcDma s j k addr len).watch = s.watch ∧ (State.pmcDma s j k addr len).pkg = s.pkg ∧ (State.pmcDma s j k addr len).pmc = s.pmc ∧ (State.pmcDma s j k addr len).fwLog = s.fwLog ∧ (State.pmcDma s j k addr len).out = s.out ∧ (State.pmcDma s j k addr len).free = s.free ∧ (State.pmcDma s j k addr len).fabric = s.fabric ∧ (State.pmcDma s j k addr len).files = s.files := by
  generalize h : State.pmcDma s j k addr len = u
  unfold State.pmcDma at h
  rw [← h]; simp [kept @State.pmcAdd_fr]

theorem State.dmaRead_fr (s : State) (j : Nat) (addr : Nat) (len : Nat) : (State.dmaRead s j addr len).2.pending = s.pending ∧ (State.dmaRead s j addr len).2.flash = s.flash ∧ (State.dmaRead s j addr len).2.coldOpt = s.coldOpt ∧ (State.dmaRead s j addr len).2.mem = s.mem ∧ (State.dmaRead s j addr len).2.harts = s.harts ∧ (State.dmaRead s j addr len).2.imsic = s.imsic ∧ (State.dmaRead s j addr len).2.eng = s.eng ∧ (State.dmaRead s j addr len).2.dm = s.dm ∧ (State.dmaRead s j addr len).2.fx = s.fx ∧ (State.dmaRead s j addr len).2.ctu = s.ctu ∧ (State.dmaRead s j addr len).2.links = s.links ∧ (State.dmaRead s j addr len).2.aplicS = s.aplicS ∧ (State.dmaRead s j addr len).2.aplicN = s.aplicN ∧ (State.dmaRead s j addr len).2.credits = s.credits ∧ (State.dmaRead s j addr len).2.clusters = s.clusters ∧ (State.dmaRead s j addr len).2.homes = s.homes ∧ (State.dmaRead s j addr len).2.pkts = s.pkts ∧ (State.dmaRead s j addr len).2.resp = s.resp ∧ (State.dmaRead s j addr len).2.dmg = s.dmg ∧ (State.dmaRead s j addr len).2.net = s.net ∧ (State.dmaRead s j addr len).2.dbInval = s.dbInval ∧ (State.dmaRead s j addr len).2.watch = s.watch ∧ (State.dmaRead s j addr len).2.out = s.out ∧ (State.dmaRead s j addr len).2.free = s.free ∧ (State.dmaRead s j addr len).2.fabric = s.fabric ∧ (State.dmaRead s j addr len).2.files = s.files := by
  generalize h : (State.dmaRead s j addr len).2 = u
  unfold State.dmaRead at h
  (try dsimp only at h); (repeat' split at h) <;> rw [← h] <;> simp [kept @State.dmaRefused_fr, kept @State.pmcDma_fr, kept @State.raise_fr, kept @State.readPa_fr]

theorem State.unsupported_fr (s : State) (j : Nat) : (State.unsupported s j).pending = s.pending ∧ (State.unsupported s j).flash = s.flash ∧ (State.unsupported s j).coldOpt = s.coldOpt ∧ (State.unsupported s j).mem = s.mem ∧ (State.unsupported s j).harts = s.harts ∧ (State.unsupported s j).mram = s.mram ∧ (State.unsupported s j).imsic = s.imsic ∧ (State.unsupported s j).eng = s.eng ∧ (State.unsupported s j).dm = s.dm ∧ (State.unsupported s j).fx = s.fx ∧ (State.unsupported s j).ctu = s.ctu ∧ (State.unsupported s j).links = s.links ∧ (State.unsupported s j).aplicS = s.aplicS ∧ (State.unsupported s j).aplicN = s.aplicN ∧ (State.unsupported s j).credits = s.credits ∧ (State.unsupported s j).clusters = s.clusters ∧ (State.unsupported s j).homes = s.homes ∧ (State.unsupported s j).pkts = s.pkts ∧ (State.unsupported s j).resp = s.resp ∧ (State.unsupported s j).regs = s.regs ∧ (State.unsupported s j).dmg = s.dmg ∧ (State.unsupported s j).wq = s.wq ∧ (State.unsupported s j).net = s.net ∧ (State.unsupported s j).dbInval = s.dbInval ∧ (State.unsupported s j).watch = s.watch ∧ (State.unsupported s j).pkg = s.pkg ∧ (State.unsupported s j).pmc = s.pmc ∧ (State.unsupported s j).fwLog = s.fwLog ∧ (State.unsupported s j).out = s.out ∧ (State.unsupported s j).free = s.free ∧ (State.unsupported s j).fabric = s.fabric ∧ (State.unsupported s j).files = s.files := by
  generalize h : State.unsupported s j = u
  unfold State.unsupported at h
  (try dsimp only at h); (repeat' split at h) <;> rw [← h] <;> simp [kept @State.raise_fr]

theorem State.ecrcError_fr (s : State) (j : Nat) : (State.ecrcError s j).pending = s.pending ∧ (State.ecrcError s j).flash = s.flash ∧ (State.ecrcError s j).coldOpt = s.coldOpt ∧ (State.ecrcError s j).mem = s.mem ∧ (State.ecrcError s j).harts = s.harts ∧ (State.ecrcError s j).mram = s.mram ∧ (State.ecrcError s j).imsic = s.imsic ∧ (State.ecrcError s j).eng = s.eng ∧ (State.ecrcError s j).dm = s.dm ∧ (State.ecrcError s j).fx = s.fx ∧ (State.ecrcError s j).ctu = s.ctu ∧ (State.ecrcError s j).links = s.links ∧ (State.ecrcError s j).aplicS = s.aplicS ∧ (State.ecrcError s j).aplicN = s.aplicN ∧ (State.ecrcError s j).credits = s.credits ∧ (State.ecrcError s j).clusters = s.clusters ∧ (State.ecrcError s j).homes = s.homes ∧ (State.ecrcError s j).pkts = s.pkts ∧ (State.ecrcError s j).resp = s.resp ∧ (State.ecrcError s j).regs = s.regs ∧ (State.ecrcError s j).dmg = s.dmg ∧ (State.ecrcError s j).wq = s.wq ∧ (State.ecrcError s j).net = s.net ∧ (State.ecrcError s j).dbInval = s.dbInval ∧ (State.ecrcError s j).watch = s.watch ∧ (State.ecrcError s j).pkg = s.pkg ∧ (State.ecrcError s j).pmc = s.pmc ∧ (State.ecrcError s j).fwLog = s.fwLog ∧ (State.ecrcError s j).out = s.out ∧ (State.ecrcError s j).free = s.free ∧ (State.ecrcError s j).fabric = s.fabric ∧ (State.ecrcError s j).files = s.files := by
  generalize h : State.ecrcError s j = u
  unfold State.ecrcError at h
  (try dsimp only at h); (repeat' split at h) <;> rw [← h] <;> simp [kept @State.raise_fr]

theorem execPcieDmaRead_fr (j : Fin 112) (tag : Nat) (addr : TlpAddr) (len : Nat) (s : State) {u : State} (h : execPcieDmaRead j tag addr len s = .next u) : u.pending = s.pending ∧ u.flash = s.flash ∧ u.coldOpt = s.coldOpt ∧ u.mem = s.mem ∧ u.harts = s.harts ∧ u.imsic = s.imsic ∧ u.eng = s.eng ∧ u.dm = s.dm ∧ u.fx = s.fx ∧ u.ctu = s.ctu ∧ u.links = s.links ∧ u.aplicS = s.aplicS ∧ u.aplicN = s.aplicN ∧ u.credits = s.credits ∧ u.clusters = s.clusters ∧ u.homes = s.homes ∧ u.pkts = s.pkts ∧ u.resp = s.resp ∧ u.dmg = s.dmg ∧ u.net = s.net ∧ u.dbInval = s.dbInval ∧ u.watch = s.watch ∧ u.free = s.free ∧ u.fabric = s.fabric ∧ u.files = s.files := by
  unfold execPcieDmaRead at h
  (try dsimp only at h); (repeat' split at h) <;> (first | (simp only [Host.Outcome.next.injEq] at h; rw [← h]) | (simp only [reduceCtorEq] at h; done) | (simp only [Option.some.injEq] at h; rw [← h])) <;> simp [kept @State.dmaRead_fr, kept @State.ecrcError_fr, kept @State.send_fr, kept @State.unsupported_fr]

theorem State.dmaWrite_fr (s : State) (j : Nat) (addr : Nat) (bytes : List Byte) : (State.dmaWrite s j addr bytes).pending = s.pending ∧ (State.dmaWrite s j addr bytes).flash = s.flash ∧ (State.dmaWrite s j addr bytes).coldOpt = s.coldOpt ∧ (State.dmaWrite s j addr bytes).imsic = s.imsic ∧ (State.dmaWrite s j addr bytes).eng = s.eng ∧ (State.dmaWrite s j addr bytes).dm = s.dm ∧ (State.dmaWrite s j addr bytes).fx = s.fx ∧ (State.dmaWrite s j addr bytes).ctu = s.ctu ∧ (State.dmaWrite s j addr bytes).links = s.links ∧ (State.dmaWrite s j addr bytes).aplicS = s.aplicS ∧ (State.dmaWrite s j addr bytes).aplicN = s.aplicN ∧ (State.dmaWrite s j addr bytes).credits = s.credits ∧ (State.dmaWrite s j addr bytes).pkts = s.pkts ∧ (State.dmaWrite s j addr bytes).resp = s.resp ∧ (State.dmaWrite s j addr bytes).out = s.out ∧ (State.dmaWrite s j addr bytes).free = s.free ∧ (State.dmaWrite s j addr bytes).fabric = s.fabric ∧ (State.dmaWrite s j addr bytes).files = s.files := by
  generalize h : State.dmaWrite s j addr bytes = u
  unfold State.dmaWrite at h
  rw [← h]; simp [kept @State.dmaRefused_fr, kept @State.pmcDma_fr, kept @State.writePa_fr]

theorem execPcieDmaWrite_fr (j : Fin 112) (addr : TlpAddr) (bytes : List Byte) (s : State) {u : State} (h : execPcieDmaWrite j addr bytes s = .next u) : u.pending = s.pending ∧ u.flash = s.flash ∧ u.coldOpt = s.coldOpt ∧ u.imsic = s.imsic ∧ u.eng = s.eng ∧ u.dm = s.dm ∧ u.fx = s.fx ∧ u.ctu = s.ctu ∧ u.links = s.links ∧ u.aplicS = s.aplicS ∧ u.aplicN = s.aplicN ∧ u.credits = s.credits ∧ u.pkts = s.pkts ∧ u.resp = s.resp ∧ u.out = s.out ∧ u.free = s.free ∧ u.fabric = s.fabric ∧ u.files = s.files := by
  unfold execPcieDmaWrite at h
  (try dsimp only at h); (repeat' split at h) <;> (first | (simp only [Host.Outcome.next.injEq] at h; rw [← h]) | (simp only [reduceCtorEq] at h; done) | (simp only [Option.some.injEq] at h; rw [← h])) <;> simp [kept @State.dmaWrite_fr, kept @State.ecrcError_fr, kept @State.unsupported_fr]

theorem execAtomicOp_fr (j : Fin 112) (tag : Nat) (addr : TlpAddr) (op : AtomicKind) (size : Nat) (operand : Nat) (compare : Nat) (s : State) {u : State} (h : execAtomicOp j tag addr op size operand compare s = .next u) : u.pending = s.pending ∧ u.flash = s.flash ∧ u.coldOpt = s.coldOpt ∧ u.imsic = s.imsic ∧ u.eng = s.eng ∧ u.dm = s.dm ∧ u.fx = s.fx ∧ u.ctu = s.ctu ∧ u.links = s.links ∧ u.aplicS = s.aplicS ∧ u.aplicN = s.aplicN ∧ u.credits = s.credits ∧ u.pkts = s.pkts ∧ u.resp = s.resp ∧ u.free = s.free ∧ u.fabric = s.fabric ∧ u.files = s.files := by
  unfold execAtomicOp at h
  (try dsimp only at h); (repeat' split at h) <;> (first | (simp only [Host.Outcome.next.injEq] at h; rw [← h]) | (simp only [reduceCtorEq] at h; done) | (simp only [Option.some.injEq] at h; rw [← h])) <;> simp [kept @State.dmaRead_fr, kept @State.dmaRefused_fr, kept @State.ecrcError_fr, kept @State.homePull_fr, kept @State.send_fr, kept @State.unsupported_fr, kept @State.writePa_fr]

theorem execPcieMsi_fr (j : Fin 112) (addr : Nat) (eiid : Nat) (s : State) {u : State} (h : execPcieMsi j addr eiid s = .next u) : u.pending = s.pending ∧ u.flash = s.flash ∧ u.coldOpt = s.coldOpt ∧ u.mem = s.mem ∧ u.harts = s.harts ∧ u.eng = s.eng ∧ u.dm = s.dm ∧ u.fx = s.fx ∧ u.ctu = s.ctu ∧ u.links = s.links ∧ u.aplicS = s.aplicS ∧ u.aplicN = s.aplicN ∧ u.credits = s.credits ∧ u.clusters = s.clusters ∧ u.homes = s.homes ∧ u.pkts = s.pkts ∧ u.resp = s.resp ∧ u.wires = s.wires ∧ u.dmg = s.dmg ∧ u.wq = s.wq ∧ u.net = s.net ∧ u.dbInval = s.dbInval ∧ u.watch = s.watch ∧ u.pkg = s.pkg ∧ u.out = s.out ∧ u.free = s.free ∧ u.fabric = s.fabric ∧ u.files = s.files := by
  unfold execPcieMsi at h
  (first | (simp only [Host.Outcome.next.injEq] at h; rw [← h]) | (simp only [reduceCtorEq] at h; done) | (simp only [Option.some.injEq] at h; rw [← h])); simp [kept @State.msiTo_fr]

theorem execLinkDown_fr (j : Fin 112) (s : State) {u : State} (h : execLinkDown j s = .next u) : u.pending = s.pending ∧ u.flash = s.flash ∧ u.coldOpt = s.coldOpt ∧ u.mem = s.mem ∧ u.harts = s.harts ∧ u.mram = s.mram ∧ u.imsic = s.imsic ∧ u.eng = s.eng ∧ u.dm = s.dm ∧ u.fx = s.fx ∧ u.ctu = s.ctu ∧ u.aplicS = s.aplicS ∧ u.aplicN = s.aplicN ∧ u.credits = s.credits ∧ u.clusters = s.clusters ∧ u.homes = s.homes ∧ u.pkts = s.pkts ∧ u.resp = s.resp ∧ u.regs = s.regs ∧ u.dmg = s.dmg ∧ u.net = s.net ∧ u.dbInval = s.dbInval ∧ u.watch = s.watch ∧ u.pmc = s.pmc ∧ u.fwLog = s.fwLog ∧ u.out = s.out ∧ u.free = s.free ∧ u.fabric = s.fabric ∧ u.files = s.files := by
  unfold execLinkDown at h
  (first | (simp only [Host.Outcome.next.injEq] at h; rw [← h]) | (simp only [reduceCtorEq] at h; done) | (simp only [Option.some.injEq] at h; rw [← h])); simp [kept @State.linkDown_fr]

theorem execCxlSurpriseRemoval_fr (j : Fin 112) (s : State) {u : State} (h : execCxlSurpriseRemoval j s = .next u) : u.pending = s.pending ∧ u.flash = s.flash ∧ u.coldOpt = s.coldOpt ∧ u.mem = s.mem ∧ u.harts = s.harts ∧ u.mram = s.mram ∧ u.imsic = s.imsic ∧ u.eng = s.eng ∧ u.dm = s.dm ∧ u.fx = s.fx ∧ u.ctu = s.ctu ∧ u.aplicS = s.aplicS ∧ u.aplicN = s.aplicN ∧ u.credits = s.credits ∧ u.clusters = s.clusters ∧ u.homes = s.homes ∧ u.pkts = s.pkts ∧ u.resp = s.resp ∧ u.regs = s.regs ∧ u.dmg = s.dmg ∧ u.net = s.net ∧ u.dbInval = s.dbInval ∧ u.watch = s.watch ∧ u.pmc = s.pmc ∧ u.fwLog = s.fwLog ∧ u.out = s.out ∧ u.free = s.free ∧ u.fabric = s.fabric ∧ u.files = s.files := by
  unfold execCxlSurpriseRemoval at h
  (first | (simp only [Host.Outcome.next.injEq] at h; rw [← h]) | (simp only [reduceCtorEq] at h; done) | (simp only [Option.some.injEq] at h; rw [← h])); simp [kept @State.linkDown_fr]

theorem execPcieLinkUp_fr (j : Fin 112) (rate : Nat) (type3 : Bool) (odd : Bool) (s : State) {u : State} (h : execPcieLinkUp j rate type3 odd s = .next u) : u.pending = s.pending ∧ u.flash = s.flash ∧ u.coldOpt = s.coldOpt ∧ u.mem = s.mem ∧ u.harts = s.harts ∧ u.mram = s.mram ∧ u.imsic = s.imsic ∧ u.eng = s.eng ∧ u.dm = s.dm ∧ u.fx = s.fx ∧ u.ctu = s.ctu ∧ u.aplicS = s.aplicS ∧ u.aplicN = s.aplicN ∧ u.credits = s.credits ∧ u.clusters = s.clusters ∧ u.homes = s.homes ∧ u.pkts = s.pkts ∧ u.resp = s.resp ∧ u.regs = s.regs ∧ u.dmg = s.dmg ∧ u.wq = s.wq ∧ u.net = s.net ∧ u.dbInval = s.dbInval ∧ u.watch = s.watch ∧ u.pmc = s.pmc ∧ u.fwLog = s.fwLog ∧ u.out = s.out ∧ u.free = s.free ∧ u.fabric = s.fabric ∧ u.files = s.files := by
  unfold execPcieLinkUp at h
  (try dsimp only at h); (repeat' split at h) <;> (first | (simp only [Host.Outcome.next.injEq] at h; rw [← h]) | (simp only [reduceCtorEq] at h; done) | (simp only [Option.some.injEq] at h; rw [← h])) <;> simp [kept @State.pk_fr, kept @State.raise_fr, kept @State.setLink_fr]

end Sys2Proof.Machine
end

