-- ==== Sys2Proof/Laws/Frame/PowerCmds.lean ====
section
/-! SUPPORT. What the operations of Machine/PowerCmds.lean leave unchanged. -/

set_option Elab.async false
set_option linter.all false

namespace Sys2Proof.Machine
open Sys2Proof

theorem State.refuseReg_fr (s : State) (who : Ident) (off : Nat) : (State.refuseReg s who off).pending = s.pending ∧ (State.refuseReg s who off).flash = s.flash ∧ (State.refuseReg s who off).coldOpt = s.coldOpt ∧ (State.refuseReg s who off).mem = s.mem ∧ (State.refuseReg s who off).harts = s.harts ∧ (State.refuseReg s who off).imsic = s.imsic ∧ (State.refuseReg s who off).eng = s.eng ∧ (State.refuseReg s who off).dm = s.dm ∧ (State.refuseReg s who off).fx = s.fx ∧ (State.refuseReg s who off).ctu = s.ctu ∧ (State.refuseReg s who off).links = s.links ∧ (State.refuseReg s who off).aplicS = s.aplicS ∧ (State.refuseReg s who off).aplicN = s.aplicN ∧ (State.refuseReg s who off).credits = s.credits ∧ (State.refuseReg s who off).clusters = s.clusters ∧ (State.refuseReg s who off).homes = s.homes ∧ (State.refuseReg s who off).pkts = s.pkts ∧ (State.refuseReg s who off).wires = s.wires ∧ (State.refuseReg s who off).dmg = s.dmg ∧ (State.refuseReg s who off).wq = s.wq ∧ (State.refuseReg s who off).net = s.net ∧ (State.refuseReg s who off).dbInval = s.dbInval ∧ (State.refuseReg s who off).watch = s.watch ∧ (State.refuseReg s who off).pkg = s.pkg ∧ (State.refuseReg s who off).fwLog = s.fwLog ∧ (State.refuseReg s who off).out = s.out ∧ (State.refuseReg s who off).free = s.free ∧ (State.refuseReg s who off).fabric = s.fabric ∧ (State.refuseReg s who off).files = s.files := by
  generalize h : State.refuseReg s who off = u
  unfold State.refuseReg at h
  rw [← h]; simp [kept @State.answer_fr, kept @State.viol_fr]

theorem execModeOrderSubmit_fr (m : Fin 2) (who : Ident) (target : Nat) (s : State) {u : State} (h : execModeOrderSubmit m who target s = .next u) : u.pending = s.pending ∧ u.flash = s.flash ∧ u.coldOpt = s.coldOpt ∧ u.mem = s.mem ∧ u.harts = s.harts ∧ u.imsic = s.imsic ∧ u.eng = s.eng ∧ u.dm = s.dm ∧ u.fx = s.fx ∧ u.ctu = s.ctu ∧ u.links = s.links ∧ u.aplicS = s.aplicS ∧ u.aplicN = s.aplicN ∧ u.credits = s.credits ∧ u.clusters = s.clusters ∧ u.homes = s.homes ∧ u.pkts = s.pkts ∧ u.wires = s.wires ∧ u.dmg = s.dmg ∧ u.wq = s.wq ∧ u.net = s.net ∧ u.dbInval = s.dbInval ∧ u.watch = s.watch ∧ u.fwLog = s.fwLog ∧ u.out = s.out ∧ u.free = s.free ∧ u.fabric = s.fabric ∧ u.files = s.files := by
  unfold execModeOrderSubmit at h
  (try dsimp only at h); (repeat' split at h) <;> (first | (simp only [Host.Outcome.next.injEq] at h; rw [← h]) | (simp only [reduceCtorEq] at h; done) | (simp only [Option.some.injEq] at h; rw [← h])) <;> simp [kept @State.answer_fr, kept @State.refuseReg_fr, kept @State.submitMode_fr, kept @State.wrs_fr]

theorem State.powerFrom_fr (s : State) (src : PowerSrc) (code : Nat) (unit : Nat) (value : Nat) : (State.powerFrom s src code unit value).pending = s.pending ∧ (State.powerFrom s src code unit value).flash = s.flash ∧ (State.powerFrom s src code unit value).coldOpt = s.coldOpt ∧ (State.powerFrom s src code unit value).mem = s.mem ∧ (State.powerFrom s src code unit value).harts = s.harts ∧ (State.powerFrom s src code unit value).imsic = s.imsic ∧ (State.powerFrom s src code unit value).eng = s.eng ∧ (State.powerFrom s src code unit value).dm = s.dm ∧ (State.powerFrom s src code unit value).ctu = s.ctu ∧ (State.powerFrom s src code unit value).links = s.links ∧ (State.powerFrom s src code unit value).aplicS = s.aplicS ∧ (State.powerFrom s src code unit value).aplicN = s.aplicN ∧ (State.powerFrom s src code unit value).credits = s.credits ∧ (State.powerFrom s src code unit value).clusters = s.clusters ∧ (State.powerFrom s src code unit value).homes = s.homes ∧ (State.powerFrom s src code unit value).pkts = s.pkts ∧ (State.powerFrom s src code unit value).dmg = s.dmg ∧ (State.powerFrom s src code unit value).wq = s.wq ∧ (State.powerFrom s src code unit value).net = s.net ∧ (State.powerFrom s src code unit value).dbInval = s.dbInval ∧ (State.powerFrom s src code unit value).watch = s.watch ∧ (State.powerFrom s src code unit value).fwLog = s.fwLog ∧ (State.powerFrom s src code unit value).free = s.free ∧ (State.powerFrom s src code unit value).fabric = s.fabric ∧ (State.powerFrom s src code unit value).files = s.files := by
  generalize h : State.powerFrom s src code unit value = u
  unfold State.powerFrom at h
  (try dsimp only at h); (repeat' split at h) <;> rw [← h] <;> simp [kept @State.answer_fr, kept @State.refuseReg_fr, kept @State.submitPower_fr, kept @State.wrs_fr]

theorem execSetTdp_fr (src : PowerSrc) (unit : Nat) (value : Nat) (s : State) {u : State} (h : execSetTdp src unit value s = .next u) : u.pending = s.pending ∧ u.flash = s.flash ∧ u.coldOpt = s.coldOpt ∧ u.mem = s.mem ∧ u.harts = s.harts ∧ u.imsic = s.imsic ∧ u.eng = s.eng ∧ u.dm = s.dm ∧ u.ctu = s.ctu ∧ u.links = s.links ∧ u.aplicS = s.aplicS ∧ u.aplicN = s.aplicN ∧ u.credits = s.credits ∧ u.clusters = s.clusters ∧ u.homes = s.homes ∧ u.pkts = s.pkts ∧ u.dmg = s.dmg ∧ u.wq = s.wq ∧ u.net = s.net ∧ u.dbInval = s.dbInval ∧ u.watch = s.watch ∧ u.fwLog = s.fwLog ∧ u.free = s.free ∧ u.fabric = s.fabric ∧ u.files = s.files := by
  unfold execSetTdp at h
  (first | (simp only [Host.Outcome.next.injEq] at h; rw [← h]) | (simp only [reduceCtorEq] at h; done) | (simp only [Option.some.injEq] at h; rw [← h])); simp [kept @State.powerFrom_fr]

theorem execCapCclk_fr (src : PowerSrc) (unit : Nat) (value : Nat) (s : State) {u : State} (h : execCapCclk src unit value s = .next u) : u.pending = s.pending ∧ u.flash = s.flash ∧ u.coldOpt = s.coldOpt ∧ u.mem = s.mem ∧ u.harts = s.harts ∧ u.imsic = s.imsic ∧ u.eng = s.eng ∧ u.dm = s.dm ∧ u.ctu = s.ctu ∧ u.links = s.links ∧ u.aplicS = s.aplicS ∧ u.aplicN = s.aplicN ∧ u.credits = s.credits ∧ u.clusters = s.clusters ∧ u.homes = s.homes ∧ u.pkts = s.pkts ∧ u.dmg = s.dmg ∧ u.wq = s.wq ∧ u.net = s.net ∧ u.dbInval = s.dbInval ∧ u.watch = s.watch ∧ u.fwLog = s.fwLog ∧ u.free = s.free ∧ u.fabric = s.fabric ∧ u.files = s.files := by
  unfold execCapCclk at h
  (first | (simp only [Host.Outcome.next.injEq] at h; rw [← h]) | (simp only [reduceCtorEq] at h; done) | (simp only [Option.some.injEq] at h; rw [← h])); simp [kept @State.powerFrom_fr]

theorem execGate_fr (src : PowerSrc) (unit : Nat) (value : Nat) (s : State) {u : State} (h : execGate src unit value s = .next u) : u.pending = s.pending ∧ u.flash = s.flash ∧ u.coldOpt = s.coldOpt ∧ u.mem = s.mem ∧ u.harts = s.harts ∧ u.imsic = s.imsic ∧ u.eng = s.eng ∧ u.dm = s.dm ∧ u.ctu = s.ctu ∧ u.links = s.links ∧ u.aplicS = s.aplicS ∧ u.aplicN = s.aplicN ∧ u.credits = s.credits ∧ u.clusters = s.clusters ∧ u.homes = s.homes ∧ u.pkts = s.pkts ∧ u.dmg = s.dmg ∧ u.wq = s.wq ∧ u.net = s.net ∧ u.dbInval = s.dbInval ∧ u.watch = s.watch ∧ u.fwLog = s.fwLog ∧ u.free = s.free ∧ u.fabric = s.fabric ∧ u.files = s.files := by
  unfold execGate at h
  (first | (simp only [Host.Outcome.next.injEq] at h; rw [← h]) | (simp only [reduceCtorEq] at h; done) | (simp only [Option.some.injEq] at h; rw [← h])); simp [kept @State.powerFrom_fr]

theorem execUngate_fr (src : PowerSrc) (unit : Nat) (value : Nat) (s : State) {u : State} (h : execUngate src unit value s = .next u) : u.pending = s.pending ∧ u.flash = s.flash ∧ u.coldOpt = s.coldOpt ∧ u.mem = s.mem ∧ u.harts = s.harts ∧ u.imsic = s.imsic ∧ u.eng = s.eng ∧ u.dm = s.dm ∧ u.ctu = s.ctu ∧ u.links = s.links ∧ u.aplicS = s.aplicS ∧ u.aplicN = s.aplicN ∧ u.credits = s.credits ∧ u.clusters = s.clusters ∧ u.homes = s.homes ∧ u.pkts = s.pkts ∧ u.dmg = s.dmg ∧ u.wq = s.wq ∧ u.net = s.net ∧ u.dbInval = s.dbInval ∧ u.watch = s.watch ∧ u.fwLog = s.fwLog ∧ u.free = s.free ∧ u.fabric = s.fabric ∧ u.files = s.files := by
  unfold execUngate at h
  (first | (simp only [Host.Outcome.next.injEq] at h; rw [← h]) | (simp only [reduceCtorEq] at h; done) | (simp only [Option.some.injEq] at h; rw [← h])); simp [kept @State.powerFrom_fr]

theorem execPowerOff_fr (src : PowerSrc) (unit : Nat) (value : Nat) (s : State) {u : State} (h : execPowerOff src unit value s = .next u) : u.pending = s.pending ∧ u.flash = s.flash ∧ u.coldOpt = s.coldOpt ∧ u.mem = s.mem ∧ u.harts = s.harts ∧ u.imsic = s.imsic ∧ u.eng = s.eng ∧ u.dm = s.dm ∧ u.ctu = s.ctu ∧ u.links = s.links ∧ u.aplicS = s.aplicS ∧ u.aplicN = s.aplicN ∧ u.credits = s.credits ∧ u.clusters = s.clusters ∧ u.homes = s.homes ∧ u.pkts = s.pkts ∧ u.dmg = s.dmg ∧ u.wq = s.wq ∧ u.net = s.net ∧ u.dbInval = s.dbInval ∧ u.watch = s.watch ∧ u.fwLog = s.fwLog ∧ u.free = s.free ∧ u.fabric = s.fabric ∧ u.files = s.files := by
  unfold execPowerOff at h
  (first | (simp only [Host.Outcome.next.injEq] at h; rw [← h]) | (simp only [reduceCtorEq] at h; done) | (simp only [Option.some.injEq] at h; rw [← h])); simp [kept @State.powerFrom_fr]

theorem execPowerOn_fr (src : PowerSrc) (unit : Nat) (value : Nat) (s : State) {u : State} (h : execPowerOn src unit value s = .next u) : u.pending = s.pending ∧ u.flash = s.flash ∧ u.coldOpt = s.coldOpt ∧ u.mem = s.mem ∧ u.harts = s.harts ∧ u.imsic = s.imsic ∧ u.eng = s.eng ∧ u.dm = s.dm ∧ u.ctu = s.ctu ∧ u.links = s.links ∧ u.aplicS = s.aplicS ∧ u.aplicN = s.aplicN ∧ u.credits = s.credits ∧ u.clusters = s.clusters ∧ u.homes = s.homes ∧ u.pkts = s.pkts ∧ u.dmg = s.dmg ∧ u.wq = s.wq ∧ u.net = s.net ∧ u.dbInval = s.dbInval ∧ u.watch = s.watch ∧ u.fwLog = s.fwLog ∧ u.free = s.free ∧ u.fabric = s.fabric ∧ u.files = s.files := by
  unfold execPowerOn at h
  (first | (simp only [Host.Outcome.next.injEq] at h; rw [← h]) | (simp only [reduceCtorEq] at h; done) | (simp only [Option.some.injEq] at h; rw [← h])); simp [kept @State.powerFrom_fr]

theorem execMemIdle_fr (src : PowerSrc) (unit : Nat) (value : Nat) (s : State) {u : State} (h : execMemIdle src unit value s = .next u) : u.pending = s.pending ∧ u.flash = s.flash ∧ u.coldOpt = s.coldOpt ∧ u.mem = s.mem ∧ u.harts = s.harts ∧ u.imsic = s.imsic ∧ u.eng = s.eng ∧ u.dm = s.dm ∧ u.ctu = s.ctu ∧ u.links = s.links ∧ u.aplicS = s.aplicS ∧ u.aplicN = s.aplicN ∧ u.credits = s.credits ∧ u.clusters = s.clusters ∧ u.homes = s.homes ∧ u.pkts = s.pkts ∧ u.dmg = s.dmg ∧ u.wq = s.wq ∧ u.net = s.net ∧ u.dbInval = s.dbInval ∧ u.watch = s.watch ∧ u.fwLog = s.fwLog ∧ u.free = s.free ∧ u.fabric = s.fabric ∧ u.files = s.files := by
  unfold execMemIdle at h
  (first | (simp only [Host.Outcome.next.injEq] at h; rw [← h]) | (simp only [reduceCtorEq] at h; done) | (simp only [Option.some.injEq] at h; rw [← h])); simp [kept @State.powerFrom_fr]

theorem State.resetFrom_fr (s : State) (m : Fin 2) (who : Ident) (kind : Nat) (index : Nat) : (State.resetFrom s m who kind index).pending = s.pending ∧ (State.resetFrom s m who kind index).flash = s.flash ∧ (State.resetFrom s m who kind index).coldOpt = s.coldOpt ∧ (State.resetFrom s m who kind index).free = s.free := by
  generalize h : State.resetFrom s m who kind index = u
  unfold State.resetFrom at h
  rw [← h]; simp [kept @State.answer_fr, kept @State.refuseReg_fr, kept @State.submitReset_fr, kept @State.wrs_fr]

theorem execCoreResetReq_fr (m : Fin 2) (who : Ident) (index : Nat) (s : State) {u : State} (h : execCoreResetReq m who index s = .next u) : u.pending = s.pending ∧ u.flash = s.flash ∧ u.coldOpt = s.coldOpt ∧ u.free = s.free := by
  unfold execCoreResetReq at h
  (first | (simp only [Host.Outcome.next.injEq] at h; rw [← h]) | (simp only [reduceCtorEq] at h; done) | (simp only [Option.some.injEq] at h; rw [← h])); simp [kept @State.resetFrom_fr]

theorem execClusterResetReq_fr (m : Fin 2) (who : Ident) (index : Nat) (s : State) {u : State} (h : execClusterResetReq m who index s = .next u) : u.pending = s.pending ∧ u.flash = s.flash ∧ u.coldOpt = s.coldOpt ∧ u.free = s.free := by
  unfold execClusterResetReq at h
  (first | (simp only [Host.Outcome.next.injEq] at h; rw [← h]) | (simp only [reduceCtorEq] at h; done) | (simp only [Option.some.injEq] at h; rw [← h])); simp [kept @State.resetFrom_fr]

theorem execDieResetReq_fr (m : Fin 2) (who : Ident) (index : Nat) (s : State) {u : State} (h : execDieResetReq m who index s = .next u) : u.pending = s.pending ∧ u.flash = s.flash ∧ u.coldOpt = s.coldOpt ∧ u.free = s.free := by
  unfold execDieResetReq at h
  (first | (simp only [Host.Outcome.next.injEq] at h; rw [← h]) | (simp only [reduceCtorEq] at h; done) | (simp only [Option.some.injEq] at h; rw [← h])); simp [kept @State.resetFrom_fr]

theorem execClusterResetDrained_fr (c : Fin 36) (s : State) {u : State} (h : execClusterResetDrained c s = .next u) : u.pending = s.pending ∧ u.flash = s.flash ∧ u.coldOpt = s.coldOpt ∧ u.mem = s.mem ∧ u.mram = s.mram ∧ u.dm = s.dm ∧ u.fx = s.fx ∧ u.ctu = s.ctu ∧ u.links = s.links ∧ u.aplicS = s.aplicS ∧ u.aplicN = s.aplicN ∧ u.credits = s.credits ∧ u.pkts = s.pkts ∧ u.resp = s.resp ∧ u.wires = s.wires ∧ u.dmg = s.dmg ∧ u.dbInval = s.dbInval ∧ u.watch = s.watch ∧ u.pmc = s.pmc ∧ u.out = s.out ∧ u.free = s.free ∧ u.fabric = s.fabric := by
  unfold execClusterResetDrained at h
  (try dsimp only at h); (repeat' split at h) <;> (first | (simp only [Host.Outcome.next.injEq] at h; rw [← h]) | (simp only [reduceCtorEq] at h; done) | (simp only [Option.some.injEq] at h; rw [← h])) <;> simp [kept @State.endReset_fr, kept @State.fence_fr, kept @State.hartCause_fr, kept @State.loseCluster_fr, kept @State.pk_fr, kept @State.recordReach_fr, kept @State.resetSliceRegs_fr, kept @State.wr_fr, kept @State.wrW_fr]

theorem execModeDecision_fr (s : State) {u : State} (h : execModeDecision s = .next u) : u.pending = s.pending ∧ u.flash = s.flash ∧ u.coldOpt = s.coldOpt ∧ u.resp = s.resp ∧ u.free = s.free := by
  unfold execModeDecision at h
  (first | (simp only [Host.Outcome.next.injEq] at h; rw [← h]) | (simp only [reduceCtorEq] at h; done) | (simp only [Option.some.injEq] at h; rw [← h])); simp [kept @State.arbitrate_fr]

theorem State.duskGate_fr (s : State) (on : Bool) : (State.duskGate s on).pending = s.pending ∧ (State.duskGate s on).flash = s.flash ∧ (State.duskGate s on).coldOpt = s.coldOpt ∧ (State.duskGate s on).mem = s.mem ∧ (State.duskGate s on).harts = s.harts ∧ (State.duskGate s on).mram = s.mram ∧ (State.duskGate s on).imsic = s.imsic ∧ (State.duskGate s on).eng = s.eng ∧ (State.duskGate s on).dm = s.dm ∧ (State.duskGate s on).fx = s.fx ∧ (State.duskGate s on).ctu = s.ctu ∧ (State.duskGate s on).links = s.links ∧ (State.duskGate s on).aplicS = s.aplicS ∧ (State.duskGate s on).aplicN = s.aplicN ∧ (State.duskGate s on).credits = s.credits ∧ (State.duskGate s on).clusters = s.clusters ∧ (State.duskGate s on).homes = s.homes ∧ (State.duskGate s on).pkts = s.pkts ∧ (State.duskGate s on).resp = s.resp ∧ (State.duskGate s on).wires = s.wires ∧ (State.duskGate s on).dmg = s.dmg ∧ (State.duskGate s on).wq = s.wq ∧ (State.duskGate s on).net = s.net ∧ (State.duskGate s on).dbInval = s.dbInval ∧ (State.duskGate s on).watch = s.watch ∧ (State.duskGate s on).pmc = s.pmc ∧ (State.duskGate s on).fwLog = s.fwLog ∧ (State.duskGate s on).out = s.out ∧ (State.duskGate s on).free = s.free ∧ (State.duskGate s on).fabric = s.fabric ∧ (State.duskGate s on).files = s.files := by
  generalize h : State.duskGate s on = u
  unfold State.duskGate at h
  rw [← h]; simp [kept @State.pk_fr, kept @State.wr_fr]

theorem execDuskEntry_fr (s : State) {u : State} (h : execDuskEntry s = .next u) : u.pending = s.pending ∧ u.flash = s.flash ∧ u.coldOpt = s.coldOpt ∧ u.mem = s.mem ∧ u.harts = s.harts ∧ u.mram = s.mram ∧ u.imsic = s.imsic ∧ u.eng = s.eng ∧ u.dm = s.dm ∧ u.fx = s.fx ∧ u.ctu = s.ctu ∧ u.links = s.links ∧ u.aplicS = s.aplicS ∧ u.aplicN = s.aplicN ∧ u.credits = s.credits ∧ u.clusters = s.clusters ∧ u.homes = s.homes ∧ u.pkts = s.pkts ∧ u.resp = s.resp ∧ u.wires = s.wires ∧ u.dmg = s.dmg ∧ u.wq = s.wq ∧ u.net = s.net ∧ u.dbInval = s.dbInval ∧ u.watch = s.watch ∧ u.pmc = s.pmc ∧ u.fwLog = s.fwLog ∧ u.out = s.out ∧ u.free = s.free ∧ u.fabric = s.fabric ∧ u.files = s.files := by
  unfold execDuskEntry at h
  (try dsimp only at h); (repeat' split at h) <;> (first | (simp only [Host.Outcome.next.injEq] at h; rw [← h]) | (simp only [reduceCtorEq] at h; done) | (simp only [Option.some.injEq] at h; rw [← h])) <;> simp [kept @State.beginMove_fr, kept @State.duskGate_fr]

theorem execNightEntry_fr (s : State) {u : State} (h : execNightEntry s = .next u) : u.pending = s.pending ∧ u.flash = s.flash ∧ u.coldOpt = s.coldOpt ∧ u.dm = s.dm ∧ u.ctu = s.ctu ∧ u.aplicS = s.aplicS ∧ u.aplicN = s.aplicN ∧ u.credits = s.credits ∧ u.pkts = s.pkts ∧ u.resp = s.resp ∧ u.dbInval = s.dbInval ∧ u.watch = s.watch ∧ u.out = s.out ∧ u.fabric = s.fabric := by
  unfold execNightEntry at h
  (try dsimp only at h); (repeat' split at h) <;> (first | (simp only [Host.Outcome.next.injEq] at h; rw [← h]) | (simp only [reduceCtorEq] at h; done) | (simp only [Option.some.injEq] at h; rw [← h])) <;> simp [kept @State.beginMove_fr, kept @State.duskGate_fr, kept @State.finxisLow_fr, kept @State.linksL1_fr, kept @State.nightDies_fr, kept @State.resetSliceRegs_fr, kept @State.selfRefresh_fr, kept @State.writeSave_fr]

theorem execLowPowerEntryTimeout_fr (target : Nat) (s : State) {u : State} (h : execLowPowerEntryTimeout target s = .next u) : u.pending = s.pending ∧ u.flash = s.flash ∧ u.coldOpt = s.coldOpt ∧ u.mem = s.mem ∧ u.harts = s.harts ∧ u.mram = s.mram ∧ u.imsic = s.imsic ∧ u.eng = s.eng ∧ u.dm = s.dm ∧ u.ctu = s.ctu ∧ u.links = s.links ∧ u.aplicS = s.aplicS ∧ u.aplicN = s.aplicN ∧ u.credits = s.credits ∧ u.clusters = s.clusters ∧ u.homes = s.homes ∧ u.pkts = s.pkts ∧ u.resp = s.resp ∧ u.dmg = s.dmg ∧ u.wq = s.wq ∧ u.net = s.net ∧ u.dbInval = s.dbInval ∧ u.watch = s.watch ∧ u.fwLog = s.fwLog ∧ u.free = s.free ∧ u.fabric = s.fabric ∧ u.files = s.files := by
  unfold execLowPowerEntryTimeout at h
  (try dsimp only at h); (repeat' split at h) <;> (first | (simp only [Host.Outcome.next.injEq] at h; rw [← h]) | (simp only [reduceCtorEq] at h; done) | (simp only [Option.some.injEq] at h; rw [← h])) <;> simp [kept @State.endMode_fr, kept @State.pk_fr]

theorem execDuskWake_fr (packet : Bool) (s : State) {u : State} (h : execDuskWake packet s = .next u) : u.pending = s.pending ∧ u.flash = s.flash ∧ u.coldOpt = s.coldOpt ∧ u.mem = s.mem ∧ u.harts = s.harts ∧ u.imsic = s.imsic ∧ u.eng = s.eng ∧ u.dm = s.dm ∧ u.fx = s.fx ∧ u.ctu = s.ctu ∧ u.links = s.links ∧ u.aplicS = s.aplicS ∧ u.aplicN = s.aplicN ∧ u.credits = s.credits ∧ u.clusters = s.clusters ∧ u.homes = s.homes ∧ u.pkts = s.pkts ∧ u.resp = s.resp ∧ u.wires = s.wires ∧ u.dmg = s.dmg ∧ u.wq = s.wq ∧ u.net = s.net ∧ u.dbInval = s.dbInval ∧ u.watch = s.watch ∧ u.fwLog = s.fwLog ∧ u.out = s.out ∧ u.free = s.free ∧ u.fabric = s.fabric ∧ u.files = s.files := by
  unfold execDuskWake at h
  (try dsimp only at h); (repeat' split at h) <;> (first | (simp only [Host.Outcome.next.injEq] at h; rw [← h]) | (simp only [reduceCtorEq] at h; done) | (simp only [Option.some.injEq] at h; rw [← h])) <;> simp [kept @State.arriveMode_fr, kept @State.duskGate_fr]

theorem State.sampleWake_fr (s : State) : (State.sampleWake s).pending = s.pending ∧ (State.sampleWake s).flash = s.flash ∧ (State.sampleWake s).coldOpt = s.coldOpt ∧ (State.sampleWake s).mem = s.mem ∧ (State.sampleWake s).harts = s.harts ∧ (State.sampleWake s).mram = s.mram ∧ (State.sampleWake s).imsic = s.imsic ∧ (State.sampleWake s).eng = s.eng ∧ (State.sampleWake s).dm = s.dm ∧ (State.sampleWake s).fx = s.fx ∧ (State.sampleWake s).ctu = s.ctu ∧ (State.sampleWake s).links = s.links ∧ (State.sampleWake s).aplicS = s.aplicS ∧ (State.sampleWake s).aplicN = s.aplicN ∧ (State.sampleWake s).credits = s.credits ∧ (State.sampleWake s).clusters = s.clusters ∧ (State.sampleWake s).homes = s.homes ∧ (State.sampleWake s).pkts = s.pkts ∧ (State.sampleWake s).resp = s.resp ∧ (State.sampleWake s).wires = s.wires ∧ (State.sampleWake s).dmg = s.dmg ∧ (State.sampleWake s).wq = s.wq ∧ (State.sampleWake s).net = s.net ∧ (State.sampleWake s).dbInval = s.dbInval ∧ (State.sampleWake s).watch = s.watch ∧ (State.sampleWake s).pmc = s.pmc ∧ (State.sampleWake s).fwLog = s.fwLog ∧ (State.sampleWake s).out = s.out ∧ (State.sampleWake s).free = s.free ∧ (State.sampleWake s).fabric = s.fabric ∧ (State.sampleWake s).files = s.files := by
  generalize h : State.sampleWake s = u
  unfold State.sampleWake at h
  rw [← h]; simp [kept @State.fireWake_fr]

theorem State.ioOff_fr (s : State) : (State.ioOff s).pending = s.pending ∧ (State.ioOff s).flash = s.flash ∧ (State.ioOff s).coldOpt = s.coldOpt ∧ (State.ioOff s).ctu = s.ctu ∧ (State.ioOff s).resp = s.resp ∧ (State.ioOff s).out = s.out ∧ (State.ioOff s).free = s.free := by
  generalize h : State.ioOff s = u
  unfold State.ioOff at h
  rw [← h]; simp [kept @State.dropOrders_fr, kept @State.pk_fr, kept @State.portsOff_fr, kept @State.resetPmc_fr, kept @State.resetRegs_fr, kept @State.resetUnits_fr, kept @State.selfRefresh_fr, kept @State.wrs_fr]

theorem execModeTransitionDone_fr (s : State) {u : State} (h : execModeTransitionDone s = .next u) : u.pending = s.pending ∧ u.flash = s.flash ∧ u.coldOpt = s.coldOpt ∧ u.ctu = s.ctu ∧ u.resp = s.resp ∧ u.free = s.free := by
  unfold execModeTransitionDone at h
  (try dsimp only at h); (repeat' split at h) <;> (first | (simp only [Host.Outcome.next.injEq] at h; rw [← h]) | (simp only [reduceCtorEq] at h; done) | (simp only [Option.some.injEq] at h; rw [← h])) <;> simp [kept @State.arriveMode_fr, kept @State.duskGate_fr, kept @State.endMode_fr, kept @State.ioOff_fr, kept @State.pk_fr, kept @State.sampleWake_fr]

theorem execNightWake_fr (s : State) {u : State} (h : execNightWake s = .next u) : u.pending = s.pending ∧ u.flash = s.flash ∧ u.coldOpt = s.coldOpt ∧ u.mem = s.mem ∧ u.eng = s.eng ∧ u.dm = s.dm ∧ u.ctu = s.ctu ∧ u.aplicS = s.aplicS ∧ u.aplicN = s.aplicN ∧ u.credits = s.credits ∧ u.pkts = s.pkts ∧ u.resp = s.resp ∧ u.wires = s.wires ∧ u.dmg = s.dmg ∧ u.dbInval = s.dbInval ∧ u.watch = s.watch ∧ u.out = s.out ∧ u.free = s.free ∧ u.fabric = s.fabric := by
  unfold execNightWake at h
  (try dsimp only at h); (repeat' split at h) <;> (first | (simp only [Host.Outcome.next.injEq] at h; rw [← h]) | (simp only [reduceCtorEq] at h; done) | (simp only [Option.some.injEq] at h; rw [← h])) <;> simp [kept @State.arriveMode_fr, kept @State.finxisLow_fr, kept @State.leaveSr_fr, kept @State.linksL1_fr, kept @State.pk_fr, kept @State.restoreSave_fr, kept @State.wakeDies_fr, kept @State.wr_fr]

theorem execMidnightWake_fr (s : State) {u : State} (h : execMidnightWake s = .next u) : u.pending = s.pending ∧ u.flash = s.flash ∧ u.coldOpt = s.coldOpt ∧ u.mem = s.mem ∧ u.harts = s.harts ∧ u.mram = s.mram ∧ u.imsic = s.imsic ∧ u.eng = s.eng ∧ u.dm = s.dm ∧ u.fx = s.fx ∧ u.ctu = s.ctu ∧ u.links = s.links ∧ u.aplicS = s.aplicS ∧ u.aplicN = s.aplicN ∧ u.credits = s.credits ∧ u.clusters = s.clusters ∧ u.homes = s.homes ∧ u.pkts = s.pkts ∧ u.resp = s.resp ∧ u.regs = s.regs ∧ u.wires = s.wires ∧ u.dmg = s.dmg ∧ u.wq = s.wq ∧ u.net = s.net ∧ u.dbInval = s.dbInval ∧ u.watch = s.watch ∧ u.pmc = s.pmc ∧ u.fwLog = s.fwLog ∧ u.out = s.out ∧ u.free = s.free ∧ u.fabric = s.fabric ∧ u.files = s.files := by
  unfold execMidnightWake at h
  (try dsimp only at h); (repeat' split at h) <;> (first | (simp only [Host.Outcome.next.injEq] at h; rw [← h]) | (simp only [reduceCtorEq] at h; done) | (simp only [Option.some.injEq] at h; rw [← h])) <;> simp [kept @State.pk_fr]

theorem execDieLoss_fr (d : Fin 12) (why : DieCause) (s : State) {u : State} (h : execDieLoss d why s = .next u) : u.pending = s.pending ∧ u.flash = s.flash ∧ u.coldOpt = s.coldOpt ∧ u.resp = s.resp ∧ u.free = s.free := by
  unfold execDieLoss at h
  (try dsimp only at h); (repeat' split at h) <;> (first | (simp only [Host.Outcome.next.injEq] at h; rw [← h]) | (simp only [reduceCtorEq] at h; done) | (simp only [Option.some.injEq] at h; rw [← h])) <;> simp [kept @State.loseDie_fr]

theorem execDieReadmit_fr (d : Fin 12) (site : Option DieSite) (pass : Bool) (s : State) {u : State} (h : execDieReadmit d site pass s = .next u) : u.pending = s.pending ∧ u.flash = s.flash ∧ u.coldOpt = s.coldOpt ∧ u.mem = s.mem ∧ u.harts = s.harts ∧ u.mram = s.mram ∧ u.imsic = s.imsic ∧ u.eng = s.eng ∧ u.dm = s.dm ∧ u.fx = s.fx ∧ u.ctu = s.ctu ∧ u.links = s.links ∧ u.aplicS = s.aplicS ∧ u.aplicN = s.aplicN ∧ u.credits = s.credits ∧ u.clusters = s.clusters ∧ u.homes = s.homes ∧ u.pkts = s.pkts ∧ u.resp = s.resp ∧ u.wires = s.wires ∧ u.dmg = s.dmg ∧ u.wq = s.wq ∧ u.net = s.net ∧ u.dbInval = s.dbInval ∧ u.watch = s.watch ∧ u.pmc = s.pmc ∧ u.fwLog = s.fwLog ∧ u.out = s.out ∧ u.free = s.free ∧ u.fabric = s.fabric ∧ u.files = s.files := by
  unfold execDieReadmit at h
  (try dsimp only at h); (repeat' split at h) <;> (first | (simp only [Host.Outcome.next.injEq] at h; rw [← h]) | (simp only [reduceCtorEq] at h; done) | (simp only [Option.some.injEq] at h; rw [← h])) <;> simp [kept @State.pk_fr, kept @State.wrs_fr]

theorem State.fillTrip_fr (s : State) (n : Nat) (temp : Int) : (State.fillTrip s n temp).pending = s.pending ∧ (State.fillTrip s n temp).flash = s.flash ∧ (State.fillTrip s n temp).coldOpt = s.coldOpt ∧ (State.fillTrip s n temp).mem = s.mem ∧ (State.fillTrip s n temp).harts = s.harts ∧ (State.fillTrip s n temp).imsic = s.imsic ∧ (State.fillTrip s n temp).eng = s.eng ∧ (State.fillTrip s n temp).dm = s.dm ∧ (State.fillTrip s n temp).fx = s.fx ∧ (State.fillTrip s n temp).ctu = s.ctu ∧ (State.fillTrip s n temp).links = s.links ∧ (State.fillTrip s n temp).aplicS = s.aplicS ∧ (State.fillTrip s n temp).aplicN = s.aplicN ∧ (State.fillTrip s n temp).credits = s.credits ∧ (State.fillTrip s n temp).clusters = s.clusters ∧ (State.fillTrip s n temp).homes = s.homes ∧ (State.fillTrip s n temp).pkts = s.pkts ∧ (State.fillTrip s n temp).resp = s.resp ∧ (State.fillTrip s n temp).wires = s.wires ∧ (State.fillTrip s n temp).dmg = s.dmg ∧ (State.fillTrip s n temp).wq = s.wq ∧ (State.fillTrip s n temp).net = s.net ∧ (State.fillTrip s n temp).dbInval = s.dbInval ∧ (State.fillTrip s n temp).watch = s.watch ∧ (State.fillTrip s n temp).pkg = s.pkg ∧ (State.fillTrip s n temp).fwLog = s.fwLog ∧ (State.fillTrip s n temp).out = s.out ∧ (State.fillTrip s n temp).free = s.free ∧ (State.fillTrip s n temp).fabric = s.fabric ∧ (State.fillTrip s n temp).files = s.files := by
  generalize h : State.fillTrip s n temp = u
  unfold State.fillTrip at h
  rw [← h]; simp [kept @State.log_fr, kept @State.wr_fr, kept @State.wrs_fr]

theorem State.tripCause_fr (s : State) : (State.tripCause s).pending = s.pending ∧ (State.tripCause s).flash = s.flash ∧ (State.tripCause s).coldOpt = s.coldOpt ∧ (State.tripCause s).mem = s.mem ∧ (State.tripCause s).harts = s.harts ∧ (State.tripCause s).mram = s.mram ∧ (State.tripCause s).imsic = s.imsic ∧ (State.tripCause s).eng = s.eng ∧ (State.tripCause s).dm = s.dm ∧ (State.tripCause s).fx = s.fx ∧ (State.tripCause s).ctu = s.ctu ∧ (State.tripCause s).links = s.links ∧ (State.tripCause s).aplicS = s.aplicS ∧ (State.tripCause s).aplicN = s.aplicN ∧ (State.tripCause s).credits = s.credits ∧ (State.tripCause s).clusters = s.clusters ∧ (State.tripCause s).homes = s.homes ∧ (State.tripCause s).pkts = s.pkts ∧ (State.tripCause s).resp = s.resp ∧ (State.tripCause s).wires = s.wires ∧ (State.tripCause s).dmg = s.dmg ∧ (State.tripCause s).wq = s.wq ∧ (State.tripCause s).net = s.net ∧ (State.tripCause s).dbInval = s.dbInval ∧ (State.tripCause s).watch = s.watch ∧ (State.tripCause s).pkg = s.pkg ∧ (State.tripCause s).pmc = s.pmc ∧ (State.tripCause s).fwLog = s.fwLog ∧ (State.tripCause s).out = s.out ∧ (State.tripCause s).free = s.free ∧ (State.tripCause s).fabric = s.fabric ∧ (State.tripCause s).files = s.files := by
  generalize h : State.tripCause s = u
  unfold State.tripCause at h
  rw [← h]; simp [kept @State.hartCause_fr, kept @State.recordReach_fr, kept @State.wr_fr]

theorem State.tripIn_fr (s : State) (m : Nat) : (State.tripIn s m).pending = s.pending ∧ (State.tripIn s m).flash = s.flash ∧ (State.tripIn s m).coldOpt = s.coldOpt ∧ (State.tripIn s m).resp = s.resp ∧ (State.tripIn s m).free = s.free := by
  generalize h : State.tripIn s m = u
  unfold State.tripIn at h
  rw [← h]; simp [kept @State.enterCaution_fr, kept @State.enterSiding_fr, kept @State.pk_fr, kept @State.pmcStart_fr, kept @State.stopUnits_fr, kept @State.tripCause_fr]

theorem execThermalTrip_fr (n : Fin 148) (temp : Int) (s : State) {u : State} (h : execThermalTrip n temp s = .next u) : u.pending = s.pending ∧ u.flash = s.flash ∧ u.coldOpt = s.coldOpt ∧ u.resp = s.resp ∧ u.free = s.free := by
  unfold execThermalTrip at h
  (try dsimp only at h); (repeat' split at h) <;> (first | (simp only [Host.Outcome.next.injEq] at h; rw [← h]) | (simp only [reduceCtorEq] at h; done) | (simp only [Option.some.injEq] at h; rw [← h])) <;> simp [kept @State.fillTrip_fr, kept @State.pk_fr, kept @State.tripIn_fr]

theorem State.crossings_fr (s : State) (old : State) : (State.crossings s old).pending = s.pending ∧ (State.crossings s old).flash = s.flash ∧ (State.crossings s old).coldOpt = s.coldOpt ∧ (State.crossings s old).mem = s.mem ∧ (State.crossings s old).harts = s.harts ∧ (State.crossings s old).mram = s.mram ∧ (State.crossings s old).imsic = s.imsic ∧ (State.crossings s old).eng = s.eng ∧ (State.crossings s old).dm = s.dm ∧ (State.crossings s old).fx = s.fx ∧ (State.crossings s old).ctu = s.ctu ∧ (State.crossings s old).links = s.links ∧ (State.crossings s old).aplicS = s.aplicS ∧ (State.crossings s old).aplicN = s.aplicN ∧ (State.crossings s old).credits = s.credits ∧ (State.crossings s old).clusters = s.clusters ∧ (State.crossings s old).homes = s.homes ∧ (State.crossings s old).pkts = s.pkts ∧ (State.crossings s old).resp = s.resp ∧ (State.crossings s old).regs = s.regs ∧ (State.crossings s old).wires = s.wires ∧ (State.crossings s old).dmg = s.dmg ∧ (State.crossings s old).wq = s.wq ∧ (State.crossings s old).net = s.net ∧ (State.crossings s old).dbInval = s.dbInval ∧ (State.crossings s old).watch = s.watch ∧ (State.crossings s old).pkg = s.pkg ∧ (State.crossings s old).pmc = s.pmc ∧ (State.crossings s old).fwLog = s.fwLog ∧ (State.crossings s old).free = s.free ∧ (State.crossings s old).fabric = s.fabric ∧ (State.crossings s old).files = s.files := by
  generalize h : State.crossings s old = u
  unfold State.crossings at h
  rw [← h]; simp [kept @State.send_fr]

theorem State.setAlt_fr (s : State) : (State.setAlt s).pending = s.pending ∧ (State.setAlt s).flash = s.flash ∧ (State.setAlt s).coldOpt = s.coldOpt ∧ (State.setAlt s).mem = s.mem ∧ (State.setAlt s).harts = s.harts ∧ (State.setAlt s).mram = s.mram ∧ (State.setAlt s).imsic = s.imsic ∧ (State.setAlt s).eng = s.eng ∧ (State.setAlt s).dm = s.dm ∧ (State.setAlt s).fx = s.fx ∧ (State.setAlt s).ctu = s.ctu ∧ (State.setAlt s).links = s.links ∧ (State.setAlt s).aplicS = s.aplicS ∧ (State.setAlt s).aplicN = s.aplicN ∧ (State.setAlt s).credits = s.credits ∧ (State.setAlt s).clusters = s.clusters ∧ (State.setAlt s).homes = s.homes ∧ (State.setAlt s).pkts = s.pkts ∧ (State.setAlt s).resp = s.resp ∧ (State.setAlt s).regs = s.regs ∧ (State.setAlt s).wires = s.wires ∧ (State.setAlt s).dmg = s.dmg ∧ (State.setAlt s).wq = s.wq ∧ (State.setAlt s).net = s.net ∧ (State.setAlt s).dbInval = s.dbInval ∧ (State.setAlt s).watch = s.watch ∧ (State.setAlt s).pmc = s.pmc ∧ (State.setAlt s).fwLog = s.fwLog ∧ (State.setAlt s).out = s.out ∧ (State.setAlt s).free = s.free ∧ (State.setAlt s).fabric = s.fabric ∧ (State.setAlt s).files = s.files := by
  generalize h : State.setAlt s = u
  unfold State.setAlt at h
  rw [← h]; simp [kept @State.pk_fr]

theorem execSensorScan_fr (temps : List Int) (s : State) {u : State} (h : execSensorScan temps s = .next u) : u.pending = s.pending ∧ u.flash = s.flash ∧ u.coldOpt = s.coldOpt ∧ u.mem = s.mem ∧ u.resp = s.resp ∧ u.free = s.free := by
  unfold execSensorScan at h
  (try dsimp only at h); (repeat' split at h) <;> (first | (simp only [Host.Outcome.next.injEq] at h; rw [← h]) | (simp only [reduceCtorEq] at h; done) | (simp only [Option.some.injEq] at h; rw [← h])) <;> simp [kept @State.coldReset_fr, kept @State.crossings_fr, kept @State.pk_fr, kept @State.readSensors_fr, kept @State.setAlt_fr]

theorem State.slower_fr (s : State) (d : Nat) : (State.slower s d).pending = s.pending ∧ (State.slower s d).flash = s.flash ∧ (State.slower s d).coldOpt = s.coldOpt ∧ (State.slower s d).mem = s.mem ∧ (State.slower s d).harts = s.harts ∧ (State.slower s d).mram = s.mram ∧ (State.slower s d).imsic = s.imsic ∧ (State.slower s d).eng = s.eng ∧ (State.slower s d).dm = s.dm ∧ (State.slower s d).fx = s.fx ∧ (State.slower s d).ctu = s.ctu ∧ (State.slower s d).links = s.links ∧ (State.slower s d).aplicS = s.aplicS ∧ (State.slower s d).aplicN = s.aplicN ∧ (State.slower s d).credits = s.credits ∧ (State.slower s d).clusters = s.clusters ∧ (State.slower s d).homes = s.homes ∧ (State.slower s d).pkts = s.pkts ∧ (State.slower s d).resp = s.resp ∧ (State.slower s d).wires = s.wires ∧ (State.slower s d).dmg = s.dmg ∧ (State.slower s d).wq = s.wq ∧ (State.slower s d).net = s.net ∧ (State.slower s d).dbInval = s.dbInval ∧ (State.slower s d).watch = s.watch ∧ (State.slower s d).pkg = s.pkg ∧ (State.slower s d).pmc = s.pmc ∧ (State.slower s d).fwLog = s.fwLog ∧ (State.slower s d).out = s.out ∧ (State.slower s d).free = s.free ∧ (State.slower s d).fabric = s.fabric ∧ (State.slower s d).files = s.files := by
  generalize h : State.slower s d = u
  unfold State.slower at h
  rw [← h]; simp [kept @State.aimCode_fr]

theorem execThrottleStep_fr (s : State) {u : State} (h : execThrottleStep s = .next u) : u.pending = s.pending ∧ u.flash = s.flash ∧ u.coldOpt = s.coldOpt ∧ u.mem = s.mem ∧ u.harts = s.harts ∧ u.mram = s.mram ∧ u.imsic = s.imsic ∧ u.eng = s.eng ∧ u.dm = s.dm ∧ u.fx = s.fx ∧ u.ctu = s.ctu ∧ u.links = s.links ∧ u.aplicS = s.aplicS ∧ u.aplicN = s.aplicN ∧ u.credits = s.credits ∧ u.clusters = s.clusters ∧ u.homes = s.homes ∧ u.pkts = s.pkts ∧ u.resp = s.resp ∧ u.dmg = s.dmg ∧ u.wq = s.wq ∧ u.net = s.net ∧ u.dbInval = s.dbInval ∧ u.watch = s.watch ∧ u.pmc = s.pmc ∧ u.fwLog = s.fwLog ∧ u.out = s.out ∧ u.free = s.free ∧ u.fabric = s.fabric ∧ u.files = s.files := by
  unfold execThrottleStep at h
  (first | (simp only [Host.Outcome.next.injEq] at h; rw [← h]) | (simp only [reduceCtorEq] at h; done) | (simp only [Option.some.injEq] at h; rw [← h])); simp [kept @State.raise_fr, kept @State.retarget_fr, kept @State.setAlt_fr, kept @State.wr_fr]

theorem execThrottleRelax_fr (s : State) {u : State} (h : execThrottleRelax s = .next u) : u.pending = s.pending ∧ u.flash = s.flash ∧ u.coldOpt = s.coldOpt ∧ u.mem = s.mem ∧ u.harts = s.harts ∧ u.mram = s.mram ∧ u.imsic = s.imsic ∧ u.eng = s.eng ∧ u.dm = s.dm ∧ u.fx = s.fx ∧ u.ctu = s.ctu ∧ u.links = s.links ∧ u.aplicS = s.aplicS ∧ u.aplicN = s.aplicN ∧ u.credits = s.credits ∧ u.clusters = s.clusters ∧ u.homes = s.homes ∧ u.pkts = s.pkts ∧ u.resp = s.resp ∧ u.wires = s.wires ∧ u.dmg = s.dmg ∧ u.wq = s.wq ∧ u.net = s.net ∧ u.dbInval = s.dbInval ∧ u.watch = s.watch ∧ u.pmc = s.pmc ∧ u.fwLog = s.fwLog ∧ u.out = s.out ∧ u.free = s.free ∧ u.fabric = s.fabric ∧ u.files = s.files := by
  unfold execThrottleRelax at h
  (first | (simp only [Host.Outcome.next.injEq] at h; rw [← h]) | (simp only [reduceCtorEq] at h; done) | (simp only [Option.some.injEq] at h; rw [← h])); simp [kept @State.retarget_fr, kept @State.setAlt_fr, kept @State.wr_fr]

theorem execBudgetRound_fr (uncore : Nat) (total : Nat) (meters : List Nat) (s : State) {u : State} (h : execBudgetRound uncore total meters s = .next u) : u.pending = s.pending ∧ u.flash = s.flash ∧ u.coldOpt = s.coldOpt ∧ u.mem = s.mem ∧ u.harts = s.harts ∧ u.mram = s.mram ∧ u.imsic = s.imsic ∧ u.eng = s.eng ∧ u.dm = s.dm ∧ u.fx = s.fx ∧ u.ctu = s.ctu ∧ u.links = s.links ∧ u.aplicS = s.aplicS ∧ u.aplicN = s.aplicN ∧ u.credits = s.credits ∧ u.clusters = s.clusters ∧ u.homes = s.homes ∧ u.pkts = s.pkts ∧ u.resp = s.resp ∧ u.wires = s.wires ∧ u.dmg = s.dmg ∧ u.wq = s.wq ∧ u.net = s.net ∧ u.dbInval = s.dbInval ∧ u.watch = s.watch ∧ u.pmc = s.pmc ∧ u.fwLog = s.fwLog ∧ u.out = s.out ∧ u.free = s.free ∧ u.fabric = s.fabric ∧ u.files = s.files := by
  unfold execBudgetRound at h
  (first | (simp only [Host.Outcome.next.injEq] at h; rw [← h]) | (simp only [reduceCtorEq] at h; done) | (simp only [Option.some.injEq] at h; rw [← h])); simp [kept @State.pk_fr, kept @State.wrs_fr]

theorem execBudgetBid_fr (d : Fin 12) (demand : Nat) (s : State) {u : State} (h : execBudgetBid d demand s = .next u) : u.pending = s.pending ∧ u.flash = s.flash ∧ u.coldOpt = s.coldOpt ∧ u.mem = s.mem ∧ u.harts = s.harts ∧ u.mram = s.mram ∧ u.imsic = s.imsic ∧ u.eng = s.eng ∧ u.dm = s.dm ∧ u.fx = s.fx ∧ u.ctu = s.ctu ∧ u.links = s.links ∧ u.aplicS = s.aplicS ∧ u.aplicN = s.aplicN ∧ u.credits = s.credits ∧ u.clusters = s.clusters ∧ u.homes = s.homes ∧ u.pkts = s.pkts ∧ u.resp = s.resp ∧ u.wires = s.wires ∧ u.dmg = s.dmg ∧ u.wq = s.wq ∧ u.net = s.net ∧ u.dbInval = s.dbInval ∧ u.watch = s.watch ∧ u.pmc = s.pmc ∧ u.fwLog = s.fwLog ∧ u.out = s.out ∧ u.free = s.free ∧ u.fabric = s.fabric ∧ u.files = s.files := by
  unfold execBudgetBid at h
  (try dsimp only at h); (repeat' split at h) <;> (first | (simp only [Host.Outcome.next.injEq] at h; rw [← h]) | (simp only [reduceCtorEq] at h; done) | (simp only [Option.some.injEq] at h; rw [← h])) <;> simp [kept @State.pk_fr, kept @State.wrs_fr]

theorem execBudgetGrant_fr (d : Fin 12) (s : State) {u : State} (h : execBudgetGrant d s = .next u) : u.pending = s.pending ∧ u.flash = s.flash ∧ u.coldOpt = s.coldOpt ∧ u.mem = s.mem ∧ u.harts = s.harts ∧ u.mram = s.mram ∧ u.imsic = s.imsic ∧ u.eng = s.eng ∧ u.dm = s.dm ∧ u.fx = s.fx ∧ u.ctu = s.ctu ∧ u.links = s.links ∧ u.aplicS = s.aplicS ∧ u.aplicN = s.aplicN ∧ u.credits = s.credits ∧ u.clusters = s.clusters ∧ u.homes = s.homes ∧ u.pkts = s.pkts ∧ u.resp = s.resp ∧ u.wires = s.wires ∧ u.dmg = s.dmg ∧ u.wq = s.wq ∧ u.net = s.net ∧ u.dbInval = s.dbInval ∧ u.watch = s.watch ∧ u.pmc = s.pmc ∧ u.fwLog = s.fwLog ∧ u.out = s.out ∧ u.free = s.free ∧ u.fabric = s.fabric ∧ u.files = s.files := by
  unfold execBudgetGrant at h
  (try dsimp only at h); (repeat' split at h) <;> (first | (simp only [Host.Outcome.next.injEq] at h; rw [← h]) | (simp only [reduceCtorEq] at h; done) | (simp only [Option.some.injEq] at h; rw [← h])) <;> simp [kept @State.pk_fr, kept @State.retarget_fr, kept @State.wr_fr]

theorem execCclkDividerSwitch_fr (d : Fin 12) (s : State) {u : State} (h : execCclkDividerSwitch d s = .next u) : u.pending = s.pending ∧ u.flash = s.flash ∧ u.coldOpt = s.coldOpt ∧ u.mem = s.mem ∧ u.mram = s.mram ∧ u.imsic = s.imsic ∧ u.eng = s.eng ∧ u.dm = s.dm ∧ u.fx = s.fx ∧ u.ctu = s.ctu ∧ u.links = s.links ∧ u.aplicS = s.aplicS ∧ u.aplicN = s.aplicN ∧ u.credits = s.credits ∧ u.clusters = s.clusters ∧ u.homes = s.homes ∧ u.pkts = s.pkts ∧ u.resp = s.resp ∧ u.wires = s.wires ∧ u.dmg = s.dmg ∧ u.wq = s.wq ∧ u.net = s.net ∧ u.dbInval = s.dbInval ∧ u.watch = s.watch ∧ u.pkg = s.pkg ∧ u.pmc = s.pmc ∧ u.fwLog = s.fwLog ∧ u.out = s.out ∧ u.free = s.free ∧ u.fabric = s.fabric ∧ u.files = s.files := by
  unfold execCclkDividerSwitch at h
  (try dsimp only at h); (repeat' split at h) <;> (first | (simp only [Host.Outcome.next.injEq] at h; rw [← h]) | (simp only [reduceCtorEq] at h; done) | (simp only [Option.some.injEq] at h; rw [← h])) <;> simp [kept @State.setHart_fr, kept @State.wrs_fr]

theorem execDrawMeterCheck_fr (d : Fin 12) (mean : Nat) (s : State) {u : State} (h : execDrawMeterCheck d mean s = .next u) : u.pending = s.pending ∧ u.flash = s.flash ∧ u.coldOpt = s.coldOpt ∧ u.mem = s.mem ∧ u.harts = s.harts ∧ u.mram = s.mram ∧ u.imsic = s.imsic ∧ u.eng = s.eng ∧ u.dm = s.dm ∧ u.fx = s.fx ∧ u.ctu = s.ctu ∧ u.links = s.links ∧ u.aplicS = s.aplicS ∧ u.aplicN = s.aplicN ∧ u.credits = s.credits ∧ u.clusters = s.clusters ∧ u.homes = s.homes ∧ u.pkts = s.pkts ∧ u.resp = s.resp ∧ u.wires = s.wires ∧ u.dmg = s.dmg ∧ u.wq = s.wq ∧ u.net = s.net ∧ u.dbInval = s.dbInval ∧ u.watch = s.watch ∧ u.pkg = s.pkg ∧ u.pmc = s.pmc ∧ u.fwLog = s.fwLog ∧ u.out = s.out ∧ u.free = s.free ∧ u.fabric = s.fabric ∧ u.files = s.files := by
  unfold execDrawMeterCheck at h
  (try dsimp only at h); (repeat' split at h) <;> (first | (simp only [Host.Outcome.next.injEq] at h; rw [← h]) | (simp only [reduceCtorEq] at h; done) | (simp only [Option.some.injEq] at h; rw [← h])) <;> simp [kept @State.slower_fr]

theorem execPackagePowerLimit_fr (mean : Nat) (s : State) {u : State} (h : execPackagePowerLimit mean s = .next u) : u.pending = s.pending ∧ u.flash = s.flash ∧ u.coldOpt = s.coldOpt ∧ u.mem = s.mem ∧ u.harts = s.harts ∧ u.mram = s.mram ∧ u.imsic = s.imsic ∧ u.eng = s.eng ∧ u.dm = s.dm ∧ u.fx = s.fx ∧ u.ctu = s.ctu ∧ u.links = s.links ∧ u.aplicS = s.aplicS ∧ u.aplicN = s.aplicN ∧ u.credits = s.credits ∧ u.clusters = s.clusters ∧ u.homes = s.homes ∧ u.pkts = s.pkts ∧ u.resp = s.resp ∧ u.wires = s.wires ∧ u.dmg = s.dmg ∧ u.wq = s.wq ∧ u.net = s.net ∧ u.dbInval = s.dbInval ∧ u.watch = s.watch ∧ u.pkg = s.pkg ∧ u.pmc = s.pmc ∧ u.fwLog = s.fwLog ∧ u.out = s.out ∧ u.free = s.free ∧ u.fabric = s.fabric ∧ u.files = s.files := by
  unfold execPackagePowerLimit at h
  (try dsimp only at h); (repeat' split at h) <;> (first | (simp only [Host.Outcome.next.injEq] at h; rw [← h]) | (simp only [reduceCtorEq] at h; done) | (simp only [Option.some.injEq] at h; rw [← h])) <;> simp [kept @State.slower_fr, kept @State.wr_fr]

theorem execUnitPowerDownDone_fr (unit : Nat) (s : State) {u : State} (h : execUnitPowerDownDone unit s = .next u) : u.pending = s.pending ∧ u.flash = s.flash ∧ u.coldOpt = s.coldOpt ∧ u.mem = s.mem ∧ u.mram = s.mram ∧ u.dm = s.dm ∧ u.ctu = s.ctu ∧ u.aplicS = s.aplicS ∧ u.aplicN = s.aplicN ∧ u.credits = s.credits ∧ u.pkts = s.pkts ∧ u.resp = s.resp ∧ u.dmg = s.dmg ∧ u.dbInval = s.dbInval ∧ u.watch = s.watch ∧ u.free = s.free ∧ u.fabric = s.fabric := by
  unfold execUnitPowerDownDone at h
  (try dsimp only at h); (repeat' split at h) <;> (first | (simp only [Host.Outcome.next.injEq] at h; rw [← h]) | (simp only [reduceCtorEq] at h; done) | (simp only [Option.some.injEq] at h; rw [← h])) <;> simp [kept @State.endPower_fr, kept @State.finxisDown_fr, kept @State.linkDown_fr, kept @State.loseCluster_fr, kept @State.pk_fr, kept @State.resetSliceRegs_fr, kept @State.wr_fr]

theorem execUnitPowerUpDone_fr (unit : Nat) (s : State) {u : State} (h : execUnitPowerUpDone unit s = .next u) : u.pending = s.pending ∧ u.flash = s.flash ∧ u.coldOpt = s.coldOpt ∧ u.mem = s.mem ∧ u.harts = s.harts ∧ u.mram = s.mram ∧ u.imsic = s.imsic ∧ u.eng = s.eng ∧ u.dm = s.dm ∧ u.ctu = s.ctu ∧ u.links = s.links ∧ u.aplicS = s.aplicS ∧ u.aplicN = s.aplicN ∧ u.credits = s.credits ∧ u.clusters = s.clusters ∧ u.homes = s.homes ∧ u.pkts = s.pkts ∧ u.resp = s.resp ∧ u.dmg = s.dmg ∧ u.wq = s.wq ∧ u.net = s.net ∧ u.dbInval = s.dbInval ∧ u.watch = s.watch ∧ u.fwLog = s.fwLog ∧ u.free = s.free ∧ u.fabric = s.fabric ∧ u.files = s.files := by
  unfold execUnitPowerUpDone at h
  (try dsimp only at h); (repeat' split at h) <;> (first | (simp only [Host.Outcome.next.injEq] at h; rw [← h]) | (simp only [reduceCtorEq] at h; done) | (simp only [Option.some.injEq] at h; rw [← h])) <;> simp [kept @State.endPower_fr, kept @State.pk_fr, kept @State.wr_fr]

theorem execUnitDrainTimeout_fr (unit : Nat) (s : State) {u : State} (h : execUnitDrainTimeout unit s = .next u) : u.pending = s.pending ∧ u.flash = s.flash ∧ u.coldOpt = s.coldOpt ∧ u.resp = s.resp ∧ u.free = s.free := by
  unfold execUnitDrainTimeout at h
  (try dsimp only at h); (repeat' split at h) <;> (first | (simp only [Host.Outcome.next.injEq] at h; rw [← h]) | (simp only [reduceCtorEq] at h; done) | (simp only [Option.some.injEq] at h; rw [← h])) <;> simp [kept @State.endPower_fr, kept @State.fatalPkg_fr, kept @State.fenceCluster_fr, kept @State.finxisDown_fr, kept @State.linkDown_fr, kept @State.pk_fr, kept @State.recordErr_fr, kept @State.wr_fr]

theorem execMemIdleSelfRefresh_fr (m : Fin 16) (s : State) {u : State} (h : execMemIdleSelfRefresh m s = .next u) : u.pending = s.pending ∧ u.flash = s.flash ∧ u.coldOpt = s.coldOpt ∧ u.mem = s.mem ∧ u.harts = s.harts ∧ u.mram = s.mram ∧ u.imsic = s.imsic ∧ u.eng = s.eng ∧ u.dm = s.dm ∧ u.fx = s.fx ∧ u.ctu = s.ctu ∧ u.links = s.links ∧ u.aplicS = s.aplicS ∧ u.aplicN = s.aplicN ∧ u.credits = s.credits ∧ u.clusters = s.clusters ∧ u.homes = s.homes ∧ u.pkts = s.pkts ∧ u.resp = s.resp ∧ u.wires = s.wires ∧ u.dmg = s.dmg ∧ u.wq = s.wq ∧ u.net = s.net ∧ u.dbInval = s.dbInval ∧ u.watch = s.watch ∧ u.pmc = s.pmc ∧ u.fwLog = s.fwLog ∧ u.out = s.out ∧ u.free = s.free ∧ u.fabric = s.fabric ∧ u.files = s.files := by
  unfold execMemIdleSelfRefresh at h
  (try dsimp only at h); (repeat' split at h) <;> (first | (simp only [Host.Outcome.next.injEq] at h; rw [← h]) | (simp only [reduceCtorEq] at h; done) | (simp only [Option.some.injEq] at h; rw [← h])) <;> simp [kept @State.pk_fr, kept @State.wr_fr]

theorem State.wakePin_fr (s : State) (b : Nat) (low : Bool) : (State.wakePin s b low).pending = s.pending ∧ (State.wakePin s b low).flash = s.flash ∧ (State.wakePin s b low).coldOpt = s.coldOpt ∧ (State.wakePin s b low).mem = s.mem ∧ (State.wakePin s b low).harts = s.harts ∧ (State.wakePin s b low).mram = s.mram ∧ (State.wakePin s b low).imsic = s.imsic ∧ (State.wakePin s b low).eng = s.eng ∧ (State.wakePin s b low).dm = s.dm ∧ (State.wakePin s b low).fx = s.fx ∧ (State.wakePin s b low).ctu = s.ctu ∧ (State.wakePin s b low).links = s.links ∧ (State.wakePin s b low).aplicS = s.aplicS ∧ (State.wakePin s b low).aplicN = s.aplicN ∧ (State.wakePin s b low).credits = s.credits ∧ (State.wakePin s b low).clusters = s.clusters ∧ (State.wakePin s b low).homes = s.homes ∧ (State.wakePin s b low).pkts = s.pkts ∧ (State.wakePin s b low).resp = s.resp ∧ (State.wakePin s b low).wires = s.wires ∧ (State.wakePin s b low).dmg = s.dmg ∧ (State.wakePin s b low).wq = s.wq ∧ (State.wakePin s b low).net = s.net ∧ (State.wakePin s b low).dbInval = s.dbInval ∧ (State.wakePin s b low).watch = s.watch ∧ (State.wakePin s b low).pmc = s.pmc ∧ (State.wakePin s b low).fwLog = s.fwLog ∧ (State.wakePin s b low).out = s.out ∧ (State.wakePin s b low).free = s.free ∧ (State.wakePin s b low).fabric = s.fabric ∧ (State.wakePin s b low).files = s.files := by
  generalize h : State.wakePin s b low = u
  unfold State.wakePin at h
  rw [← h]; simp [kept @State.fireWake_fr, kept @State.pk_fr]

theorem execWakePin_fr (low : Bool) (s : State) {u : State} (h : execWakePin low s = .next u) : u.pending = s.pending ∧ u.flash = s.flash ∧ u.coldOpt = s.coldOpt ∧ u.mem = s.mem ∧ u.harts = s.harts ∧ u.mram = s.mram ∧ u.imsic = s.imsic ∧ u.eng = s.eng ∧ u.dm = s.dm ∧ u.fx = s.fx ∧ u.ctu = s.ctu ∧ u.links = s.links ∧ u.aplicS = s.aplicS ∧ u.aplicN = s.aplicN ∧ u.credits = s.credits ∧ u.clusters = s.clusters ∧ u.homes = s.homes ∧ u.pkts = s.pkts ∧ u.resp = s.resp ∧ u.wires = s.wires ∧ u.dmg = s.dmg ∧ u.wq = s.wq ∧ u.net = s.net ∧ u.dbInval = s.dbInval ∧ u.watch = s.watch ∧ u.pmc = s.pmc ∧ u.fwLog = s.fwLog ∧ u.out = s.out ∧ u.free = s.free ∧ u.fabric = s.fabric ∧ u.files = s.files := by
  unfold execWakePin at h
  (first | (simp only [Host.Outcome.next.injEq] at h; rw [← h]) | (simp only [reduceCtorEq] at h; done) | (simp only [Option.some.injEq] at h; rw [← h])); simp [kept @State.wakePin_fr]

theorem execFxWake_fr (p : Fin 4) (low : Bool) (s : State) {u : State} (h : execFxWake p low s = .next u) : u.pending = s.pending ∧ u.flash = s.flash ∧ u.coldOpt = s.coldOpt ∧ u.mem = s.mem ∧ u.harts = s.harts ∧ u.mram = s.mram ∧ u.imsic = s.imsic ∧ u.eng = s.eng ∧ u.dm = s.dm ∧ u.fx = s.fx ∧ u.ctu = s.ctu ∧ u.links = s.links ∧ u.aplicS = s.aplicS ∧ u.aplicN = s.aplicN ∧ u.credits = s.credits ∧ u.clusters = s.clusters ∧ u.homes = s.homes ∧ u.pkts = s.pkts ∧ u.resp = s.resp ∧ u.wires = s.wires ∧ u.dmg = s.dmg ∧ u.wq = s.wq ∧ u.net = s.net ∧ u.dbInval = s.dbInval ∧ u.watch = s.watch ∧ u.pmc = s.pmc ∧ u.fwLog = s.fwLog ∧ u.out = s.out ∧ u.free = s.free ∧ u.fabric = s.fabric ∧ u.files = s.files := by
  unfold execFxWake at h
  (first | (simp only [Host.Outcome.next.injEq] at h; rw [← h]) | (simp only [reduceCtorEq] at h; done) | (simp only [Option.some.injEq] at h; rw [← h])); simp [kept @State.wakePin_fr]

theorem execRtcAlarm_fr (s : State) {u : State} (h : execRtcAlarm s = .next u) : u.pending = s.pending ∧ u.flash = s.flash ∧ u.coldOpt = s.coldOpt ∧ u.mem = s.mem ∧ u.harts = s.harts ∧ u.mram = s.mram ∧ u.imsic = s.imsic ∧ u.eng = s.eng ∧ u.dm = s.dm ∧ u.fx = s.fx ∧ u.ctu = s.ctu ∧ u.links = s.links ∧ u.aplicS = s.aplicS ∧ u.aplicN = s.aplicN ∧ u.credits = s.credits ∧ u.clusters = s.clusters ∧ u.homes = s.homes ∧ u.pkts = s.pkts ∧ u.resp = s.resp ∧ u.wires = s.wires ∧ u.dmg = s.dmg ∧ u.wq = s.wq ∧ u.net = s.net ∧ u.dbInval = s.dbInval ∧ u.watch = s.watch ∧ u.pmc = s.pmc ∧ u.fwLog = s.fwLog ∧ u.out = s.out ∧ u.free = s.free ∧ u.fabric = s.fabric ∧ u.files = s.files := by
  unfold execRtcAlarm at h
  (try dsimp only at h); (repeat' split at h) <;> (first | (simp only [Host.Outcome.next.injEq] at h; rw [← h]) | (simp only [reduceCtorEq] at h; done) | (simp only [Option.some.injEq] at h; rw [← h])) <;> simp [kept @State.fireWake_fr, kept @State.wrW_fr]

theorem execThermalWake_fr (temp : Int) (s : State) {u : State} (h : execThermalWake temp s = .next u) : u.pending = s.pending ∧ u.flash = s.flash ∧ u.coldOpt = s.coldOpt ∧ u.mem = s.mem ∧ u.harts = s.harts ∧ u.mram = s.mram ∧ u.imsic = s.imsic ∧ u.eng = s.eng ∧ u.dm = s.dm ∧ u.fx = s.fx ∧ u.ctu = s.ctu ∧ u.links = s.links ∧ u.aplicS = s.aplicS ∧ u.aplicN = s.aplicN ∧ u.credits = s.credits ∧ u.clusters = s.clusters ∧ u.homes = s.homes ∧ u.pkts = s.pkts ∧ u.resp = s.resp ∧ u.wires = s.wires ∧ u.dmg = s.dmg ∧ u.wq = s.wq ∧ u.net = s.net ∧ u.dbInval = s.dbInval ∧ u.watch = s.watch ∧ u.fwLog = s.fwLog ∧ u.out = s.out ∧ u.free = s.free ∧ u.fabric = s.fabric ∧ u.files = s.files := by
  unfold execThermalWake at h
  (try dsimp only at h); (repeat' split at h) <;> (first | (simp only [Host.Outcome.next.injEq] at h; rw [← h]) | (simp only [reduceCtorEq] at h; done) | (simp only [Option.some.injEq] at h; rw [← h])) <;> simp [kept @State.fireWake_fr]

theorem execSidebandAddressMatch_fr (addr : Nat) (handover : Bool) (s : State) {u : State} (h : execSidebandAddressMatch addr handover s = .next u) : u.pending = s.pending ∧ u.flash = s.flash ∧ u.coldOpt = s.coldOpt ∧ u.mem = s.mem ∧ u.harts = s.harts ∧ u.mram = s.mram ∧ u.imsic = s.imsic ∧ u.eng = s.eng ∧ u.dm = s.dm ∧ u.fx = s.fx ∧ u.ctu = s.ctu ∧ u.links = s.links ∧ u.aplicS = s.aplicS ∧ u.aplicN = s.aplicN ∧ u.credits = s.credits ∧ u.clusters = s.clusters ∧ u.homes = s.homes ∧ u.pkts = s.pkts ∧ u.resp = s.resp ∧ u.wires = s.wires ∧ u.dmg = s.dmg ∧ u.wq = s.wq ∧ u.net = s.net ∧ u.dbInval = s.dbInval ∧ u.watch = s.watch ∧ u.pmc = s.pmc ∧ u.fwLog = s.fwLog ∧ u.out = s.out ∧ u.free = s.free ∧ u.fabric = s.fabric ∧ u.files = s.files := by
  unfold execSidebandAddressMatch at h
  (try dsimp only at h); (repeat' split at h) <;> (first | (simp only [Host.Outcome.next.injEq] at h; rw [← h]) | (simp only [reduceCtorEq] at h; done) | (simp only [Option.some.injEq] at h; rw [← h])) <;> simp [kept @State.fireWake_fr]

theorem execPcieWake_fr (j : Fin 112) (handover : Bool) (s : State) {u : State} (h : execPcieWake j handover s = .next u) : u.pending = s.pending ∧ u.flash = s.flash ∧ u.coldOpt = s.coldOpt ∧ u.mem = s.mem ∧ u.harts = s.harts ∧ u.mram = s.mram ∧ u.imsic = s.imsic ∧ u.eng = s.eng ∧ u.dm = s.dm ∧ u.fx = s.fx ∧ u.ctu = s.ctu ∧ u.links = s.links ∧ u.aplicS = s.aplicS ∧ u.aplicN = s.aplicN ∧ u.credits = s.credits ∧ u.clusters = s.clusters ∧ u.homes = s.homes ∧ u.pkts = s.pkts ∧ u.resp = s.resp ∧ u.wires = s.wires ∧ u.dmg = s.dmg ∧ u.wq = s.wq ∧ u.net = s.net ∧ u.dbInval = s.dbInval ∧ u.watch = s.watch ∧ u.pmc = s.pmc ∧ u.fwLog = s.fwLog ∧ u.out = s.out ∧ u.free = s.free ∧ u.fabric = s.fabric ∧ u.files = s.files := by
  unfold execPcieWake at h
  (try dsimp only at h); (repeat' split at h) <;> (first | (simp only [Host.Outcome.next.injEq] at h; rw [← h]) | (simp only [reduceCtorEq] at h; done) | (simp only [Option.some.injEq] at h; rw [← h])) <;> simp [kept @State.fireWake_fr]

end Sys2Proof.Machine
end

