-- ==== Sys2Proof/Laws/Frame/RingCmds.lean ====
section
/-! SUPPORT. What the operations of Machine/RingCmds.lean leave unchanged. -/

set_option Elab.async false
set_option linter.all false

namespace Sys2Proof.Machine
open Sys2Proof

@[simp] theorem State.begin_pending (s : State) (ring : Nat) (seq : Nat) (ops : Nat → Bool) (f : Desc → State → State) (hf : ∀ x0 x1, (f x0 x1).pending = x1.pending) : (State.begin s ring seq ops f).pending = s.pending := by
  unfold State.begin
  first
  | (simp [*, kept @State.endDesc_fr, kept @State.setDesc_fr]; done)
  | ((repeat' split) <;> simp [*, kept @State.endDesc_fr, kept @State.setDesc_fr]; done)
  | ((try dsimp only); (repeat' split) <;> simp (disch := (intros; (repeat' split) <;> simp [*, kept @State.endDesc_fr, kept @State.setDesc_fr])) [*, kept @State.endDesc_fr, kept @State.setDesc_fr]; done)
  | (refine State.taskDo_pending _ _ _ (fun _ => ?_); (repeat' split) <;> first | exact keepsM_pure _ _ | (simp [*, kept @State.endDesc_fr, kept @State.setDesc_fr]; done))

@[simp] theorem State.begin_files (s : State) (ring : Nat) (seq : Nat) (ops : Nat → Bool) (f : Desc → State → State) (hf : ∀ x0 x1, (f x0 x1).files = x1.files) : (State.begin s ring seq ops f).files = s.files := by
  unfold State.begin
  first
  | (simp [*, kept @State.endDesc_fr, kept @State.setDesc_fr]; done)
  | ((repeat' split) <;> simp [*, kept @State.endDesc_fr, kept @State.setDesc_fr]; done)
  | ((try dsimp only); (repeat' split) <;> simp (disch := (intros; (repeat' split) <;> simp [*, kept @State.endDesc_fr, kept @State.setDesc_fr])) [*, kept @State.endDesc_fr, kept @State.setDesc_fr]; done)
  | (refine State.taskDo_files _ _ _ (fun _ => ?_); (repeat' split) <;> first | exact keepsM_pure _ _ | (simp [*, kept @State.endDesc_fr, kept @State.setDesc_fr]; done))

@[simp] theorem State.begin_fabric (s : State) (ring : Nat) (seq : Nat) (ops : Nat → Bool) (f : Desc → State → State) (hf : ∀ x0 x1, (f x0 x1).fabric = x1.fabric) : (State.begin s ring seq ops f).fabric = s.fabric := by
  unfold State.begin
  first
  | (simp [*, kept @State.endDesc_fr, kept @State.setDesc_fr]; done)
  | ((repeat' split) <;> simp [*, kept @State.endDesc_fr, kept @State.setDesc_fr]; done)
  | ((try dsimp only); (repeat' split) <;> simp (disch := (intros; (repeat' split) <;> simp [*, kept @State.endDesc_fr, kept @State.setDesc_fr])) [*, kept @State.endDesc_fr, kept @State.setDesc_fr]; done)
  | (refine State.taskDo_fabric _ _ _ (fun _ => ?_); (repeat' split) <;> first | exact keepsM_pure _ _ | (simp [*, kept @State.endDesc_fr, kept @State.setDesc_fr]; done))

@[simp] theorem State.begin_flash (s : State) (ring : Nat) (seq : Nat) (ops : Nat → Bool) (f : Desc → State → State) (hf : ∀ x0 x1, (f x0 x1).flash = x1.flash) : (State.begin s ring seq ops f).flash = s.flash := by
  unfold State.begin
  first
  | (simp [*, kept @State.endDesc_fr, kept @State.setDesc_fr]; done)
  | ((repeat' split) <;> simp [*, kept @State.endDesc_fr, kept @State.setDesc_fr]; done)
  | ((try dsimp only); (repeat' split) <;> simp (disch := (intros; (repeat' split) <;> simp [*, kept @State.endDesc_fr, kept @State.setDesc_fr])) [*, kept @State.endDesc_fr, kept @State.setDesc_fr]; done)
  | (refine State.taskDo_flash _ _ _ (fun _ => ?_); (repeat' split) <;> first | exact keepsM_pure _ _ | (simp [*, kept @State.endDesc_fr, kept @State.setDesc_fr]; done))

@[simp] theorem State.begin_coldOpt (s : State) (ring : Nat) (seq : Nat) (ops : Nat → Bool) (f : Desc → State → State) (hf : ∀ x0 x1, (f x0 x1).coldOpt = x1.coldOpt) : (State.begin s ring seq ops f).coldOpt = s.coldOpt := by
  unfold State.begin
  first
  | (simp [*, kept @State.endDesc_fr, kept @State.setDesc_fr]; done)
  | ((repeat' split) <;> simp [*, kept @State.endDesc_fr, kept @State.setDesc_fr]; done)
  | ((try dsimp only); (repeat' split) <;> simp (disch := (intros; (repeat' split) <;> simp [*, kept @State.endDesc_fr, kept @State.setDesc_fr])) [*, kept @State.endDesc_fr, kept @State.setDesc_fr]; done)
  | (refine State.taskDo_coldOpt _ _ _ (fun _ => ?_); (repeat' split) <;> first | exact keepsM_pure _ _ | (simp [*, kept @State.endDesc_fr, kept @State.setDesc_fr]; done))

@[simp] theorem State.begin_mem (s : State) (ring : Nat) (seq : Nat) (ops : Nat → Bool) (f : Desc → State → State) (hf : ∀ x0 x1, (f x0 x1).mem = x1.mem) : (State.begin s ring seq ops f).mem = s.mem := by
  unfold State.begin
  first
  | (simp [*, kept @State.endDesc_fr, kept @State.setDesc_fr]; done)
  | ((repeat' split) <;> simp [*, kept @State.endDesc_fr, kept @State.setDesc_fr]; done)
  | ((try dsimp only); (repeat' split) <;> simp (disch := (intros; (repeat' split) <;> simp [*, kept @State.endDesc_fr, kept @State.setDesc_fr])) [*, kept @State.endDesc_fr, kept @State.setDesc_fr]; done)
  | (refine State.taskDo_mem _ _ _ (fun _ => ?_); (repeat' split) <;> first | exact keepsM_pure _ _ | (simp [*, kept @State.endDesc_fr, kept @State.setDesc_fr]; done))

@[simp] theorem State.begin_harts (s : State) (ring : Nat) (seq : Nat) (ops : Nat → Bool) (f : Desc → State → State) (hf : ∀ x0 x1, (f x0 x1).harts = x1.harts) : (State.begin s ring seq ops f).harts = s.harts := by
  unfold State.begin
  first
  | (simp [*, kept @State.endDesc_fr, kept @State.setDesc_fr]; done)
  | ((repeat' split) <;> simp [*, kept @State.endDesc_fr, kept @State.setDesc_fr]; done)
  | ((try dsimp only); (repeat' split) <;> simp (disch := (intros; (repeat' split) <;> simp [*, kept @State.endDesc_fr, kept @State.setDesc_fr])) [*, kept @State.endDesc_fr, kept @State.setDesc_fr]; done)
  | (refine State.taskDo_harts _ _ _ (fun _ => ?_); (repeat' split) <;> first | exact keepsM_pure _ _ | (simp [*, kept @State.endDesc_fr, kept @State.setDesc_fr]; done))

@[simp] theorem State.begin_mram (s : State) (ring : Nat) (seq : Nat) (ops : Nat → Bool) (f : Desc → State → State) (hf : ∀ x0 x1, (f x0 x1).mram = x1.mram) : (State.begin s ring seq ops f).mram = s.mram := by
  unfold State.begin
  first
  | (simp [*, kept @State.endDesc_fr, kept @State.setDesc_fr]; done)
  | ((repeat' split) <;> simp [*, kept @State.endDesc_fr, kept @State.setDesc_fr]; done)
  | ((try dsimp only); (repeat' split) <;> simp (disch := (intros; (repeat' split) <;> simp [*, kept @State.endDesc_fr, kept @State.setDesc_fr])) [*, kept @State.endDesc_fr, kept @State.setDesc_fr]; done)
  | (refine State.taskDo_mram _ _ _ (fun _ => ?_); (repeat' split) <;> first | exact keepsM_pure _ _ | (simp [*, kept @State.endDesc_fr, kept @State.setDesc_fr]; done))

@[simp] theorem State.begin_imsic (s : State) (ring : Nat) (seq : Nat) (ops : Nat → Bool) (f : Desc → State → State) (hf : ∀ x0 x1, (f x0 x1).imsic = x1.imsic) : (State.begin s ring seq ops f).imsic = s.imsic := by
  unfold State.begin
  first
  | (simp [*, kept @State.endDesc_fr, kept @State.setDesc_fr]; done)
  | ((repeat' split) <;> simp [*, kept @State.endDesc_fr, kept @State.setDesc_fr]; done)
  | ((try dsimp only); (repeat' split) <;> simp (disch := (intros; (repeat' split) <;> simp [*, kept @State.endDesc_fr, kept @State.setDesc_fr])) [*, kept @State.endDesc_fr, kept @State.setDesc_fr]; done)
  | (refine State.taskDo_imsic _ _ _ (fun _ => ?_); (repeat' split) <;> first | exact keepsM_pure _ _ | (simp [*, kept @State.endDesc_fr, kept @State.setDesc_fr]; done))

@[simp] theorem State.begin_dm (s : State) (ring : Nat) (seq : Nat) (ops : Nat → Bool) (f : Desc → State → State) (hf : ∀ x0 x1, (f x0 x1).dm = x1.dm) : (State.begin s ring seq ops f).dm = s.dm := by
  unfold State.begin
  first
  | (simp [*, kept @State.endDesc_fr, kept @State.setDesc_fr]; done)
  | ((repeat' split) <;> simp [*, kept @State.endDesc_fr, kept @State.setDesc_fr]; done)
  | ((try dsimp only); (repeat' split) <;> simp (disch := (intros; (repeat' split) <;> simp [*, kept @State.endDesc_fr, kept @State.setDesc_fr])) [*, kept @State.endDesc_fr, kept @State.setDesc_fr]; done)
  | (refine State.taskDo_dm _ _ _ (fun _ => ?_); (repeat' split) <;> first | exact keepsM_pure _ _ | (simp [*, kept @State.endDesc_fr, kept @State.setDesc_fr]; done))

@[simp] theorem State.begin_fx (s : State) (ring : Nat) (seq : Nat) (ops : Nat → Bool) (f : Desc → State → State) (hf : ∀ x0 x1, (f x0 x1).fx = x1.fx) : (State.begin s ring seq ops f).fx = s.fx := by
  unfold State.begin
  first
  | (simp [*, kept @State.endDesc_fr, kept @State.setDesc_fr]; done)
  | ((repeat' split) <;> simp [*, kept @State.endDesc_fr, kept @State.setDesc_fr]; done)
  | ((try dsimp only); (repeat' split) <;> simp (disch := (intros; (repeat' split) <;> simp [*, kept @State.endDesc_fr, kept @State.setDesc_fr])) [*, kept @State.endDesc_fr, kept @State.setDesc_fr]; done)
  | (refine State.taskDo_fx _ _ _ (fun _ => ?_); (repeat' split) <;> first | exact keepsM_pure _ _ | (simp [*, kept @State.endDesc_fr, kept @State.setDesc_fr]; done))

@[simp] theorem State.begin_ctu (s : State) (ring : Nat) (seq : Nat) (ops : Nat → Bool) (f : Desc → State → State) (hf : ∀ x0 x1, (f x0 x1).ctu = x1.ctu) : (State.begin s ring seq ops f).ctu = s.ctu := by
  unfold State.begin
  first
  | (simp [*, kept @State.endDesc_fr, kept @State.setDesc_fr]; done)
  | ((repeat' split) <;> simp [*, kept @State.endDesc_fr, kept @State.setDesc_fr]; done)
  | ((try dsimp only); (repeat' split) <;> simp (disch := (intros; (repeat' split) <;> simp [*, kept @State.endDesc_fr, kept @State.setDesc_fr])) [*, kept @State.endDesc_fr, kept @State.setDesc_fr]; done)
  | (refine State.taskDo_ctu _ _ _ (fun _ => ?_); (repeat' split) <;> first | exact keepsM_pure _ _ | (simp [*, kept @State.endDesc_fr, kept @State.setDesc_fr]; done))

@[simp] theorem State.begin_links (s : State) (ring : Nat) (seq : Nat) (ops : Nat → Bool) (f : Desc → State → State) (hf : ∀ x0 x1, (f x0 x1).links = x1.links) : (State.begin s ring seq ops f).links = s.links := by
  unfold State.begin
  first
  | (simp [*, kept @State.endDesc_fr, kept @State.setDesc_fr]; done)
  | ((repeat' split) <;> simp [*, kept @State.endDesc_fr, kept @State.setDesc_fr]; done)
  | ((try dsimp only); (repeat' split) <;> simp (disch := (intros; (repeat' split) <;> simp [*, kept @State.endDesc_fr, kept @State.setDesc_fr])) [*, kept @State.endDesc_fr, kept @State.setDesc_fr]; done)
  | (refine State.taskDo_links _ _ _ (fun _ => ?_); (repeat' split) <;> first | exact keepsM_pure _ _ | (simp [*, kept @State.endDesc_fr, kept @State.setDesc_fr]; done))

@[simp] theorem State.begin_aplicS (s : State) (ring : Nat) (seq : Nat) (ops : Nat → Bool) (f : Desc → State → State) (hf : ∀ x0 x1, (f x0 x1).aplicS = x1.aplicS) : (State.begin s ring seq ops f).aplicS = s.aplicS := by
  unfold State.begin
  first
  | (simp [*, kept @State.endDesc_fr, kept @State.setDesc_fr]; done)
  | ((repeat' split) <;> simp [*, kept @State.endDesc_fr, kept @State.setDesc_fr]; done)
  | ((try dsimp only); (repeat' split) <;> simp (disch := (intros; (repeat' split) <;> simp [*, kept @State.endDesc_fr, kept @State.setDesc_fr])) [*, kept @State.endDesc_fr, kept @State.setDesc_fr]; done)
  | (refine State.taskDo_aplicS _ _ _ (fun _ => ?_); (repeat' split) <;> first | exact keepsM_pure _ _ | (simp [*, kept @State.endDesc_fr, kept @State.setDesc_fr]; done))

@[simp] theorem State.begin_aplicN (s : State) (ring : Nat) (seq : Nat) (ops : Nat → Bool) (f : Desc → State → State) (hf : ∀ x0 x1, (f x0 x1).aplicN = x1.aplicN) : (State.begin s ring seq ops f).aplicN = s.aplicN := by
  unfold State.begin
  first
  | (simp [*, kept @State.endDesc_fr, kept @State.setDesc_fr]; done)
  | ((repeat' split) <;> simp [*, kept @State.endDesc_fr, kept @State.setDesc_fr]; done)
  | ((try dsimp only); (repeat' split) <;> simp (disch := (intros; (repeat' split) <;> simp [*, kept @State.endDesc_fr, kept @State.setDesc_fr])) [*, kept @State.endDesc_fr, kept @State.setDesc_fr]; done)
  | (refine State.taskDo_aplicN _ _ _ (fun _ => ?_); (repeat' split) <;> first | exact keepsM_pure _ _ | (simp [*, kept @State.endDesc_fr, kept @State.setDesc_fr]; done))

@[simp] theorem State.begin_credits (s : State) (ring : Nat) (seq : Nat) (ops : Nat → Bool) (f : Desc → State → State) (hf : ∀ x0 x1, (f x0 x1).credits = x1.credits) : (State.begin s ring seq ops f).credits = s.credits := by
  unfold State.begin
  first
  | (simp [*, kept @State.endDesc_fr, kept @State.setDesc_fr]; done)
  | ((repeat' split) <;> simp [*, kept @State.endDesc_fr, kept @State.setDesc_fr]; done)
  | ((try dsimp only); (repeat' split) <;> simp (disch := (intros; (repeat' split) <;> simp [*, kept @State.endDesc_fr, kept @State.setDesc_fr])) [*, kept @State.endDesc_fr, kept @State.setDesc_fr]; done)
  | (refine State.taskDo_credits _ _ _ (fun _ => ?_); (repeat' split) <;> first | exact keepsM_pure _ _ | (simp [*, kept @State.endDesc_fr, kept @State.setDesc_fr]; done))

@[simp] theorem State.begin_clusters (s : State) (ring : Nat) (seq : Nat) (ops : Nat → Bool) (f : Desc → State → State) (hf : ∀ x0 x1, (f x0 x1).clusters = x1.clusters) : (State.begin s ring seq ops f).clusters = s.clusters := by
  unfold State.begin
  first
  | (simp [*, kept @State.endDesc_fr, kept @State.setDesc_fr]; done)
  | ((repeat' split) <;> simp [*, kept @State.endDesc_fr, kept @State.setDesc_fr]; done)
  | ((try dsimp only); (repeat' split) <;> simp (disch := (intros; (repeat' split) <;> simp [*, kept @State.endDesc_fr, kept @State.setDesc_fr])) [*, kept @State.endDesc_fr, kept @State.setDesc_fr]; done)
  | (refine State.taskDo_clusters _ _ _ (fun _ => ?_); (repeat' split) <;> first | exact keepsM_pure _ _ | (simp [*, kept @State.endDesc_fr, kept @State.setDesc_fr]; done))

@[simp] theorem State.begin_homes (s : State) (ring : Nat) (seq : Nat) (ops : Nat → Bool) (f : Desc → State → State) (hf : ∀ x0 x1, (f x0 x1).homes = x1.homes) : (State.begin s ring seq ops f).homes = s.homes := by
  unfold State.begin
  first
  | (simp [*, kept @State.endDesc_fr, kept @State.setDesc_fr]; done)
  | ((repeat' split) <;> simp [*, kept @State.endDesc_fr, kept @State.setDesc_fr]; done)
  | ((try dsimp only); (repeat' split) <;> simp (disch := (intros; (repeat' split) <;> simp [*, kept @State.endDesc_fr, kept @State.setDesc_fr])) [*, kept @State.endDesc_fr, kept @State.setDesc_fr]; done)
  | (refine State.taskDo_homes _ _ _ (fun _ => ?_); (repeat' split) <;> first | exact keepsM_pure _ _ | (simp [*, kept @State.endDesc_fr, kept @State.setDesc_fr]; done))

@[simp] theorem State.begin_pkts (s : State) (ring : Nat) (seq : Nat) (ops : Nat → Bool) (f : Desc → State → State) (hf : ∀ x0 x1, (f x0 x1).pkts = x1.pkts) : (State.begin s ring seq ops f).pkts = s.pkts := by
  unfold State.begin
  first
  | (simp [*, kept @State.endDesc_fr, kept @State.setDesc_fr]; done)
  | ((repeat' split) <;> simp [*, kept @State.endDesc_fr, kept @State.setDesc_fr]; done)
  | ((try dsimp only); (repeat' split) <;> simp (disch := (intros; (repeat' split) <;> simp [*, kept @State.endDesc_fr, kept @State.setDesc_fr])) [*, kept @State.endDesc_fr, kept @State.setDesc_fr]; done)
  | (refine State.taskDo_pkts _ _ _ (fun _ => ?_); (repeat' split) <;> first | exact keepsM_pure _ _ | (simp [*, kept @State.endDesc_fr, kept @State.setDesc_fr]; done))

@[simp] theorem State.begin_resp (s : State) (ring : Nat) (seq : Nat) (ops : Nat → Bool) (f : Desc → State → State) (hf : ∀ x0 x1, (f x0 x1).resp = x1.resp) : (State.begin s ring seq ops f).resp = s.resp := by
  unfold State.begin
  first
  | (simp [*, kept @State.endDesc_fr, kept @State.setDesc_fr]; done)
  | ((repeat' split) <;> simp [*, kept @State.endDesc_fr, kept @State.setDesc_fr]; done)
  | ((try dsimp only); (repeat' split) <;> simp (disch := (intros; (repeat' split) <;> simp [*, kept @State.endDesc_fr, kept @State.setDesc_fr])) [*, kept @State.endDesc_fr, kept @State.setDesc_fr]; done)
  | (refine State.taskDo_resp _ _ _ (fun _ => ?_); (repeat' split) <;> first | exact keepsM_pure _ _ | (simp [*, kept @State.endDesc_fr, kept @State.setDesc_fr]; done))

@[simp] theorem State.begin_regs (s : State) (ring : Nat) (seq : Nat) (ops : Nat → Bool) (f : Desc → State → State) (hf : ∀ x0 x1, (f x0 x1).regs = x1.regs) : (State.begin s ring seq ops f).regs = s.regs := by
  unfold State.begin
  first
  | (simp [*, kept @State.endDesc_fr, kept @State.setDesc_fr]; done)
  | ((repeat' split) <;> simp [*, kept @State.endDesc_fr, kept @State.setDesc_fr]; done)
  | ((try dsimp only); (repeat' split) <;> simp (disch := (intros; (repeat' split) <;> simp [*, kept @State.endDesc_fr, kept @State.setDesc_fr])) [*, kept @State.endDesc_fr, kept @State.setDesc_fr]; done)
  | (refine State.taskDo_regs _ _ _ (fun _ => ?_); (repeat' split) <;> first | exact keepsM_pure _ _ | (simp [*, kept @State.endDesc_fr, kept @State.setDesc_fr]; done))

@[simp] theorem State.begin_wires (s : State) (ring : Nat) (seq : Nat) (ops : Nat → Bool) (f : Desc → State → State) (hf : ∀ x0 x1, (f x0 x1).wires = x1.wires) : (State.begin s ring seq ops f).wires = s.wires := by
  unfold State.begin
  first
  | (simp [*, kept @State.endDesc_fr, kept @State.setDesc_fr]; done)
  | ((repeat' split) <;> simp [*, kept @State.endDesc_fr, kept @State.setDesc_fr]; done)
  | ((try dsimp only); (repeat' split) <;> simp (disch := (intros; (repeat' split) <;> simp [*, kept @State.endDesc_fr, kept @State.setDesc_fr])) [*, kept @State.endDesc_fr, kept @State.setDesc_fr]; done)
  | (refine State.taskDo_wires _ _ _ (fun _ => ?_); (repeat' split) <;> first | exact keepsM_pure _ _ | (simp [*, kept @State.endDesc_fr, kept @State.setDesc_fr]; done))

@[simp] theorem State.begin_dmg (s : State) (ring : Nat) (seq : Nat) (ops : Nat → Bool) (f : Desc → State → State) (hf : ∀ x0 x1, (f x0 x1).dmg = x1.dmg) : (State.begin s ring seq ops f).dmg = s.dmg := by
  unfold State.begin
  first
  | (simp [*, kept @State.endDesc_fr, kept @State.setDesc_fr]; done)
  | ((repeat' split) <;> simp [*, kept @State.endDesc_fr, kept @State.setDesc_fr]; done)
  | ((try dsimp only); (repeat' split) <;> simp (disch := (intros; (repeat' split) <;> simp [*, kept @State.endDesc_fr, kept @State.setDesc_fr])) [*, kept @State.endDesc_fr, kept @State.setDesc_fr]; done)
  | (refine State.taskDo_dmg _ _ _ (fun _ => ?_); (repeat' split) <;> first | exact keepsM_pure _ _ | (simp [*, kept @State.endDesc_fr, kept @State.setDesc_fr]; done))

@[simp] theorem State.begin_wq (s : State) (ring : Nat) (seq : Nat) (ops : Nat → Bool) (f : Desc → State → State) (hf : ∀ x0 x1, (f x0 x1).wq = x1.wq) : (State.begin s ring seq ops f).wq = s.wq := by
  unfold State.begin
  first
  | (simp [*, kept @State.endDesc_fr, kept @State.setDesc_fr]; done)
  | ((repeat' split) <;> simp [*, kept @State.endDesc_fr, kept @State.setDesc_fr]; done)
  | ((try dsimp only); (repeat' split) <;> simp (disch := (intros; (repeat' split) <;> simp [*, kept @State.endDesc_fr, kept @State.setDesc_fr])) [*, kept @State.endDesc_fr, kept @State.setDesc_fr]; done)
  | (refine State.taskDo_wq _ _ _ (fun _ => ?_); (repeat' split) <;> first | exact keepsM_pure _ _ | (simp [*, kept @State.endDesc_fr, kept @State.setDesc_fr]; done))

@[simp] theorem State.begin_net (s : State) (ring : Nat) (seq : Nat) (ops : Nat → Bool) (f : Desc → State → State) (hf : ∀ x0 x1, (f x0 x1).net = x1.net) : (State.begin s ring seq ops f).net = s.net := by
  unfold State.begin
  first
  | (simp [*, kept @State.endDesc_fr, kept @State.setDesc_fr]; done)
  | ((repeat' split) <;> simp [*, kept @State.endDesc_fr, kept @State.setDesc_fr]; done)
  | ((try dsimp only); (repeat' split) <;> simp (disch := (intros; (repeat' split) <;> simp [*, kept @State.endDesc_fr, kept @State.setDesc_fr])) [*, kept @State.endDesc_fr, kept @State.setDesc_fr]; done)
  | (refine State.taskDo_net _ _ _ (fun _ => ?_); (repeat' split) <;> first | exact keepsM_pure _ _ | (simp [*, kept @State.endDesc_fr, kept @State.setDesc_fr]; done))

@[simp] theorem State.begin_dbInval (s : State) (ring : Nat) (seq : Nat) (ops : Nat → Bool) (f : Desc → State → State) (hf : ∀ x0 x1, (f x0 x1).dbInval = x1.dbInval) : (State.begin s ring seq ops f).dbInval = s.dbInval := by
  unfold State.begin
  first
  | (simp [*, kept @State.endDesc_fr, kept @State.setDesc_fr]; done)
  | ((repeat' split) <;> simp [*, kept @State.endDesc_fr, kept @State.setDesc_fr]; done)
  | ((try dsimp only); (repeat' split) <;> simp (disch := (intros; (repeat' split) <;> simp [*, kept @State.endDesc_fr, kept @State.setDesc_fr])) [*, kept @State.endDesc_fr, kept @State.setDesc_fr]; done)
  | (refine State.taskDo_dbInval _ _ _ (fun _ => ?_); (repeat' split) <;> first | exact keepsM_pure _ _ | (simp [*, kept @State.endDesc_fr, kept @State.setDesc_fr]; done))

@[simp] theorem State.begin_watch (s : State) (ring : Nat) (seq : Nat) (ops : Nat → Bool) (f : Desc → State → State) (hf : ∀ x0 x1, (f x0 x1).watch = x1.watch) : (State.begin s ring seq ops f).watch = s.watch := by
  unfold State.begin
  first
  | (simp [*, kept @State.endDesc_fr, kept @State.setDesc_fr]; done)
  | ((repeat' split) <;> simp [*, kept @State.endDesc_fr, kept @State.setDesc_fr]; done)
  | ((try dsimp only); (repeat' split) <;> simp (disch := (intros; (repeat' split) <;> simp [*, kept @State.endDesc_fr, kept @State.setDesc_fr])) [*, kept @State.endDesc_fr, kept @State.setDesc_fr]; done)
  | (refine State.taskDo_watch _ _ _ (fun _ => ?_); (repeat' split) <;> first | exact keepsM_pure _ _ | (simp [*, kept @State.endDesc_fr, kept @State.setDesc_fr]; done))

@[simp] theorem State.begin_pkg (s : State) (ring : Nat) (seq : Nat) (ops : Nat → Bool) (f : Desc → State → State) (hf : ∀ x0 x1, (f x0 x1).pkg = x1.pkg) : (State.begin s ring seq ops f).pkg = s.pkg := by
  unfold State.begin
  first
  | (simp [*, kept @State.endDesc_fr, kept @State.setDesc_fr]; done)
  | ((repeat' split) <;> simp [*, kept @State.endDesc_fr, kept @State.setDesc_fr]; done)
  | ((try dsimp only); (repeat' split) <;> simp (disch := (intros; (repeat' split) <;> simp [*, kept @State.endDesc_fr, kept @State.setDesc_fr])) [*, kept @State.endDesc_fr, kept @State.setDesc_fr]; done)
  | (refine State.taskDo_pkg _ _ _ (fun _ => ?_); (repeat' split) <;> first | exact keepsM_pure _ _ | (simp [*, kept @State.endDesc_fr, kept @State.setDesc_fr]; done))

@[simp] theorem State.begin_pmc (s : State) (ring : Nat) (seq : Nat) (ops : Nat → Bool) (f : Desc → State → State) (hf : ∀ x0 x1, (f x0 x1).pmc = x1.pmc) : (State.begin s ring seq ops f).pmc = s.pmc := by
  unfold State.begin
  first
  | (simp [*, kept @State.endDesc_fr, kept @State.setDesc_fr]; done)
  | ((repeat' split) <;> simp [*, kept @State.endDesc_fr, kept @State.setDesc_fr]; done)
  | ((try dsimp only); (repeat' split) <;> simp (disch := (intros; (repeat' split) <;> simp [*, kept @State.endDesc_fr, kept @State.setDesc_fr])) [*, kept @State.endDesc_fr, kept @State.setDesc_fr]; done)
  | (refine State.taskDo_pmc _ _ _ (fun _ => ?_); (repeat' split) <;> first | exact keepsM_pure _ _ | (simp [*, kept @State.endDesc_fr, kept @State.setDesc_fr]; done))

@[simp] theorem State.begin_fwLog (s : State) (ring : Nat) (seq : Nat) (ops : Nat → Bool) (f : Desc → State → State) (hf : ∀ x0 x1, (f x0 x1).fwLog = x1.fwLog) : (State.begin s ring seq ops f).fwLog = s.fwLog := by
  unfold State.begin
  first
  | (simp [*, kept @State.endDesc_fr, kept @State.setDesc_fr]; done)
  | ((repeat' split) <;> simp [*, kept @State.endDesc_fr, kept @State.setDesc_fr]; done)
  | ((try dsimp only); (repeat' split) <;> simp (disch := (intros; (repeat' split) <;> simp [*, kept @State.endDesc_fr, kept @State.setDesc_fr])) [*, kept @State.endDesc_fr, kept @State.setDesc_fr]; done)
  | (refine State.taskDo_fwLog _ _ _ (fun _ => ?_); (repeat' split) <;> first | exact keepsM_pure _ _ | (simp [*, kept @State.endDesc_fr, kept @State.setDesc_fr]; done))

@[simp] theorem State.begin_out (s : State) (ring : Nat) (seq : Nat) (ops : Nat → Bool) (f : Desc → State → State) (hf : ∀ x0 x1, (f x0 x1).out = x1.out) : (State.begin s ring seq ops f).out = s.out := by
  unfold State.begin
  first
  | (simp [*, kept @State.endDesc_fr, kept @State.setDesc_fr]; done)
  | ((repeat' split) <;> simp [*, kept @State.endDesc_fr, kept @State.setDesc_fr]; done)
  | ((try dsimp only); (repeat' split) <;> simp (disch := (intros; (repeat' split) <;> simp [*, kept @State.endDesc_fr, kept @State.setDesc_fr])) [*, kept @State.endDesc_fr, kept @State.setDesc_fr]; done)
  | (refine State.taskDo_out _ _ _ (fun _ => ?_); (repeat' split) <;> first | exact keepsM_pure _ _ | (simp [*, kept @State.endDesc_fr, kept @State.setDesc_fr]; done))

@[simp] theorem State.begin_free (s : State) (ring : Nat) (seq : Nat) (ops : Nat → Bool) (f : Desc → State → State) (hf : ∀ x0 x1, (f x0 x1).free = x1.free) : (State.begin s ring seq ops f).free = s.free := by
  unfold State.begin
  first
  | (simp [*, kept @State.endDesc_fr, kept @State.setDesc_fr]; done)
  | ((repeat' split) <;> simp [*, kept @State.endDesc_fr, kept @State.setDesc_fr]; done)
  | ((try dsimp only); (repeat' split) <;> simp (disch := (intros; (repeat' split) <;> simp [*, kept @State.endDesc_fr, kept @State.setDesc_fr])) [*, kept @State.endDesc_fr, kept @State.setDesc_fr]; done)
  | (refine State.taskDo_free _ _ _ (fun _ => ?_); (repeat' split) <;> first | exact keepsM_pure _ _ | (simp [*, kept @State.endDesc_fr, kept @State.setDesc_fr]; done))

@[simp] theorem State.goOn_pending (s : State) (ring : Nat) (seq : Nat) (op : Nat) (f : Desc → State → State) (hf : ∀ x0 x1, (f x0 x1).pending = x1.pending) : (State.goOn s ring seq op f).pending = s.pending := by
  unfold State.goOn
  first
  | (simp [*]; done)
  | ((repeat' split) <;> simp [*]; done)
  | ((try dsimp only); (repeat' split) <;> simp (disch := (intros; (repeat' split) <;> simp [*])) [*]; done)
  | (refine State.taskDo_pending _ _ _ (fun _ => ?_); (repeat' split) <;> first | exact keepsM_pure _ _ | (simp [*]; done))

@[simp] theorem State.goOn_files (s : State) (ring : Nat) (seq : Nat) (op : Nat) (f : Desc → State → State) (hf : ∀ x0 x1, (f x0 x1).files = x1.files) : (State.goOn s ring seq op f).files = s.files := by
  unfold State.goOn
  first
  | (simp [*]; done)
  | ((repeat' split) <;> simp [*]; done)
  | ((try dsimp only); (repeat' split) <;> simp (disch := (intros; (repeat' split) <;> simp [*])) [*]; done)
  | (refine State.taskDo_files _ _ _ (fun _ => ?_); (repeat' split) <;> first | exact keepsM_pure _ _ | (simp [*]; done))

@[simp] theorem State.goOn_fabric (s : State) (ring : Nat) (seq : Nat) (op : Nat) (f : Desc → State → State) (hf : ∀ x0 x1, (f x0 x1).fabric = x1.fabric) : (State.goOn s ring seq op f).fabric = s.fabric := by
  unfold State.goOn
  first
  | (simp [*]; done)
  | ((repeat' split) <;> simp [*]; done)
  | ((try dsimp only); (repeat' split) <;> simp (disch := (intros; (repeat' split) <;> simp [*])) [*]; done)
  | (refine State.taskDo_fabric _ _ _ (fun _ => ?_); (repeat' split) <;> first | exact keepsM_pure _ _ | (simp [*]; done))

@[simp] theorem State.goOn_flash (s : State) (ring : Nat) (seq : Nat) (op : Nat) (f : Desc → State → State) (hf : ∀ x0 x1, (f x0 x1).flash = x1.flash) : (State.goOn s ring seq op f).flash = s.flash := by
  unfold State.goOn
  first
  | (simp [*]; done)
  | ((repeat' split) <;> simp [*]; done)
  | ((try dsimp only); (repeat' split) <;> simp (disch := (intros; (repeat' split) <;> simp [*])) [*]; done)
  | (refine State.taskDo_flash _ _ _ (fun _ => ?_); (repeat' split) <;> first | exact keepsM_pure _ _ | (simp [*]; done))

@[simp] theorem State.goOn_coldOpt (s : State) (ring : Nat) (seq : Nat) (op : Nat) (f : Desc → State → State) (hf : ∀ x0 x1, (f x0 x1).coldOpt = x1.coldOpt) : (State.goOn s ring seq op f).coldOpt = s.coldOpt := by
  unfold State.goOn
  first
  | (simp [*]; done)
  | ((repeat' split) <;> simp [*]; done)
  | ((try dsimp only); (repeat' split) <;> simp (disch := (intros; (repeat' split) <;> simp [*])) [*]; done)
  | (refine State.taskDo_coldOpt _ _ _ (fun _ => ?_); (repeat' split) <;> first | exact keepsM_pure _ _ | (simp [*]; done))

@[simp] theorem State.goOn_mem (s : State) (ring : Nat) (seq : Nat) (op : Nat) (f : Desc → State → State) (hf : ∀ x0 x1, (f x0 x1).mem = x1.mem) : (State.goOn s ring seq op f).mem = s.mem := by
  unfold State.goOn
  first
  | (simp [*]; done)
  | ((repeat' split) <;> simp [*]; done)
  | ((try dsimp only); (repeat' split) <;> simp (disch := (intros; (repeat' split) <;> simp [*])) [*]; done)
  | (refine State.taskDo_mem _ _ _ (fun _ => ?_); (repeat' split) <;> first | exact keepsM_pure _ _ | (simp [*]; done))

@[simp] theorem State.goOn_harts (s : State) (ring : Nat) (seq : Nat) (op : Nat) (f : Desc → State → State) (hf : ∀ x0 x1, (f x0 x1).harts = x1.harts) : (State.goOn s ring seq op f).harts = s.harts := by
  unfold State.goOn
  first
  | (simp [*]; done)
  | ((repeat' split) <;> simp [*]; done)
  | ((try dsimp only); (repeat' split) <;> simp (disch := (intros; (repeat' split) <;> simp [*])) [*]; done)
  | (refine State.taskDo_harts _ _ _ (fun _ => ?_); (repeat' split) <;> first | exact keepsM_pure _ _ | (simp [*]; done))

@[simp] theorem State.goOn_mram (s : State) (ring : Nat) (seq : Nat) (op : Nat) (f : Desc → State → State) (hf : ∀ x0 x1, (f x0 x1).mram = x1.mram) : (State.goOn s ring seq op f).mram = s.mram := by
  unfold State.goOn
  first
  | (simp [*]; done)
  | ((repeat' split) <;> simp [*]; done)
  | ((try dsimp only); (repeat' split) <;> simp (disch := (intros; (repeat' split) <;> simp [*])) [*]; done)
  | (refine State.taskDo_mram _ _ _ (fun _ => ?_); (repeat' split) <;> first | exact keepsM_pure _ _ | (simp [*]; done))

@[simp] theorem State.goOn_imsic (s : State) (ring : Nat) (seq : Nat) (op : Nat) (f : Desc → State → State) (hf : ∀ x0 x1, (f x0 x1).imsic = x1.imsic) : (State.goOn s ring seq op f).imsic = s.imsic := by
  unfold State.goOn
  first
  | (simp [*]; done)
  | ((repeat' split) <;> simp [*]; done)
  | ((try dsimp only); (repeat' split) <;> simp (disch := (intros; (repeat' split) <;> simp [*])) [*]; done)
  | (refine State.taskDo_imsic _ _ _ (fun _ => ?_); (repeat' split) <;> first | exact keepsM_pure _ _ | (simp [*]; done))

@[simp] theorem State.goOn_eng (s : State) (ring : Nat) (seq : Nat) (op : Nat) (f : Desc → State → State) (hf : ∀ x0 x1, (f x0 x1).eng = x1.eng) : (State.goOn s ring seq op f).eng = s.eng := by
  unfold State.goOn
  first
  | (simp [*]; done)
  | ((repeat' split) <;> simp [*]; done)
  | ((try dsimp only); (repeat' split) <;> simp (disch := (intros; (repeat' split) <;> simp [*])) [*]; done)
  | (refine State.taskDo_eng _ _ _ (fun _ => ?_); (repeat' split) <;> first | exact keepsM_pure _ _ | (simp [*]; done))

@[simp] theorem State.goOn_dm (s : State) (ring : Nat) (seq : Nat) (op : Nat) (f : Desc → State → State) (hf : ∀ x0 x1, (f x0 x1).dm = x1.dm) : (State.goOn s ring seq op f).dm = s.dm := by
  unfold State.goOn
  first
  | (simp [*]; done)
  | ((repeat' split) <;> simp [*]; done)
  | ((try dsimp only); (repeat' split) <;> simp (disch := (intros; (repeat' split) <;> simp [*])) [*]; done)
  | (refine State.taskDo_dm _ _ _ (fun _ => ?_); (repeat' split) <;> first | exact keepsM_pure _ _ | (simp [*]; done))

@[simp] theorem State.goOn_fx (s : State) (ring : Nat) (seq : Nat) (op : Nat) (f : Desc → State → State) (hf : ∀ x0 x1, (f x0 x1).fx = x1.fx) : (State.goOn s ring seq op f).fx = s.fx := by
  unfold State.goOn
  first
  | (simp [*]; done)
  | ((repeat' split) <;> simp [*]; done)
  | ((try dsimp only); (repeat' split) <;> simp (disch := (intros; (repeat' split) <;> simp [*])) [*]; done)
  | (refine State.taskDo_fx _ _ _ (fun _ => ?_); (repeat' split) <;> first | exact keepsM_pure _ _ | (simp [*]; done))

@[simp] theorem State.goOn_ctu (s : State) (ring : Nat) (seq : Nat) (op : Nat) (f : Desc → State → State) (hf : ∀ x0 x1, (f x0 x1).ctu = x1.ctu) : (State.goOn s ring seq op f).ctu = s.ctu := by
  unfold State.goOn
  first
  | (simp [*]; done)
  | ((repeat' split) <;> simp [*]; done)
  | ((try dsimp only); (repeat' split) <;> simp (disch := (intros; (repeat' split) <;> simp [*])) [*]; done)
  | (refine State.taskDo_ctu _ _ _ (fun _ => ?_); (repeat' split) <;> first | exact keepsM_pure _ _ | (simp [*]; done))

@[simp] theorem State.goOn_links (s : State) (ring : Nat) (seq : Nat) (op : Nat) (f : Desc → State → State) (hf : ∀ x0 x1, (f x0 x1).links = x1.links) : (State.goOn s ring seq op f).links = s.links := by
  unfold State.goOn
  first
  | (simp [*]; done)
  | ((repeat' split) <;> simp [*]; done)
  | ((try dsimp only); (repeat' split) <;> simp (disch := (intros; (repeat' split) <;> simp [*])) [*]; done)
  | (refine State.taskDo_links _ _ _ (fun _ => ?_); (repeat' split) <;> first | exact keepsM_pure _ _ | (simp [*]; done))

@[simp] theorem State.goOn_aplicS (s : State) (ring : Nat) (seq : Nat) (op : Nat) (f : Desc → State → State) (hf : ∀ x0 x1, (f x0 x1).aplicS = x1.aplicS) : (State.goOn s ring seq op f).aplicS = s.aplicS := by
  unfold State.goOn
  first
  | (simp [*]; done)
  | ((repeat' split) <;> simp [*]; done)
  | ((try dsimp only); (repeat' split) <;> simp (disch := (intros; (repeat' split) <;> simp [*])) [*]; done)
  | (refine State.taskDo_aplicS _ _ _ (fun _ => ?_); (repeat' split) <;> first | exact keepsM_pure _ _ | (simp [*]; done))

@[simp] theorem State.goOn_aplicN (s : State) (ring : Nat) (seq : Nat) (op : Nat) (f : Desc → State → State) (hf : ∀ x0 x1, (f x0 x1).aplicN = x1.aplicN) : (State.goOn s ring seq op f).aplicN = s.aplicN := by
  unfold State.goOn
  first
  | (simp [*]; done)
  | ((repeat' split) <;> simp [*]; done)
  | ((try dsimp only); (repeat' split) <;> simp (disch := (intros; (repeat' split) <;> simp [*])) [*]; done)
  | (refine State.taskDo_aplicN _ _ _ (fun _ => ?_); (repeat' split) <;> first | exact keepsM_pure _ _ | (simp [*]; done))

@[simp] theorem State.goOn_credits (s : State) (ring : Nat) (seq : Nat) (op : Nat) (f : Desc → State → State) (hf : ∀ x0 x1, (f x0 x1).credits = x1.credits) : (State.goOn s ring seq op f).credits = s.credits := by
  unfold State.goOn
  first
  | (simp [*]; done)
  | ((repeat' split) <;> simp [*]; done)
  | ((try dsimp only); (repeat' split) <;> simp (disch := (intros; (repeat' split) <;> simp [*])) [*]; done)
  | (refine State.taskDo_credits _ _ _ (fun _ => ?_); (repeat' split) <;> first | exact keepsM_pure _ _ | (simp [*]; done))

@[simp] theorem State.goOn_clusters (s : State) (ring : Nat) (seq : Nat) (op : Nat) (f : Desc → State → State) (hf : ∀ x0 x1, (f x0 x1).clusters = x1.clusters) : (State.goOn s ring seq op f).clusters = s.clusters := by
  unfold State.goOn
  first
  | (simp [*]; done)
  | ((repeat' split) <;> simp [*]; done)
  | ((try dsimp only); (repeat' split) <;> simp (disch := (intros; (repeat' split) <;> simp [*])) [*]; done)
  | (refine State.taskDo_clusters _ _ _ (fun _ => ?_); (repeat' split) <;> first | exact keepsM_pure _ _ | (simp [*]; done))

@[simp] theorem State.goOn_homes (s : State) (ring : Nat) (seq : Nat) (op : Nat) (f : Desc → State → State) (hf : ∀ x0 x1, (f x0 x1).homes = x1.homes) : (State.goOn s ring seq op f).homes = s.homes := by
  unfold State.goOn
  first
  | (simp [*]; done)
  | ((repeat' split) <;> simp [*]; done)
  | ((try dsimp only); (repeat' split) <;> simp (disch := (intros; (repeat' split) <;> simp [*])) [*]; done)
  | (refine State.taskDo_homes _ _ _ (fun _ => ?_); (repeat' split) <;> first | exact keepsM_pure _ _ | (simp [*]; done))

@[simp] theorem State.goOn_pkts (s : State) (ring : Nat) (seq : Nat) (op : Nat) (f : Desc → State → State) (hf : ∀ x0 x1, (f x0 x1).pkts = x1.pkts) : (State.goOn s ring seq op f).pkts = s.pkts := by
  unfold State.goOn
  first
  | (simp [*]; done)
  | ((repeat' split) <;> simp [*]; done)
  | ((try dsimp only); (repeat' split) <;> simp (disch := (intros; (repeat' split) <;> simp [*])) [*]; done)
  | (refine State.taskDo_pkts _ _ _ (fun _ => ?_); (repeat' split) <;> first | exact keepsM_pure _ _ | (simp [*]; done))

@[simp] theorem State.goOn_resp (s : State) (ring : Nat) (seq : Nat) (op : Nat) (f : Desc → State → State) (hf : ∀ x0 x1, (f x0 x1).resp = x1.resp) : (State.goOn s ring seq op f).resp = s.resp := by
  unfold State.goOn
  first
  | (simp [*]; done)
  | ((repeat' split) <;> simp [*]; done)
  | ((try dsimp only); (repeat' split) <;> simp (disch := (intros; (repeat' split) <;> simp [*])) [*]; done)
  | (refine State.taskDo_resp _ _ _ (fun _ => ?_); (repeat' split) <;> first | exact keepsM_pure _ _ | (simp [*]; done))

@[simp] theorem State.goOn_regs (s : State) (ring : Nat) (seq : Nat) (op : Nat) (f : Desc → State → State) (hf : ∀ x0 x1, (f x0 x1).regs = x1.regs) : (State.goOn s ring seq op f).regs = s.regs := by
  unfold State.goOn
  first
  | (simp [*]; done)
  | ((repeat' split) <;> simp [*]; done)
  | ((try dsimp only); (repeat' split) <;> simp (disch := (intros; (repeat' split) <;> simp [*])) [*]; done)
  | (refine State.taskDo_regs _ _ _ (fun _ => ?_); (repeat' split) <;> first | exact keepsM_pure _ _ | (simp [*]; done))

@[simp] theorem State.goOn_wires (s : State) (ring : Nat) (seq : Nat) (op : Nat) (f : Desc → State → State) (hf : ∀ x0 x1, (f x0 x1).wires = x1.wires) : (State.goOn s ring seq op f).wires = s.wires := by
  unfold State.goOn
  first
  | (simp [*]; done)
  | ((repeat' split) <;> simp [*]; done)
  | ((try dsimp only); (repeat' split) <;> simp (disch := (intros; (repeat' split) <;> simp [*])) [*]; done)
  | (refine State.taskDo_wires _ _ _ (fun _ => ?_); (repeat' split) <;> first | exact keepsM_pure _ _ | (simp [*]; done))

@[simp] theorem State.goOn_dmg (s : State) (ring : Nat) (seq : Nat) (op : Nat) (f : Desc → State → State) (hf : ∀ x0 x1, (f x0 x1).dmg = x1.dmg) : (State.goOn s ring seq op f).dmg = s.dmg := by
  unfold State.goOn
  first
  | (simp [*]; done)
  | ((repeat' split) <;> simp [*]; done)
  | ((try dsimp only); (repeat' split) <;> simp (disch := (intros; (repeat' split) <;> simp [*])) [*]; done)
  | (refine State.taskDo_dmg _ _ _ (fun _ => ?_); (repeat' split) <;> first | exact keepsM_pure _ _ | (simp [*]; done))

@[simp] theorem State.goOn_wq (s : State) (ring : Nat) (seq : Nat) (op : Nat) (f : Desc → State → State) (hf : ∀ x0 x1, (f x0 x1).wq = x1.wq) : (State.goOn s ring seq op f).wq = s.wq := by
  unfold State.goOn
  first
  | (simp [*]; done)
  | ((repeat' split) <;> simp [*]; done)
  | ((try dsimp only); (repeat' split) <;> simp (disch := (intros; (repeat' split) <;> simp [*])) [*]; done)
  | (refine State.taskDo_wq _ _ _ (fun _ => ?_); (repeat' split) <;> first | exact keepsM_pure _ _ | (simp [*]; done))

@[simp] theorem State.goOn_net (s : State) (ring : Nat) (seq : Nat) (op : Nat) (f : Desc → State → State) (hf : ∀ x0 x1, (f x0 x1).net = x1.net) : (State.goOn s ring seq op f).net = s.net := by
  unfold State.goOn
  first
  | (simp [*]; done)
  | ((repeat' split) <;> simp [*]; done)
  | ((try dsimp only); (repeat' split) <;> simp (disch := (intros; (repeat' split) <;> simp [*])) [*]; done)
  | (refine State.taskDo_net _ _ _ (fun _ => ?_); (repeat' split) <;> first | exact keepsM_pure _ _ | (simp [*]; done))

@[simp] theorem State.goOn_dbInval (s : State) (ring : Nat) (seq : Nat) (op : Nat) (f : Desc → State → State) (hf : ∀ x0 x1, (f x0 x1).dbInval = x1.dbInval) : (State.goOn s ring seq op f).dbInval = s.dbInval := by
  unfold State.goOn
  first
  | (simp [*]; done)
  | ((repeat' split) <;> simp [*]; done)
  | ((try dsimp only); (repeat' split) <;> simp (disch := (intros; (repeat' split) <;> simp [*])) [*]; done)
  | (refine State.taskDo_dbInval _ _ _ (fun _ => ?_); (repeat' split) <;> first | exact keepsM_pure _ _ | (simp [*]; done))

@[simp] theorem State.goOn_watch (s : State) (ring : Nat) (seq : Nat) (op : Nat) (f : Desc → State → State) (hf : ∀ x0 x1, (f x0 x1).watch = x1.watch) : (State.goOn s ring seq op f).watch = s.watch := by
  unfold State.goOn
  first
  | (simp [*]; done)
  | ((repeat' split) <;> simp [*]; done)
  | ((try dsimp only); (repeat' split) <;> simp (disch := (intros; (repeat' split) <;> simp [*])) [*]; done)
  | (refine State.taskDo_watch _ _ _ (fun _ => ?_); (repeat' split) <;> first | exact keepsM_pure _ _ | (simp [*]; done))

@[simp] theorem State.goOn_pkg (s : State) (ring : Nat) (seq : Nat) (op : Nat) (f : Desc → State → State) (hf : ∀ x0 x1, (f x0 x1).pkg = x1.pkg) : (State.goOn s ring seq op f).pkg = s.pkg := by
  unfold State.goOn
  first
  | (simp [*]; done)
  | ((repeat' split) <;> simp [*]; done)
  | ((try dsimp only); (repeat' split) <;> simp (disch := (intros; (repeat' split) <;> simp [*])) [*]; done)
  | (refine State.taskDo_pkg _ _ _ (fun _ => ?_); (repeat' split) <;> first | exact keepsM_pure _ _ | (simp [*]; done))

@[simp] theorem State.goOn_pmc (s : State) (ring : Nat) (seq : Nat) (op : Nat) (f : Desc → State → State) (hf : ∀ x0 x1, (f x0 x1).pmc = x1.pmc) : (State.goOn s ring seq op f).pmc = s.pmc := by
  unfold State.goOn
  first
  | (simp [*]; done)
  | ((repeat' split) <;> simp [*]; done)
  | ((try dsimp only); (repeat' split) <;> simp (disch := (intros; (repeat' split) <;> simp [*])) [*]; done)
  | (refine State.taskDo_pmc _ _ _ (fun _ => ?_); (repeat' split) <;> first | exact keepsM_pure _ _ | (simp [*]; done))

@[simp] theorem State.goOn_fwLog (s : State) (ring : Nat) (seq : Nat) (op : Nat) (f : Desc → State → State) (hf : ∀ x0 x1, (f x0 x1).fwLog = x1.fwLog) : (State.goOn s ring seq op f).fwLog = s.fwLog := by
  unfold State.goOn
  first
  | (simp [*]; done)
  | ((repeat' split) <;> simp [*]; done)
  | ((try dsimp only); (repeat' split) <;> simp (disch := (intros; (repeat' split) <;> simp [*])) [*]; done)
  | (refine State.taskDo_fwLog _ _ _ (fun _ => ?_); (repeat' split) <;> first | exact keepsM_pure _ _ | (simp [*]; done))

@[simp] theorem State.goOn_out (s : State) (ring : Nat) (seq : Nat) (op : Nat) (f : Desc → State → State) (hf : ∀ x0 x1, (f x0 x1).out = x1.out) : (State.goOn s ring seq op f).out = s.out := by
  unfold State.goOn
  first
  | (simp [*]; done)
  | ((repeat' split) <;> simp [*]; done)
  | ((try dsimp only); (repeat' split) <;> simp (disch := (intros; (repeat' split) <;> simp [*])) [*]; done)
  | (refine State.taskDo_out _ _ _ (fun _ => ?_); (repeat' split) <;> first | exact keepsM_pure _ _ | (simp [*]; done))

@[simp] theorem State.goOn_free (s : State) (ring : Nat) (seq : Nat) (op : Nat) (f : Desc → State → State) (hf : ∀ x0 x1, (f x0 x1).free = x1.free) : (State.goOn s ring seq op f).free = s.free := by
  unfold State.goOn
  first
  | (simp [*]; done)
  | ((repeat' split) <;> simp [*]; done)
  | ((try dsimp only); (repeat' split) <;> simp (disch := (intros; (repeat' split) <;> simp [*])) [*]; done)
  | (refine State.taskDo_free _ _ _ (fun _ => ?_); (repeat' split) <;> first | exact keepsM_pure _ _ | (simp [*]; done))

@[simp] theorem State.descDo_pending (s : State) (d : Desc) (m : EM Unit) (hm : KeepsM State.pending m) :
    (s.descDo d m).pending = s.pending := by
  unfold State.descDo
  have h := fun r => hm.snd (s := s) (r := r)
  split <;> rename_i e <;> have h := h _ e <;> simpa [kept @State.endDesc_fr, kept @State.setDesc_fr, kept @State.tfault_fr] using h

@[simp] theorem State.descDo_files (s : State) (d : Desc) (m : EM Unit) (hm : KeepsM State.files m) :
    (s.descDo d m).files = s.files := by
  unfold State.descDo
  have h := fun r => hm.snd (s := s) (r := r)
  split <;> rename_i e <;> have h := h _ e <;> simpa [kept @State.endDesc_fr, kept @State.setDesc_fr, kept @State.tfault_fr] using h

@[simp] theorem State.descDo_fabric (s : State) (d : Desc) (m : EM Unit) (hm : KeepsM State.fabric m) :
    (s.descDo d m).fabric = s.fabric := by
  unfold State.descDo
  have h := fun r => hm.snd (s := s) (r := r)
  split <;> rename_i e <;> have h := h _ e <;> simpa [kept @State.endDesc_fr, kept @State.setDesc_fr, kept @State.tfault_fr] using h

@[simp] theorem State.descDo_flash (s : State) (d : Desc) (m : EM Unit) (hm : KeepsM State.flash m) :
    (s.descDo d m).flash = s.flash := by
  unfold State.descDo
  have h := fun r => hm.snd (s := s) (r := r)
  split <;> rename_i e <;> have h := h _ e <;> simpa [kept @State.endDesc_fr, kept @State.setDesc_fr, kept @State.tfault_fr] using h

@[simp] theorem State.descDo_coldOpt (s : State) (d : Desc) (m : EM Unit) (hm : KeepsM State.coldOpt m) :
    (s.descDo d m).coldOpt = s.coldOpt := by
  unfold State.descDo
  have h := fun r => hm.snd (s := s) (r := r)
  split <;> rename_i e <;> have h := h _ e <;> simpa [kept @State.endDesc_fr, kept @State.setDesc_fr, kept @State.tfault_fr] using h

@[simp] theorem State.descDo_imsic (s : State) (d : Desc) (m : EM Unit) (hm : KeepsM State.imsic m) :
    (s.descDo d m).imsic = s.imsic := by
  unfold State.descDo
  have h := fun r => hm.snd (s := s) (r := r)
  split <;> rename_i e <;> have h := h _ e <;> simpa [kept @State.endDesc_fr, kept @State.setDesc_fr, kept @State.tfault_fr] using h

@[simp] theorem State.descDo_dm (s : State) (d : Desc) (m : EM Unit) (hm : KeepsM State.dm m) :
    (s.descDo d m).dm = s.dm := by
  unfold State.descDo
  have h := fun r => hm.snd (s := s) (r := r)
  split <;> rename_i e <;> have h := h _ e <;> simpa [kept @State.endDesc_fr, kept @State.setDesc_fr, kept @State.tfault_fr] using h

@[simp] theorem State.descDo_ctu (s : State) (d : Desc) (m : EM Unit) (hm : KeepsM State.ctu m) :
    (s.descDo d m).ctu = s.ctu := by
  unfold State.descDo
  have h := fun r => hm.snd (s := s) (r := r)
  split <;> rename_i e <;> have h := h _ e <;> simpa [kept @State.endDesc_fr, kept @State.setDesc_fr, kept @State.tfault_fr] using h

@[simp] theorem State.descDo_links (s : State) (d : Desc) (m : EM Unit) (hm : KeepsM State.links m) :
    (s.descDo d m).links = s.links := by
  unfold State.descDo
  have h := fun r => hm.snd (s := s) (r := r)
  split <;> rename_i e <;> have h := h _ e <;> simpa [kept @State.endDesc_fr, kept @State.setDesc_fr, kept @State.tfault_fr] using h

@[simp] theorem State.descDo_aplicS (s : State) (d : Desc) (m : EM Unit) (hm : KeepsM State.aplicS m) :
    (s.descDo d m).aplicS = s.aplicS := by
  unfold State.descDo
  have h := fun r => hm.snd (s := s) (r := r)
  split <;> rename_i e <;> have h := h _ e <;> simpa [kept @State.endDesc_fr, kept @State.setDesc_fr, kept @State.tfault_fr] using h

@[simp] theorem State.descDo_aplicN (s : State) (d : Desc) (m : EM Unit) (hm : KeepsM State.aplicN m) :
    (s.descDo d m).aplicN = s.aplicN := by
  unfold State.descDo
  have h := fun r => hm.snd (s := s) (r := r)
  split <;> rename_i e <;> have h := h _ e <;> simpa [kept @State.endDesc_fr, kept @State.setDesc_fr, kept @State.tfault_fr] using h

@[simp] theorem State.descDo_credits (s : State) (d : Desc) (m : EM Unit) (hm : KeepsM State.credits m) :
    (s.descDo d m).credits = s.credits := by
  unfold State.descDo
  have h := fun r => hm.snd (s := s) (r := r)
  split <;> rename_i e <;> have h := h _ e <;> simpa [kept @State.endDesc_fr, kept @State.setDesc_fr, kept @State.tfault_fr] using h

@[simp] theorem State.descDo_pkts (s : State) (d : Desc) (m : EM Unit) (hm : KeepsM State.pkts m) :
    (s.descDo d m).pkts = s.pkts := by
  unfold State.descDo
  have h := fun r => hm.snd (s := s) (r := r)
  split <;> rename_i e <;> have h := h _ e <;> simpa [kept @State.endDesc_fr, kept @State.setDesc_fr, kept @State.tfault_fr] using h

@[simp] theorem State.descDo_resp (s : State) (d : Desc) (m : EM Unit) (hm : KeepsM State.resp m) :
    (s.descDo d m).resp = s.resp := by
  unfold State.descDo
  have h := fun r => hm.snd (s := s) (r := r)
  split <;> rename_i e <;> have h := h _ e <;> simpa [kept @State.endDesc_fr, kept @State.setDesc_fr, kept @State.tfault_fr] using h

@[simp] theorem State.descDo_free (s : State) (d : Desc) (m : EM Unit) (hm : KeepsM State.free m) :
    (s.descDo d m).free = s.free := by
  unfold State.descDo
  have h := fun r => hm.snd (s := s) (r := r)
  split <;> rename_i e <;> have h := h _ e <;> simpa [kept @State.endDesc_fr, kept @State.setDesc_fr, kept @State.tfault_fr] using h

theorem State.startRun_fr (s : State) (d : Desc) : (State.startRun s d).pending = s.pending ∧ (State.startRun s d).flash = s.flash ∧ (State.startRun s d).coldOpt = s.coldOpt ∧ (State.startRun s d).mem = s.mem ∧ (State.startRun s d).harts = s.harts ∧ (State.startRun s d).mram = s.mram ∧ (State.startRun s d).imsic = s.imsic ∧ (State.startRun s d).dm = s.dm ∧ (State.startRun s d).fx = s.fx ∧ (State.startRun s d).ctu = s.ctu ∧ (State.startRun s d).links = s.links ∧ (State.startRun s d).aplicS = s.aplicS ∧ (State.startRun s d).aplicN = s.aplicN ∧ (State.startRun s d).credits = s.credits ∧ (State.startRun s d).clusters = s.clusters ∧ (State.startRun s d).homes = s.homes ∧ (State.startRun s d).pkts = s.pkts ∧ (State.startRun s d).resp = s.resp ∧ (State.startRun s d).regs = s.regs ∧ (State.startRun s d).wires = s.wires ∧ (State.startRun s d).dmg = s.dmg ∧ (State.startRun s d).wq = s.wq ∧ (State.startRun s d).net = s.net ∧ (State.startRun s d).dbInval = s.dbInval ∧ (State.startRun s d).watch = s.watch ∧ (State.startRun s d).pkg = s.pkg ∧ (State.startRun s d).pmc = s.pmc ∧ (State.startRun s d).fwLog = s.fwLog ∧ (State.startRun s d).out = s.out ∧ (State.startRun s d).free = s.free ∧ (State.startRun s d).fabric = s.fabric ∧ (State.startRun s d).files = s.files := by
  generalize h : State.startRun s d = u
  unfold State.startRun at h
  (try dsimp only at h); (repeat' split at h) <;> rw [← h] <;> simp [kept @State.endDesc_fr, kept @State.setDesc_fr]

@[simp] theorem imageBytes_beside (d : Desc) (n : Nat) : KeepsM State.beside (imageBytes d n) := by
  unfold imageBytes; (repeat' (first | with_reducible exact keepsM_pure _ _ | with_reducible exact keepsM_throw _ _ | with_reducible exact keepsM_get _ | with_reducible refine keepsM_bind ?_ (fun _ => ?_) | with_reducible refine keepsM_mapM (fun _ => ?_) _ | with_reducible refine keepsM_forM (fun _ => ?_) _ | with_reducible refine keepsM_foldlM (fun _ _ => ?_) _ _ | with_reducible refine doSt_keeps _ (fun _ => ?_) | with_reducible refine askSt_keeps _ (fun _ => ?_) | (simp [kept @State.setDesc_fr, kept @vread_fr]; done) | (simp [*, kept @State.setDesc_fr, kept @vread_fr]; done) | split | dsimp only))

@[simp] theorem imageBytes_apart (d : Desc) (n : Nat) : KeepsM State.apart (imageBytes d n) := by
  unfold imageBytes; (repeat' (first | with_reducible exact keepsM_pure _ _ | with_reducible exact keepsM_throw _ _ | with_reducible exact keepsM_get _ | with_reducible refine keepsM_bind ?_ (fun _ => ?_) | with_reducible refine keepsM_mapM (fun _ => ?_) _ | with_reducible refine keepsM_forM (fun _ => ?_) _ | with_reducible refine keepsM_foldlM (fun _ _ => ?_) _ _ | with_reducible refine doSt_keeps _ (fun _ => ?_) | with_reducible refine askSt_keeps _ (fun _ => ?_) | (simp [kept @State.setDesc_fr, kept @vread_fr]; done) | (simp [*, kept @State.setDesc_fr, kept @vread_fr]; done) | split | dsimp only))

theorem imageBytes_fr (d : Desc) (n : Nat) : KeepsM State.free (imageBytes d n) := by
  unfold imageBytes; (repeat' (first | with_reducible exact keepsM_pure _ _ | with_reducible exact keepsM_throw _ _ | with_reducible exact keepsM_get _ | with_reducible refine keepsM_bind ?_ (fun _ => ?_) | with_reducible refine keepsM_mapM (fun _ => ?_) _ | with_reducible refine keepsM_forM (fun _ => ?_) _ | with_reducible refine keepsM_foldlM (fun _ _ => ?_) _ _ | with_reducible refine doSt_keeps _ (fun _ => ?_) | with_reducible refine askSt_keeps _ (fun _ => ?_) | (simp [kept @State.setDesc_fr, kept @vread_fr]; done) | (simp [*, kept @State.setDesc_fr, kept @vread_fr]; done) | split | dsimp only))

theorem State.stagedImage_fr (s : State) (d : Desc) (r : RdRes) : (State.stagedImage s d r).pending = s.pending ∧ (State.stagedImage s d r).flash = s.flash ∧ (State.stagedImage s d r).coldOpt = s.coldOpt ∧ (State.stagedImage s d r).mem = s.mem ∧ (State.stagedImage s d r).harts = s.harts ∧ (State.stagedImage s d r).mram = s.mram ∧ (State.stagedImage s d r).imsic = s.imsic ∧ (State.stagedImage s d r).dm = s.dm ∧ (State.stagedImage s d r).fx = s.fx ∧ (State.stagedImage s d r).ctu = s.ctu ∧ (State.stagedImage s d r).links = s.links ∧ (State.stagedImage s d r).aplicS = s.aplicS ∧ (State.stagedImage s d r).aplicN = s.aplicN ∧ (State.stagedImage s d r).credits = s.credits ∧ (State.stagedImage s d r).clusters = s.clusters ∧ (State.stagedImage s d r).homes = s.homes ∧ (State.stagedImage s d r).pkts = s.pkts ∧ (State.stagedImage s d r).resp = s.resp ∧ (State.stagedImage s d r).regs = s.regs ∧ (State.stagedImage s d r).wires = s.wires ∧ (State.stagedImage s d r).dmg = s.dmg ∧ (State.stagedImage s d r).wq = s.wq ∧ (State.stagedImage s d r).net = s.net ∧ (State.stagedImage s d r).dbInval = s.dbInval ∧ (State.stagedImage s d r).watch = s.watch ∧ (State.stagedImage s d r).pkg = s.pkg ∧ (State.stagedImage s d r).pmc = s.pmc ∧ (State.stagedImage s d r).fwLog = s.fwLog ∧ (State.stagedImage s d r).out = s.out ∧ (State.stagedImage s d r).free = s.free ∧ (State.stagedImage s d r).fabric = s.fabric ∧ (State.stagedImage s d r).files = s.files := by
  generalize h : State.stagedImage s d r = u
  unfold State.stagedImage at h
  rw [← h]; simp [kept @State.endDesc_fr, kept @State.setDesc_fr]

theorem State.readImage_fr (s : State) (d : Desc) : (State.readImage s d).pending = s.pending ∧ (State.readImage s d).flash = s.flash ∧ (State.readImage s d).coldOpt = s.coldOpt ∧ (State.readImage s d).imsic = s.imsic ∧ (State.readImage s d).dm = s.dm ∧ (State.readImage s d).ctu = s.ctu ∧ (State.readImage s d).links = s.links ∧ (State.readImage s d).aplicS = s.aplicS ∧ (State.readImage s d).aplicN = s.aplicN ∧ (State.readImage s d).credits = s.credits ∧ (State.readImage s d).pkts = s.pkts ∧ (State.readImage s d).resp = s.resp ∧ (State.readImage s d).free = s.free ∧ (State.readImage s d).fabric = s.fabric ∧ (State.readImage s d).files = s.files := by
  generalize h : State.readImage s d = u
  unfold State.readImage at h
  (try dsimp only at h); (repeat' split at h) <;> rw [← h] <;> simp [kept @State.endDesc_fr, kept @State.setDesc_fr, kept @State.stageRead_fr, kept @State.stagedImage_fr, kept @imageBytes_fr]

theorem State.checkImage_fr (s : State) (d : Desc) : (State.checkImage s d).pending = s.pending ∧ (State.checkImage s d).flash = s.flash ∧ (State.checkImage s d).coldOpt = s.coldOpt ∧ (State.checkImage s d).mem = s.mem ∧ (State.checkImage s d).harts = s.harts ∧ (State.checkImage s d).mram = s.mram ∧ (State.checkImage s d).imsic = s.imsic ∧ (State.checkImage s d).dm = s.dm ∧ (State.checkImage s d).ctu = s.ctu ∧ (State.checkImage s d).links = s.links ∧ (State.checkImage s d).aplicS = s.aplicS ∧ (State.checkImage s d).aplicN = s.aplicN ∧ (State.checkImage s d).credits = s.credits ∧ (State.checkImage s d).clusters = s.clusters ∧ (State.checkImage s d).homes = s.homes ∧ (State.checkImage s d).pkts = s.pkts ∧ (State.checkImage s d).resp = s.resp ∧ (State.checkImage s d).regs = s.regs ∧ (State.checkImage s d).wires = s.wires ∧ (State.checkImage s d).dmg = s.dmg ∧ (State.checkImage s d).wq = s.wq ∧ (State.checkImage s d).net = s.net ∧ (State.checkImage s d).dbInval = s.dbInval ∧ (State.checkImage s d).watch = s.watch ∧ (State.checkImage s d).pkg = s.pkg ∧ (State.checkImage s d).pmc = s.pmc ∧ (State.checkImage s d).fwLog = s.fwLog ∧ (State.checkImage s d).out = s.out ∧ (State.checkImage s d).free = s.free ∧ (State.checkImage s d).fabric = s.fabric ∧ (State.checkImage s d).files = s.files := by
  generalize h : State.checkImage s d = u
  unfold State.checkImage at h
  (try dsimp only at h); (repeat' split at h) <;> rw [← h] <;> simp [kept @State.endDesc_fr, kept @State.eng'_fr, kept @State.stageFree_fr]

theorem State.dropEtes_fr (s : State) (p : ETE → Bool) : (State.dropEtes s p).pending = s.pending ∧ (State.dropEtes s p).flash = s.flash ∧ (State.dropEtes s p).coldOpt = s.coldOpt ∧ (State.dropEtes s p).mem = s.mem ∧ (State.dropEtes s p).harts = s.harts ∧ (State.dropEtes s p).mram = s.mram ∧ (State.dropEtes s p).imsic = s.imsic ∧ (State.dropEtes s p).dm = s.dm ∧ (State.dropEtes s p).fx = s.fx ∧ (State.dropEtes s p).ctu = s.ctu ∧ (State.dropEtes s p).links = s.links ∧ (State.dropEtes s p).aplicS = s.aplicS ∧ (State.dropEtes s p).aplicN = s.aplicN ∧ (State.dropEtes s p).credits = s.credits ∧ (State.dropEtes s p).clusters = s.clusters ∧ (State.dropEtes s p).homes = s.homes ∧ (State.dropEtes s p).pkts = s.pkts ∧ (State.dropEtes s p).resp = s.resp ∧ (State.dropEtes s p).regs = s.regs ∧ (State.dropEtes s p).wires = s.wires ∧ (State.dropEtes s p).dmg = s.dmg ∧ (State.dropEtes s p).wq = s.wq ∧ (State.dropEtes s p).net = s.net ∧ (State.dropEtes s p).dbInval = s.dbInval ∧ (State.dropEtes s p).watch = s.watch ∧ (State.dropEtes s p).pkg = s.pkg ∧ (State.dropEtes s p).pmc = s.pmc ∧ (State.dropEtes s p).fwLog = s.fwLog ∧ (State.dropEtes s p).out = s.out ∧ (State.dropEtes s p).free = s.free ∧ (State.dropEtes s p).fabric = s.fabric ∧ (State.dropEtes s p).files = s.files := by
  generalize h : State.dropEtes s p = u
  unfold State.dropEtes at h
  rw [← h]; simp [kept @State.eng'_fr]

theorem State.putEte_fr (s : State) (x : ETE) : (State.putEte s x).pending = s.pending ∧ (State.putEte s x).flash = s.flash ∧ (State.putEte s x).coldOpt = s.coldOpt ∧ (State.putEte s x).mem = s.mem ∧ (State.putEte s x).harts = s.harts ∧ (State.putEte s x).mram = s.mram ∧ (State.putEte s x).imsic = s.imsic ∧ (State.putEte s x).dm = s.dm ∧ (State.putEte s x).fx = s.fx ∧ (State.putEte s x).ctu = s.ctu ∧ (State.putEte s x).links = s.links ∧ (State.putEte s x).aplicS = s.aplicS ∧ (State.putEte s x).aplicN = s.aplicN ∧ (State.putEte s x).credits = s.credits ∧ (State.putEte s x).clusters = s.clusters ∧ (State.putEte s x).homes = s.homes ∧ (State.putEte s x).pkts = s.pkts ∧ (State.putEte s x).resp = s.resp ∧ (State.putEte s x).regs = s.regs ∧ (State.putEte s x).wires = s.wires ∧ (State.putEte s x).dmg = s.dmg ∧ (State.putEte s x).wq = s.wq ∧ (State.putEte s x).net = s.net ∧ (State.putEte s x).dbInval = s.dbInval ∧ (State.putEte s x).watch = s.watch ∧ (State.putEte s x).pkg = s.pkg ∧ (State.putEte s x).pmc = s.pmc ∧ (State.putEte s x).fwLog = s.fwLog ∧ (State.putEte s x).out = s.out ∧ (State.putEte s x).free = s.free ∧ (State.putEte s x).fabric = s.fabric ∧ (State.putEte s x).files = s.files := by
  generalize h : State.putEte s x = u
  unfold State.putEte at h
  (try dsimp only at h); (repeat' split at h) <;> rw [← h] <;> simp [kept @State.dropEtes_fr, kept @State.eng'_fr]

theorem State.unstall_fr (s : State) (x : ETE) : (State.unstall s x).pending = s.pending ∧ (State.unstall s x).flash = s.flash ∧ (State.unstall s x).coldOpt = s.coldOpt ∧ (State.unstall s x).mem = s.mem ∧ (State.unstall s x).harts = s.harts ∧ (State.unstall s x).mram = s.mram ∧ (State.unstall s x).imsic = s.imsic ∧ (State.unstall s x).dm = s.dm ∧ (State.unstall s x).fx = s.fx ∧ (State.unstall s x).ctu = s.ctu ∧ (State.unstall s x).links = s.links ∧ (State.unstall s x).aplicS = s.aplicS ∧ (State.unstall s x).aplicN = s.aplicN ∧ (State.unstall s x).credits = s.credits ∧ (State.unstall s x).clusters = s.clusters ∧ (State.unstall s x).homes = s.homes ∧ (State.unstall s x).pkts = s.pkts ∧ (State.unstall s x).resp = s.resp ∧ (State.unstall s x).regs = s.regs ∧ (State.unstall s x).wires = s.wires ∧ (State.unstall s x).dmg = s.dmg ∧ (State.unstall s x).wq = s.wq ∧ (State.unstall s x).net = s.net ∧ (State.unstall s x).dbInval = s.dbInval ∧ (State.unstall s x).watch = s.watch ∧ (State.unstall s x).pkg = s.pkg ∧ (State.unstall s x).pmc = s.pmc ∧ (State.unstall s x).fwLog = s.fwLog ∧ (State.unstall s x).out = s.out ∧ (State.unstall s x).free = s.free ∧ (State.unstall s x).fabric = s.fabric ∧ (State.unstall s x).files = s.files := by
  generalize h : State.unstall s x = u
  unfold State.unstall at h
  rw [← h]; simp [kept @State.eng'_fr]

theorem State.matchWrite_fr (s : State) (d : Desc) : (State.matchWrite s d).pending = s.pending ∧ (State.matchWrite s d).flash = s.flash ∧ (State.matchWrite s d).coldOpt = s.coldOpt ∧ (State.matchWrite s d).mem = s.mem ∧ (State.matchWrite s d).harts = s.harts ∧ (State.matchWrite s d).mram = s.mram ∧ (State.matchWrite s d).imsic = s.imsic ∧ (State.matchWrite s d).dm = s.dm ∧ (State.matchWrite s d).fx = s.fx ∧ (State.matchWrite s d).ctu = s.ctu ∧ (State.matchWrite s d).links = s.links ∧ (State.matchWrite s d).aplicS = s.aplicS ∧ (State.matchWrite s d).aplicN = s.aplicN ∧ (State.matchWrite s d).credits = s.credits ∧ (State.matchWrite s d).clusters = s.clusters ∧ (State.matchWrite s d).homes = s.homes ∧ (State.matchWrite s d).pkts = s.pkts ∧ (State.matchWrite s d).resp = s.resp ∧ (State.matchWrite s d).regs = s.regs ∧ (State.matchWrite s d).wires = s.wires ∧ (State.matchWrite s d).dmg = s.dmg ∧ (State.matchWrite s d).wq = s.wq ∧ (State.matchWrite s d).net = s.net ∧ (State.matchWrite s d).dbInval = s.dbInval ∧ (State.matchWrite s d).watch = s.watch ∧ (State.matchWrite s d).pkg = s.pkg ∧ (State.matchWrite s d).pmc = s.pmc ∧ (State.matchWrite s d).fwLog = s.fwLog ∧ (State.matchWrite s d).out = s.out ∧ (State.matchWrite s d).free = s.free ∧ (State.matchWrite s d).fabric = s.fabric ∧ (State.matchWrite s d).files = s.files := by
  generalize h : State.matchWrite s d = u
  unfold State.matchWrite at h
  rw [← h]; simp [kept @State.endDesc_fr, kept @State.setSlice_fr]

theorem execDoorbellInvalidation_fr (ln : Nat) (s : State) {u : State} (h : execDoorbellInvalidation ln s = .next u) : u.pending = s.pending ∧ u.flash = s.flash ∧ u.coldOpt = s.coldOpt ∧ u.mem = s.mem ∧ u.harts = s.harts ∧ u.mram = s.mram ∧ u.imsic = s.imsic ∧ u.eng = s.eng ∧ u.dm = s.dm ∧ u.fx = s.fx ∧ u.ctu = s.ctu ∧ u.links = s.links ∧ u.aplicS = s.aplicS ∧ u.aplicN = s.aplicN ∧ u.credits = s.credits ∧ u.clusters = s.clusters ∧ u.homes = s.homes ∧ u.pkts = s.pkts ∧ u.resp = s.resp ∧ u.regs = s.regs ∧ u.wires = s.wires ∧ u.dmg = s.dmg ∧ u.wq = s.wq ∧ u.net = s.net ∧ u.pkg = s.pkg ∧ u.pmc = s.pmc ∧ u.fwLog = s.fwLog ∧ u.out = s.out ∧ u.free = s.free ∧ u.fabric = s.fabric ∧ u.files = s.files := by
  unfold execDoorbellInvalidation at h
  (first | (simp only [Host.Outcome.next.injEq] at h; rw [← h]) | (simp only [reduceCtorEq] at h; done) | (simp only [Option.some.injEq] at h; rw [← h])); simp [kept @State.watchInval_fr]

theorem execNopDesc_fr (ring : Fin 4096) (seq : Nat) (s : State) {u : State} (h : execNopDesc ring seq s = .next u) : u.pending = s.pending ∧ u.flash = s.flash ∧ u.coldOpt = s.coldOpt ∧ u.mem = s.mem ∧ u.harts = s.harts ∧ u.mram = s.mram ∧ u.imsic = s.imsic ∧ u.dm = s.dm ∧ u.fx = s.fx ∧ u.ctu = s.ctu ∧ u.links = s.links ∧ u.aplicS = s.aplicS ∧ u.aplicN = s.aplicN ∧ u.credits = s.credits ∧ u.clusters = s.clusters ∧ u.homes = s.homes ∧ u.pkts = s.pkts ∧ u.resp = s.resp ∧ u.regs = s.regs ∧ u.wires = s.wires ∧ u.dmg = s.dmg ∧ u.wq = s.wq ∧ u.net = s.net ∧ u.dbInval = s.dbInval ∧ u.watch = s.watch ∧ u.pkg = s.pkg ∧ u.pmc = s.pmc ∧ u.fwLog = s.fwLog ∧ u.out = s.out ∧ u.free = s.free ∧ u.fabric = s.fabric ∧ u.files = s.files := by
  unfold execNopDesc at h
  (first | (simp only [Host.Outcome.next.injEq] at h; rw [← h]) | (simp only [reduceCtorEq] at h; done) | (simp only [Option.some.injEq] at h; rw [← h])); simp [kept @State.endDesc_fr]

theorem execRunPipeline_fr (ring : Fin 4096) (seq : Nat) (s : State) {u : State} (h : execRunPipeline ring seq s = .next u) : u.pending = s.pending ∧ u.flash = s.flash ∧ u.coldOpt = s.coldOpt ∧ u.mem = s.mem ∧ u.harts = s.harts ∧ u.mram = s.mram ∧ u.imsic = s.imsic ∧ u.dm = s.dm ∧ u.fx = s.fx ∧ u.ctu = s.ctu ∧ u.links = s.links ∧ u.aplicS = s.aplicS ∧ u.aplicN = s.aplicN ∧ u.credits = s.credits ∧ u.clusters = s.clusters ∧ u.homes = s.homes ∧ u.pkts = s.pkts ∧ u.resp = s.resp ∧ u.regs = s.regs ∧ u.wires = s.wires ∧ u.dmg = s.dmg ∧ u.wq = s.wq ∧ u.net = s.net ∧ u.dbInval = s.dbInval ∧ u.watch = s.watch ∧ u.pkg = s.pkg ∧ u.pmc = s.pmc ∧ u.fwLog = s.fwLog ∧ u.out = s.out ∧ u.free = s.free ∧ u.fabric = s.fabric ∧ u.files = s.files := by
  unfold execRunPipeline at h
  (first | (simp only [Host.Outcome.next.injEq] at h; rw [← h]) | (simp only [reduceCtorEq] at h; done) | (simp only [Option.some.injEq] at h; rw [← h])); simp [kept @State.startRun_fr]

theorem execLoadImage_fr (ring : Fin 4096) (seq : Nat) (s : State) {u : State} (h : execLoadImage ring seq s = .next u) : u.pending = s.pending ∧ u.flash = s.flash ∧ u.coldOpt = s.coldOpt ∧ u.imsic = s.imsic ∧ u.dm = s.dm ∧ u.ctu = s.ctu ∧ u.links = s.links ∧ u.aplicS = s.aplicS ∧ u.aplicN = s.aplicN ∧ u.credits = s.credits ∧ u.pkts = s.pkts ∧ u.resp = s.resp ∧ u.free = s.free ∧ u.fabric = s.fabric ∧ u.files = s.files := by
  unfold execLoadImage at h
  (first | (simp only [Host.Outcome.next.injEq] at h; rw [← h]) | (simp only [reduceCtorEq] at h; done) | (simp only [Option.some.injEq] at h; rw [← h])); simp [kept @State.readImage_fr]

theorem execImageValidation_fr (ring : Fin 4096) (seq : Nat) (s : State) {u : State} (h : execImageValidation ring seq s = .next u) : u.pending = s.pending ∧ u.flash = s.flash ∧ u.coldOpt = s.coldOpt ∧ u.mem = s.mem ∧ u.harts = s.harts ∧ u.mram = s.mram ∧ u.imsic = s.imsic ∧ u.dm = s.dm ∧ u.ctu = s.ctu ∧ u.links = s.links ∧ u.aplicS = s.aplicS ∧ u.aplicN = s.aplicN ∧ u.credits = s.credits ∧ u.clusters = s.clusters ∧ u.homes = s.homes ∧ u.pkts = s.pkts ∧ u.resp = s.resp ∧ u.regs = s.regs ∧ u.wires = s.wires ∧ u.dmg = s.dmg ∧ u.wq = s.wq ∧ u.net = s.net ∧ u.dbInval = s.dbInval ∧ u.watch = s.watch ∧ u.pkg = s.pkg ∧ u.pmc = s.pmc ∧ u.fwLog = s.fwLog ∧ u.out = s.out ∧ u.free = s.free ∧ u.fabric = s.fabric ∧ u.files = s.files := by
  unfold execImageValidation at h
  (first | (simp only [Host.Outcome.next.injEq] at h; rw [← h]) | (simp only [reduceCtorEq] at h; done) | (simp only [Option.some.injEq] at h; rw [← h])); simp [kept @State.checkImage_fr]

theorem execUnloadImage_fr (ring : Fin 4096) (seq : Nat) (s : State) {u : State} (h : execUnloadImage ring seq s = .next u) : u.pending = s.pending ∧ u.flash = s.flash ∧ u.coldOpt = s.coldOpt ∧ u.mem = s.mem ∧ u.harts = s.harts ∧ u.mram = s.mram ∧ u.imsic = s.imsic ∧ u.dm = s.dm ∧ u.fx = s.fx ∧ u.ctu = s.ctu ∧ u.links = s.links ∧ u.aplicS = s.aplicS ∧ u.aplicN = s.aplicN ∧ u.credits = s.credits ∧ u.clusters = s.clusters ∧ u.homes = s.homes ∧ u.pkts = s.pkts ∧ u.resp = s.resp ∧ u.regs = s.regs ∧ u.wires = s.wires ∧ u.dmg = s.dmg ∧ u.wq = s.wq ∧ u.net = s.net ∧ u.dbInval = s.dbInval ∧ u.watch = s.watch ∧ u.pkg = s.pkg ∧ u.pmc = s.pmc ∧ u.fwLog = s.fwLog ∧ u.out = s.out ∧ u.free = s.free ∧ u.fabric = s.fabric ∧ u.files = s.files := by
  unfold execUnloadImage at h
  (try dsimp only at h); (repeat' split at h) <;> ((first | (simp only [Host.Outcome.next.injEq] at h; rw [← h]) | (simp only [reduceCtorEq] at h; done) | (simp only [Option.some.injEq] at h; rw [← h])); simp (disch := (intros; (repeat' split) <;> first | exact keepsM_pure _ _ | simp [*, kept @State.endDesc_fr])) [kept @State.endDesc_fr])

theorem execUnloadTakesEffect_fr (ring : Fin 4096) (seq : Nat) (s : State) {u : State} (h : execUnloadTakesEffect ring seq s = .next u) : u.pending = s.pending ∧ u.flash = s.flash ∧ u.coldOpt = s.coldOpt ∧ u.mem = s.mem ∧ u.harts = s.harts ∧ u.mram = s.mram ∧ u.imsic = s.imsic ∧ u.dm = s.dm ∧ u.fx = s.fx ∧ u.ctu = s.ctu ∧ u.links = s.links ∧ u.aplicS = s.aplicS ∧ u.aplicN = s.aplicN ∧ u.credits = s.credits ∧ u.clusters = s.clusters ∧ u.homes = s.homes ∧ u.pkts = s.pkts ∧ u.resp = s.resp ∧ u.regs = s.regs ∧ u.wires = s.wires ∧ u.dmg = s.dmg ∧ u.wq = s.wq ∧ u.net = s.net ∧ u.dbInval = s.dbInval ∧ u.watch = s.watch ∧ u.pkg = s.pkg ∧ u.pmc = s.pmc ∧ u.fwLog = s.fwLog ∧ u.out = s.out ∧ u.free = s.free ∧ u.fabric = s.fabric ∧ u.files = s.files := by
  unfold execUnloadTakesEffect at h
  (first | (simp only [Host.Outcome.next.injEq] at h; rw [← h]) | (simp only [reduceCtorEq] at h; done) | (simp only [Option.some.injEq] at h; rw [← h])); simp [kept @State.endDesc_fr, kept @State.eng'_fr]

theorem execFenceDesc_fr (ring : Fin 4096) (seq : Nat) (s : State) {u : State} (h : execFenceDesc ring seq s = .next u) : u.pending = s.pending ∧ u.flash = s.flash ∧ u.coldOpt = s.coldOpt ∧ u.mem = s.mem ∧ u.harts = s.harts ∧ u.mram = s.mram ∧ u.imsic = s.imsic ∧ u.dm = s.dm ∧ u.fx = s.fx ∧ u.ctu = s.ctu ∧ u.links = s.links ∧ u.aplicS = s.aplicS ∧ u.aplicN = s.aplicN ∧ u.credits = s.credits ∧ u.clusters = s.clusters ∧ u.homes = s.homes ∧ u.pkts = s.pkts ∧ u.resp = s.resp ∧ u.regs = s.regs ∧ u.wires = s.wires ∧ u.dmg = s.dmg ∧ u.wq = s.wq ∧ u.net = s.net ∧ u.dbInval = s.dbInval ∧ u.watch = s.watch ∧ u.pkg = s.pkg ∧ u.pmc = s.pmc ∧ u.fwLog = s.fwLog ∧ u.out = s.out ∧ u.free = s.free ∧ u.fabric = s.fabric ∧ u.files = s.files := by
  unfold execFenceDesc at h
  (first | (simp only [Host.Outcome.next.injEq] at h; rw [← h]) | (simp only [reduceCtorEq] at h; done) | (simp only [Option.some.injEq] at h; rw [← h])); simp

theorem execFenceComplete_fr (ring : Fin 4096) (seq : Nat) (s : State) {u : State} (h : execFenceComplete ring seq s = .next u) : u.pending = s.pending ∧ u.flash = s.flash ∧ u.coldOpt = s.coldOpt ∧ u.mem = s.mem ∧ u.harts = s.harts ∧ u.mram = s.mram ∧ u.imsic = s.imsic ∧ u.dm = s.dm ∧ u.fx = s.fx ∧ u.ctu = s.ctu ∧ u.links = s.links ∧ u.aplicS = s.aplicS ∧ u.aplicN = s.aplicN ∧ u.credits = s.credits ∧ u.clusters = s.clusters ∧ u.homes = s.homes ∧ u.pkts = s.pkts ∧ u.resp = s.resp ∧ u.regs = s.regs ∧ u.wires = s.wires ∧ u.dmg = s.dmg ∧ u.wq = s.wq ∧ u.net = s.net ∧ u.dbInval = s.dbInval ∧ u.watch = s.watch ∧ u.pkg = s.pkg ∧ u.pmc = s.pmc ∧ u.fwLog = s.fwLog ∧ u.out = s.out ∧ u.free = s.free ∧ u.fabric = s.fabric ∧ u.files = s.files := by
  unfold execFenceComplete at h
  (first | (simp only [Host.Outcome.next.injEq] at h; rw [← h]) | (simp only [reduceCtorEq] at h; done) | (simp only [Option.some.injEq] at h; rw [← h])); simp [kept @State.endDesc_fr]

theorem execFencedWorkBegin_fr (ring : Fin 4096) (seq : Nat) (s : State) {u : State} (h : execFencedWorkBegin ring seq s = .next u) : u.pending = s.pending ∧ u.flash = s.flash ∧ u.coldOpt = s.coldOpt ∧ u.mem = s.mem ∧ u.harts = s.harts ∧ u.imsic = s.imsic ∧ u.dm = s.dm ∧ u.ctu = s.ctu ∧ u.links = s.links ∧ u.aplicS = s.aplicS ∧ u.aplicN = s.aplicN ∧ u.credits = s.credits ∧ u.clusters = s.clusters ∧ u.homes = s.homes ∧ u.pkts = s.pkts ∧ u.resp = s.resp ∧ u.dmg = s.dmg ∧ u.net = s.net ∧ u.dbInval = s.dbInval ∧ u.watch = s.watch ∧ u.free = s.free ∧ u.fabric = s.fabric ∧ u.files = s.files := by
  unfold execFencedWorkBegin at h
  (try dsimp only at h); (repeat' split at h) <;> (first | (simp only [Host.Outcome.next.injEq] at h; rw [← h]) | (simp only [reduceCtorEq] at h; done) | (simp only [Option.some.injEq] at h; rw [← h])) <;> simp [kept @State.fetchMore_fr, kept @State.setDesc_fr]

theorem execAbort_fr (ring : Fin 4096) (seq : Nat) (s : State) {u : State} (h : execAbort ring seq s = .next u) : u.pending = s.pending ∧ u.flash = s.flash ∧ u.coldOpt = s.coldOpt ∧ u.mem = s.mem ∧ u.harts = s.harts ∧ u.mram = s.mram ∧ u.imsic = s.imsic ∧ u.dm = s.dm ∧ u.fx = s.fx ∧ u.ctu = s.ctu ∧ u.links = s.links ∧ u.aplicS = s.aplicS ∧ u.aplicN = s.aplicN ∧ u.credits = s.credits ∧ u.clusters = s.clusters ∧ u.homes = s.homes ∧ u.pkts = s.pkts ∧ u.resp = s.resp ∧ u.regs = s.regs ∧ u.wires = s.wires ∧ u.dmg = s.dmg ∧ u.wq = s.wq ∧ u.net = s.net ∧ u.dbInval = s.dbInval ∧ u.watch = s.watch ∧ u.pkg = s.pkg ∧ u.pmc = s.pmc ∧ u.fwLog = s.fwLog ∧ u.out = s.out ∧ u.free = s.free ∧ u.fabric = s.fabric ∧ u.files = s.files := by
  unfold execAbort at h
  (first | (simp only [Host.Outcome.next.injEq] at h; rw [← h]) | (simp only [reduceCtorEq] at h; done) | (simp only [Option.some.injEq] at h; rw [← h])); simp [kept @State.abortDesc_fr, kept @State.setDesc_fr]

theorem execAbortComplete_fr (ring : Fin 4096) (seq : Nat) (s : State) {u : State} (h : execAbortComplete ring seq s = .next u) : u.pending = s.pending ∧ u.flash = s.flash ∧ u.coldOpt = s.coldOpt ∧ u.mem = s.mem ∧ u.harts = s.harts ∧ u.mram = s.mram ∧ u.imsic = s.imsic ∧ u.dm = s.dm ∧ u.fx = s.fx ∧ u.ctu = s.ctu ∧ u.links = s.links ∧ u.aplicS = s.aplicS ∧ u.aplicN = s.aplicN ∧ u.credits = s.credits ∧ u.clusters = s.clusters ∧ u.homes = s.homes ∧ u.pkts = s.pkts ∧ u.resp = s.resp ∧ u.regs = s.regs ∧ u.wires = s.wires ∧ u.dmg = s.dmg ∧ u.wq = s.wq ∧ u.net = s.net ∧ u.dbInval = s.dbInval ∧ u.watch = s.watch ∧ u.pkg = s.pkg ∧ u.pmc = s.pmc ∧ u.fwLog = s.fwLog ∧ u.out = s.out ∧ u.free = s.free ∧ u.fabric = s.fabric ∧ u.files = s.files := by
  unfold execAbortComplete at h
  (first | (simp only [Host.Outcome.next.injEq] at h; rw [← h]) | (simp only [reduceCtorEq] at h; done) | (simp only [Option.some.injEq] at h; rw [← h])); simp [kept @State.endDesc_fr]

theorem execEtlbLoad_fr (ring : Fin 4096) (seq : Nat) (s : State) {u : State} (h : execEtlbLoad ring seq s = .next u) : u.pending = s.pending ∧ u.flash = s.flash ∧ u.coldOpt = s.coldOpt ∧ u.mem = s.mem ∧ u.harts = s.harts ∧ u.mram = s.mram ∧ u.imsic = s.imsic ∧ u.dm = s.dm ∧ u.fx = s.fx ∧ u.ctu = s.ctu ∧ u.links = s.links ∧ u.aplicS = s.aplicS ∧ u.aplicN = s.aplicN ∧ u.credits = s.credits ∧ u.clusters = s.clusters ∧ u.homes = s.homes ∧ u.pkts = s.pkts ∧ u.resp = s.resp ∧ u.regs = s.regs ∧ u.wires = s.wires ∧ u.dmg = s.dmg ∧ u.wq = s.wq ∧ u.net = s.net ∧ u.dbInval = s.dbInval ∧ u.watch = s.watch ∧ u.pkg = s.pkg ∧ u.pmc = s.pmc ∧ u.fwLog = s.fwLog ∧ u.out = s.out ∧ u.free = s.free ∧ u.fabric = s.fabric ∧ u.files = s.files := by
  unfold execEtlbLoad at h
  (first | (simp only [Host.Outcome.next.injEq] at h; rw [← h]) | (simp only [reduceCtorEq] at h; done) | (simp only [Option.some.injEq] at h; rw [← h])); simp [kept @State.endDesc_fr, kept @State.putEte_fr, kept @State.unstall_fr]

theorem execEtlbInvalidate_fr (ring : Fin 4096) (seq : Nat) (s : State) {u : State} (h : execEtlbInvalidate ring seq s = .next u) : u.pending = s.pending ∧ u.flash = s.flash ∧ u.coldOpt = s.coldOpt ∧ u.mem = s.mem ∧ u.harts = s.harts ∧ u.mram = s.mram ∧ u.imsic = s.imsic ∧ u.dm = s.dm ∧ u.fx = s.fx ∧ u.ctu = s.ctu ∧ u.links = s.links ∧ u.aplicS = s.aplicS ∧ u.aplicN = s.aplicN ∧ u.credits = s.credits ∧ u.clusters = s.clusters ∧ u.homes = s.homes ∧ u.pkts = s.pkts ∧ u.resp = s.resp ∧ u.regs = s.regs ∧ u.wires = s.wires ∧ u.dmg = s.dmg ∧ u.wq = s.wq ∧ u.net = s.net ∧ u.dbInval = s.dbInval ∧ u.watch = s.watch ∧ u.pkg = s.pkg ∧ u.pmc = s.pmc ∧ u.fwLog = s.fwLog ∧ u.out = s.out ∧ u.free = s.free ∧ u.fabric = s.fabric ∧ u.files = s.files := by
  unfold execEtlbInvalidate at h
  (first | (simp only [Host.Outcome.next.injEq] at h; rw [← h]) | (simp only [reduceCtorEq] at h; done) | (simp only [Option.some.injEq] at h; rw [← h])); simp [kept @State.dropEtes_fr, kept @State.endDesc_fr, kept @State.setDesc_fr]

theorem execEtlbInvalidateComplete_fr (ring : Fin 4096) (seq : Nat) (s : State) {u : State} (h : execEtlbInvalidateComplete ring seq s = .next u) : u.pending = s.pending ∧ u.flash = s.flash ∧ u.coldOpt = s.coldOpt ∧ u.mem = s.mem ∧ u.harts = s.harts ∧ u.mram = s.mram ∧ u.imsic = s.imsic ∧ u.dm = s.dm ∧ u.fx = s.fx ∧ u.ctu = s.ctu ∧ u.links = s.links ∧ u.aplicS = s.aplicS ∧ u.aplicN = s.aplicN ∧ u.credits = s.credits ∧ u.clusters = s.clusters ∧ u.homes = s.homes ∧ u.pkts = s.pkts ∧ u.resp = s.resp ∧ u.regs = s.regs ∧ u.wires = s.wires ∧ u.dmg = s.dmg ∧ u.wq = s.wq ∧ u.net = s.net ∧ u.dbInval = s.dbInval ∧ u.watch = s.watch ∧ u.pkg = s.pkg ∧ u.pmc = s.pmc ∧ u.fwLog = s.fwLog ∧ u.out = s.out ∧ u.free = s.free ∧ u.fabric = s.fabric ∧ u.files = s.files := by
  unfold execEtlbInvalidateComplete at h
  (first | (simp only [Host.Outcome.next.injEq] at h; rw [← h]) | (simp only [reduceCtorEq] at h; done) | (simp only [Option.some.injEq] at h; rw [← h])); simp [kept @State.endDesc_fr]

theorem execMatchWrite_fr (ring : Fin 4096) (seq : Nat) (s : State) {u : State} (h : execMatchWrite ring seq s = .next u) : u.pending = s.pending ∧ u.flash = s.flash ∧ u.coldOpt = s.coldOpt ∧ u.mem = s.mem ∧ u.harts = s.harts ∧ u.mram = s.mram ∧ u.imsic = s.imsic ∧ u.dm = s.dm ∧ u.fx = s.fx ∧ u.ctu = s.ctu ∧ u.links = s.links ∧ u.aplicS = s.aplicS ∧ u.aplicN = s.aplicN ∧ u.credits = s.credits ∧ u.clusters = s.clusters ∧ u.homes = s.homes ∧ u.pkts = s.pkts ∧ u.resp = s.resp ∧ u.regs = s.regs ∧ u.wires = s.wires ∧ u.dmg = s.dmg ∧ u.wq = s.wq ∧ u.net = s.net ∧ u.dbInval = s.dbInval ∧ u.watch = s.watch ∧ u.pkg = s.pkg ∧ u.pmc = s.pmc ∧ u.fwLog = s.fwLog ∧ u.out = s.out ∧ u.free = s.free ∧ u.fabric = s.fabric ∧ u.files = s.files := by
  unfold execMatchWrite at h
  (first | (simp only [Host.Outcome.next.injEq] at h; rw [← h]) | (simp only [reduceCtorEq] at h; done) | (simp only [Option.some.injEq] at h; rw [← h])); simp [kept @State.matchWrite_fr]

theorem execTranslationFaultTimeout_fr (t : StallRef) (s : State) {u : State} (h : execTranslationFaultTimeout t s = .next u) : u.pending = s.pending ∧ u.flash = s.flash ∧ u.coldOpt = s.coldOpt ∧ u.mem = s.mem ∧ u.harts = s.harts ∧ u.mram = s.mram ∧ u.imsic = s.imsic ∧ u.dm = s.dm ∧ u.fx = s.fx ∧ u.ctu = s.ctu ∧ u.links = s.links ∧ u.aplicS = s.aplicS ∧ u.aplicN = s.aplicN ∧ u.credits = s.credits ∧ u.clusters = s.clusters ∧ u.homes = s.homes ∧ u.pkts = s.pkts ∧ u.resp = s.resp ∧ u.regs = s.regs ∧ u.wires = s.wires ∧ u.dmg = s.dmg ∧ u.wq = s.wq ∧ u.net = s.net ∧ u.dbInval = s.dbInval ∧ u.watch = s.watch ∧ u.pkg = s.pkg ∧ u.pmc = s.pmc ∧ u.fwLog = s.fwLog ∧ u.out = s.out ∧ u.free = s.free ∧ u.fabric = s.fabric ∧ u.files = s.files := by
  unfold execTranslationFaultTimeout at h
  (try dsimp only at h); (repeat' split at h) <;> (first | (simp only [Host.Outcome.next.injEq] at h; rw [← h]) | (simp only [reduceCtorEq] at h; done) | (simp only [Option.some.injEq] at h; rw [← h])) <;> simp [kept @State.endDesc_fr, kept @State.failTask_fr, kept @State.fixRun_fr]

end Sys2Proof.Machine
end

