-- ==== Sys2Proof/Laws/Frame/Commit.lean ====
section
/-! SUPPORT. What the operations of Machine/Commit.lean leave unchanged. -/

set_option Elab.async false
set_option linter.all false

namespace Sys2Proof.Machine
open Sys2Proof

theorem State.ownersFrom_fr (t : State) (s : State) (l : List Nat) : (State.ownersFrom t s l).pending = t.pending ∧ (State.ownersFrom t s l).flash = t.flash ∧ (State.ownersFrom t s l).coldOpt = t.coldOpt ∧ (State.ownersFrom t s l).mem = t.mem ∧ (State.ownersFrom t s l).harts = t.harts ∧ (State.ownersFrom t s l).mram = t.mram ∧ (State.ownersFrom t s l).imsic = t.imsic ∧ (State.ownersFrom t s l).eng = t.eng ∧ (State.ownersFrom t s l).dm = t.dm ∧ (State.ownersFrom t s l).fx = t.fx ∧ (State.ownersFrom t s l).ctu = t.ctu ∧ (State.ownersFrom t s l).links = t.links ∧ (State.ownersFrom t s l).credits = t.credits ∧ (State.ownersFrom t s l).clusters = t.clusters ∧ (State.ownersFrom t s l).homes = t.homes ∧ (State.ownersFrom t s l).pkts = t.pkts ∧ (State.ownersFrom t s l).resp = t.resp ∧ (State.ownersFrom t s l).regs = t.regs ∧ (State.ownersFrom t s l).wires = t.wires ∧ (State.ownersFrom t s l).dmg = t.dmg ∧ (State.ownersFrom t s l).wq = t.wq ∧ (State.ownersFrom t s l).net = t.net ∧ (State.ownersFrom t s l).dbInval = t.dbInval ∧ (State.ownersFrom t s l).watch = t.watch ∧ (State.ownersFrom t s l).pkg = t.pkg ∧ (State.ownersFrom t s l).pmc = t.pmc ∧ (State.ownersFrom t s l).fwLog = t.fwLog ∧ (State.ownersFrom t s l).out = t.out ∧ (State.ownersFrom t s l).free = t.free ∧ (State.ownersFrom t s l).fabric = t.fabric ∧ (State.ownersFrom t s l).files = t.files := by
  generalize h : State.ownersFrom t s l = u
  unfold State.ownersFrom at h
  rw [← h]; simp [kept @State.ownerChanged_fr]

theorem State.ctxDisable_fr (s : State) (c : Nat) : (State.ctxDisable s c).pending = s.pending ∧ (State.ctxDisable s c).flash = s.flash ∧ (State.ctxDisable s c).coldOpt = s.coldOpt ∧ (State.ctxDisable s c).mem = s.mem ∧ (State.ctxDisable s c).harts = s.harts ∧ (State.ctxDisable s c).mram = s.mram ∧ (State.ctxDisable s c).imsic = s.imsic ∧ (State.ctxDisable s c).dm = s.dm ∧ (State.ctxDisable s c).ctu = s.ctu ∧ (State.ctxDisable s c).links = s.links ∧ (State.ctxDisable s c).aplicS = s.aplicS ∧ (State.ctxDisable s c).aplicN = s.aplicN ∧ (State.ctxDisable s c).credits = s.credits ∧ (State.ctxDisable s c).clusters = s.clusters ∧ (State.ctxDisable s c).homes = s.homes ∧ (State.ctxDisable s c).pkts = s.pkts ∧ (State.ctxDisable s c).resp = s.resp ∧ (State.ctxDisable s c).regs = s.regs ∧ (State.ctxDisable s c).wires = s.wires ∧ (State.ctxDisable s c).dmg = s.dmg ∧ (State.ctxDisable s c).wq = s.wq ∧ (State.ctxDisable s c).net = s.net ∧ (State.ctxDisable s c).dbInval = s.dbInval ∧ (State.ctxDisable s c).watch = s.watch ∧ (State.ctxDisable s c).pkg = s.pkg ∧ (State.ctxDisable s c).pmc = s.pmc ∧ (State.ctxDisable s c).fwLog = s.fwLog ∧ (State.ctxDisable s c).out = s.out ∧ (State.ctxDisable s c).free = s.free ∧ (State.ctxDisable s c).fabric = s.fabric ∧ (State.ctxDisable s c).files = s.files := by
  generalize h : State.ctxDisable s c = u
  unfold State.ctxDisable at h
  rw [← h]; simp [kept @State.abortDesc_fr, kept @State.dropHeld_fr, kept @State.eng'_fr, kept @State.freeImages_fr, kept @State.fxForget_fr]

theorem State.ringDisable_fr (s : State) (n : Nat) : (State.ringDisable s n).pending = s.pending ∧ (State.ringDisable s n).flash = s.flash ∧ (State.ringDisable s n).coldOpt = s.coldOpt ∧ (State.ringDisable s n).mem = s.mem ∧ (State.ringDisable s n).harts = s.harts ∧ (State.ringDisable s n).mram = s.mram ∧ (State.ringDisable s n).imsic = s.imsic ∧ (State.ringDisable s n).dm = s.dm ∧ (State.ringDisable s n).ctu = s.ctu ∧ (State.ringDisable s n).links = s.links ∧ (State.ringDisable s n).aplicS = s.aplicS ∧ (State.ringDisable s n).aplicN = s.aplicN ∧ (State.ringDisable s n).credits = s.credits ∧ (State.ringDisable s n).clusters = s.clusters ∧ (State.ringDisable s n).homes = s.homes ∧ (State.ringDisable s n).pkts = s.pkts ∧ (State.ringDisable s n).resp = s.resp ∧ (State.ringDisable s n).wires = s.wires ∧ (State.ringDisable s n).dmg = s.dmg ∧ (State.ringDisable s n).wq = s.wq ∧ (State.ringDisable s n).net = s.net ∧ (State.ringDisable s n).dbInval = s.dbInval ∧ (State.ringDisable s n).watch = s.watch ∧ (State.ringDisable s n).pkg = s.pkg ∧ (State.ringDisable s n).pmc = s.pmc ∧ (State.ringDisable s n).fwLog = s.fwLog ∧ (State.ringDisable s n).free = s.free ∧ (State.ringDisable s n).fabric = s.fabric ∧ (State.ringDisable s n).files = s.files := by
  generalize h : State.ringDisable s n = u
  unfold State.ringDisable at h
  (try dsimp only at h); (repeat' split at h) <;> rw [← h] <;> simp [kept @State.drained_fr, kept @State.fxDropped_fr, kept @State.fxForget_fr, kept @State.fxRingError_fr, kept @State.setRing_fr, kept @State.wrs_fr]

theorem State.ringEnable_fr (s : State) (n : Nat) : (State.ringEnable s n).pending = s.pending ∧ (State.ringEnable s n).flash = s.flash ∧ (State.ringEnable s n).coldOpt = s.coldOpt ∧ (State.ringEnable s n).mem = s.mem ∧ (State.ringEnable s n).imsic = s.imsic ∧ (State.ringEnable s n).dm = s.dm ∧ (State.ringEnable s n).ctu = s.ctu ∧ (State.ringEnable s n).links = s.links ∧ (State.ringEnable s n).aplicS = s.aplicS ∧ (State.ringEnable s n).aplicN = s.aplicN ∧ (State.ringEnable s n).credits = s.credits ∧ (State.ringEnable s n).pkts = s.pkts ∧ (State.ringEnable s n).resp = s.resp ∧ (State.ringEnable s n).dmg = s.dmg ∧ (State.ringEnable s n).free = s.free ∧ (State.ringEnable s n).fabric = s.fabric ∧ (State.ringEnable s n).files = s.files := by
  generalize h : State.ringEnable s n = u
  unfold State.ringEnable at h
  (try dsimp only at h); (repeat' split at h) <;> rw [← h] <;> simp [kept @State.fxForget_fr, kept @State.readSlot_fr, kept @State.ringError_fr, kept @State.rstW_fr, kept @State.setRing_fr, kept @State.watchLine_fr, kept @State.wrs_fr]

theorem State.applyRings_fr (s : State) (l : Tab (Nat × Nat)) : (State.applyRings s l).pending = s.pending ∧ (State.applyRings s l).flash = s.flash ∧ (State.applyRings s l).coldOpt = s.coldOpt ∧ (State.applyRings s l).imsic = s.imsic ∧ (State.applyRings s l).dm = s.dm ∧ (State.applyRings s l).ctu = s.ctu ∧ (State.applyRings s l).links = s.links ∧ (State.applyRings s l).aplicS = s.aplicS ∧ (State.applyRings s l).aplicN = s.aplicN ∧ (State.applyRings s l).credits = s.credits ∧ (State.applyRings s l).pkts = s.pkts ∧ (State.applyRings s l).resp = s.resp ∧ (State.applyRings s l).free = s.free ∧ (State.applyRings s l).fabric = s.fabric ∧ (State.applyRings s l).files = s.files := by
  generalize h : State.applyRings s l = u
  unfold State.applyRings at h
  rw [← h]; simp [kept @State.ctxDisable_fr, kept @State.fetchAll_fr, kept @State.freeFaults_fr, kept @State.mergeRegs_fr, kept @State.ringDisable_fr, kept @State.ringEnable_fr, kept @State.setCtx_fr]

theorem State.applySlice_fr (s : State) (n : Nat) (l : Tab (Nat × Nat)) : (State.applySlice s n l).pending = s.pending ∧ (State.applySlice s n l).flash = s.flash ∧ (State.applySlice s n l).coldOpt = s.coldOpt ∧ (State.applySlice s n l).mem = s.mem ∧ (State.applySlice s n l).harts = s.harts ∧ (State.applySlice s n l).mram = s.mram ∧ (State.applySlice s n l).imsic = s.imsic ∧ (State.applySlice s n l).eng = s.eng ∧ (State.applySlice s n l).dm = s.dm ∧ (State.applySlice s n l).fx = s.fx ∧ (State.applySlice s n l).ctu = s.ctu ∧ (State.applySlice s n l).links = s.links ∧ (State.applySlice s n l).aplicS = s.aplicS ∧ (State.applySlice s n l).aplicN = s.aplicN ∧ (State.applySlice s n l).credits = s.credits ∧ (State.applySlice s n l).clusters = s.clusters ∧ (State.applySlice s n l).homes = s.homes ∧ (State.applySlice s n l).pkts = s.pkts ∧ (State.applySlice s n l).resp = s.resp ∧ (State.applySlice s n l).wires = s.wires ∧ (State.applySlice s n l).dmg = s.dmg ∧ (State.applySlice s n l).wq = s.wq ∧ (State.applySlice s n l).net = s.net ∧ (State.applySlice s n l).dbInval = s.dbInval ∧ (State.applySlice s n l).watch = s.watch ∧ (State.applySlice s n l).pkg = s.pkg ∧ (State.applySlice s n l).pmc = s.pmc ∧ (State.applySlice s n l).fwLog = s.fwLog ∧ (State.applySlice s n l).out = s.out ∧ (State.applySlice s n l).free = s.free ∧ (State.applySlice s n l).fabric = s.fabric ∧ (State.applySlice s n l).files = s.files := by
  generalize h : State.applySlice s n l = u
  unfold State.applySlice at h
  rw [← h]; simp [kept @State.mergeRegs_fr, kept @State.wr_fr]

theorem State.applyDm_fr (s : State) (n : Nat) (l : Tab (Nat × Nat)) : (State.applyDm s n l).pending = s.pending ∧ (State.applyDm s n l).flash = s.flash ∧ (State.applyDm s n l).coldOpt = s.coldOpt ∧ (State.applyDm s n l).imsic = s.imsic ∧ (State.applyDm s n l).eng = s.eng ∧ (State.applyDm s n l).fx = s.fx ∧ (State.applyDm s n l).ctu = s.ctu ∧ (State.applyDm s n l).links = s.links ∧ (State.applyDm s n l).aplicS = s.aplicS ∧ (State.applyDm s n l).aplicN = s.aplicN ∧ (State.applyDm s n l).credits = s.credits ∧ (State.applyDm s n l).pkts = s.pkts ∧ (State.applyDm s n l).resp = s.resp ∧ (State.applyDm s n l).out = s.out ∧ (State.applyDm s n l).free = s.free ∧ (State.applyDm s n l).fabric = s.fabric ∧ (State.applyDm s n l).files = s.files := by
  generalize h : State.applyDm s n l = u
  unfold State.applyDm at h
  rw [← h]; simp [kept @State.chanError_fr, kept @State.dmStatus_fr, kept @State.mergeRegs_fr, kept @State.readChanSlot_fr, kept @State.setChan_fr, kept @State.watchLine_fr, kept @State.wrs_fr]

theorem State.applyFx_fr (s : State) (p : Nat) (l : Tab (Nat × Nat)) : (State.applyFx s p l).pending = s.pending ∧ (State.applyFx s p l).flash = s.flash ∧ (State.applyFx s p l).coldOpt = s.coldOpt ∧ (State.applyFx s p l).mem = s.mem ∧ (State.applyFx s p l).harts = s.harts ∧ (State.applyFx s p l).mram = s.mram ∧ (State.applyFx s p l).imsic = s.imsic ∧ (State.applyFx s p l).eng = s.eng ∧ (State.applyFx s p l).dm = s.dm ∧ (State.applyFx s p l).ctu = s.ctu ∧ (State.applyFx s p l).links = s.links ∧ (State.applyFx s p l).aplicS = s.aplicS ∧ (State.applyFx s p l).aplicN = s.aplicN ∧ (State.applyFx s p l).credits = s.credits ∧ (State.applyFx s p l).clusters = s.clusters ∧ (State.applyFx s p l).homes = s.homes ∧ (State.applyFx s p l).pkts = s.pkts ∧ (State.applyFx s p l).resp = s.resp ∧ (State.applyFx s p l).dmg = s.dmg ∧ (State.applyFx s p l).wq = s.wq ∧ (State.applyFx s p l).net = s.net ∧ (State.applyFx s p l).dbInval = s.dbInval ∧ (State.applyFx s p l).watch = s.watch ∧ (State.applyFx s p l).pkg = s.pkg ∧ (State.applyFx s p l).pmc = s.pmc ∧ (State.applyFx s p l).fwLog = s.fwLog ∧ (State.applyFx s p l).out = s.out ∧ (State.applyFx s p l).free = s.free ∧ (State.applyFx s p l).fabric = s.fabric ∧ (State.applyFx s p l).files = s.files := by
  generalize h : State.applyFx s p l = u
  unfold State.applyFx at h
  rw [← h]; simp [kept @State.finxisDown_fr, kept @State.fxDetect_fr, kept @State.mergeRegs_fr]

theorem State.applyHome_fr (s : State) (k : Nat) (l : Tab (Nat × Nat)) : (State.applyHome s k l).pending = s.pending ∧ (State.applyHome s k l).flash = s.flash ∧ (State.applyHome s k l).coldOpt = s.coldOpt ∧ (State.applyHome s k l).mem = s.mem ∧ (State.applyHome s k l).harts = s.harts ∧ (State.applyHome s k l).mram = s.mram ∧ (State.applyHome s k l).imsic = s.imsic ∧ (State.applyHome s k l).eng = s.eng ∧ (State.applyHome s k l).dm = s.dm ∧ (State.applyHome s k l).fx = s.fx ∧ (State.applyHome s k l).ctu = s.ctu ∧ (State.applyHome s k l).links = s.links ∧ (State.applyHome s k l).aplicS = s.aplicS ∧ (State.applyHome s k l).aplicN = s.aplicN ∧ (State.applyHome s k l).credits = s.credits ∧ (State.applyHome s k l).clusters = s.clusters ∧ (State.applyHome s k l).pkts = s.pkts ∧ (State.applyHome s k l).resp = s.resp ∧ (State.applyHome s k l).wires = s.wires ∧ (State.applyHome s k l).dmg = s.dmg ∧ (State.applyHome s k l).net = s.net ∧ (State.applyHome s k l).dbInval = s.dbInval ∧ (State.applyHome s k l).watch = s.watch ∧ (State.applyHome s k l).pkg = s.pkg ∧ (State.applyHome s k l).pmc = s.pmc ∧ (State.applyHome s k l).fwLog = s.fwLog ∧ (State.applyHome s k l).out = s.out ∧ (State.applyHome s k l).free = s.free ∧ (State.applyHome s k l).fabric = s.fabric ∧ (State.applyHome s k l).files = s.files := by
  generalize h : State.applyHome s k l = u
  unfold State.applyHome at h
  rw [← h]; simp [kept @State.memWr_fr, kept @State.mergeRegs_fr, kept @State.setHome_fr]

theorem State.readmitCores_fr (s : State) (c : Nat) : (State.readmitCores s c).pending = s.pending ∧ (State.readmitCores s c).flash = s.flash ∧ (State.readmitCores s c).coldOpt = s.coldOpt ∧ (State.readmitCores s c).mem = s.mem ∧ (State.readmitCores s c).mram = s.mram ∧ (State.readmitCores s c).eng = s.eng ∧ (State.readmitCores s c).dm = s.dm ∧ (State.readmitCores s c).fx = s.fx ∧ (State.readmitCores s c).ctu = s.ctu ∧ (State.readmitCores s c).links = s.links ∧ (State.readmitCores s c).aplicS = s.aplicS ∧ (State.readmitCores s c).aplicN = s.aplicN ∧ (State.readmitCores s c).credits = s.credits ∧ (State.readmitCores s c).pkts = s.pkts ∧ (State.readmitCores s c).resp = s.resp ∧ (State.readmitCores s c).wires = s.wires ∧ (State.readmitCores s c).dmg = s.dmg ∧ (State.readmitCores s c).dbInval = s.dbInval ∧ (State.readmitCores s c).watch = s.watch ∧ (State.readmitCores s c).pkg = s.pkg ∧ (State.readmitCores s c).pmc = s.pmc ∧ (State.readmitCores s c).out = s.out ∧ (State.readmitCores s c).free = s.free ∧ (State.readmitCores s c).fabric = s.fabric := by
  generalize h : State.readmitCores s c = u
  unfold State.readmitCores at h
  (try dsimp only at h); (repeat' split at h) <;> rw [← h] <;> simp [kept @State.setCluster_fr, kept @State.startHart_fr, kept @State.wr_fr]

theorem State.readmitSlice_fr (s : State) (c : Nat) : (State.readmitSlice s c).pending = s.pending ∧ (State.readmitSlice s c).flash = s.flash ∧ (State.readmitSlice s c).coldOpt = s.coldOpt ∧ (State.readmitSlice s c).mem = s.mem ∧ (State.readmitSlice s c).harts = s.harts ∧ (State.readmitSlice s c).mram = s.mram ∧ (State.readmitSlice s c).imsic = s.imsic ∧ (State.readmitSlice s c).dm = s.dm ∧ (State.readmitSlice s c).fx = s.fx ∧ (State.readmitSlice s c).ctu = s.ctu ∧ (State.readmitSlice s c).links = s.links ∧ (State.readmitSlice s c).aplicS = s.aplicS ∧ (State.readmitSlice s c).aplicN = s.aplicN ∧ (State.readmitSlice s c).credits = s.credits ∧ (State.readmitSlice s c).clusters = s.clusters ∧ (State.readmitSlice s c).homes = s.homes ∧ (State.readmitSlice s c).pkts = s.pkts ∧ (State.readmitSlice s c).resp = s.resp ∧ (State.readmitSlice s c).wires = s.wires ∧ (State.readmitSlice s c).dmg = s.dmg ∧ (State.readmitSlice s c).wq = s.wq ∧ (State.readmitSlice s c).net = s.net ∧ (State.readmitSlice s c).dbInval = s.dbInval ∧ (State.readmitSlice s c).watch = s.watch ∧ (State.readmitSlice s c).pkg = s.pkg ∧ (State.readmitSlice s c).pmc = s.pmc ∧ (State.readmitSlice s c).fwLog = s.fwLog ∧ (State.readmitSlice s c).out = s.out ∧ (State.readmitSlice s c).free = s.free ∧ (State.readmitSlice s c).fabric = s.fabric ∧ (State.readmitSlice s c).files = s.files := by
  generalize h : State.readmitSlice s c = u
  unfold State.readmitSlice at h
  (try dsimp only at h); (repeat' split at h) <;> rw [← h] <;> simp [kept @State.setSlice_fr, kept @State.wr_fr, kept @State.wrW_fr]

theorem State.readmitCluster_fr (s : State) (c : Nat) : (State.readmitCluster s c).pending = s.pending ∧ (State.readmitCluster s c).flash = s.flash ∧ (State.readmitCluster s c).coldOpt = s.coldOpt ∧ (State.readmitCluster s c).mem = s.mem ∧ (State.readmitCluster s c).mram = s.mram ∧ (State.readmitCluster s c).dm = s.dm ∧ (State.readmitCluster s c).fx = s.fx ∧ (State.readmitCluster s c).ctu = s.ctu ∧ (State.readmitCluster s c).links = s.links ∧ (State.readmitCluster s c).aplicS = s.aplicS ∧ (State.readmitCluster s c).aplicN = s.aplicN ∧ (State.readmitCluster s c).credits = s.credits ∧ (State.readmitCluster s c).pkts = s.pkts ∧ (State.readmitCluster s c).resp = s.resp ∧ (State.readmitCluster s c).wires = s.wires ∧ (State.readmitCluster s c).dmg = s.dmg ∧ (State.readmitCluster s c).dbInval = s.dbInval ∧ (State.readmitCluster s c).watch = s.watch ∧ (State.readmitCluster s c).pkg = s.pkg ∧ (State.readmitCluster s c).pmc = s.pmc ∧ (State.readmitCluster s c).out = s.out ∧ (State.readmitCluster s c).free = s.free ∧ (State.readmitCluster s c).fabric = s.fabric := by
  generalize h : State.readmitCluster s c = u
  unfold State.readmitCluster at h
  rw [← h]; simp [kept @State.readmitCores_fr, kept @State.readmitSlice_fr]

theorem State.readmitAt_fr (s : State) (t : Nat) (gone : Nat) : (State.readmitAt s t gone).pending = s.pending ∧ (State.readmitAt s t gone).flash = s.flash ∧ (State.readmitAt s t gone).coldOpt = s.coldOpt ∧ (State.readmitAt s t gone).mem = s.mem ∧ (State.readmitAt s t gone).mram = s.mram ∧ (State.readmitAt s t gone).dm = s.dm ∧ (State.readmitAt s t gone).fx = s.fx ∧ (State.readmitAt s t gone).ctu = s.ctu ∧ (State.readmitAt s t gone).links = s.links ∧ (State.readmitAt s t gone).aplicS = s.aplicS ∧ (State.readmitAt s t gone).aplicN = s.aplicN ∧ (State.readmitAt s t gone).credits = s.credits ∧ (State.readmitAt s t gone).pkts = s.pkts ∧ (State.readmitAt s t gone).resp = s.resp ∧ (State.readmitAt s t gone).wires = s.wires ∧ (State.readmitAt s t gone).dmg = s.dmg ∧ (State.readmitAt s t gone).dbInval = s.dbInval ∧ (State.readmitAt s t gone).watch = s.watch ∧ (State.readmitAt s t gone).pmc = s.pmc ∧ (State.readmitAt s t gone).out = s.out ∧ (State.readmitAt s t gone).free = s.free ∧ (State.readmitAt s t gone).fabric = s.fabric := by
  generalize h : State.readmitAt s t gone = u
  unfold State.readmitAt at h
  (try dsimp only at h); (repeat' split at h) <;> rw [← h] <;> simp [kept @State.pk_fr, kept @State.readmitCluster_fr, kept @State.readmitCores_fr, kept @State.readmitSlice_fr, kept @State.setDieState_fr]

theorem State.applyRouter_fr (s : State) (k : Nat) (l : Tab (Nat × Nat)) : (State.applyRouter s k l).pending = s.pending ∧ (State.applyRouter s k l).flash = s.flash ∧ (State.applyRouter s k l).coldOpt = s.coldOpt ∧ (State.applyRouter s k l).mem = s.mem ∧ (State.applyRouter s k l).mram = s.mram ∧ (State.applyRouter s k l).dm = s.dm ∧ (State.applyRouter s k l).fx = s.fx ∧ (State.applyRouter s k l).ctu = s.ctu ∧ (State.applyRouter s k l).links = s.links ∧ (State.applyRouter s k l).aplicS = s.aplicS ∧ (State.applyRouter s k l).aplicN = s.aplicN ∧ (State.applyRouter s k l).credits = s.credits ∧ (State.applyRouter s k l).pkts = s.pkts ∧ (State.applyRouter s k l).resp = s.resp ∧ (State.applyRouter s k l).wires = s.wires ∧ (State.applyRouter s k l).dmg = s.dmg ∧ (State.applyRouter s k l).dbInval = s.dbInval ∧ (State.applyRouter s k l).watch = s.watch ∧ (State.applyRouter s k l).pmc = s.pmc ∧ (State.applyRouter s k l).out = s.out ∧ (State.applyRouter s k l).free = s.free ∧ (State.applyRouter s k l).fabric = s.fabric := by
  generalize h : State.applyRouter s k l = u
  unfold State.applyRouter at h
  (try dsimp only at h); (repeat' split at h) <;> rw [← h] <;> simp [kept @State.mergeRegs_fr, kept @State.readmitAt_fr, kept @State.wr_fr]

theorem State.beginShares_fr (s : State) (l : Tab (Nat × Nat)) : (State.beginShares s l).pending = s.pending ∧ (State.beginShares s l).flash = s.flash ∧ (State.beginShares s l).coldOpt = s.coldOpt ∧ (State.beginShares s l).mem = s.mem ∧ (State.beginShares s l).harts = s.harts ∧ (State.beginShares s l).mram = s.mram ∧ (State.beginShares s l).imsic = s.imsic ∧ (State.beginShares s l).eng = s.eng ∧ (State.beginShares s l).dm = s.dm ∧ (State.beginShares s l).fx = s.fx ∧ (State.beginShares s l).ctu = s.ctu ∧ (State.beginShares s l).links = s.links ∧ (State.beginShares s l).aplicS = s.aplicS ∧ (State.beginShares s l).aplicN = s.aplicN ∧ (State.beginShares s l).credits = s.credits ∧ (State.beginShares s l).clusters = s.clusters ∧ (State.beginShares s l).pkts = s.pkts ∧ (State.beginShares s l).resp = s.resp ∧ (State.beginShares s l).wires = s.wires ∧ (State.beginShares s l).dmg = s.dmg ∧ (State.beginShares s l).wq = s.wq ∧ (State.beginShares s l).net = s.net ∧ (State.beginShares s l).dbInval = s.dbInval ∧ (State.beginShares s l).watch = s.watch ∧ (State.beginShares s l).pkg = s.pkg ∧ (State.beginShares s l).pmc = s.pmc ∧ (State.beginShares s l).fwLog = s.fwLog ∧ (State.beginShares s l).out = s.out ∧ (State.beginShares s l).free = s.free ∧ (State.beginShares s l).fabric = s.fabric ∧ (State.beginShares s l).files = s.files := by
  have k {β : Type} (g : State → β) (hg : ∀ s t x, g (State.setHome s t x) = g s) : g (State.beginShares s l) = g s := by
    simp only [State.beginShares]
    rw [foldl_keeps g]
    intro s i
    (repeat' split) <;> first | rfl | simp only [hg]
  (repeat' apply And.intro) <;> (refine k _ (fun s t x => ?_); simp [kept @State.mergeRegs_fr, kept @State.setHome_fr])

theorem State.applyOther_fr (s : State) (l : Tab (Nat × Nat)) : (State.applyOther s l).pending = s.pending ∧ (State.applyOther s l).flash = s.flash ∧ (State.applyOther s l).coldOpt = s.coldOpt ∧ (State.applyOther s l).mem = s.mem ∧ (State.applyOther s l).mram = s.mram ∧ (State.applyOther s l).imsic = s.imsic ∧ (State.applyOther s l).eng = s.eng ∧ (State.applyOther s l).dm = s.dm ∧ (State.applyOther s l).fx = s.fx ∧ (State.applyOther s l).ctu = s.ctu ∧ (State.applyOther s l).links = s.links ∧ (State.applyOther s l).aplicS = s.aplicS ∧ (State.applyOther s l).aplicN = s.aplicN ∧ (State.applyOther s l).credits = s.credits ∧ (State.applyOther s l).pkts = s.pkts ∧ (State.applyOther s l).resp = s.resp ∧ (State.applyOther s l).wires = s.wires ∧ (State.applyOther s l).dmg = s.dmg ∧ (State.applyOther s l).pkg = s.pkg ∧ (State.applyOther s l).pmc = s.pmc ∧ (State.applyOther s l).fwLog = s.fwLog ∧ (State.applyOther s l).out = s.out ∧ (State.applyOther s l).free = s.free ∧ (State.applyOther s l).fabric = s.fabric ∧ (State.applyOther s l).files = s.files := by
  generalize h : State.applyOther s l = u
  unfold State.applyOther at h
  rw [← h]; simp [kept @State.flushRanges_fr, kept @State.holdAll_fr, kept @State.holdRanges_fr, kept @State.mergeRegs_fr, kept @State.rstW_fr]

theorem State.applyBlock_fr (s : State) (b : Block) (l : Tab (Nat × Nat)) : (State.applyBlock s b l).pending = s.pending ∧ (State.applyBlock s b l).flash = s.flash ∧ (State.applyBlock s b l).coldOpt = s.coldOpt ∧ (State.applyBlock s b l).links = s.links ∧ (State.applyBlock s b l).credits = s.credits ∧ (State.applyBlock s b l).pkts = s.pkts ∧ (State.applyBlock s b l).resp = s.resp ∧ (State.applyBlock s b l).free = s.free ∧ (State.applyBlock s b l).fabric = s.fabric := by
  generalize h : State.applyBlock s b l = u
  unfold State.applyBlock at h
  (try dsimp only at h); (repeat' split at h) <;> rw [← h] <;> simp [kept @State.applyDm_fr, kept @State.applyFirewall_fr, kept @State.applyFx_fr, kept @State.applyHome_fr, kept @State.applyOther_fr, kept @State.applyRings_fr, kept @State.applyRouter_fr, kept @State.applySlice_fr, kept @State.ownersFrom_fr]

end Sys2Proof.Machine
end

