-- ==== Sys2Proof/Laws/Frame/CtuCmds.lean ====
section
/-! SUPPORT. What the operations of Machine/CtuCmds.lean leave unchanged. -/

set_option Elab.async false
set_option linter.all false

namespace Sys2Proof.Machine
open Sys2Proof

theorem State.ctuEnqueue_fr (s : State) (t : Txn) : (State.ctuEnqueue s t).pending = s.pending ∧ (State.ctuEnqueue s t).flash = s.flash ∧ (State.ctuEnqueue s t).coldOpt = s.coldOpt ∧ (State.ctuEnqueue s t).mem = s.mem ∧ (State.ctuEnqueue s t).harts = s.harts ∧ (State.ctuEnqueue s t).mram = s.mram ∧ (State.ctuEnqueue s t).imsic = s.imsic ∧ (State.ctuEnqueue s t).eng = s.eng ∧ (State.ctuEnqueue s t).dm = s.dm ∧ (State.ctuEnqueue s t).fx = s.fx ∧ (State.ctuEnqueue s t).links = s.links ∧ (State.ctuEnqueue s t).aplicS = s.aplicS ∧ (State.ctuEnqueue s t).aplicN = s.aplicN ∧ (State.ctuEnqueue s t).credits = s.credits ∧ (State.ctuEnqueue s t).clusters = s.clusters ∧ (State.ctuEnqueue s t).homes = s.homes ∧ (State.ctuEnqueue s t).pkts = s.pkts ∧ (State.ctuEnqueue s t).resp = s.resp ∧ (State.ctuEnqueue s t).wires = s.wires ∧ (State.ctuEnqueue s t).dmg = s.dmg ∧ (State.ctuEnqueue s t).wq = s.wq ∧ (State.ctuEnqueue s t).net = s.net ∧ (State.ctuEnqueue s t).dbInval = s.dbInval ∧ (State.ctuEnqueue s t).watch = s.watch ∧ (State.ctuEnqueue s t).pkg = s.pkg ∧ (State.ctuEnqueue s t).pmc = s.pmc ∧ (State.ctuEnqueue s t).fwLog = s.fwLog ∧ (State.ctuEnqueue s t).out = s.out ∧ (State.ctuEnqueue s t).free = s.free ∧ (State.ctuEnqueue s t).fabric = s.fabric ∧ (State.ctuEnqueue s t).files = s.files := by
  generalize h : State.ctuEnqueue s t = u
  unfold State.ctuEnqueue at h
  rw [← h]; simp [kept @State.setCtu_fr]

theorem State.ctuBegin_fr (s : State) (w : World) (tag : Nat) : (State.ctuBegin s w tag).pending = s.pending ∧ (State.ctuBegin s w tag).flash = s.flash ∧ (State.ctuBegin s w tag).coldOpt = s.coldOpt ∧ (State.ctuBegin s w tag).mem = s.mem ∧ (State.ctuBegin s w tag).harts = s.harts ∧ (State.ctuBegin s w tag).mram = s.mram ∧ (State.ctuBegin s w tag).imsic = s.imsic ∧ (State.ctuBegin s w tag).eng = s.eng ∧ (State.ctuBegin s w tag).dm = s.dm ∧ (State.ctuBegin s w tag).fx = s.fx ∧ (State.ctuBegin s w tag).links = s.links ∧ (State.ctuBegin s w tag).aplicS = s.aplicS ∧ (State.ctuBegin s w tag).aplicN = s.aplicN ∧ (State.ctuBegin s w tag).credits = s.credits ∧ (State.ctuBegin s w tag).clusters = s.clusters ∧ (State.ctuBegin s w tag).homes = s.homes ∧ (State.ctuBegin s w tag).pkts = s.pkts ∧ (State.ctuBegin s w tag).resp = s.resp ∧ (State.ctuBegin s w tag).dmg = s.dmg ∧ (State.ctuBegin s w tag).wq = s.wq ∧ (State.ctuBegin s w tag).net = s.net ∧ (State.ctuBegin s w tag).dbInval = s.dbInval ∧ (State.ctuBegin s w tag).watch = s.watch ∧ (State.ctuBegin s w tag).pkg = s.pkg ∧ (State.ctuBegin s w tag).pmc = s.pmc ∧ (State.ctuBegin s w tag).fwLog = s.fwLog ∧ (State.ctuBegin s w tag).out = s.out ∧ (State.ctuBegin s w tag).free = s.free ∧ (State.ctuBegin s w tag).fabric = s.fabric ∧ (State.ctuBegin s w tag).files = s.files := by
  generalize h : State.ctuBegin s w tag = u
  unfold State.ctuBegin at h
  rw [← h]; simp [kept @State.ctuResult_fr, kept @State.setCtu_fr, kept @State.wr_fr]

theorem State.ctuCommit_fr (s : State) (w : World) (tag : Nat) : (State.ctuCommit s w tag).pending = s.pending ∧ (State.ctuCommit s w tag).flash = s.flash ∧ (State.ctuCommit s w tag).coldOpt = s.coldOpt ∧ (State.ctuCommit s w tag).mem = s.mem ∧ (State.ctuCommit s w tag).harts = s.harts ∧ (State.ctuCommit s w tag).mram = s.mram ∧ (State.ctuCommit s w tag).imsic = s.imsic ∧ (State.ctuCommit s w tag).eng = s.eng ∧ (State.ctuCommit s w tag).dm = s.dm ∧ (State.ctuCommit s w tag).fx = s.fx ∧ (State.ctuCommit s w tag).links = s.links ∧ (State.ctuCommit s w tag).aplicS = s.aplicS ∧ (State.ctuCommit s w tag).aplicN = s.aplicN ∧ (State.ctuCommit s w tag).credits = s.credits ∧ (State.ctuCommit s w tag).clusters = s.clusters ∧ (State.ctuCommit s w tag).homes = s.homes ∧ (State.ctuCommit s w tag).pkts = s.pkts ∧ (State.ctuCommit s w tag).resp = s.resp ∧ (State.ctuCommit s w tag).dmg = s.dmg ∧ (State.ctuCommit s w tag).wq = s.wq ∧ (State.ctuCommit s w tag).net = s.net ∧ (State.ctuCommit s w tag).dbInval = s.dbInval ∧ (State.ctuCommit s w tag).watch = s.watch ∧ (State.ctuCommit s w tag).pkg = s.pkg ∧ (State.ctuCommit s w tag).pmc = s.pmc ∧ (State.ctuCommit s w tag).fwLog = s.fwLog ∧ (State.ctuCommit s w tag).out = s.out ∧ (State.ctuCommit s w tag).free = s.free ∧ (State.ctuCommit s w tag).fabric = s.fabric ∧ (State.ctuCommit s w tag).files = s.files := by
  generalize h : State.ctuCommit s w tag = u
  unfold State.ctuCommit at h
  (try dsimp only at h); (repeat' split at h) <;> rw [← h] <;> simp [kept @State.ctuEnqueue_fr, kept @State.ctuResult_fr, kept @State.setCtu_fr]

theorem State.ctuRollback_fr (s : State) (w : World) (tag : Nat) : (State.ctuRollback s w tag).pending = s.pending ∧ (State.ctuRollback s w tag).flash = s.flash ∧ (State.ctuRollback s w tag).coldOpt = s.coldOpt ∧ (State.ctuRollback s w tag).mem = s.mem ∧ (State.ctuRollback s w tag).harts = s.harts ∧ (State.ctuRollback s w tag).mram = s.mram ∧ (State.ctuRollback s w tag).imsic = s.imsic ∧ (State.ctuRollback s w tag).eng = s.eng ∧ (State.ctuRollback s w tag).dm = s.dm ∧ (State.ctuRollback s w tag).fx = s.fx ∧ (State.ctuRollback s w tag).links = s.links ∧ (State.ctuRollback s w tag).aplicS = s.aplicS ∧ (State.ctuRollback s w tag).aplicN = s.aplicN ∧ (State.ctuRollback s w tag).credits = s.credits ∧ (State.ctuRollback s w tag).clusters = s.clusters ∧ (State.ctuRollback s w tag).homes = s.homes ∧ (State.ctuRollback s w tag).pkts = s.pkts ∧ (State.ctuRollback s w tag).resp = s.resp ∧ (State.ctuRollback s w tag).dmg = s.dmg ∧ (State.ctuRollback s w tag).wq = s.wq ∧ (State.ctuRollback s w tag).net = s.net ∧ (State.ctuRollback s w tag).dbInval = s.dbInval ∧ (State.ctuRollback s w tag).watch = s.watch ∧ (State.ctuRollback s w tag).pkg = s.pkg ∧ (State.ctuRollback s w tag).pmc = s.pmc ∧ (State.ctuRollback s w tag).fwLog = s.fwLog ∧ (State.ctuRollback s w tag).out = s.out ∧ (State.ctuRollback s w tag).free = s.free ∧ (State.ctuRollback s w tag).fabric = s.fabric ∧ (State.ctuRollback s w tag).files = s.files := by
  generalize h : State.ctuRollback s w tag = u
  unfold State.ctuRollback at h
  (try dsimp only at h); (repeat' split at h) <;> rw [← h] <;> simp [kept @State.ctuResult_fr, kept @State.setCtu_fr]

@[simp] theorem State.ctuCmd_pending (s : State) (who : Ident) (w : World) (f : State → State) (hf : ∀ x0, (f x0).pending = x0.pending) : (State.ctuCmd s who w f).pending = s.pending := by
  unfold State.ctuCmd
  first
  | (simp [*, kept @State.answer_fr, kept @State.refuseReg_fr]; done)
  | ((repeat' split) <;> simp [*, kept @State.answer_fr, kept @State.refuseReg_fr]; done)
  | ((try dsimp only); (repeat' split) <;> simp (disch := (intros; (repeat' split) <;> simp [*, kept @State.answer_fr, kept @State.refuseReg_fr])) [*, kept @State.answer_fr, kept @State.refuseReg_fr]; done)
  | (refine State.taskDo_pending _ _ _ (fun _ => ?_); (repeat' split) <;> first | exact keepsM_pure _ _ | (simp [*, kept @State.answer_fr, kept @State.refuseReg_fr]; done))

@[simp] theorem State.ctuCmd_files (s : State) (who : Ident) (w : World) (f : State → State) (hf : ∀ x0, (f x0).files = x0.files) : (State.ctuCmd s who w f).files = s.files := by
  unfold State.ctuCmd
  first
  | (simp [*, kept @State.answer_fr, kept @State.refuseReg_fr]; done)
  | ((repeat' split) <;> simp [*, kept @State.answer_fr, kept @State.refuseReg_fr]; done)
  | ((try dsimp only); (repeat' split) <;> simp (disch := (intros; (repeat' split) <;> simp [*, kept @State.answer_fr, kept @State.refuseReg_fr])) [*, kept @State.answer_fr, kept @State.refuseReg_fr]; done)
  | (refine State.taskDo_files _ _ _ (fun _ => ?_); (repeat' split) <;> first | exact keepsM_pure _ _ | (simp [*, kept @State.answer_fr, kept @State.refuseReg_fr]; done))

@[simp] theorem State.ctuCmd_fabric (s : State) (who : Ident) (w : World) (f : State → State) (hf : ∀ x0, (f x0).fabric = x0.fabric) : (State.ctuCmd s who w f).fabric = s.fabric := by
  unfold State.ctuCmd
  first
  | (simp [*, kept @State.answer_fr, kept @State.refuseReg_fr]; done)
  | ((repeat' split) <;> simp [*, kept @State.answer_fr, kept @State.refuseReg_fr]; done)
  | ((try dsimp only); (repeat' split) <;> simp (disch := (intros; (repeat' split) <;> simp [*, kept @State.answer_fr, kept @State.refuseReg_fr])) [*, kept @State.answer_fr, kept @State.refuseReg_fr]; done)
  | (refine State.taskDo_fabric _ _ _ (fun _ => ?_); (repeat' split) <;> first | exact keepsM_pure _ _ | (simp [*, kept @State.answer_fr, kept @State.refuseReg_fr]; done))

@[simp] theorem State.ctuCmd_flash (s : State) (who : Ident) (w : World) (f : State → State) (hf : ∀ x0, (f x0).flash = x0.flash) : (State.ctuCmd s who w f).flash = s.flash := by
  unfold State.ctuCmd
  first
  | (simp [*, kept @State.answer_fr, kept @State.refuseReg_fr]; done)
  | ((repeat' split) <;> simp [*, kept @State.answer_fr, kept @State.refuseReg_fr]; done)
  | ((try dsimp only); (repeat' split) <;> simp (disch := (intros; (repeat' split) <;> simp [*, kept @State.answer_fr, kept @State.refuseReg_fr])) [*, kept @State.answer_fr, kept @State.refuseReg_fr]; done)
  | (refine State.taskDo_flash _ _ _ (fun _ => ?_); (repeat' split) <;> first | exact keepsM_pure _ _ | (simp [*, kept @State.answer_fr, kept @State.refuseReg_fr]; done))

@[simp] theorem State.ctuCmd_coldOpt (s : State) (who : Ident) (w : World) (f : State → State) (hf : ∀ x0, (f x0).coldOpt = x0.coldOpt) : (State.ctuCmd s who w f).coldOpt = s.coldOpt := by
  unfold State.ctuCmd
  first
  | (simp [*, kept @State.answer_fr, kept @State.refuseReg_fr]; done)
  | ((repeat' split) <;> simp [*, kept @State.answer_fr, kept @State.refuseReg_fr]; done)
  | ((try dsimp only); (repeat' split) <;> simp (disch := (intros; (repeat' split) <;> simp [*, kept @State.answer_fr, kept @State.refuseReg_fr])) [*, kept @State.answer_fr, kept @State.refuseReg_fr]; done)
  | (refine State.taskDo_coldOpt _ _ _ (fun _ => ?_); (repeat' split) <;> first | exact keepsM_pure _ _ | (simp [*, kept @State.answer_fr, kept @State.refuseReg_fr]; done))

@[simp] theorem State.ctuCmd_mem (s : State) (who : Ident) (w : World) (f : State → State) (hf : ∀ x0, (f x0).mem = x0.mem) : (State.ctuCmd s who w f).mem = s.mem := by
  unfold State.ctuCmd
  first
  | (simp [*, kept @State.answer_fr, kept @State.refuseReg_fr]; done)
  | ((repeat' split) <;> simp [*, kept @State.answer_fr, kept @State.refuseReg_fr]; done)
  | ((try dsimp only); (repeat' split) <;> simp (disch := (intros; (repeat' split) <;> simp [*, kept @State.answer_fr, kept @State.refuseReg_fr])) [*, kept @State.answer_fr, kept @State.refuseReg_fr]; done)
  | (refine State.taskDo_mem _ _ _ (fun _ => ?_); (repeat' split) <;> first | exact keepsM_pure _ _ | (simp [*, kept @State.answer_fr, kept @State.refuseReg_fr]; done))

@[simp] theorem State.ctuCmd_harts (s : State) (who : Ident) (w : World) (f : State → State) (hf : ∀ x0, (f x0).harts = x0.harts) : (State.ctuCmd s who w f).harts = s.harts := by
  unfold State.ctuCmd
  first
  | (simp [*, kept @State.answer_fr, kept @State.refuseReg_fr]; done)
  | ((repeat' split) <;> simp [*, kept @State.answer_fr, kept @State.refuseReg_fr]; done)
  | ((try dsimp only); (repeat' split) <;> simp (disch := (intros; (repeat' split) <;> simp [*, kept @State.answer_fr, kept @State.refuseReg_fr])) [*, kept @State.answer_fr, kept @State.refuseReg_fr]; done)
  | (refine State.taskDo_harts _ _ _ (fun _ => ?_); (repeat' split) <;> first | exact keepsM_pure _ _ | (simp [*, kept @State.answer_fr, kept @State.refuseReg_fr]; done))

@[simp] theorem State.ctuCmd_imsic (s : State) (who : Ident) (w : World) (f : State → State) (hf : ∀ x0, (f x0).imsic = x0.imsic) : (State.ctuCmd s who w f).imsic = s.imsic := by
  unfold State.ctuCmd
  first
  | (simp [*, kept @State.answer_fr, kept @State.refuseReg_fr]; done)
  | ((repeat' split) <;> simp [*, kept @State.answer_fr, kept @State.refuseReg_fr]; done)
  | ((try dsimp only); (repeat' split) <;> simp (disch := (intros; (repeat' split) <;> simp [*, kept @State.answer_fr, kept @State.refuseReg_fr])) [*, kept @State.answer_fr, kept @State.refuseReg_fr]; done)
  | (refine State.taskDo_imsic _ _ _ (fun _ => ?_); (repeat' split) <;> first | exact keepsM_pure _ _ | (simp [*, kept @State.answer_fr, kept @State.refuseReg_fr]; done))

@[simp] theorem State.ctuCmd_eng (s : State) (who : Ident) (w : World) (f : State → State) (hf : ∀ x0, (f x0).eng = x0.eng) : (State.ctuCmd s who w f).eng = s.eng := by
  unfold State.ctuCmd
  first
  | (simp [*, kept @State.answer_fr, kept @State.refuseReg_fr]; done)
  | ((repeat' split) <;> simp [*, kept @State.answer_fr, kept @State.refuseReg_fr]; done)
  | ((try dsimp only); (repeat' split) <;> simp (disch := (intros; (repeat' split) <;> simp [*, kept @State.answer_fr, kept @State.refuseReg_fr])) [*, kept @State.answer_fr, kept @State.refuseReg_fr]; done)
  | (refine State.taskDo_eng _ _ _ (fun _ => ?_); (repeat' split) <;> first | exact keepsM_pure _ _ | (simp [*, kept @State.answer_fr, kept @State.refuseReg_fr]; done))

@[simp] theorem State.ctuCmd_dm (s : State) (who : Ident) (w : World) (f : State → State) (hf : ∀ x0, (f x0).dm = x0.dm) : (State.ctuCmd s who w f).dm = s.dm := by
  unfold State.ctuCmd
  first
  | (simp [*, kept @State.answer_fr, kept @State.refuseReg_fr]; done)
  | ((repeat' split) <;> simp [*, kept @State.answer_fr, kept @State.refuseReg_fr]; done)
  | ((try dsimp only); (repeat' split) <;> simp (disch := (intros; (repeat' split) <;> simp [*, kept @State.answer_fr, kept @State.refuseReg_fr])) [*, kept @State.answer_fr, kept @State.refuseReg_fr]; done)
  | (refine State.taskDo_dm _ _ _ (fun _ => ?_); (repeat' split) <;> first | exact keepsM_pure _ _ | (simp [*, kept @State.answer_fr, kept @State.refuseReg_fr]; done))

@[simp] theorem State.ctuCmd_fx (s : State) (who : Ident) (w : World) (f : State → State) (hf : ∀ x0, (f x0).fx = x0.fx) : (State.ctuCmd s who w f).fx = s.fx := by
  unfold State.ctuCmd
  first
  | (simp [*, kept @State.answer_fr, kept @State.refuseReg_fr]; done)
  | ((repeat' split) <;> simp [*, kept @State.answer_fr, kept @State.refuseReg_fr]; done)
  | ((try dsimp only); (repeat' split) <;> simp (disch := (intros; (repeat' split) <;> simp [*, kept @State.answer_fr, kept @State.refuseReg_fr])) [*, kept @State.answer_fr, kept @State.refuseReg_fr]; done)
  | (refine State.taskDo_fx _ _ _ (fun _ => ?_); (repeat' split) <;> first | exact keepsM_pure _ _ | (simp [*, kept @State.answer_fr, kept @State.refuseReg_fr]; done))

@[simp] theorem State.ctuCmd_ctu (s : State) (who : Ident) (w : World) (f : State → State) (hf : ∀ x0, (f x0).ctu = x0.ctu) : (State.ctuCmd s who w f).ctu = s.ctu := by
  unfold State.ctuCmd
  first
  | (simp [*, kept @State.answer_fr, kept @State.refuseReg_fr]; done)
  | ((repeat' split) <;> simp [*, kept @State.answer_fr, kept @State.refuseReg_fr]; done)
  | ((try dsimp only); (repeat' split) <;> simp (disch := (intros; (repeat' split) <;> simp [*, kept @State.answer_fr, kept @State.refuseReg_fr])) [*, kept @State.answer_fr, kept @State.refuseReg_fr]; done)
  | (refine State.taskDo_ctu _ _ _ (fun _ => ?_); (repeat' split) <;> first | exact keepsM_pure _ _ | (simp [*, kept @State.answer_fr, kept @State.refuseReg_fr]; done))

@[simp] theorem State.ctuCmd_links (s : State) (who : Ident) (w : World) (f : State → State) (hf : ∀ x0, (f x0).links = x0.links) : (State.ctuCmd s who w f).links = s.links := by
  unfold State.ctuCmd
  first
  | (simp [*, kept @State.answer_fr, kept @State.refuseReg_fr]; done)
  | ((repeat' split) <;> simp [*, kept @State.answer_fr, kept @State.refuseReg_fr]; done)
  | ((try dsimp only); (repeat' split) <;> simp (disch := (intros; (repeat' split) <;> simp [*, kept @State.answer_fr, kept @State.refuseReg_fr])) [*, kept @State.answer_fr, kept @State.refuseReg_fr]; done)
  | (refine State.taskDo_links _ _ _ (fun _ => ?_); (repeat' split) <;> first | exact keepsM_pure _ _ | (simp [*, kept @State.answer_fr, kept @State.refuseReg_fr]; done))

@[simp] theorem State.ctuCmd_aplicS (s : State) (who : Ident) (w : World) (f : State → State) (hf : ∀ x0, (f x0).aplicS = x0.aplicS) : (State.ctuCmd s who w f).aplicS = s.aplicS := by
  unfold State.ctuCmd
  first
  | (simp [*, kept @State.answer_fr, kept @State.refuseReg_fr]; done)
  | ((repeat' split) <;> simp [*, kept @State.answer_fr, kept @State.refuseReg_fr]; done)
  | ((try dsimp only); (repeat' split) <;> simp (disch := (intros; (repeat' split) <;> simp [*, kept @State.answer_fr, kept @State.refuseReg_fr])) [*, kept @State.answer_fr, kept @State.refuseReg_fr]; done)
  | (refine State.taskDo_aplicS _ _ _ (fun _ => ?_); (repeat' split) <;> first | exact keepsM_pure _ _ | (simp [*, kept @State.answer_fr, kept @State.refuseReg_fr]; done))

@[simp] theorem State.ctuCmd_aplicN (s : State) (who : Ident) (w : World) (f : State → State) (hf : ∀ x0, (f x0).aplicN = x0.aplicN) : (State.ctuCmd s who w f).aplicN = s.aplicN := by
  unfold State.ctuCmd
  first
  | (simp [*, kept @State.answer_fr, kept @State.refuseReg_fr]; done)
  | ((repeat' split) <;> simp [*, kept @State.answer_fr, kept @State.refuseReg_fr]; done)
  | ((try dsimp only); (repeat' split) <;> simp (disch := (intros; (repeat' split) <;> simp [*, kept @State.answer_fr, kept @State.refuseReg_fr])) [*, kept @State.answer_fr, kept @State.refuseReg_fr]; done)
  | (refine State.taskDo_aplicN _ _ _ (fun _ => ?_); (repeat' split) <;> first | exact keepsM_pure _ _ | (simp [*, kept @State.answer_fr, kept @State.refuseReg_fr]; done))

@[simp] theorem State.ctuCmd_credits (s : State) (who : Ident) (w : World) (f : State → State) (hf : ∀ x0, (f x0).credits = x0.credits) : (State.ctuCmd s who w f).credits = s.credits := by
  unfold State.ctuCmd
  first
  | (simp [*, kept @State.answer_fr, kept @State.refuseReg_fr]; done)
  | ((repeat' split) <;> simp [*, kept @State.answer_fr, kept @State.refuseReg_fr]; done)
  | ((try dsimp only); (repeat' split) <;> simp (disch := (intros; (repeat' split) <;> simp [*, kept @State.answer_fr, kept @State.refuseReg_fr])) [*, kept @State.answer_fr, kept @State.refuseReg_fr]; done)
  | (refine State.taskDo_credits _ _ _ (fun _ => ?_); (repeat' split) <;> first | exact keepsM_pure _ _ | (simp [*, kept @State.answer_fr, kept @State.refuseReg_fr]; done))

@[simp] theorem State.ctuCmd_clusters (s : State) (who : Ident) (w : World) (f : State → State) (hf : ∀ x0, (f x0).clusters = x0.clusters) : (State.ctuCmd s who w f).clusters = s.clusters := by
  unfold State.ctuCmd
  first
  | (simp [*, kept @State.answer_fr, kept @State.refuseReg_fr]; done)
  | ((repeat' split) <;> simp [*, kept @State.answer_fr, kept @State.refuseReg_fr]; done)
  | ((try dsimp only); (repeat' split) <;> simp (disch := (intros; (repeat' split) <;> simp [*, kept @State.answer_fr, kept @State.refuseReg_fr])) [*, kept @State.answer_fr, kept @State.refuseReg_fr]; done)
  | (refine State.taskDo_clusters _ _ _ (fun _ => ?_); (repeat' split) <;> first | exact keepsM_pure _ _ | (simp [*, kept @State.answer_fr, kept @State.refuseReg_fr]; done))

@[simp] theorem State.ctuCmd_homes (s : State) (who : Ident) (w : World) (f : State → State) (hf : ∀ x0, (f x0).homes = x0.homes) : (State.ctuCmd s who w f).homes = s.homes := by
  unfold State.ctuCmd
  first
  | (simp [*, kept @State.answer_fr, kept @State.refuseReg_fr]; done)
  | ((repeat' split) <;> simp [*, kept @State.answer_fr, kept @State.refuseReg_fr]; done)
  | ((try dsimp only); (repeat' split) <;> simp (disch := (intros; (repeat' split) <;> simp [*, kept @State.answer_fr, kept @State.refuseReg_fr])) [*, kept @State.answer_fr, kept @State.refuseReg_fr]; done)
  | (refine State.taskDo_homes _ _ _ (fun _ => ?_); (repeat' split) <;> first | exact keepsM_pure _ _ | (simp [*, kept @State.answer_fr, kept @State.refuseReg_fr]; done))

@[simp] theorem State.ctuCmd_pkts (s : State) (who : Ident) (w : World) (f : State → State) (hf : ∀ x0, (f x0).pkts = x0.pkts) : (State.ctuCmd s who w f).pkts = s.pkts := by
  unfold State.ctuCmd
  first
  | (simp [*, kept @State.answer_fr, kept @State.refuseReg_fr]; done)
  | ((repeat' split) <;> simp [*, kept @State.answer_fr, kept @State.refuseReg_fr]; done)
  | ((try dsimp only); (repeat' split) <;> simp (disch := (intros; (repeat' split) <;> simp [*, kept @State.answer_fr, kept @State.refuseReg_fr])) [*, kept @State.answer_fr, kept @State.refuseReg_fr]; done)
  | (refine State.taskDo_pkts _ _ _ (fun _ => ?_); (repeat' split) <;> first | exact keepsM_pure _ _ | (simp [*, kept @State.answer_fr, kept @State.refuseReg_fr]; done))

@[simp] theorem State.ctuCmd_wires (s : State) (who : Ident) (w : World) (f : State → State) (hf : ∀ x0, (f x0).wires = x0.wires) : (State.ctuCmd s who w f).wires = s.wires := by
  unfold State.ctuCmd
  first
  | (simp [*, kept @State.answer_fr, kept @State.refuseReg_fr]; done)
  | ((repeat' split) <;> simp [*, kept @State.answer_fr, kept @State.refuseReg_fr]; done)
  | ((try dsimp only); (repeat' split) <;> simp (disch := (intros; (repeat' split) <;> simp [*, kept @State.answer_fr, kept @State.refuseReg_fr])) [*, kept @State.answer_fr, kept @State.refuseReg_fr]; done)
  | (refine State.taskDo_wires _ _ _ (fun _ => ?_); (repeat' split) <;> first | exact keepsM_pure _ _ | (simp [*, kept @State.answer_fr, kept @State.refuseReg_fr]; done))

@[simp] theorem State.ctuCmd_dmg (s : State) (who : Ident) (w : World) (f : State → State) (hf : ∀ x0, (f x0).dmg = x0.dmg) : (State.ctuCmd s who w f).dmg = s.dmg := by
  unfold State.ctuCmd
  first
  | (simp [*, kept @State.answer_fr, kept @State.refuseReg_fr]; done)
  | ((repeat' split) <;> simp [*, kept @State.answer_fr, kept @State.refuseReg_fr]; done)
  | ((try dsimp only); (repeat' split) <;> simp (disch := (intros; (repeat' split) <;> simp [*, kept @State.answer_fr, kept @State.refuseReg_fr])) [*, kept @State.answer_fr, kept @State.refuseReg_fr]; done)
  | (refine State.taskDo_dmg _ _ _ (fun _ => ?_); (repeat' split) <;> first | exact keepsM_pure _ _ | (simp [*, kept @State.answer_fr, kept @State.refuseReg_fr]; done))

@[simp] theorem State.ctuCmd_wq (s : State) (who : Ident) (w : World) (f : State → State) (hf : ∀ x0, (f x0).wq = x0.wq) : (State.ctuCmd s who w f).wq = s.wq := by
  unfold State.ctuCmd
  first
  | (simp [*, kept @State.answer_fr, kept @State.refuseReg_fr]; done)
  | ((repeat' split) <;> simp [*, kept @State.answer_fr, kept @State.refuseReg_fr]; done)
  | ((try dsimp only); (repeat' split) <;> simp (disch := (intros; (repeat' split) <;> simp [*, kept @State.answer_fr, kept @State.refuseReg_fr])) [*, kept @State.answer_fr, kept @State.refuseReg_fr]; done)
  | (refine State.taskDo_wq _ _ _ (fun _ => ?_); (repeat' split) <;> first | exact keepsM_pure _ _ | (simp [*, kept @State.answer_fr, kept @State.refuseReg_fr]; done))

@[simp] theorem State.ctuCmd_net (s : State) (who : Ident) (w : World) (f : State → State) (hf : ∀ x0, (f x0).net = x0.net) : (State.ctuCmd s who w f).net = s.net := by
  unfold State.ctuCmd
  first
  | (simp [*, kept @State.answer_fr, kept @State.refuseReg_fr]; done)
  | ((repeat' split) <;> simp [*, kept @State.answer_fr, kept @State.refuseReg_fr]; done)
  | ((try dsimp only); (repeat' split) <;> simp (disch := (intros; (repeat' split) <;> simp [*, kept @State.answer_fr, kept @State.refuseReg_fr])) [*, kept @State.answer_fr, kept @State.refuseReg_fr]; done)
  | (refine State.taskDo_net _ _ _ (fun _ => ?_); (repeat' split) <;> first | exact keepsM_pure _ _ | (simp [*, kept @State.answer_fr, kept @State.refuseReg_fr]; done))

@[simp] theorem State.ctuCmd_dbInval (s : State) (who : Ident) (w : World) (f : State → State) (hf : ∀ x0, (f x0).dbInval = x0.dbInval) : (State.ctuCmd s who w f).dbInval = s.dbInval := by
  unfold State.ctuCmd
  first
  | (simp [*, kept @State.answer_fr, kept @State.refuseReg_fr]; done)
  | ((repeat' split) <;> simp [*, kept @State.answer_fr, kept @State.refuseReg_fr]; done)
  | ((try dsimp only); (repeat' split) <;> simp (disch := (intros; (repeat' split) <;> simp [*, kept @State.answer_fr, kept @State.refuseReg_fr])) [*, kept @State.answer_fr, kept @State.refuseReg_fr]; done)
  | (refine State.taskDo_dbInval _ _ _ (fun _ => ?_); (repeat' split) <;> first | exact keepsM_pure _ _ | (simp [*, kept @State.answer_fr, kept @State.refuseReg_fr]; done))

@[simp] theorem State.ctuCmd_watch (s : State) (who : Ident) (w : World) (f : State → State) (hf : ∀ x0, (f x0).watch = x0.watch) : (State.ctuCmd s who w f).watch = s.watch := by
  unfold State.ctuCmd
  first
  | (simp [*, kept @State.answer_fr, kept @State.refuseReg_fr]; done)
  | ((repeat' split) <;> simp [*, kept @State.answer_fr, kept @State.refuseReg_fr]; done)
  | ((try dsimp only); (repeat' split) <;> simp (disch := (intros; (repeat' split) <;> simp [*, kept @State.answer_fr, kept @State.refuseReg_fr])) [*, kept @State.answer_fr, kept @State.refuseReg_fr]; done)
  | (refine State.taskDo_watch _ _ _ (fun _ => ?_); (repeat' split) <;> first | exact keepsM_pure _ _ | (simp [*, kept @State.answer_fr, kept @State.refuseReg_fr]; done))

@[simp] theorem State.ctuCmd_pkg (s : State) (who : Ident) (w : World) (f : State → State) (hf : ∀ x0, (f x0).pkg = x0.pkg) : (State.ctuCmd s who w f).pkg = s.pkg := by
  unfold State.ctuCmd
  first
  | (simp [*, kept @State.answer_fr, kept @State.refuseReg_fr]; done)
  | ((repeat' split) <;> simp [*, kept @State.answer_fr, kept @State.refuseReg_fr]; done)
  | ((try dsimp only); (repeat' split) <;> simp (disch := (intros; (repeat' split) <;> simp [*, kept @State.answer_fr, kept @State.refuseReg_fr])) [*, kept @State.answer_fr, kept @State.refuseReg_fr]; done)
  | (refine State.taskDo_pkg _ _ _ (fun _ => ?_); (repeat' split) <;> first | exact keepsM_pure _ _ | (simp [*, kept @State.answer_fr, kept @State.refuseReg_fr]; done))

@[simp] theorem State.ctuCmd_fwLog (s : State) (who : Ident) (w : World) (f : State → State) (hf : ∀ x0, (f x0).fwLog = x0.fwLog) : (State.ctuCmd s who w f).fwLog = s.fwLog := by
  unfold State.ctuCmd
  first
  | (simp [*, kept @State.answer_fr, kept @State.refuseReg_fr]; done)
  | ((repeat' split) <;> simp [*, kept @State.answer_fr, kept @State.refuseReg_fr]; done)
  | ((try dsimp only); (repeat' split) <;> simp (disch := (intros; (repeat' split) <;> simp [*, kept @State.answer_fr, kept @State.refuseReg_fr])) [*, kept @State.answer_fr, kept @State.refuseReg_fr]; done)
  | (refine State.taskDo_fwLog _ _ _ (fun _ => ?_); (repeat' split) <;> first | exact keepsM_pure _ _ | (simp [*, kept @State.answer_fr, kept @State.refuseReg_fr]; done))

@[simp] theorem State.ctuCmd_out (s : State) (who : Ident) (w : World) (f : State → State) (hf : ∀ x0, (f x0).out = x0.out) : (State.ctuCmd s who w f).out = s.out := by
  unfold State.ctuCmd
  first
  | (simp [*, kept @State.answer_fr, kept @State.refuseReg_fr]; done)
  | ((repeat' split) <;> simp [*, kept @State.answer_fr, kept @State.refuseReg_fr]; done)
  | ((try dsimp only); (repeat' split) <;> simp (disch := (intros; (repeat' split) <;> simp [*, kept @State.answer_fr, kept @State.refuseReg_fr])) [*, kept @State.answer_fr, kept @State.refuseReg_fr]; done)
  | (refine State.taskDo_out _ _ _ (fun _ => ?_); (repeat' split) <;> first | exact keepsM_pure _ _ | (simp [*, kept @State.answer_fr, kept @State.refuseReg_fr]; done))

@[simp] theorem State.ctuCmd_free (s : State) (who : Ident) (w : World) (f : State → State) (hf : ∀ x0, (f x0).free = x0.free) : (State.ctuCmd s who w f).free = s.free := by
  unfold State.ctuCmd
  first
  | (simp [*, kept @State.answer_fr, kept @State.refuseReg_fr]; done)
  | ((repeat' split) <;> simp [*, kept @State.answer_fr, kept @State.refuseReg_fr]; done)
  | ((try dsimp only); (repeat' split) <;> simp (disch := (intros; (repeat' split) <;> simp [*, kept @State.answer_fr, kept @State.refuseReg_fr])) [*, kept @State.answer_fr, kept @State.refuseReg_fr]; done)
  | (refine State.taskDo_free _ _ _ (fun _ => ?_); (repeat' split) <;> first | exact keepsM_pure _ _ | (simp [*, kept @State.answer_fr, kept @State.refuseReg_fr]; done))

theorem execCtuBegin_fr (who : Ident) (w : World) (tag : Nat) (s : State) {u : State} (h : execCtuBegin who w tag s = .next u) : u.pending = s.pending ∧ u.flash = s.flash ∧ u.coldOpt = s.coldOpt ∧ u.mem = s.mem ∧ u.harts = s.harts ∧ u.imsic = s.imsic ∧ u.eng = s.eng ∧ u.dm = s.dm ∧ u.fx = s.fx ∧ u.links = s.links ∧ u.aplicS = s.aplicS ∧ u.aplicN = s.aplicN ∧ u.credits = s.credits ∧ u.clusters = s.clusters ∧ u.homes = s.homes ∧ u.pkts = s.pkts ∧ u.dmg = s.dmg ∧ u.wq = s.wq ∧ u.net = s.net ∧ u.dbInval = s.dbInval ∧ u.watch = s.watch ∧ u.pkg = s.pkg ∧ u.fwLog = s.fwLog ∧ u.out = s.out ∧ u.free = s.free ∧ u.fabric = s.fabric ∧ u.files = s.files := by
  unfold execCtuBegin at h
  (first | (simp only [Host.Outcome.next.injEq] at h; rw [← h]) | (simp only [reduceCtorEq] at h; done) | (simp only [Option.some.injEq] at h; rw [← h])); simp [kept @State.ctuBegin_fr]

theorem execCtuCommit_fr (who : Ident) (w : World) (tag : Nat) (s : State) {u : State} (h : execCtuCommit who w tag s = .next u) : u.pending = s.pending ∧ u.flash = s.flash ∧ u.coldOpt = s.coldOpt ∧ u.mem = s.mem ∧ u.harts = s.harts ∧ u.imsic = s.imsic ∧ u.eng = s.eng ∧ u.dm = s.dm ∧ u.fx = s.fx ∧ u.links = s.links ∧ u.aplicS = s.aplicS ∧ u.aplicN = s.aplicN ∧ u.credits = s.credits ∧ u.clusters = s.clusters ∧ u.homes = s.homes ∧ u.pkts = s.pkts ∧ u.dmg = s.dmg ∧ u.wq = s.wq ∧ u.net = s.net ∧ u.dbInval = s.dbInval ∧ u.watch = s.watch ∧ u.pkg = s.pkg ∧ u.fwLog = s.fwLog ∧ u.out = s.out ∧ u.free = s.free ∧ u.fabric = s.fabric ∧ u.files = s.files := by
  unfold execCtuCommit at h
  (first | (simp only [Host.Outcome.next.injEq] at h; rw [← h]) | (simp only [reduceCtorEq] at h; done) | (simp only [Option.some.injEq] at h; rw [← h])); simp [kept @State.ctuCommit_fr]

theorem execCtuRollback_fr (who : Ident) (w : World) (tag : Nat) (s : State) {u : State} (h : execCtuRollback who w tag s = .next u) : u.pending = s.pending ∧ u.flash = s.flash ∧ u.coldOpt = s.coldOpt ∧ u.mem = s.mem ∧ u.harts = s.harts ∧ u.imsic = s.imsic ∧ u.eng = s.eng ∧ u.dm = s.dm ∧ u.fx = s.fx ∧ u.links = s.links ∧ u.aplicS = s.aplicS ∧ u.aplicN = s.aplicN ∧ u.credits = s.credits ∧ u.clusters = s.clusters ∧ u.homes = s.homes ∧ u.pkts = s.pkts ∧ u.dmg = s.dmg ∧ u.wq = s.wq ∧ u.net = s.net ∧ u.dbInval = s.dbInval ∧ u.watch = s.watch ∧ u.pkg = s.pkg ∧ u.fwLog = s.fwLog ∧ u.out = s.out ∧ u.free = s.free ∧ u.fabric = s.fabric ∧ u.files = s.files := by
  unfold execCtuRollback at h
  (first | (simp only [Host.Outcome.next.injEq] at h; rw [← h]) | (simp only [reduceCtorEq] at h; done) | (simp only [Option.some.injEq] at h; rw [← h])); simp [kept @State.ctuRollback_fr]

theorem execCtuTimeout_fr (w : World) (s : State) {u : State} (h : execCtuTimeout w s = .next u) : u.pending = s.pending ∧ u.flash = s.flash ∧ u.coldOpt = s.coldOpt ∧ u.mem = s.mem ∧ u.harts = s.harts ∧ u.mram = s.mram ∧ u.imsic = s.imsic ∧ u.eng = s.eng ∧ u.dm = s.dm ∧ u.fx = s.fx ∧ u.links = s.links ∧ u.aplicS = s.aplicS ∧ u.aplicN = s.aplicN ∧ u.credits = s.credits ∧ u.clusters = s.clusters ∧ u.homes = s.homes ∧ u.pkts = s.pkts ∧ u.resp = s.resp ∧ u.dmg = s.dmg ∧ u.wq = s.wq ∧ u.net = s.net ∧ u.dbInval = s.dbInval ∧ u.watch = s.watch ∧ u.pkg = s.pkg ∧ u.pmc = s.pmc ∧ u.fwLog = s.fwLog ∧ u.out = s.out ∧ u.free = s.free ∧ u.fabric = s.fabric ∧ u.files = s.files := by
  unfold execCtuTimeout at h
  (try dsimp only at h); (repeat' split at h) <;> (first | (simp only [Host.Outcome.next.injEq] at h; rw [← h]) | (simp only [reduceCtorEq] at h; done) | (simp only [Option.some.injEq] at h; rw [← h])) <;> simp [kept @State.ctuResult_fr, kept @State.setCtu_fr]

theorem execCommitTurn_fr (s : State) {u : State} (h : execCommitTurn s = .next u) : u.pending = s.pending ∧ u.flash = s.flash ∧ u.coldOpt = s.coldOpt ∧ u.mem = s.mem ∧ u.harts = s.harts ∧ u.mram = s.mram ∧ u.imsic = s.imsic ∧ u.eng = s.eng ∧ u.dm = s.dm ∧ u.fx = s.fx ∧ u.links = s.links ∧ u.aplicS = s.aplicS ∧ u.aplicN = s.aplicN ∧ u.credits = s.credits ∧ u.clusters = s.clusters ∧ u.homes = s.homes ∧ u.pkts = s.pkts ∧ u.resp = s.resp ∧ u.wires = s.wires ∧ u.dmg = s.dmg ∧ u.wq = s.wq ∧ u.net = s.net ∧ u.dbInval = s.dbInval ∧ u.watch = s.watch ∧ u.pkg = s.pkg ∧ u.pmc = s.pmc ∧ u.fwLog = s.fwLog ∧ u.out = s.out ∧ u.free = s.free ∧ u.fabric = s.fabric ∧ u.files = s.files := by
  unfold execCommitTurn at h
  (try dsimp only at h); (repeat' split at h) <;> (first | (simp only [Host.Outcome.next.injEq] at h; rw [← h]) | (simp only [reduceCtorEq] at h; done) | (simp only [Option.some.injEq] at h; rw [← h])) <;> simp [kept @State.setCtu_fr]

theorem State.ctuEnd_fr (s : State) (t : Txn) (r : Nat) : (State.ctuEnd s t r).pending = s.pending ∧ (State.ctuEnd s t r).flash = s.flash ∧ (State.ctuEnd s t r).coldOpt = s.coldOpt ∧ (State.ctuEnd s t r).mem = s.mem ∧ (State.ctuEnd s t r).harts = s.harts ∧ (State.ctuEnd s t r).mram = s.mram ∧ (State.ctuEnd s t r).imsic = s.imsic ∧ (State.ctuEnd s t r).eng = s.eng ∧ (State.ctuEnd s t r).dm = s.dm ∧ (State.ctuEnd s t r).fx = s.fx ∧ (State.ctuEnd s t r).links = s.links ∧ (State.ctuEnd s t r).aplicS = s.aplicS ∧ (State.ctuEnd s t r).aplicN = s.aplicN ∧ (State.ctuEnd s t r).credits = s.credits ∧ (State.ctuEnd s t r).clusters = s.clusters ∧ (State.ctuEnd s t r).homes = s.homes ∧ (State.ctuEnd s t r).pkts = s.pkts ∧ (State.ctuEnd s t r).resp = s.resp ∧ (State.ctuEnd s t r).dmg = s.dmg ∧ (State.ctuEnd s t r).wq = s.wq ∧ (State.ctuEnd s t r).net = s.net ∧ (State.ctuEnd s t r).dbInval = s.dbInval ∧ (State.ctuEnd s t r).watch = s.watch ∧ (State.ctuEnd s t r).pkg = s.pkg ∧ (State.ctuEnd s t r).pmc = s.pmc ∧ (State.ctuEnd s t r).fwLog = s.fwLog ∧ (State.ctuEnd s t r).out = s.out ∧ (State.ctuEnd s t r).free = s.free ∧ (State.ctuEnd s t r).fabric = s.fabric ∧ (State.ctuEnd s t r).files = s.files := by
  generalize h : State.ctuEnd s t r = u
  unfold State.ctuEnd at h
  rw [← h]; simp [kept @State.ctuResult_fr, kept @State.setCtu_fr]

theorem execCtuCheckDone_fr (s : State) {u : State} (h : execCtuCheckDone s = .next u) : u.pending = s.pending ∧ u.flash = s.flash ∧ u.coldOpt = s.coldOpt ∧ u.mem = s.mem ∧ u.harts = s.harts ∧ u.mram = s.mram ∧ u.imsic = s.imsic ∧ u.eng = s.eng ∧ u.dm = s.dm ∧ u.fx = s.fx ∧ u.links = s.links ∧ u.aplicS = s.aplicS ∧ u.aplicN = s.aplicN ∧ u.credits = s.credits ∧ u.clusters = s.clusters ∧ u.pkts = s.pkts ∧ u.resp = s.resp ∧ u.dmg = s.dmg ∧ u.wq = s.wq ∧ u.net = s.net ∧ u.dbInval = s.dbInval ∧ u.watch = s.watch ∧ u.pkg = s.pkg ∧ u.pmc = s.pmc ∧ u.fwLog = s.fwLog ∧ u.out = s.out ∧ u.free = s.free ∧ u.fabric = s.fabric ∧ u.files = s.files := by
  unfold execCtuCheckDone at h
  (try dsimp only at h); (repeat' split at h) <;> (first | (simp only [Host.Outcome.next.injEq] at h; rw [← h]) | (simp only [reduceCtorEq] at h; done) | (simp only [Option.some.injEq] at h; rw [← h])) <;> simp [kept @State.beginShares_fr, kept @State.ctuEnd_fr, kept @State.setCtu_fr, kept @State.wr_fr]

theorem execCtuApply_fr (b : Block) (s : State) {u : State} (h : execCtuApply b s = .next u) : u.pending = s.pending ∧ u.flash = s.flash ∧ u.coldOpt = s.coldOpt ∧ u.mem = s.mem ∧ u.harts = s.harts ∧ u.mram = s.mram ∧ u.imsic = s.imsic ∧ u.eng = s.eng ∧ u.dm = s.dm ∧ u.fx = s.fx ∧ u.links = s.links ∧ u.aplicS = s.aplicS ∧ u.aplicN = s.aplicN ∧ u.credits = s.credits ∧ u.clusters = s.clusters ∧ u.homes = s.homes ∧ u.pkts = s.pkts ∧ u.resp = s.resp ∧ u.wires = s.wires ∧ u.dmg = s.dmg ∧ u.wq = s.wq ∧ u.net = s.net ∧ u.dbInval = s.dbInval ∧ u.watch = s.watch ∧ u.pkg = s.pkg ∧ u.pmc = s.pmc ∧ u.fwLog = s.fwLog ∧ u.out = s.out ∧ u.free = s.free ∧ u.fabric = s.fabric ∧ u.files = s.files := by
  unfold execCtuApply at h
  (try dsimp only at h); (repeat' split at h) <;> (first | (simp only [Host.Outcome.next.injEq] at h; rw [← h]) | (simp only [reduceCtorEq] at h; done) | (simp only [Option.some.injEq] at h; rw [← h])) <;> simp [kept @State.setCtu_fr]

theorem execBlockApply_fr (b : Block) (s : State) {u : State} (h : execBlockApply b s = .next u) : u.pending = s.pending ∧ u.flash = s.flash ∧ u.coldOpt = s.coldOpt ∧ u.links = s.links ∧ u.credits = s.credits ∧ u.pkts = s.pkts ∧ u.resp = s.resp ∧ u.free = s.free ∧ u.fabric = s.fabric := by
  unfold execBlockApply at h
  (try dsimp only at h); (repeat' split at h) <;> (first | (simp only [Host.Outcome.next.injEq] at h; rw [← h]) | (simp only [reduceCtorEq] at h; done) | (simp only [Option.some.injEq] at h; rw [← h])) <;> simp [kept @State.applyBlock_fr, kept @State.setCtu_fr]

theorem execCtuApplyComplete_fr (s : State) {u : State} (h : execCtuApplyComplete s = .next u) : u.pending = s.pending ∧ u.flash = s.flash ∧ u.coldOpt = s.coldOpt ∧ u.mem = s.mem ∧ u.harts = s.harts ∧ u.mram = s.mram ∧ u.imsic = s.imsic ∧ u.eng = s.eng ∧ u.dm = s.dm ∧ u.fx = s.fx ∧ u.links = s.links ∧ u.aplicS = s.aplicS ∧ u.aplicN = s.aplicN ∧ u.credits = s.credits ∧ u.clusters = s.clusters ∧ u.homes = s.homes ∧ u.pkts = s.pkts ∧ u.resp = s.resp ∧ u.dmg = s.dmg ∧ u.wq = s.wq ∧ u.net = s.net ∧ u.dbInval = s.dbInval ∧ u.watch = s.watch ∧ u.pmc = s.pmc ∧ u.fwLog = s.fwLog ∧ u.out = s.out ∧ u.free = s.free ∧ u.fabric = s.fabric ∧ u.files = s.files := by
  unfold execCtuApplyComplete at h
  (try dsimp only at h); (repeat' split at h) <;> (first | (simp only [Host.Outcome.next.injEq] at h; rw [← h]) | (simp only [reduceCtorEq] at h; done) | (simp only [Option.some.injEq] at h; rw [← h])) <;> simp [kept @State.ctuEnd_fr, kept @State.updateSave_fr]

theorem State.sweepHome_fr (s : State) (t : Nat) (r : Hold) : (State.sweepHome s t r).pending = s.pending ∧ (State.sweepHome s t r).flash = s.flash ∧ (State.sweepHome s t r).coldOpt = s.coldOpt ∧ (State.sweepHome s t r).mem = s.mem ∧ (State.sweepHome s t r).mram = s.mram ∧ (State.sweepHome s t r).imsic = s.imsic ∧ (State.sweepHome s t r).eng = s.eng ∧ (State.sweepHome s t r).dm = s.dm ∧ (State.sweepHome s t r).fx = s.fx ∧ (State.sweepHome s t r).ctu = s.ctu ∧ (State.sweepHome s t r).links = s.links ∧ (State.sweepHome s t r).aplicS = s.aplicS ∧ (State.sweepHome s t r).aplicN = s.aplicN ∧ (State.sweepHome s t r).credits = s.credits ∧ (State.sweepHome s t r).pkts = s.pkts ∧ (State.sweepHome s t r).resp = s.resp ∧ (State.sweepHome s t r).wires = s.wires ∧ (State.sweepHome s t r).dmg = s.dmg ∧ (State.sweepHome s t r).pkg = s.pkg ∧ (State.sweepHome s t r).pmc = s.pmc ∧ (State.sweepHome s t r).fwLog = s.fwLog ∧ (State.sweepHome s t r).out = s.out ∧ (State.sweepHome s t r).free = s.free ∧ (State.sweepHome s t r).fabric = s.fabric ∧ (State.sweepHome s t r).files = s.files := by
  generalize h : State.sweepHome s t r = u
  unfold State.sweepHome at h
  rw [← h]; simp [kept @State.cleanLine_fr, kept @State.flushLine_fr, kept @State.l3Clean_fr, kept @State.l3Take_fr]

theorem State.setHolds_fr (s : State) (t : Nat) (l : List Hold) : (State.setHolds s t l).pending = s.pending ∧ (State.setHolds s t l).flash = s.flash ∧ (State.setHolds s t l).coldOpt = s.coldOpt ∧ (State.setHolds s t l).mem = s.mem ∧ (State.setHolds s t l).harts = s.harts ∧ (State.setHolds s t l).mram = s.mram ∧ (State.setHolds s t l).imsic = s.imsic ∧ (State.setHolds s t l).eng = s.eng ∧ (State.setHolds s t l).dm = s.dm ∧ (State.setHolds s t l).fx = s.fx ∧ (State.setHolds s t l).ctu = s.ctu ∧ (State.setHolds s t l).links = s.links ∧ (State.setHolds s t l).aplicS = s.aplicS ∧ (State.setHolds s t l).aplicN = s.aplicN ∧ (State.setHolds s t l).credits = s.credits ∧ (State.setHolds s t l).clusters = s.clusters ∧ (State.setHolds s t l).pkts = s.pkts ∧ (State.setHolds s t l).resp = s.resp ∧ (State.setHolds s t l).regs = s.regs ∧ (State.setHolds s t l).wires = s.wires ∧ (State.setHolds s t l).dmg = s.dmg ∧ (State.setHolds s t l).wq = s.wq ∧ (State.setHolds s t l).net = s.net ∧ (State.setHolds s t l).dbInval = s.dbInval ∧ (State.setHolds s t l).watch = s.watch ∧ (State.setHolds s t l).pkg = s.pkg ∧ (State.setHolds s t l).pmc = s.pmc ∧ (State.setHolds s t l).fwLog = s.fwLog ∧ (State.setHolds s t l).out = s.out ∧ (State.setHolds s t l).free = s.free ∧ (State.setHolds s t l).fabric = s.fabric ∧ (State.setHolds s t l).files = s.files := by
  generalize h : State.setHolds s t l = u
  unfold State.setHolds at h
  rw [← h]; simp [kept @State.setHome_fr]

theorem execSweepDone_fr (t : Fin 64) (s : State) {u : State} (h : execSweepDone t s = .next u) : u.pending = s.pending ∧ u.flash = s.flash ∧ u.coldOpt = s.coldOpt ∧ u.mem = s.mem ∧ u.mram = s.mram ∧ u.imsic = s.imsic ∧ u.eng = s.eng ∧ u.dm = s.dm ∧ u.fx = s.fx ∧ u.ctu = s.ctu ∧ u.links = s.links ∧ u.aplicS = s.aplicS ∧ u.aplicN = s.aplicN ∧ u.credits = s.credits ∧ u.pkts = s.pkts ∧ u.resp = s.resp ∧ u.wires = s.wires ∧ u.dmg = s.dmg ∧ u.pkg = s.pkg ∧ u.pmc = s.pmc ∧ u.out = s.out ∧ u.free = s.free ∧ u.fabric = s.fabric ∧ u.files = s.files := by
  unfold execSweepDone at h
  (try dsimp only at h); (repeat' split at h) <;> (first | (simp only [Host.Outcome.next.injEq] at h; rw [← h]) | (simp only [reduceCtorEq] at h; done) | (simp only [Option.some.injEq] at h; rw [← h])) <;> simp [kept @State.reAdmit_fr, kept @State.setHolds_fr, kept @State.sweepHome_fr]

theorem execShareHandback_fr (k : Fin 64) (s : State) {u : State} (h : execShareHandback k s = .next u) : u.pending = s.pending ∧ u.flash = s.flash ∧ u.coldOpt = s.coldOpt ∧ u.mem = s.mem ∧ u.mram = s.mram ∧ u.imsic = s.imsic ∧ u.eng = s.eng ∧ u.dm = s.dm ∧ u.fx = s.fx ∧ u.ctu = s.ctu ∧ u.links = s.links ∧ u.aplicS = s.aplicS ∧ u.aplicN = s.aplicN ∧ u.credits = s.credits ∧ u.pkts = s.pkts ∧ u.resp = s.resp ∧ u.wires = s.wires ∧ u.dmg = s.dmg ∧ u.pkg = s.pkg ∧ u.pmc = s.pmc ∧ u.out = s.out ∧ u.free = s.free ∧ u.fabric = s.fabric ∧ u.files = s.files := by
  unfold execShareHandback at h
  (try dsimp only at h); (repeat' split at h) <;> (first | (simp only [Host.Outcome.next.injEq] at h; rw [← h]) | (simp only [reduceCtorEq] at h; done) | (simp only [Option.some.injEq] at h; rw [← h])) <;> simp [kept @State.evictMore_fr, kept @State.flushLine_fr, kept @State.reAdmit_fr, kept @State.setHome_fr]

theorem execZeroFillDone_fr (r : Fin 256) (s : State) {u : State} (h : execZeroFillDone r s = .next u) : u.pending = s.pending ∧ u.flash = s.flash ∧ u.coldOpt = s.coldOpt ∧ u.mem = s.mem ∧ u.harts = s.harts ∧ u.mram = s.mram ∧ u.imsic = s.imsic ∧ u.eng = s.eng ∧ u.dm = s.dm ∧ u.fx = s.fx ∧ u.ctu = s.ctu ∧ u.links = s.links ∧ u.aplicS = s.aplicS ∧ u.aplicN = s.aplicN ∧ u.credits = s.credits ∧ u.clusters = s.clusters ∧ u.homes = s.homes ∧ u.pkts = s.pkts ∧ u.resp = s.resp ∧ u.dmg = s.dmg ∧ u.wq = s.wq ∧ u.net = s.net ∧ u.dbInval = s.dbInval ∧ u.watch = s.watch ∧ u.pkg = s.pkg ∧ u.pmc = s.pmc ∧ u.fwLog = s.fwLog ∧ u.out = s.out ∧ u.free = s.free ∧ u.fabric = s.fabric ∧ u.files = s.files := by
  unfold execZeroFillDone at h
  (try dsimp only at h); (repeat' split at h) <;> (first | (simp only [Host.Outcome.next.injEq] at h; rw [← h]) | (simp only [reduceCtorEq] at h; done) | (simp only [Option.some.injEq] at h; rw [← h])) <;> simp [kept @State.raise_fr, kept @State.wr_fr]

theorem execAgentDrained_fr (t : Fin 64) (a : Fin 16) (s : State) {u : State} (h : execAgentDrained t a s = .next u) : u.pending = s.pending ∧ u.flash = s.flash ∧ u.coldOpt = s.coldOpt ∧ u.mem = s.mem ∧ u.harts = s.harts ∧ u.mram = s.mram ∧ u.imsic = s.imsic ∧ u.eng = s.eng ∧ u.dm = s.dm ∧ u.fx = s.fx ∧ u.ctu = s.ctu ∧ u.links = s.links ∧ u.aplicS = s.aplicS ∧ u.aplicN = s.aplicN ∧ u.credits = s.credits ∧ u.clusters = s.clusters ∧ u.homes = s.homes ∧ u.pkts = s.pkts ∧ u.resp = s.resp ∧ u.wires = s.wires ∧ u.dmg = s.dmg ∧ u.wq = s.wq ∧ u.net = s.net ∧ u.dbInval = s.dbInval ∧ u.watch = s.watch ∧ u.pkg = s.pkg ∧ u.pmc = s.pmc ∧ u.fwLog = s.fwLog ∧ u.out = s.out ∧ u.free = s.free ∧ u.fabric = s.fabric ∧ u.files = s.files := by
  unfold execAgentDrained at h
  (try dsimp only at h); (repeat' split at h) <;> (first | (simp only [Host.Outcome.next.injEq] at h; rw [← h]) | (simp only [reduceCtorEq] at h; done) | (simp only [Option.some.injEq] at h; rw [← h])) <;> simp [kept @State.fence_fr]

end Sys2Proof.Machine
end

