-- ==== Sys2Proof/Laws/Frame/EngCmds.lean ====
section
/-! SUPPORT. What the operations of Machine/EngCmds.lean leave unchanged. -/

set_option Elab.async false
set_option linter.all false

namespace Sys2Proof.Machine
open Sys2Proof

@[simp] theorem State.inputDo_pending (s : State) (n opc : Nat) (f : OpCtx → Task → EM Unit)
    (hf : ∀ c t, KeepsM State.pending (f c t)) : (State.inputDo s n opc f).pending = s.pending := by
  unfold State.inputDo
  refine State.taskDo_pending _ _ _ (fun _ => ?_)
  (repeat' split)
  all_goals first | exact keepsM_pure _ _ | simp [*]

@[simp] theorem State.inputDo_files (s : State) (n opc : Nat) (f : OpCtx → Task → EM Unit)
    (hf : ∀ c t, KeepsM State.files (f c t)) : (State.inputDo s n opc f).files = s.files := by
  unfold State.inputDo
  refine State.taskDo_files _ _ _ (fun _ => ?_)
  (repeat' split)
  all_goals first | exact keepsM_pure _ _ | simp [*]

@[simp] theorem State.inputDo_fabric (s : State) (n opc : Nat) (f : OpCtx → Task → EM Unit)
    (hf : ∀ c t, KeepsM State.fabric (f c t)) : (State.inputDo s n opc f).fabric = s.fabric := by
  unfold State.inputDo
  refine State.taskDo_fabric _ _ _ (fun _ => ?_)
  (repeat' split)
  all_goals first | exact keepsM_pure _ _ | simp [*]

@[simp] theorem State.inputDo_flash (s : State) (n opc : Nat) (f : OpCtx → Task → EM Unit)
    (hf : ∀ c t, KeepsM State.flash (f c t)) : (State.inputDo s n opc f).flash = s.flash := by
  unfold State.inputDo
  refine State.taskDo_flash _ _ _ (fun _ => ?_)
  (repeat' split)
  all_goals first | exact keepsM_pure _ _ | simp [*]

@[simp] theorem State.inputDo_coldOpt (s : State) (n opc : Nat) (f : OpCtx → Task → EM Unit)
    (hf : ∀ c t, KeepsM State.coldOpt (f c t)) : (State.inputDo s n opc f).coldOpt = s.coldOpt := by
  unfold State.inputDo
  refine State.taskDo_coldOpt _ _ _ (fun _ => ?_)
  (repeat' split)
  all_goals first | exact keepsM_pure _ _ | simp [*]

@[simp] theorem State.inputDo_imsic (s : State) (n opc : Nat) (f : OpCtx → Task → EM Unit)
    (hf : ∀ c t, KeepsM State.imsic (f c t)) : (State.inputDo s n opc f).imsic = s.imsic := by
  unfold State.inputDo
  refine State.taskDo_imsic _ _ _ (fun _ => ?_)
  (repeat' split)
  all_goals first | exact keepsM_pure _ _ | simp [*]

@[simp] theorem State.inputDo_dm (s : State) (n opc : Nat) (f : OpCtx → Task → EM Unit)
    (hf : ∀ c t, KeepsM State.dm (f c t)) : (State.inputDo s n opc f).dm = s.dm := by
  unfold State.inputDo
  refine State.taskDo_dm _ _ _ (fun _ => ?_)
  (repeat' split)
  all_goals first | exact keepsM_pure _ _ | simp [*]

@[simp] theorem State.inputDo_ctu (s : State) (n opc : Nat) (f : OpCtx → Task → EM Unit)
    (hf : ∀ c t, KeepsM State.ctu (f c t)) : (State.inputDo s n opc f).ctu = s.ctu := by
  unfold State.inputDo
  refine State.taskDo_ctu _ _ _ (fun _ => ?_)
  (repeat' split)
  all_goals first | exact keepsM_pure _ _ | simp [*]

@[simp] theorem State.inputDo_links (s : State) (n opc : Nat) (f : OpCtx → Task → EM Unit)
    (hf : ∀ c t, KeepsM State.links (f c t)) : (State.inputDo s n opc f).links = s.links := by
  unfold State.inputDo
  refine State.taskDo_links _ _ _ (fun _ => ?_)
  (repeat' split)
  all_goals first | exact keepsM_pure _ _ | simp [*]

@[simp] theorem State.inputDo_aplicS (s : State) (n opc : Nat) (f : OpCtx → Task → EM Unit)
    (hf : ∀ c t, KeepsM State.aplicS (f c t)) : (State.inputDo s n opc f).aplicS = s.aplicS := by
  unfold State.inputDo
  refine State.taskDo_aplicS _ _ _ (fun _ => ?_)
  (repeat' split)
  all_goals first | exact keepsM_pure _ _ | simp [*]

@[simp] theorem State.inputDo_aplicN (s : State) (n opc : Nat) (f : OpCtx → Task → EM Unit)
    (hf : ∀ c t, KeepsM State.aplicN (f c t)) : (State.inputDo s n opc f).aplicN = s.aplicN := by
  unfold State.inputDo
  refine State.taskDo_aplicN _ _ _ (fun _ => ?_)
  (repeat' split)
  all_goals first | exact keepsM_pure _ _ | simp [*]

@[simp] theorem State.inputDo_credits (s : State) (n opc : Nat) (f : OpCtx → Task → EM Unit)
    (hf : ∀ c t, KeepsM State.credits (f c t)) : (State.inputDo s n opc f).credits = s.credits := by
  unfold State.inputDo
  refine State.taskDo_credits _ _ _ (fun _ => ?_)
  (repeat' split)
  all_goals first | exact keepsM_pure _ _ | simp [*]

@[simp] theorem State.inputDo_pkts (s : State) (n opc : Nat) (f : OpCtx → Task → EM Unit)
    (hf : ∀ c t, KeepsM State.pkts (f c t)) : (State.inputDo s n opc f).pkts = s.pkts := by
  unfold State.inputDo
  refine State.taskDo_pkts _ _ _ (fun _ => ?_)
  (repeat' split)
  all_goals first | exact keepsM_pure _ _ | simp [*]

@[simp] theorem State.inputDo_resp (s : State) (n opc : Nat) (f : OpCtx → Task → EM Unit)
    (hf : ∀ c t, KeepsM State.resp (f c t)) : (State.inputDo s n opc f).resp = s.resp := by
  unfold State.inputDo
  refine State.taskDo_resp _ _ _ (fun _ => ?_)
  (repeat' split)
  all_goals first | exact keepsM_pure _ _ | simp [*]

@[simp] theorem State.inputDo_free (s : State) (n opc : Nat) (f : OpCtx → Task → EM Unit)
    (hf : ∀ c t, KeepsM State.free (f c t)) : (State.inputDo s n opc f).free = s.free := by
  unfold State.inputDo
  refine State.taskDo_free _ _ _ (fun _ => ?_)
  (repeat' split)
  all_goals first | exact keepsM_pure _ _ | simp [*]

@[simp] theorem fetchScan_beside (n : Nat) (c : OpCtx) (t : Task) (b : Batch) : KeepsM State.beside (fetchScan n c t b) := by
  unfold fetchScan; (repeat' (first | with_reducible exact keepsM_pure _ _ | with_reducible exact keepsM_throw _ _ | with_reducible exact keepsM_get _ | with_reducible refine keepsM_bind ?_ (fun _ => ?_) | with_reducible refine keepsM_mapM (fun _ => ?_) _ | with_reducible refine keepsM_forM (fun _ => ?_) _ | with_reducible refine keepsM_foldlM (fun _ _ => ?_) _ _ | with_reducible refine doSt_keeps _ (fun _ => ?_) | with_reducible refine askSt_keeps _ (fun _ => ?_) | (simp [kept @endFetch_fr, kept @startFetch_fr, kept @theTask_fr]; done) | (simp [*, kept @endFetch_fr, kept @startFetch_fr, kept @theTask_fr]; done) | split | dsimp only))

@[simp] theorem fetchScan_apart (n : Nat) (c : OpCtx) (t : Task) (b : Batch) : KeepsM State.apart (fetchScan n c t b) := by
  unfold fetchScan; (repeat' (first | with_reducible exact keepsM_pure _ _ | with_reducible exact keepsM_throw _ _ | with_reducible exact keepsM_get _ | with_reducible refine keepsM_bind ?_ (fun _ => ?_) | with_reducible refine keepsM_mapM (fun _ => ?_) _ | with_reducible refine keepsM_forM (fun _ => ?_) _ | with_reducible refine keepsM_foldlM (fun _ _ => ?_) _ _ | with_reducible refine doSt_keeps _ (fun _ => ?_) | with_reducible refine askSt_keeps _ (fun _ => ?_) | (simp [kept @endFetch_fr, kept @startFetch_fr, kept @theTask_fr]; done) | (simp [*, kept @endFetch_fr, kept @startFetch_fr, kept @theTask_fr]; done) | split | dsimp only))

theorem fetchScan_fr (n : Nat) (c : OpCtx) (t : Task) (b : Batch) : KeepsM State.wires (fetchScan n c t b) ∧ KeepsM State.wq (fetchScan n c t b) ∧ KeepsM State.pkg (fetchScan n c t b) ∧ KeepsM State.fwLog (fetchScan n c t b) := by
  refine ⟨?_, ?_, ?_, ?_⟩ <;> (unfold fetchScan; (repeat' (first | with_reducible exact keepsM_pure _ _ | with_reducible exact keepsM_throw _ _ | with_reducible exact keepsM_get _ | with_reducible refine keepsM_bind ?_ (fun _ => ?_) | with_reducible refine keepsM_mapM (fun _ => ?_) _ | with_reducible refine keepsM_forM (fun _ => ?_) _ | with_reducible refine keepsM_foldlM (fun _ _ => ?_) _ _ | with_reducible refine doSt_keeps _ (fun _ => ?_) | with_reducible refine askSt_keeps _ (fun _ => ?_) | (simp [kept @endFetch_fr, kept @startFetch_fr, kept @theTask_fr]; done) | (simp [*, kept @endFetch_fr, kept @startFetch_fr, kept @theTask_fr]; done) | split | dsimp only)))

theorem execScan_fr (n : Fin 36) (s : State) {u : State} (h : execScan n s = .next u) : u.pending = s.pending ∧ u.flash = s.flash ∧ u.coldOpt = s.coldOpt ∧ u.imsic = s.imsic ∧ u.dm = s.dm ∧ u.ctu = s.ctu ∧ u.links = s.links ∧ u.aplicS = s.aplicS ∧ u.aplicN = s.aplicN ∧ u.credits = s.credits ∧ u.pkts = s.pkts ∧ u.resp = s.resp ∧ u.fabric = s.fabric ∧ u.files = s.files := by
  unfold execScan at h
  (try dsimp only at h); (repeat' split at h) <;> ((first | (simp only [Host.Outcome.next.injEq] at h; rw [← h]) | (simp only [reduceCtorEq] at h; done) | (simp only [Option.some.injEq] at h; rw [← h])); simp (disch := (intros; (repeat' split) <;> first | exact keepsM_pure _ _ | simp [*, kept @fetchScan_fr, kept @startScan_fr])) [kept @fetchScan_fr, kept @startScan_fr])

@[simp] theorem scanRaw_beside (n : Nat) (c : OpCtx) (t : Task) : KeepsM State.beside (scanRaw n c t) := by
  unfold scanRaw; (repeat' (first | with_reducible exact keepsM_pure _ _ | with_reducible exact keepsM_throw _ _ | with_reducible exact keepsM_get _ | with_reducible refine keepsM_bind ?_ (fun _ => ?_) | with_reducible refine keepsM_mapM (fun _ => ?_) _ | with_reducible refine keepsM_forM (fun _ => ?_) _ | with_reducible refine keepsM_foldlM (fun _ _ => ?_) _ _ | with_reducible refine doSt_keeps _ (fun _ => ?_) | with_reducible refine askSt_keeps _ (fun _ => ?_) | (simp [kept @scanRawBlock_fr, kept @tableChunks_fr, kept @updPipe_fr, kept @updTask_fr]; done) | (simp [*, kept @scanRawBlock_fr, kept @tableChunks_fr, kept @updPipe_fr, kept @updTask_fr]; done) | split | dsimp only))

@[simp] theorem scanRaw_apart (n : Nat) (c : OpCtx) (t : Task) : KeepsM State.apart (scanRaw n c t) := by
  unfold scanRaw; (repeat' (first | with_reducible exact keepsM_pure _ _ | with_reducible exact keepsM_throw _ _ | with_reducible exact keepsM_get _ | with_reducible refine keepsM_bind ?_ (fun _ => ?_) | with_reducible refine keepsM_mapM (fun _ => ?_) _ | with_reducible refine keepsM_forM (fun _ => ?_) _ | with_reducible refine keepsM_foldlM (fun _ _ => ?_) _ _ | with_reducible refine doSt_keeps _ (fun _ => ?_) | with_reducible refine askSt_keeps _ (fun _ => ?_) | (simp [kept @scanRawBlock_fr, kept @tableChunks_fr, kept @updPipe_fr, kept @updTask_fr]; done) | (simp [*, kept @scanRawBlock_fr, kept @tableChunks_fr, kept @updPipe_fr, kept @updTask_fr]; done) | split | dsimp only))

theorem execScanraw_fr (n : Fin 36) (s : State) {u : State} (h : execScanraw n s = .next u) : u.pending = s.pending ∧ u.flash = s.flash ∧ u.coldOpt = s.coldOpt ∧ u.imsic = s.imsic ∧ u.dm = s.dm ∧ u.ctu = s.ctu ∧ u.links = s.links ∧ u.aplicS = s.aplicS ∧ u.aplicN = s.aplicN ∧ u.credits = s.credits ∧ u.pkts = s.pkts ∧ u.resp = s.resp ∧ u.fabric = s.fabric ∧ u.files = s.files := by
  unfold execScanraw at h
  (first | (simp only [Host.Outcome.next.injEq] at h; rw [← h]) | (simp only [reduceCtorEq] at h; done) | (simp only [Option.some.injEq] at h; rw [← h])); simp

theorem execRecv_fr (n : Fin 36) (s : State) {u : State} (h : execRecv n s = .next u) : u.pending = s.pending ∧ u.flash = s.flash ∧ u.coldOpt = s.coldOpt ∧ u.imsic = s.imsic ∧ u.dm = s.dm ∧ u.ctu = s.ctu ∧ u.links = s.links ∧ u.aplicS = s.aplicS ∧ u.aplicN = s.aplicN ∧ u.credits = s.credits ∧ u.pkts = s.pkts ∧ u.resp = s.resp ∧ u.fabric = s.fabric ∧ u.files = s.files := by
  unfold execRecv at h
  (try dsimp only at h); (repeat' split at h) <;> ((first | (simp only [Host.Outcome.next.injEq] at h; rw [← h]) | (simp only [reduceCtorEq] at h; done) | (simp only [Option.some.injEq] at h; rw [← h])); simp (disch := (intros; (repeat' split) <;> first | exact keepsM_pure _ _ | simp [*])))

@[simp] theorem State.inlineIn_pending (s : State) (n : Nat) (c : OpCtx) (t : Task) : (s.inlineIn n c t).pending = s.pending := by
  unfold State.inlineIn
  split
  · dsimp only
    split
    · rfl
    · rename_i k _ _
      have hr : ∀ off cnt r, (inlineRead c.d c.r off cnt).run s = r → r.2.pending = s.pending := fun off cnt r e =>
        KeepsM.snd (g := State.pending) (x := inlineRead c.d c.r off cnt) (by simp [kept @State.fixRun_fr, kept @State.tfault_fr, kept @State.updDesc_fr, kept @inlineRead_fr, kept @inlineRows_fr, kept @pack_fr, kept @release_fr]) e
      split <;> rename_i e <;> have h := hr _ _ _ e <;> dsimp only at h
      · rw [← h]
        refine State.taskDo_pending _ _ _ (fun t => ?_)
        refine keepsM_bind (by simp [kept @State.fixRun_fr, kept @State.tfault_fr, kept @State.updDesc_fr, kept @inlineRead_fr, kept @inlineRows_fr, kept @pack_fr, kept @release_fr]) (fun _ => keepsM_bind (by simp [kept @State.fixRun_fr, kept @State.tfault_fr, kept @State.updDesc_fr, kept @inlineRead_fr, kept @inlineRows_fr, kept @pack_fr, kept @release_fr]) (fun _ => by simp [kept @State.fixRun_fr, kept @State.tfault_fr, kept @State.updDesc_fr, kept @inlineRead_fr, kept @inlineRows_fr, kept @pack_fr, kept @release_fr]))
      · simp [kept @State.fixRun_fr, kept @State.tfault_fr, kept @State.updDesc_fr, kept @inlineRead_fr, kept @inlineRows_fr, kept @pack_fr, kept @release_fr]
      · simp [h, kept @State.fixRun_fr, kept @State.tfault_fr, kept @State.updDesc_fr, kept @inlineRead_fr, kept @inlineRows_fr, kept @pack_fr, kept @release_fr]
  · rfl

@[simp] theorem State.inlineIn_files (s : State) (n : Nat) (c : OpCtx) (t : Task) : (s.inlineIn n c t).files = s.files := by
  unfold State.inlineIn
  split
  · dsimp only
    split
    · rfl
    · rename_i k _ _
      have hr : ∀ off cnt r, (inlineRead c.d c.r off cnt).run s = r → r.2.files = s.files := fun off cnt r e =>
        KeepsM.snd (g := State.files) (x := inlineRead c.d c.r off cnt) (by simp [kept @State.fixRun_fr, kept @State.tfault_fr, kept @State.updDesc_fr, kept @inlineRead_fr, kept @inlineRows_fr, kept @pack_fr, kept @release_fr]) e
      split <;> rename_i e <;> have h := hr _ _ _ e <;> dsimp only at h
      · rw [← h]
        refine State.taskDo_files _ _ _ (fun t => ?_)
        refine keepsM_bind (by simp [kept @State.fixRun_fr, kept @State.tfault_fr, kept @State.updDesc_fr, kept @inlineRead_fr, kept @inlineRows_fr, kept @pack_fr, kept @release_fr]) (fun _ => keepsM_bind (by simp [kept @State.fixRun_fr, kept @State.tfault_fr, kept @State.updDesc_fr, kept @inlineRead_fr, kept @inlineRows_fr, kept @pack_fr, kept @release_fr]) (fun _ => by simp [kept @State.fixRun_fr, kept @State.tfault_fr, kept @State.updDesc_fr, kept @inlineRead_fr, kept @inlineRows_fr, kept @pack_fr, kept @release_fr]))
      · simp [kept @State.fixRun_fr, kept @State.tfault_fr, kept @State.updDesc_fr, kept @inlineRead_fr, kept @inlineRows_fr, kept @pack_fr, kept @release_fr]
      · simp [h, kept @State.fixRun_fr, kept @State.tfault_fr, kept @State.updDesc_fr, kept @inlineRead_fr, kept @inlineRows_fr, kept @pack_fr, kept @release_fr]
  · rfl

@[simp] theorem State.inlineIn_fabric (s : State) (n : Nat) (c : OpCtx) (t : Task) : (s.inlineIn n c t).fabric = s.fabric := by
  unfold State.inlineIn
  split
  · dsimp only
    split
    · rfl
    · rename_i k _ _
      have hr : ∀ off cnt r, (inlineRead c.d c.r off cnt).run s = r → r.2.fabric = s.fabric := fun off cnt r e =>
        KeepsM.snd (g := State.fabric) (x := inlineRead c.d c.r off cnt) (by simp [kept @State.fixRun_fr, kept @State.tfault_fr, kept @State.updDesc_fr, kept @inlineRead_fr, kept @inlineRows_fr, kept @pack_fr, kept @release_fr]) e
      split <;> rename_i e <;> have h := hr _ _ _ e <;> dsimp only at h
      · rw [← h]
        refine State.taskDo_fabric _ _ _ (fun t => ?_)
        refine keepsM_bind (by simp [kept @State.fixRun_fr, kept @State.tfault_fr, kept @State.updDesc_fr, kept @inlineRead_fr, kept @inlineRows_fr, kept @pack_fr, kept @release_fr]) (fun _ => keepsM_bind (by simp [kept @State.fixRun_fr, kept @State.tfault_fr, kept @State.updDesc_fr, kept @inlineRead_fr, kept @inlineRows_fr, kept @pack_fr, kept @release_fr]) (fun _ => by simp [kept @State.fixRun_fr, kept @State.tfault_fr, kept @State.updDesc_fr, kept @inlineRead_fr, kept @inlineRows_fr, kept @pack_fr, kept @release_fr]))
      · simp [kept @State.fixRun_fr, kept @State.tfault_fr, kept @State.updDesc_fr, kept @inlineRead_fr, kept @inlineRows_fr, kept @pack_fr, kept @release_fr]
      · simp [h, kept @State.fixRun_fr, kept @State.tfault_fr, kept @State.updDesc_fr, kept @inlineRead_fr, kept @inlineRows_fr, kept @pack_fr, kept @release_fr]
  · rfl

@[simp] theorem State.inlineIn_flash (s : State) (n : Nat) (c : OpCtx) (t : Task) : (s.inlineIn n c t).flash = s.flash := by
  unfold State.inlineIn
  split
  · dsimp only
    split
    · rfl
    · rename_i k _ _
      have hr : ∀ off cnt r, (inlineRead c.d c.r off cnt).run s = r → r.2.flash = s.flash := fun off cnt r e =>
        KeepsM.snd (g := State.flash) (x := inlineRead c.d c.r off cnt) (by simp [kept @State.fixRun_fr, kept @State.tfault_fr, kept @State.updDesc_fr, kept @inlineRead_fr, kept @inlineRows_fr, kept @pack_fr, kept @release_fr]) e
      split <;> rename_i e <;> have h := hr _ _ _ e <;> dsimp only at h
      · rw [← h]
        refine State.taskDo_flash _ _ _ (fun t => ?_)
        refine keepsM_bind (by simp [kept @State.fixRun_fr, kept @State.tfault_fr, kept @State.updDesc_fr, kept @inlineRead_fr, kept @inlineRows_fr, kept @pack_fr, kept @release_fr]) (fun _ => keepsM_bind (by simp [kept @State.fixRun_fr, kept @State.tfault_fr, kept @State.updDesc_fr, kept @inlineRead_fr, kept @inlineRows_fr, kept @pack_fr, kept @release_fr]) (fun _ => by simp [kept @State.fixRun_fr, kept @State.tfault_fr, kept @State.updDesc_fr, kept @inlineRead_fr, kept @inlineRows_fr, kept @pack_fr, kept @release_fr]))
      · simp [kept @State.fixRun_fr, kept @State.tfault_fr, kept @State.updDesc_fr, kept @inlineRead_fr, kept @inlineRows_fr, kept @pack_fr, kept @release_fr]
      · simp [h, kept @State.fixRun_fr, kept @State.tfault_fr, kept @State.updDesc_fr, kept @inlineRead_fr, kept @inlineRows_fr, kept @pack_fr, kept @release_fr]
  · rfl

@[simp] theorem State.inlineIn_coldOpt (s : State) (n : Nat) (c : OpCtx) (t : Task) : (s.inlineIn n c t).coldOpt = s.coldOpt := by
  unfold State.inlineIn
  split
  · dsimp only
    split
    · rfl
    · rename_i k _ _
      have hr : ∀ off cnt r, (inlineRead c.d c.r off cnt).run s = r → r.2.coldOpt = s.coldOpt := fun off cnt r e =>
        KeepsM.snd (g := State.coldOpt) (x := inlineRead c.d c.r off cnt) (by simp [kept @State.fixRun_fr, kept @State.tfault_fr, kept @State.updDesc_fr, kept @inlineRead_fr, kept @inlineRows_fr, kept @pack_fr, kept @release_fr]) e
      split <;> rename_i e <;> have h := hr _ _ _ e <;> dsimp only at h
      · rw [← h]
        refine State.taskDo_coldOpt _ _ _ (fun t => ?_)
        refine keepsM_bind (by simp [kept @State.fixRun_fr, kept @State.tfault_fr, kept @State.updDesc_fr, kept @inlineRead_fr, kept @inlineRows_fr, kept @pack_fr, kept @release_fr]) (fun _ => keepsM_bind (by simp [kept @State.fixRun_fr, kept @State.tfault_fr, kept @State.updDesc_fr, kept @inlineRead_fr, kept @inlineRows_fr, kept @pack_fr, kept @release_fr]) (fun _ => by simp [kept @State.fixRun_fr, kept @State.tfault_fr, kept @State.updDesc_fr, kept @inlineRead_fr, kept @inlineRows_fr, kept @pack_fr, kept @release_fr]))
      · simp [kept @State.fixRun_fr, kept @State.tfault_fr, kept @State.updDesc_fr, kept @inlineRead_fr, kept @inlineRows_fr, kept @pack_fr, kept @release_fr]
      · simp [h, kept @State.fixRun_fr, kept @State.tfault_fr, kept @State.updDesc_fr, kept @inlineRead_fr, kept @inlineRows_fr, kept @pack_fr, kept @release_fr]
  · rfl

@[simp] theorem State.inlineIn_imsic (s : State) (n : Nat) (c : OpCtx) (t : Task) : (s.inlineIn n c t).imsic = s.imsic := by
  unfold State.inlineIn
  split
  · dsimp only
    split
    · rfl
    · rename_i k _ _
      have hr : ∀ off cnt r, (inlineRead c.d c.r off cnt).run s = r → r.2.imsic = s.imsic := fun off cnt r e =>
        KeepsM.snd (g := State.imsic) (x := inlineRead c.d c.r off cnt) (by simp [kept @State.fixRun_fr, kept @State.tfault_fr, kept @State.updDesc_fr, kept @inlineRead_fr, kept @inlineRows_fr, kept @pack_fr, kept @release_fr]) e
      split <;> rename_i e <;> have h := hr _ _ _ e <;> dsimp only at h
      · rw [← h]
        refine State.taskDo_imsic _ _ _ (fun t => ?_)
        refine keepsM_bind (by simp [kept @State.fixRun_fr, kept @State.tfault_fr, kept @State.updDesc_fr, kept @inlineRead_fr, kept @inlineRows_fr, kept @pack_fr, kept @release_fr]) (fun _ => keepsM_bind (by simp [kept @State.fixRun_fr, kept @State.tfault_fr, kept @State.updDesc_fr, kept @inlineRead_fr, kept @inlineRows_fr, kept @pack_fr, kept @release_fr]) (fun _ => by simp [kept @State.fixRun_fr, kept @State.tfault_fr, kept @State.updDesc_fr, kept @inlineRead_fr, kept @inlineRows_fr, kept @pack_fr, kept @release_fr]))
      · simp [kept @State.fixRun_fr, kept @State.tfault_fr, kept @State.updDesc_fr, kept @inlineRead_fr, kept @inlineRows_fr, kept @pack_fr, kept @release_fr]
      · simp [h, kept @State.fixRun_fr, kept @State.tfault_fr, kept @State.updDesc_fr, kept @inlineRead_fr, kept @inlineRows_fr, kept @pack_fr, kept @release_fr]
  · rfl

@[simp] theorem State.inlineIn_dm (s : State) (n : Nat) (c : OpCtx) (t : Task) : (s.inlineIn n c t).dm = s.dm := by
  unfold State.inlineIn
  split
  · dsimp only
    split
    · rfl
    · rename_i k _ _
      have hr : ∀ off cnt r, (inlineRead c.d c.r off cnt).run s = r → r.2.dm = s.dm := fun off cnt r e =>
        KeepsM.snd (g := State.dm) (x := inlineRead c.d c.r off cnt) (by simp [kept @State.fixRun_fr, kept @State.tfault_fr, kept @State.updDesc_fr, kept @inlineRead_fr, kept @inlineRows_fr, kept @pack_fr, kept @release_fr]) e
      split <;> rename_i e <;> have h := hr _ _ _ e <;> dsimp only at h
      · rw [← h]
        refine State.taskDo_dm _ _ _ (fun t => ?_)
        refine keepsM_bind (by simp [kept @State.fixRun_fr, kept @State.tfault_fr, kept @State.updDesc_fr, kept @inlineRead_fr, kept @inlineRows_fr, kept @pack_fr, kept @release_fr]) (fun _ => keepsM_bind (by simp [kept @State.fixRun_fr, kept @State.tfault_fr, kept @State.updDesc_fr, kept @inlineRead_fr, kept @inlineRows_fr, kept @pack_fr, kept @release_fr]) (fun _ => by simp [kept @State.fixRun_fr, kept @State.tfault_fr, kept @State.updDesc_fr, kept @inlineRead_fr, kept @inlineRows_fr, kept @pack_fr, kept @release_fr]))
      · simp [kept @State.fixRun_fr, kept @State.tfault_fr, kept @State.updDesc_fr, kept @inlineRead_fr, kept @inlineRows_fr, kept @pack_fr, kept @release_fr]
      · simp [h, kept @State.fixRun_fr, kept @State.tfault_fr, kept @State.updDesc_fr, kept @inlineRead_fr, kept @inlineRows_fr, kept @pack_fr, kept @release_fr]
  · rfl

@[simp] theorem State.inlineIn_ctu (s : State) (n : Nat) (c : OpCtx) (t : Task) : (s.inlineIn n c t).ctu = s.ctu := by
  unfold State.inlineIn
  split
  · dsimp only
    split
    · rfl
    · rename_i k _ _
      have hr : ∀ off cnt r, (inlineRead c.d c.r off cnt).run s = r → r.2.ctu = s.ctu := fun off cnt r e =>
        KeepsM.snd (g := State.ctu) (x := inlineRead c.d c.r off cnt) (by simp [kept @State.fixRun_fr, kept @State.tfault_fr, kept @State.updDesc_fr, kept @inlineRead_fr, kept @inlineRows_fr, kept @pack_fr, kept @release_fr]) e
      split <;> rename_i e <;> have h := hr _ _ _ e <;> dsimp only at h
      · rw [← h]
        refine State.taskDo_ctu _ _ _ (fun t => ?_)
        refine keepsM_bind (by simp [kept @State.fixRun_fr, kept @State.tfault_fr, kept @State.updDesc_fr, kept @inlineRead_fr, kept @inlineRows_fr, kept @pack_fr, kept @release_fr]) (fun _ => keepsM_bind (by simp [kept @State.fixRun_fr, kept @State.tfault_fr, kept @State.updDesc_fr, kept @inlineRead_fr, kept @inlineRows_fr, kept @pack_fr, kept @release_fr]) (fun _ => by simp [kept @State.fixRun_fr, kept @State.tfault_fr, kept @State.updDesc_fr, kept @inlineRead_fr, kept @inlineRows_fr, kept @pack_fr, kept @release_fr]))
      · simp [kept @State.fixRun_fr, kept @State.tfault_fr, kept @State.updDesc_fr, kept @inlineRead_fr, kept @inlineRows_fr, kept @pack_fr, kept @release_fr]
      · simp [h, kept @State.fixRun_fr, kept @State.tfault_fr, kept @State.updDesc_fr, kept @inlineRead_fr, kept @inlineRows_fr, kept @pack_fr, kept @release_fr]
  · rfl

@[simp] theorem State.inlineIn_links (s : State) (n : Nat) (c : OpCtx) (t : Task) : (s.inlineIn n c t).links = s.links := by
  unfold State.inlineIn
  split
  · dsimp only
    split
    · rfl
    · rename_i k _ _
      have hr : ∀ off cnt r, (inlineRead c.d c.r off cnt).run s = r → r.2.links = s.links := fun off cnt r e =>
        KeepsM.snd (g := State.links) (x := inlineRead c.d c.r off cnt) (by simp [kept @State.fixRun_fr, kept @State.tfault_fr, kept @State.updDesc_fr, kept @inlineRead_fr, kept @inlineRows_fr, kept @pack_fr, kept @release_fr]) e
      split <;> rename_i e <;> have h := hr _ _ _ e <;> dsimp only at h
      · rw [← h]
        refine State.taskDo_links _ _ _ (fun t => ?_)
        refine keepsM_bind (by simp [kept @State.fixRun_fr, kept @State.tfault_fr, kept @State.updDesc_fr, kept @inlineRead_fr, kept @inlineRows_fr, kept @pack_fr, kept @release_fr]) (fun _ => keepsM_bind (by simp [kept @State.fixRun_fr, kept @State.tfault_fr, kept @State.updDesc_fr, kept @inlineRead_fr, kept @inlineRows_fr, kept @pack_fr, kept @release_fr]) (fun _ => by simp [kept @State.fixRun_fr, kept @State.tfault_fr, kept @State.updDesc_fr, kept @inlineRead_fr, kept @inlineRows_fr, kept @pack_fr, kept @release_fr]))
      · simp [kept @State.fixRun_fr, kept @State.tfault_fr, kept @State.updDesc_fr, kept @inlineRead_fr, kept @inlineRows_fr, kept @pack_fr, kept @release_fr]
      · simp [h, kept @State.fixRun_fr, kept @State.tfault_fr, kept @State.updDesc_fr, kept @inlineRead_fr, kept @inlineRows_fr, kept @pack_fr, kept @release_fr]
  · rfl

@[simp] theorem State.inlineIn_aplicS (s : State) (n : Nat) (c : OpCtx) (t : Task) : (s.inlineIn n c t).aplicS = s.aplicS := by
  unfold State.inlineIn
  split
  · dsimp only
    split
    · rfl
    · rename_i k _ _
      have hr : ∀ off cnt r, (inlineRead c.d c.r off cnt).run s = r → r.2.aplicS = s.aplicS := fun off cnt r e =>
        KeepsM.snd (g := State.aplicS) (x := inlineRead c.d c.r off cnt) (by simp [kept @State.fixRun_fr, kept @State.tfault_fr, kept @State.updDesc_fr, kept @inlineRead_fr, kept @inlineRows_fr, kept @pack_fr, kept @release_fr]) e
      split <;> rename_i e <;> have h := hr _ _ _ e <;> dsimp only at h
      · rw [← h]
        refine State.taskDo_aplicS _ _ _ (fun t => ?_)
        refine keepsM_bind (by simp [kept @State.fixRun_fr, kept @State.tfault_fr, kept @State.updDesc_fr, kept @inlineRead_fr, kept @inlineRows_fr, kept @pack_fr, kept @release_fr]) (fun _ => keepsM_bind (by simp [kept @State.fixRun_fr, kept @State.tfault_fr, kept @State.updDesc_fr, kept @inlineRead_fr, kept @inlineRows_fr, kept @pack_fr, kept @release_fr]) (fun _ => by simp [kept @State.fixRun_fr, kept @State.tfault_fr, kept @State.updDesc_fr, kept @inlineRead_fr, kept @inlineRows_fr, kept @pack_fr, kept @release_fr]))
      · simp [kept @State.fixRun_fr, kept @State.tfault_fr, kept @State.updDesc_fr, kept @inlineRead_fr, kept @inlineRows_fr, kept @pack_fr, kept @release_fr]
      · simp [h, kept @State.fixRun_fr, kept @State.tfault_fr, kept @State.updDesc_fr, kept @inlineRead_fr, kept @inlineRows_fr, kept @pack_fr, kept @release_fr]
  · rfl

@[simp] theorem State.inlineIn_aplicN (s : State) (n : Nat) (c : OpCtx) (t : Task) : (s.inlineIn n c t).aplicN = s.aplicN := by
  unfold State.inlineIn
  split
  · dsimp only
    split
    · rfl
    · rename_i k _ _
      have hr : ∀ off cnt r, (inlineRead c.d c.r off cnt).run s = r → r.2.aplicN = s.aplicN := fun off cnt r e =>
        KeepsM.snd (g := State.aplicN) (x := inlineRead c.d c.r off cnt) (by simp [kept @State.fixRun_fr, kept @State.tfault_fr, kept @State.updDesc_fr, kept @inlineRead_fr, kept @inlineRows_fr, kept @pack_fr, kept @release_fr]) e
      split <;> rename_i e <;> have h := hr _ _ _ e <;> dsimp only at h
      · rw [← h]
        refine State.taskDo_aplicN _ _ _ (fun t => ?_)
        refine keepsM_bind (by simp [kept @State.fixRun_fr, kept @State.tfault_fr, kept @State.updDesc_fr, kept @inlineRead_fr, kept @inlineRows_fr, kept @pack_fr, kept @release_fr]) (fun _ => keepsM_bind (by simp [kept @State.fixRun_fr, kept @State.tfault_fr, kept @State.updDesc_fr, kept @inlineRead_fr, kept @inlineRows_fr, kept @pack_fr, kept @release_fr]) (fun _ => by simp [kept @State.fixRun_fr, kept @State.tfault_fr, kept @State.updDesc_fr, kept @inlineRead_fr, kept @inlineRows_fr, kept @pack_fr, kept @release_fr]))
      · simp [kept @State.fixRun_fr, kept @State.tfault_fr, kept @State.updDesc_fr, kept @inlineRead_fr, kept @inlineRows_fr, kept @pack_fr, kept @release_fr]
      · simp [h, kept @State.fixRun_fr, kept @State.tfault_fr, kept @State.updDesc_fr, kept @inlineRead_fr, kept @inlineRows_fr, kept @pack_fr, kept @release_fr]
  · rfl

@[simp] theorem State.inlineIn_credits (s : State) (n : Nat) (c : OpCtx) (t : Task) : (s.inlineIn n c t).credits = s.credits := by
  unfold State.inlineIn
  split
  · dsimp only
    split
    · rfl
    · rename_i k _ _
      have hr : ∀ off cnt r, (inlineRead c.d c.r off cnt).run s = r → r.2.credits = s.credits := fun off cnt r e =>
        KeepsM.snd (g := State.credits) (x := inlineRead c.d c.r off cnt) (by simp [kept @State.fixRun_fr, kept @State.tfault_fr, kept @State.updDesc_fr, kept @inlineRead_fr, kept @inlineRows_fr, kept @pack_fr, kept @release_fr]) e
      split <;> rename_i e <;> have h := hr _ _ _ e <;> dsimp only at h
      · rw [← h]
        refine State.taskDo_credits _ _ _ (fun t => ?_)
        refine keepsM_bind (by simp [kept @State.fixRun_fr, kept @State.tfault_fr, kept @State.updDesc_fr, kept @inlineRead_fr, kept @inlineRows_fr, kept @pack_fr, kept @release_fr]) (fun _ => keepsM_bind (by simp [kept @State.fixRun_fr, kept @State.tfault_fr, kept @State.updDesc_fr, kept @inlineRead_fr, kept @inlineRows_fr, kept @pack_fr, kept @release_fr]) (fun _ => by simp [kept @State.fixRun_fr, kept @State.tfault_fr, kept @State.updDesc_fr, kept @inlineRead_fr, kept @inlineRows_fr, kept @pack_fr, kept @release_fr]))
      · simp [kept @State.fixRun_fr, kept @State.tfault_fr, kept @State.updDesc_fr, kept @inlineRead_fr, kept @inlineRows_fr, kept @pack_fr, kept @release_fr]
      · simp [h, kept @State.fixRun_fr, kept @State.tfault_fr, kept @State.updDesc_fr, kept @inlineRead_fr, kept @inlineRows_fr, kept @pack_fr, kept @release_fr]
  · rfl

@[simp] theorem State.inlineIn_pkts (s : State) (n : Nat) (c : OpCtx) (t : Task) : (s.inlineIn n c t).pkts = s.pkts := by
  unfold State.inlineIn
  split
  · dsimp only
    split
    · rfl
    · rename_i k _ _
      have hr : ∀ off cnt r, (inlineRead c.d c.r off cnt).run s = r → r.2.pkts = s.pkts := fun off cnt r e =>
        KeepsM.snd (g := State.pkts) (x := inlineRead c.d c.r off cnt) (by simp [kept @State.fixRun_fr, kept @State.tfault_fr, kept @State.updDesc_fr, kept @inlineRead_fr, kept @inlineRows_fr, kept @pack_fr, kept @release_fr]) e
      split <;> rename_i e <;> have h := hr _ _ _ e <;> dsimp only at h
      · rw [← h]
        refine State.taskDo_pkts _ _ _ (fun t => ?_)
        refine keepsM_bind (by simp [kept @State.fixRun_fr, kept @State.tfault_fr, kept @State.updDesc_fr, kept @inlineRead_fr, kept @inlineRows_fr, kept @pack_fr, kept @release_fr]) (fun _ => keepsM_bind (by simp [kept @State.fixRun_fr, kept @State.tfault_fr, kept @State.updDesc_fr, kept @inlineRead_fr, kept @inlineRows_fr, kept @pack_fr, kept @release_fr]) (fun _ => by simp [kept @State.fixRun_fr, kept @State.tfault_fr, kept @State.updDesc_fr, kept @inlineRead_fr, kept @inlineRows_fr, kept @pack_fr, kept @release_fr]))
      · simp [kept @State.fixRun_fr, kept @State.tfault_fr, kept @State.updDesc_fr, kept @inlineRead_fr, kept @inlineRows_fr, kept @pack_fr, kept @release_fr]
      · simp [h, kept @State.fixRun_fr, kept @State.tfault_fr, kept @State.updDesc_fr, kept @inlineRead_fr, kept @inlineRows_fr, kept @pack_fr, kept @release_fr]
  · rfl

@[simp] theorem State.inlineIn_resp (s : State) (n : Nat) (c : OpCtx) (t : Task) : (s.inlineIn n c t).resp = s.resp := by
  unfold State.inlineIn
  split
  · dsimp only
    split
    · rfl
    · rename_i k _ _
      have hr : ∀ off cnt r, (inlineRead c.d c.r off cnt).run s = r → r.2.resp = s.resp := fun off cnt r e =>
        KeepsM.snd (g := State.resp) (x := inlineRead c.d c.r off cnt) (by simp [kept @State.fixRun_fr, kept @State.tfault_fr, kept @State.updDesc_fr, kept @inlineRead_fr, kept @inlineRows_fr, kept @pack_fr, kept @release_fr]) e
      split <;> rename_i e <;> have h := hr _ _ _ e <;> dsimp only at h
      · rw [← h]
        refine State.taskDo_resp _ _ _ (fun t => ?_)
        refine keepsM_bind (by simp [kept @State.fixRun_fr, kept @State.tfault_fr, kept @State.updDesc_fr, kept @inlineRead_fr, kept @inlineRows_fr, kept @pack_fr, kept @release_fr]) (fun _ => keepsM_bind (by simp [kept @State.fixRun_fr, kept @State.tfault_fr, kept @State.updDesc_fr, kept @inlineRead_fr, kept @inlineRows_fr, kept @pack_fr, kept @release_fr]) (fun _ => by simp [kept @State.fixRun_fr, kept @State.tfault_fr, kept @State.updDesc_fr, kept @inlineRead_fr, kept @inlineRows_fr, kept @pack_fr, kept @release_fr]))
      · simp [kept @State.fixRun_fr, kept @State.tfault_fr, kept @State.updDesc_fr, kept @inlineRead_fr, kept @inlineRows_fr, kept @pack_fr, kept @release_fr]
      · simp [h, kept @State.fixRun_fr, kept @State.tfault_fr, kept @State.updDesc_fr, kept @inlineRead_fr, kept @inlineRows_fr, kept @pack_fr, kept @release_fr]
  · rfl

theorem execInlineIn_fr (n : Fin 36) (s : State) {u : State} (h : execInlineIn n s = .next u) : u.pending = s.pending ∧ u.flash = s.flash ∧ u.coldOpt = s.coldOpt ∧ u.imsic = s.imsic ∧ u.dm = s.dm ∧ u.ctu = s.ctu ∧ u.links = s.links ∧ u.aplicS = s.aplicS ∧ u.aplicN = s.aplicN ∧ u.credits = s.credits ∧ u.pkts = s.pkts ∧ u.resp = s.resp ∧ u.fabric = s.fabric ∧ u.files = s.files := by
  unfold execInlineIn at h
  (try dsimp only at h); (repeat' split at h) <;> (first | (simp only [Host.Outcome.next.injEq] at h; rw [← h]) | (simp only [reduceCtorEq] at h; done) | (simp only [Option.some.injEq] at h; rw [← h])) <;> simp

theorem execFilter_fr (n : Fin 36) (s : State) {u : State} (h : execFilter n s = .next u) : u.pending = s.pending ∧ u.flash = s.flash ∧ u.coldOpt = s.coldOpt ∧ u.imsic = s.imsic ∧ u.dm = s.dm ∧ u.ctu = s.ctu ∧ u.links = s.links ∧ u.aplicS = s.aplicS ∧ u.aplicN = s.aplicN ∧ u.credits = s.credits ∧ u.pkts = s.pkts ∧ u.resp = s.resp ∧ u.fabric = s.fabric ∧ u.files = s.files := by
  unfold execFilter at h
  (first | (simp only [Host.Outcome.next.injEq] at h; rw [← h]) | (simp only [reduceCtorEq] at h; done) | (simp only [Option.some.injEq] at h; rw [← h])); simp

theorem execProject_fr (n : Fin 36) (s : State) {u : State} (h : execProject n s = .next u) : u.pending = s.pending ∧ u.flash = s.flash ∧ u.coldOpt = s.coldOpt ∧ u.imsic = s.imsic ∧ u.dm = s.dm ∧ u.ctu = s.ctu ∧ u.links = s.links ∧ u.aplicS = s.aplicS ∧ u.aplicN = s.aplicN ∧ u.credits = s.credits ∧ u.pkts = s.pkts ∧ u.resp = s.resp ∧ u.fabric = s.fabric ∧ u.files = s.files := by
  unfold execProject at h
  (first | (simp only [Host.Outcome.next.injEq] at h; rw [← h]) | (simp only [reduceCtorEq] at h; done) | (simp only [Option.some.injEq] at h; rw [← h])); simp

theorem execMatch_fr (n : Fin 36) (s : State) {u : State} (h : execMatch n s = .next u) : u.pending = s.pending ∧ u.flash = s.flash ∧ u.coldOpt = s.coldOpt ∧ u.imsic = s.imsic ∧ u.dm = s.dm ∧ u.ctu = s.ctu ∧ u.links = s.links ∧ u.aplicS = s.aplicS ∧ u.aplicN = s.aplicN ∧ u.credits = s.credits ∧ u.pkts = s.pkts ∧ u.resp = s.resp ∧ u.fabric = s.fabric ∧ u.files = s.files := by
  unfold execMatch at h
  (first | (simp only [Host.Outcome.next.injEq] at h; rw [← h]) | (simp only [reduceCtorEq] at h; done) | (simp only [Option.some.injEq] at h; rw [← h])); simp [kept @opMatch_fr]

theorem execHash_fr (n : Fin 36) (s : State) {u : State} (h : execHash n s = .next u) : u.pending = s.pending ∧ u.flash = s.flash ∧ u.coldOpt = s.coldOpt ∧ u.imsic = s.imsic ∧ u.dm = s.dm ∧ u.ctu = s.ctu ∧ u.links = s.links ∧ u.aplicS = s.aplicS ∧ u.aplicN = s.aplicN ∧ u.credits = s.credits ∧ u.pkts = s.pkts ∧ u.resp = s.resp ∧ u.fabric = s.fabric ∧ u.files = s.files := by
  unfold execHash at h
  (first | (simp only [Host.Outcome.next.injEq] at h; rw [← h]) | (simp only [reduceCtorEq] at h; done) | (simp only [Option.some.injEq] at h; rw [← h])); simp

theorem execBuild_fr (n : Fin 36) (s : State) {u : State} (h : execBuild n s = .next u) : u.pending = s.pending ∧ u.flash = s.flash ∧ u.coldOpt = s.coldOpt ∧ u.imsic = s.imsic ∧ u.dm = s.dm ∧ u.ctu = s.ctu ∧ u.links = s.links ∧ u.aplicS = s.aplicS ∧ u.aplicN = s.aplicN ∧ u.credits = s.credits ∧ u.pkts = s.pkts ∧ u.resp = s.resp ∧ u.fabric = s.fabric ∧ u.files = s.files := by
  unfold execBuild at h
  (first | (simp only [Host.Outcome.next.injEq] at h; rw [← h]) | (simp only [reduceCtorEq] at h; done) | (simp only [Option.some.injEq] at h; rw [← h])); simp [kept @opBuild_fr]

theorem execProbe_fr (n : Fin 36) (s : State) {u : State} (h : execProbe n s = .next u) : u.pending = s.pending ∧ u.flash = s.flash ∧ u.coldOpt = s.coldOpt ∧ u.imsic = s.imsic ∧ u.dm = s.dm ∧ u.ctu = s.ctu ∧ u.links = s.links ∧ u.aplicS = s.aplicS ∧ u.aplicN = s.aplicN ∧ u.credits = s.credits ∧ u.pkts = s.pkts ∧ u.resp = s.resp ∧ u.fabric = s.fabric ∧ u.files = s.files := by
  unfold execProbe at h
  (try dsimp only at h); (repeat' split at h) <;> ((first | (simp only [Host.Outcome.next.injEq] at h; rw [← h]) | (simp only [reduceCtorEq] at h; done) | (simp only [Option.some.injEq] at h; rw [← h])); simp (disch := (intros; (repeat' split) <;> first | exact keepsM_pure _ _ | simp [*, kept @opProbe_fr, kept @probeOn_fr])) [kept @opProbe_fr, kept @probeOn_fr])

theorem execAggLocal_fr (n : Fin 36) (s : State) {u : State} (h : execAggLocal n s = .next u) : u.pending = s.pending ∧ u.flash = s.flash ∧ u.coldOpt = s.coldOpt ∧ u.imsic = s.imsic ∧ u.dm = s.dm ∧ u.ctu = s.ctu ∧ u.links = s.links ∧ u.aplicS = s.aplicS ∧ u.aplicN = s.aplicN ∧ u.credits = s.credits ∧ u.pkts = s.pkts ∧ u.resp = s.resp ∧ u.fabric = s.fabric ∧ u.files = s.files := by
  unfold execAggLocal at h
  (first | (simp only [Host.Outcome.next.injEq] at h; rw [← h]) | (simp only [reduceCtorEq] at h; done) | (simp only [Option.some.injEq] at h; rw [← h])); simp [kept @opAggLocal_fr]

theorem execAggHome_fr (n : Fin 36) (s : State) {u : State} (h : execAggHome n s = .next u) : u.pending = s.pending ∧ u.flash = s.flash ∧ u.coldOpt = s.coldOpt ∧ u.imsic = s.imsic ∧ u.dm = s.dm ∧ u.ctu = s.ctu ∧ u.links = s.links ∧ u.aplicS = s.aplicS ∧ u.aplicN = s.aplicN ∧ u.credits = s.credits ∧ u.pkts = s.pkts ∧ u.resp = s.resp ∧ u.fabric = s.fabric ∧ u.files = s.files := by
  unfold execAggHome at h
  (first | (simp only [Host.Outcome.next.injEq] at h; rw [← h]) | (simp only [reduceCtorEq] at h; done) | (simp only [Option.some.injEq] at h; rw [← h])); simp [kept @opAggHome_fr]

theorem execSortRun_fr (n : Fin 36) (s : State) {u : State} (h : execSortRun n s = .next u) : u.pending = s.pending ∧ u.flash = s.flash ∧ u.coldOpt = s.coldOpt ∧ u.imsic = s.imsic ∧ u.dm = s.dm ∧ u.ctu = s.ctu ∧ u.links = s.links ∧ u.aplicS = s.aplicS ∧ u.aplicN = s.aplicN ∧ u.credits = s.credits ∧ u.pkts = s.pkts ∧ u.resp = s.resp ∧ u.fabric = s.fabric ∧ u.files = s.files := by
  unfold execSortRun at h
  (first | (simp only [Host.Outcome.next.injEq] at h; rw [← h]) | (simp only [reduceCtorEq] at h; done) | (simp only [Option.some.injEq] at h; rw [← h])); simp [kept @opSortRun_fr]

theorem execTopk_fr (n : Fin 36) (s : State) {u : State} (h : execTopk n s = .next u) : u.pending = s.pending ∧ u.flash = s.flash ∧ u.coldOpt = s.coldOpt ∧ u.imsic = s.imsic ∧ u.dm = s.dm ∧ u.ctu = s.ctu ∧ u.links = s.links ∧ u.aplicS = s.aplicS ∧ u.aplicN = s.aplicN ∧ u.credits = s.credits ∧ u.pkts = s.pkts ∧ u.resp = s.resp ∧ u.fabric = s.fabric ∧ u.files = s.files := by
  unfold execTopk at h
  (try dsimp only at h); (repeat' split at h) <;> ((first | (simp only [Host.Outcome.next.injEq] at h; rw [← h]) | (simp only [reduceCtorEq] at h; done) | (simp only [Option.some.injEq] at h; rw [← h])); simp (disch := (intros; (repeat' split) <;> first | exact keepsM_pure _ _ | simp [*, kept @opTopk_fr])) [kept @opTopk_fr])

theorem execPartition_fr (n : Fin 36) (s : State) {u : State} (h : execPartition n s = .next u) : u.pending = s.pending ∧ u.flash = s.flash ∧ u.coldOpt = s.coldOpt ∧ u.imsic = s.imsic ∧ u.dm = s.dm ∧ u.ctu = s.ctu ∧ u.links = s.links ∧ u.aplicS = s.aplicS ∧ u.aplicN = s.aplicN ∧ u.credits = s.credits ∧ u.pkts = s.pkts ∧ u.resp = s.resp ∧ u.fabric = s.fabric ∧ u.files = s.files := by
  unfold execPartition at h
  (first | (simp only [Host.Outcome.next.injEq] at h; rw [← h]) | (simp only [reduceCtorEq] at h; done) | (simp only [Option.some.injEq] at h; rw [← h])); simp [kept @opPartition_fr]

theorem execLimit_fr (n : Fin 36) (s : State) {u : State} (h : execLimit n s = .next u) : u.pending = s.pending ∧ u.flash = s.flash ∧ u.coldOpt = s.coldOpt ∧ u.imsic = s.imsic ∧ u.dm = s.dm ∧ u.ctu = s.ctu ∧ u.links = s.links ∧ u.aplicS = s.aplicS ∧ u.aplicN = s.aplicN ∧ u.credits = s.credits ∧ u.pkts = s.pkts ∧ u.resp = s.resp ∧ u.fabric = s.fabric ∧ u.files = s.files := by
  unfold execLimit at h
  (first | (simp only [Host.Outcome.next.injEq] at h; rw [← h]) | (simp only [reduceCtorEq] at h; done) | (simp only [Option.some.injEq] at h; rw [← h])); simp [kept @opLimit_fr]

theorem execEmit_fr (n : Fin 36) (s : State) {u : State} (h : execEmit n s = .next u) : u.pending = s.pending ∧ u.flash = s.flash ∧ u.coldOpt = s.coldOpt ∧ u.imsic = s.imsic ∧ u.dm = s.dm ∧ u.ctu = s.ctu ∧ u.links = s.links ∧ u.aplicS = s.aplicS ∧ u.aplicN = s.aplicN ∧ u.credits = s.credits ∧ u.pkts = s.pkts ∧ u.resp = s.resp ∧ u.fabric = s.fabric ∧ u.files = s.files := by
  unfold execEmit at h
  (first | (simp only [Host.Outcome.next.injEq] at h; rw [← h]) | (simp only [reduceCtorEq] at h; done) | (simp only [Option.some.injEq] at h; rw [← h])); simp [kept @opEmit_fr]

theorem execEmitInline_fr (n : Fin 36) (s : State) {u : State} (h : execEmitInline n s = .next u) : u.pending = s.pending ∧ u.flash = s.flash ∧ u.coldOpt = s.coldOpt ∧ u.imsic = s.imsic ∧ u.dm = s.dm ∧ u.ctu = s.ctu ∧ u.links = s.links ∧ u.aplicS = s.aplicS ∧ u.aplicN = s.aplicN ∧ u.credits = s.credits ∧ u.pkts = s.pkts ∧ u.resp = s.resp ∧ u.fabric = s.fabric ∧ u.files = s.files := by
  unfold execEmitInline at h
  (first | (simp only [Host.Outcome.next.injEq] at h; rw [← h]) | (simp only [reduceCtorEq] at h; done) | (simp only [Option.some.injEq] at h; rw [← h])); simp [kept @opEmitInline_fr]

@[simp] theorem opEnd_beside (n : Nat) (c : OpCtx) (t : Task) : KeepsM State.beside (opEnd n c t) := by
  unfold opEnd; (repeat' (first | with_reducible exact keepsM_pure _ _ | with_reducible exact keepsM_throw _ _ | with_reducible exact keepsM_get _ | with_reducible refine keepsM_bind ?_ (fun _ => ?_) | with_reducible refine keepsM_mapM (fun _ => ?_) _ | with_reducible refine keepsM_forM (fun _ => ?_) _ | with_reducible refine keepsM_foldlM (fun _ _ => ?_) _ _ | with_reducible refine doSt_keeps _ (fun _ => ?_) | with_reducible refine askSt_keeps _ (fun _ => ?_) | (simp [kept @batchOver_fr]; done) | (simp [*, kept @batchOver_fr]; done) | split | dsimp only))

@[simp] theorem opEnd_apart (n : Nat) (c : OpCtx) (t : Task) : KeepsM State.apart (opEnd n c t) := by
  unfold opEnd; (repeat' (first | with_reducible exact keepsM_pure _ _ | with_reducible exact keepsM_throw _ _ | with_reducible exact keepsM_get _ | with_reducible refine keepsM_bind ?_ (fun _ => ?_) | with_reducible refine keepsM_mapM (fun _ => ?_) _ | with_reducible refine keepsM_forM (fun _ => ?_) _ | with_reducible refine keepsM_foldlM (fun _ _ => ?_) _ _ | with_reducible refine doSt_keeps _ (fun _ => ?_) | with_reducible refine askSt_keeps _ (fun _ => ?_) | (simp [kept @batchOver_fr]; done) | (simp [*, kept @batchOver_fr]; done) | split | dsimp only))

theorem opEnd_fr (n : Nat) (c : OpCtx) (t : Task) : KeepsM State.wires (opEnd n c t) ∧ KeepsM State.wq (opEnd n c t) ∧ KeepsM State.pkg (opEnd n c t) ∧ KeepsM State.fwLog (opEnd n c t) := by
  refine ⟨?_, ?_, ?_, ?_⟩ <;> (unfold opEnd; (repeat' (first | with_reducible exact keepsM_pure _ _ | with_reducible exact keepsM_throw _ _ | with_reducible exact keepsM_get _ | with_reducible refine keepsM_bind ?_ (fun _ => ?_) | with_reducible refine keepsM_mapM (fun _ => ?_) _ | with_reducible refine keepsM_forM (fun _ => ?_) _ | with_reducible refine keepsM_foldlM (fun _ _ => ?_) _ _ | with_reducible refine doSt_keeps _ (fun _ => ?_) | with_reducible refine askSt_keeps _ (fun _ => ?_) | (simp [kept @batchOver_fr]; done) | (simp [*, kept @batchOver_fr]; done) | split | dsimp only)))

theorem execEnd_fr (n : Fin 36) (s : State) {u : State} (h : execEnd n s = .next u) : u.pending = s.pending ∧ u.flash = s.flash ∧ u.coldOpt = s.coldOpt ∧ u.imsic = s.imsic ∧ u.dm = s.dm ∧ u.ctu = s.ctu ∧ u.links = s.links ∧ u.aplicS = s.aplicS ∧ u.aplicN = s.aplicN ∧ u.credits = s.credits ∧ u.pkts = s.pkts ∧ u.resp = s.resp ∧ u.fabric = s.fabric ∧ u.files = s.files := by
  unfold execEnd at h
  (first | (simp only [Host.Outcome.next.injEq] at h; rw [← h]) | (simp only [reduceCtorEq] at h; done) | (simp only [Option.some.injEq] at h; rw [← h])); simp [kept @opEnd_fr]

theorem execMerge_fr (n : Fin 36) (s : State) {u : State} (h : execMerge n s = .next u) : u.pending = s.pending ∧ u.flash = s.flash ∧ u.coldOpt = s.coldOpt ∧ u.imsic = s.imsic ∧ u.dm = s.dm ∧ u.ctu = s.ctu ∧ u.links = s.links ∧ u.aplicS = s.aplicS ∧ u.aplicN = s.aplicN ∧ u.credits = s.credits ∧ u.pkts = s.pkts ∧ u.resp = s.resp ∧ u.free = s.free ∧ u.fabric = s.fabric ∧ u.files = s.files := by
  unfold execMerge at h
  (try dsimp only at h); (repeat' split at h) <;> ((first | (simp only [Host.Outcome.next.injEq] at h; rw [← h]) | (simp only [reduceCtorEq] at h; done) | (simp only [Option.some.injEq] at h; rw [← h])); simp (disch := (intros; (repeat' split) <;> first | exact keepsM_pure _ _ | simp [*, kept @opMerge_fr])) [kept @opMerge_fr])

theorem execIntermediateMergeTask_fr (n : Fin 36) (s : State) {u : State} (h : execIntermediateMergeTask n s = .next u) : u.pending = s.pending ∧ u.flash = s.flash ∧ u.coldOpt = s.coldOpt ∧ u.imsic = s.imsic ∧ u.dm = s.dm ∧ u.ctu = s.ctu ∧ u.links = s.links ∧ u.aplicS = s.aplicS ∧ u.aplicN = s.aplicN ∧ u.credits = s.credits ∧ u.pkts = s.pkts ∧ u.resp = s.resp ∧ u.fabric = s.fabric ∧ u.files = s.files := by
  unfold execIntermediateMergeTask at h
  (try dsimp only at h); (repeat' split at h) <;> ((first | (simp only [Host.Outcome.next.injEq] at h; rw [← h]) | (simp only [reduceCtorEq] at h; done) | (simp only [Option.some.injEq] at h; rw [← h])); simp (disch := (intros; (repeat' split) <;> first | exact keepsM_pure _ _ | simp [*, kept @interMerge_fr])) [kept @interMerge_fr])

theorem execFinalMergeTask_fr (n : Fin 36) (s : State) {u : State} (h : execFinalMergeTask n s = .next u) : u.pending = s.pending ∧ u.flash = s.flash ∧ u.coldOpt = s.coldOpt ∧ u.imsic = s.imsic ∧ u.dm = s.dm ∧ u.ctu = s.ctu ∧ u.links = s.links ∧ u.aplicS = s.aplicS ∧ u.aplicN = s.aplicN ∧ u.credits = s.credits ∧ u.pkts = s.pkts ∧ u.resp = s.resp ∧ u.fabric = s.fabric ∧ u.files = s.files := by
  unfold execFinalMergeTask at h
  (try dsimp only at h); (repeat' split at h) <;> ((first | (simp only [Host.Outcome.next.injEq] at h; rw [← h]) | (simp only [reduceCtorEq] at h; done) | (simp only [Option.some.injEq] at h; rw [← h])); simp (disch := (intros; (repeat' split) <;> first | exact keepsM_pure _ _ | simp [*])))

@[simp] theorem gatherTask_beside (n : Nat) (c : OpCtx) (t : Task) : KeepsM State.beside (gatherTask n c t) := by
  unfold gatherTask; (repeat' (first | with_reducible exact keepsM_pure _ _ | with_reducible exact keepsM_throw _ _ | with_reducible exact keepsM_get _ | with_reducible refine keepsM_bind ?_ (fun _ => ?_) | with_reducible refine keepsM_mapM (fun _ => ?_) _ | with_reducible refine keepsM_forM (fun _ => ?_) _ | with_reducible refine keepsM_foldlM (fun _ _ => ?_) _ _ | with_reducible refine doSt_keeps _ (fun _ => ?_) | with_reducible refine askSt_keeps _ (fun _ => ?_) | (simp [kept @State.updRun_fr, kept @cbRead_fr, kept @pack_fr, kept @release_fr]; done) | (simp [*, kept @State.updRun_fr, kept @cbRead_fr, kept @pack_fr, kept @release_fr]; done) | split | dsimp only))

@[simp] theorem gatherTask_apart (n : Nat) (c : OpCtx) (t : Task) : KeepsM State.apart (gatherTask n c t) := by
  unfold gatherTask; (repeat' (first | with_reducible exact keepsM_pure _ _ | with_reducible exact keepsM_throw _ _ | with_reducible exact keepsM_get _ | with_reducible refine keepsM_bind ?_ (fun _ => ?_) | with_reducible refine keepsM_mapM (fun _ => ?_) _ | with_reducible refine keepsM_forM (fun _ => ?_) _ | with_reducible refine keepsM_foldlM (fun _ _ => ?_) _ _ | with_reducible refine doSt_keeps _ (fun _ => ?_) | with_reducible refine askSt_keeps _ (fun _ => ?_) | (simp [kept @State.updRun_fr, kept @cbRead_fr, kept @pack_fr, kept @release_fr]; done) | (simp [*, kept @State.updRun_fr, kept @cbRead_fr, kept @pack_fr, kept @release_fr]; done) | split | dsimp only))

theorem gatherTask_fr (n : Nat) (c : OpCtx) (t : Task) : KeepsM State.wires (gatherTask n c t) ∧ KeepsM State.wq (gatherTask n c t) ∧ KeepsM State.pkg (gatherTask n c t) ∧ KeepsM State.fwLog (gatherTask n c t) := by
  refine ⟨?_, ?_, ?_, ?_⟩ <;> (unfold gatherTask; (repeat' (first | with_reducible exact keepsM_pure _ _ | with_reducible exact keepsM_throw _ _ | with_reducible exact keepsM_get _ | with_reducible refine keepsM_bind ?_ (fun _ => ?_) | with_reducible refine keepsM_mapM (fun _ => ?_) _ | with_reducible refine keepsM_forM (fun _ => ?_) _ | with_reducible refine keepsM_foldlM (fun _ _ => ?_) _ _ | with_reducible refine doSt_keeps _ (fun _ => ?_) | with_reducible refine askSt_keeps _ (fun _ => ?_) | (simp [kept @State.updRun_fr, kept @cbRead_fr, kept @pack_fr, kept @release_fr]; done) | (simp [*, kept @State.updRun_fr, kept @cbRead_fr, kept @pack_fr, kept @release_fr]; done) | split | dsimp only)))

theorem execGatherTask_fr (n : Fin 36) (s : State) {u : State} (h : execGatherTask n s = .next u) : u.pending = s.pending ∧ u.flash = s.flash ∧ u.coldOpt = s.coldOpt ∧ u.imsic = s.imsic ∧ u.dm = s.dm ∧ u.ctu = s.ctu ∧ u.links = s.links ∧ u.aplicS = s.aplicS ∧ u.aplicN = s.aplicN ∧ u.credits = s.credits ∧ u.pkts = s.pkts ∧ u.resp = s.resp ∧ u.fabric = s.fabric ∧ u.files = s.files := by
  unfold execGatherTask at h
  (try dsimp only at h); (repeat' split at h) <;> ((first | (simp only [Host.Outcome.next.injEq] at h; rw [← h]) | (simp only [reduceCtorEq] at h; done) | (simp only [Option.some.injEq] at h; rw [← h])); simp (disch := (intros; (repeat' split) <;> first | exact keepsM_pure _ _ | simp [*, kept @gatherTask_fr])) [kept @gatherTask_fr])

theorem execTopkRows_fr (n : Fin 36) (s : State) {u : State} (h : execTopkRows n s = .next u) : u.pending = s.pending ∧ u.flash = s.flash ∧ u.coldOpt = s.coldOpt ∧ u.imsic = s.imsic ∧ u.dm = s.dm ∧ u.ctu = s.ctu ∧ u.links = s.links ∧ u.aplicS = s.aplicS ∧ u.aplicN = s.aplicN ∧ u.credits = s.credits ∧ u.pkts = s.pkts ∧ u.resp = s.resp ∧ u.fabric = s.fabric ∧ u.files = s.files := by
  unfold execTopkRows at h
  (first | (simp only [Host.Outcome.next.injEq] at h; rw [← h]) | (simp only [reduceCtorEq] at h; done) | (simp only [Option.some.injEq] at h; rw [← h])); simp [kept @State.gatherRows_fr]

theorem execLevel0MergeTask_fr (n : Fin 36) (s : State) {u : State} (h : execLevel0MergeTask n s = .next u) : u.pending = s.pending ∧ u.flash = s.flash ∧ u.coldOpt = s.coldOpt ∧ u.imsic = s.imsic ∧ u.dm = s.dm ∧ u.ctu = s.ctu ∧ u.links = s.links ∧ u.aplicS = s.aplicS ∧ u.aplicN = s.aplicN ∧ u.credits = s.credits ∧ u.pkts = s.pkts ∧ u.resp = s.resp ∧ u.fabric = s.fabric ∧ u.files = s.files := by
  unfold execLevel0MergeTask at h
  simp only [Host.Outcome.next.injEq] at h
  rw [← h]
  refine ⟨?_, ?_, ?_, ?_, ?_, ?_, ?_, ?_, ?_, ?_, ?_, ?_, ?_, ?_⟩ <;> first
    | refine State.taskDo_pending _ _ _ (fun t => ?_)
    | refine State.taskDo_files _ _ _ (fun t => ?_)
    | refine State.taskDo_fabric _ _ _ (fun t => ?_)
    | refine State.taskDo_flash _ _ _ (fun t => ?_)
    | refine State.taskDo_coldOpt _ _ _ (fun t => ?_)
    | refine State.taskDo_imsic _ _ _ (fun t => ?_)
    | refine State.taskDo_dm _ _ _ (fun t => ?_)
    | refine State.taskDo_ctu _ _ _ (fun t => ?_)
    | refine State.taskDo_links _ _ _ (fun t => ?_)
    | refine State.taskDo_aplicS _ _ _ (fun t => ?_)
    | refine State.taskDo_aplicN _ _ _ (fun t => ?_)
    | refine State.taskDo_credits _ _ _ (fun t => ?_)
    | refine State.taskDo_pkts _ _ _ (fun t => ?_)
    | refine State.taskDo_resp _ _ _ (fun t => ?_)
  all_goals ((repeat' split) <;> first | exact keepsM_pure _ _ | simp)

theorem execPageReq_fr (n : Fin 36) (s : State) {u : State} (h : execPageReq n s = .next u) : u.pending = s.pending ∧ u.flash = s.flash ∧ u.coldOpt = s.coldOpt ∧ u.mem = s.mem ∧ u.harts = s.harts ∧ u.mram = s.mram ∧ u.imsic = s.imsic ∧ u.dm = s.dm ∧ u.fx = s.fx ∧ u.ctu = s.ctu ∧ u.links = s.links ∧ u.aplicS = s.aplicS ∧ u.aplicN = s.aplicN ∧ u.credits = s.credits ∧ u.clusters = s.clusters ∧ u.homes = s.homes ∧ u.pkts = s.pkts ∧ u.resp = s.resp ∧ u.regs = s.regs ∧ u.wires = s.wires ∧ u.dmg = s.dmg ∧ u.wq = s.wq ∧ u.net = s.net ∧ u.dbInval = s.dbInval ∧ u.watch = s.watch ∧ u.pkg = s.pkg ∧ u.pmc = s.pmc ∧ u.fwLog = s.fwLog ∧ u.out = s.out ∧ u.free = s.free ∧ u.fabric = s.fabric ∧ u.files = s.files := by
  unfold execPageReq at h
  (try dsimp only at h); (repeat' split at h) <;> (first | (simp only [Host.Outcome.next.injEq] at h; rw [← h]) | (simp only [reduceCtorEq] at h; done) | (simp only [Option.some.injEq] at h; rw [← h])) <;> simp [kept @State.takePage_fr]

theorem State.scanCheck_fr (s : State) (n : Nat) (ln : Nat) (b : PageBuf) : (State.scanCheck s n ln b).pending = s.pending ∧ (State.scanCheck s n ln b).flash = s.flash ∧ (State.scanCheck s n ln b).coldOpt = s.coldOpt ∧ (State.scanCheck s n ln b).mem = s.mem ∧ (State.scanCheck s n ln b).harts = s.harts ∧ (State.scanCheck s n ln b).imsic = s.imsic ∧ (State.scanCheck s n ln b).dm = s.dm ∧ (State.scanCheck s n ln b).fx = s.fx ∧ (State.scanCheck s n ln b).ctu = s.ctu ∧ (State.scanCheck s n ln b).links = s.links ∧ (State.scanCheck s n ln b).aplicS = s.aplicS ∧ (State.scanCheck s n ln b).aplicN = s.aplicN ∧ (State.scanCheck s n ln b).credits = s.credits ∧ (State.scanCheck s n ln b).clusters = s.clusters ∧ (State.scanCheck s n ln b).homes = s.homes ∧ (State.scanCheck s n ln b).pkts = s.pkts ∧ (State.scanCheck s n ln b).resp = s.resp ∧ (State.scanCheck s n ln b).dmg = s.dmg ∧ (State.scanCheck s n ln b).net = s.net ∧ (State.scanCheck s n ln b).dbInval = s.dbInval ∧ (State.scanCheck s n ln b).watch = s.watch ∧ (State.scanCheck s n ln b).out = s.out ∧ (State.scanCheck s n ln b).free = s.free ∧ (State.scanCheck s n ln b).fabric = s.fabric ∧ (State.scanCheck s n ln b).files = s.files := by
  generalize h : State.scanCheck s n ln b = u
  unfold State.scanCheck at h
  (try dsimp only at h); (repeat' split at h) <;> (rw [← h];  (try simp only [Prod.ext_iff] at *); (try casesm* _ ∧ _); (try casesm* @Eq State _ _); (try simp [*, kept @State.failTask_fr, kept @State.pmcFront_fr, kept @State.readLine_fr, kept @State.setPage_fr]))

theorem execScanCheck_fr (n : Fin 36) (ln : Nat) (s : State) {u : State} (h : execScanCheck n ln s = .next u) : u.pending = s.pending ∧ u.flash = s.flash ∧ u.coldOpt = s.coldOpt ∧ u.mem = s.mem ∧ u.harts = s.harts ∧ u.imsic = s.imsic ∧ u.dm = s.dm ∧ u.fx = s.fx ∧ u.ctu = s.ctu ∧ u.links = s.links ∧ u.aplicS = s.aplicS ∧ u.aplicN = s.aplicN ∧ u.credits = s.credits ∧ u.clusters = s.clusters ∧ u.homes = s.homes ∧ u.pkts = s.pkts ∧ u.resp = s.resp ∧ u.dmg = s.dmg ∧ u.net = s.net ∧ u.dbInval = s.dbInval ∧ u.watch = s.watch ∧ u.out = s.out ∧ u.free = s.free ∧ u.fabric = s.fabric ∧ u.files = s.files := by
  unfold execScanCheck at h
  (try dsimp only at h); (repeat' split at h) <;> (first | (simp only [Host.Outcome.next.injEq] at h; rw [← h]) | (simp only [reduceCtorEq] at h; done) | (simp only [Option.some.injEq] at h; rw [← h])) <;> simp [kept @State.scanCheck_fr]

theorem execPageRelease_fr (n : Fin 36) (col : Fin 16) (page : Nat) (s : State) {u : State} (h : execPageRelease n col page s = .next u) : u.pending = s.pending ∧ u.flash = s.flash ∧ u.coldOpt = s.coldOpt ∧ u.imsic = s.imsic ∧ u.dm = s.dm ∧ u.ctu = s.ctu ∧ u.links = s.links ∧ u.aplicS = s.aplicS ∧ u.aplicN = s.aplicN ∧ u.credits = s.credits ∧ u.pkts = s.pkts ∧ u.resp = s.resp ∧ u.free = s.free ∧ u.fabric = s.fabric ∧ u.files = s.files := by
  unfold execPageRelease at h
  simp only [Host.Outcome.next.injEq] at h
  rw [← h]
  refine ⟨?_, ?_, ?_, ?_, ?_, ?_, ?_, ?_, ?_, ?_, ?_, ?_, ?_, ?_, ?_⟩ <;> first
    | refine State.taskDo_pending _ _ _ (fun t => ?_)
    | refine State.taskDo_files _ _ _ (fun t => ?_)
    | refine State.taskDo_fabric _ _ _ (fun t => ?_)
    | refine State.taskDo_flash _ _ _ (fun t => ?_)
    | refine State.taskDo_coldOpt _ _ _ (fun t => ?_)
    | refine State.taskDo_imsic _ _ _ (fun t => ?_)
    | refine State.taskDo_dm _ _ _ (fun t => ?_)
    | refine State.taskDo_ctu _ _ _ (fun t => ?_)
    | refine State.taskDo_links _ _ _ (fun t => ?_)
    | refine State.taskDo_aplicS _ _ _ (fun t => ?_)
    | refine State.taskDo_aplicN _ _ _ (fun t => ?_)
    | refine State.taskDo_credits _ _ _ (fun t => ?_)
    | refine State.taskDo_pkts _ _ _ (fun t => ?_)
    | refine State.taskDo_resp _ _ _ (fun t => ?_)
    | refine State.taskDo_free _ _ _ (fun t => ?_)
  all_goals ((repeat' split) <;> first | exact keepsM_pure _ _ | simp [kept @releasePage_fr])

theorem execCorrectionWriteBack_fr (s : State) {u : State} (h : execCorrectionWriteBack s = .next u) : u.pending = s.pending ∧ u.flash = s.flash ∧ u.coldOpt = s.coldOpt ∧ u.imsic = s.imsic ∧ u.dm = s.dm ∧ u.fx = s.fx ∧ u.ctu = s.ctu ∧ u.links = s.links ∧ u.aplicS = s.aplicS ∧ u.aplicN = s.aplicN ∧ u.credits = s.credits ∧ u.pkts = s.pkts ∧ u.resp = s.resp ∧ u.out = s.out ∧ u.free = s.free ∧ u.fabric = s.fabric ∧ u.files = s.files := by
  unfold execCorrectionWriteBack at h
  (try dsimp only at h); (repeat' split at h) <;> (first | (simp only [Host.Outcome.next.injEq] at h; rw [← h]) | (simp only [reduceCtorEq] at h; done) | (simp only [Option.some.injEq] at h; rw [← h])) <;> simp [kept @State.eng'_fr, kept @State.lineNow_fr, kept @State.pmcFront_fr, kept @State.writeLine_fr]

theorem execChainFwd_fr (n : Fin 36) (s : State) {u : State} (h : execChainFwd n s = .next u) : u.pending = s.pending ∧ u.flash = s.flash ∧ u.coldOpt = s.coldOpt ∧ u.imsic = s.imsic ∧ u.dm = s.dm ∧ u.ctu = s.ctu ∧ u.links = s.links ∧ u.aplicS = s.aplicS ∧ u.aplicN = s.aplicN ∧ u.credits = s.credits ∧ u.pkts = s.pkts ∧ u.resp = s.resp ∧ u.free = s.free ∧ u.fabric = s.fabric ∧ u.files = s.files := by
  unfold execChainFwd at h
  simp only [Host.Outcome.next.injEq] at h
  rw [← h]
  refine ⟨?_, ?_, ?_, ?_, ?_, ?_, ?_, ?_, ?_, ?_, ?_, ?_, ?_, ?_, ?_⟩ <;> first
    | refine State.taskDo_pending _ _ _ (fun t => ?_)
    | refine State.taskDo_files _ _ _ (fun t => ?_)
    | refine State.taskDo_fabric _ _ _ (fun t => ?_)
    | refine State.taskDo_flash _ _ _ (fun t => ?_)
    | refine State.taskDo_coldOpt _ _ _ (fun t => ?_)
    | refine State.taskDo_imsic _ _ _ (fun t => ?_)
    | refine State.taskDo_dm _ _ _ (fun t => ?_)
    | refine State.taskDo_ctu _ _ _ (fun t => ?_)
    | refine State.taskDo_links _ _ _ (fun t => ?_)
    | refine State.taskDo_aplicS _ _ _ (fun t => ?_)
    | refine State.taskDo_aplicN _ _ _ (fun t => ?_)
    | refine State.taskDo_credits _ _ _ (fun t => ?_)
    | refine State.taskDo_pkts _ _ _ (fun t => ?_)
    | refine State.taskDo_resp _ _ _ (fun t => ?_)
    | refine State.taskDo_free _ _ _ (fun t => ?_)
  all_goals ((repeat' split) <;> first | exact keepsM_pure _ _ | simp [kept @chainStep_fr])

@[simp] theorem rowFetch_beside (n : Nat) (c : OpCtx) (t : Task) (b : Batch) : KeepsM State.beside (rowFetch n c t b) := by
  unfold rowFetch; (repeat' (first | with_reducible exact keepsM_pure _ _ | with_reducible exact keepsM_throw _ _ | with_reducible exact keepsM_get _ | with_reducible refine keepsM_bind ?_ (fun _ => ?_) | with_reducible refine keepsM_mapM (fun _ => ?_) _ | with_reducible refine keepsM_forM (fun _ => ?_) _ | with_reducible refine keepsM_foldlM (fun _ _ => ?_) _ _ | with_reducible refine doSt_keeps _ (fun _ => ?_) | with_reducible refine askSt_keeps _ (fun _ => ?_) | (simp [kept @State.takePage_fr, kept @endFetch_fr, kept @fetchRows_fr, kept @theTask_fr]; done) | (simp [*, kept @State.takePage_fr, kept @endFetch_fr, kept @fetchRows_fr, kept @theTask_fr]; done) | with_reducible refine foldl_keeps _ _ (fun _ _ => ?_) _ _ | split | dsimp only))

@[simp] theorem rowFetch_apart (n : Nat) (c : OpCtx) (t : Task) (b : Batch) : KeepsM State.apart (rowFetch n c t b) := by
  unfold rowFetch; (repeat' (first | with_reducible exact keepsM_pure _ _ | with_reducible exact keepsM_throw _ _ | with_reducible exact keepsM_get _ | with_reducible refine keepsM_bind ?_ (fun _ => ?_) | with_reducible refine keepsM_mapM (fun _ => ?_) _ | with_reducible refine keepsM_forM (fun _ => ?_) _ | with_reducible refine keepsM_foldlM (fun _ _ => ?_) _ _ | with_reducible refine doSt_keeps _ (fun _ => ?_) | with_reducible refine askSt_keeps _ (fun _ => ?_) | (simp [kept @State.takePage_fr, kept @endFetch_fr, kept @fetchRows_fr, kept @theTask_fr]; done) | (simp [*, kept @State.takePage_fr, kept @endFetch_fr, kept @fetchRows_fr, kept @theTask_fr]; done) | with_reducible refine foldl_keeps _ _ (fun _ _ => ?_) _ _ | split | dsimp only))

theorem execRowFetch_fr (n : Fin 36) (s : State) {u : State} (h : execRowFetch n s = .next u) : u.pending = s.pending ∧ u.flash = s.flash ∧ u.coldOpt = s.coldOpt ∧ u.imsic = s.imsic ∧ u.dm = s.dm ∧ u.ctu = s.ctu ∧ u.links = s.links ∧ u.aplicS = s.aplicS ∧ u.aplicN = s.aplicN ∧ u.credits = s.credits ∧ u.pkts = s.pkts ∧ u.resp = s.resp ∧ u.fabric = s.fabric ∧ u.files = s.files := by
  unfold execRowFetch at h
  simp only [Host.Outcome.next.injEq] at h
  rw [← h]
  refine ⟨?_, ?_, ?_, ?_, ?_, ?_, ?_, ?_, ?_, ?_, ?_, ?_, ?_, ?_⟩ <;> first
    | refine State.taskDo_pending _ _ _ (fun t => ?_)
    | refine State.taskDo_files _ _ _ (fun t => ?_)
    | refine State.taskDo_fabric _ _ _ (fun t => ?_)
    | refine State.taskDo_flash _ _ _ (fun t => ?_)
    | refine State.taskDo_coldOpt _ _ _ (fun t => ?_)
    | refine State.taskDo_imsic _ _ _ (fun t => ?_)
    | refine State.taskDo_dm _ _ _ (fun t => ?_)
    | refine State.taskDo_ctu _ _ _ (fun t => ?_)
    | refine State.taskDo_links _ _ _ (fun t => ?_)
    | refine State.taskDo_aplicS _ _ _ (fun t => ?_)
    | refine State.taskDo_aplicN _ _ _ (fun t => ?_)
    | refine State.taskDo_credits _ _ _ (fun t => ?_)
    | refine State.taskDo_pkts _ _ _ (fun t => ?_)
    | refine State.taskDo_resp _ _ _ (fun t => ?_)
    | refine State.taskDo_free _ _ _ (fun t => ?_)
  all_goals ((repeat' split) <;> first | exact keepsM_pure _ _ | simp [])

theorem execSurvivor_fr (n : Fin 36) (s : State) {u : State} (h : execSurvivor n s = .next u) : u.pending = s.pending ∧ u.flash = s.flash ∧ u.coldOpt = s.coldOpt ∧ u.imsic = s.imsic ∧ u.dm = s.dm ∧ u.ctu = s.ctu ∧ u.links = s.links ∧ u.aplicS = s.aplicS ∧ u.aplicN = s.aplicN ∧ u.credits = s.credits ∧ u.pkts = s.pkts ∧ u.resp = s.resp ∧ u.fabric = s.fabric ∧ u.files = s.files := by
  unfold execSurvivor at h
  (try dsimp only at h); (repeat' split at h) <;> ((first | (simp only [Host.Outcome.next.injEq] at h; rw [← h]) | (simp only [reduceCtorEq] at h; done) | (simp only [Option.some.injEq] at h; rw [← h])); simp (disch := (intros; (repeat' split) <;> first | exact keepsM_pure _ _ | simp [*, kept @takeBlock_fr])) [kept @takeBlock_fr])

theorem execBucketInsert_fr (id : Nat) (s : State) {u : State} (h : execBucketInsert id s = .next u) : u.pending = s.pending ∧ u.flash = s.flash ∧ u.coldOpt = s.coldOpt ∧ u.imsic = s.imsic ∧ u.dm = s.dm ∧ u.fx = s.fx ∧ u.ctu = s.ctu ∧ u.links = s.links ∧ u.aplicS = s.aplicS ∧ u.aplicN = s.aplicN ∧ u.credits = s.credits ∧ u.pkts = s.pkts ∧ u.resp = s.resp ∧ u.out = s.out ∧ u.free = s.free ∧ u.fabric = s.fabric ∧ u.files = s.files := by
  unfold execBucketInsert at h
  (first | (simp only [Host.Outcome.next.injEq] at h; rw [← h]) | (simp only [reduceCtorEq] at h; done) | (simp only [Option.some.injEq] at h; rw [← h])); simp [kept @State.bucketStep_fr]

theorem execBucketProbe_fr (id : Nat) (s : State) {u : State} (h : execBucketProbe id s = .next u) : u.pending = s.pending ∧ u.flash = s.flash ∧ u.coldOpt = s.coldOpt ∧ u.imsic = s.imsic ∧ u.dm = s.dm ∧ u.fx = s.fx ∧ u.ctu = s.ctu ∧ u.links = s.links ∧ u.aplicS = s.aplicS ∧ u.aplicN = s.aplicN ∧ u.credits = s.credits ∧ u.pkts = s.pkts ∧ u.resp = s.resp ∧ u.out = s.out ∧ u.free = s.free ∧ u.fabric = s.fabric ∧ u.files = s.files := by
  unfold execBucketProbe at h
  (first | (simp only [Host.Outcome.next.injEq] at h; rw [← h]) | (simp only [reduceCtorEq] at h; done) | (simp only [Option.some.injEq] at h; rw [← h])); simp [kept @State.bucketStep_fr]

theorem execBucketMerge_fr (id : Nat) (s : State) {u : State} (h : execBucketMerge id s = .next u) : u.pending = s.pending ∧ u.flash = s.flash ∧ u.coldOpt = s.coldOpt ∧ u.imsic = s.imsic ∧ u.dm = s.dm ∧ u.fx = s.fx ∧ u.ctu = s.ctu ∧ u.links = s.links ∧ u.aplicS = s.aplicS ∧ u.aplicN = s.aplicN ∧ u.credits = s.credits ∧ u.pkts = s.pkts ∧ u.resp = s.resp ∧ u.out = s.out ∧ u.free = s.free ∧ u.fabric = s.fabric ∧ u.files = s.files := by
  unfold execBucketMerge at h
  (first | (simp only [Host.Outcome.next.injEq] at h; rw [← h]) | (simp only [reduceCtorEq] at h; done) | (simp only [Option.some.injEq] at h; rw [← h])); simp [kept @State.bucketStep_fr]

theorem execAnchorVisit_fr (id : Nat) (s : State) {u : State} (h : execAnchorVisit id s = .next u) : u.pending = s.pending ∧ u.flash = s.flash ∧ u.coldOpt = s.coldOpt ∧ u.imsic = s.imsic ∧ u.dm = s.dm ∧ u.fx = s.fx ∧ u.ctu = s.ctu ∧ u.links = s.links ∧ u.aplicS = s.aplicS ∧ u.aplicN = s.aplicN ∧ u.credits = s.credits ∧ u.pkts = s.pkts ∧ u.resp = s.resp ∧ u.out = s.out ∧ u.free = s.free ∧ u.fabric = s.fabric ∧ u.files = s.files := by
  unfold execAnchorVisit at h
  (try dsimp only at h); (repeat' split at h) <;> (first | (simp only [Host.Outcome.next.injEq] at h; rw [← h]) | (simp only [reduceCtorEq] at h; done) | (simp only [Option.some.injEq] at h; rw [← h])) <;> simp [kept @State.anchorStep_fr]

theorem execSpillChunkVisit_fr (id : Nat) (s : State) {u : State} (h : execSpillChunkVisit id s = .next u) : u.pending = s.pending ∧ u.flash = s.flash ∧ u.coldOpt = s.coldOpt ∧ u.imsic = s.imsic ∧ u.dm = s.dm ∧ u.fx = s.fx ∧ u.ctu = s.ctu ∧ u.links = s.links ∧ u.aplicS = s.aplicS ∧ u.aplicN = s.aplicN ∧ u.credits = s.credits ∧ u.pkts = s.pkts ∧ u.resp = s.resp ∧ u.out = s.out ∧ u.free = s.free ∧ u.fabric = s.fabric ∧ u.files = s.files := by
  unfold execSpillChunkVisit at h
  (try dsimp only at h); (repeat' split at h) <;> (first | (simp only [Host.Outcome.next.injEq] at h; rw [← h]) | (simp only [reduceCtorEq] at h; done) | (simp only [Option.some.injEq] at h; rw [← h])) <;> simp [kept @State.chunkStep_fr]

@[simp] theorem State.probeResult_pending (s : State) (b : BOp) : (s.probeResult b).pending = s.pending := by
  unfold State.probeResult
  dsimp only
  (repeat' split) <;> first
    | (simp [kept @State.dropBop_fr, kept @State.setTask_fr, kept @probeMake_fr]; done)
    | (refine (State.taskDo_pending _ _ _ (fun t => ?_)).trans (by simp [kept @State.dropBop_fr, kept @State.setTask_fr, kept @probeMake_fr])
       (repeat' split) <;> first | exact keepsM_pure _ _ | simp [kept @State.dropBop_fr, kept @State.setTask_fr, kept @probeMake_fr])

@[simp] theorem State.probeResult_files (s : State) (b : BOp) : (s.probeResult b).files = s.files := by
  unfold State.probeResult
  dsimp only
  (repeat' split) <;> first
    | (simp [kept @State.dropBop_fr, kept @State.setTask_fr, kept @probeMake_fr]; done)
    | (refine (State.taskDo_files _ _ _ (fun t => ?_)).trans (by simp [kept @State.dropBop_fr, kept @State.setTask_fr, kept @probeMake_fr])
       (repeat' split) <;> first | exact keepsM_pure _ _ | simp [kept @State.dropBop_fr, kept @State.setTask_fr, kept @probeMake_fr])

@[simp] theorem State.probeResult_fabric (s : State) (b : BOp) : (s.probeResult b).fabric = s.fabric := by
  unfold State.probeResult
  dsimp only
  (repeat' split) <;> first
    | (simp [kept @State.dropBop_fr, kept @State.setTask_fr, kept @probeMake_fr]; done)
    | (refine (State.taskDo_fabric _ _ _ (fun t => ?_)).trans (by simp [kept @State.dropBop_fr, kept @State.setTask_fr, kept @probeMake_fr])
       (repeat' split) <;> first | exact keepsM_pure _ _ | simp [kept @State.dropBop_fr, kept @State.setTask_fr, kept @probeMake_fr])

@[simp] theorem State.probeResult_flash (s : State) (b : BOp) : (s.probeResult b).flash = s.flash := by
  unfold State.probeResult
  dsimp only
  (repeat' split) <;> first
    | (simp [kept @State.dropBop_fr, kept @State.setTask_fr, kept @probeMake_fr]; done)
    | (refine (State.taskDo_flash _ _ _ (fun t => ?_)).trans (by simp [kept @State.dropBop_fr, kept @State.setTask_fr, kept @probeMake_fr])
       (repeat' split) <;> first | exact keepsM_pure _ _ | simp [kept @State.dropBop_fr, kept @State.setTask_fr, kept @probeMake_fr])

@[simp] theorem State.probeResult_coldOpt (s : State) (b : BOp) : (s.probeResult b).coldOpt = s.coldOpt := by
  unfold State.probeResult
  dsimp only
  (repeat' split) <;> first
    | (simp [kept @State.dropBop_fr, kept @State.setTask_fr, kept @probeMake_fr]; done)
    | (refine (State.taskDo_coldOpt _ _ _ (fun t => ?_)).trans (by simp [kept @State.dropBop_fr, kept @State.setTask_fr, kept @probeMake_fr])
       (repeat' split) <;> first | exact keepsM_pure _ _ | simp [kept @State.dropBop_fr, kept @State.setTask_fr, kept @probeMake_fr])

@[simp] theorem State.probeResult_imsic (s : State) (b : BOp) : (s.probeResult b).imsic = s.imsic := by
  unfold State.probeResult
  dsimp only
  (repeat' split) <;> first
    | (simp [kept @State.dropBop_fr, kept @State.setTask_fr, kept @probeMake_fr]; done)
    | (refine (State.taskDo_imsic _ _ _ (fun t => ?_)).trans (by simp [kept @State.dropBop_fr, kept @State.setTask_fr, kept @probeMake_fr])
       (repeat' split) <;> first | exact keepsM_pure _ _ | simp [kept @State.dropBop_fr, kept @State.setTask_fr, kept @probeMake_fr])

@[simp] theorem State.probeResult_dm (s : State) (b : BOp) : (s.probeResult b).dm = s.dm := by
  unfold State.probeResult
  dsimp only
  (repeat' split) <;> first
    | (simp [kept @State.dropBop_fr, kept @State.setTask_fr, kept @probeMake_fr]; done)
    | (refine (State.taskDo_dm _ _ _ (fun t => ?_)).trans (by simp [kept @State.dropBop_fr, kept @State.setTask_fr, kept @probeMake_fr])
       (repeat' split) <;> first | exact keepsM_pure _ _ | simp [kept @State.dropBop_fr, kept @State.setTask_fr, kept @probeMake_fr])

@[simp] theorem State.probeResult_ctu (s : State) (b : BOp) : (s.probeResult b).ctu = s.ctu := by
  unfold State.probeResult
  dsimp only
  (repeat' split) <;> first
    | (simp [kept @State.dropBop_fr, kept @State.setTask_fr, kept @probeMake_fr]; done)
    | (refine (State.taskDo_ctu _ _ _ (fun t => ?_)).trans (by simp [kept @State.dropBop_fr, kept @State.setTask_fr, kept @probeMake_fr])
       (repeat' split) <;> first | exact keepsM_pure _ _ | simp [kept @State.dropBop_fr, kept @State.setTask_fr, kept @probeMake_fr])

@[simp] theorem State.probeResult_links (s : State) (b : BOp) : (s.probeResult b).links = s.links := by
  unfold State.probeResult
  dsimp only
  (repeat' split) <;> first
    | (simp [kept @State.dropBop_fr, kept @State.setTask_fr, kept @probeMake_fr]; done)
    | (refine (State.taskDo_links _ _ _ (fun t => ?_)).trans (by simp [kept @State.dropBop_fr, kept @State.setTask_fr, kept @probeMake_fr])
       (repeat' split) <;> first | exact keepsM_pure _ _ | simp [kept @State.dropBop_fr, kept @State.setTask_fr, kept @probeMake_fr])

@[simp] theorem State.probeResult_aplicS (s : State) (b : BOp) : (s.probeResult b).aplicS = s.aplicS := by
  unfold State.probeResult
  dsimp only
  (repeat' split) <;> first
    | (simp [kept @State.dropBop_fr, kept @State.setTask_fr, kept @probeMake_fr]; done)
    | (refine (State.taskDo_aplicS _ _ _ (fun t => ?_)).trans (by simp [kept @State.dropBop_fr, kept @State.setTask_fr, kept @probeMake_fr])
       (repeat' split) <;> first | exact keepsM_pure _ _ | simp [kept @State.dropBop_fr, kept @State.setTask_fr, kept @probeMake_fr])

@[simp] theorem State.probeResult_aplicN (s : State) (b : BOp) : (s.probeResult b).aplicN = s.aplicN := by
  unfold State.probeResult
  dsimp only
  (repeat' split) <;> first
    | (simp [kept @State.dropBop_fr, kept @State.setTask_fr, kept @probeMake_fr]; done)
    | (refine (State.taskDo_aplicN _ _ _ (fun t => ?_)).trans (by simp [kept @State.dropBop_fr, kept @State.setTask_fr, kept @probeMake_fr])
       (repeat' split) <;> first | exact keepsM_pure _ _ | simp [kept @State.dropBop_fr, kept @State.setTask_fr, kept @probeMake_fr])

@[simp] theorem State.probeResult_credits (s : State) (b : BOp) : (s.probeResult b).credits = s.credits := by
  unfold State.probeResult
  dsimp only
  (repeat' split) <;> first
    | (simp [kept @State.dropBop_fr, kept @State.setTask_fr, kept @probeMake_fr]; done)
    | (refine (State.taskDo_credits _ _ _ (fun t => ?_)).trans (by simp [kept @State.dropBop_fr, kept @State.setTask_fr, kept @probeMake_fr])
       (repeat' split) <;> first | exact keepsM_pure _ _ | simp [kept @State.dropBop_fr, kept @State.setTask_fr, kept @probeMake_fr])

@[simp] theorem State.probeResult_pkts (s : State) (b : BOp) : (s.probeResult b).pkts = s.pkts := by
  unfold State.probeResult
  dsimp only
  (repeat' split) <;> first
    | (simp [kept @State.dropBop_fr, kept @State.setTask_fr, kept @probeMake_fr]; done)
    | (refine (State.taskDo_pkts _ _ _ (fun t => ?_)).trans (by simp [kept @State.dropBop_fr, kept @State.setTask_fr, kept @probeMake_fr])
       (repeat' split) <;> first | exact keepsM_pure _ _ | simp [kept @State.dropBop_fr, kept @State.setTask_fr, kept @probeMake_fr])

@[simp] theorem State.probeResult_resp (s : State) (b : BOp) : (s.probeResult b).resp = s.resp := by
  unfold State.probeResult
  dsimp only
  (repeat' split) <;> first
    | (simp [kept @State.dropBop_fr, kept @State.setTask_fr, kept @probeMake_fr]; done)
    | (refine (State.taskDo_resp _ _ _ (fun t => ?_)).trans (by simp [kept @State.dropBop_fr, kept @State.setTask_fr, kept @probeMake_fr])
       (repeat' split) <;> first | exact keepsM_pure _ _ | simp [kept @State.dropBop_fr, kept @State.setTask_fr, kept @probeMake_fr])

theorem execProbeResult_fr (id : Nat) (s : State) {u : State} (h : execProbeResult id s = .next u) : u.pending = s.pending ∧ u.flash = s.flash ∧ u.coldOpt = s.coldOpt ∧ u.imsic = s.imsic ∧ u.dm = s.dm ∧ u.ctu = s.ctu ∧ u.links = s.links ∧ u.aplicS = s.aplicS ∧ u.aplicN = s.aplicN ∧ u.credits = s.credits ∧ u.pkts = s.pkts ∧ u.resp = s.resp ∧ u.fabric = s.fabric ∧ u.files = s.files := by
  unfold execProbeResult at h
  (try dsimp only at h); (repeat' split at h) <;> (first | (simp only [Host.Outcome.next.injEq] at h; rw [← h]) | (simp only [reduceCtorEq] at h; done) | (simp only [Option.some.injEq] at h; rw [← h])) <;> simp

theorem State.bopOver_fr (s : State) (id : Nat) : (State.bopOver s id).pending = s.pending ∧ (State.bopOver s id).flash = s.flash ∧ (State.bopOver s id).coldOpt = s.coldOpt ∧ (State.bopOver s id).mem = s.mem ∧ (State.bopOver s id).harts = s.harts ∧ (State.bopOver s id).mram = s.mram ∧ (State.bopOver s id).imsic = s.imsic ∧ (State.bopOver s id).dm = s.dm ∧ (State.bopOver s id).fx = s.fx ∧ (State.bopOver s id).ctu = s.ctu ∧ (State.bopOver s id).links = s.links ∧ (State.bopOver s id).aplicS = s.aplicS ∧ (State.bopOver s id).aplicN = s.aplicN ∧ (State.bopOver s id).credits = s.credits ∧ (State.bopOver s id).clusters = s.clusters ∧ (State.bopOver s id).homes = s.homes ∧ (State.bopOver s id).pkts = s.pkts ∧ (State.bopOver s id).resp = s.resp ∧ (State.bopOver s id).regs = s.regs ∧ (State.bopOver s id).wires = s.wires ∧ (State.bopOver s id).dmg = s.dmg ∧ (State.bopOver s id).wq = s.wq ∧ (State.bopOver s id).net = s.net ∧ (State.bopOver s id).dbInval = s.dbInval ∧ (State.bopOver s id).watch = s.watch ∧ (State.bopOver s id).pkg = s.pkg ∧ (State.bopOver s id).pmc = s.pmc ∧ (State.bopOver s id).fwLog = s.fwLog ∧ (State.bopOver s id).out = s.out ∧ (State.bopOver s id).free = s.free ∧ (State.bopOver s id).fabric = s.fabric ∧ (State.bopOver s id).files = s.files := by
  generalize h : State.bopOver s id = u
  unfold State.bopOver at h
  (try dsimp only at h); (repeat' split at h) <;> rw [← h] <;> simp [kept @State.bopError_fr, kept @State.dropBop_fr]

theorem State.pagesOver_fr (s : State) (n : Nat) : (State.pagesOver s n).pending = s.pending ∧ (State.pagesOver s n).flash = s.flash ∧ (State.pagesOver s n).coldOpt = s.coldOpt ∧ (State.pagesOver s n).mem = s.mem ∧ (State.pagesOver s n).harts = s.harts ∧ (State.pagesOver s n).mram = s.mram ∧ (State.pagesOver s n).imsic = s.imsic ∧ (State.pagesOver s n).dm = s.dm ∧ (State.pagesOver s n).fx = s.fx ∧ (State.pagesOver s n).ctu = s.ctu ∧ (State.pagesOver s n).links = s.links ∧ (State.pagesOver s n).aplicS = s.aplicS ∧ (State.pagesOver s n).aplicN = s.aplicN ∧ (State.pagesOver s n).credits = s.credits ∧ (State.pagesOver s n).clusters = s.clusters ∧ (State.pagesOver s n).homes = s.homes ∧ (State.pagesOver s n).pkts = s.pkts ∧ (State.pagesOver s n).resp = s.resp ∧ (State.pagesOver s n).regs = s.regs ∧ (State.pagesOver s n).wires = s.wires ∧ (State.pagesOver s n).dmg = s.dmg ∧ (State.pagesOver s n).wq = s.wq ∧ (State.pagesOver s n).net = s.net ∧ (State.pagesOver s n).dbInval = s.dbInval ∧ (State.pagesOver s n).watch = s.watch ∧ (State.pagesOver s n).pkg = s.pkg ∧ (State.pagesOver s n).pmc = s.pmc ∧ (State.pagesOver s n).fwLog = s.fwLog ∧ (State.pagesOver s n).out = s.out ∧ (State.pagesOver s n).free = s.free ∧ (State.pagesOver s n).fabric = s.fabric ∧ (State.pagesOver s n).files = s.files := by
  generalize h : State.pagesOver s n = u
  unfold State.pagesOver at h
  rw [← h]; simp [kept @State.eng'_fr]

theorem execExchange_fr (n : Fin 36) (s : State) {u : State} (h : execExchange n s = .next u) : u.pending = s.pending ∧ u.flash = s.flash ∧ u.coldOpt = s.coldOpt ∧ u.imsic = s.imsic ∧ u.dm = s.dm ∧ u.fx = s.fx ∧ u.ctu = s.ctu ∧ u.links = s.links ∧ u.aplicS = s.aplicS ∧ u.aplicN = s.aplicN ∧ u.credits = s.credits ∧ u.pkts = s.pkts ∧ u.resp = s.resp ∧ u.out = s.out ∧ u.fabric = s.fabric ∧ u.files = s.files := by
  unfold execExchange at h
  (first | (simp only [Host.Outcome.next.injEq] at h; rw [← h]) | (simp only [reduceCtorEq] at h; done) | (simp only [Option.some.injEq] at h; rw [← h])); simp [kept @State.takeExchange_fr]

@[simp] theorem State.giveUnlessHeld_pending (s : State) (n : Nat) (f : State → State) (hf : ∀ x0, (f x0).pending = x0.pending) : (State.giveUnlessHeld s n f).pending = s.pending := by
  unfold State.giveUnlessHeld
  first
  | (simp [*, kept @State.aimCode_fr]; done)
  | ((repeat' split) <;> simp [*, kept @State.aimCode_fr]; done)
  | ((try dsimp only); (repeat' split) <;> simp (disch := (intros; (repeat' split) <;> simp [*, kept @State.aimCode_fr])) [*, kept @State.aimCode_fr]; done)
  | (refine State.taskDo_pending _ _ _ (fun _ => ?_); (repeat' split) <;> first | exact keepsM_pure _ _ | (simp [*, kept @State.aimCode_fr]; done))

@[simp] theorem State.giveUnlessHeld_files (s : State) (n : Nat) (f : State → State) (hf : ∀ x0, (f x0).files = x0.files) : (State.giveUnlessHeld s n f).files = s.files := by
  unfold State.giveUnlessHeld
  first
  | (simp [*, kept @State.aimCode_fr]; done)
  | ((repeat' split) <;> simp [*, kept @State.aimCode_fr]; done)
  | ((try dsimp only); (repeat' split) <;> simp (disch := (intros; (repeat' split) <;> simp [*, kept @State.aimCode_fr])) [*, kept @State.aimCode_fr]; done)
  | (refine State.taskDo_files _ _ _ (fun _ => ?_); (repeat' split) <;> first | exact keepsM_pure _ _ | (simp [*, kept @State.aimCode_fr]; done))

@[simp] theorem State.giveUnlessHeld_fabric (s : State) (n : Nat) (f : State → State) (hf : ∀ x0, (f x0).fabric = x0.fabric) : (State.giveUnlessHeld s n f).fabric = s.fabric := by
  unfold State.giveUnlessHeld
  first
  | (simp [*, kept @State.aimCode_fr]; done)
  | ((repeat' split) <;> simp [*, kept @State.aimCode_fr]; done)
  | ((try dsimp only); (repeat' split) <;> simp (disch := (intros; (repeat' split) <;> simp [*, kept @State.aimCode_fr])) [*, kept @State.aimCode_fr]; done)
  | (refine State.taskDo_fabric _ _ _ (fun _ => ?_); (repeat' split) <;> first | exact keepsM_pure _ _ | (simp [*, kept @State.aimCode_fr]; done))

@[simp] theorem State.giveUnlessHeld_flash (s : State) (n : Nat) (f : State → State) (hf : ∀ x0, (f x0).flash = x0.flash) : (State.giveUnlessHeld s n f).flash = s.flash := by
  unfold State.giveUnlessHeld
  first
  | (simp [*, kept @State.aimCode_fr]; done)
  | ((repeat' split) <;> simp [*, kept @State.aimCode_fr]; done)
  | ((try dsimp only); (repeat' split) <;> simp (disch := (intros; (repeat' split) <;> simp [*, kept @State.aimCode_fr])) [*, kept @State.aimCode_fr]; done)
  | (refine State.taskDo_flash _ _ _ (fun _ => ?_); (repeat' split) <;> first | exact keepsM_pure _ _ | (simp [*, kept @State.aimCode_fr]; done))

@[simp] theorem State.giveUnlessHeld_coldOpt (s : State) (n : Nat) (f : State → State) (hf : ∀ x0, (f x0).coldOpt = x0.coldOpt) : (State.giveUnlessHeld s n f).coldOpt = s.coldOpt := by
  unfold State.giveUnlessHeld
  first
  | (simp [*, kept @State.aimCode_fr]; done)
  | ((repeat' split) <;> simp [*, kept @State.aimCode_fr]; done)
  | ((try dsimp only); (repeat' split) <;> simp (disch := (intros; (repeat' split) <;> simp [*, kept @State.aimCode_fr])) [*, kept @State.aimCode_fr]; done)
  | (refine State.taskDo_coldOpt _ _ _ (fun _ => ?_); (repeat' split) <;> first | exact keepsM_pure _ _ | (simp [*, kept @State.aimCode_fr]; done))

@[simp] theorem State.giveUnlessHeld_mem (s : State) (n : Nat) (f : State → State) (hf : ∀ x0, (f x0).mem = x0.mem) : (State.giveUnlessHeld s n f).mem = s.mem := by
  unfold State.giveUnlessHeld
  first
  | (simp [*, kept @State.aimCode_fr]; done)
  | ((repeat' split) <;> simp [*, kept @State.aimCode_fr]; done)
  | ((try dsimp only); (repeat' split) <;> simp (disch := (intros; (repeat' split) <;> simp [*, kept @State.aimCode_fr])) [*, kept @State.aimCode_fr]; done)
  | (refine State.taskDo_mem _ _ _ (fun _ => ?_); (repeat' split) <;> first | exact keepsM_pure _ _ | (simp [*, kept @State.aimCode_fr]; done))

@[simp] theorem State.giveUnlessHeld_harts (s : State) (n : Nat) (f : State → State) (hf : ∀ x0, (f x0).harts = x0.harts) : (State.giveUnlessHeld s n f).harts = s.harts := by
  unfold State.giveUnlessHeld
  first
  | (simp [*, kept @State.aimCode_fr]; done)
  | ((repeat' split) <;> simp [*, kept @State.aimCode_fr]; done)
  | ((try dsimp only); (repeat' split) <;> simp (disch := (intros; (repeat' split) <;> simp [*, kept @State.aimCode_fr])) [*, kept @State.aimCode_fr]; done)
  | (refine State.taskDo_harts _ _ _ (fun _ => ?_); (repeat' split) <;> first | exact keepsM_pure _ _ | (simp [*, kept @State.aimCode_fr]; done))

@[simp] theorem State.giveUnlessHeld_mram (s : State) (n : Nat) (f : State → State) (hf : ∀ x0, (f x0).mram = x0.mram) : (State.giveUnlessHeld s n f).mram = s.mram := by
  unfold State.giveUnlessHeld
  first
  | (simp [*, kept @State.aimCode_fr]; done)
  | ((repeat' split) <;> simp [*, kept @State.aimCode_fr]; done)
  | ((try dsimp only); (repeat' split) <;> simp (disch := (intros; (repeat' split) <;> simp [*, kept @State.aimCode_fr])) [*, kept @State.aimCode_fr]; done)
  | (refine State.taskDo_mram _ _ _ (fun _ => ?_); (repeat' split) <;> first | exact keepsM_pure _ _ | (simp [*, kept @State.aimCode_fr]; done))

@[simp] theorem State.giveUnlessHeld_imsic (s : State) (n : Nat) (f : State → State) (hf : ∀ x0, (f x0).imsic = x0.imsic) : (State.giveUnlessHeld s n f).imsic = s.imsic := by
  unfold State.giveUnlessHeld
  first
  | (simp [*, kept @State.aimCode_fr]; done)
  | ((repeat' split) <;> simp [*, kept @State.aimCode_fr]; done)
  | ((try dsimp only); (repeat' split) <;> simp (disch := (intros; (repeat' split) <;> simp [*, kept @State.aimCode_fr])) [*, kept @State.aimCode_fr]; done)
  | (refine State.taskDo_imsic _ _ _ (fun _ => ?_); (repeat' split) <;> first | exact keepsM_pure _ _ | (simp [*, kept @State.aimCode_fr]; done))

@[simp] theorem State.giveUnlessHeld_eng (s : State) (n : Nat) (f : State → State) (hf : ∀ x0, (f x0).eng = x0.eng) : (State.giveUnlessHeld s n f).eng = s.eng := by
  unfold State.giveUnlessHeld
  first
  | (simp [*, kept @State.aimCode_fr]; done)
  | ((repeat' split) <;> simp [*, kept @State.aimCode_fr]; done)
  | ((try dsimp only); (repeat' split) <;> simp (disch := (intros; (repeat' split) <;> simp [*, kept @State.aimCode_fr])) [*, kept @State.aimCode_fr]; done)
  | (refine State.taskDo_eng _ _ _ (fun _ => ?_); (repeat' split) <;> first | exact keepsM_pure _ _ | (simp [*, kept @State.aimCode_fr]; done))

@[simp] theorem State.giveUnlessHeld_dm (s : State) (n : Nat) (f : State → State) (hf : ∀ x0, (f x0).dm = x0.dm) : (State.giveUnlessHeld s n f).dm = s.dm := by
  unfold State.giveUnlessHeld
  first
  | (simp [*, kept @State.aimCode_fr]; done)
  | ((repeat' split) <;> simp [*, kept @State.aimCode_fr]; done)
  | ((try dsimp only); (repeat' split) <;> simp (disch := (intros; (repeat' split) <;> simp [*, kept @State.aimCode_fr])) [*, kept @State.aimCode_fr]; done)
  | (refine State.taskDo_dm _ _ _ (fun _ => ?_); (repeat' split) <;> first | exact keepsM_pure _ _ | (simp [*, kept @State.aimCode_fr]; done))

@[simp] theorem State.giveUnlessHeld_fx (s : State) (n : Nat) (f : State → State) (hf : ∀ x0, (f x0).fx = x0.fx) : (State.giveUnlessHeld s n f).fx = s.fx := by
  unfold State.giveUnlessHeld
  first
  | (simp [*, kept @State.aimCode_fr]; done)
  | ((repeat' split) <;> simp [*, kept @State.aimCode_fr]; done)
  | ((try dsimp only); (repeat' split) <;> simp (disch := (intros; (repeat' split) <;> simp [*, kept @State.aimCode_fr])) [*, kept @State.aimCode_fr]; done)
  | (refine State.taskDo_fx _ _ _ (fun _ => ?_); (repeat' split) <;> first | exact keepsM_pure _ _ | (simp [*, kept @State.aimCode_fr]; done))

@[simp] theorem State.giveUnlessHeld_ctu (s : State) (n : Nat) (f : State → State) (hf : ∀ x0, (f x0).ctu = x0.ctu) : (State.giveUnlessHeld s n f).ctu = s.ctu := by
  unfold State.giveUnlessHeld
  first
  | (simp [*, kept @State.aimCode_fr]; done)
  | ((repeat' split) <;> simp [*, kept @State.aimCode_fr]; done)
  | ((try dsimp only); (repeat' split) <;> simp (disch := (intros; (repeat' split) <;> simp [*, kept @State.aimCode_fr])) [*, kept @State.aimCode_fr]; done)
  | (refine State.taskDo_ctu _ _ _ (fun _ => ?_); (repeat' split) <;> first | exact keepsM_pure _ _ | (simp [*, kept @State.aimCode_fr]; done))

@[simp] theorem State.giveUnlessHeld_links (s : State) (n : Nat) (f : State → State) (hf : ∀ x0, (f x0).links = x0.links) : (State.giveUnlessHeld s n f).links = s.links := by
  unfold State.giveUnlessHeld
  first
  | (simp [*, kept @State.aimCode_fr]; done)
  | ((repeat' split) <;> simp [*, kept @State.aimCode_fr]; done)
  | ((try dsimp only); (repeat' split) <;> simp (disch := (intros; (repeat' split) <;> simp [*, kept @State.aimCode_fr])) [*, kept @State.aimCode_fr]; done)
  | (refine State.taskDo_links _ _ _ (fun _ => ?_); (repeat' split) <;> first | exact keepsM_pure _ _ | (simp [*, kept @State.aimCode_fr]; done))

@[simp] theorem State.giveUnlessHeld_aplicS (s : State) (n : Nat) (f : State → State) (hf : ∀ x0, (f x0).aplicS = x0.aplicS) : (State.giveUnlessHeld s n f).aplicS = s.aplicS := by
  unfold State.giveUnlessHeld
  first
  | (simp [*, kept @State.aimCode_fr]; done)
  | ((repeat' split) <;> simp [*, kept @State.aimCode_fr]; done)
  | ((try dsimp only); (repeat' split) <;> simp (disch := (intros; (repeat' split) <;> simp [*, kept @State.aimCode_fr])) [*, kept @State.aimCode_fr]; done)
  | (refine State.taskDo_aplicS _ _ _ (fun _ => ?_); (repeat' split) <;> first | exact keepsM_pure _ _ | (simp [*, kept @State.aimCode_fr]; done))

@[simp] theorem State.giveUnlessHeld_aplicN (s : State) (n : Nat) (f : State → State) (hf : ∀ x0, (f x0).aplicN = x0.aplicN) : (State.giveUnlessHeld s n f).aplicN = s.aplicN := by
  unfold State.giveUnlessHeld
  first
  | (simp [*, kept @State.aimCode_fr]; done)
  | ((repeat' split) <;> simp [*, kept @State.aimCode_fr]; done)
  | ((try dsimp only); (repeat' split) <;> simp (disch := (intros; (repeat' split) <;> simp [*, kept @State.aimCode_fr])) [*, kept @State.aimCode_fr]; done)
  | (refine State.taskDo_aplicN _ _ _ (fun _ => ?_); (repeat' split) <;> first | exact keepsM_pure _ _ | (simp [*, kept @State.aimCode_fr]; done))

@[simp] theorem State.giveUnlessHeld_credits (s : State) (n : Nat) (f : State → State) (hf : ∀ x0, (f x0).credits = x0.credits) : (State.giveUnlessHeld s n f).credits = s.credits := by
  unfold State.giveUnlessHeld
  first
  | (simp [*, kept @State.aimCode_fr]; done)
  | ((repeat' split) <;> simp [*, kept @State.aimCode_fr]; done)
  | ((try dsimp only); (repeat' split) <;> simp (disch := (intros; (repeat' split) <;> simp [*, kept @State.aimCode_fr])) [*, kept @State.aimCode_fr]; done)
  | (refine State.taskDo_credits _ _ _ (fun _ => ?_); (repeat' split) <;> first | exact keepsM_pure _ _ | (simp [*, kept @State.aimCode_fr]; done))

@[simp] theorem State.giveUnlessHeld_clusters (s : State) (n : Nat) (f : State → State) (hf : ∀ x0, (f x0).clusters = x0.clusters) : (State.giveUnlessHeld s n f).clusters = s.clusters := by
  unfold State.giveUnlessHeld
  first
  | (simp [*, kept @State.aimCode_fr]; done)
  | ((repeat' split) <;> simp [*, kept @State.aimCode_fr]; done)
  | ((try dsimp only); (repeat' split) <;> simp (disch := (intros; (repeat' split) <;> simp [*, kept @State.aimCode_fr])) [*, kept @State.aimCode_fr]; done)
  | (refine State.taskDo_clusters _ _ _ (fun _ => ?_); (repeat' split) <;> first | exact keepsM_pure _ _ | (simp [*, kept @State.aimCode_fr]; done))

@[simp] theorem State.giveUnlessHeld_homes (s : State) (n : Nat) (f : State → State) (hf : ∀ x0, (f x0).homes = x0.homes) : (State.giveUnlessHeld s n f).homes = s.homes := by
  unfold State.giveUnlessHeld
  first
  | (simp [*, kept @State.aimCode_fr]; done)
  | ((repeat' split) <;> simp [*, kept @State.aimCode_fr]; done)
  | ((try dsimp only); (repeat' split) <;> simp (disch := (intros; (repeat' split) <;> simp [*, kept @State.aimCode_fr])) [*, kept @State.aimCode_fr]; done)
  | (refine State.taskDo_homes _ _ _ (fun _ => ?_); (repeat' split) <;> first | exact keepsM_pure _ _ | (simp [*, kept @State.aimCode_fr]; done))

@[simp] theorem State.giveUnlessHeld_pkts (s : State) (n : Nat) (f : State → State) (hf : ∀ x0, (f x0).pkts = x0.pkts) : (State.giveUnlessHeld s n f).pkts = s.pkts := by
  unfold State.giveUnlessHeld
  first
  | (simp [*, kept @State.aimCode_fr]; done)
  | ((repeat' split) <;> simp [*, kept @State.aimCode_fr]; done)
  | ((try dsimp only); (repeat' split) <;> simp (disch := (intros; (repeat' split) <;> simp [*, kept @State.aimCode_fr])) [*, kept @State.aimCode_fr]; done)
  | (refine State.taskDo_pkts _ _ _ (fun _ => ?_); (repeat' split) <;> first | exact keepsM_pure _ _ | (simp [*, kept @State.aimCode_fr]; done))

@[simp] theorem State.giveUnlessHeld_resp (s : State) (n : Nat) (f : State → State) (hf : ∀ x0, (f x0).resp = x0.resp) : (State.giveUnlessHeld s n f).resp = s.resp := by
  unfold State.giveUnlessHeld
  first
  | (simp [*, kept @State.aimCode_fr]; done)
  | ((repeat' split) <;> simp [*, kept @State.aimCode_fr]; done)
  | ((try dsimp only); (repeat' split) <;> simp (disch := (intros; (repeat' split) <;> simp [*, kept @State.aimCode_fr])) [*, kept @State.aimCode_fr]; done)
  | (refine State.taskDo_resp _ _ _ (fun _ => ?_); (repeat' split) <;> first | exact keepsM_pure _ _ | (simp [*, kept @State.aimCode_fr]; done))

@[simp] theorem State.giveUnlessHeld_wires (s : State) (n : Nat) (f : State → State) (hf : ∀ x0, (f x0).wires = x0.wires) : (State.giveUnlessHeld s n f).wires = s.wires := by
  unfold State.giveUnlessHeld
  first
  | (simp [*, kept @State.aimCode_fr]; done)
  | ((repeat' split) <;> simp [*, kept @State.aimCode_fr]; done)
  | ((try dsimp only); (repeat' split) <;> simp (disch := (intros; (repeat' split) <;> simp [*, kept @State.aimCode_fr])) [*, kept @State.aimCode_fr]; done)
  | (refine State.taskDo_wires _ _ _ (fun _ => ?_); (repeat' split) <;> first | exact keepsM_pure _ _ | (simp [*, kept @State.aimCode_fr]; done))

@[simp] theorem State.giveUnlessHeld_dmg (s : State) (n : Nat) (f : State → State) (hf : ∀ x0, (f x0).dmg = x0.dmg) : (State.giveUnlessHeld s n f).dmg = s.dmg := by
  unfold State.giveUnlessHeld
  first
  | (simp [*, kept @State.aimCode_fr]; done)
  | ((repeat' split) <;> simp [*, kept @State.aimCode_fr]; done)
  | ((try dsimp only); (repeat' split) <;> simp (disch := (intros; (repeat' split) <;> simp [*, kept @State.aimCode_fr])) [*, kept @State.aimCode_fr]; done)
  | (refine State.taskDo_dmg _ _ _ (fun _ => ?_); (repeat' split) <;> first | exact keepsM_pure _ _ | (simp [*, kept @State.aimCode_fr]; done))

@[simp] theorem State.giveUnlessHeld_wq (s : State) (n : Nat) (f : State → State) (hf : ∀ x0, (f x0).wq = x0.wq) : (State.giveUnlessHeld s n f).wq = s.wq := by
  unfold State.giveUnlessHeld
  first
  | (simp [*, kept @State.aimCode_fr]; done)
  | ((repeat' split) <;> simp [*, kept @State.aimCode_fr]; done)
  | ((try dsimp only); (repeat' split) <;> simp (disch := (intros; (repeat' split) <;> simp [*, kept @State.aimCode_fr])) [*, kept @State.aimCode_fr]; done)
  | (refine State.taskDo_wq _ _ _ (fun _ => ?_); (repeat' split) <;> first | exact keepsM_pure _ _ | (simp [*, kept @State.aimCode_fr]; done))

@[simp] theorem State.giveUnlessHeld_net (s : State) (n : Nat) (f : State → State) (hf : ∀ x0, (f x0).net = x0.net) : (State.giveUnlessHeld s n f).net = s.net := by
  unfold State.giveUnlessHeld
  first
  | (simp [*, kept @State.aimCode_fr]; done)
  | ((repeat' split) <;> simp [*, kept @State.aimCode_fr]; done)
  | ((try dsimp only); (repeat' split) <;> simp (disch := (intros; (repeat' split) <;> simp [*, kept @State.aimCode_fr])) [*, kept @State.aimCode_fr]; done)
  | (refine State.taskDo_net _ _ _ (fun _ => ?_); (repeat' split) <;> first | exact keepsM_pure _ _ | (simp [*, kept @State.aimCode_fr]; done))

@[simp] theorem State.giveUnlessHeld_dbInval (s : State) (n : Nat) (f : State → State) (hf : ∀ x0, (f x0).dbInval = x0.dbInval) : (State.giveUnlessHeld s n f).dbInval = s.dbInval := by
  unfold State.giveUnlessHeld
  first
  | (simp [*, kept @State.aimCode_fr]; done)
  | ((repeat' split) <;> simp [*, kept @State.aimCode_fr]; done)
  | ((try dsimp only); (repeat' split) <;> simp (disch := (intros; (repeat' split) <;> simp [*, kept @State.aimCode_fr])) [*, kept @State.aimCode_fr]; done)
  | (refine State.taskDo_dbInval _ _ _ (fun _ => ?_); (repeat' split) <;> first | exact keepsM_pure _ _ | (simp [*, kept @State.aimCode_fr]; done))

@[simp] theorem State.giveUnlessHeld_watch (s : State) (n : Nat) (f : State → State) (hf : ∀ x0, (f x0).watch = x0.watch) : (State.giveUnlessHeld s n f).watch = s.watch := by
  unfold State.giveUnlessHeld
  first
  | (simp [*, kept @State.aimCode_fr]; done)
  | ((repeat' split) <;> simp [*, kept @State.aimCode_fr]; done)
  | ((try dsimp only); (repeat' split) <;> simp (disch := (intros; (repeat' split) <;> simp [*, kept @State.aimCode_fr])) [*, kept @State.aimCode_fr]; done)
  | (refine State.taskDo_watch _ _ _ (fun _ => ?_); (repeat' split) <;> first | exact keepsM_pure _ _ | (simp [*, kept @State.aimCode_fr]; done))

@[simp] theorem State.giveUnlessHeld_pkg (s : State) (n : Nat) (f : State → State) (hf : ∀ x0, (f x0).pkg = x0.pkg) : (State.giveUnlessHeld s n f).pkg = s.pkg := by
  unfold State.giveUnlessHeld
  first
  | (simp [*, kept @State.aimCode_fr]; done)
  | ((repeat' split) <;> simp [*, kept @State.aimCode_fr]; done)
  | ((try dsimp only); (repeat' split) <;> simp (disch := (intros; (repeat' split) <;> simp [*, kept @State.aimCode_fr])) [*, kept @State.aimCode_fr]; done)
  | (refine State.taskDo_pkg _ _ _ (fun _ => ?_); (repeat' split) <;> first | exact keepsM_pure _ _ | (simp [*, kept @State.aimCode_fr]; done))

@[simp] theorem State.giveUnlessHeld_pmc (s : State) (n : Nat) (f : State → State) (hf : ∀ x0, (f x0).pmc = x0.pmc) : (State.giveUnlessHeld s n f).pmc = s.pmc := by
  unfold State.giveUnlessHeld
  first
  | (simp [*, kept @State.aimCode_fr]; done)
  | ((repeat' split) <;> simp [*, kept @State.aimCode_fr]; done)
  | ((try dsimp only); (repeat' split) <;> simp (disch := (intros; (repeat' split) <;> simp [*, kept @State.aimCode_fr])) [*, kept @State.aimCode_fr]; done)
  | (refine State.taskDo_pmc _ _ _ (fun _ => ?_); (repeat' split) <;> first | exact keepsM_pure _ _ | (simp [*, kept @State.aimCode_fr]; done))

@[simp] theorem State.giveUnlessHeld_fwLog (s : State) (n : Nat) (f : State → State) (hf : ∀ x0, (f x0).fwLog = x0.fwLog) : (State.giveUnlessHeld s n f).fwLog = s.fwLog := by
  unfold State.giveUnlessHeld
  first
  | (simp [*, kept @State.aimCode_fr]; done)
  | ((repeat' split) <;> simp [*, kept @State.aimCode_fr]; done)
  | ((try dsimp only); (repeat' split) <;> simp (disch := (intros; (repeat' split) <;> simp [*, kept @State.aimCode_fr])) [*, kept @State.aimCode_fr]; done)
  | (refine State.taskDo_fwLog _ _ _ (fun _ => ?_); (repeat' split) <;> first | exact keepsM_pure _ _ | (simp [*, kept @State.aimCode_fr]; done))

@[simp] theorem State.giveUnlessHeld_out (s : State) (n : Nat) (f : State → State) (hf : ∀ x0, (f x0).out = x0.out) : (State.giveUnlessHeld s n f).out = s.out := by
  unfold State.giveUnlessHeld
  first
  | (simp [*, kept @State.aimCode_fr]; done)
  | ((repeat' split) <;> simp [*, kept @State.aimCode_fr]; done)
  | ((try dsimp only); (repeat' split) <;> simp (disch := (intros; (repeat' split) <;> simp [*, kept @State.aimCode_fr])) [*, kept @State.aimCode_fr]; done)
  | (refine State.taskDo_out _ _ _ (fun _ => ?_); (repeat' split) <;> first | exact keepsM_pure _ _ | (simp [*, kept @State.aimCode_fr]; done))

@[simp] theorem State.giveUnlessHeld_free (s : State) (n : Nat) (f : State → State) (hf : ∀ x0, (f x0).free = x0.free) : (State.giveUnlessHeld s n f).free = s.free := by
  unfold State.giveUnlessHeld
  first
  | (simp [*, kept @State.aimCode_fr]; done)
  | ((repeat' split) <;> simp [*, kept @State.aimCode_fr]; done)
  | ((try dsimp only); (repeat' split) <;> simp (disch := (intros; (repeat' split) <;> simp [*, kept @State.aimCode_fr])) [*, kept @State.aimCode_fr]; done)
  | (refine State.taskDo_free _ _ _ (fun _ => ?_); (repeat' split) <;> first | exact keepsM_pure _ _ | (simp [*, kept @State.aimCode_fr]; done))

theorem execDispatch_fr (n : Fin 36) (s : State) {u : State} (h : execDispatch n s = .next u) : u.pending = s.pending ∧ u.flash = s.flash ∧ u.coldOpt = s.coldOpt ∧ u.imsic = s.imsic ∧ u.dm = s.dm ∧ u.fx = s.fx ∧ u.ctu = s.ctu ∧ u.links = s.links ∧ u.aplicS = s.aplicS ∧ u.aplicN = s.aplicN ∧ u.credits = s.credits ∧ u.pkts = s.pkts ∧ u.resp = s.resp ∧ u.out = s.out ∧ u.fabric = s.fabric ∧ u.files = s.files := by
  unfold execDispatch at h
  (first | (simp only [Host.Outcome.next.injEq] at h; rw [← h]) | (simp only [reduceCtorEq] at h; done) | (simp only [Option.some.injEq] at h; rw [← h])); simp [kept @State.dispatch_fr]

theorem execRecvTaskDispatch_fr (n : Fin 36) (s : State) {u : State} (h : execRecvTaskDispatch n s = .next u) : u.pending = s.pending ∧ u.flash = s.flash ∧ u.coldOpt = s.coldOpt ∧ u.imsic = s.imsic ∧ u.dm = s.dm ∧ u.fx = s.fx ∧ u.ctu = s.ctu ∧ u.links = s.links ∧ u.aplicS = s.aplicS ∧ u.aplicN = s.aplicN ∧ u.credits = s.credits ∧ u.pkts = s.pkts ∧ u.resp = s.resp ∧ u.out = s.out ∧ u.fabric = s.fabric ∧ u.files = s.files := by
  unfold execRecvTaskDispatch at h
  (first | (simp only [Host.Outcome.next.injEq] at h; rw [← h]) | (simp only [reduceCtorEq] at h; done) | (simp only [Option.some.injEq] at h; rw [← h])); simp [kept @State.dispatch_fr]

theorem execCbufRewriteDone_fr (n : Fin 36) (s : State) {u : State} (h : execCbufRewriteDone n s = .next u) : u.pending = s.pending ∧ u.flash = s.flash ∧ u.coldOpt = s.coldOpt ∧ u.mem = s.mem ∧ u.harts = s.harts ∧ u.mram = s.mram ∧ u.imsic = s.imsic ∧ u.dm = s.dm ∧ u.fx = s.fx ∧ u.ctu = s.ctu ∧ u.links = s.links ∧ u.aplicS = s.aplicS ∧ u.aplicN = s.aplicN ∧ u.credits = s.credits ∧ u.clusters = s.clusters ∧ u.homes = s.homes ∧ u.pkts = s.pkts ∧ u.resp = s.resp ∧ u.wires = s.wires ∧ u.dmg = s.dmg ∧ u.wq = s.wq ∧ u.net = s.net ∧ u.dbInval = s.dbInval ∧ u.watch = s.watch ∧ u.pkg = s.pkg ∧ u.pmc = s.pmc ∧ u.fwLog = s.fwLog ∧ u.out = s.out ∧ u.free = s.free ∧ u.fabric = s.fabric ∧ u.files = s.files := by
  unfold execCbufRewriteDone at h
  (first | (simp only [Host.Outcome.next.injEq] at h; rw [← h]) | (simp only [reduceCtorEq] at h; done) | (simp only [Option.some.injEq] at h; rw [← h])); simp [kept @State.rewritten_fr]

theorem execCbufScrub_fr (n : Fin 36) (s : State) {u : State} (h : execCbufScrub n s = .next u) : u.pending = s.pending ∧ u.flash = s.flash ∧ u.coldOpt = s.coldOpt ∧ u.mem = s.mem ∧ u.harts = s.harts ∧ u.imsic = s.imsic ∧ u.dm = s.dm ∧ u.fx = s.fx ∧ u.ctu = s.ctu ∧ u.links = s.links ∧ u.aplicS = s.aplicS ∧ u.aplicN = s.aplicN ∧ u.credits = s.credits ∧ u.clusters = s.clusters ∧ u.homes = s.homes ∧ u.pkts = s.pkts ∧ u.resp = s.resp ∧ u.wires = s.wires ∧ u.dmg = s.dmg ∧ u.wq = s.wq ∧ u.net = s.net ∧ u.dbInval = s.dbInval ∧ u.watch = s.watch ∧ u.pkg = s.pkg ∧ u.fwLog = s.fwLog ∧ u.out = s.out ∧ u.fabric = s.fabric ∧ u.files = s.files := by
  unfold execCbufScrub at h
  (try dsimp only at h); (repeat' split at h) <;> (first | (simp only [Host.Outcome.next.injEq] at h; rw [← h]) | (simp only [reduceCtorEq] at h; done) | (simp only [Option.some.injEq] at h; rw [← h])) <;> simp [kept @State.cbCorrect_fr, kept @State.cbRecord_fr, kept @State.setSlice_fr]

theorem execTaskEnd_fr (n : Fin 36) (s : State) {u : State} (h : execTaskEnd n s = .next u) : u.pending = s.pending ∧ u.flash = s.flash ∧ u.coldOpt = s.coldOpt ∧ u.imsic = s.imsic ∧ u.dm = s.dm ∧ u.ctu = s.ctu ∧ u.links = s.links ∧ u.aplicS = s.aplicS ∧ u.aplicN = s.aplicN ∧ u.credits = s.credits ∧ u.pkts = s.pkts ∧ u.resp = s.resp ∧ u.fabric = s.fabric ∧ u.files = s.files := by
  unfold execTaskEnd at h
  (try dsimp only at h); (repeat' split at h) <;> (first | (simp only [Host.Outcome.next.injEq] at h; rw [← h]) | (simp only [reduceCtorEq] at h; done) | (simp only [Option.some.injEq] at h; rw [← h])) <;> simp [kept @State.fenceUnit_fr, kept @State.taskEnd_fr]

theorem execCompletionWrite_fr (ring : Fin 4096) (seq : Nat) (s : State) {u : State} (h : execCompletionWrite ring seq s = .next u) : u.pending = s.pending ∧ u.flash = s.flash ∧ u.coldOpt = s.coldOpt ∧ u.dm = s.dm ∧ u.ctu = s.ctu ∧ u.links = s.links ∧ u.aplicS = s.aplicS ∧ u.aplicN = s.aplicN ∧ u.credits = s.credits ∧ u.pkts = s.pkts ∧ u.resp = s.resp ∧ u.free = s.free ∧ u.fabric = s.fabric ∧ u.files = s.files := by
  unfold execCompletionWrite at h
  (try dsimp only at h); (repeat' split at h) <;> (first | (simp only [Host.Outcome.next.injEq] at h; rw [← h]) | (simp only [reduceCtorEq] at h; done) | (simp only [Option.some.injEq] at h; rw [← h])) <;> simp [kept @State.complete_fr]

end Sys2Proof.Machine
end

