-- ==== Sys2Proof/Laws/Frame/HartMem.lean ====
section
/-! SUPPORT. What the operations of Machine/HartMem.lean leave unchanged. -/

set_option Elab.async false
set_option linter.all false

namespace Sys2Proof.Machine
open Sys2Proof

theorem State.memFault_fr (s : State) (hh : Nat) (f : TFault) (k : AKind) (va : Nat) : (State.memFault s hh f k va).pending = s.pending ∧ (State.memFault s hh f k va).flash = s.flash ∧ (State.memFault s hh f k va).coldOpt = s.coldOpt ∧ (State.memFault s hh f k va).imsic = s.imsic ∧ (State.memFault s hh f k va).eng = s.eng ∧ (State.memFault s hh f k va).dm = s.dm ∧ (State.memFault s hh f k va).fx = s.fx ∧ (State.memFault s hh f k va).ctu = s.ctu ∧ (State.memFault s hh f k va).links = s.links ∧ (State.memFault s hh f k va).aplicS = s.aplicS ∧ (State.memFault s hh f k va).aplicN = s.aplicN ∧ (State.memFault s hh f k va).credits = s.credits ∧ (State.memFault s hh f k va).pkts = s.pkts ∧ (State.memFault s hh f k va).resp = s.resp ∧ (State.memFault s hh f k va).out = s.out ∧ (State.memFault s hh f k va).fabric = s.fabric ∧ (State.memFault s hh f k va).files = s.files := by
  generalize h : State.memFault s hh f k va = u
  unfold State.memFault at h
  (try dsimp only at h); (repeat' split at h) <;> rw [← h] <;> simp [kept @State.except_fr, kept @State.exceptG_fr]

theorem State.shareNow_fr (s : State) (c ln : Nat) (who : Ident) {d : LineData} {u : State} (h : State.shareNow s c ln who = some (d, u)) : u.pending = s.pending ∧ u.flash = s.flash ∧ u.coldOpt = s.coldOpt ∧ u.mem = s.mem ∧ u.imsic = s.imsic ∧ u.eng = s.eng ∧ u.dm = s.dm ∧ u.fx = s.fx ∧ u.ctu = s.ctu ∧ u.links = s.links ∧ u.aplicS = s.aplicS ∧ u.aplicN = s.aplicN ∧ u.credits = s.credits ∧ u.pkts = s.pkts ∧ u.resp = s.resp ∧ u.dmg = s.dmg ∧ u.dbInval = s.dbInval ∧ u.watch = s.watch ∧ u.fwLog = s.fwLog ∧ u.out = s.out ∧ u.free = s.free ∧ u.fabric = s.fabric ∧ u.files = s.files ∧ u.files = s.files := by
  have k {β : Type} (g : State → β) (h1 : ∀ s t k w, g (State.pmcStop s t k w) = g s) (h2 : ∀ s c l, g (State.putLine s c l) = g s)
      (h3 : ∀ s l k kc w, g (State.pmcMem s l k kc w) = g s) (h4 : ∀ s l k, g (State.readLineQ s l k).2 = g s)
      (h5 : ∀ s t x a b e, g (State.act s t x a b e) = g s) (h6 : ∀ s c l, g (State.installLine s c l) = g s)
      (h7 : ∀ (s : State) n, g { s with net := n } = g s) : g u = g s := by
    unfold State.shareNow at h
    dsimp only at h
    split at h
    · cases h
    · rename_i kept got v e
      have hv : g v = g s := by
        split at e
        · cases e; exact h1 _ _ _ _
        · cases hf : (State.cluster (State.pmcStop s (State.homeFor s (agentStop c) ln) 0 who) _).find ln with
          | none => rw [hf] at e; cases e
          | some p => rw [hf] at e; cases e; rw [h2, h1, h1]
      cases h
      rw [h6, h7, h5]
      split
      · exact hv
      · dsimp only; rw [h4, h3, h1, hv]
  refine ⟨?_, ?_, ?_, ?_, ?_, ?_, ?_, ?_, ?_, ?_, ?_, ?_, ?_, ?_, ?_, ?_, ?_, ?_, ?_, ?_, ?_, ?_, ?_, ?_⟩ <;> (refine k _ ?_ ?_ ?_ ?_ ?_ ?_ ?_ <;> (intros; first | rfl | simp [kept @State.act_fr, kept @State.installLine_fr, kept @State.pmcMem_fr, kept @State.pmcStop_fr, kept @State.putLine_fr, kept @State.readLineQ_fr]))

theorem State.walkLine_fr (s : State) (c : Nat) (ln : Nat) (who : Ident) : (State.walkLine s c ln who).2.2.pending = s.pending ∧ (State.walkLine s c ln who).2.2.flash = s.flash ∧ (State.walkLine s c ln who).2.2.coldOpt = s.coldOpt ∧ (State.walkLine s c ln who).2.2.mem = s.mem ∧ (State.walkLine s c ln who).2.2.imsic = s.imsic ∧ (State.walkLine s c ln who).2.2.eng = s.eng ∧ (State.walkLine s c ln who).2.2.dm = s.dm ∧ (State.walkLine s c ln who).2.2.fx = s.fx ∧ (State.walkLine s c ln who).2.2.ctu = s.ctu ∧ (State.walkLine s c ln who).2.2.links = s.links ∧ (State.walkLine s c ln who).2.2.aplicS = s.aplicS ∧ (State.walkLine s c ln who).2.2.aplicN = s.aplicN ∧ (State.walkLine s c ln who).2.2.credits = s.credits ∧ (State.walkLine s c ln who).2.2.pkts = s.pkts ∧ (State.walkLine s c ln who).2.2.resp = s.resp ∧ (State.walkLine s c ln who).2.2.dmg = s.dmg ∧ (State.walkLine s c ln who).2.2.dbInval = s.dbInval ∧ (State.walkLine s c ln who).2.2.watch = s.watch ∧ (State.walkLine s c ln who).2.2.out = s.out ∧ (State.walkLine s c ln who).2.2.free = s.free ∧ (State.walkLine s c ln who).2.2.fabric = s.fabric ∧ (State.walkLine s c ln who).2.2.files = s.files := by
  generalize h : (State.walkLine s c ln who).2.2 = u
  unfold State.walkLine at h
  dsimp only at h
  split at h
  · split at h <;> rw [← h] <;> simp [kept @State.putLine_fr, kept @State.readLine_fr]
  · split at h
    · rw [← h]; simp [kept @State.readLine_fr]
    · split at h
      · rename_i v e
        have e := congrArg Prod.snd e
        dsimp only at e
        split at h
        · rename_i d w hs
          have hs := State.shareNow_fr _ _ _ _ hs
          rw [← h]; simp only [hs]; rw [← e]; simp [kept @State.checkAcc_fr]
        · rw [← h, ← e]; simp [kept @State.checkAcc_fr, kept @State.readLine_fr]
      · rename_i e
        have e := congrArg Prod.snd e
        dsimp only at e
        rw [← h]; dsimp only; rw [← e]; simp [kept @State.checkAcc_fr]

theorem State.fetchPte_fr (s : State) (x : XCtx) (pa : Nat) : (State.fetchPte s x pa).2.pending = s.pending ∧ (State.fetchPte s x pa).2.flash = s.flash ∧ (State.fetchPte s x pa).2.coldOpt = s.coldOpt ∧ (State.fetchPte s x pa).2.mem = s.mem ∧ (State.fetchPte s x pa).2.imsic = s.imsic ∧ (State.fetchPte s x pa).2.eng = s.eng ∧ (State.fetchPte s x pa).2.dm = s.dm ∧ (State.fetchPte s x pa).2.fx = s.fx ∧ (State.fetchPte s x pa).2.ctu = s.ctu ∧ (State.fetchPte s x pa).2.links = s.links ∧ (State.fetchPte s x pa).2.aplicS = s.aplicS ∧ (State.fetchPte s x pa).2.aplicN = s.aplicN ∧ (State.fetchPte s x pa).2.credits = s.credits ∧ (State.fetchPte s x pa).2.pkts = s.pkts ∧ (State.fetchPte s x pa).2.resp = s.resp ∧ (State.fetchPte s x pa).2.dmg = s.dmg ∧ (State.fetchPte s x pa).2.dbInval = s.dbInval ∧ (State.fetchPte s x pa).2.watch = s.watch ∧ (State.fetchPte s x pa).2.out = s.out ∧ (State.fetchPte s x pa).2.free = s.free ∧ (State.fetchPte s x pa).2.fabric = s.fabric ∧ (State.fetchPte s x pa).2.files = s.files := by
  generalize h : (State.fetchPte s x pa).2 = u
  unfold State.fetchPte at h
  (try dsimp only at h); (repeat' split at h) <;> (rw [← h];  (try simp only [Prod.ext_iff] at *); (try casesm* _ ∧ _); (try casesm* @Eq State _ _); (try simp [*, kept @State.hev_fr, kept @State.recordErr_fr, kept @State.walkLine_fr]))

@[simp] theorem State.descend_pending (s : State) (x : XCtx) (st : TStage) (va top : Nat) (at_ : Nat → State → Except TFault (Nat × List TEntry) × State)
    (hat : ∀ p s, (at_ p s).2.pending = s.pending) (n tbl root : Nat) (glob : Bool) (acc : List TEntry) :
    (s.descend x st va top at_ n tbl root glob acc).2.pending = s.pending := by
  induction n generalizing s tbl glob acc with
  | zero => rfl
  | succ n ih =>
    unfold State.descend
    dsimp only
    (repeat' split) <;> ((try simp only [Prod.ext_iff] at *); (try casesm* _ ∧ _); (try casesm* @Eq State _ _); (try simp [ih, hat, kept @State.fetchPte_fr]))

@[simp] theorem State.descend_files (s : State) (x : XCtx) (st : TStage) (va top : Nat) (at_ : Nat → State → Except TFault (Nat × List TEntry) × State)
    (hat : ∀ p s, (at_ p s).2.files = s.files) (n tbl root : Nat) (glob : Bool) (acc : List TEntry) :
    (s.descend x st va top at_ n tbl root glob acc).2.files = s.files := by
  induction n generalizing s tbl glob acc with
  | zero => rfl
  | succ n ih =>
    unfold State.descend
    dsimp only
    (repeat' split) <;> ((try simp only [Prod.ext_iff] at *); (try casesm* _ ∧ _); (try casesm* @Eq State _ _); (try simp [ih, hat, kept @State.fetchPte_fr]))

@[simp] theorem State.descend_fabric (s : State) (x : XCtx) (st : TStage) (va top : Nat) (at_ : Nat → State → Except TFault (Nat × List TEntry) × State)
    (hat : ∀ p s, (at_ p s).2.fabric = s.fabric) (n tbl root : Nat) (glob : Bool) (acc : List TEntry) :
    (s.descend x st va top at_ n tbl root glob acc).2.fabric = s.fabric := by
  induction n generalizing s tbl glob acc with
  | zero => rfl
  | succ n ih =>
    unfold State.descend
    dsimp only
    (repeat' split) <;> ((try simp only [Prod.ext_iff] at *); (try casesm* _ ∧ _); (try casesm* @Eq State _ _); (try simp [ih, hat, kept @State.fetchPte_fr]))

@[simp] theorem State.descend_flash (s : State) (x : XCtx) (st : TStage) (va top : Nat) (at_ : Nat → State → Except TFault (Nat × List TEntry) × State)
    (hat : ∀ p s, (at_ p s).2.flash = s.flash) (n tbl root : Nat) (glob : Bool) (acc : List TEntry) :
    (s.descend x st va top at_ n tbl root glob acc).2.flash = s.flash := by
  induction n generalizing s tbl glob acc with
  | zero => rfl
  | succ n ih =>
    unfold State.descend
    dsimp only
    (repeat' split) <;> ((try simp only [Prod.ext_iff] at *); (try casesm* _ ∧ _); (try casesm* @Eq State _ _); (try simp [ih, hat, kept @State.fetchPte_fr]))

@[simp] theorem State.descend_coldOpt (s : State) (x : XCtx) (st : TStage) (va top : Nat) (at_ : Nat → State → Except TFault (Nat × List TEntry) × State)
    (hat : ∀ p s, (at_ p s).2.coldOpt = s.coldOpt) (n tbl root : Nat) (glob : Bool) (acc : List TEntry) :
    (s.descend x st va top at_ n tbl root glob acc).2.coldOpt = s.coldOpt := by
  induction n generalizing s tbl glob acc with
  | zero => rfl
  | succ n ih =>
    unfold State.descend
    dsimp only
    (repeat' split) <;> ((try simp only [Prod.ext_iff] at *); (try casesm* _ ∧ _); (try casesm* @Eq State _ _); (try simp [ih, hat, kept @State.fetchPte_fr]))

@[simp] theorem State.descend_mem (s : State) (x : XCtx) (st : TStage) (va top : Nat) (at_ : Nat → State → Except TFault (Nat × List TEntry) × State)
    (hat : ∀ p s, (at_ p s).2.mem = s.mem) (n tbl root : Nat) (glob : Bool) (acc : List TEntry) :
    (s.descend x st va top at_ n tbl root glob acc).2.mem = s.mem := by
  induction n generalizing s tbl glob acc with
  | zero => rfl
  | succ n ih =>
    unfold State.descend
    dsimp only
    (repeat' split) <;> ((try simp only [Prod.ext_iff] at *); (try casesm* _ ∧ _); (try casesm* @Eq State _ _); (try simp [ih, hat, kept @State.fetchPte_fr]))

@[simp] theorem State.descend_imsic (s : State) (x : XCtx) (st : TStage) (va top : Nat) (at_ : Nat → State → Except TFault (Nat × List TEntry) × State)
    (hat : ∀ p s, (at_ p s).2.imsic = s.imsic) (n tbl root : Nat) (glob : Bool) (acc : List TEntry) :
    (s.descend x st va top at_ n tbl root glob acc).2.imsic = s.imsic := by
  induction n generalizing s tbl glob acc with
  | zero => rfl
  | succ n ih =>
    unfold State.descend
    dsimp only
    (repeat' split) <;> ((try simp only [Prod.ext_iff] at *); (try casesm* _ ∧ _); (try casesm* @Eq State _ _); (try simp [ih, hat, kept @State.fetchPte_fr]))

@[simp] theorem State.descend_eng (s : State) (x : XCtx) (st : TStage) (va top : Nat) (at_ : Nat → State → Except TFault (Nat × List TEntry) × State)
    (hat : ∀ p s, (at_ p s).2.eng = s.eng) (n tbl root : Nat) (glob : Bool) (acc : List TEntry) :
    (s.descend x st va top at_ n tbl root glob acc).2.eng = s.eng := by
  induction n generalizing s tbl glob acc with
  | zero => rfl
  | succ n ih =>
    unfold State.descend
    dsimp only
    (repeat' split) <;> ((try simp only [Prod.ext_iff] at *); (try casesm* _ ∧ _); (try casesm* @Eq State _ _); (try simp [ih, hat, kept @State.fetchPte_fr]))

@[simp] theorem State.descend_dm (s : State) (x : XCtx) (st : TStage) (va top : Nat) (at_ : Nat → State → Except TFault (Nat × List TEntry) × State)
    (hat : ∀ p s, (at_ p s).2.dm = s.dm) (n tbl root : Nat) (glob : Bool) (acc : List TEntry) :
    (s.descend x st va top at_ n tbl root glob acc).2.dm = s.dm := by
  induction n generalizing s tbl glob acc with
  | zero => rfl
  | succ n ih =>
    unfold State.descend
    dsimp only
    (repeat' split) <;> ((try simp only [Prod.ext_iff] at *); (try casesm* _ ∧ _); (try casesm* @Eq State _ _); (try simp [ih, hat, kept @State.fetchPte_fr]))

@[simp] theorem State.descend_fx (s : State) (x : XCtx) (st : TStage) (va top : Nat) (at_ : Nat → State → Except TFault (Nat × List TEntry) × State)
    (hat : ∀ p s, (at_ p s).2.fx = s.fx) (n tbl root : Nat) (glob : Bool) (acc : List TEntry) :
    (s.descend x st va top at_ n tbl root glob acc).2.fx = s.fx := by
  induction n generalizing s tbl glob acc with
  | zero => rfl
  | succ n ih =>
    unfold State.descend
    dsimp only
    (repeat' split) <;> ((try simp only [Prod.ext_iff] at *); (try casesm* _ ∧ _); (try casesm* @Eq State _ _); (try simp [ih, hat, kept @State.fetchPte_fr]))

@[simp] theorem State.descend_ctu (s : State) (x : XCtx) (st : TStage) (va top : Nat) (at_ : Nat → State → Except TFault (Nat × List TEntry) × State)
    (hat : ∀ p s, (at_ p s).2.ctu = s.ctu) (n tbl root : Nat) (glob : Bool) (acc : List TEntry) :
    (s.descend x st va top at_ n tbl root glob acc).2.ctu = s.ctu := by
  induction n generalizing s tbl glob acc with
  | zero => rfl
  | succ n ih =>
    unfold State.descend
    dsimp only
    (repeat' split) <;> ((try simp only [Prod.ext_iff] at *); (try casesm* _ ∧ _); (try casesm* @Eq State _ _); (try simp [ih, hat, kept @State.fetchPte_fr]))

@[simp] theorem State.descend_links (s : State) (x : XCtx) (st : TStage) (va top : Nat) (at_ : Nat → State → Except TFault (Nat × List TEntry) × State)
    (hat : ∀ p s, (at_ p s).2.links = s.links) (n tbl root : Nat) (glob : Bool) (acc : List TEntry) :
    (s.descend x st va top at_ n tbl root glob acc).2.links = s.links := by
  induction n generalizing s tbl glob acc with
  | zero => rfl
  | succ n ih =>
    unfold State.descend
    dsimp only
    (repeat' split) <;> ((try simp only [Prod.ext_iff] at *); (try casesm* _ ∧ _); (try casesm* @Eq State _ _); (try simp [ih, hat, kept @State.fetchPte_fr]))

@[simp] theorem State.descend_aplicS (s : State) (x : XCtx) (st : TStage) (va top : Nat) (at_ : Nat → State → Except TFault (Nat × List TEntry) × State)
    (hat : ∀ p s, (at_ p s).2.aplicS = s.aplicS) (n tbl root : Nat) (glob : Bool) (acc : List TEntry) :
    (s.descend x st va top at_ n tbl root glob acc).2.aplicS = s.aplicS := by
  induction n generalizing s tbl glob acc with
  | zero => rfl
  | succ n ih =>
    unfold State.descend
    dsimp only
    (repeat' split) <;> ((try simp only [Prod.ext_iff] at *); (try casesm* _ ∧ _); (try casesm* @Eq State _ _); (try simp [ih, hat, kept @State.fetchPte_fr]))

@[simp] theorem State.descend_aplicN (s : State) (x : XCtx) (st : TStage) (va top : Nat) (at_ : Nat → State → Except TFault (Nat × List TEntry) × State)
    (hat : ∀ p s, (at_ p s).2.aplicN = s.aplicN) (n tbl root : Nat) (glob : Bool) (acc : List TEntry) :
    (s.descend x st va top at_ n tbl root glob acc).2.aplicN = s.aplicN := by
  induction n generalizing s tbl glob acc with
  | zero => rfl
  | succ n ih =>
    unfold State.descend
    dsimp only
    (repeat' split) <;> ((try simp only [Prod.ext_iff] at *); (try casesm* _ ∧ _); (try casesm* @Eq State _ _); (try simp [ih, hat, kept @State.fetchPte_fr]))

@[simp] theorem State.descend_credits (s : State) (x : XCtx) (st : TStage) (va top : Nat) (at_ : Nat → State → Except TFault (Nat × List TEntry) × State)
    (hat : ∀ p s, (at_ p s).2.credits = s.credits) (n tbl root : Nat) (glob : Bool) (acc : List TEntry) :
    (s.descend x st va top at_ n tbl root glob acc).2.credits = s.credits := by
  induction n generalizing s tbl glob acc with
  | zero => rfl
  | succ n ih =>
    unfold State.descend
    dsimp only
    (repeat' split) <;> ((try simp only [Prod.ext_iff] at *); (try casesm* _ ∧ _); (try casesm* @Eq State _ _); (try simp [ih, hat, kept @State.fetchPte_fr]))

@[simp] theorem State.descend_pkts (s : State) (x : XCtx) (st : TStage) (va top : Nat) (at_ : Nat → State → Except TFault (Nat × List TEntry) × State)
    (hat : ∀ p s, (at_ p s).2.pkts = s.pkts) (n tbl root : Nat) (glob : Bool) (acc : List TEntry) :
    (s.descend x st va top at_ n tbl root glob acc).2.pkts = s.pkts := by
  induction n generalizing s tbl glob acc with
  | zero => rfl
  | succ n ih =>
    unfold State.descend
    dsimp only
    (repeat' split) <;> ((try simp only [Prod.ext_iff] at *); (try casesm* _ ∧ _); (try casesm* @Eq State _ _); (try simp [ih, hat, kept @State.fetchPte_fr]))

@[simp] theorem State.descend_resp (s : State) (x : XCtx) (st : TStage) (va top : Nat) (at_ : Nat → State → Except TFault (Nat × List TEntry) × State)
    (hat : ∀ p s, (at_ p s).2.resp = s.resp) (n tbl root : Nat) (glob : Bool) (acc : List TEntry) :
    (s.descend x st va top at_ n tbl root glob acc).2.resp = s.resp := by
  induction n generalizing s tbl glob acc with
  | zero => rfl
  | succ n ih =>
    unfold State.descend
    dsimp only
    (repeat' split) <;> ((try simp only [Prod.ext_iff] at *); (try casesm* _ ∧ _); (try casesm* @Eq State _ _); (try simp [ih, hat, kept @State.fetchPte_fr]))

@[simp] theorem State.descend_dmg (s : State) (x : XCtx) (st : TStage) (va top : Nat) (at_ : Nat → State → Except TFault (Nat × List TEntry) × State)
    (hat : ∀ p s, (at_ p s).2.dmg = s.dmg) (n tbl root : Nat) (glob : Bool) (acc : List TEntry) :
    (s.descend x st va top at_ n tbl root glob acc).2.dmg = s.dmg := by
  induction n generalizing s tbl glob acc with
  | zero => rfl
  | succ n ih =>
    unfold State.descend
    dsimp only
    (repeat' split) <;> ((try simp only [Prod.ext_iff] at *); (try casesm* _ ∧ _); (try casesm* @Eq State _ _); (try simp [ih, hat, kept @State.fetchPte_fr]))

@[simp] theorem State.descend_dbInval (s : State) (x : XCtx) (st : TStage) (va top : Nat) (at_ : Nat → State → Except TFault (Nat × List TEntry) × State)
    (hat : ∀ p s, (at_ p s).2.dbInval = s.dbInval) (n tbl root : Nat) (glob : Bool) (acc : List TEntry) :
    (s.descend x st va top at_ n tbl root glob acc).2.dbInval = s.dbInval := by
  induction n generalizing s tbl glob acc with
  | zero => rfl
  | succ n ih =>
    unfold State.descend
    dsimp only
    (repeat' split) <;> ((try simp only [Prod.ext_iff] at *); (try casesm* _ ∧ _); (try casesm* @Eq State _ _); (try simp [ih, hat, kept @State.fetchPte_fr]))

@[simp] theorem State.descend_watch (s : State) (x : XCtx) (st : TStage) (va top : Nat) (at_ : Nat → State → Except TFault (Nat × List TEntry) × State)
    (hat : ∀ p s, (at_ p s).2.watch = s.watch) (n tbl root : Nat) (glob : Bool) (acc : List TEntry) :
    (s.descend x st va top at_ n tbl root glob acc).2.watch = s.watch := by
  induction n generalizing s tbl glob acc with
  | zero => rfl
  | succ n ih =>
    unfold State.descend
    dsimp only
    (repeat' split) <;> ((try simp only [Prod.ext_iff] at *); (try casesm* _ ∧ _); (try casesm* @Eq State _ _); (try simp [ih, hat, kept @State.fetchPte_fr]))

@[simp] theorem State.descend_out (s : State) (x : XCtx) (st : TStage) (va top : Nat) (at_ : Nat → State → Except TFault (Nat × List TEntry) × State)
    (hat : ∀ p s, (at_ p s).2.out = s.out) (n tbl root : Nat) (glob : Bool) (acc : List TEntry) :
    (s.descend x st va top at_ n tbl root glob acc).2.out = s.out := by
  induction n generalizing s tbl glob acc with
  | zero => rfl
  | succ n ih =>
    unfold State.descend
    dsimp only
    (repeat' split) <;> ((try simp only [Prod.ext_iff] at *); (try casesm* _ ∧ _); (try casesm* @Eq State _ _); (try simp [ih, hat, kept @State.fetchPte_fr]))

@[simp] theorem State.descend_free (s : State) (x : XCtx) (st : TStage) (va top : Nat) (at_ : Nat → State → Except TFault (Nat × List TEntry) × State)
    (hat : ∀ p s, (at_ p s).2.free = s.free) (n tbl root : Nat) (glob : Bool) (acc : List TEntry) :
    (s.descend x st va top at_ n tbl root glob acc).2.free = s.free := by
  induction n generalizing s tbl glob acc with
  | zero => rfl
  | succ n ih =>
    unfold State.descend
    dsimp only
    (repeat' split) <;> ((try simp only [Prod.ext_iff] at *); (try casesm* _ ∧ _); (try casesm* @Eq State _ _); (try simp [ih, hat, kept @State.fetchPte_fr]))

theorem State.hold_fr (s : State) (hh : Nat) (l : List TEntry) : (State.hold s hh l).pending = s.pending ∧ (State.hold s hh l).flash = s.flash ∧ (State.hold s hh l).coldOpt = s.coldOpt ∧ (State.hold s hh l).mem = s.mem ∧ (State.hold s hh l).mram = s.mram ∧ (State.hold s hh l).imsic = s.imsic ∧ (State.hold s hh l).eng = s.eng ∧ (State.hold s hh l).dm = s.dm ∧ (State.hold s hh l).fx = s.fx ∧ (State.hold s hh l).ctu = s.ctu ∧ (State.hold s hh l).links = s.links ∧ (State.hold s hh l).aplicS = s.aplicS ∧ (State.hold s hh l).aplicN = s.aplicN ∧ (State.hold s hh l).credits = s.credits ∧ (State.hold s hh l).clusters = s.clusters ∧ (State.hold s hh l).homes = s.homes ∧ (State.hold s hh l).pkts = s.pkts ∧ (State.hold s hh l).resp = s.resp ∧ (State.hold s hh l).regs = s.regs ∧ (State.hold s hh l).wires = s.wires ∧ (State.hold s hh l).dmg = s.dmg ∧ (State.hold s hh l).wq = s.wq ∧ (State.hold s hh l).net = s.net ∧ (State.hold s hh l).dbInval = s.dbInval ∧ (State.hold s hh l).watch = s.watch ∧ (State.hold s hh l).pkg = s.pkg ∧ (State.hold s hh l).pmc = s.pmc ∧ (State.hold s hh l).fwLog = s.fwLog ∧ (State.hold s hh l).out = s.out ∧ (State.hold s hh l).free = s.free ∧ (State.hold s hh l).fabric = s.fabric ∧ (State.hold s hh l).files = s.files := by
  generalize h : State.hold s hh l = u
  unfold State.hold at h
  rw [← h]; simp [kept @State.setHart_fr]

theorem State.useLeaf_fr (s : State) (x : XCtx) (e : TEntry) : (State.useLeaf s x e).pending = s.pending ∧ (State.useLeaf s x e).flash = s.flash ∧ (State.useLeaf s x e).coldOpt = s.coldOpt ∧ (State.useLeaf s x e).mem = s.mem ∧ (State.useLeaf s x e).mram = s.mram ∧ (State.useLeaf s x e).imsic = s.imsic ∧ (State.useLeaf s x e).eng = s.eng ∧ (State.useLeaf s x e).dm = s.dm ∧ (State.useLeaf s x e).fx = s.fx ∧ (State.useLeaf s x e).ctu = s.ctu ∧ (State.useLeaf s x e).links = s.links ∧ (State.useLeaf s x e).aplicS = s.aplicS ∧ (State.useLeaf s x e).aplicN = s.aplicN ∧ (State.useLeaf s x e).credits = s.credits ∧ (State.useLeaf s x e).clusters = s.clusters ∧ (State.useLeaf s x e).homes = s.homes ∧ (State.useLeaf s x e).pkts = s.pkts ∧ (State.useLeaf s x e).resp = s.resp ∧ (State.useLeaf s x e).regs = s.regs ∧ (State.useLeaf s x e).wires = s.wires ∧ (State.useLeaf s x e).dmg = s.dmg ∧ (State.useLeaf s x e).wq = s.wq ∧ (State.useLeaf s x e).net = s.net ∧ (State.useLeaf s x e).dbInval = s.dbInval ∧ (State.useLeaf s x e).watch = s.watch ∧ (State.useLeaf s x e).pkg = s.pkg ∧ (State.useLeaf s x e).pmc = s.pmc ∧ (State.useLeaf s x e).fwLog = s.fwLog ∧ (State.useLeaf s x e).out = s.out ∧ (State.useLeaf s x e).free = s.free ∧ (State.useLeaf s x e).fabric = s.fabric ∧ (State.useLeaf s x e).files = s.files := by
  generalize h : State.useLeaf s x e = u
  unfold State.useLeaf at h
  (try dsimp only at h); (repeat' split at h) <;> rw [← h] <;> simp [kept @State.hold_fr]

theorem State.gStage_fr (s : State) (x : XCtx) (k : AKind) (mxr : Bool) (gpa : Nat) : (State.gStage s x k mxr gpa).2.pending = s.pending ∧ (State.gStage s x k mxr gpa).2.flash = s.flash ∧ (State.gStage s x k mxr gpa).2.coldOpt = s.coldOpt ∧ (State.gStage s x k mxr gpa).2.mem = s.mem ∧ (State.gStage s x k mxr gpa).2.imsic = s.imsic ∧ (State.gStage s x k mxr gpa).2.eng = s.eng ∧ (State.gStage s x k mxr gpa).2.dm = s.dm ∧ (State.gStage s x k mxr gpa).2.fx = s.fx ∧ (State.gStage s x k mxr gpa).2.ctu = s.ctu ∧ (State.gStage s x k mxr gpa).2.links = s.links ∧ (State.gStage s x k mxr gpa).2.aplicS = s.aplicS ∧ (State.gStage s x k mxr gpa).2.aplicN = s.aplicN ∧ (State.gStage s x k mxr gpa).2.credits = s.credits ∧ (State.gStage s x k mxr gpa).2.pkts = s.pkts ∧ (State.gStage s x k mxr gpa).2.resp = s.resp ∧ (State.gStage s x k mxr gpa).2.dmg = s.dmg ∧ (State.gStage s x k mxr gpa).2.dbInval = s.dbInval ∧ (State.gStage s x k mxr gpa).2.watch = s.watch ∧ (State.gStage s x k mxr gpa).2.out = s.out ∧ (State.gStage s x k mxr gpa).2.free = s.free ∧ (State.gStage s x k mxr gpa).2.fabric = s.fabric ∧ (State.gStage s x k mxr gpa).2.files = s.files := by
  generalize h : (State.gStage s x k mxr gpa).2 = u
  unfold State.gStage at h
  (try dsimp only at h); (repeat' split at h) <;> (rw [← h];  (try simp only [Prod.ext_iff] at *); (try casesm* _ ∧ _); (try casesm* @Eq State _ _); (try simp [*, kept @State.hev_fr]))

theorem tableAt_fr (x : XCtx) (hmxr : Bool) (p : Nat) (s : State) : (tableAt x hmxr p s).2.pending = s.pending ∧ (tableAt x hmxr p s).2.flash = s.flash ∧ (tableAt x hmxr p s).2.coldOpt = s.coldOpt ∧ (tableAt x hmxr p s).2.mem = s.mem ∧ (tableAt x hmxr p s).2.imsic = s.imsic ∧ (tableAt x hmxr p s).2.eng = s.eng ∧ (tableAt x hmxr p s).2.dm = s.dm ∧ (tableAt x hmxr p s).2.fx = s.fx ∧ (tableAt x hmxr p s).2.ctu = s.ctu ∧ (tableAt x hmxr p s).2.links = s.links ∧ (tableAt x hmxr p s).2.aplicS = s.aplicS ∧ (tableAt x hmxr p s).2.aplicN = s.aplicN ∧ (tableAt x hmxr p s).2.credits = s.credits ∧ (tableAt x hmxr p s).2.pkts = s.pkts ∧ (tableAt x hmxr p s).2.resp = s.resp ∧ (tableAt x hmxr p s).2.dmg = s.dmg ∧ (tableAt x hmxr p s).2.dbInval = s.dbInval ∧ (tableAt x hmxr p s).2.watch = s.watch ∧ (tableAt x hmxr p s).2.out = s.out ∧ (tableAt x hmxr p s).2.free = s.free ∧ (tableAt x hmxr p s).2.fabric = s.fabric ∧ (tableAt x hmxr p s).2.files = s.files := by
  generalize h : (tableAt x hmxr p s).2 = u
  unfold tableAt at h
  (try dsimp only at h); (repeat' split at h) <;> (rw [← h];  (try simp only [Prod.ext_iff] at *); (try casesm* _ ∧ _); (try casesm* @Eq State _ _); (try simp [*, kept @State.gStage_fr]))

theorem State.xlate_fr (s : State) (x : XCtx) (va : Nat) : (State.xlate s x va).2.pending = s.pending ∧ (State.xlate s x va).2.flash = s.flash ∧ (State.xlate s x va).2.coldOpt = s.coldOpt ∧ (State.xlate s x va).2.mem = s.mem ∧ (State.xlate s x va).2.imsic = s.imsic ∧ (State.xlate s x va).2.eng = s.eng ∧ (State.xlate s x va).2.dm = s.dm ∧ (State.xlate s x va).2.fx = s.fx ∧ (State.xlate s x va).2.ctu = s.ctu ∧ (State.xlate s x va).2.links = s.links ∧ (State.xlate s x va).2.aplicS = s.aplicS ∧ (State.xlate s x va).2.aplicN = s.aplicN ∧ (State.xlate s x va).2.credits = s.credits ∧ (State.xlate s x va).2.pkts = s.pkts ∧ (State.xlate s x va).2.resp = s.resp ∧ (State.xlate s x va).2.dmg = s.dmg ∧ (State.xlate s x va).2.dbInval = s.dbInval ∧ (State.xlate s x va).2.watch = s.watch ∧ (State.xlate s x va).2.out = s.out ∧ (State.xlate s x va).2.free = s.free ∧ (State.xlate s x va).2.fabric = s.fabric ∧ (State.xlate s x va).2.files = s.files := by
  generalize h : (State.xlate s x va).2 = u
  unfold State.xlate at h
  (try dsimp only at h); (repeat' split at h) <;> (rw [← h];  (try simp only [Prod.ext_iff] at *); (try casesm* _ ∧ _); (try casesm* @Eq State _ _); (try simp [*, kept @State.gStage_fr, kept @State.hev_fr, kept @State.hold_fr, kept @State.useLeaf_fr, kept @tableAt_fr]))

theorem State.untested_fr (s : State) (hh : Nat) (k : AKind) (md : Mode) (v : Bool) (va : Nat) : (State.untested s hh k md v va).2.pending = s.pending ∧ (State.untested s hh k md v va).2.flash = s.flash ∧ (State.untested s hh k md v va).2.coldOpt = s.coldOpt ∧ (State.untested s hh k md v va).2.mem = s.mem ∧ (State.untested s hh k md v va).2.imsic = s.imsic ∧ (State.untested s hh k md v va).2.eng = s.eng ∧ (State.untested s hh k md v va).2.dm = s.dm ∧ (State.untested s hh k md v va).2.fx = s.fx ∧ (State.untested s hh k md v va).2.ctu = s.ctu ∧ (State.untested s hh k md v va).2.links = s.links ∧ (State.untested s hh k md v va).2.aplicS = s.aplicS ∧ (State.untested s hh k md v va).2.aplicN = s.aplicN ∧ (State.untested s hh k md v va).2.credits = s.credits ∧ (State.untested s hh k md v va).2.pkts = s.pkts ∧ (State.untested s hh k md v va).2.resp = s.resp ∧ (State.untested s hh k md v va).2.dmg = s.dmg ∧ (State.untested s hh k md v va).2.dbInval = s.dbInval ∧ (State.untested s hh k md v va).2.watch = s.watch ∧ (State.untested s hh k md v va).2.out = s.out ∧ (State.untested s hh k md v va).2.free = s.free ∧ (State.untested s hh k md v va).2.fabric = s.fabric ∧ (State.untested s hh k md v va).2.files = s.files := by
  generalize h : (State.untested s hh k md v va).2 = u
  unfold State.untested at h
  (try dsimp only at h); (repeat' split at h) <;> rw [← h] <;> simp [kept @State.xlate_fr]

theorem State.locate_fr (s : State) (hh : Nat) (k : AKind) (va : Nat) : (State.locate s hh k va).2.pending = s.pending ∧ (State.locate s hh k va).2.flash = s.flash ∧ (State.locate s hh k va).2.coldOpt = s.coldOpt ∧ (State.locate s hh k va).2.mem = s.mem ∧ (State.locate s hh k va).2.imsic = s.imsic ∧ (State.locate s hh k va).2.eng = s.eng ∧ (State.locate s hh k va).2.dm = s.dm ∧ (State.locate s hh k va).2.fx = s.fx ∧ (State.locate s hh k va).2.ctu = s.ctu ∧ (State.locate s hh k va).2.links = s.links ∧ (State.locate s hh k va).2.aplicS = s.aplicS ∧ (State.locate s hh k va).2.aplicN = s.aplicN ∧ (State.locate s hh k va).2.credits = s.credits ∧ (State.locate s hh k va).2.pkts = s.pkts ∧ (State.locate s hh k va).2.resp = s.resp ∧ (State.locate s hh k va).2.dmg = s.dmg ∧ (State.locate s hh k va).2.dbInval = s.dbInval ∧ (State.locate s hh k va).2.watch = s.watch ∧ (State.locate s hh k va).2.out = s.out ∧ (State.locate s hh k va).2.free = s.free ∧ (State.locate s hh k va).2.fabric = s.fabric ∧ (State.locate s hh k va).2.files = s.files := by
  generalize h : (State.locate s hh k va).2 = u
  unfold State.locate at h
  (try dsimp only at h); (repeat' split at h) <;> (rw [← h];  (try simp only [Prod.ext_iff] at *); (try casesm* _ ∧ _); (try casesm* @Eq State _ _); (try simp [*, kept @State.untested_fr]))

theorem State.startAcc_fr (s : State) (hh : Nat) (part : Nat) (ws : List Wait) : (State.startAcc s hh part ws).pending = s.pending ∧ (State.startAcc s hh part ws).flash = s.flash ∧ (State.startAcc s hh part ws).coldOpt = s.coldOpt ∧ (State.startAcc s hh part ws).imsic = s.imsic ∧ (State.startAcc s hh part ws).eng = s.eng ∧ (State.startAcc s hh part ws).dm = s.dm ∧ (State.startAcc s hh part ws).fx = s.fx ∧ (State.startAcc s hh part ws).ctu = s.ctu ∧ (State.startAcc s hh part ws).links = s.links ∧ (State.startAcc s hh part ws).aplicS = s.aplicS ∧ (State.startAcc s hh part ws).aplicN = s.aplicN ∧ (State.startAcc s hh part ws).credits = s.credits ∧ (State.startAcc s hh part ws).pkts = s.pkts ∧ (State.startAcc s hh part ws).resp = s.resp ∧ (State.startAcc s hh part ws).out = s.out ∧ (State.startAcc s hh part ws).fabric = s.fabric ∧ (State.startAcc s hh part ws).files = s.files := by
  generalize h : State.startAcc s hh part ws = u
  unfold State.startAcc at h
  (try dsimp only at h); (repeat' split at h) <;> rw [← h] <;> simp [kept @State.access_fr, kept @State.retryWaits_fr, kept @State.setCluster_fr, kept @State.setHart_fr]

theorem State.startIo_fr (s : State) (hh : Nat) (a : IoAccess) : (State.startIo s hh a).pending = s.pending ∧ (State.startIo s hh a).flash = s.flash ∧ (State.startIo s hh a).coldOpt = s.coldOpt ∧ (State.startIo s hh a).mem = s.mem ∧ (State.startIo s hh a).mram = s.mram ∧ (State.startIo s hh a).imsic = s.imsic ∧ (State.startIo s hh a).eng = s.eng ∧ (State.startIo s hh a).dm = s.dm ∧ (State.startIo s hh a).fx = s.fx ∧ (State.startIo s hh a).ctu = s.ctu ∧ (State.startIo s hh a).links = s.links ∧ (State.startIo s hh a).aplicS = s.aplicS ∧ (State.startIo s hh a).aplicN = s.aplicN ∧ (State.startIo s hh a).credits = s.credits ∧ (State.startIo s hh a).clusters = s.clusters ∧ (State.startIo s hh a).homes = s.homes ∧ (State.startIo s hh a).pkts = s.pkts ∧ (State.startIo s hh a).resp = s.resp ∧ (State.startIo s hh a).regs = s.regs ∧ (State.startIo s hh a).wires = s.wires ∧ (State.startIo s hh a).dmg = s.dmg ∧ (State.startIo s hh a).wq = s.wq ∧ (State.startIo s hh a).net = s.net ∧ (State.startIo s hh a).dbInval = s.dbInval ∧ (State.startIo s hh a).watch = s.watch ∧ (State.startIo s hh a).pkg = s.pkg ∧ (State.startIo s hh a).pmc = s.pmc ∧ (State.startIo s hh a).fwLog = s.fwLog ∧ (State.startIo s hh a).out = s.out ∧ (State.startIo s hh a).free = s.free ∧ (State.startIo s hh a).fabric = s.fabric ∧ (State.startIo s hh a).files = s.files := by
  generalize h : State.startIo s hh a = u
  unfold State.startIo at h
  rw [← h]; simp [kept @State.setHart_fr]

end Sys2Proof.Machine
end

