-- ==== Sys2Proof/Laws/Frame/RegAccess.lean ====
section
/-! SUPPORT. What the operations of Machine/RegAccess.lean leave unchanged. -/

set_option Elab.async false
set_option linter.all false

namespace Sys2Proof.Machine
open Sys2Proof

theorem State.writeSourcecfg_fr (s : State) (w : World) (k : Nat) (v : Nat) : (State.writeSourcecfg s w k v).pending = s.pending ∧ (State.writeSourcecfg s w k v).flash = s.flash ∧ (State.writeSourcecfg s w k v).coldOpt = s.coldOpt ∧ (State.writeSourcecfg s w k v).mem = s.mem ∧ (State.writeSourcecfg s w k v).harts = s.harts ∧ (State.writeSourcecfg s w k v).eng = s.eng ∧ (State.writeSourcecfg s w k v).dm = s.dm ∧ (State.writeSourcecfg s w k v).fx = s.fx ∧ (State.writeSourcecfg s w k v).ctu = s.ctu ∧ (State.writeSourcecfg s w k v).links = s.links ∧ (State.writeSourcecfg s w k v).credits = s.credits ∧ (State.writeSourcecfg s w k v).clusters = s.clusters ∧ (State.writeSourcecfg s w k v).homes = s.homes ∧ (State.writeSourcecfg s w k v).pkts = s.pkts ∧ (State.writeSourcecfg s w k v).resp = s.resp ∧ (State.writeSourcecfg s w k v).wires = s.wires ∧ (State.writeSourcecfg s w k v).dmg = s.dmg ∧ (State.writeSourcecfg s w k v).wq = s.wq ∧ (State.writeSourcecfg s w k v).net = s.net ∧ (State.writeSourcecfg s w k v).dbInval = s.dbInval ∧ (State.writeSourcecfg s w k v).watch = s.watch ∧ (State.writeSourcecfg s w k v).pkg = s.pkg ∧ (State.writeSourcecfg s w k v).out = s.out ∧ (State.writeSourcecfg s w k v).free = s.free ∧ (State.writeSourcecfg s w k v).fabric = s.fabric ∧ (State.writeSourcecfg s w k v).files = s.files := by
  generalize h : State.writeSourcecfg s w k v = u
  unfold State.writeSourcecfg at h
  rw [← h]; simp [kept @State.aplicDeliver_fr, kept @State.setAplic_fr]

theorem State.writePend_fr (s : State) (w : World) (k : Nat) (on : Bool) : (State.writePend s w k on).pending = s.pending ∧ (State.writePend s w k on).flash = s.flash ∧ (State.writePend s w k on).coldOpt = s.coldOpt ∧ (State.writePend s w k on).mem = s.mem ∧ (State.writePend s w k on).harts = s.harts ∧ (State.writePend s w k on).eng = s.eng ∧ (State.writePend s w k on).dm = s.dm ∧ (State.writePend s w k on).fx = s.fx ∧ (State.writePend s w k on).ctu = s.ctu ∧ (State.writePend s w k on).links = s.links ∧ (State.writePend s w k on).credits = s.credits ∧ (State.writePend s w k on).clusters = s.clusters ∧ (State.writePend s w k on).homes = s.homes ∧ (State.writePend s w k on).pkts = s.pkts ∧ (State.writePend s w k on).resp = s.resp ∧ (State.writePend s w k on).wires = s.wires ∧ (State.writePend s w k on).dmg = s.dmg ∧ (State.writePend s w k on).wq = s.wq ∧ (State.writePend s w k on).net = s.net ∧ (State.writePend s w k on).dbInval = s.dbInval ∧ (State.writePend s w k on).watch = s.watch ∧ (State.writePend s w k on).pkg = s.pkg ∧ (State.writePend s w k on).out = s.out ∧ (State.writePend s w k on).free = s.free ∧ (State.writePend s w k on).fabric = s.fabric ∧ (State.writePend s w k on).files = s.files := by
  generalize h : State.writePend s w k on = u
  unfold State.writePend at h
  rw [← h]; simp [kept @State.aplicDeliver_fr, kept @State.setAplic_fr]

theorem State.writeEn_fr (s : State) (w : World) (k : Nat) (on : Bool) : (State.writeEn s w k on).pending = s.pending ∧ (State.writeEn s w k on).flash = s.flash ∧ (State.writeEn s w k on).coldOpt = s.coldOpt ∧ (State.writeEn s w k on).mem = s.mem ∧ (State.writeEn s w k on).harts = s.harts ∧ (State.writeEn s w k on).eng = s.eng ∧ (State.writeEn s w k on).dm = s.dm ∧ (State.writeEn s w k on).fx = s.fx ∧ (State.writeEn s w k on).ctu = s.ctu ∧ (State.writeEn s w k on).links = s.links ∧ (State.writeEn s w k on).credits = s.credits ∧ (State.writeEn s w k on).clusters = s.clusters ∧ (State.writeEn s w k on).homes = s.homes ∧ (State.writeEn s w k on).pkts = s.pkts ∧ (State.writeEn s w k on).resp = s.resp ∧ (State.writeEn s w k on).wires = s.wires ∧ (State.writeEn s w k on).dmg = s.dmg ∧ (State.writeEn s w k on).wq = s.wq ∧ (State.writeEn s w k on).net = s.net ∧ (State.writeEn s w k on).dbInval = s.dbInval ∧ (State.writeEn s w k on).watch = s.watch ∧ (State.writeEn s w k on).pkg = s.pkg ∧ (State.writeEn s w k on).out = s.out ∧ (State.writeEn s w k on).free = s.free ∧ (State.writeEn s w k on).fabric = s.fabric ∧ (State.writeEn s w k on).files = s.files := by
  generalize h : State.writeEn s w k on = u
  unfold State.writeEn at h
  rw [← h]; simp [kept @State.aplicDeliver_fr, kept @State.setAplic_fr]

@[simp] theorem eachBit_pending (i : Nat) (v : Nat) (f : Nat → State → State) (s : State) (hf : ∀ x0 x1, (f x0 x1).pending = x1.pending) : (eachBit i v f s).pending = s.pending := by
  unfold eachBit
  first
  | (simp [*]; done)
  | ((repeat' split) <;> simp [*]; done)
  | ((try dsimp only); (repeat' split) <;> simp (disch := (intros; (repeat' split) <;> simp [*])) [*]; done)
  | (refine State.taskDo_pending _ _ _ (fun _ => ?_); (repeat' split) <;> first | exact keepsM_pure _ _ | (simp [*]; done))

@[simp] theorem eachBit_files (i : Nat) (v : Nat) (f : Nat → State → State) (s : State) (hf : ∀ x0 x1, (f x0 x1).files = x1.files) : (eachBit i v f s).files = s.files := by
  unfold eachBit
  first
  | (simp [*]; done)
  | ((repeat' split) <;> simp [*]; done)
  | ((try dsimp only); (repeat' split) <;> simp (disch := (intros; (repeat' split) <;> simp [*])) [*]; done)
  | (refine State.taskDo_files _ _ _ (fun _ => ?_); (repeat' split) <;> first | exact keepsM_pure _ _ | (simp [*]; done))

@[simp] theorem eachBit_fabric (i : Nat) (v : Nat) (f : Nat → State → State) (s : State) (hf : ∀ x0 x1, (f x0 x1).fabric = x1.fabric) : (eachBit i v f s).fabric = s.fabric := by
  unfold eachBit
  first
  | (simp [*]; done)
  | ((repeat' split) <;> simp [*]; done)
  | ((try dsimp only); (repeat' split) <;> simp (disch := (intros; (repeat' split) <;> simp [*])) [*]; done)
  | (refine State.taskDo_fabric _ _ _ (fun _ => ?_); (repeat' split) <;> first | exact keepsM_pure _ _ | (simp [*]; done))

@[simp] theorem eachBit_flash (i : Nat) (v : Nat) (f : Nat → State → State) (s : State) (hf : ∀ x0 x1, (f x0 x1).flash = x1.flash) : (eachBit i v f s).flash = s.flash := by
  unfold eachBit
  first
  | (simp [*]; done)
  | ((repeat' split) <;> simp [*]; done)
  | ((try dsimp only); (repeat' split) <;> simp (disch := (intros; (repeat' split) <;> simp [*])) [*]; done)
  | (refine State.taskDo_flash _ _ _ (fun _ => ?_); (repeat' split) <;> first | exact keepsM_pure _ _ | (simp [*]; done))

@[simp] theorem eachBit_coldOpt (i : Nat) (v : Nat) (f : Nat → State → State) (s : State) (hf : ∀ x0 x1, (f x0 x1).coldOpt = x1.coldOpt) : (eachBit i v f s).coldOpt = s.coldOpt := by
  unfold eachBit
  first
  | (simp [*]; done)
  | ((repeat' split) <;> simp [*]; done)
  | ((try dsimp only); (repeat' split) <;> simp (disch := (intros; (repeat' split) <;> simp [*])) [*]; done)
  | (refine State.taskDo_coldOpt _ _ _ (fun _ => ?_); (repeat' split) <;> first | exact keepsM_pure _ _ | (simp [*]; done))

@[simp] theorem eachBit_mem (i : Nat) (v : Nat) (f : Nat → State → State) (s : State) (hf : ∀ x0 x1, (f x0 x1).mem = x1.mem) : (eachBit i v f s).mem = s.mem := by
  unfold eachBit
  first
  | (simp [*]; done)
  | ((repeat' split) <;> simp [*]; done)
  | ((try dsimp only); (repeat' split) <;> simp (disch := (intros; (repeat' split) <;> simp [*])) [*]; done)
  | (refine State.taskDo_mem _ _ _ (fun _ => ?_); (repeat' split) <;> first | exact keepsM_pure _ _ | (simp [*]; done))

@[simp] theorem eachBit_harts (i : Nat) (v : Nat) (f : Nat → State → State) (s : State) (hf : ∀ x0 x1, (f x0 x1).harts = x1.harts) : (eachBit i v f s).harts = s.harts := by
  unfold eachBit
  first
  | (simp [*]; done)
  | ((repeat' split) <;> simp [*]; done)
  | ((try dsimp only); (repeat' split) <;> simp (disch := (intros; (repeat' split) <;> simp [*])) [*]; done)
  | (refine State.taskDo_harts _ _ _ (fun _ => ?_); (repeat' split) <;> first | exact keepsM_pure _ _ | (simp [*]; done))

@[simp] theorem eachBit_mram (i : Nat) (v : Nat) (f : Nat → State → State) (s : State) (hf : ∀ x0 x1, (f x0 x1).mram = x1.mram) : (eachBit i v f s).mram = s.mram := by
  unfold eachBit
  first
  | (simp [*]; done)
  | ((repeat' split) <;> simp [*]; done)
  | ((try dsimp only); (repeat' split) <;> simp (disch := (intros; (repeat' split) <;> simp [*])) [*]; done)
  | (refine State.taskDo_mram _ _ _ (fun _ => ?_); (repeat' split) <;> first | exact keepsM_pure _ _ | (simp [*]; done))

@[simp] theorem eachBit_imsic (i : Nat) (v : Nat) (f : Nat → State → State) (s : State) (hf : ∀ x0 x1, (f x0 x1).imsic = x1.imsic) : (eachBit i v f s).imsic = s.imsic := by
  unfold eachBit
  first
  | (simp [*]; done)
  | ((repeat' split) <;> simp [*]; done)
  | ((try dsimp only); (repeat' split) <;> simp (disch := (intros; (repeat' split) <;> simp [*])) [*]; done)
  | (refine State.taskDo_imsic _ _ _ (fun _ => ?_); (repeat' split) <;> first | exact keepsM_pure _ _ | (simp [*]; done))

@[simp] theorem eachBit_eng (i : Nat) (v : Nat) (f : Nat → State → State) (s : State) (hf : ∀ x0 x1, (f x0 x1).eng = x1.eng) : (eachBit i v f s).eng = s.eng := by
  unfold eachBit
  first
  | (simp [*]; done)
  | ((repeat' split) <;> simp [*]; done)
  | ((try dsimp only); (repeat' split) <;> simp (disch := (intros; (repeat' split) <;> simp [*])) [*]; done)
  | (refine State.taskDo_eng _ _ _ (fun _ => ?_); (repeat' split) <;> first | exact keepsM_pure _ _ | (simp [*]; done))

@[simp] theorem eachBit_dm (i : Nat) (v : Nat) (f : Nat → State → State) (s : State) (hf : ∀ x0 x1, (f x0 x1).dm = x1.dm) : (eachBit i v f s).dm = s.dm := by
  unfold eachBit
  first
  | (simp [*]; done)
  | ((repeat' split) <;> simp [*]; done)
  | ((try dsimp only); (repeat' split) <;> simp (disch := (intros; (repeat' split) <;> simp [*])) [*]; done)
  | (refine State.taskDo_dm _ _ _ (fun _ => ?_); (repeat' split) <;> first | exact keepsM_pure _ _ | (simp [*]; done))

@[simp] theorem eachBit_fx (i : Nat) (v : Nat) (f : Nat → State → State) (s : State) (hf : ∀ x0 x1, (f x0 x1).fx = x1.fx) : (eachBit i v f s).fx = s.fx := by
  unfold eachBit
  first
  | (simp [*]; done)
  | ((repeat' split) <;> simp [*]; done)
  | ((try dsimp only); (repeat' split) <;> simp (disch := (intros; (repeat' split) <;> simp [*])) [*]; done)
  | (refine State.taskDo_fx _ _ _ (fun _ => ?_); (repeat' split) <;> first | exact keepsM_pure _ _ | (simp [*]; done))

@[simp] theorem eachBit_ctu (i : Nat) (v : Nat) (f : Nat → State → State) (s : State) (hf : ∀ x0 x1, (f x0 x1).ctu = x1.ctu) : (eachBit i v f s).ctu = s.ctu := by
  unfold eachBit
  first
  | (simp [*]; done)
  | ((repeat' split) <;> simp [*]; done)
  | ((try dsimp only); (repeat' split) <;> simp (disch := (intros; (repeat' split) <;> simp [*])) [*]; done)
  | (refine State.taskDo_ctu _ _ _ (fun _ => ?_); (repeat' split) <;> first | exact keepsM_pure _ _ | (simp [*]; done))

@[simp] theorem eachBit_links (i : Nat) (v : Nat) (f : Nat → State → State) (s : State) (hf : ∀ x0 x1, (f x0 x1).links = x1.links) : (eachBit i v f s).links = s.links := by
  unfold eachBit
  first
  | (simp [*]; done)
  | ((repeat' split) <;> simp [*]; done)
  | ((try dsimp only); (repeat' split) <;> simp (disch := (intros; (repeat' split) <;> simp [*])) [*]; done)
  | (refine State.taskDo_links _ _ _ (fun _ => ?_); (repeat' split) <;> first | exact keepsM_pure _ _ | (simp [*]; done))

@[simp] theorem eachBit_aplicS (i : Nat) (v : Nat) (f : Nat → State → State) (s : State) (hf : ∀ x0 x1, (f x0 x1).aplicS = x1.aplicS) : (eachBit i v f s).aplicS = s.aplicS := by
  unfold eachBit
  first
  | (simp [*]; done)
  | ((repeat' split) <;> simp [*]; done)
  | ((try dsimp only); (repeat' split) <;> simp (disch := (intros; (repeat' split) <;> simp [*])) [*]; done)
  | (refine State.taskDo_aplicS _ _ _ (fun _ => ?_); (repeat' split) <;> first | exact keepsM_pure _ _ | (simp [*]; done))

@[simp] theorem eachBit_aplicN (i : Nat) (v : Nat) (f : Nat → State → State) (s : State) (hf : ∀ x0 x1, (f x0 x1).aplicN = x1.aplicN) : (eachBit i v f s).aplicN = s.aplicN := by
  unfold eachBit
  first
  | (simp [*]; done)
  | ((repeat' split) <;> simp [*]; done)
  | ((try dsimp only); (repeat' split) <;> simp (disch := (intros; (repeat' split) <;> simp [*])) [*]; done)
  | (refine State.taskDo_aplicN _ _ _ (fun _ => ?_); (repeat' split) <;> first | exact keepsM_pure _ _ | (simp [*]; done))

@[simp] theorem eachBit_credits (i : Nat) (v : Nat) (f : Nat → State → State) (s : State) (hf : ∀ x0 x1, (f x0 x1).credits = x1.credits) : (eachBit i v f s).credits = s.credits := by
  unfold eachBit
  first
  | (simp [*]; done)
  | ((repeat' split) <;> simp [*]; done)
  | ((try dsimp only); (repeat' split) <;> simp (disch := (intros; (repeat' split) <;> simp [*])) [*]; done)
  | (refine State.taskDo_credits _ _ _ (fun _ => ?_); (repeat' split) <;> first | exact keepsM_pure _ _ | (simp [*]; done))

@[simp] theorem eachBit_clusters (i : Nat) (v : Nat) (f : Nat → State → State) (s : State) (hf : ∀ x0 x1, (f x0 x1).clusters = x1.clusters) : (eachBit i v f s).clusters = s.clusters := by
  unfold eachBit
  first
  | (simp [*]; done)
  | ((repeat' split) <;> simp [*]; done)
  | ((try dsimp only); (repeat' split) <;> simp (disch := (intros; (repeat' split) <;> simp [*])) [*]; done)
  | (refine State.taskDo_clusters _ _ _ (fun _ => ?_); (repeat' split) <;> first | exact keepsM_pure _ _ | (simp [*]; done))

@[simp] theorem eachBit_homes (i : Nat) (v : Nat) (f : Nat → State → State) (s : State) (hf : ∀ x0 x1, (f x0 x1).homes = x1.homes) : (eachBit i v f s).homes = s.homes := by
  unfold eachBit
  first
  | (simp [*]; done)
  | ((repeat' split) <;> simp [*]; done)
  | ((try dsimp only); (repeat' split) <;> simp (disch := (intros; (repeat' split) <;> simp [*])) [*]; done)
  | (refine State.taskDo_homes _ _ _ (fun _ => ?_); (repeat' split) <;> first | exact keepsM_pure _ _ | (simp [*]; done))

@[simp] theorem eachBit_pkts (i : Nat) (v : Nat) (f : Nat → State → State) (s : State) (hf : ∀ x0 x1, (f x0 x1).pkts = x1.pkts) : (eachBit i v f s).pkts = s.pkts := by
  unfold eachBit
  first
  | (simp [*]; done)
  | ((repeat' split) <;> simp [*]; done)
  | ((try dsimp only); (repeat' split) <;> simp (disch := (intros; (repeat' split) <;> simp [*])) [*]; done)
  | (refine State.taskDo_pkts _ _ _ (fun _ => ?_); (repeat' split) <;> first | exact keepsM_pure _ _ | (simp [*]; done))

@[simp] theorem eachBit_resp (i : Nat) (v : Nat) (f : Nat → State → State) (s : State) (hf : ∀ x0 x1, (f x0 x1).resp = x1.resp) : (eachBit i v f s).resp = s.resp := by
  unfold eachBit
  first
  | (simp [*]; done)
  | ((repeat' split) <;> simp [*]; done)
  | ((try dsimp only); (repeat' split) <;> simp (disch := (intros; (repeat' split) <;> simp [*])) [*]; done)
  | (refine State.taskDo_resp _ _ _ (fun _ => ?_); (repeat' split) <;> first | exact keepsM_pure _ _ | (simp [*]; done))

@[simp] theorem eachBit_regs (i : Nat) (v : Nat) (f : Nat → State → State) (s : State) (hf : ∀ x0 x1, (f x0 x1).regs = x1.regs) : (eachBit i v f s).regs = s.regs := by
  unfold eachBit
  first
  | (simp [*]; done)
  | ((repeat' split) <;> simp [*]; done)
  | ((try dsimp only); (repeat' split) <;> simp (disch := (intros; (repeat' split) <;> simp [*])) [*]; done)
  | (refine State.taskDo_regs _ _ _ (fun _ => ?_); (repeat' split) <;> first | exact keepsM_pure _ _ | (simp [*]; done))

@[simp] theorem eachBit_wires (i : Nat) (v : Nat) (f : Nat → State → State) (s : State) (hf : ∀ x0 x1, (f x0 x1).wires = x1.wires) : (eachBit i v f s).wires = s.wires := by
  unfold eachBit
  first
  | (simp [*]; done)
  | ((repeat' split) <;> simp [*]; done)
  | ((try dsimp only); (repeat' split) <;> simp (disch := (intros; (repeat' split) <;> simp [*])) [*]; done)
  | (refine State.taskDo_wires _ _ _ (fun _ => ?_); (repeat' split) <;> first | exact keepsM_pure _ _ | (simp [*]; done))

@[simp] theorem eachBit_dmg (i : Nat) (v : Nat) (f : Nat → State → State) (s : State) (hf : ∀ x0 x1, (f x0 x1).dmg = x1.dmg) : (eachBit i v f s).dmg = s.dmg := by
  unfold eachBit
  first
  | (simp [*]; done)
  | ((repeat' split) <;> simp [*]; done)
  | ((try dsimp only); (repeat' split) <;> simp (disch := (intros; (repeat' split) <;> simp [*])) [*]; done)
  | (refine State.taskDo_dmg _ _ _ (fun _ => ?_); (repeat' split) <;> first | exact keepsM_pure _ _ | (simp [*]; done))

@[simp] theorem eachBit_wq (i : Nat) (v : Nat) (f : Nat → State → State) (s : State) (hf : ∀ x0 x1, (f x0 x1).wq = x1.wq) : (eachBit i v f s).wq = s.wq := by
  unfold eachBit
  first
  | (simp [*]; done)
  | ((repeat' split) <;> simp [*]; done)
  | ((try dsimp only); (repeat' split) <;> simp (disch := (intros; (repeat' split) <;> simp [*])) [*]; done)
  | (refine State.taskDo_wq _ _ _ (fun _ => ?_); (repeat' split) <;> first | exact keepsM_pure _ _ | (simp [*]; done))

@[simp] theorem eachBit_net (i : Nat) (v : Nat) (f : Nat → State → State) (s : State) (hf : ∀ x0 x1, (f x0 x1).net = x1.net) : (eachBit i v f s).net = s.net := by
  unfold eachBit
  first
  | (simp [*]; done)
  | ((repeat' split) <;> simp [*]; done)
  | ((try dsimp only); (repeat' split) <;> simp (disch := (intros; (repeat' split) <;> simp [*])) [*]; done)
  | (refine State.taskDo_net _ _ _ (fun _ => ?_); (repeat' split) <;> first | exact keepsM_pure _ _ | (simp [*]; done))

@[simp] theorem eachBit_dbInval (i : Nat) (v : Nat) (f : Nat → State → State) (s : State) (hf : ∀ x0 x1, (f x0 x1).dbInval = x1.dbInval) : (eachBit i v f s).dbInval = s.dbInval := by
  unfold eachBit
  first
  | (simp [*]; done)
  | ((repeat' split) <;> simp [*]; done)
  | ((try dsimp only); (repeat' split) <;> simp (disch := (intros; (repeat' split) <;> simp [*])) [*]; done)
  | (refine State.taskDo_dbInval _ _ _ (fun _ => ?_); (repeat' split) <;> first | exact keepsM_pure _ _ | (simp [*]; done))

@[simp] theorem eachBit_watch (i : Nat) (v : Nat) (f : Nat → State → State) (s : State) (hf : ∀ x0 x1, (f x0 x1).watch = x1.watch) : (eachBit i v f s).watch = s.watch := by
  unfold eachBit
  first
  | (simp [*]; done)
  | ((repeat' split) <;> simp [*]; done)
  | ((try dsimp only); (repeat' split) <;> simp (disch := (intros; (repeat' split) <;> simp [*])) [*]; done)
  | (refine State.taskDo_watch _ _ _ (fun _ => ?_); (repeat' split) <;> first | exact keepsM_pure _ _ | (simp [*]; done))

@[simp] theorem eachBit_pkg (i : Nat) (v : Nat) (f : Nat → State → State) (s : State) (hf : ∀ x0 x1, (f x0 x1).pkg = x1.pkg) : (eachBit i v f s).pkg = s.pkg := by
  unfold eachBit
  first
  | (simp [*]; done)
  | ((repeat' split) <;> simp [*]; done)
  | ((try dsimp only); (repeat' split) <;> simp (disch := (intros; (repeat' split) <;> simp [*])) [*]; done)
  | (refine State.taskDo_pkg _ _ _ (fun _ => ?_); (repeat' split) <;> first | exact keepsM_pure _ _ | (simp [*]; done))

@[simp] theorem eachBit_pmc (i : Nat) (v : Nat) (f : Nat → State → State) (s : State) (hf : ∀ x0 x1, (f x0 x1).pmc = x1.pmc) : (eachBit i v f s).pmc = s.pmc := by
  unfold eachBit
  first
  | (simp [*]; done)
  | ((repeat' split) <;> simp [*]; done)
  | ((try dsimp only); (repeat' split) <;> simp (disch := (intros; (repeat' split) <;> simp [*])) [*]; done)
  | (refine State.taskDo_pmc _ _ _ (fun _ => ?_); (repeat' split) <;> first | exact keepsM_pure _ _ | (simp [*]; done))

@[simp] theorem eachBit_fwLog (i : Nat) (v : Nat) (f : Nat → State → State) (s : State) (hf : ∀ x0 x1, (f x0 x1).fwLog = x1.fwLog) : (eachBit i v f s).fwLog = s.fwLog := by
  unfold eachBit
  first
  | (simp [*]; done)
  | ((repeat' split) <;> simp [*]; done)
  | ((try dsimp only); (repeat' split) <;> simp (disch := (intros; (repeat' split) <;> simp [*])) [*]; done)
  | (refine State.taskDo_fwLog _ _ _ (fun _ => ?_); (repeat' split) <;> first | exact keepsM_pure _ _ | (simp [*]; done))

@[simp] theorem eachBit_out (i : Nat) (v : Nat) (f : Nat → State → State) (s : State) (hf : ∀ x0 x1, (f x0 x1).out = x1.out) : (eachBit i v f s).out = s.out := by
  unfold eachBit
  first
  | (simp [*]; done)
  | ((repeat' split) <;> simp [*]; done)
  | ((try dsimp only); (repeat' split) <;> simp (disch := (intros; (repeat' split) <;> simp [*])) [*]; done)
  | (refine State.taskDo_out _ _ _ (fun _ => ?_); (repeat' split) <;> first | exact keepsM_pure _ _ | (simp [*]; done))

@[simp] theorem eachBit_free (i : Nat) (v : Nat) (f : Nat → State → State) (s : State) (hf : ∀ x0 x1, (f x0 x1).free = x1.free) : (eachBit i v f s).free = s.free := by
  unfold eachBit
  first
  | (simp [*]; done)
  | ((repeat' split) <;> simp [*]; done)
  | ((try dsimp only); (repeat' split) <;> simp (disch := (intros; (repeat' split) <;> simp [*])) [*]; done)
  | (refine State.taskDo_free _ _ _ (fun _ => ?_); (repeat' split) <;> first | exact keepsM_pure _ _ | (simp [*]; done))

theorem State.aplicWrite_fr (s : State) (w : World) (o : Nat) (v : Nat) : (State.aplicWrite s w o v).pending = s.pending ∧ (State.aplicWrite s w o v).flash = s.flash ∧ (State.aplicWrite s w o v).coldOpt = s.coldOpt ∧ (State.aplicWrite s w o v).mem = s.mem ∧ (State.aplicWrite s w o v).harts = s.harts ∧ (State.aplicWrite s w o v).eng = s.eng ∧ (State.aplicWrite s w o v).dm = s.dm ∧ (State.aplicWrite s w o v).fx = s.fx ∧ (State.aplicWrite s w o v).ctu = s.ctu ∧ (State.aplicWrite s w o v).links = s.links ∧ (State.aplicWrite s w o v).credits = s.credits ∧ (State.aplicWrite s w o v).clusters = s.clusters ∧ (State.aplicWrite s w o v).homes = s.homes ∧ (State.aplicWrite s w o v).pkts = s.pkts ∧ (State.aplicWrite s w o v).resp = s.resp ∧ (State.aplicWrite s w o v).wires = s.wires ∧ (State.aplicWrite s w o v).dmg = s.dmg ∧ (State.aplicWrite s w o v).wq = s.wq ∧ (State.aplicWrite s w o v).net = s.net ∧ (State.aplicWrite s w o v).dbInval = s.dbInval ∧ (State.aplicWrite s w o v).watch = s.watch ∧ (State.aplicWrite s w o v).pkg = s.pkg ∧ (State.aplicWrite s w o v).out = s.out ∧ (State.aplicWrite s w o v).free = s.free ∧ (State.aplicWrite s w o v).fabric = s.fabric ∧ (State.aplicWrite s w o v).files = s.files := by
  generalize h : State.aplicWrite s w o v = u
  unfold State.aplicWrite at h
  rw [← h]; simp [kept @State.aplicDeliver_fr, kept @State.aplicSend_fr, kept @State.setAplic_fr, kept @State.writeEn_fr, kept @State.writePend_fr, kept @State.writeSourcecfg_fr]

theorem State.regRead_fr (s : State) (who : Ident) (off : Nat) (size : Nat) (user : Bool) : (State.regRead s who off size user).2.pending = s.pending ∧ (State.regRead s who off size user).2.flash = s.flash ∧ (State.regRead s who off size user).2.coldOpt = s.coldOpt ∧ (State.regRead s who off size user).2.mem = s.mem ∧ (State.regRead s who off size user).2.harts = s.harts ∧ (State.regRead s who off size user).2.imsic = s.imsic ∧ (State.regRead s who off size user).2.eng = s.eng ∧ (State.regRead s who off size user).2.dm = s.dm ∧ (State.regRead s who off size user).2.fx = s.fx ∧ (State.regRead s who off size user).2.ctu = s.ctu ∧ (State.regRead s who off size user).2.links = s.links ∧ (State.regRead s who off size user).2.aplicS = s.aplicS ∧ (State.regRead s who off size user).2.aplicN = s.aplicN ∧ (State.regRead s who off size user).2.credits = s.credits ∧ (State.regRead s who off size user).2.clusters = s.clusters ∧ (State.regRead s who off size user).2.homes = s.homes ∧ (State.regRead s who off size user).2.pkts = s.pkts ∧ (State.regRead s who off size user).2.resp = s.resp ∧ (State.regRead s who off size user).2.wires = s.wires ∧ (State.regRead s who off size user).2.dmg = s.dmg ∧ (State.regRead s who off size user).2.wq = s.wq ∧ (State.regRead s who off size user).2.net = s.net ∧ (State.regRead s who off size user).2.dbInval = s.dbInval ∧ (State.regRead s who off size user).2.watch = s.watch ∧ (State.regRead s who off size user).2.pkg = s.pkg ∧ (State.regRead s who off size user).2.fwLog = s.fwLog ∧ (State.regRead s who off size user).2.out = s.out ∧ (State.regRead s who off size user).2.free = s.free ∧ (State.regRead s who off size user).2.fabric = s.fabric ∧ (State.regRead s who off size user).2.files = s.files := by
  generalize h : (State.regRead s who off size user).2 = u
  unfold State.regRead at h
  (try dsimp only at h); (repeat' split at h) <;> rw [← h] <;> simp [kept @State.viol_fr]

theorem State.stage_fr (s : State) (w : World) (o : Nat) (v : Nat) (m : Nat) {u : State} (h : State.stage s w o v m = some u) : u.pending = s.pending ∧ u.flash = s.flash ∧ u.coldOpt = s.coldOpt ∧ u.mem = s.mem ∧ u.harts = s.harts ∧ u.mram = s.mram ∧ u.imsic = s.imsic ∧ u.eng = s.eng ∧ u.dm = s.dm ∧ u.fx = s.fx ∧ u.links = s.links ∧ u.aplicS = s.aplicS ∧ u.aplicN = s.aplicN ∧ u.credits = s.credits ∧ u.clusters = s.clusters ∧ u.homes = s.homes ∧ u.pkts = s.pkts ∧ u.resp = s.resp ∧ u.wires = s.wires ∧ u.dmg = s.dmg ∧ u.wq = s.wq ∧ u.net = s.net ∧ u.dbInval = s.dbInval ∧ u.watch = s.watch ∧ u.pkg = s.pkg ∧ u.pmc = s.pmc ∧ u.fwLog = s.fwLog ∧ u.out = s.out ∧ u.free = s.free ∧ u.fabric = s.fabric ∧ u.files = s.files := by
  unfold State.stage at h
  (try dsimp only at h); (repeat' split at h) <;> (first | (simp only [Host.Outcome.next.injEq] at h; rw [← h]) | (simp only [reduceCtorEq] at h; done) | (simp only [Option.some.injEq] at h; rw [← h])) <;> simp [kept @State.ctuEnqueue_fr, kept @State.setCtu_fr]

theorem State.stage_getD (s : State) (w : World) (o : Nat) (v : Nat) (m : Nat) : ((State.stage s w o v m).getD s).pending = s.pending ∧ ((State.stage s w o v m).getD s).flash = s.flash ∧ ((State.stage s w o v m).getD s).coldOpt = s.coldOpt ∧ ((State.stage s w o v m).getD s).mem = s.mem ∧ ((State.stage s w o v m).getD s).harts = s.harts ∧ ((State.stage s w o v m).getD s).mram = s.mram ∧ ((State.stage s w o v m).getD s).imsic = s.imsic ∧ ((State.stage s w o v m).getD s).eng = s.eng ∧ ((State.stage s w o v m).getD s).dm = s.dm ∧ ((State.stage s w o v m).getD s).fx = s.fx ∧ ((State.stage s w o v m).getD s).links = s.links ∧ ((State.stage s w o v m).getD s).aplicS = s.aplicS ∧ ((State.stage s w o v m).getD s).aplicN = s.aplicN ∧ ((State.stage s w o v m).getD s).credits = s.credits ∧ ((State.stage s w o v m).getD s).clusters = s.clusters ∧ ((State.stage s w o v m).getD s).homes = s.homes ∧ ((State.stage s w o v m).getD s).pkts = s.pkts ∧ ((State.stage s w o v m).getD s).resp = s.resp ∧ ((State.stage s w o v m).getD s).wires = s.wires ∧ ((State.stage s w o v m).getD s).dmg = s.dmg ∧ ((State.stage s w o v m).getD s).wq = s.wq ∧ ((State.stage s w o v m).getD s).net = s.net ∧ ((State.stage s w o v m).getD s).dbInval = s.dbInval ∧ ((State.stage s w o v m).getD s).watch = s.watch ∧ ((State.stage s w o v m).getD s).pkg = s.pkg ∧ ((State.stage s w o v m).getD s).pmc = s.pmc ∧ ((State.stage s w o v m).getD s).fwLog = s.fwLog ∧ ((State.stage s w o v m).getD s).out = s.out ∧ ((State.stage s w o v m).getD s).free = s.free ∧ ((State.stage s w o v m).getD s).fabric = s.fabric ∧ ((State.stage s w o v m).getD s).files = s.files := by
  cases h : State.stage s w o v m with
  | none => simp
  | some u => simpa using State.stage_fr s w o v m h

theorem State.writeField_fr (s : State) (o : Nat) (locked : Bool) (x : FldWrite) : (State.writeField s o locked x).pending = s.pending ∧ (State.writeField s o locked x).flash = s.flash ∧ (State.writeField s o locked x).coldOpt = s.coldOpt ∧ (State.writeField s o locked x).mem = s.mem ∧ (State.writeField s o locked x).harts = s.harts ∧ (State.writeField s o locked x).mram = s.mram ∧ (State.writeField s o locked x).imsic = s.imsic ∧ (State.writeField s o locked x).eng = s.eng ∧ (State.writeField s o locked x).dm = s.dm ∧ (State.writeField s o locked x).fx = s.fx ∧ (State.writeField s o locked x).ctu = s.ctu ∧ (State.writeField s o locked x).links = s.links ∧ (State.writeField s o locked x).aplicS = s.aplicS ∧ (State.writeField s o locked x).aplicN = s.aplicN ∧ (State.writeField s o locked x).credits = s.credits ∧ (State.writeField s o locked x).clusters = s.clusters ∧ (State.writeField s o locked x).homes = s.homes ∧ (State.writeField s o locked x).pkts = s.pkts ∧ (State.writeField s o locked x).resp = s.resp ∧ (State.writeField s o locked x).wires = s.wires ∧ (State.writeField s o locked x).dmg = s.dmg ∧ (State.writeField s o locked x).wq = s.wq ∧ (State.writeField s o locked x).net = s.net ∧ (State.writeField s o locked x).dbInval = s.dbInval ∧ (State.writeField s o locked x).watch = s.watch ∧ (State.writeField s o locked x).pkg = s.pkg ∧ (State.writeField s o locked x).pmc = s.pmc ∧ (State.writeField s o locked x).fwLog = s.fwLog ∧ (State.writeField s o locked x).out = s.out ∧ (State.writeField s o locked x).free = s.free ∧ (State.writeField s o locked x).fabric = s.fabric ∧ (State.writeField s o locked x).files = s.files := by
  generalize h : State.writeField s o locked x = u
  unfold State.writeField at h
  (try dsimp only at h); (repeat' split at h) <;> rw [← h] <;> simp [kept @State.wr_fr]

theorem State.statClear_fr (s : State) (t : Nat) : (State.statClear s t).pending = s.pending ∧ (State.statClear s t).flash = s.flash ∧ (State.statClear s t).coldOpt = s.coldOpt ∧ (State.statClear s t).mem = s.mem ∧ (State.statClear s t).harts = s.harts ∧ (State.statClear s t).mram = s.mram ∧ (State.statClear s t).imsic = s.imsic ∧ (State.statClear s t).eng = s.eng ∧ (State.statClear s t).dm = s.dm ∧ (State.statClear s t).fx = s.fx ∧ (State.statClear s t).ctu = s.ctu ∧ (State.statClear s t).links = s.links ∧ (State.statClear s t).aplicS = s.aplicS ∧ (State.statClear s t).aplicN = s.aplicN ∧ (State.statClear s t).credits = s.credits ∧ (State.statClear s t).clusters = s.clusters ∧ (State.statClear s t).homes = s.homes ∧ (State.statClear s t).pkts = s.pkts ∧ (State.statClear s t).resp = s.resp ∧ (State.statClear s t).wires = s.wires ∧ (State.statClear s t).dmg = s.dmg ∧ (State.statClear s t).wq = s.wq ∧ (State.statClear s t).net = s.net ∧ (State.statClear s t).dbInval = s.dbInval ∧ (State.statClear s t).watch = s.watch ∧ (State.statClear s t).pkg = s.pkg ∧ (State.statClear s t).pmc = s.pmc ∧ (State.statClear s t).fwLog = s.fwLog ∧ (State.statClear s t).out = s.out ∧ (State.statClear s t).free = s.free ∧ (State.statClear s t).fabric = s.fabric ∧ (State.statClear s t).files = s.files := by
  generalize h : State.statClear s t = u
  unfold State.statClear at h
  rw [← h]; simp

theorem State.pmonClear_fr (s : State) : (State.pmonClear s).pending = s.pending ∧ (State.pmonClear s).flash = s.flash ∧ (State.pmonClear s).coldOpt = s.coldOpt ∧ (State.pmonClear s).mem = s.mem ∧ (State.pmonClear s).harts = s.harts ∧ (State.pmonClear s).mram = s.mram ∧ (State.pmonClear s).imsic = s.imsic ∧ (State.pmonClear s).eng = s.eng ∧ (State.pmonClear s).dm = s.dm ∧ (State.pmonClear s).fx = s.fx ∧ (State.pmonClear s).ctu = s.ctu ∧ (State.pmonClear s).links = s.links ∧ (State.pmonClear s).aplicS = s.aplicS ∧ (State.pmonClear s).aplicN = s.aplicN ∧ (State.pmonClear s).credits = s.credits ∧ (State.pmonClear s).clusters = s.clusters ∧ (State.pmonClear s).homes = s.homes ∧ (State.pmonClear s).pkts = s.pkts ∧ (State.pmonClear s).resp = s.resp ∧ (State.pmonClear s).wires = s.wires ∧ (State.pmonClear s).dmg = s.dmg ∧ (State.pmonClear s).wq = s.wq ∧ (State.pmonClear s).net = s.net ∧ (State.pmonClear s).dbInval = s.dbInval ∧ (State.pmonClear s).watch = s.watch ∧ (State.pmonClear s).pkg = s.pkg ∧ (State.pmonClear s).pmc = s.pmc ∧ (State.pmonClear s).fwLog = s.fwLog ∧ (State.pmonClear s).out = s.out ∧ (State.pmonClear s).free = s.free ∧ (State.pmonClear s).fabric = s.fabric ∧ (State.pmonClear s).files = s.files := by
  generalize h : State.pmonClear s = u
  unfold State.pmonClear at h
  rw [← h]; simp

theorem State.mailboxSubmit_fr (s : State) (w : Nat) : (State.mailboxSubmit s w).pending = s.pending ∧ (State.mailboxSubmit s w).flash = s.flash ∧ (State.mailboxSubmit s w).coldOpt = s.coldOpt ∧ (State.mailboxSubmit s w).mem = s.mem ∧ (State.mailboxSubmit s w).harts = s.harts ∧ (State.mailboxSubmit s w).mram = s.mram ∧ (State.mailboxSubmit s w).imsic = s.imsic ∧ (State.mailboxSubmit s w).eng = s.eng ∧ (State.mailboxSubmit s w).dm = s.dm ∧ (State.mailboxSubmit s w).ctu = s.ctu ∧ (State.mailboxSubmit s w).links = s.links ∧ (State.mailboxSubmit s w).aplicS = s.aplicS ∧ (State.mailboxSubmit s w).aplicN = s.aplicN ∧ (State.mailboxSubmit s w).credits = s.credits ∧ (State.mailboxSubmit s w).clusters = s.clusters ∧ (State.mailboxSubmit s w).homes = s.homes ∧ (State.mailboxSubmit s w).pkts = s.pkts ∧ (State.mailboxSubmit s w).resp = s.resp ∧ (State.mailboxSubmit s w).dmg = s.dmg ∧ (State.mailboxSubmit s w).wq = s.wq ∧ (State.mailboxSubmit s w).net = s.net ∧ (State.mailboxSubmit s w).dbInval = s.dbInval ∧ (State.mailboxSubmit s w).watch = s.watch ∧ (State.mailboxSubmit s w).pkg = s.pkg ∧ (State.mailboxSubmit s w).fwLog = s.fwLog ∧ (State.mailboxSubmit s w).free = s.free ∧ (State.mailboxSubmit s w).fabric = s.fabric ∧ (State.mailboxSubmit s w).files = s.files := by
  generalize h : State.mailboxSubmit s w = u
  unfold State.mailboxSubmit at h
  rw [← h]; simp [kept @State.mgmtRequest_fr, kept @State.wr_fr]

theorem State.bootGood_fr (s : State) : (State.bootGood s).pending = s.pending ∧ (State.bootGood s).flash = s.flash ∧ (State.bootGood s).coldOpt = s.coldOpt ∧ (State.bootGood s).mem = s.mem ∧ (State.bootGood s).harts = s.harts ∧ (State.bootGood s).imsic = s.imsic ∧ (State.bootGood s).eng = s.eng ∧ (State.bootGood s).dm = s.dm ∧ (State.bootGood s).fx = s.fx ∧ (State.bootGood s).ctu = s.ctu ∧ (State.bootGood s).links = s.links ∧ (State.bootGood s).aplicS = s.aplicS ∧ (State.bootGood s).aplicN = s.aplicN ∧ (State.bootGood s).credits = s.credits ∧ (State.bootGood s).clusters = s.clusters ∧ (State.bootGood s).homes = s.homes ∧ (State.bootGood s).pkts = s.pkts ∧ (State.bootGood s).resp = s.resp ∧ (State.bootGood s).wires = s.wires ∧ (State.bootGood s).dmg = s.dmg ∧ (State.bootGood s).wq = s.wq ∧ (State.bootGood s).net = s.net ∧ (State.bootGood s).dbInval = s.dbInval ∧ (State.bootGood s).watch = s.watch ∧ (State.bootGood s).pkg = s.pkg ∧ (State.bootGood s).pmc = s.pmc ∧ (State.bootGood s).fwLog = s.fwLog ∧ (State.bootGood s).out = s.out ∧ (State.bootGood s).free = s.free ∧ (State.bootGood s).fabric = s.fabric ∧ (State.bootGood s).files = s.files := by
  generalize h : State.bootGood s = u
  unfold State.bootGood at h
  rw [← h]; simp [kept @State.setMram_fr, kept @State.wrs_fr]

theorem State.timerBit_fr (s : State) (hh : Nat) : (State.timerBit s hh).pending = s.pending ∧ (State.timerBit s hh).flash = s.flash ∧ (State.timerBit s hh).coldOpt = s.coldOpt ∧ (State.timerBit s hh).mem = s.mem ∧ (State.timerBit s hh).mram = s.mram ∧ (State.timerBit s hh).imsic = s.imsic ∧ (State.timerBit s hh).eng = s.eng ∧ (State.timerBit s hh).dm = s.dm ∧ (State.timerBit s hh).fx = s.fx ∧ (State.timerBit s hh).ctu = s.ctu ∧ (State.timerBit s hh).links = s.links ∧ (State.timerBit s hh).aplicS = s.aplicS ∧ (State.timerBit s hh).aplicN = s.aplicN ∧ (State.timerBit s hh).credits = s.credits ∧ (State.timerBit s hh).clusters = s.clusters ∧ (State.timerBit s hh).homes = s.homes ∧ (State.timerBit s hh).pkts = s.pkts ∧ (State.timerBit s hh).resp = s.resp ∧ (State.timerBit s hh).regs = s.regs ∧ (State.timerBit s hh).wires = s.wires ∧ (State.timerBit s hh).dmg = s.dmg ∧ (State.timerBit s hh).wq = s.wq ∧ (State.timerBit s hh).net = s.net ∧ (State.timerBit s hh).dbInval = s.dbInval ∧ (State.timerBit s hh).watch = s.watch ∧ (State.timerBit s hh).pkg = s.pkg ∧ (State.timerBit s hh).pmc = s.pmc ∧ (State.timerBit s hh).fwLog = s.fwLog ∧ (State.timerBit s hh).out = s.out ∧ (State.timerBit s hh).free = s.free ∧ (State.timerBit s hh).fabric = s.fabric ∧ (State.timerBit s hh).files = s.files := by
  generalize h : State.timerBit s hh = u
  unfold State.timerBit at h
  rw [← h]; simp [kept @State.setHart_fr]

theorem State.ctuOp_fr (s : State) (w : World) (v : Nat) : (State.ctuOp s w v).pending = s.pending ∧ (State.ctuOp s w v).flash = s.flash ∧ (State.ctuOp s w v).coldOpt = s.coldOpt ∧ (State.ctuOp s w v).mem = s.mem ∧ (State.ctuOp s w v).harts = s.harts ∧ (State.ctuOp s w v).mram = s.mram ∧ (State.ctuOp s w v).imsic = s.imsic ∧ (State.ctuOp s w v).eng = s.eng ∧ (State.ctuOp s w v).dm = s.dm ∧ (State.ctuOp s w v).fx = s.fx ∧ (State.ctuOp s w v).links = s.links ∧ (State.ctuOp s w v).aplicS = s.aplicS ∧ (State.ctuOp s w v).aplicN = s.aplicN ∧ (State.ctuOp s w v).credits = s.credits ∧ (State.ctuOp s w v).clusters = s.clusters ∧ (State.ctuOp s w v).homes = s.homes ∧ (State.ctuOp s w v).pkts = s.pkts ∧ (State.ctuOp s w v).resp = s.resp ∧ (State.ctuOp s w v).dmg = s.dmg ∧ (State.ctuOp s w v).wq = s.wq ∧ (State.ctuOp s w v).net = s.net ∧ (State.ctuOp s w v).dbInval = s.dbInval ∧ (State.ctuOp s w v).watch = s.watch ∧ (State.ctuOp s w v).pkg = s.pkg ∧ (State.ctuOp s w v).pmc = s.pmc ∧ (State.ctuOp s w v).fwLog = s.fwLog ∧ (State.ctuOp s w v).out = s.out ∧ (State.ctuOp s w v).free = s.free ∧ (State.ctuOp s w v).fabric = s.fabric ∧ (State.ctuOp s w v).files = s.files := by
  generalize h : State.ctuOp s w v = u
  unfold State.ctuOp at h
  rw [← h]; simp [kept @State.ctuBegin_fr, kept @State.ctuCommit_fr, kept @State.ctuRollback_fr]

theorem State.stopHook_fr (s : State) (o : Nat) (v : Nat) : (State.stopHook s o v).pending = s.pending ∧ (State.stopHook s o v).flash = s.flash ∧ (State.stopHook s o v).coldOpt = s.coldOpt ∧ (State.stopHook s o v).mem = s.mem ∧ (State.stopHook s o v).harts = s.harts ∧ (State.stopHook s o v).mram = s.mram ∧ (State.stopHook s o v).imsic = s.imsic ∧ (State.stopHook s o v).eng = s.eng ∧ (State.stopHook s o v).dm = s.dm ∧ (State.stopHook s o v).fx = s.fx ∧ (State.stopHook s o v).ctu = s.ctu ∧ (State.stopHook s o v).links = s.links ∧ (State.stopHook s o v).aplicS = s.aplicS ∧ (State.stopHook s o v).aplicN = s.aplicN ∧ (State.stopHook s o v).credits = s.credits ∧ (State.stopHook s o v).clusters = s.clusters ∧ (State.stopHook s o v).homes = s.homes ∧ (State.stopHook s o v).pkts = s.pkts ∧ (State.stopHook s o v).resp = s.resp ∧ (State.stopHook s o v).wires = s.wires ∧ (State.stopHook s o v).dmg = s.dmg ∧ (State.stopHook s o v).wq = s.wq ∧ (State.stopHook s o v).net = s.net ∧ (State.stopHook s o v).dbInval = s.dbInval ∧ (State.stopHook s o v).watch = s.watch ∧ (State.stopHook s o v).pkg = s.pkg ∧ (State.stopHook s o v).pmc = s.pmc ∧ (State.stopHook s o v).fwLog = s.fwLog ∧ (State.stopHook s o v).out = s.out ∧ (State.stopHook s o v).free = s.free ∧ (State.stopHook s o v).fabric = s.fabric ∧ (State.stopHook s o v).files = s.files := by
  generalize h : State.stopHook s o v = u
  unfold State.stopHook at h
  (try dsimp only at h); (repeat' split at h) <;> rw [← h] <;> simp [kept @State.statClear_fr]

theorem State.flipDisarm_fr (s : State) (m : Nat) : (State.flipDisarm s m).pending = s.pending ∧ (State.flipDisarm s m).flash = s.flash ∧ (State.flipDisarm s m).coldOpt = s.coldOpt ∧ (State.flipDisarm s m).mem = s.mem ∧ (State.flipDisarm s m).harts = s.harts ∧ (State.flipDisarm s m).mram = s.mram ∧ (State.flipDisarm s m).imsic = s.imsic ∧ (State.flipDisarm s m).eng = s.eng ∧ (State.flipDisarm s m).dm = s.dm ∧ (State.flipDisarm s m).fx = s.fx ∧ (State.flipDisarm s m).ctu = s.ctu ∧ (State.flipDisarm s m).links = s.links ∧ (State.flipDisarm s m).aplicS = s.aplicS ∧ (State.flipDisarm s m).aplicN = s.aplicN ∧ (State.flipDisarm s m).credits = s.credits ∧ (State.flipDisarm s m).clusters = s.clusters ∧ (State.flipDisarm s m).homes = s.homes ∧ (State.flipDisarm s m).pkts = s.pkts ∧ (State.flipDisarm s m).resp = s.resp ∧ (State.flipDisarm s m).regs = s.regs ∧ (State.flipDisarm s m).wires = s.wires ∧ (State.flipDisarm s m).dmg = s.dmg ∧ (State.flipDisarm s m).net = s.net ∧ (State.flipDisarm s m).dbInval = s.dbInval ∧ (State.flipDisarm s m).watch = s.watch ∧ (State.flipDisarm s m).pkg = s.pkg ∧ (State.flipDisarm s m).pmc = s.pmc ∧ (State.flipDisarm s m).fwLog = s.fwLog ∧ (State.flipDisarm s m).out = s.out ∧ (State.flipDisarm s m).free = s.free ∧ (State.flipDisarm s m).fabric = s.fabric ∧ (State.flipDisarm s m).files = s.files := by
  generalize h : State.flipDisarm s m = u
  unfold State.flipDisarm at h
  (try dsimp only at h); (repeat' split at h) <;> rw [← h] <;> simp

theorem State.regHook_fr (s : State) (who : Ident) (o : Nat) (v : Nat) (pend : Bool) : (State.regHook s who o v pend).pending = s.pending ∧ (State.regHook s who o v pend).flash = s.flash ∧ (State.regHook s who o v pend).coldOpt = s.coldOpt ∧ (State.regHook s who o v pend).resp = s.resp ∧ (State.regHook s who o v pend).free = s.free := by
  unfold State.regHook
  simp [kept @State.bootGood_fr, kept @State.ctuOp_fr, kept @State.flipDisarm_fr, kept @State.freeFaults_fr, kept @State.mailboxSubmit_fr, kept @State.pk_fr, kept @State.pmonClear_fr, kept @State.recordReach_fr, kept @State.stopHook_fr, kept @State.submitMode_fr, kept @State.submitPower_fr, kept @State.submitReset_fr, kept @State.timerBit_fr, kept @State.wr_fr]

@[simp] theorem State.putFields_pending (s s1 : State) (who : Ident) (o v : Nat) (mine : List FldWrite) (bad : Bool) :
    (s.putFields s1 who o v mine bad).pending = s1.pending := by
  unfold State.putFields
  simp [kept @State.regHook_fr, kept @State.viol_fr, kept @State.writeField_fr]

@[simp] theorem State.putFields_flash (s s1 : State) (who : Ident) (o v : Nat) (mine : List FldWrite) (bad : Bool) :
    (s.putFields s1 who o v mine bad).flash = s1.flash := by
  unfold State.putFields
  simp [kept @State.regHook_fr, kept @State.viol_fr, kept @State.writeField_fr]

@[simp] theorem State.putFields_coldOpt (s s1 : State) (who : Ident) (o v : Nat) (mine : List FldWrite) (bad : Bool) :
    (s.putFields s1 who o v mine bad).coldOpt = s1.coldOpt := by
  unfold State.putFields
  simp [kept @State.regHook_fr, kept @State.viol_fr, kept @State.writeField_fr]

@[simp] theorem State.putFields_resp (s s1 : State) (who : Ident) (o v : Nat) (mine : List FldWrite) (bad : Bool) :
    (s.putFields s1 who o v mine bad).resp = s1.resp := by
  unfold State.putFields
  simp [kept @State.regHook_fr, kept @State.viol_fr, kept @State.writeField_fr]

@[simp] theorem State.putFields_free (s s1 : State) (who : Ident) (o v : Nat) (mine : List FldWrite) (bad : Bool) :
    (s.putFields s1 who o v mine bad).free = s1.free := by
  unfold State.putFields
  simp [kept @State.regHook_fr, kept @State.viol_fr, kept @State.writeField_fr]

theorem State.stageSome_pending (s u : State) (c : Prop) [Decidable c] (w : World) (o v m : Nat)
    (h : (if c then some s else s.stage w o v m) = some u) : u.pending = s.pending := by
  split at h
  · simp only [Option.some.injEq] at h; rw [h]
  · have h := State.stage_fr s w o v m h
    simp only [h]

@[simp] theorem State.writeReg_pending (s : State) (who : Ident) (o v m : Nat) (r : RegDef) : (s.writeReg who o v m r).2.pending = s.pending := by
  unfold State.writeReg
  dsimp only
  (repeat' split) <;> first
    | rfl
    | (rename_i e; simpa using State.stageSome_pending _ _ _ _ _ _ _ e)

theorem State.stageSome_flash (s u : State) (c : Prop) [Decidable c] (w : World) (o v m : Nat)
    (h : (if c then some s else s.stage w o v m) = some u) : u.flash = s.flash := by
  split at h
  · simp only [Option.some.injEq] at h; rw [h]
  · have h := State.stage_fr s w o v m h
    simp only [h]

@[simp] theorem State.writeReg_flash (s : State) (who : Ident) (o v m : Nat) (r : RegDef) : (s.writeReg who o v m r).2.flash = s.flash := by
  unfold State.writeReg
  dsimp only
  (repeat' split) <;> first
    | rfl
    | (rename_i e; simpa using State.stageSome_flash _ _ _ _ _ _ _ e)

theorem State.stageSome_coldOpt (s u : State) (c : Prop) [Decidable c] (w : World) (o v m : Nat)
    (h : (if c then some s else s.stage w o v m) = some u) : u.coldOpt = s.coldOpt := by
  split at h
  · simp only [Option.some.injEq] at h; rw [h]
  · have h := State.stage_fr s w o v m h
    simp only [h]

@[simp] theorem State.writeReg_coldOpt (s : State) (who : Ident) (o v m : Nat) (r : RegDef) : (s.writeReg who o v m r).2.coldOpt = s.coldOpt := by
  unfold State.writeReg
  dsimp only
  (repeat' split) <;> first
    | rfl
    | (rename_i e; simpa using State.stageSome_coldOpt _ _ _ _ _ _ _ e)

theorem State.stageSome_resp (s u : State) (c : Prop) [Decidable c] (w : World) (o v m : Nat)
    (h : (if c then some s else s.stage w o v m) = some u) : u.resp = s.resp := by
  split at h
  · simp only [Option.some.injEq] at h; rw [h]
  · have h := State.stage_fr s w o v m h
    simp only [h]

@[simp] theorem State.writeReg_resp (s : State) (who : Ident) (o v m : Nat) (r : RegDef) : (s.writeReg who o v m r).2.resp = s.resp := by
  unfold State.writeReg
  dsimp only
  (repeat' split) <;> first
    | rfl
    | (rename_i e; simpa using State.stageSome_resp _ _ _ _ _ _ _ e)

theorem State.stageSome_free (s u : State) (c : Prop) [Decidable c] (w : World) (o v m : Nat)
    (h : (if c then some s else s.stage w o v m) = some u) : u.free = s.free := by
  split at h
  · simp only [Option.some.injEq] at h; rw [h]
  · have h := State.stage_fr s w o v m h
    simp only [h]

@[simp] theorem State.writeReg_free (s : State) (who : Ident) (o v m : Nat) (r : RegDef) : (s.writeReg who o v m r).2.free = s.free := by
  unfold State.writeReg
  dsimp only
  (repeat' split) <;> first
    | rfl
    | (rename_i e; simpa using State.stageSome_free _ _ _ _ _ _ _ e)

theorem State.fileStore_fr (s : State) (who : Ident) (f : Nat) (off : Nat) (val : Nat) : (State.fileStore s who f off val).pending = s.pending ∧ (State.fileStore s who f off val).flash = s.flash ∧ (State.fileStore s who f off val).coldOpt = s.coldOpt ∧ (State.fileStore s who f off val).mem = s.mem ∧ (State.fileStore s who f off val).harts = s.harts ∧ (State.fileStore s who f off val).eng = s.eng ∧ (State.fileStore s who f off val).dm = s.dm ∧ (State.fileStore s who f off val).fx = s.fx ∧ (State.fileStore s who f off val).ctu = s.ctu ∧ (State.fileStore s who f off val).links = s.links ∧ (State.fileStore s who f off val).aplicS = s.aplicS ∧ (State.fileStore s who f off val).aplicN = s.aplicN ∧ (State.fileStore s who f off val).credits = s.credits ∧ (State.fileStore s who f off val).clusters = s.clusters ∧ (State.fileStore s who f off val).homes = s.homes ∧ (State.fileStore s who f off val).pkts = s.pkts ∧ (State.fileStore s who f off val).resp = s.resp ∧ (State.fileStore s who f off val).wires = s.wires ∧ (State.fileStore s who f off val).dmg = s.dmg ∧ (State.fileStore s who f off val).wq = s.wq ∧ (State.fileStore s who f off val).net = s.net ∧ (State.fileStore s who f off val).dbInval = s.dbInval ∧ (State.fileStore s who f off val).watch = s.watch ∧ (State.fileStore s who f off val).pkg = s.pkg ∧ (State.fileStore s who f off val).out = s.out ∧ (State.fileStore s who f off val).free = s.free ∧ (State.fileStore s who f off val).fabric = s.fabric ∧ (State.fileStore s who f off val).files = s.files := by
  generalize h : State.fileStore s who f off val = u
  unfold State.fileStore at h
  (try dsimp only at h); (repeat' split at h) <;> rw [← h] <;> simp [kept @State.logFw_fr, kept @State.msi_fr, kept @State.viol_fr]

theorem State.regWrite_fr (s : State) (who : Ident) (off : Nat) (size : Nat) (val : Nat) (user : Bool) : (State.regWrite s who off size val user).2.pending = s.pending ∧ (State.regWrite s who off size val user).2.flash = s.flash ∧ (State.regWrite s who off size val user).2.coldOpt = s.coldOpt ∧ (State.regWrite s who off size val user).2.resp = s.resp ∧ (State.regWrite s who off size val user).2.free = s.free := by
  generalize h : (State.regWrite s who off size val user).2 = u
  unfold State.regWrite at h
  (try dsimp only at h); (repeat' split at h) <;> rw [← h] <;> simp [kept @State.aplicWrite_fr, kept @State.fileStore_fr, kept @State.viol_fr]

theorem State.regStore_fr (s : State) (who : Ident) (off : Nat) (size : Nat) (val : Nat) (user : Bool) : (State.regStore s who off size val user).pending = s.pending ∧ (State.regStore s who off size val user).flash = s.flash ∧ (State.regStore s who off size val user).coldOpt = s.coldOpt ∧ (State.regStore s who off size val user).free = s.free := by
  generalize h : State.regStore s who off size val user = u
  unfold State.regStore at h
  (try dsimp only at h); (repeat' split at h) <;> (rw [← h];  (try simp only [Prod.ext_iff] at *); (try casesm* _ ∧ _); (try casesm* @Eq State _ _); (try simp [*, kept @State.answer_fr, kept @State.regWrite_fr]))

end Sys2Proof.Machine
end

