-- ==== Sys2Proof/Laws/Frame/CohCmds.lean ====
section
/-! SUPPORT. What the operations of Machine/CohCmds.lean leave unchanged. -/

set_option Elab.async false
set_option linter.all false

namespace Sys2Proof.Machine
open Sys2Proof

theorem State.reqFails_fr (s : State) (c : Nat) (ln : Nat) (who : Ident) : (State.reqFails s c ln who).pending = s.pending ∧ (State.reqFails s c ln who).flash = s.flash ∧ (State.reqFails s c ln who).coldOpt = s.coldOpt ∧ (State.reqFails s c ln who).imsic = s.imsic ∧ (State.reqFails s c ln who).eng = s.eng ∧ (State.reqFails s c ln who).dm = s.dm ∧ (State.reqFails s c ln who).fx = s.fx ∧ (State.reqFails s c ln who).ctu = s.ctu ∧ (State.reqFails s c ln who).links = s.links ∧ (State.reqFails s c ln who).aplicS = s.aplicS ∧ (State.reqFails s c ln who).aplicN = s.aplicN ∧ (State.reqFails s c ln who).credits = s.credits ∧ (State.reqFails s c ln who).pkts = s.pkts ∧ (State.reqFails s c ln who).resp = s.resp ∧ (State.reqFails s c ln who).out = s.out ∧ (State.reqFails s c ln who).fabric = s.fabric ∧ (State.reqFails s c ln who).files = s.files := by
  generalize h : State.reqFails s c ln who = u
  unfold State.reqFails at h
  rw [← h]; simp [kept @State.abortAcc_fr, kept @State.askMore_fr, kept @State.freeHeld_fr, kept @State.retryWaits_fr, kept @State.setCluster_fr]

theorem State.domainOff_fr (s : State) (t : Nat) (a : Nat) (ln : Nat) (who : Ident) (write : Bool) : (State.domainOff s t a ln who write).pending = s.pending ∧ (State.domainOff s t a ln who write).flash = s.flash ∧ (State.domainOff s t a ln who write).coldOpt = s.coldOpt ∧ (State.domainOff s t a ln who write).mem = s.mem ∧ (State.domainOff s t a ln who write).harts = s.harts ∧ (State.domainOff s t a ln who write).mram = s.mram ∧ (State.domainOff s t a ln who write).imsic = s.imsic ∧ (State.domainOff s t a ln who write).eng = s.eng ∧ (State.domainOff s t a ln who write).dm = s.dm ∧ (State.domainOff s t a ln who write).fx = s.fx ∧ (State.domainOff s t a ln who write).ctu = s.ctu ∧ (State.domainOff s t a ln who write).links = s.links ∧ (State.domainOff s t a ln who write).aplicS = s.aplicS ∧ (State.domainOff s t a ln who write).aplicN = s.aplicN ∧ (State.domainOff s t a ln who write).credits = s.credits ∧ (State.domainOff s t a ln who write).clusters = s.clusters ∧ (State.domainOff s t a ln who write).homes = s.homes ∧ (State.domainOff s t a ln who write).pkts = s.pkts ∧ (State.domainOff s t a ln who write).resp = s.resp ∧ (State.domainOff s t a ln who write).regs = s.regs ∧ (State.domainOff s t a ln who write).wires = s.wires ∧ (State.domainOff s t a ln who write).dmg = s.dmg ∧ (State.domainOff s t a ln who write).wq = s.wq ∧ (State.domainOff s t a ln who write).dbInval = s.dbInval ∧ (State.domainOff s t a ln who write).watch = s.watch ∧ (State.domainOff s t a ln who write).pkg = s.pkg ∧ (State.domainOff s t a ln who write).pmc = s.pmc ∧ (State.domainOff s t a ln who write).out = s.out ∧ (State.domainOff s t a ln who write).free = s.free ∧ (State.domainOff s t a ln who write).fabric = s.fabric ∧ (State.domainOff s t a ln who write).files = s.files := by
  generalize h : State.domainOff s t a ln who write = u
  unfold State.domainOff at h
  rw [← h]; simp [kept @State.logFw_fr, kept @State.post_fr]

theorem State.sendReq_fr (s : State) (c : Nat) (ln : Nat) (k : ReqKind) : (State.sendReq s c ln k).pending = s.pending ∧ (State.sendReq s c ln k).flash = s.flash ∧ (State.sendReq s c ln k).coldOpt = s.coldOpt ∧ (State.sendReq s c ln k).mem = s.mem ∧ (State.sendReq s c ln k).harts = s.harts ∧ (State.sendReq s c ln k).mram = s.mram ∧ (State.sendReq s c ln k).imsic = s.imsic ∧ (State.sendReq s c ln k).eng = s.eng ∧ (State.sendReq s c ln k).dm = s.dm ∧ (State.sendReq s c ln k).fx = s.fx ∧ (State.sendReq s c ln k).ctu = s.ctu ∧ (State.sendReq s c ln k).links = s.links ∧ (State.sendReq s c ln k).aplicS = s.aplicS ∧ (State.sendReq s c ln k).aplicN = s.aplicN ∧ (State.sendReq s c ln k).credits = s.credits ∧ (State.sendReq s c ln k).pkts = s.pkts ∧ (State.sendReq s c ln k).resp = s.resp ∧ (State.sendReq s c ln k).wires = s.wires ∧ (State.sendReq s c ln k).dmg = s.dmg ∧ (State.sendReq s c ln k).dbInval = s.dbInval ∧ (State.sendReq s c ln k).watch = s.watch ∧ (State.sendReq s c ln k).pkg = s.pkg ∧ (State.sendReq s c ln k).pmc = s.pmc ∧ (State.sendReq s c ln k).out = s.out ∧ (State.sendReq s c ln k).free = s.free ∧ (State.sendReq s c ln k).fabric = s.fabric ∧ (State.sendReq s c ln k).files = s.files := by
  generalize h : State.sendReq s c ln k = u
  unfold State.sendReq at h
  (try dsimp only at h); (repeat' split at h) <;> rw [← h] <;> simp [kept @State.arrive_fr, kept @State.domainOff_fr, kept @State.setCluster_fr]

theorem execRdShared_fr (c : Fin 36) (ln : Nat) (s : State) {u : State} (h : execRdShared c ln s = .next u) : u.pending = s.pending ∧ u.flash = s.flash ∧ u.coldOpt = s.coldOpt ∧ u.mem = s.mem ∧ u.harts = s.harts ∧ u.mram = s.mram ∧ u.imsic = s.imsic ∧ u.eng = s.eng ∧ u.dm = s.dm ∧ u.fx = s.fx ∧ u.ctu = s.ctu ∧ u.links = s.links ∧ u.aplicS = s.aplicS ∧ u.aplicN = s.aplicN ∧ u.credits = s.credits ∧ u.pkts = s.pkts ∧ u.resp = s.resp ∧ u.wires = s.wires ∧ u.dmg = s.dmg ∧ u.dbInval = s.dbInval ∧ u.watch = s.watch ∧ u.pkg = s.pkg ∧ u.pmc = s.pmc ∧ u.out = s.out ∧ u.free = s.free ∧ u.fabric = s.fabric ∧ u.files = s.files := by
  unfold execRdShared at h
  (first | (simp only [Host.Outcome.next.injEq] at h; rw [← h]) | (simp only [reduceCtorEq] at h; done) | (simp only [Option.some.injEq] at h; rw [← h])); simp [kept @State.sendReq_fr]

theorem State.watchAsk_fr (s : State) (ln : Nat) : (State.watchAsk s ln).pending = s.pending ∧ (State.watchAsk s ln).flash = s.flash ∧ (State.watchAsk s ln).coldOpt = s.coldOpt ∧ (State.watchAsk s ln).mem = s.mem ∧ (State.watchAsk s ln).harts = s.harts ∧ (State.watchAsk s ln).mram = s.mram ∧ (State.watchAsk s ln).imsic = s.imsic ∧ (State.watchAsk s ln).eng = s.eng ∧ (State.watchAsk s ln).dm = s.dm ∧ (State.watchAsk s ln).fx = s.fx ∧ (State.watchAsk s ln).ctu = s.ctu ∧ (State.watchAsk s ln).links = s.links ∧ (State.watchAsk s ln).aplicS = s.aplicS ∧ (State.watchAsk s ln).aplicN = s.aplicN ∧ (State.watchAsk s ln).credits = s.credits ∧ (State.watchAsk s ln).clusters = s.clusters ∧ (State.watchAsk s ln).pkts = s.pkts ∧ (State.watchAsk s ln).resp = s.resp ∧ (State.watchAsk s ln).wires = s.wires ∧ (State.watchAsk s ln).dmg = s.dmg ∧ (State.watchAsk s ln).dbInval = s.dbInval ∧ (State.watchAsk s ln).watch = s.watch ∧ (State.watchAsk s ln).pkg = s.pkg ∧ (State.watchAsk s ln).pmc = s.pmc ∧ (State.watchAsk s ln).out = s.out ∧ (State.watchAsk s ln).free = s.free ∧ (State.watchAsk s ln).fabric = s.fabric ∧ (State.watchAsk s ln).files = s.files := by
  generalize h : State.watchAsk s ln = u
  unfold State.watchAsk at h
  (try dsimp only at h); (repeat' split at h) <;> rw [← h] <;> simp [kept @State.arrive_fr, kept @State.domainOff_fr]

theorem execRdNoexcl_fr (a : Fin 37) (ln : Nat) (s : State) {u : State} (h : execRdNoexcl a ln s = .next u) : u.pending = s.pending ∧ u.flash = s.flash ∧ u.coldOpt = s.coldOpt ∧ u.mem = s.mem ∧ u.harts = s.harts ∧ u.mram = s.mram ∧ u.imsic = s.imsic ∧ u.eng = s.eng ∧ u.dm = s.dm ∧ u.fx = s.fx ∧ u.ctu = s.ctu ∧ u.links = s.links ∧ u.aplicS = s.aplicS ∧ u.aplicN = s.aplicN ∧ u.credits = s.credits ∧ u.pkts = s.pkts ∧ u.resp = s.resp ∧ u.wires = s.wires ∧ u.dmg = s.dmg ∧ u.dbInval = s.dbInval ∧ u.watch = s.watch ∧ u.pkg = s.pkg ∧ u.pmc = s.pmc ∧ u.out = s.out ∧ u.free = s.free ∧ u.fabric = s.fabric ∧ u.files = s.files := by
  unfold execRdNoexcl at h
  (try dsimp only at h); (repeat' split at h) <;> (first | (simp only [Host.Outcome.next.injEq] at h; rw [← h]) | (simp only [reduceCtorEq] at h; done) | (simp only [Option.some.injEq] at h; rw [← h])) <;> simp [kept @State.sendReq_fr, kept @State.watchAsk_fr]

theorem execRdUnique_fr (c : Fin 36) (ln : Nat) (s : State) {u : State} (h : execRdUnique c ln s = .next u) : u.pending = s.pending ∧ u.flash = s.flash ∧ u.coldOpt = s.coldOpt ∧ u.mem = s.mem ∧ u.harts = s.harts ∧ u.mram = s.mram ∧ u.imsic = s.imsic ∧ u.eng = s.eng ∧ u.dm = s.dm ∧ u.fx = s.fx ∧ u.ctu = s.ctu ∧ u.links = s.links ∧ u.aplicS = s.aplicS ∧ u.aplicN = s.aplicN ∧ u.credits = s.credits ∧ u.pkts = s.pkts ∧ u.resp = s.resp ∧ u.wires = s.wires ∧ u.dmg = s.dmg ∧ u.dbInval = s.dbInval ∧ u.watch = s.watch ∧ u.pkg = s.pkg ∧ u.pmc = s.pmc ∧ u.out = s.out ∧ u.free = s.free ∧ u.fabric = s.fabric ∧ u.files = s.files := by
  unfold execRdUnique at h
  (first | (simp only [Host.Outcome.next.injEq] at h; rw [← h]) | (simp only [reduceCtorEq] at h; done) | (simp only [Option.some.injEq] at h; rw [← h])); simp [kept @State.sendReq_fr]

theorem execUpgrade_fr (c : Fin 36) (ln : Nat) (s : State) {u : State} (h : execUpgrade c ln s = .next u) : u.pending = s.pending ∧ u.flash = s.flash ∧ u.coldOpt = s.coldOpt ∧ u.mem = s.mem ∧ u.harts = s.harts ∧ u.mram = s.mram ∧ u.imsic = s.imsic ∧ u.eng = s.eng ∧ u.dm = s.dm ∧ u.fx = s.fx ∧ u.ctu = s.ctu ∧ u.links = s.links ∧ u.aplicS = s.aplicS ∧ u.aplicN = s.aplicN ∧ u.credits = s.credits ∧ u.pkts = s.pkts ∧ u.resp = s.resp ∧ u.wires = s.wires ∧ u.dmg = s.dmg ∧ u.dbInval = s.dbInval ∧ u.watch = s.watch ∧ u.pkg = s.pkg ∧ u.pmc = s.pmc ∧ u.out = s.out ∧ u.free = s.free ∧ u.fabric = s.fabric ∧ u.files = s.files := by
  unfold execUpgrade at h
  (first | (simp only [Host.Outcome.next.injEq] at h; rw [← h]) | (simp only [reduceCtorEq] at h; done) | (simp only [Option.some.injEq] at h; rw [← h])); simp [kept @State.sendReq_fr]

theorem execZeroUnique_fr (c : Fin 36) (ln : Nat) (s : State) {u : State} (h : execZeroUnique c ln s = .next u) : u.pending = s.pending ∧ u.flash = s.flash ∧ u.coldOpt = s.coldOpt ∧ u.mem = s.mem ∧ u.harts = s.harts ∧ u.mram = s.mram ∧ u.imsic = s.imsic ∧ u.eng = s.eng ∧ u.dm = s.dm ∧ u.fx = s.fx ∧ u.ctu = s.ctu ∧ u.links = s.links ∧ u.aplicS = s.aplicS ∧ u.aplicN = s.aplicN ∧ u.credits = s.credits ∧ u.pkts = s.pkts ∧ u.resp = s.resp ∧ u.wires = s.wires ∧ u.dmg = s.dmg ∧ u.dbInval = s.dbInval ∧ u.watch = s.watch ∧ u.pkg = s.pkg ∧ u.pmc = s.pmc ∧ u.out = s.out ∧ u.free = s.free ∧ u.fabric = s.fabric ∧ u.files = s.files := by
  unfold execZeroUnique at h
  (first | (simp only [Host.Outcome.next.injEq] at h; rw [← h]) | (simp only [reduceCtorEq] at h; done) | (simp only [Option.some.injEq] at h; rw [← h])); simp [kept @State.sendReq_fr]

theorem execCmoClean_fr (c : Fin 36) (ln : Nat) (s : State) {u : State} (h : execCmoClean c ln s = .next u) : u.pending = s.pending ∧ u.flash = s.flash ∧ u.coldOpt = s.coldOpt ∧ u.mem = s.mem ∧ u.harts = s.harts ∧ u.mram = s.mram ∧ u.imsic = s.imsic ∧ u.eng = s.eng ∧ u.dm = s.dm ∧ u.fx = s.fx ∧ u.ctu = s.ctu ∧ u.links = s.links ∧ u.aplicS = s.aplicS ∧ u.aplicN = s.aplicN ∧ u.credits = s.credits ∧ u.pkts = s.pkts ∧ u.resp = s.resp ∧ u.wires = s.wires ∧ u.dmg = s.dmg ∧ u.dbInval = s.dbInval ∧ u.watch = s.watch ∧ u.pkg = s.pkg ∧ u.pmc = s.pmc ∧ u.out = s.out ∧ u.free = s.free ∧ u.fabric = s.fabric ∧ u.files = s.files := by
  unfold execCmoClean at h
  (first | (simp only [Host.Outcome.next.injEq] at h; rw [← h]) | (simp only [reduceCtorEq] at h; done) | (simp only [Option.some.injEq] at h; rw [← h])); simp [kept @State.sendReq_fr]

theorem execCmoFlush_fr (c : Fin 36) (ln : Nat) (s : State) {u : State} (h : execCmoFlush c ln s = .next u) : u.pending = s.pending ∧ u.flash = s.flash ∧ u.coldOpt = s.coldOpt ∧ u.mem = s.mem ∧ u.harts = s.harts ∧ u.mram = s.mram ∧ u.imsic = s.imsic ∧ u.eng = s.eng ∧ u.dm = s.dm ∧ u.fx = s.fx ∧ u.ctu = s.ctu ∧ u.links = s.links ∧ u.aplicS = s.aplicS ∧ u.aplicN = s.aplicN ∧ u.credits = s.credits ∧ u.pkts = s.pkts ∧ u.resp = s.resp ∧ u.wires = s.wires ∧ u.dmg = s.dmg ∧ u.dbInval = s.dbInval ∧ u.watch = s.watch ∧ u.pkg = s.pkg ∧ u.pmc = s.pmc ∧ u.out = s.out ∧ u.free = s.free ∧ u.fabric = s.fabric ∧ u.files = s.files := by
  unfold execCmoFlush at h
  (first | (simp only [Host.Outcome.next.injEq] at h; rw [← h]) | (simp only [reduceCtorEq] at h; done) | (simp only [Option.some.injEq] at h; rw [← h])); simp [kept @State.sendReq_fr]

theorem State.sendNc_fr (s : State) (a : Nat) (ln : Nat) (who : Ident) (k : ReqKind) (data : List Byte) (mask : Nat) : (State.sendNc s a ln who k data mask).pending = s.pending ∧ (State.sendNc s a ln who k data mask).flash = s.flash ∧ (State.sendNc s a ln who k data mask).coldOpt = s.coldOpt ∧ (State.sendNc s a ln who k data mask).mem = s.mem ∧ (State.sendNc s a ln who k data mask).harts = s.harts ∧ (State.sendNc s a ln who k data mask).mram = s.mram ∧ (State.sendNc s a ln who k data mask).imsic = s.imsic ∧ (State.sendNc s a ln who k data mask).eng = s.eng ∧ (State.sendNc s a ln who k data mask).dm = s.dm ∧ (State.sendNc s a ln who k data mask).fx = s.fx ∧ (State.sendNc s a ln who k data mask).ctu = s.ctu ∧ (State.sendNc s a ln who k data mask).links = s.links ∧ (State.sendNc s a ln who k data mask).aplicS = s.aplicS ∧ (State.sendNc s a ln who k data mask).aplicN = s.aplicN ∧ (State.sendNc s a ln who k data mask).credits = s.credits ∧ (State.sendNc s a ln who k data mask).clusters = s.clusters ∧ (State.sendNc s a ln who k data mask).pkts = s.pkts ∧ (State.sendNc s a ln who k data mask).resp = s.resp ∧ (State.sendNc s a ln who k data mask).wires = s.wires ∧ (State.sendNc s a ln who k data mask).dmg = s.dmg ∧ (State.sendNc s a ln who k data mask).dbInval = s.dbInval ∧ (State.sendNc s a ln who k data mask).watch = s.watch ∧ (State.sendNc s a ln who k data mask).pkg = s.pkg ∧ (State.sendNc s a ln who k data mask).pmc = s.pmc ∧ (State.sendNc s a ln who k data mask).out = s.out ∧ (State.sendNc s a ln who k data mask).free = s.free ∧ (State.sendNc s a ln who k data mask).fabric = s.fabric ∧ (State.sendNc s a ln who k data mask).files = s.files := by
  generalize h : State.sendNc s a ln who k data mask = u
  unfold State.sendNc at h
  rw [← h]; simp [kept @State.arrive_fr, kept @State.domainOff_fr]

theorem execRdNoalloc_fr (a : Fin 64) (who : Ident) (ln : Nat) (s : State) {u : State} (h : execRdNoalloc a who ln s = .next u) : u.pending = s.pending ∧ u.flash = s.flash ∧ u.coldOpt = s.coldOpt ∧ u.mem = s.mem ∧ u.harts = s.harts ∧ u.mram = s.mram ∧ u.imsic = s.imsic ∧ u.eng = s.eng ∧ u.dm = s.dm ∧ u.fx = s.fx ∧ u.ctu = s.ctu ∧ u.links = s.links ∧ u.aplicS = s.aplicS ∧ u.aplicN = s.aplicN ∧ u.credits = s.credits ∧ u.clusters = s.clusters ∧ u.pkts = s.pkts ∧ u.resp = s.resp ∧ u.wires = s.wires ∧ u.dmg = s.dmg ∧ u.dbInval = s.dbInval ∧ u.watch = s.watch ∧ u.pkg = s.pkg ∧ u.pmc = s.pmc ∧ u.out = s.out ∧ u.free = s.free ∧ u.fabric = s.fabric ∧ u.files = s.files := by
  unfold execRdNoalloc at h
  (first | (simp only [Host.Outcome.next.injEq] at h; rw [← h]) | (simp only [reduceCtorEq] at h; done) | (simp only [Option.some.injEq] at h; rw [← h])); simp [kept @State.sendNc_fr]

theorem execWrFull_fr (a : Fin 64) (who : Ident) (ln : Nat) (data : List Byte) (s : State) {u : State} (h : execWrFull a who ln data s = .next u) : u.pending = s.pending ∧ u.flash = s.flash ∧ u.coldOpt = s.coldOpt ∧ u.mem = s.mem ∧ u.harts = s.harts ∧ u.mram = s.mram ∧ u.imsic = s.imsic ∧ u.eng = s.eng ∧ u.dm = s.dm ∧ u.fx = s.fx ∧ u.ctu = s.ctu ∧ u.links = s.links ∧ u.aplicS = s.aplicS ∧ u.aplicN = s.aplicN ∧ u.credits = s.credits ∧ u.clusters = s.clusters ∧ u.pkts = s.pkts ∧ u.resp = s.resp ∧ u.wires = s.wires ∧ u.dmg = s.dmg ∧ u.dbInval = s.dbInval ∧ u.watch = s.watch ∧ u.pkg = s.pkg ∧ u.pmc = s.pmc ∧ u.out = s.out ∧ u.free = s.free ∧ u.fabric = s.fabric ∧ u.files = s.files := by
  unfold execWrFull at h
  (first | (simp only [Host.Outcome.next.injEq] at h; rw [← h]) | (simp only [reduceCtorEq] at h; done) | (simp only [Option.some.injEq] at h; rw [← h])); simp [kept @State.sendNc_fr]

theorem execWrMask_fr (a : Fin 64) (who : Ident) (ln : Nat) (data : List Byte) (mask : Nat) (s : State) {u : State} (h : execWrMask a who ln data mask s = .next u) : u.pending = s.pending ∧ u.flash = s.flash ∧ u.coldOpt = s.coldOpt ∧ u.mem = s.mem ∧ u.harts = s.harts ∧ u.mram = s.mram ∧ u.imsic = s.imsic ∧ u.eng = s.eng ∧ u.dm = s.dm ∧ u.fx = s.fx ∧ u.ctu = s.ctu ∧ u.links = s.links ∧ u.aplicS = s.aplicS ∧ u.aplicN = s.aplicN ∧ u.credits = s.credits ∧ u.clusters = s.clusters ∧ u.pkts = s.pkts ∧ u.resp = s.resp ∧ u.wires = s.wires ∧ u.dmg = s.dmg ∧ u.dbInval = s.dbInval ∧ u.watch = s.watch ∧ u.pkg = s.pkg ∧ u.pmc = s.pmc ∧ u.out = s.out ∧ u.free = s.free ∧ u.fabric = s.fabric ∧ u.files = s.files := by
  unfold execWrMask at h
  (first | (simp only [Host.Outcome.next.injEq] at h; rw [← h]) | (simp only [reduceCtorEq] at h; done) | (simp only [Option.some.injEq] at h; rw [← h])); simp [kept @State.sendNc_fr]

@[simp] theorem State.onKind_pending (s : State) (k : MKind) (a ln : Nat) (f : Msg → State → State) (hf : ∀ m s, (f m s).pending = s.pending) :
    (s.onKind k a ln f).pending = s.pending := State.onMsg_pending _ _ _ hf

@[simp] theorem State.onKind_files (s : State) (k : MKind) (a ln : Nat) (f : Msg → State → State) (hf : ∀ m s, (f m s).files = s.files) :
    (s.onKind k a ln f).files = s.files := State.onMsg_files _ _ _ hf

@[simp] theorem State.onKind_fabric (s : State) (k : MKind) (a ln : Nat) (f : Msg → State → State) (hf : ∀ m s, (f m s).fabric = s.fabric) :
    (s.onKind k a ln f).fabric = s.fabric := State.onMsg_fabric _ _ _ hf

@[simp] theorem State.onKind_flash (s : State) (k : MKind) (a ln : Nat) (f : Msg → State → State) (hf : ∀ m s, (f m s).flash = s.flash) :
    (s.onKind k a ln f).flash = s.flash := State.onMsg_flash _ _ _ hf

@[simp] theorem State.onKind_coldOpt (s : State) (k : MKind) (a ln : Nat) (f : Msg → State → State) (hf : ∀ m s, (f m s).coldOpt = s.coldOpt) :
    (s.onKind k a ln f).coldOpt = s.coldOpt := State.onMsg_coldOpt _ _ _ hf

@[simp] theorem State.onKind_mem (s : State) (k : MKind) (a ln : Nat) (f : Msg → State → State) (hf : ∀ m s, (f m s).mem = s.mem) :
    (s.onKind k a ln f).mem = s.mem := State.onMsg_mem _ _ _ hf

@[simp] theorem State.onKind_harts (s : State) (k : MKind) (a ln : Nat) (f : Msg → State → State) (hf : ∀ m s, (f m s).harts = s.harts) :
    (s.onKind k a ln f).harts = s.harts := State.onMsg_harts _ _ _ hf

@[simp] theorem State.onKind_mram (s : State) (k : MKind) (a ln : Nat) (f : Msg → State → State) (hf : ∀ m s, (f m s).mram = s.mram) :
    (s.onKind k a ln f).mram = s.mram := State.onMsg_mram _ _ _ hf

@[simp] theorem State.onKind_imsic (s : State) (k : MKind) (a ln : Nat) (f : Msg → State → State) (hf : ∀ m s, (f m s).imsic = s.imsic) :
    (s.onKind k a ln f).imsic = s.imsic := State.onMsg_imsic _ _ _ hf

@[simp] theorem State.onKind_eng (s : State) (k : MKind) (a ln : Nat) (f : Msg → State → State) (hf : ∀ m s, (f m s).eng = s.eng) :
    (s.onKind k a ln f).eng = s.eng := State.onMsg_eng _ _ _ hf

@[simp] theorem State.onKind_dm (s : State) (k : MKind) (a ln : Nat) (f : Msg → State → State) (hf : ∀ m s, (f m s).dm = s.dm) :
    (s.onKind k a ln f).dm = s.dm := State.onMsg_dm _ _ _ hf

@[simp] theorem State.onKind_fx (s : State) (k : MKind) (a ln : Nat) (f : Msg → State → State) (hf : ∀ m s, (f m s).fx = s.fx) :
    (s.onKind k a ln f).fx = s.fx := State.onMsg_fx _ _ _ hf

@[simp] theorem State.onKind_ctu (s : State) (k : MKind) (a ln : Nat) (f : Msg → State → State) (hf : ∀ m s, (f m s).ctu = s.ctu) :
    (s.onKind k a ln f).ctu = s.ctu := State.onMsg_ctu _ _ _ hf

@[simp] theorem State.onKind_links (s : State) (k : MKind) (a ln : Nat) (f : Msg → State → State) (hf : ∀ m s, (f m s).links = s.links) :
    (s.onKind k a ln f).links = s.links := State.onMsg_links _ _ _ hf

@[simp] theorem State.onKind_aplicS (s : State) (k : MKind) (a ln : Nat) (f : Msg → State → State) (hf : ∀ m s, (f m s).aplicS = s.aplicS) :
    (s.onKind k a ln f).aplicS = s.aplicS := State.onMsg_aplicS _ _ _ hf

@[simp] theorem State.onKind_aplicN (s : State) (k : MKind) (a ln : Nat) (f : Msg → State → State) (hf : ∀ m s, (f m s).aplicN = s.aplicN) :
    (s.onKind k a ln f).aplicN = s.aplicN := State.onMsg_aplicN _ _ _ hf

@[simp] theorem State.onKind_credits (s : State) (k : MKind) (a ln : Nat) (f : Msg → State → State) (hf : ∀ m s, (f m s).credits = s.credits) :
    (s.onKind k a ln f).credits = s.credits := State.onMsg_credits _ _ _ hf

@[simp] theorem State.onKind_clusters (s : State) (k : MKind) (a ln : Nat) (f : Msg → State → State) (hf : ∀ m s, (f m s).clusters = s.clusters) :
    (s.onKind k a ln f).clusters = s.clusters := State.onMsg_clusters _ _ _ hf

@[simp] theorem State.onKind_homes (s : State) (k : MKind) (a ln : Nat) (f : Msg → State → State) (hf : ∀ m s, (f m s).homes = s.homes) :
    (s.onKind k a ln f).homes = s.homes := State.onMsg_homes _ _ _ hf

@[simp] theorem State.onKind_pkts (s : State) (k : MKind) (a ln : Nat) (f : Msg → State → State) (hf : ∀ m s, (f m s).pkts = s.pkts) :
    (s.onKind k a ln f).pkts = s.pkts := State.onMsg_pkts _ _ _ hf

@[simp] theorem State.onKind_resp (s : State) (k : MKind) (a ln : Nat) (f : Msg → State → State) (hf : ∀ m s, (f m s).resp = s.resp) :
    (s.onKind k a ln f).resp = s.resp := State.onMsg_resp _ _ _ hf

@[simp] theorem State.onKind_regs (s : State) (k : MKind) (a ln : Nat) (f : Msg → State → State) (hf : ∀ m s, (f m s).regs = s.regs) :
    (s.onKind k a ln f).regs = s.regs := State.onMsg_regs _ _ _ hf

@[simp] theorem State.onKind_wires (s : State) (k : MKind) (a ln : Nat) (f : Msg → State → State) (hf : ∀ m s, (f m s).wires = s.wires) :
    (s.onKind k a ln f).wires = s.wires := State.onMsg_wires _ _ _ hf

@[simp] theorem State.onKind_dmg (s : State) (k : MKind) (a ln : Nat) (f : Msg → State → State) (hf : ∀ m s, (f m s).dmg = s.dmg) :
    (s.onKind k a ln f).dmg = s.dmg := State.onMsg_dmg _ _ _ hf

@[simp] theorem State.onKind_wq (s : State) (k : MKind) (a ln : Nat) (f : Msg → State → State) (hf : ∀ m s, (f m s).wq = s.wq) :
    (s.onKind k a ln f).wq = s.wq := State.onMsg_wq _ _ _ hf

@[simp] theorem State.onKind_dbInval (s : State) (k : MKind) (a ln : Nat) (f : Msg → State → State) (hf : ∀ m s, (f m s).dbInval = s.dbInval) :
    (s.onKind k a ln f).dbInval = s.dbInval := State.onMsg_dbInval _ _ _ hf

@[simp] theorem State.onKind_watch (s : State) (k : MKind) (a ln : Nat) (f : Msg → State → State) (hf : ∀ m s, (f m s).watch = s.watch) :
    (s.onKind k a ln f).watch = s.watch := State.onMsg_watch _ _ _ hf

@[simp] theorem State.onKind_pkg (s : State) (k : MKind) (a ln : Nat) (f : Msg → State → State) (hf : ∀ m s, (f m s).pkg = s.pkg) :
    (s.onKind k a ln f).pkg = s.pkg := State.onMsg_pkg _ _ _ hf

@[simp] theorem State.onKind_pmc (s : State) (k : MKind) (a ln : Nat) (f : Msg → State → State) (hf : ∀ m s, (f m s).pmc = s.pmc) :
    (s.onKind k a ln f).pmc = s.pmc := State.onMsg_pmc _ _ _ hf

@[simp] theorem State.onKind_fwLog (s : State) (k : MKind) (a ln : Nat) (f : Msg → State → State) (hf : ∀ m s, (f m s).fwLog = s.fwLog) :
    (s.onKind k a ln f).fwLog = s.fwLog := State.onMsg_fwLog _ _ _ hf

@[simp] theorem State.onKind_out (s : State) (k : MKind) (a ln : Nat) (f : Msg → State → State) (hf : ∀ m s, (f m s).out = s.out) :
    (s.onKind k a ln f).out = s.out := State.onMsg_out _ _ _ hf

@[simp] theorem State.onKind_free (s : State) (k : MKind) (a ln : Nat) (f : Msg → State → State) (hf : ∀ m s, (f m s).free = s.free) :
    (s.onKind k a ln f).free = s.free := State.onMsg_free _ _ _ hf

@[simp] theorem State.deliverAns_pending (s : State) (k : MKind) (a ln : Nat) (f : Msg → State → State) (hf : ∀ m s, (f m s).pending = s.pending) :
    (s.deliverAns k a ln f).pending = s.pending := State.onKind_pending _ _ _ _ _ (fun m s => by simp [hf])

@[simp] theorem State.deliverAns_files (s : State) (k : MKind) (a ln : Nat) (f : Msg → State → State) (hf : ∀ m s, (f m s).files = s.files) :
    (s.deliverAns k a ln f).files = s.files := State.onKind_files _ _ _ _ _ (fun m s => by simp [hf])

@[simp] theorem State.deliverAns_fabric (s : State) (k : MKind) (a ln : Nat) (f : Msg → State → State) (hf : ∀ m s, (f m s).fabric = s.fabric) :
    (s.deliverAns k a ln f).fabric = s.fabric := State.onKind_fabric _ _ _ _ _ (fun m s => by simp [hf])

@[simp] theorem State.deliverAns_flash (s : State) (k : MKind) (a ln : Nat) (f : Msg → State → State) (hf : ∀ m s, (f m s).flash = s.flash) :
    (s.deliverAns k a ln f).flash = s.flash := State.onKind_flash _ _ _ _ _ (fun m s => by simp [hf])

@[simp] theorem State.deliverAns_coldOpt (s : State) (k : MKind) (a ln : Nat) (f : Msg → State → State) (hf : ∀ m s, (f m s).coldOpt = s.coldOpt) :
    (s.deliverAns k a ln f).coldOpt = s.coldOpt := State.onKind_coldOpt _ _ _ _ _ (fun m s => by simp [hf])

@[simp] theorem State.deliverAns_mem (s : State) (k : MKind) (a ln : Nat) (f : Msg → State → State) (hf : ∀ m s, (f m s).mem = s.mem) :
    (s.deliverAns k a ln f).mem = s.mem := State.onKind_mem _ _ _ _ _ (fun m s => by simp [hf])

@[simp] theorem State.deliverAns_harts (s : State) (k : MKind) (a ln : Nat) (f : Msg → State → State) (hf : ∀ m s, (f m s).harts = s.harts) :
    (s.deliverAns k a ln f).harts = s.harts := State.onKind_harts _ _ _ _ _ (fun m s => by simp [hf])

@[simp] theorem State.deliverAns_mram (s : State) (k : MKind) (a ln : Nat) (f : Msg → State → State) (hf : ∀ m s, (f m s).mram = s.mram) :
    (s.deliverAns k a ln f).mram = s.mram := State.onKind_mram _ _ _ _ _ (fun m s => by simp [hf])

@[simp] theorem State.deliverAns_imsic (s : State) (k : MKind) (a ln : Nat) (f : Msg → State → State) (hf : ∀ m s, (f m s).imsic = s.imsic) :
    (s.deliverAns k a ln f).imsic = s.imsic := State.onKind_imsic _ _ _ _ _ (fun m s => by simp [hf])

@[simp] theorem State.deliverAns_eng (s : State) (k : MKind) (a ln : Nat) (f : Msg → State → State) (hf : ∀ m s, (f m s).eng = s.eng) :
    (s.deliverAns k a ln f).eng = s.eng := State.onKind_eng _ _ _ _ _ (fun m s => by simp [hf])

@[simp] theorem State.deliverAns_dm (s : State) (k : MKind) (a ln : Nat) (f : Msg → State → State) (hf : ∀ m s, (f m s).dm = s.dm) :
    (s.deliverAns k a ln f).dm = s.dm := State.onKind_dm _ _ _ _ _ (fun m s => by simp [hf])

@[simp] theorem State.deliverAns_fx (s : State) (k : MKind) (a ln : Nat) (f : Msg → State → State) (hf : ∀ m s, (f m s).fx = s.fx) :
    (s.deliverAns k a ln f).fx = s.fx := State.onKind_fx _ _ _ _ _ (fun m s => by simp [hf])

@[simp] theorem State.deliverAns_ctu (s : State) (k : MKind) (a ln : Nat) (f : Msg → State → State) (hf : ∀ m s, (f m s).ctu = s.ctu) :
    (s.deliverAns k a ln f).ctu = s.ctu := State.onKind_ctu _ _ _ _ _ (fun m s => by simp [hf])

@[simp] theorem State.deliverAns_links (s : State) (k : MKind) (a ln : Nat) (f : Msg → State → State) (hf : ∀ m s, (f m s).links = s.links) :
    (s.deliverAns k a ln f).links = s.links := State.onKind_links _ _ _ _ _ (fun m s => by simp [hf])

@[simp] theorem State.deliverAns_aplicS (s : State) (k : MKind) (a ln : Nat) (f : Msg → State → State) (hf : ∀ m s, (f m s).aplicS = s.aplicS) :
    (s.deliverAns k a ln f).aplicS = s.aplicS := State.onKind_aplicS _ _ _ _ _ (fun m s => by simp [hf])

@[simp] theorem State.deliverAns_aplicN (s : State) (k : MKind) (a ln : Nat) (f : Msg → State → State) (hf : ∀ m s, (f m s).aplicN = s.aplicN) :
    (s.deliverAns k a ln f).aplicN = s.aplicN := State.onKind_aplicN _ _ _ _ _ (fun m s => by simp [hf])

@[simp] theorem State.deliverAns_credits (s : State) (k : MKind) (a ln : Nat) (f : Msg → State → State) (hf : ∀ m s, (f m s).credits = s.credits) :
    (s.deliverAns k a ln f).credits = s.credits := State.onKind_credits _ _ _ _ _ (fun m s => by simp [hf])

@[simp] theorem State.deliverAns_clusters (s : State) (k : MKind) (a ln : Nat) (f : Msg → State → State) (hf : ∀ m s, (f m s).clusters = s.clusters) :
    (s.deliverAns k a ln f).clusters = s.clusters := State.onKind_clusters _ _ _ _ _ (fun m s => by simp [hf])

@[simp] theorem State.deliverAns_homes (s : State) (k : MKind) (a ln : Nat) (f : Msg → State → State) (hf : ∀ m s, (f m s).homes = s.homes) :
    (s.deliverAns k a ln f).homes = s.homes := State.onKind_homes _ _ _ _ _ (fun m s => by simp [hf])

@[simp] theorem State.deliverAns_pkts (s : State) (k : MKind) (a ln : Nat) (f : Msg → State → State) (hf : ∀ m s, (f m s).pkts = s.pkts) :
    (s.deliverAns k a ln f).pkts = s.pkts := State.onKind_pkts _ _ _ _ _ (fun m s => by simp [hf])

@[simp] theorem State.deliverAns_resp (s : State) (k : MKind) (a ln : Nat) (f : Msg → State → State) (hf : ∀ m s, (f m s).resp = s.resp) :
    (s.deliverAns k a ln f).resp = s.resp := State.onKind_resp _ _ _ _ _ (fun m s => by simp [hf])

@[simp] theorem State.deliverAns_regs (s : State) (k : MKind) (a ln : Nat) (f : Msg → State → State) (hf : ∀ m s, (f m s).regs = s.regs) :
    (s.deliverAns k a ln f).regs = s.regs := State.onKind_regs _ _ _ _ _ (fun m s => by simp [hf])

@[simp] theorem State.deliverAns_wires (s : State) (k : MKind) (a ln : Nat) (f : Msg → State → State) (hf : ∀ m s, (f m s).wires = s.wires) :
    (s.deliverAns k a ln f).wires = s.wires := State.onKind_wires _ _ _ _ _ (fun m s => by simp [hf])

@[simp] theorem State.deliverAns_dmg (s : State) (k : MKind) (a ln : Nat) (f : Msg → State → State) (hf : ∀ m s, (f m s).dmg = s.dmg) :
    (s.deliverAns k a ln f).dmg = s.dmg := State.onKind_dmg _ _ _ _ _ (fun m s => by simp [hf])

@[simp] theorem State.deliverAns_wq (s : State) (k : MKind) (a ln : Nat) (f : Msg → State → State) (hf : ∀ m s, (f m s).wq = s.wq) :
    (s.deliverAns k a ln f).wq = s.wq := State.onKind_wq _ _ _ _ _ (fun m s => by simp [hf])

@[simp] theorem State.deliverAns_dbInval (s : State) (k : MKind) (a ln : Nat) (f : Msg → State → State) (hf : ∀ m s, (f m s).dbInval = s.dbInval) :
    (s.deliverAns k a ln f).dbInval = s.dbInval := State.onKind_dbInval _ _ _ _ _ (fun m s => by simp [hf])

@[simp] theorem State.deliverAns_watch (s : State) (k : MKind) (a ln : Nat) (f : Msg → State → State) (hf : ∀ m s, (f m s).watch = s.watch) :
    (s.deliverAns k a ln f).watch = s.watch := State.onKind_watch _ _ _ _ _ (fun m s => by simp [hf])

@[simp] theorem State.deliverAns_pkg (s : State) (k : MKind) (a ln : Nat) (f : Msg → State → State) (hf : ∀ m s, (f m s).pkg = s.pkg) :
    (s.deliverAns k a ln f).pkg = s.pkg := State.onKind_pkg _ _ _ _ _ (fun m s => by simp [hf])

@[simp] theorem State.deliverAns_pmc (s : State) (k : MKind) (a ln : Nat) (f : Msg → State → State) (hf : ∀ m s, (f m s).pmc = s.pmc) :
    (s.deliverAns k a ln f).pmc = s.pmc := State.onKind_pmc _ _ _ _ _ (fun m s => by simp [hf])

@[simp] theorem State.deliverAns_fwLog (s : State) (k : MKind) (a ln : Nat) (f : Msg → State → State) (hf : ∀ m s, (f m s).fwLog = s.fwLog) :
    (s.deliverAns k a ln f).fwLog = s.fwLog := State.onKind_fwLog _ _ _ _ _ (fun m s => by simp [hf])

@[simp] theorem State.deliverAns_out (s : State) (k : MKind) (a ln : Nat) (f : Msg → State → State) (hf : ∀ m s, (f m s).out = s.out) :
    (s.deliverAns k a ln f).out = s.out := State.onKind_out _ _ _ _ _ (fun m s => by simp [hf])

@[simp] theorem State.deliverAns_free (s : State) (k : MKind) (a ln : Nat) (f : Msg → State → State) (hf : ∀ m s, (f m s).free = s.free) :
    (s.deliverAns k a ln f).free = s.free := State.onKind_free _ _ _ _ _ (fun m s => by simp [hf])

theorem State.wbDirtyAt_fr (s : State) (c : Nat) (ln : Nat) (m : Msg) : (State.wbDirtyAt s c ln m).pending = s.pending ∧ (State.wbDirtyAt s c ln m).flash = s.flash ∧ (State.wbDirtyAt s c ln m).coldOpt = s.coldOpt ∧ (State.wbDirtyAt s c ln m).mem = s.mem ∧ (State.wbDirtyAt s c ln m).harts = s.harts ∧ (State.wbDirtyAt s c ln m).mram = s.mram ∧ (State.wbDirtyAt s c ln m).imsic = s.imsic ∧ (State.wbDirtyAt s c ln m).eng = s.eng ∧ (State.wbDirtyAt s c ln m).dm = s.dm ∧ (State.wbDirtyAt s c ln m).fx = s.fx ∧ (State.wbDirtyAt s c ln m).ctu = s.ctu ∧ (State.wbDirtyAt s c ln m).links = s.links ∧ (State.wbDirtyAt s c ln m).aplicS = s.aplicS ∧ (State.wbDirtyAt s c ln m).aplicN = s.aplicN ∧ (State.wbDirtyAt s c ln m).credits = s.credits ∧ (State.wbDirtyAt s c ln m).pkts = s.pkts ∧ (State.wbDirtyAt s c ln m).resp = s.resp ∧ (State.wbDirtyAt s c ln m).wires = s.wires ∧ (State.wbDirtyAt s c ln m).dmg = s.dmg ∧ (State.wbDirtyAt s c ln m).dbInval = s.dbInval ∧ (State.wbDirtyAt s c ln m).watch = s.watch ∧ (State.wbDirtyAt s c ln m).pkg = s.pkg ∧ (State.wbDirtyAt s c ln m).pmc = s.pmc ∧ (State.wbDirtyAt s c ln m).out = s.out ∧ (State.wbDirtyAt s c ln m).free = s.free ∧ (State.wbDirtyAt s c ln m).fabric = s.fabric ∧ (State.wbDirtyAt s c ln m).files = s.files := by
  generalize h : State.wbDirtyAt s c ln m = u
  unfold State.wbDirtyAt at h
  rw [← h]; simp [kept @State.absorbWb_fr, kept @State.setCluster_fr]

theorem execWbDirty_fr (c : Fin 36) (ln : Nat) (s : State) {u : State} (h : execWbDirty c ln s = .next u) : u.pending = s.pending ∧ u.flash = s.flash ∧ u.coldOpt = s.coldOpt ∧ u.mem = s.mem ∧ u.harts = s.harts ∧ u.mram = s.mram ∧ u.imsic = s.imsic ∧ u.eng = s.eng ∧ u.dm = s.dm ∧ u.fx = s.fx ∧ u.ctu = s.ctu ∧ u.links = s.links ∧ u.aplicS = s.aplicS ∧ u.aplicN = s.aplicN ∧ u.credits = s.credits ∧ u.pkts = s.pkts ∧ u.resp = s.resp ∧ u.wires = s.wires ∧ u.dmg = s.dmg ∧ u.dbInval = s.dbInval ∧ u.watch = s.watch ∧ u.pkg = s.pkg ∧ u.pmc = s.pmc ∧ u.out = s.out ∧ u.free = s.free ∧ u.fabric = s.fabric ∧ u.files = s.files := by
  unfold execWbDirty at h
  (first | (simp only [Host.Outcome.next.injEq] at h; rw [← h]) | (simp only [reduceCtorEq] at h; done) | (simp only [Option.some.injEq] at h; rw [← h])); simp [kept @State.wbDirtyAt_fr]

theorem execEvictClean_fr (c : Fin 37) (ln : Nat) (s : State) {u : State} (h : execEvictClean c ln s = .next u) : u.pending = s.pending ∧ u.flash = s.flash ∧ u.coldOpt = s.coldOpt ∧ u.mem = s.mem ∧ u.harts = s.harts ∧ u.mram = s.mram ∧ u.imsic = s.imsic ∧ u.eng = s.eng ∧ u.dm = s.dm ∧ u.fx = s.fx ∧ u.ctu = s.ctu ∧ u.links = s.links ∧ u.aplicS = s.aplicS ∧ u.aplicN = s.aplicN ∧ u.credits = s.credits ∧ u.clusters = s.clusters ∧ u.pkts = s.pkts ∧ u.resp = s.resp ∧ u.regs = s.regs ∧ u.wires = s.wires ∧ u.dmg = s.dmg ∧ u.wq = s.wq ∧ u.dbInval = s.dbInval ∧ u.watch = s.watch ∧ u.pkg = s.pkg ∧ u.pmc = s.pmc ∧ u.fwLog = s.fwLog ∧ u.out = s.out ∧ u.free = s.free ∧ u.fabric = s.fabric ∧ u.files = s.files := by
  unfold execEvictClean at h
  (try dsimp only at h); (repeat' split at h) <;> (first | (simp only [Host.Outcome.next.injEq] at h; rw [← h]) | (simp only [reduceCtorEq] at h; done) | (simp only [Option.some.injEq] at h; rw [← h])) <;> simp [kept @State.evictClean_fr]

theorem State.deliverSnp_fr (s : State) (k : SnpKind) (a : Nat) (ln : Nat) : (State.deliverSnp s k a ln).pending = s.pending ∧ (State.deliverSnp s k a ln).flash = s.flash ∧ (State.deliverSnp s k a ln).coldOpt = s.coldOpt ∧ (State.deliverSnp s k a ln).mem = s.mem ∧ (State.deliverSnp s k a ln).mram = s.mram ∧ (State.deliverSnp s k a ln).imsic = s.imsic ∧ (State.deliverSnp s k a ln).eng = s.eng ∧ (State.deliverSnp s k a ln).dm = s.dm ∧ (State.deliverSnp s k a ln).fx = s.fx ∧ (State.deliverSnp s k a ln).ctu = s.ctu ∧ (State.deliverSnp s k a ln).links = s.links ∧ (State.deliverSnp s k a ln).aplicS = s.aplicS ∧ (State.deliverSnp s k a ln).aplicN = s.aplicN ∧ (State.deliverSnp s k a ln).credits = s.credits ∧ (State.deliverSnp s k a ln).homes = s.homes ∧ (State.deliverSnp s k a ln).pkts = s.pkts ∧ (State.deliverSnp s k a ln).resp = s.resp ∧ (State.deliverSnp s k a ln).regs = s.regs ∧ (State.deliverSnp s k a ln).wires = s.wires ∧ (State.deliverSnp s k a ln).dmg = s.dmg ∧ (State.deliverSnp s k a ln).wq = s.wq ∧ (State.deliverSnp s k a ln).pkg = s.pkg ∧ (State.deliverSnp s k a ln).pmc = s.pmc ∧ (State.deliverSnp s k a ln).fwLog = s.fwLog ∧ (State.deliverSnp s k a ln).out = s.out ∧ (State.deliverSnp s k a ln).free = s.free ∧ (State.deliverSnp s k a ln).fabric = s.fabric ∧ (State.deliverSnp s k a ln).files = s.files := by
  generalize h : State.deliverSnp s k a ln = u
  unfold State.deliverSnp at h
  rw [← h]; simp [kept @State.post_fr, kept @State.snoop_fr]

theorem execSnpShare_fr (a : Fin 37) (ln : Nat) (s : State) {u : State} (h : execSnpShare a ln s = .next u) : u.pending = s.pending ∧ u.flash = s.flash ∧ u.coldOpt = s.coldOpt ∧ u.mem = s.mem ∧ u.mram = s.mram ∧ u.imsic = s.imsic ∧ u.eng = s.eng ∧ u.dm = s.dm ∧ u.fx = s.fx ∧ u.ctu = s.ctu ∧ u.links = s.links ∧ u.aplicS = s.aplicS ∧ u.aplicN = s.aplicN ∧ u.credits = s.credits ∧ u.homes = s.homes ∧ u.pkts = s.pkts ∧ u.resp = s.resp ∧ u.regs = s.regs ∧ u.wires = s.wires ∧ u.dmg = s.dmg ∧ u.wq = s.wq ∧ u.pkg = s.pkg ∧ u.pmc = s.pmc ∧ u.fwLog = s.fwLog ∧ u.out = s.out ∧ u.free = s.free ∧ u.fabric = s.fabric ∧ u.files = s.files := by
  unfold execSnpShare at h
  (first | (simp only [Host.Outcome.next.injEq] at h; rw [← h]) | (simp only [reduceCtorEq] at h; done) | (simp only [Option.some.injEq] at h; rw [← h])); simp [kept @State.deliverSnp_fr]

theorem execSnpInval_fr (a : Fin 37) (ln : Nat) (s : State) {u : State} (h : execSnpInval a ln s = .next u) : u.pending = s.pending ∧ u.flash = s.flash ∧ u.coldOpt = s.coldOpt ∧ u.mem = s.mem ∧ u.mram = s.mram ∧ u.imsic = s.imsic ∧ u.eng = s.eng ∧ u.dm = s.dm ∧ u.fx = s.fx ∧ u.ctu = s.ctu ∧ u.links = s.links ∧ u.aplicS = s.aplicS ∧ u.aplicN = s.aplicN ∧ u.credits = s.credits ∧ u.homes = s.homes ∧ u.pkts = s.pkts ∧ u.resp = s.resp ∧ u.regs = s.regs ∧ u.wires = s.wires ∧ u.dmg = s.dmg ∧ u.wq = s.wq ∧ u.pkg = s.pkg ∧ u.pmc = s.pmc ∧ u.fwLog = s.fwLog ∧ u.out = s.out ∧ u.free = s.free ∧ u.fabric = s.fabric ∧ u.files = s.files := by
  unfold execSnpInval at h
  (first | (simp only [Host.Outcome.next.injEq] at h; rw [← h]) | (simp only [reduceCtorEq] at h; done) | (simp only [Option.some.injEq] at h; rw [← h])); simp [kept @State.deliverSnp_fr]

theorem execSnpPeek_fr (a : Fin 37) (ln : Nat) (s : State) {u : State} (h : execSnpPeek a ln s = .next u) : u.pending = s.pending ∧ u.flash = s.flash ∧ u.coldOpt = s.coldOpt ∧ u.mem = s.mem ∧ u.mram = s.mram ∧ u.imsic = s.imsic ∧ u.eng = s.eng ∧ u.dm = s.dm ∧ u.fx = s.fx ∧ u.ctu = s.ctu ∧ u.links = s.links ∧ u.aplicS = s.aplicS ∧ u.aplicN = s.aplicN ∧ u.credits = s.credits ∧ u.homes = s.homes ∧ u.pkts = s.pkts ∧ u.resp = s.resp ∧ u.regs = s.regs ∧ u.wires = s.wires ∧ u.dmg = s.dmg ∧ u.wq = s.wq ∧ u.pkg = s.pkg ∧ u.pmc = s.pmc ∧ u.fwLog = s.fwLog ∧ u.out = s.out ∧ u.free = s.free ∧ u.fabric = s.fabric ∧ u.files = s.files := by
  unfold execSnpPeek at h
  (first | (simp only [Host.Outcome.next.injEq] at h; rw [← h]) | (simp only [reduceCtorEq] at h; done) | (simp only [Option.some.injEq] at h; rw [← h])); simp [kept @State.deliverSnp_fr]

theorem execRspI_fr (a : Fin 37) (ln : Nat) (s : State) {u : State} (h : execRspI a ln s = .next u) : u.pending = s.pending ∧ u.flash = s.flash ∧ u.coldOpt = s.coldOpt ∧ u.mem = s.mem ∧ u.harts = s.harts ∧ u.mram = s.mram ∧ u.imsic = s.imsic ∧ u.eng = s.eng ∧ u.dm = s.dm ∧ u.fx = s.fx ∧ u.ctu = s.ctu ∧ u.links = s.links ∧ u.aplicS = s.aplicS ∧ u.aplicN = s.aplicN ∧ u.credits = s.credits ∧ u.clusters = s.clusters ∧ u.pkts = s.pkts ∧ u.resp = s.resp ∧ u.wires = s.wires ∧ u.dmg = s.dmg ∧ u.dbInval = s.dbInval ∧ u.watch = s.watch ∧ u.pkg = s.pkg ∧ u.pmc = s.pmc ∧ u.out = s.out ∧ u.free = s.free ∧ u.fabric = s.fabric ∧ u.files = s.files := by
  unfold execRspI at h
  (first | (simp only [Host.Outcome.next.injEq] at h; rw [← h]) | (simp only [reduceCtorEq] at h; done) | (simp only [Option.some.injEq] at h; rw [← h])); simp [kept @State.snoopAnswer_fr]

theorem execRspS_fr (a : Fin 37) (ln : Nat) (s : State) {u : State} (h : execRspS a ln s = .next u) : u.pending = s.pending ∧ u.flash = s.flash ∧ u.coldOpt = s.coldOpt ∧ u.mem = s.mem ∧ u.harts = s.harts ∧ u.mram = s.mram ∧ u.imsic = s.imsic ∧ u.eng = s.eng ∧ u.dm = s.dm ∧ u.fx = s.fx ∧ u.ctu = s.ctu ∧ u.links = s.links ∧ u.aplicS = s.aplicS ∧ u.aplicN = s.aplicN ∧ u.credits = s.credits ∧ u.clusters = s.clusters ∧ u.pkts = s.pkts ∧ u.resp = s.resp ∧ u.wires = s.wires ∧ u.dmg = s.dmg ∧ u.dbInval = s.dbInval ∧ u.watch = s.watch ∧ u.pkg = s.pkg ∧ u.pmc = s.pmc ∧ u.out = s.out ∧ u.free = s.free ∧ u.fabric = s.fabric ∧ u.files = s.files := by
  unfold execRspS at h
  (first | (simp only [Host.Outcome.next.injEq] at h; rw [← h]) | (simp only [reduceCtorEq] at h; done) | (simp only [Option.some.injEq] at h; rw [← h])); simp [kept @State.snoopAnswer_fr]

theorem execRspWbif_fr (a : Fin 37) (ln : Nat) (s : State) {u : State} (h : execRspWbif a ln s = .next u) : u.pending = s.pending ∧ u.flash = s.flash ∧ u.coldOpt = s.coldOpt ∧ u.mem = s.mem ∧ u.harts = s.harts ∧ u.mram = s.mram ∧ u.imsic = s.imsic ∧ u.eng = s.eng ∧ u.dm = s.dm ∧ u.fx = s.fx ∧ u.ctu = s.ctu ∧ u.links = s.links ∧ u.aplicS = s.aplicS ∧ u.aplicN = s.aplicN ∧ u.credits = s.credits ∧ u.clusters = s.clusters ∧ u.pkts = s.pkts ∧ u.resp = s.resp ∧ u.wires = s.wires ∧ u.dmg = s.dmg ∧ u.dbInval = s.dbInval ∧ u.watch = s.watch ∧ u.pkg = s.pkg ∧ u.pmc = s.pmc ∧ u.out = s.out ∧ u.free = s.free ∧ u.fabric = s.fabric ∧ u.files = s.files := by
  unfold execRspWbif at h
  (first | (simp only [Host.Outcome.next.injEq] at h; rw [← h]) | (simp only [reduceCtorEq] at h; done) | (simp only [Option.some.injEq] at h; rw [← h])); simp [kept @State.crossing_fr]

theorem execDatDirty_fr (a : Fin 37) (ln : Nat) (s : State) {u : State} (h : execDatDirty a ln s = .next u) : u.pending = s.pending ∧ u.flash = s.flash ∧ u.coldOpt = s.coldOpt ∧ u.mem = s.mem ∧ u.harts = s.harts ∧ u.mram = s.mram ∧ u.imsic = s.imsic ∧ u.eng = s.eng ∧ u.dm = s.dm ∧ u.fx = s.fx ∧ u.ctu = s.ctu ∧ u.links = s.links ∧ u.aplicS = s.aplicS ∧ u.aplicN = s.aplicN ∧ u.credits = s.credits ∧ u.clusters = s.clusters ∧ u.pkts = s.pkts ∧ u.resp = s.resp ∧ u.wires = s.wires ∧ u.dmg = s.dmg ∧ u.dbInval = s.dbInval ∧ u.watch = s.watch ∧ u.pkg = s.pkg ∧ u.pmc = s.pmc ∧ u.out = s.out ∧ u.free = s.free ∧ u.fabric = s.fabric ∧ u.files = s.files := by
  unfold execDatDirty at h
  (first | (simp only [Host.Outcome.next.injEq] at h; rw [← h]) | (simp only [reduceCtorEq] at h; done) | (simp only [Option.some.injEq] at h; rw [← h])); simp [kept @State.snoopAnswer_fr]

@[simp] theorem State.deliverTo_pending (s : State) (p : MKind → Bool) (a ln : Nat) (f : Msg → State → State) (hf : ∀ m s, (f m s).pending = s.pending) :
    (s.deliverTo p a ln f).pending = s.pending := State.onMsgs_pending _ _ _ _ (fun m s => by split <;> simp [hf])

@[simp] theorem State.deliverTo_files (s : State) (p : MKind → Bool) (a ln : Nat) (f : Msg → State → State) (hf : ∀ m s, (f m s).files = s.files) :
    (s.deliverTo p a ln f).files = s.files := State.onMsgs_files _ _ _ _ (fun m s => by split <;> simp [hf])

@[simp] theorem State.deliverTo_fabric (s : State) (p : MKind → Bool) (a ln : Nat) (f : Msg → State → State) (hf : ∀ m s, (f m s).fabric = s.fabric) :
    (s.deliverTo p a ln f).fabric = s.fabric := State.onMsgs_fabric _ _ _ _ (fun m s => by split <;> simp [hf])

@[simp] theorem State.deliverTo_flash (s : State) (p : MKind → Bool) (a ln : Nat) (f : Msg → State → State) (hf : ∀ m s, (f m s).flash = s.flash) :
    (s.deliverTo p a ln f).flash = s.flash := State.onMsgs_flash _ _ _ _ (fun m s => by split <;> simp [hf])

@[simp] theorem State.deliverTo_coldOpt (s : State) (p : MKind → Bool) (a ln : Nat) (f : Msg → State → State) (hf : ∀ m s, (f m s).coldOpt = s.coldOpt) :
    (s.deliverTo p a ln f).coldOpt = s.coldOpt := State.onMsgs_coldOpt _ _ _ _ (fun m s => by split <;> simp [hf])

@[simp] theorem State.deliverTo_mem (s : State) (p : MKind → Bool) (a ln : Nat) (f : Msg → State → State) (hf : ∀ m s, (f m s).mem = s.mem) :
    (s.deliverTo p a ln f).mem = s.mem := State.onMsgs_mem _ _ _ _ (fun m s => by split <;> simp [hf])

@[simp] theorem State.deliverTo_harts (s : State) (p : MKind → Bool) (a ln : Nat) (f : Msg → State → State) (hf : ∀ m s, (f m s).harts = s.harts) :
    (s.deliverTo p a ln f).harts = s.harts := State.onMsgs_harts _ _ _ _ (fun m s => by split <;> simp [hf])

@[simp] theorem State.deliverTo_mram (s : State) (p : MKind → Bool) (a ln : Nat) (f : Msg → State → State) (hf : ∀ m s, (f m s).mram = s.mram) :
    (s.deliverTo p a ln f).mram = s.mram := State.onMsgs_mram _ _ _ _ (fun m s => by split <;> simp [hf])

@[simp] theorem State.deliverTo_imsic (s : State) (p : MKind → Bool) (a ln : Nat) (f : Msg → State → State) (hf : ∀ m s, (f m s).imsic = s.imsic) :
    (s.deliverTo p a ln f).imsic = s.imsic := State.onMsgs_imsic _ _ _ _ (fun m s => by split <;> simp [hf])

@[simp] theorem State.deliverTo_eng (s : State) (p : MKind → Bool) (a ln : Nat) (f : Msg → State → State) (hf : ∀ m s, (f m s).eng = s.eng) :
    (s.deliverTo p a ln f).eng = s.eng := State.onMsgs_eng _ _ _ _ (fun m s => by split <;> simp [hf])

@[simp] theorem State.deliverTo_dm (s : State) (p : MKind → Bool) (a ln : Nat) (f : Msg → State → State) (hf : ∀ m s, (f m s).dm = s.dm) :
    (s.deliverTo p a ln f).dm = s.dm := State.onMsgs_dm _ _ _ _ (fun m s => by split <;> simp [hf])

@[simp] theorem State.deliverTo_fx (s : State) (p : MKind → Bool) (a ln : Nat) (f : Msg → State → State) (hf : ∀ m s, (f m s).fx = s.fx) :
    (s.deliverTo p a ln f).fx = s.fx := State.onMsgs_fx _ _ _ _ (fun m s => by split <;> simp [hf])

@[simp] theorem State.deliverTo_ctu (s : State) (p : MKind → Bool) (a ln : Nat) (f : Msg → State → State) (hf : ∀ m s, (f m s).ctu = s.ctu) :
    (s.deliverTo p a ln f).ctu = s.ctu := State.onMsgs_ctu _ _ _ _ (fun m s => by split <;> simp [hf])

@[simp] theorem State.deliverTo_links (s : State) (p : MKind → Bool) (a ln : Nat) (f : Msg → State → State) (hf : ∀ m s, (f m s).links = s.links) :
    (s.deliverTo p a ln f).links = s.links := State.onMsgs_links _ _ _ _ (fun m s => by split <;> simp [hf])

@[simp] theorem State.deliverTo_aplicS (s : State) (p : MKind → Bool) (a ln : Nat) (f : Msg → State → State) (hf : ∀ m s, (f m s).aplicS = s.aplicS) :
    (s.deliverTo p a ln f).aplicS = s.aplicS := State.onMsgs_aplicS _ _ _ _ (fun m s => by split <;> simp [hf])

@[simp] theorem State.deliverTo_aplicN (s : State) (p : MKind → Bool) (a ln : Nat) (f : Msg → State → State) (hf : ∀ m s, (f m s).aplicN = s.aplicN) :
    (s.deliverTo p a ln f).aplicN = s.aplicN := State.onMsgs_aplicN _ _ _ _ (fun m s => by split <;> simp [hf])

@[simp] theorem State.deliverTo_credits (s : State) (p : MKind → Bool) (a ln : Nat) (f : Msg → State → State) (hf : ∀ m s, (f m s).credits = s.credits) :
    (s.deliverTo p a ln f).credits = s.credits := State.onMsgs_credits _ _ _ _ (fun m s => by split <;> simp [hf])

@[simp] theorem State.deliverTo_clusters (s : State) (p : MKind → Bool) (a ln : Nat) (f : Msg → State → State) (hf : ∀ m s, (f m s).clusters = s.clusters) :
    (s.deliverTo p a ln f).clusters = s.clusters := State.onMsgs_clusters _ _ _ _ (fun m s => by split <;> simp [hf])

@[simp] theorem State.deliverTo_homes (s : State) (p : MKind → Bool) (a ln : Nat) (f : Msg → State → State) (hf : ∀ m s, (f m s).homes = s.homes) :
    (s.deliverTo p a ln f).homes = s.homes := State.onMsgs_homes _ _ _ _ (fun m s => by split <;> simp [hf])

@[simp] theorem State.deliverTo_pkts (s : State) (p : MKind → Bool) (a ln : Nat) (f : Msg → State → State) (hf : ∀ m s, (f m s).pkts = s.pkts) :
    (s.deliverTo p a ln f).pkts = s.pkts := State.onMsgs_pkts _ _ _ _ (fun m s => by split <;> simp [hf])

@[simp] theorem State.deliverTo_resp (s : State) (p : MKind → Bool) (a ln : Nat) (f : Msg → State → State) (hf : ∀ m s, (f m s).resp = s.resp) :
    (s.deliverTo p a ln f).resp = s.resp := State.onMsgs_resp _ _ _ _ (fun m s => by split <;> simp [hf])

@[simp] theorem State.deliverTo_regs (s : State) (p : MKind → Bool) (a ln : Nat) (f : Msg → State → State) (hf : ∀ m s, (f m s).regs = s.regs) :
    (s.deliverTo p a ln f).regs = s.regs := State.onMsgs_regs _ _ _ _ (fun m s => by split <;> simp [hf])

@[simp] theorem State.deliverTo_wires (s : State) (p : MKind → Bool) (a ln : Nat) (f : Msg → State → State) (hf : ∀ m s, (f m s).wires = s.wires) :
    (s.deliverTo p a ln f).wires = s.wires := State.onMsgs_wires _ _ _ _ (fun m s => by split <;> simp [hf])

@[simp] theorem State.deliverTo_dmg (s : State) (p : MKind → Bool) (a ln : Nat) (f : Msg → State → State) (hf : ∀ m s, (f m s).dmg = s.dmg) :
    (s.deliverTo p a ln f).dmg = s.dmg := State.onMsgs_dmg _ _ _ _ (fun m s => by split <;> simp [hf])

@[simp] theorem State.deliverTo_wq (s : State) (p : MKind → Bool) (a ln : Nat) (f : Msg → State → State) (hf : ∀ m s, (f m s).wq = s.wq) :
    (s.deliverTo p a ln f).wq = s.wq := State.onMsgs_wq _ _ _ _ (fun m s => by split <;> simp [hf])

@[simp] theorem State.deliverTo_dbInval (s : State) (p : MKind → Bool) (a ln : Nat) (f : Msg → State → State) (hf : ∀ m s, (f m s).dbInval = s.dbInval) :
    (s.deliverTo p a ln f).dbInval = s.dbInval := State.onMsgs_dbInval _ _ _ _ (fun m s => by split <;> simp [hf])

@[simp] theorem State.deliverTo_watch (s : State) (p : MKind → Bool) (a ln : Nat) (f : Msg → State → State) (hf : ∀ m s, (f m s).watch = s.watch) :
    (s.deliverTo p a ln f).watch = s.watch := State.onMsgs_watch _ _ _ _ (fun m s => by split <;> simp [hf])

@[simp] theorem State.deliverTo_pkg (s : State) (p : MKind → Bool) (a ln : Nat) (f : Msg → State → State) (hf : ∀ m s, (f m s).pkg = s.pkg) :
    (s.deliverTo p a ln f).pkg = s.pkg := State.onMsgs_pkg _ _ _ _ (fun m s => by split <;> simp [hf])

@[simp] theorem State.deliverTo_pmc (s : State) (p : MKind → Bool) (a ln : Nat) (f : Msg → State → State) (hf : ∀ m s, (f m s).pmc = s.pmc) :
    (s.deliverTo p a ln f).pmc = s.pmc := State.onMsgs_pmc _ _ _ _ (fun m s => by split <;> simp [hf])

@[simp] theorem State.deliverTo_fwLog (s : State) (p : MKind → Bool) (a ln : Nat) (f : Msg → State → State) (hf : ∀ m s, (f m s).fwLog = s.fwLog) :
    (s.deliverTo p a ln f).fwLog = s.fwLog := State.onMsgs_fwLog _ _ _ _ (fun m s => by split <;> simp [hf])

@[simp] theorem State.deliverTo_out (s : State) (p : MKind → Bool) (a ln : Nat) (f : Msg → State → State) (hf : ∀ m s, (f m s).out = s.out) :
    (s.deliverTo p a ln f).out = s.out := State.onMsgs_out _ _ _ _ (fun m s => by split <;> simp [hf])

@[simp] theorem State.deliverTo_free (s : State) (p : MKind → Bool) (a ln : Nat) (f : Msg → State → State) (hf : ∀ m s, (f m s).free = s.free) :
    (s.deliverTo p a ln f).free = s.free := State.onMsgs_free _ _ _ _ (fun m s => by split <;> simp [hf])

theorem State.datGrantAt_fr (s : State) (a : Nat) (ln : Nat) (m : Msg) : (State.datGrantAt s a ln m).pending = s.pending ∧ (State.datGrantAt s a ln m).flash = s.flash ∧ (State.datGrantAt s a ln m).coldOpt = s.coldOpt ∧ (State.datGrantAt s a ln m).imsic = s.imsic ∧ (State.datGrantAt s a ln m).eng = s.eng ∧ (State.datGrantAt s a ln m).dm = s.dm ∧ (State.datGrantAt s a ln m).fx = s.fx ∧ (State.datGrantAt s a ln m).ctu = s.ctu ∧ (State.datGrantAt s a ln m).links = s.links ∧ (State.datGrantAt s a ln m).aplicS = s.aplicS ∧ (State.datGrantAt s a ln m).aplicN = s.aplicN ∧ (State.datGrantAt s a ln m).credits = s.credits ∧ (State.datGrantAt s a ln m).pkts = s.pkts ∧ (State.datGrantAt s a ln m).out = s.out ∧ (State.datGrantAt s a ln m).fabric = s.fabric ∧ (State.datGrantAt s a ln m).files = s.files := by
  generalize h : State.datGrantAt s a ln m = u
  unfold State.datGrantAt at h
  (try dsimp only at h); (repeat' split at h) <;> rw [← h] <;> simp [kept @State.answer_fr, kept @State.granted_fr]

theorem execDatGrant_fr (a : Fin 164) (ln : Nat) (s : State) {u : State} (h : execDatGrant a ln s = .next u) : u.pending = s.pending ∧ u.flash = s.flash ∧ u.coldOpt = s.coldOpt ∧ u.imsic = s.imsic ∧ u.eng = s.eng ∧ u.dm = s.dm ∧ u.fx = s.fx ∧ u.ctu = s.ctu ∧ u.links = s.links ∧ u.aplicS = s.aplicS ∧ u.aplicN = s.aplicN ∧ u.credits = s.credits ∧ u.pkts = s.pkts ∧ u.out = s.out ∧ u.fabric = s.fabric ∧ u.files = s.files := by
  unfold execDatGrant at h
  (first | (simp only [Host.Outcome.next.injEq] at h; rw [← h]) | (simp only [reduceCtorEq] at h; done) | (simp only [Option.some.injEq] at h; rw [← h])); simp [kept @State.datGrantAt_fr]

theorem State.rspGrantAt_fr (s : State) (c : Nat) (ln : Nat) (m : Msg) : (State.rspGrantAt s c ln m).pending = s.pending ∧ (State.rspGrantAt s c ln m).flash = s.flash ∧ (State.rspGrantAt s c ln m).coldOpt = s.coldOpt ∧ (State.rspGrantAt s c ln m).imsic = s.imsic ∧ (State.rspGrantAt s c ln m).eng = s.eng ∧ (State.rspGrantAt s c ln m).dm = s.dm ∧ (State.rspGrantAt s c ln m).fx = s.fx ∧ (State.rspGrantAt s c ln m).ctu = s.ctu ∧ (State.rspGrantAt s c ln m).links = s.links ∧ (State.rspGrantAt s c ln m).aplicS = s.aplicS ∧ (State.rspGrantAt s c ln m).aplicN = s.aplicN ∧ (State.rspGrantAt s c ln m).credits = s.credits ∧ (State.rspGrantAt s c ln m).pkts = s.pkts ∧ (State.rspGrantAt s c ln m).resp = s.resp ∧ (State.rspGrantAt s c ln m).out = s.out ∧ (State.rspGrantAt s c ln m).fabric = s.fabric ∧ (State.rspGrantAt s c ln m).files = s.files := by
  generalize h : State.rspGrantAt s c ln m = u
  unfold State.rspGrantAt at h
  (try dsimp only at h); (repeat' split at h) <;> rw [← h] <;> simp [kept @State.granted_fr, kept @State.setCluster_fr]

theorem execRspGrant_fr (c : Fin 36) (ln : Nat) (s : State) {u : State} (h : execRspGrant c ln s = .next u) : u.pending = s.pending ∧ u.flash = s.flash ∧ u.coldOpt = s.coldOpt ∧ u.imsic = s.imsic ∧ u.eng = s.eng ∧ u.dm = s.dm ∧ u.fx = s.fx ∧ u.ctu = s.ctu ∧ u.links = s.links ∧ u.aplicS = s.aplicS ∧ u.aplicN = s.aplicN ∧ u.credits = s.credits ∧ u.pkts = s.pkts ∧ u.resp = s.resp ∧ u.out = s.out ∧ u.fabric = s.fabric ∧ u.files = s.files := by
  unfold execRspGrant at h
  (first | (simp only [Host.Outcome.next.injEq] at h; rw [← h]) | (simp only [reduceCtorEq] at h; done) | (simp only [Option.some.injEq] at h; rw [← h])); simp [kept @State.rspGrantAt_fr]

theorem State.cmoDone_fr (s : State) (a : Nat) (ln : Nat) : (State.cmoDone s a ln).pending = s.pending ∧ (State.cmoDone s a ln).flash = s.flash ∧ (State.cmoDone s a ln).coldOpt = s.coldOpt ∧ (State.cmoDone s a ln).imsic = s.imsic ∧ (State.cmoDone s a ln).eng = s.eng ∧ (State.cmoDone s a ln).dm = s.dm ∧ (State.cmoDone s a ln).fx = s.fx ∧ (State.cmoDone s a ln).ctu = s.ctu ∧ (State.cmoDone s a ln).links = s.links ∧ (State.cmoDone s a ln).aplicS = s.aplicS ∧ (State.cmoDone s a ln).aplicN = s.aplicN ∧ (State.cmoDone s a ln).credits = s.credits ∧ (State.cmoDone s a ln).pkts = s.pkts ∧ (State.cmoDone s a ln).resp = s.resp ∧ (State.cmoDone s a ln).out = s.out ∧ (State.cmoDone s a ln).fabric = s.fabric ∧ (State.cmoDone s a ln).files = s.files := by
  generalize h : State.cmoDone s a ln = u
  unfold State.cmoDone at h
  (try dsimp only at h); (repeat' split at h) <;> rw [← h] <;> simp [kept @State.askMore_fr, kept @State.finishAcc_fr, kept @State.retryWaits_fr, kept @State.setCluster_fr]

theorem execRspWdone_fr (a : Fin 164) (ln : Nat) (s : State) {u : State} (h : execRspWdone a ln s = .next u) : u.pending = s.pending ∧ u.flash = s.flash ∧ u.coldOpt = s.coldOpt ∧ u.imsic = s.imsic ∧ u.eng = s.eng ∧ u.dm = s.dm ∧ u.fx = s.fx ∧ u.ctu = s.ctu ∧ u.links = s.links ∧ u.aplicS = s.aplicS ∧ u.aplicN = s.aplicN ∧ u.credits = s.credits ∧ u.pkts = s.pkts ∧ u.out = s.out ∧ u.fabric = s.fabric ∧ u.files = s.files := by
  unfold execRspWdone at h
  (first | (simp only [Host.Outcome.next.injEq] at h; rw [← h]) | (simp only [reduceCtorEq] at h; done) | (simp only [Option.some.injEq] at h; rw [← h])); simp [kept @State.answer_fr, kept @State.cmoDone_fr]

theorem execWbAck_fr (c : Fin 37) (ln : Nat) (s : State) {u : State} (h : execWbAck c ln s = .next u) : u.pending = s.pending ∧ u.flash = s.flash ∧ u.coldOpt = s.coldOpt ∧ u.imsic = s.imsic ∧ u.eng = s.eng ∧ u.dm = s.dm ∧ u.fx = s.fx ∧ u.ctu = s.ctu ∧ u.links = s.links ∧ u.aplicS = s.aplicS ∧ u.aplicN = s.aplicN ∧ u.credits = s.credits ∧ u.pkts = s.pkts ∧ u.resp = s.resp ∧ u.out = s.out ∧ u.fabric = s.fabric ∧ u.files = s.files := by
  unfold execWbAck at h
  (try dsimp only at h); (repeat' split at h) <;> (first | (simp only [Host.Outcome.next.injEq] at h; rw [← h]) | (simp only [reduceCtorEq] at h; done) | (simp only [Option.some.injEq] at h; rw [← h])) <;> simp [kept @State.evictMore_fr, kept @State.retryWaits_fr, kept @State.setCluster_fr]

theorem execLrHoldTimeout_fr (hh : Fin 216) (s : State) {u : State} (h : execLrHoldTimeout hh s = .next u) : u.pending = s.pending ∧ u.flash = s.flash ∧ u.coldOpt = s.coldOpt ∧ u.mem = s.mem ∧ u.mram = s.mram ∧ u.imsic = s.imsic ∧ u.eng = s.eng ∧ u.dm = s.dm ∧ u.fx = s.fx ∧ u.ctu = s.ctu ∧ u.links = s.links ∧ u.aplicS = s.aplicS ∧ u.aplicN = s.aplicN ∧ u.credits = s.credits ∧ u.homes = s.homes ∧ u.pkts = s.pkts ∧ u.resp = s.resp ∧ u.regs = s.regs ∧ u.wires = s.wires ∧ u.dmg = s.dmg ∧ u.wq = s.wq ∧ u.dbInval = s.dbInval ∧ u.watch = s.watch ∧ u.pkg = s.pkg ∧ u.pmc = s.pmc ∧ u.fwLog = s.fwLog ∧ u.out = s.out ∧ u.free = s.free ∧ u.fabric = s.fabric ∧ u.files = s.files := by
  unfold execLrHoldTimeout at h
  (try dsimp only at h); (repeat' split at h) <;> (first | (simp only [Host.Outcome.next.injEq] at h; rw [← h]) | (simp only [reduceCtorEq] at h; done) | (simp only [Option.some.injEq] at h; rw [← h])) <;> simp [kept @State.freeHeld_fr, kept @State.setHart_fr]

theorem State.memReadAt_fr (s : State) (t : Nat) (x : DevLine) (m : Msg) : (State.memReadAt s t x m).pending = s.pending ∧ (State.memReadAt s t x m).flash = s.flash ∧ (State.memReadAt s t x m).coldOpt = s.coldOpt ∧ (State.memReadAt s t x m).mem = s.mem ∧ (State.memReadAt s t x m).harts = s.harts ∧ (State.memReadAt s t x m).imsic = s.imsic ∧ (State.memReadAt s t x m).eng = s.eng ∧ (State.memReadAt s t x m).dm = s.dm ∧ (State.memReadAt s t x m).fx = s.fx ∧ (State.memReadAt s t x m).ctu = s.ctu ∧ (State.memReadAt s t x m).links = s.links ∧ (State.memReadAt s t x m).aplicS = s.aplicS ∧ (State.memReadAt s t x m).aplicN = s.aplicN ∧ (State.memReadAt s t x m).credits = s.credits ∧ (State.memReadAt s t x m).clusters = s.clusters ∧ (State.memReadAt s t x m).pkts = s.pkts ∧ (State.memReadAt s t x m).resp = s.resp ∧ (State.memReadAt s t x m).dmg = s.dmg ∧ (State.memReadAt s t x m).dbInval = s.dbInval ∧ (State.memReadAt s t x m).watch = s.watch ∧ (State.memReadAt s t x m).out = s.out ∧ (State.memReadAt s t x m).free = s.free ∧ (State.memReadAt s t x m).fabric = s.fabric ∧ (State.memReadAt s t x m).files = s.files := by
  generalize h : State.memReadAt s t x m = u
  unfold State.memReadAt at h
  (try dsimp only at h); (repeat' split at h) <;> rw [← h] <;> simp [kept @State.domainOff_fr, kept @State.pmcMem_fr, kept @State.post_fr, kept @State.proceed_fr, kept @State.readLineQ_fr, kept @State.setHome_fr]

theorem execMemRead_fr (t : Fin 64) (x : DevLine) (s : State) {u : State} (h : execMemRead t x s = .next u) : u.pending = s.pending ∧ u.flash = s.flash ∧ u.coldOpt = s.coldOpt ∧ u.mem = s.mem ∧ u.harts = s.harts ∧ u.imsic = s.imsic ∧ u.eng = s.eng ∧ u.dm = s.dm ∧ u.fx = s.fx ∧ u.ctu = s.ctu ∧ u.links = s.links ∧ u.aplicS = s.aplicS ∧ u.aplicN = s.aplicN ∧ u.credits = s.credits ∧ u.clusters = s.clusters ∧ u.pkts = s.pkts ∧ u.resp = s.resp ∧ u.dmg = s.dmg ∧ u.dbInval = s.dbInval ∧ u.watch = s.watch ∧ u.out = s.out ∧ u.free = s.free ∧ u.fabric = s.fabric ∧ u.files = s.files := by
  unfold execMemRead at h
  (try dsimp only at h); (repeat' split at h) <;> (first | (simp only [Host.Outcome.next.injEq] at h; rw [← h]) | (simp only [reduceCtorEq] at h; done) | (simp only [Option.some.injEq] at h; rw [← h])) <;> simp [kept @State.memReadAt_fr]

theorem execMemData_fr (t : Fin 64) (ln : Nat) (s : State) {u : State} (h : execMemData t ln s = .next u) : u.pending = s.pending ∧ u.flash = s.flash ∧ u.coldOpt = s.coldOpt ∧ u.mem = s.mem ∧ u.harts = s.harts ∧ u.mram = s.mram ∧ u.imsic = s.imsic ∧ u.eng = s.eng ∧ u.dm = s.dm ∧ u.fx = s.fx ∧ u.ctu = s.ctu ∧ u.links = s.links ∧ u.aplicS = s.aplicS ∧ u.aplicN = s.aplicN ∧ u.credits = s.credits ∧ u.clusters = s.clusters ∧ u.pkts = s.pkts ∧ u.resp = s.resp ∧ u.wires = s.wires ∧ u.dmg = s.dmg ∧ u.dbInval = s.dbInval ∧ u.watch = s.watch ∧ u.pkg = s.pkg ∧ u.pmc = s.pmc ∧ u.out = s.out ∧ u.free = s.free ∧ u.fabric = s.fabric ∧ u.files = s.files := by
  unfold execMemData at h
  (first | (simp only [Host.Outcome.next.injEq] at h; rw [← h]) | (simp only [reduceCtorEq] at h; done) | (simp only [Option.some.injEq] at h; rw [← h])); simp [kept @State.memData_fr]

theorem State.issueOldest_fr (s : State) (ln : Nat) (full : Bool) : (State.issueOldest s ln full).pending = s.pending ∧ (State.issueOldest s ln full).flash = s.flash ∧ (State.issueOldest s ln full).coldOpt = s.coldOpt ∧ (State.issueOldest s ln full).harts = s.harts ∧ (State.issueOldest s ln full).imsic = s.imsic ∧ (State.issueOldest s ln full).eng = s.eng ∧ (State.issueOldest s ln full).dm = s.dm ∧ (State.issueOldest s ln full).fx = s.fx ∧ (State.issueOldest s ln full).ctu = s.ctu ∧ (State.issueOldest s ln full).links = s.links ∧ (State.issueOldest s ln full).aplicS = s.aplicS ∧ (State.issueOldest s ln full).aplicN = s.aplicN ∧ (State.issueOldest s ln full).credits = s.credits ∧ (State.issueOldest s ln full).clusters = s.clusters ∧ (State.issueOldest s ln full).homes = s.homes ∧ (State.issueOldest s ln full).pkts = s.pkts ∧ (State.issueOldest s ln full).resp = s.resp ∧ (State.issueOldest s ln full).net = s.net ∧ (State.issueOldest s ln full).dbInval = s.dbInval ∧ (State.issueOldest s ln full).watch = s.watch ∧ (State.issueOldest s ln full).out = s.out ∧ (State.issueOldest s ln full).free = s.free ∧ (State.issueOldest s ln full).fabric = s.fabric ∧ (State.issueOldest s ln full).files = s.files := by
  generalize h : State.issueOldest s ln full = u
  unfold State.issueOldest at h
  (try dsimp only at h); (repeat' split at h) <;> rw [← h] <;> simp [kept @State.issueWrite_fr, kept @State.logFw_fr]

theorem execMemWrite_fr (ln : Nat) (s : State) {u : State} (h : execMemWrite ln s = .next u) : u.pending = s.pending ∧ u.flash = s.flash ∧ u.coldOpt = s.coldOpt ∧ u.harts = s.harts ∧ u.imsic = s.imsic ∧ u.eng = s.eng ∧ u.dm = s.dm ∧ u.fx = s.fx ∧ u.ctu = s.ctu ∧ u.links = s.links ∧ u.aplicS = s.aplicS ∧ u.aplicN = s.aplicN ∧ u.credits = s.credits ∧ u.clusters = s.clusters ∧ u.homes = s.homes ∧ u.pkts = s.pkts ∧ u.resp = s.resp ∧ u.net = s.net ∧ u.dbInval = s.dbInval ∧ u.watch = s.watch ∧ u.out = s.out ∧ u.free = s.free ∧ u.fabric = s.fabric ∧ u.files = s.files := by
  unfold execMemWrite at h
  (first | (simp only [Host.Outcome.next.injEq] at h; rw [← h]) | (simp only [reduceCtorEq] at h; done) | (simp only [Option.some.injEq] at h; rw [← h])); simp [kept @State.issueOldest_fr]

theorem execMemWriteMask_fr (ln : Nat) (s : State) {u : State} (h : execMemWriteMask ln s = .next u) : u.pending = s.pending ∧ u.flash = s.flash ∧ u.coldOpt = s.coldOpt ∧ u.harts = s.harts ∧ u.imsic = s.imsic ∧ u.eng = s.eng ∧ u.dm = s.dm ∧ u.fx = s.fx ∧ u.ctu = s.ctu ∧ u.links = s.links ∧ u.aplicS = s.aplicS ∧ u.aplicN = s.aplicN ∧ u.credits = s.credits ∧ u.clusters = s.clusters ∧ u.homes = s.homes ∧ u.pkts = s.pkts ∧ u.resp = s.resp ∧ u.net = s.net ∧ u.dbInval = s.dbInval ∧ u.watch = s.watch ∧ u.out = s.out ∧ u.free = s.free ∧ u.fabric = s.fabric ∧ u.files = s.files := by
  unfold execMemWriteMask at h
  (first | (simp only [Host.Outcome.next.injEq] at h; rw [← h]) | (simp only [reduceCtorEq] at h; done) | (simp only [Option.some.injEq] at h; rw [← h])); simp [kept @State.issueOldest_fr]

theorem execPatrolScrub_fr (m : Fin 16) (s : State) {u : State} (h : execPatrolScrub m s = .next u) : u.pending = s.pending ∧ u.flash = s.flash ∧ u.coldOpt = s.coldOpt ∧ u.mem = s.mem ∧ u.harts = s.harts ∧ u.imsic = s.imsic ∧ u.eng = s.eng ∧ u.dm = s.dm ∧ u.fx = s.fx ∧ u.ctu = s.ctu ∧ u.links = s.links ∧ u.aplicS = s.aplicS ∧ u.aplicN = s.aplicN ∧ u.credits = s.credits ∧ u.clusters = s.clusters ∧ u.homes = s.homes ∧ u.pkts = s.pkts ∧ u.resp = s.resp ∧ u.dmg = s.dmg ∧ u.net = s.net ∧ u.dbInval = s.dbInval ∧ u.watch = s.watch ∧ u.fwLog = s.fwLog ∧ u.out = s.out ∧ u.free = s.free ∧ u.fabric = s.fabric ∧ u.files = s.files := by
  unfold execPatrolScrub at h
  (try dsimp only at h); (repeat' split at h) <;> (first | (simp only [Host.Outcome.next.injEq] at h; rw [← h]) | (simp only [reduceCtorEq] at h; done) | (simp only [Option.some.injEq] at h; rw [← h])) <;> simp [kept @State.readMemLine_fr, kept @State.wr_fr]

theorem execRangeOp_fr (t : Fin 64) (hh : Fin 216) (s : State) {u : State} (h : execRangeOp t hh s = .next u) : u.pending = s.pending ∧ u.flash = s.flash ∧ u.coldOpt = s.coldOpt ∧ u.mem = s.mem ∧ u.mram = s.mram ∧ u.imsic = s.imsic ∧ u.eng = s.eng ∧ u.dm = s.dm ∧ u.fx = s.fx ∧ u.ctu = s.ctu ∧ u.links = s.links ∧ u.aplicS = s.aplicS ∧ u.aplicN = s.aplicN ∧ u.credits = s.credits ∧ u.pkts = s.pkts ∧ u.resp = s.resp ∧ u.wires = s.wires ∧ u.dmg = s.dmg ∧ u.pkg = s.pkg ∧ u.pmc = s.pmc ∧ u.out = s.out ∧ u.free = s.free ∧ u.fabric = s.fabric ∧ u.files = s.files := by
  unfold execRangeOp at h
  (try dsimp only at h); (repeat' split at h) <;> (first | (simp only [Host.Outcome.next.injEq] at h; rw [← h]) | (simp only [reduceCtorEq] at h; done) | (simp only [Option.some.injEq] at h; rw [← h])) <;> simp [kept @State.reAdmit_fr, kept @State.setHolds_fr, kept @State.sweepHome_fr]

theorem execRangeSweep_fr (t : Fin 64) (s : State) {u : State} (h : execRangeSweep t s = .next u) : u.pending = s.pending ∧ u.flash = s.flash ∧ u.coldOpt = s.coldOpt ∧ u.mem = s.mem ∧ u.mram = s.mram ∧ u.imsic = s.imsic ∧ u.eng = s.eng ∧ u.dm = s.dm ∧ u.fx = s.fx ∧ u.ctu = s.ctu ∧ u.links = s.links ∧ u.aplicS = s.aplicS ∧ u.aplicN = s.aplicN ∧ u.credits = s.credits ∧ u.pkts = s.pkts ∧ u.resp = s.resp ∧ u.wires = s.wires ∧ u.dmg = s.dmg ∧ u.pkg = s.pkg ∧ u.pmc = s.pmc ∧ u.fwLog = s.fwLog ∧ u.out = s.out ∧ u.free = s.free ∧ u.fabric = s.fabric ∧ u.files = s.files := by
  unfold execRangeSweep at h
  (try dsimp only at h); (repeat' split at h) <;> (first | (simp only [Host.Outcome.next.injEq] at h; rw [← h]) | (simp only [reduceCtorEq] at h; done) | (simp only [Option.some.injEq] at h; rw [← h])) <;> simp [kept @State.sweepHome_fr]

theorem execOpDone_fr (o : OpRef) (s : State) {u : State} (h : execOpDone o s = .next u) : u.pending = s.pending ∧ u.flash = s.flash ∧ u.coldOpt = s.coldOpt ∧ u.imsic = s.imsic ∧ u.dm = s.dm ∧ u.fx = s.fx ∧ u.ctu = s.ctu ∧ u.links = s.links ∧ u.aplicS = s.aplicS ∧ u.aplicN = s.aplicN ∧ u.credits = s.credits ∧ u.pkts = s.pkts ∧ u.resp = s.resp ∧ u.out = s.out ∧ u.fabric = s.fabric ∧ u.files = s.files := by
  unfold execOpDone at h
  (try dsimp only at h); (repeat' split at h) <;> (first | (simp only [Host.Outcome.next.injEq] at h; rw [← h]) | (simp only [reduceCtorEq] at h; done) | (simp only [Option.some.injEq] at h; rw [← h])) <;> simp [kept @State.bopOver_fr, kept @State.pagesOver_fr, kept @State.retire_fr, kept @State.setHart_fr, kept @State.setHolds_fr]

end Sys2Proof.Machine
end

