-- ==== Sys2Proof/Laws/Frame/FxCmds.lean ====
section
/-! SUPPORT. What the operations of Machine/FxCmds.lean leave unchanged. -/

set_option Elab.async false
set_option linter.all false

namespace Sys2Proof.Machine
open Sys2Proof

theorem State.fxCaps_fr (s : State) (p : Nat) : (State.fxCaps s p).pending = s.pending ∧ (State.fxCaps s p).flash = s.flash ∧ (State.fxCaps s p).coldOpt = s.coldOpt ∧ (State.fxCaps s p).mem = s.mem ∧ (State.fxCaps s p).harts = s.harts ∧ (State.fxCaps s p).mram = s.mram ∧ (State.fxCaps s p).imsic = s.imsic ∧ (State.fxCaps s p).eng = s.eng ∧ (State.fxCaps s p).dm = s.dm ∧ (State.fxCaps s p).fx = s.fx ∧ (State.fxCaps s p).ctu = s.ctu ∧ (State.fxCaps s p).links = s.links ∧ (State.fxCaps s p).aplicS = s.aplicS ∧ (State.fxCaps s p).aplicN = s.aplicN ∧ (State.fxCaps s p).credits = s.credits ∧ (State.fxCaps s p).clusters = s.clusters ∧ (State.fxCaps s p).homes = s.homes ∧ (State.fxCaps s p).pkts = s.pkts ∧ (State.fxCaps s p).resp = s.resp ∧ (State.fxCaps s p).regs = s.regs ∧ (State.fxCaps s p).wires = s.wires ∧ (State.fxCaps s p).dmg = s.dmg ∧ (State.fxCaps s p).wq = s.wq ∧ (State.fxCaps s p).net = s.net ∧ (State.fxCaps s p).dbInval = s.dbInval ∧ (State.fxCaps s p).watch = s.watch ∧ (State.fxCaps s p).pkg = s.pkg ∧ (State.fxCaps s p).pmc = s.pmc ∧ (State.fxCaps s p).fwLog = s.fwLog ∧ (State.fxCaps s p).free = s.free ∧ (State.fxCaps s p).fabric = s.fabric ∧ (State.fxCaps s p).files = s.files := by
  generalize h : State.fxCaps s p = u
  unfold State.fxCaps at h
  (try dsimp only at h); (repeat' split at h) <;> rw [← h] <;> simp [kept @State.send_fr]

theorem execTrainingStepComplete_fr (p : Fin 4) (lanes : Nat) (s : State) {u : State} (h : execTrainingStepComplete p lanes s = .next u) : u.pending = s.pending ∧ u.flash = s.flash ∧ u.coldOpt = s.coldOpt ∧ u.mem = s.mem ∧ u.harts = s.harts ∧ u.mram = s.mram ∧ u.imsic = s.imsic ∧ u.eng = s.eng ∧ u.dm = s.dm ∧ u.ctu = s.ctu ∧ u.links = s.links ∧ u.aplicS = s.aplicS ∧ u.aplicN = s.aplicN ∧ u.credits = s.credits ∧ u.clusters = s.clusters ∧ u.homes = s.homes ∧ u.pkts = s.pkts ∧ u.resp = s.resp ∧ u.dmg = s.dmg ∧ u.wq = s.wq ∧ u.net = s.net ∧ u.dbInval = s.dbInval ∧ u.watch = s.watch ∧ u.pkg = s.pkg ∧ u.pmc = s.pmc ∧ u.fwLog = s.fwLog ∧ u.free = s.free ∧ u.fabric = s.fabric ∧ u.files = s.files := by
  unfold execTrainingStepComplete at h
  (try dsimp only at h); (repeat' split at h) <;> (first | (simp only [Host.Outcome.next.injEq] at h; rw [← h]) | (simp only [reduceCtorEq] at h; done) | (simp only [Option.some.injEq] at h; rw [← h])) <;> simp [kept @State.finxisDown_fr, kept @State.fxCaps_fr, kept @State.setPort_fr, kept @State.wr_fr, kept @State.wrs_fr]

theorem execTrainingTimeout_fr (p : Fin 4) (s : State) {u : State} (h : execTrainingTimeout p s = .next u) : u.pending = s.pending ∧ u.flash = s.flash ∧ u.coldOpt = s.coldOpt ∧ u.mem = s.mem ∧ u.harts = s.harts ∧ u.mram = s.mram ∧ u.imsic = s.imsic ∧ u.eng = s.eng ∧ u.dm = s.dm ∧ u.fx = s.fx ∧ u.ctu = s.ctu ∧ u.links = s.links ∧ u.aplicS = s.aplicS ∧ u.aplicN = s.aplicN ∧ u.credits = s.credits ∧ u.clusters = s.clusters ∧ u.homes = s.homes ∧ u.pkts = s.pkts ∧ u.resp = s.resp ∧ u.dmg = s.dmg ∧ u.wq = s.wq ∧ u.net = s.net ∧ u.dbInval = s.dbInval ∧ u.watch = s.watch ∧ u.pkg = s.pkg ∧ u.pmc = s.pmc ∧ u.fwLog = s.fwLog ∧ u.out = s.out ∧ u.free = s.free ∧ u.fabric = s.fabric ∧ u.files = s.files := by
  unfold execTrainingTimeout at h
  (first | (simp only [Host.Outcome.next.injEq] at h; rw [← h]) | (simp only [reduceCtorEq] at h; done) | (simp only [Option.some.injEq] at h; rw [← h])); simp [kept @State.finxisDown_fr]

theorem State.fxResend_fr (s : State) (p : Nat) : (State.fxResend s p).pending = s.pending ∧ (State.fxResend s p).flash = s.flash ∧ (State.fxResend s p).coldOpt = s.coldOpt ∧ (State.fxResend s p).mem = s.mem ∧ (State.fxResend s p).harts = s.harts ∧ (State.fxResend s p).mram = s.mram ∧ (State.fxResend s p).imsic = s.imsic ∧ (State.fxResend s p).eng = s.eng ∧ (State.fxResend s p).dm = s.dm ∧ (State.fxResend s p).ctu = s.ctu ∧ (State.fxResend s p).links = s.links ∧ (State.fxResend s p).aplicS = s.aplicS ∧ (State.fxResend s p).aplicN = s.aplicN ∧ (State.fxResend s p).credits = s.credits ∧ (State.fxResend s p).clusters = s.clusters ∧ (State.fxResend s p).homes = s.homes ∧ (State.fxResend s p).pkts = s.pkts ∧ (State.fxResend s p).resp = s.resp ∧ (State.fxResend s p).wires = s.wires ∧ (State.fxResend s p).dmg = s.dmg ∧ (State.fxResend s p).wq = s.wq ∧ (State.fxResend s p).net = s.net ∧ (State.fxResend s p).dbInval = s.dbInval ∧ (State.fxResend s p).watch = s.watch ∧ (State.fxResend s p).pkg = s.pkg ∧ (State.fxResend s p).pmc = s.pmc ∧ (State.fxResend s p).fwLog = s.fwLog ∧ (State.fxResend s p).free = s.free ∧ (State.fxResend s p).fabric = s.fabric ∧ (State.fxResend s p).files = s.files := by
  generalize h : State.fxResend s p = u
  unfold State.fxResend at h
  rw [← h]; simp [kept @State.fxPump_fr, kept @State.setPort_fr]

theorem State.fxRetrain_fr (s : State) (p : Nat) (third : Bool) : (State.fxRetrain s p third).pending = s.pending ∧ (State.fxRetrain s p third).flash = s.flash ∧ (State.fxRetrain s p third).coldOpt = s.coldOpt ∧ (State.fxRetrain s p third).mem = s.mem ∧ (State.fxRetrain s p third).harts = s.harts ∧ (State.fxRetrain s p third).mram = s.mram ∧ (State.fxRetrain s p third).imsic = s.imsic ∧ (State.fxRetrain s p third).eng = s.eng ∧ (State.fxRetrain s p third).dm = s.dm ∧ (State.fxRetrain s p third).ctu = s.ctu ∧ (State.fxRetrain s p third).links = s.links ∧ (State.fxRetrain s p third).aplicS = s.aplicS ∧ (State.fxRetrain s p third).aplicN = s.aplicN ∧ (State.fxRetrain s p third).credits = s.credits ∧ (State.fxRetrain s p third).clusters = s.clusters ∧ (State.fxRetrain s p third).homes = s.homes ∧ (State.fxRetrain s p third).pkts = s.pkts ∧ (State.fxRetrain s p third).resp = s.resp ∧ (State.fxRetrain s p third).dmg = s.dmg ∧ (State.fxRetrain s p third).wq = s.wq ∧ (State.fxRetrain s p third).net = s.net ∧ (State.fxRetrain s p third).dbInval = s.dbInval ∧ (State.fxRetrain s p third).watch = s.watch ∧ (State.fxRetrain s p third).pkg = s.pkg ∧ (State.fxRetrain s p third).pmc = s.pmc ∧ (State.fxRetrain s p third).fwLog = s.fwLog ∧ (State.fxRetrain s p third).out = s.out ∧ (State.fxRetrain s p third).free = s.free ∧ (State.fxRetrain s p third).fabric = s.fabric ∧ (State.fxRetrain s p third).files = s.files := by
  generalize h : State.fxRetrain s p third = u
  unfold State.fxRetrain at h
  rw [← h]; simp [kept @State.finxisDown_fr, kept @State.satF_fr, kept @State.setPort_fr, kept @State.wr_fr]

theorem State.fxReplay_fr (s : State) (p : Nat) (third : Bool) : (State.fxReplay s p third).pending = s.pending ∧ (State.fxReplay s p third).flash = s.flash ∧ (State.fxReplay s p third).coldOpt = s.coldOpt ∧ (State.fxReplay s p third).mem = s.mem ∧ (State.fxReplay s p third).harts = s.harts ∧ (State.fxReplay s p third).mram = s.mram ∧ (State.fxReplay s p third).imsic = s.imsic ∧ (State.fxReplay s p third).eng = s.eng ∧ (State.fxReplay s p third).dm = s.dm ∧ (State.fxReplay s p third).ctu = s.ctu ∧ (State.fxReplay s p third).links = s.links ∧ (State.fxReplay s p third).aplicS = s.aplicS ∧ (State.fxReplay s p third).aplicN = s.aplicN ∧ (State.fxReplay s p third).credits = s.credits ∧ (State.fxReplay s p third).clusters = s.clusters ∧ (State.fxReplay s p third).homes = s.homes ∧ (State.fxReplay s p third).pkts = s.pkts ∧ (State.fxReplay s p third).resp = s.resp ∧ (State.fxReplay s p third).dmg = s.dmg ∧ (State.fxReplay s p third).wq = s.wq ∧ (State.fxReplay s p third).net = s.net ∧ (State.fxReplay s p third).dbInval = s.dbInval ∧ (State.fxReplay s p third).watch = s.watch ∧ (State.fxReplay s p third).pkg = s.pkg ∧ (State.fxReplay s p third).pmc = s.pmc ∧ (State.fxReplay s p third).fwLog = s.fwLog ∧ (State.fxReplay s p third).free = s.free ∧ (State.fxReplay s p third).fabric = s.fabric ∧ (State.fxReplay s p third).files = s.files := by
  generalize h : State.fxReplay s p third = u
  unfold State.fxReplay at h
  rw [← h]; simp [kept @State.fxResend_fr, kept @State.fxRetrain_fr, kept @State.setPort_fr]

theorem State.fxSession_fr (s : State) (p : Nat) (sess : Nat) : (State.fxSession s p sess).pending = s.pending ∧ (State.fxSession s p sess).flash = s.flash ∧ (State.fxSession s p sess).coldOpt = s.coldOpt ∧ (State.fxSession s p sess).mem = s.mem ∧ (State.fxSession s p sess).harts = s.harts ∧ (State.fxSession s p sess).mram = s.mram ∧ (State.fxSession s p sess).imsic = s.imsic ∧ (State.fxSession s p sess).eng = s.eng ∧ (State.fxSession s p sess).dm = s.dm ∧ (State.fxSession s p sess).ctu = s.ctu ∧ (State.fxSession s p sess).links = s.links ∧ (State.fxSession s p sess).aplicS = s.aplicS ∧ (State.fxSession s p sess).aplicN = s.aplicN ∧ (State.fxSession s p sess).credits = s.credits ∧ (State.fxSession s p sess).clusters = s.clusters ∧ (State.fxSession s p sess).homes = s.homes ∧ (State.fxSession s p sess).pkts = s.pkts ∧ (State.fxSession s p sess).resp = s.resp ∧ (State.fxSession s p sess).dmg = s.dmg ∧ (State.fxSession s p sess).wq = s.wq ∧ (State.fxSession s p sess).net = s.net ∧ (State.fxSession s p sess).dbInval = s.dbInval ∧ (State.fxSession s p sess).watch = s.watch ∧ (State.fxSession s p sess).pkg = s.pkg ∧ (State.fxSession s p sess).pmc = s.pmc ∧ (State.fxSession s p sess).fwLog = s.fwLog ∧ (State.fxSession s p sess).out = s.out ∧ (State.fxSession s p sess).free = s.free ∧ (State.fxSession s p sess).fabric = s.fabric ∧ (State.fxSession s p sess).files = s.files := by
  generalize h : State.fxSession s p sess = u
  unfold State.fxSession at h
  rw [← h]; simp [kept @State.fxDropped_fr, kept @State.raise_fr, kept @State.setPort_fr]

theorem execCapabilityWord_fr (p : Fin 4) (version : Nat) (c0 : Nat) (c1 : Nat) (c2 : Nat) (sess : Nat) (s : State) {u : State} (h : execCapabilityWord p version c0 c1 c2 sess s = .next u) : u.pending = s.pending ∧ u.flash = s.flash ∧ u.coldOpt = s.coldOpt ∧ u.mem = s.mem ∧ u.harts = s.harts ∧ u.mram = s.mram ∧ u.imsic = s.imsic ∧ u.eng = s.eng ∧ u.dm = s.dm ∧ u.ctu = s.ctu ∧ u.links = s.links ∧ u.aplicS = s.aplicS ∧ u.aplicN = s.aplicN ∧ u.credits = s.credits ∧ u.clusters = s.clusters ∧ u.homes = s.homes ∧ u.pkts = s.pkts ∧ u.resp = s.resp ∧ u.dmg = s.dmg ∧ u.wq = s.wq ∧ u.net = s.net ∧ u.dbInval = s.dbInval ∧ u.watch = s.watch ∧ u.pkg = s.pkg ∧ u.pmc = s.pmc ∧ u.fwLog = s.fwLog ∧ u.free = s.free ∧ u.fabric = s.fabric ∧ u.files = s.files := by
  unfold execCapabilityWord at h
  (try dsimp only at h); (repeat' split at h) <;> (first | (simp only [Host.Outcome.next.injEq] at h; rw [← h]) | (simp only [reduceCtorEq] at h; done) | (simp only [Option.some.injEq] at h; rw [← h])) <;> simp [kept @State.finxisDown_fr, kept @State.fxActive_fr, kept @State.fxPump_fr, kept @State.fxResend_fr, kept @State.fxSession_fr, kept @State.setPort_fr]

theorem State.fxBad_fr (s : State) (p : Nat) : (State.fxBad s p).pending = s.pending ∧ (State.fxBad s p).flash = s.flash ∧ (State.fxBad s p).coldOpt = s.coldOpt ∧ (State.fxBad s p).mem = s.mem ∧ (State.fxBad s p).harts = s.harts ∧ (State.fxBad s p).mram = s.mram ∧ (State.fxBad s p).imsic = s.imsic ∧ (State.fxBad s p).eng = s.eng ∧ (State.fxBad s p).dm = s.dm ∧ (State.fxBad s p).ctu = s.ctu ∧ (State.fxBad s p).links = s.links ∧ (State.fxBad s p).aplicS = s.aplicS ∧ (State.fxBad s p).aplicN = s.aplicN ∧ (State.fxBad s p).credits = s.credits ∧ (State.fxBad s p).clusters = s.clusters ∧ (State.fxBad s p).homes = s.homes ∧ (State.fxBad s p).pkts = s.pkts ∧ (State.fxBad s p).resp = s.resp ∧ (State.fxBad s p).regs = s.regs ∧ (State.fxBad s p).wires = s.wires ∧ (State.fxBad s p).dmg = s.dmg ∧ (State.fxBad s p).wq = s.wq ∧ (State.fxBad s p).net = s.net ∧ (State.fxBad s p).dbInval = s.dbInval ∧ (State.fxBad s p).watch = s.watch ∧ (State.fxBad s p).pkg = s.pkg ∧ (State.fxBad s p).pmc = s.pmc ∧ (State.fxBad s p).fwLog = s.fwLog ∧ (State.fxBad s p).free = s.free ∧ (State.fxBad s p).fabric = s.fabric ∧ (State.fxBad s p).files = s.files := by
  generalize h : State.fxBad s p = u
  unfold State.fxBad at h
  rw [← h]; simp [kept @State.fxSendCtl_fr, kept @State.setPort_fr]

theorem State.fxReturn_fr (s : State) (p : Nat) (vl : Nat) (n : Nat) : (State.fxReturn s p vl n).pending = s.pending ∧ (State.fxReturn s p vl n).flash = s.flash ∧ (State.fxReturn s p vl n).coldOpt = s.coldOpt ∧ (State.fxReturn s p vl n).mem = s.mem ∧ (State.fxReturn s p vl n).harts = s.harts ∧ (State.fxReturn s p vl n).mram = s.mram ∧ (State.fxReturn s p vl n).imsic = s.imsic ∧ (State.fxReturn s p vl n).eng = s.eng ∧ (State.fxReturn s p vl n).dm = s.dm ∧ (State.fxReturn s p vl n).ctu = s.ctu ∧ (State.fxReturn s p vl n).links = s.links ∧ (State.fxReturn s p vl n).aplicS = s.aplicS ∧ (State.fxReturn s p vl n).aplicN = s.aplicN ∧ (State.fxReturn s p vl n).credits = s.credits ∧ (State.fxReturn s p vl n).clusters = s.clusters ∧ (State.fxReturn s p vl n).homes = s.homes ∧ (State.fxReturn s p vl n).pkts = s.pkts ∧ (State.fxReturn s p vl n).resp = s.resp ∧ (State.fxReturn s p vl n).regs = s.regs ∧ (State.fxReturn s p vl n).wires = s.wires ∧ (State.fxReturn s p vl n).dmg = s.dmg ∧ (State.fxReturn s p vl n).wq = s.wq ∧ (State.fxReturn s p vl n).net = s.net ∧ (State.fxReturn s p vl n).dbInval = s.dbInval ∧ (State.fxReturn s p vl n).watch = s.watch ∧ (State.fxReturn s p vl n).pkg = s.pkg ∧ (State.fxReturn s p vl n).pmc = s.pmc ∧ (State.fxReturn s p vl n).fwLog = s.fwLog ∧ (State.fxReturn s p vl n).out = s.out ∧ (State.fxReturn s p vl n).free = s.free ∧ (State.fxReturn s p vl n).fabric = s.fabric ∧ (State.fxReturn s p vl n).files = s.files := by
  generalize h : State.fxReturn s p vl n = u
  unfold State.fxReturn at h
  rw [← h]; simp [kept @State.setPort_fr]

theorem State.fxTake_fr (s : State) (p : Nat) (vl : Nat) (body : List Byte) : (State.fxTake s p vl body).pending = s.pending ∧ (State.fxTake s p vl body).flash = s.flash ∧ (State.fxTake s p vl body).coldOpt = s.coldOpt ∧ (State.fxTake s p vl body).mem = s.mem ∧ (State.fxTake s p vl body).harts = s.harts ∧ (State.fxTake s p vl body).mram = s.mram ∧ (State.fxTake s p vl body).imsic = s.imsic ∧ (State.fxTake s p vl body).eng = s.eng ∧ (State.fxTake s p vl body).dm = s.dm ∧ (State.fxTake s p vl body).ctu = s.ctu ∧ (State.fxTake s p vl body).links = s.links ∧ (State.fxTake s p vl body).aplicS = s.aplicS ∧ (State.fxTake s p vl body).aplicN = s.aplicN ∧ (State.fxTake s p vl body).credits = s.credits ∧ (State.fxTake s p vl body).clusters = s.clusters ∧ (State.fxTake s p vl body).homes = s.homes ∧ (State.fxTake s p vl body).pkts = s.pkts ∧ (State.fxTake s p vl body).resp = s.resp ∧ (State.fxTake s p vl body).dmg = s.dmg ∧ (State.fxTake s p vl body).wq = s.wq ∧ (State.fxTake s p vl body).net = s.net ∧ (State.fxTake s p vl body).dbInval = s.dbInval ∧ (State.fxTake s p vl body).watch = s.watch ∧ (State.fxTake s p vl body).pkg = s.pkg ∧ (State.fxTake s p vl body).pmc = s.pmc ∧ (State.fxTake s p vl body).fwLog = s.fwLog ∧ (State.fxTake s p vl body).free = s.free ∧ (State.fxTake s p vl body).fabric = s.fabric ∧ (State.fxTake s p vl body).files = s.files := by
  generalize h : State.fxTake s p vl body = u
  unfold State.fxTake at h
  (try dsimp only at h); (repeat' split at h) <;> rw [← h] <;> simp [kept @State.fxNotice_fr, kept @State.fxReturn_fr, kept @State.setPort_fr]

theorem execDataFlit_fr (p : Fin 4) (bytes : List Byte) (bad : Bool) (s : State) {u : State} (h : execDataFlit p bytes bad s = .next u) : u.pending = s.pending ∧ u.flash = s.flash ∧ u.coldOpt = s.coldOpt ∧ u.mem = s.mem ∧ u.harts = s.harts ∧ u.mram = s.mram ∧ u.imsic = s.imsic ∧ u.eng = s.eng ∧ u.dm = s.dm ∧ u.ctu = s.ctu ∧ u.links = s.links ∧ u.aplicS = s.aplicS ∧ u.aplicN = s.aplicN ∧ u.credits = s.credits ∧ u.clusters = s.clusters ∧ u.homes = s.homes ∧ u.pkts = s.pkts ∧ u.resp = s.resp ∧ u.dmg = s.dmg ∧ u.wq = s.wq ∧ u.net = s.net ∧ u.dbInval = s.dbInval ∧ u.watch = s.watch ∧ u.pkg = s.pkg ∧ u.pmc = s.pmc ∧ u.fwLog = s.fwLog ∧ u.free = s.free ∧ u.fabric = s.fabric ∧ u.files = s.files := by
  unfold execDataFlit at h
  (try dsimp only at h); (repeat' split at h) <;> (first | (simp only [Host.Outcome.next.injEq] at h; rw [← h]) | (simp only [reduceCtorEq] at h; done) | (simp only [Option.some.injEq] at h; rw [← h])) <;> simp [kept @State.fxBad_fr, kept @State.fxPump_fr, kept @State.fxTake_fr, kept @State.setPort_fr]

theorem execIdleFlit_fr (p : Fin 4) (bytes : List Byte) (bad : Bool) (s : State) {u : State} (h : execIdleFlit p bytes bad s = .next u) : u.pending = s.pending ∧ u.flash = s.flash ∧ u.coldOpt = s.coldOpt ∧ u.mem = s.mem ∧ u.harts = s.harts ∧ u.mram = s.mram ∧ u.imsic = s.imsic ∧ u.eng = s.eng ∧ u.dm = s.dm ∧ u.ctu = s.ctu ∧ u.links = s.links ∧ u.aplicS = s.aplicS ∧ u.aplicN = s.aplicN ∧ u.credits = s.credits ∧ u.clusters = s.clusters ∧ u.homes = s.homes ∧ u.pkts = s.pkts ∧ u.resp = s.resp ∧ u.wires = s.wires ∧ u.dmg = s.dmg ∧ u.wq = s.wq ∧ u.net = s.net ∧ u.dbInval = s.dbInval ∧ u.watch = s.watch ∧ u.pkg = s.pkg ∧ u.pmc = s.pmc ∧ u.fwLog = s.fwLog ∧ u.free = s.free ∧ u.fabric = s.fabric ∧ u.files = s.files := by
  unfold execIdleFlit at h
  (try dsimp only at h); (repeat' split at h) <;> (first | (simp only [Host.Outcome.next.injEq] at h; rw [← h]) | (simp only [reduceCtorEq] at h; done) | (simp only [Option.some.injEq] at h; rw [← h])) <;> simp [kept @State.fxBad_fr, kept @State.fxPump_fr, kept @State.setPort_fr]

theorem execNak_fr (p : Fin 4) (bytes : List Byte) (bad : Bool) (third : Bool) (s : State) {u : State} (h : execNak p bytes bad third s = .next u) : u.pending = s.pending ∧ u.flash = s.flash ∧ u.coldOpt = s.coldOpt ∧ u.mem = s.mem ∧ u.harts = s.harts ∧ u.mram = s.mram ∧ u.imsic = s.imsic ∧ u.eng = s.eng ∧ u.dm = s.dm ∧ u.ctu = s.ctu ∧ u.links = s.links ∧ u.aplicS = s.aplicS ∧ u.aplicN = s.aplicN ∧ u.credits = s.credits ∧ u.clusters = s.clusters ∧ u.homes = s.homes ∧ u.pkts = s.pkts ∧ u.resp = s.resp ∧ u.dmg = s.dmg ∧ u.wq = s.wq ∧ u.net = s.net ∧ u.dbInval = s.dbInval ∧ u.watch = s.watch ∧ u.pkg = s.pkg ∧ u.pmc = s.pmc ∧ u.fwLog = s.fwLog ∧ u.free = s.free ∧ u.fabric = s.fabric ∧ u.files = s.files := by
  unfold execNak at h
  (try dsimp only at h); (repeat' split at h) <;> (first | (simp only [Host.Outcome.next.injEq] at h; rw [← h]) | (simp only [reduceCtorEq] at h; done) | (simp only [Option.some.injEq] at h; rw [← h])) <;> simp [kept @State.fxBad_fr, kept @State.fxReplay_fr, kept @State.setPort_fr]

theorem execReplayTimeout_fr (p : Fin 4) (third : Bool) (s : State) {u : State} (h : execReplayTimeout p third s = .next u) : u.pending = s.pending ∧ u.flash = s.flash ∧ u.coldOpt = s.coldOpt ∧ u.mem = s.mem ∧ u.harts = s.harts ∧ u.mram = s.mram ∧ u.imsic = s.imsic ∧ u.eng = s.eng ∧ u.dm = s.dm ∧ u.ctu = s.ctu ∧ u.links = s.links ∧ u.aplicS = s.aplicS ∧ u.aplicN = s.aplicN ∧ u.credits = s.credits ∧ u.clusters = s.clusters ∧ u.homes = s.homes ∧ u.pkts = s.pkts ∧ u.resp = s.resp ∧ u.dmg = s.dmg ∧ u.wq = s.wq ∧ u.net = s.net ∧ u.dbInval = s.dbInval ∧ u.watch = s.watch ∧ u.pkg = s.pkg ∧ u.pmc = s.pmc ∧ u.fwLog = s.fwLog ∧ u.free = s.free ∧ u.fabric = s.fabric ∧ u.files = s.files := by
  unfold execReplayTimeout at h
  (first | (simp only [Host.Outcome.next.injEq] at h; rw [← h]) | (simp only [reduceCtorEq] at h; done) | (simp only [Option.some.injEq] at h; rw [← h])); simp [kept @State.fxReplay_fr]

@[simp] theorem State.fxAct_pending (s : State) (p : Nat) (type : Nat) (f : FxPkt → State → State) (hf : ∀ x0 x1, (f x0 x1).pending = x1.pending) : (State.fxAct s p type f).pending = s.pending := by
  unfold State.fxAct
  first
  | (simp [*, kept @State.fxReturn_fr, kept @State.setPort_fr]; done)
  | ((repeat' split) <;> simp [*, kept @State.fxReturn_fr, kept @State.setPort_fr]; done)
  | ((try dsimp only); (repeat' split) <;> simp (disch := (intros; (repeat' split) <;> simp [*, kept @State.fxReturn_fr, kept @State.setPort_fr])) [*, kept @State.fxReturn_fr, kept @State.setPort_fr]; done)
  | (refine State.taskDo_pending _ _ _ (fun _ => ?_); (repeat' split) <;> first | exact keepsM_pure _ _ | (simp [*, kept @State.fxReturn_fr, kept @State.setPort_fr]; done))

@[simp] theorem State.fxAct_files (s : State) (p : Nat) (type : Nat) (f : FxPkt → State → State) (hf : ∀ x0 x1, (f x0 x1).files = x1.files) : (State.fxAct s p type f).files = s.files := by
  unfold State.fxAct
  first
  | (simp [*, kept @State.fxReturn_fr, kept @State.setPort_fr]; done)
  | ((repeat' split) <;> simp [*, kept @State.fxReturn_fr, kept @State.setPort_fr]; done)
  | ((try dsimp only); (repeat' split) <;> simp (disch := (intros; (repeat' split) <;> simp [*, kept @State.fxReturn_fr, kept @State.setPort_fr])) [*, kept @State.fxReturn_fr, kept @State.setPort_fr]; done)
  | (refine State.taskDo_files _ _ _ (fun _ => ?_); (repeat' split) <;> first | exact keepsM_pure _ _ | (simp [*, kept @State.fxReturn_fr, kept @State.setPort_fr]; done))

@[simp] theorem State.fxAct_fabric (s : State) (p : Nat) (type : Nat) (f : FxPkt → State → State) (hf : ∀ x0 x1, (f x0 x1).fabric = x1.fabric) : (State.fxAct s p type f).fabric = s.fabric := by
  unfold State.fxAct
  first
  | (simp [*, kept @State.fxReturn_fr, kept @State.setPort_fr]; done)
  | ((repeat' split) <;> simp [*, kept @State.fxReturn_fr, kept @State.setPort_fr]; done)
  | ((try dsimp only); (repeat' split) <;> simp (disch := (intros; (repeat' split) <;> simp [*, kept @State.fxReturn_fr, kept @State.setPort_fr])) [*, kept @State.fxReturn_fr, kept @State.setPort_fr]; done)
  | (refine State.taskDo_fabric _ _ _ (fun _ => ?_); (repeat' split) <;> first | exact keepsM_pure _ _ | (simp [*, kept @State.fxReturn_fr, kept @State.setPort_fr]; done))

@[simp] theorem State.fxAct_flash (s : State) (p : Nat) (type : Nat) (f : FxPkt → State → State) (hf : ∀ x0 x1, (f x0 x1).flash = x1.flash) : (State.fxAct s p type f).flash = s.flash := by
  unfold State.fxAct
  first
  | (simp [*, kept @State.fxReturn_fr, kept @State.setPort_fr]; done)
  | ((repeat' split) <;> simp [*, kept @State.fxReturn_fr, kept @State.setPort_fr]; done)
  | ((try dsimp only); (repeat' split) <;> simp (disch := (intros; (repeat' split) <;> simp [*, kept @State.fxReturn_fr, kept @State.setPort_fr])) [*, kept @State.fxReturn_fr, kept @State.setPort_fr]; done)
  | (refine State.taskDo_flash _ _ _ (fun _ => ?_); (repeat' split) <;> first | exact keepsM_pure _ _ | (simp [*, kept @State.fxReturn_fr, kept @State.setPort_fr]; done))

@[simp] theorem State.fxAct_coldOpt (s : State) (p : Nat) (type : Nat) (f : FxPkt → State → State) (hf : ∀ x0 x1, (f x0 x1).coldOpt = x1.coldOpt) : (State.fxAct s p type f).coldOpt = s.coldOpt := by
  unfold State.fxAct
  first
  | (simp [*, kept @State.fxReturn_fr, kept @State.setPort_fr]; done)
  | ((repeat' split) <;> simp [*, kept @State.fxReturn_fr, kept @State.setPort_fr]; done)
  | ((try dsimp only); (repeat' split) <;> simp (disch := (intros; (repeat' split) <;> simp [*, kept @State.fxReturn_fr, kept @State.setPort_fr])) [*, kept @State.fxReturn_fr, kept @State.setPort_fr]; done)
  | (refine State.taskDo_coldOpt _ _ _ (fun _ => ?_); (repeat' split) <;> first | exact keepsM_pure _ _ | (simp [*, kept @State.fxReturn_fr, kept @State.setPort_fr]; done))

@[simp] theorem State.fxAct_mem (s : State) (p : Nat) (type : Nat) (f : FxPkt → State → State) (hf : ∀ x0 x1, (f x0 x1).mem = x1.mem) : (State.fxAct s p type f).mem = s.mem := by
  unfold State.fxAct
  first
  | (simp [*, kept @State.fxReturn_fr, kept @State.setPort_fr]; done)
  | ((repeat' split) <;> simp [*, kept @State.fxReturn_fr, kept @State.setPort_fr]; done)
  | ((try dsimp only); (repeat' split) <;> simp (disch := (intros; (repeat' split) <;> simp [*, kept @State.fxReturn_fr, kept @State.setPort_fr])) [*, kept @State.fxReturn_fr, kept @State.setPort_fr]; done)
  | (refine State.taskDo_mem _ _ _ (fun _ => ?_); (repeat' split) <;> first | exact keepsM_pure _ _ | (simp [*, kept @State.fxReturn_fr, kept @State.setPort_fr]; done))

@[simp] theorem State.fxAct_harts (s : State) (p : Nat) (type : Nat) (f : FxPkt → State → State) (hf : ∀ x0 x1, (f x0 x1).harts = x1.harts) : (State.fxAct s p type f).harts = s.harts := by
  unfold State.fxAct
  first
  | (simp [*, kept @State.fxReturn_fr, kept @State.setPort_fr]; done)
  | ((repeat' split) <;> simp [*, kept @State.fxReturn_fr, kept @State.setPort_fr]; done)
  | ((try dsimp only); (repeat' split) <;> simp (disch := (intros; (repeat' split) <;> simp [*, kept @State.fxReturn_fr, kept @State.setPort_fr])) [*, kept @State.fxReturn_fr, kept @State.setPort_fr]; done)
  | (refine State.taskDo_harts _ _ _ (fun _ => ?_); (repeat' split) <;> first | exact keepsM_pure _ _ | (simp [*, kept @State.fxReturn_fr, kept @State.setPort_fr]; done))

@[simp] theorem State.fxAct_mram (s : State) (p : Nat) (type : Nat) (f : FxPkt → State → State) (hf : ∀ x0 x1, (f x0 x1).mram = x1.mram) : (State.fxAct s p type f).mram = s.mram := by
  unfold State.fxAct
  first
  | (simp [*, kept @State.fxReturn_fr, kept @State.setPort_fr]; done)
  | ((repeat' split) <;> simp [*, kept @State.fxReturn_fr, kept @State.setPort_fr]; done)
  | ((try dsimp only); (repeat' split) <;> simp (disch := (intros; (repeat' split) <;> simp [*, kept @State.fxReturn_fr, kept @State.setPort_fr])) [*, kept @State.fxReturn_fr, kept @State.setPort_fr]; done)
  | (refine State.taskDo_mram _ _ _ (fun _ => ?_); (repeat' split) <;> first | exact keepsM_pure _ _ | (simp [*, kept @State.fxReturn_fr, kept @State.setPort_fr]; done))

@[simp] theorem State.fxAct_imsic (s : State) (p : Nat) (type : Nat) (f : FxPkt → State → State) (hf : ∀ x0 x1, (f x0 x1).imsic = x1.imsic) : (State.fxAct s p type f).imsic = s.imsic := by
  unfold State.fxAct
  first
  | (simp [*, kept @State.fxReturn_fr, kept @State.setPort_fr]; done)
  | ((repeat' split) <;> simp [*, kept @State.fxReturn_fr, kept @State.setPort_fr]; done)
  | ((try dsimp only); (repeat' split) <;> simp (disch := (intros; (repeat' split) <;> simp [*, kept @State.fxReturn_fr, kept @State.setPort_fr])) [*, kept @State.fxReturn_fr, kept @State.setPort_fr]; done)
  | (refine State.taskDo_imsic _ _ _ (fun _ => ?_); (repeat' split) <;> first | exact keepsM_pure _ _ | (simp [*, kept @State.fxReturn_fr, kept @State.setPort_fr]; done))

@[simp] theorem State.fxAct_eng (s : State) (p : Nat) (type : Nat) (f : FxPkt → State → State) (hf : ∀ x0 x1, (f x0 x1).eng = x1.eng) : (State.fxAct s p type f).eng = s.eng := by
  unfold State.fxAct
  first
  | (simp [*, kept @State.fxReturn_fr, kept @State.setPort_fr]; done)
  | ((repeat' split) <;> simp [*, kept @State.fxReturn_fr, kept @State.setPort_fr]; done)
  | ((try dsimp only); (repeat' split) <;> simp (disch := (intros; (repeat' split) <;> simp [*, kept @State.fxReturn_fr, kept @State.setPort_fr])) [*, kept @State.fxReturn_fr, kept @State.setPort_fr]; done)
  | (refine State.taskDo_eng _ _ _ (fun _ => ?_); (repeat' split) <;> first | exact keepsM_pure _ _ | (simp [*, kept @State.fxReturn_fr, kept @State.setPort_fr]; done))

@[simp] theorem State.fxAct_dm (s : State) (p : Nat) (type : Nat) (f : FxPkt → State → State) (hf : ∀ x0 x1, (f x0 x1).dm = x1.dm) : (State.fxAct s p type f).dm = s.dm := by
  unfold State.fxAct
  first
  | (simp [*, kept @State.fxReturn_fr, kept @State.setPort_fr]; done)
  | ((repeat' split) <;> simp [*, kept @State.fxReturn_fr, kept @State.setPort_fr]; done)
  | ((try dsimp only); (repeat' split) <;> simp (disch := (intros; (repeat' split) <;> simp [*, kept @State.fxReturn_fr, kept @State.setPort_fr])) [*, kept @State.fxReturn_fr, kept @State.setPort_fr]; done)
  | (refine State.taskDo_dm _ _ _ (fun _ => ?_); (repeat' split) <;> first | exact keepsM_pure _ _ | (simp [*, kept @State.fxReturn_fr, kept @State.setPort_fr]; done))

@[simp] theorem State.fxAct_ctu (s : State) (p : Nat) (type : Nat) (f : FxPkt → State → State) (hf : ∀ x0 x1, (f x0 x1).ctu = x1.ctu) : (State.fxAct s p type f).ctu = s.ctu := by
  unfold State.fxAct
  first
  | (simp [*, kept @State.fxReturn_fr, kept @State.setPort_fr]; done)
  | ((repeat' split) <;> simp [*, kept @State.fxReturn_fr, kept @State.setPort_fr]; done)
  | ((try dsimp only); (repeat' split) <;> simp (disch := (intros; (repeat' split) <;> simp [*, kept @State.fxReturn_fr, kept @State.setPort_fr])) [*, kept @State.fxReturn_fr, kept @State.setPort_fr]; done)
  | (refine State.taskDo_ctu _ _ _ (fun _ => ?_); (repeat' split) <;> first | exact keepsM_pure _ _ | (simp [*, kept @State.fxReturn_fr, kept @State.setPort_fr]; done))

@[simp] theorem State.fxAct_links (s : State) (p : Nat) (type : Nat) (f : FxPkt → State → State) (hf : ∀ x0 x1, (f x0 x1).links = x1.links) : (State.fxAct s p type f).links = s.links := by
  unfold State.fxAct
  first
  | (simp [*, kept @State.fxReturn_fr, kept @State.setPort_fr]; done)
  | ((repeat' split) <;> simp [*, kept @State.fxReturn_fr, kept @State.setPort_fr]; done)
  | ((try dsimp only); (repeat' split) <;> simp (disch := (intros; (repeat' split) <;> simp [*, kept @State.fxReturn_fr, kept @State.setPort_fr])) [*, kept @State.fxReturn_fr, kept @State.setPort_fr]; done)
  | (refine State.taskDo_links _ _ _ (fun _ => ?_); (repeat' split) <;> first | exact keepsM_pure _ _ | (simp [*, kept @State.fxReturn_fr, kept @State.setPort_fr]; done))

@[simp] theorem State.fxAct_aplicS (s : State) (p : Nat) (type : Nat) (f : FxPkt → State → State) (hf : ∀ x0 x1, (f x0 x1).aplicS = x1.aplicS) : (State.fxAct s p type f).aplicS = s.aplicS := by
  unfold State.fxAct
  first
  | (simp [*, kept @State.fxReturn_fr, kept @State.setPort_fr]; done)
  | ((repeat' split) <;> simp [*, kept @State.fxReturn_fr, kept @State.setPort_fr]; done)
  | ((try dsimp only); (repeat' split) <;> simp (disch := (intros; (repeat' split) <;> simp [*, kept @State.fxReturn_fr, kept @State.setPort_fr])) [*, kept @State.fxReturn_fr, kept @State.setPort_fr]; done)
  | (refine State.taskDo_aplicS _ _ _ (fun _ => ?_); (repeat' split) <;> first | exact keepsM_pure _ _ | (simp [*, kept @State.fxReturn_fr, kept @State.setPort_fr]; done))

@[simp] theorem State.fxAct_aplicN (s : State) (p : Nat) (type : Nat) (f : FxPkt → State → State) (hf : ∀ x0 x1, (f x0 x1).aplicN = x1.aplicN) : (State.fxAct s p type f).aplicN = s.aplicN := by
  unfold State.fxAct
  first
  | (simp [*, kept @State.fxReturn_fr, kept @State.setPort_fr]; done)
  | ((repeat' split) <;> simp [*, kept @State.fxReturn_fr, kept @State.setPort_fr]; done)
  | ((try dsimp only); (repeat' split) <;> simp (disch := (intros; (repeat' split) <;> simp [*, kept @State.fxReturn_fr, kept @State.setPort_fr])) [*, kept @State.fxReturn_fr, kept @State.setPort_fr]; done)
  | (refine State.taskDo_aplicN _ _ _ (fun _ => ?_); (repeat' split) <;> first | exact keepsM_pure _ _ | (simp [*, kept @State.fxReturn_fr, kept @State.setPort_fr]; done))

@[simp] theorem State.fxAct_credits (s : State) (p : Nat) (type : Nat) (f : FxPkt → State → State) (hf : ∀ x0 x1, (f x0 x1).credits = x1.credits) : (State.fxAct s p type f).credits = s.credits := by
  unfold State.fxAct
  first
  | (simp [*, kept @State.fxReturn_fr, kept @State.setPort_fr]; done)
  | ((repeat' split) <;> simp [*, kept @State.fxReturn_fr, kept @State.setPort_fr]; done)
  | ((try dsimp only); (repeat' split) <;> simp (disch := (intros; (repeat' split) <;> simp [*, kept @State.fxReturn_fr, kept @State.setPort_fr])) [*, kept @State.fxReturn_fr, kept @State.setPort_fr]; done)
  | (refine State.taskDo_credits _ _ _ (fun _ => ?_); (repeat' split) <;> first | exact keepsM_pure _ _ | (simp [*, kept @State.fxReturn_fr, kept @State.setPort_fr]; done))

@[simp] theorem State.fxAct_clusters (s : State) (p : Nat) (type : Nat) (f : FxPkt → State → State) (hf : ∀ x0 x1, (f x0 x1).clusters = x1.clusters) : (State.fxAct s p type f).clusters = s.clusters := by
  unfold State.fxAct
  first
  | (simp [*, kept @State.fxReturn_fr, kept @State.setPort_fr]; done)
  | ((repeat' split) <;> simp [*, kept @State.fxReturn_fr, kept @State.setPort_fr]; done)
  | ((try dsimp only); (repeat' split) <;> simp (disch := (intros; (repeat' split) <;> simp [*, kept @State.fxReturn_fr, kept @State.setPort_fr])) [*, kept @State.fxReturn_fr, kept @State.setPort_fr]; done)
  | (refine State.taskDo_clusters _ _ _ (fun _ => ?_); (repeat' split) <;> first | exact keepsM_pure _ _ | (simp [*, kept @State.fxReturn_fr, kept @State.setPort_fr]; done))

@[simp] theorem State.fxAct_homes (s : State) (p : Nat) (type : Nat) (f : FxPkt → State → State) (hf : ∀ x0 x1, (f x0 x1).homes = x1.homes) : (State.fxAct s p type f).homes = s.homes := by
  unfold State.fxAct
  first
  | (simp [*, kept @State.fxReturn_fr, kept @State.setPort_fr]; done)
  | ((repeat' split) <;> simp [*, kept @State.fxReturn_fr, kept @State.setPort_fr]; done)
  | ((try dsimp only); (repeat' split) <;> simp (disch := (intros; (repeat' split) <;> simp [*, kept @State.fxReturn_fr, kept @State.setPort_fr])) [*, kept @State.fxReturn_fr, kept @State.setPort_fr]; done)
  | (refine State.taskDo_homes _ _ _ (fun _ => ?_); (repeat' split) <;> first | exact keepsM_pure _ _ | (simp [*, kept @State.fxReturn_fr, kept @State.setPort_fr]; done))

@[simp] theorem State.fxAct_pkts (s : State) (p : Nat) (type : Nat) (f : FxPkt → State → State) (hf : ∀ x0 x1, (f x0 x1).pkts = x1.pkts) : (State.fxAct s p type f).pkts = s.pkts := by
  unfold State.fxAct
  first
  | (simp [*, kept @State.fxReturn_fr, kept @State.setPort_fr]; done)
  | ((repeat' split) <;> simp [*, kept @State.fxReturn_fr, kept @State.setPort_fr]; done)
  | ((try dsimp only); (repeat' split) <;> simp (disch := (intros; (repeat' split) <;> simp [*, kept @State.fxReturn_fr, kept @State.setPort_fr])) [*, kept @State.fxReturn_fr, kept @State.setPort_fr]; done)
  | (refine State.taskDo_pkts _ _ _ (fun _ => ?_); (repeat' split) <;> first | exact keepsM_pure _ _ | (simp [*, kept @State.fxReturn_fr, kept @State.setPort_fr]; done))

@[simp] theorem State.fxAct_resp (s : State) (p : Nat) (type : Nat) (f : FxPkt → State → State) (hf : ∀ x0 x1, (f x0 x1).resp = x1.resp) : (State.fxAct s p type f).resp = s.resp := by
  unfold State.fxAct
  first
  | (simp [*, kept @State.fxReturn_fr, kept @State.setPort_fr]; done)
  | ((repeat' split) <;> simp [*, kept @State.fxReturn_fr, kept @State.setPort_fr]; done)
  | ((try dsimp only); (repeat' split) <;> simp (disch := (intros; (repeat' split) <;> simp [*, kept @State.fxReturn_fr, kept @State.setPort_fr])) [*, kept @State.fxReturn_fr, kept @State.setPort_fr]; done)
  | (refine State.taskDo_resp _ _ _ (fun _ => ?_); (repeat' split) <;> first | exact keepsM_pure _ _ | (simp [*, kept @State.fxReturn_fr, kept @State.setPort_fr]; done))

@[simp] theorem State.fxAct_regs (s : State) (p : Nat) (type : Nat) (f : FxPkt → State → State) (hf : ∀ x0 x1, (f x0 x1).regs = x1.regs) : (State.fxAct s p type f).regs = s.regs := by
  unfold State.fxAct
  first
  | (simp [*, kept @State.fxReturn_fr, kept @State.setPort_fr]; done)
  | ((repeat' split) <;> simp [*, kept @State.fxReturn_fr, kept @State.setPort_fr]; done)
  | ((try dsimp only); (repeat' split) <;> simp (disch := (intros; (repeat' split) <;> simp [*, kept @State.fxReturn_fr, kept @State.setPort_fr])) [*, kept @State.fxReturn_fr, kept @State.setPort_fr]; done)
  | (refine State.taskDo_regs _ _ _ (fun _ => ?_); (repeat' split) <;> first | exact keepsM_pure _ _ | (simp [*, kept @State.fxReturn_fr, kept @State.setPort_fr]; done))

@[simp] theorem State.fxAct_wires (s : State) (p : Nat) (type : Nat) (f : FxPkt → State → State) (hf : ∀ x0 x1, (f x0 x1).wires = x1.wires) : (State.fxAct s p type f).wires = s.wires := by
  unfold State.fxAct
  first
  | (simp [*, kept @State.fxReturn_fr, kept @State.setPort_fr]; done)
  | ((repeat' split) <;> simp [*, kept @State.fxReturn_fr, kept @State.setPort_fr]; done)
  | ((try dsimp only); (repeat' split) <;> simp (disch := (intros; (repeat' split) <;> simp [*, kept @State.fxReturn_fr, kept @State.setPort_fr])) [*, kept @State.fxReturn_fr, kept @State.setPort_fr]; done)
  | (refine State.taskDo_wires _ _ _ (fun _ => ?_); (repeat' split) <;> first | exact keepsM_pure _ _ | (simp [*, kept @State.fxReturn_fr, kept @State.setPort_fr]; done))

@[simp] theorem State.fxAct_dmg (s : State) (p : Nat) (type : Nat) (f : FxPkt → State → State) (hf : ∀ x0 x1, (f x0 x1).dmg = x1.dmg) : (State.fxAct s p type f).dmg = s.dmg := by
  unfold State.fxAct
  first
  | (simp [*, kept @State.fxReturn_fr, kept @State.setPort_fr]; done)
  | ((repeat' split) <;> simp [*, kept @State.fxReturn_fr, kept @State.setPort_fr]; done)
  | ((try dsimp only); (repeat' split) <;> simp (disch := (intros; (repeat' split) <;> simp [*, kept @State.fxReturn_fr, kept @State.setPort_fr])) [*, kept @State.fxReturn_fr, kept @State.setPort_fr]; done)
  | (refine State.taskDo_dmg _ _ _ (fun _ => ?_); (repeat' split) <;> first | exact keepsM_pure _ _ | (simp [*, kept @State.fxReturn_fr, kept @State.setPort_fr]; done))

@[simp] theorem State.fxAct_wq (s : State) (p : Nat) (type : Nat) (f : FxPkt → State → State) (hf : ∀ x0 x1, (f x0 x1).wq = x1.wq) : (State.fxAct s p type f).wq = s.wq := by
  unfold State.fxAct
  first
  | (simp [*, kept @State.fxReturn_fr, kept @State.setPort_fr]; done)
  | ((repeat' split) <;> simp [*, kept @State.fxReturn_fr, kept @State.setPort_fr]; done)
  | ((try dsimp only); (repeat' split) <;> simp (disch := (intros; (repeat' split) <;> simp [*, kept @State.fxReturn_fr, kept @State.setPort_fr])) [*, kept @State.fxReturn_fr, kept @State.setPort_fr]; done)
  | (refine State.taskDo_wq _ _ _ (fun _ => ?_); (repeat' split) <;> first | exact keepsM_pure _ _ | (simp [*, kept @State.fxReturn_fr, kept @State.setPort_fr]; done))

@[simp] theorem State.fxAct_net (s : State) (p : Nat) (type : Nat) (f : FxPkt → State → State) (hf : ∀ x0 x1, (f x0 x1).net = x1.net) : (State.fxAct s p type f).net = s.net := by
  unfold State.fxAct
  first
  | (simp [*, kept @State.fxReturn_fr, kept @State.setPort_fr]; done)
  | ((repeat' split) <;> simp [*, kept @State.fxReturn_fr, kept @State.setPort_fr]; done)
  | ((try dsimp only); (repeat' split) <;> simp (disch := (intros; (repeat' split) <;> simp [*, kept @State.fxReturn_fr, kept @State.setPort_fr])) [*, kept @State.fxReturn_fr, kept @State.setPort_fr]; done)
  | (refine State.taskDo_net _ _ _ (fun _ => ?_); (repeat' split) <;> first | exact keepsM_pure _ _ | (simp [*, kept @State.fxReturn_fr, kept @State.setPort_fr]; done))

@[simp] theorem State.fxAct_dbInval (s : State) (p : Nat) (type : Nat) (f : FxPkt → State → State) (hf : ∀ x0 x1, (f x0 x1).dbInval = x1.dbInval) : (State.fxAct s p type f).dbInval = s.dbInval := by
  unfold State.fxAct
  first
  | (simp [*, kept @State.fxReturn_fr, kept @State.setPort_fr]; done)
  | ((repeat' split) <;> simp [*, kept @State.fxReturn_fr, kept @State.setPort_fr]; done)
  | ((try dsimp only); (repeat' split) <;> simp (disch := (intros; (repeat' split) <;> simp [*, kept @State.fxReturn_fr, kept @State.setPort_fr])) [*, kept @State.fxReturn_fr, kept @State.setPort_fr]; done)
  | (refine State.taskDo_dbInval _ _ _ (fun _ => ?_); (repeat' split) <;> first | exact keepsM_pure _ _ | (simp [*, kept @State.fxReturn_fr, kept @State.setPort_fr]; done))

@[simp] theorem State.fxAct_watch (s : State) (p : Nat) (type : Nat) (f : FxPkt → State → State) (hf : ∀ x0 x1, (f x0 x1).watch = x1.watch) : (State.fxAct s p type f).watch = s.watch := by
  unfold State.fxAct
  first
  | (simp [*, kept @State.fxReturn_fr, kept @State.setPort_fr]; done)
  | ((repeat' split) <;> simp [*, kept @State.fxReturn_fr, kept @State.setPort_fr]; done)
  | ((try dsimp only); (repeat' split) <;> simp (disch := (intros; (repeat' split) <;> simp [*, kept @State.fxReturn_fr, kept @State.setPort_fr])) [*, kept @State.fxReturn_fr, kept @State.setPort_fr]; done)
  | (refine State.taskDo_watch _ _ _ (fun _ => ?_); (repeat' split) <;> first | exact keepsM_pure _ _ | (simp [*, kept @State.fxReturn_fr, kept @State.setPort_fr]; done))

@[simp] theorem State.fxAct_pkg (s : State) (p : Nat) (type : Nat) (f : FxPkt → State → State) (hf : ∀ x0 x1, (f x0 x1).pkg = x1.pkg) : (State.fxAct s p type f).pkg = s.pkg := by
  unfold State.fxAct
  first
  | (simp [*, kept @State.fxReturn_fr, kept @State.setPort_fr]; done)
  | ((repeat' split) <;> simp [*, kept @State.fxReturn_fr, kept @State.setPort_fr]; done)
  | ((try dsimp only); (repeat' split) <;> simp (disch := (intros; (repeat' split) <;> simp [*, kept @State.fxReturn_fr, kept @State.setPort_fr])) [*, kept @State.fxReturn_fr, kept @State.setPort_fr]; done)
  | (refine State.taskDo_pkg _ _ _ (fun _ => ?_); (repeat' split) <;> first | exact keepsM_pure _ _ | (simp [*, kept @State.fxReturn_fr, kept @State.setPort_fr]; done))

@[simp] theorem State.fxAct_pmc (s : State) (p : Nat) (type : Nat) (f : FxPkt → State → State) (hf : ∀ x0 x1, (f x0 x1).pmc = x1.pmc) : (State.fxAct s p type f).pmc = s.pmc := by
  unfold State.fxAct
  first
  | (simp [*, kept @State.fxReturn_fr, kept @State.setPort_fr]; done)
  | ((repeat' split) <;> simp [*, kept @State.fxReturn_fr, kept @State.setPort_fr]; done)
  | ((try dsimp only); (repeat' split) <;> simp (disch := (intros; (repeat' split) <;> simp [*, kept @State.fxReturn_fr, kept @State.setPort_fr])) [*, kept @State.fxReturn_fr, kept @State.setPort_fr]; done)
  | (refine State.taskDo_pmc _ _ _ (fun _ => ?_); (repeat' split) <;> first | exact keepsM_pure _ _ | (simp [*, kept @State.fxReturn_fr, kept @State.setPort_fr]; done))

@[simp] theorem State.fxAct_fwLog (s : State) (p : Nat) (type : Nat) (f : FxPkt → State → State) (hf : ∀ x0 x1, (f x0 x1).fwLog = x1.fwLog) : (State.fxAct s p type f).fwLog = s.fwLog := by
  unfold State.fxAct
  first
  | (simp [*, kept @State.fxReturn_fr, kept @State.setPort_fr]; done)
  | ((repeat' split) <;> simp [*, kept @State.fxReturn_fr, kept @State.setPort_fr]; done)
  | ((try dsimp only); (repeat' split) <;> simp (disch := (intros; (repeat' split) <;> simp [*, kept @State.fxReturn_fr, kept @State.setPort_fr])) [*, kept @State.fxReturn_fr, kept @State.setPort_fr]; done)
  | (refine State.taskDo_fwLog _ _ _ (fun _ => ?_); (repeat' split) <;> first | exact keepsM_pure _ _ | (simp [*, kept @State.fxReturn_fr, kept @State.setPort_fr]; done))

@[simp] theorem State.fxAct_out (s : State) (p : Nat) (type : Nat) (f : FxPkt → State → State) (hf : ∀ x0 x1, (f x0 x1).out = x1.out) : (State.fxAct s p type f).out = s.out := by
  unfold State.fxAct
  first
  | (simp [*, kept @State.fxReturn_fr, kept @State.setPort_fr]; done)
  | ((repeat' split) <;> simp [*, kept @State.fxReturn_fr, kept @State.setPort_fr]; done)
  | ((try dsimp only); (repeat' split) <;> simp (disch := (intros; (repeat' split) <;> simp [*, kept @State.fxReturn_fr, kept @State.setPort_fr])) [*, kept @State.fxReturn_fr, kept @State.setPort_fr]; done)
  | (refine State.taskDo_out _ _ _ (fun _ => ?_); (repeat' split) <;> first | exact keepsM_pure _ _ | (simp [*, kept @State.fxReturn_fr, kept @State.setPort_fr]; done))

@[simp] theorem State.fxAct_free (s : State) (p : Nat) (type : Nat) (f : FxPkt → State → State) (hf : ∀ x0 x1, (f x0 x1).free = x1.free) : (State.fxAct s p type f).free = s.free := by
  unfold State.fxAct
  first
  | (simp [*, kept @State.fxReturn_fr, kept @State.setPort_fr]; done)
  | ((repeat' split) <;> simp [*, kept @State.fxReturn_fr, kept @State.setPort_fr]; done)
  | ((try dsimp only); (repeat' split) <;> simp (disch := (intros; (repeat' split) <;> simp [*, kept @State.fxReturn_fr, kept @State.setPort_fr])) [*, kept @State.fxReturn_fr, kept @State.setPort_fr]; done)
  | (refine State.taskDo_free _ _ _ (fun _ => ?_); (repeat' split) <;> first | exact keepsM_pure _ _ | (simp [*, kept @State.fxReturn_fr, kept @State.setPort_fr]; done))

@[simp] theorem State.fxRing_pending (s : State) (p : Nat) (type : Nat) (f : FxPkt → State → State) (hf : ∀ x0 x1, (f x0 x1).pending = x1.pending) : (State.fxRing s p type f).pending = s.pending := by
  unfold State.fxRing
  first
  | (simp [*, kept @State.fxNotice_fr]; done)
  | ((repeat' split) <;> simp [*, kept @State.fxNotice_fr]; done)
  | ((try dsimp only); (repeat' split) <;> simp (disch := (intros; (repeat' split) <;> simp [*, kept @State.fxNotice_fr])) [*, kept @State.fxNotice_fr]; done)
  | (refine State.taskDo_pending _ _ _ (fun _ => ?_); (repeat' split) <;> first | exact keepsM_pure _ _ | (simp [*, kept @State.fxNotice_fr]; done))

@[simp] theorem State.fxRing_files (s : State) (p : Nat) (type : Nat) (f : FxPkt → State → State) (hf : ∀ x0 x1, (f x0 x1).files = x1.files) : (State.fxRing s p type f).files = s.files := by
  unfold State.fxRing
  first
  | (simp [*, kept @State.fxNotice_fr]; done)
  | ((repeat' split) <;> simp [*, kept @State.fxNotice_fr]; done)
  | ((try dsimp only); (repeat' split) <;> simp (disch := (intros; (repeat' split) <;> simp [*, kept @State.fxNotice_fr])) [*, kept @State.fxNotice_fr]; done)
  | (refine State.taskDo_files _ _ _ (fun _ => ?_); (repeat' split) <;> first | exact keepsM_pure _ _ | (simp [*, kept @State.fxNotice_fr]; done))

@[simp] theorem State.fxRing_fabric (s : State) (p : Nat) (type : Nat) (f : FxPkt → State → State) (hf : ∀ x0 x1, (f x0 x1).fabric = x1.fabric) : (State.fxRing s p type f).fabric = s.fabric := by
  unfold State.fxRing
  first
  | (simp [*, kept @State.fxNotice_fr]; done)
  | ((repeat' split) <;> simp [*, kept @State.fxNotice_fr]; done)
  | ((try dsimp only); (repeat' split) <;> simp (disch := (intros; (repeat' split) <;> simp [*, kept @State.fxNotice_fr])) [*, kept @State.fxNotice_fr]; done)
  | (refine State.taskDo_fabric _ _ _ (fun _ => ?_); (repeat' split) <;> first | exact keepsM_pure _ _ | (simp [*, kept @State.fxNotice_fr]; done))

@[simp] theorem State.fxRing_flash (s : State) (p : Nat) (type : Nat) (f : FxPkt → State → State) (hf : ∀ x0 x1, (f x0 x1).flash = x1.flash) : (State.fxRing s p type f).flash = s.flash := by
  unfold State.fxRing
  first
  | (simp [*, kept @State.fxNotice_fr]; done)
  | ((repeat' split) <;> simp [*, kept @State.fxNotice_fr]; done)
  | ((try dsimp only); (repeat' split) <;> simp (disch := (intros; (repeat' split) <;> simp [*, kept @State.fxNotice_fr])) [*, kept @State.fxNotice_fr]; done)
  | (refine State.taskDo_flash _ _ _ (fun _ => ?_); (repeat' split) <;> first | exact keepsM_pure _ _ | (simp [*, kept @State.fxNotice_fr]; done))

@[simp] theorem State.fxRing_coldOpt (s : State) (p : Nat) (type : Nat) (f : FxPkt → State → State) (hf : ∀ x0 x1, (f x0 x1).coldOpt = x1.coldOpt) : (State.fxRing s p type f).coldOpt = s.coldOpt := by
  unfold State.fxRing
  first
  | (simp [*, kept @State.fxNotice_fr]; done)
  | ((repeat' split) <;> simp [*, kept @State.fxNotice_fr]; done)
  | ((try dsimp only); (repeat' split) <;> simp (disch := (intros; (repeat' split) <;> simp [*, kept @State.fxNotice_fr])) [*, kept @State.fxNotice_fr]; done)
  | (refine State.taskDo_coldOpt _ _ _ (fun _ => ?_); (repeat' split) <;> first | exact keepsM_pure _ _ | (simp [*, kept @State.fxNotice_fr]; done))

@[simp] theorem State.fxRing_mem (s : State) (p : Nat) (type : Nat) (f : FxPkt → State → State) (hf : ∀ x0 x1, (f x0 x1).mem = x1.mem) : (State.fxRing s p type f).mem = s.mem := by
  unfold State.fxRing
  first
  | (simp [*, kept @State.fxNotice_fr]; done)
  | ((repeat' split) <;> simp [*, kept @State.fxNotice_fr]; done)
  | ((try dsimp only); (repeat' split) <;> simp (disch := (intros; (repeat' split) <;> simp [*, kept @State.fxNotice_fr])) [*, kept @State.fxNotice_fr]; done)
  | (refine State.taskDo_mem _ _ _ (fun _ => ?_); (repeat' split) <;> first | exact keepsM_pure _ _ | (simp [*, kept @State.fxNotice_fr]; done))

@[simp] theorem State.fxRing_harts (s : State) (p : Nat) (type : Nat) (f : FxPkt → State → State) (hf : ∀ x0 x1, (f x0 x1).harts = x1.harts) : (State.fxRing s p type f).harts = s.harts := by
  unfold State.fxRing
  first
  | (simp [*, kept @State.fxNotice_fr]; done)
  | ((repeat' split) <;> simp [*, kept @State.fxNotice_fr]; done)
  | ((try dsimp only); (repeat' split) <;> simp (disch := (intros; (repeat' split) <;> simp [*, kept @State.fxNotice_fr])) [*, kept @State.fxNotice_fr]; done)
  | (refine State.taskDo_harts _ _ _ (fun _ => ?_); (repeat' split) <;> first | exact keepsM_pure _ _ | (simp [*, kept @State.fxNotice_fr]; done))

@[simp] theorem State.fxRing_mram (s : State) (p : Nat) (type : Nat) (f : FxPkt → State → State) (hf : ∀ x0 x1, (f x0 x1).mram = x1.mram) : (State.fxRing s p type f).mram = s.mram := by
  unfold State.fxRing
  first
  | (simp [*, kept @State.fxNotice_fr]; done)
  | ((repeat' split) <;> simp [*, kept @State.fxNotice_fr]; done)
  | ((try dsimp only); (repeat' split) <;> simp (disch := (intros; (repeat' split) <;> simp [*, kept @State.fxNotice_fr])) [*, kept @State.fxNotice_fr]; done)
  | (refine State.taskDo_mram _ _ _ (fun _ => ?_); (repeat' split) <;> first | exact keepsM_pure _ _ | (simp [*, kept @State.fxNotice_fr]; done))

@[simp] theorem State.fxRing_imsic (s : State) (p : Nat) (type : Nat) (f : FxPkt → State → State) (hf : ∀ x0 x1, (f x0 x1).imsic = x1.imsic) : (State.fxRing s p type f).imsic = s.imsic := by
  unfold State.fxRing
  first
  | (simp [*, kept @State.fxNotice_fr]; done)
  | ((repeat' split) <;> simp [*, kept @State.fxNotice_fr]; done)
  | ((try dsimp only); (repeat' split) <;> simp (disch := (intros; (repeat' split) <;> simp [*, kept @State.fxNotice_fr])) [*, kept @State.fxNotice_fr]; done)
  | (refine State.taskDo_imsic _ _ _ (fun _ => ?_); (repeat' split) <;> first | exact keepsM_pure _ _ | (simp [*, kept @State.fxNotice_fr]; done))

@[simp] theorem State.fxRing_eng (s : State) (p : Nat) (type : Nat) (f : FxPkt → State → State) (hf : ∀ x0 x1, (f x0 x1).eng = x1.eng) : (State.fxRing s p type f).eng = s.eng := by
  unfold State.fxRing
  first
  | (simp [*, kept @State.fxNotice_fr]; done)
  | ((repeat' split) <;> simp [*, kept @State.fxNotice_fr]; done)
  | ((try dsimp only); (repeat' split) <;> simp (disch := (intros; (repeat' split) <;> simp [*, kept @State.fxNotice_fr])) [*, kept @State.fxNotice_fr]; done)
  | (refine State.taskDo_eng _ _ _ (fun _ => ?_); (repeat' split) <;> first | exact keepsM_pure _ _ | (simp [*, kept @State.fxNotice_fr]; done))

@[simp] theorem State.fxRing_dm (s : State) (p : Nat) (type : Nat) (f : FxPkt → State → State) (hf : ∀ x0 x1, (f x0 x1).dm = x1.dm) : (State.fxRing s p type f).dm = s.dm := by
  unfold State.fxRing
  first
  | (simp [*, kept @State.fxNotice_fr]; done)
  | ((repeat' split) <;> simp [*, kept @State.fxNotice_fr]; done)
  | ((try dsimp only); (repeat' split) <;> simp (disch := (intros; (repeat' split) <;> simp [*, kept @State.fxNotice_fr])) [*, kept @State.fxNotice_fr]; done)
  | (refine State.taskDo_dm _ _ _ (fun _ => ?_); (repeat' split) <;> first | exact keepsM_pure _ _ | (simp [*, kept @State.fxNotice_fr]; done))

@[simp] theorem State.fxRing_ctu (s : State) (p : Nat) (type : Nat) (f : FxPkt → State → State) (hf : ∀ x0 x1, (f x0 x1).ctu = x1.ctu) : (State.fxRing s p type f).ctu = s.ctu := by
  unfold State.fxRing
  first
  | (simp [*, kept @State.fxNotice_fr]; done)
  | ((repeat' split) <;> simp [*, kept @State.fxNotice_fr]; done)
  | ((try dsimp only); (repeat' split) <;> simp (disch := (intros; (repeat' split) <;> simp [*, kept @State.fxNotice_fr])) [*, kept @State.fxNotice_fr]; done)
  | (refine State.taskDo_ctu _ _ _ (fun _ => ?_); (repeat' split) <;> first | exact keepsM_pure _ _ | (simp [*, kept @State.fxNotice_fr]; done))

@[simp] theorem State.fxRing_links (s : State) (p : Nat) (type : Nat) (f : FxPkt → State → State) (hf : ∀ x0 x1, (f x0 x1).links = x1.links) : (State.fxRing s p type f).links = s.links := by
  unfold State.fxRing
  first
  | (simp [*, kept @State.fxNotice_fr]; done)
  | ((repeat' split) <;> simp [*, kept @State.fxNotice_fr]; done)
  | ((try dsimp only); (repeat' split) <;> simp (disch := (intros; (repeat' split) <;> simp [*, kept @State.fxNotice_fr])) [*, kept @State.fxNotice_fr]; done)
  | (refine State.taskDo_links _ _ _ (fun _ => ?_); (repeat' split) <;> first | exact keepsM_pure _ _ | (simp [*, kept @State.fxNotice_fr]; done))

@[simp] theorem State.fxRing_aplicS (s : State) (p : Nat) (type : Nat) (f : FxPkt → State → State) (hf : ∀ x0 x1, (f x0 x1).aplicS = x1.aplicS) : (State.fxRing s p type f).aplicS = s.aplicS := by
  unfold State.fxRing
  first
  | (simp [*, kept @State.fxNotice_fr]; done)
  | ((repeat' split) <;> simp [*, kept @State.fxNotice_fr]; done)
  | ((try dsimp only); (repeat' split) <;> simp (disch := (intros; (repeat' split) <;> simp [*, kept @State.fxNotice_fr])) [*, kept @State.fxNotice_fr]; done)
  | (refine State.taskDo_aplicS _ _ _ (fun _ => ?_); (repeat' split) <;> first | exact keepsM_pure _ _ | (simp [*, kept @State.fxNotice_fr]; done))

@[simp] theorem State.fxRing_aplicN (s : State) (p : Nat) (type : Nat) (f : FxPkt → State → State) (hf : ∀ x0 x1, (f x0 x1).aplicN = x1.aplicN) : (State.fxRing s p type f).aplicN = s.aplicN := by
  unfold State.fxRing
  first
  | (simp [*, kept @State.fxNotice_fr]; done)
  | ((repeat' split) <;> simp [*, kept @State.fxNotice_fr]; done)
  | ((try dsimp only); (repeat' split) <;> simp (disch := (intros; (repeat' split) <;> simp [*, kept @State.fxNotice_fr])) [*, kept @State.fxNotice_fr]; done)
  | (refine State.taskDo_aplicN _ _ _ (fun _ => ?_); (repeat' split) <;> first | exact keepsM_pure _ _ | (simp [*, kept @State.fxNotice_fr]; done))

@[simp] theorem State.fxRing_credits (s : State) (p : Nat) (type : Nat) (f : FxPkt → State → State) (hf : ∀ x0 x1, (f x0 x1).credits = x1.credits) : (State.fxRing s p type f).credits = s.credits := by
  unfold State.fxRing
  first
  | (simp [*, kept @State.fxNotice_fr]; done)
  | ((repeat' split) <;> simp [*, kept @State.fxNotice_fr]; done)
  | ((try dsimp only); (repeat' split) <;> simp (disch := (intros; (repeat' split) <;> simp [*, kept @State.fxNotice_fr])) [*, kept @State.fxNotice_fr]; done)
  | (refine State.taskDo_credits _ _ _ (fun _ => ?_); (repeat' split) <;> first | exact keepsM_pure _ _ | (simp [*, kept @State.fxNotice_fr]; done))

@[simp] theorem State.fxRing_clusters (s : State) (p : Nat) (type : Nat) (f : FxPkt → State → State) (hf : ∀ x0 x1, (f x0 x1).clusters = x1.clusters) : (State.fxRing s p type f).clusters = s.clusters := by
  unfold State.fxRing
  first
  | (simp [*, kept @State.fxNotice_fr]; done)
  | ((repeat' split) <;> simp [*, kept @State.fxNotice_fr]; done)
  | ((try dsimp only); (repeat' split) <;> simp (disch := (intros; (repeat' split) <;> simp [*, kept @State.fxNotice_fr])) [*, kept @State.fxNotice_fr]; done)
  | (refine State.taskDo_clusters _ _ _ (fun _ => ?_); (repeat' split) <;> first | exact keepsM_pure _ _ | (simp [*, kept @State.fxNotice_fr]; done))

@[simp] theorem State.fxRing_homes (s : State) (p : Nat) (type : Nat) (f : FxPkt → State → State) (hf : ∀ x0 x1, (f x0 x1).homes = x1.homes) : (State.fxRing s p type f).homes = s.homes := by
  unfold State.fxRing
  first
  | (simp [*, kept @State.fxNotice_fr]; done)
  | ((repeat' split) <;> simp [*, kept @State.fxNotice_fr]; done)
  | ((try dsimp only); (repeat' split) <;> simp (disch := (intros; (repeat' split) <;> simp [*, kept @State.fxNotice_fr])) [*, kept @State.fxNotice_fr]; done)
  | (refine State.taskDo_homes _ _ _ (fun _ => ?_); (repeat' split) <;> first | exact keepsM_pure _ _ | (simp [*, kept @State.fxNotice_fr]; done))

@[simp] theorem State.fxRing_pkts (s : State) (p : Nat) (type : Nat) (f : FxPkt → State → State) (hf : ∀ x0 x1, (f x0 x1).pkts = x1.pkts) : (State.fxRing s p type f).pkts = s.pkts := by
  unfold State.fxRing
  first
  | (simp [*, kept @State.fxNotice_fr]; done)
  | ((repeat' split) <;> simp [*, kept @State.fxNotice_fr]; done)
  | ((try dsimp only); (repeat' split) <;> simp (disch := (intros; (repeat' split) <;> simp [*, kept @State.fxNotice_fr])) [*, kept @State.fxNotice_fr]; done)
  | (refine State.taskDo_pkts _ _ _ (fun _ => ?_); (repeat' split) <;> first | exact keepsM_pure _ _ | (simp [*, kept @State.fxNotice_fr]; done))

@[simp] theorem State.fxRing_resp (s : State) (p : Nat) (type : Nat) (f : FxPkt → State → State) (hf : ∀ x0 x1, (f x0 x1).resp = x1.resp) : (State.fxRing s p type f).resp = s.resp := by
  unfold State.fxRing
  first
  | (simp [*, kept @State.fxNotice_fr]; done)
  | ((repeat' split) <;> simp [*, kept @State.fxNotice_fr]; done)
  | ((try dsimp only); (repeat' split) <;> simp (disch := (intros; (repeat' split) <;> simp [*, kept @State.fxNotice_fr])) [*, kept @State.fxNotice_fr]; done)
  | (refine State.taskDo_resp _ _ _ (fun _ => ?_); (repeat' split) <;> first | exact keepsM_pure _ _ | (simp [*, kept @State.fxNotice_fr]; done))

@[simp] theorem State.fxRing_dmg (s : State) (p : Nat) (type : Nat) (f : FxPkt → State → State) (hf : ∀ x0 x1, (f x0 x1).dmg = x1.dmg) : (State.fxRing s p type f).dmg = s.dmg := by
  unfold State.fxRing
  first
  | (simp [*, kept @State.fxNotice_fr]; done)
  | ((repeat' split) <;> simp [*, kept @State.fxNotice_fr]; done)
  | ((try dsimp only); (repeat' split) <;> simp (disch := (intros; (repeat' split) <;> simp [*, kept @State.fxNotice_fr])) [*, kept @State.fxNotice_fr]; done)
  | (refine State.taskDo_dmg _ _ _ (fun _ => ?_); (repeat' split) <;> first | exact keepsM_pure _ _ | (simp [*, kept @State.fxNotice_fr]; done))

@[simp] theorem State.fxRing_wq (s : State) (p : Nat) (type : Nat) (f : FxPkt → State → State) (hf : ∀ x0 x1, (f x0 x1).wq = x1.wq) : (State.fxRing s p type f).wq = s.wq := by
  unfold State.fxRing
  first
  | (simp [*, kept @State.fxNotice_fr]; done)
  | ((repeat' split) <;> simp [*, kept @State.fxNotice_fr]; done)
  | ((try dsimp only); (repeat' split) <;> simp (disch := (intros; (repeat' split) <;> simp [*, kept @State.fxNotice_fr])) [*, kept @State.fxNotice_fr]; done)
  | (refine State.taskDo_wq _ _ _ (fun _ => ?_); (repeat' split) <;> first | exact keepsM_pure _ _ | (simp [*, kept @State.fxNotice_fr]; done))

@[simp] theorem State.fxRing_net (s : State) (p : Nat) (type : Nat) (f : FxPkt → State → State) (hf : ∀ x0 x1, (f x0 x1).net = x1.net) : (State.fxRing s p type f).net = s.net := by
  unfold State.fxRing
  first
  | (simp [*, kept @State.fxNotice_fr]; done)
  | ((repeat' split) <;> simp [*, kept @State.fxNotice_fr]; done)
  | ((try dsimp only); (repeat' split) <;> simp (disch := (intros; (repeat' split) <;> simp [*, kept @State.fxNotice_fr])) [*, kept @State.fxNotice_fr]; done)
  | (refine State.taskDo_net _ _ _ (fun _ => ?_); (repeat' split) <;> first | exact keepsM_pure _ _ | (simp [*, kept @State.fxNotice_fr]; done))

@[simp] theorem State.fxRing_dbInval (s : State) (p : Nat) (type : Nat) (f : FxPkt → State → State) (hf : ∀ x0 x1, (f x0 x1).dbInval = x1.dbInval) : (State.fxRing s p type f).dbInval = s.dbInval := by
  unfold State.fxRing
  first
  | (simp [*, kept @State.fxNotice_fr]; done)
  | ((repeat' split) <;> simp [*, kept @State.fxNotice_fr]; done)
  | ((try dsimp only); (repeat' split) <;> simp (disch := (intros; (repeat' split) <;> simp [*, kept @State.fxNotice_fr])) [*, kept @State.fxNotice_fr]; done)
  | (refine State.taskDo_dbInval _ _ _ (fun _ => ?_); (repeat' split) <;> first | exact keepsM_pure _ _ | (simp [*, kept @State.fxNotice_fr]; done))

@[simp] theorem State.fxRing_watch (s : State) (p : Nat) (type : Nat) (f : FxPkt → State → State) (hf : ∀ x0 x1, (f x0 x1).watch = x1.watch) : (State.fxRing s p type f).watch = s.watch := by
  unfold State.fxRing
  first
  | (simp [*, kept @State.fxNotice_fr]; done)
  | ((repeat' split) <;> simp [*, kept @State.fxNotice_fr]; done)
  | ((try dsimp only); (repeat' split) <;> simp (disch := (intros; (repeat' split) <;> simp [*, kept @State.fxNotice_fr])) [*, kept @State.fxNotice_fr]; done)
  | (refine State.taskDo_watch _ _ _ (fun _ => ?_); (repeat' split) <;> first | exact keepsM_pure _ _ | (simp [*, kept @State.fxNotice_fr]; done))

@[simp] theorem State.fxRing_pkg (s : State) (p : Nat) (type : Nat) (f : FxPkt → State → State) (hf : ∀ x0 x1, (f x0 x1).pkg = x1.pkg) : (State.fxRing s p type f).pkg = s.pkg := by
  unfold State.fxRing
  first
  | (simp [*, kept @State.fxNotice_fr]; done)
  | ((repeat' split) <;> simp [*, kept @State.fxNotice_fr]; done)
  | ((try dsimp only); (repeat' split) <;> simp (disch := (intros; (repeat' split) <;> simp [*, kept @State.fxNotice_fr])) [*, kept @State.fxNotice_fr]; done)
  | (refine State.taskDo_pkg _ _ _ (fun _ => ?_); (repeat' split) <;> first | exact keepsM_pure _ _ | (simp [*, kept @State.fxNotice_fr]; done))

@[simp] theorem State.fxRing_pmc (s : State) (p : Nat) (type : Nat) (f : FxPkt → State → State) (hf : ∀ x0 x1, (f x0 x1).pmc = x1.pmc) : (State.fxRing s p type f).pmc = s.pmc := by
  unfold State.fxRing
  first
  | (simp [*, kept @State.fxNotice_fr]; done)
  | ((repeat' split) <;> simp [*, kept @State.fxNotice_fr]; done)
  | ((try dsimp only); (repeat' split) <;> simp (disch := (intros; (repeat' split) <;> simp [*, kept @State.fxNotice_fr])) [*, kept @State.fxNotice_fr]; done)
  | (refine State.taskDo_pmc _ _ _ (fun _ => ?_); (repeat' split) <;> first | exact keepsM_pure _ _ | (simp [*, kept @State.fxNotice_fr]; done))

@[simp] theorem State.fxRing_fwLog (s : State) (p : Nat) (type : Nat) (f : FxPkt → State → State) (hf : ∀ x0 x1, (f x0 x1).fwLog = x1.fwLog) : (State.fxRing s p type f).fwLog = s.fwLog := by
  unfold State.fxRing
  first
  | (simp [*, kept @State.fxNotice_fr]; done)
  | ((repeat' split) <;> simp [*, kept @State.fxNotice_fr]; done)
  | ((try dsimp only); (repeat' split) <;> simp (disch := (intros; (repeat' split) <;> simp [*, kept @State.fxNotice_fr])) [*, kept @State.fxNotice_fr]; done)
  | (refine State.taskDo_fwLog _ _ _ (fun _ => ?_); (repeat' split) <;> first | exact keepsM_pure _ _ | (simp [*, kept @State.fxNotice_fr]; done))

@[simp] theorem State.fxRing_free (s : State) (p : Nat) (type : Nat) (f : FxPkt → State → State) (hf : ∀ x0 x1, (f x0 x1).free = x1.free) : (State.fxRing s p type f).free = s.free := by
  unfold State.fxRing
  first
  | (simp [*, kept @State.fxNotice_fr]; done)
  | ((repeat' split) <;> simp [*, kept @State.fxNotice_fr]; done)
  | ((try dsimp only); (repeat' split) <;> simp (disch := (intros; (repeat' split) <;> simp [*, kept @State.fxNotice_fr])) [*, kept @State.fxNotice_fr]; done)
  | (refine State.taskDo_free _ _ _ (fun _ => ?_); (repeat' split) <;> first | exact keepsM_pure _ _ | (simp [*, kept @State.fxNotice_fr]; done))

theorem State.fxStart_fr (s : State) (p : Nat) (k : FxPkt) (fail : Option Fail) : (State.fxStart s p k fail).pending = s.pending ∧ (State.fxStart s p k fail).flash = s.flash ∧ (State.fxStart s p k fail).coldOpt = s.coldOpt ∧ (State.fxStart s p k fail).mem = s.mem ∧ (State.fxStart s p k fail).harts = s.harts ∧ (State.fxStart s p k fail).mram = s.mram ∧ (State.fxStart s p k fail).imsic = s.imsic ∧ (State.fxStart s p k fail).dm = s.dm ∧ (State.fxStart s p k fail).ctu = s.ctu ∧ (State.fxStart s p k fail).links = s.links ∧ (State.fxStart s p k fail).aplicS = s.aplicS ∧ (State.fxStart s p k fail).aplicN = s.aplicN ∧ (State.fxStart s p k fail).credits = s.credits ∧ (State.fxStart s p k fail).clusters = s.clusters ∧ (State.fxStart s p k fail).homes = s.homes ∧ (State.fxStart s p k fail).pkts = s.pkts ∧ (State.fxStart s p k fail).resp = s.resp ∧ (State.fxStart s p k fail).wires = s.wires ∧ (State.fxStart s p k fail).dmg = s.dmg ∧ (State.fxStart s p k fail).wq = s.wq ∧ (State.fxStart s p k fail).net = s.net ∧ (State.fxStart s p k fail).dbInval = s.dbInval ∧ (State.fxStart s p k fail).watch = s.watch ∧ (State.fxStart s p k fail).pkg = s.pkg ∧ (State.fxStart s p k fail).pmc = s.pmc ∧ (State.fxStart s p k fail).fwLog = s.fwLog ∧ (State.fxStart s p k fail).out = s.out ∧ (State.fxStart s p k fail).free = s.free ∧ (State.fxStart s p k fail).fabric = s.fabric ∧ (State.fxStart s p k fail).files = s.files := by
  generalize h : State.fxStart s p k fail = u
  unfold State.fxStart at h
  (try dsimp only at h); (repeat' split at h) <;> rw [← h] <;> simp [kept @State.setPort_fr, kept @State.startDesc_fr, kept @State.updDesc_fr]

theorem State.fxNames_fr (s : State) (p : Nat) (k : FxPkt) : (State.fxNames s p k).pending = s.pending ∧ (State.fxNames s p k).flash = s.flash ∧ (State.fxNames s p k).coldOpt = s.coldOpt ∧ (State.fxNames s p k).mem = s.mem ∧ (State.fxNames s p k).harts = s.harts ∧ (State.fxNames s p k).mram = s.mram ∧ (State.fxNames s p k).imsic = s.imsic ∧ (State.fxNames s p k).eng = s.eng ∧ (State.fxNames s p k).dm = s.dm ∧ (State.fxNames s p k).ctu = s.ctu ∧ (State.fxNames s p k).links = s.links ∧ (State.fxNames s p k).aplicS = s.aplicS ∧ (State.fxNames s p k).aplicN = s.aplicN ∧ (State.fxNames s p k).credits = s.credits ∧ (State.fxNames s p k).clusters = s.clusters ∧ (State.fxNames s p k).homes = s.homes ∧ (State.fxNames s p k).pkts = s.pkts ∧ (State.fxNames s p k).resp = s.resp ∧ (State.fxNames s p k).regs = s.regs ∧ (State.fxNames s p k).wires = s.wires ∧ (State.fxNames s p k).dmg = s.dmg ∧ (State.fxNames s p k).wq = s.wq ∧ (State.fxNames s p k).net = s.net ∧ (State.fxNames s p k).dbInval = s.dbInval ∧ (State.fxNames s p k).watch = s.watch ∧ (State.fxNames s p k).pkg = s.pkg ∧ (State.fxNames s p k).pmc = s.pmc ∧ (State.fxNames s p k).fwLog = s.fwLog ∧ (State.fxNames s p k).out = s.out ∧ (State.fxNames s p k).free = s.free ∧ (State.fxNames s p k).fabric = s.fabric ∧ (State.fxNames s p k).files = s.files := by
  generalize h : State.fxNames s p k = u
  unfold State.fxNames at h
  (try dsimp only at h); (repeat' split at h) <;> rw [← h] <;> simp [kept @State.setPort_fr]

theorem State.fxCommand_fr (s : State) (p : Nat) (k : FxPkt) : (State.fxCommand s p k).pending = s.pending ∧ (State.fxCommand s p k).flash = s.flash ∧ (State.fxCommand s p k).coldOpt = s.coldOpt ∧ (State.fxCommand s p k).mem = s.mem ∧ (State.fxCommand s p k).harts = s.harts ∧ (State.fxCommand s p k).mram = s.mram ∧ (State.fxCommand s p k).imsic = s.imsic ∧ (State.fxCommand s p k).dm = s.dm ∧ (State.fxCommand s p k).ctu = s.ctu ∧ (State.fxCommand s p k).links = s.links ∧ (State.fxCommand s p k).aplicS = s.aplicS ∧ (State.fxCommand s p k).aplicN = s.aplicN ∧ (State.fxCommand s p k).credits = s.credits ∧ (State.fxCommand s p k).clusters = s.clusters ∧ (State.fxCommand s p k).homes = s.homes ∧ (State.fxCommand s p k).pkts = s.pkts ∧ (State.fxCommand s p k).resp = s.resp ∧ (State.fxCommand s p k).wires = s.wires ∧ (State.fxCommand s p k).dmg = s.dmg ∧ (State.fxCommand s p k).wq = s.wq ∧ (State.fxCommand s p k).net = s.net ∧ (State.fxCommand s p k).dbInval = s.dbInval ∧ (State.fxCommand s p k).watch = s.watch ∧ (State.fxCommand s p k).pkg = s.pkg ∧ (State.fxCommand s p k).pmc = s.pmc ∧ (State.fxCommand s p k).fwLog = s.fwLog ∧ (State.fxCommand s p k).out = s.out ∧ (State.fxCommand s p k).free = s.free ∧ (State.fxCommand s p k).fabric = s.fabric ∧ (State.fxCommand s p k).files = s.files := by
  generalize h : State.fxCommand s p k = u
  unfold State.fxCommand at h
  (try dsimp only at h); (repeat' split at h) <;> rw [← h] <;> simp [kept @State.fxNames_fr, kept @State.fxStart_fr, kept @State.setPort_fr]

theorem execCommand_fr (p : Fin 4) (s : State) {u : State} (h : execCommand p s = .next u) : u.pending = s.pending ∧ u.flash = s.flash ∧ u.coldOpt = s.coldOpt ∧ u.mem = s.mem ∧ u.harts = s.harts ∧ u.mram = s.mram ∧ u.imsic = s.imsic ∧ u.dm = s.dm ∧ u.ctu = s.ctu ∧ u.links = s.links ∧ u.aplicS = s.aplicS ∧ u.aplicN = s.aplicN ∧ u.credits = s.credits ∧ u.clusters = s.clusters ∧ u.homes = s.homes ∧ u.pkts = s.pkts ∧ u.resp = s.resp ∧ u.dmg = s.dmg ∧ u.wq = s.wq ∧ u.net = s.net ∧ u.dbInval = s.dbInval ∧ u.watch = s.watch ∧ u.pkg = s.pkg ∧ u.pmc = s.pmc ∧ u.fwLog = s.fwLog ∧ u.free = s.free ∧ u.fabric = s.fabric ∧ u.files = s.files := by
  unfold execCommand at h
  (first | (simp only [Host.Outcome.next.injEq] at h; rw [← h]) | (simp only [reduceCtorEq] at h; done) | (simp only [Option.some.injEq] at h; rw [← h])); simp [kept @State.fxCommand_fr, kept @State.fxNotice_fr, kept @State.pmcFx_fr, kept @State.setPort_fr]

theorem execStagingReserved_fr (p : Fin 4) (s : State) {u : State} (h : execStagingReserved p s = .next u) : u.pending = s.pending ∧ u.flash = s.flash ∧ u.coldOpt = s.coldOpt ∧ u.mem = s.mem ∧ u.harts = s.harts ∧ u.mram = s.mram ∧ u.imsic = s.imsic ∧ u.dm = s.dm ∧ u.ctu = s.ctu ∧ u.links = s.links ∧ u.aplicS = s.aplicS ∧ u.aplicN = s.aplicN ∧ u.credits = s.credits ∧ u.clusters = s.clusters ∧ u.homes = s.homes ∧ u.pkts = s.pkts ∧ u.resp = s.resp ∧ u.dmg = s.dmg ∧ u.wq = s.wq ∧ u.net = s.net ∧ u.dbInval = s.dbInval ∧ u.watch = s.watch ∧ u.pkg = s.pkg ∧ u.pmc = s.pmc ∧ u.fwLog = s.fwLog ∧ u.free = s.free ∧ u.fabric = s.fabric ∧ u.files = s.files := by
  unfold execStagingReserved at h
  (try dsimp only at h); (repeat' split at h) <;> (first | (simp only [Host.Outcome.next.injEq] at h; rw [← h]) | (simp only [reduceCtorEq] at h; done) | (simp only [Option.some.injEq] at h; rw [← h])) <;> simp [kept @State.fxCommand_fr, kept @State.fxNotice_fr, kept @State.fxReturn_fr, kept @State.setPort_fr]

theorem State.dataInBad_fr (s : State) (p : Nat) (k : FxPkt) : (State.dataInBad s p k).pending = s.pending ∧ (State.dataInBad s p k).flash = s.flash ∧ (State.dataInBad s p k).coldOpt = s.coldOpt ∧ (State.dataInBad s p k).mem = s.mem ∧ (State.dataInBad s p k).harts = s.harts ∧ (State.dataInBad s p k).mram = s.mram ∧ (State.dataInBad s p k).imsic = s.imsic ∧ (State.dataInBad s p k).dm = s.dm ∧ (State.dataInBad s p k).ctu = s.ctu ∧ (State.dataInBad s p k).links = s.links ∧ (State.dataInBad s p k).aplicS = s.aplicS ∧ (State.dataInBad s p k).aplicN = s.aplicN ∧ (State.dataInBad s p k).credits = s.credits ∧ (State.dataInBad s p k).clusters = s.clusters ∧ (State.dataInBad s p k).homes = s.homes ∧ (State.dataInBad s p k).pkts = s.pkts ∧ (State.dataInBad s p k).resp = s.resp ∧ (State.dataInBad s p k).dmg = s.dmg ∧ (State.dataInBad s p k).wq = s.wq ∧ (State.dataInBad s p k).net = s.net ∧ (State.dataInBad s p k).dbInval = s.dbInval ∧ (State.dataInBad s p k).watch = s.watch ∧ (State.dataInBad s p k).pkg = s.pkg ∧ (State.dataInBad s p k).pmc = s.pmc ∧ (State.dataInBad s p k).fwLog = s.fwLog ∧ (State.dataInBad s p k).fabric = s.fabric ∧ (State.dataInBad s p k).files = s.files := by
  generalize h : State.dataInBad s p k = u
  unfold State.dataInBad at h
  (try dsimp only at h); (repeat' split at h) <;> rw [← h] <;> simp [kept @State.draw_fr, kept @State.endDesc_fr, kept @State.fixRun_fr, kept @State.fxNotice_fr, kept @State.setDesc_fr]

theorem State.dataInTo_fr (s : State) (p : Fin 4) (k : FxPkt) (d : Desc) (g : FxStage) : (State.dataInTo s p k d g).pending = s.pending ∧ (State.dataInTo s p k d g).flash = s.flash ∧ (State.dataInTo s p k d g).coldOpt = s.coldOpt ∧ (State.dataInTo s p k d g).imsic = s.imsic ∧ (State.dataInTo s p k d g).dm = s.dm ∧ (State.dataInTo s p k d g).ctu = s.ctu ∧ (State.dataInTo s p k d g).links = s.links ∧ (State.dataInTo s p k d g).aplicS = s.aplicS ∧ (State.dataInTo s p k d g).aplicN = s.aplicN ∧ (State.dataInTo s p k d g).credits = s.credits ∧ (State.dataInTo s p k d g).pkts = s.pkts ∧ (State.dataInTo s p k d g).resp = s.resp ∧ (State.dataInTo s p k d g).fabric = s.fabric ∧ (State.dataInTo s p k d g).files = s.files := by
  generalize h : State.dataInTo s p k d g = u
  unfold State.dataInTo at h
  rw [← h]; simp [kept @State.dataInBad_fr, kept @State.endDesc_fr, kept @State.fixRun_fr, kept @State.pmcFx_fr, kept @State.setDesc_fr, kept @State.stageWrite_fr]

theorem State.dataInMsg_fr (s : State) (p : Fin 4) (k : FxPkt) : (State.dataInMsg s p k).pending = s.pending ∧ (State.dataInMsg s p k).flash = s.flash ∧ (State.dataInMsg s p k).coldOpt = s.coldOpt ∧ (State.dataInMsg s p k).imsic = s.imsic ∧ (State.dataInMsg s p k).dm = s.dm ∧ (State.dataInMsg s p k).ctu = s.ctu ∧ (State.dataInMsg s p k).links = s.links ∧ (State.dataInMsg s p k).aplicS = s.aplicS ∧ (State.dataInMsg s p k).aplicN = s.aplicN ∧ (State.dataInMsg s p k).credits = s.credits ∧ (State.dataInMsg s p k).pkts = s.pkts ∧ (State.dataInMsg s p k).resp = s.resp ∧ (State.dataInMsg s p k).fabric = s.fabric ∧ (State.dataInMsg s p k).files = s.files := by
  generalize h : State.dataInMsg s p k = u
  unfold State.dataInMsg at h
  (try dsimp only at h); (repeat' split at h) <;> rw [← h] <;> simp [kept @State.dataInBad_fr, kept @State.dataInTo_fr]

theorem execDataIn_fr (p : Fin 4) (s : State) {u : State} (h : execDataIn p s = .next u) : u.pending = s.pending ∧ u.flash = s.flash ∧ u.coldOpt = s.coldOpt ∧ u.imsic = s.imsic ∧ u.dm = s.dm ∧ u.ctu = s.ctu ∧ u.links = s.links ∧ u.aplicS = s.aplicS ∧ u.aplicN = s.aplicN ∧ u.credits = s.credits ∧ u.pkts = s.pkts ∧ u.resp = s.resp ∧ u.fabric = s.fabric ∧ u.files = s.files := by
  unfold execDataIn at h
  (first | (simp only [Host.Outcome.next.injEq] at h; rw [← h]) | (simp only [reduceCtorEq] at h; done) | (simp only [Option.some.injEq] at h; rw [← h])); simp [kept @State.dataInMsg_fr]

theorem execFxDoorbell_fr (p : Fin 4) (s : State) {u : State} (h : execFxDoorbell p s = .next u) : u.pending = s.pending ∧ u.flash = s.flash ∧ u.coldOpt = s.coldOpt ∧ u.mem = s.mem ∧ u.harts = s.harts ∧ u.imsic = s.imsic ∧ u.dm = s.dm ∧ u.ctu = s.ctu ∧ u.links = s.links ∧ u.aplicS = s.aplicS ∧ u.aplicN = s.aplicN ∧ u.credits = s.credits ∧ u.clusters = s.clusters ∧ u.homes = s.homes ∧ u.pkts = s.pkts ∧ u.resp = s.resp ∧ u.dmg = s.dmg ∧ u.net = s.net ∧ u.dbInval = s.dbInval ∧ u.watch = s.watch ∧ u.free = s.free ∧ u.fabric = s.fabric ∧ u.files = s.files := by
  unfold execFxDoorbell at h
  (try dsimp only at h); (repeat' split at h) <;> ((first | (simp only [Host.Outcome.next.injEq] at h; rw [← h]) | (simp only [reduceCtorEq] at h; done) | (simp only [Option.some.injEq] at h; rw [← h])); simp (disch := (intros; (repeat' split) <;> first | exact keepsM_pure _ _ | simp [*, kept @State.doorbell_fr, kept @State.fxNotice_fr])) [kept @State.doorbell_fr, kept @State.fxNotice_fr])

theorem execFetchResend_fr (p : Fin 4) (s : State) {u : State} (h : execFetchResend p s = .next u) : u.pending = s.pending ∧ u.flash = s.flash ∧ u.coldOpt = s.coldOpt ∧ u.mem = s.mem ∧ u.harts = s.harts ∧ u.mram = s.mram ∧ u.imsic = s.imsic ∧ u.eng = s.eng ∧ u.dm = s.dm ∧ u.ctu = s.ctu ∧ u.links = s.links ∧ u.aplicS = s.aplicS ∧ u.aplicN = s.aplicN ∧ u.credits = s.credits ∧ u.clusters = s.clusters ∧ u.homes = s.homes ∧ u.pkts = s.pkts ∧ u.resp = s.resp ∧ u.wires = s.wires ∧ u.dmg = s.dmg ∧ u.wq = s.wq ∧ u.net = s.net ∧ u.dbInval = s.dbInval ∧ u.watch = s.watch ∧ u.pkg = s.pkg ∧ u.pmc = s.pmc ∧ u.fwLog = s.fwLog ∧ u.free = s.free ∧ u.fabric = s.fabric ∧ u.files = s.files := by
  unfold execFetchResend at h
  (try dsimp only at h); (repeat' split at h) <;> (first | (simp only [Host.Outcome.next.injEq] at h; rw [← h]) | (simp only [reduceCtorEq] at h; done) | (simp only [Option.some.injEq] at h; rw [← h])) <;> simp [kept @State.fxFetch_fr, kept @State.fxForget_fr, kept @State.setPort_fr]

theorem State.fxAck_fr (s : State) (p : Nat) (ring : Nat) (w : Nat) (code : Nat) : (State.fxAck s p ring w code).pending = s.pending ∧ (State.fxAck s p ring w code).flash = s.flash ∧ (State.fxAck s p ring w code).coldOpt = s.coldOpt ∧ (State.fxAck s p ring w code).mem = s.mem ∧ (State.fxAck s p ring w code).harts = s.harts ∧ (State.fxAck s p ring w code).mram = s.mram ∧ (State.fxAck s p ring w code).imsic = s.imsic ∧ (State.fxAck s p ring w code).eng = s.eng ∧ (State.fxAck s p ring w code).dm = s.dm ∧ (State.fxAck s p ring w code).ctu = s.ctu ∧ (State.fxAck s p ring w code).links = s.links ∧ (State.fxAck s p ring w code).aplicS = s.aplicS ∧ (State.fxAck s p ring w code).aplicN = s.aplicN ∧ (State.fxAck s p ring w code).credits = s.credits ∧ (State.fxAck s p ring w code).clusters = s.clusters ∧ (State.fxAck s p ring w code).homes = s.homes ∧ (State.fxAck s p ring w code).pkts = s.pkts ∧ (State.fxAck s p ring w code).resp = s.resp ∧ (State.fxAck s p ring w code).wires = s.wires ∧ (State.fxAck s p ring w code).dmg = s.dmg ∧ (State.fxAck s p ring w code).wq = s.wq ∧ (State.fxAck s p ring w code).net = s.net ∧ (State.fxAck s p ring w code).dbInval = s.dbInval ∧ (State.fxAck s p ring w code).watch = s.watch ∧ (State.fxAck s p ring w code).pkg = s.pkg ∧ (State.fxAck s p ring w code).pmc = s.pmc ∧ (State.fxAck s p ring w code).fwLog = s.fwLog ∧ (State.fxAck s p ring w code).free = s.free ∧ (State.fxAck s p ring w code).fabric = s.fabric ∧ (State.fxAck s p ring w code).files = s.files := by
  generalize h : State.fxAck s p ring w code = u
  unfold State.fxAck at h
  rw [← h]; simp [kept @State.fxQueue_fr]

theorem execWindowReg_fr (p : Fin 4) (s : State) {u : State} (h : execWindowReg p s = .next u) : u.pending = s.pending ∧ u.flash = s.flash ∧ u.coldOpt = s.coldOpt ∧ u.mem = s.mem ∧ u.harts = s.harts ∧ u.mram = s.mram ∧ u.imsic = s.imsic ∧ u.eng = s.eng ∧ u.dm = s.dm ∧ u.ctu = s.ctu ∧ u.links = s.links ∧ u.aplicS = s.aplicS ∧ u.aplicN = s.aplicN ∧ u.credits = s.credits ∧ u.clusters = s.clusters ∧ u.homes = s.homes ∧ u.pkts = s.pkts ∧ u.resp = s.resp ∧ u.dmg = s.dmg ∧ u.wq = s.wq ∧ u.net = s.net ∧ u.dbInval = s.dbInval ∧ u.watch = s.watch ∧ u.pkg = s.pkg ∧ u.pmc = s.pmc ∧ u.fwLog = s.fwLog ∧ u.free = s.free ∧ u.fabric = s.fabric ∧ u.files = s.files := by
  unfold execWindowReg at h
  (first | (simp only [Host.Outcome.next.injEq] at h; rw [← h]) | (simp only [reduceCtorEq] at h; done) | (simp only [Option.some.injEq] at h; rw [← h])); simp [kept @State.fxAck_fr, kept @State.setPort_fr]

theorem execWindowRelease_fr (p : Fin 4) (s : State) {u : State} (h : execWindowRelease p s = .next u) : u.pending = s.pending ∧ u.flash = s.flash ∧ u.coldOpt = s.coldOpt ∧ u.mem = s.mem ∧ u.harts = s.harts ∧ u.mram = s.mram ∧ u.imsic = s.imsic ∧ u.eng = s.eng ∧ u.dm = s.dm ∧ u.ctu = s.ctu ∧ u.links = s.links ∧ u.aplicS = s.aplicS ∧ u.aplicN = s.aplicN ∧ u.credits = s.credits ∧ u.clusters = s.clusters ∧ u.homes = s.homes ∧ u.pkts = s.pkts ∧ u.resp = s.resp ∧ u.wires = s.wires ∧ u.dmg = s.dmg ∧ u.wq = s.wq ∧ u.net = s.net ∧ u.dbInval = s.dbInval ∧ u.watch = s.watch ∧ u.pkg = s.pkg ∧ u.pmc = s.pmc ∧ u.fwLog = s.fwLog ∧ u.free = s.free ∧ u.fabric = s.fabric ∧ u.files = s.files := by
  unfold execWindowRelease at h
  (try dsimp only at h); (repeat' split at h) <;> ((first | (simp only [Host.Outcome.next.injEq] at h; rw [← h]) | (simp only [reduceCtorEq] at h; done) | (simp only [Option.some.injEq] at h; rw [← h])); simp (disch := (intros; (repeat' split) <;> first | exact keepsM_pure _ _ | simp [*, kept @State.fxAck_fr, kept @State.fxForget_fr, kept @State.setPort_fr])) [kept @State.fxAck_fr, kept @State.fxForget_fr, kept @State.setPort_fr])

theorem execWindowReleaseAck_fr (p : Fin 4) (s : State) {u : State} (h : execWindowReleaseAck p s = .next u) : u.pending = s.pending ∧ u.flash = s.flash ∧ u.coldOpt = s.coldOpt ∧ u.mem = s.mem ∧ u.harts = s.harts ∧ u.mram = s.mram ∧ u.imsic = s.imsic ∧ u.eng = s.eng ∧ u.dm = s.dm ∧ u.ctu = s.ctu ∧ u.links = s.links ∧ u.aplicS = s.aplicS ∧ u.aplicN = s.aplicN ∧ u.credits = s.credits ∧ u.clusters = s.clusters ∧ u.homes = s.homes ∧ u.pkts = s.pkts ∧ u.resp = s.resp ∧ u.wires = s.wires ∧ u.dmg = s.dmg ∧ u.wq = s.wq ∧ u.net = s.net ∧ u.dbInval = s.dbInval ∧ u.watch = s.watch ∧ u.pkg = s.pkg ∧ u.pmc = s.pmc ∧ u.fwLog = s.fwLog ∧ u.free = s.free ∧ u.fabric = s.fabric ∧ u.files = s.files := by
  unfold execWindowReleaseAck at h
  (try dsimp only at h); (repeat' split at h) <;> (first | (simp only [Host.Outcome.next.injEq] at h; rw [← h]) | (simp only [reduceCtorEq] at h; done) | (simp only [Option.some.injEq] at h; rw [← h])) <;> simp [kept @State.fxAck_fr, kept @State.setPort_fr]

theorem execMgmt_fr (p : Fin 4) (s : State) {u : State} (h : execMgmt p s = .next u) : u.pending = s.pending ∧ u.flash = s.flash ∧ u.coldOpt = s.coldOpt ∧ u.mem = s.mem ∧ u.harts = s.harts ∧ u.mram = s.mram ∧ u.imsic = s.imsic ∧ u.eng = s.eng ∧ u.dm = s.dm ∧ u.ctu = s.ctu ∧ u.links = s.links ∧ u.aplicS = s.aplicS ∧ u.aplicN = s.aplicN ∧ u.credits = s.credits ∧ u.clusters = s.clusters ∧ u.homes = s.homes ∧ u.pkts = s.pkts ∧ u.resp = s.resp ∧ u.dmg = s.dmg ∧ u.wq = s.wq ∧ u.net = s.net ∧ u.dbInval = s.dbInval ∧ u.watch = s.watch ∧ u.pkg = s.pkg ∧ u.fwLog = s.fwLog ∧ u.free = s.free ∧ u.fabric = s.fabric ∧ u.files = s.files := by
  unfold execMgmt at h
  (first | (simp only [Host.Outcome.next.injEq] at h; rw [← h]) | (simp only [reduceCtorEq] at h; done) | (simp only [Option.some.injEq] at h; rw [← h])); simp [kept @State.mgmtRequest_fr]

theorem execFinxisReset_fr (p : Fin 4) (pulse : Bool) (s : State) {u : State} (h : execFinxisReset p pulse s = .next u) : u.pending = s.pending ∧ u.flash = s.flash ∧ u.coldOpt = s.coldOpt ∧ u.resp = s.resp ∧ u.free = s.free := by
  unfold execFinxisReset at h
  (first | (simp only [Host.Outcome.next.injEq] at h; rw [← h]) | (simp only [reduceCtorEq] at h; done) | (simp only [Option.some.injEq] at h; rw [← h])); simp [kept @State.fxNotice_fr, kept @State.warmSource_fr, kept @State.wr_fr]

end Sys2Proof.Machine
end

