-- ==== Sys2Proof/Laws/Frame/NetCmds.lean ====
section
/-! SUPPORT. What the operations of Machine/NetCmds.lean leave unchanged. -/

set_option Elab.async false
set_option linter.all false

namespace Sys2Proof.Machine
open Sys2Proof

theorem State.cutRecord_fr (s : State) (t : Nat) (src : Nat) (cls : Nat) (agent : Nat) (cause : Nat) (tag : Nat) : (State.cutRecord s t src cls agent cause tag).pending = s.pending ∧ (State.cutRecord s t src cls agent cause tag).flash = s.flash ∧ (State.cutRecord s t src cls agent cause tag).coldOpt = s.coldOpt ∧ (State.cutRecord s t src cls agent cause tag).mem = s.mem ∧ (State.cutRecord s t src cls agent cause tag).harts = s.harts ∧ (State.cutRecord s t src cls agent cause tag).mram = s.mram ∧ (State.cutRecord s t src cls agent cause tag).imsic = s.imsic ∧ (State.cutRecord s t src cls agent cause tag).eng = s.eng ∧ (State.cutRecord s t src cls agent cause tag).dm = s.dm ∧ (State.cutRecord s t src cls agent cause tag).fx = s.fx ∧ (State.cutRecord s t src cls agent cause tag).ctu = s.ctu ∧ (State.cutRecord s t src cls agent cause tag).links = s.links ∧ (State.cutRecord s t src cls agent cause tag).aplicS = s.aplicS ∧ (State.cutRecord s t src cls agent cause tag).aplicN = s.aplicN ∧ (State.cutRecord s t src cls agent cause tag).credits = s.credits ∧ (State.cutRecord s t src cls agent cause tag).clusters = s.clusters ∧ (State.cutRecord s t src cls agent cause tag).homes = s.homes ∧ (State.cutRecord s t src cls agent cause tag).pkts = s.pkts ∧ (State.cutRecord s t src cls agent cause tag).resp = s.resp ∧ (State.cutRecord s t src cls agent cause tag).dmg = s.dmg ∧ (State.cutRecord s t src cls agent cause tag).wq = s.wq ∧ (State.cutRecord s t src cls agent cause tag).net = s.net ∧ (State.cutRecord s t src cls agent cause tag).dbInval = s.dbInval ∧ (State.cutRecord s t src cls agent cause tag).watch = s.watch ∧ (State.cutRecord s t src cls agent cause tag).pkg = s.pkg ∧ (State.cutRecord s t src cls agent cause tag).pmc = s.pmc ∧ (State.cutRecord s t src cls agent cause tag).fwLog = s.fwLog ∧ (State.cutRecord s t src cls agent cause tag).out = s.out ∧ (State.cutRecord s t src cls agent cause tag).free = s.free ∧ (State.cutRecord s t src cls agent cause tag).fabric = s.fabric ∧ (State.cutRecord s t src cls agent cause tag).files = s.files := by
  generalize h : State.cutRecord s t src cls agent cause tag = u
  unfold State.cutRecord at h
  rw [← h]; simp [kept @State.raise_fr, kept @State.wr_fr, kept @State.wrs_fr]

theorem State.fab_fr (s : State) (f : Fabric → Fabric) : (State.fab s f).pending = s.pending ∧ (State.fab s f).flash = s.flash ∧ (State.fab s f).coldOpt = s.coldOpt ∧ (State.fab s f).mem = s.mem ∧ (State.fab s f).harts = s.harts ∧ (State.fab s f).mram = s.mram ∧ (State.fab s f).imsic = s.imsic ∧ (State.fab s f).eng = s.eng ∧ (State.fab s f).dm = s.dm ∧ (State.fab s f).fx = s.fx ∧ (State.fab s f).ctu = s.ctu ∧ (State.fab s f).links = s.links ∧ (State.fab s f).aplicS = s.aplicS ∧ (State.fab s f).aplicN = s.aplicN ∧ (State.fab s f).credits = s.credits ∧ (State.fab s f).clusters = s.clusters ∧ (State.fab s f).homes = s.homes ∧ (State.fab s f).pkts = s.pkts ∧ (State.fab s f).resp = s.resp ∧ (State.fab s f).regs = s.regs ∧ (State.fab s f).wires = s.wires ∧ (State.fab s f).dmg = s.dmg ∧ (State.fab s f).wq = s.wq ∧ (State.fab s f).net = s.net ∧ (State.fab s f).dbInval = s.dbInval ∧ (State.fab s f).watch = s.watch ∧ (State.fab s f).pkg = s.pkg ∧ (State.fab s f).pmc = s.pmc ∧ (State.fab s f).fwLog = s.fwLog ∧ (State.fab s f).out = s.out ∧ (State.fab s f).free = s.free ∧ (State.fab s f).files = s.files := by
  generalize h : State.fab s f = u
  unfold State.fab at h
  (try dsimp only at h); (repeat' split at h) <;> rw [← h] <;> simp

theorem State.reqError_fr (s : State) (t : Nat) (f : Flit) (code : Nat) : (State.reqError s t f code).pending = s.pending ∧ (State.reqError s t f code).flash = s.flash ∧ (State.reqError s t f code).coldOpt = s.coldOpt ∧ (State.reqError s t f code).mem = s.mem ∧ (State.reqError s t f code).harts = s.harts ∧ (State.reqError s t f code).mram = s.mram ∧ (State.reqError s t f code).imsic = s.imsic ∧ (State.reqError s t f code).eng = s.eng ∧ (State.reqError s t f code).dm = s.dm ∧ (State.reqError s t f code).fx = s.fx ∧ (State.reqError s t f code).ctu = s.ctu ∧ (State.reqError s t f code).links = s.links ∧ (State.reqError s t f code).aplicS = s.aplicS ∧ (State.reqError s t f code).aplicN = s.aplicN ∧ (State.reqError s t f code).credits = s.credits ∧ (State.reqError s t f code).homes = s.homes ∧ (State.reqError s t f code).pkts = s.pkts ∧ (State.reqError s t f code).regs = s.regs ∧ (State.reqError s t f code).wires = s.wires ∧ (State.reqError s t f code).dmg = s.dmg ∧ (State.reqError s t f code).wq = s.wq ∧ (State.reqError s t f code).dbInval = s.dbInval ∧ (State.reqError s t f code).watch = s.watch ∧ (State.reqError s t f code).pkg = s.pkg ∧ (State.reqError s t f code).pmc = s.pmc ∧ (State.reqError s t f code).out = s.out ∧ (State.reqError s t f code).free = s.free ∧ (State.reqError s t f code).files = s.files := by
  generalize h : State.reqError s t f code = u
  unfold State.reqError at h
  (try dsimp only at h); (repeat' split at h) <;> rw [← h] <;> simp [kept @State.answer_fr, kept @State.fab_fr, kept @State.logFw_fr, kept @State.post_fr, kept @State.setCluster_fr]

theorem State.pktGone_fr (s : State) (f : Flit) : (State.pktGone s f).pending = s.pending ∧ (State.pktGone s f).flash = s.flash ∧ (State.pktGone s f).coldOpt = s.coldOpt ∧ (State.pktGone s f).mem = s.mem ∧ (State.pktGone s f).harts = s.harts ∧ (State.pktGone s f).mram = s.mram ∧ (State.pktGone s f).imsic = s.imsic ∧ (State.pktGone s f).eng = s.eng ∧ (State.pktGone s f).dm = s.dm ∧ (State.pktGone s f).fx = s.fx ∧ (State.pktGone s f).ctu = s.ctu ∧ (State.pktGone s f).links = s.links ∧ (State.pktGone s f).aplicS = s.aplicS ∧ (State.pktGone s f).aplicN = s.aplicN ∧ (State.pktGone s f).credits = s.credits ∧ (State.pktGone s f).clusters = s.clusters ∧ (State.pktGone s f).homes = s.homes ∧ (State.pktGone s f).resp = s.resp ∧ (State.pktGone s f).regs = s.regs ∧ (State.pktGone s f).wires = s.wires ∧ (State.pktGone s f).dmg = s.dmg ∧ (State.pktGone s f).wq = s.wq ∧ (State.pktGone s f).net = s.net ∧ (State.pktGone s f).dbInval = s.dbInval ∧ (State.pktGone s f).watch = s.watch ∧ (State.pktGone s f).pkg = s.pkg ∧ (State.pktGone s f).pmc = s.pmc ∧ (State.pktGone s f).fwLog = s.fwLog ∧ (State.pktGone s f).out = s.out ∧ (State.pktGone s f).free = s.free ∧ (State.pktGone s f).fabric = s.fabric ∧ (State.pktGone s f).files = s.files := by
  generalize h : State.pktGone s f = u
  unfold State.pktGone at h
  rw [← h]; simp

theorem State.giveCredit_fr (s : State) (a : Nat) (b : Nat) (stage : Nat) : (State.giveCredit s a b stage).pending = s.pending ∧ (State.giveCredit s a b stage).flash = s.flash ∧ (State.giveCredit s a b stage).coldOpt = s.coldOpt ∧ (State.giveCredit s a b stage).mem = s.mem ∧ (State.giveCredit s a b stage).harts = s.harts ∧ (State.giveCredit s a b stage).mram = s.mram ∧ (State.giveCredit s a b stage).imsic = s.imsic ∧ (State.giveCredit s a b stage).eng = s.eng ∧ (State.giveCredit s a b stage).dm = s.dm ∧ (State.giveCredit s a b stage).fx = s.fx ∧ (State.giveCredit s a b stage).ctu = s.ctu ∧ (State.giveCredit s a b stage).links = s.links ∧ (State.giveCredit s a b stage).aplicS = s.aplicS ∧ (State.giveCredit s a b stage).aplicN = s.aplicN ∧ (State.giveCredit s a b stage).clusters = s.clusters ∧ (State.giveCredit s a b stage).homes = s.homes ∧ (State.giveCredit s a b stage).pkts = s.pkts ∧ (State.giveCredit s a b stage).resp = s.resp ∧ (State.giveCredit s a b stage).regs = s.regs ∧ (State.giveCredit s a b stage).wires = s.wires ∧ (State.giveCredit s a b stage).dmg = s.dmg ∧ (State.giveCredit s a b stage).wq = s.wq ∧ (State.giveCredit s a b stage).net = s.net ∧ (State.giveCredit s a b stage).dbInval = s.dbInval ∧ (State.giveCredit s a b stage).watch = s.watch ∧ (State.giveCredit s a b stage).pkg = s.pkg ∧ (State.giveCredit s a b stage).pmc = s.pmc ∧ (State.giveCredit s a b stage).fwLog = s.fwLog ∧ (State.giveCredit s a b stage).out = s.out ∧ (State.giveCredit s a b stage).free = s.free ∧ (State.giveCredit s a b stage).fabric = s.fabric ∧ (State.giveCredit s a b stage).files = s.files := by
  generalize h : State.giveCredit s a b stage = u
  unfold State.giveCredit at h
  rw [← h]; simp

theorem State.discard_fr (s : State) (t : Nat) (f : Flit) (cause : Nat) : (State.discard s t f cause).pending = s.pending ∧ (State.discard s t f cause).flash = s.flash ∧ (State.discard s t f cause).coldOpt = s.coldOpt ∧ (State.discard s t f cause).mem = s.mem ∧ (State.discard s t f cause).harts = s.harts ∧ (State.discard s t f cause).mram = s.mram ∧ (State.discard s t f cause).imsic = s.imsic ∧ (State.discard s t f cause).eng = s.eng ∧ (State.discard s t f cause).dm = s.dm ∧ (State.discard s t f cause).fx = s.fx ∧ (State.discard s t f cause).ctu = s.ctu ∧ (State.discard s t f cause).links = s.links ∧ (State.discard s t f cause).aplicS = s.aplicS ∧ (State.discard s t f cause).aplicN = s.aplicN ∧ (State.discard s t f cause).credits = s.credits ∧ (State.discard s t f cause).homes = s.homes ∧ (State.discard s t f cause).dmg = s.dmg ∧ (State.discard s t f cause).wq = s.wq ∧ (State.discard s t f cause).dbInval = s.dbInval ∧ (State.discard s t f cause).watch = s.watch ∧ (State.discard s t f cause).pkg = s.pkg ∧ (State.discard s t f cause).pmc = s.pmc ∧ (State.discard s t f cause).out = s.out ∧ (State.discard s t f cause).free = s.free ∧ (State.discard s t f cause).files = s.files := by
  generalize h : State.discard s t f cause = u
  unfold State.discard at h
  rw [← h]; simp [kept @State.answer_fr, kept @State.cutRecord_fr, kept @State.fab_fr, kept @State.pktGone_fr, kept @State.reqError_fr]

theorem State.statEject_fr (s : State) (t : Nat) (first : Nat) (f : Flit) : (State.statEject s t first f).pending = s.pending ∧ (State.statEject s t first f).flash = s.flash ∧ (State.statEject s t first f).coldOpt = s.coldOpt ∧ (State.statEject s t first f).mem = s.mem ∧ (State.statEject s t first f).harts = s.harts ∧ (State.statEject s t first f).mram = s.mram ∧ (State.statEject s t first f).imsic = s.imsic ∧ (State.statEject s t first f).eng = s.eng ∧ (State.statEject s t first f).dm = s.dm ∧ (State.statEject s t first f).fx = s.fx ∧ (State.statEject s t first f).ctu = s.ctu ∧ (State.statEject s t first f).links = s.links ∧ (State.statEject s t first f).aplicS = s.aplicS ∧ (State.statEject s t first f).aplicN = s.aplicN ∧ (State.statEject s t first f).credits = s.credits ∧ (State.statEject s t first f).clusters = s.clusters ∧ (State.statEject s t first f).homes = s.homes ∧ (State.statEject s t first f).pkts = s.pkts ∧ (State.statEject s t first f).resp = s.resp ∧ (State.statEject s t first f).wires = s.wires ∧ (State.statEject s t first f).dmg = s.dmg ∧ (State.statEject s t first f).wq = s.wq ∧ (State.statEject s t first f).net = s.net ∧ (State.statEject s t first f).dbInval = s.dbInval ∧ (State.statEject s t first f).watch = s.watch ∧ (State.statEject s t first f).pkg = s.pkg ∧ (State.statEject s t first f).pmc = s.pmc ∧ (State.statEject s t first f).fwLog = s.fwLog ∧ (State.statEject s t first f).out = s.out ∧ (State.statEject s t first f).free = s.free ∧ (State.statEject s t first f).fabric = s.fabric ∧ (State.statEject s t first f).files = s.files := by
  generalize h : State.statEject s t first f = u
  unfold State.statEject at h
  rw [← h]; simp [kept @State.addF_fr, kept @State.wr_fr, kept @State.wrW_fr]

theorem State.cutPacket_fr (s : State) (t : Nat) (f : Flit) : (State.cutPacket s t f).pending = s.pending ∧ (State.cutPacket s t f).flash = s.flash ∧ (State.cutPacket s t f).coldOpt = s.coldOpt ∧ (State.cutPacket s t f).mem = s.mem ∧ (State.cutPacket s t f).harts = s.harts ∧ (State.cutPacket s t f).mram = s.mram ∧ (State.cutPacket s t f).imsic = s.imsic ∧ (State.cutPacket s t f).dm = s.dm ∧ (State.cutPacket s t f).fx = s.fx ∧ (State.cutPacket s t f).ctu = s.ctu ∧ (State.cutPacket s t f).links = s.links ∧ (State.cutPacket s t f).aplicS = s.aplicS ∧ (State.cutPacket s t f).aplicN = s.aplicN ∧ (State.cutPacket s t f).credits = s.credits ∧ (State.cutPacket s t f).homes = s.homes ∧ (State.cutPacket s t f).pkts = s.pkts ∧ (State.cutPacket s t f).regs = s.regs ∧ (State.cutPacket s t f).wires = s.wires ∧ (State.cutPacket s t f).dmg = s.dmg ∧ (State.cutPacket s t f).wq = s.wq ∧ (State.cutPacket s t f).dbInval = s.dbInval ∧ (State.cutPacket s t f).watch = s.watch ∧ (State.cutPacket s t f).pkg = s.pkg ∧ (State.cutPacket s t f).pmc = s.pmc ∧ (State.cutPacket s t f).out = s.out ∧ (State.cutPacket s t f).free = s.free ∧ (State.cutPacket s t f).files = s.files := by
  generalize h : State.cutPacket s t f = u
  unfold State.cutPacket at h
  (try dsimp only at h); (repeat' split at h) <;> rw [← h] <;> simp [kept @State.failTask_fr, kept @State.reqError_fr]

theorem State.proxy_fr (s : State) (t : Nat) (f : Flit) : (State.proxy s t f).pending = s.pending ∧ (State.proxy s t f).flash = s.flash ∧ (State.proxy s t f).coldOpt = s.coldOpt ∧ (State.proxy s t f).mem = s.mem ∧ (State.proxy s t f).harts = s.harts ∧ (State.proxy s t f).mram = s.mram ∧ (State.proxy s t f).imsic = s.imsic ∧ (State.proxy s t f).eng = s.eng ∧ (State.proxy s t f).dm = s.dm ∧ (State.proxy s t f).fx = s.fx ∧ (State.proxy s t f).ctu = s.ctu ∧ (State.proxy s t f).links = s.links ∧ (State.proxy s t f).aplicS = s.aplicS ∧ (State.proxy s t f).aplicN = s.aplicN ∧ (State.proxy s t f).homes = s.homes ∧ (State.proxy s t f).pkts = s.pkts ∧ (State.proxy s t f).regs = s.regs ∧ (State.proxy s t f).wires = s.wires ∧ (State.proxy s t f).dmg = s.dmg ∧ (State.proxy s t f).wq = s.wq ∧ (State.proxy s t f).dbInval = s.dbInval ∧ (State.proxy s t f).watch = s.watch ∧ (State.proxy s t f).pkg = s.pkg ∧ (State.proxy s t f).pmc = s.pmc ∧ (State.proxy s t f).out = s.out ∧ (State.proxy s t f).free = s.free ∧ (State.proxy s t f).files = s.files := by
  generalize h : State.proxy s t f = u
  unfold State.proxy at h
  (try dsimp only at h); (repeat' split at h) <;> rw [← h] <;> simp [kept @State.giveCredit_fr, kept @State.post_fr, kept @State.reqError_fr]

theorem State.eject_fr (s : State) (t : Nat) (first : Nat) (f : Flit) : (State.eject s t first f).pending = s.pending ∧ (State.eject s t first f).flash = s.flash ∧ (State.eject s t first f).coldOpt = s.coldOpt ∧ (State.eject s t first f).mem = s.mem ∧ (State.eject s t first f).harts = s.harts ∧ (State.eject s t first f).mram = s.mram ∧ (State.eject s t first f).imsic = s.imsic ∧ (State.eject s t first f).dm = s.dm ∧ (State.eject s t first f).fx = s.fx ∧ (State.eject s t first f).ctu = s.ctu ∧ (State.eject s t first f).links = s.links ∧ (State.eject s t first f).aplicS = s.aplicS ∧ (State.eject s t first f).aplicN = s.aplicN ∧ (State.eject s t first f).homes = s.homes ∧ (State.eject s t first f).wires = s.wires ∧ (State.eject s t first f).dmg = s.dmg ∧ (State.eject s t first f).wq = s.wq ∧ (State.eject s t first f).dbInval = s.dbInval ∧ (State.eject s t first f).watch = s.watch ∧ (State.eject s t first f).pkg = s.pkg ∧ (State.eject s t first f).pmc = s.pmc ∧ (State.eject s t first f).out = s.out ∧ (State.eject s t first f).free = s.free ∧ (State.eject s t first f).files = s.files := by
  generalize h : State.eject s t first f = u
  unfold State.eject at h
  rw [← h]; simp [kept @State.answer_fr, kept @State.cutPacket_fr, kept @State.fab_fr, kept @State.giveCredit_fr, kept @State.pktGone_fr, kept @State.proxy_fr, kept @State.statEject_fr]

theorem State.injected_fr (s : State) (t : Nat) (f : Flit) : (State.injected s t f).pending = s.pending ∧ (State.injected s t f).flash = s.flash ∧ (State.injected s t f).coldOpt = s.coldOpt ∧ (State.injected s t f).mem = s.mem ∧ (State.injected s t f).harts = s.harts ∧ (State.injected s t f).mram = s.mram ∧ (State.injected s t f).imsic = s.imsic ∧ (State.injected s t f).eng = s.eng ∧ (State.injected s t f).dm = s.dm ∧ (State.injected s t f).fx = s.fx ∧ (State.injected s t f).ctu = s.ctu ∧ (State.injected s t f).links = s.links ∧ (State.injected s t f).aplicS = s.aplicS ∧ (State.injected s t f).aplicN = s.aplicN ∧ (State.injected s t f).clusters = s.clusters ∧ (State.injected s t f).homes = s.homes ∧ (State.injected s t f).resp = s.resp ∧ (State.injected s t f).regs = s.regs ∧ (State.injected s t f).wires = s.wires ∧ (State.injected s t f).dmg = s.dmg ∧ (State.injected s t f).wq = s.wq ∧ (State.injected s t f).net = s.net ∧ (State.injected s t f).dbInval = s.dbInval ∧ (State.injected s t f).watch = s.watch ∧ (State.injected s t f).pkg = s.pkg ∧ (State.injected s t f).pmc = s.pmc ∧ (State.injected s t f).fwLog = s.fwLog ∧ (State.injected s t f).out = s.out ∧ (State.injected s t f).free = s.free ∧ (State.injected s t f).files = s.files := by
  generalize h : State.injected s t f = u
  unfold State.injected at h
  rw [← h]; simp [kept @State.fab_fr]

theorem State.setBuf_fr (s : State) (k : Nat) (l : List Flit) : (State.setBuf s k l).pending = s.pending ∧ (State.setBuf s k l).flash = s.flash ∧ (State.setBuf s k l).coldOpt = s.coldOpt ∧ (State.setBuf s k l).mem = s.mem ∧ (State.setBuf s k l).harts = s.harts ∧ (State.setBuf s k l).mram = s.mram ∧ (State.setBuf s k l).imsic = s.imsic ∧ (State.setBuf s k l).eng = s.eng ∧ (State.setBuf s k l).dm = s.dm ∧ (State.setBuf s k l).fx = s.fx ∧ (State.setBuf s k l).ctu = s.ctu ∧ (State.setBuf s k l).links = s.links ∧ (State.setBuf s k l).aplicS = s.aplicS ∧ (State.setBuf s k l).aplicN = s.aplicN ∧ (State.setBuf s k l).credits = s.credits ∧ (State.setBuf s k l).clusters = s.clusters ∧ (State.setBuf s k l).homes = s.homes ∧ (State.setBuf s k l).pkts = s.pkts ∧ (State.setBuf s k l).resp = s.resp ∧ (State.setBuf s k l).regs = s.regs ∧ (State.setBuf s k l).wires = s.wires ∧ (State.setBuf s k l).dmg = s.dmg ∧ (State.setBuf s k l).wq = s.wq ∧ (State.setBuf s k l).net = s.net ∧ (State.setBuf s k l).dbInval = s.dbInval ∧ (State.setBuf s k l).watch = s.watch ∧ (State.setBuf s k l).pkg = s.pkg ∧ (State.setBuf s k l).pmc = s.pmc ∧ (State.setBuf s k l).fwLog = s.fwLog ∧ (State.setBuf s k l).out = s.out ∧ (State.setBuf s k l).free = s.free ∧ (State.setBuf s k l).files = s.files := by
  generalize h : State.setBuf s k l = u
  unfold State.setBuf at h
  (try dsimp only at h); (repeat' split at h) <;> rw [← h] <;> simp [kept @State.fab_fr]

theorem State.arbGrant_fr (s : State) (t : Nat) (o : OutPort) (r : Nat) : (State.arbGrant s t o r).pending = s.pending ∧ (State.arbGrant s t o r).flash = s.flash ∧ (State.arbGrant s t o r).coldOpt = s.coldOpt ∧ (State.arbGrant s t o r).mem = s.mem ∧ (State.arbGrant s t o r).harts = s.harts ∧ (State.arbGrant s t o r).mram = s.mram ∧ (State.arbGrant s t o r).imsic = s.imsic ∧ (State.arbGrant s t o r).eng = s.eng ∧ (State.arbGrant s t o r).dm = s.dm ∧ (State.arbGrant s t o r).fx = s.fx ∧ (State.arbGrant s t o r).ctu = s.ctu ∧ (State.arbGrant s t o r).links = s.links ∧ (State.arbGrant s t o r).aplicS = s.aplicS ∧ (State.arbGrant s t o r).aplicN = s.aplicN ∧ (State.arbGrant s t o r).credits = s.credits ∧ (State.arbGrant s t o r).clusters = s.clusters ∧ (State.arbGrant s t o r).homes = s.homes ∧ (State.arbGrant s t o r).pkts = s.pkts ∧ (State.arbGrant s t o r).resp = s.resp ∧ (State.arbGrant s t o r).regs = s.regs ∧ (State.arbGrant s t o r).wires = s.wires ∧ (State.arbGrant s t o r).dmg = s.dmg ∧ (State.arbGrant s t o r).wq = s.wq ∧ (State.arbGrant s t o r).net = s.net ∧ (State.arbGrant s t o r).dbInval = s.dbInval ∧ (State.arbGrant s t o r).watch = s.watch ∧ (State.arbGrant s t o r).pkg = s.pkg ∧ (State.arbGrant s t o r).pmc = s.pmc ∧ (State.arbGrant s t o r).fwLog = s.fwLog ∧ (State.arbGrant s t o r).out = s.out ∧ (State.arbGrant s t o r).free = s.free ∧ (State.arbGrant s t o r).files = s.files := by
  generalize h : State.arbGrant s t o r = u
  unfold State.arbGrant at h
  (try dsimp only at h); (repeat' split at h) <;> rw [← h] <;> simp [kept @State.fab_fr]

theorem State.pass_fr (s : State) (t : Nat) (arr : Arrival) (o : OutPort) (f : Flit) (first : Nat) : (State.pass s t arr o f first).pending = s.pending ∧ (State.pass s t arr o f first).flash = s.flash ∧ (State.pass s t arr o f first).coldOpt = s.coldOpt ∧ (State.pass s t arr o f first).mem = s.mem ∧ (State.pass s t arr o f first).harts = s.harts ∧ (State.pass s t arr o f first).mram = s.mram ∧ (State.pass s t arr o f first).imsic = s.imsic ∧ (State.pass s t arr o f first).dm = s.dm ∧ (State.pass s t arr o f first).fx = s.fx ∧ (State.pass s t arr o f first).ctu = s.ctu ∧ (State.pass s t arr o f first).links = s.links ∧ (State.pass s t arr o f first).aplicS = s.aplicS ∧ (State.pass s t arr o f first).aplicN = s.aplicN ∧ (State.pass s t arr o f first).homes = s.homes ∧ (State.pass s t arr o f first).wires = s.wires ∧ (State.pass s t arr o f first).dmg = s.dmg ∧ (State.pass s t arr o f first).wq = s.wq ∧ (State.pass s t arr o f first).dbInval = s.dbInval ∧ (State.pass s t arr o f first).watch = s.watch ∧ (State.pass s t arr o f first).pkg = s.pkg ∧ (State.pass s t arr o f first).pmc = s.pmc ∧ (State.pass s t arr o f first).out = s.out ∧ (State.pass s t arr o f first).free = s.free ∧ (State.pass s t arr o f first).files = s.files := by
  generalize h : State.pass s t arr o f first = u
  unfold State.pass at h
  (try dsimp only at h); (repeat' split at h) <;> rw [← h] <;> simp [kept @State.answer_fr, kept @State.eject_fr, kept @State.fab_fr, kept @State.pmcStop_fr, kept @State.setBuf_fr]

@[simp] theorem State.forward_pending (s : State) (t : Nat) (arr : Arrival) (f : Flit) (first r : Nat) (take : State → State)
    (hk : ∀ s, (take s).pending = s.pending) : (s.forward t arr f first r take).pending = s.pending := by
  unfold State.forward
  split <;> simp [hk, kept @State.arbGrant_fr, kept @State.discard_fr, kept @State.pass_fr]

@[simp] theorem State.forward_files (s : State) (t : Nat) (arr : Arrival) (f : Flit) (first r : Nat) (take : State → State)
    (hk : ∀ s, (take s).files = s.files) : (s.forward t arr f first r take).files = s.files := by
  unfold State.forward
  split <;> simp [hk, kept @State.arbGrant_fr, kept @State.discard_fr, kept @State.pass_fr]

@[simp] theorem State.forward_flash (s : State) (t : Nat) (arr : Arrival) (f : Flit) (first r : Nat) (take : State → State)
    (hk : ∀ s, (take s).flash = s.flash) : (s.forward t arr f first r take).flash = s.flash := by
  unfold State.forward
  split <;> simp [hk, kept @State.arbGrant_fr, kept @State.discard_fr, kept @State.pass_fr]

@[simp] theorem State.forward_coldOpt (s : State) (t : Nat) (arr : Arrival) (f : Flit) (first r : Nat) (take : State → State)
    (hk : ∀ s, (take s).coldOpt = s.coldOpt) : (s.forward t arr f first r take).coldOpt = s.coldOpt := by
  unfold State.forward
  split <;> simp [hk, kept @State.arbGrant_fr, kept @State.discard_fr, kept @State.pass_fr]

@[simp] theorem State.forward_mem (s : State) (t : Nat) (arr : Arrival) (f : Flit) (first r : Nat) (take : State → State)
    (hk : ∀ s, (take s).mem = s.mem) : (s.forward t arr f first r take).mem = s.mem := by
  unfold State.forward
  split <;> simp [hk, kept @State.arbGrant_fr, kept @State.discard_fr, kept @State.pass_fr]

@[simp] theorem State.forward_harts (s : State) (t : Nat) (arr : Arrival) (f : Flit) (first r : Nat) (take : State → State)
    (hk : ∀ s, (take s).harts = s.harts) : (s.forward t arr f first r take).harts = s.harts := by
  unfold State.forward
  split <;> simp [hk, kept @State.arbGrant_fr, kept @State.discard_fr, kept @State.pass_fr]

@[simp] theorem State.forward_mram (s : State) (t : Nat) (arr : Arrival) (f : Flit) (first r : Nat) (take : State → State)
    (hk : ∀ s, (take s).mram = s.mram) : (s.forward t arr f first r take).mram = s.mram := by
  unfold State.forward
  split <;> simp [hk, kept @State.arbGrant_fr, kept @State.discard_fr, kept @State.pass_fr]

@[simp] theorem State.forward_imsic (s : State) (t : Nat) (arr : Arrival) (f : Flit) (first r : Nat) (take : State → State)
    (hk : ∀ s, (take s).imsic = s.imsic) : (s.forward t arr f first r take).imsic = s.imsic := by
  unfold State.forward
  split <;> simp [hk, kept @State.arbGrant_fr, kept @State.discard_fr, kept @State.pass_fr]

@[simp] theorem State.forward_dm (s : State) (t : Nat) (arr : Arrival) (f : Flit) (first r : Nat) (take : State → State)
    (hk : ∀ s, (take s).dm = s.dm) : (s.forward t arr f first r take).dm = s.dm := by
  unfold State.forward
  split <;> simp [hk, kept @State.arbGrant_fr, kept @State.discard_fr, kept @State.pass_fr]

@[simp] theorem State.forward_fx (s : State) (t : Nat) (arr : Arrival) (f : Flit) (first r : Nat) (take : State → State)
    (hk : ∀ s, (take s).fx = s.fx) : (s.forward t arr f first r take).fx = s.fx := by
  unfold State.forward
  split <;> simp [hk, kept @State.arbGrant_fr, kept @State.discard_fr, kept @State.pass_fr]

@[simp] theorem State.forward_ctu (s : State) (t : Nat) (arr : Arrival) (f : Flit) (first r : Nat) (take : State → State)
    (hk : ∀ s, (take s).ctu = s.ctu) : (s.forward t arr f first r take).ctu = s.ctu := by
  unfold State.forward
  split <;> simp [hk, kept @State.arbGrant_fr, kept @State.discard_fr, kept @State.pass_fr]

@[simp] theorem State.forward_links (s : State) (t : Nat) (arr : Arrival) (f : Flit) (first r : Nat) (take : State → State)
    (hk : ∀ s, (take s).links = s.links) : (s.forward t arr f first r take).links = s.links := by
  unfold State.forward
  split <;> simp [hk, kept @State.arbGrant_fr, kept @State.discard_fr, kept @State.pass_fr]

@[simp] theorem State.forward_aplicS (s : State) (t : Nat) (arr : Arrival) (f : Flit) (first r : Nat) (take : State → State)
    (hk : ∀ s, (take s).aplicS = s.aplicS) : (s.forward t arr f first r take).aplicS = s.aplicS := by
  unfold State.forward
  split <;> simp [hk, kept @State.arbGrant_fr, kept @State.discard_fr, kept @State.pass_fr]

@[simp] theorem State.forward_aplicN (s : State) (t : Nat) (arr : Arrival) (f : Flit) (first r : Nat) (take : State → State)
    (hk : ∀ s, (take s).aplicN = s.aplicN) : (s.forward t arr f first r take).aplicN = s.aplicN := by
  unfold State.forward
  split <;> simp [hk, kept @State.arbGrant_fr, kept @State.discard_fr, kept @State.pass_fr]

@[simp] theorem State.forward_homes (s : State) (t : Nat) (arr : Arrival) (f : Flit) (first r : Nat) (take : State → State)
    (hk : ∀ s, (take s).homes = s.homes) : (s.forward t arr f first r take).homes = s.homes := by
  unfold State.forward
  split <;> simp [hk, kept @State.arbGrant_fr, kept @State.discard_fr, kept @State.pass_fr]

@[simp] theorem State.forward_dmg (s : State) (t : Nat) (arr : Arrival) (f : Flit) (first r : Nat) (take : State → State)
    (hk : ∀ s, (take s).dmg = s.dmg) : (s.forward t arr f first r take).dmg = s.dmg := by
  unfold State.forward
  split <;> simp [hk, kept @State.arbGrant_fr, kept @State.discard_fr, kept @State.pass_fr]

@[simp] theorem State.forward_wq (s : State) (t : Nat) (arr : Arrival) (f : Flit) (first r : Nat) (take : State → State)
    (hk : ∀ s, (take s).wq = s.wq) : (s.forward t arr f first r take).wq = s.wq := by
  unfold State.forward
  split <;> simp [hk, kept @State.arbGrant_fr, kept @State.discard_fr, kept @State.pass_fr]

@[simp] theorem State.forward_dbInval (s : State) (t : Nat) (arr : Arrival) (f : Flit) (first r : Nat) (take : State → State)
    (hk : ∀ s, (take s).dbInval = s.dbInval) : (s.forward t arr f first r take).dbInval = s.dbInval := by
  unfold State.forward
  split <;> simp [hk, kept @State.arbGrant_fr, kept @State.discard_fr, kept @State.pass_fr]

@[simp] theorem State.forward_watch (s : State) (t : Nat) (arr : Arrival) (f : Flit) (first r : Nat) (take : State → State)
    (hk : ∀ s, (take s).watch = s.watch) : (s.forward t arr f first r take).watch = s.watch := by
  unfold State.forward
  split <;> simp [hk, kept @State.arbGrant_fr, kept @State.discard_fr, kept @State.pass_fr]

@[simp] theorem State.forward_pkg (s : State) (t : Nat) (arr : Arrival) (f : Flit) (first r : Nat) (take : State → State)
    (hk : ∀ s, (take s).pkg = s.pkg) : (s.forward t arr f first r take).pkg = s.pkg := by
  unfold State.forward
  split <;> simp [hk, kept @State.arbGrant_fr, kept @State.discard_fr, kept @State.pass_fr]

@[simp] theorem State.forward_pmc (s : State) (t : Nat) (arr : Arrival) (f : Flit) (first r : Nat) (take : State → State)
    (hk : ∀ s, (take s).pmc = s.pmc) : (s.forward t arr f first r take).pmc = s.pmc := by
  unfold State.forward
  split <;> simp [hk, kept @State.arbGrant_fr, kept @State.discard_fr, kept @State.pass_fr]

@[simp] theorem State.forward_out (s : State) (t : Nat) (arr : Arrival) (f : Flit) (first r : Nat) (take : State → State)
    (hk : ∀ s, (take s).out = s.out) : (s.forward t arr f first r take).out = s.out := by
  unfold State.forward
  split <;> simp [hk, kept @State.arbGrant_fr, kept @State.discard_fr, kept @State.pass_fr]

@[simp] theorem State.forward_free (s : State) (t : Nat) (arr : Arrival) (f : Flit) (first r : Nat) (take : State → State)
    (hk : ∀ s, (take s).free = s.free) : (s.forward t arr f first r take).free = s.free := by
  unfold State.forward
  split <;> simp [hk, kept @State.arbGrant_fr, kept @State.discard_fr, kept @State.pass_fr]

theorem State.linkRecord_fr (s : State) (uu : Nat) (k : Nat) (cls : Nat) (f : Flit) : (State.linkRecord s uu k cls f).pending = s.pending ∧ (State.linkRecord s uu k cls f).flash = s.flash ∧ (State.linkRecord s uu k cls f).coldOpt = s.coldOpt ∧ (State.linkRecord s uu k cls f).mem = s.mem ∧ (State.linkRecord s uu k cls f).harts = s.harts ∧ (State.linkRecord s uu k cls f).imsic = s.imsic ∧ (State.linkRecord s uu k cls f).eng = s.eng ∧ (State.linkRecord s uu k cls f).dm = s.dm ∧ (State.linkRecord s uu k cls f).fx = s.fx ∧ (State.linkRecord s uu k cls f).ctu = s.ctu ∧ (State.linkRecord s uu k cls f).links = s.links ∧ (State.linkRecord s uu k cls f).aplicS = s.aplicS ∧ (State.linkRecord s uu k cls f).aplicN = s.aplicN ∧ (State.linkRecord s uu k cls f).credits = s.credits ∧ (State.linkRecord s uu k cls f).clusters = s.clusters ∧ (State.linkRecord s uu k cls f).homes = s.homes ∧ (State.linkRecord s uu k cls f).pkts = s.pkts ∧ (State.linkRecord s uu k cls f).resp = s.resp ∧ (State.linkRecord s uu k cls f).wires = s.wires ∧ (State.linkRecord s uu k cls f).dmg = s.dmg ∧ (State.linkRecord s uu k cls f).wq = s.wq ∧ (State.linkRecord s uu k cls f).net = s.net ∧ (State.linkRecord s uu k cls f).dbInval = s.dbInval ∧ (State.linkRecord s uu k cls f).watch = s.watch ∧ (State.linkRecord s uu k cls f).pkg = s.pkg ∧ (State.linkRecord s uu k cls f).fwLog = s.fwLog ∧ (State.linkRecord s uu k cls f).out = s.out ∧ (State.linkRecord s uu k cls f).free = s.free ∧ (State.linkRecord s uu k cls f).fabric = s.fabric ∧ (State.linkRecord s uu k cls f).files = s.files := by
  generalize h : State.linkRecord s uu k cls f = u
  unfold State.linkRecord at h
  (try dsimp only at h); (repeat' split at h) <;> rw [← h] <;> simp [kept @State.recordErr_fr]

theorem State.closeWith_fr (s : State) (k : Nat) (g : Flit) : (State.closeWith s k g).pending = s.pending ∧ (State.closeWith s k g).flash = s.flash ∧ (State.closeWith s k g).coldOpt = s.coldOpt ∧ (State.closeWith s k g).mem = s.mem ∧ (State.closeWith s k g).harts = s.harts ∧ (State.closeWith s k g).mram = s.mram ∧ (State.closeWith s k g).imsic = s.imsic ∧ (State.closeWith s k g).eng = s.eng ∧ (State.closeWith s k g).dm = s.dm ∧ (State.closeWith s k g).fx = s.fx ∧ (State.closeWith s k g).ctu = s.ctu ∧ (State.closeWith s k g).links = s.links ∧ (State.closeWith s k g).aplicS = s.aplicS ∧ (State.closeWith s k g).aplicN = s.aplicN ∧ (State.closeWith s k g).credits = s.credits ∧ (State.closeWith s k g).clusters = s.clusters ∧ (State.closeWith s k g).homes = s.homes ∧ (State.closeWith s k g).pkts = s.pkts ∧ (State.closeWith s k g).resp = s.resp ∧ (State.closeWith s k g).regs = s.regs ∧ (State.closeWith s k g).wires = s.wires ∧ (State.closeWith s k g).dmg = s.dmg ∧ (State.closeWith s k g).wq = s.wq ∧ (State.closeWith s k g).net = s.net ∧ (State.closeWith s k g).dbInval = s.dbInval ∧ (State.closeWith s k g).watch = s.watch ∧ (State.closeWith s k g).pkg = s.pkg ∧ (State.closeWith s k g).pmc = s.pmc ∧ (State.closeWith s k g).fwLog = s.fwLog ∧ (State.closeWith s k g).out = s.out ∧ (State.closeWith s k g).free = s.free ∧ (State.closeWith s k g).files = s.files := by
  generalize h : State.closeWith s k g = u
  unfold State.closeWith at h
  (try dsimp only at h); (repeat' split at h) <;> rw [← h] <;> simp [kept @State.fab_fr, kept @State.setBuf_fr]

theorem State.linkDead_fr (s : State) (uu : Nat) (k : Nat) (t : Nat) (f : Flit) : (State.linkDead s uu k t f).pending = s.pending ∧ (State.linkDead s uu k t f).flash = s.flash ∧ (State.linkDead s uu k t f).coldOpt = s.coldOpt ∧ (State.linkDead s uu k t f).free = s.free := by
  generalize h : State.linkDead s uu k t f = u
  unfold State.linkDead at h
  (try dsimp only at h); (repeat' split at h) <;> rw [← h] <;> simp [kept @State.closeWith_fr, kept @State.discard_fr, kept @State.fab_fr, kept @State.fatalPkg_fr, kept @State.linkRecord_fr, kept @State.setBuf_fr, kept @State.wr_fr]

theorem State.linkReplay_fr (s : State) (uu : Nat) (k : Nat) (t : Nat) (many : Bool) (f : Flit) : (State.linkReplay s uu k t many f).pending = s.pending ∧ (State.linkReplay s uu k t many f).flash = s.flash ∧ (State.linkReplay s uu k t many f).coldOpt = s.coldOpt ∧ (State.linkReplay s uu k t many f).free = s.free := by
  generalize h : State.linkReplay s uu k t many f = u
  unfold State.linkReplay at h
  (try dsimp only at h); (repeat' split at h) <;> rw [← h] <;> simp [kept @State.answer_fr, kept @State.fab_fr, kept @State.linkDead_fr, kept @State.linkRecord_fr]

theorem execFlitRoute_fr (t : Fin 64) (arr : Crossing) (f : Flit) (first : Nat) (s : State) {u : State} (h : execFlitRoute t arr f first s = .next u) : u.pending = s.pending ∧ u.flash = s.flash ∧ u.coldOpt = s.coldOpt ∧ u.free = s.free := by
  unfold execFlitRoute at h
  (try dsimp only at h); (repeat' split at h) <;> (first | (simp only [Host.Outcome.next.injEq] at h; rw [← h]) | (simp only [reduceCtorEq] at h; done) | (simp only [Option.some.injEq] at h; rw [← h])) <;> simp [kept @State.fab_fr, kept @State.injected_fr, kept @State.linkRecord_fr, kept @State.linkReplay_fr, kept @State.setBuf_fr]

theorem execGrantHoldCutoff_fr (t : Fin 64) (f : Flit) (s : State) {u : State} (h : execGrantHoldCutoff t f s = .next u) : u.pending = s.pending ∧ u.flash = s.flash ∧ u.coldOpt = s.coldOpt ∧ u.mem = s.mem ∧ u.harts = s.harts ∧ u.mram = s.mram ∧ u.imsic = s.imsic ∧ u.dm = s.dm ∧ u.fx = s.fx ∧ u.ctu = s.ctu ∧ u.links = s.links ∧ u.aplicS = s.aplicS ∧ u.aplicN = s.aplicN ∧ u.homes = s.homes ∧ u.dmg = s.dmg ∧ u.wq = s.wq ∧ u.dbInval = s.dbInval ∧ u.watch = s.watch ∧ u.pkg = s.pkg ∧ u.pmc = s.pmc ∧ u.out = s.out ∧ u.free = s.free ∧ u.files = s.files := by
  unfold execGrantHoldCutoff at h
  (try dsimp only at h); (repeat' split at h) <;> (first | (simp only [Host.Outcome.next.injEq] at h; rw [← h]) | (simp only [reduceCtorEq] at h; done) | (simp only [Option.some.injEq] at h; rw [← h])) <;> simp [kept @State.closeWith_fr, kept @State.cutRecord_fr, kept @State.eject_fr, kept @State.fab_fr]

theorem execCfgHoldCutoff_fr (t : Fin 64) (hh : Fin 216) (tag : Nat) (s : State) {u : State} (h : execCfgHoldCutoff t hh tag s = .next u) : u.pending = s.pending ∧ u.flash = s.flash ∧ u.coldOpt = s.coldOpt ∧ u.mem = s.mem ∧ u.harts = s.harts ∧ u.mram = s.mram ∧ u.imsic = s.imsic ∧ u.eng = s.eng ∧ u.dm = s.dm ∧ u.fx = s.fx ∧ u.ctu = s.ctu ∧ u.links = s.links ∧ u.aplicS = s.aplicS ∧ u.aplicN = s.aplicN ∧ u.credits = s.credits ∧ u.clusters = s.clusters ∧ u.homes = s.homes ∧ u.pkts = s.pkts ∧ u.resp = s.resp ∧ u.dmg = s.dmg ∧ u.wq = s.wq ∧ u.dbInval = s.dbInval ∧ u.watch = s.watch ∧ u.pkg = s.pkg ∧ u.pmc = s.pmc ∧ u.out = s.out ∧ u.free = s.free ∧ u.fabric = s.fabric ∧ u.files = s.files := by
  unfold execCfgHoldCutoff at h
  (try dsimp only at h); (repeat' split at h) <;> (first | (simp only [Host.Outcome.next.injEq] at h; rw [← h]) | (simp only [reduceCtorEq] at h; done) | (simp only [Option.some.injEq] at h; rw [← h])) <;> simp [kept @State.cutRecord_fr, kept @State.logFw_fr, kept @State.post_fr]

theorem execCredit_fr (sender : Fin 64) (receiver : Fin 64) (stage : Nat) (s : State) {u : State} (h : execCredit sender receiver stage s = .next u) : u.pending = s.pending ∧ u.flash = s.flash ∧ u.coldOpt = s.coldOpt ∧ u.mem = s.mem ∧ u.harts = s.harts ∧ u.mram = s.mram ∧ u.imsic = s.imsic ∧ u.eng = s.eng ∧ u.dm = s.dm ∧ u.fx = s.fx ∧ u.ctu = s.ctu ∧ u.links = s.links ∧ u.aplicS = s.aplicS ∧ u.aplicN = s.aplicN ∧ u.clusters = s.clusters ∧ u.homes = s.homes ∧ u.pkts = s.pkts ∧ u.resp = s.resp ∧ u.regs = s.regs ∧ u.wires = s.wires ∧ u.dmg = s.dmg ∧ u.wq = s.wq ∧ u.net = s.net ∧ u.dbInval = s.dbInval ∧ u.watch = s.watch ∧ u.pkg = s.pkg ∧ u.pmc = s.pmc ∧ u.fwLog = s.fwLog ∧ u.out = s.out ∧ u.free = s.free ∧ u.fabric = s.fabric ∧ u.files = s.files := by
  unfold execCredit at h
  (first | (simp only [Host.Outcome.next.injEq] at h; rw [← h]) | (simp only [reduceCtorEq] at h; done) | (simp only [Option.some.injEq] at h; rw [← h])); simp [kept @State.giveCredit_fr]

theorem State.ioFails_fr (s : State) (hh : Nat) : (State.ioFails s hh).pending = s.pending ∧ (State.ioFails s hh).flash = s.flash ∧ (State.ioFails s hh).coldOpt = s.coldOpt ∧ (State.ioFails s hh).imsic = s.imsic ∧ (State.ioFails s hh).eng = s.eng ∧ (State.ioFails s hh).dm = s.dm ∧ (State.ioFails s hh).fx = s.fx ∧ (State.ioFails s hh).ctu = s.ctu ∧ (State.ioFails s hh).links = s.links ∧ (State.ioFails s hh).aplicS = s.aplicS ∧ (State.ioFails s hh).aplicN = s.aplicN ∧ (State.ioFails s hh).credits = s.credits ∧ (State.ioFails s hh).pkts = s.pkts ∧ (State.ioFails s hh).resp = s.resp ∧ (State.ioFails s hh).out = s.out ∧ (State.ioFails s hh).fabric = s.fabric ∧ (State.ioFails s hh).files = s.files := by
  generalize h : State.ioFails s hh = u
  unfold State.ioFails at h
  (try dsimp only at h); (repeat' split at h) <;> rw [← h] <;> simp [kept @State.except_fr, kept @State.freeHeld_fr, kept @State.setHart_fr]

theorem State.chanFails_fr (s : State) (n : Nat) : (State.chanFails s n).pending = s.pending ∧ (State.chanFails s n).flash = s.flash ∧ (State.chanFails s n).coldOpt = s.coldOpt ∧ (State.chanFails s n).imsic = s.imsic ∧ (State.chanFails s n).eng = s.eng ∧ (State.chanFails s n).fx = s.fx ∧ (State.chanFails s n).ctu = s.ctu ∧ (State.chanFails s n).links = s.links ∧ (State.chanFails s n).aplicS = s.aplicS ∧ (State.chanFails s n).aplicN = s.aplicN ∧ (State.chanFails s n).credits = s.credits ∧ (State.chanFails s n).pkts = s.pkts ∧ (State.chanFails s n).resp = s.resp ∧ (State.chanFails s n).out = s.out ∧ (State.chanFails s n).free = s.free ∧ (State.chanFails s n).fabric = s.fabric ∧ (State.chanFails s n).files = s.files := by
  generalize h : State.chanFails s n = u
  unfold State.chanFails at h
  (try dsimp only at h); (repeat' split at h) <;> rw [← h] <;> simp [kept @State.closeRefused_fr, kept @State.dmDrop_fr, kept @State.dmNext_fr]

theorem State.takeErr_fr (s : State) (code : Nat) (a : Nat) : (State.takeErr s code a).pending = s.pending ∧ (State.takeErr s code a).flash = s.flash ∧ (State.takeErr s code a).coldOpt = s.coldOpt ∧ (State.takeErr s code a).mem = s.mem ∧ (State.takeErr s code a).harts = s.harts ∧ (State.takeErr s code a).mram = s.mram ∧ (State.takeErr s code a).imsic = s.imsic ∧ (State.takeErr s code a).eng = s.eng ∧ (State.takeErr s code a).dm = s.dm ∧ (State.takeErr s code a).fx = s.fx ∧ (State.takeErr s code a).ctu = s.ctu ∧ (State.takeErr s code a).links = s.links ∧ (State.takeErr s code a).aplicS = s.aplicS ∧ (State.takeErr s code a).aplicN = s.aplicN ∧ (State.takeErr s code a).credits = s.credits ∧ (State.takeErr s code a).clusters = s.clusters ∧ (State.takeErr s code a).homes = s.homes ∧ (State.takeErr s code a).pkts = s.pkts ∧ (State.takeErr s code a).resp = s.resp ∧ (State.takeErr s code a).regs = s.regs ∧ (State.takeErr s code a).wires = s.wires ∧ (State.takeErr s code a).dmg = s.dmg ∧ (State.takeErr s code a).wq = s.wq ∧ (State.takeErr s code a).dbInval = s.dbInval ∧ (State.takeErr s code a).watch = s.watch ∧ (State.takeErr s code a).pkg = s.pkg ∧ (State.takeErr s code a).pmc = s.pmc ∧ (State.takeErr s code a).fwLog = s.fwLog ∧ (State.takeErr s code a).out = s.out ∧ (State.takeErr s code a).free = s.free ∧ (State.takeErr s code a).fabric = s.fabric ∧ (State.takeErr s code a).files = s.files := by
  generalize h : State.takeErr s code a = u
  unfold State.takeErr at h
  (try dsimp only at h); (repeat' split at h) <;> rw [← h] <;> simp

theorem execRspError_fr (x : ErrTarget) (code : Nat) (s : State) {u : State} (h : execRspError x code s = .next u) : u.pending = s.pending ∧ u.flash = s.flash ∧ u.coldOpt = s.coldOpt ∧ u.imsic = s.imsic ∧ u.fx = s.fx ∧ u.ctu = s.ctu ∧ u.links = s.links ∧ u.aplicS = s.aplicS ∧ u.aplicN = s.aplicN ∧ u.credits = s.credits ∧ u.pkts = s.pkts ∧ u.resp = s.resp ∧ u.fabric = s.fabric ∧ u.files = s.files := by
  unfold execRspError at h
  (try dsimp only at h); (repeat' split at h) <;> (first | (simp only [Host.Outcome.next.injEq] at h; rw [← h]) | (simp only [reduceCtorEq] at h; done) | (simp only [Option.some.injEq] at h; rw [← h])) <;> simp [kept @State.chanFails_fr, kept @State.failTask_fr, kept @State.ioFails_fr, kept @State.reqFails_fr, kept @State.send_fr, kept @State.takeErr_fr]

theorem State.timedOut_fr (s : State) (r : ErrRec) (cls : Nat) (who : Ident) (ln : Nat) : (State.timedOut s r cls who ln).pending = s.pending ∧ (State.timedOut s r cls who ln).flash = s.flash ∧ (State.timedOut s r cls who ln).coldOpt = s.coldOpt ∧ (State.timedOut s r cls who ln).mem = s.mem ∧ (State.timedOut s r cls who ln).harts = s.harts ∧ (State.timedOut s r cls who ln).imsic = s.imsic ∧ (State.timedOut s r cls who ln).eng = s.eng ∧ (State.timedOut s r cls who ln).dm = s.dm ∧ (State.timedOut s r cls who ln).fx = s.fx ∧ (State.timedOut s r cls who ln).ctu = s.ctu ∧ (State.timedOut s r cls who ln).links = s.links ∧ (State.timedOut s r cls who ln).aplicS = s.aplicS ∧ (State.timedOut s r cls who ln).aplicN = s.aplicN ∧ (State.timedOut s r cls who ln).credits = s.credits ∧ (State.timedOut s r cls who ln).clusters = s.clusters ∧ (State.timedOut s r cls who ln).homes = s.homes ∧ (State.timedOut s r cls who ln).pkts = s.pkts ∧ (State.timedOut s r cls who ln).resp = s.resp ∧ (State.timedOut s r cls who ln).wires = s.wires ∧ (State.timedOut s r cls who ln).dmg = s.dmg ∧ (State.timedOut s r cls who ln).wq = s.wq ∧ (State.timedOut s r cls who ln).net = s.net ∧ (State.timedOut s r cls who ln).dbInval = s.dbInval ∧ (State.timedOut s r cls who ln).watch = s.watch ∧ (State.timedOut s r cls who ln).pkg = s.pkg ∧ (State.timedOut s r cls who ln).fwLog = s.fwLog ∧ (State.timedOut s r cls who ln).out = s.out ∧ (State.timedOut s r cls who ln).free = s.free ∧ (State.timedOut s r cls who ln).fabric = s.fabric ∧ (State.timedOut s r cls who ln).files = s.files := by
  generalize h : State.timedOut s r cls who ln = u
  unfold State.timedOut at h
  rw [← h]; simp [kept @State.recordErr_fr]

theorem State.answerTimeout_fr (s : State) (x : ErrTarget) : (State.answerTimeout s x).pending = s.pending ∧ (State.answerTimeout s x).flash = s.flash ∧ (State.answerTimeout s x).coldOpt = s.coldOpt ∧ (State.answerTimeout s x).imsic = s.imsic ∧ (State.answerTimeout s x).fx = s.fx ∧ (State.answerTimeout s x).ctu = s.ctu ∧ (State.answerTimeout s x).links = s.links ∧ (State.answerTimeout s x).aplicS = s.aplicS ∧ (State.answerTimeout s x).aplicN = s.aplicN ∧ (State.answerTimeout s x).credits = s.credits ∧ (State.answerTimeout s x).pkts = s.pkts ∧ (State.answerTimeout s x).resp = s.resp ∧ (State.answerTimeout s x).fabric = s.fabric ∧ (State.answerTimeout s x).files = s.files := by
  generalize h : State.answerTimeout s x = u
  unfold State.answerTimeout at h
  (try dsimp only at h); (repeat' split at h) <;> rw [← h] <;> simp [kept @State.chanFails_fr, kept @State.failTask_fr, kept @State.ioFails_fr, kept @State.reqFails_fr, kept @State.send_fr, kept @State.timedOut_fr]

theorem execTransactionTimeout_fr (x : Awaited) (s : State) {u : State} (h : execTransactionTimeout x s = .next u) : u.pending = s.pending ∧ u.flash = s.flash ∧ u.coldOpt = s.coldOpt ∧ u.resp = s.resp := by
  unfold execTransactionTimeout at h
  (try dsimp only at h); (repeat' split at h) <;> (first | (simp only [Host.Outcome.next.injEq] at h; rw [← h]) | (simp only [reduceCtorEq] at h; done) | (simp only [Option.some.injEq] at h; rw [← h])) <;> simp [kept @State.answerTimeout_fr, kept @State.fatalPkg_fr, kept @State.fenceCluster_fr, kept @State.memData_fr, kept @State.snoopAnswer_fr, kept @State.timedOut_fr]

end Sys2Proof.Machine
end

