-- ==== Sys2Proof/Laws/Frame/HartCmds.lean ====
section
/-! SUPPORT. What the operations of Machine/HartCmds.lean leave unchanged. -/

set_option Elab.async false
set_option linter.all false

namespace Sys2Proof.Machine
open Sys2Proof

@[simp] theorem State.instr_pending (s : State) (hh : Nat) (f : State → State) (hf : ∀ x0, (f x0).pending = x0.pending) : (State.instr s hh f).pending = s.pending := by
  unfold State.instr
  first
  | (simp [*, kept @State.freeHeld_fr, kept @State.setHart_fr, kept @State.trigFires_fr]; done)
  | ((repeat' split) <;> simp [*, kept @State.freeHeld_fr, kept @State.setHart_fr, kept @State.trigFires_fr]; done)
  | ((try dsimp only); (repeat' split) <;> simp (disch := (intros; (repeat' split) <;> simp [*, kept @State.freeHeld_fr, kept @State.setHart_fr, kept @State.trigFires_fr])) [*, kept @State.freeHeld_fr, kept @State.setHart_fr, kept @State.trigFires_fr]; done)
  | (refine State.taskDo_pending _ _ _ (fun _ => ?_); (repeat' split) <;> first | exact keepsM_pure _ _ | (simp [*, kept @State.freeHeld_fr, kept @State.setHart_fr, kept @State.trigFires_fr]; done))

@[simp] theorem State.instr_files (s : State) (hh : Nat) (f : State → State) (hf : ∀ x0, (f x0).files = x0.files) : (State.instr s hh f).files = s.files := by
  unfold State.instr
  first
  | (simp [*, kept @State.freeHeld_fr, kept @State.setHart_fr, kept @State.trigFires_fr]; done)
  | ((repeat' split) <;> simp [*, kept @State.freeHeld_fr, kept @State.setHart_fr, kept @State.trigFires_fr]; done)
  | ((try dsimp only); (repeat' split) <;> simp (disch := (intros; (repeat' split) <;> simp [*, kept @State.freeHeld_fr, kept @State.setHart_fr, kept @State.trigFires_fr])) [*, kept @State.freeHeld_fr, kept @State.setHart_fr, kept @State.trigFires_fr]; done)
  | (refine State.taskDo_files _ _ _ (fun _ => ?_); (repeat' split) <;> first | exact keepsM_pure _ _ | (simp [*, kept @State.freeHeld_fr, kept @State.setHart_fr, kept @State.trigFires_fr]; done))

@[simp] theorem State.instr_fabric (s : State) (hh : Nat) (f : State → State) (hf : ∀ x0, (f x0).fabric = x0.fabric) : (State.instr s hh f).fabric = s.fabric := by
  unfold State.instr
  first
  | (simp [*, kept @State.freeHeld_fr, kept @State.setHart_fr, kept @State.trigFires_fr]; done)
  | ((repeat' split) <;> simp [*, kept @State.freeHeld_fr, kept @State.setHart_fr, kept @State.trigFires_fr]; done)
  | ((try dsimp only); (repeat' split) <;> simp (disch := (intros; (repeat' split) <;> simp [*, kept @State.freeHeld_fr, kept @State.setHart_fr, kept @State.trigFires_fr])) [*, kept @State.freeHeld_fr, kept @State.setHart_fr, kept @State.trigFires_fr]; done)
  | (refine State.taskDo_fabric _ _ _ (fun _ => ?_); (repeat' split) <;> first | exact keepsM_pure _ _ | (simp [*, kept @State.freeHeld_fr, kept @State.setHart_fr, kept @State.trigFires_fr]; done))

@[simp] theorem State.instr_flash (s : State) (hh : Nat) (f : State → State) (hf : ∀ x0, (f x0).flash = x0.flash) : (State.instr s hh f).flash = s.flash := by
  unfold State.instr
  first
  | (simp [*, kept @State.freeHeld_fr, kept @State.setHart_fr, kept @State.trigFires_fr]; done)
  | ((repeat' split) <;> simp [*, kept @State.freeHeld_fr, kept @State.setHart_fr, kept @State.trigFires_fr]; done)
  | ((try dsimp only); (repeat' split) <;> simp (disch := (intros; (repeat' split) <;> simp [*, kept @State.freeHeld_fr, kept @State.setHart_fr, kept @State.trigFires_fr])) [*, kept @State.freeHeld_fr, kept @State.setHart_fr, kept @State.trigFires_fr]; done)
  | (refine State.taskDo_flash _ _ _ (fun _ => ?_); (repeat' split) <;> first | exact keepsM_pure _ _ | (simp [*, kept @State.freeHeld_fr, kept @State.setHart_fr, kept @State.trigFires_fr]; done))

@[simp] theorem State.instr_coldOpt (s : State) (hh : Nat) (f : State → State) (hf : ∀ x0, (f x0).coldOpt = x0.coldOpt) : (State.instr s hh f).coldOpt = s.coldOpt := by
  unfold State.instr
  first
  | (simp [*, kept @State.freeHeld_fr, kept @State.setHart_fr, kept @State.trigFires_fr]; done)
  | ((repeat' split) <;> simp [*, kept @State.freeHeld_fr, kept @State.setHart_fr, kept @State.trigFires_fr]; done)
  | ((try dsimp only); (repeat' split) <;> simp (disch := (intros; (repeat' split) <;> simp [*, kept @State.freeHeld_fr, kept @State.setHart_fr, kept @State.trigFires_fr])) [*, kept @State.freeHeld_fr, kept @State.setHart_fr, kept @State.trigFires_fr]; done)
  | (refine State.taskDo_coldOpt _ _ _ (fun _ => ?_); (repeat' split) <;> first | exact keepsM_pure _ _ | (simp [*, kept @State.freeHeld_fr, kept @State.setHart_fr, kept @State.trigFires_fr]; done))

@[simp] theorem State.instr_mem (s : State) (hh : Nat) (f : State → State) (hf : ∀ x0, (f x0).mem = x0.mem) : (State.instr s hh f).mem = s.mem := by
  unfold State.instr
  first
  | (simp [*, kept @State.freeHeld_fr, kept @State.setHart_fr, kept @State.trigFires_fr]; done)
  | ((repeat' split) <;> simp [*, kept @State.freeHeld_fr, kept @State.setHart_fr, kept @State.trigFires_fr]; done)
  | ((try dsimp only); (repeat' split) <;> simp (disch := (intros; (repeat' split) <;> simp [*, kept @State.freeHeld_fr, kept @State.setHart_fr, kept @State.trigFires_fr])) [*, kept @State.freeHeld_fr, kept @State.setHart_fr, kept @State.trigFires_fr]; done)
  | (refine State.taskDo_mem _ _ _ (fun _ => ?_); (repeat' split) <;> first | exact keepsM_pure _ _ | (simp [*, kept @State.freeHeld_fr, kept @State.setHart_fr, kept @State.trigFires_fr]; done))

@[simp] theorem State.instr_mram (s : State) (hh : Nat) (f : State → State) (hf : ∀ x0, (f x0).mram = x0.mram) : (State.instr s hh f).mram = s.mram := by
  unfold State.instr
  first
  | (simp [*, kept @State.freeHeld_fr, kept @State.setHart_fr, kept @State.trigFires_fr]; done)
  | ((repeat' split) <;> simp [*, kept @State.freeHeld_fr, kept @State.setHart_fr, kept @State.trigFires_fr]; done)
  | ((try dsimp only); (repeat' split) <;> simp (disch := (intros; (repeat' split) <;> simp [*, kept @State.freeHeld_fr, kept @State.setHart_fr, kept @State.trigFires_fr])) [*, kept @State.freeHeld_fr, kept @State.setHart_fr, kept @State.trigFires_fr]; done)
  | (refine State.taskDo_mram _ _ _ (fun _ => ?_); (repeat' split) <;> first | exact keepsM_pure _ _ | (simp [*, kept @State.freeHeld_fr, kept @State.setHart_fr, kept @State.trigFires_fr]; done))

@[simp] theorem State.instr_imsic (s : State) (hh : Nat) (f : State → State) (hf : ∀ x0, (f x0).imsic = x0.imsic) : (State.instr s hh f).imsic = s.imsic := by
  unfold State.instr
  first
  | (simp [*, kept @State.freeHeld_fr, kept @State.setHart_fr, kept @State.trigFires_fr]; done)
  | ((repeat' split) <;> simp [*, kept @State.freeHeld_fr, kept @State.setHart_fr, kept @State.trigFires_fr]; done)
  | ((try dsimp only); (repeat' split) <;> simp (disch := (intros; (repeat' split) <;> simp [*, kept @State.freeHeld_fr, kept @State.setHart_fr, kept @State.trigFires_fr])) [*, kept @State.freeHeld_fr, kept @State.setHart_fr, kept @State.trigFires_fr]; done)
  | (refine State.taskDo_imsic _ _ _ (fun _ => ?_); (repeat' split) <;> first | exact keepsM_pure _ _ | (simp [*, kept @State.freeHeld_fr, kept @State.setHart_fr, kept @State.trigFires_fr]; done))

@[simp] theorem State.instr_eng (s : State) (hh : Nat) (f : State → State) (hf : ∀ x0, (f x0).eng = x0.eng) : (State.instr s hh f).eng = s.eng := by
  unfold State.instr
  first
  | (simp [*, kept @State.freeHeld_fr, kept @State.setHart_fr, kept @State.trigFires_fr]; done)
  | ((repeat' split) <;> simp [*, kept @State.freeHeld_fr, kept @State.setHart_fr, kept @State.trigFires_fr]; done)
  | ((try dsimp only); (repeat' split) <;> simp (disch := (intros; (repeat' split) <;> simp [*, kept @State.freeHeld_fr, kept @State.setHart_fr, kept @State.trigFires_fr])) [*, kept @State.freeHeld_fr, kept @State.setHart_fr, kept @State.trigFires_fr]; done)
  | (refine State.taskDo_eng _ _ _ (fun _ => ?_); (repeat' split) <;> first | exact keepsM_pure _ _ | (simp [*, kept @State.freeHeld_fr, kept @State.setHart_fr, kept @State.trigFires_fr]; done))

@[simp] theorem State.instr_dm (s : State) (hh : Nat) (f : State → State) (hf : ∀ x0, (f x0).dm = x0.dm) : (State.instr s hh f).dm = s.dm := by
  unfold State.instr
  first
  | (simp [*, kept @State.freeHeld_fr, kept @State.setHart_fr, kept @State.trigFires_fr]; done)
  | ((repeat' split) <;> simp [*, kept @State.freeHeld_fr, kept @State.setHart_fr, kept @State.trigFires_fr]; done)
  | ((try dsimp only); (repeat' split) <;> simp (disch := (intros; (repeat' split) <;> simp [*, kept @State.freeHeld_fr, kept @State.setHart_fr, kept @State.trigFires_fr])) [*, kept @State.freeHeld_fr, kept @State.setHart_fr, kept @State.trigFires_fr]; done)
  | (refine State.taskDo_dm _ _ _ (fun _ => ?_); (repeat' split) <;> first | exact keepsM_pure _ _ | (simp [*, kept @State.freeHeld_fr, kept @State.setHart_fr, kept @State.trigFires_fr]; done))

@[simp] theorem State.instr_fx (s : State) (hh : Nat) (f : State → State) (hf : ∀ x0, (f x0).fx = x0.fx) : (State.instr s hh f).fx = s.fx := by
  unfold State.instr
  first
  | (simp [*, kept @State.freeHeld_fr, kept @State.setHart_fr, kept @State.trigFires_fr]; done)
  | ((repeat' split) <;> simp [*, kept @State.freeHeld_fr, kept @State.setHart_fr, kept @State.trigFires_fr]; done)
  | ((try dsimp only); (repeat' split) <;> simp (disch := (intros; (repeat' split) <;> simp [*, kept @State.freeHeld_fr, kept @State.setHart_fr, kept @State.trigFires_fr])) [*, kept @State.freeHeld_fr, kept @State.setHart_fr, kept @State.trigFires_fr]; done)
  | (refine State.taskDo_fx _ _ _ (fun _ => ?_); (repeat' split) <;> first | exact keepsM_pure _ _ | (simp [*, kept @State.freeHeld_fr, kept @State.setHart_fr, kept @State.trigFires_fr]; done))

@[simp] theorem State.instr_ctu (s : State) (hh : Nat) (f : State → State) (hf : ∀ x0, (f x0).ctu = x0.ctu) : (State.instr s hh f).ctu = s.ctu := by
  unfold State.instr
  first
  | (simp [*, kept @State.freeHeld_fr, kept @State.setHart_fr, kept @State.trigFires_fr]; done)
  | ((repeat' split) <;> simp [*, kept @State.freeHeld_fr, kept @State.setHart_fr, kept @State.trigFires_fr]; done)
  | ((try dsimp only); (repeat' split) <;> simp (disch := (intros; (repeat' split) <;> simp [*, kept @State.freeHeld_fr, kept @State.setHart_fr, kept @State.trigFires_fr])) [*, kept @State.freeHeld_fr, kept @State.setHart_fr, kept @State.trigFires_fr]; done)
  | (refine State.taskDo_ctu _ _ _ (fun _ => ?_); (repeat' split) <;> first | exact keepsM_pure _ _ | (simp [*, kept @State.freeHeld_fr, kept @State.setHart_fr, kept @State.trigFires_fr]; done))

@[simp] theorem State.instr_links (s : State) (hh : Nat) (f : State → State) (hf : ∀ x0, (f x0).links = x0.links) : (State.instr s hh f).links = s.links := by
  unfold State.instr
  first
  | (simp [*, kept @State.freeHeld_fr, kept @State.setHart_fr, kept @State.trigFires_fr]; done)
  | ((repeat' split) <;> simp [*, kept @State.freeHeld_fr, kept @State.setHart_fr, kept @State.trigFires_fr]; done)
  | ((try dsimp only); (repeat' split) <;> simp (disch := (intros; (repeat' split) <;> simp [*, kept @State.freeHeld_fr, kept @State.setHart_fr, kept @State.trigFires_fr])) [*, kept @State.freeHeld_fr, kept @State.setHart_fr, kept @State.trigFires_fr]; done)
  | (refine State.taskDo_links _ _ _ (fun _ => ?_); (repeat' split) <;> first | exact keepsM_pure _ _ | (simp [*, kept @State.freeHeld_fr, kept @State.setHart_fr, kept @State.trigFires_fr]; done))

@[simp] theorem State.instr_aplicS (s : State) (hh : Nat) (f : State → State) (hf : ∀ x0, (f x0).aplicS = x0.aplicS) : (State.instr s hh f).aplicS = s.aplicS := by
  unfold State.instr
  first
  | (simp [*, kept @State.freeHeld_fr, kept @State.setHart_fr, kept @State.trigFires_fr]; done)
  | ((repeat' split) <;> simp [*, kept @State.freeHeld_fr, kept @State.setHart_fr, kept @State.trigFires_fr]; done)
  | ((try dsimp only); (repeat' split) <;> simp (disch := (intros; (repeat' split) <;> simp [*, kept @State.freeHeld_fr, kept @State.setHart_fr, kept @State.trigFires_fr])) [*, kept @State.freeHeld_fr, kept @State.setHart_fr, kept @State.trigFires_fr]; done)
  | (refine State.taskDo_aplicS _ _ _ (fun _ => ?_); (repeat' split) <;> first | exact keepsM_pure _ _ | (simp [*, kept @State.freeHeld_fr, kept @State.setHart_fr, kept @State.trigFires_fr]; done))

@[simp] theorem State.instr_aplicN (s : State) (hh : Nat) (f : State → State) (hf : ∀ x0, (f x0).aplicN = x0.aplicN) : (State.instr s hh f).aplicN = s.aplicN := by
  unfold State.instr
  first
  | (simp [*, kept @State.freeHeld_fr, kept @State.setHart_fr, kept @State.trigFires_fr]; done)
  | ((repeat' split) <;> simp [*, kept @State.freeHeld_fr, kept @State.setHart_fr, kept @State.trigFires_fr]; done)
  | ((try dsimp only); (repeat' split) <;> simp (disch := (intros; (repeat' split) <;> simp [*, kept @State.freeHeld_fr, kept @State.setHart_fr, kept @State.trigFires_fr])) [*, kept @State.freeHeld_fr, kept @State.setHart_fr, kept @State.trigFires_fr]; done)
  | (refine State.taskDo_aplicN _ _ _ (fun _ => ?_); (repeat' split) <;> first | exact keepsM_pure _ _ | (simp [*, kept @State.freeHeld_fr, kept @State.setHart_fr, kept @State.trigFires_fr]; done))

@[simp] theorem State.instr_credits (s : State) (hh : Nat) (f : State → State) (hf : ∀ x0, (f x0).credits = x0.credits) : (State.instr s hh f).credits = s.credits := by
  unfold State.instr
  first
  | (simp [*, kept @State.freeHeld_fr, kept @State.setHart_fr, kept @State.trigFires_fr]; done)
  | ((repeat' split) <;> simp [*, kept @State.freeHeld_fr, kept @State.setHart_fr, kept @State.trigFires_fr]; done)
  | ((try dsimp only); (repeat' split) <;> simp (disch := (intros; (repeat' split) <;> simp [*, kept @State.freeHeld_fr, kept @State.setHart_fr, kept @State.trigFires_fr])) [*, kept @State.freeHeld_fr, kept @State.setHart_fr, kept @State.trigFires_fr]; done)
  | (refine State.taskDo_credits _ _ _ (fun _ => ?_); (repeat' split) <;> first | exact keepsM_pure _ _ | (simp [*, kept @State.freeHeld_fr, kept @State.setHart_fr, kept @State.trigFires_fr]; done))

@[simp] theorem State.instr_homes (s : State) (hh : Nat) (f : State → State) (hf : ∀ x0, (f x0).homes = x0.homes) : (State.instr s hh f).homes = s.homes := by
  unfold State.instr
  first
  | (simp [*, kept @State.freeHeld_fr, kept @State.setHart_fr, kept @State.trigFires_fr]; done)
  | ((repeat' split) <;> simp [*, kept @State.freeHeld_fr, kept @State.setHart_fr, kept @State.trigFires_fr]; done)
  | ((try dsimp only); (repeat' split) <;> simp (disch := (intros; (repeat' split) <;> simp [*, kept @State.freeHeld_fr, kept @State.setHart_fr, kept @State.trigFires_fr])) [*, kept @State.freeHeld_fr, kept @State.setHart_fr, kept @State.trigFires_fr]; done)
  | (refine State.taskDo_homes _ _ _ (fun _ => ?_); (repeat' split) <;> first | exact keepsM_pure _ _ | (simp [*, kept @State.freeHeld_fr, kept @State.setHart_fr, kept @State.trigFires_fr]; done))

@[simp] theorem State.instr_pkts (s : State) (hh : Nat) (f : State → State) (hf : ∀ x0, (f x0).pkts = x0.pkts) : (State.instr s hh f).pkts = s.pkts := by
  unfold State.instr
  first
  | (simp [*, kept @State.freeHeld_fr, kept @State.setHart_fr, kept @State.trigFires_fr]; done)
  | ((repeat' split) <;> simp [*, kept @State.freeHeld_fr, kept @State.setHart_fr, kept @State.trigFires_fr]; done)
  | ((try dsimp only); (repeat' split) <;> simp (disch := (intros; (repeat' split) <;> simp [*, kept @State.freeHeld_fr, kept @State.setHart_fr, kept @State.trigFires_fr])) [*, kept @State.freeHeld_fr, kept @State.setHart_fr, kept @State.trigFires_fr]; done)
  | (refine State.taskDo_pkts _ _ _ (fun _ => ?_); (repeat' split) <;> first | exact keepsM_pure _ _ | (simp [*, kept @State.freeHeld_fr, kept @State.setHart_fr, kept @State.trigFires_fr]; done))

@[simp] theorem State.instr_resp (s : State) (hh : Nat) (f : State → State) (hf : ∀ x0, (f x0).resp = x0.resp) : (State.instr s hh f).resp = s.resp := by
  unfold State.instr
  first
  | (simp [*, kept @State.freeHeld_fr, kept @State.setHart_fr, kept @State.trigFires_fr]; done)
  | ((repeat' split) <;> simp [*, kept @State.freeHeld_fr, kept @State.setHart_fr, kept @State.trigFires_fr]; done)
  | ((try dsimp only); (repeat' split) <;> simp (disch := (intros; (repeat' split) <;> simp [*, kept @State.freeHeld_fr, kept @State.setHart_fr, kept @State.trigFires_fr])) [*, kept @State.freeHeld_fr, kept @State.setHart_fr, kept @State.trigFires_fr]; done)
  | (refine State.taskDo_resp _ _ _ (fun _ => ?_); (repeat' split) <;> first | exact keepsM_pure _ _ | (simp [*, kept @State.freeHeld_fr, kept @State.setHart_fr, kept @State.trigFires_fr]; done))

@[simp] theorem State.instr_regs (s : State) (hh : Nat) (f : State → State) (hf : ∀ x0, (f x0).regs = x0.regs) : (State.instr s hh f).regs = s.regs := by
  unfold State.instr
  first
  | (simp [*, kept @State.freeHeld_fr, kept @State.setHart_fr, kept @State.trigFires_fr]; done)
  | ((repeat' split) <;> simp [*, kept @State.freeHeld_fr, kept @State.setHart_fr, kept @State.trigFires_fr]; done)
  | ((try dsimp only); (repeat' split) <;> simp (disch := (intros; (repeat' split) <;> simp [*, kept @State.freeHeld_fr, kept @State.setHart_fr, kept @State.trigFires_fr])) [*, kept @State.freeHeld_fr, kept @State.setHart_fr, kept @State.trigFires_fr]; done)
  | (refine State.taskDo_regs _ _ _ (fun _ => ?_); (repeat' split) <;> first | exact keepsM_pure _ _ | (simp [*, kept @State.freeHeld_fr, kept @State.setHart_fr, kept @State.trigFires_fr]; done))

@[simp] theorem State.instr_wires (s : State) (hh : Nat) (f : State → State) (hf : ∀ x0, (f x0).wires = x0.wires) : (State.instr s hh f).wires = s.wires := by
  unfold State.instr
  first
  | (simp [*, kept @State.freeHeld_fr, kept @State.setHart_fr, kept @State.trigFires_fr]; done)
  | ((repeat' split) <;> simp [*, kept @State.freeHeld_fr, kept @State.setHart_fr, kept @State.trigFires_fr]; done)
  | ((try dsimp only); (repeat' split) <;> simp (disch := (intros; (repeat' split) <;> simp [*, kept @State.freeHeld_fr, kept @State.setHart_fr, kept @State.trigFires_fr])) [*, kept @State.freeHeld_fr, kept @State.setHart_fr, kept @State.trigFires_fr]; done)
  | (refine State.taskDo_wires _ _ _ (fun _ => ?_); (repeat' split) <;> first | exact keepsM_pure _ _ | (simp [*, kept @State.freeHeld_fr, kept @State.setHart_fr, kept @State.trigFires_fr]; done))

@[simp] theorem State.instr_dmg (s : State) (hh : Nat) (f : State → State) (hf : ∀ x0, (f x0).dmg = x0.dmg) : (State.instr s hh f).dmg = s.dmg := by
  unfold State.instr
  first
  | (simp [*, kept @State.freeHeld_fr, kept @State.setHart_fr, kept @State.trigFires_fr]; done)
  | ((repeat' split) <;> simp [*, kept @State.freeHeld_fr, kept @State.setHart_fr, kept @State.trigFires_fr]; done)
  | ((try dsimp only); (repeat' split) <;> simp (disch := (intros; (repeat' split) <;> simp [*, kept @State.freeHeld_fr, kept @State.setHart_fr, kept @State.trigFires_fr])) [*, kept @State.freeHeld_fr, kept @State.setHart_fr, kept @State.trigFires_fr]; done)
  | (refine State.taskDo_dmg _ _ _ (fun _ => ?_); (repeat' split) <;> first | exact keepsM_pure _ _ | (simp [*, kept @State.freeHeld_fr, kept @State.setHart_fr, kept @State.trigFires_fr]; done))

@[simp] theorem State.instr_wq (s : State) (hh : Nat) (f : State → State) (hf : ∀ x0, (f x0).wq = x0.wq) : (State.instr s hh f).wq = s.wq := by
  unfold State.instr
  first
  | (simp [*, kept @State.freeHeld_fr, kept @State.setHart_fr, kept @State.trigFires_fr]; done)
  | ((repeat' split) <;> simp [*, kept @State.freeHeld_fr, kept @State.setHart_fr, kept @State.trigFires_fr]; done)
  | ((try dsimp only); (repeat' split) <;> simp (disch := (intros; (repeat' split) <;> simp [*, kept @State.freeHeld_fr, kept @State.setHart_fr, kept @State.trigFires_fr])) [*, kept @State.freeHeld_fr, kept @State.setHart_fr, kept @State.trigFires_fr]; done)
  | (refine State.taskDo_wq _ _ _ (fun _ => ?_); (repeat' split) <;> first | exact keepsM_pure _ _ | (simp [*, kept @State.freeHeld_fr, kept @State.setHart_fr, kept @State.trigFires_fr]; done))

@[simp] theorem State.instr_dbInval (s : State) (hh : Nat) (f : State → State) (hf : ∀ x0, (f x0).dbInval = x0.dbInval) : (State.instr s hh f).dbInval = s.dbInval := by
  unfold State.instr
  first
  | (simp [*, kept @State.freeHeld_fr, kept @State.setHart_fr, kept @State.trigFires_fr]; done)
  | ((repeat' split) <;> simp [*, kept @State.freeHeld_fr, kept @State.setHart_fr, kept @State.trigFires_fr]; done)
  | ((try dsimp only); (repeat' split) <;> simp (disch := (intros; (repeat' split) <;> simp [*, kept @State.freeHeld_fr, kept @State.setHart_fr, kept @State.trigFires_fr])) [*, kept @State.freeHeld_fr, kept @State.setHart_fr, kept @State.trigFires_fr]; done)
  | (refine State.taskDo_dbInval _ _ _ (fun _ => ?_); (repeat' split) <;> first | exact keepsM_pure _ _ | (simp [*, kept @State.freeHeld_fr, kept @State.setHart_fr, kept @State.trigFires_fr]; done))

@[simp] theorem State.instr_watch (s : State) (hh : Nat) (f : State → State) (hf : ∀ x0, (f x0).watch = x0.watch) : (State.instr s hh f).watch = s.watch := by
  unfold State.instr
  first
  | (simp [*, kept @State.freeHeld_fr, kept @State.setHart_fr, kept @State.trigFires_fr]; done)
  | ((repeat' split) <;> simp [*, kept @State.freeHeld_fr, kept @State.setHart_fr, kept @State.trigFires_fr]; done)
  | ((try dsimp only); (repeat' split) <;> simp (disch := (intros; (repeat' split) <;> simp [*, kept @State.freeHeld_fr, kept @State.setHart_fr, kept @State.trigFires_fr])) [*, kept @State.freeHeld_fr, kept @State.setHart_fr, kept @State.trigFires_fr]; done)
  | (refine State.taskDo_watch _ _ _ (fun _ => ?_); (repeat' split) <;> first | exact keepsM_pure _ _ | (simp [*, kept @State.freeHeld_fr, kept @State.setHart_fr, kept @State.trigFires_fr]; done))

@[simp] theorem State.instr_pkg (s : State) (hh : Nat) (f : State → State) (hf : ∀ x0, (f x0).pkg = x0.pkg) : (State.instr s hh f).pkg = s.pkg := by
  unfold State.instr
  first
  | (simp [*, kept @State.freeHeld_fr, kept @State.setHart_fr, kept @State.trigFires_fr]; done)
  | ((repeat' split) <;> simp [*, kept @State.freeHeld_fr, kept @State.setHart_fr, kept @State.trigFires_fr]; done)
  | ((try dsimp only); (repeat' split) <;> simp (disch := (intros; (repeat' split) <;> simp [*, kept @State.freeHeld_fr, kept @State.setHart_fr, kept @State.trigFires_fr])) [*, kept @State.freeHeld_fr, kept @State.setHart_fr, kept @State.trigFires_fr]; done)
  | (refine State.taskDo_pkg _ _ _ (fun _ => ?_); (repeat' split) <;> first | exact keepsM_pure _ _ | (simp [*, kept @State.freeHeld_fr, kept @State.setHart_fr, kept @State.trigFires_fr]; done))

@[simp] theorem State.instr_pmc (s : State) (hh : Nat) (f : State → State) (hf : ∀ x0, (f x0).pmc = x0.pmc) : (State.instr s hh f).pmc = s.pmc := by
  unfold State.instr
  first
  | (simp [*, kept @State.freeHeld_fr, kept @State.setHart_fr, kept @State.trigFires_fr]; done)
  | ((repeat' split) <;> simp [*, kept @State.freeHeld_fr, kept @State.setHart_fr, kept @State.trigFires_fr]; done)
  | ((try dsimp only); (repeat' split) <;> simp (disch := (intros; (repeat' split) <;> simp [*, kept @State.freeHeld_fr, kept @State.setHart_fr, kept @State.trigFires_fr])) [*, kept @State.freeHeld_fr, kept @State.setHart_fr, kept @State.trigFires_fr]; done)
  | (refine State.taskDo_pmc _ _ _ (fun _ => ?_); (repeat' split) <;> first | exact keepsM_pure _ _ | (simp [*, kept @State.freeHeld_fr, kept @State.setHart_fr, kept @State.trigFires_fr]; done))

@[simp] theorem State.instr_fwLog (s : State) (hh : Nat) (f : State → State) (hf : ∀ x0, (f x0).fwLog = x0.fwLog) : (State.instr s hh f).fwLog = s.fwLog := by
  unfold State.instr
  first
  | (simp [*, kept @State.freeHeld_fr, kept @State.setHart_fr, kept @State.trigFires_fr]; done)
  | ((repeat' split) <;> simp [*, kept @State.freeHeld_fr, kept @State.setHart_fr, kept @State.trigFires_fr]; done)
  | ((try dsimp only); (repeat' split) <;> simp (disch := (intros; (repeat' split) <;> simp [*, kept @State.freeHeld_fr, kept @State.setHart_fr, kept @State.trigFires_fr])) [*, kept @State.freeHeld_fr, kept @State.setHart_fr, kept @State.trigFires_fr]; done)
  | (refine State.taskDo_fwLog _ _ _ (fun _ => ?_); (repeat' split) <;> first | exact keepsM_pure _ _ | (simp [*, kept @State.freeHeld_fr, kept @State.setHart_fr, kept @State.trigFires_fr]; done))

@[simp] theorem State.instr_out (s : State) (hh : Nat) (f : State → State) (hf : ∀ x0, (f x0).out = x0.out) : (State.instr s hh f).out = s.out := by
  unfold State.instr
  first
  | (simp [*, kept @State.freeHeld_fr, kept @State.setHart_fr, kept @State.trigFires_fr]; done)
  | ((repeat' split) <;> simp [*, kept @State.freeHeld_fr, kept @State.setHart_fr, kept @State.trigFires_fr]; done)
  | ((try dsimp only); (repeat' split) <;> simp (disch := (intros; (repeat' split) <;> simp [*, kept @State.freeHeld_fr, kept @State.setHart_fr, kept @State.trigFires_fr])) [*, kept @State.freeHeld_fr, kept @State.setHart_fr, kept @State.trigFires_fr]; done)
  | (refine State.taskDo_out _ _ _ (fun _ => ?_); (repeat' split) <;> first | exact keepsM_pure _ _ | (simp [*, kept @State.freeHeld_fr, kept @State.setHart_fr, kept @State.trigFires_fr]; done))

@[simp] theorem State.instr_free (s : State) (hh : Nat) (f : State → State) (hf : ∀ x0, (f x0).free = x0.free) : (State.instr s hh f).free = s.free := by
  unfold State.instr
  first
  | (simp [*, kept @State.freeHeld_fr, kept @State.setHart_fr, kept @State.trigFires_fr]; done)
  | ((repeat' split) <;> simp [*, kept @State.freeHeld_fr, kept @State.setHart_fr, kept @State.trigFires_fr]; done)
  | ((try dsimp only); (repeat' split) <;> simp (disch := (intros; (repeat' split) <;> simp [*, kept @State.freeHeld_fr, kept @State.setHart_fr, kept @State.trigFires_fr])) [*, kept @State.freeHeld_fr, kept @State.setHart_fr, kept @State.trigFires_fr]; done)
  | (refine State.taskDo_free _ _ _ (fun _ => ?_); (repeat' split) <;> first | exact keepsM_pure _ _ | (simp [*, kept @State.freeHeld_fr, kept @State.setHart_fr, kept @State.trigFires_fr]; done))

@[simp] theorem State.locateAll_pending (s : State) (h : Nat) (k : AKind) (l : List Part) : (s.locateAll h k l).2.pending = s.pending := by
  induction l generalizing s with
  | nil => rfl
  | cons p ps ih =>
    unfold State.locateAll
    have hl := State.locate_fr s h k p.va
    split <;> rename_i e <;> rw [e] at hl <;> simp only at hl
    · simp [hl]
    · split <;> rename_i e2 <;> have h2 := (congrArg (fun r => r.2.pending) e2).symm.trans (ih _) <;> simp_all

@[simp] theorem State.locateAll_files (s : State) (h : Nat) (k : AKind) (l : List Part) : (s.locateAll h k l).2.files = s.files := by
  induction l generalizing s with
  | nil => rfl
  | cons p ps ih =>
    unfold State.locateAll
    have hl := State.locate_fr s h k p.va
    split <;> rename_i e <;> rw [e] at hl <;> simp only at hl
    · simp [hl]
    · split <;> rename_i e2 <;> have h2 := (congrArg (fun r => r.2.files) e2).symm.trans (ih _) <;> simp_all

@[simp] theorem State.locateAll_fabric (s : State) (h : Nat) (k : AKind) (l : List Part) : (s.locateAll h k l).2.fabric = s.fabric := by
  induction l generalizing s with
  | nil => rfl
  | cons p ps ih =>
    unfold State.locateAll
    have hl := State.locate_fr s h k p.va
    split <;> rename_i e <;> rw [e] at hl <;> simp only at hl
    · simp [hl]
    · split <;> rename_i e2 <;> have h2 := (congrArg (fun r => r.2.fabric) e2).symm.trans (ih _) <;> simp_all

@[simp] theorem State.locateAll_flash (s : State) (h : Nat) (k : AKind) (l : List Part) : (s.locateAll h k l).2.flash = s.flash := by
  induction l generalizing s with
  | nil => rfl
  | cons p ps ih =>
    unfold State.locateAll
    have hl := State.locate_fr s h k p.va
    split <;> rename_i e <;> rw [e] at hl <;> simp only at hl
    · simp [hl]
    · split <;> rename_i e2 <;> have h2 := (congrArg (fun r => r.2.flash) e2).symm.trans (ih _) <;> simp_all

@[simp] theorem State.locateAll_coldOpt (s : State) (h : Nat) (k : AKind) (l : List Part) : (s.locateAll h k l).2.coldOpt = s.coldOpt := by
  induction l generalizing s with
  | nil => rfl
  | cons p ps ih =>
    unfold State.locateAll
    have hl := State.locate_fr s h k p.va
    split <;> rename_i e <;> rw [e] at hl <;> simp only at hl
    · simp [hl]
    · split <;> rename_i e2 <;> have h2 := (congrArg (fun r => r.2.coldOpt) e2).symm.trans (ih _) <;> simp_all

@[simp] theorem State.locateAll_mem (s : State) (h : Nat) (k : AKind) (l : List Part) : (s.locateAll h k l).2.mem = s.mem := by
  induction l generalizing s with
  | nil => rfl
  | cons p ps ih =>
    unfold State.locateAll
    have hl := State.locate_fr s h k p.va
    split <;> rename_i e <;> rw [e] at hl <;> simp only at hl
    · simp [hl]
    · split <;> rename_i e2 <;> have h2 := (congrArg (fun r => r.2.mem) e2).symm.trans (ih _) <;> simp_all

@[simp] theorem State.locateAll_imsic (s : State) (h : Nat) (k : AKind) (l : List Part) : (s.locateAll h k l).2.imsic = s.imsic := by
  induction l generalizing s with
  | nil => rfl
  | cons p ps ih =>
    unfold State.locateAll
    have hl := State.locate_fr s h k p.va
    split <;> rename_i e <;> rw [e] at hl <;> simp only at hl
    · simp [hl]
    · split <;> rename_i e2 <;> have h2 := (congrArg (fun r => r.2.imsic) e2).symm.trans (ih _) <;> simp_all

@[simp] theorem State.locateAll_eng (s : State) (h : Nat) (k : AKind) (l : List Part) : (s.locateAll h k l).2.eng = s.eng := by
  induction l generalizing s with
  | nil => rfl
  | cons p ps ih =>
    unfold State.locateAll
    have hl := State.locate_fr s h k p.va
    split <;> rename_i e <;> rw [e] at hl <;> simp only at hl
    · simp [hl]
    · split <;> rename_i e2 <;> have h2 := (congrArg (fun r => r.2.eng) e2).symm.trans (ih _) <;> simp_all

@[simp] theorem State.locateAll_dm (s : State) (h : Nat) (k : AKind) (l : List Part) : (s.locateAll h k l).2.dm = s.dm := by
  induction l generalizing s with
  | nil => rfl
  | cons p ps ih =>
    unfold State.locateAll
    have hl := State.locate_fr s h k p.va
    split <;> rename_i e <;> rw [e] at hl <;> simp only at hl
    · simp [hl]
    · split <;> rename_i e2 <;> have h2 := (congrArg (fun r => r.2.dm) e2).symm.trans (ih _) <;> simp_all

@[simp] theorem State.locateAll_fx (s : State) (h : Nat) (k : AKind) (l : List Part) : (s.locateAll h k l).2.fx = s.fx := by
  induction l generalizing s with
  | nil => rfl
  | cons p ps ih =>
    unfold State.locateAll
    have hl := State.locate_fr s h k p.va
    split <;> rename_i e <;> rw [e] at hl <;> simp only at hl
    · simp [hl]
    · split <;> rename_i e2 <;> have h2 := (congrArg (fun r => r.2.fx) e2).symm.trans (ih _) <;> simp_all

@[simp] theorem State.locateAll_ctu (s : State) (h : Nat) (k : AKind) (l : List Part) : (s.locateAll h k l).2.ctu = s.ctu := by
  induction l generalizing s with
  | nil => rfl
  | cons p ps ih =>
    unfold State.locateAll
    have hl := State.locate_fr s h k p.va
    split <;> rename_i e <;> rw [e] at hl <;> simp only at hl
    · simp [hl]
    · split <;> rename_i e2 <;> have h2 := (congrArg (fun r => r.2.ctu) e2).symm.trans (ih _) <;> simp_all

@[simp] theorem State.locateAll_links (s : State) (h : Nat) (k : AKind) (l : List Part) : (s.locateAll h k l).2.links = s.links := by
  induction l generalizing s with
  | nil => rfl
  | cons p ps ih =>
    unfold State.locateAll
    have hl := State.locate_fr s h k p.va
    split <;> rename_i e <;> rw [e] at hl <;> simp only at hl
    · simp [hl]
    · split <;> rename_i e2 <;> have h2 := (congrArg (fun r => r.2.links) e2).symm.trans (ih _) <;> simp_all

@[simp] theorem State.locateAll_aplicS (s : State) (h : Nat) (k : AKind) (l : List Part) : (s.locateAll h k l).2.aplicS = s.aplicS := by
  induction l generalizing s with
  | nil => rfl
  | cons p ps ih =>
    unfold State.locateAll
    have hl := State.locate_fr s h k p.va
    split <;> rename_i e <;> rw [e] at hl <;> simp only at hl
    · simp [hl]
    · split <;> rename_i e2 <;> have h2 := (congrArg (fun r => r.2.aplicS) e2).symm.trans (ih _) <;> simp_all

@[simp] theorem State.locateAll_aplicN (s : State) (h : Nat) (k : AKind) (l : List Part) : (s.locateAll h k l).2.aplicN = s.aplicN := by
  induction l generalizing s with
  | nil => rfl
  | cons p ps ih =>
    unfold State.locateAll
    have hl := State.locate_fr s h k p.va
    split <;> rename_i e <;> rw [e] at hl <;> simp only at hl
    · simp [hl]
    · split <;> rename_i e2 <;> have h2 := (congrArg (fun r => r.2.aplicN) e2).symm.trans (ih _) <;> simp_all

@[simp] theorem State.locateAll_credits (s : State) (h : Nat) (k : AKind) (l : List Part) : (s.locateAll h k l).2.credits = s.credits := by
  induction l generalizing s with
  | nil => rfl
  | cons p ps ih =>
    unfold State.locateAll
    have hl := State.locate_fr s h k p.va
    split <;> rename_i e <;> rw [e] at hl <;> simp only at hl
    · simp [hl]
    · split <;> rename_i e2 <;> have h2 := (congrArg (fun r => r.2.credits) e2).symm.trans (ih _) <;> simp_all

@[simp] theorem State.locateAll_pkts (s : State) (h : Nat) (k : AKind) (l : List Part) : (s.locateAll h k l).2.pkts = s.pkts := by
  induction l generalizing s with
  | nil => rfl
  | cons p ps ih =>
    unfold State.locateAll
    have hl := State.locate_fr s h k p.va
    split <;> rename_i e <;> rw [e] at hl <;> simp only at hl
    · simp [hl]
    · split <;> rename_i e2 <;> have h2 := (congrArg (fun r => r.2.pkts) e2).symm.trans (ih _) <;> simp_all

@[simp] theorem State.locateAll_resp (s : State) (h : Nat) (k : AKind) (l : List Part) : (s.locateAll h k l).2.resp = s.resp := by
  induction l generalizing s with
  | nil => rfl
  | cons p ps ih =>
    unfold State.locateAll
    have hl := State.locate_fr s h k p.va
    split <;> rename_i e <;> rw [e] at hl <;> simp only at hl
    · simp [hl]
    · split <;> rename_i e2 <;> have h2 := (congrArg (fun r => r.2.resp) e2).symm.trans (ih _) <;> simp_all

@[simp] theorem State.locateAll_dmg (s : State) (h : Nat) (k : AKind) (l : List Part) : (s.locateAll h k l).2.dmg = s.dmg := by
  induction l generalizing s with
  | nil => rfl
  | cons p ps ih =>
    unfold State.locateAll
    have hl := State.locate_fr s h k p.va
    split <;> rename_i e <;> rw [e] at hl <;> simp only at hl
    · simp [hl]
    · split <;> rename_i e2 <;> have h2 := (congrArg (fun r => r.2.dmg) e2).symm.trans (ih _) <;> simp_all

@[simp] theorem State.locateAll_dbInval (s : State) (h : Nat) (k : AKind) (l : List Part) : (s.locateAll h k l).2.dbInval = s.dbInval := by
  induction l generalizing s with
  | nil => rfl
  | cons p ps ih =>
    unfold State.locateAll
    have hl := State.locate_fr s h k p.va
    split <;> rename_i e <;> rw [e] at hl <;> simp only at hl
    · simp [hl]
    · split <;> rename_i e2 <;> have h2 := (congrArg (fun r => r.2.dbInval) e2).symm.trans (ih _) <;> simp_all

@[simp] theorem State.locateAll_watch (s : State) (h : Nat) (k : AKind) (l : List Part) : (s.locateAll h k l).2.watch = s.watch := by
  induction l generalizing s with
  | nil => rfl
  | cons p ps ih =>
    unfold State.locateAll
    have hl := State.locate_fr s h k p.va
    split <;> rename_i e <;> rw [e] at hl <;> simp only at hl
    · simp [hl]
    · split <;> rename_i e2 <;> have h2 := (congrArg (fun r => r.2.watch) e2).symm.trans (ih _) <;> simp_all

@[simp] theorem State.locateAll_out (s : State) (h : Nat) (k : AKind) (l : List Part) : (s.locateAll h k l).2.out = s.out := by
  induction l generalizing s with
  | nil => rfl
  | cons p ps ih =>
    unfold State.locateAll
    have hl := State.locate_fr s h k p.va
    split <;> rename_i e <;> rw [e] at hl <;> simp only at hl
    · simp [hl]
    · split <;> rename_i e2 <;> have h2 := (congrArg (fun r => r.2.out) e2).symm.trans (ih _) <;> simp_all

@[simp] theorem State.locateAll_free (s : State) (h : Nat) (k : AKind) (l : List Part) : (s.locateAll h k l).2.free = s.free := by
  induction l generalizing s with
  | nil => rfl
  | cons p ps ih =>
    unfold State.locateAll
    have hl := State.locate_fr s h k p.va
    split <;> rename_i e <;> rw [e] at hl <;> simp only at hl
    · simp [hl]
    · split <;> rename_i e2 <;> have h2 := (congrArg (fun r => r.2.free) e2).symm.trans (ih _) <;> simp_all

@[simp] theorem State.ncLoadGo_pending (h va size len rd : Nat) (signed : Bool) (pa0 : Nat) (l : List (Part × PAddr)) (acc : List Byte)
    (s : State) : (State.ncLoadGo h va size len rd signed pa0 l acc s).pending = s.pending := by
  induction l generalizing s acc with
  | nil => simp [State.ncLoadGo, kept @State.except_fr, kept @State.hev_fr, kept @State.memFault_fr, kept @State.readPa_fr, kept @State.retireAt_fr, kept @State.setHart_fr]
  | cons p t ih =>
    unfold State.ncLoadGo
    have hl := State.readPa_fr s (s.hart h).ident p.2.pa p.1.n
    split <;> rename_i e <;> rw [e] at hl <;> simp only at hl <;> simp [ih, hl, kept @State.except_fr, kept @State.hev_fr, kept @State.memFault_fr, kept @State.readPa_fr, kept @State.retireAt_fr, kept @State.setHart_fr]

@[simp] theorem State.ncLoadGo_files (h va size len rd : Nat) (signed : Bool) (pa0 : Nat) (l : List (Part × PAddr)) (acc : List Byte)
    (s : State) : (State.ncLoadGo h va size len rd signed pa0 l acc s).files = s.files := by
  induction l generalizing s acc with
  | nil => simp [State.ncLoadGo, kept @State.except_fr, kept @State.hev_fr, kept @State.memFault_fr, kept @State.readPa_fr, kept @State.retireAt_fr, kept @State.setHart_fr]
  | cons p t ih =>
    unfold State.ncLoadGo
    have hl := State.readPa_fr s (s.hart h).ident p.2.pa p.1.n
    split <;> rename_i e <;> rw [e] at hl <;> simp only at hl <;> simp [ih, hl, kept @State.except_fr, kept @State.hev_fr, kept @State.memFault_fr, kept @State.readPa_fr, kept @State.retireAt_fr, kept @State.setHart_fr]

@[simp] theorem State.ncLoadGo_fabric (h va size len rd : Nat) (signed : Bool) (pa0 : Nat) (l : List (Part × PAddr)) (acc : List Byte)
    (s : State) : (State.ncLoadGo h va size len rd signed pa0 l acc s).fabric = s.fabric := by
  induction l generalizing s acc with
  | nil => simp [State.ncLoadGo, kept @State.except_fr, kept @State.hev_fr, kept @State.memFault_fr, kept @State.readPa_fr, kept @State.retireAt_fr, kept @State.setHart_fr]
  | cons p t ih =>
    unfold State.ncLoadGo
    have hl := State.readPa_fr s (s.hart h).ident p.2.pa p.1.n
    split <;> rename_i e <;> rw [e] at hl <;> simp only at hl <;> simp [ih, hl, kept @State.except_fr, kept @State.hev_fr, kept @State.memFault_fr, kept @State.readPa_fr, kept @State.retireAt_fr, kept @State.setHart_fr]

@[simp] theorem State.ncLoadGo_flash (h va size len rd : Nat) (signed : Bool) (pa0 : Nat) (l : List (Part × PAddr)) (acc : List Byte)
    (s : State) : (State.ncLoadGo h va size len rd signed pa0 l acc s).flash = s.flash := by
  induction l generalizing s acc with
  | nil => simp [State.ncLoadGo, kept @State.except_fr, kept @State.hev_fr, kept @State.memFault_fr, kept @State.readPa_fr, kept @State.retireAt_fr, kept @State.setHart_fr]
  | cons p t ih =>
    unfold State.ncLoadGo
    have hl := State.readPa_fr s (s.hart h).ident p.2.pa p.1.n
    split <;> rename_i e <;> rw [e] at hl <;> simp only at hl <;> simp [ih, hl, kept @State.except_fr, kept @State.hev_fr, kept @State.memFault_fr, kept @State.readPa_fr, kept @State.retireAt_fr, kept @State.setHart_fr]

@[simp] theorem State.ncLoadGo_coldOpt (h va size len rd : Nat) (signed : Bool) (pa0 : Nat) (l : List (Part × PAddr)) (acc : List Byte)
    (s : State) : (State.ncLoadGo h va size len rd signed pa0 l acc s).coldOpt = s.coldOpt := by
  induction l generalizing s acc with
  | nil => simp [State.ncLoadGo, kept @State.except_fr, kept @State.hev_fr, kept @State.memFault_fr, kept @State.readPa_fr, kept @State.retireAt_fr, kept @State.setHart_fr]
  | cons p t ih =>
    unfold State.ncLoadGo
    have hl := State.readPa_fr s (s.hart h).ident p.2.pa p.1.n
    split <;> rename_i e <;> rw [e] at hl <;> simp only at hl <;> simp [ih, hl, kept @State.except_fr, kept @State.hev_fr, kept @State.memFault_fr, kept @State.readPa_fr, kept @State.retireAt_fr, kept @State.setHart_fr]

@[simp] theorem State.ncLoadGo_imsic (h va size len rd : Nat) (signed : Bool) (pa0 : Nat) (l : List (Part × PAddr)) (acc : List Byte)
    (s : State) : (State.ncLoadGo h va size len rd signed pa0 l acc s).imsic = s.imsic := by
  induction l generalizing s acc with
  | nil => simp [State.ncLoadGo, kept @State.except_fr, kept @State.hev_fr, kept @State.memFault_fr, kept @State.readPa_fr, kept @State.retireAt_fr, kept @State.setHart_fr]
  | cons p t ih =>
    unfold State.ncLoadGo
    have hl := State.readPa_fr s (s.hart h).ident p.2.pa p.1.n
    split <;> rename_i e <;> rw [e] at hl <;> simp only at hl <;> simp [ih, hl, kept @State.except_fr, kept @State.hev_fr, kept @State.memFault_fr, kept @State.readPa_fr, kept @State.retireAt_fr, kept @State.setHart_fr]

@[simp] theorem State.ncLoadGo_eng (h va size len rd : Nat) (signed : Bool) (pa0 : Nat) (l : List (Part × PAddr)) (acc : List Byte)
    (s : State) : (State.ncLoadGo h va size len rd signed pa0 l acc s).eng = s.eng := by
  induction l generalizing s acc with
  | nil => simp [State.ncLoadGo, kept @State.except_fr, kept @State.hev_fr, kept @State.memFault_fr, kept @State.readPa_fr, kept @State.retireAt_fr, kept @State.setHart_fr]
  | cons p t ih =>
    unfold State.ncLoadGo
    have hl := State.readPa_fr s (s.hart h).ident p.2.pa p.1.n
    split <;> rename_i e <;> rw [e] at hl <;> simp only at hl <;> simp [ih, hl, kept @State.except_fr, kept @State.hev_fr, kept @State.memFault_fr, kept @State.readPa_fr, kept @State.retireAt_fr, kept @State.setHart_fr]

@[simp] theorem State.ncLoadGo_dm (h va size len rd : Nat) (signed : Bool) (pa0 : Nat) (l : List (Part × PAddr)) (acc : List Byte)
    (s : State) : (State.ncLoadGo h va size len rd signed pa0 l acc s).dm = s.dm := by
  induction l generalizing s acc with
  | nil => simp [State.ncLoadGo, kept @State.except_fr, kept @State.hev_fr, kept @State.memFault_fr, kept @State.readPa_fr, kept @State.retireAt_fr, kept @State.setHart_fr]
  | cons p t ih =>
    unfold State.ncLoadGo
    have hl := State.readPa_fr s (s.hart h).ident p.2.pa p.1.n
    split <;> rename_i e <;> rw [e] at hl <;> simp only at hl <;> simp [ih, hl, kept @State.except_fr, kept @State.hev_fr, kept @State.memFault_fr, kept @State.readPa_fr, kept @State.retireAt_fr, kept @State.setHart_fr]

@[simp] theorem State.ncLoadGo_fx (h va size len rd : Nat) (signed : Bool) (pa0 : Nat) (l : List (Part × PAddr)) (acc : List Byte)
    (s : State) : (State.ncLoadGo h va size len rd signed pa0 l acc s).fx = s.fx := by
  induction l generalizing s acc with
  | nil => simp [State.ncLoadGo, kept @State.except_fr, kept @State.hev_fr, kept @State.memFault_fr, kept @State.readPa_fr, kept @State.retireAt_fr, kept @State.setHart_fr]
  | cons p t ih =>
    unfold State.ncLoadGo
    have hl := State.readPa_fr s (s.hart h).ident p.2.pa p.1.n
    split <;> rename_i e <;> rw [e] at hl <;> simp only at hl <;> simp [ih, hl, kept @State.except_fr, kept @State.hev_fr, kept @State.memFault_fr, kept @State.readPa_fr, kept @State.retireAt_fr, kept @State.setHart_fr]

@[simp] theorem State.ncLoadGo_ctu (h va size len rd : Nat) (signed : Bool) (pa0 : Nat) (l : List (Part × PAddr)) (acc : List Byte)
    (s : State) : (State.ncLoadGo h va size len rd signed pa0 l acc s).ctu = s.ctu := by
  induction l generalizing s acc with
  | nil => simp [State.ncLoadGo, kept @State.except_fr, kept @State.hev_fr, kept @State.memFault_fr, kept @State.readPa_fr, kept @State.retireAt_fr, kept @State.setHart_fr]
  | cons p t ih =>
    unfold State.ncLoadGo
    have hl := State.readPa_fr s (s.hart h).ident p.2.pa p.1.n
    split <;> rename_i e <;> rw [e] at hl <;> simp only at hl <;> simp [ih, hl, kept @State.except_fr, kept @State.hev_fr, kept @State.memFault_fr, kept @State.readPa_fr, kept @State.retireAt_fr, kept @State.setHart_fr]

@[simp] theorem State.ncLoadGo_links (h va size len rd : Nat) (signed : Bool) (pa0 : Nat) (l : List (Part × PAddr)) (acc : List Byte)
    (s : State) : (State.ncLoadGo h va size len rd signed pa0 l acc s).links = s.links := by
  induction l generalizing s acc with
  | nil => simp [State.ncLoadGo, kept @State.except_fr, kept @State.hev_fr, kept @State.memFault_fr, kept @State.readPa_fr, kept @State.retireAt_fr, kept @State.setHart_fr]
  | cons p t ih =>
    unfold State.ncLoadGo
    have hl := State.readPa_fr s (s.hart h).ident p.2.pa p.1.n
    split <;> rename_i e <;> rw [e] at hl <;> simp only at hl <;> simp [ih, hl, kept @State.except_fr, kept @State.hev_fr, kept @State.memFault_fr, kept @State.readPa_fr, kept @State.retireAt_fr, kept @State.setHart_fr]

@[simp] theorem State.ncLoadGo_aplicS (h va size len rd : Nat) (signed : Bool) (pa0 : Nat) (l : List (Part × PAddr)) (acc : List Byte)
    (s : State) : (State.ncLoadGo h va size len rd signed pa0 l acc s).aplicS = s.aplicS := by
  induction l generalizing s acc with
  | nil => simp [State.ncLoadGo, kept @State.except_fr, kept @State.hev_fr, kept @State.memFault_fr, kept @State.readPa_fr, kept @State.retireAt_fr, kept @State.setHart_fr]
  | cons p t ih =>
    unfold State.ncLoadGo
    have hl := State.readPa_fr s (s.hart h).ident p.2.pa p.1.n
    split <;> rename_i e <;> rw [e] at hl <;> simp only at hl <;> simp [ih, hl, kept @State.except_fr, kept @State.hev_fr, kept @State.memFault_fr, kept @State.readPa_fr, kept @State.retireAt_fr, kept @State.setHart_fr]

@[simp] theorem State.ncLoadGo_aplicN (h va size len rd : Nat) (signed : Bool) (pa0 : Nat) (l : List (Part × PAddr)) (acc : List Byte)
    (s : State) : (State.ncLoadGo h va size len rd signed pa0 l acc s).aplicN = s.aplicN := by
  induction l generalizing s acc with
  | nil => simp [State.ncLoadGo, kept @State.except_fr, kept @State.hev_fr, kept @State.memFault_fr, kept @State.readPa_fr, kept @State.retireAt_fr, kept @State.setHart_fr]
  | cons p t ih =>
    unfold State.ncLoadGo
    have hl := State.readPa_fr s (s.hart h).ident p.2.pa p.1.n
    split <;> rename_i e <;> rw [e] at hl <;> simp only at hl <;> simp [ih, hl, kept @State.except_fr, kept @State.hev_fr, kept @State.memFault_fr, kept @State.readPa_fr, kept @State.retireAt_fr, kept @State.setHart_fr]

@[simp] theorem State.ncLoadGo_credits (h va size len rd : Nat) (signed : Bool) (pa0 : Nat) (l : List (Part × PAddr)) (acc : List Byte)
    (s : State) : (State.ncLoadGo h va size len rd signed pa0 l acc s).credits = s.credits := by
  induction l generalizing s acc with
  | nil => simp [State.ncLoadGo, kept @State.except_fr, kept @State.hev_fr, kept @State.memFault_fr, kept @State.readPa_fr, kept @State.retireAt_fr, kept @State.setHart_fr]
  | cons p t ih =>
    unfold State.ncLoadGo
    have hl := State.readPa_fr s (s.hart h).ident p.2.pa p.1.n
    split <;> rename_i e <;> rw [e] at hl <;> simp only at hl <;> simp [ih, hl, kept @State.except_fr, kept @State.hev_fr, kept @State.memFault_fr, kept @State.readPa_fr, kept @State.retireAt_fr, kept @State.setHart_fr]

@[simp] theorem State.ncLoadGo_pkts (h va size len rd : Nat) (signed : Bool) (pa0 : Nat) (l : List (Part × PAddr)) (acc : List Byte)
    (s : State) : (State.ncLoadGo h va size len rd signed pa0 l acc s).pkts = s.pkts := by
  induction l generalizing s acc with
  | nil => simp [State.ncLoadGo, kept @State.except_fr, kept @State.hev_fr, kept @State.memFault_fr, kept @State.readPa_fr, kept @State.retireAt_fr, kept @State.setHart_fr]
  | cons p t ih =>
    unfold State.ncLoadGo
    have hl := State.readPa_fr s (s.hart h).ident p.2.pa p.1.n
    split <;> rename_i e <;> rw [e] at hl <;> simp only at hl <;> simp [ih, hl, kept @State.except_fr, kept @State.hev_fr, kept @State.memFault_fr, kept @State.readPa_fr, kept @State.retireAt_fr, kept @State.setHart_fr]

@[simp] theorem State.ncLoadGo_resp (h va size len rd : Nat) (signed : Bool) (pa0 : Nat) (l : List (Part × PAddr)) (acc : List Byte)
    (s : State) : (State.ncLoadGo h va size len rd signed pa0 l acc s).resp = s.resp := by
  induction l generalizing s acc with
  | nil => simp [State.ncLoadGo, kept @State.except_fr, kept @State.hev_fr, kept @State.memFault_fr, kept @State.readPa_fr, kept @State.retireAt_fr, kept @State.setHart_fr]
  | cons p t ih =>
    unfold State.ncLoadGo
    have hl := State.readPa_fr s (s.hart h).ident p.2.pa p.1.n
    split <;> rename_i e <;> rw [e] at hl <;> simp only at hl <;> simp [ih, hl, kept @State.except_fr, kept @State.hev_fr, kept @State.memFault_fr, kept @State.readPa_fr, kept @State.retireAt_fr, kept @State.setHart_fr]

@[simp] theorem State.ncLoadGo_out (h va size len rd : Nat) (signed : Bool) (pa0 : Nat) (l : List (Part × PAddr)) (acc : List Byte)
    (s : State) : (State.ncLoadGo h va size len rd signed pa0 l acc s).out = s.out := by
  induction l generalizing s acc with
  | nil => simp [State.ncLoadGo, kept @State.except_fr, kept @State.hev_fr, kept @State.memFault_fr, kept @State.readPa_fr, kept @State.retireAt_fr, kept @State.setHart_fr]
  | cons p t ih =>
    unfold State.ncLoadGo
    have hl := State.readPa_fr s (s.hart h).ident p.2.pa p.1.n
    split <;> rename_i e <;> rw [e] at hl <;> simp only at hl <;> simp [ih, hl, kept @State.except_fr, kept @State.hev_fr, kept @State.memFault_fr, kept @State.readPa_fr, kept @State.retireAt_fr, kept @State.setHart_fr]

theorem State.ncLoad_fr (s : State) (hh : Nat) (va : Nat) (size : Nat) (len : Nat) (rd : Nat) (signed : Bool) (l : List (Part × PAddr)) : (State.ncLoad s hh va size len rd signed l).pending = s.pending ∧ (State.ncLoad s hh va size len rd signed l).flash = s.flash ∧ (State.ncLoad s hh va size len rd signed l).coldOpt = s.coldOpt ∧ (State.ncLoad s hh va size len rd signed l).imsic = s.imsic ∧ (State.ncLoad s hh va size len rd signed l).eng = s.eng ∧ (State.ncLoad s hh va size len rd signed l).dm = s.dm ∧ (State.ncLoad s hh va size len rd signed l).fx = s.fx ∧ (State.ncLoad s hh va size len rd signed l).ctu = s.ctu ∧ (State.ncLoad s hh va size len rd signed l).links = s.links ∧ (State.ncLoad s hh va size len rd signed l).aplicS = s.aplicS ∧ (State.ncLoad s hh va size len rd signed l).aplicN = s.aplicN ∧ (State.ncLoad s hh va size len rd signed l).credits = s.credits ∧ (State.ncLoad s hh va size len rd signed l).pkts = s.pkts ∧ (State.ncLoad s hh va size len rd signed l).resp = s.resp ∧ (State.ncLoad s hh va size len rd signed l).out = s.out ∧ (State.ncLoad s hh va size len rd signed l).fabric = s.fabric ∧ (State.ncLoad s hh va size len rd signed l).files = s.files := by
  generalize h : State.ncLoad s hh va size len rd signed l = u
  unfold State.ncLoad at h
  rw [← h]; simp

@[simp] theorem State.ncStoreGo_pending (h va len : Nat) (bytes : List Byte) (pa0 : Nat) (l : List (Part × PAddr))
    (s : State) : (State.ncStoreGo h va len bytes pa0 l s).pending = s.pending := by
  induction l generalizing s with
  | nil => simp [State.ncStoreGo, kept @State.memFault_fr, kept @State.retireAt_fr, kept @State.writePa_fr]
  | cons p t ih =>
    unfold State.ncStoreGo
    have hl := State.writePa_fr s (s.hart h).ident p.2.pa ((bytes.drop p.1.off).take p.1.n)
    split <;> rename_i e <;> rw [e] at hl <;> simp only at hl <;> simp [ih, hl, kept @State.memFault_fr, kept @State.retireAt_fr, kept @State.writePa_fr]

@[simp] theorem State.ncStoreGo_files (h va len : Nat) (bytes : List Byte) (pa0 : Nat) (l : List (Part × PAddr))
    (s : State) : (State.ncStoreGo h va len bytes pa0 l s).files = s.files := by
  induction l generalizing s with
  | nil => simp [State.ncStoreGo, kept @State.memFault_fr, kept @State.retireAt_fr, kept @State.writePa_fr]
  | cons p t ih =>
    unfold State.ncStoreGo
    have hl := State.writePa_fr s (s.hart h).ident p.2.pa ((bytes.drop p.1.off).take p.1.n)
    split <;> rename_i e <;> rw [e] at hl <;> simp only at hl <;> simp [ih, hl, kept @State.memFault_fr, kept @State.retireAt_fr, kept @State.writePa_fr]

@[simp] theorem State.ncStoreGo_fabric (h va len : Nat) (bytes : List Byte) (pa0 : Nat) (l : List (Part × PAddr))
    (s : State) : (State.ncStoreGo h va len bytes pa0 l s).fabric = s.fabric := by
  induction l generalizing s with
  | nil => simp [State.ncStoreGo, kept @State.memFault_fr, kept @State.retireAt_fr, kept @State.writePa_fr]
  | cons p t ih =>
    unfold State.ncStoreGo
    have hl := State.writePa_fr s (s.hart h).ident p.2.pa ((bytes.drop p.1.off).take p.1.n)
    split <;> rename_i e <;> rw [e] at hl <;> simp only at hl <;> simp [ih, hl, kept @State.memFault_fr, kept @State.retireAt_fr, kept @State.writePa_fr]

@[simp] theorem State.ncStoreGo_flash (h va len : Nat) (bytes : List Byte) (pa0 : Nat) (l : List (Part × PAddr))
    (s : State) : (State.ncStoreGo h va len bytes pa0 l s).flash = s.flash := by
  induction l generalizing s with
  | nil => simp [State.ncStoreGo, kept @State.memFault_fr, kept @State.retireAt_fr, kept @State.writePa_fr]
  | cons p t ih =>
    unfold State.ncStoreGo
    have hl := State.writePa_fr s (s.hart h).ident p.2.pa ((bytes.drop p.1.off).take p.1.n)
    split <;> rename_i e <;> rw [e] at hl <;> simp only at hl <;> simp [ih, hl, kept @State.memFault_fr, kept @State.retireAt_fr, kept @State.writePa_fr]

@[simp] theorem State.ncStoreGo_coldOpt (h va len : Nat) (bytes : List Byte) (pa0 : Nat) (l : List (Part × PAddr))
    (s : State) : (State.ncStoreGo h va len bytes pa0 l s).coldOpt = s.coldOpt := by
  induction l generalizing s with
  | nil => simp [State.ncStoreGo, kept @State.memFault_fr, kept @State.retireAt_fr, kept @State.writePa_fr]
  | cons p t ih =>
    unfold State.ncStoreGo
    have hl := State.writePa_fr s (s.hart h).ident p.2.pa ((bytes.drop p.1.off).take p.1.n)
    split <;> rename_i e <;> rw [e] at hl <;> simp only at hl <;> simp [ih, hl, kept @State.memFault_fr, kept @State.retireAt_fr, kept @State.writePa_fr]

@[simp] theorem State.ncStoreGo_imsic (h va len : Nat) (bytes : List Byte) (pa0 : Nat) (l : List (Part × PAddr))
    (s : State) : (State.ncStoreGo h va len bytes pa0 l s).imsic = s.imsic := by
  induction l generalizing s with
  | nil => simp [State.ncStoreGo, kept @State.memFault_fr, kept @State.retireAt_fr, kept @State.writePa_fr]
  | cons p t ih =>
    unfold State.ncStoreGo
    have hl := State.writePa_fr s (s.hart h).ident p.2.pa ((bytes.drop p.1.off).take p.1.n)
    split <;> rename_i e <;> rw [e] at hl <;> simp only at hl <;> simp [ih, hl, kept @State.memFault_fr, kept @State.retireAt_fr, kept @State.writePa_fr]

@[simp] theorem State.ncStoreGo_eng (h va len : Nat) (bytes : List Byte) (pa0 : Nat) (l : List (Part × PAddr))
    (s : State) : (State.ncStoreGo h va len bytes pa0 l s).eng = s.eng := by
  induction l generalizing s with
  | nil => simp [State.ncStoreGo, kept @State.memFault_fr, kept @State.retireAt_fr, kept @State.writePa_fr]
  | cons p t ih =>
    unfold State.ncStoreGo
    have hl := State.writePa_fr s (s.hart h).ident p.2.pa ((bytes.drop p.1.off).take p.1.n)
    split <;> rename_i e <;> rw [e] at hl <;> simp only at hl <;> simp [ih, hl, kept @State.memFault_fr, kept @State.retireAt_fr, kept @State.writePa_fr]

@[simp] theorem State.ncStoreGo_dm (h va len : Nat) (bytes : List Byte) (pa0 : Nat) (l : List (Part × PAddr))
    (s : State) : (State.ncStoreGo h va len bytes pa0 l s).dm = s.dm := by
  induction l generalizing s with
  | nil => simp [State.ncStoreGo, kept @State.memFault_fr, kept @State.retireAt_fr, kept @State.writePa_fr]
  | cons p t ih =>
    unfold State.ncStoreGo
    have hl := State.writePa_fr s (s.hart h).ident p.2.pa ((bytes.drop p.1.off).take p.1.n)
    split <;> rename_i e <;> rw [e] at hl <;> simp only at hl <;> simp [ih, hl, kept @State.memFault_fr, kept @State.retireAt_fr, kept @State.writePa_fr]

@[simp] theorem State.ncStoreGo_fx (h va len : Nat) (bytes : List Byte) (pa0 : Nat) (l : List (Part × PAddr))
    (s : State) : (State.ncStoreGo h va len bytes pa0 l s).fx = s.fx := by
  induction l generalizing s with
  | nil => simp [State.ncStoreGo, kept @State.memFault_fr, kept @State.retireAt_fr, kept @State.writePa_fr]
  | cons p t ih =>
    unfold State.ncStoreGo
    have hl := State.writePa_fr s (s.hart h).ident p.2.pa ((bytes.drop p.1.off).take p.1.n)
    split <;> rename_i e <;> rw [e] at hl <;> simp only at hl <;> simp [ih, hl, kept @State.memFault_fr, kept @State.retireAt_fr, kept @State.writePa_fr]

@[simp] theorem State.ncStoreGo_ctu (h va len : Nat) (bytes : List Byte) (pa0 : Nat) (l : List (Part × PAddr))
    (s : State) : (State.ncStoreGo h va len bytes pa0 l s).ctu = s.ctu := by
  induction l generalizing s with
  | nil => simp [State.ncStoreGo, kept @State.memFault_fr, kept @State.retireAt_fr, kept @State.writePa_fr]
  | cons p t ih =>
    unfold State.ncStoreGo
    have hl := State.writePa_fr s (s.hart h).ident p.2.pa ((bytes.drop p.1.off).take p.1.n)
    split <;> rename_i e <;> rw [e] at hl <;> simp only at hl <;> simp [ih, hl, kept @State.memFault_fr, kept @State.retireAt_fr, kept @State.writePa_fr]

@[simp] theorem State.ncStoreGo_links (h va len : Nat) (bytes : List Byte) (pa0 : Nat) (l : List (Part × PAddr))
    (s : State) : (State.ncStoreGo h va len bytes pa0 l s).links = s.links := by
  induction l generalizing s with
  | nil => simp [State.ncStoreGo, kept @State.memFault_fr, kept @State.retireAt_fr, kept @State.writePa_fr]
  | cons p t ih =>
    unfold State.ncStoreGo
    have hl := State.writePa_fr s (s.hart h).ident p.2.pa ((bytes.drop p.1.off).take p.1.n)
    split <;> rename_i e <;> rw [e] at hl <;> simp only at hl <;> simp [ih, hl, kept @State.memFault_fr, kept @State.retireAt_fr, kept @State.writePa_fr]

@[simp] theorem State.ncStoreGo_aplicS (h va len : Nat) (bytes : List Byte) (pa0 : Nat) (l : List (Part × PAddr))
    (s : State) : (State.ncStoreGo h va len bytes pa0 l s).aplicS = s.aplicS := by
  induction l generalizing s with
  | nil => simp [State.ncStoreGo, kept @State.memFault_fr, kept @State.retireAt_fr, kept @State.writePa_fr]
  | cons p t ih =>
    unfold State.ncStoreGo
    have hl := State.writePa_fr s (s.hart h).ident p.2.pa ((bytes.drop p.1.off).take p.1.n)
    split <;> rename_i e <;> rw [e] at hl <;> simp only at hl <;> simp [ih, hl, kept @State.memFault_fr, kept @State.retireAt_fr, kept @State.writePa_fr]

@[simp] theorem State.ncStoreGo_aplicN (h va len : Nat) (bytes : List Byte) (pa0 : Nat) (l : List (Part × PAddr))
    (s : State) : (State.ncStoreGo h va len bytes pa0 l s).aplicN = s.aplicN := by
  induction l generalizing s with
  | nil => simp [State.ncStoreGo, kept @State.memFault_fr, kept @State.retireAt_fr, kept @State.writePa_fr]
  | cons p t ih =>
    unfold State.ncStoreGo
    have hl := State.writePa_fr s (s.hart h).ident p.2.pa ((bytes.drop p.1.off).take p.1.n)
    split <;> rename_i e <;> rw [e] at hl <;> simp only at hl <;> simp [ih, hl, kept @State.memFault_fr, kept @State.retireAt_fr, kept @State.writePa_fr]

@[simp] theorem State.ncStoreGo_credits (h va len : Nat) (bytes : List Byte) (pa0 : Nat) (l : List (Part × PAddr))
    (s : State) : (State.ncStoreGo h va len bytes pa0 l s).credits = s.credits := by
  induction l generalizing s with
  | nil => simp [State.ncStoreGo, kept @State.memFault_fr, kept @State.retireAt_fr, kept @State.writePa_fr]
  | cons p t ih =>
    unfold State.ncStoreGo
    have hl := State.writePa_fr s (s.hart h).ident p.2.pa ((bytes.drop p.1.off).take p.1.n)
    split <;> rename_i e <;> rw [e] at hl <;> simp only at hl <;> simp [ih, hl, kept @State.memFault_fr, kept @State.retireAt_fr, kept @State.writePa_fr]

@[simp] theorem State.ncStoreGo_pkts (h va len : Nat) (bytes : List Byte) (pa0 : Nat) (l : List (Part × PAddr))
    (s : State) : (State.ncStoreGo h va len bytes pa0 l s).pkts = s.pkts := by
  induction l generalizing s with
  | nil => simp [State.ncStoreGo, kept @State.memFault_fr, kept @State.retireAt_fr, kept @State.writePa_fr]
  | cons p t ih =>
    unfold State.ncStoreGo
    have hl := State.writePa_fr s (s.hart h).ident p.2.pa ((bytes.drop p.1.off).take p.1.n)
    split <;> rename_i e <;> rw [e] at hl <;> simp only at hl <;> simp [ih, hl, kept @State.memFault_fr, kept @State.retireAt_fr, kept @State.writePa_fr]

@[simp] theorem State.ncStoreGo_resp (h va len : Nat) (bytes : List Byte) (pa0 : Nat) (l : List (Part × PAddr))
    (s : State) : (State.ncStoreGo h va len bytes pa0 l s).resp = s.resp := by
  induction l generalizing s with
  | nil => simp [State.ncStoreGo, kept @State.memFault_fr, kept @State.retireAt_fr, kept @State.writePa_fr]
  | cons p t ih =>
    unfold State.ncStoreGo
    have hl := State.writePa_fr s (s.hart h).ident p.2.pa ((bytes.drop p.1.off).take p.1.n)
    split <;> rename_i e <;> rw [e] at hl <;> simp only at hl <;> simp [ih, hl, kept @State.memFault_fr, kept @State.retireAt_fr, kept @State.writePa_fr]

@[simp] theorem State.ncStoreGo_out (h va len : Nat) (bytes : List Byte) (pa0 : Nat) (l : List (Part × PAddr))
    (s : State) : (State.ncStoreGo h va len bytes pa0 l s).out = s.out := by
  induction l generalizing s with
  | nil => simp [State.ncStoreGo, kept @State.memFault_fr, kept @State.retireAt_fr, kept @State.writePa_fr]
  | cons p t ih =>
    unfold State.ncStoreGo
    have hl := State.writePa_fr s (s.hart h).ident p.2.pa ((bytes.drop p.1.off).take p.1.n)
    split <;> rename_i e <;> rw [e] at hl <;> simp only at hl <;> simp [ih, hl, kept @State.memFault_fr, kept @State.retireAt_fr, kept @State.writePa_fr]

theorem State.ncStore_fr (s : State) (hh : Nat) (va : Nat) (len : Nat) (bytes : List Byte) (l : List (Part × PAddr)) : (State.ncStore s hh va len bytes l).pending = s.pending ∧ (State.ncStore s hh va len bytes l).flash = s.flash ∧ (State.ncStore s hh va len bytes l).coldOpt = s.coldOpt ∧ (State.ncStore s hh va len bytes l).imsic = s.imsic ∧ (State.ncStore s hh va len bytes l).eng = s.eng ∧ (State.ncStore s hh va len bytes l).dm = s.dm ∧ (State.ncStore s hh va len bytes l).fx = s.fx ∧ (State.ncStore s hh va len bytes l).ctu = s.ctu ∧ (State.ncStore s hh va len bytes l).links = s.links ∧ (State.ncStore s hh va len bytes l).aplicS = s.aplicS ∧ (State.ncStore s hh va len bytes l).aplicN = s.aplicN ∧ (State.ncStore s hh va len bytes l).credits = s.credits ∧ (State.ncStore s hh va len bytes l).pkts = s.pkts ∧ (State.ncStore s hh va len bytes l).resp = s.resp ∧ (State.ncStore s hh va len bytes l).out = s.out ∧ (State.ncStore s hh va len bytes l).fabric = s.fabric ∧ (State.ncStore s hh va len bytes l).files = s.files := by
  generalize h : State.ncStore s hh va len bytes l = u
  unfold State.ncStore at h
  rw [← h]; simp

@[simp] theorem State.trigAt_pending (s : State) (hh : Nat) (k : AKind) (va : Nat) (f : State → State)
    (hk : ∀ s, (f s).pending = s.pending) : (s.trigAt hh k va f).pending = s.pending := by
  unfold State.trigAt
  (repeat' split) <;> simp [hk, kept @State.trigFires_fr]

@[simp] theorem State.trigAt_files (s : State) (hh : Nat) (k : AKind) (va : Nat) (f : State → State)
    (hk : ∀ s, (f s).files = s.files) : (s.trigAt hh k va f).files = s.files := by
  unfold State.trigAt
  (repeat' split) <;> simp [hk, kept @State.trigFires_fr]

@[simp] theorem State.trigAt_flash (s : State) (hh : Nat) (k : AKind) (va : Nat) (f : State → State)
    (hk : ∀ s, (f s).flash = s.flash) : (s.trigAt hh k va f).flash = s.flash := by
  unfold State.trigAt
  (repeat' split) <;> simp [hk, kept @State.trigFires_fr]

@[simp] theorem State.trigAt_coldOpt (s : State) (hh : Nat) (k : AKind) (va : Nat) (f : State → State)
    (hk : ∀ s, (f s).coldOpt = s.coldOpt) : (s.trigAt hh k va f).coldOpt = s.coldOpt := by
  unfold State.trigAt
  (repeat' split) <;> simp [hk, kept @State.trigFires_fr]

@[simp] theorem State.trigAt_mem (s : State) (hh : Nat) (k : AKind) (va : Nat) (f : State → State)
    (hk : ∀ s, (f s).mem = s.mem) : (s.trigAt hh k va f).mem = s.mem := by
  unfold State.trigAt
  (repeat' split) <;> simp [hk, kept @State.trigFires_fr]

@[simp] theorem State.trigAt_mram (s : State) (hh : Nat) (k : AKind) (va : Nat) (f : State → State)
    (hk : ∀ s, (f s).mram = s.mram) : (s.trigAt hh k va f).mram = s.mram := by
  unfold State.trigAt
  (repeat' split) <;> simp [hk, kept @State.trigFires_fr]

@[simp] theorem State.trigAt_imsic (s : State) (hh : Nat) (k : AKind) (va : Nat) (f : State → State)
    (hk : ∀ s, (f s).imsic = s.imsic) : (s.trigAt hh k va f).imsic = s.imsic := by
  unfold State.trigAt
  (repeat' split) <;> simp [hk, kept @State.trigFires_fr]

@[simp] theorem State.trigAt_eng (s : State) (hh : Nat) (k : AKind) (va : Nat) (f : State → State)
    (hk : ∀ s, (f s).eng = s.eng) : (s.trigAt hh k va f).eng = s.eng := by
  unfold State.trigAt
  (repeat' split) <;> simp [hk, kept @State.trigFires_fr]

@[simp] theorem State.trigAt_dm (s : State) (hh : Nat) (k : AKind) (va : Nat) (f : State → State)
    (hk : ∀ s, (f s).dm = s.dm) : (s.trigAt hh k va f).dm = s.dm := by
  unfold State.trigAt
  (repeat' split) <;> simp [hk, kept @State.trigFires_fr]

@[simp] theorem State.trigAt_fx (s : State) (hh : Nat) (k : AKind) (va : Nat) (f : State → State)
    (hk : ∀ s, (f s).fx = s.fx) : (s.trigAt hh k va f).fx = s.fx := by
  unfold State.trigAt
  (repeat' split) <;> simp [hk, kept @State.trigFires_fr]

@[simp] theorem State.trigAt_ctu (s : State) (hh : Nat) (k : AKind) (va : Nat) (f : State → State)
    (hk : ∀ s, (f s).ctu = s.ctu) : (s.trigAt hh k va f).ctu = s.ctu := by
  unfold State.trigAt
  (repeat' split) <;> simp [hk, kept @State.trigFires_fr]

@[simp] theorem State.trigAt_links (s : State) (hh : Nat) (k : AKind) (va : Nat) (f : State → State)
    (hk : ∀ s, (f s).links = s.links) : (s.trigAt hh k va f).links = s.links := by
  unfold State.trigAt
  (repeat' split) <;> simp [hk, kept @State.trigFires_fr]

@[simp] theorem State.trigAt_aplicS (s : State) (hh : Nat) (k : AKind) (va : Nat) (f : State → State)
    (hk : ∀ s, (f s).aplicS = s.aplicS) : (s.trigAt hh k va f).aplicS = s.aplicS := by
  unfold State.trigAt
  (repeat' split) <;> simp [hk, kept @State.trigFires_fr]

@[simp] theorem State.trigAt_aplicN (s : State) (hh : Nat) (k : AKind) (va : Nat) (f : State → State)
    (hk : ∀ s, (f s).aplicN = s.aplicN) : (s.trigAt hh k va f).aplicN = s.aplicN := by
  unfold State.trigAt
  (repeat' split) <;> simp [hk, kept @State.trigFires_fr]

@[simp] theorem State.trigAt_credits (s : State) (hh : Nat) (k : AKind) (va : Nat) (f : State → State)
    (hk : ∀ s, (f s).credits = s.credits) : (s.trigAt hh k va f).credits = s.credits := by
  unfold State.trigAt
  (repeat' split) <;> simp [hk, kept @State.trigFires_fr]

@[simp] theorem State.trigAt_clusters (s : State) (hh : Nat) (k : AKind) (va : Nat) (f : State → State)
    (hk : ∀ s, (f s).clusters = s.clusters) : (s.trigAt hh k va f).clusters = s.clusters := by
  unfold State.trigAt
  (repeat' split) <;> simp [hk, kept @State.trigFires_fr]

@[simp] theorem State.trigAt_homes (s : State) (hh : Nat) (k : AKind) (va : Nat) (f : State → State)
    (hk : ∀ s, (f s).homes = s.homes) : (s.trigAt hh k va f).homes = s.homes := by
  unfold State.trigAt
  (repeat' split) <;> simp [hk, kept @State.trigFires_fr]

@[simp] theorem State.trigAt_pkts (s : State) (hh : Nat) (k : AKind) (va : Nat) (f : State → State)
    (hk : ∀ s, (f s).pkts = s.pkts) : (s.trigAt hh k va f).pkts = s.pkts := by
  unfold State.trigAt
  (repeat' split) <;> simp [hk, kept @State.trigFires_fr]

@[simp] theorem State.trigAt_resp (s : State) (hh : Nat) (k : AKind) (va : Nat) (f : State → State)
    (hk : ∀ s, (f s).resp = s.resp) : (s.trigAt hh k va f).resp = s.resp := by
  unfold State.trigAt
  (repeat' split) <;> simp [hk, kept @State.trigFires_fr]

@[simp] theorem State.trigAt_regs (s : State) (hh : Nat) (k : AKind) (va : Nat) (f : State → State)
    (hk : ∀ s, (f s).regs = s.regs) : (s.trigAt hh k va f).regs = s.regs := by
  unfold State.trigAt
  (repeat' split) <;> simp [hk, kept @State.trigFires_fr]

@[simp] theorem State.trigAt_wires (s : State) (hh : Nat) (k : AKind) (va : Nat) (f : State → State)
    (hk : ∀ s, (f s).wires = s.wires) : (s.trigAt hh k va f).wires = s.wires := by
  unfold State.trigAt
  (repeat' split) <;> simp [hk, kept @State.trigFires_fr]

@[simp] theorem State.trigAt_dmg (s : State) (hh : Nat) (k : AKind) (va : Nat) (f : State → State)
    (hk : ∀ s, (f s).dmg = s.dmg) : (s.trigAt hh k va f).dmg = s.dmg := by
  unfold State.trigAt
  (repeat' split) <;> simp [hk, kept @State.trigFires_fr]

@[simp] theorem State.trigAt_wq (s : State) (hh : Nat) (k : AKind) (va : Nat) (f : State → State)
    (hk : ∀ s, (f s).wq = s.wq) : (s.trigAt hh k va f).wq = s.wq := by
  unfold State.trigAt
  (repeat' split) <;> simp [hk, kept @State.trigFires_fr]

@[simp] theorem State.trigAt_net (s : State) (hh : Nat) (k : AKind) (va : Nat) (f : State → State)
    (hk : ∀ s, (f s).net = s.net) : (s.trigAt hh k va f).net = s.net := by
  unfold State.trigAt
  (repeat' split) <;> simp [hk, kept @State.trigFires_fr]

@[simp] theorem State.trigAt_dbInval (s : State) (hh : Nat) (k : AKind) (va : Nat) (f : State → State)
    (hk : ∀ s, (f s).dbInval = s.dbInval) : (s.trigAt hh k va f).dbInval = s.dbInval := by
  unfold State.trigAt
  (repeat' split) <;> simp [hk, kept @State.trigFires_fr]

@[simp] theorem State.trigAt_watch (s : State) (hh : Nat) (k : AKind) (va : Nat) (f : State → State)
    (hk : ∀ s, (f s).watch = s.watch) : (s.trigAt hh k va f).watch = s.watch := by
  unfold State.trigAt
  (repeat' split) <;> simp [hk, kept @State.trigFires_fr]

@[simp] theorem State.trigAt_pkg (s : State) (hh : Nat) (k : AKind) (va : Nat) (f : State → State)
    (hk : ∀ s, (f s).pkg = s.pkg) : (s.trigAt hh k va f).pkg = s.pkg := by
  unfold State.trigAt
  (repeat' split) <;> simp [hk, kept @State.trigFires_fr]

@[simp] theorem State.trigAt_pmc (s : State) (hh : Nat) (k : AKind) (va : Nat) (f : State → State)
    (hk : ∀ s, (f s).pmc = s.pmc) : (s.trigAt hh k va f).pmc = s.pmc := by
  unfold State.trigAt
  (repeat' split) <;> simp [hk, kept @State.trigFires_fr]

@[simp] theorem State.trigAt_fwLog (s : State) (hh : Nat) (k : AKind) (va : Nat) (f : State → State)
    (hk : ∀ s, (f s).fwLog = s.fwLog) : (s.trigAt hh k va f).fwLog = s.fwLog := by
  unfold State.trigAt
  (repeat' split) <;> simp [hk, kept @State.trigFires_fr]

@[simp] theorem State.trigAt_out (s : State) (hh : Nat) (k : AKind) (va : Nat) (f : State → State)
    (hk : ∀ s, (f s).out = s.out) : (s.trigAt hh k va f).out = s.out := by
  unfold State.trigAt
  (repeat' split) <;> simp [hk, kept @State.trigFires_fr]

@[simp] theorem State.trigAt_free (s : State) (hh : Nat) (k : AKind) (va : Nat) (f : State → State)
    (hk : ∀ s, (f s).free = s.free) : (s.trigAt hh k va f).free = s.free := by
  unfold State.trigAt
  (repeat' split) <;> simp [hk, kept @State.trigFires_fr]

@[simp] theorem State.trigAt_fabric (s : State) (hh : Nat) (k : AKind) (va : Nat) (f : State → State)
    (hk : ∀ s, (f s).fabric = s.fabric) : (s.trigAt hh k va f).fabric = s.fabric := by
  unfold State.trigAt
  (repeat' split) <;> simp [hk, kept @State.trigFires_fr]

theorem State.mixed_fr (s : State) (hh : Nat) (store : Bool) (rd : Nat) (va : Nat) (size : Nat) (signed : Bool) (len : Nat) (bytes : List Byte) (near : List (Part × PAddr)) (far : List (Part × PAddr)) : (State.mixed s hh store rd va size signed len bytes near far).pending = s.pending ∧ (State.mixed s hh store rd va size signed len bytes near far).flash = s.flash ∧ (State.mixed s hh store rd va size signed len bytes near far).coldOpt = s.coldOpt ∧ (State.mixed s hh store rd va size signed len bytes near far).imsic = s.imsic ∧ (State.mixed s hh store rd va size signed len bytes near far).eng = s.eng ∧ (State.mixed s hh store rd va size signed len bytes near far).dm = s.dm ∧ (State.mixed s hh store rd va size signed len bytes near far).fx = s.fx ∧ (State.mixed s hh store rd va size signed len bytes near far).ctu = s.ctu ∧ (State.mixed s hh store rd va size signed len bytes near far).links = s.links ∧ (State.mixed s hh store rd va size signed len bytes near far).aplicS = s.aplicS ∧ (State.mixed s hh store rd va size signed len bytes near far).aplicN = s.aplicN ∧ (State.mixed s hh store rd va size signed len bytes near far).credits = s.credits ∧ (State.mixed s hh store rd va size signed len bytes near far).pkts = s.pkts ∧ (State.mixed s hh store rd va size signed len bytes near far).resp = s.resp ∧ (State.mixed s hh store rd va size signed len bytes near far).out = s.out ∧ (State.mixed s hh store rd va size signed len bytes near far).fabric = s.fabric ∧ (State.mixed s hh store rd va size signed len bytes near far).files = s.files := by
  generalize h : State.mixed s hh store rd va size signed len bytes near far = u
  unfold State.mixed at h
  (try dsimp only at h); (repeat' split at h) <;> (rw [← h]; (try simp only [Prod.ext_iff] at *); (try casesm* _ ∧ _); (try casesm* @Eq State _ _); (try simp [*, kept @State.except_fr, kept @State.hev_fr, kept @State.memFault_fr, kept @State.readPa_fr, kept @State.startAcc_fr, kept @State.writePa_fr]))

theorem State.loadStore_fr (s : State) (hh : Nat) (store : Bool) (reg : LsReg) (va : Nat) (size : Nat) (signed : Bool) (len : Nat) : (State.loadStore s hh store reg va size signed len).pending = s.pending ∧ (State.loadStore s hh store reg va size signed len).flash = s.flash ∧ (State.loadStore s hh store reg va size signed len).coldOpt = s.coldOpt ∧ (State.loadStore s hh store reg va size signed len).imsic = s.imsic ∧ (State.loadStore s hh store reg va size signed len).eng = s.eng ∧ (State.loadStore s hh store reg va size signed len).dm = s.dm ∧ (State.loadStore s hh store reg va size signed len).fx = s.fx ∧ (State.loadStore s hh store reg va size signed len).ctu = s.ctu ∧ (State.loadStore s hh store reg va size signed len).links = s.links ∧ (State.loadStore s hh store reg va size signed len).aplicS = s.aplicS ∧ (State.loadStore s hh store reg va size signed len).aplicN = s.aplicN ∧ (State.loadStore s hh store reg va size signed len).credits = s.credits ∧ (State.loadStore s hh store reg va size signed len).pkts = s.pkts ∧ (State.loadStore s hh store reg va size signed len).resp = s.resp ∧ (State.loadStore s hh store reg va size signed len).out = s.out ∧ (State.loadStore s hh store reg va size signed len).fabric = s.fabric ∧ (State.loadStore s hh store reg va size signed len).files = s.files := by
  generalize h : State.loadStore s hh store reg va size signed len = u
  unfold State.loadStore at h
  (try dsimp only at h); (repeat' split at h) <;> (rw [← h];  (try simp only [Prod.ext_iff] at *); (try casesm* _ ∧ _); (try casesm* @Eq State _ _); (try simp [*, kept @State.except_fr, kept @State.memFault_fr, kept @State.mixed_fr, kept @State.ncLoad_fr, kept @State.ncStore_fr, kept @State.startAcc_fr, kept @State.startIo_fr]))

theorem execLoadStore_fr (hh : Fin 216) (store : Bool) (reg : LsReg) (rs1 : Fin 32) (imm : Int) (size : Nat) (signed : Bool) (len : Nat) (s : State) {u : State} (h : execLoadStore hh store reg rs1 imm size signed len s = .next u) : u.pending = s.pending ∧ u.flash = s.flash ∧ u.coldOpt = s.coldOpt ∧ u.imsic = s.imsic ∧ u.eng = s.eng ∧ u.dm = s.dm ∧ u.fx = s.fx ∧ u.ctu = s.ctu ∧ u.links = s.links ∧ u.aplicS = s.aplicS ∧ u.aplicN = s.aplicN ∧ u.credits = s.credits ∧ u.pkts = s.pkts ∧ u.resp = s.resp ∧ u.out = s.out ∧ u.fabric = s.fabric ∧ u.files = s.files := by
  unfold execLoadStore at h
  (first | (simp only [Host.Outcome.next.injEq] at h; rw [← h]) | (simp only [reduceCtorEq] at h; done) | (simp only [Option.some.injEq] at h; rw [← h])); simp [kept @State.loadStore_fr]

theorem State.amoAt_fr (s : State) (hh : Nat) (op : AmoOp) (rd : Nat) (rs1 : Nat) (rs2 : Nat) (size : Nat) : (State.amoAt s hh op rd rs1 rs2 size).pending = s.pending ∧ (State.amoAt s hh op rd rs1 rs2 size).flash = s.flash ∧ (State.amoAt s hh op rd rs1 rs2 size).coldOpt = s.coldOpt ∧ (State.amoAt s hh op rd rs1 rs2 size).imsic = s.imsic ∧ (State.amoAt s hh op rd rs1 rs2 size).eng = s.eng ∧ (State.amoAt s hh op rd rs1 rs2 size).dm = s.dm ∧ (State.amoAt s hh op rd rs1 rs2 size).fx = s.fx ∧ (State.amoAt s hh op rd rs1 rs2 size).ctu = s.ctu ∧ (State.amoAt s hh op rd rs1 rs2 size).links = s.links ∧ (State.amoAt s hh op rd rs1 rs2 size).aplicS = s.aplicS ∧ (State.amoAt s hh op rd rs1 rs2 size).aplicN = s.aplicN ∧ (State.amoAt s hh op rd rs1 rs2 size).credits = s.credits ∧ (State.amoAt s hh op rd rs1 rs2 size).pkts = s.pkts ∧ (State.amoAt s hh op rd rs1 rs2 size).resp = s.resp ∧ (State.amoAt s hh op rd rs1 rs2 size).out = s.out ∧ (State.amoAt s hh op rd rs1 rs2 size).fabric = s.fabric ∧ (State.amoAt s hh op rd rs1 rs2 size).files = s.files := by
  generalize h : State.amoAt s hh op rd rs1 rs2 size = u
  unfold State.amoAt at h
  (try dsimp only at h); (repeat' split at h) <;> (rw [← h];  (try simp only [Prod.ext_iff] at *); (try casesm* _ ∧ _); (try casesm* @Eq State _ _); (try simp [*, kept @State.except_fr, kept @State.hev_fr, kept @State.homePull_fr, kept @State.locate_fr, kept @State.memFault_fr, kept @State.readPa_fr, kept @State.retireAt_fr, kept @State.setHart_fr, kept @State.startAcc_fr, kept @State.writePa_fr]))

theorem execAmo_fr (hh : Fin 216) (op : AmoOp) (rd : Fin 32) (rs1 : Fin 32) (rs2 : Fin 32) (size : Nat) (s : State) {u : State} (h : execAmo hh op rd rs1 rs2 size s = .next u) : u.pending = s.pending ∧ u.flash = s.flash ∧ u.coldOpt = s.coldOpt ∧ u.imsic = s.imsic ∧ u.eng = s.eng ∧ u.dm = s.dm ∧ u.fx = s.fx ∧ u.ctu = s.ctu ∧ u.links = s.links ∧ u.aplicS = s.aplicS ∧ u.aplicN = s.aplicN ∧ u.credits = s.credits ∧ u.pkts = s.pkts ∧ u.resp = s.resp ∧ u.out = s.out ∧ u.fabric = s.fabric ∧ u.files = s.files := by
  unfold execAmo at h
  (first | (simp only [Host.Outcome.next.injEq] at h; rw [← h]) | (simp only [reduceCtorEq] at h; done) | (simp only [Option.some.injEq] at h; rw [← h])); simp [kept @State.amoAt_fr]

theorem State.lrAt_fr (s : State) (hh : Nat) (rd : Nat) (rs1 : Nat) (size : Nat) : (State.lrAt s hh rd rs1 size).pending = s.pending ∧ (State.lrAt s hh rd rs1 size).flash = s.flash ∧ (State.lrAt s hh rd rs1 size).coldOpt = s.coldOpt ∧ (State.lrAt s hh rd rs1 size).imsic = s.imsic ∧ (State.lrAt s hh rd rs1 size).eng = s.eng ∧ (State.lrAt s hh rd rs1 size).dm = s.dm ∧ (State.lrAt s hh rd rs1 size).fx = s.fx ∧ (State.lrAt s hh rd rs1 size).ctu = s.ctu ∧ (State.lrAt s hh rd rs1 size).links = s.links ∧ (State.lrAt s hh rd rs1 size).aplicS = s.aplicS ∧ (State.lrAt s hh rd rs1 size).aplicN = s.aplicN ∧ (State.lrAt s hh rd rs1 size).credits = s.credits ∧ (State.lrAt s hh rd rs1 size).pkts = s.pkts ∧ (State.lrAt s hh rd rs1 size).resp = s.resp ∧ (State.lrAt s hh rd rs1 size).out = s.out ∧ (State.lrAt s hh rd rs1 size).fabric = s.fabric ∧ (State.lrAt s hh rd rs1 size).files = s.files := by
  generalize h : State.lrAt s hh rd rs1 size = u
  unfold State.lrAt at h
  (try dsimp only at h); (repeat' split at h) <;> (rw [← h]; (try simp only [Prod.ext_iff] at *); (try casesm* _ ∧ _); (try casesm* @Eq State _ _); (try simp [*, kept @State.except_fr, kept @State.locate_fr, kept @State.memFault_fr, kept @State.startAcc_fr]))

theorem execLr_fr (hh : Fin 216) (rd : Fin 32) (rs1 : Fin 32) (size : Nat) (s : State) {u : State} (h : execLr hh rd rs1 size s = .next u) : u.pending = s.pending ∧ u.flash = s.flash ∧ u.coldOpt = s.coldOpt ∧ u.imsic = s.imsic ∧ u.eng = s.eng ∧ u.dm = s.dm ∧ u.fx = s.fx ∧ u.ctu = s.ctu ∧ u.links = s.links ∧ u.aplicS = s.aplicS ∧ u.aplicN = s.aplicN ∧ u.credits = s.credits ∧ u.pkts = s.pkts ∧ u.resp = s.resp ∧ u.out = s.out ∧ u.fabric = s.fabric ∧ u.files = s.files := by
  unfold execLr at h
  (try dsimp only at h); (repeat' split at h) <;> ((first | (simp only [Host.Outcome.next.injEq] at h; rw [← h]) | (simp only [reduceCtorEq] at h; done) | (simp only [Option.some.injEq] at h; rw [← h])); (try simp only []); (try refine ⟨?_, ?_, ?_, ?_, ?_, ?_, ?_, ?_, ?_, ?_, ?_, ?_, ?_, ?_, ?_, ?_, ?_⟩) <;> (first | (simp [kept @State.lrAt_fr]; done) | ((first | with_reducible apply State.instr_pending | with_reducible apply State.instr_files | with_reducible apply State.instr_fabric | with_reducible apply State.instr_flash | with_reducible apply State.instr_coldOpt | with_reducible apply State.instr_imsic | with_reducible apply State.instr_eng | with_reducible apply State.instr_dm | with_reducible apply State.instr_fx | with_reducible apply State.instr_ctu | with_reducible apply State.instr_links | with_reducible apply State.instr_aplicS | with_reducible apply State.instr_aplicN | with_reducible apply State.instr_credits | with_reducible apply State.instr_pkts | with_reducible apply State.instr_resp | with_reducible apply State.instr_out) <;> (intros; (try dsimp only); (repeat' split) <;> first | exact keepsM_pure _ _ | ( (try simp only [Prod.ext_iff] at *); (try casesm* _ ∧ _); (try casesm* @Eq State _ _); (try simp [*, kept @State.lrAt_fr]))))))

theorem State.scAt_fr (s : State) (hh : Nat) (rd : Nat) (rs1 : Nat) (rs2 : Nat) (size : Nat) : (State.scAt s hh rd rs1 rs2 size).pending = s.pending ∧ (State.scAt s hh rd rs1 rs2 size).flash = s.flash ∧ (State.scAt s hh rd rs1 rs2 size).coldOpt = s.coldOpt ∧ (State.scAt s hh rd rs1 rs2 size).imsic = s.imsic ∧ (State.scAt s hh rd rs1 rs2 size).eng = s.eng ∧ (State.scAt s hh rd rs1 rs2 size).dm = s.dm ∧ (State.scAt s hh rd rs1 rs2 size).fx = s.fx ∧ (State.scAt s hh rd rs1 rs2 size).ctu = s.ctu ∧ (State.scAt s hh rd rs1 rs2 size).links = s.links ∧ (State.scAt s hh rd rs1 rs2 size).aplicS = s.aplicS ∧ (State.scAt s hh rd rs1 rs2 size).aplicN = s.aplicN ∧ (State.scAt s hh rd rs1 rs2 size).credits = s.credits ∧ (State.scAt s hh rd rs1 rs2 size).pkts = s.pkts ∧ (State.scAt s hh rd rs1 rs2 size).resp = s.resp ∧ (State.scAt s hh rd rs1 rs2 size).out = s.out ∧ (State.scAt s hh rd rs1 rs2 size).fabric = s.fabric ∧ (State.scAt s hh rd rs1 rs2 size).files = s.files := by
  generalize h : State.scAt s hh rd rs1 rs2 size = u
  unfold State.scAt at h
  (try dsimp only at h); (repeat' split at h) <;> (rw [← h]; (try simp only [Prod.ext_iff] at *); (try casesm* _ ∧ _); (try casesm* @Eq State _ _); (try simp [*, kept @State.except_fr, kept @State.locate_fr, kept @State.memFault_fr, kept @State.retireAt_fr, kept @State.setHart_fr, kept @State.startAcc_fr]))

theorem execSc_fr (hh : Fin 216) (rd : Fin 32) (rs1 : Fin 32) (rs2 : Fin 32) (size : Nat) (s : State) {u : State} (h : execSc hh rd rs1 rs2 size s = .next u) : u.pending = s.pending ∧ u.flash = s.flash ∧ u.coldOpt = s.coldOpt ∧ u.imsic = s.imsic ∧ u.eng = s.eng ∧ u.dm = s.dm ∧ u.fx = s.fx ∧ u.ctu = s.ctu ∧ u.links = s.links ∧ u.aplicS = s.aplicS ∧ u.aplicN = s.aplicN ∧ u.credits = s.credits ∧ u.pkts = s.pkts ∧ u.resp = s.resp ∧ u.out = s.out ∧ u.fabric = s.fabric ∧ u.files = s.files := by
  unfold execSc at h
  (try dsimp only at h); (repeat' split at h) <;> ((first | (simp only [Host.Outcome.next.injEq] at h; rw [← h]) | (simp only [reduceCtorEq] at h; done) | (simp only [Option.some.injEq] at h; rw [← h])); (try simp only []); (try refine ⟨?_, ?_, ?_, ?_, ?_, ?_, ?_, ?_, ?_, ?_, ?_, ?_, ?_, ?_, ?_, ?_, ?_⟩) <;> (first | (simp [kept @State.scAt_fr]; done) | ((first | with_reducible apply State.instr_pending | with_reducible apply State.instr_files | with_reducible apply State.instr_fabric | with_reducible apply State.instr_flash | with_reducible apply State.instr_coldOpt | with_reducible apply State.instr_imsic | with_reducible apply State.instr_eng | with_reducible apply State.instr_dm | with_reducible apply State.instr_fx | with_reducible apply State.instr_ctu | with_reducible apply State.instr_links | with_reducible apply State.instr_aplicS | with_reducible apply State.instr_aplicN | with_reducible apply State.instr_credits | with_reducible apply State.instr_pkts | with_reducible apply State.instr_resp | with_reducible apply State.instr_out) <;> (intros; (try dsimp only); (repeat' split) <;> first | exact keepsM_pure _ _ | ( (try simp only [Prod.ext_iff] at *); (try casesm* _ ∧ _); (try casesm* @Eq State _ _); (try simp [*, kept @State.scAt_fr]))))))

theorem execFence_fr (hh : Fin 216) (_pred : Nat) (_succ : Nat) (s : State) {u : State} (h : execFence hh _pred _succ s = .next u) : u.pending = s.pending ∧ u.flash = s.flash ∧ u.coldOpt = s.coldOpt ∧ u.imsic = s.imsic ∧ u.eng = s.eng ∧ u.dm = s.dm ∧ u.fx = s.fx ∧ u.ctu = s.ctu ∧ u.links = s.links ∧ u.aplicS = s.aplicS ∧ u.aplicN = s.aplicN ∧ u.credits = s.credits ∧ u.pkts = s.pkts ∧ u.resp = s.resp ∧ u.out = s.out ∧ u.fabric = s.fabric ∧ u.files = s.files := by
  unfold execFence at h
  (first | (simp only [Host.Outcome.next.injEq] at h; rw [← h]) | (simp only [reduceCtorEq] at h; done) | (simp only [Option.some.injEq] at h; rw [← h])); simp [kept @State.retire_fr]

theorem execFenceI_fr (hh : Fin 216) (s : State) {u : State} (h : execFenceI hh s = .next u) : u.pending = s.pending ∧ u.flash = s.flash ∧ u.coldOpt = s.coldOpt ∧ u.imsic = s.imsic ∧ u.eng = s.eng ∧ u.dm = s.dm ∧ u.fx = s.fx ∧ u.ctu = s.ctu ∧ u.links = s.links ∧ u.aplicS = s.aplicS ∧ u.aplicN = s.aplicN ∧ u.credits = s.credits ∧ u.pkts = s.pkts ∧ u.resp = s.resp ∧ u.out = s.out ∧ u.fabric = s.fabric ∧ u.files = s.files := by
  unfold execFenceI at h
  (first | (simp only [Host.Outcome.next.injEq] at h; rw [← h]) | (simp only [reduceCtorEq] at h; done) | (simp only [Option.some.injEq] at h; rw [← h])); simp [kept @State.retire_fr]

theorem State.cboWhere_fr (s : State) (hh : Nat) (acc : HAcc) (va : Nat) : (State.cboWhere s hh acc va).2.pending = s.pending ∧ (State.cboWhere s hh acc va).2.flash = s.flash ∧ (State.cboWhere s hh acc va).2.coldOpt = s.coldOpt ∧ (State.cboWhere s hh acc va).2.mem = s.mem ∧ (State.cboWhere s hh acc va).2.imsic = s.imsic ∧ (State.cboWhere s hh acc va).2.eng = s.eng ∧ (State.cboWhere s hh acc va).2.dm = s.dm ∧ (State.cboWhere s hh acc va).2.fx = s.fx ∧ (State.cboWhere s hh acc va).2.ctu = s.ctu ∧ (State.cboWhere s hh acc va).2.links = s.links ∧ (State.cboWhere s hh acc va).2.aplicS = s.aplicS ∧ (State.cboWhere s hh acc va).2.aplicN = s.aplicN ∧ (State.cboWhere s hh acc va).2.credits = s.credits ∧ (State.cboWhere s hh acc va).2.pkts = s.pkts ∧ (State.cboWhere s hh acc va).2.resp = s.resp ∧ (State.cboWhere s hh acc va).2.dmg = s.dmg ∧ (State.cboWhere s hh acc va).2.dbInval = s.dbInval ∧ (State.cboWhere s hh acc va).2.watch = s.watch ∧ (State.cboWhere s hh acc va).2.out = s.out ∧ (State.cboWhere s hh acc va).2.free = s.free ∧ (State.cboWhere s hh acc va).2.fabric = s.fabric ∧ (State.cboWhere s hh acc va).2.files = s.files := by
  generalize h : (State.cboWhere s hh acc va).2 = u
  unfold State.cboWhere at h
  (try dsimp only at h); (repeat' split at h) <;> (rw [← h];  (try simp only [Prod.ext_iff] at *); (try casesm* _ ∧ _); (try casesm* @Eq State _ _); (try simp [*, kept @State.locate_fr]))

theorem State.cbo_fr (s : State) (hh : Nat) (rs1 : Fin 32) (ok : Nat → Bool) (acc : HAcc) : (State.cbo s hh rs1 ok acc).pending = s.pending ∧ (State.cbo s hh rs1 ok acc).flash = s.flash ∧ (State.cbo s hh rs1 ok acc).coldOpt = s.coldOpt ∧ (State.cbo s hh rs1 ok acc).imsic = s.imsic ∧ (State.cbo s hh rs1 ok acc).eng = s.eng ∧ (State.cbo s hh rs1 ok acc).dm = s.dm ∧ (State.cbo s hh rs1 ok acc).fx = s.fx ∧ (State.cbo s hh rs1 ok acc).ctu = s.ctu ∧ (State.cbo s hh rs1 ok acc).links = s.links ∧ (State.cbo s hh rs1 ok acc).aplicS = s.aplicS ∧ (State.cbo s hh rs1 ok acc).aplicN = s.aplicN ∧ (State.cbo s hh rs1 ok acc).credits = s.credits ∧ (State.cbo s hh rs1 ok acc).pkts = s.pkts ∧ (State.cbo s hh rs1 ok acc).resp = s.resp ∧ (State.cbo s hh rs1 ok acc).out = s.out ∧ (State.cbo s hh rs1 ok acc).fabric = s.fabric ∧ (State.cbo s hh rs1 ok acc).files = s.files := by
  generalize h : State.cbo s hh rs1 ok acc = u
  unfold State.cbo at h
  (try dsimp only at h); (repeat' split at h) <;> (rw [← h];  (try simp only [Prod.ext_iff] at *); (try casesm* _ ∧ _); (try casesm* @Eq State _ _); (try simp [*, kept @State.cboWhere_fr, kept @State.except_fr, kept @State.memFault_fr, kept @State.startAcc_fr]))

theorem execCboZero_fr (hh : Fin 216) (rs1 : Fin 32) (s : State) {u : State} (h : execCboZero hh rs1 s = .next u) : u.pending = s.pending ∧ u.flash = s.flash ∧ u.coldOpt = s.coldOpt ∧ u.imsic = s.imsic ∧ u.eng = s.eng ∧ u.dm = s.dm ∧ u.fx = s.fx ∧ u.ctu = s.ctu ∧ u.links = s.links ∧ u.aplicS = s.aplicS ∧ u.aplicN = s.aplicN ∧ u.credits = s.credits ∧ u.pkts = s.pkts ∧ u.resp = s.resp ∧ u.out = s.out ∧ u.fabric = s.fabric ∧ u.files = s.files := by
  unfold execCboZero at h
  (first | (simp only [Host.Outcome.next.injEq] at h; rw [← h]) | (simp only [reduceCtorEq] at h; done) | (simp only [Option.some.injEq] at h; rw [← h])); simp [kept @State.cbo_fr]

theorem execCboClean_fr (hh : Fin 216) (rs1 : Fin 32) (s : State) {u : State} (h : execCboClean hh rs1 s = .next u) : u.pending = s.pending ∧ u.flash = s.flash ∧ u.coldOpt = s.coldOpt ∧ u.imsic = s.imsic ∧ u.eng = s.eng ∧ u.dm = s.dm ∧ u.fx = s.fx ∧ u.ctu = s.ctu ∧ u.links = s.links ∧ u.aplicS = s.aplicS ∧ u.aplicN = s.aplicN ∧ u.credits = s.credits ∧ u.pkts = s.pkts ∧ u.resp = s.resp ∧ u.out = s.out ∧ u.fabric = s.fabric ∧ u.files = s.files := by
  unfold execCboClean at h
  (first | (simp only [Host.Outcome.next.injEq] at h; rw [← h]) | (simp only [reduceCtorEq] at h; done) | (simp only [Option.some.injEq] at h; rw [← h])); simp [kept @State.cbo_fr]

theorem execCboFlush_fr (hh : Fin 216) (rs1 : Fin 32) (s : State) {u : State} (h : execCboFlush hh rs1 s = .next u) : u.pending = s.pending ∧ u.flash = s.flash ∧ u.coldOpt = s.coldOpt ∧ u.imsic = s.imsic ∧ u.eng = s.eng ∧ u.dm = s.dm ∧ u.fx = s.fx ∧ u.ctu = s.ctu ∧ u.links = s.links ∧ u.aplicS = s.aplicS ∧ u.aplicN = s.aplicN ∧ u.credits = s.credits ∧ u.pkts = s.pkts ∧ u.resp = s.resp ∧ u.out = s.out ∧ u.fabric = s.fabric ∧ u.files = s.files := by
  unfold execCboFlush at h
  (first | (simp only [Host.Outcome.next.injEq] at h; rw [← h]) | (simp only [reduceCtorEq] at h; done) | (simp only [Option.some.injEq] at h; rw [← h])); simp [kept @State.cbo_fr]

theorem execCboInval_fr (hh : Fin 216) (rs1 : Fin 32) (s : State) {u : State} (h : execCboInval hh rs1 s = .next u) : u.pending = s.pending ∧ u.flash = s.flash ∧ u.coldOpt = s.coldOpt ∧ u.imsic = s.imsic ∧ u.eng = s.eng ∧ u.dm = s.dm ∧ u.fx = s.fx ∧ u.ctu = s.ctu ∧ u.links = s.links ∧ u.aplicS = s.aplicS ∧ u.aplicN = s.aplicN ∧ u.credits = s.credits ∧ u.pkts = s.pkts ∧ u.resp = s.resp ∧ u.out = s.out ∧ u.fabric = s.fabric ∧ u.files = s.files := by
  unfold execCboInval at h
  (first | (simp only [Host.Outcome.next.injEq] at h; rw [← h]) | (simp only [reduceCtorEq] at h; done) | (simp only [Option.some.injEq] at h; rw [← h])); simp [kept @State.cbo_fr]

theorem State.prefetch_fr (s : State) (hh : Nat) (rs1 : Fin 32) (imm : Int) (k : AKind) (r : ReqKind) : (State.prefetch s hh rs1 imm k r).pending = s.pending ∧ (State.prefetch s hh rs1 imm k r).flash = s.flash ∧ (State.prefetch s hh rs1 imm k r).coldOpt = s.coldOpt ∧ (State.prefetch s hh rs1 imm k r).imsic = s.imsic ∧ (State.prefetch s hh rs1 imm k r).eng = s.eng ∧ (State.prefetch s hh rs1 imm k r).dm = s.dm ∧ (State.prefetch s hh rs1 imm k r).fx = s.fx ∧ (State.prefetch s hh rs1 imm k r).ctu = s.ctu ∧ (State.prefetch s hh rs1 imm k r).links = s.links ∧ (State.prefetch s hh rs1 imm k r).aplicS = s.aplicS ∧ (State.prefetch s hh rs1 imm k r).aplicN = s.aplicN ∧ (State.prefetch s hh rs1 imm k r).credits = s.credits ∧ (State.prefetch s hh rs1 imm k r).pkts = s.pkts ∧ (State.prefetch s hh rs1 imm k r).resp = s.resp ∧ (State.prefetch s hh rs1 imm k r).out = s.out ∧ (State.prefetch s hh rs1 imm k r).fabric = s.fabric ∧ (State.prefetch s hh rs1 imm k r).files = s.files := by
  generalize h : State.prefetch s hh rs1 imm k r = u
  unfold State.prefetch at h
  (try dsimp only at h); (repeat' split at h) <;> (rw [← h];  (try simp only [Prod.ext_iff] at *); (try casesm* _ ∧ _); (try casesm* @Eq State _ _); (try simp [*, kept @State.access_fr, kept @State.locate_fr, kept @State.retire_fr]))

theorem execPrefetchR_fr (hh : Fin 216) (rs1 : Fin 32) (imm : Int) (s : State) {u : State} (h : execPrefetchR hh rs1 imm s = .next u) : u.pending = s.pending ∧ u.flash = s.flash ∧ u.coldOpt = s.coldOpt ∧ u.imsic = s.imsic ∧ u.eng = s.eng ∧ u.dm = s.dm ∧ u.fx = s.fx ∧ u.ctu = s.ctu ∧ u.links = s.links ∧ u.aplicS = s.aplicS ∧ u.aplicN = s.aplicN ∧ u.credits = s.credits ∧ u.pkts = s.pkts ∧ u.resp = s.resp ∧ u.out = s.out ∧ u.fabric = s.fabric ∧ u.files = s.files := by
  unfold execPrefetchR at h
  (first | (simp only [Host.Outcome.next.injEq] at h; rw [← h]) | (simp only [reduceCtorEq] at h; done) | (simp only [Option.some.injEq] at h; rw [← h])); simp [kept @State.prefetch_fr]

theorem execPrefetchW_fr (hh : Fin 216) (rs1 : Fin 32) (imm : Int) (s : State) {u : State} (h : execPrefetchW hh rs1 imm s = .next u) : u.pending = s.pending ∧ u.flash = s.flash ∧ u.coldOpt = s.coldOpt ∧ u.imsic = s.imsic ∧ u.eng = s.eng ∧ u.dm = s.dm ∧ u.fx = s.fx ∧ u.ctu = s.ctu ∧ u.links = s.links ∧ u.aplicS = s.aplicS ∧ u.aplicN = s.aplicN ∧ u.credits = s.credits ∧ u.pkts = s.pkts ∧ u.resp = s.resp ∧ u.out = s.out ∧ u.fabric = s.fabric ∧ u.files = s.files := by
  unfold execPrefetchW at h
  (first | (simp only [Host.Outcome.next.injEq] at h; rw [← h]) | (simp only [reduceCtorEq] at h; done) | (simp only [Option.some.injEq] at h; rw [← h])); simp [kept @State.prefetch_fr]

theorem execPrefetchI_fr (hh : Fin 216) (rs1 : Fin 32) (imm : Int) (s : State) {u : State} (h : execPrefetchI hh rs1 imm s = .next u) : u.pending = s.pending ∧ u.flash = s.flash ∧ u.coldOpt = s.coldOpt ∧ u.imsic = s.imsic ∧ u.eng = s.eng ∧ u.dm = s.dm ∧ u.fx = s.fx ∧ u.ctu = s.ctu ∧ u.links = s.links ∧ u.aplicS = s.aplicS ∧ u.aplicN = s.aplicN ∧ u.credits = s.credits ∧ u.pkts = s.pkts ∧ u.resp = s.resp ∧ u.out = s.out ∧ u.fabric = s.fabric ∧ u.files = s.files := by
  unfold execPrefetchI at h
  (first | (simp only [Host.Outcome.next.injEq] at h; rw [← h]) | (simp only [reduceCtorEq] at h; done) | (simp only [Option.some.injEq] at h; rw [← h])); simp [kept @State.prefetch_fr]

theorem State.ioEnds_fr (s : State) (hh : Nat) (a : IoAccess) (v : Nat) : (State.ioEnds s hh a v).pending = s.pending ∧ (State.ioEnds s hh a v).flash = s.flash ∧ (State.ioEnds s hh a v).coldOpt = s.coldOpt ∧ (State.ioEnds s hh a v).imsic = s.imsic ∧ (State.ioEnds s hh a v).eng = s.eng ∧ (State.ioEnds s hh a v).dm = s.dm ∧ (State.ioEnds s hh a v).fx = s.fx ∧ (State.ioEnds s hh a v).ctu = s.ctu ∧ (State.ioEnds s hh a v).links = s.links ∧ (State.ioEnds s hh a v).aplicS = s.aplicS ∧ (State.ioEnds s hh a v).aplicN = s.aplicN ∧ (State.ioEnds s hh a v).credits = s.credits ∧ (State.ioEnds s hh a v).pkts = s.pkts ∧ (State.ioEnds s hh a v).resp = s.resp ∧ (State.ioEnds s hh a v).out = s.out ∧ (State.ioEnds s hh a v).fabric = s.fabric ∧ (State.ioEnds s hh a v).files = s.files := by
  generalize h : State.ioEnds s hh a v = u
  unfold State.ioEnds at h
  rw [← h]; simp [kept @State.retireAt_fr, kept @State.setHart_fr]

theorem execRegDone_fr (hh : Fin 216) (s : State) {u : State} (h : execRegDone hh s = .next u) : u.pending = s.pending ∧ u.flash = s.flash ∧ u.coldOpt = s.coldOpt ∧ u.resp = s.resp := by
  unfold execRegDone at h
  (try dsimp only at h); (repeat' split at h) <;> ((first | (simp only [Host.Outcome.next.injEq] at h; rw [← h]) | (simp only [reduceCtorEq] at h; done) | (simp only [Option.some.injEq] at h; rw [← h]));  (try simp only [Prod.ext_iff] at *); (try casesm* _ ∧ _); (try casesm* @Eq State _ _); (try simp [*, kept @State.ioEnds_fr, kept @State.ioFails_fr, kept @State.regRead_fr, kept @State.regWrite_fr]))

@[simp] theorem State.ioPerform_pending (s : State) (hh : Nat) (write : Bool) (f : Nat → IoAccess → State → State) (hf : ∀ x0 x1 x2, (f x0 x1 x2).pending = x2.pending) : (State.ioPerform s hh write f).pending = s.pending := by
  unfold State.ioPerform
  first
  | (simp [*, kept @State.ioFails_fr, kept @State.logFw_fr, kept @State.pmcAdd_fr, kept @State.send_fr, kept @State.viol_fr]; done)
  | ((repeat' split) <;> simp [*, kept @State.ioFails_fr, kept @State.logFw_fr, kept @State.pmcAdd_fr, kept @State.send_fr, kept @State.viol_fr]; done)
  | ((try dsimp only); (repeat' split) <;> simp (disch := (intros; (repeat' split) <;> simp [*, kept @State.ioFails_fr, kept @State.logFw_fr, kept @State.pmcAdd_fr, kept @State.send_fr, kept @State.viol_fr])) [*, kept @State.ioFails_fr, kept @State.logFw_fr, kept @State.pmcAdd_fr, kept @State.send_fr, kept @State.viol_fr]; done)
  | (refine State.taskDo_pending _ _ _ (fun _ => ?_); (repeat' split) <;> first | exact keepsM_pure _ _ | (simp [*, kept @State.ioFails_fr, kept @State.logFw_fr, kept @State.pmcAdd_fr, kept @State.send_fr, kept @State.viol_fr]; done))

@[simp] theorem State.ioPerform_files (s : State) (hh : Nat) (write : Bool) (f : Nat → IoAccess → State → State) (hf : ∀ x0 x1 x2, (f x0 x1 x2).files = x2.files) : (State.ioPerform s hh write f).files = s.files := by
  unfold State.ioPerform
  first
  | (simp [*, kept @State.ioFails_fr, kept @State.logFw_fr, kept @State.pmcAdd_fr, kept @State.send_fr, kept @State.viol_fr]; done)
  | ((repeat' split) <;> simp [*, kept @State.ioFails_fr, kept @State.logFw_fr, kept @State.pmcAdd_fr, kept @State.send_fr, kept @State.viol_fr]; done)
  | ((try dsimp only); (repeat' split) <;> simp (disch := (intros; (repeat' split) <;> simp [*, kept @State.ioFails_fr, kept @State.logFw_fr, kept @State.pmcAdd_fr, kept @State.send_fr, kept @State.viol_fr])) [*, kept @State.ioFails_fr, kept @State.logFw_fr, kept @State.pmcAdd_fr, kept @State.send_fr, kept @State.viol_fr]; done)
  | (refine State.taskDo_files _ _ _ (fun _ => ?_); (repeat' split) <;> first | exact keepsM_pure _ _ | (simp [*, kept @State.ioFails_fr, kept @State.logFw_fr, kept @State.pmcAdd_fr, kept @State.send_fr, kept @State.viol_fr]; done))

@[simp] theorem State.ioPerform_fabric (s : State) (hh : Nat) (write : Bool) (f : Nat → IoAccess → State → State) (hf : ∀ x0 x1 x2, (f x0 x1 x2).fabric = x2.fabric) : (State.ioPerform s hh write f).fabric = s.fabric := by
  unfold State.ioPerform
  first
  | (simp [*, kept @State.ioFails_fr, kept @State.logFw_fr, kept @State.pmcAdd_fr, kept @State.send_fr, kept @State.viol_fr]; done)
  | ((repeat' split) <;> simp [*, kept @State.ioFails_fr, kept @State.logFw_fr, kept @State.pmcAdd_fr, kept @State.send_fr, kept @State.viol_fr]; done)
  | ((try dsimp only); (repeat' split) <;> simp (disch := (intros; (repeat' split) <;> simp [*, kept @State.ioFails_fr, kept @State.logFw_fr, kept @State.pmcAdd_fr, kept @State.send_fr, kept @State.viol_fr])) [*, kept @State.ioFails_fr, kept @State.logFw_fr, kept @State.pmcAdd_fr, kept @State.send_fr, kept @State.viol_fr]; done)
  | (refine State.taskDo_fabric _ _ _ (fun _ => ?_); (repeat' split) <;> first | exact keepsM_pure _ _ | (simp [*, kept @State.ioFails_fr, kept @State.logFw_fr, kept @State.pmcAdd_fr, kept @State.send_fr, kept @State.viol_fr]; done))

@[simp] theorem State.ioPerform_flash (s : State) (hh : Nat) (write : Bool) (f : Nat → IoAccess → State → State) (hf : ∀ x0 x1 x2, (f x0 x1 x2).flash = x2.flash) : (State.ioPerform s hh write f).flash = s.flash := by
  unfold State.ioPerform
  first
  | (simp [*, kept @State.ioFails_fr, kept @State.logFw_fr, kept @State.pmcAdd_fr, kept @State.send_fr, kept @State.viol_fr]; done)
  | ((repeat' split) <;> simp [*, kept @State.ioFails_fr, kept @State.logFw_fr, kept @State.pmcAdd_fr, kept @State.send_fr, kept @State.viol_fr]; done)
  | ((try dsimp only); (repeat' split) <;> simp (disch := (intros; (repeat' split) <;> simp [*, kept @State.ioFails_fr, kept @State.logFw_fr, kept @State.pmcAdd_fr, kept @State.send_fr, kept @State.viol_fr])) [*, kept @State.ioFails_fr, kept @State.logFw_fr, kept @State.pmcAdd_fr, kept @State.send_fr, kept @State.viol_fr]; done)
  | (refine State.taskDo_flash _ _ _ (fun _ => ?_); (repeat' split) <;> first | exact keepsM_pure _ _ | (simp [*, kept @State.ioFails_fr, kept @State.logFw_fr, kept @State.pmcAdd_fr, kept @State.send_fr, kept @State.viol_fr]; done))

@[simp] theorem State.ioPerform_coldOpt (s : State) (hh : Nat) (write : Bool) (f : Nat → IoAccess → State → State) (hf : ∀ x0 x1 x2, (f x0 x1 x2).coldOpt = x2.coldOpt) : (State.ioPerform s hh write f).coldOpt = s.coldOpt := by
  unfold State.ioPerform
  first
  | (simp [*, kept @State.ioFails_fr, kept @State.logFw_fr, kept @State.pmcAdd_fr, kept @State.send_fr, kept @State.viol_fr]; done)
  | ((repeat' split) <;> simp [*, kept @State.ioFails_fr, kept @State.logFw_fr, kept @State.pmcAdd_fr, kept @State.send_fr, kept @State.viol_fr]; done)
  | ((try dsimp only); (repeat' split) <;> simp (disch := (intros; (repeat' split) <;> simp [*, kept @State.ioFails_fr, kept @State.logFw_fr, kept @State.pmcAdd_fr, kept @State.send_fr, kept @State.viol_fr])) [*, kept @State.ioFails_fr, kept @State.logFw_fr, kept @State.pmcAdd_fr, kept @State.send_fr, kept @State.viol_fr]; done)
  | (refine State.taskDo_coldOpt _ _ _ (fun _ => ?_); (repeat' split) <;> first | exact keepsM_pure _ _ | (simp [*, kept @State.ioFails_fr, kept @State.logFw_fr, kept @State.pmcAdd_fr, kept @State.send_fr, kept @State.viol_fr]; done))

@[simp] theorem State.ioPerform_imsic (s : State) (hh : Nat) (write : Bool) (f : Nat → IoAccess → State → State) (hf : ∀ x0 x1 x2, (f x0 x1 x2).imsic = x2.imsic) : (State.ioPerform s hh write f).imsic = s.imsic := by
  unfold State.ioPerform
  first
  | (simp [*, kept @State.ioFails_fr, kept @State.logFw_fr, kept @State.pmcAdd_fr, kept @State.send_fr, kept @State.viol_fr]; done)
  | ((repeat' split) <;> simp [*, kept @State.ioFails_fr, kept @State.logFw_fr, kept @State.pmcAdd_fr, kept @State.send_fr, kept @State.viol_fr]; done)
  | ((try dsimp only); (repeat' split) <;> simp (disch := (intros; (repeat' split) <;> simp [*, kept @State.ioFails_fr, kept @State.logFw_fr, kept @State.pmcAdd_fr, kept @State.send_fr, kept @State.viol_fr])) [*, kept @State.ioFails_fr, kept @State.logFw_fr, kept @State.pmcAdd_fr, kept @State.send_fr, kept @State.viol_fr]; done)
  | (refine State.taskDo_imsic _ _ _ (fun _ => ?_); (repeat' split) <;> first | exact keepsM_pure _ _ | (simp [*, kept @State.ioFails_fr, kept @State.logFw_fr, kept @State.pmcAdd_fr, kept @State.send_fr, kept @State.viol_fr]; done))

@[simp] theorem State.ioPerform_eng (s : State) (hh : Nat) (write : Bool) (f : Nat → IoAccess → State → State) (hf : ∀ x0 x1 x2, (f x0 x1 x2).eng = x2.eng) : (State.ioPerform s hh write f).eng = s.eng := by
  unfold State.ioPerform
  first
  | (simp [*, kept @State.ioFails_fr, kept @State.logFw_fr, kept @State.pmcAdd_fr, kept @State.send_fr, kept @State.viol_fr]; done)
  | ((repeat' split) <;> simp [*, kept @State.ioFails_fr, kept @State.logFw_fr, kept @State.pmcAdd_fr, kept @State.send_fr, kept @State.viol_fr]; done)
  | ((try dsimp only); (repeat' split) <;> simp (disch := (intros; (repeat' split) <;> simp [*, kept @State.ioFails_fr, kept @State.logFw_fr, kept @State.pmcAdd_fr, kept @State.send_fr, kept @State.viol_fr])) [*, kept @State.ioFails_fr, kept @State.logFw_fr, kept @State.pmcAdd_fr, kept @State.send_fr, kept @State.viol_fr]; done)
  | (refine State.taskDo_eng _ _ _ (fun _ => ?_); (repeat' split) <;> first | exact keepsM_pure _ _ | (simp [*, kept @State.ioFails_fr, kept @State.logFw_fr, kept @State.pmcAdd_fr, kept @State.send_fr, kept @State.viol_fr]; done))

@[simp] theorem State.ioPerform_dm (s : State) (hh : Nat) (write : Bool) (f : Nat → IoAccess → State → State) (hf : ∀ x0 x1 x2, (f x0 x1 x2).dm = x2.dm) : (State.ioPerform s hh write f).dm = s.dm := by
  unfold State.ioPerform
  first
  | (simp [*, kept @State.ioFails_fr, kept @State.logFw_fr, kept @State.pmcAdd_fr, kept @State.send_fr, kept @State.viol_fr]; done)
  | ((repeat' split) <;> simp [*, kept @State.ioFails_fr, kept @State.logFw_fr, kept @State.pmcAdd_fr, kept @State.send_fr, kept @State.viol_fr]; done)
  | ((try dsimp only); (repeat' split) <;> simp (disch := (intros; (repeat' split) <;> simp [*, kept @State.ioFails_fr, kept @State.logFw_fr, kept @State.pmcAdd_fr, kept @State.send_fr, kept @State.viol_fr])) [*, kept @State.ioFails_fr, kept @State.logFw_fr, kept @State.pmcAdd_fr, kept @State.send_fr, kept @State.viol_fr]; done)
  | (refine State.taskDo_dm _ _ _ (fun _ => ?_); (repeat' split) <;> first | exact keepsM_pure _ _ | (simp [*, kept @State.ioFails_fr, kept @State.logFw_fr, kept @State.pmcAdd_fr, kept @State.send_fr, kept @State.viol_fr]; done))

@[simp] theorem State.ioPerform_fx (s : State) (hh : Nat) (write : Bool) (f : Nat → IoAccess → State → State) (hf : ∀ x0 x1 x2, (f x0 x1 x2).fx = x2.fx) : (State.ioPerform s hh write f).fx = s.fx := by
  unfold State.ioPerform
  first
  | (simp [*, kept @State.ioFails_fr, kept @State.logFw_fr, kept @State.pmcAdd_fr, kept @State.send_fr, kept @State.viol_fr]; done)
  | ((repeat' split) <;> simp [*, kept @State.ioFails_fr, kept @State.logFw_fr, kept @State.pmcAdd_fr, kept @State.send_fr, kept @State.viol_fr]; done)
  | ((try dsimp only); (repeat' split) <;> simp (disch := (intros; (repeat' split) <;> simp [*, kept @State.ioFails_fr, kept @State.logFw_fr, kept @State.pmcAdd_fr, kept @State.send_fr, kept @State.viol_fr])) [*, kept @State.ioFails_fr, kept @State.logFw_fr, kept @State.pmcAdd_fr, kept @State.send_fr, kept @State.viol_fr]; done)
  | (refine State.taskDo_fx _ _ _ (fun _ => ?_); (repeat' split) <;> first | exact keepsM_pure _ _ | (simp [*, kept @State.ioFails_fr, kept @State.logFw_fr, kept @State.pmcAdd_fr, kept @State.send_fr, kept @State.viol_fr]; done))

@[simp] theorem State.ioPerform_ctu (s : State) (hh : Nat) (write : Bool) (f : Nat → IoAccess → State → State) (hf : ∀ x0 x1 x2, (f x0 x1 x2).ctu = x2.ctu) : (State.ioPerform s hh write f).ctu = s.ctu := by
  unfold State.ioPerform
  first
  | (simp [*, kept @State.ioFails_fr, kept @State.logFw_fr, kept @State.pmcAdd_fr, kept @State.send_fr, kept @State.viol_fr]; done)
  | ((repeat' split) <;> simp [*, kept @State.ioFails_fr, kept @State.logFw_fr, kept @State.pmcAdd_fr, kept @State.send_fr, kept @State.viol_fr]; done)
  | ((try dsimp only); (repeat' split) <;> simp (disch := (intros; (repeat' split) <;> simp [*, kept @State.ioFails_fr, kept @State.logFw_fr, kept @State.pmcAdd_fr, kept @State.send_fr, kept @State.viol_fr])) [*, kept @State.ioFails_fr, kept @State.logFw_fr, kept @State.pmcAdd_fr, kept @State.send_fr, kept @State.viol_fr]; done)
  | (refine State.taskDo_ctu _ _ _ (fun _ => ?_); (repeat' split) <;> first | exact keepsM_pure _ _ | (simp [*, kept @State.ioFails_fr, kept @State.logFw_fr, kept @State.pmcAdd_fr, kept @State.send_fr, kept @State.viol_fr]; done))

@[simp] theorem State.ioPerform_links (s : State) (hh : Nat) (write : Bool) (f : Nat → IoAccess → State → State) (hf : ∀ x0 x1 x2, (f x0 x1 x2).links = x2.links) : (State.ioPerform s hh write f).links = s.links := by
  unfold State.ioPerform
  first
  | (simp [*, kept @State.ioFails_fr, kept @State.logFw_fr, kept @State.pmcAdd_fr, kept @State.send_fr, kept @State.viol_fr]; done)
  | ((repeat' split) <;> simp [*, kept @State.ioFails_fr, kept @State.logFw_fr, kept @State.pmcAdd_fr, kept @State.send_fr, kept @State.viol_fr]; done)
  | ((try dsimp only); (repeat' split) <;> simp (disch := (intros; (repeat' split) <;> simp [*, kept @State.ioFails_fr, kept @State.logFw_fr, kept @State.pmcAdd_fr, kept @State.send_fr, kept @State.viol_fr])) [*, kept @State.ioFails_fr, kept @State.logFw_fr, kept @State.pmcAdd_fr, kept @State.send_fr, kept @State.viol_fr]; done)
  | (refine State.taskDo_links _ _ _ (fun _ => ?_); (repeat' split) <;> first | exact keepsM_pure _ _ | (simp [*, kept @State.ioFails_fr, kept @State.logFw_fr, kept @State.pmcAdd_fr, kept @State.send_fr, kept @State.viol_fr]; done))

@[simp] theorem State.ioPerform_aplicS (s : State) (hh : Nat) (write : Bool) (f : Nat → IoAccess → State → State) (hf : ∀ x0 x1 x2, (f x0 x1 x2).aplicS = x2.aplicS) : (State.ioPerform s hh write f).aplicS = s.aplicS := by
  unfold State.ioPerform
  first
  | (simp [*, kept @State.ioFails_fr, kept @State.logFw_fr, kept @State.pmcAdd_fr, kept @State.send_fr, kept @State.viol_fr]; done)
  | ((repeat' split) <;> simp [*, kept @State.ioFails_fr, kept @State.logFw_fr, kept @State.pmcAdd_fr, kept @State.send_fr, kept @State.viol_fr]; done)
  | ((try dsimp only); (repeat' split) <;> simp (disch := (intros; (repeat' split) <;> simp [*, kept @State.ioFails_fr, kept @State.logFw_fr, kept @State.pmcAdd_fr, kept @State.send_fr, kept @State.viol_fr])) [*, kept @State.ioFails_fr, kept @State.logFw_fr, kept @State.pmcAdd_fr, kept @State.send_fr, kept @State.viol_fr]; done)
  | (refine State.taskDo_aplicS _ _ _ (fun _ => ?_); (repeat' split) <;> first | exact keepsM_pure _ _ | (simp [*, kept @State.ioFails_fr, kept @State.logFw_fr, kept @State.pmcAdd_fr, kept @State.send_fr, kept @State.viol_fr]; done))

@[simp] theorem State.ioPerform_aplicN (s : State) (hh : Nat) (write : Bool) (f : Nat → IoAccess → State → State) (hf : ∀ x0 x1 x2, (f x0 x1 x2).aplicN = x2.aplicN) : (State.ioPerform s hh write f).aplicN = s.aplicN := by
  unfold State.ioPerform
  first
  | (simp [*, kept @State.ioFails_fr, kept @State.logFw_fr, kept @State.pmcAdd_fr, kept @State.send_fr, kept @State.viol_fr]; done)
  | ((repeat' split) <;> simp [*, kept @State.ioFails_fr, kept @State.logFw_fr, kept @State.pmcAdd_fr, kept @State.send_fr, kept @State.viol_fr]; done)
  | ((try dsimp only); (repeat' split) <;> simp (disch := (intros; (repeat' split) <;> simp [*, kept @State.ioFails_fr, kept @State.logFw_fr, kept @State.pmcAdd_fr, kept @State.send_fr, kept @State.viol_fr])) [*, kept @State.ioFails_fr, kept @State.logFw_fr, kept @State.pmcAdd_fr, kept @State.send_fr, kept @State.viol_fr]; done)
  | (refine State.taskDo_aplicN _ _ _ (fun _ => ?_); (repeat' split) <;> first | exact keepsM_pure _ _ | (simp [*, kept @State.ioFails_fr, kept @State.logFw_fr, kept @State.pmcAdd_fr, kept @State.send_fr, kept @State.viol_fr]; done))

@[simp] theorem State.ioPerform_credits (s : State) (hh : Nat) (write : Bool) (f : Nat → IoAccess → State → State) (hf : ∀ x0 x1 x2, (f x0 x1 x2).credits = x2.credits) : (State.ioPerform s hh write f).credits = s.credits := by
  unfold State.ioPerform
  first
  | (simp [*, kept @State.ioFails_fr, kept @State.logFw_fr, kept @State.pmcAdd_fr, kept @State.send_fr, kept @State.viol_fr]; done)
  | ((repeat' split) <;> simp [*, kept @State.ioFails_fr, kept @State.logFw_fr, kept @State.pmcAdd_fr, kept @State.send_fr, kept @State.viol_fr]; done)
  | ((try dsimp only); (repeat' split) <;> simp (disch := (intros; (repeat' split) <;> simp [*, kept @State.ioFails_fr, kept @State.logFw_fr, kept @State.pmcAdd_fr, kept @State.send_fr, kept @State.viol_fr])) [*, kept @State.ioFails_fr, kept @State.logFw_fr, kept @State.pmcAdd_fr, kept @State.send_fr, kept @State.viol_fr]; done)
  | (refine State.taskDo_credits _ _ _ (fun _ => ?_); (repeat' split) <;> first | exact keepsM_pure _ _ | (simp [*, kept @State.ioFails_fr, kept @State.logFw_fr, kept @State.pmcAdd_fr, kept @State.send_fr, kept @State.viol_fr]; done))

@[simp] theorem State.ioPerform_pkts (s : State) (hh : Nat) (write : Bool) (f : Nat → IoAccess → State → State) (hf : ∀ x0 x1 x2, (f x0 x1 x2).pkts = x2.pkts) : (State.ioPerform s hh write f).pkts = s.pkts := by
  unfold State.ioPerform
  first
  | (simp [*, kept @State.ioFails_fr, kept @State.logFw_fr, kept @State.pmcAdd_fr, kept @State.send_fr, kept @State.viol_fr]; done)
  | ((repeat' split) <;> simp [*, kept @State.ioFails_fr, kept @State.logFw_fr, kept @State.pmcAdd_fr, kept @State.send_fr, kept @State.viol_fr]; done)
  | ((try dsimp only); (repeat' split) <;> simp (disch := (intros; (repeat' split) <;> simp [*, kept @State.ioFails_fr, kept @State.logFw_fr, kept @State.pmcAdd_fr, kept @State.send_fr, kept @State.viol_fr])) [*, kept @State.ioFails_fr, kept @State.logFw_fr, kept @State.pmcAdd_fr, kept @State.send_fr, kept @State.viol_fr]; done)
  | (refine State.taskDo_pkts _ _ _ (fun _ => ?_); (repeat' split) <;> first | exact keepsM_pure _ _ | (simp [*, kept @State.ioFails_fr, kept @State.logFw_fr, kept @State.pmcAdd_fr, kept @State.send_fr, kept @State.viol_fr]; done))

@[simp] theorem State.ioPerform_resp (s : State) (hh : Nat) (write : Bool) (f : Nat → IoAccess → State → State) (hf : ∀ x0 x1 x2, (f x0 x1 x2).resp = x2.resp) : (State.ioPerform s hh write f).resp = s.resp := by
  unfold State.ioPerform
  first
  | (simp [*, kept @State.ioFails_fr, kept @State.logFw_fr, kept @State.pmcAdd_fr, kept @State.send_fr, kept @State.viol_fr]; done)
  | ((repeat' split) <;> simp [*, kept @State.ioFails_fr, kept @State.logFw_fr, kept @State.pmcAdd_fr, kept @State.send_fr, kept @State.viol_fr]; done)
  | ((try dsimp only); (repeat' split) <;> simp (disch := (intros; (repeat' split) <;> simp [*, kept @State.ioFails_fr, kept @State.logFw_fr, kept @State.pmcAdd_fr, kept @State.send_fr, kept @State.viol_fr])) [*, kept @State.ioFails_fr, kept @State.logFw_fr, kept @State.pmcAdd_fr, kept @State.send_fr, kept @State.viol_fr]; done)
  | (refine State.taskDo_resp _ _ _ (fun _ => ?_); (repeat' split) <;> first | exact keepsM_pure _ _ | (simp [*, kept @State.ioFails_fr, kept @State.logFw_fr, kept @State.pmcAdd_fr, kept @State.send_fr, kept @State.viol_fr]; done))

theorem execIoRead_fr (hh : Fin 216) (val : Nat) (s : State) {u : State} (h : execIoRead hh val s = .next u) : u.pending = s.pending ∧ u.flash = s.flash ∧ u.coldOpt = s.coldOpt ∧ u.imsic = s.imsic ∧ u.eng = s.eng ∧ u.dm = s.dm ∧ u.fx = s.fx ∧ u.ctu = s.ctu ∧ u.links = s.links ∧ u.aplicS = s.aplicS ∧ u.aplicN = s.aplicN ∧ u.credits = s.credits ∧ u.pkts = s.pkts ∧ u.resp = s.resp ∧ u.fabric = s.fabric ∧ u.files = s.files := by
  unfold execIoRead at h
  (first | (simp only [Host.Outcome.next.injEq] at h; rw [← h]) | (simp only [reduceCtorEq] at h; done) | (simp only [Option.some.injEq] at h; rw [← h])); simp [kept @State.ioEnds_fr]

theorem execIoWrite_fr (hh : Fin 216) (s : State) {u : State} (h : execIoWrite hh s = .next u) : u.pending = s.pending ∧ u.flash = s.flash ∧ u.coldOpt = s.coldOpt ∧ u.imsic = s.imsic ∧ u.eng = s.eng ∧ u.dm = s.dm ∧ u.fx = s.fx ∧ u.ctu = s.ctu ∧ u.links = s.links ∧ u.aplicS = s.aplicS ∧ u.aplicN = s.aplicN ∧ u.credits = s.credits ∧ u.pkts = s.pkts ∧ u.resp = s.resp ∧ u.fabric = s.fabric ∧ u.files = s.files := by
  unfold execIoWrite at h
  (first | (simp only [Host.Outcome.next.injEq] at h; rw [← h]) | (simp only [reduceCtorEq] at h; done) | (simp only [Option.some.injEq] at h; rw [← h])); simp [kept @State.ioEnds_fr]

theorem execPcieCompletionTimeout_fr (hh : Fin 216) (s : State) {u : State} (h : execPcieCompletionTimeout hh s = .next u) : u.pending = s.pending ∧ u.flash = s.flash ∧ u.coldOpt = s.coldOpt ∧ u.imsic = s.imsic ∧ u.eng = s.eng ∧ u.dm = s.dm ∧ u.fx = s.fx ∧ u.ctu = s.ctu ∧ u.links = s.links ∧ u.aplicS = s.aplicS ∧ u.aplicN = s.aplicN ∧ u.credits = s.credits ∧ u.pkts = s.pkts ∧ u.resp = s.resp ∧ u.out = s.out ∧ u.fabric = s.fabric ∧ u.files = s.files := by
  unfold execPcieCompletionTimeout at h
  (try dsimp only at h); (repeat' split at h) <;> (first | (simp only [Host.Outcome.next.injEq] at h; rw [← h]) | (simp only [reduceCtorEq] at h; done) | (simp only [Option.some.injEq] at h; rw [← h])) <;> simp [kept @State.ioFails_fr, kept @State.logFw_fr]

end Sys2Proof.Machine
end

