-- ==== Sys2Proof/Laws/Frame/HartCsr.lean ====
section
/-! SUPPORT. What the operations of Machine/HartCsr.lean leave unchanged. -/

set_option Elab.async false
set_option linter.all false

namespace Sys2Proof.Machine
open Sys2Proof

theorem execSatpWrite_fr (hh : Fin 216) (r : AtpReg) (val : Word) (s : State) {u : State} (h : execSatpWrite hh r val s = .next u) : u.pending = s.pending ∧ u.flash = s.flash ∧ u.coldOpt = s.coldOpt ∧ u.imsic = s.imsic ∧ u.eng = s.eng ∧ u.dm = s.dm ∧ u.fx = s.fx ∧ u.ctu = s.ctu ∧ u.links = s.links ∧ u.aplicS = s.aplicS ∧ u.aplicN = s.aplicN ∧ u.credits = s.credits ∧ u.pkts = s.pkts ∧ u.resp = s.resp ∧ u.out = s.out ∧ u.fabric = s.fabric ∧ u.files = s.files := by
  unfold execSatpWrite at h
  (try dsimp only at h); (repeat' split at h) <;> ((first | (simp only [Host.Outcome.next.injEq] at h; rw [← h]) | (simp only [reduceCtorEq] at h; done) | (simp only [Option.some.injEq] at h; rw [← h])); simp (disch := (intros; (repeat' split) <;> first | exact keepsM_pure _ _ | simp [*, kept @State.except_fr, kept @State.retire_fr, kept @State.setHart_fr])) [kept @State.except_fr, kept @State.retire_fr, kept @State.setHart_fr])

theorem execMhpmeventWrite_fr (hh : Fin 216) (k : Nat) (val : Word) (s : State) {u : State} (h : execMhpmeventWrite hh k val s = .next u) : u.pending = s.pending ∧ u.flash = s.flash ∧ u.coldOpt = s.coldOpt ∧ u.imsic = s.imsic ∧ u.eng = s.eng ∧ u.dm = s.dm ∧ u.fx = s.fx ∧ u.ctu = s.ctu ∧ u.links = s.links ∧ u.aplicS = s.aplicS ∧ u.aplicN = s.aplicN ∧ u.credits = s.credits ∧ u.pkts = s.pkts ∧ u.resp = s.resp ∧ u.out = s.out ∧ u.fabric = s.fabric ∧ u.files = s.files := by
  unfold execMhpmeventWrite at h
  (first | (simp only [Host.Outcome.next.injEq] at h; rw [← h]) | (simp only [reduceCtorEq] at h; done) | (simp only [Option.some.injEq] at h; rw [← h])); simp [kept @State.except_fr, kept @State.retire_fr, kept @State.setHart_fr]

theorem State.sTimers_fr (s : State) (hh : Nat) : (State.sTimers s hh).pending = s.pending ∧ (State.sTimers s hh).flash = s.flash ∧ (State.sTimers s hh).coldOpt = s.coldOpt ∧ (State.sTimers s hh).mem = s.mem ∧ (State.sTimers s hh).mram = s.mram ∧ (State.sTimers s hh).imsic = s.imsic ∧ (State.sTimers s hh).eng = s.eng ∧ (State.sTimers s hh).dm = s.dm ∧ (State.sTimers s hh).fx = s.fx ∧ (State.sTimers s hh).ctu = s.ctu ∧ (State.sTimers s hh).links = s.links ∧ (State.sTimers s hh).aplicS = s.aplicS ∧ (State.sTimers s hh).aplicN = s.aplicN ∧ (State.sTimers s hh).credits = s.credits ∧ (State.sTimers s hh).clusters = s.clusters ∧ (State.sTimers s hh).homes = s.homes ∧ (State.sTimers s hh).pkts = s.pkts ∧ (State.sTimers s hh).resp = s.resp ∧ (State.sTimers s hh).regs = s.regs ∧ (State.sTimers s hh).wires = s.wires ∧ (State.sTimers s hh).dmg = s.dmg ∧ (State.sTimers s hh).wq = s.wq ∧ (State.sTimers s hh).net = s.net ∧ (State.sTimers s hh).dbInval = s.dbInval ∧ (State.sTimers s hh).watch = s.watch ∧ (State.sTimers s hh).pkg = s.pkg ∧ (State.sTimers s hh).pmc = s.pmc ∧ (State.sTimers s hh).fwLog = s.fwLog ∧ (State.sTimers s hh).out = s.out ∧ (State.sTimers s hh).free = s.free ∧ (State.sTimers s hh).fabric = s.fabric ∧ (State.sTimers s hh).files = s.files := by
  generalize h : State.sTimers s hh = u
  unfold State.sTimers at h
  rw [← h]; simp [kept @State.setHart_fr]

theorem State.fileCsr_fr (s : State) (hh : Nat) (n : Nat) (v : Word) : (State.fileCsr s hh n v).pending = s.pending ∧ (State.fileCsr s hh n v).flash = s.flash ∧ (State.fileCsr s hh n v).coldOpt = s.coldOpt ∧ (State.fileCsr s hh n v).mem = s.mem ∧ (State.fileCsr s hh n v).harts = s.harts ∧ (State.fileCsr s hh n v).mram = s.mram ∧ (State.fileCsr s hh n v).eng = s.eng ∧ (State.fileCsr s hh n v).dm = s.dm ∧ (State.fileCsr s hh n v).fx = s.fx ∧ (State.fileCsr s hh n v).ctu = s.ctu ∧ (State.fileCsr s hh n v).links = s.links ∧ (State.fileCsr s hh n v).aplicS = s.aplicS ∧ (State.fileCsr s hh n v).aplicN = s.aplicN ∧ (State.fileCsr s hh n v).credits = s.credits ∧ (State.fileCsr s hh n v).clusters = s.clusters ∧ (State.fileCsr s hh n v).homes = s.homes ∧ (State.fileCsr s hh n v).pkts = s.pkts ∧ (State.fileCsr s hh n v).resp = s.resp ∧ (State.fileCsr s hh n v).regs = s.regs ∧ (State.fileCsr s hh n v).wires = s.wires ∧ (State.fileCsr s hh n v).dmg = s.dmg ∧ (State.fileCsr s hh n v).wq = s.wq ∧ (State.fileCsr s hh n v).net = s.net ∧ (State.fileCsr s hh n v).dbInval = s.dbInval ∧ (State.fileCsr s hh n v).watch = s.watch ∧ (State.fileCsr s hh n v).pkg = s.pkg ∧ (State.fileCsr s hh n v).pmc = s.pmc ∧ (State.fileCsr s hh n v).fwLog = s.fwLog ∧ (State.fileCsr s hh n v).out = s.out ∧ (State.fileCsr s hh n v).free = s.free ∧ (State.fileCsr s hh n v).fabric = s.fabric := by
  generalize h : State.fileCsr s hh n v = u
  unfold State.fileCsr at h
  (try dsimp only at h); (repeat' split at h) <;> rw [← h] <;> simp [kept @State.fileClaim_fr, kept @State.fileWrite_fr]

theorem execCsrWrite_fr (hh : Fin 216) (csr : Nat) (val : Word) (s : State) {u : State} (h : execCsrWrite hh csr val s = .next u) : u.pending = s.pending ∧ u.flash = s.flash ∧ u.coldOpt = s.coldOpt ∧ u.eng = s.eng ∧ u.dm = s.dm ∧ u.fx = s.fx ∧ u.ctu = s.ctu ∧ u.links = s.links ∧ u.aplicS = s.aplicS ∧ u.aplicN = s.aplicN ∧ u.credits = s.credits ∧ u.pkts = s.pkts ∧ u.resp = s.resp ∧ u.out = s.out ∧ u.fabric = s.fabric := by
  unfold execCsrWrite at h
  (try dsimp only at h); (repeat' split at h) <;> ((first | (simp only [Host.Outcome.next.injEq] at h; rw [← h]) | (simp only [reduceCtorEq] at h; done) | (simp only [Option.some.injEq] at h; rw [← h])); simp (disch := (intros; (repeat' split) <;> first | exact keepsM_pure _ _ | simp [*, kept @State.except_fr, kept @State.fileCsr_fr, kept @State.retire_fr, kept @State.sTimers_fr, kept @State.setHart_fr])) [kept @State.except_fr, kept @State.fileCsr_fr, kept @State.retire_fr, kept @State.sTimers_fr, kept @State.setHart_fr])

end Sys2Proof.Machine
end

