-- ==== Sys2Proof/Laws/Frame/HartSys.lean ====
section
/-! SUPPORT. What the operations of Machine/HartSys.lean leave unchanged. -/

set_option Elab.async false
set_option linter.all false

namespace Sys2Proof.Machine
open Sys2Proof

theorem execWfi_fr (hh : Fin 216) (s : State) {u : State} (h : execWfi hh s = .next u) : u.pending = s.pending ∧ u.flash = s.flash ∧ u.coldOpt = s.coldOpt ∧ u.imsic = s.imsic ∧ u.eng = s.eng ∧ u.dm = s.dm ∧ u.fx = s.fx ∧ u.ctu = s.ctu ∧ u.links = s.links ∧ u.aplicS = s.aplicS ∧ u.aplicN = s.aplicN ∧ u.credits = s.credits ∧ u.pkts = s.pkts ∧ u.resp = s.resp ∧ u.out = s.out ∧ u.fabric = s.fabric ∧ u.files = s.files := by
  unfold execWfi at h
  (try dsimp only at h); (repeat' split at h) <;> ((first | (simp only [Host.Outcome.next.injEq] at h; rw [← h]) | (simp only [reduceCtorEq] at h; done) | (simp only [Option.some.injEq] at h; rw [← h])); simp (disch := (intros; (repeat' split) <;> first | exact keepsM_pure _ _ | simp [*, kept @State.dropL1_fr, kept @State.except_fr, kept @State.retire_fr, kept @State.setHart_fr])) [kept @State.dropL1_fr, kept @State.except_fr, kept @State.retire_fr, kept @State.setHart_fr])

theorem execWfiRetentionEntry_fr (hh : Fin 216) (s : State) {u : State} (h : execWfiRetentionEntry hh s = .next u) : u.pending = s.pending ∧ u.flash = s.flash ∧ u.coldOpt = s.coldOpt ∧ u.mem = s.mem ∧ u.mram = s.mram ∧ u.imsic = s.imsic ∧ u.eng = s.eng ∧ u.dm = s.dm ∧ u.fx = s.fx ∧ u.ctu = s.ctu ∧ u.links = s.links ∧ u.aplicS = s.aplicS ∧ u.aplicN = s.aplicN ∧ u.credits = s.credits ∧ u.clusters = s.clusters ∧ u.homes = s.homes ∧ u.pkts = s.pkts ∧ u.resp = s.resp ∧ u.regs = s.regs ∧ u.wires = s.wires ∧ u.dmg = s.dmg ∧ u.wq = s.wq ∧ u.net = s.net ∧ u.dbInval = s.dbInval ∧ u.watch = s.watch ∧ u.pkg = s.pkg ∧ u.pmc = s.pmc ∧ u.fwLog = s.fwLog ∧ u.out = s.out ∧ u.free = s.free ∧ u.fabric = s.fabric ∧ u.files = s.files := by
  unfold execWfiRetentionEntry at h
  (try dsimp only at h); (repeat' split at h) <;> (first | (simp only [Host.Outcome.next.injEq] at h; rw [← h]) | (simp only [reduceCtorEq] at h; done) | (simp only [Option.some.injEq] at h; rw [← h])) <;> simp [kept @State.setHart_fr]

theorem State.resumeHart_fr (s : State) (hh : Nat) : (State.resumeHart s hh).pending = s.pending ∧ (State.resumeHart s hh).flash = s.flash ∧ (State.resumeHart s hh).coldOpt = s.coldOpt ∧ (State.resumeHart s hh).mem = s.mem ∧ (State.resumeHart s hh).mram = s.mram ∧ (State.resumeHart s hh).eng = s.eng ∧ (State.resumeHart s hh).dm = s.dm ∧ (State.resumeHart s hh).fx = s.fx ∧ (State.resumeHart s hh).ctu = s.ctu ∧ (State.resumeHart s hh).links = s.links ∧ (State.resumeHart s hh).aplicS = s.aplicS ∧ (State.resumeHart s hh).aplicN = s.aplicN ∧ (State.resumeHart s hh).credits = s.credits ∧ (State.resumeHart s hh).pkts = s.pkts ∧ (State.resumeHart s hh).resp = s.resp ∧ (State.resumeHart s hh).wires = s.wires ∧ (State.resumeHart s hh).dmg = s.dmg ∧ (State.resumeHart s hh).dbInval = s.dbInval ∧ (State.resumeHart s hh).watch = s.watch ∧ (State.resumeHart s hh).pkg = s.pkg ∧ (State.resumeHart s hh).pmc = s.pmc ∧ (State.resumeHart s hh).out = s.out ∧ (State.resumeHart s hh).fabric = s.fabric := by
  generalize h : State.resumeHart s hh = u
  unfold State.resumeHart at h
  (try dsimp only at h); (repeat' split at h) <;> rw [← h] <;> simp [kept @State.hartCause_fr, kept @State.loseHart_fr, kept @State.recordReach_fr, kept @State.setHart_fr, kept @State.startHart_fr]

theorem execWfiWake_fr (hh : Fin 216) (s : State) {u : State} (h : execWfiWake hh s = .next u) : u.pending = s.pending ∧ u.flash = s.flash ∧ u.coldOpt = s.coldOpt ∧ u.mem = s.mem ∧ u.mram = s.mram ∧ u.eng = s.eng ∧ u.dm = s.dm ∧ u.fx = s.fx ∧ u.ctu = s.ctu ∧ u.links = s.links ∧ u.aplicS = s.aplicS ∧ u.aplicN = s.aplicN ∧ u.credits = s.credits ∧ u.pkts = s.pkts ∧ u.resp = s.resp ∧ u.wires = s.wires ∧ u.dmg = s.dmg ∧ u.dbInval = s.dbInval ∧ u.watch = s.watch ∧ u.pkg = s.pkg ∧ u.pmc = s.pmc ∧ u.out = s.out ∧ u.fabric = s.fabric := by
  unfold execWfiWake at h
  (try dsimp only at h); (repeat' split at h) <;> (first | (simp only [Host.Outcome.next.injEq] at h; rw [← h]) | (simp only [reduceCtorEq] at h; done) | (simp only [Option.some.injEq] at h; rw [← h])) <;> simp [kept @State.aimCode_fr, kept @State.resumeHart_fr, kept @State.setHart_fr]

theorem execWrsSto_fr (hh : Fin 216) (s : State) {u : State} (h : execWrsSto hh s = .next u) : u.pending = s.pending ∧ u.flash = s.flash ∧ u.coldOpt = s.coldOpt ∧ u.imsic = s.imsic ∧ u.eng = s.eng ∧ u.dm = s.dm ∧ u.fx = s.fx ∧ u.ctu = s.ctu ∧ u.links = s.links ∧ u.aplicS = s.aplicS ∧ u.aplicN = s.aplicN ∧ u.credits = s.credits ∧ u.pkts = s.pkts ∧ u.resp = s.resp ∧ u.out = s.out ∧ u.fabric = s.fabric ∧ u.files = s.files := by
  unfold execWrsSto at h
  (first | (simp only [Host.Outcome.next.injEq] at h; rw [← h]) | (simp only [reduceCtorEq] at h; done) | (simp only [Option.some.injEq] at h; rw [← h])); simp [kept @State.retire_fr, kept @State.setHart_fr]

theorem execWrsStoTimeout_fr (hh : Fin 216) (s : State) {u : State} (h : execWrsStoTimeout hh s = .next u) : u.pending = s.pending ∧ u.flash = s.flash ∧ u.coldOpt = s.coldOpt ∧ u.mem = s.mem ∧ u.mram = s.mram ∧ u.imsic = s.imsic ∧ u.eng = s.eng ∧ u.dm = s.dm ∧ u.fx = s.fx ∧ u.ctu = s.ctu ∧ u.links = s.links ∧ u.aplicS = s.aplicS ∧ u.aplicN = s.aplicN ∧ u.credits = s.credits ∧ u.clusters = s.clusters ∧ u.homes = s.homes ∧ u.pkts = s.pkts ∧ u.resp = s.resp ∧ u.regs = s.regs ∧ u.wires = s.wires ∧ u.dmg = s.dmg ∧ u.wq = s.wq ∧ u.net = s.net ∧ u.dbInval = s.dbInval ∧ u.watch = s.watch ∧ u.pkg = s.pkg ∧ u.pmc = s.pmc ∧ u.fwLog = s.fwLog ∧ u.out = s.out ∧ u.free = s.free ∧ u.fabric = s.fabric ∧ u.files = s.files := by
  unfold execWrsStoTimeout at h
  (try dsimp only at h); (repeat' split at h) <;> (first | (simp only [Host.Outcome.next.injEq] at h; rw [← h]) | (simp only [reduceCtorEq] at h; done) | (simp only [Option.some.injEq] at h; rw [← h])) <;> simp [kept @State.setHart_fr]

theorem execMtimecmpMatch_fr (hh : Fin 216) (s : State) {u : State} (h : execMtimecmpMatch hh s = .next u) : u.pending = s.pending ∧ u.flash = s.flash ∧ u.coldOpt = s.coldOpt ∧ u.mem = s.mem ∧ u.mram = s.mram ∧ u.imsic = s.imsic ∧ u.eng = s.eng ∧ u.dm = s.dm ∧ u.fx = s.fx ∧ u.ctu = s.ctu ∧ u.links = s.links ∧ u.aplicS = s.aplicS ∧ u.aplicN = s.aplicN ∧ u.credits = s.credits ∧ u.clusters = s.clusters ∧ u.homes = s.homes ∧ u.pkts = s.pkts ∧ u.resp = s.resp ∧ u.wires = s.wires ∧ u.dmg = s.dmg ∧ u.wq = s.wq ∧ u.net = s.net ∧ u.dbInval = s.dbInval ∧ u.watch = s.watch ∧ u.pkg = s.pkg ∧ u.pmc = s.pmc ∧ u.fwLog = s.fwLog ∧ u.out = s.out ∧ u.free = s.free ∧ u.fabric = s.fabric ∧ u.files = s.files := by
  unfold execMtimecmpMatch at h
  (first | (simp only [Host.Outcome.next.injEq] at h; rw [← h]) | (simp only [reduceCtorEq] at h; done) | (simp only [Option.some.injEq] at h; rw [← h])); simp [kept @State.setHart_fr, kept @State.wrW_fr]

theorem execStimecmpMatch_fr (hh : Fin 216) (vs : Bool) (s : State) {u : State} (h : execStimecmpMatch hh vs s = .next u) : u.pending = s.pending ∧ u.flash = s.flash ∧ u.coldOpt = s.coldOpt ∧ u.mem = s.mem ∧ u.mram = s.mram ∧ u.imsic = s.imsic ∧ u.eng = s.eng ∧ u.dm = s.dm ∧ u.fx = s.fx ∧ u.ctu = s.ctu ∧ u.links = s.links ∧ u.aplicS = s.aplicS ∧ u.aplicN = s.aplicN ∧ u.credits = s.credits ∧ u.clusters = s.clusters ∧ u.homes = s.homes ∧ u.pkts = s.pkts ∧ u.resp = s.resp ∧ u.wires = s.wires ∧ u.dmg = s.dmg ∧ u.wq = s.wq ∧ u.net = s.net ∧ u.dbInval = s.dbInval ∧ u.watch = s.watch ∧ u.pkg = s.pkg ∧ u.pmc = s.pmc ∧ u.fwLog = s.fwLog ∧ u.out = s.out ∧ u.free = s.free ∧ u.fabric = s.fabric ∧ u.files = s.files := by
  unfold execStimecmpMatch at h
  (try dsimp only at h); (repeat' split at h) <;> (first | (simp only [Host.Outcome.next.injEq] at h; rw [← h]) | (simp only [reduceCtorEq] at h; done) | (simp only [Option.some.injEq] at h; rw [← h])) <;> simp [kept @State.setHart_fr, kept @State.wrW_fr]

theorem execMsi_fr (who : Ident) (file : Fin 1944) (eiid : Nat) (s : State) {u : State} (h : execMsi who file eiid s = .next u) : u.pending = s.pending ∧ u.flash = s.flash ∧ u.coldOpt = s.coldOpt ∧ u.mem = s.mem ∧ u.harts = s.harts ∧ u.eng = s.eng ∧ u.dm = s.dm ∧ u.fx = s.fx ∧ u.ctu = s.ctu ∧ u.links = s.links ∧ u.aplicS = s.aplicS ∧ u.aplicN = s.aplicN ∧ u.credits = s.credits ∧ u.clusters = s.clusters ∧ u.homes = s.homes ∧ u.pkts = s.pkts ∧ u.resp = s.resp ∧ u.wires = s.wires ∧ u.dmg = s.dmg ∧ u.wq = s.wq ∧ u.net = s.net ∧ u.dbInval = s.dbInval ∧ u.watch = s.watch ∧ u.pkg = s.pkg ∧ u.out = s.out ∧ u.free = s.free ∧ u.fabric = s.fabric ∧ u.files = s.files := by
  unfold execMsi at h
  (first | (simp only [Host.Outcome.next.injEq] at h; rw [← h]) | (simp only [reduceCtorEq] at h; done) | (simp only [Option.some.injEq] at h; rw [← h])); simp [kept @State.msi_fr]

theorem State.enterGate_fr (s : State) (hh : Nat) (idx : Nat) (opt : Nat) (b : List Byte) : (State.enterGate s hh idx opt b).pending = s.pending ∧ (State.enterGate s hh idx opt b).flash = s.flash ∧ (State.enterGate s hh idx opt b).coldOpt = s.coldOpt ∧ (State.enterGate s hh idx opt b).imsic = s.imsic ∧ (State.enterGate s hh idx opt b).eng = s.eng ∧ (State.enterGate s hh idx opt b).dm = s.dm ∧ (State.enterGate s hh idx opt b).fx = s.fx ∧ (State.enterGate s hh idx opt b).ctu = s.ctu ∧ (State.enterGate s hh idx opt b).links = s.links ∧ (State.enterGate s hh idx opt b).aplicS = s.aplicS ∧ (State.enterGate s hh idx opt b).aplicN = s.aplicN ∧ (State.enterGate s hh idx opt b).credits = s.credits ∧ (State.enterGate s hh idx opt b).pkts = s.pkts ∧ (State.enterGate s hh idx opt b).resp = s.resp ∧ (State.enterGate s hh idx opt b).out = s.out ∧ (State.enterGate s hh idx opt b).fabric = s.fabric ∧ (State.enterGate s hh idx opt b).files = s.files := by
  generalize h : State.enterGate s hh idx opt b = u
  unfold State.enterGate at h
  rw [← h]; simp [kept @State.setHart_fr, kept @State.stepped_fr, kept @State.tagStep_fr]

theorem State.tryGate_fr (s : State) (hh : Nat) (idx : Nat) (opt : Nat) : (State.tryGate s hh idx opt).pending = s.pending ∧ (State.tryGate s hh idx opt).flash = s.flash ∧ (State.tryGate s hh idx opt).coldOpt = s.coldOpt ∧ (State.tryGate s hh idx opt).imsic = s.imsic ∧ (State.tryGate s hh idx opt).eng = s.eng ∧ (State.tryGate s hh idx opt).dm = s.dm ∧ (State.tryGate s hh idx opt).fx = s.fx ∧ (State.tryGate s hh idx opt).ctu = s.ctu ∧ (State.tryGate s hh idx opt).links = s.links ∧ (State.tryGate s hh idx opt).aplicS = s.aplicS ∧ (State.tryGate s hh idx opt).aplicN = s.aplicN ∧ (State.tryGate s hh idx opt).credits = s.credits ∧ (State.tryGate s hh idx opt).pkts = s.pkts ∧ (State.tryGate s hh idx opt).resp = s.resp ∧ (State.tryGate s hh idx opt).out = s.out ∧ (State.tryGate s hh idx opt).fabric = s.fabric ∧ (State.tryGate s hh idx opt).files = s.files := by
  generalize h : State.tryGate s hh idx opt = u
  unfold State.tryGate at h
  rw [← h]; simp [kept @State.enterGate_fr, kept @State.except_fr, kept @State.readPa_fr]

theorem State.hswGate_fr (s : State) (hh : Nat) (idx : Nat) : (State.hswGate s hh idx).pending = s.pending ∧ (State.hswGate s hh idx).flash = s.flash ∧ (State.hswGate s hh idx).coldOpt = s.coldOpt ∧ (State.hswGate s hh idx).imsic = s.imsic ∧ (State.hswGate s hh idx).eng = s.eng ∧ (State.hswGate s hh idx).dm = s.dm ∧ (State.hswGate s hh idx).fx = s.fx ∧ (State.hswGate s hh idx).ctu = s.ctu ∧ (State.hswGate s hh idx).links = s.links ∧ (State.hswGate s hh idx).aplicS = s.aplicS ∧ (State.hswGate s hh idx).aplicN = s.aplicN ∧ (State.hswGate s hh idx).credits = s.credits ∧ (State.hswGate s hh idx).pkts = s.pkts ∧ (State.hswGate s hh idx).resp = s.resp ∧ (State.hswGate s hh idx).out = s.out ∧ (State.hswGate s hh idx).fabric = s.fabric ∧ (State.hswGate s hh idx).files = s.files := by
  generalize h : State.hswGate s hh idx = u
  unfold State.hswGate at h
  (try dsimp only at h); (repeat' split at h) <;> rw [← h] <;> simp [kept @State.except_fr, kept @State.tryGate_fr]

theorem execHswGate_fr (hh : Fin 216) (i : Fin 256) (s : State) {u : State} (h : execHswGate hh i s = .next u) : u.pending = s.pending ∧ u.flash = s.flash ∧ u.coldOpt = s.coldOpt ∧ u.imsic = s.imsic ∧ u.eng = s.eng ∧ u.dm = s.dm ∧ u.fx = s.fx ∧ u.ctu = s.ctu ∧ u.links = s.links ∧ u.aplicS = s.aplicS ∧ u.aplicN = s.aplicN ∧ u.credits = s.credits ∧ u.pkts = s.pkts ∧ u.resp = s.resp ∧ u.out = s.out ∧ u.fabric = s.fabric ∧ u.files = s.files := by
  unfold execHswGate at h
  (first | (simp only [Host.Outcome.next.injEq] at h; rw [← h]) | (simp only [reduceCtorEq] at h; done) | (simp only [Option.some.injEq] at h; rw [← h])); simp [kept @State.hswGate_fr]

theorem State.hswRet_fr (s : State) (hh : Nat) : (State.hswRet s hh).pending = s.pending ∧ (State.hswRet s hh).flash = s.flash ∧ (State.hswRet s hh).coldOpt = s.coldOpt ∧ (State.hswRet s hh).imsic = s.imsic ∧ (State.hswRet s hh).eng = s.eng ∧ (State.hswRet s hh).dm = s.dm ∧ (State.hswRet s hh).fx = s.fx ∧ (State.hswRet s hh).ctu = s.ctu ∧ (State.hswRet s hh).links = s.links ∧ (State.hswRet s hh).aplicS = s.aplicS ∧ (State.hswRet s hh).aplicN = s.aplicN ∧ (State.hswRet s hh).credits = s.credits ∧ (State.hswRet s hh).pkts = s.pkts ∧ (State.hswRet s hh).resp = s.resp ∧ (State.hswRet s hh).out = s.out ∧ (State.hswRet s hh).fabric = s.fabric ∧ (State.hswRet s hh).files = s.files := by
  generalize h : State.hswRet s hh = u
  unfold State.hswRet at h
  (try dsimp only at h); (repeat' split at h) <;> rw [← h] <;> simp [kept @State.except_fr, kept @State.setHart_fr, kept @State.stepped_fr, kept @State.tagStep_fr]

theorem execHswRet_fr (hh : Fin 216) (s : State) {u : State} (h : execHswRet hh s = .next u) : u.pending = s.pending ∧ u.flash = s.flash ∧ u.coldOpt = s.coldOpt ∧ u.imsic = s.imsic ∧ u.eng = s.eng ∧ u.dm = s.dm ∧ u.fx = s.fx ∧ u.ctu = s.ctu ∧ u.links = s.links ∧ u.aplicS = s.aplicS ∧ u.aplicN = s.aplicN ∧ u.credits = s.credits ∧ u.pkts = s.pkts ∧ u.resp = s.resp ∧ u.out = s.out ∧ u.fabric = s.fabric ∧ u.files = s.files := by
  unfold execHswRet at h
  (try dsimp only at h); (repeat' split at h) <;> ((first | (simp only [Host.Outcome.next.injEq] at h; rw [← h]) | (simp only [reduceCtorEq] at h; done) | (simp only [Option.some.injEq] at h; rw [← h])); simp (disch := (intros; (repeat' split) <;> first | exact keepsM_pure _ _ | simp [*, kept @State.hswRet_fr])) [kept @State.hswRet_fr])

theorem State.hsc_fr (s : State) (hh : Nat) (flush : Bool) (rs1 : Nat) (rs2 : Nat) : (State.hsc s hh flush rs1 rs2).pending = s.pending ∧ (State.hsc s hh flush rs1 rs2).flash = s.flash ∧ (State.hsc s hh flush rs1 rs2).coldOpt = s.coldOpt ∧ (State.hsc s hh flush rs1 rs2).imsic = s.imsic ∧ (State.hsc s hh flush rs1 rs2).eng = s.eng ∧ (State.hsc s hh flush rs1 rs2).dm = s.dm ∧ (State.hsc s hh flush rs1 rs2).fx = s.fx ∧ (State.hsc s hh flush rs1 rs2).ctu = s.ctu ∧ (State.hsc s hh flush rs1 rs2).links = s.links ∧ (State.hsc s hh flush rs1 rs2).aplicS = s.aplicS ∧ (State.hsc s hh flush rs1 rs2).aplicN = s.aplicN ∧ (State.hsc s hh flush rs1 rs2).credits = s.credits ∧ (State.hsc s hh flush rs1 rs2).pkts = s.pkts ∧ (State.hsc s hh flush rs1 rs2).resp = s.resp ∧ (State.hsc s hh flush rs1 rs2).out = s.out ∧ (State.hsc s hh flush rs1 rs2).fabric = s.fabric ∧ (State.hsc s hh flush rs1 rs2).files = s.files := by
  generalize h : State.hsc s hh flush rs1 rs2 = u
  unfold State.hsc at h
  rw [← h]; simp [kept @State.except_fr, kept @State.holdAll_fr, kept @State.retire_fr, kept @State.setHart_fr]

theorem execHscClean_fr (hh : Fin 216) (rs1 : Fin 32) (rs2 : Fin 32) (s : State) {u : State} (h : execHscClean hh rs1 rs2 s = .next u) : u.pending = s.pending ∧ u.flash = s.flash ∧ u.coldOpt = s.coldOpt ∧ u.imsic = s.imsic ∧ u.eng = s.eng ∧ u.dm = s.dm ∧ u.fx = s.fx ∧ u.ctu = s.ctu ∧ u.links = s.links ∧ u.aplicS = s.aplicS ∧ u.aplicN = s.aplicN ∧ u.credits = s.credits ∧ u.pkts = s.pkts ∧ u.resp = s.resp ∧ u.out = s.out ∧ u.fabric = s.fabric ∧ u.files = s.files := by
  unfold execHscClean at h
  (first | (simp only [Host.Outcome.next.injEq] at h; rw [← h]) | (simp only [reduceCtorEq] at h; done) | (simp only [Option.some.injEq] at h; rw [← h])); simp [kept @State.hsc_fr]

theorem execHscFlush_fr (hh : Fin 216) (rs1 : Fin 32) (rs2 : Fin 32) (s : State) {u : State} (h : execHscFlush hh rs1 rs2 s = .next u) : u.pending = s.pending ∧ u.flash = s.flash ∧ u.coldOpt = s.coldOpt ∧ u.imsic = s.imsic ∧ u.eng = s.eng ∧ u.dm = s.dm ∧ u.fx = s.fx ∧ u.ctu = s.ctu ∧ u.links = s.links ∧ u.aplicS = s.aplicS ∧ u.aplicN = s.aplicN ∧ u.credits = s.credits ∧ u.pkts = s.pkts ∧ u.resp = s.resp ∧ u.out = s.out ∧ u.fabric = s.fabric ∧ u.files = s.files := by
  unfold execHscFlush at h
  (first | (simp only [Host.Outcome.next.injEq] at h; rw [← h]) | (simp only [reduceCtorEq] at h; done) | (simp only [Option.some.injEq] at h; rw [← h])); simp [kept @State.hsc_fr]

theorem State.tlbOp_fr (s : State) (hh : Nat) (gate : Option Nat) (p : TEntry → Bool) : (State.tlbOp s hh gate p).pending = s.pending ∧ (State.tlbOp s hh gate p).flash = s.flash ∧ (State.tlbOp s hh gate p).coldOpt = s.coldOpt ∧ (State.tlbOp s hh gate p).imsic = s.imsic ∧ (State.tlbOp s hh gate p).eng = s.eng ∧ (State.tlbOp s hh gate p).dm = s.dm ∧ (State.tlbOp s hh gate p).fx = s.fx ∧ (State.tlbOp s hh gate p).ctu = s.ctu ∧ (State.tlbOp s hh gate p).links = s.links ∧ (State.tlbOp s hh gate p).aplicS = s.aplicS ∧ (State.tlbOp s hh gate p).aplicN = s.aplicN ∧ (State.tlbOp s hh gate p).credits = s.credits ∧ (State.tlbOp s hh gate p).pkts = s.pkts ∧ (State.tlbOp s hh gate p).resp = s.resp ∧ (State.tlbOp s hh gate p).out = s.out ∧ (State.tlbOp s hh gate p).fabric = s.fabric ∧ (State.tlbOp s hh gate p).files = s.files := by
  generalize h : State.tlbOp s hh gate p = u
  unfold State.tlbOp at h
  (try dsimp only at h); (repeat' split at h) <;> rw [← h] <;> simp [kept @State.except_fr, kept @State.retire_fr, kept @State.setHart_fr]

theorem State.sfence_fr (s : State) (hh : Nat) (rs1 : Fin 32) (rs2 : Fin 32) : (State.sfence s hh rs1 rs2).pending = s.pending ∧ (State.sfence s hh rs1 rs2).flash = s.flash ∧ (State.sfence s hh rs1 rs2).coldOpt = s.coldOpt ∧ (State.sfence s hh rs1 rs2).imsic = s.imsic ∧ (State.sfence s hh rs1 rs2).eng = s.eng ∧ (State.sfence s hh rs1 rs2).dm = s.dm ∧ (State.sfence s hh rs1 rs2).fx = s.fx ∧ (State.sfence s hh rs1 rs2).ctu = s.ctu ∧ (State.sfence s hh rs1 rs2).links = s.links ∧ (State.sfence s hh rs1 rs2).aplicS = s.aplicS ∧ (State.sfence s hh rs1 rs2).aplicN = s.aplicN ∧ (State.sfence s hh rs1 rs2).credits = s.credits ∧ (State.sfence s hh rs1 rs2).pkts = s.pkts ∧ (State.sfence s hh rs1 rs2).resp = s.resp ∧ (State.sfence s hh rs1 rs2).out = s.out ∧ (State.sfence s hh rs1 rs2).fabric = s.fabric ∧ (State.sfence s hh rs1 rs2).files = s.files := by
  generalize h : State.sfence s hh rs1 rs2 = u
  unfold State.sfence at h
  rw [← h]; simp [kept @State.tlbOp_fr]

theorem State.hfenceV_fr (s : State) (hh : Nat) (rs1 : Fin 32) (rs2 : Fin 32) : (State.hfenceV s hh rs1 rs2).pending = s.pending ∧ (State.hfenceV s hh rs1 rs2).flash = s.flash ∧ (State.hfenceV s hh rs1 rs2).coldOpt = s.coldOpt ∧ (State.hfenceV s hh rs1 rs2).imsic = s.imsic ∧ (State.hfenceV s hh rs1 rs2).eng = s.eng ∧ (State.hfenceV s hh rs1 rs2).dm = s.dm ∧ (State.hfenceV s hh rs1 rs2).fx = s.fx ∧ (State.hfenceV s hh rs1 rs2).ctu = s.ctu ∧ (State.hfenceV s hh rs1 rs2).links = s.links ∧ (State.hfenceV s hh rs1 rs2).aplicS = s.aplicS ∧ (State.hfenceV s hh rs1 rs2).aplicN = s.aplicN ∧ (State.hfenceV s hh rs1 rs2).credits = s.credits ∧ (State.hfenceV s hh rs1 rs2).pkts = s.pkts ∧ (State.hfenceV s hh rs1 rs2).resp = s.resp ∧ (State.hfenceV s hh rs1 rs2).out = s.out ∧ (State.hfenceV s hh rs1 rs2).fabric = s.fabric ∧ (State.hfenceV s hh rs1 rs2).files = s.files := by
  generalize h : State.hfenceV s hh rs1 rs2 = u
  unfold State.hfenceV at h
  rw [← h]; simp [kept @State.tlbOp_fr]

theorem State.hfenceG_fr (s : State) (hh : Nat) (rs1 : Fin 32) (rs2 : Fin 32) : (State.hfenceG s hh rs1 rs2).pending = s.pending ∧ (State.hfenceG s hh rs1 rs2).flash = s.flash ∧ (State.hfenceG s hh rs1 rs2).coldOpt = s.coldOpt ∧ (State.hfenceG s hh rs1 rs2).imsic = s.imsic ∧ (State.hfenceG s hh rs1 rs2).eng = s.eng ∧ (State.hfenceG s hh rs1 rs2).dm = s.dm ∧ (State.hfenceG s hh rs1 rs2).fx = s.fx ∧ (State.hfenceG s hh rs1 rs2).ctu = s.ctu ∧ (State.hfenceG s hh rs1 rs2).links = s.links ∧ (State.hfenceG s hh rs1 rs2).aplicS = s.aplicS ∧ (State.hfenceG s hh rs1 rs2).aplicN = s.aplicN ∧ (State.hfenceG s hh rs1 rs2).credits = s.credits ∧ (State.hfenceG s hh rs1 rs2).pkts = s.pkts ∧ (State.hfenceG s hh rs1 rs2).resp = s.resp ∧ (State.hfenceG s hh rs1 rs2).out = s.out ∧ (State.hfenceG s hh rs1 rs2).fabric = s.fabric ∧ (State.hfenceG s hh rs1 rs2).files = s.files := by
  generalize h : State.hfenceG s hh rs1 rs2 = u
  unfold State.hfenceG at h
  rw [← h]; simp [kept @State.tlbOp_fr]

theorem execSfenceVma_fr (hh : Fin 216) (rs1 : Fin 32) (rs2 : Fin 32) (s : State) {u : State} (h : execSfenceVma hh rs1 rs2 s = .next u) : u.pending = s.pending ∧ u.flash = s.flash ∧ u.coldOpt = s.coldOpt ∧ u.imsic = s.imsic ∧ u.eng = s.eng ∧ u.dm = s.dm ∧ u.fx = s.fx ∧ u.ctu = s.ctu ∧ u.links = s.links ∧ u.aplicS = s.aplicS ∧ u.aplicN = s.aplicN ∧ u.credits = s.credits ∧ u.pkts = s.pkts ∧ u.resp = s.resp ∧ u.out = s.out ∧ u.fabric = s.fabric ∧ u.files = s.files := by
  unfold execSfenceVma at h
  (first | (simp only [Host.Outcome.next.injEq] at h; rw [← h]) | (simp only [reduceCtorEq] at h; done) | (simp only [Option.some.injEq] at h; rw [← h])); simp [kept @State.sfence_fr]

theorem execSinvalVma_fr (hh : Fin 216) (rs1 : Fin 32) (rs2 : Fin 32) (s : State) {u : State} (h : execSinvalVma hh rs1 rs2 s = .next u) : u.pending = s.pending ∧ u.flash = s.flash ∧ u.coldOpt = s.coldOpt ∧ u.imsic = s.imsic ∧ u.eng = s.eng ∧ u.dm = s.dm ∧ u.fx = s.fx ∧ u.ctu = s.ctu ∧ u.links = s.links ∧ u.aplicS = s.aplicS ∧ u.aplicN = s.aplicN ∧ u.credits = s.credits ∧ u.pkts = s.pkts ∧ u.resp = s.resp ∧ u.out = s.out ∧ u.fabric = s.fabric ∧ u.files = s.files := by
  unfold execSinvalVma at h
  (first | (simp only [Host.Outcome.next.injEq] at h; rw [← h]) | (simp only [reduceCtorEq] at h; done) | (simp only [Option.some.injEq] at h; rw [← h])); simp [kept @State.sfence_fr]

theorem execHfenceVvma_fr (hh : Fin 216) (rs1 : Fin 32) (rs2 : Fin 32) (s : State) {u : State} (h : execHfenceVvma hh rs1 rs2 s = .next u) : u.pending = s.pending ∧ u.flash = s.flash ∧ u.coldOpt = s.coldOpt ∧ u.imsic = s.imsic ∧ u.eng = s.eng ∧ u.dm = s.dm ∧ u.fx = s.fx ∧ u.ctu = s.ctu ∧ u.links = s.links ∧ u.aplicS = s.aplicS ∧ u.aplicN = s.aplicN ∧ u.credits = s.credits ∧ u.pkts = s.pkts ∧ u.resp = s.resp ∧ u.out = s.out ∧ u.fabric = s.fabric ∧ u.files = s.files := by
  unfold execHfenceVvma at h
  (first | (simp only [Host.Outcome.next.injEq] at h; rw [← h]) | (simp only [reduceCtorEq] at h; done) | (simp only [Option.some.injEq] at h; rw [← h])); simp [kept @State.hfenceV_fr]

theorem execHinvalVvma_fr (hh : Fin 216) (rs1 : Fin 32) (rs2 : Fin 32) (s : State) {u : State} (h : execHinvalVvma hh rs1 rs2 s = .next u) : u.pending = s.pending ∧ u.flash = s.flash ∧ u.coldOpt = s.coldOpt ∧ u.imsic = s.imsic ∧ u.eng = s.eng ∧ u.dm = s.dm ∧ u.fx = s.fx ∧ u.ctu = s.ctu ∧ u.links = s.links ∧ u.aplicS = s.aplicS ∧ u.aplicN = s.aplicN ∧ u.credits = s.credits ∧ u.pkts = s.pkts ∧ u.resp = s.resp ∧ u.out = s.out ∧ u.fabric = s.fabric ∧ u.files = s.files := by
  unfold execHinvalVvma at h
  (first | (simp only [Host.Outcome.next.injEq] at h; rw [← h]) | (simp only [reduceCtorEq] at h; done) | (simp only [Option.some.injEq] at h; rw [← h])); simp [kept @State.hfenceV_fr]

theorem execHfenceGvma_fr (hh : Fin 216) (rs1 : Fin 32) (rs2 : Fin 32) (s : State) {u : State} (h : execHfenceGvma hh rs1 rs2 s = .next u) : u.pending = s.pending ∧ u.flash = s.flash ∧ u.coldOpt = s.coldOpt ∧ u.imsic = s.imsic ∧ u.eng = s.eng ∧ u.dm = s.dm ∧ u.fx = s.fx ∧ u.ctu = s.ctu ∧ u.links = s.links ∧ u.aplicS = s.aplicS ∧ u.aplicN = s.aplicN ∧ u.credits = s.credits ∧ u.pkts = s.pkts ∧ u.resp = s.resp ∧ u.out = s.out ∧ u.fabric = s.fabric ∧ u.files = s.files := by
  unfold execHfenceGvma at h
  (first | (simp only [Host.Outcome.next.injEq] at h; rw [← h]) | (simp only [reduceCtorEq] at h; done) | (simp only [Option.some.injEq] at h; rw [← h])); simp [kept @State.hfenceG_fr]

theorem execHinvalGvma_fr (hh : Fin 216) (rs1 : Fin 32) (rs2 : Fin 32) (s : State) {u : State} (h : execHinvalGvma hh rs1 rs2 s = .next u) : u.pending = s.pending ∧ u.flash = s.flash ∧ u.coldOpt = s.coldOpt ∧ u.imsic = s.imsic ∧ u.eng = s.eng ∧ u.dm = s.dm ∧ u.fx = s.fx ∧ u.ctu = s.ctu ∧ u.links = s.links ∧ u.aplicS = s.aplicS ∧ u.aplicN = s.aplicN ∧ u.credits = s.credits ∧ u.pkts = s.pkts ∧ u.resp = s.resp ∧ u.out = s.out ∧ u.fabric = s.fabric ∧ u.files = s.files := by
  unfold execHinvalGvma at h
  (first | (simp only [Host.Outcome.next.injEq] at h; rw [← h]) | (simp only [reduceCtorEq] at h; done) | (simp only [Option.some.injEq] at h; rw [← h])); simp [kept @State.hfenceG_fr]

theorem State.tflush_fr (s : State) (hh : Nat) (rs1 : Fin 32) (rs2 : Fin 32) : (State.tflush s hh rs1 rs2).pending = s.pending ∧ (State.tflush s hh rs1 rs2).flash = s.flash ∧ (State.tflush s hh rs1 rs2).coldOpt = s.coldOpt ∧ (State.tflush s hh rs1 rs2).imsic = s.imsic ∧ (State.tflush s hh rs1 rs2).eng = s.eng ∧ (State.tflush s hh rs1 rs2).dm = s.dm ∧ (State.tflush s hh rs1 rs2).fx = s.fx ∧ (State.tflush s hh rs1 rs2).ctu = s.ctu ∧ (State.tflush s hh rs1 rs2).links = s.links ∧ (State.tflush s hh rs1 rs2).aplicS = s.aplicS ∧ (State.tflush s hh rs1 rs2).aplicN = s.aplicN ∧ (State.tflush s hh rs1 rs2).credits = s.credits ∧ (State.tflush s hh rs1 rs2).pkts = s.pkts ∧ (State.tflush s hh rs1 rs2).resp = s.resp ∧ (State.tflush s hh rs1 rs2).out = s.out ∧ (State.tflush s hh rs1 rs2).fabric = s.fabric ∧ (State.tflush s hh rs1 rs2).files = s.files := by
  generalize h : State.tflush s hh rs1 rs2 = u
  unfold State.tflush at h
  (try dsimp only at h); (repeat' split at h) <;> rw [← h] <;> simp [kept @State.tlbOp_fr]

theorem execHscTflush_fr (hh : Fin 216) (rs1 : Fin 32) (rs2 : Fin 32) (s : State) {u : State} (h : execHscTflush hh rs1 rs2 s = .next u) : u.pending = s.pending ∧ u.flash = s.flash ∧ u.coldOpt = s.coldOpt ∧ u.imsic = s.imsic ∧ u.eng = s.eng ∧ u.dm = s.dm ∧ u.fx = s.fx ∧ u.ctu = s.ctu ∧ u.links = s.links ∧ u.aplicS = s.aplicS ∧ u.aplicN = s.aplicN ∧ u.credits = s.credits ∧ u.pkts = s.pkts ∧ u.resp = s.resp ∧ u.out = s.out ∧ u.fabric = s.fabric ∧ u.files = s.files := by
  unfold execHscTflush at h
  (first | (simp only [Host.Outcome.next.injEq] at h; rw [← h]) | (simp only [reduceCtorEq] at h; done) | (simp only [Option.some.injEq] at h; rw [← h])); simp [kept @State.tflush_fr]

theorem State.gtflush_fr (s : State) (hh : Nat) (rs1 : Fin 32) (rs2 : Fin 32) : (State.gtflush s hh rs1 rs2).pending = s.pending ∧ (State.gtflush s hh rs1 rs2).flash = s.flash ∧ (State.gtflush s hh rs1 rs2).coldOpt = s.coldOpt ∧ (State.gtflush s hh rs1 rs2).imsic = s.imsic ∧ (State.gtflush s hh rs1 rs2).eng = s.eng ∧ (State.gtflush s hh rs1 rs2).dm = s.dm ∧ (State.gtflush s hh rs1 rs2).fx = s.fx ∧ (State.gtflush s hh rs1 rs2).ctu = s.ctu ∧ (State.gtflush s hh rs1 rs2).links = s.links ∧ (State.gtflush s hh rs1 rs2).aplicS = s.aplicS ∧ (State.gtflush s hh rs1 rs2).aplicN = s.aplicN ∧ (State.gtflush s hh rs1 rs2).credits = s.credits ∧ (State.gtflush s hh rs1 rs2).pkts = s.pkts ∧ (State.gtflush s hh rs1 rs2).resp = s.resp ∧ (State.gtflush s hh rs1 rs2).out = s.out ∧ (State.gtflush s hh rs1 rs2).fabric = s.fabric ∧ (State.gtflush s hh rs1 rs2).files = s.files := by
  generalize h : State.gtflush s hh rs1 rs2 = u
  unfold State.gtflush at h
  (try dsimp only at h); (repeat' split at h) <;> rw [← h] <;> simp [kept @State.tlbOp_fr]

theorem execHscGtflush_fr (hh : Fin 216) (rs1 : Fin 32) (rs2 : Fin 32) (s : State) {u : State} (h : execHscGtflush hh rs1 rs2 s = .next u) : u.pending = s.pending ∧ u.flash = s.flash ∧ u.coldOpt = s.coldOpt ∧ u.imsic = s.imsic ∧ u.eng = s.eng ∧ u.dm = s.dm ∧ u.fx = s.fx ∧ u.ctu = s.ctu ∧ u.links = s.links ∧ u.aplicS = s.aplicS ∧ u.aplicN = s.aplicN ∧ u.credits = s.credits ∧ u.pkts = s.pkts ∧ u.resp = s.resp ∧ u.out = s.out ∧ u.fabric = s.fabric ∧ u.files = s.files := by
  unfold execHscGtflush at h
  (first | (simp only [Host.Outcome.next.injEq] at h; rw [← h]) | (simp only [reduceCtorEq] at h; done) | (simp only [Option.some.injEq] at h; rw [← h])); simp [kept @State.gtflush_fr]

theorem execSfenceWInval_fr (hh : Fin 216) (s : State) {u : State} (h : execSfenceWInval hh s = .next u) : u.pending = s.pending ∧ u.flash = s.flash ∧ u.coldOpt = s.coldOpt ∧ u.imsic = s.imsic ∧ u.eng = s.eng ∧ u.dm = s.dm ∧ u.fx = s.fx ∧ u.ctu = s.ctu ∧ u.links = s.links ∧ u.aplicS = s.aplicS ∧ u.aplicN = s.aplicN ∧ u.credits = s.credits ∧ u.pkts = s.pkts ∧ u.resp = s.resp ∧ u.out = s.out ∧ u.fabric = s.fabric ∧ u.files = s.files := by
  unfold execSfenceWInval at h
  (first | (simp only [Host.Outcome.next.injEq] at h; rw [← h]) | (simp only [reduceCtorEq] at h; done) | (simp only [Option.some.injEq] at h; rw [← h])); simp [kept @State.tlbOp_fr]

theorem execSfenceInvalIr_fr (hh : Fin 216) (s : State) {u : State} (h : execSfenceInvalIr hh s = .next u) : u.pending = s.pending ∧ u.flash = s.flash ∧ u.coldOpt = s.coldOpt ∧ u.imsic = s.imsic ∧ u.eng = s.eng ∧ u.dm = s.dm ∧ u.fx = s.fx ∧ u.ctu = s.ctu ∧ u.links = s.links ∧ u.aplicS = s.aplicS ∧ u.aplicN = s.aplicN ∧ u.credits = s.credits ∧ u.pkts = s.pkts ∧ u.resp = s.resp ∧ u.out = s.out ∧ u.fabric = s.fabric ∧ u.files = s.files := by
  unfold execSfenceInvalIr at h
  (first | (simp only [Host.Outcome.next.injEq] at h; rw [← h]) | (simp only [reduceCtorEq] at h; done) | (simp only [Option.some.injEq] at h; rw [← h])); simp [kept @State.tlbOp_fr]

theorem State.custom_fr (s : State) (hh : Nat) (c : Custom) : (State.custom s hh c).pending = s.pending ∧ (State.custom s hh c).flash = s.flash ∧ (State.custom s hh c).coldOpt = s.coldOpt ∧ (State.custom s hh c).imsic = s.imsic ∧ (State.custom s hh c).eng = s.eng ∧ (State.custom s hh c).dm = s.dm ∧ (State.custom s hh c).fx = s.fx ∧ (State.custom s hh c).ctu = s.ctu ∧ (State.custom s hh c).links = s.links ∧ (State.custom s hh c).aplicS = s.aplicS ∧ (State.custom s hh c).aplicN = s.aplicN ∧ (State.custom s hh c).credits = s.credits ∧ (State.custom s hh c).pkts = s.pkts ∧ (State.custom s hh c).resp = s.resp ∧ (State.custom s hh c).out = s.out ∧ (State.custom s hh c).fabric = s.fabric ∧ (State.custom s hh c).files = s.files := by
  generalize h : State.custom s hh c = u
  unfold State.custom at h
  (try dsimp only at h); (repeat' split at h) <;> rw [← h] <;> simp [kept @State.gtflush_fr, kept @State.hsc_fr, kept @State.hswGate_fr, kept @State.hswRet_fr, kept @State.tflush_fr]

theorem execUnimplementedInstruction_fr (hh : Fin 216) (bits : Nat) (s : State) {u : State} (h : execUnimplementedInstruction hh bits s = .next u) : u.pending = s.pending ∧ u.flash = s.flash ∧ u.coldOpt = s.coldOpt ∧ u.imsic = s.imsic ∧ u.eng = s.eng ∧ u.dm = s.dm ∧ u.fx = s.fx ∧ u.ctu = s.ctu ∧ u.links = s.links ∧ u.aplicS = s.aplicS ∧ u.aplicN = s.aplicN ∧ u.credits = s.credits ∧ u.pkts = s.pkts ∧ u.resp = s.resp ∧ u.out = s.out ∧ u.fabric = s.fabric ∧ u.files = s.files := by
  unfold execUnimplementedInstruction at h
  (try dsimp only at h); (repeat' split at h) <;> (first | (simp only [Host.Outcome.next.injEq] at h; rw [← h]) | (simp only [reduceCtorEq] at h; done) | (simp only [Option.some.injEq] at h; rw [← h])) <;> simp [kept @State.custom_fr, kept @State.except_fr]

theorem execEcall_fr (hh : Fin 216) (s : State) {u : State} (h : execEcall hh s = .next u) : u.pending = s.pending ∧ u.flash = s.flash ∧ u.coldOpt = s.coldOpt ∧ u.imsic = s.imsic ∧ u.eng = s.eng ∧ u.dm = s.dm ∧ u.fx = s.fx ∧ u.ctu = s.ctu ∧ u.links = s.links ∧ u.aplicS = s.aplicS ∧ u.aplicN = s.aplicN ∧ u.credits = s.credits ∧ u.pkts = s.pkts ∧ u.resp = s.resp ∧ u.out = s.out ∧ u.fabric = s.fabric ∧ u.files = s.files := by
  unfold execEcall at h
  (first | (simp only [Host.Outcome.next.injEq] at h; rw [← h]) | (simp only [reduceCtorEq] at h; done) | (simp only [Option.some.injEq] at h; rw [← h])); simp [kept @State.except_fr]

theorem execMret_fr (hh : Fin 216) (s : State) {u : State} (h : execMret hh s = .next u) : u.pending = s.pending ∧ u.flash = s.flash ∧ u.coldOpt = s.coldOpt ∧ u.imsic = s.imsic ∧ u.eng = s.eng ∧ u.dm = s.dm ∧ u.fx = s.fx ∧ u.ctu = s.ctu ∧ u.links = s.links ∧ u.aplicS = s.aplicS ∧ u.aplicN = s.aplicN ∧ u.credits = s.credits ∧ u.pkts = s.pkts ∧ u.resp = s.resp ∧ u.out = s.out ∧ u.fabric = s.fabric ∧ u.files = s.files := by
  unfold execMret at h
  (first | (simp only [Host.Outcome.next.injEq] at h; rw [← h]) | (simp only [reduceCtorEq] at h; done) | (simp only [Option.some.injEq] at h; rw [← h])); simp [kept @State.except_fr, kept @State.setHart_fr, kept @State.stepped_fr, kept @State.tagStep_fr]

theorem execHaltRequest_fr (hh : Fin 216) (s : State) {u : State} (h : execHaltRequest hh s = .next u) : u.pending = s.pending ∧ u.flash = s.flash ∧ u.coldOpt = s.coldOpt ∧ u.mem = s.mem ∧ u.mram = s.mram ∧ u.imsic = s.imsic ∧ u.eng = s.eng ∧ u.dm = s.dm ∧ u.fx = s.fx ∧ u.ctu = s.ctu ∧ u.links = s.links ∧ u.aplicS = s.aplicS ∧ u.aplicN = s.aplicN ∧ u.credits = s.credits ∧ u.clusters = s.clusters ∧ u.homes = s.homes ∧ u.pkts = s.pkts ∧ u.resp = s.resp ∧ u.regs = s.regs ∧ u.wires = s.wires ∧ u.dmg = s.dmg ∧ u.wq = s.wq ∧ u.net = s.net ∧ u.dbInval = s.dbInval ∧ u.watch = s.watch ∧ u.pkg = s.pkg ∧ u.pmc = s.pmc ∧ u.fwLog = s.fwLog ∧ u.out = s.out ∧ u.free = s.free ∧ u.fabric = s.fabric ∧ u.files = s.files := by
  unfold execHaltRequest at h
  (try dsimp only at h); (repeat' split at h) <;> (first | (simp only [Host.Outcome.next.injEq] at h; rw [← h]) | (simp only [reduceCtorEq] at h; done) | (simp only [Option.some.injEq] at h; rw [← h])) <;> simp [kept @State.setHart_fr]

theorem execDebugResume_fr (hh : Fin 216) (step : Bool) (s : State) {u : State} (h : execDebugResume hh step s = .next u) : u.pending = s.pending ∧ u.flash = s.flash ∧ u.coldOpt = s.coldOpt ∧ u.mem = s.mem ∧ u.mram = s.mram ∧ u.imsic = s.imsic ∧ u.eng = s.eng ∧ u.dm = s.dm ∧ u.fx = s.fx ∧ u.ctu = s.ctu ∧ u.links = s.links ∧ u.aplicS = s.aplicS ∧ u.aplicN = s.aplicN ∧ u.credits = s.credits ∧ u.clusters = s.clusters ∧ u.homes = s.homes ∧ u.pkts = s.pkts ∧ u.resp = s.resp ∧ u.regs = s.regs ∧ u.wires = s.wires ∧ u.dmg = s.dmg ∧ u.wq = s.wq ∧ u.net = s.net ∧ u.dbInval = s.dbInval ∧ u.watch = s.watch ∧ u.pkg = s.pkg ∧ u.pmc = s.pmc ∧ u.fwLog = s.fwLog ∧ u.out = s.out ∧ u.free = s.free ∧ u.fabric = s.fabric ∧ u.files = s.files := by
  unfold execDebugResume at h
  (try dsimp only at h); (repeat' split at h) <;> (first | (simp only [Host.Outcome.next.injEq] at h; rw [← h]) | (simp only [reduceCtorEq] at h; done) | (simp only [Option.some.injEq] at h; rw [← h])) <;> simp [kept @State.setHart_fr]

theorem execDmactiveClear_fr (s : State) {u : State} (h : execDmactiveClear s = .next u) : u.pending = s.pending ∧ u.flash = s.flash ∧ u.coldOpt = s.coldOpt ∧ u.mem = s.mem ∧ u.mram = s.mram ∧ u.imsic = s.imsic ∧ u.eng = s.eng ∧ u.dm = s.dm ∧ u.fx = s.fx ∧ u.ctu = s.ctu ∧ u.links = s.links ∧ u.aplicS = s.aplicS ∧ u.aplicN = s.aplicN ∧ u.credits = s.credits ∧ u.clusters = s.clusters ∧ u.homes = s.homes ∧ u.pkts = s.pkts ∧ u.resp = s.resp ∧ u.regs = s.regs ∧ u.wires = s.wires ∧ u.dmg = s.dmg ∧ u.wq = s.wq ∧ u.net = s.net ∧ u.dbInval = s.dbInval ∧ u.watch = s.watch ∧ u.pmc = s.pmc ∧ u.fwLog = s.fwLog ∧ u.out = s.out ∧ u.free = s.free ∧ u.fabric = s.fabric ∧ u.files = s.files := by
  unfold execDmactiveClear at h
  (try dsimp only at h); (repeat' split at h) <;> ((first | (simp only [Host.Outcome.next.injEq] at h; rw [← h]) | (simp only [reduceCtorEq] at h; done) | (simp only [Option.some.injEq] at h; rw [← h])); simp (disch := (intros; (repeat' split) <;> first | exact keepsM_pure _ _ | simp [*, kept @State.pk_fr, kept @State.setHart_fr])) [kept @State.pk_fr, kept @State.setHart_fr])

theorem execSystemBusAccess_fr (pa : Nat) (size : Nat) (write : Option Nat) (s : State) {u : State} (h : execSystemBusAccess pa size write s = .next u) : u.pending = s.pending ∧ u.flash = s.flash ∧ u.coldOpt = s.coldOpt ∧ u.fabric = s.fabric ∧ u.files = s.files := by
  unfold execSystemBusAccess at h
  (try dsimp only at h); (repeat' split at h) <;> ((first | (simp only [Host.Outcome.next.injEq] at h; rw [← h]) | (simp only [reduceCtorEq] at h; done) | (simp only [Option.some.injEq] at h; rw [← h]));  (try simp only [Prod.ext_iff] at *); (try casesm* _ ∧ _); (try casesm* @Eq State _ _); (try simp [*, kept @State.answer_fr, kept @State.readPa_fr, kept @State.writePa_fr]))

end Sys2Proof.Machine
end

