-- ==== Sys2Proof/Laws/Frame/MgmtCmds.lean ====
section
/-! SUPPORT. What the operations of Machine/MgmtCmds.lean leave unchanged. -/

set_option Elab.async false
set_option linter.all false

namespace Sys2Proof.Machine
open Sys2Proof

theorem execEvent_fr (k : Nat) (s : State) {u : State} (h : execEvent k s = .next u) : u.pending = s.pending ∧ u.flash = s.flash ∧ u.coldOpt = s.coldOpt ∧ u.mem = s.mem ∧ u.harts = s.harts ∧ u.eng = s.eng ∧ u.dm = s.dm ∧ u.fx = s.fx ∧ u.ctu = s.ctu ∧ u.links = s.links ∧ u.credits = s.credits ∧ u.clusters = s.clusters ∧ u.homes = s.homes ∧ u.pkts = s.pkts ∧ u.resp = s.resp ∧ u.dmg = s.dmg ∧ u.wq = s.wq ∧ u.net = s.net ∧ u.dbInval = s.dbInval ∧ u.watch = s.watch ∧ u.pkg = s.pkg ∧ u.out = s.out ∧ u.free = s.free ∧ u.fabric = s.fabric ∧ u.files = s.files := by
  unfold execEvent at h
  (try dsimp only at h); (repeat' split at h) <;> (first | (simp only [Host.Outcome.next.injEq] at h; rw [← h]) | (simp only [reduceCtorEq] at h; done) | (simp only [Option.some.injEq] at h; rw [← h])) <;> simp [kept @State.present_fr]

theorem execAplicClaim_fr (w : World) (k : Nat) (s : State) {u : State} (h : execAplicClaim w k s = .next u) : u.pending = s.pending ∧ u.flash = s.flash ∧ u.coldOpt = s.coldOpt ∧ u.mem = s.mem ∧ u.harts = s.harts ∧ u.mram = s.mram ∧ u.imsic = s.imsic ∧ u.eng = s.eng ∧ u.dm = s.dm ∧ u.fx = s.fx ∧ u.ctu = s.ctu ∧ u.links = s.links ∧ u.credits = s.credits ∧ u.clusters = s.clusters ∧ u.homes = s.homes ∧ u.pkts = s.pkts ∧ u.resp = s.resp ∧ u.regs = s.regs ∧ u.wires = s.wires ∧ u.dmg = s.dmg ∧ u.wq = s.wq ∧ u.net = s.net ∧ u.dbInval = s.dbInval ∧ u.watch = s.watch ∧ u.pkg = s.pkg ∧ u.pmc = s.pmc ∧ u.fwLog = s.fwLog ∧ u.out = s.out ∧ u.free = s.free ∧ u.fabric = s.fabric ∧ u.files = s.files := by
  unfold execAplicClaim at h
  (try dsimp only at h); (repeat' split at h) <;> (first | (simp only [Host.Outcome.next.injEq] at h; rw [← h]) | (simp only [reduceCtorEq] at h; done) | (simp only [Option.some.injEq] at h; rw [← h])) <;> simp [kept @State.setAplic_fr]

theorem execPmcWatchdogTimeout_fr (s : State) {u : State} (h : execPmcWatchdogTimeout s = .next u) : u.pending = s.pending ∧ u.flash = s.flash ∧ u.coldOpt = s.coldOpt ∧ u.resp = s.resp ∧ u.free = s.free := by
  unfold execPmcWatchdogTimeout at h
  (try dsimp only at h); (repeat' split at h) <;> (first | (simp only [Host.Outcome.next.injEq] at h; rw [← h]) | (simp only [reduceCtorEq] at h; done) | (simp only [Option.some.injEq] at h; rw [← h])) <;> simp [kept @State.enterBufferStop_fr]

theorem execDynamicAddressAssignment_fr (addr : Fin 128) (s : State) {u : State} (h : execDynamicAddressAssignment addr s = .next u) : u.pending = s.pending ∧ u.flash = s.flash ∧ u.coldOpt = s.coldOpt ∧ u.mem = s.mem ∧ u.harts = s.harts ∧ u.mram = s.mram ∧ u.imsic = s.imsic ∧ u.eng = s.eng ∧ u.dm = s.dm ∧ u.fx = s.fx ∧ u.ctu = s.ctu ∧ u.links = s.links ∧ u.aplicS = s.aplicS ∧ u.aplicN = s.aplicN ∧ u.credits = s.credits ∧ u.clusters = s.clusters ∧ u.homes = s.homes ∧ u.pkts = s.pkts ∧ u.resp = s.resp ∧ u.regs = s.regs ∧ u.wires = s.wires ∧ u.dmg = s.dmg ∧ u.wq = s.wq ∧ u.net = s.net ∧ u.dbInval = s.dbInval ∧ u.watch = s.watch ∧ u.pkg = s.pkg ∧ u.fwLog = s.fwLog ∧ u.out = s.out ∧ u.free = s.free ∧ u.fabric = s.fabric ∧ u.files = s.files := by
  unfold execDynamicAddressAssignment at h
  (try dsimp only at h); (repeat' split at h) <;> (first | (simp only [Host.Outcome.next.injEq] at h; rw [← h]) | (simp only [reduceCtorEq] at h; done) | (simp only [Option.some.injEq] at h; rw [← h])) <;> simp

theorem execPmcRestart_fr (s : State) {u : State} (h : execPmcRestart s = .next u) : u.pending = s.pending ∧ u.flash = s.flash ∧ u.coldOpt = s.coldOpt ∧ u.mem = s.mem ∧ u.harts = s.harts ∧ u.imsic = s.imsic ∧ u.eng = s.eng ∧ u.dm = s.dm ∧ u.fx = s.fx ∧ u.ctu = s.ctu ∧ u.links = s.links ∧ u.aplicS = s.aplicS ∧ u.aplicN = s.aplicN ∧ u.credits = s.credits ∧ u.clusters = s.clusters ∧ u.homes = s.homes ∧ u.pkts = s.pkts ∧ u.resp = s.resp ∧ u.regs = s.regs ∧ u.wires = s.wires ∧ u.dmg = s.dmg ∧ u.wq = s.wq ∧ u.net = s.net ∧ u.dbInval = s.dbInval ∧ u.watch = s.watch ∧ u.pkg = s.pkg ∧ u.fwLog = s.fwLog ∧ u.out = s.out ∧ u.free = s.free ∧ u.fabric = s.fabric ∧ u.files = s.files := by
  unfold execPmcRestart at h
  (try dsimp only at h); (repeat' split at h) <;> (first | (simp only [Host.Outcome.next.injEq] at h; rw [← h]) | (simp only [reduceCtorEq] at h; done) | (simp only [Option.some.injEq] at h; rw [← h])) <;> simp [kept @State.loadPmcImage_fr, kept @State.logNow_fr]

@[simp] theorem State.mgmt_pending (s : State) (src : MgmtSrc) (msg : Option (List Byte)) (cmd : Nat) (f : State → List Byte → State) (hf : ∀ x0 x1, (f x0 x1).pending = x0.pending) : (State.mgmt s src msg cmd f).pending = s.pending := by
  unfold State.mgmt
  first
  | (simp [*, kept @State.mgmtReply_fr, kept @State.mgmtRequest_fr]; done)
  | ((repeat' split) <;> simp [*, kept @State.mgmtReply_fr, kept @State.mgmtRequest_fr]; done)
  | ((try dsimp only); (repeat' split) <;> simp (disch := (intros; (repeat' split) <;> simp [*, kept @State.mgmtReply_fr, kept @State.mgmtRequest_fr])) [*, kept @State.mgmtReply_fr, kept @State.mgmtRequest_fr]; done)
  | (refine State.taskDo_pending _ _ _ (fun _ => ?_); (repeat' split) <;> first | exact keepsM_pure _ _ | (simp [*, kept @State.mgmtReply_fr, kept @State.mgmtRequest_fr]; done))

@[simp] theorem State.mgmt_files (s : State) (src : MgmtSrc) (msg : Option (List Byte)) (cmd : Nat) (f : State → List Byte → State) (hf : ∀ x0 x1, (f x0 x1).files = x0.files) : (State.mgmt s src msg cmd f).files = s.files := by
  unfold State.mgmt
  first
  | (simp [*, kept @State.mgmtReply_fr, kept @State.mgmtRequest_fr]; done)
  | ((repeat' split) <;> simp [*, kept @State.mgmtReply_fr, kept @State.mgmtRequest_fr]; done)
  | ((try dsimp only); (repeat' split) <;> simp (disch := (intros; (repeat' split) <;> simp [*, kept @State.mgmtReply_fr, kept @State.mgmtRequest_fr])) [*, kept @State.mgmtReply_fr, kept @State.mgmtRequest_fr]; done)
  | (refine State.taskDo_files _ _ _ (fun _ => ?_); (repeat' split) <;> first | exact keepsM_pure _ _ | (simp [*, kept @State.mgmtReply_fr, kept @State.mgmtRequest_fr]; done))

@[simp] theorem State.mgmt_fabric (s : State) (src : MgmtSrc) (msg : Option (List Byte)) (cmd : Nat) (f : State → List Byte → State) (hf : ∀ x0 x1, (f x0 x1).fabric = x0.fabric) : (State.mgmt s src msg cmd f).fabric = s.fabric := by
  unfold State.mgmt
  first
  | (simp [*, kept @State.mgmtReply_fr, kept @State.mgmtRequest_fr]; done)
  | ((repeat' split) <;> simp [*, kept @State.mgmtReply_fr, kept @State.mgmtRequest_fr]; done)
  | ((try dsimp only); (repeat' split) <;> simp (disch := (intros; (repeat' split) <;> simp [*, kept @State.mgmtReply_fr, kept @State.mgmtRequest_fr])) [*, kept @State.mgmtReply_fr, kept @State.mgmtRequest_fr]; done)
  | (refine State.taskDo_fabric _ _ _ (fun _ => ?_); (repeat' split) <;> first | exact keepsM_pure _ _ | (simp [*, kept @State.mgmtReply_fr, kept @State.mgmtRequest_fr]; done))

@[simp] theorem State.mgmt_flash (s : State) (src : MgmtSrc) (msg : Option (List Byte)) (cmd : Nat) (f : State → List Byte → State) (hf : ∀ x0 x1, (f x0 x1).flash = x0.flash) : (State.mgmt s src msg cmd f).flash = s.flash := by
  unfold State.mgmt
  first
  | (simp [*, kept @State.mgmtReply_fr, kept @State.mgmtRequest_fr]; done)
  | ((repeat' split) <;> simp [*, kept @State.mgmtReply_fr, kept @State.mgmtRequest_fr]; done)
  | ((try dsimp only); (repeat' split) <;> simp (disch := (intros; (repeat' split) <;> simp [*, kept @State.mgmtReply_fr, kept @State.mgmtRequest_fr])) [*, kept @State.mgmtReply_fr, kept @State.mgmtRequest_fr]; done)
  | (refine State.taskDo_flash _ _ _ (fun _ => ?_); (repeat' split) <;> first | exact keepsM_pure _ _ | (simp [*, kept @State.mgmtReply_fr, kept @State.mgmtRequest_fr]; done))

@[simp] theorem State.mgmt_coldOpt (s : State) (src : MgmtSrc) (msg : Option (List Byte)) (cmd : Nat) (f : State → List Byte → State) (hf : ∀ x0 x1, (f x0 x1).coldOpt = x0.coldOpt) : (State.mgmt s src msg cmd f).coldOpt = s.coldOpt := by
  unfold State.mgmt
  first
  | (simp [*, kept @State.mgmtReply_fr, kept @State.mgmtRequest_fr]; done)
  | ((repeat' split) <;> simp [*, kept @State.mgmtReply_fr, kept @State.mgmtRequest_fr]; done)
  | ((try dsimp only); (repeat' split) <;> simp (disch := (intros; (repeat' split) <;> simp [*, kept @State.mgmtReply_fr, kept @State.mgmtRequest_fr])) [*, kept @State.mgmtReply_fr, kept @State.mgmtRequest_fr]; done)
  | (refine State.taskDo_coldOpt _ _ _ (fun _ => ?_); (repeat' split) <;> first | exact keepsM_pure _ _ | (simp [*, kept @State.mgmtReply_fr, kept @State.mgmtRequest_fr]; done))

@[simp] theorem State.mgmt_mem (s : State) (src : MgmtSrc) (msg : Option (List Byte)) (cmd : Nat) (f : State → List Byte → State) (hf : ∀ x0 x1, (f x0 x1).mem = x0.mem) : (State.mgmt s src msg cmd f).mem = s.mem := by
  unfold State.mgmt
  first
  | (simp [*, kept @State.mgmtReply_fr, kept @State.mgmtRequest_fr]; done)
  | ((repeat' split) <;> simp [*, kept @State.mgmtReply_fr, kept @State.mgmtRequest_fr]; done)
  | ((try dsimp only); (repeat' split) <;> simp (disch := (intros; (repeat' split) <;> simp [*, kept @State.mgmtReply_fr, kept @State.mgmtRequest_fr])) [*, kept @State.mgmtReply_fr, kept @State.mgmtRequest_fr]; done)
  | (refine State.taskDo_mem _ _ _ (fun _ => ?_); (repeat' split) <;> first | exact keepsM_pure _ _ | (simp [*, kept @State.mgmtReply_fr, kept @State.mgmtRequest_fr]; done))

@[simp] theorem State.mgmt_harts (s : State) (src : MgmtSrc) (msg : Option (List Byte)) (cmd : Nat) (f : State → List Byte → State) (hf : ∀ x0 x1, (f x0 x1).harts = x0.harts) : (State.mgmt s src msg cmd f).harts = s.harts := by
  unfold State.mgmt
  first
  | (simp [*, kept @State.mgmtReply_fr, kept @State.mgmtRequest_fr]; done)
  | ((repeat' split) <;> simp [*, kept @State.mgmtReply_fr, kept @State.mgmtRequest_fr]; done)
  | ((try dsimp only); (repeat' split) <;> simp (disch := (intros; (repeat' split) <;> simp [*, kept @State.mgmtReply_fr, kept @State.mgmtRequest_fr])) [*, kept @State.mgmtReply_fr, kept @State.mgmtRequest_fr]; done)
  | (refine State.taskDo_harts _ _ _ (fun _ => ?_); (repeat' split) <;> first | exact keepsM_pure _ _ | (simp [*, kept @State.mgmtReply_fr, kept @State.mgmtRequest_fr]; done))

@[simp] theorem State.mgmt_mram (s : State) (src : MgmtSrc) (msg : Option (List Byte)) (cmd : Nat) (f : State → List Byte → State) (hf : ∀ x0 x1, (f x0 x1).mram = x0.mram) : (State.mgmt s src msg cmd f).mram = s.mram := by
  unfold State.mgmt
  first
  | (simp [*, kept @State.mgmtReply_fr, kept @State.mgmtRequest_fr]; done)
  | ((repeat' split) <;> simp [*, kept @State.mgmtReply_fr, kept @State.mgmtRequest_fr]; done)
  | ((try dsimp only); (repeat' split) <;> simp (disch := (intros; (repeat' split) <;> simp [*, kept @State.mgmtReply_fr, kept @State.mgmtRequest_fr])) [*, kept @State.mgmtReply_fr, kept @State.mgmtRequest_fr]; done)
  | (refine State.taskDo_mram _ _ _ (fun _ => ?_); (repeat' split) <;> first | exact keepsM_pure _ _ | (simp [*, kept @State.mgmtReply_fr, kept @State.mgmtRequest_fr]; done))

@[simp] theorem State.mgmt_imsic (s : State) (src : MgmtSrc) (msg : Option (List Byte)) (cmd : Nat) (f : State → List Byte → State) (hf : ∀ x0 x1, (f x0 x1).imsic = x0.imsic) : (State.mgmt s src msg cmd f).imsic = s.imsic := by
  unfold State.mgmt
  first
  | (simp [*, kept @State.mgmtReply_fr, kept @State.mgmtRequest_fr]; done)
  | ((repeat' split) <;> simp [*, kept @State.mgmtReply_fr, kept @State.mgmtRequest_fr]; done)
  | ((try dsimp only); (repeat' split) <;> simp (disch := (intros; (repeat' split) <;> simp [*, kept @State.mgmtReply_fr, kept @State.mgmtRequest_fr])) [*, kept @State.mgmtReply_fr, kept @State.mgmtRequest_fr]; done)
  | (refine State.taskDo_imsic _ _ _ (fun _ => ?_); (repeat' split) <;> first | exact keepsM_pure _ _ | (simp [*, kept @State.mgmtReply_fr, kept @State.mgmtRequest_fr]; done))

@[simp] theorem State.mgmt_eng (s : State) (src : MgmtSrc) (msg : Option (List Byte)) (cmd : Nat) (f : State → List Byte → State) (hf : ∀ x0 x1, (f x0 x1).eng = x0.eng) : (State.mgmt s src msg cmd f).eng = s.eng := by
  unfold State.mgmt
  first
  | (simp [*, kept @State.mgmtReply_fr, kept @State.mgmtRequest_fr]; done)
  | ((repeat' split) <;> simp [*, kept @State.mgmtReply_fr, kept @State.mgmtRequest_fr]; done)
  | ((try dsimp only); (repeat' split) <;> simp (disch := (intros; (repeat' split) <;> simp [*, kept @State.mgmtReply_fr, kept @State.mgmtRequest_fr])) [*, kept @State.mgmtReply_fr, kept @State.mgmtRequest_fr]; done)
  | (refine State.taskDo_eng _ _ _ (fun _ => ?_); (repeat' split) <;> first | exact keepsM_pure _ _ | (simp [*, kept @State.mgmtReply_fr, kept @State.mgmtRequest_fr]; done))

@[simp] theorem State.mgmt_dm (s : State) (src : MgmtSrc) (msg : Option (List Byte)) (cmd : Nat) (f : State → List Byte → State) (hf : ∀ x0 x1, (f x0 x1).dm = x0.dm) : (State.mgmt s src msg cmd f).dm = s.dm := by
  unfold State.mgmt
  first
  | (simp [*, kept @State.mgmtReply_fr, kept @State.mgmtRequest_fr]; done)
  | ((repeat' split) <;> simp [*, kept @State.mgmtReply_fr, kept @State.mgmtRequest_fr]; done)
  | ((try dsimp only); (repeat' split) <;> simp (disch := (intros; (repeat' split) <;> simp [*, kept @State.mgmtReply_fr, kept @State.mgmtRequest_fr])) [*, kept @State.mgmtReply_fr, kept @State.mgmtRequest_fr]; done)
  | (refine State.taskDo_dm _ _ _ (fun _ => ?_); (repeat' split) <;> first | exact keepsM_pure _ _ | (simp [*, kept @State.mgmtReply_fr, kept @State.mgmtRequest_fr]; done))

@[simp] theorem State.mgmt_ctu (s : State) (src : MgmtSrc) (msg : Option (List Byte)) (cmd : Nat) (f : State → List Byte → State) (hf : ∀ x0 x1, (f x0 x1).ctu = x0.ctu) : (State.mgmt s src msg cmd f).ctu = s.ctu := by
  unfold State.mgmt
  first
  | (simp [*, kept @State.mgmtReply_fr, kept @State.mgmtRequest_fr]; done)
  | ((repeat' split) <;> simp [*, kept @State.mgmtReply_fr, kept @State.mgmtRequest_fr]; done)
  | ((try dsimp only); (repeat' split) <;> simp (disch := (intros; (repeat' split) <;> simp [*, kept @State.mgmtReply_fr, kept @State.mgmtRequest_fr])) [*, kept @State.mgmtReply_fr, kept @State.mgmtRequest_fr]; done)
  | (refine State.taskDo_ctu _ _ _ (fun _ => ?_); (repeat' split) <;> first | exact keepsM_pure _ _ | (simp [*, kept @State.mgmtReply_fr, kept @State.mgmtRequest_fr]; done))

@[simp] theorem State.mgmt_links (s : State) (src : MgmtSrc) (msg : Option (List Byte)) (cmd : Nat) (f : State → List Byte → State) (hf : ∀ x0 x1, (f x0 x1).links = x0.links) : (State.mgmt s src msg cmd f).links = s.links := by
  unfold State.mgmt
  first
  | (simp [*, kept @State.mgmtReply_fr, kept @State.mgmtRequest_fr]; done)
  | ((repeat' split) <;> simp [*, kept @State.mgmtReply_fr, kept @State.mgmtRequest_fr]; done)
  | ((try dsimp only); (repeat' split) <;> simp (disch := (intros; (repeat' split) <;> simp [*, kept @State.mgmtReply_fr, kept @State.mgmtRequest_fr])) [*, kept @State.mgmtReply_fr, kept @State.mgmtRequest_fr]; done)
  | (refine State.taskDo_links _ _ _ (fun _ => ?_); (repeat' split) <;> first | exact keepsM_pure _ _ | (simp [*, kept @State.mgmtReply_fr, kept @State.mgmtRequest_fr]; done))

@[simp] theorem State.mgmt_aplicS (s : State) (src : MgmtSrc) (msg : Option (List Byte)) (cmd : Nat) (f : State → List Byte → State) (hf : ∀ x0 x1, (f x0 x1).aplicS = x0.aplicS) : (State.mgmt s src msg cmd f).aplicS = s.aplicS := by
  unfold State.mgmt
  first
  | (simp [*, kept @State.mgmtReply_fr, kept @State.mgmtRequest_fr]; done)
  | ((repeat' split) <;> simp [*, kept @State.mgmtReply_fr, kept @State.mgmtRequest_fr]; done)
  | ((try dsimp only); (repeat' split) <;> simp (disch := (intros; (repeat' split) <;> simp [*, kept @State.mgmtReply_fr, kept @State.mgmtRequest_fr])) [*, kept @State.mgmtReply_fr, kept @State.mgmtRequest_fr]; done)
  | (refine State.taskDo_aplicS _ _ _ (fun _ => ?_); (repeat' split) <;> first | exact keepsM_pure _ _ | (simp [*, kept @State.mgmtReply_fr, kept @State.mgmtRequest_fr]; done))

@[simp] theorem State.mgmt_aplicN (s : State) (src : MgmtSrc) (msg : Option (List Byte)) (cmd : Nat) (f : State → List Byte → State) (hf : ∀ x0 x1, (f x0 x1).aplicN = x0.aplicN) : (State.mgmt s src msg cmd f).aplicN = s.aplicN := by
  unfold State.mgmt
  first
  | (simp [*, kept @State.mgmtReply_fr, kept @State.mgmtRequest_fr]; done)
  | ((repeat' split) <;> simp [*, kept @State.mgmtReply_fr, kept @State.mgmtRequest_fr]; done)
  | ((try dsimp only); (repeat' split) <;> simp (disch := (intros; (repeat' split) <;> simp [*, kept @State.mgmtReply_fr, kept @State.mgmtRequest_fr])) [*, kept @State.mgmtReply_fr, kept @State.mgmtRequest_fr]; done)
  | (refine State.taskDo_aplicN _ _ _ (fun _ => ?_); (repeat' split) <;> first | exact keepsM_pure _ _ | (simp [*, kept @State.mgmtReply_fr, kept @State.mgmtRequest_fr]; done))

@[simp] theorem State.mgmt_credits (s : State) (src : MgmtSrc) (msg : Option (List Byte)) (cmd : Nat) (f : State → List Byte → State) (hf : ∀ x0 x1, (f x0 x1).credits = x0.credits) : (State.mgmt s src msg cmd f).credits = s.credits := by
  unfold State.mgmt
  first
  | (simp [*, kept @State.mgmtReply_fr, kept @State.mgmtRequest_fr]; done)
  | ((repeat' split) <;> simp [*, kept @State.mgmtReply_fr, kept @State.mgmtRequest_fr]; done)
  | ((try dsimp only); (repeat' split) <;> simp (disch := (intros; (repeat' split) <;> simp [*, kept @State.mgmtReply_fr, kept @State.mgmtRequest_fr])) [*, kept @State.mgmtReply_fr, kept @State.mgmtRequest_fr]; done)
  | (refine State.taskDo_credits _ _ _ (fun _ => ?_); (repeat' split) <;> first | exact keepsM_pure _ _ | (simp [*, kept @State.mgmtReply_fr, kept @State.mgmtRequest_fr]; done))

@[simp] theorem State.mgmt_clusters (s : State) (src : MgmtSrc) (msg : Option (List Byte)) (cmd : Nat) (f : State → List Byte → State) (hf : ∀ x0 x1, (f x0 x1).clusters = x0.clusters) : (State.mgmt s src msg cmd f).clusters = s.clusters := by
  unfold State.mgmt
  first
  | (simp [*, kept @State.mgmtReply_fr, kept @State.mgmtRequest_fr]; done)
  | ((repeat' split) <;> simp [*, kept @State.mgmtReply_fr, kept @State.mgmtRequest_fr]; done)
  | ((try dsimp only); (repeat' split) <;> simp (disch := (intros; (repeat' split) <;> simp [*, kept @State.mgmtReply_fr, kept @State.mgmtRequest_fr])) [*, kept @State.mgmtReply_fr, kept @State.mgmtRequest_fr]; done)
  | (refine State.taskDo_clusters _ _ _ (fun _ => ?_); (repeat' split) <;> first | exact keepsM_pure _ _ | (simp [*, kept @State.mgmtReply_fr, kept @State.mgmtRequest_fr]; done))

@[simp] theorem State.mgmt_homes (s : State) (src : MgmtSrc) (msg : Option (List Byte)) (cmd : Nat) (f : State → List Byte → State) (hf : ∀ x0 x1, (f x0 x1).homes = x0.homes) : (State.mgmt s src msg cmd f).homes = s.homes := by
  unfold State.mgmt
  first
  | (simp [*, kept @State.mgmtReply_fr, kept @State.mgmtRequest_fr]; done)
  | ((repeat' split) <;> simp [*, kept @State.mgmtReply_fr, kept @State.mgmtRequest_fr]; done)
  | ((try dsimp only); (repeat' split) <;> simp (disch := (intros; (repeat' split) <;> simp [*, kept @State.mgmtReply_fr, kept @State.mgmtRequest_fr])) [*, kept @State.mgmtReply_fr, kept @State.mgmtRequest_fr]; done)
  | (refine State.taskDo_homes _ _ _ (fun _ => ?_); (repeat' split) <;> first | exact keepsM_pure _ _ | (simp [*, kept @State.mgmtReply_fr, kept @State.mgmtRequest_fr]; done))

@[simp] theorem State.mgmt_pkts (s : State) (src : MgmtSrc) (msg : Option (List Byte)) (cmd : Nat) (f : State → List Byte → State) (hf : ∀ x0 x1, (f x0 x1).pkts = x0.pkts) : (State.mgmt s src msg cmd f).pkts = s.pkts := by
  unfold State.mgmt
  first
  | (simp [*, kept @State.mgmtReply_fr, kept @State.mgmtRequest_fr]; done)
  | ((repeat' split) <;> simp [*, kept @State.mgmtReply_fr, kept @State.mgmtRequest_fr]; done)
  | ((try dsimp only); (repeat' split) <;> simp (disch := (intros; (repeat' split) <;> simp [*, kept @State.mgmtReply_fr, kept @State.mgmtRequest_fr])) [*, kept @State.mgmtReply_fr, kept @State.mgmtRequest_fr]; done)
  | (refine State.taskDo_pkts _ _ _ (fun _ => ?_); (repeat' split) <;> first | exact keepsM_pure _ _ | (simp [*, kept @State.mgmtReply_fr, kept @State.mgmtRequest_fr]; done))

@[simp] theorem State.mgmt_resp (s : State) (src : MgmtSrc) (msg : Option (List Byte)) (cmd : Nat) (f : State → List Byte → State) (hf : ∀ x0 x1, (f x0 x1).resp = x0.resp) : (State.mgmt s src msg cmd f).resp = s.resp := by
  unfold State.mgmt
  first
  | (simp [*, kept @State.mgmtReply_fr, kept @State.mgmtRequest_fr]; done)
  | ((repeat' split) <;> simp [*, kept @State.mgmtReply_fr, kept @State.mgmtRequest_fr]; done)
  | ((try dsimp only); (repeat' split) <;> simp (disch := (intros; (repeat' split) <;> simp [*, kept @State.mgmtReply_fr, kept @State.mgmtRequest_fr])) [*, kept @State.mgmtReply_fr, kept @State.mgmtRequest_fr]; done)
  | (refine State.taskDo_resp _ _ _ (fun _ => ?_); (repeat' split) <;> first | exact keepsM_pure _ _ | (simp [*, kept @State.mgmtReply_fr, kept @State.mgmtRequest_fr]; done))

@[simp] theorem State.mgmt_dmg (s : State) (src : MgmtSrc) (msg : Option (List Byte)) (cmd : Nat) (f : State → List Byte → State) (hf : ∀ x0 x1, (f x0 x1).dmg = x0.dmg) : (State.mgmt s src msg cmd f).dmg = s.dmg := by
  unfold State.mgmt
  first
  | (simp [*, kept @State.mgmtReply_fr, kept @State.mgmtRequest_fr]; done)
  | ((repeat' split) <;> simp [*, kept @State.mgmtReply_fr, kept @State.mgmtRequest_fr]; done)
  | ((try dsimp only); (repeat' split) <;> simp (disch := (intros; (repeat' split) <;> simp [*, kept @State.mgmtReply_fr, kept @State.mgmtRequest_fr])) [*, kept @State.mgmtReply_fr, kept @State.mgmtRequest_fr]; done)
  | (refine State.taskDo_dmg _ _ _ (fun _ => ?_); (repeat' split) <;> first | exact keepsM_pure _ _ | (simp [*, kept @State.mgmtReply_fr, kept @State.mgmtRequest_fr]; done))

@[simp] theorem State.mgmt_wq (s : State) (src : MgmtSrc) (msg : Option (List Byte)) (cmd : Nat) (f : State → List Byte → State) (hf : ∀ x0 x1, (f x0 x1).wq = x0.wq) : (State.mgmt s src msg cmd f).wq = s.wq := by
  unfold State.mgmt
  first
  | (simp [*, kept @State.mgmtReply_fr, kept @State.mgmtRequest_fr]; done)
  | ((repeat' split) <;> simp [*, kept @State.mgmtReply_fr, kept @State.mgmtRequest_fr]; done)
  | ((try dsimp only); (repeat' split) <;> simp (disch := (intros; (repeat' split) <;> simp [*, kept @State.mgmtReply_fr, kept @State.mgmtRequest_fr])) [*, kept @State.mgmtReply_fr, kept @State.mgmtRequest_fr]; done)
  | (refine State.taskDo_wq _ _ _ (fun _ => ?_); (repeat' split) <;> first | exact keepsM_pure _ _ | (simp [*, kept @State.mgmtReply_fr, kept @State.mgmtRequest_fr]; done))

@[simp] theorem State.mgmt_net (s : State) (src : MgmtSrc) (msg : Option (List Byte)) (cmd : Nat) (f : State → List Byte → State) (hf : ∀ x0 x1, (f x0 x1).net = x0.net) : (State.mgmt s src msg cmd f).net = s.net := by
  unfold State.mgmt
  first
  | (simp [*, kept @State.mgmtReply_fr, kept @State.mgmtRequest_fr]; done)
  | ((repeat' split) <;> simp [*, kept @State.mgmtReply_fr, kept @State.mgmtRequest_fr]; done)
  | ((try dsimp only); (repeat' split) <;> simp (disch := (intros; (repeat' split) <;> simp [*, kept @State.mgmtReply_fr, kept @State.mgmtRequest_fr])) [*, kept @State.mgmtReply_fr, kept @State.mgmtRequest_fr]; done)
  | (refine State.taskDo_net _ _ _ (fun _ => ?_); (repeat' split) <;> first | exact keepsM_pure _ _ | (simp [*, kept @State.mgmtReply_fr, kept @State.mgmtRequest_fr]; done))

@[simp] theorem State.mgmt_dbInval (s : State) (src : MgmtSrc) (msg : Option (List Byte)) (cmd : Nat) (f : State → List Byte → State) (hf : ∀ x0 x1, (f x0 x1).dbInval = x0.dbInval) : (State.mgmt s src msg cmd f).dbInval = s.dbInval := by
  unfold State.mgmt
  first
  | (simp [*, kept @State.mgmtReply_fr, kept @State.mgmtRequest_fr]; done)
  | ((repeat' split) <;> simp [*, kept @State.mgmtReply_fr, kept @State.mgmtRequest_fr]; done)
  | ((try dsimp only); (repeat' split) <;> simp (disch := (intros; (repeat' split) <;> simp [*, kept @State.mgmtReply_fr, kept @State.mgmtRequest_fr])) [*, kept @State.mgmtReply_fr, kept @State.mgmtRequest_fr]; done)
  | (refine State.taskDo_dbInval _ _ _ (fun _ => ?_); (repeat' split) <;> first | exact keepsM_pure _ _ | (simp [*, kept @State.mgmtReply_fr, kept @State.mgmtRequest_fr]; done))

@[simp] theorem State.mgmt_watch (s : State) (src : MgmtSrc) (msg : Option (List Byte)) (cmd : Nat) (f : State → List Byte → State) (hf : ∀ x0 x1, (f x0 x1).watch = x0.watch) : (State.mgmt s src msg cmd f).watch = s.watch := by
  unfold State.mgmt
  first
  | (simp [*, kept @State.mgmtReply_fr, kept @State.mgmtRequest_fr]; done)
  | ((repeat' split) <;> simp [*, kept @State.mgmtReply_fr, kept @State.mgmtRequest_fr]; done)
  | ((try dsimp only); (repeat' split) <;> simp (disch := (intros; (repeat' split) <;> simp [*, kept @State.mgmtReply_fr, kept @State.mgmtRequest_fr])) [*, kept @State.mgmtReply_fr, kept @State.mgmtRequest_fr]; done)
  | (refine State.taskDo_watch _ _ _ (fun _ => ?_); (repeat' split) <;> first | exact keepsM_pure _ _ | (simp [*, kept @State.mgmtReply_fr, kept @State.mgmtRequest_fr]; done))

@[simp] theorem State.mgmt_pkg (s : State) (src : MgmtSrc) (msg : Option (List Byte)) (cmd : Nat) (f : State → List Byte → State) (hf : ∀ x0 x1, (f x0 x1).pkg = x0.pkg) : (State.mgmt s src msg cmd f).pkg = s.pkg := by
  unfold State.mgmt
  first
  | (simp [*, kept @State.mgmtReply_fr, kept @State.mgmtRequest_fr]; done)
  | ((repeat' split) <;> simp [*, kept @State.mgmtReply_fr, kept @State.mgmtRequest_fr]; done)
  | ((try dsimp only); (repeat' split) <;> simp (disch := (intros; (repeat' split) <;> simp [*, kept @State.mgmtReply_fr, kept @State.mgmtRequest_fr])) [*, kept @State.mgmtReply_fr, kept @State.mgmtRequest_fr]; done)
  | (refine State.taskDo_pkg _ _ _ (fun _ => ?_); (repeat' split) <;> first | exact keepsM_pure _ _ | (simp [*, kept @State.mgmtReply_fr, kept @State.mgmtRequest_fr]; done))

@[simp] theorem State.mgmt_fwLog (s : State) (src : MgmtSrc) (msg : Option (List Byte)) (cmd : Nat) (f : State → List Byte → State) (hf : ∀ x0 x1, (f x0 x1).fwLog = x0.fwLog) : (State.mgmt s src msg cmd f).fwLog = s.fwLog := by
  unfold State.mgmt
  first
  | (simp [*, kept @State.mgmtReply_fr, kept @State.mgmtRequest_fr]; done)
  | ((repeat' split) <;> simp [*, kept @State.mgmtReply_fr, kept @State.mgmtRequest_fr]; done)
  | ((try dsimp only); (repeat' split) <;> simp (disch := (intros; (repeat' split) <;> simp [*, kept @State.mgmtReply_fr, kept @State.mgmtRequest_fr])) [*, kept @State.mgmtReply_fr, kept @State.mgmtRequest_fr]; done)
  | (refine State.taskDo_fwLog _ _ _ (fun _ => ?_); (repeat' split) <;> first | exact keepsM_pure _ _ | (simp [*, kept @State.mgmtReply_fr, kept @State.mgmtRequest_fr]; done))

@[simp] theorem State.mgmt_free (s : State) (src : MgmtSrc) (msg : Option (List Byte)) (cmd : Nat) (f : State → List Byte → State) (hf : ∀ x0 x1, (f x0 x1).free = x0.free) : (State.mgmt s src msg cmd f).free = s.free := by
  unfold State.mgmt
  first
  | (simp [*, kept @State.mgmtReply_fr, kept @State.mgmtRequest_fr]; done)
  | ((repeat' split) <;> simp [*, kept @State.mgmtReply_fr, kept @State.mgmtRequest_fr]; done)
  | ((try dsimp only); (repeat' split) <;> simp (disch := (intros; (repeat' split) <;> simp [*, kept @State.mgmtReply_fr, kept @State.mgmtRequest_fr])) [*, kept @State.mgmtReply_fr, kept @State.mgmtRequest_fr]; done)
  | (refine State.taskDo_free _ _ _ (fun _ => ?_); (repeat' split) <;> first | exact keepsM_pure _ _ | (simp [*, kept @State.mgmtReply_fr, kept @State.mgmtRequest_fr]; done))

theorem State.imageInfo_fr (s : State) (kind : Nat) : (State.imageInfo s kind).2.pending = s.pending ∧ (State.imageInfo s kind).2.flash = s.flash ∧ (State.imageInfo s kind).2.coldOpt = s.coldOpt ∧ (State.imageInfo s kind).2.mem = s.mem ∧ (State.imageInfo s kind).2.harts = s.harts ∧ (State.imageInfo s kind).2.mram = s.mram ∧ (State.imageInfo s kind).2.imsic = s.imsic ∧ (State.imageInfo s kind).2.eng = s.eng ∧ (State.imageInfo s kind).2.dm = s.dm ∧ (State.imageInfo s kind).2.fx = s.fx ∧ (State.imageInfo s kind).2.ctu = s.ctu ∧ (State.imageInfo s kind).2.links = s.links ∧ (State.imageInfo s kind).2.aplicS = s.aplicS ∧ (State.imageInfo s kind).2.aplicN = s.aplicN ∧ (State.imageInfo s kind).2.credits = s.credits ∧ (State.imageInfo s kind).2.clusters = s.clusters ∧ (State.imageInfo s kind).2.homes = s.homes ∧ (State.imageInfo s kind).2.pkts = s.pkts ∧ (State.imageInfo s kind).2.resp = s.resp ∧ (State.imageInfo s kind).2.regs = s.regs ∧ (State.imageInfo s kind).2.wires = s.wires ∧ (State.imageInfo s kind).2.dmg = s.dmg ∧ (State.imageInfo s kind).2.wq = s.wq ∧ (State.imageInfo s kind).2.net = s.net ∧ (State.imageInfo s kind).2.dbInval = s.dbInval ∧ (State.imageInfo s kind).2.watch = s.watch ∧ (State.imageInfo s kind).2.pkg = s.pkg ∧ (State.imageInfo s kind).2.pmc = s.pmc ∧ (State.imageInfo s kind).2.fwLog = s.fwLog ∧ (State.imageInfo s kind).2.out = s.out ∧ (State.imageInfo s kind).2.fabric = s.fabric ∧ (State.imageInfo s kind).2.files = s.files := by
  generalize h : (State.imageInfo s kind).2 = u
  unfold State.imageInfo at h
  (try dsimp only at h); (repeat' split at h) <;> rw [← h] <;> simp [kept @State.draw_fr]

theorem execGetInfo_fr (src : MgmtSrc) (msg : Option (List Byte)) (s : State) {u : State} (h : execGetInfo src msg s = .next u) : u.pending = s.pending ∧ u.flash = s.flash ∧ u.coldOpt = s.coldOpt ∧ u.mem = s.mem ∧ u.harts = s.harts ∧ u.mram = s.mram ∧ u.imsic = s.imsic ∧ u.eng = s.eng ∧ u.dm = s.dm ∧ u.ctu = s.ctu ∧ u.links = s.links ∧ u.aplicS = s.aplicS ∧ u.aplicN = s.aplicN ∧ u.credits = s.credits ∧ u.clusters = s.clusters ∧ u.homes = s.homes ∧ u.pkts = s.pkts ∧ u.resp = s.resp ∧ u.dmg = s.dmg ∧ u.wq = s.wq ∧ u.net = s.net ∧ u.dbInval = s.dbInval ∧ u.watch = s.watch ∧ u.pkg = s.pkg ∧ u.fwLog = s.fwLog ∧ u.fabric = s.fabric ∧ u.files = s.files := by
  unfold execGetInfo at h
  (first | (simp only [Host.Outcome.next.injEq] at h; rw [← h]) | (simp only [reduceCtorEq] at h; done) | (simp only [Option.some.injEq] at h; rw [← h])); simp [kept @State.imageInfo_fr, kept @State.mgmtReply_fr]

theorem execReadSensors_fr (src : MgmtSrc) (msg : Option (List Byte)) (s : State) {u : State} (h : execReadSensors src msg s = .next u) : u.pending = s.pending ∧ u.flash = s.flash ∧ u.coldOpt = s.coldOpt ∧ u.mem = s.mem ∧ u.harts = s.harts ∧ u.mram = s.mram ∧ u.imsic = s.imsic ∧ u.eng = s.eng ∧ u.dm = s.dm ∧ u.ctu = s.ctu ∧ u.links = s.links ∧ u.aplicS = s.aplicS ∧ u.aplicN = s.aplicN ∧ u.credits = s.credits ∧ u.clusters = s.clusters ∧ u.homes = s.homes ∧ u.pkts = s.pkts ∧ u.resp = s.resp ∧ u.dmg = s.dmg ∧ u.wq = s.wq ∧ u.net = s.net ∧ u.dbInval = s.dbInval ∧ u.watch = s.watch ∧ u.pkg = s.pkg ∧ u.fwLog = s.fwLog ∧ u.free = s.free ∧ u.fabric = s.fabric ∧ u.files = s.files := by
  unfold execReadSensors at h
  (first | (simp only [Host.Outcome.next.injEq] at h; rw [← h]) | (simp only [reduceCtorEq] at h; done) | (simp only [Option.some.injEq] at h; rw [← h])); simp [kept @State.mgmtReply_fr]

theorem execReadRails_fr (src : MgmtSrc) (msg : Option (List Byte)) (rails : List (Nat × Nat)) (s : State) {u : State} (h : execReadRails src msg rails s = .next u) : u.pending = s.pending ∧ u.flash = s.flash ∧ u.coldOpt = s.coldOpt ∧ u.mem = s.mem ∧ u.harts = s.harts ∧ u.mram = s.mram ∧ u.imsic = s.imsic ∧ u.eng = s.eng ∧ u.dm = s.dm ∧ u.ctu = s.ctu ∧ u.links = s.links ∧ u.aplicS = s.aplicS ∧ u.aplicN = s.aplicN ∧ u.credits = s.credits ∧ u.clusters = s.clusters ∧ u.homes = s.homes ∧ u.pkts = s.pkts ∧ u.resp = s.resp ∧ u.dmg = s.dmg ∧ u.wq = s.wq ∧ u.net = s.net ∧ u.dbInval = s.dbInval ∧ u.watch = s.watch ∧ u.pkg = s.pkg ∧ u.fwLog = s.fwLog ∧ u.free = s.free ∧ u.fabric = s.fabric ∧ u.files = s.files := by
  unfold execReadRails at h
  (first | (simp only [Host.Outcome.next.injEq] at h; rw [← h]) | (simp only [reduceCtorEq] at h; done) | (simp only [Option.some.injEq] at h; rw [← h])); simp [kept @State.mgmtReply_fr]

theorem execSetLimits_fr (src : MgmtSrc) (msg : Option (List Byte)) (s : State) {u : State} (h : execSetLimits src msg s = .next u) : u.pending = s.pending ∧ u.flash = s.flash ∧ u.coldOpt = s.coldOpt ∧ u.mem = s.mem ∧ u.harts = s.harts ∧ u.mram = s.mram ∧ u.imsic = s.imsic ∧ u.eng = s.eng ∧ u.dm = s.dm ∧ u.ctu = s.ctu ∧ u.links = s.links ∧ u.aplicS = s.aplicS ∧ u.aplicN = s.aplicN ∧ u.credits = s.credits ∧ u.clusters = s.clusters ∧ u.homes = s.homes ∧ u.pkts = s.pkts ∧ u.resp = s.resp ∧ u.dmg = s.dmg ∧ u.wq = s.wq ∧ u.net = s.net ∧ u.dbInval = s.dbInval ∧ u.watch = s.watch ∧ u.pkg = s.pkg ∧ u.fwLog = s.fwLog ∧ u.free = s.free ∧ u.fabric = s.fabric ∧ u.files = s.files := by
  unfold execSetLimits at h
  (first | (simp only [Host.Outcome.next.injEq] at h; rw [← h]) | (simp only [reduceCtorEq] at h; done) | (simp only [Option.some.injEq] at h; rw [← h])); simp [kept @State.mgmtReply_fr]

theorem execTripClear_fr (src : MgmtSrc) (msg : Option (List Byte)) (s : State) {u : State} (h : execTripClear src msg s = .next u) : u.pending = s.pending ∧ u.flash = s.flash ∧ u.coldOpt = s.coldOpt ∧ u.mem = s.mem ∧ u.harts = s.harts ∧ u.imsic = s.imsic ∧ u.eng = s.eng ∧ u.dm = s.dm ∧ u.ctu = s.ctu ∧ u.links = s.links ∧ u.aplicS = s.aplicS ∧ u.aplicN = s.aplicN ∧ u.credits = s.credits ∧ u.clusters = s.clusters ∧ u.homes = s.homes ∧ u.pkts = s.pkts ∧ u.resp = s.resp ∧ u.dmg = s.dmg ∧ u.wq = s.wq ∧ u.net = s.net ∧ u.dbInval = s.dbInval ∧ u.watch = s.watch ∧ u.pkg = s.pkg ∧ u.fwLog = s.fwLog ∧ u.free = s.free ∧ u.fabric = s.fabric ∧ u.files = s.files := by
  unfold execTripClear at h
  (first | (simp only [Host.Outcome.next.injEq] at h; rw [← h]) | (simp only [reduceCtorEq] at h; done) | (simp only [Option.some.injEq] at h; rw [← h])); simp [kept @State.logNow_fr, kept @State.mgmtReply_fr, kept @State.wrs_fr]

theorem execModeOrder_fr (src : MgmtSrc) (msg : Option (List Byte)) (s : State) {u : State} (h : execModeOrder src msg s = .next u) : u.pending = s.pending ∧ u.flash = s.flash ∧ u.coldOpt = s.coldOpt ∧ u.mem = s.mem ∧ u.harts = s.harts ∧ u.mram = s.mram ∧ u.imsic = s.imsic ∧ u.eng = s.eng ∧ u.dm = s.dm ∧ u.ctu = s.ctu ∧ u.links = s.links ∧ u.aplicS = s.aplicS ∧ u.aplicN = s.aplicN ∧ u.credits = s.credits ∧ u.clusters = s.clusters ∧ u.homes = s.homes ∧ u.pkts = s.pkts ∧ u.resp = s.resp ∧ u.dmg = s.dmg ∧ u.wq = s.wq ∧ u.net = s.net ∧ u.dbInval = s.dbInval ∧ u.watch = s.watch ∧ u.fwLog = s.fwLog ∧ u.free = s.free ∧ u.fabric = s.fabric ∧ u.files = s.files := by
  unfold execModeOrder at h
  (first | (simp only [Host.Outcome.next.injEq] at h; rw [← h]) | (simp only [reduceCtorEq] at h; done) | (simp only [Option.some.injEq] at h; rw [← h])); simp [kept @State.mgmtReply_fr, kept @State.submitMode_fr]

theorem execPowerReq_fr (src : MgmtSrc) (msg : Option (List Byte)) (s : State) {u : State} (h : execPowerReq src msg s = .next u) : u.pending = s.pending ∧ u.flash = s.flash ∧ u.coldOpt = s.coldOpt ∧ u.mem = s.mem ∧ u.harts = s.harts ∧ u.imsic = s.imsic ∧ u.eng = s.eng ∧ u.dm = s.dm ∧ u.ctu = s.ctu ∧ u.links = s.links ∧ u.aplicS = s.aplicS ∧ u.aplicN = s.aplicN ∧ u.credits = s.credits ∧ u.clusters = s.clusters ∧ u.homes = s.homes ∧ u.pkts = s.pkts ∧ u.resp = s.resp ∧ u.dmg = s.dmg ∧ u.wq = s.wq ∧ u.net = s.net ∧ u.dbInval = s.dbInval ∧ u.watch = s.watch ∧ u.fwLog = s.fwLog ∧ u.free = s.free ∧ u.fabric = s.fabric ∧ u.files = s.files := by
  unfold execPowerReq at h
  (first | (simp only [Host.Outcome.next.injEq] at h; rw [← h]) | (simp only [reduceCtorEq] at h; done) | (simp only [Option.some.injEq] at h; rw [← h])); simp [kept @State.mgmtReply_fr, kept @State.submitPower_fr]

theorem execReset_fr (src : MgmtSrc) (msg : Option (List Byte)) (pulse : Bool) (s : State) {u : State} (h : execReset src msg pulse s = .next u) : u.pending = s.pending ∧ u.flash = s.flash ∧ u.coldOpt = s.coldOpt ∧ u.resp = s.resp ∧ u.free = s.free := by
  unfold execReset at h
  (first | (simp only [Host.Outcome.next.injEq] at h; rw [← h]) | (simp only [reduceCtorEq] at h; done) | (simp only [Option.some.injEq] at h; rw [← h])); simp [kept @State.mgmtReply_fr, kept @State.warmSource_fr]

theorem execLogRead_fr (src : MgmtSrc) (msg : Option (List Byte)) (s : State) {u : State} (h : execLogRead src msg s = .next u) : u.pending = s.pending ∧ u.flash = s.flash ∧ u.coldOpt = s.coldOpt ∧ u.mem = s.mem ∧ u.harts = s.harts ∧ u.mram = s.mram ∧ u.imsic = s.imsic ∧ u.eng = s.eng ∧ u.dm = s.dm ∧ u.ctu = s.ctu ∧ u.links = s.links ∧ u.aplicS = s.aplicS ∧ u.aplicN = s.aplicN ∧ u.credits = s.credits ∧ u.clusters = s.clusters ∧ u.homes = s.homes ∧ u.pkts = s.pkts ∧ u.resp = s.resp ∧ u.dmg = s.dmg ∧ u.wq = s.wq ∧ u.net = s.net ∧ u.dbInval = s.dbInval ∧ u.watch = s.watch ∧ u.pkg = s.pkg ∧ u.fwLog = s.fwLog ∧ u.free = s.free ∧ u.fabric = s.fabric ∧ u.files = s.files := by
  unfold execLogRead at h
  (first | (simp only [Host.Outcome.next.injEq] at h; rw [← h]) | (simp only [reduceCtorEq] at h; done) | (simp only [Option.some.injEq] at h; rw [← h])); simp [kept @State.mgmtReply_fr]

theorem execLogClear_fr (src : MgmtSrc) (msg : Option (List Byte)) (s : State) {u : State} (h : execLogClear src msg s = .next u) : u.pending = s.pending ∧ u.flash = s.flash ∧ u.coldOpt = s.coldOpt ∧ u.mem = s.mem ∧ u.harts = s.harts ∧ u.imsic = s.imsic ∧ u.eng = s.eng ∧ u.dm = s.dm ∧ u.ctu = s.ctu ∧ u.links = s.links ∧ u.aplicS = s.aplicS ∧ u.aplicN = s.aplicN ∧ u.credits = s.credits ∧ u.clusters = s.clusters ∧ u.homes = s.homes ∧ u.pkts = s.pkts ∧ u.resp = s.resp ∧ u.dmg = s.dmg ∧ u.wq = s.wq ∧ u.net = s.net ∧ u.dbInval = s.dbInval ∧ u.watch = s.watch ∧ u.pkg = s.pkg ∧ u.fwLog = s.fwLog ∧ u.free = s.free ∧ u.fabric = s.fabric ∧ u.files = s.files := by
  unfold execLogClear at h
  (first | (simp only [Host.Outcome.next.injEq] at h; rw [← h]) | (simp only [reduceCtorEq] at h; done) | (simp only [Option.some.injEq] at h; rw [← h])); simp [kept @State.mgmtReply_fr]

theorem execOptionRead_fr (src : MgmtSrc) (msg : Option (List Byte)) (s : State) {u : State} (h : execOptionRead src msg s = .next u) : u.pending = s.pending ∧ u.flash = s.flash ∧ u.coldOpt = s.coldOpt ∧ u.mem = s.mem ∧ u.harts = s.harts ∧ u.mram = s.mram ∧ u.imsic = s.imsic ∧ u.eng = s.eng ∧ u.dm = s.dm ∧ u.ctu = s.ctu ∧ u.links = s.links ∧ u.aplicS = s.aplicS ∧ u.aplicN = s.aplicN ∧ u.credits = s.credits ∧ u.clusters = s.clusters ∧ u.homes = s.homes ∧ u.pkts = s.pkts ∧ u.resp = s.resp ∧ u.dmg = s.dmg ∧ u.wq = s.wq ∧ u.net = s.net ∧ u.dbInval = s.dbInval ∧ u.watch = s.watch ∧ u.pkg = s.pkg ∧ u.fwLog = s.fwLog ∧ u.free = s.free ∧ u.fabric = s.fabric ∧ u.files = s.files := by
  unfold execOptionRead at h
  (first | (simp only [Host.Outcome.next.injEq] at h; rw [← h]) | (simp only [reduceCtorEq] at h; done) | (simp only [Option.some.injEq] at h; rw [← h])); simp [kept @State.mgmtReply_fr]

theorem execOptionWrite_fr (src : MgmtSrc) (msg : Option (List Byte)) (s : State) {u : State} (h : execOptionWrite src msg s = .next u) : u.pending = s.pending ∧ u.flash = s.flash ∧ u.coldOpt = s.coldOpt ∧ u.mem = s.mem ∧ u.harts = s.harts ∧ u.imsic = s.imsic ∧ u.eng = s.eng ∧ u.dm = s.dm ∧ u.ctu = s.ctu ∧ u.links = s.links ∧ u.aplicS = s.aplicS ∧ u.aplicN = s.aplicN ∧ u.credits = s.credits ∧ u.clusters = s.clusters ∧ u.homes = s.homes ∧ u.pkts = s.pkts ∧ u.resp = s.resp ∧ u.dmg = s.dmg ∧ u.wq = s.wq ∧ u.net = s.net ∧ u.dbInval = s.dbInval ∧ u.watch = s.watch ∧ u.pkg = s.pkg ∧ u.fwLog = s.fwLog ∧ u.free = s.free ∧ u.fabric = s.fabric ∧ u.files = s.files := by
  unfold execOptionWrite at h
  (first | (simp only [Host.Outcome.next.injEq] at h; rw [← h]) | (simp only [reduceCtorEq] at h; done) | (simp only [Option.some.injEq] at h; rw [← h])); simp [kept @State.logNow_fr, kept @State.mgmtReply_fr, kept @State.setMram_fr]

theorem State.setFw_fr (s : State) (kind : Nat) (x : Option FwSess) : (State.setFw s kind x).pending = s.pending ∧ (State.setFw s kind x).flash = s.flash ∧ (State.setFw s kind x).coldOpt = s.coldOpt ∧ (State.setFw s kind x).mem = s.mem ∧ (State.setFw s kind x).harts = s.harts ∧ (State.setFw s kind x).mram = s.mram ∧ (State.setFw s kind x).imsic = s.imsic ∧ (State.setFw s kind x).eng = s.eng ∧ (State.setFw s kind x).dm = s.dm ∧ (State.setFw s kind x).fx = s.fx ∧ (State.setFw s kind x).ctu = s.ctu ∧ (State.setFw s kind x).links = s.links ∧ (State.setFw s kind x).aplicS = s.aplicS ∧ (State.setFw s kind x).aplicN = s.aplicN ∧ (State.setFw s kind x).credits = s.credits ∧ (State.setFw s kind x).clusters = s.clusters ∧ (State.setFw s kind x).homes = s.homes ∧ (State.setFw s kind x).pkts = s.pkts ∧ (State.setFw s kind x).resp = s.resp ∧ (State.setFw s kind x).regs = s.regs ∧ (State.setFw s kind x).wires = s.wires ∧ (State.setFw s kind x).dmg = s.dmg ∧ (State.setFw s kind x).wq = s.wq ∧ (State.setFw s kind x).net = s.net ∧ (State.setFw s kind x).dbInval = s.dbInval ∧ (State.setFw s kind x).watch = s.watch ∧ (State.setFw s kind x).pkg = s.pkg ∧ (State.setFw s kind x).fwLog = s.fwLog ∧ (State.setFw s kind x).out = s.out ∧ (State.setFw s kind x).free = s.free ∧ (State.setFw s kind x).fabric = s.fabric ∧ (State.setFw s kind x).files = s.files := by
  generalize h : State.setFw s kind x = u
  unfold State.setFw at h
  rw [← h]; simp

theorem State.setSlots_fr (s : State) (kind : Nat) (active : Nat) (prev : Bool) : (State.setSlots s kind active prev).pending = s.pending ∧ (State.setSlots s kind active prev).flash = s.flash ∧ (State.setSlots s kind active prev).coldOpt = s.coldOpt ∧ (State.setSlots s kind active prev).mem = s.mem ∧ (State.setSlots s kind active prev).harts = s.harts ∧ (State.setSlots s kind active prev).imsic = s.imsic ∧ (State.setSlots s kind active prev).eng = s.eng ∧ (State.setSlots s kind active prev).dm = s.dm ∧ (State.setSlots s kind active prev).fx = s.fx ∧ (State.setSlots s kind active prev).ctu = s.ctu ∧ (State.setSlots s kind active prev).links = s.links ∧ (State.setSlots s kind active prev).aplicS = s.aplicS ∧ (State.setSlots s kind active prev).aplicN = s.aplicN ∧ (State.setSlots s kind active prev).credits = s.credits ∧ (State.setSlots s kind active prev).clusters = s.clusters ∧ (State.setSlots s kind active prev).homes = s.homes ∧ (State.setSlots s kind active prev).pkts = s.pkts ∧ (State.setSlots s kind active prev).resp = s.resp ∧ (State.setSlots s kind active prev).regs = s.regs ∧ (State.setSlots s kind active prev).wires = s.wires ∧ (State.setSlots s kind active prev).dmg = s.dmg ∧ (State.setSlots s kind active prev).wq = s.wq ∧ (State.setSlots s kind active prev).net = s.net ∧ (State.setSlots s kind active prev).dbInval = s.dbInval ∧ (State.setSlots s kind active prev).watch = s.watch ∧ (State.setSlots s kind active prev).pkg = s.pkg ∧ (State.setSlots s kind active prev).pmc = s.pmc ∧ (State.setSlots s kind active prev).fwLog = s.fwLog ∧ (State.setSlots s kind active prev).out = s.out ∧ (State.setSlots s kind active prev).free = s.free ∧ (State.setSlots s kind active prev).fabric = s.fabric ∧ (State.setSlots s kind active prev).files = s.files := by
  generalize h : State.setSlots s kind active prev = u
  unfold State.setSlots at h
  rw [← h]; simp [kept @State.setMram_fr]

theorem State.fwWrong_fr (s : State) (n : Nat) : (State.fwWrong s n).pending = s.pending ∧ (State.fwWrong s n).flash = s.flash ∧ (State.fwWrong s n).coldOpt = s.coldOpt ∧ (State.fwWrong s n).mem = s.mem ∧ (State.fwWrong s n).harts = s.harts ∧ (State.fwWrong s n).mram = s.mram ∧ (State.fwWrong s n).imsic = s.imsic ∧ (State.fwWrong s n).eng = s.eng ∧ (State.fwWrong s n).dm = s.dm ∧ (State.fwWrong s n).ctu = s.ctu ∧ (State.fwWrong s n).links = s.links ∧ (State.fwWrong s n).aplicS = s.aplicS ∧ (State.fwWrong s n).aplicN = s.aplicN ∧ (State.fwWrong s n).credits = s.credits ∧ (State.fwWrong s n).clusters = s.clusters ∧ (State.fwWrong s n).homes = s.homes ∧ (State.fwWrong s n).pkts = s.pkts ∧ (State.fwWrong s n).resp = s.resp ∧ (State.fwWrong s n).dmg = s.dmg ∧ (State.fwWrong s n).wq = s.wq ∧ (State.fwWrong s n).net = s.net ∧ (State.fwWrong s n).dbInval = s.dbInval ∧ (State.fwWrong s n).watch = s.watch ∧ (State.fwWrong s n).pkg = s.pkg ∧ (State.fwWrong s n).fwLog = s.fwLog ∧ (State.fwWrong s n).free = s.free ∧ (State.fwWrong s n).fabric = s.fabric ∧ (State.fwWrong s n).files = s.files := by
  generalize h : State.fwWrong s n = u
  unfold State.fwWrong at h
  rw [← h]; simp [kept @State.mgmtReply_fr]

theorem execFwBegin_fr (src : MgmtSrc) (msg : Option (List Byte)) (s : State) {u : State} (h : execFwBegin src msg s = .next u) : u.pending = s.pending ∧ u.flash = s.flash ∧ u.coldOpt = s.coldOpt ∧ u.mem = s.mem ∧ u.harts = s.harts ∧ u.imsic = s.imsic ∧ u.eng = s.eng ∧ u.dm = s.dm ∧ u.ctu = s.ctu ∧ u.links = s.links ∧ u.aplicS = s.aplicS ∧ u.aplicN = s.aplicN ∧ u.credits = s.credits ∧ u.clusters = s.clusters ∧ u.homes = s.homes ∧ u.pkts = s.pkts ∧ u.resp = s.resp ∧ u.dmg = s.dmg ∧ u.wq = s.wq ∧ u.net = s.net ∧ u.dbInval = s.dbInval ∧ u.watch = s.watch ∧ u.pkg = s.pkg ∧ u.fwLog = s.fwLog ∧ u.fabric = s.fabric ∧ u.files = s.files := by
  unfold execFwBegin at h
  (first | (simp only [Host.Outcome.next.injEq] at h; rw [← h]) | (simp only [reduceCtorEq] at h; done) | (simp only [Option.some.injEq] at h; rw [← h])); simp [kept @State.draw_fr, kept @State.logNow_fr, kept @State.mgmtReply_fr, kept @State.setFw_fr, kept @State.setSlots_fr]

theorem State.program_fr (s : State) (base : Nat) (off : Nat) (l : List Byte) : (State.program s base off l).pending = s.pending ∧ (State.program s base off l).coldOpt = s.coldOpt ∧ (State.program s base off l).mem = s.mem ∧ (State.program s base off l).harts = s.harts ∧ (State.program s base off l).mram = s.mram ∧ (State.program s base off l).imsic = s.imsic ∧ (State.program s base off l).eng = s.eng ∧ (State.program s base off l).dm = s.dm ∧ (State.program s base off l).fx = s.fx ∧ (State.program s base off l).ctu = s.ctu ∧ (State.program s base off l).links = s.links ∧ (State.program s base off l).aplicS = s.aplicS ∧ (State.program s base off l).aplicN = s.aplicN ∧ (State.program s base off l).credits = s.credits ∧ (State.program s base off l).clusters = s.clusters ∧ (State.program s base off l).homes = s.homes ∧ (State.program s base off l).pkts = s.pkts ∧ (State.program s base off l).resp = s.resp ∧ (State.program s base off l).regs = s.regs ∧ (State.program s base off l).wires = s.wires ∧ (State.program s base off l).dmg = s.dmg ∧ (State.program s base off l).wq = s.wq ∧ (State.program s base off l).net = s.net ∧ (State.program s base off l).dbInval = s.dbInval ∧ (State.program s base off l).watch = s.watch ∧ (State.program s base off l).pkg = s.pkg ∧ (State.program s base off l).pmc = s.pmc ∧ (State.program s base off l).fwLog = s.fwLog ∧ (State.program s base off l).out = s.out ∧ (State.program s base off l).free = s.free ∧ (State.program s base off l).fabric = s.fabric ∧ (State.program s base off l).files = s.files := by
  generalize h : State.program s base off l = u
  unfold State.program at h
  rw [← h]; simp

theorem State.fwData_fr (s : State) (n : Nat) (b : List Byte) (bad : Bool) : (State.fwData s n b bad).pending = s.pending ∧ (State.fwData s n b bad).coldOpt = s.coldOpt ∧ (State.fwData s n b bad).mem = s.mem ∧ (State.fwData s n b bad).harts = s.harts ∧ (State.fwData s n b bad).mram = s.mram ∧ (State.fwData s n b bad).imsic = s.imsic ∧ (State.fwData s n b bad).eng = s.eng ∧ (State.fwData s n b bad).dm = s.dm ∧ (State.fwData s n b bad).ctu = s.ctu ∧ (State.fwData s n b bad).links = s.links ∧ (State.fwData s n b bad).aplicS = s.aplicS ∧ (State.fwData s n b bad).aplicN = s.aplicN ∧ (State.fwData s n b bad).credits = s.credits ∧ (State.fwData s n b bad).clusters = s.clusters ∧ (State.fwData s n b bad).homes = s.homes ∧ (State.fwData s n b bad).pkts = s.pkts ∧ (State.fwData s n b bad).resp = s.resp ∧ (State.fwData s n b bad).dmg = s.dmg ∧ (State.fwData s n b bad).wq = s.wq ∧ (State.fwData s n b bad).net = s.net ∧ (State.fwData s n b bad).dbInval = s.dbInval ∧ (State.fwData s n b bad).watch = s.watch ∧ (State.fwData s n b bad).pkg = s.pkg ∧ (State.fwData s n b bad).fwLog = s.fwLog ∧ (State.fwData s n b bad).free = s.free ∧ (State.fwData s n b bad).fabric = s.fabric ∧ (State.fwData s n b bad).files = s.files := by
  generalize h : State.fwData s n b bad = u
  unfold State.fwData at h
  (try dsimp only at h); (repeat' split at h) <;> rw [← h] <;> simp [kept @State.fwWrong_fr, kept @State.mgmtReply_fr, kept @State.program_fr, kept @State.setFw_fr]

theorem execFwData_fr (src : MgmtSrc) (msg : Option (List Byte)) (bad : Bool) (s : State) {u : State} (h : execFwData src msg bad s = .next u) : u.pending = s.pending ∧ u.coldOpt = s.coldOpt ∧ u.mem = s.mem ∧ u.harts = s.harts ∧ u.mram = s.mram ∧ u.imsic = s.imsic ∧ u.eng = s.eng ∧ u.dm = s.dm ∧ u.ctu = s.ctu ∧ u.links = s.links ∧ u.aplicS = s.aplicS ∧ u.aplicN = s.aplicN ∧ u.credits = s.credits ∧ u.clusters = s.clusters ∧ u.homes = s.homes ∧ u.pkts = s.pkts ∧ u.resp = s.resp ∧ u.dmg = s.dmg ∧ u.wq = s.wq ∧ u.net = s.net ∧ u.dbInval = s.dbInval ∧ u.watch = s.watch ∧ u.pkg = s.pkg ∧ u.fwLog = s.fwLog ∧ u.free = s.free ∧ u.fabric = s.fabric ∧ u.files = s.files := by
  unfold execFwData at h
  (first | (simp only [Host.Outcome.next.injEq] at h; rw [← h]) | (simp only [reduceCtorEq] at h; done) | (simp only [Option.some.injEq] at h; rw [← h])); simp [kept @State.fwData_fr]

theorem execFwVerifyDone_fr (kind : Fin 3) (s : State) {u : State} (h : execFwVerifyDone kind s = .next u) : u.pending = s.pending ∧ u.flash = s.flash ∧ u.coldOpt = s.coldOpt ∧ u.mem = s.mem ∧ u.harts = s.harts ∧ u.imsic = s.imsic ∧ u.eng = s.eng ∧ u.dm = s.dm ∧ u.fx = s.fx ∧ u.ctu = s.ctu ∧ u.links = s.links ∧ u.aplicS = s.aplicS ∧ u.aplicN = s.aplicN ∧ u.credits = s.credits ∧ u.clusters = s.clusters ∧ u.homes = s.homes ∧ u.pkts = s.pkts ∧ u.resp = s.resp ∧ u.regs = s.regs ∧ u.wires = s.wires ∧ u.dmg = s.dmg ∧ u.wq = s.wq ∧ u.net = s.net ∧ u.dbInval = s.dbInval ∧ u.watch = s.watch ∧ u.pkg = s.pkg ∧ u.fwLog = s.fwLog ∧ u.out = s.out ∧ u.free = s.free ∧ u.fabric = s.fabric ∧ u.files = s.files := by
  unfold execFwVerifyDone at h
  (try dsimp only at h); (repeat' split at h) <;> (first | (simp only [Host.Outcome.next.injEq] at h; rw [← h]) | (simp only [reduceCtorEq] at h; done) | (simp only [Option.some.injEq] at h; rw [← h])) <;> simp [kept @State.logFw7_fr, kept @State.setFw_fr]

theorem execFwReceiveTimeout_fr (kind : Fin 3) (s : State) {u : State} (h : execFwReceiveTimeout kind s = .next u) : u.pending = s.pending ∧ u.flash = s.flash ∧ u.coldOpt = s.coldOpt ∧ u.mem = s.mem ∧ u.harts = s.harts ∧ u.imsic = s.imsic ∧ u.eng = s.eng ∧ u.dm = s.dm ∧ u.fx = s.fx ∧ u.ctu = s.ctu ∧ u.links = s.links ∧ u.aplicS = s.aplicS ∧ u.aplicN = s.aplicN ∧ u.credits = s.credits ∧ u.clusters = s.clusters ∧ u.homes = s.homes ∧ u.pkts = s.pkts ∧ u.resp = s.resp ∧ u.regs = s.regs ∧ u.wires = s.wires ∧ u.dmg = s.dmg ∧ u.wq = s.wq ∧ u.net = s.net ∧ u.dbInval = s.dbInval ∧ u.watch = s.watch ∧ u.pkg = s.pkg ∧ u.fwLog = s.fwLog ∧ u.out = s.out ∧ u.free = s.free ∧ u.fabric = s.fabric ∧ u.files = s.files := by
  unfold execFwReceiveTimeout at h
  (try dsimp only at h); (repeat' split at h) <;> (first | (simp only [Host.Outcome.next.injEq] at h; rw [← h]) | (simp only [reduceCtorEq] at h; done) | (simp only [Option.some.injEq] at h; rw [← h])) <;> simp [kept @State.logFw7_fr, kept @State.setFw_fr]

theorem State.raiseSvn_fr (s : State) (k : Nat) (slot : Nat) : (State.raiseSvn s k slot).pending = s.pending ∧ (State.raiseSvn s k slot).flash = s.flash ∧ (State.raiseSvn s k slot).coldOpt = s.coldOpt ∧ (State.raiseSvn s k slot).mem = s.mem ∧ (State.raiseSvn s k slot).harts = s.harts ∧ (State.raiseSvn s k slot).imsic = s.imsic ∧ (State.raiseSvn s k slot).eng = s.eng ∧ (State.raiseSvn s k slot).dm = s.dm ∧ (State.raiseSvn s k slot).fx = s.fx ∧ (State.raiseSvn s k slot).ctu = s.ctu ∧ (State.raiseSvn s k slot).links = s.links ∧ (State.raiseSvn s k slot).aplicS = s.aplicS ∧ (State.raiseSvn s k slot).aplicN = s.aplicN ∧ (State.raiseSvn s k slot).credits = s.credits ∧ (State.raiseSvn s k slot).clusters = s.clusters ∧ (State.raiseSvn s k slot).homes = s.homes ∧ (State.raiseSvn s k slot).pkts = s.pkts ∧ (State.raiseSvn s k slot).resp = s.resp ∧ (State.raiseSvn s k slot).regs = s.regs ∧ (State.raiseSvn s k slot).wires = s.wires ∧ (State.raiseSvn s k slot).dmg = s.dmg ∧ (State.raiseSvn s k slot).wq = s.wq ∧ (State.raiseSvn s k slot).net = s.net ∧ (State.raiseSvn s k slot).dbInval = s.dbInval ∧ (State.raiseSvn s k slot).watch = s.watch ∧ (State.raiseSvn s k slot).pkg = s.pkg ∧ (State.raiseSvn s k slot).pmc = s.pmc ∧ (State.raiseSvn s k slot).fwLog = s.fwLog ∧ (State.raiseSvn s k slot).out = s.out ∧ (State.raiseSvn s k slot).free = s.free ∧ (State.raiseSvn s k slot).fabric = s.fabric ∧ (State.raiseSvn s k slot).files = s.files := by
  generalize h : State.raiseSvn s k slot = u
  unfold State.raiseSvn at h
  rw [← h]; simp [kept @State.setMram_fr]

theorem State.fwCommitted_fr (s : State) (n : Nat) (k : Nat) : (State.fwCommitted s n k).pending = s.pending ∧ (State.fwCommitted s n k).flash = s.flash ∧ (State.fwCommitted s n k).coldOpt = s.coldOpt ∧ (State.fwCommitted s n k).mem = s.mem ∧ (State.fwCommitted s n k).harts = s.harts ∧ (State.fwCommitted s n k).imsic = s.imsic ∧ (State.fwCommitted s n k).eng = s.eng ∧ (State.fwCommitted s n k).dm = s.dm ∧ (State.fwCommitted s n k).ctu = s.ctu ∧ (State.fwCommitted s n k).links = s.links ∧ (State.fwCommitted s n k).aplicS = s.aplicS ∧ (State.fwCommitted s n k).aplicN = s.aplicN ∧ (State.fwCommitted s n k).credits = s.credits ∧ (State.fwCommitted s n k).clusters = s.clusters ∧ (State.fwCommitted s n k).homes = s.homes ∧ (State.fwCommitted s n k).pkts = s.pkts ∧ (State.fwCommitted s n k).resp = s.resp ∧ (State.fwCommitted s n k).dmg = s.dmg ∧ (State.fwCommitted s n k).wq = s.wq ∧ (State.fwCommitted s n k).net = s.net ∧ (State.fwCommitted s n k).dbInval = s.dbInval ∧ (State.fwCommitted s n k).watch = s.watch ∧ (State.fwCommitted s n k).pkg = s.pkg ∧ (State.fwCommitted s n k).fwLog = s.fwLog ∧ (State.fwCommitted s n k).free = s.free ∧ (State.fwCommitted s n k).fabric = s.fabric ∧ (State.fwCommitted s n k).files = s.files := by
  generalize h : State.fwCommitted s n k = u
  unfold State.fwCommitted at h
  rw [← h]; simp [kept @State.logFw7_fr, kept @State.mgmtReply_fr, kept @State.raiseSvn_fr, kept @State.setFw_fr, kept @State.setSlots_fr]

theorem State.afterCommit_fr (s : State) (k : Nat) : (State.afterCommit s k).pending = s.pending ∧ (State.afterCommit s k).flash = s.flash ∧ (State.afterCommit s k).coldOpt = s.coldOpt ∧ (State.afterCommit s k).mem = s.mem ∧ (State.afterCommit s k).resp = s.resp ∧ (State.afterCommit s k).out = s.out ∧ (State.afterCommit s k).free = s.free := by
  generalize h : State.afterCommit s k = u
  unfold State.afterCommit at h
  rw [← h]; simp [kept @State.coldReset_fr, kept @State.pk_fr, kept @State.setCount_fr]

theorem State.fwCommit_fr (s : State) (n : Nat) : (State.fwCommit s n).pending = s.pending ∧ (State.fwCommit s n).flash = s.flash ∧ (State.fwCommit s n).coldOpt = s.coldOpt ∧ (State.fwCommit s n).mem = s.mem ∧ (State.fwCommit s n).resp = s.resp ∧ (State.fwCommit s n).free = s.free := by
  generalize h : State.fwCommit s n = u
  unfold State.fwCommit at h
  (try dsimp only at h); (repeat' split at h) <;> rw [← h] <;> simp [kept @State.afterCommit_fr, kept @State.fwCommitted_fr, kept @State.fwWrong_fr]

theorem execFwCommit_fr (src : MgmtSrc) (msg : Option (List Byte)) (s : State) {u : State} (h : execFwCommit src msg s = .next u) : u.pending = s.pending ∧ u.flash = s.flash ∧ u.coldOpt = s.coldOpt ∧ u.mem = s.mem ∧ u.resp = s.resp ∧ u.free = s.free := by
  unfold execFwCommit at h
  (first | (simp only [Host.Outcome.next.injEq] at h; rw [← h]) | (simp only [reduceCtorEq] at h; done) | (simp only [Option.some.injEq] at h; rw [← h])); simp [kept @State.fwCommit_fr]

theorem State.fwBack_fr (s : State) (n : Nat) (k : Nat) : (State.fwBack s n k).pending = s.pending ∧ (State.fwBack s n k).flash = s.flash ∧ (State.fwBack s n k).coldOpt = s.coldOpt ∧ (State.fwBack s n k).mem = s.mem ∧ (State.fwBack s n k).harts = s.harts ∧ (State.fwBack s n k).imsic = s.imsic ∧ (State.fwBack s n k).eng = s.eng ∧ (State.fwBack s n k).dm = s.dm ∧ (State.fwBack s n k).ctu = s.ctu ∧ (State.fwBack s n k).links = s.links ∧ (State.fwBack s n k).aplicS = s.aplicS ∧ (State.fwBack s n k).aplicN = s.aplicN ∧ (State.fwBack s n k).credits = s.credits ∧ (State.fwBack s n k).clusters = s.clusters ∧ (State.fwBack s n k).homes = s.homes ∧ (State.fwBack s n k).pkts = s.pkts ∧ (State.fwBack s n k).resp = s.resp ∧ (State.fwBack s n k).dmg = s.dmg ∧ (State.fwBack s n k).wq = s.wq ∧ (State.fwBack s n k).net = s.net ∧ (State.fwBack s n k).dbInval = s.dbInval ∧ (State.fwBack s n k).watch = s.watch ∧ (State.fwBack s n k).pkg = s.pkg ∧ (State.fwBack s n k).fwLog = s.fwLog ∧ (State.fwBack s n k).free = s.free ∧ (State.fwBack s n k).fabric = s.fabric ∧ (State.fwBack s n k).files = s.files := by
  generalize h : State.fwBack s n k = u
  unfold State.fwBack at h
  rw [← h]; simp [kept @State.logFw7_fr, kept @State.mgmtReply_fr, kept @State.setSlots_fr]

theorem State.fwRollback_fr (s : State) (n : Nat) (k : Nat) : (State.fwRollback s n k).pending = s.pending ∧ (State.fwRollback s n k).flash = s.flash ∧ (State.fwRollback s n k).coldOpt = s.coldOpt ∧ (State.fwRollback s n k).mem = s.mem ∧ (State.fwRollback s n k).harts = s.harts ∧ (State.fwRollback s n k).imsic = s.imsic ∧ (State.fwRollback s n k).eng = s.eng ∧ (State.fwRollback s n k).dm = s.dm ∧ (State.fwRollback s n k).ctu = s.ctu ∧ (State.fwRollback s n k).links = s.links ∧ (State.fwRollback s n k).aplicS = s.aplicS ∧ (State.fwRollback s n k).aplicN = s.aplicN ∧ (State.fwRollback s n k).credits = s.credits ∧ (State.fwRollback s n k).clusters = s.clusters ∧ (State.fwRollback s n k).homes = s.homes ∧ (State.fwRollback s n k).pkts = s.pkts ∧ (State.fwRollback s n k).resp = s.resp ∧ (State.fwRollback s n k).dmg = s.dmg ∧ (State.fwRollback s n k).wq = s.wq ∧ (State.fwRollback s n k).net = s.net ∧ (State.fwRollback s n k).dbInval = s.dbInval ∧ (State.fwRollback s n k).watch = s.watch ∧ (State.fwRollback s n k).pkg = s.pkg ∧ (State.fwRollback s n k).fwLog = s.fwLog ∧ (State.fwRollback s n k).free = s.free ∧ (State.fwRollback s n k).fabric = s.fabric ∧ (State.fwRollback s n k).files = s.files := by
  generalize h : State.fwRollback s n k = u
  unfold State.fwRollback at h
  (try dsimp only at h); (repeat' split at h) <;> rw [← h] <;> simp [kept @State.fwBack_fr, kept @State.logFw7_fr, kept @State.mgmtReply_fr, kept @State.setFw_fr]

theorem execFwRollback_fr (src : MgmtSrc) (msg : Option (List Byte)) (s : State) {u : State} (h : execFwRollback src msg s = .next u) : u.pending = s.pending ∧ u.flash = s.flash ∧ u.coldOpt = s.coldOpt ∧ u.mem = s.mem ∧ u.harts = s.harts ∧ u.imsic = s.imsic ∧ u.eng = s.eng ∧ u.dm = s.dm ∧ u.ctu = s.ctu ∧ u.links = s.links ∧ u.aplicS = s.aplicS ∧ u.aplicN = s.aplicN ∧ u.credits = s.credits ∧ u.clusters = s.clusters ∧ u.homes = s.homes ∧ u.pkts = s.pkts ∧ u.resp = s.resp ∧ u.dmg = s.dmg ∧ u.wq = s.wq ∧ u.net = s.net ∧ u.dbInval = s.dbInval ∧ u.watch = s.watch ∧ u.pkg = s.pkg ∧ u.fwLog = s.fwLog ∧ u.free = s.free ∧ u.fabric = s.fabric ∧ u.files = s.files := by
  unfold execFwRollback at h
  (first | (simp only [Host.Outcome.next.injEq] at h; rw [← h]) | (simp only [reduceCtorEq] at h; done) | (simp only [Option.some.injEq] at h; rw [← h])); simp [kept @State.fwRollback_fr]

theorem execFwStatus_fr (src : MgmtSrc) (msg : Option (List Byte)) (s : State) {u : State} (h : execFwStatus src msg s = .next u) : u.pending = s.pending ∧ u.flash = s.flash ∧ u.coldOpt = s.coldOpt ∧ u.mem = s.mem ∧ u.harts = s.harts ∧ u.mram = s.mram ∧ u.imsic = s.imsic ∧ u.eng = s.eng ∧ u.dm = s.dm ∧ u.ctu = s.ctu ∧ u.links = s.links ∧ u.aplicS = s.aplicS ∧ u.aplicN = s.aplicN ∧ u.credits = s.credits ∧ u.clusters = s.clusters ∧ u.homes = s.homes ∧ u.pkts = s.pkts ∧ u.resp = s.resp ∧ u.dmg = s.dmg ∧ u.wq = s.wq ∧ u.net = s.net ∧ u.dbInval = s.dbInval ∧ u.watch = s.watch ∧ u.pkg = s.pkg ∧ u.fwLog = s.fwLog ∧ u.free = s.free ∧ u.fabric = s.fabric ∧ u.files = s.files := by
  unfold execFwStatus at h
  (first | (simp only [Host.Outcome.next.injEq] at h; rw [← h]) | (simp only [reduceCtorEq] at h; done) | (simp only [Option.some.injEq] at h; rw [← h])); simp [kept @State.mgmtReply_fr]

theorem execDebugSet_fr (src : MgmtSrc) (msg : Option (List Byte)) (s : State) {u : State} (h : execDebugSet src msg s = .next u) : u.pending = s.pending ∧ u.flash = s.flash ∧ u.coldOpt = s.coldOpt ∧ u.mem = s.mem ∧ u.harts = s.harts ∧ u.mram = s.mram ∧ u.imsic = s.imsic ∧ u.eng = s.eng ∧ u.dm = s.dm ∧ u.ctu = s.ctu ∧ u.links = s.links ∧ u.aplicS = s.aplicS ∧ u.aplicN = s.aplicN ∧ u.credits = s.credits ∧ u.clusters = s.clusters ∧ u.homes = s.homes ∧ u.pkts = s.pkts ∧ u.resp = s.resp ∧ u.dmg = s.dmg ∧ u.wq = s.wq ∧ u.net = s.net ∧ u.dbInval = s.dbInval ∧ u.watch = s.watch ∧ u.pkg = s.pkg ∧ u.fwLog = s.fwLog ∧ u.free = s.free ∧ u.fabric = s.fabric ∧ u.files = s.files := by
  unfold execDebugSet at h
  (first | (simp only [Host.Outcome.next.injEq] at h; rw [← h]) | (simp only [reduceCtorEq] at h; done) | (simp only [Option.some.injEq] at h; rw [← h])); simp [kept @State.mgmtReply_fr, kept @State.wr_fr]

end Sys2Proof.Machine
end

