-- ==== Sys2Proof/Laws/Frame/RegCmds.lean ====
section
/-! SUPPORT. What the operations of Machine/RegCmds.lean leave unchanged. -/

set_option Elab.async false
set_option linter.all false

namespace Sys2Proof.Machine
open Sys2Proof

theorem execRegisterWrite_fr (who : Ident) (off : Nat) (size : Nat) (val : Nat) (user : Bool) (s : State) {u : State} (h : execRegisterWrite who off size val user s = .next u) : u.pending = s.pending ∧ u.flash = s.flash ∧ u.coldOpt = s.coldOpt ∧ u.free = s.free := by
  unfold execRegisterWrite at h
  (first | (simp only [Host.Outcome.next.injEq] at h; rw [← h]) | (simp only [reduceCtorEq] at h; done) | (simp only [Option.some.injEq] at h; rw [← h])); simp [kept @State.regStore_fr]

theorem execRwsWrite_fr (who : Ident) (off : Nat) (size : Nat) (val : Nat) (s : State) {u : State} (h : execRwsWrite who off size val s = .next u) : u.pending = s.pending ∧ u.flash = s.flash ∧ u.coldOpt = s.coldOpt ∧ u.free = s.free := by
  unfold execRwsWrite at h
  (try dsimp only at h); (repeat' split at h) <;> (first | (simp only [Host.Outcome.next.injEq] at h; rw [← h]) | (simp only [reduceCtorEq] at h; done) | (simp only [Option.some.injEq] at h; rw [← h])) <;> simp [kept @State.regStore_fr]

theorem execBootGood_fr (who : Ident) (s : State) {u : State} (h : execBootGood who s = .next u) : u.pending = s.pending ∧ u.flash = s.flash ∧ u.coldOpt = s.coldOpt ∧ u.free = s.free := by
  unfold execBootGood at h
  (first | (simp only [Host.Outcome.next.injEq] at h; rw [← h]) | (simp only [reduceCtorEq] at h; done) | (simp only [Option.some.injEq] at h; rw [← h])); simp [kept @State.regStore_fr]

theorem execWatchdogKick_fr (who : Ident) (s : State) {u : State} (h : execWatchdogKick who s = .next u) : u.pending = s.pending ∧ u.flash = s.flash ∧ u.coldOpt = s.coldOpt ∧ u.free = s.free := by
  unfold execWatchdogKick at h
  (first | (simp only [Host.Outcome.next.injEq] at h; rw [← h]) | (simp only [reduceCtorEq] at h; done) | (simp only [Option.some.injEq] at h; rw [← h])); simp [kept @State.regStore_fr]

theorem execStatClear_fr (who : Ident) (t : Fin 64) (s : State) {u : State} (h : execStatClear who t s = .next u) : u.pending = s.pending ∧ u.flash = s.flash ∧ u.coldOpt = s.coldOpt ∧ u.free = s.free := by
  unfold execStatClear at h
  (first | (simp only [Host.Outcome.next.injEq] at h; rw [← h]) | (simp only [reduceCtorEq] at h; done) | (simp only [Option.some.injEq] at h; rw [← h])); simp [kept @State.regStore_fr]

theorem execPmonClear_fr (who : Ident) (s : State) {u : State} (h : execPmonClear who s = .next u) : u.pending = s.pending ∧ u.flash = s.flash ∧ u.coldOpt = s.coldOpt ∧ u.free = s.free := by
  unfold execPmonClear at h
  (first | (simp only [Host.Outcome.next.injEq] at h; rw [← h]) | (simp only [reduceCtorEq] at h; done) | (simp only [Option.some.injEq] at h; rw [← h])); simp [kept @State.regStore_fr]

theorem execPmonFreeze_fr (who : Ident) (on : Bool) (s : State) {u : State} (h : execPmonFreeze who on s = .next u) : u.pending = s.pending ∧ u.flash = s.flash ∧ u.coldOpt = s.coldOpt ∧ u.free = s.free := by
  unfold execPmonFreeze at h
  (first | (simp only [Host.Outcome.next.injEq] at h; rw [← h]) | (simp only [reduceCtorEq] at h; done) | (simp only [Option.some.injEq] at h; rw [← h])); simp [kept @State.regStore_fr]

theorem execSourcecfgWrite_fr (who : Ident) (w : World) (k : Nat) (val : Nat) (s : State) {u : State} (h : execSourcecfgWrite who w k val s = .next u) : u.pending = s.pending ∧ u.flash = s.flash ∧ u.coldOpt = s.coldOpt ∧ u.free = s.free := by
  unfold execSourcecfgWrite at h
  (try dsimp only at h); (repeat' split at h) <;> (first | (simp only [Host.Outcome.next.injEq] at h; rw [← h]) | (simp only [reduceCtorEq] at h; done) | (simp only [Option.some.injEq] at h; rw [← h])) <;> simp [kept @State.regStore_fr]

theorem execMailboxSubmit_fr (who : Ident) (w : World) (len : Nat) (s : State) {u : State} (h : execMailboxSubmit who w len s = .next u) : u.pending = s.pending ∧ u.flash = s.flash ∧ u.coldOpt = s.coldOpt ∧ u.free = s.free := by
  unfold execMailboxSubmit at h
  (first | (simp only [Host.Outcome.next.injEq] at h; rw [← h]) | (simp only [reduceCtorEq] at h; done) | (simp only [Option.some.injEq] at h; rw [← h])); simp [kept @State.regStore_fr]

end Sys2Proof.Machine
end

