-- ==== Sys2Proof/Laws/Frame/Trigger.lean ====
section
/-! SUPPORT. What the operations of Machine/Trigger.lean leave unchanged. -/

set_option Elab.async false
set_option linter.all false

namespace Sys2Proof.Machine
open Sys2Proof



end Sys2Proof.Machine
end

