-- ==== Sys2Proof/Laws/Tab.lean ====
section
/-! SUPPORT. Laws of sparse tables: a read after a write, and that every table operation keeps the canonical form. -/

namespace Sys2Proof.Machine.Tab

variable {α : Type}

@[simp] theorem look_nil (a : Nat) : look ([] : Tab α) a = none := rfl
@[simp] theorem get_nil (d : α) (a : Nat) : get d ([] : Tab α) a = d := rfl

@[simp] theorem look_ins_same (t : Tab α) (a : Nat) (v : α) : look (ins t a v) a = some v := by
  induction t with
  | nil => simp [ins, look]
  | cons e t ih => obtain ⟨k, w⟩ := e; simp only [ins]; (repeat' split) <;> simp_all [look]

theorem look_ins_other (t : Tab α) {a b : Nat} (v : α) (h : b ≠ a) : look (ins t a v) b = look t b := by
  induction t with
  | nil => simp [ins, look, h]
  | cons e t ih => obtain ⟨k, w⟩ := e; simp only [ins]; (repeat' split) <;> simp_all [look]

@[simp] theorem look_del_same (t : Tab α) (a : Nat) : look (del t a) a = none := by
  induction t with
  | nil => rfl
  | cons e t ih => obtain ⟨k, w⟩ := e; simp only [del]; split <;> simp_all [look]

theorem look_del_other (t : Tab α) {a b : Nat} (h : b ≠ a) : look (del t a) b = look t b := by
  induction t with
  | nil => rfl
  | cons e t ih =>
    obtain ⟨k, w⟩ := e
    simp only [del]
    split
    · subst k; simp [look, h, ih]
    · simp only [look, ih]

variable [DecidableEq α]

/-- A read after a write to the same key gives the value written. -/
@[simp] theorem get_put_same (d : α) (t : Tab α) (a : Nat) (v : α) : get d (put d t a v) a = v := by
  unfold get put; split <;> simp_all

/-- A write leaves every other key alone. -/
theorem get_put_other (d e : α) (t : Tab α) {a b : Nat} (v : α) (h : b ≠ a) : get e (put d t a v) b = get e t b := by
  unfold get put; split <;> simp [look_del_other _ h, look_ins_other _ _ h]

theorem get_put (d : α) (t : Tab α) (a b : Nat) (v : α) : get d (put d t a v) b = if b = a then v else get d t b := by
  split
  · subst b; simp
  · rename_i h; exact get_put_other d d t v h

/-! ### The canonical form -/

omit [DecidableEq α] in
theorem risesFrom_mono {b c : Nat} (h : c ≤ b) (t : Tab α) (ht : risesFrom b t = true) : risesFrom c t = true := by
  cases t with
  | nil => rfl
  | cons e t => simp only [risesFrom, Bool.and_eq_true, decide_eq_true_eq] at *; exact ⟨by omega, ht.2⟩

omit [DecidableEq α] in
theorem risesFrom_ins {b a : Nat} (v : α) (t : Tab α) (ht : risesFrom b t = true) (hb : b ≤ a) : risesFrom b (ins t a v) = true := by
  induction t generalizing b with
  | nil => simp [ins, risesFrom, hb]
  | cons e t ih =>
    obtain ⟨k, w⟩ := e
    simp only [risesFrom, Bool.and_eq_true, decide_eq_true_eq] at ht
    simp only [ins]
    (repeat' split) <;> simp only [risesFrom, Bool.and_eq_true, decide_eq_true_eq]
    · exact ⟨hb, by omega, ht.2⟩
    · subst k; exact ⟨hb, ht.2⟩
    · exact ⟨ht.1, ih ht.2 (by omega)⟩

omit [DecidableEq α] in
theorem risesFrom_filter {b : Nat} (p : Nat × α → Bool) (t : Tab α) (ht : risesFrom b t = true) :
    risesFrom b (List.filter p t) = true := by
  induction t generalizing b with
  | nil => rfl
  | cons e t ih =>
    simp only [risesFrom, Bool.and_eq_true, decide_eq_true_eq] at ht
    simp only [List.filter]
    split
    · simp only [risesFrom, Bool.and_eq_true, decide_eq_true_eq]; exact ⟨ht.1, ih ht.2⟩
    · exact risesFrom_mono (by omega) _ (ih ht.2)

omit [DecidableEq α] in
theorem del_eq_filter (t : Tab α) (a : Nat) : del t a = List.filter (fun e => decide (e.1 ≠ a)) t := by
  induction t with
  | nil => rfl
  | cons e t ih => obtain ⟨k, w⟩ := e; simp only [del, List.filter]; split <;> simp_all [eq_comm]

omit [DecidableEq α] in
theorem mem_ins {t : Tab α} {a : Nat} {v : α} {e : Nat × α} (h : e ∈ ins t a v) : e ∈ t ∨ e = (a, v) := by
  induction t with
  | nil => simpa [ins] using h
  | cons f t ih =>
    obtain ⟨k, w⟩ := f
    simp only [ins] at h
    (repeat' split at h) <;> simp only [List.mem_cons] at * <;> tauto

omit [DecidableEq α] in
theorem risesFrom_map {β : Type} {b : Nat} (f : Nat × α → β) (t : Tab α) (ht : risesFrom b t = true) :
    risesFrom b (List.map (fun e => (e.1, f e)) t : Tab β) = true := by
  induction t generalizing b with
  | nil => rfl
  | cons e t ih =>
    simp only [risesFrom, Bool.and_eq_true, decide_eq_true_eq, List.map] at *
    exact ⟨ht.1, ih ht.2⟩

theorem wf_iff {d : α} {t : Tab α} : wf d t = true ↔ risesFrom 0 t = true ∧ ∀ e ∈ t, e.2 ≠ d := by
  simp [wf]

@[simp] theorem wf_nil (d : α) : wf d ([] : Tab α) = true := rfl

/-- Writing keeps the canonical form. -/
theorem wf_put {d : α} {t : Tab α} (a : Nat) (v : α) (h : wf d t = true) : wf d (put d t a v) = true := by
  rw [wf_iff] at *
  unfold put
  split
  · rw [del_eq_filter]
    exact ⟨risesFrom_filter _ _ h.1, fun e he => h.2 e (List.mem_of_mem_filter he)⟩
  · refine ⟨risesFrom_ins v t h.1 (by omega), fun e he => ?_⟩
    rcases mem_ins he with he | rfl
    · exact h.2 e he
    · assumption

/-- Keeping some entries keeps the canonical form. -/
theorem wf_filter {d : α} {t : Tab α} (p : Nat × α → Bool) (h : wf d t = true) : wf d (List.filter p t : Tab α) = true := by
  rw [wf_iff] at *
  exact ⟨risesFrom_filter _ _ h.1, fun e he => h.2 e (List.mem_of_mem_filter he)⟩

theorem wf_keep {d : α} {t : Tab α} (p : Nat → α → Bool) (h : wf d t = true) : wf d (keep p t) = true := wf_filter _ h

theorem wf_del {d : α} {t : Tab α} (a : Nat) (h : wf d t = true) : wf d (del t a) = true := by
  rw [del_eq_filter]; exact wf_filter _ h

/-- Changing every value listed and unlisting the defaults keeps the canonical form. -/
theorem wf_mapD {d : α} {t : Tab α} (f : α → α) (h : wf d t = true) : wf d (mapD d f t) = true := by
  rw [wf_iff] at *
  refine ⟨risesFrom_filter _ _ (risesFrom_map (fun e => f e.2) t h.1), fun e he => ?_⟩
  have he := List.of_mem_filter he
  simpa using he

end Sys2Proof.Machine.Tab
end

