-- ==== Sys2Proof/Laws/Regs.lean ====
section
/-! SUPPORT. Laws of the registers of the window: a read after a write of a register or of a field. -/

namespace Sys2Proof.Machine
open Sys2Proof

@[simp] theorem rdW_wrW_same (s : State) (o : Nat) (v : Word) : (s.wrW o v).rdW o = v := Tab.get_put_same _ _ _ _

theorem rdW_wrW_other (s : State) {o p : Nat} (v : Word) (h : p ≠ o) : (s.wrW o v).rdW p = s.rdW p :=
  Tab.get_put_other _ _ _ v h

theorem rdW_wr_other (s : State) {o p : Nat} (f : Fld) (v : Nat) (h : p ≠ o) : (s.wr o f v).rdW p = s.rdW p :=
  rdW_wrW_other s _ h

theorem rd_wr_other (s : State) {o p : Nat} (f g : Fld) (v : Nat) (h : p ≠ o) : (s.wr o f v).rd p g = s.rd p g := by
  unfold State.rd; rw [rdW_wr_other s f v h]

/-- Registers that agree read alike. -/
theorem rdW_congr {s t : State} (h : t.regs = s.regs) (o : Nat) : t.rdW o = s.rdW o := by unfold State.rdW; rw [h]

theorem rd_congr {s t : State} (h : t.regs = s.regs) (o : Nat) (f : Fld) : t.rd o f = s.rd o f := by
  unfold State.rd; rw [rdW_congr h]

theorem mode_congr {s t : State} (h : t.regs = s.regs) : t.mode = s.mode := rd_congr h _ _

theorem testBit_setBits (v hi lo x i : Nat) (h : lo ≤ hi) :
    (setBits v hi lo x).testBit i = if lo ≤ i ∧ i ≤ hi then x.testBit (i - lo) else v.testBit i := by
  have hx : x % 2 ^ (hi + 1 - lo) < 2 ^ (hi + 1 - lo) := Nat.mod_lt _ (by positivity)
  have h1 : (x % 2 ^ (hi + 1 - lo)) <<< lo < 2 ^ (hi + 1) := by
    rw [Nat.shiftLeft_eq]
    calc _ < 2 ^ (hi + 1 - lo) * 2 ^ lo := by exact (Nat.mul_lt_mul_right (by positivity)).2 hx
      _ = _ := by rw [← pow_add]; congr 1; omega
  have h2 : v % 2 ^ lo < 2 ^ lo := Nat.mod_lt _ (by positivity)
  unfold setBits
  dsimp only
  have e1 : v >>> (hi + 1) <<< (hi + 1) + (x % 2 ^ (hi + 1 - lo)) <<< lo = v >>> (hi + 1) <<< (hi + 1) ||| (x % 2 ^ (hi + 1 - lo)) <<< lo := by
    rw [Nat.shiftLeft_add_eq_or_of_lt h1]
  have e2 : v >>> (hi + 1) <<< (hi + 1) + (x % 2 ^ (hi + 1 - lo)) <<< lo + v % 2 ^ lo =
      (v >>> (hi + 1) <<< (hi + 1) + (x % 2 ^ (hi + 1 - lo)) <<< lo) ||| v % 2 ^ lo := by
    have : v >>> (hi + 1) <<< (hi + 1) + (x % 2 ^ (hi + 1 - lo)) <<< lo =
        ((v >>> (hi + 1) <<< (hi + 1 - lo)) + (x % 2 ^ (hi + 1 - lo))) <<< lo := by
      simp only [Nat.shiftLeft_eq, Nat.add_mul]
      congr 1
      rw [Nat.mul_assoc, ← pow_add]
      congr 2
      omega
    rw [this, Nat.shiftLeft_add_eq_or_of_lt h2]
  rw [e2, e1]
  simp only [Nat.testBit_or, Nat.testBit_shiftLeft, Nat.testBit_shiftRight, Nat.testBit_mod_two_pow]
  by_cases c1 : lo ≤ i
  · by_cases c2 : i ≤ hi
    · have : ¬ (hi + 1 ≤ i) := by omega
      have : ¬ (i < lo) := by omega
      have : i - lo < hi + 1 - lo := by omega
      simp [*]
    · have : hi + 1 ≤ i := by omega
      have : ¬ (i < lo) := by omega
      have : ¬ (i - lo < hi + 1 - lo) := by omega
      have e : hi + 1 + (i - (hi + 1)) = i := by omega
      simp [*]
  · have : ¬ (hi + 1 ≤ i) := by omega
    have : i < lo := by omega
    simp [*]

theorem testBit_bitsOf (v hi lo i : Nat) : (bitsOf v hi lo).testBit i = (decide (i < hi + 1 - lo) && v.testBit (lo + i)) := by
  simp [bitsOf, Nat.testBit_mod_two_pow, Nat.testBit_shiftRight]

theorem testBit_wr (s : State) (o : Nat) (f : Fld) (v i : Nat) (h : f.lo ≤ f.hi) :
    ((s.wr o f v).rdW o).toNat.testBit i =
      (decide (i < 64) && if f.lo ≤ i ∧ i ≤ f.hi then v.testBit (i - f.lo) else (s.rdW o).toNat.testBit i) := by
  simp only [State.wr, rdW_wrW_same, BitVec.toNat_ofNat, Nat.testBit_mod_two_pow, testBit_setBits _ _ _ _ _ h]

/-- A field written reads as the low bits of what was written. -/
theorem rd_wr_same (s : State) (o : Nat) (f : Fld) (v : Nat) (h : f.lo ≤ f.hi) (h' : f.hi < 64) :
    (s.wr o f v).rd o f = v % 2 ^ (f.hi + 1 - f.lo) := by
  apply Nat.eq_of_testBit_eq
  intro i
  rw [State.rd, testBit_bitsOf, testBit_wr _ _ _ _ _ h, Nat.testBit_mod_two_pow]
  by_cases c : i < f.hi + 1 - f.lo
  · have : f.lo + i < 64 := by omega
    have : f.lo + i ≤ f.hi := by omega
    simp [*]
  · simp [c]

/-- A field apart from the one written keeps its value. -/
theorem rd_wr_apart (s : State) (o : Nat) (f g : Fld) (v : Nat) (h : f.lo ≤ f.hi) (d : g.hi < f.lo ∨ f.hi < g.lo) :
    (s.wr o f v).rd o g = s.rd o g := by
  apply Nat.eq_of_testBit_eq
  intro i
  rw [State.rd, State.rd, testBit_bitsOf, testBit_bitsOf, testBit_wr _ _ _ _ _ h]
  by_cases c : i < g.hi + 1 - g.lo
  · have : ¬ (f.lo ≤ g.lo + i ∧ g.lo + i ≤ f.hi) := by omega
    have e : ∀ j, 64 ≤ j → (s.rdW o).toNat.testBit j = false := fun j hj =>
      Nat.testBit_eq_false_of_lt (lt_of_lt_of_le (s.rdW o).isLt (Nat.pow_le_pow_right (by decide) hj))
    by_cases k : g.lo + i < 64
    · simp [*]
    · simp [*, e (g.lo + i) (by omega)]
  · simp [c]

/-- The general form: a field of a register after a write of a field. -/
theorem rd_wr (s : State) (o p : Nat) (f g : Fld) (v : Nat) (h : f.lo ≤ f.hi) (d : o = p → g.hi < f.lo ∨ f.hi < g.lo) :
    (s.wr o f v).rd p g = s.rd p g := by
  by_cases e : p = o
  · subst e; exact rd_wr_apart s p f g v h (d rfl)
  · exact rd_wr_other s f g v e

/-- A write of a table of bytes is one write after another. -/
theorem putRun_wf (m : Tab Byte) (a : Nat) (l : List Byte) (h : Tab.wf 0 m = true) : Tab.wf 0 (putRun m a l) = true := by
  induction l generalizing m a with
  | nil => exact h
  | cons b t ih => exact ih _ _ (Tab.wf_put _ _ h)

/-- What a write of bytes leaves at an address outside them. -/
theorem get_putRun_other (m : Tab Byte) (a : Nat) (l : List Byte) {b : Nat} (h : b < a ∨ a + l.length ≤ b) :
    Tab.get 0 (putRun m a l) b = Tab.get 0 m b := by
  induction l generalizing m a with
  | nil => rfl
  | cons c t ih =>
    simp only [putRun]
    rw [ih _ _ (by simp only [List.length_cons] at h; omega), Tab.get_put_other]
    simp only [List.length_cons] at h; omega

end Sys2Proof.Machine
end

