-- ==== Sys2Proof/Laws/Memory.lean ====
section
/-! SUPPORT. Every operation on memory, MRAM and flash keeps the canonical form. -/

namespace Sys2Proof.Machine
open Sys2Proof

theorem putBytes_wf (m : Tab Byte) (a : Nat) (l : List Byte) (h : Tab.wf 0 m = true) : Tab.wf 0 (putBytes m a l) = true := by
  induction l generalizing m a with
  | nil => exact h
  | cons b t ih => exact ih _ _ (Tab.wf_put _ _ h)

theorem setBytes_memoryWf (s : State) (pa : Nat) (l : List Byte) (h : s.memoryWf = true) : (s.setBytes pa l).memoryWf = true := by
  simp only [State.memoryWf, State.setBytes, Bool.and_eq_true] at h ⊢
  exact ⟨⟨putBytes_wf _ _ _ h.1.1, h.1.2⟩, h.2⟩

theorem setMram_memoryWf (s : State) (off : Nat) (l : List Byte) (h : s.memoryWf = true) : (s.setMram off l).memoryWf = true := by
  simp only [State.memoryWf, State.setMram, Bool.and_eq_true] at h ⊢
  exact ⟨⟨h.1.1, putRun_wf _ _ _ h.1.2⟩, h.2⟩

theorem keepMem_memoryWf (s : State) (p : Nat → Byte → Bool) (h : s.memoryWf = true) :
    ({ s with mem := s.mem.keep p } : State).memoryWf = true := by
  simp only [State.memoryWf, Bool.and_eq_true] at h ⊢
  exact ⟨⟨Tab.wf_keep _ h.1.1, h.1.2⟩, h.2⟩

theorem keepMram_memoryWf (s : State) (p : Nat → Byte → Bool) (h : s.memoryWf = true) :
    ({ s with mram := s.mram.keep p } : State).memoryWf = true := by
  simp only [State.memoryWf, Bool.and_eq_true] at h ⊢
  exact ⟨⟨h.1.1, Tab.wf_keep _ h.1.2⟩, h.2⟩

theorem foldFlash_wf (f : Tab Byte) (base : Nat) (l : List (Byte × Nat)) (h : Tab.wf erased f = true) :
    Tab.wf erased (l.foldl (fun g e => Tab.put erased g (base + e.2) e.1) f) = true := by
  induction l generalizing f with
  | nil => exact h
  | cons b t ih => exact ih _ (Tab.wf_put _ _ h)

/-- States with the same three memories agree on the canonical form. -/
theorem memoryWf_congr {s t : State} (h : t.mem = s.mem) (h' : t.mram = s.mram) (h'' : t.flash = s.flash) :
    t.memoryWf = s.memoryWf := by
  simp only [State.memoryWf, h, h', h'']

end Sys2Proof.Machine
end

