-- ==== Sys2Proof/Laws/RegTable.lean ====
section
/-! SUPPORT. Looking a register up in the table of the window where its offset is no numeral: RING_DB, of 4,096 instances. -/

namespace Sys2Proof.Machine
open Sys2Proof

/-- A register covers no offset beyond its last instance. -/
theorem regHits_le {r : RegDef} {off : Nat} (h : r.hits off = true) :
    off ≤ r.base + (r.n1 - 1) * r.s1 + (r.n2 - 1) * r.s2 := by
  simp only [RegDef.hits, Bool.and_eq_true, decide_eq_true_eq] at h
  obtain ⟨h0, ⟨h1, h2⟩, h3⟩ := h
  have e1 := Nat.div_add_mod (off - r.base) r.s1
  have e2 := Nat.div_add_mod ((off - r.base) % r.s1) r.s2
  have m1 : r.s1 * ((off - r.base) / r.s1) ≤ (r.n1 - 1) * r.s1 := by
    rw [Nat.mul_comm]; exact Nat.mul_le_mul_right _ (by omega)
  have m2 : r.s2 * ((off - r.base) % r.s1 / r.s2) ≤ (r.n2 - 1) * r.s2 := by
    rw [Nat.mul_comm]; exact Nat.mul_le_mul_right _ (by omega)
  omega

/-- Looking a register up in the table: a step of the search. -/
theorem regFind_skip {l : List RegDef} {off b : Nat} (m : List RegDef) (hb : b ≤ off)
    (h : l.all (fun r => decide (r.base + (r.n1 - 1) * r.s1 + (r.n2 - 1) * r.s2 < b)) = true) :
    (l ++ m).find? (·.hits off) = m.find? (·.hits off) := by
  rw [List.find?_append, List.find?_eq_none.2, Option.none_or]
  intro r hr c
  have := regHits_le c
  have := List.all_eq_true.1 h r hr
  simp only [decide_eq_true_eq] at this
  omega

/-- Looking a register up in the table: a step of the search. -/
theorem regFind_neg {r : RegDef} {off : Nat} (l : List RegDef) (h : r.hits off = false) :
    (r :: l).find? (·.hits off) = l.find? (·.hits off) := by simp only [List.find?, h]

/-- Looking a register up in the table: a step of the search. -/
theorem regFind_pos {r : RegDef} {off : Nat} (l : List RegDef) (h : r.hits off = true) :
    (r :: l).find? (·.hits off) = some r := by simp only [List.find?, h]

/-- The register at an offset of RING_DB. -/
theorem ring_db_at (n : Nat) (h : n < 4096) : regAt (Reg.RING_DB n) = regsRING[3]? := by
  have hb : 0x40200000 ≤ 0x40200018 + 0x40 * n := by omega
  have no : ∀ (b : Nat) (l : List FieldDef), b = 0x40200000 ∨ b = 0x40200008 ∨ b = 0x40200010 →
      RegDef.hits ⟨b, 4096, 0x40, 1, 0x100000000, l⟩ (0x40200018 + 0x40 * n) = false := by
    intro b l hb
    have : ¬ ((0x40200018 + 0x40 * n - b) % 0x40 % 0x100000000 = 0) := by omega
    simp only [RegDef.hits, this, decide_false, Bool.and_false]
  have yes : ∀ l : List FieldDef, RegDef.hits ⟨0x40200018, 4096, 0x40, 1, 0x100000000, l⟩ (0x40200018 + 0x40 * n) = true := by
    intro l
    have c1 : (0x40200018 + 0x40 * n - 0x40200018) / 0x40 < 4096 := by omega
    have c2 : (0x40200018 + 0x40 * n - 0x40200018) % 0x40 / 0x100000000 < 1 := by omega
    have c3 : (0x40200018 + 0x40 * n - 0x40200018) % 0x40 % 0x100000000 = 0 := by omega
    have c4 : 0x40200018 ≤ 0x40200018 + 0x40 * n := by omega
    simp only [RegDef.hits, c1, c2, c3, c4, decide_true, Bool.and_true]
  have f : (regsPKG ++ regsCTU ++ regsRCC ++ regsPWR ++ regsEVT ++ regsPKB ++ regsRTR ++ regsL3 ++ regsSTP ++ regsMCH ++
      regsPRT ++ regsSLC ++ regsRMG ++ regsCTX ++ regsRING).find? (·.hits (Reg.RING_DB n)) = regsRING[3]? := by
    rw [regFind_skip (b := 0x40200000) _ hb (by decide +kernel)]
    exact (regFind_neg _ (no 0x40200000 _ (.inl rfl))).trans ((regFind_neg _ (no 0x40200008 _ (.inr (.inl rfl)))).trans
      ((regFind_neg _ (no 0x40200010 _ (.inr (.inr rfl)))).trans (regFind_pos _ (yes _))))
  unfold regAt regTable
  rw [List.find?_append, List.find?_append, List.find?_append, List.find?_append, List.find?_append, List.find?_append,
    List.find?_append, List.find?_append, List.find?_append, List.find?_append, List.find?_append, f]
  rfl

/-- RING_DB resets to 0. -/
theorem ring_db_reset (n : Nat) (h : n < 4096) : resetWord (Reg.RING_DB n) = 0 := by
  unfold resetWord
  rw [ring_db_at n h]
  have h1 : ¬ (0x40200018 + 0x40 * n < 0x14000000) := by omega
  have h2 : ¬ (0x40200018 + 0x40 * n < 0x400) := by omega
  have h3 : ¬ (0x40200018 + 0x40 * n < 0x4600048) := by omega
  simp only [Reg.RING_DB, h1, h2, h3, decide_false, Bool.and_false, Bool.false_and, Bool.false_eq_true, if_false]
  decide +kernel

/-- Where no doorbell register is listed, no ring pair watches a line. -/
theorem no_rings (s : State) (h : s.regs.all (fun e => decide (e.1 < 0x40200018) || decide (0x40240018 ≤ e.1)) = true) (ln : Nat) :
    s.ringsOn ln = [] := by
  unfold State.ringsOn below
  rw [List.filter_eq_nil_iff]
  intro n hn
  have hn := List.mem_range.1 hn
  have z : s.rdW (Reg.RING_DB n) = 0 := by
    unfold State.rdW Tab.get
    have f : ∀ l : Tab Word, l.all (fun e => decide (e.1 < 0x40200018) || decide (0x40240018 ≤ e.1)) = true →
        Tab.look l (Reg.RING_DB n) = none := by
      intro l
      induction l with
      | nil => intro _; rfl
      | cons e l ih =>
        intro hl
        rw [List.all_cons, Bool.and_eq_true, Bool.or_eq_true, decide_eq_true_eq, decide_eq_true_eq] at hl
        have ne : ¬ (Reg.RING_DB n = e.1) := by simp only [Reg.RING_DB]; omega
        obtain ⟨k, v⟩ := e
        unfold Tab.look
        simp [ne, ih hl.2]
    rw [f _ h]
    exact ring_db_reset n hn
  simp only [z, bne_self_eq_false, Bool.false_and, Bool.false_eq_true, not_false_eq_true]

end Sys2Proof.Machine
end

