-- ==== Sys2Proof/Laws/State.lean ====
section
/-! SUPPORT. Reading back a part of the state that was just replaced: harts, clusters, homes, links, channels, ports, slices,
APLICs and interrupt files. (That a replacement leaves every other field alone is in Laws/Frame; registers are in Laws/Regs.lean.) -/

namespace Sys2Proof.Machine
open Sys2Proof

@[simp] theorem State.hart_setHart_same (s : State) (h : Nat) (x : Hart) : (s.setHart h x).hart h = x := Tab.get_put_same _ _ _ _
theorem State.hart_setHart_other (s : State) {h k : Nat} (x : Hart) (n : k ≠ h) : (s.setHart h x).hart k = s.hart k :=
  Tab.get_put_other _ _ _ _ n

@[simp] theorem State.cluster_setCluster_same (s : State) (c : Nat) (x : Cluster) : (s.setCluster c x).cluster c = x :=
  Tab.get_put_same _ _ _ _
theorem State.cluster_setCluster_other (s : State) {c k : Nat} (x : Cluster) (n : k ≠ c) :
    (s.setCluster c x).cluster k = s.cluster k := Tab.get_put_other _ _ _ _ n

@[simp] theorem State.home_setHome_same (s : State) (t : Nat) (x : Home) : (s.setHome t x).home t = x := Tab.get_put_same _ _ _ _
theorem State.home_setHome_other (s : State) {t k : Nat} (x : Home) (n : k ≠ t) : (s.setHome t x).home k = s.home k :=
  Tab.get_put_other _ _ _ _ n

@[simp] theorem State.link_setLink_same (s : State) (j : Nat) (x : Link) : (s.setLink j x).link j = x := Tab.get_put_same _ _ _ _
theorem State.link_setLink_other (s : State) {j k : Nat} (x : Link) (n : k ≠ j) : (s.setLink j x).link k = s.link k :=
  Tab.get_put_other _ _ _ _ n

@[simp] theorem State.chan_setChan_same (s : State) (c : Nat) (x : DmCh) : (s.setChan c x).chan c = x := Tab.get_put_same _ _ _ _
theorem State.chan_setChan_other (s : State) {c k : Nat} (x : DmCh) (n : k ≠ c) : (s.setChan c x).chan k = s.chan k :=
  Tab.get_put_other _ _ _ _ n

@[simp] theorem State.port_setPort_same (s : State) (p : Nat) (x : FxPort) : (s.setPort p x).port p = x := Tab.get_put_same _ _ _ _
theorem State.port_setPort_other (s : State) {p k : Nat} (x : FxPort) (n : k ≠ p) : (s.setPort p x).port k = s.port k :=
  Tab.get_put_other _ _ _ _ n

@[simp] theorem State.slice_setSlice_same (s : State) (n : Nat) (x : Slice) : (s.setSlice n x).slice n = x :=
  Tab.get_put_same _ _ _ _
theorem State.slice_setSlice_other (s : State) {n k : Nat} (x : Slice) (d : k ≠ n) : (s.setSlice n x).slice k = s.slice k :=
  Tab.get_put_other _ _ _ _ d

@[simp] theorem State.aplic_setAplic_same (s : State) (w : World) (a : Aplic) : (s.setAplic w a).aplic w = a := by cases w <;> rfl
theorem State.aplic_setAplic_other (s : State) {v w : World} (a : Aplic) (n : v ≠ w) : (s.setAplic w a).aplic v = s.aplic v := by
  cases v <;> cases w <;> first | rfl | exact absurd rfl n
@[simp] theorem State.fabric_fab (s : State) (f : Fabric → Fabric) : (s.fab f).fabric = f s.fabric := rfl
@[simp] theorem Aplic.get_put_same (a : Aplic) (k : Nat) (x : AplicSrc) : (a.put k x).get k = x := Tab.get_put_same _ _ _ _

@[simp] theorem State.fileCtl_setFile_same (s : State) (f : Nat) (x : FileCtl) : (s.setFile f x).fileCtl f = x :=
  Tab.get_put_same _ _ _ _
theorem State.fileCtl_setFile_other (s : State) {f k : Nat} (x : FileCtl) (n : k ≠ f) : (s.setFile f x).fileCtl k = s.fileCtl k :=
  Tab.get_put_other _ _ _ _ n

end Sys2Proof.Machine
end

