-- ==== Sys2Proof/Tests/Slice0.lean ====
section
/-! SUPPORT. Tests of the model, and states that meet the hypotheses of the statements. -/

namespace Sys2Proof.Tests
set_option Elab.async false
set_option maxRecDepth 4000
open Sys2Proof Sys2Proof.Machine

/-- The state after reset. -/
abbrev R : State := State.reset

/-- The state after reset, in a mode. -/
abbrev inMode (m : Nat) : State := R.wr Reg.PKG_MODE F.PKG_MODE_CURRENT m

/-- The state after reset with one command waiting. -/
abbrev q1 : State := { R with pending := [.standbyRailsGood] }

/-- DRAM of 8 TiB, all of it one region that partition 63 of the normal world may read and write. -/
abbrev ram : State :=
  (((R.wrW Reg.MEM_MAP 0x80000000000).wrW (Reg.FW_BASE 0) 0x8000000000000000).wrW (Reg.FW_LIMIT 0) 0x7FFFFFF0000).wrW
    (Reg.FW_ATTR 0) 0x1FE0000000000000

/-- Partition 63 of the normal world. -/
abbrev p63 : Ident := ⟨63, .n⟩

/-- The last line of DRAM. -/
abbrev top : Nat := 2 ^ 36 - 1

/-- A line of zeros. -/
abbrev d0 : LineData := ⟨List.replicate 128 0, false⟩

/-- The state after reset with one message in flight. -/
abbrev flight (k : MKind) (home agent : Nat) : State := { R with net := [⟨k, top, home, agent, d0, p63, 0⟩] }

/-- A transaction of a home that waits for two agents. -/
abbrev tx (a : Nat) (k : ReqKind) (m : Bool) : HTxn := ⟨⟨k, top, 100, p63, false, [], 0⟩, [a, 0], none, [], [], [], m, false, 0, none, false⟩

/-- An access of a hart under way. -/
abbrev acc (pa : Nat) (w : Option (List Byte)) : IoAccess := ⟨pa, 8, w, 31, true, pa, 4⟩

/-- A state with a hart in reset but for an access under way. -/
abbrev withIo (s : State) (h pa : Nat) (w : Option (List Byte)) : State := s.setHart h { Hart.reset with io := some (acc pa w) }

/-- A state with a link in service that is assigned to partition 63 of the normal world. -/
abbrev lnk (s : State) (j : Nat) : State :=
  (s.setLink j { Link.off with up := true }).wrW (Reg.ISO_LNK_CFG j) 0xBF00000000000000

/-- A number as an operator word. -/
abbrev opw (opc opt a0 a1 a2 a3 a4 a5 : Nat) : List Byte :=
  leBytes 16 (opc * 2 ^ 120 + opt * 2 ^ 112 + a0 * 2 ^ 96 + a1 * 2 ^ 80 + a2 * 2 ^ 64 + a3 * 2 ^ 48 + a4 * 2 ^ 32 + a5)

/-- The bytes of an image of one pipeline of three operators, no program and a pool of 128 bytes. Registers 0 and 1 have
the types given; the other registers are BOOL. -/
abbrev img1 (a b c : List Byte) (t0 t1 : Nat) (pool cols outs : List Byte) : List Byte :=
  fitB 128 ([0, 0, 0, 0, 0, 1, 0, 1] ++ leBytes 8 0 ++ leBytes 4 128 ++ leBytes 4 336 ++ leBytes 4 128 ++ leBytes 4 464 ++
    leBytes 4 528 ++ [1, 1]) ++
  fitB 32 (leBytes 4 160 ++ [3, 0, 0, 0] ++ leBytes 4 0 ++ leBytes 4 208) ++ a ++ b ++ c ++
  fitB 128 ([BitVec.ofNat 8 t0, 0, 0, 0, BitVec.ofNat 8 t1, 0, 0, 0]) ++ fitB 128 pool ++ fitB 64 cols ++ fitB 64 outs

/-- The last context: partition 63 of the normal world, translation set 255, slice 35. -/
abbrev ctx1 (s : State) : State := (s.wrW (Reg.CTX_CFG 4095) 0xBFFF240000000000).wrW (Reg.CTX_SLICES 4095) 0x800000000

/-- A descriptor of the last ring pair and context, from its first bytes. -/
abbrev dsc (b : List Byte) : Desc :=
  { ring := 4095, seq := 7, ord := 0, ctx := 4095, bytes := fitB 128 b, begun := false, ready := true, fail := none, done := false,
    r0 := 0, r1 := 0, tag := 0, load := none, slot := none, run := none, targets := [], inp := [], outp := [], poison := false,
    stall := none }

/-- A run of the image in the last store slot. -/
abbrev run1 (cols outs : List (List Byte)) : Run :=
  { slot := 255, mask := 1, cols := cols, outs := outs, inBase := 0, inBytes := 1, outBase := 0, outBytes := 128, pipes := [],
    groups := [], heaps := [], inl := 0, rows := 0, partly := false, chunks := [], anchors := [], l0 := [],
    dests := [(1, [35])], xspill := [] }

/-- A page that reads and writes at physical address 0, in the last translation set. -/
abbrev ete0 : ETE := (ETE.mk 255 0 0 true true 0 false).stored

/-- Slice 35 with a task, the page mapped. -/
abbrev slc1 (x : Task) : Slice := { Slice.reset with task := some x, tlb := [(0, ete0)] }

/-- A state with a descriptor. -/
abbrev withDesc (d : Desc) : State := { ctx1 ram with eng := { Eng.reset with descs := [d], etlb := [(0, ete0)] } }

/-- A run under way of an image, with a task on slice 35. -/
abbrev atRun (im : List Byte) (r : Run) (x : Task) : State :=
  { ctx1 ram with eng := { Eng.reset with
      slices := [(35, slc1 x)], images := [(255, some ⟨4095, 0, im, true⟩)], etlb := [(0, ete0)],
      descs := [{ dsc [1] with begun := true, slot := some 255, run := some r }] } }

/-- The task of that run, with one row in its operators that stands before operator 1. -/
abbrev rowTask (b : Batch) : Task := { Task.start 9 4095 7 4095 0 (.unit 0) with oper := 1, batch := some b }

/-- A batch of one selected row whose register 0 and 1 hold a value. -/
abbrev row1 (v : Nat) : Batch := ⟨[2 ^ 48 - 1], [true], [(0, [Cell.of v]), (1, [Cell.of v])]⟩

/-- What operator `k` of that run sees. -/
abbrev seen (im : List Byte) (r : Run) (k : Nat) : OpCtx :=
  ⟨{ dsc [1] with begun := true, slot := some 255, run := some r }, r, imgOf im, nthD (imgOf im).pipes 0 PipeI.none,
    opWOf im (160 + 16 * k)⟩

/-- A valid image of 512 bytes: INLINE_IN of one I64 register, EMIT_INLINE of it, END. -/
abbrev imgV : List Byte :=
  fitB 512 (fitB 128 (leBytes 4 0x494E4C42 ++ [1, 0, 0, 1] ++ leBytes 4 512 ++ leBytes 4 2253229626 ++ leBytes 4 128 ++
      leBytes 4 336 ++ leBytes 4 16) ++
    fitB 32 (leBytes 4 160 ++ [3, 0, 0, 0] ++ leBytes 4 0 ++ leBytes 4 208) ++
    opw 4 0 0 1 0 0 0 0 ++ opw 0x42 0 2 1 0 0 0 1 ++ opw 0x4F 0 0 0 0 0 0 0 ++ fitB 128 [5])

/-- The task of the run before its input operator. -/
abbrev inTask : Task := Task.start 9 4095 7 4095 0 (.unit 0)

/-- A PROBE at work on that batch, one row's probe not ended. -/
abbrev pr1 : ProbeSt := ⟨1, row1 1, [], [0], [], 0⟩

/-- DRAM, with data-mover channel 31 of partition 63 running a program at address 0, its next instruction a word of 128
bits. -/
abbrev dma (w : Nat) : State :=
  (((ram.wrW (Reg.DM_CFG 31) 0xBF00000000000000).wr (Reg.DM_STATUS 31) F.DM_STATUS_STATE 2).setChan 31
    { DmCh.reset with prog := some 0 }).setBytes 0 (leBytes 16 w)

/-- That state with the channel changed. -/
abbrev dmaWith (w : Nat) (f : DmCh → DmCh) : State := (dma w).setChan 31 (f ((dma w).chan 31))

/-- An open column of one row. -/
abbrev col1 : EncCol :=
  ⟨0, ⟨2, .i64, 0, 0, 0, 0, 0, 0, 1, 0, 0, 0⟩, ⟨1, .i64, 0, 0, 0, 0, 0, 65536, 0, 0, 0, 0⟩, 0, 0, 0, 0, 0, 0, [], [], [], false, false, [], []⟩

/-- A flit with a header word and packet bytes. -/
abbrev flit1 (w : Nat) (p : List Byte) : List Byte :=
  let b := fitB 252 (leBytes 4 w ++ p)
  b ++ leBytes 4 (crc32c b)

/-- A packet of a type for the last ring pair. -/
abbrev pkt (type seq window : Nat) (payload : List Byte) : FxPkt := ⟨type, 0, 4095, seq, window, 0, 0, 0, payload⟩

/-- Finxis port 3 in a training state. -/
abbrev fx1 (st : Nat) (x : FxPort) : State := ((inMode 4).wr (Reg.FX_STATUS 3) F.FX_STATUS_STATE st).setPort 3 x

/-- Finxis port 3 ACTIVE, owner of the last ring pair, with a packet received and credits of every lane. -/
abbrev fxGot (k : FxPkt) (x : FxPort) : State :=
  ((fx1 5 { x with rx := [k], credits := [(0, 1), (1, 1), (2, 1)], lim := 64 }).wrs (Reg.RING_CFG 4095)
    [(F.RING_CFG_ATTACH, 4), (F.RING_CFG_VALID, 1)]).pk (fun p => { p with held := [] })

/-- A completion window of the last ring pair. -/
abbrev cqw : FxWin := ⟨4095, 1, 256, false⟩

/-- That port, its ring pair fetching from sequence number 7 for a context in use. -/
abbrev fxRuns (s : State) : State :=
  ((s.wrW (Reg.CTX_CFG 0) 0x8000000000000000).wr (Reg.RING_HEAD 4095) F.RING_HEAD_SQ_HEAD 7).wr (Reg.RING_STATUS 4095)
    F.RING_STATUS_STATE 1

/-- A hart out of reset, in M-mode. -/
abbrev hx : Hart := { Hart.reset with held := false }

/-- DRAM and the last hart. -/
abbrev atH (x : Hart) : State := ram.setHart 215 x

/-- The last hart with the last line of DRAM modified in its caches. -/
abbrev atL (x : Hart) : State :=
  (atH x).setCluster 35 { Cluster.empty.l1Use 5 top with l2 := [(0, ⟨top, .m, 2, d0, monitor⟩)] }

/-- The last doubleword of DRAM. -/
abbrev lastW : Nat := 2 ^ 43 - 8

/-- The management controller runs in MAINLINE. -/
abbrev pmcOn : State := (inMode 4).pk (fun p => { p with held := [] })

/-- A management request. -/
abbrev mgq (cmd : Nat) (b : List Byte) : List Byte := [BitVec.ofNat 8 cmd, 0] ++ leBytes 2 b.length ++ leBytes 12 0 ++ b

/-- The management controller holds a request of the sideband, and sessions of the two image kinds. -/
abbrev mgs (s : State) (cmd : Nat) (b : List Byte) (fw : Tab (Option FwSess)) : State :=
  { s with pmc := { s.pmc with req := [(2, mgq cmd b)], fw := fw, rom := false } }

/-- A flit from T52 to T00. -/
abbrev toS00 : Flit := ⟨0, 0, 0, 0, true, 0, 0, 0, 0, 0, p63, false, 0, 0, 0, 52, 0, List.replicate 128 0⟩

/-- Main supplies up, every clock but the dies' good. -/
abbrev clocked (s : State) : State :=
  (s.wrs Reg.RCC_CLK_STATUS [(F.RCC_CLK_STATUS_PLL_LOCK, 1), (F.RCC_CLK_STATUS_FCLK_GOOD, 1), (F.RCC_CLK_STATUS_SCLK_GOOD, 1),
    (F.RCC_CLK_STATUS_ECLK_GOOD, 1), (F.RCC_CLK_STATUS_MCLK_GOOD, 1)]).pk (fun p => { p with supplies := true })

/-- A die at the last site, its clock good. -/
abbrev lastDie (s : State) : State :=
  ((clocked s).wr (Reg.RCC_CCLK 11) F.RCC_CCLK_GOOD 1).pk (fun p => { p with dies := [(11, some ⟨11, 3, 1⟩)] })

/-- Every die active. -/
abbrev active (s : State) : State := s.wrW Reg.PKG_DIE_ACTIVE 0xFFF

/-- The invasive enables of both worlds in force. -/
abbrev invaded (s : State) : State := s.wrs Reg.ISO_DBG [(F.ISO_DBG_S_INV, 1), (F.ISO_DBG_N_INV, 1)]

/-- A one-flit packet from T58 to T61, which leaves its source eastwards. -/
abbrev flX : Flit := ⟨0, 0, 0, 0, true, 0, 3, 14, 0, 0x41, p63, false, 0, 0, 2, 58, 61, List.replicate 128 0⟩

/-- That flit at T59, where it has come eastwards; its link has failed `n` times in a row. -/
abbrev atT59 (n : Nat) : State := { R with fabric := { Fabric.reset with bufs := [(bufKey 59 0 2 0, [flX])], fails := [(4 * 58, n)] } }

/-- A message in flight about the last line. -/
abbrev msg (k : MKind) (home agent : Nat) : Msg := ⟨k, top, home, agent, d0, p63, 0⟩

/-- The last cluster with the last line modified. -/
abbrev has35 (s : State) : State := s.setCluster 35 { Cluster.empty with l2 := [(0, ⟨top, .m, 0, d0, p63⟩)] }

/-- DRAM and the last link in service, in MAINLINE. -/
abbrev dmaUp : State := lnk (ram.wr Reg.PKG_MODE F.PKG_MODE_CURRENT 4) 111

/-- The first bytes of a RUN_PIPELINE of pipeline 0. -/
abbrev runB : List Byte := [1, 0, 0, 0, 0, 0, 0, 0, 0, 0, 0, 0, 0, 0, 0, 0, 0, 0, 0, 0, 1]

/-- An image that hashes the string in register 0. -/
abbrev imgStr : List Byte := img1 (opw 1 0 0 1 0 0 0 0) (opw 0x20 0 0 1 1 0 0 0) (opw 0x4F 0 0 0 0 0 0 0) 17 9 [] [] []

/-- One row whose register 0 holds a string of 70 bytes in the heap at address 0. -/
abbrev rowStr : Batch := ⟨[0], [true], [(0, [Cell.of 70])]⟩

/-- A state with the image of one pipeline that emits nothing, and a RUN_PIPELINE of it. -/
abbrev runReady : State :=
  let s := withDesc { dsc runB with slot := some 255 }
  { s with eng := { s.eng with images := [(255, some ⟨4095, 0, img1 (opw 1 0 0 1 0 0 0 0) (opw 0x42 0 0 1 0 0 0 0x3FF)
      (opw 0x4F 0 0 0 0 0 0 0) 5 5 [] [] [], true⟩)] } }

/-- An answer is what its value says. -/
theorem ok_of {ε α : Type} {e : Except ε α} {v : α} (h : e.toOption = some v) : e = .ok v := by
  cases e with
  | error _ => cases h
  | ok _ => cases h; rfl

/-- Data-mover channel 31 with its doorbell in the last line of DRAM. -/
abbrev chanUp : State := (dma 0).wrs (Reg.DM_DB 31) [(F.DM_DB_LINE, top), (F.DM_DB_EN, 1)]

/-- Where no doorbell register of a ring pair is listed, a doorbell line is read for a channel. -/
theorem chan_line {s : State} (h : s.regs.all (fun e => decide (e.1 < 0x40200018) || decide (0x40240018 ≤ e.1)) = true)
    {ln n : Nat} {l : List Nat} (hc : s.chansOn ln = n :: l) : s.lineWho ln = s.chanWho n := by
  unfold State.lineWho; rw [no_rings s h, hc]

/-- An image that aggregates into a table. -/
abbrev imgAgg : List Byte :=
  img1 (opw 1 0 0 1 0 0 0 0) (opw 0x23 0 64 1 66 1 0 1) (opw 0x4F 0 0 0 0 0 0 0) 2 9 (fitB 64 [2, 0, 4, 1, 0, 1, 1, 0, 0, 0, 0, 0, 0, 0, 0, 0, 0, 8,
    0, 0, 0, 0, 0, 0, 2, 0, 0, 0, 0, 0, 0, 0, 2, 0, 0, 0, 0, 0, 0, 0, 0, 0, 0, 0, 0, 0, 0, 0, 4] ++ [0, 0, 4, 0]) [] []

/-- What its operator sees. -/
abbrev sAgg : OpCtx := seen imgAgg (run1 [] []) 1

/-- Its run with groups in the aggregation line of the row with value 1. -/
abbrev aggWith (l : List AggEnt) : State :=
  let s := atRun imgAgg (run1 [] []) (rowTask (row1 1))
  s.setSlice 35 { s.slice 35 with agg := [((sAgg.part (row1 1) 0).h % 4096, ⟨l, 0⟩)] }

/-- A full line of other groups. -/
abbrev aggFull : List AggEnt := List.replicate 16 { sAgg.part (row1 1) 0 with h := (sAgg.part (row1 1) 0).h + 4096 }

/-- An image that sorts runs. -/
abbrev imgSort : List Byte :=
  img1 (opw 1 0 0 1 0 0 0 0) (opw 0x30 0 64 1 64 0 0 0) (opw 0x4F 0 0 0 0 0 0 0) 5 5 (fitB 64 ([3, 9, 0, 0, 32, 0, 0, 0] ++ leBytes 8 0 ++
    leBytes 8 65536 ++ leBytes 8 32768 ++ leBytes 4 1) ++ [0, 0]) [] []

/-- A batch of one row that is not selected. -/
abbrev rowOut : Batch := ⟨[2 ^ 48 - 1], [false], [(0, [Cell.null]), (1, [Cell.null])]⟩

/-- A column of one encoded row, and a plain one, at address 0. -/
abbrev encD : List Byte := fitB 64 ([1, 5, 0, 0, 0, 0, 0, 0] ++ leBytes 8 0 ++ leBytes 8 1)
abbrev rawD : List Byte := fitB 64 ([2, 5, 0, 0, 0, 0, 0, 0] ++ leBytes 8 0 ++ leBytes 8 1)

/-- An image that emits a column. -/
abbrev imgEmit : List Byte := img1 (opw 1 0 0 1 0 0 0 0) (opw 0x41 0 0 1 0 0 0 0) (opw 0x4F 0 0 0 0 0 0 0) 5 5 [] [] rawD

/-- An image that emits records inline, and one of an END. -/
abbrev imgInl : List Byte := img1 (opw 1 0 0 1 0 0 0 0) (opw 0x42 0 0 1 0 0 0 1) (opw 0x4F 0 0 0 0 0 0 0) 5 5 [] [] []
abbrev imgEnd : List Byte := img1 (opw 1 0 0 1 0 0 0 0) (opw 0x4F 0 0 0 0 0 0 0) (opw 0x4F 0 0 0 0 0 0 0) 5 5 [] [] []

/-- An image whose second scan fetches a column. -/
abbrev imgFetch : List Byte := img1 (opw 1 0 0 1 0 0 0 0) (opw 1 0 0 1 0 0 0 0) (opw 0x4F 0 0 0 0 0 0 0) 5 5 [] encD []

/-- A batch of one selected row, row 0. -/
abbrev row0 : Batch := ⟨[0], [true], [(0, [Cell.of 1]), (1, [Cell.of 1])]⟩

/-- An image that scans a table, and a run of it. -/
abbrev imgTab : List Byte :=
  img1 (opw 2 1 64 1 0 0 0 0) (opw 0x42 0 0 1 0 0 0 0x3FF) (opw 0x4F 0 0 0 0 0 0 0) 2 9 (fitB 64 [2, 0, 0, 1, 0, 1, 1, 0, 0, 0, 0, 0, 0, 0, 0, 0, 0, 8,
    0, 0, 0, 0, 0, 0, 2, 0, 0, 0, 0, 0, 0, 0, 2, 0, 0, 0, 0, 0, 0, 0, 0, 0, 0, 0, 0, 0, 0, 0, 4] ++ [0, 0, 4, 0]) [] []
abbrev runTab : Run := { run1 [] [] with pipes := [(0, { PipeSt.start with total := 1 })] }
abbrev sTab : OpCtx := seen imgTab runTab 0

/-- That run, with an entry in the table. -/
abbrev atTab : State := (atRun imgTab runTab inTask).setBytes 4 [1]

/-- An image that receives rows, and a run of it with a message received. -/
abbrev imgRecv : List Byte := img1 (opw 3 0 0 1 1 0 0 0) (opw 0x42 0 0 1 0 0 0 0x3FF) (opw 0x4F 0 0 0 0 0 0 0) 5 5 [] encD []
abbrev rcvTask : Task := Task.start 9 4095 7 4095 0 .recv
abbrev atRecv : State :=
  (atRun imgRecv (run1 [] []) rcvTask).setSlice 35 { slc1 rcvTask with rbuf := [⟨none, [8], 0, ⟨4095, 7, 1, 34, 35, [[Cell.of 1]], 1, 1, 1, none, 0⟩⟩] }

/-- An image that merges sorted runs, and a run of it with two runs to merge. -/
abbrev imgMerge : List Byte :=
  img1 (opw 49 0 0 1 0 0 0 2) (opw 0x42 0 0 1 0 0 0 0x3FF) (opw 0x4F 0 0 0 0 0 0 0) 5 5
    (fitB 64 ([3, 9, 0, 0, 32, 0, 0, 0] ++ leBytes 8 0 ++ leBytes 8 65536 ++ leBytes 8 32768 ++ leBytes 4 1)) encD []
abbrev runMerge : Run := { run1 [] [] with pipes := [(0, { PipeSt.start with runs := some [0, 1] })] }
abbrev mrgTask : Task := Task.start 9 4095 7 4095 0 .merge

/-- An image that keeps the first rows, and a run of it that gathers them on slice 35. -/
abbrev imgTop : List Byte := img1 (opw 1 0 0 1 0 0 0 0) (opw 0x32 0 0 1 0 0 0 1) (opw 0x4F 0 0 0 0 0 0 0) 5 5 [] encD []
abbrev runTop : Run := { run1 [] [] with pipes := [(0, { PipeSt.start with running := 1, gather := some 35, heap := [⟨[], 0, []⟩] })] }
abbrev gatTask : Task := Task.start 9 4095 7 4095 0 .gather
abbrev atTop : State :=
  let s := atRun imgTop runTop gatTask
  { s with eng := { s.eng with top := [⟨4095, 7, 0, 35, [⟨[], 0, []⟩], none⟩] } }

/-- An image that aggregates, and a level-0 merge task of a run of it. -/
abbrev imgL0 : List Byte := img1 (opw 1 0 0 1 0 0 0 0) (opw 0x23 0 0 1 0 0 0 1) (opw 0x4F 0 0 0 0 0 0 0) 5 5 [] encD []
abbrev l0Task : Task := Task.start 9 4095 7 4095 0 (.level0 63)

/-- An image that scans one encoded column, and that column. -/
abbrev imgScan : List Byte := img1 (opw 1 0 0 1 0 0 0 0) (opw 0x42 0 0 1 0 0 0 0x3FF) (opw 0x4F 0 0 0 0 0 0 0) 5 5 [] encD []
abbrev encC : ColD := ⟨1, .i64, 0, 0, 0, 0, 0, 0, 1, 0, 0, 0⟩

/-- A run of that image; its task, open with one block or two. -/
abbrev sScan : OpCtx := seen imgScan (run1 [encD] []) 0
abbrev scanTask (k : Nat) : Task := { inTask with opened := true, blks := k }

/-- That run, with messages and pages at its scan fronts. -/
abbrev atScan (x : Task) (pages : List PageBuf) (chains : List ChainMsg) (surv : List SurvMsg) : State :=
  let s := atRun imgScan (run1 [encD] []) x
  { s with eng := { s.eng with pages := pages, chains := chains, surv := surv } }

/-- A survivor message of the first block whose first row is selected, and a page read and checked. -/
abbrev surv0 : SurvMsg := ⟨35, 9, 0, 0, [true], [Cell.of 5]⟩
abbrev page0 : PageBuf := ⟨35, 9, 0, 0, 0, 0, 0, true, [], some ([], [])⟩

/-- A run of an image with a table, and one bucket operation of it. -/
abbrev imgBk : List Byte :=
  img1 (opw 1 0 0 1 0 0 0 0) (opw 0x42 0 0 1 0 0 0 0x3FF) (opw 0x4F 0 0 0 0 0 0 0) 5 5 [1, 0, 4, 1, 0, 1, 1, 0, 0, 0, 0, 0, 0, 0, 0, 0, 0, 8, 0, 0, 0,
    0, 0, 0, 2, 0, 0, 0, 0, 0, 0, 0, 2] encD []
abbrev bop (k : BKind) (st : BAt) : BOp :=
  BOp.mk 5 k 4095 7 0 1 35 9 0 ⟨1, [(true, 1)], [⟨true, 1, 0⟩]⟩ [] [2 ^ 43 - 128] [0] 0 0 0 0 st 0 [] 0 0
abbrev atBop (b : BOp) : State :=
  let s := atRun imgBk (run1 [] []) inTask
  { s with eng := { s.eng with bops := [b] } }

/-- Slice 35 is idle and may run a run of an image. -/
abbrev idleRun (im : List Byte) (r : Run) (x : Slice) : State := ((atRun im r inTask).wrW Reg.PKG_DIE_ACTIVE 0xFFF).setSlice 35 x

/-- An instruction word of a channel, and what its fetch from address 0 leaves. -/
abbrev dmi (w : Nat) : DmIns := dmInsOf (leBytes 16 w)
abbrev dmu (s : State) : State := (s.readPa p63 0 16).2

/-- A loop instruction at index 1 of a program, the channel before it with loops under way, and what its fetch leaves. -/
abbrev loopAt (count : Nat) (l : List DmLoop) : State :=
  (dmaWith (4 * 2 ^ 120 + count * 2 ^ 16 + 1) (fun c => { c with pc := 1, loops := l })).setBytes 16 (leBytes 16 (4 * 2 ^ 120 + count * 2 ^ 16 + 1))
abbrev loopU (count : Nat) (l : List DmLoop) : State := ((loopAt count l).readPa p63 16 16).2

/-- A column open at a source of 40 rows. -/
abbrev col40 : EncCol := { col1 with src := { col1.src with rows := 40 } }

/-- A page being closed. -/
abbrev shutting (v : Bool) : Closing := ⟨0x7FFFFFF0000, List.replicate 128 0, v, 0, 0, 0, 0⟩

/-- A channel between table entry 0 and its program. -/
abbrev ringing : State :=
  ((ram.wrW (Reg.DM_CFG 31) 0xBF00000000000000).wr (Reg.DM_STATUS 31) F.DM_STATUS_STATE 1).setChan 31 { DmCh.reset with start := 1 }

/-- An encode block at address 131072, and the ENCODE that opens it. -/
abbrev encBlock : List Byte :=
  fitB 64 ([2, 5, 0, 0, 0, 0, 0, 0] ++ leBytes 8 0 ++ leBytes 8 40) ++ fitB 64 ([1, 5, 0, 0, 0, 0, 0, 0] ++ leBytes 8 65536)
abbrev opening : State := (dma (2 * 2 ^ 120 + 2 ^ 104 + 1024 * 2 ^ 59 + 1)).setBytes 131072 encBlock
abbrev opened : EncCol := (((openCol 31 131072 0).run (dmu opening)).1.toOption.getD none).getD col1

/-- A channel in the midst of its work. -/
abbrev dmAt (w : DmWork) : State := dmaWith 0 (fun c => { c with work := w })
abbrev encAt (left : Nat) : State := dmaWith 0 (fun c => { c with work := .encode left, enc := some col40 })

/-- A COMMAND with a LOAD_IMAGE of 256 bytes at that port, staging space of 1 MiB at hand. -/
abbrev cmdB : List Byte := fitB 128 (leBytes 16 2 ++ leBytes 8 0 ++ leBytes 4 256)
abbrev cmdAt (stages : List FxStage) : State :=
  (fxRuns (fxGot (pkt 1 7 0 cmdB) { FxPort.reset with want := [(4095, (7, 1))], wins := [(9, some cqw)], stages := stages })).wr (Reg.FX_STAGE 3)
    F.FX_STAGE_SIZE_MIB 1

/-- A DATA_IN at that port for a LOAD_IMAGE of 256 bytes of which some have come. -/
abbrev dataAt (k : FxPkt) (inp : List Byte) : State :=
  let s := fxGot k { FxPort.reset with stages := [⟨4095, 7, 0, 256, 0, false⟩] }
  { s with eng := { Eng.reset with descs := [{ dsc cmdB with inp := inp }] } }

/-- Port 3 without errors discards until a replay arrives. -/
abbrev fxDeaf : FxPort := { FxPort.reset with discard := true }

/-- A hart in U-mode, in S-mode, and in VS-mode. -/
abbrev hu : Hart := { hx with mode := .u }
abbrev hs : Hart := { hx with mode := .s }
abbrev hvs : Hart := { hx with mode := .s, v := true }

/-- Slice 34 works while its die runs at code 0. -/
abbrev turbo (s : State) : State := (s.wr (Reg.RCC_CCLK 11) F.RCC_CCLK_CURRENT 0).setSlice 34 (slc1 inTask)

/-- A hart that waits, with an interrupt pending. -/
abbrev hwake (w : Waiting) : Hart := { hx with csr := [(0x304, 0x80), (0x344, 0x80)], waiting := w }

/-- A hart whose registers 30 and 31 name a range outside every region. -/
abbrev hfar : Hart := { hx with x := [(30, 0x80000000000), (31, 128)] }

/-- A hart in S-mode and one in VS-mode whose environment calls are delegated, the latter's to VS-mode. -/
abbrev hsDeleg : Hart := { hs with csr := [(0x302, 0x200)] }
abbrev hvsDeleg : Hart := { hvs with csr := [(0x302, 0x400), (0x602, 0x400)] }

/-- The supervisor timers are on. -/
abbrev hstc (l : Tab Word) : Hart := { hx with csr := l ++ [(0x30A, 0x8000000000000000), (0x60A, 0x8000000000000000)] }

/-- The debug module reaches memory as partition 63. -/
abbrev sba : State := ram.wrs Reg.ISO_DBG [(F.ISO_DBG_SBA_PID, 63), (F.ISO_DBG_SBA_WORLD, 0), (F.ISO_DBG_N_INV, 1)]

/-- An access ends in a fault. -/
theorem err_of {ε α : Type} {e : Except ε α} {f : ε} (h : (match e with | .error x => some x | .ok _ => none) = some f) :
    e = .error f := by
  cases e with
  | error _ => cases h; rfl
  | ok _ => cases h

/-- Harts whose register 30 is the end of DRAM, the last doubleword, and an address outside the address space; their prefetchers
are off. -/
abbrev hend : Hart := { hx with x := [(30, 0x80000000000)], csr := [(0x7C3, 0)] }
abbrev hlast : Hart := { hx with x := [(30, 0x7FFFFFFFFF8)], csr := [(0x7C3, 0)] }
abbrev hout : Hart := { hx with x := [(30, 0x1000000000000000)] }

/-- The last line of DRAM in the hart's cluster, poisoned. -/
abbrev atBad : State :=
  (atH hend).setCluster 35 { Cluster.empty with l2 := [(0, ⟨top, .m, 2, ⟨List.replicate 128 0, true⟩, monitor⟩)] }

/-- A hart in S-mode of partition 63 that has the last page of DRAM at address 0 as memory that is not cached. -/
abbrev hnc : Hart :=
  { hs with
    x := [(30, 4096)]
    csr := [(0x180, 0x8000000000000000), (0x3A0, 0x1F), (0x3B0, 0x3FFFFFFFFFFFFF), (0x7C0, 0x3F)]
    tlb := [⟨.s, .l1d, true, 0, 12, 0, 0x7FFFFFFF000, 2 ^ 61 + 0xCF, 0, 0, p63, false, 0, none⟩] }

/-- A hart with an access of a register under way that its identity may not make. -/
abbrev hbad (w : Option (List Byte)) : Hart := { hs with io := some (acc (windowBase + Reg.RCC_BKP 7) w) }

/-- A hart before an access of a register. -/
abbrev hwin : Hart := { hx with x := [(30, BitVec.ofNat 64 (windowBase + 8))] }

/-- An options copy that is valid, with a gateway selection of 1. -/
abbrev optB : List Byte :=
  let b := fitB 124 (leBytes 4 0x4254504F ++ leBytes 4 0 ++ [1, 0, 1])
  b ++ leBytes 4 (crc32c b)

/-- The management controller runs in SIDING. -/
abbrev inSiding : State := (inMode MD.siding).pk (fun p => { p with held := [] })

/-- The same with the last sensor at 115 degrees. -/
abbrev hotSiding : State := { inSiding with pmc := { inSiding.pmc with sens := [(147, 1840)] } }

/-- A block of which no row is read sends its survivor message. -/
theorem survivors_ok (a : Who) (n : Nat) (c : OpCtx) (t : Task) (k blk front : Nat) (cd : ColD) (bits : List Bool) (chain : Bool)
    (s : State) : ((sendSurvivors a n c t k blk front cd [] bits chain).run s).1.toOption = some () := by
  have e : ∀ l : List Nat, (l.mapM (fun i => do
      let v := nthD ([] : List (Bool × Nat)) i (false, 0)
      cellOf a cd.ty v.1 v.2 cd.heapBase) : EM (List Cell)) = pure (l.map (fun _ => Cell.null)) := by
    intro l
    induction l with
    | nil => rfl
    | cons x l ih => rw [List.mapM_cons, ih]; cases x <;> rfl
  unfold sendSurvivors
  dsimp only
  erw [e]
  rfl

/-! ### Well-formedness: for each check a command it refuses, and one at the boundary that it lets through -/

theorem test_refuses_partition_number : Instr.wellFormed (.bootGood ⟨64, .n⟩) = false := by decide +kernel
theorem test_takes_partition_number : Instr.wellFormed (.bootGood p63) = true := by decide +kernel
theorem test_refuses_register_size : Instr.wellFormed (.registerWrite monitor 0 2 0 false) = false := by decide +kernel
theorem test_takes_register_size : Instr.wellFormed (.registerWrite monitor 0xFFFFFFFF 8 (2 ^ 64 - 1) false) = true := by decide +kernel
theorem test_refuses_register_value : Instr.wellFormed (.registerWrite monitor 0 4 (2 ^ 64) false) = false := by decide +kernel
theorem test_takes_register_value : Instr.wellFormed (.registerWrite monitor 0 4 5 true) = true := by decide +kernel
theorem test_refuses_register_offset : Instr.wellFormed (.registerWrite monitor (2 ^ 32) 4 0 false) = false := by decide +kernel
theorem test_takes_register_offset : Instr.wellFormed (.rwsWrite monitor 0 4 0) = true := by decide +kernel
theorem test_refuses_twelve_dies : Instr.wellFormed (.suppliesGood ⟨[], 0⟩ false false) = false := by decide +kernel
theorem test_takes_twelve_dies : Instr.wellFormed (.suppliesGood ⟨List.replicate 12 none, 0xFFFF⟩ false false) = true := by decide +kernel
theorem test_refuses_sixteen_channels : Instr.wellFormed (.dramTrainingDone []) = false := by decide +kernel
theorem test_takes_sixteen_channels : Instr.wellFormed (.dramTrainingDone (List.replicate 16 none)) = true := by decide +kernel
theorem test_refuses_sensor_count : Instr.wellFormed (.sensorScan []) = false := by decide +kernel
theorem test_takes_sensor_count : Instr.wellFormed (.sensorScan (List.replicate 148 0)) = true := by decide +kernel
theorem test_refuses_sensor_range : Instr.wellFormed (.thermalTrip 0 32768) = false := by decide +kernel
theorem test_takes_sensor_range : Instr.wellFormed (.thermalTrip 147 (-32768)) = true := by decide +kernel
theorem test_refuses_sensor_readings : Instr.wellFormed (.warmupScan (List.replicate 148 (-32769))) = false := by decide +kernel
theorem test_takes_sensor_readings : Instr.wellFormed (.warmupScan (List.replicate 148 32767)) = true := by decide +kernel
theorem test_refuses_mode_code : Instr.wellFormed (.modeOrderSubmit 0 monitor 12) = false := by decide +kernel
theorem test_takes_mode_code : Instr.wellFormed (.modeOrderSubmit 1 monitor 11) = true := by decide +kernel
theorem test_refuses_reset_index : Instr.wellFormed (.coreResetReq 0 monitor 256) = false := by decide +kernel
theorem test_takes_reset_index : Instr.wellFormed (.coreResetReq 1 monitor 255) = true := by decide +kernel
theorem test_refuses_meter_count : Instr.wellFormed (.budgetRound 0 0 []) = false := by decide +kernel
theorem test_takes_meter_count : Instr.wellFormed (.budgetRound 0 0 (List.replicate 12 0)) = true := by decide +kernel
theorem test_refuses_power_identity : Instr.wellFormed (.setTdp (.reg 0 ⟨64, .n⟩) 0 450) = false := by decide +kernel
theorem test_takes_power_identity : Instr.wellFormed (.setTdp .sideband 0 450) = true := by decide +kernel
theorem test_refuses_power_unit : Instr.wellFormed (.powerOn .sideband 128 0) = false := by decide +kernel
theorem test_takes_power_unit : Instr.wellFormed (.powerOn .sideband 127 0) = true := by decide +kernel
theorem test_refuses_power_value : Instr.wellFormed (.capCclk .sideband 0 65536) = false := by decide +kernel
theorem test_takes_power_value : Instr.wellFormed (.capCclk .sideband 0 65535) = true := by decide +kernel
theorem test_refuses_sideband_address : Instr.wellFormed (.sidebandAddressMatch 128 false) = false := by decide +kernel
theorem test_takes_sideband_address : Instr.wellFormed (.sidebandAddressMatch 127 false) = true := by decide +kernel
theorem test_refuses_transaction_tag : Instr.wellFormed (.ctuBegin monitor .n 65536) = false := by decide +kernel
theorem test_takes_transaction_tag : Instr.wellFormed (.ctuBegin monitor .n 65535) = true := by decide +kernel
theorem test_refuses_stage_number : Instr.wellFormed (.credit 0 1 32) = false := by decide +kernel
theorem test_takes_stage_number : Instr.wellFormed (.credit 0 1 31) = true := by decide +kernel
theorem test_refuses_error_code : Instr.wellFormed (.rspError (.hart 0) 5) = false := by decide +kernel
theorem test_takes_error_code : Instr.wellFormed (.rspError (.hart 215) 4) = true := by decide +kernel
theorem test_refuses_line_number : Instr.wellFormed (.memRead 0 ⟨2 ^ 45, false, false⟩) = false := by decide +kernel
theorem test_takes_line_number : Instr.wellFormed (.memRead 0 ⟨2 ^ 45 - 1, true, false⟩) = true := by decide +kernel
theorem test_refuses_line_bytes : Instr.wellFormed (.wrFull 0 monitor 0 []) = false := by decide +kernel
theorem test_takes_line_bytes : Instr.wellFormed (.wrFull 0 monitor 0 (List.replicate 128 0)) = true := by decide +kernel
theorem test_refuses_line_mask : Instr.wellFormed (.wrMask 0 monitor 0 (List.replicate 128 0) (2 ^ 128)) = false := by decide +kernel
theorem test_takes_line_mask : Instr.wellFormed (.wrMask 0 monitor 0 (List.replicate 128 0) (2 ^ 128 - 1)) = true := by decide +kernel
theorem test_refuses_dma_address : Instr.wellFormed (.pcieDmaWrite 0 ⟨false, false, 2 ^ 52⟩ []) = false := by decide +kernel
theorem test_takes_dma_address : Instr.wellFormed (.pcieDmaWrite 111 ⟨true, false, 2 ^ 52 - 1⟩ []) = true := by decide +kernel
theorem test_refuses_dma_length : Instr.wellFormed (.pcieDmaWrite 0 ⟨false, false, 0⟩ (List.replicate 4097 0)) = false := by decide +kernel
theorem test_takes_dma_length : Instr.wellFormed (.pcieDmaWrite 0 ⟨false, false, 0⟩ (List.replicate 4096 0)) = true := by decide +kernel
theorem test_refuses_atomic_size : Instr.wellFormed (.atomicOp 0 0 ⟨false, false, 0⟩ .swap 2 0 0) = false := by decide +kernel
theorem test_takes_atomic_size : Instr.wellFormed (.atomicOp 0 0 ⟨false, false, 0⟩ .swap 16 (2 ^ 128 - 1) 0) = true := by decide +kernel
theorem test_refuses_msi_identity : Instr.wellFormed (.pcieMsi 0 0 2048) = false := by decide +kernel
theorem test_takes_msi_identity : Instr.wellFormed (.pcieMsi 0 0 2047) = true := by decide +kernel
theorem test_refuses_io_value : Instr.wellFormed (.ioRead 0 (2 ^ 64)) = false := by decide +kernel
theorem test_takes_io_value : Instr.wellFormed (.ioRead 215 (2 ^ 64 - 1)) = true := by decide +kernel
theorem test_refuses_descriptor_sequence : Instr.wellFormed (.nopDesc 0 (2 ^ 32)) = false := by decide +kernel
theorem test_takes_descriptor_sequence : Instr.wellFormed (.nopDesc 4095 (2 ^ 32 - 1)) = true := by decide +kernel
theorem test_refuses_lane_mask : Instr.wellFormed (.trainingStepComplete 0 256) = false := by decide +kernel
theorem test_takes_lane_mask : Instr.wellFormed (.trainingStepComplete 3 255) = true := by decide +kernel
theorem test_refuses_flit_bytes : Instr.wellFormed (.dataFlit 0 [] false) = false := by decide +kernel
theorem test_takes_flit_bytes : Instr.wellFormed (.dataFlit 0 (List.replicate 256 0) false) = true := by decide +kernel
theorem test_refuses_flit_fields : Instr.wellFormed (.flitRoute 52 ⟨.inject, .none⟩ { toS00 with epoch := 2 } 0) = false := by decide +kernel
theorem test_refuses_flit_payload : Instr.wellFormed (.flitRoute 52 ⟨.inject, .none⟩ { toS00 with payload := [] } 0) = false := by decide +kernel
theorem test_refuses_unused_flit_field : Instr.wellFormed (.flitRoute 52 ⟨.inject, .none⟩ { toS00 with aux := 1 } 0) = false := by decide +kernel
theorem test_takes_flit : Instr.wellFormed (.flitRoute 52 ⟨.inject, .none⟩ { toS00 with aux := 255, op := 0x46, stage := 31, cls := 1 } 0) = true := by decide +kernel
theorem test_refuses_access_size : Instr.wellFormed (.loadStore 0 false (.x 1) 2 0 16 true 4) = false := by decide +kernel
theorem test_takes_access_size : Instr.wellFormed (.loadStore 0 false (.x 1) 2 0 8 true 2) = true := by decide +kernel
theorem test_refuses_access_immediate : Instr.wellFormed (.loadStore 0 false (.x 1) 2 2048 8 true 4) = false := by decide +kernel
theorem test_takes_access_immediate : Instr.wellFormed (.loadStore 0 false (.x 1) 2 (-2048) 8 true 4) = true := by decide +kernel
theorem test_refuses_instruction_length : Instr.wellFormed (.loadStore 0 false (.x 1) 2 0 8 true 3) = false := by decide +kernel
theorem test_takes_instruction_length : Instr.wellFormed (.loadStore 0 false (.x 1) 2 0 8 true 4) = true := by decide +kernel
theorem test_refuses_amo_size : Instr.wellFormed (.amo 0 .add 1 2 3 2) = false := by decide +kernel
theorem test_takes_amo_size : Instr.wellFormed (.amo 0 .add 1 2 3 4) = true := by decide +kernel
theorem test_refuses_fence_sets : Instr.wellFormed (.fence 0 16 15) = false := by decide +kernel
theorem test_takes_fence_sets : Instr.wellFormed (.fence 0 15 15) = true := by decide +kernel
theorem test_refuses_prefetch_immediate : Instr.wellFormed (.prefetchR 0 1 (-2049)) = false := by decide +kernel
theorem test_takes_prefetch_immediate : Instr.wellFormed (.prefetchR 0 1 2047) = true := by decide +kernel
theorem test_refuses_event_counter : Instr.wellFormed (.mhpmeventWrite 0 2 0) = false := by decide +kernel
theorem test_takes_event_counter : Instr.wellFormed (.mhpmeventWrite 0 31 0) = true := by decide +kernel
theorem test_refuses_debug_access : Instr.wellFormed (.systemBusAccess 0 8 (some (2 ^ 64))) = false := by decide +kernel
theorem test_takes_debug_access : Instr.wellFormed (.systemBusAccess 0 8 none) = true := by decide +kernel
theorem test_refuses_source_number : Instr.wellFormed (.event 0) = false := by decide +kernel
theorem test_takes_source_number : Instr.wellFormed (.event 512) = true := by decide +kernel
theorem test_refuses_mailbox_length : Instr.wellFormed (.mailboxSubmit monitor .n 8192) = false := by decide +kernel
theorem test_takes_mailbox_length : Instr.wellFormed (.mailboxSubmit monitor .n 8191) = true := by decide +kernel
theorem test_refuses_message_length : Instr.wellFormed (.getInfo .sideband (some (List.replicate 4097 0))) = false := by decide +kernel
theorem test_takes_message_length : Instr.wellFormed (.getInfo .sideband (some (List.replicate 4096 0))) = true := by decide +kernel
theorem test_refuses_rail_count : Instr.wellFormed (.readRails .sideband none []) = false := by decide +kernel
theorem test_takes_rail_count : Instr.wellFormed (.readRails .sideband none (List.replicate 19 (0, 0))) = true := by decide +kernel
theorem test_refuses_link_rate : Instr.wellFormed (.pcieLinkUp 0 4 false false) = false := by decide +kernel
theorem test_takes_link_rate : Instr.wellFormed (.pcieLinkUp 0 64 false false) = true := by decide +kernel
theorem test_refuses_csr_number : Instr.wellFormed (.csrWrite 0 4096 0) = false := by decide +kernel
theorem test_takes_csr_number : Instr.wellFormed (.csrWrite 0 4095 0) = true := by decide +kernel

/-! ### Decoding: no row of the opcode table has bits, so no word spells a command -/

theorem test_no_word_spells_a_command : decodeTableWord 32 0x13 = none := by decide

/-! ### The manual's worked examples -/

/-- The twelve rows of block 977 (02 *Worked example*): row 4 is null. -/
abbrev block977 : List (Bool × Nat) :=
  [(true, 412), (true, 415), (true, 415), (true, 418), (false, 0), (true, 421), (true, 421), (true, 420), (true, 424),
    (true, 427), (true, 427), (true, 431)]

/-- Its column: INT16, ratio 4, t = 8, no dictionary. -/
abbrev bearingCol : ColD := ⟨1, .i16, 2, 8, 0, 0, 0, 0, 0, 0, 0, 0⟩

/-- 02 *Worked example*: the 26 bytes of the canonical form. -/
theorem test_canonical_block_977 : canonical .i16 block977 =
    [0x9C, 0x01, 0x9F, 0x01, 0x9F, 0x01, 0xA2, 0x01, 0x00, 0x00, 0xA5, 0x01, 0xA5, 0x01, 0xA4, 0x01, 0xA8, 0x01, 0xAB, 0x01,
      0xAB, 0x01, 0xAF, 0x01, 0xEF, 0x0F] := by decide +kernel

/-- 02 *Worked example*: DELTA of width 4 with HAS_NULLS, V0 = 412, is chosen. -/
theorem test_encoding_of_block_977 : (chooseEnc bearingCol 3 [] [] block977).hdr =
    ⟨blockCrc .i16 block977, 4, true, 4, 12, 412, true⟩ := by decide +kernel

/-- 02 *Worked example*: the bitmap and the packed zig fields. -/
theorem test_payload_of_block_977 : (chooseEnc bearingCol 3 [] [] block977).data =
    [0xEF, 0x0F] ++ List.replicate 126 0 ++ [0x06, 0x06, 0x06, 0x81, 0x06, 0x08] := by decide +kernel

/-- 09 *Worked example*: sixteen channels, granule 64 KiB. -/
abbrev inter16 : State := R.wrs Reg.MEM_MAP [(F.MEM_MAP_WAYS_LOG2, 4), (F.MEM_MAP_TOP, 2 ^ 27)]

/-- 09 *Worked example*: page 7 of bearing_t is on M9, at its offsets in the channel. -/
theorem test_page_7_is_on_m9 : inter16.chanOf 0x234590000 = 9 ∧ inter16.chanOff 0x234590000 = 0x23450000 ∧
    inter16.chanOff 0x23459FF80 = 0x2345FF80 := by decide +kernel

/-- 09 *Worked example*: in region 40, with LOCAL_HOME, every line of the page is homed at T52. -/
theorem test_region_40_homes_at_t52 :
    (((inter16.wrW (Reg.FW_BASE 40) 0x8000000200000000).wrW (Reg.FW_LIMIT 40) 0x00000002FFFF0000).wrW
      (Reg.FW_ATTR 40) 0x02F0000000000000).homeStop 0x23459FF80 = 52 := by decide +kernel

/-- 09 *Worked example*: the flip test damages symbol 3 of codeword 0 and symbol 15 of codeword 7. -/
abbrev flipped : List Byte := ((List.replicate 160 (0 : Byte)).set 3 0xFF).set 155 0x01

/-- 09 *Worked example*: the damage lies in line bytes 3 and 127. -/
theorem test_flip_damages_bytes_3_and_127 : errData flipped = (d0.data.set 3 0xFF).set 127 0x01 := by decide +kernel

/-- 09 *Worked example*: errors at those two symbols, of devices 3 and 17, explain every codeword, and none is left. -/
theorem test_flip_is_corrected : linePair flipped 3 15 = some (List.replicate 160 0) ∧ dev4 3 = 3 ∧ dev4 15 = 17 := by
  decide +kernel

/-- 11 *Worked example*: the outputs of the six hops and the ejection. -/
theorem test_route_to_s00 :
    [(52, Arrival.inject), (53, .xPos), (54, .xPos), (55, .xPos), (48, .xPos), (56, .yPos), (0, .yPos)].map
      (fun h => R.route h.1 h.2 toS00) = [.xPos, .xPos, .xPos, .xPos, .yPos, .yPos, .eject] := by decide +kernel

/-- 11 *Worked example*: the virtual channels of the six hops. -/
theorem test_vcs_to_s00 :
    [outVc 52 .inject .xPos 0, outVc 53 .xPos .xPos 0, outVc 54 .xPos .xPos 0, outVc 55 .xPos .xPos 0, outVc 48 .xPos .yPos 1,
      outVc 56 .yPos .yPos 0] = [0, 0, 0, 1, 0, 1] := by decide +kernel

/-- 11 *Worked example*: with X_LONG set the packet leaves T52 the other way. -/
theorem test_detour_to_s00 : (R.wr (Reg.RTR_TTA 52 0) F.RTR_TTA_X_LONG 1).route 52 .inject toS00 = .xNeg := by decide +kernel

/-- 12 *Worked example*: the interrupt files of hart 137. -/
theorem test_files_of_hart_137 : fileOff (sFile 137 0) = 0x4C48000 ∧ fileOff (sFile 137 3) = 0x4C4B000 ∧
    fileOff (mFile 137) = 0x4089000 := by decide +kernel

/-- 01 *Worked example*: C22 is at T54, and PKG_STOP{54}_FUNC reads 0x660116; M9 is at T52. -/
theorem test_stop_54 : nthD clusterStops (hartCluster 137) 0 = 54 ∧ resetWord (Reg.PKG_STOP_FUNC 54) = 0x660116 ∧
    nthD memStops 9 0 = 52 := by decide +kernel

/-- 04 *Worked example*: the fields of the AGG_LOCAL word. -/
theorem test_agg_local_word : opWOf (leBytes 16 0x23000084000100880003004000000003) 0 =
    ⟨0x23, 0, 0x84, 1, 0x88, 3, 0x40, 3, 0⟩ := by decide +kernel

/-- 04 *Worked example*: the fields of the CAST and SUB micro-ops. -/
theorem test_cast_and_sub_words :
    uopOf 0x3010000200000000 = ⟨0x30, 2, 0, 0, 0, 2, false, false, 0, 0, 0⟩ ∧
      uopOf 0x2110800204000352 = ⟨0x21, 2, 2, 0, 0, 2, false, false, 0, 1, 0x352⟩ := by decide +kernel

/-- 04 *Worked example*: an alarm of 93.4 degrees exceeds 85.0 by 84 tenths. -/
theorem test_excess_of_an_alarm :
    (evalRow (uopOf 0x3010000200000000) ⟨.i16, 0⟩ ⟨.i16, 0⟩ ⟨.i16, 0⟩ ⟨.i32, 0⟩ 0 (Cell.of 934) Cell.null Cell.null).toOption =
        some (Cell.of 934) ∧
      (evalRow (uopOf 0x2110800204000352) ⟨.i32, 0⟩ ⟨.i32, 0⟩ ⟨.i32, 0⟩ ⟨.i32, 0⟩ 0 (Cell.of 934) (Cell.of 850) Cell.null).toOption =
        some (Cell.of 84) := by decide +kernel

/-- 18 *Worked example*, round k: CD10 is granted 31 W, CD11 40 W, the others 45.5 W. -/
theorem test_budget_round_k :
    shareOut 12 2112 ([(10, 124), (11, 160)] ++ (List.range 10).map (fun d => (d, 224))) =
      (List.range 10).map (fun d => (d, 182)) ++ [(10, 124), (11, 160)] := by decide +kernel

/-- 18 *Worked example*, round k + 1: CD10 31 W, CD3 37 W, CD11 40 W, the others 46.5 W. -/
theorem test_budget_round_k1 :
    shareOut 12 2112 ([(10, 124), (3, 148), (11, 160)] ++ [0, 1, 2, 4, 5, 6, 7, 8, 9].map (fun d => (d, 224))) =
      [(0, 186), (1, 186), (2, 186), (3, 148), (4, 186), (5, 186), (6, 186), (7, 186), (8, 186), (9, 186), (10, 124),
        (11, 160)] := by decide +kernel

/-- 20 *Worked example*: the trip of sensor 45 at 132.0 degrees in MAINLINE fills PMC_TRIP. -/
theorem test_summer_trip :
    (((inMode 4).wrW Reg.PWR_RTC (0x03941A20 * 2 ^ 15)).fillTrip 45 2112).rdW Reg.PMC_TRIP = 0x802D084003941A20 := by
  decide +kernel

/-! ### States and operands that meet the hypotheses of each statement, clause by clause: `test_<statement>_<clause>` -/

theorem test_StepRunsTheFrontCommand_2 : ∃ (s : State),
    s.pending = [] :=
  ⟨R, by decide +kernel⟩

theorem test_CommandsKeepOtherParts_1 : ∃ (c : Instr) (s : State) (t : State),
    exec c s = .next t :=
  ⟨.standbyRailsGood, State.reset, _, rfl⟩

theorem test_QueueInvariant_1 : ∃ (s : State) (t : State),
    step s = .next t :=
  ⟨q1, _, rfl⟩

theorem test_MemoryInvariant_1 : ∃ (s : State) (t : State),
    s.memoryWf = true ∧
    step s = .next t :=
  ⟨q1, _, ⟨by decide +kernel, rfl⟩⟩

theorem test_FlashAndOptionsHeld_1 : ∃ (c : Instr) (s : State) (t : State),
    exec c s = .next t :=
  ⟨.standbyRailsGood, State.reset, _, rfl⟩

theorem test_RegisterFieldTypes_1 : ∃ (x : FldWrite),
    x.fd.fld.lo ≤ x.fd.fld.hi ∧
    x.fd.fld.hi < 64 ∧
    x.raw < 2 ^ (x.fd.fld.hi + 1 - x.fd.fld.lo) ∧
    x.new < 2 ^ (x.fd.fld.hi + 1 - x.fd.fld.lo) :=
  ⟨⟨⟨⟨63, 0⟩, .rw, 0, false, 0, 2 ^ 64 - 1⟩, 2 ^ 64 - 1, 2 ^ 64 - 1, 2 ^ 64 - 1⟩, by decide +kernel⟩

theorem test_PageLayoutFits_1 : ∃ (c : ColD),
    c.ratioLog2 ≤ 4 ∧
    c.cap ∈ [0, 16, 64, 256, 1024] ∧
    c.cap * c.ty.width ≤ 16384 :=
  ⟨⟨1, .i64, 4, 0, 1024, 0, 0, 0, 1, 0, 0, 0⟩, by decide +kernel⟩

theorem test_PageLayoutFits_3 : ∃ (c : ColD),
    c.ratioLog2 ≤ 4 ∧
    c.cap = 0 :=
  ⟨⟨1, .i64, 4, 0, 0, 0, 0, 0, 1, 0, 0, 0⟩, by decide +kernel⟩

theorem test_PackedArraysHoldTheirFields_1 : ∃ (w : Nat) (l : List Nat),
    ((∀ f ∈ l, f < 2 ^ w)) :=
  ⟨3, [7, 0], by decide +kernel⟩

theorem test_IntegerDivision_1 : ∃ (u : UOp) (v : UOp) (a : Decl) (x : Cell) (y : Cell),
    u.op = 0x23 ∧
    v.op = 0x24 ∧
    (a.ty.cls = 2 ∨ a.ty.cls = 3) ∧
    x.ok = true ∧
    y.ok = true ∧
    a.ty.int y.v ≠ 0 ∧
    u.ovf ≤ 2 :=
  ⟨⟨0x23, 0, 0, 0, 0, 0, false, false, 2, 0, 0⟩, ⟨0x24, 0, 0, 0, 0, 0, false, false, 2, 0, 0⟩, ⟨.i64, 0⟩, Cell.of (2 ^ 63), Cell.of (2 ^ 64 - 1), by decide +kernel⟩

theorem test_IntegerDivision_2 : ∃ (u : UOp) (v : UOp),
    u.op = 0x23 ∧
    v.op = 0x24 :=
  ⟨⟨0x23, 0, 0, 0, 0, 0, false, false, 2, 0, 0⟩, ⟨0x24, 0, 0, 0, 0, 0, false, false, 2, 0, 0⟩, by decide +kernel⟩

theorem test_DecimalRescale_1 : ∃ (sa : Nat) (sb : Nat),
    sa ≤ sb :=
  ⟨2, 2, by decide +kernel⟩

theorem test_DecimalRescale_2 : ∃ (sa : Nat) (sb : Nat),
    sb < sa :=
  ⟨3, 2, by decide +kernel⟩

theorem test_DecimalRescale_6 : ∃ (t : Ty),
    t.isDec = true :=
  ⟨.dec128, by decide +kernel⟩

theorem test_RegisterWritesComplete_1 : ∃ (s : State) (who : Ident) (off : Nat) (size : Nat) (user : Bool),
    regAligned off size = true ∧
    regCovered off = true ∧
    s.regReach who off true user = true ∧
    hasStaged off = false :=
  ⟨R, monitor, Reg.RCC_BKP 15, 8, false, by decide +kernel⟩

theorem test_RegisterWritesComplete_2 : ∃ (off : Nat) (size : Nat),
    (regAligned off size = false ∨ regCovered off = false) :=
  ⟨4, 8, by decide +kernel⟩

theorem test_RegisterWritesComplete_3 : ∃ (s : State) (who : Ident) (off : Nat) (size : Nat) (user : Bool),
    regAligned off size = true ∧
    regCovered off = true ∧
    s.regReach who off true user = false ∧
    s.on Reg.ISO_VIOL F.ISO_VIOL_VALID = false :=
  ⟨R, p63, Reg.RCC_BKP 15 + 4, 4, false, by decide +kernel⟩

theorem test_RegisterWritesComplete_4 : ∃ (s : State) (who : Ident) (k : Fin 16) (user : Bool),
    s.regReach who (Reg.RCC_BKP k) true user = true :=
  ⟨R, monitor, 15, false, by decide +kernel⟩

theorem test_RegisterWritesComplete_5 : ∃ (s : State) (who : Ident) (k : Fin 16) (user : Bool),
    s.regReach who (Reg.RCC_BKP k) true user = true :=
  ⟨R, monitor, 15, false, by decide +kernel⟩

theorem test_RegisterWritesComplete_6 : ∃ (s : State) (who : Ident) (k : Fin 16) (user : Bool),
    s.regReach who (Reg.RCC_BKP k + 4) true user = true :=
  ⟨R, monitor, 15, false, by decide +kernel⟩

theorem test_RegisterWritesComplete_7 : ∃ (s : State),
    s.ctu = Ctu.reset :=
  ⟨R, by decide +kernel⟩

theorem test_RegisterWritesComplete_8 : ∃ (s : State) (x : Txn),
    s.ctu.openOf .s = some x ∧
    x.full = false ∧
    Tab.look x.staged Reg.ISO_PART_WORLD = none ∧
    x.staged.length < 4096 :=
  ⟨{ R with ctu := { Ctu.reset with openS := some ⟨.s, 65535, false, [], false⟩ } }, ⟨.s, 65535, false, [], false⟩, by decide +kernel⟩

theorem test_RegisterWritesComplete_10 : ∃ (who : Ident),
    who ≠ monitor :=
  ⟨p63, by decide +kernel⟩

theorem test_RegisterWritesComplete_11 : ∃ (s : State) (who : Ident),
    s.regReach who Reg.RCC_WDOG true false = true :=
  ⟨R, monitor, by decide +kernel⟩

theorem test_RegisterWritesComplete_12 : ∃ (s : State),
    s.anySealed = false :=
  ⟨R, by decide +kernel⟩

theorem test_RegisterWritesComplete_13 : ∃ (s : State) (who : Ident),
    s.regReach who Reg.PMON_CTRL true false = true :=
  ⟨R, monitor, by decide +kernel⟩

theorem test_RegisterWritesComplete_14 : ∃ (s : State) (who : Ident),
    s.regReach who Reg.PMON_CTRL true false = true :=
  ⟨R, monitor, by decide +kernel⟩

theorem test_RegisterWritesComplete_15 : ∃ (s : State) (who : Ident) (w : World) (k : Nat) (val : Nat),
    1 ≤ k ∧
    k ≤ 512 ∧
    s.regReach who (aplicBase w + 4 * k) true false = true ∧
    s.srcHere w k = true ∧
    val % 8 = (if evtIsLevel k then 6 else 4) ∧
    ((s.aplic w).ie && ((s.aplic w).get k).en) = false :=
  ⟨R, monitor, .s, 379, 4, by decide +kernel⟩

theorem test_RegisterWritesComplete_16 : ∃ (s : State) (who : Ident) (w : World) (k : Nat) (val : Nat),
    1 ≤ k ∧
    k ≤ 512 ∧
    s.regReach who (aplicBase w + 4 * k) true false = true ∧
    s.srcHere w k = true ∧
    val % 8 ≠ (if evtIsLevel k then 6 else 4) :=
  ⟨R, monitor, .s, 379, 6, by decide +kernel⟩

theorem test_RegisterWritesComplete_17 : ∃ (s : State) (who : Ident) (w : World) (len : Nat) (q : List Byte),
    s.regReach who (Reg.MBX_CTRL (worldBit w)) true false = true ∧
    s.pmcRuns = true ∧
    s.rd (Reg.MBX_STATUS (worldBit w)) F.MBX_STATUS_STATE ≠ 1 ∧
    Tab.look s.pmc.req (worldBit w) = none ∧
    q = ((List.range 512).flatMap (fun i => leBytes 8 (s.rdW (Reg.MBX_REQ (worldBit w) i)).toNat)).take (len % 2 ^ 13) ∧
    mgmtCodes.contains (leAt q 0 1) = true :=
  ⟨pmcOn.wrW (Reg.MBX_REQ 1 0) 1, monitor, .s, 8192 + 4, [1, 0, 0, 0], by decide +kernel⟩

theorem test_SuppliesAndResetsComplete_1 : ∃ (s : State),
    s.pkg.supplies = false ∧
    s.pkg.mainEn = true ∧
    s.pkg.standby = true :=
  ⟨R, by decide +kernel⟩

theorem test_SuppliesAndResetsComplete_2 : ∃ (s : State),
    s.pkg.supplies = false ∧
    s.pkg.mainEn = true ∧
    s.pkg.standby = true :=
  ⟨R, by decide +kernel⟩

theorem test_SuppliesAndResetsComplete_3 : ∃ (s : State),
    s.pkg.mainEn = true ∧
    s.pkg.rstWait = none :=
  ⟨R, by decide +kernel⟩

theorem test_SuppliesAndResetsComplete_4 : ∃ (s : State),
    s.pkg.mainEn = true :=
  ⟨R, by decide +kernel⟩

theorem test_SuppliesAndResetsComplete_5 : ∃ (s : State),
    s.mode ≠ MD.dark ∧
    s.pkg.rstWait = none :=
  ⟨inMode 4, by decide +kernel⟩

theorem test_SuppliesAndResetsComplete_6 : ∃ (s : State),
    s.mode ≠ MD.dark ∧
    s.pkg.rstWait = none :=
  ⟨inMode 4, by decide +kernel⟩

theorem test_SuppliesAndResetsComplete_7 : ∃ (s : State),
    s.mode ≠ MD.dark :=
  ⟨inMode 4, by decide +kernel⟩

theorem test_SuppliesAndResetsComplete_8 : ∃ (s : State) (w : RstWait),
    s.pkg.rstWait = some w :=
  ⟨R.pk (fun p => { p with rstWait := some .warm }), .warm, by decide +kernel⟩

theorem test_SuppliesAndResetsComplete_9 : ∃ (s : State),
    s.pkg.rstWait = none :=
  ⟨R, by decide +kernel⟩

theorem test_DawnCommandsComplete_1 : ∃ (s : State) (m : Fin 16),
    s.pkg.srWait.contains m.val = true :=
  ⟨R.pk (fun p => { p with srWait := [15] }), 15, by decide +kernel⟩

theorem test_DawnCommandsComplete_2 : ∃ (s : State) (m : Fin 16),
    s.pkg.srWait.contains m.val = true :=
  ⟨R.pk (fun p => { p with srWait := [15] }), 15, by decide +kernel⟩

theorem test_DawnCommandsComplete_3 : ∃ (s : State),
    s.mode = MD.dawn ∧
    s.pkg.loaded = false ∧
    s.pkg.rstWait = none ∧
    s.pkg.supplies = true ∧
    s.pkg.coldPin = false ∧
    s.pkg.warmPin = false :=
  ⟨(inMode 1).pk (fun p => { p with supplies := true }), by decide +kernel⟩

theorem test_DawnCommandsComplete_4 : ∃ (s : State),
    s.pkg.supplies = true :=
  ⟨R.pk (fun p => { p with supplies := true }), by decide +kernel⟩

theorem test_DawnCommandsComplete_5 : ∃ (s : State) (c : Clock) (expect : Nat) (edges : Nat),
    s.mode ≠ MD.dark ∧
    (s.mode = MD.midnight → c = .aon) ∧
    (s.mode = MD.bufferStop → clockStays (clockCode c).1 = true) ∧
    100 * (expect - edges) ≤ expect ∧
    100 * (edges - expect) ≤ expect :=
  ⟨inMode 4, .cclk 11, 1000, 990, by decide +kernel⟩

theorem test_DawnCommandsComplete_6 : ∃ (s : State) (c : Clock) (expect : Nat) (edges : Nat),
    s.mode ≠ MD.dark ∧
    (s.mode = MD.midnight → c = .aon) ∧
    (s.mode = MD.bufferStop → clockStays (clockCode c).1 = true) ∧
    Tab.get 0 s.pkg.good (clockKey c) < 4 ∧
    (5 * expect < 100 * (expect - edges) ∨ 5 * expect < 100 * (edges - expect)) :=
  ⟨inMode 4, .aon, 1000, 949, by decide +kernel⟩

theorem test_DawnCommandsComplete_7 : ∃ (s : State),
    s.mode ≠ MD.dark ∧
    4 ≤ Tab.get 0 s.pkg.good (clockKey .aon) :=
  ⟨(inMode 4).pk (fun p => { p with good := [(clockKey .aon, 4)] }), by decide +kernel⟩

theorem test_DawnCommandsComplete_8 : ∃ (s : State) (x : Release),
    x.coldLow = false ∧
    x.warmLow = false ∧
    (x.dom = .aon ∨ x.dom = .dbg) ∧
    s.pkg.held.contains x.dom = true ∧
    s.pkg.rstWait = none ∧
    s.pkg.supplies = true ∧
    s.pkg.testEn = false :=
  ⟨R.pk (fun p => { p with supplies := true, held := [.aon] }), ⟨.aon, false, false⟩, by decide +kernel⟩

theorem test_DawnCommandsComplete_9 : ∃ (s : State) (x : Release),
    x.coldLow = false ∧
    x.warmLow = false ∧
    (x.dom = .iso ∨ x.dom = .sens) ∧
    s.pkg.held.contains x.dom = true ∧
    s.pkg.rstWait = none ∧
    s.pkg.supplies = true ∧
    s.pkg.testEn = false ∧
    s.clkGood F.RCC_CLK_STATUS_PLL_LOCK = true ∧
    s.clkGood F.RCC_CLK_STATUS_FCLK_GOOD = true ∧
    s.clkGood F.RCC_CLK_STATUS_SCLK_GOOD = true :=
  ⟨clocked R, ⟨.sens, false, false⟩, by decide +kernel⟩

theorem test_DawnCommandsComplete_10 : ∃ (s : State),
    s.pkg.held.contains .base = true ∧
    s.pkg.rstWait = none ∧
    s.pkg.supplies = true ∧
    s.pkg.testEn = false ∧
    s.clkGood F.RCC_CLK_STATUS_PLL_LOCK = true ∧
    s.clkGood F.RCC_CLK_STATUS_FCLK_GOOD = true ∧
    s.clkGood F.RCC_CLK_STATUS_SCLK_GOOD = true ∧
    s.mode = MD.dawn ∧
    s.pkg.loaded = true ∧
    s.pkg.held.contains .sens = false ∧
    s.pkg.held.contains .iso = false :=
  ⟨(clocked (inMode 1)).pk (fun p => { p with loaded := true, held := [.base] }), by decide +kernel⟩

theorem test_DawnCommandsComplete_11 : ∃ (s : State),
    s.pkg.held.contains .port = true ∧
    s.pkg.rstWait = none ∧
    s.pkg.supplies = true ∧
    s.pkg.testEn = false ∧
    s.clkGood F.RCC_CLK_STATUS_PLL_LOCK = true ∧
    s.clkGood F.RCC_CLK_STATUS_FCLK_GOOD = true ∧
    s.clkGood F.RCC_CLK_STATUS_SCLK_GOOD = true ∧
    s.mode = MD.dawn ∧
    s.pkg.held.contains .base = false ∧
    s.pkg.warmup = false ∧
    s.tooCold = false :=
  ⟨(clocked (inMode 1)).pk (fun p => { p with held := [.port] }), by decide +kernel⟩

theorem test_DawnCommandsComplete_12 : ∃ (s : State),
    s.pkg.held.contains .mem = true ∧
    s.pkg.rstWait = none ∧
    s.pkg.supplies = true ∧
    s.pkg.testEn = false ∧
    s.clkGood F.RCC_CLK_STATUS_PLL_LOCK = true ∧
    s.clkGood F.RCC_CLK_STATUS_FCLK_GOOD = true ∧
    s.clkGood F.RCC_CLK_STATUS_SCLK_GOOD = true ∧
    s.clkGood F.RCC_CLK_STATUS_MCLK_GOOD = true ∧
    s.mode = MD.dawn ∧
    s.pkg.held.contains .port = false ∧
    s.pkg.srWait = [] :=
  ⟨(clocked (inMode 1)).pk (fun p => { p with held := [.mem] }), by decide +kernel⟩

theorem test_DawnCommandsComplete_13 : ∃ (s : State) (i : Fin 12),
    s.pkg.held.contains (.die i) = true ∧
    s.pkg.rstWait = none ∧
    s.pkg.supplies = true ∧
    s.pkg.testEn = false ∧
    (s.mode = MD.mainline ∨ s.mode = MD.dusk) ∧
    s.dieMayRun i = true ∧
    s.dieClocks i = true :=
  ⟨lastDie (inMode 4), 11, by decide +kernel⟩

theorem test_DawnCommandsComplete_14 : ∃ (s : State) (c : Fin 36),
    s.pkg.held.contains (.clu c) = true ∧
    s.pkg.rstWait = none ∧
    s.pkg.supplies = true ∧
    s.pkg.testEn = false ∧
    (s.mode = MD.mainline ∨ s.mode = MD.dusk) ∧
    s.dieMayRun (c / 3) = true ∧
    s.dieClocks (c / 3) = true ∧
    s.fenced (nthD clusterStops c 0) 2 = false :=
  ⟨lastDie (inMode 5), 35, by decide +kernel⟩

theorem test_DawnCommandsComplete_15 : ∃ (s : State) (h : Fin 216),
    (s.hart h).held = true ∧
    s.hartMayRun h = true :=
  ⟨(lastDie (inMode 4)).pk (fun p => { p with held := [] }), 215, by decide +kernel⟩

theorem test_DawnCommandsComplete_16 : ∃ (s : State) (temps : List Int),
    s.pkg.warmup = true ∧
    (s.readSensors temps).tooCold = false :=
  ⟨R.pk (fun p => { p with warmup := true }), List.replicate 148 (-640), by decide +kernel⟩

theorem test_DawnCommandsComplete_17 : ∃ (s : State),
    s.pkg.warmup = true :=
  ⟨R.pk (fun p => { p with warmup := true }), by decide +kernel⟩

theorem test_MorningAndDepotComplete_1 : ∃ (s : State) (dimms : List (Option Dimm)),
    s.mode = MD.morning ∧
    populationOk dimms = true :=
  ⟨inMode 2, (List.replicate 16 (some ⟨false, 4, 32, 1, 6400, true, true⟩)), by decide +kernel⟩

theorem test_MorningAndDepotComplete_2 : ∃ (s : State) (dimms : List (Option Dimm)),
    s.mode = MD.morning ∧
    populationOk dimms = false :=
  ⟨inMode 2, [], by decide +kernel⟩

theorem test_MorningAndDepotComplete_3 : ∃ (s : State),
    s.mode = MD.morning ∧
    s.populated ≠ [] ∧
    (∀ m ∈ s.populated, s.rd (Reg.MCH_STATUS m) F.MCH_STATUS_STATE = 2 ∨ s.rd (Reg.MCH_STATUS m) F.MCH_STATUS_STATE = 3) :=
  ⟨(inMode 2).wrs (Reg.MCH_STATUS 15) [(F.MCH_STATUS_KIND, 1), (F.MCH_STATUS_STATE, 2)], by decide +kernel⟩

theorem test_MorningAndDepotComplete_4 : ∃ (s : State),
    s.mode = MD.depot ∧
    s.pkg.authed = false :=
  ⟨inMode 3, by decide +kernel⟩

theorem test_MorningAndDepotComplete_5 : ∃ (s : State),
    s.mode = MD.depot :=
  ⟨inMode 3, by decide +kernel⟩

theorem test_MorningAndDepotComplete_6 : ∃ (s : State),
    s.mode = MD.depot :=
  ⟨inMode 3, by decide +kernel⟩

theorem test_MorningAndDepotComplete_7 : ∃ (s : State) (fails : List (Fin 12)),
    s.mode = MD.depot ∧
    ((s.forAll 12 (fun d s => s.siteTested fails d)).showSteps).pairingBad = false ∧
    (below 12 (fun d => ((s.forAll 12 (fun d s => s.siteTested fails d)).showSteps).dieState d == 1)).isEmpty = false :=
  ⟨(inMode 3).pk (fun p => { p with dies := [(0, some ⟨0, 0, 1⟩)] }), [], by decide +kernel⟩

theorem test_MorningAndDepotComplete_8 : ∃ (s : State) (fails : List (Fin 12)),
    s.mode = MD.depot ∧
    ((s.forAll 12 (fun d s => s.siteTested fails d)).showSteps).pairingBad = true :=
  ⟨(inMode 3).pk (fun p => { p with dies := [(0, some ⟨12, 0, 1⟩)] }), [], by decide +kernel⟩

theorem test_MorningAndDepotComplete_9 : ∃ (s : State),
    s.mode = MD.depot ∧
    s.pkg.authed = true ∧
    s.pkg.selfTest = true ∧
    s.on Reg.PKG_FEATURE F.PKG_FEATURE_VALID = true ∧
    s.rdW Reg.PKG_DIE_ACTIVE ≠ 0 :=
  ⟨(((inMode 3).wr Reg.PKG_FEATURE F.PKG_FEATURE_VALID 1).wrW Reg.PKG_DIE_ACTIVE 1).pk (fun p => { p with authed := true, selfTest := true }), by decide +kernel⟩

theorem test_DebugResetsAndWatchdogComplete_2 : ∃ (s : State),
    s.rd Reg.RCC_DBG_RST F.RCC_DBG_RST_NDM_REACH = 0 ∧
    s.invasive .s = true ∧
    s.invasive .n = true ∧
    s.mode ≠ MD.dark ∧
    s.pkg.rstWait = none :=
  ⟨((inMode 4).wrs Reg.ISO_DBG [(F.ISO_DBG_S_INV, 1), (F.ISO_DBG_N_INV, 1)]), by decide +kernel⟩

theorem test_DebugResetsAndWatchdogComplete_3 : ∃ (s : State) (d : Fin 12),
    s.rd Reg.RCC_DBG_RST F.RCC_DBG_RST_NDM_REACH = 1 ∧
    s.rd Reg.RCC_DBG_RST F.RCC_DBG_RST_NDM_INDEX = d.val ∧
    s.dieActive d = true ∧
    s.invasive (s.ownerOf (dieUnits d)) = true :=
  ⟨((active (invaded (inMode 4))).wrs Reg.RCC_DBG_RST [(F.RCC_DBG_RST_NDM_REACH, 1), (F.RCC_DBG_RST_NDM_INDEX, 11)]), 11, by decide +kernel⟩

theorem test_DebugResetsAndWatchdogComplete_4 : ∃ (s : State) (c : Fin 36),
    s.rd Reg.RCC_DBG_RST F.RCC_DBG_RST_NDM_REACH = 2 ∧
    s.rd Reg.RCC_DBG_RST F.RCC_DBG_RST_NDM_INDEX = c.val ∧
    s.dieActive (c / 3) = true ∧
    s.invasive (s.ownerOf [c.val]) = true :=
  ⟨((active (invaded (inMode 4))).wrs Reg.RCC_DBG_RST [(F.RCC_DBG_RST_NDM_REACH, 2), (F.RCC_DBG_RST_NDM_INDEX, 35)]), 35, by decide +kernel⟩

theorem test_DebugResetsAndWatchdogComplete_5 : ∃ (s : State),
    (s.rd Reg.RCC_DBG_RST F.RCC_DBG_RST_NDM_REACH = 3 ∨ (s.invasive .s = false ∧ s.invasive .n = false)) :=
  ⟨inMode 4, by decide +kernel⟩

theorem test_DebugResetsAndWatchdogComplete_8 : ∃ (s : State) (h : Fin 216),
    s.pkg.hartRst.contains h.val = true ∧
    (s.pk (fun p => { p with hartRst := p.hartRst.filter (· != h.val) })).hartMayRun h = true :=
  ⟨(lastDie (active (inMode 4))).pk (fun p => { p with hartRst := [215], held := [] }), 215, by decide +kernel⟩

theorem test_DebugResetsAndWatchdogComplete_9 : ∃ (s : State),
    s.wdogRuns = true ∧
    s.pkg.wdogHalf = false :=
  ⟨((inMode 4).wr Reg.RCC_WDOG F.RCC_WDOG_EN 1), by decide +kernel⟩

theorem test_DebugResetsAndWatchdogComplete_10 : ∃ (s : State),
    s.pkg.wdogHalf = true :=
  ⟨R.pk (fun p => { p with wdogHalf := true }), by decide +kernel⟩

theorem test_DebugResetsAndWatchdogComplete_11 : ∃ (s : State),
    s.wdogRuns = true ∧
    s.pkg.wdogHalf = true ∧
    s.pkg.rstWait = none :=
  ⟨((inMode 4).wr Reg.RCC_WDOG F.RCC_WDOG_EN 1).pk (fun p => { p with wdogHalf := true }), by decide +kernel⟩

theorem test_DebugResetsAndWatchdogComplete_12 : ∃ (s : State),
    s.mode ∈ [MD.depot, MD.mainline, MD.dusk, MD.night, MD.workshop] ∧
    s.on Reg.PMC_TRIP F.PMC_TRIP_VALID = false :=
  ⟨inMode 0xA, by decide +kernel⟩

theorem test_DebugResetsAndWatchdogComplete_13 : ∃ (s : State),
    (s.mode = MD.dawn ∨ s.mode = MD.morning) ∧
    s.on Reg.PMC_TRIP F.PMC_TRIP_VALID = false :=
  ⟨inMode MD.dawn, by decide +kernel⟩

theorem test_DebugResetsAndWatchdogComplete_14 : ∃ (s : State),
    s.mode ∈ [MD.siding, MD.caution, MD.bufferStop, MD.midnight] ∧
    s.on Reg.PMC_TRIP F.PMC_TRIP_VALID = false :=
  ⟨inMode 9, by decide +kernel⟩

theorem test_DebugResetsAndWatchdogComplete_15 : ∃ (s : State),
    s.mode ≠ MD.dark ∧
    s.on Reg.PMC_TRIP F.PMC_TRIP_VALID = true :=
  ⟨(inMode 4).wr Reg.PMC_TRIP F.PMC_TRIP_VALID 1, by decide +kernel⟩

theorem test_DebugResetsAndWatchdogComplete_16 : ∃ (s : State) (n : Nat),
    s.pkg.held.contains .sens = false ∧
    (s.pkg.restartDue = false ∨ s.mode ≠ MD.siding) ∧
    n < 148 :=
  ⟨(inMode 4).pk (fun p => { p with held := [] }), 147, by decide +kernel⟩

theorem test_DebugResetsAndWatchdogComplete_17 : ∃ (s : State) (d : Fin 12) (e : Fin 12),
    s.dieActive d = true ∧
    e ≠ d ∧
    s.dieActive e = true :=
  ⟨(inMode 4).wrW Reg.PKG_DIE_ACTIVE 0xFFF, 11, 0, by decide +kernel⟩

theorem test_DebugResetsAndWatchdogComplete_18 : ∃ (s : State) (d : Fin 12),
    s.rdW Reg.PKG_DIE_ACTIVE = BitVec.ofNat 64 (2 ^ d.val) ∧
    s.mode ∈ [MD.mainline, MD.dusk, MD.night] :=
  ⟨(inMode 4).wrW Reg.PKG_DIE_ACTIVE 0x800, 11, by decide +kernel⟩

theorem test_DebugResetsAndWatchdogComplete_19 : ∃ (s : State) (d : Fin 12),
    s.dieActive d = false :=
  ⟨R, 11, by decide +kernel⟩

theorem test_DebugResetsAndWatchdogComplete_20 : ∃ (s : State) (d : Fin 12) (x : DieSite),
    (s.dieState d = 3 ∨ (s.dieState d = 2 ∧ s.mode = MD.workshop)) ∧
    (s.pk (fun p => { p with dies := Tab.put none p.dies d (some x) })).strapFault d = false ∧
    cdLevel x.stepping ≠ 0 ∧
    s.lowersLevel x = false :=
  ⟨(inMode 4).wr (Reg.PKG_DIE_INFO 11) F.PKG_DIE_INFO_STATE 3, 11, ⟨11, 3, 1⟩, by decide +kernel⟩

theorem test_DebugResetsAndWatchdogComplete_21 : ∃ (s : State) (d : Fin 12) (x : DieSite) (pass : Bool),
    (s.dieState d = 3 ∨ (s.dieState d = 2 ∧ s.mode = MD.workshop)) ∧
    (pass = false ∨ (s.pk (fun p => { p with dies := Tab.put none p.dies d (some x) })).strapFault d = true ∨ cdLevel x.stepping = 0 ∨ s.lowersLevel x = true) :=
  ⟨R.wr (Reg.PKG_DIE_INFO 11) F.PKG_DIE_INFO_STATE 3, 11, ⟨12, 0, 1⟩, true, by decide +kernel⟩

theorem test_ModeOrdersComplete_1 : ∃ (s : State),
    s.rd (Reg.PKG_MODE_REQ 0) F.PKG_MODE_REQ_STATUS ≠ OS.pending :=
  ⟨inMode 4, by decide +kernel⟩

theorem test_ModeOrdersComplete_2 : ∃ (s : State) (m : Fin 2) (who : Ident),
    s.reqReach 1 m who = false :=
  ⟨inMode 4, 1, monitor, by decide +kernel⟩

theorem test_ModeOrdersComplete_3 : ∃ (s : State),
    s.moving = false ∧
    s.pkg.orders = [⟨1, monitor, s.mode⟩] ∧
    s.pkg.powers = [] ∧
    s.mode = MD.mainline :=
  ⟨(inMode 4).pk (fun p => { p with orders := [⟨1, monitor, 4⟩] }), by decide +kernel⟩

theorem test_ModeOrdersComplete_4 : ∃ (s : State),
    s.moving = true :=
  ⟨(R.wrs Reg.PKG_MODE [(F.PKG_MODE_CURRENT, 4), (F.PKG_MODE_MOVING, 1), (F.PKG_MODE_TARGET, 5)]), by decide +kernel⟩

theorem test_ModeOrdersComplete_5 : ∃ (s : State),
    s.moving = false ∧
    s.pkg.orders = [⟨2, monitor, MD.dusk⟩] ∧
    s.pkg.powers = [] ∧
    s.mode = MD.mainline :=
  ⟨(inMode 4).pk (fun p => { p with orders := [⟨2, monitor, 5⟩] }), by decide +kernel⟩

theorem test_ModeOrdersComplete_6 : ∃ (s : State),
    s.moving = false ∧
    s.pkg.orders = [⟨2, monitor, MD.workshop⟩] ∧
    s.pkg.powers = [] ∧
    s.mode = MD.mainline :=
  ⟨(inMode 4).pk (fun p => { p with orders := [⟨2, monitor, 10⟩] }), by decide +kernel⟩

theorem test_ModeOrdersComplete_7 : ∃ (s : State),
    s.moving = false ∧
    s.pkg.orders = [⟨1, monitor, MD.workshop⟩] ∧
    s.mode = MD.siding ∧
    s.anyAt allSensors 115 = false :=
  ⟨(inMode 9).pk (fun p => { p with orders := [⟨1, monitor, 10⟩] }), by decide +kernel⟩

theorem test_ModeOrdersComplete_8 : ∃ (s : State) (l : LowWait),
    s.lowFor MD.dusk = some l ∧
    s.mode = MD.mainline ∧
    s.moving = false ∧
    s.lowReady MD.dusk = true :=
  ⟨(inMode 4).pk (fun p => { p with lows := [⟨5, [2]⟩] }), ⟨5, [2]⟩, by decide +kernel⟩

theorem test_ModeOrdersComplete_9 : ∃ (s : State) (l : LowWait),
    s.lowFor MD.night = some l ∧
    s.mode = MD.mainline ∧
    s.moving = false ∧
    s.lowReady MD.night = true :=
  ⟨(inMode 4).pk (fun p => { p with lows := [⟨6, [2]⟩] }), ⟨6, [2]⟩, by decide +kernel⟩

theorem test_ModeOrdersComplete_10 : ∃ (s : State) (target : Nat) (l : LowWait),
    s.lowFor target = some l ∧
    s.moving = false :=
  ⟨(inMode 4).pk (fun p => { p with lows := [⟨7, [2]⟩] }), 7, ⟨7, [2]⟩, by decide +kernel⟩

theorem test_ModeOrdersComplete_11 : ∃ (s : State) (target : Nat),
    s.pkg.lows = [⟨target, [2]⟩] ∧
    s.moving = false :=
  ⟨(inMode 4).pk (fun p => { p with lows := [⟨6, [2]⟩] }), 6, by decide +kernel⟩

theorem test_ModeOrdersComplete_12 : ∃ (s : State),
    s.mode = MD.dusk ∧
    s.moving = false :=
  ⟨inMode 5, by decide +kernel⟩

theorem test_ModeOrdersComplete_13 : ∃ (s : State),
    s.mode = MD.night ∧
    s.moving = false ∧
    s.pkg.wakeHeld = true :=
  ⟨(inMode 6).pk (fun p => { p with wakeHeld := true }), by decide +kernel⟩

theorem test_ModeOrdersComplete_14 : ∃ (s : State),
    s.mode = MD.midnight ∧
    s.moving = false ∧
    s.pkg.wakeHeld = true ∧
    s.sensor 96 < 1840 :=
  ⟨(inMode 7).pk (fun p => { p with wakeHeld := true }), by decide +kernel⟩

theorem test_ModeOrdersComplete_15 : ∃ (s : State),
    s.moving = true ∧
    s.rd Reg.PKG_MODE F.PKG_MODE_TARGET = MD.dusk :=
  ⟨(R.wrs Reg.PKG_MODE [(F.PKG_MODE_CURRENT, 4), (F.PKG_MODE_MOVING, 1), (F.PKG_MODE_TARGET, 5)]), by decide +kernel⟩

theorem test_ModeOrdersComplete_16 : ∃ (s : State),
    s.moving = true ∧
    s.rd Reg.PKG_MODE F.PKG_MODE_TARGET = MD.dusk ∧
    s.pkg.lows = [⟨MD.dusk, [2]⟩] :=
  ⟨(R.wrs Reg.PKG_MODE [(F.PKG_MODE_CURRENT, 4), (F.PKG_MODE_MOVING, 1), (F.PKG_MODE_TARGET, 5)]).pk (fun p => { p with lows := [⟨5, [2]⟩] }), by decide +kernel⟩

theorem test_PowerRequestsComplete_1 : ∃ (s : State) (v : Nat),
    s.rd (Reg.PWR_REQ 0) F.PWR_REQ_STATUS ≠ OS.pending ∧
    450 ≤ v ∧
    v ≤ 850 :=
  ⟨inMode 4, 850, by decide +kernel⟩

theorem test_PowerRequestsComplete_2 : ∃ (s : State) (d : Nat) (v : Nat),
    s.rd (Reg.PWR_REQ 0) F.PWR_REQ_STATUS ≠ OS.pending ∧
    d < 12 ∧
    v < 8 :=
  ⟨inMode 4, 11, 7, by decide +kernel⟩

theorem test_PowerRequestsComplete_3 : ∃ (s : State) (u : Nat),
    s.rd (Reg.PWR_REQ 0) F.PWR_REQ_STATUS ≠ OS.pending ∧
    u < 72 :=
  ⟨inMode 4, 71, by decide +kernel⟩

theorem test_PowerRequestsComplete_4 : ∃ (s : State) (u : Nat),
    s.rd (Reg.PWR_REQ 0) F.PWR_REQ_STATUS ≠ OS.pending ∧
    u < 72 :=
  ⟨inMode 4, 71, by decide +kernel⟩

theorem test_PowerRequestsComplete_5 : ∃ (s : State) (u : Nat),
    s.rd (Reg.PWR_REQ 0) F.PWR_REQ_STATUS ≠ OS.pending ∧
    (u < 72 ∨ (88 ≤ u ∧ u ≤ 105)) :=
  ⟨inMode 4, 105, by decide +kernel⟩

theorem test_PowerRequestsComplete_6 : ∃ (s : State) (u : Nat),
    s.rd (Reg.PWR_REQ 0) F.PWR_REQ_STATUS ≠ OS.pending ∧
    (u < 72 ∨ (88 ≤ u ∧ u ≤ 105)) :=
  ⟨inMode 4, 88, by decide +kernel⟩

theorem test_PowerRequestsComplete_7 : ∃ (s : State) (u : Nat) (v : Nat),
    s.rd (Reg.PWR_REQ 0) F.PWR_REQ_STATUS ≠ OS.pending ∧
    72 ≤ u ∧
    u ≤ 87 ∧
    v < 2 :=
  ⟨inMode 4, 87, 1, by decide +kernel⟩

theorem test_PowerRequestsComplete_8 : ∃ (s : State) (h : Fin 216),
    s.rd (Reg.RCC_RST_REQ 0) F.RCC_RST_REQ_STATUS ≠ OS.pending ∧
    s.resetUnitOk 1 h = true :=
  ⟨(inMode 4).wrW Reg.PKG_DIE_ACTIVE 0xFFF, 215, by decide +kernel⟩

theorem test_PowerRequestsComplete_9 : ∃ (s : State) (c : Fin 36),
    s.rd (Reg.RCC_RST_REQ 0) F.RCC_RST_REQ_STATUS ≠ OS.pending ∧
    s.resetUnitOk 2 c = true :=
  ⟨(inMode 4).wrW Reg.PKG_DIE_ACTIVE 0xFFF, 35, by decide +kernel⟩

theorem test_PowerRequestsComplete_10 : ∃ (s : State) (d : Fin 12) (e : Fin 12),
    s.rd (Reg.RCC_RST_REQ 0) F.RCC_RST_REQ_STATUS ≠ OS.pending ∧
    s.dieActive d = true ∧
    e ≠ d ∧
    s.dieActive e = true :=
  ⟨(inMode 4).wrW Reg.PKG_DIE_ACTIVE 0xFFF, 11, 0, by decide +kernel⟩

theorem test_PowerRequestsComplete_11 : ∃ (s : State) (c : Fin 36),
    s.pkg.rsts.find? (fun r => r.2 == (2, c.val)) = some (0, 2, c.val) ∧
    s.clusterDrained c = true :=
  ⟨(inMode 4).wrW Reg.PKG_DIE_ACTIVE 0xFFF |>.pk (fun p => { p with rsts := [(0, 2, 35)] }), 35, by decide +kernel⟩

theorem test_OperatingPointsComplete_1 : ∃ (s : State) (d : Fin 12),
    s.dieActive d = true ∧
    s.anyAt (dieSensors d) 120 = true ∧
    s.rd (Reg.PWR_DIE d) F.PWR_DIE_THROTTLE ≠ 0 :=
  ⟨((inMode 4).wrW Reg.PKG_DIE_ACTIVE 0xFFF |>.readSensors (List.replicate 148 1920)).wr (Reg.PWR_DIE 11) F.PWR_DIE_THROTTLE 1, 11, by decide +kernel⟩

theorem test_OperatingPointsComplete_2 : ∃ (s : State) (d : Fin 12),
    s.dieActive d = true ∧
    s.anyAt (dieSensors d) 120 = true ∧
    s.rd (Reg.PWR_DIE d) F.PWR_DIE_THROTTLE = 0 :=
  ⟨(active R).readSensors (List.replicate 148 1920), 11, by decide +kernel⟩

theorem test_OperatingPointsComplete_3 : ∃ (s : State) (d : Fin 12),
    (s.dieActive d = false ∨ s.anyAt (dieSensors d) 120 = false) :=
  ⟨R, 11, by decide +kernel⟩

theorem test_OperatingPointsComplete_4 : ∃ (s : State) (d : Fin 12),
    s.dieActive d = true ∧
    s.anyAt (dieSensors d) 117 = false :=
  ⟨(inMode 4).wrW Reg.PKG_DIE_ACTIVE 0xFFF, 11, by decide +kernel⟩

theorem test_OperatingPointsComplete_5 : ∃ (uncore : Nat) (total : Nat),
    uncore < 4096 ∧
    total < 4096 :=
  ⟨4095, 4095, by decide +kernel⟩

theorem test_OperatingPointsComplete_6 : ∃ (s : State) (d : Fin 12) (demand : Nat),
    s.dieActive d = true ∧
    demand + 4 ≤ s.rd (Reg.PWR_DIE d) F.PWR_DIE_GRANT :=
  ⟨((inMode 4).wrW Reg.PKG_DIE_ACTIVE 0xFFF).wr (Reg.PWR_DIE 11) F.PWR_DIE_GRANT 100, 11, 96, by decide +kernel⟩

theorem test_OperatingPointsComplete_7 : ∃ (s : State) (d : Fin 12) (demand : Nat),
    s.dieActive d = true ∧
    s.rd (Reg.PWR_DIE d) F.PWR_DIE_GRANT < demand + 4 :=
  ⟨active R, 11, 255, by decide +kernel⟩

theorem test_OperatingPointsComplete_8 : ∃ (s : State) (d : Fin 12) (g : Nat),
    Tab.look s.pkg.grants d = some g ∧
    g ≤ 248 :=
  ⟨(inMode 4).pk (fun p => { p with grants := [(11, 248)] }), 11, 248, by decide +kernel⟩

theorem test_OperatingPointsComplete_9 : ∃ (s : State) (d : Fin 12),
    s.on (Reg.RCC_CCLK d) F.RCC_CCLK_MOVING = true :=
  ⟨(inMode 4).wr (Reg.RCC_CCLK 11) F.RCC_CCLK_MOVING 1, 11, by decide +kernel⟩

theorem test_OperatingPointsComplete_10 : ∃ (s : State) (d : Fin 12) (mean : Nat),
    s.dieActive d = true ∧
    s.rd (Reg.PWR_DIE d) F.PWR_DIE_GRANT < mean :=
  ⟨((inMode 4).wrW Reg.PKG_DIE_ACTIVE 0xFFF).wr (Reg.PWR_DIE 11) F.PWR_DIE_GRANT 100, 11, 101, by decide +kernel⟩

theorem test_OperatingPointsComplete_11 : ∃ (s : State) (d : Fin 12) (mean : Nat),
    mean ≤ s.rd (Reg.PWR_DIE d) F.PWR_DIE_GRANT :=
  ⟨R, 11, 0, by decide +kernel⟩

theorem test_OperatingPointsComplete_12 : ∃ (s : State) (mean : Nat),
    (3400 < mean ∨ (s.on Reg.PWR_PKG F.PWR_PKG_LIMITING = true ∧ 3360 ≤ mean)) :=
  ⟨R, 3401, by decide +kernel⟩

theorem test_OperatingPointsComplete_13 : ∃ (s : State) (mean : Nat),
    mean ≤ 3400 ∧
    (s.on Reg.PWR_PKG F.PWR_PKG_LIMITING = false ∨ mean < 3360) :=
  ⟨R.wr Reg.PWR_PKG F.PWR_PKG_LIMITING 1, 3359, by decide +kernel⟩

theorem test_OperatingPointsComplete_14 : ∃ (s : State) (u : Nat) (m : UnitMove),
    u < 106 ∧
    s.pkg.moves.find? (fun m => m.unit == u && !m.up) = some m ∧
    s.unitDrained u = true :=
  ⟨((inMode 4).wrs (Reg.RTR_FENCE 28) [(F.RTR_FENCE_AGENTS, 2 ^ 16 - 1), (F.RTR_FENCE_DRAINED, 2 ^ 16 - 1)]).wrs (Reg.RTR_FENCE 35) [(F.RTR_FENCE_AGENTS, 2 ^ 16 - 1), (F.RTR_FENCE_DRAINED, 2 ^ 16 - 1)] |>.pk (fun p => { p with moves := [⟨105, false, [2]⟩] }), 105, ⟨105, false, [2]⟩, by decide +kernel⟩

theorem test_OperatingPointsComplete_15 : ∃ (s : State) (u : Nat) (m : UnitMove),
    u < 106 ∧
    s.pkg.moves.find? (fun m => m.unit == u && m.up) = some m :=
  ⟨(inMode 4).pk (fun p => { p with moves := [⟨105, true, [2]⟩] }), 105, ⟨105, true, [2]⟩, by decide +kernel⟩

theorem test_OperatingPointsComplete_16 : ∃ (s : State) (u : Nat) (m : UnitMove),
    u < 72 ∧
    s.pkg.moves.find? (fun m => m.unit == u && !m.up) = some m :=
  ⟨R.pk (fun p => { p with moves := [⟨71, false, [1]⟩] }), 71, ⟨71, false, [1]⟩, by decide +kernel⟩

theorem test_OperatingPointsComplete_17 : ∃ (s : State) (u : Nat) (m : UnitMove),
    88 ≤ u ∧
    u < 102 ∧
    s.pkg.moves.find? (fun m => m.unit == u && !m.up) = some m :=
  ⟨R.pk (fun p => { p with moves := [⟨101, false, [1]⟩] }), 101, ⟨101, false, [1]⟩, by decide +kernel⟩

theorem test_OperatingPointsComplete_18 : ∃ (s : State) (u : Nat) (m : UnitMove),
    102 ≤ u ∧
    u < 106 ∧
    s.pkg.moves.find? (fun m => m.unit == u && !m.up) = some m :=
  ⟨(inMode 4).pk (fun p => { p with moves := [⟨105, false, [2]⟩] }), 105, ⟨105, false, [2]⟩, by decide +kernel⟩

theorem test_OperatingPointsComplete_19 : ∃ (s : State) (m : Fin 16),
    (∀ w ∈ s.wq, s.paKind (128 * w.ln) = .dram → s.chanOf (128 * w.ln) ≠ m.val) ∧
    s.on (Reg.PWR_UNIT (72 + m)) F.PWR_UNIT_IDLE_SR = true ∧
    s.rd (Reg.MCH_STATUS m) F.MCH_STATUS_STATE = 3 :=
  ⟨((inMode 4).wr (Reg.PWR_UNIT (72 + 15)) F.PWR_UNIT_IDLE_SR 1).wr (Reg.MCH_STATUS 15) F.MCH_STATUS_STATE 3, 15, by decide +kernel⟩

theorem test_WakeSourcesComplete_1 : ∃ (s : State),
    bitAt (s.rdW Reg.PWR_WAKE_EN).toNat 0 = true :=
  ⟨(R.wrW Reg.PWR_WAKE_EN 0x1FF).wrs Reg.PKG_MODE [(F.PKG_MODE_CURRENT, 7), (F.PKG_MODE_TARGET, 6)], by decide +kernel⟩

theorem test_WakeSourcesComplete_2 : ∃ (s : State) (low : Bool),
    (low = false ∨ bitAt (s.rdW Reg.PWR_WAKE_EN).toNat 0 = false) :=
  ⟨R.wrW Reg.PWR_WAKE_EN 0, true, by decide +kernel⟩

theorem test_WakeSourcesComplete_3 : ∃ (s : State) (p : Fin 4),
    bitAt (s.rdW Reg.PWR_WAKE_EN).toNat (1 + p) = true :=
  ⟨(R.wrW Reg.PWR_WAKE_EN 0x1FF).wrs Reg.PKG_MODE [(F.PKG_MODE_CURRENT, 7), (F.PKG_MODE_TARGET, 7)], 3, by decide +kernel⟩

theorem test_WakeSourcesComplete_4 : ∃ (s : State) (p : Fin 4) (low : Bool),
    (low = false ∨ bitAt (s.rdW Reg.PWR_WAKE_EN).toNat (1 + p) = false) :=
  ⟨R.wrW Reg.PWR_WAKE_EN 0, 3, true, by decide +kernel⟩

theorem test_WakeSourcesComplete_5 : ∃ (s : State),
    bitAt (s.rdW Reg.PWR_WAKE_EN).toNat 5 = true ∧
    s.rdW Reg.PWR_RTC_ALARM ≠ 0 ∧
    s.on Reg.PWR_WAKE_FLAG F.PWR_WAKE_FLAG_AON_OSC_FAIL = false :=
  ⟨((R.wrW Reg.PWR_WAKE_EN 0x1FF).wrs Reg.PKG_MODE [(F.PKG_MODE_CURRENT, 7), (F.PKG_MODE_TARGET, 6)]).wrW Reg.PWR_RTC_ALARM 1, by decide +kernel⟩

theorem test_WakeSourcesComplete_6 : ∃ (s : State) (temp : Int),
    bitAt (s.rdW Reg.PWR_WAKE_EN).toNat 6 = true ∧
    (16 * toSigned 8 (s.rd Reg.PWR_WAKE_EN F.PWR_WAKE_EN_THERM_HI) < temp ∨ temp < 16 * toSigned 8 (s.rd Reg.PWR_WAKE_EN F.PWR_WAKE_EN_THERM_LO)) :=
  ⟨(R.wrW Reg.PWR_WAKE_EN 0x1FF).wrs Reg.PKG_MODE [(F.PKG_MODE_CURRENT, 7), (F.PKG_MODE_TARGET, 6)], 5000, by decide +kernel⟩

theorem test_WakeSourcesComplete_7 : ∃ (s : State) (addr : Nat),
    bitAt (s.rdW Reg.PWR_WAKE_EN).toNat 7 = true ∧
    s.mode = MD.midnight ∧
    addr = s.pmc.cmpAddr :=
  ⟨(R.wrW Reg.PWR_WAKE_EN 0x1FF).wrs Reg.PKG_MODE [(F.PKG_MODE_CURRENT, 7), (F.PKG_MODE_TARGET, 7)], 0x2C, by decide +kernel⟩

theorem test_WakeSourcesComplete_8 : ∃ (s : State) (j : Fin 112),
    bitAt (s.rdW Reg.PWR_WAKE_EN).toNat 8 = true ∧
    s.rd Reg.PKG_MODE F.PKG_MODE_TARGET = MD.night ∧
    (s.link j).up = true :=
  ⟨((R.wrW Reg.PWR_WAKE_EN 0x1FF).wrs Reg.PKG_MODE [(F.PKG_MODE_CURRENT, 7), (F.PKG_MODE_TARGET, 6)]).setLink 111 { Link.off with up := true }, 111, by decide +kernel⟩

theorem test_TransactionsComplete_1 : ∃ (s : State) (who : Ident) (w : World),
    ctuReach who w = true ∧
    s.ctu.busy w = false :=
  ⟨R, monitor, .n, by decide +kernel⟩

theorem test_TransactionsComplete_2 : ∃ (s : State) (who : Ident) (w : World) (tag : Nat) (x : Txn),
    ctuReach who w = true ∧
    s.ctu.openOf w = some x ∧
    x.tag = tag % 65536 ∧
    x.full = false ∧
    x.staged ≠ [] ∧
    s.ctu.active = none ∧
    s.ctu.waiting = [] :=
  ⟨{ R with ctu := { Ctu.reset with openS := some ⟨.s, 7, false, [(Reg.ISO_PART_WORLD, (2, 2))], false⟩ } }, monitor, .s, 7, ⟨.s, 7, false, [(Reg.ISO_PART_WORLD, (2, 2))], false⟩, by decide +kernel⟩

theorem test_TransactionsComplete_3 : ∃ (s : State) (who : Ident) (w : World) (tag : Nat) (x : Txn),
    ctuReach who w = true ∧
    s.ctu.openOf w = some x ∧
    x.tag = tag % 65536 ∧
    x.full = false ∧
    x.staged = [] :=
  ⟨{ R with ctu := { Ctu.reset with openS := some ⟨.s, 65535, false, [], false⟩ } }, monitor, .s, 65535, ⟨.s, 65535, false, [], false⟩, by decide +kernel⟩

theorem test_TransactionsComplete_4 : ∃ (s : State) (who : Ident) (w : World) (tag : Nat) (x : Txn),
    ctuReach who w = true ∧
    s.ctu.openOf w = some x ∧
    x.tag = tag % 65536 :=
  ⟨{ R with ctu := { Ctu.reset with openS := some ⟨.s, 7, false, [(Reg.ISO_PART_WORLD, (2, 2))], false⟩ } }, monitor, .s, 7, ⟨.s, 7, false, [(Reg.ISO_PART_WORLD, (2, 2))], false⟩, by decide +kernel⟩

theorem test_TransactionsComplete_5 : ∃ (s : State) (who : Ident) (w : World) (tag : Nat) (x : Txn),
    ctuReach who w = true ∧
    s.ctu.openOf w = none ∧
    s.ctu.active = some x ∧
    s.ctu.applying = false ∧
    x.world = w ∧
    x.implicit = false ∧
    x.tag = tag % 65536 :=
  ⟨{ R with ctu := { Ctu.reset with active := some ⟨.s, 65535, false, [], false⟩ } }, monitor, .s, 65535, ⟨.s, 65535, false, [], false⟩, by decide +kernel⟩

theorem test_TransactionsComplete_6 : ∃ (s : State) (w : World),
    (s.ctu.openOf w).isSome = true :=
  ⟨{ R with ctu := { Ctu.reset with openS := some ⟨.s, 7, false, [(Reg.ISO_PART_WORLD, (2, 2))], false⟩ } }, .s, by decide +kernel⟩

theorem test_TransactionsComplete_7 : ∃ (s : State) (x : Txn) (l : List Txn),
    s.ctu.active = none ∧
    s.ctu.waiting = x :: l :=
  ⟨{ R with ctu := { Ctu.reset with waiting := [⟨.s, 7, false, [(Reg.ISO_PART_WORLD, (2, 2))], false⟩] } }, ⟨.s, 7, false, [(Reg.ISO_PART_WORLD, (2, 2))], false⟩, [], by decide +kernel⟩

theorem test_TransactionsComplete_8 : ∃ (s : State) (x : Txn),
    s.ctu.active = some x ∧
    s.ctu.applying = false ∧
    s.checkFails x = [] :=
  ⟨{ R with ctu := { Ctu.reset with active := some ⟨.s, 7, false, [], false⟩ } }, ⟨.s, 7, false, [], false⟩, by decide +kernel⟩

theorem test_TransactionsComplete_9 : ∃ (s : State) (x : Txn),
    s.ctu.active = some x ∧
    s.ctu.applying = false ∧
    s.checkFails x ≠ [] :=
  ⟨{ R with ctu := { Ctu.reset with active := some ⟨.s, 7, false, [(Reg.ISO_LNK_CFG 111, (2 ^ 63, 2 ^ 63))], false⟩ } }, ⟨.s, 7, false, [(Reg.ISO_LNK_CFG 111, (2 ^ 63, 2 ^ 63))], false⟩, by decide +kernel⟩

theorem test_TransactionsComplete_10 : ∃ (s : State) (b : Block),
    s.ctu.applying = true ∧
    b ∈ s.ctu.todo :=
  ⟨{ R with ctu := { Ctu.reset with active := some ⟨.s, 7, false, [(Reg.ISO_PART_WORLD, (2, 2))], false⟩, applying := true, todo := [.other] } }, .other, by decide +kernel⟩

theorem test_TransactionsComplete_11 : ∃ (s : State) (b : Block) (x : Txn),
    s.ctu.active = some x ∧
    s.ctu.applying = true ∧
    b ∈ s.ctu.sent ∧
    s.quiet b = true :=
  ⟨{ R with ctu := { Ctu.reset with active := some ⟨.s, 7, false, [(Reg.ISO_PART_WORLD, (2, 2))], false⟩, applying := true, sent := [.slice 35] } }, .slice 35, ⟨.s, 7, false, [(Reg.ISO_PART_WORLD, (2, 2))], false⟩, by decide +kernel⟩

theorem test_TransactionsComplete_12 : ∃ (s : State) (n : Fin 36) (x : Txn) (v : Nat),
    s.ctu.active = some x ∧
    s.ctu.applying = true ∧
    .slice n ∈ s.ctu.sent ∧
    s.sliceBusy n = false ∧
    Tab.look x.staged (Reg.SLC_CTRL n) = some (v, 1) :=
  ⟨{ R with ctu := { Ctu.reset with active := some ⟨.s, 0, false, [(Reg.SLC_CTRL 35, (1, 1))], false⟩, applying := true, sent := [.slice 35] } }, 35, ⟨.s, 0, false, [(Reg.SLC_CTRL 35, (1, 1))], false⟩, 1, by decide +kernel⟩

theorem test_TransactionsComplete_13 : ∃ (s : State) (x : Txn),
    s.ctu.active = some x ∧
    s.ctu.applying = true ∧
    s.ctu.todo = [] ∧
    s.ctu.sent = [] ∧
    s.commitSweeps = false :=
  ⟨{ R with ctu := { Ctu.reset with active := some ⟨.s, 7, false, [(Reg.ISO_PART_WORLD, (2, 2))], false⟩, applying := true } }, ⟨.s, 7, false, [(Reg.ISO_PART_WORLD, (2, 2))], false⟩, by decide +kernel⟩

theorem test_SweepsAndNetworkComplete_1 : ∃ (s : State) (n : Fin 64) (r : Hold),
    s.home n = { Home.empty with holds := [r] } ∧
    r.done = false ∧
    r.kind ≤ 1 ∧
    (∀ m ∈ s.net, m.home = n.val → ¬(r.lo ≤ m.ln ∧ m.ln ≤ r.hi)) :=
  ⟨R.setHome 63 { Home.empty with holds := [⟨0, top, 0, 0, false⟩] }, 63, ⟨0, top, 0, 0, false⟩, by decide +kernel⟩

theorem test_SweepsAndNetworkComplete_2 : ∃ (s : State) (n : Fin 64) (r : Hold),
    s.home n = { Home.empty with holds := [r] } ∧
    r.done = false ∧
    (r.kind = 2 ∨ r.kind = 4) :=
  ⟨R.setHome 63 { Home.empty with holds := [⟨0, top, 2, 0, false⟩] }, 63, ⟨0, top, 2, 0, false⟩, by decide +kernel⟩

theorem test_SweepsAndNetworkComplete_3 : ∃ (s : State) (k : Fin 64) (q : Fin 64),
    k ≠ q ∧
    s.routersDone = true ∧
    s.homeQuiet q (fun ln => hashHome (128 * ln) == k.val) = true ∧
    s.home k = { Home.empty with holds := [⟨k.val, q.val, 3, 0, false⟩] } ∧
    s.home q = { Home.empty with holds := [⟨k.val, q.val, 3, 0, false⟩] } :=
  ⟨(R.setHome 63 { Home.empty with holds := [⟨63, 0, 3, 0, false⟩] }).setHome 0 { Home.empty with holds := [⟨63, 0, 3, 0, false⟩] }, 63, 0, by decide +kernel⟩

theorem test_SweepsAndNetworkComplete_4 : ∃ (s : State) (r : Fin 256),
    s.rd (Reg.FW_ATTR r) F.FW_ATTR_FILLING = 1 :=
  ⟨R.wr (Reg.FW_ATTR 255) F.FW_ATTR_FILLING 1, 255, by decide +kernel⟩

theorem test_SweepsAndNetworkComplete_5 : ∃ (s : State) (n : Fin 64) (a : Fin 16),
    s.fenced n a = true ∧
    s.agentIdle n a = true :=
  ⟨R.wr (Reg.RTR_FENCE 63) F.RTR_FENCE_AGENTS (2 ^ 15), 63, 15, by decide +kernel⟩

theorem test_SweepsAndNetworkComplete_6 : ∃ (s : State) (f : Flit),
    f.cls = 2 ∧
    f.op = 0x41 ∧
    f.dst = f.src ∧
    f.dstAgent = 14 ∧
    f.index = 0 ∧
    f.last = true ∧
    s.fenced f.src 14 = false ∧
    flitHeader (s.stamped f.src f) ∉ s.fabric.closed ∧
    s.mayInject f.src (s.stamped f.src f) = true ∧
    s.waits f.src .inject (s.stamped f.src f) injReq = false ∧
    s.fabric.cut.contains (f.src.val, flitHeader (s.stamped f.src f)) = false :=
  ⟨R, ⟨0, 0, 0, 0, true, 0, 0, 14, 0, 0x41, p63, false, 1, 0, 2, 63, 63, List.replicate 128 0⟩, by decide +kernel⟩

theorem test_SweepsAndNetworkComplete_7 : ∃ (s : State) (n : Fin 64) (f : Flit) (g : Flit) (o : OutPort),
    g = s.stamped n f ∧
    s.outOf n .inject g = .ok o ∧
    o ≠ .eject ∧
    s.mayInject n g = true ∧
    s.waits n .inject g injReq = false ∧
    s.fabric.cut.contains (n.val, flitHeader g) = false :=
  ⟨R, 58, flX, R.stamped 58 flX, .xPos, rfl, ok_of (by decide +kernel), by decide +kernel, by decide +kernel, by decide +kernel, by decide +kernel⟩

theorem test_SweepsAndNetworkComplete_8 : ∃ (s : State) (n : Fin 64) (arr : Arrival) (f : Flit) (p : Nat) (o : OutPort),
    arrPort arr = some p ∧
    s.buf (bufKey n p f.cls f.vc) = [f] ∧
    s.outOf n arr f = .ok o ∧
    o ≠ .eject ∧
    s.waits n arr f (bufKey n p f.cls f.vc % 64) = false ∧
    s.fabric.cut.contains (n.val, flitHeader f) = false :=
  ⟨atT59 0, 59, .xPos, flX, 0, .xPos, rfl, by decide +kernel, ok_of (by decide +kernel), by decide +kernel, by decide +kernel, by decide +kernel⟩

theorem test_SweepsAndNetworkComplete_9 : ∃ (s : State) (n : Fin 64) (arr : Arrival) (f : Flit),
    arr ≠ .inject ∧
    s.flitStands n arr f = true ∧
    s.fabric.cut.contains (n.val, flitHeader f) = false ∧
    msgCoded f.cls f.op = false ∧
    f.index = 0 ∧
    f.cls = 2 ∧
    s.rd (Reg.RTR_CUT n) F.RTR_CUT_VALID = 0 :=
  ⟨{ R with fabric := { Fabric.reset with bufs := [(bufKey 63 3 2 0, [⟨0, 0, 0, 0, true, 0, 15, 14, 0, 0x4A, p63, false, 1, 0, 2, 63, 63, List.replicate 128 0⟩])] } }, 63, .yNeg, ⟨0, 0, 0, 0, true, 0, 15, 14, 0, 0x4A, p63, false, 1, 0, 2, 63, 63, List.replicate 128 0⟩, by decide +kernel⟩

theorem test_SweepsAndNetworkComplete_10 : ∃ (s : State) (n : Fin 64) (arr : Arrival) (f : Flit) (p : Nat),
    arrPort arr = some p ∧
    s.waits n arr f (bufKey n p f.cls f.vc % 64) = true :=
  ⟨{ R with fabric := { Fabric.reset with bufs := [(bufKey 60 0 2 0, List.replicate 8 flX), (bufKey 60 0 2 1, List.replicate 8 flX)] } }, 59, .xPos, flX, 0, by decide +kernel⟩

theorem test_SweepsAndNetworkComplete_11 : ∃ (s : State) (n : Fin 64) (f : Flit),
    (s.mayInject n (s.stamped n f) = false ∨ s.waits n .inject (s.stamped n f) injReq = true) :=
  ⟨R, 59, flX, by decide +kernel⟩

theorem test_SweepsAndNetworkComplete_12 : ∃ (s : State) (n : Fin 64) (arr : Arrival) (f : Flit) (u : Nat) (k : Nat),
    linkInto n arr = some (u, k) ∧
    s.flitStands n arr f = true ∧
    Tab.get 0 s.fabric.fails (4 * u + k) < 4 :=
  ⟨atT59 3, 59, .xPos, flX, 58, 0, by decide +kernel⟩

theorem test_SweepsAndNetworkComplete_13 : ∃ (s : State) (n : Fin 64) (arr : Arrival) (f : Flit) (u : Nat) (k : Nat),
    linkInto n arr = some (u, k) ∧
    s.flitStands n arr f = true ∧
    4 ≤ Tab.get 0 s.fabric.fails (4 * u + k) ∧
    s.ringDown u k = 0 :=
  ⟨atT59 4, 59, .xPos, flX, 58, 0, by decide +kernel⟩

theorem test_SweepsAndNetworkComplete_14 : ∃ (s : State) (n : Fin 64) (f : Flit) (g : Flit),
    (injKey n, g) ∈ s.fabric.part ∧
    samePacket g f = true ∧
    s.rd (Reg.RTR_CUT n) F.RTR_CUT_VALID = 0 :=
  ⟨{ R with fabric := { Fabric.reset with part := [(injKey 63, toS00)] } }, 63, toS00, toS00, by decide +kernel⟩

theorem test_SweepsAndNetworkComplete_15 : ∃ (s : State) (n : Fin 64) (f : Flit) (g : Flit) (o : OutPort),
    o ≠ .eject ∧
    s.fabric.part = [(outKey n o.num, g)] ∧
    samePacket g f = true ∧
    s.rd (Reg.RTR_CUT n) F.RTR_CUT_VALID = 0 :=
  ⟨{ R with fabric := { Fabric.reset with part := [(outKey 58 0, flX)] } }, 58, flX, flX, .xPos, by decide +kernel⟩

theorem test_SweepsAndNetworkComplete_16 : ∃ (s : State) (n : Fin 64) (h : Fin 216) (a : IoAccess),
    (s.hart h).io = some a ∧
    s.paKind a.pa = .window ∧
    s.rd (Reg.RTR_CUT n) F.RTR_CUT_VALID = 0 :=
  ⟨withIo R 215 windowBase none, 63, 215, acc windowBase none, by decide +kernel⟩

theorem test_SweepsAndNetworkComplete_18 : ∃ (s : State) (h : Fin 216) (a : IoAccess) (code : Nat) (m : Msg),
    (s.hart h).io = some a ∧
    s.arriving (fun _ => false) (fun m => m.kind == .rspError code && m.agent == hartAgent h) = some m ∧
    (s.cluster (hartCluster h)).held = [] :=
  ⟨{ withIo R 215 windowBase none with net := [⟨.rspError 3, 0, 63, hartAgent 215, noData, p63, 0⟩] }, 215, acc windowBase none, 3, ⟨.rspError 3, 0, 63, hartAgent 215, noData, p63, 0⟩, by decide +kernel⟩

theorem test_SweepsAndNetworkComplete_19 : ∃ (s : State) (j : Fin 112),
    (s.link j).up = true :=
  ⟨lnk R 111, 111, by decide +kernel⟩

theorem test_SweepsAndNetworkComplete_20 : ∃ (s : State) (h : Fin 216) (a : IoAccess),
    (s.hart h).io = some a :=
  ⟨withIo R 215 windowBase none, 215, acc windowBase none, by decide +kernel⟩

theorem test_SweepsAndNetworkComplete_21 : ∃ (s : State) (j : Fin 112),
    (s.link j).up = true :=
  ⟨lnk R 111, 111, by decide +kernel⟩

theorem test_CoherenceRequestsComplete_1 : ∃ (s : State) (c : Fin 36) (ln : Nat) (n : Nat) (r : CReq),
    s.asks c .rdShared ln n r ∧
    (s.dirRoom n ln r.who.pid).isLeft = true :=
  ⟨ram.setCluster 35 { Cluster.empty with reqs := [⟨.rdShared, top, p63, false, false⟩] }, 35, top, 0, ⟨.rdShared, top, p63, false, false⟩, by decide +kernel⟩

theorem test_CoherenceRequestsComplete_2 : ∃ (s : State) (c : Fin 36) (ln : Nat) (n : Nat) (r : CReq),
    s.asks c .rdNoexcl ln n r ∧
    (s.dirRoom n ln r.who.pid).isLeft = true :=
  ⟨ram.setCluster 35 { Cluster.empty with reqs := [⟨.rdNoexcl, top, p63, false, false⟩] }, 35, top, 0, ⟨.rdNoexcl, top, p63, false, false⟩, by decide +kernel⟩

theorem test_CoherenceRequestsComplete_3 : ∃ (s : State) (ln : Nat) (n : Nat),
    s.dbInval.contains ln = true ∧
    s.watchBusy ln = false ∧
    s.fenced rmgStop 12 = false ∧
    s.homeFor rmgStop ln = n ∧
    s.homeOpen n ln ∧
    s.isMem (128 * ln) = true ∧
    s.fwGrants (s.lineWho ln) (128 * ln) false = true ∧
    (s.dirRoom n ln (s.lineWho ln).pid).isLeft = true :=
  ⟨{ chanUp with dbInval := [top] }, top, 0, by decide +kernel, by decide +kernel, by decide +kernel, by decide +kernel, by decide +kernel, by decide +kernel, by rw [chan_line (n := 31) (l := []) (by decide +kernel) (by decide +kernel)]; decide +kernel, by rw [chan_line (n := 31) (l := []) (by decide +kernel) (by decide +kernel)]; decide +kernel⟩

theorem test_CoherenceRequestsComplete_4 : ∃ (s : State) (c : Fin 36) (ln : Nat) (n : Nat) (r : CReq),
    s.asks c .rdUnique ln n r ∧
    (s.dirRoom n ln r.who.pid).isLeft = true :=
  ⟨ram.setCluster 35 { Cluster.empty with reqs := [⟨.rdUnique, top, p63, false, false⟩] }, 35, top, 0, ⟨.rdUnique, top, p63, false, false⟩, by decide +kernel⟩

theorem test_CoherenceRequestsComplete_5 : ∃ (s : State) (c : Fin 36) (ln : Nat) (n : Nat) (r : CReq),
    s.asks c .upgrade ln n r ∧
    (s.dirRoom n ln r.who.pid).isLeft = true :=
  ⟨ram.setCluster 35 { Cluster.empty with reqs := [⟨.upgrade, top, p63, false, false⟩] }, 35, top, 0, ⟨.upgrade, top, p63, false, false⟩, by decide +kernel⟩

theorem test_CoherenceRequestsComplete_6 : ∃ (s : State) (c : Fin 36) (ln : Nat) (n : Nat) (r : CReq),
    s.asks c .zeroUnique ln n r ∧
    (s.dirRoom n ln r.who.pid).isLeft = true :=
  ⟨ram.setCluster 35 { Cluster.empty with reqs := [⟨.zeroUnique, top, p63, false, false⟩] }, 35, top, 0, ⟨.zeroUnique, top, p63, false, false⟩, by decide +kernel⟩

theorem test_CoherenceRequestsComplete_7 : ∃ (s : State) (c : Fin 36) (ln : Nat) (n : Nat) (r : CReq),
    s.asks c .cmoClean ln n r :=
  ⟨ram.setCluster 35 { Cluster.empty with reqs := [⟨.cmoClean, top, p63, false, false⟩] }, 35, top, 0, ⟨.cmoClean, top, p63, false, false⟩, by decide +kernel⟩

theorem test_CoherenceRequestsComplete_8 : ∃ (s : State) (c : Fin 36) (ln : Nat) (n : Nat) (r : CReq),
    s.asks c .cmoFlush ln n r :=
  ⟨ram.setCluster 35 { Cluster.empty with reqs := [⟨.cmoFlush, top, p63, false, false⟩] }, 35, top, 0, ⟨.cmoFlush, top, p63, false, false⟩, by decide +kernel⟩

theorem test_CoherenceRequestsComplete_9 : ∃ (s : State) (a : Fin 64) (who : Ident) (ln : Nat) (n : Nat),
    s.asksNc a who ln n false :=
  ⟨ram, 63, p63, top, 0, by decide +kernel⟩

theorem test_CoherenceRequestsComplete_10 : ∃ (s : State) (a : Fin 64) (who : Ident) (ln : Nat) (n : Nat),
    s.asksNc a who ln n true :=
  ⟨ram, 63, p63, top, 0, by decide +kernel⟩

theorem test_CoherenceRequestsComplete_11 : ∃ (s : State) (a : Fin 64) (who : Ident) (ln : Nat) (n : Nat),
    s.asksNc a who ln n true :=
  ⟨ram, 63, p63, top, 0, by decide +kernel⟩

theorem test_EvictionsAndSnoopsComplete_1 : ∃ (s : State) (c : Fin 36) (ln : Nat) (m : Msg) (e : DirEnt),
    s.comes .wbDirty c ln m ∧
    s.fenced m.home 0 = false ∧
    ((s.cluster c).evicting ln).any (·.taken) = false ∧
    (s.home m.home).txn ln = none ∧
    (s.home m.home).dirOf ln = some e ∧
    e.x = true ∧
    e.ptrs.contains c.val = true :=
  ⟨(flight .wbDirty 63 35).setHome 63 { Home.empty with dir := [(top, ⟨true, [35], false, 0⟩)] }, 35, top, msg .wbDirty 63 35, ⟨true, [35], false, 0⟩, by decide +kernel⟩

theorem test_EvictionsAndSnoopsComplete_2 : ∃ (s : State) (c : Fin 37) (ln : Nat) (m : Msg) (e : DirEnt),
    s.comes .evictClean c ln m ∧
    s.fenced m.home 0 = false ∧
    (s.home m.home).txn ln = none ∧
    (s.home m.home).dirOf ln = some e ∧
    ((e.x = true ∧ e.ptrs.contains c.val = true) ∨ (e.x = false ∧ e.ovf = false ∧ e.ptrs.filter (· != c.val) = [])) :=
  ⟨(flight .evictClean 63 35).setHome 63 { Home.empty with dir := [(top, ⟨true, [35], false, 0⟩)] }, 35, top, msg .evictClean 63 35, ⟨true, [35], false, 0⟩, by decide +kernel⟩

theorem test_EvictionsAndSnoopsComplete_3 : ∃ (s : State) (c : Fin 37) (ln : Nat) (m : Msg) (e : DirEnt),
    s.comes .evictClean c ln m ∧
    s.fenced m.home 0 = false ∧
    (s.home m.home).txn ln = none ∧
    (s.home m.home).dirOf ln = some e ∧
    e.x = false ∧
    e.ovf = false ∧
    e.ptrs.filter (· != c.val) ≠ [] :=
  ⟨(flight .evictClean 63 35).setHome 63 { Home.empty with dir := [(top, ⟨false, [35, 0], false, 0⟩)] }, 35, top, msg .evictClean 63 35, ⟨false, [35, 0], false, 0⟩, by decide +kernel⟩

theorem test_EvictionsAndSnoopsComplete_4 : ∃ (s : State) (a : Fin 37) (ln : Nat) (m : Msg) (k : Nat) (x : L2Line),
    s.comesSnp .share a ln m ∧
    a.val < 36 ∧
    s.fenced (agentStop a) 2 = false ∧
    s.grantInFlight a ln = false ∧
    (s.cluster a).find ln = some (k, x) :=
  ⟨(flight (.snp .share) 63 35).setCluster 35 { Cluster.empty with l2 := [(0, ⟨top, .m, 0, d0, p63⟩)] }, 35, top, msg (.snp .share) 63 35, 0, ⟨top, .m, 0, d0, p63⟩, by decide +kernel⟩

theorem test_EvictionsAndSnoopsComplete_5 : ∃ (s : State) (a : Fin 37) (ln : Nat) (m : Msg) (k : Nat) (x : L2Line),
    s.comesSnp .peek a ln m ∧
    a.val < 36 ∧
    s.fenced (agentStop a) 2 = false ∧
    s.grantInFlight a ln = false ∧
    (s.cluster a).find ln = some (k, x) :=
  ⟨(flight (.snp .peek) 63 35).setCluster 35 { Cluster.empty with l2 := [(0, ⟨top, .m, 0, d0, p63⟩)] }, 35, top, msg (.snp .peek) 63 35, 0, ⟨top, .m, 0, d0, p63⟩, by decide +kernel⟩

theorem test_EvictionsAndSnoopsComplete_6 : ∃ (s : State) (a : Fin 37) (ln : Nat) (m : Msg) (k : Nat) (x : L2Line),
    s.comesSnp .inval a ln m ∧
    a.val < 36 ∧
    s.fenced (agentStop a) 2 = false ∧
    s.grantInFlight a ln = false ∧
    s.reserved a ln = false ∧
    (s.cluster a).find ln = some (k, x) :=
  ⟨has35 (flight (.snp .inval) 63 35), 35, top, msg (.snp .inval) 63 35, 0, ⟨top, .m, 0, d0, p63⟩, by decide +kernel⟩

theorem test_EvictionsAndSnoopsComplete_7 : ∃ (s : State) (a : Fin 37) (ln : Nat) (m : Msg),
    s.comesSnp .share a ln m ∧
    a.val < 36 ∧
    s.fenced (agentStop a) 2 = false ∧
    s.grantInFlight a ln = false ∧
    (s.cluster a).find ln = none ∧
    (s.cluster a).evicting ln = none :=
  ⟨flight (.snp .share) 63 35, 35, top, msg (.snp .share) 63 35, by decide +kernel⟩

theorem test_EvictionsAndSnoopsComplete_8 : ∃ (s : State) (ln : Nat) (m : Msg),
    s.comesSnp .inval 36 ln m ∧
    s.fenced (agentStop 36) 12 = false ∧
    s.grantInFlight 36 ln = false ∧
    s.watch.contains ln = true :=
  ⟨{ flight (.snp .inval) 63 36 with watch := [top] }, top, msg (.snp .inval) 63 36, by decide +kernel⟩

theorem test_EvictionsAndSnoopsComplete_9 : ∃ (s : State) (a : Fin 37) (ln : Nat) (m : Msg) (x : HTxn),
    s.comes .rspI a ln m ∧
    s.awaits m.home a ln x :=
  ⟨(flight .rspI 63 36).setHome 63 { Home.empty with txns := [tx 36 .rdUnique false] }, 36, top, msg .rspI 63 36, tx 36 .rdUnique false, by decide +kernel⟩

theorem test_EvictionsAndSnoopsComplete_10 : ∃ (s : State) (a : Fin 37) (ln : Nat) (m : Msg) (x : HTxn),
    s.comes .rspS a ln m ∧
    s.awaits m.home a ln x :=
  ⟨(flight .rspS 63 36).setHome 63 { Home.empty with txns := [tx 36 .rdUnique false] }, 36, top, msg .rspS 63 36, tx 36 .rdUnique false, by decide +kernel⟩

theorem test_EvictionsAndSnoopsComplete_11 : ∃ (s : State) (a : Fin 37) (ln : Nat) (m : Msg) (x : HTxn),
    s.comes .rspWbif a ln m ∧
    s.awaits m.home a ln x :=
  ⟨(flight .rspWbif 63 36).setHome 63 { Home.empty with txns := [tx 36 .rdUnique false] }, 36, top, msg .rspWbif 63 36, tx 36 .rdUnique false, by decide +kernel⟩

theorem test_EvictionsAndSnoopsComplete_12 : ∃ (s : State) (a : Fin 37) (ln : Nat) (m : Msg) (x : HTxn),
    s.comes .datDirty a ln m ∧
    s.awaits m.home a ln x :=
  ⟨(flight .datDirty 63 36).setHome 63 { Home.empty with txns := [tx 36 .rdUnique false] }, 36, top, msg .datDirty 63 36, tx 36 .rdUnique false, by decide +kernel⟩

theorem test_GrantsAndMemoryComplete_1 : ∃ (s : State) (a : Fin 164) (ln : Nat) (m : Msg),
    s.comesTo MKind.isGrant a ln m ∧
    m.kind = .datGrant none ∧
    36 < a.val :=
  ⟨flight (.datGrant none) 63 163, 163, top, msg (.datGrant none) 63 163, by decide +kernel⟩

theorem test_GrantsAndMemoryComplete_2 : ∃ (s : State) (a : Fin 164) (ln : Nat) (m : Msg) (g : Grant),
    s.comesTo MKind.isGrant a ln m ∧
    m.kind = .datGrant (some g) ∧
    a.val < 36 ∧
    s.fenced (agentStop a) 2 = false ∧
    (s.cluster a).victim ln = none ∧
    (s.cluster a).reqs.any (fun r => r.ln == ln) = true ∧
    (s.cluster a).waits = [] ∧
    (s.cluster a).held = [] :=
  ⟨(flight (.datGrant (some .e)) 63 35).setCluster 35 { Cluster.empty with reqs := [⟨.rdShared, top, p63, false, true⟩] }, 35, top, msg (.datGrant (some .e)) 63 35, .e, by decide +kernel⟩

theorem test_GrantsAndMemoryComplete_3 : ∃ (s : State) (c : Fin 36) (ln : Nat) (m : Msg) (r : CReq) (k : Nat) (x : L2Line),
    s.comesTo (· == .rspGrant) c ln m ∧
    s.fenced (agentStop c) 2 = false ∧
    (s.cluster c).reqs.find? (fun r => r.ln == ln) = some r ∧
    r.kind ≠ .zeroUnique ∧
    (s.cluster c).find ln = some (k, x) ∧
    (s.cluster c).waits = [] ∧
    (s.cluster c).held = [] :=
  ⟨(flight .rspGrant 63 35).setCluster 35 { Cluster.empty with l2 := [(0, ⟨top, .m, 0, d0, p63⟩)], reqs := [⟨.upgrade, top, p63, false, true⟩] }, 35, top, msg .rspGrant 63 35, ⟨.upgrade, top, p63, false, true⟩, 0, ⟨top, .m, 0, d0, p63⟩, by decide +kernel⟩

theorem test_GrantsAndMemoryComplete_4 : ∃ (s : State) (c : Fin 36) (ln : Nat) (m : Msg) (r : CReq),
    s.comesTo (· == .rspGrant) c ln m ∧
    s.fenced (agentStop c) 2 = false ∧
    (s.cluster c).reqs.find? (fun r => r.ln == ln) = some r ∧
    r.kind = .zeroUnique ∧
    (s.cluster c).victim ln = none ∧
    (s.cluster c).waits = [] ∧
    (s.cluster c).held = [] :=
  ⟨(flight .rspGrant 63 35).setCluster 35 { Cluster.empty with reqs := [⟨.zeroUnique, top, p63, false, true⟩] }, 35, top, msg .rspGrant 63 35, ⟨.zeroUnique, top, p63, false, true⟩, by decide +kernel⟩

theorem test_GrantsAndMemoryComplete_5 : ∃ (s : State) (a : Fin 164) (ln : Nat) (m : Msg),
    s.comesTo (· == .rspWdone) a ln m ∧
    36 ≤ a.val :=
  ⟨flight .rspWdone 63 163, 163, top, msg .rspWdone 63 163, by decide +kernel⟩

theorem test_GrantsAndMemoryComplete_6 : ∃ (s : State) (c : Fin 37) (ln : Nat) (m : Msg),
    s.comesTo (· == .wbAck) c ln m ∧
    c.val < 36 ∧
    (s.cluster c).waits = [] ∧
    (s.cluster c).evict.filter (fun e => e.ln != ln) = [] :=
  ⟨(flight .wbAck 63 35).setCluster 35 { Cluster.empty with evict := [⟨top, true, d0, p63, false, true⟩] }, 35, top, msg .wbAck 63 35, by decide +kernel⟩

theorem test_GrantsAndMemoryComplete_7 : ∃ (s : State) (ln : Nat) (m : Msg),
    s.comesTo (· == .wbAck) 36 ln m :=
  ⟨flight .wbAck 63 36, top, msg .wbAck 63 36, by decide +kernel⟩

theorem test_GrantsAndMemoryComplete_8 : ∃ (s : State) (n : Fin 64) (x : DevLine) (m : Msg),
    s.arriving (fun _ => false) (fun m => m.kind == .memRead && m.home == n.val && m.ln == x.ln) = some m ∧
    s.memOff x.ln = false ∧
    s.paKind (128 * x.ln) = .dram ∧
    s.lineDmg x.ln = [] ∧
    s.wq = [] :=
  ⟨{ ram with net := [msg .memRead 63 35] }, 63, ⟨top, false, false⟩, msg .memRead 63 35, by decide +kernel⟩

theorem test_GrantsAndMemoryComplete_9 : ∃ (s : State) (n : Fin 64) (ln : Nat) (x : HTxn) (m : Msg),
    s.arriving (fun _ => false) (fun m => m.kind == .memData && m.home == n.val && m.ln == ln) = some m ∧
    (s.home n).txns = [x] ∧
    (s.home n).waitq = [] ∧
    (s.home n).dirOf ln = none ∧
    x.req.ln = ln ∧
    x.req.kind = .rdNoalloc ∧
    x.mem = true ∧
    x.void = false ∧
    x.req.agent ≠ nobody :=
  ⟨(flight .memData 63 0).setHome 63 { Home.empty with txns := [tx 36 .rdNoalloc true] }, 63, top, tx 36 .rdNoalloc true, msg .memData 63 0, by decide +kernel⟩

theorem test_GrantsAndMemoryComplete_10 : ∃ (s : State) (ln : Nat) (w : WqEntry),
    s.wq.find? (fun w => w.ln == ln) = some w ∧
    w.mask % 2 ^ 128 = 2 ^ 128 - 1 ∧
    w.data.length = 128 ∧
    w.flip = false ∧
    s.memOff ln = false ∧
    s.paKind (128 * ln) = .dram :=
  ⟨{ ram with wq := [⟨top, d0.data, 2 ^ 128 - 1, false, .home, false, none⟩] }, top, ⟨top, d0.data, 2 ^ 128 - 1, false, .home, false, none⟩, by decide +kernel⟩

theorem test_GrantsAndMemoryComplete_11 : ∃ (s : State) (ln : Nat) (w : WqEntry),
    s.wq.find? (fun w => w.ln == ln) = some w ∧
    w.mask % 2 ^ 128 ≠ 2 ^ 128 - 1 ∧
    w.data.length = 128 ∧
    w.flip = false ∧
    s.memOff ln = false ∧
    s.paKind (128 * ln) = .dram ∧
    s.lineDmg ln = [] :=
  ⟨{ ram with wq := [⟨top, d0.data, 2 ^ 128 - 2, false, .home, false, none⟩] }, top, ⟨top, d0.data, 2 ^ 128 - 2, false, .home, false, none⟩, by decide +kernel⟩

theorem test_MaintenanceComplete_1 : ∃ (s : State) (h : Fin 216) (ln : Nat) (p : HeldSnp) (k : Nat) (x : L2Line),
    (s.hart h).resv = some ln ∧
    (s.cluster (hartCluster h)).held = [p] ∧
    p.ln = ln ∧
    p.kind = .inval ∧
    (s.cluster (hartCluster h)).find ln = some (k, x) ∧
    s.grantInFlight (hartCluster h) ln = false ∧
    (s.setHart h { s.hart h with resvLate := true }).reserved (hartCluster h) ln = false :=
  ⟨(R.setHart 215 { hx with resv := some top }).setCluster 35 { Cluster.empty with l2 := [(0, ⟨top, .m, 0, d0, p63⟩)], held := [⟨.inval, top, 63, p63⟩] }, 215, top, ⟨.inval, top, 63, p63⟩, 0, ⟨top, .m, 0, d0, p63⟩, by decide +kernel⟩

theorem test_MaintenanceComplete_2 : ∃ (s : State) (h : Fin 216) (ln : Nat) (p : HeldSnp),
    (s.hart h).resv = some ln ∧
    (s.cluster (hartCluster h)).held = [p] ∧
    p.ln = ln ∧
    (s.cluster (hartCluster h)).find ln = none ∧
    (s.cluster (hartCluster h)).evicting ln = none ∧
    s.grantInFlight (hartCluster h) ln = false ∧
    (s.setHart h { s.hart h with resvLate := true }).reserved (hartCluster h) ln = false :=
  ⟨(R.setHart 215 { Hart.reset with resv := some top }).setCluster 35 { Cluster.empty with held := [⟨.inval, top, 63, p63⟩] }, 215, top, ⟨.inval, top, 63, p63⟩, by decide +kernel⟩

theorem test_MaintenanceComplete_3 : ∃ (s : State) (n : Fin 64) (h : Fin 216) (r : Hold),
    s.rangeAt n h = some r ∧
    (s.home n).l3 = [] ∧
    (s.home n).dir = [] ∧
    r.hi - r.lo < 512 ∧
    s.homeQuiet n (fun ln => decide (r.lo ≤ ln) && decide (ln ≤ r.hi)) = true :=
  ⟨R.setHome 63 { Home.empty with holds := [⟨0, 511, 1, 215, false⟩] }, 63, 215, ⟨0, 511, 1, 215, false⟩, by decide +kernel⟩

theorem test_MaintenanceComplete_4 : ∃ (s : State) (n : Fin 64) (r : Hold) (k : Nat) (x : L3Line),
    s.homes = [(n.val, { Home.empty with l3 := [(k, x)], holds := [r] })] ∧
    s.clusters = [] ∧
    s.net = [] ∧
    r.kind = 0 ∧
    r.done = false ∧
    512 ≤ r.hi - r.lo ∧
    r.lo ≤ x.ln ∧
    x.ln ≤ r.hi ∧
    x.dirty = true :=
  ⟨R.setHome 63 { Home.empty with l3 := [(0, ⟨512, d0, true⟩)], holds := [⟨0, 512, 0, 215, false⟩] }, 63, ⟨0, 512, 0, 215, false⟩, 0, ⟨512, d0, true⟩, by decide +kernel⟩

theorem test_MaintenanceComplete_5 : ∃ (s : State) (h : Fin 216),
    s.rangeOver h = true ∧
    (s.home 0).holds.any (fun r => decide (r.kind ≤ 1) && r.ways == h.val) = true :=
  ⟨R.setHome 0 { Home.empty with holds := [⟨0, 511, 1, 215, true⟩] }, 215, by decide +kernel⟩

theorem test_MaintenanceComplete_6 : ∃ (s : State) (m : Fin 16) (pos : Nat) (cap : Nat),
    s.rd (Reg.MCH_SCRUB m) F.MCH_SCRUB_EN = 1 ∧
    s.rd (Reg.MCH_STATUS m) F.MCH_STATUS_STATE = 3 ∧
    s.rd (Reg.MCH_STATUS m) F.MCH_STATUS_CAP_GIB = cap ∧
    0 < cap ∧
    s.rd (Reg.MCH_SCRUB m) F.MCH_SCRUB_POS = pos ∧
    pos < cap * 2 ^ 23 ∧
    cap ≤ 512 :=
  ⟨((R.wrs (Reg.MCH_SCRUB 15) [(F.MCH_SCRUB_EN, 1), (F.MCH_SCRUB_POS, 2 ^ 32 - 1)]).wrs (Reg.MCH_STATUS 15) [(F.MCH_STATUS_STATE, 3), (F.MCH_STATUS_CAP_GIB, 512)]), 15, 2 ^ 32 - 1, 512, by decide +kernel⟩

theorem test_PciePortsComplete_1 : ∃ (s : State) (j : Fin 112) (addr : Nat) (len : Nat) (r : RdRes),
    s.dmaOpen j = true ∧
    s.linesFree addr len = true ∧
    s.linkValid j = true ∧
    len ≤ 4096 ∧
    ((s.pmcDma j 0 addr len).readPa (s.linkWho j) addr len).1 = r ∧
    r.res = .ok :=
  ⟨dmaUp, 111, 0, 8, ((dmaUp.pmcDma 111 0 0 8).readPa (dmaUp.linkWho 111) 0 8).1, by decide +kernel⟩

theorem test_PciePortsComplete_2 : ∃ (s : State) (j : Fin 112) (addr : Nat) (len : Nat),
    s.dmaOpen j = true ∧
    s.linesFree addr len = true ∧
    len ≤ 4096 ∧
    (s.linkValid j = false ∨ ((s.pmcDma j 0 addr len).readPa (s.linkWho j) addr len).1.res ≠ .ok) :=
  ⟨(inMode 4).setLink 111 { Link.off with up := true }, 111, 0, 4096, by decide +kernel⟩

theorem test_PciePortsComplete_3 : ∃ (s : State) (j : Fin 112) (pasid : Bool) (addr : Nat) (len : Nat),
    s.dmaOpen j = true ∧
    s.linesFree addr len = true ∧
    (pasid = true ∨ 4096 < len) :=
  ⟨dmaUp, 111, false, 0, 4097, by decide +kernel⟩

theorem test_PciePortsComplete_4 : ∃ (s : State) (j : Fin 112) (addr : Nat) (len : Nat),
    s.dmaOpen j = true ∧
    s.linesFree addr len = true :=
  ⟨dmaUp, 111, 0, 4096, by decide +kernel⟩

theorem test_PciePortsComplete_5 : ∃ (s : State) (j : Fin 112) (pasid : Bool) (bad : Bool) (addr : Nat) (bytes : List Byte),
    s.dmaOpen j = true ∧
    s.linesFree addr bytes.length = true ∧
    (bad = true ∨ pasid = true ∨ 512 < bytes.length) :=
  ⟨dmaUp, 111, false, false, 0, List.replicate 513 0, by decide +kernel⟩

theorem test_PciePortsComplete_6 : ∃ (s : State) (j : Fin 112) (ln : Nat) (bytes : List Byte),
    s.dmaOpen j = true ∧
    s.linkValid j = true ∧
    s.plainLine (s.linkWho j) ln true ∧
    bytes.length = 128 ∧
    s.rd (Reg.MCH_FLIP (s.chanOf (128 * ln))) F.MCH_FLIP_ARM = 0 :=
  ⟨dmaUp, 111, top, d0.data, by decide +kernel⟩

theorem test_PciePortsComplete_7 : ∃ (s : State) (j : Fin 112) (addr : Nat) (op : AtomicKind) (size : Nat) (operand : Nat) (compare : Nat) (old : List Byte) (u : State),
    s.dmaOpen j = true ∧
    s.linesFree addr size = true ∧
    atomicOk op size addr = true ∧
    s.linkValid j = true ∧
    s.homePull (s.linkWho j) addr false = u ∧
    (u.dmaRead j addr size).1 = some (old, false) ∧
    ((u.dmaRead j addr size).2.writePa ((u.dmaRead j addr size).2.linkWho j) addr (leBytes size (atomicNew op size (leNat old) operand compare))).1 = .ok :=
  ⟨dmaUp, 111, 0, .swap, 8, 5, 0, List.replicate 8 0, dmaUp.homePull (dmaUp.linkWho 111) 0 false, by decide +kernel⟩

theorem test_PciePortsComplete_8 : ∃ (s : State) (j : Fin 112) (addr : Nat) (op : AtomicKind) (size : Nat) (old : List Byte),
    s.dmaOpen j = true ∧
    s.linesFree addr size = true ∧
    atomicOk op size addr = true ∧
    s.linkValid j = true ∧
    ((s.homePull (s.linkWho j) addr false).dmaRead j addr size).1 = some (old, true) :=
  ⟨dmaUp.setHome 0 { Home.empty with l3 := [(0, ⟨0, ⟨d0.data, true⟩, true⟩)] }, 111, 0, .swap, 8, List.replicate 8 0, by decide +kernel⟩

theorem test_PciePortsComplete_9 : ∃ (s : State) (j : Fin 112) (pasid : Bool) (addr : Nat) (op : AtomicKind) (size : Nat),
    s.dmaOpen j = true ∧
    s.linesFree addr size = true ∧
    (pasid = true ∨ atomicOk op size addr = false) :=
  ⟨dmaUp, 111, true, 0, .swap, 8, by decide +kernel⟩

theorem test_PciePortsComplete_10 : ∃ (s : State) (j : Fin 112) (addr : Nat) (eiid : Nat) (f : Nat),
    s.dmaOpen j = true ∧
    s.linkValid j = true ∧
    windowBase ≤ addr ∧
    fileAt (addr - windowBase) = some f ∧
    s.fenced (nthD clusterStops (fileHart f / 6) 0) 2 = false ∧
    s.fileReach f (s.linkWho j) = true ∧
    1 ≤ eiid ∧
    eiid ≤ 2047 :=
  ⟨lnk ((inMode 4).wrW (Reg.ISO_HART 215) 0x3F) 111, 111, windowBase + 0x4800000 + 0x8000 * 215, 2047, 1936, by decide +kernel⟩

theorem test_PciePortsComplete_11 : ∃ (s : State) (j : Fin 112),
    (s.link j).up = true :=
  ⟨R.setLink 111 { Link.off with up := true }, 111, by decide +kernel⟩

theorem test_PciePortsComplete_12 : ∃ (s : State) (j : Fin 112),
    (s.link j).up = true ∧
    (s.link j).cxl = true :=
  ⟨R.setLink 111 { Link.off with up := true, cxl := true }, 111, by decide +kernel⟩

theorem test_PciePortsComplete_13 : ∃ (s : State) (j : Fin 112),
    s.linkWidth j ≠ 0 ∧
    s.linksRun = true :=
  ⟨inMode 4, 0, by decide +kernel⟩

theorem test_PciePortsComplete_14 : ∃ (s : State) (h : Fin 216) (a : IoAccess) (j : Nat),
    (s.hart h).io = some a ∧
    s.paKind a.pa = .mmio j :=
  ⟨withIo (lnk R 104) 215 (0x4000000000000 + 0x10000000 * 104) none, 215, acc (0x4000000000000 + 0x10000000 * 104) none, 104, by decide +kernel⟩

theorem test_PciePortsComplete_15 : ∃ (s : State) (h : Fin 216) (a : IoAccess) (j : Nat),
    (s.hart h).io = some a ∧
    s.paKind a.pa = .mmio j ∧
    a.write.isSome = false ∧
    1 ≤ a.rd ∧
    a.rd < 32 ∧
    s.mmioReach j (s.hart h).ident = true ∧
    (s.link j).up = true ∧
    (s.link j).fenced = false ∧
    s.fenced (nthD pcieStops (j / 16) 0) (6 + j / 8 % 2) = false :=
  ⟨withIo (lnk R 104) 215 (0x4000000000000 + 0x10000000 * 104) none, 215, acc (0x4000000000000 + 0x10000000 * 104) none, 104, by decide +kernel⟩

theorem test_PciePortsComplete_16 : ∃ (s : State) (h : Fin 216) (a : IoAccess) (j : Nat),
    (s.hart h).io = some a ∧
    s.paKind a.pa = .mmio j ∧
    a.write.isSome = true ∧
    s.mmioReach j (s.hart h).ident = true ∧
    (s.link j).up = true ∧
    (s.link j).fenced = false ∧
    s.fenced (nthD pcieStops (j / 16) 0) (6 + j / 8 % 2) = false :=
  ⟨withIo (lnk R 104) 215 (0x4000000000000 + 0x10000000 * 104) (some []), 215, acc (0x4000000000000 + 0x10000000 * 104) (some []), 104, by decide +kernel⟩

theorem test_PciePortsComplete_17 : ∃ (s : State) (h : Fin 216) (a : IoAccess) (j : Nat),
    (s.hart h).io = some a ∧
    s.paKind a.pa = .mmio j ∧
    a.write.isSome = false ∧
    s.mmioReach j (s.hart h).ident = false :=
  ⟨(lnk R 104).setHart 215 { Hart.reset with mode := .s, io := some (acc (0x4000000000000 + 0x10000000 * 104) none) }, 215, acc (0x4000000000000 + 0x10000000 * 104) none, 104, by decide +kernel⟩

theorem test_PciePortsComplete_18 : ∃ (s : State) (h : Fin 216) (a : IoAccess) (j : Nat),
    (s.hart h).io = some a ∧
    s.paKind a.pa = .mmio j ∧
    a.write.isSome = true ∧
    s.mmioReach j (s.hart h).ident = false :=
  ⟨(lnk R 104).setHart 215 { Hart.reset with mode := .s, io := some (acc (0x4000000000000 + 0x10000000 * 104) (some [])) }, 215, acc (0x4000000000000 + 0x10000000 * 104) (some []), 104, by decide +kernel⟩

theorem test_PciePortsComplete_19 : ∃ (s : State) (ln : Nat),
    s.watch = [ln] ∧
    s.dbInval = [] :=
  ⟨{ R with watch := [top] }, top, by decide +kernel⟩

theorem test_PciePortsComplete_20 : ∃ (s : State) (ln : Nat),
    ln ∉ s.watch :=
  ⟨R, top, by decide +kernel⟩

theorem test_PciePortsComplete_21 : ∃ (s : State) (ln : Nat) (m : Msg) (g : Option Grant),
    s.comesRmg ln m ∧
    m.kind = .datGrant g ∧
    s.ringsOn ln = [] ∧
    s.chansOn ln = [] ∧
    s.watch.length < 512 :=
  ⟨{ R with regs := [], net := [msg (.datGrant none) 63 36] }, top, msg (.datGrant none) 63 36, none, by decide +kernel, by decide +kernel, no_rings _ rfl _, by decide +kernel⟩

theorem test_PciePortsComplete_22 : ∃ (s : State) (ln : Nat) (m : Msg) (k : Nat),
    s.comesRmg ln m ∧
    m.kind = .rspError k ∧
    s.ringsOn ln = [] ∧
    s.chansOn ln = [] :=
  ⟨{ R with regs := [], net := [msg (.rspError 3) 63 36] }, top, msg (.rspError 3) 63 36, 3, by decide +kernel, by decide +kernel, no_rings _ rfl _, by decide +kernel⟩

theorem test_DescriptorsComplete_1 : ∃ (s : State) (ring : Fin 4096) (seq : Nat) (d : Desc),
    s.mayBegin ring seq 0 d :=
  ⟨withDesc (dsc [0]), 4095, 7, dsc [0], by decide +kernel⟩

theorem test_DescriptorsComplete_2 : ∃ (s : State) (ring : Fin 4096) (seq : Nat) (d : Desc) (k : Nat) (cols : List (List Byte)) (outs : List (List Byte)),
    s.mayBegin ring seq 1 d ∧
    d.slot = some k ∧
    d.arg 20 2 / 2 ^ (s.img k).pipes.length = 0 ∧
    inlineWhole (s.img k) (d.arg 20 2) (d.arg 32 4) = true ∧
    (replaced d (s.img k)).toOption = some (cols, outs) ∧
    s.rd (Reg.CTX_CFG d.ctx) F.CTX_CFG_SLICE_QUOTA ≠ 0 ∧
    below 36 (fun n => s.slcReady n && bitAt (s.rdW (Reg.CTX_SLICES d.ctx)).toNat n) ≠ [] ∧
    ((s.img k).masked (d.arg 20 2)).all (fun x => !x.2.has 0x38) = true :=
  ⟨runReady.wrW Reg.PKG_DIE_ACTIVE 0xFFF, 4095, 7, { dsc runB with slot := some 255 }, 255, (runReady.img 255).cols, (runReady.img 255).outs, by decide +kernel⟩

theorem test_DescriptorsComplete_3 : ∃ (s : State) (ring : Fin 4096) (seq : Nat) (d : Desc) (k : Nat) (cols : List (List Byte)) (outs : List (List Byte)),
    s.mayBegin ring seq 1 d ∧
    d.slot = some k ∧
    d.arg 20 2 / 2 ^ (s.img k).pipes.length = 0 ∧
    inlineWhole (s.img k) (d.arg 20 2) (d.arg 32 4) = true ∧
    (replaced d (s.img k)).toOption = some (cols, outs) ∧
    (s.rd (Reg.CTX_CFG d.ctx) F.CTX_CFG_SLICE_QUOTA = 0 ∨ below 36 (fun n => s.slcReady n && bitAt (s.rdW (Reg.CTX_SLICES d.ctx)).toNat n) = []) :=
  ⟨runReady, 4095, 7, { dsc runB with slot := some 255 }, 255, (runReady.img 255).cols, (runReady.img 255).outs, by decide +kernel⟩

theorem test_DescriptorsComplete_4 : ∃ (s : State) (ring : Fin 4096) (seq : Nat) (d : Desc),
    s.mayBegin ring seq 1 d ∧
    d.slot = none :=
  ⟨withDesc (dsc runB), 4095, 7, dsc runB, by decide +kernel⟩

theorem test_DescriptorsComplete_5 : ∃ (s : State) (ring : Fin 4096) (seq : Nat) (d : Desc) (b : List Byte),
    s.mayBegin ring seq 2 d ∧
    s.ringPort ring = none ∧
    ((vread ⟨none, d.ctx⟩ (d.arg 16 8) (d.arg 24 4)).run (s.setDesc { d with begun := true })).1.toOption = some b :=
  ⟨withDesc (dsc (leBytes 16 2 ++ leBytes 8 0 ++ leBytes 4 256)), 4095, 7, dsc (leBytes 16 2 ++ leBytes 8 0 ++ leBytes 4 256), List.replicate 256 0, by decide +kernel⟩

theorem test_DescriptorsComplete_6 : ∃ (s : State) (ring : Fin 4096) (seq : Nat) (d : Desc) (b : List Byte) (k : Nat),
    s.atWork ring seq 2 d ∧
    d.load = some b ∧
    s.ringPort d.ring = none ∧
    validate b (d.arg 24 4) (s.rd Reg.PKG_FEATURE F.PKG_FEATURE_LEVEL) = none ∧
    (List.range 256).find? (fun k => (s.image k).isNone) = some k ∧
    s.storeBytes + b.length ≤ 8388608 :=
  ⟨withDesc ({ dsc (leBytes 16 2 ++ leBytes 8 0 ++ leBytes 4 512) with begun := true, load := some imgV }), 4095, 7, { dsc (leBytes 16 2 ++ leBytes 8 0 ++ leBytes 4 512) with begun := true, load := some imgV }, imgV, 0, by decide +kernel⟩

theorem test_DescriptorsComplete_7 : ∃ (s : State) (ring : Fin 4096) (seq : Nat) (d : Desc) (b : List Byte) (sub : Nat) (o : Nat),
    s.atWork ring seq 2 d ∧
    d.load = some b ∧
    s.ringPort d.ring = none ∧
    validate b (d.arg 24 4) (s.rd Reg.PKG_FEATURE F.PKG_FEATURE_LEVEL) = some (sub, o) :=
  ⟨withDesc { dsc [2] with begun := true, load := some [] }, 4095, 7, { dsc [2] with begun := true, load := some [] }, [], 1, 0, by decide +kernel⟩

theorem test_DescriptorsComplete_8 : ∃ (s : State) (ring : Fin 4096) (seq : Nat) (d : Desc) (k : Nat),
    s.mayBegin ring seq 3 d ∧
    d.slot = some k :=
  ⟨withDesc ({ dsc [3] with slot := some 255 }), 4095, 7, { dsc [3] with slot := some 255 }, 255, by decide +kernel⟩

theorem test_DescriptorsComplete_9 : ∃ (s : State) (ring : Fin 4096) (seq : Nat) (d : Desc),
    s.mayBegin ring seq 3 d ∧
    d.slot = none :=
  ⟨withDesc (dsc [3]), 4095, 7, dsc [3], by decide +kernel⟩

theorem test_DescriptorsComplete_10 : ∃ (s : State) (ring : Fin 4096) (seq : Nat) (d : Desc) (k : Nat),
    s.atWork ring seq 3 d ∧
    d.slot = some k ∧
    s.eng.descs.any (fun x => x.opc == 1 && x.slot == some k && decide (x.ord < d.ord)) = false :=
  ⟨withDesc ({ dsc [3] with slot := some 255, begun := true }), 4095, 7, { dsc [3] with slot := some 255, begun := true }, 255, by decide +kernel⟩

theorem test_DescriptorsComplete_11 : ∃ (s : State) (ring : Fin 4096) (seq : Nat) (d : Desc),
    s.mayBegin ring seq 4 d :=
  ⟨withDesc (dsc [4]), 4095, 7, dsc [4], by decide +kernel⟩

theorem test_DescriptorsComplete_12 : ∃ (s : State) (ring : Fin 4096) (seq : Nat) (d : Desc),
    s.atWork ring seq 4 d ∧
    s.eng.descs.any (fun x => decide (x.ord < d.ord) && (if d.arg 16 1 = 0 then x.ring == ring.val else x.ctx == d.ctx)) = false :=
  ⟨withDesc { dsc [4] with begun := true }, 4095, 7, { dsc [4] with begun := true }, by decide +kernel⟩

theorem test_DescriptorsComplete_13 : ∃ (s : State) (ring : Fin 4096) (seq : Nat) (d : Desc),
    s.desc ring seq = some d ∧
    (s.ringDescs ring).any (fun x => decide (x.ord < d.ord)) = false ∧
    s.ringPort ring = none ∧
    s.rd (Reg.RING_STATUS ring) F.RING_STATUS_STATE ≠ 1 :=
  ⟨withDesc { dsc [0, 2] with ready := false }, 4095, 7, { dsc [0, 2] with ready := false }, by decide +kernel⟩

theorem test_DescriptorsComplete_14 : ∃ (s : State) (ring : Fin 4096) (seq : Nat) (d : Desc) (ts : List Desc),
    s.mayBegin ring seq 5 d ∧
    (s.setDesc { d with begun := true }).abortTargets { d with begun := true } = ts ∧
    ts.all (fun x => (x.opc != 1 && x.opc != 2) || x.done || x.fail.isSome) = true :=
  ⟨withDesc (dsc (leBytes 16 5 ++ [1])), 4095, 7, dsc (leBytes 16 5 ++ [1]), [], by decide +kernel⟩

theorem test_DescriptorsComplete_15 : ∃ (s : State) (ring : Fin 4096) (seq : Nat) (d : Desc),
    s.atWork ring seq 5 d ∧
    d.targets.any (fun k => (s.desc k.1 k.2).isSome) = false :=
  ⟨withDesc { dsc [5] with begun := true }, 4095, 7, { dsc [5] with begun := true }, by decide +kernel⟩

theorem test_DescriptorsComplete_17 : ∃ (s : State) (ring : Fin 4096) (seq : Nat) (d : Desc),
    s.eng.descs = [d] ∧
    d.ring = ring.val ∧
    d.seq = seq ∧
    d.done = true ∧
    d.run = none ∧
    d.irq = false ∧
    s.ringPort ring = none ∧
    s.rd (Reg.RING_STATUS ring) F.RING_STATUS_STATE = 1 ∧
    s.eng.rings = [] ∧
    s.eng.images = [] ∧
    (s.writePa (s.ctxIdent d.ctx) (s.rd (Reg.RING_CQ_BASE ring) F.RING_CQ_BASE_BASE * 4096 + 64 * (s.rd (Reg.RING_HEAD ring) F.RING_HEAD_CQ_TAIL % 2 ^ s.rd (Reg.RING_CFG ring) F.RING_CFG_CQ_LOG2)) (s.record d (s.rd (Reg.RING_HEAD ring) F.RING_HEAD_CQ_TAIL) (s.rd (Reg.RING_CFG ring) F.RING_CFG_CQ_LOG2))).1 = .ok :=
  ⟨(withDesc { dsc [0] with begun := true, done := true }).wr (Reg.RING_STATUS 4095) F.RING_STATUS_STATE 1, 4095, 7, { dsc [0] with begun := true, done := true }, by decide +kernel⟩

theorem test_DescriptorsComplete_malformed : ∃ (s : State) (ring : Fin 4096) (seq o : Nat) (d : Desc) (c : Instr),
    s.desc ring seq = some d ∧
    d.ready = true ∧
    d.begun = false ∧
    d.done = false ∧
    d.fail = none ∧
    descFault d.bytes (s.ringPort ring).isSome = some o ∧
    (d.opc, c) ∈ [(0, Instr.nopDesc ring seq), (1, .runPipeline ring seq), (2, .loadImage ring seq), (3, .unloadImage ring seq),
      (4, .fenceDesc ring seq), (5, .abort ring seq), (6, .etlbLoad ring seq), (7, .etlbInvalidate ring seq), (8, .matchWrite ring seq)] :=
  ⟨withDesc (dsc (fitB 127 [] ++ [1])), 4095, 7, 127, dsc (fitB 127 [] ++ [1]), .nopDesc 4095 7, by decide +kernel,
    by decide +kernel, by decide +kernel, by decide +kernel, by decide +kernel, by decide +kernel, by simp [Desc.opc, leAt, leNat, sliceB, fitB]⟩

theorem test_TranslationsComplete_1 : ∃ (s : State) (ring : Fin 4096) (seq : Nat) (k : Nat) (d : Desc),
    s.mayBegin ring seq 6 d ∧
    s.ringPriv ring = true ∧
    d.arg 2 1 = k + 1 :=
  ⟨(withDesc (dsc [6, 0, 1])).wr (Reg.RING_CFG 4095) F.RING_CFG_PRIV 1, 4095, 7, 0, dsc [6, 0, 1], by decide +kernel⟩

theorem test_TranslationsComplete_2 : ∃ (s : State) (ring : Fin 4096) (seq : Nat) (d : Desc),
    s.mayBegin ring seq 7 d ∧
    s.ringPriv ring = true :=
  ⟨(withDesc (dsc (leBytes 16 7 ++ [0, 2] ++ leBytes 14 0 ++ [1]))).wr (Reg.RING_CFG 4095) F.RING_CFG_PRIV 1, 4095, 7, dsc (leBytes 16 7 ++ [0, 2] ++ leBytes 14 0 ++ [1]), by decide +kernel⟩

theorem test_TranslationsComplete_3 : ∃ (s : State) (ring : Fin 4096) (seq : Nat) (d : Desc),
    s.mayBegin ring seq 6 d ∧
    s.ringPriv ring = false :=
  ⟨withDesc (dsc [6, 0, 1]), 4095, 7, dsc [6, 0, 1], by decide +kernel⟩

theorem test_TranslationsComplete_4 : ∃ (s : State) (ring : Fin 4096) (seq : Nat) (d : Desc),
    s.mayBegin ring seq 7 d ∧
    s.ringPriv ring = false :=
  ⟨withDesc (dsc (leBytes 16 7 ++ [0, 2] ++ leBytes 14 0 ++ [1])), 4095, 7, dsc (leBytes 16 7 ++ [0, 2] ++ leBytes 14 0 ++ [1]), by decide +kernel⟩

theorem test_TranslationsComplete_5 : ∃ (s : State) (ring : Fin 4096) (seq : Nat) (d : Desc),
    s.atWork ring seq 7 d ∧
    d.targets = [] :=
  ⟨withDesc { dsc [7] with begun := true }, 4095, 7, { dsc [7] with begun := true }, by decide +kernel⟩

theorem test_TranslationsComplete_6 : ∃ (s : State) (ring : Fin 4096) (seq : Nat) (d : Desc) (rs : List (Nat × MRow)) (ss : List Nat),
    s.mayBegin ring seq 8 d ∧
    (List.range (d.arg 2 1)).map (fun i => mrowOf d.bytes i d.ctx) = rs ∧
    below 36 (fun n => bitAt (s.rdW (Reg.CTX_SLICES d.ctx)).toNat n && s.slcInService n) = ss ∧
    ss.all (fun n => rs.all (fun r => !(Tab.get MRow.off (s.slice n).rows r.1).valid || (Tab.get MRow.off (s.slice n).rows r.1).owner == d.ctx)) = true :=
  ⟨(withDesc (dsc [8, 0, 1])).wrW Reg.PKG_DIE_ACTIVE 0xFFF, 4095, 7, dsc [8, 0, 1], [mrowOf (dsc [8, 0, 1]).bytes 0 4095], [35], by decide +kernel⟩

theorem test_TranslationsComplete_7 : ∃ (s : State) (ring : Fin 4096) (seq : Nat) (n : Nat) (i : Nat) (d : Desc),
    s.mayBegin ring seq 8 d ∧
    i < d.arg 2 1 ∧
    n ∈ below 36 (fun n => bitAt (s.rdW (Reg.CTX_SLICES d.ctx)).toNat n && s.slcInService n) ∧
    (Tab.get MRow.off (s.slice n).rows (mrowOf d.bytes i d.ctx).1).valid = true ∧
    (Tab.get MRow.off (s.slice n).rows (mrowOf d.bytes i d.ctx).1).owner ≠ d.ctx :=
  ⟨((withDesc (dsc [8, 0, 1])).wrW Reg.PKG_DIE_ACTIVE 0xFFF).setSlice 35 { Slice.reset with rows := [(0, { MRow.off with valid := true, owner := 5 })] }, 4095, 7, 35, 0, dsc [8, 0, 1], by decide +kernel⟩

theorem test_TranslationsComplete_8 : ∃ (s : State) (ring : Fin 4096) (seq : Nat) (d : Desc) (x : Stall),
    s.desc ring seq = some d ∧
    d.stall = some x ∧
    d.fail = none ∧
    d.run = none :=
  ⟨withDesc { dsc [1] with stall := some ⟨255, 65536, true⟩ }, 4095, 7, { dsc [1] with stall := some ⟨255, 65536, true⟩ }, ⟨255, 65536, true⟩, by decide +kernel⟩

theorem test_TranslationsComplete_9 : ∃ (s : State) (ring : Fin 4096) (seq : Nat) (d : Desc) (x : Stall) (r : Run),
    s.desc ring seq = some d ∧
    d.stall = some x ∧
    d.fail = none ∧
    d.run = some r :=
  ⟨withDesc { dsc [1] with stall := some ⟨255, 5, false⟩, run := some (run1 [] []) }, 4095, 7, { dsc [1] with stall := some ⟨255, 5, false⟩, run := some (run1 [] []) }, ⟨255, 5, false⟩, run1 [] [], by decide +kernel⟩

theorem test_TranslationsComplete_10 : ∃ (s : State) (n : Fin 36) (x : Task) (st : Stall),
    (s.slice n).task = some x ∧
    x.stall = some st ∧
    x.fail = none :=
  ⟨atRun [] (run1 [] []) { rowTask (row1 1) with stall := some ⟨255, 65536, true⟩ }, 35, { rowTask (row1 1) with stall := some ⟨255, 65536, true⟩ }, ⟨255, 65536, true⟩, by decide +kernel⟩

theorem test_FilterByThreeValuedLogic_1 : ∃ (u : UOp) (v : UOp) (w : UOp),
    u.op = 0x08 ∧
    v.op = 0x09 ∧
    w.op = 0x0A :=
  ⟨uopOf (0x08 * 2 ^ 56), uopOf (0x09 * 2 ^ 56), uopOf (0x0A * 2 ^ 56), by decide +kernel⟩

theorem test_FilterByThreeValuedLogic_2 : ∃ (u : UOp) (x : Cell) (y : Cell),
    0x10 ≤ u.op ∧
    u.op ≤ 0x15 ∧
    (x.ok = false ∨ y.ok = false) :=
  ⟨uopOf (0x15 * 2 ^ 56), Cell.null, Cell.of 1, by decide +kernel⟩

theorem test_FilterByThreeValuedLogic_3 : ∃ (s : State) (n : Fin 36) (x : Task) (b : Batch) (c : OpCtx) (q : Batch),
    s.standsAt n 0x10 x b c ∧
    ((runRange n c x b).run s).1.toOption = some q ∧
    ((runRange n c x b).run s).2 = s :=
  ⟨(atRun (img1 (opw 1 0 0 1 0 0 0 0) (opw 0x10 0 0 0 0 0 0 0) (opw 0x4F 0 0 0 0 0 0 0) 1 1 [] [] []) (run1 [] []) (rowTask (row1 1))), 35, rowTask (row1 1), row1 1,
    seen (img1 (opw 1 0 0 1 0 0 0 0) (opw 0x10 0 0 0 0 0 0 0) (opw 0x4F 0 0 0 0 0 0 0) 1 1 [] [] []) (run1 [] []) 1, row1 1, by decide +kernel⟩

theorem test_RowOperatorsComplete_1 : ∃ (s : State) (n : Fin 36) (x : Task) (b : Batch) (c : OpCtx) (q : Batch),
    s.standsAt n 0x11 x b c ∧
    ((runRange n c x b).run s).1.toOption = some q ∧
    ((runRange n c x b).run s).2 = s :=
  ⟨(atRun (img1 (opw 1 0 0 1 0 0 0 0) (opw 0x11 0 0 0 0 0 0 0) (opw 0x4F 0 0 0 0 0 0 0) 5 5 [] [] []) (run1 [] []) (rowTask (row1 1))), 35, rowTask (row1 1), row1 1, seen (img1 (opw 1 0 0 1 0 0 0 0) (opw 0x11 0 0 0 0 0 0 0) (opw 0x4F 0 0 0 0 0 0 0) 5 5 [] [] []) (run1 [] []) 1, row1 1, by decide +kernel⟩

theorem test_RowOperatorsComplete_2 : ∃ (s : State) (n : Fin 36) (x : Task) (b : Batch) (c : OpCtx),
    s.standsAt n 0x20 x b c ∧
    (c.m.regList c.o.a0 c.o.a1).all (fun k => (c.p.reg k.1).ty != .varstr || b.selected.all (fun i => !(b.cell k.1 i).ok || decide ((b.cell k.1 i).strLen ≤ 64))) = true :=
  ⟨(atRun (img1 (opw 1 0 0 1 0 0 0 0) (opw 0x20 0 0 1 1 0 0 0) (opw 0x4F 0 0 0 0 0 0 0) 5 9 [] [] []) (run1 [] []) (rowTask (row1 1))), 35, rowTask (row1 1), row1 1, seen (img1 (opw 1 0 0 1 0 0 0 0) (opw 0x20 0 0 1 1 0 0 0) (opw 0x4F 0 0 0 0 0 0 0) 5 9 [] [] []) (run1 [] []) 1, by decide +kernel⟩

theorem test_RowOperatorsComplete_3 : ∃ (s : State) (n : Fin 36) (x : Task) (b : Batch) (c : OpCtx) (k : Nat × Bool) (i : Nat) (l : List Byte),
    s.standsAt n 0x20 x b c ∧
    c.m.regList c.o.a0 c.o.a1 = [k] ∧
    (c.p.reg k.1).ty = .varstr ∧
    b.selected = [i] ∧
    (b.cell k.1 i).ok = true ∧
    ((strOf n x (b.cell k.1 i)).run s).1.toOption = some l :=
  ⟨atRun imgStr (run1 [] []) (rowTask rowStr), 35, rowTask rowStr, rowStr, seen imgStr (run1 [] []) 1, (0, false), 0, List.replicate 70 0, by decide +kernel⟩

theorem test_RowOperatorsComplete_4 : ∃ (s : State) (n : Fin 36) (x : Task) (b : Batch) (c : OpCtx),
    s.standsAt n 0x12 x b c ∧
    (s.slice n).rows.any (fun e => e.2.enabled x.ctx (c.o.a2 % 256) && e.2.bad) = false :=
  ⟨(atRun (img1 (opw 1 0 0 1 0 0 0 0) (opw 0x12 0 0 1 0 0 0 0) (opw 0x4F 0 0 0 0 0 0 0) 5 4 [] [] []) (run1 [] []) (rowTask (row1 1))), 35, rowTask (row1 1), row1 1, seen (img1 (opw 1 0 0 1 0 0 0 0) (opw 0x12 0 0 1 0 0 0 0) (opw 0x4F 0 0 0 0 0 0 0) 5 4 [] [] []) (run1 [] []) 1, by decide +kernel⟩

theorem test_RowOperatorsComplete_5 : ∃ (s : State) (n : Fin 36) (x : Task) (b : Batch) (c : OpCtx),
    s.standsAt n 0x40 x b c :=
  ⟨(atRun (img1 (opw 1 0 0 1 0 0 0 0) (opw 0x40 0 0 0 0 0 0 1) (opw 0x4F 0 0 0 0 0 0 0) 5 5 [] [] []) (run1 [] []) (rowTask (row1 1))), 35, rowTask (row1 1), row1 1, seen (img1 (opw 1 0 0 1 0 0 0 0) (opw 0x40 0 0 0 0 0 0 1) (opw 0x4F 0 0 0 0 0 0 0) 5 5 [] [] []) (run1 [] []) 1, by decide +kernel⟩

theorem test_RowOperatorsComplete_6 : ∃ (s : State) (n : Fin 36) (x : Task) (b : Batch) (c : OpCtx) (rows : List HeapRow) (heap : List HeapRow) (cut : Option (List Byte)),
    s.standsAt n 0x32 x b c ∧
    x.kind ≠ .gather ∧
    (b.selected.map (fun i => HeapRow.mk (sortKeyOf c (c.m.sortList c.o.a0 c.o.a1) b i) (b.rn i)
             ((c.m.readAfter c.p x.oper).map (fun r => (r, b.cell r i))))).filter (fun h => !beyond (c.r.pipe x.pipe).thr c.topk.2 h.key h.rn) = rows ∧
    keepTop c.topk.1 c.topk.2 (rows.foldl (fun l h => insertBy HeapRow.ord h l) x.heap) = (heap, cut) :=
  ⟨(atRun (img1 (opw 1 0 0 1 0 0 0 0) (opw 0x32 0 0 1 0 0 0 1) (opw 0x4F 0 0 0 0 0 0 0) 5 5 [] [] []) (run1 [] []) (rowTask (row1 1))), 35, rowTask (row1 1), row1 1, seen (img1 (opw 1 0 0 1 0 0 0 0) (opw 0x32 0 0 1 0 0 0 1) (opw 0x4F 0 0 0 0 0 0 0) 5 5 [] [] []) (run1 [] []) 1, [⟨[0x01, 0x80, 0, 0, 0, 0, 0, 0, 0x01], 2 ^ 48 - 1, []⟩], [⟨[0x01, 0x80, 0, 0, 0, 0, 0, 0, 0x01], 2 ^ 48 - 1, []⟩], none, by decide +kernel⟩

theorem test_RowOperatorsComplete_7 : ∃ (s : State) (n : Fin 36) (x : Task) (b : Batch) (c : OpCtx) (ds : List Nat),
    s.standsAt n 0x38 x b c ∧
    Tab.get [] c.r.dests c.o.a2 = ds :=
  ⟨(atRun (img1 (opw 1 0 0 1 0 0 0 0) (opw 0x38 0 0 1 1 0 0 0) (opw 0x4F 0 0 0 0 0 0 0) 5 5 [] [] []) (run1 [] []) (rowTask (row1 1))), 35, rowTask (row1 1), row1 1, seen (img1 (opw 1 0 0 1 0 0 0 0) (opw 0x38 0 0 1 1 0 0 0) (opw 0x4F 0 0 0 0 0 0 0) 5 5 [] [] []) (run1 [] []) 1, [35], by decide +kernel⟩

theorem test_TableOperatorsComplete_1 : ∃ (s : State) (n : Fin 36) (x : Task) (b : Batch) (c : OpCtx),
    s.standsAt n 0x21 x b c ∧
    (((c.keyed b).forM (fun i => issue n c x x.oper c.o.a4 (.insert (bitAt c.o.opt 0)) [] (c.built b i) i)).run s).1.toOption = some () :=
  ⟨(atRun (img1 (opw 1 0 0 1 0 0 0 0) (opw 0x21 0 64 1 64 1 0 1) (opw 0x4F 0 0 0 0 0 0 0) 2 9 (fitB 64 [1, 0, 4, 1, 0, 1, 1, 0, 0, 0, 0, 0, 0, 0, 0, 0, 0, 8, 0, 0, 0, 0, 0, 0, 2, 0, 0, 0, 0, 0, 0, 0, 2] ++ [0, 0, 4, 0]) [] []) (run1 [] []) (rowTask (row1 1))), 35, rowTask (row1 1), row1 1, seen (img1 (opw 1 0 0 1 0 0 0 0) (opw 0x21 0 64 1 64 1 0 1) (opw 0x4F 0 0 0 0 0 0 0) 2 9 (fitB 64 [1, 0, 4, 1, 0, 1, 1, 0, 0, 0, 0, 0, 0, 0, 0, 0, 0, 8, 0, 0, 0, 0, 0, 0, 2, 0, 0, 0, 0, 0, 0, 0, 2] ++ [0, 0, 4, 0]) [] []) (run1 [] []) 1, by decide +kernel⟩

theorem test_TableOperatorsComplete_2 : ∃ (s : State) (n : Fin 36) (x : Task) (b : Batch) (c : OpCtx),
    s.standsAt n 0x22 x b c ∧
    c.keyed b ≠ [] ∧
    ((((c.keyed b).take 64).forM (fun i => issue n c x x.oper c.o.a4 .probe [] (c.sought b i) i)).run s).1.toOption = some () :=
  ⟨(atRun (img1 (opw 1 0 0 1 0 0 0 0) (opw 0x22 0 64 1 64 0 0 1) (opw 0x4F 0 0 0 0 0 0 0) 2 9 (fitB 64 [1, 0, 4, 1, 0, 1, 1, 0, 0, 0, 0, 0, 0, 0, 0, 0, 0, 8, 0, 0, 0, 0, 0, 0, 2, 0, 0, 0, 0, 0, 0, 0, 2] ++ [0, 0, 4, 0]) [] []) (run1 [] []) (rowTask (row1 1))), 35, rowTask (row1 1), row1 1, seen (img1 (opw 1 0 0 1 0 0 0 0) (opw 0x22 0 64 1 64 0 0 1) (opw 0x4F 0 0 0 0 0 0 0) 2 9 (fitB 64 [1, 0, 4, 1, 0, 1, 1, 0, 0, 0, 0, 0, 0, 0, 0, 0, 0, 8, 0, 0, 0, 0, 0, 0, 2, 0, 0, 0, 0, 0, 0, 0, 2] ++ [0, 0, 4, 0]) [] []) (run1 [] []) 1, by decide +kernel⟩

theorem test_TableOperatorsComplete_3 : ∃ (s : State) (n : Fin 36) (x : Task) (b : Batch) (c : OpCtx),
    s.standsAt n 0x22 x b c ∧
    c.keyed b = [] ∧
    b.rows.length ≤ 1024 :=
  ⟨(atRun (img1 (opw 1 0 0 1 0 0 0 0) (opw 0x22 0 64 1 64 0 0 1) (opw 0x4F 0 0 0 0 0 0 0) 2 9 (fitB 64 [1, 0, 4, 1, 0, 1, 1, 0, 0, 0, 0, 0, 0, 0, 0, 0, 0, 8, 0, 0, 0, 0, 0, 0, 2, 0, 0, 0, 0, 0, 0, 0, 2] ++ [0, 0, 4, 0]) [] []) (run1 [] []) (rowTask (⟨[2 ^ 48 - 1], [false], [(0, [Cell.null]), (1, [Cell.null])]⟩))), 35, rowTask (⟨[2 ^ 48 - 1], [false], [(0, [Cell.null]), (1, [Cell.null])]⟩), ⟨[2 ^ 48 - 1], [false], [(0, [Cell.null]), (1, [Cell.null])]⟩, seen (img1 (opw 1 0 0 1 0 0 0 0) (opw 0x22 0 64 1 64 0 0 1) (opw 0x4F 0 0 0 0 0 0 0) 2 9 (fitB 64 [1, 0, 4, 1, 0, 1, 1, 0, 0, 0, 0, 0, 0, 0, 0, 0, 0, 8, 0, 0, 0, 0, 0, 0, 2, 0, 0, 0, 0, 0, 0, 0, 2] ++ [0, 0, 4, 0]) [] []) (run1 [] []) 1, by decide +kernel⟩

theorem test_TableOperatorsComplete_4 : ∃ (s : State) (n : Fin 36) (x : Task) (b : Batch) (c : OpCtx),
    s.standsAt n 0x24 x b c ∧
    ((b.selected.forM (fun i => issue n c x x.oper c.o.a4 .merge c.ovfs (c.part b i) 0)).run s).1.toOption = some () :=
  ⟨(atRun (img1 (opw 1 0 0 1 0 0 0 0) (opw 0x24 0 64 1 66 1 0 1) (opw 0x4F 0 0 0 0 0 0 0) 2 9 (fitB 64 [2, 0, 4, 1, 0, 1, 1, 0, 0, 0, 0, 0, 0, 0, 0, 0, 0, 8, 0, 0, 0, 0, 0, 0, 2, 0, 0, 0, 0, 0, 0, 0, 2, 0, 0, 0, 0, 0, 0, 0, 0, 0, 0, 0, 0, 0, 0, 0, 4] ++ [0, 0, 4, 0]) [] []) (run1 [] []) (rowTask (row1 1))), 35, rowTask (row1 1), row1 1, seen (img1 (opw 1 0 0 1 0 0 0 0) (opw 0x24 0 64 1 66 1 0 1) (opw 0x4F 0 0 0 0 0 0 0) 2 9 (fitB 64 [2, 0, 4, 1, 0, 1, 1, 0, 0, 0, 0, 0, 0, 0, 0, 0, 0, 8, 0, 0, 0, 0, 0, 0, 2, 0, 0, 0, 0, 0, 0, 0, 2, 0, 0, 0, 0, 0, 0, 0, 0, 0, 0, 0, 0, 0, 0, 0, 4] ++ [0, 0, 4, 0]) [] []) (run1 [] []) 1, by decide +kernel⟩

theorem test_TableOperatorsComplete_5 : ∃ (s : State) (n : Fin 36) (x : Task) (b : Batch) (c : OpCtx) (u : State),
    s.standsAt n 0x23 x b c ∧
    ((b.selected.forM (fun i => aggRow n c x (tDeclOf (c.m.decl c.o.a4)) (c.part b i) (b.rn i))).run s).1.toOption = some () ∧
    ((b.selected.forM (fun i => aggRow n c x (tDeclOf (c.m.decl c.o.a4)) (c.part b i) (b.rn i))).run s).2 = u :=
  ⟨atRun imgAgg (run1 [] []) (rowTask (row1 1)), 35, rowTask (row1 1), row1 1, seen imgAgg (run1 [] []) 1, (((row1 1).selected.forM (fun i => aggRow 35 sAgg (rowTask (row1 1)) (tDeclOf (sAgg.m.decl sAgg.o.a4)) (sAgg.part (row1 1) i) ((row1 1).rn i))).run (atRun imgAgg (run1 [] []) (rowTask (row1 1)))).2, by decide +kernel⟩

theorem test_TableOperatorsComplete_6 : ∃ (s : State) (n : Fin 36) (x : Task) (b : Batch) (c : OpCtx) (i : Nat) (l : AggLine),
    s.standsAt n 0x23 x b c ∧
    b.selected = [i] ∧
    Tab.get ⟨[], 0⟩ (s.slice n).agg ((c.part b i).h % 4096) = l ∧
    l.ents.all (fun e => !((tDeclOf (c.m.decl c.o.a4)).sameKey e (c.part b i) && e.h == (c.part b i).h)) = true ∧
    l.ents.length < 128 / (tDeclOf (c.m.decl c.o.a4)).entryBytes :=
  ⟨atRun imgAgg (run1 [] []) (rowTask (row1 1)), 35, rowTask (row1 1), row1 1, seen imgAgg (run1 [] []) 1, 0, ⟨[], 0⟩, by decide +kernel⟩

theorem test_TableOperatorsComplete_7 : ∃ (s : State) (n : Fin 36) (x : Task) (b : Batch) (c : OpCtx) (i : Nat) (j : Nat) (l : AggLine) (e : AggEnt),
    s.standsAt n 0x23 x b c ∧
    b.selected = [i] ∧
    Tab.get ⟨[], 0⟩ (s.slice n).agg ((c.part b i).h % 4096) = l ∧
    l.ents.findIdx? (fun e => (tDeclOf (c.m.decl c.o.a4)).sameKey e (c.part b i) && e.h == (c.part b i).h) = some j ∧
    ((tDeclOf (c.m.decl c.o.a4)).mergeEnt c.ovfs (nthD l.ents j (c.part b i)) (c.part b i)).toOption = some e :=
  ⟨aggWith [sAgg.part (row1 1) 0], 35, rowTask (row1 1), row1 1, seen imgAgg (run1 [] []) 1, 0, 0, ⟨[sAgg.part (row1 1) 0], 0⟩, (((tDeclOf (sAgg.m.decl sAgg.o.a4)).mergeEnt sAgg.ovfs (sAgg.part (row1 1) 0) (sAgg.part (row1 1) 0)).toOption).getD (sAgg.part (row1 1) 0), by decide +kernel⟩

theorem test_TableOperatorsComplete_8 : ∃ (s : State) (n : Fin 36) (x : Task) (b : Batch) (c : OpCtx) (i : Nat) (l : AggLine),
    s.standsAt n 0x23 x b c ∧
    b.selected = [i] ∧
    Tab.get ⟨[], 0⟩ (s.slice n).agg ((c.part b i).h % 4096) = l ∧
    l.ents.findIdx? (fun e => (tDeclOf (c.m.decl c.o.a4)).sameKey e (c.part b i) && e.h == (c.part b i).h) = none ∧
    128 / (tDeclOf (c.m.decl c.o.a4)).entryBytes ≤ l.ents.length ∧
    c.m.isa ≠ 0 ∧
    ((issue n c x x.oper c.o.a4 .merge c.ovfs (nthD l.ents l.victim (c.part b i)) 0).run s).1.toOption = some () :=
  ⟨aggWith aggFull, 35, rowTask (row1 1), row1 1, seen imgAgg (run1 [] []) 1, 0, ⟨aggFull, 0⟩, by decide +kernel⟩

theorem test_TableOperatorsComplete_9 : ∃ (s : State) (n : Fin 36) (x : Task) (b : Batch) (c : OpCtx) (j : Nat) (u : State),
    s.standsAt n 0x30 x b c ∧
    b.selected ≠ [] ∧
    ((writeRun (x.who n) (rDeclOf (c.m.decl c.o.a4)) (c.runRecs b) 0).run s).1.toOption = some j ∧
    ((writeRun (x.who n) (rDeclOf (c.m.decl c.o.a4)) (c.runRecs b) 0).run s).2 = u ∧
    (u.slice n).task = some x :=
  ⟨(atRun (img1 (opw 1 0 0 1 0 0 0 0) (opw 0x30 0 64 1 64 0 0 0) (opw 0x4F 0 0 0 0 0 0 0) 5 5 (fitB 64 ([3, 9, 0, 0, 32, 0, 0, 0] ++ leBytes 8 0 ++ leBytes 8 65536 ++ leBytes 8 32768 ++ leBytes 4 1) ++ [0, 0]) [] []) (run1 [] []) (rowTask (row1 1))), 35, rowTask (row1 1), row1 1, seen (img1 (opw 1 0 0 1 0 0 0 0) (opw 0x30 0 64 1 64 0 0 0) (opw 0x4F 0 0 0 0 0 0 0) 5 5 (fitB 64 ([3, 9, 0, 0, 32, 0, 0, 0] ++ leBytes 8 0 ++ leBytes 8 65536 ++ leBytes 8 32768 ++ leBytes 4 1) ++ [0, 0]) [] []) (run1 [] []) 1, 0, ((writeRun ⟨some 35, 4095⟩ (rDeclOf ((seen (img1 (opw 1 0 0 1 0 0 0 0) (opw 0x30 0 64 1 64 0 0 0) (opw 0x4F 0 0 0 0 0 0 0) 5 5 (fitB 64 ([3, 9, 0, 0, 32, 0, 0, 0] ++ leBytes 8 0 ++ leBytes 8 65536 ++ leBytes 8 32768 ++ leBytes 4 1) ++ [0, 0]) [] []) (run1 [] []) 1).m.decl (seen (img1 (opw 1 0 0 1 0 0 0 0) (opw 0x30 0 64 1 64 0 0 0) (opw 0x4F 0 0 0 0 0 0 0) 5 5 (fitB 64 ([3, 9, 0, 0, 32, 0, 0, 0] ++ leBytes 8 0 ++ leBytes 8 65536 ++ leBytes 8 32768 ++ leBytes 4 1) ++ [0, 0]) [] []) (run1 [] []) 1).o.a4)) [runRecord (rDeclOf ((seen (img1 (opw 1 0 0 1 0 0 0 0) (opw 0x30 0 64 1 64 0 0 0) (opw 0x4F 0 0 0 0 0 0 0) 5 5 (fitB 64 ([3, 9, 0, 0, 32, 0, 0, 0] ++ leBytes 8 0 ++ leBytes 8 65536 ++ leBytes 8 32768 ++ leBytes 4 1) ++ [0, 0]) [] []) (run1 [] []) 1).m.decl (seen (img1 (opw 1 0 0 1 0 0 0 0) (opw 0x30 0 64 1 64 0 0 0) (opw 0x4F 0 0 0 0 0 0 0) 5 5 (fitB 64 ([3, 9, 0, 0, 32, 0, 0, 0] ++ leBytes 8 0 ++ leBytes 8 65536 ++ leBytes 8 32768 ++ leBytes 4 1) ++ [0, 0]) [] []) (run1 [] []) 1).o.a4)) (sortKeyOf (seen (img1 (opw 1 0 0 1 0 0 0 0) (opw 0x30 0 64 1 64 0 0 0) (opw 0x4F 0 0 0 0 0 0 0) 5 5 (fitB 64 ([3, 9, 0, 0, 32, 0, 0, 0] ++ leBytes 8 0 ++ leBytes 8 65536 ++ leBytes 8 32768 ++ leBytes 4 1) ++ [0, 0]) [] []) (run1 [] []) 1) ((seen (img1 (opw 1 0 0 1 0 0 0 0) (opw 0x30 0 64 1 64 0 0 0) (opw 0x4F 0 0 0 0 0 0 0) 5 5 (fitB 64 ([3, 9, 0, 0, 32, 0, 0, 0] ++ leBytes 8 0 ++ leBytes 8 65536 ++ leBytes 8 32768 ++ leBytes 4 1) ++ [0, 0]) [] []) (run1 [] []) 1).m.sortList (seen (img1 (opw 1 0 0 1 0 0 0 0) (opw 0x30 0 64 1 64 0 0 0) (opw 0x4F 0 0 0 0 0 0 0) 5 5 (fitB 64 ([3, 9, 0, 0, 32, 0, 0, 0] ++ leBytes 8 0 ++ leBytes 8 65536 ++ leBytes 8 32768 ++ leBytes 4 1) ++ [0, 0]) [] []) (run1 [] []) 1).o.a0 (seen (img1 (opw 1 0 0 1 0 0 0 0) (opw 0x30 0 64 1 64 0 0 0) (opw 0x4F 0 0 0 0 0 0 0) 5 5 (fitB 64 ([3, 9, 0, 0, 32, 0, 0, 0] ++ leBytes 8 0 ++ leBytes 8 65536 ++ leBytes 8 32768 ++ leBytes 4 1) ++ [0, 0]) [] []) (run1 [] []) 1).o.a1) (row1 1) 0) ((row1 1).rn 0) []] 0).run (atRun (img1 (opw 1 0 0 1 0 0 0 0) (opw 0x30 0 64 1 64 0 0 0) (opw 0x4F 0 0 0 0 0 0 0) 5 5 (fitB 64 ([3, 9, 0, 0, 32, 0, 0, 0] ++ leBytes 8 0 ++ leBytes 8 65536 ++ leBytes 8 32768 ++ leBytes 4 1) ++ [0, 0]) [] []) (run1 [] []) (rowTask (row1 1)))).2, by decide +kernel⟩

theorem test_TableOperatorsComplete_10 : ∃ (s : State) (n : Fin 36) (x : Task) (b : Batch) (c : OpCtx),
    s.standsAt n 0x30 x b c ∧
    b.selected = [] :=
  ⟨atRun imgSort (run1 [] []) (rowTask rowOut), 35, rowTask rowOut, rowOut, seen imgSort (run1 [] []) 1, by decide +kernel⟩

theorem test_SinksComplete_1 : ∃ (s : State) (n : Fin 36) (x : Task) (b : Batch) (c : OpCtx) (g : Nat) (u : State),
    s.standsAt n 0x41 x b c ∧
    b.selected ≠ [] ∧
    c.m.colList c.o.a0 c.o.a1 ≠ [] ∧
    (c.m.colList c.o.a0 c.o.a1).all (fun e => ((outDOf (nthD c.r.outs e.1 [])).map (·.group)).getD 0 == g) = true ∧
    ((emitGroup n c x b g (c.m.colList c.o.a0 c.o.a1)).run s).1.toOption = some () ∧
    ((emitGroup n c x b g (c.m.colList c.o.a0 c.o.a1)).run s).2 = u ∧
    (u.slice n).task = some x :=
  ⟨atRun imgEmit (run1 [] [rawD]) (rowTask (row1 1)), 35, rowTask (row1 1), row1 1, seen imgEmit (run1 [] [rawD]) 1, 0, ((emitGroup 35 (seen imgEmit (run1 [] [rawD]) 1) (rowTask (row1 1)) (row1 1) 0 [(0, 0)]).run (atRun imgEmit (run1 [] [rawD]) (rowTask (row1 1)))).2, by decide +kernel⟩

theorem test_SinksComplete_2 : ∃ (s : State) (n : Fin 36) (x : Task) (b : Batch) (c : OpCtx),
    s.standsAt n 0x41 x b c ∧
    b.selected = [] :=
  ⟨atRun imgEmit (run1 [] [rawD]) (rowTask rowOut), 35, rowTask rowOut, rowOut, seen imgEmit (run1 [] [rawD]) 1, by decide +kernel⟩

theorem test_SinksComplete_3 : ∃ (s : State) (n : Fin 36) (x : Task) (b : Batch) (c : OpCtx) (i : Nat) (e : Nat) (r : Nat) (o : OutD) (en : ETE) (u : State),
    s.standsAt n 0x41 x b c ∧
    b.selected = [i] ∧
    c.m.colList c.o.a0 c.o.a1 = [(e, r)] ∧
    outDOf (nthD c.r.outs e []) = some o ∧
    o.ty ≠ .varstr ∧
    bitAt o.flags 0 = false ∧
    Tab.get 0 c.r.groups o.group < o.cap ∧
    findEte (s.slice n).tlb (s.tset x.ctx) ((o.base + Tab.get 0 c.r.groups o.group * o.ty.width) / 65536) = some en ∧
    en.w = true ∧
    o.base + Tab.get 0 c.r.groups o.group * o.ty.width < 2 ^ 57 ∧
    (o.base + Tab.get 0 c.r.groups o.group * o.ty.width) % 65536 + o.ty.width ≤ 65536 ∧
    s.writePa (s.ctxIdent x.ctx) (en.phys (o.base + Tab.get 0 c.r.groups o.group * o.ty.width)) (leBytes o.ty.width (if (b.cell r i).ok then (b.cell r i).v else 0)) = (.ok, u) :=
  ⟨(atRun (img1 (opw 1 0 0 1 0 0 0 0) (opw 0x41 0 0 1 0 0 0 0) (opw 0x4F 0 0 0 0 0 0 0) 5 5 [] [] (fitB 64 ([2, 5, 0, 0, 0, 0, 0, 0] ++ leBytes 8 0 ++ leBytes 8 1))) (run1 [] [(fitB 64 ([2, 5, 0, 0, 0, 0, 0, 0] ++ leBytes 8 0 ++ leBytes 8 1))]) (rowTask (row1 1))), 35, rowTask (row1 1), row1 1, seen (img1 (opw 1 0 0 1 0 0 0 0) (opw 0x41 0 0 1 0 0 0 0) (opw 0x4F 0 0 0 0 0 0 0) 5 5 [] [] (fitB 64 ([2, 5, 0, 0, 0, 0, 0, 0] ++ leBytes 8 0 ++ leBytes 8 1))) (run1 [] [(fitB 64 ([2, 5, 0, 0, 0, 0, 0, 0] ++ leBytes 8 0 ++ leBytes 8 1))]) 1, 0, 0, 0, ⟨2, .i64, 0, 0, 0, 0, 1, 0, 0, 0⟩, ete0, ((atRun (img1 (opw 1 0 0 1 0 0 0 0) (opw 0x41 0 0 1 0 0 0 0) (opw 0x4F 0 0 0 0 0 0 0) 5 5 [] [] (fitB 64 ([2, 5, 0, 0, 0, 0, 0, 0] ++ leBytes 8 0 ++ leBytes 8 1))) (run1 [] [(fitB 64 ([2, 5, 0, 0, 0, 0, 0, 0] ++ leBytes 8 0 ++ leBytes 8 1))]) (rowTask (row1 1))).writePa p63 0 (leBytes 8 1)).2, by decide +kernel⟩

theorem test_SinksComplete_4 : ∃ (s : State) (n : Fin 36) (x : Task) (b : Batch) (c : OpCtx) (recs : List (List Byte)) (k : Nat) (u : State),
    s.standsAt n 0x42 x b c ∧
    b.selected.map (inlineBytes c b ((c.m.regList c.o.a0 c.o.a1).map Prod.fst)) = recs ∧
    min ((min c.r.outBytes (bitsOf c.o.a5 9 0 * 128) - c.r.inl) / ((recs.head?).map (·.length)).getD 1) recs.length = k ∧
    0 < k ∧
    ((putInline n c x c.r.inl (recs.take k).flatten).run s).1.toOption = some () ∧
    ((putInline n c x c.r.inl (recs.take k).flatten).run s).2 = u ∧
    u.desc x.ring x.seq = some c.d ∧
    (u.slice n).task = some x :=
  ⟨atRun imgInl (run1 [] []) (rowTask (row1 1)), 35, rowTask (row1 1), row1 1, seen imgInl (run1 [] []) 1, [1 :: leBytes 8 1], 1, ((putInline 35 (seen imgInl (run1 [] []) 1) (rowTask (row1 1)) 0 (1 :: leBytes 8 1)).run (atRun imgInl (run1 [] []) (rowTask (row1 1)))).2, by decide +kernel⟩

theorem test_SinksComplete_5 : ∃ (s : State) (n : Fin 36) (x : Task) (b : Batch) (c : OpCtx) (recs : List (List Byte)),
    s.standsAt n 0x42 x b c ∧
    b.selected.map (inlineBytes c b ((c.m.regList c.o.a0 c.o.a1).map Prod.fst)) = recs ∧
    min ((min c.r.outBytes (bitsOf c.o.a5 9 0 * 128) - c.r.inl) / ((recs.head?).map (·.length)).getD 1) recs.length = 0 :=
  ⟨atRun imgInl { run1 [] [] with outBytes := 8 } (rowTask (row1 1)), 35, rowTask (row1 1), row1 1, seen imgInl { run1 [] [] with outBytes := 8 } 1, [1 :: leBytes 8 1], by decide +kernel⟩

theorem test_SinksComplete_6 : ∃ (s : State) (n : Fin 36) (x : Task) (b : Batch) (c : OpCtx),
    s.standsAt n 0x4F x b c ∧
    (x.queue.rows = [] ∨ x.ending = true) :=
  ⟨(atRun (img1 (opw 1 0 0 1 0 0 0 0) (opw 0x4F 0 0 0 0 0 0 0) (opw 0x4F 0 0 0 0 0 0 0) 5 5 [] [] []) (run1 [] []) (rowTask (row1 1))), 35, rowTask (row1 1), row1 1, seen (img1 (opw 1 0 0 1 0 0 0 0) (opw 0x4F 0 0 0 0 0 0 0) (opw 0x4F 0 0 0 0 0 0 0) 5 5 [] [] []) (run1 [] []) 1, by decide +kernel⟩

theorem test_SinksComplete_7 : ∃ (s : State) (n : Fin 36) (x : Task) (b : Batch) (c : OpCtx),
    s.standsAt n 0x4F x b c ∧
    x.ending = false ∧
    (1024 ≤ x.queue.rows.length ∨ (x.opened = true ∧ x.blks ≤ x.blk ∧ x.queue.rows ≠ [])) :=
  ⟨atRun imgEnd (run1 [] []) { rowTask (row1 1) with opened := true, queue := row1 3 }, 35, { rowTask (row1 1) with opened := true, queue := row1 3 }, row1 1, seen imgEnd (run1 [] []) 1, by decide +kernel⟩

theorem test_InputOperatorsComplete_1 : ∃ (s : State) (n : Fin 36) (x : Task) (c : OpCtx),
    s.inputsAt n 1 x c ∧
    x.opened = false ∧
    x.kind ≠ .gather ∧
    (c.scanPages x).all (fun y => (s.pageEte n x y.2.1 y.2.2).any (fun e => e.r) && decide (y.2.1.base + 65536 * y.2.2 < 2 ^ 57)) = true :=
  ⟨atRun (img1 (opw 1 0 0 1 0 0 0 0) (opw 0x42 0 0 1 0 0 0 0x3FF) (opw 0x4F 0 0 0 0 0 0 0) 5 5 [] (fitB 64 ([1, 5, 0, 0, 0, 0, 0, 0] ++ leBytes 8 0 ++ leBytes 8 1)) []) (run1 [(fitB 64 ([1, 5, 0, 0, 0, 0, 0, 0] ++ leBytes 8 0 ++ leBytes 8 1))] []) inTask, 35, inTask, (seen (img1 (opw 1 0 0 1 0 0 0 0) (opw 0x42 0 0 1 0 0 0 0x3FF) (opw 0x4F 0 0 0 0 0 0 0) 5 5 [] (fitB 64 ([1, 5, 0, 0, 0, 0, 0, 0] ++ leBytes 8 0 ++ leBytes 8 1)) []) (run1 [(fitB 64 ([1, 5, 0, 0, 0, 0, 0, 0] ++ leBytes 8 0 ++ leBytes 8 1))] []) 0), by decide +kernel⟩

theorem test_InputOperatorsComplete_2 : ∃ (s : State) (n : Fin 36) (x : Task) (b : Batch) (c : OpCtx),
    s.standsAt n 1 x b c ∧
    c.fetches b = true ∧
    ((startFetch n c x b).run s).1.toOption = some () :=
  ⟨atRun imgFetch (run1 [encD] []) (rowTask row0), 35, rowTask row0, row0, seen imgFetch (run1 [encD] []) 1, by decide +kernel⟩

theorem test_InputOperatorsComplete_3 : ∃ (s : State) (n : Fin 36) (x : Task) (b : Batch) (c : OpCtx),
    s.standsAt n 1 x b c ∧
    c.fetches b = false :=
  ⟨atRun imgFetch (run1 [encD] []) (rowTask (row1 1)), 35, rowTask (row1 1), row1 1, seen imgFetch (run1 [encD] []) 1, by decide +kernel⟩

theorem test_InputOperatorsComplete_4 : ∃ (s : State) (n : Fin 36) (x : Task) (c : OpCtx) (d : ColD) (rows : List (Bool × Nat)) (pa : Nat) (u : State),
    s.inputsAt n 2 x c ∧
    x.kind ≠ .gather ∧
    bitAt c.o.opt 0 = false ∧
    c.ncols = 1 ∧
    c.col 0 = some d ∧
    d.ty ≠ .varstr ∧
    d.ty ≠ .bool ∧
    x.sent < x.blocks c ∧
    1024 * (x.firstBlock c + x.sent) < d.rows ∧
    ((rawBlock (x.who n) d (x.firstBlock c + x.sent)).run s).1.toOption = some rows ∧
    ((rawBlock (x.who n) d (x.firstBlock c + x.sent)).run s).2 = u ∧
    ((xlate (x.who n) (d.base + 1024 * (x.firstBlock c + x.sent) * d.ty.width) false).run u).1.toOption = some pa ∧
    ((xlate (x.who n) (d.base + 1024 * (x.firstBlock c + x.sent) * d.ty.width) false).run u).2 = u ∧
    (u.slice n).task = some x ∧
    u.eng.surv = s.eng.surv :=
  ⟨(atRun (img1 (opw 2 0 0 1 0 0 0 0) (opw 0x42 0 0 1 0 0 0 0x3FF) (opw 0x4F 0 0 0 0 0 0 0) 5 5 [] (fitB 64 ([1, 5, 0, 0, 0, 0, 0, 0] ++ leBytes 8 0 ++ leBytes 8 1)) []) (run1 [(fitB 64 ([2, 5, 0, 0, 0, 0, 0, 0] ++ leBytes 8 0 ++ leBytes 8 1))] []) { inTask with blks := 1, opened := true }), 35, { inTask with blks := 1, opened := true }, (seen (img1 (opw 2 0 0 1 0 0 0 0) (opw 0x42 0 0 1 0 0 0 0x3FF) (opw 0x4F 0 0 0 0 0 0 0) 5 5 [] (fitB 64 ([1, 5, 0, 0, 0, 0, 0, 0] ++ leBytes 8 0 ++ leBytes 8 1)) []) (run1 [(fitB 64 ([2, 5, 0, 0, 0, 0, 0, 0] ++ leBytes 8 0 ++ leBytes 8 1))] []) 0), ⟨2, .i64, 0, 0, 0, 0, 0, 0, 1, 0, 0, 0⟩, [(true, 0)], 0, ((rawBlock ⟨some 35, 4095⟩ ⟨2, .i64, 0, 0, 0, 0, 0, 0, 1, 0, 0, 0⟩ 0).run (atRun (img1 (opw 2 0 0 1 0 0 0 0) (opw 0x42 0 0 1 0 0 0 0x3FF) (opw 0x4F 0 0 0 0 0 0 0) 5 5 [] (fitB 64 ([1, 5, 0, 0, 0, 0, 0, 0] ++ leBytes 8 0 ++ leBytes 8 1)) []) (run1 [(fitB 64 ([2, 5, 0, 0, 0, 0, 0, 0] ++ leBytes 8 0 ++ leBytes 8 1))] []) { inTask with blks := 1, opened := true })).2, by decide +kernel⟩

theorem test_InputOperatorsComplete_5 : ∃ (s : State) (n : Fin 36) (x : Task) (c : OpCtx) (k : Nat) (bytes : List Byte) (u : State) (d : TDecl),
    s.inputsAt n 2 x c ∧
    bitAt c.o.opt 0 = true ∧
    x.opened = false ∧
    x.kind = .unit k ∧
    (c.r.pipe x.pipe).next < (c.r.pipe x.pipe).total ∧
    tDeclOf (c.m.decl c.o.a4) = d ∧
    ((vread (x.who n) (d.base + 65536 * k) (128 * min 512 (2 ^ d.linesLog2 - 512 * k))).run (s.setTask n { x with blks := 1 })).1.toOption = some bytes ∧
    ((vread (x.who n) (d.base + 65536 * k) (128 * min 512 (2 ^ d.linesLog2 - 512 * k))).run (s.setTask n { x with blks := 1 })).2 = u ∧
    u.cbSound n ∧
    (u.slice n).task = some { x with blks := 1 } ∧
    (tableRows c d ((List.range (min 512 (2 ^ d.linesLog2 - 512 * k))).map (fun i => (8 * (512 * k + i), sliceB bytes (128 * i) 128)))).rows ≠ [] :=
  ⟨atTab, 35, inTask, sTab, 0, fitB 128 [0, 0, 0, 0, 1], ((vread (inTask.who 35) 0 128).run (atTab.setTask 35 { inTask with blks := 1 })).2, tDeclOf (sTab.m.decl 0), by decide +kernel⟩

theorem test_InputOperatorsComplete_6 : ∃ (s : State) (n : Fin 36) (x : Task) (c : OpCtx) (got : List (List (List Cell))) (u : State),
    s.inputsAt n 3 x c ∧
    x.kind ≠ .gather ∧
    x.opened = false ∧
    (((s.recvPlan n x c).mapM (fun q => recvRows x q.1 q.2)).run s).1.toOption = some got ∧
    (((s.recvPlan n x c).mapM (fun q => recvRows x q.1 q.2)).run s).2 = u ∧
    (u.slice n).task = some x ∧
    u.cbSound n ∧
    got.flatten ≠ [] ∧
    ((c.m.colList c.o.a0 c.o.a1).map Prod.snd).Nodup :=
  ⟨atRecv, 35, rcvTask, seen imgRecv (run1 [] []) 0, [[[Cell.of 1]]], (((atRecv.recvPlan 35 rcvTask (seen imgRecv (run1 [] []) 0)).mapM (fun q => recvRows rcvTask q.1 q.2)).run atRecv).2, by decide +kernel⟩

theorem test_InputOperatorsComplete_7 : ∃ (s : State) (n : Fin 36) (x : Task) (c : OpCtx) (k : Nat) (k1 : Nat) (bytes : List Byte) (u : State) (q : Batch),
    s.inputsAt n 4 x c ∧
    c.d.stall = none ∧
    c.d.fail = none ∧
    x.kind = .unit k ∧
    x.opened = false ∧
    (s.ringPort x.ring = none ∨ 1024 * k * inlineRec c.m c.p c.o + k1 * inlineRec c.m c.p c.o ≤ c.d.inp.length) ∧
    1 ≤ k1 ∧
    k1 = min 1024 (c.r.inBytes / max 1 (inlineRec c.m c.p c.o) - 1024 * k) ∧
    ((inlineRead c.d c.r (1024 * k * inlineRec c.m c.p c.o) (k1 * inlineRec c.m c.p c.o)).run s).1.toOption = some bytes ∧
    ((inlineRead c.d c.r (1024 * k * inlineRec c.m c.p c.o) (k1 * inlineRec c.m c.p c.o)).run s).2 = u ∧
    (u.slice n).task = some x ∧
    u.cbSound n ∧
    u.taskGoes n x = true ∧
    ((inlineRows c (1024 * k) bytes k1).run u).1.toOption = some q :=
  ⟨(atRun (img1 (opw 4 0 0 1 0 0 0 0) (opw 0x42 0 0 1 0 0 0 0x3FF) (opw 0x4F 0 0 0 0 0 0 0) 5 5 [] (fitB 64 ([1, 5, 0, 0, 0, 0, 0, 0] ++ leBytes 8 0 ++ leBytes 8 1)) []) { run1 [] [] with inBytes := 9 } inTask), 35, inTask, (seen (img1 (opw 4 0 0 1 0 0 0 0) (opw 0x42 0 0 1 0 0 0 0x3FF) (opw 0x4F 0 0 0 0 0 0 0) 5 5 [] (fitB 64 ([1, 5, 0, 0, 0, 0, 0, 0] ++ leBytes 8 0 ++ leBytes 8 1)) []) { run1 [] [] with inBytes := 9 } 0), 0, 1, List.replicate 9 0, ((inlineRead (seen (img1 (opw 4 0 0 1 0 0 0 0) (opw 0x42 0 0 1 0 0 0 0x3FF) (opw 0x4F 0 0 0 0 0 0 0) 5 5 [] (fitB 64 ([1, 5, 0, 0, 0, 0, 0, 0] ++ leBytes 8 0 ++ leBytes 8 1)) []) { run1 [] [] with inBytes := 9 } 0).d { run1 [] [] with inBytes := 9 } 0 9).run (atRun (img1 (opw 4 0 0 1 0 0 0 0) (opw 0x42 0 0 1 0 0 0 0x3FF) (opw 0x4F 0 0 0 0 0 0 0) 5 5 [] (fitB 64 ([1, 5, 0, 0, 0, 0, 0, 0] ++ leBytes 8 0 ++ leBytes 8 1)) []) { run1 [] [] with inBytes := 9 } inTask)).2, ⟨[0], [true], [(0, [Cell.null])]⟩, by decide +kernel⟩

theorem test_InputOperatorsComplete_8 : ∃ (s : State) (n : Fin 36) (x : Task) (c : OpCtx) (pool : List Nat) (l : List Nat) (last : Bool) (ps : PipeSt),
    s.inputsAt n 49 x c ∧
    x.kind ≠ .gather ∧
    x.opened = false ∧
    x.told = false ∧
    (c.r.pipe x.pipe).runs = some pool ∧
    nextMerge (c.r.pipe x.pipe) c.fanIn pool = some (l, last, ps) :=
  ⟨atRun imgMerge runMerge mrgTask, 35, mrgTask, seen imgMerge runMerge 0, [0, 1], [0, 1], true, { PipeSt.start with runs := some [], finished := true }, by decide +kernel⟩

theorem test_InputOperatorsComplete_9 : ∃ (s : State) (n : Fin 36) (x : Task) (c : OpCtx),
    s.inputsAt n 49 x c ∧
    x.kind ≠ .gather ∧
    x.opened = false ∧
    x.told = true :=
  ⟨atRun (img1 (opw 49 0 0 1 0 0 0 2) (opw 0x42 0 0 1 0 0 0 0x3FF) (opw 0x4F 0 0 0 0 0 0 0) 5 5 (fitB 64 ([3, 9, 0, 0, 32, 0, 0, 0] ++ leBytes 8 0 ++ leBytes 8 65536 ++ leBytes 8 32768 ++ leBytes 4 1)) (fitB 64 ([1, 5, 0, 0, 0, 0, 0, 0] ++ leBytes 8 0 ++ leBytes 8 1)) []) { run1 [] [] with pipes := [(0, { PipeSt.start with runs := some [], merging := 1 })] } { Task.start 9 4095 7 4095 0 .merge with told := true, runs := [0] }, 35, { Task.start 9 4095 7 4095 0 .merge with told := true, runs := [0] }, seen (img1 (opw 49 0 0 1 0 0 0 2) (opw 0x42 0 0 1 0 0 0 0x3FF) (opw 0x4F 0 0 0 0 0 0 0) 5 5 (fitB 64 ([3, 9, 0, 0, 32, 0, 0, 0] ++ leBytes 8 0 ++ leBytes 8 65536 ++ leBytes 8 32768 ++ leBytes 4 1)) (fitB 64 ([1, 5, 0, 0, 0, 0, 0, 0] ++ leBytes 8 0 ++ leBytes 8 1)) []) { run1 [] [] with pipes := [(0, { PipeSt.start with runs := some [], merging := 1 })] } 0, by decide +kernel⟩

theorem test_InputOperatorsComplete_10 : ∃ (s : State) (n : Fin 36) (x : Task) (c : OpCtx),
    s.inputsAt n 49 x c ∧
    x.kind ≠ .gather ∧
    x.opened = true ∧
    x.final = false ∧
    x.blk < x.blks ∧
    ((interMerge n c x).run s).1.toOption = some () :=
  ⟨atRun (img1 (opw 49 0 0 1 0 0 0 2) (opw 0x42 0 0 1 0 0 0 0x3FF) (opw 0x4F 0 0 0 0 0 0 0) 5 5 (fitB 64 ([3, 9, 0, 0, 32, 0, 0, 0] ++ leBytes 8 0 ++ leBytes 8 65536 ++ leBytes 8 32768 ++ leBytes 4 1)) (fitB 64 ([1, 5, 0, 0, 0, 0, 0, 0] ++ leBytes 8 0 ++ leBytes 8 1)) []) { run1 [] [] with pipes := [(0, { PipeSt.start with runs := some [], merging := 1 })] } { Task.start 9 4095 7 4095 0 .merge with opened := true, blks := 1, runs := [0] }, 35, { Task.start 9 4095 7 4095 0 .merge with opened := true, blks := 1, runs := [0] }, (seen (img1 (opw 49 0 0 1 0 0 0 2) (opw 0x42 0 0 1 0 0 0 0x3FF) (opw 0x4F 0 0 0 0 0 0 0) 5 5 (fitB 64 ([3, 9, 0, 0, 32, 0, 0, 0] ++ leBytes 8 0 ++ leBytes 8 65536 ++ leBytes 8 32768 ++ leBytes 4 1)) (fitB 64 ([1, 5, 0, 0, 0, 0, 0, 0] ++ leBytes 8 0 ++ leBytes 8 1)) []) { run1 [] [] with pipes := [(0, { PipeSt.start with runs := some [], merging := 1 })] } 0), by decide +kernel⟩

theorem test_InputOperatorsComplete_11 : ∃ (s : State) (n : Fin 36) (x : Task) (c : OpCtx) (recs : List (List Byte)) (u : State),
    s.inputsAt n 49 x c ∧
    x.kind ≠ .gather ∧
    x.opened = true ∧
    x.final = true ∧
    x.blk < x.blks ∧
    x.blks = 1 ∧
    ((mergedRecords (x.who n) (rDeclOf (c.m.decl c.o.a4)) x.runs).run s).1.toOption = some recs ∧
    ((mergedRecords (x.who n) (rDeclOf (c.m.decl c.o.a4)) x.runs).run s).2 = u ∧
    (u.slice n).task = some x ∧
    u.cbSound n ∧
    recs ≠ [] :=
  ⟨((atRun (img1 (opw 49 0 0 1 0 0 0 2) (opw 0x42 0 0 1 0 0 0 0x3FF) (opw 0x4F 0 0 0 0 0 0 0) 5 5 (fitB 64 ([3, 9, 0, 0, 32, 0, 0, 0] ++ leBytes 8 0 ++ leBytes 8 65536 ++ leBytes 8 32768 ++ leBytes 4 1)) (fitB 64 ([1, 5, 0, 0, 0, 0, 0, 0] ++ leBytes 8 0 ++ leBytes 8 1)) []) { run1 [] [] with pipes := [(0, { PipeSt.start with runs := some [], merging := 1 })] } { Task.start 9 4095 7 4095 0 .merge with opened := true, blks := 1, runs := [0], final := true }).setBytes (32768 + 128) (leBytes 8 0 ++ leBytes 4 1)), 35, { Task.start 9 4095 7 4095 0 .merge with opened := true, blks := 1, runs := [0], final := true }, (seen (img1 (opw 49 0 0 1 0 0 0 2) (opw 0x42 0 0 1 0 0 0 0x3FF) (opw 0x4F 0 0 0 0 0 0 0) 5 5 (fitB 64 ([3, 9, 0, 0, 32, 0, 0, 0] ++ leBytes 8 0 ++ leBytes 8 65536 ++ leBytes 8 32768 ++ leBytes 4 1)) (fitB 64 ([1, 5, 0, 0, 0, 0, 0, 0] ++ leBytes 8 0 ++ leBytes 8 1)) []) { run1 [] [] with pipes := [(0, { PipeSt.start with runs := some [], merging := 1 })] } 0), [List.replicate 32 0], ((mergedRecords ⟨some 35, 4095⟩ (rDeclOf ((seen (img1 (opw 49 0 0 1 0 0 0 2) (opw 0x42 0 0 1 0 0 0 0x3FF) (opw 0x4F 0 0 0 0 0 0 0) 5 5 (fitB 64 ([3, 9, 0, 0, 32, 0, 0, 0] ++ leBytes 8 0 ++ leBytes 8 65536 ++ leBytes 8 32768 ++ leBytes 4 1)) (fitB 64 ([1, 5, 0, 0, 0, 0, 0, 0] ++ leBytes 8 0 ++ leBytes 8 1)) []) { run1 [] [] with pipes := [(0, { PipeSt.start with runs := some [], merging := 1 })] } 0).m.decl (seen (img1 (opw 49 0 0 1 0 0 0 2) (opw 0x42 0 0 1 0 0 0 0x3FF) (opw 0x4F 0 0 0 0 0 0 0) 5 5 (fitB 64 ([3, 9, 0, 0, 32, 0, 0, 0] ++ leBytes 8 0 ++ leBytes 8 65536 ++ leBytes 8 32768 ++ leBytes 4 1)) (fitB 64 ([1, 5, 0, 0, 0, 0, 0, 0] ++ leBytes 8 0 ++ leBytes 8 1)) []) { run1 [] [] with pipes := [(0, { PipeSt.start with runs := some [], merging := 1 })] } 0).o.a4)) [0]).run ((atRun (img1 (opw 49 0 0 1 0 0 0 2) (opw 0x42 0 0 1 0 0 0 0x3FF) (opw 0x4F 0 0 0 0 0 0 0) 5 5 (fitB 64 ([3, 9, 0, 0, 32, 0, 0, 0] ++ leBytes 8 0 ++ leBytes 8 65536 ++ leBytes 8 32768 ++ leBytes 4 1)) (fitB 64 ([1, 5, 0, 0, 0, 0, 0, 0] ++ leBytes 8 0 ++ leBytes 8 1)) []) { run1 [] [] with pipes := [(0, { PipeSt.start with runs := some [], merging := 1 })] } { Task.start 9 4095 7 4095 0 .merge with opened := true, blks := 1, runs := [0], final := true }).setBytes (32768 + 128) (leBytes 8 0 ++ leBytes 4 1))).2, by decide +kernel⟩

theorem test_InputOperatorsComplete_12 : ∃ (s : State) (n : Fin 36) (x : Task) (c : OpCtx) (k : Nat) (o : OpW),
    (s.slice n).task = some x ∧
    s.taskGoes n x = true ∧
    x.kind = .gather ∧
    s.opCtx { x with oper := 0 } = some c ∧
    s.cbSound n ∧
    x.opened = false ∧
    x.batch = none ∧
    x.probes = [] ∧
    x.queue = Batch.empty ∧
    x.ending = false ∧
    x.blks ≤ x.blk ∧
    (c.r.pipe x.pipe).running = 1 ∧
    s.eng.top.all (fun m => m.ring != x.ring || m.seq != x.seq || m.pipe != x.pipe) = true ∧
    s.inputGone c.d c.r c.m 16 x.pipe = true ∧
    topkAt c.p = some (k, o) :=
  ⟨atRun (img1 (opw 1 0 0 1 0 0 0 0) (opw 0x32 0 0 1 0 0 0 1) (opw 0x4F 0 0 0 0 0 0 0) 5 5 [] (fitB 64 ([1, 5, 0, 0, 0, 0, 0, 0] ++ leBytes 8 0 ++ leBytes 8 1)) []) { run1 [] [] with pipes := [(0, { PipeSt.start with running := 1, gather := some 35, heap := [⟨[], 0, []⟩] })] } (Task.start 9 4095 7 4095 0 .gather), 35, (Task.start 9 4095 7 4095 0 .gather), (seen (img1 (opw 1 0 0 1 0 0 0 0) (opw 0x32 0 0 1 0 0 0 1) (opw 0x4F 0 0 0 0 0 0 0) 5 5 [] (fitB 64 ([1, 5, 0, 0, 0, 0, 0, 0] ++ leBytes 8 0 ++ leBytes 8 1)) []) { run1 [] [] with pipes := [(0, { PipeSt.start with running := 1, gather := some 35, heap := [⟨[], 0, []⟩] })] } 0), 1, opWOf (img1 (opw 1 0 0 1 0 0 0 0) (opw 0x32 0 0 1 0 0 0 1) (opw 0x4F 0 0 0 0 0 0 0) 5 5 [] (fitB 64 ([1, 5, 0, 0, 0, 0, 0, 0] ++ leBytes 8 0 ++ leBytes 8 1)) []) 176, by decide +kernel⟩

theorem test_InputOperatorsComplete_13 : ∃ (s : State) (n : Fin 36) (m : TMsg) (x : Task) (c : OpCtx) (k : Nat) (o : OpW),
    s.eng.top.find? (fun m => m.dst == n.val) = some m ∧
    (s.slice n).task = some x ∧
    s.taskGoes n x = true ∧
    s.cbSound n ∧
    x.kind = .gather ∧
    x.ring = m.ring ∧
    x.seq = m.seq ∧
    x.pipe = m.pipe ∧
    s.opCtx { x with oper := 0 } = some c ∧
    topkAt c.p = some (k, o) :=
  ⟨atTop, 35, ⟨4095, 7, 0, 35, [⟨[], 0, []⟩], none⟩, gatTask, seen imgTop runTop 0, 1, opWOf (img1 (opw 1 0 0 1 0 0 0 0) (opw 0x32 0 0 1 0 0 0 1) (opw 0x4F 0 0 0 0 0 0 0) 5 5 [] (fitB 64 ([1, 5, 0, 0, 0, 0, 0, 0] ++ leBytes 8 0 ++ leBytes 8 1)) []) 176, by decide +kernel⟩

theorem test_InputOperatorsComplete_14 : ∃ (s : State) (n : Fin 36) (x : Task) (c : OpCtx) (q : Nat),
    (s.slice n).task = some x ∧
    s.taskGoes n x = true ∧
    x.kind = .level0 q ∧
    x.opened = false ∧
    s.opCtx { x with oper := 0 } = some c ∧
    c.p.aggOp.isSome = true ∧
    ((level0Merge n c x q).run s).1.toOption = some () :=
  ⟨atRun imgL0 (run1 [] []) l0Task, 35, l0Task, seen imgL0 (run1 [] []) 0, 63, by decide +kernel⟩

theorem test_InputOperatorsComplete_15 : ∃ (s : State) (n : Fin 36) (x : Task) (c : OpCtx) (q : Nat) (k : Nat) (o : OpW),
    (s.slice n).task = some x ∧
    s.taskGoes n x = true ∧
    x.kind = .level0 q ∧
    x.opened = false ∧
    s.opCtx { x with oper := 0 } = some c ∧
    c.p.aggOp = some (k, o) ∧
    Tab.get ([], 0) c.r.l0 (l0Key x.pipe q) = ([], 0) ∧
    (s.slice n).agg = [] :=
  ⟨atRun (img1 (opw 1 0 0 1 0 0 0 0) (opw 0x23 0 0 1 0 0 0 1) (opw 0x4F 0 0 0 0 0 0 0) 5 5 [] (fitB 64 ([1, 5, 0, 0, 0, 0, 0, 0] ++ leBytes 8 0 ++ leBytes 8 1)) []) (run1 [] []) (Task.start 9 4095 7 4095 0 (.level0 63)), 35, (Task.start 9 4095 7 4095 0 (.level0 63)), (seen (img1 (opw 1 0 0 1 0 0 0 0) (opw 0x23 0 0 1 0 0 0 1) (opw 0x4F 0 0 0 0 0 0 0) 5 5 [] (fitB 64 ([1, 5, 0, 0, 0, 0, 0, 0] ++ leBytes 8 0 ++ leBytes 8 1)) []) (run1 [] []) 0), 63, 1, opWOf (img1 (opw 1 0 0 1 0 0 0 0) (opw 0x23 0 0 1 0 0 0 1) (opw 0x4F 0 0 0 0 0 0 0) 5 5 [] (fitB 64 ([1, 5, 0, 0, 0, 0, 0, 0] ++ leBytes 8 0 ++ leBytes 8 1)) []) 176, by decide +kernel⟩

theorem test_ScanFrontsComplete_1 : ∃ (s : State) (n : Fin 36) (q : PageBuf),
    s.eng.pages.find? (fun b => b.slice == n.val && b.col == 0 && b.oper == 0 && !b.opened) = some q :=
  ⟨{ R with eng := { R.eng with pages := [⟨35, 9, 0, 0, 15, 0, 0, false, [], none⟩] } }, 35, ⟨35, 9, 0, 0, 15, 0, 0, false, [], none⟩, by decide +kernel⟩

theorem test_ScanFrontsComplete_2 : ∃ (s : State) (n : Fin 36) (ln : Nat) (q : PageBuf) (x : Task),
    s.eng.pages.find? (fun b => b.slice == n.val && b.opened && b.ready.isNone && decide (b.pa / 128 ≤ ln) && decide (ln < b.pa / 128 + 512)) = some q ∧
    (s.slice n).task = some x ∧
    s.plainLine (s.ctxIdent x.ctx) ln false :=
  ⟨{ (atRun [] (run1 [] []) inTask) with eng := { (atRun [] (run1 [] []) inTask).eng with pages := [⟨35, 9, 0, 0, 0, 0, 0x7FFFFFF0000, true, [], none⟩] } }, 35, top, ⟨35, 9, 0, 0, 0, 0, 0x7FFFFFF0000, true, [], none⟩, inTask, by decide +kernel⟩

theorem test_ScanFrontsComplete_3 : ∃ (s : State) (n : Fin 36) (col : Fin 16) (page : Nat) (x : Task) (c : OpCtx) (q : PageBuf) (d : ColD),
    (s.slice n).task = some x ∧
    s.taskGoes n x = true ∧
    s.openBuf n x col page = some q ∧
    s.opCtx { x with oper := q.oper } = some c ∧
    c.o.opc = 1 ∧
    c.col col = some d ∧
    ((releasePage n c x col page q d).run s).1.toOption = some () :=
  ⟨{ (atRun (img1 (opw 1 0 0 1 0 0 0 0) (opw 0x42 0 0 1 0 0 0 0x3FF) (opw 0x4F 0 0 0 0 0 0 0) 5 5 [] (fitB 64 ([1, 0x0D, 0, 0, 0, 0, 0, 0] ++ leBytes 8 0 ++ leBytes 8 0)) []) (run1 [(fitB 64 ([1, 0x0D, 0, 0, 0, 0, 0, 0] ++ leBytes 8 0 ++ leBytes 8 0))] []) inTask) with eng := { (atRun (img1 (opw 1 0 0 1 0 0 0 0) (opw 0x42 0 0 1 0 0 0 0x3FF) (opw 0x4F 0 0 0 0 0 0 0) 5 5 [] (fitB 64 ([1, 0x0D, 0, 0, 0, 0, 0, 0] ++ leBytes 8 0 ++ leBytes 8 0)) []) (run1 [(fitB 64 ([1, 0x0D, 0, 0, 0, 0, 0, 0] ++ leBytes 8 0 ++ leBytes 8 0))] []) inTask).eng with pages := [⟨35, 9, 0, 0, 0, 0, 0, true, [(0, (fitB 128 (leBytes 4 0x50435246 ++ [1, 0x0D, 0, 0] ++ leBytes 2 16384 ++ leBytes 2 3 ++ leBytes 2 3 ++ leBytes 4 0 ++ leBytes 2 65408), false)), (511, (fitB 128 (leBytes 4 0x46435246), false))], none⟩] } }, 35, 0, 0, inTask, (seen (img1 (opw 1 0 0 1 0 0 0 0) (opw 0x42 0 0 1 0 0 0 0x3FF) (opw 0x4F 0 0 0 0 0 0 0) 5 5 [] (fitB 64 ([1, 0x0D, 0, 0, 0, 0, 0, 0] ++ leBytes 8 0 ++ leBytes 8 0)) []) (run1 [(fitB 64 ([1, 0x0D, 0, 0, 0, 0, 0, 0] ++ leBytes 8 0 ++ leBytes 8 0))] []) 0), ⟨35, 9, 0, 0, 0, 0, 0, true, [(0, (fitB 128 (leBytes 4 0x50435246 ++ [1, 0x0D, 0, 0] ++ leBytes 2 16384 ++ leBytes 2 3 ++ leBytes 2 3 ++ leBytes 4 0 ++ leBytes 2 65408), false)), (511, (fitB 128 (leBytes 4 0x46435246), false))], none⟩, ⟨1, .dec128, 0, 0, 0, 0, 0, 0, 0, 0, 0, 0⟩, by decide +kernel⟩

theorem test_ScanFrontsComplete_4 : ∃ (s : State) (n : Fin 36) (x : Task) (c : OpCtx) (m : ChainMsg) (d : ColD),
    (s.slice n).task = some x ∧
    s.taskGoes n x = true ∧
    s.opCtx { x with oper := 0 } = some c ∧
    s.eng.chains.find? (fun m => m.slice == n.val && m.task == x.id) = some m ∧
    c.col m.col = some d ∧
    ceilDiv d.rows 1024 ≤ x.firstBlock c + m.blk :=
  ⟨{ (atRun (img1 (opw 1 0 0 1 0 0 0 0) (opw 0x42 0 0 1 0 0 0 0x3FF) (opw 0x4F 0 0 0 0 0 0 0) 5 5 [] (fitB 64 ([1, 5, 0, 0, 0, 0, 0, 0] ++ leBytes 8 0 ++ leBytes 8 1)) []) (run1 [(fitB 64 ([1, 5, 0, 0, 0, 0, 0, 0] ++ leBytes 8 0 ++ leBytes 8 1))] []) inTask) with eng := { (atRun (img1 (opw 1 0 0 1 0 0 0 0) (opw 0x42 0 0 1 0 0 0 0x3FF) (opw 0x4F 0 0 0 0 0 0 0) 5 5 [] (fitB 64 ([1, 5, 0, 0, 0, 0, 0, 0] ++ leBytes 8 0 ++ leBytes 8 1)) []) (run1 [(fitB 64 ([1, 5, 0, 0, 0, 0, 0, 0] ++ leBytes 8 0 ++ leBytes 8 1))] []) inTask).eng with chains := [⟨35, 9, 0, 1, noBits⟩] } }, 35, inTask, (seen (img1 (opw 1 0 0 1 0 0 0 0) (opw 0x42 0 0 1 0 0 0 0x3FF) (opw 0x4F 0 0 0 0 0 0 0) 5 5 [] (fitB 64 ([1, 5, 0, 0, 0, 0, 0, 0] ++ leBytes 8 0 ++ leBytes 8 1)) []) (run1 [(fitB 64 ([1, 5, 0, 0, 0, 0, 0, 0] ++ leBytes 8 0 ++ leBytes 8 1))] []) 0), ⟨35, 9, 0, 1, noBits⟩, ⟨1, .i64, 0, 0, 0, 0, 0, 0, 1, 0, 0, 0⟩, by decide +kernel⟩

theorem test_ScanFrontsComplete_5 : ∃ (s : State) (n : Fin 36) (x : Task) (c : OpCtx) (m : ChainMsg) (d : ColD) (q : PageBuf) (pd : PageData) (rows : List (Bool × Nat)) (bits : List Bool),
    (s.slice n).task = some x ∧
    s.taskGoes n x = true ∧
    s.opCtx { x with oper := 0 } = some c ∧
    s.eng.chains.find? (fun m => m.slice == n.val && m.task == x.id) = some m ∧
    c.col m.col = some d ∧
    x.firstBlock c + m.blk < ceilDiv d.rows 1024 ∧
    s.eng.pages.find? (fun b => b.slice == n.val && b.task == x.id && b.oper == 0 && b.col == m.col && b.page == (x.firstBlock c + m.blk) / d.slots) = some q ∧
    q.ready = some pd ∧
    rowsBelow d (x.firstBlock c + m.blk) (blockRows d pd ((x.firstBlock c + m.blk) % d.slots)) = rows ∧
    blockBits c m.col d rows m.bits = bits ∧
    ((sendSurvivors (x.who n) n c x m.col m.blk (s.frontOf q.pa) d rows bits true).run (s.eng' (fun e => { e with chains := e.chains.erase m }))).1.toOption = some () :=
  ⟨atScan inTask [page0] [⟨35, 9, 0, 0, []⟩] [], 35, inTask, sScan, ⟨35, 9, 0, 0, []⟩, encC, page0, ([], []), rowsBelow encC 0 (blockRows encC ([], []) 0), blockBits sScan 0 encC (rowsBelow encC 0 (blockRows encC ([], []) 0)) [], by decide +kernel, by decide +kernel, by decide +kernel, by decide +kernel, by decide +kernel, by decide +kernel, by decide +kernel, by decide +kernel, rfl, rfl, by rw [show rowsBelow encC 0 (blockRows encC ([], []) 0) = [] by decide +kernel]; exact survivors_ok ..⟩

theorem test_ScanFrontsComplete_6 : ∃ (s : State) (n : Fin 36) (x : Task) (c : OpCtx) (m : ChainMsg) (d : ColD) (q : PageBuf),
    (s.slice n).task = some x ∧
    s.taskGoes n x = true ∧
    s.opCtx { x with oper := 0 } = some c ∧
    s.eng.chains.find? (fun m => m.slice == n.val && m.task == x.id) = some m ∧
    c.col m.col = some d ∧
    x.firstBlock c + m.blk < ceilDiv d.rows 1024 ∧
    s.eng.pages.find? (fun b => b.slice == n.val && b.task == x.id && b.oper == 0 && b.col == m.col && b.page == (x.firstBlock c + m.blk) / d.slots) = some q ∧
    q.ready = none ∧
    q.opened = false ∧
    s.frontRoom q.pa = true :=
  ⟨atScan inTask [{ page0 with opened := false, ready := none }] [⟨35, 9, 0, 0, noBits⟩] [], 35, inTask, sScan, ⟨35, 9, 0, 0, noBits⟩, encC, { page0 with opened := false, ready := none }, by decide +kernel⟩

theorem test_ScanFrontsComplete_7 : ∃ (s : State) (n : Fin 36) (x : Task) (b : Batch) (c : OpCtx) (it : FetchItem) (q : PageBuf) (pd : PageData),
    (s.slice n).task = some x ∧
    s.taskGoes n x = true ∧
    s.scanCtx x = some c ∧
    s.cbSound n ∧
    x.batch = some b ∧
    x.fetching = true ∧
    x.fetch.all (fun e => (s.pageBuf n x e.col e.page).all (·.opened)) = true ∧
    x.fetch.findSome? (fun e => match s.pageBuf n x e.col e.page with
    | some pb => pb.ready.map (fun l => (e, pb, l))
    | none => none) = some (it, q, pd) ∧
    ((fetchRows n c x b it q pd).run s).1.toOption = some () ∧
    c.col it.col ≠ none :=
  ⟨{ (atRun (img1 (opw 1 0 0 1 0 0 0 0) (opw 1 0 0 1 0 0 0 0) (opw 0x4F 0 0 0 0 0 0 0) 5 5 [] (fitB 64 ([1, 5, 0, 0, 0, 0, 0, 0] ++ leBytes 8 0 ++ leBytes 8 1)) []) (run1 [(fitB 64 ([1, 5, 0, 0, 0, 0, 0, 0] ++ leBytes 8 0 ++ leBytes 8 1))] []) { rowTask (row1 1) with fetching := true, fetch := [⟨0, 0⟩] }) with eng := { (atRun (img1 (opw 1 0 0 1 0 0 0 0) (opw 1 0 0 1 0 0 0 0) (opw 0x4F 0 0 0 0 0 0 0) 5 5 [] (fitB 64 ([1, 5, 0, 0, 0, 0, 0, 0] ++ leBytes 8 0 ++ leBytes 8 1)) []) (run1 [(fitB 64 ([1, 5, 0, 0, 0, 0, 0, 0] ++ leBytes 8 0 ++ leBytes 8 1))] []) { rowTask (row1 1) with fetching := true, fetch := [⟨0, 0⟩] }).eng with pages := [⟨35, 9, 1, 0, 0, 0, 0, true, [], some ([], [])⟩] } }, 35, { rowTask (row1 1) with fetching := true, fetch := [⟨0, 0⟩] }, row1 1, (seen (img1 (opw 1 0 0 1 0 0 0 0) (opw 1 0 0 1 0 0 0 0) (opw 0x4F 0 0 0 0 0 0 0) 5 5 [] (fitB 64 ([1, 5, 0, 0, 0, 0, 0, 0] ++ leBytes 8 0 ++ leBytes 8 1)) []) (run1 [(fitB 64 ([1, 5, 0, 0, 0, 0, 0, 0] ++ leBytes 8 0 ++ leBytes 8 1))] []) 1), ⟨0, 0⟩, ⟨35, 9, 1, 0, 0, 0, 0, true, [], some ([], [])⟩, ([], []), by decide +kernel, by decide +kernel, by decide +kernel, by decide +kernel, by decide +kernel, by decide +kernel, by decide +kernel, rfl, by decide +kernel, by decide +kernel⟩

theorem test_ScanFrontsComplete_8 : ∃ (s : State) (n : Fin 36) (x : Task) (c : OpCtx) (q : Batch),
    (s.slice n).task = some x ∧
    s.taskGoes n x = true ∧
    s.cbSound n ∧
    s.opCtx { x with oper := 0 } = some c ∧
    x.opened = true ∧
    (c.o.opc = 1 ∨ c.o.opc = 2) ∧
    c.ncols ≤ (s.survOf n x x.blk).length ∧
    blockBatch x c (s.survOf n x x.blk) (1024 * (x.firstBlock c + x.blk)) = q ∧
    x.blk + 1 < x.blks ∧
    (x.queue.append q).rows.length < 1024 :=
  ⟨atScan (scanTask 2) [] [] [surv0], 35, scanTask 2, sScan, blockBatch (scanTask 1) sScan [surv0] 0, by decide +kernel, by decide +kernel, by decide +kernel, by decide +kernel, by decide +kernel, by decide +kernel, by decide +kernel, rfl, by decide +kernel, by decide +kernel⟩

theorem test_ScanFrontsComplete_9 : ∃ (s : State) (n : Fin 36) (x : Task) (c : OpCtx) (q : Batch),
    (s.slice n).task = some x ∧
    s.taskGoes n x = true ∧
    s.cbSound n ∧
    s.opCtx { x with oper := 0 } = some c ∧
    x.opened = true ∧
    (c.o.opc = 1 ∨ c.o.opc = 2) ∧
    c.ncols ≤ (s.survOf n x x.blk).length ∧
    blockBatch x c (s.survOf n x x.blk) (1024 * (x.firstBlock c + x.blk)) = q ∧
    x.blk + 1 = x.blks ∧
    x.queue = Batch.empty ∧
    x.batch = none ∧
    x.probes = [] ∧
    x.ending = false ∧
    q.rows ≠ [] :=
  ⟨atScan (scanTask 1) [] [] [surv0], 35, scanTask 1, sScan, blockBatch (scanTask 1) sScan [surv0] 0, by decide +kernel, by decide +kernel, by decide +kernel, by decide +kernel, by decide +kernel, by decide +kernel, by decide +kernel, rfl, by decide +kernel, by decide +kernel, by decide +kernel, by decide +kernel, by decide +kernel, by decide +kernel⟩

theorem test_ScanFrontsComplete_10 : ∃ (s : State) (m : CorrMsg) (l : List CorrMsg),
    s.eng.corr = m :: l ∧
    s.plainLine m.who m.ln true ∧
    s.memBytes (128 * m.ln) 128 = m.old ∧
    m.new.length = 128 ∧
    s.rd (Reg.MCH_FLIP (s.chanOf (128 * m.ln))) F.MCH_FLIP_ARM = 0 :=
  ⟨{ ram with eng := { ram.eng with corr := [⟨top, List.replicate 128 0, List.replicate 128 1, p63, 15⟩] } }, ⟨top, List.replicate 128 0, List.replicate 128 1, p63, 15⟩, [], by decide +kernel⟩

theorem test_ScanFrontsComplete_11 : ∃ (s : State) (m : CorrMsg) (l : List CorrMsg),
    s.eng.corr = m :: l ∧
    s.plainLine m.who m.ln false ∧
    s.memBytes (128 * m.ln) 128 ≠ m.old :=
  ⟨{ ram with eng := { ram.eng with corr := [⟨top, List.replicate 128 2, List.replicate 128 1, p63, 15⟩] } }, ⟨top, List.replicate 128 2, List.replicate 128 1, p63, 15⟩, [], by decide +kernel⟩

theorem test_BucketOperationsComplete_1 : ∃ (s : State) (b : BOp) (d : TDecl) (who : Ident) (distinct : Bool) (k : Nat) (ln : Nat) (v : Visit),
    s.bop b.id = some b ∧
    s.bopSent b = true ∧
    b.kind = .insert distinct ∧
    b.st = .line k ∧
    d = s.bopDecl b ∧
    who = s.ctxIdent (s.bopCtx b) ∧
    nthD b.lines k 0 = 128 * ln ∧
    s.plainLine who ln true ∧
    s.fwGrants who (128 * ln) false = true ∧
    s.rd (Reg.MCH_FLIP (s.chanOf (128 * ln))) F.MCH_FLIP_ARM = 0 ∧
    d.entryBytes ≤ 128 ∧
    d.visit b (s.memBytes (128 * ln) 128) true = v :=
  ⟨atBop (bop (.insert false) (.line 0)), bop (.insert false) (.line 0), (atBop (bop (.insert false) (.line 0))).bopDecl (bop (.insert false) (.line 0)), p63, false, 0, top, ((atBop (bop (.insert false) (.line 0))).bopDecl (bop (.insert false) (.line 0))).visit (bop (.insert false) (.line 0)) d0.data true, by decide +kernel⟩

theorem test_BucketOperationsComplete_2 : ∃ (s : State) (b : BOp) (d : TDecl) (who : Ident) (k : Nat) (ln : Nat) (v : Visit),
    s.bop b.id = some b ∧
    s.bopSent b = true ∧
    b.kind = .merge ∧
    b.st = .line k ∧
    d = s.bopDecl b ∧
    who = s.ctxIdent (s.bopCtx b) ∧
    nthD b.lines k 0 = 128 * ln ∧
    s.plainLine who ln true ∧
    s.fwGrants who (128 * ln) false = true ∧
    s.rd (Reg.MCH_FLIP (s.chanOf (128 * ln))) F.MCH_FLIP_ARM = 0 ∧
    d.entryBytes ≤ 128 ∧
    d.visit b (s.memBytes (128 * ln) 128) true = v :=
  ⟨atBop (bop .merge (.line 0)), bop .merge (.line 0), (atBop (bop .merge (.line 0))).bopDecl (bop .merge (.line 0)), p63, 0, top, ((atBop (bop .merge (.line 0))).bopDecl (bop .merge (.line 0))).visit (bop .merge (.line 0)) d0.data true, by decide +kernel⟩

theorem test_BucketOperationsComplete_3 : ∃ (s : State) (b : BOp) (d : TDecl) (who : Ident) (k : Nat) (ln : Nat) (v : Visit),
    s.bop b.id = some b ∧
    s.bopSent b = true ∧
    b.kind = .probe ∧
    b.st = .line k ∧
    d = s.bopDecl b ∧
    who = s.ctxIdent (s.bopCtx b) ∧
    nthD b.lines k 0 = 128 * ln ∧
    s.plainLine who ln false ∧
    d.visit b (s.memBytes (128 * ln) 128) true = v :=
  ⟨atBop (bop .probe (.line 0)), bop .probe (.line 0), (atBop (bop .probe (.line 0))).bopDecl (bop .probe (.line 0)), p63, 0, top, ((atBop (bop .probe (.line 0))).bopDecl (bop .probe (.line 0))).visit (bop .probe (.line 0)) d0.data true, by decide +kernel⟩

theorem test_BucketOperationsComplete_4 : ∃ (s : State) (b : BOp) (who : Ident) (ln : Nat) (a : List Byte),
    s.bop b.id = some b ∧
    b.kind = .probe ∧
    b.st = .anchor ∧
    s.anchorBusy b = false ∧
    who = s.ctxIdent (s.bopCtx b) ∧
    b.anchor = 128 * ln ∧
    s.plainLine who ln false ∧
    s.memBytes b.anchor 128 = a ∧
    bitAt (leAt a 0 1) 1 = false ∧
    (bitAt (leAt a 0 1) 0 = false ∨ leAt a 8 8 = 0) :=
  ⟨atBop (bop .probe .anchor), bop .probe .anchor, p63, 0, d0.data, by decide +kernel⟩

theorem test_BucketOperationsComplete_5 : ∃ (s : State) (b : BOp) (who : Ident) (ln : Nat) (a : List Byte),
    s.bop b.id = some b ∧
    b.st = .anchor ∧
    s.anchorBusy b = false ∧
    who = s.ctxIdent (s.bopCtx b) ∧
    b.anchor = 128 * ln ∧
    s.plainLine who ln false ∧
    s.memBytes b.anchor 128 = a ∧
    bitAt (leAt a 0 1) 1 = true :=
  ⟨(atBop (bop .probe .anchor)).setBytes 0 [2], bop .probe .anchor, p63, 0, fitB 128 [2], by decide +kernel⟩

theorem test_BucketOperationsComplete_6 : ∃ (s : State) (b : BOp) (who : Ident) (ln : Nat) (a : List Byte),
    s.bop b.id = some b ∧
    b.st = .anchor ∧
    s.anchorBusy b = false ∧
    who = s.ctxIdent (s.bopCtx b) ∧
    b.anchor = 128 * ln ∧
    s.plainLine who ln false ∧
    s.memBytes b.anchor 128 = a ∧
    bitAt (leAt a 0 1) 1 = false ∧
    bitAt (leAt a 0 1) 0 = true ∧
    leAt a 8 8 ≠ 0 :=
  ⟨(atBop (bop .probe .anchor)).setBytes 0 [1, 0, 0, 0, 0, 0, 0, 0, 0, 0, 1], bop .probe .anchor, p63, 0, fitB 128 [1, 0, 0, 0, 0, 0, 0, 0, 0, 0, 1], by decide +kernel⟩

theorem test_BucketOperationsComplete_7 : ∃ (s : State) (b : BOp) (d : TDecl) (who : Ident) (p : Nat) (j : Nat) (l : Nat) (v : Visit),
    s.bop b.id = some b ∧
    b.st = .chunk (128 * p) l true ∧
    d = s.bopDecl b ∧
    who = s.ctxIdent (s.bopCtx b) ∧
    b.anchor = 128 * j ∧
    s.plainLine who p false ∧
    s.plainLine who j false ∧
    s.plainLine who (p + l) false ∧
    l < leAt (s.memBytes (128 * p) 128) 8 4 ∧
    d.visit b (s.memBytes (128 * (p + l)) 128) false = v ∧
    v.line = none :=
  ⟨(atBop (bop .probe (.chunk 65536 1 true))).setBytes 65544 [2], bop .probe (.chunk 65536 1 true), (atBop (bop .probe (.chunk 65536 1 true))).bopDecl (bop .probe (.chunk 65536 1 true)), p63, 512, 0, 1, ((atBop (bop .probe (.chunk 65536 1 true))).bopDecl (bop .probe (.chunk 65536 1 true))).visit (bop .probe (.chunk 65536 1 true)) d0.data false, by decide +kernel⟩

theorem test_BucketOperationsComplete_8 : ∃ (s : State) (b : BOp) (who : Ident) (p : Nat) (j : Nat) (l : Nat),
    s.bop b.id = some b ∧
    b.kind = .probe ∧
    b.st = .chunk (128 * p) l true ∧
    who = s.ctxIdent (s.bopCtx b) ∧
    b.anchor = 128 * j ∧
    s.plainLine who p false ∧
    s.plainLine who j false ∧
    leAt (s.memBytes (128 * p) 128) 8 4 ≤ l :=
  ⟨atBop (bop .probe (.chunk 65536 1 true)), bop .probe (.chunk 65536 1 true), p63, 512, 0, 1, by decide +kernel⟩

theorem test_BucketOperationsComplete_9 : ∃ (s : State) (b : BOp) (x : Task) (p : ProbeSt) (l : List ProbeSt),
    s.bop b.id = some b ∧
    b.kind = .probe ∧
    b.st = .done ∧
    b.status = 0 ∧
    (s.slice b.slice).task = some x ∧
    b.slice < 36 ∧
    x.id = b.task ∧
    x.probes = p :: l ∧
    p.oper = b.oper ∧
    l.all (fun q => q.oper != b.oper) = true ∧
    x.batch.isSome = true :=
  ⟨{ (atRun (img1 (opw 1 0 0 1 0 0 0 0) (opw 0x42 0 0 1 0 0 0 0x3FF) (opw 0x4F 0 0 0 0 0 0 0) 5 5 [1, 0, 4, 1, 0, 1, 1, 0, 0, 0, 0, 0, 0, 0, 0, 0, 0, 8, 0, 0, 0, 0, 0, 0, 2, 0, 0, 0, 0, 0, 0, 0, 2] (fitB 64 ([1, 5, 0, 0, 0, 0, 0, 0] ++ leBytes 8 0 ++ leBytes 8 1)) []) (run1 [] []) { inTask with batch := some (row1 1), probes := [pr1] }) with eng := { (atRun (img1 (opw 1 0 0 1 0 0 0 0) (opw 0x42 0 0 1 0 0 0 0x3FF) (opw 0x4F 0 0 0 0 0 0 0) 5 5 [1, 0, 4, 1, 0, 1, 1, 0, 0, 0, 0, 0, 0, 0, 0, 0, 0, 8, 0, 0, 0, 0, 0, 0, 2, 0, 0, 0, 0, 0, 0, 0, 2] (fitB 64 ([1, 5, 0, 0, 0, 0, 0, 0] ++ leBytes 8 0 ++ leBytes 8 1)) []) (run1 [] []) { inTask with batch := some (row1 1), probes := [pr1] }).eng with bops := [(BOp.mk 5 .probe 4095 7 0 1 35 9 0 ⟨1, [(true, 1)], [⟨true, 1, 0⟩]⟩ [] [2 ^ 43 - 128] [0] 0 0 0 0 .done 0 [] 0 0)] } }, (BOp.mk 5 .probe 4095 7 0 1 35 9 0 ⟨1, [(true, 1)], [⟨true, 1, 0⟩]⟩ [] [2 ^ 43 - 128] [0] 0 0 0 0 .done 0 [] 0 0), { inTask with batch := some (row1 1), probes := [pr1] }, pr1, [], by decide +kernel⟩

theorem test_BucketOperationsComplete_10 : ∃ (s : State) (b : BOp) (x : Task) (p : ProbeSt) (c : OpCtx),
    s.bop b.id = some b ∧
    b.kind = .probe ∧
    b.st = .done ∧
    b.status = 0 ∧
    (s.slice b.slice).task = some x ∧
    b.slice < 36 ∧
    x.id = b.task ∧
    x.probes = [p] ∧
    p.oper = b.oper ∧
    x.batch = none ∧
    s.taskGoes b.slice x = true ∧
    s.opCtx x = some c ∧
    p.out.erase b.pos ≠ [] ∧
    (((p.take b).rows c.joinKind).drop p.made).length < 1024 :=
  ⟨{ atRun (img1 (opw 1 0 0 1 0 0 0 0) (opw 0x22 0 0 1 1 0 0 0) (opw 0x4F 0 0 0 0 0 0 0) 5 5 [1, 0, 4, 1, 0, 1, 1, 0, 0, 0, 0, 0, 0, 0, 0, 0, 0, 8, 0, 0, 0, 0, 0, 0, 2, 0, 0, 0, 0, 0, 0, 0, 2] (fitB 64 ([1, 5, 0, 0, 0, 0, 0, 0] ++ leBytes 8 0 ++ leBytes 8 1)) []) (run1 [] []) { rowTask (row1 1) with batch := none, probes := [{ pr1 with out := [0, 1] }] } with eng := { (atRun (img1 (opw 1 0 0 1 0 0 0 0) (opw 0x22 0 0 1 1 0 0 0) (opw 0x4F 0 0 0 0 0 0 0) 5 5 [1, 0, 4, 1, 0, 1, 1, 0, 0, 0, 0, 0, 0, 0, 0, 0, 0, 8, 0, 0, 0, 0, 0, 0, 2, 0, 0, 0, 0, 0, 0, 0, 2] (fitB 64 ([1, 5, 0, 0, 0, 0, 0, 0] ++ leBytes 8 0 ++ leBytes 8 1)) []) (run1 [] []) { rowTask (row1 1) with batch := none, probes := [{ pr1 with out := [0, 1] }] }).eng with bops := [(BOp.mk 5 .probe 4095 7 0 1 35 9 0 ⟨1, [(true, 1)], [⟨true, 1, 0⟩]⟩ [] [2 ^ 43 - 128] [0] 0 0 0 0 .done 0 [] 0 0)] } }, (BOp.mk 5 .probe 4095 7 0 1 35 9 0 ⟨1, [(true, 1)], [⟨true, 1, 0⟩]⟩ [] [2 ^ 43 - 128] [0] 0 0 0 0 .done 0 [] 0 0), { rowTask (row1 1) with batch := none, probes := [{ pr1 with out := [0, 1] }] }, { pr1 with out := [0, 1] }, seen (img1 (opw 1 0 0 1 0 0 0 0) (opw 0x22 0 0 1 1 0 0 0) (opw 0x4F 0 0 0 0 0 0 0) 5 5 [1, 0, 4, 1, 0, 1, 1, 0, 0, 0, 0, 0, 0, 0, 0, 0, 0, 8, 0, 0, 0, 0, 0, 0, 2, 0, 0, 0, 0, 0, 0, 0, 2] (fitB 64 ([1, 5, 0, 0, 0, 0, 0, 0] ++ leBytes 8 0 ++ leBytes 8 1)) []) (run1 [] []) 1, by decide +kernel⟩

theorem test_BucketOperationsComplete_11 : ∃ (s : State) (b : BOp) (x : Task) (p : ProbeSt) (c : OpCtx),
    s.bop b.id = some b ∧
    b.kind = .probe ∧
    b.st = .done ∧
    b.status = 0 ∧
    (s.slice b.slice).task = some x ∧
    b.slice < 36 ∧
    s.cbSound b.slice ∧
    x.id = b.task ∧
    x.probes = [p] ∧
    p.oper = b.oper ∧
    x.batch = none ∧
    s.taskGoes b.slice x = true ∧
    s.opCtx x = some c ∧
    p.out.erase b.pos = [] ∧
    (((p.take b).rows c.joinKind).drop p.made).length ≤ 1024 :=
  ⟨{ atRun (img1 (opw 1 0 0 1 0 0 0 0) (opw 0x22 0 0 1 1 0 0 0) (opw 0x4F 0 0 0 0 0 0 0) 5 5 [1, 0, 4, 1, 0, 1, 1, 0, 0, 0, 0, 0, 0, 0, 0, 0, 0, 8, 0, 0, 0, 0, 0, 0, 2, 0, 0, 0, 0, 0, 0, 0, 2] (fitB 64 ([1, 5, 0, 0, 0, 0, 0, 0] ++ leBytes 8 0 ++ leBytes 8 1)) []) (run1 [] []) { rowTask (row1 1) with batch := none, probes := [pr1] } with eng := { (atRun (img1 (opw 1 0 0 1 0 0 0 0) (opw 0x22 0 0 1 1 0 0 0) (opw 0x4F 0 0 0 0 0 0 0) 5 5 [1, 0, 4, 1, 0, 1, 1, 0, 0, 0, 0, 0, 0, 0, 0, 0, 0, 8, 0, 0, 0, 0, 0, 0, 2, 0, 0, 0, 0, 0, 0, 0, 2] (fitB 64 ([1, 5, 0, 0, 0, 0, 0, 0] ++ leBytes 8 0 ++ leBytes 8 1)) []) (run1 [] []) { rowTask (row1 1) with batch := none, probes := [pr1] }).eng with bops := [(BOp.mk 5 .probe 4095 7 0 1 35 9 0 ⟨1, [(true, 1)], [⟨true, 1, 0⟩]⟩ [] [2 ^ 43 - 128] [0] 0 0 0 0 .done 0 [] 0 0)] } }, (BOp.mk 5 .probe 4095 7 0 1 35 9 0 ⟨1, [(true, 1)], [⟨true, 1, 0⟩]⟩ [] [2 ^ 43 - 128] [0] 0 0 0 0 .done 0 [] 0 0), { rowTask (row1 1) with batch := none, probes := [pr1] }, pr1, seen (img1 (opw 1 0 0 1 0 0 0 0) (opw 0x22 0 0 1 1 0 0 0) (opw 0x4F 0 0 0 0 0 0 0) 5 5 [1, 0, 4, 1, 0, 1, 1, 0, 0, 0, 0, 0, 0, 0, 0, 0, 0, 8, 0, 0, 0, 0, 0, 0, 2, 0, 0, 0, 0, 0, 0, 0, 2] (fitB 64 ([1, 5, 0, 0, 0, 0, 0, 0] ++ leBytes 8 0 ++ leBytes 8 1)) []) (run1 [] []) 1, by decide +kernel⟩

theorem test_SlicesComplete_1 : ∃ (s : State) (n : Fin 36) (el : List Nat) (w : Nat) (d : Desc) (j : Nat) (k : TaskKind),
    s.slcFree n = true ∧
    s.turboHeld n = false ∧
    (s.runCtxs.filter (fun c => s.ctxMay c n)).filter (fun c => (s.ctxTask c n).isSome) = el ∧
    s.winner el = some w ∧
    s.ctxTask w n = some (d, j, k) :=
  ⟨idleRun imgScan { run1 [] [] with pipes := [(0, { PipeSt.start with total := 1 })] } Slice.reset, 35, [4095], 4095, { dsc [1] with begun := true, slot := some 255, run := some { run1 [] [] with pipes := [(0, { PipeSt.start with total := 1 })] } }, 0, .unit 0, by decide +kernel⟩

theorem test_SlicesComplete_2 : ∃ (s : State) (n : Fin 36),
    s.slcFree n = true ∧
    s.turboHeld n = true :=
  ⟨((R.wrW Reg.PKG_DIE_ACTIVE 0xFFF).wr (Reg.RCC_CCLK 11) F.RCC_CCLK_CURRENT 0).setSlice 34 (slc1 inTask), 35, by decide +kernel⟩

theorem test_SlicesComplete_3 : ∃ (s : State) (n : Fin 36) (el : List Nat) (w : Nat) (d : Desc) (j : Nat),
    s.slcFree n = true ∧
    s.turboHeld n = false ∧
    (s.runCtxs.filter (fun c => s.ctxMay c n)).filter (fun c => (s.ctxTask c n).isSome) = el ∧
    s.winner el = some w ∧
    s.ctxTask w n = some (d, j, .recv) :=
  ⟨idleRun imgRecv (run1 [] []) { Slice.reset with rbuf := [⟨none, [8], 0, ⟨4095, 7, 1, 34, 35, [[Cell.of 1]], 1, 1, 1, none, 0⟩⟩] }, 35, [4095], 4095, { dsc [1] with begun := true, slot := some 255, run := some (run1 [] []) }, 0, by decide +kernel⟩

theorem test_SlicesComplete_4 : ∃ (s : State) (n : Fin 36) (m : XMsg),
    s.eng.xch = [m] ∧
    m.dst = n ∧
    m.taken < m.sent ∧
    m.sent = m.flits ∧
    m.place = none ∧
    (s.slice n).task = none ∧
    (s.slice n).rbuf = [] ∧
    m.flits ≤ 448 ∧
    s.recvWaits m.ring m.seq m.xid = false :=
  ⟨{ R with eng := { R.eng with xch := [⟨4095, 7, 1, 34, 35, [[Cell.of 1]], 448, 448, 432, none, 0⟩] } }, 35, ⟨4095, 7, 1, 34, 35, [[Cell.of 1]], 448, 448, 432, none, 0⟩, by decide +kernel⟩

theorem test_SlicesComplete_5 : ∃ (s : State) (n : Fin 36) (m : XMsg),
    s.eng.xch = [m] ∧
    m.dst = n ∧
    m.taken < m.sent ∧
    m.sent < m.flits ∧
    m.place = none ∧
    (s.slice n).task = none ∧
    (s.slice n).rbuf = [] ∧
    m.flits ≤ 448 ∧
    s.recvWaits m.ring m.seq m.xid = false :=
  ⟨{ R with eng := { R.eng with xch := [⟨4095, 7, 1, 34, 35, [[Cell.of 1]], 448, 16, 0, none, 0⟩] } }, 35, ⟨4095, 7, 1, 34, 35, [[Cell.of 1]], 448, 16, 0, none, 0⟩, by decide +kernel⟩

theorem test_SlicesComplete_6 : ∃ (s : State) (n : Fin 36) (x : Task),
    (s.slice n).task = some x ∧
    (s.slice n).rewriting = true :=
  ⟨R.setSlice 35 { slc1 inTask with rewriting := true }, 35, inTask, by decide +kernel⟩

theorem test_SlicesComplete_7 : ∃ (s : State) (n : Fin 36),
    s.on (Reg.SLC_CTRL n) F.SLC_CTRL_CBUF_SCRUB = true ∧
    Tab.get [] (s.slice n).bad (s.slice n).scrub = [] :=
  ⟨R.wr (Reg.SLC_CTRL 35) F.SLC_CTRL_CBUF_SCRUB 1, 35, by decide +kernel⟩

theorem test_SlicesComplete_8 : ∃ (s : State) (n : Fin 36) (l : List Nat),
    s.on (Reg.SLC_CTRL n) F.SLC_CTRL_CBUF_SCRUB = true ∧
    Tab.get [] (s.slice n).bad (s.slice n).scrub = l ∧
    l ≠ [] ∧
    errUnits (s.byWord n false) l < 100 :=
  ⟨(R.wr (Reg.SLC_CTRL 35) F.SLC_CTRL_CBUF_SCRUB 1).setSlice 35 { Slice.reset with bad := [(0, [1])] }, 35, [1], by decide +kernel⟩

theorem test_SlicesComplete_9 : ∃ (s : State) (n : Fin 36) (l : List Nat),
    s.on (Reg.SLC_CTRL n) F.SLC_CTRL_CBUF_SCRUB = true ∧
    Tab.get [] (s.slice n).bad (s.slice n).scrub = l ∧
    l ≠ [] ∧
    100 ≤ errUnits (s.byWord n false) l :=
  ⟨(R.wr (Reg.SLC_CTRL 35) F.SLC_CTRL_CBUF_SCRUB 1).setSlice 35 { Slice.reset with bad := [(0, [0, 1])] }, 35, [0, 1], by decide +kernel⟩

theorem test_SlicesComplete_10 : ∃ (s : State) (n : Fin 36) (x : Task) (y : Task) (p : PipeSt),
    (s.slice n).task = some x ∧
    s.taskGoes n x = true ∧
    (s.run x.ring x.seq).map (fun r => r.pipe x.pipe) = some p ∧
    x.finished p.gathered = true ∧
    x.ending = false ∧
    ((s.taskDo n (fun t => flushTask n t)).slice n).task = some y ∧
    y.fail = none ∧
    y.stall = none :=
  ⟨atRun (img1 (opw 1 0 0 1 0 0 0 0) (opw 0x42 0 0 1 0 0 0 0x3FF) (opw 0x4F 0 0 0 0 0 0 0) 5 5 [] (fitB 64 ([1, 5, 0, 0, 0, 0, 0, 0] ++ leBytes 8 0 ++ leBytes 8 1)) []) (run1 [] []) { inTask with opened := true }, 35, { inTask with opened := true }, (((atRun imgScan (run1 [] []) { inTask with opened := true }).taskDo 35 (fun t => flushTask 35 t)).slice 35).task.getD inTask, (run1 [] []).pipe 0, by decide +kernel⟩

theorem test_SlicesComplete_11 : ∃ (s : State) (n : Fin 36) (x : Task) (f : Fail),
    (s.slice n).task = some x ∧
    s.slcGated n = false ∧
    x.fail = some f :=
  ⟨R.setSlice 35 (slc1 { inTask with fail := some ⟨1, 0, 0, 0⟩ }), 35, { inTask with fail := some ⟨1, 0, 0, 0⟩ }, ⟨1, 0, 0, 0⟩, by decide +kernel⟩

theorem test_ChannelInstructionsComplete_1 : ∃ (s : State) (n : Fin 32) (i : DmIns) (u : State) (k : Nat),
    s.channelAt n i u ∧
    i.op = 1 ∧
    i.flags ≤ 1 ∧
    i.f 13 0 ≠ 0 ∧
    k = (if bitAt i.flags 0 then u.dmIter n * i.f 13 0 else 0) :=
  ⟨(dma (1 * 2 ^ 120 + 0 * 2 ^ 104 + 1)), 31, dmInsOf (leBytes 16 (1 * 2 ^ 120 + 0 * 2 ^ 104 + 1)), ((dma (1 * 2 ^ 120 + 0 * 2 ^ 104 + 1)).readPa p63 0 16).2, 0, by decide +kernel⟩

theorem test_ChannelInstructionsComplete_2 : ∃ (s : State) (n : Fin 32) (src : Nat) (dst : Nat) (left : Nat) (r : RdRes) (u : State) (v : State),
    (s.chan n).work = .move src dst left ∧
    1 < left ∧
    s.readPa (s.chanWho n) (128 * src) 128 = (r, u) ∧
    r.res = .ok ∧
    r.poison = false ∧
    u.writePa (u.chanWho n) (128 * dst) r.bytes = (.ok, v) :=
  ⟨dmAt (.move 1 2 2), 31, 1, 2, 2, ((dmAt (.move 1 2 2)).readPa p63 128 128).1, ((dmAt (.move 1 2 2)).readPa p63 128 128).2, (((dmAt (.move 1 2 2)).readPa p63 128 128).2.writePa p63 256 d0.data).2, by decide +kernel⟩

theorem test_ChannelInstructionsComplete_3 : ∃ (s : State) (n : Fin 32) (src : Nat) (dst : Nat) (left : Nat) (r : RdRes) (u : State) (v : State),
    (s.chan n).work = .move src dst left ∧
    left ≤ 1 ∧
    s.readPa (s.chanWho n) (128 * src) 128 = (r, u) ∧
    r.res = .ok ∧
    r.poison = false ∧
    u.writePa (u.chanWho n) (128 * dst) r.bytes = (.ok, v) ∧
    v.mayEnd n 1 :=
  ⟨dmAt (.move 1 2 1), 31, 1, 2, 1, ((dmAt (.move 1 2 2)).readPa p63 128 128).1, ((dmAt (.move 1 2 1)).readPa p63 128 128).2, (((dmAt (.move 1 2 1)).readPa p63 128 128).2.writePa p63 256 d0.data).2, by decide +kernel⟩

theorem test_ChannelInstructionsComplete_4 : ∃ (s : State) (n : Fin 32) (i : DmIns) (u : State) (e : EncCol),
    s.channelAt n i u ∧
    i.op = 2 ∧
    i.encodeOk = true ∧
    bitAt i.flags 0 = false ∧
    (s.chan n).enc = some e ∧
    e.row < e.src.rows :=
  ⟨(dmaWith (2 * 2 ^ 120 + 0 * 2 ^ 104 + 1) (fun c => { c with enc := some col1 })), 31, dmInsOf (leBytes 16 (2 * 2 ^ 120 + 0 * 2 ^ 104 + 1)), ((dmaWith (2 * 2 ^ 120 + 0 * 2 ^ 104 + 1) (fun c => { c with enc := some col1 })).readPa p63 0 16).2, col1, by decide +kernel⟩

theorem test_ChannelInstructionsComplete_5 : ∃ (s : State) (n : Fin 32) (i : DmIns) (u : State) (v : State) (e : EncCol),
    s.channelAt n i u ∧
    i.op = 2 ∧
    i.encodeOk = true ∧
    bitAt i.flags 0 = true ∧
    ((openCol n (i.f 103 59 * 128) (i.f 58 56)).run u).1.toOption = some (some e) ∧
    ((openCol n (i.f 103 59 * 128) (i.f 58 56)).run u).2 = v ∧
    e.row < e.src.rows :=
  ⟨opening, 31, dmi (2 * 2 ^ 120 + 2 ^ 104 + 1024 * 2 ^ 59 + 1), dmu opening, ((openCol 31 131072 0).run (dmu opening)).2, opened, by decide +kernel⟩

theorem test_ChannelInstructionsComplete_6 : ∃ (s : State) (n : Fin 32) (i : DmIns) (u : State),
    s.channelAt n i u ∧
    i.op = 2 ∧
    i.encodeOk = true ∧
    bitAt i.flags 0 = false ∧
    (s.chan n).enc = none ∧
    u.mayEnd n 0x83 :=
  ⟨dma (2 * 2 ^ 120 + 1), 31, dmi (2 * 2 ^ 120 + 1), dmu (dma (2 * 2 ^ 120 + 1)), by decide +kernel⟩

theorem test_ChannelInstructionsComplete_7 : ∃ (s : State) (n : Fin 32) (left : Nat) (k : Nat) (e : EncCol) (e' : EncCol) (v : State),
    (s.chan n).work = .encode left ∧
    (s.chan n).enc = some e ∧
    ((takeRowsOf n e left).run s).1.toOption = some (e', k) ∧
    ((takeRowsOf n e left).run s).2 = v ∧
    k < left ∧
    e'.row < e'.src.rows :=
  ⟨encAt 20, 31, 20, 16, col40, (((takeRowsOf 31 col40 20).run (encAt 20)).1.toOption.getD (col1, 0)).1, ((takeRowsOf 31 col40 20).run (encAt 20)).2, by decide +kernel⟩

theorem test_ChannelInstructionsComplete_8 : ∃ (s : State) (n : Fin 32) (left : Nat) (k : Nat) (e : EncCol) (e' : EncCol) (v : State),
    (s.chan n).work = .encode left ∧
    (s.chan n).enc = some e ∧
    ((takeRowsOf n e left).run s).1.toOption = some (e', k) ∧
    ((takeRowsOf n e left).run s).2 = v ∧
    left ≤ k ∧
    (v.withEnc n (some e')).mayEnd n 1 :=
  ⟨encAt 1, 31, 1, 1, col40, (((takeRowsOf 31 col40 1).run (encAt 1)).1.toOption.getD (col1, 0)).1, ((takeRowsOf 31 col40 1).run (encAt 1)).2, by decide +kernel⟩

theorem test_ChannelInstructionsComplete_9 : ∃ (s : State) (n : Fin 32) (i : DmIns) (u : State) (v : State) (e : EncCol) (e' : EncCol),
    s.channelAt n i u ∧
    i.op = 3 ∧
    i.flags ≤ 1 ∧
    i.opnd = 0 ∧
    (s.chan n).enc = some e ∧
    ((flushOpen n e (bitAt i.flags 0)).run u).1.toOption = some (some e') ∧
    ((flushOpen n e (bitAt i.flags 0)).run u).2 = v ∧
    (v.withEnc n (some e')).mayEnd n 1 :=
  ⟨dmaWith (3 * 2 ^ 120) (fun c => { c with enc := some col1 }), 31, dmi (3 * 2 ^ 120), dmu (dmaWith (3 * 2 ^ 120) (fun c => { c with enc := some col1 })), ((flushOpen 31 col1 false).run (dmu (dmaWith (3 * 2 ^ 120) (fun c => { c with enc := some col1 })))).2, col1, (((flushOpen 31 col1 false).run (dmu (dmaWith (3 * 2 ^ 120) (fun c => { c with enc := some col1 })))).1.toOption.getD none).getD col40, by decide +kernel⟩

theorem test_ChannelInstructionsComplete_10 : ∃ (s : State) (n : Fin 32) (i : DmIns) (u : State),
    s.channelAt n i u ∧
    i.op = 4 ∧
    i.loopOk (s.chan n).pc = true ∧
    i.count = 1 ∧
    (s.chan n).loops.all (fun l => l.at_ != (s.chan n).pc) = true ∧
    (u.statusWrite n 1).1 = .ok :=
  ⟨(((dmaWith (4 * 2 ^ 120 + 0 * 2 ^ 104 + (1 * 2 ^ 16 + 1)) (fun c => { c with pc := 1 }))).setBytes 16 (leBytes 16 (4 * 2 ^ 120 + 0 * 2 ^ 104 + (1 * 2 ^ 16 + 1)))), 31, dmInsOf (leBytes 16 (4 * 2 ^ 120 + 0 * 2 ^ 104 + (1 * 2 ^ 16 + 1))), ((((dmaWith (4 * 2 ^ 120 + 0 * 2 ^ 104 + (1 * 2 ^ 16 + 1)) (fun c => { c with pc := 1 }))).setBytes 16 (leBytes 16 (4 * 2 ^ 120 + 0 * 2 ^ 104 + (1 * 2 ^ 16 + 1)))).readPa p63 16 16).2, by decide +kernel⟩

theorem test_ChannelInstructionsComplete_11 : ∃ (s : State) (n : Fin 32) (i : DmIns) (u : State),
    s.channelAt n i u ∧
    i.op = 4 ∧
    i.loopOk (s.chan n).pc = true ∧
    1 < i.count ∧
    (s.chan n).loops.all (fun l => l.at_ != (s.chan n).pc) = true ∧
    (s.chan n).loops.length < 4 ∧
    (u.statusWrite n 1).1 = .ok :=
  ⟨(((dmaWith (4 * 2 ^ 120 + 0 * 2 ^ 104 + (2 * 2 ^ 16 + 1)) (fun c => { c with pc := 1 }))).setBytes 16 (leBytes 16 (4 * 2 ^ 120 + 0 * 2 ^ 104 + (2 * 2 ^ 16 + 1)))), 31, dmInsOf (leBytes 16 (4 * 2 ^ 120 + 0 * 2 ^ 104 + (2 * 2 ^ 16 + 1))), ((((dmaWith (4 * 2 ^ 120 + 0 * 2 ^ 104 + (2 * 2 ^ 16 + 1)) (fun c => { c with pc := 1 }))).setBytes 16 (leBytes 16 (4 * 2 ^ 120 + 0 * 2 ^ 104 + (2 * 2 ^ 16 + 1)))).readPa p63 16 16).2, by decide +kernel⟩

theorem test_ChannelInstructionsComplete_12 : ∃ (s : State) (n : Fin 32) (i : DmIns) (u : State) (l : DmLoop),
    s.channelAt n i u ∧
    i.op = 4 ∧
    i.loopOk (s.chan n).pc = true ∧
    (s.chan n).loops.find? (fun x => x.at_ == (s.chan n).pc) = some l ∧
    0 < l.left ∧
    (u.statusWrite n 1).1 = .ok :=
  ⟨loopAt 3 [⟨1, 1, 1, 1⟩], 31, dmi (4 * 2 ^ 120 + 3 * 2 ^ 16 + 1), loopU 3 [⟨1, 1, 1, 1⟩], ⟨1, 1, 1, 1⟩, by decide +kernel⟩

theorem test_ChannelInstructionsComplete_13 : ∃ (s : State) (n : Fin 32) (i : DmIns) (u : State) (v : State) (l : DmLoop),
    s.channelAt n i u ∧
    i.op = 4 ∧
    i.loopOk (s.chan n).pc = true ∧
    (s.chan n).loops.find? (fun x => x.at_ == (s.chan n).pc) = some l ∧
    l.left = 0 ∧
    v = u.setChan n { u.chan n with loops := (u.chan n).loops.filter (fun x => x.at_ != (s.chan n).pc) } ∧
    (v.statusWrite n 1).1 = .ok :=
  ⟨loopAt 3 [⟨1, 1, 0, 2⟩], 31, dmi (4 * 2 ^ 120 + 3 * 2 ^ 16 + 1), loopU 3 [⟨1, 1, 0, 2⟩], (loopU 3 [⟨1, 1, 0, 2⟩]).setChan 31 { (loopU 3 [⟨1, 1, 0, 2⟩]).chan 31 with loops := [] }, ⟨1, 1, 0, 2⟩, by decide +kernel⟩

theorem test_ChannelInstructionsComplete_14 : ∃ (s : State) (n : Fin 32) (i : DmIns) (u : State),
    s.channelAt n i u ∧
    i.op = 5 ∧
    i.flags = 0 ∧
    i.opnd = 0 ∧
    (s.chan n).closing = [] ∧
    (u.statusWrite n 1).1 = .ok :=
  ⟨(dma (5 * 2 ^ 120 + 0 * 2 ^ 104 + 0)), 31, dmInsOf (leBytes 16 (5 * 2 ^ 120 + 0 * 2 ^ 104 + 0)), ((dma (5 * 2 ^ 120 + 0 * 2 ^ 104 + 0)).readPa p63 0 16).2, by decide +kernel⟩

theorem test_ChannelInstructionsComplete_15 : ∃ (s : State) (n : Fin 32) (i : DmIns) (u : State),
    s.channelAt n i u ∧
    i.op = 5 ∧
    i.flags = 0 ∧
    i.opnd = 0 ∧
    (s.chan n).closing ≠ [] :=
  ⟨dmaWith (5 * 2 ^ 120) (fun c => { c with closing := [shutting true] }), 31, dmi (5 * 2 ^ 120), dmu (dmaWith (5 * 2 ^ 120) (fun c => { c with closing := [shutting true] })), by decide +kernel⟩

theorem test_ChannelInstructionsComplete_16 : ∃ (s : State) (n : Fin 32) (i : DmIns) (u : State),
    s.channelAt n i u ∧
    i.op = 5 ∧
    i.flags = 1 ∧
    i.f 54 32 = 0 :=
  ⟨(dma (5 * 2 ^ 120 + 1 * 2 ^ 104 + 0)), 31, dmInsOf (leBytes 16 (5 * 2 ^ 120 + 1 * 2 ^ 104 + 0)), ((dma (5 * 2 ^ 120 + 1 * 2 ^ 104 + 0)).readPa p63 0 16).2, by decide +kernel⟩

theorem test_ChannelInstructionsComplete_17 : ∃ (s : State) (n : Fin 32) (i : DmIns) (u : State) (v : State),
    s.channelAt n i u ∧
    i.op = 6 ∧
    i.flags = 0 ∧
    i.f 54 32 = 0 ∧
    (s.chan n).closing = [] ∧
    u.writePa (u.chanWho n) (i.f 103 55 * 8) (leBytes 8 (i.f 31 0)) = (.ok, v) ∧
    (v.statusWrite n 1).1 = .ok :=
  ⟨dma (6 * 2 ^ 120 + 16 * 2 ^ 55 + 1), 31, dmi (6 * 2 ^ 120 + 16 * 2 ^ 55 + 1), dmu (dma (6 * 2 ^ 120 + 16 * 2 ^ 55 + 1)), ((dmu (dma (6 * 2 ^ 120 + 16 * 2 ^ 55 + 1))).writePa p63 128 [1, 0, 0, 0, 0, 0, 0, 0]).2, by decide +kernel⟩

theorem test_ChannelInstructionsComplete_18 : ∃ (s : State) (n : Fin 32) (i : DmIns) (u : State) (v : State),
    s.channelAt n i u ∧
    i.op = 6 ∧
    i.flags = 1 ∧
    i.f 54 32 = 0 ∧
    (s.chan n).closing = [] ∧
    u.writePa (u.chanWho n) (i.f 103 55 * 8) (leBytes 8 (i.f 31 0)) = (.ok, v) ∧
    ((v.chanMsi n).statusWrite n 1).1 = .ok :=
  ⟨dma (6 * 2 ^ 120 + 2 ^ 104 + 16 * 2 ^ 55 + 1), 31, dmi (6 * 2 ^ 120 + 2 ^ 104 + 16 * 2 ^ 55 + 1), dmu (dma (6 * 2 ^ 120 + 2 ^ 104 + 16 * 2 ^ 55 + 1)), ((dmu (dma (6 * 2 ^ 120 + 2 ^ 104 + 16 * 2 ^ 55 + 1))).writePa p63 128 [1, 0, 0, 0, 0, 0, 0, 0]).2, by decide +kernel⟩

theorem test_ChannelInstructionsComplete_19 : ∃ (s : State) (n : Fin 32) (i : DmIns) (u : State),
    s.channelAt n i u ∧
    i.op = 0xF ∧
    i.flags ≤ 1 ∧
    i.opnd = 0 ∧
    (s.chan n).enc = none ∧
    (s.chan n).closing = [] ∧
    (u.statusWrite n 1).1 = .ok :=
  ⟨(dma (15 * 2 ^ 120 + 1 * 2 ^ 104 + 0)), 31, dmInsOf (leBytes 16 (15 * 2 ^ 120 + 1 * 2 ^ 104 + 0)), ((dma (15 * 2 ^ 120 + 1 * 2 ^ 104 + 0)).readPa p63 0 16).2, by decide +kernel⟩

theorem test_ChannelInstructionsComplete_20 : ∃ (s : State) (n : Fin 32) (i : DmIns) (u : State) (v : State) (e : EncCol),
    s.channelAt n i u ∧
    i.op = 0xF ∧
    i.flags ≤ 1 ∧
    i.opnd = 0 ∧
    (s.chan n).enc = some e ∧
    ((flushShut n e).run u).1.toOption = some none ∧
    ((flushShut n e).run u).2 = v ∧
    (v.chan n).closing ≠ [] :=
  ⟨dmaWith (15 * 2 ^ 120) (fun c => { c with enc := some col1, closing := [shutting true] }), 31, dmi (15 * 2 ^ 120), dmu (dmaWith (15 * 2 ^ 120) (fun c => { c with enc := some col1, closing := [shutting true] })), ((flushShut 31 col1).run (dmu (dmaWith (15 * 2 ^ 120) (fun c => { c with enc := some col1, closing := [shutting true] })))).2, col1, by decide +kernel⟩

theorem test_ChannelInstructionsComplete_21 : ∃ (s : State) (n : Fin 32) (i : DmIns) (u : State),
    s.channelAt n i u ∧
    (i.op = 0 ∨ (6 < i.op ∧ i.op ≠ 0xF)) ∧
    (u.statusWrite n 0x84).1 = .ok :=
  ⟨(dma (0 * 2 ^ 120 + 0 * 2 ^ 104 + 0)), 31, dmInsOf (leBytes 16 (0 * 2 ^ 120 + 0 * 2 ^ 104 + 0)), ((dma (0 * 2 ^ 120 + 0 * 2 ^ 104 + 0)).readPa p63 0 16).2, by decide +kernel⟩

theorem test_ChannelProgressComplete_1 : ∃ (s : State) (n : Fin 32) (a : Nat) (e : Nat) (r : RdRes),
    s.chanState n = 1 ∧
    s.rd (Reg.DM_STATUS n) F.DM_STATUS_DONE ≠ (s.chan n).start ∧
    a = s.rd (Reg.DM_TABLE n) F.DM_TABLE_BASE * 8 + 8 * (s.rd (Reg.DM_STATUS n) F.DM_STATUS_DONE % 2 ^ s.rd (Reg.DM_TABLE n) F.DM_TABLE_SIZE_LOG2) ∧
    (s.readPa (s.chanWho n) a 8).1 = r ∧
    r.res = .ok ∧
    r.poison = false ∧
    leNat r.bytes = e ∧
    e % 16 = 0 ∧
    e < 2 ^ 52 :=
  ⟨ringing, 31, 0, 0, (ringing.readPa p63 0 8).1, by decide +kernel⟩

theorem test_ChannelProgressComplete_2 : ∃ (s : State) (n : Fin 32) (a : Nat) (e : Nat) (r : RdRes),
    s.chanState n = 1 ∧
    s.rd (Reg.DM_STATUS n) F.DM_STATUS_DONE ≠ (s.chan n).start ∧
    a = s.rd (Reg.DM_TABLE n) F.DM_TABLE_BASE * 8 + 8 * (s.rd (Reg.DM_STATUS n) F.DM_STATUS_DONE % 2 ^ s.rd (Reg.DM_TABLE n) F.DM_TABLE_SIZE_LOG2) ∧
    (s.readPa (s.chanWho n) a 8).1 = r ∧
    r.res = .ok ∧
    r.poison = false ∧
    leNat r.bytes = e ∧
    (e % 16 ≠ 0 ∨ 2 ^ 52 ≤ e) :=
  ⟨ringing.setBytes 0 [1], 31, 0, 1, ((ringing.setBytes 0 [1]).readPa p63 0 8).1, by decide +kernel⟩

theorem test_ChannelProgressComplete_3 : ∃ (s : State) (n : Fin 32) (a : Nat) (v : Nat) (r : RdRes) (u : State),
    (s.chan n).work = .wait a v ∧
    s.readPa (s.chanWho n) a 8 = (r, u) ∧
    r.res = .ok ∧
    r.poison = false ∧
    (leAt r.bytes 0 4 + 2 ^ 32 - v) % 2 ^ 32 < 2 ^ 31 ∧
    u.mayEnd n 1 :=
  ⟨dmAt (.wait 128 0), 31, 128, 0, ((dmAt (.wait 128 0)).readPa p63 128 8).1, ((dmAt (.wait 128 0)).readPa p63 128 8).2, by decide +kernel⟩

theorem test_ChannelProgressComplete_4 : ∃ (s : State) (n : Fin 32) (a : Nat) (v : Nat) (r : RdRes) (u : State),
    (s.chan n).work = .wait a v ∧
    s.readPa (s.chanWho n) a 8 = (r, u) ∧
    r.res = .ok ∧
    r.poison = false ∧
    2 ^ 31 ≤ (leAt r.bytes 0 4 + 2 ^ 32 - v) % 2 ^ 32 :=
  ⟨dmAt (.wait 128 1), 31, 128, 1, ((dmAt (.wait 128 1)).readPa p63 128 8).1, ((dmAt (.wait 128 1)).readPa p63 128 8).2, by decide +kernel⟩

theorem test_ChannelProgressComplete_5 : ∃ (s : State) (n : Fin 32) (a : Nat) (v : Nat),
    (s.chan n).work = .wait a v ∧
    s.mayEnd n 0x87 :=
  ⟨(dmaWith 0 (fun c => { c with work := .wait 128 0 })), 31, 128, 0, by decide +kernel⟩

theorem test_ChannelProgressComplete_6 : ∃ (s : State) (n : Fin 32) (c : Closing) (u : State),
    (s.chan n).closing.find? (fun c => !c.visible) = some c ∧
    s.writePa (s.chanWho n) (c.pa + 65408) c.footer = (.ok, u) :=
  ⟨dmaWith 0 (fun c => { c with closing := [shutting false] }), 31, shutting false, ((dmaWith 0 (fun c => { c with closing := [shutting false] })).writePa p63 (0x7FFFFFF0000 + 65408) d0.data).2, by decide +kernel⟩

theorem test_ChannelProgressComplete_7 : ∃ (s : State) (n : Fin 32) (c : Closing) (u : State),
    (s.chan n).closing.find? (fun c => c.visible) = some c ∧
    s.writePa (s.chanWho n) (c.blk + 144) (leBytes 8 c.nextRow ++ leBytes 8 c.heapNext ++ leBytes 8 c.pages) = (.ok, u) :=
  ⟨dmaWith 0 (fun c => { c with closing := [shutting true] }), 31, shutting true, ((dmaWith 0 (fun c => { c with closing := [shutting true] })).writePa p63 144 (List.replicate 24 0)).2, by decide +kernel⟩

theorem test_ChannelProgressComplete_8 : ∃ (s : State) (n : Fin 32) (msi : Bool),
    (s.chan n).ending = some msi ∧
    (s.chan n).closing = [] :=
  ⟨(dmaWith 0 (fun c => { c with ending := some false })), 31, false, by decide +kernel⟩

theorem test_ChannelProgressComplete_9 : ∃ (s : State) (n : Fin 32),
    (s.chan n).ending ≠ none ∧
    (s.chan n).closing ≠ [] :=
  ⟨dmaWith 0 (fun c => { c with closing := [shutting true], ending := some false }), 31, by decide +kernel⟩

theorem test_ChannelProgressComplete_10 : ∃ (s : State) (n : Fin 32),
    s.on (Reg.DM_CFG n) F.DM_CFG_VALID = false ∧
    s.chanState n = 2 ∧
    (s.chan n).closing = [] :=
  ⟨R.wr (Reg.DM_STATUS 31) F.DM_STATUS_STATE 2, 31, by decide +kernel⟩

theorem test_FinxisLinkComplete_1 : ∃ (s : State) (p : Fin 4),
    s.fxState p = 1 :=
  ⟨fx1 1 FxPort.reset, 3, by decide +kernel⟩

theorem test_FinxisLinkComplete_2 : ∃ (s : State) (p : Fin 4) (lanes : Nat),
    s.fxState p = 2 ∧
    lanes &&& 0xFF = 0xFF :=
  ⟨fx1 2 FxPort.reset, 3, 0xFF, by decide +kernel⟩

theorem test_FinxisLinkComplete_3 : ∃ (s : State) (p : Fin 4) (lanes : Nat),
    s.fxState p = 2 ∧
    lanes &&& 0xFF ≠ 0xFF ∧
    lanes &&& 0xF = 0xF :=
  ⟨fx1 2 FxPort.reset, 3, 0x0F, by decide +kernel⟩

theorem test_FinxisLinkComplete_4 : ∃ (s : State) (p : Fin 4) (lanes : Nat),
    s.fxState p = 2 ∧
    lanes &&& 0xF ≠ 0xF ∧
    lanes &&& 0xF0 = 0xF0 :=
  ⟨fx1 2 FxPort.reset, 3, 0xF7, by decide +kernel⟩

theorem test_FinxisLinkComplete_5 : ∃ (s : State) (p : Fin 4) (lanes : Nat),
    (s.fxState p = 2 ∨ s.fxState p = 6) ∧
    lanes &&& 0xF ≠ 0xF ∧
    lanes &&& 0xF0 ≠ 0xF0 :=
  ⟨fx1 2 FxPort.reset, 3, 0x77, by decide +kernel⟩

theorem test_FinxisLinkComplete_6 : ∃ (s : State) (p : Fin 4),
    s.fxState p = 3 :=
  ⟨fx1 3 FxPort.reset, 3, by decide +kernel⟩

theorem test_FinxisLinkComplete_7 : ∃ (s : State) (p : Fin 4) (lanes : Nat) (w : Nat) (up : Bool),
    s.fxState p = 6 ∧
    (s.port p).retrained (s.rd (Reg.FX_STATUS p) F.FX_STATUS_WIDTH) lanes = some (w, up) :=
  ⟨fx1 6 FxPort.reset, 3, 0x0F, 4, false, by decide +kernel⟩

theorem test_FinxisLinkComplete_8 : ∃ (s : State) (p : Fin 4),
    1 ≤ s.fxState p ∧
    s.fxState p ≤ 4 :=
  ⟨fx1 4 FxPort.reset, 3, by decide +kernel⟩

theorem test_FinxisLinkComplete_9 : ∃ (s : State) (p : Fin 4),
    s.fxState p = 6 :=
  ⟨fx1 6 FxPort.reset, 3, by decide +kernel⟩

theorem test_FinxisLinkComplete_10 : ∃ (s : State) (p : Fin 4) (c0 : Nat) (c1 : Nat) (c2 : Nat) (sess : Nat),
    s.fxState p = 4 ∧
    (s.port p).sess = some sess ∧
    16 ≤ c0 ∧
    512 ≤ c1 ∧
    32 ≤ c2 :=
  ⟨fx1 4 { FxPort.reset with sess := some 5 }, 3, 16, 512, 32, 5, by decide +kernel⟩

theorem test_FinxisLinkComplete_11 : ∃ (s : State) (p : Fin 4) (c0 : Nat) (c1 : Nat) (c2 : Nat) (sess : Nat),
    s.fxState p = 6 ∧
    (s.port p).sess = some sess ∧
    16 ≤ c0 ∧
    512 ≤ c1 ∧
    32 ≤ c2 :=
  ⟨fx1 6 { FxPort.reset with sess := some 5 }, 3, 16, 512, 32, 5, by decide +kernel⟩

theorem test_FinxisLinkComplete_12 : ∃ (s : State) (p : Fin 4) (c0 : Nat) (c1 : Nat) (c2 : Nat) (sess : Nat),
    (s.fxState p = 4 ∨ s.fxState p = 6) ∧
    (s.port p).sess ≠ some sess ∧
    keptFlits ((s.port p).unack.map Prod.snd ++ (s.port p).txq) [] = [] ∧
    16 ≤ c0 ∧
    512 ≤ c1 ∧
    32 ≤ c2 :=
  ⟨fx1 4 { FxPort.reset with sess := some 5 }, 3, 16, 512, 32, 6, by decide +kernel⟩

theorem test_FinxisLinkComplete_13 : ∃ (s : State) (p : Fin 4) (v : Nat) (c0 : Nat) (c1 : Nat) (c2 : Nat),
    (s.fxState p = 4 ∨ s.fxState p = 6) ∧
    (v ≠ 1 ∨ c0 < 16 ∨ c1 < 512 ∨ c2 < 32) :=
  ⟨fx1 6 FxPort.reset, 3, 1, 16, 512, 31, by decide +kernel⟩

theorem test_FinxisLinkComplete_14 : ∃ (s : State) (p : Fin 4) (b : List Byte) (l : List Byte) (k : FxPkt),
    s.fxState p = 5 ∧
    flitGood b false = true ∧
    flitHead b 9 8 = 0 ∧
    flitHead b 31 22 = (s.port p).rseq ∧
    Tab.get [] (s.port p).asm (flitHead b 11 10) ++ sliceB b 4 248 = l ∧
    248 * flitsOf (32 + leAt l 4 4) ≤ l.length ∧
    pktOf l = k ∧
    s.pktRefused l (flitHead b 11 10) k = none :=
  ⟨fx1 5 FxPort.reset, 3, flit1 0 [3, 0, 0xFF, 0xF, 8, 0, 0, 0], sliceB (flit1 0 [3, 0, 0xFF, 0xF, 8, 0, 0, 0]) 4 248, pktOf (sliceB (flit1 0 [3, 0, 0xFF, 0xF, 8, 0, 0, 0]) 4 248), by decide +kernel⟩

theorem test_FinxisLinkComplete_15 : ∃ (s : State) (p : Fin 4) (b : List Byte) (l : List Byte),
    s.fxState p = 5 ∧
    flitGood b false = true ∧
    flitHead b 9 8 = 0 ∧
    flitHead b 31 22 = (s.port p).rseq ∧
    Tab.get [] (s.port p).asm (flitHead b 11 10) ++ sliceB b 4 248 = l ∧
    l.length < 248 * flitsOf (32 + leAt l 4 4) :=
  ⟨fx1 5 FxPort.reset, 3, flit1 0 [2, 0, 0xFF, 0xF, 0xE8, 3, 0, 0], sliceB (flit1 0 [2, 0, 0xFF, 0xF, 0xE8, 3, 0, 0]) 4 248, by decide +kernel⟩

theorem test_FinxisLinkComplete_16 : ∃ (s : State) (p : Fin 4) (b : List Byte),
    s.fxState p = 5 ∧
    flitGood b false = true ∧
    flitHead b 9 8 = 0 ∧
    flitHead b 31 22 ≠ (s.port p).rseq ∧
    ((s.port p).rseq + 1024 - flitHead b 31 22) % 1024 ≤ 512 ∧
    (s.port p).txq = [] ∧
    (s.port p).replay = [] :=
  ⟨fx1 5 { FxPort.reset with rseq := 512 }, 3, flit1 0 [], by decide +kernel⟩

theorem test_FinxisLinkComplete_17 : ∃ (s : State) (p : Fin 4) (b : List Byte) (bad : Bool) (x : FxPort) (cv : Nat) (cn : Nat),
    s.fxState p = 5 ∧
    (flitGood b bad = false ∨ (flitHead b 9 8 = 0 ∧ 512 < ((s.port p).rseq + 1024 - flitHead b 31 22) % 1024)) ∧
    (s.port p).discard = false ∧
    FxPort.takeRet { s.port p with discard := true } = (cv, cn, x) :=
  ⟨fx1 5 FxPort.reset, 3, [], false, fxDeaf, 0, 0, by decide +kernel⟩

theorem test_FinxisLinkComplete_18 : ∃ (s : State) (p : Fin 4) (b : List Byte) (bad : Bool) (x : FxPort) (cv : Nat) (cn : Nat),
    s.fxState p = 5 ∧
    flitGood b bad = false ∧
    (s.port p).discard = false ∧
    FxPort.takeRet { s.port p with discard := true } = (cv, cn, x) :=
  ⟨fx1 5 FxPort.reset, 3, [], true, fxDeaf, 0, 0, by decide +kernel⟩

theorem test_FinxisLinkComplete_19 : ∃ (s : State) (p : Fin 4) (b : List Byte) (bad : Bool) (x : FxPort) (cv : Nat) (cn : Nat),
    s.fxState p = 5 ∧
    flitGood b bad = false ∧
    (s.port p).discard = false ∧
    FxPort.takeRet { s.port p with discard := true } = (cv, cn, x) :=
  ⟨fx1 5 FxPort.reset, 3, [], true, fxDeaf, 0, 0, by decide +kernel⟩

theorem test_FinxisLinkComplete_20 : ∃ (s : State) (p : Fin 4) (b : List Byte) (bad : Bool),
    s.fxState p = 5 ∧
    flitGood b bad = false ∧
    (s.port p).discard = true :=
  ⟨fx1 5 fxDeaf, 3, [], true, by decide +kernel⟩

theorem test_FinxisLinkComplete_21 : ∃ (s : State) (p : Fin 4) (b : List Byte),
    s.fxState p = 5 ∧
    flitGood b false = true ∧
    flitHead b 9 8 = 1 ∧
    (s.port p).txq = [] ∧
    (s.port p).replay = [] :=
  ⟨fx1 5 FxPort.reset, 3, flit1 0x100 [], by decide +kernel⟩

theorem test_FinxisLinkComplete_22 : ∃ (s : State) (p : Fin 4) (b : List Byte) (x : FxPort),
    s.fxState p = 5 ∧
    flitGood b false = true ∧
    flitHead b 9 8 = 2 ∧
    (s.port p).ret = [] ∧
    ((s.port p).acked (flitHead b 21 12)).credited (flitHead b 7 6) (flitHead b 5 0) = x ∧
    x.unack ≠ [] ∧
    x.txq = [] ∧
    64 * (x.unack.filter (fun f => f.2.vl == 1)).length ≤ x.lim ∧
    x.replays < 7 :=
  ⟨fx1 5 { FxPort.reset with unack := [(5, ⟨0, 1, 0x11, 4095, 7, []⟩)], replays := 6 }, 3, flit1 0x200 [], { FxPort.reset with unack := [(5, ⟨0, 1, 0x11, 4095, 7, []⟩)], replays := 6 }, by decide +kernel⟩

theorem test_FinxisLinkComplete_23 : ∃ (s : State) (p : Fin 4) (x : FxPort),
    s.fxState p = 5 ∧
    s.port p = x ∧
    x.ret = [] ∧
    x.unack ≠ [] ∧
    x.txq = [] ∧
    64 * (x.unack.filter (fun f => f.2.vl == 1)).length ≤ x.lim ∧
    x.replays < 7 :=
  ⟨fx1 5 { FxPort.reset with unack := [(5, ⟨0, 1, 0x11, 4095, 7, []⟩)], replays := 6 }, 3, { FxPort.reset with unack := [(5, ⟨0, 1, 0x11, 4095, 7, []⟩)], replays := 6 }, by decide +kernel⟩

theorem test_FinxisLinkComplete_24 : ∃ (s : State) (p : Fin 4),
    s.fxState p = 5 ∧
    (s.port p).unack = [] :=
  ⟨fx1 5 FxPort.reset, 3, by decide +kernel⟩

theorem test_FinxisLinkComplete_25 : ∃ (s : State) (p : Fin 4),
    s.fxState p = 5 ∧
    (s.port p).unack ≠ [] ∧
    7 ≤ (s.port p).replays ∧
    (s.port p).txq = [] :=
  ⟨fx1 5 { FxPort.reset with unack := [(5, ⟨0, 1, 0x11, 4095, 7, []⟩)], replays := 7 }, 3, by decide +kernel⟩

theorem test_FinxisLinkComplete_26 : ∃ (s : State) (p : Fin 4),
    s.fxState p = 5 ∧
    (s.port p).unack ≠ [] ∧
    7 ≤ (s.port p).replays :=
  ⟨fx1 5 { FxPort.reset with unack := [(5, ⟨0, 1, 0x11, 4095, 7, []⟩)], replays := 7 }, 3, by decide +kernel⟩

theorem test_FinxisPacketsComplete_1 : ∃ (s : State) (p : Fin 4) (k : FxPkt) (q : Nat) (w : Nat),
    s.fxNext p 1 k ∧
    s.fxOwns p k.ring = true ∧
    Tab.get (0, 0) (s.port p).want k.ring = (q, w) ∧
    s.fxExpects p k = true ∧
    s.ringFenced k.ring = false ∧
    (descFault k.payload true ≠ none ∨ stagedBytes k.payload = (0, 0)) ∧
    s.desc k.ring k.seq = none :=
  ⟨fxRuns (fxGot (pkt 1 7 0 (fitB 128 [0])) { FxPort.reset with want := [(4095, (7, 1))], wins := [(9, some cqw)] }), 3, pkt 1 7 0 (fitB 128 [0]), 7, 1, by decide +kernel⟩

theorem test_FinxisPacketsComplete_2 : ∃ (s : State) (p : Fin 4) (k : FxPkt) (i : Nat) (o : Nat) (a : Nat),
    s.fxNext p 1 k ∧
    s.fxOwns p k.ring = true ∧
    s.fxExpects p k = true ∧
    s.ringFenced k.ring = false ∧
    descFault k.payload true = none ∧
    stagedBytes k.payload = (i, o) ∧
    0 < i + o ∧
    i + o ≤ (s.fxRegion p).2 ∧
    (leAt k.payload 0 1 = 2 ∨ o = 0 ∨ (s.port p).outOk k.ring k.window o = true) ∧
    fitStage (s.port p).stages (s.fxRegion p).2 (i + o) = some a ∧
    s.desc k.ring k.seq = none :=
  ⟨cmdAt [], 3, pkt 1 7 0 cmdB, 256, 0, 0, by decide +kernel⟩

theorem test_FinxisPacketsComplete_3 : ∃ (s : State) (p : Fin 4) (k : FxPkt) (i : Nat) (o : Nat),
    s.fxNext p 1 k ∧
    s.fxOwns p k.ring = true ∧
    s.fxExpects p k = true ∧
    s.ringFenced k.ring = false ∧
    descFault k.payload true = none ∧
    stagedBytes k.payload = (i, o) ∧
    0 < i + o ∧
    i + o ≤ (s.fxRegion p).2 ∧
    (leAt k.payload 0 1 = 2 ∨ o = 0 ∨ (s.port p).outOk k.ring k.window o = true) ∧
    fitStage (s.port p).stages (s.fxRegion p).2 (i + o) = none :=
  ⟨cmdAt [⟨4095, 6, 0, 0x100000, 0, false⟩], 3, pkt 1 7 0 cmdB, 256, 0, by decide +kernel⟩

theorem test_FinxisPacketsComplete_4 : ∃ (s : State) (p : Fin 4),
    s.fxFenced p = true :=
  ⟨{ cmdAt [] with eng := { (cmdAt []).eng with descs := [dsc [4]] } }, 3, by decide +kernel⟩

theorem test_FinxisPacketsComplete_5 : ∃ (s : State) (p : Fin 4) (k : FxPkt),
    s.fxNext p 1 k ∧
    s.fxOwns p k.ring = true ∧
    s.fxExpects p k = false ∧
    k.payload.length = 128 ∧
    s.fxClear p 1 :=
  ⟨fxGot (pkt 1 7 0 (fitB 128 [0])) FxPort.reset, 3, pkt 1 7 0 (fitB 128 [0]), by decide +kernel⟩

theorem test_FinxisPacketsComplete_6 : ∃ (s : State) (p : Fin 4) (k : FxPkt),
    s.fxNext p 1 k ∧
    s.fxOwns p k.ring = false ∧
    k.payload.length = 128 ∧
    s.fxClear p 1 :=
  ⟨(fxGot (pkt 1 7 0 (fitB 128 [0])) FxPort.reset).wr (Reg.RING_CFG 4095) F.RING_CFG_ATTACH 1, 3, pkt 1 7 0 (fitB 128 [0]), by decide +kernel⟩

theorem test_FinxisPacketsComplete_7 : ∃ (s : State) (p : Fin 4) (k : FxPkt) (i : Nat) (o : Nat) (a : Nat),
    (s.port p).waiting = some k ∧
    s.fxOwns p k.ring = true ∧
    s.fxExpects p k = true ∧
    descFault k.payload true = none ∧
    stagedBytes k.payload = (i, o) ∧
    0 < i + o ∧
    i + o ≤ (s.fxRegion p).2 ∧
    (leAt k.payload 0 1 = 2 ∨ o = 0 ∨ (s.port p).outOk k.ring k.window o = true) ∧
    fitStage (s.port p).stages (s.fxRegion p).2 (i + o) = some a ∧
    s.desc k.ring k.seq = none :=
  ⟨(fxRuns (fxGot (pkt 1 8 0 []) { FxPort.reset with waiting := some (pkt 1 7 0 (fitB 128 (leBytes 16 2 ++ leBytes 8 0 ++ leBytes 4 256))), want := [(4095, (7, 1))], wins := [(9, some cqw)] })).wr (Reg.FX_STAGE 3) F.FX_STAGE_SIZE_MIB 1, 3, pkt 1 7 0 (fitB 128 (leBytes 16 2 ++ leBytes 8 0 ++ leBytes 4 256)), 256, 0, 0, by decide +kernel⟩

theorem test_FinxisPacketsComplete_8 : ∃ (s : State) (p : Fin 4) (k : FxPkt) (d : Desc) (g : FxStage) (u : State),
    s.fxNext p 2 k ∧
    s.fxOwns p k.ring = true ∧
    s.desc k.ring k.seq = some d ∧
    (s.port p).stage k.ring k.seq = some g ∧
    k.offset = d.inp.length ∧
    d.inp.length + k.payload.length ≤ d.wantIn ∧
    (bitAt k.flags 0 = false ∨ d.inp.length + k.payload.length = d.wantIn) ∧
    ((((s.setPort p { s.port p with rx := (s.port p).rx.erase k }).fxReturn p 0 (flitsOf (32 + k.payload.length))).pmcFx p 2 k.payload.length).stageWrite p (g.base + k.offset) k.payload) = (.ok, u) :=
  ⟨((({ ram with eng := { Eng.reset with descs := [{ dsc (leBytes 16 2 ++ leBytes 8 0 ++ leBytes 4 256) with inp := List.replicate 248 0 }] } }).wrW (Reg.FX_CFG 3) 0xBF00000000000000).wrs (Reg.RING_CFG 4095) [(F.RING_CFG_ATTACH, 4), (F.RING_CFG_VALID, 1)]).setPort 3 { FxPort.reset with rx := [{ pkt 2 7 0 (List.replicate 8 1) with offset := 248, flags := 1 }], stages := [⟨4095, 7, 0, 256, 0, false⟩] }, 3, { pkt 2 7 0 (List.replicate 8 1) with offset := 248, flags := 1 }, { dsc (leBytes 16 2 ++ leBytes 8 0 ++ leBytes 4 256) with inp := List.replicate 248 0 }, ⟨4095, 7, 0, 256, 0, false⟩, ((((((((({ ram with eng := { Eng.reset with descs := [{ dsc (leBytes 16 2 ++ leBytes 8 0 ++ leBytes 4 256) with inp := List.replicate 248 0 }] } }).wrW (Reg.FX_CFG 3) 0xBF00000000000000).wrs (Reg.RING_CFG 4095) [(F.RING_CFG_ATTACH, 4), (F.RING_CFG_VALID, 1)]).setPort 3 { FxPort.reset with rx := [{ pkt 2 7 0 (List.replicate 8 1) with offset := 248, flags := 1 }], stages := [⟨4095, 7, 0, 256, 0, false⟩] }).setPort 3 { ((((({ ram with eng := { Eng.reset with descs := [{ dsc (leBytes 16 2 ++ leBytes 8 0 ++ leBytes 4 256) with inp := List.replicate 248 0 }] } }).wrW (Reg.FX_CFG 3) 0xBF00000000000000).wrs (Reg.RING_CFG 4095) [(F.RING_CFG_ATTACH, 4), (F.RING_CFG_VALID, 1)]).setPort 3 { FxPort.reset with rx := [{ pkt 2 7 0 (List.replicate 8 1) with offset := 248, flags := 1 }], stages := [⟨4095, 7, 0, 256, 0, false⟩] }).port 3) with rx := [] }).fxReturn 3 0 (flitsOf 40)).pmcFx 3 2 8).stageWrite 3 248 (List.replicate 8 1)).2), by decide +kernel⟩

theorem test_FinxisPacketsComplete_9 : ∃ (s : State) (p : Fin 4) (k : FxPkt) (d : Desc) (g : FxStage),
    s.fxNext p 2 k ∧
    s.fxOwns p k.ring = true ∧
    s.desc k.ring k.seq = some d ∧
    (s.port p).stage k.ring k.seq = some g ∧
    d.done = false ∧
    (k.offset ≠ d.inp.length ∨ d.wantIn < d.inp.length + k.payload.length) :=
  ⟨dataAt (pkt 2 7 0 (List.replicate 8 1)) [1], 3, pkt 2 7 0 (List.replicate 8 1), { dsc cmdB with inp := [1] }, ⟨4095, 7, 0, 256, 0, false⟩, by decide +kernel⟩

theorem test_FinxisPacketsComplete_10 : ∃ (s : State) (p : Fin 4) (k : FxPkt) (id : Nat) (w : FxWin),
    s.fxNext p 3 k ∧
    s.fxOwns p k.ring = true ∧
    (s.port p).cqWin k.ring = some (id, w) ∧
    w.released = false :=
  ⟨fxGot (pkt 3 0 0 (List.replicate 8 0)) { FxPort.reset with wins := [(255, some ⟨4095, 1, 64, false⟩)] }, 3, pkt 3 0 0 (List.replicate 8 0), 255, ⟨4095, 1, 64, false⟩, by decide +kernel⟩

theorem test_FinxisPacketsComplete_11 : ∃ (s : State) (p : Fin 4) (k : FxPkt),
    s.fxNext p 3 k ∧
    s.fxOwns p k.ring = true ∧
    ((s.port p).cqWin k.ring).all (fun e => e.2.released) = true ∧
    k.payload.length = 8 ∧
    s.fxClear p 1 :=
  ⟨fxGot (pkt 3 0 0 (List.replicate 8 0)) FxPort.reset, 3, pkt 3 0 0 (List.replicate 8 0), by decide +kernel⟩

theorem test_FinxisPacketsComplete_12 : ∃ (s : State) (p : Fin 4) (r : Nat) (q : Nat) (w : Nat) (l : List Nat),
    (s.port p).again = r :: l ∧
    Tab.get (0, 0) (s.port p).want r = (q, w) ∧
    w ≠ 0 ∧
    s.fxFetches p r = true ∧
    s.fxClear p 0 :=
  ⟨fxRuns (fxGot (pkt 3 0 0 (List.replicate 8 0)) { FxPort.reset with want := [(4095, (7, 1))], again := [4095], wins := [(9, some cqw)] }), 3, 4095, 7, 1, [], by decide +kernel⟩

theorem test_FinxisPacketsComplete_13 : ∃ (s : State) (p : Fin 4) (k : FxPkt) (size : Nat),
    s.fxNext p 4 k ∧
    s.fxOwns p k.ring = true ∧
    s.fxClear p 1 ∧
    (s.port p).win k.window = none ∧
    leAt k.payload 0 1 = 2 ∧
    leAt k.payload 4 4 = size ∧
    size % 128 = 0 ∧
    128 ≤ size ∧
    size ≤ 0x1000000 ∧
    k.payload.length = 16 :=
  ⟨fxGot (pkt 4 0 255 (fitB 16 ([2, 0, 0, 0] ++ leBytes 4 0x1000000))) FxPort.reset, 3, pkt 4 0 255 (fitB 16 ([2, 0, 0, 0] ++ leBytes 4 0x1000000)), 0x1000000, by decide +kernel⟩

theorem test_FinxisPacketsComplete_14 : ∃ (s : State) (p : Fin 4) (k : FxPkt),
    s.fxNext p 4 k ∧
    s.fxOwns p k.ring = true ∧
    s.fxClear p 1 ∧
    (s.port p).win k.window = none ∧
    (s.port p).cqWin k.ring = none ∧
    leAt k.payload 0 1 = 1 ∧
    leAt k.payload 4 4 = 64 * 2 ^ s.rd (Reg.RING_CFG k.ring) F.RING_CFG_CQ_LOG2 ∧
    k.payload.length = 16 :=
  ⟨(fxGot (pkt 4 0 255 (fitB 16 ([1, 0, 0, 0] ++ leBytes 4 (64 * 2 ^ 6)))) FxPort.reset).wr (Reg.RING_CFG 4095) F.RING_CFG_CQ_LOG2 6, 3, pkt 4 0 255 (fitB 16 ([1, 0, 0, 0] ++ leBytes 4 (64 * 2 ^ 6))), by decide +kernel⟩

theorem test_FinxisPacketsComplete_15 : ∃ (s : State) (p : Fin 4) (k : FxPkt),
    s.fxNext p 4 k ∧
    s.fxOwns p k.ring = true ∧
    s.fxClear p 1 ∧
    leAt k.payload 0 1 ≠ 1 ∧
    (leAt k.payload 0 1 ≠ 2 ∨ leAt k.payload 4 4 % 128 ≠ 0 ∨ leAt k.payload 4 4 < 128 ∨ 0x1000000 < leAt k.payload 4 4) ∧
    k.payload.length = 16 :=
  ⟨fxGot (pkt 4 0 255 (fitB 16 [3])) FxPort.reset, 3, pkt 4 0 255 (fitB 16 [3]), by decide +kernel⟩

theorem test_FinxisPacketsComplete_16 : ∃ (s : State) (p : Fin 4) (k : FxPkt),
    s.fxNext p 4 k ∧
    s.fxOwns p k.ring = true ∧
    s.fxClear p 1 ∧
    (s.port p).win k.window ≠ none ∧
    leAt k.payload 0 1 = 2 ∧
    leAt k.payload 4 4 % 128 = 0 ∧
    128 ≤ leAt k.payload 4 4 ∧
    leAt k.payload 4 4 ≤ 0x1000000 ∧
    k.payload.length = 16 :=
  ⟨fxGot (pkt 4 0 255 (fitB 16 ([2, 0, 0, 0] ++ leBytes 4 256))) { FxPort.reset with wins := [(255, some ⟨4095, 1, 64, false⟩)] }, 3, pkt 4 0 255 (fitB 16 ([2, 0, 0, 0] ++ leBytes 4 256)), by decide +kernel⟩

theorem test_FinxisPacketsComplete_17 : ∃ (s : State) (p : Fin 4) (k : FxPkt),
    s.fxNext p 4 k ∧
    s.fxOwns p k.ring = true ∧
    s.fxClear p 1 ∧
    (s.port p).win k.window = none ∧
    (s.port p).cqWin k.ring ≠ none ∧
    leAt k.payload 0 1 = 1 ∧
    leAt k.payload 4 4 = 64 * 2 ^ s.rd (Reg.RING_CFG k.ring) F.RING_CFG_CQ_LOG2 ∧
    k.payload.length = 16 :=
  ⟨fxGot (pkt 4 0 255 (fitB 16 ([1, 0, 0, 0] ++ leBytes 4 4096))) { FxPort.reset with wins := [(9, some cqw)] }, 3, pkt 4 0 255 (fitB 16 ([1, 0, 0, 0] ++ leBytes 4 4096)), by decide +kernel⟩

theorem test_FinxisPacketsComplete_18 : ∃ (s : State) (p : Fin 4) (k : FxPkt) (w : FxWin),
    s.fxNext p 5 k ∧
    (s.port p).win k.window = some w :=
  ⟨fxGot (pkt 5 0 255 []) { FxPort.reset with wins := [(255, some ⟨4095, 1, 64, false⟩)] }, 3, pkt 5 0 255 [], ⟨4095, 1, 64, false⟩, by decide +kernel⟩

theorem test_FinxisPacketsComplete_19 : ∃ (s : State) (p : Fin 4) (k : FxPkt),
    s.fxNext p 5 k ∧
    (s.port p).win k.window = none ∧
    k.payload = [] ∧
    s.fxClear p 1 :=
  ⟨fxGot (pkt 5 0 255 []) FxPort.reset, 3, pkt 5 0 255 [], by decide +kernel⟩

theorem test_FinxisPacketsComplete_20 : ∃ (s : State) (p : Fin 4) (id : Nat) (w : FxWin),
    (s.port p).wins = [(id, some w)] ∧
    w.released = true ∧
    s.windowIdle p id w = true ∧
    s.fxClear p 1 :=
  ⟨fxGot (pkt 5 0 255 []) { FxPort.reset with wins := [(255, some ⟨4095, 2, 128, true⟩)] }, 3, 255, ⟨4095, 2, 128, true⟩, by decide +kernel⟩

theorem test_FinxisPacketsComplete_21 : ∃ (s : State) (p : Fin 4) (k : FxPkt),
    s.fxNext p 0x31 k ∧
    s.pmcRuns = true ∧
    mgmtCodes.contains (leAt k.payload 0 1) = true ∧
    Tab.look s.pmc.req (3 + p) = none :=
  ⟨fxGot (pkt 0x31 0 0 [1]) FxPort.reset, 3, pkt 0x31 0 0 [1], by decide +kernel⟩

theorem test_FinxisPacketsComplete_22 : ∃ (s : State) (p : Fin 4) (k : FxPkt),
    s.fxNext p 0x32 k ∧
    s.on (Reg.FX_CFG p) F.FX_CFG_RESET_EN = true ∧
    s.mode ≠ MD.dark ∧
    s.pkg.rstWait = none :=
  ⟨(fxGot (pkt 0x32 0 0 []) FxPort.reset).wr (Reg.FX_CFG 3) F.FX_CFG_RESET_EN 1, 3, pkt 0x32 0 0 [], by decide +kernel⟩

theorem test_FinxisPacketsComplete_23 : ∃ (s : State) (p : Fin 4) (k : FxPkt),
    s.fxNext p 0x32 k ∧
    s.on (Reg.FX_CFG p) F.FX_CFG_RESET_EN = false ∧
    s.fxClear p 1 ∧
    k.payload = [] :=
  ⟨fxGot (pkt 0x32 0 0 []) FxPort.reset, 3, pkt 0x32 0 0 [], by decide +kernel⟩

theorem test_WaitsAndFencesComplete_1 : ∃ (s : State) (h : Fin 216) (x : Hart),
    s.plainHart h x :=
  ⟨atH hx, 215, hx, by decide +kernel⟩

theorem test_WaitsAndFencesComplete_2 : ∃ (s : State) (h : Fin 216) (x : Hart),
    s.plainHart h x :=
  ⟨atH hx, 215, hx, by decide +kernel⟩

theorem test_WaitsAndFencesComplete_3 : ∃ (s : State) (h : Fin 216) (x : Hart),
    s.plainHart h x ∧
    x.mode ≠ .u :=
  ⟨atH hx, 215, hx, by decide +kernel⟩

theorem test_WaitsAndFencesComplete_4 : ∃ (s : State) (h : Fin 216) (x : Hart),
    s.plainHart h x ∧
    x.mode ≠ .u :=
  ⟨atH hx, 215, hx, by decide +kernel⟩

theorem test_WaitsAndFencesComplete_5 : ∃ (s : State) (h : Fin 216) (x : Hart),
    s.plainHart h x ∧
    x.mode = .u ∧
    s.goesToM h x (if x.v then 22 else 2) :=
  ⟨atH hu, 215, hu, by decide +kernel⟩

theorem test_WaitsAndFencesComplete_6 : ∃ (s : State) (h : Fin 216) (x : Hart),
    s.plainHart h x ∧
    x.mode = .u ∧
    s.goesToM h x (if x.v then 22 else 2) :=
  ⟨atH hu, 215, hu, by decide +kernel⟩

theorem test_WaitsAndFencesComplete_7 : ∃ (s : State) (h : Fin 216) (x : Hart) (d : Nat),
    s.plainHart h x ∧
    x.wfiGate = none ∧
    x.cb Csr.mhspwr 1 0 = d ∧
    d ≠ 2 :=
  ⟨atH hx, 215, hx, 0, by decide +kernel⟩

theorem test_WaitsAndFencesComplete_8 : ∃ (s : State) (h : Fin 216) (x : Hart),
    s.plainHart h x ∧
    x.wfiGate = none ∧
    x.cb Csr.mhspwr 1 0 = 2 ∧
    s.noneHeld h x :=
  ⟨atH { hx with csr := [(0x7C4, 2)] }, 215, { hx with csr := [(0x7C4, 2)] }, by decide +kernel⟩

theorem test_WaitsAndFencesComplete_9 : ∃ (s : State) (h : Fin 216) (x : Hart) (e : Nat),
    s.plainHart h x ∧
    x.wfiGate = some e ∧
    s.goesToM h x e :=
  ⟨atH hu, 215, hu, 2, by decide +kernel⟩

theorem test_WaitsAndFencesComplete_10 : ∃ (s : State) (h : Fin 216) (x : Hart),
    s.hart h = x ∧
    x.waiting = .wfi 1 :=
  ⟨atH { hx with waiting := .wfi 1 }, 215, { hx with waiting := .wfi 1 }, by decide +kernel⟩

theorem test_WaitsAndFencesComplete_11 : ∃ (s : State) (h : Fin 216) (x : Hart),
    s.hart h = x ∧
    x.held = false ∧
    x.halted = false ∧
    s.hartGated h = false ∧
    x.waiting ≠ .running ∧
    x.waiting ≠ .off ∧
    s.wakeDue h = true ∧
    s.turboHeld (hartCluster h) = false ∧
    (x.haltReq = false ∨ s.mayHalt h = false) :=
  ⟨atH { hx with csr := [(0x304, 0x80), (0x344, 0x80)], waiting := .wfi 0 }, 215, { hx with csr := [(0x304, 0x80), (0x344, 0x80)], waiting := .wfi 0 }, by decide +kernel⟩

theorem test_WaitsAndFencesComplete_12 : ∃ (s : State) (h : Fin 216) (x : Hart),
    s.hart h = x ∧
    x.held = false ∧
    x.halted = false ∧
    s.hartGated h = false ∧
    x.waiting ≠ .running ∧
    x.waiting ≠ .off ∧
    s.turboHeld (hartCluster h) = false ∧
    x.haltReq = true ∧
    s.mayHalt h = true :=
  ⟨(invaded ram).setHart 215 { hx with waiting := .wfi 0, haltReq := true }, 215, { hx with waiting := .wfi 0, haltReq := true }, by decide +kernel⟩

theorem test_WaitsAndFencesComplete_13 : ∃ (s : State) (h : Fin 216) (x : Hart),
    s.hart h = x ∧
    x.held = false ∧
    x.halted = false ∧
    s.hartGated h = false ∧
    x.waiting = .off ∧
    s.wakeDue h = true ∧
    s.turboHeld (hartCluster h) = false :=
  ⟨atH (hwake .off), 215, hwake .off, by decide +kernel⟩

theorem test_WaitsAndFencesComplete_14 : ∃ (s : State) (h : Fin 216) (x : Hart),
    s.hart h = x ∧
    x.held = false ∧
    x.halted = false ∧
    s.hartGated h = false ∧
    x.waiting ≠ .running ∧
    s.wakeDue h = true ∧
    s.turboHeld (hartCluster h) = true :=
  ⟨(turbo ram).setHart 215 (hwake (.wfi 0)), 215, hwake (.wfi 0), by decide +kernel⟩

theorem test_WaitsAndFencesComplete_15 : ∃ (s : State) (h : Fin 216),
    s.wakeDue h = false :=
  ⟨atH hx, 215, by decide +kernel⟩

theorem test_WaitsAndFencesComplete_16 : ∃ (s : State) (h : Fin 216) (x : Hart),
    s.plainHart h x ∧
    x.resv ≠ none :=
  ⟨atH { hx with resv := some top }, 215, { hx with resv := some top }, by decide +kernel⟩

theorem test_WaitsAndFencesComplete_17 : ∃ (s : State) (h : Fin 216) (x : Hart),
    s.plainHart h x ∧
    x.resv = none :=
  ⟨atH hx, 215, hx, by decide +kernel⟩

theorem test_WaitsAndFencesComplete_18 : ∃ (s : State) (h : Fin 216) (x : Hart),
    s.hart h = x ∧
    x.waiting = .wrs :=
  ⟨atH { hx with waiting := .wrs }, 215, { hx with waiting := .wrs }, by decide +kernel⟩

theorem test_WaitsAndFencesComplete_19 : ∃ (s : State) (h : Fin 216) (x : Hart),
    s.plainHart h x ∧
    x.sfenceGate = none ∧
    (x.v = false ∨ x.mode = .m) :=
  ⟨atH hx, 215, hx, by decide +kernel⟩

theorem test_WaitsAndFencesComplete_20 : ∃ (s : State) (h : Fin 216) (x : Hart),
    s.plainHart h x ∧
    x.sfenceGate = none ∧
    x.v = true ∧
    x.mode ≠ .m :=
  ⟨atH hvs, 215, hvs, by decide +kernel⟩

theorem test_WaitsAndFencesComplete_21 : ∃ (s : State) (h : Fin 216) (x : Hart),
    s.plainHart h x ∧
    x.sfenceGate = none ∧
    (x.v = false ∨ x.mode = .m) :=
  ⟨atH hx, 215, hx, by decide +kernel⟩

theorem test_WaitsAndFencesComplete_22 : ∃ (s : State) (h : Fin 216) (x : Hart),
    s.plainHart h x ∧
    x.sfenceGate = none ∧
    x.v = true ∧
    x.mode ≠ .m :=
  ⟨atH hvs, 215, hvs, by decide +kernel⟩

theorem test_WaitsAndFencesComplete_23 : ∃ (s : State) (h : Fin 216) (x : Hart),
    s.plainHart h x ∧
    x.hfenceGate false = none :=
  ⟨atH hx, 215, hx, by decide +kernel⟩

theorem test_WaitsAndFencesComplete_24 : ∃ (s : State) (h : Fin 216) (x : Hart),
    s.plainHart h x ∧
    x.hfenceGate false = none :=
  ⟨atH hx, 215, hx, by decide +kernel⟩

theorem test_WaitsAndFencesComplete_25 : ∃ (s : State) (h : Fin 216) (x : Hart),
    s.plainHart h x ∧
    x.hfenceGate true = none :=
  ⟨atH hx, 215, hx, by decide +kernel⟩

theorem test_WaitsAndFencesComplete_26 : ∃ (s : State) (h : Fin 216) (x : Hart),
    s.plainHart h x ∧
    x.hfenceGate true = none :=
  ⟨atH hx, 215, hx, by decide +kernel⟩

theorem test_WaitsAndFencesComplete_27 : ∃ (s : State) (h : Fin 216) (x : Hart) (rs1 : Fin 32) (rs2 : Fin 32) (v : Nat) (a : Nat) (n : Nat),
    s.plainHart h x ∧
    x.sfenceGate = none ∧
    (x.v = false ∨ x.mode = .m) ∧
    (x.rx rs2).toNat = v ∧
    (x.rx rs1).toNat / 4096 * 4096 = a ∧
    4096 * bitsOf v 46 0 = n :=
  ⟨atH hx, 215, hx, 0, 31, 0, 0, 0, by decide +kernel⟩

theorem test_WaitsAndFencesComplete_28 : ∃ (s : State) (h : Fin 216) (x : Hart) (rs1 : Fin 32) (rs2 : Fin 32) (v : Nat) (a : Nat) (n : Nat),
    s.plainHart h x ∧
    x.sfenceGate = none ∧
    x.v = true ∧
    x.mode ≠ .m ∧
    (x.rx rs2).toNat = v ∧
    (x.rx rs1).toNat / 4096 * 4096 = a ∧
    4096 * bitsOf v 46 0 = n :=
  ⟨atH hvs, 215, hvs, 0, 31, 0, 0, 0, by decide +kernel⟩

theorem test_WaitsAndFencesComplete_29 : ∃ (s : State) (h : Fin 216) (x : Hart) (rs1 : Fin 32) (rs2 : Fin 32) (v : Nat) (a : Nat) (n : Nat),
    s.plainHart h x ∧
    x.hfenceGate true = none ∧
    (x.rx rs2).toNat = v ∧
    (x.rx rs1).toNat / 4096 * 4096 = a ∧
    4096 * bitsOf v 46 0 = n :=
  ⟨atH hx, 215, hx, 0, 31, 0, 0, 0, by decide +kernel⟩

theorem test_WaitsAndFencesComplete_30 : ∃ (s : State) (h : Fin 216) (x : Hart) (e : Nat),
    s.plainHart h x ∧
    x.sfenceGate = some e ∧
    s.goesToM h x e :=
  ⟨atH hu, 215, hu, 2, by decide +kernel⟩

theorem test_WaitsAndFencesComplete_31 : ∃ (s : State) (h : Fin 216) (x : Hart) (e : Nat),
    s.plainHart h x ∧
    x.sfenceGate = some e ∧
    s.goesToM h x e :=
  ⟨atH hu, 215, hu, 2, by decide +kernel⟩

theorem test_WaitsAndFencesComplete_32 : ∃ (s : State) (h : Fin 216) (x : Hart) (e : Nat),
    s.plainHart h x ∧
    x.sfenceGate = some e ∧
    s.goesToM h x e :=
  ⟨atH hu, 215, hu, 2, by decide +kernel⟩

theorem test_WaitsAndFencesComplete_33 : ∃ (s : State) (h : Fin 216) (x : Hart) (e : Nat),
    s.plainHart h x ∧
    x.hfenceGate false = some e ∧
    s.goesToM h x e :=
  ⟨atH hu, 215, hu, 2, by decide +kernel⟩

theorem test_WaitsAndFencesComplete_34 : ∃ (s : State) (h : Fin 216) (x : Hart) (e : Nat),
    s.plainHart h x ∧
    x.hfenceGate false = some e ∧
    s.goesToM h x e :=
  ⟨atH hu, 215, hu, 2, by decide +kernel⟩

theorem test_WaitsAndFencesComplete_35 : ∃ (s : State) (h : Fin 216) (x : Hart) (e : Nat),
    s.plainHart h x ∧
    x.hfenceGate true = some e ∧
    s.goesToM h x e :=
  ⟨atH hu, 215, hu, 2, by decide +kernel⟩

theorem test_WaitsAndFencesComplete_36 : ∃ (s : State) (h : Fin 216) (x : Hart) (e : Nat),
    s.plainHart h x ∧
    x.hfenceGate true = some e ∧
    s.goesToM h x e :=
  ⟨atH hu, 215, hu, 2, by decide +kernel⟩

theorem test_WaitsAndFencesComplete_37 : ∃ (s : State) (h : Fin 216) (x : Hart) (e : Nat),
    s.plainHart h x ∧
    x.hfenceGate true = some e ∧
    s.goesToM h x e :=
  ⟨atH hu, 215, hu, 2, by decide +kernel⟩

theorem test_WaitsAndFencesComplete_38 : ∃ (s : State) (h : Fin 216) (x : Hart) (rs1 : Fin 32) (rs2 : Fin 32) (a : Nat) (n : Nat) (r : Nat),
    s.plainHart h x ∧
    (x.mode = .m ∨ (x.mode = .s ∧ x.v = false ∧ x.cb Csr.mhscctl 0 0 = 1)) ∧
    (x.rx rs1).toNat = a ∧
    (x.rx rs2).toNat = n ∧
    0 < n ∧
    a + n ≤ 2 ^ 52 ∧
    s.fwRegion a = some r ∧
    s.fwCovers r (a + n - 1) = true ∧
    s.fwGrants x.ident a true = true :=
  ⟨atH { hx with x := [(30, 0x7FFFFFFFF80), (31, 128)] }, 215, { hx with x := [(30, 0x7FFFFFFFF80), (31, 128)] }, 30, 31, 128 * top, 128, 0, by decide +kernel⟩

theorem test_WaitsAndFencesComplete_39 : ∃ (s : State) (h : Fin 216) (x : Hart) (rs2 : Fin 32),
    s.plainHart h x ∧
    (x.mode = .m ∨ (x.mode = .s ∧ x.v = false ∧ x.cb Csr.mhscctl 0 0 = 1)) ∧
    (x.rx rs2).toNat = 0 :=
  ⟨atH hx, 215, hx, 31, by decide +kernel⟩

theorem test_WaitsAndFencesComplete_40 : ∃ (s : State) (h : Fin 216) (x : Hart) (rs1 : Fin 32) (rs2 : Fin 32),
    s.plainHart h x ∧
    (x.mode = .m ∨ (x.mode = .s ∧ x.v = false ∧ x.cb Csr.mhscctl 0 0 = 1)) ∧
    (x.rx rs2).toNat ≠ 0 ∧
    s.fwGrants x.ident (x.rx rs1).toNat true = false ∧
    s.goesToM h x 7 :=
  ⟨atH hfar, 215, hfar, 30, 31, by decide +kernel⟩

theorem test_WaitsAndFencesComplete_41 : ∃ (s : State) (h : Fin 216) (x : Hart),
    s.plainHart h x ∧
    (x.v = false ∨ x.mode = .m) ∧
    (x.mode = .u ∨ (x.mode = .s ∧ x.cb Csr.mhscctl 0 0 = 0)) ∧
    s.goesToM h x 2 :=
  ⟨atH hu, 215, hu, by decide +kernel⟩

theorem test_WaitsAndFencesComplete_42 : ∃ (s : State) (h : Fin 216) (x : Hart) (rs1 : Fin 32) (rs2 : Fin 32) (a : Nat) (n : Nat) (r : Nat),
    s.plainHart h x ∧
    (x.mode = .m ∨ (x.mode = .s ∧ x.v = false ∧ x.cb Csr.mhscctl 0 0 = 1)) ∧
    (x.rx rs1).toNat = a ∧
    (x.rx rs2).toNat = n ∧
    0 < n ∧
    a + n ≤ 2 ^ 52 ∧
    s.fwRegion a = some r ∧
    s.fwCovers r (a + n - 1) = true ∧
    s.fwGrants x.ident a true = true :=
  ⟨atH { hx with x := [(30, 0x7FFFFFFFF80), (31, 128)] }, 215, { hx with x := [(30, 0x7FFFFFFFF80), (31, 128)] }, 30, 31, 128 * top, 128, 0, by decide +kernel⟩

theorem test_WaitsAndFencesComplete_43 : ∃ (s : State) (h : Fin 216) (x : Hart) (rs2 : Fin 32),
    s.plainHart h x ∧
    (x.mode = .m ∨ (x.mode = .s ∧ x.v = false ∧ x.cb Csr.mhscctl 0 0 = 1)) ∧
    (x.rx rs2).toNat = 0 :=
  ⟨atH hx, 215, hx, 31, by decide +kernel⟩

theorem test_WaitsAndFencesComplete_44 : ∃ (s : State) (h : Fin 216) (x : Hart) (rs1 : Fin 32) (rs2 : Fin 32),
    s.plainHart h x ∧
    (x.mode = .m ∨ (x.mode = .s ∧ x.v = false ∧ x.cb Csr.mhscctl 0 0 = 1)) ∧
    (x.rx rs2).toNat ≠ 0 ∧
    s.fwGrants x.ident (x.rx rs1).toNat true = false ∧
    s.goesToM h x 7 :=
  ⟨atH hfar, 215, hfar, 30, 31, by decide +kernel⟩

theorem test_WaitsAndFencesComplete_45 : ∃ (s : State) (h : Fin 216) (x : Hart),
    s.plainHart h x ∧
    (x.v = false ∨ x.mode = .m) ∧
    (x.mode = .u ∨ (x.mode = .s ∧ x.cb Csr.mhscctl 0 0 = 0)) ∧
    s.goesToM h x 2 :=
  ⟨atH hu, 215, hu, by decide +kernel⟩

theorem test_TrapsAndCsrsComplete_1 : ∃ (s : State) (h : Fin 216) (x : Hart),
    s.plainHart h x ∧
    s.goesToM h x x.ecallCode :=
  ⟨atH hx, 215, hx, by decide +kernel⟩

theorem test_TrapsAndCsrsComplete_2 : ∃ (s : State) (h : Fin 216) (x : Hart) (bits : Nat),
    s.plainHart h x ∧
    customOf bits = none ∧
    s.goesToM h x 2 :=
  ⟨atH hx, 215, hx, 2 ^ 32 - 1, by decide +kernel⟩

theorem test_TrapsAndCsrsComplete_3 : ∃ (s : State) (h : Fin 216) (x : Hart),
    s.plainHart h x ∧
    x.mode ≠ .m ∧
    bitAt (x.rc Csr.medeleg).toNat x.ecallCode = true ∧
    (x.v = false ∨ bitAt (x.rc Csr.hedeleg).toNat x.ecallCode = false) ∧
    x.excTrig x.ecallCode = none ∧
    s.noneHeld h x :=
  ⟨atH hsDeleg, 215, hsDeleg, by decide +kernel⟩

theorem test_TrapsAndCsrsComplete_4 : ∃ (s : State) (h : Fin 216) (x : Hart),
    s.plainHart h x ∧
    x.mode ≠ .m ∧
    bitAt (x.rc Csr.medeleg).toNat x.ecallCode = true ∧
    x.v = true ∧
    bitAt (x.rc Csr.hedeleg).toNat x.ecallCode = true ∧
    x.excTrig x.ecallCode = none ∧
    s.noneHeld h x :=
  ⟨atH hvsDeleg, 215, hvsDeleg, by decide +kernel⟩

theorem test_TrapsAndCsrsComplete_5 : ∃ (s : State) (h : Fin 216) (x : Hart),
    s.plainHart h x ∧
    x.mode = .m :=
  ⟨atH hx, 215, hx, by decide +kernel⟩

theorem test_TrapsAndCsrsComplete_6 : ∃ (s : State) (h : Fin 216) (x : Hart),
    s.plainHart h x ∧
    x.mode ≠ .m ∧
    s.goesToM h x 2 :=
  ⟨atH hu, 215, hu, by decide +kernel⟩

theorem test_TrapsAndCsrsComplete_7 : ∃ (s : State) (h : Fin 216) (x : Hart) (k : Fin 256) (b : List Byte),
    s.plainHart h x ∧
    x.mode = .s ∧
    x.v = false ∧
    (s.rd Reg.ISO_STATUS F.ISO_STATUS_GATEWAYS = 1 ∨ s.rd Reg.ISO_STATUS F.ISO_STATUS_GATEWAYS = 2) ∧
    x.cb Csr.mhswctl 8 8 = 1 ∧
    x.gate = none ∧
    k.val < 2 ^ x.cb Csr.mhswgtab 63 60 ∧
    x.gateLets (s.rd Reg.ISO_STATUS F.ISO_STATUS_GATEWAYS) (s.readPa monitor (64 * x.cb Csr.mhswgtab 51 6 + 64 * k) 64).1 = true ∧
    (s.readPa monitor (64 * x.cb Csr.mhswgtab 51 6 + 64 * k) 64).2.hart h = x ∧
    (s.readPa monitor (64 * x.cb Csr.mhswgtab 51 6 + 64 * k) 64).1.bytes = b ∧
    atpMode (leAt b 8 8) = true :=
  ⟨((atH { hx with mode := .s, csr := [(0x7C0, 0x13F), (0x7C1, 0x800007FFFFFFC000)] }).wr Reg.ISO_STATUS F.ISO_STATUS_GATEWAYS 2).setBytes (2 ^ 43 - 64) (leBytes 8 0x1000 ++ leBytes 8 (8 * 2 ^ 60) ++ leBytes 8 0 ++ leBytes 8 (2 ^ 63) ++ [3, 63] ++ leBytes 30 0), 215, { hx with mode := .s, csr := [(0x7C0, 0x13F), (0x7C1, 0x800007FFFFFFC000)] }, 255, leBytes 8 0x1000 ++ leBytes 8 (8 * 2 ^ 60) ++ leBytes 8 0 ++ leBytes 8 (2 ^ 63) ++ [3, 63] ++ leBytes 30 0, by decide +kernel⟩

theorem test_TrapsAndCsrsComplete_8 : ∃ (s : State) (h : Fin 216) (x : Hart) (k : Fin 256),
    s.plainHart h x ∧
    x.mode = .s ∧
    x.v = false ∧
    ((s.rd Reg.ISO_STATUS F.ISO_STATUS_GATEWAYS ≠ 1 ∧ s.rd Reg.ISO_STATUS F.ISO_STATUS_GATEWAYS ≠ 2) ∨ x.cb Csr.mhswctl 8 8 = 0 ∨ x.gate ≠ none ∨ 2 ^ x.cb Csr.mhswgtab 63 60 ≤ k.val) ∧
    s.goesToM h x 2 :=
  ⟨atH hs, 215, hs, 0, by decide +kernel⟩

theorem test_TrapsAndCsrsComplete_9 : ∃ (s : State) (h : Fin 216) (x : Hart) (e : Nat),
    s.plainHart h x ∧
    x.hswGate = some e ∧
    s.goesToM h x e :=
  ⟨atH hu, 215, hu, 2, by decide +kernel⟩

theorem test_TrapsAndCsrsComplete_10 : ∃ (s : State) (h : Fin 216) (x : Hart) (g : GateShadow),
    s.plainHart h x ∧
    x.mode = .s ∧
    x.v = false ∧
    x.cb Csr.mhswctl 8 8 = 1 ∧
    x.gate = some g ∧
    g.pid < 64 :=
  ⟨atH { hx with mode := .s, csr := [(0x7C0, 0x100)], gate := some ⟨0x1000, 0, 0, .n, 63, 255⟩ }, 215, { hx with mode := .s, csr := [(0x7C0, 0x100)], gate := some ⟨0x1000, 0, 0, .n, 63, 255⟩ }, ⟨0x1000, 0, 0, .n, 63, 255⟩, by decide +kernel⟩

theorem test_TrapsAndCsrsComplete_11 : ∃ (s : State) (h : Fin 216) (x : Hart),
    s.plainHart h x ∧
    x.mode = .s ∧
    x.v = false ∧
    x.gate = none ∧
    s.goesToM h x 2 :=
  ⟨atH hs, 215, hs, by decide +kernel⟩

theorem test_TrapsAndCsrsComplete_12 : ∃ (s : State) (h : Fin 216) (x : Hart),
    s.plainHart h x ∧
    x.mode = .m :=
  ⟨atH hx, 215, hx, by decide +kernel⟩

theorem test_TrapsAndCsrsComplete_13 : ∃ (s : State) (h : Fin 216) (x : Hart),
    s.plainHart h x ∧
    x.mode = .m :=
  ⟨atH hx, 215, hx, by decide +kernel⟩

theorem test_TrapsAndCsrsComplete_14 : ∃ (s : State) (h : Fin 216) (x : Hart) (v : Word),
    s.plainHart h x ∧
    x.mode = .m ∧
    bitsOf v.toNat 63 60 ≤ 8 :=
  ⟨atH hx, 215, hx, 0x8000000000000000, by decide +kernel⟩

theorem test_TrapsAndCsrsComplete_15 : ∃ (s : State) (h : Fin 216) (x : Hart),
    s.plainHart h x ∧
    x.mode = .m :=
  ⟨atH hx, 215, hx, by decide +kernel⟩

theorem test_TrapsAndCsrsComplete_16 : ∃ (s : State) (h : Fin 216) (x : Hart),
    s.plainHart h x ∧
    x.mode = .m ∧
    x.cb Csr.menvcfg 63 63 = 1 :=
  ⟨atH (hstc []), 215, hstc [], by decide +kernel⟩

theorem test_TrapsAndCsrsComplete_17 : ∃ (s : State) (h : Fin 216) (x : Hart) (n : Nat) (m : Nat) (v : Word),
    s.plainHart h x ∧
    x.csrGate n = none ∧
    (if x.v ∧ x.mode = .s then csrUnderV n else n) = m ∧
    (x.setCsr (s.rd Reg.ISO_STATUS F.ISO_STATUS_GATEWAYS) m v).quiet ∧
    m ∉ [0x351, 0x151, 0x251, 0x35C, 0x15C, 0x25C, Csr.stimecmp, Csr.vstimecmp, Csr.htimedelta, Csr.menvcfg, Csr.henvcfg] :=
  ⟨atH hx, 215, hx, 0x7C0, 0x7C0, 0x13F, by decide +kernel⟩

theorem test_TrapsAndCsrsComplete_18 : ∃ (s : State) (h : Fin 216) (x : Hart) (n : Nat) (e : Nat),
    s.plainHart h x ∧
    x.csrGate n = some e ∧
    s.goesToM h x e :=
  ⟨atH hu, 215, hu, 0x7C0, 2, by decide +kernel⟩

theorem test_TrapsAndCsrsComplete_19 : ∃ (s : State) (h : Fin 216) (x : Hart) (n : Nat),
    s.plainHart h x ∧
    csrExists n = false ∧
    s.goesToM h x 2 :=
  ⟨atH hx, 215, hx, 0xFFF, by decide +kernel⟩

theorem test_TrapsAndCsrsComplete_20 : ∃ (s : State) (h : Fin 216) (x : Hart) (v : Word),
    s.plainHart h x ∧
    x.atpGate .satp = none ∧
    (x.v = false ∨ x.mode = .m) ∧
    atpMode v.toNat = true :=
  ⟨atH hx, 215, hx, 0xA000000000000000, by decide +kernel⟩

theorem test_TrapsAndCsrsComplete_21 : ∃ (s : State) (h : Fin 216) (x : Hart) (v : Word),
    s.plainHart h x ∧
    x.atpGate .satp = none ∧
    x.v = true ∧
    x.mode ≠ .m ∧
    atpMode v.toNat = true :=
  ⟨atH hvs, 215, hvs, 0xA000000000000000, by decide +kernel⟩

theorem test_TrapsAndCsrsComplete_22 : ∃ (s : State) (h : Fin 216) (x : Hart) (v : Word),
    s.plainHart h x ∧
    x.atpGate .vsatp = none ∧
    atpMode v.toNat = true :=
  ⟨atH hx, 215, hx, 0xA000000000000000, by decide +kernel⟩

theorem test_TrapsAndCsrsComplete_23 : ∃ (s : State) (h : Fin 216) (x : Hart) (v : Word),
    s.plainHart h x ∧
    x.atpGate .hgatp = none ∧
    atpMode v.toNat = true :=
  ⟨atH hx, 215, hx, 0xA000000000000000, by decide +kernel⟩

theorem test_TrapsAndCsrsComplete_24 : ∃ (s : State) (h : Fin 216) (x : Hart) (r : AtpReg) (v : Word),
    s.plainHart h x ∧
    x.atpGate r = none ∧
    atpMode v.toNat = false :=
  ⟨atH hx, 215, hx, .satp, 0xB000000000000000, by decide +kernel⟩

theorem test_TrapsAndCsrsComplete_25 : ∃ (s : State) (h : Fin 216) (x : Hart) (r : AtpReg) (e : Nat),
    s.plainHart h x ∧
    x.atpGate r = some e ∧
    s.goesToM h x e :=
  ⟨atH hu, 215, hu, .satp, 2, by decide +kernel⟩

theorem test_TrapsAndCsrsComplete_26 : ∃ (s : State) (h : Fin 216) (x : Hart) (k : Nat) (v : Word),
    s.plainHart h x ∧
    x.mode = .m ∧
    3 ≤ k ∧
    k ≤ 31 ∧
    0x10 ≤ bitsOf v.toNat 15 0 ∧
    bitsOf v.toNat 15 0 ≤ 0x1E :=
  ⟨atH hx, 215, hx, 31, 0x1E, by decide +kernel⟩

theorem test_TrapsAndCsrsComplete_27 : ∃ (s : State) (h : Fin 216) (x : Hart) (k : Nat) (v : Word),
    s.plainHart h x ∧
    x.mode = .m ∧
    3 ≤ k ∧
    k ≤ 31 ∧
    (bitsOf v.toNat 15 0 < 0x10 ∨ 0x1E < bitsOf v.toNat 15 0) :=
  ⟨atH hx, 215, hx, 31, 0x1F, by decide +kernel⟩

theorem test_TrapsAndCsrsComplete_28 : ∃ (s : State) (h : Fin 216),
    (s.rdW (Reg.MTIMECMP h)).toNat ≤ (s.rdW Reg.MTIME).toNat :=
  ⟨((atH hx).wrW (Reg.MTIMECMP 215) 5).wrW Reg.MTIME 5, 215, by decide +kernel⟩

theorem test_TrapsAndCsrsComplete_29 : ∃ (s : State) (h : Fin 216),
    (s.rdW Reg.MTIME).toNat < (s.rdW (Reg.MTIMECMP h)).toNat :=
  ⟨R.wrW (Reg.MTIMECMP 215) 5, 215, by decide +kernel⟩

theorem test_TrapsAndCsrsComplete_30 : ∃ (s : State) (h : Fin 216),
    (s.hart h).cb Csr.menvcfg 63 63 = 1 ∧
    ((s.hart h).rc Csr.stimecmp).toNat ≤ s.time :=
  ⟨(atH { hx with csr := [(0x14D, 5), (0x30A, 0x8000000000000000)] }).wrW Reg.MTIME 5, 215, by decide +kernel⟩

theorem test_TrapsAndCsrsComplete_31 : ∃ (s : State) (h : Fin 216),
    (s.hart h).cb Csr.menvcfg 63 63 = 1 ∧
    (s.hart h).cb Csr.henvcfg 63 63 = 1 ∧
    ((s.hart h).rc Csr.vstimecmp - (s.hart h).rc Csr.htimedelta).toNat ≤ s.time :=
  ⟨atH (hstc []), 215, by decide +kernel⟩

theorem test_TrapsAndCsrsComplete_32 : ∃ (s : State) (h : Fin 216),
    (s.hart h).cb Csr.menvcfg 63 63 = 1 ∧
    s.time < ((s.hart h).rc Csr.stimecmp).toNat :=
  ⟨atH (hstc [(0x14D, 5)]), 215, by decide +kernel⟩

theorem test_TrapsAndCsrsComplete_33 : ∃ (s : State) (h : Fin 216),
    (s.hart h).cb Csr.menvcfg 63 63 = 0 :=
  ⟨atH hx, 215, by decide +kernel⟩

theorem test_TrapsAndCsrsComplete_34 : ∃ (s : State) (who : Ident) (f : Fin 1944) (e : Nat),
    s.fenced (nthD clusterStops (fileHart f / 6) 0) 2 = false ∧
    s.fileReach f who = true ∧
    1 ≤ e ∧
    e ≤ 2047 :=
  ⟨R, monitor, 1943, 2047, by decide +kernel⟩

theorem test_TrapsAndCsrsComplete_35 : ∃ (s : State) (who : Ident) (f : Fin 1944) (e : Nat),
    s.fenced (nthD clusterStops (fileHart f / 6) 0) 2 = false ∧
    s.fileReach f who = true ∧
    (e = 0 ∨ 2047 < e) :=
  ⟨R, monitor, 1943, 0, by decide +kernel⟩

theorem test_TrapsAndCsrsComplete_36 : ∃ (s : State) (who : Ident) (f : Fin 1944),
    s.fenced (nthD clusterStops (fileHart f / 6) 0) 2 = false ∧
    s.fileReach f who = false :=
  ⟨R, p63, 1943, by decide +kernel⟩

theorem test_TrapsAndCsrsComplete_37 : ∃ (s : State) (h : Fin 216) (x : Hart),
    s.plainHart h x ∧
    s.mayHalt h = true :=
  ⟨(atH hx).wr Reg.ISO_DBG F.ISO_DBG_S_INV 1, 215, hx, by decide +kernel⟩

theorem test_TrapsAndCsrsComplete_38 : ∃ (s : State) (h : Fin 216) (x : Hart),
    s.hart h = x ∧
    x.halted = false ∧
    s.mayHalt h = false :=
  ⟨(atH hx).wr Reg.ISO_DBG F.ISO_DBG_S_INV 0, 215, hx, by decide +kernel⟩

theorem test_TrapsAndCsrsComplete_39 : ∃ (s : State) (h : Fin 216) (x : Hart),
    s.hart h = x ∧
    x.halted = true :=
  ⟨atH { hx with halted := true }, 215, { hx with halted := true }, by decide +kernel⟩

theorem test_TrapsAndCsrsComplete_40 : ∃ (s : State) (h : Fin 216),
    s.pkg.hartRst = [h.val] :=
  ⟨R.pk (fun p => { p with hartRst := [215] }), 215, by decide +kernel⟩

theorem test_TrapsAndCsrsComplete_41 : ∃ (s : State) (pa : Nat) (size : Nat) (v : Nat),
    s.invasive s.sbaWho.world = true ∧
    s.untrained pa = false ∧
    (s.writePa s.sbaWho pa (leBytes size v)).1 = .ok :=
  ⟨ram.wrs Reg.ISO_DBG [(F.ISO_DBG_SBA_PID, 63), (F.ISO_DBG_SBA_WORLD, 0), (F.ISO_DBG_N_INV, 1)], lastW, 8, 5, by decide +kernel⟩

theorem test_TrapsAndCsrsComplete_42 : ∃ (s : State) (pa : Nat) (size : Nat) (v : Nat),
    s.invasive s.sbaWho.world = true ∧
    s.untrained pa = false ∧
    (s.writePa s.sbaWho pa (leBytes size v)).1 ≠ .ok :=
  ⟨sba, 2 ^ 44, 8, 5, by decide +kernel⟩

theorem test_TrapsAndCsrsComplete_43 : ∃ (s : State) (pa : Nat) (size : Nat),
    s.invasive s.sbaWho.world = true ∧
    s.untrained pa = false ∧
    (s.readPa s.sbaWho pa size).1.res = .ok ∧
    (s.readPa s.sbaWho pa size).1.poison = false :=
  ⟨ram.wrs Reg.ISO_DBG [(F.ISO_DBG_SBA_PID, 63), (F.ISO_DBG_SBA_WORLD, 0), (F.ISO_DBG_N_INV, 1)], lastW, 8, by decide +kernel⟩

theorem test_TrapsAndCsrsComplete_44 : ∃ (s : State) (pa : Nat) (size : Nat),
    s.invasive s.sbaWho.world = true ∧
    s.untrained pa = false ∧
    ((s.readPa s.sbaWho pa size).1.res ≠ .ok ∨ (s.readPa s.sbaWho pa size).1.poison = true) :=
  ⟨sba, 2 ^ 44, 8, by decide +kernel⟩

theorem test_TrapsAndCsrsComplete_45 : ∃ (s : State) (pa : Nat),
    (s.invasive s.sbaWho.world = false ∨ s.untrained pa = true) :=
  ⟨ram.wrs Reg.ISO_DBG [(F.ISO_DBG_SBA_PID, 63), (F.ISO_DBG_SBA_WORLD, 0), (F.ISO_DBG_N_INV, 0)], 0, by decide +kernel⟩

theorem test_HartAccessesComplete_1 : ∃ (s : State) (h : Fin 216) (x : Hart) (reg : LsReg) (rs1 : Fin 32) (imm : Int) (size : Nat) (va : Nat) (pa : Nat) (k : Nat) (l : L2Line),
    s.plainHart h x ∧
    x.regOn reg = true ∧
    x.addr rs1 imm = va ∧
    va % 128 + size ≤ 128 ∧
    s.reaches h .load va pa ∧
    s.hits h (pa / 128) k l :=
  ⟨atL { hx with x := [(30, 0x80000000000)] }, 215, { hx with x := [(30, 0x80000000000)] }, .x 31, 30, -8, 8, lastW, lastW, 0, ⟨top, .m, 2, d0, monitor⟩, by decide +kernel⟩

theorem test_HartAccessesComplete_2 : ∃ (s : State) (h : Fin 216) (x : Hart) (reg : LsReg) (rs1 : Fin 32) (imm : Int) (size : Nat) (va : Nat) (pa : Nat) (k : Nat) (l : L2Line),
    s.plainHart h x ∧
    x.regOn reg = true ∧
    x.addr rs1 imm = va ∧
    va % 128 + size ≤ 128 ∧
    s.reaches h .load va pa ∧
    (s.cluster (hartCluster h)).find (pa / 128) = some (k, l) ∧
    (s.cluster (hartCluster h)).evicting (pa / 128) = none ∧
    (s.cluster (hartCluster h)).waits = [] ∧
    (s.cluster (hartCluster h)).held = [] ∧
    l.who = x.ident ∧
    l.data.poison = false ∧
    (s.cluster (hartCluster h)).l1Has (h.val % 6) (pa / 128) = false ∧
    x.cb Csr.mhspf 0 0 = 0 :=
  ⟨(atH { hx with x := [(30, 0x80000000000)], csr := [(0x7C3, 2)] }).setCluster 35 { Cluster.empty with l2 := [(0, ⟨top, .m, 2, d0, monitor⟩)] }, 215, { hx with x := [(30, 0x80000000000)], csr := [(0x7C3, 2)] }, .x 31, 30, -8, 8, lastW, lastW, 0, ⟨top, .m, 2, d0, monitor⟩, by decide +kernel⟩

theorem test_HartAccessesComplete_3 : ∃ (s : State) (h : Fin 216) (x : Hart) (reg : LsReg) (rs1 : Fin 32) (imm : Int) (size : Nat) (va : Nat) (pa : Nat) (k : Nat) (l : L2Line),
    s.plainHart h x ∧
    x.regOn reg = true ∧
    x.addr rs1 imm = va ∧
    va % 128 + size ≤ 128 ∧
    s.reaches h .store va pa ∧
    s.hits h (pa / 128) k l ∧
    l.st ≠ .s :=
  ⟨atL { hx with x := [(30, 0x80000000000)] }, 215, { hx with x := [(30, 0x80000000000)] }, .x 31, 30, -8, 8, lastW, lastW, 0, ⟨top, .m, 2, d0, monitor⟩, by decide +kernel⟩

theorem test_HartAccessesComplete_4 : ∃ (s : State) (h : Fin 216) (x : Hart) (reg : LsReg) (rs1 : Fin 32) (imm : Int) (size : Nat) (va : Nat) (pa : Nat) (k : Nat) (l : L2Line),
    s.plainHart h x ∧
    x.regOn reg = true ∧
    x.addr rs1 imm = va ∧
    va % 128 + size ≤ 128 ∧
    s.reaches h .load va pa ∧
    (s.cluster (hartCluster h)).find (pa / 128) = some (k, l) ∧
    (s.cluster (hartCluster h)).evicting (pa / 128) = none ∧
    (s.cluster (hartCluster h)).waits = [] ∧
    (s.cluster (hartCluster h)).held = [] ∧
    l.who = x.ident ∧
    l.data.poison = true ∧
    x.cb Csr.mhspf 0 0 = 0 ∧
    s.goesToM h x 19 :=
  ⟨atBad, 215, hend, .x 31, 30, -8, 8, lastW, lastW, 0, ⟨top, .m, 2, ⟨List.replicate 128 0, true⟩, monitor⟩, by decide +kernel⟩

theorem test_HartAccessesComplete_5 : ∃ (s : State) (h : Fin 216) (x : Hart) (reg : LsReg) (rs1 : Fin 32) (imm : Int) (size : Nat) (va : Nat) (pa : Nat),
    s.plainHart h x ∧
    x.regOn reg = true ∧
    x.addr rs1 imm = va ∧
    va % 128 + size ≤ 128 ∧
    s.reaches h .load va pa ∧
    s.misses h (pa / 128) :=
  ⟨atH { hx with x := [(30, 0x80000000000)], csr := [(0x7C3, 0)] }, 215, { hx with x := [(30, 0x80000000000)], csr := [(0x7C3, 0)] }, .x 31, 30, -8, 8, lastW, lastW, by decide +kernel⟩

theorem test_HartAccessesComplete_6 : ∃ (s : State) (h : Fin 216) (x : Hart) (reg : LsReg) (rs1 : Fin 32) (imm : Int) (size : Nat) (va : Nat) (pa : Nat),
    s.plainHart h x ∧
    x.regOn reg = true ∧
    x.addr rs1 imm = va ∧
    va % 128 + size ≤ 128 ∧
    s.reaches h .store va pa ∧
    s.misses h (pa / 128) :=
  ⟨atH hend, 215, hend, .x 31, 30, -8, 8, lastW, lastW, by decide +kernel⟩

theorem test_HartAccessesComplete_7 : ∃ (s : State) (h : Fin 216) (x : Hart) (reg : LsReg) (rs1 : Fin 32) (imm : Int) (size : Nat) (va : Nat) (pa : Nat),
    s.plainHart h x ∧
    x.regOn reg = true ∧
    x.addr rs1 imm = va ∧
    va % 128 + size ≤ 128 ∧
    (s.locate h .load va).1.toOption = some ⟨pa, 1⟩ ∧
    (s.locate h .load va).2 = s ∧
    s.attr ⟨pa, 1⟩ = .nc ∧
    x.unwatched .load va ∧
    (s.readPa x.ident pa size).1.res = .ok ∧
    (s.readPa x.ident pa size).1.poison = false ∧
    (s.readPa x.ident pa size).2.hart h = x :=
  ⟨atH hnc, 215, hnc, .x 31, 30, -8, 8, 4088, lastW, by decide +kernel⟩

theorem test_HartAccessesComplete_8 : ∃ (s : State) (h : Fin 216) (x : Hart) (reg : LsReg) (rs1 : Fin 32) (imm : Int) (size : Nat) (va : Nat) (pa : Nat),
    s.plainHart h x ∧
    x.regOn reg = true ∧
    x.addr rs1 imm = va ∧
    va % 128 + size ≤ 128 ∧
    (s.locate h .store va).1.toOption = some ⟨pa, 1⟩ ∧
    (s.locate h .store va).2 = s ∧
    s.attr ⟨pa, 1⟩ = .nc ∧
    x.unwatched .store va ∧
    (x.srcBytes size reg).length = size ∧
    (s.writePa x.ident pa (x.srcBytes size reg)).1 = .ok ∧
    (s.writePa x.ident pa (x.srcBytes size reg)).2.hart h = x :=
  ⟨atH hnc, 215, hnc, .x 31, 30, -8, 8, 4088, lastW, by decide +kernel⟩

theorem test_HartAccessesComplete_9 : ∃ (s : State) (h : Fin 216) (x : Hart) (reg : LsReg) (rs1 : Fin 32) (imm : Int) (size : Nat) (va : Nat) (pa : Nat),
    s.plainHart h x ∧
    x.regOn reg = true ∧
    x.addr rs1 imm = va ∧
    va % 128 + size ≤ 128 ∧
    (size = 4 ∨ size = 8) ∧
    va % size = 0 ∧
    (s.locate h .load va).1.toOption = some ⟨pa, 0⟩ ∧
    (s.locate h .load va).2 = s ∧
    s.paKind pa = .window ∧
    x.unwatched .load va :=
  ⟨atH { hx with x := [(30, BitVec.ofNat 64 (windowBase + 8))] }, 215, { hx with x := [(30, BitVec.ofNat 64 (windowBase + 8))] }, .x 31, 30, -8, 8, windowBase, windowBase, by decide +kernel⟩

theorem test_HartAccessesComplete_10 : ∃ (s : State) (h : Fin 216) (x : Hart) (reg : LsReg) (rs1 : Fin 32) (imm : Int) (size : Nat) (va : Nat) (pa : Nat),
    s.plainHart h x ∧
    x.regOn reg = true ∧
    x.addr rs1 imm = va ∧
    va % 128 + size ≤ 128 ∧
    (size = 4 ∨ size = 8) ∧
    va % size = 0 ∧
    (s.locate h .store va).1.toOption = some ⟨pa, 0⟩ ∧
    (s.locate h .store va).2 = s ∧
    s.paKind pa = .window ∧
    x.unwatched .store va :=
  ⟨atH hwin, 215, hwin, .x 31, 30, -8, 8, windowBase, windowBase, by decide +kernel⟩

theorem test_HartAccessesComplete_11 : ∃ (s : State) (h : Fin 216) (x : Hart) (reg : LsReg) (rs1 : Fin 32) (imm : Int) (size : Nat) (va : Nat) (f : TFault),
    s.plainHart h x ∧
    x.regOn reg = true ∧
    x.addr rs1 imm = va ∧
    va % 128 + size ≤ 128 ∧
    (s.locate h .load va).1 = .error f ∧
    (s.locate h .load va).2 = s ∧
    (f = .page ∨ f = .access) ∧
    x.unwatched .load va ∧
    s.goesToM h x (f.cause .load) :=
  ⟨atH hout, 215, hout, .x 31, 30, -8, 8, 2 ^ 60 - 8, .access, by decide +kernel, by decide +kernel, by decide +kernel, by decide +kernel, err_of (by decide +kernel), by decide +kernel, by decide +kernel, by decide +kernel, by decide +kernel⟩

theorem test_HartAccessesComplete_12 : ∃ (s : State) (h : Fin 216) (x : Hart) (reg : LsReg) (rs1 : Fin 32) (imm : Int) (size : Nat) (va : Nat) (f : TFault),
    s.plainHart h x ∧
    x.regOn reg = true ∧
    x.addr rs1 imm = va ∧
    va % 128 + size ≤ 128 ∧
    (s.locate h .store va).1 = .error f ∧
    (s.locate h .store va).2 = s ∧
    (f = .page ∨ f = .access) ∧
    x.unwatched .store va ∧
    s.goesToM h x (f.cause .store) :=
  ⟨atH hout, 215, hout, .x 31, 30, -8, 8, 2 ^ 60 - 8, .access, by decide +kernel, by decide +kernel, by decide +kernel, by decide +kernel, err_of (by decide +kernel), by decide +kernel, by decide +kernel, by decide +kernel, by decide +kernel⟩

theorem test_HartAccessesComplete_13 : ∃ (s : State) (h : Fin 216) (x : Hart) (rs1 : Fin 32) (size : Nat) (va : Nat) (pa : Nat) (k : Nat) (l : L2Line),
    s.plainHart h x ∧
    (x.rx rs1).toNat = va ∧
    va % size = 0 ∧
    va % 128 + size ≤ 128 ∧
    s.reaches h .store va pa ∧
    s.hits h (pa / 128) k l ∧
    l.st ≠ .s :=
  ⟨atL { hx with x := [(30, 0x7FFFFFFFFF8)] }, 215, { hx with x := [(30, 0x7FFFFFFFFF8)] }, 30, 8, lastW, lastW, 0, ⟨top, .m, 2, d0, monitor⟩, by decide +kernel⟩

theorem test_HartAccessesComplete_14 : ∃ (s : State) (h : Fin 216) (x : Hart) (rs1 : Fin 32) (size : Nat) (va : Nat) (pa : Nat),
    s.plainHart h x ∧
    (x.rx rs1).toNat = va ∧
    va % size = 0 ∧
    va % 128 + size ≤ 128 ∧
    s.reaches h .store va pa ∧
    s.misses h (pa / 128) :=
  ⟨atH hlast, 215, hlast, 30, 8, lastW, lastW, by decide +kernel⟩

theorem test_HartAccessesComplete_15 : ∃ (s : State) (h : Fin 216) (x : Hart) (rs1 : Fin 32) (size : Nat) (va : Nat) (pa : Nat) (k : Nat) (l : L2Line),
    s.plainHart h x ∧
    (x.rx rs1).toNat = va ∧
    va % size = 0 ∧
    va % 128 + size ≤ 128 ∧
    s.reaches h .load va pa ∧
    s.hits h (pa / 128) k l :=
  ⟨atL { hx with x := [(30, 0x7FFFFFFFFF8)] }, 215, { hx with x := [(30, 0x7FFFFFFFFF8)] }, 30, 8, lastW, lastW, 0, ⟨top, .m, 2, d0, monitor⟩, by decide +kernel⟩

theorem test_HartAccessesComplete_16 : ∃ (s : State) (h : Fin 216) (x : Hart) (rs1 : Fin 32) (size : Nat) (va : Nat) (pa : Nat),
    s.plainHart h x ∧
    (x.rx rs1).toNat = va ∧
    va % size = 0 ∧
    va % 128 + size ≤ 128 ∧
    s.reaches h .load va pa ∧
    s.misses h (pa / 128) :=
  ⟨atH hlast, 215, hlast, 30, 8, lastW, lastW, by decide +kernel⟩

theorem test_HartAccessesComplete_17 : ∃ (s : State) (h : Fin 216) (x : Hart) (rs1 : Fin 32) (size : Nat) (va : Nat) (pa : Nat) (k : Nat) (l : L2Line),
    s.plainHart h x ∧
    (x.rx rs1).toNat = va ∧
    va % size = 0 ∧
    va % 128 + size ≤ 128 ∧
    s.reaches h .store va pa ∧
    s.hits h (pa / 128) k l ∧
    l.st ≠ .s ∧
    x.resv = some (pa / 128) :=
  ⟨atL { hx with x := [(30, 0x7FFFFFFFFF8)], resv := some top }, 215, { hx with x := [(30, 0x7FFFFFFFFF8)], resv := some top }, 30, 8, lastW, lastW, 0, ⟨top, .m, 2, d0, monitor⟩, by decide +kernel⟩

theorem test_HartAccessesComplete_18 : ∃ (s : State) (h : Fin 216) (x : Hart) (rs1 : Fin 32) (size : Nat) (va : Nat) (pa : Nat),
    s.plainHart h x ∧
    (x.rx rs1).toNat = va ∧
    va % size = 0 ∧
    va % 128 + size ≤ 128 ∧
    s.reaches h .store va pa ∧
    x.resv ≠ some (pa / 128) ∧
    s.noneHeld h x :=
  ⟨atH { hx with x := [(30, 0x7FFFFFFFFF8)] }, 215, { hx with x := [(30, 0x7FFFFFFFFF8)] }, 30, 8, lastW, lastW, by decide +kernel⟩

theorem test_HartAccessesComplete_19 : ∃ (s : State) (h : Fin 216) (x : Hart) (rs1 : Fin 32) (size : Nat),
    s.plainHart h x ∧
    x.unwatched .store (x.rx rs1).toNat ∧
    (x.rx rs1).toNat % size ≠ 0 ∧
    s.goesToM h x 6 :=
  ⟨atH { hx with x := [(30, 4)] }, 215, { hx with x := [(30, 4)] }, 30, 8, by decide +kernel⟩

theorem test_HartAccessesComplete_20 : ∃ (s : State) (h : Fin 216) (x : Hart) (rs1 : Fin 32) (size : Nat),
    s.plainHart h x ∧
    x.unwatched .load (x.rx rs1).toNat ∧
    (x.rx rs1).toNat % size ≠ 0 ∧
    s.goesToM h x 4 :=
  ⟨atH { hx with x := [(30, 4)] }, 215, { hx with x := [(30, 4)] }, 30, 8, by decide +kernel⟩

theorem test_HartAccessesComplete_21 : ∃ (s : State) (h : Fin 216) (x : Hart) (rs1 : Fin 32) (size : Nat),
    s.plainHart h x ∧
    x.unwatched .store (x.rx rs1).toNat ∧
    (x.rx rs1).toNat % size ≠ 0 ∧
    s.goesToM h x 6 :=
  ⟨atH { hx with x := [(30, 4)] }, 215, { hx with x := [(30, 4)] }, 30, 8, by decide +kernel⟩

theorem test_HartAccessesComplete_22 : ∃ (s : State) (h : Fin 216) (x : Hart) (rs1 : Fin 32) (va : Nat) (pa : Nat) (k : Nat) (l : L2Line),
    s.plainHart h x ∧
    x.cboGate (fun v => v.testBit 7) = none ∧
    (x.rx rs1).toNat = va ∧
    s.reaches h .store va pa ∧
    s.hits h (pa / 128) k l ∧
    l.st ≠ .s :=
  ⟨atL { hx with x := [(30, 0x7FFFFFFFFF8)] }, 215, { hx with x := [(30, 0x7FFFFFFFFF8)] }, 30, lastW, lastW, 0, ⟨top, .m, 2, d0, monitor⟩, by decide +kernel⟩

theorem test_HartAccessesComplete_23 : ∃ (s : State) (h : Fin 216) (x : Hart) (rs1 : Fin 32) (va : Nat) (pa : Nat),
    s.plainHart h x ∧
    x.cboGate (fun v => v.testBit 7) = none ∧
    (x.rx rs1).toNat = va ∧
    s.reaches h .store va pa ∧
    s.misses h (pa / 128) :=
  ⟨atH { hx with x := [(30, 0x7FFFFFFFFF8)], csr := [(0x7C3, 0)] }, 215, { hx with x := [(30, 0x7FFFFFFFFF8)], csr := [(0x7C3, 0)] }, 30, lastW, lastW, by decide +kernel⟩

theorem test_HartAccessesComplete_24 : ∃ (s : State) (h : Fin 216) (x : Hart) (rs1 : Fin 32) (va : Nat) (pa : Nat),
    s.plainHart h x ∧
    x.cboGate (fun v => v.testBit 6) = none ∧
    (x.rx rs1).toNat = va ∧
    s.reaches h .load va pa ∧
    s.misses h (pa / 128) :=
  ⟨atH { hx with x := [(30, 0x7FFFFFFFFF8)], csr := [(0x7C3, 0)] }, 215, { hx with x := [(30, 0x7FFFFFFFFF8)], csr := [(0x7C3, 0)] }, 30, lastW, lastW, by decide +kernel⟩

theorem test_HartAccessesComplete_25 : ∃ (s : State) (h : Fin 216) (x : Hart) (rs1 : Fin 32) (va : Nat) (pa : Nat),
    s.plainHart h x ∧
    x.cboGate (fun v => v.testBit 6) = none ∧
    (x.rx rs1).toNat = va ∧
    s.reaches h .load va pa ∧
    s.misses h (pa / 128) :=
  ⟨atH { hx with x := [(30, 0x7FFFFFFFFF8)], csr := [(0x7C3, 0)] }, 215, { hx with x := [(30, 0x7FFFFFFFFF8)], csr := [(0x7C3, 0)] }, 30, lastW, lastW, by decide +kernel⟩

theorem test_HartAccessesComplete_26 : ∃ (s : State) (h : Fin 216) (x : Hart) (rs1 : Fin 32) (va : Nat) (pa : Nat),
    s.plainHart h x ∧
    x.cboGate (fun v => v.testBit 4) = none ∧
    (x.rx rs1).toNat = va ∧
    s.reaches h .load va pa ∧
    s.misses h (pa / 128) :=
  ⟨atH { hx with x := [(30, 0x7FFFFFFFFF8)], csr := [(0x7C3, 0)] }, 215, { hx with x := [(30, 0x7FFFFFFFFF8)], csr := [(0x7C3, 0)] }, 30, lastW, lastW, by decide +kernel⟩

theorem test_HartAccessesComplete_27 : ∃ (s : State) (h : Fin 216) (x : Hart) (e : Nat),
    s.plainHart h x ∧
    x.cboGate (fun v => v.testBit 7) = some e ∧
    s.goesToM h x e :=
  ⟨atH hu, 215, hu, 2, by decide +kernel⟩

theorem test_HartAccessesComplete_28 : ∃ (s : State) (h : Fin 216) (x : Hart) (e : Nat),
    s.plainHart h x ∧
    x.cboGate (fun v => v.testBit 6) = some e ∧
    s.goesToM h x e :=
  ⟨atH hu, 215, hu, 2, by decide +kernel⟩

theorem test_HartAccessesComplete_29 : ∃ (s : State) (h : Fin 216) (x : Hart) (e : Nat),
    s.plainHart h x ∧
    x.cboGate (fun v => v.testBit 6) = some e ∧
    s.goesToM h x e :=
  ⟨atH hu, 215, hu, 2, by decide +kernel⟩

theorem test_HartAccessesComplete_30 : ∃ (s : State) (h : Fin 216) (x : Hart) (e : Nat),
    s.plainHart h x ∧
    x.cboGate (fun v => v.testBit 4) = some e ∧
    s.goesToM h x e :=
  ⟨atH hu, 215, hu, 2, by decide +kernel⟩

theorem test_HartAccessesComplete_31 : ∃ (s : State) (h : Fin 216) (x : Hart) (rs1 : Fin 32) (imm : Int) (va : Nat) (pa : Nat),
    s.plainHart h x ∧
    x.addr rs1 imm = va ∧
    s.reaches h .load va pa ∧
    s.misses h (pa / 128) :=
  ⟨atH { hx with x := [(30, 0x80000000000)], csr := [(0x7C3, 0)] }, 215, { hx with x := [(30, 0x80000000000)], csr := [(0x7C3, 0)] }, 30, -8, lastW, lastW, by decide +kernel⟩

theorem test_HartAccessesComplete_32 : ∃ (s : State) (h : Fin 216) (x : Hart) (rs1 : Fin 32) (imm : Int) (f : TFault),
    s.plainHart h x ∧
    (s.locate h .load (x.addr rs1 imm)).1 = .error f ∧
    (s.locate h .load (x.addr rs1 imm)).2 = s :=
  ⟨atH hout, 215, hout, 30, -8, .access, by decide +kernel, err_of (by decide +kernel), by decide +kernel⟩

theorem test_HartAccessesComplete_33 : ∃ (s : State) (h : Fin 216) (x : Hart) (rs1 : Fin 32) (imm : Int) (va : Nat) (pa : Nat),
    s.plainHart h x ∧
    x.addr rs1 imm = va ∧
    s.reaches h .store va pa ∧
    s.misses h (pa / 128) :=
  ⟨atH { hx with x := [(30, 0x80000000000)], csr := [(0x7C3, 0)] }, 215, { hx with x := [(30, 0x80000000000)], csr := [(0x7C3, 0)] }, 30, -8, lastW, lastW, by decide +kernel⟩

theorem test_HartAccessesComplete_34 : ∃ (s : State) (h : Fin 216) (x : Hart) (rs1 : Fin 32) (imm : Int) (f : TFault),
    s.plainHart h x ∧
    (s.locate h .store (x.addr rs1 imm)).1 = .error f ∧
    (s.locate h .store (x.addr rs1 imm)).2 = s :=
  ⟨atH hout, 215, hout, 30, -8, .access, by decide +kernel, err_of (by decide +kernel), by decide +kernel⟩

theorem test_HartAccessesComplete_35 : ∃ (s : State) (h : Fin 216) (x : Hart) (rs1 : Fin 32) (imm : Int) (va : Nat) (pa : Nat),
    s.plainHart h x ∧
    x.addr rs1 imm = va ∧
    s.reaches h .fetch va pa ∧
    s.misses h (pa / 128) :=
  ⟨atH { hx with x := [(30, 0x80000000000)], csr := [(0x7C3, 0)] }, 215, { hx with x := [(30, 0x80000000000)], csr := [(0x7C3, 0)] }, 30, -8, lastW, lastW, by decide +kernel⟩

theorem test_HartAccessesComplete_36 : ∃ (s : State) (h : Fin 216) (x : Hart) (rs1 : Fin 32) (imm : Int) (f : TFault),
    s.plainHart h x ∧
    (s.locate h .fetch (x.addr rs1 imm)).1 = .error f ∧
    (s.locate h .fetch (x.addr rs1 imm)).2 = s :=
  ⟨atH hout, 215, hout, 30, -8, .access, by decide +kernel, err_of (by decide +kernel), by decide +kernel⟩

theorem test_HartAccessesComplete_37 : ∃ (s : State) (h : Fin 216) (x : Hart) (a : IoAccess) (v : Nat),
    s.hart h = x ∧
    x.io = some a ∧
    s.paKind a.pa = .window ∧
    x.quiet ∧
    a.write = none ∧
    (s.regRead x.ident (a.pa - windowBase) a.size (x.mode == .u)).1 = some v ∧
    (s.regRead x.ident (a.pa - windowBase) a.size (x.mode == .u)).2.hart h = x :=
  ⟨atH { hx with io := some (acc (windowBase + Reg.RCC_BKP 7) none) }, 215, { hx with io := some (acc (windowBase + Reg.RCC_BKP 7) none) }, (acc (windowBase + Reg.RCC_BKP 7) none), 0, by decide +kernel⟩

theorem test_HartAccessesComplete_38 : ∃ (s : State) (h : Fin 216) (x : Hart) (a : IoAccess) (b : List Byte),
    s.hart h = x ∧
    x.io = some a ∧
    s.paKind a.pa = .window ∧
    x.quiet ∧
    a.write = some b ∧
    (s.regWrite x.ident (a.pa - windowBase) a.size (leNat b) (x.mode == .u)).1 = true ∧
    (s.regWrite x.ident (a.pa - windowBase) a.size (leNat b) (x.mode == .u)).2.hart h = x :=
  ⟨atH { hx with io := some (acc (windowBase + Reg.RCC_BKP 7) (some (leBytes 8 5))) }, 215, { hx with io := some (acc (windowBase + Reg.RCC_BKP 7) (some (leBytes 8 5))) }, (acc (windowBase + Reg.RCC_BKP 7) (some (leBytes 8 5))), leBytes 8 5, by decide +kernel⟩

theorem test_HartAccessesComplete_39 : ∃ (s : State) (h : Fin 216) (x : Hart) (a : IoAccess),
    s.hart h = x ∧
    x.io = some a ∧
    s.paKind a.pa = .window ∧
    x.quiet ∧
    a.write = none ∧
    (s.regRead x.ident (a.pa - windowBase) a.size (x.mode == .u)).1 = none ∧
    (s.regRead x.ident (a.pa - windowBase) a.size (x.mode == .u)).2.hart h = x ∧
    (x.mode = .m ∨ bitAt (x.rc Csr.medeleg).toNat 5 = false) ∧
    x.excTrig 5 = none :=
  ⟨atH (hbad none), 215, hbad none, acc (windowBase + Reg.RCC_BKP 7) none, by decide +kernel⟩

theorem test_HartAccessesComplete_40 : ∃ (s : State) (h : Fin 216) (x : Hart) (a : IoAccess) (b : List Byte),
    s.hart h = x ∧
    x.io = some a ∧
    s.paKind a.pa = .window ∧
    x.quiet ∧
    a.write = some b ∧
    (s.regWrite x.ident (a.pa - windowBase) a.size (leNat b) (x.mode == .u)).1 = false ∧
    (s.regWrite x.ident (a.pa - windowBase) a.size (leNat b) (x.mode == .u)).2.hart h = x ∧
    (x.mode = .m ∨ bitAt (x.rc Csr.medeleg).toNat 7 = false) ∧
    x.excTrig 7 = none :=
  ⟨atH (hbad (some (leBytes 8 5))), 215, hbad (some (leBytes 8 5)), acc (windowBase + Reg.RCC_BKP 7) (some (leBytes 8 5)), leBytes 8 5, by decide +kernel⟩

theorem test_EventsAndPmcComplete_1 : ∃ (s : State) (k : Nat) (x : AplicSrc),
    evtIsLevel k = false ∧
    s.wires.contains k = true ∧
    (s.aplic (s.evtOwner k)).get k = x ∧
    x.sm = 4 ∧
    x.en = false :=
  ⟨{ R with wires := [387], aplicS := ⟨true, [(387, ⟨4, false, false, 0⟩)]⟩ }, 387, ⟨4, false, false, 0⟩, by decide +kernel⟩

theorem test_EventsAndPmcComplete_2 : ∃ (s : State) (k : Nat) (h : Nat) (g : Nat) (id : Nat) (x : AplicSrc),
    evtIsLevel k = false ∧
    s.wires.contains k = true ∧
    (s.aplic (s.evtOwner k)).get k = x ∧
    x.sm = 4 ∧
    x.en = true ∧
    s.evtOwner k = .s ∧
    s.aplicS.ie = true ∧
    bitsOf x.target 31 18 = h ∧
    bitsOf x.target 17 12 = g ∧
    bitsOf x.target 10 0 = id ∧
    h < 216 ∧
    g < 8 ∧
    1 ≤ id ∧
    s.fenced (nthD clusterStops (h / 6) 0) 2 = false :=
  ⟨{ R with wires := [387], aplicS := ⟨true, [(387, ⟨4, false, true, (215 * 2 ^ 18 + 7 * 2 ^ 12 + 2047)⟩)]⟩ }, 387, 215, 7, 2047, ⟨4, false, true, (215 * 2 ^ 18 + 7 * 2 ^ 12 + 2047)⟩, by decide +kernel⟩

theorem test_EventsAndPmcComplete_3 : ∃ (s : State) (k : Nat) (x : AplicSrc),
    evtIsLevel k = false ∧
    s.wires.contains k = true ∧
    (s.aplic (s.evtOwner k)).get k = x ∧
    x.sm ≠ 4 :=
  ⟨{ R with wires := [387], aplicS := ⟨true, [(387, ⟨0, false, false, 0⟩)]⟩ }, 387, ⟨0, false, false, 0⟩, by decide +kernel⟩

theorem test_EventsAndPmcComplete_4 : ∃ (s : State) (k : Nat) (x : AplicSrc),
    evtIsLevel k = true ∧
    s.evtCond k = true ∧
    (s.aplic (s.evtOwner k)).get k = x ∧
    x.sm = 6 ∧
    x.en = false :=
  ⟨({ R with wires := [391], aplicS := ⟨true, [(391, ⟨6, false, false, 0⟩)]⟩ }).wr Reg.RCC_CLK_LOSS F.RCC_CLK_LOSS_VALID 1, 391, ⟨6, false, false, 0⟩, by decide +kernel⟩

theorem test_EventsAndPmcComplete_5 : ∃ (k : Nat),
    evtIsLevel k = false :=
  ⟨379, by decide +kernel⟩

theorem test_EventsAndPmcComplete_6 : ∃ (s : State),
    s.pmcRuns = true :=
  ⟨pmcOn, by decide +kernel⟩

theorem test_EventsAndPmcComplete_7 : ∃ (s : State),
    s.pmcRuns = true ∧
    s.pmc.restart = true :=
  ⟨{ pmcOn with pmc := { pmcOn.pmc with restart := true } }, by decide +kernel⟩

theorem test_EventsAndPmcComplete_8 : ∃ (s : State),
    s.pmcRuns = true :=
  ⟨pmcOn, by decide +kernel⟩

theorem test_EventsAndPmcComplete_9 : ∃ (s : State) (kind : Fin 3) (x : FwSess),
    s.pmcRuns = true ∧
    s.fwSess kind = some x ∧
    x.state = 2 :=
  ⟨{ pmcOn with pmc := { pmcOn.pmc with fw := [(2, some ⟨2, 9000, 9000, 2⟩)] } }, 2, ⟨2, 9000, 9000, 2⟩, by decide +kernel⟩

theorem test_EventsAndPmcComplete_10 : ∃ (s : State) (kind : Fin 3) (x : FwSess),
    s.pmcRuns = true ∧
    s.fwSess kind = some x ∧
    x.state = 1 :=
  ⟨{ pmcOn with pmc := { pmcOn.pmc with fw := [(2, some ⟨2, 9000, 9000, 1⟩)] } }, 2, ⟨2, 9000, 9000, 1⟩, by decide +kernel⟩

theorem test_EventsAndPmcComplete_11 : ∃ (s : State) (k : Nat),
    evtIsLevel k = false ∧
    s.wires.contains k = false :=
  ⟨{ R with aplicS := ⟨true, [(387, ⟨4, false, false, 0⟩)]⟩ }, 387, by decide +kernel⟩

theorem test_EventsAndPmcComplete_12 : ∃ (s : State) (k : Nat) (x : AplicSrc),
    evtIsLevel k = true ∧
    (s.aplic (s.evtOwner k)).get k = x ∧
    (s.evtCond k = false ∨ x.sm ≠ 6) :=
  ⟨{ R with aplicS := ⟨true, [(391, ⟨6, false, false, 0⟩)]⟩ }, 391, ⟨6, false, false, 0⟩, by decide +kernel⟩

theorem test_EventsAndPmcComplete_13 : ∃ (k : Nat),
    evtIsLevel k = true :=
  ⟨391, by decide +kernel⟩

theorem test_EventsAndPmcComplete_14 : ∃ (s : State),
    s.pmcRuns = false :=
  ⟨R, by decide +kernel⟩

theorem test_EventsAndPmcComplete_15 : ∃ (s : State),
    (s.pmcRuns = false ∨ s.pmc.restart = false) :=
  ⟨pmcOn, by decide +kernel⟩

theorem test_EventsAndPmcComplete_16 : ∃ (s : State) (kind : Fin 3),
    s.fwSess kind = none :=
  ⟨R, 2, by decide +kernel⟩

theorem test_EventsAndPmcComplete_17 : ∃ (s : State) (kind : Fin 3),
    s.fwSess kind = none :=
  ⟨R, 2, by decide +kernel⟩

theorem test_ManagementCommandsComplete_1 : ∃ (s : State) (src : MgmtSrc) (q : List Byte) (b : List Byte),
    s.mgmtServes src 0x01 q b ∧
    s.pmc.rom = false :=
  ⟨mgs pmcOn 0x01 ([]) [], .sideband, mgq 0x01 ([]), [], by decide +kernel⟩

theorem test_ManagementCommandsComplete_2 : ∃ (s : State) (src : MgmtSrc) (q : List Byte) (b : List Byte),
    s.mgmtServes src 0x02 q b ∧
    leAt b 1 1 ≠ 0 ∧
    leAt b 0 1 + leAt b 1 1 ≤ 148 :=
  ⟨mgs pmcOn 0x02 ([147, 1]) [], .sideband, mgq 0x02 ([147, 1]), [147, 1], by decide +kernel⟩

theorem test_ManagementCommandsComplete_3 : ∃ (s : State) (src : MgmtSrc) (q : List Byte) (b : List Byte),
    s.mgmtServes src 0x03 q b :=
  ⟨mgs pmcOn 0x03 ([]) [], .sideband, mgq 0x03 ([]), [], by decide +kernel⟩

theorem test_ManagementCommandsComplete_4 : ∃ (s : State) (src : MgmtSrc) (q : List Byte) (b : List Byte),
    s.mgmtServes src 0x04 q b ∧
    leAt b 0 1 < 148 :=
  ⟨mgs pmcOn 0x04 ([147, 0, 0, 0, 0]) [], .sideband, mgq 0x04 ([147, 0, 0, 0, 0]), [147, 0, 0, 0, 0], by decide +kernel⟩

theorem test_ManagementCommandsComplete_5 : ∃ (s : State) (src : MgmtSrc) (q : List Byte) (b : List Byte),
    s.mgmtServes src 0x05 q b :=
  ⟨mgs pmcOn 0x05 ([]) [], .sideband, mgq 0x05 ([]), [], by decide +kernel⟩

theorem test_ManagementCommandsComplete_6 : ∃ (s : State) (src : MgmtSrc) (q : List Byte) (b : List Byte),
    s.mgmtServes src 0x10 q b ∧
    leAt b 0 1 ≤ MD.bufferStop :=
  ⟨mgs pmcOn 0x10 ([11]) [], .sideband, mgq 0x10 ([11]), [11], by decide +kernel⟩

theorem test_ManagementCommandsComplete_7 : ∃ (s : State) (src : MgmtSrc) (q : List Byte) (b : List Byte),
    s.mgmtServes src 0x11 q b ∧
    bitsOf (leAt b 0 8) 63 56 = 0 ∧
    bitsOf (leAt b 0 8) 47 47 = 0 ∧
    bitsOf (leAt b 0 8) 39 16 = 0 ∧
    (s.mgmtWho src).world = .s ∧
    powerOk (bitsOf (leAt b 0 8) 55 48) (bitsOf (leAt b 0 8) 46 40) (bitsOf (leAt b 0 8) 15 0) = true :=
  ⟨mgs pmcOn 0x11 (leBytes 8 (2 * 2 ^ 48 + 11 * 2 ^ 40 + 7)) [], .sideband, mgq 0x11 (leBytes 8 (2 * 2 ^ 48 + 11 * 2 ^ 40 + 7)), leBytes 8 (2 * 2 ^ 48 + 11 * 2 ^ 40 + 7), by decide +kernel⟩

theorem test_ManagementCommandsComplete_8 : ∃ (s : State) (src : MgmtSrc) (q : List Byte) (b : List Byte),
    s.mgmtServes src 0x12 q b ∧
    s.pkg.rstWait = none :=
  ⟨mgs pmcOn 0x12 ([]) [], .sideband, mgq 0x12 ([]), [], by decide +kernel⟩

theorem test_ManagementCommandsComplete_9 : ∃ (s : State) (src : MgmtSrc) (q : List Byte) (b : List Byte),
    s.mgmtServes src 0x20 q b ∧
    1 ≤ leAt b 4 1 ∧
    leAt b 4 1 ≤ 63 :=
  ⟨mgs pmcOn 0x20 (leBytes 4 5 ++ [63]) [], .sideband, mgq 0x20 (leBytes 4 5 ++ [63]), leBytes 4 5 ++ [63], by decide +kernel⟩

theorem test_ManagementCommandsComplete_10 : ∃ (s : State) (src : MgmtSrc) (q : List Byte) (b : List Byte),
    s.mgmtServes src 0x21 q b :=
  ⟨mgs pmcOn 0x21 ([]) [], .sideband, mgq 0x21 ([]), [], by decide +kernel⟩

theorem test_ManagementCommandsComplete_11 : ∃ (s : State) (src : MgmtSrc) (q : List Byte) (b : List Byte),
    s.mgmtServes src 0x30 q b :=
  ⟨mgs pmcOn 0x30 ([]) [], .sideband, mgq 0x30 ([]), [], by decide +kernel⟩

theorem test_ManagementCommandsComplete_12 : ∃ (s : State) (src : MgmtSrc) (q : List Byte) (b : List Byte),
    s.mgmtServes src 0x31 q b ∧
    optValid b = true ∧
    (leAt b 10 2 = leAt s.optInForce 10 2 ∨ s.mode = MD.workshop) :=
  ⟨mgs pmcOn 0x31 (fitB 124 (leBytes 4 0x4254504F ++ leBytes 4 0 ++ [1]) ++ leBytes 4 (crc32c (fitB 124 (leBytes 4 0x4254504F ++ leBytes 4 0 ++ [1])))) [], .sideband, mgq 0x31 (fitB 124 (leBytes 4 0x4254504F ++ leBytes 4 0 ++ [1]) ++ leBytes 4 (crc32c (fitB 124 (leBytes 4 0x4254504F ++ leBytes 4 0 ++ [1])))), fitB 124 (leBytes 4 0x4254504F ++ leBytes 4 0 ++ [1]) ++ leBytes 4 (crc32c (fitB 124 (leBytes 4 0x4254504F ++ leBytes 4 0 ++ [1]))), by decide +kernel⟩

theorem test_ManagementCommandsComplete_13 : ∃ (s : State) (src : MgmtSrc) (q : List Byte) (b : List Byte),
    s.mgmtServes src 0x50 q b ∧
    leAt b 0 1 < 16 :=
  ⟨mgs ((inMode 0xA).pk (fun p => { p with held := [] })) 0x50 ([15]) [], .sideband, mgq 0x50 ([15]), [15], by decide +kernel⟩

theorem test_ManagementCommandsComplete_14 : ∃ (s : State) (src : MgmtSrc) (q : List Byte) (b : List Byte),
    s.mgmtServes src 0x01 q b ∧
    s.pmc.rom = true :=
  ⟨{ mgs pmcOn 0x01 [] [] with pmc := { (mgs pmcOn 0x01 [] []).pmc with rom := true } }, .sideband, mgq 0x01 [], [], by decide +kernel⟩

theorem test_ManagementCommandsComplete_15 : ∃ (s : State) (src : MgmtSrc) (q : List Byte) (b : List Byte),
    s.mgmtServes src 0x02 q b ∧
    (leAt b 1 1 = 0 ∨ 148 < leAt b 0 1 + leAt b 1 1) :=
  ⟨mgs pmcOn 0x02 ([147, 2]) [], .sideband, mgq 0x02 ([147, 2]), [147, 2], by decide +kernel⟩

theorem test_ManagementCommandsComplete_16 : ∃ (s : State) (src : MgmtSrc) (q : List Byte) (b : List Byte),
    s.mgmtServes src 0x04 q b ∧
    148 ≤ leAt b 0 1 :=
  ⟨mgs pmcOn 0x04 ([148, 0, 0, 0, 0]) [], .sideband, mgq 0x04 ([148, 0, 0, 0, 0]), [148, 0, 0, 0, 0], by decide +kernel⟩

theorem test_ManagementCommandsComplete_17 : ∃ (s : State) (src : MgmtSrc) (q : List Byte) (b : List Byte),
    s.mgmtServes src 0x10 q b ∧
    MD.bufferStop < leAt b 0 1 :=
  ⟨mgs pmcOn 0x10 ([12]) [], .sideband, mgq 0x10 ([12]), [12], by decide +kernel⟩

theorem test_ManagementCommandsComplete_18 : ∃ (s : State) (src : MgmtSrc) (q : List Byte) (b : List Byte),
    s.mgmtServes src 0x11 q b ∧
    (bitsOf (leAt b 0 8) 63 56 ≠ 0 ∨ bitsOf (leAt b 0 8) 47 47 ≠ 0 ∨ bitsOf (leAt b 0 8) 39 16 ≠ 0) :=
  ⟨mgs pmcOn 0x11 (leBytes 8 (2 ^ 47 + 2 * 2 ^ 48 + 11 * 2 ^ 40 + 7)) [], .sideband, mgq 0x11 (leBytes 8 (2 ^ 47 + 2 * 2 ^ 48 + 11 * 2 ^ 40 + 7)), leBytes 8 (2 ^ 47 + 2 * 2 ^ 48 + 11 * 2 ^ 40 + 7), by decide +kernel⟩

theorem test_ManagementCommandsComplete_19 : ∃ (s : State) (src : MgmtSrc) (q : List Byte) (b : List Byte),
    s.mgmtServes src 0x20 q b ∧
    (leAt b 4 1 = 0 ∨ 63 < leAt b 4 1) :=
  ⟨mgs pmcOn 0x20 (leBytes 4 5 ++ [64]) [], .sideband, mgq 0x20 (leBytes 4 5 ++ [64]), leBytes 4 5 ++ [64], by decide +kernel⟩

theorem test_ManagementCommandsComplete_20 : ∃ (s : State) (src : MgmtSrc) (q : List Byte) (b : List Byte),
    s.mgmtServes src 0x31 q b ∧
    optValid b = false :=
  ⟨mgs pmcOn 0x31 (fitB 128 []) [], .sideband, mgq 0x31 (fitB 128 []), fitB 128 [], by decide +kernel⟩

theorem test_ManagementCommandsComplete_21 : ∃ (s : State) (src : MgmtSrc) (q : List Byte) (b : List Byte),
    s.mgmtServes src 0x31 q b ∧
    optValid b = true ∧
    leAt b 10 2 ≠ leAt s.optInForce 10 2 ∧
    s.mode ≠ MD.workshop :=
  ⟨mgs pmcOn 0x31 (optB) [], .sideband, mgq 0x31 (optB), optB, by decide +kernel⟩

theorem test_ManagementCommandsComplete_22 : ∃ (s : State) (src : MgmtSrc) (q : List Byte) (b : List Byte),
    s.mgmtServes src 0x50 q b ∧
    16 ≤ leAt b 0 1 :=
  ⟨mgs ((inMode 0xA).pk (fun p => { p with held := [] })) 0x50 ([16]) [], .sideband, mgq 0x50 ([16]), [16], by decide +kernel⟩

theorem test_FirmwareUpdateCompletes_1 : ∃ (s : State) (src : MgmtSrc) (q : List Byte) (b : List Byte) (k : Nat),
    s.mgmtServes src 0x40 q b ∧
    leAt b 0 1 = k ∧
    (k = 1 ∨ k = 2) ∧
    leAt b 1 3 = 0 ∧
    8193 ≤ leAt b 4 4 ∧
    leAt b 4 4 ≤ 8192 + maxBody k ∧
    s.fwSess k = none :=
  ⟨mgs pmcOn 0x40 ([2, 0, 0, 0] ++ leBytes 4 (8192 + 8388608)) [], .sideband, mgq 0x40 ([2, 0, 0, 0] ++ leBytes 4 (8192 + 8388608)), [2, 0, 0, 0] ++ leBytes 4 (8192 + 8388608), 2, by decide +kernel⟩

theorem test_FirmwareUpdateCompletes_2 : ∃ (s : State) (src : MgmtSrc) (q : List Byte) (b : List Byte) (k : Nat) (n : Nat) (x : FwSess),
    s.mgmtServes src 0x41 q b ∧
    s.fwKind (mgmtNum src) 1 = some k ∧
    s.fwSess k = some x ∧
    leAt b 0 4 = x.got ∧
    b.length = n + 4 ∧
    x.got + n ≤ x.total ∧
    x.total ≤ 8192 + maxBody k :=
  ⟨mgs pmcOn 0x41 (leBytes 4 0 ++ [1]) [(2, some ⟨2, 9000, 0, 1⟩)], .sideband, mgq 0x41 (leBytes 4 0 ++ [1]), leBytes 4 0 ++ [1], 2, 1, ⟨2, 9000, 0, 1⟩, by decide +kernel⟩

theorem test_FirmwareUpdateCompletes_3 : ∃ (s : State) (src : MgmtSrc) (q : List Byte) (b : List Byte) (k : Nat) (x : FwSess),
    s.mgmtServes src 0x41 q b ∧
    s.fwKind (mgmtNum src) 1 = some k ∧
    s.fwSess k = some x ∧
    leAt b 0 4 ≠ x.got :=
  ⟨mgs pmcOn 0x41 (leBytes 4 9 ++ [1]) [(2, some ⟨2, 9000, 0, 1⟩)], .sideband, mgq 0x41 (leBytes 4 9 ++ [1]), leBytes 4 9 ++ [1], 2, ⟨2, 9000, 0, 1⟩, by decide +kernel⟩

theorem test_FirmwareUpdateCompletes_4 : ∃ (s : State) (src : MgmtSrc) (q : List Byte) (b : List Byte) (k : Nat),
    s.mgmtServes src 0x42 q b ∧
    s.fwKind (mgmtNum src) 3 = some k ∧
    s.mode ≠ MD.siding :=
  ⟨mgs pmcOn 0x42 ([]) [(2, some ⟨2, 9000, 9000, 3⟩)], .sideband, mgq 0x42 ([]), [], 2, by decide +kernel⟩

theorem test_FirmwareUpdateCompletes_5 : ∃ (s : State) (src : MgmtSrc) (q : List Byte) (b : List Byte) (k : Nat) (x : FwSess),
    s.mgmtServes src 0x43 q b ∧
    leAt b 0 1 = k ∧
    (k = 1 ∨ k = 2) ∧
    s.fwSess k = some x ∧
    x.src = mgmtNum src :=
  ⟨mgs pmcOn 0x43 ([2]) [(2, some ⟨2, 9000, 9000, 3⟩)], .sideband, mgq 0x43 ([2]), [2], 2, ⟨2, 9000, 9000, 3⟩, by decide +kernel⟩

theorem test_FirmwareUpdateCompletes_6 : ∃ (s : State) (src : MgmtSrc) (q : List Byte) (b : List Byte) (k : Nat),
    s.mgmtServes src 0x43 q b ∧
    leAt b 0 1 = k ∧
    (k = 1 ∨ k = 2) ∧
    s.fwSess k = none :=
  ⟨mgs pmcOn 0x43 ([2]) [], .sideband, mgq 0x43 ([2]), [2], 2, by decide +kernel⟩

theorem test_FirmwareUpdateCompletes_7 : ∃ (s : State) (src : MgmtSrc) (q : List Byte) (b : List Byte),
    s.mgmtServes src 0x44 q b :=
  ⟨mgs pmcOn 0x44 ([]) [], .sideband, mgq 0x44 ([]), [], by decide +kernel⟩

theorem test_FirmwareUpdateCompletes_8 : ∃ (s : State) (src : MgmtSrc) (q : List Byte) (b : List Byte),
    s.mgmtServes src 0x40 q b ∧
    ((leAt b 0 1 ≠ 1 ∧ leAt b 0 1 ≠ 2) ∨ leAt b 1 3 ≠ 0 ∨ leAt b 4 4 < 8193 ∨ 8192 + maxBody (leAt b 0 1) < leAt b 4 4) :=
  ⟨mgs pmcOn 0x40 ([2, 0, 0, 0] ++ leBytes 4 8192) [], .sideband, mgq 0x40 ([2, 0, 0, 0] ++ leBytes 4 8192), [2, 0, 0, 0] ++ leBytes 4 8192, by decide +kernel⟩

theorem test_FirmwareUpdateCompletes_9 : ∃ (s : State) (src : MgmtSrc) (q : List Byte) (b : List Byte) (k : Nat),
    s.mgmtServes src 0x40 q b ∧
    leAt b 0 1 = k ∧
    (k = 1 ∨ k = 2) ∧
    leAt b 1 3 = 0 ∧
    8193 ≤ leAt b 4 4 ∧
    leAt b 4 4 ≤ 8192 + maxBody k ∧
    s.fwSess k ≠ none :=
  ⟨mgs pmcOn 0x40 ([2, 0, 0, 0] ++ leBytes 4 (8192 + 8388608)) [(2, some ⟨2, 9000, 0, 1⟩)], .sideband, mgq 0x40 ([2, 0, 0, 0] ++ leBytes 4 (8192 + 8388608)), [2, 0, 0, 0] ++ leBytes 4 (8192 + 8388608), 2, by decide +kernel⟩

theorem test_FirmwareUpdateCompletes_10 : ∃ (s : State) (src : MgmtSrc) (q : List Byte) (b : List Byte) (k : Nat) (x : FwSess),
    s.mgmtServes src 0x41 q b ∧
    s.fwKind (mgmtNum src) 1 = some k ∧
    s.fwSess k = some x ∧
    leAt b 0 4 = x.got ∧
    x.got + (b.drop 4).length ≤ x.total :=
  ⟨mgs pmcOn 0x41 (leBytes 4 0 ++ [1]) [(2, some ⟨2, 9000, 0, 1⟩)], .sideband, mgq 0x41 (leBytes 4 0 ++ [1]), leBytes 4 0 ++ [1], 2, ⟨2, 9000, 0, 1⟩, by decide +kernel⟩

theorem test_FirmwareUpdateCompletes_11 : ∃ (s : State) (src : MgmtSrc) (q : List Byte) (b : List Byte),
    s.mgmtServes src 0x41 q b ∧
    s.fwKind (mgmtNum src) 1 = none :=
  ⟨mgs pmcOn 0x41 (leBytes 4 0 ++ [1]) [], .sideband, mgq 0x41 (leBytes 4 0 ++ [1]), leBytes 4 0 ++ [1], by decide +kernel⟩

theorem test_FirmwareUpdateCompletes_12 : ∃ (s : State) (src : MgmtSrc) (q : List Byte) (b : List Byte),
    s.mgmtServes src 0x42 q b ∧
    s.fwKind (mgmtNum src) 3 = none :=
  ⟨mgs pmcOn 0x42 ([]) [], .sideband, mgq 0x42 ([]), [], by decide +kernel⟩

theorem test_FirmwareUpdateCompletes_13 : ∃ (s : State) (src : MgmtSrc) (q : List Byte) (b : List Byte) (k : Nat),
    s.mgmtServes src 0x42 q b ∧
    s.fwKind (mgmtNum src) 3 = some k ∧
    s.mode = MD.siding ∧
    s.anyAt allSensors 115 = false :=
  ⟨mgs inSiding 0x42 ([]) [(2, some ⟨2, 9000, 9000, 3⟩)], .sideband, mgq 0x42 ([]), [], 2, by decide +kernel⟩

theorem test_FirmwareUpdateCompletes_14 : ∃ (s : State) (src : MgmtSrc) (q : List Byte) (b : List Byte) (k : Nat),
    s.mgmtServes src 0x42 q b ∧
    s.fwKind (mgmtNum src) 3 = some k ∧
    s.mode = MD.siding ∧
    s.anyAt allSensors 115 = true :=
  ⟨mgs hotSiding 0x42 ([]) [(2, some ⟨2, 9000, 9000, 3⟩)], .sideband, mgq 0x42 ([]), [], 2, by decide +kernel⟩

theorem test_FirmwareUpdateCompletes_15 : ∃ (s : State) (src : MgmtSrc) (q : List Byte) (b : List Byte),
    s.mgmtServes src 0x43 q b ∧
    leAt b 0 1 ≠ 1 ∧
    leAt b 0 1 ≠ 2 :=
  ⟨mgs pmcOn 0x43 ([3]) [], .sideband, mgq 0x43 ([3]), [3], by decide +kernel⟩

theorem test_FirmwareUpdateCompletes_16 : ∃ (s : State) (src : MgmtSrc) (q : List Byte) (b : List Byte) (k : Nat) (x : FwSess),
    s.mgmtServes src 0x43 q b ∧
    leAt b 0 1 = k ∧
    (k = 1 ∨ k = 2) ∧
    s.fwSess k = some x ∧
    x.src ≠ mgmtNum src :=
  ⟨mgs pmcOn 0x43 ([2]) [(2, some ⟨3, 9000, 9000, 3⟩)], .sideband, mgq 0x43 ([2]), [2], 2, ⟨3, 9000, 9000, 3⟩, by decide +kernel⟩

theorem test_ManagementChecks_1 : ∃ (s : State) (src : MgmtSrc) (rails : List (Nat × Nat)) (flag : Bool) (e : Nat × Instr) (q : List Byte),
    mgmtCommand src none rails flag e ∧
    Tab.look s.pmc.req (mgmtNum src) = some q ∧
    leAt q 0 1 = e.1 ∧
    s.pmcRuns = true ∧
    s.orderHeld (mgmtNum src) = false :=
  ⟨mgs pmcOn 1 [] [], .sideband, [], false, (1, .getInfo .sideband none), mgq 1 [], by simp [mgmtCommand], by decide +kernel⟩

theorem test_ManagementChecks_2 : ∃ (s : State) (src : MgmtSrc) (m : Option (List Byte)) (rails : List (Nat × Nat)) (flag : Bool) (e : Nat × Instr),
    mgmtCommand src m rails flag e ∧
    s.pmcRuns = false :=
  ⟨R, .sideband, none, [], false, (0x50, .debugSet .sideband none), by simp [mgmtCommand], by decide +kernel⟩

theorem test_ManagementChecks_3 : ∃ (s : State) (rails : List (Nat × Nat)) (flag : Bool) (e : Nat × Instr) (d : Nat × Instr) (q : List Byte),
    mgmtCommand .sideband (some q) rails flag e ∧
    mgmtCommand .sideband none rails flag d ∧
    d.1 = e.1 ∧
    s.pmcRuns = true :=
  ⟨pmcOn, [], false, (1, .getInfo .sideband (some (mgq 1 []))), (1, .getInfo .sideband none), mgq 1 [], by simp [mgmtCommand], by simp [mgmtCommand], by decide +kernel⟩

theorem test_ManagementAnswers_1 : ∃ (s : State) (n : Nat) (code : Nat) (q : List Byte) (b : List Byte) (r : List Byte),
    Tab.look s.pmc.req n = some q ∧
    mgmtResponse q code b = r :=
  ⟨mgs pmcOn 1 [] [], 2, 0, mgq 1 [], [], mgmtResponse (mgq 1 []) 0 [], by decide +kernel⟩

theorem test_ManagementAnswers_2 : ∃ (q : List Byte) (b : List Byte) (code : Nat),
    8 ≤ q.length ∧
    code < 256 ∧
    b.length < 2 ^ 16 :=
  ⟨mgq 1 [], [], 255, by decide +kernel⟩

/-! ### The custom encodings, the orientation routings and the transmit caps -/

/-- 12 *Custom instruction encodings*: HSC.FLUSH x5, x6 is 0b0000001 00110 00101 000 00000 0001011, HSW.GATE 255 is 0b000011111111
00000 001 00000 0001011, and a nonzero [11:7] is no encoding. -/
theorem test_custom_encodings : customOf 0b00000010011000101000000000001011 = some (.flush 5 6) ∧
    customOf 0b00001111111100000001000000001011 = some (.gate 255) ∧
    customOf 0b00000010011000101000000010001011 = none := by decide +kernel

theorem test_CustomEncodings_2 : ∃ (w : Nat) (c : Custom), customOf w = some c :=
  ⟨0b00000000000000000010000000001011, .ret, by decide +kernel⟩

theorem test_CustomEncodings_4 : ∃ (w : Nat), bitsOf w 6 0 = 0b0001011 ∧ (∀ c : Custom, w ≠ customWord c) :=
  ⟨0b10001011, by decide +kernel, fun c => by cases c <;> simp only [customWord] <;> omega⟩

/-- The package with CD7 latched as 01's worked example has it: position code 7, orientation code 7 div 3 = 2. -/
def cd7 : State := R.pk (fun p => { p with dies := [(7, some ⟨7, 2, 1⟩)] })

/-- 01 *Worked example: where hart 137 meets memory channel M9*: cluster index k = 1 sits on port B of CD7, so it has C22, the
cluster of hart 137. -/
theorem test_orientation_example : cd7.portCluster 7 1 = some (22, nthD clusterStops 22 0) ∧ hartCluster 137 = 22 := by decide +kernel

theorem test_OrientationRoutings_1 : ∃ (s : State) (d : Nat) (x : DieSite),
    Tab.get none s.pkg.dies d = some x ∧ x.orientation < 4 :=
  ⟨cd7.pk (fun p => { p with dies := [(11, some ⟨11, 3, 1⟩)] }), 11, ⟨11, 3, 1⟩, by decide +kernel⟩

theorem test_OrientationRoutings_2 : ∃ (s : State) (x : DieSite),
    Tab.get none s.pkg.dies 7 = some x ∧ x.orientation = 2 :=
  ⟨cd7, ⟨7, 2, 1⟩, by decide +kernel⟩

/-- 22 R518: a Finxis group caps the swing at 900 mV and the pre-cursor at −6 dB. -/
theorem test_transmit_caps : txApplied 7 ⟨1000, -7, -12⟩ = ⟨900, -6, -12⟩ ∧ txApplied 6 ⟨1000, -6, 0⟩ = ⟨1000, -6, 0⟩ := by decide

end Sys2Proof.Tests
end

section
/-! PROOFS. Registers of the window: what a write does to the fields, and the statements about it (O9, O14). -/

namespace Sys2Proof.Machine
open Sys2Proof

/-! ### Bits -/

/-- Taking away the bits two numbers share leaves those of the first that the second lacks. -/
theorem testBit_sub_and (a b i : Nat) : (a - (a &&& b)).testBit i = (a.testBit i && !b.testBit i) := by
  have hle : a &&& b ≤ a := Nat.and_le_left
  have hmod : (a &&& b) % 2 = 1 ↔ a % 2 = 1 ∧ b % 2 = 1 := Nat.and_mod_two_eq_one
  induction i generalizing a b with
  | zero =>
    rw [Bool.eq_iff_iff]
    simp only [Nat.testBit_zero, Bool.and_eq_true, Bool.not_eq_true', decide_eq_true_eq, decide_eq_false_iff_not]
    omega
  | succ i ih =>
    have hdiv : (a &&& b) / 2 = a / 2 &&& b / 2 := Nat.and_div_two
    have half : (a - (a &&& b)) / 2 = a / 2 - (a / 2 &&& b / 2) := by omega
    simp only [Nat.testBit_add_one, half, ih _ _ Nat.and_le_left Nat.and_mod_two_eq_one]

theorem bitsOf_lt (v hi lo : Nat) : bitsOf v hi lo < 2 ^ (hi + 1 - lo) := Nat.mod_lt _ (by positivity)

theorem rd_lt (s : State) (o : Nat) (f : Fld) : s.rd o f < 2 ^ (f.hi + 1 - f.lo) := bitsOf_lt _ _ _

/-- A field of at most 64 bits reads as the value written where that value fits it. -/
theorem rd_wr_fits (s : State) (o : Nat) (f : Fld) (v : Nat) (hle : f.lo ≤ f.hi) (hhi : f.hi < 64)
    (hv : v < 2 ^ (f.hi + 1 - f.lo)) : (s.wr o f v).rd o f = v := by
  rw [rd_wr_same s o f v hle hhi, Nat.mod_eq_of_lt hv]

/-! ### Writing a field by its type (00 R8) -/

section
variable (s : State) (o : Nat) (locked : Bool) (x : FldWrite)

theorem writeField_of_held (h : x.fd.ty = .ro ∨ x.fd.ty = .rws ∨ x.fd.ty = .wo) : s.writeField o locked x = s := by
  rcases h with h | h | h <;> simp only [State.writeField, h]

theorem writeField_rw (h : x.fd.ty = .rw) : s.writeField o locked x =
    if x.fd.okLo ≤ x.new ∧ x.new ≤ x.fd.okHi then s.wr o x.fd.fld x.new else s := by
  simp only [State.writeField, h]

theorem writeField_rwl (h : x.fd.ty = .rwl) : s.writeField o locked x =
    if !locked ∧ x.fd.okLo ≤ x.new ∧ x.new ≤ x.fd.okHi then s.wr o x.fd.fld x.new else s := by
  simp only [State.writeField, h]

theorem writeField_w1c (h : x.fd.ty = .w1c) : s.writeField o locked x =
    s.wr o x.fd.fld (s.rd o x.fd.fld - (s.rd o x.fd.fld &&& x.raw)) := by
  simp only [State.writeField, h]

theorem writeField_w1s (h : x.fd.ty = .w1s) : s.writeField o locked x =
    s.wr o x.fd.fld (s.rd o x.fd.fld ||| x.raw) := by
  simp only [State.writeField, h]

/-- A write of a field leaves the state alone or sets that field, and nothing else. -/
theorem writeField_cases : s.writeField o locked x = s ∨ ∃ v, s.writeField o locked x = s.wr o x.fd.fld v := by
  cases h : x.fd.ty with
  | rw => rw [writeField_rw s o locked x h]; split <;> [exact .inr ⟨_, rfl⟩; exact .inl rfl]
  | rwl => rw [writeField_rwl s o locked x h]; split <;> [exact .inr ⟨_, rfl⟩; exact .inl rfl]
  | w1c => exact .inr ⟨_, writeField_w1c s o locked x h⟩
  | w1s => exact .inr ⟨_, writeField_w1s s o locked x h⟩
  | ro | rws | wo => exact .inl (writeField_of_held s o locked x (by simp [h]))

/-- A field that shares no bit with the one written keeps its value. -/
theorem rd_writeField_apart (hle : x.fd.fld.lo ≤ x.fd.fld.hi) {p : Nat} {g : Fld}
    (h : o = p → g.hi < x.fd.fld.lo ∨ x.fd.fld.hi < g.lo) : (s.writeField o locked x).rd p g = s.rd p g := by
  rcases writeField_cases s o locked x with e | ⟨v, e⟩
  · rw [e]
  · rw [e, rd_wr s o p x.fd.fld g v hle h]

theorem testBit_writeField_w1c (h : x.fd.ty = .w1c) (hle : x.fd.fld.lo ≤ x.fd.fld.hi) (hhi : x.fd.fld.hi < 64) (i : Nat) :
    ((s.writeField o locked x).rd o x.fd.fld).testBit i = ((s.rd o x.fd.fld).testBit i && !x.raw.testBit i) := by
  rw [writeField_w1c s o locked x h, rd_wr_fits s o _ _ hle hhi (lt_of_le_of_lt (Nat.sub_le _ _) (rd_lt s o _)),
    testBit_sub_and]

theorem testBit_writeField_w1s (h : x.fd.ty = .w1s) (hle : x.fd.fld.lo ≤ x.fd.fld.hi) (hhi : x.fd.fld.hi < 64)
    (hraw : x.raw < 2 ^ (x.fd.fld.hi + 1 - x.fd.fld.lo)) (i : Nat) :
    ((s.writeField o locked x).rd o x.fd.fld).testBit i = ((s.rd o x.fd.fld).testBit i || x.raw.testBit i) := by
  rw [writeField_w1s s o locked x h, rd_wr_fits s o _ _ hle hhi (Nat.or_lt_two_pow (rd_lt s o _) hraw), Nat.testBit_or]

end

/-- Settles O9: each field type's equation, and the frame that every type shares. -/
theorem registerFieldTypes : Obligations.RegisterFieldTypes := by
  intro s o locked x hle hhi hraw hnew
  refine ⟨fun h => writeField_of_held s o locked x (by tauto), fun h i => testBit_writeField_w1c s o locked x h hle hhi i,
    fun h i => testBit_writeField_w1s s o locked x h hle hhi hraw i, fun h hlo hhi' => ?_, fun h hl => ?_,
    fun h hl hlo hhi' => ?_, fun p g => rd_writeField_apart s o locked x hle⟩
  · rw [writeField_rw s o locked x h, if_pos ⟨hlo, hhi'⟩, rd_wr_fits s o _ _ hle hhi hnew]
  · rw [writeField_rwl s o locked x h, if_neg (by simp [hl])]
  · rw [writeField_rwl s o locked x h, if_pos ⟨by simp [hl], hlo, hhi'⟩, rd_wr_fits s o _ _ hle hhi hnew]

end Sys2Proof.Machine
end

section
/-! PROOFS. Which commands change the boot flash and the cold-latched option record (O7): the frame theorems of Laws/Frame put
together over the commands. -/

namespace Sys2Proof.Machine
open Sys2Proof

/-- Two states agree on the boot flash and on the cold-latched option record. -/
def State.SameFirmware (s t : State) : Prop := t.flash = s.flash ∧ t.coldOpt = s.coldOpt

/-- A frame theorem of Laws/Frame names the queue, the flash and the option record first. -/
theorem sameFirmware_of_frame {s t : State} {rest : Prop}
    (h : t.pending = s.pending ∧ t.flash = s.flash ∧ t.coldOpt = s.coldOpt ∧ rest) : s.SameFirmware t :=
  ⟨h.2.1, h.2.2.1⟩

/-- Every command but FW_DATA (20 R493) and OPTION_LOAD_DONE (17 R429) leaves the flash and the option record alone. -/
theorem exec_sameFirmware {c : Instr} {s t : State} (h : exec c s = .next t) (hdata : ∀ src msg b, c ≠ .fwData src msg b)
    (hload : c ≠ .optionLoadDone) : s.SameFirmware t := by
  cases c with
  | registerWrite _ _ _ _ _ => exact sameFirmware_of_frame (execRegisterWrite_fr _ _ _ _ _ _ h)
  | suppliesGood _ _ _ => exact sameFirmware_of_frame (execSuppliesGood_fr _ _ _ _ h)
  | powerOnReset _ => exact sameFirmware_of_frame (execPowerOnReset_fr _ _ h)
  | coldReset _ _ => exact sameFirmware_of_frame (execColdReset_fr _ _ _ h)
  | warmReset _ => exact sameFirmware_of_frame (execWarmReset_fr _ _ h)
  | mramPulseEnd => exact sameFirmware_of_frame (execMramPulseEnd_fr _ h)
  | selfRefreshEntryDone _ => exact sameFirmware_of_frame (execSelfRefreshEntryDone_fr _ _ h)
  | selfRefreshWaitTimeout _ => exact sameFirmware_of_frame (execSelfRefreshWaitTimeout_fr _ _ h)
  | domainResetRelease _ => exact sameFirmware_of_frame (execDomainResetRelease_fr _ _ h)
  | optionLoadDone => exact absurd rfl hload
  | pllLock => exact sameFirmware_of_frame (execPllLock_fr _ h)
  | clockMonitorWindow _ _ _ _ => exact sameFirmware_of_frame (execClockMonitorWindow_fr _ _ _ _ _ h)
  | warmupScan _ => exact sameFirmware_of_frame (execWarmupScan_fr _ _ h)
  | warmupTimeout => exact sameFirmware_of_frame (execWarmupTimeout_fr _ h)
  | dramTrainingDone _ => exact sameFirmware_of_frame (execDramTrainingDone_fr _ _ h)
  | memoryFillDone => exact sameFirmware_of_frame (execMemoryFillDone_fr _ h)
  | bootAuthentication => exact sameFirmware_of_frame (execBootAuthentication_fr _ h)
  | selfTestDone _ _ => exact sameFirmware_of_frame (execSelfTestDone_fr _ _ _ h)
  | mainlineEntry => exact sameFirmware_of_frame (execMainlineEntry_fr _ h)
  | bootGood _ => exact sameFirmware_of_frame (execBootGood_fr _ _ h)
  | modeOrderSubmit _ _ _ => exact sameFirmware_of_frame (execModeOrderSubmit_fr _ _ _ _ h)
  | modeDecision => exact sameFirmware_of_frame (execModeDecision_fr _ h)
  | duskEntry => exact sameFirmware_of_frame (execDuskEntry_fr _ h)
  | duskWake _ => exact sameFirmware_of_frame (execDuskWake_fr _ _ h)
  | nightEntry => exact sameFirmware_of_frame (execNightEntry_fr _ h)
  | lowPowerEntryTimeout _ => exact sameFirmware_of_frame (execLowPowerEntryTimeout_fr _ _ h)
  | nightWake => exact sameFirmware_of_frame (execNightWake_fr _ h)
  | midnightWake => exact sameFirmware_of_frame (execMidnightWake_fr _ h)
  | modeTransitionDone => exact sameFirmware_of_frame (execModeTransitionDone_fr _ h)
  | dieLoss _ _ => exact sameFirmware_of_frame (execDieLoss_fr _ _ _ h)
  | dieReadmit _ _ _ => exact sameFirmware_of_frame (execDieReadmit_fr _ _ _ _ h)
  | coreResetReq _ _ _ => exact sameFirmware_of_frame (execCoreResetReq_fr _ _ _ _ h)
  | clusterResetReq _ _ _ => exact sameFirmware_of_frame (execClusterResetReq_fr _ _ _ _ h)
  | clusterResetDrained _ => exact sameFirmware_of_frame (execClusterResetDrained_fr _ _ h)
  | dieResetReq _ _ _ => exact sameFirmware_of_frame (execDieResetReq_fr _ _ _ _ h)
  | ndmreset _ _ => exact sameFirmware_of_frame (execNdmreset_fr _ _ _ h)
  | hartreset _ _ => exact sameFirmware_of_frame (execHartreset_fr _ _ _ h)
  | watchdogKick _ => exact sameFirmware_of_frame (execWatchdogKick_fr _ _ h)
  | watchdogHalf => exact sameFirmware_of_frame (execWatchdogHalf_fr _ h)
  | watchdogTimeout _ => exact sameFirmware_of_frame (execWatchdogTimeout_fr _ _ h)
  | thermalTrip _ _ => exact sameFirmware_of_frame (execThermalTrip_fr _ _ _ h)
  | sensorScan _ => exact sameFirmware_of_frame (execSensorScan_fr _ _ h)
  | throttleStep => exact sameFirmware_of_frame (execThrottleStep_fr _ h)
  | throttleRelax => exact sameFirmware_of_frame (execThrottleRelax_fr _ h)
  | budgetRound _ _ _ => exact sameFirmware_of_frame (execBudgetRound_fr _ _ _ _ h)
  | budgetBid _ _ => exact sameFirmware_of_frame (execBudgetBid_fr _ _ _ h)
  | budgetGrant _ => exact sameFirmware_of_frame (execBudgetGrant_fr _ _ h)
  | cclkDividerSwitch _ => exact sameFirmware_of_frame (execCclkDividerSwitch_fr _ _ h)
  | drawMeterCheck _ _ => exact sameFirmware_of_frame (execDrawMeterCheck_fr _ _ _ h)
  | packagePowerLimit _ => exact sameFirmware_of_frame (execPackagePowerLimit_fr _ _ h)
  | setTdp _ _ _ => exact sameFirmware_of_frame (execSetTdp_fr _ _ _ _ h)
  | capCclk _ _ _ => exact sameFirmware_of_frame (execCapCclk_fr _ _ _ _ h)
  | gate _ _ _ => exact sameFirmware_of_frame (execGate_fr _ _ _ _ h)
  | ungate _ _ _ => exact sameFirmware_of_frame (execUngate_fr _ _ _ _ h)
  | powerOff _ _ _ => exact sameFirmware_of_frame (execPowerOff_fr _ _ _ _ h)
  | powerOn _ _ _ => exact sameFirmware_of_frame (execPowerOn_fr _ _ _ _ h)
  | memIdle _ _ _ => exact sameFirmware_of_frame (execMemIdle_fr _ _ _ _ h)
  | unitPowerDownDone _ => exact sameFirmware_of_frame (execUnitPowerDownDone_fr _ _ h)
  | unitPowerUpDone _ => exact sameFirmware_of_frame (execUnitPowerUpDone_fr _ _ h)
  | unitDrainTimeout _ => exact sameFirmware_of_frame (execUnitDrainTimeout_fr _ _ h)
  | memIdleSelfRefresh _ => exact sameFirmware_of_frame (execMemIdleSelfRefresh_fr _ _ h)
  | wakePin _ => exact sameFirmware_of_frame (execWakePin_fr _ _ h)
  | fxWake _ _ => exact sameFirmware_of_frame (execFxWake_fr _ _ _ h)
  | rtcAlarm => exact sameFirmware_of_frame (execRtcAlarm_fr _ h)
  | thermalWake _ => exact sameFirmware_of_frame (execThermalWake_fr _ _ h)
  | sidebandAddressMatch _ _ => exact sameFirmware_of_frame (execSidebandAddressMatch_fr _ _ _ h)
  | pcieWake _ _ => exact sameFirmware_of_frame (execPcieWake_fr _ _ _ h)
  | ctuBegin _ _ _ => exact sameFirmware_of_frame (execCtuBegin_fr _ _ _ _ h)
  | ctuCommit _ _ _ => exact sameFirmware_of_frame (execCtuCommit_fr _ _ _ _ h)
  | ctuRollback _ _ _ => exact sameFirmware_of_frame (execCtuRollback_fr _ _ _ _ h)
  | rwsWrite _ _ _ _ => exact sameFirmware_of_frame (execRwsWrite_fr _ _ _ _ _ h)
  | ctuTimeout _ => exact sameFirmware_of_frame (execCtuTimeout_fr _ _ h)
  | commitTurn => exact sameFirmware_of_frame (execCommitTurn_fr _ h)
  | ctuCheckDone => exact sameFirmware_of_frame (execCtuCheckDone_fr _ h)
  | ctuApply _ => exact sameFirmware_of_frame (execCtuApply_fr _ _ h)
  | blockApply _ => exact sameFirmware_of_frame (execBlockApply_fr _ _ h)
  | ctuApplyComplete => exact sameFirmware_of_frame (execCtuApplyComplete_fr _ h)
  | shareHandback _ => exact sameFirmware_of_frame (execShareHandback_fr _ _ h)
  | zeroFillDone _ => exact sameFirmware_of_frame (execZeroFillDone_fr _ _ h)
  | sweepDone _ => exact sameFirmware_of_frame (execSweepDone_fr _ _ h)
  | agentDrained _ _ => exact sameFirmware_of_frame (execAgentDrained_fr _ _ _ h)
  | flitRoute _ _ _ _ => exact sameFirmware_of_frame (execFlitRoute_fr _ _ _ _ _ h)
  | grantHoldCutoff _ _ => exact sameFirmware_of_frame (execGrantHoldCutoff_fr _ _ _ h)
  | cfgHoldCutoff _ _ _ => exact sameFirmware_of_frame (execCfgHoldCutoff_fr _ _ _ _ h)
  | statClear _ _ => exact sameFirmware_of_frame (execStatClear_fr _ _ _ h)
  | credit _ _ _ => exact sameFirmware_of_frame (execCredit_fr _ _ _ _ h)
  | regDone _ => exact sameFirmware_of_frame (execRegDone_fr _ _ h)
  | rspError _ _ => exact sameFirmware_of_frame (execRspError_fr _ _ _ h)
  | transactionTimeout _ => exact sameFirmware_of_frame (execTransactionTimeout_fr _ _ h)
  | rdShared _ _ => exact sameFirmware_of_frame (execRdShared_fr _ _ _ h)
  | rdNoexcl _ _ => exact sameFirmware_of_frame (execRdNoexcl_fr _ _ _ h)
  | rdUnique _ _ => exact sameFirmware_of_frame (execRdUnique_fr _ _ _ h)
  | upgrade _ _ => exact sameFirmware_of_frame (execUpgrade_fr _ _ _ h)
  | zeroUnique _ _ => exact sameFirmware_of_frame (execZeroUnique_fr _ _ _ h)
  | cmoClean _ _ => exact sameFirmware_of_frame (execCmoClean_fr _ _ _ h)
  | cmoFlush _ _ => exact sameFirmware_of_frame (execCmoFlush_fr _ _ _ h)
  | rdNoalloc _ _ _ => exact sameFirmware_of_frame (execRdNoalloc_fr _ _ _ _ h)
  | wrFull _ _ _ _ => exact sameFirmware_of_frame (execWrFull_fr _ _ _ _ _ h)
  | wrMask _ _ _ _ _ => exact sameFirmware_of_frame (execWrMask_fr _ _ _ _ _ _ h)
  | wbDirty _ _ => exact sameFirmware_of_frame (execWbDirty_fr _ _ _ h)
  | evictClean _ _ => exact sameFirmware_of_frame (execEvictClean_fr _ _ _ h)
  | snpShare _ _ => exact sameFirmware_of_frame (execSnpShare_fr _ _ _ h)
  | snpInval _ _ => exact sameFirmware_of_frame (execSnpInval_fr _ _ _ h)
  | snpPeek _ _ => exact sameFirmware_of_frame (execSnpPeek_fr _ _ _ h)
  | rspI _ _ => exact sameFirmware_of_frame (execRspI_fr _ _ _ h)
  | rspS _ _ => exact sameFirmware_of_frame (execRspS_fr _ _ _ h)
  | rspWbif _ _ => exact sameFirmware_of_frame (execRspWbif_fr _ _ _ h)
  | datDirty _ _ => exact sameFirmware_of_frame (execDatDirty_fr _ _ _ h)
  | memData _ _ => exact sameFirmware_of_frame (execMemData_fr _ _ _ h)
  | datGrant _ _ => exact sameFirmware_of_frame (execDatGrant_fr _ _ _ h)
  | rspGrant _ _ => exact sameFirmware_of_frame (execRspGrant_fr _ _ _ h)
  | rspWdone _ _ => exact sameFirmware_of_frame (execRspWdone_fr _ _ _ h)
  | wbAck _ _ => exact sameFirmware_of_frame (execWbAck_fr _ _ _ h)
  | lrHoldTimeout _ => exact sameFirmware_of_frame (execLrHoldTimeout_fr _ _ h)
  | rangeOp _ _ => exact sameFirmware_of_frame (execRangeOp_fr _ _ _ h)
  | rangeSweep _ => exact sameFirmware_of_frame (execRangeSweep_fr _ _ h)
  | memRead _ _ => exact sameFirmware_of_frame (execMemRead_fr _ _ _ h)
  | memWrite _ => exact sameFirmware_of_frame (execMemWrite_fr _ _ h)
  | memWriteMask _ => exact sameFirmware_of_frame (execMemWriteMask_fr _ _ h)
  | patrolScrub _ => exact sameFirmware_of_frame (execPatrolScrub_fr _ _ h)
  | pcieDmaRead _ _ _ _ => exact sameFirmware_of_frame (execPcieDmaRead_fr _ _ _ _ _ h)
  | pcieDmaWrite _ _ _ => exact sameFirmware_of_frame (execPcieDmaWrite_fr _ _ _ _ h)
  | atomicOp _ _ _ _ _ _ _ => exact sameFirmware_of_frame (execAtomicOp_fr _ _ _ _ _ _ _ _ h)
  | pcieMsi _ _ _ => exact sameFirmware_of_frame (execPcieMsi_fr _ _ _ _ h)
  | linkDown _ => exact sameFirmware_of_frame (execLinkDown_fr _ _ h)
  | cxlSurpriseRemoval _ => exact sameFirmware_of_frame (execCxlSurpriseRemoval_fr _ _ h)
  | ioRead _ _ => exact sameFirmware_of_frame (execIoRead_fr _ _ _ h)
  | ioWrite _ => exact sameFirmware_of_frame (execIoWrite_fr _ _ h)
  | doorbellInvalidation _ => exact sameFirmware_of_frame (execDoorbellInvalidation_fr _ _ h)
  | doorbellLineReturn _ => exact sameFirmware_of_frame (execDoorbellLineReturn_fr _ _ h)
  | nopDesc _ _ => exact sameFirmware_of_frame (execNopDesc_fr _ _ _ h)
  | runPipeline _ _ => exact sameFirmware_of_frame (execRunPipeline_fr _ _ _ h)
  | loadImage _ _ => exact sameFirmware_of_frame (execLoadImage_fr _ _ _ h)
  | imageValidation _ _ => exact sameFirmware_of_frame (execImageValidation_fr _ _ _ h)
  | unloadImage _ _ => exact sameFirmware_of_frame (execUnloadImage_fr _ _ _ h)
  | unloadTakesEffect _ _ => exact sameFirmware_of_frame (execUnloadTakesEffect_fr _ _ _ h)
  | fenceDesc _ _ => exact sameFirmware_of_frame (execFenceDesc_fr _ _ _ h)
  | fenceComplete _ _ => exact sameFirmware_of_frame (execFenceComplete_fr _ _ _ h)
  | fencedWorkBegin _ _ => exact sameFirmware_of_frame (execFencedWorkBegin_fr _ _ _ h)
  | abort _ _ => exact sameFirmware_of_frame (execAbort_fr _ _ _ h)
  | abortComplete _ _ => exact sameFirmware_of_frame (execAbortComplete_fr _ _ _ h)
  | etlbLoad _ _ => exact sameFirmware_of_frame (execEtlbLoad_fr _ _ _ h)
  | etlbInvalidate _ _ => exact sameFirmware_of_frame (execEtlbInvalidate_fr _ _ _ h)
  | etlbInvalidateComplete _ _ => exact sameFirmware_of_frame (execEtlbInvalidateComplete_fr _ _ _ h)
  | matchWrite _ _ => exact sameFirmware_of_frame (execMatchWrite_fr _ _ _ h)
  | dispatch _ => exact sameFirmware_of_frame (execDispatch_fr _ _ h)
  | cbufRewriteDone _ => exact sameFirmware_of_frame (execCbufRewriteDone_fr _ _ h)
  | cbufScrub _ => exact sameFirmware_of_frame (execCbufScrub_fr _ _ h)
  | taskEnd _ => exact sameFirmware_of_frame (execTaskEnd_fr _ _ h)
  | translationFaultTimeout _ => exact sameFirmware_of_frame (execTranslationFaultTimeout_fr _ _ h)
  | completionWrite _ _ => exact sameFirmware_of_frame (execCompletionWrite_fr _ _ _ h)
  | pageReq _ => exact sameFirmware_of_frame (execPageReq_fr _ _ h)
  | scanCheck _ _ => exact sameFirmware_of_frame (execScanCheck_fr _ _ _ h)
  | pageRelease _ _ _ => exact sameFirmware_of_frame (execPageRelease_fr _ _ _ _ h)
  | correctionWriteBack => exact sameFirmware_of_frame (execCorrectionWriteBack_fr _ h)
  | chainFwd _ => exact sameFirmware_of_frame (execChainFwd_fr _ _ h)
  | rowFetch _ => exact sameFirmware_of_frame (execRowFetch_fr _ _ h)
  | survivor _ => exact sameFirmware_of_frame (execSurvivor_fr _ _ h)
  | scan _ => exact sameFirmware_of_frame (execScan_fr _ _ h)
  | scanraw _ => exact sameFirmware_of_frame (execScanraw_fr _ _ h)
  | recv _ => exact sameFirmware_of_frame (execRecv_fr _ _ h)
  | inlineIn _ => exact sameFirmware_of_frame (execInlineIn_fr _ _ h)
  | filter _ => exact sameFirmware_of_frame (execFilter_fr _ _ h)
  | project _ => exact sameFirmware_of_frame (execProject_fr _ _ h)
  | matchOp _ => exact sameFirmware_of_frame (execMatch_fr _ _ h)
  | hash _ => exact sameFirmware_of_frame (execHash_fr _ _ h)
  | build _ => exact sameFirmware_of_frame (execBuild_fr _ _ h)
  | probe _ => exact sameFirmware_of_frame (execProbe_fr _ _ h)
  | aggLocal _ => exact sameFirmware_of_frame (execAggLocal_fr _ _ h)
  | aggHome _ => exact sameFirmware_of_frame (execAggHome_fr _ _ h)
  | sortRun _ => exact sameFirmware_of_frame (execSortRun_fr _ _ h)
  | merge _ => exact sameFirmware_of_frame (execMerge_fr _ _ h)
  | intermediateMergeTask _ => exact sameFirmware_of_frame (execIntermediateMergeTask_fr _ _ h)
  | finalMergeTask _ => exact sameFirmware_of_frame (execFinalMergeTask_fr _ _ h)
  | topk _ => exact sameFirmware_of_frame (execTopk_fr _ _ h)
  | gatherTask _ => exact sameFirmware_of_frame (execGatherTask_fr _ _ h)
  | topkRows _ => exact sameFirmware_of_frame (execTopkRows_fr _ _ h)
  | partition _ => exact sameFirmware_of_frame (execPartition_fr _ _ h)
  | limit _ => exact sameFirmware_of_frame (execLimit_fr _ _ h)
  | emit _ => exact sameFirmware_of_frame (execEmit_fr _ _ h)
  | emitInline _ => exact sameFirmware_of_frame (execEmitInline_fr _ _ h)
  | endOp _ => exact sameFirmware_of_frame (execEnd_fr _ _ h)
  | bucketInsert _ => exact sameFirmware_of_frame (execBucketInsert_fr _ _ h)
  | bucketProbe _ => exact sameFirmware_of_frame (execBucketProbe_fr _ _ h)
  | bucketMerge _ => exact sameFirmware_of_frame (execBucketMerge_fr _ _ h)
  | anchorVisit _ => exact sameFirmware_of_frame (execAnchorVisit_fr _ _ h)
  | spillChunkVisit _ => exact sameFirmware_of_frame (execSpillChunkVisit_fr _ _ h)
  | probeResult _ => exact sameFirmware_of_frame (execProbeResult_fr _ _ h)
  | opDone _ => exact sameFirmware_of_frame (execOpDone_fr _ _ h)
  | level0MergeTask _ => exact sameFirmware_of_frame (execLevel0MergeTask_fr _ _ h)
  | exchange _ => exact sameFirmware_of_frame (execExchange_fr _ _ h)
  | recvTaskDispatch _ => exact sameFirmware_of_frame (execRecvTaskDispatch_fr _ _ h)
  | programTableEntry _ => exact sameFirmware_of_frame (execProgramTableEntry_fr _ _ h)
  | move _ => exact sameFirmware_of_frame (execMove_fr _ _ h)
  | encode _ => exact sameFirmware_of_frame (execEncode_fr _ _ h)
  | footerWrite _ => exact sameFirmware_of_frame (execFooterWrite_fr _ _ h)
  | encodeBlockWriteBack _ => exact sameFirmware_of_frame (execEncodeBlockWriteBack_fr _ _ h)
  | flush _ => exact sameFirmware_of_frame (execFlush_fr _ _ h)
  | loop _ => exact sameFirmware_of_frame (execLoop_fr _ _ h)
  | wait _ => exact sameFirmware_of_frame (execWait_fr _ _ h)
  | waitPoll _ => exact sameFirmware_of_frame (execWaitPoll_fr _ _ h)
  | waitTimeout _ => exact sameFirmware_of_frame (execWaitTimeout_fr _ _ h)
  | signal _ => exact sameFirmware_of_frame (execSignal_fr _ _ h)
  | dmEnd _ => exact sameFirmware_of_frame (execDmEnd_fr _ _ h)
  | dmReservedOpcode _ => exact sameFirmware_of_frame (execDmReservedOpcode_fr _ _ h)
  | dmReadReturn _ => exact sameFirmware_of_frame (execDmReadReturn_fr _ _ h)
  | programDone _ => exact sameFirmware_of_frame (execProgramDone_fr _ _ h)
  | channelDrainDone _ => exact sameFirmware_of_frame (execChannelDrainDone_fr _ _ h)
  | trainingStepComplete _ _ => exact sameFirmware_of_frame (execTrainingStepComplete_fr _ _ _ h)
  | trainingTimeout _ => exact sameFirmware_of_frame (execTrainingTimeout_fr _ _ h)
  | capabilityWord _ _ _ _ _ _ => exact sameFirmware_of_frame (execCapabilityWord_fr _ _ _ _ _ _ _ h)
  | dataFlit _ _ _ => exact sameFirmware_of_frame (execDataFlit_fr _ _ _ _ h)
  | nak _ _ _ _ => exact sameFirmware_of_frame (execNak_fr _ _ _ _ _ h)
  | idleFlit _ _ _ => exact sameFirmware_of_frame (execIdleFlit_fr _ _ _ _ h)
  | replayTimeout _ _ => exact sameFirmware_of_frame (execReplayTimeout_fr _ _ _ h)
  | command _ => exact sameFirmware_of_frame (execCommand_fr _ _ h)
  | stagingReserved _ => exact sameFirmware_of_frame (execStagingReserved_fr _ _ h)
  | dataIn _ => exact sameFirmware_of_frame (execDataIn_fr _ _ h)
  | fxDoorbell _ => exact sameFirmware_of_frame (execFxDoorbell_fr _ _ h)
  | fetchResend _ => exact sameFirmware_of_frame (execFetchResend_fr _ _ h)
  | windowReg _ => exact sameFirmware_of_frame (execWindowReg_fr _ _ h)
  | windowRelease _ => exact sameFirmware_of_frame (execWindowRelease_fr _ _ h)
  | windowReleaseAck _ => exact sameFirmware_of_frame (execWindowReleaseAck_fr _ _ h)
  | mgmt _ => exact sameFirmware_of_frame (execMgmt_fr _ _ h)
  | finxisReset _ _ => exact sameFirmware_of_frame (execFinxisReset_fr _ _ _ h)
  | loadStore _ _ _ _ _ _ _ _ => exact sameFirmware_of_frame (execLoadStore_fr _ _ _ _ _ _ _ _ _ h)
  | amo _ _ _ _ _ _ => exact sameFirmware_of_frame (execAmo_fr _ _ _ _ _ _ _ h)
  | lr _ _ _ _ => exact sameFirmware_of_frame (execLr_fr _ _ _ _ _ h)
  | sc _ _ _ _ _ => exact sameFirmware_of_frame (execSc_fr _ _ _ _ _ _ h)
  | fence i pred succ => exact sameFirmware_of_frame (execFence_fr i pred succ s h)
  | fenceI _ => exact sameFirmware_of_frame (execFenceI_fr _ _ h)
  | cboZero _ _ => exact sameFirmware_of_frame (execCboZero_fr _ _ _ h)
  | cboClean _ _ => exact sameFirmware_of_frame (execCboClean_fr _ _ _ h)
  | cboFlush _ _ => exact sameFirmware_of_frame (execCboFlush_fr _ _ _ h)
  | cboInval _ _ => exact sameFirmware_of_frame (execCboInval_fr _ _ _ h)
  | prefetchR _ _ _ => exact sameFirmware_of_frame (execPrefetchR_fr _ _ _ _ h)
  | prefetchW _ _ _ => exact sameFirmware_of_frame (execPrefetchW_fr _ _ _ _ h)
  | prefetchI _ _ _ => exact sameFirmware_of_frame (execPrefetchI_fr _ _ _ _ h)
  | wfi _ => exact sameFirmware_of_frame (execWfi_fr _ _ h)
  | wfiWake _ => exact sameFirmware_of_frame (execWfiWake_fr _ _ h)
  | wrsSto _ => exact sameFirmware_of_frame (execWrsSto_fr _ _ h)
  | mtimecmpMatch _ => exact sameFirmware_of_frame (execMtimecmpMatch_fr _ _ h)
  | msi _ _ _ => exact sameFirmware_of_frame (execMsi_fr _ _ _ _ h)
  | hswGate _ _ => exact sameFirmware_of_frame (execHswGate_fr _ _ _ h)
  | hswRet _ => exact sameFirmware_of_frame (execHswRet_fr _ _ h)
  | hscClean _ _ _ => exact sameFirmware_of_frame (execHscClean_fr _ _ _ _ h)
  | hscFlush _ _ _ => exact sameFirmware_of_frame (execHscFlush_fr _ _ _ _ h)
  | hscTflush _ _ _ => exact sameFirmware_of_frame (execHscTflush_fr _ _ _ _ h)
  | hscGtflush _ _ _ => exact sameFirmware_of_frame (execHscGtflush_fr _ _ _ _ h)
  | sfenceVma _ _ _ => exact sameFirmware_of_frame (execSfenceVma_fr _ _ _ _ h)
  | hfenceVvma _ _ _ => exact sameFirmware_of_frame (execHfenceVvma_fr _ _ _ _ h)
  | hfenceGvma _ _ _ => exact sameFirmware_of_frame (execHfenceGvma_fr _ _ _ _ h)
  | sinvalVma _ _ _ => exact sameFirmware_of_frame (execSinvalVma_fr _ _ _ _ h)
  | hinvalVvma _ _ _ => exact sameFirmware_of_frame (execHinvalVvma_fr _ _ _ _ h)
  | hinvalGvma _ _ _ => exact sameFirmware_of_frame (execHinvalGvma_fr _ _ _ _ h)
  | sfenceWInval _ => exact sameFirmware_of_frame (execSfenceWInval_fr _ _ h)
  | sfenceInvalIr _ => exact sameFirmware_of_frame (execSfenceInvalIr_fr _ _ h)
  | satpWrite _ _ _ => exact sameFirmware_of_frame (execSatpWrite_fr _ _ _ _ h)
  | mhpmeventWrite _ _ _ => exact sameFirmware_of_frame (execMhpmeventWrite_fr _ _ _ _ h)
  | unimplementedInstruction _ _ => exact sameFirmware_of_frame (execUnimplementedInstruction_fr _ _ _ h)
  | haltRequest _ => exact sameFirmware_of_frame (execHaltRequest_fr _ _ h)
  | systemBusAccess _ _ _ => exact sameFirmware_of_frame (execSystemBusAccess_fr _ _ _ _ h)
  | event _ => exact sameFirmware_of_frame (execEvent_fr _ _ h)
  | aplicClaim _ _ => exact sameFirmware_of_frame (execAplicClaim_fr _ _ _ h)
  | sourcecfgWrite _ _ _ _ => exact sameFirmware_of_frame (execSourcecfgWrite_fr _ _ _ _ _ h)
  | pmcWatchdogTimeout => exact sameFirmware_of_frame (execPmcWatchdogTimeout_fr _ h)
  | mailboxSubmit _ _ _ => exact sameFirmware_of_frame (execMailboxSubmit_fr _ _ _ _ h)
  | getInfo _ _ => exact sameFirmware_of_frame (execGetInfo_fr _ _ _ h)
  | readSensors _ _ => exact sameFirmware_of_frame (execReadSensors_fr _ _ _ h)
  | readRails _ _ _ => exact sameFirmware_of_frame (execReadRails_fr _ _ _ _ h)
  | setLimits _ _ => exact sameFirmware_of_frame (execSetLimits_fr _ _ _ h)
  | tripClear _ _ => exact sameFirmware_of_frame (execTripClear_fr _ _ _ h)
  | modeOrder _ _ => exact sameFirmware_of_frame (execModeOrder_fr _ _ _ h)
  | powerReq _ _ => exact sameFirmware_of_frame (execPowerReq_fr _ _ _ h)
  | reset _ _ _ => exact sameFirmware_of_frame (execReset_fr _ _ _ _ h)
  | logRead _ _ => exact sameFirmware_of_frame (execLogRead_fr _ _ _ h)
  | logClear _ _ => exact sameFirmware_of_frame (execLogClear_fr _ _ _ h)
  | optionRead _ _ => exact sameFirmware_of_frame (execOptionRead_fr _ _ _ h)
  | optionWrite _ _ => exact sameFirmware_of_frame (execOptionWrite_fr _ _ _ h)
  | fwBegin _ _ => exact sameFirmware_of_frame (execFwBegin_fr _ _ _ h)
  | fwData src msg b => exact absurd rfl (hdata src msg b)
  | fwVerifyDone _ => exact sameFirmware_of_frame (execFwVerifyDone_fr _ _ h)
  | fwReceiveTimeout _ => exact sameFirmware_of_frame (execFwReceiveTimeout_fr _ _ h)
  | fwCommit _ _ => exact sameFirmware_of_frame (execFwCommit_fr _ _ _ h)
  | fwRollback _ _ => exact sameFirmware_of_frame (execFwRollback_fr _ _ _ h)
  | fwStatus _ _ => exact sameFirmware_of_frame (execFwStatus_fr _ _ _ h)
  | debugSet _ _ => exact sameFirmware_of_frame (execDebugSet_fr _ _ _ h)
  | pmcRestart => exact sameFirmware_of_frame (execPmcRestart_fr _ h)
  | pmonClear _ => exact sameFirmware_of_frame (execPmonClear_fr _ _ h)
  | pmonFreeze _ _ => exact sameFirmware_of_frame (execPmonFreeze_fr _ _ _ h)
  | standbyRailsGood => exact sameFirmware_of_frame (execStandbyRailsGood_fr _ h)
  | standbyRailLoss _ => exact sameFirmware_of_frame (execStandbyRailLoss_fr _ _ h)
  | pcieLinkUp _ _ _ _ => exact sameFirmware_of_frame (execPcieLinkUp_fr _ _ _ _ _ h)
  | pcieCompletionTimeout _ => exact sameFirmware_of_frame (execPcieCompletionTimeout_fr _ _ h)
  | wfiRetentionEntry _ => exact sameFirmware_of_frame (execWfiRetentionEntry_fr _ _ h)
  | wrsStoTimeout _ => exact sameFirmware_of_frame (execWrsStoTimeout_fr _ _ h)
  | stimecmpMatch _ _ => exact sameFirmware_of_frame (execStimecmpMatch_fr _ _ _ h)
  | csrWrite _ _ _ => exact sameFirmware_of_frame (execCsrWrite_fr _ _ _ _ h)
  | ecall _ => exact sameFirmware_of_frame (execEcall_fr _ _ h)
  | mret _ => exact sameFirmware_of_frame (execMret_fr _ _ h)
  | debugResume _ _ => exact sameFirmware_of_frame (execDebugResume_fr _ _ _ h)
  | dmactiveClear => exact sameFirmware_of_frame (execDmactiveClear_fr _ h)
  | dynamicAddressAssignment _ => exact sameFirmware_of_frame (execDynamicAddressAssignment_fr _ _ h)

theorem exec_flash {c : Instr} {s t : State} (h : exec c s = .next t) (hdata : ∀ src msg b, c ≠ .fwData src msg b) :
    t.flash = s.flash := by
  by_cases hload : c = .optionLoadDone
  · subst hload
    obtain ⟨-, hflash, -⟩ := execOptionLoadDone_fr s h
    exact hflash
  · exact (exec_sameFirmware h hdata hload).1

theorem exec_coldOpt {c : Instr} {s t : State} (h : exec c s = .next t) (hload : c ≠ .optionLoadDone) :
    t.coldOpt = s.coldOpt := by
  by_cases hdata : ∃ src msg b, c = .fwData src msg b
  · obtain ⟨src, msg, b, rfl⟩ := hdata
    obtain ⟨-, hcold, -⟩ := execFwData_fr src msg b s h
    exact hcold
  · exact (exec_sameFirmware h (fun src msg b e => hdata ⟨src, msg, b, e⟩) hload).2

/-- Settles O7: every other command leaves the flash, or the option record, as it was. -/
theorem flashAndOptionsHeld : Obligations.FlashAndOptionsHeld := by
  intro c s t h
  refine ⟨fun hne => ?_, fun hne => ?_⟩
  · by_contra hc
    exact hne (exec_flash h fun src msg b e => hc ⟨src, msg, b, e⟩)
  · by_contra hc
    exact hne (exec_coldOpt h hc)

end Sys2Proof.Machine
end

section
/-! PROOFS. Finding the register at an offset, its reset value, and the registers a clearing write zeroes. -/

namespace Sys2Proof.Machine
open Sys2Proof

/-! ### The rows of the register table -/

/-- An offset a row covers is that of one of its instances. -/
theorem regHits_instance {r : RegDef} {off : Nat} (h : r.hits off = true) :
    ∃ i j, i < r.n1 ∧ j < r.n2 ∧ off = r.base + i * r.s1 + j * r.s2 := by
  simp only [RegDef.hits, Bool.and_eq_true, decide_eq_true_eq] at h
  obtain ⟨hbase, ⟨hi, hj⟩, hrest⟩ := h
  refine ⟨_, _, hi, hj, ?_⟩
  have h1 := Nat.div_add_mod (off - r.base) r.s1
  have h2 := Nat.div_add_mod ((off - r.base) % r.s1) r.s2
  rw [Nat.mul_comm] at h1 h2
  omega

theorem mem_hits_of_regAt {off : Nat} {r : RegDef} (h : regAt off = some r) : r ∈ regTable ∧ r.hits off = true := by
  unfold regAt at h
  have hhit := List.find?_some h
  exact ⟨List.mem_of_find?_eq_some h, hhit⟩

/-- A row covers no offset from `lo` to `hi` whose low 20 bits lie from `dlo` to `dhi`: it lies outside the range, or its
instances repeat with the stop's stride and lie outside the low bits. -/
def RegDef.clearOf (r : RegDef) (lo hi dlo dhi : Nat) : Bool :=
  decide (hi < r.base) || decide (r.base + (r.n1 - 1) * r.s1 + (r.n2 - 1) * r.s2 < lo) ||
  (r.s1 == 0x100000 && decide (r.base % 0x100000 + (r.n2 - 1) * r.s2 < 0x100000) &&
    (decide (dhi < r.base % 0x100000) || decide (r.base % 0x100000 + (r.n2 - 1) * r.s2 < dlo)))

theorem hits_eq_false_of_clearOf {r : RegDef} {lo hi dlo dhi off : Nat} (h : r.clearOf lo hi dlo dhi = true)
    (hlo : lo ≤ off) (hhi : off ≤ hi) (hdlo : dlo ≤ off % 0x100000) (hdhi : off % 0x100000 ≤ dhi) : r.hits off = false := by
  by_contra hc
  rw [Bool.not_eq_false] at hc
  have hle := regHits_le hc
  obtain ⟨i, j, -, hj, he⟩ := regHits_instance hc
  have hjs : j * r.s2 ≤ (r.n2 - 1) * r.s2 := Nat.mul_le_mul_right _ (by omega)
  simp only [RegDef.clearOf, Bool.or_eq_true, Bool.and_eq_true, decide_eq_true_eq, beq_iff_eq] at h
  rcases h with (h | h) | ⟨⟨hs, hwrap⟩, h⟩
  · omega
  · omega
  · rw [hs] at he
    omega

/-! ### Reset values -/

/-- Where the per-initiator and unit counters stand: first and last offset, first and last of the low 20 bits. -/
def counterBlocks : List (Nat × Nat × Nat × Nat) :=
  [(0x10000000, 0x13FFFFFF, 0x1000, 0x17FF), (0x10000000, 0x13FFFFFF, 0x4808, 0x487F),
   (0x20000000, 0x20FFFFFF, 0x808, 0x847), (0x28000000, 0x28DFFFFF, 0x808, 0x847), (0x30000000, 0x323FFFFF, 0x808, 0x847),
   (0x60000000, 0x603FFFFF, 0x808, 0x847)]

/-- No register whose reset value is not 0 stands among the counters. -/
theorem counterBlocks_reset : counterBlocks.all (fun b => regTable.all (fun r =>
    resetOfFields r.fields == 0 || r.clearOf b.1 b.2.1 b.2.2.1 b.2.2.2)) = true := by decide +kernel

/-- A counter resets to 0. -/
theorem resetWord_counter {off : Nat} (h : ∃ b ∈ counterBlocks, b.1 ≤ off ∧ off ≤ b.2.1 ∧ b.2.2.1 ≤ off % 0x100000 ∧
    off % 0x100000 ≤ b.2.2.2) : resetWord off = 0 := by
  obtain ⟨b, hb, hlo, hhi, hdlo, hdhi⟩ := h
  have hrows := List.all_eq_true.1 (List.all_eq_true.1 counterBlocks_reset b hb)
  have hfar : 0x10000000 ≤ off ∧ off % 0x100000 ≠ 0x4018 := by
    simp only [counterBlocks, List.mem_cons, List.not_mem_nil, or_false] at hb
    rcases hb with rfl | rfl | rfl | rfl | rfl | rfl <;> dsimp only at hlo hdlo hdhi <;> omega
  unfold resetWord
  rw [if_neg, if_neg, if_neg]
  · split
    · rename_i r hr
      obtain ⟨hmem, hhit⟩ := mem_hits_of_regAt hr
      have hz := hrows r hmem
      rw [Bool.or_eq_true, beq_iff_eq] at hz
      rcases hz with hz | hz
      · rw [hz]; rfl
      · rw [hits_eq_false_of_clearOf hz hlo hhi hdlo hdhi] at hhit
        exact absurd hhit Bool.false_ne_true
    · rfl
  all_goals simp only [Bool.and_eq_true, decide_eq_true_eq, beq_iff_eq]; omega

/-! ### Keeping some registers -/

theorem Tab.look_keep {α : Type} (p : Nat → Bool) (t : Tab α) (a : Nat) :
    Tab.look (t.keep (fun k _ => p k)) a = if p a then Tab.look t a else none := by
  induction t with
  | nil => simp [Tab.keep]
  | cons e t ih =>
    obtain ⟨k, v⟩ := e
    simp only [Tab.keep] at ih ⊢
    by_cases hk : a = k
    · subst hk; cases hp : p a <;> simp_all [List.filter, Tab.look]
    · cases hp : p k <;> simp [List.filter, Tab.look, hp, ih, hk]

/-- A register dropped from the table holds its reset value; the others keep theirs. -/
theorem rdW_keep (s : State) (p : Nat → Bool) (o : Nat) :
    ({ s with regs := s.regs.keep (fun k _ => p k) } : State).rdW o = if p o then s.rdW o else resetWord o := by
  simp only [State.rdW, Tab.get, Tab.look_keep]
  cases p o <;> rfl

/-- CLEAR of a stop zeroes its per-initiator counters (11 R327). -/
theorem rdW_statClear (s : State) (t o : Nat) : (s.statClear t).rdW o =
    if o < Reg.RTR_IPKT t 0 ∨ Reg.RTR_IPKT t 64 ≤ o then s.rdW o else resetWord o := by
  unfold State.statClear
  rw [rdW_keep s (fun o => decide (o < Reg.RTR_IPKT t 0) || decide (Reg.RTR_IPKT t 64 ≤ o))]
  simp only [Bool.or_eq_true, decide_eq_true_eq]

/-- CLEAR of PMON_CTRL zeroes the counters of 21 R497 but the per-initiator ones of the stops (21 R501). -/
theorem rdW_pmonClear (s : State) (o : Nat) : s.pmonClear.rdW o =
    if (ctrKind o).1 = .counter ∧ ¬ (0x1000 ≤ o % 0x100000 ∧ o % 0x100000 < 0x1800) then resetWord o else s.rdW o := by
  unfold State.pmonClear
  rw [rdW_keep s (fun o => !((ctrKind o).1 == .counter && !(decide (0x1000 ≤ o % 0x100000) && decide (o % 0x100000 < 0x1800))))]
  simp only [Bool.not_eq_true', Bool.and_eq_false_iff, beq_eq_false_iff_ne, Bool.not_eq_false', Bool.and_eq_true,
    decide_eq_true_eq]
  by_cases h : (ctrKind o).1 = .counter <;> by_cases h' : 0x1000 ≤ o % 0x100000 ∧ o % 0x100000 < 0x1800 <;> simp [h, h']

end Sys2Proof.Machine
end

section
/-! PROOFS. What an access to the register window does: one rule for each way it can end, and the fields a write touches. -/

namespace Sys2Proof.Machine
open Sys2Proof

/-! ### Answers and recorded violations -/

@[simp] theorem rdW_answer (s : State) (r : Resp) (o : Nat) : (s.answer r).rdW o = s.rdW o := rfl
@[simp] theorem rd_answer (s : State) (r : Resp) (o : Nat) (f : Fld) : (s.answer r).rd o f = s.rd o f := rfl
@[simp] theorem mramAt_answer (s : State) (r : Resp) (off n : Nat) : (s.answer r).mramAt off n = s.mramAt off n := rfl
@[simp] theorem resp_answer (s : State) (r : Resp) : (s.answer r).resp = r := rfl

theorem rdW_wrs_other (s : State) {o p : Nat} (l : List (Fld × Nat)) (h : p ≠ o) : (s.wrs o l).rdW p = s.rdW p := by
  induction l generalizing s with
  | nil => rfl
  | cons a l ih => exact (ih (s.wr o a.1 a.2)).trans (rdW_wr_other s a.1 a.2 h)

theorem regs_logNow (s : State) (ty : Nat) (data : List Byte) : (s.logNow ty data).regs = s.regs := by
  simp only [kept @State.logNow_fr]

/-- A log record stands in MRAM behind the boot count. -/
theorem mramAt_logNow (s : State) (ty : Nat) (data : List Byte) : (s.logNow ty data).mramAt 0x1000 1 = s.mramAt 0x1000 1 := by
  have hoff : 0x1000 < logOff s.pmc.logSeq := by unfold logOff; omega
  simp only [State.logNow, State.setMram, State.mramAt, List.range_one, List.map_cons, List.map_nil]
  rw [get_putRun_other _ _ _ (.inl hoff)]

/-- The record as the first violation fills it (14 R365). -/
def violRecord (kind : Nat) (who : Ident) (addr : Nat) : List (Fld × Nat) :=
  [(F.ISO_VIOL_VALID, 1), (F.ISO_VIOL_MORE, 0), (F.ISO_VIOL_KIND, kind), (F.ISO_VIOL_WORLD, worldBit who.world),
   (F.ISO_VIOL_PID, who.pid), (F.ISO_VIOL_ADDR, addr / 8)]

/-- A violation fills the record or sets MORE, and is logged where the PMC runs. -/
theorem viol_cases (s : State) (kind : Nat) (who : Ident) (addr : Nat) :
    (s.on Reg.ISO_VIOL F.ISO_VIOL_VALID = true ∧ s.viol kind who addr = s.wr Reg.ISO_VIOL F.ISO_VIOL_MORE 1) ∨
    (s.on Reg.ISO_VIOL F.ISO_VIOL_VALID = false ∧ (s.viol kind who addr = s.wrs Reg.ISO_VIOL (violRecord kind who addr) ∨
      ∃ ty data, s.viol kind who addr = (s.wrs Reg.ISO_VIOL (violRecord kind who addr)).logNow ty data)) := by
  unfold State.viol violRecord
  cases s.on Reg.ISO_VIOL F.ISO_VIOL_VALID with
  | true => exact .inl ⟨rfl, if_pos rfl⟩
  | false =>
    refine .inr ⟨rfl, ?_⟩
    rw [if_neg Bool.false_ne_true]
    dsimp only
    split
    · exact .inr ⟨_, _, rfl⟩
    · exact .inl rfl

theorem rdW_viol_other (s : State) (kind : Nat) (who : Ident) (addr : Nat) {o : Nat} (h : o ≠ Reg.ISO_VIOL) :
    (s.viol kind who addr).rdW o = s.rdW o := by
  rcases viol_cases s kind who addr with ⟨-, e⟩ | ⟨-, e | ⟨ty, data, e⟩⟩ <;> rw [e]
  · exact rdW_wr_other s _ _ h
  · exact rdW_wrs_other s _ h
  · rw [rdW_congr (regs_logNow _ ty data), rdW_wrs_other s _ h]

theorem mramAt_viol (s : State) (kind : Nat) (who : Ident) (addr : Nat) :
    (s.viol kind who addr).mramAt 0x1000 1 = s.mramAt 0x1000 1 := by
  have hm {t : State} (h : t.mram = s.mram) : t.mramAt 0x1000 1 = s.mramAt 0x1000 1 := by simp only [State.mramAt, h]
  rcases viol_cases s kind who addr with ⟨-, e⟩ | ⟨-, e | ⟨ty, data, e⟩⟩ <;> rw [e]
  · exact hm (by simp only [kept @State.wr_fr])
  · exact hm (by simp only [kept @State.wrs_fr])
  · rw [mramAt_logNow]
    exact hm (by simp only [kept @State.wrs_fr])

/-- The first violation fills the record (14 R365). -/
theorem rd_viol_first (s : State) (kind : Nat) (who : Ident) (addr : Nat) (f : Fld)
    (h : s.on Reg.ISO_VIOL F.ISO_VIOL_VALID = false) :
    (s.viol kind who addr).rd Reg.ISO_VIOL f = (s.wrs Reg.ISO_VIOL (violRecord kind who addr)).rd Reg.ISO_VIOL f := by
  rcases viol_cases s kind who addr with ⟨hv, -⟩ | ⟨-, e | ⟨ty, data, e⟩⟩
  · exact absurd (h.symm.trans hv) Bool.false_ne_true
  · rw [e]
  · rw [e, rd_congr (regs_logNow _ ty data)]

/-! ### How a write of the window ends -/

section
variable {s : State} {who : Ident} {off size val : Nat} {user : Bool}

theorem regStore_eq : s.regStore who off size val user = (s.regWrite who off size val user).2.answer
    (if (s.regWrite who off size val user).1 then .ok 0 else .error) := by
  unfold State.regStore
  split <;> simp_all

theorem regStore_misplaced (h : regAligned off size = false ∨ regCovered off = false) :
    s.regStore who off size val user = { s with resp := .error } := by
  have hw : s.regWrite who off size val user = (false, s) := by
    unfold State.regWrite
    exact if_pos (by simpa using h)
  rw [regStore_eq, hw]
  rfl

section
variable (ha : regAligned off size = true) (hc : regCovered off = true)
include ha hc

theorem regStore_unreached (hr : s.regReach who off true user = false) :
    s.regStore who off size val user = (s.viol 1 who (windowBase + off)).answer .error := by
  have hw : s.regWrite who off size val user = (false, s.viol 1 who (windowBase + off)) := by
    unfold State.regWrite
    rw [if_neg (by simp [ha, hc]), if_pos (by simp [hr])]
  rw [regStore_eq, hw]
  rfl

variable (hr : s.regReach who off true user = true)
include hr

/-- A write to a register that is in no interrupt file and no APLIC. -/
theorem regWrite_register (hf : fileAt off = none) (hp : aplicAt off = none) {r : RegDef} (hat : regAt (off / 8 * 8) = some r) :
    s.regWrite who off size val user = s.writeReg who (off / 8 * 8) (val % 2 ^ (8 * size) * 2 ^ (8 * (off % 8)))
      ((2 ^ (8 * size) - 1) * 2 ^ (8 * (off % 8))) r := by
  unfold State.regWrite
  rw [if_neg (by simp [ha, hc]), if_neg (by simp [hr])]
  simp only [hf, hp, hat]

/-- A 32-bit write to an APLIC. -/
theorem regWrite_aplic {w : World} {a : Nat} (hf : fileAt off = none) (hp : aplicAt off = some (w, a)) (h4 : size = 4) :
    s.regWrite who off size val user = (true, s.aplicWrite w a (val % 2 ^ 32)) := by
  subst h4
  unfold State.regWrite
  rw [if_neg (by simp [ha, hc]), if_neg (by simp [hr])]
  simp only [hf, hp, Nat.reduceEqDiff, if_false]

end
end

/-! ### Fields touched by a write -/

/-- A bit field depends on its own bits only. -/
theorem bitsOf_congr {v w hi lo : Nat} (h : ∀ i, lo ≤ i → i ≤ hi → v.testBit i = w.testBit i) :
    bitsOf v hi lo = bitsOf w hi lo := Nat.eq_of_testBit_eq fun i => by
  rw [testBit_bitsOf, testBit_bitsOf]
  by_cases hi' : i < hi + 1 - lo
  · rw [h _ (by omega) (by omega)]
  · simp [hi']

theorem testBit_mask (f : Fld) (h : f.lo ≤ f.hi) (i : Nat) : f.mask.testBit i = decide (f.lo ≤ i ∧ i ≤ f.hi) := by
  rw [Fld.mask, ← Nat.shiftLeft_eq, Nat.testBit_shiftLeft, Nat.testBit_two_pow_sub_one]
  rw [Bool.eq_iff_iff]
  simp only [Bool.and_eq_true, decide_eq_true_eq]
  omega

theorem testBit_merge (old v m i : Nat) :
    ((old - (old &&& m)) ||| (v &&& m)).testBit i = if m.testBit i then v.testBit i else old.testBit i := by
  rw [Nat.testBit_or, testBit_sub_and, Nat.testBit_and]
  cases m.testBit i <;> simp

/-- What a touched field is: one of the register's, with a bit written, and the value it would take. -/
theorem mem_touched {s : State} {r : RegDef} {o v m : Nat} {x : FldWrite} (h : x ∈ s.touched r o v m) :
    x.fd ∈ r.fields ∧ x.fd.fld.mask &&& m ≠ 0 ∧
      x.new = bitsOf ((s.inForce o - (s.inForce o &&& (x.fd.fld.mask &&& m))) ||| (v &&& (x.fd.fld.mask &&& m))) x.fd.fld.hi
        x.fd.fld.lo := by
  simp only [State.touched, List.mem_filterMap] at h
  obtain ⟨f, hf, hx⟩ := h
  split at hx
  · exact absurd hx (by simp)
  · rename_i hm
    obtain rfl := Option.some.inj hx
    exact ⟨hf, hm, rfl⟩

/-- A write of every bit of a field, from a word. -/
def FldWrite.ofWord (v : Nat) (f : FieldDef) : FldWrite :=
  ⟨f, bitsOf v f.fld.hi f.fld.lo, bitsOf v f.fld.hi f.fld.lo, f.fld.mask⟩

/-- A write of a whole register touches each of its fields with that field's bits. -/
theorem touched_word (s : State) (r : RegDef) (o v : Nat) (h : ∀ f ∈ r.fields, f.fld.lo ≤ f.fld.hi ∧ f.fld.hi < 64) :
    s.touched r o v (2 ^ 64 - 1) = r.fields.map (FldWrite.ofWord v) := by
  unfold State.touched
  rw [← List.filterMap_eq_map]
  refine List.filterMap_congr fun f hf => ?_
  obtain ⟨hle, hhi⟩ := h f hf
  have hmask : f.fld.mask &&& (2 ^ 64 - 1) = f.fld.mask := Nat.eq_of_testBit_eq fun i => by
    rw [Nat.testBit_and, testBit_mask _ hle, Nat.testBit_two_pow_sub_one]
    rw [Bool.eq_iff_iff]
    simp only [Bool.and_eq_true, decide_eq_true_eq]
    omega
  have hpos : f.fld.mask ≠ 0 := fun hz => by
    have := testBit_mask f.fld hle f.fld.lo
    simp [hz, hle] at this
  simp only [hmask, if_neg hpos, Function.comp, FldWrite.ofWord, Option.some.injEq, FldWrite.mk.injEq, true_and, and_true]
  refine ⟨bitsOf_congr fun i h1 h2 => ?_, bitsOf_congr fun i h1 h2 => ?_⟩
  · rw [testBit_merge, testBit_mask _ hle]; simp [h1, h2]
  · rw [Nat.testBit_and, testBit_mask _ hle]; simp [h1, h2]

/-! ### Writing several fields -/

/-- Put the fields of a list in force one after another. -/
abbrev State.writeFields (s : State) (o : Nat) (locked : Bool) (l : List FldWrite) : State :=
  l.foldl (fun t x => t.writeField o locked x) s

theorem rdW_writeField_other (s : State) {o p : Nat} (locked : Bool) (x : FldWrite) (h : p ≠ o) :
    (s.writeField o locked x).rdW p = s.rdW p := by
  rcases writeField_cases s o locked x with e | ⟨v, e⟩
  · rw [e]
  · rw [e, rdW_wr_other s _ _ h]

theorem rdW_writeFields_other (s : State) {o p : Nat} (locked : Bool) (l : List FldWrite) (h : p ≠ o) :
    (s.writeFields o locked l).rdW p = s.rdW p :=
  foldl_keeps (fun t => t.rdW p) (fun t x => t.writeField o locked x) (fun t x => rdW_writeField_other t locked x h) l s

theorem mram_writeFields (s : State) (o : Nat) (locked : Bool) (l : List FldWrite) :
    (s.writeFields o locked l).mram = s.mram :=
  foldl_keeps State.mram (fun t x => t.writeField o locked x) (fun t x => by
    rcases writeField_cases t o locked x with e | ⟨v, e⟩
    · rw [e]
    · rw [e]; simp only [kept @State.wr_fr]) l s

/-- A field keeps its value where every write of the list keeps it. -/
theorem rd_writeFields {o : Nat} {locked : Bool} {g : Fld} {a : Nat} (l : List FldWrite)
    (h : ∀ x ∈ l, ∀ t : State, t.rd o g = a → (t.writeField o locked x).rd o g = a) (s : State) (hs : s.rd o g = a) :
    (s.writeFields o locked l).rd o g = a := by
  induction l generalizing s with
  | nil => exact hs
  | cons x l ih => exact ih (fun y hy => h y (List.mem_cons_of_mem _ hy)) _ (h x List.mem_cons_self s hs)

/-- A field of type RW that takes every code takes the bits written. -/
theorem writeField_ofWord_rw (s : State) (o v : Nat) (locked : Bool) (f : FieldDef) (ht : f.ty = .rw) (hlo : f.okLo = 0)
    (hhi : f.okHi = 2 ^ 64) (hw : f.fld.hi < 64) :
    s.writeField o locked (.ofWord v f) = s.wr o f.fld (bitsOf v f.fld.hi f.fld.lo) := by
  rw [writeField_rw s o locked _ ht]
  have hlt : bitsOf v f.fld.hi f.fld.lo < 2 ^ 64 :=
    lt_of_lt_of_le (bitsOf_lt _ _ _) (Nat.pow_le_pow_right (by decide) (by omega))
  exact if_pos ⟨hlo.le.trans (Nat.zero_le _), hlt.le.trans hhi.ge⟩

end Sys2Proof.Machine
end

section
/-! PROOFS. Writes of plain registers: those whose fields are in force at once. -/

namespace Sys2Proof.Machine
open Sys2Proof

/-! ### Registers without a staged field -/

/-- A register offset whose writes are never ignored (03 R73, 16 R397, 20 R485). -/
abbrev NeverIgnored (o : Nat) : Prop :=
  ¬ (0xA0000000 ≤ o ∧ o < 0xA0008000 ∧ 0x1000 ≤ o % 0x4000 ∧ o % 0x4000 < 0x2000) ∧
    ¬ (0x30000000 ≤ o ∧ o < 0x32400000 ∧ o % 0x100000 = 8) ∧ o ≠ Reg.PKG_MODE_REQ 0 ∧ o ≠ Reg.PKG_MODE_REQ 1

theorem ignoresWrite_eq_false {o : Nat} (h : NeverIgnored o) (s : State) (v : Nat) : s.ignoresWrite o v = false := by
  obtain ⟨hbuf, hslice, h0, h1⟩ := h
  simp only [State.ignoresWrite, Bool.or_eq_false_iff, Bool.and_eq_false_iff, decide_eq_false_iff_not, beq_eq_false_iff_ne]
  exact ⟨⟨by tauto, by tauto⟩, .inl (.inl ⟨h0, h1⟩)⟩

/-- A register that a write reaches through its fields: in no interrupt file, no APLIC and none of the context pending words,
with each field within 64 bits. -/
abbrev PlainReg (off : Nat) (r : RegDef) : Prop :=
  regAt (off / 8 * 8) = some r ∧ regCovered off = true ∧ fileAt off = none ∧ aplicAt off = none ∧
    (off < Reg.EVT_RERR 0 ∨ Reg.EVT_TFLT 64 ≤ off / 8 * 8) ∧ NeverIgnored (off / 8 * 8) ∧
    ∀ f ∈ r.fields, f.fld.lo ≤ f.fld.hi ∧ f.fld.hi < 64

/-- Bits of staged fields among the writes to fields that hold none. -/
theorem stagedBits_eq_zero (l : List FldWrite) (h : ∀ x ∈ l, x.fd.ty ≠ .rws) :
    (l.filter (fun x => x.fd.ty == .rws)).foldl (fun a x => a ||| x.mask) 0 = 0 := by
  rw [List.filter_eq_nil_iff.2 (fun x hx => by simpa using h x hx)]
  rfl

/-- The writes of a register that an identity may make (14 R365): a field marked "monitor" is the monitor's. -/
abbrev State.permitted (s : State) (who : Ident) (r : RegDef) (o v m : Nat) : List FldWrite :=
  (s.touched r o v m).filter (fun x => !x.fd.mon || who == monitor)

/-- Whether a write would change a field that its identity may not write (14 R365). -/
abbrev State.oversteps (s : State) (who : Ident) (r : RegDef) (o v m : Nat) : Bool :=
  (s.touched r o v m).any (fun x => x.fd.mon && who != monitor && s.changes o x)

theorem permitted_not_staged {s : State} {who : Ident} {r : RegDef} {o v m : Nat} (hr : ∀ f ∈ r.fields, f.ty ≠ .rws) :
    ((s.permitted who r o v m).filter (fun x => x.fd.ty == .rws)).foldl (fun a x => a ||| x.mask) 0 = 0 :=
  stagedBits_eq_zero _ fun _ hx => hr _ (mem_touched (List.mem_of_mem_filter hx)).1

/-- The bits of a word that a write puts in: those of its mask, and of the context pending words only those of contexts the
identity sees (19 R474). -/
def State.writtenBits (s : State) (who : Ident) (o v m : Nat) : Nat :=
  if Reg.EVT_RERR 0 ≤ o ∧ o < Reg.EVT_TFLT 64 then
    s.ctxBits who ((o - (if o < Reg.EVT_TFLT 0 then Reg.EVT_RERR 0 else Reg.EVT_TFLT 0)) / 8) (v &&& m)
  else v &&& m

theorem writtenBits_outside (s : State) (who : Ident) {o : Nat} (v m : Nat)
    (h : o < Reg.EVT_RERR 0 ∨ Reg.EVT_TFLT 64 ≤ o) : s.writtenBits who o v m = v &&& m :=
  if_neg fun hc => h.elim (Nat.not_lt.2 hc.1) (Nat.not_le.2 hc.2)

/-- The bits of staged fields that a write stages (15 R388). -/
def State.stagedBits (s : State) (who : Ident) (r : RegDef) (o v m : Nat) : Nat :=
  ((s.permitted who r o v m).filter (fun x => x.fd.ty == .rws)).foldl (fun a x => a ||| x.mask) 0 &&& s.stageMask o

section
variable {s : State} {who : Ident} {o v m : Nat} {r : RegDef}

/-- A write that is not ignored stages its staged bits, where there are any, and puts its other fields in force. -/
theorem writeReg_of_stage {s1 : State} (hi : s.ignoresWrite o (s.writtenBits who o v m) = false)
    (hs : (if s.stagedBits who r o (s.writtenBits who o v m) m = 0 then some s
      else s.stage who.world o (s.writtenBits who o v m) (s.stagedBits who r o (s.writtenBits who o v m) m)) = some s1) :
    s.writeReg who o v m r = (true, s.putFields s1 who o (s.writtenBits who o v m)
      (s.permitted who r o (s.writtenBits who o v m) m) (s.oversteps who r o (s.writtenBits who o v m) m)) := by
  unfold State.writeReg
  extract_lets _ w xs mine bad sm
  change (if s.ignoresWrite o (s.writtenBits who o v m) then _ else _) = _
  change (if sm = 0 then some s else s.stage who.world o w sm) = some s1 at hs
  rw [hi, if_neg Bool.false_ne_true, hs]
  rfl

/-- A write of a register without a staged field is accepted; unless the register ignores writes, its fields are put in
force from the bits written. -/
theorem writeReg_eq (hr : ∀ f ∈ r.fields, f.ty ≠ .rws) : s.writeReg who o v m r =
    (true, if s.ignoresWrite o (s.writtenBits who o v m) then s
      else s.putFields s who o (s.writtenBits who o v m) (s.permitted who r o (s.writtenBits who o v m) m)
        (s.oversteps who r o (s.writtenBits who o v m) m)) := by
  cases hi : s.ignoresWrite o (s.writtenBits who o v m) with
  | true =>
    unfold State.writeReg
    exact if_pos hi
  | false =>
    exact writeReg_of_stage hi (if_pos (by rw [State.stagedBits, permitted_not_staged hr, Nat.zero_and]))

end

/-- The bits that an aligned write of `size` bytes puts into the low end of a register. -/
theorem aligned_bits {o : Nat} (h8 : o % 8 = 0) (size val : Nat) :
    val % 2 ^ (8 * size) * 2 ^ (8 * (o % 8)) &&& (2 ^ (8 * size) - 1) = val % 2 ^ (8 * size) := by
  rw [h8, Nat.and_two_pow_sub_one_eq_mod, Nat.mul_zero, Nat.pow_zero, Nat.mul_one, Nat.mod_mod]

section
variable {s : State} {who : Ident} {o val : Nat} {user : Bool} {r : RegDef}

/-- Writes that an identity may make of a register: all, where it is the monitor or no field is marked. -/
theorem permitted_all {v m : Nat} (hm : who = monitor ∨ ∀ f ∈ r.fields, f.mon = false) :
    s.permitted who r o v m = s.touched r o v m ∧ s.oversteps who r o v m = false := by
  have hx (x : FldWrite) (hx : x ∈ s.touched r o v m) : who = monitor ∨ x.fd.mon = false :=
    hm.imp id fun h => h _ (mem_touched hx).1
  refine ⟨List.filter_eq_self.2 fun x h => ?_, List.any_eq_false.2 fun x h => ?_⟩ <;>
    rcases hx x h with h | h <;> simp [h]

/-- What `putFields` leaves: the fields written, a monitor-only field's violation recorded, and what the write starts. -/
theorem putFields_eq (s1 : State) (v : Nat) (mine : List FldWrite) (bad : Bool) : s.putFields s1 who o v mine bad =
    (if bad then (s1.writeFields o (bitAt (s.rdW o).toNat 63) mine).viol 2 who (windowBase + o)
      else s1.writeFields o (bitAt (s.rdW o).toNat 63) mine).regHook who o v
        (bitsOf (s.rdW o).toNat 59 56 == OS.pending) := rfl

/-- A write of a register: an aligned one that the identity reaches goes to the fields of the register at `o`. -/
theorem regStore_plain {off size v m : Nat} (h : PlainReg off r) (ho : off / 8 * 8 = o)
    (hreach : s.regReach who off true user = true) (ha : regAligned off size = true) (hr : ∀ f ∈ r.fields, f.ty ≠ .rws)
    (hm : (2 ^ (8 * size) - 1) * 2 ^ (8 * (off % 8)) = m) (hv : val % 2 ^ (8 * size) * 2 ^ (8 * (off % 8)) &&& m = v) :
    s.regStore who off size val user =
      (s.putFields s who o v (s.permitted who r o v m) (s.oversteps who r o v m)).answer (.ok 0) := by
  obtain ⟨hat, hc, hf, hp, he, hi, -⟩ := h
  have hle : o ≤ off := ho ▸ Nat.div_mul_le_self off 8
  rw [ho] at hat he hi
  rw [regStore_eq, regWrite_register ha hc hreach hf hp (by rw [ho]; exact hat), ho, writeReg_eq hr, hm,
    writtenBits_outside s who _ _ (he.imp (lt_of_le_of_lt hle) id), hv, ignoresWrite_eq_false hi, if_neg Bool.false_ne_true]
  rfl

/-- A 64-bit write of a register without a staged field, none of its fields out of the identity's hands. -/
theorem regStore_word (h : PlainReg o r) (hreach : s.regReach who o true user = true) (h8 : o % 8 = 0)
    (hr : ∀ f ∈ r.fields, f.ty ≠ .rws) (hm : who = monitor ∨ ∀ f ∈ r.fields, f.mon = false) :
    s.regStore who o 8 val user = ((s.writeFields o (bitAt (s.rdW o).toNat 63) (r.fields.map (.ofWord (val % 2 ^ 64)))).regHook
      who o (val % 2 ^ 64) (bitsOf (s.rdW o).toNat 59 56 == OS.pending)).answer (.ok 0) := by
  rw [regStore_plain h (by omega : o / 8 * 8 = o) hreach (by simp [regAligned, h8]) hr (by rw [h8]; rfl)
    (aligned_bits h8 8 val), (permitted_all hm).1, (permitted_all hm).2,
    touched_word s r o _ h.2.2.2.2.2.2, putFields_eq]
  rfl

end

/-! ### What a write brings about beyond the fields -/

/-- An offset whose write brings nothing about but what `stopHook` says. -/
abbrev NoHook (o : Nat) : Prop :=
  o ∉ [Reg.CTU_CMD 0, Reg.CTU_CMD 1, Reg.PKG_MODE_REQ 0, Reg.PKG_MODE_REQ 1, Reg.PWR_REQ 0, Reg.PWR_REQ 1, Reg.RCC_RST_REQ 0,
    Reg.RCC_RST_REQ 1, Reg.PKG_BOOT, Reg.RCC_WDOG, Reg.RCC_RST_CAUSE, Reg.RCC_RST_UNITS, Reg.PMON_CTRL, Reg.MBX_CTRL 0,
    Reg.MBX_CTRL 1] ∧ ¬ (Reg.MTIMECMP 0 ≤ o ∧ o < Reg.MTIMECMP 216) ∧
  ¬ (0x40100000 ≤ o ∧ o < 0x40140000 ∧ o % 0x40 = Reg.CTX_FAULT_HEAD 0 % 0x40) ∧
  ¬ (Reg.MCH_FLIP 0 ≤ o ∧ o ≤ Reg.MCH_FLIP 15 ∧ (o - Reg.MCH_FLIP 0) % 0x100000 = 0)

theorem regHook_noHook {o : Nat} (h : NoHook o) (s : State) (who : Ident) (v : Nat) (pend : Bool) :
    s.regHook who o v pend = s.stopHook o v := by
  obtain ⟨hl, h1, h2, h3⟩ := h
  simp only [List.mem_cons, List.not_mem_nil, or_false, not_or] at hl
  obtain ⟨c0, c1, m0, m1, p0, p1, r0, r1, b, w, cause, units, pm, x0, x1⟩ := hl
  unfold State.regHook
  rw [if_neg (not_or.2 ⟨c0, c1⟩), if_neg (not_or.2 ⟨m0, m1⟩), if_neg (not_or.2 ⟨p0, p1⟩), if_neg (not_or.2 ⟨r0, r1⟩), if_neg b,
    if_neg w, if_neg (not_or.2 ⟨cause, units⟩), if_neg pm, if_neg (not_or.2 ⟨x0, x1⟩), if_neg h1, if_neg h2, if_neg h3]

theorem stopHook_outside {o : Nat} (h : stopOf o = none) (s : State) (v : Nat) : s.stopHook o v = s := by
  unfold State.stopHook
  rw [h]

end Sys2Proof.Machine
end

section
/-! PROOFS. The register writes of O14 at their registers: refused writes, backup registers, boot count and watchdog. -/

namespace Sys2Proof.Machine
open Sys2Proof

/-! ### Refused writes -/

/-- A write to a register with no staged field that its identity reaches answers OK, also where no register lies (00 R8). -/
theorem regStore_accepted {s : State} {who : Ident} {off size val : Nat} {user : Bool} (ha : regAligned off size = true)
    (hc : regCovered off = true) (hr : s.regReach who off true user = true) (hs : hasStaged off = false) :
    (s.regStore who off size val user).resp = .ok 0 := by
  have hw : (s.regWrite who off size val user).1 = true := by
    unfold State.regWrite
    rw [if_neg (by simp [ha, hc]), if_neg (by simp [hr])]
    dsimp only
    split
    · rfl
    · split
      · rfl
      · split
        · rename_i r hat
          rw [writeReg_eq]
          simpa [hasStaged, hat] using hs
        · rfl
  rw [regStore_eq, hw]
  rfl

/-- The fields of the first violation's record (14 R365). -/
theorem rd_violRecord (s : State) (kind : Nat) (who : Ident) (addr : Nat) :
    (s.wrs Reg.ISO_VIOL (violRecord kind who addr)).rd Reg.ISO_VIOL F.ISO_VIOL_VALID = 1 ∧
    (s.wrs Reg.ISO_VIOL (violRecord kind who addr)).rd Reg.ISO_VIOL F.ISO_VIOL_KIND = kind % 8 ∧
    (s.wrs Reg.ISO_VIOL (violRecord kind who addr)).rd Reg.ISO_VIOL F.ISO_VIOL_WORLD = worldBit who.world % 2 ∧
    (s.wrs Reg.ISO_VIOL (violRecord kind who addr)).rd Reg.ISO_VIOL F.ISO_VIOL_PID = who.pid % 64 ∧
    (s.wrs Reg.ISO_VIOL (violRecord kind who addr)).rd Reg.ISO_VIOL F.ISO_VIOL_ADDR = addr / 8 % 2 ^ 49 := by
  simp [State.wrs, violRecord, rd_wr_same, rd_wr_apart]

/-- A write that its identity may not make records a violation of KIND 1 (14 R372). -/
theorem regStore_unreached_record {s : State} {who : Ident} {off size val : Nat} {user : Bool} (ha : regAligned off size = true)
    (hc : regCovered off = true) (hr : s.regReach who off true user = false)
    (hv : s.on Reg.ISO_VIOL F.ISO_VIOL_VALID = false) (t : State) (ht : t = s.regStore who off size val user) :
    t.resp = .error ∧ t.on Reg.ISO_VIOL F.ISO_VIOL_VALID = true ∧ t.rd Reg.ISO_VIOL F.ISO_VIOL_KIND = 1 ∧
      t.rd Reg.ISO_VIOL F.ISO_VIOL_WORLD = worldBit who.world ∧ t.rd Reg.ISO_VIOL F.ISO_VIOL_PID = who.pid % 64 ∧
      t.rd Reg.ISO_VIOL F.ISO_VIOL_ADDR = (windowBase + off) / 8 ∧ ∀ o, o ≠ Reg.ISO_VIOL → t.rdW o = s.rdW o := by
  rw [regStore_unreached ha hc hr] at ht
  subst ht
  obtain ⟨hvalid, hkind, hworld, hpid, haddr⟩ := rd_violRecord s 1 who (windowBase + off)
  have hoff : off < 0xA1000000 := by
    simp only [regCovered, Bool.or_eq_true, Bool.and_eq_true, decide_eq_true_eq] at hc
    omega
  have hbit : worldBit who.world < 2 := by cases who.world <;> decide
  refine ⟨rfl, ?_, ?_, ?_, ?_, ?_, fun o ho => rdW_viol_other s 1 who _ ho⟩
  · rw [State.on, rd_answer, rd_viol_first s 1 who _ _ hv, hvalid]; rfl
  · rw [rd_answer, rd_viol_first s 1 who _ _ hv, hkind]
  · rw [rd_answer, rd_viol_first s 1 who _ _ hv, hworld, Nat.mod_eq_of_lt hbit]
  · rw [rd_answer, rd_viol_first s 1 who _ _ hv, hpid]
  · rw [rd_answer, rd_viol_first s 1 who _ _ hv, haddr, Nat.mod_eq_of_lt (by simp only [windowBase]; omega)]

/-! ### Backup registers (17) -/

/-- The row of RCC_BKP. -/
def bkpRow : RegDef := ⟨0x2000080, 16, 8, 1, 0x100000000, [⟨F.RCC_BKP_VAL, .rw, 0, false, 0, 2 ^ 64⟩]⟩

theorem plainReg_bkp (k : Fin 16) : PlainReg (Reg.RCC_BKP k) bkpRow ∧ PlainReg (Reg.RCC_BKP k + 4) bkpRow := by
  revert k; decide +kernel

theorem noHook_bkp (k : Fin 16) : NoHook (Reg.RCC_BKP k) ∧ stopOf (Reg.RCC_BKP k) = none := by
  revert k; decide +kernel

/-- A write to a field that takes up the register sets the register. -/
theorem wr_whole (s : State) (o v : Nat) : s.wr o ⟨63, 0⟩ v = s.wrW o (BitVec.ofNat 64 v) := by
  have hlt := (s.rdW o).isLt
  rw [State.wr]
  congr 1
  apply BitVec.eq_of_toNat_eq
  simp only [BitVec.toNat_ofNat, setBits, Nat.shiftRight_eq_div_pow, Nat.div_eq_of_lt hlt]
  omega

/-- A masked write of a register with one RW field of 64 bits. -/
theorem regStore_bkp {s : State} {who : Ident} {k : Fin 16} {off size val m v : Nat} {user : Bool}
    (h : PlainReg off bkpRow) (ho : off / 8 * 8 = Reg.RCC_BKP k) (hreach : s.regReach who off true user = true)
    (ha : regAligned off size = true) (hm : (2 ^ (8 * size) - 1) * 2 ^ (8 * (off % 8)) = m) (hpos : m ≠ 0) (hlt : m < 2 ^ 64)
    (hv : val % 2 ^ (8 * size) * 2 ^ (8 * (off % 8)) &&& m = v) :
    s.regStore who off size val user =
      (s.wrW (Reg.RCC_BKP k) (BitVec.ofNat 64 (((s.rdW (Reg.RCC_BKP k)).toNat - ((s.rdW (Reg.RCC_BKP k)).toNat &&& m)) ||| v))).answer
        (.ok 0) := by
  obtain ⟨hnh, hstop⟩ := noHook_bkp k
  have hk := k.isLt
  have hmask : Fld.mask F.RCC_BKP_VAL &&& m = m := by
    show 2 ^ 64 - 1 &&& m = m
    rw [Nat.and_comm, Nat.and_two_pow_sub_one_eq_mod, Nat.mod_eq_of_lt hlt]
  have hvm : v &&& m = v := by rw [← hv, Nat.and_assoc, Nat.and_self]
  have hin : s.inForce (Reg.RCC_BKP k) = (s.rdW (Reg.RCC_BKP k)).toNat := if_neg (by simp only [Reg.RCC_BKP, Reg.EVT_WORLD]; omega)
  rw [regStore_plain h ho hreach ha (by simp [bkpRow]) hm hv, (permitted_all (.inr (by simp [bkpRow]))).1,
    (permitted_all (.inr (by simp [bkpRow]))).2, putFields_eq, regHook_noHook hnh, stopHook_outside hstop]
  simp only [State.touched, bkpRow, List.filterMap_cons, List.filterMap_nil, hmask, if_neg hpos, hvm, hin, State.writeFields,
    List.foldl_cons, List.foldl_nil, Bool.false_eq_true, if_false]
  rw [writeField_rw _ _ _ _ rfl, if_pos ⟨Nat.zero_le _, (bitsOf_lt _ 63 0).le⟩, wr_whole]
  congr 2
  exact BitVec.eq_of_toNat_eq (Nat.mod_mod _ _)

/-- The low half of a word replaced. -/
theorem low_half_merge {old v : Nat} (hv : v < 2 ^ 32) : old - (old &&& (2 ^ 32 - 1)) ||| v = old / 2 ^ 32 * 2 ^ 32 + v := by
  have h : old - (old &&& (2 ^ 32 - 1)) = 2 ^ 32 * (old / 2 ^ 32) := by rw [Nat.and_two_pow_sub_one_eq_mod]; omega
  rw [h, ← Nat.two_pow_add_eq_or_of_lt hv, Nat.mul_comm]

/-- The mask of the upper bits of a number keeps those. -/
theorem and_upper_mask {v n k : Nat} (h : v < 2 ^ (n + k)) : v &&& (2 ^ k - 1) * 2 ^ n = v / 2 ^ n * 2 ^ n := by
  have hlt : v / 2 ^ n < 2 ^ k := (Nat.div_lt_iff_lt_mul (by positivity)).2 (by rwa [← pow_add, Nat.add_comm])
  have hdiv : (v &&& (2 ^ k - 1) * 2 ^ n) / 2 ^ n = v / 2 ^ n := by
    rw [← Nat.shiftRight_eq_div_pow, Nat.shiftRight_and_distrib, Nat.shiftRight_eq_div_pow, Nat.shiftRight_eq_div_pow,
      Nat.mul_div_cancel _ (by positivity), Nat.and_two_pow_sub_one_eq_mod, Nat.mod_eq_of_lt hlt]
  have hmod : (v &&& (2 ^ k - 1) * 2 ^ n) % 2 ^ n = 0 := by rw [Nat.and_mod_two_pow, Nat.mul_mod_left, Nat.and_zero]
  rw [← hdiv, Nat.div_mul_cancel (Nat.dvd_of_mod_eq_zero hmod)]

/-- The high half of a word replaced. -/
theorem high_half_merge {old v : Nat} (ho : old < 2 ^ 64) :
    old - (old &&& (2 ^ 32 - 1) * 2 ^ 32) ||| v * 2 ^ 32 = old % 2 ^ 32 + v * 2 ^ 32 := by
  have hm : old &&& (2 ^ 32 - 1) * 2 ^ 32 = old / 2 ^ 32 * 2 ^ 32 := and_upper_mask ho
  have h : old - (old &&& (2 ^ 32 - 1) * 2 ^ 32) = old % 2 ^ 32 := by omega
  rw [h, Nat.or_comm, Nat.mul_comm v, ← Nat.two_pow_add_eq_or_of_lt (Nat.mod_lt old (by decide)), Nat.add_comm]

section
variable {s : State} {who : Ident} {k : Fin 16} {val : Nat} {user : Bool}

theorem regStore_bkp_word (h : s.regReach who (Reg.RCC_BKP k) true user = true) :
    s.regStore who (Reg.RCC_BKP k) 8 val user = (s.wrW (Reg.RCC_BKP k) (BitVec.ofNat 64 val)).answer (.ok 0) := by
  have h8 : Reg.RCC_BKP k % 8 = 0 := by simp only [Reg.RCC_BKP]; omega
  rw [regStore_bkp (k := k) (plainReg_bkp k).1 (by omega) h (by simp [regAligned]) (by rw [h8]; rfl) (by decide) (by decide)
    (aligned_bits h8 8 val),
    Nat.and_two_pow_sub_one_eq_mod, Nat.mod_eq_of_lt (s.rdW _).isLt, Nat.sub_self, Nat.zero_or]
  congr 2
  exact BitVec.eq_of_toNat_eq (by simp)

theorem regStore_bkp_low (h : s.regReach who (Reg.RCC_BKP k) true user = true) :
    s.regStore who (Reg.RCC_BKP k) 4 val user = (s.wrW (Reg.RCC_BKP k) (BitVec.ofNat 64
      ((s.rdW (Reg.RCC_BKP k)).toNat / 2 ^ 32 * 2 ^ 32 + val % 2 ^ 32))).answer (.ok 0) := by
  have h8 : Reg.RCC_BKP k % 8 = 0 := by simp only [Reg.RCC_BKP]; omega
  rw [regStore_bkp (k := k) (plainReg_bkp k).1 (by omega) h (by simp [regAligned]; omega) (by rw [h8]; rfl) (by decide) (by decide)
    (aligned_bits h8 4 val),
    low_half_merge (Nat.mod_lt _ (by decide))]

theorem regStore_bkp_high (h : s.regReach who (Reg.RCC_BKP k + 4) true user = true) :
    s.regStore who (Reg.RCC_BKP k + 4) 4 val user = (s.wrW (Reg.RCC_BKP k) (BitVec.ofNat 64
      ((s.rdW (Reg.RCC_BKP k)).toNat % 2 ^ 32 + val % 2 ^ 32 * 2 ^ 32))).answer (.ok 0) := by
  have h8 : (Reg.RCC_BKP k + 4) % 8 = 4 := by simp only [Reg.RCC_BKP]; omega
  have hv : val % 2 ^ (8 * 4) * 2 ^ (8 * ((Reg.RCC_BKP k + 4) % 8)) &&& (2 ^ 32 - 1) * 2 ^ 32 = val % 2 ^ 32 * 2 ^ 32 := by
    rw [h8, ← Nat.shiftLeft_eq, ← Nat.shiftLeft_eq, ← Nat.shiftLeft_and_distrib, Nat.and_two_pow_sub_one_eq_mod, Nat.mod_mod]
  rw [regStore_bkp (k := k) (plainReg_bkp k).2 (by omega) h (by simp [regAligned]; omega) (by rw [h8]) (by decide) (by decide) hv,
    high_half_merge (s.rdW _).isLt]

end

end Sys2Proof.Machine
end

section
/-! PROOFS. The boot count and the package watchdog (16 R401, 17 R424). -/

namespace Sys2Proof.Machine
open Sys2Proof

theorem rd_viol_if_other (s : State) (b : Bool) (kind : Nat) (who : Ident) (addr : Nat) {o : Nat} (f : Fld)
    (h : o ≠ Reg.ISO_VIOL) : (if b then s.viol kind who addr else s).rd o f = s.rd o f := by
  cases b
  · rw [if_neg Bool.false_ne_true]
  · rw [if_pos rfl, State.rd, State.rd, rdW_viol_other s kind who addr h]

theorem mramAt_viol_if (s : State) (b : Bool) (kind : Nat) (who : Ident) (addr : Nat) :
    (if b then s.viol kind who addr else s).mramAt 0x1000 1 = s.mramAt 0x1000 1 := by
  cases b
  · rw [if_neg Bool.false_ne_true]
  · rw [if_pos rfl, mramAt_viol s kind who addr]

/-! ### PKG_BOOT -/

/-- The row of PKG_BOOT. -/
def bootRow : RegDef := ⟨0x48, 1, 0x100000000, 1, 0x100000000,
  [⟨F.PKG_BOOT_GOOD, .w1s, 0, true, 0, 2 ^ 64⟩, ⟨F.PKG_BOOT_LIMIT, .ro, 3, false, 0, 2 ^ 64⟩,
   ⟨F.PKG_BOOT_COUNT, .ro, 0, false, 0, 2 ^ 64⟩]⟩

theorem plainReg_boot : PlainReg Reg.PKG_BOOT bootRow := by decide +kernel

theorem regReach_boot (s : State) (who : Ident) (w u : Bool) : s.regReach who Reg.PKG_BOOT w u = true := by
  unfold State.regReach
  dsimp only
  rw [if_neg (by decide), if_neg (by decide), if_neg (by decide), if_pos (by decide)]

/-- GOOD takes effect where the monitor writes it (16 R401). -/
theorem regHook_boot (s : State) (who : Ident) (v : Nat) (pend : Bool) : s.regHook who Reg.PKG_BOOT v pend =
    if v.testBit 63 && who == monitor then s.bootGood else s := by
  unfold State.regHook
  dsimp only
  rw [if_neg (by decide), if_neg (by decide), if_neg (by decide), if_neg (by decide), if_pos rfl]

theorem rd_bootGood_count (s : State) : s.bootGood.rd Reg.PKG_BOOT F.PKG_BOOT_COUNT = 0 := by
  rw [State.bootGood, rd_congr (s := s.wrs Reg.PKG_BOOT [(F.PKG_BOOT_GOOD, 0), (F.PKG_BOOT_COUNT, 0)])
    (by simp only [kept @State.setMram_fr])]
  exact rd_wr_same _ _ _ _ (by decide) (by decide)

theorem mramAt_bootGood (s : State) : s.bootGood.mramAt 0x1000 1 = [0] := by
  simp [State.bootGood, State.setMram, State.mramAt, putRun, Tab.get_put_same]

/-- BOOT_GOOD by the monitor. -/
theorem bootGood_monitor (s : State) :
    (s.regStore monitor Reg.PKG_BOOT 8 (2 ^ 63) false).rd Reg.PKG_BOOT F.PKG_BOOT_COUNT = 0 ∧
    (s.regStore monitor Reg.PKG_BOOT 8 (2 ^ 63) false).mramAt 0x1000 1 = [0] ∧
    (s.regStore monitor Reg.PKG_BOOT 8 (2 ^ 63) false).resp = .ok 0 := by
  rw [regStore_word plainReg_boot (regReach_boot s monitor true false) rfl (by decide) (.inl rfl), regHook_boot,
    if_pos (by decide)]
  simp only [rd_answer, mramAt_answer, resp_answer, rd_bootGood_count, mramAt_bootGood, and_self]

/-- BOOT_GOOD by another identity: GOOD is the monitor's, and LIMIT and COUNT are read-only. -/
theorem bootGood_other (s : State) {who : Ident} (h : who ≠ monitor) :
    (s.regStore who Reg.PKG_BOOT 8 (2 ^ 63) false).rd Reg.PKG_BOOT F.PKG_BOOT_COUNT = s.rd Reg.PKG_BOOT F.PKG_BOOT_COUNT ∧
    (s.regStore who Reg.PKG_BOOT 8 (2 ^ 63) false).mramAt 0x1000 1 = s.mramAt 0x1000 1 := by
  rw [regStore_plain (o := Reg.PKG_BOOT) (m := 2 ^ 64 - 1) (v := 2 ^ 63) plainReg_boot rfl (regReach_boot s who true false) rfl
    (by decide) rfl (by decide), putFields_eq, regHook_boot, if_neg (by simp [h])]
  refine ⟨?_, ?_⟩
  · rw [rd_answer, rd_viol_if_other _ _ _ _ _ _ (by decide)]
    refine rd_writeFields _ (fun x hx t ht => ?_) s rfl
    have hfd := (mem_touched (List.mem_of_mem_filter hx)).1
    simp only [bootRow, List.mem_cons, List.not_mem_nil, or_false] at hfd
    rcases hfd with hfd | hfd | hfd
    · rw [rd_writeField_apart t _ _ x (by rw [hfd]) (fun _ => by rw [hfd]; decide), ht]
    · rw [writeField_of_held t _ _ x (.inl (by rw [hfd])), ht]
    · rw [writeField_of_held t _ _ x (.inl (by rw [hfd])), ht]
  · rw [mramAt_answer, mramAt_viol_if, State.mramAt, mram_writeFields]
    rfl

/-! ### RCC_WDOG -/

/-- The row of RCC_WDOG. -/
def wdogRow : RegDef := ⟨0x2000028, 1, 0x100000000, 1, 0x100000000,
  [⟨F.RCC_WDOG_EN, .w1s, 0, true, 0, 2 ^ 64⟩, ⟨F.RCC_WDOG_TIMEOUT, .rw, 0xC, true, 0, 0x10⟩,
   ⟨F.RCC_WDOG_KICK, .wo, 0, false, 0, 2 ^ 64⟩]⟩

theorem plainReg_wdog : PlainReg Reg.RCC_WDOG wdogRow := by decide +kernel

theorem rd_pk (s : State) (f : Pkg → Pkg) (o : Nat) (g : Fld) : (s.pk f).rd o g = s.rd o g :=
  rd_congr (by simp only [kept @State.pk_fr]) o g

/-- KICK restarts the watchdog count (17 R424). -/
theorem regHook_wdog (s : State) (who : Ident) (v : Nat) (pend : Bool) : s.regHook who Reg.RCC_WDOG v pend =
    if v.testBit 0 then s.pk (fun p => { p with wdogHalf := false }) else s := by
  unfold State.regHook
  dsimp only
  rw [if_neg (by decide), if_neg (by decide), if_neg (by decide), if_neg (by decide), if_neg (by decide), if_pos rfl]

/-- The word of WATCHDOG_KICK has the bits of the low half above KICK. -/
theorem testBit_kick_word (old : Nat) {i : Nat} (h0 : 0 < i) (h32 : i < 32) :
    (old % 2 ^ 32 / 2 * 2 + 1).testBit i = old.testBit i := by
  obtain ⟨j, rfl⟩ := Nat.exists_eq_add_of_lt h0
  rw [Nat.zero_add, Nat.testBit_add_one, show (old % 2 ^ 32 / 2 * 2 + 1) / 2 = old % 2 ^ 32 / 2 by omega,
    ← Nat.testBit_add_one, Nat.testBit_mod_two_pow, decide_eq_true (by omega), Bool.true_and]

/-- A write of the low half of RCC_WDOG that keeps its bits but KICK keeps EN and TIMEOUT. -/
theorem rd_writeFields_kick (s : State) (who : Ident) (locked : Bool) (g : Fld)
    (hg : g = F.RCC_WDOG_EN ∨ g = F.RCC_WDOG_TIMEOUT) :
    (s.writeFields Reg.RCC_WDOG locked (s.permitted who wdogRow Reg.RCC_WDOG
      ((s.rdW Reg.RCC_WDOG).toNat % 2 ^ 32 / 2 * 2 + 1) (2 ^ 32 - 1))).rd Reg.RCC_WDOG g = s.rd Reg.RCC_WDOG g := by
  refine rd_writeFields _ (fun x hx t ht => ?_) s rfl
  obtain ⟨hfd, hmask, hnew⟩ := mem_touched (List.mem_of_mem_filter hx)
  simp only [wdogRow, List.mem_cons, List.not_mem_nil, or_false] at hfd
  rcases hfd with hfd | hfd | hfd
  · exact absurd (by rw [hfd]; decide) hmask
  · have hsame : x.new = s.rd Reg.RCC_WDOG F.RCC_WDOG_TIMEOUT := by
      have hin : s.inForce Reg.RCC_WDOG = (s.rdW Reg.RCC_WDOG).toNat := if_neg (by decide)
      rw [hnew, hfd, hin]
      refine bitsOf_congr fun i (h1 : 8 ≤ i) (h2 : i ≤ 12) => ?_
      rw [testBit_merge, testBit_kick_word _ (by omega) (by omega), ite_self]
    rcases hg with rfl | rfl
    · rw [rd_writeField_apart t _ _ x (by rw [hfd]; decide) (fun _ => by rw [hfd]; decide), ht]
    · rw [writeField_rw t _ _ x (by rw [hfd])]
      split
      · have hw := rd_wr_fits t Reg.RCC_WDOG F.RCC_WDOG_TIMEOUT x.new (by decide) (by decide) (by rw [hsame]; exact rd_lt _ _ _)
        rw [hfd, hw, hsame]
      · exact ht
  · rw [writeField_of_held t _ _ x (.inr (.inr (by rw [hfd]))), ht]

/-- WATCHDOG_KICK by an identity that reaches RCC_WDOG. -/
theorem watchdogKick_effect {s : State} {who : Ident} (h : s.regReach who Reg.RCC_WDOG true false = true) (t : State)
    (ht : t = s.regStore who Reg.RCC_WDOG 4 ((s.rdW Reg.RCC_WDOG).toNat % 2 ^ 32 / 2 * 2 + 1) false) :
    t.pkg.wdogHalf = false ∧ t.rd Reg.RCC_WDOG F.RCC_WDOG_EN = s.rd Reg.RCC_WDOG F.RCC_WDOG_EN ∧
      t.rd Reg.RCC_WDOG F.RCC_WDOG_TIMEOUT = s.rd Reg.RCC_WDOG F.RCC_WDOG_TIMEOUT ∧ t.resp = .ok 0 := by
  have hlt : (s.rdW Reg.RCC_WDOG).toNat % 2 ^ 32 / 2 * 2 + 1 < 2 ^ 32 := by omega
  have hv := (aligned_bits (o := Reg.RCC_WDOG) rfl 4 ((s.rdW Reg.RCC_WDOG).toNat % 2 ^ 32 / 2 * 2 + 1)).trans (Nat.mod_eq_of_lt hlt)
  have hkick : ((s.rdW Reg.RCC_WDOG).toNat % 2 ^ 32 / 2 * 2 + 1).testBit 0 = true := by simp [Nat.testBit_zero]
  rw [regStore_plain (o := Reg.RCC_WDOG) (m := 2 ^ 32 - 1) plainReg_wdog rfl h rfl (by decide) rfl hv, putFields_eq,
    regHook_wdog, if_pos hkick] at ht
  subst ht
  refine ⟨rfl, ?_, ?_, rfl⟩ <;>
    rw [rd_answer, rd_pk, rd_viol_if_other _ _ _ _ _ _ (by decide), rd_writeFields_kick s who _ _ (by simp)]

end Sys2Proof.Machine
end

section
/-! PROOFS. The clearing writes of the counters, and PMON_CTRL.FREEZE (11 R327, 21 R501). -/

namespace Sys2Proof.Machine
open Sys2Proof

/-! ### STAT_CTRL of a stop -/

/-- The monitor reaches every register of the stops (14 R372). -/
theorem regReach_monitor_stop (s : State) {off : Nat} (h : 0x10000020 ≤ off ∧ off < 0x14000000) (write : Bool) :
    s.regReach monitor off write false = true := by
  have hfile : (fileAt off).isSome = false := by
    unfold fileAt
    rw [if_neg (by omega), if_neg (by omega)]
    rfl
  unfold State.regReach
  dsimp only [Reg.PKG_MODE_REQ, Reg.PWR_REQ, Reg.RCC_RST_REQ, Reg.RCC_BKP]
  rw [if_neg (by omega), if_neg (by omega), if_neg (by omega), if_neg (by omega), if_neg (by omega), if_neg (by omega), hfile,
    if_neg Bool.false_ne_true, if_neg (by omega), if_neg (by omega), if_neg (by omega), if_neg (by omega), if_neg (by omega)]
  split <;> rfl

/-- The row of RTR_STAT_CTRL. -/
def statRow : RegDef := ⟨0x10000020, 64, 0x100000, 1, 0x100000000,
  [⟨F.RTR_STAT_CTRL_EN, .rw, 1, false, 0, 2 ^ 64⟩, ⟨F.RTR_STAT_CTRL_CLEAR, .wo, 0, false, 0, 2 ^ 64⟩,
   ⟨F.RTR_STAT_CTRL_PID, .rw, 0, false, 0, 2 ^ 64⟩, ⟨F.RTR_STAT_CTRL_PID_EN, .rw, 0, false, 0, 2 ^ 64⟩,
   ⟨F.RTR_STAT_CTRL_CLASS, .rw, 0, false, 0, 2 ^ 64⟩, ⟨F.RTR_STAT_CTRL_CLASS_EN, .rw, 0, false, 0, 2 ^ 64⟩]⟩

theorem plainReg_stat (n : Fin 64) : PlainReg (Reg.RTR_STAT_CTRL n) statRow := by
  revert n; decide +kernel

theorem noHook_stat (n : Fin 64) : NoHook (Reg.RTR_STAT_CTRL n) ∧ stopOf (Reg.RTR_STAT_CTRL n) = some (n.val, 0x20) := by
  revert n; decide +kernel

/-- CLEAR of STAT_CTRL zeroes the stop's per-initiator counters (11 R327). -/
theorem stopHook_stat (s : State) (n : Fin 64) (v : Nat) :
    s.stopHook (Reg.RTR_STAT_CTRL n) v = if v.testBit 62 then s.statClear n else s := by
  unfold State.stopHook
  rw [(noHook_stat n).2]
  rfl

theorem regReach_stat_monitor (s : State) (n : Fin 64) : s.regReach monitor (Reg.RTR_STAT_CTRL n) true false = true := by
  have hn := n.isLt
  have hstop : 0x10000020 ≤ Reg.RTR_STAT_CTRL n ∧ Reg.RTR_STAT_CTRL n < 0x14000000 := by simp only [Reg.RTR_STAT_CTRL]; omega
  exact regReach_monitor_stop s hstop true

/-- A write of CLEAR zeroes the stop's counters, and leaves every register but those and STAT_CTRL alone. -/
theorem rdW_statClear_store (s : State) (n : Fin 64) {o : Nat} (ho : o ≠ Reg.RTR_STAT_CTRL n) :
    (s.regStore monitor (Reg.RTR_STAT_CTRL n) 8 (setBits (s.rdW (Reg.RTR_STAT_CTRL n)).toNat 62 62 1) false).rdW o =
      if o < Reg.RTR_IPKT n 0 ∨ Reg.RTR_IPKT n 64 ≤ o then s.rdW o else resetWord o := by
  have hclear : (setBits (s.rdW (Reg.RTR_STAT_CTRL n)).toNat 62 62 1 % 2 ^ 64).testBit 62 = true := by
    rw [Nat.testBit_mod_two_pow, testBit_setBits _ _ _ _ _ (le_refl 62)]; simp
  rw [regStore_word (plainReg_stat n) (regReach_stat_monitor s n) (by simp only [Reg.RTR_STAT_CTRL]; omega) (by decide) (.inl rfl),
    regHook_noHook (noHook_stat n).1, stopHook_stat, if_pos hclear, rdW_answer, rdW_statClear, rdW_writeFields_other _ _ _ ho]

/-- STAT_CLEAR of a stop: its counters of every source, and of no other stop. -/
theorem statClear_effect (s : State) (n m k : Fin 64) (t : State)
    (ht : t = s.regStore monitor (Reg.RTR_STAT_CTRL n) 8 (setBits (s.rdW (Reg.RTR_STAT_CTRL n)).toNat 62 62 1) false) :
    t.rdW (Reg.RTR_IPKT n k) = 0 ∧ t.rdW (Reg.RTR_IFLIT n k) = 0 ∧ t.rdW (Reg.RTR_ILAT n k) = 0 ∧ t.resp = .ok 0 ∧
      (m ≠ n → t.rdW (Reg.RTR_IPKT m k) = s.rdW (Reg.RTR_IPKT m k) ∧ t.rdW (Reg.RTR_IFLIT m k) = s.rdW (Reg.RTR_IFLIT m k) ∧
        t.rdW (Reg.RTR_ILAT m k) = s.rdW (Reg.RTR_ILAT m k)) := by
  have hn := n.isLt
  have hm := m.isLt
  have hk := k.isLt
  have hzero (d : Nat) (hd : d < 0x20) : t.rdW (0x10001000 + 0x100000 * n + 0x20 * k + d) = 0 := by
    rw [ht, rdW_statClear_store s n (by simp only [Reg.RTR_STAT_CTRL]; omega),
      if_neg (by simp only [Reg.RTR_IPKT]; omega), resetWord_counter ⟨_, List.mem_cons_self, by dsimp only; omega⟩]
  have hkeep (hne : m ≠ n) (d : Nat) (hd : d < 0x20) : t.rdW (0x10001000 + 0x100000 * m + 0x20 * k + d) =
      s.rdW (0x10001000 + 0x100000 * m + 0x20 * k + d) := by
    have hne' : m.val ≠ n.val := fun e => hne (Fin.ext e)
    rw [ht, rdW_statClear_store s n (by simp only [Reg.RTR_STAT_CTRL]; omega),
      if_pos (by simp only [Reg.RTR_IPKT]; omega)]
  have hresp : t.resp = .ok 0 := by
    rw [ht, regStore_word (plainReg_stat n) (regReach_stat_monitor s n) (by simp only [Reg.RTR_STAT_CTRL]; omega) (by decide)
      (.inl rfl)]
    rfl
  have e8 (i : Nat) : Reg.RTR_IFLIT i k = 0x10001000 + 0x100000 * i + 0x20 * k + 8 := by simp only [Reg.RTR_IFLIT]; omega
  have e16 (i : Nat) : Reg.RTR_ILAT i k = 0x10001000 + 0x100000 * i + 0x20 * k + 16 := by simp only [Reg.RTR_ILAT]; omega
  rw [e8, e8, e16, e16]
  exact ⟨hzero 0 (by decide), hzero 8 (by decide), hzero 16 (by decide), hresp, fun hne =>
    ⟨hkeep hne 0 (by decide), hkeep hne 8 (by decide), hkeep hne 16 (by decide)⟩⟩

/-! ### PMON_CTRL -/

/-- The row of PMON_CTRL. -/
def pmonRow : RegDef := ⟨0x90000000, 1, 0x100000000, 1, 0x100000000,
  [⟨F.PMON_CTRL_CLEAR, .wo, 0, false, 0, 2 ^ 64⟩, ⟨F.PMON_CTRL_FREEZE, .rw, 0, false, 0, 2 ^ 64⟩]⟩

theorem plainReg_pmon : PlainReg Reg.PMON_CTRL pmonRow := by decide +kernel

theorem regHook_pmon (s : State) (who : Ident) (v : Nat) (pend : Bool) : s.regHook who Reg.PMON_CTRL v pend =
    if v.testBit 63 then s.pmonClear else s := by
  unfold State.regHook
  dsimp only
  rw [if_neg (by decide), if_neg (by decide), if_neg (by decide), if_neg (by decide), if_neg (by decide), if_neg (by decide),
    if_neg (by decide), if_pos rfl]

/-- A write of CLEAR of PMON_CTRL: each counter but the per-initiator ones, and no other register but PMON_CTRL. -/
theorem rdW_pmonClear_store {s : State} {who : Ident} (h : s.regReach who Reg.PMON_CTRL true false = true) {o : Nat}
    (ho : o ≠ Reg.PMON_CTRL) :
    (s.regStore who Reg.PMON_CTRL 8 (setBits (s.rdW Reg.PMON_CTRL).toNat 63 63 1) false).rdW o =
      if (ctrKind o).1 = .counter ∧ ¬ (0x1000 ≤ o % 0x100000 ∧ o % 0x100000 < 0x1800) then resetWord o else s.rdW o := by
  have hclear : (setBits (s.rdW Reg.PMON_CTRL).toNat 63 63 1 % 2 ^ 64).testBit 63 = true := by
    rw [Nat.testBit_mod_two_pow, testBit_setBits _ _ _ _ _ (le_refl 63)]; simp
  rw [regStore_word plainReg_pmon h rfl (by decide) (.inr (by decide)), regHook_pmon, if_pos hclear, rdW_answer, rdW_pmonClear,
    rdW_writeFields_other _ _ _ ho]

/-- The counters of the units from 0x2000_0000 up stand from 0x808 of each block. -/
theorem ctrKind_unit {off : Nat} (h : (0x20000000 ≤ off ∧ off < 0x28E00000) ∨ (0x30000000 ≤ off ∧ off < 0x32400000) ∨
    (0x60000000 ≤ off ∧ off < 0x60400000)) (hd : 0x808 ≤ off % 0x100000 ∧ off % 0x100000 < 0x848) :
    (ctrKind off).1 = .counter := by
  have hstop : stopOf off = none := if_neg (by omega)
  unfold ctrKind
  rw [hstop]
  dsimp only
  rw [if_pos (by omega), if_neg (by omega : ¬ off % 0x100000 % 0x1000 = 0x800)]
  rcases h with h | h | h
  · rw [if_pos h]
  · rw [if_neg (by omega), if_pos h]
  · rw [if_neg (by omega), if_neg (by omega), if_pos h]

/-- The unit counters of a stop stand from 0x4808 of its block. -/
theorem ctrKind_stop {off : Nat} (h : 0x10000000 ≤ off ∧ off < 0x14000000)
    (hd : 0x4808 ≤ off % 0x100000 ∧ off % 0x100000 < 0x4848) : (ctrKind off).1 = .counter := by
  have hstop : stopOf off = some ((off - 0x10000000) / 0x100000, off % 0x100000) := if_pos h
  unfold ctrKind
  rw [hstop]
  dsimp only
  rw [if_neg (by omega), if_neg (by omega), if_pos (by omega), if_neg (by omega)]

/-- PMON_CLEAR by an identity that reaches PMON_CTRL. -/
theorem pmonClear_effect {s : State} {who : Ident} (h : s.regReach who Reg.PMON_CTRL true false = true) (a : Fin 64) (m : Fin 16)
    (j : Fin 14) (n : Fin 36) (p : Fin 4) (k : Fin 8) (t : State)
    (ht : t = s.regStore who Reg.PMON_CTRL 8 (setBits (s.rdW Reg.PMON_CTRL).toNat 63 63 1) false) :
    t.rdW (Reg.STP_PMC a k) = 0 ∧ t.rdW (Reg.MCH_PMC m k) = 0 ∧ t.rdW (Reg.PRT_PMC j k) = 0 ∧ t.rdW (Reg.SLC_PMC n k) = 0 ∧
      t.rdW (Reg.FX_PMC p k) = 0 ∧ t.rdW (Reg.RTR_IPKT a a) = s.rdW (Reg.RTR_IPKT a a) ∧ t.resp = .ok 0 := by
  have ha := a.isLt
  have hm := m.isLt
  have hj := j.isLt
  have hn := n.isLt
  have hp := p.isLt
  have hk := k.isLt
  have hzero {o : Nat} (hc : (ctrKind o).1 = .counter) (hd : ¬ (0x1000 ≤ o % 0x100000 ∧ o % 0x100000 < 0x1800))
      (ho : o ≠ 0x90000000)
      (hb : ∃ b ∈ counterBlocks, b.1 ≤ o ∧ o ≤ b.2.1 ∧ b.2.2.1 ≤ o % 0x100000 ∧ o % 0x100000 ≤ b.2.2.2) :
      t.rdW o = 0 := by
    rw [ht, rdW_pmonClear_store h ho, if_pos ⟨hc, hd⟩, resetWord_counter hb]
  have hstp : t.rdW (0x10004808 + 0x100000 * a + 0x8 * k) = 0 := hzero (ctrKind_stop (by omega) (by omega)) (by omega) (by omega)
    ⟨(0x10000000, 0x13FFFFFF, 0x4808, 0x487F), by simp [counterBlocks], by dsimp only; omega⟩
  have hmch : t.rdW (0x20000808 + 0x100000 * m + 0x8 * k) = 0 := hzero (ctrKind_unit (by omega) (by omega)) (by omega) (by omega)
    ⟨(0x20000000, 0x20FFFFFF, 0x808, 0x847), by simp [counterBlocks], by dsimp only; omega⟩
  have hprt : t.rdW (0x28000808 + 0x100000 * j + 0x8 * k) = 0 := hzero (ctrKind_unit (by omega) (by omega)) (by omega) (by omega)
    ⟨(0x28000000, 0x28DFFFFF, 0x808, 0x847), by simp [counterBlocks], by dsimp only; omega⟩
  have hslc : t.rdW (0x30000808 + 0x100000 * n + 0x8 * k) = 0 := hzero (ctrKind_unit (by omega) (by omega)) (by omega) (by omega)
    ⟨(0x30000000, 0x323FFFFF, 0x808, 0x847), by simp [counterBlocks], by dsimp only; omega⟩
  have hfx : t.rdW (0x60000808 + 0x100000 * p + 0x8 * k) = 0 := hzero (ctrKind_unit (by omega) (by omega)) (by omega) (by omega)
    ⟨(0x60000000, 0x603FFFFF, 0x808, 0x847), by simp [counterBlocks], by dsimp only; omega⟩
  have hipkt : t.rdW (0x10001000 + 0x100000 * a + 0x20 * a) = s.rdW (0x10001000 + 0x100000 * a + 0x20 * a) := by
    have hlow (i d : Nat) (hd : d < 0x800) : (0x10001000 + 0x100000 * i + d) % 0x100000 = 0x1000 + d := by omega
    rw [ht, rdW_pmonClear_store h (by simp only [Reg.PMON_CTRL]; omega), if_neg (by rw [hlow a _ (by omega)]; omega)]
  have hresp : t.resp = .ok 0 := by
    rw [ht, regStore_word plainReg_pmon h rfl (by decide) (.inr (by decide))]
    rfl
  exact ⟨hstp, hmch, hprt, hslc, hfx, hipkt, hresp⟩

/-- PMON_FREEZE by an identity that reaches PMON_CTRL. -/
theorem pmonFreeze_effect {s : State} {who : Ident} (h : s.regReach who Reg.PMON_CTRL true false = true) (on : Bool) (t : State)
    (ht : t = s.regStore who Reg.PMON_CTRL 8 (setBits 0 62 62 (b2n on)) false) :
    t.rd Reg.PMON_CTRL F.PMON_CTRL_FREEZE = b2n on ∧ t.resp = .ok 0 := by
  have hbits : (setBits 0 62 62 (b2n on) % 2 ^ 64).testBit 63 = false ∧
      bitsOf (setBits 0 62 62 (b2n on) % 2 ^ 64) 62 62 = b2n on := by
    cases on <;> decide
  rw [regStore_word plainReg_pmon h rfl (by decide) (.inr (by decide)), regHook_pmon,
    if_neg (by rw [hbits.1]; exact Bool.false_ne_true)] at ht
  subst ht
  refine ⟨?_, rfl⟩
  rw [rd_answer, State.writeFields, pmonRow, List.map_cons, List.map_cons, List.map_nil, List.foldl_cons, List.foldl_cons,
    List.foldl_nil, writeField_ofWord_rw _ _ _ _ _ rfl rfl rfl (by decide),
    rd_wr_fits _ _ _ _ (by decide) (by decide) (bitsOf_lt _ _ _), hbits.2]

end Sys2Proof.Machine
end

section
/-! PROOFS. Staged writes (15 R388, R393), sourcecfg (19 R471) and mailboxes (20 R485). -/

namespace Sys2Proof.Machine
open Sys2Proof

/-! ### A staged write of ISO_PART_WORLD -/

theorem ctu_setCtu (s : State) (c : Ctu) : (s.setCtu c).ctu = c := by
  simp only [State.setCtu, kept @State.ctuShow_fr]

/-- The CTU's figures stand in the status registers of the two worlds. -/
theorem rdW_setCtu_other (s : State) (c : Ctu) {o : Nat} (hn : o ≠ Reg.CTU_STATUS 0) (hs : o ≠ Reg.CTU_STATUS 1) :
    (s.setCtu c).rdW o = s.rdW o :=
  (rdW_wrs_other _ _ hs).trans ((rdW_wrs_other _ _ hn).trans rfl)

/-- With nothing open or waiting a staged write forms an implicit transaction, which is checked at once (15 R393). -/
theorem stage_implicit {s : State} (h : s.ctu = Ctu.reset) (o v m : Nat) :
    ∃ c, s.stage .s o v m = some (s.setCtu c) ∧ c.active = some ⟨.s, 0, true, [(o, (v &&& m, m))], false⟩ :=
  ⟨_, by rw [State.stage, h]; rfl, by rw [h]; rfl⟩

/-- With a transaction open, not full, and the register not staged in it, a staged write joins it (15 R388). -/
theorem stage_open {s : State} {x : Txn} {o : Nat} (h : s.ctu.openOf .s = some x) (hf : x.full = false)
    (ho : Tab.look x.staged o = none) (hl : x.staged.length < 4096) (v m : Nat) :
    ∃ c, s.stage .s o v m = some (s.setCtu c) ∧ c.openOf .s = some { x with staged := Tab.ins x.staged o (v &&& m, m) } := by
  refine ⟨s.ctu.setOpen .s (some { x with staged := Tab.ins x.staged o (v &&& m, m) }), ?_, rfl⟩
  simp only [State.stage, h, hf, ho, if_neg (Nat.not_le.2 hl), Bool.false_eq_true, if_false]

/-- The row of ISO_PART_WORLD. -/
def worldRow : RegDef := ⟨0x80003000, 1, 0x100000000, 1, 0x100000000,
  [⟨F.ISO_PART_WORLD_S_PARTS, .rws, 0, true, 0, 2 ^ 64⟩, ⟨F.ISO_PART_WORLD_PID0_S, .ro, 1, false, 0, 2 ^ 64⟩]⟩

theorem plainReg_world : PlainReg Reg.ISO_PART_WORLD worldRow := by decide +kernel

theorem noHook_world : NoHook Reg.ISO_PART_WORLD ∧ stopOf Reg.ISO_PART_WORLD = none := by decide +kernel

theorem regReach_world_monitor (s : State) : s.regReach monitor Reg.ISO_PART_WORLD true false = true := by
  unfold State.regReach
  dsimp only
  rw [if_neg (by decide), if_neg (by decide), if_neg (by decide), if_neg (by decide), if_neg (by decide), if_neg (by decide),
    if_neg (by decide), if_neg (by decide), if_pos (by decide)]
  rfl

theorem stageMask_world (s : State) : s.stageMask Reg.ISO_PART_WORLD = 2 ^ 64 - 1 := by
  unfold State.stageMask
  rw [if_neg (by decide), if_neg (by decide), if_neg (by decide), if_neg (by decide)]

section
variable (s : State) (v : Nat)

/-- The monitor may write all of ISO_PART_WORLD. -/
theorem permitted_world : s.permitted monitor worldRow Reg.ISO_PART_WORLD v (2 ^ 64 - 1) = worldRow.fields.map (.ofWord v) ∧
    s.oversteps monitor worldRow Reg.ISO_PART_WORLD v (2 ^ 64 - 1) = false := by
  obtain ⟨hall, hnone⟩ := permitted_all (s := s) (who := monitor) (o := Reg.ISO_PART_WORLD) (r := worldRow) (v := v)
    (m := 2 ^ 64 - 1) (.inl rfl)
  exact ⟨hall.trans (touched_word s worldRow _ _ (by decide)), hnone⟩

/-- The staged bits of ISO_PART_WORLD are its bits 63:1. -/
theorem stagedBits_world : s.stagedBits monitor worldRow Reg.ISO_PART_WORLD v (2 ^ 64 - 1) = 2 ^ 64 - 2 := by
  have hmask : F.ISO_PART_WORLD_S_PARTS.mask = 2 ^ 64 - 2 := by decide
  have hro : (FType.ro == FType.rws) = false := by decide
  rw [State.stagedBits, (permitted_world s v).1, stageMask_world, worldRow]
  simp only [List.map_cons, List.map_nil, FldWrite.ofWord, List.filter, beq_self_eq_true, hro, List.foldl_cons, List.foldl_nil,
    hmask, Nat.zero_or]
  exact Nat.and_two_pow_sub_one_of_lt_two_pow (by decide)

/-- A write of ISO_PART_WORLD changes no field at once. -/
theorem putFields_world (s1 : State) : s.putFields s1 monitor Reg.ISO_PART_WORLD v
    (s.permitted monitor worldRow Reg.ISO_PART_WORLD v (2 ^ 64 - 1))
    (s.oversteps monitor worldRow Reg.ISO_PART_WORLD v (2 ^ 64 - 1)) = s1 := by
  rw [putFields_eq, (permitted_world s v).1, (permitted_world s v).2, if_neg Bool.false_ne_true, regHook_noHook noHook_world.1,
    stopHook_outside noHook_world.2, State.writeFields, worldRow, List.map_cons, List.map_cons, List.map_nil, List.foldl_cons,
    List.foldl_cons, List.foldl_nil, writeField_of_held _ _ _ _ (.inl rfl), writeField_of_held _ _ _ _ (.inr (.inl rfl))]

end

/-- A write of ISO_PART_WORLD by the monitor stages its bits 63:1 and does nothing else. -/
theorem regStore_world {s s1 : State} {val : Nat}
    (h : s.stage .s Reg.ISO_PART_WORLD (val % 2 ^ 64) (2 ^ 64 - 2) = some s1) :
    s.regStore monitor Reg.ISO_PART_WORLD 8 val false = s1.answer (.ok 0) := by
  have ho : Reg.ISO_PART_WORLD / 8 * 8 = Reg.ISO_PART_WORLD := by decide
  obtain ⟨hat, hc, hf, hp, he, hi, -⟩ := plainReg_world
  rw [ho] at he hi
  have h8 : Reg.ISO_PART_WORLD % 8 = 0 := by decide
  have hw : s.writtenBits monitor Reg.ISO_PART_WORLD (val % 2 ^ 64) (2 ^ 64 - 1) = val % 2 ^ 64 :=
    (writtenBits_outside s _ _ _ he).trans (Nat.and_two_pow_sub_one_of_lt_two_pow (Nat.mod_lt _ (by decide)))
  have hwr : s.writeReg monitor Reg.ISO_PART_WORLD (val % 2 ^ 64) (2 ^ 64 - 1) worldRow = (true, s1) := by
    rw [writeReg_of_stage (s1 := s1) (ignoresWrite_eq_false hi s _) (by rw [hw, stagedBits_world, if_neg (by decide)]; exact h),
      hw, putFields_world]
  rw [regStore_eq, regWrite_register (by decide) hc (regReach_world_monitor s) hf hp hat, ho, h8, Nat.mul_zero, Nat.pow_zero,
    Nat.mul_one, Nat.mul_one, hwr]
  rfl

theorem world_bits (val : Nat) : val % 2 ^ 64 &&& (2 ^ 64 - 2) = val % 2 ^ 64 - val % 2 := by
  have h : val % 2 ^ 64 &&& (2 ^ 64 - 2) = val % 2 ^ 64 / 2 ^ 1 * 2 ^ 1 := and_upper_mask (k := 63) (Nat.mod_lt _ (by decide))
  omega

/-- The register's active value is left alone, whatever the CTU then holds. -/
theorem rdW_world_staged (s : State) (c : Ctu) : (s.setCtu c).rdW Reg.ISO_PART_WORLD = s.rdW Reg.ISO_PART_WORLD :=
  rdW_setCtu_other s c (by decide) (by decide)

/-! ### sourcecfg -/

theorem aplic_answer (s : State) (r : Resp) (w : World) : (s.answer r).aplic w = s.aplic w := by cases w <;> rfl

/-- With delivery or the source disabled no MSI goes out (19 R476). -/
theorem aplicDeliver_disabled {s : State} {w : World} {k : Nat} (h : ((s.aplic w).ie && ((s.aplic w).get k).en) = false) :
    s.aplicDeliver w k = s := by
  unfold State.aplicDeliver
  refine if_neg fun hc => ?_
  simp only [Bool.and_eq_true] at hc
  obtain ⟨⟨-, hen⟩, hie⟩ := hc
  rw [hen, hie] at h
  exact absurd h (by decide)

section
variable {s : State} {w : World} {k v : Nat} (h : s.srcHere w k = true)
include h

/-- A source takes its own mode, and a level source that was Inactive becomes pending where its condition holds. -/
theorem writeSourcecfg_mode (hv : v % 8 = if evtIsLevel k then 6 else 4) : s.writeSourcecfg w k v =
    (s.setAplic w ((s.aplic w).put k { (s.aplic w).get k with
      sm := v % 8, pend := ((s.aplic w).get k).pend || (evtIsLevel k && ((s.aplic w).get k).sm == 0 && s.evtCond k) })).aplicDeliver
        w k := by
  unfold State.writeSourcecfg
  rw [h, Bool.not_true, if_neg Bool.false_ne_true]
  cases hl : evtIsLevel k <;> simp [hl] at hv <;> simp [hv, hl, State.srcInput]

/-- Any other mode makes the source Inactive. -/
theorem writeSourcecfg_inactive (hv : v % 8 ≠ if evtIsLevel k then 6 else 4) :
    s.writeSourcecfg w k v = s.setAplic w ((s.aplic w).put k AplicSrc.off) := by
  unfold State.writeSourcecfg
  rw [h, Bool.not_true, if_neg Bool.false_ne_true]
  cases hl : evtIsLevel k <;> simp [hl] at hv <;> simp [hv]

end

/-- A 32-bit write at the offset of source k's sourcecfg. -/
theorem regStore_sourcecfg {s : State} {who : Ident} {w : World} {k val : Nat} (h1 : 1 ≤ k) (h2 : k ≤ 512)
    (hr : s.regReach who (aplicBase w + 4 * k) true false = true) :
    s.regStore who (aplicBase w + 4 * k) 4 val false = (s.writeSourcecfg w k (val % 2 ^ 32)).answer (.ok 0) := by
  have hb : aplicBase w = 0x4400000 ∨ aplicBase w = 0x4410000 := by cases w <;> simp
  have hfile : fileAt (aplicBase w + 4 * k) = none := by
    unfold fileAt
    rw [if_neg (by omega), if_neg (by omega)]
  have haplic : aplicAt (aplicBase w + 4 * k) = some (w, 4 * k) := by
    unfold aplicAt
    cases w with
    | s => rw [if_pos (by simp only [aplicBase]; omega)]; simp
    | n => rw [if_neg (by simp only [aplicBase]; omega), if_pos (by simp only [aplicBase]; omega)]; simp
  have hcov : regCovered (aplicBase w + 4 * k) = true := by
    unfold regCovered
    simp only [Bool.or_eq_true, decide_eq_true_eq]
    omega
  have hal : regAligned (aplicBase w + 4 * k) 4 = true := by
    unfold regAligned
    simp
    omega
  have hwrite : s.aplicWrite w (4 * k) (val % 2 ^ 32) = s.writeSourcecfg w k (val % 2 ^ 32) := by
    unfold State.aplicWrite
    dsimp only
    rw [if_neg (by omega), if_pos (by omega), Nat.mul_div_cancel_left _ (by decide)]
  rw [regStore_eq, regWrite_aplic hal hcov hr hfile haplic rfl, hwrite]
  rfl

end Sys2Proof.Machine
end

section
/-! PROOFS. The mailboxes (20 R485, R486). -/

namespace Sys2Proof.Machine
open Sys2Proof

/-- The rows of the mailboxes' control registers. -/
def mbxRow : RegDef := ⟨0xA0000000, 2, 0x4000, 1, 0x100000000,
  [⟨F.MBX_CTRL_GO, .w1s, 0, false, 0, 2 ^ 64⟩, ⟨F.MBX_CTRL_LENGTH, .rw, 0, false, 0, 2 ^ 64⟩]⟩

theorem plainReg_mbx (w : World) : PlainReg (Reg.MBX_CTRL (worldBit w)) mbxRow := by cases w <;> decide +kernel

/-- A write of GO submits the request buffer (20 R485). -/
theorem regHook_mbx (s : State) (who : Ident) (w : World) (v : Nat) (pend : Bool) :
    s.regHook who (Reg.MBX_CTRL (worldBit w)) v pend =
      if v.testBit 63 then (s.wr (Reg.MBX_CTRL (worldBit w)) F.MBX_CTRL_GO 0).mailboxSubmit (worldBit w)
      else s.wr (Reg.MBX_CTRL (worldBit w)) F.MBX_CTRL_GO 0 := by
  unfold State.regHook
  dsimp only
  rw [if_neg (by cases w <;> decide), if_neg (by cases w <;> decide), if_neg (by cases w <;> decide),
    if_neg (by cases w <;> decide), if_neg (by cases w <;> decide), if_neg (by cases w <;> decide),
    if_neg (by cases w <;> decide), if_neg (by cases w <;> decide), if_pos (by cases w <;> decide)]
  cases w <;> rfl

/-- What the PMC holds and the package's state are no register's. -/
theorem pkg_pmc_writeFields (s : State) (o : Nat) (locked : Bool) (l : List FldWrite) :
    ((s.writeFields o locked l).pkg, (s.writeFields o locked l).pmc) = (s.pkg, s.pmc) :=
  foldl_keeps (fun t => (t.pkg, t.pmc)) (fun t x => t.writeField o locked x) (fun t x => by
    rcases writeField_cases t o locked x with e | ⟨v, e⟩
    · rw [e]
    · rw [e]; simp only [kept @State.wr_fr]) l s

theorem pmcRuns_congr {s t : State} (hp : t.pkg = s.pkg) (hm : t.rdW Reg.PKG_MODE = s.rdW Reg.PKG_MODE) :
    t.pmcRuns = s.pmcRuns := by
  simp only [State.pmcRuns, State.mode, State.rd, hp, hm]

/-- A known request with none held of its source is held (20 R486, R487). -/
theorem mgmtRequest_held {s : State} {src : Nat} {q : List Byte} (hr : s.pmcRuns = true)
    (hc : mgmtCodes.contains (leAt q 0 1) = true) (hn : Tab.look s.pmc.req src = none) :
    s.mgmtRequest src q = { s with pmc := { s.pmc with req := Tab.put [] s.pmc.req src q } } := by
  unfold State.mgmtRequest
  rw [hr, hc, hn]
  rfl

/-- A known request is no empty one. -/
theorem look_put_request {t : Tab (List Byte)} {src : Nat} {q : List Byte} (hc : mgmtCodes.contains (leAt q 0 1) = true) :
    Tab.look (Tab.put [] t src q) src = some q := by
  have hq : q ≠ [] := by
    rintro rfl
    exact absurd hc (by decide)
  rw [Tab.put, if_neg hq, Tab.look_ins_same]

theorem rd_pmc (s : State) (p : Pmc) (o : Nat) (f : Fld) : { s with pmc := p }.rd o f = s.rd o f := rfl

/-- A submitted request of a set that is not busy, the PMC running and none of its held, is held and the set made busy. -/
theorem mailboxSubmit_held {s : State} {w : World} {q : List Byte} (hr : s.pmcRuns = true)
    (hb : s.rd (Reg.MBX_STATUS (worldBit w)) F.MBX_STATUS_STATE ≠ 1) (hn : Tab.look s.pmc.req (worldBit w) = none)
    (hq : q = ((List.range 512).flatMap (fun i => leBytes 8 (s.rdW (Reg.MBX_REQ (worldBit w) i)).toNat)).take
      (s.rd (Reg.MBX_CTRL (worldBit w)) F.MBX_CTRL_LENGTH))
    (hc : mgmtCodes.contains (leAt q 0 1) = true) :
    (s.mailboxSubmit (worldBit w)).rd (Reg.MBX_STATUS (worldBit w)) F.MBX_STATUS_STATE = 1 ∧
    Tab.look (s.mailboxSubmit (worldBit w)).pmc.req (worldBit w) = some q := by
  have hsub : s.mailboxSubmit (worldBit w) =
      (s.wr (Reg.MBX_STATUS (worldBit w)) F.MBX_STATUS_STATE 1).mgmtRequest (worldBit w) q := by
    subst hq
    exact if_neg hb
  have hrun : (s.wr (Reg.MBX_STATUS (worldBit w)) F.MBX_STATUS_STATE 1).pmcRuns = true :=
    (pmcRuns_congr (by simp only [kept @State.wr_fr]) (rdW_wr_other _ _ _ (by cases w <;> decide))).trans hr
  have hreq : (s.wr (Reg.MBX_STATUS (worldBit w)) F.MBX_STATUS_STATE 1).pmc = s.pmc := by simp only [kept @State.wr_fr]
  rw [hsub, mgmtRequest_held hrun hc (by rw [hreq]; exact hn)]
  exact ⟨(rd_pmc _ _ _ _).trans (rd_wr_fits s _ F.MBX_STATUS_STATE 1 (by decide) (by decide) (by decide)), look_put_request hc⟩

/-- The word of MAILBOX_SUBMIT: GO and LENGTH. -/
theorem submit_word (len : Nat) : (2 ^ 63 + len % 2 ^ 13).testBit 63 = true ∧
    bitsOf (2 ^ 63 + len % 2 ^ 13) 12 0 = len % 2 ^ 13 := by
  have hlt : len % 2 ^ 13 < 2 ^ 13 := Nat.mod_lt _ (by decide)
  refine ⟨?_, ?_⟩
  · rw [Nat.testBit_eq_decide_div_mod_eq, decide_eq_true_eq]
    omega
  · simp only [bitsOf, Nat.shiftRight_zero]
    omega

/-- The state in which MAILBOX_SUBMIT submits: GO and LENGTH written, GO cleared again. -/
def State.submitState (s : State) (w : World) (len : Nat) : State :=
  (s.writeFields (Reg.MBX_CTRL (worldBit w)) (bitAt (s.rdW (Reg.MBX_CTRL (worldBit w))).toNat 63)
    (mbxRow.fields.map (.ofWord (2 ^ 63 + len % 2 ^ 13)))).wr (Reg.MBX_CTRL (worldBit w)) F.MBX_CTRL_GO 0

section
variable (s : State) (w : World) (len : Nat)

theorem rdW_submitState {o : Nat} (h : o ≠ Reg.MBX_CTRL (worldBit w)) : (s.submitState w len).rdW o = s.rdW o :=
  (rdW_wr_other _ _ _ h).trans (rdW_writeFields_other s _ _ h)

theorem pkg_submitState : (s.submitState w len).pkg = s.pkg := by
  have h := congrArg Prod.fst (pkg_pmc_writeFields s (Reg.MBX_CTRL (worldBit w)) (bitAt (s.rdW (Reg.MBX_CTRL (worldBit w))).toNat 63)
    (mbxRow.fields.map (.ofWord (2 ^ 63 + len % 2 ^ 13))))
  simpa only [State.submitState, kept @State.wr_fr] using h

theorem pmc_submitState : (s.submitState w len).pmc = s.pmc := by
  have h := congrArg Prod.snd (pkg_pmc_writeFields s (Reg.MBX_CTRL (worldBit w)) (bitAt (s.rdW (Reg.MBX_CTRL (worldBit w))).toNat 63)
    (mbxRow.fields.map (.ofWord (2 ^ 63 + len % 2 ^ 13))))
  simpa only [State.submitState, kept @State.wr_fr] using h

theorem rd_length_submitState : (s.submitState w len).rd (Reg.MBX_CTRL (worldBit w)) F.MBX_CTRL_LENGTH = len % 2 ^ 13 := by
  have hlen : bitsOf (2 ^ 63 + len % 2 ^ 13) (Fld.hi F.MBX_CTRL_LENGTH) (Fld.lo F.MBX_CTRL_LENGTH) = len % 2 ^ 13 :=
    (submit_word len).2
  rw [State.submitState, rd_wr_apart _ _ _ _ _ (by decide) (.inl (by decide)), State.writeFields, mbxRow, List.map_cons,
    List.map_cons, List.map_nil, List.foldl_cons, List.foldl_cons, List.foldl_nil,
    writeField_ofWord_rw _ _ _ _ _ rfl rfl rfl (by decide), hlen]
  exact rd_wr_fits _ _ F.MBX_CTRL_LENGTH _ (by decide) (by decide) (Nat.mod_lt _ (by decide))

end

/-- MAILBOX_SUBMIT writes GO and LENGTH and submits. -/
theorem regStore_submit {s : State} {who : Ident} {w : World} {len : Nat}
    (h : s.regReach who (Reg.MBX_CTRL (worldBit w)) true false = true) :
    s.regStore who (Reg.MBX_CTRL (worldBit w)) 8 (2 ^ 63 + len % 2 ^ 13) false =
      ((s.submitState w len).mailboxSubmit (worldBit w)).answer (.ok 0) := by
  have hfit : (2 ^ 63 + len % 2 ^ 13) % 2 ^ 64 = 2 ^ 63 + len % 2 ^ 13 := by omega
  rw [regStore_word (plainReg_mbx w) h (by cases w <;> decide) (by decide) (.inr (by decide)), hfit, regHook_mbx,
    if_pos (submit_word len).1]
  rfl

theorem pmc_answer (s : State) (r : Resp) : (s.answer r).pmc = s.pmc := rfl

/-- MAILBOX_SUBMIT holds the first LENGTH bytes of the buffer as the request and makes the set busy. -/
theorem mailboxSubmit_effect {s : State} {who : Ident} {w : World} {len : Nat} {q : List Byte}
    (h : s.regReach who (Reg.MBX_CTRL (worldBit w)) true false = true) (hr : s.pmcRuns = true)
    (hb : s.rd (Reg.MBX_STATUS (worldBit w)) F.MBX_STATUS_STATE ≠ 1) (hn : Tab.look s.pmc.req (worldBit w) = none)
    (hq : q = ((List.range 512).flatMap (fun i => leBytes 8 (s.rdW (Reg.MBX_REQ (worldBit w) i)).toNat)).take (len % 2 ^ 13))
    (hc : mgmtCodes.contains (leAt q 0 1) = true) (t : State)
    (ht : t = s.regStore who (Reg.MBX_CTRL (worldBit w)) 8 (2 ^ 63 + len % 2 ^ 13) false) :
    t.rd (Reg.MBX_STATUS (worldBit w)) F.MBX_STATUS_STATE = 1 ∧ Tab.look t.pmc.req (worldBit w) = some q ∧ t.resp = .ok 0 := by
  have hreq (i : Nat) : (s.submitState w len).rdW (Reg.MBX_REQ (worldBit w) i) = s.rdW (Reg.MBX_REQ (worldBit w) i) :=
    rdW_submitState s w len (by cases w <;> simp only [Reg.MBX_REQ, Reg.MBX_CTRL, worldBit] <;> omega)
  have hstate : (s.submitState w len).rd (Reg.MBX_STATUS (worldBit w)) F.MBX_STATUS_STATE ≠ 1 := by
    rw [State.rd, rdW_submitState s w len (by cases w <;> decide)]
    exact hb
  have hrun := (pmcRuns_congr (pkg_submitState s w len) (rdW_submitState s w len (by cases w <;> decide))).trans hr
  have hheld := mailboxSubmit_held (q := q) hrun hstate (by rw [pmc_submitState]; exact hn)
    (by rw [rd_length_submitState]; simp only [hreq]; exact hq) hc
  rw [ht, regStore_submit h, rd_answer, pmc_answer, resp_answer]
  exact ⟨hheld.1, hheld.2, rfl⟩

end Sys2Proof.Machine
end

section
/-! PROOFS. A write of a register by its writer completes. -/

namespace Sys2Proof.Machine
open Sys2Proof

/-! ### SOURCECFG_WRITE -/

section
variable {s : State} {who : Ident} {w : World} {k val : Nat}

/-- A source takes its own mode (19 R471); with delivery or the source disabled, that is all. -/
theorem sourcecfg_mode_effect (h1 : 1 ≤ k) (h2 : k ≤ 512) (hr : s.regReach who (aplicBase w + 4 * k) true false = true)
    (hs : s.srcHere w k = true) (hv : val % 8 = if evtIsLevel k then 6 else 4)
    (hd : ((s.aplic w).ie && ((s.aplic w).get k).en) = false) (t : State)
    (ht : t = s.regStore who (aplicBase w + 4 * k) 4 val false) :
    (t.aplic w).get k = { (s.aplic w).get k with
      sm := val % 8, pend := ((s.aplic w).get k).pend || (evtIsLevel k && ((s.aplic w).get k).sm == 0 && s.evtCond k) } ∧
    t.resp = .ok 0 := by
  have hmod : val % 2 ^ 32 % 8 = val % 8 := Nat.mod_mod_of_dvd _ (by decide)
  rw [ht, regStore_sourcecfg h1 h2 hr, writeSourcecfg_mode hs (hmod.trans hv), hmod, aplic_answer, resp_answer,
    aplicDeliver_disabled (by rw [State.aplic_setAplic_same, Aplic.get_put_same]; exact hd), State.aplic_setAplic_same,
    Aplic.get_put_same]
  exact ⟨rfl, rfl⟩

/-- Any other mode leaves the source Inactive (19 R471). -/
theorem sourcecfg_inactive_effect (h1 : 1 ≤ k) (h2 : k ≤ 512) (hr : s.regReach who (aplicBase w + 4 * k) true false = true)
    (hs : s.srcHere w k = true) (hv : val % 8 ≠ if evtIsLevel k then 6 else 4) (t : State)
    (ht : t = s.regStore who (aplicBase w + 4 * k) 4 val false) : (t.aplic w).get k = AplicSrc.off ∧ t.resp = .ok 0 := by
  have hmod : val % 2 ^ 32 % 8 = val % 8 := Nat.mod_mod_of_dvd _ (by decide)
  rw [ht, regStore_sourcecfg h1 h2 hr, writeSourcecfg_inactive hs (by rw [hmod]; exact hv), aplic_answer, resp_answer,
    State.aplic_setAplic_same, Aplic.get_put_same]
  exact ⟨rfl, rfl⟩

end

/-! ### RWS_WRITE of ISO_PART_WORLD -/

/-- RWS_WRITE writes a register that has a staged field. -/
theorem exec_rwsWrite_world (s : State) (val : Nat) :
    exec (.rwsWrite monitor Reg.ISO_PART_WORLD 8 val) s = .next (s.regStore monitor Reg.ISO_PART_WORLD 8 val false) := by
  have hs : hasStaged Reg.ISO_PART_WORLD = true := by decide +kernel
  show execRwsWrite monitor Reg.ISO_PART_WORLD 8 val s = _
  rw [execRwsWrite, if_pos hs]

theorem ctu_answer (s : State) (r : Resp) : (s.answer r).ctu = s.ctu := rfl

/-- Staging in the CTU leaves the active value of ISO_PART_WORLD and the answer OK. -/
theorem regStore_world_staged {s : State} {c : Ctu} {val : Nat}
    (h : s.stage .s Reg.ISO_PART_WORLD (val % 2 ^ 64) (2 ^ 64 - 2) = some (s.setCtu c)) (t : State)
    (ht : t = s.regStore monitor Reg.ISO_PART_WORLD 8 val false) :
    t.rdW Reg.ISO_PART_WORLD = s.rdW Reg.ISO_PART_WORLD ∧ t.resp = .ok 0 ∧ t.ctu = c := by
  rw [ht, regStore_world h]
  exact ⟨(rdW_answer _ _ _).trans (rdW_world_staged s c), resp_answer _ _, (ctu_answer _ _).trans (ctu_setCtu s c)⟩

/-- With the CTU idle the write forms an implicit transaction. -/
theorem rwsWrite_implicit {s : State} (h : s.ctu = Ctu.reset) (val : Nat) (t : State)
    (ht : t = s.regStore monitor Reg.ISO_PART_WORLD 8 val false) :
    t.rdW Reg.ISO_PART_WORLD = s.rdW Reg.ISO_PART_WORLD ∧ t.resp = .ok 0 ∧
    t.ctu.active = some ⟨.s, 0, true, [(Reg.ISO_PART_WORLD, (val % 2 ^ 64 - val % 2, 2 ^ 64 - 2))], false⟩ := by
  obtain ⟨c, hc, hact⟩ := stage_implicit h Reg.ISO_PART_WORLD (val % 2 ^ 64) (2 ^ 64 - 2)
  obtain ⟨hrd, hok, hctu⟩ := regStore_world_staged hc t ht
  exact ⟨hrd, hok, by rw [hctu, hact, world_bits]⟩

/-- With world S's transaction open the write joins it. -/
theorem rwsWrite_open {s : State} {x : Txn} (h : s.ctu.openOf .s = some x) (hf : x.full = false)
    (ho : Tab.look x.staged Reg.ISO_PART_WORLD = none) (hl : x.staged.length < 4096) (val : Nat) (t : State)
    (ht : t = s.regStore monitor Reg.ISO_PART_WORLD 8 val false) :
    t.rdW Reg.ISO_PART_WORLD = s.rdW Reg.ISO_PART_WORLD ∧ t.resp = .ok 0 ∧ t.ctu.openOf .s =
      some { x with staged := Tab.ins x.staged Reg.ISO_PART_WORLD (val % 2 ^ 64 - val % 2, 2 ^ 64 - 2) } := by
  obtain ⟨c, hc, hopen⟩ := stage_open h hf ho hl (val % 2 ^ 64) (2 ^ 64 - 2)
  obtain ⟨hrd, hok, hctu⟩ := regStore_world_staged hc t ht
  exact ⟨hrd, hok, by rw [hctu, hopen, world_bits]⟩

/-! ### A register word written and the answer given -/

theorem wrW_answer_effect (s : State) (o : Nat) (v : Word) : ((s.wrW o v).answer (.ok 0)).rdW o = v ∧
    ((s.wrW o v).answer (.ok 0)).resp = .ok 0 ∧ ∀ p, p ≠ o → ((s.wrW o v).answer (.ok 0)).rdW p = s.rdW p :=
  ⟨(rdW_answer _ _ _).trans (rdW_wrW_same _ _ _), resp_answer _ _, fun _ hp => (rdW_answer _ _ _).trans (rdW_wrW_other _ _ hp)⟩

theorem wrW_answer_toNat (s : State) (o : Nat) {v : Nat} (hv : v < 2 ^ 64) :
    (((s.wrW o (BitVec.ofNat 64 v)).answer (.ok 0)).rdW o).toNat = v ∧
    ((s.wrW o (BitVec.ofNat 64 v)).answer (.ok 0)).resp = .ok 0 ∧
    ∀ p, p ≠ o → ((s.wrW o (BitVec.ofNat 64 v)).answer (.ok 0)).rdW p = s.rdW p := by
  obtain ⟨hsame, hresp, hother⟩ := wrW_answer_effect s o (BitVec.ofNat 64 v)
  exact ⟨by rw [hsame, BitVec.toNat_ofNat, Nat.mod_eq_of_lt hv], hresp, hother⟩

/-! ### The commands -/

/-- A command that leaves one state completes with what holds of that state. -/
theorem completes_of_next {c : Instr} {s u : State} {P : State → Prop} (h : exec c s = .next u) (hp : P u) : Completes c s P :=
  ⟨u, h, hp⟩

/-- Settles O14: each command is a write of a register, and what that write leaves is a lemma of its own. -/
theorem registerWritesComplete : Obligations.RegisterWritesComplete := by
  unfold Obligations.RegisterWritesComplete
  refine ⟨?accepted, ?misplaced, ?unreached, ?word, ?low, ?high, ?implicit, ?opened, ?good, ?other, ?kick, ?stat, ?pmon, ?freeze,
    ?mode, ?inactive, ?mailbox⟩
  case accepted =>
    intro s who off size val user ha hc hr hs
    exact completes_of_next rfl (regStore_accepted ha hc hr hs)
  case misplaced =>
    intro s who off size val user h
    exact completes_of_next rfl (regStore_misplaced h)
  case unreached =>
    intro s who off size val user ha hc hr hv
    exact completes_of_next rfl (regStore_unreached_record ha hc hr hv _ rfl)
  case word =>
    intro s who k val user h
    refine completes_of_next rfl ?_
    rw [regStore_bkp_word h]
    exact wrW_answer_effect s _ _
  case low =>
    intro s who k val user h
    refine completes_of_next rfl ?_
    rw [regStore_bkp_low h]
    exact wrW_answer_toNat s _ (by omega)
  case high =>
    intro s who k val user h
    refine completes_of_next rfl ?_
    rw [regStore_bkp_high h]
    exact wrW_answer_toNat s _ (by omega)
  case implicit =>
    intro s val h
    exact completes_of_next (exec_rwsWrite_world s val) (rwsWrite_implicit h val _ rfl)
  case opened =>
    intro s val x h hf ho hl
    exact completes_of_next (exec_rwsWrite_world s val) (rwsWrite_open h hf ho hl val _ rfl)
  case good =>
    exact fun s => completes_of_next rfl (bootGood_monitor s)
  case other =>
    exact fun s who h => completes_of_next rfl (bootGood_other s h)
  case kick =>
    exact fun s who h => completes_of_next rfl (watchdogKick_effect h _ rfl)
  case stat =>
    exact fun s n m k h => completes_of_next rfl (statClear_effect s n m k _ rfl)
  case pmon =>
    exact fun s who a m j n p k h => completes_of_next rfl (pmonClear_effect h a m j n p k _ rfl)
  case freeze =>
    exact fun s who on h => completes_of_next rfl (pmonFreeze_effect h on _ rfl)
  case mode =>
    intro s who w k val h1 h2 hr hs hv hd
    exact completes_of_next (if_pos ⟨h1, h2⟩) (sourcecfg_mode_effect h1 h2 hr hs hv hd _ rfl)
  case inactive =>
    intro s who w k val h1 h2 hr hs hv
    exact completes_of_next (if_pos ⟨h1, h2⟩) (sourcecfg_inactive_effect h1 h2 hr hs hv _ rfl)
  case mailbox =>
    intro s who w len q h hr hb hn hq hc
    exact completes_of_next rfl (mailboxSubmit_effect h hr hb hn hq hc _ rfl)

end Sys2Proof.Machine
end

section
/-! PROOFS. The routings of a compute die by its orientation code (O53). -/

namespace Sys2Proof.Machine
open Sys2Proof

/-! ### The rows of *Orientation remapping* -/

theorem orientRouting_even {code : Nat} (h : code % 2 = 0) : orientRouting code = ⟨0, 1, 2, code, false⟩ := if_pos h

theorem orientRouting_odd {code : Nat} (h : code % 2 ≠ 0) : orientRouting code = ⟨2, 1, 0, code, true⟩ := if_neg h

@[simp] theorem Routing.onPort_A (r : Routing) : r.onPort 0 = r.portA := rfl
@[simp] theorem Routing.onPort_B (r : Routing) : r.onPort 1 = r.portB := rfl
@[simp] theorem Routing.onPort_C (r : Routing) : r.onPort 2 = r.portC := rfl

/-! ### A die with latched straps -/

section
variable {s : State} {d : Nat} {x : DieSite}

theorem State.routing_of_latched (h : Tab.get none s.pkg.dies d = some x) : s.routing d = some (orientRouting x.orientation) := by
  rw [State.routing, h, Option.map_some]

theorem State.portCluster_of_latched (h : Tab.get none s.pkg.dies d = some x) (port : Nat) :
    s.portCluster d port = some (3 * d + (orientRouting x.orientation).onPort port,
      nthD clusterStops (3 * d + (orientRouting x.orientation).onPort port) 0) := by
  rw [State.portCluster, State.routing_of_latched h, Option.map_some]

end

/-- Settles O53: what a port carries is the row of the latched code, and the parity of the code picks that row's order. -/
theorem orientationRoutings : Obligations.OrientationRoutings := by
  unfold Obligations.OrientationRoutings
  refine ⟨?rows, ?cd7⟩
  case rows =>
    intro s d x latched _
    rw [State.routing_of_latched latched]
    simp only [State.portCluster_of_latched latched]
    by_cases even : x.orientation % 2 = 0
    · simp [orientRouting_even even, even]
    · simp [orientRouting_odd even, even]
  case cd7 =>
    intro s x latched turned
    have row : orientRouting x.orientation = ⟨0, 1, 2, 2, false⟩ := by rw [turned, orientRouting_even rfl]
    rw [State.routing_of_latched latched, State.portCluster_of_latched latched, row]
    exact ⟨rfl, rfl⟩

end Sys2Proof.Machine
end

section
/-! PROOFS. The geometry of a column page (02 R34, R35; O10). -/

namespace Sys2Proof.Machine
open Sys2Proof

/-! ### The greatest number that fits -/

/-- Scanning the numbers upwards for the last that passes finds the greatest that passes. -/
theorem foldl_range_eq_findGreatest (P : Nat → Prop) [DecidablePred P] (k : Nat) :
    (List.range (k + 1)).foldl (fun best n => if P n then n else best) 0 = Nat.findGreatest P k := by
  induction k with
  | zero => simp
  | succ k ih => rw [List.range_succ, List.foldl_append, ih, Nat.findGreatest_succ]; rfl

theorem align128_mono {x y : Nat} (h : x ≤ y) : align128 x ≤ align128 y := by unfold align128 alignUp; omega

theorem align128_le_of_dvd {x k : Nat} (h : x ≤ 128 * k) : align128 x ≤ 128 * k := by unfold align128 alignUp; omega

/-- `n` slot headers and `n` slots lie between the page header and the dictionary. -/
abbrev ColD.Fits (c : ColD) (n : Nat) : Prop := 128 + align128 (16 * n) + n * c.slotBytes ≤ c.dictOff

section
variable {c : ColD}

theorem ColD.Fits.mono {m n : Nat} (h : c.Fits n) (hle : m ≤ n) : c.Fits m := by
  have hdr : align128 (16 * m) ≤ align128 (16 * n) := align128_mono (by omega)
  have pay : m * c.slotBytes ≤ n * c.slotBytes := Nat.mul_le_mul_right _ hle
  unfold ColD.Fits at *
  omega

/-- Slots of 64 bytes and more fill a page before there are 1,024 of them. -/
theorem ColD.Fits.lt_1024 {n : Nat} (h : c.Fits n) (h64 : 64 ≤ c.slotBytes) : n < 1024 := by
  have pay : n * 64 ≤ n * c.slotBytes := Nat.mul_le_mul_left _ h64
  unfold ColD.Fits ColD.dictOff at h
  omega

theorem ColD.slots_eq_findGreatest (c : ColD) : c.slots = Nat.findGreatest c.Fits 1023 :=
  foldl_range_eq_findGreatest c.Fits 1023

/-- The slots of a page fit where the dictionary leaves room for the page header. -/
theorem ColD.fits_slots (h : c.Fits 0) : c.Fits c.slots := by
  rw [ColD.slots_eq_findGreatest]
  exact Nat.findGreatest_spec (Nat.zero_le _) h

theorem ColD.Fits.le_slots {n : Nat} (h : c.Fits n) (h64 : 64 ≤ c.slotBytes) : n ≤ c.slots := by
  rw [ColD.slots_eq_findGreatest]
  exact Nat.le_findGreatest (Nat.le_of_lt_succ (h.lt_1024 h64)) h

/-- The number that fits while the next does not is the number of slots. -/
theorem ColD.slots_eq_of_fits {n : Nat} (h64 : 64 ≤ c.slotBytes) (h : c.Fits n) (hmax : ¬ c.Fits (n + 1)) : c.slots = n := by
  have hle : n ≤ c.slots := h.le_slots h64
  have hge : ¬ n + 1 ≤ c.slots := fun hlt => hmax ((ColD.fits_slots (h.mono (Nat.zero_le _))).mono hlt)
  omega

/-! ### Slot sizes -/

theorem Ty.width_eq_two_pow (t : Ty) : ∃ k ≤ 4, t.width = 2 ^ k := by
  cases t
  case bool | i8 | u8 => exact ⟨0, by omega, rfl⟩
  case i16 | u16 => exact ⟨1, by omega, rfl⟩
  case i32 | u32 | f32 | date | dict32 => exact ⟨2, by omega, rfl⟩
  case i64 | u64 | f64 | dec64 | timestamp => exact ⟨3, by omega, rfl⟩
  case dec128 | fixbin | varstr => exact ⟨4, by omega, rfl⟩

/-- A slot has 2^6 to 2^14 bytes: 1,024 values of a width of 2^0 to 2^4 bytes, over a ratio of 2^0 to 2^4. -/
theorem ColD.slotBytes_eq_two_pow (h : c.ratioLog2 ≤ 4) :
    ∃ e, 6 ≤ e ∧ e ≤ 14 ∧ c.slotBytes = 2 ^ e ∧ 2 ^ e * 2 ^ c.ratioLog2 = 1024 * c.ty.width := by
  obtain ⟨k, hk, hw⟩ := c.ty.width_eq_two_pow
  have hnum : 1024 * c.ty.width = 2 ^ (10 + k) := by rw [hw, pow_add]; rfl
  refine ⟨10 + k - c.ratioLog2, by omega, by omega, ?_, ?_⟩
  · rw [ColD.slotBytes, hnum, Nat.pow_div (by omega) (by omega)]
  · rw [hnum, ← pow_add]
    congr 1
    omega

theorem ColD.slotBytes_bounds (h : c.ratioLog2 ≤ 4) : 64 ≤ c.slotBytes ∧ c.slotBytes ≤ 16384 := by
  obtain ⟨e, h6, h14, hS, -⟩ := ColD.slotBytes_eq_two_pow h
  rw [hS]
  exact ⟨Nat.pow_le_pow_right (n := 2) (by decide) h6, Nat.pow_le_pow_right (n := 2) (by decide) h14⟩

/-- The number of slots for slots of 2^e bytes, with no dictionary (02 R35). -/
theorem ColD.slots_of_no_dict (hcap : c.cap = 0) (h64 : 64 ≤ c.slotBytes) {e n : Nat} (hS : c.slotBytes = 2 ^ e)
    (h : 128 + align128 (16 * n) + n * 2 ^ e ≤ 65408 ∧ 65408 < 128 + align128 (16 * (n + 1)) + (n + 1) * 2 ^ e) :
    (c.slotBytes, c.slots) = (2 ^ e, n) := by
  have hoff : c.dictOff = 65408 := by simp [ColD.dictOff, hcap, align128, alignUp]
  rw [ColD.slots_eq_of_fits (n := n) h64 (by rw [ColD.Fits, hS, hoff]; exact h.1)
    (by rw [ColD.Fits, hS, hoff]; exact Nat.not_le_of_lt h.2), hS]

/-- The slots of a page without a dictionary, by slot size (02 R35). -/
theorem ColD.slots_table (hr : c.ratioLog2 ≤ 4) (hcap : c.cap = 0) :
    (c.slotBytes, c.slots) ∈ [(64, 816), (128, 453), (256, 240), (512, 123), (1024, 62), (2048, 31), (4096, 15),
      (8192, 7), (16384, 3)] := by
  obtain ⟨e, h6, h14, hS, -⟩ := ColD.slotBytes_eq_two_pow hr
  have row {n : Nat} := ColD.slots_of_no_dict (n := n) hcap (ColD.slotBytes_bounds hr).1 hS
  interval_cases e
  · rw [row (n := 816) (by decide)]; decide
  · rw [row (n := 453) (by decide)]; decide
  · rw [row (n := 240) (by decide)]; decide
  · rw [row (n := 123) (by decide)]; decide
  · rw [row (n := 62) (by decide)]; decide
  · rw [row (n := 31) (by decide)]; decide
  · rw [row (n := 15) (by decide)]; decide
  · rw [row (n := 7) (by decide)]; decide
  · rw [row (n := 3) (by decide)]; decide

end

/-- Settles O10: the slots are the greatest number that fits, the slot size being a power of two from 64 bytes on. -/
theorem pageLayoutFits : Obligations.PageLayoutFits := by
  unfold Obligations.PageLayoutFits
  refine ⟨fun c hr _ hdict => ?_, fun e => rfl, fun c => ColD.slots_table⟩
  obtain ⟨e, -, -, hS, hmul⟩ := ColD.slotBytes_eq_two_pow hr
  obtain ⟨h64, hmax⟩ := ColD.slotBytes_bounds hr
  have room : align128 (c.cap * c.ty.width) ≤ 128 * 128 := align128_le_of_dvd hdict
  have noSlots : c.Fits 0 := by
    simp only [ColD.Fits, ColD.dictOff, align128, alignUp] at room ⊢
    omega
  exact ⟨hS ▸ hmul, h64, hmax, rfl, ColD.fits_slots noSlots, fun n h => ColD.Fits.le_slots h h64, rfl⟩

end Sys2Proof.Machine
end

section
/-! PROOFS. Numbers as bytes, and packed arrays of fields (02 R48; O11). -/

namespace Sys2Proof.Machine
open Sys2Proof

/-! ### A number as bytes -/

@[simp] theorem length_leBytes (n v : Nat) : (leBytes n v).length = n := by
  induction n generalizing v with
  | zero => rfl
  | succ n ih => rw [leBytes, List.length_cons, ih]

/-- Bytes written and read back give the number, as far as the bytes hold it. -/
theorem leNat_leBytes (n v : Nat) : leNat (leBytes n v) = v % 256 ^ n := by
  induction n generalizing v with
  | zero => simp [leBytes, leNat, Nat.mod_one]
  | succ n ih =>
    rw [leBytes, leNat, ih, BitVec.toNat_ofNat, pow_succ' 256]
    exact Nat.mod_mul.symm

/-- Byte `q` of a number holds its bits from `8·q` on. -/
theorem toNat_getD_leBytes {n q : Nat} (v : Nat) (hq : q < n) : ((leBytes n v).getD q 0).toNat = v / 2 ^ (8 * q) % 256 := by
  induction n generalizing v q with
  | zero => omega
  | succ n ih =>
    cases q with
    | zero => simp [leBytes]
    | succ q =>
      have hp : (2 : Nat) ^ (8 * (q + 1)) = 256 * 2 ^ (8 * q) := by rw [Nat.mul_add, pow_add, Nat.mul_comm]; rfl
      rw [leBytes, List.getD_cons_succ, ih _ (by omega), hp, Nat.div_div_eq_div_mul]

/-- Bit `k` of a number that the bytes hold stands in bit `k mod 8` of byte `k div 8`. -/
theorem testBit_leBytes {n v : Nat} (hv : v < 256 ^ n) (k : Nat) :
    ((leBytes n v).getD (k / 8) 0).toNat.testBit (k % 8) = v.testBit k := by
  by_cases hq : k / 8 < n
  · have hk : 8 * (k / 8) + k % 8 = k := by omega
    have h8 : k % 8 < 8 := by omega
    rw [toNat_getD_leBytes v hq, show 256 = 2 ^ 8 from rfl, Nat.testBit_mod_two_pow, Nat.testBit_div_two_pow, Nat.add_comm, hk]
    simp [h8]
  · have hlt : v < 2 ^ k := lt_of_lt_of_le hv (by
      rw [show 256 = 2 ^ 8 from rfl, ← pow_mul]
      exact Nat.pow_le_pow_right (by omega) (by omega))
    rw [Nat.testBit_lt_two_pow hlt, List.getD_eq_default _ _ (by simp; omega)]
    simp

/-! ### The number a packed array stands for -/

/-- The bit stream of a packed array as a number. -/
def packNum (w : Nat) (l : List Nat) : Nat := l.zipIdx.foldl (fun n f => n + (f.1 % 2 ^ w) <<< (f.2 * w)) 0

theorem packBits_eq (w : Nat) (l : List Nat) : packBits w l = leBytes (ceilDiv (l.length * w) 8) (packNum w l) := rfl

/-- One more field goes above those before it. -/
theorem packNum_append (w : Nat) (l : List Nat) (f : Nat) :
    packNum w (l ++ [f]) = packNum w l + (f % 2 ^ w) <<< (l.length * w) := by
  simp [packNum, List.zipIdx_append]

theorem packNum_lt (w : Nat) (l : List Nat) : packNum w l < 2 ^ (l.length * w) := by
  induction l using List.reverseRecOn with
  | nil => simp [packNum]
  | append_singleton l f ih =>
    have hf : f % 2 ^ w + 1 ≤ 2 ^ w := Nat.mod_lt _ (by positivity)
    rw [packNum_append, Nat.shiftLeft_eq, List.length_append, List.length_singleton, Nat.add_mul, Nat.one_mul, pow_add]
    calc packNum w l + f % 2 ^ w * 2 ^ (l.length * w) < (f % 2 ^ w + 1) * 2 ^ (l.length * w) := by rw [Nat.add_mul]; omega
      _ ≤ 2 ^ w * 2 ^ (l.length * w) := Nat.mul_le_mul_right _ hf
      _ = _ := Nat.mul_comm _ _

/-- Bit `i` of field `j` stands at `j·w + i` of the stream. -/
theorem testBit_packNum {w : Nat} (l : List Nat) {j i : Nat} (hj : j < l.length) (hi : i < w) :
    (packNum w l).testBit (j * w + i) = l[j].testBit i := by
  induction l using List.reverseRecOn with
  | nil => exact absurd hj (Nat.not_lt_zero _)
  | append_singleton l f ih =>
    rw [packNum_append, Nat.add_comm, Nat.shiftLeft_add_eq_or_of_lt (packNum_lt w l), Nat.testBit_or, Nat.testBit_shiftLeft]
    by_cases h : j < l.length
    · have below : j * w + i < l.length * w := calc
        j * w + i < (j + 1) * w := by rw [Nat.add_mul]; omega
        _ ≤ l.length * w := Nat.mul_le_mul_right _ h
      rw [List.getElem_append_left h, ih h, decide_eq_false (by omega), Bool.false_and, Bool.false_or]
    · obtain rfl : j = l.length := by simp at hj; omega
      rw [Nat.testBit_lt_two_pow (lt_of_lt_of_le (packNum_lt w l) (Nat.pow_le_pow_right (by omega) (by omega))),
        decide_eq_true (by omega), Nat.add_sub_cancel_left, Nat.testBit_mod_two_pow]
      simp [hi]

/-- The bytes of a packed array hold its whole stream. -/
theorem packNum_lt_bytes (w : Nat) (l : List Nat) : packNum w l < 256 ^ ceilDiv (l.length * w) 8 := by
  refine lt_of_lt_of_le (packNum_lt w l) ?_
  rw [show 256 = 2 ^ 8 from rfl, ← pow_mul]
  exact Nat.pow_le_pow_right (by omega) (by unfold ceilDiv; omega)

theorem testBit_packBits (w : Nat) (l : List Nat) (k : Nat) :
    ((packBits w l).getD (k / 8) 0).toNat.testBit (k % 8) = (packNum w l).testBit k :=
  testBit_leBytes (packNum_lt_bytes w l) k

theorem leNat_packBits (w : Nat) (l : List Nat) : leNat (packBits w l) = packNum w l := by
  rw [packBits_eq, leNat_leBytes, Nat.mod_eq_of_lt (packNum_lt_bytes w l)]

/-! ### Reading a packed array -/

theorem testBit_packedAt (n w j i : Nat) : (packedAt n w j).testBit i = (decide (i < w) && n.testBit (j * w + i)) := by
  rw [packedAt, Nat.testBit_mod_two_pow, Nat.testBit_shiftRight]

theorem packedAt_packNum {w : Nat} {l : List Nat} (hl : ∀ f ∈ l, f < 2 ^ w) {j : Nat} (hj : j < l.length) :
    packedAt (packNum w l) w j = l[j] := by
  apply Nat.eq_of_testBit_eq
  intro i
  rw [testBit_packedAt]
  by_cases hi : i < w
  · rw [testBit_packNum l hj hi, decide_eq_true hi, Bool.true_and]
  · have hlt : l[j] < 2 ^ i := lt_of_lt_of_le (hl _ (List.getElem_mem hj)) (Nat.pow_le_pow_right (by omega) (by omega))
    rw [Nat.testBit_lt_two_pow hlt, decide_eq_false hi, Bool.false_and]

theorem unpack_packBits {w : Nat} {l : List Nat} (hl : ∀ f ∈ l, f < 2 ^ w) : unpack (packBits w l) w l.length = l := by
  refine List.ext_getElem (by simp [unpack]) fun j _ hj => ?_
  simp only [unpack, leNat_packBits, List.getElem_map, List.getElem_range]
  exact packedAt_packNum hl hj

/-- Fields of no bits take no byte and read as 0. -/
theorem unpack_no_bits (n : Nat) : unpack [] 0 n = List.replicate n 0 := by
  simp [unpack, List.eq_replicate_iff, packedAt, Nat.mod_one]

/-- Settles O11: the bytes are those of one number, built from the right of the array a field at a time. -/
theorem packedArraysHoldTheirFields : Obligations.PackedArraysHoldTheirFields := by
  unfold Obligations.PackedArraysHoldTheirFields
  intro w l hl
  refine ⟨?length, ?fields, ?above, unpack_packBits hl, ?noBits⟩
  case length => rw [packBits_eq, length_leBytes]; rfl
  case fields =>
    intro j i hj hi
    rw [testBit_packBits, testBit_packNum l hj hi]
  case above =>
    intro k hk
    rw [testBit_packBits, Nat.testBit_lt_two_pow (lt_of_lt_of_le (packNum_lt w l) (Nat.pow_le_pow_right (by omega) hk))]
  case noBits =>
    rintro rfl
    exact ⟨by rw [packBits_eq, Nat.mul_zero]; rfl, unpack_no_bits⟩

end Sys2Proof.Machine
end

section
/-! PROOFS. Which registers a read of memory leaves alone: all but those of the memory channels and CXL ports. -/

namespace Sys2Proof.Machine
open Sys2Proof

/-- Register `o` is none that a read of memory can write: those of a memory channel or a CXL port lie in the first 4 KiB of
their block of 1 MiB. -/
def BeyondMemRegs (o : Nat) : Prop := 0x1000 ≤ o % 0x100000

theorem BeyondMemRegs.ne {o p : Nat} (ho : BeyondMemRegs o) (hp : p % 0x100000 < 0x1000) : o ≠ p := by
  rintro rfl
  exact absurd hp (Nat.not_lt_of_le ho)

theorem regs_queueWrite (s : State) (w : WqEntry) : (s.queueWrite w).regs = s.regs := by
  unfold State.queueWrite
  split
  · split <;> rfl
  · rfl

theorem regs_checkAcc (s : State) (who : Ident) (pa : Nat) (write : Bool) : (s.checkAcc who pa write).2.regs = s.regs := by
  unfold State.checkAcc
  split_ifs <;> rfl

theorem rdW_ite {o : Nat} {r : Word} {c : Prop} [Decidable c] {t u : State} (ht : t.rdW o = r) (hu : u.rdW o = r) :
    (if c then t else u).rdW o = r := by
  split_ifs <;> assumption

theorem rdW_logged {o : Nat} {r : Word} {c : Prop} [Decidable c] {t : State} {ty : Nat} {data : List Byte} (h : t.rdW o = r) :
    (if c then t.logNow ty data else t).rdW o = r := rdW_ite ((rdW_congr (regs_logNow t ty data) o).trans h) h

theorem rdW_raise (s : State) (k o : Nat) : (s.raise k).rdW o = s.rdW o := rfl

theorem rdW_pmcAdd_other (s : State) (filt : Nat) {cnt o : Nat} (who : Option Ident) (n : Nat) (h : o ≠ cnt) :
    (s.pmcAdd filt cnt who n).rdW o = s.rdW o := by
  unfold State.pmcAdd
  dsimp only
  split_ifs
  · rfl
  · exact rdW_wrW_other s _ h

theorem rdW_satF_other (s : State) {o p : Nat} (f : Fld) (n : Nat) (h : o ≠ p) : (s.satF p f n).rdW o = s.rdW o :=
  rdW_wr_other s f _ h

section
variable {o : Nat} (ho : BeyondMemRegs o)
include ho

theorem rdW_pmcMch (s : State) (m : Nat) {k : Nat} (who : Option Ident) (hk : k < 8) : (s.pmcMch m k who).rdW o = s.rdW o :=
  rdW_pmcAdd_other s _ _ _ (ho.ne (by simp only [Reg.MCH_PMC]; omega))

theorem rdW_pmcMem (s : State) (ln : Nat) {k kc : Nat} (who : Option Ident) (hk : k < 8) (hkc : kc < 8) :
    (s.pmcMem ln k kc who).rdW o = s.rdW o := by
  unfold State.pmcMem
  split
  · exact rdW_pmcAdd_other s _ _ _ (ho.ne (by simp only [Reg.PRT_PMC]; omega))
  · exact rdW_pmcMch ho s _ who hk
  · rfl

theorem rdW_wakeChannel (s : State) (m : Nat) : (s.wakeChannel m).rdW o = s.rdW o := by
  unfold State.wakeChannel
  split
  · exact (rdW_congr rfl o).trans (rdW_wr_other s F.MCH_STATUS_STATE 3 (ho.ne (by simp only [Reg.MCH_STATUS]; omega)))
  · rfl

/-- An error of a memory channel goes into the channel's own record. -/
theorem rdW_recordMem (s : State) (m : Nat) (ue : Bool) (src dev addr : Nat) :
    (s.recordMem m ue src dev addr).rdW o = s.rdW o := by
  have hinfo : o ≠ Reg.MCH_ERR_INFO m := ho.ne (by simp only [Reg.MCH_ERR_INFO]; omega)
  have haddr : o ≠ Reg.MCH_ERR_ADDR m := ho.ne (by simp only [Reg.MCH_ERR_ADDR]; omega)
  have fill (l : List (Fld × Nat)) (f : Fld) (v : Nat) :
      ((s.wrs (Reg.MCH_ERR_INFO m) l).wr (Reg.MCH_ERR_ADDR m) f v).rdW o = s.rdW o := by
    rw [rdW_wr_other _ _ _ haddr, rdW_wrs_other _ _ hinfo]
  unfold State.recordMem
  dsimp only
  rw [rdW_raise]
  exact rdW_ite (rdW_logged (fill _ _ _)) (rdW_ite (rdW_logged (fill _ _ _)) (rdW_wr_other s _ _ hinfo))

theorem rdW_readMemLine (s : State) (ln src : Nat) (who : Option Ident) : (s.readMemLine ln src who).2.rdW o = s.rdW o := by
  have hce (t : State) (m : Nat) (f : Fld) : (t.satF (Reg.MCH_CE_COUNT m) f 1).rdW o = t.rdW o :=
    rdW_satF_other t f 1 (ho.ne (by simp only [Reg.MCH_CE_COUNT]; omega))
  unfold State.readMemLine
  split
  · split <;> rfl
  · have counted : (if src = 2 then (s.wakeChannel (s.chanOf (128 * ln))).pmcMch (s.chanOf (128 * ln)) 3 none
        else if src = 3 then (s.wakeChannel (s.chanOf (128 * ln))).pmcMch (s.chanOf (128 * ln)) 2 who
        else s.wakeChannel (s.chanOf (128 * ln))).rdW o = s.rdW o := by
      have woken := rdW_wakeChannel ho s (s.chanOf (128 * ln))
      exact rdW_ite ((rdW_pmcMch ho _ _ _ (by decide)).trans woken)
        (rdW_ite ((rdW_pmcMch ho _ _ _ (by decide)).trans woken) woken)
    dsimp only
    generalize (if src = 2 then _ else _ : State) = c at counted ⊢
    split
    · exact counted
    · exact counted
    · dsimp only
      have recorded (dev addr : Nat) := (rdW_recordMem ho (c.satF (Reg.MCH_CE_COUNT (s.chanOf (128 * ln))) F.MCH_CE_COUNT_CE 1)
        (s.chanOf (128 * ln)) false src dev addr).trans ((hce c _ _).trans counted)
      exact rdW_ite (recorded _ _) ((rdW_congr (regs_queueWrite _ _) o).trans (recorded _ _))
    · rw [rdW_recordMem ho, hce, counted]

theorem rdW_readLineQ (s : State) (ln src : Nat) : (s.readLineQ ln src).2.rdW o = s.rdW o := by
  unfold State.readLineQ
  dsimp only
  split_ifs
  · rfl
  · split
    · dsimp only
      split_ifs
      · rfl
      · exact (rdW_congr rfl o).trans (rdW_readMemLine ho s ln 3 _)
    · exact rdW_readMemLine ho s ln src none

theorem rdW_lineNow (s : State) (who : Ident) (ln : Nat) : (s.lineNow who ln).2.rdW o = s.rdW o := by
  unfold State.lineNow
  split
  · rfl
  · exact (rdW_readLineQ ho _ ln 1).trans (rdW_pmcMem ho s ln _ (by decide) (by decide))

theorem rdW_readLine (s : State) (who : Ident) (ln : Nat) : (s.readLine who ln).2.2.rdW o = s.rdW o := by
  have checked : (s.checkAcc who (128 * ln) false).2.rdW o = s.rdW o := rdW_congr (regs_checkAcc s who _ _) o
  unfold State.readLine
  split
  next t e => exact (rdW_lineNow ho t who ln).trans (by rw [← checked, e])
  next e => rw [← checked, e]

theorem rdW_readGo (who : Ident) (f : Nat) (s : State) (pa n : Nat) : (s.readGo who f pa n).2.rdW o = s.rdW o := by
  induction f generalizing s pa n with
  | zero => rfl
  | succ f ih =>
    cases n with
    | zero => rfl
    | succ n =>
      have line := rdW_readLine ho s who (pa / 128)
      rw [State.readGo.eq_3 _ _ _ _ _ (Nat.succ_ne_zero n)]
      dsimp only
      split
      next t e => exact (ih t _ _).trans (by rw [← line, e])
      next e => rw [← line, e]

theorem rdW_readPa (s : State) (who : Ident) (pa n : Nat) : (s.readPa who pa n).2.rdW o = s.rdW o := rdW_readGo ho who _ s pa n

end

end Sys2Proof.Machine
end

section
/-! PROOFS. The progress of a data-mover channel: its programs, its waits and the pages it closes (07; O41). -/

namespace Sys2Proof.Machine
open Sys2Proof

/-! ### What the parts of a channel depend on -/

theorem chan_congr {s t : State} (h : t.dm = s.dm) (n : Nat) : t.chan n = s.chan n := by rw [State.chan, State.chan, h]

theorem chan_wr (s : State) (o : Nat) (f : Fld) (v n : Nat) : (s.wr o f v).chan n = s.chan n := rfl

theorem rd_setChan (s : State) (c : DmCh) (n o : Nat) (f : Fld) : (s.setChan n c).rd o f = s.rd o f := rfl

theorem dm_readPa (s : State) (who : Ident) (pa n : Nat) : (s.readPa who pa n).2.dm = s.dm := by
  simp only [kept @State.readPa_fr]

theorem dm_writePa (s : State) (who : Ident) (pa : Nat) (l : List Byte) : (s.writePa who pa l).2.dm = s.dm := by
  simp only [kept @State.writePa_fr]

theorem chan_of_readPa {s u : State} {who : Ident} {pa k : Nat} {r : RdRes} (h : s.readPa who pa k = (r, u)) (n : Nat) :
    u.chan n = s.chan n := by
  have hdm := dm_readPa s who pa k
  rw [h] at hdm
  exact chan_congr hdm n

theorem chan_of_writePa {s u : State} {who : Ident} {pa : Nat} {l : List Byte} {r : AccRes} (h : s.writePa who pa l = (r, u))
    (n : Nat) : u.chan n = s.chan n := by
  have hdm := dm_writePa s who pa l
  rw [h] at hdm
  exact chan_congr hdm n

theorem dm_chanBad (s : State) (n code addr : Nat) : (s.chanBad n code addr).dm = s.dm := by
  simp only [kept @State.chanBad_fr]

theorem mem_chanBad (s : State) (n code addr : Nat) : (s.chanBad n code addr).mem = s.mem := by
  simp only [kept @State.chanBad_fr]

theorem chanBad_if_frame (s : State) (n code addr : Nat) (c : Prop) [Decidable c] :
    (if c then s.chanBad n code addr else s).dm = s.dm ∧ (if c then s.chanBad n code addr else s).mem = s.mem := by
  split_ifs
  · exact ⟨dm_chanBad s n code addr, mem_chanBad s n code addr⟩
  · exact ⟨rfl, rfl⟩

theorem dm_chanMsi (s : State) (n : Nat) : (s.chanMsi n).dm = s.dm := by simp only [kept @State.chanMsi_fr]

theorem beyondMemRegs_dmStatus (n : Fin 32) : BeyondMemRegs (Reg.DM_STATUS n) := by
  unfold BeyondMemRegs
  simp only [Reg.DM_STATUS]
  omega

/-- Reading memory leaves a channel's status as it was. -/
theorem rd_dmStatus_readPa (s : State) (n : Fin 32) (who : Ident) (pa k : Nat) (f : Fld) :
    (s.readPa who pa k).2.rd (Reg.DM_STATUS n) f = s.rd (Reg.DM_STATUS n) f := by
  rw [State.rd, State.rd, rdW_readPa (beyondMemRegs_dmStatus n)]

/-- An MSI of a channel writes no register but the record of a violation. -/
theorem rdW_chanMsi_other (s : State) (n : Nat) {o : Nat} (h : o ≠ Reg.ISO_VIOL) : (s.chanMsi n).rdW o = s.rdW o := by
  have sent (who : Ident) (f e : Nat) : (s.msi who f e).rdW o = s.rdW o := by
    unfold State.msi
    split_ifs
    · rfl
    · rfl
    · rfl
    · exact rdW_viol_other s _ _ _ h
  unfold State.chanMsi State.msiTo
  dsimp only
  split_ifs
  · rfl
  · split
    · exact sent _ _ _
    · rfl
  · rfl

/-! ### Counting and recording a bad status (07 R222, R226) -/

section
variable (s : State) (n code addr : Nat)

/-- A bad status leaves DM_ERR valid. -/
theorem on_dmErr_chanBad : (s.chanBad n code addr).on (Reg.DM_ERR n) F.DM_ERR_VALID = true := by
  unfold State.chanBad
  dsimp only
  split
  case isTrue h => exact h
  case isFalse =>
    simp only [State.on, State.wrs, List.foldl_cons, List.foldl_nil, beq_iff_eq]
    rw [rd_wr_apart _ _ _ _ _ (by decide) (by decide), rd_wr_apart _ _ _ _ _ (by decide) (by decide),
      rd_wr_fits _ _ _ _ (by decide) (by decide) (by decide)]

/-- A bad status leaves the count of programs done. -/
theorem rd_done_chanBad : (s.chanBad n code addr).rd (Reg.DM_STATUS n) F.DM_STATUS_DONE =
    s.rd (Reg.DM_STATUS n) F.DM_STATUS_DONE := by
  have counted : (s.satF (Reg.DM_STATUS n) F.DM_STATUS_BAD 1).rd (Reg.DM_STATUS n) F.DM_STATUS_DONE =
      s.rd (Reg.DM_STATUS n) F.DM_STATUS_DONE := rd_wr_apart _ _ _ _ _ (by decide) (by decide)
  have other : Reg.DM_STATUS n ≠ Reg.DM_ERR n := by simp only [Reg.DM_STATUS, Reg.DM_ERR]; omega
  unfold State.chanBad
  dsimp only
  split
  · exact counted
  · rw [← counted, State.rd, rdW_wrs_other _ _ other, ← State.rd]

/-- Counting a program as done, modulo 2^32. -/
theorem rd_done_addF : (s.addF (Reg.DM_STATUS n) F.DM_STATUS_DONE 1).rd (Reg.DM_STATUS n) F.DM_STATUS_DONE =
    (s.rd (Reg.DM_STATUS n) F.DM_STATUS_DONE + 1) % 2 ^ 32 := rd_wr_same s _ F.DM_STATUS_DONE _ (by decide) (by decide)

theorem chanState_wr {k : Nat} (h : k < 4) : (s.wr (Reg.DM_STATUS n) F.DM_STATUS_STATE k).chanState n = k :=
  rd_wr_fits s _ F.DM_STATUS_STATE k (by decide) (by decide) h

theorem rd_done_wr_state (k : Nat) : (s.wr (Reg.DM_STATUS n) F.DM_STATUS_STATE k).rd (Reg.DM_STATUS n) F.DM_STATUS_DONE =
    s.rd (Reg.DM_STATUS n) F.DM_STATUS_DONE := rd_wr_apart _ _ _ _ _ (by decide) (by decide)

end

/-! ### The end of an instruction (07 R226) -/

/-- A status that may be written: the channel's instruction ends, memory holds the status byte. -/
theorem dmStatus_written {s : State} {n code : Nat} (h : s.mayEnd n code) : ∃ (v : State) (bad : List Nat), v.dm = s.dm ∧
    v.mem = (s.statusWrite n code).2.mem ∧ s.dmStatus n code = v.setChan n { s.chan n with work := .none, badAt := bad } := by
  obtain ⟨-, fresh, written⟩ := h
  have hdm : (s.statusWrite n code).2.dm = s.dm := dm_writePa _ _ _ _
  obtain ⟨bdm, bmem⟩ := chanBad_if_frame (s.statusWrite n code).2 n code (s.chan n).pa (0x80 ≤ code)
  refine ⟨_, if 0x80 ≤ code && !false then (s.chan n).badAt ++ [(s.chan n).pc] else (s.chan n).badAt, bdm.trans hdm,
    bmem, ?_⟩
  unfold State.dmStatus
  dsimp only
  rw [fresh, if_neg Bool.false_ne_true, if_pos written, chan_congr (bdm.trans hdm)]

/-- A status that may be written ends the instruction, and the channel goes on with the next one. -/
theorem dmNext_ended {s : State} {n code : Nat} (h : s.mayEnd n code) : s.ended n code (s.dmNext n code) := by
  obtain ⟨v, bad, -, hmem, hv⟩ := dmStatus_written h
  have runs : (s.chan n).prog.isSome = true := h.1
  unfold State.dmNext
  dsimp only
  rw [hv, State.chan_setChan_same, if_pos runs, State.ended, State.chan_setChan_same]
  exact ⟨hmem, rfl, rfl⟩

/-! ### Starting a program (07 R222) -/

section
variable {s : State} {n : Fin 32} {a e : Nat} {r : RdRes} (idle : s.chanState n = 1)
  (due : s.rd (Reg.DM_STATUS n) F.DM_STATUS_DONE ≠ (s.chan n).start)
  (ha : a = s.rd (Reg.DM_TABLE n) F.DM_TABLE_BASE * 8 +
    8 * (s.rd (Reg.DM_STATUS n) F.DM_STATUS_DONE % 2 ^ s.rd (Reg.DM_TABLE n) F.DM_TABLE_SIZE_LOG2))
  (hr : (s.readPa (s.chanWho n) a 8).1 = r) (hok : r.res = .ok) (clean : r.poison = false) (he : leNat r.bytes = e)
include idle due ha hr hok clean he

/-- What the channel does with the entry it has read undamaged; `u` is the state after that read. -/
theorem execProgramTableEntry_read {u : State} (hu : u = (s.readPa (s.chanWho n) a 8).2) :
    execProgramTableEntry n s = if e % 16 != 0 || 2 ^ 52 ≤ e
      then .next ((u.chanBad n 0x84 a).addF (Reg.DM_STATUS n) F.DM_STATUS_DONE 1)
      else .next ((u.setChan n { u.chan n with
        prog := some e, pc := 0, loops := [], badAt := [], work := .none, ending := none }).wr
        (Reg.DM_STATUS n) F.DM_STATUS_STATE 2) := by
  have read : s.readPa (s.chanWho n) a 8 = (r, u) := Prod.ext hr hu.symm
  unfold execProgramTableEntry
  dsimp only
  rw [if_neg (by simp [idle, due]), ← ha, read]
  dsimp only
  rw [if_neg (by simp [hok]), if_neg (by simp [clean]), he]

theorem programTableEntry_starts (h16 : e % 16 = 0) (hlt : e < 2 ^ 52) : Completes (.programTableEntry n) s (fun t =>
    (t.chan n).prog = some e ∧ (t.chan n).pc = 0 ∧ (t.chan n).work = .none ∧ t.chanState n = 2) := by
  have run := execProgramTableEntry_read idle due ha hr hok clean he rfl
  rw [if_neg (by simpa [h16] using hlt)] at run
  refine completes_of_next run ?_
  rw [chan_wr, State.chan_setChan_same]
  exact ⟨rfl, rfl, rfl, chanState_wr _ n (by decide)⟩

theorem programTableEntry_refused (h : e % 16 ≠ 0 ∨ 2 ^ 52 ≤ e) : Completes (.programTableEntry n) s (fun t =>
    (t.chan n).prog = (s.chan n).prog ∧ t.on (Reg.DM_ERR n) F.DM_ERR_VALID = true ∧
    t.rd (Reg.DM_STATUS n) F.DM_STATUS_DONE = (s.rd (Reg.DM_STATUS n) F.DM_STATUS_DONE + 1) % 2 ^ 32) := by
  have run := execProgramTableEntry_read idle due ha hr hok clean he rfl
  rw [if_pos (by simpa using h)] at run
  have other : Reg.DM_ERR n ≠ Reg.DM_STATUS n := by simp only [Reg.DM_STATUS, Reg.DM_ERR]; omega
  refine completes_of_next run ⟨?_, ?_, ?_⟩
  · rw [State.addF, chan_wr, chan_congr (dm_chanBad _ _ _ _), chan_congr (dm_readPa _ _ _ _)]
  · rw [State.on, State.addF, rd_wr_other _ _ _ _ other]
    exact on_dmErr_chanBad _ _ _ _
  · rw [rd_done_addF, rd_done_chanBad, rd_dmStatus_readPa]

end

/-! ### Waiting for a memory word (07 R225) -/

/-- What a poll makes of a word it has read undamaged. -/
theorem execWaitPoll_read {s u : State} {n : Fin 32} {a v : Nat} {r : RdRes} (hw : (s.chan n).work = .wait a v)
    (hr : s.readPa (s.chanWho n) a 8 = (r, u)) (hok : r.res = .ok) (clean : r.poison = false) :
    execWaitPoll n s = .next (if (leAt r.bytes 0 4 + 2 ^ 32 - v) % 2 ^ 32 < 2 ^ 31 then u.dmNext n 1 else u) := by
  unfold execWaitPoll
  rw [hw]
  dsimp only
  rw [hr]
  dsimp only
  rw [if_neg (by simp [hok]), if_neg (by simp [clean])]

theorem execWaitTimeout_waiting {s : State} {n : Fin 32} {a v : Nat} (hw : (s.chan n).work = .wait a v) :
    execWaitTimeout n s = .next (s.dmNext n 0x87) := by
  unfold execWaitTimeout
  rw [hw]

/-! ### Closing a page (02 R57, 07 R230) -/

theorem execFooterWrite_written {s u : State} {n : Fin 32} {c : Closing}
    (hc : (s.chan n).closing.find? (fun c => !c.visible) = some c)
    (hw : s.writePa (s.chanWho n) (c.pa + 65408) c.footer = (.ok, u)) :
    execFooterWrite n s = .next (u.setChan n { u.chan n with
      closing := (u.chan n).closing.map (fun x => if x == c then { c with visible := true } else x) }) := by
  unfold execFooterWrite
  rw [hc]
  dsimp only
  rw [hw]
  rfl

theorem execEncodeBlockWriteBack_written {s u : State} {n : Fin 32} {c : Closing}
    (hc : (s.chan n).closing.find? (fun c => c.visible) = some c)
    (hw : s.writePa (s.chanWho n) (c.blk + 144) (leBytes 8 c.nextRow ++ leBytes 8 c.heapNext ++ leBytes 8 c.pages) = (.ok, u)) :
    execEncodeBlockWriteBack n s = .next (u.setChan n { u.chan n with closing := (u.chan n).closing.erase c }) := by
  unfold execEncodeBlockWriteBack
  rw [hc]
  dsimp only
  rw [hw]
  rfl

/-! ### The end of a program (07 R223, R225) -/

/-- The state in which a program that has ended leaves its channel, before the MSI. -/
def State.programFreed (s : State) (n : Nat) : State :=
  ((s.setChan n { s.chan n with prog := none, enc := none, loops := [], badAt := [], ending := none }).addF (Reg.DM_STATUS n)
    F.DM_STATUS_DONE 1).wr (Reg.DM_STATUS n) F.DM_STATUS_STATE 1

theorem execProgramDone_drained {s : State} {n : Fin 32} {msi : Bool} (he : (s.chan n).ending = some msi)
    (hc : (s.chan n).closing = []) :
    execProgramDone n s = .next (if msi then (s.programFreed n).chanMsi n else s.programFreed n) := by
  unfold execProgramDone
  rw [he]
  dsimp only
  rw [if_neg (by simp [State.chanDrained, hc])]
  rfl

theorem execProgramDone_closing {s : State} {n : Fin 32} (hc : (s.chan n).closing ≠ []) : execProgramDone n s = .next s := by
  unfold execProgramDone
  split
  · rfl
  · rw [if_pos (by simpa [State.chanDrained] using hc)]

theorem chan_programFreed (s : State) (n : Nat) : (s.programFreed n).chan n =
    { s.chan n with prog := none, enc := none, loops := [], badAt := [], ending := none } := by
  rw [State.programFreed, chan_wr, State.addF, chan_wr, State.chan_setChan_same]

theorem chanState_programFreed (s : State) (n : Nat) : (s.programFreed n).chanState n = 1 := by
  rw [State.programFreed, chanState_wr _ n (by decide)]

theorem rd_done_programFreed (s : State) (n : Nat) : (s.programFreed n).rd (Reg.DM_STATUS n) F.DM_STATUS_DONE =
    (s.rd (Reg.DM_STATUS n) F.DM_STATUS_DONE + 1) % 2 ^ 32 := by
  rw [State.programFreed, rd_done_wr_state, rd_done_addF, rd_setChan]

/-- The MSI changes nothing of the channel and its status. -/
theorem programDone_effect (s : State) (n : Fin 32) (msi : Bool) (t : State)
    (ht : t = if msi then (s.programFreed n).chanMsi n else s.programFreed n) :
    (t.chan n).prog = none ∧ (t.chan n).ending = none ∧ t.chanState n = 1 ∧
    t.rd (Reg.DM_STATUS n) F.DM_STATUS_DONE = (s.rd (Reg.DM_STATUS n) F.DM_STATUS_DONE + 1) % 2 ^ 32 := by
  have other : Reg.DM_STATUS n ≠ Reg.ISO_VIOL := by simp only [Reg.DM_STATUS, Reg.ISO_VIOL]; omega
  have same : t.chan n = (s.programFreed n).chan n ∧
      ∀ f, t.rd (Reg.DM_STATUS n) f = (s.programFreed n).rd (Reg.DM_STATUS n) f := by
    rw [ht]
    split_ifs
    · exact ⟨chan_congr (dm_chanMsi _ _) n, fun f => by rw [State.rd, rdW_chanMsi_other _ _ other, ← State.rd]⟩
    · exact ⟨rfl, fun _ => rfl⟩
  have state : t.chanState n = 1 := (same.2 F.DM_STATUS_STATE).trans (chanState_programFreed s n)
  rw [same.1, chan_programFreed]
  exact ⟨rfl, rfl, state, (same.2 F.DM_STATUS_DONE).trans (rd_done_programFreed s n)⟩

theorem execChannelDrainDone_drained {s : State} {n : Fin 32} (hv : s.on (Reg.DM_CFG n) F.DM_CFG_VALID = false)
    (hs : s.chanState n = 2) (hc : (s.chan n).closing = []) :
    execChannelDrainDone n s = .next (s.wr (Reg.DM_STATUS n) F.DM_STATUS_STATE 0) := by
  unfold execChannelDrainDone
  rw [if_pos (by simp [hv, hs, State.chanDrained, hc])]

/-- Settles O41: each command has an equation for the case the statement speaks of. -/
theorem channelProgressComplete : Obligations.ChannelProgressComplete := by
  unfold Obligations.ChannelProgressComplete
  refine ⟨?start, ?refuse, ?reached, ?polls, ?timeout, ?footer, ?block, ?done, ?waits, ?drained⟩
  case start =>
    intro s n a e r idle due ha hr hok clean he h16 hlt
    exact programTableEntry_starts idle due ha hr hok clean he h16 hlt
  case refuse =>
    intro s n a e r idle due ha hr hok clean he h
    exact programTableEntry_refused idle due ha hr hok clean he h
  case reached =>
    intro s n a v r u hw hr hok clean h may
    have run := execWaitPoll_read hw hr hok clean
    rw [if_pos h] at run
    exact completes_of_next run (dmNext_ended may)
  case polls =>
    intro s n a v r u hw hr hok clean h
    have run := execWaitPoll_read hw hr hok clean
    rw [if_neg (Nat.not_lt_of_le h)] at run
    exact completes_of_next run ⟨chan_of_readPa hr n, rfl⟩
  case timeout =>
    intro s n a v hw may
    exact completes_of_next (execWaitTimeout_waiting hw) (dmNext_ended may)
  case footer =>
    intro s n c u hc hw
    have kept : u.chan n = s.chan n := chan_of_writePa hw n
    refine completes_of_next (execFooterWrite_written hc hw) ⟨rfl, ?_⟩
    rw [State.chan_setChan_same, kept]
  case block =>
    intro s n c u hc hw
    have kept : u.chan n = s.chan n := chan_of_writePa hw n
    refine completes_of_next (execEncodeBlockWriteBack_written hc hw) ⟨rfl, ?_⟩
    rw [State.chan_setChan_same, kept]
  case done =>
    intro s n msi he hc
    exact completes_of_next (execProgramDone_drained he hc) (programDone_effect s n msi _ rfl)
  case waits =>
    intro s n _ hc
    exact completes_of_next (execProgramDone_closing hc) rfl
  case drained =>
    intro s n hv hs hc
    exact completes_of_next (execChannelDrainDone_drained hv hs hc) ⟨chanState_wr _ n (by decide), rfl⟩

end Sys2Proof.Machine
end

section
/-! PROOFS. A scan front's check of a line whose home is fenced (03 R82, 11 R326): the counterexample to O37. -/

namespace Sys2Proof.Machine
open Sys2Proof

/-! ### A fenced home gives the scan front no bytes -/

/-- A fenced home reads no line for anyone: the answer is DOMAIN_OFF, which is logged (11 R326). -/
theorem readLine_of_fenced {s : State} {ln : Nat} (who : Ident) (hmem : s.isMem (128 * ln) = true)
    (hoff : s.fenced (s.homeAt ln) 0 = true) :
    s.readLine who ln = (.off, ⟨zeroLine, false⟩, s.logFw who (128 * ln) false) := by
  have home : 128 * ln / 128 = ln := Nat.mul_div_cancel_left ln (by decide)
  have refused : s.checkAcc who (128 * ln) false = (.off, s.logFw who (128 * ln) false) := by
    unfold State.checkAcc
    rw [if_neg (by simp [hmem]), if_pos (by rw [home]; exact hoff)]
  unfold State.readLine
  rw [refused]

/-- An error of a task leaves the pages in flight as they are. -/
theorem pages_failTask (s : State) (n status addr uop : Nat) : (s.failTask n status addr uop).eng.pages = s.eng.pages := by
  unfold State.failTask
  dsimp only
  split <;> rfl

/-- The check of a line whose home is fenced, and lies at the front's own stop, ends the task and gives the page nothing. -/
theorem pages_scanCheck_of_fenced {s : State} {n ln : Nat} {q : PageBuf} {x : Task} (hx : (s.slice n).task = some x)
    (near : s.homeStop (128 * ln) = s.servingStop q.pa) (hmem : s.isMem (128 * ln) = true)
    (hoff : s.fenced (s.homeAt ln) 0 = true) :
    (s.scanCheck n ln q).eng.pages = s.eng.pages := by
  unfold State.scanCheck
  rw [hx]
  dsimp only
  rw [if_neg (by simp [near]), readLine_of_fenced _ hmem hoff]
  exact pages_failTask _ _ _ _ _

theorem exec_scanCheck_of_page {s : State} {n : Fin 36} {ln : Nat} {q : PageBuf}
    (hq : s.eng.pages.find? (fun b => b.slice == n.val && b.opened && b.ready.isNone && decide (b.pa / 128 ≤ ln) &&
      decide (ln < b.pa / 128 + 512)) = some q) : exec (.scanCheck n ln) s = .next (s.scanCheck n ln q) := by
  show execScanCheck n ln s = _
  unfold execScanCheck
  rw [hq]

/-! ### The counterexample -/

/-- DRAM of 64 KiB, one region that partition 63 of the normal world, the identity of context 0, may read and write; home 3,
that of line 3, is fenced. -/
def fencedHome : State :=
  ((((State.reset.wrW Reg.MEM_MAP 0x10000).wrW (Reg.FW_BASE 0) 0x8000000000000000).wrW (Reg.FW_ATTR 0) 0x1FE0000000000000).wrW
    (Reg.CTX_CFG 0) 0xBF00000000000000).wr (Reg.RTR_FENCE 3) F.RTR_FENCE_AGENTS 1

/-- A task of context 0. -/
def fencedTask : Task := Task.start 1 0 0 0 0 (.unit 0)

/-- The page at address 0, which a scan front has taken for that task. -/
def fencedPage : PageBuf :=
  { slice := 0, task := 1, oper := 0, col := 0, page := 0, va := 0, pa := 0, opened := true, lines := [], ready := none }

/-- The task on slice 0, and its page being read, with the home of the page's line 3 fenced. -/
def fencedScan : State :=
  (fencedHome.setTask 0 fencedTask).eng' (fun e => { e with pages := [fencedPage] })

/-- Refutes O37: a SCAN_CHECK of a line that lies undamaged in DRAM, uncached and granted by the firewall, gives the scan front
no byte where the line's home is fenced; the task ends with an error (11 R326). -/
theorem not_scanFrontsComplete : ¬ Obligations.ScanFrontsComplete := by
  unfold Obligations.ScanFrontsComplete
  rintro ⟨-, check, -⟩
  have found : fencedScan.eng.pages.find? (fun b => b.slice == 0 && b.opened && b.ready.isNone &&
      decide (b.pa / 128 ≤ 3) && decide (3 < b.pa / 128 + 512)) = some fencedPage := by decide
  have task : (fencedScan.slice 0).task = some fencedTask := by decide
  have plain : fencedScan.plainLine (fencedScan.ctxIdent fencedTask.ctx) 3 false := by decide +kernel
  obtain ⟨t, ht, given⟩ := check fencedScan 0 3 fencedPage fencedTask found task plain
  have kept : t.eng.pages = fencedScan.eng.pages := by
    rw [exec_scanCheck_of_page (n := 0) found] at ht
    rw [← Host.Outcome.next.inj ht]
    exact pages_scanCheck_of_fenced task (by decide +kernel) (by decide +kernel) (by decide +kernel)
  have noLines : t.eng.pages.map (·.lines) = [[]] := by rw [kept]; rfl
  rw [given] at noLines
  simp [fencedScan, State.eng', fencedPage, PageBuf.same, Tab.ins] at noLines

end Sys2Proof.Machine
end

section
/-! PROOFS. Arithmetic of integers and decimals: division (03 R96; O12), rescaling and comparison (03 R101; O13). -/

namespace Sys2Proof.Machine
open Sys2Proof
-- One proof after another: elaborated side by side, the proofs of the one text pass the memory that the check allows.
set_option Elab.async false

/-! ### The range of an integer type -/

theorem toSigned_bounds {n : Nat} (hn : 0 < n) (v : Nat) :
    -(2 ^ (n - 1) : Int) ≤ toSigned n v ∧ toSigned n v ≤ 2 ^ (n - 1) - 1 := by
  obtain ⟨k, rfl⟩ : ∃ k, n = k + 1 := ⟨n - 1, by omega⟩
  have hv : v % 2 ^ (k + 1) < 2 ^ (k + 1) := Nat.mod_lt _ (by positivity)
  have hp : (2 : Int) ^ (k + 1) = 2 * 2 ^ k := by ring
  have hc : ((2 ^ k : Nat) : Int) = 2 ^ k := by push_cast; rfl
  rw [pow_succ] at hv
  simp only [toSigned, Nat.add_sub_cancel, hp]
  split <;> omega

/-- A signed integer type reaches one further below zero than above. -/
theorem Ty.lo_signed {t : Ty} (h : t.cls = 2) : t.lo = -t.hi - 1 ∧ 0 ≤ t.hi := by
  cases t <;> simp_all [Ty.cls, Ty.lo, Ty.hi, Ty.isDec, Ty.isSigned, Ty.width]

theorem Ty.lo_unsigned {t : Ty} (h : t.cls = 3) : t.lo = 0 := by
  cases t <;> simp_all [Ty.cls, Ty.lo, Ty.isDec, Ty.isSigned]

theorem Ty.int_range {t : Ty} (h : t.cls = 2 ∨ t.cls = 3) (v : Nat) : t.lo ≤ t.int v ∧ t.int v ≤ t.hi := by
  have hd : t.isDec = false := by unfold Ty.isDec; rcases h with h | h <;> rw [h] <;> rfl
  have hw : 0 < t.width := by cases t <;> decide
  simp only [Ty.lo, Ty.hi, Ty.int, hd, Bool.false_eq_true, if_false]
  split
  · exact toSigned_bounds (by omega) v
  · have hv : v % 2 ^ (8 * t.width) < 2 ^ (8 * t.width) := Nat.mod_lt _ (by positivity)
    have hc : ((2 ^ (8 * t.width) : Nat) : Int) = 2 ^ (8 * t.width) := by push_cast; rfl
    omega

/-! ### Quotients -/

/-- A quotient by −1 is the only one that can leave a range that reaches one further below zero than above. -/
theorem tdiv_in_signed_range {x y h : Int} (hy : y ≠ 0) (h0 : 0 ≤ h) (hx : -h - 1 ≤ x ∧ x ≤ h) :
    (-h - 1 ≤ x.tdiv y ∧ x.tdiv y ≤ h) ∨ (x = -h - 1 ∧ y = -1) := by
  have hq : (x.tdiv y).natAbs = x.natAbs / y.natAbs := Int.natAbs_tdiv x y
  rcases (by omega : y = 1 ∨ y = -1 ∨ 2 ≤ y.natAbs) with rfl | rfl | h2
  · left; simpa using hx
  · rw [Int.tdiv_neg, Int.tdiv_one]; omega
  · have : x.natAbs / y.natAbs ≤ x.natAbs / 2 := Nat.div_le_div_left h2 (by omega)
    left; omega

theorem tdiv_in_unsigned_range {x y h : Int} (hy : 0 ≤ y) (hx : 0 ≤ x ∧ x ≤ h) : 0 ≤ x.tdiv y ∧ x.tdiv y ≤ h :=
  ⟨Int.tdiv_nonneg hx.1 hy, (Int.tdiv_le_self y hx.1).trans hx.2⟩

theorem tmod_nonpos {x : Int} (y : Int) (hx : x ≤ 0) : x.tmod y ≤ 0 := by
  have h := Int.tmod_nonneg y (Int.neg_nonneg.2 hx)
  rw [Int.neg_tmod] at h
  omega

/-- A quotient the type of its operands does not hold is that of the least value of a signed type and −1. -/
theorem Ty.tdiv_out_of_range {t : Ty} (ht : t.cls = 2 ∨ t.cls = 3) {x y : Nat} (hy : t.int y ≠ 0)
    (h : ¬(t.lo ≤ (t.int x).tdiv (t.int y) ∧ (t.int x).tdiv (t.int y) ≤ t.hi)) :
    t.cls = 2 ∧ t.int x = t.lo ∧ t.int y = -1 ∧ t.hi < (t.int x).tdiv (t.int y) := by
  have hx := t.int_range ht x
  have hv := t.int_range ht y
  rcases ht with ht | ht
  · obtain ⟨hlo, hhi⟩ := Ty.lo_signed ht
    rw [hlo] at hx h ⊢
    obtain hin | ⟨e, e1⟩ := tdiv_in_signed_range hy hhi hx
    · exact absurd hin h
    · refine ⟨ht, e, e1, ?_⟩
      rw [e, e1, Int.tdiv_neg, Int.tdiv_one]
      omega
  · rw [Ty.lo_unsigned ht] at hx hv h
    exact absurd (tdiv_in_unsigned_range hv.1 hx) h

/-! ### DIV and MOD on a row of integers -/

section
variable {u : UOp} {a : Decl} (b c d : Decl) (rn : Nat) {x y : Cell} (z : Cell)
  (ht : a.ty.cls = 2 ∨ a.ty.cls = 3) (h0 : a.ty.int y.v ≠ 0)
include ht h0

theorem isZeroDiv_int : isZeroDiv a.ty y.v = false := by
  have : a.ty.cls ≠ 4 := by omega
  simp [isZeroDiv, this, h0]

variable (hx : x.ok = true) (hy : y.ok = true)
include hx hy

theorem evalRow_div_int (h : u.op = 0x23) : evalRow u a b c d rn x y z =
    (fitInt a.ty u.ovf ((a.ty.int x.v).tdiv (a.ty.int y.v))).map Cell.of := by
  have hd : divOp u.ovf a b d x.v y.v = fitInt a.ty u.ovf ((a.ty.int x.v).tdiv (a.ty.int y.v)) := by
    rcases ht with ht | ht <;> simp only [divOp, ht]
  simp [evalRow, evalValid, h, hx, hy, uopReads, isZeroDiv_int ht h0, hd]

theorem evalRow_mod_int (h : u.op = 0x24) : evalRow u a b c d rn x y z =
    .ok (Cell.of (a.ty.pat ((a.ty.int x.v).tmod (a.ty.int y.v)))) := by
  simp [evalRow, evalValid, h, hx, hy, uopReads, isZeroDiv_int ht h0]

end

theorem fitInt_in_range {t : Ty} {i : Int} (ovf : Nat) (h : t.lo ≤ i ∧ i ≤ t.hi) : fitInt t ovf i = .ok (t.pat i) := if_pos h

theorem fitInt_above {t : Ty} {i : Int} (ovf : Nat) (hlo : t.lo ≤ t.hi) (h : t.hi < i) : fitInt t ovf i =
    if ovf = 0 then .error .overflow else .ok (t.pat (if ovf = 1 then t.hi else i)) := by
  have h1 : ¬(t.lo ≤ i ∧ i ≤ t.hi) := by omega
  have h2 : ¬ i < t.lo := by omega
  simp only [fitInt, h1, h2, if_false]
  (repeat' split) <;> rfl

/-- Settles O12: a quotient that the type does not hold is that of the least value of a signed type and −1; the remainder is
that of truncated division. -/
theorem integerDivision : Obligations.IntegerDivision := by
  unfold Obligations.IntegerDivision
  refine ⟨fun u v a b c d rn x y z hu hv ht hx hy h0 _ => ?_, fun u v b c d rn z hu hv => ?_⟩
  · have hdiv := evalRow_div_int b c d rn z ht h0 hx hy hu
    refine ⟨(a.ty.int x.v).tdiv (a.ty.int y.v), (a.ty.int x.v).tmod (a.ty.int y.v), (Int.tdiv_mul_add_tmod _ _).symm, ?_,
      fun h => Int.tmod_nonneg _ h, fun h => tmod_nonpos _ h, evalRow_mod_int b c d rn z ht h0 hx hy hv, fun h => ?_,
      fun h => ?_⟩
    · rw [Int.natAbs_tmod]
      exact Nat.mod_lt _ (by omega)
    · rw [hdiv, fitInt_in_range _ h]; rfl
    · obtain ⟨h2, hlo, hm, hq⟩ := Ty.tdiv_out_of_range ht h0 h
      have hr := (a.ty.int_range ht x.v).1.trans (a.ty.int_range ht x.v).2
      rw [hdiv, fitInt_above _ hr hq]
      exact ⟨h2, hlo, hm, fun e => by rw [e]; rfl, fun e => by rw [e]; rfl, fun e => by rw [e]; rfl⟩
  · have ht : (⟨.i8, 0⟩ : Decl).ty.cls = 2 ∨ (⟨.i8, 0⟩ : Decl).ty.cls = 3 := .inl rfl
    rw [evalRow_div_int b c d rn z ht (by decide) rfl rfl hu, evalRow_mod_int b c d rn z ht (by decide) rfl rfl hv,
      fitInt_in_range _ (by decide)]
    exact ⟨rfl, rfl⟩

/-! ### Decimals (03 R95, R101) -/

/-- Rounding half away from zero gives a nearest integer of the quotient, at a tie the one farther from zero. -/
theorem divHalfAway_nearest (c : Int) {m : Nat} (hm : 0 < m) : 2 * (divHalfAway c m * m - c).natAbs ≤ m ∧
    (2 * (divHalfAway c m * m - c).natAbs = m → c.natAbs ≤ (divHalfAway c m * m).natAbs) := by
  have hdm := Nat.div_add_mod (2 * c.natAbs + m) (2 * m)
  have hlt := Nat.mod_lt (2 * c.natAbs + m) (show 0 < 2 * m by omega)
  unfold divHalfAway
  generalize (2 * c.natAbs + m) / (2 * m) = q at hdm ⊢
  rw [Nat.mul_assoc, Nat.mul_comm m q] at hdm
  have hqm : (((q * m : Nat) : Int)) = q * m := Nat.cast_mul q m
  dsimp only
  split
  · rw [Int.neg_mul, ← hqm]; omega
  · rw [← hqm]; omega

theorem fitDec_in_range {t : Ty} {i : Int} (ovf : Nat) (h : t.lo ≤ i ∧ i ≤ t.hi) : fitDec t ovf i = .ok i := if_pos h

theorem fitDec_out_of_range {t : Ty} {i : Int} (ovf : Nat) (h : ¬(t.lo ≤ i ∧ i ≤ t.hi)) : fitDec t ovf i =
    if ovf = 0 then .error .overflow else .ok (if i < t.lo then t.lo else t.hi) := if_neg h

theorem rescale_up (t : Ty) (ovf : Nat) {sa sb : Nat} (h : sa ≤ sb) (c : Int) :
    rescale t ovf sa sb c = fitDec t ovf (c * 10 ^ (sb - sa)) := if_pos h

theorem rescale_down (t : Ty) (ovf : Nat) {sa sb : Nat} (h : sb < sa) (c : Int) :
    rescale t ovf sa sb c = fitDec t ovf (divHalfAway c (10 ^ (sa - sb))) := if_neg (by omega)

theorem cmpInt_eq_lt {x y : Int} : cmpInt x y = .lt ↔ x < y := by
  unfold cmpInt
  split <;> rename_i h
  · exact iff_of_true rfl h
  · split <;> exact iff_of_false nofun h

theorem cmpInt_eq_eq {x y : Int} : cmpInt x y = .eq ↔ x = y := by
  unfold cmpInt
  split <;> rename_i h
  · exact iff_of_false nofun (by omega)
  · split <;> rename_i h'
    · exact iff_of_false nofun (by omega)
    · exact iff_of_true rfl (by omega)

/-- Decimals compare at a common scale (03 R101). -/
theorem cmpVal_decimal {t : Ty} (h : t.isDec = true) (sa sb : Nat) (fold : Bool) (x y : Cell) :
    cmpVal t sa sb fold x y = cmpInt (t.int x.v * 10 ^ sb) (t.int y.v * 10 ^ sa) := by
  obtain rfl | rfl : t = .dec64 ∨ t = .dec128 := by cases t <;> simp_all [Ty.isDec, Ty.cls]
  · rfl
  · rfl

/-- Settles O13: a rescaled coefficient is exact upwards and the nearest one, ties away from zero, downwards. -/
theorem decimalRescale : Obligations.DecimalRescale := by
  unfold Obligations.DecimalRescale
  refine ⟨fun t ovf sa sb c h => ?_, fun t ovf sa sb c h => ?_, by decide, by decide, by decide, fun t sa sb fold x y h => ?_,
    by decide⟩
  · rw [rescale_up t ovf h]
    exact ⟨fitDec_in_range ovf, fitDec_out_of_range ovf⟩
  · obtain ⟨near, tie⟩ := divHalfAway_nearest c (m := 10 ^ (sa - sb)) (by positivity)
    rw [Nat.cast_pow, Nat.cast_ofNat] at near tie
    rw [rescale_down t ovf h]
    exact ⟨divHalfAway c (10 ^ (sa - sb)), near, tie, fitDec_in_range ovf, fitDec_out_of_range ovf⟩
  · rw [cmpVal_decimal h]
    exact ⟨cmpInt_eq_lt, cmpInt_eq_eq⟩

end Sys2Proof.Machine
end

section
/-! PROOFS. SCAN through a TLB entry of bad parity (03 R70): the counterexample to O36. -/

namespace Sys2Proof.Machine
open Sys2Proof
-- One proof after another: elaborated side by side, the proofs of the one text pass the memory that the check allows.
set_option Elab.async false

/-- The bytes of an image of one pipeline, of SCAN of one column and END: header, pipeline entry at 32, operators at 64. -/
def scanImage : List Byte :=
  fitB 32 (leBytes 7 0 ++ [1] ++ leBytes 8 0 ++ leBytes 4 32) ++ fitB 32 (leBytes 4 64 ++ [2]) ++
    leBytes 16 (1 * 2 ^ 120 + 1 * 2 ^ 80) ++ leBytes 16 (0x4F * 2 ^ 120)

/-- A run of that image, over a column of one row of I64 whose page lies at virtual address 0. -/
def scanRun : Run :=
  { slot := 0, mask := 1, cols := [fitB 64 ([1, 5, 0, 0, 0, 0, 0, 0] ++ leBytes 8 0 ++ leBytes 8 1)], outs := [], inBase := 0,
    inBytes := 0, outBase := 0, outBytes := 0, pipes := [], groups := [], heaps := [], inl := 0, rows := 0, partly := false,
    chunks := [], anchors := [], l0 := [], dests := [], xspill := [] }

/-- The descriptor of that run. -/
def scanDesc : Desc :=
  { ring := 0, seq := 0, ord := 0, ctx := 0, bytes := fitB 128 [1], begun := true, ready := true, fail := none, done := false,
    r0 := 0, r1 := 0, tag := 0, load := none, slot := some 0, run := some scanRun, targets := [], inp := [], outp := [],
    poison := false, stall := none }

/-- An entry for page 0 of translation set 0, readable and writable, whose parity bit is wrong. -/
def badEte : ETE := { set := 0, va := 0, k := 0, w := true, r := true, pa := 0, par := true }

/-- The driving task of that run. -/
def driveTask : Task := Task.start 0 0 0 0 0 (.unit 0)

/-- That task on slice 0, whose TLB holds the entry; the shared cache is empty. -/
def badTlb : State :=
  { State.reset with eng := { Eng.reset with
      slices := [(0, { Slice.reset with task := some driveTask, tlb := [(0, badEte)] })],
      images := [(0, some ⟨0, 0, scanImage, true⟩)], descs := [scanDesc] } }

/-- What the task's input operator sees. -/
def scanSeen : OpCtx := ⟨scanDesc, scanRun, imgOf scanImage, pipeIOf scanImage 32, opWOf scanImage 64⟩

/-- The entry covers the page and grants the read, but its parity is bad, so that a look-up takes it for a miss (03 R70). -/
theorem badEte_misses : findEte [(0, badEte)] 0 0 = some badEte ∧ badEte.r = true ∧ findTlb [(0, badEte)] 0 0 = none := by
  decide +kernel

/-- SCAN of a task with no batch is its pipeline's input operator. -/
theorem exec_scan_input {s : State} {n : Fin 36} {x : Task} (task : (s.slice n).task = some x) (batch : x.batch = none) :
    exec (.scan n) s = .next (s.inputDo n 1 (fun c x => if x.opened then pure () else startScan n c x)) := by
  show execScan n s = _
  unfold execScan
  rw [task]
  dsimp only
  rw [batch]
  rfl

/-- SCAN stalls on the miss and asks for no page. -/
theorem scan_badTlb_stalls :
    ((badTlb.inputDo 0 1 (fun c x => if x.opened then pure () else startScan 0 c x)).slice 0).task =
      some { driveTask with stall := some ⟨0, 0, false⟩ } := by decide +kernel

/-- Refutes O36: the statement looks the pages of a driving SCAN up in the slice's TLB whatever the parity of the entries, and
the model, after 03 R70, takes an entry of bad parity for a miss: SCAN stalls and does not open the scan. -/
theorem not_inputOperatorsComplete : ¬ Obligations.InputOperatorsComplete := by
  unfold Obligations.InputOperatorsComplete
  rintro ⟨scan, -⟩
  have stands : badTlb.inputsAt 0 1 driveTask scanSeen := by decide +kernel
  have readable : (scanSeen.scanPages driveTask).all (fun y => (badTlb.pageEte 0 driveTask y.2.1 y.2.2).any (fun e => e.r) &&
      decide (y.2.1.base + 65536 * y.2.2 < 2 ^ 57)) = true := by decide +kernel
  obtain ⟨t, ht, -, opened⟩ := scan badTlb 0 driveTask scanSeen stands rfl nofun readable
  have ⟨task, _⟩ := stands
  rw [exec_scan_input (n := 0) task rfl] at ht
  rw [← Host.Outcome.next.inj ht] at opened
  exact absurd (scan_badTlb_stalls.symm.trans opened) (by simp [driveTask, Task.start])

end Sys2Proof.Machine
end

section
/-! PROOFS. A step of a task on a slice whose column buffer is sound: how steps run one after another, what reading and writing
the buffer do there, and how an operator passes its batch on (03 R66 to R75). -/

namespace Sys2Proof.Machine
open Sys2Proof
-- One proof after another: elaborated side by side, the proofs of the one text pass the memory that the check allows.
set_option Elab.async false

/-! ### Running a step -/

section
variable {α β : Type} {s t u : State}

theorem run_bind_ok {x : EM α} {f : α → EM β} {a : α} (h : x.run s = (.ok a, t)) : (x >>= f).run s = (f a).run t := by
  have h' : x s = (.ok a, t) := h
  show ExceptT.bindCont f (x s).1 (x s).2 = _
  rw [h']
  rfl

theorem run_eq_of_parts {x : EM α} {a : α} (h : (x.run s).1.toOption = some a) (h' : (x.run s).2 = t) : x.run s = (.ok a, t) := by
  generalize x.run s = r at h h'
  obtain ⟨o, v⟩ := r
  cases o with
  | error e => exact absurd h nofun
  | ok b => exact congrArg₂ Prod.mk (congrArg Except.ok (Option.some.inj h)) h'

theorem run_get : (get : EM State).run s = (.ok s, s) := rfl

theorem run_doSt (f : State → State) : (doSt f : EM Unit).run s = (.ok (), f s) := rfl

theorem run_askSt (f : State → α × State) : (askSt f : EM α).run s = (.ok (f s).1, (f s).2) := rfl

theorem run_ensure {b : Bool} (h : b = true) (status addr : Nat) : (ensure b status addr).run s = (.ok (), s) := by
  subst h
  rfl

theorem run_mapM_pure {f : α → EM β} {g : α → β} {l : List α} (h : ∀ a ∈ l, (f a).run s = (.ok (g a), s)) :
    (l.mapM f).run s = (.ok (l.map g), s) := by
  rw [← List.mapM'_eq_mapM]
  induction l with
  | nil => rfl
  | cons a l ih =>
    rw [List.mapM'_cons, run_bind_ok (h a List.mem_cons_self), run_bind_ok (ih fun b hb => h b (List.mem_cons_of_mem _ hb))]
    rfl

/-- A step for each element of a list, of which only that for one element does anything. -/
theorem run_mapM_once {f : α → EM β} {p : α → Bool} {l : List α} {a : α} {v d : β} (hp : l.filter p = [a])
    (hoff : ∀ b r, p b = false → (f b).run r = (.ok d, r)) (hon : (f a).run s = (.ok v, t)) :
    (l.mapM f).run s = (.ok (l.map fun b => if p b then v else d), t) := by
  rw [← List.mapM'_eq_mapM]
  induction l with
  | nil => exact absurd hp nofun
  | cons b l ih =>
    rw [List.mapM'_cons]
    by_cases hb : p b
    · rw [List.filter_cons_of_pos hb] at hp
      obtain ⟨rfl, hl⟩ := List.cons.inj hp
      have off : ∀ c ∈ l, p c = false := fun c hc => by simpa using List.filter_eq_nil_iff.1 hl c hc
      have rest : (l.mapM' f).run t = (.ok (l.map fun b => if p b then v else d), t) := by
        rw [List.mapM'_eq_mapM]
        exact run_mapM_pure fun c hc => by rw [hoff c t (off c hc), off c hc]; rfl
      rw [run_bind_ok hon, run_bind_ok rest, List.map_cons, if_pos hb]
      rfl
    · rw [List.filter_cons_of_neg hb] at hp
      rw [run_bind_ok (hoff b s (by simpa using hb)), run_bind_ok (ih hp), List.map_cons, if_neg hb]
      rfl

end

/-! ### The engine's part of the state -/

theorem slice_congr {s t : State} (h : t.eng = s.eng) (n : Nat) : t.slice n = s.slice n := by rw [State.slice, State.slice, h]

theorem eng_pmcSlc (s : State) (n k : Nat) (who : Option Ident) (x : Nat) : (s.pmcSlc n k who x).eng = s.eng := by
  simp only [kept @State.pmcSlc_fr]

@[simp] theorem slice_pmcSlc (s : State) (n k : Nat) (who : Option Ident) (x m : Nat) :
    (s.pmcSlc n k who x).slice m = s.slice m := slice_congr (eng_pmcSlc s n k who x) m

@[simp] theorem slice_sealed (s : State) (n m : Nat) : (s.sealed n).slice m = s.slice m := rfl

@[simp] theorem slice_setTask_same (s : State) (n : Nat) (x : Task) : (s.setTask n x).slice n = { s.slice n with task := some x } :=
  State.slice_setSlice_same s n _

theorem cbSound_congr {s t : State} {n : Nat} (hb : (t.slice n).bad = (s.slice n).bad)
    (hr : t.rdW (Reg.SLC_CBFLIP n) = s.rdW (Reg.SLC_CBFLIP n)) (h : s.cbSound n) : t.cbSound n := by
  unfold State.cbSound State.on State.rd at h ⊢
  rwa [hb, hr]

theorem cbSound_pmcSlc {s : State} {n : Nat} (m : Nat) {k : Nat} (who : Option Ident) (x : Nat) (hk : k < 16) (h : s.cbSound n) :
    (s.pmcSlc m k who x).cbSound n :=
  cbSound_congr (by rw [slice_pmcSlc]) (rdW_pmcAdd_other s _ _ _ (by simp only [Reg.SLC_CBFLIP, Reg.SLC_PMC]; omega)) h

theorem cbSound_setTask {s : State} {n : Nat} (x : Task) (h : s.cbSound n) : (s.setTask n x).cbSound n :=
  cbSound_congr (s := s) (by rw [slice_setTask_same]) rfl h

/-! ### A sound column buffer (03 R66 to R69) -/

section
variable {s : State} {n : Nat}

theorem badLines_nil {x : Slice} (h : x.bad = []) (agg : Bool) : x.badLines agg = [] := by simp [Slice.badLines, h]

theorem run_cbRead (h : (s.slice n).bad = []) (ctx : Nat) (agg : Bool) (rs : List (Nat × Nat)) (uop : Nat) :
    (cbRead n ctx agg rs uop).run s = (.ok (), s) := by
  unfold cbRead
  rw [run_bind_ok run_get, badLines_nil h]
  rfl

theorem cbWrite_sound (h : s.cbSound n) (agg : Bool) (rs : List (Nat × Nat)) : s.cbWrite n agg rs = s := by
  obtain ⟨hbad, harm⟩ := h
  simp [State.cbWrite, badLines_nil hbad, harm]

/-- A write with no damaged line does what the write of the buffer does. -/
theorem run_cbStore_undamaged (h : (s.slice n).bad = []) (ctx : Nat) (agg : Bool) (rs : List (Nat × Nat)) (uop : Nat) :
    (cbStore n ctx agg rs uop).run s = (.ok (), s.cbWrite n agg rs) := by
  unfold cbStore
  rw [run_bind_ok run_get, badLines_nil h]
  split <;> rfl

theorem run_cbStore (h : s.cbSound n) (ctx : Nat) (agg : Bool) (rs : List (Nat × Nat)) (uop : Nat) :
    (cbStore n ctx agg rs uop).run s = (.ok (), s) := by
  rw [run_cbStore_undamaged h.1, cbWrite_sound h]

/-- A write of the buffer keeps what shows neither the slice's damaged lines nor its armed flip. -/
theorem cbWrite_keeps {β : Type} {g : State → β} (hbad : ∀ (s : State) (agg : Bool) (ln : Nat) (bits : List Nat),
      g (s.setBad n agg ln bits) = g s)
    (harm : ∀ s : State, g (s.wr (Reg.SLC_CBFLIP n) F.SLC_CBFLIP_ARM 0) = g s) (agg : Bool) (rs : List (Nat × Nat)) :
    g (s.cbWrite n agg rs) = g s := by
  have lines : ∀ l : List (Nat × List Nat), g (l.foldl (fun s e => if reachesWord rs e.1 then
      s.setBad n agg e.1 (if s.byWord n agg then [] else e.2.filter (fun b => !coversByte rs e.1 (b / 8))) else s) s) = g s := by
    refine fun l => foldl_keeps g _ (fun s e => ?_) l s
    split
    · exact hbad _ _ _ _
    · rfl
  unfold State.cbWrite
  dsimp only
  rw [apply_ite g]
  simp only [harm, hbad, lines, ite_self]

theorem slice_setBad (s : State) (agg : Bool) (ln : Nat) (bits : List Nat) : (s.setBad n agg ln bits).slice n =
    { s.slice n with bad := Tab.put [] (s.slice n).bad (badKey agg ln) bits } := State.slice_setSlice_same _ _ _

theorem task_cbWrite (agg : Bool) (rs : List (Nat × Nat)) : ((s.cbWrite n agg rs).slice n).task = (s.slice n).task :=
  cbWrite_keeps (g := fun s => (s.slice n).task) (fun s agg ln bits => by rw [slice_setBad]) (fun _ => rfl) agg rs

theorem run_readRegs (h : s.cbSound n) (c : OpCtx) (x : Task) : (readRegs n c x).run s = (.ok (), s) := run_cbRead h.1 _ _ _ _

theorem run_writeRegs (h : s.cbSound n) (c : OpCtx) (x : Task) (rs : List Nat) : (writeRegs n c x rs).run s = (.ok (), s) :=
  run_cbStore h _ _ _ _

theorem run_useArea (h : s.cbSound n) (c : OpCtx) (x : Task) (k size : Nat) : (useArea n c x k size).run s = (.ok (), s) := by
  unfold useArea
  exact (run_bind_ok (run_cbStore h _ _ _ _)).trans (run_cbRead h.1 _ _ _ _)

theorem run_setSel (h : s.cbSound n) (x : Task) (b : Batch) (f : Nat → Bool) : (setSel n x b f).run s =
    (.ok { b with sel := (List.range b.rows.length).map (fun i => nthD b.sel i false && f i) }, s) := by
  unfold setSel
  exact run_bind_ok (run_cbStore h _ _ _ _)

end

/-! ### The task within a step -/

section
variable {s : State} {n : Nat} {x : Task} (h : (s.slice n).task = some x)
include h

theorem run_updTask (f : Task → Task) : (updTask n f).run s = (.ok (), s.setTask n (f x)) := by
  unfold updTask
  rw [run_doSt, h]

theorem run_theTask (y : Task) : (theTask n y).run s = (.ok x, s) := by
  unfold theTask
  rw [run_bind_ok run_get, h]
  rfl

end

/-- A task's batch goes on to its next operator: what its requests gathered leaves (05 R160). -/
def State.passOn (s : State) (n : Nat) (x : Task) (b : Batch) : State :=
  (s.sealed n).setTask n { x with batch := some b, oper := x.oper + 1 }

@[simp] theorem slice_passOn (s : State) (n : Nat) (x : Task) (b : Batch) :
    (s.passOn n x b).slice n = { s.slice n with task := some { x with batch := some b, oper := x.oper + 1 } } :=
  slice_setTask_same _ _ _

theorem run_opDone {s : State} {n : Nat} {x : Task} (h : (s.slice n).task = some x) (b : Batch) :
    (opDone n b).run s = (.ok (), s.passOn n x b) := by
  unfold opDone
  exact (run_bind_ok (run_doSt _)).trans (run_updTask (s := s.sealed n) h _)

theorem taskDo_of_run {s t : State} {n : Nat} {m : Task → EM Unit} {x : Task} (task : (s.slice n).task = some x)
    (goes : s.taskGoes n x = true) (h : (m x).run s = (.ok (), t)) : s.taskDo n m = t := by
  unfold State.taskDo
  simp [task, goes, h]

/-- An operator of the batch on a task that stands before it does what its step does. -/
theorem taskOp_of_run {s t : State} {n opc : Nat} {x : Task} {b : Batch} {c : OpCtx} {f : OpCtx → Task → Batch → EM Unit}
    (st : s.standsAt n opc x b c) (h : (f c x b).run s = (.ok (), t)) : s.taskOp n opc f = t := by
  obtain ⟨task, -, goes, batch, -, fetching, -, ctx, code⟩ := st
  exact taskDo_of_run task goes (by simpa only [ctx, batch, code, fetching, and_self, if_true] using h)

/-- The command of a task's operator completes with the state that the operator's step leaves. -/
theorem completes_of_taskOp {i : Instr} {s t : State} {n opc : Nat} {x : Task} {b : Batch} {c : OpCtx}
    {f : OpCtx → Task → Batch → EM Unit} {P : State → Prop} (st : s.standsAt n opc x b c)
    (hi : exec i s = .next (s.taskOp n opc f)) (h : (f c x b).run s = (.ok (), t)) (hp : P t) : Completes i s P :=
  ⟨t, by rw [hi, taskOp_of_run st h], hp⟩

/-! ### Tables, descriptors and runs -/

theorem nthD_map_range {α : Type} {k i : Nat} (h : i < k) (f : Nat → α) (d : α) : nthD ((List.range k).map f) i d = f i := by
  simp [nthD, h]

/-- Changing every listed value of a table changes what it reads, where the default stays. -/
theorem Tab.get_mapV {α : Type} {d : α} {f : α → α} (hd : f d = d) (t : Tab α) (a : Nat) :
    Tab.get d (t.mapV f) a = f (Tab.get d t a) := by
  induction t with
  | nil => exact hd.symm
  | cons e t ih =>
    obtain ⟨k, v⟩ := e
    unfold Tab.get Tab.mapV at ih ⊢
    by_cases h : a = k
    · simp [Tab.look, h]
    · simpa [Tab.look, h] using ih

theorem desc_congr {s t : State} (h : t.eng = s.eng) (ring seq : Nat) : t.desc ring seq = s.desc ring seq := by
  rw [State.desc, State.desc, h]

theorem run_congr {s t : State} (h : t.eng = s.eng) (ring seq : Nat) : t.run ring seq = s.run ring seq := by
  rw [State.run, State.run, desc_congr h]

/-- Changing descriptors without their names changes the one found under a name. -/
theorem find_desc_map {g : Desc → Desc} (hg : ∀ d, (g d).ring = d.ring ∧ (g d).seq = d.seq) (l : List Desc) (ring seq : Nat) :
    (l.map g).find? (fun d => d.ring == ring && d.seq == seq) = (l.find? (fun d => d.ring == ring && d.seq == seq)).map g := by
  rw [List.find?_map]
  simp only [Function.comp_def, hg]

/-- A change of the descriptors of a name that keeps the name changes what is read under the name. -/
theorem desc_updDesc (s : State) {ring seq : Nat} {f : Desc → Desc}
    (hf : ∀ d, d.ring = ring → d.seq = seq → (f d).ring = ring ∧ (f d).seq = seq) :
    (s.updDesc ring seq f).desc ring seq = (s.desc ring seq).map f := by
  refine (find_desc_map (g := fun d => if d.ring == ring && d.seq == seq then f d else d) (fun d => ?_) _ _ _).trans ?_
  · split
    · rename_i h
      rw [Bool.and_eq_true, beq_iff_eq, beq_iff_eq] at h
      rw [h.1, h.2]
      exact hf d h.1 h.2
    · exact ⟨rfl, rfl⟩
  · refine Option.map_congr fun d hd => if_pos ?_
    exact List.find?_some (p := fun d : Desc => d.ring == ring && d.seq == seq) hd

theorem run_updRun (s : State) (ring seq : Nat) (f : Run → Run) :
    (s.updRun ring seq f).run ring seq = (s.run ring seq).map f := by
  unfold State.updRun State.run
  rw [desc_updDesc s (f := fun d => { d with run := d.run.map f }) fun _ h h' => ⟨h, h'⟩]
  cases s.desc ring seq <;> rfl

@[simp] theorem pipe_updPipe_same (r : Run) (j : Nat) (f : PipeSt → PipeSt) : (r.updPipe j f).pipe j = f (r.pipe j) :=
  Tab.get_put_same _ _ _ _

/-- What a task's step sees is of its own run. -/
theorem run_of_opCtx {s : State} {x : Task} {c : OpCtx} (h : s.opCtx x = some c) :
    s.desc x.ring x.seq = some c.d ∧ s.run x.ring x.seq = some c.r := by
  unfold State.opCtx at h
  cases hd : s.desc x.ring x.seq with
  | none => simp [hd] at h
  | some d =>
    cases hr : d.run with
    | none => simp [hd, hr] at h
    | some r =>
      simp only [hd, hr, Option.map_eq_some_iff] at h
      obtain ⟨o, _, rfl⟩ := h
      exact ⟨rfl, by rw [State.run, hd]; exact hr⟩

end Sys2Proof.Machine
end

section
/-! PROOFS. Three-valued logic and FILTER (03 R85, R87; O32). -/

namespace Sys2Proof.Machine
open Sys2Proof
-- One proof after another: elaborated side by side, the proofs of the one text pass the memory that the check allows.
set_option Elab.async false

/-! ### The truth of a cell -/

section
variable (z : Cell)

theorem isTrue_iff_truth : z.isTrue = (z.truth == some true) := by
  unfold Cell.isTrue Cell.truth
  cases z.ok <;> cases (z.v % 256 != 0) <;> rfl

theorem isFalse_iff_truth : z.isFalse = (z.truth == some false) := by
  have h : (z.v % 256 == 0) = !(z.v % 256 != 0) := by simp [bne]
  unfold Cell.isFalse Cell.truth
  rw [h]
  cases z.ok <;> cases (z.v % 256 != 0) <;> rfl

theorem truth_boolCell (b : Bool) : (boolCell b).truth = some b := by cases b <;> rfl

theorem truth_null : Cell.null.truth = none := rfl

end

/-! ### AND, OR, NOT and comparisons on a row -/

section
variable {u : UOp} (a b c d : Decl) (rn : Nat) (x y z : Cell)

theorem evalRow_and (h : u.op = 0x08) : evalRow u a b c d rn x y z =
    .ok (if x.isFalse || y.isFalse then boolCell false else if x.isTrue && y.isTrue then boolCell true else Cell.null) := by
  simp only [evalRow, h]

theorem evalRow_or (h : u.op = 0x09) : evalRow u a b c d rn x y z =
    .ok (if x.isTrue || y.isTrue then boolCell true else if x.isFalse && y.isFalse then boolCell false else Cell.null) := by
  simp only [evalRow, h]

theorem evalRow_not (h : u.op = 0x0A) : evalRow u a b c d rn x y z =
    .ok (if x.ok then boolCell x.isFalse else Cell.null) := by
  cases hx : x.ok <;> simp [evalRow, evalValid, uopReads, h, hx]

/-- A comparison with a null operand (03 R85). -/
theorem evalRow_comparison_null (h : 0x10 ≤ u.op) (h' : u.op ≤ 0x15) (hn : x.ok = false ∨ y.ok = false) :
    evalRow u a b c d rn x y z = .ok Cell.null := by
  have compares : u.op = 0x10 ∨ u.op = 0x11 ∨ u.op = 0x12 ∨ u.op = 0x13 ∨ u.op = 0x14 ∨ u.op = 0x15 := by omega
  rcases compares with e | e | e | e | e | e <;>
    rcases hn with hn | hn <;> simp [evalRow, uopReads, e, hn]

end

/-! ### FILTER -/

theorem run_opFilter {s : State} {n : Nat} {x : Task} {b q : Batch} {c : OpCtx} (task : (s.slice n).task = some x)
    (sound : s.cbSound n) (hq : (runRange n c x b).run s = (.ok q, s)) : (opFilter n c x b).run s = (.ok (), s.passOn n x
      { q with sel := (List.range q.rows.length).map (fun i =>
        nthD q.sel i false && ((q.cell c.o.a2 i).truth == some true)) }) := by
  unfold opFilter
  rw [run_bind_ok hq, run_bind_ok (run_readRegs sound c x), run_bind_ok (run_setSel sound x q _), run_opDone task]
  simp only [isTrue_iff_truth]

/-- Settles O32: the truth tables are read off the cells' truth; FILTER is one step on a sound column buffer. -/
theorem filterByThreeValuedLogic : Obligations.FilterByThreeValuedLogic := by
  unfold Obligations.FilterByThreeValuedLogic
  refine ⟨fun u v w a b c d rn x y z hu hv hw => ?_, fun u a b c d rn x y z h h' hn => ?_, fun s n x b c q st hq hs => ?_⟩
  · refine ⟨_, _, _, evalRow_and a b c d rn x y z hu, evalRow_or a b c d rn x y z hv, evalRow_not a b c d rn x y z hw,
      ?_, ?_, ?_⟩
    · simp only [isTrue_iff_truth, isFalse_iff_truth]
      rcases x.truth with _ | _ | _ <;> rcases y.truth with _ | _ | _ <;> rfl
    · simp only [isTrue_iff_truth, isFalse_iff_truth]
      rcases x.truth with _ | _ | _ <;> rcases y.truth with _ | _ | _ <;> rfl
    · cases hx : x.ok
      · simp [hx, Cell.null]
      · rw [if_pos rfl, truth_boolCell, isFalse_iff_truth]
        simp only [Cell.truth, hx, if_true]
        cases (x.v % 256 != 0) <;> rfl
  · exact ⟨_, evalRow_comparison_null a b c d rn x y z h h' hn, truth_null⟩
  · have ⟨task, sound, _⟩ := st
    exact completes_of_taskOp st rfl (run_opFilter task sound (run_eq_of_parts hq hs)) (by rw [slice_passOn])

end Sys2Proof.Machine
end

section
/-! PROOFS. The row operators on the batch they stand before: PROJECT, HASH, MATCH, LIMIT, TOPK and PARTITION (O33). -/

namespace Sys2Proof.Machine
open Sys2Proof
-- One proof after another: elaborated side by side, the proofs of the one text pass the memory that the check allows.
set_option Elab.async false

/-! ### PROJECT -/

theorem run_opProject {s : State} {n : Nat} {x : Task} {b q : Batch} {c : OpCtx} (task : (s.slice n).task = some x)
    (hq : (runRange n c x b).run s = (.ok q, s)) : (opProject n c x b).run s = (.ok (), s.passOn n x q) := by
  unfold opProject
  rw [run_bind_ok hq, run_opDone task]

/-! ### HASH (05 R153, R154) -/

section
variable {s : State} {n : Nat} {x : Task}

theorem run_wholeCell_short (y : Cell) (h : y.strLen ≤ 64) : (wholeCell n x y).run s = (.ok y, s) := by
  unfold wholeCell strOf
  rw [if_pos h]
  rfl

theorem run_wholeCell {t : State} {y : Cell} {l : List Byte} (h : (strOf n x y).run s = (.ok l, t)) :
    (wholeCell n x y).run s = (.ok { y with str := l }, t) := by
  unfold wholeCell
  exact run_bind_ok h

end

/-- The words of a key's cell, whose string is read whole. -/
def keyWords (n : Nat) (c : OpCtx) (x : Task) (b : Batch) (i : Nat) (k : Nat × Bool) : EM (List Nat) := do
  let ty := (c.p.reg k.1).ty
  let y := b.cell k.1 i
  let y ← if ty = .varstr && y.ok then wholeCell n x y else pure y
  return hashWords ty k.2 y

/-- The cell HASH gives a position. -/
def hashCell (n : Nat) (c : OpCtx) (x : Task) (b : Batch) (i : Nat) : EM Cell := do
  if !nthD b.sel i false then return Cell.null
  let ws ← (c.m.regList c.o.a0 c.o.a1).mapM (keyWords n c x b i)
  return Cell.of (hashKeys (c.o.a3 % 256) ws.flatten)

theorem opHash_eq (n : Nat) (c : OpCtx) (x : Task) (b : Batch) : opHash n c x b = (do
    readRegs n c x
    let cells ← (List.range b.rows.length).mapM (hashCell n c x b)
    writeRegs n c x [c.o.a2]
    opDone n (b.put c.o.a2 cells)) := rfl

section
variable {s : State} {n : Nat} {c : OpCtx} {x : Task} {b : Batch} {i : Nat}

theorem run_keyWords_short {k : Nat × Bool}
    (h : (c.p.reg k.1).ty ≠ .varstr ∨ (b.cell k.1 i).ok = false ∨ (b.cell k.1 i).strLen ≤ 64) :
    (keyWords n c x b i k).run s = (.ok (hashWords (c.p.reg k.1).ty k.2 (b.cell k.1 i)), s) := by
  unfold keyWords
  dsimp only
  split
  · rename_i e
    rw [Bool.and_eq_true, decide_eq_true_eq] at e
    exact run_bind_ok (run_wholeCell_short _ (by simpa [e.1, e.2] using h))
  · rfl

theorem run_keyWords_whole {t : State} {k : Nat × Bool} {l : List Byte} (hty : (c.p.reg k.1).ty = .varstr)
    (hok : (b.cell k.1 i).ok = true) (h : (strOf n x (b.cell k.1 i)).run s = (.ok l, t)) :
    (keyWords n c x b i k).run s = (.ok (hashWords .varstr k.2 { b.cell k.1 i with str := l }), t) := by
  unfold keyWords
  dsimp only
  rw [hty, if_pos (by simp [hok])]
  exact run_bind_ok (run_wholeCell h)

theorem run_hashCell_unselected (h : nthD b.sel i false = false) : (hashCell n c x b i).run s = (.ok Cell.null, s) := by
  unfold hashCell
  simp only [h, Bool.not_false, if_true]
  rfl

theorem run_hashCell_selected {t : State} {ws : List (List Nat)} (h : nthD b.sel i false = true)
    (hw : ((c.m.regList c.o.a0 c.o.a1).mapM (keyWords n c x b i)).run s = (.ok ws, t)) :
    (hashCell n c x b i).run s = (.ok (Cell.of (hashKeys (c.o.a3 % 256) ws.flatten)), t) := by
  unfold hashCell
  simp only [h, Bool.not_true, Bool.false_eq_true, if_false]
  exact run_bind_ok hw

theorem mem_selected : i ∈ b.selected ↔ i < b.rows.length ∧ nthD b.sel i false = true := by
  simp [Batch.selected, below]

end

section
variable {s : State} {n : Nat} {c : OpCtx} {x : Task} {b : Batch} (task : (s.slice n).task = some x) (sound : s.cbSound n)
include task sound

theorem run_opHash_short (h : (c.m.regList c.o.a0 c.o.a1).all (fun k => (c.p.reg k.1).ty != .varstr ||
      b.selected.all (fun i => !(b.cell k.1 i).ok || decide ((b.cell k.1 i).strLen ≤ 64))) = true) :
    (opHash n c x b).run s = (.ok (), s.passOn n x (b.put c.o.a2 ((List.range b.rows.length).map (fun i =>
      if nthD b.sel i false then Cell.of (hashKeys (c.o.a3 % 256) ((c.m.regList c.o.a0 c.o.a1).flatMap (fun k =>
        hashWords (c.p.reg k.1).ty k.2 (b.cell k.1 i)))) else Cell.null)))) := by
  rw [opHash_eq, run_bind_ok (run_readRegs sound c x)]
  refine (run_bind_ok (run_mapM_pure fun i hi => ?_)).trans ((run_bind_ok (run_writeRegs sound c x _)).trans (run_opDone task _))
  by_cases hsel : nthD b.sel i false = true
  · rw [if_pos hsel, List.flatMap_def]
    refine run_hashCell_selected hsel (run_mapM_pure fun k hk => run_keyWords_short ?_)
    have hk := List.all_eq_true.1 h k hk
    have hi := mem_selected.2 ⟨List.mem_range.1 hi, hsel⟩
    simp only [Bool.or_eq_true, bne_iff_ne, List.all_eq_true, Bool.not_eq_true', decide_eq_true_eq] at hk
    exact hk.imp_right fun hk => hk i hi
  · rw [if_neg hsel]
    exact run_hashCell_unselected (by simpa using hsel)

end

/-! ### Reading memory keeps a slice's task and its column buffer -/

/-- Reading virtual memory keeps what does not depend on the slices' TLBs. -/
theorem keepsM_xlate {β : Type} {g : State → β} (heng : ∀ s t : State, t.eng = s.eng → g t = g s)
    (htlb : ∀ (s : State) (m : Nat) (l : Tab ETE) (k : Nat), g (s.setSlice m { s.slice m with tlb := l, tlbPtr := k }) = g s)
    (a : Who) (va : Nat) (w : Bool) : KeepsM g (xlate a va w) := by
  have hl : ∀ (s : State) (p : Nat), g (s.lookupEte a p).2 = g s := by
    intro s p
    unfold State.lookupEte
    cases a.slice with
    | none => rfl
    | some m =>
      dsimp only
      split
      · rfl
      · split
        · exact (slice_pmcSlc s m 12 _ 1 m ▸ htlb (s.pmcSlc m 12 _ 1) m _ _).trans (heng _ _ (eng_pmcSlc ..))
        · exact heng _ _ (eng_pmcSlc ..)
  unfold xlate ensure fail
  refine keepsM_bind ?_ fun _ => keepsM_bind (askSt_keeps _ fun s => hl s _) fun r => ?_
  · split
    · exact keepsM_pure _ _
    · exact keepsM_throw _ _
  · cases r with
    | none => exact keepsM_throw _ _
    | some e =>
      dsimp only
      by_cases may : (if w = true then e.w else e.r) = true
      · rw [if_pos may]
        exact keepsM_pure _ _
      · rw [if_neg may]
        exact keepsM_throw _ _

theorem keepsM_of_eng {α β : Type} {g : State → β} {m : EM α} (heng : ∀ s t : State, t.eng = s.eng → g t = g s)
    (h : KeepsM State.eng m) : KeepsM g m := fun s => heng s _ (h s)

theorem keepsM_vread {β : Type} {g : State → β} (heng : ∀ s t : State, t.eng = s.eng → g t = g s)
    (htlb : ∀ (s : State) (m : Nat) (l : Tab ETE) (k : Nat), g (s.setSlice m { s.slice m with tlb := l, tlbPtr := k }) = g s)
    (a : Who) (va k : Nat) : KeepsM g (vread a va k) := by
  unfold vread
  refine keepsM_bind (keepsM_mapM (fun p => keepsM_bind (keepsM_xlate heng htlb _ _ _) fun pa => ?_) _) fun _ => keepsM_pure _ _
  have ⟨h, _⟩ := pread_fr a.ctx pa p.2 p.1
  exact keepsM_of_eng heng h

/-- The task of a slice, and the damaged lines of its column buffer. -/
def State.workOf (n : Nat) (s : State) : Option Task × Tab (List Nat) := ((s.slice n).task, (s.slice n).bad)

theorem workOf_congr (n : Nat) (s t : State) (h : t.eng = s.eng) : t.workOf n = s.workOf n := by
  rw [State.workOf, State.workOf, slice_congr h]

theorem workOf_setSlice (n : Nat) (s : State) (m : Nat) (y : Slice) (ht : y.task = (s.slice m).task)
    (hb : y.bad = (s.slice m).bad) : (s.setSlice m y).workOf n = s.workOf n := by
  unfold State.workOf
  by_cases e : n = m
  · rw [e, State.slice_setSlice_same, ht, hb]
  · rw [State.slice_setSlice_other _ _ e]

theorem keepsM_strOf_workOf (n m : Nat) (x : Task) (y : Cell) : KeepsM (State.workOf n) (strOf m x y) := by
  unfold strOf
  split
  · exact keepsM_pure _ _
  · exact keepsM_bind (keepsM_vread (workOf_congr n) (fun s m l k => workOf_setSlice n s m _ rfl rfl) _ _ _) fun _ =>
      keepsM_bind (fun s => workOf_congr n _ _ (eng_pmcSlc ..)) fun _ => keepsM_pure _ _

/-- HASH of one string key for the one selected row: it is read whole. -/
theorem run_opHash_long {s u : State} {n : Nat} {c : OpCtx} {x : Task} {b : Batch} {k : Nat × Bool} {i : Nat} {l : List Byte}
    (task : (s.slice n).task = some x) (sound : s.cbSound n) (hk : c.m.regList c.o.a0 c.o.a1 = [k])
    (hty : (c.p.reg k.1).ty = .varstr) (hsel : b.selected = [i]) (hok : (b.cell k.1 i).ok = true)
    (hl : (strOf n x (b.cell k.1 i)).run s = (.ok l, u)) : (opHash n c x b).run s = (.ok (), (u.cbWrite n false
      (x.lines c.p [c.o.a2])).passOn n x (b.put c.o.a2 ((List.range b.rows.length).map (fun j => if nthD b.sel j false then
        Cell.of (hashKeys (c.o.a3 % 256) (hashWords .varstr k.2 { b.cell k.1 i with str := l })) else Cell.null)))) := by
  have kept : u.workOf n = s.workOf n := (keepsM_strOf_workOf n n x _).snd hl
  obtain ⟨htask, hbad⟩ := Prod.mk.inj kept
  have on : nthD b.sel i false = true := (mem_selected.1 (hsel ▸ List.mem_singleton_self i)).2
  have words : ((c.m.regList c.o.a0 c.o.a1).mapM (keyWords n c x b i)).run s =
      (.ok [hashWords .varstr k.2 { b.cell k.1 i with str := l }], u) := by
    rw [hk, ← List.mapM'_eq_mapM, List.mapM'_cons, run_bind_ok (run_keyWords_whole hty hok hl)]
    rfl
  have cell := run_hashCell_selected on words
  rw [List.flatten_singleton] at cell
  rw [opHash_eq, run_bind_ok (run_readRegs sound c x),
    run_bind_ok (run_mapM_once hsel (fun j r hj => run_hashCell_unselected hj) cell)]
  unfold writeRegs
  rw [run_bind_ok (run_cbStore_undamaged (hbad.trans sound.1) _ _ _ _)]
  refine run_opDone ?_ _
  rw [task_cbWrite, htask, task]

/-! ### MATCH (05 R189, R190) -/

/-- The row of the match array that each position's key finds, if it is searched. -/
def matchHits (s : State) (n : Nat) (x : Task) (b : Batch) (c : OpCtx) : List (Option MRow) :=
  (List.range b.rows.length).map (fun i =>
    if nthD b.sel i false && (b.cell c.o.a0 i).ok then
      searchRows (s.slice n).rows x.ctx (c.o.a2 % 256) (leAt c.m.pool c.o.a3 16) (matchKey (c.p.reg c.o.a0).ty (b.cell c.o.a0 i))
    else none)

/-- The batch with the results of a search in MATCH's register, unless it only filters. -/
def matchResults (b : Batch) (c : OpCtx) (hits : List (Option MRow)) : Batch :=
  if bitAt c.o.opt 2 then b else b.put c.o.a1 (hits.map (fun h => (h.map (fun r => Cell.of r.result)).getD Cell.null))

/-- A batch of which MATCH, where it filters, keeps the rows whose key is valid and found, or not found. -/
def matchFilter (b q : Batch) (c : OpCtx) (hits : List (Option MRow)) : Batch :=
  if bitAt c.o.opt 0 then { q with sel := (List.range q.rows.length).map (fun i =>
    nthD q.sel i false && ((b.cell c.o.a0 i).ok && ((nthD hits i none).isSome != bitAt c.o.opt 1))) } else q

/-- The batch MATCH passes on. -/
def matchBatch (b : Batch) (c : OpCtx) (hits : List (Option MRow)) : Batch := matchFilter b (matchResults b c hits) c hits

theorem rows_matchResults (b : Batch) (c : OpCtx) (hits : List (Option MRow)) : (matchResults b c hits).rows = b.rows := by
  unfold matchResults
  split <;> rfl

/-- MATCH's step once the rows are found: the results, and the selection. -/
def matchEnd (n : Nat) (c : OpCtx) (x : Task) (b : Batch) (hits : List (Option MRow)) : EM Unit := do
  let keys := (List.range b.rows.length).map (fun i => (b.cell c.o.a0 i).ok)
  let q ← if bitAt c.o.opt 2 then pure b
    else do
      writeRegs n c x [c.o.a1]
      pure (b.put c.o.a1 (hits.map (fun h => match h with
        | some r => Cell.of r.result
        | none => Cell.null)))
  let q ← if bitAt c.o.opt 0 then
      setSel n x q (fun i => nthD keys i false && ((nthD hits i none).isSome != bitAt c.o.opt 1))
    else pure q
  opDone n q

section
variable {s : State} {n : Nat} {x : Task} {b : Batch} {c : OpCtx} (task : (s.slice n).task = some x) (sound : s.cbSound n)
include task sound

theorem run_matchFilter (q : Batch) (hits : List (Option MRow)) (rows : q.rows = b.rows) :
    (if bitAt c.o.opt 0 then do
      let q ← setSel n x q (fun i => nthD ((List.range b.rows.length).map (fun i => (b.cell c.o.a0 i).ok)) i false &&
        ((nthD hits i none).isSome != bitAt c.o.opt 1))
      opDone n q
    else do
      let q ← pure q
      opDone n q : EM Unit).run s = (.ok (), s.passOn n x (matchFilter b q c hits)) := by
  unfold matchFilter
  split
  · rw [run_bind_ok (run_setSel sound x q _), run_opDone task]
    refine congrArg (fun l => (Except.ok (), s.passOn n x { q with sel := l })) (List.map_congr_left fun i hi => ?_)
    rw [nthD_map_range (List.mem_range.1 (rows ▸ hi))]
  · exact run_opDone task q

theorem run_matchEnd (hits : List (Option MRow)) :
    (matchEnd n c x b hits).run s = (.ok (), s.passOn n x (matchBatch b c hits)) := by
  have same : hits.map (fun h => match h with
      | some r => Cell.of r.result
      | none => Cell.null) = hits.map (fun h => (h.map (fun r => Cell.of r.result)).getD Cell.null) :=
    List.map_congr_left fun h _ => by cases h <;> rfl
  have rows := rows_matchResults b c hits
  unfold matchEnd matchBatch
  unfold matchResults at rows ⊢
  dsimp only
  rw [same]
  split
  · rename_i only
    rw [if_pos only] at rows
    exact run_matchFilter task sound b hits rows
  · rename_i puts
    rw [if_neg puts] at rows
    exact (run_bind_ok (run_writeRegs sound c x _)).trans (run_matchFilter task sound _ hits rows)

theorem run_opMatch (parity : (s.slice n).rows.any (fun e => e.2.enabled x.ctx (c.o.a2 % 256) && e.2.bad) = false) :
    ∃ t, (opMatch n c x b).run s = (.ok (), t) ∧
      (t.slice n).task = some { x with batch := some (matchBatch b c (matchHits s n x b c)), oper := x.oper + 1 } := by
  unfold opMatch
  rw [run_bind_ok (run_readRegs sound c x), run_bind_ok run_get]
  dsimp only
  rw [run_bind_ok (run_doSt _), run_bind_ok (run_ensure (by rw [parity]; simp) _ _)]
  exact ⟨_, run_matchEnd (by rw [slice_pmcSlc, task]) (cbSound_pmcSlc _ _ _ (by decide) sound) _, by rw [slice_passOn]; rfl⟩

end

/-! ### LIMIT (04 R132) -/

/-- The task on a slice when the tasks of its pipeline are told to end. -/
theorem task_endTasks {s : State} {n : Nat} {x : Task} (task : (s.slice n).task = some x) :
    ((s.endTasks x.ring x.seq x.pipe (x.kind == .gather)).slice n).task = some { x with ending := true } := by
  have hm := Tab.get_mapV (d := Slice.reset) (f := fun y : Slice => { y with task := y.task.map (fun t : Task =>
    if t.ring == x.ring && t.seq == x.seq && t.pipe == x.pipe && (t.kind != .gather || x.kind == .gather) then
      { t with ending := true } else t) }) rfl s.eng.slices n
  have task' : (Tab.get Slice.reset s.eng.slices n).task = some x := task
  unfold State.endTasks State.eng' State.slice
  rw [hm, task']
  simp

/-- The selected rows that LIMIT still admits. -/
def limitRows (x : Task) (b : Batch) (c : OpCtx) : List Nat := b.selected.take (c.o.a5 - (c.r.pipe x.pipe).lim)

/-- The batch LIMIT passes on. -/
def limitBatch (x : Task) (b : Batch) (c : OpCtx) : Batch :=
  { b with sel := (List.range b.rows.length).map (fun i => nthD b.sel i false && (limitRows x b c).contains i) }

theorem run_opLimit {s : State} {n : Nat} {x : Task} {b : Batch} {c : OpCtx} (task : (s.slice n).task = some x)
    (sound : s.cbSound n) (ctx : s.opCtx x = some c) : ∃ t, (opLimit n c x b).run s = (.ok (), t) ∧
      (t.slice n).task = some { x with
        batch := some (limitBatch x b c),
        oper := x.oper + 1,
        ending := x.ending || decide (c.o.a5 ≤ (c.r.pipe x.pipe).lim + (limitRows x b c).length) } ∧
      (t.run x.ring x.seq).map (fun r => (r.pipe x.pipe).lim) = some ((c.r.pipe x.pipe).lim + (limitRows x b c).length) := by
  have ⟨_, hrun⟩ := run_of_opCtx ctx
  unfold opLimit
  dsimp only
  rw [run_bind_ok (run_cbRead sound.1 _ _ _ _), run_bind_ok (run_setSel sound x b _), run_bind_ok (run_doSt _)]
  generalize hs1 : s.updRun x.ring x.seq _ = s1
  have task1 : (s1.slice n).task = some x := by rw [← hs1]; exact task
  have lim1 : (s1.run x.ring x.seq).map (fun r => (r.pipe x.pipe).lim) =
      some ((c.r.pipe x.pipe).lim + (limitRows x b c).length) := by
    rw [← hs1, run_updRun, hrun]
    simp [limitRows]
  by_cases full : c.o.a5 ≤ (c.r.pipe x.pipe).lim + (limitRows x b c).length
  · refine ⟨(s1.endTasks x.ring x.seq x.pipe (x.kind == .gather)).passOn n { x with ending := true } (limitBatch x b c),
      ?_, ?_, lim1⟩
    · rw [limitBatch, limitRows]
      rw [limitRows] at full
      rw [if_pos full, run_bind_ok (run_doSt _), run_opDone (task_endTasks task1)]
    · rw [slice_passOn, decide_eq_true full, Bool.or_true]
  · refine ⟨s1.passOn n x (limitBatch x b c), ?_, ?_, lim1⟩
    · rw [limitBatch, limitRows]
      rw [limitRows] at full
      rw [if_neg full, run_opDone task1]
    · rw [slice_passOn, decide_eq_false full, Bool.or_false]

/-! ### The next batch (03 R76) -/

/-- Releasing the next batch, if one is due, keeps what TOPK keeps; with no row waiting it does nothing. -/
theorem run_release {s : State} {n : Nat} {y : Task} (first : Nat) (task : (s.slice n).task = some y) (sound : s.cbSound n) :
    ∃ t, (release n first).run s = (.ok (), t) ∧
      (∃ z, (t.slice n).task = some z ∧ z.heap = y.heap ∧ z.cutKey = y.cutKey) ∧ (y.queue.rows = [] → t = s) := by
  unfold release
  rw [run_bind_ok run_get, task]
  dsimp only
  split
  · exact ⟨s, rfl, ⟨y, task, rfl, rfl⟩, fun _ => rfl⟩
  split
  · rename_i due
    have waits : y.queue.rows ≠ [] := fun e => by simp [e] at due
    rw [run_bind_ok (run_askSt _)]
    have tag : (s.tagBatch y.ctx).2.eng = s.eng ∧ (s.tagBatch y.ctx).2.regs = s.regs := by
      unfold State.tagBatch
      dsimp only
      split <;> exact ⟨rfl, rfl⟩
    generalize (s.tagBatch y.ctx).1 = on
    generalize (s.tagBatch y.ctx).2 = s1 at tag ⊢
    have sound1 : s1.cbSound n := cbSound_congr (by rw [slice_congr tag.1]) (rdW_congr tag.2 _) sound
    rw [run_bind_ok (run_doSt _)]
    generalize hz : ({ y with batch := _, queue := _, oper := _, frame := _, tagged := on, packed := _ } : Task) = z
    have kept : z.heap = y.heap ∧ z.cutKey = y.cutKey := by rw [← hz]; exact ⟨rfl, rfl⟩
    generalize hs2 : (s1.setTask n z).pmcSlc n 1 _ 1 = s2
    have sound2 : s2.cbSound n := hs2 ▸ cbSound_pmcSlc _ _ _ (by decide) (cbSound_setTask z sound1)
    have task2 : (s2.slice n).task = some z := by rw [← hs2, slice_pmcSlc, slice_setTask_same]
    refine ⟨s2, ?_, ⟨z, task2, kept⟩, fun e => absurd e waits⟩
    split
    · exact run_cbStore sound2 _ _ _ _
    · rfl
  · exact ⟨s, rfl, ⟨y, task, rfl, rfl⟩, fun _ => rfl⟩

/-- A task done with its batch, with no probe of it left, takes the next one. -/
theorem run_batchOver {s : State} {n first : Nat} {y : Task} (task : (s.slice n).task = some y) (probes : y.probes = []) :
    (batchOver n first y).run s = (release n first).run (s.setTask n { y with batch := none, oper := 0 }) := by
  unfold batchOver
  rw [run_bind_ok run_get]
  split
  · rename_i e
    exact absurd (e.symm.trans probes) nofun
  · exact run_bind_ok (run_updTask task _)

/-! ### TOPK (05 R180 to R182) -/

/-- The batch's rows that the published threshold lets join the heap. -/
def topkRows (x : Task) (b : Batch) (c : OpCtx) : List HeapRow :=
  (b.selected.map (fun i => HeapRow.mk (sortKeyOf c (c.m.sortList c.o.a0 c.o.a1) b i) (b.rn i)
    ((c.m.readAfter c.p x.oper).map (fun r => (r, b.cell r i))))).filter
      (fun h => !beyond (c.r.pipe x.pipe).thr c.topk.2 h.key h.rn)

theorem run_opTopk {s : State} {n : Nat} {x : Task} {b : Batch} {c : OpCtx} {heap : List HeapRow} {cut : Option (List Byte)}
    (task : (s.slice n).task = some x) (sound : s.cbSound n) (probes : x.probes = [])
    (keep : keepTop c.topk.1 c.topk.2 ((topkRows x b c).foldl (fun l h => insertBy HeapRow.ord h l) x.heap) = (heap, cut)) :
    ∃ t, (opTopk n c x b).run s = (.ok (), t) ∧
      (∃ z, (t.slice n).task = some z ∧ z.heap = heap ∧ z.cutKey = leastCut x.cutKey cut) ∧
      (x.queue.rows = [] → (t.slice n).task =
        some { x with heap := heap, cutKey := leastCut x.cutKey cut, batch := none, oper := 0 }) := by
  unfold opTopk
  rw [run_bind_ok (run_readRegs sound c x)]
  dsimp only
  simp only [topkRows] at keep
  rw [keep, run_bind_ok (run_cbRead sound.1 _ _ _ _), run_bind_ok (run_useArea sound c x _ _), run_bind_ok (run_updTask task _),
    run_bind_ok (run_theTask (x := { x with heap := heap, cutKey := leastCut x.cutKey cut }) (by rw [slice_setTask_same]) x),
    run_batchOver (y := { x with heap := heap, cutKey := leastCut x.cutKey cut }) (by rw [slice_setTask_same]) probes]
  obtain ⟨t, run, left, idle⟩ := run_release 1 (s := (s.setTask n _).setTask n _) (n := n)
    (y := { x with heap := heap, cutKey := leastCut x.cutKey cut, batch := none, oper := 0 }) (by rw [slice_setTask_same])
    (cbSound_setTask _ (cbSound_setTask { x with heap := heap, cutKey := leastCut x.cutKey cut } sound))
  exact ⟨t, run, left, fun h => by rw [idle h, slice_setTask_same]⟩

/-! ### PARTITION (05 R183, R184) -/

theorem run_sinkRows {s : State} {n : Nat} {x : Task} (b : Batch) (tagged : x.tagged = false) :
    (sinkRows n x b).run s = (.ok (), s.pmcSlc n 3 (some (s.ctxIdent x.ctx)) b.selected.length) := by
  unfold sinkRows
  rw [run_bind_ok (run_doSt _), tagged]
  rfl

/-- The exchange messages that PARTITION makes of a batch for a list of destinations. -/
def partitionMsgs (n : Nat) (x : Task) (b : Batch) (c : OpCtx) (ds : List Nat) : List XMsg :=
  ds.flatMap (fun m => (groups64 17 ((b.selected.filter (fun i => destOf c ds (b.cell (bitsOf c.o.a5 4 0) i) == m)).map (fun i =>
    (c.m.regList c.o.a0 c.o.a1).map (fun r => b.cell r.1 i)))).map (fun g =>
      ⟨x.ring, x.seq, c.o.a2, n, m, g, xFlits ((c.m.regList c.o.a0 c.o.a1).map (fun r => (c.p.reg r.1).ty.width)) g.length,
        0, 0, none, 0⟩))

/-- Sending flits of the exchange keeps the slices. -/
theorem slices_xSend (g : Eng) : g.xSend.slices = g.slices := by
  unfold Eng.xSend
  refine List.foldlRecOn _ _ (motive := fun e : Eng => e.slices = g.slices) rfl fun e kept i _ => ?_
  split
  · exact kept
  · exact kept

theorem run_opPartition {s : State} {n : Nat} {x : Task} {b : Batch} {c : OpCtx} {ds : List Nat}
    (task : (s.slice n).task = some x) (sound : s.cbSound n) (tagged : x.tagged = false) (hds : Tab.get [] c.r.dests c.o.a2 = ds) :
    ∃ t, (opPartition n c x b).run s = (.ok (), t) ∧
      t.eng.xch = (Eng.xSend { s.eng with xch := s.eng.xch ++ partitionMsgs n x b c ds }).xch ∧
      (t.slice n).task = some { x with batch := some b, oper := x.oper + 1 } := by
  have rows : ∀ m, ((b.selected.map (fun i => (destOf c ds (b.cell (bitsOf c.o.a5 4 0) i),
      ((c.m.regList c.o.a0 c.o.a1).map Prod.fst).map (fun r => b.cell r i)))).filter (fun y => y.1 == m)).map Prod.snd = 
      (b.selected.filter (fun i => destOf c ds (b.cell (bitsOf c.o.a5 4 0) i) == m)).map (fun i =>
        (c.m.regList c.o.a0 c.o.a1).map (fun r => b.cell r.1 i)) := fun m => by
    rw [List.filter_map, List.map_map]
    simp only [Function.comp_def, List.map_map]
  unfold opPartition
  rw [run_bind_ok (run_readRegs sound c x)]
  dsimp only
  rw [run_bind_ok (run_useArea sound c x _ _), run_bind_ok (run_doSt _), run_bind_ok (run_sinkRows b tagged)]
  refine ⟨_, run_opDone (x := x) ?_ b, ?_, ?_⟩
  · rw [slice_pmcSlc]
    exact (congrArg (fun t => (Tab.get Slice.reset t n).task) (slices_xSend _)).trans task
  · show (State.pmcSlc _ n 3 _ _).eng.xch = _
    rw [eng_pmcSlc]
    simp only [partitionMsgs, hds, rows]
    simp only [List.map_map, Function.comp_def]
    rfl
  · rw [slice_passOn]

/-- Settles O33: each row operator is one step on a sound column buffer, after which the task's batch goes on. -/
theorem rowOperatorsComplete : Obligations.RowOperatorsComplete := by
  unfold Obligations.RowOperatorsComplete
  refine ⟨fun s n x b c q st hq hs => ?_, fun s n x b c st short => ?_, fun s n x b c k i l st hk hty hsel hok hl => ?_,
    fun s n x b c st parity => ?_, fun s n x b c st => ?_, fun s n x b c rows heap cut st hkind hrows hkeep => ?_,
    fun s n x b c ds st hds => ?_⟩ <;> have ⟨task, sound, _, _, probes, _, tagged, ctx, _⟩ := st
  · exact completes_of_taskOp st rfl (run_opProject task (run_eq_of_parts hq hs)) (by rw [slice_passOn])
  · exact completes_of_taskOp st rfl (run_opHash_short task sound short) (by rw [slice_passOn])
  · refine completes_of_taskOp st rfl (run_opHash_long task sound hk hty hsel hok (run_eq_of_parts hl rfl)) ?_
    rw [slice_passOn]
    simp
  · obtain ⟨t, run, done⟩ := run_opMatch task sound parity
    exact completes_of_taskOp st rfl run done
  · obtain ⟨t, run, done⟩ := run_opLimit task sound ctx
    exact completes_of_taskOp st rfl run done
  · subst hrows
    obtain ⟨t, run, ⟨z, hz, hheap, hcut⟩, idle⟩ := run_opTopk task sound probes hkeep
    refine completes_of_taskOp st rfl (by rw [if_neg hkind]; exact run) ⟨?_, idle⟩
    rw [hz]
    simp [hheap, hcut]
  · obtain ⟨t, run, done⟩ := run_opPartition task sound tagged hds
    exact completes_of_taskOp st rfl run done

end Sys2Proof.Machine
end

section
/-! PROOFS. Tasks come to slices and leave them, exchange messages arrive, and the column buffer is rewritten and scrubbed (O39). -/

namespace Sys2Proof.Machine
open Sys2Proof
-- One proof after another: elaborated side by side, the proofs of the one text pass the memory that the check allows.
set_option Elab.async false

/-- Both branches of a choice show the same. -/
theorem keeps_ite {α β : Type} {g : α → β} {p : Prop} [Decidable p] {a b : α} {v : β} (ha : g a = v) (hb : g b = v) :
    g (if p then a else b) = v := by
  split
  · exact ha
  · exact hb

/-! ### Slices and descriptors under the operations that change neither -/

section
variable (s : State)

theorem eng_writePa (who : Ident) (pa : Nat) (l : List Byte) : (s.writePa who pa l).2.eng = s.eng := by
  simp only [kept @State.writePa_fr]

theorem eng_draw : s.draw.2.eng = s.eng := rfl

theorem eng_wrs (off : Nat) (l : List (Fld × Nat)) : (s.wrs off l).eng = s.eng := by simp only [kept @State.wrs_fr]

theorem eng_cbRecord (n : Nat) (agg : Bool) (ln cls src : Nat) (who : Ident) : (s.cbRecord n agg ln cls src who).eng = s.eng := by
  simp only [kept @State.cbRecord_fr]

theorem eng_fenceUnit (u : Nat) : (s.fenceUnit u).eng = s.eng := by simp only [kept @State.fenceUnit_fr]

theorem eng_aimCode (d code : Nat) : (s.aimCode d code).eng = s.eng := by simp only [kept @State.aimCode_fr]

theorem eng_stagedInDone (x : Task) : (s.stagedInDone x).eng = s.eng := by
  unfold State.stagedInDone
  split
  · split
    · dsimp only
      split
      · simp only [kept @State.stageFreeIn_fr]
      · rfl
    · rfl
  · rfl

end

/-! ### The status of a run is fixed (06 R213) -/

section
variable (s : State) (ring seq n : Nat) (f : Fail)

theorem slice_fixRun : (s.fixRun ring seq f).slice n = { s.slice n with
    task := (s.slice n).task.map (fun t => if t.ring == ring && t.seq == seq then t.windUp else t) } :=
  Tab.get_mapV (d := Slice.reset) (f := fun y : Slice => { y with
    task := y.task.map (fun t => if t.ring == ring && t.seq == seq then t.windUp else t) }) rfl s.eng.slices n

theorem desc_fixRun : (s.fixRun ring seq f).desc ring seq =
    (s.desc ring seq).map (fun d => { d with stall := none, fail := some (d.fail.getD f) }) := by
  refine (desc_updDesc s (ring := ring) (seq := seq) (f := fun d => { d with stall := none, fail := match d.fail with
    | some x => some x
    | none => some f }) fun _ h h' => ⟨h, h'⟩).trans (Option.map_congr fun d _ => ?_)
  cases d.fail <;> rfl

end

theorem name_of_desc {s : State} {ring seq : Nat} {d : Desc} (h : s.desc ring seq = some d) : d.ring = ring ∧ d.seq = seq := by
  simpa using List.find?_some (p := fun d : Desc => d.ring == ring && d.seq == seq) h

/-! ### What a dispatch shows -/

/-- What a task is. -/
def Task.mark (x : Task) : Nat × Nat × Nat × Nat × TaskKind × Bool × Bool :=
  (x.ring, x.seq, x.ctx, x.pipe, x.kind, x.batch.isNone, x.opened)

theorem mark_windUp (x : Task) : x.windUp.mark = x.mark := rfl

/-- What a dispatch to a slice of a pipeline's task shows: the task, the slice's last identity and whether its column buffer is
being rewritten, and the pipeline's tasks. -/
def State.placed (n ring seq j : Nat) (s : State) :
    Option (Nat × Nat × Nat × Nat × TaskKind × Bool × Bool) × Option Ident × Bool × Option Nat :=
  ((s.slice n).task.map Task.mark, (s.slice n).last, (s.slice n).rewriting, (s.run ring seq).map (fun r => (r.pipe j).running))

section
variable {n ring seq j : Nat} {s t : State}

theorem placed_congr (hs : t.eng.slices = s.eng.slices) (hd : t.eng.descs = s.eng.descs) :
    t.placed n ring seq j = s.placed n ring seq j := by
  unfold State.placed State.slice State.run State.desc
  rw [hs, hd]

theorem placed_of_eng (h : t.eng = s.eng) : t.placed n ring seq j = s.placed n ring seq j :=
  placed_congr (by rw [h]) (by rw [h])

theorem placed_setSlice (s : State) (m : Nat) (y : Slice) (ht : y.task.map Task.mark = (s.slice m).task.map Task.mark)
    (hl : y.last = (s.slice m).last) (hr : y.rewriting = (s.slice m).rewriting) :
    (s.setSlice m y).placed n ring seq j = s.placed n ring seq j := by
  unfold State.placed
  by_cases e : n = m
  · rw [e, State.slice_setSlice_same, ht, hl, hr]
    rfl
  · rw [State.slice_setSlice_other _ _ e]
    rfl

theorem placed_setSlice_same (s : State) (y : Slice) : (s.setSlice n y).placed n ring seq j =
    (y.task.map Task.mark, y.last, y.rewriting, (s.run ring seq).map (fun r => (r.pipe j).running)) := by
  unfold State.placed
  rw [State.slice_setSlice_same]
  rfl

theorem placed_setRbuf (s : State) (m : Nat) (l : List RMsg) :
    (s.setSlice m { s.slice m with rbuf := l }).placed n ring seq j = s.placed n ring seq j := placed_setSlice _ _ _ rfl rfl rfl

theorem placed_setTask (s : State) {m : Nat} {x : Task} (h : (s.slice m).task.map Task.mark = some x.mark) :
    (s.setTask m x).placed n ring seq j = s.placed n ring seq j := placed_setSlice s m _ h.symm rfl rfl

theorem placed_setXch (s : State) (f : Eng → List XMsg) :
    (s.eng' (fun e => { e with xch := f e })).placed n ring seq j = s.placed n ring seq j := placed_congr rfl rfl

/-- A change of a descriptor that keeps its name and the pipeline's count of tasks keeps what a dispatch shows. -/
theorem placed_updDesc (s : State) {ring' seq' : Nat} {f : Desc → Desc} (hname : ∀ d, (f d).ring = d.ring ∧ (f d).seq = d.seq)
    (hrun : ∀ d, s.desc ring' seq' = some d →
      (f d).run.map (fun r => (r.pipe j).running) = d.run.map (fun r => (r.pipe j).running)) :
    (s.updDesc ring' seq' f).placed n ring seq j = s.placed n ring seq j := by
  have found : (s.updDesc ring' seq' f).desc ring seq = (s.desc ring seq).map
      (fun d => if d.ring == ring' && d.seq == seq' then f d else d) := by
    refine find_desc_map (fun d => ?_) _ _ _
    split
    · exact hname d
    · exact ⟨rfl, rfl⟩
  have count : ((s.updDesc ring' seq' f).run ring seq).map (fun r => (r.pipe j).running) =
      (s.run ring seq).map (fun r => (r.pipe j).running) := by
    unfold State.run
    rw [found]
    cases hd : s.desc ring seq with
    | none => rfl
    | some d =>
      show (if d.ring == ring' && d.seq == seq' then f d else d).run.map _ = d.run.map _
      split
      · rename_i same
        obtain ⟨hr, hs⟩ := name_of_desc hd
        rw [hr, hs, Bool.and_eq_true, beq_iff_eq, beq_iff_eq] at same
        obtain ⟨rfl, rfl⟩ := same
        exact hrun d hd
      · rfl
  unfold State.placed
  rw [count]
  rfl

theorem placed_updRun (s : State) {ring' seq' : Nat} {f : Run → Run}
    (hf : ∀ r, s.run ring' seq' = some r → ((f r).pipe j).running = (r.pipe j).running) :
    (s.updRun ring' seq' f).placed n ring seq j = s.placed n ring seq j := by
  refine placed_updDesc s (fun _ => ⟨rfl, rfl⟩) fun d hd => ?_
  cases hr : d.run with
  | none => rfl
  | some r => exact congrArg some (hf r (by rw [State.run, hd]; exact hr))

theorem placed_fixRun (s : State) (ring' seq' : Nat) (f : Fail) :
    (s.fixRun ring' seq' f).placed n ring seq j = s.placed n ring seq j := by
  have runs := placed_updDesc (n := n) (ring := ring) (seq := seq) (j := j) s (ring' := ring') (seq' := seq')
    (f := fun d => { d with stall := none, fail := match d.fail with
      | some x => some x
      | none => some f }) (fun _ => ⟨rfl, rfl⟩) fun _ _ => rfl
  refine Eq.trans ?_ runs
  unfold State.placed
  rw [slice_fixRun]
  refine Prod.ext ?_ rfl
  show ((s.slice n).task.map _).map Task.mark = (s.slice n).task.map Task.mark
  rw [Option.map_map]
  refine Option.map_congr fun x _ => keeps_ite (mark_windUp x) rfl

theorem placed_allocChunk (s : State) (c ring' seq' : Nat) :
    (s.allocChunk c ring' seq').2.placed n ring seq j = s.placed n ring seq j := by
  unfold State.allocChunk
  dsimp only
  split
  · split
    · exact placed_updRun _ (ring' := ring') (seq' := seq') fun _ _ => rfl
    · rfl
  · rfl

theorem placed_spillPlace (s : State) (c : Nat) (m : XMsg) (k : Nat) :
    (s.spillPlace c m k).2.placed n ring seq j = s.placed n ring seq j := by
  have chunk := placed_allocChunk (n := n) (ring := ring) (seq := seq) (j := j) s c m.ring m.seq
  unfold State.spillPlace
  dsimp only
  split
  · exact placed_updRun _ fun _ _ => rfl
  · split
    · rename_i got
      rw [got] at chunk
      dsimp only at chunk ⊢
      refine Eq.trans ?_ chunk
      exact placed_updRun _ (ring' := m.ring) (seq' := m.seq) fun _ _ => rfl
    · rename_i full
      rwa [full] at chunk

theorem placed_unless {p : Prop} [Decidable p] (s : State) (ring' seq' : Nat) (f : Fail) :
    (if p then s else s.fixRun ring' seq' f).placed n ring seq j = s.placed n ring seq j :=
  keeps_ite rfl (placed_fixRun ..)

theorem placed_spillOne (s : State) (m i : Nat) : (s.spillOne m i).placed n ring seq j = s.placed n ring seq j := by
  unfold State.spillOne
  split
  · rfl
  · rename_i q _
    have place := placed_spillPlace (n := n) (ring := ring) (seq := seq) (j := j) s
      (((s.desc q.m.ring q.m.seq).map (·.ctx)).getD 0) q.m (128 * q.m.flits)
    dsimp only
    split
    · rename_i full
      rw [full] at place
      exact (placed_fixRun ..).trans place
    · rename_i got
      rw [got] at place
      rw [placed_setRbuf, placed_unless, placed_of_eng (eng_writePa ..), placed_of_eng (eng_draw _)]
      exact place

theorem placed_moveFlits (s : State) (m : XMsg) : (s.moveFlits m).2.placed n ring seq j = s.placed n ring seq j := by
  unfold State.moveFlits
  split
  · rfl
  · dsimp only
    exact (placed_unless ..).trans (placed_of_eng (eng_writePa ..))

theorem placed_spillPart (s : State) (i : Nat) : (s.spillPart i).placed n ring seq j = s.placed n ring seq j := by
  unfold State.spillPart
  split
  · rfl
  · rename_i m _
    have place := placed_spillPlace (n := n) (ring := ring) (seq := seq) (j := j) s
      (((s.desc m.ring m.seq).map (·.ctx)).getD 0) m (128 * m.flits)
    dsimp only
    split
    · rename_i full
      rw [full] at place
      exact (placed_fixRun ..).trans place
    · rename_i got
      rw [got] at place
      rw [placed_setXch, placed_moveFlits, placed_of_eng (eng_draw _)]
      exact place

theorem placed_drainRecv (s : State) (m : Nat) : (s.drainRecv m).placed n ring seq j = s.placed n ring seq j := by
  unfold State.drainRecv
  refine (foldl_keeps (State.placed n ring seq j) _ (fun s i => ?_) _ _).trans
    (foldl_keeps (State.placed n ring seq j) _ (fun s i => ?_) _ _)
  · split
    · exact keeps_ite (placed_spillPart ..) rfl
    · rfl
  · split
    · exact keeps_ite (placed_spillOne ..) rfl
    · rfl

/-! ### A merge is told its runs (05 R179) -/

theorem running_nextMerge {p q : PipeSt} {f : Nat} {pool l : List Nat} {last : Bool} (h : nextMerge p f pool = some (l, last, q)) :
    q.running = p.running := by
  unfold nextMerge at h
  split at h
  · cases h
    rfl
  · split at h
    · cases h
      rfl
    · exact absurd h nofun

/-- Reading a run directory keeps what does not depend on the slices' TLBs. -/
theorem keepsM_openRuns {β : Type} {g : State → β} (heng : ∀ s t : State, t.eng = s.eng → g t = g s)
    (htlb : ∀ (s : State) (m : Nat) (l : Tab ETE) (k : Nat), g (s.setSlice m { s.slice m with tlb := l, tlbPtr := k }) = g s)
    (a : Who) (d : RDecl) : KeepsM g (openRuns a d) := by
  have read : ∀ va k, KeepsM g (vread a va k) := keepsM_vread heng htlb a
  unfold openRuns runEntry
  exact keepsM_bind (read _ _) fun _ => keepsM_bind (keepsM_mapM (fun _ => keepsM_bind (keepsM_bind (read _ _) fun _ =>
    keepsM_pure _ _) fun _ => keepsM_pure _ _) _) fun _ => keepsM_pure _ _

/-- A task told its runs is the same task, and its pipeline has as many tasks. -/
theorem placed_told {u : State} {m k f : Nat} {d : Desc} {r : Run} {x : Task} {pool : Option (List Nat)}
    (hplaced : u.placed n ring seq j = s.placed n ring seq j) (hrun : u.run d.ring d.seq = some r)
    (hx : (u.slice m).task.map Task.mark = some x.mark) :
    (match pool.bind (nextMerge (r.pipe k) f) with
      | some (l, last, q) => (u.updRun d.ring d.seq (fun r => r.updPipe k (fun _ => q))).setTask m
          { x with told := true, runs := l, final := last }
      | none => u).placed n ring seq j = s.placed n ring seq j := by
  split
  · rename_i l last q merge
    obtain ⟨pool, _, merge⟩ := Option.bind_eq_some_iff.1 merge
    refine (placed_setTask (x := { x with told := true, runs := l, final := last }) (u.updRun ..) hx).trans
      ((placed_updRun u fun r' hr' => ?_).trans hplaced)
    cases hrun.symm.trans hr'
    by_cases e : j = k
    · rw [e, pipe_updPipe_same, running_nextMerge merge]
    · exact congrArg PipeSt.running (Tab.get_put_other _ _ _ _ e)
  · exact hplaced

theorem placed_tellMerge (s : State) (m : Nat) (d : Desc) (k : Nat) :
    (s.tellMerge m d k).placed n ring seq j = s.placed n ring seq j := by
  unfold State.tellMerge
  split
  · rename_i r x hrun hx
    replace hx : (s.slice m).task.map Task.mark = some x.mark := by rw [hx]; rfl
    dsimp only
    cases (r.pipe k).runs with
    | some l => exact placed_told rfl hrun hx
    | none =>
      dsimp only
      generalize Task.who m x = a
      generalize rDeclOf _ = decl
      rcases ho : (openRuns a decl).run s with ⟨_ | l, u⟩
      · rfl
      · have placed := (keepsM_openRuns (g := State.placed n ring seq j) (fun _ _ h => placed_of_eng h)
          (fun s m _ _ => placed_setSlice s m _ rfl rfl rfl) a decl).snd ho
        have runs := (keepsM_openRuns (g := fun s => s.eng.descs) (fun _ _ h => by rw [h]) (fun _ _ _ _ => rfl) a decl).snd ho
        have task := (keepsM_openRuns (g := State.placed m ring seq j) (fun _ _ h => placed_of_eng h)
          (fun s m _ _ => placed_setSlice s m _ rfl rfl rfl) a decl).snd ho
        refine placed_told placed ?_ ((congrArg Prod.fst task).trans hx)
        exact (congrArg (fun l : List Desc => (l.find? _).bind Desc.run) runs).trans hrun
  · rfl

end

/-! ### DISPATCH (06 R210) -/

/-- A task stands on a slice: the state as a dispatch leaves it but for the registers, the counts and the messages moved. -/
def State.seated (s : State) (n : Nat) (d : Desc) (j : Nat) (k : TaskKind) (r : Option Run) : State :=
  let s := s.setDesc { d with run := r }
  s.setSlice n { s.slice n with
    task := some (Task.start s.eng.tasks d.ring d.seq d.ctx j k),
    rewriting := (s.rd (Reg.SLC_STATUS n) F.SLC_STATUS_CBUF_MODE != b2n ((s.img ((r.map (·.slot)).getD 0)).isa == 0)) ||
      ((s.slice n).last != some (s.ctxIdent d.ctx)),
    clearing := (s.slice n).last != some (s.ctxIdent d.ctx),
    last := some (s.ctxIdent d.ctx) }

/-- The run of a pipeline's task as it is dispatched. -/
def State.counted (s : State) (n : Nat) (d : Desc) (j : Nat) (k : TaskKind) : Option Run :=
  d.run.map (fun r => r.updPipe j (fun p =>
    let p := { p with running := p.running + 1 }
    match k with
    | .unit _ => { p with next := p.next + 1 }
    | .chunk _ _ => { p with chunks := p.chunks.map (·.drop 1) }
    | .gather => { p with gather := some n }
    | .level0 _ => { p with parts := (d.run.map (fun r => s.partsLeft d r (s.img r.slot) j)).map (·.drop 1) }
    | _ => p))

theorem placed_giveTask_seated {ring seq i : Nat} (s : State) (n : Nat) (d : Desc) (j : Nat) (k : TaskKind) :
    (s.giveTask n d j k).placed n ring seq i = (s.seated n d j k (s.counted n d j k)).placed n ring seq i := by
  unfold State.giveTask
  refine (placed_drainRecv ..).trans ?_
  refine (keeps_ite (placed_tellMerge ..) rfl).trans ?_
  refine (keeps_ite (placed_of_eng (eng_wrs ..)) (placed_of_eng (eng_wrs ..))).trans ?_
  refine (keeps_ite (placed_of_eng (eng_pmcSlc ..)) rfl).trans ?_
  refine (keeps_ite (placed_of_eng (eng_pmcSlc ..)) rfl).trans ?_
  exact placed_congr rfl rfl

/-- A task that a dispatch found is of a descriptor in the engine. -/
theorem mem_of_ctxTask {s : State} {c n : Nat} {d : Desc} {j : Nat} {k : TaskKind} (h : s.ctxTask c n = some (d, j, k)) :
    d ∈ s.eng.descs := by
  obtain ⟨e, he, found⟩ := List.exists_of_findSome?_eq_some h
  split at found
  · obtain ⟨_, _, same⟩ := Option.map_eq_some_iff.1 found
    exact (Prod.mk.inj same).1 ▸ he
  · exact absurd found nofun

/-- A descriptor of the engine, replaced, is the one read under its name. -/
theorem desc_setDesc {s : State} {d : Desc} (h : d ∈ s.eng.descs) {r : Option Run} :
    (s.setDesc { d with run := r }).desc d.ring d.seq = some { d with run := r } := by
  have named : (s.desc d.ring d.seq).isSome = true := List.find?_isSome.2 ⟨d, h, by simp⟩
  obtain ⟨e, he⟩ := Option.isSome_iff_exists.1 named
  have replaced := desc_updDesc s (f := fun _ => { d with run := r }) (ring := d.ring) (seq := d.seq) fun _ _ _ => ⟨rfl, rfl⟩
  rw [he] at replaced
  exact replaced

theorem running_counted (s : State) (n : Nat) (d : Desc) (j : Nat) (k : TaskKind) :
    (s.counted n d j k).map (fun r => (r.pipe j).running) = d.run.map (fun r => (r.pipe j).running + 1) := by
  unfold State.counted
  rw [Option.map_map]
  refine Option.map_congr fun r _ => ?_
  rw [Function.comp_apply, pipe_updPipe_same]
  cases k <;> rfl

theorem placed_giveTask {s : State} {n : Nat} {d : Desc} {j : Nat} {k : TaskKind} (h : d ∈ s.eng.descs) :
    (s.giveTask n d j k).placed n d.ring d.seq j = (some (d.ring, d.seq, d.ctx, j, k, true, false), some (s.ctxIdent d.ctx),
      (s.rd (Reg.SLC_STATUS n) F.SLC_STATUS_CBUF_MODE != b2n ((s.img ((d.run.map (·.slot)).getD 0)).isa == 0)) ||
        ((s.slice n).last != some (s.ctxIdent d.ctx)), d.run.map (fun r => (r.pipe j).running + 1)) := by
  have slot : (s.counted n d j k).map (·.slot) = d.run.map (·.slot) := by
    unfold State.counted
    rw [Option.map_map]
    rfl
  rw [placed_giveTask_seated, ← running_counted s n d j k, ← slot]
  unfold State.seated
  dsimp only
  rw [placed_setSlice_same, State.run, desc_setDesc h]
  rfl

/-- What a dispatch shows, as the slice, the run and the task on the slice have it. -/
theorem dispatched {t : State} {n j : Nat} {d : Desc} {k : TaskKind} {who : Ident} {p : Bool} {c : Option Nat}
    (h : t.placed n d.ring d.seq j = (some (d.ring, d.seq, d.ctx, j, k, true, false), some who, p, c)) :
    (t.slice n).task.any (fun y => y.ring == d.ring && y.seq == d.seq && y.ctx == d.ctx && y.pipe == j && y.kind == k &&
      y.batch.isNone && !y.opened) = true ∧ (t.slice n).last = some who ∧ (t.slice n).rewriting = p ∧
    (t.run d.ring d.seq).map (fun r => (r.pipe j).running) = c := by
  obtain ⟨hx, rest⟩ := Prod.mk.inj h
  obtain ⟨hlast, rest⟩ := Prod.mk.inj rest
  obtain ⟨hp, hc⟩ := Prod.mk.inj rest
  obtain ⟨x, hx, hmark⟩ := Option.map_eq_some_iff.1 hx
  refine ⟨?_, hlast, hp, hc⟩
  rw [hx]
  simp only [Task.mark, Prod.mk.injEq] at hmark
  simp [hmark]

/-- DISPATCH for a slice that the turbo rule does not hold. -/
theorem giveUnlessHeld_dispatch {s : State} {n : Nat} {recv : Bool} {el : List Nat} {w : Nat} {d : Desc} {j : Nat} {k : TaskKind}
    (free : s.slcFree n = true) (held : s.turboHeld n = false)
    (hel : (s.runCtxs.filter (fun c => s.ctxMay c n)).filter (fun c => (s.ctxTask c n).isSome) = el) (wins : s.winner el = some w)
    (task : s.ctxTask w n = some (d, j, k)) (kind : recv = true → k = .recv) :
    s.giveUnlessHeld n (fun s => s.dispatch n recv) = (s.decided el w).giveTask n d j k := by
  have goes : (recv && k != .recv) = false := by
    cases recv with
    | false => rfl
    | true => rw [kind rfl]; rfl
  have decided : s.dispatch n recv = (s.decided el w).giveTask n d j k := by
    unfold State.dispatch
    rw [hel]
    dsimp only
    rw [wins]
    dsimp only
    rw [task]
    dsimp only
    rw [goes]
    rfl
  unfold State.giveUnlessHeld
  rw [free, held]
  exact decided

/-- Where the turbo rule holds a slice, it takes no task. -/
theorem task_giveUnlessHeld {s : State} {n : Nat} (f : State → State) (free : s.slcFree n = true) (held : s.turboHeld n = true) :
    ((s.giveUnlessHeld n f).slice n).task = none := by
  have idle : (s.slice n).task = none := by
    simpa using (Bool.and_eq_true_iff.1 free).2
  unfold State.giveUnlessHeld
  rw [free, held]
  show ((if ((f s).slice n).task.isSome then s.aimCode (n / 3) _ else s).slice n).task = _
  exact keeps_ite (g := fun t : State => (t.slice n).task) ((congrArg Slice.task (slice_congr (eng_aimCode ..) n)).trans idle) idle

/-- A dispatch decision puts the winner's task on the slice. -/
theorem decided_giveTask {s : State} {n : Nat} {el : List Nat} {w : Nat} {d : Desc} {j : Nat} {k : TaskKind}
    (task : s.ctxTask w n = some (d, j, k)) : let t := (s.decided el w).giveTask n d j k
    (t.slice n).task.any (fun y => y.ring == d.ring && y.seq == d.seq && y.ctx == d.ctx && y.pipe == j && y.kind == k &&
      y.batch.isNone && !y.opened) = true ∧ (t.slice n).last = some (s.ctxIdent d.ctx) ∧
    ((t.slice n).rewriting = true ↔ (s.slice n).last ≠ some (s.ctxIdent d.ctx) ∨
      s.rd (Reg.SLC_STATUS n) F.SLC_STATUS_CBUF_MODE ≠ b2n ((s.img ((d.run.map (·.slot)).getD 0)).isa == 0)) ∧
    (t.run d.ring d.seq).map (fun r => (r.pipe j).running) = d.run.map (fun r => (r.pipe j).running + 1) := by
  have mem : d ∈ s.eng.descs := mem_of_ctxTask task
  have placed : ((s.decided el w).giveTask n d j k).placed n d.ring d.seq j =
      (some (d.ring, d.seq, d.ctx, j, k, true, false), some (s.ctxIdent d.ctx),
        (s.rd (Reg.SLC_STATUS n) F.SLC_STATUS_CBUF_MODE != b2n ((s.img ((d.run.map (·.slot)).getD 0)).isa == 0)) ||
          ((s.slice n).last != some (s.ctxIdent d.ctx)), d.run.map (fun r => (r.pipe j).running + 1)) :=
    placed_giveTask (s := s.decided el w) mem
  generalize (s.decided el w).giveTask n d j k = t at placed
  obtain ⟨stands, last, rewriting, count⟩ := dispatched placed
  refine ⟨stands, last, ?_, count⟩
  rw [rewriting, Bool.or_eq_true, bne_iff_ne, bne_iff_ne]
  exact Or.comm

/-! ### EXCHANGE (05 R184, R185) -/

theorem moveFlits_unplaced {s : State} {m : XMsg} (h : m.place = none) : s.moveFlits m = (m, s) := by
  unfold State.moveFlits
  split
  · rfl
  · rename_i placed
    exact absurd (placed.symm.trans h) nofun

/-- A slice that must move none of its messages to spill moves none. -/
theorem drainRecv_idle {s : State} {n : Nat} (hr : ∀ q ∈ (s.slice n).rbuf, s.mustSpill n q.m.ring q.m.seq q.m.xid = false)
    (hx : ∀ m ∈ s.eng.xch, s.mustSpill n m.ring m.seq m.xid = false) : s.drainRecv n = s := by
  have whole : (List.range (s.slice n).rbuf.length).foldl (fun s i => match (s.slice n).rbuf[i]? with
      | some q => if q.spill.isNone && s.mustSpill n q.m.ring q.m.seq q.m.xid then s.spillOne n i else s
      | none => s) s = s := List.foldl_fixed' (fun i => by
    split
    · rename_i q at_
      simp [hr q (List.mem_of_getElem? at_)]
    · rfl) _
  have part : (List.range s.eng.xch.length).foldl (fun s i => match s.eng.xch[i]? with
      | some m =>
        if m.dst == n && decide (0 < m.taken) && m.place.isNone && s.mustSpill n m.ring m.seq m.xid then s.spillPart i else s
      | none => s) s = s := List.foldl_fixed' (fun i => by
    split
    · rename_i m at_
      simp [hx m (List.mem_of_getElem? at_)]
    · rfl) _
  unfold State.drainRecv
  exact (congrArg (fun u : State => (List.range u.eng.xch.length).foldl _ u) whole).trans part

/-- What an exchange message that arrives at a slice meets. -/
def State.arrivals (n : Nat) (s : State) : List XMsg × Option Task × List RMsg × List Desc × Tab (Option Image) :=
  (s.eng.xch, (s.slice n).task, (s.slice n).rbuf, s.eng.descs, s.eng.images)

theorem arrivals_cbWrite (s : State) (n : Nat) (agg : Bool) (rs : List (Nat × Nat)) :
    (s.cbWrite n agg rs).arrivals n = s.arrivals n :=
  cbWrite_keeps (g := State.arrivals n) (fun s agg ln bits => by
    unfold State.arrivals
    rw [slice_setBad]
    rfl) (fun _ => rfl) agg rs

section
variable {s t : State} (hd : t.eng.descs = s.eng.descs) (hi : t.eng.images = s.eng.images)
include hd hi

theorem xWidths_congr (m : XMsg) : t.xWidths m = s.xWidths m := by
  unfold State.xWidths State.img State.image State.run State.desc
  rw [hd, hi]

theorem recvWaits_congr (ring seq xid : Nat) : t.recvWaits ring seq xid = s.recvWaits ring seq xid := by
  unfold State.recvWaits State.img State.image State.run State.desc
  rw [hd, hi]

end

/-- A slice with no task keeps in its receive buffer the messages of an exchange that does not pass through spill. -/
theorem mustSpill_idle {s : State} {n ring seq xid : Nat} (task : (s.slice n).task = none)
    (waits : s.recvWaits ring seq xid = false) (room : s.recvFlits n ≤ 448) : s.mustSpill n ring seq xid = false := by
  simp [State.mustSpill, task, waits, room]

/-- The state with other exchange messages on their way. -/
def State.withXch (s : State) (l : List XMsg) : State := s.eng' (fun e => { e with xch := l })

/-- The exchange messages change, and then their senders send on. -/
def State.sendOn (s : State) (f : List XMsg → List XMsg) : State := s.eng' (fun e => Eng.xSend { e with xch := f e.xch })

theorem sendOn_eq {s : State} {f : List XMsg → List XMsg} {l : List XMsg}
    (h : Eng.xSend { s.eng with xch := f s.eng.xch } = { s.eng with xch := l }) : s.sendOn f = s.withXch l :=
  congrArg (fun e => { s with eng := e }) h

/-- A message that has arrived whole joins the receive buffer. -/
def State.receive (s : State) (n : Nat) (q : RMsg) : State := s.setSlice n { s.slice n with rbuf := (s.slice n).rbuf ++ [q] }

/-- Of the only message, all of whose flits sent have been taken, at most 16 more are sent. -/
theorem xSend_one (g : Eng) (m : XMsg) (h : m.taken = m.sent) :
    Eng.xSend { g with xch := [m] } = { g with xch := [{ m with sent := m.sent + min 16 (m.flits - m.sent) }] } := by
  have used : Eng.xUsed { g with xch := [m] } m.src m.dst = 0 := by simp [Eng.xUsed, h]
  show { g with xch := [{ m with sent := m.sent + min (16 - Eng.xUsed { g with xch := [m] } m.src m.dst) (m.flits - m.sent) }] } = _
  rw [used]

section
variable {s : State} {n : Nat} {m : XMsg} (only : s.eng.xch = [m]) (dst : m.dst = n) (news : m.taken < m.sent)
  (unplaced : m.place = none) (task : (s.slice n).task = none) (empty : (s.slice n).rbuf = []) (room : m.flits ≤ 448)
  (waits : s.recvWaits m.ring m.seq m.xid = false)
include only dst news

/-- The slice takes the flits on their way of the only message. -/
theorem takeExchange_only (unplaced : m.place = none) : ∃ u : State, u.arrivals n = s.arrivals n ∧
    s.takeExchange n = (if m.sent < m.flits then u.sendOn (fun l => setNth l 0 { m with taken := m.sent })
      else (u.sendOn (fun l => l.take 0 ++ l.drop 1)).receive n
        ⟨m.place.map Prod.fst, u.xWidths { m with taken := m.sent }, 0, { m with taken := m.sent }⟩).drainRecv n := by
  have first : s.eng.xch.findIdx? (fun m => m.dst == n && decide (m.taken < m.sent)) = some 0 := by
    simp [only, dst, news]
  have at0 : s.eng.xch[0]? = some m := by rw [only]; rfl
  refine ⟨_, arrivals_cbWrite s n false (recvRanges (s.recvFlits n) (m.sent - m.taken)), ?_⟩
  unfold State.takeExchange
  rw [first]
  dsimp only
  rw [at0]
  dsimp only
  rw [moveFlits_unplaced (by exact unplaced)]
  rfl

include unplaced task empty room waits

/-- The message that is whole joins the receive buffer. -/
theorem takeExchange_whole (whole : m.sent = m.flits) : (s.takeExchange n).eng.xch = [] ∧
    ((s.takeExchange n).slice n).rbuf = [⟨none, s.xWidths m, 0, { m with taken := m.sent }⟩] := by
  obtain ⟨u, seen, taken⟩ := takeExchange_only only dst news unplaced
  simp only [State.arrivals, Prod.mk.injEq] at seen
  obtain ⟨hxch, htask, hrbuf, hdescs, himages⟩ := seen
  have gone : u.sendOn (fun l => l.take 0 ++ l.drop 1) = u.withXch [] := sendOn_eq (by rw [hxch, only]; rfl)
  have widths : u.xWidths { m with taken := m.sent } = s.xWidths m := xWidths_congr hdescs himages _
  have nowhere : m.place.map Prod.fst = none := by rw [unplaced]; rfl
  rw [if_neg (by omega), gone, widths, nowhere] at taken
  generalize hv : (u.withXch []).receive n _ = v at taken
  have slice : v.slice n = { u.slice n with rbuf := [⟨none, s.xWidths m, 0, { m with taken := m.sent }⟩] } := by
    rw [← hv, State.receive, State.slice_setSlice_same, show ((u.withXch []).slice n).rbuf = [] from hrbuf.trans empty]
    rfl
  have alone : v.eng.xch = [] := by rw [← hv]; rfl
  have stays : v.drainRecv n = v := by
    refine drainRecv_idle (fun q hq => ?_) (fun m' hm => by rw [alone] at hm; exact absurd hm List.not_mem_nil)
    rw [slice, List.mem_singleton] at hq
    subst hq
    refine mustSpill_idle (by rw [slice]; exact htask.trans task) ?_ ?_
    · rw [recvWaits_congr (s := s) (by rw [← hv]; exact hdescs) (by rw [← hv]; exact himages)]
      exact waits
    · simpa [State.recvFlits, slice, alone] using room
  rw [taken, stays, alone, slice]
  exact ⟨rfl, rfl⟩

/-- Of a message that is still arriving, the sender sends on. -/
theorem takeExchange_part (more : m.sent < m.flits) : (s.takeExchange n).eng.xch =
      [{ m with taken := m.sent, sent := m.sent + min 16 (m.flits - m.sent) }] ∧
    ((s.takeExchange n).slice n).rbuf = (s.slice n).rbuf := by
  obtain ⟨u, seen, taken⟩ := takeExchange_only only dst news unplaced
  simp only [State.arrivals, Prod.mk.injEq] at seen
  obtain ⟨hxch, htask, hrbuf, hdescs, himages⟩ := seen
  have on : u.sendOn (fun l => setNth l 0 { m with taken := m.sent }) =
      u.withXch [{ m with taken := m.sent, sent := m.sent + min 16 (m.flits - m.sent) }] :=
    sendOn_eq (by rw [hxch, only]; exact xSend_one _ _ rfl)
  rw [if_pos more, on] at taken
  generalize hv : u.withXch _ = v at taken
  have slice : v.slice n = u.slice n := by rw [← hv]; rfl
  have xch : v.eng.xch = [{ m with taken := m.sent, sent := m.sent + min 16 (m.flits - m.sent) }] := by rw [← hv]; rfl
  have stays : v.drainRecv n = v := by
    refine drainRecv_idle (fun q hq => by rw [slice, hrbuf, empty] at hq; exact absurd hq List.not_mem_nil) (fun q hq => ?_)
    rw [xch, List.mem_singleton] at hq
    subst hq
    refine mustSpill_idle (by rw [slice]; exact htask.trans task) ?_ ?_
    · rw [recvWaits_congr (s := s) (by rw [← hv]; exact hdescs) (by rw [← hv]; exact himages)]
      exact waits
    · simp only [State.recvFlits, slice, hrbuf, empty, xch]
      simp [dst, unplaced]
      omega
  rw [taken, stays, xch, slice, hrbuf]
  exact ⟨rfl, rfl⟩

end

/-! ### CBUF_REWRITE_DONE (03 R68, 14 R370) -/

/-- What a slice's start shows once its column buffer is rewritten. -/
def State.restart (n : Nat) (s : State) : Option Task × Bool × Tab AggLine × Nat :=
  ((s.slice n).task, (s.slice n).rewriting, (s.slice n).agg, s.rd (Reg.SLC_STATUS n) F.SLC_STATUS_STATE)

theorem restart_cbWrite (s : State) (n : Nat) (agg : Bool) (rs : List (Nat × Nat)) :
    (s.cbWrite n agg rs).restart n = s.restart n :=
  cbWrite_keeps (g := State.restart n) (fun s agg ln bits => by
    unfold State.restart
    rw [slice_setBad]
    rfl) (fun s => by
    have apart : Reg.SLC_STATUS n ≠ Reg.SLC_CBFLIP n := by simp only [Reg.SLC_STATUS, Reg.SLC_CBFLIP]; omega
    unfold State.restart
    rw [rd_wr_other s _ _ _ apart]
    rfl) agg rs

theorem restart_rewritten {s : State} {n : Nat} {x : Task} (task : (s.slice n).task = some x) (due : (s.slice n).rewriting = true) :
    (s.rewritten n).restart n = (some x, false, if (s.slice n).clearing then [] else (s.slice n).agg, 1) := by
  have state : ∀ (s : State) (o a b c : Nat), (s.wrs o [(F.SLC_STATUS_CBUF_MODE, a), (F.SLC_STATUS_STATE, 1),
      (F.SLC_STATUS_CTX, b), (F.SLC_STATUS_LEVEL, c)]).rd o F.SLC_STATUS_STATE = 1 := fun s o a b c => by
    show ((((s.wr o _ a).wr o _ 1).wr o F.SLC_STATUS_CTX b).wr o F.SLC_STATUS_LEVEL c).rd o F.SLC_STATUS_STATE = 1
    rw [rd_wr_apart _ _ _ _ _ (by decide) (by decide), rd_wr_apart _ _ _ _ _ (by decide) (by decide),
      rd_wr_fits _ _ _ _ (by decide) (by decide) (by decide)]
  unfold State.rewritten
  dsimp only
  rw [task]
  dsimp only
  rw [due, if_neg (by decide)]
  refine (keeps_ite (restart_cbWrite ..) rfl).trans ((restart_cbWrite ..).trans ?_)
  unfold State.restart
  rw [state, slice_congr (eng_wrs ..), State.slice_setSlice_same]

/-! ### CBUF_SCRUB (03 R69) -/

/-- A scrub goes on to the next line. -/
def State.scrubbed (s : State) (n : Nat) : State :=
  s.setSlice n { s.slice n with scrub := ((s.slice n).scrub + 1) % 32768 }

theorem slice_scrubbed (s : State) (n : Nat) :
    (s.scrubbed n).slice n = { s.slice n with scrub := ((s.slice n).scrub + 1) % 32768 } := State.slice_setSlice_same _ _ _

section
variable {s : State} {n : Fin 36} {l : List Nat} (on : s.on (Reg.SLC_CTRL n) F.SLC_CTRL_CBUF_SCRUB = true)
  (line : Tab.get [] (s.slice n).bad (s.slice n).scrub = l)
include on line

theorem execCbufScrub_clean (sound : l = []) : execCbufScrub n s = .next (s.scrubbed n) := by
  unfold execCbufScrub
  rw [on, if_neg (by decide)]
  dsimp only
  rw [line, sound]
  rfl

theorem execCbufScrub_correctable (wrong : l ≠ []) (units : errUnits (s.byWord n false) l < 100) :
    execCbufScrub n s = .next ((s.scrubbed n).cbCorrect n false (s.slice n).scrub l 2 noIdent) := by
  unfold execCbufScrub
  rw [on, if_neg (by decide)]
  dsimp only
  rw [line, if_neg (by simpa using wrong)]
  exact if_pos units

theorem execCbufScrub_uncorrectable (wrong : l ≠ []) (units : 100 ≤ errUnits (s.byWord n false) l) :
    execCbufScrub n s = .next ((s.scrubbed n).cbRecord n false (s.slice n).scrub 3 2 noIdent) := by
  unfold execCbufScrub
  rw [on, if_neg (by decide)]
  dsimp only
  rw [line, if_neg (by simpa using wrong)]
  exact if_neg (Nat.not_lt.2 units)

end

/-- A corrected line keeps the wrong bits that were not corrected. -/
theorem slice_cbCorrect (s : State) (n : Nat) (agg : Bool) (ln : Nat) (bits : List Nat) (src : Nat) (who : Ident) :
    (s.cbCorrect n agg ln bits src who).slice n = { s.slice n with
      bad := Tab.put [] (s.slice n).bad (badKey agg ln)
        ((Tab.get [] (s.slice n).bad (badKey agg ln)).filter (fun b => !bits.contains b)) } := by
  have recorded := foldl_keeps State.eng (fun (s : State) (_ : Nat) => s.cbRecord n agg ln 1 src who) (fun s _ => eng_cbRecord ..)
    (List.range (errUnits (s.byWord n agg) bits)) s
  unfold State.cbCorrect
  dsimp only
  rw [slice_setBad, slice_congr recorded]

/-! ### TASK_END (03 R74) -/

/-- A task that leaves its slice leaves it free, with an empty aggregation cache. -/
theorem slice_leaveSlice (s : State) (n : Nat) (x : Task) :
    (s.leaveSlice n x).slice n = { s.slice n with task := none, rewriting := false, clearing := false, agg := [] } := by
  unfold State.leaveSlice
  dsimp only
  rw [slice_pmcSlc]
  refine (slice_congr (eng_wrs ..) n).trans ?_
  exact State.slice_setSlice_same _ n _

theorem fail_updRun (s : State) (ring seq : Nat) (f : Run → Run) :
    ((s.updRun ring seq f).desc ring seq).map (·.fail) = (s.desc ring seq).map (·.fail) := by
  unfold State.updRun
  rw [desc_updDesc s (f := fun d => { d with run := d.run.map f }) fun _ h h' => ⟨h, h'⟩, Option.map_map]
  rfl

theorem fail_leaveSlice (s : State) (n : Nat) (x : Task) :
    ((s.leaveSlice n x).desc x.ring x.seq).map (·.fail) = (s.desc x.ring x.seq).map (·.fail) := by
  unfold State.leaveSlice
  dsimp only
  rw [desc_congr (eng_pmcSlc ..), desc_congr (eng_wrs ..)]
  exact fail_updRun _ _ _ _

/-- The end of a task on a slice, but for a power-down that waits for it. -/
theorem execTaskEnd_eng {s : State} (n : Fin 36) (goes : s.slcGated n = false) :
    ∃ t, execTaskEnd n s = .next t ∧ t.eng = (s.taskEnd n).eng := by
  unfold execTaskEnd
  dsimp only
  rw [goes, if_neg Bool.false_ne_true]
  split
  · exact ⟨_, rfl, eng_fenceUnit ..⟩
  · exact ⟨_, rfl, rfl⟩

theorem taskEnd_finished {s : State} {n : Nat} {x y : Task} {p : PipeSt} (task : (s.slice n).task = some x)
    (goes : s.taskGoes n x = true) (pipe : (s.run x.ring x.seq).map (fun r => r.pipe x.pipe) = some p)
    (done : x.finished p.gathered = true) (ending : x.ending = false)
    (flushed : ((s.taskDo n (fun t => flushTask n t)).slice n).task = some y) (good : y.fail = none) (going : y.stall = none) :
    s.taskEnd n = ((s.taskDo n (fun t => flushTask n t)).leaveSlice n y).stagedInDone y := by
  have whole : x.fail = none := by
    simp only [State.taskGoes, Bool.and_eq_true, Option.isNone_iff_eq_none] at goes
    tauto
  unfold State.taskEnd
  rw [task]
  dsimp only
  rw [whole, pipe]
  dsimp only
  rw [ending, Option.getD_some, done, flushed]
  simp [good, going]

theorem taskEnd_failed {s : State} {n : Nat} {x : Task} {f : Fail} (task : (s.slice n).task = some x) (failed : x.fail = some f) :
    s.taskEnd n = (s.leaveSlice n x).fixRun x.ring x.seq f := by
  unfold State.taskEnd
  rw [task]
  dsimp only
  rw [failed]

/-- Settles O39: each command is followed through the operations that it is made of, by what they show of the slice. -/
theorem slicesComplete : Obligations.SlicesComplete := by
  unfold Obligations.SlicesComplete
  refine ⟨fun s n el w d j k free held hel wins task => ?_, fun s n free held => ?_,
    fun s n el w d j free held hel wins task => ?_,
    fun s n m only dst news whole unplaced task empty room waits => ?_,
    fun s n m only dst news more unplaced task empty room waits => ?_, fun s n x task due => ?_, fun s n on line => ?_,
    fun s n l on line wrong units => ?_, fun s n l on line wrong units => ?_,
    fun s n x y p task goes pipe done ending flushed good going => ?_, fun s n x f task gated failed => ?_⟩
  · exact ⟨_, congrArg Host.Outcome.next (giveUnlessHeld_dispatch free held hel wins task nofun), decided_giveTask task⟩
  · exact ⟨_, rfl, task_giveUnlessHeld _ free held⟩
  · exact ⟨_, congrArg Host.Outcome.next (giveUnlessHeld_dispatch free held hel wins task fun _ => rfl), decided_giveTask task⟩
  · exact ⟨_, rfl, takeExchange_whole only dst news unplaced task empty room waits whole⟩
  · exact ⟨_, rfl, takeExchange_part only dst news unplaced task empty room waits more⟩
  · have shown := restart_rewritten task due
    simp only [State.restart, Prod.mk.injEq] at shown
    exact ⟨_, rfl, shown⟩
  · exact ⟨_, execCbufScrub_clean on line rfl, by rw [slice_scrubbed], by rw [slice_scrubbed], by rw [slice_scrubbed], rfl⟩
  · refine ⟨_, execCbufScrub_correctable on line wrong units, ?_, ?_, ?_⟩ <;> rw [slice_cbCorrect, slice_scrubbed]
    show Tab.get [] (Tab.put [] (s.slice n).bad (s.slice n).scrub ((Tab.get [] (s.slice n).bad (s.slice n).scrub).filter _)) _ = _
    rw [Tab.get_put_same, line]
    exact List.filter_eq_nil_iff.2 fun b hb => by simpa using hb
  · refine ⟨_, execCbufScrub_uncorrectable on line wrong units, ?_, ?_, ?_⟩ <;>
      rw [slice_congr (eng_cbRecord ..), slice_scrubbed]
  · have ungated : s.slcGated n = false := by
      simp only [State.taskGoes, Bool.and_eq_true, Bool.not_eq_true'] at goes
      exact goes.2
    obtain ⟨t, run, same⟩ := execTaskEnd_eng n ungated
    rw [taskEnd_finished task goes pipe done ending flushed good going, eng_stagedInDone] at same
    refine ⟨t, run, ?_, ?_⟩ <;> rw [slice_congr same, slice_leaveSlice]
  · obtain ⟨t, run, same⟩ := execTaskEnd_eng n gated
    rw [taskEnd_failed task failed] at same
    refine ⟨t, run, ?_, ?_, ?_⟩
    · rw [slice_congr same, slice_fixRun, slice_leaveSlice]
      rfl
    · rw [slice_congr same, slice_fixRun, slice_leaveSlice]
    · rw [desc_congr same, desc_fixRun, Option.map_map]
      have fails := congrArg (Option.map fun g : Option Fail => some (g.getD f)) (fail_leaveSlice s n x)
      rw [Option.map_map, Option.map_map] at fails
      exact fails

end Sys2Proof.Machine
end

section
/-! PROOFS. Registers of the ring manager under a write of memory: RING_HEAD is none that such a write changes. -/

namespace Sys2Proof.Machine
open Sys2Proof
-- One proof after another: elaborated side by side, the proofs of the one text pass the memory that the check allows.
set_option Elab.async false

/-- Register `o` is none that an access to memory can write: it lies above those of the memory channels, and at 0x28 of its 64
bytes, where neither the counters 2 and 3 of a CXL port nor the LFSR of an L3 slice lie. (`BeyondMemRegs` does not hold of
RING_HEAD: that of the first ring pairs lies in the first 4 KiB of its block, and a write steps an LFSR.) -/
def ClearOfMemory (o : Nat) : Prop := 0x21000000 ≤ o ∧ o % 0x40 = 0x28

theorem clearOfMemory_ringHead (n : Nat) : ClearOfMemory (Reg.RING_HEAD n) := by
  unfold ClearOfMemory Reg.RING_HEAD
  omega

theorem chanOf_lt (s : State) (pa : Nat) : s.chanOf pa < 16 := by
  unfold State.chanOf
  split <;> omega

theorem regs_takeBack (s : State) (ln : Nat) (f : LineData → LineData) : (s.takeBack ln f).regs = s.regs := by
  simp only [kept @State.takeBack_fr]

/-- A write that is issued is counted, if it is no correction, and then goes as a scrub's does. -/
theorem issueWrite_counted (s : State) (w : WqEntry) : ∃ c, s.issueWrite w = c.issueWrite { w with src := .scrub } ∧
    (c = s ∨ ∃ k who, k < 8 ∧ c = s.pmcMem w.ln k 3 who) := by
  obtain ⟨ln, data, mask, poison, src, flip, who⟩ := w
  cases src with
  | home => exact ⟨_, rfl, .inr ⟨1, who, by decide, rfl⟩⟩
  | fill => exact ⟨_, rfl, .inr ⟨4, none, by decide, rfl⟩⟩
  | zero => exact ⟨_, rfl, .inr ⟨4, none, by decide, rfl⟩⟩
  | scrub => exact ⟨_, rfl, .inl rfl⟩
  | correction => exact ⟨_, rfl, .inl rfl⟩

namespace ClearOfMemory
variable {o : Nat} (ho : ClearOfMemory o)
include ho

theorem ne_low {p : Nat} (hp : p < 0x21000000) : o ≠ p := by
  rintro rfl
  exact absurd hp (Nat.not_lt_of_le ho.1)

theorem ne_mod {p : Nat} (hp : p % 0x40 ≠ 0x28) : o ≠ p := by
  rintro rfl
  exact hp ho.2

/-! ### Reads at the controller -/

theorem rdW_pmcMch (s : State) {m k : Nat} (who : Option Ident) (hm : m < 16) (hk : k < 8) :
    (s.pmcMch m k who).rdW o = s.rdW o :=
  rdW_pmcAdd_other s _ _ _ (ho.ne_low (by simp only [Reg.MCH_PMC]; omega))

theorem rdW_pmcMem (s : State) (ln : Nat) {k kc : Nat} (who : Option Ident) (hk : k < 8) (hkc : kc = 2 ∨ kc = 3) :
    (s.pmcMem ln k kc who).rdW o = s.rdW o := by
  unfold State.pmcMem
  split
  · exact rdW_pmcAdd_other s _ _ _ (ho.ne_mod (by simp only [Reg.PRT_PMC]; omega))
  · exact ho.rdW_pmcMch s who (chanOf_lt s _) hk
  · rfl

theorem rdW_wakeChannel (s : State) {m : Nat} (hm : m < 16) : (s.wakeChannel m).rdW o = s.rdW o := by
  unfold State.wakeChannel
  split
  · exact (rdW_congr rfl o).trans (rdW_wr_other s F.MCH_STATUS_STATE 3 (ho.ne_low (by simp only [Reg.MCH_STATUS]; omega)))
  · rfl

/-- An error of a memory channel goes into the channel's own record. -/
theorem rdW_recordMem (s : State) {m : Nat} (ue : Bool) (src dev addr : Nat) (hm : m < 16) :
    (s.recordMem m ue src dev addr).rdW o = s.rdW o := by
  have info : o ≠ Reg.MCH_ERR_INFO m := ho.ne_low (by simp only [Reg.MCH_ERR_INFO]; omega)
  have place : o ≠ Reg.MCH_ERR_ADDR m := ho.ne_low (by simp only [Reg.MCH_ERR_ADDR]; omega)
  have fill (l : List (Fld × Nat)) (f : Fld) (v : Nat) :
      ((s.wrs (Reg.MCH_ERR_INFO m) l).wr (Reg.MCH_ERR_ADDR m) f v).rdW o = s.rdW o := by
    rw [rdW_wr_other _ _ _ place, rdW_wrs_other _ _ info]
  unfold State.recordMem
  dsimp only
  rw [rdW_raise]
  exact rdW_ite (rdW_logged (fill _ _ _)) (rdW_ite (rdW_logged (fill _ _ _)) (rdW_wr_other s _ _ info))

theorem rdW_readMemLine (s : State) (ln src : Nat) (who : Option Ident) : (s.readMemLine ln src who).2.rdW o = s.rdW o := by
  have hm := chanOf_lt s (128 * ln)
  unfold State.readMemLine
  split
  · split <;> rfl
  · generalize s.chanOf (128 * ln) = m at hm
    have counted : (if src = 2 then (s.wakeChannel m).pmcMch m 3 none
        else if src = 3 then (s.wakeChannel m).pmcMch m 2 who else s.wakeChannel m).rdW o = s.rdW o := by
      have woken := ho.rdW_wakeChannel s hm
      exact rdW_ite ((ho.rdW_pmcMch _ _ hm (by decide)).trans woken)
        (rdW_ite ((ho.rdW_pmcMch _ _ hm (by decide)).trans woken) woken)
    have recorded (c : State) (f : Fld) (ue : Bool) (src dev addr : Nat) :
        ((c.satF (Reg.MCH_CE_COUNT m) f 1).recordMem m ue src dev addr).rdW o = c.rdW o :=
      (ho.rdW_recordMem _ _ _ _ _ hm).trans (rdW_satF_other c f 1 (ho.ne_low (by simp only [Reg.MCH_CE_COUNT]; omega)))
    dsimp only
    generalize (if src = 2 then _ else _ : State) = c at counted ⊢
    split
    · exact counted
    · exact counted
    · dsimp only
      have ce := (recorded c F.MCH_CE_COUNT_CE false src · (128 * ln)|>.trans counted)
      exact rdW_ite (ce _) ((rdW_congr (regs_queueWrite _ _) o).trans (ce _))
    · exact (recorded ..).trans counted

theorem rdW_lineNow (s : State) (who : Ident) (ln : Nat) : (s.lineNow who ln).2.rdW o = s.rdW o := by
  unfold State.lineNow
  split
  · rfl
  · refine Eq.trans ?_ (ho.rdW_pmcMem s ln (some who) (k := 0) (by decide) (.inl rfl))
    generalize s.pmcMem ln 0 2 (some who) = s
    unfold State.readLineQ
    dsimp only
    split_ifs
    · rfl
    · split
      · dsimp only
        split_ifs
        · rfl
        · exact (rdW_congr rfl o).trans (ho.rdW_readMemLine s ln 3 _)
      · exact ho.rdW_readMemLine s ln 1 none

/-! ### Writes at the controller -/

theorem rdW_applyFlip (s : State) (ln : Nat) : (s.applyFlip ln).rdW o = s.rdW o := by
  have hm := chanOf_lt s (128 * ln)
  have flip : o ≠ Reg.MCH_FLIP (s.chanOf (128 * ln)) := ho.ne_low (by simp only [Reg.MCH_FLIP]; omega)
  have addr : o ≠ Reg.MCH_FLIP_ADDR (s.chanOf (128 * ln)) := ho.ne_low (by simp only [Reg.MCH_FLIP_ADDR]; omega)
  unfold State.applyFlip
  dsimp only
  refine rdW_ite ?_ rfl
  rw [rdW_wrs_other _ _ addr, rdW_wr_other _ _ _ flip]
  rfl

theorem rdW_issueWrite (s : State) (w : WqEntry) : (s.issueWrite w).rdW o = s.rdW o := by
  obtain ⟨c, issued, counted⟩ := issueWrite_counted s w
  have same : c.rdW o = s.rdW o := by
    obtain rfl | ⟨k, who, hk, rfl⟩ := counted
    · rfl
    · exact ho.rdW_pmcMem s w.ln who hk (.inr rfl)
  have stored (t : State) (d : LineData) :
      (if w.flip then (t.storeLine w.ln d).applyFlip w.ln else t.storeLine w.ln d).rdW o = t.rdW o :=
    rdW_ite (ho.rdW_applyFlip _ _) rfl
  have woken := (ho.rdW_wakeChannel c (chanOf_lt c (128 * w.ln))).trans same
  rw [issued]
  unfold State.issueWrite
  dsimp only
  split
  · split_ifs <;> exact same
  · exact rdW_ite ((stored _ _).trans woken) ((stored _ _).trans ((ho.rdW_readMemLine _ _ _ _).trans woken))

theorem rdW_writeLineNow (s : State) (w : WqEntry) : (s.writeLineNow w).rdW o = s.rdW o := by
  unfold State.writeLineNow
  exact (ho.rdW_issueWrite _ _).trans ((foldl_keeps (State.rdW · o) _ (fun s v => ho.rdW_issueWrite s v) _ _).trans rfl)

/-! ### Accesses of agents that do not cache -/

theorem rdW_l3Alloc (s : State) (t ln : Nat) (d : LineData) (dirty : Bool) (pid : Nat) (who : Option Ident) :
    (s.l3Alloc t ln d dirty pid who).rdW o = s.rdW o := by
  have picked (n : Nat) : (s.lfsrPick t n).2.rdW o = s.rdW o :=
    rdW_wr_other s _ _ (ho.ne_mod (by simp only [Reg.L3_LFSR]; omega))
  have written (c : State) (k : Nat) (v : LineData) : (c.memWr k v who).rdW o = c.rdW o := rdW_congr (regs_queueWrite _ _) o
  have homed (c : State) (h : Home) : (c.setHome t h).rdW o = c.rdW o := rfl
  unfold State.l3Alloc
  dsimp only
  split
  · rfl
  · split
    · rfl
    · split_ifs
      · exact written _ _ _
      · rfl
      · refine (homed _ _).trans ?_
        split
        · exact rdW_ite ((written _ _ _).trans (picked _)) (picked _)
        · exact picked _

theorem rdW_overwrite (s : State) (who : Ident) (ln : Nat) (d : LineData) : (s.overwrite who ln d).rdW o = s.rdW o := by
  have back := rdW_congr (regs_takeBack s ln fun _ => d) o
  unfold State.overwrite
  exact rdW_ite ((rdW_congr rfl o).trans back) ((ho.rdW_writeLineNow _ _).trans back)

theorem rdW_mergeWrite (s : State) (who : Ident) (ln : Nat) (data : List Byte) (mask : Nat) :
    (s.mergeWrite who ln data mask).rdW o = s.rdW o := by
  unfold State.mergeWrite
  dsimp only
  split
  · exact (ho.rdW_l3Alloc ..).trans ((rdW_congr (regs_takeBack ..) o).trans (ho.rdW_lineNow s who ln))
  · split
    · exact ho.rdW_overwrite ..
    · exact (ho.rdW_writeLineNow _ _).trans (rdW_congr (regs_takeBack ..) o)

theorem rdW_writeLine (s : State) (who : Ident) (ln : Nat) (data : List Byte) (mask : Nat) :
    (s.writeLine who ln data mask).2.rdW o = s.rdW o := by
  have checked : (s.checkAcc who (128 * ln) true).2.rdW o = s.rdW o := rdW_congr (regs_checkAcc s who _ _) o
  unfold State.writeLine
  split
  next t e =>
    rw [e] at checked
    exact rdW_ite ((ho.rdW_overwrite ..).trans checked) ((ho.rdW_mergeWrite ..).trans checked)
  next e =>
    rw [e] at checked
    exact checked

theorem rdW_writeGo (who : Ident) (f : Nat) (s : State) (pa : Nat) (l : List Byte) :
    (s.writeGo who f pa l).2.rdW o = s.rdW o := by
  induction f generalizing s pa l with
  | zero => rfl
  | succ f ih =>
    cases l with
    | nil => rfl
    | cons b l =>
      have line := ho.rdW_writeLine s who (pa / 128)
      unfold State.writeGo
      dsimp only
      split
      next t e => exact (ih t _ _).trans (by rw [← line, e])
      next e => rw [← line, e]

theorem rdW_writePa (s : State) (who : Ident) (pa : Nat) (l : List Byte) : (s.writePa who pa l).2.rdW o = s.rdW o :=
  ho.rdW_writeGo who _ s pa l

end ClearOfMemory

end Sys2Proof.Machine
end

section
/-! PROOFS. Descriptors: how their work begins, goes on and ends at the ring manager (06 R201 to R209). -/

namespace Sys2Proof.Machine
open Sys2Proof
-- One proof after another: elaborated side by side, the proofs of the one text pass the memory that the check allows.
set_option Elab.async false

/-! ### A descriptor under its name -/

/-- A descriptor whose work has begun. -/
abbrev Desc.started (d : Desc) : Desc := { d with begun := true }

section
variable {s : State} {ring seq opc : Nat} {d e : Desc}

/-- A descriptor of a name put in place of the one that stands there. -/
theorem desc_setDesc_name (h : s.desc ring seq = some e) (d : Desc) (name : d.ring = ring ∧ d.seq = seq) :
    (s.setDesc d).desc ring seq = some d := by
  obtain ⟨rfl, rfl⟩ := name
  exact (desc_updDesc s (f := fun _ => d) fun _ _ _ => ⟨rfl, rfl⟩).trans (by rw [h]; rfl)

/-- The first status stands; a descriptor that has none yet takes the one given (06 R213). -/
theorem endDesc_first (s : State) (f : Option Fail) (whole : d.fail = none) :
    s.endDesc d f = s.setDesc { d with done := true, stall := none, fail := f } := by
  unfold State.endDesc
  rw [whole]

theorem desc_endDesc (h : s.desc ring seq = some e) (d : Desc) (name : d.ring = ring ∧ d.seq = seq) (whole : d.fail = none)
    (f : Option Fail) : (s.endDesc d f).desc ring seq = some { d with done := true, stall := none, fail := f } := by
  rw [endDesc_first s f whole]
  exact desc_setDesc_name h _ name

/-- A descriptor that ends without an error keeps its status. -/
theorem desc_endDesc_none (found : s.desc ring seq = some d) (whole : d.fail = none) :
    (s.endDesc d none).desc ring seq = some { d with done := true, stall := none } := by
  rw [desc_endDesc found d (name_of_desc found) whole none, ← whole]

/-! ### Beginning and going on -/

theorem begin_mayBegin (h : s.mayBegin ring seq opc d) {ops : Nat → Bool} (kind : ops opc = true) (f : Desc → State → State) :
    s.begin ring seq ops f = f d.started (s.setDesc d.started) := by
  obtain ⟨found, rfl, ready, idle, going, whole, formed⟩ := h
  unfold State.begin
  rw [found]
  dsimp only
  rw [if_neg (by simp [kind, ready, idle, going]), whole, formed]
  simp only [Desc.started, whole]

theorem begin_malformed {o : Nat} (found : s.desc ring seq = some d) (ready : d.ready = true) (idle : d.begun = false)
    (going : d.done = false) (whole : d.fail = none) (bad : descFault d.bytes (s.ringPort ring).isSome = some o)
    {ops : Nat → Bool} (kind : ops d.opc = true) (f : Desc → State → State) :
    s.begin ring seq ops f = s.endDesc d.started (some (illegal 5 o)) := by
  unfold State.begin
  rw [found]
  dsimp only
  rw [if_neg (by simp [kind, ready, idle, going]), whole, bad]
  simp only [Desc.started, whole]

theorem desc_started (h : s.mayBegin ring seq opc d) : (s.setDesc d.started).desc ring seq = some d.started :=
  desc_setDesc_name h.1 d.started (name_of_desc h.1 :)

theorem goOn_atWork (h : s.atWork ring seq opc d) (f : Desc → State → State) : s.goOn ring seq opc f = f d s := by
  obtain ⟨found, kind, begun, going, _⟩ := h
  unfold State.goOn
  rw [found]
  exact if_pos ⟨kind, begun, going⟩

section
variable {c : Instr} {ops : Nat → Bool} {f : Desc → State → State} {P : State → Prop}

/-- A command that begins a descriptor's work completes with what that work leaves. -/
theorem completes_begin (h : s.mayBegin ring seq opc d) (run : exec c s = .next (s.begin ring seq ops f)) (kind : ops opc = true)
    (hp : P (f d.started (s.setDesc d.started))) : Completes c s P := ⟨_, run, by rwa [begin_mayBegin h kind]⟩

/-- A command whose work ends its descriptor at once completes with the status it gives. -/
theorem completes_begin_ended {v : Option Fail} (h : s.mayBegin ring seq opc d)
    (run : exec c s = .next (s.begin ring seq ops f)) (kind : ops opc = true)
    (ends : f d.started (s.setDesc d.started) = (s.setDesc d.started).endDesc d.started v) :
    Completes c s (fun t => t.desc ring seq = some { d with begun := true, done := true, stall := none, fail := v }) := by
  have ⟨found, _, _, _, _, whole, _⟩ := h
  refine completes_begin h run kind ?_
  rw [ends]
  exact desc_endDesc (desc_started h) d.started (name_of_desc found :) whole v

/-- A malformed descriptor ends as illegal at the word its check names, whatever command begins it (06 R203). -/
theorem completes_malformed {o : Nat} (found : s.desc ring seq = some d) (ready : d.ready = true) (idle : d.begun = false)
    (going : d.done = false) (whole : d.fail = none) (bad : descFault d.bytes (s.ringPort ring).isSome = some o)
    (kind : ops d.opc = true) (run : exec c s = .next (s.begin ring seq ops f)) : Completes c s (fun t => t.desc ring seq =
      some { d with begun := true, done := true, stall := none, fail := some (illegal 5 o) }) := by
  refine ⟨_, run, ?_⟩
  rw [begin_malformed found ready idle going whole bad kind]
  exact desc_endDesc found d.started (name_of_desc found :) whole _

/-- A command that goes on with a descriptor's work completes with what that work leaves. -/
theorem completes_goOn (h : s.atWork ring seq opc d) (run : exec c s = .next (s.goOn ring seq opc f)) (hp : P (f d s)) :
    Completes c s P := ⟨_, run, by rwa [goOn_atWork h]⟩

end

end

/-! ### RUN_PIPELINE (06 R204) -/

theorem ops_without_has {p : PipeI} {opc : Nat} (h : p.has opc = false) : p.ops.filter (fun o => o.opc == opc) = [] := by
  unfold PipeI.has PipeI.findOp at h
  rw [Option.isSome_map, Option.isSome_eq_false_iff, Option.isNone_iff_eq_none, List.find?_eq_none] at h
  refine List.filter_eq_nil_iff.2 fun o ho => ?_
  obtain ⟨⟨_, i⟩, hi, rfl⟩ := List.mem_map.1 ((List.zipIdx_map_fst 0 p.ops).symm ▸ ho)
  exact h _ hi

theorem startRun_noImage {d : Desc} (h : d.slot = none) (s : State) : s.startRun d = s.endDesc d (some (illegal 0xF 16)) := by
  unfold State.startRun
  rw [h]

section
variable {s : State} {d : Desc} {k : Nat} {cols outs : List (List Byte)} (image : d.slot = some k)
  (mask : d.arg 20 2 / 2 ^ (s.img k).pipes.length = 0) (whole : inlineWhole (s.img k) (d.arg 20 2) (d.arg 32 4) = true)
  (repl : replaced d (s.img k) = .ok (cols, outs))
include image mask whole repl

/-- With a zero quota or no slice ready a run cannot start. -/
theorem startRun_noSlice (starved : s.rd (Reg.CTX_CFG d.ctx) F.CTX_CFG_SLICE_QUOTA = 0 ∨
      below 36 (fun n => s.slcReady n && bitAt (s.rdW (Reg.CTX_SLICES d.ctx)).toNat n) = []) :
    s.startRun d = s.endDesc d (some ⟨0x32, 0, 0, 0⟩) := by
  unfold State.startRun
  rw [image]
  dsimp only
  rw [mask, if_neg (by simp), if_neg (by simp [whole]), repl]
  exact if_pos (by simpa using starved)

/-- A run with slices ready and no PARTITION starts. -/
theorem startRun_starts (quota : s.rd (Reg.CTX_CFG d.ctx) F.CTX_CFG_SLICE_QUOTA ≠ 0)
    (slices : below 36 (fun n => s.slcReady n && bitAt (s.rdW (Reg.CTX_SLICES d.ctx)).toNat n) ≠ [])
    (apart : ((s.img k).masked (d.arg 20 2)).all (fun x => !x.2.has 0x38) = true) :
    ∃ r, s.startRun d = s.setDesc { d with run := some r } ∧ r.slot = k ∧ r.mask = d.arg 20 2 ∧ r.cols = cols ∧
      r.outs = outs := by
  have parts : ((s.img k).masked (d.arg 20 2)).flatMap (fun x => (x.2.ops.filter (fun o => o.opc == 0x38)).map (fun o =>
      (o.a2, s.destsOf d.ctx (s.img k) o))) = [] := by
    refine List.flatMap_eq_nil_iff.2 fun x hx => ?_
    rw [ops_without_has (by simpa using List.all_eq_true.1 apart x hx)]
    rfl
  unfold State.startRun
  rw [image]
  dsimp only
  rw [mask, if_neg (by simp), if_neg (by simp [whole]), repl]
  dsimp only
  rw [if_neg (by simp [quota, slices]), parts, if_neg (by simp)]
  exact ⟨_, rfl, rfl, rfl, rfl, rfl⟩

end

/-! ### Images (04 R115 to R117) -/

theorem descDo_of_run {s t : State} {d : Desc} {m : EM Unit} (h : m.run s = (.ok (), t)) : s.descDo d m = t := by
  unfold State.descDo
  rw [h]

theorem readImage_local {s : State} {d : Desc} (port : s.ringPort d.ring = none) :
    s.readImage d = s.descDo d (imageBytes d (d.arg 24 4)) := by
  unfold State.readImage
  dsimp only
  rw [port]

theorem keepsM_vread_desc (ring seq : Nat) (a : Who) (va n : Nat) : KeepsM (State.desc · ring seq) (vread a va n) :=
  keepsM_vread (fun _ _ h => desc_congr h ring seq) (fun _ _ _ _ => rfl) a va n

/-- The image of a local ring pair, once read, is held by its descriptor. -/
theorem desc_readImage {s t : State} {ring seq : Nat} {d : Desc} {b : List Byte} (found : s.desc ring seq = some d)
    (port : s.ringPort d.ring = none) (read : (vread ⟨none, d.ctx⟩ (d.arg 16 8) (d.arg 24 4)).run s = (.ok b, t)) :
    (s.readImage d).desc ring seq = some { d with load := some b, stall := none } := by
  have held : (imageBytes d (d.arg 24 4)).run s = (.ok (), t.setDesc { d with load := some b, stall := none }) :=
    run_bind_ok read
  have kept : t.desc ring seq = s.desc ring seq := (keepsM_vread_desc ring seq _ _ _).snd read
  rw [readImage_local port, descDo_of_run held]
  exact desc_setDesc_name (kept.trans found) _ (name_of_desc found :)

/-- What is put into a store slot stands there. -/
theorem image_put (s : State) (k : Nat) (v : Option Image) (loads : Eng → Tab Nat) :
    (s.eng' (fun e => { e with images := Tab.put none e.images k v, loads := loads e })).image k = v :=
  Tab.get_put_same none s.eng.images k v

/-- A store slot is released. -/
def State.emptied (s : State) (k : Nat) : State := s.eng' (fun e => { e with images := Tab.put none e.images k none })

theorem image_emptied (s : State) (k : Nat) : (s.emptied k).image k = none := image_put s k none Eng.loads

theorem image_endDesc (s : State) (d : Desc) (f : Option Fail) (k : Nat) : (s.endDesc d f).image k = s.image k := rfl

section
variable {s : State} {d : Desc} {b : List Byte} (load : d.load = some b) (port : s.ringPort d.ring = none)
include load port

theorem checkImage_fails {sub o : Nat}
    (bad : validate b (d.arg 24 4) (s.rd Reg.PKG_FEATURE F.PKG_FEATURE_LEVEL) = some (sub, o)) :
    s.checkImage d = s.endDesc { d with load := none, tag := (imgOf b).tag } (some (illegal sub o)) := by
  unfold State.checkImage
  rw [load]
  dsimp only
  rw [port]
  dsimp only
  rw [bad]

/-- An image that passes goes into the lowest free slot. -/
theorem checkImage_passes {k : Nat} (good : validate b (d.arg 24 4) (s.rd Reg.PKG_FEATURE F.PKG_FEATURE_LEVEL) = none)
    (slot : (List.range 256).find? (fun k => (s.image k).isNone) = some k) (room : s.storeBytes + b.length ≤ 8388608) :
    ∃ (u : State) (c : Nat), s.checkImage d = u.endDesc { d with load := none, tag := (imgOf b).tag, r0 := k + 256 * c } none ∧
      u.eng.descs = s.eng.descs ∧ u.image k = some ⟨d.ctx, c, b, true⟩ := by
  unfold State.checkImage
  rw [load]
  dsimp only
  rw [port]
  dsimp only
  rw [good]
  dsimp only
  rw [slot]
  dsimp only
  rw [if_neg (Nat.not_lt_of_le room)]
  exact ⟨_, _, rfl, rfl, image_put ..⟩

end

/-! ### FENCE and ABORT (06 R201, R208, R209) -/

/-- A local ring pair that is not enabled fetches nothing. -/
theorem fetchMore_disabled {s : State} {n : Nat} (port : s.ringPort n = none)
    (off : s.rd (Reg.RING_STATUS n) F.RING_STATUS_STATE ≠ 1) : s.fetchMore n = s := by
  have stays : s.mayStart n 0 = false := by simp [State.mayStart, off]
  unfold State.fetchMore State.fetchUp
  rw [port]
  refine List.foldl_fixed' (fun _ => ?_) _
  unfold State.fetchOne
  rw [stays]
  rfl

/-- The first descriptor of such a ring pair becomes ready, and nothing more happens. -/
theorem exec_fencedWorkBegin_first {s : State} {ring : Fin 4096} {seq : Nat} {d : Desc} (found : s.desc ring seq = some d)
    (earlier : (s.ringDescs ring).any (fun x => decide (x.ord < d.ord)) = false) (port : s.ringPort ring = none)
    (off : s.rd (Reg.RING_STATUS ring) F.RING_STATUS_STATE ≠ 1) :
    exec (.fencedWorkBegin ring seq) s = .next (s.setDesc { d with ready := true }) := by
  show execFencedWorkBegin ring seq s = _
  unfold execFencedWorkBegin
  rw [found]
  dsimp only
  rw [earlier, if_neg (by simp)]
  exact congrArg _ (fetchMore_disabled port off)

/-- An ABORT whose targets have no run or load at work ends none of them. -/
theorem no_abort_hit {ts : List Desc} (idle : ts.all (fun x => (x.opc != 1 && x.opc != 2) || x.done || x.fail.isSome) = true) :
    ts.filter (fun x => (x.opc == 1 || x.opc == 2) && !x.done && x.fail.isNone) = [] := by
  have opposite : ∀ a b d f : Bool, (!a && !b || d || f) = true → ¬ ((a || b) && !d && !f) = true := by decide
  refine List.filter_eq_nil_iff.2 fun x hx => ?_
  rw [← Option.not_isSome]
  exact opposite _ _ _ _ (List.all_eq_true.1 idle x hx)

/-! ### Completion records (06 R211, R212) -/

theorem xSend_xch (g : Eng) : ∃ l, g.xSend = { g with xch := l } := by
  unfold Eng.xSend
  refine List.foldlRecOn _ _ (motive := fun e : Eng => ∃ l, e = { g with xch := l }) ⟨_, rfl⟩ fun e sent i _ => ?_
  obtain ⟨l, rfl⟩ := sent
  split
  · exact ⟨_, rfl⟩
  · exact ⟨l, rfl⟩

theorem descs_xSend (g : Eng) : g.xSend.descs = g.descs := by
  obtain ⟨l, sent⟩ := xSend_xch g
  rw [sent]

theorem rings_xSend (g : Eng) : g.xSend.rings = g.rings := by
  obtain ⟨l, sent⟩ := xSend_xch g
  rw [sent]

theorem images_xSend (g : Eng) : g.xSend.images = g.images := by
  obtain ⟨l, sent⟩ := xSend_xch g
  rw [sent]

/-- The one descriptor at the ring manager leaves it, and no ring pair has another to fetch. -/
theorem letGo_only {s : State} {d : Desc} (only : s.eng.descs = [d]) (rings : s.eng.rings = []) (images : s.eng.images = []) :
    (s.letGo d.ring d.seq).eng.descs = [] ∧
      ∀ o, o ≠ Reg.RING_STATUS d.ring → (s.letGo d.ring d.seq).rdW o = s.rdW o := by
  unfold State.letGo
  dsimp only
  generalize hg : s.eng' _ = u
  have gone : u.eng.descs = [] ∧ u.eng.rings = [] ∧ u.eng.images = [] ∧ u.regs = s.regs := by
    rw [← hg]
    exact ⟨(descs_xSend _).trans (by simp [only]), (rings_xSend _).trans rings, (images_xSend _).trans images, rfl⟩
  obtain ⟨descs, rings, images, regs⟩ := gone
  have kept : u.freeImages = u := by
    unfold State.freeImages
    exact if_pos (by rw [images]; rfl)
  have eng : (u.drained d.ring).eng = u.eng := by
    unfold State.drained
    split <;> rfl
  have fetched : (u.drained d.ring).fetchAll = u.drained d.ring := by
    unfold State.fetchAll
    rw [eng, rings]
    rfl
  rw [kept, fetched, eng]
  refine ⟨descs, fun o ho => ?_⟩
  rw [← rdW_congr regs o]
  unfold State.drained
  exact rdW_ite (rdW_wr_other u _ _ ho) rfl

/-- A record that is written without an interrupt counts CQ_TAIL up. -/
theorem fileRecord_written {s : State} {d : Desc} {j : Nat} (irq : d.irq = false) (ok : (s.writePa (s.ctxIdent d.ctx)
      (s.rd (Reg.RING_CQ_BASE d.ring) F.RING_CQ_BASE_BASE * 4096 + 64 * (j % 2 ^ s.rd (Reg.RING_CFG d.ring) F.RING_CFG_CQ_LOG2))
      (s.record d j (s.rd (Reg.RING_CFG d.ring) F.RING_CFG_CQ_LOG2))).1 = .ok) :
    ∃ u : State, s.fileRecord d j = u.addF (Reg.RING_HEAD d.ring) F.RING_HEAD_CQ_TAIL 1 ∧ u.eng = s.eng ∧
      u.rdW (Reg.RING_HEAD d.ring) = s.rdW (Reg.RING_HEAD d.ring) := by
  unfold State.fileRecord
  dsimp only
  rw [ok, irq, if_neg (by simp), if_neg (by simp)]
  exact ⟨_, rfl, eng_writePa .., (clearOfMemory_ringHead _).rdW_writePa ..⟩

theorem exec_completionWrite_done {s : State} {ring : Fin 4096} {seq : Nat} {d : Desc} (found : s.desc ring seq = some d)
    (done : d.done = true) : exec (.completionWrite ring seq) s = .next (s.complete d) := by
  show execCompletionWrite ring seq s = _
  unfold execCompletionWrite
  rw [found]
  dsimp only
  rw [if_pos (by simp [State.workEnded, done])]

theorem complete_local {s : State} {d : Desc} (run : d.run = none) (port : s.ringPort d.ring = none)
    (on : s.rd (Reg.RING_STATUS d.ring) F.RING_STATUS_STATE = 1) : s.complete d =
      (s.fileRecord d (s.rd (Reg.RING_HEAD d.ring) F.RING_HEAD_CQ_TAIL)).letGo d.ring d.seq := by
  unfold State.complete State.freeRun State.putRecord
  rw [run]
  dsimp only
  rw [on, if_neg (by decide), port]

/-- The record of the one descriptor, at an enabled local ring pair, is written and the descriptor leaves. -/
theorem complete_only {s : State} {d : Desc} (only : s.eng.descs = [d]) (run : d.run = none) (irq : d.irq = false)
    (port : s.ringPort d.ring = none) (on : s.rd (Reg.RING_STATUS d.ring) F.RING_STATUS_STATE = 1) (rings : s.eng.rings = [])
    (images : s.eng.images = []) (ok : (s.writePa (s.ctxIdent d.ctx) (s.rd (Reg.RING_CQ_BASE d.ring) F.RING_CQ_BASE_BASE * 4096 +
        64 * (s.rd (Reg.RING_HEAD d.ring) F.RING_HEAD_CQ_TAIL % 2 ^ s.rd (Reg.RING_CFG d.ring) F.RING_CFG_CQ_LOG2))
      (s.record d (s.rd (Reg.RING_HEAD d.ring) F.RING_HEAD_CQ_TAIL) (s.rd (Reg.RING_CFG d.ring) F.RING_CFG_CQ_LOG2))).1 = .ok) :
    (s.complete d).eng.descs = [] ∧ (s.complete d).rd (Reg.RING_HEAD d.ring) F.RING_HEAD_CQ_TAIL =
      (s.rd (Reg.RING_HEAD d.ring) F.RING_HEAD_CQ_TAIL + 1) % 2 ^ 32 := by
  obtain ⟨u, filed, eng, head⟩ := fileRecord_written irq ok
  obtain ⟨gone, kept⟩ := letGo_only (s := u.addF (Reg.RING_HEAD d.ring) F.RING_HEAD_CQ_TAIL 1) (eng ▸ only) (eng ▸ rings)
    (eng ▸ images)
  rw [complete_local run port on, filed]
  refine ⟨gone, ?_⟩
  have tail : u.rd (Reg.RING_HEAD d.ring) F.RING_HEAD_CQ_TAIL = s.rd (Reg.RING_HEAD d.ring) F.RING_HEAD_CQ_TAIL := by
    rw [State.rd, head, State.rd]
  rw [State.rd, kept _ (by simp only [Reg.RING_HEAD, Reg.RING_STATUS]; omega), ← tail]
  exact rd_wr_same u _ _ _ (by decide) (by decide)

/-! ### The statement -/

theorem eq_ok_of_toOption {ε α : Type} {r : Except ε α} {a : α} (h : r.toOption = some a) : r = .ok a := by
  cases r with
  | error e => exact absurd h nofun
  | ok b => exact congrArg _ (Option.some.inj h)

/-- Settles O30: each command finds its descriptor as it was asked to stand, and what it does there ends it, leaves it at work or
starts its run. -/
theorem descriptorsComplete : Obligations.DescriptorsComplete := by
  unfold Obligations.DescriptorsComplete
  refine ⟨fun s ring seq d h => ?_, fun s ring seq d k cols outs h image mask whole repl quota slices apart => ?_,
    fun s ring seq d k cols outs h image mask whole repl starved => ?_, fun s ring seq d h noImage => ?_,
    fun s ring seq d b h port read => ?_, fun s ring seq d b k h load port good slot room => ?_,
    fun s ring seq d b sub o h load port bad => ?_, fun s ring seq d k h image => ?_, fun s ring seq d h noImage => ?_,
    fun s ring seq d k h image earlier => ?_, fun s ring seq d h => ?_, fun s ring seq d h earlier => ?_,
    fun s ring seq d found earlier port off => ?_, fun s ring seq d ts h targets idle => ?_,
    fun s ring seq d h targets => ?_, fun s ring seq o d c found ready idle going whole bad kind => ?_,
    fun s ring seq d only hring hseq done run irq port on rings images ok => ?_⟩
  · have ⟨_, _, _, _, _, whole, _⟩ := h
    have ends := completes_begin_ended h (c := .nopDesc ring seq) rfl rfl (v := none) rfl
    rwa [← whole] at ends
  · have ⟨found, _, _, _, going, whole', _⟩ := h
    obtain ⟨r, started, hslot, hmask, hcols, houts⟩ := startRun_starts (s := s.setDesc d.started) (d := d.started)
      image mask whole (eq_ok_of_toOption repl) quota slices apart
    refine completes_begin h rfl rfl ?_
    rw [started, desc_setDesc_name (desc_started h) { d.started with run := some r } (name_of_desc found :)]
    simp [going, whole', hslot, hmask, hcols, houts, Desc.arg]
  · exact completes_begin_ended h rfl rfl (startRun_noSlice (s := s.setDesc d.started) (d := d.started) image mask whole
      (eq_ok_of_toOption repl) starved)
  · exact completes_begin_ended h rfl rfl (startRun_noImage (d := d.started) noImage _)
  · have ⟨found, _⟩ := h
    obtain ⟨name, _⟩ := name_of_desc found
    refine completes_begin h rfl rfl ?_
    exact desc_readImage (d := d.started) (desc_started h) (name ▸ port) (run_eq_of_parts read rfl)
  · have ⟨found, _, _, _, whole⟩ := h
    obtain ⟨u, c, checked, kept, stored⟩ := checkImage_passes load port good slot room
    have found' : u.desc ring seq = some d := by rw [State.desc, kept]; exact found
    refine completes_goOn h rfl ?_
    have ended := desc_endDesc found' { d with load := none, tag := (imgOf b).tag, r0 := k + 256 * c } (name_of_desc found :)
      whole none
    rw [checked, image_endDesc, stored, ended]
    simp
  · have ⟨found, _, _, _, whole⟩ := h
    refine completes_goOn h rfl ?_
    have ended := desc_endDesc found { d with load := none, tag := (imgOf b).tag } (name_of_desc found :) whole
      (some (illegal sub o))
    rw [checkImage_fails load port bad, ended]
    exact ⟨rfl, by simp⟩
  · refine completes_begin h rfl rfl ?_
    dsimp only
    split
    · rename_i absent
      exact absurd (image.symm.trans absent) nofun
    · exact desc_started h
  · exact completes_begin_ended h rfl rfl (by dsimp only; rw [noImage])
  · have ⟨found, _, _, _, whole⟩ := h
    refine completes_goOn h rfl ?_
    have ended := desc_endDesc (s := s.emptied k) found d (name_of_desc found) whole none
    rw [image, if_pos (by simpa using earlier)]
    exact ⟨image_emptied s k, (congrArg (Option.any _) ended).trans rfl⟩
  · exact completes_begin h rfl rfl (desc_started h)
  · have ⟨found, _, _, _, whole⟩ := h
    refine completes_goOn h rfl ?_
    rw [if_neg (by simp [earlier])]
    exact desc_endDesc_none found whole
  · exact ⟨_, exec_fencedWorkBegin_first found earlier port off, desc_setDesc_name found _ (name_of_desc found :)⟩
  · refine completes_begin h rfl rfl ?_
    have ⟨found, _⟩ := h
    dsimp only
    rw [targets, no_abort_hit idle]
    exact desc_setDesc_name (desc_started h) _ (name_of_desc found :)
  · have ⟨found, _, _, _, whole⟩ := h
    refine completes_goOn h rfl ?_
    rw [if_neg (by simp [targets])]
    exact desc_endDesc_none found whole
  · simp only [List.mem_cons, Prod.mk.injEq, List.not_mem_nil, or_false] at kind
    rcases kind with ⟨kind, rfl⟩ | ⟨kind, rfl⟩ | ⟨kind, rfl⟩ | ⟨kind, rfl⟩ | ⟨kind, rfl⟩ | ⟨kind, rfl⟩ | ⟨kind, rfl⟩ |
        ⟨kind, rfl⟩ | ⟨kind, rfl⟩ <;>
      exact completes_malformed found ready idle going whole bad (by rw [kind]; rfl) rfl
  · subst hseq
    have found : s.desc ring d.seq = some d := by simp [State.desc, only, hring]
    refine ⟨_, exec_completionWrite_done found done, ?_⟩
    rw [← hring] at port on ok ⊢
    exact complete_only only run irq port on rings images ok

end Sys2Proof.Machine
end

section
/-! PROOFS. EMIT through a TLB entry of bad parity (03 R70): the counterexample to O35. -/

namespace Sys2Proof.Machine
open Sys2Proof
-- One proof after another: elaborated side by side, the proofs of the one text pass the memory that the check allows.
set_option Elab.async false

/-- The bytes of an image of one pipeline, of SCAN of one column, EMIT of one column and END: header, pipeline entry at 32,
operators at 64. -/
def emitImage : List Byte :=
  fitB 32 (leBytes 7 0 ++ [1] ++ leBytes 8 0 ++ leBytes 4 32) ++ fitB 32 (leBytes 4 64 ++ [3]) ++
    leBytes 16 (1 * 2 ^ 120 + 1 * 2 ^ 80) ++ leBytes 16 (0x41 * 2 ^ 120 + 1 * 2 ^ 80) ++ leBytes 16 (0x4F * 2 ^ 120)

/-- An output of one I64 value at virtual address 0: no validity bits, group 0. -/
def emitOut : OutD :=
  { kind := 2, ty := .i64, scale := 0, group := 0, flags := 0, base := 0, cap := 1, validBase := 0, heapBase := 0, heapBytes := 0 }

/-- A run of that image to that output. -/
def emitRun : Run := { scanRun with outs := [fitB 64 ([2, 5, 0, 0, 0, 0, 0, 0] ++ leBytes 8 0 ++ leBytes 8 1)] }

/-- The descriptor of that run. -/
def emitDesc : Desc := { scanDesc with run := some emitRun }

/-- One selected row, the value 1 in register 0. -/
def emitRow : Batch := ⟨[0], [true], [(0, [Cell.of 1])]⟩

/-- A task of that run with the row before EMIT. -/
def emitTask : Task := { driveTask with oper := 1, batch := some emitRow }

/-- DRAM of 64 KiB, one region that partition 63 of the normal world, the identity of context 0, may read and write; the task
on slice 0, whose TLB holds the entry of bad parity; the shared cache is empty. -/
def emitBadTlb : State :=
  { (((State.reset.wrW Reg.MEM_MAP 0x10000).wrW (Reg.FW_BASE 0) 0x8000000000000000).wrW (Reg.FW_ATTR 0)
      0x1FE0000000000000).wrW (Reg.CTX_CFG 0) 0xBF00000000000000 with
    eng := { Eng.reset with
      slices := [(0, { Slice.reset with task := some emitTask, tlb := [(0, badEte)] })],
      images := [(0, some ⟨0, 0, emitImage, true⟩)], descs := [emitDesc] } }

/-- A write that goes through, with the state it leaves. -/
theorem written_of_ok {r : AccRes × State} (h : r.1 = .ok) : r = (.ok, r.2) := Prod.ext h rfl

/-- What EMIT sees. -/
def emitSeen : OpCtx := ⟨emitDesc, emitRun, imgOf emitImage, pipeIOf emitImage 32, opWOf emitImage 80⟩

/-- EMIT stalls on the miss (`badEte_misses`), the row not written. -/
theorem emit_badTlb_stalls : ((emitBadTlb.taskOp 0 0x41 (fun c x b => opEmit 0 c x b)).slice 0).task =
    some { emitTask with stall := some ⟨0, 0, true⟩ } := by decide +kernel

/-- Refutes O35: the statement looks the page of an output up in the slice's TLB whatever the parity of the entries, and the
model, after 03 R70, takes an entry of bad parity for a miss: EMIT of one row stalls, and the batch does not go on. -/
theorem not_sinksComplete : ¬ Obligations.SinksComplete := by
  unfold Obligations.SinksComplete
  rintro ⟨-, -, one, -⟩
  have stands : emitBadTlb.standsAt 0 0x41 emitTask emitRow emitSeen := by decide +kernel
  have selected : emitRow.selected = [0] := by decide
  have column : emitSeen.m.colList emitSeen.o.a0 emitSeen.o.a1 = [(0, 0)] := by decide +kernel
  have output : outDOf (nthD emitSeen.r.outs 0 []) = some emitOut := by decide +kernel
  have granted : (emitBadTlb.writePa (emitBadTlb.ctxIdent emitTask.ctx)
      (badEte.phys (emitOut.base + Tab.get 0 emitSeen.r.groups emitOut.group * emitOut.ty.width))
      (leBytes emitOut.ty.width (if (emitRow.cell 0 0).ok then (emitRow.cell 0 0).v else 0))).1 = .ok := by decide +kernel
  obtain ⟨t, ht, -, -, -, -, left⟩ := one emitBadTlb 0 emitTask emitRow emitSeen 0 0 0 emitOut badEte _
    stands selected column output nofun (by decide) (by decide) (by decide +kernel) rfl (by decide) (by decide) (written_of_ok granted)
  have ends : t = emitBadTlb.taskOp 0 0x41 (fun c x b => opEmit 0 c x b) := (Host.Outcome.next.inj ht).symm
  rw [ends] at left
  exact absurd (emit_badTlb_stalls.symm.trans left) (by simp [emitTask, driveTask, Task.start])

end Sys2Proof.Machine
end

section
/-! PROOFS. Entries of the shared translation cache, match rows, and stalls that time out (05 R188, 06 R207, R215 to R218;
O31). -/

namespace Sys2Proof.Machine
open Sys2Proof
-- One proof after another: elaborated side by side, the proofs of the one text pass the memory that the check allows.
set_option Elab.async false

/-! ### The shared cache (06 R215, R218) -/

/-- A value listed in a table is among its values. -/
theorem Tab.contains_ins {α : Type} [DecidableEq α] (t : Tab α) (a : Nat) (v : α) :
    ((Tab.ins t a v).map Prod.snd).contains v = true := by
  rw [List.contains_iff_mem]
  induction t with
  | nil => exact List.mem_cons_self
  | cons e t ih =>
    simp only [Tab.ins]
    split
    · exact List.mem_cons_self
    · split
      · exact List.mem_cons_self
      · exact List.mem_cons_of_mem _ ih

section
variable (s : State) (x : ETE) (ring seq : Nat)

/-- An entry put into the shared cache stands there, in a free place or in that of the entry given up. -/
theorem etlb_putEte : ((s.putEte x).eng.etlb.map Prod.snd).contains x = true := by
  unfold State.putEte
  dsimp only
  split <;> exact Tab.contains_ins _ _ _

theorem descs_putEte : (s.putEte x).eng.descs = s.eng.descs := by
  unfold State.putEte
  dsimp only
  split
  · rfl
  · split <;> rfl

theorem etlb_unstall : (s.unstall x).eng.etlb = s.eng.etlb := rfl

/-- A retry changes the descriptors it frees, and the name of none. -/
theorem desc_unstall : (s.unstall x).desc ring seq = (s.desc ring seq).map (fun d =>
    if x.frees d.stall then { d with stall := none, begun := d.opc != 2 && d.begun } else d) :=
  find_desc_map (fun d => by split <;> exact ⟨rfl, rfl⟩) _ _ _

/-- An ETLB_LOAD's entry goes into the shared cache, and what waited for it retries. -/
def State.loadEte : State := (s.putEte x).unstall x

theorem isSome_desc_loadEte : ((s.loadEte x).desc ring seq).isSome = (s.desc ring seq).isSome := by
  rw [State.loadEte, desc_unstall, Option.isSome_map, State.desc, descs_putEte, State.desc]

end

theorem desc_loadEtes {s : State} {ring seq : Nat} {d : Desc} (l : List ETE) (found : s.desc ring seq = some d) :
    ∃ e, (l.foldl State.loadEte s).desc ring seq = some e := by
  rw [← Option.isSome_iff_exists, foldl_keeps (fun u : State => (u.desc ring seq).isSome) _ fun u x =>
    isSome_desc_loadEte u x ring seq, found]
  rfl

/-- The last of the entries loaded stands in the shared cache. -/
theorem etlb_loadEtes (s : State) (f : Nat → ETE) (k : Nat) :
    ((((List.range (k + 1)).map f).foldl State.loadEte s).eng.etlb.map Prod.snd).contains (f k) = true := by
  rw [List.range_succ, List.map_append, List.foldl_append, List.map_singleton, List.foldl_cons, List.foldl_nil, State.loadEte,
    etlb_unstall]
  exact etlb_putEte _ _

/-! ### Match rows (05 R188, 06 R207) -/

/-- The rows a MATCH_WRITE puts into a slice. -/
def State.putRows (rs : List (Nat × MRow)) (s : State) (n : Nat) : State :=
  s.setSlice n { s.slice n with rows := rs.foldl (fun t r => Tab.put MRow.off t r.1 r.2) (s.slice n).rows }

/-- Rows put into several slices stand in each of them as they do where they are put into it alone. -/
theorem rows_putRows {rs : List (Nat × MRow)} {l : List Nat} (once : l.Nodup) (s : State) {n : Nat} (hn : n ∈ l) :
    ((l.foldl (State.putRows rs) s).slice n).rows = rs.foldl (fun t r => Tab.put MRow.off t r.1 r.2) (s.slice n).rows := by
  induction l generalizing s with
  | nil => exact absurd hn List.not_mem_nil
  | cons m l ih =>
    have ⟨out, once⟩ := List.nodup_cons.1 once
    rcases List.mem_cons.1 hn with rfl | hn
    · have kept : ((l.foldl (State.putRows rs) (s.putRows rs n)).slice n) = (s.putRows rs n).slice n := by
        refine List.foldlRecOn l _ (motive := fun u : State => u.slice n = (s.putRows rs n).slice n) rfl fun u hu k hk => ?_
        exact (State.slice_setSlice_other u _ fun e : n = k => out (e ▸ hk)).trans hu
      rw [List.foldl_cons, kept, State.putRows, State.slice_setSlice_same]
    · rw [List.foldl_cons, ih once _ hn, State.putRows, State.slice_setSlice_other _ _ fun e : n = m => out (e ▸ hn)]

theorem descs_putRows (rs : List (Nat × MRow)) (l : List Nat) (s : State) :
    (l.foldl (State.putRows rs) s).eng.descs = s.eng.descs :=
  foldl_keeps (fun u => u.eng.descs) (State.putRows rs) (fun _ _ => rfl) l s

/-- The rows that a MATCH_WRITE names. -/
def Desc.matchRows (d : Desc) : List (Nat × MRow) := (List.range (d.arg 2 1)).map (fun i => mrowOf d.bytes i d.ctx)

/-- The slices in service of a context's mask. -/
def State.matchSlices (s : State) (c : Nat) : List Nat :=
  below 36 (fun n => bitAt (s.rdW (Reg.CTX_SLICES c)).toNat n && s.slcInService n)

theorem nodup_matchSlices (s : State) (c : Nat) : (s.matchSlices c).Nodup := List.nodup_range.filter _

/-- Whether another context owns a row that a descriptor writes in a slice. -/
def State.ownedApart (s : State) (d : Desc) (n : Nat) (r : Nat × MRow) : Bool :=
  (Tab.get MRow.off (s.slice n).rows r.1).valid && (Tab.get MRow.off (s.slice n).rows r.1).owner != d.ctx

/-- MATCH_WRITE of a descriptor whose work has just begun. -/
theorem matchWrite_started (s : State) (d : Desc) : (s.setDesc d.started).matchWrite d.started =
    if (s.matchSlices d.ctx).any (fun n => d.matchRows.any (s.ownedApart d n)) then
      (s.setDesc d.started).endDesc d.started (some ⟨0x11, 0, 0, 0⟩)
    else ((s.matchSlices d.ctx).foldl (State.putRows d.matchRows) (s.setDesc d.started)).endDesc d.started none := rfl

/-! ### Ends -/

/-- A descriptor whose work ends at once reads under its name with the status given. -/
theorem desc_ended {s : State} {ring seq opc : Nat} {d : Desc} (h : s.mayBegin ring seq opc d) (v : Option Fail) :
    ((s.setDesc d.started).endDesc d.started v).desc ring seq =
      some { d with begun := true, done := true, stall := none, fail := v } := by
  have ⟨found, _, _, _, _, whole, _⟩ := h
  exact desc_endDesc (desc_started h) d.started (name_of_desc found :) whole v

section
variable {s : State} {ring : Fin 4096} {seq opc : Nat} {d : Desc} {c : Instr} {ops : Nat → Bool}
  {g : Desc → State → State}
  (h : s.mayBegin ring seq opc d)
  (run : exec c s = .next (s.begin ring seq ops (fun d s =>
    if !s.ringPriv ring then s.endDesc d (some ⟨0x11, 0, 0, 0⟩) else g d s)))
  (kind : ops opc = true)
include h run kind

/-- A ring pair with PRIV may change translations (06 R215). -/
theorem completes_privileged {P : State → Prop} (priv : s.ringPriv ring = true)
    (hp : P (g d.started (s.setDesc d.started))) : Completes c s P := by
  refine completes_begin h run kind ?_
  have priv : (s.setDesc d.started).ringPriv ring = true := priv
  rwa [priv, if_neg (by decide)]

/-- One without may not: its descriptor ends with FIREWALL and the cache stays (06 R215). -/
theorem completes_unprivileged (priv : s.ringPriv ring = false) : Completes c s (fun t => t.eng.etlb = s.eng.etlb ∧
    t.desc ring seq = some { d with begun := true, done := true, stall := none, fail := some ⟨0x11, 0, 0, 0⟩ }) := by
  refine completes_begin h run kind ?_
  have priv : (s.setDesc d.started).ringPriv ring = false := priv
  rw [priv, if_pos (by decide)]
  exact ⟨rfl, desc_ended h _⟩

end

/-- An error of a task without one stands in it, and its stall is over. -/
theorem task_failTask {s : State} {n : Nat} {x : Task} (task : (s.slice n).task = some x) (whole : x.fail = none)
    (status addr uop : Nat) : ((s.failTask n status addr uop).slice n).task =
      some { x with stall := none, fail := some ⟨status, 0, taskDetail x.pipe x.oper uop, addr⟩ } := by
  unfold State.failTask
  dsimp only
  rw [slice_sealed, task]
  dsimp only
  rw [whole, slice_setTask_same]

/-- A stalled descriptor's time is over: its run's status is fixed, or with no run it ends (06 R217). -/
theorem exec_timeout_desc {s : State} {ring : Fin 4096} {seq : Nat} {d : Desc} {x : Stall} (found : s.desc ring seq = some d)
    (stall : d.stall = some x) : exec (.translationFaultTimeout (.desc ring seq)) s =
      .next (if d.run.isSome then s.fixRun ring seq ⟨0x10, 0, 0, x.va⟩ else s.endDesc d (some ⟨0x10, 0, 0, x.va⟩)) := by
  show execTranslationFaultTimeout (.desc ring seq) s = _
  unfold execTranslationFaultTimeout
  dsimp only
  rw [found]
  dsimp only
  rw [stall]

theorem exec_timeout_task {s : State} {n : Fin 36} {x : Task} {st : Stall} (task : (s.slice n).task = some x)
    (stall : x.stall = some st) :
    exec (.translationFaultTimeout (.slice n)) s = .next (s.failTask n 0x10 st.va 0xFFFF) := by
  show execTranslationFaultTimeout (.slice n) s = _
  unfold execTranslationFaultTimeout
  dsimp only
  rw [task, Option.bind_some, stall]

/-! ### The statement -/

/-- Settles O31: each command begins or goes on with its descriptor, and its work on the cache, the rows or the stall keeps the
descriptor's name, under which its end is then read. -/
theorem translationsComplete : Obligations.TranslationsComplete := by
  unfold Obligations.TranslationsComplete
  refine ⟨fun s ring seq k d h priv count => ?_, fun s ring seq d h priv => ?_, fun s ring seq d h priv => ?_,
    fun s ring seq d h priv => ?_, fun s ring seq d h free => ?_, fun s ring seq d rs ss h rows slices free => ?_,
    fun s ring seq n i d h hi hn valid owner => ?_, fun s ring seq d x found stall whole run => ?_,
    fun s ring seq d x r found stall whole run => ?_, fun s n x st task stall whole => ?_⟩
  · have ⟨found, _, _, _, _, whole, _⟩ := h
    obtain ⟨e, there⟩ := desc_loadEtes ((List.range (k + 1)).map fun i => eteOf d.bytes (16 + 16 * i)) (desc_started h)
    have ended := desc_endDesc there d.started (name_of_desc found :) whole none
    refine completes_privileged h rfl rfl priv ⟨?_, ?_⟩
    · rw [show d.started.arg 2 1 = k + 1 from count]
      exact etlb_loadEtes (s.setDesc d.started) (fun i => eteOf d.bytes (16 + 16 * i)) k
    · rw [show d.started.arg 2 1 = k + 1 from count]
      exact (congrArg (Option.any _) ended).trans rfl
  · have ⟨found, _, _, _, going, _⟩ := h
    have begun (ts : List (Nat × Nat)) : (((s.setDesc d.started).dropEtes d.started.dropsEte).setDesc
        { d.started with targets := ts }).desc ring seq = some { d.started with targets := ts } :=
      desc_setDesc_name (desc_started h :) _ (name_of_desc found :)
    refine completes_privileged h rfl rfl priv ⟨rfl, ?_, fun bops pages corr => ?_⟩
    · rw [begun]
      simp [going]
    · rw [begun]
      simp [State.dropEtes, State.setDesc, State.eng', bops, pages, corr]
  · exact completes_unprivileged h rfl rfl priv
  · exact completes_unprivileged h rfl rfl priv
  · have ⟨found, _, _, _, whole⟩ := h
    refine completes_goOn h rfl ?_
    rw [if_neg (by simp [free])]
    exact desc_endDesc_none found whole
  · have ⟨found, _, _, _, _, whole, _⟩ := h
    subst rows slices
    have alone : ¬ (s.matchSlices d.ctx).any (fun n => d.matchRows.any (s.ownedApart d n)) = true := by
      intro apart
      obtain ⟨n, hn, apart⟩ := List.any_eq_true.1 apart
      obtain ⟨r, hr, apart⟩ := List.any_eq_true.1 apart
      have free := List.all_eq_true.1 (List.all_eq_true.1 free n hn) r hr
      simp only [State.ownedApart, Bool.and_eq_true, bne_iff_ne] at apart
      simp only [Bool.or_eq_true, Bool.not_eq_true', beq_iff_eq, apart.1, apart.2, or_false, reduceCtorEq] at free
    have there : (((s.matchSlices d.ctx).foldl (State.putRows d.matchRows) (s.setDesc d.started)).desc ring seq) =
        some d.started := by
      rw [State.desc, descs_putRows]
      exact desc_started h
    refine completes_begin h rfl rfl ?_
    rw [matchWrite_started, if_neg alone]
    exact ⟨fun n hn => rows_putRows (nodup_matchSlices _ _) _ hn,
      (congrArg (Option.any _) (desc_endDesc there d.started (name_of_desc found :) whole none)).trans rfl⟩
  · have apart : (s.matchSlices d.ctx).any (fun n => d.matchRows.any (s.ownedApart d n)) = true :=
      List.any_eq_true.2 ⟨n, hn, List.any_eq_true.2 ⟨_, List.mem_map.2 ⟨i, List.mem_range.2 hi, rfl⟩, by
        simp [State.ownedApart, valid, owner]⟩⟩
    refine completes_begin h rfl rfl ?_
    rw [matchWrite_started, if_pos apart]
    exact ⟨rfl, desc_ended h _⟩
  · have ends := exec_timeout_desc found stall
    rw [if_neg (by simp [run])] at ends
    exact ⟨_, ends, desc_endDesc found d (name_of_desc found) whole _⟩
  · have fixed := exec_timeout_desc found stall
    rw [if_pos (by simp [run])] at fixed
    refine ⟨_, fixed, (desc_fixRun s ring seq _).trans ?_⟩
    rw [found, Option.map_some, whole]
    rfl
  · exact ⟨_, exec_timeout_task task stall, (congrArg (Option.any _) (task_failTask task whole _ _ _)).trans (by simp)⟩

end Sys2Proof.Machine
end

section
/-! PROOFS. PROBE of a batch of more rows than one may have (03 R75, 05 R164): the counterexample to O34. -/

namespace Sys2Proof.Machine
open Sys2Proof
-- One proof after another: elaborated side by side, the proofs of the one text pass the memory that the check allows.
set_option Elab.async false

/-! ### PROBE with the rows of a full batch at hand -/

/-- Joining a request flit keeps the slices. -/
theorem slices_flitFor (g : Eng) (n home per : Nat) : (g.flitFor n home per).2.slices = g.slices := by
  unfold Eng.flitFor
  split <;> rfl

/-- Issuing a bucket operation keeps the slices' tasks and their column buffers. -/
theorem keepsM_issue_workOf (m n : Nat) (c : OpCtx) (x : Task) (oper decl : Nat) (kind : BKind) (ovf : List Nat) (e : AggEnt)
    (pos : Nat) : KeepsM (State.workOf m) (issue n c x oper decl kind ovf e pos) := by
  have xlated (va : Nat) (w : Bool) : KeepsM (State.workOf m) (xlate (x.who n) va w) :=
    keepsM_xlate (workOf_congr m) (fun s k l i => workOf_setSlice m s k _ rfl rfl) _ _ _
  unfold issue
  refine keepsM_bind (keepsM_mapM (fun va => xlated va _) _) fun lines => keepsM_bind (xlated _ _) fun anchor =>
    doSt_keeps _ fun s => ?_
  simp only [State.workOf, State.slice, State.eng', slices_flitFor]

section
variable {s u : State} {n : Nat} {c : OpCtx} {x : Task} {p : ProbeSt}

/-- With nothing staged PROBE sends the probes of its next 64 positions. -/
theorem run_probeSend (bad : (s.slice n).bad = []) (fresh : p.found = [])
    (sent : ((p.todo.take 64).forM (fun i =>
      issue n c x p.oper c.o.a4 .probe [] ⟨hashAt c p.src i, keyCells p.src c.keys i, []⟩ i)).run s = (.ok (), u)) :
    (probeSend n c x p).run s = (.ok { p with todo := p.todo.drop 64 }, u.sealed n) := by
  have staged : ¬ 65536 ≤ p.staged c.joinKind c.payBytes := by simp [ProbeSt.staged, fresh]
  unfold probeSend
  rw [if_neg staged]
  dsimp only
  split
  · rw [run_bind_ok (run_cbRead bad _ _ _ _), run_bind_ok sent]
    rfl
  · rw [run_bind_ok sent]
    rfl

/-- PROBE produces a batch at once where its rows fill one. -/
theorem run_probeMake_full (task : (s.slice n).task = some x) (bad : (s.slice n).bad = [])
    (full : 1024 ≤ ((p.rows c.joinKind).drop p.made).length) (rest : List ProbeSt) :
    ∃ t, (probeMake n c x p rest).run s = (.ok (), t) ∧ (t.slice n).task.any (·.batch.isSome) = true := by
  have written := run_cbStore_undamaged bad x.ctx false
    (c.batchRanges x (probeBatch c p.src (((p.rows c.joinKind).drop p.made).take 1024))) 0xFFFF
  unfold probeMake
  dsimp only
  rw [if_pos (by rw [Bool.or_eq_true, decide_eq_true_eq]; exact .inl full), run_bind_ok (run_cbRead bad _ _ _ _), writeBatch,
    run_bind_ok written, run_updTask ((task_cbWrite _ _).trans task)]
  exact ⟨_, rfl, by rw [slice_setTask_same]; rfl⟩

/-- PROBE takes a batch whose rows before the first row that it probes fill a batch: it produces one at once. -/
theorem run_opProbe_full {b : Batch} (task : (s.slice n).task = some x) (sound : s.cbSound n)
    (sent : (((c.keyed b).take 64).forM (fun i => issue n c x x.oper c.o.a4 .probe [] (c.sought b i) i)).run s = (.ok (), u))
    (full : 1024 ≤ ((ProbeSt.mk x.oper b [] (c.keyed b) [] 0).rows c.joinKind).length) :
    ∃ t, (opProbe n c x b).run s = (.ok (), t) ∧ (t.slice n).task.any (·.batch.isSome) = true := by
  have kept : u.workOf n = s.workOf n :=
    (keepsM_forM (fun i => keepsM_issue_workOf n n c x x.oper c.o.a4 .probe [] (c.sought b i) i) _).snd sent
  obtain ⟨task', bad'⟩ := Prod.mk.inj kept
  obtain ⟨t, made, has⟩ := run_probeMake_full (s := u.sealed n) (c := c)
    (p := ⟨x.oper, b, (c.keyed b).drop 64, c.keyed b, [], 0⟩) (task'.trans task) (bad'.trans sound.1) full x.probes
  refine ⟨t, ?_, has⟩
  unfold opProbe
  rw [run_bind_ok (run_readRegs sound c x)]
  exact (run_bind_ok (run_probeSend (p := ⟨x.oper, b, c.keyed b, c.keyed b, [], 0⟩) sound.1 rfl sent)).trans made

end

/-- PROBE of a task with a batch takes that batch. -/
theorem exec_probe_batch {s : State} {n : Fin 36} {x : Task} {b : Batch} (task : (s.slice n).task = some x)
    (batch : x.batch = some b) : exec (.probe n) s = .next (s.taskOp n 0x22 (fun c t b => opProbe n c t b)) := by
  show execProbe n s = _
  unfold execProbe
  rw [task]
  exact congrArg _ (if_pos (by rw [batch]; rfl))

/-! ### The counterexample -/

/-- The bytes of an image of one pipeline, of SCAN of one column, PROBE of one key that keeps the rows that find nothing, and
END: header, pipeline entry at 32, operators at 64. Its table's declaration is all zero: no bucket line to visit, the anchor at
virtual address 0. -/
def probeImage : List Byte :=
  fitB 32 (leBytes 7 0 ++ [1] ++ leBytes 8 0 ++ leBytes 4 32) ++ fitB 32 (leBytes 4 64 ++ [3]) ++
    leBytes 16 (1 * 2 ^ 120 + 1 * 2 ^ 80) ++ leBytes 16 (0x22 * 2 ^ 120 + 2 * 2 ^ 112 + 1 * 2 ^ 80 + 1) ++
    leBytes 16 (0x4F * 2 ^ 120)

/-- Selected rows of which only the last, after `k` others, has a valid key in register 0. -/
def lastKeyed (k : Nat) : Batch :=
  ⟨List.range (k + 1), List.replicate (k + 1) true, [(0, List.replicate k Cell.null ++ [Cell.of 1])]⟩

/-- 1,025 such rows, one more than a batch may have (03 R75). -/
abbrev longBatch : Batch := lastKeyed 1024

/-- A task with that batch before PROBE. -/
def probeTask : Task := { driveTask with oper := 1, batch := some longBatch }

/-- The task on slice 0, whose TLB holds an entry for page 0. -/
def probeState : State :=
  { State.reset with eng := { Eng.reset with
      slices := [(0, { Slice.reset with task := some probeTask, tlb := [(0, badEte.stored)] })],
      images := [(0, some ⟨0, 0, probeImage, true⟩)], descs := [scanDesc] } }

/-- What PROBE sees. -/
def probeSeen : OpCtx := ⟨scanDesc, scanRun, imgOf probeImage, pipeIOf probeImage 32, opWOf probeImage 80⟩

theorem selected_lastKeyed (k : Nat) : (lastKeyed k).selected = List.range (k + 1) := by
  rw [Batch.selected, below, lastKeyed, List.length_range]
  refine List.filter_eq_self.2 fun i hi => ?_
  simp [nthD, List.mem_range.1 hi]

theorem keyed_lastKeyed (k : Nat) : probeSeen.keyed (lastKeyed k) = [k] := by
  have key : probeSeen.keys = [0] := by decide +kernel
  have valid (i : Nat) : (keyCells (lastKeyed k) probeSeen.keys i).all Prod.fst =
      (nthD (List.replicate k Cell.null ++ [Cell.of 1]) i Cell.null).ok := by
    simp [keyCells, key, Batch.cell, Batch.reg, Tab.get, Tab.look, lastKeyed]
  rw [OpCtx.keyed, selected_lastKeyed, List.range_succ, List.filter_append]
  simp only [valid]
  rw [List.filter_eq_nil_iff.2 fun i hi => by simp [nthD, List.getElem?_append, List.mem_range.1 hi, Cell.null]]
  simp [nthD, Cell.of]

/-- Every row before the last is one that finds nothing. -/
theorem length_rows_lastKeyed (k oper : Nat) : ((ProbeSt.mk oper (lastKeyed k) [] [k] [] 0).rows 2).length = k := by
  have before : (List.range (k + 1)).takeWhile (fun i => !([k] : List Nat).contains i) = List.range k := by
    rw [List.range_succ, List.takeWhile_append_of_pos fun i hi => by simpa using (List.mem_range.1 hi).ne]
    simp
  unfold ProbeSt.rows
  dsimp only
  rw [selected_lastKeyed, before]
  simp [probeRows]

/-- Refutes O34: the statement lets a batch have any number of rows, and its PROBE clause lets it wait with no batch; of 1,025
rows of which 1,024 find nothing before the one that is probed, PROBE produces a full batch at once (05 R164). -/
theorem not_tableOperatorsComplete : ¬ Obligations.TableOperatorsComplete := by
  unfold Obligations.TableOperatorsComplete
  rintro ⟨-, probe, -⟩
  have task : (probeState.slice 0).task = some probeTask := rfl
  have sound : probeState.cbSound 0 := by decide +kernel
  have seen : probeState.opCtx probeTask = some probeSeen := by decide +kernel
  have stands : probeState.standsAt 0 0x22 probeTask longBatch probeSeen :=
    ⟨task, sound, by decide +kernel, rfl, rfl, rfl, rfl, seen, by decide +kernel⟩
  have sent : ((((probeSeen.keyed longBatch).take 64).forM (fun i => issue 0 probeSeen probeTask probeTask.oper
      probeSeen.o.a4 .probe [] (probeSeen.sought longBatch i) i)).run probeState).1.toOption = some () := by
    rw [keyed_lastKeyed]
    decide +kernel
  have kind : probeSeen.joinKind = 2 := by decide +kernel
  obtain ⟨t, ht, -, waits⟩ := probe probeState 0 probeTask longBatch probeSeen stands (by rw [keyed_lastKeyed]; nofun) sent
  obtain ⟨u, made, has⟩ := run_opProbe_full task sound (run_eq_of_parts sent rfl)
    (by rw [keyed_lastKeyed, kind, length_rows_lastKeyed])
  have ends : exec (.probe 0) probeState = .next u :=
    (exec_probe_batch (n := 0) task rfl).trans (congrArg _ (taskOp_of_run stands made))
  rw [Host.Outcome.next.inj (ht.symm.trans ends)] at waits
  exact absurd (waits ▸ has) (by simp)

end Sys2Proof.Machine
end

section
/-! PROOFS. A bucket operation's visit to a line whose home is fenced (05 R157, 11 R326): the counterexample to O38. -/

namespace Sys2Proof.Machine
open Sys2Proof
-- One proof after another: elaborated side by side, the proofs of the one text pass the memory that the check allows.
set_option Elab.async false

/-! ### A visit to a line that cannot be read -/

/-- A fenced home gives a bucket operation no line: the read is answered DOMAIN_OFF (11 R326), whose status is DIE_LOST (06
*Completion status*). -/
theorem homeRead_of_fenced {s : State} {ln : Nat} (ctx : Nat) (hmem : s.isMem (128 * ln) = true)
    (off : s.fenced (s.homeAt ln) 0 = true) :
    s.homeRead ctx (128 * ln) = (0x31, zeroLine, s.logFw (s.ctxIdent ctx) (128 * ln) false) := by
  have home : 128 * ln / 128 = ln := Nat.mul_div_cancel_left ln (by decide)
  have pulled : s.homePull (s.ctxIdent ctx) (128 * ln) false = s := by
    unfold State.homePull
    dsimp only
    rw [home, if_pos (by simp [off])]
  have read : s.readPa (s.ctxIdent ctx) (128 * ln) 128 =
      (⟨.off, [], false⟩, s.logFw (s.ctxIdent ctx) (128 * ln) false) := by
    simp only [State.readPa, Nat.reduceDiv, Nat.reduceAdd, State.readGo, home, readLine_of_fenced _ hmem off]
  unfold State.homeRead
  dsimp only
  rw [pulled, read]
  rfl

/-- An operation whose line cannot be read ends with the status of the read. -/
theorem visitLine_of_unread {s u : State} {b : BOp} {k st : Nat} {line : List Byte}
    (read : (s.pmcStop (s.bopHome b (nthD b.lines k 0)) 6 (some (s.ctxIdent (s.bopCtx b)))).homeRead (s.bopCtx b)
      (nthD b.lines k 0) = (st, line, u)) (bad : st ≠ 0) : s.visitLine b k = u.bopEnd b st (nthD b.vas k 0) := by
  unfold State.visitLine
  dsimp only
  rw [read]
  exact if_pos (by simpa using bad)

theorem bop_setBop {s : State} {b e : BOp} (found : s.bop b.id = some e) : (s.setBop b).bop b.id = some b := by
  have named : (fun x : BOp => (if x.id == b.id then b else x).id == b.id) = fun x => x.id == b.id := by
    funext x
    split <;> simp [*]
  have changed : (if e.id == b.id then b else e) = b := if_pos (List.find?_some (p := fun x : BOp => x.id == b.id) found)
  rw [State.bop] at found ⊢
  rw [State.setBop, State.eng', List.find?_map, Function.comp_def, named, found, Option.map_some, changed]

/-- An operation that has ended with a status, at a line of an address. -/
def BOp.ended (b : BOp) (status addr : Nat) : BOp :=
  { b with st := .done, status := status, addr := if status = 0x11 ∨ status = 0x12 then addr else 0 }

theorem bop_bopEnd {s : State} {b e : BOp} (found : s.bop b.id = some e) (status addr : Nat) :
    (s.bopEnd b status addr).bop b.id = some (b.ended status addr) := bop_setBop (b := b.ended status addr) found

/-- A command of a probe at a bucket line visits it once its request has left and no home is at work on the line. -/
theorem exec_bucketProbe_line {s : State} {b : BOp} {k : Nat} (found : s.bop b.id = some b) (probe : b.kind = .probe)
    (stands : b.st = .line k) (sent : s.bopSent b = true) (free : s.linesFree (nthD b.lines k 0) 128 = true) :
    exec (.bucketProbe b.id) s = .next (s.visitLine b k) := by
  show execBucketProbe b.id s = _
  unfold execBucketProbe State.bucketStep
  rw [found]
  dsimp only
  rw [stands]
  exact congrArg _ (if_pos (by rw [probe, sent, free]; rfl))

/-- What a home does for a probe gives it no error. -/
theorem status_visit_probe {b : BOp} (probe : b.kind = .probe) (d : TDecl) (line : List Byte) (room : Bool) :
    (d.visit b line room).status = 0 := by
  unfold TDecl.visit
  simp only [probe]

/-! ### The counterexample -/

/-- A probe of context 0 that stands at its only bucket line, line 3. -/
def fencedProbe : BOp :=
  { id := 0, kind := .probe, ring := 0, seq := 0, pipe := 0, oper := 1, slice := 0, task := 1, decl := 0, ent := ⟨0, [], []⟩,
    ovf := [], lines := [384], vas := [384], anchor := 0, anchorVa := 0, flit := 0, line0 := 0, st := .line 0, pos := 0,
    found := [], status := 0, addr := 0 }

/-- The probe on its way, with the home of line 3 fenced. -/
def fencedVisit : State := fencedHome.eng' (fun e => { e with bops := [fencedProbe] })

/-- The same once the visit is counted, as its home reads the line (21 R497). -/
def fencedCounted : State :=
  fencedVisit.pmcStop (fencedVisit.bopHome fencedProbe 384) 6 (some (fencedVisit.ctxIdent (fencedVisit.bopCtx fencedProbe)))

/-- Refutes O38: BUCKET_PROBE at a line that lies undamaged in DRAM, uncached and granted by the firewall, reads nothing where
the line's home is fenced; the operation ends with DIE_LOST and not as the line's entries call for (11 R326). -/
theorem not_bucketOperationsComplete : ¬ Obligations.BucketOperationsComplete := by
  unfold Obligations.BucketOperationsComplete
  rintro ⟨-, -, probe, -⟩
  have found : fencedVisit.bop fencedProbe.id = some fencedProbe := by decide
  have plain : fencedVisit.plainLine (fencedVisit.ctxIdent (fencedVisit.bopCtx fencedProbe)) 3 false := by decide +kernel
  obtain ⟨t, ht, left, -⟩ := probe fencedVisit fencedProbe _ _ 0 3 _ found (by decide) rfl rfl rfl rfl rfl plain rfl
  have unread := visitLine_of_unread (s := fencedVisit) (b := fencedProbe) (k := 0) (homeRead_of_fenced (s := fencedCounted)
    (ln := 3) (fencedVisit.bopCtx fencedProbe) (by decide +kernel) (by decide +kernel)) (by decide)
  have kept : (fencedCounted.logFw (fencedCounted.ctxIdent (fencedVisit.bopCtx fencedProbe)) (128 * 3) false).bop
      fencedProbe.id = some fencedProbe := by decide +kernel
  have run := exec_bucketProbe_line found rfl rfl (by decide) (by decide +kernel)
  rw [Host.Outcome.next.inj (ht.symm.trans run), unread, bop_bopEnd kept, Option.map_some, Option.some.injEq] at left
  split at left
  · have status := congrArg (fun q => q.2.1) left
    rw [status_visit_probe rfl] at status
    exact absurd status (by decide)
  · exact absurd (congrArg (fun q => q.2.1) left) (by decide)

end Sys2Proof.Machine
end

section
/-! PROOFS. A posted DMA write to a line whose home is fenced (08 R258, 11 R326): the counterexample to O29. -/

namespace Sys2Proof.Machine
open Sys2Proof
-- One proof after another: elaborated side by side, the proofs of the one text pass the memory that the check allows.
set_option Elab.async false

/-! ### A fenced home takes no write -/

/-- A fenced home takes no line from anyone: the answer is DOMAIN_OFF, which is logged (11 R326). -/
theorem writeLine_of_fenced {s : State} {ln : Nat} (who : Ident) (data : List Byte) (mask : Nat)
    (hmem : s.isMem (128 * ln) = true) (hoff : s.fenced (s.homeAt ln) 0 = true) :
    s.writeLine who ln data mask = (.off, s.logFw who (128 * ln) true) := by
  have home : 128 * ln / 128 = ln := Nat.mul_div_cancel_left ln (by decide)
  have refused : s.checkAcc who (128 * ln) true = (.off, s.logFw who (128 * ln) true) := by
    unfold State.checkAcc
    rw [if_neg (by simp [hmem]), if_pos (by rw [home]; exact hoff)]
  unfold State.writeLine
  rw [refused]

/-- The first line of a write is refused, and with it the write. -/
theorem writePa_of_fenced {s : State} {ln : Nat} {bytes : List Byte} (who : Ident) (nonempty : bytes ≠ [])
    (hmem : s.isMem (128 * ln) = true) (hoff : s.fenced (s.homeAt ln) 0 = true) :
    s.writePa who (128 * ln) bytes = (.off, s.logFw who (128 * ln) true) := by
  have line : 128 * ln / 128 = ln := Nat.mul_div_cancel_left ln (by decide)
  obtain ⟨b, t, rfl⟩ := List.exists_cons_of_ne_nil nonempty
  unfold State.writePa State.writeGo
  dsimp only
  rw [line, writeLine_of_fenced who _ _ hmem hoff]

/-- A link's write to such a line is dropped, once it is counted (21 R499). -/
theorem mem_dmaWrite_of_fenced {s : State} {j ln : Nat} {bytes : List Byte} (assigned : s.linkValid j = true) (nonempty : bytes ≠ [])
    (hmem : (s.pmcDma j 1 (128 * ln) bytes.length).isMem (128 * ln) = true)
    (hoff : (s.pmcDma j 1 (128 * ln) bytes.length).fenced ((s.pmcDma j 1 (128 * ln) bytes.length).homeAt ln) 0 = true) :
    (s.dmaWrite j (128 * ln) bytes).mem = s.mem := by
  unfold State.dmaWrite
  rw [if_neg (by simp [assigned]), writePa_of_fenced _ nonempty hmem hoff]
  simp only [reduceCtorEq, if_false, kept @State.dmaRefused_fr, kept @State.logFw_fr, kept @State.pmcDma_fr]

/-- PCIE_DMA_WRITE of a supported request, with no transaction on its lines, is the link's write. -/
theorem exec_pcieDmaWrite_supported {s : State} {j : Fin 112} {addr : Nat} {bytes : List Byte} (runs : s.dmaOpen j = true)
    (free : s.linesFree addr bytes.length = true) (short : bytes.length ≤ 512) :
    exec (.pcieDmaWrite j ⟨false, false, addr⟩ bytes) s = .next (s.dmaWrite j addr bytes) := by
  show execPcieDmaWrite j ⟨false, false, addr⟩ bytes s = _
  unfold execPcieDmaWrite
  rw [if_neg (by simp [runs, free]), if_neg (by simp), if_neg (by simp [maxPayload, Nat.not_lt.2 short])]

/-! ### The counterexample -/

/-- Link 0 is up in MAINLINE and assigned to the partition that may write line 3, whose home is fenced. -/
def fencedDma : State :=
  (((fencedHome.wr Reg.PKG_MODE F.PKG_MODE_CURRENT MD.mainline).wr (Reg.ISO_LNK_CFG 0) F.ISO_LNK_CFG_VALID 1).wr
    (Reg.ISO_LNK_CFG 0) F.ISO_LNK_CFG_PID 63).setLink 0 { Link.off with up := true }

/-- A line of ones. -/
def onesLine : List Byte := List.replicate 128 1

/-- Refutes O29: PCIE_DMA_WRITE of a whole line that lies undamaged in DRAM, uncached and granted by the firewall, stores nothing
where the line's home is fenced (11 R326). -/
theorem not_pciePortsComplete : ¬ Obligations.PciePortsComplete := by
  unfold Obligations.PciePortsComplete
  rintro ⟨-, -, -, -, -, write, -⟩
  have runs : fencedDma.dmaOpen 0 = true := by decide +kernel
  have assigned : fencedDma.linkValid 0 = true := by decide +kernel
  have plain : fencedDma.plainLine (fencedDma.linkWho 0) 3 true := by decide +kernel
  obtain ⟨t, ht, stored, -⟩ := write fencedDma 0 3 onesLine runs assigned plain List.length_replicate (by decide +kernel)
  have run := exec_pcieDmaWrite_supported (j := 0) (addr := 128 * 3) (bytes := onesLine) runs (by decide +kernel)
    (List.length_replicate.trans_le (by decide))
  have untouched : t.mem = [] := by
    rw [Host.Outcome.next.inj (ht.symm.trans run)]
    exact mem_dmaWrite_of_fenced assigned (List.cons_ne_nil _ _) (by decide +kernel) (by decide +kernel)
  have zeros : t.memBytes (128 * 3) 128 = List.replicate 128 0 := by
    simp only [State.memBytes, State.memB, untouched, Tab.get_nil, List.map_const', List.length_range]
  exact absurd (zeros.symm.trans stored) (by decide)

end Sys2Proof.Machine
end

section
/-! PROOFS. What a Finxis port sends: a packet of one flit goes at once from a port that is free to send it (08 R239 to R242). -/

namespace Sys2Proof.Machine
open Sys2Proof
-- One proof after another: elaborated side by side, the proofs of the one text pass the memory that the check allows.
set_option Elab.async false

/-! ### Flits and packets as bytes -/

theorem sliceB_whole {l : List Byte} {n : Nat} (h : l.length = n) : sliceB l 0 n = l := by
  simp [sliceB, ← h]

theorem length_sliceB (l : List Byte) (off n : Nat) : (sliceB l off n).length = n := by
  simp only [sliceB, List.length_append, List.length_take, List.length_drop, List.length_replicate]
  omega

/-- A flit's packet bytes are cut or filled to 248 once. -/
theorem flitBytes_slice (seq ack vl kind cv cn : Nat) (b : List Byte) :
    flitBytes seq ack vl kind cv cn (sliceB b 0 248) = flitBytes seq ack vl kind cv cn b := by
  unfold flitBytes fitB
  rw [sliceB_whole (length_sliceB b 0 248)]

/-- A sequence number has ten bits. -/
theorem flitBytes_seq (seq ack vl kind cv cn : Nat) (b : List Byte) :
    flitBytes (((seq + 1) % 1024 + 1023) % 1024) ack vl kind cv cn b = flitBytes seq ack vl kind cv cn b := by
  have low : ((seq + 1) % 1024 + 1023) % 1024 % 2 ^ (31 + 1 - 22) = seq % 2 ^ (31 + 1 - 22) := by omega
  have field : setBits 0 31 22 (((seq + 1) % 1024 + 1023) % 1024) = setBits 0 31 22 seq := by
    unfold setBits
    dsimp only
    rw [low]
  unfold flitBytes
  rw [field]

/-- The flit of a packet of one flit. -/
def FxPkt.flit (k : FxPkt) : FxFlit := ⟨fxVl k.type, 1, k.type, k.ring, k.seq, sliceB k.bytes 0 248⟩

theorem flits_of_empty {k : FxPkt} (empty : k.payload = []) : k.flits = [k.flit] := by
  have length : k.bytes.length = 32 := by simp [FxPkt.bytes, empty]
  unfold FxPkt.flits
  dsimp only
  rw [length]
  rfl

/-! ### Credits returned with a flit -/

/-- A port returns `n` credits of lane `vl` with its next flit. -/
def FxPort.Returns (x : FxPort) (vl n : Nat) : Prop := x.takeRet.1 = vl ∧ x.takeRet.2.1 = n

theorem returns_none {x : FxPort} (h : x.ret = []) : x.Returns 0 0 := by
  unfold FxPort.Returns FxPort.takeRet
  rw [h]
  exact ⟨rfl, rfl⟩

/-- One credit of a lane goes back, unless it is of lane 0 and a COMMAND waits for staging (08 R247). -/
theorem returns_one {x : FxPort} {vl : Nat} (h : x.ret = [(vl, 1)]) (free : vl ≠ 0 ∨ x.waiting = none) : x.Returns vl 1 := by
  have due : x.ret.find? (fun e => e.2 != 0 && !(e.1 == 0 && x.waiting.isSome)) = some (vl, 1) := by
    rcases free with free | free <;> simp [h, free]
  unfold FxPort.Returns FxPort.takeRet
  rw [due]
  exact ⟨rfl, rfl⟩

theorem returns_congr {x y : FxPort} {vl n : Nat} (h : x.Returns vl n) (ret : y.ret = x.ret) (waiting : y.waiting = x.waiting) :
    y.Returns vl n := by
  unfold FxPort.Returns FxPort.takeRet at h ⊢
  rw [ret, waiting]
  revert h
  split <;> exact id

/-- Only what is to be returned changes. -/
theorem takeRet_ret (x : FxPort) : ∃ t, x.takeRet.2.2 = { x with ret := t } := by
  unfold FxPort.takeRet
  split <;> exact ⟨_, rfl⟩

/-! ### Putting a flit on the line -/

theorem sent_congr {s t : State} (h : t.out = s.out) : t.sent = s.sent := by rw [State.sent, State.sent, h]

theorem fxState_congr {s t : State} (h : t.regs = s.regs) (p : Nat) : t.fxState p = s.fxState p := by
  rw [State.fxState, State.fxState, mode_congr h, rd_congr h]

theorem fxQuiet_congr {s t : State} (h : t.regs = s.regs) : t.fxQuiet = s.fxQuiet := by
  rw [State.fxQuiet, State.fxQuiet, mode_congr h]

/-- A flit is sent; the codeword that it may complete carries it and the flits before it. -/
theorem sent_fxLine (s : State) (p : Nat) (b : List Byte) : (s.fxLine p b).sent = s.sent ++ [.flit p b] := by
  unfold State.fxLine
  generalize 2 ^ 5140 = block
  dsimp only
  split
  · exact List.filter_append ..
  · simp [State.sent, State.send, State.setPort]

theorem sent_fxPut {s : State} {p vl n : Nat} (ret : (s.port p).Returns vl n) (seq : Nat) (f : FxFlit) :
    (s.fxPut p seq f).sent =
      s.sent ++ [.flit p (flitBytes seq (((s.port p).rseq + 1023) % 1024) f.vl 0 vl n f.bytes)] := by
  obtain ⟨t, taken⟩ := takeRet_ret (s.port p)
  obtain ⟨lane, count⟩ := ret
  unfold State.fxPut
  dsimp only
  rw [sent_fxLine, lane, count, taken]
  rfl

/-- A port may send the first flit of a packet of a lane (as `fxClear`, with credits to return or none). -/
def State.fxReady (s : State) (p vl : Nat) : Prop :=
  s.fxState p = 5 ∧ s.fxQuiet = false ∧ (s.port p).txq = [] ∧ (s.port p).replay = [] ∧ (s.port p).unack.length < 512 ∧
    1 ≤ Tab.get 0 (s.port p).credits vl ∧ (s.port p).passes vl = true

theorem out_ite_pmcFx (s : State) (c : Prop) [Decidable c] (p k n : Nat) : (if c then s.pmcFx p k n else s).out = s.out := by
  split
  · simp only [kept @State.pmcFx_fr]
  · rfl

/-- The next flit of a port that is ready goes out under the next sequence number. -/
theorem fxSendOne_only {s : State} {p : Nat} {f : FxFlit} (active : s.fxState p = 5) (idle : (s.port p).replay = [])
    (room : (s.port p).unack.length < 512) (only : (s.port p).txq = [f]) (may : (s.port p).mayStart s.fxQuiet f = true) :
    ∃ w t : State, s.fxSendOne p = some t ∧
      t.out = (w.fxPut p ((((s.port p).nseq + 1) % 1024 + 1023) % 1024) f).out ∧ w.out = s.out ∧
      (w.port p).rseq = (s.port p).rseq ∧ (w.port p).ret = (s.port p).ret ∧ (w.port p).waiting = (s.port p).waiting := by
  have picked : (s.port p).pick s.fxQuiet [f] [] = some ([], f, []) := by
    unfold FxPort.pick
    rw [may]
    rfl
  unfold State.fxSendOne
  dsimp only
  rw [active, if_neg (by decide), idle]
  dsimp only
  rw [if_neg (Nat.not_le_of_lt room), only, picked]
  dsimp only
  refine ⟨_, _, rfl, out_ite_pmcFx _ _ _ _ _, rfl, ?_, ?_, ?_⟩ <;> rw [State.port_setPort_same] <;> rfl

/-- The one flit that waits at a port goes out. -/
theorem sent_fxPump_only {s : State} {p vl n : Nat} {f : FxFlit} (active : s.fxState p = 5) (idle : (s.port p).replay = [])
    (room : (s.port p).unack.length < 512) (only : (s.port p).txq = [f]) (may : (s.port p).mayStart s.fxQuiet f = true)
    (ret : (s.port p).Returns vl n) : (s.fxPump p).sent = s.sent ++
      [.flit p (flitBytes (s.port p).nseq (((s.port p).rseq + 1023) % 1024) f.vl 0 vl n f.bytes)] := by
  obtain ⟨w, t, step, out, wout, rseq, wret, waiting⟩ := fxSendOne_only active idle room only may
  have pumped : s.fxPump p = t := by simp [State.fxPump, idle, only, step]
  rw [pumped, sent_congr out, sent_fxPut (returns_congr ret wret waiting), sent_congr wout, rseq, flitBytes_seq]

/-- A packet without payload is sent at once by a port that is ready. -/
theorem sent_fxQueue {s : State} {p vl n : Nat} {k : FxPkt} (ready : s.fxReady p (fxVl k.type)) (empty : k.payload = [])
    (ret : (s.port p).Returns vl n) : (s.fxQueue p k).sent = s.sent ++ [s.fxFlit p k vl n] := by
  obtain ⟨active, loud, unsent, idle, room, credit, passes⟩ := ready
  have port := State.port_setPort_same s p
  have may : FxPort.mayStart { s.port p with txq := [k.flit] } s.fxQuiet k.flit = true := by
    have passes' : FxPort.passes { s.port p with txq := [k.flit] } k.flit.vl = true := passes
    have credit' : k.flit.need ≤ Tab.get 0 (s.port p).credits k.flit.vl := credit
    simp [FxPort.mayStart, loud, passes', credit']
  unfold State.fxQueue
  dsimp only
  rw [unsent, flits_of_empty empty, List.nil_append,
    sent_fxPump_only (s := s.setPort p { s.port p with txq := [k.flit] }) (f := k.flit) (vl := vl) (n := n) active]
  case idle => rw [port]; exact idle
  case room => rw [port]; exact room
  case only => rw [port]
  case may => rw [port]; exact may
  case ret => rw [port]; exact returns_congr ret rfl rfl
  rw [port]
  simp only [FxPkt.flit, flitBytes_slice]
  rfl

/-! ### What sending leaves alone -/

/-- What a port has received, its windows and the fetches due again: nothing that is sent changes them. -/
def FxPort.inbox (x : FxPort) : List FxPkt × Tab (Option FxWin) × List Nat := (x.rx, x.wins, x.again)

theorem inbox_congr {s t : State} (h : t.fx = s.fx) (p : Nat) : (t.port p).inbox = (s.port p).inbox := by
  rw [State.port, State.port, h]

theorem inbox_setPort {s : State} {p : Nat} {x : FxPort} (h : x.inbox = (s.port p).inbox) :
    ((s.setPort p x).port p).inbox = (s.port p).inbox := by rw [State.port_setPort_same, h]

theorem inbox_line (x : FxPort) (l : Nat × Nat) : FxPort.inbox { x with line := l } = x.inbox := rfl

theorem port_send (s : State) (m : OutMsg) (p : Nat) : (s.send m).port p = s.port p := rfl

theorem inbox_fxLine (s : State) (p : Nat) (b : List Byte) : ((s.fxLine p b).port p).inbox = (s.port p).inbox := by
  unfold State.fxLine
  generalize 2 ^ 5140 = block
  dsimp only
  split
  · exact inbox_setPort (s := s.send (.flit p b)) (inbox_line _ _)
  · rw [port_send]
    exact inbox_setPort (s := s.send (.flit p b)) (inbox_line _ _)

theorem inbox_fxPut (s : State) (p seq : Nat) (f : FxFlit) : ((s.fxPut p seq f).port p).inbox = (s.port p).inbox := by
  obtain ⟨t, taken⟩ := takeRet_ret (s.port p)
  unfold State.fxPut
  dsimp only
  rw [inbox_fxLine, State.port_setPort_same, taken]
  unfold FxPort.spend
  split <;> rfl

theorem rdW_pmcFx_other (s : State) {p k o : Nat} (n : Nat) (h : o ≠ Reg.FX_PMC p k) : (s.pmcFx p k n).rdW o = s.rdW o :=
  rdW_pmcAdd_other s _ _ n h

theorem mode_pmcFx (s : State) (p k n : Nat) : (s.pmcFx p k n).mode = s.mode := by
  unfold State.mode State.rd
  rw [rdW_pmcFx_other s n (by simp only [Reg.PKG_MODE, Reg.FX_PMC]; omega)]

/-- What a state shows of a port's inbox, and its mode. -/
def State.calm (s : State) (p : Nat) : (List FxPkt × Tab (Option FxWin) × List Nat) × Nat := ((s.port p).inbox, s.mode)

theorem calm_congr {s t : State} {p : Nat} (inbox : (t.port p).inbox = (s.port p).inbox) (mode : t.mode = s.mode) :
    t.calm p = s.calm p := Prod.ext inbox mode

theorem calm_pmcFx (s : State) (p k n : Nat) : (s.pmcFx p k n).calm p = s.calm p :=
  calm_congr (inbox_congr (s := s) (by simp only [kept @State.pmcFx_fr]) p) (mode_pmcFx s p k n)

theorem calm_setPort {s : State} {p : Nat} {x : FxPort} (h : x.inbox = (s.port p).inbox) : (s.setPort p x).calm p = s.calm p :=
  calm_congr (inbox_setPort h) (mode_congr rfl)

theorem calm_fxPut (s : State) (p seq : Nat) (f : FxFlit) : (s.fxPut p seq f).calm p = s.calm p :=
  calm_congr (inbox_fxPut s p seq f) (mode_congr (s := s) (by simp only [kept @State.fxPut_fr]))

/-- One flit sent changes only what the port sends, and its counters. -/
theorem calm_fxSendOne {s t : State} {p : Nat} (h : s.fxSendOne p = some t) : t.calm p = s.calm p := by
  unfold State.fxSendOne at h
  dsimp only at h
  split at h
  · cases h
  · split at h
    · split at h
      · rw [← Option.some.inj h, calm_pmcFx]
        exact (calm_fxPut ..).trans (calm_setPort (by rfl))
      · cases h
    · split at h
      · cases h
      · split at h
        · cases h
        · rw [← Option.some.inj h]
          split
          · rw [calm_pmcFx]
            exact (calm_fxPut ..).trans (calm_setPort (by rfl))
          · exact (calm_fxPut ..).trans (calm_setPort (by rfl))

theorem calm_fxPump (s : State) (p : Nat) : (s.fxPump p).calm p = s.calm p := by
  refine foldl_keeps (State.calm · p) _ (fun s _ => ?_) _ s
  show ((s.fxSendOne p).getD s).calm p = s.calm p
  cases h : s.fxSendOne p with
  | none => rfl
  | some t => exact calm_fxSendOne h

theorem calm_fxQueue (s : State) (p : Nat) (k : FxPkt) : (s.fxQueue p k).calm p = s.calm p :=
  (calm_fxPump _ p).trans (calm_setPort rfl)

theorem inbox_fxQueue (s : State) (p : Nat) (k : FxPkt) : ((s.fxQueue p k).port p).inbox = (s.port p).inbox :=
  congrArg Prod.fst (calm_fxQueue s p k)

theorem mode_fxQueue (s : State) (p : Nat) (k : FxPkt) : (s.fxQueue p k).mode = s.mode := congrArg Prod.snd (calm_fxQueue s p k)

end Sys2Proof.Machine
end

section
/-! PROOFS. A Finxis port acts on the oldest packet of a lane: what is left when it has taken it, and what it answers (08 R242 to
R250). -/

namespace Sys2Proof.Machine
open Sys2Proof
-- One proof after another: elaborated side by side, the proofs of the one text pass the memory that the check allows.
set_option Elab.async false

/-! ### The oldest packet of a lane is taken -/

/-- Packet `k` has left the receiver of a port, and its credits are to be returned. -/
def State.taken (s : State) (p : Nat) (k : FxPkt) : State :=
  (s.setPort p { s.port p with rx := (s.port p).rx.erase k }).fxReturn p (fxVl k.type) (flitsOf (32 + k.payload.length))

theorem port_taken (s : State) (p : Nat) (k : FxPkt) : (s.taken p k).port p = { s.port p with
    rx := (s.port p).rx.erase k
    ret := Tab.put 0 (s.port p).ret (fxVl k.type)
      (Tab.get 0 (s.port p).ret (fxVl k.type) + flitsOf (32 + k.payload.length)) } := by
  unfold State.taken State.fxReturn
  dsimp only
  rw [State.port_setPort_same, State.port_setPort_same]

theorem regs_taken (s : State) (p : Nat) (k : FxPkt) : (s.taken p k).regs = s.regs := rfl
theorem eng_taken (s : State) (p : Nat) (k : FxPkt) : (s.taken p k).eng = s.eng := rfl
theorem out_taken (s : State) (p : Nat) (k : FxPkt) : (s.taken p k).out = s.out := rfl
theorem pmc_taken (s : State) (p : Nat) (k : FxPkt) : (s.taken p k).pmc = s.pmc := rfl
theorem pkg_taken (s : State) (p : Nat) (k : FxPkt) : (s.taken p k).pkg = s.pkg := rfl

theorem fxOwns_congr {s t : State} (h : t.regs = s.regs) (p ring : Nat) : t.fxOwns p ring = s.fxOwns p ring := by
  rw [State.fxOwns, State.fxOwns, State.on, State.on, rd_congr h, rd_congr h]

section
variable {s : State} {p type : Nat} {k : FxPkt} (next : s.fxNext p type k)
include next

theorem fxAct_next (f : FxPkt → State → State) : s.fxAct p type f = f k (s.taken p k) := by
  obtain ⟨oldest, rfl, free⟩ := next
  have goes : (k.type != k.type || (fxVl k.type == 0 && (s.port p).waiting.isSome)) = false := by
    rcases free with free | free <;> simp [free]
  unfold State.fxAct
  dsimp only
  rw [oldest]
  dsimp only
  rw [goes]
  rfl

theorem fxRing_owned (f : FxPkt → State → State) (owns : s.fxOwns p k.ring = true) :
    s.fxRing p type f = f k (s.taken p k) := by
  unfold State.fxRing
  rw [fxAct_next next, fxOwns_congr (regs_taken s p k), owns]
  rfl

theorem fxRing_refused (f : FxPkt → State → State) (foreign : s.fxOwns p k.ring = false) :
    s.fxRing p type f = (s.taken p k).fxNotice p k.ring k.seq 3 := by
  unfold State.fxRing
  rw [fxAct_next next, fxOwns_congr (regs_taken s p k), foreign]
  rfl

end

/-! ### Answers -/

/-- State `u` is `s` as far as port `p` sends: the same is sent, and its link and training state are the same. -/
structure SameLink (s u : State) (p : Nat) : Prop where
  out : u.out = s.out
  state : u.fxState p = s.fxState p
  quiet : u.fxQuiet = s.fxQuiet
  txq : (u.port p).txq = (s.port p).txq
  replay : (u.port p).replay = (s.port p).replay
  unack : (u.port p).unack = (s.port p).unack
  credits : (u.port p).credits = (s.port p).credits
  lim : (u.port p).lim = (s.port p).lim
  nseq : (u.port p).nseq = (s.port p).nseq
  rseq : (u.port p).rseq = (s.port p).rseq

/-- A port that is free to send answers at once with a packet without payload. -/
theorem sent_answer {s u : State} {p vl n : Nat} {k : FxPkt} (same : SameLink s u p) (clear : s.fxClear p (fxVl k.type))
    (ret : (u.port p).Returns vl n) (empty : k.payload = []) : (u.fxQueue p k).sent = s.sent ++ [s.fxFlit p k vl n] := by
  obtain ⟨active, loud, unsent, idle, -, room, credit, passes⟩ := clear
  have ready : u.fxReady p (fxVl k.type) := by
    unfold State.fxReady FxPort.passes
    rw [same.state, same.quiet, same.txq, same.replay, same.unack, same.credits, same.lim]
    exact ⟨active, loud, unsent, idle, room, credit, passes⟩
  rw [sent_fxQueue ready empty ret, sent_congr same.out, State.fxFlit, same.nseq, same.rseq]

/-- A change of what a port has received, registered and asked for leaves its link as it was. -/
theorem sameLink_setPort {s u : State} {p : Nat} {x : FxPort} (same : SameLink s u p) (txq : x.txq = (u.port p).txq)
    (replay : x.replay = (u.port p).replay) (unack : x.unack = (u.port p).unack) (credits : x.credits = (u.port p).credits)
    (lim : x.lim = (u.port p).lim) (nseq : x.nseq = (u.port p).nseq) (rseq : x.rseq = (u.port p).rseq) :
    SameLink s (u.setPort p x) p := by
  constructor
  case out => exact same.out
  case state => exact same.state
  case quiet => exact same.quiet
  all_goals rw [State.port_setPort_same]
  case txq => rw [txq, same.txq]
  case replay => rw [replay, same.replay]
  case unack => rw [unack, same.unack]
  case credits => rw [credits, same.credits]
  case lim => rw [lim, same.lim]
  case nseq => rw [nseq, same.nseq]
  case rseq => rw [rseq, same.rseq]

theorem sameLink_refl (s : State) (p : Nat) : SameLink s s p := by constructor <;> rfl

theorem sameLink_taken (s : State) (p : Nat) (k : FxPkt) : SameLink s (s.taken p k) p := by
  have port := port_taken s p k
  constructor
  case out => exact out_taken s p k
  case state => exact fxState_congr (regs_taken s p k) p
  case quiet => exact fxQuiet_congr (regs_taken s p k)
  all_goals rw [port]

/-- The credit of a packet of one flit goes back with the next flit. -/
theorem returns_taken {s : State} {p type vl : Nat} {k : FxPkt} (next : s.fxNext p type k) (clear : s.fxClear p vl)
    (short : flitsOf (32 + k.payload.length) = 1) : ((s.taken p k).port p).Returns (fxVl type) 1 := by
  obtain ⟨-, rfl, free⟩ := next
  obtain ⟨-, -, -, -, ret, -⟩ := clear
  rw [port_taken]
  refine returns_one ?_ free
  dsimp only
  rw [ret, short]
  rfl

theorem returns_setPort {s : State} {p vl n : Nat} {x : FxPort} (h : (s.port p).Returns vl n) (ret : x.ret = (s.port p).ret)
    (waiting : x.waiting = (s.port p).waiting) : ((s.setPort p x).port p).Returns vl n := by
  rw [State.port_setPort_same]
  exact returns_congr h ret waiting

/-! ### Notices (08 R243) -/

theorem port_raise (s : State) (k p : Nat) : (s.raise k).port p = s.port p := rfl
theorem sent_raise (s : State) (k : Nat) : (s.raise k).sent = s.sent := rfl
theorem mode_raise (s : State) (k : Nat) : (s.raise k).mode = s.mode := rfl

theorem sent_fxNotice {s u : State} {p ring seq code vl n : Nat} (same : SameLink s u p) (clear : s.fxClear p 1)
    (ret : (u.port p).Returns vl n) : (u.fxNotice p ring seq code).sent = s.sent ++
      [s.fxFlit p { FxPkt.blank with type := 0x25, ring := ring, seq := seq, code := code } vl n] := by
  unfold State.fxNotice
  rw [sent_raise]
  exact sent_answer (k := { FxPkt.blank with type := 0x25, ring := ring, seq := seq, code := code }) same clear ret rfl

theorem eng_fxNotice (s : State) (p ring seq code : Nat) : (s.fxNotice p ring seq code).eng = s.eng := by
  simp only [kept @State.fxNotice_fr]

theorem inbox_fxNotice (s : State) (p ring seq code : Nat) : ((s.fxNotice p ring seq code).port p).inbox = (s.port p).inbox := by
  unfold State.fxNotice
  rw [port_raise, inbox_fxQueue]

theorem rx_fxNotice (s : State) (p ring seq code : Nat) : ((s.fxNotice p ring seq code).port p).rx = (s.port p).rx :=
  congrArg Prod.fst (inbox_fxNotice s p ring seq code)

theorem mode_fxNotice (s : State) (p ring seq code : Nat) : (s.fxNotice p ring seq code).mode = s.mode := by
  unfold State.fxNotice
  rw [mode_raise, mode_fxQueue]

theorem rx_taken (s : State) (p : Nat) (k : FxPkt) : ((s.taken p k).port p).rx = (s.port p).rx.erase k := by rw [port_taken]

/-! ### FX_DOORBELL and FETCH_RESEND (08 R246, R249) -/

section
variable {s : State} {p : Fin 4} {k : FxPkt} (next : s.fxNext p 3 k) (owns : s.fxOwns p k.ring = true)
include next owns

theorem exec_fxDoorbell_inUse {id : Nat} {w : FxWin} (window : (s.port p).cqWin k.ring = some (id, w)) (used : w.released = false) :
    exec (.fxDoorbell p) s = .next ((s.taken p k).doorbell k.ring (leNat k.payload)) := by
  have window' : ((s.taken p k).port p).cqWin k.ring = some (id, w) := by rw [port_taken]; exact window
  show execFxDoorbell p s = _
  unfold execFxDoorbell
  rw [fxRing_owned next _ owns, window']
  exact congrArg _ (if_neg (by simp [used]))

theorem exec_fxDoorbell_withdrawn (none' : ((s.port p).cqWin k.ring).all (fun e => e.2.released) = true) :
    exec (.fxDoorbell p) s = .next ((s.taken p k).fxNotice p k.ring k.seq 4) := by
  have same : ((s.taken p k).port p).cqWin k.ring = (s.port p).cqWin k.ring := by rw [port_taken]; rfl
  show execFxDoorbell p s = _
  unfold execFxDoorbell
  rw [fxRing_owned next _ owns, same]
  cases window : (s.port p).cqWin k.ring with
  | none => dsimp only
  | some e =>
    rw [window] at none'
    exact congrArg _ (if_pos none')

end

/-- State `t` has the registers of `s`, but for the port's count of the COMMANDs it has received (21 R500). -/
def State.Counted (s t : State) (p : Nat) : Prop := ∀ o, o ≠ Reg.FX_PMC p 0 → t.rdW o = s.rdW o

theorem counted_setPort (s : State) (p : Nat) (x : FxPort) : s.Counted (s.setPort p x) p := fun _ _ => rfl

theorem State.Counted.rd {s t : State} {p o : Nat} (h : s.Counted t p) (f : Fld) (ho : o % 0x40 ≠ 8) : t.rd o f = s.rd o f := by
  rw [State.rd, State.rd, h o (by simp only [Reg.FX_PMC]; omega)]

theorem fxFetches_congr {s t : State} {p : Nat} (h : s.Counted t p) (wins : (t.port p).wins = (s.port p).wins) (ring : Nat) :
    t.fxFetches p ring = s.fxFetches p ring := by
  have status := h.rd F.RING_STATUS_STATE (o := Reg.RING_STATUS ring) (by simp only [Reg.RING_STATUS]; omega)
  have ctx := h.rd F.RING_CFG_CTX (o := Reg.RING_CFG ring) (by simp only [Reg.RING_CFG]; omega)
  have valid (c : Nat) := h.rd F.CTX_CFG_VALID (o := Reg.CTX_CFG c) (by simp only [Reg.CTX_CFG]; omega)
  rw [State.fxFetches, State.fxFetches, State.ctxValid, State.ctxValid, State.on, State.on, status, ctx, valid,
    FxPort.cqWin, FxPort.cqWin, wins]

theorem rd_setPort (s : State) (p : Nat) (x : FxPort) (o : Nat) (f : Fld) : (s.setPort p x).rd o f = s.rd o f := rfl

theorem fxFetches_setPort {s : State} {p : Nat} {x : FxPort} (wins : x.wins = (s.port p).wins) (ring : Nat) :
    (s.setPort p x).fxFetches p ring = s.fxFetches p ring :=
  fxFetches_congr (counted_setPort s p x) (by rw [State.port_setPort_same, wins]) ring

theorem exec_fetchResend_due {s : State} {p : Fin 4} {r q w : Nat} {l : List Nat} (due : (s.port p).again = r :: l)
    (asked : Tab.get (0, 0) (s.port p).want r = (q, w)) (open' : w ≠ 0) (fetches : s.fxFetches p r = true) :
    exec (.fetchResend p) s = .next ((s.setPort p { s.port p with again := l }).fxFetch p r
      (s.rd (Reg.RING_HEAD r) F.RING_HEAD_SQ_HEAD) w) := by
  have still : (s.setPort p { s.port p with again := l }).fxFetches p r = true :=
    (fxFetches_setPort (s := s) (x := { s.port p with again := l }) rfl r).trans fetches
  show execFetchResend p s = _
  unfold execFetchResend
  rw [due]
  dsimp only
  rw [asked, if_neg open', if_neg (by rw [still]; decide), rd_setPort]

end Sys2Proof.Machine
end

section
/-! PROOFS. Windows of a Finxis port, registered and released (08 R248, R250), and management messages (R243). -/

namespace Sys2Proof.Machine
open Sys2Proof
-- One proof after another: elaborated side by side, the proofs of the one text pass the memory that the check allows.
set_option Elab.async false

/-! ### Acknowledgements -/

theorem sent_fxAck {s u : State} {p ring w code vl n : Nat} (same : SameLink s u p) (clear : s.fxClear p 1)
    (ret : (u.port p).Returns vl n) : (u.fxAck p ring w code).sent = s.sent ++
      [s.fxFlit p { FxPkt.blank with type := 0x23, ring := ring, window := w, code := code } vl n] :=
  sent_answer (k := { FxPkt.blank with type := 0x23, ring := ring, window := w, code := code }) same clear ret rfl

theorem wins_fxAck (s : State) (p ring w code : Nat) : ((s.fxAck p ring w code).port p).wins = (s.port p).wins :=
  congrArg (fun x => x.2.1) (inbox_fxQueue s p { FxPkt.blank with type := 0x23, ring := ring, window := w, code := code })

theorem wins_taken (s : State) (p : Nat) (k : FxPkt) : ((s.taken p k).port p).wins = (s.port p).wins := by rw [port_taken]

theorem win_taken (s : State) (p : Nat) (k : FxPkt) (w : Nat) : ((s.taken p k).port p).win w = (s.port p).win w := by
  rw [FxPort.win, FxPort.win, wins_taken]

theorem cqWin_taken (s : State) (p : Nat) (k : FxPkt) (ring : Nat) : ((s.taken p k).port p).cqWin ring = (s.port p).cqWin ring := by
  rw [FxPort.cqWin, FxPort.cqWin, wins_taken]

/-- Window `id` of a port is `v`. -/
def State.setWin (s : State) (p id : Nat) (v : Option FxWin) : State :=
  s.setPort p { s.port p with wins := Tab.put none (s.port p).wins id v }

theorem port_setWin (s : State) (p id : Nat) (v : Option FxWin) :
    (s.setWin p id v).port p = { s.port p with wins := Tab.put none (s.port p).wins id v } := State.port_setPort_same ..

theorem win_setWin (s : State) (p id : Nat) (v : Option FxWin) : ((s.setWin p id v).port p).win id = v := by
  rw [port_setWin]
  exact Tab.get_put_same none _ id v

theorem sameLink_setWin {s u : State} {p : Nat} (same : SameLink s u p) (id : Nat) (v : Option FxWin) :
    SameLink s (u.setWin p id v) p := sameLink_setPort same rfl rfl rfl rfl rfl rfl rfl

theorem win_fxAck (s : State) (p ring w code id : Nat) : ((s.fxAck p ring w code).port p).win id = (s.port p).win id := by
  rw [FxPort.win, FxPort.win, wins_fxAck]

/-! ### WINDOW_REG (08 R248) -/

/-- A WINDOW_REG names a completion window of its ring pair's size, or an output window of 128 bytes to 16 MiB. -/
def FxPkt.windowOk (k : FxPkt) (s : State) : Bool :=
  (leAt k.payload 0 1 == 1 && leAt k.payload 4 4 == 64 * 2 ^ s.rd (Reg.RING_CFG k.ring) F.RING_CFG_CQ_LOG2) ||
    (leAt k.payload 0 1 == 2 && leAt k.payload 4 4 % 128 == 0 && decide (128 ≤ leAt k.payload 4 4) &&
      decide (leAt k.payload 4 4 ≤ 0x1000000))

/-- A window that is refused: the acknowledgement says why. -/
structure WindowRefused (s : State) (p : Nat) (k : FxPkt) (code : Nat) (t : State) : Prop where
  wins : (t.port p).wins = (s.port p).wins
  sent : t.sent = s.sent ++ [s.fxFlit p { FxPkt.blank with type := 0x23, ring := k.ring, window := k.window, code := code } 0 1]

section
variable {s : State} {p : Fin 4} {k : FxPkt} (next : s.fxNext p 4 k) (owns : s.fxOwns p k.ring = true)
include next owns

theorem exec_windowReg : exec (.windowReg p) s = .next (
    if !k.windowOk s then (s.taken p k).fxAck p k.ring k.window 1
    else if ((s.port p).win k.window).isSome then (s.taken p k).fxAck p k.ring k.window 2
    else if leAt k.payload 0 1 == 1 && ((s.port p).cqWin k.ring).isSome then (s.taken p k).fxAck p k.ring k.window 3
    else ((s.taken p k).setWin p k.window (some ⟨k.ring, leAt k.payload 0 1, leAt k.payload 4 4, false⟩)).fxAck p k.ring
      k.window 0) := by
  show execWindowReg p s = _
  unfold execWindowReg
  rw [fxRing_owned next _ owns]
  dsimp only
  rw [win_taken, cqWin_taken, rd_congr (regs_taken s p k)]
  rfl

variable (clear : s.fxClear p 1) (length : k.payload.length = 16)
include clear length

omit owns in
theorem windowRefused_fxAck (code : Nat) : WindowRefused s p k code ((s.taken p k).fxAck p k.ring k.window code) where
  wins := (wins_fxAck ..).trans (wins_taken ..)
  sent := sent_fxAck (sameLink_taken s p k) clear (returns_taken next clear (by rw [length]; rfl))

theorem windowReg_malformed (bad : k.windowOk s = false) : Completes (.windowReg p) s (WindowRefused s p k 1) := by
  refine completes_of_next (exec_windowReg next owns) ?_
  rw [bad, if_pos (by decide)]
  exact windowRefused_fxAck next clear length 1

variable (good : k.windowOk s = true)
include good

theorem windowReg_known (known : (s.port p).win k.window ≠ none) : Completes (.windowReg p) s (WindowRefused s p k 2) := by
  refine completes_of_next (exec_windowReg next owns) ?_
  rw [good, if_neg (by decide), if_pos (Option.isSome_iff_ne_none.2 known)]
  exact windowRefused_fxAck next clear length 2

variable (fresh : (s.port p).win k.window = none)
include fresh

theorem windowReg_second (kind : leAt k.payload 0 1 = 1) (other : (s.port p).cqWin k.ring ≠ none) :
    Completes (.windowReg p) s (WindowRefused s p k 3) := by
  refine completes_of_next (exec_windowReg next owns) ?_
  rw [good, if_neg (by decide), fresh, if_neg (by decide), kind, if_pos (by simp [Option.isSome_iff_ne_none, other])]
  exact windowRefused_fxAck next clear length 3

theorem windowReg_registered (only : leAt k.payload 0 1 = 2 ∨ (s.port p).cqWin k.ring = none) :
    Completes (.windowReg p) s (fun t =>
      (t.port p).win k.window = some ⟨k.ring, leAt k.payload 0 1, leAt k.payload 4 4, false⟩ ∧
      t.sent = s.sent ++ [s.fxFlit p { FxPkt.blank with type := 0x23, ring := k.ring, window := k.window, code := 0 } 0 1]) := by
  have single : ¬ (leAt k.payload 0 1 == 1 && ((s.port p).cqWin k.ring).isSome) = true := by
    rcases only with only | only <;> simp [only]
  have back := returns_taken next clear (by rw [length]; rfl)
  refine completes_of_next (exec_windowReg next owns) ?_
  rw [good, if_neg (by decide), fresh, if_neg (by decide), if_neg single]
  exact ⟨by rw [win_fxAck, win_setWin],
    sent_fxAck (sameLink_setWin (sameLink_taken s p k) _ _) clear (returns_setPort back rfl rfl)⟩

end

/-! ### WINDOW_RELEASE and its acknowledgement (08 R250) -/

/-- Forgetting what a ring pair's adapter was asked for leaves its port's windows and what it has received. -/
theorem port_fxForget {s : State} {n p : Nat} (port : s.ringPort n = some p) : ∃ want again,
    (s.fxForget n).port p = { s.port p with want := want, again := again } := by
  unfold State.fxForget
  rw [port]
  exact ⟨_, _, State.port_setPort_same ..⟩

theorem out_fxForget (s : State) (n : Nat) : (s.fxForget n).out = s.out := by simp only [kept @State.fxForget_fr]

section
variable {s : State} {p : Fin 4} {k : FxPkt} (next : s.fxNext p 5 k)
include next

theorem windowRelease_registered {w : FxWin} (window : (s.port p).win k.window = some w) :
    Completes (.windowRelease p) s (fun t =>
      (t.port p).win k.window = some { w with released := true } ∧ (t.port p).rx = (s.port p).rx.erase k ∧ t.out = s.out) := by
  have run : exec (.windowRelease p) s = .next (
      if w.kind = 1 ∧ ((s.taken p k).setWin p k.window (some { w with released := true })).ringPort w.ring = some p.val then
        ((s.taken p k).setWin p k.window (some { w with released := true })).fxForget w.ring
      else (s.taken p k).setWin p k.window (some { w with released := true })) := by
    show execWindowRelease p s = _
    unfold execWindowRelease
    rw [fxAct_next next]
    dsimp only
    rw [win_taken, window]
    rfl
  have withdrawn := win_setWin (s.taken p k) p k.window (some { w with released := true })
  have received : (((s.taken p k).setWin p k.window (some { w with released := true })).port p).rx = (s.port p).rx.erase k := by
    rw [port_setWin]
    exact rx_taken s p k
  have silent : ((s.taken p k).setWin p k.window (some { w with released := true })).out = s.out := out_taken s p k
  generalize (s.taken p k).setWin p k.window _ = u at run withdrawn received silent
  refine completes_of_next run ?_
  split
  next forgets =>
    obtain ⟨want, again, port⟩ := port_fxForget forgets.2
    rw [port, out_fxForget]
    exact ⟨withdrawn, received, silent⟩
  next => exact ⟨withdrawn, received, silent⟩

theorem windowRelease_unknown (absent : (s.port p).win k.window = none) (empty : k.payload = []) (clear : s.fxClear p 1) :
    Completes (.windowRelease p) s (WindowRefused s p k 0) := by
  have run : exec (.windowRelease p) s = .next ((s.taken p k).fxAck p k.ring k.window 0) := by
    show execWindowRelease p s = _
    unfold execWindowRelease
    rw [fxAct_next next]
    dsimp only
    rw [win_taken, absent]
  exact completes_of_next run ⟨(wins_fxAck ..).trans (wins_taken ..),
    sent_fxAck (sameLink_taken s p k) clear (returns_taken next clear (by rw [empty]; rfl))⟩

end

theorem windowReleaseAck_idle {s : State} {p : Fin 4} {id : Nat} {w : FxWin} (only : (s.port p).wins = [(id, some w)])
    (released : w.released = true) (idle : s.windowIdle p id w = true) (clear : s.fxClear p 1) :
    Completes (.windowReleaseAck p) s (fun t =>
      (t.port p).win id = none ∧
      t.sent = s.sent ++ [s.fxFlit p { FxPkt.blank with type := 0x23, ring := w.ring, window := id, code := 0 } 0 0]) := by
  have run : exec (.windowReleaseAck p) s = .next ((s.setWin p id none).fxAck p w.ring id 0) := by
    show execWindowReleaseAck p s = _
    unfold execWindowReleaseAck State.setWin
    dsimp only
    rw [only, List.find?_cons_of_pos (by simp [released, idle])]
  have ⟨_, _, _, _, none', _⟩ := clear
  exact completes_of_next run ⟨by rw [win_fxAck, win_setWin],
    sent_fxAck (sameLink_setWin (sameLink_refl s p) id none) clear (returns_setPort (returns_none none') rfl rfl)⟩

/-! ### MGMT (08 R243, 20 R484) -/

theorem pmcRuns_taken (s : State) (p : Nat) (k : FxPkt) : (s.taken p k).pmcRuns = s.pmcRuns := by
  rw [State.pmcRuns, State.pmcRuns, mode_congr (regs_taken s p k), pkg_taken]

/-- A running PMC that holds no request of a source takes one of a command it has. -/
theorem mgmtRequest_taken {s : State} {src : Nat} {q : List Byte} (runs : s.pmcRuns = true)
    (known : mgmtCodes.contains (leAt q 0 1) = true) (idle : Tab.look s.pmc.req src = none) :
    s.mgmtRequest src q = { s with pmc := { s.pmc with req := Tab.put [] s.pmc.req src q } } := by
  unfold State.mgmtRequest
  rw [runs, if_neg (by decide), known, if_neg (by decide), idle, if_neg (by decide)]

theorem mgmt_received {s : State} {p : Fin 4} {k : FxPkt} (next : s.fxNext p 0x31 k) (runs : s.pmcRuns = true)
    (known : mgmtCodes.contains (leAt k.payload 0 1) = true) (idle : Tab.look s.pmc.req (3 + p) = none) :
    Completes (.mgmt p) s (fun t =>
      Tab.get [] t.pmc.req (3 + p) = k.payload ∧ (t.port p).rx = (s.port p).rx.erase k) := by
  have run : exec (.mgmt p) s = .next ((s.taken p k).mgmtRequest (3 + p) k.payload) := by
    show execMgmt p s = _
    unfold execMgmt
    rw [fxAct_next next]
  refine completes_of_next run ?_
  rw [mgmtRequest_taken ((pmcRuns_taken s p k).trans runs) known ((congrArg (Tab.look ·.req _) (pmc_taken s p k)).trans idle)]
  exact ⟨Tab.get_put_same .., rx_taken s p k⟩

end Sys2Proof.Machine
end

section
/-! PROOFS. COMMAND and the staging of its data (08 R246, R247): descriptors of Finxis ring pairs start, wait or are refused. -/

namespace Sys2Proof.Machine
open Sys2Proof
-- One proof after another: elaborated side by side, the proofs of the one text pass the memory that the check allows.
set_option Elab.async false

/-! ### A descriptor starts (06 R201, 08 R246) -/

/-- The descriptor that starts is the ring manager's last, and SQ_HEAD counts it. -/
theorem startDesc_joins (s : State) (n seq : Nat) (b : List Byte) :
    (∃ d : Desc, (s.startDesc n seq b).eng.descs = s.eng.descs ++ [d] ∧ d.ring = n ∧ d.seq = seq) ∧
      ∃ u : State, u.regs = s.regs ∧ (s.startDesc n seq b).regs = (u.addF (Reg.RING_HEAD n) F.RING_HEAD_SQ_HEAD 1).regs := by
  unfold State.startDesc
  dsimp only
  split
  · split <;> exact ⟨⟨_, rfl, rfl, rfl⟩, s.eng' _, rfl, rfl⟩
  · exact ⟨⟨_, rfl, rfl, rfl⟩, s.eng' _, rfl, rfl⟩

theorem port_startDesc (s : State) (n seq : Nat) (b : List Byte) (p : Nat) : (s.startDesc n seq b).port p = s.port p := by
  rw [State.port, State.port, show (s.startDesc n seq b).fx = s.fx by simp only [kept @State.startDesc_fr]]

/-- What a port waits for of a ring pair once the next descriptor has come (08 R246). -/
def FxPort.onward (x : FxPort) (ring : Nat) : Nat × Nat :=
  (((Tab.get (0, 0) x.want ring).1 + 1) % 2 ^ 32, (Tab.get (0, 0) x.want ring).2 - 1)

/-- What the start of a COMMAND's descriptor leaves, from state `s`. -/
structure Starts (s : State) (p : Nat) (k : FxPkt) (t : State) : Prop where
  desc : t.desc k.ring k.seq ≠ none
  port : t.port p = { s.port p with want := Tab.put (0, 0) (s.port p).want k.ring ((s.port p).onward k.ring) }
  head : t.rd (Reg.RING_HEAD k.ring) F.RING_HEAD_SQ_HEAD = (s.rd (Reg.RING_HEAD k.ring) F.RING_HEAD_SQ_HEAD + 1) % 2 ^ 32

theorem starts_fxStart (s : State) (p : Nat) (k : FxPkt) : Starts s p k (s.fxStart p k none) := by
  unfold State.fxStart
  dsimp only
  generalize hu : s.setPort p _ = u
  obtain ⟨⟨d, descs, ring, seq⟩, v, regs, counted⟩ := startDesc_joins u k.ring k.seq k.payload
  refine ⟨?_, ?_, ?_⟩
  · rw [State.desc, descs, ← Option.isSome_iff_ne_none, List.find?_isSome]
    exact ⟨d, by simp, by simp [ring, seq]⟩
  · rw [port_startDesc, ← hu, State.port_setPort_same, FxPort.onward]
  · have same : v.rd (Reg.RING_HEAD k.ring) F.RING_HEAD_SQ_HEAD = s.rd (Reg.RING_HEAD k.ring) F.RING_HEAD_SQ_HEAD := by
      rw [rd_congr regs, ← hu, rd_setPort]
    rw [rd_congr counted, ← same]
    exact rd_wr_same v _ _ _ (by decide) (by decide)

/-! ### What becomes of a COMMAND that was asked for (08 R246, R247, R249) -/

theorem stages_outw_same (x : FxPort) : x = { x with stages := x.stages, outw := x.outw } := rfl

/-- A RUN_PIPELINE may be added to those that name output windows. -/
theorem fxNames_names (s : State) (p : Nat) (k : FxPkt) : (s.fxNames p k).regs = s.regs ∧
    ∃ l, (s.fxNames p k).port p = { s.port p with outw := l } := by
  unfold State.fxNames
  split
  · exact ⟨rfl, _, State.port_setPort_same ..⟩
  · exact ⟨rfl, _, rfl⟩

/-- The start of a COMMAND's descriptor with reservations `g` at its port, from state `s`. -/
structure Taken (s : State) (p : Nat) (k : FxPkt) (g : List FxStage) (t : State) : Prop where
  desc : t.desc k.ring k.seq ≠ none
  rx : (t.port p).rx = (s.port p).rx
  waiting : (t.port p).waiting = (s.port p).waiting
  stages : (t.port p).stages = g
  want : Tab.get (0, 0) (t.port p).want k.ring = (s.port p).onward k.ring
  head : t.rd (Reg.RING_HEAD k.ring) F.RING_HEAD_SQ_HEAD = (s.rd (Reg.RING_HEAD k.ring) F.RING_HEAD_SQ_HEAD + 1) % 2 ^ 32

theorem taken_fxStart {s v : State} {p : Nat} {k : FxPkt} {g : List FxStage} {l : List (Nat × Nat × Nat)} (regs : v.regs = s.regs)
    (port : v.port p = { s.port p with stages := g, outw := l }) : Taken s p k g (v.fxStart p k none) := by
  obtain ⟨desc, port', head⟩ := starts_fxStart v p k
  rw [port] at port'
  refine ⟨desc, ?_, ?_, ?_, ?_, by rw [head, rd_congr regs]⟩
  all_goals rw [port']
  exact Tab.get_put_same ..

/-- A COMMAND that stages data: its descriptor is well formed, its data fit the staging window, and the output window that it names
may take its output (08 R247, R248). -/
structure Staged (s : State) (p : Nat) (k : FxPkt) (i o : Nat) : Prop where
  whole : descFault k.payload true = none
  staged : stagedBytes k.payload = (i, o)
  some' : 0 < i + o
  fits : i + o ≤ (s.fxRegion p).2
  window : leAt k.payload 0 1 = 2 ∨ o = 0 ∨ (s.port p).outOk k.ring k.window o = true

theorem outOk_congr {x y : FxPort} (wins : y.wins = x.wins) (outw : y.outw = x.outw) (ring w n : Nat) :
    y.outOk ring w n = x.outOk ring w n := by
  rw [FxPort.outOk, FxPort.outOk, FxPort.win, FxPort.win, wins, outw]

theorem staged_congr {s t : State} {p i o : Nat} {k : FxPkt} (h : Staged s p k i o) (region : t.fxRegion p = s.fxRegion p)
    (wins : (t.port p).wins = (s.port p).wins) (outw : (t.port p).outw = (s.port p).outw) : Staged t p k i o :=
  ⟨h.whole, h.staged, h.some', by rw [region]; exact h.fits, by rw [outOk_congr wins outw]; exact h.window⟩

section
variable {s : State} {p : Nat} {k : FxPkt}

/-- A descriptor that is not well formed, or stages nothing, starts without staging. -/
theorem fxCommand_unstaged (bare : descFault k.payload true ≠ none ∨ stagedBytes k.payload = (0, 0)) :
    Taken s p k (s.port p).stages (s.fxCommand p k) := by
  obtain ⟨regs, l, port⟩ := fxNames_names s p k
  unfold State.fxCommand
  dsimp only
  by_cases bad : (descFault k.payload true).isSome = true
  · rw [if_pos bad]
    exact taken_fxStart regs port
  · have bare' : stagedBytes k.payload = (0, 0) := bare.resolve_left (fun h => bad (Option.isSome_iff_ne_none.2 h))
    have input : (stagedBytes k.payload).1 = 0 := by rw [bare']
    have output : (stagedBytes k.payload).2 = 0 := by rw [bare']
    rw [if_neg bad, if_neg (by omega), if_neg (by simp [output]), if_pos (by omega)]
    exact taken_fxStart rfl (stages_outw_same _)

variable {i o : Nat} (h : Staged s p k i o)
include h

omit h in
/-- Nothing is wrong with the output of a COMMAND that has none in staging, or whose window may take it. -/
theorem output_taken (window : leAt k.payload 0 1 = 2 ∨ o = 0 ∨ (s.port p).outOk k.ring k.window o = true) :
    ¬ (leAt k.payload 0 1 == 1 && o != 0 && !(s.port p).outOk k.ring k.window o) = true := by
  rcases window with window | window | window <;> simp [window]

/-- One that stages data reserves the lowest place that fits, or waits. -/
theorem fxCommand_placed {a : Nat} (place : fitStage (s.port p).stages (s.fxRegion p).2 (i + o) = some a) : s.fxCommand p k =
    ((s.setPort p { s.port p with stages := (s.port p).stages ++ [⟨k.ring, k.seq, a, i, o, false⟩] }).fxNames p
      k).fxStart p k none := by
  obtain ⟨whole, staged, some', fits, window⟩ := h
  unfold State.fxCommand
  dsimp only
  rw [whole, if_neg (by decide), staged, if_neg (Nat.not_lt_of_le fits), if_neg (output_taken window),
    if_neg (Nat.ne_of_gt some'), place]

theorem fxCommand_waits (full : fitStage (s.port p).stages (s.fxRegion p).2 (i + o) = none) :
    s.fxCommand p k = s.setPort p { s.port p with waiting := some k } := by
  obtain ⟨whole, staged, some', fits, window⟩ := h
  unfold State.fxCommand
  dsimp only
  rw [whole, if_neg (by decide), staged, if_neg (Nat.not_lt_of_le fits), if_neg (output_taken window),
    if_neg (Nat.ne_of_gt some'), full]

theorem fxCommand_reserves {a : Nat} (place : fitStage (s.port p).stages (s.fxRegion p).2 (i + o) = some a) :
    Taken s p k ((s.port p).stages ++ [⟨k.ring, k.seq, a, i, o, false⟩]) (s.fxCommand p k) := by
  rw [fxCommand_placed h place]
  generalize hu : s.setPort p _ = u
  obtain ⟨regs, l, port⟩ := fxNames_names u p k
  refine taken_fxStart (regs.trans (by rw [← hu]; rfl)) (l := l) ?_
  rw [port, ← hu, State.port_setPort_same]

end

/-! ### COMMAND (08 R246) -/

theorem fxExpects_congr {s t : State} {p : Nat} {k : FxPkt} (h : s.Counted t p) (wins : (t.port p).wins = (s.port p).wins)
    (want : (t.port p).want = (s.port p).want) : t.fxExpects p k = s.fxExpects p k := by
  have head := h.rd F.RING_HEAD_SQ_HEAD (o := Reg.RING_HEAD k.ring) (by simp only [Reg.RING_HEAD]; omega)
  rw [State.fxExpects, State.fxExpects, fxFetches_congr h wins, want, head]

/-- A COMMAND has left the receiver and is counted (21 R500). -/
def State.received (s : State) (p : Nat) (k : FxPkt) : State := (s.taken p k).pmcFx p 0 1

section
variable (s : State) (p : Nat) (k : FxPkt)

theorem counted_received : s.Counted (s.received p k) p := fun o ho =>
  (rdW_pmcFx_other _ 1 ho).trans (rdW_congr (regs_taken s p k) o)

theorem port_received : (s.received p k).port p = (s.taken p k).port p := by
  rw [State.port, State.port, State.received, show ((s.taken p k).pmcFx p 0 1).fx = _ by simp only [kept @State.pmcFx_fr]; rfl]

theorem eng_received : (s.received p k).eng = s.eng := by
  simp only [State.received, kept @State.pmcFx_fr, eng_taken]

theorem out_received : (s.received p k).out = s.out := by
  simp only [State.received, kept @State.pmcFx_fr, out_taken]

theorem fxRegion_received : (s.received p k).fxRegion p = s.fxRegion p := by
  have stage : (s.received p k).rdW (Reg.FX_STAGE p) = s.rdW (Reg.FX_STAGE p) :=
    counted_received s p k _ (by simp only [Reg.FX_STAGE, Reg.FX_PMC]; omega)
  rw [State.fxRegion, State.fxRegion, State.rd, State.rd, State.rd, State.rd, stage]

theorem staged_received {s : State} {p i o : Nat} {k : FxPkt} (h : Staged s p k i o) : Staged (s.received p k) p k i o :=
  staged_congr h (fxRegion_received s p k) (by rw [port_received, port_taken]) (by rw [port_received, port_taken])

theorem sameLink_received : SameLink s (s.received p k) p := by
  have counted := counted_received s p k
  have mode : (s.received p k).mode = s.mode := counted.rd F.PKG_MODE_CURRENT (o := Reg.PKG_MODE) (by decide)
  have port := port_received s p k
  have link := sameLink_taken s p k
  constructor
  case out => exact out_received s p k
  case state =>
    rw [State.fxState, State.fxState, mode, counted.rd _ (by simp only [Reg.FX_STATUS]; omega)]
  case quiet => rw [State.fxQuiet, State.fxQuiet, mode]
  all_goals rw [port]
  exacts [link.txq, link.replay, link.unack, link.credits, link.lim, link.nseq, link.rseq]

end

/-- A COMMAND that was asked for has the number that SQ_HEAD says. -/
theorem head_asked {s : State} {p : Nat} {k : FxPkt} (asked : s.fxExpects p k = true) :
    s.rd (Reg.RING_HEAD k.ring) F.RING_HEAD_SQ_HEAD = k.seq := by
  unfold State.fxExpects at asked
  simp only [Bool.and_eq_true, beq_iff_eq] at asked
  obtain ⟨⟨-, head⟩, -⟩ := asked
  exact head

section
variable {s : State} {p : Fin 4} {k : FxPkt} (next : s.fxNext p 1 k)
include next

/-- The oldest packet of lane 0 waits behind a FENCE where it is a COMMAND that was asked for (06 R208). -/
theorem fxFenced_next : s.fxFenced p = (s.fxOwns p k.ring && s.fxExpects p k && s.ringFenced k.ring) := by
  obtain ⟨oldest, type, -⟩ := next
  unfold State.fxFenced
  rw [show (s.port p).rx.find? (fun k => fxVl k.type == 0) = some k from oldest]
  simp [type]

theorem command_foreign (foreign : s.fxOwns p k.ring = false) (length : k.payload.length = 128) (clear : s.fxClear p 1) :
    Completes (.command p) s (fun t =>
      t.sent = s.sent ++ [s.fxFlit p { FxPkt.blank with type := 0x25, ring := k.ring, seq := k.seq, code := 3 } 0 1] ∧
      t.eng = s.eng ∧ (t.port p).rx = (s.port p).rx.erase k) := by
  have run : exec (.command p) s = .next ((s.taken p k).fxNotice p k.ring k.seq 3) := by
    show execCommand p s = _
    unfold execCommand
    rw [fxFenced_next next, foreign, if_neg (by simp), fxRing_refused next _ foreign]
  refine completes_of_next run ⟨?_, ?_, ?_⟩
  · exact sent_fxNotice (sameLink_taken s p k) clear (returns_taken next clear (by rw [length]; rfl))
  · rw [eng_fxNotice, eng_taken]
  · rw [rx_fxNotice, rx_taken]

variable (owns : s.fxOwns p k.ring = true)
include owns

/-- The run of an own COMMAND, no FENCE before it: on the state without it, as asked for or not. -/
theorem exec_command_next (free : (s.fxExpects p k && s.ringFenced k.ring) = false) :
    exec (.command p) s = .next (
      if !(s.received p k).fxExpects p k then
        (if (Tab.get (0, 0) ((s.received p k).port p).want k.ring).2 = 0 ∨
            ((s.received p k).port p).again.contains k.ring = true then s.received p k
          else (s.received p k).setPort p { (s.received p k).port p with
            again := ((s.received p k).port p).again ++ [k.ring] }).fxNotice p k.ring k.seq 5
      else if (((s.received p k).fxCommand p k).port p).waiting.isSome then
        ((s.received p k).fxCommand p k).setPort p { ((s.received p k).fxCommand p k).port p with
          ret := Tab.put 0 (((s.received p k).fxCommand p k).port p).ret 0
            (Tab.get 0 (((s.received p k).fxCommand p k).port p).ret 0 - 1) }
      else (s.received p k).fxCommand p k) := by
  show execCommand p s = _
  unfold execCommand
  rw [fxFenced_next next, owns, Bool.true_and, free, if_neg (by decide), fxRing_owned next _ owns]
  rfl

theorem command_unasked (unasked : s.fxExpects p k = false) (length : k.payload.length = 128) (clear : s.fxClear p 1) :
    Completes (.command p) s (fun t =>
      t.sent = s.sent ++ [s.fxFlit p { FxPkt.blank with type := 0x25, ring := k.ring, seq := k.seq, code := 5 } 0 1] ∧
      t.eng = s.eng ∧ (t.port p).rx = (s.port p).rx.erase k) := by
  have port := port_received s p k
  have link := sameLink_received s p k
  have back := returns_taken next clear (by rw [length]; rfl)
  rw [← port] at back
  have unasked' : (s.received p k).fxExpects p k = false :=
    (fxExpects_congr (counted_received s p k) (by rw [port, port_taken]) (by rw [port, port_taken])).trans unasked
  obtain ⟨u, run, link, back, rx, eng⟩ : ∃ u, exec (.command p) s = .next (u.fxNotice p k.ring k.seq 5) ∧ SameLink s u p ∧
      (u.port p).Returns 0 1 ∧ (u.port p).rx = (s.port p).rx.erase k ∧ u.eng = s.eng := by
    rw [exec_command_next next owns (by rw [unasked]; rfl), unasked', if_pos (by rfl)]
    split
    next => exact ⟨_, rfl, link, back, by rw [port, rx_taken], eng_received s p k⟩
    next =>
      refine ⟨_, rfl, sameLink_setPort link rfl rfl rfl rfl rfl rfl rfl, returns_setPort back rfl rfl, ?_, eng_received s p k⟩
      rw [State.port_setPort_same]
      dsimp only
      rw [port, rx_taken]
  refine completes_of_next run ⟨sent_fxNotice link clear back, ?_, ?_⟩
  · rw [eng_fxNotice, eng]
  · rw [rx_fxNotice, rx]

variable (asked : s.fxExpects p k = true) (open' : s.ringFenced k.ring = false)
include asked open'

theorem exec_command_asked : exec (.command p) s = .next (
    if (((s.received p k).fxCommand p k).port p).waiting.isSome then
      ((s.received p k).fxCommand p k).setPort p { ((s.received p k).fxCommand p k).port p with
        ret := Tab.put 0 (((s.received p k).fxCommand p k).port p).ret 0
          (Tab.get 0 (((s.received p k).fxCommand p k).port p).ret 0 - 1) }
    else (s.received p k).fxCommand p k) := by
  have port := port_received s p k
  have asked' : (s.received p k).fxExpects p k = true :=
    (fxExpects_congr (counted_received s p k) (by rw [port, port_taken]) (by rw [port, port_taken])).trans asked
  rw [exec_command_next next owns (by rw [open', Bool.and_false]), asked', if_neg (by decide)]

/-- A COMMAND whose descriptor starts at once. -/
theorem command_taken {g : List FxStage} (taken : Taken (s.received p k) p k g ((s.received p k).fxCommand p k)) :
    Completes (.command p) s (fun t =>
      t.desc k.ring k.seq ≠ none ∧ (t.port p).rx = (s.port p).rx.erase k ∧ (t.port p).stages = g ∧
      Tab.get (0, 0) (t.port p).want k.ring = (s.port p).onward k.ring ∧
      t.rd (Reg.RING_HEAD k.ring) F.RING_HEAD_SQ_HEAD = (k.seq + 1) % 2 ^ 32) := by
  have ⟨_, _, free⟩ := next
  have idle : (s.port p).waiting = none := free.resolve_left (fun h => h rfl)
  obtain ⟨desc, rx, waiting, stages, want, head⟩ := taken
  have before := (counted_received s p k).rd F.RING_HEAD_SQ_HEAD (o := Reg.RING_HEAD k.ring)
    (by simp only [Reg.RING_HEAD]; omega)
  rw [port_received, port_taken] at rx waiting want
  refine completes_of_next (exec_command_asked next owns asked open') ?_
  rw [if_neg (by rw [waiting, idle]; decide)]
  exact ⟨desc, rx, stages, want, by rw [head, before, head_asked asked]⟩

theorem command_unstaged (bare : descFault k.payload true ≠ none ∨ stagedBytes k.payload = (0, 0)) :
    Completes (.command p) s (fun t =>
      t.desc k.ring k.seq ≠ none ∧ (t.port p).rx = (s.port p).rx.erase k ∧
      Tab.get (0, 0) (t.port p).want k.ring = (s.port p).onward k.ring ∧
      t.rd (Reg.RING_HEAD k.ring) F.RING_HEAD_SQ_HEAD = (k.seq + 1) % 2 ^ 32) := by
  obtain ⟨t, run, desc, rx, -, want, head⟩ := command_taken next owns asked open' (fxCommand_unstaged bare)
  exact ⟨t, run, desc, rx, want, head⟩

/-- A COMMAND whose data fit reserves the lowest place that holds them (08 R247). -/
theorem command_reserves {i o a : Nat} (h : Staged s p k i o)
    (place : fitStage (s.port p).stages (s.fxRegion p).2 (i + o) = some a) : Completes (.command p) s (fun t =>
      t.desc k.ring k.seq ≠ none ∧ (t.port p).stages = (s.port p).stages ++ [⟨k.ring, k.seq, a, i, o, false⟩] ∧
      t.rd (Reg.RING_HEAD k.ring) F.RING_HEAD_SQ_HEAD = (k.seq + 1) % 2 ^ 32) := by
  have stages : ((s.received p k).port p).stages = (s.port p).stages := by rw [port_received, port_taken]
  have starts := fxCommand_reserves (staged_received h) (a := a) (by rw [stages, fxRegion_received, place])
  rw [stages] at starts
  obtain ⟨t, run, desc, -, stages', -, head⟩ := command_taken next owns asked open' starts
  exact ⟨t, run, desc, stages', head⟩

/-- A COMMAND whose data do not fit waits, its credit held back (08 R247). -/
theorem command_waits {i o : Nat} (h : Staged s p k i o) (full : fitStage (s.port p).stages (s.fxRegion p).2 (i + o) = none) :
    Completes (.command p) s (fun t =>
      (t.port p).waiting = some k ∧ t.eng = s.eng ∧ (t.port p).stages = (s.port p).stages) := by
  have stages : ((s.received p k).port p).stages = (s.port p).stages := by rw [port_received, port_taken]
  have waits := fxCommand_waits (staged_received h) (by rw [stages, fxRegion_received, full])
  refine completes_of_next (exec_command_asked next owns asked open') ?_
  generalize (s.received p k).fxCommand p k = t at waits
  have waiting : (t.port p).waiting = some k := by rw [waits, State.port_setPort_same]
  rw [if_pos (by rw [waiting]; rfl), State.port_setPort_same]
  refine ⟨waiting, ?_, ?_⟩
  · show t.eng = s.eng
    rw [waits]
    exact eng_received s p k
  · show (t.port p).stages = (s.port p).stages
    rw [waits, State.port_setPort_same]
    exact stages

end

/-- A FENCE that is open holds the COMMANDs of its ring pair (06 R208). -/
theorem command_fenced {s : State} {p : Fin 4} (fenced : s.fxFenced p = true) : Completes (.command p) s (fun t => t = s) :=
  completes_of_next (if_pos fenced |> congrArg _ : execCommand p s = .next s) rfl

/-! ### STAGING_RESERVED (08 R247) -/

/-- A port's COMMAND that waited for staging waits no more. -/
def State.unheld (s : State) (p : Nat) : State := s.setPort p { s.port p with waiting := none }

theorem port_unheld (s : State) (p : Nat) : (s.unheld p).port p = { s.port p with waiting := none } := State.port_setPort_same ..

theorem stagingReserved_reserves {s : State} {p : Fin 4} {k : FxPkt} {i o a : Nat} (held : (s.port p).waiting = some k)
    (owns : s.fxOwns p k.ring = true) (asked : s.fxExpects p k = true) (h : Staged s p k i o)
    (place : fitStage (s.port p).stages (s.fxRegion p).2 (i + o) = some a) : Completes (.stagingReserved p) s (fun t =>
      (t.port p).waiting = none ∧ (t.port p).stages = (s.port p).stages ++ [⟨k.ring, k.seq, a, i, o, false⟩] ∧
      t.desc k.ring k.seq ≠ none) := by
  have port := port_unheld s p
  have asked' : (s.unheld p).fxExpects p k = true :=
    (fxExpects_congr (counted_setPort s p _) (by rw [State.port_setPort_same]) (by rw [State.port_setPort_same])).trans asked
  have stages : ((s.unheld p).port p).stages = (s.port p).stages := by rw [port]
  have staged := staged_congr h (t := s.unheld p) rfl (by rw [port]) (by rw [port])
  obtain ⟨desc, -, waiting, stages', -, -⟩ := fxCommand_reserves staged (a := a) (by rw [stages]; exact place)
  have waiting' : (((s.unheld p).fxCommand p k).port p).waiting = none := by rw [waiting, port]
  rw [stages] at stages'
  have run : exec (.stagingReserved p) s = .next (((s.unheld p).fxCommand p k).fxReturn p 0 1) := by
    show execStagingReserved p s = _
    unfold execStagingReserved
    rw [held]
    show Host.Outcome.next (if (!s.fxOwns p k.ring) = true then _ else if (!(s.unheld p).fxExpects p k) = true then _
      else if (((s.unheld p).fxCommand p k).port p).waiting.isSome = true then s else _) = _
    rw [owns, if_neg (by decide), asked', if_neg (by decide), if_neg (by rw [waiting']; decide)]
    rfl
  refine completes_of_next run ?_
  generalize (s.unheld p).fxCommand p k = t at waiting' stages' desc
  unfold State.fxReturn
  dsimp only
  rw [State.port_setPort_same]
  exact ⟨waiting', stages', desc⟩

end Sys2Proof.Machine
end

section
/-! PROOFS. DATA_IN of a Finxis port (08 R247), and RESET that a port does not allow (R243). -/

namespace Sys2Proof.Machine
open Sys2Proof
-- One proof after another: elaborated side by side, the proofs of the one text pass the memory that the check allows.
set_option Elab.async false

/-! ### DATA_IN (08 R247) -/

section
variable {s : State} {p : Fin 4} {k : FxPkt} {d : Desc} {g : FxStage}

/-- A DATA_IN in order that is stored counts its bytes as input. -/
theorem dataInTo_stored {u : State} (order : k.offset = d.inp.length) (within : d.inp.length + k.payload.length ≤ d.wantIn)
    (last : bitAt k.flags 0 = false ∨ d.inp.length + k.payload.length = d.wantIn)
    (stored : (s.pmcFx p 2 k.payload.length).stageWrite p (g.base + k.offset) k.payload = (.ok, u)) :
    s.dataInTo p k d g = u.setDesc { d with inp := d.inp ++ k.payload } := by
  have good : ¬ (k.offset != d.inp.length || decide (d.wantIn < d.inp.length + k.payload.length) ||
      (bitAt k.flags 0 && d.inp.length + k.payload.length != d.wantIn)) = true := by
    rcases last with last | last <;> simp [order, last, within]
  unfold State.dataInTo
  dsimp only
  rw [if_neg good, stored]
  exact if_pos rfl

/-- One out of order, or past what is wanted, is not. -/
theorem dataInTo_bad (bad : k.offset ≠ d.inp.length ∨ d.wantIn < d.inp.length + k.payload.length) :
    s.dataInTo p k d g = s.dataInBad p k := by
  have refused : (k.offset != d.inp.length || decide (d.wantIn < d.inp.length + k.payload.length) ||
      (bitAt k.flags 0 && d.inp.length + k.payload.length != d.wantIn)) = true := by
    rcases bad with bad | bad <;> simp [bad]
  unfold State.dataInTo
  dsimp only
  rw [if_pos refused]

/-- A descriptor has failed, with the input that it had. -/
def FailedWith (inp : List Byte) (e : Option Desc) : Prop := e.any (fun x => x.fail.isSome && x.inp == inp) = true

theorem failedWith_some {inp : List Byte} {e : Desc} (fail : e.fail.isSome = true) (same : e.inp = inp) :
    FailedWith inp (some e) := by
  simp [FailedWith, fail, same]

/-- A DATA_IN out of order sends a notice, and fails a descriptor that has not ended. -/
theorem dataInBad_fails (found : s.desc k.ring k.seq = some d) (open' : d.done = false) :
    (s.dataInBad p k).mem = s.mem ∧ FailedWith d.inp ((s.dataInBad p k).desc k.ring k.seq) ∧
      (s.dataInBad p k).wires = s.wires ++ [293 + p.val] := by
  unfold State.dataInBad
  have found' : (s.fxNotice p k.ring k.seq 6).desc k.ring k.seq = some d := (desc_congr (eng_fxNotice ..) _ _).trans found
  have mem : (s.fxNotice p k.ring k.seq 6).mem = s.mem := by simp only [kept @State.fxNotice_fr]
  have wires : (s.fxNotice p k.ring k.seq 6).wires = s.wires ++ [293 + p.val] := by
    unfold State.fxNotice State.raise
    dsimp only
    simp only [kept @State.fxQueue_fr]
  generalize s.fxNotice p k.ring k.seq 6 = n at found' mem wires
  dsimp only
  rw [found']
  dsimp only
  have name := name_of_desc found
  have drawn : n.draw.2.desc k.ring k.seq = some d := found'
  generalize illegal 5 (n.draw.1 % 2 ^ 32) = f
  split
  next closed =>
    have failed : d.fail.isSome = true := by simpa [open'] using closed
    exact ⟨mem, by rw [found']; exact failedWith_some failed rfl, wires⟩
  next open'' =>
    have whole : d.fail = none := by simpa [open'] using open''
    split
    · exact ⟨mem, by rw [desc_fixRun, drawn]; exact failedWith_some rfl rfl, wires⟩
    · split
      · exact ⟨mem, by rw [desc_endDesc drawn d name whole]; exact failedWith_some rfl rfl, wires⟩
      · exact ⟨mem, by rw [desc_setDesc_name drawn { d with fail := some f } name]; exact failedWith_some rfl rfl, wires⟩

variable (next : s.fxNext p 2 k) (owns : s.fxOwns p k.ring = true) (found : s.desc k.ring k.seq = some d)
  (staged : (s.port p).stage k.ring k.seq = some g)
include next owns found staged

theorem exec_dataIn : exec (.dataIn p) s = .next ((s.taken p k).dataInTo p k d g) := by
  have found' : (s.taken p k).desc k.ring k.seq = some d := (desc_congr (eng_taken s p k) _ _).trans found
  have staged' : ((s.taken p k).port p).stage k.ring k.seq = some g := by rw [port_taken]; exact staged
  show execDataIn p s = _
  unfold execDataIn
  rw [fxRing_owned next _ owns]
  unfold State.dataInMsg
  rw [found', staged']

theorem dataIn_stored {u : State} (order : k.offset = d.inp.length) (within : d.inp.length + k.payload.length ≤ d.wantIn)
    (last : bitAt k.flags 0 = false ∨ d.inp.length + k.payload.length = d.wantIn)
    (stored : ((s.taken p k).pmcFx p 2 k.payload.length).stageWrite p (g.base + k.offset) k.payload = (.ok, u)) :
    Completes (.dataIn p) s (fun t => t.mem = u.mem ∧ t.desc k.ring k.seq = some { d with inp := d.inp ++ k.payload }) := by
  have name := name_of_desc found
  have eng : u.eng = s.eng := by
    have kept' := congrArg (fun r => r.2.eng) stored
    simp only [kept @State.stageWrite_fr, kept @State.pmcFx_fr, eng_taken] at kept'
    exact kept'.symm
  refine completes_of_next (exec_dataIn next owns found staged) ?_
  rw [dataInTo_stored order within last stored]
  exact ⟨rfl, desc_setDesc_name ((desc_congr eng _ _).trans found) { d with inp := d.inp ++ k.payload } name⟩

theorem dataIn_bad (open' : d.done = false) (bad : k.offset ≠ d.inp.length ∨ d.wantIn < d.inp.length + k.payload.length) :
    Completes (.dataIn p) s (fun t =>
      t.mem = s.mem ∧ FailedWith d.inp (t.desc k.ring k.seq) ∧ t.wires = s.wires ++ [293 + p.val]) := by
  refine completes_of_next (exec_dataIn next owns found staged) ?_
  rw [dataInTo_bad bad]
  exact dataInBad_fails ((desc_congr (eng_taken s p k) _ _).trans found) open'

end

/-! ### FX_DOORBELL and FETCH_RESEND (08 R246, R249) -/

theorem fxDoorbell_withdrawn {s : State} {p : Fin 4} {k : FxPkt} (next : s.fxNext p 3 k) (owns : s.fxOwns p k.ring = true)
    (none' : ((s.port p).cqWin k.ring).all (fun e => e.2.released) = true) (length : k.payload.length = 8)
    (clear : s.fxClear p 1) : Completes (.fxDoorbell p) s (fun t =>
      t.sent = s.sent ++ [s.fxFlit p { FxPkt.blank with type := 0x25, ring := k.ring, seq := k.seq, code := 4 } 0 1] ∧
      t.eng = s.eng ∧ (t.port p).rx = (s.port p).rx.erase k) := by
  refine completes_of_next (exec_fxDoorbell_withdrawn next owns none') ⟨?_, ?_, ?_⟩
  · exact sent_fxNotice (sameLink_taken s p k) clear (returns_taken next clear (by rw [length]; rfl))
  · rw [eng_fxNotice, eng_taken]
  · rw [rx_fxNotice, rx_taken]

theorem fetchResend_due {s : State} {p : Fin 4} {r q w : Nat} {l : List Nat} (due : (s.port p).again = r :: l)
    (asked : Tab.get (0, 0) (s.port p).want r = (q, w)) (open' : w ≠ 0) (fetches : s.fxFetches p r = true)
    (clear : s.fxClear p 0) : Completes (.fetchResend p) s (fun t =>
      (t.port p).again = l ∧ t.sent = s.sent ++ [s.fxFlit p { FxPkt.blank with
        type := 0x11, ring := r, seq := s.rd (Reg.RING_HEAD r) F.RING_HEAD_SQ_HEAD, count := w } 0 0]) := by
  have ⟨_, _, _, _, none', _⟩ := clear
  refine completes_of_next (exec_fetchResend_due due asked open' fetches) ⟨?_, ?_⟩
  · refine (congrArg (fun x => x.2.2) (inbox_fxQueue _ p _)).trans ?_
    rw [State.port_setPort_same]
    rfl
  · exact sent_answer (sameLink_setPort (sameLink_refl s p) rfl rfl rfl rfl rfl rfl rfl) clear
      (returns_setPort (returns_none none') rfl rfl) rfl

/-! ### RESET that is not allowed (08 R243) -/

theorem finxisReset_refused {s : State} {p : Fin 4} {k : FxPkt} {pulse : Bool} (next : s.fxNext p 0x32 k)
    (off : s.on (Reg.FX_CFG p) F.FX_CFG_RESET_EN = false) (clear : s.fxClear p 1) (empty : k.payload = []) :
    Completes (.finxisReset p pulse) s (fun t =>
      t.sent = s.sent ++ [s.fxFlit p { FxPkt.blank with type := 0x25, ring := k.ring, seq := k.seq, code := 8 } 2 1] ∧
      t.mode = s.mode) := by
  have off' : (s.taken p k).on (Reg.FX_CFG p) F.FX_CFG_RESET_EN = false := off
  have run : exec (.finxisReset p pulse) s = .next ((s.taken p k).fxNotice p k.ring k.seq 8) := by
    show execFinxisReset p pulse s = _
    unfold execFinxisReset
    rw [fxAct_next next, off']
    exact congrArg _ (if_pos rfl)
  refine completes_of_next run ⟨?_, ?_⟩
  · exact sent_fxNotice (sameLink_taken s p k) clear (returns_taken next clear (by rw [empty]; rfl))
  · exact (mode_fxNotice ..).trans (mode_congr (regs_taken s p k))

end Sys2Proof.Machine
end

section
/-! PROOFS. RESET of a Finxis port (08 R243): the warm reset that it asks for, its cause and its port (15 R376, 16 R395). -/

namespace Sys2Proof.Machine
open Sys2Proof
-- One proof after another: elaborated side by side, the proofs of the one text pass the memory that the check allows.
set_option Elab.async false

/-! ### The register of causes through a warm reset -/

/-- With no home in use, holding a hart in reset changes no register, and no home is in use after. -/
theorem regs_holdHart {s : State} (none' : s.homes = []) (h : Nat) : (s.holdHart h).regs = s.regs ∧ (s.holdHart h).homes = [] := by
  have released (u : State) (empty : u.homes = []) : u.dropRange h = u := by
    unfold State.dropRange
    rw [empty]
    rfl
  unfold State.holdHart State.freshHart
  dsimp only
  rw [released ((s.setCluster _ _).clearFiles h) none']
  exact ⟨rfl, none'⟩

theorem regs_holdHarts {s : State} (none' : s.homes = []) (n : Nat) : (s.forAll n (fun h s => s.holdHart h)).regs = s.regs :=
  (List.foldlRecOn (motive := fun u : State => u.regs = s.regs ∧ u.homes = []) (List.range n) _ ⟨rfl, none'⟩
    fun _ ⟨regs, homes⟩ h _ => ⟨(regs_holdHart homes h).1.trans regs, (regs_holdHart homes h).2⟩).1

/-- The units' reset changes no register; the Finxis ports are then as after reset. -/
theorem regs_resetUnits (s : State) : s.resetUnits.regs = s.regs := by
  unfold State.resetUnits State.resetFabric
  exact (regs_holdHarts rfl 216).trans rfl

theorem fx_resetUnits (s : State) : s.resetUnits.fx = [] := by
  unfold State.resetUnits State.resetFabric
  refine (State.forAll_fx _ _ _ fun h u => ?_).trans rfl
  simp only [kept @State.holdHart_fr]

/-- The CTU writes its status registers alone. -/
theorem rdW_ctuResult_other (s : State) {o : Nat} (h : ∀ w, o ≠ Reg.CTU_STATUS w) (w : World) (implicit : Bool) (r : Nat) :
    (s.ctuResult w implicit r).rdW o = s.rdW o := by
  unfold State.ctuResult
  dsimp only
  have status := rdW_wrs_other s [(F.CTU_STATUS_RESULT, r), (F.CTU_STATUS_IMPLICIT, b2n implicit)] (h (worldBit w))
  split
  · exact status
  · exact status

theorem rdW_ctuReset_other (s : State) {o : Nat} (h : ∀ w, o ≠ Reg.CTU_STATUS w) (reset : Nat → Bool) :
    (s.ctuReset reset).rdW o = s.rdW o := by
  have step (u : State) (c : Prop) [Decidable c] (w : World) :
      (if c then u.ctuResult w false 7 else u).rdW o = u.rdW o := by
    split
    · exact rdW_ctuResult_other u h w _ _
    · rfl
  have active (u : State) (a : Option Txn) : (a.elim u (fun t => u.ctuResult t.world t.implicit 7)).rdW o = u.rdW o := by
    cases a with
    | none => rfl
    | some t =>
      rw [Option.elim_some]
      exact rdW_ctuResult_other u h t.world t.implicit 7
  have waiting (u : State) (l : List Txn) :
      (l.foldl (fun u t => u.ctuResult t.world t.implicit 7) u).rdW o = u.rdW o := by
    induction l generalizing u with
    | nil => rfl
    | cons t l ih => rw [List.foldl_cons, ih, rdW_ctuResult_other u h]
  unfold State.ctuReset
  extract_lets c live s₁ s₂ s₃ s₄
  have checked : s₁.rdW o = s.rdW o := by
    unfold s₁
    split
    · rfl
    · exact active s c.active
  have ended : s₄.rdW o = s.rdW o := (step s₃ _ .s).trans ((step s₂ _ .n).trans ((waiting s₁ c.waiting).trans checked))
  clear_value live s₄
  cases live with
  | none => exact (rdW_setCtu_other s₄ _ (h 0) (h 1)).trans ended
  | some t =>
    dsimp only
    exact (rdW_setCtu_other s₄ _ (h 0) (h 1)).trans ended

theorem rdW_hartCause_other (s : State) {o h : Nat} (apart : o ≠ Reg.RCC_HART_CAUSE h) (bit : Nat) :
    (s.hartCause h bit).rdW o = s.rdW o := rdW_wrW_other s _ apart

theorem cause_ne_hartCause (h : Nat) : Reg.RCC_RST_CAUSE ≠ Reg.RCC_HART_CAUSE h := by
  simp only [Reg.RCC_RST_CAUSE, Reg.RCC_HART_CAUSE]; omega

theorem cause_ne_ctuStatus (w : Nat) : Reg.RCC_RST_CAUSE ≠ Reg.CTU_STATUS w := by
  simp only [Reg.RCC_RST_CAUSE, Reg.CTU_STATUS]; omega

/-- How far a reset reached stands in a field of its own. -/
theorem rd_recordReach (s : State) (r : Nat) {f : Fld} (apart : f.hi < 44 ∨ 47 < f.lo) :
    (s.recordReach r).rd Reg.RCC_RST_CAUSE f = s.rd Reg.RCC_RST_CAUSE f := by
  have field (v : Nat) : (s.wr Reg.RCC_RST_CAUSE F.RCC_RST_CAUSE_REACH v).rd Reg.RCC_RST_CAUSE f = s.rd Reg.RCC_RST_CAUSE f :=
    rd_wr_apart s _ _ _ v (by decide) apart
  unfold State.recordReach
  dsimp only
  split <;> exact field _

/-! ### The mode that a reset leads to -/

theorem regs_arriveMode (s : State) (m cause src : Nat) :
    (s.arriveMode m cause src).regs = (s.wrs Reg.PKG_MODE [(F.PKG_MODE_SRC, src), (F.PKG_MODE_CAUSE, cause),
      (F.PKG_MODE_MOVING, 0), (F.PKG_MODE_TARGET, m), (F.PKG_MODE_CURRENT, m)]).regs := by
  have lifted (u : State) (c : Prop) [Decidable c] (f : Pkg → Pkg) : (if c then u.pk f else u).regs = u.regs := by
    split <;> rfl
  have logged (u : State) (b : List Byte) : (if u.pmcRuns then u.logNow 2 b else u).regs = u.regs := by
    split
    · exact regs_logNow u 2 b
    · rfl
  unfold State.arriveMode
  dsimp only
  rw [logged, lifted]

theorem mode_arriveMode (s : State) {m : Nat} (code : m < 16) (cause src : Nat) : (s.arriveMode m cause src).mode = m := by
  rw [mode_congr (regs_arriveMode s m cause src)]
  exact (rd_wr_same _ Reg.PKG_MODE F.PKG_MODE_CURRENT m (by decide) (by decide)).trans (Nat.mod_eq_of_lt code)

theorem rdW_arriveMode_other (s : State) {o : Nat} (h : o ≠ Reg.PKG_MODE) (m cause src : Nat) :
    (s.arriveMode m cause src).rdW o = s.rdW o := (rdW_congr (regs_arriveMode ..) o).trans (rdW_wrs_other s _ h)

/-! ### The warm reset -/

/-- The units and registers of the main supplies at reset, as a warm reset leaves them. -/
theorem units_at_reset (s : State) :
    ((s.resetRegs warmResets).resetUnits.resetPmc.dropOrders).fx = [] ∧
      ((s.resetRegs warmResets).resetUnits.resetPmc.dropOrders).rdW Reg.RCC_RST_CAUSE = s.rdW Reg.RCC_RST_CAUSE := by
  have kept' : (s.resetRegs warmResets).rdW Reg.RCC_RST_CAUSE = s.rdW Reg.RCC_RST_CAUSE :=
    (rdW_keep s (fun o => !warmResets o) _).trans (if_pos (by decide))
  have regs (u : State) : u.resetUnits.resetPmc.dropOrders.regs = u.regs := by
    simp only [kept @State.dropOrders_fr, kept @State.resetPmc_fr, regs_resetUnits]
  exact ⟨by simp only [kept @State.dropOrders_fr, kept @State.resetPmc_fr, fx_resetUnits], (rdW_congr (regs _) _).trans kept'⟩

/-- Each hart's cause of reset is recorded in a register of its own. -/
theorem causes_recorded (s : State) : (s.forAll 216 (fun h s => s.hartCause h 1)).fx = s.fx ∧
    (s.forAll 216 (fun h s => s.hartCause h 1)).rdW Reg.RCC_RST_CAUSE = s.rdW Reg.RCC_RST_CAUSE :=
  List.foldlRecOn (motive := fun u : State => u.fx = s.fx ∧ u.rdW Reg.RCC_RST_CAUSE = s.rdW Reg.RCC_RST_CAUSE)
    (List.range 216) _ ⟨rfl, rfl⟩ fun u ⟨fx, cause⟩ h _ =>
      ⟨(show (u.hartCause h 1).fx = u.fx by simp only [kept @State.hartCause_fr]).trans fx,
        (rdW_hartCause_other u (cause_ne_hartCause h) 1).trans cause⟩

/-- A warm reset leads to DAWN with the Finxis ports at reset, and keeps what caused it. -/
theorem warmReset_arrives (s : State) (cause src : Nat) : ∃ u : State,
    s.warmReset cause src = u.arriveMode MD.dawn cause src ∧ u.fx = [] ∧
    ∀ f : Fld, f.hi < 44 ∨ 47 < f.lo → u.rd Reg.RCC_RST_CAUSE f = s.rd Reg.RCC_RST_CAUSE f := by
  unfold State.warmReset
  extract_lets ready s₁ s₂ s₃ s₄ s₅
  have cause₁ : s₁.rdW Reg.RCC_RST_CAUSE = s.rdW Reg.RCC_RST_CAUSE := rdW_ctuReset_other s cause_ne_ctuStatus warmResets
  have units : s₂.fx = [] ∧ s₂.rdW Reg.RCC_RST_CAUSE = s₁.rdW Reg.RCC_RST_CAUSE := units_at_reset s₁
  have causes : s₃.fx = s₂.fx ∧ s₃.rdW Reg.RCC_RST_CAUSE = s₂.rdW Reg.RCC_RST_CAUSE := causes_recorded s₂
  have fx₄ : s₄.fx = s₃.fx := by simp only [s₄, kept @State.recordReach_fr]
  have cause₄ (f : Fld) (apart : f.hi < 44 ∨ 47 < f.lo) : s₄.rd Reg.RCC_RST_CAUSE f = s₃.rd Reg.RCC_RST_CAUSE f :=
    rd_recordReach s₃ 3 apart
  clear_value s₁ s₂ s₃ s₄
  obtain ⟨fx₂, cause₂⟩ := units
  obtain ⟨fx₃, cause₃⟩ := causes
  refine ⟨s₅, rfl, ?_, fun f apart => ?_⟩
  · exact fx₄.trans (fx₃.trans fx₂)
  · exact (cause₄ f apart).trans (by rw [State.rd, State.rd, cause₃, cause₂, cause₁])

/-! ### RESET (08 R243) -/

/-- A reset that the warm domain takes at once keeps its source (15 R376). -/
theorem warmSource_now {s : State} (mode : s.mode ≠ MD.dark) (free : s.pkg.rstWait = none) (f : Fld) :
    ∃ u : State, u.regs = (s.wr Reg.RCC_RST_CAUSE f 1).regs ∧ s.warmSource f false = u.warmReset 0xB 0 := by
  unfold State.warmSource
  rw [if_neg mode]
  refine ⟨(s.wr Reg.RCC_RST_CAUSE f 1).pk (fun p => { p with mainEn := true, forceSiding := false }), rfl, ?_⟩
  have free' : ((s.wr Reg.RCC_RST_CAUSE f 1).pk (fun p => { p with mainEn := true, forceSiding := false })).pkg.rstWait = none :=
    free
  generalize (s.wr Reg.RCC_RST_CAUSE f 1).pk _ = u at free'
  unfold State.assertRst
  rw [free', if_neg (by decide)]

theorem exec_finxisReset_allowed {s : State} {p : Fin 4} {k : FxPkt} (next : s.fxNext p 0x32 k)
    (on' : s.on (Reg.FX_CFG p) F.FX_CFG_RESET_EN = true) : exec (.finxisReset p false) s =
      .next (((s.taken p k).wr Reg.RCC_RST_CAUSE F.RCC_RST_CAUSE_FX_PORT p).warmSource F.RCC_RST_CAUSE_FINXIS false) := by
  have on'' : (s.taken p k).on (Reg.FX_CFG p) F.FX_CFG_RESET_EN = true := on'
  show execFinxisReset p false s = _
  unfold execFinxisReset
  rw [fxAct_next next, on'', if_neg (by decide)]

theorem finxisReset_warm {s : State} {p : Fin 4} {k : FxPkt} (next : s.fxNext p 0x32 k)
    (on' : s.on (Reg.FX_CFG p) F.FX_CFG_RESET_EN = true) (mode : s.mode ≠ MD.dark) (free : s.pkg.rstWait = none) :
    Completes (.finxisReset p false) s (fun t =>
      t.mode = MD.dawn ∧ t.fx = [] ∧ t.rd Reg.RCC_RST_CAUSE F.RCC_RST_CAUSE_FINXIS = 1 ∧
      t.rd Reg.RCC_RST_CAUSE F.RCC_RST_CAUSE_FX_PORT = p.val) := by
  have run := exec_finxisReset_allowed next on'
  have mode' : (s.taken p k).mode ≠ MD.dark := mode
  have free' : (s.taken p k).pkg.rstWait = none := free
  generalize s.taken p k = w at run mode' free'
  obtain ⟨u, regs, warm⟩ := warmSource_now (s := w.wr Reg.RCC_RST_CAUSE F.RCC_RST_CAUSE_FX_PORT p)
    (by rw [State.mode, rd_wr_other _ _ _ _ (by decide)]; exact mode') free' F.RCC_RST_CAUSE_FINXIS
  obtain ⟨v, arrives, fx, same⟩ := warmReset_arrives u 0xB 0
  rw [warm, arrives] at run
  have cause (f : Fld) (apart : f.hi < 44 ∨ 47 < f.lo) :
      (v.arriveMode MD.dawn 0xB 0).rd Reg.RCC_RST_CAUSE f = u.rd Reg.RCC_RST_CAUSE f := by
    rw [← same f apart, State.rd, State.rd, rdW_arriveMode_other _ (by decide)]
  refine completes_of_next run ⟨mode_arriveMode v (by decide) .., ?_, ?_, ?_⟩
  · simp only [kept @State.arriveMode_fr, fx]
  · rw [cause _ (by decide), rd_congr regs, rd_wr_same _ _ _ _ (by decide) (by decide)]
    decide
  · rw [cause _ (by decide), rd_congr regs, rd_wr_apart _ _ _ _ _ (by decide) (by decide),
      rd_wr_same _ _ _ _ (by decide) (by decide)]
    exact Nat.mod_eq_of_lt p.isLt

end Sys2Proof.Machine
end

section
/-! PROOFS. Every packet that a Finxis port receives completes (08 R243 to R250). -/

namespace Sys2Proof.Machine
open Sys2Proof
-- One proof after another: elaborated side by side, the proofs of the one text pass the memory that the check allows.
set_option Elab.async false

/-- What makes a WINDOW_REG well formed is that its kind and size agree. -/
theorem windowOk_output {s : State} {k : FxPkt} (kind : leAt k.payload 0 1 = 2) (whole : leAt k.payload 4 4 % 128 = 0)
    (least : 128 ≤ leAt k.payload 4 4) (most : leAt k.payload 4 4 ≤ 0x1000000) : k.windowOk s = true := by
  simp [FxPkt.windowOk, kind, whole, least, most]

theorem windowOk_completion {s : State} {k : FxPkt} (kind : leAt k.payload 0 1 = 1)
    (size : leAt k.payload 4 4 = 64 * 2 ^ s.rd (Reg.RING_CFG k.ring) F.RING_CFG_CQ_LOG2) : k.windowOk s = true := by
  simp [FxPkt.windowOk, kind, size]

theorem windowOk_neither {s : State} {k : FxPkt} (kind : leAt k.payload 0 1 ≠ 1) (bad : leAt k.payload 0 1 ≠ 2 ∨
    leAt k.payload 4 4 % 128 ≠ 0 ∨ leAt k.payload 4 4 < 128 ∨ 0x1000000 < leAt k.payload 4 4) : k.windowOk s = false := by
  rcases bad with bad | bad | bad | bad <;> simp [FxPkt.windowOk, kind, bad]

theorem completes_mono {c : Instr} {s : State} {P Q : State → Prop} (h : Completes c s P) (sub : ∀ t, P t → Q t) :
    Completes c s Q := by
  obtain ⟨t, run, holds⟩ := h
  exact ⟨t, run, sub t holds⟩

theorem completes_windowRefused {c : Instr} {s : State} {p code : Nat} {k : FxPkt}
    (h : Completes c s (WindowRefused s p k code)) : Completes c s (fun t => (t.port p).wins = (s.port p).wins ∧
      t.sent = s.sent ++
        [s.fxFlit p { FxPkt.blank with type := 0x23, ring := k.ring, window := k.window, code := code } 0 1]) :=
  completes_mono h fun _ ⟨wins, sent⟩ => ⟨wins, sent⟩

/-- Settles O43: each packet is taken from its lane and has its effect, by the lemma of its kind. -/
theorem finxisPacketsComplete : Obligations.FinxisPacketsComplete := by
  unfold Obligations.FinxisPacketsComplete
  refine ⟨?unstaged, ?reserves, ?waits, ?fenced, ?unasked, ?foreign, ?staging, ?stored, ?bad, ?doorbell, ?withdrawn, ?resend,
    ?output, ?completion, ?malformed, ?known, ?second, ?release, ?unknown, ?ack, ?mgmt, ?reset, ?refused⟩
  case unstaged =>
    intro s p k q w next owns want asked open' bare _
    refine completes_mono (command_unstaged next owns asked open' bare)
      fun t ⟨desc, rx, want', head⟩ => ⟨desc, rx, ?_, head⟩
    rw [want', FxPort.onward, want]
  case reserves =>
    intro s p k i o a next owns asked open' whole staged some' fits window place _
    exact command_reserves next owns asked open' ⟨whole, staged, some', fits, window⟩ place
  case waits =>
    intro s p k i o next owns asked open' whole staged some' fits window full
    exact command_waits next owns asked open' ⟨whole, staged, some', fits, window⟩ full
  case fenced => exact fun s p fenced => command_fenced fenced
  case unasked => exact fun s p k next owns unasked length clear => command_unasked next owns unasked length clear
  case foreign => exact fun s p k next foreign length clear => command_foreign next foreign length clear
  case staging =>
    intro s p k i o a held owns asked whole staged some' fits window place _
    exact stagingReserved_reserves held owns asked ⟨whole, staged, some', fits, window⟩ place
  case stored =>
    intro s p k d g u next owns found staged order within last stored
    have ⟨_, type, _⟩ := next
    refine dataIn_stored next owns found staged order within last ?_
    rw [State.taken, type]
    exact stored
  case bad =>
    exact fun s p k d g next owns found staged open' bad => dataIn_bad next owns found staged open' bad
  case doorbell =>
    intro s p k id w next owns window used
    have ⟨_, type, _⟩ := next
    refine completes_of_next (exec_fxDoorbell_inUse next owns window used) ?_
    rw [State.taken, type]
    rfl
  case withdrawn => exact fun s p k next owns none' length clear => fxDoorbell_withdrawn next owns none' length clear
  case resend => exact fun s p r q w l due asked open' fetches clear => fetchResend_due due asked open' fetches clear
  case output =>
    intro s p k size next owns clear fresh kind rfl whole least most length
    refine completes_mono (windowReg_registered next owns clear length (windowOk_output kind whole least most) fresh (.inl kind))
      fun t ⟨win, sent⟩ => ⟨?_, sent⟩
    rw [win, kind]
  case completion =>
    intro s p k next owns clear fresh first kind size length
    refine completes_mono (windowReg_registered next owns clear length (windowOk_completion kind size) fresh (.inr first))
      fun t ⟨win, sent⟩ => ⟨?_, sent⟩
    rw [win, kind]
  case malformed =>
    intro s p k next owns clear kind bad length
    exact completes_windowRefused (windowReg_malformed next owns clear length (windowOk_neither kind bad))
  case known =>
    intro s p k next owns clear known kind whole least most length
    exact completes_windowRefused (windowReg_known next owns clear length (windowOk_output kind whole least most) known)
  case second =>
    intro s p k next owns clear fresh other kind size length
    exact completes_windowRefused (windowReg_second next owns clear length (windowOk_completion kind size) fresh kind other)
  case release => exact fun s p k w next window => windowRelease_registered next window
  case unknown =>
    intro s p k next absent empty clear
    exact completes_windowRefused (windowRelease_unknown next absent empty clear)
  case ack => exact fun s p id w only released idle clear => windowReleaseAck_idle only released idle clear
  case mgmt => exact fun s p k next runs known idle => mgmt_received next runs known idle
  case reset => exact fun s p k next allowed mode free => finxisReset_warm next allowed mode free
  case refused => exact fun s p k pulse next off clear empty => finxisReset_refused next off clear empty

end Sys2Proof.Machine
end

section
/-! PROOFS. The instructions of a data-mover channel (07 R224 to R230; O40). -/

namespace Sys2Proof.Machine
open Sys2Proof
-- One proof after another: elaborated side by side, the proofs of the one text pass the memory that the check allows.
set_option Elab.async false

/-! ### Coming to an instruction -/

section
variable {s u v : State} {n code : Nat} {i : DmIns} (here : s.channelAt n i u)
include here

theorem chan_of_channelAt : u.chan n = s.chan n := by
  obtain ⟨-, -, -, -, -, rfl⟩ := here
  exact chan_congr (dm_readPa _ _ _ _) n

theorem runs_of_channelAt : (s.chan n).prog.isSome = true ∧ (s.chan n).work = .none ∧ (s.chan n).ending = none := by
  have goes := here.1
  simp only [State.chanGoes, Bool.and_eq_true, beq_iff_eq, Option.isNone_iff_eq_none] at goes
  exact ⟨goes.1.1.2, goes.1.2, goes.2⟩

/-- A command whose opcode is that of the instruction does its work on the state after the read. -/
theorem dmRun_at {ops : Nat → Bool} {f : DmIns → State → State} (op : ops i.op = true) : s.dmRun n ops f = f i u := by
  obtain ⟨goes, -, ok, clean, rfl, rfl⟩ := here
  unfold State.dmRun
  dsimp only
  rw [if_neg (by simp [goes]), if_neg (by simp [ok]), if_neg (by simp [clean]), if_pos op]

/-- The instruction may end as soon as its status byte may be written, the program and its bad statuses as they were. -/
theorem mayEnd_of_channelAt (prog : (v.chan n).prog = (s.chan n).prog) (pc : (v.chan n).pc = (s.chan n).pc)
    (bad : (v.chan n).badAt = (s.chan n).badAt) (written : (v.statusWrite n code).1 = .ok) : v.mayEnd n code := by
  refine ⟨?_, ?_, written⟩
  · rw [prog]
    exact (runs_of_channelAt here).1
  · rw [bad, pc]
    exact here.2.1

theorem mayEnd_of_sameChan (same : v.chan n = s.chan n) (written : (v.statusWrite n code).1 = .ok) : v.mayEnd n code :=
  mayEnd_of_channelAt here (by rw [same]) (by rw [same]) (by rw [same]) written

theorem mayEnd_after_read (written : (u.statusWrite n code).1 = .ok) : u.mayEnd n code :=
  mayEnd_of_sameChan here (chan_of_channelAt here) written

end

theorem flags_half {i : DmIns} (h : i.flags ≤ 1) : (i.flags / 2 != 0) = false := by
  have : i.flags / 2 = 0 := by omega
  simp [this]

theorem opnd_zero_field {i : DmIns} (h : i.opnd = 0) (hi lo : Nat) : i.f hi lo = 0 := by simp [DmIns.f, bitsOf, h]

/-! ### What the end of an instruction leaves of its channel (07 R226) -/

section
variable {s : State} {n code : Nat} (may : s.mayEnd n code)
include may

theorem mem_dmStatus : (s.dmStatus n code).mem = (s.statusWrite n code).2.mem := by
  obtain ⟨v, bad, -, mem, eq⟩ := dmStatus_written may
  rw [eq]
  exact mem

theorem chan_dmStatus : ∃ bad, (s.dmStatus n code).chan n = { s.chan n with work := .none, badAt := bad } := by
  obtain ⟨v, bad, -, -, eq⟩ := dmStatus_written may
  exact ⟨bad, by rw [eq, State.chan_setChan_same]⟩

theorem prog_dmStatus : ((s.dmStatus n code).chan n).prog = (s.chan n).prog := by
  obtain ⟨bad, eq⟩ := chan_dmStatus may
  rw [eq]

theorem runs_dmStatus : ((s.dmStatus n code).chan n).prog.isSome = true := by
  rw [prog_dmStatus may]
  exact may.1

/-- A bad status is noted at the instruction. -/
theorem badAt_dmStatus (bad : 0x80 ≤ code) : ((s.dmStatus n code).chan n).badAt = (s.chan n).badAt ++ [(s.chan n).pc] := by
  obtain ⟨-, fresh, written⟩ := may
  unfold State.dmStatus
  dsimp only
  rw [fresh, if_neg Bool.false_ne_true, if_pos written, State.chan_setChan_same]
  simp [bad]

theorem chan_dmNext : ∃ bad, (s.dmNext n code).chan n =
    { s.chan n with work := .none, badAt := bad, pc := (s.chan n).pc + 1 } := by
  obtain ⟨bad, eq⟩ := chan_dmStatus may
  refine ⟨bad, ?_⟩
  unfold State.dmNext
  dsimp only
  rw [if_pos (runs_dmStatus may), State.chan_setChan_same, eq]

theorem enc_dmNext : ((s.dmNext n code).chan n).enc = (s.chan n).enc := by
  obtain ⟨bad, eq⟩ := chan_dmNext may
  rw [eq]

theorem loops_dmNext : ((s.dmNext n code).chan n).loops = (s.chan n).loops := by
  obtain ⟨bad, eq⟩ := chan_dmNext may
  rw [eq]

end

/-! ### MOVE (07 R225, R227) -/

theorem execMove_at {s u : State} {n : Fin 32} {i : DmIns} (here : s.channelAt n i u) (op : i.op = 1) (flags : i.flags ≤ 1)
    (lines : i.f 13 0 ≠ 0) : execMove n s = .next (u.setChan n { u.chan n with
      work := .move (i.f 103 59 + if bitAt i.flags 0 then u.dmIter n * i.f 13 0 else 0)
        (i.f 58 14 + if bitAt i.flags 0 then u.dmIter n * i.f 13 0 else 0) (i.f 13 0) }) := by
  unfold execMove
  rw [dmRun_at here (by simp [op])]
  dsimp only
  rw [if_neg (by simp [flags_half flags, lines])]

/-- A line that is read undamaged and written: the last one ends the MOVE. -/
theorem execDmReadReturn_line {s u v : State} {n : Fin 32} {src dst left : Nat} {r : RdRes}
    (work : (s.chan n).work = .move src dst left) (read : s.readPa (s.chanWho n) (128 * src) 128 = (r, u)) (ok : r.res = .ok)
    (clean : r.poison = false) (written : u.writePa (u.chanWho n) (128 * dst) r.bytes = (.ok, v)) :
    execDmReadReturn n s = .next (if left ≤ 1 then v.dmNext n 1
      else v.setChan n { v.chan n with work := .move (src + 1) (dst + 1) (left - 1) }) := by
  unfold execDmReadReturn State.moveLine
  rw [work]
  dsimp only
  rw [read]
  dsimp only
  rw [if_neg (by simp [ok]), if_neg (by simp [clean]), written]
  rfl

/-! ### Encoder steps -/

/-- A step that ends well leaves the state it ran to. -/
theorem encRun_eq {α : Type} {m : EncM α} {s v : State} {a : α} (ok : (m.run s).1.toOption = some a) (left : (m.run s).2 = v) :
    m.run s = (.ok a, v) := Prod.ext (eq_ok_of_toOption ok) left

theorem enc_withEnc (s : State) (n : Nat) (e : Option EncCol) : ((s.withEnc n e).chan n).enc = e := by
  rw [State.withEnc, State.chan_setChan_same]

theorem encDo_ok {s v : State} {n : Nat} {m : EncM (Option EncCol)} {f : State → State} {e : Option EncCol}
    (ok : (m.run s).1.toOption = some e) (left : (m.run s).2 = v) : s.encDo n m f = f (v.withEnc n e) := by
  unfold State.encDo
  rw [encRun_eq ok left]

/-- A step that leaves the channels leaves what `g` shows of one. -/
theorem keepsM_chan {ε α β : Type} {x : ExceptT ε (StateM State) α} (h : KeepsM State.dm x) (g : DmCh → β) (n : Nat) :
    KeepsM (fun s => g (s.chan n)) x := fun s => congrArg g (chan_congr (h s) n)

theorem closePage_ending (n : Nat) (e : EncCol) : KeepsM (fun s => (s.chan n).ending) (closePage n e) := by
  have lines (e : EncCol) (l : List Nat) : KeepsM (fun s => (s.chan n).ending) (writeLines n e l) :=
    keepsM_chan (writeLines_fr n e l).2.1 DmCh.ending n
  unfold closePage
  refine keepsM_bind (keepsM_get _) fun s => keepsM_bind (fun t => ?flip) fun _ => keepsM_bind (lines _ _) fun _ =>
    keepsM_bind (lines _ _) fun _ => keepsM_bind (fun t => ?close) fun _ => keepsM_pure _ _
  case flip =>
    show (State.chan (if _ then _ else _) n).ending = _
    split_ifs <;> rfl
  case close =>
    show (State.chan (t.setChan n _) n).ending = _
    rw [State.chan_setChan_same]

theorem closeBlock_ending (n : Nat) (e : EncCol) : KeepsM (fun s => (s.chan n).ending) (closeBlock n e) := by
  unfold closeBlock
  refine keepsM_bind (keepsM_chan (copyStrings_fr n e).2.1 DmCh.ending n) fun _ =>
    keepsM_bind (keepsM_chan (placeBlock_fr n _ _).2.1 DmCh.ending n) fun _ =>
    keepsM_bind (keepsM_chan (writeLines_fr n _ _).2.1 DmCh.ending n) fun _ => ?_
  split
  · exact closePage_ending n _
  · exact keepsM_pure _ _

theorem flushCol_ending (n : Nat) (e : EncCol) (close : Bool) : KeepsM (fun s => (s.chan n).ending) (flushCol n e close) := by
  have page (e : EncCol) : KeepsM (fun s => (s.chan n).ending)
      (if close && !e.slots.isEmpty then closePage n e else (pure e : EncM EncCol)) := by
    split
    · exact closePage_ending n e
    · exact keepsM_pure _ _
  unfold flushCol
  dsimp only
  split
  · exact page e
  · exact keepsM_bind (closeBlock_ending n e) page

theorem flushShut_ending (n : Nat) (e : EncCol) : KeepsM (fun s => (s.chan n).ending) (flushShut n e) :=
  keepsM_bind (flushCol_ending n e true) fun _ => keepsM_pure _ _

/-! ### ENCODE and FLUSH (07 R230, 02 R56) -/

/-- Of a well-formed ENCODE at least one row is asked for. -/
theorem rows_of_encodeOk {i : DmIns} (ok : i.encodeOk = true) : i.f 31 0 ≠ 0 := by
  simp only [DmIns.encodeOk, Bool.and_eq_true, bne_iff_ne] at ok
  exact ok.1.2

theorem encMore_rows {s : State} {n left : Nat} {e : EncCol} (enc : (s.chan n).enc = some e) (asked : left ≠ 0)
    (rows : e.row < e.src.rows) : s.encMore n left = s.setChan n { s.chan n with work := .encode left } := by
  unfold State.encMore
  rw [enc]
  dsimp only
  rw [if_neg asked, if_neg (Nat.not_le_of_lt rows)]

theorem encMore_done {s : State} {n left : Nat} {e : EncCol} (enc : (s.chan n).enc = some e) (finished : left = 0) :
    s.encMore n left = s.dmNext n 1 := by
  unfold State.encMore
  rw [enc]
  dsimp only
  rw [if_pos finished]

section
variable {s u : State} {n : Fin 32} {i : DmIns} (here : s.channelAt n i u) (op : i.op = 2) (whole : i.encodeOk = true)
include here op whole

theorem execEncode_open (opens : bitAt i.flags 0 = true) : execEncode n s =
    .next (u.encDo n (openCol n (i.f 103 59 * 128) (i.f 58 56)) fun t => t.encMore n (i.f 31 0)) := by
  unfold execEncode
  rw [dmRun_at here (by simp [op])]
  dsimp only
  rw [if_neg (by simp [whole]), if_pos opens]

theorem execEncode_more {e : EncCol} (keeps : bitAt i.flags 0 = false) (enc : (s.chan n).enc = some e) : execEncode n s =
    .next ((u.withEnc n (some { e with level := i.f 58 56 })).encMore n (i.f 31 0)) := by
  unfold execEncode
  rw [dmRun_at here (by simp [op])]
  dsimp only
  rw [if_neg (by simp [whole]), if_neg (by simp [keeps]), chan_of_channelAt here, enc, State.withEnc,
    chan_of_channelAt here]

theorem execEncode_closed (keeps : bitAt i.flags 0 = false) (enc : (s.chan n).enc = none) : execEncode n s =
    .next (u.dmNext n 0x83) := by
  unfold execEncode
  rw [dmRun_at here (by simp [op])]
  dsimp only
  rw [if_neg (by simp [whole]), if_neg (by simp [keeps]), chan_of_channelAt here, enc]

end

/-- Source rows that come back are taken into the open column. -/
theorem execDmReadReturn_rows {s v : State} {n : Fin 32} {left k : Nat} {e e' : EncCol} (work : (s.chan n).work = .encode left)
    (enc : (s.chan n).enc = some e) (ok : ((takeRowsOf n e left).run s).1.toOption = some (e', k))
    (after : ((takeRowsOf n e left).run s).2 = v) :
    execDmReadReturn n s = .next ((v.withEnc n (some e')).encMore n (left - k)) := by
  unfold execDmReadReturn State.encodeRows
  rw [work]
  dsimp only
  rw [enc]
  dsimp only
  rw [encRun_eq ok after]

theorem execFlush_open {s u v : State} {n : Fin 32} {i : DmIns} {e : EncCol} {e' : Option EncCol} (here : s.channelAt n i u)
    (op : i.op = 3) (flags : i.flags ≤ 1) (opnd : i.opnd = 0) (enc : (s.chan n).enc = some e)
    (ok : ((flushOpen n e (bitAt i.flags 0)).run u).1.toOption = some e')
    (after : ((flushOpen n e (bitAt i.flags 0)).run u).2 = v) : execFlush n s = .next ((v.withEnc n e').dmNext n 1) := by
  unfold execFlush State.dmFlush
  rw [dmRun_at here (by simp [op])]
  rw [if_neg (by simp [flags_half flags, opnd]), chan_of_channelAt here, enc]
  dsimp only
  rw [encDo_ok ok after]

/-! ### LOOP (07 R225) -/

/-- `s` after the instruction of channel `n`, a LOOP that jumps back, has ended with status 1: of its passes `l` is noted. -/
def State.jumped (s : State) (n : Nat) (i : DmIns) (l : DmLoop) : State :=
  (s.dmStatus n 1).setChan n { (s.dmStatus n 1).chan n with
    pc := (s.chan n).pc - i.back, loops := (s.chan n).loops.filter (fun x => x.at_ != (s.chan n).pc) ++ [l] }

theorem jumped_effect {s : State} {n : Nat} (i : DmIns) (l : DmLoop) (may : s.mayEnd n 1) :
    (s.jumped n i l).mem = (s.statusWrite n 1).2.mem ∧ ((s.jumped n i l).chan n).pc = (s.chan n).pc - i.back ∧
    ((s.jumped n i l).chan n).loops = (s.chan n).loops.filter (fun x => x.at_ != (s.chan n).pc) ++ [l] := by
  rw [State.jumped, State.chan_setChan_same]
  exact ⟨mem_dmStatus may, rfl, rfl⟩

/-- A LOOP of which no pass is noted is on its first. -/
theorem find_none_of_fresh {l : List DmLoop} {pc : Nat} (fresh : l.all (fun x => x.at_ != pc) = true) :
    l.find? (fun x => x.at_ == pc) = none := by simpa using fresh

section
variable {s : State} {n : Nat} {i : DmIns} (whole : i.loopOk (s.chan n).pc = true)
include whole

section
variable (fresh : (s.chan n).loops.all (fun l => l.at_ != (s.chan n).pc) = true)
include fresh

theorem dmLoop_once (count : i.count = 1) : s.dmLoop n i = s.dmNext n 1 := by
  unfold State.dmLoop
  dsimp only
  rw [if_neg (by simp [whole]), find_none_of_fresh fresh]
  dsimp only
  rw [if_pos count]

theorem dmLoop_first (count : 1 < i.count) (room : (s.chan n).loops.length < 4) (may : s.mayEnd n 1) :
    s.dmLoop n i = s.jumped n i ⟨(s.chan n).pc, i.back, i.count - 2, 1⟩ := by
  unfold State.dmLoop
  dsimp only
  rw [if_neg (by simp [whole]), find_none_of_fresh fresh]
  dsimp only
  rw [if_neg count.ne', if_neg (Nat.not_le_of_lt room), if_pos (runs_dmStatus may)]
  rfl

end

section
variable {l : DmLoop} (pass : (s.chan n).loops.find? (fun x => x.at_ == (s.chan n).pc) = some l)
include pass

theorem dmLoop_again (more : 0 < l.left) (may : s.mayEnd n 1) :
    s.dmLoop n i = s.jumped n i { l with left := l.left - 1, iter := l.iter + 1 } := by
  unfold State.dmLoop
  dsimp only
  rw [if_neg (by simp [whole]), pass]
  dsimp only
  rw [if_neg more.ne', if_pos (runs_dmStatus may)]
  rfl

theorem dmLoop_last (last : l.left = 0) : s.dmLoop n i =
    (s.setChan n { s.chan n with loops := (s.chan n).loops.filter (fun x => x.at_ != (s.chan n).pc) }).dmNext n 1 := by
  unfold State.dmLoop
  dsimp only
  rw [if_neg (by simp [whole]), pass]
  dsimp only
  rw [if_pos last]

end
end

theorem execLoop_at {s u : State} {n : Fin 32} {i : DmIns} (here : s.channelAt n i u) (op : i.op = 4) :
    execLoop n s = .next (u.dmLoop n i) := congrArg Host.Outcome.next (dmRun_at here (by simp [op]))

/-! ### WAIT and SIGNAL (07 R225) -/

theorem chanDrained_iff {s : State} {n : Nat} : s.chanDrained n = true ↔ (s.chan n).closing = [] := List.isEmpty_iff

theorem execWait_drain {s u : State} {n : Fin 32} {i : DmIns} (here : s.channelAt n i u) (op : i.op = 5) (flags : i.flags = 0)
    (opnd : i.opnd = 0) : execWait n s = .next (if (s.chan n).closing = [] then u.dmNext n 1 else u) := by
  unfold execWait
  rw [dmRun_at here (by simp [op])]
  dsimp only
  rw [if_neg (by simp [flags, opnd, opnd_zero_field opnd]), if_neg (by simp [flags, bitAt])]
  simp only [chanDrained_iff, chan_of_channelAt here]

theorem execWait_word {s u : State} {n : Fin 32} {i : DmIns} (here : s.channelAt n i u) (op : i.op = 5) (flags : i.flags = 1)
    (zero : i.f 54 32 = 0) :
    execWait n s = .next (u.setChan n { u.chan n with work := .wait (i.f 103 55 * 8) (i.f 31 0) }) := by
  unfold execWait
  rw [dmRun_at here (by simp [op])]
  dsimp only
  rw [if_neg (by simp [flags, zero, bitAt]), if_pos (by simp [flags, bitAt])]

/-- SIGNAL with nothing to drain, its value written: the MSI, where asked, goes before the status. -/
theorem execSignal_drained {s u v : State} {n : Fin 32} {i : DmIns} (here : s.channelAt n i u) (op : i.op = 6)
    (flags : i.flags ≤ 1) (zero : i.f 54 32 = 0) (drained : (s.chan n).closing = [])
    (written : u.writePa (u.chanWho n) (i.f 103 55 * 8) (leBytes 8 (i.f 31 0)) = (.ok, v)) :
    execSignal n s = .next ((if bitAt i.flags 0 then v.chanMsi n else v).dmNext n 1) := by
  have done : u.chanDrained n = true := by rw [chanDrained_iff, chan_of_channelAt here, drained]
  unfold execSignal
  rw [dmRun_at here (by simp [op])]
  dsimp only
  rw [if_neg (by simp [flags_half flags, zero]), if_neg (by simp [done]), written]
  rfl

/-! ### END and reserved opcodes (07 R225) -/

theorem execDmEnd_at {s u : State} {n : Fin 32} {i : DmIns} (here : s.channelAt n i u) (op : i.op = 0xF) (flags : i.flags ≤ 1)
    (opnd : i.opnd = 0) : execDmEnd n s = .next (u.dmEnd n i) := by
  unfold execDmEnd
  rw [dmRun_at here (by simp [op])]
  rw [if_neg (by simp [flags_half flags, opnd])]

theorem dmEnd_closed {s : State} {n : Nat} {i : DmIns} (enc : (s.chan n).enc = none) : s.dmEnd n i = s.dmFin n i := by
  unfold State.dmEnd
  rw [enc]

theorem dmEnd_open {s v : State} {n : Nat} {i : DmIns} {e : EncCol} {e' : Option EncCol} (enc : (s.chan n).enc = some e)
    (ok : ((flushShut n e).run s).1.toOption = some e') (after : ((flushShut n e).run s).2 = v) :
    s.dmEnd n i = (v.withEnc n e').dmFin n i := by
  unfold State.dmEnd
  rw [enc]
  dsimp only
  rw [encDo_ok ok after]

theorem dmFin_waits {s : State} {n : Nat} {i : DmIns} (closing : (s.chan n).closing ≠ []) : s.dmFin n i = s := by
  unfold State.dmFin
  rw [if_pos (by simpa [chanDrained_iff, ← Bool.not_eq_true] using closing)]

theorem dmFin_drained {s : State} {n : Nat} {i : DmIns} (drained : (s.chan n).closing = []) (may : s.mayEnd n 1) :
    s.dmFin n i = (s.dmStatus n 1).setChan n { (s.dmStatus n 1).chan n with ending := some (bitAt i.flags 0) } := by
  unfold State.dmFin
  dsimp only
  rw [if_neg (by simp [chanDrained_iff, drained]), if_pos (runs_dmStatus may)]

theorem execDmReservedOpcode_at {s u : State} {n : Fin 32} {i : DmIns} (here : s.channelAt n i u)
    (op : i.op = 0 ∨ (6 < i.op ∧ i.op ≠ 0xF)) : execDmReservedOpcode n s = .next (u.dmSelfEnd n) :=
  congrArg Host.Outcome.next (dmRun_at here (by simpa using op))

theorem dmSelfEnd_ends {s : State} {n : Nat} (may : s.mayEnd n 0x84) : s.dmSelfEnd n =
    (s.dmStatus n 0x84).setChan n { (s.dmStatus n 0x84).chan n with enc := none, ending := some false } := by
  unfold State.dmSelfEnd
  dsimp only
  rw [if_pos (runs_dmStatus may)]

/-! ### The statement -/

/-- Settles O40: each instruction has an equation for the case the statement speaks of. -/
theorem channelInstructionsComplete : Obligations.ChannelInstructionsComplete := by
  unfold Obligations.ChannelInstructionsComplete
  refine ⟨?move, ?line, ?lastLine, ?encode, ?opens, ?unopened, ?rows, ?lastRows, ?flush, ?once, ?first, ?again, ?last, ?drain,
    ?undrained, ?word, ?signal, ?msi, ?fin, ?shut, ?reserved⟩
  case move =>
    rintro s n i u k here op flags lines rfl
    refine completes_of_next (execMove_at here op flags lines) ⟨?_, rfl⟩
    rw [State.chan_setChan_same, chan_of_channelAt here]
  case line =>
    intro s n src dst left r u v work more read ok clean written
    have run := execDmReadReturn_line work read ok clean written
    rw [if_neg (Nat.not_le_of_lt more)] at run
    refine completes_of_next run ⟨?_, rfl⟩
    rw [State.chan_setChan_same]
  case lastLine =>
    intro s n src dst left r u v work last read ok clean written may
    have run := execDmReadReturn_line work read ok clean written
    rw [if_pos last] at run
    exact completes_of_next run (dmNext_ended may)
  case encode =>
    intro s n i u e here op whole keeps enc rows
    have run := execEncode_more here op whole keeps enc
    rw [encMore_rows (e := { e with level := i.f 58 56 }) (enc_withEnc _ _ _) (rows_of_encodeOk whole) rows] at run
    refine completes_of_next run ?_
    rw [State.chan_setChan_same, State.chan_setChan_same, chan_of_channelAt here]
  case opens =>
    intro s n i u v e here op whole opens ok after rows
    have run := execEncode_open here op whole opens
    rw [encDo_ok ok after, encMore_rows (enc_withEnc _ _ _) (rows_of_encodeOk whole) rows] at run
    refine completes_of_next run ⟨?_, rfl⟩
    rw [State.chan_setChan_same, State.chan_setChan_same]
  case unopened =>
    intro s n i u here op whole keeps enc may
    exact completes_of_next (execEncode_closed here op whole keeps enc) (dmNext_ended may)
  case rows =>
    intro s n left k e e' v work enc ok after more rows
    have run := execDmReadReturn_rows work enc ok after
    rw [encMore_rows (enc_withEnc _ _ _) (Nat.sub_ne_zero_of_lt more) rows] at run
    refine completes_of_next run ?_
    rw [State.chan_setChan_same, State.chan_setChan_same]
    exact ⟨rfl, rfl, rfl⟩
  case lastRows =>
    intro s n left k e e' v work enc ok after taken may
    have run := execDmReadReturn_rows work enc ok after
    rw [encMore_done (enc_withEnc _ _ _) (Nat.sub_eq_zero_of_le taken)] at run
    refine completes_of_next run ⟨dmNext_ended may, ?_⟩
    rw [enc_dmNext may, enc_withEnc]
  case flush =>
    intro s n i u v e e' here op flags opnd enc ok after may
    refine completes_of_next (execFlush_open here op flags opnd enc ok after) ⟨dmNext_ended may, ?_⟩
    rw [enc_dmNext may, enc_withEnc]
  case once =>
    intro s n i u here op whole count fresh written
    rw [← chan_of_channelAt here] at whole fresh
    have run := execLoop_at here op
    rw [dmLoop_once whole fresh count] at run
    exact completes_of_next run (dmNext_ended (mayEnd_after_read here written))
  case first =>
    intro s n i u here op whole count fresh room written
    have may := mayEnd_after_read here written
    have unchanged : (s.chan n).loops.filter (fun x => x.at_ != (s.chan n).pc) = (s.chan n).loops :=
      List.filter_eq_self.2 (List.all_eq_true.1 fresh)
    rw [← chan_of_channelAt here] at whole fresh room unchanged ⊢
    have run := execLoop_at here op
    rw [dmLoop_first whole fresh count room may] at run
    have effect := jumped_effect i ⟨(u.chan n).pc, i.back, i.count - 2, 1⟩ may
    rw [unchanged] at effect
    exact completes_of_next run effect
  case again =>
    intro s n i u l here op whole pass more written
    have may := mayEnd_after_read here written
    rw [← chan_of_channelAt here] at whole pass ⊢
    have run := execLoop_at here op
    rw [dmLoop_again whole pass more may] at run
    exact completes_of_next run (jumped_effect i _ may)
  case last =>
    rintro s n i u v l here op whole pass last rfl written
    have may := mayEnd_of_channelAt here (by rw [State.chan_setChan_same, chan_of_channelAt here])
      (by rw [State.chan_setChan_same, chan_of_channelAt here]) (by rw [State.chan_setChan_same, chan_of_channelAt here]) written
    have run := execLoop_at here op
    rw [← chan_of_channelAt here] at whole pass may ⊢
    rw [dmLoop_last whole pass last] at run
    refine completes_of_next run ⟨dmNext_ended may, ?_⟩
    rw [loops_dmNext may, State.chan_setChan_same]
  case drain =>
    intro s n i u here op flags opnd drained written
    have run := execWait_drain here op flags opnd
    rw [if_pos drained] at run
    exact completes_of_next run (dmNext_ended (mayEnd_after_read here written))
  case undrained =>
    intro s n i u here op flags opnd closing
    have run := execWait_drain here op flags opnd
    rw [if_neg closing] at run
    exact completes_of_next run ⟨chan_of_channelAt here, rfl⟩
  case word =>
    intro s n i u here op flags zero
    refine completes_of_next (execWait_word here op flags zero) ?_
    rw [State.chan_setChan_same, chan_of_channelAt here]
  case signal =>
    intro s n i u v here op flags zero drained written status
    have same : v.chan n = s.chan n := (chan_of_writePa written n).trans (chan_of_channelAt here)
    have may := mayEnd_of_sameChan here same status
    have run := execSignal_drained here op (by omega) zero drained written
    rw [if_neg (by simp [flags, bitAt])] at run
    exact completes_of_next run (dmNext_ended may)
  case msi =>
    intro s n i u v here op flags zero drained written status
    have same : (v.chanMsi n).chan n = s.chan n :=
      (chan_congr (dm_chanMsi v n) n).trans ((chan_of_writePa written n).trans (chan_of_channelAt here))
    have may := mayEnd_of_sameChan here same status
    have run := execSignal_drained here op (by omega) zero drained written
    rw [if_pos (by simp [flags, bitAt])] at run
    exact completes_of_next run (dmNext_ended may)
  case fin =>
    intro s n i u here op flags opnd enc drained written
    have may := mayEnd_after_read here written
    rw [← chan_of_channelAt here] at enc drained ⊢
    have run := execDmEnd_at here op flags opnd
    rw [dmEnd_closed enc, dmFin_drained drained may] at run
    refine completes_of_next run ⟨mem_dmStatus may, ?_⟩
    rw [State.chan_setChan_same]
    exact ⟨rfl, prog_dmStatus may⟩
  case shut =>
    intro s n i u v e here op flags opnd enc ok after closing
    have running : (v.chan n).ending = none := by
      rw [← after, ← (runs_of_channelAt here).2.2, ← chan_of_channelAt here]
      exact flushShut_ending n e u
    rw [← chan_of_channelAt here] at enc
    have run := execDmEnd_at here op flags opnd
    rw [dmEnd_open enc ok after, dmFin_waits (by rwa [State.chan_setChan_same])] at run
    refine completes_of_next run ?_
    rw [State.chan_setChan_same]
    exact ⟨rfl, running, rfl, rfl⟩
  case reserved =>
    intro s n i u here op written
    have may := mayEnd_after_read here written
    have run := execDmReservedOpcode_at here op
    rw [dmSelfEnd_ends may] at run
    refine completes_of_next run ⟨mem_dmStatus may, ?_⟩
    rw [State.chan_setChan_same, ← chan_of_channelAt here]
    exact ⟨rfl, rfl, badAt_dmStatus may (by decide)⟩

end Sys2Proof.Machine
end

section
/-! PROOFS. Training of a Finxis port: the state that each step and each timeout leads to (08 R236, R237). -/

namespace Sys2Proof.Machine
open Sys2Proof
-- One proof after another: elaborated side by side, the proofs of the one text pass the memory that the check allows.
set_option Elab.async false

/-! ### The training state of a port -/

section
variable {s : State} {p : Nat}

theorem mode_ne_fxStatus (p : Nat) : Reg.PKG_MODE ≠ Reg.FX_STATUS p := by
  simp only [Reg.PKG_MODE, Reg.FX_STATUS]; omega

theorem mode_wr_fxStatus (s : State) (p : Nat) (f : Fld) (v : Nat) : (s.wr (Reg.FX_STATUS p) f v).mode = s.mode :=
  rd_wr_other _ _ _ _ (mode_ne_fxStatus p)

/-- A port that is not DOWN has its clock. -/
theorem clocked_of_fxState (up : s.fxState p ≠ 0) : s.mode ≠ MD.bufferStop := fun stopped => up (if_pos stopped)

theorem fxState_of_clocked (clocked : s.mode ≠ MD.bufferStop) :
    s.fxState p = s.rd (Reg.FX_STATUS p) F.FX_STATUS_STATE := if_neg clocked

theorem fxState_wr_state (clocked : s.mode ≠ MD.bufferStop) {k : Nat} (code : k < 8) :
    (s.wr (Reg.FX_STATUS p) F.FX_STATUS_STATE k).fxState p = k := by
  rw [fxState_of_clocked (by rw [mode_wr_fxStatus]; exact clocked), rd_wr_fits _ _ _ _ (by decide) (by decide) code]

theorem fxState_wr_apart (s : State) (p : Nat) {f : Fld} (v : Nat) (order : f.lo ≤ f.hi) (apart : 2 < f.lo) :
    (s.wr (Reg.FX_STATUS p) f v).fxState p = s.fxState p := by
  rw [State.fxState, State.fxState, mode_wr_fxStatus, rd_wr_apart _ _ _ _ _ order (.inl apart)]

theorem fxState_setPort (s : State) (p : Nat) (x : FxPort) : (s.setPort p x).fxState p = s.fxState p := rfl

theorem port_wr (s : State) (o : Nat) (f : Fld) (v p : Nat) : (s.wr o f v).port p = s.port p := rfl

/-! ### Going DOWN -/

/-- Port `p` has gone DOWN from state `s` with a cause, and has raised its error event. -/
def WentDown (s : State) (p cause : Nat) (t : State) : Prop :=
  t.fxState p = 0 ∧ t.rd (Reg.FX_STATUS p) F.FX_STATUS_DOWN_CAUSE = cause ∧ t.fx = s.fx ∧ t.wires = s.wires ++ [293 + p]

theorem wentDown_finxisDown (up : s.fxState p ≠ 0) {cause : Nat} (code : cause < 16) :
    WentDown s p cause (s.finxisDown p cause) := by
  have clocked : (s.wr (Reg.FX_STATUS p) F.FX_STATUS_STATE 0).fxState p = 0 :=
    fxState_wr_state (clocked_of_fxState up) (by decide)
  unfold State.finxisDown
  rw [if_neg up]
  exact ⟨(fxState_wr_apart (f := F.FX_STATUS_DOWN_CAUSE) _ p cause (by decide) (by decide)).trans clocked,
    rd_wr_fits _ _ F.FX_STATUS_DOWN_CAUSE _ (by decide) (by decide) code, rfl, rfl⟩

end

/-! ### The lanes that passed (08 R237) -/

section
variable {lanes : Nat}

theorem lanesAll_eq_true {mask : Nat} (h : lanes &&& mask = mask) : lanesAll lanes mask = true := beq_iff_eq.2 h

theorem lanesAll_eq_false {mask : Nat} (h : lanes &&& mask ≠ mask) : lanesAll lanes mask = false := beq_eq_false_iff_ne.2 h

/-- Where not every lane of the lower half passed, not every lane did. -/
theorem not_all_of_lower (h : lanes &&& 0xF ≠ 0xF) : lanes &&& 0xFF ≠ 0xFF := fun all => h (
  calc lanes &&& 0xF = (lanes &&& 0xFF) &&& 0xF := (Nat.and_assoc lanes 0xFF 0xF).symm
    _ = 0xFF &&& 0xF := by rw [all])

theorem fxWidth_all (all : lanes &&& 0xFF = 0xFF) : fxWidth lanes = some (8, false) := if_pos (lanesAll_eq_true all)

theorem fxWidth_lower (some' : lanes &&& 0xFF ≠ 0xFF) (lower : lanes &&& 0xF = 0xF) : fxWidth lanes = some (4, false) := by
  simp [fxWidth, lanesAll_eq_false some', lanesAll_eq_true lower]

theorem fxWidth_upper (lower : lanes &&& 0xF ≠ 0xF) (upper : lanes &&& 0xF0 = 0xF0) : fxWidth lanes = some (4, true) := by
  simp [fxWidth, lanesAll_eq_false (not_all_of_lower lower), lanesAll_eq_false lower, lanesAll_eq_true upper]

theorem fxWidth_none (lower : lanes &&& 0xF ≠ 0xF) (upper : lanes &&& 0xF0 ≠ 0xF0) : fxWidth lanes = none := by
  simp [fxWidth, lanesAll_eq_false (not_all_of_lower lower), lanesAll_eq_false lower, lanesAll_eq_false upper]

end

/-! ### TRAINING_STEP_COMPLETE and TRAINING_TIMEOUT (08 R236) -/

section
variable {s : State} {p : Fin 4} {lanes : Nat}

theorem trainingStep_detected (detect : s.fxState p = 1) : Completes (.trainingStepComplete p lanes) s (fun t =>
    t.fxState p = 2 ∧ t.fx = s.fx ∧ t.mem = s.mem ∧ t.eng = s.eng) := by
  have run : exec (.trainingStepComplete p lanes) s = .next (s.wr (Reg.FX_STATUS p) F.FX_STATUS_STATE 2) := by
    show execTrainingStepComplete p lanes s = _
    unfold execTrainingStepComplete
    rw [detect]
    rfl
  exact completes_of_next run ⟨fxState_wr_state (clocked_of_fxState (by rw [detect]; decide)) (by decide), rfl, rfl, rfl⟩

theorem trainingStep_equalised (equalise : s.fxState p = 2) {w : Nat} {up : Bool} (width : fxWidth lanes = some (w, up))
    (small : w < 16) : Completes (.trainingStepComplete p lanes) s (fun t =>
      t.fxState p = 3 ∧ t.rd (Reg.FX_STATUS p) F.FX_STATUS_WIDTH = w ∧ t.port p = { s.port p with upper := up } ∧
      t.mem = s.mem ∧ t.eng = s.eng) := by
  have run : exec (.trainingStepComplete p lanes) s = .next ((s.setPort p { s.port p with upper := up }).wrs (Reg.FX_STATUS p)
      [(F.FX_STATUS_STATE, 3), (F.FX_STATUS_WIDTH, w)]) := by
    show execTrainingStepComplete p lanes s = _
    unfold execTrainingStepComplete
    rw [equalise, width]
    rfl
  have clocked : (s.setPort p { s.port p with upper := up }).mode ≠ MD.bufferStop :=
    clocked_of_fxState (p := p) (by rw [fxState_setPort, equalise]; decide)
  exact completes_of_next run ⟨(fxState_wr_apart (f := F.FX_STATUS_WIDTH) _ p w (by decide) (by decide)).trans
      (fxState_wr_state clocked (by decide)),
    rd_wr_fits _ _ F.FX_STATUS_WIDTH w (by decide) (by decide) small, State.port_setPort_same .., rfl, rfl⟩

theorem trainingStep_unequalised (trains : s.fxState p = 2 ∨ s.fxState p = 6) (width : fxWidth lanes = none) :
    Completes (.trainingStepComplete p lanes) s (WentDown s p 2) := by
  have run : exec (.trainingStepComplete p lanes) s = .next (s.finxisDown p 2) := by
    show execTrainingStepComplete p lanes s = _
    unfold execTrainingStepComplete FxPort.retrained
    rcases trains with trains | trains <;> rw [trains, width] <;> rfl
  exact completes_of_next run (wentDown_finxisDown (by rcases trains with h | h <;> rw [h] <;> decide) (by decide))

theorem trainingStep_aligned (align : s.fxState p = 3) : Completes (.trainingStepComplete p lanes) s (fun t =>
    t.fxState p = 4 ∧ t.fx = s.fx ∧ t.out = s.out ++ [.caps p 1 (s.rd (Reg.FX_STATUS p) F.FX_STATUS_WIDTH) 2048 0 32]) := by
  have run : exec (.trainingStepComplete p lanes) s = .next ((s.wr (Reg.FX_STATUS p) F.FX_STATUS_STATE 4).fxCaps p) := by
    show execTrainingStepComplete p lanes s = _
    unfold execTrainingStepComplete
    rw [align]
    rfl
  have width : (s.wr (Reg.FX_STATUS p) F.FX_STATUS_STATE 4).rd (Reg.FX_STATUS p) F.FX_STATUS_WIDTH =
      s.rd (Reg.FX_STATUS p) F.FX_STATUS_WIDTH := rd_wr_apart _ _ _ _ _ (by decide) (by decide)
  refine completes_of_next run ⟨fxState_wr_state (clocked_of_fxState (by rw [align]; decide)) (by decide), rfl, ?_⟩
  rw [State.fxCaps, width]
  rfl

theorem trainingStep_retrained (retrain : s.fxState p = 6) {w : Nat} {up : Bool}
    (width : (s.port p).retrained (s.rd (Reg.FX_STATUS p) F.FX_STATUS_WIDTH) lanes = some (w, up)) :
    Completes (.trainingStepComplete p lanes) s (fun t =>
      t.fxState p = 6 ∧ t.rd (Reg.FX_STATUS p) F.FX_STATUS_WIDTH = w % 16 ∧ t.port p = { s.port p with upper := up } ∧
      t.out = s.out ++ [.caps p 1 (w % 16) 2048 0 32]) := by
  have run : exec (.trainingStepComplete p lanes) s =
      .next (((s.setPort p { s.port p with upper := up }).wr (Reg.FX_STATUS p) F.FX_STATUS_WIDTH w).fxCaps p) := by
    show execTrainingStepComplete p lanes s = _
    unfold execTrainingStepComplete
    rw [retrain]
    dsimp only
    rw [width]
    rfl
  have left : ((s.setPort p { s.port p with upper := up }).wr (Reg.FX_STATUS p) F.FX_STATUS_WIDTH w).rd (Reg.FX_STATUS p)
      F.FX_STATUS_WIDTH = w % 16 := rd_wr_same _ _ _ _ (by decide) (by decide)
  refine completes_of_next run ⟨(fxState_wr_apart (f := F.FX_STATUS_WIDTH) _ p w (by decide) (by decide)).trans retrain, left,
    State.port_setPort_same .., ?_⟩
  rw [State.fxCaps, left]
  rfl

theorem trainingTimeout_down {cause : Nat} (due : (1 ≤ s.fxState p ∧ s.fxState p ≤ 4 ∧ cause = s.fxState p) ∨
    (s.fxState p = 6 ∧ cause = 5)) : Completes (.trainingTimeout p) s (WentDown s p cause) := by
  have run : exec (.trainingTimeout p) s = .next (s.finxisDown p cause) := by
    show execTrainingTimeout p s = _
    unfold execTrainingTimeout
    dsimp only
    rcases due with ⟨least, most, rfl⟩ | ⟨retrain, rfl⟩
    · rw [if_pos ⟨least, most⟩]
    · rw [retrain, if_neg (by decide), if_pos rfl]
  exact completes_of_next run (wentDown_finxisDown (by omega) (by omega))

end

end Sys2Proof.Machine
end

section
/-! PROOFS. What a Finxis port that sends leaves as it was, and what it sends again after a NAK or a timeout (08 R240, R241). -/

namespace Sys2Proof.Machine
open Sys2Proof
-- One proof after another: elaborated side by side, the proofs of the one text pass the memory that the check allows.
set_option Elab.async false

/-! ### One flit on the line -/

theorem port_pmcFx (s : State) (p k n : Nat) : (s.pmcFx p k n).port p = s.port p := by
  rw [State.port, State.port, show (s.pmcFx p k n).fx = s.fx by simp only [kept @State.pmcFx_fr]]

theorem port_fxLine (s : State) (p : Nat) (b : List Byte) : ∃ l, (s.fxLine p b).port p = { s.port p with line := l } := by
  unfold State.fxLine
  generalize 2 ^ 5140 = block
  dsimp only
  split
  · exact ⟨_, State.port_setPort_same ..⟩
  · rw [port_send]
    exact ⟨_, State.port_setPort_same ..⟩

/-- Units of the limiter of responses that a flit takes (08 R252). -/
def FxFlit.units (f : FxFlit) : Nat := if f.vl = 1 then 64 else 0

theorem spend_units (x : FxPort) (f : FxFlit) : x.spend f.vl = { x with lim := x.lim - f.units } := by
  unfold FxPort.spend FxFlit.units
  split <;> rfl

theorem passes_of_units {x : FxPort} {f : FxFlit} (enough : f.units ≤ x.lim) : x.passes f.vl = true := by
  unfold FxFlit.units at enough
  unfold FxPort.passes
  by_cases resp : f.vl = 1
  · rw [if_pos resp] at enough
    simp [enough]
  · simp [resp]

theorem port_fxPut (s : State) (p seq : Nat) (f : FxFlit) : ∃ l, (s.fxPut p seq f).port p =
    { s.port p with ret := (s.port p).takeRet.2.2.ret, lim := (s.port p).lim - f.units, line := l } := by
  obtain ⟨r, taken⟩ := takeRet_ret (s.port p)
  unfold State.fxPut
  dsimp only
  obtain ⟨l, port⟩ := port_fxLine (s.setPort p ((s.port p).takeRet.2.2.spend f.vl))
    p (flitBytes seq (((s.port p).takeRet.2.2.rseq + 1023) % 1024) f.vl 0 (s.port p).takeRet.1 (s.port p).takeRet.2.1 f.bytes)
  refine ⟨l, port.trans ?_⟩
  rw [State.port_setPort_same, spend_units, taken]

/-- A flit of another kind than DATA takes the credits to return, and nothing else. -/
theorem fxSendCtl_takes {s : State} {p kind ack cv cn : Nat} {x : FxPort} (taken : (s.port p).takeRet = (cv, cn, x)) :
    (s.fxSendCtl p kind ack).port p = { x with line := ((s.fxSendCtl p kind ack).port p).line } ∧
    (s.fxSendCtl p kind ack).sent = s.sent ++ [.flit p (flitBytes 0 ack 0 kind cv cn [])] := by
  unfold State.fxSendCtl
  rw [taken]
  dsimp only
  obtain ⟨l, port⟩ := port_fxLine (s.setPort p x) p (flitBytes 0 ack 0 kind cv cn [])
  rw [port, State.port_setPort_same]
  exact ⟨rfl, sent_fxLine ..⟩

/-! ### What sending leaves as it was -/

/-- State `t` is `s` after flits have been sent by port `p`: what it has received and where its session stands are the same, and
so are the registers but for its counters; where none waited, the flits and credits that it holds are too. -/
structure Sends (s t : State) (p : Nat) : Prop where
  sess : (t.port p).sess = (s.port p).sess
  wins : (t.port p).wins = (s.port p).wins
  rx : (t.port p).rx = (s.port p).rx
  asm : (t.port p).asm = (s.port p).asm
  rseq : (t.port p).rseq = (s.port p).rseq
  discard : (t.port p).discard = (s.port p).discard
  unsent : (s.port p).txq = [] →
    (t.port p).txq = [] ∧ (t.port p).unack = (s.port p).unack ∧ (t.port p).credits = (s.port p).credits
  regs : ∀ o, (∀ k, o ≠ Reg.FX_PMC p k) → t.rdW o = s.rdW o

section
variable {s t u : State} {p : Nat}

theorem sends_refl (s : State) (p : Nat) : Sends s s p := ⟨rfl, rfl, rfl, rfl, rfl, rfl, fun h => ⟨h, rfl, rfl⟩, fun _ _ => rfl⟩

theorem sends_trans (first : Sends s t p) (then' : Sends t u p) : Sends s u p where
  sess := then'.sess.trans first.sess
  wins := then'.wins.trans first.wins
  rx := then'.rx.trans first.rx
  asm := then'.asm.trans first.asm
  rseq := then'.rseq.trans first.rseq
  discard := then'.discard.trans first.discard
  unsent none' := by
    obtain ⟨none₁, unack₁, credits₁⟩ := first.unsent none'
    obtain ⟨none₂, unack₂, credits₂⟩ := then'.unsent none₁
    exact ⟨none₂, unack₂.trans unack₁, credits₂.trans credits₁⟩
  regs o apart := (then'.regs o apart).trans (first.regs o apart)

theorem sends_pmcFx (s : State) (p k n : Nat) : Sends s (s.pmcFx p k n) p := by
  have port := port_pmcFx s p k n
  constructor
  case regs => exact fun o apart => rdW_pmcFx_other s n (apart k)
  case unsent => rw [port]; exact fun h => ⟨h, rfl, rfl⟩
  all_goals rw [port]

theorem sends_fxPut (s : State) (p seq : Nat) (f : FxFlit) : Sends s (s.fxPut p seq f) p := by
  obtain ⟨l, port⟩ := port_fxPut s p seq f
  constructor
  case regs => exact fun o _ => rdW_congr (by simp only [kept @State.fxPut_fr]) o
  case unsent => rw [port]; exact fun h => ⟨h, rfl, rfl⟩
  all_goals rw [port]

/-- A port moves on one flit that it sends again. -/
theorem sends_setPort_replay (s : State) (p : Nat) (l : List (Nat × FxFlit)) :
    Sends s (s.setPort p { s.port p with replay := l }) p := by
  constructor
  case regs => exact fun _ _ => rfl
  case unsent => rw [State.port_setPort_same]; exact fun h => ⟨h, rfl, rfl⟩
  all_goals rw [State.port_setPort_same]

/-- A port moves on one flit that waited. -/
theorem sends_setPort_txq {s : State} {p : Nat} (some' : (s.port p).txq ≠ []) (l : List FxFlit) (c : Tab Nat)
    (m : List (Nat × FxFlit)) (q : Nat) :
    Sends s (s.setPort p (FxPort.freeOut { s.port p with txq := l, credits := c, unack := m, nseq := q })) p := by
  constructor
  case regs => exact fun _ _ => rfl
  case unsent => exact fun h => absurd h some'
  all_goals rw [State.port_setPort_same]; rfl

theorem sends_fxSendOne (step : s.fxSendOne p = some t) : Sends s t p := by
  unfold State.fxSendOne at step
  dsimp only at step
  split at step
  · cases step
  · split at step
    next n f rest _ =>
      split at step
      · rw [← Option.some.inj step]
        exact sends_trans (sends_trans (sends_setPort_replay s p rest) (sends_fxPut _ p n f)) (sends_pmcFx ..)
      · cases step
    next =>
      split at step
      · cases step
      · split at step
        next => cases step
        next pre f post picked =>
          have some' : (s.port p).txq ≠ [] := by
            intro h
            rw [h, FxPort.pick] at picked
            cases picked
          have sent := sends_trans (sends_setPort_txq some' (pre ++ post)
            (Tab.put 0 (s.port p).credits f.vl (Tab.get 0 (s.port p).credits f.vl - f.need))
            ((s.port p).unack ++ [((s.port p).nseq, f)]) (((s.port p).nseq + 1) % 1024))
            (sends_fxPut _ p ((((s.port p).nseq + 1) % 1024 + 1023) % 1024) f)
          rw [← Option.some.inj step]
          split
          · exact sends_trans sent (sends_pmcFx ..)
          · exact sent

/-- A port's turn to send: it sends a flit if it has one that it may send. -/
def State.fxTurn (s : State) (p : Nat) : State := (s.fxSendOne p).getD s

theorem sends_fxTurn (s : State) (p : Nat) : Sends s (s.fxTurn p) p := by
  unfold State.fxTurn
  cases step : s.fxSendOne p with
  | none => exact sends_refl s p
  | some t => exact sends_fxSendOne step

/-- A port that sends what it can has a turn for each flit that it holds. -/
theorem fxPump_eq_turns (s : State) (p : Nat) :
    s.fxPump p = (State.fxTurn · p)^[(s.port p).replay.length + (s.port p).txq.length] s := by
  rw [State.fxPump]
  exact (List.foldl_const (State.fxTurn · p) s _).trans (by rw [List.length_range])

theorem sends_turns (n : Nat) (s : State) : Sends s ((State.fxTurn · p)^[n] s) p := by
  induction n generalizing s with
  | zero => exact sends_refl s p
  | succ n ih => exact sends_trans (sends_fxTurn s p) (ih _)

theorem sends_fxPump (s : State) (p : Nat) : Sends s (s.fxPump p) p := by
  rw [fxPump_eq_turns]
  exact sends_turns _ s

/-- A port that holds no flit sends none. -/
theorem fxPump_nothing (unsent : (s.port p).txq = []) (idle : (s.port p).replay = []) : s.fxPump p = s := by
  rw [fxPump_eq_turns, unsent, idle]
  rfl

theorem Sends.mode (h : Sends s t p) : t.mode = s.mode := by
  rw [State.mode, State.mode, State.rd, State.rd, h.regs _ fun k => by simp only [Reg.PKG_MODE, Reg.FX_PMC]; omega]

theorem Sends.rd_status (h : Sends s t p) (f : Fld) : t.rd (Reg.FX_STATUS p) f = s.rd (Reg.FX_STATUS p) f := by
  rw [State.rd, State.rd, h.regs _ fun k => by simp only [Reg.FX_STATUS, Reg.FX_PMC]; omega]

theorem Sends.fxState (h : Sends s t p) : t.fxState p = s.fxState p := by
  rw [State.fxState, State.fxState, h.mode, h.rd_status]

end

/-! ### Sending again (08 R240) -/

/-- Units of the limiter that flits to be sent again take. -/
def respUnits (l : List (Nat × FxFlit)) : Nat := 64 * (l.filter (fun f => f.2.vl == 1)).length

theorem respUnits_cons (f : Nat × FxFlit) (l : List (Nat × FxFlit)) :
    respUnits (f :: l) = f.2.units + respUnits l := by
  unfold respUnits FxFlit.units
  split
  next h => rw [List.filter_cons_of_pos (by simp [h]), List.length_cons]; omega
  next h => rw [List.filter_cons_of_neg (by simp [h])]; omega

/-- State `t` is `s` once port `p` has sent flits `l` again, those that waited for it, with no credit to return. -/
structure SendsAgain (s : State) (p : Nat) (l : List (Nat × FxFlit)) (t : State) : Prop where
  port : t.port p = { s.port p with replay := [], lim := (s.port p).lim - respUnits l, line := (t.port p).line }
  sent : t.sent = s.sent ++
    l.map (fun f => .flit p (flitBytes f.1 (((s.port p).rseq + 1023) % 1024) f.2.vl 0 0 0 f.2.bytes))
  state : t.fxState p = 5

/-- The next of the flits to be sent again goes out. -/
theorem fxTurn_replay {s : State} {p n : Nat} {f : FxFlit} {l : List (Nat × FxFlit)} (active : s.fxState p = 5)
    (due : (s.port p).replay = (n, f) :: l) (none' : (s.port p).ret = []) (enough : f.units ≤ (s.port p).lim) :
    ((s.fxTurn p).port p = { s.port p with
      replay := l, lim := (s.port p).lim - f.units, line := ((s.fxTurn p).port p).line }) ∧
    (s.fxTurn p).sent =
      s.sent ++ [.flit p (flitBytes n (((s.port p).rseq + 1023) % 1024) f.vl 0 0 0 f.bytes)] := by
  have turn : s.fxTurn p = ((s.setPort p { s.port p with replay := l }).fxPut p n f).pmcFx p 4 1 := by
    unfold State.fxTurn State.fxSendOne
    dsimp only
    rw [active, if_neg (by decide), due]
    dsimp only
    rw [if_pos (passes_of_units enough)]
    rfl
  have port := State.port_setPort_same s p { s.port p with replay := l }
  have ret : ((s.setPort p { s.port p with replay := l }).port p).Returns 0 0 := returns_none (by rw [port]; exact none')
  have silent : (((s.setPort p { s.port p with replay := l }).fxPut p n f).pmcFx p 4 1).out =
      ((s.setPort p { s.port p with replay := l }).fxPut p n f).out := by simp only [kept @State.pmcFx_fr]
  have left : (FxPort.takeRet { s.port p with replay := l }).2.2.ret = (s.port p).ret := by
    unfold FxPort.takeRet
    dsimp only
    rw [none']
    rfl
  obtain ⟨line, put⟩ := port_fxPut (s.setPort p { s.port p with replay := l }) p n f
  rw [port, left] at put
  rw [turn, port_pmcFx, put, sent_congr silent, sent_fxPut ret, port]
  exact ⟨rfl, rfl⟩

theorem sendsAgain_turns {p : Nat} (l : List (Nat × FxFlit)) : ∀ s : State, s.fxState p = 5 → (s.port p).replay = l →
    (s.port p).ret = [] → respUnits l ≤ (s.port p).lim → SendsAgain s p l ((State.fxTurn · p)^[l.length] s) := by
  induction l with
  | nil =>
    intro s active due _ _
    refine ⟨?_, (List.append_nil _).symm, active⟩
    show s.port p = { s.port p with replay := [], lim := (s.port p).lim, line := (s.port p).line }
    rw [← due]
  | cons f l ih =>
    intro s active due none' enough
    rw [respUnits_cons] at enough
    obtain ⟨port, sent⟩ := fxTurn_replay active due none' (Nat.le_of_add_right_le enough)
    obtain ⟨port', sent', state⟩ := ih (s.fxTurn p) ((sends_fxTurn s p).fxState.trans active) (by rw [port])
      (by rw [port]; exact none') (by rw [port]; exact Nat.le_sub_of_add_le' enough)
    refine ⟨port'.trans ?_, sent'.trans ?_, state⟩
    · rw [port, respUnits_cons, ← Nat.sub_sub]
      rfl
    · rw [port, sent, List.append_assoc]
      rfl

end Sys2Proof.Machine
end

section
/-! PROOFS. Sessions, flits and replays of a Finxis port (08 R238 to R241): capability words, DATA, IDLE and NAK flits, timeouts. -/

namespace Sys2Proof.Machine
open Sys2Proof
-- One proof after another: elaborated side by side, the proofs of the one text pass the memory that the check allows.
set_option Elab.async false

/-! ### A port enters ACTIVE (08 R238, R252) -/

section
variable {s : State} {p : Nat}

theorem port_fxActive (s : State) (p : Nat) :
    (s.fxActive p).port p = { s.port p with lim := s.fxCeil p, line := (0, 0) } := State.port_setPort_same ..

theorem fxState_fxActive (clocked : s.mode ≠ MD.bufferStop) : (s.fxActive p).fxState p = 5 :=
  fxState_wr_state (s := s.setPort p { s.port p with lim := s.fxCeil p, line := (0, 0) }) clocked (by decide)

/-- A port sends again what is not acknowledged, then what waits. -/
theorem sends_fxResend (s : State) (p : Nat) : Sends s (s.fxResend p) p :=
  sends_trans (sends_setPort_replay s p (s.port p).unack) (sends_fxPump _ p)

/-- A port that holds no flit has none to send again. -/
theorem fxResend_nothing (unsent : (s.port p).txq = []) (known : (s.port p).unack = []) :
    s.fxResend p = s.setPort p { s.port p with replay := [] } := by
  unfold State.fxResend
  dsimp only
  rw [known]
  exact fxPump_nothing (by rw [State.port_setPort_same]; exact unsent) (by rw [State.port_setPort_same])

end

/-! ### CAPABILITY_WORD (08 R238, R241) -/

/-- A port whose link layer starts afresh with the credits of a capability word: what it has sent without an acknowledgement waits
to be sent. -/
def FxPort.afresh (x : FxPort) (c0 c1 c2 : Nat) : FxPort :=
  { x with
    credits := Tab.put 0 (Tab.put 0 (Tab.put 0 [] 0 c0) 1 c1) 2 c2
    txq := x.unack.map Prod.snd ++ x.txq, unack := [], replay := [], nseq := 0, rseq := 0, discard := false, replays := 0 }

theorem credits_afresh (x : FxPort) (c0 c1 c2 : Nat) : Tab.get 0 (x.afresh c0 c1 c2).credits 0 = c0 ∧
    Tab.get 0 (x.afresh c0 c1 c2).credits 1 = c1 ∧ Tab.get 0 (x.afresh c0 c1 c2).credits 2 = c2 := by
  simp [FxPort.afresh, Tab.get_put]

/-- A port enters ACTIVE, its link layer starting afresh. -/
def State.fxAfresh (s : State) (p c0 c1 c2 : Nat) : State := (s.setPort p ((s.port p).afresh c0 c1 c2)).fxActive p

theorem port_fxAfresh (s : State) (p c0 c1 c2 : Nat) : (s.fxAfresh p c0 c1 c2).port p =
    { (s.port p).afresh c0 c1 c2 with lim := s.fxCeil p, line := (0, 0) } := by
  rw [State.fxAfresh, port_fxActive, State.port_setPort_same]
  rfl

theorem fxState_fxAfresh {s : State} (clocked : s.mode ≠ MD.bufferStop) (p c0 c1 c2 : Nat) :
    (s.fxAfresh p c0 c1 c2).fxState p = 5 :=
  fxState_fxActive (s := s.setPort p ((s.port p).afresh c0 c1 c2)) clocked

/-- A port in a new session holds no window and no flit that has been sent. -/
theorem port_fxSession (s : State) (p sess : Nat) : ∃ g, (s.fxSession p sess).port p = { s.port p with
    sess := some sess, wins := [], txq := keptFlits ((s.port p).unack.map Prod.snd ++ (s.port p).txq) [], unack := [], replay := [],
    nseq := 0, rseq := 0, discard := false, replays := 0, asm := [], ret := [], again := [], stages := g } := by
  unfold State.fxSession State.fxDropped State.satF
  dsimp only
  rw [port_raise, port_wr, State.port_setPort_same]
  exact ⟨_, rfl⟩

theorem mode_fxSession (s : State) (p sess : Nat) : (s.fxSession p sess).mode = s.mode :=
  mode_wr_fxStatus ..

theorem fxCeil_fxSession (s : State) (p sess : Nat) : (s.fxSession p sess).fxCeil p = s.fxCeil p :=
  congrArg (64 * ·) (rd_wr_other _ _ _ _ (by simp only [Reg.FX_LIMIT, Reg.FX_STATUS]; omega))

section
variable {s : State} {p : Fin 4} {v c0 c1 c2 sess : Nat}

theorem capabilityWord_refused (trains : s.fxState p = 4 ∨ s.fxState p = 6) (bad : v ≠ 1 ∨ c0 < 16 ∨ c1 < 512 ∨ c2 < 32) :
    Completes (.capabilityWord p v c0 c1 c2 sess) s (WentDown s p 4) := by
  have run : exec (.capabilityWord p v c0 c1 c2 sess) s = .next (s.finxisDown p 4) := by
    show execCapabilityWord p v c0 c1 c2 sess s = _
    unfold execCapabilityWord
    dsimp only
    rw [if_neg (by rcases trains with h | h <;> simp [h]), if_pos (by simpa [or_assoc] using bad)]
  exact completes_of_next run (wentDown_finxisDown (by rcases trains with h | h <;> rw [h] <;> decide) (by decide))

variable (least0 : 16 ≤ c0) (least1 : 512 ≤ c1) (least2 : 32 ≤ c2)
include least0 least1 least2

theorem exec_capabilityWord_good (trains : s.fxState p = 4 ∨ s.fxState p = 6) {u w : State}
    (session : u = if (s.port p).sess ≠ some sess then s.fxSession p sess else s)
    (link : w = if s.fxState p = 4 ∨ (s.port p).sess ≠ some sess then u.fxAfresh p c0 c1 c2 else u.fxActive p) :
    exec (.capabilityWord p 1 c0 c1 c2 sess) s =
      .next (if s.fxState p = 6 then w.fxResend p else w.fxPump p) := by
  have good : ¬ ((1 : Nat) != 1 || decide (c0 < 16) || decide (c1 < 512) || decide (c2 < 32)) = true := by
    simp; omega
  show execCapabilityWord p 1 c0 c1 c2 sess s = _
  unfold execCapabilityWord
  dsimp only
  rw [if_neg (by rcases trains with h | h <;> simp [h]), if_neg good, link, session]
  simp only [bne_iff_ne, beq_iff_eq, Bool.or_eq_true]
  split_ifs <;> rfl

/-- The last session goes on after CAPS: what was sent and not acknowledged is sent, under sequence numbers from 0. -/
theorem capabilityWord_resumes (caps : s.fxState p = 4) (last : (s.port p).sess = some sess) :
    Completes (.capabilityWord p 1 c0 c1 c2 sess) s (fun t =>
      t.fxState p = 5 ∧ (t.port p).sess = some sess ∧ (t.port p).wins = (s.port p).wins ∧ (t.port p).rseq = 0 ∧
      ((s.port p).txq = [] → (s.port p).unack = [] →
        Tab.get 0 (t.port p).credits 0 = c0 ∧ Tab.get 0 (t.port p).credits 1 = c1 ∧ Tab.get 0 (t.port p).credits 2 = c2 ∧
          (t.port p).nseq = 0 ∧ (t.port p).lim = s.fxCeil p)) := by
  have run := exec_capabilityWord_good least0 least1 least2 (.inl caps) (if_neg (not_not.2 last)).symm (if_pos (.inl caps)).symm
  rw [if_neg (by rw [caps]; decide)] at run
  have active := fxState_fxAfresh (s := s) (clocked_of_fxState (p := p) (by rw [caps]; decide)) p c0 c1 c2
  have port := port_fxAfresh s p c0 c1 c2
  generalize s.fxAfresh p c0 c1 c2 = w at run port active
  have sends := sends_fxPump w p
  refine completes_of_next run ⟨sends.fxState.trans active, ?_, ?_, ?_, fun unsent known => ?_⟩
  · rw [sends.sess, port]; exact last
  · rw [sends.wins, port]; rfl
  · rw [sends.rseq, port]; rfl
  · rw [fxPump_nothing (by rw [port, FxPort.afresh, unsent, known]; rfl) (by rw [port]; rfl), port]
    obtain ⟨lane0, lane1, lane2⟩ := credits_afresh (s.port p) c0 c1 c2
    exact ⟨lane0, lane1, lane2, rfl, rfl⟩

/-- The last session goes on after RETRAIN: the link layer is as it was. -/
theorem capabilityWord_retrained (retrain : s.fxState p = 6) (last : (s.port p).sess = some sess) :
    Completes (.capabilityWord p 1 c0 c1 c2 sess) s (fun t =>
      t.fxState p = 5 ∧ (t.port p).sess = some sess ∧ (t.port p).wins = (s.port p).wins ∧ (t.port p).rseq = (s.port p).rseq ∧
      ((s.port p).txq = [] → (t.port p).credits = (s.port p).credits)) := by
  have same : ¬ (s.fxState p = 4 ∨ (s.port p).sess ≠ some sess) := by
    rw [retrain, not_or]
    exact ⟨by decide, not_not.2 last⟩
  have run := exec_capabilityWord_good least0 least1 least2 (.inr retrain) (if_neg (not_not.2 last)).symm (if_neg same).symm
  rw [if_pos retrain] at run
  have active := fxState_fxActive (p := p) (clocked_of_fxState (s := s) (p := p) (by rw [retrain]; decide))
  have port := port_fxActive s p
  generalize s.fxActive p = w at run port active
  have sends := sends_fxResend w p
  refine completes_of_next run ⟨sends.fxState.trans active, ?_, ?_, ?_, fun unsent => ?_⟩
  · rw [sends.sess, port]; exact last
  · rw [sends.wins, port]
  · rw [sends.rseq, port]
  · rw [(sends.unsent (by rw [port]; exact unsent)).2.2, port]

/-- In a new session nothing of the last one is left (log entry 47). -/
theorem capabilityWord_begins (trains : s.fxState p = 4 ∨ s.fxState p = 6) (other : (s.port p).sess ≠ some sess)
    (nothing : keptFlits ((s.port p).unack.map Prod.snd ++ (s.port p).txq) [] = []) :
    Completes (.capabilityWord p 1 c0 c1 c2 sess) s (fun t =>
      t.fxState p = 5 ∧ (t.port p).sess = some sess ∧ (t.port p).wins = [] ∧ (t.port p).txq = [] ∧ (t.port p).unack = [] ∧
      (t.port p).lim = s.fxCeil p ∧ t.wires = s.wires ++ [297 + p.val]) := by
  have run := exec_capabilityWord_good least0 least1 least2 trains (if_pos other).symm (if_pos (.inr other)).symm
  obtain ⟨g, begun⟩ := port_fxSession s p sess
  rw [nothing] at begun
  have clocked : (s.fxSession p sess).mode ≠ MD.bufferStop := by
    rw [mode_fxSession]
    exact clocked_of_fxState (p := p) (by rcases trains with h | h <;> rw [h] <;> decide)
  have full := fxCeil_fxSession s p sess
  have event : (s.fxSession p sess).wires = s.wires ++ [297 + p.val] := rfl
  generalize s.fxSession p sess = u at run begun clocked full event
  have active := fxState_fxAfresh clocked p c0 c1 c2
  have port := port_fxAfresh u p c0 c1 c2
  have wires : (u.fxAfresh p c0 c1 c2).wires = u.wires := rfl
  generalize u.fxAfresh p c0 c1 c2 = w at run port active wires
  rw [begun, full] at port
  have unsent : (w.port p).txq = [] := by rw [port]; rfl
  have known : (w.port p).unack = [] := by rw [port]; rfl
  rw [fxResend_nothing unsent known, fxPump_nothing unsent (by rw [port]; rfl)] at run
  refine completes_of_next run ?_
  split
  · refine ⟨active, ?_⟩
    rw [State.port_setPort_same, port]
    exact ⟨rfl, rfl, rfl, rfl, rfl, wires.trans event⟩
  · refine ⟨active, ?_⟩
    rw [port]
    exact ⟨rfl, rfl, rfl, rfl, rfl, wires.trans event⟩

end

/-! ### Bad flits (08 R240) -/

/-- From state `s`, port `p` has sent one NAK with a count of credits returned, and then is `x`. -/
def Nakked (s : State) (p : Nat) (x : FxPort) (cv cn : Nat) (t : State) : Prop :=
  t.port p = { x with line := (t.port p).line } ∧
  t.sent = s.sent ++ [.flit p (flitBytes 0 (((s.port p).rseq + 1023) % 1024) 0 2 cv cn [])]

section
variable {s : State} {p : Fin 4} {b : List Byte} {bad third : Bool} {x : FxPort} {cv cn : Nat}

theorem nakked_fxBad (first : (s.port p).discard = false)
    (taken : FxPort.takeRet { s.port p with discard := true } = (cv, cn, x)) : Nakked s p x cv cn (s.fxBad p) := by
  unfold State.fxBad
  dsimp only
  rw [first, if_neg (by decide)]
  have taken' : ((s.setPort p { s.port p with discard := true }).port p).takeRet = (cv, cn, x) := by
    rw [State.port_setPort_same]
    exact taken
  exact fxSendCtl_takes taken'

theorem completes_nakked {c : Instr} (run : exec c s = .next (s.fxBad p)) (first : (s.port p).discard = false)
    (taken : FxPort.takeRet { s.port p with discard := true } = (cv, cn, x)) : Completes c s (Nakked s p x cv cn) :=
  completes_of_next run (nakked_fxBad first taken)

theorem fxBad_discarding (discarding : (s.port p).discard = true) : s.fxBad p = s := if_pos discarding

section
variable (active : s.fxState p = 5)
include active

theorem exec_dataFlit_bad (damaged : flitGood b bad = false) : exec (.dataFlit p b bad) s = .next (s.fxBad p) := by
  show execDataFlit p b bad s = _
  unfold execDataFlit
  rw [active, if_neg (by decide), damaged]
  rfl

theorem exec_idleFlit_bad (damaged : flitGood b bad = false) : exec (.idleFlit p b bad) s = .next (s.fxBad p) := by
  show execIdleFlit p b bad s = _
  unfold execIdleFlit
  rw [active, if_neg (by decide), damaged]
  rfl

theorem exec_nak_bad (damaged : flitGood b bad = false) : exec (.nak p b bad third) s = .next (s.fxBad p) := by
  show execNak p b bad third s = _
  unfold execNak
  rw [active, if_neg (by decide), damaged]
  rfl

/-! ### Good flits (08 R239) -/

/-- A port once a flit's acknowledgement and credits have come. -/
def FxPort.heard (x : FxPort) (b : List Byte) : FxPort :=
  (x.acked (flitHead b 21 12)).credited (flitHead b 7 6) (flitHead b 5 0)

theorem exec_dataFlit_good (good : flitGood b bad = true) (kind : flitHead b 9 8 = 0) : exec (.dataFlit p b bad) s = .next (
    if flitHead b 31 22 = (s.port p).rseq then
      ((s.setPort p (FxPort.heard { s.port p with rseq := ((s.port p).rseq + 1) % 1024, discard := false } b)).fxTake p
        (flitHead b 11 10) (sliceB b 4 248)).fxPump p
    else if ((s.port p).rseq + 1024 - flitHead b 31 22) % 1024 ≤ 512 then
      (s.setPort p ((s.port p).acked (flitHead b 21 12))).fxPump p
    else s.fxBad p) := by
  show execDataFlit p b bad s = _
  unfold execDataFlit
  rw [active, if_neg (by decide), good, if_neg (by decide)]
  dsimp only
  rw [if_neg (by rw [show bitsOf (leAt b 0 4) 9 8 = 0 from kind]; decide)]
  simp only [apply_ite Host.Outcome.next]
  rfl

theorem exec_idleFlit_good (good : flitGood b bad = true) (kind : flitHead b 9 8 = 1) :
    exec (.idleFlit p b bad) s = .next ((s.setPort p ((s.port p).heard b)).fxPump p) := by
  show execIdleFlit p b bad s = _
  unfold execIdleFlit
  rw [active, if_neg (by decide), good, if_neg (by decide)]
  dsimp only
  rw [if_neg (by rw [show bitsOf (leAt b 0 4) 9 8 = 1 from kind]; decide)]
  rfl

theorem exec_nak_good (good : flitGood b bad = true) (kind : flitHead b 9 8 = 2) :
    exec (.nak p b bad third) s = .next ((s.setPort p ((s.port p).heard b)).fxReplay p third) := by
  show execNak p b bad third s = _
  unfold execNak
  rw [active, if_neg (by decide), good, if_neg (by decide)]
  dsimp only
  rw [if_neg (by rw [show bitsOf (leAt b 0 4) 9 8 = 2 from kind]; decide)]
  rfl

theorem exec_dataFlit_beyond (beyond : flitGood b bad = false ∨
    (flitHead b 9 8 = 0 ∧ 512 < ((s.port p).rseq + 1024 - flitHead b 31 22) % 1024)) :
    exec (.dataFlit p b bad) s = .next (s.fxBad p) := by
  rcases damaged : flitGood b bad with _ | _
  · exact exec_dataFlit_bad active damaged
  · obtain ⟨kind, gap⟩ := beyond.resolve_left (by rw [damaged]; decide)
    rw [exec_dataFlit_good active damaged kind, if_neg (by rintro seq; rw [seq] at gap; omega), if_neg (Nat.not_le_of_lt gap)]

end

/-- An acknowledgement changes what is not acknowledged, what of it is sent again, and the replays without progress. -/
theorem acked_changes (x : FxPort) (a : Nat) : ∃ m n l, x.acked a = { x with unack := m, replays := n, replay := l } ∧
    (x.replay = [] → l = []) := by
  unfold FxPort.acked
  split
  · exact ⟨_, _, _, rfl, fun h => by rw [h]; rfl⟩
  · exact ⟨x.unack, x.replays, x.replay, rfl, id⟩

theorem credited_changes (x : FxPort) (vl n : Nat) : ∃ c, x.credited vl n = { x with credits := c } := by
  unfold FxPort.credited
  split <;> exact ⟨_, rfl⟩

theorem heard_changes (x : FxPort) (b : List Byte) : ∃ c m n l,
    x.heard b = { x with credits := c, unack := m, replays := n, replay := l } ∧ (x.replay = [] → l = []) := by
  obtain ⟨m, n, l, acked, idle⟩ := acked_changes x (flitHead b 21 12)
  obtain ⟨c, credited⟩ := credited_changes (x.acked (flitHead b 21 12)) (flitHead b 7 6) (flitHead b 5 0)
  exact ⟨c, m, n, l, by rw [FxPort.heard, credited, acked], idle⟩

end

/-! ### Packet bytes (08 R242, R243) -/

theorem pktRefused_congr {s t : State} (h : t.regs = s.regs) (l : List Byte) (vl : Nat) (k : FxPkt) :
    t.pktRefused l vl k = s.pktRefused l vl k := by
  rw [State.pktRefused, State.pktRefused, fxQuiet_congr h]

section
variable {s : State} {p vl : Nat} {body l : List Byte} (bytes : Tab.get [] (s.port p).asm vl ++ body = l)
include bytes

theorem fxTake_part (part : l.length < 248 * flitsOf (32 + leAt l 4 4)) :
    (s.fxTake p vl body).port p = { s.port p with asm := Tab.put [] (s.port p).asm vl l } := by
  unfold State.fxTake
  dsimp only
  rw [bytes, if_pos part, State.port_setPort_same]

theorem fxTake_whole (whole : 248 * flitsOf (32 + leAt l 4 4) ≤ l.length) (accepted : s.pktRefused l vl (pktOf l) = none) :
    (s.fxTake p vl body).port p =
      { s.port p with asm := Tab.put [] (s.port p).asm vl [], rx := (s.port p).rx ++ [pktOf l] } := by
  have accepted' (x : FxPort) : (s.setPort p x).pktRefused l vl (pktOf l) = none := (pktRefused_congr rfl ..).trans accepted
  unfold State.fxTake
  dsimp only
  rw [bytes, if_neg (Nat.not_lt_of_le whole), accepted']
  dsimp only
  rw [State.port_setPort_same, State.port_setPort_same]

end

/-! ### DATA flits in order, and ones received before (08 R240, R242) -/

/-- A port that acts on the header of the DATA flit that it expects. -/
def State.hears (s : State) (p : Nat) (b : List Byte) : State :=
  s.setPort p (FxPort.heard { s.port p with rseq := ((s.port p).rseq + 1) % 1024, discard := false } b)

theorem port_hears (s : State) (p : Nat) (b : List Byte) : ∃ c m n l, (s.hears p b).port p = { s.port p with
    rseq := ((s.port p).rseq + 1) % 1024, discard := false, credits := c, unack := m, replays := n, replay := l } := by
  obtain ⟨c, m, n, l, heard, -⟩ := heard_changes { s.port p with rseq := ((s.port p).rseq + 1) % 1024, discard := false } b
  exact ⟨c, m, n, l, (State.port_setPort_same ..).trans heard⟩

/-- What a DATA flit in order leaves, the port's packets then being `rx` and the bytes of packets that are not whole `asm`. -/
structure Accepted (s : State) (p : Nat) (asm : Tab (List Byte)) (rx : List FxPkt) (t : State) : Prop where
  asm : (t.port p).asm = asm
  rx : (t.port p).rx = rx
  rseq : (t.port p).rseq = ((s.port p).rseq + 1) % 1024
  discard : (t.port p).discard = false
  mem : t.mem = s.mem
  eng : t.eng = s.eng

section
variable {s : State} {p : Fin 4} {b : List Byte} (active : s.fxState p = 5) (good : flitGood b false = true)
  (kind : flitHead b 9 8 = 0)
include active good kind

theorem dataFlit_again (old : flitHead b 31 22 ≠ (s.port p).rseq)
    (near : ((s.port p).rseq + 1024 - flitHead b 31 22) % 1024 ≤ 512) (unsent : (s.port p).txq = [])
    (idle : (s.port p).replay = []) : Completes (.dataFlit p b false) s (fun t =>
      t.port p = (s.port p).acked (flitHead b 21 12) ∧ t.out = s.out ∧ t.mem = s.mem ∧ t.eng = s.eng) := by
  have run := exec_dataFlit_good active good kind
  obtain ⟨m, n, l, acked, idle'⟩ := acked_changes (s.port p) (flitHead b 21 12)
  rw [if_neg old, if_pos near, fxPump_nothing (by rw [State.port_setPort_same, acked]; exact unsent)
    (by rw [State.port_setPort_same, acked]; exact idle' idle)] at run
  exact completes_of_next run ⟨State.port_setPort_same .., rfl, rfl, rfl⟩

/-- A DATA flit in order is taken, and what waits is sent. -/
theorem dataFlit_accepted (inOrder : flitHead b 31 22 = (s.port p).rseq) {asm : Tab (List Byte)} {rx : List FxPkt}
    (took : ((s.hears p b).fxTake p (flitHead b 11 10) (sliceB b 4 248)).port p =
      { (s.hears p b).port p with asm := asm, rx := rx }) :
    Completes (.dataFlit p b false) s (Accepted s p asm rx) := by
  have run := exec_dataFlit_good active good kind
  rw [if_pos inOrder] at run
  have sends := sends_fxPump ((s.hears p b).fxTake p (flitHead b 11 10) (sliceB b 4 248)) p
  obtain ⟨c, m, n, l, heard⟩ := port_hears s p b
  rw [heard] at took
  refine completes_of_next run ⟨?_, ?_, ?_, ?_, ?_, ?_⟩
  · exact sends.asm.trans (by rw [took])
  · exact sends.rx.trans (by rw [took])
  · exact sends.rseq.trans (by rw [took])
  · exact sends.discard.trans (by rw [took])
  · simp only [kept @State.fxPump_fr, kept @State.fxTake_fr]; rfl
  · simp only [kept @State.fxPump_fr, kept @State.fxTake_fr]; rfl

variable (inOrder : flitHead b 31 22 = (s.port p).rseq) {l : List Byte}
  (bytes : Tab.get [] (s.port p).asm (flitHead b 11 10) ++ sliceB b 4 248 = l)
include inOrder bytes

theorem dataFlit_part (part : l.length < 248 * flitsOf (32 + leAt l 4 4)) : Completes (.dataFlit p b false) s
    (Accepted s p (Tab.put [] (s.port p).asm (flitHead b 11 10) l) (s.port p).rx) := by
  refine dataFlit_accepted active good kind inOrder ?_
  obtain ⟨_, _, _, _, heard⟩ := port_hears s p b
  rw [fxTake_part (by rw [heard]; exact bytes) part, heard]

theorem dataFlit_whole (whole : 248 * flitsOf (32 + leAt l 4 4) ≤ l.length)
    (accepted : s.pktRefused l (flitHead b 11 10) (pktOf l) = none) : Completes (.dataFlit p b false) s
      (Accepted s p (Tab.put [] (s.port p).asm (flitHead b 11 10) []) ((s.port p).rx ++ [pktOf l])) := by
  refine dataFlit_accepted active good kind inOrder ?_
  obtain ⟨_, _, _, _, heard⟩ := port_hears s p b
  have accepted' : (s.hears p b).pktRefused l (flitHead b 11 10) (pktOf l) = none := (pktRefused_congr rfl ..).trans accepted
  rw [fxTake_whole (by rw [heard]; exact bytes) whole accepted', heard]

end

/-! ### IDLE flits, NAKs and timeouts (08 R239, R240) -/

theorem idleFlit_heard {s : State} {p : Fin 4} {b : List Byte} (active : s.fxState p = 5) (good : flitGood b false = true)
    (kind : flitHead b 9 8 = 1) (unsent : (s.port p).txq = []) (idle : (s.port p).replay = []) :
    Completes (.idleFlit p b false) s (fun t =>
      t.port p = (s.port p).heard b ∧ t.out = s.out ∧ t.mem = s.mem ∧ t.eng = s.eng) := by
  have run := exec_idleFlit_good active good kind
  obtain ⟨c, m, n, l, heard, idle'⟩ := heard_changes (s.port p) b
  rw [fxPump_nothing (by rw [State.port_setPort_same, heard]; exact unsent)
    (by rw [State.port_setPort_same, heard]; exact idle' idle)] at run
  exact completes_of_next run ⟨State.port_setPort_same .., rfl, rfl, rfl⟩

/-- From state `s`, port `p`, which then was `x`, has sent its unacknowledged flits again, once more without progress. -/
def Resent (s : State) (p : Nat) (x : FxPort) (t : State) : Prop :=
  t.port p = { x with
    replays := x.replays + 1, replay := [], lim := x.lim - 64 * (x.unack.filter (fun f => f.2.vl == 1)).length,
    line := (t.port p).line } ∧
  t.sent = s.sent ++ x.resent p ∧ t.fxState p = 5

section
variable {s : State} {p : Nat} {x : FxPort}

theorem sendsAgain_fxResend (active : s.fxState p = 5) (none' : (s.port p).ret = []) (unsent : (s.port p).txq = [])
    (enough : respUnits (s.port p).unack ≤ (s.port p).lim) : SendsAgain s p (s.port p).unack (s.fxResend p) := by
  have ready := State.port_setPort_same s p { s.port p with replay := (s.port p).unack }
  have count : (s.port p).unack.length + (s.port p).txq.length = (s.port p).unack.length := by rw [unsent]; rfl
  have turns := fxPump_eq_turns (s.setPort p { s.port p with replay := (s.port p).unack }) p
  obtain ⟨port, sent, state⟩ := sendsAgain_turns (s.port p).unack (s.setPort p { s.port p with replay := (s.port p).unack })
    active (by rw [ready]) (by rw [ready]; exact none') (by rw [ready]; exact enough)
  rw [ready] at turns port sent
  dsimp only at turns
  rw [count] at turns
  rw [State.fxResend, turns]
  exact ⟨port, sent, state⟩

theorem resent_fxReplay (active : s.fxState p = 5) (port : s.port p = x) (none' : x.ret = []) (some' : x.unack ≠ [])
    (unsent : x.txq = []) (enough : respUnits x.unack ≤ x.lim) (few : x.replays < 7) (third : Bool) :
    Resent s p x (s.fxReplay p third) := by
  have again : s.fxReplay p third = (s.setPort p { x with replays := x.replays + 1 }).fxResend p := by
    unfold State.fxReplay
    dsimp only
    rw [port, if_neg (by simpa using some'), if_neg (by omega)]
  have ready := State.port_setPort_same s p { x with replays := x.replays + 1 }
  obtain ⟨port', sent, state⟩ := sendsAgain_fxResend (s := s.setPort p { x with replays := x.replays + 1 }) active
    (by rw [ready]; exact none') (by rw [ready]; exact unsent) (by rw [ready]; exact enough)
  rw [ready] at port' sent
  rw [again]
  exact ⟨port', sent, state⟩

theorem fxReplay_nothing (known : (s.port p).unack = []) (third : Bool) : s.fxReplay p third = s := by
  unfold State.fxReplay
  dsimp only
  rw [known]
  rfl

/-- The eighth replay without progress is followed by RETRAIN, or by DOWN (08 R240). -/
theorem fxReplay_eighth (some' : (s.port p).unack ≠ []) (many : 7 ≤ (s.port p).replays) (third : Bool) :
    s.fxReplay p third = (s.fxResend p).fxRetrain p third := by
  unfold State.fxReplay
  dsimp only
  rw [if_neg (by simpa using some'), if_pos (by omega)]

end

section
variable {s : State} {p : Fin 4} (active : s.fxState p = 5)
include active

theorem exec_replayTimeout_active (third : Bool) : exec (.replayTimeout p third) s = .next (s.fxReplay p third) := by
  show execReplayTimeout p third s = _
  unfold execReplayTimeout
  rw [if_pos active]

variable (some' : (s.port p).unack ≠ []) (many : 7 ≤ (s.port p).replays)
include some' many

theorem replayTimeout_retrains (unsent : (s.port p).txq = []) : Completes (.replayTimeout p false) s (fun t =>
    t.fxState p = 6 ∧ (t.port p).replays = 0 ∧ (t.port p).unack = (s.port p).unack) := by
  have run := exec_replayTimeout_active active false
  rw [fxReplay_eighth some' many] at run
  have sends := sends_fxResend s p
  have clocked : (s.fxResend p).mode ≠ MD.bufferStop := by
    rw [sends.mode]
    exact clocked_of_fxState (p := p) (by rw [active]; decide)
  generalize s.fxResend p = u at run sends clocked
  have port : ((u.fxRetrain p false).port p) = { u.port p with replays := 0 } := State.port_setPort_same ..
  refine completes_of_next run ⟨?_, ?_, ?_⟩
  · exact fxState_wr_state (s := (u.setPort p _).satF (Reg.FX_STATUS p) F.FX_STATUS_RETRAINS 1)
      (by rw [State.satF, mode_wr_fxStatus]; exact clocked) (by decide)
  · rw [port]
  · rw [port]
    exact (sends.unsent unsent).2.1

theorem replayTimeout_down : Completes (.replayTimeout p true) s (fun t =>
    t.fxState p = 0 ∧ t.rd (Reg.FX_STATUS p) F.FX_STATUS_DOWN_CAUSE = 5 ∧ t.wires = s.wires ++ [293 + p.val]) := by
  have run := exec_replayTimeout_active active true
  rw [fxReplay_eighth some' many] at run
  have wires : (s.fxResend p).wires = s.wires := by simp only [kept @State.fxResend_fr]
  have sends := sends_fxResend s p
  generalize s.fxResend p = u at run sends wires
  obtain ⟨down, cause, -, event⟩ := wentDown_finxisDown (s := u.setPort p { u.port p with replays := 0 }) (p := p) (cause := 5)
    (by rw [fxState_setPort, sends.fxState, active]; decide) (by decide)
  exact completes_of_next run ⟨down, cause, event.trans (congrArg (· ++ [293 + p.val]) wires)⟩

end

/-! ### Every step of a port's link -/

/-- Settles O42: each training step, flit and timeout has its effect on the port's link, by the lemma of its case. -/
theorem finxisLinkComplete : Obligations.FinxisLinkComplete := by
  unfold Obligations.FinxisLinkComplete
  refine ⟨?detect, ?every, ?lower, ?upper, ?neither, ?align, ?retrain, ?late, ?lateRetrain, ?resumes, ?retrained, ?begins,
    ?refused, ?whole, ?part, ?again, ?badData, ?badIdle, ?badNak, ?discarding, ?idle, ?nak, ?timeout, ?nothing, ?eighth, ?third⟩
  case detect => exact fun s p lanes detect => trainingStep_detected detect
  case every => exact fun s p lanes equalise all => trainingStep_equalised equalise (fxWidth_all all) (by decide)
  case lower =>
    exact fun s p lanes equalise some' lower => trainingStep_equalised equalise (fxWidth_lower some' lower) (by decide)
  case upper =>
    exact fun s p lanes equalise lower upper => trainingStep_equalised equalise (fxWidth_upper lower upper) (by decide)
  case neither => exact fun s p lanes trains lower upper => trainingStep_unequalised trains (fxWidth_none lower upper)
  case align => exact fun s p lanes align => trainingStep_aligned align
  case retrain => exact fun s p lanes w up retrain width => trainingStep_retrained retrain width
  case late => exact fun s p least most => trainingTimeout_down (.inl ⟨least, most, rfl⟩)
  case lateRetrain => exact fun s p retrain => trainingTimeout_down (.inr ⟨retrain, rfl⟩)
  case resumes =>
    exact fun s p c0 c1 c2 sess caps last least0 least1 least2 => capabilityWord_resumes least0 least1 least2 caps last
  case retrained =>
    exact fun s p c0 c1 c2 sess retrain last least0 least1 least2 =>
      capabilityWord_retrained least0 least1 least2 retrain last
  case begins =>
    exact fun s p c0 c1 c2 sess trains other nothing least0 least1 least2 =>
      capabilityWord_begins least0 least1 least2 trains other nothing
  case refused => exact fun s p v c0 c1 c2 sess trains bad => capabilityWord_refused trains bad
  case whole =>
    rintro s p b l k active good kind inOrder bytes whole rfl accepted
    exact completes_mono (dataFlit_whole active good kind inOrder bytes whole accepted)
      fun t ⟨_, rx, rseq, discard, mem, eng⟩ => ⟨rx, rseq, discard, mem, eng⟩
  case part =>
    intro s p b l active good kind inOrder bytes part
    refine completes_mono (dataFlit_part active good kind inOrder bytes part)
      fun t ⟨asm, rx, rseq, discard, mem, eng⟩ => ⟨?_, rx, rseq, discard, mem, eng⟩
    rw [asm, Tab.get_put_same]
  case again =>
    exact fun s p b active good kind old near unsent idle => dataFlit_again active good kind old near unsent idle
  case badData =>
    exact fun s p b bad x cv cn active beyond first taken =>
      completes_nakked (exec_dataFlit_beyond active beyond) first taken
  case badIdle =>
    exact fun s p b bad x cv cn active damaged first taken => completes_nakked (exec_idleFlit_bad active damaged) first taken
  case badNak =>
    exact fun s p b bad third x cv cn active damaged first taken => completes_nakked (exec_nak_bad active damaged) first taken
  case discarding =>
    exact fun s p b bad active damaged discarding =>
      completes_of_next (exec_dataFlit_bad active damaged) (fxBad_discarding discarding)
  case idle => exact fun s p b active good kind unsent idle => idleFlit_heard active good kind unsent idle
  case nak =>
    rintro s p b x third active good kind none' rfl some' unsent enough few
    obtain ⟨c, m, n, l, heard, -⟩ := heard_changes (s.port p) b
    refine completes_of_next (exec_nak_good active good kind) ?_
    exact resent_fxReplay (s := s.setPort p ((s.port p).heard b)) active (State.port_setPort_same ..)
      (by rw [heard]; exact none') some' unsent enough few third
  case timeout =>
    exact fun s p x third active port none' some' unsent enough few =>
      completes_of_next (exec_replayTimeout_active active third) (resent_fxReplay active port none' some' unsent enough few third)
  case nothing =>
    exact fun s p third active known =>
      completes_of_next (exec_replayTimeout_active active third) (fxReplay_nothing known third)
  case eighth => exact fun s p active some' many unsent => replayTimeout_retrains active some' many unsent
  case third => exact fun s p active some' many => replayTimeout_down active some' many

end Sys2Proof.Machine
end

section
/-! PROOFS. When package memory, MRAM and flash are canonical (09 R274, 20 R478; O5), and what keeps them so: an operation that leaves the
three tables alone by its frame theorem, one that calls others by theirs. -/

namespace Sys2Proof.Machine
open Sys2Proof State

/-- Memory, MRAM and flash are canonical: `State.memoryWf` by its parts. -/
structure State.Canon (s : State) : Prop where
  mem : Tab.wf 0 s.mem = true
  mram : Tab.wf 0 s.mram = true
  flash : Tab.wf erased s.flash = true

theorem State.canon_iff {s : State} : s.Canon ↔ s.memoryWf = true := by
  rw [State.memoryWf, Bool.and_eq_true, Bool.and_eq_true]
  exact ⟨fun ⟨hm, hr, hf⟩ => ⟨⟨hm, hr⟩, hf⟩, fun ⟨⟨hm, hr⟩, hf⟩ => ⟨hm, hr, hf⟩⟩

/-- A frame theorem of Laws/Frame names the flash second, and memory, the harts and MRAM next. -/
theorem State.Canon.frame {s t : State} {p q p' r : Prop} (h : p ∧ t.flash = s.flash ∧ q ∧ t.mem = s.mem ∧ p' ∧ t.mram = s.mram ∧ r)
    (hs : s.Canon) : t.Canon := by
  obtain ⟨-, hf, -, hm, -, hr, -⟩ := h
  exact ⟨hm ▸ hs.mem, hr ▸ hs.mram, hf ▸ hs.flash⟩

/-- The same where the operation may change the harts. -/
theorem State.Canon.frame' {s t : State} {p q r : Prop} (h : p ∧ t.flash = s.flash ∧ q ∧ t.mem = s.mem ∧ t.mram = s.mram ∧ r)
    (hs : s.Canon) : t.Canon := by
  obtain ⟨-, hf, -, hm, hr, -⟩ := h
  exact ⟨hm ▸ hs.mem, hr ▸ hs.mram, hf ▸ hs.flash⟩

/-- The state an operation with an answer leaves. -/
theorem State.Canon.of_snd {α : Type} {x : α × State} {a : α} {t : State} (e : x = (a, t)) (h : x.2.Canon) : t.Canon := by
  rw [e] at h; exact h

theorem State.Canon.of_snd_snd {α β : Type} {x : α × β × State} {a : α} {b : β} {t : State} (e : x = (a, b, t)) (h : x.2.2.Canon) :
     t.Canon := by
  rw [e] at h; exact h

theorem State.Canon.ite {c : Prop} [Decidable c] {a b : State} (ha : a.Canon) (hb : b.Canon) : (if c then a else b).Canon := by
  split <;> assumption

/-- The state a command answers. -/
theorem State.Canon.of_next {s t : State} (e : (.next s : Host.Outcome State Fault Refusal) = .next t) (h : s.Canon) : t.Canon := by
  rw [Host.Outcome.next.injEq] at e
  exact e ▸ h

theorem State.canon_upd {s : State} {regs wires aplicS aplicN imsic files dmg wq links coldOpt homes clusters net pkts credits fabric
    harts dbInval watch eng dm fx ctu pkg pmc fwLog resp out free pending} :
    (State.mk regs wires aplicS aplicN imsic files s.mem dmg wq links coldOpt homes clusters net pkts credits fabric harts dbInval watch
      eng dm fx ctu pkg pmc s.mram s.flash fwLog resp out free pending).Canon ↔ s.Canon :=
  ⟨fun h => ⟨h.mem, h.mram, h.flash⟩, fun h => ⟨h.mem, h.mram, h.flash⟩⟩

theorem foldl_canon {α : Type} {f : State → α → State} (hf : ∀ s a, s.Canon → (f s a).Canon) (l : List α) {s : State} (hs : s.Canon) :
    (l.foldl f s).Canon := by
  induction l generalizing s with
  | nil => exact hs
  | cons a t ih => exact ih (hf s a hs)

/-- A step that may stop keeps the canonical form. -/
def KeepsCanon {ε α : Type} (x : ExceptT ε (StateM State) α) : Prop := ∀ s, s.Canon → (x s).2.Canon

section
variable {ε α γ : Type}

theorem keepsCanon_bind {x : ExceptT ε (StateM State) α} {y : α → ExceptT ε (StateM State) γ} (hx : KeepsCanon x)
    (hy : ∀ a, KeepsCanon (y a)) : KeepsCanon (x >>= y) := by
  intro s hs
  have h := hx s hs
  show ((ExceptT.bindCont y (x s).1) (x s).2).2.Canon
  rcases hxs : x s with ⟨r, s1⟩
  rw [hxs] at h
  cases r with
  | error e => exact h
  | ok a => exact hy a s1 h

theorem keepsCanon_pure (a : α) : KeepsCanon (pure a : ExceptT ε (StateM State) α) := fun _ hs => hs

theorem keepsCanon_throw (e : ε) : KeepsCanon (throw e : ExceptT ε (StateM State) α) := fun _ hs => hs

theorem keepsCanon_get : KeepsCanon (get : ExceptT ε (StateM State) State) := fun _ hs => hs

theorem keepsCanon_askSt {f : State → α × State} (h : ∀ s, s.Canon → (f s).2.Canon) :
    KeepsCanon (askSt f : ExceptT ε (StateM State) α) := h

theorem keepsCanon_doSt {f : State → State} (h : ∀ s, s.Canon → (f s).Canon) :
    KeepsCanon (doSt f : ExceptT ε (StateM State) Unit) := h

theorem keepsCanon_forM {f : α → ExceptT ε (StateM State) PUnit} (h : ∀ a, KeepsCanon (f a)) (l : List α) : KeepsCanon (l.forM f) := by
  induction l with
  | nil => exact keepsCanon_pure _
  | cons a t ih => exact keepsCanon_bind (h a) (fun _ => ih)

theorem keepsCanon_foldlM {f : γ → α → ExceptT ε (StateM State) γ} (h : ∀ c a, KeepsCanon (f c a)) (l : List α) (c : γ) :
    KeepsCanon (l.foldlM f c) := by
  induction l generalizing c with
  | nil => exact keepsCanon_pure _
  | cons a t ih => exact keepsCanon_bind (h c a) (fun c => ih c)

theorem keepsCanon_mapM {f : α → ExceptT ε (StateM State) γ} (h : ∀ a, KeepsCanon (f a)) (l : List α) : KeepsCanon (l.mapM f) := by
  rw [← List.mapM'_eq_mapM]
  induction l with
  | nil => exact keepsCanon_pure _
  | cons a t ih => exact keepsCanon_bind (h a) (fun _ => keepsCanon_bind ih (fun _ => keepsCanon_pure _))

/-- The state a run of a step leaves. -/
theorem KeepsCanon.run {x : ExceptT ε (StateM State) α} (h : KeepsCanon x) {s : State} (hs : s.Canon) : (x.run s).2.Canon := h s hs

end

end Sys2Proof.Machine
end

section
/-! PROOFS. Operations that may write memory, MRAM or flash keep them canonical: state, memory and coherence (O5). -/

namespace Sys2Proof.Machine
open Sys2Proof State

/-! ### Ops -/

section
variable {s : State} (hs : s.Canon)
include hs

theorem State.setMram_canon (off : Nat) (l : List Byte) : (s.setMram off l).Canon :=
  ⟨hs.mem, putRun_wf _ _ _ hs.mram, hs.flash⟩

theorem State.logNow_canon (ty : Nat) (data : List Byte) : (s.logNow ty data).Canon := by
  unfold State.logNow
  dsimp only
  with_reducible (repeat' first | assumption | intro _ | apply setMram_canon | simp only [canon_upd])

theorem State.log_canon (ty : Nat) (data : List Byte) : (s.log ty data).Canon := by
  unfold State.log
  dsimp only
  with_reducible (repeat' first | assumption | intro _ | split | apply logNow_canon | simp only [canon_upd])

theorem State.viol_canon (kind : Nat) (who : Ident) (addr : Nat) : (s.viol kind who addr).Canon := by
  unfold State.viol
  dsimp only
  with_reducible (repeat'
    first | assumption | intro _ | split | apply logNow_canon | apply Canon.frame (wr_fr ..) | apply Canon.frame (wrs_fr ..))

theorem State.forAll_canon {n : Nat} {f : Nat → State → State} (hf : ∀ i s, s.Canon → (f i s).Canon) : (s.forAll n f).Canon :=
  foldl_canon (fun s i => hf i s) _ hs

end

/-! ### Flags -/

section
variable {s : State} (hs : s.Canon)
include hs

theorem State.fillErr_canon (r : ErrRec) (e : ErrInfo) (more : Nat) : (s.fillErr r e more).Canon := by
  unfold State.fillErr
  dsimp only
  with_reducible (repeat' first | assumption | intro _ | split | apply logNow_canon | apply Canon.frame (wrs_fr ..))

theorem State.recordErr_canon (r : ErrRec) (e : ErrInfo) : (s.recordErr r e).Canon := by
  unfold State.recordErr
  dsimp only
  with_reducible (repeat'
    first | assumption | intro _ | split | apply fillErr_canon | apply Canon.frame (satF_fr ..) | apply Canon.frame (wr_fr ..))

theorem State.recordMem_canon (m : Nat) (ue : Bool) (src : Nat) (devMask : Nat) (addr : Nat) :
    (s.recordMem m ue src devMask addr).Canon := by
  unfold State.recordMem
  dsimp only
  with_reducible (repeat'
    first | assumption | intro _ | split | apply logNow_canon | apply Canon.frame (raise_fr ..) | apply Canon.frame (wr_fr ..)
          | apply Canon.frame (wrs_fr ..))

theorem State.msi_canon (who : Ident) (f : Nat) (eiid : Nat) : (s.msi who f eiid).Canon := by
  unfold State.msi
  with_reducible (repeat'
    first | assumption | intro _ | split | apply Canon.frame (logFw_fr ..) | apply viol_canon | simp only [canon_upd])

theorem State.msiTo_canon (who : Ident) (addr : Nat) (eiid : Nat) : (s.msiTo who addr eiid).Canon := by
  unfold State.msiTo
  with_reducible (repeat' first | assumption | intro _ | split | apply msi_canon)

theorem State.aplicSend_canon (w : World) (target : Nat) : (s.aplicSend w target).Canon := by
  unfold State.aplicSend
  dsimp only
  with_reducible (repeat' first | assumption | intro _ | split | apply msi_canon | apply viol_canon)

theorem State.aplicDeliver_canon (w : World) (k : Nat) : (s.aplicDeliver w k).Canon := by
  unfold State.aplicDeliver
  dsimp only
  with_reducible (repeat' first | assumption | intro _ | split | apply aplicSend_canon | apply Canon.frame (setAplic_fr ..))

theorem State.present_canon (k : Nat) : (s.present k).Canon := by
  unfold State.present
  dsimp only
  with_reducible (repeat' first | assumption | intro _ | split | apply aplicDeliver_canon | apply Canon.frame (setAplic_fr ..))

end

/-! ### Memory -/

section
variable {s : State} (hs : s.Canon)
include hs

theorem State.setBytes_canon (pa : Nat) (l : List Byte) : (s.setBytes pa l).Canon :=
  ⟨putBytes_wf _ _ _ hs.mem, hs.mram, hs.flash⟩

theorem State.readMemLine_canon (ln : Nat) (src : Nat) (who : Option Ident) : (s.readMemLine ln src who).2.Canon := by
  unfold State.readMemLine
  dsimp only
  with_reducible (repeat'
    first | assumption | intro _ | split | apply Canon.frame (pmcMch_fr ..) | apply Canon.frame (queueWrite_fr ..) | apply recordMem_canon
          | apply Canon.frame (satF_fr ..) | apply Canon.frame (wakeChannel_fr ..))

theorem State.storeLine_canon (ln : Nat) (d : LineData) : (s.storeLine ln d).Canon := by
  unfold State.storeLine
  with_reducible (repeat' first | assumption | intro _ | split | apply setBytes_canon | apply Canon.frame (setDmg_fr ..))

theorem State.issueWrite_canon (w : WqEntry) : (s.issueWrite w).Canon := by
  unfold State.issueWrite
  dsimp only
  with_reducible (repeat'
    first | assumption | intro _ | split | apply Canon.frame (applyFlip_fr ..) | apply Canon.frame (pmcMem_fr ..)
          | apply readMemLine_canon | apply storeLine_canon | apply Canon.frame (wakeChannel_fr ..))

theorem State.readLineQ_canon (ln : Nat) (src : Nat) : (s.readLineQ ln src).2.Canon := by
  unfold State.readLineQ
  dsimp only
  with_reducible (repeat' first | assumption | intro _ | split | apply readMemLine_canon | simp only [canon_upd])

theorem State.writeLineNow_canon (w : WqEntry) : (s.writeLineNow w).Canon := by
  unfold State.writeLineNow
  dsimp only
  with_reducible (repeat' first | assumption | intro _ | apply issueWrite_canon | apply foldl_canon | simp only [canon_upd])

end

/-! ### Coherence -/

section
variable {s : State} (hs : s.Canon)
include hs

theorem State.onMsgs_canon {q p : Msg → Bool} {f : Msg → State → State} (hf : ∀ m s, s.Canon → (f m s).Canon) :
    (s.onMsgs q p f).Canon := by
  unfold State.onMsgs
  split
  · exact hs
  · exact hf _ _ (canon_upd.mpr hs)

theorem State.onMsg_canon {p : Msg → Bool} {f : Msg → State → State} (hf : ∀ m s, s.Canon → (f m s).Canon) :
    (s.onMsg p f).Canon := onMsgs_canon hs hf

theorem State.lineNow_canon (who : Ident) (ln : Nat) : (s.lineNow who ln).2.Canon := by
  unfold State.lineNow
  with_reducible (repeat' first | assumption | intro _ | split | apply Canon.frame (pmcMem_fr ..) | apply readLineQ_canon)

theorem State.readLine_canon (who : Ident) (ln : Nat) : (s.readLine who ln).2.2.Canon := by
  unfold State.readLine
  dsimp only
  with_reducible (repeat'
    first | assumption | intro _ | split | apply Canon.frame (checkAcc_fr ..) | apply lineNow_canon | dsimp only
          | refine Canon.of_snd (by assumption) ?_)

theorem State.overwrite_canon (who : Ident) (ln : Nat) (d : LineData) : (s.overwrite who ln d).Canon := by
  unfold State.overwrite
  dsimp only
  with_reducible (repeat'
    first | assumption | intro _ | split | apply Canon.frame' (takeBack_fr ..) | apply writeLineNow_canon | simp only [canon_upd])

theorem State.mergeWrite_canon (who : Ident) (ln : Nat) (data : List Byte) (mask : Nat) : (s.mergeWrite who ln data mask).Canon := by
  unfold State.mergeWrite
  dsimp only
  with_reducible (repeat'
    first | assumption | intro _ | split | apply Canon.frame (l3Alloc_fr ..) | apply lineNow_canon | apply overwrite_canon
          | apply Canon.frame' (takeBack_fr ..) | apply writeLineNow_canon)

theorem State.writeLine_canon (who : Ident) (ln : Nat) (data : List Byte) (mask : Nat) : (s.writeLine who ln data mask).2.Canon := by
  unfold State.writeLine
  with_reducible (repeat'
    first | assumption | intro _ | split | apply Canon.frame (checkAcc_fr ..) | apply mergeWrite_canon | apply overwrite_canon
          | dsimp only | refine Canon.of_snd (by assumption) ?_)

theorem State.homePull_canon (who : Ident) (pa : Nat) (write : Bool) : (s.homePull who pa write).Canon := by
  unfold State.homePull
  dsimp only
  with_reducible (repeat'
    first | assumption | intro _ | split | apply Canon.frame (l3Alloc_fr ..) | apply lineNow_canon | apply Canon.frame' (takeBack_fr ..))

omit hs in
theorem State.readGo_canon (who : Ident) (f pa n : Nat) {s : State} (hs : s.Canon) : (s.readGo who f pa n).2.Canon := by
  induction f generalizing s pa n with
  | zero => cases n <;> exact hs
  | succ f ih =>
    cases n with
    | zero => exact hs
    | succ n =>
      have hl := readLine_canon hs who (pa / 128)
      simp only [State.readGo]
      split <;> rename_i e <;> rw [e] at hl
      · exact ih _ _ hl
      · exact hl

theorem State.readPa_canon (who : Ident) (pa : Nat) (n : Nat) : (s.readPa who pa n).2.Canon := by
  unfold State.readPa
  with_reducible (repeat' first | assumption | intro _ | apply readGo_canon)

omit hs in
theorem State.writeGo_canon (who : Ident) (f pa : Nat) (l : List Byte) {s : State} (hs : s.Canon) : (s.writeGo who f pa l).2.Canon := by
  induction f generalizing s pa l with
  | zero => cases l <;> exact hs
  | succ f ih =>
    cases l with
    | nil => exact hs
    | cons b t =>
      unfold State.writeGo
      dsimp only
      split <;> rename_i e
      · exact ih _ _ (.of_snd e (writeLine_canon hs ..))
      · exact .of_snd e (writeLine_canon hs ..)

theorem State.writePa_canon (who : Ident) (pa : Nat) (l : List Byte) : (s.writePa who pa l).2.Canon := by
  unfold State.writePa
  with_reducible (repeat' first | assumption | intro _ | apply writeGo_canon)

end

/-! ### Sample -/

section
variable {s : State} (hs : s.Canon)
include hs

theorem State.sample_canon (who : Ident) (bytes : List Byte) : (s.sample who bytes).Canon := by
  unfold State.sample
  dsimp only
  with_reducible (repeat'
    first | assumption | intro _ | split | apply Canon.frame (addF_fr ..) | apply Canon.frame (satF_fr ..) | apply writePa_canon)

theorem State.tagStep_canon (hh : Nat) (va : Nat) (pa : Nat) (cause : Nat) : (s.tagStep hh va pa cause).Canon := by
  unfold State.tagStep
  dsimp only
  with_reducible (repeat'
    first | assumption | intro _ | split | apply Canon.frame' (chooseTag_fr ..) | apply Canon.frame (draw_fr ..) | apply sample_canon
          | apply Canon.frame' (setHart_fr ..))

theorem State.retireAt_canon (hh : Nat) (len : Nat) (va : Nat) (pa : Nat) : (s.retireAt hh len va pa).Canon := by
  unfold State.retireAt
  dsimp only
  with_reducible (repeat'
    first | assumption | intro _ | apply Canon.frame' (setHart_fr ..) | apply Canon.frame' (stepped_fr ..) | apply tagStep_canon)

theorem State.retire_canon (hh : Nat) (len : Nat) : (s.retire hh len).Canon := by
  unfold State.retire
  with_reducible (repeat' first | assumption | intro _ | apply retireAt_canon)

theorem State.except_canon (hh : Nat) (cause : Nat) (tval : Nat) : (s.except hh cause tval).Canon := by
  unfold State.except
  dsimp only
  with_reducible (repeat'
    first | assumption | intro _ | apply Canon.frame' (afterTrap_fr ..) | apply Canon.frame' (setHart_fr ..)
          | apply Canon.frame' (stepped_fr ..) | apply tagStep_canon | apply Canon.frame' (trap_fr ..))

theorem State.exceptG_canon (hh : Nat) (cause : Nat) (tval : Nat) (gpa : Nat) (walk : Bool) :
    (s.exceptG hh cause tval gpa walk).Canon := by
  unfold State.exceptG
  dsimp only
  with_reducible (repeat'
    first | assumption | intro _ | apply Canon.frame' (afterTrap_fr ..) | apply Canon.frame' (setHart_fr ..)
          | apply Canon.frame' (stepped_fr ..) | apply tagStep_canon | apply Canon.frame' (trapG_fr ..))

end

/-! ### ClusterOps -/

section
variable {s : State} (hs : s.Canon)
include hs

theorem State.finishAcc_canon (w : Wait) : (s.finishAcc w).Canon := by
  unfold State.finishAcc
  dsimp only
  with_reducible (repeat' first | assumption | intro _ | split | apply retireAt_canon | apply Canon.frame' (setHart_fr ..))

theorem State.abortAcc_canon (w : Wait) (cause : Nat) : (s.abortAcc w cause).Canon := by
  unfold State.abortAcc
  dsimp only
  with_reducible (repeat'
    first | assumption | intro _ | apply except_canon | apply Canon.frame (setCluster_fr ..) | apply Canon.frame' (setHart_fr ..))

theorem State.perform_canon (w : Wait) (l : L2Line) (age : Nat) : (s.perform w l age).2.Canon := by
  unfold State.perform
  dsimp only
  with_reducible (repeat'
    first | assumption | intro _ | split | apply abortAcc_canon | apply Canon.frame' (breakResv_fr ..) | apply finishAcc_canon
          | apply Canon.frame' (hev_fr ..) | apply Canon.frame (l1Access_fr ..) | apply recordErr_canon
          | apply Canon.frame (setCluster_fr ..) | apply Canon.frame' (setHart_fr ..))

theorem State.access_canon (w : Wait) : (s.access w).Canon := by
  unfold State.access
  dsimp only
  with_reducible (repeat'
    first | assumption | intro _ | split | apply Canon.frame (enqueue_fr ..) | apply Canon.frame' (evictLine_fr ..)
          | apply Canon.frame' (freeHeld_fr ..) | apply Canon.frame' (hev_fr ..) | apply perform_canon | apply Canon.frame (putLine_fr ..)
          | apply Canon.frame (trainNext_fr ..) | apply Canon.frame (trainStream_fr ..))

theorem State.performOldest_canon (c : Nat) (ln : Nat) (fill : Bool) : (s.performOldest c ln fill).Canon := by
  unfold State.performOldest
  dsimp only
  with_reducible (repeat'
    first | assumption | intro _ | split | apply perform_canon | apply Canon.frame (putLine_fr ..) | apply Canon.frame (setCluster_fr ..))

theorem State.retryWaits_canon (c : Nat) (ln : Nat) : (s.retryWaits c ln).Canon := by
  unfold State.retryWaits
  dsimp only
  with_reducible (repeat' first | assumption | intro _ | apply access_canon | apply Canon.frame (setCluster_fr ..) | apply foldl_canon)

theorem State.granted_canon (c : Nat) (ln : Nat) (g : Grant) (d : LineData) (who : Ident) (fill : Bool) :
    (s.granted c ln g d who fill).Canon := by
  unfold State.granted
  dsimp only
  with_reducible (repeat'
    first | assumption | intro _ | split | apply Canon.frame (askMore_fr ..) | apply Canon.frame' (freeHeld_fr ..)
          | apply Canon.frame' (installLine_fr ..) | apply performOldest_canon | apply retryWaits_canon
          | apply Canon.frame (setCluster_fr ..))

end

/-! ### FxOps -/

section
variable {s : State} (hs : s.Canon)
include hs

theorem State.fxData_canon (p ring seq w : Nat) (last : Bool) (f off : Nat) (l : List Byte) :
    (s.fxData p ring seq w last f off l).Canon :=
  ⟨by rw [State.fxData_mem]; exact hs.mem, by rw [State.fxData_mram]; exact hs.mram, by rw [State.fxData_flash]; exact hs.flash⟩

theorem State.stageWrite_canon (p : Nat) (off : Nat) (l : List Byte) : (s.stageWrite p off l).2.Canon := by
  unfold State.stageWrite
  with_reducible (repeat' first | assumption | intro _ | apply writePa_canon)

theorem State.stageRead_canon (p : Nat) (off : Nat) (n : Nat) : (s.stageRead p off n).2.Canon := by
  unfold State.stageRead
  with_reducible (repeat' first | assumption | intro _ | apply readPa_canon)

end

end Sys2Proof.Machine
end

section
/-! PROOFS. Operations that may write memory, MRAM or flash keep them canonical: the query engine and its data mover (O5). -/

namespace Sys2Proof.Machine
open Sys2Proof State

/-! ### EngOps -/

section
variable {s : State} (hs : s.Canon)
include hs

omit hs in
theorem fail_canon {α : Type} (st a : Nat) : KeepsCanon (fail st a : EM α) := by
  unfold fail
  with_reducible (repeat' first | assumption | intro _ | apply keepsCanon_pure | apply keepsCanon_throw)

omit hs in
theorem ensure_canon (b : Bool) (status : Nat) (addr : Nat) : KeepsCanon (ensure b status addr) := by
  unfold ensure
  with_reducible (repeat'
    first | assumption | intro _ | apply keepsCanon_pure | apply keepsCanon_throw | apply keepsCanon_get | split | apply fail_canon)

omit hs in
theorem xlate_canon (a : Who) (va : Nat) (write : Bool) : KeepsCanon (xlate a va write) := by
  unfold xlate
  with_reducible (repeat'
    first | assumption | intro _ | apply keepsCanon_bind | apply keepsCanon_pure | apply keepsCanon_throw | apply keepsCanon_get
          | apply keepsCanon_askSt | split | apply Canon.frame (lookupEte_fr ..) | apply ensure_canon | apply fail_canon)

omit hs in
theorem preadP_canon (ctx : Nat) (pa : Nat) (n : Nat) (va : Nat) : KeepsCanon (preadP ctx pa n va) := by
  unfold preadP
  with_reducible (repeat'
    first | assumption | intro _ | apply keepsCanon_bind | apply keepsCanon_pure | apply keepsCanon_throw | apply keepsCanon_get
          | apply keepsCanon_askSt | apply readPa_canon | apply ensure_canon)

omit hs in
theorem pread_canon (ctx : Nat) (pa : Nat) (n : Nat) (va : Nat) : KeepsCanon (pread ctx pa n va) := by
  unfold pread
  with_reducible (repeat'
    first | assumption | intro _ | apply keepsCanon_bind | apply keepsCanon_pure | apply keepsCanon_throw | apply keepsCanon_get
          | apply ensure_canon | apply preadP_canon)

omit hs in
theorem pwrite_canon (ctx : Nat) (pa : Nat) (l : List Byte) (va : Nat) : KeepsCanon (pwrite ctx pa l va) := by
  unfold pwrite
  with_reducible (repeat'
    first | assumption | intro _ | apply keepsCanon_bind | apply keepsCanon_pure | apply keepsCanon_throw | apply keepsCanon_get
          | apply keepsCanon_askSt | apply writePa_canon | apply ensure_canon)

omit hs in
theorem vread_canon (a : Who) (va : Nat) (n : Nat) : KeepsCanon (vread a va n) := by
  unfold vread
  with_reducible (repeat'
    first | assumption | intro _ | apply keepsCanon_bind | apply keepsCanon_pure | apply keepsCanon_throw | apply keepsCanon_get
          | apply keepsCanon_mapM | apply pread_canon | apply xlate_canon)

omit hs in
theorem vreadP_canon (a : Who) (va : Nat) (n : Nat) : KeepsCanon (vreadP a va n) := by
  unfold vreadP
  with_reducible (repeat'
    first | assumption | intro _ | apply keepsCanon_bind | apply keepsCanon_pure | apply keepsCanon_throw | apply keepsCanon_get
          | apply keepsCanon_mapM | apply preadP_canon | apply xlate_canon)

omit hs in
theorem preWrite_canon (a : Who) (va : Nat) (n : Nat) : KeepsCanon (preWrite a va n) := by
  unfold preWrite
  with_reducible (repeat'
    first | assumption | intro _ | apply keepsCanon_bind | apply keepsCanon_pure | apply keepsCanon_throw | apply keepsCanon_get
          | apply keepsCanon_forM | apply xlate_canon)

omit hs in
theorem vwrite_canon (a : Who) (va : Nat) (l : List Byte) : KeepsCanon (vwrite a va l) := by
  unfold vwrite
  with_reducible (repeat'
    first | assumption | intro _ | apply keepsCanon_bind | apply keepsCanon_pure | apply keepsCanon_throw | apply keepsCanon_get
          | apply keepsCanon_forM | apply pwrite_canon | apply xlate_canon)

theorem State.putFault_canon (c : Nat) (fr : List Byte) (ring : Nat) : (s.putFault c fr ring).Canon := by
  unfold State.putFault
  dsimp only
  with_reducible (repeat'
    first | assumption | intro _ | split | apply Canon.frame (pendCtx_fr ..) | apply Canon.frame (ringError_fr ..)
          | apply Canon.frame (setCtx_fr ..) | apply writePa_canon)

theorem State.tfault_canon (c : Nat) (ring : Nat) (seq : Nat) (slice : Nat) (va : Nat) (write : Bool) :
    (s.tfault c ring seq slice va write).Canon := by
  unfold State.tfault
  dsimp only
  with_reducible (repeat'
    first | assumption | intro _ | split | apply Canon.frame (State.eng'_fr ..) | apply putFault_canon | apply Canon.frame (setCtx_fr ..))

theorem State.freeFaults_canon (c : Nat) : (s.freeFaults c).Canon := by
  unfold State.freeFaults
  dsimp only
  with_reducible (repeat'
    first | assumption | intro _ | split | apply putFault_canon | apply Canon.frame (setCtx_fr ..) | apply foldl_canon)

theorem State.stallTask_canon (n : Nat) (va : Nat) (write : Bool) : (s.stallTask n va write).Canon := by
  unfold State.stallTask
  dsimp only
  with_reducible (repeat'
    first | assumption | intro _ | split | apply Canon.frame (pmcSlc_fr ..) | apply Canon.frame (setTask_fr ..) | apply tfault_canon)

theorem State.taskDo_canon {n : Nat} {m : Task → EM Unit} (hm : ∀ t, KeepsCanon (m t)) : (s.taskDo n m).Canon := by
  unfold State.taskDo
  split
  · exact hs
  · split
    · exact hs
    · have hr := fun t => (hm t).run hs
      split <;> rename_i e
      · exact .of_snd e (hr _)
      · exact stallTask_canon hs ..
      · exact .frame (failTask_fr ..) (.of_snd e (hr _))

omit hs in
theorem updTask_canon (n : Nat) (f : Task → Task) : KeepsCanon (updTask n f) := by
  unfold updTask
  with_reducible (repeat'
    first | assumption | intro _ | apply keepsCanon_bind | apply keepsCanon_pure | apply keepsCanon_throw | apply keepsCanon_get
          | apply keepsCanon_doSt | split | apply Canon.frame (setTask_fr ..))

omit hs in
theorem theTask_canon (n : Nat) (t : Task) : KeepsCanon (theTask n t) := by
  unfold theTask
  with_reducible (repeat'
    first | assumption | intro _ | apply keepsCanon_bind | apply keepsCanon_pure | apply keepsCanon_throw | apply keepsCanon_get)

theorem State.cbRecord_canon (n : Nat) (agg : Bool) (ln : Nat) (cls : Nat) (src : Nat) (who : Ident) :
    (s.cbRecord n agg ln cls src who).Canon := by
  unfold State.cbRecord
  dsimp only
  with_reducible (repeat' first | assumption | intro _ | split | apply Canon.frame (draw_fr ..) | apply recordErr_canon)

theorem State.cbCorrect_canon (n : Nat) (agg : Bool) (ln : Nat) (bits : List Nat) (src : Nat) (who : Ident) :
    (s.cbCorrect n agg ln bits src who).Canon := by
  unfold State.cbCorrect
  dsimp only
  with_reducible (repeat' first | assumption | intro _ | apply cbRecord_canon | apply Canon.frame (setBad_fr ..) | apply foldl_canon)

omit hs in
theorem cbMeet_canon (n : Nat) (ctx : Nat) (agg : Bool) (ln : Nat) (bits : List Nat) (uop : Nat) : KeepsCanon
    (cbMeet n ctx agg ln bits uop) := by
  unfold cbMeet
  with_reducible (repeat'
    first | assumption | intro _ | apply keepsCanon_bind | apply keepsCanon_pure | apply keepsCanon_throw | apply keepsCanon_get
          | apply keepsCanon_doSt | split | apply cbCorrect_canon | apply cbRecord_canon)

omit hs in
theorem cbRead_canon (n : Nat) (ctx : Nat) (agg : Bool) (rs : List (Nat × Nat)) (uop : Nat) : KeepsCanon (cbRead n ctx agg rs uop) := by
  unfold cbRead
  with_reducible (repeat'
    first | assumption | intro _ | apply keepsCanon_bind | apply keepsCanon_pure | apply keepsCanon_throw | apply keepsCanon_get
          | apply keepsCanon_forM | split | apply cbMeet_canon | dsimp only)

omit hs in
theorem cbStore_canon (n : Nat) (ctx : Nat) (agg : Bool) (rs : List (Nat × Nat)) (uop : Nat) : KeepsCanon (cbStore n ctx agg rs uop) := by
  unfold cbStore
  with_reducible (repeat'
    first | assumption | intro _ | apply keepsCanon_bind | apply keepsCanon_pure | apply keepsCanon_throw | apply keepsCanon_get
          | apply keepsCanon_forM | apply keepsCanon_doSt | split | apply Canon.frame (cbWrite_fr ..) | apply cbMeet_canon)

end

/-! ### EngDesc -/

section
variable {s : State} (hs : s.Canon)
include hs

theorem State.freeSpill_canon (d : Desc) (r : Run) : (s.freeSpill d r).Canon := by
  unfold State.freeSpill
  dsimp only
  with_reducible (repeat'
    first | assumption | intro _ | split | apply Canon.frame (State.eng'_fr ..) | apply readPa_canon
          | apply Canon.frame (spillCount_fr ..) | apply writePa_canon | apply foldl_canon)

theorem State.fetchOne_canon (n : Nat) {u : State} (h : s.fetchOne n = some u) : u.Canon := by
  unfold State.fetchOne at h
  dsimp only at h
  (repeat' split at h) <;> (try rw [Option.some.injEq] at h; subst h) <;> with_reducible (repeat'
    first | contradiction | apply readPa_canon | apply ringError_canon | apply startDesc_canon | apply Canon.frame (ringError_fr ..)
          | apply Canon.frame (startDesc_fr ..) | assumption)

theorem State.fetchUp_canon (n k : Nat) : (s.fetchUp n k).Canon := by
  refine foldl_canon (fun s _ hs => ?_) _ hs
  cases h : s.fetchOne n with
  | none => exact hs
  | some u => exact fetchOne_canon hs n h

theorem State.fetchMore_canon (n : Nat) : (s.fetchMore n).Canon := by
  unfold State.fetchMore
  with_reducible (repeat' first | assumption | intro _ | split | apply Canon.frame (fetchFx_fr ..) | apply fetchUp_canon)

theorem State.fetchAll_canon : s.fetchAll.Canon := by
  unfold State.fetchAll
  with_reducible (repeat' first | assumption | intro _ | apply fetchMore_canon | apply foldl_canon)

theorem State.doorbell_canon (n : Nat) (v : Nat) : (s.doorbell n v).Canon := by
  unfold State.doorbell
  dsimp only
  with_reducible (repeat'
    first | assumption | intro _ | split | apply fetchMore_canon | apply Canon.frame (ringError_fr ..) | apply Canon.frame (setRing_fr ..))

theorem State.readSlot_canon (n : Nat) : (s.readSlot n).Canon := by
  unfold State.readSlot
  dsimp only
  with_reducible (repeat'
    first | assumption | intro _ | split | apply doorbell_canon | apply readPa_canon | apply Canon.frame (ringError_fr ..))

theorem State.respond_canon (d : Desc) (p : Nat) (j : Nat) : (s.respond d p j).Canon := by
  unfold State.respond
  dsimp only
  with_reducible (repeat'
    first | assumption | intro _ | split | apply Canon.frame (fxDropped_fr ..) | apply Canon.frame (fxEnd_fr ..)
          | apply Canon.frame (fxInto_fr ..) | apply stageRead_canon | apply fxData_canon)

theorem State.letGo_canon (n : Nat) (seq : Nat) : (s.letGo n seq).Canon := by
  unfold State.letGo
  dsimp only
  with_reducible (repeat'
    first | assumption | intro _ | apply Canon.frame (drained_fr ..) | apply Canon.frame (State.eng'_fr ..) | apply fetchAll_canon
          | apply Canon.frame (freeImages_fr ..))

theorem State.fileRecord_canon (d : Desc) (j : Nat) : (s.fileRecord d j).Canon := by
  unfold State.fileRecord
  dsimp only
  with_reducible (repeat'
    first | assumption | intro _ | split | apply Canon.frame (addF_fr ..) | apply Canon.frame (holdRecord_fr ..) | apply msiTo_canon
          | apply Canon.frame (ringError_fr ..) | apply writePa_canon)

theorem State.freeRun_canon (d : Desc) : (s.freeRun d).Canon := by
  unfold State.freeRun
  with_reducible (repeat' first | assumption | intro _ | split | apply freeSpill_canon)

theorem State.putRecord_canon (d : Desc) : (s.putRecord d).Canon := by
  unfold State.putRecord
  dsimp only
  with_reducible (repeat'
    first | assumption | intro _ | split | apply Canon.frame (addF_fr ..) | apply fileRecord_canon | apply Canon.frame (fxEnd_fr ..)
          | apply Canon.frame (holdRecord_fr ..) | apply respond_canon)

theorem State.complete_canon (d : Desc) : (s.complete d).Canon := by
  unfold State.complete
  with_reducible (repeat' first | assumption | intro _ | apply freeRun_canon | apply letGo_canon | apply putRecord_canon)

end

/-! ### EngBatch -/

section
variable {s : State} (hs : s.Canon)
include hs

theorem State.taskOp_canon {n opc : Nat} {f : OpCtx → Task → Batch → EM Unit} (hf : ∀ c t b, KeepsCanon (f c t b)) :
    (s.taskOp n opc f).Canon := by
  refine taskDo_canon hs fun t => ?_
  (repeat' split) <;> [exact hf _ _ _; exact keepsCanon_pure _; exact keepsCanon_pure _]

omit hs in
theorem sealFlits_canon (n : Nat) : KeepsCanon (sealFlits n) := by
  unfold sealFlits
  with_reducible (repeat'
    first | assumption | intro _ | apply keepsCanon_pure | apply keepsCanon_throw | apply keepsCanon_get | apply keepsCanon_doSt
          | apply Canon.frame (sealed_fr ..))

omit hs in
theorem opDone_canon (n : Nat) (b : Batch) : KeepsCanon (opDone n b) := by
  unfold opDone
  with_reducible (repeat'
    first | assumption | intro _ | apply keepsCanon_bind | apply keepsCanon_pure | apply keepsCanon_throw | apply keepsCanon_get
          | apply sealFlits_canon | apply updTask_canon)

omit hs in
theorem strOf_canon (n : Nat) (t : Task) (c : Cell) : KeepsCanon (strOf n t c) := by
  unfold strOf
  with_reducible (repeat'
    first | assumption | intro _ | apply keepsCanon_bind | apply keepsCanon_pure | apply keepsCanon_throw | apply keepsCanon_get
          | apply keepsCanon_doSt | split | apply Canon.frame (pmcSlc_fr ..) | apply vread_canon)

omit hs in
theorem wholeCell_canon (n : Nat) (t : Task) (c : Cell) : KeepsCanon (wholeCell n t c) := by
  unfold wholeCell
  with_reducible (repeat'
    first | assumption | intro _ | apply keepsCanon_bind | apply keepsCanon_pure | apply keepsCanon_throw | apply keepsCanon_get
          | apply strOf_canon)

omit hs in
theorem forCompare_canon (n : Nat) (t : Task) (ty : Ty) (fold : Bool) (x : Cell) (y : Cell) : KeepsCanon
    (forCompare n t ty fold x y) := by
  unfold forCompare
  with_reducible (repeat'
    first | assumption | intro _ | apply keepsCanon_bind | apply keepsCanon_pure | apply keepsCanon_throw | apply keepsCanon_get | split
          | apply wholeCell_canon)

omit hs in
theorem cellOf_canon (a : Who) (ty : Ty) (ok : Bool) (v : Nat) (heap : Nat) : KeepsCanon (cellOf a ty ok v heap) := by
  unfold cellOf
  with_reducible (repeat'
    first | assumption | intro _ | apply keepsCanon_bind | apply keepsCanon_pure | apply keepsCanon_throw | apply keepsCanon_get | split
          | apply vread_canon | dsimp only)

omit hs in
theorem fetchStrings_canon (n : Nat) (t : Task) (uu : UOp) (ty : Ty) (x : Cell) (y : Cell) (z : Cell) : KeepsCanon
    (fetchStrings n t uu ty x y z) := by
  unfold fetchStrings
  with_reducible (repeat'
    first | assumption | intro _ | apply keepsCanon_bind | apply keepsCanon_pure | apply keepsCanon_throw | apply keepsCanon_get | split
          | apply forCompare_canon | apply wholeCell_canon)

omit hs in
theorem runUop_canon (n : Nat) (c : OpCtx) (t : Task) (b : Batch) (iu : Nat × UOp) : KeepsCanon (runUop n c t b iu) := by
  unfold runUop
  with_reducible (repeat'
    first | assumption | intro _ | apply keepsCanon_bind | apply keepsCanon_pure | apply keepsCanon_throw | apply keepsCanon_get
          | apply keepsCanon_mapM | split | apply cbRead_canon | apply cbStore_canon | apply fetchStrings_canon | dsimp only)

omit hs in
theorem runRange_canon (n : Nat) (c : OpCtx) (t : Task) (b : Batch) : KeepsCanon (runRange n c t b) := by
  unfold runRange
  with_reducible (repeat'
    first | assumption | intro _ | apply keepsCanon_pure | apply keepsCanon_throw | apply keepsCanon_get | apply keepsCanon_foldlM
          | apply runUop_canon)

omit hs in
theorem setSel_canon (n : Nat) (t : Task) (b : Batch) (f : Nat → Bool) : KeepsCanon (setSel n t b f) := by
  unfold setSel
  with_reducible (repeat'
    first | assumption | intro _ | apply keepsCanon_bind | apply keepsCanon_pure | apply keepsCanon_throw | apply keepsCanon_get
          | apply cbStore_canon)

omit hs in
theorem readRegs_canon (n : Nat) (c : OpCtx) (t : Task) : KeepsCanon (readRegs n c t) := by
  unfold readRegs
  with_reducible (repeat'
    first | assumption | intro _ | apply keepsCanon_bind | apply keepsCanon_pure | apply keepsCanon_throw | apply keepsCanon_get | split
          | apply cbRead_canon)

omit hs in
theorem writeRegs_canon (n : Nat) (c : OpCtx) (t : Task) (rs : List Nat) : KeepsCanon (writeRegs n c t rs) := by
  unfold writeRegs
  with_reducible (repeat'
    first | assumption | intro _ | apply keepsCanon_pure | apply keepsCanon_throw | apply keepsCanon_get | apply cbStore_canon)

omit hs in
theorem opFilter_canon (n : Nat) (c : OpCtx) (t : Task) (b : Batch) : KeepsCanon (opFilter n c t b) := by
  unfold opFilter
  with_reducible (repeat'
    first | assumption | intro _ | apply keepsCanon_bind | apply keepsCanon_pure | apply keepsCanon_throw | apply keepsCanon_get
          | apply opDone_canon | apply readRegs_canon | apply setSel_canon | apply runRange_canon)

omit hs in
theorem opProject_canon (n : Nat) (c : OpCtx) (t : Task) (b : Batch) : KeepsCanon (opProject n c t b) := by
  unfold opProject
  with_reducible (repeat'
    first | assumption | intro _ | apply keepsCanon_bind | apply keepsCanon_pure | apply keepsCanon_throw | apply keepsCanon_get
          | apply opDone_canon | apply runRange_canon)

omit hs in
theorem opHash_canon (n : Nat) (c : OpCtx) (t : Task) (b : Batch) : KeepsCanon (opHash n c t b) := by
  unfold opHash
  with_reducible (repeat'
    first | assumption | intro _ | apply keepsCanon_bind | apply keepsCanon_pure | apply keepsCanon_throw | apply keepsCanon_get
          | apply keepsCanon_mapM | split | apply opDone_canon | apply readRegs_canon | apply wholeCell_canon | apply writeRegs_canon
          | dsimp only)

omit hs in
theorem opMatch_canon (n : Nat) (c : OpCtx) (t : Task) (b : Batch) : KeepsCanon (opMatch n c t b) := by
  unfold opMatch
  with_reducible (repeat'
    first | assumption | intro _ | apply keepsCanon_bind | apply keepsCanon_pure | apply keepsCanon_throw | apply keepsCanon_get
          | apply keepsCanon_doSt | split | apply Canon.frame (pmcSlc_fr ..) | apply ensure_canon | apply opDone_canon
          | apply readRegs_canon | apply setSel_canon | apply writeRegs_canon)

omit hs in
theorem opLimit_canon (n : Nat) (c : OpCtx) (t : Task) (b : Batch) : KeepsCanon (opLimit n c t b) := by
  unfold opLimit
  with_reducible (repeat'
    first | assumption | intro _ | apply keepsCanon_bind | apply keepsCanon_pure | apply keepsCanon_throw | apply keepsCanon_get
          | apply keepsCanon_doSt | split | apply Canon.frame (endTasks_fr ..) | apply Canon.frame (updRun_fr ..) | apply cbRead_canon
          | apply opDone_canon | apply setSel_canon)

theorem State.batchSample_canon (n : Nat) (t : Task) (b : Batch) : (s.batchSample n t b).Canon := by
  unfold State.batchSample
  dsimp only
  with_reducible (repeat' first | assumption | intro _ | split | apply Canon.frame (draw_fr ..) | apply sample_canon)

omit hs in
theorem sinkRows_canon (n : Nat) (t : Task) (b : Batch) : KeepsCanon (sinkRows n t b) := by
  unfold sinkRows
  with_reducible (repeat'
    first | assumption | intro _ | apply keepsCanon_bind | apply keepsCanon_pure | apply keepsCanon_throw | apply keepsCanon_get
          | apply keepsCanon_doSt | split | apply batchSample_canon | apply Canon.frame (pmcSlc_fr ..) | apply updTask_canon)

omit hs in
theorem writeBits_canon (a : Who) (base : Nat) (bits : List (Nat × Bool)) : KeepsCanon (writeBits a base bits) := by
  unfold writeBits
  with_reducible (repeat'
    first | assumption | intro _ | apply keepsCanon_bind | apply keepsCanon_pure | apply keepsCanon_throw | apply keepsCanon_get
          | apply keepsCanon_forM | split | apply lineNow_canon | apply pwrite_canon | apply xlate_canon)

omit hs in
theorem emitGroup_canon (n : Nat) (c : OpCtx) (t : Task) (b : Batch) (g : Nat) (cols : List (Nat × Nat)) : KeepsCanon
    (emitGroup n c t b g cols) := by
  unfold emitGroup
  with_reducible (repeat'
    first | assumption | intro _ | apply keepsCanon_bind | apply keepsCanon_pure | apply keepsCanon_throw | apply keepsCanon_get
          | apply keepsCanon_forM | apply keepsCanon_mapM | apply keepsCanon_doSt | split | apply Canon.frame (updDesc_fr ..)
          | apply preWrite_canon | apply strOf_canon | apply vwrite_canon | apply writeBits_canon | dsimp only)

omit hs in
theorem opEmit_canon (n : Nat) (c : OpCtx) (t : Task) (b : Batch) : KeepsCanon (opEmit n c t b) := by
  unfold opEmit
  with_reducible (repeat'
    first | assumption | intro _ | apply keepsCanon_bind | apply keepsCanon_pure | apply keepsCanon_throw | apply keepsCanon_get
          | apply keepsCanon_forM | split | apply emitGroup_canon | apply opDone_canon | apply readRegs_canon | apply sinkRows_canon)

omit hs in
theorem putInline_canon (n : Nat) (c : OpCtx) (t : Task) (used : Nat) (bytes : List Byte) : KeepsCanon (putInline n c t used bytes) := by
  unfold putInline
  with_reducible (repeat'
    first | assumption | intro _ | apply keepsCanon_bind | apply keepsCanon_pure | apply keepsCanon_throw | apply keepsCanon_get
          | apply keepsCanon_askSt | split | apply stageWrite_canon | apply ensure_canon | apply preWrite_canon | apply vwrite_canon)

omit hs in
theorem opEmitInline_canon (n : Nat) (c : OpCtx) (t : Task) (b : Batch) : KeepsCanon (opEmitInline n c t b) := by
  unfold opEmitInline
  with_reducible (repeat'
    first | assumption | intro _ | apply keepsCanon_bind | apply keepsCanon_pure | apply keepsCanon_throw | apply keepsCanon_get
          | apply keepsCanon_doSt | split | apply Canon.frame (updDesc_fr ..) | apply opDone_canon | apply putInline_canon
          | apply readRegs_canon | apply sinkRows_canon | dsimp only)

end

/-! ### EngTable -/

section
variable {s : State} (hs : s.Canon)
include hs

omit hs in
theorem issue_canon (n : Nat) (c : OpCtx) (t : Task) (oper : Nat) (decl : Nat) (kind : BKind) (ovf : List Nat) (e : AggEnt) (pos : Nat) :
     KeepsCanon (issue n c t oper decl kind ovf e pos) := by
  unfold issue
  with_reducible (repeat'
    first | assumption | intro _ | apply keepsCanon_bind | apply keepsCanon_pure | apply keepsCanon_throw | apply keepsCanon_get
          | apply keepsCanon_mapM | apply keepsCanon_doSt | split | apply Canon.frame (State.eng'_fr ..) | apply xlate_canon)

omit hs in
theorem opBuild_canon (n : Nat) (c : OpCtx) (t : Task) (b : Batch) : KeepsCanon (opBuild n c t b) := by
  unfold opBuild
  with_reducible (repeat'
    first | assumption | intro _ | apply keepsCanon_bind | apply keepsCanon_pure | apply keepsCanon_throw | apply keepsCanon_get
          | apply keepsCanon_forM | split | apply issue_canon | apply opDone_canon | apply readRegs_canon | apply sinkRows_canon
          | dsimp only)

omit hs in
theorem probeSend_canon (n : Nat) (c : OpCtx) (t : Task) (p : ProbeSt) : KeepsCanon (probeSend n c t p) := by
  unfold probeSend
  with_reducible (repeat'
    first | assumption | intro _ | apply keepsCanon_bind | apply keepsCanon_pure | apply keepsCanon_throw | apply keepsCanon_get
          | apply keepsCanon_forM | split | apply cbRead_canon | apply issue_canon | apply sealFlits_canon)

omit hs in
theorem writeBatch_canon (n : Nat) (c : OpCtx) (t : Task) (b : Batch) : KeepsCanon (writeBatch n c t b) := by
  unfold writeBatch
  with_reducible (repeat'
    first | assumption | intro _ | apply keepsCanon_pure | apply keepsCanon_throw | apply keepsCanon_get | apply cbStore_canon)

omit hs in
theorem probeMake_canon (n : Nat) (c : OpCtx) (t : Task) (p : ProbeSt) (rest : List ProbeSt) : KeepsCanon (probeMake n c t p rest) := by
  unfold probeMake
  with_reducible (repeat'
    first | assumption | intro _ | apply keepsCanon_bind | apply keepsCanon_pure | apply keepsCanon_throw | apply keepsCanon_get | split
          | apply cbRead_canon | apply updTask_canon | apply writeBatch_canon | dsimp only)

omit hs in
theorem opProbe_canon (n : Nat) (c : OpCtx) (t : Task) (b : Batch) : KeepsCanon (opProbe n c t b) := by
  unfold opProbe
  with_reducible (repeat'
    first | assumption | intro _ | apply keepsCanon_bind | apply keepsCanon_pure | apply keepsCanon_throw | apply keepsCanon_get
          | apply probeMake_canon | apply probeSend_canon | apply readRegs_canon)

omit hs in
theorem probeOn_canon (n : Nat) (c : OpCtx) (t : Task) : KeepsCanon (probeOn n c t) := by
  unfold probeOn
  with_reducible (repeat'
    first | assumption | intro _ | apply keepsCanon_bind | apply keepsCanon_pure | apply keepsCanon_throw | apply keepsCanon_get | split
          | apply probeMake_canon | apply probeSend_canon)

omit hs in
theorem takeChunk_canon (t : Task) : KeepsCanon (takeChunk t) := by
  unfold takeChunk
  with_reducible (repeat'
    first | assumption | intro _ | apply keepsCanon_bind | apply keepsCanon_pure | apply keepsCanon_throw | apply keepsCanon_get
          | apply keepsCanon_askSt | split | apply Canon.frame (allocChunk_fr ..) | apply fail_canon)

omit hs in
theorem spillPartial_canon (t : Task) (d : TDecl) (e : AggEnt) : KeepsCanon (spillPartial t d e) := by
  unfold spillPartial
  with_reducible (repeat'
    first | assumption | intro _ | apply keepsCanon_bind | apply keepsCanon_pure | apply keepsCanon_throw | apply keepsCanon_get
          | apply keepsCanon_doSt | split | apply Canon.frame (updRun_fr ..) | apply pwrite_canon | apply takeChunk_canon | dsimp only)

omit hs in
theorem sendPartial_canon (n : Nat) (c : OpCtx) (t : Task) (oper : Nat) (decl : Nat) (ovf : List Nat) (e : AggEnt) : KeepsCanon
    (sendPartial n c t oper decl ovf e) := by
  unfold sendPartial
  with_reducible (repeat'
    first | assumption | intro _ | apply keepsCanon_bind | apply keepsCanon_pure | apply keepsCanon_throw | apply keepsCanon_get | split
          | apply issue_canon | apply spillPartial_canon)

omit hs in
theorem aggRead_canon (n : Nat) (t : Task) (ln : Nat) : KeepsCanon (aggRead n t ln) := by
  unfold aggRead
  with_reducible (repeat'
    first | assumption | intro _ | apply keepsCanon_pure | apply keepsCanon_throw | apply keepsCanon_get | apply cbRead_canon)

omit hs in
theorem aggPut_canon (n : Nat) (ln : Nat) (l : AggLine) : KeepsCanon (aggPut n ln l) := by
  unfold aggPut
  with_reducible (repeat'
    first | assumption | intro _ | apply keepsCanon_pure | apply keepsCanon_throw | apply keepsCanon_get | apply keepsCanon_doSt
          | apply Canon.frame (cbWrite_fr ..) | apply Canon.frame (setSlice_fr ..))

omit hs in
theorem aggRow_canon (n : Nat) (c : OpCtx) (t : Task) (d : TDecl) (e : AggEnt) (rn : Nat) : KeepsCanon (aggRow n c t d e rn) := by
  unfold aggRow
  with_reducible (repeat'
    first | assumption | intro _ | apply keepsCanon_bind | apply keepsCanon_pure | apply keepsCanon_throw | apply keepsCanon_get
          | apply keepsCanon_doSt | split | apply Canon.frame (pmcSlc_fr ..) | apply aggPut_canon | apply aggRead_canon
          | apply sendPartial_canon | dsimp only)

omit hs in
theorem opAggLocal_canon (n : Nat) (c : OpCtx) (t : Task) (b : Batch) : KeepsCanon (opAggLocal n c t b) := by
  unfold opAggLocal
  with_reducible (repeat'
    first | assumption | intro _ | apply keepsCanon_bind | apply keepsCanon_pure | apply keepsCanon_throw | apply keepsCanon_get
          | apply keepsCanon_forM | apply aggRow_canon | apply opDone_canon | apply readRegs_canon | apply sinkRows_canon)

omit hs in
theorem opAggHome_canon (n : Nat) (c : OpCtx) (t : Task) (b : Batch) : KeepsCanon (opAggHome n c t b) := by
  unfold opAggHome
  with_reducible (repeat'
    first | assumption | intro _ | apply keepsCanon_bind | apply keepsCanon_pure | apply keepsCanon_throw | apply keepsCanon_get
          | apply keepsCanon_forM | apply issue_canon | apply opDone_canon | apply readRegs_canon | apply sinkRows_canon)

omit hs in
theorem flushAgg_canon (n : Nat) (c : OpCtx) (t : Task) (oper : Nat) (decl : Nat) (ovf : List Nat) : KeepsCanon
    (flushAgg n c t oper decl ovf) := by
  unfold flushAgg
  with_reducible (repeat'
    first | assumption | intro _ | apply keepsCanon_bind | apply keepsCanon_pure | apply keepsCanon_throw | apply keepsCanon_get
          | apply keepsCanon_forM | apply keepsCanon_doSt | split | apply Canon.frame (setSlice_fr ..) | apply aggRead_canon
          | apply sealFlits_canon | apply sendPartial_canon)

theorem State.homeRead_canon (ctx : Nat) (pa : Nat) : (s.homeRead ctx pa).2.2.Canon := by
  unfold State.homeRead
  dsimp only
  with_reducible (repeat' first | assumption | intro _ | split | apply homePull_canon | apply readPa_canon)

theorem State.homeWrite_canon (ctx : Nat) (pa : Nat) (l : List Byte) : (s.homeWrite ctx pa l).2.Canon := by
  unfold State.homeWrite
  dsimp only
  with_reducible (repeat' first | assumption | intro _ | split | apply homePull_canon | apply writePa_canon)

theorem State.visitLine_canon (b : BOp) (k : Nat) : (s.visitLine b k).Canon := by
  unfold State.visitLine
  dsimp only
  with_reducible (repeat'
    first | assumption | intro _ | split | apply Canon.frame (bopEnd_fr ..) | apply homeRead_canon | apply homeWrite_canon
          | apply Canon.frame (pmcStop_fr ..) | apply Canon.frame (setBop_fr ..))

theorem State.bucketStep_canon (id : Nat) (kind : BKind → Bool) : (s.bucketStep id kind).Canon := by
  unfold State.bucketStep
  with_reducible (repeat' first | assumption | intro _ | split | apply visitLine_canon)

theorem State.linkChunk_canon (ctx : Nat) (last : Nat) (pa : Nat) : (s.linkChunk ctx last pa).2.Canon := by
  unfold State.linkChunk
  dsimp only
  with_reducible (repeat' first | assumption | intro _ | split | apply writePa_canon)

theorem State.fillChunk_canon (b : BOp) (anchor : List Byte) (pa : Nat) : (s.fillChunk b anchor pa).Canon := by
  unfold State.fillChunk
  dsimp only
  with_reducible (repeat'
    first | assumption | intro _ | split | apply Canon.frame (bopEnd_fr ..) | apply homeWrite_canon | apply linkChunk_canon
          | apply Canon.frame (updRun_fr ..))

theorem State.newChunk_canon (b : BOp) (anchor : List Byte) : (s.newChunk b anchor).Canon := by
  unfold State.newChunk
  with_reducible (repeat'
    first | assumption | intro _ | split | apply Canon.frame (allocChunk_fr ..) | apply Canon.frame (bopEnd_fr ..) | apply fillChunk_canon
          | simp only [canon_upd] | refine Canon.of_snd (by assumption) ?_)

theorem State.anchorStep_canon (b : BOp) : (s.anchorStep b).Canon := by
  unfold State.anchorStep
  dsimp only
  with_reducible (repeat'
    first | assumption | intro _ | split | apply Canon.frame (bopEnd_fr ..) | apply homeRead_canon | apply homeWrite_canon
          | apply newChunk_canon | apply Canon.frame (pmcStop_fr ..) | apply Canon.frame (setBop_fr ..))

theorem State.chunkStep_canon (b : BOp) (pa : Nat) (ln : Nat) (search : Bool) : (s.chunkStep b pa ln search).Canon := by
  unfold State.chunkStep
  dsimp only
  with_reducible (repeat'
    first | assumption | intro _ | split | apply Canon.frame (bopEnd_fr ..) | apply homeRead_canon | apply homeWrite_canon
          | apply newChunk_canon | apply Canon.frame (pmcStop_fr ..) | apply Canon.frame (setBop_fr ..))

end

/-! ### EngScan -/

section
variable {s : State} (hs : s.Canon)
include hs

theorem State.guardRecord_canon (front : Nat) (pa : Nat) (ue : Bool) (who : Ident) : (s.guardRecord front pa ue who).Canon := by
  unfold State.guardRecord
  dsimp only
  with_reducible (repeat'
    first | assumption | intro _ | split | apply recordErr_canon | apply recordMem_canon | apply Canon.frame (satF_fr ..))

omit hs in
theorem pageLine_canon (ctx : Nat) (pb : PageBuf) (k : Nat) : KeepsCanon (pageLine ctx pb k) := by
  unfold pageLine
  with_reducible (repeat'
    first | assumption | intro _ | apply keepsCanon_bind | apply keepsCanon_pure | apply keepsCanon_throw | apply keepsCanon_get
          | apply keepsCanon_askSt | split | apply readLine_canon | apply fail_canon)

omit hs in
theorem pageLines_canon (ctx : Nat) (pb : PageBuf) (ks : List Nat) : KeepsCanon (pageLines ctx pb ks) := by
  unfold pageLines
  with_reducible (repeat'
    first | assumption | intro _ | apply keepsCanon_bind | apply keepsCanon_pure | apply keepsCanon_throw | apply keepsCanon_get
          | apply keepsCanon_mapM | apply ensure_canon | apply pageLine_canon)

omit hs in
theorem heapRead_canon (a : Who) (pa : Nat) (va : Nat) (n : Nat) : KeepsCanon (heapRead a pa va n) := by
  unfold heapRead
  with_reducible (repeat'
    first | assumption | intro _ | apply keepsCanon_bind | apply keepsCanon_pure | apply keepsCanon_throw | apply keepsCanon_get
          | apply ensure_canon | apply vreadP_canon)

omit hs in
theorem heapRecs_canon (a : Who) (c : ColD) (pa : Nat) (page : List Byte) (blocks : List Nat) : KeepsCanon
    (heapRecs a c pa page blocks) := by
  unfold heapRecs
  with_reducible (repeat'
    first | assumption | intro _ | apply keepsCanon_bind | apply keepsCanon_pure | apply keepsCanon_throw | apply keepsCanon_get
          | apply keepsCanon_mapM | split | apply heapRead_canon)

omit hs in
theorem readBare_canon (a : Who) (c : ColD) (pb : PageBuf) (blocks : List Nat) (f : Nat) (who : Ident) : KeepsCanon
    (readBare a c pb blocks f who) := by
  unfold readBare
  with_reducible (repeat'
    first | assumption | intro _ | apply keepsCanon_bind | apply keepsCanon_pure | apply keepsCanon_throw | apply keepsCanon_get
          | apply keepsCanon_doSt | apply Canon.frame (pmcFront_fr ..) | apply heapRecs_canon | apply pageLines_canon)

theorem State.corrected_canon (f : Nat) (pa : Nat) (who : Ident) (raw : List Byte) (fixed : List Byte) :
    (s.corrected f pa who raw fixed).Canon := by
  unfold State.corrected
  dsimp only
  with_reducible (repeat'
    first | assumption | intro _ | apply Canon.frame (State.eng'_fr ..) | apply guardRecord_canon | apply Canon.frame (pmcFront_fr ..))

omit hs in
theorem readGuarded_canon (a : Who) (c : ColD) (pb : PageBuf) (blocks : List Nat) (f : Nat) (who : Ident) : KeepsCanon
    (readGuarded a c pb blocks f who) := by
  unfold readGuarded
  with_reducible (repeat'
    first | assumption | intro _ | apply keepsCanon_bind | apply keepsCanon_pure | apply keepsCanon_throw | apply keepsCanon_get
          | apply keepsCanon_doSt | split | apply corrected_canon | apply guardRecord_canon | apply Canon.frame (pmcFront_fr ..)
          | apply heapRecs_canon | apply pageLines_canon | apply fail_canon | dsimp only)

omit hs in
theorem readPage_canon (a : Who) (c : ColD) (pb : PageBuf) (blocks : List Nat) : KeepsCanon (readPage a c pb blocks) := by
  unfold readPage
  with_reducible (repeat'
    first | assumption | intro _ | apply keepsCanon_bind | apply keepsCanon_pure | apply keepsCanon_throw | apply keepsCanon_get
          | apply keepsCanon_doSt | split | apply Canon.frame (pmcFront_fr ..) | apply ensure_canon | apply readBare_canon
          | apply readGuarded_canon)

omit hs in
theorem sendSurvivors_canon (a : Who) (n : Nat) (c : OpCtx) (t : Task) (k : Nat) (blk : Nat) (front : Nat) (cd : ColD)
    (rows : List (Bool × Nat)) (bits : List Bool) (chain : Bool) : KeepsCanon (sendSurvivors a n c t k blk front cd rows bits chain) := by
  unfold sendSurvivors
  with_reducible (repeat'
    first | assumption | intro _ | apply keepsCanon_bind | apply keepsCanon_pure | apply keepsCanon_throw | apply keepsCanon_get
          | apply keepsCanon_mapM | apply keepsCanon_doSt | split | apply Canon.frame (State.eng'_fr ..)
          | apply Canon.frame (pmcFront_fr ..) | apply cellOf_canon)

omit hs in
theorem openPage_canon (n : Nat) (t : Task) (oper : Nat) (k : Nat) (page : Nat) (d : ColD) : KeepsCanon (openPage n t oper k page d) := by
  unfold openPage
  with_reducible (repeat'
    first | assumption | intro _ | apply keepsCanon_bind | apply keepsCanon_pure | apply keepsCanon_throw | apply keepsCanon_get
          | apply keepsCanon_doSt | apply Canon.frame (State.eng'_fr ..) | apply xlate_canon)

omit hs in
theorem startScan_canon (n : Nat) (c : OpCtx) (t : Task) : KeepsCanon (startScan n c t) := by
  unfold startScan
  with_reducible (repeat'
    first | assumption | intro _ | apply keepsCanon_bind | apply keepsCanon_pure | apply keepsCanon_throw | apply keepsCanon_get
          | apply keepsCanon_forM | split | apply openPage_canon | apply updTask_canon)

omit hs in
theorem releasePage_canon (n : Nat) (c : OpCtx) (t : Task) (k : Nat) (page : Nat) (pb : PageBuf) (d : ColD) : KeepsCanon
    (releasePage n c t k page pb d) := by
  unfold releasePage
  with_reducible (repeat'
    first | assumption | intro _ | apply keepsCanon_bind | apply keepsCanon_pure | apply keepsCanon_throw | apply keepsCanon_get
          | apply keepsCanon_forM | apply keepsCanon_doSt | split | apply Canon.frame (setPage_fr ..) | apply readPage_canon
          | apply sendSurvivors_canon)

omit hs in
theorem chainStep_canon (n : Nat) (c : OpCtx) (t : Task) (m : ChainMsg) : KeepsCanon (chainStep n c t m) := by
  unfold chainStep
  with_reducible (repeat'
    first | assumption | intro _ | apply keepsCanon_bind | apply keepsCanon_pure | apply keepsCanon_throw | apply keepsCanon_get
          | apply keepsCanon_doSt | split | apply Canon.frame (State.eng'_fr ..) | apply Canon.frame (takePage_fr ..)
          | apply sendSurvivors_canon)

omit hs in
theorem release_canon (n : Nat) (first : Nat) : KeepsCanon (release n first) := by
  unfold release
  with_reducible (repeat'
    first | assumption | intro _ | apply keepsCanon_bind | apply keepsCanon_pure | apply keepsCanon_throw | apply keepsCanon_get
          | apply keepsCanon_doSt | apply keepsCanon_askSt | split | apply Canon.frame (pmcSlc_fr ..) | apply Canon.frame (setTask_fr ..)
          | apply Canon.frame (tagBatch_fr ..) | apply cbStore_canon)

omit hs in
theorem pack_canon (n : Nat) (p : PipeI) (t : Task) (b : Batch) : KeepsCanon (pack n p t b) := by
  unfold pack
  with_reducible (repeat'
    first | assumption | intro _ | apply keepsCanon_bind | apply keepsCanon_pure | apply keepsCanon_throw | apply keepsCanon_get
          | apply keepsCanon_doSt | split | apply Canon.frame (pmcSlc_fr ..) | apply Canon.frame (setTask_fr ..) | apply cbStore_canon
          | dsimp only)

omit hs in
theorem batchOver_canon (n : Nat) (first : Nat) (t : Task) : KeepsCanon (batchOver n first t) := by
  unfold batchOver
  with_reducible (repeat'
    first | assumption | intro _ | apply keepsCanon_bind | apply keepsCanon_pure | apply keepsCanon_throw | apply keepsCanon_get | split
          | apply probeOn_canon | apply release_canon | apply updTask_canon)

omit hs in
theorem takeBlock_canon (n : Nat) (c : OpCtx) (t : Task) : KeepsCanon (takeBlock n c t) := by
  unfold takeBlock
  with_reducible (repeat'
    first | assumption | intro _ | apply keepsCanon_bind | apply keepsCanon_pure | apply keepsCanon_throw | apply keepsCanon_get
          | apply keepsCanon_doSt | split | apply Canon.frame (State.eng'_fr ..) | apply pack_canon | apply release_canon | dsimp only)

omit hs in
theorem rawBlock_canon (a : Who) (d : ColD) (block : Nat) : KeepsCanon (rawBlock a d block) := by
  unfold rawBlock
  with_reducible (repeat'
    first | assumption | intro _ | apply keepsCanon_bind | apply keepsCanon_pure | apply keepsCanon_throw | apply keepsCanon_get | split
          | apply vread_canon)

omit hs in
theorem scanRawBlock_canon (n : Nat) (c : OpCtx) (t : Task) : KeepsCanon (scanRawBlock n c t) := by
  unfold scanRawBlock
  with_reducible (repeat'
    first | assumption | intro _ | apply keepsCanon_bind | apply keepsCanon_pure | apply keepsCanon_throw | apply keepsCanon_get
          | apply keepsCanon_foldlM | split | apply rawBlock_canon | apply sendSurvivors_canon | apply updTask_canon | apply xlate_canon
          | dsimp only)

omit hs in
theorem scanTable_canon (n : Nat) (c : OpCtx) (t : Task) : KeepsCanon (scanTable n c t) := by
  unfold scanTable
  with_reducible (repeat'
    first | assumption | intro _ | apply keepsCanon_bind | apply keepsCanon_pure | apply keepsCanon_throw | apply keepsCanon_get | split
          | apply pack_canon | apply pread_canon | apply release_canon | apply vread_canon)

omit hs in
theorem tableChunks_canon (n : Nat) (t : Task) (d : TDecl) : KeepsCanon (tableChunks n t d) := by
  unfold tableChunks
  with_reducible (repeat'
    first | assumption | intro _ | apply keepsCanon_bind | apply keepsCanon_pure | apply keepsCanon_throw | apply keepsCanon_get
          | apply keepsCanon_foldlM | split | apply ensure_canon | apply pread_canon | apply vread_canon)

omit hs in
theorem inlineRead_canon (d : Desc) (r : Run) (off : Nat) (n : Nat) : KeepsCanon (inlineRead d r off n) := by
  unfold inlineRead
  with_reducible (repeat'
    first | assumption | intro _ | apply keepsCanon_bind | apply keepsCanon_pure | apply keepsCanon_throw | apply keepsCanon_get
          | apply keepsCanon_askSt | split | apply stageRead_canon | apply ensure_canon | apply vread_canon | apply fail_canon)

omit hs in
theorem inlineRows_canon (c : OpCtx) (first : Nat) (bytes : List Byte) (cnt : Nat) : KeepsCanon (inlineRows c first bytes cnt) := by
  unfold inlineRows
  with_reducible (repeat'
    first | assumption | intro _ | apply keepsCanon_bind | apply keepsCanon_pure | apply keepsCanon_throw | apply keepsCanon_get
          | apply keepsCanon_mapM | apply keepsCanon_foldlM | apply keepsCanon_askSt | split | apply Canon.frame (draw_fr ..) | dsimp only)

omit hs in
theorem startFetch_canon (n : Nat) (c : OpCtx) (t : Task) (b : Batch) : KeepsCanon (startFetch n c t b) := by
  unfold startFetch
  with_reducible (repeat'
    first | assumption | intro _ | apply keepsCanon_bind | apply keepsCanon_pure | apply keepsCanon_throw | apply keepsCanon_get
          | apply keepsCanon_forM | split | apply cbRead_canon | apply openPage_canon | apply updTask_canon)

omit hs in
theorem endFetch_canon (n : Nat) (c : OpCtx) (t : Task) (b : Batch) : KeepsCanon (endFetch n c t b) := by
  unfold endFetch
  with_reducible (repeat'
    first | assumption | intro _ | apply keepsCanon_bind | apply keepsCanon_pure | apply keepsCanon_throw | apply keepsCanon_get | split
          | apply setSel_canon | apply updTask_canon | apply writeRegs_canon)

omit hs in
theorem fetchRows_canon (n : Nat) (c : OpCtx) (t : Task) (b : Batch) (it : FetchItem) (pb : PageBuf) (pd : PageData) : KeepsCanon
    (fetchRows n c t b it pb pd) := by
  unfold fetchRows
  with_reducible (repeat'
    first | assumption | intro _ | apply keepsCanon_bind | apply keepsCanon_pure | apply keepsCanon_throw | apply keepsCanon_get
          | apply keepsCanon_mapM | apply keepsCanon_doSt | split | apply Canon.frame (State.eng'_fr ..) | apply cellOf_canon
          | apply updTask_canon)

end

/-! ### EngTask -/

section
variable {s : State} (hs : s.Canon)
include hs

omit hs in
theorem useArea_canon (n : Nat) (c : OpCtx) (t : Task) (k : Nat) (size : Nat) : KeepsCanon (useArea n c t k size) := by
  unfold useArea
  with_reducible (repeat'
    first | assumption | intro _ | apply keepsCanon_bind | apply keepsCanon_pure | apply keepsCanon_throw | apply keepsCanon_get
          | apply cbRead_canon | apply cbStore_canon)

omit hs in
theorem reserveRun_canon (a : Who) (d : RDecl) (bytes : Nat) : KeepsCanon (reserveRun a d bytes) := by
  unfold reserveRun
  with_reducible (repeat'
    first | assumption | intro _ | apply keepsCanon_bind | apply keepsCanon_pure | apply keepsCanon_throw | apply keepsCanon_get
          | apply ensure_canon | apply preWrite_canon | apply vread_canon | apply vwrite_canon)

omit hs in
theorem writeRun_canon (a : Who) (d : RDecl) (recs : List (List Byte)) (pass : Nat) : KeepsCanon (writeRun a d recs pass) := by
  unfold writeRun
  with_reducible (repeat'
    first | assumption | intro _ | apply keepsCanon_bind | apply keepsCanon_pure | apply keepsCanon_throw | apply keepsCanon_get | split
          | apply reserveRun_canon | apply vwrite_canon)

omit hs in
theorem opSortRun_canon (n : Nat) (c : OpCtx) (t : Task) (b : Batch) : KeepsCanon (opSortRun n c t b) := by
  unfold opSortRun
  with_reducible (repeat'
    first | assumption | intro _ | apply keepsCanon_bind | apply keepsCanon_pure | apply keepsCanon_throw | apply keepsCanon_get | split
          | apply opDone_canon | apply readRegs_canon | apply sinkRows_canon | apply useArea_canon | apply writeRun_canon)

omit hs in
theorem runEntry_canon (a : Who) (d : RDecl) (j : Nat) : KeepsCanon (runEntry a d j) := by
  unfold runEntry
  with_reducible (repeat'
    first | assumption | intro _ | apply keepsCanon_bind | apply keepsCanon_pure | apply keepsCanon_throw | apply keepsCanon_get
          | apply vread_canon)

omit hs in
theorem openRuns_canon (a : Who) (d : RDecl) : KeepsCanon (openRuns a d) := by
  unfold openRuns
  with_reducible (repeat'
    first | assumption | intro _ | apply keepsCanon_bind | apply keepsCanon_pure | apply keepsCanon_throw | apply keepsCanon_get
          | apply keepsCanon_mapM | apply runEntry_canon | apply vread_canon)

omit hs in
theorem mergedRecords_canon (a : Who) (d : RDecl) (runs : List Nat) : KeepsCanon (mergedRecords a d runs) := by
  unfold mergedRecords
  with_reducible (repeat'
    first | assumption | intro _ | apply keepsCanon_bind | apply keepsCanon_pure | apply keepsCanon_throw | apply keepsCanon_get
          | apply keepsCanon_mapM | apply runEntry_canon | apply vread_canon)

omit hs in
theorem updPipe_canon (t : Task) (f : PipeSt → PipeSt) : KeepsCanon (updPipe t f) := by
  unfold updPipe
  with_reducible (repeat'
    first | assumption | intro _ | apply keepsCanon_pure | apply keepsCanon_throw | apply keepsCanon_get | apply keepsCanon_doSt
          | apply Canon.frame (updRun_fr ..))

omit hs in
theorem opMerge_canon (n : Nat) (c : OpCtx) (t : Task) : KeepsCanon (opMerge n c t) := by
  unfold opMerge
  with_reducible (repeat'
    first | assumption | intro _ | apply keepsCanon_bind | apply keepsCanon_pure | apply keepsCanon_throw | apply keepsCanon_get | split
          | apply openRuns_canon | apply updPipe_canon | apply updTask_canon | dsimp only)

omit hs in
theorem interMerge_canon (n : Nat) (c : OpCtx) (t : Task) : KeepsCanon (interMerge n c t) := by
  unfold interMerge
  with_reducible (repeat'
    first | assumption | intro _ | apply keepsCanon_bind | apply keepsCanon_pure | apply keepsCanon_throw | apply keepsCanon_get
          | apply keepsCanon_forM | apply keepsCanon_mapM | apply mergedRecords_canon | apply preWrite_canon | apply runEntry_canon
          | apply updPipe_canon | apply updTask_canon | apply useArea_canon | apply vwrite_canon | apply writeRun_canon)

omit hs in
theorem finalMerge_canon (n : Nat) (c : OpCtx) (t : Task) : KeepsCanon (finalMerge n c t) := by
  unfold finalMerge
  with_reducible (repeat'
    first | assumption | intro _ | apply keepsCanon_bind | apply keepsCanon_pure | apply keepsCanon_throw | apply keepsCanon_get | split
          | apply mergedRecords_canon | apply pack_canon | apply release_canon | apply useArea_canon)

omit hs in
theorem opTopk_canon (n : Nat) (c : OpCtx) (t : Task) (b : Batch) : KeepsCanon (opTopk n c t b) := by
  unfold opTopk
  with_reducible (repeat'
    first | assumption | intro _ | apply keepsCanon_bind | apply keepsCanon_pure | apply keepsCanon_throw | apply keepsCanon_get | split
          | apply batchOver_canon | apply cbRead_canon | apply readRegs_canon | apply theTask_canon | apply updTask_canon
          | apply useArea_canon)

omit hs in
theorem gatherMerge_canon (n : Nat) (c : OpCtx) (t : Task) (m : TMsg) : KeepsCanon (gatherMerge n c t m) := by
  unfold gatherMerge
  with_reducible (repeat'
    first | assumption | intro _ | apply keepsCanon_bind | apply keepsCanon_pure | apply keepsCanon_throw | apply keepsCanon_get | split
          | apply cbRead_canon | apply cbStore_canon | apply updPipe_canon)

theorem State.gatherRows_canon (n : Nat) : (s.gatherRows n).Canon := by
  unfold State.gatherRows
  with_reducible (repeat'
    first | assumption | intro _ | split | apply Canon.frame (State.eng'_fr ..) | apply gatherMerge_canon | apply taskDo_canon
          | apply keepsCanon_pure)

omit hs in
theorem opPartition_canon (n : Nat) (c : OpCtx) (t : Task) (b : Batch) : KeepsCanon (opPartition n c t b) := by
  unfold opPartition
  with_reducible (repeat'
    first | assumption | intro _ | apply keepsCanon_bind | apply keepsCanon_pure | apply keepsCanon_throw | apply keepsCanon_get
          | apply keepsCanon_doSt | apply Canon.frame (State.eng'_fr ..) | apply opDone_canon | apply readRegs_canon
          | apply sinkRows_canon | apply useArea_canon)

theorem State.spillOne_canon (n : Nat) (i : Nat) : (s.spillOne n i).Canon := by
  unfold State.spillOne
  dsimp only
  with_reducible (repeat'
    first | assumption | intro _ | split | apply Canon.frame (draw_fr ..) | apply Canon.frame (fixRun_fr ..)
          | apply Canon.frame (setSlice_fr ..) | apply Canon.frame (spillPlace_fr ..) | apply writePa_canon | simp only [canon_upd]
          | refine Canon.of_snd (by assumption) ?_)

theorem State.moveFlits_canon (m : XMsg) : (s.moveFlits m).2.Canon := by
  unfold State.moveFlits
  dsimp only
  with_reducible (repeat' first | assumption | intro _ | split | apply Canon.frame (fixRun_fr ..) | apply writePa_canon)

theorem State.spillPart_canon (i : Nat) : (s.spillPart i).Canon := by
  unfold State.spillPart
  dsimp only
  with_reducible (repeat'
    first | assumption | intro _ | split | apply Canon.frame (draw_fr ..) | apply Canon.frame (State.eng'_fr ..)
          | apply Canon.frame (fixRun_fr ..) | apply moveFlits_canon | apply Canon.frame (spillPlace_fr ..) | simp only [canon_upd]
          | refine Canon.of_snd (by assumption) ?_)

theorem State.drainRecv_canon (n : Nat) : (s.drainRecv n).Canon := by
  unfold State.drainRecv
  dsimp only
  with_reducible (repeat' first | assumption | intro _ | split | apply spillOne_canon | apply spillPart_canon | apply foldl_canon)

theorem State.takeExchange_canon (n : Nat) : (s.takeExchange n).Canon := by
  unfold State.takeExchange
  dsimp only
  with_reducible (repeat'
    first | assumption | intro _ | split | apply Canon.frame (cbWrite_fr ..) | apply drainRecv_canon
          | apply Canon.frame (State.eng'_fr ..) | apply moveFlits_canon | apply Canon.frame (setSlice_fr ..))

omit hs in
theorem recvRows_canon (t : Task) (q : RMsg) (k : Nat) : KeepsCanon (recvRows t q k) := by
  unfold recvRows
  with_reducible (repeat'
    first | assumption | intro _ | apply keepsCanon_bind | apply keepsCanon_pure | apply keepsCanon_throw | apply keepsCanon_get | split
          | apply pread_canon)

omit hs in
theorem drawRows_canon (k : Nat) : KeepsCanon (drawRows k) := by
  unfold drawRows
  with_reducible (repeat'
    first | assumption | intro _ | apply keepsCanon_bind | apply keepsCanon_pure | apply keepsCanon_throw | apply keepsCanon_get
          | apply keepsCanon_mapM | apply keepsCanon_askSt | apply Canon.frame (draw_fr ..))

omit hs in
theorem opRecv_canon (n : Nat) (c : OpCtx) (t : Task) : KeepsCanon (opRecv n c t) := by
  unfold opRecv
  with_reducible (repeat'
    first | assumption | intro _ | apply keepsCanon_bind | apply keepsCanon_pure | apply keepsCanon_throw | apply keepsCanon_get
          | apply keepsCanon_mapM | apply keepsCanon_doSt | split | apply Canon.frame (setSlice_fr ..) | apply cbRead_canon
          | apply drawRows_canon | apply pack_canon | apply recvRows_canon | apply release_canon | apply theTask_canon | dsimp only)

omit hs in
theorem level0Row_canon (n : Nat) (c : OpCtx) (t : Task) (d : TDecl) (e : AggEnt) : KeepsCanon (level0Row n c t d e) := by
  unfold level0Row
  with_reducible (repeat'
    first | assumption | intro _ | apply keepsCanon_bind | apply keepsCanon_pure | apply keepsCanon_throw | apply keepsCanon_get | split
          | apply aggPut_canon | apply aggRead_canon | apply fail_canon | dsimp only)

omit hs in
theorem level0Recs_canon (t : Task) (d : TDecl) (chunks : List Nat) (lastN : Nat) : KeepsCanon (level0Recs t d chunks lastN) := by
  unfold level0Recs
  with_reducible (repeat'
    first | assumption | intro _ | apply keepsCanon_bind | apply keepsCanon_pure | apply keepsCanon_throw | apply keepsCanon_get
          | apply keepsCanon_mapM | split | apply pread_canon)

omit hs in
theorem level0Merge_canon (n : Nat) (c : OpCtx) (t : Task) (part : Nat) : KeepsCanon (level0Merge n c t part) := by
  unfold level0Merge
  with_reducible (repeat'
    first | assumption | intro _ | apply keepsCanon_bind | apply keepsCanon_pure | apply keepsCanon_throw | apply keepsCanon_get
          | apply keepsCanon_forM | apply keepsCanon_doSt | split | apply Canon.frame (setSlice_fr ..) | apply aggRead_canon
          | apply issue_canon | apply level0Recs_canon | apply level0Row_canon | apply sealFlits_canon | apply updTask_canon)

theorem State.tellMerge_canon (n : Nat) (d : Desc) (pipe : Nat) : (s.tellMerge n d pipe).Canon := by
  unfold State.tellMerge
  dsimp only
  with_reducible (repeat'
    first | assumption | intro _ | split | apply Canon.frame (setTask_fr ..) | apply Canon.frame (updRun_fr ..) | apply openRuns_canon
          | apply updPipe_canon | apply KeepsCanon.run | dsimp only | refine Canon.of_snd (by assumption) ?_)

theorem State.giveTask_canon (n : Nat) (d : Desc) (pipe : Nat) (kind : TaskKind) : (s.giveTask n d pipe kind).Canon := by
  unfold State.giveTask
  dsimp only
  with_reducible (repeat'
    first | assumption | intro _ | split | apply Canon.frame (addF_fr ..) | apply drainRecv_canon | apply Canon.frame (State.eng'_fr ..)
          | apply Canon.frame (pmcSlc_fr ..) | apply Canon.frame (setDesc_fr ..) | apply Canon.frame (setSlice_fr ..)
          | apply tellMerge_canon | apply Canon.frame (wrs_fr ..))

theorem State.dispatch_canon (n : Nat) (recv : Bool) : (s.dispatch n recv).Canon := by
  unfold State.dispatch
  dsimp only
  with_reducible (repeat' first | assumption | intro _ | split | apply Canon.frame (decided_fr ..) | apply giveTask_canon)

omit hs in
theorem flushTask_canon (n : Nat) (t : Task) : KeepsCanon (flushTask n t) := by
  unfold flushTask
  with_reducible (repeat'
    first | assumption | intro _ | apply keepsCanon_bind | apply keepsCanon_pure | apply keepsCanon_throw | apply keepsCanon_get
          | apply keepsCanon_doSt | split | apply Canon.frame (State.eng'_fr ..) | apply cbRead_canon | apply flushAgg_canon
          | apply updTask_canon)

theorem State.taskEnd_canon (n : Nat) : (s.taskEnd n).Canon := by
  unfold State.taskEnd
  dsimp only
  with_reducible (repeat'
    first | assumption | intro _ | split | apply Canon.frame (fixRun_fr ..) | apply Canon.frame (leaveSlice_fr ..)
          | apply Canon.frame (stagedInDone_fr ..) | apply flushTask_canon | apply taskDo_canon)

end

/-! ### DmOps -/

section
variable {s : State} (hs : s.Canon)
include hs

theorem State.chanMsi_canon (n : Nat) : (s.chanMsi n).Canon := by
  unfold State.chanMsi
  dsimp only
  with_reducible (repeat' first | assumption | intro _ | split | apply msiTo_canon)

theorem State.readChanSlot_canon (n : Nat) : (s.readChanSlot n).Canon := by
  unfold State.readChanSlot
  dsimp only
  with_reducible (repeat'
    first | assumption | intro _ | split | apply Canon.frame (chanDoorbell_fr ..) | apply Canon.frame (chanError_fr ..)
          | apply readPa_canon)

theorem State.dmStatus_canon (n : Nat) (code : Nat) : (s.dmStatus n code).Canon := by
  unfold State.dmStatus
  dsimp only
  with_reducible (repeat'
    first | assumption | intro _ | split | apply Canon.frame (chanBad_fr ..) | apply Canon.frame (chanError_fr ..)
          | apply Canon.frame (setChan_fr ..) | apply writePa_canon)

theorem State.dmNext_canon (n : Nat) (code : Nat) : (s.dmNext n code).Canon := by
  unfold State.dmNext
  dsimp only
  with_reducible (repeat' first | assumption | intro _ | split | apply dmStatus_canon | apply Canon.frame (setChan_fr ..))

theorem State.dmDrop_canon (n : Nat) (code : Nat) : (s.dmDrop n code).Canon := by
  unfold State.dmDrop
  dsimp only
  with_reducible (repeat' first | assumption | intro _ | apply dmNext_canon | apply Canon.frame (setChan_fr ..))

theorem State.closeRefused_canon (n : Nat) (c : Closing) : (s.closeRefused n c).Canon := by
  unfold State.closeRefused
  dsimp only
  with_reducible (repeat' first | assumption | intro _ | split | apply dmDrop_canon | apply Canon.frame (setChan_fr ..))

theorem State.dmSelfEnd_canon (n : Nat) : (s.dmSelfEnd n).Canon := by
  unfold State.dmSelfEnd
  dsimp only
  with_reducible (repeat' first | assumption | intro _ | split | apply dmStatus_canon | apply Canon.frame (setChan_fr ..))

theorem State.dmRun_canon {n : Nat} {ops : Nat → Bool} {f : DmIns → State → State} (hf : ∀ i s, s.Canon → (f i s).Canon) :
    (s.dmRun n ops f).Canon := by
  unfold State.dmRun
  dsimp only
  have hr := readPa_canon hs (s.chanWho n) (s.chan n).pa 16
  split
  · exact hs
  · split
    · exact .frame (chanError_fr ..) hr
    · split
      · exact .frame (chanError_fr ..) hr
      · split
        · exact hf _ _ hr
        · exact hs

theorem State.dmLoop_canon (n : Nat) (i : DmIns) : (s.dmLoop n i).Canon := by
  unfold State.dmLoop
  dsimp only
  with_reducible (repeat'
    first | assumption | intro _ | split | apply dmNext_canon | apply dmStatus_canon | apply Canon.frame (setChan_fr ..))

omit hs in
theorem encEnsure_canon (b : Bool) (code : Nat) : KeepsCanon (encEnsure b code) := by
  unfold encEnsure
  with_reducible (repeat' first | assumption | intro _ | apply keepsCanon_pure | apply keepsCanon_throw | apply keepsCanon_get | split)

omit hs in
theorem dmRead_canon (n : Nat) (pa : Nat) (len : Nat) : KeepsCanon (dmRead n pa len) := by
  unfold dmRead
  with_reducible (repeat'
    first | assumption | intro _ | apply keepsCanon_bind | apply keepsCanon_pure | apply keepsCanon_throw | apply keepsCanon_get
          | apply keepsCanon_askSt | apply readPa_canon | apply encEnsure_canon)

omit hs in
theorem dmWrite_canon (n : Nat) (pa : Nat) (l : List Byte) : KeepsCanon (dmWrite n pa l) := by
  unfold dmWrite
  with_reducible (repeat'
    first | assumption | intro _ | apply keepsCanon_bind | apply keepsCanon_pure | apply keepsCanon_throw | apply keepsCanon_get
          | apply keepsCanon_askSt | apply writePa_canon | apply encEnsure_canon)

omit hs in
theorem writeLines_canon (n : Nat) (e : EncCol) (ls : List Nat) : KeepsCanon (writeLines n e ls) := by
  unfold writeLines
  with_reducible (repeat'
    first | assumption | intro _ | apply keepsCanon_bind | apply keepsCanon_pure | apply keepsCanon_throw | apply keepsCanon_get
          | apply keepsCanon_forM | apply dmWrite_canon)

omit hs in
theorem closePage_canon (n : Nat) (e : EncCol) : KeepsCanon (closePage n e) := by
  unfold closePage
  with_reducible (repeat'
    first | assumption | intro _ | apply keepsCanon_bind | apply keepsCanon_pure | apply keepsCanon_throw | apply keepsCanon_get
          | apply keepsCanon_doSt | split | apply Canon.frame (setChan_fr ..) | apply Canon.frame (wr_fr ..) | apply writeLines_canon)

omit hs in
theorem copyRow_canon (n : Nat) (e : EncCol) (a : Nat × List EncRow) (r : EncRow) : KeepsCanon (copyRow n e a r) := by
  unfold copyRow
  with_reducible (repeat'
    first | assumption | intro _ | apply keepsCanon_bind | apply keepsCanon_pure | apply keepsCanon_throw | apply keepsCanon_get | split
          | apply dmRead_canon | apply dmWrite_canon | apply encEnsure_canon | dsimp only)

omit hs in
theorem copyStrings_canon (n : Nat) (e : EncCol) : KeepsCanon (copyStrings n e) := by
  unfold copyStrings
  with_reducible (repeat'
    first | assumption | intro _ | apply keepsCanon_bind | apply keepsCanon_pure | apply keepsCanon_throw | apply keepsCanon_get
          | apply keepsCanon_foldlM | split | apply copyRow_canon)

omit hs in
theorem placeBlock_canon (n : Nat) (e : EncCol) (r : EncRes) : KeepsCanon (placeBlock n e r) := by
  unfold placeBlock
  with_reducible (repeat'
    first | assumption | intro _ | apply keepsCanon_bind | apply keepsCanon_pure | apply keepsCanon_throw | apply keepsCanon_get | split
          | apply dmWrite_canon | apply encEnsure_canon | dsimp only)

omit hs in
theorem closeBlock_canon (n : Nat) (e : EncCol) : KeepsCanon (closeBlock n e) := by
  unfold closeBlock
  with_reducible (repeat'
    first | assumption | intro _ | apply keepsCanon_bind | apply keepsCanon_pure | apply keepsCanon_throw | apply keepsCanon_get | split
          | apply closePage_canon | apply copyStrings_canon | apply placeBlock_canon | apply writeLines_canon)

omit hs in
theorem flushCol_canon (n : Nat) (e : EncCol) (close : Bool) : KeepsCanon (flushCol n e close) := by
  unfold flushCol
  with_reducible (repeat'
    first | assumption | intro _ | apply keepsCanon_bind | apply keepsCanon_pure | apply keepsCanon_throw | apply keepsCanon_get | split
          | apply closeBlock_canon | apply closePage_canon | dsimp only)

theorem State.encDo_canon {n : Nat} {m : EncM (Option EncCol)} {f : State → State} (hm : KeepsCanon m)
    (hf : ∀ s, s.Canon → (f s).Canon) : (s.encDo n m f).Canon := by
  unfold State.encDo
  have hr := hm.run hs
  split <;> rename_i e
  · exact hf _ (.frame (setChan_fr ..) (.of_snd e hr))
  · exact dmDrop_canon (.of_snd e hr) ..

omit hs in
theorem sourceBits_canon (n : Nat) (e : EncCol) (k : Nat) : KeepsCanon (sourceBits n e k) := by
  unfold sourceBits
  with_reducible (repeat'
    first | assumption | intro _ | apply keepsCanon_pure | apply keepsCanon_throw | apply keepsCanon_get | split | apply dmRead_canon)

omit hs in
theorem takeRowsOf_canon (n : Nat) (e : EncCol) (left : Nat) : KeepsCanon (takeRowsOf n e left) := by
  unfold takeRowsOf
  with_reducible (repeat'
    first | assumption | intro _ | apply keepsCanon_bind | apply keepsCanon_pure | apply keepsCanon_throw | apply keepsCanon_get | split
          | apply closeBlock_canon | apply dmRead_canon | apply sourceBits_canon | dsimp only)

end

end Sys2Proof.Machine
end

section
/-! PROOFS. Operations that may write memory, MRAM or flash keep them canonical: units, the package and the firmware (O5). -/

namespace Sys2Proof.Machine
open Sys2Proof State

/-! ### Units -/

section
variable {s : State} (hs : s.Canon)
include hs

theorem State.rereadDoorbells_canon : s.rereadDoorbells.Canon := by
  unfold State.rereadDoorbells
  dsimp only
  with_reducible (repeat' first | assumption | intro _ | apply Canon.frame (watchLine_fr ..) | apply foldl_canon)

theorem State.zeroFill_canon (hit : Nat → Bool) : (s.zeroFill hit).Canon := by
  unfold State.zeroFill
  dsimp only
  generalize hv : List.foldl _ s _ = v
  have hv : v.Canon := hv ▸ foldl_canon (fun u ln hu => .frame (l3TakeAll_fr (u.discardLine ln) ln) (.frame' (discardLine_fr u ln) hu)) _ hs
  generalize hw : List.foldl _ v _ = w
  have hw : w.Canon := hw ▸ foldl_canon (fun u e hu => .frame (applyFlip_fr u e.ln) hu) _ hv
  have hm := Tab.wf_keep (fun a _ => !(hit a && s.fillReaches a)) hw.mem
  exact ⟨hm, hw.mram, hw.flash⟩

theorem State.applyFirewall_canon (f : Nat) (l : Tab (Nat × Nat)) : (s.applyFirewall f l).Canon := by
  unfold State.applyFirewall
  dsimp only
  with_reducible (repeat'
    first | assumption | intro _ | split | apply Canon.frame (mergeRegs_fr ..) | apply Canon.frame' (switchFirewall_fr ..)
          | apply zeroFill_canon | simp only [canon_upd])

theorem elim_canon {α : Type} {f : α → State} (hf : ∀ a, (f a).Canon) : ∀ o : Option α, (o.elim s f).Canon
  | none => hs
  | some a => hf a

theorem State.ctuResult_canon (w : World) (i : Bool) (r : Nat) : (s.ctuResult w i r).Canon := .frame (ctuResult_fr s w i r) hs

theorem State.ctuReset_canon (reset : Nat → Bool) : (s.ctuReset reset).Canon := by
  unfold State.ctuReset
  dsimp only
  with_reducible (repeat'
    first | assumption | intro _ | split | apply foldl_canon | apply elim_canon | apply ctuResult_canon | apply Canon.frame (setCtu_fr ..))

end

/-! ### Package -/

section
variable {s : State} (hs : s.Canon)
include hs

theorem State.arriveMode_canon (m : Nat) (cause : Nat) (src : Nat) : (s.arriveMode m cause src).Canon := by
  unfold State.arriveMode
  dsimp only
  with_reducible (repeat'
    first | assumption | intro _ | split | apply logNow_canon | apply Canon.frame (pk_fr ..) | apply Canon.frame (wrs_fr ..))

theorem State.defer_canon (who : Ident) (uu : Nat) (req : Nat) : (s.defer who uu req).Canon := by
  unfold State.defer
  dsimp only
  with_reducible (repeat' first | assumption | intro _ | split | apply viol_canon | apply Canon.frame (wrs_fr ..))

theorem State.drainChannel_canon (m : Nat) : (s.drainChannel m).Canon := by
  unfold State.drainChannel
  dsimp only
  with_reducible (repeat' first | assumption | intro _ | apply issueWrite_canon | apply foldl_canon | simp only [canon_upd])

theorem State.selfRefresh_canon (m : Nat) : (s.selfRefresh m).Canon := by
  unfold State.selfRefresh
  with_reducible (repeat' first | assumption | intro _ | apply drainChannel_canon | apply Canon.frame (wr_fr ..))

theorem State.warmReset_canon (cause : Nat) (src : Nat) : (s.warmReset cause src).Canon := by
  unfold State.warmReset
  dsimp only
  with_reducible (repeat'
    first | assumption | intro _ | split | apply arriveMode_canon | apply ctuReset_canon | apply Canon.frame (dropOrders_fr ..)
          | apply Canon.frame (hartCause_fr ..) | apply Canon.frame (pk_fr ..) | apply Canon.frame (recordReach_fr ..)
          | apply Canon.frame (resetPmc_fr ..) | apply Canon.frame (resetRegs_fr ..) | apply Canon.frame' (resetUnits_fr ..)
          | apply forAll_canon)

theorem State.coldReset_canon (cause : Nat) (src : Nat) : (s.coldReset cause src).Canon := by
  unfold State.coldReset
  dsimp only
  with_reducible (repeat'
    first | assumption | intro _ | apply arriveMode_canon | apply Canon.frame (dropOrders_fr ..) | apply Canon.frame (hartCause_fr ..)
          | apply Canon.frame (pk_fr ..) | apply Canon.frame (recordReach_fr ..) | apply Canon.frame (resetPmc_fr ..)
          | apply Canon.frame (resetRegs_fr ..) | apply Canon.frame' (resetUnits_fr ..) | apply Canon.frame (wrs_fr ..)
          | apply forAll_canon | simp only [canon_upd])

theorem State.stopUnits_canon : s.stopUnits.Canon := by
  unfold State.stopUnits
  dsimp only
  with_reducible (repeat'
    first | assumption | intro _ | apply ctuReset_canon | apply Canon.frame (finxisLane2_fr ..) | apply Canon.frame (pk_fr ..)
          | apply Canon.frame' (resetFabric_fr ..) | apply Canon.frame (resetRegs_fr ..) | apply selfRefresh_canon | apply foldl_canon)

theorem State.enterCaution_canon (cause : Nat) (src : Nat) : (s.enterCaution cause src).Canon := by
  unfold State.enterCaution
  with_reducible (repeat'
    first | assumption | intro _ | apply arriveMode_canon | apply Canon.frame (failMoves_fr ..) | apply stopUnits_canon)

theorem State.enterSiding_canon (cause : Nat) (src : Nat) : (s.enterSiding cause src).Canon := by
  unfold State.enterSiding
  dsimp only
  with_reducible (repeat'
    first | assumption | intro _ | apply arriveMode_canon | apply Canon.frame (pk_fr ..) | apply Canon.frame (wr_fr ..)
          | apply forAll_canon | simp only [canon_upd])

theorem State.logBank_canon (r : ErrRec) : (s.logBank r).Canon := by
  unfold State.logBank
  with_reducible (repeat' first | assumption | intro _ | split | apply logNow_canon)

theorem State.logChannel_canon (m : Nat) : (s.logChannel m).Canon := by
  unfold State.logChannel
  with_reducible (repeat' first | assumption | intro _ | split | apply logNow_canon)

theorem State.logBanks_canon : s.logBanks.Canon := by
  unfold State.logBanks
  exact forAll_canon (forAll_canon (forAll_canon (forAll_canon hs
    fun n s hs => forAll_canon hs fun r s hs => logBank_canon hs _)
    fun t s hs => forAll_canon hs fun r s hs => logBank_canon hs _)
    fun r s hs => logBank_canon hs _) fun m s hs => logChannel_canon hs _

theorem State.enterBufferStop_canon (intact : Bool) : (s.enterBufferStop intact).Canon := by
  unfold State.enterBufferStop
  dsimp only
  with_reducible (repeat'
    first | assumption | intro _ | split | apply arriveMode_canon | apply Canon.frame (failMoves_fr ..) | apply Canon.frame (pk_fr ..)
          | apply stopUnits_canon | apply Canon.frame (wrs_fr ..) | apply logBanks_canon)

theorem State.fatalPkg_canon : s.fatalPkg.Canon := by
  unfold State.fatalPkg
  with_reducible (repeat' first | assumption | intro _ | split | apply enterBufferStop_canon | apply enterCaution_canon)

theorem State.loseDie_canon (d : Nat) (clkLoss : Bool) : (s.loseDie d clkLoss).Canon := by
  unfold State.loseDie
  dsimp only
  with_reducible (repeat'
    first | assumption | intro _ | split | apply Canon.frame (codeReset_fr ..) | apply enterCaution_canon
          | apply Canon.frame' (fenceCluster_fr ..) | apply Canon.frame (hartCause_fr ..) | apply Canon.frame (pk_fr ..)
          | apply Canon.frame (raise_fr ..) | apply Canon.frame (recordReach_fr ..) | apply Canon.frame (setCtu_fr ..)
          | apply Canon.frame (setDieState_fr ..) | apply Canon.frame (wrW_fr ..) | apply Canon.frame (wrs_fr ..) | apply foldl_canon)

end

/-! ### Orders -/

section
variable {s : State} (hs : s.Canon)
include hs

theorem State.midnightEntry_canon : s.midnightEntry.Canon := by
  unfold State.midnightEntry
  dsimp only
  with_reducible (repeat'
    first | assumption | intro _ | split | apply Canon.frame (beginMove_fr ..) | apply Canon.frame (cleanLine_fr ..)
          | apply drainChannel_canon | apply Canon.frame (writeSave_fr ..) | apply logBanks_canon | apply foldl_canon
          | simp only [canon_upd])

theorem State.winMode_canon (target : Nat) (srcs : List Nat) (src : Nat) : (s.winMode target srcs src).Canon := by
  unfold State.winMode
  dsimp only
  with_reducible (repeat'
    first | assumption | intro _ | split | apply Canon.frame (beginMove_fr ..) | apply coldReset_canon | apply Canon.frame (endMode_fr ..)
          | apply midnightEntry_canon | apply Canon.frame (pk_fr ..) | apply setMram_canon | apply warmReset_canon
          | apply Canon.frame (wr_fr ..) | apply foldl_canon)

theorem State.decideModes_canon : s.decideModes.Canon := by
  unfold State.decideModes
  dsimp only
  with_reducible (repeat'
    first | assumption | intro _ | split | apply defer_canon | apply Canon.frame (endMode_fr ..) | apply Canon.frame (pk_fr ..)
          | apply winMode_canon | apply foldl_canon)

theorem State.submitPower_canon (o : PowerOrd) : (s.submitPower o).Canon := by
  unfold State.submitPower
  with_reducible (repeat'
    first | assumption | intro _ | split | apply defer_canon | apply Canon.frame (endPower_fr ..) | apply Canon.frame (pk_fr ..))

theorem State.decidePowers_canon (f : Nat) (l : List PowerOrd) : (s.decidePowers f l).Canon :=
  ⟨by rw [State.decidePowers_mem]; exact hs.mem, by rw [State.decidePowers_mram]; exact hs.mram, by rw [State.decidePowers_flash]; exact hs.flash⟩

theorem State.arbitrate_canon : s.arbitrate.Canon := by
  unfold State.arbitrate
  dsimp only
  with_reducible (repeat'
    first | assumption | intro _ | split | apply decideModes_canon | apply Canon.frame (pk_fr ..) | apply decidePowers_canon)

theorem State.submitReset_canon (m : Nat) (who : Ident) (kind : Nat) (idx : Nat) : (s.submitReset m who kind idx).Canon := by
  unfold State.submitReset
  dsimp only
  with_reducible (repeat'
    first | assumption | intro _ | split | apply Canon.frame' (coreReset_fr ..) | apply defer_canon | apply Canon.frame (endReset_fr ..)
          | apply Canon.frame (fence_fr ..) | apply loseDie_canon | apply Canon.frame (loseSlice_fr ..) | apply Canon.frame (pk_fr ..)
          | apply Canon.frame' (setHart_fr ..) | apply Canon.frame' (writeBackL2_fr ..) | apply foldl_canon)

end

/-! ### Firmware -/

section
variable {s : State} (hs : s.Canon)
include hs

theorem State.setCount_canon (n : Nat) : (s.setCount n).Canon := by
  unfold State.setCount
  with_reducible (repeat' first | assumption | intro _ | apply setMram_canon | apply Canon.frame (wr_fr ..))

theorem State.pmcBegin_canon : s.pmcBegin.Canon := by
  unfold State.pmcBegin
  dsimp only
  with_reducible (repeat'
    first | assumption | intro _ | apply logNow_canon | apply Canon.frame (pk_fr ..) | apply foldl_canon | simp only [canon_upd])

theorem State.logFw7_canon (kind : Nat) (slot : Nat) (status : Nat) (step : Nat) : (s.logFw7 kind slot status step).Canon := by
  unfold State.logFw7
  dsimp only
  with_reducible (repeat' first | assumption | intro _ | apply logNow_canon)

theorem State.romFallback_canon : s.romFallback.Canon := by
  unfold State.romFallback
  dsimp only
  with_reducible (repeat' first | assumption | intro _ | apply logNow_canon | simp only [canon_upd])

theorem State.loadPmcImage_canon : s.loadPmcImage.Canon := by
  unfold State.loadPmcImage
  dsimp only
  with_reducible (repeat'
    first | assumption | intro _ | split | apply Canon.frame (putInForce_fr ..) | apply romFallback_canon | simp only [canon_upd])

theorem State.pmcStart_canon : s.pmcStart.Canon := by
  unfold State.pmcStart
  dsimp only
  with_reducible (repeat' first | assumption | intro _ | split | apply loadPmcImage_canon | apply pmcBegin_canon)

theorem State.bootRegion_canon (r : Nat) (base : Nat) (limit : Nat) : (s.bootRegion r base limit).Canon := by
  unfold State.bootRegion
  dsimp only
  with_reducible (repeat'
    first | assumption | intro _ | split | apply Canon.frame (regionRegs_fr ..) | apply Canon.frame (setFilling_fr ..)
          | apply zeroFill_canon)

theorem State.applyOptions_canon : s.applyOptions.Canon := by
  unfold State.applyOptions
  dsimp only
  with_reducible (repeat'
    first | assumption | intro _ | split | apply Canon.frame (applyLimits_fr ..) | apply bootRegion_canon | apply Canon.frame (pk_fr ..)
          | apply Canon.frame (wr_fr ..))

end

/-! ### BootCmds -/

section
variable {s : State} (hs : s.Canon)
include hs

theorem execSuppliesGood_canon (board : Board) (force : Bool) (test : Bool) {u : State}
    (h : execSuppliesGood board force test s = .next u) : u.Canon := by
  unfold execSuppliesGood at h
  dsimp only at h
  (repeat' split at h) <;> refine Canon.of_next h ?_ <;> with_reducible (repeat'
    first | assumption | intro _ | split | apply arriveMode_canon | apply Canon.frame (pk_fr ..) | apply Canon.frame (showStraps_fr ..)
          | apply Canon.frame (wrs_fr ..) | apply forAll_canon)

theorem State.assertRst_canon (w : RstWait) (pulse : Bool) : (s.assertRst w pulse).Canon := by
  unfold State.assertRst
  dsimp only
  with_reducible (repeat'
    first | assumption | intro _ | split | apply coldReset_canon | apply Canon.frame (pk_fr ..) | apply Canon.frame' (powerOnReset_fr ..)
          | apply warmReset_canon | apply Canon.frame (wr_fr ..))

theorem execPowerOnReset_canon (pulse : Bool) {u : State} (h : execPowerOnReset pulse s = .next u) : u.Canon := by
  unfold execPowerOnReset at h
  (repeat' split at h) <;> refine Canon.of_next h ?_ <;> with_reducible (repeat'
    first | assumption | intro _ | split | apply assertRst_canon | apply Canon.frame (pk_fr ..))

theorem execColdReset_canon (force : Bool) (pulse : Bool) {u : State} (h : execColdReset force pulse s = .next u) : u.Canon := by
  unfold execColdReset at h
  dsimp only at h
  (repeat' split at h) <;> refine Canon.of_next h ?_ <;> with_reducible (repeat'
    first | assumption | intro _ | split | apply assertRst_canon | apply Canon.frame (pk_fr ..) | apply Canon.frame (wr_fr ..))

theorem State.warmSource_canon (f : Fld) (pulse : Bool) : (s.warmSource f pulse).Canon := by
  unfold State.warmSource
  with_reducible (repeat'
    first | assumption | intro _ | split | apply assertRst_canon | apply Canon.frame (pk_fr ..) | apply Canon.frame (wr_fr ..))

theorem execWarmReset_canon (pulse : Bool) {u : State} (h : execWarmReset pulse s = .next u) : u.Canon := by
  unfold execWarmReset at h
  (repeat' split at h) <;> refine Canon.of_next h ?_ <;> with_reducible (repeat'
    first | assumption | intro _ | split | apply Canon.frame (pk_fr ..) | apply warmSource_canon)

theorem execMramPulseEnd_canon {u : State} (h : execMramPulseEnd s = .next u) : u.Canon := by
  unfold execMramPulseEnd at h
  (repeat' split at h) <;> refine Canon.of_next h ?_ <;> with_reducible (repeat'
    first | assumption | intro _ | split | apply assertRst_canon | apply Canon.frame (pk_fr ..))

theorem execStandbyRailLoss_canon (pulse : Bool) {u : State} (h : execStandbyRailLoss pulse s = .next u) : u.Canon := by
  unfold execStandbyRailLoss at h
  dsimp only at h
  refine Canon.of_next h ?_
  with_reducible (repeat' first | assumption | intro _ | apply assertRst_canon | apply Canon.frame (pk_fr ..))

theorem execSelfRefreshEntryDone_canon (m : Fin 16) {u : State} (h : execSelfRefreshEntryDone m s = .next u) : u.Canon := by
  unfold execSelfRefreshEntryDone at h
  dsimp only at h
  (repeat' split at h) <;> refine Canon.of_next h ?_ <;> with_reducible (repeat'
    first | assumption | intro _ | split | apply Canon.frame (noteWait_fr ..) | apply Canon.frame (pk_fr ..) | apply selfRefresh_canon)

theorem State.loadOptions_canon : s.loadOptions.Canon := by
  obtain ⟨-, hf, hm, -, hr, -⟩ := loadOptions_fr s
  exact ⟨hm ▸ hs.mem, hr ▸ hs.mram, hf ▸ hs.flash⟩

theorem execOptionLoadDone_canon {u : State} (h : execOptionLoadDone s = .next u) : u.Canon := by
  have hl := Canon.frame (pk_fr _ (fun p => { p with loaded := true })) (loadOptions_canon hs)
  unfold execOptionLoadDone at h
  dsimp only at h
  split at h
  · exact .of_next h hs
  · split at h
    · exact .of_next h (pmcStart_canon (enterSiding_canon hl ..))
    · exact .of_next h (setCount_canon hl ..)

theorem State.beginMorning_canon : s.beginMorning.Canon := by
  unfold State.beginMorning
  dsimp only
  with_reducible (repeat'
    first | assumption | intro _ | split | apply arriveMode_canon | apply Canon.frame (pk_fr ..) | apply Canon.frame (wr_fr ..)
          | apply foldl_canon)

theorem State.recordLoss_canon (c : Clock) : (s.recordLoss c).Canon := by
  unfold State.recordLoss
  dsimp only
  with_reducible (repeat'
    first | assumption | intro _ | split | apply logNow_canon | apply Canon.frame (wr_fr ..) | apply Canon.frame (wrs_fr ..))

theorem State.fabricClockLoss_canon (l : List Domain) : (s.fabricClockLoss l).Canon := by
  unfold State.fabricClockLoss
  dsimp only
  with_reducible (repeat'
    first | assumption | intro _ | split | apply Canon.frame (clkLossCause_fr ..) | apply enterBufferStop_canon | apply enterCaution_canon
          | apply Canon.frame (pk_fr ..) | apply Canon.frame (wr_fr ..))

theorem State.controlClockLoss_canon : s.controlClockLoss.Canon := by
  unfold State.controlClockLoss
  with_reducible (repeat' first | assumption | intro _ | apply Canon.frame (clkLossCause_fr ..) | apply enterBufferStop_canon)

theorem State.dieClockLoss_canon (d : Nat) : (s.dieClockLoss d).Canon := by
  unfold State.dieClockLoss
  with_reducible (repeat' first | assumption | intro _ | apply loseDie_canon)

theorem State.engineClockLoss_canon : s.engineClockLoss.Canon :=
  foldl_canon (fun _ d hs => dieClockLoss_canon hs d) _ hs

theorem State.coreClockLoss_canon (d : Nat) : (s.coreClockLoss d).Canon := by
  unfold State.coreClockLoss
  with_reducible (repeat' first | assumption | intro _ | split | apply dieClockLoss_canon)

theorem State.clockLoss_canon (c : Clock) : (s.clockLoss c).Canon := by
  have hr := Canon.frame (setGood_fr _ c false) (recordLoss_canon hs c)
  cases c with
  | cclk d => exact coreClockLoss_canon hr d
  | eclk => exact engineClockLoss_canon hr
  | fclk | mclk => exact fabricClockLoss_canon hr _
  | ref => exact controlClockLoss_canon (.frame (wr_fr ..) hr)
  | sclk | pll => exact controlClockLoss_canon hr
  | aon => exact .frame (wr_fr ..) hr
  | serdes g => exact .frame (serdesLoss_fr ..) hr

theorem execClockMonitorWindow_canon (c : Clock) (expect : Nat) (edges : Nat) (silent : Bool) {u : State}
    (h : execClockMonitorWindow c expect edges silent s = .next u) : u.Canon := by
  unfold execClockMonitorWindow at h
  dsimp only at h
  (repeat' split at h) <;> refine Canon.of_next h ?_ <;> with_reducible (repeat'
    first | assumption | intro _ | split | apply Canon.frame (pk_fr ..) | apply Canon.frame (setGood_fr ..) | apply clockLoss_canon)

theorem execDomainResetRelease_canon (x : Release) {u : State} (h : execDomainResetRelease x s = .next u) : u.Canon := by
  unfold execDomainResetRelease at h
  dsimp only at h
  (repeat' split at h) <;> refine Canon.of_next h ?_ <;> with_reducible (repeat'
    first | assumption | intro _ | split | apply beginMorning_canon | apply Canon.frame (pk_fr ..) | apply pmcStart_canon
          | apply Canon.frame (seePins_fr ..) | apply Canon.frame' (startHart_fr ..))

theorem execWarmupScan_canon (temps : List Int) {u : State} (h : execWarmupScan temps s = .next u) : u.Canon := by
  unfold execWarmupScan at h
  dsimp only at h
  (repeat' split at h) <;> refine Canon.of_next h ?_ <;> with_reducible (repeat'
    first | assumption | intro _ | split | apply beginMorning_canon | apply Canon.frame (readSensors_fr ..))

theorem execWarmupTimeout_canon {u : State} (h : execWarmupTimeout s = .next u) : u.Canon := by
  unfold execWarmupTimeout at h
  (repeat' split at h) <;> refine Canon.of_next h ?_ <;> with_reducible (repeat'
    first | assumption | intro _ | split | apply enterSiding_canon | apply pmcStart_canon)

theorem execDramTrainingDone_canon (dimms : List (Option Dimm)) {u : State} (h : execDramTrainingDone dimms s = .next u) : u.Canon := by
  unfold execDramTrainingDone at h
  dsimp only at h
  (repeat' split at h) <;> refine Canon.of_next h ?_ <;> with_reducible (repeat'
    first | assumption | intro _ | split | apply Canon.frame (applyLimits_fr ..) | apply enterSiding_canon | apply pmcStart_canon
          | apply Canon.frame (wrW_fr ..) | apply Canon.frame (wrs_fr ..) | apply forAll_canon)

theorem State.zeroChannel_canon (m : Nat) : (s.zeroChannel m).Canon := by
  have hm := Tab.wf_keep (fun a _ => !(decide (a < s.top) && s.chanOf a == m)) hs.mem
  exact ⟨hm, hs.mram, hs.flash⟩

theorem State.enterDepot_canon (cause : Nat) : (s.enterDepot cause).Canon := by
  unfold State.enterDepot
  with_reducible (repeat' first | assumption | intro _ | apply arriveMode_canon | apply pmcStart_canon)

theorem execMemoryFillDone_canon {u : State} (h : execMemoryFillDone s = .next u) : u.Canon := by
  unfold execMemoryFillDone at h
  dsimp only at h
  (repeat' split at h) <;> refine Canon.of_next h ?_ <;> with_reducible (repeat'
    first | assumption | intro _ | split | apply enterDepot_canon | apply Canon.frame (pk_fr ..) | apply Canon.frame (wr_fr ..)
          | apply zeroChannel_canon | apply foldl_canon)

theorem State.copyBody_canon (l : List Byte) : (s.copyBody l).Canon := by
  unfold State.copyBody
  dsimp only
  with_reducible (repeat' first | assumption | intro _ | apply setBytes_canon | simp only [canon_upd])

theorem State.bootCold_canon : s.bootCold.Canon := by
  unfold State.bootCold
  dsimp only
  with_reducible (repeat'
    first | assumption | intro _ | split | apply applyOptions_canon | apply Canon.frame (bootPorts_fr ..) | apply Canon.frame (pk_fr ..))

theorem execBootAuthentication_canon {u : State} (h : execBootAuthentication s = .next u) : u.Canon := by
  unfold execBootAuthentication at h
  dsimp only at h
  (repeat' split at h) <;> refine Canon.of_next h ?_ <;> with_reducible (repeat'
    first | assumption | intro _ | split | apply bootCold_canon | apply copyBody_canon | apply enterSiding_canon | apply logFw7_canon
          | apply Canon.frame (pk_fr ..) | apply Canon.frame (putInForce_fr ..) | apply romFallback_canon | apply setMram_canon)

theorem execMainlineEntry_canon {u : State} (h : execMainlineEntry s = .next u) : u.Canon := by
  unfold execMainlineEntry at h
  dsimp only at h
  (repeat' split at h) <;> refine Canon.of_next h ?_ <;> with_reducible (repeat'
    first | assumption | intro _ | split | apply arriveMode_canon | apply Canon.frame (dropWindows_fr ..)
          | apply Canon.frame (finxisLow_fr ..) | apply Canon.frame (pk_fr ..) | apply rereadDoorbells_canon
          | apply Canon.frame (restoreAll_fr ..) | apply Canon.frame' (startHart_fr ..) | apply Canon.frame (wr_fr ..)
          | apply forAll_canon | apply foldl_canon)

theorem execNdmreset_canon (on : Bool) (pulse : Bool) {u : State} (h : execNdmreset on pulse s = .next u) : u.Canon := by
  unfold execNdmreset at h
  dsimp only at h
  (repeat' split at h) <;> refine Canon.of_next h ?_ <;> with_reducible (repeat'
    first | assumption | intro _ | split | apply Canon.frame' (fenceCluster_fr ..) | apply Canon.frame (hartCause_fr ..)
          | apply loseDie_canon | apply Canon.frame (pk_fr ..) | apply Canon.frame (recordReach_fr ..) | apply warmSource_canon
          | apply Canon.frame (wr_fr ..) | apply Canon.frame (wrW_fr ..) | apply foldl_canon)

theorem execWatchdogTimeout_canon (pulse : Bool) {u : State} (h : execWatchdogTimeout pulse s = .next u) : u.Canon := by
  unfold execWatchdogTimeout at h
  (repeat' split at h) <;> refine Canon.of_next h ?_ <;> with_reducible (repeat'
    first | assumption | intro _ | split | apply warmSource_canon)

end

/-! ### DmCmds -/

section
variable {s : State} (hs : s.Canon)
include hs

theorem State.slotOf_canon (ln : Nat) (d : LineData) (n : Nat) : (s.slotOf ln d n).Canon := by
  unfold State.slotOf
  dsimp only
  with_reducible (repeat'
    first | assumption | intro _ | split | apply Canon.frame (checkAcc_fr ..) | apply doorbell_canon | apply Canon.frame (ringError_fr ..))

theorem State.lineBack_canon (ln : Nat) (m : Msg) : (s.lineBack ln m).Canon := by
  unfold State.lineBack
  dsimp only
  with_reducible (repeat'
    first | assumption | intro _ | split | apply Canon.frame (chanError_fr ..) | apply Canon.frame (chanSlotOf_fr ..)
          | apply Canon.frame (ringError_fr ..) | apply slotOf_canon | apply Canon.frame (watchRoom_fr ..) | apply foldl_canon
          | simp only [canon_upd])

theorem execDoorbellLineReturn_canon (ln : Nat) {u : State} (h : execDoorbellLineReturn ln s = .next u) : u.Canon := by
  unfold execDoorbellLineReturn at h
  refine Canon.of_next h ?_
  with_reducible (repeat' first | assumption | intro _ | split | apply lineBack_canon | apply onMsg_canon)

theorem execProgramTableEntry_canon (n : Fin 32) {u : State} (h : execProgramTableEntry n s = .next u) : u.Canon := by
  unfold execProgramTableEntry at h
  dsimp only at h
  (repeat' split at h) <;> refine Canon.of_next h ?_ <;> with_reducible (repeat'
    first | assumption | intro _ | split | apply Canon.frame (addF_fr ..) | apply Canon.frame (chanBad_fr ..)
          | apply Canon.frame (chanError_fr ..) | apply readPa_canon | apply Canon.frame (setChan_fr ..) | apply Canon.frame (wr_fr ..))

theorem execMove_canon (n : Fin 32) {u : State} (h : execMove n s = .next u) : u.Canon := by
  unfold execMove at h
  dsimp only at h
  refine Canon.of_next h ?_
  with_reducible (repeat'
    first | assumption | intro _ | split | apply dmNext_canon | apply Canon.frame (setChan_fr ..) | apply dmRun_canon)

theorem State.encMore_canon (n : Nat) (left : Nat) : (s.encMore n left).Canon := by
  unfold State.encMore
  dsimp only
  with_reducible (repeat' first | assumption | intro _ | split | apply dmNext_canon | apply Canon.frame (setChan_fr ..))

omit hs in
theorem shutCol_canon (n : Nat) : KeepsCanon (shutCol n) := by
  unfold shutCol
  with_reducible (repeat'
    first | assumption | intro _ | apply keepsCanon_bind | apply keepsCanon_pure | apply keepsCanon_throw | apply keepsCanon_get | split
          | apply flushCol_canon)

omit hs in
theorem openCol_canon (n : Nat) (pa : Nat) (level : Nat) : KeepsCanon (openCol n pa level) := by
  unfold openCol
  with_reducible (repeat'
    first | assumption | intro _ | apply keepsCanon_bind | apply keepsCanon_pure | apply keepsCanon_throw | apply keepsCanon_get
          | apply dmRead_canon | apply encEnsure_canon | apply shutCol_canon)

theorem execEncode_canon (n : Fin 32) {u : State} (h : execEncode n s = .next u) : u.Canon := by
  unfold execEncode at h
  dsimp only at h
  refine Canon.of_next h ?_
  with_reducible (repeat'
    first | assumption | intro _ | split | apply dmDrop_canon | apply dmNext_canon | apply encMore_canon
          | apply Canon.frame (setChan_fr ..) | apply openCol_canon | apply dmRun_canon | apply encDo_canon)

omit hs in
theorem flushOpen_canon (n : Nat) (e : EncCol) (close : Bool) : KeepsCanon (flushOpen n e close) := by
  unfold flushOpen
  with_reducible (repeat'
    first | assumption | intro _ | apply keepsCanon_bind | apply keepsCanon_pure | apply keepsCanon_throw | apply keepsCanon_get
          | apply flushCol_canon)

omit hs in
theorem flushShut_canon (n : Nat) (e : EncCol) : KeepsCanon (flushShut n e) := by
  unfold flushShut
  with_reducible (repeat'
    first | assumption | intro _ | apply keepsCanon_bind | apply keepsCanon_pure | apply keepsCanon_throw | apply keepsCanon_get
          | apply flushCol_canon)

theorem State.dmFlush_canon (n : Nat) (i : DmIns) : (s.dmFlush n i).Canon := by
  unfold State.dmFlush
  with_reducible (repeat' first | assumption | intro _ | split | apply dmNext_canon | apply flushOpen_canon | apply encDo_canon)

theorem execFlush_canon (n : Fin 32) {u : State} (h : execFlush n s = .next u) : u.Canon := by
  unfold execFlush at h
  refine Canon.of_next h ?_
  with_reducible (repeat' first | assumption | intro _ | split | apply dmDrop_canon | apply dmFlush_canon | apply dmRun_canon)

theorem execLoop_canon (n : Fin 32) {u : State} (h : execLoop n s = .next u) : u.Canon := by
  unfold execLoop at h
  refine Canon.of_next h ?_
  with_reducible (repeat' first | assumption | intro _ | apply dmLoop_canon | apply dmRun_canon)

theorem execWait_canon (n : Fin 32) {u : State} (h : execWait n s = .next u) : u.Canon := by
  unfold execWait at h
  refine Canon.of_next h ?_
  with_reducible (repeat'
    first | assumption | intro _ | split | apply dmNext_canon | apply Canon.frame (setChan_fr ..) | apply dmRun_canon)

theorem execWaitPoll_canon (n : Fin 32) {u : State} (h : execWaitPoll n s = .next u) : u.Canon := by
  unfold execWaitPoll at h
  dsimp only at h
  refine Canon.of_next h ?_
  with_reducible (repeat' first | assumption | intro _ | split | apply dmNext_canon | apply readPa_canon)

theorem execWaitTimeout_canon (n : Fin 32) {u : State} (h : execWaitTimeout n s = .next u) : u.Canon := by
  unfold execWaitTimeout at h
  refine Canon.of_next h ?_
  with_reducible (repeat' first | assumption | intro _ | split | apply dmNext_canon)

theorem execSignal_canon (n : Fin 32) {u : State} (h : execSignal n s = .next u) : u.Canon := by
  unfold execSignal at h
  dsimp only at h
  refine Canon.of_next h ?_
  with_reducible (repeat'
    first | assumption | intro _ | split | apply chanMsi_canon | apply dmNext_canon | apply writePa_canon | apply dmRun_canon)

theorem State.dmFin_canon (n : Nat) (i : DmIns) : (s.dmFin n i).Canon := by
  unfold State.dmFin
  dsimp only
  with_reducible (repeat' first | assumption | intro _ | split | apply dmStatus_canon | apply Canon.frame (setChan_fr ..))

theorem State.dmEnd_canon (n : Nat) (i : DmIns) : (s.dmEnd n i).Canon := by
  unfold State.dmEnd
  with_reducible (repeat' first | assumption | intro _ | split | apply dmFin_canon | apply flushShut_canon | apply encDo_canon)

theorem execDmEnd_canon (n : Fin 32) {u : State} (h : execDmEnd n s = .next u) : u.Canon := by
  unfold execDmEnd at h
  refine Canon.of_next h ?_
  with_reducible (repeat' first | assumption | intro _ | split | apply dmEnd_canon | apply dmSelfEnd_canon | apply dmRun_canon)

theorem execDmReservedOpcode_canon (n : Fin 32) {u : State} (h : execDmReservedOpcode n s = .next u) : u.Canon := by
  unfold execDmReservedOpcode at h
  refine Canon.of_next h ?_
  with_reducible (repeat' first | assumption | intro _ | apply dmSelfEnd_canon | apply dmRun_canon)

theorem State.moveLine_canon (n : Nat) (src : Nat) (dst : Nat) (left : Nat) : (s.moveLine n src dst left).Canon := by
  unfold State.moveLine
  dsimp only
  with_reducible (repeat'
    first | assumption | intro _ | split | apply dmNext_canon | apply readPa_canon | apply Canon.frame (setChan_fr ..)
          | apply writePa_canon)

theorem State.encodeRows_canon (n left : Nat) : (s.encodeRows n left).Canon := by
  unfold State.encodeRows
  split
  · exact dmNext_canon hs ..
  · have hr := fun e => (takeRowsOf_canon n e left).run hs
    split <;> rename_i e
    · exact encMore_canon (.frame (setChan_fr ..) (.of_snd e (hr _))) ..
    · exact dmDrop_canon (.of_snd e (hr _)) ..

theorem execDmReadReturn_canon (n : Fin 32) {u : State} (h : execDmReadReturn n s = .next u) : u.Canon := by
  unfold execDmReadReturn at h
  refine Canon.of_next h ?_
  with_reducible (repeat' first | assumption | intro _ | split | apply moveLine_canon | apply encodeRows_canon)

theorem execFooterWrite_canon (n : Fin 32) {u : State} (h : execFooterWrite n s = .next u) : u.Canon := by
  unfold execFooterWrite at h
  dsimp only at h
  refine Canon.of_next h ?_
  with_reducible (repeat'
    first | assumption | intro _ | split | apply closeRefused_canon | apply Canon.frame (setChan_fr ..) | apply writePa_canon)

theorem execEncodeBlockWriteBack_canon (n : Fin 32) {u : State} (h : execEncodeBlockWriteBack n s = .next u) : u.Canon := by
  unfold execEncodeBlockWriteBack at h
  dsimp only at h
  refine Canon.of_next h ?_
  with_reducible (repeat'
    first | assumption | intro _ | split | apply closeRefused_canon | apply Canon.frame (setChan_fr ..) | apply writePa_canon)

theorem execProgramDone_canon (n : Fin 32) {u : State} (h : execProgramDone n s = .next u) : u.Canon := by
  unfold execProgramDone at h
  dsimp only at h
  refine Canon.of_next h ?_
  with_reducible (repeat'
    first | assumption | intro _ | split | apply Canon.frame (addF_fr ..) | apply chanMsi_canon | apply Canon.frame (setChan_fr ..)
          | apply Canon.frame (wr_fr ..))

end

/-! ### PcieCmds -/

section
variable {s : State} (hs : s.Canon)
include hs

theorem State.dmaRead_canon (j : Nat) (addr : Nat) (len : Nat) : (s.dmaRead j addr len).2.Canon := by
  unfold State.dmaRead
  dsimp only
  with_reducible (repeat'
    first | assumption | intro _ | split | apply Canon.frame (dmaRefused_fr ..) | apply Canon.frame (pmcDma_fr ..)
          | apply Canon.frame (raise_fr ..) | apply readPa_canon)

theorem execPcieDmaRead_canon (j : Fin 112) (tag : Nat) (addr : TlpAddr) (len : Nat) {u : State}
    (h : execPcieDmaRead j tag addr len s = .next u) : u.Canon := by
  unfold execPcieDmaRead at h
  dsimp only at h
  (repeat' split at h) <;> refine Canon.of_next h ?_ <;> with_reducible (repeat'
    first | assumption | intro _ | split | apply dmaRead_canon | apply Canon.frame (ecrcError_fr ..) | apply Canon.frame (send_fr ..)
          | apply Canon.frame (unsupported_fr ..))

theorem State.dmaWrite_canon (j : Nat) (addr : Nat) (bytes : List Byte) : (s.dmaWrite j addr bytes).Canon := by
  unfold State.dmaWrite
  dsimp only
  with_reducible (repeat'
    first | assumption | intro _ | split | apply Canon.frame (dmaRefused_fr ..) | apply Canon.frame (pmcDma_fr ..) | apply writePa_canon)

theorem execPcieDmaWrite_canon (j : Fin 112) (addr : TlpAddr) (bytes : List Byte) {u : State}
    (h : execPcieDmaWrite j addr bytes s = .next u) : u.Canon := by
  unfold execPcieDmaWrite at h
  refine Canon.of_next h ?_
  with_reducible (repeat'
    first | assumption | intro _ | split | apply dmaWrite_canon | apply Canon.frame (ecrcError_fr ..)
          | apply Canon.frame (unsupported_fr ..))

theorem execAtomicOp_canon (j : Fin 112) (tag : Nat) (addr : TlpAddr) (op : AtomicKind) (size : Nat) (operand : Nat) (compare : Nat)
    {u : State} (h : execAtomicOp j tag addr op size operand compare s = .next u) : u.Canon := by
  unfold execAtomicOp at h
  dsimp only at h
  (repeat' split at h) <;> refine Canon.of_next h ?_ <;> with_reducible (repeat'
    first | assumption | intro _ | split | apply dmaRead_canon | apply Canon.frame (dmaRefused_fr ..)
          | apply Canon.frame (ecrcError_fr ..) | apply homePull_canon | apply Canon.frame (send_fr ..)
          | apply Canon.frame (unsupported_fr ..) | apply writePa_canon)

theorem execPcieMsi_canon (j : Fin 112) (addr : Nat) (eiid : Nat) {u : State} (h : execPcieMsi j addr eiid s = .next u) : u.Canon := by
  unfold execPcieMsi at h
  refine Canon.of_next h ?_
  with_reducible (repeat' first | assumption | intro _ | split | apply msiTo_canon)

end

/-! ### PowerCmds -/

section
variable {s : State} (hs : s.Canon)
include hs

theorem State.refuseReg_canon (who : Ident) (off : Nat) : (s.refuseReg who off).Canon := by
  unfold State.refuseReg
  with_reducible (repeat' first | assumption | intro _ | apply Canon.frame (answer_fr ..) | apply viol_canon)

theorem execModeOrderSubmit_canon (m : Fin 2) (who : Ident) (target : Nat) {u : State} (h : execModeOrderSubmit m who target s = .next u) :
     u.Canon := by
  unfold execModeOrderSubmit at h
  dsimp only at h
  (repeat' split at h) <;> refine Canon.of_next h ?_ <;> with_reducible (repeat'
    first | assumption | intro _ | split | apply Canon.frame (answer_fr ..) | apply refuseReg_canon | apply Canon.frame (submitMode_fr ..)
          | apply Canon.frame (wrs_fr ..))

theorem State.powerFrom_canon (src : PowerSrc) (code : Nat) (unit : Nat) (value : Nat) : (s.powerFrom src code unit value).Canon := by
  unfold State.powerFrom
  dsimp only
  with_reducible (repeat'
    first | assumption | intro _ | split | apply Canon.frame (answer_fr ..) | apply refuseReg_canon | apply submitPower_canon
          | apply Canon.frame (wrs_fr ..))

theorem execSetTdp_canon (src : PowerSrc) (unit : Nat) (value : Nat) {u : State} (h : execSetTdp src unit value s = .next u) :
     u.Canon := by
  unfold execSetTdp at h
  refine Canon.of_next h ?_
  with_reducible (repeat' first | assumption | intro _ | apply powerFrom_canon)

theorem execCapCclk_canon (src : PowerSrc) (unit : Nat) (value : Nat) {u : State} (h : execCapCclk src unit value s = .next u) :
     u.Canon := by
  unfold execCapCclk at h
  refine Canon.of_next h ?_
  with_reducible (repeat' first | assumption | intro _ | apply powerFrom_canon)

theorem execGate_canon (src : PowerSrc) (unit : Nat) (value : Nat) {u : State} (h : execGate src unit value s = .next u) : u.Canon := by
  unfold execGate at h
  refine Canon.of_next h ?_
  with_reducible (repeat' first | assumption | intro _ | apply powerFrom_canon)

theorem execUngate_canon (src : PowerSrc) (unit : Nat) (value : Nat) {u : State} (h : execUngate src unit value s = .next u) :
     u.Canon := by
  unfold execUngate at h
  refine Canon.of_next h ?_
  with_reducible (repeat' first | assumption | intro _ | apply powerFrom_canon)

theorem execPowerOff_canon (src : PowerSrc) (unit : Nat) (value : Nat) {u : State} (h : execPowerOff src unit value s = .next u) :
     u.Canon := by
  unfold execPowerOff at h
  refine Canon.of_next h ?_
  with_reducible (repeat' first | assumption | intro _ | apply powerFrom_canon)

theorem execPowerOn_canon (src : PowerSrc) (unit : Nat) (value : Nat) {u : State} (h : execPowerOn src unit value s = .next u) :
     u.Canon := by
  unfold execPowerOn at h
  refine Canon.of_next h ?_
  with_reducible (repeat' first | assumption | intro _ | apply powerFrom_canon)

theorem execMemIdle_canon (src : PowerSrc) (unit : Nat) (value : Nat) {u : State} (h : execMemIdle src unit value s = .next u) :
     u.Canon := by
  unfold execMemIdle at h
  refine Canon.of_next h ?_
  with_reducible (repeat' first | assumption | intro _ | apply powerFrom_canon)

theorem State.resetFrom_canon (m : Fin 2) (who : Ident) (kind : Nat) (index : Nat) : (s.resetFrom m who kind index).Canon := by
  unfold State.resetFrom
  dsimp only
  with_reducible (repeat'
    first | assumption | intro _ | split | apply Canon.frame (answer_fr ..) | apply refuseReg_canon | apply submitReset_canon
          | apply Canon.frame (wrs_fr ..))

theorem execCoreResetReq_canon (m : Fin 2) (who : Ident) (index : Nat) {u : State} (h : execCoreResetReq m who index s = .next u) :
     u.Canon := by
  unfold execCoreResetReq at h
  refine Canon.of_next h ?_
  with_reducible (repeat' first | assumption | intro _ | apply resetFrom_canon)

theorem execClusterResetReq_canon (m : Fin 2) (who : Ident) (index : Nat) {u : State} (h : execClusterResetReq m who index s = .next u) :
     u.Canon := by
  unfold execClusterResetReq at h
  refine Canon.of_next h ?_
  with_reducible (repeat' first | assumption | intro _ | apply resetFrom_canon)

theorem execDieResetReq_canon (m : Fin 2) (who : Ident) (index : Nat) {u : State} (h : execDieResetReq m who index s = .next u) :
     u.Canon := by
  unfold execDieResetReq at h
  refine Canon.of_next h ?_
  with_reducible (repeat' first | assumption | intro _ | apply resetFrom_canon)

theorem execModeDecision_canon {u : State} (h : execModeDecision s = .next u) : u.Canon := by
  unfold execModeDecision at h
  refine Canon.of_next h ?_
  with_reducible (repeat' first | assumption | intro _ | apply arbitrate_canon)

theorem execNightEntry_canon {u : State} (h : execNightEntry s = .next u) : u.Canon := by
  unfold execNightEntry at h
  dsimp only at h
  (repeat' split at h) <;> refine Canon.of_next h ?_ <;> with_reducible (repeat'
    first | assumption | intro _ | split | apply Canon.frame (beginMove_fr ..) | apply Canon.frame (duskGate_fr ..)
          | apply Canon.frame (finxisLow_fr ..) | apply Canon.frame (linksL1_fr ..) | apply Canon.frame' (nightDies_fr ..)
          | apply Canon.frame (resetSliceRegs_fr ..) | apply selfRefresh_canon | apply Canon.frame (writeSave_fr ..) | apply foldl_canon)

theorem execDuskWake_canon (packet : Bool) {u : State} (h : execDuskWake packet s = .next u) : u.Canon := by
  unfold execDuskWake at h
  (repeat' split at h) <;> refine Canon.of_next h ?_ <;> with_reducible (repeat'
    first | assumption | intro _ | split | apply arriveMode_canon | apply Canon.frame (duskGate_fr ..))

theorem State.ioOff_canon : s.ioOff.Canon := by
  unfold State.ioOff
  dsimp only
  with_reducible (repeat'
    first | assumption | intro _ | apply Canon.frame (dropOrders_fr ..) | apply Canon.frame (pk_fr ..)
          | apply Canon.frame (portsOff_fr ..) | apply Canon.frame (resetPmc_fr ..) | apply Canon.frame (resetRegs_fr ..)
          | apply Canon.frame' (resetUnits_fr ..) | apply selfRefresh_canon | apply Canon.frame (wrs_fr ..) | apply foldl_canon)

theorem execModeTransitionDone_canon {u : State} (h : execModeTransitionDone s = .next u) : u.Canon := by
  unfold execModeTransitionDone at h
  dsimp only at h
  (repeat' split at h) <;> refine Canon.of_next h ?_ <;> with_reducible (repeat'
    first | assumption | intro _ | split | apply arriveMode_canon | apply Canon.frame (duskGate_fr ..) | apply Canon.frame (endMode_fr ..)
          | apply ioOff_canon | apply Canon.frame (pk_fr ..) | apply Canon.frame (sampleWake_fr ..) | apply foldl_canon)

theorem execNightWake_canon {u : State} (h : execNightWake s = .next u) : u.Canon := by
  unfold execNightWake at h
  dsimp only at h
  (repeat' split at h) <;> refine Canon.of_next h ?_ <;> with_reducible (repeat'
    first | assumption | intro _ | split | apply arriveMode_canon | apply Canon.frame (finxisLow_fr ..)
          | apply Canon.frame (leaveSr_fr ..) | apply Canon.frame (linksL1_fr ..) | apply Canon.frame (pk_fr ..)
          | apply Canon.frame (restoreSave_fr ..) | apply Canon.frame' (wakeDies_fr ..) | apply Canon.frame (wr_fr ..))

theorem execDieLoss_canon (d : Fin 12) (why : DieCause) {u : State} (h : execDieLoss d why s = .next u) : u.Canon := by
  unfold execDieLoss at h
  (repeat' split at h) <;> refine Canon.of_next h ?_ <;> with_reducible (repeat'
    first | assumption | intro _ | split | apply loseDie_canon)

theorem State.fillTrip_canon (n : Nat) (temp : Int) : (s.fillTrip n temp).Canon := by
  unfold State.fillTrip
  dsimp only
  with_reducible (repeat'
    first | assumption | intro _ | split | apply log_canon | apply Canon.frame (wr_fr ..) | apply Canon.frame (wrs_fr ..))

theorem State.tripIn_canon (m : Nat) : (s.tripIn m).Canon := by
  unfold State.tripIn
  with_reducible (repeat'
    first | assumption | intro _ | split | apply enterCaution_canon | apply enterSiding_canon | apply Canon.frame (pk_fr ..)
          | apply pmcStart_canon | apply stopUnits_canon | apply Canon.frame (tripCause_fr ..))

theorem execThermalTrip_canon (n : Fin 148) (temp : Int) {u : State} (h : execThermalTrip n temp s = .next u) : u.Canon := by
  unfold execThermalTrip at h
  dsimp only at h
  (repeat' split at h) <;> refine Canon.of_next h ?_ <;> with_reducible (repeat'
    first | assumption | intro _ | split | apply fillTrip_canon | apply Canon.frame (pk_fr ..) | apply tripIn_canon
          | simp only [canon_upd])

theorem execSensorScan_canon (temps : List Int) {u : State} (h : execSensorScan temps s = .next u) : u.Canon := by
  unfold execSensorScan at h
  dsimp only at h
  (repeat' split at h) <;> refine Canon.of_next h ?_ <;> with_reducible (repeat'
    first | assumption | intro _ | split | apply coldReset_canon | apply Canon.frame (crossings_fr ..) | apply Canon.frame (pk_fr ..)
          | apply Canon.frame (readSensors_fr ..) | apply Canon.frame (setAlt_fr ..))

theorem execUnitDrainTimeout_canon (unit : Nat) {u : State} (h : execUnitDrainTimeout unit s = .next u) : u.Canon := by
  unfold execUnitDrainTimeout at h
  dsimp only at h
  (repeat' split at h) <;> refine Canon.of_next h ?_ <;> with_reducible (repeat'
    first | assumption | intro _ | split | apply Canon.frame (endPower_fr ..) | apply fatalPkg_canon
          | apply Canon.frame' (fenceCluster_fr ..) | apply Canon.frame (finxisDown_fr ..) | apply Canon.frame (linkDown_fr ..)
          | apply Canon.frame (pk_fr ..) | apply recordErr_canon | apply Canon.frame (wr_fr ..) | apply foldl_canon)

end

/-! ### RingCmds -/

section
variable {s : State} (hs : s.Canon)
include hs

theorem State.begin_canon {ring seq : Nat} {ops : Nat → Bool} {f : Desc → State → State} (hf : ∀ d s, s.Canon → (f d s).Canon) :
    (s.begin ring seq ops f).Canon := by
  unfold State.begin
  dsimp only
  with_reducible (repeat' first | assumption | split | apply hf | apply Canon.frame (endDesc_fr ..) | apply Canon.frame (setDesc_fr ..))

theorem State.descDo_canon {d : Desc} {m : EM Unit} (hm : KeepsCanon m) : (s.descDo d m).Canon := by
  unfold State.descDo
  have hr := hm.run hs
  split <;> rename_i e
  · exact .of_snd e hr
  · exact tfault_canon (.frame (setDesc_fr ..) hs) ..
  · exact .frame (endDesc_fr ..) (.of_snd e hr)

omit hs in
theorem imageBytes_canon (d : Desc) (n : Nat) : KeepsCanon (imageBytes d n) := by
  unfold imageBytes
  with_reducible (repeat'
    first | assumption | intro _ | apply keepsCanon_bind | apply keepsCanon_pure | apply keepsCanon_throw | apply keepsCanon_get
          | apply keepsCanon_doSt | apply Canon.frame (setDesc_fr ..) | apply vread_canon)

theorem State.readImage_canon (d : Desc) : (s.readImage d).Canon := by
  unfold State.readImage
  dsimp only
  with_reducible (repeat'
    first | assumption | intro _ | split | apply Canon.frame (endDesc_fr ..) | apply Canon.frame (setDesc_fr ..) | apply stageRead_canon
          | apply Canon.frame (stagedImage_fr ..) | apply imageBytes_canon | apply descDo_canon)

theorem execLoadImage_canon (ring : Fin 4096) (seq : Nat) {u : State} (h : execLoadImage ring seq s = .next u) : u.Canon := by
  unfold execLoadImage at h
  refine Canon.of_next h ?_
  with_reducible (repeat' first | assumption | intro _ | apply readImage_canon | apply begin_canon)

theorem execFencedWorkBegin_canon (ring : Fin 4096) (seq : Nat) {u : State} (h : execFencedWorkBegin ring seq s = .next u) : u.Canon := by
  unfold execFencedWorkBegin at h
  refine Canon.of_next h ?_
  with_reducible (repeat' first | assumption | intro _ | split | apply fetchMore_canon | apply Canon.frame (setDesc_fr ..))

end

/-! ### Commit -/

section
variable {s : State} (hs : s.Canon)
include hs

theorem State.ringEnable_canon (n : Nat) : (s.ringEnable n).Canon := by
  unfold State.ringEnable
  dsimp only
  with_reducible (repeat'
    first | assumption | intro _ | split | apply Canon.frame (fxForget_fr ..) | apply readSlot_canon | apply Canon.frame (ringError_fr ..)
          | apply Canon.frame (rstW_fr ..) | apply Canon.frame (setRing_fr ..) | apply Canon.frame (watchLine_fr ..)
          | apply Canon.frame (wrs_fr ..))

theorem State.applyRings_canon (l : Tab (Nat × Nat)) : (s.applyRings l).Canon := by
  unfold State.applyRings
  dsimp only
  with_reducible (repeat'
    first | assumption | intro _ | apply Canon.frame (ctxDisable_fr ..) | apply fetchAll_canon | apply freeFaults_canon
          | apply Canon.frame (mergeRegs_fr ..) | apply Canon.frame (ringDisable_fr ..) | apply ringEnable_canon
          | apply Canon.frame (setCtx_fr ..) | apply foldl_canon)

theorem State.applyDm_canon (n : Nat) (l : Tab (Nat × Nat)) : (s.applyDm n l).Canon := by
  unfold State.applyDm
  dsimp only
  with_reducible (repeat'
    first | assumption | intro _ | split | apply Canon.frame (chanError_fr ..) | apply dmStatus_canon
          | apply Canon.frame (mergeRegs_fr ..) | apply readChanSlot_canon | apply Canon.frame (setChan_fr ..)
          | apply Canon.frame (watchLine_fr ..) | apply Canon.frame (wrs_fr ..))

theorem State.applyBlock_canon (b : Block) (l : Tab (Nat × Nat)) : (s.applyBlock b l).Canon := by
  unfold State.applyBlock
  dsimp only
  with_reducible (repeat'
    first | assumption | intro _ | split | apply applyDm_canon | apply applyFirewall_canon | apply Canon.frame (applyFx_fr ..)
          | apply Canon.frame (applyHome_fr ..) | apply Canon.frame' (applyOther_fr ..) | apply applyRings_canon
          | apply Canon.frame' (applyRouter_fr ..) | apply Canon.frame (applySlice_fr ..) | apply Canon.frame (ownersFrom_fr ..))

end

/-! ### CtuCmds -/

section
variable {s : State} (hs : s.Canon)
include hs

theorem State.ctuCmd_canon {who : Ident} {w : World} {f : State → State} (hf : ∀ s, s.Canon → (f s).Canon) :
    (s.ctuCmd who w f).Canon := by
  unfold State.ctuCmd
  split
  · exact .frame (answer_fr ..) (hf _ hs)
  · exact refuseReg_canon hs ..

theorem execCtuBegin_canon (who : Ident) (w : World) (tag : Nat) {u : State} (h : execCtuBegin who w tag s = .next u) : u.Canon := by
  unfold execCtuBegin at h
  refine Canon.of_next h ?_
  with_reducible (repeat' first | assumption | intro _ | apply Canon.frame (ctuBegin_fr ..) | apply ctuCmd_canon)

theorem execCtuCommit_canon (who : Ident) (w : World) (tag : Nat) {u : State} (h : execCtuCommit who w tag s = .next u) : u.Canon := by
  unfold execCtuCommit at h
  refine Canon.of_next h ?_
  with_reducible (repeat' first | assumption | intro _ | apply Canon.frame (ctuCommit_fr ..) | apply ctuCmd_canon)

theorem execCtuRollback_canon (who : Ident) (w : World) (tag : Nat) {u : State} (h : execCtuRollback who w tag s = .next u) :
     u.Canon := by
  unfold execCtuRollback at h
  refine Canon.of_next h ?_
  with_reducible (repeat' first | assumption | intro _ | apply Canon.frame (ctuRollback_fr ..) | apply ctuCmd_canon)

theorem execBlockApply_canon (b : Block) {u : State} (h : execBlockApply b s = .next u) : u.Canon := by
  unfold execBlockApply at h
  (repeat' split at h) <;> refine Canon.of_next h ?_ <;> with_reducible (repeat'
    first | assumption | intro _ | split | apply applyBlock_canon | apply Canon.frame (setCtu_fr ..))

end

end Sys2Proof.Machine
end

section
/-! PROOFS. Operations that may write memory, MRAM or flash keep them canonical: the engine's commands, accesses of harts,
coherence and the network (O5). -/

namespace Sys2Proof.Machine
open Sys2Proof State

/-! ### EngCmds -/

section
variable {s : State} (hs : s.Canon)
include hs

theorem State.inputDo_canon {n opc : Nat} {f : OpCtx → Task → EM Unit} (hf : ∀ c t, KeepsCanon (f c t)) :
    (s.inputDo n opc f).Canon := by
  refine taskDo_canon hs fun t => ?_
  (repeat' split) <;> [exact hf _ _; exact keepsCanon_pure _; exact keepsCanon_pure _]

omit hs in
theorem fetchScan_canon (n : Nat) (c : OpCtx) (t : Task) (b : Batch) : KeepsCanon (fetchScan n c t b) := by
  unfold fetchScan
  with_reducible (repeat'
    first | assumption | intro _ | apply keepsCanon_bind | apply keepsCanon_pure | apply keepsCanon_throw | apply keepsCanon_get | split
          | apply endFetch_canon | apply startFetch_canon | apply theTask_canon)

theorem execScan_canon (n : Fin 36) {u : State} (h : execScan n s = .next u) : u.Canon := by
  unfold execScan at h
  refine Canon.of_next h ?_
  with_reducible (repeat'
    first | assumption | intro _ | split | apply fetchScan_canon | apply startScan_canon | apply inputDo_canon | apply taskOp_canon
          | apply keepsCanon_pure)

omit hs in
theorem scanRaw_canon (n : Nat) (c : OpCtx) (t : Task) : KeepsCanon (scanRaw n c t) := by
  unfold scanRaw
  with_reducible (repeat'
    first | assumption | intro _ | apply keepsCanon_bind | apply keepsCanon_pure | apply keepsCanon_throw | apply keepsCanon_get | split
          | apply scanRawBlock_canon | apply tableChunks_canon | apply updPipe_canon | apply updTask_canon | apply scanTable_canon
          | dsimp only)

theorem execScanraw_canon (n : Fin 36) {u : State} (h : execScanraw n s = .next u) : u.Canon := by
  unfold execScanraw at h
  refine Canon.of_next h ?_
  with_reducible (repeat' first | assumption | intro _ | apply inputDo_canon | apply scanRaw_canon)

theorem execRecv_canon (n : Fin 36) {u : State} (h : execRecv n s = .next u) : u.Canon := by
  unfold execRecv at h
  refine Canon.of_next h ?_
  with_reducible (repeat' first | assumption | intro _ | split | apply inputDo_canon | apply opRecv_canon | apply keepsCanon_pure)

theorem State.inlineIn_canon (n : Nat) (c : OpCtx) (t : Task) : (s.inlineIn n c t).Canon := by
  unfold State.inlineIn
  dsimp only
  split
  · rename_i k _
    have hr := (inlineRead_canon c.d c.r (1024 * k * inlineRec c.m c.p c.o)
      (min 1024 (c.r.inBytes / max 1 (inlineRec c.m c.p c.o) - 1024 * k) * inlineRec c.m c.p c.o)).run hs
    split
    · exact hs
    · split <;> rename_i e
      · exact taskDo_canon (.of_snd e hr) fun t => keepsCanon_bind (inlineRows_canon _ _ _ _) fun b =>
          keepsCanon_bind (pack_canon _ _ _ _) fun _ => release_canon _ _
      · exact tfault_canon (.frame (updDesc_fr ..) hs) ..
      · exact .frame (fixRun_fr ..) (.of_snd e hr)
  · exact hs

theorem execInlineIn_canon (n : Fin 36) {u : State} (h : execInlineIn n s = .next u) : u.Canon := by
  unfold execInlineIn at h
  refine Canon.of_next h ?_
  with_reducible (repeat' first | assumption | intro _ | split | apply inlineIn_canon)

theorem execFilter_canon (n : Fin 36) {u : State} (h : execFilter n s = .next u) : u.Canon := by
  unfold execFilter at h
  refine Canon.of_next h ?_
  with_reducible (repeat'
    first | assumption | intro _ | split | apply taskDo_canon | apply taskOp_canon | apply opAggHome_canon | apply opAggLocal_canon
          | apply opBuild_canon | apply opEmit_canon | apply opEmitInline_canon | apply opFilter_canon)

theorem execProject_canon (n : Fin 36) {u : State} (h : execProject n s = .next u) : u.Canon := by
  unfold execProject at h
  refine Canon.of_next h ?_
  with_reducible (repeat'
    first | assumption | intro _ | split | apply taskDo_canon | apply taskOp_canon | apply opAggHome_canon | apply opAggLocal_canon
          | apply opBuild_canon | apply opEmit_canon | apply opEmitInline_canon | apply opHash_canon | apply opLimit_canon
          | apply opMatch_canon | apply opPartition_canon | apply opProbe_canon | apply opProject_canon)

theorem execMatch_canon (n : Fin 36) {u : State} (h : execMatch n s = .next u) : u.Canon := by
  unfold execMatch at h
  refine Canon.of_next h ?_
  with_reducible (repeat' first | assumption | intro _ | split | apply opMatch_canon | apply taskDo_canon | apply taskOp_canon)

theorem execHash_canon (n : Fin 36) {u : State} (h : execHash n s = .next u) : u.Canon := by
  unfold execHash at h
  refine Canon.of_next h ?_
  with_reducible (repeat'
    first | assumption | intro _ | split | apply taskDo_canon | apply taskOp_canon | apply opAggHome_canon | apply opAggLocal_canon
          | apply opBuild_canon | apply opEmit_canon | apply opEmitInline_canon | apply opHash_canon)

theorem execBuild_canon (n : Fin 36) {u : State} (h : execBuild n s = .next u) : u.Canon := by
  unfold execBuild at h
  refine Canon.of_next h ?_
  with_reducible (repeat' first | assumption | intro _ | split | apply opBuild_canon | apply taskDo_canon | apply taskOp_canon)

theorem execProbe_canon (n : Fin 36) {u : State} (h : execProbe n s = .next u) : u.Canon := by
  unfold execProbe at h
  refine Canon.of_next h ?_
  with_reducible (repeat'
    first | assumption | intro _ | split | apply opProbe_canon | apply probeOn_canon | apply taskDo_canon | apply taskOp_canon
          | apply opAggHome_canon | apply opAggLocal_canon | apply opEmit_canon | apply opEmitInline_canon | apply opLimit_canon
          | apply opPartition_canon | apply opSortRun_canon | apply opTopk_canon | apply keepsCanon_pure)

theorem execAggLocal_canon (n : Fin 36) {u : State} (h : execAggLocal n s = .next u) : u.Canon := by
  unfold execAggLocal at h
  refine Canon.of_next h ?_
  with_reducible (repeat' first | assumption | intro _ | split | apply opAggLocal_canon | apply taskOp_canon)

theorem execAggHome_canon (n : Fin 36) {u : State} (h : execAggHome n s = .next u) : u.Canon := by
  unfold execAggHome at h
  refine Canon.of_next h ?_
  with_reducible (repeat' first | assumption | intro _ | split | apply opAggHome_canon | apply taskOp_canon)

theorem execSortRun_canon (n : Fin 36) {u : State} (h : execSortRun n s = .next u) : u.Canon := by
  unfold execSortRun at h
  refine Canon.of_next h ?_
  with_reducible (repeat' first | assumption | intro _ | split | apply opSortRun_canon | apply taskOp_canon)

theorem execTopk_canon (n : Fin 36) {u : State} (h : execTopk n s = .next u) : u.Canon := by
  unfold execTopk at h
  refine Canon.of_next h ?_
  with_reducible (repeat'
    first | assumption | intro _ | split | apply opTopk_canon | apply taskOp_canon | apply opEmit_canon | apply opEmitInline_canon
          | apply opLimit_canon | apply opPartition_canon | apply keepsCanon_pure)

theorem execPartition_canon (n : Fin 36) {u : State} (h : execPartition n s = .next u) : u.Canon := by
  unfold execPartition at h
  refine Canon.of_next h ?_
  with_reducible (repeat' first | assumption | intro _ | apply opPartition_canon | apply taskOp_canon)

theorem execLimit_canon (n : Fin 36) {u : State} (h : execLimit n s = .next u) : u.Canon := by
  unfold execLimit at h
  refine Canon.of_next h ?_
  with_reducible (repeat' first | assumption | intro _ | apply opLimit_canon | apply taskOp_canon)

theorem execEmit_canon (n : Fin 36) {u : State} (h : execEmit n s = .next u) : u.Canon := by
  unfold execEmit at h
  refine Canon.of_next h ?_
  with_reducible (repeat' first | assumption | intro _ | apply opEmit_canon | apply taskOp_canon)

theorem execEmitInline_canon (n : Fin 36) {u : State} (h : execEmitInline n s = .next u) : u.Canon := by
  unfold execEmitInline at h
  refine Canon.of_next h ?_
  with_reducible (repeat' first | assumption | intro _ | apply opEmitInline_canon | apply taskOp_canon)

omit hs in
theorem opEnd_canon (n : Nat) (c : OpCtx) (t : Task) : KeepsCanon (opEnd n c t) := by
  unfold opEnd
  with_reducible (repeat'
    first | assumption | intro _ | apply keepsCanon_pure | apply keepsCanon_throw | apply keepsCanon_get | apply batchOver_canon)

theorem execEnd_canon (n : Fin 36) {u : State} (h : execEnd n s = .next u) : u.Canon := by
  unfold execEnd at h
  refine Canon.of_next h ?_
  with_reducible (repeat' first | assumption | intro _ | apply opEnd_canon | apply taskOp_canon)

theorem execMerge_canon (n : Fin 36) {u : State} (h : execMerge n s = .next u) : u.Canon := by
  unfold execMerge at h
  refine Canon.of_next h ?_
  with_reducible (repeat'
    first | assumption | intro _ | split | apply opMerge_canon | apply inputDo_canon | apply finalMerge_canon | apply interMerge_canon
          | apply keepsCanon_pure)

theorem execIntermediateMergeTask_canon (n : Fin 36) {u : State} (h : execIntermediateMergeTask n s = .next u) : u.Canon := by
  unfold execIntermediateMergeTask at h
  refine Canon.of_next h ?_
  with_reducible (repeat'
    first | assumption | intro _ | split | apply interMerge_canon | apply inputDo_canon | apply finalMerge_canon | apply keepsCanon_pure)

theorem execFinalMergeTask_canon (n : Fin 36) {u : State} (h : execFinalMergeTask n s = .next u) : u.Canon := by
  unfold execFinalMergeTask at h
  refine Canon.of_next h ?_
  with_reducible (repeat' first | assumption | intro _ | split | apply inputDo_canon | apply finalMerge_canon | apply keepsCanon_pure)

omit hs in
theorem gatherTask_canon (n : Nat) (c : OpCtx) (t : Task) : KeepsCanon (gatherTask n c t) := by
  unfold gatherTask
  with_reducible (repeat'
    first | assumption | intro _ | apply keepsCanon_bind | apply keepsCanon_pure | apply keepsCanon_throw | apply keepsCanon_get
          | apply keepsCanon_doSt | split | apply Canon.frame (updRun_fr ..) | apply cbRead_canon | apply pack_canon | apply release_canon
          | apply updPipe_canon | dsimp only)

theorem execGatherTask_canon (n : Fin 36) {u : State} (h : execGatherTask n s = .next u) : u.Canon := by
  unfold execGatherTask at h
  refine Canon.of_next h ?_
  with_reducible (repeat' first | assumption | intro _ | split | apply gatherTask_canon | apply taskDo_canon | apply keepsCanon_pure)

theorem execTopkRows_canon (n : Fin 36) {u : State} (h : execTopkRows n s = .next u) : u.Canon := by
  unfold execTopkRows at h
  refine Canon.of_next h ?_
  with_reducible (repeat' first | assumption | intro _ | apply gatherRows_canon)

theorem execLevel0MergeTask_canon (n : Fin 36) {u : State} (h : execLevel0MergeTask n s = .next u) : u.Canon := by
  unfold execLevel0MergeTask at h
  refine Canon.of_next h ?_
  with_reducible (repeat' first | assumption | intro _ | split | apply taskDo_canon | apply level0Merge_canon | apply keepsCanon_pure)

theorem State.scanCheck_canon (n : Nat) (ln : Nat) (b : PageBuf) : (s.scanCheck n ln b).Canon := by
  unfold State.scanCheck
  dsimp only
  with_reducible (repeat'
    first | assumption | intro _ | split | apply Canon.frame (failTask_fr ..) | apply Canon.frame (pmcFront_fr ..) | apply readLine_canon
          | apply Canon.frame (setPage_fr ..) | simp only [canon_upd] | refine Canon.of_snd (by assumption) ?_
          | refine Canon.of_snd_snd (by assumption) ?_)

theorem execScanCheck_canon (n : Fin 36) (ln : Nat) {u : State} (h : execScanCheck n ln s = .next u) : u.Canon := by
  unfold execScanCheck at h
  refine Canon.of_next h ?_
  with_reducible (repeat' first | assumption | intro _ | split | apply scanCheck_canon)

theorem execPageRelease_canon (n : Fin 36) (col : Fin 16) (page : Nat) {u : State} (h : execPageRelease n col page s = .next u) :
     u.Canon := by
  unfold execPageRelease at h
  refine Canon.of_next h ?_
  with_reducible (repeat' first | assumption | intro _ | split | apply releasePage_canon | apply taskDo_canon | apply keepsCanon_pure)

theorem execCorrectionWriteBack_canon {u : State} (h : execCorrectionWriteBack s = .next u) : u.Canon := by
  unfold execCorrectionWriteBack at h
  dsimp only at h
  refine Canon.of_next h ?_
  with_reducible (repeat'
    first | assumption | intro _ | split | apply Canon.frame (State.eng'_fr ..) | apply lineNow_canon | apply Canon.frame (pmcFront_fr ..)
          | apply writeLine_canon)

theorem execChainFwd_canon (n : Fin 36) {u : State} (h : execChainFwd n s = .next u) : u.Canon := by
  unfold execChainFwd at h
  refine Canon.of_next h ?_
  with_reducible (repeat' first | assumption | intro _ | split | apply chainStep_canon | apply taskDo_canon | apply keepsCanon_pure)

omit hs in
theorem rowFetch_canon (n : Nat) (c : OpCtx) (t : Task) (b : Batch) : KeepsCanon (rowFetch n c t b) := by
  unfold rowFetch
  with_reducible (repeat'
    first | assumption | intro _ | apply keepsCanon_bind | apply keepsCanon_pure | apply keepsCanon_throw | apply keepsCanon_get
          | apply keepsCanon_doSt | split | apply Canon.frame (takePage_fr ..) | apply endFetch_canon | apply fetchRows_canon
          | apply theTask_canon | simp only [canon_upd] | apply foldl_canon)

theorem execRowFetch_canon (n : Fin 36) {u : State} (h : execRowFetch n s = .next u) : u.Canon := by
  unfold execRowFetch at h
  refine Canon.of_next h ?_
  with_reducible (repeat' first | assumption | intro _ | split | apply taskDo_canon | apply rowFetch_canon | apply keepsCanon_pure)

theorem execSurvivor_canon (n : Fin 36) {u : State} (h : execSurvivor n s = .next u) : u.Canon := by
  unfold execSurvivor at h
  refine Canon.of_next h ?_
  with_reducible (repeat' first | assumption | intro _ | split | apply takeBlock_canon | apply taskDo_canon | apply keepsCanon_pure)

theorem execBucketInsert_canon (id : Nat) {u : State} (h : execBucketInsert id s = .next u) : u.Canon := by
  unfold execBucketInsert at h
  refine Canon.of_next h ?_
  with_reducible (repeat' first | assumption | intro _ | split | apply bucketStep_canon)

theorem execBucketProbe_canon (id : Nat) {u : State} (h : execBucketProbe id s = .next u) : u.Canon := by
  unfold execBucketProbe at h
  refine Canon.of_next h ?_
  with_reducible (repeat' first | assumption | intro _ | split | apply bucketStep_canon)

theorem execBucketMerge_canon (id : Nat) {u : State} (h : execBucketMerge id s = .next u) : u.Canon := by
  unfold execBucketMerge at h
  refine Canon.of_next h ?_
  with_reducible (repeat' first | assumption | intro _ | split | apply bucketStep_canon)

theorem execAnchorVisit_canon (id : Nat) {u : State} (h : execAnchorVisit id s = .next u) : u.Canon := by
  unfold execAnchorVisit at h
  refine Canon.of_next h ?_
  with_reducible (repeat' first | assumption | intro _ | split | apply anchorStep_canon)

theorem execSpillChunkVisit_canon (id : Nat) {u : State} (h : execSpillChunkVisit id s = .next u) : u.Canon := by
  unfold execSpillChunkVisit at h
  refine Canon.of_next h ?_
  with_reducible (repeat' first | assumption | intro _ | split | apply chunkStep_canon)

theorem State.probeResult_canon (b : BOp) : (s.probeResult b).Canon := by
  unfold State.probeResult
  dsimp only
  have hd := Canon.frame (dropBop_fr s b.id) hs
  split
  · exact hd
  · split
    · exact hd
    · have hg := fun x => Canon.frame (setTask_fr (s.dropBop b.id) b.slice x) hd
      split
      · exact hg _
      · refine taskDo_canon (hg _) fun t => ?_
        split
        · exact probeMake_canon _ _ _ _ _
        · exact keepsCanon_pure _

theorem execProbeResult_canon (id : Nat) {u : State} (h : execProbeResult id s = .next u) : u.Canon := by
  unfold execProbeResult at h
  refine Canon.of_next h ?_
  with_reducible (repeat' first | assumption | intro _ | split | apply probeResult_canon)

theorem execExchange_canon (n : Fin 36) {u : State} (h : execExchange n s = .next u) : u.Canon := by
  unfold execExchange at h
  refine Canon.of_next h ?_
  with_reducible (repeat' first | assumption | intro _ | apply takeExchange_canon)

theorem State.giveUnlessHeld_canon {n : Nat} {f : State → State} (hf : ∀ s, s.Canon → (f s).Canon) : (s.giveUnlessHeld n f).Canon := by
  unfold State.giveUnlessHeld
  dsimp only
  with_reducible (repeat' first | assumption | split | apply hf | apply Canon.frame (aimCode_fr ..))

theorem execDispatch_canon (n : Fin 36) {u : State} (h : execDispatch n s = .next u) : u.Canon := by
  unfold execDispatch at h
  refine Canon.of_next h ?_
  with_reducible (repeat' first | assumption | intro _ | apply dispatch_canon | apply giveUnlessHeld_canon)

theorem execRecvTaskDispatch_canon (n : Fin 36) {u : State} (h : execRecvTaskDispatch n s = .next u) : u.Canon := by
  unfold execRecvTaskDispatch at h
  refine Canon.of_next h ?_
  with_reducible (repeat' first | assumption | intro _ | apply dispatch_canon | apply giveUnlessHeld_canon)

theorem execCbufScrub_canon (n : Fin 36) {u : State} (h : execCbufScrub n s = .next u) : u.Canon := by
  unfold execCbufScrub at h
  dsimp only at h
  (repeat' split at h) <;> refine Canon.of_next h ?_ <;> with_reducible (repeat'
    first | assumption | intro _ | split | apply cbCorrect_canon | apply cbRecord_canon | apply Canon.frame (setSlice_fr ..))

theorem execTaskEnd_canon (n : Fin 36) {u : State} (h : execTaskEnd n s = .next u) : u.Canon := by
  unfold execTaskEnd at h
  dsimp only at h
  (repeat' split at h) <;> refine Canon.of_next h ?_ <;> with_reducible (repeat'
    first | assumption | intro _ | split | apply Canon.frame (fenceUnit_fr ..) | apply taskEnd_canon)

theorem execCompletionWrite_canon (ring : Fin 4096) (seq : Nat) {u : State} (h : execCompletionWrite ring seq s = .next u) : u.Canon := by
  unfold execCompletionWrite at h
  refine Canon.of_next h ?_
  with_reducible (repeat' first | assumption | intro _ | split | apply complete_canon)

end

/-! ### HartMem -/

section
variable {s : State} (hs : s.Canon)
include hs

theorem State.memFault_canon (hh : Nat) (f : TFault) (k : AKind) (va : Nat) : (s.memFault hh f k va).Canon := by
  unfold State.memFault
  with_reducible (repeat' first | assumption | intro _ | split | apply except_canon | apply exceptG_canon)

theorem State.shareNow_canon (c ln : Nat) (who : Ident) {d : LineData} {u : State} (h : s.shareNow c ln who = some (d, u)) : u.Canon := by
  unfold State.shareNow at h
  dsimp only at h
  split at h
  · cases h
  · rename_i kept got v e
    have hv : v.Canon := by
      split at e
      · cases e; exact .frame (pmcStop_fr ..) hs
      · rw [Option.map_eq_some_iff] at e
        obtain ⟨p, -, e⟩ := e
        cases e
        exact .frame (putLine_fr ..) (.frame (pmcStop_fr ..) (.frame (pmcStop_fr ..) hs))
    cases h
    refine .frame' (installLine_fr ..) (canon_upd.mpr (.frame (act_fr ..) ?_))
    split
    · exact hv
    · exact readLineQ_canon (.frame (pmcMem_fr ..) (.frame (pmcStop_fr ..) hv)) ..

theorem State.walkLine_canon (c ln : Nat) (who : Ident) : (s.walkLine c ln who).2.2.Canon := by
  unfold State.walkLine
  dsimp only
  with_reducible (repeat'
    first | assumption | split | apply readLine_canon | apply Canon.frame (putLine_fr ..) | apply Canon.frame (checkAcc_fr ..)
          | refine Canon.of_snd (by assumption) ?_ | (refine shareNow_canon ?_ _ _ _ (by assumption)))

theorem State.fetchPte_canon (x : XCtx) (pa : Nat) : (s.fetchPte x pa).2.Canon := by
  unfold State.fetchPte
  with_reducible (repeat'
    first | assumption | intro _ | split | apply Canon.frame' (hev_fr ..) | apply recordErr_canon | apply walkLine_canon | dsimp only
          | refine Canon.of_snd (by assumption) ?_ | refine Canon.of_snd_snd (by assumption) ?_)

omit hs in
theorem State.descend_canon {x : XCtx} {st : TStage} {va top : Nat} {at_ : Nat → State → Except TFault (Nat × List TEntry) × State}
    (hat : ∀ p s, s.Canon → (at_ p s).2.Canon) (n tbl root : Nat) (glob : Bool) (acc : List TEntry) {s : State} (hs : s.Canon) :
    (s.descend x st va top at_ n tbl root glob acc).2.Canon := by
  induction n generalizing s tbl glob acc with
  | zero => exact hs
  | succ n ih =>
    unfold State.descend
    dsimp only
    with_reducible (repeat'
      first | assumption | split | apply ih | apply fetchPte_canon | apply hat | refine Canon.of_snd (by assumption) ?_)

theorem State.gStage_canon (x : XCtx) (k : AKind) (mxr : Bool) (gpa : Nat) : (s.gStage x k mxr gpa).2.Canon := by
  unfold State.gStage
  dsimp only
  with_reducible (repeat'
    first | assumption | intro _ | split | apply Canon.frame' (hev_fr ..) | apply descend_canon | dsimp only
          | refine Canon.of_snd (by assumption) ?_)

theorem tableAt_canon (x : XCtx) (hmxr : Bool) (p : Nat) : (tableAt x hmxr p s).2.Canon := by
  unfold tableAt
  with_reducible (repeat' first | assumption | intro _ | split | apply gStage_canon | dsimp only | refine Canon.of_snd (by assumption) ?_)

theorem State.xlate_canon (x : XCtx) (va : Nat) : (s.xlate x va).2.Canon := by
  unfold State.xlate
  dsimp only
  with_reducible (repeat'
    first | assumption | intro _ | split | apply gStage_canon | apply Canon.frame' (hev_fr ..) | apply Canon.frame' (hold_fr ..)
          | apply Canon.frame' (useLeaf_fr ..) | apply tableAt_canon | apply descend_canon | apply xlate_canon | dsimp only
          | refine Canon.of_snd (by assumption) ?_)

theorem State.untested_canon (hh : Nat) (k : AKind) (md : Mode) (v : Bool) (va : Nat) : (s.untested hh k md v va).2.Canon := by
  unfold State.untested
  dsimp only
  with_reducible (repeat' first | assumption | intro _ | split | apply State.xlate_canon)

theorem State.locate_canon (hh : Nat) (k : AKind) (va : Nat) : (s.locate hh k va).2.Canon := by
  unfold State.locate
  dsimp only
  with_reducible (repeat'
    first | assumption | intro _ | split | apply untested_canon | dsimp only | refine Canon.of_snd (by assumption) ?_)

theorem State.startAcc_canon (hh : Nat) (part : Nat) (ws : List Wait) : (s.startAcc hh part ws).Canon := by
  unfold State.startAcc
  dsimp only
  with_reducible (repeat'
    first | assumption | intro _ | split | apply access_canon | apply retryWaits_canon | apply Canon.frame (setCluster_fr ..)
          | apply Canon.frame' (setHart_fr ..) | apply foldl_canon)

end

/-! ### RegAccess -/

section
variable {s : State} (hs : s.Canon)
include hs

theorem State.writeSourcecfg_canon (w : World) (k : Nat) (v : Nat) : (s.writeSourcecfg w k v).Canon := by
  unfold State.writeSourcecfg
  dsimp only
  with_reducible (repeat' first | assumption | intro _ | split | apply aplicDeliver_canon | apply Canon.frame (setAplic_fr ..))

theorem State.writePend_canon (w : World) (k : Nat) (on : Bool) : (s.writePend w k on).Canon := by
  unfold State.writePend
  dsimp only
  with_reducible (repeat' first | assumption | intro _ | split | apply aplicDeliver_canon | apply Canon.frame (setAplic_fr ..))

theorem State.writeEn_canon (w : World) (k : Nat) (on : Bool) : (s.writeEn w k on).Canon := by
  unfold State.writeEn
  dsimp only
  with_reducible (repeat' first | assumption | intro _ | split | apply aplicDeliver_canon | apply Canon.frame (setAplic_fr ..))

theorem eachBit_canon {i v : Nat} {f : Nat → State → State} (hf : ∀ i s, s.Canon → (f i s).Canon) : (eachBit i v f s).Canon :=
  foldl_canon (fun s _ => hf _ s) _ hs

theorem State.aplicWrite_canon (w : World) (o v : Nat) : (s.aplicWrite w o v).Canon := by
  unfold State.aplicWrite
  dsimp only
  with_reducible (repeat'
    first | assumption | apply Canon.ite | intro _ | apply foldl_canon  | apply aplicDeliver_canon | apply aplicSend_canon
          | apply Canon.frame (setAplic_fr ..) | apply writeEn_canon | apply writePend_canon | apply writeSourcecfg_canon
          | apply eachBit_canon)

theorem State.regRead_canon (who : Ident) (off : Nat) (size : Nat) (user : Bool) : (s.regRead who off size user).2.Canon := by
  unfold State.regRead
  dsimp only
  with_reducible (repeat' first | assumption | intro _ | split | apply viol_canon)

theorem State.bootGood_canon : s.bootGood.Canon := by
  unfold State.bootGood
  with_reducible (repeat' first | assumption | intro _ | apply setMram_canon | apply Canon.frame (wrs_fr ..))

theorem State.regHook_canon (who : Ident) (o v : Nat) (pend : Bool) : (s.regHook who o v pend).Canon := by
  unfold State.regHook
  dsimp only
  with_reducible (repeat'
    first | assumption | apply Canon.ite  | apply bootGood_canon | apply Canon.frame (ctuOp_fr ..) | apply Canon.frame (flipDisarm_fr ..)
          | apply freeFaults_canon | apply Canon.frame (mailboxSubmit_fr ..) | apply Canon.frame (pk_fr ..)
          | apply Canon.frame (pmonClear_fr ..) | apply Canon.frame (recordReach_fr ..) | apply Canon.frame (stopHook_fr ..)
          | apply Canon.frame (submitMode_fr ..) | apply submitPower_canon | apply submitReset_canon | apply Canon.frame' (timerBit_fr ..)
          | apply Canon.frame (wr_fr ..))

omit hs in
theorem State.putFields_canon {s1 : State} (hs : s1.Canon) (s : State) (who : Ident) (o v : Nat) (mine : List FldWrite) (bad : Bool) :
    (s.putFields s1 who o v mine bad).Canon := by
  unfold State.putFields
  dsimp only
  with_reducible (repeat'
    first | assumption | intro _ | split | apply foldl_canon | apply regHook_canon | apply viol_canon
          | apply Canon.frame (writeField_fr ..))

theorem State.writeReg_canon (who : Ident) (o v m : Nat) (r : RegDef) : (s.writeReg who o v m r).2.Canon := by
  unfold State.writeReg
  extract_lets v v' xs mine bad sm
  split
  · exact hs
  · split <;> rename_i e
    · exact hs
    · refine putFields_canon ?_ ..
      split at e
      · rw [Option.some.injEq] at e
        exact e ▸ hs
      · exact .frame (stage_fr _ _ _ _ _ e) hs

theorem State.fileStore_canon (who : Ident) (f : Nat) (off : Nat) (val : Nat) : (s.fileStore who f off val).Canon := by
  unfold State.fileStore
  with_reducible (repeat' first | assumption | intro _ | split | apply Canon.frame (logFw_fr ..) | apply msi_canon | apply viol_canon)

theorem State.regWrite_canon (who : Ident) (off : Nat) (size : Nat) (val : Nat) (user : Bool) :
    (s.regWrite who off size val user).2.Canon := by
  unfold State.regWrite
  dsimp only
  with_reducible (repeat'
    first | assumption | intro _ | split | apply aplicWrite_canon | apply fileStore_canon | apply viol_canon | apply writeReg_canon)

theorem State.regStore_canon (who : Ident) (off : Nat) (size : Nat) (val : Nat) (user : Bool) :
    (s.regStore who off size val user).Canon := by
  unfold State.regStore
  with_reducible (repeat'
    first | assumption | intro _ | split | apply Canon.frame (answer_fr ..) | apply regWrite_canon | simp only [canon_upd]
          | refine Canon.of_snd (by assumption) ?_)

end

/-! ### CohCmds -/

section
variable {s : State} (hs : s.Canon)
include hs

theorem State.reqFails_canon (c : Nat) (ln : Nat) (who : Ident) : (s.reqFails c ln who).Canon := by
  unfold State.reqFails
  dsimp only
  with_reducible (repeat'
    first | assumption | intro _ | split | apply abortAcc_canon | apply Canon.frame (askMore_fr ..) | apply Canon.frame' (freeHeld_fr ..)
          | apply retryWaits_canon | apply Canon.frame (setCluster_fr ..) | apply foldl_canon)

theorem State.deliverTo_canon {p : MKind → Bool} {a ln : Nat} {f : Msg → State → State} (hf : ∀ m s, s.Canon → (f m s).Canon) :
    (s.deliverTo p a ln f).Canon := by
  refine onMsgs_canon hs fun m s hs => ?_
  split
  · exact hs
  · exact hf m s hs

theorem State.datGrantAt_canon (a : Nat) (ln : Nat) (m : Msg) : (s.datGrantAt a ln m).Canon := by
  unfold State.datGrantAt
  with_reducible (repeat' first | assumption | intro _ | split | apply Canon.frame (answer_fr ..) | apply granted_canon)

theorem execDatGrant_canon (a : Fin 164) (ln : Nat) {u : State} (h : execDatGrant a ln s = .next u) : u.Canon := by
  unfold execDatGrant at h
  refine Canon.of_next h ?_
  with_reducible (repeat' first | assumption | intro _ | split | apply datGrantAt_canon | apply deliverTo_canon)

theorem State.rspGrantAt_canon (c : Nat) (ln : Nat) (m : Msg) : (s.rspGrantAt c ln m).Canon := by
  unfold State.rspGrantAt
  dsimp only
  with_reducible (repeat' first | assumption | intro _ | split | apply granted_canon | apply Canon.frame (setCluster_fr ..))

theorem execRspGrant_canon (c : Fin 36) (ln : Nat) {u : State} (h : execRspGrant c ln s = .next u) : u.Canon := by
  unfold execRspGrant at h
  refine Canon.of_next h ?_
  with_reducible (repeat' first | assumption | intro _ | split | apply rspGrantAt_canon | apply deliverTo_canon)

theorem State.cmoDone_canon (a : Nat) (ln : Nat) : (s.cmoDone a ln).Canon := by
  unfold State.cmoDone
  dsimp only
  with_reducible (repeat'
    first | assumption | intro _ | split | apply Canon.frame (askMore_fr ..) | apply finishAcc_canon | apply retryWaits_canon
          | apply Canon.frame (setCluster_fr ..))

theorem execRspWdone_canon (a : Fin 164) (ln : Nat) {u : State} (h : execRspWdone a ln s = .next u) : u.Canon := by
  unfold execRspWdone at h
  refine Canon.of_next h ?_
  with_reducible (repeat'
    first | assumption | intro _ | split | apply Canon.frame (answer_fr ..) | apply cmoDone_canon | apply deliverTo_canon)

theorem execWbAck_canon (c : Fin 37) (ln : Nat) {u : State} (h : execWbAck c ln s = .next u) : u.Canon := by
  unfold execWbAck at h
  dsimp only at h
  refine Canon.of_next h ?_
  with_reducible (repeat'
    first | assumption | intro _ | split | apply Canon.frame (evictMore_fr ..) | apply retryWaits_canon
          | apply Canon.frame (setCluster_fr ..) | apply onMsgs_canon)

theorem State.memReadAt_canon (t : Nat) (x : DevLine) (m : Msg) : (s.memReadAt t x m).Canon := by
  unfold State.memReadAt
  dsimp only
  with_reducible (repeat'
    first | assumption | intro _ | split | apply Canon.frame (domainOff_fr ..) | apply Canon.frame (pmcMem_fr ..)
          | apply Canon.frame (post_fr ..) | apply Canon.frame (proceed_fr ..) | apply readLineQ_canon | apply Canon.frame (setHome_fr ..))

theorem execMemRead_canon (t : Fin 64) (x : DevLine) {u : State} (h : execMemRead t x s = .next u) : u.Canon := by
  unfold execMemRead at h
  refine Canon.of_next h ?_
  with_reducible (repeat' first | assumption | intro _ | apply memReadAt_canon | apply onMsg_canon)

theorem State.issueOldest_canon (ln : Nat) (full : Bool) : (s.issueOldest ln full).Canon := by
  unfold State.issueOldest
  dsimp only
  with_reducible (repeat'
    first | assumption | intro _ | split | apply issueWrite_canon | apply Canon.frame (logFw_fr ..) | simp only [canon_upd])

theorem execMemWrite_canon (ln : Nat) {u : State} (h : execMemWrite ln s = .next u) : u.Canon := by
  unfold execMemWrite at h
  refine Canon.of_next h ?_
  with_reducible (repeat' first | assumption | intro _ | apply issueOldest_canon)

theorem execMemWriteMask_canon (ln : Nat) {u : State} (h : execMemWriteMask ln s = .next u) : u.Canon := by
  unfold execMemWriteMask at h
  refine Canon.of_next h ?_
  with_reducible (repeat' first | assumption | intro _ | apply issueOldest_canon)

theorem execPatrolScrub_canon (m : Fin 16) {u : State} (h : execPatrolScrub m s = .next u) : u.Canon := by
  unfold execPatrolScrub at h
  dsimp only at h
  (repeat' split at h) <;> refine Canon.of_next h ?_ <;> with_reducible (repeat'
    first | assumption | intro _ | split | apply readMemLine_canon | apply Canon.frame (wr_fr ..))

theorem execOpDone_canon (o : OpRef) {u : State} (h : execOpDone o s = .next u) : u.Canon := by
  unfold execOpDone at h
  dsimp only at h
  refine Canon.of_next h ?_
  with_reducible (repeat'
    first | assumption | intro _ | split | apply Canon.frame (bopOver_fr ..) | apply Canon.frame (pagesOver_fr ..) | apply retire_canon
          | apply Canon.frame' (setHart_fr ..) | apply Canon.frame (setHolds_fr ..) | apply forAll_canon)

end

/-! ### FxCmds -/

section
variable {s : State} (hs : s.Canon)
include hs

theorem State.fxAct_canon {p type : Nat} {f : FxPkt → State → State} (hf : ∀ k s, s.Canon → (f k s).Canon) :
    (s.fxAct p type f).Canon := by
  unfold State.fxAct
  dsimp only
  split
  · exact hs
  · split
    · exact hs
    · exact hf _ _ (.frame (fxReturn_fr ..) (.frame (setPort_fr ..) hs))

theorem State.fxRing_canon {p type : Nat} {f : FxPkt → State → State} (hf : ∀ k s, s.Canon → (f k s).Canon) :
    (s.fxRing p type f).Canon := by
  refine fxAct_canon hs fun k s hs => ?_
  split
  · exact hf k s hs
  · exact .frame (fxNotice_fr ..) hs

theorem State.dataInTo_canon (p : Fin 4) (k : FxPkt) (d : Desc) (g : FxStage) : (s.dataInTo p k d g).Canon := by
  unfold State.dataInTo
  dsimp only
  with_reducible (repeat'
    first | assumption | intro _ | split | apply Canon.frame (dataInBad_fr ..) | apply Canon.frame (endDesc_fr ..)
          | apply Canon.frame (fixRun_fr ..) | apply Canon.frame (pmcFx_fr ..) | apply Canon.frame (setDesc_fr ..)
          | apply stageWrite_canon)

theorem State.dataInMsg_canon (p : Fin 4) (k : FxPkt) : (s.dataInMsg p k).Canon := by
  unfold State.dataInMsg
  with_reducible (repeat' first | assumption | intro _ | split | apply Canon.frame (dataInBad_fr ..) | apply dataInTo_canon)

theorem execDataIn_canon (p : Fin 4) {u : State} (h : execDataIn p s = .next u) : u.Canon := by
  unfold execDataIn at h
  refine Canon.of_next h ?_
  with_reducible (repeat' first | assumption | intro _ | apply dataInMsg_canon | apply fxRing_canon)

theorem execFxDoorbell_canon (p : Fin 4) {u : State} (h : execFxDoorbell p s = .next u) : u.Canon := by
  unfold execFxDoorbell at h
  refine Canon.of_next h ?_
  with_reducible (repeat'
    first | assumption | intro _ | split | apply doorbell_canon | apply Canon.frame (fxNotice_fr ..) | apply fxRing_canon)

theorem execFinxisReset_canon (p : Fin 4) (pulse : Bool) {u : State} (h : execFinxisReset p pulse s = .next u) : u.Canon := by
  unfold execFinxisReset at h
  refine Canon.of_next h ?_
  with_reducible (repeat'
    first | assumption | intro _ | split | apply Canon.frame (fxNotice_fr ..) | apply warmSource_canon | apply Canon.frame (wr_fr ..)
          | apply fxAct_canon)

end

/-! ### NetCmds -/

section
variable {s : State} (hs : s.Canon)
include hs

theorem State.forward_canon {t : Nat} {arr : Arrival} {f : Flit} {first r : Nat} {take : State → State}
    (hk : ∀ s, s.Canon → (take s).Canon) : (s.forward t arr f first r take).Canon := by
  unfold State.forward
  with_reducible (repeat'
    first | assumption | split | apply hk | apply discard_canon | apply pass_canon | apply Canon.frame (discard_fr ..)
          | apply Canon.frame (pass_fr ..)| apply Canon.frame (arbGrant_fr ..))

theorem State.linkRecord_canon (uu : Nat) (k : Nat) (cls : Nat) (f : Flit) : (s.linkRecord uu k cls f).Canon := by
  unfold State.linkRecord
  with_reducible (repeat' first | assumption | intro _ | apply recordErr_canon)

theorem State.linkDead_canon (uu : Nat) (k : Nat) (t : Nat) (f : Flit) : (s.linkDead uu k t f).Canon := by
  unfold State.linkDead
  dsimp only
  with_reducible (repeat'
    first | assumption | intro _ | split | apply Canon.frame (closeWith_fr ..) | apply Canon.frame (discard_fr ..)
          | apply Canon.frame (fab_fr ..) | apply fatalPkg_canon | apply linkRecord_canon | apply Canon.frame (setBuf_fr ..)
          | apply Canon.frame (wr_fr ..) | apply foldl_canon)

theorem State.linkReplay_canon (uu : Nat) (k : Nat) (t : Nat) (many : Bool) (f : Flit) : (s.linkReplay uu k t many f).Canon := by
  unfold State.linkReplay
  dsimp only
  with_reducible (repeat'
    first | assumption | intro _ | split | apply Canon.frame (answer_fr ..) | apply Canon.frame (fab_fr ..) | apply linkDead_canon
          | apply linkRecord_canon)

theorem execFlitRoute_canon (t : Fin 64) (arr : Crossing) (f : Flit) (first : Nat) {u : State}
    (h : execFlitRoute t arr f first s = .next u) : u.Canon := by
  unfold execFlitRoute at h
  dsimp only at h
  refine Canon.of_next h ?_
  with_reducible (repeat'
    first | assumption | intro _ | split | apply Canon.frame (fab_fr ..) | apply Canon.frame (injected_fr ..) | apply linkRecord_canon
          | apply linkReplay_canon | apply Canon.frame (setBuf_fr ..) | apply forward_canon)

theorem State.ioFails_canon (hh : Nat) : (s.ioFails hh).Canon := by
  unfold State.ioFails
  dsimp only
  with_reducible (repeat'
    first | assumption | intro _ | split | apply except_canon | apply Canon.frame' (freeHeld_fr ..) | apply Canon.frame' (setHart_fr ..))

theorem State.chanFails_canon (n : Nat) : (s.chanFails n).Canon := by
  unfold State.chanFails
  with_reducible (repeat' first | assumption | intro _ | split | apply closeRefused_canon | apply dmDrop_canon | apply dmNext_canon)

theorem execRspError_canon (x : ErrTarget) (code : Nat) {u : State} (h : execRspError x code s = .next u) : u.Canon := by
  unfold execRspError at h
  dsimp only at h
  refine Canon.of_next h ?_
  with_reducible (repeat'
    first | assumption | intro _ | split | apply chanFails_canon | apply Canon.frame (failTask_fr ..) | apply ioFails_canon
          | apply reqFails_canon | apply Canon.frame (send_fr ..) | apply Canon.frame (takeErr_fr ..) | apply onMsg_canon)

theorem State.timedOut_canon (r : ErrRec) (cls : Nat) (who : Ident) (ln : Nat) : (s.timedOut r cls who ln).Canon := by
  unfold State.timedOut
  with_reducible (repeat' first | assumption | intro _ | apply recordErr_canon)

theorem State.answerTimeout_canon (x : ErrTarget) : (s.answerTimeout x).Canon := by
  unfold State.answerTimeout
  with_reducible (repeat'
    first | assumption | intro _ | split | apply chanFails_canon | apply Canon.frame (failTask_fr ..) | apply ioFails_canon
          | apply reqFails_canon | apply Canon.frame (send_fr ..) | apply timedOut_canon)

theorem execTransactionTimeout_canon (x : Awaited) {u : State} (h : execTransactionTimeout x s = .next u) : u.Canon := by
  unfold execTransactionTimeout at h
  dsimp only at h
  refine Canon.of_next h ?_
  with_reducible (repeat'
    first | assumption | intro _ | split | apply answerTimeout_canon | apply fatalPkg_canon | apply Canon.frame' (fenceCluster_fr ..)
          | apply Canon.frame (memData_fr ..) | apply Canon.frame (snoopAnswer_fr ..) | apply timedOut_canon | simp only [canon_upd])

end

end Sys2Proof.Machine
end

section
/-! PROOFS. Operations that may write memory, MRAM or flash keep them canonical: instructions of harts, management and registers (O5). -/

namespace Sys2Proof.Machine
open Sys2Proof State

/-! ### HartCmds -/

section
variable {s : State} (hs : s.Canon)
include hs

theorem State.instr_canon {hh : Nat} {f : State → State} (hf : ∀ s, s.Canon → (f s).Canon) : (s.instr hh f).Canon := by
  unfold State.instr
  dsimp only
  with_reducible (repeat'
    first | assumption | split | apply hf | apply Canon.frame' (setHart_fr ..) | apply Canon.frame' (trigFires_fr ..)
          | apply Canon.frame' (freeHeld_fr ..))

omit hs in
theorem State.locateAll_canon (h : Nat) (k : AKind) (l : List Part) {s : State} (hs : s.Canon) : (s.locateAll h k l).2.Canon := by
  induction l generalizing s with
  | nil => exact hs
  | cons p ps ih =>
    unfold State.locateAll
    with_reducible (repeat' first | assumption | split | apply ih | apply locate_canon | refine Canon.of_snd (by assumption) ?_)

omit hs in
theorem State.ncLoadGo_canon (h va size len rd : Nat) (signed : Bool) (pa0 : Nat) (l : List (Part × PAddr)) (acc : List Byte) {s : State}
    (hs : s.Canon) : (State.ncLoadGo h va size len rd signed pa0 l acc s).Canon := by
  induction l generalizing s acc with
  | nil => exact retireAt_canon (.frame' (setHart_fr ..) hs) ..
  | cons p t ih =>
    unfold State.ncLoadGo
    with_reducible (repeat'
      first | assumption | split | apply ih | apply readPa_canon | apply except_canon | apply memFault_canon
            | apply Canon.frame' (hev_fr ..)| refine Canon.of_snd (by assumption) ?_)

theorem State.ncLoad_canon (hh : Nat) (va : Nat) (size : Nat) (len : Nat) (rd : Nat) (signed : Bool) (l : List (Part × PAddr)) :
    (s.ncLoad hh va size len rd signed l).Canon := by
  unfold State.ncLoad
  with_reducible (repeat' first | assumption | intro _ | apply ncLoadGo_canon)

omit hs in
theorem State.ncStoreGo_canon (h va len : Nat) (bytes : List Byte) (pa0 : Nat) (l : List (Part × PAddr)) {s : State} (hs : s.Canon) :
    (State.ncStoreGo h va len bytes pa0 l s).Canon := by
  induction l generalizing s with
  | nil => exact retireAt_canon hs ..
  | cons p t ih =>
    unfold State.ncStoreGo
    with_reducible (repeat'
      first | assumption | split | apply ih | apply writePa_canon | apply memFault_canon | refine Canon.of_snd (by assumption) ?_)

theorem State.ncStore_canon (hh : Nat) (va : Nat) (len : Nat) (bytes : List Byte) (l : List (Part × PAddr)) :
    (s.ncStore hh va len bytes l).Canon := by
  unfold State.ncStore
  with_reducible (repeat' first | assumption | intro _ | apply ncStoreGo_canon)

theorem State.trigAt_canon {hh : Nat} {k : AKind} {va : Nat} {f : State → State} (hf : ∀ s, s.Canon → (f s).Canon) :
    (s.trigAt hh k va f).Canon := by
  unfold State.trigAt
  with_reducible (repeat' first | assumption | split | apply hf | apply Canon.frame' (trigFires_fr ..))

theorem State.mixed_canon (hh : Nat) (store : Bool) (rd : Nat) (va : Nat) (size : Nat) (signed : Bool) (len : Nat) (bytes : List Byte)
    (near : List (Part × PAddr)) (far : List (Part × PAddr)) : (s.mixed hh store rd va size signed len bytes near far).Canon := by
  unfold State.mixed
  dsimp only
  with_reducible (repeat'
    first | assumption | intro _ | split | apply except_canon | apply Canon.frame' (hev_fr ..) | apply memFault_canon | apply readPa_canon
          | apply startAcc_canon | apply writePa_canon | simp only [canon_upd] | refine Canon.of_snd (by assumption) ?_)

theorem State.loadStore_canon (hh : Nat) (store : Bool) (reg : LsReg) (va : Nat) (size : Nat) (signed : Bool) (len : Nat) :
    (s.loadStore hh store reg va size signed len).Canon := by
  unfold State.loadStore
  dsimp only
  with_reducible (repeat'
    first | assumption | intro _ | split | apply except_canon | apply memFault_canon | apply mixed_canon | apply ncLoad_canon
          | apply ncStore_canon | apply startAcc_canon | apply Canon.frame' (startIo_fr ..) | apply locateAll_canon
          | simp only [canon_upd] | refine Canon.of_snd (by assumption) ?_)

theorem execLoadStore_canon (hh : Fin 216) (store : Bool) (reg : LsReg) (rs1 : Fin 32) (imm : Int) (size : Nat) (signed : Bool)
    (len : Nat) {u : State} (h : execLoadStore hh store reg rs1 imm size signed len s = .next u) : u.Canon := by
  unfold execLoadStore at h
  refine Canon.of_next h ?_
  with_reducible (repeat' first | assumption | intro _ | split | apply loadStore_canon | apply instr_canon | apply trigAt_canon)

theorem State.amoAt_canon (hh : Nat) (op : AmoOp) (rd : Nat) (rs1 : Nat) (rs2 : Nat) (size : Nat) :
    (s.amoAt hh op rd rs1 rs2 size).Canon := by
  unfold State.amoAt
  dsimp only
  with_reducible (repeat'
    first | assumption | intro _ | split | apply except_canon | apply Canon.frame' (hev_fr ..) | apply homePull_canon | apply locate_canon
          | apply memFault_canon | apply readPa_canon | apply retireAt_canon | apply Canon.frame' (setHart_fr ..) | apply startAcc_canon
          | apply writePa_canon | simp only [canon_upd] | refine Canon.of_snd (by assumption) ?_)

theorem execAmo_canon (hh : Fin 216) (op : AmoOp) (rd : Fin 32) (rs1 : Fin 32) (rs2 : Fin 32) (size : Nat) {u : State}
    (h : execAmo hh op rd rs1 rs2 size s = .next u) : u.Canon := by
  unfold execAmo at h
  refine Canon.of_next h ?_
  with_reducible (repeat' first | assumption | intro _ | apply amoAt_canon | apply instr_canon | apply trigAt_canon)

theorem State.lrAt_canon (hh : Nat) (rd : Nat) (rs1 : Nat) (size : Nat) : (s.lrAt hh rd rs1 size).Canon := by
  unfold State.lrAt
  dsimp only
  with_reducible (repeat'
    first | assumption | intro _ | split | apply except_canon | apply locate_canon | apply memFault_canon | apply startAcc_canon
          | simp only [canon_upd] | refine Canon.of_snd (by assumption) ?_)

theorem execLr_canon (hh : Fin 216) (rd : Fin 32) (rs1 : Fin 32) (size : Nat) {u : State} (h : execLr hh rd rs1 size s = .next u) :
     u.Canon := by
  unfold execLr at h
  refine Canon.of_next h ?_
  with_reducible (repeat' first | assumption | intro _ | apply lrAt_canon | apply instr_canon | apply trigAt_canon)

theorem State.scAt_canon (hh : Nat) (rd : Nat) (rs1 : Nat) (rs2 : Nat) (size : Nat) : (s.scAt hh rd rs1 rs2 size).Canon := by
  unfold State.scAt
  dsimp only
  with_reducible (repeat'
    first | assumption | intro _ | split | apply except_canon | apply locate_canon | apply memFault_canon | apply retireAt_canon
          | apply Canon.frame' (setHart_fr ..) | apply startAcc_canon | simp only [canon_upd] | refine Canon.of_snd (by assumption) ?_)

theorem execSc_canon (hh : Fin 216) (rd : Fin 32) (rs1 : Fin 32) (rs2 : Fin 32) (size : Nat) {u : State}
    (h : execSc hh rd rs1 rs2 size s = .next u) : u.Canon := by
  unfold execSc at h
  refine Canon.of_next h ?_
  with_reducible (repeat' first | assumption | intro _ | apply scAt_canon | apply instr_canon | apply trigAt_canon)

theorem execFence_canon (hh : Fin 216) (_pred : Nat) (_succ : Nat) {u : State} (h : execFence hh _pred _succ s = .next u) : u.Canon := by
  unfold execFence at h
  refine Canon.of_next h ?_
  with_reducible (repeat' first | assumption | intro _ | apply retire_canon | apply instr_canon)

theorem execFenceI_canon (hh : Fin 216) {u : State} (h : execFenceI hh s = .next u) : u.Canon := by
  unfold execFenceI at h
  refine Canon.of_next h ?_
  with_reducible (repeat' first | assumption | intro _ | apply retire_canon | apply instr_canon)

theorem State.cboWhere_canon (hh : Nat) (acc : HAcc) (va : Nat) : (s.cboWhere hh acc va).2.Canon := by
  unfold State.cboWhere
  with_reducible (repeat' first | assumption | intro _ | split | apply locate_canon | dsimp only | refine Canon.of_snd (by assumption) ?_)

theorem State.cbo_canon (hh : Nat) (rs1 : Fin 32) (ok : Nat → Bool) (acc : HAcc) : (s.cbo hh rs1 ok acc).Canon := by
  unfold State.cbo
  dsimp only
  with_reducible (repeat'
    first | assumption | intro _ | split | apply cboWhere_canon | apply except_canon | apply memFault_canon | apply startAcc_canon
          | simp only [canon_upd] | refine Canon.of_snd (by assumption) ?_)

theorem execCboZero_canon (hh : Fin 216) (rs1 : Fin 32) {u : State} (h : execCboZero hh rs1 s = .next u) : u.Canon := by
  unfold execCboZero at h
  refine Canon.of_next h ?_
  with_reducible (repeat' first | assumption | intro _ | apply cbo_canon | apply instr_canon)

theorem execCboClean_canon (hh : Fin 216) (rs1 : Fin 32) {u : State} (h : execCboClean hh rs1 s = .next u) : u.Canon := by
  unfold execCboClean at h
  refine Canon.of_next h ?_
  with_reducible (repeat' first | assumption | intro _ | apply cbo_canon | apply instr_canon)

theorem execCboFlush_canon (hh : Fin 216) (rs1 : Fin 32) {u : State} (h : execCboFlush hh rs1 s = .next u) : u.Canon := by
  unfold execCboFlush at h
  refine Canon.of_next h ?_
  with_reducible (repeat' first | assumption | intro _ | apply cbo_canon | apply instr_canon)

theorem execCboInval_canon (hh : Fin 216) (rs1 : Fin 32) {u : State} (h : execCboInval hh rs1 s = .next u) : u.Canon := by
  unfold execCboInval at h
  refine Canon.of_next h ?_
  with_reducible (repeat' first | assumption | intro _ | apply cbo_canon | apply instr_canon)

theorem State.prefetch_canon (hh : Nat) (rs1 : Fin 32) (imm : Int) (k : AKind) (r : ReqKind) : (s.prefetch hh rs1 imm k r).Canon := by
  unfold State.prefetch
  dsimp only
  with_reducible (repeat'
    first | assumption | intro _ | split | apply access_canon | apply locate_canon | apply retire_canon | simp only [canon_upd]
          | refine Canon.of_snd (by assumption) ?_)

theorem execPrefetchR_canon (hh : Fin 216) (rs1 : Fin 32) (imm : Int) {u : State} (h : execPrefetchR hh rs1 imm s = .next u) :
     u.Canon := by
  unfold execPrefetchR at h
  refine Canon.of_next h ?_
  with_reducible (repeat' first | assumption | intro _ | apply prefetch_canon | apply instr_canon)

theorem execPrefetchW_canon (hh : Fin 216) (rs1 : Fin 32) (imm : Int) {u : State} (h : execPrefetchW hh rs1 imm s = .next u) :
     u.Canon := by
  unfold execPrefetchW at h
  refine Canon.of_next h ?_
  with_reducible (repeat' first | assumption | intro _ | apply prefetch_canon | apply instr_canon)

theorem execPrefetchI_canon (hh : Fin 216) (rs1 : Fin 32) (imm : Int) {u : State} (h : execPrefetchI hh rs1 imm s = .next u) :
     u.Canon := by
  unfold execPrefetchI at h
  refine Canon.of_next h ?_
  with_reducible (repeat' first | assumption | intro _ | apply prefetch_canon | apply instr_canon)

theorem State.ioEnds_canon (hh : Nat) (a : IoAccess) (v : Nat) : (s.ioEnds hh a v).Canon := by
  unfold State.ioEnds
  dsimp only
  with_reducible (repeat' first | assumption | intro _ | split | apply retireAt_canon | apply Canon.frame' (setHart_fr ..))

theorem execRegDone_canon (hh : Fin 216) {u : State} (h : execRegDone hh s = .next u) : u.Canon := by
  unfold execRegDone at h
  dsimp only at h
  refine Canon.of_next h ?_
  with_reducible (repeat'
    first | assumption | intro _ | split | apply ioEnds_canon | apply ioFails_canon | apply regRead_canon | apply regWrite_canon
          | simp only [canon_upd] | refine Canon.of_snd (by assumption) ?_)

theorem State.ioPerform_canon {hh : Nat} {write : Bool} {f : Nat → IoAccess → State → State} (hf : ∀ j a s, s.Canon → (f j a s).Canon) :
    (s.ioPerform hh write f).Canon := by
  unfold State.ioPerform
  dsimp only
  with_reducible (repeat'
    first | assumption | split | apply hf | apply ioFails_canon | apply viol_canon | apply Canon.frame (logFw_fr ..)
          | apply Canon.frame (pmcAdd_fr ..) | apply Canon.frame (send_fr ..))

theorem execIoRead_canon (hh : Fin 216) (val : Nat) {u : State} (h : execIoRead hh val s = .next u) : u.Canon := by
  unfold execIoRead at h
  refine Canon.of_next h ?_
  with_reducible (repeat' first | assumption | intro _ | apply ioEnds_canon | apply ioPerform_canon)

theorem execIoWrite_canon (hh : Fin 216) {u : State} (h : execIoWrite hh s = .next u) : u.Canon := by
  unfold execIoWrite at h
  refine Canon.of_next h ?_
  with_reducible (repeat' first | assumption | intro _ | apply ioEnds_canon | apply ioPerform_canon)

theorem execPcieCompletionTimeout_canon (hh : Fin 216) {u : State} (h : execPcieCompletionTimeout hh s = .next u) : u.Canon := by
  unfold execPcieCompletionTimeout at h
  refine Canon.of_next h ?_
  with_reducible (repeat' first | assumption | intro _ | split | apply ioFails_canon | apply Canon.frame (logFw_fr ..))

end

/-! ### HartCsr -/

section
variable {s : State} (hs : s.Canon)
include hs

theorem execSatpWrite_canon (hh : Fin 216) (r : AtpReg) (val : Word) {u : State} (h : execSatpWrite hh r val s = .next u) : u.Canon := by
  unfold execSatpWrite at h
  dsimp only at h
  refine Canon.of_next h ?_
  with_reducible (repeat'
    first | assumption | intro _ | split | apply except_canon | apply retire_canon | apply Canon.frame' (setHart_fr ..)
          | apply instr_canon)

theorem execMhpmeventWrite_canon (hh : Fin 216) (k : Nat) (val : Word) {u : State} (h : execMhpmeventWrite hh k val s = .next u) :
     u.Canon := by
  unfold execMhpmeventWrite at h
  dsimp only at h
  refine Canon.of_next h ?_
  with_reducible (repeat'
    first | assumption | intro _ | split | apply except_canon | apply retire_canon | apply Canon.frame' (setHart_fr ..)
          | apply instr_canon)

theorem execCsrWrite_canon (hh : Fin 216) (csr : Nat) (val : Word) {u : State} (h : execCsrWrite hh csr val s = .next u) : u.Canon := by
  unfold execCsrWrite at h
  dsimp only at h
  refine Canon.of_next h ?_
  with_reducible (repeat'
    first | assumption | intro _ | split | apply except_canon | apply Canon.frame (fileCsr_fr ..) | apply retire_canon
          | apply Canon.frame' (sTimers_fr ..) | apply Canon.frame' (setHart_fr ..) | apply instr_canon)

end

/-! ### HartSys -/

section
variable {s : State} (hs : s.Canon)
include hs

theorem execWfi_canon (hh : Fin 216) {u : State} (h : execWfi hh s = .next u) : u.Canon := by
  unfold execWfi at h
  dsimp only at h
  refine Canon.of_next h ?_
  with_reducible (repeat'
    first | assumption | intro _ | split | apply Canon.frame (dropL1_fr ..) | apply except_canon | apply retire_canon
          | apply Canon.frame' (setHart_fr ..) | apply instr_canon)

theorem execWrsSto_canon (hh : Fin 216) {u : State} (h : execWrsSto hh s = .next u) : u.Canon := by
  unfold execWrsSto at h
  dsimp only at h
  refine Canon.of_next h ?_
  with_reducible (repeat'
    first | assumption | intro _ | split | apply retire_canon | apply Canon.frame' (setHart_fr ..) | apply instr_canon)

theorem execMsi_canon (who : Ident) (file : Fin 1944) (eiid : Nat) {u : State} (h : execMsi who file eiid s = .next u) : u.Canon := by
  unfold execMsi at h
  refine Canon.of_next h ?_
  with_reducible (repeat' first | assumption | intro _ | apply msi_canon)

theorem State.enterGate_canon (hh : Nat) (idx : Nat) (opt : Nat) (b : List Byte) : (s.enterGate hh idx opt b).Canon := by
  unfold State.enterGate
  dsimp only
  with_reducible (repeat'
    first | assumption | intro _ | apply Canon.frame' (setHart_fr ..) | apply Canon.frame' (stepped_fr ..) | apply tagStep_canon)

theorem State.tryGate_canon (hh : Nat) (idx : Nat) (opt : Nat) : (s.tryGate hh idx opt).Canon := by
  unfold State.tryGate
  dsimp only
  with_reducible (repeat' first | assumption | intro _ | split | apply enterGate_canon | apply except_canon | apply readPa_canon)

theorem State.hswGate_canon (hh : Nat) (idx : Nat) : (s.hswGate hh idx).Canon := by
  unfold State.hswGate
  dsimp only
  with_reducible (repeat' first | assumption | intro _ | split | apply except_canon | apply tryGate_canon)

theorem execHswGate_canon (hh : Fin 216) (i : Fin 256) {u : State} (h : execHswGate hh i s = .next u) : u.Canon := by
  unfold execHswGate at h
  refine Canon.of_next h ?_
  with_reducible (repeat' first | assumption | intro _ | apply hswGate_canon | apply instr_canon)

theorem State.hswRet_canon (hh : Nat) : (s.hswRet hh).Canon := by
  unfold State.hswRet
  dsimp only
  with_reducible (repeat'
    first | assumption | intro _ | split | apply except_canon | apply Canon.frame' (setHart_fr ..) | apply Canon.frame' (stepped_fr ..)
          | apply tagStep_canon)

theorem execHswRet_canon (hh : Fin 216) {u : State} (h : execHswRet hh s = .next u) : u.Canon := by
  unfold execHswRet at h
  refine Canon.of_next h ?_
  with_reducible (repeat' first | assumption | intro _ | apply hswRet_canon | apply instr_canon)

theorem State.hsc_canon (hh : Nat) (flush : Bool) (rs1 : Nat) (rs2 : Nat) : (s.hsc hh flush rs1 rs2).Canon := by
  unfold State.hsc
  dsimp only
  with_reducible (repeat'
    first | assumption | intro _ | split | apply except_canon | apply Canon.frame (holdAll_fr ..) | apply retire_canon
          | apply Canon.frame' (setHart_fr ..))

theorem execHscClean_canon (hh : Fin 216) (rs1 : Fin 32) (rs2 : Fin 32) {u : State} (h : execHscClean hh rs1 rs2 s = .next u) :
     u.Canon := by
  unfold execHscClean at h
  refine Canon.of_next h ?_
  with_reducible (repeat' first | assumption | intro _ | apply hsc_canon | apply instr_canon)

theorem execHscFlush_canon (hh : Fin 216) (rs1 : Fin 32) (rs2 : Fin 32) {u : State} (h : execHscFlush hh rs1 rs2 s = .next u) :
     u.Canon := by
  unfold execHscFlush at h
  refine Canon.of_next h ?_
  with_reducible (repeat' first | assumption | intro _ | apply hsc_canon | apply instr_canon)

theorem State.tlbOp_canon (hh : Nat) (gate : Option Nat) (p : TEntry → Bool) : (s.tlbOp hh gate p).Canon := by
  unfold State.tlbOp
  with_reducible (repeat'
    first | assumption | intro _ | split | apply except_canon | apply retire_canon | apply Canon.frame' (setHart_fr ..))

theorem State.sfence_canon (hh : Nat) (rs1 : Fin 32) (rs2 : Fin 32) : (s.sfence hh rs1 rs2).Canon := by
  unfold State.sfence
  dsimp only
  with_reducible (repeat' first | assumption | intro _ | apply tlbOp_canon)

theorem State.hfenceV_canon (hh : Nat) (rs1 : Fin 32) (rs2 : Fin 32) : (s.hfenceV hh rs1 rs2).Canon := by
  unfold State.hfenceV
  dsimp only
  with_reducible (repeat' first | assumption | intro _ | apply tlbOp_canon)

theorem State.hfenceG_canon (hh : Nat) (rs1 : Fin 32) (rs2 : Fin 32) : (s.hfenceG hh rs1 rs2).Canon := by
  unfold State.hfenceG
  dsimp only
  with_reducible (repeat' first | assumption | intro _ | split | apply tlbOp_canon)

theorem execSfenceVma_canon (hh : Fin 216) (rs1 : Fin 32) (rs2 : Fin 32) {u : State} (h : execSfenceVma hh rs1 rs2 s = .next u) :
     u.Canon := by
  unfold execSfenceVma at h
  refine Canon.of_next h ?_
  with_reducible (repeat' first | assumption | intro _ | apply sfence_canon | apply instr_canon)

theorem execSinvalVma_canon (hh : Fin 216) (rs1 : Fin 32) (rs2 : Fin 32) {u : State} (h : execSinvalVma hh rs1 rs2 s = .next u) :
     u.Canon := by
  unfold execSinvalVma at h
  refine Canon.of_next h ?_
  with_reducible (repeat' first | assumption | intro _ | apply sfence_canon | apply instr_canon)

theorem execHfenceVvma_canon (hh : Fin 216) (rs1 : Fin 32) (rs2 : Fin 32) {u : State} (h : execHfenceVvma hh rs1 rs2 s = .next u) :
     u.Canon := by
  unfold execHfenceVvma at h
  refine Canon.of_next h ?_
  with_reducible (repeat' first | assumption | intro _ | apply hfenceV_canon | apply instr_canon)

theorem execHinvalVvma_canon (hh : Fin 216) (rs1 : Fin 32) (rs2 : Fin 32) {u : State} (h : execHinvalVvma hh rs1 rs2 s = .next u) :
     u.Canon := by
  unfold execHinvalVvma at h
  refine Canon.of_next h ?_
  with_reducible (repeat' first | assumption | intro _ | apply hfenceV_canon | apply instr_canon)

theorem execHfenceGvma_canon (hh : Fin 216) (rs1 : Fin 32) (rs2 : Fin 32) {u : State} (h : execHfenceGvma hh rs1 rs2 s = .next u) :
     u.Canon := by
  unfold execHfenceGvma at h
  refine Canon.of_next h ?_
  with_reducible (repeat' first | assumption | intro _ | apply hfenceG_canon | apply instr_canon)

theorem execHinvalGvma_canon (hh : Fin 216) (rs1 : Fin 32) (rs2 : Fin 32) {u : State} (h : execHinvalGvma hh rs1 rs2 s = .next u) :
     u.Canon := by
  unfold execHinvalGvma at h
  refine Canon.of_next h ?_
  with_reducible (repeat' first | assumption | intro _ | apply hfenceG_canon | apply instr_canon)

theorem State.tflush_canon (hh : Nat) (rs1 : Fin 32) (rs2 : Fin 32) : (s.tflush hh rs1 rs2).Canon := by
  unfold State.tflush
  dsimp only
  with_reducible (repeat' first | assumption | intro _ | apply tlbOp_canon)

theorem execHscTflush_canon (hh : Fin 216) (rs1 : Fin 32) (rs2 : Fin 32) {u : State} (h : execHscTflush hh rs1 rs2 s = .next u) :
     u.Canon := by
  unfold execHscTflush at h
  refine Canon.of_next h ?_
  with_reducible (repeat' first | assumption | intro _ | apply tflush_canon | apply instr_canon)

theorem State.gtflush_canon (hh : Nat) (rs1 : Fin 32) (rs2 : Fin 32) : (s.gtflush hh rs1 rs2).Canon := by
  unfold State.gtflush
  dsimp only
  with_reducible (repeat' first | assumption | intro _ | split | apply tlbOp_canon)

theorem execHscGtflush_canon (hh : Fin 216) (rs1 : Fin 32) (rs2 : Fin 32) {u : State} (h : execHscGtflush hh rs1 rs2 s = .next u) :
     u.Canon := by
  unfold execHscGtflush at h
  refine Canon.of_next h ?_
  with_reducible (repeat' first | assumption | intro _ | apply gtflush_canon | apply instr_canon)

theorem execSfenceWInval_canon (hh : Fin 216) {u : State} (h : execSfenceWInval hh s = .next u) : u.Canon := by
  unfold execSfenceWInval at h
  refine Canon.of_next h ?_
  with_reducible (repeat' first | assumption | intro _ | apply tlbOp_canon | apply instr_canon)

theorem execSfenceInvalIr_canon (hh : Fin 216) {u : State} (h : execSfenceInvalIr hh s = .next u) : u.Canon := by
  unfold execSfenceInvalIr at h
  refine Canon.of_next h ?_
  with_reducible (repeat' first | assumption | intro _ | apply tlbOp_canon | apply instr_canon)

theorem State.custom_canon (hh : Nat) (c : Custom) : (s.custom hh c).Canon := by
  unfold State.custom
  with_reducible (repeat'
    first | assumption | intro _ | split | apply gtflush_canon | apply hsc_canon | apply hswGate_canon | apply hswRet_canon
          | apply tflush_canon)

theorem execUnimplementedInstruction_canon (hh : Fin 216) (bits : Nat) {u : State} (h : execUnimplementedInstruction hh bits s = .next u) :
     u.Canon := by
  unfold execUnimplementedInstruction at h
  refine Canon.of_next h ?_
  with_reducible (repeat' first | assumption | intro _ | split | apply custom_canon | apply except_canon | apply instr_canon)

theorem execEcall_canon (hh : Fin 216) {u : State} (h : execEcall hh s = .next u) : u.Canon := by
  unfold execEcall at h
  refine Canon.of_next h ?_
  with_reducible (repeat' first | assumption | intro _ | apply except_canon | apply instr_canon)

theorem execMret_canon (hh : Fin 216) {u : State} (h : execMret hh s = .next u) : u.Canon := by
  unfold execMret at h
  dsimp only at h
  refine Canon.of_next h ?_
  with_reducible (repeat'
    first | assumption | intro _ | split | apply except_canon | apply Canon.frame' (setHart_fr ..) | apply Canon.frame' (stepped_fr ..)
          | apply tagStep_canon | apply instr_canon)

theorem execSystemBusAccess_canon (pa : Nat) (size : Nat) (write : Option Nat) {u : State}
    (h : execSystemBusAccess pa size write s = .next u) : u.Canon := by
  unfold execSystemBusAccess at h
  dsimp only at h
  (repeat' split at h) <;> refine Canon.of_next h ?_ <;> with_reducible (repeat'
    first | assumption | intro _ | split | apply Canon.frame (answer_fr ..) | apply readPa_canon | apply writePa_canon
          | simp only [canon_upd] | refine Canon.of_snd (by assumption) ?_)

end

/-! ### MgmtCmds -/

section
variable {s : State} (hs : s.Canon)
include hs

theorem execEvent_canon (k : Nat) {u : State} (h : execEvent k s = .next u) : u.Canon := by
  unfold execEvent at h
  (repeat' split at h) <;> refine Canon.of_next h ?_ <;> with_reducible (repeat'
    first | assumption | intro _ | split | apply present_canon | simp only [canon_upd])

theorem execPmcWatchdogTimeout_canon {u : State} (h : execPmcWatchdogTimeout s = .next u) : u.Canon := by
  unfold execPmcWatchdogTimeout at h
  dsimp only at h
  (repeat' split at h) <;> refine Canon.of_next h ?_ <;> with_reducible (repeat'
    first | assumption | intro _ | split | apply enterBufferStop_canon | simp only [canon_upd])

theorem execPmcRestart_canon {u : State} (h : execPmcRestart s = .next u) : u.Canon := by
  unfold execPmcRestart at h
  dsimp only at h
  (repeat' split at h) <;> refine Canon.of_next h ?_ <;> with_reducible (repeat'
    first | assumption | intro _ | split | apply loadPmcImage_canon | apply logNow_canon | simp only [canon_upd])

theorem State.mgmt_canon {src : MgmtSrc} {msg : Option (List Byte)} {cmd : Nat} {f : State → List Byte → State}
    (hf : ∀ s b, s.Canon → (f s b).Canon) : (s.mgmt src msg cmd f).Canon := by
  unfold State.mgmt
  dsimp only
  with_reducible (repeat'
    first | assumption | split | apply hf | apply Canon.frame (mgmtReply_fr ..) | apply Canon.frame (mgmtRequest_fr ..))

theorem execTripClear_canon (src : MgmtSrc) (msg : Option (List Byte)) {u : State} (h : execTripClear src msg s = .next u) : u.Canon := by
  unfold execTripClear at h
  dsimp only at h
  refine Canon.of_next h ?_
  with_reducible (repeat'
    first | assumption | intro _ | apply logNow_canon | apply Canon.frame (mgmtReply_fr ..) | apply Canon.frame (wrs_fr ..)
          | apply mgmt_canon)

theorem execPowerReq_canon (src : MgmtSrc) (msg : Option (List Byte)) {u : State} (h : execPowerReq src msg s = .next u) : u.Canon := by
  unfold execPowerReq at h
  dsimp only at h
  refine Canon.of_next h ?_
  with_reducible (repeat'
    first | assumption | intro _ | split | apply Canon.frame (mgmtReply_fr ..) | apply submitPower_canon | apply mgmt_canon)

theorem execReset_canon (src : MgmtSrc) (msg : Option (List Byte)) (pulse : Bool) {u : State} (h : execReset src msg pulse s = .next u) :
     u.Canon := by
  unfold execReset at h
  refine Canon.of_next h ?_
  with_reducible (repeat' first | assumption | intro _ | apply Canon.frame (mgmtReply_fr ..) | apply warmSource_canon | apply mgmt_canon)

theorem execLogClear_canon (src : MgmtSrc) (msg : Option (List Byte)) {u : State} (h : execLogClear src msg s = .next u) : u.Canon := by
  unfold execLogClear at h
  refine Canon.of_next h (mgmt_canon hs fun s b hs => .frame (mgmtReply_fr ..) ?_)
  have hr := Tab.wf_keep (fun o _ => decide (o < 0x2000)) hs.mram
  exact ⟨hs.mem, hr, hs.flash⟩

theorem execOptionWrite_canon (src : MgmtSrc) (msg : Option (List Byte)) {u : State} (h : execOptionWrite src msg s = .next u) :
     u.Canon := by
  unfold execOptionWrite at h
  dsimp only at h
  refine Canon.of_next h ?_
  with_reducible (repeat'
    first | assumption | intro _ | split | apply logNow_canon | apply Canon.frame (mgmtReply_fr ..) | apply setMram_canon
          | apply mgmt_canon)

theorem State.setSlots_canon (kind : Nat) (active : Nat) (prev : Bool) : (s.setSlots kind active prev).Canon := by
  unfold State.setSlots
  dsimp only
  with_reducible (repeat' first | assumption | intro _ | apply setMram_canon)

theorem execFwBegin_canon (src : MgmtSrc) (msg : Option (List Byte)) {u : State} (h : execFwBegin src msg s = .next u) : u.Canon := by
  unfold execFwBegin at h
  dsimp only at h
  refine Canon.of_next h ?_
  with_reducible (repeat'
    first | assumption | intro _ | split | apply Canon.frame (draw_fr ..) | apply logNow_canon | apply Canon.frame (mgmtReply_fr ..)
          | apply Canon.frame (setFw_fr ..) | apply setSlots_canon | apply mgmt_canon)

theorem State.program_canon (base off : Nat) (l : List Byte) : (s.program base off l).Canon := by
  unfold State.program
  exact ⟨hs.mem, hs.mram, foldFlash_wf _ (base + off) l.zipIdx (Tab.wf_keep _ hs.flash)⟩

theorem State.fwData_canon (n : Nat) (b : List Byte) (bad : Bool) : (s.fwData n b bad).Canon := by
  unfold State.fwData
  dsimp only
  with_reducible (repeat'
    first | assumption | intro _ | split | apply Canon.frame (fwWrong_fr ..) | apply Canon.frame (mgmtReply_fr ..) | apply program_canon
          | apply Canon.frame (setFw_fr ..))

theorem execFwData_canon (src : MgmtSrc) (msg : Option (List Byte)) (bad : Bool) {u : State} (h : execFwData src msg bad s = .next u) :
     u.Canon := by
  unfold execFwData at h
  refine Canon.of_next h ?_
  with_reducible (repeat' first | assumption | intro _ | apply fwData_canon | apply mgmt_canon)

theorem execFwVerifyDone_canon (kind : Fin 3) {u : State} (h : execFwVerifyDone kind s = .next u) : u.Canon := by
  unfold execFwVerifyDone at h
  dsimp only at h
  (repeat' split at h) <;> refine Canon.of_next h ?_ <;> with_reducible (repeat'
    first | assumption | intro _ | split | apply logFw7_canon | apply Canon.frame (setFw_fr ..) | simp only [canon_upd])

theorem execFwReceiveTimeout_canon (kind : Fin 3) {u : State} (h : execFwReceiveTimeout kind s = .next u) : u.Canon := by
  unfold execFwReceiveTimeout at h
  (repeat' split at h) <;> refine Canon.of_next h ?_ <;> with_reducible (repeat'
    first | assumption | intro _ | split | apply logFw7_canon | apply Canon.frame (setFw_fr ..))

theorem State.raiseSvn_canon (k : Nat) (slot : Nat) : (s.raiseSvn k slot).Canon := by
  unfold State.raiseSvn
  dsimp only
  with_reducible (repeat' first | assumption | intro _ | split | apply setMram_canon)

theorem State.fwCommitted_canon (n : Nat) (k : Nat) : (s.fwCommitted n k).Canon := by
  unfold State.fwCommitted
  dsimp only
  with_reducible (repeat'
    first | assumption | intro _ | apply logFw7_canon | apply Canon.frame (mgmtReply_fr ..) | apply raiseSvn_canon
          | apply Canon.frame (setFw_fr ..) | apply setSlots_canon)

theorem State.afterCommit_canon (k : Nat) : (s.afterCommit k).Canon := by
  unfold State.afterCommit
  dsimp only
  with_reducible (repeat'
    first | assumption | intro _ | split | apply coldReset_canon | apply Canon.frame (pk_fr ..) | apply setCount_canon
          | simp only [canon_upd])

theorem State.fwCommit_canon (n : Nat) : (s.fwCommit n).Canon := by
  unfold State.fwCommit
  with_reducible (repeat'
    first | assumption | intro _ | split | apply afterCommit_canon | apply fwCommitted_canon | apply Canon.frame (fwWrong_fr ..))

theorem execFwCommit_canon (src : MgmtSrc) (msg : Option (List Byte)) {u : State} (h : execFwCommit src msg s = .next u) : u.Canon := by
  unfold execFwCommit at h
  refine Canon.of_next h ?_
  with_reducible (repeat' first | assumption | intro _ | apply fwCommit_canon | apply mgmt_canon)

theorem State.fwBack_canon (n : Nat) (k : Nat) : (s.fwBack n k).Canon := by
  unfold State.fwBack
  dsimp only
  with_reducible (repeat'
    first | assumption | intro _ | split | apply logFw7_canon | apply Canon.frame (mgmtReply_fr ..) | apply setSlots_canon)

theorem State.fwRollback_canon (n : Nat) (k : Nat) : (s.fwRollback n k).Canon := by
  unfold State.fwRollback
  with_reducible (repeat'
    first | assumption | intro _ | split | apply fwBack_canon | apply logFw7_canon | apply Canon.frame (mgmtReply_fr ..)
          | apply Canon.frame (setFw_fr ..))

theorem execFwRollback_canon (src : MgmtSrc) (msg : Option (List Byte)) {u : State} (h : execFwRollback src msg s = .next u) :
     u.Canon := by
  unfold execFwRollback at h
  refine Canon.of_next h ?_
  with_reducible (repeat' first | assumption | intro _ | apply fwRollback_canon | apply mgmt_canon)

end

/-! ### RegCmds -/

section
variable {s : State} (hs : s.Canon)
include hs

theorem execRegisterWrite_canon (who : Ident) (off : Nat) (size : Nat) (val : Nat) (user : Bool) {u : State}
    (h : execRegisterWrite who off size val user s = .next u) : u.Canon := by
  unfold execRegisterWrite at h
  refine Canon.of_next h ?_
  with_reducible (repeat' first | assumption | intro _ | apply regStore_canon)

theorem execRwsWrite_canon (who : Ident) (off : Nat) (size : Nat) (val : Nat) {u : State} (h : execRwsWrite who off size val s = .next u) :
     u.Canon := by
  unfold execRwsWrite at h
  (repeat' split at h) <;> refine Canon.of_next h ?_ <;> with_reducible (repeat'
    first | assumption | intro _ | split | apply regStore_canon)

theorem execBootGood_canon (who : Ident) {u : State} (h : execBootGood who s = .next u) : u.Canon := by
  unfold execBootGood at h
  refine Canon.of_next h ?_
  with_reducible (repeat' first | assumption | intro _ | apply regStore_canon)

theorem execWatchdogKick_canon (who : Ident) {u : State} (h : execWatchdogKick who s = .next u) : u.Canon := by
  unfold execWatchdogKick at h
  refine Canon.of_next h ?_
  with_reducible (repeat' first | assumption | intro _ | apply regStore_canon)

theorem execStatClear_canon (who : Ident) (t : Fin 64) {u : State} (h : execStatClear who t s = .next u) : u.Canon := by
  unfold execStatClear at h
  refine Canon.of_next h ?_
  with_reducible (repeat' first | assumption | intro _ | apply regStore_canon)

theorem execPmonClear_canon (who : Ident) {u : State} (h : execPmonClear who s = .next u) : u.Canon := by
  unfold execPmonClear at h
  refine Canon.of_next h ?_
  with_reducible (repeat' first | assumption | intro _ | apply regStore_canon)

theorem execPmonFreeze_canon (who : Ident) (on : Bool) {u : State} (h : execPmonFreeze who on s = .next u) : u.Canon := by
  unfold execPmonFreeze at h
  refine Canon.of_next h ?_
  with_reducible (repeat' first | assumption | intro _ | apply regStore_canon)

theorem execSourcecfgWrite_canon (who : Ident) (w : World) (k : Nat) (val : Nat) {u : State}
    (h : execSourcecfgWrite who w k val s = .next u) : u.Canon := by
  unfold execSourcecfgWrite at h
  (repeat' split at h) <;> refine Canon.of_next h ?_ <;> with_reducible (repeat'
    first | assumption | intro _ | split | apply regStore_canon)

theorem execMailboxSubmit_canon (who : Ident) (w : World) (len : Nat) {u : State} (h : execMailboxSubmit who w len s = .next u) :
     u.Canon := by
  unfold execMailboxSubmit at h
  refine Canon.of_next h ?_
  with_reducible (repeat' first | assumption | intro _ | apply regStore_canon)

end

end Sys2Proof.Machine
end

section
/-! PROOFS. Every step keeps package memory, MRAM and flash canonical (O5). -/

namespace Sys2Proof.Machine
open Sys2Proof State

/-- Every command keeps the canonical form: those that write memory or MRAM by the lemmas above, the others by their frames. -/
theorem exec_canon {s t : State} (hs : s.Canon) {c : Instr} (h : exec c s = .next t) : t.Canon := by
  cases c with
  | registerWrite _ _ _ _ _ => exact execRegisterWrite_canon hs _ _ _ _ _ h
  | suppliesGood _ _ _ => exact execSuppliesGood_canon hs _ _ _ h
  | powerOnReset _ => exact execPowerOnReset_canon hs _ h
  | coldReset _ _ => exact execColdReset_canon hs _ _ h
  | warmReset _ => exact execWarmReset_canon hs _ h
  | mramPulseEnd => exact execMramPulseEnd_canon hs h
  | selfRefreshEntryDone _ => exact execSelfRefreshEntryDone_canon hs _ h
  | selfRefreshWaitTimeout _ => exact .frame (execSelfRefreshWaitTimeout_fr _ _ h) hs
  | domainResetRelease _ => exact execDomainResetRelease_canon hs _ h
  | optionLoadDone => exact execOptionLoadDone_canon hs h
  | pllLock => exact .frame (execPllLock_fr _ h) hs
  | clockMonitorWindow _ _ _ _ => exact execClockMonitorWindow_canon hs _ _ _ _ h
  | warmupScan _ => exact execWarmupScan_canon hs _ h
  | warmupTimeout => exact execWarmupTimeout_canon hs h
  | dramTrainingDone _ => exact execDramTrainingDone_canon hs _ h
  | memoryFillDone => exact execMemoryFillDone_canon hs h
  | bootAuthentication => exact execBootAuthentication_canon hs h
  | selfTestDone _ _ => exact .frame (execSelfTestDone_fr _ _ _ h) hs
  | mainlineEntry => exact execMainlineEntry_canon hs h
  | bootGood _ => exact execBootGood_canon hs _ h
  | modeOrderSubmit _ _ _ => exact execModeOrderSubmit_canon hs _ _ _ h
  | modeDecision => exact execModeDecision_canon hs h
  | duskEntry => exact .frame (execDuskEntry_fr _ h) hs
  | duskWake _ => exact execDuskWake_canon hs _ h
  | nightEntry => exact execNightEntry_canon hs h
  | lowPowerEntryTimeout _ => exact .frame (execLowPowerEntryTimeout_fr _ _ h) hs
  | nightWake => exact execNightWake_canon hs h
  | midnightWake => exact .frame (execMidnightWake_fr _ h) hs
  | modeTransitionDone => exact execModeTransitionDone_canon hs h
  | dieLoss _ _ => exact execDieLoss_canon hs _ _ h
  | dieReadmit _ _ _ => exact .frame (execDieReadmit_fr _ _ _ _ h) hs
  | coreResetReq _ _ _ => exact execCoreResetReq_canon hs _ _ _ h
  | clusterResetReq _ _ _ => exact execClusterResetReq_canon hs _ _ _ h
  | clusterResetDrained _ => exact .frame' (execClusterResetDrained_fr _ _ h) hs
  | dieResetReq _ _ _ => exact execDieResetReq_canon hs _ _ _ h
  | ndmreset _ _ => exact execNdmreset_canon hs _ _ h
  | hartreset _ _ => exact .frame' (execHartreset_fr _ _ _ h) hs
  | watchdogKick _ => exact execWatchdogKick_canon hs _ h
  | watchdogHalf => exact .frame (execWatchdogHalf_fr _ h) hs
  | watchdogTimeout _ => exact execWatchdogTimeout_canon hs _ h
  | thermalTrip _ _ => exact execThermalTrip_canon hs _ _ h
  | sensorScan _ => exact execSensorScan_canon hs _ h
  | throttleStep => exact .frame (execThrottleStep_fr _ h) hs
  | throttleRelax => exact .frame (execThrottleRelax_fr _ h) hs
  | budgetRound _ _ _ => exact .frame (execBudgetRound_fr _ _ _ _ h) hs
  | budgetBid _ _ => exact .frame (execBudgetBid_fr _ _ _ h) hs
  | budgetGrant _ => exact .frame (execBudgetGrant_fr _ _ h) hs
  | cclkDividerSwitch _ => exact .frame' (execCclkDividerSwitch_fr _ _ h) hs
  | drawMeterCheck _ _ => exact .frame (execDrawMeterCheck_fr _ _ _ h) hs
  | packagePowerLimit _ => exact .frame (execPackagePowerLimit_fr _ _ h) hs
  | setTdp _ _ _ => exact execSetTdp_canon hs _ _ _ h
  | capCclk _ _ _ => exact execCapCclk_canon hs _ _ _ h
  | gate _ _ _ => exact execGate_canon hs _ _ _ h
  | ungate _ _ _ => exact execUngate_canon hs _ _ _ h
  | powerOff _ _ _ => exact execPowerOff_canon hs _ _ _ h
  | powerOn _ _ _ => exact execPowerOn_canon hs _ _ _ h
  | memIdle _ _ _ => exact execMemIdle_canon hs _ _ _ h
  | unitPowerDownDone _ => exact .frame' (execUnitPowerDownDone_fr _ _ h) hs
  | unitPowerUpDone _ => exact .frame (execUnitPowerUpDone_fr _ _ h) hs
  | unitDrainTimeout _ => exact execUnitDrainTimeout_canon hs _ h
  | memIdleSelfRefresh _ => exact .frame (execMemIdleSelfRefresh_fr _ _ h) hs
  | wakePin _ => exact .frame (execWakePin_fr _ _ h) hs
  | fxWake _ _ => exact .frame (execFxWake_fr _ _ _ h) hs
  | rtcAlarm => exact .frame (execRtcAlarm_fr _ h) hs
  | thermalWake _ => exact .frame (execThermalWake_fr _ _ h) hs
  | sidebandAddressMatch _ _ => exact .frame (execSidebandAddressMatch_fr _ _ _ h) hs
  | pcieWake _ _ => exact .frame (execPcieWake_fr _ _ _ h) hs
  | ctuBegin _ _ _ => exact execCtuBegin_canon hs _ _ _ h
  | ctuCommit _ _ _ => exact execCtuCommit_canon hs _ _ _ h
  | ctuRollback _ _ _ => exact execCtuRollback_canon hs _ _ _ h
  | rwsWrite _ _ _ _ => exact execRwsWrite_canon hs _ _ _ _ h
  | ctuTimeout _ => exact .frame (execCtuTimeout_fr _ _ h) hs
  | commitTurn => exact .frame (execCommitTurn_fr _ h) hs
  | ctuCheckDone => exact .frame (execCtuCheckDone_fr _ h) hs
  | ctuApply _ => exact .frame (execCtuApply_fr _ _ h) hs
  | blockApply _ => exact execBlockApply_canon hs _ h
  | ctuApplyComplete => exact .frame (execCtuApplyComplete_fr _ h) hs
  | shareHandback _ => exact .frame' (execShareHandback_fr _ _ h) hs
  | zeroFillDone _ => exact .frame (execZeroFillDone_fr _ _ h) hs
  | sweepDone _ => exact .frame' (execSweepDone_fr _ _ h) hs
  | agentDrained _ _ => exact .frame (execAgentDrained_fr _ _ _ h) hs
  | flitRoute _ _ _ _ => exact execFlitRoute_canon hs _ _ _ _ h
  | grantHoldCutoff _ _ => exact .frame (execGrantHoldCutoff_fr _ _ _ h) hs
  | cfgHoldCutoff _ _ _ => exact .frame (execCfgHoldCutoff_fr _ _ _ _ h) hs
  | statClear _ _ => exact execStatClear_canon hs _ _ h
  | credit _ _ _ => exact .frame (execCredit_fr _ _ _ _ h) hs
  | regDone _ => exact execRegDone_canon hs _ h
  | rspError _ _ => exact execRspError_canon hs _ _ h
  | transactionTimeout _ => exact execTransactionTimeout_canon hs _ h
  | rdShared _ _ => exact .frame (execRdShared_fr _ _ _ h) hs
  | rdNoexcl _ _ => exact .frame (execRdNoexcl_fr _ _ _ h) hs
  | rdUnique _ _ => exact .frame (execRdUnique_fr _ _ _ h) hs
  | upgrade _ _ => exact .frame (execUpgrade_fr _ _ _ h) hs
  | zeroUnique _ _ => exact .frame (execZeroUnique_fr _ _ _ h) hs
  | cmoClean _ _ => exact .frame (execCmoClean_fr _ _ _ h) hs
  | cmoFlush _ _ => exact .frame (execCmoFlush_fr _ _ _ h) hs
  | rdNoalloc _ _ _ => exact .frame (execRdNoalloc_fr _ _ _ _ h) hs
  | wrFull _ _ _ _ => exact .frame (execWrFull_fr _ _ _ _ _ h) hs
  | wrMask _ _ _ _ _ => exact .frame (execWrMask_fr _ _ _ _ _ _ h) hs
  | wbDirty _ _ => exact .frame (execWbDirty_fr _ _ _ h) hs
  | evictClean _ _ => exact .frame (execEvictClean_fr _ _ _ h) hs
  | snpShare _ _ => exact .frame' (execSnpShare_fr _ _ _ h) hs
  | snpInval _ _ => exact .frame' (execSnpInval_fr _ _ _ h) hs
  | snpPeek _ _ => exact .frame' (execSnpPeek_fr _ _ _ h) hs
  | rspI _ _ => exact .frame (execRspI_fr _ _ _ h) hs
  | rspS _ _ => exact .frame (execRspS_fr _ _ _ h) hs
  | rspWbif _ _ => exact .frame (execRspWbif_fr _ _ _ h) hs
  | datDirty _ _ => exact .frame (execDatDirty_fr _ _ _ h) hs
  | memData _ _ => exact .frame (execMemData_fr _ _ _ h) hs
  | datGrant _ _ => exact execDatGrant_canon hs _ _ h
  | rspGrant _ _ => exact execRspGrant_canon hs _ _ h
  | rspWdone _ _ => exact execRspWdone_canon hs _ _ h
  | wbAck _ _ => exact execWbAck_canon hs _ _ h
  | lrHoldTimeout _ => exact .frame' (execLrHoldTimeout_fr _ _ h) hs
  | rangeOp _ _ => exact .frame' (execRangeOp_fr _ _ _ h) hs
  | rangeSweep _ => exact .frame' (execRangeSweep_fr _ _ h) hs
  | memRead _ _ => exact execMemRead_canon hs _ _ h
  | memWrite _ => exact execMemWrite_canon hs _ h
  | memWriteMask _ => exact execMemWriteMask_canon hs _ h
  | patrolScrub _ => exact execPatrolScrub_canon hs _ h
  | pcieDmaRead _ _ _ _ => exact execPcieDmaRead_canon hs _ _ _ _ h
  | pcieDmaWrite _ _ _ => exact execPcieDmaWrite_canon hs _ _ _ h
  | atomicOp _ _ _ _ _ _ _ => exact execAtomicOp_canon hs _ _ _ _ _ _ _ h
  | pcieMsi _ _ _ => exact execPcieMsi_canon hs _ _ _ h
  | linkDown _ => exact .frame (execLinkDown_fr _ _ h) hs
  | cxlSurpriseRemoval _ => exact .frame (execCxlSurpriseRemoval_fr _ _ h) hs
  | ioRead _ _ => exact execIoRead_canon hs _ _ h
  | ioWrite _ => exact execIoWrite_canon hs _ h
  | doorbellInvalidation _ => exact .frame (execDoorbellInvalidation_fr _ _ h) hs
  | doorbellLineReturn _ => exact execDoorbellLineReturn_canon hs _ h
  | nopDesc _ _ => exact .frame (execNopDesc_fr _ _ _ h) hs
  | runPipeline _ _ => exact .frame (execRunPipeline_fr _ _ _ h) hs
  | loadImage _ _ => exact execLoadImage_canon hs _ _ h
  | imageValidation _ _ => exact .frame (execImageValidation_fr _ _ _ h) hs
  | unloadImage _ _ => exact .frame (execUnloadImage_fr _ _ _ h) hs
  | unloadTakesEffect _ _ => exact .frame (execUnloadTakesEffect_fr _ _ _ h) hs
  | fenceDesc _ _ => exact .frame (execFenceDesc_fr _ _ _ h) hs
  | fenceComplete _ _ => exact .frame (execFenceComplete_fr _ _ _ h) hs
  | fencedWorkBegin _ _ => exact execFencedWorkBegin_canon hs _ _ h
  | abort _ _ => exact .frame (execAbort_fr _ _ _ h) hs
  | abortComplete _ _ => exact .frame (execAbortComplete_fr _ _ _ h) hs
  | etlbLoad _ _ => exact .frame (execEtlbLoad_fr _ _ _ h) hs
  | etlbInvalidate _ _ => exact .frame (execEtlbInvalidate_fr _ _ _ h) hs
  | etlbInvalidateComplete _ _ => exact .frame (execEtlbInvalidateComplete_fr _ _ _ h) hs
  | matchWrite _ _ => exact .frame (execMatchWrite_fr _ _ _ h) hs
  | dispatch _ => exact execDispatch_canon hs _ h
  | cbufRewriteDone _ => exact .frame (execCbufRewriteDone_fr _ _ h) hs
  | cbufScrub _ => exact execCbufScrub_canon hs _ h
  | taskEnd _ => exact execTaskEnd_canon hs _ h
  | translationFaultTimeout _ => exact .frame (execTranslationFaultTimeout_fr _ _ h) hs
  | completionWrite _ _ => exact execCompletionWrite_canon hs _ _ h
  | pageReq _ => exact .frame (execPageReq_fr _ _ h) hs
  | scanCheck _ _ => exact execScanCheck_canon hs _ _ h
  | pageRelease _ _ _ => exact execPageRelease_canon hs _ _ _ h
  | correctionWriteBack => exact execCorrectionWriteBack_canon hs h
  | chainFwd _ => exact execChainFwd_canon hs _ h
  | rowFetch _ => exact execRowFetch_canon hs _ h
  | survivor _ => exact execSurvivor_canon hs _ h
  | scan _ => exact execScan_canon hs _ h
  | scanraw _ => exact execScanraw_canon hs _ h
  | recv _ => exact execRecv_canon hs _ h
  | inlineIn _ => exact execInlineIn_canon hs _ h
  | filter _ => exact execFilter_canon hs _ h
  | project _ => exact execProject_canon hs _ h
  | matchOp _ => exact execMatch_canon hs _ h
  | hash _ => exact execHash_canon hs _ h
  | build _ => exact execBuild_canon hs _ h
  | probe _ => exact execProbe_canon hs _ h
  | aggLocal _ => exact execAggLocal_canon hs _ h
  | aggHome _ => exact execAggHome_canon hs _ h
  | sortRun _ => exact execSortRun_canon hs _ h
  | merge _ => exact execMerge_canon hs _ h
  | intermediateMergeTask _ => exact execIntermediateMergeTask_canon hs _ h
  | finalMergeTask _ => exact execFinalMergeTask_canon hs _ h
  | topk _ => exact execTopk_canon hs _ h
  | gatherTask _ => exact execGatherTask_canon hs _ h
  | topkRows _ => exact execTopkRows_canon hs _ h
  | partition _ => exact execPartition_canon hs _ h
  | limit _ => exact execLimit_canon hs _ h
  | emit _ => exact execEmit_canon hs _ h
  | emitInline _ => exact execEmitInline_canon hs _ h
  | endOp _ => exact execEnd_canon hs _ h
  | bucketInsert _ => exact execBucketInsert_canon hs _ h
  | bucketProbe _ => exact execBucketProbe_canon hs _ h
  | bucketMerge _ => exact execBucketMerge_canon hs _ h
  | anchorVisit _ => exact execAnchorVisit_canon hs _ h
  | spillChunkVisit _ => exact execSpillChunkVisit_canon hs _ h
  | probeResult _ => exact execProbeResult_canon hs _ h
  | opDone _ => exact execOpDone_canon hs _ h
  | level0MergeTask _ => exact execLevel0MergeTask_canon hs _ h
  | exchange _ => exact execExchange_canon hs _ h
  | recvTaskDispatch _ => exact execRecvTaskDispatch_canon hs _ h
  | programTableEntry _ => exact execProgramTableEntry_canon hs _ h
  | move _ => exact execMove_canon hs _ h
  | encode _ => exact execEncode_canon hs _ h
  | footerWrite _ => exact execFooterWrite_canon hs _ h
  | encodeBlockWriteBack _ => exact execEncodeBlockWriteBack_canon hs _ h
  | flush _ => exact execFlush_canon hs _ h
  | loop _ => exact execLoop_canon hs _ h
  | wait _ => exact execWait_canon hs _ h
  | waitPoll _ => exact execWaitPoll_canon hs _ h
  | waitTimeout _ => exact execWaitTimeout_canon hs _ h
  | signal _ => exact execSignal_canon hs _ h
  | dmEnd _ => exact execDmEnd_canon hs _ h
  | dmReservedOpcode _ => exact execDmReservedOpcode_canon hs _ h
  | dmReadReturn _ => exact execDmReadReturn_canon hs _ h
  | programDone _ => exact execProgramDone_canon hs _ h
  | channelDrainDone _ => exact .frame (execChannelDrainDone_fr _ _ h) hs
  | trainingStepComplete _ _ => exact .frame (execTrainingStepComplete_fr _ _ _ h) hs
  | trainingTimeout _ => exact .frame (execTrainingTimeout_fr _ _ h) hs
  | capabilityWord _ _ _ _ _ _ => exact .frame (execCapabilityWord_fr _ _ _ _ _ _ _ h) hs
  | dataFlit _ _ _ => exact .frame (execDataFlit_fr _ _ _ _ h) hs
  | nak _ _ _ _ => exact .frame (execNak_fr _ _ _ _ _ h) hs
  | idleFlit _ _ _ => exact .frame (execIdleFlit_fr _ _ _ _ h) hs
  | replayTimeout _ _ => exact .frame (execReplayTimeout_fr _ _ _ h) hs
  | command _ => exact .frame (execCommand_fr _ _ h) hs
  | stagingReserved _ => exact .frame (execStagingReserved_fr _ _ h) hs
  | dataIn _ => exact execDataIn_canon hs _ h
  | fxDoorbell _ => exact execFxDoorbell_canon hs _ h
  | fetchResend _ => exact .frame (execFetchResend_fr _ _ h) hs
  | windowReg _ => exact .frame (execWindowReg_fr _ _ h) hs
  | windowRelease _ => exact .frame (execWindowRelease_fr _ _ h) hs
  | windowReleaseAck _ => exact .frame (execWindowReleaseAck_fr _ _ h) hs
  | mgmt _ => exact .frame (execMgmt_fr _ _ h) hs
  | finxisReset _ _ => exact execFinxisReset_canon hs _ _ h
  | loadStore _ _ _ _ _ _ _ _ => exact execLoadStore_canon hs _ _ _ _ _ _ _ _ h
  | amo _ _ _ _ _ _ => exact execAmo_canon hs _ _ _ _ _ _ h
  | lr _ _ _ _ => exact execLr_canon hs _ _ _ _ h
  | sc _ _ _ _ _ => exact execSc_canon hs _ _ _ _ _ h
  | fence i pred succ => exact execFence_canon hs i pred succ h
  | fenceI _ => exact execFenceI_canon hs _ h
  | cboZero _ _ => exact execCboZero_canon hs _ _ h
  | cboClean _ _ => exact execCboClean_canon hs _ _ h
  | cboFlush _ _ => exact execCboFlush_canon hs _ _ h
  | cboInval _ _ => exact execCboInval_canon hs _ _ h
  | prefetchR _ _ _ => exact execPrefetchR_canon hs _ _ _ h
  | prefetchW _ _ _ => exact execPrefetchW_canon hs _ _ _ h
  | prefetchI _ _ _ => exact execPrefetchI_canon hs _ _ _ h
  | wfi _ => exact execWfi_canon hs _ h
  | wfiWake _ => exact .frame' (execWfiWake_fr _ _ h) hs
  | wrsSto _ => exact execWrsSto_canon hs _ h
  | mtimecmpMatch _ => exact .frame' (execMtimecmpMatch_fr _ _ h) hs
  | msi _ _ _ => exact execMsi_canon hs _ _ _ h
  | hswGate _ _ => exact execHswGate_canon hs _ _ h
  | hswRet _ => exact execHswRet_canon hs _ h
  | hscClean _ _ _ => exact execHscClean_canon hs _ _ _ h
  | hscFlush _ _ _ => exact execHscFlush_canon hs _ _ _ h
  | hscTflush _ _ _ => exact execHscTflush_canon hs _ _ _ h
  | hscGtflush _ _ _ => exact execHscGtflush_canon hs _ _ _ h
  | sfenceVma _ _ _ => exact execSfenceVma_canon hs _ _ _ h
  | hfenceVvma _ _ _ => exact execHfenceVvma_canon hs _ _ _ h
  | hfenceGvma _ _ _ => exact execHfenceGvma_canon hs _ _ _ h
  | sinvalVma _ _ _ => exact execSinvalVma_canon hs _ _ _ h
  | hinvalVvma _ _ _ => exact execHinvalVvma_canon hs _ _ _ h
  | hinvalGvma _ _ _ => exact execHinvalGvma_canon hs _ _ _ h
  | sfenceWInval _ => exact execSfenceWInval_canon hs _ h
  | sfenceInvalIr _ => exact execSfenceInvalIr_canon hs _ h
  | satpWrite _ _ _ => exact execSatpWrite_canon hs _ _ _ h
  | mhpmeventWrite _ _ _ => exact execMhpmeventWrite_canon hs _ _ _ h
  | unimplementedInstruction _ _ => exact execUnimplementedInstruction_canon hs _ _ h
  | haltRequest _ => exact .frame' (execHaltRequest_fr _ _ h) hs
  | systemBusAccess _ _ _ => exact execSystemBusAccess_canon hs _ _ _ h
  | event _ => exact execEvent_canon hs _ h
  | aplicClaim _ _ => exact .frame (execAplicClaim_fr _ _ _ h) hs
  | sourcecfgWrite _ _ _ _ => exact execSourcecfgWrite_canon hs _ _ _ _ h
  | pmcWatchdogTimeout => exact execPmcWatchdogTimeout_canon hs h
  | mailboxSubmit _ _ _ => exact execMailboxSubmit_canon hs _ _ _ h
  | getInfo _ _ => exact .frame (execGetInfo_fr _ _ _ h) hs
  | readSensors _ _ => exact .frame (execReadSensors_fr _ _ _ h) hs
  | readRails _ _ _ => exact .frame (execReadRails_fr _ _ _ _ h) hs
  | setLimits _ _ => exact .frame (execSetLimits_fr _ _ _ h) hs
  | tripClear _ _ => exact execTripClear_canon hs _ _ h
  | modeOrder _ _ => exact .frame (execModeOrder_fr _ _ _ h) hs
  | powerReq _ _ => exact execPowerReq_canon hs _ _ h
  | reset _ _ _ => exact execReset_canon hs _ _ _ h
  | logRead _ _ => exact .frame (execLogRead_fr _ _ _ h) hs
  | logClear _ _ => exact execLogClear_canon hs _ _ h
  | optionRead _ _ => exact .frame (execOptionRead_fr _ _ _ h) hs
  | optionWrite _ _ => exact execOptionWrite_canon hs _ _ h
  | fwBegin _ _ => exact execFwBegin_canon hs _ _ h
  | fwData _ _ _ => exact execFwData_canon hs _ _ _ h
  | fwVerifyDone _ => exact execFwVerifyDone_canon hs _ h
  | fwReceiveTimeout _ => exact execFwReceiveTimeout_canon hs _ h
  | fwCommit _ _ => exact execFwCommit_canon hs _ _ h
  | fwRollback _ _ => exact execFwRollback_canon hs _ _ h
  | fwStatus _ _ => exact .frame (execFwStatus_fr _ _ _ h) hs
  | debugSet _ _ => exact .frame (execDebugSet_fr _ _ _ h) hs
  | pmcRestart => exact execPmcRestart_canon hs h
  | pmonClear _ => exact execPmonClear_canon hs _ h
  | pmonFreeze _ _ => exact execPmonFreeze_canon hs _ _ h
  | standbyRailsGood => exact .frame (execStandbyRailsGood_fr _ h) hs
  | standbyRailLoss _ => exact execStandbyRailLoss_canon hs _ h
  | pcieLinkUp _ _ _ _ => exact .frame (execPcieLinkUp_fr _ _ _ _ _ h) hs
  | pcieCompletionTimeout _ => exact execPcieCompletionTimeout_canon hs _ h
  | wfiRetentionEntry _ => exact .frame' (execWfiRetentionEntry_fr _ _ h) hs
  | wrsStoTimeout _ => exact .frame' (execWrsStoTimeout_fr _ _ h) hs
  | stimecmpMatch _ _ => exact .frame' (execStimecmpMatch_fr _ _ _ h) hs
  | csrWrite _ _ _ => exact execCsrWrite_canon hs _ _ _ h
  | ecall _ => exact execEcall_canon hs _ h
  | mret _ => exact execMret_canon hs _ h
  | debugResume _ _ => exact .frame' (execDebugResume_fr _ _ _ h) hs
  | dmactiveClear => exact .frame' (execDmactiveClear_fr _ h) hs
  | dynamicAddressAssignment _ => exact .frame (execDynamicAddressAssignment_fr _ _ h) hs

/-- What a step leaves of canonical tables is canonical. -/
theorem step_canon {s t : State} (hs : s.Canon) (h : step s = .next t) : t.Canon := by
  unfold step at h
  split at h
  · exact .of_next h (.frame (flitSlot_fr s) hs)
  · exact exec_canon (canon_upd.mpr hs) h

/-- Settles O5: every command keeps the three tables canonical, by induction over what it calls. -/
theorem memoryInvariant : Obligations.MemoryInvariant := by
  unfold Obligations.MemoryInvariant
  exact fun s t hs h => canon_iff.mp (step_canon (canon_iff.mpr hs) h)

end Sys2Proof.Machine
end

section
/-! PROOFS. What the address map, the firewall and the timetables read: registers that no counter shares (01 R18, 09 R271, R278, 11
R321; O25 to O28). -/

namespace Sys2Proof.Machine
open Sys2Proof

/-- Two states agree on the registers from MEM_MAP on, the address map, the firewall and the partitions among them, and on the
options and the transactions that also bear on those. -/
structure State.SameMap (s t : State) : Prop where
  coldOpt : t.coldOpt = s.coldOpt
  ctu : t.ctu = s.ctu
  rdW : ∀ o, 0x80000000 ≤ o → t.rdW o = s.rdW o

namespace State.SameMap

theorem refl (s : State) : s.SameMap s := ⟨rfl, rfl, fun _ _ => rfl⟩

theorem trans {s t u : State} (h : s.SameMap t) (h' : t.SameMap u) : s.SameMap u :=
  ⟨h'.coldOpt.trans h.coldOpt, h'.ctu.trans h.ctu, fun o ho => (h'.rdW o ho).trans (h.rdW o ho)⟩

/-- A register below MEM_MAP is written. -/
theorem wrW (s : State) {o : Nat} (v : Word) (h : o < 0x80000000) : s.SameMap (s.wrW o v) :=
  ⟨rfl, rfl, fun _ ho => rdW_wrW_other s v (by omega)⟩

theorem wr (s : State) {o : Nat} (f : Fld) (v : Nat) (h : o < 0x80000000) : s.SameMap (s.wr o f v) := wrW s _ h

/-- A write of a register that depends on that register alone. -/
theorem update {s t : State} (h : s.SameMap t) (o : Nat) (f : Word → Word) : (s.wrW o (f (s.rdW o))).SameMap (t.wrW o (f (t.rdW o))) := by
  refine ⟨h.coldOpt, h.ctu, fun p hp => ?_⟩
  by_cases e : p = o
  · subst e
    rw [rdW_wrW_same, rdW_wrW_same, h.rdW _ hp]
  · rw [rdW_wrW_other _ _ e, rdW_wrW_other _ _ e, h.rdW p hp]

variable {s t : State} (h : s.SameMap t)
include h

theorem rd {o : Nat} (f : Fld) (ho : 0x80000000 ≤ o) : t.rd o f = s.rd o f := by
  unfold State.rd
  rw [h.rdW o ho]

theorem on {o : Nat} (f : Fld) (ho : 0x80000000 ≤ o) : t.on o f = s.on o f := by
  unfold State.on
  rw [h.rd f ho]

theorem mmioLink (pa : Nat) : t.mmioLink pa = s.mmioLink pa := by
  have width (j : Nat) : t.linkWidth j = s.linkWidth j := by
    simp only [State.linkWidth, State.bifCode, State.optByte, h.coldOpt]
  have cfg (j : Nat) := h.on (o := Reg.ISO_LNK_CFG j) F.ISO_LNK_CFG_VALID (by simp only [Reg.ISO_LNK_CFG]; omega)
  have base (j : Nat) := h.rd (o := Reg.ISO_LNK_APBASE j) F.ISO_LNK_APBASE_ADDR (by simp only [Reg.ISO_LNK_APBASE]; omega)
  have limit (j : Nat) := h.rd (o := Reg.ISO_LNK_APLIMIT j) F.ISO_LNK_APLIMIT_ADDR (by simp only [Reg.ISO_LNK_APLIMIT]; omega)
  unfold State.mmioLink
  simp only [width, cfg, base, limit]

theorem paKind (pa : Nat) : t.paKind pa = s.paKind pa := by
  have top : t.top = s.top := congrArg (· * 65536) (h.rd _ (Nat.le_refl _))
  have valid (w : Nat) := h.on (o := Reg.CXLW_BASE w) F.CXLW_BASE_VALID (by simp only [Reg.CXLW_BASE]; omega)
  have base (w : Nat) (f : Fld) := h.rd (o := Reg.CXLW_BASE w) f (by simp only [Reg.CXLW_BASE]; omega)
  have limit (w : Nat) := h.rd (o := Reg.CXLW_LIMIT w) F.CXLW_LIMIT_LIMIT (by simp only [Reg.CXLW_LIMIT]; omega)
  have links (w : Nat) := h.rdW (Reg.CXLW_LINKS w) (by simp only [Reg.CXLW_LINKS]; omega)
  unfold State.paKind State.cxlCovers State.cxlLink
  simp only [top, valid, base, limit, links, h.mmioLink]

theorem isMem (pa : Nat) : t.isMem pa = s.isMem pa := by
  unfold State.isMem
  rw [h.paKind]

theorem chanOf (pa : Nat) : t.chanOf pa = s.chanOf pa := by
  unfold State.chanOf State.gran
  rw [h.rd F.MEM_MAP_WAYS_LOG2 (Nat.le_refl _), h.rd F.MEM_MAP_GRANULE (Nat.le_refl _)]

theorem servingStop (pa : Nat) : t.servingStop pa = s.servingStop pa := by
  unfold State.servingStop
  rw [h.paKind, h.chanOf]

theorem fwRegion (pa : Nat) : t.fwRegion pa = s.fwRegion pa := by
  have valid (r : Nat) := h.on (o := Reg.FW_BASE r) F.FW_BASE_VALID (by simp only [Reg.FW_BASE]; omega)
  have base (r : Nat) := h.rd (o := Reg.FW_BASE r) F.FW_BASE_BASE (by simp only [Reg.FW_BASE]; omega)
  have limit (r : Nat) := h.rd (o := Reg.FW_LIMIT r) F.FW_LIMIT_LIMIT (by simp only [Reg.FW_LIMIT]; omega)
  unfold State.fwRegion State.fwCovers
  simp only [valid, base, limit]

theorem tableGrants (who : Ident) (pa : Nat) (write : Bool) : t.tableGrants who pa write = s.tableGrants who pa write := by
  have attr (r : Nat) (f : Fld) := h.rd (o := Reg.FW_ATTR r) f (by simp only [Reg.FW_ATTR]; omega)
  have share (r : Nat) := h.rdW (Reg.FW_SHARE r) (by simp only [Reg.FW_SHARE]; omega)
  unfold State.tableGrants State.on
  simp only [h.fwRegion, attr, share]

theorem mergeRegs (l : Tab (Nat × Nat)) : (s.mergeRegs l).SameMap (t.mergeRegs l) := by
  unfold State.mergeRegs
  induction l generalizing s t with
  | nil => exact h
  | cons e l ih => exact ih (h.update e.1 (fun w => (w &&& ~~~BitVec.ofNat 64 e.2.2) ||| (BitVec.ofNat 64 e.2.1 &&& BitVec.ofNat 64 e.2.2)))

theorem setFilling (rs : List Nat) : (s.setFilling rs).SameMap (t.setFilling rs) := by
  unfold State.setFilling
  induction rs generalizing s t with
  | nil => exact h
  | cons r rs ih => exact ih (h.update (Reg.FW_ATTR r) (fun w => BitVec.ofNat 64 (setBits w.toNat F.FW_ATTR_FILLING.hi F.FW_ATTR_FILLING.lo 1)))

theorem fillsRegion {u v : State} (h' : u.SameMap v) (r : Nat) : fillsRegion t v r = fillsRegion s u r := by
  have valid {a b : State} (k : a.SameMap b) := k.on (o := Reg.FW_BASE r) F.FW_BASE_VALID (by simp only [Reg.FW_BASE]; omega)
  have base {a b : State} (k : a.SameMap b) := k.rd (o := Reg.FW_BASE r) F.FW_BASE_BASE (by simp only [Reg.FW_BASE]; omega)
  have limit {a b : State} (k : a.SameMap b) := k.rd (o := Reg.FW_LIMIT r) F.FW_LIMIT_LIMIT (by simp only [Reg.FW_LIMIT]; omega)
  have attr {a b : State} (k : a.SameMap b) (f : Fld) := k.rd (o := Reg.FW_ATTR r) f (by simp only [Reg.FW_ATTR]; omega)
  unfold Machine.fillsRegion
  simp only [valid h, valid h', base h, base h', limit h, limit h', attr h, attr h']

theorem fwNew (l : Tab (Nat × Nat)) : (s.fwNew l).SameMap (t.fwNew l) := by
  have merged := h.mergeRegs l
  unfold State.fwNew
  dsimp only
  rw [show Machine.fillsRegion t (t.mergeRegs l) = Machine.fillsRegion s (s.mergeRegs l) from funext (h.fillsRegion merged)]
  exact merged.setFilling _

theorem fwGrants (who : Ident) (pa : Nat) (write : Bool) : t.fwGrants who pa write = s.fwGrants who pa write := by
  have view : (s.fwView pa).SameMap (t.fwView pa) := by
    have judge : t.firewallOf pa = s.firewallOf pa := by
      unfold State.firewallOf
      rw [h.paKind, h.chanOf]
    unfold State.fwView
    rw [h.ctu, judge]
    split
    · exact h.fwNew _
    · exact h
  exact view.tableGrants who pa write

theorem dirMask (p : Nat) : t.dirMask p = s.dirMask p := by
  have ways (q : Nat) := h.rd (o := Reg.ISO_WAYS q) F.ISO_WAYS_DIR (by simp only [Reg.ISO_WAYS]; omega)
  have sealedP (q : Nat) : t.sealedP q = s.sealedP q := by
    unfold State.sealedP
    rw [h.rdW Reg.ISO_SEALED (by decide)]
  unfold State.dirMask
  simp only [ways, sealedP]

theorem dirRoom {n : Nat} (same : t.home n = s.home n) (ln pid : Nat) : t.dirRoom n ln pid = s.dirRoom n ln pid := by
  unfold State.dirRoom
  rw [same, h.dirMask]

end State.SameMap

/-! ### Counters -/

theorem pmcAdd_sameMap (s : State) (filt : Nat) {cnt : Nat} (who : Option Ident) (n : Nat) (h : cnt < 0x80000000) :
    s.SameMap (s.pmcAdd filt cnt who n) := by
  unfold State.pmcAdd
  dsimp only
  split_ifs
  · exact .refl s
  · exact .wrW s _ h

theorem pmcStop_sameMap (s : State) {t k : Nat} (who : Option Ident) (ht : t < 64) (hk : k < 16) : s.SameMap (s.pmcStop t k who) :=
  pmcAdd_sameMap s _ who 1 (by simp only [Reg.STP_PMC]; omega)

theorem pmcMch_sameMap (s : State) {m k : Nat} (who : Option Ident) (hm : m < 16) (hk : k < 8) : s.SameMap (s.pmcMch m k who) :=
  pmcAdd_sameMap s _ who 1 (by simp only [Reg.MCH_PMC]; omega)

theorem wakeChannel_sameMap (s : State) {m : Nat} (hm : m < 16) : s.SameMap (s.wakeChannel m) := by
  unfold State.wakeChannel
  split
  · have kept := State.SameMap.wr s F.MCH_STATUS_STATE 3 (o := Reg.MCH_STATUS m) (by simp only [Reg.MCH_STATUS]; omega)
    exact ⟨kept.coldOpt, kept.ctu, kept.rdW⟩
  · exact .refl s

/-! ### Timetables -/

/-- What a list of stops gives, or stop 0 beyond it, is a stop. -/
theorem nthD_lt {l : List Nat} {b : Nat} (h : ∀ n ∈ l, n < b) (hb : 0 < b) (i : Nat) : nthD l i 0 < b := by
  unfold nthD
  cases e : l[i]? with
  | none => exact hb
  | some n => exact h n (List.mem_of_getElem? e)

theorem servingStop_lt (s : State) (pa : Nat) : s.servingStop pa < 64 := by
  unfold State.servingStop
  split
  · exact nthD_lt (by decide) (by decide) _
  · exact nthD_lt (by decide) (by decide) _

/-- A message other than line data from memory is stamped at a stop that it names. -/
theorem stamp_of_rdW {s t : State} {m : Msg} (hk : m.kind ≠ .memData) (h : ∀ n, t.rdW (Reg.RTR_NET n) = s.rdW (Reg.RTR_NET n)) :
    t.stamp m = s.stamp m := by
  have from_ : t.fromStop m = s.fromStop m := by
    unfold State.fromStop
    split
    · contradiction
    · rfl
  unfold State.stamp State.rd
  rw [from_, h]

/-- A stop's counters are none of its timetable registers. -/
theorem rdW_net_pmcStop (s : State) (t : Nat) {k : Nat} (who : Option Ident) (hk : k < 16) (n : Nat) :
    (s.pmcStop t k who).rdW (Reg.RTR_NET n) = s.rdW (Reg.RTR_NET n) :=
  rdW_pmcAdd_other s _ _ _ (by simp only [Reg.RTR_NET, Reg.STP_PMC]; omega)

end Sys2Proof.Machine
end

section
/-! PROOFS. A message that is delivered (11 R315), and a fill of a cluster in which nothing waits and for which the L2 has room (10
R285, R296; O26, O27). -/

namespace Sys2Proof.Machine
open Sys2Proof

/-! ### Delivery -/

/-- The message that arrives is taken out of flight and acts. -/
theorem onMsgs_of_arriving {s : State} {parked p : Msg → Bool} {m : Msg} (h : s.arriving parked p = some m) (f : Msg → State → State) :
    s.onMsgs parked p f = f m { s with net := s.net.erase m } := by
  unfold State.onMsgs
  rw [h]

/-! ### The L2 -/

/-- An entry that is found at a key is replaced by one that is put there, if that passes the test too. -/
theorem find?_ins {α : Type} {p : Nat × α → Bool} {l : Tab α} {k : Nat} {x y : α} (found : l.find? p = some (k, x))
    (hy : p (k, y) = true) : (Tab.ins l k y).find? p = some (k, y) := by
  induction l with
  | nil => contradiction
  | cons e l ih =>
    obtain ⟨j, z⟩ := e
    unfold Tab.ins
    rw [List.find?_cons] at found
    split
    · exact List.find?_cons_of_pos hy
    · split
      · exact List.find?_cons_of_pos hy
      · split at found
        next e => exact absurd (congrArg Prod.fst (Option.some.inj found)).symm (by omega)
        next e => rw [List.find?_cons_of_neg (by rw [e]; decide)]; exact ih found

/-- One that is put where none was found is found. -/
theorem find?_ins_of_none {α : Type} {p : Nat × α → Bool} {l : Tab α} {k : Nat} {y : α} (none' : l.find? p = none)
    (hy : p (k, y) = true) : (Tab.ins l k y).find? p = some (k, y) := by
  induction l with
  | nil => exact List.find?_cons_of_pos hy
  | cons e l ih =>
    rw [List.find?_cons] at none'
    split at none'
    · contradiction
    next e' =>
      unfold Tab.ins
      split
      · exact List.find?_cons_of_pos hy
      · split
        · exact List.find?_cons_of_pos hy
        · rw [List.find?_cons_of_neg (by rw [e']; decide)]
          exact ih none'

theorem ln_of_find {c : Cluster} {ln k : Nat} {x : L2Line} (h : c.find ln = some (k, x)) : x.ln = ln := by
  have passes := List.find?_some (p := fun e : Nat × L2Line => e.2.ln == ln) h
  exact eq_of_beq passes

theorem victim_of_find {c : Cluster} {ln k : Nat} {x : L2Line} (h : c.find ln = some (k, x)) : c.victim ln = none := by
  unfold Cluster.victim
  rw [h]
  rfl

/-- Of a line without a victim the fill does not wait. -/
theorem fillWaits_of_room {c : Cluster} {ln : Nat} (h : c.victim ln = none) : c.fillWaits ln = false := by
  unfold Cluster.fillWaits
  rw [h]
  rfl

/-- What a cluster has under way, and the line its L2 holds. -/
structure Cluster.Same (c d : Cluster) (ln : Nat) : Prop where
  find : d.find ln = c.find ln
  reqs : d.reqs = c.reqs
  waits : d.waits = c.waits
  held : d.held = c.held

/-- Filling the L1Is changes what the L1s hold, and the list of those that wait. -/
theorem l1iFill_same (c : Cluster) (l ln : Nat) : c.Same (c.l1iFill l) ln := by
  have used (ks : List Nat) (d : Cluster) : d.Same (ks.foldl (fun c k => c.l1Use k l) d) ln := by
    induction ks generalizing d with
    | nil => exact ⟨rfl, rfl, rfl, rfl⟩
    | cons k ks ih =>
      have rest := ih (d.l1Use k l)
      exact ⟨rest.find, rest.reqs, rest.waits, rest.held⟩
  unfold Cluster.l1iFill
  dsimp only
  split
  · exact ⟨rfl, rfl, rfl, rfl⟩
  · have all := used ((c.ipre.filter (fun e => e.1 == l)).map Prod.snd) { c with ipre := c.ipre.filter (fun e => e.1 != l) }
    exact ⟨all.find, all.reqs, all.waits, all.held⟩

/-- A line installed where the L2 needs no victim: in place of the copy there was, or in a free way. -/
theorem installLine_of_room {s : State} {c : Nat} {l : L2Line} (room : (s.cluster c).victim l.ln = none) :
    ∃ d k, s.installLine c l = s.setCluster c d ∧ d.find l.ln = some (k, l) ∧ d.reqs = (s.cluster c).reqs ∧
      d.waits = (s.cluster c).waits ∧ d.held = (s.cluster c).held ∧ ∀ j x, (s.cluster c).find l.ln = some (j, x) → k = j := by
  have mine (k : Nat) : (fun e : Nat × L2Line => e.2.ln == l.ln) (k, l) = true := beq_self_eq_true _
  unfold State.installLine
  dsimp only
  split
  next k old found =>
    have same (j : Nat) (x : L2Line) (h : (s.cluster c).find l.ln = some (j, x)) : k = j := by
      rw [found] at h
      exact congrArg Prod.fst (Option.some.inj h)
    refine ⟨_, k, rfl, ?_⟩
    split
    · exact ⟨find?_ins found (mine k), rfl, rfl, rfl, same⟩
    · exact ⟨find?_ins found (mine k), rfl, rfl, rfl, same⟩
  next absent =>
    have free : Tab.look (s.cluster c).l2 (l2Key l.ln + (l2Victim (s.cluster c).l2 (l2Key l.ln)).1) = none := by
      unfold Cluster.victim at room
      rwa [absent, if_neg (by decide)] at room
    rw [free]
    refine ⟨_, _, rfl, find?_ins_of_none ?_ (mine _), rfl, rfl, rfl, fun j x h => absurd (absent.symm.trans h) (by simp)⟩
    unfold Cluster.find at absent
    rw [List.find?_eq_none] at absent ⊢
    intro e he
    obtain ⟨e', he', rfl⟩ := List.mem_map.mp he
    have other := absent e' he'
    split
    · exact other
    · exact other

/-! ### A cluster in which nothing waits -/

theorem performOldest_of_idle {s : State} {c : Nat} (h : (s.cluster c).waits = []) (ln : Nat) (fill : Bool) :
    s.performOldest c ln fill = s := by
  unfold State.performOldest
  dsimp only
  rw [h]
  rfl

theorem freeHeld_of_idle {s : State} {c : Nat} (h : (s.cluster c).held = []) : s.freeHeld c = s := by
  unfold State.freeHeld
  rw [h]
  rfl

theorem askMore_of_idle {s : State} {c : Nat} (h : (s.cluster c).waits = []) : s.askMore c = s := by
  unfold State.askMore
  rw [h]
  rfl

theorem retryWaits_of_idle {s : State} {c : Nat} (h : (s.cluster c).waits = []) (ln : Nat) :
    s.retryWaits c ln = s.setCluster c { s.cluster c with waits := [] } := by
  unfold State.retryWaits
  rw [h]
  rfl

/-- The age of a line that a grant installs (10 R285). -/
def Cluster.grantAge (cl : Cluster) (ln : Nat) (fill : Bool) : Nat :=
  match cl.find ln with
  | some (_, l) => if fill then 1 else l.age
  | none => if cl.reqs.any (fun r => r.ln == ln && r.stream) then 3 else 1

/-- The cluster with its request of a line ended. -/
def State.reqDone (s : State) (c ln : Nat) : State :=
  s.setCluster c { s.cluster c with reqs := (s.cluster c).reqs.filter (fun r => r.ln != ln) }

/-- A line installed in a cluster, and in the L1Is that wait for it. -/
def State.installFill (s : State) (c : Nat) (l : L2Line) : State :=
  (s.installLine c l).setCluster c (((s.installLine c l).cluster c).l1iFill l.ln)

theorem granted_eq (s : State) (c ln : Nat) (g : Grant) (d : LineData) (who : Ident) (fill : Bool) :
    s.granted c ln g d who fill =
      (((((((s.reqDone c ln).installFill c ⟨ln, g, (s.cluster c).grantAge ln fill, d, who⟩).performOldest c ln
        (fill || ((s.cluster c).find ln).isNone)).freeHeld c).retryWaits c ln).askMore c).freeHeld c) := rfl

/-- A grant to a cluster in which nothing waits and that has room: the line is installed, where its copy stood if there was one, and
its request ends. -/
theorem granted_of_idle {s : State} {c ln : Nat} (g : Grant) (d : LineData) (who : Ident) (fill : Bool)
    (room : (s.cluster c).victim ln = none) (waits : (s.cluster c).waits = []) (held : (s.cluster c).held = []) :
    (s.granted c ln g d who fill).net = s.net ∧
      ((s.granted c ln g d who fill).cluster c).reqs = (s.cluster c).reqs.filter (fun r => r.ln != ln) ∧
      ∃ k, ((s.granted c ln g d who fill).cluster c).find ln = some (k, ⟨ln, g, (s.cluster c).grantAge ln fill, d, who⟩) ∧
        ∀ j x, (s.cluster c).find ln = some (j, x) → k = j := by
  rw [granted_eq]
  generalize (s.cluster c).grantAge ln fill = age
  generalize (fill || ((s.cluster c).find ln).isNone) = dry
  have mine : (s.reqDone c ln).cluster c = { s.cluster c with reqs := (s.cluster c).reqs.filter (fun r => r.ln != ln) } :=
    State.cluster_setCluster_same ..
  have calm : (s.reqDone c ln).net = s.net := rfl
  generalize s.reqDone c ln = u at mine calm
  obtain ⟨d', k, installed, found, reqs, waits', held', place⟩ :=
    installLine_of_room (s := u) (c := c) (l := ⟨ln, g, age, d, who⟩) (by rw [mine]; exact room)
  have l1 := l1iFill_same d' ln ln
  have there : (u.installFill c ⟨ln, g, age, d, who⟩).cluster c = d'.l1iFill ln := by
    unfold State.installFill
    rw [installed, State.cluster_setCluster_same, State.cluster_setCluster_same]
  have calm' : (u.installFill c ⟨ln, g, age, d, who⟩).net = u.net := by
    unfold State.installFill
    rw [installed]
    rfl
  generalize u.installFill c ⟨ln, g, age, d, who⟩ = v at there calm'
  have idle : (v.cluster c).waits = [] := by rw [there, l1.waits, waits', mine]; exact waits
  have free : (v.cluster c).held = [] := by rw [there, l1.held, held', mine]; exact held
  rw [performOldest_of_idle idle, freeHeld_of_idle free, retryWaits_of_idle idle]
  have last : (v.setCluster c { v.cluster c with waits := [] }).cluster c = { v.cluster c with waits := [] } :=
    State.cluster_setCluster_same ..
  rw [askMore_of_idle (by rw [last]), freeHeld_of_idle (by rw [last]; exact free), last]
  refine ⟨calm'.trans calm, ?_, k, ?_, fun j x h => place j x (by rw [mine]; exact h)⟩
  · show (v.cluster c).reqs = _
    rw [there, l1.reqs, reqs, mine]
  · show (v.cluster c).find ln = _
    rw [there, l1.find]
    exact found

end Sys2Proof.Machine
end

section
/-! PROOFS. Reads and writes of undamaged DRAM lines at their controller (09 R264 to R269; O27). -/

namespace Sys2Proof.Machine
open Sys2Proof

/-! ### Stored bytes -/

/-- A byte after a run of bytes is stored: one of the run, or the one there was. -/
theorem get_putBytes (m : Tab Byte) (a b : Nat) (l : List Byte) :
    Tab.get 0 (putBytes m a l) b = if a ≤ b ∧ b < a + l.length then nthD l (b - a) 0 else Tab.get 0 m b := by
  induction l generalizing m a with
  | nil => exact (if_neg (by simp only [List.length_nil]; omega)).symm
  | cons x l ih =>
    rw [putBytes, ih, Tab.get_put]
    by_cases first : b = a
    · subst first
      rw [if_neg (by omega), if_pos rfl, if_pos (by simp only [List.length_cons]; omega), Nat.sub_self]
      rfl
    · rw [if_neg first]
      by_cases within : a + 1 ≤ b ∧ b < a + 1 + l.length
      · rw [if_pos within, if_pos (by simp only [List.length_cons]; omega), show b - a = b - (a + 1) + 1 by omega]
        rfl
      · rw [if_neg within, if_neg (by simp only [List.length_cons]; omega)]

theorem length_memBytes (s : State) (pa n : Nat) : (s.memBytes pa n).length = n := by
  simp only [State.memBytes, List.length_map, List.length_range]

theorem fitB_of_length {n : Nat} {l : List Byte} (h : l.length = n) : fitB n l = l := by
  simp [fitB, sliceB, ← h]

theorem length_maskMerge {old new : List Byte} (h : old.length = new.length) (mask : Nat) :
    (maskMerge old new mask).length = new.length := by
  simp [maskMerge, h]

/-- The state `t` holds what `s` does, but for the bytes `l` from `pa` on. -/
structure State.Stores (s t : State) (pa : Nat) (l : List Byte) : Prop where
  within : t.memBytes pa l.length = l
  beyond : ∀ a, a < pa ∨ pa + l.length ≤ a → t.memB a = s.memB a

theorem stores_of_mem {s t : State} {pa : Nat} {l : List Byte} (h : t.mem = putBytes s.mem pa l) : s.Stores t pa l := by
  have byte (a : Nat) : t.memB a = if pa ≤ a ∧ a < pa + l.length then nthD l (a - pa) 0 else s.memB a := by
    unfold State.memB
    rw [h, get_putBytes]
  refine ⟨List.ext_getElem (length_memBytes ..) fun i hi hi' => ?_, fun a ha => (byte a).trans (if_neg (by omega))⟩
  simp only [State.memBytes, List.getElem_map, List.getElem_range, byte]
  rw [if_pos (by omega), Nat.add_sub_cancel_left, nthD, List.getElem?_eq_getElem hi']
  rfl

/-! ### Counts at a controller -/

/-- `t` is `s` but for counters and the state of a channel: memory, its errors, the write queue, the messages in flight, the address
map and the timetables are the same. -/
structure State.CountsOnly (s t : State) : Prop where
  mem : t.mem = s.mem
  dmg : t.dmg = s.dmg
  wq : t.wq = s.wq
  net : t.net = s.net
  map : s.SameMap t
  timetable : ∀ n < 64, t.rdW (Reg.RTR_NET n) = s.rdW (Reg.RTR_NET n)

namespace State.CountsOnly

theorem refl (s : State) : s.CountsOnly s := ⟨rfl, rfl, rfl, rfl, .refl s, fun _ _ => rfl⟩

theorem trans {s t u : State} (h : s.CountsOnly t) (h' : t.CountsOnly u) : s.CountsOnly u :=
  ⟨h'.mem.trans h.mem, h'.dmg.trans h.dmg, h'.wq.trans h.wq, h'.net.trans h.net, h.map.trans h'.map,
    fun n hn => (h'.timetable n hn).trans (h.timetable n hn)⟩

variable {s t : State} (h : s.CountsOnly t)
include h

theorem memBytes (pa n : Nat) : t.memBytes pa n = s.memBytes pa n := by
  unfold State.memBytes State.memB
  rw [h.mem]

theorem lineDmg (ln : Nat) : t.lineDmg ln = s.lineDmg ln := by
  unfold State.lineDmg
  rw [h.dmg]

end State.CountsOnly

theorem pmcMch_counted (s : State) {m k : Nat} (who : Option Ident) (hm : m < 16) (hk : k < 8) : s.CountsOnly (s.pmcMch m k who) := by
  have map := pmcMch_sameMap s who hm hk
  have timetable (n : Nat) : (s.pmcMch m k who).rdW (Reg.RTR_NET n) = s.rdW (Reg.RTR_NET n) :=
    rdW_pmcAdd_other s _ _ _ (by simp only [Reg.RTR_NET, Reg.MCH_PMC]; omega)
  exact ⟨by simp only [kept @State.pmcMch_fr], by simp only [kept @State.pmcMch_fr], by simp only [kept @State.pmcMch_fr],
    by simp only [kept @State.pmcMch_fr], map, fun n _ => timetable n⟩

theorem wakeChannel_counted (s : State) {m : Nat} (hm : m < 16) : s.CountsOnly (s.wakeChannel m) := by
  have map := wakeChannel_sameMap s hm
  unfold State.wakeChannel at map ⊢
  split at map
  · rw [if_pos ‹_›]
    have timetable (n : Nat) (hn : n < 64) : (s.wr (Reg.MCH_STATUS m) F.MCH_STATUS_STATE 3).rdW (Reg.RTR_NET n) =
        s.rdW (Reg.RTR_NET n) := rdW_wr_other s _ _ (by simp only [Reg.RTR_NET, Reg.MCH_STATUS]; omega)
    exact ⟨rfl, rfl, rfl, rfl, map, timetable⟩
  · rw [if_neg ‹_›]
    exact .refl s

/-- An event of a DRAM line is counted at its channel. -/
theorem pmcMem_counted {s : State} {ln : Nat} (dram : s.paKind (128 * ln) = .dram) {k : Nat} (kc : Nat) (who : Option Ident)
    (hk : k < 8) : s.CountsOnly (s.pmcMem ln k kc who) := by
  unfold State.pmcMem
  rw [dram]
  exact pmcMch_counted s who (chanOf_lt s _) hk

/-! ### Reads -/

theorem decodeLine_of_undamaged {s : State} {ln : Nat} (h : s.lineDmg ln = []) :
    s.decodeLine ln = (⟨s.memBytes (128 * ln) 128, false⟩, .clean) := by
  unfold State.decodeLine
  rw [h]
  rfl

/-- A controller reads an undamaged line: its stored bytes. -/
theorem readMemLine_of_undamaged {s : State} {ln : Nat} (dram : s.paKind (128 * ln) = .dram) (sound : s.lineDmg ln = [])
    (src : Nat) (who : Option Ident) :
    ∃ t, s.readMemLine ln src who = (⟨s.memBytes (128 * ln) 128, false⟩, t) ∧ s.CountsOnly t := by
  have hm := chanOf_lt s (128 * ln)
  unfold State.readMemLine
  rw [dram]
  dsimp only
  generalize s.chanOf (128 * ln) = m at hm
  have woken := wakeChannel_counted s hm
  have counted : s.CountsOnly (if src = 2 then (s.wakeChannel m).pmcMch m 3 none
      else if src = 3 then (s.wakeChannel m).pmcMch m 2 who else s.wakeChannel m) := by
    split_ifs
    · exact woken.trans (pmcMch_counted _ none hm (by decide))
    · exact woken.trans (pmcMch_counted _ who hm (by decide))
    · exact woken
  generalize (if src = 2 then _ else _ : State) = c at counted ⊢
  rw [decodeLine_of_undamaged ((counted.lineDmg ln).trans sound), counted.memBytes]
  exact ⟨c, rfl, counted⟩

/-- With no write queued a read is answered from memory (R269). -/
theorem readLineQ_of_undamaged {s : State} {ln : Nat} (dram : s.paKind (128 * ln) = .dram) (sound : s.lineDmg ln = [])
    (empty : s.wq = []) (src : Nat) :
    ∃ t, s.readLineQ ln src = (⟨s.memBytes (128 * ln) 128, false⟩, t) ∧ s.CountsOnly t := by
  obtain ⟨t, read, counted⟩ := readMemLine_of_undamaged dram sound src none
  refine ⟨t, ?_, counted⟩
  unfold State.readLineQ
  rw [dram, empty]
  exact read

/-! ### Writes -/

/-- A write that is issued to a DRAM line leaves memory and the queue as one made by a scrub does. -/
theorem issueWrite_scrub {s : State} {w : WqEntry} (dram : s.paKind (128 * w.ln) = .dram) :
    ∃ c, s.issueWrite w = c.issueWrite { w with src := .scrub } ∧ s.CountsOnly c := by
  obtain ⟨c, issued, same | ⟨k, who, hk, same⟩⟩ := issueWrite_counted s w
  · exact ⟨c, issued, same ▸ .refl s⟩
  · exact ⟨c, issued, same ▸ pmcMem_counted dram 3 who hk⟩

/-- A full write of a DRAM line, with no flip, stores its data. -/
theorem issueWrite_of_full {s : State} {w : WqEntry} (dram : s.paKind (128 * w.ln) = .dram)
    (full : w.mask % 2 ^ 128 = 2 ^ 128 - 1) (flip : w.flip = false) :
    (s.issueWrite w).mem = putBytes s.mem (128 * w.ln) (fitB 128 w.data) ∧ (s.issueWrite w).wq = s.wq := by
  obtain ⟨c, issued, counted⟩ := issueWrite_scrub dram
  have woken := counted.trans (wakeChannel_counted c (chanOf_lt c (128 * w.ln)))
  rw [issued]
  unfold State.issueWrite
  dsimp only
  rw [counted.map.paKind, dram]
  dsimp only
  rw [if_pos (beq_iff_eq.mpr full), flip]
  exact ⟨congrArg (putBytes · _ _) woken.mem, woken.wq⟩

/-- A masked write of an undamaged DRAM line, with no flip, stores the old line with its bytes replaced. -/
theorem issueWrite_of_masked {s : State} {w : WqEntry} (dram : s.paKind (128 * w.ln) = .dram) (sound : s.lineDmg w.ln = [])
    (part : w.mask % 2 ^ 128 ≠ 2 ^ 128 - 1) (flip : w.flip = false) :
    (s.issueWrite w).mem =
        putBytes s.mem (128 * w.ln) (fitB 128 (maskMerge (s.memBytes (128 * w.ln) 128) (fitB 128 w.data) w.mask)) ∧
      (s.issueWrite w).wq = s.wq := by
  obtain ⟨c, issued, counted⟩ := issueWrite_scrub dram
  have woken := counted.trans (wakeChannel_counted c (chanOf_lt c (128 * w.ln)))
  obtain ⟨t, read, counted'⟩ := readMemLine_of_undamaged ((woken.map.paKind _).trans dram) ((woken.lineDmg _).trans sound) 3 w.who
  have all := woken.trans counted'
  rw [issued]
  unfold State.issueWrite
  dsimp only
  rw [counted.map.paKind, dram]
  dsimp only
  rw [if_neg (by rw [beq_iff_eq]; exact part), read, flip, woken.memBytes]
  exact ⟨congrArg (putBytes · _ _) all.mem, all.wq⟩

end Sys2Proof.Machine
end

section
/-! PROOFS. Grants and completions at requesters, and reads and writes at memory controllers (09 R264 to R269, 10 R294 to R296, R304;
O27). -/

namespace Sys2Proof.Machine
open Sys2Proof

/-! ### Grants and completions -/

section
variable {s : State} {m : Msg}

/-- A message for an agent that is no fenced cluster arrives. -/
theorem deliverTo_of_comes {p : MKind → Bool} {a ln : Nat} (comes : s.comesTo p a ln m) (open' : (decide (a < 36) && s.clusterOff a) = false)
    (f : Msg → State → State) : s.deliverTo p a ln f = f m { s with net := s.net.erase m } := by
  unfold State.deliverTo
  rw [onMsgs_of_arriving comes]
  exact if_neg (by rw [show State.clusterOff { s with net := s.net.erase m } a = s.clusterOff a from rfl, open']; decide)

theorem exec_datGrant_of_reader {a : Fin 164} {ln : Nat} (comes : s.comesTo MKind.isGrant a ln m) (kind : m.kind = .datGrant none)
    (far : 36 < a.val) :
    exec (.datGrant a ln) s =
      .next ({ s with net := s.net.erase m }.answer (if m.data.poison then .error else .ok (leNat m.data.data))) := by
  have outside : decide (a.val < 36) = false := decide_eq_false (by omega)
  have nor : decide (a.val = 36) = false := decide_eq_false (by omega)
  show execDatGrant a ln s = _
  unfold execDatGrant
  rw [outside, Bool.false_and, Bool.or_false, nor, if_neg (by decide), deliverTo_of_comes comes (by rw [outside]; rfl)]
  unfold State.datGrantAt
  rw [kind]

theorem exec_datGrant_of_cluster {a : Fin 164} {ln : Nat} {g : Grant} (comes : s.comesTo MKind.isGrant a ln m)
    (kind : m.kind = .datGrant (some g)) (near : a.val < 36) (open' : s.fenced (agentStop a) 2 = false)
    (room : (s.cluster a).victim ln = none) (asked : (s.cluster a).reqs.any (fun r => r.ln == ln) = true) :
    exec (.datGrant a ln) s = .next ({ s with net := s.net.erase m }.granted a ln g m.data m.who true) := by
  have nor : decide (a.val = 36) = false := decide_eq_false (by omega)
  show execDatGrant a ln s = _
  unfold execDatGrant
  rw [fillWaits_of_room room, Bool.and_false, Bool.or_false, nor, if_neg (by decide),
    deliverTo_of_comes comes (by unfold State.clusterOff; rw [open', Bool.and_false])]
  unfold State.datGrantAt
  rw [kind]
  exact congrArg Host.Outcome.next (if_pos asked)

theorem exec_rspGrant_of_request {c : Fin 36} {ln : Nat} {r : CReq} (comes : s.comesTo (· == .rspGrant) c ln m)
    (open' : s.fenced (agentStop c) 2 = false) (room : (s.cluster c).victim ln = none)
    (asked : (s.cluster c).reqs.find? (fun r => r.ln == ln) = some r) {l : L2Line} (mine : r.kind = .zeroUnique ∧ l.data = ⟨zeroLine, false⟩ ∨
      r.kind ≠ .zeroUnique ∧ ∃ k, (s.cluster c).find ln = some (k, l)) :
    exec (.rspGrant c ln) s = .next ({ s with net := s.net.erase m }.granted c ln .m l.data m.who false) := by
  show execRspGrant c ln s = _
  unfold execRspGrant
  rw [fillWaits_of_room room, if_neg (by decide),
    deliverTo_of_comes comes (by unfold State.clusterOff; rw [open', Bool.and_false])]
  unfold State.rspGrantAt
  rw [show State.cluster { s with net := s.net.erase m } c = s.cluster c from rfl]
  dsimp only
  rw [asked]
  dsimp only
  obtain ⟨zero, data⟩ | ⟨held, k, found⟩ := mine
  · rw [if_pos zero, data]
  · rw [if_neg held, found]

theorem exec_rspWdone_of_writer {a : Fin 164} {ln : Nat} (comes : s.comesTo (· == .rspWdone) a ln m) (far : 36 ≤ a.val) :
    exec (.rspWdone a ln) s = .next ({ s with net := s.net.erase m }.answer (.ok 0)) := by
  show execRspWdone a ln s = _
  unfold execRspWdone
  rw [deliverTo_of_comes comes (by rw [decide_eq_false (by omega)]; rfl), if_pos far]

/-- WB_ACK at a cluster that evicts nothing else and in which nothing waits. -/
theorem wbAck_of_idle {c : Fin 37} {ln : Nat} (comes : s.comesTo (· == .wbAck) c ln m) (near : c.val < 36)
    (waits : (s.cluster c).waits = []) (alone : (s.cluster c).evict.filter (fun e => e.ln != ln) = []) :
    Completes (.wbAck c ln) s (fun t => t.net = s.net.erase m ∧ (t.cluster c).evict = []) := by
  refine ⟨_, congrArg Host.Outcome.next (onMsgs_of_arriving comes _), ?_⟩
  dsimp only
  rw [if_neg (by omega), show State.cluster { s with net := s.net.erase m } c = s.cluster c from rfl, alone]
  generalize hu : State.setCluster { s with net := s.net.erase m } c { s.cluster c with evict := [] } = u
  have mine : u.cluster c = { s.cluster c with evict := [] } := by rw [← hu, State.cluster_setCluster_same]
  have more : u.evictMore c = u := by
    unfold State.evictMore
    rw [mine]
    rfl
  rw [more, retryWaits_of_idle (by rw [mine]; exact waits), State.cluster_setCluster_same, mine, ← hu]
  exact ⟨rfl, rfl⟩

end

/-! ### Reads -/

/-- No request waits that a home could serve where none satisfies the test. -/
theorem waiter_of_none {s : State} {n : Nat} {p : HReq → Bool} (h : ∀ y ∈ (s.home n).waitq, p y = false) : s.waiter n p = none := by
  unfold State.waiter
  rw [List.find?_eq_none]
  intro y hy
  rw [h y hy, Bool.false_and, Bool.false_and]
  exact Bool.false_ne_true

/-- Nothing goes on at a home where no request waits. -/
theorem proceed_of_idle {s : State} {n : Nat} {x : HTxn} (idle : (s.home n).waitq = []) (kind : x.req.kind ≠ .dirEvict) :
    s.proceed n x = s := by
  have none' (p : HReq → Bool) : s.waiter n p = none := waiter_of_none (by rw [idle]; exact fun _ h => absurd h List.not_mem_nil)
  simp only [State.proceed, none', if_neg kind, idle, List.isEmpty_nil, if_true]

section
variable {s : State} {m : Msg} {ln : Nat}

/-- MEM_READ of an undamaged DRAM line with no write queued. -/
theorem memRead_of_undamaged {n : Fin 64} {x : DevLine}
    (comes : s.arriving (fun _ => false) (fun m => m.kind == .memRead && m.home == n.val && m.ln == x.ln) = some m)
    (open' : s.memOff x.ln = false) (dram : s.paKind (128 * x.ln) = .dram) (sound : s.lineDmg x.ln = []) (empty : s.wq = []) :
    Completes (.memRead n x) s (fun t =>
      t.net = s.net.erase m ++ [s.stamp ⟨.memData, x.ln, n, m.agent, ⟨s.memBytes (128 * x.ln) 128, false⟩, m.who, 0⟩]) := by
  refine ⟨_, congrArg Host.Outcome.next (onMsgs_of_arriving comes _), ?_⟩
  generalize hu : ({ s with net := s.net.erase m } : State) = u
  have off : u.memOff x.ln = false := by rw [← hu]; exact open'
  have dram' : u.paKind (128 * x.ln) = .dram := by rw [← hu]; exact dram
  have counted := pmcMem_counted dram' (k := 0) 2 (some m.who) (by decide)
  have sound' : (u.pmcMem x.ln 0 2 (some m.who)).lineDmg x.ln = [] := (counted.lineDmg _).trans (by rw [← hu]; exact sound)
  have empty' : (u.pmcMem x.ln 0 2 (some m.who)).wq = [] := counted.wq.trans (by rw [← hu]; exact empty)
  obtain ⟨t, read, counted'⟩ := readLineQ_of_undamaged ((counted.map.paKind _).trans dram') sound' empty' 1
  have all := counted.trans counted'
  have device : u.devPoison x = false := by
    unfold State.devPoison
    rw [dram']
  unfold State.memReadAt
  dsimp only
  rw [off, if_neg (by decide), read]
  dsimp only
  rw [device, counted.memBytes]
  have stamped (y : Msg) (at' : y.kind = .memData) : t.stamp y = s.stamp y := by
    have stop : t.fromStop y = s.fromStop y := by
      unfold State.fromStop
      rw [at']
      dsimp only
      rw [all.map.servingStop, ← hu]
      rfl
    have below64 : s.fromStop y < 64 := by
      unfold State.fromStop
      rw [at']
      exact servingStop_lt s _
    unfold State.stamp State.rd
    rw [stop, all.timetable _ below64, ← hu]
    rfl
  unfold State.post
  rw [stamped _ rfl, all.net, ← hu]
  rfl

/-- MEM_DATA for an uncached read that nothing has overtaken, of a line that the home knows nothing of. -/
theorem memData_of_read {n : Fin 64} {x : HTxn}
    (comes : s.arriving (fun _ => false) (fun m => m.kind == .memData && m.home == n.val && m.ln == ln) = some m)
    (alone : (s.home n).txns = [x]) (quiet : (s.home n).waitq = []) (unlisted : (s.home n).dirOf ln = none) (at' : x.req.ln = ln)
    (kind : x.req.kind = .rdNoalloc) (reads : x.mem = true) (live : x.void = false) (someone : x.req.agent ≠ nobody) :
    Completes (.memData n ln) s (fun t =>
      t.net = s.net.erase m ++ [s.stamp ⟨.datGrant none, ln, n, x.req.agent, m.data, x.req.who, 0⟩] ∧ (t.home n).txns = []) := by
  refine ⟨_, congrArg Host.Outcome.next (onMsgs_of_arriving comes _), ?_⟩
  generalize hu : ({ s with net := s.net.erase m } : State) = u
  have home : u.home n = s.home n := by rw [← hu]; rfl
  have serving : (u.home n).txn ln = some x := by
    unfold Home.txn
    rw [home, alone, List.find?_cons_of_pos (by rw [at']; exact beq_self_eq_true ln)]
  have acted : u.finish n x m.data false true = u.post ⟨.datGrant none, ln, n, x.req.agent, m.data, x.req.who, 0⟩ := by
    unfold State.finish State.act State.reply
    dsimp only
    rw [live, if_neg (by decide), if_neg someone, kind, at', home, unlisted]
    exact if_neg someone
  unfold State.memData
  rw [serving]
  dsimp only
  rw [reads, if_pos rfl, acted]
  generalize hv : u.post ⟨.datGrant none, ln, n, x.req.agent, m.data, x.req.who, 0⟩ = v
  have home' : v.home n = s.home n := by rw [← hv]; exact home
  have gone : (v.home n).txns.filter (fun y => y.req.ln != ln) = [] := by
    rw [home', alone, ← at']
    simp
  rw [gone]
  generalize hw : v.setHome n { v.home n with txns := [] } = w
  have last : w.home n = { v.home n with txns := [] } := by rw [← hw, State.home_setHome_same]
  have idle : (w.home n).waitq = [] := by rw [last]; exact (congrArg Home.waitq home').trans quiet
  rw [proceed_of_idle idle (by rw [kind]; decide), last, ← hw, ← hv, ← hu]
  exact ⟨rfl, rfl⟩

end

/-! ### Writes -/

section
variable {s : State} {ln : Nat} {w : WqEntry} (oldest : s.wq.find? (fun w => w.ln == ln) = some w)
include oldest

theorem ln_of_oldest : w.ln = ln := by
  have passes := List.find?_some (p := fun w : WqEntry => w.ln == ln) oldest
  exact eq_of_beq passes

/-- The oldest queued write of a line issues when its command comes. -/
theorem issueOldest_of_open {full : Bool} (kind : (w.mask % 2 ^ 128 == 2 ^ 128 - 1) = full) (open' : s.memOff ln = false) :
    s.issueOldest ln full = State.issueWrite { s with wq := s.wq.erase w } w := by
  unfold State.issueOldest
  rw [oldest]
  dsimp only
  rw [kind, if_neg (by simp)]
  exact if_neg (by rw [show State.memOff { s with wq := s.wq.erase w } ln = s.memOff ln from rfl, open']; decide)

/-- What is left of a write that issues: the line it stores, and the queue without it. -/
theorem stores_of_issued {t : State} {l : List Byte} (long : l.length = 128)
    (left : t.mem = putBytes s.mem (128 * w.ln) l ∧ t.wq = s.wq.erase w) :
    t.wq = s.wq.erase w ∧ t.memBytes (128 * ln) 128 = l ∧
      ∀ a, a < 128 * ln ∨ 128 * ln + 128 ≤ a → t.memB a = s.memB a := by
  have stored := stores_of_mem (s := s) (t := t) (pa := 128 * ln) (l := l) (by rw [left.1, ln_of_oldest oldest])
  obtain ⟨within, beyond⟩ := stored
  rw [long] at within beyond
  exact ⟨left.2, within, beyond⟩

end

/-- Settles O27, message by message: what is delivered is taken out of flight, and does what its kind says. -/
theorem grantsAndMemoryComplete : Obligations.GrantsAndMemoryComplete := by
  unfold Obligations.GrantsAndMemoryComplete
  refine ⟨?reader, ?cluster, ?upgraded, ?zeroed, ?writer, ?acked, ?watch, fun s n x m => memRead_of_undamaged,
    fun s n ln x m => memData_of_read, ?full, ?masked⟩
  case reader => exact fun s a ln m comes kind far => ⟨_, exec_datGrant_of_reader comes kind far, rfl, rfl⟩
  case cluster =>
    intro s a ln m g comes kind near open' room asked waits held
    obtain ⟨net, reqs, k, found, -⟩ := granted_of_idle (s := { s with net := s.net.erase m }) g m.data m.who true room waits held
    exact ⟨_, exec_datGrant_of_cluster comes kind near open' room asked, net, by rw [found]; rfl, reqs⟩
  case upgraded =>
    intro s c ln m r k x comes open' asked kind copy waits held
    have room := victim_of_find copy
    obtain ⟨net, reqs, j, found, place⟩ :=
      granted_of_idle (s := { s with net := s.net.erase m }) .m x.data m.who false room waits held
    have age : (s.cluster c).grantAge ln false = x.age := by
      unfold Cluster.grantAge
      rw [copy]
      rfl
    have at' := place k x copy
    subst at'
    exact ⟨_, exec_rspGrant_of_request comes open' room asked (.inr ⟨kind, j, copy⟩), net,
      found.trans (congrArg (fun n => some (j, (⟨ln, .m, n, x.data, m.who⟩ : L2Line))) age), reqs⟩
  case zeroed =>
    intro s c ln m r comes open' asked kind room waits held
    obtain ⟨net, reqs, k, found, -⟩ :=
      granted_of_idle (s := { s with net := s.net.erase m }) .m ⟨zeroLine, false⟩ m.who false room waits held
    exact ⟨_, exec_rspGrant_of_request (l := ⟨ln, .m, 0, ⟨zeroLine, false⟩, m.who⟩) comes open' room asked (.inl ⟨kind, rfl⟩), net,
      by rw [found]; rfl, reqs⟩
  case writer => exact fun s a ln m comes far => ⟨_, exec_rspWdone_of_writer comes far, rfl, rfl⟩
  case acked => exact fun s c ln m comes near waits alone => wbAck_of_idle comes near waits alone
  case watch => exact fun s ln m comes => ⟨_, congrArg Host.Outcome.next (onMsgs_of_arriving comes _), rfl⟩
  case full =>
    intro s ln w oldest full long flip open' dram
    have at' := ln_of_oldest oldest
    have left := issueWrite_of_full (s := { s with wq := s.wq.erase w }) (w := w) (by rw [at']; exact dram) full flip
    rw [fitB_of_length long] at left
    exact ⟨_, congrArg Host.Outcome.next (issueOldest_of_open oldest (beq_iff_eq.mpr full) open'), stores_of_issued oldest long left⟩
  case masked =>
    intro s ln w oldest part long flip open' dram sound
    have at' := ln_of_oldest oldest
    have merged := length_maskMerge ((length_memBytes s (128 * ln) 128).trans long.symm) w.mask
    have left := issueWrite_of_masked (s := { s with wq := s.wq.erase w }) (w := w) (by rw [at']; exact dram)
      (by rw [at']; exact sound) part flip
    rw [fitB_of_length long, at'] at left
    rw [show State.memBytes { s with wq := s.wq.erase w } (128 * ln) 128 = s.memBytes (128 * ln) 128 from rfl,
      fitB_of_length (merged.trans long)] at left
    exact ⟨_, congrArg Host.Outcome.next (issueOldest_of_open oldest (beq_eq_false_iff_ne.mpr part) open'),
      stores_of_issued oldest (merged.trans long) (by rw [at']; exact left)⟩

end Sys2Proof.Machine
end

section
/-! PROOFS. What is put in flight, and the copies and transactions that messages meet (10 R290 to R297, 11 R315; O25, O26, O28). -/

namespace Sys2Proof.Machine
open Sys2Proof

/-! ### Messages put in flight -/

/-- The same messages are in flight in two states, under the same timetables. -/
structure State.SameNet (s t : State) : Prop where
  net : t.net = s.net
  timetable : ∀ n, t.rdW (Reg.RTR_NET n) = s.rdW (Reg.RTR_NET n)

namespace State.SameNet

theorem of_regs {s t : State} (net : t.net = s.net) (regs : t.regs = s.regs) : s.SameNet t := ⟨net, fun _ => rdW_congr regs _⟩

theorem refl (s : State) : s.SameNet s := of_regs rfl rfl

theorem trans {s t u : State} (h : s.SameNet t) (h' : t.SameNet u) : s.SameNet u :=
  ⟨h'.net.trans h.net, fun n => (h'.timetable n).trans (h.timetable n)⟩

/-- A message is put behind those in flight. -/
theorem post {s t : State} (h : s.SameNet t) {m : Msg} (hk : m.kind ≠ .memData) : (t.post m).net = s.net ++ [s.stamp m] := by
  unfold State.post
  rw [stamp_of_rdW hk h.timetable, h.net]

end State.SameNet

theorem pmcStop_sameNet (s : State) (t : Nat) {k : Nat} (who : Option Ident) (hk : k < 16) : s.SameNet (s.pmcStop t k who) :=
  ⟨by simp only [kept @State.pmcStop_fr], rdW_net_pmcStop s t who hk⟩

theorem hev_sameNet (s : State) (h code : Nat) : s.SameNet (s.hev h code) :=
  .of_regs (by simp only [kept @State.hev_fr]) (by simp only [kept @State.hev_fr])

/-- An L3 slice's replacement counter is no timetable register. -/
theorem lfsrPick_sameNet (s : State) (t n : Nat) : s.SameNet (s.lfsrPick t n).2 :=
  ⟨rfl, fun _ => rdW_wr_other s _ _ (by simp only [Reg.RTR_NET, Reg.L3_LFSR]; omega)⟩

theorem memWr_sameNet (s : State) (ln : Nat) (d : LineData) (who : Option Ident) : s.SameNet (s.memWr ln d who) :=
  .of_regs (by simp only [State.memWr, kept @State.queueWrite_fr]) (regs_queueWrite s _)

theorem rdW_setHome (s : State) (t : Nat) (h : Home) (o : Nat) : (s.setHome t h).rdW o = s.rdW o := rfl

theorem l3Alloc_sameNet (s : State) (t ln : Nat) (d : LineData) (dirty : Bool) (pid : Nat) (who : Option Ident) :
    s.SameNet (s.l3Alloc t ln d dirty pid who) := by
  refine ⟨by simp only [kept @State.l3Alloc_fr], fun n => ?_⟩
  unfold State.l3Alloc
  dsimp only
  split
  · rfl
  · split
    · rfl
    · split_ifs
      · exact (memWr_sameNet ..).timetable n
      · rfl
      · have picked := lfsrPick_sameNet s t (s.l3Cands t ln pid).length
        rw [rdW_setHome]
        split
        next v _ =>
          split_ifs
          · exact (picked.trans (memWr_sameNet _ v.ln v.data who)).timetable n
          · exact picked.timetable n
        · exact picked.timetable n

/-! ### Copies -/

theorem find_drop (c : Cluster) (ln : Nat) : (c.drop ln).find ln = none := by
  unfold Cluster.find Cluster.drop
  rw [List.find?_eq_none]
  intro e he
  have kept' := (List.mem_filter.mp he).2
  simpa using kept'

/-- Misses of the L1s are counted, which only harts tell. -/
theorem hevs_keep (c : Nat) (l : List Nat) (s : State) :
    s.SameNet (l.foldl (fun s k => s.hev (6 * c + k) 0x1E) s) ∧ (l.foldl (fun s k => s.hev (6 * c + k) 0x1E) s).clusters = s.clusters := by
  induction l generalizing s with
  | nil => exact ⟨.refl s, rfl⟩
  | cons k l ih =>
    obtain ⟨net, clusters⟩ := ih (s.hev (6 * c + k) 0x1E)
    exact ⟨(hev_sameNet s _ _).trans net, clusters.trans (by simp only [kept @State.hev_fr])⟩

/-- The answer of a cluster to a snoop of a line it holds: with its data from M. -/
def L2Line.answer (x : L2Line) (p : HeldSnp) (c : Nat) : Msg :=
  ⟨if x.st = .m then .datDirty else .rspS, p.ln, p.home, c, if x.st = .m then x.data else noData, p.who, 0⟩

/-- What a snoop leaves of a copy: S, none, or the copy as it was (10 R296). -/
def SnpKind.leaves (k : SnpKind) (x : L2Line) : Option L2Line :=
  match k with
  | .share => some { x with st := .s }
  | .inval => none
  | .peek => some x

/-- A cluster after a snoop of a line it holds, before it answers. -/
def State.snooped (s : State) (c : Nat) (p : HeldSnp) (x : L2Line) : State :=
  match p.kind with
  | .share => s.putLine c { x with st := .s }
  | .inval => (s.setCluster c (((s.cluster c).drop p.ln).noUpgrade p.ln)).breakResv p.ln 1000 (fun h => hartCluster h == c)
  | .peek => s

/-- A copy is snooped, then answered from what it was. -/
theorem answerSnoop_eq {s : State} {c : Nat} {p : HeldSnp} {k : Nat} {x : L2Line} (found : (s.cluster c).find p.ln = some (k, x)) :
    ∃ u, s.SameNet u ∧ u.clusters = s.clusters ∧ s.answerSnoop c p = (u.snooped c p x).post (x.answer p c) := by
  obtain ⟨counted, clusters⟩ := hevs_keep c (below 6 (fun k => (s.cluster c).l1Has k p.ln)) s
  refine ⟨_, counted, clusters, ?_⟩
  obtain ⟨kind, ln, home, who⟩ := p
  unfold State.answerSnoop
  dsimp only at found ⊢
  rw [found]
  unfold L2Line.answer
  by_cases dirty : x.st = .m
  · rw [if_pos dirty, if_pos dirty]
    exact (if_pos (beq_iff_eq.mpr dirty)).trans (by cases kind <;> rfl)
  · rw [if_neg dirty, if_neg dirty]
    exact (if_neg (by rw [beq_iff_eq]; exact dirty)).trans (by cases kind <;> rfl)

/-- What a snoop leaves of the cluster. -/
theorem snooped_keeps {s : State} {c : Nat} {p : HeldSnp} {k : Nat} {x : L2Line} (found : (s.cluster c).find p.ln = some (k, x)) :
    s.SameNet (s.snooped c p x) ∧ ((s.snooped c p x).cluster c).find p.ln = (p.kind.leaves x).map (k, ·) ∧
      ((s.snooped c p x).cluster c).held = (s.cluster c).held := by
  have at' := ln_of_find found
  obtain ⟨kind, ln, home, who⟩ := p
  dsimp only at found at'
  cases kind with
  | share =>
    have put : s.putLine c { x with st := .s } =
        s.setCluster c { s.cluster c with l2 := Tab.ins (s.cluster c).l2 k { x with st := .s } } := by
      unfold State.putLine
      dsimp only
      rw [at', found]
    unfold State.snooped
    dsimp only
    rw [put, State.cluster_setCluster_same]
    exact ⟨.of_regs rfl rfl, find?_ins (p := fun e : Nat × L2Line => e.2.ln == ln) found (by rw [at']; exact beq_self_eq_true _), rfl⟩
  | inval =>
    have mine : ((s.setCluster c (((s.cluster c).drop ln).noUpgrade ln)).breakResv ln 1000
        (fun h => hartCluster h == c)).cluster c = ((s.cluster c).drop ln).noUpgrade ln := State.cluster_setCluster_same ..
    exact ⟨.of_regs rfl rfl, (congrArg (Cluster.find · ln) mine).trans (find_drop ..), (congrArg Cluster.held mine).trans rfl⟩
  | peek => exact ⟨.refl s, found, rfl⟩

/-- A snoop of a line that the cluster holds. -/
theorem answerSnoop_of_copy {s : State} {c : Nat} {p : HeldSnp} {k : Nat} {x : L2Line} (found : (s.cluster c).find p.ln = some (k, x)) :
    (s.answerSnoop c p).net = s.net ++ [s.stamp (x.answer p c)] ∧
      ((s.answerSnoop c p).cluster c).find p.ln = (p.kind.leaves x).map (k, ·) ∧
      ((s.answerSnoop c p).cluster c).held = (s.cluster c).held := by
  obtain ⟨u, counted, clusters, answered⟩ := answerSnoop_eq found
  have same : u.cluster c = s.cluster c := congrArg (Tab.get Cluster.empty · c) clusters
  obtain ⟨sent, stays, held⟩ := snooped_keeps (s := u) (by rw [same]; exact found)
  rw [answered]
  refine ⟨(counted.trans sent).post ?_, stays, held.trans (congrArg Cluster.held same)⟩
  unfold L2Line.answer
  dsimp only
  split_ifs <;> simp

/-- A snoop of a line that the cluster neither holds nor evicts. -/
theorem answerSnoop_of_absent {s : State} {c : Nat} {p : HeldSnp} (absent : (s.cluster c).find p.ln = none)
    (kept' : (s.cluster c).evicting p.ln = none) : s.answerSnoop c p = s.post ⟨.rspI, p.ln, p.home, c, noData, p.who, 0⟩ := by
  unfold State.answerSnoop
  dsimp only
  rw [absent]
  dsimp only
  rw [kept']

/-- No grant is in flight that was not before a message was taken out of flight. -/
theorem grantInFlight_erase {s : State} {a ln : Nat} (h : s.grantInFlight a ln = false) (m : Msg) :
    State.grantInFlight { s with net := s.net.erase m } a ln = false := by
  unfold State.grantInFlight at h ⊢
  rw [List.any_eq_false] at h ⊢
  exact fun y hy => h y (List.mem_of_mem_erase hy)

/-! ### Transactions in service -/

/-- A transaction replaced by one of the same line is the one in service there. -/
theorem txn_setTxn {h : Home} {ln : Nat} {x y : HTxn} (serving : h.txn ln = some x) (at' : y.req.ln = ln) :
    (h.setTxn y).txn ln = some y := by
  have was : x.req.ln = ln := eq_of_beq (List.find?_some (p := fun x : HTxn => x.req.ln == ln) serving)
  have same : ((fun x : HTxn => x.req.ln == ln) ∘ fun z => if z.req.ln == y.req.ln then y else z) = fun x => x.req.ln == ln := by
    funext z
    rw [Function.comp_apply]
    split_ifs with e
    · rw [at', eq_of_beq e, at']
    · rfl
  unfold Home.txn at serving ⊢
  unfold Home.setTxn
  rw [List.find?_map, same, serving, Option.map_some, if_pos (by rw [was, at']; exact beq_self_eq_true _)]

end Sys2Proof.Machine
end

section
/-! PROOFS. Evictions, snoops and the answers to snoops at their receivers (10 R290, R294 to R297; O26). -/

namespace Sys2Proof.Machine
open Sys2Proof

section
variable {s : State} {m : Msg} {a ln : Nat}

/-! ### Delivery -/

/-- A message of an eviction, or an answer to a snoop, reaches a home that is not fenced. -/
theorem deliverAns_of_comes {k : MKind} (comes : s.comes k a ln m) (open' : s.fenced m.home 0 = false) (f : Msg → State → State) :
    s.deliverAns k a ln f = f m { s with net := s.net.erase m } := by
  unfold State.deliverAns State.onKind State.onMsg
  rw [onMsgs_of_arriving comes]
  exact if_neg (by rw [show State.fenced { s with net := s.net.erase m } m.home 0 = s.fenced m.home 0 from rfl, open']; decide)

/-- A snoop reaches a cluster that is not fenced. -/
theorem deliverSnp_of_cluster {k : SnpKind} (comes : s.comesSnp k a ln m) (near : a < 36) (open' : s.fenced (agentStop a) 2 = false) :
    s.deliverSnp k a ln = State.snoop { s with net := s.net.erase m } a ⟨k, ln, m.home, m.who⟩ := by
  have nor : a ≠ 36 := by omega
  unfold State.deliverSnp State.onMsg
  rw [if_neg (fun h => nor h.1), onMsgs_of_arriving comes, if_neg nor]
  exact if_neg (by rw [show State.fenced { s with net := s.net.erase m } (agentStop a) 2 = s.fenced (agentStop a) 2 from rfl, open']; decide)

/-- A snoop that nothing holds back at a cluster is answered. -/
theorem snoop_of_free {p : HeldSnp} (near : a < 36) (free : s.holdsSnoop a p = false) : s.snoop a p = s.answerSnoop a p := by
  unfold State.snoop
  rw [if_neg (by omega), free]
  rfl

/-! ### Evictions -/

/-- A written-back line reaches the home that has the cluster as its owner. -/
theorem wbDirty_of_owner {c : Fin 36} {e : DirEnt} (comes : s.comes .wbDirty c ln m) (open' : s.fenced m.home 0 = false)
    (fresh : ((s.cluster c).evicting ln).any (·.taken) = false) (idle : (s.home m.home).txn ln = none)
    (listed : (s.home m.home).dirOf ln = some e) (owned : e.x = true) (owner : e.ptrs.contains c.val = true) :
    Completes (.wbDirty c ln) s (fun t =>
      t.net = s.net.erase m ++ [s.stamp ⟨.wbAck, ln, m.home, c, noData, m.who, 0⟩] ∧ (t.home m.home).dirOf ln = none) := by
  refine ⟨_, congrArg Host.Outcome.next (deliverAns_of_comes comes open' _), ?_⟩
  unfold State.wbDirtyAt
  dsimp only
  rw [show State.cluster { s with net := s.net.erase m } c = s.cluster c from rfl, fresh]
  generalize hu : State.setCluster { s with net := s.net.erase m } c { s.cluster c with
    evict := (s.cluster c).evict.map (fun (e : EvEnt) => if e.ln == ln then { e with taken := true } else e) } = u
  have homes : u.homes = s.homes := by rw [← hu]; rfl
  have start : State.SameNet { s with net := s.net.erase m } u := by rw [← hu]; exact .of_regs rfl rfl
  have counted := start.trans (pmcStop_sameNet u m.home (k := 9) m.who (by decide))
  have homes' : (u.pmcStop m.home 9 m.who).homes = s.homes := by simp only [kept @State.pmcStop_fr, homes]
  unfold State.absorbWb
  dsimp only
  rw [if_neg Bool.false_ne_true]
  generalize u.pmcStop m.home 9 m.who = v at counted homes'
  have logged : State.SameNet { s with net := s.net.erase m } (if v.fwGrants m.who (128 * ln) true = true then v
      else v.logFw m.who (128 * ln) true) := by
    split_ifs
    · exact counted
    · exact counted.trans (.of_regs rfl rfl)
  have home : (if v.fwGrants m.who (128 * ln) true = true then v else v.logFw m.who (128 * ln) true).home m.home = s.home m.home := by
    unfold State.home
    split_ifs <;> exact congrArg (Tab.get Home.empty · m.home) homes'
  generalize v.fwGrants m.who (128 * ln) true = ok at logged home
  generalize (if ok = true then v else v.logFw m.who (128 * ln) true) = w at logged home
  rw [home, idle, listed]
  dsimp only
  rw [if_neg Bool.false_ne_true, owned, owner, if_pos (by decide)]
  have absorbed : State.SameNet { s with net := s.net.erase m } (if ok = true then w.l3Alloc m.home ln m.data true m.who.pid (some m.who)
      else w) := by
    split_ifs
    · exact logged.trans (l3Alloc_sameNet ..)
    · exact logged
  generalize (if ok = true then w.l3Alloc m.home ln m.data true m.who.pid (some m.who) else w) = x at absorbed
  refine ⟨(absorbed.trans (.of_regs rfl rfl)).post (by simp), ?_⟩
  show ((x.setHome m.home ((x.home m.home).noDir ln)).home m.home).dirOf ln = none
  rw [State.home_setHome_same]
  exact Tab.look_del_same _ _

/-- An eviction notice reaches a home that serves nothing of the line: what its directory entry is then. -/
theorem evictClean_of_idle {c : Fin 37} {e : DirEnt} (comes : s.comes .evictClean c ln m) (open' : s.fenced m.home 0 = false)
    (idle : (s.home m.home).txn ln = none) (listed : (s.home m.home).dirOf ln = some e) {d : Option DirEnt}
    (left : e.x = true ∧ e.ptrs.contains c.val = true ∧ d = none ∨ e.x = false ∧ e.ovf = false ∧
      d = if e.ptrs.filter (· != c.val) = [] then none else some { e with ptrs := e.ptrs.filter (· != c.val) }) :
    Completes (.evictClean c ln) s (fun t =>
      t.net = s.net.erase m ++ [s.stamp ⟨.wbAck, ln, m.home, c, noData, m.who, 0⟩] ∧ (t.home m.home).dirOf ln = d) := by
  refine ⟨_, congrArg Host.Outcome.next (deliverAns_of_comes comes open' _), ?_⟩
  unfold State.evictClean
  dsimp only
  rw [show State.home { s with net := s.net.erase m } m.home = s.home m.home from rfl, idle]
  generalize hu : State.setHome { s with net := s.net.erase m } m.home _ = u
  have home : (u.home m.home).dirOf ln = some e := by
    rw [← hu, State.home_setHome_same]
    exact listed
  have start : State.SameNet { s with net := s.net.erase m } u := by rw [← hu]; exact .of_regs rfl rfl
  have dropped : ((u.dirDel m.home ln).home m.home).dirOf ln = none :=
    (congrArg (Home.dirOf · ln) (State.home_setHome_same ..)).trans (Tab.look_del_same _ _)
  rw [home]
  dsimp only
  obtain ⟨owned, owner, rfl⟩ | ⟨shared, named, rfl⟩ := left
  · rw [if_pos owned, owner]
    rw [if_pos (by rfl)]
    exact ⟨(start.trans (.of_regs rfl rfl)).post (by simp), dropped⟩
  · rw [if_neg (by rw [shared]; decide), if_neg (by rw [named]; decide)]
    by_cases last : e.ptrs.filter (· != c.val) = []
    · rw [last, if_pos rfl, if_pos (by rfl)]
      exact ⟨(start.trans (.of_regs rfl rfl)).post (by simp), dropped⟩
    · rw [if_neg last, if_neg (by simpa using last)]
      exact ⟨(start.trans (.of_regs rfl rfl)).post (by simp),
        (congrArg (Home.dirOf · ln) (State.home_setHome_same ..)).trans (Tab.look_ins_same _ _ _)⟩

/-! ### Snoops -/

/-- A snoop at a cluster that holds the line, and holds no snoop back for it. -/
theorem deliverSnp_of_copy {k : SnpKind} {j : Nat} {x : L2Line} (comes : s.comesSnp k a ln m) (near : a < 36)
    (open' : s.fenced (agentStop a) 2 = false) (granted : s.grantInFlight a ln = false)
    (free : k = .inval → s.reserved a ln = false) (found : (s.cluster a).find ln = some (j, x)) :
    (s.deliverSnp k a ln).net = s.net.erase m ++ [s.stamp (x.answer ⟨k, ln, m.home, m.who⟩ a)] ∧
      ((s.deliverSnp k a ln).cluster a).find ln = (k.leaves x).map (j, ·) := by
  have unheld : State.holdsSnoop { s with net := s.net.erase m } a ⟨k, ln, m.home, m.who⟩ = false := by
    unfold State.holdsSnoop
    dsimp only
    rw [grantInFlight_erase granted m, Bool.false_or]
    cases k with
    | inval => exact free rfl
    | share => rfl
    | peek => rfl
  rw [deliverSnp_of_cluster comes near open', snoop_of_free near unheld]
  obtain ⟨net, left, -⟩ := answerSnoop_of_copy (s := { s with net := s.net.erase m }) (p := ⟨k, ln, m.home, m.who⟩) found
  exact ⟨net, left⟩

/-- A snoop at the ring manager, whose watch cache holds the line. -/
theorem snpInval_of_watched (comes : s.comesSnp .inval 36 ln m) (open' : s.fenced (agentStop 36) 12 = false)
    (granted : s.grantInFlight 36 ln = false) (watched : s.watch.contains ln = true) :
    Completes (.snpInval 36 ln) s (fun t =>
      t.net = s.net.erase m ++ [s.stamp ⟨.rspS, ln, m.home, 36, noData, m.who, 0⟩] ∧ t.watch = s.watch.erase ln ∧ ln ∈ t.dbInval) := by
  have delivered : s.deliverSnp .inval 36 ln = State.snoop { s with net := s.net.erase m } 36 ⟨.inval, ln, m.home, m.who⟩ := by
    unfold State.deliverSnp State.onMsg
    rw [if_neg (by rw [granted]; decide), onMsgs_of_arriving comes, if_pos rfl]
    exact if_neg (by rw [show State.fenced { s with net := s.net.erase m } (agentStop 36) 12 = s.fenced (agentStop 36) 12 from rfl, open']; decide)
  refine ⟨_, congrArg Host.Outcome.next delivered, ?_⟩
  unfold State.snoop State.watchInval
  dsimp only
  rw [if_pos rfl, watched, if_pos rfl, if_pos rfl, if_pos rfl]
  refine ⟨rfl, rfl, ?_⟩
  show ln ∈ if s.dbInval.contains ln then s.dbInval else s.dbInval ++ [ln]
  split_ifs with named
  · exact List.contains_iff_mem.mp named
  · exact List.mem_append_right _ (List.mem_singleton_self ln)

/-! ### Answers -/

theorem txn_noUpgrade_if (c : Prop) [Decidable c] (h : Home) (ln a : Nat) : (if c then h.noUpgrade ln a else h).txn ln = h.txn ln := by
  split_ifs <;> rfl

/-- A snoop's answer that is not the last the transaction awaits. -/
theorem snoopAnswer_of_more {n : Nat} {x : HTxn} (keep : Bool) (dat : Option LineData) (serving : (s.home n).txn ln = some x)
    (awaited : x.await.contains a = true) (more : x.await.erase a ≠ []) (whole : x.half.contains a = false)
    (present : x.gone.contains a = false) :
    ((s.snoopAnswer n ln a keep dat).home n).txn ln = some { x with
        await := x.await.erase a, kept := if keep then x.kept ++ [a] else x.kept, got := dat.or x.got } ∧
      (s.snoopAnswer n ln a keep dat).net = s.net := by
  have at' : x.req.ln = ln := eq_of_beq (List.find?_some (p := fun x : HTxn => x.req.ln == ln) serving)
  have half : x.half.erase a = x.half := List.erase_of_not_mem (by rw [← List.contains_iff_mem, whole]; decide)
  have got : (match dat with
      | some g => some g
      | none => x.got) = dat.or x.got := by cases dat <;> rfl
  unfold State.snoopAnswer
  rw [serving]
  dsimp only
  rw [if_pos awaited, whole, present, half, if_neg Bool.false_ne_true, Bool.not_false, Bool.and_true, Bool.and_true,
    if_neg (by simpa using more)]
  refine ⟨?_, rfl⟩
  rw [State.home_setHome_same]
  have put := txn_setTxn (y := { x with
    await := x.await.erase a, kept := if keep then x.kept ++ [a] else x.kept, got := dat.or x.got }) serving at'
  rw [← got] at put ⊢
  exact (txn_noUpgrade_if ..).trans put

/-- The first half of a crossing (10 R297). -/
theorem crossing_of_first {n : Nat} {x : HTxn} (serving : (s.home n).txn ln = some x) (whole : x.half.contains a = false) :
    ((s.crossing n ln a none).home n).txn ln = some { x with half := x.half ++ [a] } ∧ (s.crossing n ln a none).net = s.net := by
  have at' : x.req.ln = ln := eq_of_beq (List.find?_some (p := fun x : HTxn => x.req.ln == ln) serving)
  unfold State.crossing
  rw [serving]
  dsimp only
  rw [whole, if_neg Bool.false_ne_true]
  refine ⟨?_, rfl⟩
  rw [State.home_setHome_same]
  exact txn_setTxn serving at'

end

/-- Settles O26, message by message: an eviction goes from the directory, a snoop is answered from the copy it meets, and an answer
leaves the transaction waiting for the others. -/
theorem evictionsAndSnoopsComplete : Obligations.EvictionsAndSnoopsComplete := by
  unfold Obligations.EvictionsAndSnoopsComplete
  refine ⟨?dirty, ?clean, ?cleanOfMany, ?share, ?peek, ?inval, ?absent, ?watch, ?gone, ?kept, ?crossing, ?data⟩
  case dirty => exact fun s c ln m e => wbDirty_of_owner
  case clean =>
    intro s c ln m e comes open' idle listed left
    refine evictClean_of_idle comes open' idle listed ?_
    obtain ⟨owned, owner⟩ | ⟨shared, named, last⟩ := left
    · exact .inl ⟨owned, owner, rfl⟩
    · exact .inr ⟨shared, named, (if_pos last).symm⟩
  case cleanOfMany =>
    intro s c ln m e comes open' idle listed shared named others
    exact evictClean_of_idle comes open' idle listed (.inr ⟨shared, named, (if_neg others).symm⟩)
  case share =>
    intro s a ln m k x comes near open' granted found
    obtain ⟨net, left⟩ := deliverSnp_of_copy comes near open' granted (fun h => nomatch h) found
    exact ⟨_, rfl, net, by rw [left]; rfl⟩
  case peek =>
    intro s a ln m k x comes near open' granted found
    obtain ⟨net, left⟩ := deliverSnp_of_copy comes near open' granted (fun h => nomatch h) found
    exact ⟨_, rfl, net, left⟩
  case inval =>
    intro s a ln m k x comes near open' granted free found
    obtain ⟨net, left⟩ := deliverSnp_of_copy comes near open' granted (fun _ => free) found
    exact ⟨_, rfl, net, left⟩
  case absent =>
    intro s a ln m comes near open' granted absent kept'
    have unheld : State.holdsSnoop { s with net := s.net.erase m } a ⟨.share, ln, m.home, m.who⟩ = false := by
      unfold State.holdsSnoop
      dsimp only
      rw [grantInFlight_erase granted m]
      rfl
    refine ⟨_, congrArg Host.Outcome.next ((deliverSnp_of_cluster comes near open').trans (snoop_of_free near unheld)), ?_⟩
    rw [answerSnoop_of_absent absent kept']
    rfl
  case watch => exact fun s ln m => snpInval_of_watched
  case gone =>
    intro s a ln m x comes ⟨open', serving, awaited, more, whole, present⟩
    have left := snoopAnswer_of_more (s := { s with net := s.net.erase m }) false none serving awaited more whole present
    exact ⟨_, congrArg Host.Outcome.next (deliverAns_of_comes comes open' _), left⟩
  case kept =>
    intro s a ln m x comes ⟨open', serving, awaited, more, whole, present⟩
    have left := snoopAnswer_of_more (s := { s with net := s.net.erase m }) true none serving awaited more whole present
    exact ⟨_, congrArg Host.Outcome.next (deliverAns_of_comes comes open' _), left⟩
  case crossing =>
    intro s a ln m x comes ⟨open', serving, _, _, whole, _⟩
    exact ⟨_, congrArg Host.Outcome.next (deliverAns_of_comes comes open' _),
      crossing_of_first (s := { s with net := s.net.erase m }) serving whole⟩
  case data =>
    intro s a ln m x comes ⟨open', serving, awaited, more, whole, present⟩
    have left := snoopAnswer_of_more (s := { s with net := s.net.erase m }) true (some m.data) serving awaited more whole present
    exact ⟨_, congrArg Host.Outcome.next (deliverAns_of_comes comes open' _), left⟩

end Sys2Proof.Machine
end

section
/-! PROOFS. Requests at a home that holds nothing of their line (09 R278, 10 R292 to R294; O25). -/

namespace Sys2Proof.Machine
open Sys2Proof

/-! ### Homes are stops -/

theorem hashHome_lt (pa : Nat) : hashHome pa < 64 := by
  have field (hi lo : Nat) (h : hi + 1 - lo ≤ 6 := by decide) : bitsOf pa hi lo < 2 ^ 6 :=
    Nat.lt_of_lt_of_le (bitsOf_lt ..) (Nat.pow_le_pow_right (by decide) h)
  unfold hashHome
  refine Nat.xor_lt_two_pow ?_ (field 51 49)
  refine Nat.xor_lt_two_pow ?_ (field 48 43)
  refine Nat.xor_lt_two_pow ?_ (field 42 37)
  refine Nat.xor_lt_two_pow ?_ (field 36 31)
  refine Nat.xor_lt_two_pow ?_ (field 30 25)
  refine Nat.xor_lt_two_pow ?_ (field 24 19)
  exact Nat.xor_lt_two_pow (field 12 7) (field 18 13)

theorem homeStop_lt (s : State) (pa : Nat) : s.homeStop pa < 64 := by
  unfold State.homeStop
  split
  · split_ifs
    · exact servingStop_lt s pa
    · exact hashHome_lt pa
  · exact hashHome_lt pa

/-- A remapped home is a stop too: the table's field is of 6 bits. -/
theorem homeFor_lt (s : State) (src ln : Nat) : s.homeFor src ln < 64 := by
  unfold State.homeFor State.remap
  dsimp only
  generalize (if s.on (Reg.RTR_NET src) F.RTR_NET_CURRENT then _ else _ : Nat) = e
  split
  · exact rd_lt ..
  · exact homeStop_lt s _

/-! ### A request is served -/

/-- `t` differs from `s` neither in what is in flight or how it is stamped, nor in the clusters, nor in the requests that wait at home
`n`. -/
structure State.Aside (s t : State) (n : Nat) : Prop where
  sent : s.SameNet t
  clusters : t.clusters = s.clusters
  waitq : (t.home n).waitq = (s.home n).waitq

namespace State.Aside

theorem refl (s : State) (n : Nat) : s.Aside s n := ⟨.refl s, rfl, rfl⟩

theorem trans {s t u : State} {n : Nat} (h : s.Aside t n) (h' : t.Aside u n) : s.Aside u n :=
  ⟨h.sent.trans h'.sent, h'.clusters.trans h.clusters, h'.waitq.trans h.waitq⟩

/-- The home is changed, but for the requests that wait there. -/
theorem setHome (s : State) {n : Nat} {x : Home} (h : x.waitq = (s.home n).waitq) : s.Aside (s.setHome n x) n :=
  ⟨.of_regs rfl rfl, rfl, by rw [State.home_setHome_same, h]⟩

/-- An event is counted at a stop. -/
theorem pmcStop (s : State) (n t : Nat) {k : Nat} (who : Option Ident) (hk : k < 16) : s.Aside (s.pmcStop t k who) n :=
  ⟨pmcStop_sameNet s t who hk, by simp only [kept @State.pmcStop_fr],
    congrArg (fun l => (Tab.get Home.empty l n).waitq) (by simp only [kept @State.pmcStop_fr])⟩

/-- A write is queued. -/
theorem queueWrite (s : State) (n : Nat) (w : WqEntry) : s.Aside (s.queueWrite w) n :=
  ⟨.of_regs (by simp only [kept @State.queueWrite_fr]) (regs_queueWrite s _), by simp only [kept @State.queueWrite_fr],
    congrArg (fun l => (Tab.get Home.empty l n).waitq) (by simp only [kept @State.queueWrite_fr])⟩

end State.Aside

/-- The transaction of a request with no snoop to send, and the directory way kept for it. -/
def HReq.begun (r : HReq) (way : Option Nat) : HTxn := ⟨r, [], none, [], [], [], false, false, 0, way, false⟩

section
variable {s : State} {n : Nat} {r : HReq}

/-- A transaction begins at a home that has no directory entry of its line: it has no snoop to send. -/
theorem beginSnoops_of_unlisted {x : HTxn} (unlisted : (s.home n).dirOf x.req.ln = none) (ready : x.dirWait = false) (next : State → State) :
    s.beginSnoops n x next = s.settle n x next := by
  unfold State.beginSnoops
  rw [unlisted, ← ready]
  rfl

/-- A request that a home could serve at once is served, as a transaction of its own; nothing waits for its end. -/
theorem arrive_of_open (below : n < 64) (opens : s.homeOpen n r.ln) (mem : s.isMem (128 * r.ln) = true)
    (granted : s.fwGrants r.who (128 * r.ln) r.kind.isWrite = true)
    (room : r.kind.makesEntry = true → (s.dirRoom n r.ln r.who.pid).isLeft = true) :
    ∃ way next u, s.Aside u n ∧ (u.home n).dirOf r.ln = none ∧ (u.home n).l3Find r.ln = none ∧
      (∀ t : State, (t.home n).waitq = (s.home n).waitq → next t = t) ∧ s.arrive n r = u.settle n (r.begun way) next := by
  obtain ⟨-, space, unserved, first, unheld, unlisted, uncopied⟩ := opens
  have counted := State.Aside.pmcStop s n n (k := 0) (some r.who) (by decide)
  have map := pmcStop_sameMap s (k := 0) (some r.who) below (by decide)
  have same : (s.pmcStop n 0 r.who).home n = s.home n :=
    congrArg (fun l => Tab.get Home.empty l n) (by simp only [kept @State.pmcStop_fr])
  unfold State.arrive
  dsimp only
  rw [if_neg (by omega)]
  generalize s.pmcStop n 0 r.who = v at counted map same
  have room' : r.kind.makesEntry = true → ∃ w, v.dirRoom n r.ln r.who.pid = .inl w := by
    intro makes
    rw [map.dirRoom same]
    exact Sum.isLeft_iff.mp (room makes)
  have fits : v.roomFor n r = true := by
    unfold State.roomFor
    cases makes : r.kind.makesEntry with
    | false => rfl
    | true =>
      obtain ⟨w, free⟩ := room' makes
      rw [free, Bool.or_true]
  have alone : (s.home n).waitq.any (fun y => y.ln == r.ln) = false := by
    rw [List.any_eq_false]
    intro y hy
    rw [beq_iff_eq]
    exact first y hy
  rw [same, unserved, alone, unheld, fits, if_neg (by decide)]
  have lawful : ¬ (r.kind != .dirEvict && !(v.isMem (128 * r.ln) && v.fwGrants r.who (128 * r.ln) r.kind.isWrite)) = true := by
    rw [map.isMem, map.fwGrants, mem, granted, Bool.and_self, Bool.not_true, Bool.and_false]
    decide
  unfold State.serve
  dsimp only
  rw [if_neg lawful, same, unlisted, Option.isNone_none, Bool.and_true]
  have idle (t : State) (waits : (t.home n).waitq = (s.home n).waitq) : t.waiter n (fun y => y.ln == r.ln) = none :=
    waiter_of_none (by rw [waits]; exact fun y hy => beq_eq_false_iff_ne.mpr (first y hy))
  have begins (x : HTxn) :
      s.Aside (v.setHome n { s.home n with txns := (s.home n).txns ++ [x] }) n ∧
        ((v.setHome n { s.home n with txns := (s.home n).txns ++ [x] }).home n).dirOf r.ln = none ∧
        ((v.setHome n { s.home n with txns := (s.home n).txns ++ [x] }).home n).l3Find r.ln = none := by
    rw [State.home_setHome_same]
    exact ⟨counted.trans (.setHome v (by rw [same])), unlisted, uncopied⟩
  split
  next makes =>
    obtain ⟨w, free⟩ := room' makes
    rw [free]
    dsimp only
    obtain ⟨aside, unlisted', uncopied'⟩ := begins (r.begun (some w))
    exact ⟨some w, _, _, aside, unlisted', uncopied', fun t waits => by rw [idle t waits], beginSnoops_of_unlisted unlisted' rfl _⟩
  next =>
    obtain ⟨aside, unlisted', uncopied'⟩ := begins (r.begun none)
    exact ⟨none, _, _, aside, unlisted', uncopied', fun t waits => by rw [idle t waits], beginSnoops_of_unlisted unlisted' rfl _⟩

/-- A request that needs the line's data reads memory. -/
theorem arrive_of_read (below : n < 64) (opens : s.homeOpen n r.ln) (mem : s.isMem (128 * r.ln) = true)
    (granted : s.fwGrants r.who (128 * r.ln) r.kind.isWrite = true)
    (room : r.kind.makesEntry = true → (s.dirRoom n r.ln r.who.pid).isLeft = true) (needs : needsData r none none = true) :
    (s.arrive n r).net = s.net ++ [s.stamp ⟨.memRead, r.ln, n, r.agent, noData, r.who, 0⟩] ∧ (s.arrive n r).clusters = s.clusters := by
  obtain ⟨way, next, u, aside, unlisted, uncopied, -, served⟩ := arrive_of_open below opens mem granted room
  have reads : u.settle n (r.begun way) next =
      State.post ((u.pmcStop n 2 r.who).setHome n (((u.pmcStop n 2 r.who).home n).setTxn { r.begun way with mem := true }))
        ⟨.memRead, r.ln, n, r.agent, noData, r.who, 0⟩ := by
    unfold State.settle HReq.begun
    dsimp only
    rw [unlisted, needs, if_pos rfl, uncopied]
  rw [served, reads]
  have all := (aside.trans (.pmcStop u n n (k := 2) (some r.who) (by decide))).trans
    (.setHome _ (x := ((u.pmcStop n 2 r.who).home n).setTxn { r.begun way with mem := true }) rfl)
  exact ⟨all.sent.post MKind.noConfusion, all.clusters⟩

/-- A request that needs no data does what its kind does, and answers. -/
theorem arrive_of_dataless (below : n < 64) (opens : s.homeOpen n r.ln) (mem : s.isMem (128 * r.ln) = true)
    (granted : s.fwGrants r.who (128 * r.ln) r.kind.isWrite = true)
    (room : r.kind.makesEntry = true → (s.dirRoom n r.ln r.who.pid).isLeft = true) (needs : needsData r none none = false)
    (someone : r.agent ≠ nobody) {k : MKind} (answers : k ≠ .memData) (P : List WqEntry → Prop)
    (acts : ∀ (u : State) way, (u.home n).dirOf r.ln = none → (u.home n).l3Find r.ln = none →
      ∃ v : State, u.Aside v n ∧ u.act n (r.begun way) noData false false = v.reply n r k noData ∧ P v.wq) :
    ((s.arrive n r).net = s.net ++ [s.stamp ⟨k, r.ln, n, r.agent, noData, r.who, 0⟩] ∧ (s.arrive n r).clusters = s.clusters) ∧
      P (s.arrive n r).wq := by
  obtain ⟨way, next, u, aside, unlisted, uncopied, idle, served⟩ := arrive_of_open below opens mem granted room
  obtain ⟨v, aside', acted, queued⟩ := acts u way unlisted uncopied
  have all := aside.trans aside'
  have finished : u.finish n (r.begun way) noData false false = v.post ⟨k, r.ln, n, r.agent, noData, r.who, 0⟩ := by
    unfold State.finish
    rw [if_neg (show ¬ (r.begun way).void = true from Bool.false_ne_true), if_neg (show ¬ (r.begun way).req.agent = nobody from someone), acted]
    exact if_neg someone
  have settled : u.settle n (r.begun way) next =
      next ((v.post ⟨k, r.ln, n, r.agent, noData, r.who, 0⟩).setHome n
        { v.home n with txns := (v.home n).txns.filter (fun y => y.req.ln != r.ln) }) := by
    unfold State.settle
    rw [finished]
    unfold HReq.begun
    dsimp only
    rw [unlisted, needs, if_neg (by decide)]
    rfl
  rw [served, settled, idle _ (by rw [State.home_setHome_same]; exact all.waitq)]
  exact ⟨⟨all.sent.post answers, all.clusters⟩, queued⟩

end

/-! ### What the kinds do that need no data (10 R294) -/

section
variable {s : State} {n : Nat} {r : HReq} {way : Option Nat}

/-- ZERO_UNIQUE makes the requester the owner. -/
theorem act_of_zeroUnique (kind : r.kind = .zeroUnique) :
    ∃ v : State, s.Aside v n ∧ s.act n (r.begun way) noData false false = v.reply n r .rspGrant noData := by
  unfold State.act HReq.begun
  dsimp only
  rw [kind]
  refine ⟨_, ?_, rfl⟩
  unfold State.dirPut
  exact (State.Aside.setHome s (x := (s.home n).l3Drop r.ln) rfl).trans (.setHome _ rfl)

/-- CMO_CLEAN finds nothing to clean. -/
theorem act_of_cmoClean (kind : r.kind = .cmoClean) (unlisted : (s.home n).dirOf r.ln = none) (uncopied : (s.home n).l3Find r.ln = none) :
    s.act n (r.begun way) noData false false = s.reply n r .rspWdone noData := by
  have clean : s.l3Clean n r.ln (some r.who) = s := by
    unfold State.l3Clean
    dsimp only
    rw [uncopied]
  unfold State.act HReq.begun
  dsimp only
  rw [kind]
  dsimp only
  rw [if_neg (by decide), clean, unlisted]

/-- CMO_FLUSH finds nothing to flush. -/
theorem act_of_cmoFlush (kind : r.kind = .cmoFlush) (uncopied : (s.home n).l3Find r.ln = none) :
    ∃ v : State, s.Aside v n ∧ s.act n (r.begun way) noData false false = v.reply n r .rspWdone noData := by
  have clean : s.l3Clean n r.ln (some r.who) = s := by
    unfold State.l3Clean
    dsimp only
    rw [uncopied]
  have taken : s.l3Take n r.ln = s := by
    unfold State.l3Take
    dsimp only
    rw [uncopied]
  unfold State.act HReq.begun
  dsimp only
  rw [kind]
  dsimp only
  rw [if_neg (by decide), clean, taken]
  exact ⟨_, .setHome s (x := (s.home n).noDir r.ln) rfl, rfl⟩

/-- A write from a home is queued, flipped or not. -/
theorem mem_queueWrite (s : State) {w : WqEntry} (src : w.src = .home) : ∃ f, { w with flip := f } ∈ (s.queueWrite w).wq := by
  unfold State.queueWrite
  rw [src, if_neg (by decide)]
  exact ⟨_, List.mem_append_right _ (List.mem_singleton.mpr rfl)⟩

/-- WR_FULL queues a write of the whole line. -/
theorem act_of_wrFull (kind : r.kind = .wrFull) (uncopied : (s.home n).l3Find r.ln = none) :
    ∃ v : State, s.Aside v n ∧ s.act n (r.begun way) noData false false = v.reply n r .rspWdone noData ∧
      ∃ f, ⟨r.ln, fitB 128 r.data, 2 ^ 128 - 1, false, .home, f, some r.who⟩ ∈ v.wq := by
  have uncopied' : ((s.dirDel n r.ln).home n).l3Find r.ln = none := by
    unfold State.dirDel
    rw [State.home_setHome_same]
    exact uncopied
  unfold State.act HReq.begun
  dsimp only
  rw [kind]
  dsimp only
  rw [uncopied', if_neg (by decide)]
  exact ⟨_, (State.Aside.setHome s (x := (s.home n).noDir r.ln) rfl).trans (.queueWrite _ n _), rfl, mem_queueWrite _ rfl⟩

/-- WR_MASK queues the masked write. -/
theorem act_of_wrMask (kind : r.kind = .wrMask) (unlisted : (s.home n).dirOf r.ln = none) (uncopied : (s.home n).l3Find r.ln = none) :
    ∃ v : State, s.Aside v n ∧ s.act n (r.begun way) noData false false = v.reply n r .rspWdone noData ∧
      ∃ f, ⟨r.ln, r.data, r.mask, false, .home, f, some r.who⟩ ∈ v.wq := by
  have uncopied' : ((s.dirDel n r.ln).home n).l3Find r.ln = none := by
    unfold State.dirDel
    rw [State.home_setHome_same]
    exact uncopied
  unfold State.act HReq.begun
  dsimp only
  rw [kind, unlisted]
  dsimp only
  rw [Option.any_none, if_neg (by decide), uncopied']
  exact ⟨_, (State.Aside.setHome s (x := (s.home n).noDir r.ln) rfl).trans (.queueWrite _ n _), rfl, mem_queueWrite _ rfl⟩

end

/-! ### Requesters -/

theorem setCluster_sameMap (s : State) (c : Nat) (x : Cluster) : s.SameMap (s.setCluster c x) := ⟨rfl, rfl, fun _ _ => rfl⟩

/-- A cluster's request reaches its home: it is marked as accepted, and arrives there. -/
theorem sendReq_of_asks {s : State} {c ln n : Nat} {k : ReqKind} {r : CReq} (asks : s.asks c k ln n r) :
    s.sendReq c ln k = (s.setCluster c { s.cluster c with reqs := s.reqsSent c r }).arrive n ⟨k, ln, c, r.who, r.stream, [], 0⟩ := by
  obtain ⟨waits, kept', open', home, ⟨on, space, -⟩, -, -⟩ := asks
  unfold State.sendReq
  dsimp only
  rw [waits, home, open', kept', on]
  dsimp only
  rw [if_neg (by decide), if_neg (by decide), if_neg (by omega)]

/-- What is left when a cluster's request was accepted by a home that sends one message. -/
theorem sendReq_keeps {s u : State} {c : Nat} {r : CReq} {m : Msg}
    (h : u.net = s.net ++ [s.stamp m] ∧ u.clusters = (s.setCluster c { s.cluster c with reqs := s.reqsSent c r }).clusters) :
    u.net = s.net ++ [s.stamp m] ∧ (u.cluster c).reqs = s.reqsSent c r := by
  have mine : u.cluster c = (s.setCluster c { s.cluster c with reqs := s.reqsSent c r }).cluster c :=
    congrArg (Tab.get Cluster.empty · c) h.2
  rw [mine, State.cluster_setCluster_same]
  exact ⟨h.1, rfl⟩

/-- A cluster's request that needs data. -/
theorem sendReq_of_read {s : State} {c ln n : Nat} {k : ReqKind} {r : CReq} (asks : s.asks c k ln n r)
    (room : (s.dirRoom n ln r.who.pid).isLeft = true) (needs : needsData ⟨k, ln, c, r.who, r.stream, [], 0⟩ none none = true) :
    (s.sendReq c ln k).net = s.net ++ [s.stamp ⟨.memRead, ln, n, c, noData, r.who, 0⟩] ∧
      ((s.sendReq c ln k).cluster c).reqs = s.reqsSent c r := by
  rw [sendReq_of_asks asks]
  obtain ⟨-, -, -, home, opens, mem, granted⟩ := asks
  exact sendReq_keeps (arrive_of_read (s := s.setCluster c { s.cluster c with reqs := s.reqsSent c r })
    (r := ⟨k, ln, c, r.who, r.stream, [], 0⟩) (home ▸ homeFor_lt ..) opens mem
    (((setCluster_sameMap ..).fwGrants ..).trans granted) (fun _ => room) needs)

/-- A cluster's request that needs none. -/
theorem sendReq_of_dataless {s : State} {c ln n : Nat} {k : ReqKind} {r : CReq} (asks : s.asks c k ln n r) (near : c < 36)
    (room : k.makesEntry = true → (s.dirRoom n ln r.who.pid).isLeft = true)
    (needs : needsData ⟨k, ln, c, r.who, r.stream, [], 0⟩ none none = false) {kind : MKind} (answers : kind ≠ .memData)
    (acts : ∀ (u : State) way, (u.home n).dirOf ln = none → (u.home n).l3Find ln = none →
      ∃ v : State, u.Aside v n ∧ u.act n (HReq.begun ⟨k, ln, c, r.who, r.stream, [], 0⟩ way) noData false false =
        v.reply n ⟨k, ln, c, r.who, r.stream, [], 0⟩ kind noData) :
    (s.sendReq c ln k).net = s.net ++ [s.stamp ⟨kind, ln, n, c, noData, r.who, 0⟩] ∧
      ((s.sendReq c ln k).cluster c).reqs = s.reqsSent c r := by
  rw [sendReq_of_asks asks]
  obtain ⟨-, -, -, home, opens, mem, granted⟩ := asks
  have someone : c ≠ nobody := by
    unfold nobody
    omega
  exact sendReq_keeps (arrive_of_dataless (s := s.setCluster c { s.cluster c with reqs := s.reqsSent c r })
    (r := ⟨k, ln, c, r.who, r.stream, [], 0⟩) (home ▸ homeFor_lt ..) opens mem
    (((setCluster_sameMap ..).fwGrants ..).trans granted) room needs someone answers (fun _ => True)
    (fun u way unlisted uncopied =>
      have ⟨v, aside, acted⟩ := acts u way unlisted uncopied
      ⟨v, aside, acted, trivial⟩)).1

/-- A request of a non-caching agent reaches its home. -/
theorem sendNc_of_asks {s : State} {a ln n : Nat} {who : Ident} {k : ReqKind} (asks : s.asksNc a who ln n k.isWrite)
    (data : List Byte) (mask : Nat) :
    s.sendNc a ln who k data mask = s.arrive n ⟨k, ln, nonCaching a, who, false, data, mask⟩ := by
  obtain ⟨open', home, ⟨on, -⟩, -, -⟩ := asks
  unfold State.sendNc
  dsimp only
  rw [home, open', on, if_neg (by decide), if_neg (by decide)]

/-- A write of a non-caching agent. -/
theorem sendNc_of_write {s : State} {a ln n : Nat} {who : Ident} {k : ReqKind} {data : List Byte} {mask : Nat}
    (asks : s.asksNc a who ln n true) (writes : k.isWrite = true) (plain : k.makesEntry = false)
    (needs : needsData ⟨k, ln, nonCaching a, who, false, data, mask⟩ none none = false) (P : List WqEntry → Prop)
    (acts : ∀ (u : State) way, (u.home n).dirOf ln = none → (u.home n).l3Find ln = none →
      ∃ v : State, u.Aside v n ∧ u.act n (HReq.begun ⟨k, ln, nonCaching a, who, false, data, mask⟩ way) noData false false =
        v.reply n ⟨k, ln, nonCaching a, who, false, data, mask⟩ .rspWdone noData ∧ P v.wq) :
    (s.sendNc a ln who k data mask).net = s.net ++ [s.stamp ⟨.rspWdone, ln, n, nonCaching a, noData, who, 0⟩] ∧
      P (s.sendNc a ln who k data mask).wq := by
  rw [sendNc_of_asks (by rw [writes]; exact asks)]
  obtain ⟨-, home, opens, mem, granted⟩ := asks
  have someone : nonCaching a ≠ nobody := by
    unfold nonCaching nobody
    omega
  obtain ⟨⟨net, -⟩, queued⟩ := arrive_of_dataless (r := ⟨k, ln, nonCaching a, who, false, data, mask⟩) (home ▸ homeFor_lt ..) opens mem
    (by rw [writes]; exact granted) (fun makes => absurd (plain.symm.trans makes) Bool.false_ne_true) needs someone
    (by decide) P acts
  exact ⟨net, queued⟩

/-- Settles O25: a request that its home could serve at once reads memory where it needs the line's data, and else does what its kind
does and answers. -/
theorem coherenceRequestsComplete : Obligations.CoherenceRequestsComplete := by
  unfold Obligations.CoherenceRequestsComplete
  refine ⟨?shared, ?noexcl, ?watch, ?unique, ?upgrade, ?zero, ?clean, ?flush, ?read, ?full, ?masked⟩
  case shared => exact fun s c ln n r asks room => ⟨_, rfl, sendReq_of_read asks room rfl⟩
  case noexcl =>
    intro s c ln n r asks room
    have near : ¬ (c.castSucc : Fin 37).val = 36 := by
      rw [Fin.val_castSucc]
      omega
    exact ⟨_, congrArg Host.Outcome.next (if_neg near), sendReq_of_read asks room rfl⟩
  case watch =>
    intro s ln n due idle open' home opens mem granted room
    refine ⟨_, congrArg Host.Outcome.next (if_pos rfl), ?_⟩
    unfold State.watchAsk
    dsimp only
    rw [due, idle, open', home, opens.1, if_neg (by decide), if_neg (by decide)]
    generalize s.lineWho ln = who at granted room
    exact (arrive_of_read (r := ⟨.rdNoexcl, ln, 36, who, false, [], 0⟩) (home ▸ homeFor_lt ..) opens mem granted
      (fun _ => room) rfl).1
  case unique => exact fun s c ln n r asks room => ⟨_, rfl, sendReq_of_read asks room rfl⟩
  case upgrade => exact fun s c ln n r asks room => ⟨_, rfl, sendReq_of_read asks room rfl⟩
  case zero =>
    exact fun s c ln n r asks room =>
      ⟨_, rfl, sendReq_of_dataless asks c.isLt (fun _ => room) rfl (by decide) (fun u way _ _ => act_of_zeroUnique rfl)⟩
  case clean =>
    exact fun s c ln n r asks =>
      ⟨_, rfl, sendReq_of_dataless asks c.isLt (fun makes => absurd makes (by decide)) rfl (by decide)
        (fun u way unlisted uncopied => ⟨u, .refl u n, act_of_cmoClean rfl unlisted uncopied⟩)⟩
  case flush =>
    exact fun s c ln n r asks =>
      ⟨_, rfl, sendReq_of_dataless asks c.isLt (fun makes => absurd makes (by decide)) rfl (by decide)
        (fun u way _ uncopied => act_of_cmoFlush rfl uncopied)⟩
  case read =>
    intro s a who ln n asks
    refine ⟨_, congrArg Host.Outcome.next (sendNc_of_asks (k := .rdNoalloc) asks [] 0), ?_⟩
    obtain ⟨-, home, opens, mem, granted⟩ := asks
    exact (arrive_of_read (r := ⟨.rdNoalloc, ln, nonCaching a, who, false, [], 0⟩) (home ▸ homeFor_lt ..) opens mem granted
      (fun makes => Bool.noConfusion makes) rfl).1
  case full =>
    exact fun s a who ln n data asks =>
      ⟨_, rfl, sendNc_of_write asks rfl rfl rfl (fun q => ∃ f, ⟨ln, fitB 128 data, 2 ^ 128 - 1, false, .home, f, some who⟩ ∈ q)
        (fun u way _ uncopied => act_of_wrFull rfl uncopied)⟩
  case masked =>
    exact fun s a who ln n data mask asks =>
      ⟨_, rfl, sendNc_of_write asks rfl rfl rfl (fun q => ∃ f, ⟨ln, data, mask, false, .home, f, some who⟩ ∈ q)
        (fun u way unlisted uncopied => act_of_wrMask rfl unlisted uncopied)⟩

end Sys2Proof.Machine
end

section
/-! PROOFS. Training, filling, authentication and self-test in MORNING and DEPOT (09 R263, R274, 16 R398, 17 R430, R433, 20 R492;
O17). -/

namespace Sys2Proof.Machine
open Sys2Proof

/-! ### Arriving in a mode -/

theorem cause_arriveMode (s : State) {cause : Nat} (code : cause < 2 ^ 8) (m src : Nat) :
    (s.arriveMode m cause src).rd Reg.PKG_MODE F.PKG_MODE_CAUSE = cause := by
  rw [rd_congr (regs_arriveMode ..)]
  show State.rd (((((s.wr Reg.PKG_MODE F.PKG_MODE_SRC src).wr Reg.PKG_MODE F.PKG_MODE_CAUSE cause).wr Reg.PKG_MODE F.PKG_MODE_MOVING 0).wr
    Reg.PKG_MODE F.PKG_MODE_TARGET m).wr Reg.PKG_MODE F.PKG_MODE_CURRENT m) _ _ = _
  rw [rd_wr_apart _ _ _ _ _ (by decide) (by decide), rd_wr_apart _ _ _ _ _ (by decide) (by decide),
    rd_wr_apart _ _ _ _ _ (by decide) (by decide), rd_wr_fits _ _ _ _ (by decide) (by decide) code]

theorem moving_arriveMode (s : State) (m cause src : Nat) : (s.arriveMode m cause src).moving = false := by
  unfold State.moving State.on
  rw [rd_congr (regs_arriveMode ..)]
  show (State.rd (((((s.wr Reg.PKG_MODE F.PKG_MODE_SRC src).wr Reg.PKG_MODE F.PKG_MODE_CAUSE cause).wr Reg.PKG_MODE F.PKG_MODE_MOVING 0).wr
    Reg.PKG_MODE F.PKG_MODE_TARGET m).wr Reg.PKG_MODE F.PKG_MODE_CURRENT m) _ _ == 1) = false
  rw [rd_wr_apart _ _ _ _ _ (by decide) (by decide), rd_wr_apart _ _ _ _ _ (by decide) (by decide),
    rd_wr_fits _ _ _ _ (by decide) (by decide) (by decide)]
  rfl

/-- Arriving in a mode changes one thing of the package's state at most, whether THERMTRIP# is low. -/
theorem pkg_arriveMode (s : State) (m cause src : Nat) :
    ∃ low, (s.arriveMode m cause src).pkg = { s.pkg with thermLow := low } := by
  have logged (u : State) (b : List Byte) : (if u.pmcRuns then u.logNow 2 b else u).pkg = u.pkg := by
    split
    · simp only [kept @State.logNow_fr]
    · rfl
  unfold State.arriveMode
  dsimp only
  rw [logged]
  split
  · exact ⟨false, rfl⟩
  · exact ⟨s.pkg.thermLow, rfl⟩

/-- What entering SIDING does first: the PMC is held no longer, and no warm-up is under way. -/
def State.unwarmed (s : State) : State := s.pk (fun p => { p with warmup := false, held := p.held.filter (fun d => d != .pmc) })

/-- The channels take the STATE they have in SIDING. -/
def State.sided (s : State) : State := s.forAll 16 (fun m s => s.wr (Reg.MCH_STATUS m) F.MCH_STATUS_STATE (s.sidingState m))

theorem pkg_sided (s : State) : s.sided.pkg = s.pkg := State.forAll_pkg _ _ _ (fun _ _ => rfl)

/-- SIDING is entered from a state that has authenticated the firmware where the state before had. -/
theorem enterSiding_eq (s : State) (cause src : Nat) :
    ∃ u : State, u.pkg.authed = s.pkg.authed ∧ s.enterSiding cause src = u.arriveMode MD.siding cause src := by
  have same : s.unwarmed.sided.pkg.authed = s.unwarmed.pkg.authed := congrArg Pkg.authed (pkg_sided s.unwarmed)
  exact ⟨{ s.unwarmed.sided with
    pmc := { s.unwarmed.sided.pmc with rom := s.unwarmed.sided.pmc.rom || [4, 9, 0xC].contains cause } }, same, rfl⟩

theorem mode_enterSiding (s : State) (cause src : Nat) : (s.enterSiding cause src).mode = MD.siding := by
  obtain ⟨u, -, arrives⟩ := enterSiding_eq s cause src
  rw [arrives]
  exact mode_arriveMode u (by decide) ..

theorem cause_enterSiding (s : State) {cause : Nat} (code : cause < 2 ^ 8) (src : Nat) :
    (s.enterSiding cause src).rd Reg.PKG_MODE F.PKG_MODE_CAUSE = cause := by
  obtain ⟨u, -, arrives⟩ := enterSiding_eq s cause src
  rw [arrives]
  exact cause_arriveMode u code ..

theorem authed_enterSiding (s : State) (cause src : Nat) : (s.enterSiding cause src).pkg.authed = s.pkg.authed := by
  obtain ⟨u, authed, arrives⟩ := enterSiding_eq s cause src
  obtain ⟨low, arrived⟩ := pkg_arriveMode u MD.siding cause src
  rw [arrives, arrived]
  exact authed

/-- Starting the PMC changes no register. -/
theorem mode_pmcStart (s : State) : s.pmcStart.mode = s.mode := mode_congr (by simp only [kept @State.pmcStart_fr])

theorem cause_pmcStart (s : State) (f : Fld) : s.pmcStart.rd Reg.PKG_MODE f = s.rd Reg.PKG_MODE f :=
  rd_congr (by simp only [kept @State.pmcStart_fr]) ..

theorem lost_pmcStart (s : State) : s.pmcStart.pkg.lost = s.pkg.lost := by
  have logged (w : List (Nat × List Byte)) (u : State) : (w.foldl (fun s p => s.logNow p.1 p.2) u).pkg = u.pkg := by
    induction w generalizing u with
    | nil => rfl
    | cons p w ih => exact (ih _).trans (by simp only [kept @State.logNow_fr])
  have begun : s.pmcBegin.pkg.lost = s.pkg.lost := by
    unfold State.pmcBegin
    dsimp only
    rw [logged]
    simp only [kept @State.logNow_fr]
    rfl
  unfold State.pmcStart
  dsimp only
  split
  · rw [← begun]
    simp only [kept @State.loadPmcImage_fr]
  · exact begun

/-! ### Training and filling -/

/-- The channels' STATUS registers are written as training ends. -/
theorem mode_trained (s : State) (f : Nat → State → State) (h : ∀ m u, (f m u).rdW Reg.PKG_MODE = u.rdW Reg.PKG_MODE) :
    (s.forAll 16 f).mode = s.mode := by
  have all (l : List Nat) (u : State) : (l.foldl (fun s i => f i s) u).rdW Reg.PKG_MODE = u.rdW Reg.PKG_MODE := by
    induction l generalizing u with
    | nil => rfl
    | cons m l ih => exact (ih _).trans (h m u)
  unfold State.mode State.rd State.forAll
  rw [all]

/-- The memory of `n` channels of `c` GiB laid out (09 R263). -/
def State.laidOut (s : State) (n c : Nat) : State :=
  s.wrs Reg.MEM_MAP [(F.MEM_MAP_TOP, n * c * 2 ^ 14), (F.MEM_MAP_WAYS_LOG2, if n = 16 then 4 else 3),
    (F.MEM_MAP_GRANULE, s.optByte 12 % 2)]

theorem mode_laidOut (s : State) (n c : Nat) : (s.laidOut n c).mode = s.mode := by
  unfold State.laidOut State.mode State.rd
  rw [rdW_wrs_other _ _ (by decide)]

theorem top_laidOut (s : State) (n c : Nat) : (s.laidOut n c).rd Reg.MEM_MAP F.MEM_MAP_TOP = n * c * 2 ^ 14 % 2 ^ 36 := by
  show State.rd (((s.wr Reg.MEM_MAP F.MEM_MAP_TOP (n * c * 2 ^ 14)).wr Reg.MEM_MAP F.MEM_MAP_WAYS_LOG2 _).wr Reg.MEM_MAP
    F.MEM_MAP_GRANULE _) _ _ = _
  rw [rd_wr_apart _ _ _ _ _ (by decide) (by decide), rd_wr_apart _ _ _ _ _ (by decide) (by decide),
    rd_wr_same _ _ _ _ (by decide) (by decide)]
  rfl

theorem ways_laidOut (s : State) (n c : Nat) :
    (s.laidOut n c).rd Reg.MEM_MAP F.MEM_MAP_WAYS_LOG2 = if n = 16 then 4 else 3 := by
  show State.rd (((s.wr Reg.MEM_MAP F.MEM_MAP_TOP (n * c * 2 ^ 14)).wr Reg.MEM_MAP F.MEM_MAP_WAYS_LOG2 _).wr Reg.MEM_MAP
    F.MEM_MAP_GRANULE _) _ _ = _
  rw [rd_wr_apart _ _ _ _ _ (by decide) (by decide), rd_wr_fits _ _ _ _ (by decide) (by decide) (by split <;> decide)]

/-- DRAM_TRAINING_DONE in MORNING, in two parts: the channels' STATUS is recorded, and then the memory is laid out or MORNING ends. -/
theorem exec_dramTrainingDone {s : State} {dimms : List (Option Dimm)} (mode : s.mode = MD.morning) :
    ∃ u : State, u.mode = MD.morning ∧ exec (.dramTrainingDone dimms) s = .next (if !populationOk dimms then
        ((if u.pkg.coldLoad then u.applyLimits else u).enterSiding 5 0).pmcStart
      else u.laidOut (below 16 (fun m => (nthD dimms m none).isSome)).length (match nthD dimms 0 none with
        | some d => d.gib * d.dpc
        | none => 0)) := by
  have apart (m : Nat) : Reg.PKG_MODE ≠ Reg.MCH_STATUS m := by simp only [Reg.PKG_MODE, Reg.MCH_STATUS]; omega
  show ∃ u : State, u.mode = MD.morning ∧ execDramTrainingDone dimms s = _
  unfold execDramTrainingDone
  rw [if_neg (by rw [mode]; decide)]
  extract_lets at_ trained
  have stays : trained.mode = MD.morning := by
    refine (mode_trained s _ fun m u => ?_).trans mode
    split
    · exact rdW_wrW_other u 0 (apart m)
    · exact rdW_wrs_other u _ (apart m)
  refine ⟨trained, stays, ?_⟩
  split
  · rfl
  · rfl

theorem memoryFillDone_completes {s : State} (mode : s.mode = MD.morning) (some' : s.populated ≠ [])
    (ready : ∀ m ∈ s.populated, s.rd (Reg.MCH_STATUS m) F.MCH_STATUS_STATE = 2 ∨ s.rd (Reg.MCH_STATUS m) F.MCH_STATUS_STATE = 3) :
    Completes .memoryFillDone s (fun t => t.mode = MD.depot ∧ t.pkg.lost = []) := by
  have goes : (s.mode != MD.morning || s.populated.isEmpty || s.populated.any (fun m =>
      let st := s.rd (Reg.MCH_STATUS m) F.MCH_STATUS_STATE; st != 2 && st != 3)) = false := by
    have none' : s.populated.any (fun m => let st := s.rd (Reg.MCH_STATUS m) F.MCH_STATUS_STATE; st != 2 && st != 3) = false := by
      rw [List.any_eq_false]
      intro m hm
      obtain state | state := ready m hm
      · dsimp only
        rw [state]
        decide
      · dsimp only
        rw [state]
        decide
    rw [mode, none', List.isEmpty_eq_false_iff.mpr some']
    decide
  refine ⟨_, show execMemoryFillDone s = _ by unfold execMemoryFillDone; rw [goes, if_neg (by decide)], ?_⟩
  generalize (below 16 _).foldl _ s = u
  unfold State.enterDepot
  obtain ⟨low, arrived⟩ := pkg_arriveMode (u.pk (fun p => { p with lost := [] })) MD.depot 1 0
  rw [mode_pmcStart, lost_pmcStart, arrived]
  exact ⟨mode_arriveMode _ (by decide) .., rfl⟩

/-! ### Authentication -/

theorem authed_applyOptions (s : State) : s.applyOptions.pkg.authed = s.pkg.authed := by
  have region (u : State) (c : Bool) (r base limit : Nat) : (if c then u.bootRegion r base limit else u).pkg = u.pkg := by
    split
    · simp only [kept @State.bootRegion_fr]
    · rfl
  have limits : s.applyLimits.pkg = s.pkg := by simp only [kept @State.applyLimits_fr]
  unfold State.applyOptions
  extract_lets o limited mb ml one gb gl fits both gw
  have same : both.pkg.authed = s.pkg.authed := by
    rw [← limits]
    exact congrArg Pkg.authed ((region one fits 1 gb gl).trans (region limited _ 0 mb ml))
  clear_value both
  split
  · exact same
  · exact same

theorem authed_bootCold (s : State) : s.bootCold.pkg.authed = s.pkg.authed := by
  unfold State.bootCold
  dsimp only
  split
  · show (if s.applyOptions.attached then s.applyOptions.bootPorts else s.applyOptions).pkg.authed = _
    split
    · exact (congrArg Pkg.authed (by simp only [kept @State.bootPorts_fr])).trans (authed_applyOptions s)
    · exact authed_applyOptions s
  · rfl

/-- What BOOT_AUTHENTICATION has checked and logged once the PMC image is judged. -/
def State.pmcJudged (s : State) : State :=
  let u := s.logFw7 1 (s.activeSlot 1) (s.imgCheck 1 (s.activeSlot 1)) 6
  if s.imgCheck 1 (s.activeSlot 1) = 0 then u.putInForce 1 (s.activeSlot 1) else u.romFallback

theorem pkg_pmcJudged (s : State) : s.pmcJudged.pkg = s.pkg := by
  unfold State.pmcJudged
  dsimp only
  split
  · simp only [kept @State.putInForce_fr, kept @State.logFw7_fr]
  · simp only [kept @State.romFallback_fr, kept @State.logFw7_fr]

/-- Whether the monitor body in DRAM has the digest recorded. -/
def State.bodyKept (s : State) : Bool :=
  Config.sha384 (s.memBytes s.resetVector (s.imgBody 2 (s.activeSlot 2)).length) == s.mramAt 0x1018 48

/-- Whether the monitor image fits a boot region, judged when its check is logged. -/
def State.fitsRegion (s : State) : Bool :=
  let v := s.logFw7 2 (s.activeSlot 2) (s.imgCheck 2 (s.activeSlot 2)) 6
  v.regionOk v.resetVector (le8 v.coldOpt 40)

theorem bootOk_eq (s : State) : s.bootOk = (decide (s.imgCheck 1 (s.activeSlot 1) = 0) &&
    (if s.pmcJudged.pkg.midWake then s.pmcJudged.bodyKept
     else decide (s.pmcJudged.imgCheck 2 (s.pmcJudged.activeSlot 2) = 0) && s.pmcJudged.fitsRegion)) := by
  by_cases good : s.imgCheck 1 (s.activeSlot 1) = 0
  · have judged : s.pmcJudged = (s.logFw7 1 (s.activeSlot 1) 0 6).putInForce 1 (s.activeSlot 1) := by
      unfold State.pmcJudged
      rw [good]
      exact if_pos rfl
    unfold State.bootOk
    dsimp only
    rw [← judged]
    generalize s.pmcJudged = u
    by_cases fine : u.imgCheck 2 (u.activeSlot 2) = 0
    · unfold State.fitsRegion
      rw [fine]
      rfl
    · rw [decide_eq_false fine, Bool.false_and, Bool.false_and]
      rfl
  · unfold State.bootOk
    dsimp only
    rw [decide_eq_false good, Bool.false_and, Bool.false_and]

/-- A failed authentication. -/
theorem siding_of_failed (s : State) : (s.enterSiding 6 0).pkg.authed = s.pkg.authed ∧ (s.enterSiding 6 0).mode = MD.siding ∧
    (s.enterSiding 6 0).rd Reg.PKG_MODE F.PKG_MODE_CAUSE = 6 :=
  ⟨authed_enterSiding .., mode_enterSiding .., cause_enterSiding s (by decide) 0⟩

theorem bootAuthentication_completes {s : State} (mode : s.mode = MD.depot) (new : s.pkg.authed = false) :
    Completes .bootAuthentication s (fun t => (s.bootOk = true → t.pkg.authed = true) ∧
      (s.bootOk = false → t.pkg.authed = false ∧ t.mode = MD.siding ∧ t.rd Reg.PKG_MODE F.PKG_MODE_CAUSE = 6)) := by
  have same : s.pmcJudged.pkg.authed = false := (congrArg Pkg.authed (pkg_pmcJudged s)).trans new
  have run : exec .bootAuthentication s = .next (
      let pr := s.imgCheck 1 (s.activeSlot 1)
      let u := s.pmcJudged
      let ms := u.activeSlot 2
      if u.pkg.midWake then
        let v := u.logFw7 2 ms (if u.bodyKept then 0 else 5) 6
        if pr = 0 ∧ u.bodyKept then v.pk (fun p => { p with authed := true })
        else (v.enterSiding 6 0).pk (fun p => { p with midWake := false })
      else
        let v := (u.logFw7 2 ms (u.imgCheck 2 ms) 6).bootCold
        if pr = 0 ∧ u.imgCheck 2 ms = 0 ∧ u.fitsRegion then
          (((v.copyBody (v.imgBody 2 ms)).setMram 0x1018 (sliceB (v.imgHeader 2 ms) 32 48)).putInForce 2 ms).pk
            (fun p => { p with authed := true })
        else v.enterSiding 6 0) := by
    show execBootAuthentication s = _
    unfold execBootAuthentication
    rw [if_neg (by rw [mode, new]; decide)]
    dsimp only
    rw [← State.pmcJudged]
    generalize s.pmcJudged = u
    unfold State.bodyKept State.fitsRegion
    split
    · split <;> rfl
    · split <;> rfl
  refine ⟨_, run, ?_⟩
  rw [bootOk_eq]
  generalize s.pmcJudged = u at same
  generalize s.imgCheck 1 (s.activeSlot 1) = pr
  dsimp only
  split
  next mid =>
    split
    next good => exact ⟨fun _ => rfl, fun bad => absurd bad (by rw [decide_eq_true good.1, good.2]; decide)⟩
    next bad =>
      have left := siding_of_failed (u.logFw7 2 (u.activeSlot 2) (if u.bodyKept then 0 else 5) 6)
      have same' : (u.logFw7 2 (u.activeSlot 2) (if u.bodyKept then 0 else 5) 6).pkg.authed = false :=
        (congrArg Pkg.authed (by simp only [kept @State.logFw7_fr])).trans same
      generalize State.enterSiding _ 6 0 = w at left ⊢
      obtain ⟨authed, arrived, cause⟩ := left
      refine ⟨fun good => absurd ?_ bad, fun _ => ⟨authed.trans same', arrived, cause⟩⟩
      rw [Bool.and_eq_true, decide_eq_true_eq] at good
      exact good
  next =>
    split
    next good =>
      exact ⟨fun _ => rfl, fun bad => absurd bad (by rw [decide_eq_true good.1, decide_eq_true good.2.1, good.2.2]; decide)⟩
    next bad =>
      obtain ⟨authed, arrived, cause⟩ :=
        siding_of_failed (u.logFw7 2 (u.activeSlot 2) (u.imgCheck 2 (u.activeSlot 2)) 6).bootCold
      have same' : (u.logFw7 2 (u.activeSlot 2) (u.imgCheck 2 (u.activeSlot 2)) 6).bootCold.pkg.authed = false :=
        (authed_bootCold _).trans ((congrArg Pkg.authed (by simp only [kept @State.logFw7_fr])).trans same)
      refine ⟨fun good => absurd ?_ bad, fun _ => ⟨authed.trans same', arrived, cause⟩⟩
      rw [Bool.and_eq_true, decide_eq_true_eq, Bool.and_eq_true, decide_eq_true_eq] at good
      exact good

/-! ### Self-test -/

/-- Two states agree on what self-test judges a die site by, and on the mode. -/
structure State.SameSites (s t : State) : Prop where
  coldOpt : t.coldOpt = s.coldOpt
  dies : t.pkg.dies = s.pkg.dies
  ndm : t.pkg.ndm = s.pkg.ndm
  iod : t.rd Reg.PKG_REV F.PKG_REV_IOD_STEP = s.rd Reg.PKG_REV F.PKG_REV_IOD_STEP
  feature : t.rdW Reg.PKG_FEATURE = s.rdW Reg.PKG_FEATURE
  mode : t.rdW Reg.PKG_MODE = s.rdW Reg.PKG_MODE

namespace State.SameSites

theorem refl (s : State) : s.SameSites s := ⟨rfl, rfl, rfl, rfl, rfl, rfl⟩

theorem trans {s t u : State} (h : s.SameSites t) (h' : t.SameSites u) : s.SameSites u :=
  ⟨h'.coldOpt.trans h.coldOpt, h'.dies.trans h.dies, h'.ndm.trans h.ndm, h'.iod.trans h.iod, h'.feature.trans h.feature,
    h'.mode.trans h.mode⟩

variable {s t : State} (h : s.SameSites t)
include h

theorem siteState (fails : List (Fin 12)) (d : Nat) : t.siteState fails d = s.siteState fails d := by
  unfold State.siteState State.strapFault State.lowersLevel State.on State.rd
  rw [h.dies, h.coldOpt, h.ndm]
  have iod := h.iod
  unfold State.rd at iod
  rw [iod, h.feature]

end State.SameSites

/-- A site's STATE is one of six codes. -/
theorem siteState_lt (s : State) (fails : List (Fin 12)) (d : Nat) : s.siteState fails d < 2 ^ 4 := by
  unfold State.siteState
  dsimp only
  split
  · decide
  · split_ifs <;> decide

/-- Where a die's registers stand: apart from the package's others. -/
theorem dieInfo_apart {e : Nat} (he : e < 12) : Reg.PKG_DIE_INFO e ≠ Reg.PKG_REV ∧ Reg.PKG_DIE_INFO e ≠ Reg.PKG_FEATURE ∧
    Reg.PKG_DIE_INFO e ≠ Reg.PKG_MODE ∧ Reg.PKG_DIE_INFO e ≠ Reg.PKG_DIE_ACTIVE := by
  simp only [Reg.PKG_DIE_INFO, Reg.PKG_REV, Reg.PKG_FEATURE, Reg.PKG_MODE, Reg.PKG_DIE_ACTIVE]
  omega

/-- Testing a site writes its own register and PKG_DIE_ACTIVE alone. -/
theorem rdW_siteTested_other (s : State) (fails : List (Fin 12)) (d : Nat) {o : Nat} (h : o ≠ Reg.PKG_DIE_INFO d)
    (h' : o ≠ Reg.PKG_DIE_ACTIVE) : (s.siteTested fails d).rdW o = s.rdW o := by
  unfold State.siteTested State.setDieState
  dsimp only
  rw [rdW_wrW_other _ _ h', rdW_wr_other _ _ _ h]
  have logged (u : State) (c : Bool) (f : Pkg → Pkg) : (if c then u.pk f else u).rdW o = u.rdW o := by
    split <;> rfl
  rw [logged]
  split
  · exact rdW_wrs_other s _ h
  · rfl

/-- It gives the site its STATE. -/
theorem dieState_siteTested (s : State) (fails : List (Fin 12)) {d : Nat} (hd : d < 12) :
    (s.siteTested fails d).dieState d = s.siteState fails d := by
  unfold State.siteTested State.setDieState State.dieState State.rd
  dsimp only
  rw [rdW_wrW_other _ _ (dieInfo_apart hd).2.2.2]
  exact rd_wr_fits _ _ _ _ (by decide) (by decide) (siteState_lt s fails d)

theorem sameSites_siteTested (s : State) (fails : List (Fin 12)) {d : Nat} (hd : d < 12) : s.SameSites (s.siteTested fails d) := by
  obtain ⟨rev, feature, mode, -⟩ := dieInfo_apart hd
  have sites : (s.siteTested fails d).pkg.dies = s.pkg.dies ∧ (s.siteTested fails d).pkg.ndm = s.pkg.ndm := by
    unfold State.siteTested State.setDieState
    dsimp only
    split
    · split <;> exact ⟨rfl, rfl⟩
    · split <;> exact ⟨rfl, rfl⟩
  refine ⟨by simp only [kept @State.siteTested_fr], sites.1, sites.2, ?_, rdW_siteTested_other s fails d feature.symm (by decide),
    rdW_siteTested_other s fails d mode.symm (by decide)⟩
  unfold State.rd
  rw [rdW_siteTested_other s fails d rev.symm (by decide)]

/-- Testing sites one after another: what each is judged by stays, and each gets its STATE. -/
theorem sitesTested (s : State) (fails : List (Fin 12)) (l : List Nat) (hl : ∀ d ∈ l, d < 12) (u : State) (h : s.SameSites u) :
    s.SameSites (l.foldl (fun s d => s.siteTested fails d) u) ∧ ∀ d < 12, d ∈ l ∨ u.dieState d = s.siteState fails d →
      (l.foldl (fun s d => s.siteTested fails d) u).dieState d = s.siteState fails d := by
  induction l generalizing u with
  | nil => exact ⟨h, fun d _ hd => hd.resolve_left List.not_mem_nil⟩
  | cons e l ih =>
    have he := hl e List.mem_cons_self
    obtain ⟨same, states⟩ := ih (fun d hd => hl d (List.mem_cons_of_mem e hd)) _ (h.trans (sameSites_siteTested u fails he))
    refine ⟨same, fun d hd tested => states d hd ?_⟩
    by_cases now : d = e
    · subst now
      exact .inr ((dieState_siteTested u fails hd).trans (h.siteState fails d))
    · refine tested.elim (fun among => .inl ((List.mem_cons.mp among).resolve_left now)) fun before => .inr ?_
      rw [← before]
      unfold State.dieState State.rd
      rw [rdW_siteTested_other u fails e (by simp only [Reg.PKG_DIE_INFO]; omega) (dieInfo_apart hd).2.2.2]

/-- Every site once tested, and PKG_REV shown. -/
def State.tested (s : State) (fails : List (Fin 12)) : State := (s.forAll 12 (fun d s => s.siteTested fails d)).showSteps

theorem mode_tested (s : State) (fails : List (Fin 12)) : (s.tested fails).mode = s.mode := by
  have same := (sitesTested s fails (List.range 12) (fun d hd => List.mem_range.mp hd) s (.refl s)).1.mode
  unfold State.tested State.showSteps State.forAll
  dsimp only
  unfold State.mode State.rd
  rw [rdW_wrs_other _ _ (by decide), same]

theorem dieState_tested (s : State) (fails : List (Fin 12)) {d : Nat} (hd : d < 12) :
    (s.tested fails).dieState d = s.siteState fails d := by
  have states := (sitesTested s fails (List.range 12) (fun d hd => List.mem_range.mp hd) s (.refl s)).2 d hd
    (.inl (List.mem_range.mpr hd))
  rw [← states]
  unfold State.tested State.showSteps State.forAll State.dieState State.rd
  dsimp only
  rw [rdW_wrs_other _ _ (dieInfo_apart hd).1]

theorem rdW_fence_other (s : State) (t : Nat) (agents : List Nat) (drained : Bool) {o : Nat} (h : o ≠ Reg.RTR_FENCE t) :
    (s.fence t agents drained).rdW o = s.rdW o := by
  unfold State.fence
  induction agents generalizing s with
  | nil => rfl
  | cons a agents ih => exact (ih _).trans (rdW_wrW_other s _ h)

theorem heldCluster_eq (s : State) : s.heldCluster = s ∨ ∃ c, s.heldCluster =
    (((s.fence (nthD clusterStops c 0) [2, 3] true).pk (fun p => { p with ldrLog := p.ldrLog ++ [0x500 + c] })).wr
      (Reg.PWR_UNIT c) F.PWR_UNIT_STATE 5).wr (Reg.PWR_UNIT (36 + c)) F.PWR_UNIT_STATE 5 := by
  unfold State.heldCluster
  split
  next c _ => exact .inr ⟨c, rfl⟩
  next => exact .inl rfl

theorem pkg_apart {o : Nat} (h : o < 0x3000000) (c : Nat) : o ≠ Reg.PWR_UNIT c ∧ o ≠ Reg.RTR_FENCE c := by
  simp only [Reg.PWR_UNIT, Reg.RTR_FENCE]
  omega

/-- A cluster that a debug reset holds is fenced by registers above the package's. -/
theorem rdW_heldCluster (s : State) {o : Nat} (h : o < 0x3000000) : s.heldCluster.rdW o = s.rdW o := by
  have noted (u : State) (f : Pkg → Pkg) : (u.pk f).rdW o = u.rdW o := rfl
  obtain free | ⟨c, held⟩ := heldCluster_eq s
  · rw [free]
  · rw [held, rdW_wr_other _ _ _ (pkg_apart h _).1, rdW_wr_other _ _ _ (pkg_apart h _).1, noted]
    exact rdW_fence_other s _ _ _ (pkg_apart h _).2

theorem dieState_congr {s t : State} (h : ∀ o < 0x3000000, t.rdW o = s.rdW o) {d : Nat} (hd : d < 12) : t.dieState d = s.dieState d := by
  unfold State.dieState State.rd
  rw [h _ (by simp only [Reg.PKG_DIE_INFO]; omega)]

theorem pairingBad_congr {s t : State} (h : ∀ o < 0x3000000, t.rdW o = s.rdW o) : t.pairingBad = s.pairingBad := by
  have through (u : State) : (List.range 12).any (fun d => u.dieState d == 4 || u.dieState d == 5) =
      ((List.range 12).map u.dieState).any (fun k => k == 4 || k == 5) := by
    rw [List.any_map]
    rfl
  have states : (List.range 12).map t.dieState = (List.range 12).map s.dieState :=
    List.map_congr_left fun d hd => dieState_congr h (List.mem_range.mp hd)
  unfold State.pairingBad
  rw [through, through, states]
  unfold State.rd
  rw [h _ (by decide)]

theorem activeSites_congr {s t : State} (h : ∀ o < 0x3000000, t.rdW o = s.rdW o) :
    below 12 (fun d => t.dieState d == 1) = below 12 (fun d => s.dieState d == 1) := by
  refine List.filter_congr fun d hd => ?_
  rw [dieState_congr h (List.mem_range.mp hd)]

/-- What SELF_TEST_DONE does once the sites have been tested. -/
def State.selfTested (u : State) (iodBase : Bool) : State :=
  if !iodBase then u.wr Reg.PKG_MODE F.PKG_MODE_CAUSE 8
  else if u.pairingBad then u.wr Reg.PKG_MODE F.PKG_MODE_CAUSE 7
  else if (below 12 (fun d => u.dieState d == 1)).isEmpty then u
  else u.setLevel.pk (fun p => { p with selfTest := true })

theorem exec_selfTestDone {s : State} {fails : List (Fin 12)} {iodBase : Bool} (mode : s.mode = MD.depot) :
    exec (.selfTestDone fails iodBase) s = .next ((s.tested fails).heldCluster.selfTested iodBase) := by
  show execSelfTestDone fails iodBase s = _
  unfold execSelfTestDone
  rw [if_neg (by rw [mode]; decide)]
  dsimp only
  rw [← State.tested]
  unfold State.selfTested
  split_ifs <;> rfl

/-- The package's CAUSE and level are recorded in registers that hold neither the mode nor a site's STATE. -/
theorem rdW_setLevel_other (s : State) {o : Nat} (h : o ≠ Reg.PKG_FEATURE) : s.setLevel.rdW o = s.rdW o := by
  unfold State.setLevel
  split
  · rfl
  · exact rdW_wrs_other s _ h

theorem level_setLevel (s : State) : s.setLevel.on Reg.PKG_FEATURE F.PKG_FEATURE_VALID = true := by
  unfold State.setLevel
  split
  · assumption
  · show (State.rd ((s.wr Reg.PKG_FEATURE F.PKG_FEATURE_VALID 1).wr Reg.PKG_FEATURE F.PKG_FEATURE_LEVEL s.minLevel) _ _ == 1) = true
    rw [rd_wr_apart _ _ _ _ _ (by decide) (by decide), rd_wr_fits _ _ _ _ (by decide) (by decide) (by decide)]
    rfl

theorem selfTested_keeps (u : State) (iodBase : Bool) :
    (u.selfTested iodBase).mode = u.mode ∧ ∀ d < 12, (u.selfTested iodBase).dieState d = u.dieState d := by
  have caused (v : Nat) : (u.wr Reg.PKG_MODE F.PKG_MODE_CAUSE v).mode = u.mode ∧
      ∀ d < 12, (u.wr Reg.PKG_MODE F.PKG_MODE_CAUSE v).dieState d = u.dieState d :=
    ⟨rd_wr_apart _ _ _ _ _ (by decide) (by decide), fun d hd => rd_wr_other _ _ _ _ (dieInfo_apart hd).2.2.1⟩
  unfold State.selfTested
  split_ifs
  · exact caused 8
  · exact caused 7
  · exact ⟨rfl, fun _ _ => rfl⟩
  · refine ⟨?_, fun d hd => ?_⟩
    · rw [State.mode, rd_pk, State.rd, rdW_setLevel_other u (by decide)]
      rfl
    · rw [State.dieState, rd_pk, State.rd, rdW_setLevel_other u (dieInfo_apart hd).2.1]
      rfl

/-- SELF_TEST_DONE in DEPOT keeps the mode and gives every site its STATE. -/
theorem selfTest_keeps {s : State} (fails : List (Fin 12)) (d : Fin 12) (iodBase : Bool) (mode : s.mode = MD.depot) :
    ((s.tested fails).heldCluster.selfTested iodBase).mode = MD.depot ∧
      ((s.tested fails).heldCluster.selfTested iodBase).dieState d = s.siteState fails d := by
  obtain ⟨stays, states⟩ := selfTested_keeps (s.tested fails).heldCluster iodBase
  have above : ∀ o < 0x3000000, (s.tested fails).heldCluster.rdW o = (s.tested fails).rdW o := fun o ho => rdW_heldCluster _ ho
  refine ⟨stays.trans ?_, (states d d.isLt).trans ((dieState_congr above d.isLt).trans (dieState_tested s fails d.isLt))⟩
  rw [State.mode, State.rd, above _ (by decide)]
  exact (mode_tested s fails).trans mode

/-! ### MAINLINE -/

theorem mainlineEntry_completes {s : State} (mode : s.mode = MD.depot) (authed : s.pkg.authed = true) (tested : s.pkg.selfTest = true)
    (level : s.on Reg.PKG_FEATURE F.PKG_FEATURE_VALID = true) (active : s.rdW Reg.PKG_DIE_ACTIVE ≠ 0) :
    Completes .mainlineEntry s (fun t => t.mode = MD.mainline ∧
      t.rd Reg.PKG_MODE F.PKG_MODE_CAUSE = (if s.pkg.midWake then 3 else 1) ∧ t.moving = false) := by
  refine ⟨_, show execMainlineEntry s = _ by unfold execMainlineEntry; rw [if_pos ⟨mode, authed, tested, level, active⟩], ?_⟩
  exact ⟨mode_arriveMode _ (by decide) .., cause_arriveMode _ (by split <;> decide) .., moving_arriveMode ..⟩

/-- Settles O17, command by command: MORNING lays memory out and ends, DEPOT authenticates, tests and is left for MAINLINE. -/
theorem morningAndDepotComplete : Obligations.MorningAndDepotComplete := by
  unfold Obligations.MorningAndDepotComplete
  refine ⟨?laid, ?unsupported, fun s => memoryFillDone_completes, fun s => bootAuthentication_completes, ?base, ?sites, ?passed,
    ?pairing, fun s => mainlineEntry_completes⟩
  case laid =>
    intro s dimms mode supported
    obtain ⟨u, stays, run⟩ := exec_dramTrainingDone (dimms := dimms) mode
    rw [supported, if_neg (by decide)] at run
    have size : (match nthD dimms 0 none with
        | some d => d.gib * d.dpc
        | none => 0) = (nthD dimms 0 none).elim 0 (fun d => d.gib * d.dpc) := by
      cases nthD dimms 0 none <;> rfl
    refine ⟨_, run, (mode_laidOut ..).trans stays, ?_, ways_laidOut ..⟩
    rw [← size]
    exact top_laidOut ..
  case unsupported =>
    intro s dimms mode unsupported
    obtain ⟨u, -, run⟩ := exec_dramTrainingDone (dimms := dimms) mode
    rw [unsupported, if_pos (by decide)] at run
    refine ⟨_, run, ?_, ?_⟩
    · rw [mode_pmcStart, mode_enterSiding]
    · rw [cause_pmcStart, cause_enterSiding _ (by decide)]
  case base =>
    intro s fails d mode
    obtain ⟨stays, state⟩ := selfTest_keeps fails d false mode
    exact ⟨_, exec_selfTestDone mode, rd_wr_fits _ _ _ _ (by decide) (by decide) (by decide), stays, state⟩
  case sites => exact fun s fails d mode => ⟨_, exec_selfTestDone mode, selfTest_keeps fails d true mode⟩
  case passed =>
    intro s fails mode sound some'
    have above : ∀ o < 0x3000000, (s.tested fails).heldCluster.rdW o = (s.tested fails).rdW o := fun o ho => rdW_heldCluster _ ho
    have run : (s.tested fails).heldCluster.selfTested true =
        (s.tested fails).heldCluster.setLevel.pk (fun p => { p with selfTest := true }) := by
      unfold State.selfTested
      rw [pairingBad_congr above, activeSites_congr above, State.tested, sound, some']
      rfl
    refine ⟨_, exec_selfTestDone mode, ?_, ?_, (selfTest_keeps fails 0 true mode).1⟩
    · rw [run]
      rfl
    · rw [run]
      exact level_setLevel _
  case pairing =>
    intro s fails mode bad
    have above : ∀ o < 0x3000000, (s.tested fails).heldCluster.rdW o = (s.tested fails).rdW o := fun o ho => rdW_heldCluster _ ho
    refine ⟨_, exec_selfTestDone mode, ?_, (selfTest_keeps fails 0 true mode).1⟩
    unfold State.selfTested
    rw [pairingBad_congr above, State.tested, bad]
    exact rd_wr_fits _ _ _ _ (by decide) (by decide) (by decide)

end Sys2Proof.Machine
end

section
/-! PROOFS. A flit that stands in a buffer of no virtual channel (11 R308, R314): the counterexample to O24. -/

namespace Sys2Proof.Machine
open Sys2Proof

/-- A flit in X+ travel at stop 0, for stop 8, in the buffer that the number 544 for its virtual channel makes. -/
def strayFlit : Flit :=
  { aux := 0, time := 0, addr := 0, index := 0, last := true, tag := 0, srcAgent := 0, dstAgent := 0, stage := 0, op := 0x41,
    who := ⟨0, .n⟩, poison := false, epoch := 0, vc := 544, cls := 2, src := 0, dst := 8, payload := [] }

/-- The package after reset, with that flit alone in its routers. -/
def strayFlits : State := State.reset.setBuf (bufKey 0 0 strayFlit.cls strayFlit.vc) [strayFlit]

/-- The buffer the flit stands in is, by `bufKey`, the one behind the link Y+ that it leaves by, on virtual channel 0. -/
theorem strayFlit_moves_nowhere :
    nextBuf 0 .yPos strayFlit.cls (outVc 0 .xPos .yPos strayFlit.vc) = bufKey 0 0 strayFlit.cls strayFlit.vc := by
  decide

/-- Refutes O24: FLIT_ROUTE of the one flit of a buffer is to leave that buffer empty and the buffer behind the output with one flit
more. `strayFlit`, whose number of a virtual channel is none of 11 R314, goes back to the buffer it came from. -/
theorem not_sweepsAndNetworkComplete : ¬ Obligations.SweepsAndNetworkComplete := by
  unfold Obligations.SweepsAndNetworkComplete
  rintro ⟨-, -, -, -, -, -, -, fromBuffer, -⟩
  have stands : strayFlits.buf (bufKey 0 0 strayFlit.cls strayFlit.vc) = [strayFlit] := by decide +kernel
  have leaves : strayFlits.outOf 0 .xPos strayFlit = .ok .yPos := by decide +kernel
  have wins : strayFlits.waits 0 .xPos strayFlit (bufKey 0 0 strayFlit.cls strayFlit.vc % 64) = false := by decide +kernel
  have uncut : strayFlits.fabric.cut.contains (0, flitHeader strayFlit) = false := rfl
  obtain ⟨t, -, -, emptied, filled⟩ := fromBuffer strayFlits 0 .xPos strayFlit 0 0 .yPos rfl stands leaves (by decide) wins uncut
  have moved : t.buf (bufKey 0 0 strayFlit.cls strayFlit.vc) ≠ [] := by
    rw [← strayFlit_moves_nowhere]
    exact fun none => List.append_ne_nil_of_right_ne_nil _ (List.cons_ne_nil _ _) (filled.symm.trans none)
  exact moved emptied

end Sys2Proof.Machine
end

section
/-! PROOFS. A table of homes that lists one home twice (10 R300, 21 R503): the counterexample to O28. -/

namespace Sys2Proof.Machine
open Sys2Proof

/-- A hart that tags the next instruction it retires (21 R503). -/
def taggedHart : Hart := { Hart.reset.wc Csr.mhssample 0x8000000000000000 with tagIn := 1 }

/-- DRAM of 64 KiB in one firewall region; samples of world S are kept, those of partition 0, in a buffer at address 0. -/
def sampledPackage : State :=
  ((((State.reset.wrW Reg.MEM_MAP 0x10000).wrW (Reg.FW_BASE 0) 0x8000000000000000).wrW (Reg.FW_ATTR 0) 0x1FE0000000000000).wrW
    Reg.ISO_DBG 4).wrW (Reg.PMON_SPIDS 1) 1

/-- A hold that is no hart's. -/
def shadowedHold : Hold := ⟨0, 0, 2, 0, false⟩

/-- The finished range operation of hart 0 at home 0, and home 1 listed twice: first with a directory entry for line 0 alone, then
with a hold. -/
def homeTwice : State :=
  { sampledPackage.setHart 0 taggedHart with
    homes := [(0, { Home.empty with holds := [⟨0, 0, 0, 0, true⟩] }), (1, { Home.empty with dir := [(0, ⟨false, [], false, 0⟩)] }),
      (1, { Home.empty with holds := [shadowedHold] })] }

/-- The holds of home 1 once the end of that range operation has reached the hart. -/
def homeTwiceLeft : List Hold :=
  match exec (.opDone (.range 0)) homeTwice with
  | .next t => (t.home 1).holds
  | _ => []

/-- The sample record of the instruction is written to line 0, and the home listed first, which then knows of nothing, goes from
the table. -/
theorem homeTwiceLeft_eq : homeTwiceLeft = [shadowedHold] := by
  decide +kernel

/-- Refutes O28: OP_DONE of a range operation is to leave a home the holds it had but the hart's. The instruction that retires with it is
tagged, and the write of its sample record takes away the entry of home 1 that `homeTwice` lists first, so that the second one's hold
is read. -/
theorem not_maintenanceComplete : ¬ Obligations.MaintenanceComplete := by
  unfold Obligations.MaintenanceComplete
  rintro ⟨-, -, -, -, done, -⟩
  have finished : homeTwice.rangeOver 0 = true := by decide +kernel
  have mine : (homeTwice.home 0).holds.any (fun r => decide (r.kind ≤ 1) && r.ways == 0) = true := by decide
  have none' : (homeTwice.home 1).holds = [] := by decide
  obtain ⟨t, ended, holds, -⟩ := done homeTwice 0 1 finished mine
  have read : homeTwiceLeft = (t.home 1).holds := by
    unfold homeTwiceLeft
    rw [ended]
  have left : [shadowedHold] = (homeTwice.home 1).holds.filter (fun r => !(decide (r.kind ≤ 1) && r.ways == 0)) :=
    homeTwiceLeft_eq.symm.trans (read.trans holds)
  rw [none'] at left
  exact List.cons_ne_nil _ _ left

end Sys2Proof.Machine
end
